-- ==== Sys2Proof/Word.lean ====
section
/-! DEFINITION. The word types of the module and their plainest arithmetic. -/

namespace Sys2Proof

/-- A byte of memory. -/
abbrev Byte := BitVec 8
/-- A register word (R432): registers take aligned 32-bit accesses only. -/
abbrev W32 := BitVec 32
/-- A clerk register, a counter, an item tag. -/
abbrev W64 := BitVec 64

/-- Bits `[hi:lo]` of `x`, both inclusive, bit 0 least significant (R3). -/
def bits (x hi lo : Nat) : Nat := (x >>> lo) % 2 ^ (hi + 1 - lo)

/-- Bit `i` of `x`. -/
def bit (x i : Nat) : Bool := (x >>> i) % 2 == 1

/-- `true` as 1, `false` as 0. -/
def b2n (b : Bool) : Nat := if b then 1 else 0

/-- Bits `[hi:lo]` of `x` replaced by `v`. -/
def setBits (x hi lo v : Nat) : Nat :=
  x - (bits x hi lo) <<< lo + (v % 2 ^ (hi + 1 - lo)) <<< lo

/-- `⌈a ÷ b⌉`. -/
def cdiv (a b : Nat) : Nat := (a + b - 1) / b

/-- The little-endian number of a byte list (R5). -/
def leNat : List Byte → Nat
  | [] => 0
  | b :: bs => b.toNat + 256 * leNat bs

/-- `n` bytes of `v`, little-endian (R5). -/
def leBytes : Nat → Nat → List Byte
  | 0, _ => []
  | n + 1, v => BitVec.ofNat 8 v :: leBytes n (v / 256)

/-- The value of `v` read as a two's-complement number of `w` bits. -/
def sInt (w v : Nat) : Int :=
  let u := v % 2 ^ w
  if u < 2 ^ (w - 1) then (u : Int) else (u : Int) - (2 ^ w : Nat)

/-- A two's-complement number of `w` bits as its pattern. -/
def uNat (w : Nat) (i : Int) : Nat := (i % ((2 ^ w : Nat) : Int)).toNat

end Sys2Proof
end

