-- ==== Sys2Proof/Syntax.lean ====
section
/-! DEFINITION. The commands of the module: one constructor of `Instr` per row of spec/opcode_table.json, with
the operands a command carries. Rows that a clerk executes name the core and the clerk; the instruction's own fields
are those of the word at the clerk's program counter. -/

namespace Sys2Proof

/-- The header of a PBP message as it arrives (R317). `crcOk` is false when the CRC-32C over it does not match;
`reserved` gathers its reserved bits; `length` is the LENGTH field. TYPE is the row. -/
structure PbpHdr where
  magic : Nat := 0x5042
  version : Nat := 0x12
  resent : Bool := false
  reserved : Nat := 0
  session : Nat := 0
  seq : Nat := 1
  ack : Nat := 0
  targetPos : Nat := 0
  box : Nat := 0
  length : Nat := 0
  crcOk : Bool := true
  /-- 20 µs passed before the supervisor could begin this access (R322). -/
  late : Bool := false
  /-- The manager relays the request to this module as a class 1 message (R323). -/
  relayed : Bool := false
  deriving DecidableEq, Repr

/-- The header of a fabric packet as it arrives on a port (R281). -/
structure PktHdr where
  port : Nat
  vc : Nat := 0
  downPhase : Bool := false
  dest : Nat
  src : Nat
  payloadLen : Nat := 0
  epoch : Nat
  seq : Nat := 0
  hopLimit : Nat := 32
  typeInfo : Nat := 0
  /-- Trailer: CRC matches. -/
  crcOk : Bool := true
  /-- Trailer END: 0x5A normal, 0xA5 stomped (R281, R284). -/
  endByte : Nat := 0x5A
  /-- Trailer LSEQ and ACK of this hop. -/
  lseq : Nat := 0
  ack : Nat := 0
  deriving DecidableEq, Repr

/-- One access of a REG_BATCH (R318): a read, or a write of a value. -/
structure RegOp where
  addr : Nat
  value : Option (BitVec 32)
  deriving DecidableEq, Repr

/-- Ring kinds of RING_SETUP (R309). -/
inductive RingKind where
  | submit | completion | deadLetter
  deriving DecidableEq, Repr

/-- The causes a clerk trap can have (R64). -/
inductive TrapKind where
  | accessFault | fetchParity | misaligned | illegal | other (cause : Nat)
  deriving DecidableEq, Repr

/-- Reasons for a declaration of death, in the order of R291's table. -/
inductive DeadReason where
  | linksLost | heartbeat | isolated | leaving | unreachable | command
  deriving DecidableEq, Repr

/-- Contents of a MEMBER packet (R282): what class 0 floods. -/
inductive MemberMsg where
  /-- Heartbeat with the module's BUDGET (R291, R406). -/
  | heartbeat (budget : Nat)
  /-- The sender reports its bundle in direction `dir`: its state in the order of R279, and whether it is LOST (R288). -/
  | bundleReport (dir state : Nat) (lost : Bool)
  /-- The sender found a position unreachable end to end (R287). -/
  | unreachable (pos : Nat)
  /-- Declaration of `pos` dead at `epoch` (R292). -/
  | declaration (pos : Nat) (epoch : Nat) (reason : DeadReason)
  /-- Promotion of `pos` to SERVING (R297). -/
  | promotion (pos : Nat) (epoch : Nat)
  /-- Admission of `pos` as SPARE (R298 step 8). -/
  | admission (pos : Nat) (epoch : Nat)
  /-- A change of manager (R294). -/
  | takeover (pos : Nat) (epoch : Nat)
  /-- Route phases of R288: STOP, the tables, GO, for a generation. -/
  | routeStop (gen : Nat)
  | routeTables (gen : Nat) (routes : List Nat)
  | routeAck (gen : Nat)
  | routeGo (gen : Nat)
  /-- The sender announces its reset (R291, R345). -/
  | leaving
  deriving DecidableEq, Repr

/-- One layer's directory entry in a mirror with key-value pages (R142): the layer record's 16 bytes, and its pages as
(page index, fill, key of the page at the home module). -/
structure MirrorDir where
  layer : Nat
  record : Nat
  origin : Nat
  endTok : Nat
  firstPage : Nat
  pages : List (Nat × Nat × Nat)
  deriving DecidableEq, Repr

/-- Contents of a BULK packet (R282). -/
inductive BulkMsg where
  /-- A mirror of a registered stream: its payload and header values (R142). -/
  | mirror (stream : Nat) (stepCount : Nat) (lineage : Nat) (gen : Nat) (payload : List Byte) (dirs : List MirrorDir)
  /-- A mirrored key-value page (R142): its key at the home module, its run and its bytes. -/
  | mirrorPage (key run : Nat) (data : List Byte)
  /-- Registration of a group (R142): its box, context frames, places, group block and state parameter block. -/
  | register (box frames : Nat) (streams : List Nat) (block params : Nat)
  /-- A relayed sealed image (R336). -/
  | image (component : Nat) (bytes : List Byte)
  /-- A tensor transfer, or a relayed host write of box memory (R307): bytes for a box virtual address. -/
  | tensor (box : Nat) (va : Nat) (data : List Byte)
  deriving DecidableEq, Repr

/-- LINK_CTRL packet contents (R282). -/
inductive LinkCtrl where
  | ack (lseq : Nat)
  | nack (lseq : Nat)
  | credit (vc units : Nat)
  deriving DecidableEq, Repr

/-- Stepping and versions a JOIN carries (R298 step 3), and the outcomes of its steps 6 and 7, which are the
environment's (self-test and attestation verdicts). -/
structure JoinReq where
  pos : Nat
  stepping : Nat
  version : Nat
  selfTestOk : Bool
  quoteOk : Bool
  deriving DecidableEq, Repr

inductive Instr where
  -- items (R18)
  /-- OPEN_GROUP takes effect for ledger item `id`. -/
  | openGroup (id : Nat)
  | fork (id : Nat)
  | step (id : Nat)
  /-- The commit of entry `k` of STEP item `id`. -/
  | stepCommit (id k : Nat)
  | boundaryCull (id : Nat)
  | cull (id : Nat)
  | endStreams (id : Nat)
  | closeGroup (id : Nat)
  | park (id : Nat)
  | recall (id : Nat)
  | backward (id : Nat)
  | kernel (id : Nat)
  | sync (id : Nat)
  /-- The ledger takes the next entry of submission ring `ring` of `box`. -/
  | ringEntryTake (box ring : Nat)
  | deadlineReached (id : Nat)
  -- instances (R103, R118, R258, R261)
  /-- The dispatcher places the next instance of entry (or KERNEL instance) `k` of item `id`. -/
  | instancePlace (id k : Nat)
  | instanceStart (core : Nat)
  | instanceEnd (core : Nat)
  | instanceSteal (core : Nat)
  | kernelWatchdog (core : Nat)
  -- tile extension (R61)
  | tdld (core clerk : Nat)
  | tdst (core clerk : Nat)
  | tdset (core clerk : Nat)
  | mxwl (core clerk : Nat)
  | shadowReadySet (core : Nat)
  | mxmul (core clerk : Nat)
  | bankSwap (core : Nat)
  | drn (core clerk : Nat)
  | drainDone (core : Nat)
  | crr (core clerk : Nat)
  | twait (core clerk : Nat)
  | tparm (core clerk : Nat)
  | tstat (core clerk : Nat)
  | ecall (core clerk : Nat)
  | clerkTrap (core clerk : Nat) (kind : TrapKind)
  | issueQueueRoom (core clerk : Nat)
  -- vector engine (R57)
  | add (core clerk : Nat)
  | sub (core clerk : Nat)
  | mul (core clerk : Nat)
  | fma (core clerk : Nat)
  | min (core clerk : Nat)
  | max (core clerk : Nat)
  | cmplt (core clerk : Nat)
  | cmpeq (core clerk : Nat)
  | sel (core clerk : Nat)
  | cvt (core clerk : Nat)
  | abs (core clerk : Nat)
  | neg (core clerk : Nat)
  | exp (core clerk : Nat)
  | log (core clerk : Nat)
  | rcp (core clerk : Nat)
  | rsqrt (core clerk : Nat)
  | sigmoid (core clerk : Nat)
  | tanh (core clerk : Nat)
  | rsum (core clerk : Nat)
  | rmax (core clerk : Nat)
  | rargmax (core clerk : Nat)
  | rsumsq (core clerk : Nat)
  | softmaxStep (core clerk : Nat)
  | softmaxFinal (core clerk : Nat)
  | rmsnorm (core clerk : Nat)
  | layernorm (core clerk : Nat)
  | scan (core clerk : Nat)
  | stateRms (core clerk : Nat)
  | topk (core clerk : Nat)
  | pool (core clerk : Nat)
  | dwconv (core clerk : Nat)
  -- walker (R159, R160): `q` is the courier whose head request runs
  | walkIssue (core clerk : Nat)
  | lengths (core q : Nat)
  | gatherK (core q : Nat)
  | gatherV (core q : Nat)
  | appendK (core q : Nat)
  | appendV (core q : Nat)
  | bias (core q : Nat)
  | kvPoolAllocResume (box : Nat)
  -- ramp (R46, R47): `groups` is the LANE_GROUPS value reached
  | mxeRampUp (core groups : Nat)
  | mxeRampDown (core groups : Nat)
  | mxeRampOff (core : Nat)
  | mxeRampReverse (core : Nat)
  -- pigeonholes (R51)
  | pigeonholeRetire (core ph : Nat) (uncorrectable : Bool) (corrected : Nat)
  | pigeonholeRemap (core : Nat)
  -- compression (R206-R212)
  /-- The expander of `core` decodes the block at box virtual address `va` for tensor `tensor` of its kernel, whole,
  into the core buffer at `dest`. -/
  | expanderDecodeBlock (core tensor va dest : Nat)
  | encodeBlock (core va : Nat)
  | encodeBufferWrite (core tensor va : Nat) (data : List Byte)
  | encodeBufferWriteout (core : Nat)
  -- codebook unit (R202, R203)
  | census (slot box alphabet : Nat) (accum : Bool) (va units : Nat)
  | replaceStaged (slot box : Nat)
  | replaceImage (slot box va : Nat)
  | release (slot box : Nat)
  | restore (slot box gen va : Nat)
  | codebookInstall (slot : Nat)
  -- die-cache operations (R227, R228)
  | cas (da : Nat) (expected new : W64)
  | fetchAdd (da : Nat) (addend : W64)
  | swap (da : Nat) (new : W64)
  | reductionWrite (box va : Nat) (data : List Byte)
  -- memory (R229-R240)
  | regulatorAdmit (die box : Nat)
  | hbmTempReport (stack celsius : Nat)
  /-- Map-out of channel `ch` of `stack` for a cause of R231: 1 uncorrectable, 2 corrected limit, 3 command, 4 training. -/
  | channelMapout (stack ch cause : Nat)
  | evacuationPageCopy (die page : Nat)
  | evacuationDone (die : Nat)
  | redirectCopyBack (die page : Nat)
  | absentTouch (box va : Nat)
  | granuleFillDone (granule : Nat) (uncorrectable : Bool)
  | granuleWritebackDone (granule : Nat)
  | ageWriteback
  | prefetch (box va units : Nat)
  | tierFlush (box va units : Nat)
  | tierEvict (box va units : Nat)
  | discard (box va units : Nat)
  | flashHousekeeping
  | readDisturbRelocate (block : Nat)
  | flashBlockRetire (block : Nat)
  | flashStateChange (sparePermille wearPct : Nat)
  | writeHeld (low : Bool)
  -- time (R251-R256)
  /-- A PTP message carrying the grandmaster's time; `usable` by R252's conditions. -/
  | ptpMessage (masterNs : Nat) (usable : Bool)
  | lossTimeout
  | holdoverLimit
  | localStart
  | firstRoundBoundary
  | roundBoundary
  | collection (index : Nat)
  | quietWindowStart (index : Nat)
  | sliceSchedule
  | sliceStart (core : Nat)
  /-- The slice's observed signature; `matches` is SUPERVISOR's comparison with the value its image carries (R377);
  `dip` when the core's rail dipped during the slice (R414). -/
  | sliceEnd (core : Nat) (observed : W64) (signatureMatches dip : Bool)
  | sliceOverdue (core minutes : Nat)
  -- boxes (R267, R268)
  | boxEnable (box session : Nat)
  | boxDisable (box : Nat)
  | boxDrainLimit (box : Nat)
  | boxQuiesce (box : Nat)
  | boxRelease (box : Nat)
  -- residency and mirrors (R137-R144)
  | outboundMoveDone (stream : Nat)
  | inboundMoveDone (stream : Nat)
  | arenaWaitResume (box : Nat)
  | mirrorAck (stream : Nat)
  | mirrorTimeout (stream : Nat)
  | adoption (pos : Nat)
  | mirrorResync (stream : Nat)
  -- links (R278-R289)
  /-- What DETECT finds on each of the four lanes: a LANE_DIAG code (R423). -/
  | linkDetect (port d0 d1 d2 d3 : Nat)
  | linkTrainDone (port farPos farPort farStepping : Nat) (polarity reversed : Bool)
  | linkNegotiate (port farVersion : Nat)
  /-- Why the member left UP: 0 lock lost, 1 retry limit, 2 RETRAIN written (R280). -/
  | linkRetrain (port reason : Nat)
  | retrainTimeout (port : Nat)
  | linkDownRetry (port : Nat)
  | linkCtrlPacket (port : Nat) (msg : LinkCtrl)
  /-- A TIME_SYNC exchange with the parent: the parent's time state and the offset it measures (R289). -/
  | timeSync (port parentState : Nat) (offsetNs : Int)
  | fence (port epoch : Nat)
  | fenceSend (port : Nat)
  | member (hdr : PktHdr) (msg : MemberMsg)
  | budget (hdr : PktHdr) (pos stamps : Nat)
  /-- A forwarded submission: the box, the ring entry's position and the item's descriptor (R282, R324). -/
  | item (hdr : PktHdr) (box ring count : Nat) (desc : List Byte)
  /-- A worker's completion or dead-letter entry for item `tag` of `box` (R282, R324). -/
  | result (hdr : PktHdr) (box : Nat) (tag : W64) (failed : Bool) (entry : List Byte)
  | msgAck (hdr : PktHdr) (cls : Nat)
  | bulk (hdr : PktHdr) (msg : BulkMsg)
  | e2eTimeout (dest cls seq : Nat)
  | heartbeatSend
  | heartbeatMiss (pos : Nat)
  | bundleLost (dir : Nat)
  | isolatedTimeout (pos : Nat)
  | declareDead (pos : Nat) (reason : DeadReason)
  | standbyTakeover
  | routeChange
  | routeTablesInstall (gen : Nat) (routes : List Nat)
  | routeGo (gen : Nat)
  | routeWaitDiscard (dir : Nat)
  | join (req : JoinReq)
  | fabCmdDeclareDead (pos : Nat)
  | clearBar (pos : Nat)
  | recomputeRoutes
  -- PBP (R317-R325)
  | hello (hdr : PbpHdr) (lowest highest : Nat)
  | bye (hdr : PbpHdr)
  | keepalive (hdr : PbpHdr)
  | regRead (hdr : PbpHdr) (addr : Nat)
  | regWrite (hdr : PbpHdr) (addr : Nat) (value : W32)
  | regBatch (hdr : PbpHdr) (ops : List RegOp)
  | submitEmu (hdr : PbpHdr) (entry desc : List Byte)
  | connect (hdr : PbpHdr) (hostQp psn mtu role : Nat)
  | ringSetup (hdr : PbpHdr) (kind : RingKind) (index sizeLog2 addr key : Nat)
  | pbpResume (hdr : PbpHdr) (oldSession : Nat)
  | imageBegin (hdr : PbpHdr) (component size : Nat)
  | imageData (hdr : PbpHdr) (offset : Nat) (data : List Byte)
  | imageEnd (hdr : PbpHdr) (component : Nat)
  | start (hdr : PbpHdr)
  | map (hdr : PbpHdr) (va : Nat) (entry : W64)
  | unmap (hdr : PbpHdr) (va : Nat)
  | regionAdd (hdr : PbpHdr) (record : List Byte)
  | regionSet (hdr : PbpHdr) (index encodeSlot thresh : Nat)
  | codebook (hdr : PbpHdr) (word : W32) (addr length : Nat)
  | tier (hdr : PbpHdr) (word : W32) (addr length : Nat)
  | keyInstall (hdr : PbpHdr) (key : List Byte)
  | attest (hdr : PbpHdr) (nonce : List Byte)
  | fwStatus (hdr : PbpHdr)
  -- RoCEv2 and rings (R306-R316)
  | sqTail (conn ring : Nat) (count : W32)
  | cqHead (conn : Nat) (count : W32)
  | dlqHead (conn : Nat) (count : W32)
  | rdmaWrite (conn key : Nat) (va : W64) (data : List Byte)
  | rdmaRead (conn key : Nat) (va : W64) (len : Nat)
  | cnpReceive (conn : Nat)
  /-- The next waiting entry of the box's completion (`deadLetter` false) or dead-letter ring is written. -/
  | entryPost (box : Nat) (deadLetter : Bool)
  | entryPosted (box : Nat) (deadLetter : Bool)
  | notice (box : Nat) (deadLetter : Bool)
  | sessionTimeout (session : Nat)
  | hostLinkChange (speed an : Nat) (pcsLock : Bool)
  -- firmware (R331-R345)
  | componentFault (component cause processor : Nat) (pc : W64)
  | fwWatchdog (component : Nat)
  /-- `digestOk`: step 3 of R341 found the retained image's digest equal to the recorded one. -/
  | componentRestart (component : Nat) (digestOk : Bool)
  | componentRunning (component : Nat)
  | restartOverrun (component : Nat)
  | restartComponent (component : Nat)
  | resetModule
  | escalation (component firstCause secondCause : Nat)
  | mailboxSend (sender receiver : Nat) (message : List Byte)
  | supervisorTask
  | bootSequence
  -- security (R350-R361)
  | fieldRecordWrite
  /-- Update-DR of a debug token (R358, R427). -/
  | token (bytes : List Byte)
  | debugLifetimeExpiry
  | secDbgLock
  | keyCmdInstall (box : Nat)
  | keyCmdClear (box : Nat)
  -- core faults (R364-R375)
  /-- Fence of `core` for a cause of event 0x0101: 1 self-test, 2 control parity, 3 drain timeout. -/
  | coreFence (core cause : Nat)
  | coreSubstitute (logical : Nat)
  | signatureWrite (kind unit : Nat) (detailA detailB : W64)
  | coreReturn (core : Nat) (allPassed : Bool)
  | drainTimeout (core : Nat)
  | controlParityError (core : Nat)
  | staleCoreRequest (core incarnation : Nat)
  | poisonConsumed (core va : Nat)
  /-- Which tag copy and which position copy read cleanly. -/
  | ledgerEntryUe (id : Nat) (tagClean positionClean : Bool)
  | dispositionRecord (id : Nat)
  -- records (R386-R397, R443)
  | recordAccept
  | recorderFlush
  | logCursorWrite (lo : W32)
  | logOldestRead
  | roundNowRead
  | counterLowRead (addr : Nat)
  | sigPmRead
  | sigCursorWrite (value : W32)
  -- power (R401-R414)
  /-- Mode of the request: 0 half-row, 1 single-row, 2 dual-row, 3 self-test slice (R402). -/
  | grantRequest (core mode : Nat)
  | queuedGrant
  | grantRevoke
  | budgetMove
  | railWarning (die millivolt : Nat)
  | railWarningExit (die lowestMv durationNs : Nat)
  | longDip (die : Nat)
  | dieSupplyReset (die lowestMv : Nat)
  /-- Release of the die's reset with the full self-test's verdict, bit i for the core at position i (R409). -/
  | dieResetRelease (die : Nat) (passed : BitVec 17)
  | railShort (rail : Nat)
  | inputWarning (millivolt : Nat)
  | inputWarningExit (millivolt : Nat)
  | inputShutdown (millivolt : Nat)
  | reversedPolarity
  | thermalFactorFall (celsius : Nat)
  | thermalFactorRise (celsius : Nat)
  | thermalTrip (sensor celsius : Nat)
  | sensorOpen (sensor : Nat)
  | regulatorStart (millivolt : Nat)
  | pwrEnFall
  | d2dLinkDown (die link : Nat)
  -- patterns (R418-R431): `page` 0-23 is LINK n, 24 is HOSTIF
  | genEn (page : Nat) (on : Bool) (pattern mask : Nat)
  | chkEn (page : Nat) (on : Bool) (pattern mask : Nat)
  | inject (page : Nat)
  | checkerLock (page lane : Nat) (inverted : Bool)
  /-- 32 of 256 symbols in error: `compared` bits and `errors` counted up to the loss. -/
  | checkerLoss (page lane compared errors : Nat)
  -- TAP (R424-R427)
  | extest
  | idcode
  | samplePreload
  | nonce
  | dtmcs
  /-- A DMI operation: op 0 none, 1 read, 2 write; a 7-bit address and 32 data bits. -/
  | dmi (op addr : Nat) (data : W32)
  | tapScan (die : Nat) (shiftIn : W64)
  | lbist (core patternSet corner : Nat)
  | mbist (memory : Nat)
  | bypass
  -- debug module (R428, R429)
  | hartHalt (hart : Nat)
  | hartResume (hart : Nat)
  | hartSingleStep (hart : Nat)
  | accessRegister (hart regno : Nat) (write : Option W64)
  | triggerMatch (hart : Nat) (kind : Nat) (address : W64)
  | systemBusAccess (address : W64) (size : Nat) (write : Option W64)
  -- sideband (R453-R455)
  | sidebandReadRequest (frame : List Byte)
  | sidebandWriteRequest (frame : List Byte)
  | sidebandResultRead
  | inBandInterrupt
  | enec
  | disec
  | getpid
  | getbcr
  | getdcr
  | getstatus
  | getmxds
  | setdasa (staticAddr dynamicAddr : Nat)
  | entdaa (dynamicAddr : Nat)
  | rstdaa
  | hotJoin
  -- register commands with rows of their own
  | drain (core : Nat)
  | coreResume (core : Nat)
  | coreDrained (core : Nat)
  | coreMapWrite (index : Nat) (value : W32)
  | acmMapWrite (core : Nat) (value : W32)
  | stateWindowWrite (core : Nat) (value : W32)
  | handleSelWrite (core : Nat) (value : W32)
  | flush (core : Nat)
  | hbmMapoutGo (stack ch : Nat)
  | retrain (port : Nat)
  | linkEnableWrite (port : Nat) (on : Bool)
  /-- LOCK of the page at base address `page`. -/
  | lockWrite (page : Nat)
  /-- A write of ones to W1C bits of the register at `addr`; `hwSets` are bits the hardware sets in the same cycle. -/
  | w1cWrite (addr : Nat) (value hwSets : W32)
  | registerWrite (addr size : Nat) (value : W32)
  | quietWindowEnd (index : Nat)
  | inletWarn (celsius : Nat)
  | tapReset
  | tokenCheckDone
  /-- Formation of the system: positions present, those among them whose strap names them manager, those whose highest
  link protocol version is 1.0, and the manager's FAB_SIZE, FAB_VERSION, FAB_SPARES_LO, FAB_SPARES_HI, FAB_STANDBY,
  FAB_HB, FAB_TIMERS and FAB_BUNDLE_MIN as a worker copies them (R302). -/
  | formation (present managers a1 : List Nat) (cfg : List W32)
  | escArmedExpiry (component : Nat)
  /-- The clerk executes the base instruction at its program counter. -/
  | rv64imacInstruction (core clerk : Nat)
  deriving DecidableEq, Repr

end Sys2Proof
end

