-- ==== Sys2Proof/Config.lean ====
section
/-! DEFINITION. What one module fixes for its life, and the free values: constants without a body, of which
nothing can be proved but that they are values of their type (log 1). -/

namespace Sys2Proof.Config

/-- Silicon stepping (R1, R443). -/
inductive Stepping where
  | A1 | B0
  deriving DecidableEq, Repr

/-- The order code's installed flash in TiB: 16 or 32 (R2). -/
inductive OrderCode where
  | t16 | t32
  deriving DecidableEq, Repr

/-- Free byte `i` of the fill drawn as number `seed`: contents the spec leaves undefined (R21, R49, R161, R196). -/
opaque freeByte : Nat → Nat → BitVec 8
/-- Free 16-bit element (undefined weight-bank data). -/
opaque freeHalf : Nat → Nat → BitVec 16
/-- Free 32-bit word (undefined pigeonhole contents, R49, R50). -/
opaque freeWord : Nat → Nat → BitVec 32
/-- Free 64-bit value number `n` (a fresh debug nonce, R358). -/
opaque freeDouble : Nat → BitVec 64
/-- A choice the spec leaves to the firmware or the hardware, as a number: draw `n`. -/
opaque freeChoice : Nat → Nat

/-- Does a passport copy verify under the manufacturing CA key (R348 step 3)? -/
opaque passportValid : Bool
/-- Does the identity key derived from the PUF match the certificate (R348 step 4)? -/
opaque identityValid : Bool
/-- Did core `c` pass start-up self-test number `n` (R69, R377)? -/
opaque startPass : Nat → Nat → Bool
/-- SHA3-256 of a byte string (R334, R351, R354): named by the spec, its function not given there. -/
opaque sha3 : List (BitVec 8) → BitVec 256
/-- Does `sig` verify over digest `d` under image-signing key `k` (R351)? The keys are not given. -/
opaque imageSigOk : Nat → BitVec 256 → List (BitVec 8) → Bool
/-- Does `sig` verify over digest `d` under debug key `k` (R358)? -/
opaque tokenSigOk : Nat → BitVec 256 → List (BitVec 8) → Bool
/-- The ML-DSA-44 signature of a digest under the identity key (R355), 2,420 bytes. -/
opaque identitySig : BitVec 256 → List (BitVec 8)
/-- The identity certificate of the passport, 4,685 bytes (R356). -/
opaque identityCert : List (BitVec 8)
/-- SHA3-256 of the identity public key (R358). -/
opaque identityKeyDigest : BitVec 256
/-- The passport's serial number (R349). -/
opaque serial : BitVec 64
/-- The passport's host port MAC address (R349, R304). -/
opaque mac : BitVec 48
/-- The passport's revocation mask over the image keys ([3:0]) and debug keys ([7:4]) (R349). -/
opaque revoked : BitVec 8
/-- The passport's baseline security version of component `k` (R349, R353). -/
opaque svnBaseline : Nat → Nat
/-- Digests of the ROM, passport and field record as measured at start (R354). -/
opaque measured : Nat → BitVec 256
/-- The signature that a scan, logic or memory test returns (R426): its values are not given. -/
opaque testSignature : Nat → BitVec 64
/-- Contents of the boundary-scan register as sampled, draw `n` (R425: the pins it covers are listed, their order is not). -/
opaque boundarySample : Nat → BitVec 64
/-- Bytes of the sideband target's identity that the spec does not give: the two upper bytes of the provisional ID (0, 1),
BCR (2), DCR (3) and the two bytes of GETMXDS (4, 5) (R453). -/
opaque i3cByte : Nat → BitVec 8
/-- The flash translation layer's physical contents are never observable; this is the spare-block share it reports at
start, per mille of raw (R245: no reset value). -/
opaque sparePermille : BitVec 8

end Sys2Proof.Config
end

