-- ==== Sys2Proof/Machine/Fp.lean ====
section
/-! DEFINITION. Number formats and arithmetic (04_numerics.md): formats (R53, R75 to R77), exact values, conversion
under a rounding code (R94 to R96), FP32 arithmetic (R85, R89) and the correctly rounded functions (R90, R91, R93). -/

namespace Sys2Proof.Machine

/-- The formats of R53. -/
inductive Fmt where
  | e2m1 | int4 | e4m3 | e5m2 | int8 | bf16 | fp16 | fp32
  deriving DecidableEq, Repr

/-- Format code of R53; codes 0x8 to 0xF are reserved. -/
def Fmt.ofCode : Nat → Option Fmt
  | 0 => some .e2m1 | 1 => some .int4 | 2 => some .e4m3 | 3 => some .e5m2
  | 4 => some .int8 | 5 => some .bf16 | 6 => some .fp16 | 7 => some .fp32
  | _ => none

/-- Width in bits (R75). -/
def Fmt.width : Fmt → Nat
  | .e2m1 | .int4 => 4
  | .e4m3 | .e5m2 | .int8 => 8
  | .bf16 | .fp16 => 16
  | .fp32 => 32

/-- Element size in bytes for alignment: 1 for the 4-bit formats (R110). -/
def Fmt.bytes (f : Fmt) : Nat := if f.width ≤ 8 then 1 else f.width / 8

def Fmt.isInt : Fmt → Bool
  | .int4 | .int8 => true
  | _ => false

/-- Significand bits, the hidden bit included (R77). -/
def Fmt.prec : Fmt → Nat
  | .e2m1 => 2 | .e4m3 => 4 | .e5m2 => 3 | .fp16 => 11 | .bf16 => 8 | .fp32 => 24
  | .int4 => 3 | .int8 => 7

/-- Exponent of the smallest normal value (R77). -/
def Fmt.emin : Fmt → Int
  | .e2m1 => 0 | .e4m3 => -6 | .e5m2 => -14 | .fp16 => -14 | .bf16 => -126 | .fp32 => -126
  | .int4 | .int8 => 0

/-- Pattern of the largest finite magnitude (R77). -/
def Fmt.maxMag : Fmt → Nat
  | .e2m1 => 0x7 | .e4m3 => 0x7E | .e5m2 => 0x7B | .fp16 => 0x7BFF | .bf16 => 0x7F7F | .fp32 => 0x7F7F_FFFF
  | .int4 => 7 | .int8 => 127

/-- Canonical NaN of R77 (E2M1 and the integer formats have none). -/
def Fmt.nanPat : Fmt → Nat
  | .e4m3 => 0x7F | .e5m2 => 0x7F | .fp16 => 0x7E00 | .bf16 => 0x7FC0 | .fp32 => 0x7FC0_0000
  | .e2m1 | .int4 | .int8 => 0

/-- Pattern of +∞; E4M3 has none and takes its NaN there. -/
def Fmt.infPat : Fmt → Nat
  | .e5m2 => 0x7C | .fp16 => 0x7C00 | .bf16 => 0x7F80 | .fp32 => 0x7F80_0000
  | .e4m3 => 0x7F
  | f => f.maxMag

/-- A value: NaN, an infinity, or exactly `(-1)^neg * m * 2^e` (`m = 0` is a signed zero). -/
inductive FV where
  | nan
  | inf (neg : Bool)
  | fin (neg : Bool) (m : Nat) (e : Int)
  deriving DecidableEq, Repr

/-- The value an encoding of a format has (R75, R76). -/
def Fmt.decode (f : Fmt) (x : Nat) : FV :=
  let w := f.width
  let x := x % 2 ^ w
  if f.isInt then
    if x < 2 ^ (w - 1) then .fin false x 0 else .fin true (2 ^ w - x) 0
  else
    let p := f.prec
    let neg := x ≥ 2 ^ (w - 1)
    let mag := x % 2 ^ (w - 1)
    if mag > f.maxMag then
      (if mag = f.infPat ∧ f ≠ .e4m3 then .inf neg else .nan)
    else
      let ex := mag / 2 ^ (p - 1)
      let fr := mag % 2 ^ (p - 1)
      if ex = 0 then .fin neg fr (f.emin - (p - 1 : Nat))
      else .fin neg (fr + 2 ^ (p - 1)) (f.emin - (p - 1 : Nat) + (ex - 1 : Nat))

/-- Rounding codes of R54. -/
inductive Rnd where
  | near | zero | down | up | stoch
  deriving DecidableEq, Repr

def Rnd.ofCode : Nat → Option Rnd
  | 0 => some .near | 1 => some .zero | 2 => some .down | 3 => some .up | 4 => some .stoch
  | _ => none

/-- `m * 2^e` in units of `2^u`, rounded (R94; `draw` is the generator's value for R96). -/
def roundUnits (r : Rnd) (neg : Bool) (m : Nat) (e u : Int) (draw : Nat) : Nat :=
  if u ≤ e then m * 2 ^ (e - u).toNat
  else
    let k := (u - e).toNat
    let q := m / 2 ^ k
    let rem := m % 2 ^ k
    let up : Bool :=
      match r with
      | .near => decide (2 * rem > 2 ^ k ∨ (2 * rem = 2 ^ k ∧ q % 2 = 1))
      | .zero => false
      | .down => neg && decide (rem ≠ 0)
      | .up => !neg && decide (rem ≠ 0)
      | .stoch => decide (rem * 2 ^ 32 / 2 ^ k > draw)
    q + b2n up

/-- Exponent of the leading bit of `m * 2^e`, `m` not 0. -/
def leadExp (m : Nat) (e : Int) : Int := (Nat.log2 m : Int) + e

/-- Magnitude pattern of `m * 2^e` rounded to format `f` as if the exponent range were unbounded above. -/
def Fmt.roundMag (f : Fmt) (r : Rnd) (neg : Bool) (m : Nat) (e : Int) (draw : Nat) : Nat :=
  if m = 0 then 0
  else if f.isInt then roundUnits r neg m e 0 draw
  else
    let p := f.prec
    let u0 : Int := f.emin - (p - 1 : Nat)
    let u : Int := max (leadExp m e) f.emin - (p - 1 : Nat)
    let q := roundUnits r neg m e u draw
    if q < 2 ^ (p - 1) then q else ((u - u0).toNat + 1) * 2 ^ (p - 1) + (q - 2 ^ (p - 1))

/-- The sign bit of a format put on a magnitude pattern; integers are two's complement. -/
def Fmt.sign (f : Fmt) (neg : Bool) (mag : Nat) : Nat :=
  if f.isInt then (if neg then (2 ^ f.width - mag) % 2 ^ f.width else mag)
  else mag + b2n neg * 2 ^ (f.width - 1)

/-- A converted element: its pattern, whether SATURATED counts it, whether NAN_WRITTEN counts it (R95). -/
structure Conv where
  pat : Nat
  sat : Bool := false
  nan : Bool := false
  deriving DecidableEq, Repr

/-- Conversion into `f` under a rounding code and SAT (R94, R95, R96). -/
def Fmt.encode (f : Fmt) (r : Rnd) (sat : Bool) (draw : Nat) (v : FV) : Conv :=
  let clamp (neg : Bool) : Nat :=
    if f.isInt && neg then 2 ^ (f.width - 1) else f.sign neg f.maxMag
  match v with
  | .nan =>
    if f.isInt || f == .e2m1 then { pat := 0, sat := true } else { pat := f.nanPat, nan := true }
  | .inf neg =>
    if f.isInt || f == .e2m1 then { pat := clamp neg, sat := true }
    else if sat then { pat := clamp neg, sat := true }
    else if f == .e4m3 then { pat := f.nanPat, nan := true }
    else { pat := f.sign neg f.infPat }
  | .fin neg m e =>
    let mag := f.roundMag r neg m e draw
    let lim := if f.isInt && neg then f.maxMag + 1 else f.maxMag
    if mag ≤ lim then { pat := f.sign neg mag }
    else if f.isInt || f == .e2m1 || sat then { pat := clamp neg, sat := true }
    else if f == .e4m3 then { pat := f.nanPat, nan := true }
    else
      let toInf : Bool :=
        match r with
        | .near | .stoch => true
        | .zero => false
        | .down => neg
        | .up => !neg
      if toInf then { pat := f.sign neg f.infPat } else { pat := clamp neg, sat := true }

/-- Does writing format `f` under `r` draw from the generator (R96: one draw for each element)? -/
def Rnd.draws (r : Rnd) : Bool := r == .stoch

/-! ### FP32 arithmetic (R85, R89): exact, then one rounding to nearest even -/

/-- The FP32 pattern of a value, rounded to nearest even; overflow gives ±∞ (R85). -/
def f32 (v : FV) : W32 := BitVec.ofNat 32 (Fmt.fp32.encode .near false 0 v).pat

/-- The value of an FP32 pattern. -/
def fv (x : W32) : FV := Fmt.fp32.decode x.toNat

def f32one : W32 := 0x3F80_0000
def f32zero : W32 := 0
def f32nan : W32 := 0x7FC0_0000

def FV.neg : FV → FV
  | .nan => .nan
  | .inf n => .inf (!n)
  | .fin n m e => .fin (!n) m e

def FV.isNan : FV → Bool
  | .nan => true
  | _ => false

def FV.isNeg : FV → Bool
  | .nan => false
  | .inf n => n
  | .fin n _ _ => n

def FV.isZero : FV → Bool
  | .fin _ 0 _ => true
  | _ => false

/-- A signed integer in units of `2^e`. -/
def FV.ofInt (i : Int) (e : Int) : FV := .fin (decide (i < 0)) i.natAbs e

/-- `m * 2^e` as a signed number of units `2^u`, `u ≤ e`. -/
def sUnits (neg : Bool) (m : Nat) (e u : Int) : Int :=
  let k : Int := (m : Int) * (2 : Int) ^ (e - u).toNat
  if neg then -k else k

/-- Exact sum; a zero sum is +0 unless both addends are −0 (R85). -/
def FV.add : FV → FV → FV
  | .nan, _ | _, .nan => .nan
  | .inf a, .inf b => if a = b then .inf a else .nan
  | .inf a, _ => .inf a
  | _, .inf b => .inf b
  | .fin na ma ea, .fin nb mb eb =>
    if ma = 0 ∧ mb = 0 then .fin (na && nb) 0 0
    else
      let u := min ea eb
      let s := sUnits na ma ea u + sUnits nb mb eb u
      FV.ofInt s u

/-- Exact product; ±∞ times a zero is NaN. -/
def FV.mul : FV → FV → FV
  | .nan, _ | _, .nan => .nan
  | .inf a, b => if b.isZero then .nan else .inf (a != b.isNeg)
  | a, .inf b => if a.isZero then .nan else .inf (a.isNeg != b)
  | .fin na ma ea, .fin nb mb eb => .fin (na != nb) (ma * mb) (ea + eb)

def fadd (a b : W32) : W32 := f32 ((fv a).add (fv b))
def fsub (a b : W32) : W32 := f32 ((fv a).add (fv b).neg)
def fmul (a b : W32) : W32 := f32 ((fv a).mul (fv b))
/-- The exact `a × b + c`, not yet rounded (R89, R98). -/
def fmaExact (a b c : W32) : FV := ((fv a).mul (fv b)).add (fv c)
/-- `a × b + c` rounded once (R89). -/
def ffma (a b c : W32) : W32 := f32 (fmaExact a b c)

/-- NEG and ABS write the canonical NaN for a NaN (R78). -/
def fneg (a : W32) : W32 := if (fv a).isNan then f32nan else a ^^^ 0x8000_0000
def fabs (a : W32) : W32 := if (fv a).isNan then f32nan else a &&& 0x7FFF_FFFF

/-- Order key of a number that is not NaN: −0 and +0 agree, infinities are largest and smallest (R30). -/
def FV.key : FV → Int × Int
  | .nan => (-2, 0)
  | .inf true => (-1, 0)
  | .inf false => (1, 0)
  | .fin n m e => (0, sUnits n m e (-160))

/-- `a < b` for values of FP32 or a narrower format, neither NaN. -/
def FV.lt (a b : FV) : Bool :=
  decide (a.key.1 < b.key.1 ∨ (a.key.1 = b.key.1 ∧ a.key.2 < b.key.2))

def FV.eqv (a b : FV) : Bool := decide (a.key = b.key)

/-- Comparison of FP32 patterns; any comparison with NaN is false (R92). -/
def flt (a b : W32) : Bool := !(fv a).isNan && !(fv b).isNan && (fv a).lt (fv b)
def feq (a b : W32) : Bool := !(fv a).isNan && !(fv b).isNan && (fv a).eqv (fv b)

/-- MAX and MIN ignore a NaN operand; max(+0, −0) = +0 and min(+0, −0) = −0 (R92). -/
def fmax (a b : W32) : W32 :=
  if (fv a).isNan then (if (fv b).isNan then f32nan else b)
  else if (fv b).isNan then a
  else if flt a b then b
  else if flt b a then a
  else if (fv a).isNeg then b else a

def fmin (a b : W32) : W32 :=
  if (fv a).isNan then (if (fv b).isNan then f32nan else b)
  else if (fv b).isNan then a
  else if flt a b then a
  else if flt b a then b
  else if (fv a).isNeg then a else b

/-- An exact FP32 integer. -/
def f32ofNat (n : Nat) : W32 := f32 (.fin false n 0)

/-! ### Correct rounding of functions (R90, R93) -/

/-- Integer square root, bit by bit: the largest `r` with `r * r ≤ n`, for `n < 4 ^ k`. -/
def isqrtBits (n : Nat) : Nat → Nat → Nat
  | 0, r => r
  | k + 1, r =>
    let c := r + 2 ^ k
    isqrtBits n k (if c * c ≤ n then c else r)

def isqrt (n : Nat) : Nat := isqrtBits n (Nat.log2 n / 2 + 1) 0

/-- A quotient `num / den` rounded to FP32: the quotient with 80 extra bits and a sticky bit. -/
def fquot (neg : Bool) (num den : Nat) (e : Int) : W32 :=
  let k := 80 + Nat.log2 (den + 1)
  let n := num * 2 ^ k
  f32 (.fin neg (2 * (n / den) + b2n (decide (n % den ≠ 0))) (e - k - 1))

/-- 1/A (R90). -/
def frcp (a : W32) : W32 :=
  match fv a with
  | .nan => f32nan
  | .inf n => f32 (.fin n 0 0)
  | .fin n m e => if m = 0 then f32 (.inf n) else fquot n 1 m (-e)

/-- 1/√A (R90). -/
def frsqrt (a : W32) : W32 :=
  match fv a with
  | .nan => f32nan
  | .inf n => if n then f32nan else f32zero
  | .fin n m e =>
    if m = 0 then f32 (.inf n)
    else if n then f32nan
    else
      let m' := if e % 2 = 0 then m else 2 * m
      let e' := if e % 2 = 0 then e else e - 1
      let k := 80 + Nat.log2 m'
      let q := isqrt (2 ^ (2 * k) / m')
      f32 (.fin false (2 * q + b2n (decide (q * q * m' ≠ 2 ^ (2 * k)))) (-(e' / 2) - k - 1))

/-- `⌈a / b⌉`. -/
def ceilDiv (a b : Nat) : Nat := (a + b - 1) / b

/-- Bounds, in units of `2^-q`, of `Σ r^n / n!` for `r = [lo, hi] * 2^-q < 1`: terms `n` to `n + fuel`. -/
def expTaylor (q : Nat) (lo hi : Nat) : Nat → Nat → Nat × Nat → Nat × Nat → Nat × Nat
  | 0, _, _, acc => (acc.1, acc.2 + 2)
  | k + 1, n, t, acc =>
    let t' := (t.1 * lo / 2 ^ q / n, ceilDiv (ceilDiv (t.2 * hi) (2 ^ q)) n)
    expTaylor q lo hi k (n + 1) t' (acc.1 + t'.1, acc.2 + t'.2)

/-- Repeated squaring of an interval in units of `2^-q`. -/
def sqrTimes (q : Nat) : Nat → Nat × Nat → Nat × Nat
  | 0, x => x
  | k + 1, x => sqrTimes q k (x.1 * x.1 / 2 ^ q, ceilDiv (x.2 * x.2) (2 ^ q))

/-- Bounds in units of `2^-q` of `e^x` for `x = m * 2^e ≥ 0`, `x < 2^12`. -/
def expI (q m : Nat) (e : Int) : Nat × Nat :=
  if m = 0 then (2 ^ q, 2 ^ q)
  else
    let j := (leadExp m e + 1).toNat
    let e' := e - j + q
    let lo := if 0 ≤ e' then m * 2 ^ e'.toNat else m / 2 ^ (-e').toNat
    let hi := if 0 ≤ e' then m * 2 ^ e'.toNat else ceilDiv m (2 ^ (-e').toNat)
    sqrTimes q j (expTaylor q lo hi (q / 4 + 8) 1 (2 ^ q, 2 ^ q) (2 ^ q, 2 ^ q))

/-- Bounds in units of `2^-q` of `Σ z^(2i+1) / (2i+1)` for `z = [lo, hi] * 2^-q ≤ 1/3`. -/
def atanhSeries (q : Nat) (lo2 hi2 : Nat) : Nat → Nat → Nat × Nat → Nat × Nat → Nat × Nat
  | 0, _, _, acc => (acc.1, acc.2 + 2)
  | k + 1, n, t, acc =>
    let t' := (t.1 * lo2 / 2 ^ q, ceilDiv (t.2 * hi2) (2 ^ q))
    atanhSeries q lo2 hi2 k (n + 2) t' (acc.1 + t'.1 / n, acc.2 + ceilDiv t'.2 n)

/-- Bounds in units of `2^-q` of `ln (num / den)` for `1 ≤ num / den < 2`. -/
def lnNear (q num den : Nat) : Nat × Nat :=
  let lo := (num - den) * 2 ^ q / (num + den)
  let hi := ceilDiv ((num - den) * 2 ^ q) (num + den)
  let r := atanhSeries q (lo * lo / 2 ^ q) (ceilDiv (hi * hi) (2 ^ q)) (q / 3 + 4) 3 (lo, hi) (lo, hi)
  (2 * r.1, 2 * r.2)

/-- Bounds in units of `2^-q` of `ln (m * 2^e)`, as signed numbers. -/
def lnI (q m : Nat) (e : Int) : Int × Int :=
  let y := lnNear q m (2 ^ Nat.log2 m)
  let l2 := lnNear q 2 1
  let k := leadExp m e
  if 0 ≤ k then (k * l2.1 + y.1, k * l2.2 + y.2) else (k * l2.2 + y.1, k * l2.1 + y.2)

/-- The FP32 pattern of a magnitude known to lie in `[lo, hi] * 2^-p`: the first precision at which both ends round
alike decides it. -/
def decideRound (neg : Bool) (bounds : Nat → Nat × Nat) : List Nat → W32
  | [] => f32nan
  | [p] => f32 (.fin neg (bounds p).1 (-(p : Int)))
  | p :: ps =>
    let b := bounds p
    let lo := f32 (.fin neg b.1 (-(p : Int)))
    if lo = f32 (.fin neg b.2 (-(p : Int))) then lo else decideRound neg bounds ps

def precisions : List Nat := [96, 224, 480, 992, 2016]

/-- eᴬ (R90). -/
def fexp (a : W32) : W32 :=
  match fv a with
  | .nan => f32nan
  | .inf n => if n then f32zero else f32 (.inf false)
  | .fin n m e =>
    if m = 0 then f32one
    else if leadExp m e ≥ 7 then (if n then f32zero else f32 (.inf false))
    else decideRound false (fun p =>
      let x := expI p m e
      if n then (2 ^ (2 * p) / x.2, ceilDiv (2 ^ (2 * p)) x.1) else x) precisions

/-- ln A (R90). -/
def flog (a : W32) : W32 :=
  match fv a with
  | .nan => f32nan
  | .inf n => if n then f32nan else f32 (.inf false)
  | .fin n m e =>
    if m = 0 then f32 (.inf true)
    else if n then f32nan
    else if a = f32one then f32zero
    else
      let neg := decide (leadExp m e < 0)
      decideRound neg (fun p =>
        let x := lnI p m e
        if neg then ((-x.2).toNat, (-x.1).toNat) else (x.1.toNat, x.2.toNat)) precisions

/-- Bounds of the logistic function of a number of magnitude in `x` (units `2^-p`, exponentials given) and sign. -/
def sigmoidOf (p : Nat) (neg : Bool) (x : Nat × Nat) : Nat × Nat :=
  if neg then (2 ^ (2 * p) / (2 ^ p + x.2), ceilDiv (2 ^ (2 * p)) (2 ^ p + x.1))
  else (x.1 * 2 ^ p / (2 ^ p + x.1), ceilDiv (x.2 * 2 ^ p) (2 ^ p + x.2))

/-- 1/(1 + e⁻ᴬ) (R90). -/
def fsigmoid (a : W32) : W32 :=
  match fv a with
  | .nan => f32nan
  | .inf n => if n then f32zero else f32one
  | .fin n m e =>
    if m = 0 then 0x3F00_0000
    else if leadExp m e ≥ 8 then (if n then f32zero else f32one)
    else decideRound false (fun p => sigmoidOf p n (expI p m e)) precisions

/-- tanh A (R90). -/
def ftanh (a : W32) : W32 :=
  match fv a with
  | .nan => f32nan
  | .inf n => if n then fneg f32one else f32one
  | .fin n m e =>
    if m = 0 then a
    else if leadExp m e ≥ 6 then (if n then fneg f32one else f32one)
    else decideRound n (fun p =>
      let x := expI p m (e + 1)
      ((x.1 - 2 ^ p) * 2 ^ p / (x.1 + 2 ^ p), ceilDiv ((x.2 - 2 ^ p) * 2 ^ p) (x.2 + 2 ^ p))) precisions

/-- `x × sigmoid(y)` where `|y| * 2^p` lies in `y`, `y` having the sign of `x`: SiLU and, with `y = 2u`, GELU. -/
def timesSigmoid (n : Bool) (m : Nat) (e : Int) (y : Nat → Nat × Nat) : W32 :=
  decideRound n (fun p =>
    let x := ((expI p (y p).1 (-(p : Int))).1, (expI p (y p).2 (-(p : Int))).2)
    let s := sigmoidOf p n x
    if 0 ≤ e then (m * 2 ^ e.toNat * s.1, m * 2 ^ e.toNat * s.2)
    else (m * s.1 / 2 ^ (-e).toNat, ceilDiv (m * s.2) (2 ^ (-e).toNat))) precisions

/-- SiLU: x × sigmoid(x) (R93). -/
def fsilu (a : W32) : W32 :=
  match fv a with
  | .nan => f32nan
  | .inf n => if n then 0x8000_0000 else a
  | .fin n m e =>
    if m = 0 then a
    else if leadExp m e ≥ 9 then (if n then 0x8000_0000 else a)
    else timesSigmoid n m e (fun p =>
      let e' := e + p
      if 0 ≤ e' then (m * 2 ^ e'.toNat, m * 2 ^ e'.toNat)
      else (m / 2 ^ (-e').toNat, ceilDiv m (2 ^ (-e').toNat)))

/-- GELU, tanh form, with both constants exact decimals (R93): 0.5x(1 + tanh u) is x × sigmoid(2u). -/
def fgelu (a : W32) : W32 :=
  match fv a with
  | .nan => f32nan
  | .inf n => if n then 0x8000_0000 else a
  | .fin n m e =>
    if m = 0 then a
    else if leadExp m e ≥ 4 then (if n then 0x8000_0000 else a)
    else timesSigmoid n m e (fun p =>
      -- 2u = 2 * 0.7978846 * x * (1 + 0.044715 x²)
      let x2n := 44715 * m * m
      let k := (-(2 * e)).toNat
      let k' := (2 * e).toNat
      let inner := 10 ^ 6 * 2 ^ k + x2n * 2 ^ k'
      let num := 2 * 7978846 * m * inner
      let den := 10 ^ 7 * 10 ^ 6 * 2 ^ k
      let e' := e + p
      if 0 ≤ e' then (num * 2 ^ e'.toNat / den, ceilDiv (num * 2 ^ e'.toNat) den)
      else (num / (den * 2 ^ (-e').toNat), ceilDiv num (den * 2 ^ (-e').toNat)))

/-- Softplus: ln(1 + eˣ) (R93). -/
def fsoftplus (a : W32) : W32 :=
  match fv a with
  | .nan => f32nan
  | .inf n => if n then f32zero else a
  | .fin n m e =>
    if leadExp m e ≥ 8 ∧ m ≠ 0 then (if n then f32zero else a)
    else decideRound false (fun p =>
      let x := expI p m e
      let y := if n then (2 ^ (2 * p) / x.2, ceilDiv (2 ^ (2 * p)) x.1) else x
      ((lnI p (2 ^ p + y.1) (-(p : Int))).1.toNat, (lnI p (2 ^ p + y.2) (-(p : Int))).2.toNat)) precisions

/-- ReLU, with ReLU(−0) = +0; NaN gives NaN (R93). -/
def frelu (a : W32) : W32 :=
  if (fv a).isNan then f32nan else if (fv a).isNeg then f32zero else a

/-- Leaky ReLU: one rounding of the product αx (R93). -/
def fleaky (alpha a : W32) : W32 :=
  if (fv a).isNan then f32nan else if (fv a).isNeg then fmul alpha a else a

/-- CLIP: clamps to [lo, hi] and passes NaN through as NaN (R93). -/
def fclip (lo hi a : W32) : W32 :=
  if (fv a).isNan then f32nan else if flt a lo then lo else if flt hi a then hi else a

/-- The correctly rounded 1/n of R91. -/
def f32recipNat (n : Nat) : W32 := fquot false 1 n 0

end Sys2Proof.Machine
end

