-- ==== Sys2Proof/Machine/RegTable.lean ====
section
/-! DEFINITION. The register map: the page index (R441), the block types (R440), each page's registers with the
access masks and reset words of the spec's register tables (R6, R436 and the table of each page's chapter), and the
number of counters of each page. -/

namespace Sys2Proof.Machine

/-- The kinds of page (R440, R441). -/
inductive Pg where
  | hub | frank | supply | time | log | sec | fwctl | hostif | link | hbm | tier
  | die | disp | dcache | codebook | fork
  | ctl | mxe | acm | vxe | drain | exp | kvw | state | clerk | cnt | box
  deriving DecidableEq, Repr

/-- One row of a register table: registers at `off + stride * i` for `lo <= i <= hi`, with the bits that are
RW, RWL, W1C, WO and RO; a bit in none of them is reserved (R6). `mgr`: the writable fields are the manager module's. -/
structure RegRow where
  off : Nat
  stride : Nat := 0
  lo : Nat := 0
  hi : Nat := 0
  rw : Nat := 0
  rwl : Nat := 0
  w1c : Nat := 0
  wo : Nat := 0
  ro : Nat := 0
  reset : Nat := 0
  mgr : Bool := false
  deriving DecidableEq, Repr

/-- PAGE_ID.TYPE of each kind of page (R440). -/
def Pg.type : Pg → Nat
  | .hub => 0x0001 | .frank => 0x0002 | .supply => 0x0003 | .time => 0x0004 | .log => 0x0005 | .sec => 0x0006
  | .fwctl => 0x0007 | .hostif => 0x0008 | .link => 0x0010 | .hbm => 0x0020 | .tier => 0x0030
  | .die => 0x0040 | .disp => 0x0041 | .dcache => 0x0042 | .codebook => 0x0043 | .fork => 0x0044
  | .ctl => 0x0100 | .mxe => 0x0101 | .acm => 0x0102 | .vxe => 0x0103 | .drain => 0x0104 | .exp => 0x0105
  | .kvw => 0x0106 | .state => 0x0107 | .clerk => 0x0108 | .cnt => 0x010F | .box => 0x0200

/-- Base address of the page of kind `p` and index `i` (R441). DESIGN CHOICE (log 10): R441's rows for LINK n = 16 to
23 and for HBM stacks 0 to 7 give the same addresses; the address is the HBM page's, and the registers of LINK 16 to 23
are held under keys past the 32-bit space, which no access decodes to. -/
def Pg.base (p : Pg) (i : Nat) : Nat :=
  match p with
  | .hub => 0x0000 | .frank => 0x1000 | .supply => 0x2000 | .time => 0x3000 | .log => 0x4000 | .sec => 0x5000
  | .fwctl => 0x6000 | .hostif => 0x8000
  | .link => if i < 16 then 0x1_0000 + 0x1000 * i else 0x1_0000_0000 + 0x1000 * i
  | .hbm => 0x2_0000 + 0x1000 * i
  | .tier => 0x3_0000
  | .die => 0x4_0000 + 0x1_0000 * i
  | .disp => 0x4_1000 + 0x1_0000 * i
  | .dcache => 0x4_2000 + 0x1_0000 * i
  | .codebook => 0x4_3000 + 0x1_0000 * i
  | .fork => 0x4_4000 + 0x1_0000 * i
  | .ctl => 0x100_0000 + 0x1_0000 * i
  | .mxe => 0x100_1000 + 0x1_0000 * i
  | .acm => 0x100_2000 + 0x1_0000 * i
  | .vxe => 0x100_3000 + 0x1_0000 * i
  | .drain => 0x100_4000 + 0x1_0000 * i
  | .exp => 0x100_5000 + 0x1_0000 * i
  | .kvw => 0x100_6000 + 0x1_0000 * i
  | .state => 0x100_7000 + 0x1_0000 * i
  | .clerk => 0x100_8000 + 0x1_0000 * i
  | .cnt => 0x100_F000 + 0x1_0000 * i
  | .box => 0x200_0000 + 0x1000 * i

/-- How many pages of each kind there are (R441). -/
def Pg.count : Pg → Nat
  | .link => 24 | .hbm => 12
  | .die | .disp | .dcache | .codebook | .fork => 4
  | .ctl | .mxe | .acm | .vxe | .drain | .exp | .kvw | .state | .clerk | .cnt => 68
  | .box => 64
  | .hub | .frank | .supply | .time | .log | .sec | .fwctl | .hostif | .tier => 1

/-- Is the page a sub-page of a CORE page? -/
def Pg.isCore : Pg → Bool
  | .ctl | .mxe | .acm | .vxe | .drain | .exp | .kvw | .state | .clerk | .cnt => true
  | _ => false

/-- The page an address lies in, as its kind and index; none where R433 applies. -/
def pageOf (a : Nat) : Option (Pg × Nat) :=
  if a < 0x9000 then
    match a / 0x1000 with
    | 0 => some (.hub, 0) | 1 => some (.frank, 0) | 2 => some (.supply, 0) | 3 => some (.time, 0)
    | 4 => some (.log, 0) | 5 => some (.sec, 0) | 6 => some (.fwctl, 0) | 8 => some (.hostif, 0)
    | _ => none
  else if 0x1_0000 ≤ a ∧ a < 0x2_0000 then some (.link, (a - 0x1_0000) / 0x1000)
  else if 0x2_0000 ≤ a ∧ a < 0x2_C000 then some (.hbm, (a - 0x2_0000) / 0x1000)
  else if 0x3_0000 ≤ a ∧ a < 0x3_1000 then some (.tier, 0)
  else if 0x4_0000 ≤ a ∧ a < 0x8_0000 then
    let d := (a - 0x4_0000) / 0x1_0000
    match a % 0x1_0000 / 0x1000 with
    | 0 => some (.die, d) | 1 => some (.disp, d) | 2 => some (.dcache, d) | 3 => some (.codebook, d)
    | 4 => some (.fork, d) | _ => none
  else if 0x100_0000 ≤ a ∧ a < 0x144_0000 then
    let c := (a - 0x100_0000) / 0x1_0000
    match a % 0x1_0000 / 0x1000 with
    | 0 => some (.ctl, c) | 1 => some (.mxe, c) | 2 => some (.acm, c) | 3 => some (.vxe, c) | 4 => some (.drain, c)
    | 5 => some (.exp, c) | 6 => some (.kvw, c) | 7 => some (.state, c) | 8 => some (.clerk, c)
    | 15 => some (.cnt, c) | _ => none
  else if 0x200_0000 ≤ a ∧ a < 0x204_0000 then some (.box, (a - 0x200_0000) / 0x1000)
  else none

/-- The common registers of every page (R436). -/
def commonRows : List RegRow :=
  [ { off := 0x000, ro := 0xFFFFFFFF },  -- PAGE_ID
    { off := 0x004, ro := 0xFFFF, reset := 0x100 },  -- PAGE_VER
    { off := 0x008, ro := 0xFF },  -- CAPS
    { off := 0x010, rw := 0x1 },  -- CTRL
    { off := 0x014, ro := 0x7 },  -- STATUS
    { off := 0x018, w1c := 0x30F },  -- INT_STAT
    { off := 0x01C, rw := 0x30F },  -- INT_EN
    { off := 0x020, w1c := 0xF },  -- ERR_STAT
    { off := 0x024, ro := 0xFFFFFFFF },  -- ERR_INFO
    { off := 0x028, ro := 0xFFFF },  -- FENCE
    { off := 0x02C, rwl := 0x1 } ]  -- LOCK

/-- Registers of the hub page (R443). -/
def hubRows : List RegRow :=
  [ { off := 0x040, ro := 0xFFFF000F, reset := 0x4A640000 },  -- HUB_IDENT
    { off := 0x044, ro := 0xFF },  -- HUB_FLASH
    { off := 0x048, ro := 0xFFFFFFFF },  -- HUB_SERIAL_LO
    { off := 0x04C, ro := 0xFFFFFFFF },  -- HUB_SERIAL_HI
    { off := 0x050, ro := 0x3F },  -- HUB_STATUS
    { off := 0x054, ro := 0xF },  -- HUB_RESET_CAUSE
    { off := 0x058, ro := 0x7FFFF },  -- HUB_LEDGER
    { off := 0x060, stride := 4, lo := 0, hi := 15, rw := 0xFFFFFFFF },  -- CORE_MAPn
    { off := 0x100, ro := 0x7F },  -- SIG_COUNT
    { off := 0x104, rw := 0x3F },  -- SIG_SEL
    { off := 0x108, ro := 0xFFFFFFFF },  -- SIG_PM_LO
    { off := 0x10C, ro := 0xFFFFFFFF },  -- SIG_PM_HI
    { off := 0x110, ro := 0xFFFFF },  -- SIG_LEN
    { off := 0x114, rw := 0xFFFFF },  -- SIG_CURSOR
    { off := 0x118, ro := 0xFFFFFFFF },  -- SIG_CUR_PM_LO
    { off := 0x11C, ro := 0xFFFFFFFF },  -- SIG_CUR_PM_HI
    { off := 0x140, stride := 4, lo := 0, hi := 15, ro := 0xFFFFFFFF } ]  -- SIG_DATAn

/-- Registers of the frank page (R416). -/
def frankRows : List RegRow :=
  [ { off := 0x040, rw := 0xFFFF, reset := 0x2580 },  -- FRANK_BUDGET
    { off := 0x044, rw := 0xFFFF, reset := 0xC80 },  -- FRANK_BASE
    { off := 0x048, ro := 0xF000FFFF, reset := 0x2580 },  -- FRANK_EFFECTIVE
    { off := 0x04C, ro := 0x7FFFFF },  -- FRANK_GRANTED
    { off := 0x050, rwl := 0xFFFFFFFF, reset := 0x64484064 },  -- FRANK_COST
    { off := 0x054, rw := 0x8000FFFF, reset := 0x190, mgr := true },  -- FRANK_MOVE_CTRL
    { off := 0x058, rwl := 0xFFFFF, reset := 0x96000, mgr := true } ]  -- FRANK_SYS_BUDGET

/-- Registers of the supply page (R417). -/
def supplyRows : List RegRow :=
  [ { off := 0x040, ro := 0xFFFF, reset := 0x1111 },  -- RAIL_STATUS
    { off := 0x044, rwl := 0x3FF, reset := 0x2BC },  -- RAIL_SETPOINT
    { off := 0x050, stride := 4, lo := 0, hi := 3, ro := 0xFFFFFFFF },  -- RAIL_MV_k
    { off := 0x060, ro := 0x3FFFF },  -- INPUT_STATUS
    { off := 0x064, ro := 0xFFFF },  -- INPUT_POWER
    { off := 0x070, rw := 0xFF00FF00, rwl := 0xFF0000, reset := 0x5F732800 },  -- THERM_CTRL
    { off := 0x074, ro := 0xFFFFFFFF, reset := 0x64 },  -- THERM_STATUS
    { off := 0x078, ro := 0xFFFFFFFF },  -- SENSOR_OPEN_LO
    { off := 0x07C, ro := 0xFFFFFFFF } ]  -- SENSOR_OPEN_HI

/-- Registers of the time page (R271). -/
def timeRows : List RegRow :=
  [ { off := 0x040, ro := 0x1F },  -- TIME_STATUS
    { off := 0x044, rwl := 0xFFFFF, reset := 0x2710 },  -- ROUND_LEN
    { off := 0x048, rwl := 0xFFFFFFFF },  -- ROUND_EPOCH_LO
    { off := 0x04C, rwl := 0xFFFFFFFF },  -- ROUND_EPOCH_HI
    { off := 0x050, ro := 0xFFFFFFFF },  -- ROUND_NOW_LO
    { off := 0x054, ro := 0xFFFF },  -- ROUND_NOW_HI
    { off := 0x058, ro := 0x3FFFFFFF },  -- PHASE_NOW
    { off := 0x05C, ro := 0xFFFFFFFF },  -- PTP_OFFSET
    { off := 0x060, rw := 0xFFFFFF, wo := 0x80000000, reset := 0x1E003C },  -- TIME_CTRL
    { off := 0x064, rw := 0xFFFFFF, reset := 0x2710 },  -- SLEW_LIMIT
    { off := 0x080, stride := 4, lo := 0, hi := 15, rw := 0xBFFFFFFF },  -- COLLECTIONn
    { off := 0x0C0, stride := 8, lo := 0, hi := 3, rw := 0xBFFFFFFF },  -- QUIET_START_n
    { off := 0x0C4, stride := 8, lo := 0, hi := 3, rw := 0x3FFFFFFF } ]  -- QUIET_END_n

/-- Registers of the log page (R400). -/
def logRows : List RegRow :=
  [ { off := 0x040, rw := 0x1 },  -- LOG_CTRL
    { off := 0x044, ro := 0xF },  -- LOG_STATUS
    { off := 0x048, ro := 0xFFFFFFFF },  -- LOG_OLDEST_LO
    { off := 0x04C, ro := 0xFFFFFFFF },  -- LOG_OLDEST_HI
    { off := 0x050, ro := 0xFFFFFFFF },  -- LOG_NEWEST_LO
    { off := 0x054, ro := 0xFFFFFFFF },  -- LOG_NEWEST_HI
    { off := 0x058, rw := 0xFFFFFFFF },  -- LOG_CURSOR_LO
    { off := 0x05C, rw := 0xFFFFFFFF },  -- LOG_CURSOR_HI
    { off := 0x060, ro := 0xFFFF },  -- LOG_WINDOW_VALID
    { off := 0x064, rw := 0xFFFFF, reset := 0x10000 },  -- LOG_ROUND_LIMIT
    { off := 0x068, ro := 0xFFFFFFFF, reset := 0xFFFFFFFF },  -- LOG_LATCH_ROUND_LO
    { off := 0x06C, ro := 0xFFFF, reset := 0xFFFF } ]  -- LOG_LATCH_ROUND_HI

/-- Registers of the sec page (R361). -/
def secRows : List RegRow :=
  [ { off := 0x040, ro := 0xFF00003F },  -- SEC_STATUS
    { off := 0x044, ro := 0xFFFFFFFF },  -- SEC_DBG_NONCE_LO
    { off := 0x048, ro := 0xFFFFFFFF },  -- SEC_DBG_NONCE_HI
    { off := 0x04C, ro := 0xFFFF0007 },  -- SEC_DBG_STATE
    { off := 0x050, wo := 0x1 },  -- SEC_DBG_CMD
    { off := 0x060, stride := 4, lo := 1, hi := 5, ro := 0xFFFFFFFF },  -- SVN_FLOOR_k
    { off := 0x100, ro := 0xFFFFFFFF },  -- KEY_VALID_LO
    { off := 0x104, ro := 0xFFFFFFFF },  -- KEY_VALID_HI
    { off := 0x140, stride := 4, lo := 0, hi := 15, wo := 0xFFFFFFFF },  -- KEY_DATAn
    { off := 0x180, wo := 0xF000003F },  -- KEY_CMD
    { off := 0x184, ro := 0xFF } ]  -- KEY_CMD_STATUS

/-- Registers of the fwctl page (R347). -/
def fwctlRows : List RegRow :=
  [ { off := 0x040, ro := 0xFFFF07 },  -- FW_STATE
    { off := 0x044, wo := 0xF000000F },  -- FW_CMD
    { off := 0x048, ro := 0xFFE00000 },  -- FW_FAULT_LAST
    { off := 0x04C, ro := 0xFFFFFFFF },  -- FW_FAULT_PC_LO
    { off := 0x050, ro := 0xFFFFFFFF },  -- FW_FAULT_PC_HI
    { off := 0x060, stride := 4, lo := 1, hi := 5, ro := 0xE0FFF001 },  -- FW_COMP_k
    { off := 0x080, stride := 4, lo := 1, hi := 5, rw := 0x3FF, reset := 0x4 },  -- FW_WDT_k
    { off := 0x0A0, rw := 0x7F, reset := 0x5A } ]  -- SUPV_CTRL

/-- Registers of the hostif page (R328, R431). -/
def hostifRows : List RegRow :=
  [ { off := 0x040, ro := 0xF8 },  -- HOST_LINK_STATUS
    { off := 0x044, ro := 0xFFFFFFFF },  -- HOST_MAC_LO
    { off := 0x048, ro := 0xFFFF },  -- HOST_MAC_HI
    { off := 0x04C, rwl := 0x1EFFF, reset := 0x6000 },  -- HOST_VLAN
    { off := 0x050, rwl := 0xFFFF, reset := 0x1D24 },  -- PBP_PORT
    { off := 0x054, rw := 0xFFFFFFFF },  -- HOST_IPV4
    { off := 0x060, stride := 4, lo := 0, hi := 3, rw := 0xFFFFFFFF },  -- HOST_IPV6n
    { off := 0x070, rw := 0xFFFFFFFF, reset := 0x7D003E8 },  -- PBP_TIMERS
    { off := 0x074, rw := 0xFFFF, reset := 0xA },  -- NOTICE_HOLDOFF
    { off := 0x078, ro := 0x1FF },  -- HOST_SESSIONS
    { off := 0x07C, ro := 0xF },  -- HOST_SESSIONS2
    { off := 0x100, rw := 0xFF03FF, wo := 0x1000000, reset := 0xFF0000 },  -- PRBS_CTRL
    { off := 0x104, ro := 0xFFFFFF },  -- PRBS_STATUS
    { off := 0x108, ro := 0xFFFFFFFF },  -- LANE_DIAG
    { off := 0x120, stride := 16, lo := 0, hi := 7, ro := 0xFFFFFFFF },  -- PRBS_ERR_LO_l
    { off := 0x124, stride := 16, lo := 0, hi := 7, ro := 0xFFFFFFFF },  -- PRBS_ERR_HI_l
    { off := 0x128, stride := 16, lo := 0, hi := 7, ro := 0xFFFFFFFF },  -- PRBS_BITS_LO_l
    { off := 0x12C, stride := 16, lo := 0, hi := 7, ro := 0xFFFFFFFF } ]  -- PRBS_BITS_HI_l

/-- Registers of the link page (R301, R431). -/
def linkRows : List RegRow :=
  [ { off := 0x040, rw := 0x1, wo := 0x2, reset := 0x1 },  -- LINK_CTRL
    { off := 0x044, ro := 0xFFCFF87F },  -- LINK_STATUS
    { off := 0x048, ro := 0x3F7, reset := 0x300 },  -- BUNDLE_STATUS
    { off := 0x100, rw := 0xF03FF, wo := 0x1000000, reset := 0xF0000 },  -- PRBS_CTRL
    { off := 0x104, ro := 0xFFF },  -- PRBS_STATUS
    { off := 0x108, ro := 0xFFFF },  -- LANE_DIAG
    { off := 0x120, stride := 16, lo := 0, hi := 3, ro := 0xFFFFFFFF },  -- PRBS_ERR_LO_l
    { off := 0x124, stride := 16, lo := 0, hi := 3, ro := 0xFFFFFFFF },  -- PRBS_ERR_HI_l
    { off := 0x128, stride := 16, lo := 0, hi := 3, ro := 0xFFFFFFFF },  -- PRBS_BITS_LO_l
    { off := 0x12C, stride := 16, lo := 0, hi := 3, ro := 0xFFFFFFFF } ]  -- PRBS_BITS_HI_l

/-- The fabric registers of the LINK 0 page (R302). -/
def fabricRows : List RegRow :=
  [ { off := 0x400, ro := 0xF000003F },  -- FAB_ID
    { off := 0x404, rwl := 0x3, reset := 0x2, mgr := true },  -- FAB_SIZE
    { off := 0x408, ro := 0xFFFFFFFF },  -- FAB_EPOCH
    { off := 0x40C, rwl := 0xF, ro := 0xF0, reset := 0x2, mgr := true },  -- FAB_VERSION
    { off := 0x410, rwl := 0xFFFFFFFF, mgr := true },  -- FAB_SPARES_LO
    { off := 0x414, rwl := 0xFFFFFFFF, mgr := true },  -- FAB_SPARES_HI
    { off := 0x418, rw := 0x7F, mgr := true },  -- FAB_STANDBY
    { off := 0x41C, rw := 0xFF00FFFF, reset := 0x14000064, mgr := true },  -- FAB_HB
    { off := 0x420, rw := 0xFFFFFFFF, reset := 0x1F40064, mgr := true },  -- FAB_TIMERS
    { off := 0x424, rw := 0xF, reset := 0x2, mgr := true },  -- FAB_BUNDLE_MIN
    { off := 0x428, wo := 0xF000003F, mgr := true },  -- FAB_CMD
    { off := 0x42C, ro := 0xC00000FF },  -- FAB_CMD_STATUS
    { off := 0x440, stride := 4, lo := 0, hi := 7, ro := 0xFFFFFFFF },  -- MEMBERSn
    { off := 0x460, ro := 0xFFFF },  -- ROUTE_GEN
    { off := 0x480, stride := 4, lo := 0, hi := 63, ro := 0xFE7, reset := 0xFC7 } ]  -- ROUTEp

/-- Registers of the hbm page (R243). -/
def hbmRows : List RegRow :=
  [ { off := 0x040, ro := 0xFFFF },  -- HBM_CH_HEALTH
    { off := 0x044, ro := 0xFF07 },  -- HBM_THERMAL
    { off := 0x048, rw := 0x1F, reset := 0x8 },  -- HBM_FAR_SHARE
    { off := 0x04C, rw := 0xFFFF, reset := 0x1000 },  -- HBM_CE_LIMIT
    { off := 0x050, wo := 0x1F } ]  -- HBM_MAPOUT_CMD

/-- Registers of the tier page (R245). -/
def tierRows : List RegRow :=
  [ { off := 0x040, rwl := 0x3FF, reset := 0x40 },  -- TIER_POOL
    { off := 0x044, ro := 0x7 },  -- TIER_STATUS
    { off := 0x048, rw := 0xFFFFFF, reset := 0x320064 },  -- TIER_CTRL
    { off := 0x04C, rw := 0xFFFFFFFF, reset := 0xEA60 },  -- FLASH_RD_LIMIT
    { off := 0x050, wo := 0xFFC00000 },  -- TIER_CMD
    { off := 0x054, rw := 0xFFFF0000 },  -- TIER_ARG_VA_LO
    { off := 0x058, rw := 0xFFFF },  -- TIER_ARG_VA_HI
    { off := 0x05C, rw := 0xFFFFFF },  -- TIER_ARG_LEN
    { off := 0x060, ro := 0xC00000FF },  -- TIER_CMD_STATUS
    { off := 0x064, ro := 0xFFFF0000 } ]  -- FLASH_HEALTH

/-- Registers of the die page (R444). -/
def dieRows : List RegRow :=
  [ { off := 0x040, ro := 0xFFFF, reset := 0x5555 },  -- D2D_STATUS
    { off := 0x044, ro := 0x3FF, reset := 0x30 } ]  -- DIE_CORES

/-- Registers of the disp page (R272). -/
def dispRows : List RegRow :=
  [ { off := 0x040, rw := 0x1, reset := 0x1 },  -- DISP_CTRL
    { off := 0x044, ro := 0xFFFF001F } ]  -- DISP_STATUS

/-- Registers of the dcache page (R244). -/
def dcacheRows : List RegRow :=
  [ { off := 0x040, rw := 0xF, reset := 0x8 },  -- DC_CTRL
    { off := 0x044, ro := 0xBF, reset := 0x30 },  -- DC_STATUS
    { off := 0x048, ro := 0x1FFFF },  -- DC_REDIRECTS
    { off := 0x100, stride := 8, lo := 0, hi := 63, rw := 0xFFFF },  -- REG_RATE_b
    { off := 0x104, stride := 8, lo := 0, hi := 63, rw := 0xFFFF, reset := 0x400 } ]  -- REG_BURST_b

/-- Registers of the codebook page (R217). -/
def codebookRows : List RegRow :=
  [ { off := 0x040, wo := 0xFFFFFE00 },  -- CB_CMD
    { off := 0x044, rw := 0xFFFFFFFF },  -- CB_ARG_VA_LO
    { off := 0x048, rw := 0xFFFF },  -- CB_ARG_VA_HI
    { off := 0x04C, rw := 0xFFFFFF },  -- CB_ARG_LEN
    { off := 0x050, ro := 0xC0000FFF },  -- CB_CMD_STATUS
    { off := 0x054, rw := 0x3F },  -- CB_SLOT_SEL
    { off := 0x058, ro := 0xFFFFFFFF },  -- CB_SLOT_INFO
    { off := 0x05C, ro := 0x3 },  -- CB_SLOT_INFO2
    { off := 0x080, stride := 4, lo := 0, hi := 31, ro := 0xFFFFFFFF },  -- CB_LENGTHSn
    { off := 0x400, stride := 8, lo := 0, hi := 63, rw := 0xFFFFFFFF },  -- REGION_TABLE_b
    { off := 0x404, stride := 8, lo := 0, hi := 63, rw := 0x7F } ]  -- REGION_COUNT_b

/-- Registers of the fork page (R150). -/
def forkRows : List RegRow :=
  [ { off := 0x040, rw := 0xFFFF, reset := 0x3E8 },  -- MIRROR_TIMEOUT
    { off := 0x044, rw := 0x1, reset := 0x1 } ]  -- EVICT_CTRL

/-- Registers of the ctl page (R69). -/
def ctlRows : List RegRow :=
  [ { off := 0x040, ro := 0xFF1F7F },  -- CORE_IDENT
    { off := 0x044, ro := 0xF },  -- CORE_STATE
    { off := 0x048, wo := 0x3 } ]  -- CORE_CMD

/-- Registers of the mxe page (R70). -/
def mxeRows : List RegRow :=
  [ { off := 0x040, rw := 0xFFF, reset := 0x40 },  -- MXE_CTRL
    { off := 0x044, ro := 0xFC7 } ]  -- MXE_STATUS

/-- Registers of the acm page (R71). -/
def acmRows : List RegRow :=
  [ { off := 0x040, rw := 0xFFFFFFFF, reset := 0x76543210 },  -- ACM_MAP
    { off := 0x044, ro := 0x1FFF, reset := 0x8 },  -- ACM_HEALTH
    { off := 0x048, ro := 0xFFFF },  -- ACM_PH_STATE
    { off := 0x04C, rw := 0xFF, reset := 0x10 } ]  -- ACM_CE_LIMIT

/-- Registers of the vxe page (R72). -/
def vxeRows : List RegRow :=
  [ { off := 0x040, ro := 0x1F1 } ]  -- VXE_STATUS

/-- Registers of the drain page (R73). -/
def drainRows : List RegRow :=
  [ { off := 0x040, ro := 0xFF17 },  -- DRAIN_STATUS
    { off := 0x050, stride := 4, lo := 0, hi := 3, ro := 0xFFFFFFFF } ]  -- DRAIN_CHAINn

/-- Registers of the exp page (R216). -/
def expRows : List RegRow :=
  [ { off := 0x040, ro := 0x3F03 },  -- EXP_STATUS
    { off := 0x044, ro := 0xFFFF00FF },  -- EXP_ERR_LAST
    { off := 0x048, ro := 0xFFFFFFFF },  -- EXP_ERR_VA_LO
    { off := 0x04C, ro := 0xFFFF } ]  -- EXP_ERR_VA_HI

/-- Registers of the kvw page (R178). -/
def kvwRows : List RegRow :=
  [ { off := 0x040, rw := 0x1, reset := 0x1 },  -- KVW_CTRL
    { off := 0x044, wo := 0x1 },  -- KVW_CMD
    { off := 0x048, ro := 0x7F1F03 } ]  -- KVW_STATUS

/-- Registers of the state page (R149). -/
def stateRows : List RegRow :=
  [ { off := 0x040, rw := 0x7F, reset := 0x10 },  -- STATE_WINDOW
    { off := 0x044, ro := 0x7FF07FF },  -- STATE_WINDOW_USE
    { off := 0x048, ro := 0xFFFFFFFF },  -- DRIFT_LAST
    { off := 0x04C, ro := 0x80FFFFFF },  -- DRIFT_LAST_ID
    { off := 0x050, rw := 0xFFFFFF },  -- HANDLE_SEL
    { off := 0x054, ro := 0x3 },  -- HANDLE_STATUS
    { off := 0x080, stride := 4, lo := 0, hi := 15, ro := 0xFFFFFFFF } ]  -- HANDLE_DATAn

/-- Registers of the clerk page (R74). -/
def clerkRows : List RegRow :=
  [ { off := 0x040, stride := 32, lo := 0, hi := 3, ro := 0xF },  -- CLERK_STATE
    { off := 0x044, stride := 32, lo := 0, hi := 3, ro := 0xFFFFFFFF },  -- CLERK_CAUSE
    { off := 0x048, stride := 32, lo := 0, hi := 3, ro := 0xFFFFFFFF },  -- CLERK_PC_LO
    { off := 0x04C, stride := 32, lo := 0, hi := 3, ro := 0xFFFFFFFF },  -- CLERK_PC_HI
    { off := 0x0C0, ro := 0x3FFFFF } ]  -- CLERK_QUEUES

/-- Registers of the box page (R273). -/
def boxRows : List RegRow :=
  [ { off := 0x040, ro := 0x7 },  -- BOX_STATE
    { off := 0x044, wo := 0x3 },  -- BOX_CMD
    { off := 0x048, rw := 0xFFFFFFFF, reset := 0xC350 },  -- BOX_DRAIN_LIMIT
    { off := 0x04C, rw := 0xFF, reset := 0x10 },  -- BOX_SHARE
    { off := 0x050, rw := 0xFFFFFFFF, reset := 0xFFFFFFFF },  -- BOX_CORES_LO
    { off := 0x054, rw := 0xFFFFFFFF, reset := 0xFFFFFFFF },  -- BOX_CORES_HI
    { off := 0x060, rw := 0x7FFFF },  -- QUOTA_PLACES
    { off := 0x064, rw := 0x7FFF },  -- QUOTA_GROUPS
    { off := 0x068, rw := 0xFFFFF },  -- QUOTA_ARENA
    { off := 0x06C, rw := 0xFFFF },  -- QUOTA_POSTE
    { off := 0x070, rw := 0xFFFFF },  -- QUOTA_KVPOOL
    { off := 0x074, rw := 0xFFFF },  -- QUOTA_LOADED
    { off := 0x078, rw := 0x7F },  -- QUOTA_CODEBOOKS
    { off := 0x07C, rw := 0xFFFFF } ]  -- QUOTA_ITEMS

/-- The block-specific registers of page `i` of kind `p`. -/
def Pg.rows (p : Pg) (i : Nat) : List RegRow :=
  match p with
  | .hub => hubRows
  | .frank => frankRows
  | .supply => supplyRows
  | .time => timeRows
  | .log => logRows
  | .sec => secRows
  | .fwctl => fwctlRows
  | .hostif => hostifRows
  | .link => if i = 0 then linkRows ++ fabricRows else linkRows
  | .hbm => hbmRows
  | .tier => tierRows
  | .die => dieRows
  | .disp => dispRows
  | .dcache => dcacheRows
  | .codebook => codebookRows
  | .fork => forkRows
  | .ctl => ctlRows
  | .mxe => mxeRows
  | .acm => acmRows
  | .vxe => vxeRows
  | .drain => drainRows
  | .exp => expRows
  | .kvw => kvwRows
  | .state => stateRows
  | .clerk => clerkRows
  | .box => boxRows
  | .cnt => []

/-- Does the row hold a register at page offset `o`? -/
def RegRow.covers (r : RegRow) (o : Nat) : Bool :=
  if r.stride = 0 then o == r.off
  else decide (r.off + r.stride * r.lo ≤ o ∧ o ≤ r.off + r.stride * r.hi ∧ (o - r.off) % r.stride = 0)

/-- The register at offset `o` of the page, common registers first. -/
def Pg.rowAt (p : Pg) (i o : Nat) : Option RegRow :=
  (commonRows ++ p.rows i).find? (·.covers o)

/-- CAPS.COUNTERS: how many counters the page implements (R436 and the counter lists of the chapters). -/
def Pg.counters (p : Pg) (i : Nat) : Nat :=
  match p with
  | .acm => 4
  | .box => 7
  | .clerk => 8
  | .codebook => 6
  | .ctl => 2
  | .dcache => 8
  | .die => 4
  | .disp => 11
  | .drain => 4
  | .exp => 13
  | .fork => 8
  | .frank => 7
  | .fwctl => 9
  | .hbm => 8
  | .hostif => 17
  | .hub => 10
  | .kvw => 9
  | .link => if i = 0 then 24 else 12
  | .log => 6
  | .mxe => 6
  | .sec => 7
  | .state => 6
  | .supply => 7
  | .tier => 8
  | .time => 6
  | .vxe => 4
  | .cnt => 128

/-- The reset word of the register at `a` (the tables' Reset column; 0 for a register whose reset value comes from the
strap, passport, silicon or CORE_MAP: those are computed when they are read, and CORE_MAPn as R442 gives). -/
def regReset (a : Nat) : W32 :=
  match pageOf a with
  | none => 0
  | some (p, i) =>
    let o := a % 0x1000
    if p = .hub ∧ 0x60 ≤ o ∧ o < 0xA0 then
      let n := (o - 0x60) / 4
      let f := fun k => 17 * ((4 * n + k) / 16) + (4 * n + k) % 16
      BitVec.ofNat 32 (f 0 + 256 * f 1 + 65536 * f 2 + 16777216 * f 3)
    else
      match p.rowAt i o with
      | none => 0
      | some r => BitVec.ofNat 32 r.reset

/-! Offsets of the registers within their page, under the spec's names. -/

namespace Reg

/-- PAGE_ID (R436). -/
abbrev pageId : Nat := 0x000
/-- PAGE_VER (R436). -/
abbrev pageVer : Nat := 0x004
/-- CAPS (R436). -/
abbrev caps : Nat := 0x008
/-- CTRL (R436). -/
abbrev ctrl : Nat := 0x010
/-- STATUS (R436). -/
abbrev status : Nat := 0x014
/-- INT_STAT (R436). -/
abbrev intStat : Nat := 0x018
/-- INT_EN (R436). -/
abbrev intEn : Nat := 0x01C
/-- ERR_STAT (R436). -/
abbrev errStat : Nat := 0x020
/-- ERR_INFO (R436). -/
abbrev errInfo : Nat := 0x024
/-- FENCE (R436). -/
abbrev fence : Nat := 0x028
/-- LOCK (R436). -/
abbrev lock : Nat := 0x02C
/-- HUB_IDENT (R443). -/
abbrev hub_hubIdent : Nat := 0x040
/-- HUB_FLASH (R443). -/
abbrev hub_hubFlash : Nat := 0x044
/-- HUB_SERIAL_LO (R443). -/
abbrev hub_hubSerialLo : Nat := 0x048
/-- HUB_SERIAL_HI (R443). -/
abbrev hub_hubSerialHi : Nat := 0x04C
/-- HUB_STATUS (R443). -/
abbrev hub_hubStatus : Nat := 0x050
/-- HUB_RESET_CAUSE (R443). -/
abbrev hub_hubResetCause : Nat := 0x054
/-- HUB_LEDGER (R443). -/
abbrev hub_hubLedger : Nat := 0x058
/-- CORE_MAPn (R443). -/
abbrev hub_coreMap : Nat := 0x060
/-- SIG_COUNT (R443). -/
abbrev hub_sigCount : Nat := 0x100
/-- SIG_SEL (R443). -/
abbrev hub_sigSel : Nat := 0x104
/-- SIG_PM_LO (R443). -/
abbrev hub_sigPmLo : Nat := 0x108
/-- SIG_PM_HI (R443). -/
abbrev hub_sigPmHi : Nat := 0x10C
/-- SIG_LEN (R443). -/
abbrev hub_sigLen : Nat := 0x110
/-- SIG_CURSOR (R443). -/
abbrev hub_sigCursor : Nat := 0x114
/-- SIG_CUR_PM_LO (R443). -/
abbrev hub_sigCurPmLo : Nat := 0x118
/-- SIG_CUR_PM_HI (R443). -/
abbrev hub_sigCurPmHi : Nat := 0x11C
/-- SIG_DATAn (R443). -/
abbrev hub_sigData : Nat := 0x140
/-- FRANK_BUDGET (R416). -/
abbrev frank_frankBudget : Nat := 0x040
/-- FRANK_BASE (R416). -/
abbrev frank_frankBase : Nat := 0x044
/-- FRANK_EFFECTIVE (R416). -/
abbrev frank_frankEffective : Nat := 0x048
/-- FRANK_GRANTED (R416). -/
abbrev frank_frankGranted : Nat := 0x04C
/-- FRANK_COST (R416). -/
abbrev frank_frankCost : Nat := 0x050
/-- FRANK_MOVE_CTRL (R416). -/
abbrev frank_frankMoveCtrl : Nat := 0x054
/-- FRANK_SYS_BUDGET (R416). -/
abbrev frank_frankSysBudget : Nat := 0x058
/-- RAIL_STATUS (R417). -/
abbrev supply_railStatus : Nat := 0x040
/-- RAIL_SETPOINT (R417). -/
abbrev supply_railSetpoint : Nat := 0x044
/-- RAIL_MV_k (R417). -/
abbrev supply_railMv : Nat := 0x050
/-- INPUT_STATUS (R417). -/
abbrev supply_inputStatus : Nat := 0x060
/-- INPUT_POWER (R417). -/
abbrev supply_inputPower : Nat := 0x064
/-- THERM_CTRL (R417). -/
abbrev supply_thermCtrl : Nat := 0x070
/-- THERM_STATUS (R417). -/
abbrev supply_thermStatus : Nat := 0x074
/-- SENSOR_OPEN_LO (R417). -/
abbrev supply_sensorOpenLo : Nat := 0x078
/-- SENSOR_OPEN_HI (R417). -/
abbrev supply_sensorOpenHi : Nat := 0x07C
/-- TIME_STATUS (R271). -/
abbrev time_timeStatus : Nat := 0x040
/-- ROUND_LEN (R271). -/
abbrev time_roundLen : Nat := 0x044
/-- ROUND_EPOCH_LO (R271). -/
abbrev time_roundEpochLo : Nat := 0x048
/-- ROUND_EPOCH_HI (R271). -/
abbrev time_roundEpochHi : Nat := 0x04C
/-- ROUND_NOW_LO (R271). -/
abbrev time_roundNowLo : Nat := 0x050
/-- ROUND_NOW_HI (R271). -/
abbrev time_roundNowHi : Nat := 0x054
/-- PHASE_NOW (R271). -/
abbrev time_phaseNow : Nat := 0x058
/-- PTP_OFFSET (R271). -/
abbrev time_ptpOffset : Nat := 0x05C
/-- TIME_CTRL (R271). -/
abbrev time_timeCtrl : Nat := 0x060
/-- SLEW_LIMIT (R271). -/
abbrev time_slewLimit : Nat := 0x064
/-- COLLECTIONn (R271). -/
abbrev time_collection : Nat := 0x080
/-- QUIET_START_n (R271). -/
abbrev time_quietStart : Nat := 0x0C0
/-- QUIET_END_n (R271). -/
abbrev time_quietEnd : Nat := 0x0C4
/-- LOG_CTRL (R400). -/
abbrev log_logCtrl : Nat := 0x040
/-- LOG_STATUS (R400). -/
abbrev log_logStatus : Nat := 0x044
/-- LOG_OLDEST_LO (R400). -/
abbrev log_logOldestLo : Nat := 0x048
/-- LOG_OLDEST_HI (R400). -/
abbrev log_logOldestHi : Nat := 0x04C
/-- LOG_NEWEST_LO (R400). -/
abbrev log_logNewestLo : Nat := 0x050
/-- LOG_NEWEST_HI (R400). -/
abbrev log_logNewestHi : Nat := 0x054
/-- LOG_CURSOR_LO (R400). -/
abbrev log_logCursorLo : Nat := 0x058
/-- LOG_CURSOR_HI (R400). -/
abbrev log_logCursorHi : Nat := 0x05C
/-- LOG_WINDOW_VALID (R400). -/
abbrev log_logWindowValid : Nat := 0x060
/-- LOG_ROUND_LIMIT (R400). -/
abbrev log_logRoundLimit : Nat := 0x064
/-- LOG_LATCH_ROUND_LO (R400). -/
abbrev log_logLatchRoundLo : Nat := 0x068
/-- LOG_LATCH_ROUND_HI (R400). -/
abbrev log_logLatchRoundHi : Nat := 0x06C
/-- SEC_STATUS (R361). -/
abbrev sec_secStatus : Nat := 0x040
/-- SEC_DBG_NONCE_LO (R361). -/
abbrev sec_secDbgNonceLo : Nat := 0x044
/-- SEC_DBG_NONCE_HI (R361). -/
abbrev sec_secDbgNonceHi : Nat := 0x048
/-- SEC_DBG_STATE (R361). -/
abbrev sec_secDbgState : Nat := 0x04C
/-- SEC_DBG_CMD (R361). -/
abbrev sec_secDbgCmd : Nat := 0x050
/-- SVN_FLOOR_k (R361). -/
abbrev sec_svnFloor : Nat := 0x060
/-- KEY_VALID_LO (R361). -/
abbrev sec_keyValidLo : Nat := 0x100
/-- KEY_VALID_HI (R361). -/
abbrev sec_keyValidHi : Nat := 0x104
/-- KEY_DATAn (R361). -/
abbrev sec_keyData : Nat := 0x140
/-- KEY_CMD (R361). -/
abbrev sec_keyCmd : Nat := 0x180
/-- KEY_CMD_STATUS (R361). -/
abbrev sec_keyCmdStatus : Nat := 0x184
/-- FW_STATE (R347). -/
abbrev fwctl_fwState : Nat := 0x040
/-- FW_CMD (R347). -/
abbrev fwctl_fwCmd : Nat := 0x044
/-- FW_FAULT_LAST (R347). -/
abbrev fwctl_fwFaultLast : Nat := 0x048
/-- FW_FAULT_PC_LO (R347). -/
abbrev fwctl_fwFaultPcLo : Nat := 0x04C
/-- FW_FAULT_PC_HI (R347). -/
abbrev fwctl_fwFaultPcHi : Nat := 0x050
/-- FW_COMP_k (R347). -/
abbrev fwctl_fwComp : Nat := 0x060
/-- FW_WDT_k (R347). -/
abbrev fwctl_fwWdt : Nat := 0x080
/-- SUPV_CTRL (R347). -/
abbrev fwctl_supvCtrl : Nat := 0x0A0
/-- HOST_LINK_STATUS (R328). -/
abbrev hostif_hostLinkStatus : Nat := 0x040
/-- HOST_MAC_LO (R328). -/
abbrev hostif_hostMacLo : Nat := 0x044
/-- HOST_MAC_HI (R328). -/
abbrev hostif_hostMacHi : Nat := 0x048
/-- HOST_VLAN (R328). -/
abbrev hostif_hostVlan : Nat := 0x04C
/-- PBP_PORT (R328). -/
abbrev hostif_pbpPort : Nat := 0x050
/-- HOST_IPV4 (R328). -/
abbrev hostif_hostIpv4 : Nat := 0x054
/-- HOST_IPV6n (R328). -/
abbrev hostif_hostIpv6 : Nat := 0x060
/-- PBP_TIMERS (R328). -/
abbrev hostif_pbpTimers : Nat := 0x070
/-- NOTICE_HOLDOFF (R328). -/
abbrev hostif_noticeHoldoff : Nat := 0x074
/-- HOST_SESSIONS (R328). -/
abbrev hostif_hostSessions : Nat := 0x078
/-- HOST_SESSIONS2 (R328). -/
abbrev hostif_hostSessions2 : Nat := 0x07C
/-- PRBS_CTRL (R431). -/
abbrev hostif_prbsCtrl : Nat := 0x100
/-- PRBS_STATUS (R431). -/
abbrev hostif_prbsStatus : Nat := 0x104
/-- LANE_DIAG (R431). -/
abbrev hostif_laneDiag : Nat := 0x108
/-- PRBS_ERR_LO_l (R431). -/
abbrev hostif_prbsErrLo : Nat := 0x120
/-- PRBS_ERR_HI_l (R431). -/
abbrev hostif_prbsErrHi : Nat := 0x124
/-- PRBS_BITS_LO_l (R431). -/
abbrev hostif_prbsBitsLo : Nat := 0x128
/-- PRBS_BITS_HI_l (R431). -/
abbrev hostif_prbsBitsHi : Nat := 0x12C
/-- LINK_CTRL (R301). -/
abbrev link_linkCtrl : Nat := 0x040
/-- LINK_STATUS (R301). -/
abbrev link_linkStatus : Nat := 0x044
/-- BUNDLE_STATUS (R301). -/
abbrev link_bundleStatus : Nat := 0x048
/-- PRBS_CTRL (R431). -/
abbrev link_prbsCtrl : Nat := 0x100
/-- PRBS_STATUS (R431). -/
abbrev link_prbsStatus : Nat := 0x104
/-- LANE_DIAG (R431). -/
abbrev link_laneDiag : Nat := 0x108
/-- PRBS_ERR_LO_l (R431). -/
abbrev link_prbsErrLo : Nat := 0x120
/-- PRBS_ERR_HI_l (R431). -/
abbrev link_prbsErrHi : Nat := 0x124
/-- PRBS_BITS_LO_l (R431). -/
abbrev link_prbsBitsLo : Nat := 0x128
/-- PRBS_BITS_HI_l (R431). -/
abbrev link_prbsBitsHi : Nat := 0x12C
/-- FAB_ID (R302). -/
abbrev link_fabId : Nat := 0x400
/-- FAB_SIZE (R302). -/
abbrev link_fabSize : Nat := 0x404
/-- FAB_EPOCH (R302). -/
abbrev link_fabEpoch : Nat := 0x408
/-- FAB_VERSION (R302). -/
abbrev link_fabVersion : Nat := 0x40C
/-- FAB_SPARES_LO (R302). -/
abbrev link_fabSparesLo : Nat := 0x410
/-- FAB_SPARES_HI (R302). -/
abbrev link_fabSparesHi : Nat := 0x414
/-- FAB_STANDBY (R302). -/
abbrev link_fabStandby : Nat := 0x418
/-- FAB_HB (R302). -/
abbrev link_fabHb : Nat := 0x41C
/-- FAB_TIMERS (R302). -/
abbrev link_fabTimers : Nat := 0x420
/-- FAB_BUNDLE_MIN (R302). -/
abbrev link_fabBundleMin : Nat := 0x424
/-- FAB_CMD (R302). -/
abbrev link_fabCmd : Nat := 0x428
/-- FAB_CMD_STATUS (R302). -/
abbrev link_fabCmdStatus : Nat := 0x42C
/-- MEMBERSn (R302). -/
abbrev link_members : Nat := 0x440
/-- ROUTE_GEN (R302). -/
abbrev link_routeGen : Nat := 0x460
/-- ROUTEp (R302). -/
abbrev link_route : Nat := 0x480
/-- HBM_CH_HEALTH (R243). -/
abbrev hbm_hbmChHealth : Nat := 0x040
/-- HBM_THERMAL (R243). -/
abbrev hbm_hbmThermal : Nat := 0x044
/-- HBM_FAR_SHARE (R243). -/
abbrev hbm_hbmFarShare : Nat := 0x048
/-- HBM_CE_LIMIT (R243). -/
abbrev hbm_hbmCeLimit : Nat := 0x04C
/-- HBM_MAPOUT_CMD (R243). -/
abbrev hbm_hbmMapoutCmd : Nat := 0x050
/-- TIER_POOL (R245). -/
abbrev tier_tierPool : Nat := 0x040
/-- TIER_STATUS (R245). -/
abbrev tier_tierStatus : Nat := 0x044
/-- TIER_CTRL (R245). -/
abbrev tier_tierCtrl : Nat := 0x048
/-- FLASH_RD_LIMIT (R245). -/
abbrev tier_flashRdLimit : Nat := 0x04C
/-- TIER_CMD (R245). -/
abbrev tier_tierCmd : Nat := 0x050
/-- TIER_ARG_VA_LO (R245). -/
abbrev tier_tierArgVaLo : Nat := 0x054
/-- TIER_ARG_VA_HI (R245). -/
abbrev tier_tierArgVaHi : Nat := 0x058
/-- TIER_ARG_LEN (R245). -/
abbrev tier_tierArgLen : Nat := 0x05C
/-- TIER_CMD_STATUS (R245). -/
abbrev tier_tierCmdStatus : Nat := 0x060
/-- FLASH_HEALTH (R245). -/
abbrev tier_flashHealth : Nat := 0x064
/-- D2D_STATUS (R444). -/
abbrev die_d2dStatus : Nat := 0x040
/-- DIE_CORES (R444). -/
abbrev die_dieCores : Nat := 0x044
/-- DISP_CTRL (R272). -/
abbrev disp_dispCtrl : Nat := 0x040
/-- DISP_STATUS (R272). -/
abbrev disp_dispStatus : Nat := 0x044
/-- DC_CTRL (R244). -/
abbrev dcache_dcCtrl : Nat := 0x040
/-- DC_STATUS (R244). -/
abbrev dcache_dcStatus : Nat := 0x044
/-- DC_REDIRECTS (R244). -/
abbrev dcache_dcRedirects : Nat := 0x048
/-- REG_RATE_b (R244). -/
abbrev dcache_regRate : Nat := 0x100
/-- REG_BURST_b (R244). -/
abbrev dcache_regBurst : Nat := 0x104
/-- CB_CMD (R217). -/
abbrev codebook_cbCmd : Nat := 0x040
/-- CB_ARG_VA_LO (R217). -/
abbrev codebook_cbArgVaLo : Nat := 0x044
/-- CB_ARG_VA_HI (R217). -/
abbrev codebook_cbArgVaHi : Nat := 0x048
/-- CB_ARG_LEN (R217). -/
abbrev codebook_cbArgLen : Nat := 0x04C
/-- CB_CMD_STATUS (R217). -/
abbrev codebook_cbCmdStatus : Nat := 0x050
/-- CB_SLOT_SEL (R217). -/
abbrev codebook_cbSlotSel : Nat := 0x054
/-- CB_SLOT_INFO (R217). -/
abbrev codebook_cbSlotInfo : Nat := 0x058
/-- CB_SLOT_INFO2 (R217). -/
abbrev codebook_cbSlotInfo2 : Nat := 0x05C
/-- CB_LENGTHSn (R217). -/
abbrev codebook_cbLengths : Nat := 0x080
/-- REGION_TABLE_b (R217). -/
abbrev codebook_regionTable : Nat := 0x400
/-- REGION_COUNT_b (R217). -/
abbrev codebook_regionCount : Nat := 0x404
/-- MIRROR_TIMEOUT (R150). -/
abbrev fork_mirrorTimeout : Nat := 0x040
/-- EVICT_CTRL (R150). -/
abbrev fork_evictCtrl : Nat := 0x044
/-- CORE_IDENT (R69). -/
abbrev ctl_coreIdent : Nat := 0x040
/-- CORE_STATE (R69). -/
abbrev ctl_coreState : Nat := 0x044
/-- CORE_CMD (R69). -/
abbrev ctl_coreCmd : Nat := 0x048
/-- MXE_CTRL (R70). -/
abbrev mxe_mxeCtrl : Nat := 0x040
/-- MXE_STATUS (R70). -/
abbrev mxe_mxeStatus : Nat := 0x044
/-- ACM_MAP (R71). -/
abbrev acm_acmMap : Nat := 0x040
/-- ACM_HEALTH (R71). -/
abbrev acm_acmHealth : Nat := 0x044
/-- ACM_PH_STATE (R71). -/
abbrev acm_acmPhState : Nat := 0x048
/-- ACM_CE_LIMIT (R71). -/
abbrev acm_acmCeLimit : Nat := 0x04C
/-- VXE_STATUS (R72). -/
abbrev vxe_vxeStatus : Nat := 0x040
/-- DRAIN_STATUS (R73). -/
abbrev drain_drainStatus : Nat := 0x040
/-- DRAIN_CHAINn (R73). -/
abbrev drain_drainChain : Nat := 0x050
/-- EXP_STATUS (R216). -/
abbrev exp_expStatus : Nat := 0x040
/-- EXP_ERR_LAST (R216). -/
abbrev exp_expErrLast : Nat := 0x044
/-- EXP_ERR_VA_LO (R216). -/
abbrev exp_expErrVaLo : Nat := 0x048
/-- EXP_ERR_VA_HI (R216). -/
abbrev exp_expErrVaHi : Nat := 0x04C
/-- KVW_CTRL (R178). -/
abbrev kvw_kvwCtrl : Nat := 0x040
/-- KVW_CMD (R178). -/
abbrev kvw_kvwCmd : Nat := 0x044
/-- KVW_STATUS (R178). -/
abbrev kvw_kvwStatus : Nat := 0x048
/-- STATE_WINDOW (R149). -/
abbrev state_stateWindow : Nat := 0x040
/-- STATE_WINDOW_USE (R149). -/
abbrev state_stateWindowUse : Nat := 0x044
/-- DRIFT_LAST (R149). -/
abbrev state_driftLast : Nat := 0x048
/-- DRIFT_LAST_ID (R149). -/
abbrev state_driftLastId : Nat := 0x04C
/-- HANDLE_SEL (R149). -/
abbrev state_handleSel : Nat := 0x050
/-- HANDLE_STATUS (R149). -/
abbrev state_handleStatus : Nat := 0x054
/-- HANDLE_DATAn (R149). -/
abbrev state_handleData : Nat := 0x080
/-- CLERK_STATE (R74). -/
abbrev clerk_clerkState : Nat := 0x040
/-- CLERK_CAUSE (R74). -/
abbrev clerk_clerkCause : Nat := 0x044
/-- CLERK_PC_LO (R74). -/
abbrev clerk_clerkPcLo : Nat := 0x048
/-- CLERK_PC_HI (R74). -/
abbrev clerk_clerkPcHi : Nat := 0x04C
/-- CLERK_QUEUES (R74). -/
abbrev clerk_clerkQueues : Nat := 0x0C0
/-- BOX_STATE (R273). -/
abbrev box_boxState : Nat := 0x040
/-- BOX_CMD (R273). -/
abbrev box_boxCmd : Nat := 0x044
/-- BOX_DRAIN_LIMIT (R273). -/
abbrev box_boxDrainLimit : Nat := 0x048
/-- BOX_SHARE (R273). -/
abbrev box_boxShare : Nat := 0x04C
/-- BOX_CORES_LO (R273). -/
abbrev box_boxCoresLo : Nat := 0x050
/-- BOX_CORES_HI (R273). -/
abbrev box_boxCoresHi : Nat := 0x054
/-- QUOTA_PLACES (R273). -/
abbrev box_quotaPlaces : Nat := 0x060
/-- QUOTA_GROUPS (R273). -/
abbrev box_quotaGroups : Nat := 0x064
/-- QUOTA_ARENA (R273). -/
abbrev box_quotaArena : Nat := 0x068
/-- QUOTA_POSTE (R273). -/
abbrev box_quotaPoste : Nat := 0x06C
/-- QUOTA_KVPOOL (R273). -/
abbrev box_quotaKvpool : Nat := 0x070
/-- QUOTA_LOADED (R273). -/
abbrev box_quotaLoaded : Nat := 0x074
/-- QUOTA_CODEBOOKS (R273). -/
abbrev box_quotaCodebooks : Nat := 0x078
/-- QUOTA_ITEMS (R273). -/
abbrev box_quotaItems : Nat := 0x07C

end Reg

end Sys2Proof.Machine
end

