-- ==== Sys2Proof/Machine/Store.lean ====
section
/-! DEFINITION. Sparse stores: a list of (key, value) pairs with strictly rising keys. Where unlisted keys read 0 the
form is canonical: no listed value is 0, so that equal stores are equal data. Registers, counters and memories use it. -/

namespace Sys2Proof.Machine

/-- Value at key `k` of a sorted list; `d` where it is not listed. -/
def cellGet {α : Type} (d : α) : List (Nat × α) → Nat → α
  | [], _ => d
  | (a, v) :: l, k => if a = k then v else cellGet d l k

/-- The list with the entry `(k, v)` in key order, in place of one at `k`. -/
def cellPut {α : Type} : List (Nat × α) → Nat → α → List (Nat × α)
  | [], k, v => [(k, v)]
  | (a, w) :: l, k, v =>
    if a < k then (a, w) :: cellPut l k v
    else if a = k then (k, v) :: l
    else (k, v) :: (a, w) :: l

/-- The list with key `k` at `v`; no entry where `v` is the value `d` of an unlisted key. -/
def cellSet {α : Type} [DecidableEq α] (d : α) (l : List (Nat × α)) (k : Nat) (v : α) : List (Nat × α) :=
  if v = d then l.filter (fun p => decide (p.1 ≠ k)) else cellPut l k v

/-- Keys strictly rise, each is above `lo` where a bound is given, and no value is `d`. -/
def cellsWf {α : Type} [DecidableEq α] (d : α) : Option Nat → List (Nat × α) → Bool
  | _, [] => true
  | lo, (a, v) :: l => (match lo with | none => true | some b => decide (b < a)) && decide (v ≠ d) && cellsWf d (some a) l

/-- The pairs `(k, v₀), (k+1, v₁), …` without the entries equal to `d`. -/
def runCells {α : Type} [DecidableEq α] (d : α) : Nat → List α → List (Nat × α)
  | _, [] => []
  | k, v :: vs => if v = d then runCells d (k + 1) vs else (k, v) :: runCells d (k + 1) vs

/-- Keys `k` to `k + |vs| − 1` set to `vs`, the others unchanged. -/
def cellSetRun {α : Type} [DecidableEq α] (d : α) (l : List (Nat × α)) (k : Nat) (vs : List α) : List (Nat × α) :=
  l.filter (fun p => decide (p.1 < k)) ++ runCells d k vs ++ l.filter (fun p => decide (k + vs.length ≤ p.1))

/-- `n` values from key `k`. -/
def cellGetRun {α : Type} (d : α) (l : List (Nat × α)) (k n : Nat) : List α :=
  (List.range n).map (fun i => cellGet d l (k + i))

/-- A memory of `w`-bit cells. `seed`: none where unlisted cells read 0; `some n` where their contents are the free
values of draw `n`. -/
structure Store (w : Nat) where
  cells : List (Nat × BitVec w) := []
  seed : Option Nat := none
  deriving DecidableEq, Repr

/-- The free value at key `k` of fill `n`. -/
def freeCell (w n k : Nat) : BitVec w := (Config.freeWord n k).setWidth w

def Store.get {w : Nat} (m : Store w) (k : Nat) : BitVec w :=
  match m.seed with
  | none => cellGet 0 m.cells k
  | some n =>
    match m.cells.find? (fun p => p.1 == k) with
    | some p => p.2
    | none => freeCell w n k

def Store.set {w : Nat} (m : Store w) (k : Nat) (v : BitVec w) : Store w :=
  match m.seed with
  | none => { m with cells := cellSet 0 m.cells k v }
  | some _ => { m with cells := m.cells.filter (fun p => p.1 != k) ++ [(k, v)] }

/-- Cells `k` onward set to the values of a list. -/
def Store.setRun {w : Nat} (m : Store w) (k : Nat) (vs : List (BitVec w)) : Store w :=
  match m.seed with
  | none => { m with cells := cellSetRun 0 m.cells k vs }
  | some _ =>
    { m with cells := m.cells.filter (fun p => decide (p.1 < k ∨ k + vs.length ≤ p.1)) ++
        (List.range vs.length).zipWith (fun i v => (k + i, v)) vs }

def Store.getRun {w : Nat} (m : Store w) (k n : Nat) : List (BitVec w) :=
  (List.range n).map (fun i => m.get (k + i))

/-- All cells 0. -/
def Store.zero {w : Nat} : Store w := {}

/-- Contents the spec does not define: free values of draw `n`. -/
def Store.free {w : Nat} (n : Nat) : Store w := { seed := some n }

/-- Canonical form of a store whose unlisted cells read 0. -/
def Store.wf {w : Nat} (m : Store w) : Bool := m.seed.isSome || cellsWf 0 none m.cells

/-- A sorted set of numbers with `n` put in. -/
def setInsert : List Nat → Nat → List Nat
  | [], n => [n]
  | a :: l, n => if a < n then a :: setInsert l n else if a = n then a :: l else n :: a :: l

def setErase (l : List Nat) (n : Nat) : List Nat := l.filter (· ≠ n)

/-- Element `i` of a list changed by `f`; the list unchanged where it has no such element. -/
def listModify {α : Type} (f : α → α) : List α → Nat → List α
  | [], _ => []
  | a :: l, 0 => f a :: l
  | a :: l, i + 1 => a :: listModify f l i

end Sys2Proof.Machine
end

