-- ==== Sys2Proof/Machine/StCore.lean ====
section
/-! DEFINITION. The state of a core and what it runs: kernels as the loader leaves them (R102 to R111), clerks (R59
to R64), engines and their queues (R41, R47, R49, R52, R62), memories (R48, R65), the walker's buffer (R168) and the
encode buffer (R210). -/

namespace Sys2Proof.Machine

/-- A tensor descriptor (R109). `bind` as in BIND; `base` the box virtual address, or the operand number. -/
structure TensorDesc where
  fmt : Nat := 7
  rank : Nat := 1
  size : List Nat := [1, 1, 1, 1]
  stride : List Nat := [0, 0, 0]
  origin : List Nat := [0, 0, 0, 0]
  globalId : Nat := 0
  scale : Nat := 0
  scaleArray : Nat := 0
  channelDim : Nat := 0
  writable : Bool := false
  coded : Bool := false
  bind : Nat := 0
  cache : Nat := 0
  base : Nat := 0
  /-- The descriptor's reserved bits, gathered. -/
  reserved : Nat := 0
  deriving DecidableEq, Repr

/-- A kernel descriptor with everything the loader copied for it (R105, R115). -/
structure Kernel where
  kernelId : Nat := 0
  phNeed : Nat := 0
  clerkMask : Nat := 1
  opndFmt : Nat := 0
  wgtFmt : Nat := 0
  usesMxe : Bool := false
  usesState : Bool := false
  isVariant : Bool := false
  clerkEntry : List Nat := [0, 0, 0, 0]
  outScale : W32 := 0
  clipLo : W32 := 0
  clipHi : W32 := 0
  actAlpha : W32 := 0
  chscaleTensor : Nat := 0xFFFF
  biasTensor : Nat := 0xFFFF
  cbufNeed : Nat := 0
  estCycles : Nat := 1
  /-- Chain table: for each chain its eight stage words (R107). -/
  chains : List (List Nat) := []
  tensors : List TensorDesc := []
  code : List Byte := []
  data : List Byte := []
  deriving DecidableEq, Repr

/-- A loaded kernel list entry (R102). -/
structure KEntry where
  handoff : Bool := false
  instances : Nat := 1
  kernel : Kernel
  variant : Option Kernel := none
  deriving DecidableEq, Repr

/-- Which list an instance runs. -/
inductive ListKind where
  | prefill | step | backward | kernel
  deriving DecidableEq, Repr

/-- An instance placed on a core (R103, R118): item, stream entry, list position, instance index. -/
structure Inst where
  item : Nat
  entry : Nat
  pos : Nat
  idx : Nat := 0
  list : ListKind
  variant : Bool := false
  box : Nat
  /-- Stream identifier; none in a KERNEL item. -/
  stream : Option Nat := none
  /-- Weight of the kernel in the dispatcher's load account, in cycles (R258). -/
  cost : Nat := 0
  /-- Time at which it started, in ns; meaningful once it runs. -/
  start : Nat := 0
  /-- The instance consumed poison (R369), with the box virtual address concerned where there is one. -/
  poison : Option Nat := none
  deriving DecidableEq, Repr

/-- CORE_STATE (R69). -/
inductive CoreSt where
  | reset | idle | running | draining | drained | selftest | fenced
  deriving DecidableEq, Repr

def CoreSt.code : CoreSt → Nat
  | .reset => 0 | .idle => 1 | .running => 2 | .draining => 3 | .drained => 4 | .selftest => 5 | .fenced => 6

/-- CLERK_STATE (R74). -/
inductive ClerkSt where
  | idle | running | waiting | halted | trapped
  deriving DecidableEq, Repr

def ClerkSt.code : ClerkSt → Nat
  | .idle => 0 | .running => 1 | .waiting => 2 | .halted => 3 | .trapped => 4

/-- A clerk (R59 to R61, R74). -/
structure Clerk where
  state : ClerkSt := .idle
  /-- x1 to x31, in order. -/
  x : List W64 := List.replicate 31 0
  pc : W64 := 0
  td : List (BitVec 128) := List.replicate 8 0
  parm : W64 := 0
  dmem : Store 8 := {}
  dmemPoison : List Nat := []
  /-- Reservation of the last LR: the address and size it covers (A extension). -/
  resv : Option (Nat × Nat) := none
  cause : W64 := 0
  trapPc : W64 := 0
  /-- The clerk finished its part of the instance by ECALL. -/
  finished : Bool := false
  deriving DecidableEq, Repr

/-- MXE_STATUS.RAMP (R70). -/
inductive Ramp where
  | off | up | full | down
  deriving DecidableEq, Repr

def Ramp.code : Ramp → Nat
  | .off => 0 | .up => 1 | .full => 2 | .down => 3

/-- State of a logical pigeonhole (R49). -/
inductive PhSt where
  | free | accum | drain
  deriving DecidableEq, Repr

def PhSt.code : PhSt → Nat
  | .free => 0 | .accum => 1 | .drain => 2

/-- An operation waiting in the MXE's issue queue (R62), by the clerk that issued it. -/
inductive MxeOp where
  | wl (clerk : Nat) (td : BitVec 128)
  | mul (clerk : Nat) (td : BitVec 128) (ph : Nat) (accInit axis swap : Bool)
  deriving DecidableEq, Repr

def MxeOp.isMul : MxeOp → Bool
  | .mul _ _ _ _ _ _ => true
  | .wl _ _ => false

def MxeOp.clerk : MxeOp → Nat
  | .wl c _ => c
  | .mul c _ _ _ _ _ => c

/-- A DRN in the drain's queue or in progress, with the parameter word it consumed (R61). -/
structure DrnOp where
  clerk : Nat
  dest : BitVec 128
  resid : BitVec 128
  ph : Nat
  chain : Nat
  parm : W64
  /-- MXMULs to its pigeonhole that were issued before it and have not run (R45). -/
  after : Nat := 0
  deriving DecidableEq, Repr

/-- An operation in a courier's queue: a CRR, or a walk request as its 32 bytes with its layer record's 16 above. -/
inductive CourOp where
  | crr (clerk : Nat) (dest src : BitVec 128)
  | walk (clerk : Nat) (req : Nat)
  deriving DecidableEq, Repr

def CourOp.clerk : CourOp → Nat
  | .crr c _ _ => c
  | .walk c _ => c

def CourOp.isCrr : CourOp → Bool
  | .crr _ _ _ => true
  | .walk _ _ => false

/-- A page-table entry as R156 lays it out. -/
structure Pte where
  page : Nat
  new : Bool := false
  fill : Nat := 0
  /-- Page, as a key of the pool; its DA is the pool's. -/
  da : Nat
  run : Nat := 0
  deriving DecidableEq, Repr

/-- A look-aside entry: box, stream, layer and page index with its page-table entry (R168). -/
structure LabEntry where
  box : Nat
  stream : Nat
  layer : Nat
  page : Nat
  pte : Pte
  deriving DecidableEq, Repr

/-- A block open in the encode buffer: its tensor's box, the block's virtual address, the bytes written so far
(offset in the block, byte) and the poisoned offsets (R210). -/
structure EncBlk where
  box : Nat
  va : Nat
  /-- Index of the tensor written, which a failed merge reports (R207, R212). -/
  tensor : Nat
  data : Store 8 := {}
  written : List Nat := []
  poison : Bool := false
  deriving DecidableEq, Repr

/-- A self-test slice running on a core (R377). -/
structure Slice where
  patternSet : Nat
  start : Nat
  deriving DecidableEq, Repr

/-- A physical core. -/
structure Core where
  state : CoreSt := .reset
  incarnation : Nat := 0
  timesFenced : Nat := 0
  /-- Cause of the last fence (R375 keeps it with the core). -/
  fenceCause : Nat := 0
  lastBox : Option Nat := none
  run : Option Inst := none
  queue : List Inst := []
  /-- Handoff chain in progress on this core: the instance of its next kernel (R104). -/
  chain : Option Inst := none
  clerks : List Clerk := List.replicate 4 {}
  code : Store 8 := {}
  codePoison : List Nat := []
  cbuf : Store 8 := {}
  cbufPoison : List Nat := []
  ramp : Ramp := .off
  groups : Nat := 0
  /-- A ramp-down forced by a droop or a franking cut (R47, R405). -/
  rampForced : Bool := false
  bank : Nat := 0
  axis : Nat := 0
  shadowReady : Bool := false
  banks : List (Store 16) := [{}, {}]
  /-- Rows K and columns N of the block each bank holds; lanes past it are gated (R40). -/
  bankDims : List (Nat × Nat) := [(256, 256), (256, 256)]
  /-- Poisoned 32-bit words of each bank (R366). -/
  bankPoison : List (List Nat) := [[], []]
  /-- Clerk whose weight load has written the shadow bank and awaits SHADOW_READY. -/
  loading : Option Nat := none
  mxeQ : List MxeOp := []
  /-- Contents of physical pigeonholes P0 to P8, element `r * 256 + j`. -/
  ph : List (Store 32) := List.replicate 9 {}
  /-- Poisoned rows, as `p * 256 + r` (R51, R366). -/
  phPoison : List Nat := []
  phState : List PhSt := List.replicate 8 .free
  /-- Mask of retired physical pigeonholes (R51, R71). -/
  retired : Nat := 0
  /-- Corrected errors of each physical pigeonhole in this round (R51). -/
  phCe : List Nat := List.replicate 9 0
  drain : Option DrnOp := none
  drainRow : Nat := 0
  drainQ : List DrnOp := []
  courQ : List (List CourOp) := [[], [], [], []]
  lab : List LabEntry := []
  poolWait : Bool := false
  enc : List EncBlk := []
  /-- The expander or encoder waits for a REPLACING slot: the wait has been counted (R203). -/
  cbWait : Bool := false
  slice : Option Slice := none
  nextPattern : Nat := 0
  lastPass : Option Nat := none
  /-- Minutes since the last pass for which SLICE_OVERDUE was recorded: 0, 30 or 60. -/
  overdue : Nat := 0
  corner : Nat := 0
  /-- No placement on the core: it is being drained for a slice or a remap. -/
  hold : Bool := false
  /-- The core is held for the quiet window (R256). -/
  quietHold : Bool := false
  /-- Exposure buffer: tags of items that ran since the last pass, and its overflow flag (R379). -/
  exposure : List W64 := []
  exposureOverflow : Bool := false
  /-- STALE_CORE_DROP was recorded for this core in this round (R371). -/
  staleNoted : Bool := false
  /-- STALE_CORE_DROPS (R371), which no page lists: requests refused. -/
  staleDrops : Nat := 0
  deriving DecidableEq, Repr

end Sys2Proof.Machine
end

