-- ==== Sys2Proof/Machine/Operands.lean ====
section
/-! DEFINITION. Operands of a core's engines: tile registers (R60), the checks at issue (R63, R113), elements in the
core buffer and the state slot (R79), poison (R368) and the rounding generator (R131). -/

namespace Sys2Proof.Machine

/-- Failure reasons (R365). -/
inductive Reason where
  | oob | acmShort | poison | envelope | codebookStale | stateVersion | boxDisabled | aborted | fwRestart
  | supplyReset | coreFenced | moduleLost | deadline | watchdog | loadCheck
  deriving DecidableEq, Repr

def Reason.code : Reason → Nat
  | .oob => 0x01 | .acmShort => 0x02 | .poison => 0x03 | .envelope => 0x04 | .codebookStale => 0x05
  | .stateVersion => 0x06 | .boxDisabled => 0x07 | .aborted => 0x08 | .fwRestart => 0x09 | .supplyReset => 0x0A
  | .coreFenced => 0x0B | .moduleLost => 0x0C | .deadline => 0x0D | .watchdog => 0x0E | .loadCheck => 0x0F

/-- Why an item or an entry fails, with what its dead-letter entry carries (R314). -/
structure Fail where
  reason : Reason
  check : Nat := 0
  entry : Nat := 0xFFFF
  kernelId : Nat := 0
  tensor : Nat := 0xFFFF
  stream : Nat := 0x3FFFF
  pos : Option Nat := none
  /-- COORD0 to COORD3. -/
  coords : List Nat := [0, 0, 0, 0]
  va : Nat := 0
  atEntry : Bool := false
  deriving DecidableEq, Repr

def Fail.loadCheck (c : Nat) : Fail := { reason := .loadCheck, check := c }

/-- A tile register's fields (R60). -/
structure Tile where
  rows : Nat
  cols : Nat
  fmt : Nat
  space : Nat
  stride : Nat
  tensor : Nat
  rnd : Nat
  sat : Bool
  base : Nat
  deriving DecidableEq, Repr

def Tile.ofBits (w : BitVec 128) : Tile :=
  let n := w.toNat
  { rows := bits n 127 120 + 1, cols := bits n 119 112 + 1, fmt := bits n 111 108, space := bits n 107 104,
    stride := bits n 103 80, tensor := bits n 79 64, rnd := bits n 63 61, sat := bit n 60, base := bits n 47 0 }

def Tile.toBits (t : Tile) : BitVec 128 :=
  BitVec.ofNat 128 ((t.rows - 1) * 2 ^ 120 + (t.cols - 1) * 2 ^ 112 + t.fmt * 2 ^ 108 + t.space * 2 ^ 104 +
    t.stride * 2 ^ 80 + t.tensor * 2 ^ 64 + t.rnd * 2 ^ 61 + b2n t.sat * 2 ^ 60 + t.base)

def Tile.f (t : Tile) : Fmt := (Fmt.ofCode t.fmt).getD .fp32
def Tile.r (t : Tile) : Rnd := (Rnd.ofCode t.rnd).getD .near
/-- Bytes of one row (R79). -/
def Tile.rowBytes (t : Tile) : Nat := cdiv (t.cols * t.f.width) 8
def Tile.rowStart (t : Tile) (r : Nat) : Nat := t.base + r * t.stride
/-- The tile taken at another format (R55: a chain without CONVERT writes FP32). -/
def Tile.withFmt (t : Tile) (f : Nat) : Tile := { t with fmt := f }

/-- What an engine works on for the instance of a core: the core, its kernel, the state slot's payload in the window,
the stream's working generator and drift sum. -/
structure Exec where
  core : Core
  ker : Kernel
  /-- Bytes of the core buffer below the state window. -/
  below : Nat
  /-- Payload of the stream's slot: its bytes, poisoned granules and length (0 in a KERNEL item). -/
  slot : Store 8 := {}
  slotPoison : List Nat := []
  slotLen : Nat := 0
  gen : W32 := 1
  /-- Code 0b100 rounds stochastically here (R97). -/
  sr : Bool := false
  /-- The stream entry has RESET set (R129). -/
  reset : Bool := false
  driftSum : W32 := 0
  driftCount : Nat := 0
  /-- The unit read poison for the instance (R369). -/
  poisoned : Bool := false
  /-- Counters advanced: page, counter number, amount. -/
  bumps : List (Pg × Nat × Nat) := []
  deriving DecidableEq, Repr

def Exec.bump (x : Exec) (p : Pg) (n amount : Nat) : Exec := { x with bumps := (p, n, amount) :: x.bumps }

/-- One draw of the rounding generator: the new state, also the drawn value (R131). -/
def genDraw (g : W32) : W32 :=
  let g := g ^^^ (g <<< 13)
  let g := g ^^^ (g >>> 17)
  g ^^^ (g <<< 5)

/-- A generator state is never 0 (R131). -/
def genStart (s : W32) : W32 := if s = 0 then 0x6D2B_79F5 else s

/-- The generator of a forked or refilled stream (R131, R132). -/
def genChild (parent : W32) (stream lineage : Nat) : W32 :=
  let g := genStart (parent ^^^ BitVec.ofNat 32 (stream * 0x9E37_79B1) ^^^ BitVec.ofNat 32 (lineage * 65536))
  genDraw (genDraw (genDraw g))

/-! ### Checks at issue (R63) -/

/-- First byte past what a SPACE 0x0 tile may reach: below the state window and below CBUF_NEED (R63, R113). -/
def Exec.cbufLimit (x : Exec) : Nat := min x.below (x.ker.cbufNeed * 1024)

def Exec.limit (x : Exec) (t : Tile) : Nat := if t.space = 2 then x.slotLen else x.cbufLimit

/-- Step 1 of R63 for a tile that must lie in the core buffer. -/
def checkSpaceCore (x : Exec) (t : Tile) : Option Fail :=
  if t.space = 0 then none
  else if t.space = 2 ∧ x.ker.usesState then none
  else some (Fail.loadCheck 0x0405)

/-- Step 1 of R63 for a tile that may also name box memory (CRR, MXWL). -/
def checkSpaceAny (x : Exec) (t : Tile) : Option Fail :=
  if t.space = 1 then none else checkSpaceCore x t

/-- Step 2 of R63. -/
def checkTensor (x : Exec) (t : Tile) : Option Fail :=
  if t.space = 1 ∧ x.ker.tensors.length ≤ t.tensor then some (Fail.loadCheck 0x0409) else none

/-- Step 3 of R63. -/
def checkCodes (t : Tile) : Option Fail :=
  if (Fmt.ofCode t.fmt).isNone ∨ (Rnd.ofCode t.rnd).isNone then some (Fail.loadCheck 0x0408) else none

/-- Alignment of the rows of a core-buffer tile (R113). -/
def checkAlign (t : Tile) : Option Fail :=
  if t.space ≠ 1 ∧ (t.base % t.f.bytes ≠ 0 ∨ (1 < t.rows ∧ t.stride % t.f.bytes ≠ 0)) then some (Fail.loadCheck 0x0402)
  else none

/-- First column of a row of `n` bytes at `start` that passes `limit`. -/
def firstBadCol (t : Tile) (start limit : Nat) : Nat := (limit - start) * 8 / t.f.width

/-- Step 5 of R63 for a core-buffer tile: the first row and column out of range. -/
def checkRange (x : Exec) (t : Tile) : Option Fail :=
  if t.space = 1 then none
  else
    match (List.range t.rows).find? (fun r => decide (x.limit t < t.rowStart r + t.rowBytes)) with
    | none => none
    | some r => some { reason := .oob, tensor := t.tensor, coords := [firstBadCol t (t.rowStart r) (x.limit t), r, 0, 0] }

/-- The first failure of a list of checks. -/
def firstFail : List (Option Fail) → Option Fail
  | [] => none
  | some f :: _ => some f
  | none :: l => firstFail l

/-- The checks of R63 over tiles that must lie in the core buffer, `own` being the operation's rules (step 4). -/
def issueChecks (x : Exec) (ts : List Tile) (own : List (Option Fail)) : Option Fail :=
  firstFail (ts.map (checkSpaceCore x) ++ ts.map checkCodes ++ own ++ ts.map checkAlign ++ ts.map (checkRange x))

/-! ### Elements -/

/-- Bytes, poisoned granules and the write position: a write of `bytes` at `start`, the bytes marked in `bad`
poisoned. A granule written whole with clean data loses its poison; a clean write of part of one leaves it (R368). -/
def writeBytes (st : Store 8) (poison : List Nat) (start : Nat) (bytes : List Byte) (bad : List Bool) :
    Store 8 × List Nat :=
  let stop := start + bytes.length
  let gs := (List.range ((stop + 63) / 64 - start / 64)).map (fun i => start / 64 + i)
  let isBad (g : Nat) : Bool :=
    (List.range bytes.length).any (fun i => decide ((start + i) / 64 = g) && bad.getD i false)
  let poison' := gs.foldl (fun p g =>
    if isBad g then setInsert p g
    else if start ≤ g * 64 ∧ g * 64 + 64 ≤ stop then setErase p g
    else p) poison
  (if bytes.isEmpty then st else st.setRun start bytes, if bytes.isEmpty then poison else poison')

/-- Element `c` (pattern) from the bytes of a row. -/
def elemOfBytes (f : Fmt) (row : List Byte) (c : Nat) : Nat :=
  let w := f.width
  if w = 4 then
    let b := (row.getD (c / 2) 0).toNat
    if c % 2 = 0 then b % 16 else b / 16
  else leNat ((row.drop (c * (w / 8))).take (w / 8))

/-- The bytes of a row of patterns; the high nibble past an odd number of 4-bit elements is 0 (R79). -/
def bytesOfElems (f : Fmt) : List Nat → List Byte
  | [] => []
  | [a] => leBytes (cdiv f.width 8) a
  | a :: b :: l =>
    if f.width = 4 then BitVec.ofNat 8 (a % 16 + 16 * (b % 16)) :: bytesOfElems f l
    else leBytes (f.width / 8) a ++ bytesOfElems f (b :: l)

/-- Does any byte of `[start, start + n)` lie in a poisoned granule? -/
def poisonIn (poison : List Nat) (start n : Nat) : Bool :=
  poison.any (fun g => decide (g * 64 < start + n ∧ start < g * 64 + 64))

def Exec.store (x : Exec) (t : Tile) : Store 8 := if t.space = 2 then x.slot else x.core.cbuf
def Exec.poison (x : Exec) (t : Tile) : List Nat := if t.space = 2 then x.slotPoison else x.core.cbufPoison

/-- One element as read: its pattern in the tile's format and its poison mark. -/
abbrev Elem := Nat × Bool

/-- Row `r` of a core-buffer tile. -/
def Exec.readRow (x : Exec) (t : Tile) (r : Nat) : List Elem :=
  let start := t.rowStart r
  let bytes := (x.store t).getRun start t.rowBytes
  let bad := poisonIn (x.poison t) start t.rowBytes
  (List.range t.cols).map (fun c =>
    (elemOfBytes t.f bytes c,
      bad && poisonIn (x.poison t) (start + c * t.f.width / 8) (cdiv t.f.width 8)))

def Exec.readTile (x : Exec) (t : Tile) : List (List Elem) := (List.range t.rows).map (x.readRow t)

/-- Replace the store and poison a tile lies in. -/
def Exec.putStore (x : Exec) (t : Tile) (s : Store 8 × List Nat) : Exec :=
  if t.space = 2 then { x with slot := s.1, slotPoison := s.2 }
  else { x with core := { x.core with cbuf := s.1, cbufPoison := s.2 } }

/-- Poison marks of a row's bytes from those of its elements. -/
def badBytes (f : Fmt) (es : List Elem) : List Bool :=
  (List.range (cdiv (es.length * f.width) 8)).map (fun b =>
    if f.width = 4 then (es.getD (2 * b) (0, false)).2 || (es.getD (2 * b + 1) (0, false)).2
    else (es.getD (b / (f.width / 8)) (0, false)).2)

/-- Columns 0 to `|es| − 1` of row `r` of a core-buffer tile written; a 4-bit neighbour in the last byte keeps its
value. -/
def Exec.writeRow (x : Exec) (t : Tile) (r : Nat) (es : List Elem) : Exec :=
  let es := if t.f.width = 4 ∧ es.length % 2 = 1 ∧ es.length < t.cols then
      es ++ ((x.readRow t r).drop es.length).take 1 else es
  x.putStore t (writeBytes (x.store t) (x.poison t) (t.rowStart r) (bytesOfElems t.f (es.map (·.1))) (badBytes t.f es))

def Exec.writeRows (x : Exec) (t : Tile) : Nat → List (List Elem) → Exec
  | _, [] => x
  | r, es :: l => (x.writeRow t r es).writeRows t (r + 1) l

/-- Note the consumption of poison where any element read is poisoned. -/
def Exec.consume (x : Exec) (es : List (List Elem)) : Exec :=
  { x with poisoned := x.poisoned || es.any (fun row => row.any (·.2)) }

/-- The FP32 value of an element of format `f` (exact, R89). -/
def toF32 (f : Fmt) (p : Nat) : W32 := f32 (f.decode p)

/-- One element written under a tile's FMT, RND and SAT: takes a draw for code 0b100 where the stream's group enables
stochastic rounding, and rounds to nearest where it does not (R96, R97). -/
def Exec.convert (x : Exec) (f : Fmt) (r : Rnd) (sat : Bool) (v : FV) : Exec × Conv :=
  if r.draws then
    if x.sr then
      let g := genDraw x.gen
      ({ x with gen := g }, f.encode .stoch sat g.toNat v)
    else (x, f.encode .near sat 0 v)
  else (x, f.encode r sat 0 v)

/-- A row of values converted in column order. -/
def Exec.convertRow (x : Exec) (f : Fmt) (r : Rnd) (sat : Bool) : List (FV × Bool) → Exec × List Elem
  | [] => (x, [])
  | (v, bad) :: l =>
    let c := x.convert f r sat v
    let rest := c.1.convertRow f r sat l
    (rest.1, (c.2.pat, bad) :: rest.2)

/-- Rows of values converted and written from row `r` of tile `t`, in row-major order. -/
def Exec.putRows (x : Exec) (t : Tile) : Nat → List (List (FV × Bool)) → Exec
  | _, [] => x
  | r, row :: l =>
    let c := x.convertRow t.f t.r t.sat row
    (c.1.writeRow t r c.2).putRows t (r + 1) l

end Sys2Proof.Machine
end

