-- ==== Sys2Proof/Machine/StFab.lean ====
section
/-! DEFINITION. State of the link fabric: member links (R280 to R285), routes (R286, R288), end-to-end delivery (R287),
membership (R275, R290 to R298) and the host path's sessions and connections (R306, R320, R321). -/

namespace Sys2Proof.Machine

/-- LINK_STATUS.STATE (R301). -/
inductive LinkSt where
  | disabled | detect | train | negotiate | up | retrain | down | fenced | joining | miswired
  deriving DecidableEq, Repr

def LinkSt.code : LinkSt → Nat
  | .disabled => 0 | .detect => 1 | .train => 2 | .negotiate => 3 | .up => 4 | .retrain => 5 | .down => 6
  | .fenced => 7 | .joining => 8 | .miswired => 9

/-- Packets that the module sends (R282), by what they say. -/
inductive PktOut where
  | ack (lseq : Nat)
  | nack (lseq : Nat)
  | credit (vc units : Nat)
  | timeSync
  | fence (epoch : Nat)
  | heartbeat (pos budget : Nat)
  | bundleReport (pos dir state : Nat) (lost : Bool)
  | unreachable (pos : Nat)
  | declaration (pos epoch reason : Nat)
  | promotion (pos epoch : Nat)
  | admission (pos epoch : Nat)
  | takeover (pos epoch : Nat)
  | routeStop (gen : Nat)
  | routeTables (gen : Nat) (routes : List Nat)
  | routeAck (gen : Nat)
  | routeGo (gen : Nat)
  | leaving (pos : Nat)
  | join (pos : Nat)
  | joinRefused (pos : Nat) (version : Bool)
  | budget (pos stamps : Nat)
  | item (box ring count : Nat) (desc : List Byte)
  | result (box : Nat) (tag : W64) (failed : Bool) (entry : List Byte)
  | msgAck (cls seq : Nat)
  | mirror (stream stepCount lineage gen : Nat) (payload : List Byte) (dirs : List MirrorDir)
  | mirrorPage (key run : Nat) (data : List Byte)
  | register (box frames : Nat) (streams : List Nat) (block params : Nat)
  | image (component : Nat) (bytes : List Byte)
  /-- A PBP request relayed to the module that TARGET_POS names (R323). -/
  | request (cmd : Instr)
  /-- A host write relayed to a module's box memory (R307). -/
  | tensor (box va : Nat) (data : List Byte)
  /-- A register write that a command of this module spreads (R324). -/
  | register32 (addr : Nat) (value : Option W32)
  /-- A packet of another module passed on. -/
  | forward (src seq : Nat)
  deriving DecidableEq, Repr

/-- A packet on its way (R281, R286): part `part` of a message, or another module's packet. `bytes` with header and
trailer; `flood` for the flooded types. -/
structure TxPkt where
  dest : Nat
  src : Nat
  seq : Nat
  cls : Nat
  /-- Dateline, escape and DOWN_PHASE (R286). -/
  dateline : Bool := false
  esc : Bool := false
  down : Bool := false
  bytes : Nat
  hopLimit : Nat := 32
  msg : PktOut
  part : Nat := 0
  deriving DecidableEq, Repr

/-- A packet in a member link's replay buffer (R284), with its LSEQ. -/
structure Replay where
  lseq : Nat
  pkt : TxPkt
  deriving DecidableEq, Repr

/-- A member link (R280, R301). -/
structure Link where
  st : LinkSt := .detect
  lanesOk : Nat := 0
  polarity : Bool := false
  reversed : Bool := false
  version : Nat := 0
  nPort : Nat := 0
  nPos : Nat := 0
  nStepping : Nat := 0
  /-- What DETECT found on each lane (R423): a LANE_DIAG code. -/
  lanes : List Nat := [0, 0, 0, 0]
  nextLseq : Nat := 0
  expectLseq : Nat := 0
  replay : List Replay := []
  /-- Replays without progress. -/
  replays : Nat := 0
  /-- Credits held for the 16 virtual channels, in units of 16 bytes, and for the shared space (R283). -/
  credits : List Nat := List.replicate 16 64
  shared : Nat := 2048
  /-- Packets that wait for credits or replay space, oldest first. -/
  txWait : List TxPkt := []
  deriving DecidableEq, Repr

/-- Member states (R275). -/
inductive Member where
  | absent | joining | serving | spare | dead | barred
  deriving DecidableEq, Repr

def Member.code : Member → Nat
  | .absent => 0 | .joining => 1 | .serving => 2 | .spare => 3 | .dead => 4 | .barred => 5

/-- FAB_ID.ROLE (R302). -/
inductive Role where
  | none | manager | serving | spare | standby | fenced | joining
  deriving DecidableEq, Repr

def Role.code : Role → Nat
  | .none => 0 | .manager => 1 | .serving => 2 | .spare => 3 | .standby => 4 | .fenced => 5 | .joining => 6

/-- A class 1 to 3 message sent and not acknowledged (R287). -/
structure E2eOut where
  dest : Nat
  cls : Nat
  seq : Nat
  resends : Nat := 0
  msg : PktOut
  /-- It has been injected; a route change holds it back (R288). -/
  injected : Bool := true
  /-- An acknowledgement: not itself acknowledged (R282). -/
  plain : Bool := false
  deriving DecidableEq, Repr

/-- Delivery from one source and class (R287): the next SEQ to deliver and the messages held out of order. -/
structure E2eIn where
  src : Nat
  cls : Nat
  next : Nat := 0
  held : List (Nat × Instr) := []
  deriving DecidableEq, Repr

/-- A route change in progress (R288): the generation, who has acknowledged, and whether GO has been flooded. -/
structure RouteWork where
  gen : Nat
  acks : List Nat := []
  deriving DecidableEq, Repr

/-- A forwarding record of the manager's ledger (R324, R362): item and position. -/
structure Forward where
  item : Nat
  pos : Nat
  deriving DecidableEq, Repr

/-- The fabric as this module sees it. -/
structure Fabric where
  role : Role := .none
  epoch : Nat := 0
  prevEpoch : Nat := 0
  /-- Time of the last change of epoch, ns: within EPOCH_GRACE of it the previous epoch is accepted. -/
  epochAt : Nat := 0
  members : List Member := List.replicate 64 .absent
  /-- Position of the manager. -/
  manager : Nat := 0
  standby : Option Nat := none
  sysVer : Nat := 0
  /-- Rejoin attempts refused or failed, by position (R298). -/
  joinFails : List (Nat × Nat) := []
  /-- Time of the last heartbeat of each position, ns, and the BUDGET it carried. -/
  heartbeat : List (Nat × Nat) := []
  budgets : List (Nat × Nat) := []
  /-- Neighbours' reports of bundles LOST: reporting position, direction (R279, R288). -/
  lostReports : List (Nat × Nat) := []
  /-- Positions reported unreachable under R287. -/
  unreachable : List Nat := []
  /-- The sorting office lacks a majority: no admission (R291). -/
  noMajority : Bool := false
  /-- Last 4,096 (SRC, SEQ) pairs flooded, newest first (R282). -/
  flood : List (Nat × Nat) := []
  floodSeq : Nat := 0
  /-- Next SEQ of each destination and class, keyed `dest * 4 + class`. -/
  nextSeq : List (Nat × Nat) := []
  sent : List E2eOut := []
  inbound : List E2eIn := []
  routes : List (BitVec 12) := List.replicate 64 0b111_111_0_00_111
  routeGen : Nat := 0
  work : Option RouteWork := none
  /-- Injection of class 1 to 3 packets is stopped (R288 step 2). -/
  stopped : Bool := false
  /-- Packets waiting where their next bundle is SUB_MIN or DOWN, by direction, oldest first (R286, R288). -/
  waiting : List (Nat × TxPkt) := []
  /-- Bundle states as reported: reporting position, direction, state (R279, R288). -/
  bundles : List (Nat × Nat × Nat) := []
  /-- Positions that announced a module reset (R291). -/
  leaving : List Nat := []
  /-- Time parent's direction and depth in the tree, and its measured link delay (R289). -/
  depth : Nat := 0
  timePath : Bool := false
  forwards : List Forward := []
  /-- Sources of which STALE_PACKET was recorded in this round (R290). -/
  staleNoted : List Nat := []
  cmdBusy : Bool := false
  cmdResult : Nat := 0
  deriving DecidableEq, Repr

/-- A PBP session (R320, R321). -/
structure Session where
  num : Nat
  version : Nat
  lastHeard : Nat := 0
  /-- Highest SEQ up to which every request was answered, those answered beyond it, and the last 64 responses by SEQ,
  newest first. -/
  highSeq : Nat := 0
  ahead : List Nat := []
  store : List (Nat × Nat × List Byte) := []
  /-- Session whose rings it resumed (R325). -/
  resumed : Option Nat := none
  deriving DecidableEq, Repr

/-- A RoCEv2 connection (R306). -/
structure Conn where
  num : Nat
  session : Nat
  box : Nat
  key : Nat
  role : Nat
  mtu : Nat
  /-- The host's QP number and PSN, and the module's, as CONNECT exchanged them. -/
  hostQp : Nat := 0
  hostPsn : Nat := 0
  qp : Nat := 0
  psn : Nat := 0
  /-- CNPs that have reduced the requester's rate. -/
  reduced : Nat := 0
  deriving DecidableEq, Repr

/-- The host path (R304, R320, R321). -/
structure HostSt where
  speed : Nat := 0
  an : Nat := 0
  pcsLock : Bool := false
  sessions : List Session := []
  nextSession : Nat := 1
  conns : List Conn := []
  nextConn : Nat := 0
  /-- Box whose submission ring is served next among rings of a box: last ring taken by box (R312). -/
  lastRing : List (Nat × Nat) := []
  /-- The module took over from a dead manager (R294): RESUME is accepted (R325). -/
  tookOver : Bool := false
  /-- CODEBOOK and TIER requests whose command waits, as session and SEQ: answered when it ends (R335). -/
  cbReply : Option (Nat × Nat) := none
  tierReply : Option (Nat × Nat) := none
  deriving DecidableEq, Repr

end Sys2Proof.Machine
end

