-- ==== Sys2Proof/Machine/StItem.lean ====
section
/-! DEFINITION. State of items and boxes: ledger entries (R362, R363) with the progress of their stream entries (R19,
R22), rings (R309 to R316), box pages (R265 to R269) and box memory's tables (R192, R222). -/

namespace Sys2Proof.Machine

/-- States of a ledger entry (R362). -/
inductive ItemSt where
  | admitted | started | resolved | posted
  deriving DecidableEq, Repr

/-- Dispositions (R22, R365). -/
inductive Disp where
  | done (drift : Bool)
  | failed (f : Fail)
  deriving DecidableEq, Repr

/-- Where a stream entry of an item stands. -/
inductive EntrySt where
  /-- Waiting to be checked or for a residency move, an arena slot or pages. -/
  | waiting
  /-- Its kernel list runs. -/
  | running
  /-- Its last kernel has ended; its commit is next. -/
  | ready
  | committed
  | paused
  | failed (f : Fail)
  deriving DecidableEq, Repr

/-- One stream-list entry of an item (R19), or the one kernel-list run of an item without streams. -/
structure Entry where
  stream : Nat := 0
  /-- LINEAGE, EXPECTED_STEP and RESET_STATE as listed. -/
  lineage : Nat := 0xFFFF
  expStep : Nat := 0
  resetVa : Nat := 0
  record : Bool := false
  historyClear : Bool := false
  endAfter : Bool := false
  pause : Bool := false
  reset : Bool := false
  st : EntrySt := .waiting
  /-- The entry has passed its checks of R20 and has begun. -/
  begun : Bool := false
  /-- Position in the kernel list. -/
  pos : Nat := 0
  /-- Instances of the list entry at `pos` that are placed, and that have ended. -/
  placed : Nat := 0
  ended : Nat := 0
  /-- Instances taken off a queue and to be placed again (R373, R409). -/
  again : List Nat := []
  /-- Working rounding generator of the entry's step (R131, R132). -/
  gen : W32 := 1
  driftSum : W32 := 0
  driftCount : Nat := 0
  /-- A state RMS left the band at this step (R146). -/
  drift : Bool := false
  /-- PARK: the stream was pinned and not moved (R23). -/
  pinned : Bool := false
  /-- STEP_COUNT and FAULTED as they stand after the entry, for its report (R23). -/
  after : Option (Nat × Bool) := none
  /-- Step that a BACKWARD entry runs (R36). -/
  step : Nat := 0
  /-- Core on which the entry's last instance ran. -/
  core : Option Nat := none
  deriving DecidableEq, Repr

/-- A ledger entry (R362). -/
structure Item where
  id : Nat
  tag : W64
  box : Nat
  ring : Nat
  count : Nat
  /-- KIND code; 0xFF where the descriptor could not be read. -/
  kind : Nat
  desc : BitVec 1024 := 0
  state : ItemSt := .admitted
  /-- Component that holds it, by ID (R342); 0xFF: hardware. -/
  holder : Nat := 0xFF
  /-- Position of the module that runs it (R324, R362). -/
  pos : Nat := 0
  coreMask : List Nat := []
  /-- Group index of the items that name one; the stream number's index. -/
  group : Option Nat := none
  entries : List Entry := []
  /-- Loaded kernel list of a KERNEL item, or of a BACKWARD or STEP as copied at admission (R115). -/
  list : List KEntry := []
  /-- Item tensors as read at admission. -/
  tensors : List (Option TensorDesc) := []
  /-- Streams listed by the item (identifiers), and the second list of a CULL. -/
  streams : List Nat := []
  sources : List Nat := []
  /-- Addresses of the report area and the cull-record area (R23, R34). -/
  reportVa : Nat := 0
  cullVa : Nat := 0
  /-- Deadline in ns of t, where the item has one (R246, R255). -/
  deadline : Option Nat := none
  soft : Bool := false
  late : Bool := false
  collect : Bool := false
  /-- The stream operation has taken effect or failed (FORK, CULL, END, CLOSE_GROUP, PARK, RECALL, SYNC), and a
  STEP's boundary cull has run. -/
  opEnd : Bool := false
  opFail : Option Fail := none
  culled : Bool := false
  /-- The item-wide failure that decides, once it has come (R363). -/
  wide : Option Fail := none
  disp : Option Disp := none
  dispRound : Nat := 0
  dispPhase : Nat := 0
  /-- Held for a collection or for mirrors not acknowledged (R142, R255). -/
  heldCollection : Bool := false
  mirrorWait : List Nat := []
  /-- The completion was posted at a collection. -/
  postedHeld : Bool := false
  tagLost : Bool := false
  submitValid : Bool := true
  anonymous : Bool := false
  /-- Groups that the item names (R16), and whether one of them has been released since. -/
  groups : List Nat := []
  gone : Bool := false
  /-- Number of the last SYNC of the box that was admitted before the item (R16). -/
  barrier : Option Nat := none
  /-- Charged to QUOTA_ITEMS (R266). -/
  charged : Bool := false
  /-- The item has taken effect: its entries or its operation have begun to be carried out. -/
  took : Bool := false
  deriving DecidableEq, Repr

/-- BOX_STATE (R273). -/
inductive BoxState where
  | disabled | active | draining | quiescing | releasing
  deriving DecidableEq, Repr

def BoxState.code : BoxState → Nat
  | .disabled => 0 | .active => 1 | .draining => 2 | .quiescing => 3 | .releasing => 4

/-- A submission ring in the box's memory (R309, R310). -/
structure SubRing where
  index : Nat
  addr : Nat
  size : Nat
  taken : Nat := 0
  tail : Nat := 0
  deriving DecidableEq, Repr

/-- A completion or dead-letter ring in host memory (R309, R315). -/
structure OutRing where
  addr : Nat
  key : Nat
  size : Nat
  /-- The ring was set up again after a takeover (R309). -/
  again : Bool := false
  deriving DecidableEq, Repr

/-- Counts of a completion or dead-letter ring; they outlive the ring's set-up (R309, R326). -/
structure RingCounts where
  written : Nat := 0
  head : Nat := 0
  /-- Entries posted since the last notice, and the time of that notice. -/
  posted : Nat := 0
  lastNotice : Option Nat := none
  /-- Time at which an entry was found to wait for a slot (R315). -/
  fullSince : Option Nat := none
  deriving DecidableEq, Repr

/-- An entry to post: the ledger entry it frees, and its bytes as a number without PHASE (R313, R314). -/
structure PostEntry where
  item : Option Nat
  body : Nat
  deriving DecidableEq, Repr

/-- A coded-region record (R192). -/
structure Region where
  base : Nat
  env : Nat
  size : Nat
  slot : Nat
  alphabet : Nat
  thresh : Nat
  deriving DecidableEq, Repr

/-- A box (R265 to R269). -/
structure BoxSt where
  state : BoxState := .disabled
  /-- PBP session that enabled it. -/
  session : Option Nat := none
  /-- Time at which DISABLE was accepted, and the drain limit has passed. -/
  disabledAt : Nat := 0
  drainOver : Bool := false
  /-- Step of R268 that has been recorded. -/
  step : Nat := 0
  subs : List SubRing := []
  cq : Option OutRing := none
  dlq : Option OutRing := none
  cqN : RingCounts := {}
  dlqN : RingCounts := {}
  cqWait : List PostEntry := []
  dlqWait : List PostEntry := []
  /-- Entries written and not yet acknowledged, oldest first. -/
  cqSent : List PostEntry := []
  dlqSent : List PostEntry := []
  /-- Second-level page-table entries by box virtual page number (R222). -/
  pt : List (Nat × W64) := []
  /-- Second-level tables that MAP has needed, by bits [47:35] of the addresses they cover (R221, R222). -/
  tables : List Nat := []
  regions : List Region := []
  /-- AES-256-XTS key (R241, R357), the key under which protected units stand, and the seed of the others. -/
  key : Option (BitVec 512) := none
  protKey : Option (BitVec 512) := none
  protSeed : Nat := 0
  /-- Core cycles used this round (R257). -/
  cyclesUsed : Nat := 0
  /-- Number of the last SYNC admitted (R16). -/
  lastSync : Option Nat := none
  deriving DecidableEq, Repr

end Sys2Proof.Machine
end

