-- ==== Sys2Proof/Machine/StMem.lean ====
section
/-! DEFINITION. State of memory: contents by device address (R221), channels and evacuation (R230 to R233), the flash
tier (R234 to R240), token buckets (R229) and codebook slots (R198 to R203). -/

namespace Sys2Proof.Machine

/-- An HBM stack (R230, R231, R243). -/
structure Stack where
  temp : Nat := 0
  level : Nat := 0
  mappedOut : List Nat := []
  /-- Channels marked whose evacuation goes on: still in the hash (R232). -/
  leaving : List Nat := []
  /-- Corrected and uncorrectable errors of each channel in this round (R231). -/
  ce : List (Nat × Nat) := []
  ue : List (Nat × Nat) := []
  deriving DecidableEq, Repr

/-- One live entry of a redirect table: device page, and the page that holds its data (R232). -/
structure Redirect where
  page : Nat
  target : Nat
  deriving DecidableEq, Repr

/-- What device pages are held for (R221): the device from module start, a box's device memory, a box's page table. -/
inductive PageUse where
  | device
  | box (b : Nat)
  | table (b : Nat)
  deriving DecidableEq, Repr

/-- A range of device pages that the device holds: first page and count (R221). -/
structure HeldPages where
  use : PageUse
  first : Nat
  count : Nat
  deriving DecidableEq, Repr

/-- The memory side of a compute die (R229, R232). -/
structure DieMem where
  /-- N_d, the channels the hash uses (R224). -/
  channels : Nat := 48
  evacuating : Bool := false
  /-- Map-outs in progress: channels marked and still in the hash. -/
  pendingOut : Nat := 0
  /-- Pages still to copy, with the target chosen for each. -/
  toMove : List Redirect := []
  redirects : List Redirect := []
  /-- Pages of the range that lie above the new top and are not allocated again (R233). -/
  stopped : Bool := false
  /-- Token buckets by box, in bytes; a box not listed has a full bucket (R229). -/
  tokens : List (Nat × Int) := []
  /-- Time to which each bucket listed has accrued, ns. -/
  tokenAt : List (Nat × Nat) := []
  /-- Requests waiting for tokens: box, bytes, time of arrival. -/
  waiting : List (Nat × Nat × Nat) := []
  /-- Boxes whose waiting request has been admitted and not yet made. -/
  admitted : List Nat := []
  deriving DecidableEq, Repr

/-- States of a granule of flash-homed data (R234); ABSENT granules are not listed. -/
inductive GrSt where
  | filling | clean | dirty | writing
  deriving DecidableEq, Repr

/-- What waits on a granule: a touch, or a write that comes after a write-back (R235). -/
inductive GrWait where
  | touch (box va : Nat)
  /-- A write of bytes at a device address. -/
  | write (da : Nat) (bytes : List Byte)
  deriving DecidableEq, Repr

/-- A granule of 64 KiB that the tier pool holds, numbered `(DA − 0x1000_0000_0000) / 65536`. -/
structure Granule where
  num : Nat
  st : GrSt
  /-- Pinned, or inserted as least recently used (R237). -/
  pin : Bool := false
  /-- Round in which it became DIRTY (R236). -/
  since : Nat := 0
  /-- Order of use: larger is more recent. -/
  use : Nat := 0
  /-- EVICT or DISCARD drops it once its accesses end (R237). -/
  drop : Bool := false
  waits : List GrWait := []
  deriving DecidableEq, Repr

/-- FLASH_STATE (R240, R245). -/
inductive FlashSt where
  | normal | degraded | readOnly
  deriving DecidableEq, Repr

/-- The flash tier (R234 to R240). -/
structure Tier where
  granules : List Granule := []
  useClock : Nat := 0
  /-- Written-back contents and poison of flash, by device address and granule of 64 bytes. -/
  flash : List Host.Cell := []
  flashPoison : List Nat := []
  state : FlashSt := .normal
  /-- The FTL is restarting: FLASH_STATE reads PAUSED (R340). -/
  paused : Bool := false
  writeHeld : Bool := false
  wearPct : Nat := 0
  /-- Spare blocks per mille of raw, once reported (R240, R245). -/
  spare : Option Nat := none
  /-- Read counts of NAND blocks, blocks to relocate at the next quiet window, retired blocks (R238). -/
  blockReads : List (Nat × Nat) := []
  relocate : List Nat := []
  retired : List Nat := []
  /-- Command that waits while the FTL restarts (R340): OP, box, address, units; and RESULT (R245). -/
  cmd : Option (Nat × Nat × Nat × Nat) := none
  result : Nat := 0
  deriving DecidableEq, Repr

/-- States of a codebook slot (R201). -/
inductive CbSt where
  | empty | owned | ready | replacing
  deriving DecidableEq, Repr

def CbSt.code : CbSt → Nat
  | .empty => 0 | .owned => 1 | .ready => 2 | .replacing => 3

/-- What a REPLACING slot waits to do (R202, R203). -/
inductive CbPend where
  | install (alphabet : Nat) (lengths : List Nat) (tag : Nat)
  | release
  deriving DecidableEq, Repr

/-- A codebook slot (R201). -/
structure CbSlot where
  st : CbSt := .empty
  gen : Nat := 0
  tag : Nat := 0
  owner : Nat := 0
  alphabet : Nat := 0
  lengths : List Nat := List.replicate 256 0
  inflight : Nat := 0
  /-- The slot has been EMPTY since the module started (R202 RESTORE). -/
  fresh : Bool := true
  hist : List Nat := List.replicate 256 0
  histAlphabet : Nat := 0
  pend : Option CbPend := none
  deriving DecidableEq, Repr

/-- The codebook unit (R201, R217). -/
structure CbUnit where
  slots : List CbSlot := List.replicate 64 {}
  /-- Slot whose command waits for in-flight blocks: CB_CMD_STATUS.STATE is WAITING. -/
  waiting : Option Nat := none
  gen : Nat := 0
  result : Nat := 0
  deriving DecidableEq, Repr

end Sys2Proof.Machine
end

