-- ==== Sys2Proof/Machine/StStream.lean ====
section
/-! DEFINITION. State of streams: slots and their headers (R121 to R125), places with their handles (R126), groups
(R28, R127), key-value pages and their tables (R151, R155, R156), tapes (R36) and mirrors (R142). -/

namespace Sys2Proof.Machine

/-- RESIDENCY of a stream handle (R126, R137). -/
inductive Residency where
  | resident | outbound | away | inbound
  deriving DecidableEq, Repr

def Residency.code : Residency → Nat
  | .resident => 0 | .outbound => 1 | .away => 2 | .inbound => 3

/-- MIRROR of a stream handle (R126, R142). -/
inductive MirrorSt where
  | none | inStep | resync | unprotected
  deriving DecidableEq, Repr

def MirrorSt.code : MirrorSt → Nat
  | .none => 0 | .inStep => 1 | .resync => 2 | .unprotected => 3

/-- One copy of a slot (R122): the 64-byte header as a little-endian number, the payload and poison. `hdrBad`: the
header's granule is poisoned. -/
structure Slot where
  hdr : BitVec 512 := 0
  hdrBad : Bool := false
  payload : Store 8 := {}
  /-- Poisoned 64-byte granules of the payload, numbered from offset 0 of the payload. -/
  poison : List Nat := []
  deriving DecidableEq, Repr

/-- A directory entry with its page list (R155, R156). -/
structure LayerDir where
  layer : Nat
  valid : Bool := false
  origin : Nat := 0
  endTok : Nat := 0
  firstPage : Nat := 0
  ringLog2 : Nat := 9
  sig : W32 := 0
  pending : Nat := 0
  /-- DA of the page list: an address the firmware chooses (free value). -/
  listDa : Nat := 0
  /-- Entries of pages FIRST_PAGE onward that are valid, ascending page index. -/
  ptes : List Pte := []
  deriving DecidableEq, Repr

/-- One reserved place with its stream handle (R126). -/
structure Place where
  stream : Nat
  group : Nat
  place : Nat
  live : Bool := false
  lineage : Nat := 0
  faulted : Bool := false
  stepCount : Nat := 0
  lastUse : Nat := 0
  seed : W32 := 0
  pinCount : Nat := 0
  residency : Residency := .resident
  mirror : MirrorSt := .none
  held : Bool := false
  forced : Bool := false
  arenaDa : Nat := 0
  posteDa : Nat := 0
  windowCore : Option Nat := none
  arena : Option Slot := none
  window : Option Slot := none
  poste : Option Slot := none
  /-- Step count at the fork or refill that put the stream in the place (R36). -/
  bornAt : Nat := 0
  /-- Steps of which a tape is kept (R36). -/
  tapes : List Nat := []
  dirs : List LayerDir := []
  /-- Mirror sent and not acknowledged, with the time it was sent (R142). -/
  mirrorSent : Option Nat := none
  /-- Time from which a request waits for the stream to be RESIDENT (R137). -/
  waitAt : Option Nat := none
  deriving DecidableEq, Repr

/-- REFILL of the cull policy (R28). -/
inductive Refill where
  | none | best | ranked
  deriving DecidableEq, Repr

/-- A layer record fixed for a group: its 16 bytes and CRC-32C (R153). -/
structure LayerFix where
  layer : Nat
  record : BitVec 128
  sig : W32
  deriving DecidableEq, Repr

/-- A stream group (R13, R28, R127). -/
structure Group where
  index : Nat
  box : Nat
  home : Nat
  /-- Stream identifiers in place order. -/
  streams : List Nat
  cullCount : Nat := 0
  highBest : Bool := true
  scoreOutput : Nat := 0
  refill : Refill := .none
  driftHi : W32 := 0
  driftLo : W32 := 0
  seed : W32 := 0
  buddy : Nat := 0
  regMode : Nat := 0
  sr : Bool := false
  slotUnits : Nat := 1
  /-- Context frames C of OPEN_GROUP. -/
  frames : Nat := 1
  prefill : List KEntry := []
  step : List KEntry := []
  backward : List KEntry := []
  layers : List LayerFix := []
  prefillDone : Bool := false
  /-- The group block and the state parameter block of OPEN_GROUP, as numbers (R28, R127). -/
  block : Nat := 0
  params : Nat := 0
  /-- Adopted from a lost module (R143): mirrors end there. -/
  adopted : Bool := false
  /-- Registered here for another module, by its position: its places and lists are reserved (R142). -/
  guest : Option Nat := none
  deriving DecidableEq, Repr

/-- A key-value page (R151, R166): a run of the box's pool with its reference count. -/
structure KvPage where
  da : Nat
  box : Nat
  run : Nat
  refs : Nat
  /-- The page is full and has been sent to the buddy (R142). -/
  mirrored : Bool := false
  data : Store 8 := {}
  poison : List Nat := []
  deriving DecidableEq, Repr

/-- The whole mirror held here of a registered stream of another module (R142): the next one replaces it only whole. -/
structure MirrorHeld where
  src : Nat
  stream : Nat
  stepCount : Nat := 0
  lineage : Nat := 0
  gen : Nat := 0
  payload : List Byte := []
  dirs : List MirrorDir := []
  deriving DecidableEq, Repr

/-- A mirrored key-value page held here for another module (R142). -/
structure MirrorPage where
  src : Nat
  key : Nat
  run : Nat
  data : List Byte
  deriving DecidableEq, Repr

end Sys2Proof.Machine
end

