-- ==== Sys2Proof/Machine/StSys.lean ====
section
/-! DEFINITION. State of the hub's services: time (R251 to R256), the recorder (R386 to R395), firmware (R329 to R347),
security (R348 to R361), power and supply (R401 to R417), patterns, TAP and debug (R418 to R431), the management
sideband (R453 to R455), pins (R448, R449) and what the module sends out. -/

namespace Sys2Proof.Machine

/-- TIME_STATUS.STATE (R252). -/
inductive TimeSt where
  | unsync | locked | holdover | freerun
  deriving DecidableEq, Repr

def TimeSt.code : TimeSt → Nat
  | .unsync => 0 | .locked => 1 | .holdover => 2 | .freerun => 3

/-- The time unit (R251 to R256). -/
structure TimeUnit where
  /-- t, the estimate of PTP time in ns. -/
  t : Nat := 0
  st : TimeSt := .unsync
  /-- A usable PTP message has set t (R252). -/
  heard : Bool := false
  rounds : Bool := false
  round : Nat := 0
  /-- Sync intervals in a row with an offset within ±1 µs, up to 16 (R252). -/
  good : Nat := 0
  /-- Slew still to apply, ns (R253). -/
  slew : Int := 0
  backwardHeld : Bool := false
  offset : Int := 0
  /-- Copies of the declarations that this round uses (R254): phases of collections, and quiet windows. -/
  collections : List (Option Nat) := List.replicate 16 none
  quiet : List (Option (Nat × Nat)) := List.replicate 4 none
  /-- Collections written since the last boundary, and whether a quiet window was (R254). -/
  collWritten : List Nat := []
  quietWritten : Bool := false
  /-- Open quiet window. -/
  window : Option Nat := none
  /-- Core chosen for the next slice (R378), and the core after which the cadence goes on. -/
  sliceCore : Option Nat := none
  nextSlice : Nat := 0
  /-- Time at which the state was entered: HOLDOVER_LIMIT counts from there. -/
  stAt : Nat := 0
  deriving DecidableEq, Repr

/-- Severities (R387). -/
inductive Sev where
  | info | notice | warning | error
  deriving DecidableEq, Repr

def Sev.code : Sev → Nat
  | .info => 0 | .notice => 1 | .warning => 2 | .error => 3

/-- An event record (R387); the recorder fills POSTMARK, EPOCH and POS_ID on acceptance. -/
structure Record where
  postmark : Nat := 0
  code : Nat
  sev : Sev
  srcType : Nat
  unit : Nat := 0
  box : Option Nat := none
  tag : Option W64 := none
  a : Nat := 0
  b : Nat := 0
  c : Nat := 0
  d : Nat := 0
  epoch : Nat := 0
  pos : Nat := 0
  deriving DecidableEq, Repr

/-- A failure signature in the store (R380, R381, R383). -/
structure Signature where
  postmark : Nat
  bytes : List Byte
  deriving DecidableEq, Repr

/-- The recorder (R386 to R395) and the signature store (R383). -/
structure Recorder where
  /-- Records delivered and not accepted, oldest first; the first 256 are the input queue, the others' sources wait. -/
  queue : List Record := []
  /-- Records of the ring, newest first, at most 1,048,576. -/
  ring : List Record := []
  next : Nat := 0
  /-- Reservation of the mirror's last write: no postmark at or above it is assigned (R390, R393). -/
  reserve : Nat := 0
  /-- Whether a mirror exists. -/
  hasMirror : Bool := false
  mirror : List Record := []
  /-- First postmark that the mirror does not hold yet. -/
  mirrorNext : Nat := 0
  closed : Bool := false
  /-- LOG_STATUS.MIRROR_CLOSED: the mirror was closed at the last start. -/
  wasClosed : Bool := false
  behind : Bool := false
  held : Bool := false
  accepting : Bool := true
  /-- INFO and NOTICE records written in this round, and suppressed (R389). -/
  minor : Nat := 0
  suppressed : Nat := 0
  window : List (Option Record) := List.replicate 16 none
  sigs : List (Option Signature) := List.replicate 64 none
  nextSig : Nat := 0
  sigCopy : List Byte := []
  sigCopyPm : Nat := 0
  deriving DecidableEq, Repr

/-- FW_STATE.STATE (R347). -/
inductive FwSt where
  | noFirmware | loading | starting | running | escalating
  deriving DecidableEq, Repr

def FwSt.code : FwSt → Nat
  | .noFirmware => 0 | .loading => 1 | .starting => 2 | .running => 3 | .escalating => 4

/-- FW_COMP_k.STATE (R347). -/
inductive CompSt where
  | absent | starting | running | restarting | halted
  deriving DecidableEq, Repr

def CompSt.code : CompSt → Nat
  | .absent => 0 | .starting => 1 | .running => 2 | .restarting => 3 | .halted => 4

/-- A verified image in the retained image store (R334, R352). -/
structure Image where
  bytes : List Byte
  svn : Nat
  ifVersion : Nat
  digest : BitVec 256
  deriving DecidableEq, Repr

/-- A component (R329 to R344). -/
structure Comp where
  st : CompSt := .absent
  restarts : Nat := 0
  lastCause : Nat := 0
  /-- Its code has been copied and its processors started (R341 step 4). -/
  loaded : Bool := false
  armed : Bool := false
  armedCause : Nat := 0
  image : Option Image := none
  mailbox : List (Nat × List Byte) := []
  /-- Message being handled at a fault: delivered again with REDELIVERED (R342). -/
  handling : Option (Nat × List Byte) := none
  redelivered : Bool := false
  /-- Items it holds whose outcome its journal records (R342). -/
  journal : List Nat := []
  deriving DecidableEq, Repr

/-- An image being received (R334). -/
structure Loading where
  comp : Nat
  size : Nat
  data : Store 8 := {}
  got : List (Nat × Nat) := []
  deriving DecidableEq, Repr

/-- Tasks of SUPERVISOR by class (R337). -/
structure Task where
  cls : Nat
  what : Nat
  arg : Nat := 0
  deriving DecidableEq, Repr

/-- Firmware (R329 to R347). -/
structure Firmware where
  st : FwSt := .noFirmware
  comps : List Comp := List.replicate 6 {}
  loading : Option Loading := none
  /-- The boot ROM has run (R348) and the hub registers are ready (R454). -/
  booted : Bool := false
  tasks : List Task := []
  /-- FW_FAULT_LAST and FW_FAULT_PC (R347). -/
  faultComp : Nat := 0
  faultCause : Nat := 0
  faultProc : Nat := 0
  faultPc : W64 := 0
  /-- A SUPERVISOR restart set gang mode: SERVICE at the next boundary after RUNNING (R341 step 6). -/
  gangReturn : Bool := false
  /-- Gang mode at module start has not ended yet (R264, R439). -/
  gangStart : Bool := true
  /-- Some access was answered RETRY_LATER in this round (R338). -/
  retryLater : Bool := false
  /-- Telemetry ran in this round (R337). -/
  telemetry : Bool := false
  mgmtSat : Bool := false
  deriving DecidableEq, Repr

/-- A measurement (R354). -/
structure Measure where
  digest : BitVec 256
  type : Nat
  comp : Nat := 0
  svn : Nat := 0
  deriving DecidableEq, Repr

/-- The field record (R350). -/
structure FieldRecord where
  seq : Nat := 0
  floors : List Nat := List.replicate 6 0
  /-- Retired pigeonholes by core, as masks of nine bits. -/
  retired : List (Nat × Nat) := []
  /-- Channels mapped out, `16 * stack + channel`. -/
  mapouts : List Nat := []
  deriving DecidableEq, Repr

/-- Verdict of a boot check: pending, good, bad (R361). -/
inductive Verdict where
  | pending | good | bad
  deriving DecidableEq, Repr

def Verdict.code : Verdict → Nat
  | .pending => 0 | .good => 1 | .bad => 2

/-- Result of the last token (R427). -/
inductive TokenRes where
  | accepted | refused | checking | none
  deriving DecidableEq, Repr

/-- The security block (R348 to R361). -/
structure Security where
  passport : Verdict := .pending
  identity : Verdict := .pending
  log : List Measure := []
  logFull : Bool := false
  debugSeen : Bool := false
  floors : List Nat := List.replicate 6 0
  /-- The two copies of the field record; none where a copy is not valid. -/
  field : List (Option FieldRecord) := [none, none]
  /-- Retirements and map-outs as they are to be recorded. -/
  retired : List (Nat × Nat) := []
  mapouts : List Nat := []
  nonce : W64 := 0
  scope : Nat := 0
  /-- Seconds of LIFETIME left, and the LIFETIME accepted. -/
  remaining : Nat := 0
  keyData : List W32 := List.replicate 16 0
  keyResult : Nat := 0
  tokenRes : TokenRes := .none
  tokenBytes : List Byte := []
  deriving DecidableEq, Repr

/-- A grant, or a request for one (R403): core, stamps, and whether it is a slice's. -/
structure Grant where
  core : Nat
  stamps : Nat
  slice : Bool := false
  /-- Revoked and not yet returned (R405). -/
  revoked : Bool := false
  deriving DecidableEq, Repr

/-- RAIL_k (R417). -/
inductive Rail where
  | off | ok | warning | reset | short | held
  deriving DecidableEq, Repr

def Rail.code : Rail → Nat
  | .off => 0 | .ok => 1 | .warning => 2 | .reset => 3 | .short => 4 | .held => 5

/-- A core rail (R407 to R410). -/
structure RailSt where
  st : Rail := .ok
  now : Nat := 0
  lowest : Nat := 0
  /-- The present warning has lasted 1 ms and set a cut (R408). -/
  long : Bool := false
  /-- Times of the die's supply resets, newest first (R409). -/
  resets : List Nat := []
  deriving DecidableEq, Repr

/-- Franking, supply and thermal state (R401 to R413). -/
structure Power where
  budget : Nat := 9600
  /-- Latest first. -/
  grants : List Grant := []
  /-- Oldest first. -/
  queue : List Grant := []
  dipCut : Bool := false
  /-- A long dip has set a cut for the next round (R408). -/
  dipNext : Bool := false
  /-- Thermal factor in tenths (R412), and the inlet's cap. -/
  factor : Nat := 10
  inletCap : Bool := false
  throttling : Bool := false
  inputWarning : Bool := false
  overvoltage : Bool := false
  inputMv : Nat := 0
  openSensors : List Nat := []
  hottest : Nat := 0
  inlet : Nat := 0
  outlet : Nat := 0
  rails : List RailSt := List.replicate 4 {}
  regulators : Bool := true
  reversedInput : Bool := false
  /-- The sorting office's need of each module as it computed it (R406 step 1). -/
  decreasing : List (Nat × Nat) := []
  /-- An HBM stack is above 110 °C, or a die or hub sensor at THROTTLE or more (R412). -/
  hot : Bool := false
  /-- HUB_RESET_CAUSE (R443). -/
  cause : Nat := 0
  /-- Links DOWN of each die: bit k (R444). -/
  d2d : List Nat := [0, 0, 0, 0]
  deriving DecidableEq, Repr

/-- A lane's checker (R420). -/
structure Checker where
  locked : Bool := false
  inverted : Bool := false
  lost : Bool := false
  bits : Nat := 0
  errors : Nat := 0
  /-- Lane fault of training (R423). -/
  diag : Nat := 0
  deriving DecidableEq, Repr

/-- Instructions of the TAP that select a data register (R424). -/
inductive TapIr where
  | extest | idcode | sample | nonce | token | dtmcs | dmi | scan | lbist | mbist | bypass
  deriving DecidableEq, Repr

/-- A hart as the debug module keeps it (R428). -/
structure Hart where
  num : Nat
  /-- The debugger has halted it, and has not resumed it or acknowledged a reset since. -/
  halted : Bool := false
  /-- What a clerk did when it was halted. -/
  was : ClerkSt := .running
  /-- Debug and trigger registers, by register number, those of trigger `k` at `65536 * k + number`; and the registers of a
  firmware processor's hart. -/
  regs : List (Nat × W64) := []
  deriving DecidableEq, Repr

/-- TAP and debug module (R424 to R429), pattern checkers (R418 to R420). -/
structure TestSt where
  /-- Checkers of 24 links × 4 lanes, then of the host port's 8 lanes. -/
  checkers : List Checker := List.replicate 104 {}
  ir : TapIr := .idcode
  /-- What the selected data register holds after its last Capture-DR. -/
  dr : Nat := 0
  /-- The last DMI operation failed: dmistat 2 (R427). -/
  dmiFailed : Bool := false
  /-- Registers of the debug module, by address. -/
  dm : List (Nat × W32) := []
  /-- Harts of which the debug module keeps something; every other hart runs untouched. -/
  harts : List Hart := []
  deriving DecidableEq, Repr

/-- The management sideband (R453 to R455). -/
structure Sideband where
  addr : Option Nat := none
  events : Bool := false
  /-- The result held for a private read: STATUS and value (R454). -/
  result : Option (Nat × W32) := none
  /-- Outstanding interrupt codes MANAGER_CONFLICT and POSITION_RANGE (R455). -/
  mgrConflict : Bool := false
  posRange : Bool := false
  hotJoined : Bool := false
  deriving DecidableEq, Repr

/-- Straps and pins of J2 (R448, R449). -/
structure Pins where
  mgrSel : Bool := false
  posId : BitVec 6 := 0
  pwrEn : Bool := true
  /-- Straps as read when the regulators started. -/
  strapMgr : Bool := false
  strapPos : Nat := 0
  deriving DecidableEq, Repr

/-- What the module sends to the outside. -/
inductive Out where
  /-- A PBP response: session, SEQ, STATUS and payload (R317 to R319). -/
  | pbp (session seq status : Nat) (payload : List Byte)
  /-- An entry written to a completion or dead-letter ring's slot. -/
  | entry (box : Nat) (dead : Bool) (slot : Nat) (bytes : List Byte)
  | notice (box : Nat) (dead : Bool) (imm : Nat)
  /-- RoCEv2 answers: acknowledgement, data read, negative acknowledgement (0 invalid request, 1 remote access error, 2 remote operation error). -/
  | roceAck (conn : Nat)
  | roceData (conn : Nat) (data : List Byte)
  | roceNak (conn kind : Nat)
  /-- A message to a position on class `cls` with its SEQ (R287); a flooded one with its flood SEQ (R282). -/
  | routed (dest cls seq : Nat) (msg : PktOut)
  | flood (seq : Nat) (msg : PktOut)
  /-- A packet leaves on a port with its LSEQ (R281); one-hop control traffic. -/
  | hop (port lseq : Nat) (pkt : TxPkt)
  | ctrl (port : Nat) (msg : PktOut)
  | sideband (bytes : List Byte)
  | inBand (code : Nat)
  | nacked
  | tap (value width : Nat)
  | sbus (error : Nat) (data : W64)
  /-- Old value of an atomic operation, and whether it is poisoned (R227). -/
  | atomic (old : W64) (poisoned : Bool)
  | hotJoin
  /-- One bit inverted on each generator lane of the mask, on a LINK page, or page 24 for the host port (R431). -/
  | inject (page mask : Nat)
  deriving DecidableEq, Repr

/-- Live and latched counters, by `page base + 8 * number`, and the high words latched by a read of the low ones
(R397, R436). -/
structure Counters where
  live : List (Nat × W64) := []
  latched : List (Nat × W64) := []
  high : List (Nat × W32) := []
  latchRound : Option Nat := none
  latchedOnce : Bool := false
  deriving DecidableEq, Repr

end Sys2Proof.Machine
end

