-- ==== Sys2Proof/Machine/State.lean ====
section
/-! DEFINITION. The machine's state, its stops, and the state right after reset. -/

namespace Sys2Proof.Machine

/-- Faults of the block. No command of the spec stops the block: every failure of the spec is an effect on its state
(an item's disposition, a flagged access, a record), so this type has the one constructor below. -/
inductive Fault where
  /-- Raised by no command: safe. -/
  | none
  deriving DecidableEq, Repr

/-- Refusals of the model. -/
inductive Refusal where
  /-- Raised by an arm of `exec` whose command has no meaning here yet: safe. -/
  | notModelled (mnemonic : String)
  deriving DecidableEq, Repr

/-- The module. -/
structure State where
  /-- Commands waiting, first in first out. -/
  pending : List Instr := []
  /-- What has been sent out, newest first. -/
  outbox : List Out := []
  /-- Number of the next free value (log 1); the model's own. -/
  freeCount : Nat := 0
  stepping : Config.Stepping := .B0
  order : Config.OrderCode := .t32
  pins : Pins := {}
  time : TimeUnit := {}
  /-- Registers written since reset, by address; every other one holds its reset word. -/
  regs : List (Nat × W32) := []
  ctr : Counters := {}
  cores : List Core := List.replicate 68 {}
  places : List Place := []
  groups : List Group := []
  pages : List KvPage := []
  mirrors : List MirrorHeld := []
  mirrorPages : List MirrorPage := []
  /-- Streams waiting for an arena slot, and requests waiting for pool pages, oldest first (R139, R167). -/
  arenaWait : List (Nat × Nat) := []
  poolWait : List (Nat × Nat × Nat) := []
  items : List Item := []
  nextItem : Nat := 0
  /-- Item that gang mode runs (R264). -/
  gang : Option Nat := none
  boxes : List BoxSt := List.replicate 64 {}
  /-- Bytes of memory by device address, in canonical form. -/
  mem : List Host.Cell := []
  /-- Poisoned granules of 64 bytes, by device address ÷ 64. -/
  memPoison : List Nat := []
  /-- Data units of 256 bytes of protected pages that stand under their box's key, by device address ÷ 256 (R241). -/
  protUnits : List Nat := []
  hbm : List Stack := List.replicate 12 {}
  dies : List DieMem := List.replicate 4 {}
  /-- Device pages held (R221). -/
  held : List HeldPages := []
  tier : Tier := {}
  cb : CbUnit := {}
  fab : Fabric := {}
  links : List Link := List.replicate 24 {}
  host : HostSt := {}
  log : Recorder := {}
  fw : Firmware := {}
  sec : Security := {}
  pwr : Power := {}
  test : TestSt := {}
  side : Sideband := {}
  deriving DecidableEq, Repr

/-- The module right after reset: every field at the value the spec gives, or that the log names (INVENTORY.md). -/
def State.reset : State := {}

end Sys2Proof.Machine
end

