-- ==== Sys2Proof/Machine/Ops.lean ====
section
/-! DEFINITION. The named operations every family uses: free values, registers and counters (R397, R432 to R437),
records (R386), indexed access to cores, items, boxes, places and groups, byte-order and CRC helpers (R5). -/

namespace Sys2Proof.Machine

/-! ### Outcomes -/

/-- Every command's meaning ends in a next state. -/
abbrev Ans := Host.Outcome State Fault Refusal

/-- The state itself where a condition fails: a command whose precondition is unmet changes nothing (log 2). -/
def State.when (s : State) (c : Bool) (t : State) : State := if c then t else s

/-! ### Free values and outputs -/

/-- Number of the next free value, and the state after the draw (log 1). -/
def State.draw (s : State) : Nat × State := (s.freeCount, { s with freeCount := s.freeCount + 1 })

def State.emit (s : State) (o : Out) : State := { s with outbox := o :: s.outbox }

/-! ### CRC-32C (R5) -/

/-- One bit of the reflected CRC-32C register. -/
def crcBit (c : W32) : W32 := if c.getLsbD 0 then (c >>> 1) ^^^ 0x82F6_3B78 else c >>> 1

def crcByte (c : W32) (b : Byte) : W32 :=
  let c := c ^^^ b.setWidth 32
  crcBit (crcBit (crcBit (crcBit (crcBit (crcBit (crcBit (crcBit c)))))))

/-- CRC-32C of a byte string. -/
def crc32c (bs : List Byte) : W32 := (bs.foldl crcByte 0xFFFF_FFFF) ^^^ 0xFFFF_FFFF

/-! ### Registers -/

/-- The word a register holds: what was last written, else its reset word. -/
def State.reg (s : State) (a : Nat) : W32 := cellGet (regReset a) s.regs a

def State.setReg (s : State) (a : Nat) (v : W32) : State := { s with regs := cellSet (regReset a) s.regs a v }

/-- Address of register `off` of page `p`, index `i`. -/
def regAddr (p : Pg) (i off : Nat) : Nat := p.base i + off

def State.regN (s : State) (p : Pg) (i off : Nat) : Nat := (s.reg (regAddr p i off)).toNat

/-- Bits `[hi:lo]` of a register. -/
def State.field (s : State) (p : Pg) (i off hi lo : Nat) : Nat := bits (s.regN p i off) hi lo

/-- Bits `[hi:lo]` of a register set to `v`. -/
def State.setField (s : State) (p : Pg) (i off hi lo v : Nat) : State :=
  s.setReg (regAddr p i off) (BitVec.ofNat 32 (setBits (s.regN p i off) hi lo v))

/-- Bits of a mask set in a register. -/
def State.orReg (s : State) (p : Pg) (i off mask : Nat) : State :=
  s.setReg (regAddr p i off) (s.reg (regAddr p i off) ||| BitVec.ofNat 32 mask)

/-! ### Counters (R397, R436) -/

def satAdd (v : W64) (n : Nat) : W64 := BitVec.ofNat 64 (min (v.toNat + n) (2 ^ 64 - 1))

/-- Key of counter `n` of a page. -/
def ctrKey (p : Pg) (i n : Nat) : Nat := p.base i + 8 * n

/-- CTRL.FREEZE of a page. -/
def State.frozen (s : State) (p : Pg) (i : Nat) : Bool := bit (s.regN p i Reg.ctrl) 0

def State.live (s : State) (p : Pg) (i n : Nat) : W64 := cellGet 0 s.ctr.live (ctrKey p i n)

/-- Counter `n` of a page advances by `k`, saturating; it stands still while the page is frozen. -/
def State.bump (s : State) (p : Pg) (i n k : Nat) : State :=
  if k = 0 ∨ s.frozen p i then s
  else { s with ctr := { s.ctr with live := cellSet 0 s.ctr.live (ctrKey p i n) (satAdd (s.live p i n) k) } }

/-- A counter that keeps a peak. -/
def State.peak (s : State) (p : Pg) (i n v : Nat) : State :=
  if v ≤ (s.live p i n).toNat ∨ s.frozen p i then s
  else { s with ctr := { s.ctr with live := cellSet 0 s.ctr.live (ctrKey p i n) (BitVec.ofNat 64 v) } }

/-! ### Records (R386) -/

/-- Deliver a record to the recorder: it joins the queue, its source waiting past 256 (R386). -/
def State.event (s : State) (r : Record) : State := { s with log := { s.log with queue := s.log.queue ++ [r] } }

/-! ### Indexed parts -/

def State.core (s : State) (c : Nat) : Core := s.cores.getD c {}
def State.setCore (s : State) (c : Nat) (k : Core) : State := { s with cores := s.cores.set c k }
def State.modCore (s : State) (c : Nat) (f : Core → Core) : State := { s with cores := listModify f s.cores c }
def State.box (s : State) (b : Nat) : BoxSt := s.boxes.getD b {}
def State.modBox (s : State) (b : Nat) (f : BoxSt → BoxSt) : State := { s with boxes := listModify f s.boxes b }
def State.link (s : State) (n : Nat) : Link := s.links.getD n {}
def State.modLink (s : State) (n : Nat) (f : Link → Link) : State := { s with links := listModify f s.links n }
def State.die (s : State) (d : Nat) : DieMem := s.dies.getD d {}
def State.modDie (s : State) (d : Nat) (f : DieMem → DieMem) : State := { s with dies := listModify f s.dies d }
def State.stack (s : State) (n : Nat) : Stack := s.hbm.getD n {}
def State.modStack (s : State) (n : Nat) (f : Stack → Stack) : State := { s with hbm := listModify f s.hbm n }
def State.slot (s : State) (n : Nat) : CbSlot := s.cb.slots.getD n {}
def State.modSlot (s : State) (n : Nat) (f : CbSlot → CbSlot) : State :=
  { s with cb := { s.cb with slots := listModify f s.cb.slots n } }
def State.comp (s : State) (k : Nat) : Comp := s.fw.comps.getD k {}
def State.modComp (s : State) (k : Nat) (f : Comp → Comp) : State :=
  { s with fw := { s.fw with comps := listModify f s.fw.comps k } }
def State.rail (s : State) (d : Nat) : RailSt := s.pwr.rails.getD d {}
def State.modRail (s : State) (d : Nat) (f : RailSt → RailSt) : State :=
  { s with pwr := { s.pwr with rails := listModify f s.pwr.rails d } }

def State.item? (s : State) (id : Nat) : Option Item := s.items.find? (fun i => i.id == id)
def State.modItem (s : State) (id : Nat) (f : Item → Item) : State :=
  { s with items := s.items.map (fun i => if i.id = id then f i else i) }
def Item.entry (i : Item) (k : Nat) : Entry := i.entries.getD k {}
def Item.modEntry (i : Item) (k : Nat) (f : Entry → Entry) : Item := { i with entries := listModify f i.entries k }
def State.modEntry (s : State) (id k : Nat) (f : Entry → Entry) : State := s.modItem id (fun i => i.modEntry k f)

/-- The place of a stream identifier (R15). -/
def State.place? (s : State) (stream : Nat) : Option Place := s.places.find? (fun p => p.stream == stream)
def State.modPlace (s : State) (stream : Nat) (f : Place → Place) : State :=
  { s with places := s.places.map (fun p => if p.stream = stream then f p else p) }
def State.group? (s : State) (g : Nat) : Option Group := s.groups.find? (fun x => x.index == g)
def State.modGroup (s : State) (g : Nat) (f : Group → Group) : State :=
  { s with groups := s.groups.map (fun x => if x.index = g then f x else x) }

/-- Position of this module: its strap (R274). -/
def State.pos (s : State) : Nat := s.pins.strapPos

/-- Die of a physical core (R442). -/
def coreDie (c : Nat) : Nat := c / 17

/-- Physical core of logical core `l`, in CORE_MAP (R442); none where it is unmapped. -/
def State.physical (s : State) (l : Nat) : Option Nat :=
  let p := s.field .hub 0 (Reg.hub_coreMap + 4 * (l / 4)) (8 * (l % 4) + 7) (8 * (l % 4))
  if p < 68 then some p else none

/-- Logical number of a physical core; none for a spare (R442). -/
def State.logical (s : State) (c : Nat) : Option Nat := (List.range 64).find? (fun l => s.physical l == some c)

/-- Current phase of the round, ns (R251). -/
def State.roundLen (s : State) : Nat := 1000 * min (max (s.regN .time 0 Reg.time_roundLen) 1000) 1000000

def State.roundEpoch (s : State) : Nat :=
  s.regN .time 0 Reg.time_roundEpochLo + 2 ^ 32 * s.regN .time 0 Reg.time_roundEpochHi

def State.phase (s : State) : Nat := if s.time.rounds then (s.time.t - s.roundEpoch) % s.roundLen else 0

/-- Round as records and entries carry it: 0 before rounds begin (R251). -/
def State.roundNow (s : State) : Nat := if s.time.rounds then s.time.round else 0

/-- A block-type record of a page (R440). -/
def pageRec (p : Pg) (i code : Nat) (sev : Sev) : Record := { code := code, sev := sev, srcType := p.type, unit := i }

end Sys2Proof.Machine
end

