-- ==== Sys2Proof/Machine/Flags.lean ====
section
/-! DEFINITION. The flags of a page (R436, R437): INT_STAT, ERR_STAT and ERR_INFO, as every block sets them. -/

namespace Sys2Proof.Machine

/-! ### Status, interrupts and errors of a page (R436, R437) -/

/-- INT_STAT.STATUS_CHANGE: a STATUS or block state field of the page changed. -/
def State.changed (s : State) (p : Pg) (i : Nat) : State := s.orReg p i Reg.intStat 0x100

/-- Set ERR_STAT bit `b` of a page; the first error while ERR_STAT is 0 fills ERR_INFO with KIND and WHERE, and a bit
that goes from 0 to 1 sets its INT_STAT bit (R436, R437). -/
def State.flag (s : State) (p : Pg) (i b kind loc : Nat) : State :=
  let old := s.regN p i Reg.errStat
  let s := if old = 0 then s.setReg (regAddr p i Reg.errInfo) (BitVec.ofNat 32 (kind * 2 ^ 30 + loc % 2 ^ 30)) else s
  let s := if bit old b then s else s.orReg p i Reg.intStat (2 ^ b)
  s.orReg p i Reg.errStat (2 ^ b)

/-- ERR_STAT.REG_ACCESS for an access to register address `a` (R437). -/
def State.flagAccess (s : State) (p : Pg) (i a : Nat) (write : Bool) : State :=
  s.flag p i 0 1 (b2n write * 2 ^ 29 + a % 2 ^ 26)

end Sys2Proof.Machine
end

