-- ==== Sys2Proof/Machine/Links.lean ====
section
/-! DEFINITION. Sending over the fabric: wiring (R274, R277, R279), routes (R286), member links with credits and replay
(R283, R284), flooded packets (R282) and end-to-end messages (R287). -/

namespace Sys2Proof.Machine

/-! ### Wiring (R274, R277) -/

/-- Modules of the system (R274, R302). -/
def State.systemSize (s : State) : Nat := match s.field .link 0 Reg.link_fabSize 1 0 with | 0 => 16 | 1 => 32 | _ => 64

/-- Directions of a system of `n` modules. -/
def dirCount (n : Nat) : Nat := if n = 16 then 4 else if n = 32 then 5 else 6

/-- DIR and member of a port (R277). -/
def portDir (n port : Nat) : Nat × Nat :=
  if n = 16 then (port / 6, port % 6)
  else if n = 32 ∧ 16 ≤ port then (4, port - 16)
  else (port / 4, port % 4)

/-- Members of a bundle. -/
def bundleSize (n dir : Nat) : Nat := if n = 16 then 6 else if n = 32 ∧ dir = 4 then 8 else 4

/-- Ports of a bundle, by member. -/
def bundlePorts (n dir : Nat) : List Nat := (List.range 24).filter (fun p => (portDir n p).1 == dir)

/-- Position in direction `dir` of position `p` (R274, R277). -/
def neighbour (n p dir : Nat) : Nat :=
  let x := p % 4
  let y := p / 4 % 4
  let z := p / 16
  let at' := fun (x y z : Nat) => x + 4 * y + 16 * z
  match dir with
  | 0 => at' ((x + 1) % 4) y z
  | 1 => at' ((x + 3) % 4) y z
  | 2 => at' x ((y + 1) % 4) z
  | 3 => at' x ((y + 3) % 4) z
  | 4 => if n = 32 then at' x y (1 - z) else at' x y ((z + 1) % 4)
  | _ => at' x y ((z + 3) % 4)

/-- The direction back. -/
def opposite (n dir : Nat) : Nat := if n = 32 ∧ dir = 4 then 4 else if dir % 2 = 0 then dir + 1 else dir - 1

/-- Port of the far end that R277 gives for a port. -/
def farPort (n port : Nat) : Nat :=
  let d := portDir n port
  if n = 32 ∧ d.1 = 4 then 16 + (d.2 + 4) % 8
  else (bundlePorts n (opposite n d.1)).getD d.2 0

/-! ### Bundles (R279) -/

/-- BUNDLE_STATUS.STATE (R301). -/
inductive BundleSt where
  | up | degraded | subMin | down
  deriving DecidableEq, Repr

def BundleSt.code : BundleSt → Nat
  | .up => 0 | .degraded => 1 | .subMin => 2 | .down => 3

/-- Ports of a bundle of this module that are UP. -/
def State.upPorts (s : State) (dir : Nat) : List Nat :=
  (bundlePorts s.systemSize dir).filter (fun p => (s.link p).st == .up)

def State.bundle (s : State) (dir : Nat) : BundleSt :=
  let up := (s.upPorts dir).length
  if up = bundleSize s.systemSize dir then .up
  else if up = 0 then .down
  else if max 1 (s.field .link 0 Reg.link_fabBundleMin 3 0) ≤ up then .degraded
  else .subMin

/-- The bundle carries every class. -/
def BundleSt.full (b : BundleSt) : Bool := b == .up || b == .degraded

/-- Is the bundle of `p` in direction `dir` UP or DEGRADED, as its two ends have reported it? This module's own bundles
are as they are. -/
def State.usableBundle (s : State) (p dir : Nat) : Bool :=
  let n := s.systemSize
  let q := neighbour n p dir
  let ok := fun (a d : Nat) =>
    if a = s.pos then (s.bundle d).full
    else match s.fab.bundles.find? (fun b => b.1 == a && b.2.1 == d) with
      | some b => decide (b.2.2 ≤ 1)
      | none => true
  ok p dir && ok q (opposite n dir)

/-! ### Routes (R286, R289) -/

/-- Modules that forward traffic. -/
def State.forwards (s : State) (p : Nat) : Bool :=
  s.fab.members.getD p .absent == .serving || s.fab.members.getD p .absent == .spare

/-- Dimension-order direction from `p` to `q`: 6 local. -/
def dimDir (n p q : Nat) : Nat :=
  let delta := fun (a b : Nat) => (b + 4 - a) % 4
  let dx := delta (p % 4) (q % 4)
  let dy := delta (p / 4 % 4) (q / 4 % 4)
  let dz := delta (p / 16) (q / 16)
  if dx ≠ 0 then (if dx = 3 then 1 else 0)
  else if dy ≠ 0 then (if dy = 3 then 3 else 2)
  else if dz ≠ 0 then (if n = 32 then 4 else if dz = 3 then 5 else 4)
  else 6

/-- Every bundle of the dimension-order path is usable; `fuel` bounds the hops. -/
def State.dimOk (s : State) : Nat → Nat → Nat → Bool
  | 0, _, _ => false
  | fuel + 1, p, q =>
    if p = q then true
    else
      let d := dimDir s.systemSize p q
      s.usableBundle p d && s.forwards (neighbour s.systemSize p d) && s.dimOk fuel (neighbour s.systemSize p d) q

/-- Hop counts from `src` over usable bundles between forwarding modules, 99 where there is no path: `rounds` rounds of
relaxation. -/
def State.hops (s : State) (src : Nat) : Nat → List Nat
  | 0 => (List.range 64).map (fun p => if p = src then 0 else 99)
  | k + 1 =>
    let l := s.hops src k
    (List.range 64).map (fun p =>
      ((List.range (dirCount s.systemSize)).filter (fun d => s.usableBundle p d && s.forwards p)).foldl (fun m d =>
        min m (l.getD (neighbour s.systemSize p d) 99 + 1)) (l.getD p 99))

/-- Is the hop from `p` in direction `d` up: toward the end nearer the manager, a tie to the lower position? -/
def upHop (n : Nat) (depth : List Nat) (p d : Nat) : Bool :=
  let q := neighbour n p d
  decide (depth.getD q 99 < depth.getD p 99 ∨ (depth.getD q 99 = depth.getD p 99 ∧ q < p))

/-- Length of the shortest legal escape route to `q` from every position, in the down phase and in the up phase. -/
def State.escDist (s : State) (depth : List Nat) (q : Nat) : Nat → List Nat × List Nat
  | 0 => ((List.range 64).map (fun p => if p = q then 0 else 99), (List.range 64).map (fun p => if p = q then 0 else 99))
  | k + 1 =>
    let l := s.escDist depth q k
    let n := s.systemSize
    let step := fun (p d : Nat) => s.usableBundle p d && s.forwards p && s.forwards (neighbour n p d)
    let down := (List.range 64).map (fun p =>
      ((List.range (dirCount n)).filter (fun d => step p d && !upHop n depth p d)).foldl (fun m d =>
        min m (l.1.getD (neighbour n p d) 99 + 1)) (l.1.getD p 99))
    let up := (List.range 64).map (fun p =>
      ((List.range (dirCount n)).filter (fun d => step p d)).foldl (fun m d =>
        min m ((if upHop n depth p d then l.2 else l.1).getD (neighbour n p d) 99 + 1)) (l.2.getD p 99))
    (down, up)

/-- A ROUTEp word (R302) of module `p` for destination `q`. -/
def State.routeWord (s : State) (depth : List Nat) (p q : Nat) : Nat :=
  let n := s.systemSize
  if !s.forwards p || !s.forwards q then 0b111_111_0_00_111
  else if p = q then 0b110_110_1_00_110
  else
    let l := s.escDist depth q 64
    let pick := fun (ok : Nat → Bool) => ((List.range (dirCount n)).find? ok).getD 7
    let step := fun (d : Nat) => s.usableBundle p d && s.forwards (neighbour n p d)
    let down := pick (fun d => step d && !upHop n depth p d &&
      decide (l.1.getD p 99 < 99 ∧ l.1.getD (neighbour n p d) 99 + 1 = l.1.getD p 99))
    let up := pick (fun d => step d && decide (l.2.getD p 99 < 99 ∧
      (if upHop n depth p d then l.2 else l.1).getD (neighbour n p d) 99 + 1 = l.2.getD p 99))
    down * 512 + up * 64 + b2n (s.dimOk 16 p q) * 32 + dimDir n p q

/-- The tables of every module, 64 words for each position in turn (R288 step 3). -/
def State.allRoutes (s : State) : List Nat :=
  let depth := s.hops s.fab.manager 64
  (List.range 64).flatMap (fun p => (List.range 64).map (fun q => s.routeWord depth p q))

/-! ### Member links (R283, R284) -/

/-- Units of 16 bytes that a packet takes. -/
def TxPkt.units (p : TxPkt) : Nat := cdiv p.bytes 16

/-- Virtual channel of a packet (R281, R283). -/
def TxPkt.vc (p : TxPkt) : Nat := p.cls * 4 + b2n p.dateline * 2 + b2n p.esc

def Link.replayBytes (l : Link) : Nat := (l.replay.map (fun r => r.pkt.bytes)).sum

/-- Credits are held for all of a packet, and the replay buffer has room (R283, R284). -/
def Link.maySend (l : Link) (p : TxPkt) : Bool :=
  decide (p.units ≤ l.credits.getD p.vc 0 + l.shared ∧ l.replayBytes + p.bytes ≤ 65536)

/-- A packet goes out: its LSEQ, its credits, its place in the replay buffer. -/
def Link.send (l : Link) (p : TxPkt) : Link :=
  let own := min p.units (l.credits.getD p.vc 0)
  { l with
    nextLseq := (l.nextLseq + 1) % 4096, replay := l.replay ++ [{ lseq := l.nextLseq, pkt := p }]
    credits := l.credits.set p.vc (l.credits.getD p.vc 0 - own), shared := l.shared - (p.units - own) }

def State.sendOn (s : State) (port : Nat) (p : TxPkt) : State :=
  let n := (s.link port).nextLseq
  ((s.modLink port (fun l => l.send p)).bump .link port 0 p.bytes).emit (.hop port n p)

/-- The waiting packet that goes first: class 0 has priority over every other (R282). -/
def firstWaiting (l : List TxPkt) : Option TxPkt := (l.find? (fun p => p.cls == 0)).or l.head?

/-- Waiting packets of a port go out while they can; `fuel` bounds them. -/
def State.pumpPort : Nat → State → Nat → State
  | 0, s, _ => s
  | fuel + 1, s, port =>
    match firstWaiting (s.link port).txWait with
    | none => s
    | some p =>
      if (s.link port).st = .up ∧ (s.link port).maySend p then
        State.pumpPort fuel ((s.modLink port (fun l => { l with txWait := l.txWait.erase p })).sendOn port p) port
      else s

/-- A packet joins a port's line. -/
def State.queueOn (s : State) (port : Nat) (p : TxPkt) : State :=
  let s := s.modLink port (fun l => { l with txWait := l.txWait ++ [p] })
  State.pumpPort (s.link port).txWait.length s port

/-- What a member link has to carry still. -/
def Link.load (l : Link) : Nat := l.replayBytes + (l.txWait.map (fun p => p.bytes)).sum

/-- The least occupied member of a bundle (R287). -/
def State.leastPort (s : State) (dir : Nat) : Option Nat :=
  (s.upPorts dir).foldl (fun m p => match m with
    | none => some p
    | some q => if (s.link p).load < (s.link q).load then some p else some q) none

/-! ### Packets on their way (R286) -/

/-- Does the hop from this module in direction `d` cross the dateline of its ring? -/
def crossesDateline (n pos d : Nat) : Bool :=
  let c := if d < 2 then pos % 4 else if d < 4 then pos / 4 % 4 else pos / 16
  !(n == 32 && d == 4) && (if d % 2 = 0 then c == 3 else c == 0)

/-- Where a packet goes next, and how it is marked: none where the tables give no direction. `from`: direction of the
bundle it arrived on. -/
def State.nextHop (s : State) (p : TxPkt) (arrived : Option Nat) : Option (Nat × TxPkt) :=
  let w := (s.fab.routes.getD p.dest 0).toNat
  let esc := p.esc || !bit w 5
  if !esc then
    let d := bits w 2 0
    let same := match arrived with | some a => a / 2 == d / 2 | none => false
    if 6 ≤ d then none
    else some (d, { p with dateline := (same && p.dateline) || crossesDateline s.systemSize s.pos d })
  else
    let d := if p.down then bits w 11 9 else bits w 8 6
    let isDown := !upHop s.systemSize (s.hops s.fab.manager 64) s.pos d
    if 6 ≤ d then none else some (d, { p with esc := true, down := p.down || isDown, dateline := p.esc && p.dateline })

/-- A routed packet goes on, or waits where its bundle is SUB_MIN or DOWN (R286, R288). -/
def State.routePkt (s : State) (p : TxPkt) (arrived : Option Nat) : State :=
  match s.nextHop p arrived with
  | none => s
  | some (d, p) =>
    if (s.bundle d).full then
      match s.leastPort d with
      | some port => s.queueOn port p
      | none => s
    else { s with fab := { s.fab with waiting := s.fab.waiting ++ [(d, p)] } }

/-- A flooded packet goes out on every bundle with a member UP but the one it came in on (R282). -/
def State.floodPkt (s : State) (p : TxPkt) (arrived : Option Nat) : State :=
  (List.range (dirCount s.systemSize)).foldl (fun (s : State) d =>
    if arrived = some d then s
    else match s.leastPort d with
      | some port => s.queueOn port p
      | none => s) s

/-- Largest payload of the system's version (R281, R285). -/
def State.maxPayload (s : State) : Nat := if s.fab.sysVer = 1 then 256 else 512

/-- Bytes of a message that the spec sizes; none where it gives no size. -/
def PktOut.dataBytes : PktOut → Option Nat
  | .mirror _ _ _ _ payload _ => some payload.length
  | .mirrorPage _ _ data => some data.length
  | .image _ bytes => some bytes.length
  | .item _ _ _ desc => some desc.length
  | .result _ _ _ entry => some entry.length
  | _ => none

/-- The packets of a message: payloads filled in turn; a message that the spec does not size is one packet whose size is
a free value. -/
def State.packets (s : State) (dest cls seq : Nat) (msg : PktOut) : List TxPkt × State :=
  let most := s.maxPayload
  let pkt := fun (part n : Nat) => ({ dest := dest, src := s.pos, seq := seq, cls := cls, bytes := 24 + cdiv n 16 * 16, msg := msg, part := part } : TxPkt)
  match msg.dataBytes with
  | some n => ((List.range (max 1 (cdiv n most))).map (fun k => pkt k (min most (n - k * most))), s)
  | none =>
    let c := s.draw
    ([pkt 0 (Config.freeChoice c.1 % (most / 16 + 1) * 16)], c.2)

def State.setFab (s : State) (f : Fabric → Fabric) : State := { s with fab := f s.fab }

/-- Flood a message of this module (R282). -/
def State.floodMsg (s : State) (msg : PktOut) : State :=
  let n := s.fab.floodSeq
  let s := s.setFab (fun f => { f with
    floodSeq := (n + 1) % 2 ^ 32, flood := ((s.pos, n) :: f.flood).take 4096 })
  let r := (s.emit (.flood n msg)).packets 0 0 n msg
  r.1.foldl (fun (s : State) p => s.floodPkt p none) r.2

/-- Send a routed message that is not acknowledged (R282: MSG_ACK). -/
def State.sendPlain (s : State) (dest cls seq : Nat) (msg : PktOut) : State :=
  let r := (s.emit (.routed dest cls seq msg)).packets dest cls seq msg
  r.1.foldl (fun (s : State) p => s.routePkt p none) r.2

/-- SEQ of the next message to a destination and class (R287). -/
def State.nextSeq (s : State) (dest cls : Nat) : Nat := cellGet 0 s.fab.nextSeq (dest * 4 + cls)

/-- Send a class 1 to 3 message, acknowledged end to end (R287); during a route change it waits (R288). -/
def State.sendMsg (s : State) (dest cls : Nat) (msg : PktOut) : State :=
  let n := s.nextSeq dest cls
  let stopped := s.fab.stopped
  let s := s.setFab (fun f => { f with
    nextSeq := cellSet 0 f.nextSeq (dest * 4 + cls) ((n + 1) % 2 ^ 32)
    sent := f.sent ++ [{ dest := dest, cls := cls, seq := n, msg := msg, injected := !stopped }] })
  if stopped then s else s.sendPlain dest cls n msg

/-- Acknowledge a message end to end (R287). -/
def State.ackMsg (s : State) (dest cls seq : Nat) : State :=
  if s.fab.stopped then
    s.setFab (fun f => { f with
      sent := f.sent ++ [{ dest := dest, cls := 2, seq := seq, msg := .msgAck cls seq, injected := false, plain := true }] })
  else s.sendPlain dest 2 seq (.msgAck cls seq)

/-- Injection resumes (R288 step 4): what was held back goes out. -/
def State.resumeInjection (s : State) : State :=
  let held := s.fab.sent.filter (fun m => !m.injected)
  let s := s.setFab (fun f => { f with
    stopped := false
    sent := (f.sent.filter (fun m => !(m.plain && !m.injected))).map (fun m => { m with injected := true }) })
  held.foldl (fun (s : State) m => s.sendPlain m.dest m.cls m.seq m.msg) s

/-- Packets that waited for a bundle are routed again under the present tables (R286, R288). -/
def State.releaseWaiting (s : State) : State :=
  let w := s.fab.waiting
  w.foldl (fun (s : State) p => s.routePkt p.2 none) (s.setFab (fun f => { f with waiting := [] }))

end Sys2Proof.Machine
end

