-- ==== Sys2Proof/Machine/MemOps.lean ====
section
/-! DEFINITION. Memory as boxes and device agents reach it: homes (R221), box page tables (R222), bytes and poison
(R368), protected pages (R241), the tier's granules (R234) and the interleave hash (R224). -/

namespace Sys2Proof.Machine

/-! ### Device addresses (R221) -/

def flashBase : Nat := 0x1000_0000_0000
def dieSpan : Nat := 0x30_0000_0000

/-- Flash size in bytes (R2). -/
def State.flashSize (s : State) : Nat :=
  (match s.order with | .t16 => 16 | .t32 => 32) * 2 ^ 40

/-- The home of a device address: HBM of a die, flash, or none (R221). -/
inductive Home where
  | hbm (die : Nat)
  | flash
  | none
  deriving DecidableEq, Repr

def State.home (s : State) (da : Nat) : Home :=
  if da < 4 * dieSpan then
    (if da % dieSpan < (s.die (da / dieSpan)).channels * 2 ^ 32 then .hbm (da / dieSpan) else .none)
  else if flashBase ≤ da ∧ da < flashBase + s.flashSize then .flash
  else .none

/-- Home die of a device address (R221). -/
def homeDie (da : Nat) : Nat := if da < 4 * dieSpan then da / dieSpan else bits da 17 16

/-- Physical channels of a die that the hash uses, in ascending order (R224). -/
def State.usable (s : State) (d : Nat) : List Nat :=
  (List.range 48).filter (fun p =>
    let k := s.stack (3 * d + p / 16)
    !k.mappedOut.contains (p % 16) || k.leaving.contains (p % 16))

/-- Where an HBM-homed granule of 256 bytes lies (R224): stack, channel, pseudo-channel, granule row. -/
def hbmLocate (usable : List Nat) (da : Nat) : Nat × Nat × Nat × Nat :=
  let d := da / dieSpan
  let g := (da - d * dieSpan) / 256
  let n := max usable.length 1
  let q := g / n
  let r := g % n
  let x := (q ^^^ (q >>> 6) ^^^ (q >>> 12) ^^^ (q >>> 18)) &&& 0x3F
  let p := usable.getD ((r + x) % n) 0
  (3 * d + p / 16, p % 16, (q ^^^ (q >>> 1)) % 2, q / 2)

/-! ### Granules of the tier (R234) -/

def granuleOf (da : Nat) : Nat := (da - flashBase) / 65536
def granuleBase (g : Nat) : Nat := flashBase + g * 65536

def State.granule? (s : State) (g : Nat) : Option Granule := s.tier.granules.find? (fun x => x.num == g)
def State.modGranule (s : State) (g : Nat) (f : Granule → Granule) : State :=
  { s with tier := { s.tier with granules := s.tier.granules.map (fun x => if x.num = g then f x else x) } }

/-- Is the granule's data in HBM? -/
def Granule.present (g : Granule) : Bool := g.st != .filling

/-- The pairs of `src` with keys in `[lo, hi)` put in place of those of `dst`. -/
def copyRange {α : Type} (src dst : List (Nat × α)) (lo hi : Nat) : List (Nat × α) :=
  dst.filter (fun p => decide (p.1 < lo)) ++ src.filter (fun p => decide (lo ≤ p.1 ∧ p.1 < hi)) ++
    dst.filter (fun p => decide (hi ≤ p.1))

def copyMarks (src dst : List Nat) (lo hi : Nat) : List Nat :=
  dst.filter (· < lo) ++ src.filter (fun p => decide (lo ≤ p ∧ p < hi)) ++ dst.filter (fun p => decide (hi ≤ p))

/-- The granule's flash contents brought into HBM. -/
def State.fillData (s : State) (g : Nat) : State :=
  let lo := granuleBase g
  { s with mem := copyRange s.tier.flash s.mem lo (lo + 65536)
           memPoison := copyMarks s.tier.flashPoison s.memPoison (lo / 64) ((lo + 65536) / 64) }

/-- The granule's HBM contents written to flash, atomically (R236). -/
def State.flushData (s : State) (g : Nat) : State :=
  let lo := granuleBase g
  { s with tier := { s.tier with
      flash := copyRange s.mem s.tier.flash lo (lo + 65536)
      flashPoison := copyMarks s.memPoison s.tier.flashPoison (lo / 64) ((lo + 65536) / 64) } }

/-- Byte of memory at a device address: a granule that is not in HBM has its flash contents. -/
def State.byteAt (s : State) (da : Nat) : Byte :=
  if da < flashBase then cellGet 0 s.mem da
  else match s.granule? (granuleOf da) with
    | some g => if g.present then cellGet 0 s.mem da else cellGet 0 s.tier.flash da
    | none => cellGet 0 s.tier.flash da

/-- Poison mark of the 64-byte granule at a device address (R368). -/
def State.poisonAt (s : State) (da : Nat) : Bool :=
  if da < flashBase then s.memPoison.contains (da / 64)
  else match s.granule? (granuleOf da) with
    | some g => if g.present then s.memPoison.contains (da / 64) else s.tier.flashPoison.contains (da / 64)
    | none => s.tier.flashPoison.contains (da / 64)

/-- An access to the granule: it moves to the front of use, and a write makes it DIRTY (R234, R235). -/
def State.useGranule (s : State) (da : Nat) (write : Bool) : State :=
  let g := granuleOf da
  let clock := s.tier.useClock + 1
  let s := { s with tier := { s.tier with useClock := clock } }
  match s.granule? g with
  | some _ =>
    s.modGranule g (fun x => { x with
      use := clock
      st := if write then .dirty else x.st
      since := if write ∧ x.st ≠ .dirty then s.roundNow else x.since })
  | none =>
    let s := s.fillData g
    { s with tier := { s.tier with granules :=
        { num := g, st := if write then .dirty else .clean, use := clock, since := s.roundNow } :: s.tier.granules } }

/-- Poison marks after a write of `n` bytes at `start`: a granule covered whole takes the mark of the data, one
covered in part keeps a mark it had (R368). -/
def marksAfter (marks : List Nat) (start n : Nat) (bad : Nat → Bool) : List Nat :=
  let stop := start + n
  let gs := (List.range ((stop + 63) / 64 - start / 64)).map (fun i => start / 64 + i)
  gs.foldl (fun m g =>
    let lo := max start (g * 64)
    let hi := min stop (g * 64 + 64)
    let isBad := (List.range (hi - lo)).any (fun i => bad (lo + i - start))
    if isBad then setInsert m g
    else if start ≤ g * 64 ∧ g * 64 + 64 ≤ stop then setErase m g else m) marks

/-- Bytes written from a device address on, within one page. -/
def State.memWrite (s : State) (da : Nat) (bytes : List Byte) (bad : Nat → Bool) : State :=
  if bytes.isEmpty then s else
  let s := if flashBase ≤ da then
      (List.range ((da + bytes.length - 1) / 65536 - da / 65536 + 1)).foldl
        (fun s i => s.useGranule ((da / 65536 + i) * 65536) true) s
    else s
  { s with mem := cellSetRun 0 s.mem da bytes
           memPoison := marksAfter s.memPoison da bytes.length bad }

/-! ### Box page tables (R222) -/

def pageSize : Nat := 2 ^ 21

def pteValid (e : W64) : Bool := e.getLsbD 63
def pteWritable (e : W64) : Bool := e.getLsbD 62
def pteProtected (e : W64) : Bool := e.getLsbD 61
def pteReduce (e : W64) : Nat := bits e.toNat 60 58
def pteHint (e : W64) : Nat := bits e.toNat 57 56
/-- Device address of the page. -/
def pteDa (e : W64) : Nat := bits e.toNat 47 21 * pageSize

/-- The valid entry that maps a box virtual address. -/
def State.pte? (s : State) (b va : Nat) : Option W64 :=
  let e := cellGet 0 (s.box b).pt (va / pageSize)
  if pteValid e then some e else none

/-- Every page of `[va, va + n)` is mapped, and writable for a write (R222). -/
def State.mapped (s : State) (b va n : Nat) (write : Bool) : Bool :=
  decide (va + n ≤ 2 ^ 48) &&
  (List.range ((va + n + pageSize - 1) / pageSize - va / pageSize)).all (fun i =>
    match s.pte? b (va + i * pageSize) with
    | some e => !write || pteWritable e
    | none => false)

/-- First byte of `[va, va + n)` that an access cannot reach. -/
def State.firstUnmapped (s : State) (b va n : Nat) (write : Bool) : Option Nat :=
  (List.range ((va + n + pageSize - 1) / pageSize - va / pageSize)).findSome? (fun i =>
    let a := if i = 0 then va else (va / pageSize + i) * pageSize
    if s.mapped b a 1 write then none else some a)

def State.da (s : State) (b va : Nat) : Nat :=
  match s.pte? b va with
  | some e => pteDa e + va % pageSize
  | none => 0

/-- Data unit key of a protected byte: standing under the box's key (R241). -/
def State.byteOf (s : State) (b va : Nat) : Byte :=
  match s.pte? b va with
  | none => 0
  | some e =>
    let da := pteDa e + va % pageSize
    if pteProtected e && !s.protUnits.contains (da / 256) then Config.freeByte (s.box b).protSeed va
    else s.byteAt da

/-- A protected page of a box without a key (R241) reads as poisoned: an access to it fails with POISON. -/
def State.keyMissing (s : State) (b va : Nat) : Bool :=
  match s.pte? b va with
  | none => false
  | some e => pteProtected e && (s.box b).key.isNone

def State.readBox (s : State) (b va n : Nat) : List Byte := (List.range n).map (fun i => s.byteOf b (va + i))

/-- Some granule of `[va, va + n)` is poisoned, or lies in a protected page without a key. -/
def State.poisonedBox (s : State) (b va n : Nat) : Bool :=
  (List.range ((va + n + 63) / 64 - va / 64)).any (fun i =>
    let a := max va ((va / 64 + i) * 64)
    s.keyMissing b a || (s.pte? b a).isSome && s.poisonAt (s.da b a))

/-- First address of `[va, va + n)` that reads poisoned. -/
def State.firstPoison (s : State) (b va n : Nat) : Option Nat :=
  ((List.range ((va + n + 63) / 64 - va / 64)).map (fun i => max va ((va / 64 + i) * 64))).find? (fun a => s.poisonedBox b a 1)

/-- Bytes written within one page of a box. A data unit of a protected page that stands under no present key takes
its other bytes as free values when part of it is written (R241). -/
def State.writePage (s : State) (b va : Nat) (bytes : List Byte) (bad : Nat → Bool) : State :=
  match s.pte? b va with
  | none => s
  | some e =>
    let da := pteDa e + va % pageSize
    if pteProtected e then
      let units := (List.range ((da + bytes.length - 1) / 256 - da / 256 + 1)).map (fun i => da / 256 + i)
      let s := units.foldl (fun s u =>
        if s.protUnits.contains u then s
        else
          let base := va / pageSize * pageSize + (u * 256) % pageSize
          { s.memWrite (u * 256) ((List.range 256).map (fun i => Config.freeByte (s.box b).protSeed (base + i)))
              (fun _ => false) with protUnits := setInsert s.protUnits u }) s
      s.memWrite da bytes bad
    else s.memWrite da bytes bad

/-- Bytes written from a box virtual address on, page by page, through plain pages; `fuel` bounds the pages. -/
def State.writeBoxFuel (fuel : Nat) (s : State) (b va : Nat) (bytes : List Byte) (bad : Nat → Bool) : State :=
  match fuel with
  | 0 => s
  | fuel + 1 =>
    if bytes.isEmpty then s else
    let room := pageSize - va % pageSize
    let s := s.writePage b va (bytes.take room) bad
    State.writeBoxFuel fuel s b (va + room) (bytes.drop room) (fun i => bad (i + room))

def State.writeBox (s : State) (b va : Nat) (bytes : List Byte) : State :=
  State.writeBoxFuel (bytes.length / pageSize + 2) s b va bytes (fun _ => false)

/-- Little-endian number of `n` bytes of box memory. -/
def State.readNum (s : State) (b va n : Nat) : Nat := leNat (s.readBox b va n)

/-- Does `[va, va + n)` meet a granule that is not in HBM? The first one's number (R234). -/
def State.absentIn (s : State) (b va n : Nat) : Option Nat :=
  (List.range ((va + n + 65535) / 65536 - va / 65536)).findSome? (fun i =>
    let a := max va ((va / 65536 + i) * 65536)
    match s.pte? b a with
    | none => none
    | some e =>
      let da := pteDa e + a % pageSize
      if da < flashBase then none
      else match s.granule? (granuleOf da) with
        | some g => if g.present then none else some (granuleOf da)
        | none => some (granuleOf da))

/-! ### Regions (R192) -/

/-- The coded region of a box that holds `[va, va + n)`, and its index. -/
def State.region? (s : State) (b va n : Nat) : Option Region :=
  (s.box b).regions.find? (fun r => decide (r.base ≤ va ∧ va + n ≤ r.base + r.size * pageSize))

/-- Does `[va, va + n)` meet a coded region of the box? -/
def State.inCoded (s : State) (b va n : Nat) : Bool :=
  (s.box b).regions.any (fun r => decide (va < r.base + r.size * pageSize ∧ r.base < va + n))

/-- Does `[va, va + n)` meet a protected page of the box (R195)? -/
def State.inProtected (s : State) (b va n : Nat) : Bool :=
  (s.box b).pt.any (fun p => pteValid p.2 && pteProtected p.2 &&
    decide (va < (p.1 + 1) * pageSize ∧ p.1 * pageSize < va + n))

end Sys2Proof.Machine
end

