-- ==== Sys2Proof/Machine/Ledger.lean ====
section
/-! DEFINITION. What every family does to items and streams: vacating a place (R18, R27), stopping an instance (R260),
failing an entry (R21) or an item as a whole (R22, R363), recording a disposition and what follows from it (R23, R313 to
R315, R363, R379), and the use of a box's quotas (R266). -/

namespace Sys2Proof.Machine

/-! ### Places and pages -/

/-- One reference fewer to the pool page at `da`: a page whose count reaches 0 is freed (R27, R166). -/
def dropRef (pages : List KvPage) (da : Nat) : List KvPage :=
  pages.filterMap (fun p => if p.da = da then (if p.refs ≤ 1 then none else some { p with refs := p.refs - 1 }) else some p)

def addRef (pages : List KvPage) (da : Nat) : List KvPage :=
  pages.map (fun p => if p.da = da then { p with refs := p.refs + 1 } else p)

/-- Pages that a stream's directory references, in order. -/
def Place.pageRefs (p : Place) : List Nat := p.dirs.flatMap (fun d => d.ptes.map (·.da))

/-- Look-aside entries that satisfy `p` invalidated in every core (R169, R178). -/
def State.dropLab (s : State) (p : LabEntry → Bool) : State :=
  let hit := (List.range s.cores.length).map (fun c => (c, ((s.core c).lab.filter p).length))
  let s := { s with cores := s.cores.map (fun c => { c with lab := c.lab.filter (fun e => !p e) }) }
  hit.foldl (fun s h => s.bump .kvw h.1 3 h.2) s

/-- Look-aside entries of a stream invalidated (R169). -/
def State.flushLab (s : State) (box stream : Nat) : State := s.dropLab (fun e => e.box == box && e.stream == stream)

def State.boxOfGroup (s : State) (g : Nat) : Nat := match s.group? g with | some x => x.box | none => 0

/-- Box of the stream in a place. -/
def State.boxOfPlace (s : State) (p : Place) : Nat := s.boxOfGroup p.group

/-- The stream's key-value pages dropped: every directory entry loses its history and keeps its list (R20, R157, R166). -/
def State.dropHistory (s : State) (stream : Nat) : State :=
  match s.place? stream with
  | none => s
  | some p =>
    let b := s.boxOfPlace p
    let s : State := { s with pages := p.pageRefs.foldl dropRef s.pages }
    let s := s.modPlace stream (fun q => { q with
      dirs := q.dirs.map (fun d => { d with valid := false, ptes := [], pending := 0 }) })
    s.flushLab b stream

/-- A failed step's pages: those with NEW set are freed, PENDING is 0 (R164). -/
def State.rollbackPages (s : State) (stream : Nat) : State :=
  match s.place? stream with
  | none => s
  | some p =>
    let b := s.boxOfPlace p
    let gone := p.dirs.flatMap (fun d => d.ptes.filter (fun e => e.new))
    let s := s.modPlace stream (fun q => { q with dirs := q.dirs.map (fun d =>
      { d with pending := 0, ptes := d.ptes.filter (fun e => !e.new) }) })
    let s : State := { s with pages := gone.foldl (fun l e => dropRef l e.da) s.pages }
    if gone.isEmpty then s else s.flushLab b stream

/-- Vacate a place: its slot, page references and tape go (R18, R31). -/
def State.vacate (s : State) (stream : Nat) : State :=
  (s.dropHistory stream).modPlace stream (fun q => { q with
    live := false, faulted := false, residency := .resident, mirror := .none, held := false, forced := false
    windowCore := none, arena := none, window := none, poste := none, tapes := [], mirrorSent := none })

/-- Every place and the identifiers of a group released (R18 CLOSE_GROUP). -/
def State.releaseGroup (s : State) (g : Nat) : State :=
  let s := ((s.places.filter (fun p => p.group == g)).map (·.stream)).foldl State.vacate s
  { s with places := s.places.filter (fun p => p.group != g), groups := s.groups.filter (fun x => x.index != g)
           items := s.items.map (fun (i : Item) => if i.groups.contains g then { i with gone := true } else i) }

/-! ### Instances -/

def Inst.of (i : Inst) (id : Nat) : Bool := i.item == id

/-- What a core keeps when its instance is gone: clerks idle, queues empty, pigeonholes FREE, open encode blocks
discarded (R260). -/
def Core.clearRun (c : Core) : Core :=
  { c with
    run := none
    clerks := c.clerks.map (fun k => { k with state := .idle, resv := none, finished := false })
    loading := none, mxeQ := [], drain := none, drainRow := 0, drainQ := [], courQ := [[], [], [], []]
    phState := List.replicate 8 .free, enc := [], poolWait := false
    state := if c.state = .running then .idle else c.state }

/-- An instance of the item has ended on core `c`: its core mask (R362). -/
def State.noteCore (s : State) (id c : Nat) : State :=
  s.modItem id (fun i => { i with coreMask := setInsert i.coreMask c })

/-- Core cycles of a time in ns, at 1.8 GHz (R261, R263). -/
def cyclesOf (ns : Nat) : Nat := ns * 9 / 5

/-- Core cycles counted to a box on core `c` (R257, R273, R445). -/
def State.chargeBox (s : State) (c b n : Nat) : State :=
  let s := ((s.bump .cnt c b n).bump .box b 5 n).bump .ctl c 1 n
  s.modBox b (fun x => { x with cyclesUsed := x.cyclesUsed + n })

/-- The instance that runs on core `c` ends: its cycles and the instance itself count to its box (R445). -/
def State.chargeRun (s : State) (c : Nat) : State :=
  match (s.core c).run with
  | none => s
  | some i => ((s.chargeBox c i.box (cyclesOf (s.time.t - i.start))).bump .cnt c (64 + i.box) 1).noteCore i.item c

/-- Stop the instance that runs on core `c` at the next tile boundary, without commit (R260). -/
def State.stopInstance (s : State) (c : Nat) : State :=
  let s := s.chargeRun c
  let s := s.modCore c (fun k => { k.clearRun with chain := none })
  { s with poolWait := s.poolWait.filter (fun w => w.1 != c) }

/-- Stop every running instance of an item, and take its queued instances off (R259, R260). -/
def State.stopItem (s : State) (id : Nat) : State :=
  let s := (List.range 68).foldl (fun s c =>
    match (s.core c).run with
    | some i => if i.item = id then s.stopInstance c else s
    | none => s) s
  { s with cores := s.cores.map (fun c => { c with
      queue := c.queue.filter (fun i => i.item != id)
      chain := match c.chain with | some x => if x.item = id then none else c.chain | none => none }) }

/-- Instances of an item that run, and those queued. -/
def State.runningOf (s : State) (id : Nat) : Bool := s.cores.any (fun c => match c.run with | some i => i.item == id | none => false)
def State.queuedOf (s : State) (id : Nat) : Bool := s.cores.any (fun c => c.queue.any (fun i => i.item == id))

/-- Take the queued instances of one entry off every core; a handoff chain of the entry ends. -/
def State.dropQueued (s : State) (id k : Nat) : State :=
  let mine := fun (i : Inst) => i.item == id && i.entry == k
  { s with cores := s.cores.map (fun c => { c with
      queue := c.queue.filter (fun i => !mine i)
      chain := match c.chain with | some x => if mine x then none else some x | none => none }) }

/-! ### Failures -/

/-- Reasons that leave a begun step's stream FAULTED (R21). -/
def Reason.faults : Reason → Bool
  | .poison | .envelope | .codebookStale | .oob => true
  | _ => false

/-- Kinds whose list entries are steps of streams. -/
def Item.isStep (i : Item) : Bool := i.kind == 0x03

/-- A slot header with its CRC over bytes 0 to 59 (R124). -/
def headerCrc (n : Nat) : BitVec 512 :=
  let body := n % 2 ^ 480
  BitVec.ofNat 512 (body + (crc32c (leBytes 60 body)).toNat * 2 ^ 480)

/-- A header with bits `[hi:lo]` replaced, and a fresh CRC. -/
def headerSet (h : BitVec 512) (hi lo v : Nat) : BitVec 512 := headerCrc (setBits h.toNat hi lo v)

/-- The stream becomes FAULTED: the contents of its slot are not defined (R21). -/
def State.faultStream (s : State) (stream : Nat) : State :=
  let n := s.draw
  n.2.modPlace stream (fun p => { p with
    faulted := true
    arena := p.arena.map (fun a => { a with payload := Store.free n.1, hdr := headerSet a.hdr 8 8 1 }) })

/-- One pin of a stream released (R138). -/
def State.unpin (s : State) (stream : Nat) : State := s.modPlace stream (fun p => { p with pinCount := p.pinCount - 1 })

/-- An entry of a STEP reaches its fate: the pin goes, and a step that had begun leaves the slot, its window copy and
the pages it added (R123, R138, R164). `ok`: it committed. -/
def State.leaveStep (s : State) (e : Entry) (ok : Bool) : State :=
  let s := s.unpin e.stream
  let s := if e.st = .running ∨ e.st = .ready then s.modPlace e.stream (fun p => { p with held := false }) else s
  if !e.begun ∨ ok then s
    else (s.modPlace e.stream (fun p => { p with window := none, windowCore := none })).rollbackPages e.stream

/-- Step count and FAULTED of a stream, for a step report (R23). -/
def State.afterOf (s : State) (stream : Nat) : Option (Nat × Bool) :=
  (s.place? stream).map (fun p => (p.stepCount, p.faulted))

/-- Fail entry `k` of an item: its queued instances are taken off, and a begun step's stream becomes FAULTED for the
reasons of R21. -/
def State.failEntry (s : State) (id k : Nat) (f : Fail) : State :=
  match s.item? id with
  | none => s
  | some i =>
    let e := i.entry k
    let s := s.dropQueued id k
    let s := s.modEntry id k (fun e => { e with st := .failed f })
    let s : State := { s with arenaWait := s.arenaWait.erase (id, k) }
    if !i.isStep then s
    else
      let s := s.leaveStep e false
      let s := if e.begun ∧ f.reason.faults then s.faultStream e.stream else s
      s.modEntry id k (fun e => { e with after := s.afterOf e.stream })

/-- Entries that have not reached their fate. -/
def Item.unsettled (i : Item) : List Entry :=
  i.entries.filter (fun e => match e.st with | .running | .ready | .waiting => true | _ => false)

/-! ### Entries of the rings (R313, R314) -/

def coordBits (l : List Nat) : Nat :=
  (l.getD 0 0 % 2 ^ 24) * 2 ^ 162 + (l.getD 1 0 % 2 ^ 24) * 2 ^ 186 + (l.getD 2 0 % 2 ^ 24) * 2 ^ 210 +
    (l.getD 3 0 % 2 ^ 24) * 2 ^ 234

/-- Completion entry without PHASE (R313). -/
def Item.completion (i : Item) (drift : Bool) : Nat :=
  i.tag.toNat * 2 ^ 192 + (i.dispRound % 2 ^ 48) * 2 ^ 144 + (i.dispPhase % 2 ^ 30) * 2 ^ 114 + i.kind * 2 ^ 96 +
    i.pos * 2 ^ 90 + b2n i.postedHeld * 8 + b2n i.late * 4 + b2n drift * 2

/-- Dead-letter entry without PHASE (R314). -/
def Item.deadLetter (i : Item) (f : Fail) : Nat :=
  (if i.tagLost then 2 ^ 64 - 1 else i.tag.toNat) * 2 ^ 448 + (i.dispRound % 2 ^ 48) * 2 ^ 400 +
    (i.dispPhase % 2 ^ 30) * 2 ^ 370 + f.reason.code * 2 ^ 362 + f.check * 2 ^ 346 + (f.entry % 2 ^ 16) * 2 ^ 330 +
    (f.kernelId % 2 ^ 32) * 2 ^ 298 + (f.tensor % 2 ^ 16) * 2 ^ 282 + (f.stream % 2 ^ 18) * 2 ^ 264 +
    (f.pos.getD i.pos % 64) * 2 ^ 258 + coordBits f.coords + (f.va % 2 ^ 48) * 2 ^ 114 + i.kind * 2 ^ 106 +
    b2n i.submitValid * 2 ^ 105 + (i.ring % 8) * 2 ^ 102 + (i.count % 2 ^ 32) * 2 ^ 70 + b2n i.late * 8 +
    b2n f.atEntry * 4 + b2n i.tagLost * 2

/-- Does this module post through a manager's rings (R324)? -/
def State.isWorker (s : State) : Bool :=
  match s.fab.role with
  | .serving | .spare | .standby | .joining | .fenced => true
  | _ => false

/-- Queue an entry for the box's completion or dead-letter ring; a worker sends it to the manager (R315, R324). -/
def State.post (s : State) (i : Item) (dead : Bool) (body : Nat) : State :=
  if s.isWorker then s.sendMsg s.fab.manager 2 (.result i.box i.tag dead (leBytes (if dead then 64 else 32) body))
  else
    s.modBox i.box (fun b =>
      if dead then { b with dlqWait := b.dlqWait ++ [{ item := some i.id, body := body }] }
      else { b with cqWait := b.cqWait ++ [{ item := some i.id, body := body }] })

/-! ### Step reports (R23) -/

def Item.reportWord (i : Item) (s : State) (e : Entry) : Nat :=
  let p := (s.place? e.stream).getD { stream := 0, group := 0, place := 0 }
  let reason := match e.st with
    | .failed f => f.reason.code
    | .committed | .paused => 0
    | _ => match i.wide, i.disp with
      | some f, _ => f.reason.code
      | none, some (.failed f) => f.reason.code
      | none, _ => 0
  let a := e.after.getD (p.stepCount, p.faulted)
  a.1 * 2 ^ 32 + p.lineage * 2 ^ 16 + reason * 256 + b2n e.pinned * 4 + b2n a.2 * 2 + b2n e.drift

/-- The step reports written to the item's report area, in entry order (R23). -/
def State.writeReports (s : State) (i : Item) : State :=
  if i.reportVa = 0 then s
  else s.writeBox i.box i.reportVa ((i.entries.map (fun e => leBytes 8 (i.reportWord s e))).flatten)

/-! ### Dispositions (R363) -/

/-- The exposure buffers of the item's cores take its tag once (R379). -/
def Core.expose (c : Core) (tag : W64) : Core :=
  if c.exposure.length < 65536 then { c with exposure := c.exposure ++ [tag] }
  else { c with exposure := c.exposure.drop 1 ++ [tag], exposureOverflow := true }

def State.exposeAll (s : State) (i : Item) : State :=
  { s with cores := s.cores.zipIdx.map (fun p => if i.coreMask.contains p.2 then p.1.expose i.tag else p.1) }

/-- Is any collection declared in this round (R255)? -/
def State.anyCollection (s : State) : Bool := s.time.collections.any (·.isSome)

/-- Posting the entry of a resolved item, unless it is held for a collection or for mirrors (R142, R255, R315). -/
def State.postItem (s : State) (id : Nat) : State :=
  match s.item? id with
  | none => s
  | some i =>
    match i.disp with
    | none => s
    | some (.failed f) => s.post i true (i.deadLetter f)
    | some (.done drift) => if i.heldCollection ∨ i.mirrorWait ≠ [] then s else s.post i false (i.completion drift)

/-- Record a disposition: once, and never changed (R363). Reports are written first (R23), the tag joins the exposure
buffers (R379), a KERNEL's loaded copies are released (R115), counters advance, and the entry is posted or held. -/
def State.resolve (s : State) (id : Nat) (d : Disp) : State :=
  match s.item? id with
  | none => s
  | some i =>
    if i.disp.isSome then s else
    let s := s.writeReports { i with disp := some d }
    let done := match d with | .done _ => true | .failed _ => false
    let hold := done && i.collect && s.anyCollection
    let s := s.modItem id (fun i => { i with
      disp := some d, state := .resolved, dispRound := s.roundNow, dispPhase := s.phase, list := []
      heldCollection := hold })
    let s := s.exposeAll i
    let s := s.bump .hub 0 6 1
    let s := match d with
      | .done _ => (s.bump .box i.box 1 1).bump .box i.box 4 (b2n i.late)
      | .failed f => (s.bump .box i.box 2 1).bump .box i.box 3 (b2n (decide (f.reason = Reason.deadline)))
    -- an OPEN_GROUP that fails leaves nothing of its group (R18)
    let s := match d, i.kind, i.group with
      | .failed _, 0x01, some g => if s.groups.any (fun x => x.index == g && !x.prefillDone) then s.releaseGroup g else s
      | _, _, _ => s
    s.postItem id

/-- Order in which item-wide events that meet decide (R363). -/
def Reason.wideRank : Reason → Nat
  | .moduleLost => 0 | .supplyReset => 1 | .coreFenced => 2 | .fwRestart => 3 | .deadline => 4 | .watchdog => 5
  | .aborted => 6 | .boxDisabled => 7 | _ => 8

/-- Fail an item as a whole (R22, R363): its instances stop, streams begun and not committed become FAULTED, and the
disposition is recorded at once. An item that is RESOLVED keeps its own. -/
def State.failItem (s : State) (id : Nat) (f : Fail) : State :=
  match s.item? id with
  | none => s
  | some i =>
    if i.disp.isSome then s else
    let s := s.stopItem id
    -- uncommitted steps lose their pins; those that had begun leave their streams FAULTED (R22, R138)
    let s := if i.opEnd then s
      else if i.isStep then i.unsettled.foldl (fun (s : State) e =>
        let s := s.leaveStep e false
        if e.begun then s.faultStream e.stream else s) s
      else if i.kind = 0x02 then i.sources.foldl (fun (s : State) t => (s.unpin t).modPlace t (fun p =>
        { p with held := if i.took ∧ p.residency = .resident then false else p.held })) s
      else s
    let s : State := { s with arenaWait := s.arenaWait.filter (fun w => w.1 != id) }
    let s := s.modItem id (fun i => { i with wide := some f })
    s.resolve id (.failed f)

/-- Fail every item of a list as a whole. -/
def State.failItems (s : State) (ids : List Nat) (f : Fail) : State := ids.foldl (fun s id => s.failItem id f) s

/-- Open items of a box, and those that have begun (R258). -/
def State.openItems (s : State) (b : Nat) : List Item := s.items.filter (fun i => i.box == b && i.disp.isNone)

/-! ### Quotas (R266) -/

def mib : Nat := 2 ^ 20
def gib : Nat := 2 ^ 30

/-- Bytes of a slot: SLOT_UNITS of 4 KiB (R121, R124). -/
def Group.slotSize (g : Group) : Nat := g.slotUnits * 4096

def State.groupsOf (s : State) (b : Nat) : List Group := s.groups.filter (fun g => g.box == b)

def State.usePlaces (s : State) (b : Nat) : Nat := ((s.groupsOf b).map (fun g => g.streams.length)).sum
def State.useGroups (s : State) (b : Nat) : Nat := (s.groupsOf b).length
def State.useArena (s : State) (b : Nat) : Nat :=
  (s.places.filterMap (fun p => match p.arena, s.group? p.group with
    | some _, some g => if g.box = b then some g.slotSize else none
    | _, _ => none)).sum
def State.usePoste (s : State) (b : Nat) : Nat :=
  ((s.groupsOf b).map (fun g => g.streams.length * g.slotSize)).sum
def State.useCodebooks (s : State) (b : Nat) : Nat :=
  (s.cb.slots.filter (fun c => c.st != .empty && c.owner == b)).length
def State.useItems (s : State) (b : Nat) : Nat := (s.items.filter (fun i => i.box == b && i.charged)).length

/-- Bytes of a loaded copy: code, data, tensors and chains of its kernels (R115). -/
def Kernel.bytes (k : Kernel) : Nat :=
  256 + k.code.length + k.data.length + 64 * k.tensors.length + 16 * k.chains.length
def KEntry.bytes (e : KEntry) : Nat := e.kernel.bytes + (match e.variant with | some v => v.bytes | none => 0)
def listBytes (l : List KEntry) : Nat := (l.map KEntry.bytes).sum
def State.useLoaded (s : State) (b : Nat) : Nat :=
  ((s.groupsOf b).map (fun g => listBytes g.prefill + listBytes g.step + listBytes g.backward)).sum +
    ((s.items.filter (fun i => i.box == b)).map (fun i => listBytes i.list)).sum
/-- Bytes of a place's list area: its directory and one list for each layer (R155, R157). -/
def Place.listArea (p : Place) : Nat :=
  if p.dirs.isEmpty then 0 else 8192 + (p.dirs.map (fun d => 8 * 2 ^ d.ringLog2)).sum

/-- Bytes of pool pages and list areas in use (R151, R157, R266). -/
def State.usePool (s : State) (b : Nat) : Nat :=
  ((s.pages.filter (fun p => p.box == b)).map (·.run)).sum +
    ((s.places.filter (fun p => s.boxOfPlace p == b)).map Place.listArea).sum

end Sys2Proof.Machine
end

