-- ==== Sys2Proof/Machine/Answers.lean ====
section
/-! DEFINITION. What the module sends to the host: PBP responses (R317 to R320), entries of the completion and dead-letter
rings and notices (R309, R313 to R316). -/

namespace Sys2Proof.Machine

def State.setHost (s : State) (f : HostSt → HostSt) : State := { s with host := f s.host }

def State.session? (s : State) (n : Nat) : Option Session := s.host.sessions.find? (fun k => k.num == n)

def State.modSession (s : State) (n : Nat) (f : Session → Session) : State :=
  s.setHost (fun h => { h with sessions := h.sessions.map (fun k => if k.num = n then f k else k) })

/-- SEQ `q` is answered: the in-order SEQ moves on as far as it can. -/
def Session.noteSeq (k : Session) (q : Nat) : Session :=
  let all := q :: k.ahead
  let high := all.foldl (fun h _ => if all.contains (h + 1) then h + 1 else h) k.highSeq
  { k with highSeq := high, ahead := all.filter (fun a => decide (high < a)) }

/-- The request with SEQ `q` has been answered. -/
def Session.answered (k : Session) (q : Nat) : Bool := decide (q ≤ k.highSeq) || k.ahead.contains q

/-- Answer a request: the response goes out and is kept among the session's last 64 (R320). -/
def State.respond (s : State) (session seq status : Nat) (payload : List Byte) : State :=
  let s := (s.bump .hostif 0 1 1).emit (.pbp session seq status payload)
  s.modSession session (fun k => { k.noteSeq seq with store := ((seq, status, payload) :: k.store).take 64 })

/-! ### Rings in host memory -/

def BoxSt.outRing (x : BoxSt) (dead : Bool) : Option OutRing := if dead then x.dlq else x.cq
def BoxSt.counts (x : BoxSt) (dead : Bool) : RingCounts := if dead then x.dlqN else x.cqN
def BoxSt.waits (x : BoxSt) (dead : Bool) : List PostEntry := if dead then x.dlqWait else x.cqWait
def BoxSt.sent (x : BoxSt) (dead : Bool) : List PostEntry := if dead then x.dlqSent else x.cqSent

def BoxSt.setCounts (x : BoxSt) (dead : Bool) (n : RingCounts) : BoxSt :=
  if dead then { x with dlqN := n } else { x with cqN := n }

/-- The lists of entries that wait and of entries sent. -/
def BoxSt.setLists (x : BoxSt) (dead : Bool) (waits sent : List PostEntry) : BoxSt :=
  if dead then { x with dlqWait := waits, dlqSent := sent } else { x with cqWait := waits, cqSent := sent }

/-- CONNECT's role of a requester connection (log 40). -/
def roleRequester : Nat := 1

/-- A requester connection of the box is open (R306, R309). -/
def State.requester (s : State) (b : Nat) : Bool := s.host.conns.any (fun c => c.box == b && c.role == roleRequester)

/-- PHASE of the entry that a ring takes next (R313): 1 on the first pass, then alternating. -/
def ringPhase (size written : Nat) : Nat := (written / max size 1 + 1) % 2

/-- Write the next waiting entry into a released slot (R315); a full ring makes it wait. -/
def State.writeEntry (s : State) (b : Nat) (dead : Bool) : State :=
  let x := s.box b
  let n := x.counts dead
  match x.outRing dead, x.waits dead with
  | some r, e :: rest =>
    if !s.requester b then s
    else if r.size ≤ (n.written + 2 ^ 32 - n.head) % 2 ^ 32 then
      s.modBox b (fun x => x.setCounts dead { n with fullSince := n.fullSince.or (some s.time.t) })
    else
      let bytes := leBytes (if dead then 64 else 32) (e.body + ringPhase r.size n.written)
      let s := s.modBox b (fun x => (x.setLists dead rest (x.sent dead ++ [e])).setCounts dead { n with
        written := (n.written + 1) % 2 ^ 32, posted := n.posted + 1, fullSince := none })
      let s := s.bump .hostif 0 14 (match n.fullSince with | some t => s.time.t - t | none => 0)
      ((s.bump .hostif 0 (if dead then 13 else 12) 1).bump .hostif 0 1 1).emit (.entry b dead (n.written % max r.size 1) bytes)
  | _, _ => s

/-- Write every waiting entry for which there is a slot; `fuel` bounds them. -/
def State.writeAll : Nat → State → Nat → Bool → State
  | 0, s, _, _ => s
  | fuel + 1, s, b, dead => State.writeAll fuel (s.writeEntry b dead) b dead

/-- Send a notice at once (R316): box, ring and the entries posted since the last one. -/
def State.sendNotice (s : State) (b : Nat) (dead : Bool) : State :=
  let n := (s.box b).counts dead
  if (((s.box b).outRing dead).isNone ∨ !s.requester b) then s
  else
    let s := s.modBox b (fun x => x.setCounts dead { n with posted := 0, lastNotice := some s.time.t })
    ((s.bump .hostif 0 15 1).bump .hostif 0 1 1).emit
      (.notice b dead (b * 2 ^ 26 + b2n dead * 2 ^ 24 + n.posted % 2 ^ 24))

end Sys2Proof.Machine
end

