-- ==== Sys2Proof/Machine/Reset.lean ====
section
/-! DEFINITION. Cores leaving service (R371, R373, R409), grants returned (R403), the flush on a hold-up (R364, R394) and
a module reset (R345, R348, R411). -/

namespace Sys2Proof.Machine

/-! ### Cores -/

/-- The queued instances of a core return to placement (R262, R373, R409). -/
def State.unplaceQueue (s : State) (c : Nat) : State :=
  let q := (s.core c).queue
  let s := q.foldl (fun s i => s.modEntry i.item i.entry (fun e => { e with again := e.again ++ [i.idx] })) s
  s.modCore c (fun k => { k with queue := [], chain := none })

/-- A core's grant returned (R403): its request leaves the queue too. -/
def State.returnGrant (s : State) (c : Nat) : State :=
  { s with pwr := { s.pwr with grants := s.pwr.grants.filter (fun g => g.core != c)
                               queue := s.pwr.queue.filter (fun g => g.core != c) } }

/-- A core held in reset keeps only what outlives it; its incarnation advances (R371, R409). -/
def Core.takeDown (c : Core) (st : CoreSt) : Core :=
  { (c.clearRun) with
    state := st
    incarnation := (c.incarnation + 1) % 65536
    lastBox := none
    ramp := .off, groups := 0, rampForced := false, shadowReady := false
    lab := [], slice := none, quietHold := false, hold := false }

/-- Item that runs on a core, or whose handoff chain is in progress there (R104). -/
def State.itemOn (s : State) (c : Nat) : List Nat :=
  match (s.core c).run, (s.core c).chain with
  | some i, _ => [i.item]
  | none, some i => [i.item]
  | none, none => []

/-- Take a core out: its running item fails with `f`, its queue returns to placement, its window copies are dropped,
and it is held in state `st` under the next incarnation (R373 steps 1 to 4, R409 steps 1 to 3). -/
def State.takeOut (s : State) (c : Nat) (st : CoreSt) (f : Fail) : State :=
  let ids := s.itemOn c
  let s := ids.foldl (fun (s : State) id => s.noteCore id c) (s.chargeRun c)
  let s := s.modCore c (fun k => k.takeDown st)
  let s := s.unplaceQueue c
  let s := s.returnGrant c
  let s := { s with places := s.places.map (fun (p : Place) =>
    if p.windowCore = some c then { p with windowCore := none, window := none } else p) }
  let s := { s with poolWait := s.poolWait.filter (fun w => w.1 != c) }
  s.failItems ids f

/-- Logical numbers that map to a core left unmapped (R374). -/
def State.unmapCore (s : State) (c : Nat) : State :=
  match s.logical c with
  | none => s
  | some l =>
    (s.setField .hub 0 (Reg.hub_coreMap + 4 * (l / 4)) (8 * (l % 4) + 7) (8 * (l % 4)) 0xFF).event
      { pageRec .hub 0 0x0103 .error with unit := c, a := l }

/-! ### Flush and reset -/

/-- Records that the mirror does not hold, newest first. -/
def Recorder.unmirrored (r : Recorder) : List Record := r.ring.filter (fun x => decide (r.mirrorNext ≤ x.postmark))

/-- Records accepted from the queue: postmark, epoch and position assigned, the ring written (R386, R387, R392). -/
def State.acceptRecord (s : State) (r : Record) : State :=
  let l := s.log
  let r := { r with postmark := l.next, epoch := s.fab.epoch, pos := s.pos }
  ({ s with log := { l with
      ring := (r :: l.ring).take 1048576
      next := l.next + 1 } }).bump .log 0 0 1

/-- Write the mirror: every record it lacks, with a reservation (R393). -/
def State.mirrorWrite (s : State) (closing : Bool) : State :=
  let l := s.log
  let new := l.unmirrored
  let lost := (l.next - l.mirrorNext) - new.length
  let s := { s with log := { l with
      mirror := (new ++ l.mirror).take 4194304
      mirrorNext := l.next
      reserve := (l.next - 1) + 2 ^ 32
      hasMirror := true
      closed := closing && decide (lost = 0)
      behind := false, held := false } }
  (s.bump .log 0 2 new.length).bump .log 0 3 lost

/-- The recorder's last write of a life: RECORDER_FLUSH, then the unmirrored records (R394). -/
def State.flushRecorder (s : State) : State :=
  let s := s.log.queue.foldl State.acceptRecord s
  let s := { s with log := { s.log with queue := [], accepting := false } }
  let s := s.acceptRecord { pageRec .log 0 0x0003 .notice with a := s.log.next - 1 }
  s.mirrorWrite true

/-- Stop every instance without commit (R345 step 3, R411 step 3). -/
def State.stopAll (s : State) : State := (List.range 68).foldl State.stopInstance s

/-- Entries that the next start posts for items open in the flushed ledger (R345 step 8). -/
def State.lostEntries (s : State) (b : Nat) : List PostEntry :=
  (s.items.filter (fun i => i.box == b && i.state != .posted)).map (fun i =>
    match i.disp with
    | some (.failed f) => { item := none, body := i.deadLetter f }
    | _ => { item := none, body := i.deadLetter { reason := .moduleLost, pos := some s.pos } })

/-- A reset of the module (R345 step 5, R293 step 4, R411): everything but flash, the mirror, the field record and the
ledger's flush goes back to its reset value; straps are read again (R449). `alone`: the module posts its own lost items
(a manager without a standby). -/
def State.moduleReset (s : State) (cause : Nat) (on : Bool) : State :=
  let r := State.reset
  let alone := !s.isWorker && s.fab.standby.isNone
  { r with
    pending := s.pending, outbox := s.outbox, freeCount := s.freeCount
    stepping := s.stepping, order := s.order
    pins := { s.pins with strapMgr := s.pins.mgrSel, strapPos := s.pins.posId.toNat }
    boxes := r.boxes.zipIdx.map (fun p => if alone then { p.1 with dlqWait := s.lostEntries p.2 } else p.1)
    tier := { r.tier with
      flash := s.tier.flash, flashPoison := s.tier.flashPoison, state := s.tier.state, wearPct := s.tier.wearPct
      spare := s.tier.spare, blockReads := s.tier.blockReads, retired := s.tier.retired }
    log := { r.log with
      mirror := s.log.mirror, hasMirror := s.log.hasMirror, reserve := s.log.reserve, closed := s.log.closed
      mirrorNext := s.log.mirrorNext }
    sec := { r.sec with field := s.sec.field }
    fab := { r.fab with joinFails := [] }
    pwr := { r.pwr with cause := cause, regulators := on, inputMv := s.pwr.inputMv } }

/-- LEAVING, instances stopped, recorder and ledger flushed (R345 steps 2 to 4, R411 steps 2 to 4). -/
def State.leave (s : State) : State :=
  let s := s.floodMsg (.leaving s.pos)
  (s.stopAll).flushRecorder

/-- Shutdown on the 1 ms hold-up (R411): INPUT_SHUTDOWN, LEAVING, stop, flush, regulators off. The cause is flushed
with the ledger (R443). -/
def State.shutdown (s : State) (cause mv : Nat) : State :=
  let s := s.event { pageRec .supply 0 0x0B03 .error with b := mv }
  (s.leave).moduleReset cause false

end Sys2Proof.Machine
end

