-- ==== Sys2Proof/Machine/Power.lean ====
section
/-! DEFINITION. Power: the franking arbiter (R401 to R406), ramps (R46, R47), core rails (R407 to R410), the 48 V input
(R411), thermal limits (R412, R413), start and stop of the regulators (R458), die-to-die links (R444). -/

namespace Sys2Proof.Machine

/-! ### Stamps (R401, R402) -/

/-- BUDGET as FRANK_BUDGET's limits give it (R415). -/
def clampBudget (n : Nat) : Nat := min (max n 4800) 9600

/-- FRANK_BASE (R401). -/
def State.base (s : State) : Nat := s.field .frank 0 Reg.frank_frankBase 15 0

/-- The thermal factor in percent, with the inlet's cap (R412). -/
def Power.factorPct (p : Power) : Nat := if p.inletCap then min (10 * p.factor) 75 else 10 * p.factor

/-- EFFECTIVE (R401). -/
def Power.effective (p : Power) : Nat :=
  let e := p.budget
  let e := if p.dipCut ∨ p.openSensors ≠ [] then min e (p.budget * 3 / 4) else e
  let e := min e (p.budget * p.factorPct / 100)
  if p.inputWarning then min e 4800 else e

/-- GRANTED: the sum of the grants held (R401). -/
def Power.granted (p : Power) : Nat := (p.grants.map (·.stamps)).sum

/-- Stamps that core `c` holds. -/
def Power.heldBy (p : Power) (c : Nat) : Nat := ((p.grants.filter (fun g => g.core == c)).map (·.stamps)).sum

/-- Cost of a mode: 0 half-row, 1 single-row, 2 dual-row, 3 slice (R402, R416). -/
def State.cost (s : State) (mode : Nat) : Nat :=
  match mode with
  | 0 => s.field .frank 0 Reg.frank_frankCost 15 8
  | 1 => s.field .frank 0 Reg.frank_frankCost 23 16
  | 2 => s.field .frank 0 Reg.frank_frankCost 31 24
  | _ => s.field .frank 0 Reg.frank_frankCost 7 0

/-- Does a request of `n` stamps fit (R403)? -/
def State.fits (s : State) (n : Nat) : Bool := decide (s.base + s.pwr.granted + n ≤ s.pwr.effective)

def State.setPwr (s : State) (f : Power → Power) : State := { s with pwr := f s.pwr }

/-- Hold a grant (R403). -/
def State.giveGrant (s : State) (g : Grant) : State :=
  let s := s.setPwr (fun p => { p with grants := g :: p.grants })
  (s.bump .frank 0 0 1).peak .frank 0 4 s.pwr.granted

/-- A core's request: the difference to what it holds; granted at once where the queue is empty and it fits, else
queued in arrival order (R403). -/
def State.requestGrant (s : State) (c mode : Nat) : State :=
  let need := s.cost mode - s.pwr.heldBy c
  if need = 0 ∨ s.pwr.queue.any (fun g => g.core == c) then s
  else
    let g : Grant := { core := c, stamps := need, slice := decide (mode = 3) }
    if s.pwr.queue.isEmpty ∧ s.fits need then s.giveGrant g
    else (s.setPwr (fun p => { p with queue := p.queue ++ [g] })).bump .frank 0 1 1

/-- GRANT_REQUEST (R403). -/
def execGrantRequest (core mode : Nat) (s : State) : Ans :=
  .next (s.when (decide (core < 68 ∧ mode < 4 ∧ (s.core core).state ≠ .fenced ∧ (s.core core).state ≠ .reset))
    (s.requestGrant core mode))

/-- QUEUED_GRANT (R403): the oldest queued request, once it fits. -/
def execQueuedGrant (s : State) : Ans :=
  match s.pwr.queue with
  | [] => .next s
  | g :: q => .next (if s.fits g.stamps then (s.setPwr (fun p => { p with queue := q })).giveGrant g else s)

/-- Mark grants revoked, latest first, until the sum of the others fits; slices' grants stay (R405). -/
def revokeList (excess : Nat) : List Grant → List Grant
  | [] => []
  | g :: l =>
    if excess = 0 then g :: l
    else if g.slice ∨ g.revoked then g :: revokeList excess l
    else { g with revoked := true } :: revokeList (excess - g.stamps) l

/-- Stamps of the grants that are not revoked. -/
def Power.standing (p : Power) : Nat := ((p.grants.filter (fun g => !g.revoked)).map (·.stamps)).sum

/-- GRANT_REVOKE (R405): the cores of the grants revoked ramp down; one that is ramping up reverses. -/
def State.revoke (s : State) : State :=
  let excess := (s.base + s.pwr.standing) - s.pwr.effective
  let grants := revokeList excess s.pwr.grants
  let hit := (List.zipWith (fun (a b : Grant) => if !a.revoked && b.revoked then some b.core else none) s.pwr.grants grants).filterMap id
  let s := s.setPwr (fun p => { p with grants := grants })
  let s := hit.foldl (fun s c => s.modCore c (fun k =>
    if k.ramp = .off then k else { k with ramp := .down, rampForced := true })) s
  s.bump .frank 0 3 hit.length

def execGrantRevoke (s : State) : Ans := .next s.revoke

/-! ### Ramp (R46, R47) -/

/-- MXE_RAMP_UP: with its grant held, the ramp goes on to `groups` lane groups, FULL at 8 (R46). -/
def execMxeRampUp (core groups : Nat) (s : State) : Ans :=
  let k := s.core core
  .next (s.when (decide (core < 68 ∧ 1 ≤ groups ∧ groups ≤ 8 ∧ k.groups < groups ∧ (k.ramp = .off ∨ k.ramp = .up) ∧
      0 < s.pwr.heldBy core ∧ (k.state = .running ∨ k.state = .draining)))
    (let s := s.modCore core (fun k => { k with ramp := if groups = 8 then .full else .up, groups := groups })
     s.when (decide (k.ramp = .off)) (s.bump .mxe core 5 1)))

/-- MXE_RAMP_DOWN (R47): begun by the idle count or a cut, or going on to `groups` lane groups. -/
def execMxeRampDown (core groups : Nat) (s : State) : Ans :=
  let k := s.core core
  .next (s.when (decide (core < 68 ∧ groups < k.groups ∧
      (k.ramp = .down ∨ (k.ramp = .full ∧ k.mxeQ.any MxeOp.isMul = false))))
    (s.modCore core (fun k => { k with ramp := .down, groups := groups })))

/-- MXE_RAMP_OFF (R47, R403): the stamps are returned; a core whose grant was revoked requests again behind the
queue. -/
def execMxeRampOff (core : Nat) (s : State) : Ans :=
  let k := s.core core
  .next (s.when (decide (core < 68 ∧ k.ramp = .down ∧ k.groups = 0))
    (let again := s.pwr.grants.any (fun g => g.core == core && g.revoked)
     let stamps := s.pwr.heldBy core
     let s := s.modCore core (fun k => { k with ramp := .off, rampForced := false })
     let s := s.setPwr (fun p => { p with grants := p.grants.filter (fun g => g.core != core) })
     s.when (again && (k.run.isSome))
       ((s.setPwr (fun p => { p with queue := p.queue ++ [{ core := core, stamps := stamps }] })).bump .frank 0 1 1)))

/-- MXE_RAMP_REVERSE (R47): an MXMUL during an idle ramp-down reverses it from the present lane group, without a new
grant. -/
def execMxeRampReverse (core : Nat) (s : State) : Ans :=
  let k := s.core core
  .next (s.when (decide (core < 68 ∧ k.ramp = .down ∧ k.rampForced = false ∧ k.mxeQ.any MxeOp.isMul = true))
    (s.modCore core (fun k => { k with ramp := if k.groups = 8 then .full else .up })))

/-! ### Budget moves (R406) -/

/-- MOVE_MAX (R415). -/
def State.moveMax (s : State) : Nat := min (s.field .frank 0 Reg.frank_frankMoveCtrl 15 0) 4800

/-- Need of this module from its latched counters (R406 step 1). -/
def State.ownNeed (s : State) : Nat :=
  s.base + (cellGet 0 s.ctr.latched (ctrKey .frank 0 4)).toNat +
    (if cellGet 0 s.ctr.latched (ctrKey .frank 0 1) = 0 then 0 else 400)

/-- Needs of the members: another module's latched counters are its own, so its need is a free value here. -/
def State.needs (s : State) : List (Nat × Nat × Nat) :=
  ((List.range 64).zip s.fab.members).filterMap (fun p =>
    if p.2 = .serving ∨ p.2 = .spare then
      (if p.1 = s.pos then some (p.1, s.pwr.budget, s.ownNeed)
       else some (p.1, cellGet 9600 s.fab.budgets p.1, Config.freeChoice (s.freeCount + p.1)))
    else none)

/-- Set a module's BUDGET for the next boundary: flooded, and written here where it is this module's. -/
def State.sendBudget (s : State) (p stamps : Nat) : State :=
  let s := s.floodMsg (.budget p stamps)
  if p = s.pos then s.setField .frank 0 Reg.frank_frankBudget 15 0 stamps else s

/-- The increases of step 3, within FRANK_SYS_BUDGET. -/
def raiseBudgets (move : Nat) : Nat → List (Nat × Nat × Nat) → List (Nat × Nat)
  | _, [] => []
  | room, (p, b, n) :: l =>
    let up := min (min move (n - b)) (min room (9600 - b))
    if up = 0 then raiseBudgets move room l else (p, b + up) :: raiseBudgets move (room - up) l

/-- BUDGET_MOVE (R406): the decreases of step 2, or, once every decrease has been reported, the increases of step 3. -/
def execBudgetMove (s : State) : Ans :=
  if s.fab.role ≠ .manager ∨ bit (s.regN .frank 0 Reg.frank_frankMoveCtrl) 31 then .next s
  else
    let ns := s.needs
    let s := { s with freeCount := s.freeCount + 64 }
    let down : List (Nat × Nat) := ns.filterMap (fun x =>
      if x.2.2 + 400 < x.2.1 then some (x.1, max 4800 (x.2.1 - min s.moveMax (x.2.1 - x.2.2))) else none)
    if s.pwr.decreasing.isEmpty && !down.isEmpty then
      let s := down.foldl (fun s d => s.sendBudget d.1 d.2) s
      .next (s.setPwr (fun p => { p with decreasing := down.filter (fun d => d.1 != s.pos) }))
    else if s.pwr.decreasing.all (fun d => cellGet 0 s.fab.budgets d.1 == d.2) then
      let total := (ns.map (·.2.1)).sum
      let room := s.field .frank 0 Reg.frank_frankSysBudget 19 0 - total
      let s := (raiseBudgets s.moveMax room ns).foldl (fun s d => s.sendBudget d.1 d.2) s
      .next (s.setPwr (fun p => { p with decreasing := [] }))
    else .next s

/-- What a round boundary does to the budget (R401, R406, R408): BUDGET takes FRANK_BUDGET, and a cut set by a long dip
holds for this round. -/
def State.powerBoundary (s : State) : State :=
  let old := s.pwr.budget
  let new := clampBudget (s.field .frank 0 Reg.frank_frankBudget 15 0)
  let before := s.pwr.effective
  let s := s.setPwr (fun p => { p with
    budget := new, dipCut := p.dipNext, dipNext := false
    rails := p.rails.map (fun r => { r with lowest := r.now }) })
  let s := s.when (decide (old ≠ new)) (s.event { pageRec .frank 0 0x0B05 .info with a := old, b := new })
  if s.pwr.dipCut then
    (s.bump .frank 0 5 1).event { pageRec .frank 0 0x0B04 .warning with a := before, b := s.pwr.effective }
  else s

/-! ### Core rails (R407 to R410) -/

/-- RAIL_WARNING (R407): the die's clock period doubles while RAIL_k reads WARNING. -/
def execRailWarning (die millivolt : Nat) (s : State) : Ans :=
  .next (s.when (decide (die < 4 ∧ (s.rail die).st = .ok))
    ((s.modRail die (fun r => { r with st := .warning, now := millivolt, lowest := millivolt })).changed .supply 0))

/-- RAIL_WARNING_EXIT (R408). -/
def execRailWarningExit (die lowestMv durationNs : Nat) (s : State) : Ans :=
  .next (s.when (decide (die < 4 ∧ (s.rail die).st = .warning))
    (let s := (s.modRail die (fun r => { r with st := .ok, lowest := lowestMv, long := false })).changed .supply 0
     let s := (s.bump .supply 0 0 1).bump .supply 0 1 durationNs
     s.event { pageRec .supply 0 0x0B00 .warning with a := die, b := lowestMv, c := durationNs }))

/-- LONG_DIP (R408): a cut for the next round. -/
def execLongDip (die : Nat) (s : State) : Ans :=
  .next (s.when (decide (die < 4 ∧ (s.rail die).st = .warning ∧ (s.rail die).long = false))
    (let s := s.modRail die (fun r => { r with long := true })
     (s.setPwr (fun p => { p with dipNext := true })).bump .supply 0 2 1))

/-- Cores of a die. -/
def dieCores (d : Nat) : List Nat := (List.range 17).map (fun i => 17 * d + i)

/-- Steps 1 to 4 of R409 on a die whose rail now reads `st`. -/
def State.dropDie (s : State) (d : Nat) (st : Rail) : State :=
  let s := (s.modRail d (fun r => { r with st := st })).changed .supply 0
  let s := (dieCores d).foldl (fun s c => if (s.core c).state = .fenced then
      s.modCore c (fun k => { k with incarnation := (k.incarnation + 1) % 65536 })
    else s.takeOut c .reset { reason := .supplyReset }) s
  { s with fw := { s.fw with tasks := s.fw.tasks ++ [{ cls := 1, what := 8, arg := d }] } }

/-- DIE_SUPPLY_RESET (R409): a third within 60 minutes leaves the rail HELD and the die's logical numbers unmapped. -/
def execDieSupplyReset (die lowestMv : Nat) (s : State) : Ans :=
  .next (s.when (decide (die < 4 ∧ ((s.rail die).st = .ok ∨ (s.rail die).st = .warning)))
    (let recent := (s.rail die).resets.filter (fun t => decide (s.time.t < 3600000000000 + t))
     let held := decide (2 ≤ recent.length)
     let s := s.modRail die (fun r => { r with resets := s.time.t :: recent, lowest := lowestMv, now := lowestMv, long := false })
     let s := s.dropDie die (if held then .held else .reset)
     let s := (s.bump .supply 0 3 1).event { pageRec .supply 0 0x0B01 .error with a := die, b := lowestMv }
     s.when held ((dieCores die).foldl State.unmapCore s)))

/-- DIE_RESET_RELEASE (R409 steps 5 and 6): cores that pass the full self-test serve again, those that fail are
fenced. -/
def execDieResetRelease (die : Nat) (passed : BitVec 17) (s : State) : Ans :=
  .next (s.when (decide (die < 4 ∧ (s.rail die).st = .reset))
    (let s := (s.modRail die (fun r => { r with st := .ok })).changed .supply 0
     (List.range 17).foldl (fun s i =>
       let c := 17 * die + i
       if passed.getLsbD i then
         s.modCore c (fun k => if k.state = .reset then
           { k with state := if (s.logical c).isSome then .idle else .drained, lastPass := some s.roundNow, exposure := []
                    exposureOverflow := false } else k)
       else
         let old := (s.core c).incarnation
         let s := s.takeOut c .fenced { reason := .coreFenced }
         let s := s.modCore c (fun k => { k with timesFenced := k.timesFenced + 1, fenceCause := 1 })
         s.event { pageRec .ctl c 0x0101 .error with a := old, b := (s.core c).incarnation, c := 1 }) s))

/-- RAIL_SHORT (R410): a core rail (0 to 3) is turned off and its die held; any other turns the module off. -/
def execRailShort (rail : Nat) (s : State) : Ans :=
  if rail < 4 then
    .next (s.when (decide ((s.rail rail).st ≠ .short))
      (let s := s.dropDie rail .short
       s.event { pageRec .supply 0 0x0B07 .error with a := rail }))
  else
    let s := s.event { pageRec .supply 0 0x0B07 .error with a := rail }
    .next (s.shutdown 1 s.pwr.inputMv)

/-! ### The 48 V input (R411) and the regulators (R458) -/

/-- INPUT_WARNING (R411). -/
def execInputWarning (millivolt : Nat) (s : State) : Ans :=
  .next (s.when (decide (millivolt < 40000 ∧ s.pwr.inputWarning = false ∧ s.pwr.regulators = true))
    (let s := s.setPwr (fun p => { p with inputWarning := true, inputMv := millivolt })
     let s := (s.changed .supply 0).bump .supply 0 5 1
     let s := s.event { pageRec .supply 0 0x0B02 .warning with b := millivolt }
     s.revoke))

/-- INPUT_WARNING_EXIT (R411): above 41 V. -/
def execInputWarningExit (millivolt : Nat) (s : State) : Ans :=
  .next (s.when (decide (41000 < millivolt ∧ s.pwr.inputWarning = true))
    ((s.setPwr (fun p => { p with inputWarning := false, inputMv := millivolt })).changed .supply 0))

/-- INPUT_SHUTDOWN (R411): below 36 V, or above 62 V for 100 µs. -/
def execInputShutdown (millivolt : Nat) (s : State) : Ans :=
  .next (s.when (decide ((millivolt < 36000 ∨ 62000 < millivolt) ∧ s.pwr.regulators = true))
    (let s := s.setPwr (fun p => { p with inputMv := millivolt, overvoltage := decide (62000 < millivolt) })
     s.shutdown 1 millivolt))

/-- REVERSED_POLARITY (R411): the input is blocked; the module draws and answers nothing. -/
def execReversedPolarity (s : State) : Ans :=
  .next { s.setPwr (fun p => { p with reversedInput := true, regulators := false }) with
    side := { s.side with addr := none, events := false, result := none } }

/-- REGULATOR_START (R458): the input and PWR_EN have qualified for 100 ms; the straps are read (R449). -/
def execRegulatorStart (millivolt : Nat) (s : State) : Ans :=
  .next (s.when (decide (40000 ≤ millivolt ∧ millivolt ≤ 60000 ∧ s.pins.pwrEn = true ∧ s.pwr.regulators = false))
    { s.setPwr (fun p => { p with regulators := true, reversedInput := false, inputMv := millivolt, overvoltage := false }) with
      pins := { s.pins with strapMgr := s.pins.mgrSel, strapPos := s.pins.posId.toNat } })

/-- PWR_EN_FALL (R458): shut down as for an input below 36 V, with the present input voltage. -/
def execPwrEnFall (s : State) : Ans :=
  let s := { s with pins := { s.pins with pwrEn := false } }
  .next (s.when s.pwr.regulators (s.shutdown 1 s.pwr.inputMv))

/-! ### Thermal limits (R412, R413) -/

/-- THROTTLE (R415). -/
def State.throttle (s : State) : Nat := min (max (s.field .supply 0 Reg.supply_thermCtrl 31 24) 80) 105

/-- Some stack is above 110 °C. -/
def State.hotStack (s : State) : Bool := s.hbm.any (fun k => decide (110 < k.temp))

/-- THERMAL_LIMIT on entering or leaving throttling (R412); the sensor is the hottest one, a free choice here. -/
def State.thermalEvent (s : State) (celsius : Nat) (enter : Bool) : State :=
  let d := s.draw
  d.2.event { pageRec .supply 0 0x0B06 .warning with a := Config.freeChoice d.1, b := celsius, c := b2n enter }

/-- THERMAL_FACTOR_FALL (R412): by 0.1, to no less than 0.5. -/
def execThermalFactorFall (celsius : Nat) (s : State) : Ans :=
  .next (s.when (decide (s.throttle ≤ celsius) || s.hotStack)
    (let entering := !s.pwr.throttling
     let s := s.setPwr (fun p => { p with factor := max 5 (p.factor - 1), throttling := true, hottest := celsius })
     let s := s.when entering (s.thermalEvent celsius true)
     (s.changed .supply 0).revoke))

/-- THERMAL_FACTOR_RISE (R412): by 0.1, to 1.0, at 3 K below THROTTLE with no hot stack. -/
def execThermalFactorRise (celsius : Nat) (s : State) : Ans :=
  .next (s.when (decide (celsius + 3 ≤ s.throttle) && !s.hotStack && decide (s.pwr.factor < 10))
    (let s := s.setPwr (fun p => { p with factor := p.factor + 1, hottest := celsius, throttling := decide (p.factor + 1 < 10) })
     let s := s.changed .supply 0
     s.when (decide (s.pwr.factor = 10)) (s.thermalEvent celsius false)))

/-- TRIP (R417). -/
def State.trip (s : State) : Nat := min (s.field .supply 0 Reg.supply_thermCtrl 23 16) 115

/-- THERMAL_TRIP (R412): any sensor at TRIP, or a regulator at 125 °C. -/
def execThermalTrip (sensor celsius : Nat) (s : State) : Ans :=
  .next (s.when (decide (sensor < 42 ∧ (s.trip ≤ celsius ∨ (38 ≤ sensor ∧ 125 ≤ celsius))))
    (s.shutdown 2 s.pwr.inputMv))

/-- SENSOR_OPEN (R413): excluded; a die whose sensors are all open is treated as at TRIP. -/
def execSensorOpen (sensor : Nat) (s : State) : Ans :=
  .next (s.when (decide (sensor < 42) && !s.pwr.openSensors.contains sensor)
    (let s := s.setPwr (fun p => { p with openSensors := setInsert p.openSensors sensor })
     let s := (s.changed .supply 0).event { pageRec .supply 0 0x0B08 .error with a := sensor }
     let d := sensor / 8
     if sensor < 32 ∧ ((List.range 8).all (fun i => s.pwr.openSensors.contains (8 * d + i))) then
       s.shutdown 2 s.pwr.inputMv
     else s.revoke))

/-- INLET_WARN (R412): the inlet's crossing caps the thermal factor at 0.75 or lifts the cap. -/
def execInletWarn (celsius : Nat) (s : State) : Ans :=
  let s := s.setPwr (fun p => { p with inlet := celsius
                                       inletCap := decide (s.field .supply 0 Reg.supply_thermCtrl 15 8 < celsius) })
  .next (s.changed .supply 0).revoke

/-! ### Die-to-die links (R444) -/

/-- The other link of the pair of link `k`. -/
def pairLink (k : Nat) : Nat := if k % 2 = 0 then k + 1 else k - 1

/-- The far end of link `k` of die `d`: die and link number there; none at the hub (R444). -/
def farLink (d k : Nat) : Option (Nat × Nat) :=
  if k < 2 then none
  else
    let m := (k - 2) / 2
    some ((d + 1 + m) % 4, 2 + 2 * (2 - m) + k % 2)

/-- D2D_LINK_DOWN (R444): both links of a pair DOWN reset the module with cause 0x7. -/
def execD2dLinkDown (die link : Nat) (s : State) : Ans :=
  .next (s.when (decide (die < 4 ∧ link < 8) && !bit (s.pwr.d2d.getD die 0) link)
    (let setDown := fun (l : List Nat) (d k : Nat) => listModify (fun m => m + 2 ^ k) l d
     let d2d := setDown s.pwr.d2d die link
     let d2d := match farLink die link with | some (d, k) => if bit (d2d.getD d 0) k then d2d else setDown d2d d k | none => d2d
     let s := s.setPwr (fun p => { p with d2d := d2d })
     let s := (s.changed .die die).bump .die die 3 1
     let s := s.event { pageRec .die die 0x0407 .warning with a := die, b := link }
     if bit (d2d.getD die 0) (pairLink link) then
       (s.leave).moduleReset 7 true
     else s))

end Sys2Proof.Machine
end

