-- ==== Sys2Proof/Machine/Memory.lean ====
section
/-! DEFINITION. Memory commands: atomics and reductions (R227, R228), regulators (R229), stack temperature (R230),
map-out and evacuation (R231 to R233), the flash tier (R234 to R240). -/

namespace Sys2Proof.Machine

/-! ### Atomics (R227) -/

/-- A 64-bit atomic at a device address: `f` gives the new value; the old one is returned. -/
def State.atomic (s : State) (da : Nat) (f : W64 → W64) : State :=
  match s.home da with
  | .none => s
  | _ =>
    if da % 8 ≠ 0 then s
    else
      let old := BitVec.ofNat 64 (leNat ((List.range 8).map (fun i => s.byteAt (da + i))))
      let bad := s.poisonAt da
      let s := s.memWrite da (leBytes 8 (f old).toNat) (fun _ => bad)
      (s.bump .dcache (homeDie da) 3 1).emit (.atomic old bad)

def execCas (da : Nat) (expected new : W64) (s : State) : Ans :=
  .next (s.atomic da (fun old => if old = expected then new else old))
def execFetchAdd (da : Nat) (addend : W64) (s : State) : Ans := .next (s.atomic da (fun old => old + addend))
def execSwap (da : Nat) (new : W64) (s : State) : Ans := .next (s.atomic da (fun _ => new))

/-! ### Reductions (R228) -/

/-- Element width of a REDUCE code, in bytes. -/
def reduceWidth (code : Nat) : Nat := if code = 5 then 8 else 4

/-- One element combined under a REDUCE code. -/
def reduceOp (code : Nat) (old new : Nat) : Nat :=
  match code with
  | 1 => (fadd (BitVec.ofNat 32 old) (BitVec.ofNat 32 new)).toNat
  | 2 => (fmax (BitVec.ofNat 32 old) (BitVec.ofNat 32 new)).toNat
  | 3 => (fmin (BitVec.ofNat 32 old) (BitVec.ofNat 32 new)).toNat
  | 4 => (old + new) % 2 ^ 32
  | 5 => (old + new) % 2 ^ 64
  | 6 => if sInt 32 old ≤ sInt 32 new then new else old
  | _ => new

/-- Combine the elements of a write within one reduce page, in ascending order; `bad` marks poisoned elements. -/
def State.reducePage (s : State) (b va : Nat) (bytes : List Byte) (bad : Nat → Bool) : State :=
  match s.pte? b va with
  | none => s
  | some e =>
    let code := pteReduce e
    let w := reduceWidth code
    let da := pteDa e + va % pageSize
    (List.range (bytes.length / w)).foldl (fun s i =>
      let a := da + i * w
      let old := leNat ((List.range w).map (fun j => s.byteAt (a + j)))
      let new := leNat ((bytes.drop (i * w)).take w)
      let isBad := s.poisonAt a || bad (i * w)
      (s.memWrite a (leBytes w (reduceOp code old new)) (fun _ => isBad)).bump .dcache (homeDie a) 4 1) s

/-- A write through plain or reduce pages, page by page. -/
def State.storeFuel (fuel : Nat) (s : State) (b va : Nat) (bytes : List Byte) (bad : Nat → Bool) : State :=
  match fuel with
  | 0 => s
  | fuel + 1 =>
    if bytes.isEmpty then s else
    let room := pageSize - va % pageSize
    let red := match s.pte? b va with | some e => pteReduce e != 0 | none => false
    let s := if red then s.reducePage b va (bytes.take room) bad else s.writePage b va (bytes.take room) bad
    State.storeFuel fuel s b (va + room) (bytes.drop room) (fun i => bad (i + room))

def State.storeBox (s : State) (b va : Nat) (bytes : List Byte) (bad : Nat → Bool) : State :=
  State.storeFuel (bytes.length / pageSize + 2) s b va bytes bad

/-- REDUCTION_WRITE (R228): whole, aligned elements through a mapped, writable reduce page. -/
def execReductionWrite (box va : Nat) (data : List Byte) (s : State) : Ans :=
  match s.pte? box va with
  | none => .next s
  | some e =>
    let w := reduceWidth (pteReduce e)
    .next (s.when (pteReduce e != 0 && s.mapped box va data.length true && decide (va % w = 0 ∧ data.length % w = 0))
      (s.storeBox box va data (fun _ => false)))

/-! ### Regulators (R229) -/

def State.regRate (s : State) (d b : Nat) : Nat := s.field .dcache d (Reg.dcache_regRate + 8 * b) 15 0
def State.regBurst (s : State) (d b : Nat) : Nat := max 4 (s.field .dcache d (Reg.dcache_regBurst + 8 * b) 15 0) * 1024

/-- Tokens of a box's bucket now: a bucket not listed is full, and GB/s are bytes per ns. -/
def State.tokensNow (s : State) (d b : Nat) : Int :=
  let k := s.die d
  let cap : Int := s.regBurst d b
  match k.tokens.find? (fun p => p.1 == b) with
  | none => cap
  | some p =>
    let since := (k.tokenAt.find? (fun q => q.1 == b)).map (·.2)
    min cap (p.2 + (s.regRate d b * (s.time.t - since.getD 0) : Nat))

/-- Debit a request of `n` bytes. -/
def State.debit (s : State) (d b n : Nat) : State :=
  let v := s.tokensNow d b - n
  s.modDie d (fun k => { k with
    tokens := (b, v) :: k.tokens.filter (fun p => p.1 != b)
    tokenAt := (b, s.time.t) :: k.tokenAt.filter (fun p => p.1 != b) })

/-- May a request of a box on a die begin: unregulated, tokens at 0 or more, or admitted already? -/
def State.regOpen (s : State) (d b : Nat) : Bool :=
  decide (s.regRate d b = 0) || (s.die d).admitted.contains b || decide (0 ≤ s.tokensNow d b)

/-- A request of `n` bytes begins: debited unless it was when it was admitted. -/
def State.regTake (s : State) (d b n : Nat) : State :=
  if s.regRate d b = 0 then s
  else if (s.die d).admitted.contains b then s.modDie d (fun k => { k with admitted := k.admitted.erase b })
  else s.debit d b n

/-- A refused request waits. -/
def State.regWait (s : State) (d b n : Nat) : State :=
  if (s.die d).waiting.any (fun w => w.1 == b) then s
  else s.modDie d (fun k => { k with waiting := k.waiting ++ [(b, n, s.time.t)] })

/-- REGULATOR_ADMIT (R229): the box's oldest waiting request, once the bucket holds at least 0 tokens. -/
def execRegulatorAdmit (die box : Nat) (s : State) : Ans :=
  match (s.die die).waiting.find? (fun w => w.1 == box) with
  | none => .next s
  | some w =>
    .next (s.when (decide (0 ≤ s.tokensNow die box) || decide (s.regRate die box = 0))
      (let s := s.debit die box w.2.1
       let s := s.modDie die (fun k => { k with waiting := k.waiting.erase w, admitted := box :: k.admitted })
       s.bump .dcache die 5 (s.time.t - w.2.2)))

/-! ### Temperature (R230) -/

/-- Lower bound of a level, °C. -/
def levelFloor (l : Nat) : Nat :=
  match l with | 1 => 85 | 2 => 95 | 3 => 105 | 4 => 110 | _ => 0

/-- Level that a temperature enters from below. -/
def levelOf (t : Nat) : Nat := if t ≤ 85 then 0 else if t ≤ 95 then 1 else if t ≤ 105 then 2 else if t ≤ 110 then 3 else 4

/-- Levels are left 2 K below their lower bound. -/
def levelDown (t : Nat) : Nat → Nat
  | 0 => 0
  | l + 1 => if t + 2 ≤ levelFloor (l + 1) then levelDown t l else l + 1

/-- HBM_TEMP_REPORT (R230). -/
def execHbmTempReport (stack celsius : Nat) (s : State) : Ans :=
  let k := s.stack stack
  let l := max (levelOf celsius) (levelDown celsius k.level)
  .next (s.when (decide (stack < 12))
    (let s := s.modStack stack (fun k => { k with temp := celsius, level := l })
     let s := s.when (l != k.level) (s.changed .hbm stack)
     s.when (decide (l ≠ k.level ∧ 1 ≤ l)) (s.event { pageRec .hbm stack 0x0400 .warning with a := l, b := celsius })))

/-! ### Map-out and evacuation (R231 to R233) -/

def diePages : Nat := dieSpan / pageSize

/-- Device pages that box tables name. -/
def State.mappedPages (s : State) : List Nat :=
  s.boxes.flatMap (fun b => b.pt.filterMap (fun p => if pteValid p.2 then some (pteDa p.2 / pageSize) else none))

def State.pageHeld (s : State) (p : Nat) : Bool :=
  s.held.any (fun r => decide (r.first ≤ p ∧ p < r.first + r.count)) ||
    s.dies.any (fun d => d.redirects.any (fun r => r.target == p) || d.toMove.any (fun r => r.target == p))

def State.pageFree (s : State) (p : Nat) : Bool := !s.pageHeld p && !s.mappedPages.contains p

/-- May a page take a redirected page of die `d` (R232 step 3)? -/
def State.targetOk (s : State) (d p : Nat) : Bool :=
  s.pageFree p && (match s.home (p * pageSize) with
    | .hbm e => e != d && !(s.die e).evacuating
    | .flash => true
    | .none => false)

/-- Firmware's choice of a target: a free choice where it is allowed; none where it finds none. HBM pages come
before flash pages. -/
def State.pickTarget (s : State) (d : Nat) : Option Nat × State :=
  let n := s.draw
  let c := Config.freeChoice n.1
  let hbmLeft := (List.range (4 * diePages)).find? (fun p => s.targetOk d p)
  let flash := (List.range (s.flashSize / pageSize)).find? (fun p => s.targetOk d (flashBase / pageSize + p))
  let inHbm := decide (c < 4 * diePages)
  if s.targetOk d c && (inHbm || hbmLeft.isNone) then (some c, n.2)
  else (match hbmLeft with | some p => some p | none => flash.map (flashBase / pageSize + ·), n.2)

/-- Allocated pages of die range `d` that still lie there: mapped by a box, or held by the device. -/
def State.allocated (s : State) (d : Nat) : List Nat :=
  let held := s.held.flatMap (fun r => (List.range r.count).map (r.first + ·))
  let back := s.dies.flatMap (fun k => k.redirects.map (·.target))
  ((s.mappedPages ++ held ++ back).filter (fun p => decide (p / diePages = d))).dedup.filter
    (fun p => !(s.die d).redirects.any (fun r => r.page == p))

/-- Channels of a die that are mapped out. -/
def State.outCount (s : State) (d : Nat) : Nat := ((List.range 3).map (fun i => (s.stack (3 * d + i)).mappedOut.length)).sum

/-- Choose targets for the pages; evacuation stops where none remains (R232). -/
def State.chooseTargets (s : State) (d : Nat) : List Nat → State
  | [] => s
  | p :: l =>
    let t := s.pickTarget d
    match t.1 with
    | some q => (t.2.modDie d (fun k => { k with toMove := k.toMove ++ [{ page := p, target := q }] })).chooseTargets d l
    | none =>
      (t.2.modDie d (fun k => { k with stopped := true })).event
        { pageRec .dcache d 0x0403 .error with a := l.length + 1 }

/-- Begin a map-out (R231, R232 steps 1 to 3). A ninth failure of a die leaves the channel in service. -/
def State.mapOut (s : State) (stack ch cause : Nat) : State :=
  let d := stack / 3
  let k := s.stack stack
  if 12 ≤ stack ∨ 16 ≤ ch ∨ k.mappedOut.contains ch then s
  else if 8 ≤ s.outCount d then s.event { pageRec .hbm stack 0x0404 .error with unit := 16 * stack + ch, a := d }
  else
    let s := s.modStack stack (fun k => { k with mappedOut := setInsert k.mappedOut ch })
    let s := s.changed .hbm stack
    let s := s.event { pageRec .hbm stack 0x0401 .error with unit := 16 * stack + ch, a := cause }
    let s : State := { s with sec := { s.sec with mapouts := setInsert s.sec.mapouts (16 * stack + ch) } }
    if cause = 4 then s.modDie d (fun k => { k with channels := k.channels - 1 })
    else
      let s := s.modStack stack (fun k => { k with leaving := setInsert k.leaving ch })
      let joined := (s.die d).evacuating
      let s := (s.modDie d (fun k => { k with evacuating := true, pendingOut := k.pendingOut + 1 })).changed .dcache d
      -- pages of other dies that were redirected here are retargeted in the same way
      let s := (List.range 4).foldl (fun s e =>
        if e = d then s else
        let again := ((s.die e).redirects.filter (fun r => decide (r.target / diePages = d))).map (·.page)
        s.chooseTargets e again) s
      if joined then s else s.chooseTargets d (s.allocated d)

/-- CHANNEL_MAPOUT (R232). -/
def execChannelMapout (stack ch cause : Nat) (s : State) : Ans :=
  .next (s.when (decide (1 ≤ cause ∧ cause ≤ 4)) (s.mapOut stack ch cause))

/-- HBM_MAPOUT_GO (R243): the command's map-out. -/
def execHbmMapoutGo (stack ch : Nat) (s : State) : Ans := .next (s.mapOut stack ch 3)

/-- RESOURCE is not restarting (R340). -/
def State.resourceUp (s : State) : Bool := (s.comp 5).st != .restarting

/-- EVACUATION_PAGE_COPY (R232 step 4): the page's redirect entry becomes live. Contents keep their address here: what
is served at the target is what stood at the address. -/
def execEvacuationPageCopy (die page : Nat) (s : State) : Ans :=
  match (s.die die).toMove.find? (fun r => r.page == page) with
  | none => .next s
  | some r =>
    .next (s.when s.resourceUp
      (let s := s.modDie die (fun k => { k with
         toMove := k.toMove.filter (fun x => x.page != page)
         redirects := r :: k.redirects.filter (fun x => x.page != page) })
       (s.bump .dcache die 7 pageSize).changed .dcache die))

/-- EVACUATION_DONE (R232 step 5). -/
def execEvacuationDone (die : Nat) (s : State) : Ans :=
  let k := s.die die
  .next (s.when (decide (die < 4) && k.evacuating && k.toMove.isEmpty && !k.stopped)
    (let s := s.modDie die (fun k => { k with channels := k.channels - k.pendingOut, pendingOut := 0, evacuating := false })
     let s := (List.range 3).foldl (fun s i => s.modStack (3 * die + i) (fun k => { k with leaving := [] })) s
     (s.changed .dcache die).event { pageRec .dcache die 0x0402 .notice with a := (s.die die).channels }))

/-- REDIRECT_COPY_BACK (R233): in a quiet window, a page below the new top goes back. -/
def execRedirectCopyBack (die page : Nat) (s : State) : Ans :=
  let k := s.die die
  .next (s.when (s.time.window.isSome && s.resourceUp && k.redirects.any (fun r => r.page == page) &&
      decide (page - die * diePages < k.channels * 2048))
    ((s.modDie die (fun k => { k with redirects := k.redirects.filter (fun r => r.page != page) })).changed .dcache die))

/-! ### The tier (R234 to R237) -/

def State.setTier (s : State) (f : Tier → Tier) : State := { s with tier := f s.tier }

/-- Granules that a die's share of the pool holds (R234). -/
def State.poolShare (s : State) : Nat := s.field .tier 0 Reg.tier_tierPool 9 0 * 4096

def State.share (s : State) (d : Nat) : List Granule := s.tier.granules.filter (fun g => g.num % 4 == d)

/-- PIN holds while pinned granules fill no more than PIN_MAX % of the pool (R237). -/
def State.pinHolds (s : State) : Bool :=
  let pinned := (s.tier.granules.filter (·.pin)).length
  decide (pinned * 100 ≤ min (s.field .tier 0 Reg.tier_tierCtrl 23 16) 100 * (4 * s.poolShare))

def leastUsed : List Granule → Option Granule
  | [] => none
  | g :: l => match leastUsed l with
    | none => some g
    | some h => if h.use < g.use then some h else some g

/-- Write-backs can run: flash not READ_ONLY, not held, FTL up (R239, R240, R340). -/
def State.canWriteBack (s : State) : Bool := s.tier.state != .readOnly && !s.tier.writeHeld && !s.tier.paused

/-- Room for one more granule of die `d`: none where a touch must wait. -/
def State.makeRoom (s : State) (d : Nat) : Option State :=
  if (s.share d).length < s.poolShare then some s
  else
    let free := fun (g : Granule) => !(g.pin && s.pinHolds)
    match leastUsed ((s.share d).filter (fun g => g.st == .clean && free g && g.waits.isEmpty)) with
    | some g => some (s.setTier (fun t => { t with granules := t.granules.filter (fun x => x.num != g.num) }))
    | none =>
      if s.canWriteBack then
        match leastUsed ((s.share d).filter (fun g => g.st == .dirty && free g)) with
        | some g => some (s.modGranule g.num (fun x => { x with st := .writing, drop := true }))
        | none => none
      else none

/-- Start filling a granule for a touch of a box address (R234). -/
def State.startFill (s : State) (g : Nat) (w : List GrWait) (hint : Nat) : State :=
  match s.granule? g with
  | some x => if x.st = .filling then s.modGranule g (fun x => { x with waits := x.waits ++ w }) else s
  | none =>
    match s.makeRoom (g % 4) with
    | none => s
    | some s =>
      let clock := s.tier.useClock + 1
      let s := s.setTier (fun t => { t with
        useClock := clock
        granules := { num := g, st := .filling, pin := decide (hint = 1), use := if hint = 2 then 0 else clock, waits := w } :: t.granules })
      s.bump .tier 0 7 (b2n (decide (hint = 1) && !s.pinHolds))

/-- Touch of a box address: an absent granule starts filling, and the touch counts (R234). -/
def State.touch (s : State) (b va : Nat) : State :=
  match s.pte? b va with
  | none => s
  | some e =>
    let da := pteDa e + va % pageSize
    if da < flashBase then s
    else
      let g := granuleOf da
      let absent := match s.granule? g with | some x => !x.present | none => true
      if absent then (s.bump .tier 0 0 1).startFill g [.touch b va] (pteHint e) else s

/-- ABSENT_TOUCH (R234). -/
def execAbsentTouch (box va : Nat) (s : State) : Ans := .next (s.touch box va)

/-- GRANULE_FILL_DONE (R235). An uncorrectable read fills the granule poisoned. -/
def execGranuleFillDone (granule : Nat) (uncorrectable : Bool) (s : State) : Ans :=
  match s.granule? granule with
  | none => .next s
  | some g =>
    .next (s.when (g.st == .filling && !s.tier.paused)
      (let s := s.fillData granule
       let lo := granuleBase granule / 64
       let s := if uncorrectable then
           ({ s with memPoison := (List.range 1024).foldl (fun m i => setInsert m (lo + i)) s.memPoison }).event
             { pageRec .tier 0 0x0500 .error with b := granuleBase granule }
         else s
       let s := s.modGranule granule (fun x => { x with st := .clean, waits := [] })
       s.bump .tier 0 2 65536))

/-- GRANULE_WRITEBACK_DONE (R235): a write that waited then applies, and the granule is DIRTY. -/
def execGranuleWritebackDone (granule : Nat) (s : State) : Ans :=
  match s.granule? granule with
  | none => .next s
  | some g =>
    .next (s.when (g.st == .writing && s.canWriteBack)
      (let s := (s.flushData granule).bump .tier 0 3 65536
       let writes := g.waits.filterMap (fun w => match w with | .write da bs => some (da, bs) | .touch _ _ => none)
       if g.drop ∧ writes.isEmpty then
         s.setTier (fun t => { t with granules := t.granules.filter (fun x => x.num != granule) })
       else
         let s := s.modGranule granule (fun x => { x with st := .clean, waits := [], drop := false })
         writes.foldl (fun s w => s.memWrite w.1 w.2 (fun _ => false)) s))

/-- Begin the write-back of a DIRTY granule. -/
def State.beginWriteback (s : State) (g : Nat) : State :=
  s.modGranule g (fun x => if x.st = .dirty then { x with st := .writing } else x)

/-- AGE_WRITEBACK (R236). -/
def execAgeWriteback (s : State) : Ans :=
  let age := s.field .tier 0 Reg.tier_tierCtrl 15 0
  .next (s.when (s.time.window.isSome && s.canWriteBack && decide (age ≠ 0))
    ((s.tier.granules.filter (fun g => g.st == .dirty && decide (g.since + age ≤ s.roundNow))).foldl
      (fun s g => s.beginWriteback g.num) s))

/-- Flash-homed granules of a range of 64 KiB units, with their page's hint; none where a page is unmapped. -/
def State.tierRange (s : State) (b va units : Nat) : Option (List (Nat × Nat)) :=
  if units = 0 ∨ !s.mapped b va (units * 65536) false then none
  else some ((List.range units).filterMap (fun i =>
    match s.pte? b (va + i * 65536) with
    | none => none
    | some e =>
      let da := pteDa e + (va + i * 65536) % pageSize
      if da < flashBase then none else some (granuleOf da, pteHint e)))

/-- Write a granule back at once and keep it CLEAN. -/
def State.flushGranule (s : State) (g : Nat) : State :=
  match s.granule? g with
  | some x => if x.st = .dirty then ((s.flushData g).modGranule g (fun x => { x with st := .clean })).bump .tier 0 3 65536 else s
  | none => s

/-- Drop a granule: at once, or once its accesses end (R237). -/
def State.dropGranule (s : State) (g : Nat) : State :=
  match s.granule? g with
  | none => s
  | some x =>
    if x.st = .filling ∨ x.st = .writing then s.modGranule g (fun x => { x with drop := true })
    else s.setTier (fun t => { t with granules := t.granules.filter (fun y => y.num != g) })

/-- What a tier command does (R237): OP, and its RESULT in TIER_CMD_STATUS. -/
def State.tierRun (s : State) (op b va units : Nat) : State :=
  match s.tierRange b va units with
  | none => s.setTier (fun t => { t with result := 1 })
  | some gs =>
    if s.tier.state = .readOnly ∧ (op = 2 ∨ op = 3) then s.setTier (fun t => { t with result := 2 })
    else
      let s := gs.foldl (fun s g =>
        match op with
        | 1 => (match s.granule? g.1 with | some _ => s | none => s.startFill g.1 [] g.2)
        | 2 => s.flushGranule g.1
        | 3 => (s.flushGranule g.1).dropGranule g.1
        | _ => s.dropGranule g.1) s
      s.setTier (fun t => { t with result := 0 })

/-- A tier command: one at a time, and waiting while the FTL restarts (R237, R340). -/
def State.tierCmd (s : State) (op b va units : Nat) : State :=
  if s.tier.cmd.isSome then s.flagAccess .tier 0 (regAddr .tier 0 Reg.tier_tierCmd) true
  else if s.tier.paused then s.setTier (fun t => { t with cmd := some (op, b, va, units) })
  else s.tierRun op b va units

/-- The command that waited runs, and its TIER request is answered (R335, R340). -/
def State.tierResume (s : State) : State :=
  match s.tier.cmd with
  | none => s
  | some (op, b, va, units) =>
    let s := (s.setTier (fun t => { t with cmd := none })).tierRun op b va units
    match s.host.tierReply with
    | none => s
    | some (n, seq) =>
      (s.setHost (fun h => { h with tierReply := none })).respond n seq 0 [BitVec.ofNat 8 s.tier.result]

def execPrefetch (box va units : Nat) (s : State) : Ans := .next (s.tierCmd 1 box va units)
def execTierFlush (box va units : Nat) (s : State) : Ans := .next (s.tierCmd 2 box va units)
def execTierEvict (box va units : Nat) (s : State) : Ans := .next (s.tierCmd 3 box va units)
def execDiscard (box va units : Nat) (s : State) : Ans := .next (s.tierCmd 4 box va units)

/-! ### Flash (R238 to R240) -/

/-- Relocate a block (R238). -/
def State.relocateBlock (s : State) (blk : Nat) : State :=
  (s.setTier (fun t => { t with
    relocate := t.relocate.erase blk, blockReads := t.blockReads.filter (fun p => p.1 != blk) })).bump .tier 0 5 1

/-- FLASH_HOUSEKEEPING (R239): in quiet windows, the blocks to relocate are relocated; garbage collection and static
wear levelling move data that no command observes. -/
def execFlashHousekeeping (s : State) : Ans :=
  .next (s.when (s.time.window.isSome && !s.tier.paused) (s.tier.relocate.foldl State.relocateBlock s))

/-- READ_DISTURB_RELOCATE (R238): at twice the limit, at once. -/
def execReadDisturbRelocate (block : Nat) (s : State) : Ans := .next (s.when (!s.tier.paused) (s.relocateBlock block))

/-- FLASH_BLOCK_RETIRE (R238). -/
def execFlashBlockRetire (block : Nat) (s : State) : Ans :=
  .next (s.when (!s.tier.retired.contains block)
    (((s.setTier (fun t => { t with retired := setInsert t.retired block })).bump .tier 0 6 1).event
      { pageRec .tier 0 0x0501 .warning with a := block }))

def FlashSt.code : FlashSt → Nat
  | .normal => 0 | .degraded => 1 | .readOnly => 2

/-- FLASH_STATE that spare blocks and wear give (R240). -/
def flashNext (old : FlashSt) (spare wear : Nat) : FlashSt :=
  if spare < 5 ∨ old = .readOnly then .readOnly
  else if spare < 20 ∨ 90 ≤ wear ∨ old = .degraded then .degraded
  else .normal

/-- FLASH_STATE_CHANGE (R240). -/
def execFlashStateChange (sparePermille wearPct : Nat) (s : State) : Ans :=
  let old := s.tier.state
  let new := flashNext old sparePermille wearPct
  let s := s.setTier (fun t => { t with spare := some (min sparePermille 255), wearPct := min wearPct 255, state := new })
  .next (s.when (decide (new ≠ old))
    ((s.changed .tier 0).event { pageRec .tier 0 0x0502 .warning with a := old.code, b := new.code }))

/-- WRITE_HELD (R239): free blocks below the reserve, or no longer. -/
def execWriteHeld (low : Bool) (s : State) : Ans :=
  let was := s.tier.writeHeld
  let s := s.setTier (fun t => { t with writeHeld := low })
  .next (s.when (low != was) ((s.changed .tier 0).when low ((s.changed .tier 0).event { pageRec .tier 0 0x0503 .warning with a := 0 })))

end Sys2Proof.Machine
end

