-- ==== Sys2Proof/Machine/Inst.lean ====
section
/-! DEFINITION. What a running instance sees: its kernel (R102, R115), its tensors as bound (R109 to R111), its core as
the engines work on it, and its failure (R21, R207). -/

namespace Sys2Proof.Machine

/-! ### Kernels and tensors -/

/-- Group of a stream. -/
def State.groupOf (s : State) (stream : Nat) : Option Group :=
  match s.place? stream with
  | some p => s.group? p.group
  | none => none

/-- The kernel list that an instance runs from: its stream's group's, or the item's own. -/
def State.listOf (s : State) (i : Inst) : List KEntry :=
  match i.list, i.stream with
  | .kernel, _ => (match s.item? i.item with | some it => it.list | none => [])
  | l, some t =>
    match s.groupOf t with
    | none => []
    | some g => match l with | .prefill => g.prefill | .backward => g.backward | _ => g.step
  | _, none => []

/-- Kernel of an instance: the primary or its variant. -/
def State.kernelOf (s : State) (i : Inst) : Option Kernel :=
  match (s.listOf i)[i.pos]? with
  | none => none
  | some e => if i.variant then e.variant else some e.kernel

/-- The tensor descriptor as an instance sees it: a bound one takes its piece from the item's tensor, whole or the
instance's slice of the outermost dimension (R111). -/
def bindTensor (it : Item) (k : Nat) (t : TensorDesc) : Option TensorDesc :=
  if t.bind = 0 then some t
  else
    match (it.tensors[t.base % 8]?).join with
    | none => none
    | some u =>
      let off := if t.bind = 1 then k * (u.stride.getD (u.rank - 2) 0) else 0
      some { t with
        base := u.base + off, stride := (u.stride.take (t.rank - 1)) ++ List.replicate (4 - t.rank) 0
        writable := u.writable, cache := u.cache, coded := u.coded, bind := 0 }

/-- Slice index of an instance: its stream entry, or its index in a KERNEL item (R111). -/
def Inst.slice (i : Inst) : Nat := if i.list = .kernel then i.idx else i.entry

/-- Tensor `n` of the kernel that runs on a core. -/
def State.tensorOf (s : State) (i : Inst) (n : Nat) : Option TensorDesc :=
  match s.kernelOf i, s.item? i.item with
  | some k, some it =>
    match k.tensors[n]? with
    | some t => bindTensor it i.slice t
    | none => none
  | _, _ => none

def TensorDesc.f (t : TensorDesc) : Fmt := (Fmt.ofCode t.fmt).getD .fp32

/-- Bytes of the dimension-0 run. -/
def TensorDesc.rowBytes (t : TensorDesc) : Nat := cdiv (t.size.getD 0 1 * t.f.width) 8

/-- Bytes from BASE to the end of the last element (R110). -/
def TensorDesc.extent (t : TensorDesc) : Nat :=
  ((List.range (t.rank - 1)).map (fun d => (t.size.getD (d + 1) 1 - 1) * t.stride.getD d 0)).sum + t.rowBytes

/-- Offset within dimensions `d` and below, or none where an index passes its SIZE. -/
def dimsRem (t : TensorDesc) : Nat → Nat → Option Nat
  | 0, off => some off
  | d + 1, off =>
    if t.rank ≤ d + 1 then dimsRem t d off
    else
      let st := t.stride.getD d 0
      if st = 0 ∨ t.size.getD (d + 1) 1 ≤ off / st then none else dimsRem t d (off % st)

/-- `row_in_range` of R110. -/
def TensorDesc.rowIn (t : TensorDesc) (start n : Nat) : Bool :=
  decide (t.base ≤ start) &&
    match dimsRem t 3 (start - t.base) with
    | none => false
    | some off => decide (off + n ≤ t.rowBytes)

/-- Local coordinates of an offset, plus ORIGIN. -/
def TensorDesc.coords (t : TensorDesc) (addr : Nat) : List Nat :=
  let off := addr - t.base
  let at' := fun (d : Nat) (o : Nat) => if t.rank ≤ d ∨ t.stride.getD (d - 1) 0 = 0 then (0, o)
    else (o / t.stride.getD (d - 1) 0, o % t.stride.getD (d - 1) 0)
  let c3 := at' 3 off
  let c2 := at' 2 c3.2
  let c1 := at' 1 c2.2
  List.zipWith (· + ·) [c1.2 * 8 / t.f.width, c1.1, c2.1, c3.1] t.origin

/-! ### The engines' view of a core -/

/-- Core-buffer bytes (R65). -/
def cbufBytes : Nat := 2 ^ 23

/-- Bytes of a core's state window (R66). -/
def State.windowBytes (s : State) (c : Nat) : Nat := 65536 * min (s.field .state c Reg.state_stateWindow 6 0) 64

/-- What the engines work on for the instance of a core. -/
def State.execOf (s : State) (c : Nat) : Exec :=
  let k := s.core c
  let below := cbufBytes - s.windowBytes c
  match k.run with
  | none => { core := k, ker := {}, below := below }
  | some i =>
    let ker := (s.kernelOf i).getD {}
    match i.stream with
    | none => { core := k, ker := ker, below := below }
    | some t =>
      let e := match s.item? i.item with | some it => it.entry i.entry | none => {}
      let w := match s.place? t with | some p => p.window.getD {} | none => {}
      let g := s.groupOf t
      { core := k, ker := ker, below := below
        slot := w.payload, slotPoison := w.poison
        slotLen := match g with | some g => g.slotSize - 64 | none => 0
        gen := e.gen, sr := match g with | some g => g.sr | none => false
        reset := e.reset, driftSum := e.driftSum, driftCount := e.driftCount }

/-- The instance on core `c` consumes poison at box virtual address `va`, where there is one; the first address stands
(R369). -/
def State.notePoison (s : State) (c : Nat) (va : Option Nat) : State :=
  match va with
  | none => s
  | some va => s.modCore c (fun k => { k with run := k.run.map (fun i => if i.poison.isNone then { i with poison := some va } else i) })

/-- The engines' results put back: the core, the window copy, the generator and drift sum, counters, and the
consumption of poison (R369). -/
def State.putExec (s : State) (c : Nat) (x : Exec) : State :=
  let core := { x.core with run := x.core.run.map (fun i =>
    if x.poisoned && i.poison.isNone then { i with poison := some 0 } else i) }
  let s := s.setCore c core
  let s := match core.run with
    | some i =>
      match i.stream with
      | some t =>
        (s.modPlace t (fun p => { p with window := p.window.map (fun w =>
          { w with payload := x.slot, poison := x.slotPoison }) })).modEntry i.item i.entry (fun e =>
            { e with gen := x.gen, driftSum := x.driftSum, driftCount := x.driftCount })
      | none => s
    | none => s
  x.bumps.foldl (fun s b => s.bump b.1 c b.2.1 b.2.2) s

/-! ### Failure -/

/-- The failure with what its dead-letter entry says of the instance (R22, R116, R314). -/
def State.failOf (s : State) (i : Inst) (f : Fail) : Fail :=
  { f with
    entry := if i.stream.isSome then i.entry else i.pos
    stream := i.stream.getD 0x3FFFF
    kernelId := (s.kernelOf i).elim 0 (fun k => k.kernelId) }

/-- The instance on a core ends without commit and its entry fails (R63, R64, R117, R207). -/
def State.failRun (s : State) (c : Nat) (f : Fail) : State :=
  match (s.core c).run with
  | none => s
  | some i => ((s.stopInstance c).changed .ctl c).failEntry i.item i.entry (s.failOf i f)

end Sys2Proof.Machine
end

