-- ==== Sys2Proof/Machine/Records.lean ====
section
/-! DEFINITION. The recorder (R386 to R395), failure signatures (R379 to R383) and the reads that latch (R271, R397,
R443). -/

namespace Sys2Proof.Machine

/-! ### Records as bytes (R387) -/

/-- Bytes 0 to 59 of a record as a number. -/
def Record.body (r : Record) : Nat :=
  r.d % 2 ^ 48 * 2 ^ 432 + r.c % 2 ^ 64 * 2 ^ 368 + r.b % 2 ^ 64 * 2 ^ 304 + r.a % 2 ^ 64 * 2 ^ 240 +
    (match r.tag with | some t => t.toNat | none => 0) * 2 ^ 176 + r.epoch % 2 ^ 32 * 2 ^ 144 +
    r.srcType % 2 ^ 16 * 2 ^ 128 + r.unit % 2 ^ 16 * 2 ^ 112 + 1 * 2 ^ 104 + r.pos % 64 * 2 ^ 96 +
    (match r.box with | some b => b % 64 | none => 0) * 2 ^ 88 + b2n r.box.isSome * 2 ^ 85 + b2n r.tag.isSome * 2 ^ 84 +
    r.sev.code * 2 ^ 80 + r.code % 2 ^ 16 * 2 ^ 64 + r.postmark % 2 ^ 64

/-- The 64 bytes of a record, REC_CRC last (R387). -/
def Record.bytes (r : Record) : List Byte :=
  let b := leBytes 60 r.body
  b ++ leBytes 4 (crc32c b).toNat

/-! ### Acceptance (R386, R389, R390) -/

/-- Records of severity INFO or NOTICE, round boundaries excepted, are limited per round (R389). -/
def Record.minor (r : Record) : Bool := (r.sev == .info || r.sev == .notice) && r.code != 0x0002

def State.roundLimit (s : State) : Nat := max 1 (s.field .log 0 Reg.log_logRoundLimit 19 0)

/-- Accept a record, or count it suppressed (R389). -/
def State.takeRecord (s : State) (r : Record) : State :=
  if r.minor ∧ s.roundLimit ≤ s.log.minor then
    { s with log := { s.log with suppressed := s.log.suppressed + 1 } }.bump .log 0 1 1
  else
    let s := s.acceptRecord r
    if r.minor then { s with log := { s.log with minor := s.log.minor + 1 } } else s

/-- Is FLASH_STATE PAUSED (R340)? -/
def State.flashPaused (s : State) : Bool := s.tier.paused

/-- The mirror write of a boundary, or its wait while FLASH_STATE is PAUSED (R393). -/
def State.mirrorAtBoundary (s : State) : State :=
  if s.flashPaused then { s with log := { s.log with behind := true } } else s.mirrorWrite false

/-- RECORD_ACCEPT (R386): the oldest record of the queue. At reservation Q − 1 the recorder waits for a new
reservation, and a mirror write that waited is made once flash runs again (R393). -/
def execRecordAccept (s : State) : Ans :=
  match s.log.queue with
  | [] => .next (if s.log.behind && !s.flashPaused then s.mirrorWrite false else s)
  | r :: q =>
    if !s.log.accepting then .next s
    else if s.log.hasMirror ∧ s.log.reserve ≤ s.log.next then
      .next (if s.flashPaused then { s with log := { s.log with held := true } } else s.mirrorWrite false)
    else .next (State.takeRecord { s with log := { s.log with queue := q } } r)

/-- RECORDER_FLUSH (R394). -/
def execRecorderFlush (s : State) : Ans := .next (s.when s.log.accepting s.flushRecorder)

/-! ### The window (R395) -/

/-- The record with postmark `p` in the source selected. -/
def State.recordAt (s : State) (p : Nat) : Option Record :=
  (if bit (s.regN .log 0 Reg.log_logCtrl) 0 then s.log.mirror else s.log.ring).find? (fun r => r.postmark == p)

/-- Load the window from the cursor (R395). -/
def State.loadWindow (s : State) : State :=
  let cur := s.regN .log 0 Reg.log_logCursorLo + s.regN .log 0 Reg.log_logCursorHi * 2 ^ 32
  { s with log := { s.log with window := (List.range 16).map (fun k => s.recordAt (cur + k)) } }.bump .log 0 4 1

/-- LOG_CURSOR_WRITE (R395). -/
def State.logCursorWrite (s : State) (lo : W32) : State :=
  (s.setReg (regAddr .log 0 Reg.log_logCursorLo) lo).loadWindow

def execLogCursorWrite (lo : W32) (s : State) : Ans := .next (s.logCursorWrite lo)

/-- Oldest and newest postmarks of the source selected; 0 where it holds none. -/
def State.logEnds (s : State) : Nat × Nat :=
  let l := if bit (s.regN .log 0 Reg.log_logCtrl) 0 then s.log.mirror else s.log.ring
  match l with
  | [] => (0, 0)
  | r :: _ => ((l.getLast?.map (·.postmark)).getD 0, r.postmark)

/-- LOG_OLDEST_READ (R395): the next three registers are latched. -/
def State.logOldestRead (s : State) : State :=
  let e := s.logEnds
  let s := s.setReg (regAddr .log 0 Reg.log_logOldestHi) (BitVec.ofNat 32 (e.1 / 2 ^ 32))
  let s := s.setReg (regAddr .log 0 Reg.log_logNewestLo) (BitVec.ofNat 32 e.2)
  s.setReg (regAddr .log 0 Reg.log_logNewestHi) (BitVec.ofNat 32 (e.2 / 2 ^ 32))

def execLogOldestRead (s : State) : Ans := .next s.logOldestRead

/-- ROUND_NOW_READ (R271). -/
def State.roundNowRead (s : State) : State :=
  (s.setReg (regAddr .time 0 Reg.time_roundNowHi) (BitVec.ofNat 32 (s.roundNow / 2 ^ 32 % 2 ^ 16))).setReg
    (regAddr .time 0 Reg.time_phaseNow) (BitVec.ofNat 32 (s.phase % 2 ^ 30))

def execRoundNowRead (s : State) : Ans := .next s.roundNowRead

/-! ### Counters (R397) -/

/-- The counter a register address names: whether it is latched, its key and whether the word is the low one. -/
def counterAt (a : Nat) : Option (Bool × Nat × Bool) :=
  match pageOf a with
  | none => none
  | some (p, i) =>
    let o := a - p.base i
    if 0x800 ≤ o ∧ o < 0xC00 ∧ (o - 0x800) / 8 < p.counters i then
      some (true, ctrKey p i ((o - 0x800) / 8), o % 8 == 0)
    else if 0xC00 ≤ o ∧ o < 0x1000 ∧ (o - 0xC00) / 8 < p.counters i then
      some (false, ctrKey p i ((o - 0xC00) / 8), o % 8 == 0)
    else none

/-- COUNTER_LOW_READ (R397): the high word is latched for the next read. -/
def State.counterLowRead (s : State) (a : Nat) : State :=
  match counterAt a with
  | some (latched, key, true) =>
    let v := cellGet 0 (if latched then s.ctr.latched else s.ctr.live) key
    { s with ctr := { s.ctr with high := cellSet 0 s.ctr.high (a + 4) (BitVec.ofNat 32 (v.toNat / 2 ^ 32)) } }
  | _ => s

def execCounterLowRead (addr : Nat) (s : State) : Ans := .next (s.counterLowRead addr)

/-! ### The signature store (R380 to R383, R443) -/

/-- Selected slot's signature. -/
def State.selSig (s : State) : Option Signature :=
  (s.log.sigs.getD (s.field .hub 0 Reg.hub_sigSel 5 0) none)

def State.sigPm (s : State) : Nat := match s.selSig with | some g => g.postmark | none => 0

/-- SIG_PM_READ (R443). -/
def State.sigPmRead (s : State) : State :=
  s.setReg (regAddr .hub 0 Reg.hub_sigPmHi) (BitVec.ofNat 32 (s.sigPm / 2 ^ 32))

def execSigPmRead (s : State) : Ans := .next s.sigPmRead

/-- SIG_CURSOR_WRITE (R443): 64 record bytes and the slot's postmark are copied. -/
def State.sigCursorWrite (s : State) (value : W32) : State :=
  let s := s.setReg (regAddr .hub 0 Reg.hub_sigCursor) (value &&& 0xFFFFF)
  let at' := value.toNat % 2 ^ 20
  let bs := match s.selSig with | some g => (g.bytes.drop at').take 64 | none => []
  { s with log := { s.log with sigCopy := bs, sigCopyPm := s.sigPm } }

def execSigCursorWrite (value : W32) (s : State) : Ans := .next (s.sigCursorWrite value)

/-- Kinds with an exposure list (R382), their unit and severity. -/
def sigExposes (kind : Nat) : Bool := kind == 1 || kind == 2 || kind == 3

def sigSeverity (kind : Nat) : Nat := if kind = 9 then 1 else if kind = 4 ∨ kind = 6 then 2 else 0

/-- Haldeug section type and creator identifier {6A4B8C10-3D2E-4F51-9A07-0C4D5E1F2A30} in its byte order (R380). -/
def haldeugGuid : List Byte := [0x10, 0x8C, 0x4B, 0x6A, 0x2E, 0x3D, 0x51, 0x4F, 0x9A, 0x07, 0x0C, 0x4D, 0x5E, 0x1F, 0x2A, 0x30]

/-- The Haldeug section (R381). -/
def sigSection (s : State) (kind unit pm : Nat) (detailA detailB : W64) : List Byte :=
  let isCore := decide (kind = 1 ∨ kind = 2 ∨ kind = 3)
  let k := s.core unit
  let tags := if sigExposes kind then k.exposure else []
  let spare := match s.logical unit with
    | some _ => 0xFF
    | none => if isCore then
        (((List.range 64).find? (fun l => s.physical l == some (17 * (unit / 17) + 16))).map (fun _ => 17 * (unit / 17) + 16)).getD 0xFF
      else 0xFF
  leBytes 2 1 ++ leBytes 2 kind ++ leBytes 1 s.pos ++ leBytes 1 (match s.stepping with | .A1 => 0 | .B0 => 1) ++
    leBytes 2 0 ++ leBytes 8 pm ++ leBytes 6 s.roundNow ++ leBytes 2 0 ++ leBytes 4 s.fab.epoch ++ leBytes 2 unit ++
    leBytes 2 (if isCore then (k.incarnation + 65535) % 65536 else 0) ++ leBytes 2 (if isCore then k.incarnation else 0) ++
    leBytes 1 (if kind = 1 then k.nextPattern else 0xFF) ++ leBytes 1 (if isCore then spare else 0xFF) ++ leBytes 4 0 ++
    leBytes 8 detailA.toNat ++ leBytes 8 detailB.toNat ++ leBytes 6 (if isCore then k.lastPass.getD 0 else 0) ++
    leBytes 2 0 ++ leBytes 4 tags.length ++ leBytes 1 (b2n (isCore && k.exposureOverflow)) ++ leBytes 11 0 ++
    (tags.map (fun t => leBytes 8 t.toNat)).flatten

/-- ASCII bytes of the FRU text, padded to 20 (R380). -/
def fruText (s : State) : List Byte :=
  let t := "JK-64M-" ++ (match s.order with | .t16 => "16T" | .t32 => "32T") ++ " P" ++ toString s.pos
  let b := t.toList.map (fun c => BitVec.ofNat 8 c.toNat)
  (b ++ List.replicate 20 0).take 20

/-- The UEFI Common Platform Error Record around a section (R380): 128-byte header, 72-byte descriptor. The places of
its fields are those of the UEFI specification (log 22). -/
def cper (s : State) (kind unit pm : Nat) (detailA detailB : W64) : List Byte :=
  let sect := sigSection s kind unit pm detailA detailB
  let sev := sigSeverity kind
  let len := 200 + sect.length
  [0x43, 0x50, 0x45, 0x52] ++ leBytes 2 0x0100 ++ leBytes 4 0xFFFF_FFFF ++ leBytes 2 1 ++ leBytes 4 sev ++ leBytes 4 0 ++
    leBytes 4 len ++ leBytes 8 0 ++ leBytes 16 0 ++ leBytes 16 0 ++ haldeugGuid ++ leBytes 16 0 ++ leBytes 8 pm ++
    leBytes 4 0 ++ leBytes 8 0 ++ leBytes 12 0 ++
  leBytes 4 200 ++ leBytes 4 sect.length ++ leBytes 2 0x0100 ++ leBytes 1 2 ++ leBytes 1 0 ++ leBytes 4 0 ++ haldeugGuid ++
    leBytes 16 0 ++ leBytes 4 sev ++ fruText s ++
  sect

/-- Accept every record that is queued (R386): the recorder takes one per hub cycle, in order. -/
def State.acceptAll (s : State) : State :=
  s.log.queue.foldl State.takeRecord { s with log := { s.log with queue := [] } }

/-- Write a signature (R380, R383): a new record replaces the oldest, and SIGNATURE_WRITTEN is recorded. The signature
carries that event's postmark: the records delivered before it are accepted first (log 23). -/
def State.signature (s : State) (kind unit : Nat) (detailA detailB : W64) : State :=
  let s := s.acceptAll
  let pm := s.log.next
  let bytes := cper s kind unit pm detailA detailB
  let n := s.log.nextSig
  let s : State := { s with log := { s.log with
      sigs := s.log.sigs.set (n % 64) (some { postmark := pm, bytes := bytes })
      nextSig := (n + 1) % 64 } }
  s.takeRecord { pageRec .hub 0 0x0107 .notice with unit := unit, a := kind }

/-- SIGNATURE_WRITE (R380, R383). -/
def execSignatureWrite (kind unit : Nat) (detailA detailB : W64) (s : State) : Ans :=
  .next (s.when (decide (1 ≤ kind ∧ kind ≤ 0x000A)) (s.signature kind unit detailA detailB))

end Sys2Proof.Machine
end

