-- ==== Sys2Proof/Machine/Rounds.lean ====
section
/-! DEFINITION. Time: the time unit (R251 to R253), round boundaries (R254, R391, R397), collections (R255), quiet
windows (R256) and the cadence of self-test slices (R377, R378). -/

namespace Sys2Proof.Machine

def State.setTime (s : State) (f : TimeUnit → TimeUnit) : State := { s with time := f s.time }

/-- A change of the time unit's state records an event (R252). -/
def State.timeState (s : State) (st : TimeSt) : State :=
  if s.time.st = st then s
  else
    let old := s.time.st
    let s := s.setTime (fun u => { u with st := st, stAt := u.t })
    (s.changed .time 0).event { pageRec .time 0 0x0004 .warning with a := old.code, b := st.code }

/-- SLEW_LIMIT in ns; 0 acts as 1 µs (R271). -/
def State.slewLimit (s : State) : Nat := 1000 * max 1 (s.field .time 0 Reg.time_slewLimit 23 0)

/-- PTP_OFFSET: the signed offset of t from a measurement that lies `o` ahead of it, saturating (R271). -/
def State.noteOffset (s : State) (o : Int) : State :=
  let c : Int := max (-(2 ^ 31)) (min (-o) (2 ^ 31 - 1))
  (s.setTime (fun u => { u with offset := -o })).setReg (regAddr .time 0 Reg.time_ptpOffset) (BitVec.ofInt 32 c)

/-! ### Declarations in force (R254 to R256) -/

/-- A collection as declared in its register, where its phase lies in the round. -/
def State.declaredCollection (s : State) (n : Nat) : Option Nat :=
  let v := s.regN .time 0 (Reg.time_collection + 4 * n)
  if bit v 31 ∧ bits v 29 0 < s.roundLen then some (bits v 29 0) else none

/-- The collections written in the ending round take effect; one at or past the round's end counts as undeclared, and is
recorded (R254, R255). -/
def State.loadCollections (s : State) : State :=
  let s := (List.range 16).foldl (fun s n =>
    if s.time.collWritten.contains n then
      let v := s.regN .time 0 (Reg.time_collection + 4 * n)
      let t := s.setTime (fun u => { u with collections := u.collections.set n (s.declaredCollection n) })
      t.when (bit v 31 && decide (s.roundLen ≤ bits v 29 0))
        (t.event { pageRec .time 0 0x0007 .warning with a := n, b := bits v 29 0 })
    else s) s
  s.setTime (fun u => { u with collWritten := [] })

/-- Quiet window `n` as its registers declare it. -/
def State.quietReg (s : State) (n : Nat) : Option (Nat × Nat) :=
  let a := s.regN .time 0 (Reg.time_quietStart + 8 * n)
  let e := s.regN .time 0 (Reg.time_quietEnd + 8 * n)
  if bit a 31 then some (bits a 29 0, bits e 29 0) else none

/-- A window stands where END is above START, it lies in the round, and it overlaps no standing window (R256). -/
def windowOk (len : Nat) (standing : List (Option (Nat × Nat))) (w : Nat × Nat) : Bool :=
  decide (w.1 < w.2 ∧ w.2 < len) &&
  standing.all (fun o => match o with | some q => decide (w.2 ≤ q.1 ∨ q.2 ≤ w.1) | none => true)

/-- The windows are examined in ascending index at a boundary where a write of one takes effect (R256). -/
def State.loadWindows (s : State) : State :=
  if !s.time.quietWritten then s
  else (List.range 4).foldl (fun s n =>
    match s.quietReg n with
    | none => s.setTime (fun u => { u with quiet := u.quiet.set n none })
    | some w =>
      if windowOk s.roundLen (s.time.quiet.take n) w then s.setTime (fun u => { u with quiet := u.quiet.set n (some w) })
      else (s.setTime (fun u => { u with quiet := u.quiet.set n none })).event { pageRec .time 0 0x0006 .warning with a := n })
    (s.setTime (fun u => { u with quiet := List.replicate 4 none, quietWritten := false }))

/-! ### Latching (R254, R397) -/

/-- Pages with a register map: every page's counters latch unless it is frozen. -/
def allPages : List (Pg × Nat) :=
  let singles := [Pg.hub, .frank, .supply, .time, .log, .sec, .fwctl, .hostif, .tier].map (fun p => (p, 0))
  let many := fun (p : Pg) (n : Nat) => (List.range n).map (fun i => (p, i))
  singles ++ many .link 24 ++ many .hbm 12 ++ many .die 4 ++ many .disp 4 ++ many .dcache 4 ++ many .codebook 4 ++
    many .fork 4 ++ many .ctl 68 ++ many .mxe 68 ++ many .acm 68 ++ many .vxe 68 ++ many .drain 68 ++ many .exp 68 ++
    many .kvw 68 ++ many .state 68 ++ many .clerk 68 ++ many .cnt 68 ++ many .box 64

/-- Does key `k` belong to a frozen page? -/
def State.keyFrozen (s : State) (k : Nat) : Bool :=
  match pageOf (k / 4096 * 4096) with
  | some (p, i) => s.frozen p i
  | none => false

/-- Every counter of every page latches and restarts from 0; a frozen page keeps both (R254, R436). -/
def State.latchCounters (s : State) : State :=
  let live := s.ctr.live
  let latched := live.filter (fun p => !s.keyFrozen p.1)
  let kept := s.ctr.latched.filter (fun p => s.keyFrozen p.1)
  let merged := latched.foldl (fun l p => cellSet 0 l p.1 p.2) kept
  let s : State := { s with ctr := { s.ctr with latched := merged, live := live.filter (fun p => s.keyFrozen p.1) } }
  allPages.foldl (fun s p => if s.frozen p.1 p.2 then s else s.orReg p.1 p.2 Reg.intStat 0x200) s

/-- Per-round counts restart (R51, R231, R254, R257, R371, R290, R389). -/
def State.restartRound (s : State) : State :=
  { s with
    cores := s.cores.map (fun c => { c with phCe := List.replicate 9 0, staleNoted := false })
    hbm := s.hbm.map (fun k => { k with ce := [], ue := [] })
    boxes := s.boxes.map (fun b => { b with cyclesUsed := 0 })
    fab := { s.fab with staleNoted := [] }
    log := { s.log with minor := 0, suppressed := 0 } }

/-- MGMT_SAT (R338): SUPV_BUSY_CYCLES above SAT_PCT of 2.4 cycles per ns, or a RETRY_LATER, in the ending round. -/
def State.updateSat (s : State) : State :=
  let busy := (s.live .hub 0 0).toNat
  let pct := min (s.field .fwctl 0 Reg.fwctl_supvCtrl 6 0) 100
  let sat := decide (s.roundLen * 24 * pct < busy * 1000) || s.fw.retryLater
  let s := s.when (sat != s.fw.mgmtSat) (s.changed .hub 0)
  let s := s.when (!s.fw.telemetry) (s.bump .fwctl 0 3 1)
  { s with fw := { s.fw with mgmtSat := sat, retryLater := false, telemetry := false } }

/-- Gang mode ends (R264, R341 step 6); at start LOCK is set on every page that holds RWL fields (R439). -/
def State.endGang (s : State) : State :=
  let start := s.fw.gangStart
  let s := (List.range 4).foldl (fun s d => s.setField .disp d Reg.disp_dispCtrl 0 0 0)
    { s with fw := { s.fw with gangReturn := false, gangStart := false } }
  if start then
    (allPages.filter (fun p => (p.1.rows p.2).any (fun r => r.rwl != 0))).foldl
      (fun s p => s.setField p.1 p.2 Reg.lock 0 0 1) s
  else s

/-- What every round boundary does (R254), `first` and `last` naming rounds that were stepped over (R253). -/
def State.boundary (s : State) (round : Nat) (skipped : Option (Nat × Nat)) : State :=
  let s := s.updateSat
  let s := s.bump .time 0 0 1
  let s := s.when (decide (s.time.st = .holdover)) (s.bump .time 0 1 1)
  let s := s.when (decide (s.time.st = .freerun)) (s.bump .time 0 2 1)
  let ending := s.time.round
  let wasFirst := !s.time.rounds
  let suppressed := s.log.suppressed
  let s := s.latchCounters
  let s : State := { s with ctr := { s.ctr with latchRound := if wasFirst then none else some ending } }
  let s := s.setTime (fun u => { u with rounds := true, round := round, window := none })
  let s := s.changed .time 0
  let s := s.restartRound
  let rec0 : Record := { pageRec .time 0 0x0002 .info with
    a := min suppressed 0xFFFF * 2 ^ 48 + round
    b := s.time.t
    c := b2n skipped.isSome * 2 ^ 63 + s.time.st.code * 2 ^ 56 + (match skipped with | some w => w.1 | none => 0)
    d := match skipped with | some w => w.2 | none => 0 }
  let s : State := { s with log := { s.log with queue := rec0 :: s.log.queue } }
  let s := s.when s.log.accepting (State.takeRecord { s with log := { s.log with queue := s.log.queue.drop 1 } } rec0)
  let s := s.mirrorAtBoundary
  let s := s.powerBoundary
  let s := s.revoke
  let s := (s.loadCollections).loadWindows
  let good := decide (s.time.st = .locked ∨ s.time.st = .freerun)
  if good && decide (s.fw.st = .running) && (s.fw.gangReturn || s.fw.gangStart) then s.endGang else s

/-- ROUND_BOUNDARY (R254): the instant at which the next round begins. -/
def execRoundBoundary (s : State) : Ans :=
  if !s.time.rounds then .next s
  else
    let round := s.time.round + 1
    let s := s.setTime (fun u => { u with t := s.roundEpoch + round * s.roundLen })
    .next (s.boundary round none)

/-- FIRST_ROUND_BOUNDARY (R251): the first instant out of UNSYNC at which t reaches ROUND_EPOCH + kL. -/
def execFirstRoundBoundary (s : State) : Ans :=
  if s.time.rounds ∨ s.time.st = .unsync then .next s
  else
    let k := if s.time.t ≤ s.roundEpoch then 0 else cdiv (s.time.t - s.roundEpoch) s.roundLen
    let s := s.setTime (fun u => { u with t := s.roundEpoch + k * s.roundLen })
    .next (s.boundary k none)

/-! ### Corrections (R252, R253) -/

/-- Step t forward over boundaries: one boundary record names the rounds stepped over, and every deadline inside the
span fails under R259 when its DEADLINE_REACHED comes (R253). -/
def State.stepForward (s : State) (t : Nat) : State :=
  let o : Int := (t : Int) - s.time.t
  let old := s.time.round
  let s := s.setTime (fun u => { u with t := t, good := 0, slew := 0 })
  let s := (s.bump .time 0 3 1).event { pageRec .time 0 0x0005 .warning with a := uNat 64 o }
  if s.time.rounds then
    let now := (t - s.roundEpoch) / s.roundLen
    if old < now then s.boundary now (if old + 1 < now then some (old + 1, now - 1) else none) else s
  else s

/-- Slew an offset within SLEW_LIMIT (R253). -/
def State.slewTo (s : State) (o : Int) : State :=
  let s := s.setTime (fun u => { u with slew := o, t := ((u.t : Int) + o).toNat })
  s.bump .time 0 4 o.natAbs

/-- The count of good intervals, and LOCKED after 16 (R252). -/
def State.countGood (s : State) (o : Int) : State :=
  let good := if o.natAbs ≤ 1000 then min 16 (s.time.good + 1) else 0
  let s := s.setTime (fun u => { u with good := good })
  if good = 16 then s.timeState .locked else s

/-- PTP_MESSAGE (R252, R253). The first usable one in UNSYNC sets t; before rounds begin an offset above SLEW_LIMIT is
stepped in either direction; afterwards only forward, and a larger backward offset is held and slewed. -/
def execPtpMessage (masterNs : Nat) (usable : Bool) (s : State) : Ans :=
  if !usable then .next (s.setTime (fun u => { u with good := 0 }))
  else if s.time.st = .unsync ∧ !s.time.heard then
    .next ((s.setTime (fun u => { u with t := masterNs, heard := true, good := 0 })).noteOffset 0)
  else
    let o : Int := (masterNs : Int) - s.time.t
    let s := s.noteOffset o
    if o.natAbs ≤ s.slewLimit then
      let s := s.setTime (fun u => { u with backwardHeld := false })
      .next ((s.countGood o).slewTo o)
    else if !s.time.rounds then
      let s := s.setTime (fun u => { u with t := masterNs, good := 0 })
      .next ((s.bump .time 0 3 1).event { pageRec .time 0 0x0005 .warning with a := uNat 64 o })
    else if 0 < o then .next (s.stepForward masterNs)
    else
      -- a larger backward offset: 1,000 ppm over the interval, at most a sync interval of one second
      .next ((s.setTime (fun u => { u with backwardHeld := true, good := 0, slew := o })).changed .time 0)

/-- LOSS_TIMEOUT (R252): HOLDOVER. -/
def execLossTimeout (s : State) : Ans :=
  .next (s.when (decide (s.time.st = .locked))
    (let wait := 100000000 * max 1 (s.field .time 0 Reg.time_timeCtrl 23 16)
     (s.setTime (fun u => { u with t := u.t + wait, good := 0 })).timeState .holdover))

/-- HOLDOVER_LIMIT (R252): FREERUN. -/
def execHoldoverLimit (s : State) : Ans :=
  .next (s.when (decide (s.time.st = .holdover))
    (let wait := 1000000000 * max 1 (s.field .time 0 Reg.time_timeCtrl 15 0)
     (s.setTime (fun u => { u with t := max u.t (u.stAt + wait) })).timeState .freerun))

/-- LOCAL_START (R252): acts only in UNSYNC; elsewhere it is ignored and flagged. -/
def State.localStart (s : State) : State :=
  if s.time.st = .unsync then (s.setTime (fun u => { u with t := 0, good := 0 })).timeState .freerun
  else s.flagAccess .time 0 (regAddr .time 0 Reg.time_timeCtrl) true

def execLocalStart (s : State) : Ans := .next s.localStart

/-! ### Collections (R255) -/

/-- COLLECTION (R255): every completion held is posted together, in disposition order, with one notice. -/
def State.collect (s : State) : State :=
  let held := s.items.filter (fun i => i.heldCollection)
  let s := held.foldl (fun s i =>
    (s.modItem i.id (fun i => { i with heldCollection := false, postedHeld := true })).postItem i.id) s
  s

def execCollection (index : Nat) (s : State) : Ans :=
  match s.time.collections.getD index none with
  | none => .next s
  | some ph =>
    if !s.time.rounds then .next s
    else
      let boxes := ((s.items.filter (fun i => i.heldCollection)).map (·.box)).dedup
      let at' := s.roundEpoch + s.time.round * s.roundLen + ph
      let s := s.setTime (fun u => { u with t := max u.t at' })
      let s := s.collect
      .next (boxes.foldl (fun s b =>
        (State.writeAll (s.box b).cqWait.length s b false).sendNotice b false) s)

/-! ### Quiet windows and slices (R256, R377, R378) -/

/-- QUIET_WINDOW_START (R256): the core chosen for a slice takes no more placements. -/
def execQuietWindowStart (index : Nat) (s : State) : Ans :=
  match s.time.quiet.getD index none with
  | none => .next s
  | some w =>
    if !s.time.rounds then .next s
    else
      let at' := s.roundEpoch + s.time.round * s.roundLen + w.1
      let s := s.setTime (fun u => { u with t := max u.t at', window := some index })
      .next (match s.time.sliceCore with
        | some c => s.modCore c (fun k => { k with
            quietHold := true, state := if k.state = .running then .draining else if k.state = .idle then .drained else k.state })
        | none => s)

/-- QUIET_WINDOW_END (R256): slices may no longer start; a core held for one is released. -/
def execQuietWindowEnd (index : Nat) (s : State) : Ans :=
  match s.time.quiet.getD index none with
  | none => .next s
  | some w =>
    .next (s.when (decide (s.time.window = some index))
      (let at' := s.roundEpoch + s.time.round * s.roundLen + w.2
       let s := (s.setTime (fun u => { u with t := max u.t at', window := none })).bump .time 0 5 (w.2 - w.1)
       { s with cores := s.cores.map (fun k =>
           if k.quietHold ∧ k.slice.isNone then { k with
             quietHold := false
             state := if k.state = .drained then .idle else if k.state = .draining then .running else k.state }
           else k) }))

/-- Rounds since a core's last passing slice, in ns; since start where it has had none. -/
def State.sliceAge (s : State) (c : Nat) : Nat := (s.roundNow - (s.core c).lastPass.getD 0) * s.roundLen

/-- SLICE_SCHEDULE (R378): every 10 s, the next physical core; a core whose last pass is older than 30 minutes first. -/
def execSliceSchedule (s : State) : Ans :=
  let able := fun c => decide ((s.core c).state ≠ .fenced ∧ (s.core c).state ≠ .reset)
  let late := (List.range 68).find? (fun c => able c && decide (30 ≤ (s.core c).overdue))
  let order := (List.range 68).map (fun i => (s.time.nextSlice + i) % 68)
  let pick := match late with | some c => some c | none => order.find? able
  .next (match pick, s.time.sliceCore with
    | some c, none => s.setTime (fun u => { u with
        t := 10000000000 + u.t, sliceCore := some c, nextSlice := if late.isSome then u.nextSlice else (c + 1) % 68 })
    | _, _ => s)

/-- SLICE_START (R256, R377): a DRAINED core, its grant held, at least 2 ms of the window left; the stress corner. -/
def execSliceStart (core : Nat) (s : State) : Ans :=
  let room := match s.time.window with
    | some w => (match s.time.quiet.getD w none with
        | some q => decide (2000000 + s.phase ≤ q.2) | none => false)
    | none => false
  .next (s.when (decide (core < 68 ∧ (s.core core).state = .drained ∧ (s.core core).slice.isNone) &&
      room && s.pwr.grants.any (fun g => g.core == core && g.slice))
    ((s.modCore core (fun k => { k with
        state := .selftest, slice := some { patternSet := k.nextPattern, start := s.time.t }, corner := 1 })).changed .ctl core))

/-- SLICE_OVERDUE (R378): an event at 30 and at 60 minutes; at 60 the core is held out of placement. -/
def execSliceOverdue (core minutes : Nat) (s : State) : Ans :=
  let k := s.core core
  .next (s.when (decide (core < 68 ∧ ((minutes = 30 ∧ k.overdue < 30) ∨ (minutes = 60 ∧ k.overdue < 60))))
    (let s := s.modCore core (fun k => { k with overdue := minutes, hold := k.hold || decide (minutes = 60) })
     s.event { pageRec .ctl core 0x0104 .warning with a := minutes }))

end Sys2Proof.Machine
end

