-- ==== Sys2Proof/Machine/Faults.lean ====
section
/-! DEFINITION. Core commands (R69), fencing, substitution and return of cores (R371 to R376), slice verdicts (R377),
poison (R369), uncorrectable ledger entries (R364), dispositions (R363) and pigeonhole retirement (R51). -/

namespace Sys2Proof.Machine

/-! ### CORE_CMD (R69) -/

/-- DRAIN: the running kernel finishes and no other is accepted. -/
def State.drainCore (s : State) (c : Nat) : State :=
  let k := s.core c
  if k.state = .running then (s.modCore c (fun k => { k with state := .draining })).changed .ctl c
  else if k.state = .idle then (s.modCore c (fun k => { k with state := .drained })).changed .ctl c
  else s

def execDrain (core : Nat) (s : State) : Ans := .next (s.drainCore core)

/-- RESUME: a DRAINED core goes back to IDLE; STATE_WINDOW is checked to be a legal size when it is written. -/
def State.resumeCore (s : State) (c : Nat) : State :=
  s.when (decide ((s.core c).state = .drained))
    ((s.modCore c (fun k => { k with state := .idle, quietHold := false })).changed .ctl c)

def execCoreResume (core : Nat) (s : State) : Ans := .next (s.resumeCore core)

/-- CORE_DRAINED: the running kernel of a DRAINING core has ended. -/
def execCoreDrained (core : Nat) (s : State) : Ans :=
  .next (s.when (decide ((s.core core).state = .draining ∧ (s.core core).run.isNone ∧ (s.core core).chain.isNone))
    ((s.modCore core (fun k => { k with state := .drained })).changed .ctl core))

/-! ### Fencing (R371 to R373) -/

/-- Fence a core (R373 steps 1 to 4); SUPERVISOR's steps 5 and 6 are queued as tasks of classes 2 and 3. -/
def State.fenceCore (s : State) (c cause : Nat) : State :=
  let old := (s.core c).incarnation
  let s := s.takeOut c .fenced { reason := .coreFenced }
  let s := s.modCore c (fun k => { k with timesFenced := k.timesFenced + 1, fenceCause := cause })
  let s := (s.changed .ctl c).event
    { pageRec .ctl c 0x0101 .error with a := old, b := (s.core c).incarnation, c := cause }
  { s with fw := { s.fw with tasks := s.fw.tasks ++ [{ cls := 2, what := 5, arg := c }, { cls := 3, what := 6, arg := c }] } }

/-- A core may be fenced unless it is FENCED already or held in reset by its die's supply (R376). -/
def State.canFence (s : State) (c : Nat) : Bool :=
  decide (c < 68 ∧ (s.core c).state ≠ .fenced ∧ (s.rail (coreDie c)).st ≠ .reset ∧ (s.rail (coreDie c)).st ≠ .held ∧
    (s.rail (coreDie c)).st ≠ .short)

/-- CORE_FENCE (R373). -/
def execCoreFence (core cause : Nat) (s : State) : Ans :=
  .next (s.when (s.canFence core && decide (1 ≤ cause ∧ cause ≤ 3)) (s.fenceCore core cause))

/-- DRAIN_TIMEOUT (R372): a core not DRAINED within 25 ms. -/
def execDrainTimeout (core : Nat) (s : State) : Ans :=
  .next (s.when (s.canFence core && decide ((s.core core).state = .draining)) (s.fenceCore core 3))

/-- CONTROL_PARITY_ERROR (R366, R372). -/
def execControlParityError (core : Nat) (s : State) : Ans :=
  .next (s.when (s.canFence core) ((s.flag .ctl core 3 3 0).fenceCore core 2))

/-- STALE_CORE_REQUEST (R371): the request moves no data and counts; one event per core per round. -/
def execStaleCoreRequest (core incarnation : Nat) (s : State) : Ans :=
  let k := s.core core
  .next (s.when (decide (core < 68) && (incarnation != k.incarnation || k.state == .fenced))
    (let s := s.modCore core (fun k => { k with staleNoted := true, staleDrops := k.staleDrops + 1 })
     s.when (!k.staleNoted) (s.event { pageRec .ctl core 0x0105 .warning with a := incarnation })))

/-! ### Substitution and return (R374, R375) -/

/-- A spare of the die that may take a logical number: unmapped, in service, its last slice passed. -/
def State.passingSpare (s : State) (d : Nat) : Option Nat :=
  (dieCores d).find? (fun c => (s.logical c).isNone && (s.core c).lastPass.isSome &&
    decide ((s.core c).state = .drained ∨ (s.core c).state = .idle))


/-- Physical pigeonhole of logical `l` in a map word; 0xF where unmapped. -/
def mapGet (w l : Nat) : Nat := bits w (4 * l + 3) (4 * l)
def mapSet (w l v : Nat) : Nat := setBits w (4 * l + 3) (4 * l) v

/-- Logical pigeonholes that are mapped: ACM_HEALTH.USABLE (R51, R71). -/
def mapUsable (w : Nat) : Nat := ((List.range 8).filter (fun l => decide (mapGet w l < 9))).length

/-- Remap one retired physical pigeonhole (R51 step 3): to the spare; else to the highest logical one's, which is then
unmapped. -/
def remapOne (w retired p : Nat) : Nat :=
  match (List.range 8).find? (fun l => mapGet w l == p) with
  | none => w
  | some l =>
    match (List.range 9).find? (fun q => !bit retired q && (List.range 8).all (fun m => mapGet w m != q)) with
    | some q => mapSet w l q
    | none =>
      let top := mapUsable w - 1
      if l = top then mapSet w l 0xF else mapSet (mapSet w l (mapGet w top)) top 0xF

def remapAll (w retired : Nat) : Nat :=
  ((List.range 9).filter (fun p => bit retired p)).foldl (fun w p => remapOne w retired p) w

/-- Substitute a fenced core (R374): the logical number goes to the passing spare of lowest position, with its ACM_MAP
and the fenced core's STATE_WINDOW, and the spare resumes; with no spare it is left unmapped. -/
def State.substitute (s : State) (logical : Nat) : State :=
  match s.physical logical with
  | none => s
  | some c =>
    if (s.core c).state ≠ .fenced then s
    else
      let hi := 8 * (logical % 4) + 7
      let lo := 8 * (logical % 4)
      let off := Reg.hub_coreMap + 4 * (logical / 4)
      match s.passingSpare (coreDie c) with
      | none =>
        ((s.setField .hub 0 off hi lo 0xFF).changed .hub 0).event
          { pageRec .hub 0 0x0103 .error with unit := c, a := logical }
      | some sp =>
        let s := s.setField .hub 0 off hi lo sp
        let s := s.setReg (regAddr .acm sp Reg.acm_acmMap) (BitVec.ofNat 32 (remapAll 0x7654_3210 (cellGet 0 s.sec.retired sp)))
        let s := s.setReg (regAddr .state sp Reg.state_stateWindow) (s.reg (regAddr .state c Reg.state_stateWindow))
        let s := s.modCore sp (fun k => { k with state := .drained })
        let s := s.resumeCore sp
        s.event { pageRec .hub 0 0x0102 .notice with unit := c, a := logical, b := sp }

/-- CORE_SUBSTITUTE (R374). -/
def execCoreSubstitute (logical : Nat) (s : State) : Ans := .next (s.substitute logical)

/-- CORE_RETURN (R375): after a full self-test over quiet windows; a core fenced a third time stays fenced. -/
def execCoreReturn (core : Nat) (allPassed : Bool) (s : State) : Ans :=
  let k := s.core core
  .next (s.when (decide (core < 68 ∧ k.state = .fenced ∧ k.timesFenced < 3) && allPassed)
    (let s := s.modCore core (fun k => { k with
       state := .drained, lastPass := some s.roundNow, exposure := [], exposureOverflow := false, overdue := 0 })
     (s.changed .ctl core).event { pageRec .ctl core 0x0106 .notice with a := k.incarnation }))

/-! ### Slices (R377, R379, R414) -/

/-- The stamps of a slice go back (R402). -/
def State.endSliceGrant (s : State) (c : Nat) : State :=
  s.setPwr (fun p => { p with grants := p.grants.filter (fun g => !(g.core == c && g.slice)) })

/-- SLICE_END (R377): a mismatch fences the core; a match clears its exposure buffer, records the round and resumes
service; a slice that a dip met is discarded without fencing and repeats (R414). -/
def execSliceEnd (core : Nat) (_observed : W64) (signatureMatches dip : Bool) (s : State) : Ans :=
  let k := s.core core
  if ¬ (core < 68 ∧ k.state = .selftest ∧ k.slice.isSome) then .next s
  else
    let s := s.endSliceGrant core
    let back : CoreSt := if (s.logical core).isSome then .idle else .drained
    let s := (s.modCore core (fun k => { k with slice := none, corner := 0, quietHold := false, lastBox := none })).changed .ctl core
    if dip then .next (s.modCore core (fun k => { k with state := back }))
    else
      let s := s.setTime (fun u => { u with sliceCore := if u.sliceCore = some core then none else u.sliceCore })
      if signatureMatches then
        .next (s.modCore core (fun k => { k with
          state := back, lastPass := some s.roundNow, overdue := 0, hold := false
          nextPattern := (k.nextPattern + 1) % 16, exposure := [], exposureOverflow := false }))
      else .next (s.fenceCore core 1)

/-! ### Poison and ledger errors (R364, R369) -/

/-- POISON_CONSUMED (R369): the running instance has read poison; its clerks go on, what they issue completes, and at its
end it does not commit and its item fails with POISON (see INSTANCE_END). -/
def execPoisonConsumed (core va : Nat) (s : State) : Ans :=
  .next (s.when (s.core core).run.isSome
    (s.modCore core (fun k => { k with run := k.run.map (fun i => { i with poison := some va }) })))

/-- LEDGER_ENTRY_UE (R364): the item fails with POISON; its entry is reported by the copy that reads cleanly, and by
every box with an open item where neither does. -/
def execLedgerEntryUe (id : Nat) (tagClean positionClean : Bool) (s : State) : Ans :=
  match s.item? id with
  | none => .next s
  | some i =>
    let r : Record := { pageRec .hub 0 0x0601 .error with
      box := some i.box, tag := if tagClean then some i.tag else none
      -- boxes told, as a mask, where neither position copy reads cleanly
      b := if tagClean ∨ positionClean then 0
           else ((List.range 64).filter (fun b => !(s.openItems b).isEmpty)).foldl (fun m b => m + 2 ^ b) 0 }
    if i.disp.isSome then .next (s.event r)
    else
      let s := s.event r
      let s := (s.flag .hub 0 2 2 0)
      if tagClean then .next (s.failItem id { reason := .poison })
      else if positionClean then
        .next ((s.modItem id (fun i => { i with tagLost := true })).failItem id { reason := .poison })
      else
        let boxes := (List.range 64).filter (fun b => !(s.openItems b).isEmpty)
        let s := s.modItem id (fun i => { i with tagLost := true, submitValid := false, anonymous := true })
        let s := s.failItem id { reason := .poison }
        match s.item? id with
        | none => .next s
        | some j =>
          .next ((boxes.filter (· != i.box)).foldl (fun s b => s.modBox b (fun x =>
            { x with dlqWait := x.dlqWait ++ [{ item := none, body := j.deadLetter { reason := .poison } }] })) s)

/-! ### Dispositions (R22, R363) -/

/-- Lowest-numbered failing entry. -/
def firstFailing : Nat → List Entry → Option Fail
  | _, [] => none
  | k, e :: l =>
    match e.st with
    | .failed f => some { f with entry := if f.entry = 0xFFFF then k else f.entry }
    | _ => firstFailing (k + 1) l

def Entry.settled (e : Entry) : Bool :=
  match e.st with
  | .committed | .paused | .failed _ => true
  | _ => false

/-- The item has reached its end: its operation, or every entry and any boundary cull (R18). -/
def Item.over (i : Item) : Bool :=
  i.opEnd || (!i.entries.isEmpty && i.entries.all Entry.settled && (i.culled || !(i.kind == 0x03 && bit i.desc.toNat 336)))

/-- The disposition of an item that has reached its end (R22). -/
def Item.verdict (i : Item) : Disp :=
  match i.opFail with
  | some f => .failed f
  | none =>
    match firstFailing 0 i.entries with
    | some f => .failed f
    | none => .done (i.entries.any (·.drift))

/-- DISPOSITION_RECORD (R363): the ledger records the disposition of an item that has reached its end. -/
def execDispositionRecord (id : Nat) (s : State) : Ans :=
  match s.item? id with
  | none => .next s
  | some i => .next (s.when (i.disp.isNone && i.over && !s.runningOf id) (s.resolve id i.verdict))

/-! ### Pigeonholes (R51) -/

/-- Errors in a pigeonhole (R51): the corrected count, the flags, and poison where it cannot be corrected. -/
def State.phParity (s : State) (core ph : Nat) (uncorrectable : Bool) (corrected : Nat) : State :=
  let s1 := s.modCore core (fun k => { k with phCe := k.phCe.set ph corrected })
  let s1 := s1.when (decide (0 < corrected))
    ((s1.flag .acm core 1 2 (ph * 2 ^ 18)).bump .acm core 0 (corrected - (s.core core).phCe.getD ph 0))
  s1.when uncorrectable
    (((s1.modCore core (fun k => { k with
      phPoison := (List.range 256).foldl (fun m r => setInsert m (ph * 256 + r)) k.phPoison })).flag
        .acm core 2 2 (ph * 2 ^ 18)).bump .acm core 1 1)

/-- A pigeonhole is retired, now and in the field record to come (R51). -/
def State.retirePh (s : State) (core ph : Nat) (uncorrectable : Bool) : State :=
  let s := (s.modCore core (fun k => { k with retired := k.retired + 2 ^ ph })).changed .acm core
  let s : State := { s with sec := { s.sec with retired := cellSet 0 s.sec.retired core (s.core core).retired } }
  (s.bump .acm core 2 1).event { pageRec .acm core 0x0100 .warning with a := ph, b := b2n uncorrectable }

/-- PIGEONHOLE_RETIRE (R51): the affected rows poisoned, ACM_HEALTH.RETIRED set, the event recorded and the retirement
put down for the field record. `corrected` is the count of corrected errors in this round. -/
def execPigeonholeRetire (core ph : Nat) (uncorrectable : Bool) (corrected : Nat) (s : State) : Ans :=
  if ¬ (core < 68 ∧ ph < 9) then .next s
  else
    let limit := s.field .acm core Reg.acm_acmCeLimit 7 0
    let s1 := s.phParity core ph uncorrectable corrected
    .next (s1.when ((uncorrectable || decide (limit ≠ 0 ∧ limit ≤ corrected)) && !bit (s.core core).retired ph)
      (s1.retirePh core ph uncorrectable))

/-- PIGEONHOLE_REMAP (R51): at the kernel boundary firmware drains the core and remaps; the core then goes on. -/
def execPigeonholeRemap (core : Nat) (s : State) : Ans :=
  let k := s.core core
  let old := s.regN .acm core Reg.acm_acmMap
  let new := remapAll old k.retired
  .next (s.when (decide (core < 68 ∧ k.run.isNone ∧ (k.state = .drained ∨ k.state = .idle ∨ k.state = .draining) ∧ new ≠ old))
    (let s := (s.setReg (regAddr .acm core Reg.acm_acmMap) (BitVec.ofNat 32 new)).changed .acm core
     s.modCore core (fun k => { k with state := if (s.logical core).isSome then .idle else .drained })))

end Sys2Proof.Machine
end

