-- ==== Sys2Proof/Machine/Mxe.lean ====
section
/-! DEFINITION. The matrix engine and the drain as functions on `Exec`: lane sums (R81 to R84), the pigeonhole adder
(R85), MXWL's write of the shadow bank (R41, R113), a broadcast tile (R40, R43, R50) and the drain chain (R52 to R55,
R93 to R95). -/

namespace Sys2Proof.Machine

/-! ### Modes -/

/-- MXE modes (R39). -/
inductive MxeMode where
  | dual | single | half
  deriving DecidableEq, Repr

/-- The mode an operand and a weight format select; none where R39 refuses the pairing. -/
def mxeMode (opnd wgt : Nat) : Option MxeMode :=
  match Fmt.ofCode opnd, Fmt.ofCode wgt with
  | some .e2m1, some .e2m1 | some .int4, some .int4 => some .dual
  | some .e4m3, some .e2m1 | some .e4m3, some .e4m3 | some .e4m3, some .e5m2
  | some .e5m2, some .e2m1 | some .e5m2, some .e4m3 | some .e5m2, some .e5m2
  | some .int8, some .int4 | some .int8, some .int8 => some .single
  | some .bf16, some .bf16 | some .fp16, some .fp16 => some .half
  | _, _ => none

/-- Cycles a tile of M rows occupies the bus (R40). -/
def MxeMode.cycles (m : MxeMode) (rows : Nat) : Nat :=
  match m with
  | .dual => cdiv rows 2
  | .single => rows
  | .half => 2 * rows

/-- F of R82 for an operand format. -/
def groupF (f : Fmt) : Int := if f.width = 16 then 26 else 20

/-! ### Lane sums -/

/-- Any product NaN: the group is NaN; both infinities: NaN; one infinity: that infinity (R84). -/
def groupSpecial (ps : List FV) : Option FV :=
  if ps.any FV.isNan then some .nan
  else
    let pos := ps.any (fun p => p == .inf false)
    let neg := ps.any (fun p => p == .inf true)
    if pos && neg then some .nan else if pos then some (.inf false) else if neg then some (.inf true) else none

/-- `±m * 2^e` in units of `2^u`, truncated toward −∞ (R82 step 3). -/
def floorUnits (p : FV) (u : Int) : Int :=
  match p with
  | .fin n m e =>
    if u ≤ e then sUnits n m e u
    else
      let d : Int := (2 : Int) ^ (u - e).toNat
      (if n then -(m : Int) else (m : Int)) / d
  | _ => 0

/-- The group sum of one lane (R82, R84), `f` being F. -/
def laneGroup (f : Int) (ps : List FV) : FV :=
  match groupSpecial ps with
  | some v => v
  | none =>
    let nz := ps.filter (fun p => !p.isZero)
    let es := nz.map (fun p => match p with | .fin _ m e => leadExp m e | _ => 0)
    match es with
    | [] => .fin false 0 0
    | e0 :: es =>
      let u := es.foldl max e0 - f
      let total := nz.foldl (fun acc p => acc + floorUnits p u) 0
      FV.ofInt total u

/-- The exact integer sum of one lane (R81). -/
def laneGroupInt (ps : List FV) : FV :=
  FV.ofInt (ps.foldl (fun acc p => acc + floorUnits p 0) 0) 0

/-- The pigeonhole adder (R85, R50). -/
def phAdd (accInit : Bool) (old : W32) (group : FV) : W32 :=
  if accInit then f32 group else f32 ((fv old).add group)

/-! ### Weight banks -/

/-- Elements of a 32-bit weight-bank word (R366). -/
def wordElems (f : Fmt) : Nat := 32 / f.width

/-- Key of the bank word that holds element (r, c): consecutive elements of one stored column. -/
def bankWord (f : Fmt) (r c : Nat) : Nat := c * 128 + r / wordElems f

/-- The bank cells of a block of rows (patterns), the rest of the bank zero (R113). -/
def blockCells (rows : List (List Elem)) : List (Nat × BitVec 16) :=
  (rows.zipIdx.map (fun p => runCells 0 (p.2 * 256) (p.1.map (fun e => BitVec.ofNat 16 e.1)))).flatten

/-- Words poisoned by poisoned elements of the block. -/
def blockPoison (f : Fmt) (rows : List (List Elem)) : List Nat :=
  rows.zipIdx.foldl (fun acc p =>
    p.1.zipIdx.foldl (fun acc q => if q.1.2 then setInsert acc (bankWord f p.2 q.2) else acc) acc) []

/-- MXWL: the block written into the shadow bank (R41). -/
def Exec.loadShadow (x : Exec) (f : Fmt) (rows : List (List Elem)) (k n : Nat) (clerk : Nat) : Exec :=
  let sh := 1 - x.core.bank
  { (x.consume rows) with core := { x.core with
      banks := x.core.banks.set sh { cells := blockCells rows }
      bankPoison := x.core.bankPoison.set sh (blockPoison f rows)
      bankDims := x.core.bankDims.set sh (k, n)
      loading := some clerk } }

/-- Exchange the banks: SHADOW_READY becomes 0 (R42). -/
def Core.swapBanks (c : Core) : Core := { c with bank := 1 - c.bank, shadowReady := false }

/-! ### Broadcast -/

/-- Issue checks of an MXMUL operand tile (R63, R106). -/
def mulChecks (x : Exec) (t : Tile) : Option Fail :=
  issueChecks x [t] [if t.fmt = x.ker.opndFmt then none else some (Fail.loadCheck 0x0401)]

/-- Physical pigeonhole of a logical one in an ACM_MAP word (R48). -/
def acmPhys (map : Nat) (l : Nat) : Nat := bits map (4 * l + 3) (4 * l)

/-- Weights of lane `j`, as values, with the poison of each one's word, for read axis `axis` (R43). -/
def Core.lane (c : Core) (f : Fmt) (axis j k : Nat) : List (FV × Bool) :=
  let b := c.banks.getD c.bank {}
  let bad := c.bankPoison.getD c.bank []
  (List.range k).map (fun i =>
    let rc := if axis = 0 then (i, j) else (j, i)
    (f.decode (b.get (rc.1 * 256 + rc.2)).toNat, bad.contains (bankWord f rc.1 rc.2)))

/-- One lane's group for an operand row. -/
def laneSum (opnd : Fmt) (isInt : Bool) (row : List FV) (lane : List (FV × Bool)) : FV :=
  let ps := List.zipWith (fun a w => a.mul w.1) row lane
  if isInt then laneGroupInt ps else laneGroup (groupF opnd) ps

/-- The pigeonhole row after one broadcast row: lanes below `n` add or write their group (R40, R50). -/
def addRow (accInit : Bool) (ph : Store 32) (r : Nat) (sums : List FV) : Store 32 :=
  ph.setRun (r * 256) (sums.zipIdx.map (fun p => phAdd accInit (ph.get (r * 256 + p.2)) p.1))

/-- Broadcast every row of an operand tile, rows ascending (R87): lane contents, the rows still to send from `r`, and
the pigeonhole with its poisoned rows (row numbers). -/
def broadcastRows (opnd : Fmt) (isInt accInit : Bool) (lanes : List (List (FV × Bool))) :
    Nat → List (List Elem) → Store 32 × List Nat → Store 32 × List Nat
  | _, [], a => a
  | r, row :: rows, a =>
    let vals := row.map (fun e => opnd.decode e.1)
    let bad := row.any (·.2) || lanes.any (fun l => l.any (·.2))
    let ph := addRow accInit a.1 r (lanes.map (laneSum opnd isInt vals))
    -- a row written whole under ACC_INIT loses its poison (R368)
    let old := if accInit ∧ lanes.length = 256 then setErase a.2 r else a.2
    broadcastRows opnd isInt accInit lanes (r + 1) rows (ph, if bad then setInsert old r else old)

/-- One MXMUL's broadcasts into physical pigeonhole `p` (R38 to R45, R81 to R85). -/
def Exec.broadcast (x : Exec) (t : Tile) (p axis : Nat) (accInit : Bool) : Exec :=
  let opnd := t.f
  let wgt := (Fmt.ofCode x.ker.wgtFmt).getD .fp32
  let dims := x.core.bankDims.getD x.core.bank (256, 256)
  let n := if axis = 0 then dims.2 else dims.1
  let lanes := (List.range n).map (fun j => x.core.lane wgt axis j t.cols)
  let rows := x.readTile t
  let bad0 := ((x.core.phPoison.filter (fun q => q / 256 = p)).map (· % 256))
  let a := broadcastRows opnd opnd.isInt accInit lanes 0 rows (x.core.ph.getD p {}, bad0)
  let mode := (mxeMode x.ker.opndFmt x.ker.wgtFmt).getD .single
  let x := x.consume rows
  let x := { x with
    poisoned := x.poisoned || lanes.any (fun l => l.any (·.2))
    core := { x.core with
      ph := x.core.ph.set p a.1
      axis := axis
      phPoison := a.2.foldl (fun s r => setInsert s (p * 256 + r)) (x.core.phPoison.filter (fun q => q / 256 ≠ p)) } }
  ((x.bump .mxe 0 (mode.cycles t.rows)).bump .mxe 1 (cdiv (t.rows * t.cols * n) 256)).bump .acm 3 t.rows

/-! ### The drain chain (R54, R93) -/

/-- Stages of a chain: the words before its first NOP (R55). -/
def chainStages (ws : List Nat) : List Nat := ws.takeWhile (fun w => bits w 15 12 ≠ 0)

def stageOp (w : Nat) : Nat := bits w 15 12

def chainHas (ws : List Nat) (op : Nat) : Bool := (chainStages ws).any (fun w => stageOp w == op)

/-- Does the chain use per-channel scales? -/
def chainPerChannel (ws : List Nat) : Bool := (chainStages ws).any (fun w => stageOp w == 1 && bit w 0)

/-- Rounding code and SAT of a chain's CONVERT (R55); a chain without CONVERT writes FP32 as it is. -/
def chainRnd (ws : List Nat) : Rnd :=
  if !chainHas ws 8 then .near else
  match (chainStages ws).find? (fun w => stageOp w == 6) with
  | some w => (Rnd.ofCode (bits w 2 0)).getD .near
  | none => .near

def chainSat (ws : List Nat) : Bool :=
  chainHas ws 8 &&
  match (chainStages ws).find? (fun w => stageOp w == 7) with
  | some w => bit w 0
  | none => false

/-- Activation functions (R54, R93). -/
def activate (k : Kernel) (code : Nat) (v : W32) : W32 :=
  match code with
  | 1 => frelu v
  | 2 => fgelu v
  | 3 => fsilu v
  | 4 => fsigmoid v
  | 5 => ftanh v
  | 6 => fsoftplus v
  | 7 => fleaky k.actAlpha v
  | _ => v

/-- One FP32 stage on an element: its channel's scale and bias and its residual are given. -/
def stageApply (k : Kernel) (w : Nat) (scale bias resid : W32) (v : W32) : W32 :=
  match stageOp w with
  | 1 =>
    let y := fmul v k.outScale
    if bit w 0 then fmul y scale else y
  | 2 => fadd v bias
  | 3 => activate k (bits w 3 0) v
  | 4 => fadd v resid
  | 5 => fclip k.clipLo k.clipHi v
  | _ => v

def chainApply (k : Kernel) (stages : List Nat) (scale bias resid : W32) (v : W32) : W32 :=
  stages.foldl (fun v w => stageApply k w scale bias resid v) v

/-- Issue checks of a DRN (R52, R55, R63, R108). -/
def drnChecks (x : Exec) (dest resid : Tile) (ws : List Nat) (parm : W64) : Option Fail :=
  let hasResid := chainHas ws 4
  let ts := if hasResid then [dest, resid] else [dest]
  let conv := chainHas ws 8
  issueChecks x ts
    [ if bits parm.toNat 63 32 ≠ 0 then some (Fail.loadCheck 0x0403) else none,
      if ¬ conv ∧ dest.fmt ≠ 7 then some (Fail.loadCheck 0x040B) else none,
      if hasResid ∧ (resid.rows < dest.rows ∨ resid.cols < dest.cols) then some (Fail.loadCheck 0x040B) else none ]

/-- A row of the pigeonhole through the chain: FP32 values and their poison. -/
def drainRow (x : Exec) (p : Nat) (ws : List Nat) (scales biases : List W32) (dest resid : Tile) (r : Nat) :
    List (FV × Bool) :=
  let rowBad := x.core.phPoison.contains (p * 256 + r)
  let res := if chainHas ws 4 then x.readRow resid r else []
  let ph := x.core.ph.getD p {}
  (List.range dest.cols).map (fun j =>
    let e := res.getD j (0, false)
    let v := chainApply x.ker (chainStages ws) (scales.getD j 0) (biases.getD j 0) (toF32 resid.f e.1)
      (ph.get (r * 256 + j))
    (fv v, rowBad || e.2))

/-- Convert and write a drained row, counting the drain's SATURATED, NAN_WRITTEN and STOCHASTIC_ROUNDS (R73, R95). -/
def Exec.drainPut (x : Exec) (t : Tile) (rnd : Rnd) (sat : Bool) (r : Nat) (row : List (FV × Bool)) : Exec :=
  let stoch := rnd.draws && x.sr
  let step := fun (a : Exec × List Elem) (v : FV × Bool) =>
    let c := a.1.convert t.f rnd sat v.1
    let y := c.1
    let y := if c.2.sat then y.bump .drain 1 1 else y
    let y := if c.2.nan then y.bump .drain 2 1 else y
    let y := if stoch then y.bump .drain 3 1 else y
    (y, a.2 ++ [(c.2.pat, v.2)])
  let a := row.foldl step (x, [])
  a.1.writeRow t r a.2

/-- The whole drain (R52): every row of the destination tile, through the chain, rows ascending. -/
def Exec.drainAll (x : Exec) (p : Nat) (ws : List Nat) (scales biases : List W32) (dest resid : Tile) : Exec :=
  let rows := (List.range dest.rows).map (fun r => (r, drainRow x p ws scales biases dest resid r))
  let x := { x with poisoned := x.poisoned || rows.any (fun q => q.2.any (·.2)) }
  let x := rows.foldl (fun y q => y.drainPut dest (chainRnd ws) (chainSat ws) q.1 q.2) x
  x.bump .drain 0 (dest.rows * dest.cols)

end Sys2Proof.Machine
end

