-- ==== Sys2Proof/Machine/Rv64.lean ====
section
/-! DEFINITION. What a clerk executes (R59, R464): RV64IMAC as the RISC-V standard gives it (log 20), the decoding of
the tile extension (R61), the clerk's address map and its traps (R64). -/

namespace Sys2Proof.Machine

/-- x0 reads 0; the others are held. -/
def Clerk.getX (c : Clerk) (i : Nat) : W64 := if i = 0 then 0 else c.x.getD (i - 1) 0
def Clerk.setX (c : Clerk) (i : Nat) (v : W64) : Clerk := if i = 0 then c else { c with x := c.x.set (i - 1) v }

/-- Sign extension of a `w`-bit number to 64 bits. -/
def sx64 (w v : Nat) : W64 := BitVec.ofInt 64 (sInt w v)

/-- A 32-bit result sign-extended. -/
def sxw (v : W64) : W64 := (v.setWidth 32).signExtend 64

/-! ### Compressed instructions: the 32-bit instruction each stands for -/

def encI (imm rs1 f3 rd op : Nat) : Nat := (imm % 4096) * 2 ^ 20 + rs1 * 2 ^ 15 + f3 * 2 ^ 12 + rd * 2 ^ 7 + op
def encR (f7 rs2 rs1 f3 rd op : Nat) : Nat :=
  f7 * 2 ^ 25 + rs2 * 2 ^ 20 + rs1 * 2 ^ 15 + f3 * 2 ^ 12 + rd * 2 ^ 7 + op
def encS (imm rs2 rs1 f3 : Nat) : Nat :=
  (bits imm 11 5) * 2 ^ 25 + rs2 * 2 ^ 20 + rs1 * 2 ^ 15 + f3 * 2 ^ 12 + (bits imm 4 0) * 2 ^ 7 + 0x23
def encB (imm rs2 rs1 f3 : Nat) : Nat :=
  (bits imm 12 12) * 2 ^ 31 + (bits imm 10 5) * 2 ^ 25 + rs2 * 2 ^ 20 + rs1 * 2 ^ 15 + f3 * 2 ^ 12 +
    (bits imm 4 1) * 2 ^ 8 + (bits imm 11 11) * 2 ^ 7 + 0x63
def encJ (imm rd : Nat) : Nat :=
  (bits imm 20 20) * 2 ^ 31 + (bits imm 10 1) * 2 ^ 21 + (bits imm 11 11) * 2 ^ 20 + (bits imm 19 12) * 2 ^ 12 +
    rd * 2 ^ 7 + 0x6F

/-- A signed field of `w` bits as a two's-complement number of 32 bits. -/
def sxField (w v : Nat) : Nat := uNat 32 (sInt w v)

/-- Quadrant 0 of RV64C. -/
def rvcQ0 (h : Nat) : Option Nat :=
  let rd' := bits h 4 2 + 8
  let rs1' := bits h 9 7 + 8
  let w := bits h 12 10 * 8 + bits h 6 6 * 4 + bits h 5 5 * 64
  let d := bits h 12 10 * 8 + bits h 6 5 * 64
  match bits h 15 13 with
  | 0 =>
    let imm := bits h 12 11 * 16 + bits h 10 7 * 64 + bits h 6 6 * 4 + bits h 5 5 * 8
    if imm = 0 then none else some (encI imm 2 0 rd' 0x13)
  | 2 => some (encI w rs1' 2 rd' 0x03)
  | 3 => some (encI d rs1' 3 rd' 0x03)
  | 6 => some (encS w rd' rs1' 2)
  | 7 => some (encS d rd' rs1' 3)
  | _ => none

/-- Quadrant 1. -/
def rvcQ1 (h : Nat) : Option Nat :=
  let rd := bits h 11 7
  let imm6 := bits h 12 12 * 32 + bits h 6 2
  let imm := sxField 6 imm6
  let r1 := bits h 9 7 + 8
  let r2 := bits h 4 2 + 8
  match bits h 15 13 with
  | 0 => some (encI imm rd 0 rd 0x13)
  | 1 => if rd = 0 then none else some (encI imm rd 0 rd 0x1B)
  | 2 => some (encI imm 0 0 rd 0x13)
  | 3 =>
    if imm6 = 0 then none
    else if rd = 2 then
      let v := bits h 12 12 * 512 + bits h 6 6 * 16 + bits h 5 5 * 64 + bits h 4 3 * 128 + bits h 2 2 * 32
      some (encI (sxField 10 v) 2 0 2 0x13)
    else some ((sxField 6 imm6 % 2 ^ 20) * 2 ^ 12 + rd * 2 ^ 7 + 0x37)
  | 4 =>
    match bits h 11 10 with
    | 0 => some (encI imm6 r1 5 r1 0x13)
    | 1 => some (encI (imm6 + 0x400) r1 5 r1 0x13)
    | 2 => some (encI imm r1 7 r1 0x13)
    | _ =>
      match bits h 12 12, bits h 6 5 with
      | 0, 0 => some (encR 0x20 r2 r1 0 r1 0x33)
      | 0, 1 => some (encR 0 r2 r1 4 r1 0x33)
      | 0, 2 => some (encR 0 r2 r1 6 r1 0x33)
      | 0, 3 => some (encR 0 r2 r1 7 r1 0x33)
      | 1, 0 => some (encR 0x20 r2 r1 0 r1 0x3B)
      | 1, 1 => some (encR 0 r2 r1 0 r1 0x3B)
      | _, _ => none
  | 5 =>
    let v := bits h 12 12 * 2048 + bits h 11 11 * 16 + bits h 10 9 * 256 + bits h 8 8 * 1024 + bits h 7 7 * 64 +
      bits h 6 6 * 128 + bits h 5 3 * 2 + bits h 2 2 * 32
    some (encJ (sxField 12 v) 0)
  | f =>
    let v := bits h 12 12 * 256 + bits h 11 10 * 8 + bits h 6 5 * 64 + bits h 4 3 * 2 + bits h 2 2 * 32
    some (encB (sxField 9 v) 0 r1 (f - 6))

/-- Quadrant 2. -/
def rvcQ2 (h : Nat) : Option Nat :=
  let rd := bits h 11 7
  let rs2 := bits h 6 2
  match bits h 15 13 with
  | 0 => some (encI (bits h 12 12 * 32 + rs2) rd 1 rd 0x13)
  | 2 => if rd = 0 then none
    else some (encI (bits h 12 12 * 32 + bits h 6 4 * 4 + bits h 3 2 * 64) 2 2 rd 0x03)
  | 3 => if rd = 0 then none
    else some (encI (bits h 12 12 * 32 + bits h 6 5 * 8 + bits h 4 2 * 64) 2 3 rd 0x03)
  | 4 =>
    if bits h 12 12 = 0 then
      if rs2 = 0 then (if rd = 0 then none else some (encI 0 rd 0 0 0x67))
      else some (encR 0 rs2 0 0 rd 0x33)
    else if rs2 = 0 then (if rd = 0 then some 0x0010_0073 else some (encI 0 rd 0 1 0x67))
    else some (encR 0 rs2 rd 0 rd 0x33)
  | 6 => some (encS (bits h 12 9 * 4 + bits h 8 7 * 64) rs2 2 2)
  | 7 => some (encS (bits h 12 10 * 8 + bits h 9 7 * 64) rs2 2 3)
  | _ => none

/-- The instruction a halfword of RV64C stands for; none where it is reserved or needs F or D. -/
def rvcExpand (h : Nat) : Option Nat :=
  match h % 4 with
  | 0 => rvcQ0 h
  | 1 => rvcQ1 h
  | 2 => rvcQ2 h
  | _ => none

/-! ### What an instruction is -/

/-- Decoded kind of the word at the program counter: a base instruction (expanded, with its length), or one of the
tile extension (R61). -/
inductive ClerkOp where
  | base (word len : Nat)
  | ecall (len : Nat)
  | tdld (td rs1 : Nat)
  | tdst (rs1 td : Nat)
  | tdset (td rs1 sel : Nat)
  | mxwl (td : Nat)
  | mxmul (td ph : Nat) (accInit axis swap : Bool)
  | drn (dest resid ph chain : Nat)
  | vxop (d a b opcode : Nat)
  | crr (dest src courier : Nat)
  | twait (mask : Nat)
  | tparm (rs1 : Nat)
  | tstat (rd : Nat)
  | illegal
  deriving DecidableEq, Repr

/-- Opcodes of R57 that are not reserved. -/
def vxOpcodeOk (o : Nat) : Bool :=
  decide ((1 ≤ o ∧ o ≤ 9) ∨ (0x10 ≤ o ∧ o ≤ 0x18) ∨ (0x20 ≤ o ∧ o ≤ 0x23) ∨ (0x30 ≤ o ∧ o ≤ 0x38))

/-- Words of opcode 0b000_1011 (R61). -/
def decodeTile0 (w : Nat) : ClerkOp :=
  let rd := bits w 11 7
  let rs1 := bits w 19 15
  let rs2 := bits w 24 20
  let f7 := bits w 31 25
  match bits w 14 12 with
  | 0 => if rd < 8 ∧ rs2 = 0 ∧ f7 = 0 then .tdld rd rs1 else .illegal
  | 1 => if rd = 0 ∧ rs2 < 8 ∧ f7 = 0 then .tdst rs1 rs2 else .illegal
  | 2 => if rd < 8 ∧ rs2 = 0 ∧ f7 < 3 then .tdset rd rs1 f7 else .illegal
  | 3 => if rd = 0 ∧ rs1 < 8 ∧ rs2 = 0 ∧ f7 = 0 then .mxwl rs1 else .illegal
  | 4 =>
    if rd = 0 ∧ rs1 < 8 ∧ rs2 = 0 ∧ ¬ bit w 25 then .mxmul rs1 (bits w 31 29) (bit w 28) (bit w 27) (bit w 26)
    else .illegal
  | 5 => if rd < 8 ∧ rs1 < 8 ∧ rs2 = 0 then .drn rd rs1 (bits w 31 29) (bits w 28 25) else .illegal
  | 6 => if rd < 8 ∧ rs1 < 8 ∧ rs2 < 8 ∧ vxOpcodeOk f7 then .vxop rd rs1 rs2 f7 else .illegal
  | _ => if rd < 8 ∧ rs1 < 8 ∧ rs2 = 0 ∧ bits w 31 27 = 0 then .crr rd rs1 (bits w 26 25) else .illegal

/-- Words of opcode 0b010_1011 (R61). -/
def decodeTile1 (w : Nat) : ClerkOp :=
  let rd := bits w 11 7
  let rs1 := bits w 19 15
  let rs2 := bits w 24 20
  let f7 := bits w 31 25
  match bits w 14 12 with
  | 0 => if rd = 0 ∧ rs1 = 0 ∧ rs2 = 0 then .twait f7 else .illegal
  | 1 => if rd = 0 ∧ rs2 = 0 ∧ f7 = 0 then .tparm rs1 else .illegal
  | 2 => if rs1 = 0 ∧ rs2 = 0 ∧ f7 = 0 then .tstat rd else .illegal
  | _ => .illegal

/-- The instruction that begins with the 32 bits `w` (its first halfword decides its length). -/
def decodeClerk (w : Nat) : ClerkOp :=
  if w % 4 ≠ 3 then
    match rvcExpand (w % 2 ^ 16) with
    | some x => .base x 2
    | none => .illegal
  else
    match w % 128 with
    | 0x0B => decodeTile0 w
    | 0x2B => decodeTile1 w
    | 0x73 => if w = 0x0000_0073 then .ecall 4 else .base w 4
    | _ => .base w 4

/-! ### Base instructions -/

/-- What a base instruction asks for beyond the clerk's registers. -/
inductive RvAct where
  | done (c : Clerk)
  | load (rd addr size : Nat) (signed : Bool)
  | store (addr size : Nat) (v : W64)
  | lr (rd addr size : Nat)
  | sc (rd addr size : Nat) (v : W64)
  | amo (rd addr size op : Nat) (v : W64)
  | trap (cause : Nat)
  deriving DecidableEq, Repr

def Clerk.advance (c : Clerk) (len : Nat) : Clerk := { c with pc := c.pc + BitVec.ofNat 64 len }

/-- `rd ← v` and the next instruction. -/
def Clerk.write (c : Clerk) (rd len : Nat) (v : W64) : RvAct := .done ((c.setX rd v).advance len)

/-- Integer operations of OP and OP-IMM. -/
def rvAlu (f3 : Nat) (alt : Bool) (a b : W64) : W64 :=
  let sh := b.toNat % 64
  match f3 with
  | 0 => if alt then a - b else a + b
  | 1 => a <<< sh
  | 2 => if a.slt b then 1 else 0
  | 3 => if a.ult b then 1 else 0
  | 4 => a ^^^ b
  | 5 => if alt then a.sshiftRight sh else a >>> sh
  | 6 => a ||| b
  | _ => a &&& b

/-- The word forms of OP-32 and OP-IMM-32. -/
def rvAluW (f3 : Nat) (alt : Bool) (a b : W64) : Option W64 :=
  let sh := b.toNat % 32
  let aw := a.setWidth 32
  match f3 with
  | 0 => some (sxw (if alt then a - b else a + b))
  | 1 => some ((aw <<< sh).signExtend 64)
  | 5 => some ((if alt then aw.sshiftRight sh else aw >>> sh).signExtend 64)
  | _ => none

/-- Signed quotient and remainder of width `w` with the standard's results for division by 0 and overflow. -/
def rvDiv (w : Nat) (a b : Nat) : Nat :=
  let x := sInt w a
  let y := sInt w b
  if y = 0 then 2 ^ w - 1 else uNat w (x.tdiv y)
def rvRem (w : Nat) (a b : Nat) : Nat :=
  let x := sInt w a
  let y := sInt w b
  if y = 0 then uNat w x else uNat w (x.tmod y)
def rvDivu (w : Nat) (a b : Nat) : Nat :=
  let y := b % 2 ^ w
  if y = 0 then 2 ^ w - 1 else a % 2 ^ w / y
def rvRemu (w : Nat) (a b : Nat) : Nat :=
  let y := b % 2 ^ w
  if y = 0 then a % 2 ^ w else a % 2 ^ w % y

/-- The M extension. -/
def rvMul (f3 : Nat) (a b : W64) : W64 :=
  let sa := sInt 64 a.toNat
  let sb := sInt 64 b.toNat
  match f3 with
  | 0 => a * b
  | 1 => BitVec.ofInt 64 (sa * sb / 2 ^ 64)
  | 2 => BitVec.ofInt 64 (sa * (b.toNat : Int) / 2 ^ 64)
  | 3 => BitVec.ofNat 64 (a.toNat * b.toNat / 2 ^ 64)
  | 4 => BitVec.ofNat 64 (rvDiv 64 a.toNat b.toNat)
  | 5 => BitVec.ofNat 64 (rvDivu 64 a.toNat b.toNat)
  | 6 => BitVec.ofNat 64 (rvRem 64 a.toNat b.toNat)
  | _ => BitVec.ofNat 64 (rvRemu 64 a.toNat b.toNat)

def rvMulW (f3 : Nat) (a b : W64) : Option W64 :=
  match f3 with
  | 0 => some (sxw (a * b))
  | 4 => some (sx64 32 (rvDiv 32 a.toNat b.toNat))
  | 5 => some (sx64 32 (rvDivu 32 a.toNat b.toNat))
  | 6 => some (sx64 32 (rvRem 32 a.toNat b.toNat))
  | 7 => some (sx64 32 (rvRemu 32 a.toNat b.toNat))
  | _ => none

/-- Branch conditions. -/
def rvTaken (f3 : Nat) (a b : W64) : Option Bool :=
  match f3 with
  | 0 => some (a == b)
  | 1 => some (a != b)
  | 4 => some (a.slt b)
  | 5 => some (!a.slt b)
  | 6 => some (a.ult b)
  | 7 => some (!a.ult b)
  | _ => none

/-- Atomic memory operations on `size` bytes: the value stored. -/
def rvAmo (op size : Nat) (old v : W64) : W64 :=
  let w := 8 * size
  let so := sInt w old.toNat
  let sv := sInt w v.toNat
  let uo := old.toNat % 2 ^ w
  let uv := v.toNat % 2 ^ w
  match op with
  | 0x01 => v
  | 0x00 => old + v
  | 0x04 => old ^^^ v
  | 0x0C => old &&& v
  | 0x08 => old ||| v
  | 0x10 => if so ≤ sv then old else v
  | 0x14 => if sv ≤ so then old else v
  | 0x18 => if uo ≤ uv then old else v
  | _ => if uv ≤ uo then old else v

/-- Illegal instruction. -/
def rvIllegal : RvAct := .trap 2

def optWrite (c : Clerk) (rd len : Nat) : Option W64 → RvAct
  | some v => c.write rd len v
  | none => rvIllegal

/-- A jump or branch target: 2-byte aligned with the C extension. -/
def Clerk.jump (c : Clerk) (target : W64) : Clerk := { c with pc := target }

/-- A base instruction's word, executed by a clerk whose program counter is at it. -/
def rvExec (c : Clerk) (w len : Nat) : RvAct :=
  let rd := bits w 11 7
  let a := c.getX (bits w 19 15)
  let b := c.getX (bits w 24 20)
  let f3 := bits w 14 12
  let f7 := bits w 31 25
  let immI := sx64 12 (bits w 31 20)
  match w % 128 with
  | 0x37 => c.write rd len (sx64 32 (bits w 31 12 * 4096))
  | 0x17 => c.write rd len (c.pc + sx64 32 (bits w 31 12 * 4096))
  | 0x6F =>
    let imm := sx64 21 (bits w 31 31 * 2 ^ 20 + bits w 19 12 * 2 ^ 12 + bits w 20 20 * 2 ^ 11 + bits w 30 21 * 2)
    .done ((c.setX rd (c.pc + BitVec.ofNat 64 len)).jump (c.pc + imm))
  | 0x67 =>
    if f3 = 0 then .done ((c.setX rd (c.pc + BitVec.ofNat 64 len)).jump ((a + immI) &&& ~~~1#64)) else rvIllegal
  | 0x63 =>
    let imm := sx64 13 (bits w 31 31 * 2 ^ 12 + bits w 7 7 * 2 ^ 11 + bits w 30 25 * 32 + bits w 11 8 * 2)
    match rvTaken f3 a b with
    | some true => .done (c.jump (c.pc + imm))
    | some false => .done (c.advance len)
    | none => rvIllegal
  | 0x03 =>
    let addr := (a + immI).toNat
    match f3 with
    | 0 => .load rd addr 1 true
    | 1 => .load rd addr 2 true
    | 2 => .load rd addr 4 true
    | 3 => .load rd addr 8 true
    | 4 => .load rd addr 1 false
    | 5 => .load rd addr 2 false
    | 6 => .load rd addr 4 false
    | _ => rvIllegal
  | 0x23 =>
    let addr := (a + sx64 12 (f7 * 32 + rd)).toNat
    if f3 < 4 then .store addr (2 ^ f3) b else rvIllegal
  | 0x13 =>
    if f3 = 1 then (if bits w 31 26 = 0 then c.write rd len (a <<< bits w 25 20) else rvIllegal)
    else if f3 = 5 then
      (if bits w 31 26 = 0 then c.write rd len (a >>> bits w 25 20)
       else if bits w 31 26 = 0x10 then c.write rd len (a.sshiftRight (bits w 25 20)) else rvIllegal)
    else c.write rd len (rvAlu f3 false a immI)
  | 0x1B =>
    if f3 = 0 then c.write rd len (sxw (a + immI))
    else if f3 = 1 ∧ f7 = 0 then optWrite c rd len (rvAluW 1 false a (BitVec.ofNat 64 (bits w 24 20)))
    else if f3 = 5 ∧ (f7 = 0 ∨ f7 = 0x20) then
      optWrite c rd len (rvAluW 5 (f7 = 0x20) a (BitVec.ofNat 64 (bits w 24 20)))
    else rvIllegal
  | 0x33 =>
    if f7 = 0 then c.write rd len (rvAlu f3 false a b)
    else if f7 = 0x20 ∧ (f3 = 0 ∨ f3 = 5) then c.write rd len (rvAlu f3 true a b)
    else if f7 = 1 then c.write rd len (rvMul f3 a b)
    else rvIllegal
  | 0x3B =>
    if f7 = 0 then optWrite c rd len (rvAluW f3 false a b)
    else if f7 = 0x20 ∧ (f3 = 0 ∨ f3 = 5) then optWrite c rd len (rvAluW f3 true a b)
    else if f7 = 1 then optWrite c rd len (rvMulW f3 a b)
    else rvIllegal
  | 0x0F => if f3 = 0 then .done (c.advance len) else rvIllegal
  | 0x2F =>
    let op := bits w 31 27
    let size := if f3 = 2 then 4 else 8
    if f3 ≠ 2 ∧ f3 ≠ 3 then rvIllegal
    else if op = 2 then (if bits w 24 20 = 0 then .lr rd a.toNat size else rvIllegal)
    else if op = 3 then .sc rd a.toNat size b
    else if op ∈ [0x01, 0x00, 0x04, 0x0C, 0x08, 0x10, 0x14, 0x18, 0x1C] then .amo rd a.toNat size op b
    else rvIllegal
  | 0x73 => if w = 0x0010_0073 then .trap 3 else rvIllegal
  | _ => rvIllegal

/-! ### The clerk's address map (R464) -/

/-- Where a clerk's data address lies. -/
inductive ClerkLoc where
  /-- Byte `off` of the data memory of clerk `mem`. -/
  | dmem (mem off : Nat)
  | cbuf (off : Nat)
  | walkIssue
  | walkStatus
  | fault
  deriving DecidableEq, Repr

/-- Address map of R464, with R159's two doublewords; `need` is CBUF_NEED. -/
def clerkLoc (clerk need a size : Nat) : ClerkLoc :=
  if a + size ≤ 0x8000 then .dmem clerk a
  else if 0x1000_0000 ≤ a ∧ a + size ≤ 0x1000_8000 then .dmem 0 (a - 0x1000_0000)
  else if 0x3000_0000 ≤ a ∧ a + size ≤ 0x3000_0000 + need * 1024 then .cbuf (a - 0x3000_0000)
  else if a = 0x4000_0000 ∧ size = 8 then .walkIssue
  else if a = 0x4000_0008 ∧ size = 8 then .walkStatus
  else .fault

/-- Byte offset in the code store of a fetch address. -/
def codeOff (pc : W64) : Option Nat :=
  let a := pc.toNat
  if 0x2000_0000 ≤ a ∧ a + 2 ≤ 0x2004_0000 then some (a - 0x2000_0000) else none

/-- Outcome of a clerk's instruction on its core. -/
inductive ClerkRes where
  | ok (x : Exec)
  | trap (x : Exec) (cause : Nat)
  /-- A store to WALK_ISSUE of a data-memory offset (R159). -/
  | walk (off : W64)
  deriving DecidableEq, Repr

def Exec.clerk (x : Exec) (n : Nat) : Clerk := x.core.clerks.getD n {}
def Exec.setClerk (x : Exec) (n : Nat) (c : Clerk) : Exec := { x with core := { x.core with clerks := x.core.clerks.set n c } }

/-- Read `size` bytes for a clerk, marking consumption of poison (R369). -/
def Exec.dread (x : Exec) (m off size : Nat) : Exec × Nat :=
  let c := x.clerk m
  ({ x with poisoned := x.poisoned || poisonIn c.dmemPoison off size }, leNat (c.dmem.getRun off size))

/-- Write data memory; a store breaks the reservations of the other clerks that it overlaps. -/
def Exec.dwrite (x : Exec) (by' m off size : Nat) (v : Nat) : Exec :=
  let bytes := leBytes size v
  let c := x.clerk m
  let w := writeBytes c.dmem c.dmemPoison off bytes []
  let x := x.setClerk m { c with dmem := w.1, dmemPoison := w.2 }
  let a := m * 0x8000 + off
  { x with core := { x.core with clerks := x.core.clerks.zipIdx.map (fun p =>
      match p.1.resv with
      | some (ra, rs) =>
        if p.2 ≠ by' ∧ ra < a + size ∧ a < ra + rs then { p.1 with resv := none } else p.1
      | none => p.1) } }

/-- Requests queued at the core's walker or running (WALK_STATUS, R159). -/
def Core.walkCount (c : Core) : Nat :=
  (c.courQ.flatten.filter (fun o => match o with | .walk _ _ => true | _ => false)).length

/-- Execute a base instruction of clerk `n` (not an ECALL). -/
def Exec.rv (x : Exec) (n w len : Nat) : ClerkRes :=
  let c := x.clerk n
  let need := x.ker.cbufNeed
  match rvExec c w len with
  | .done c' => .ok (x.setClerk n c')
  | .trap cause => .trap x cause
  | .load rd a size signed =>
    if a % size ≠ 0 then .trap x 4
    else
      let fin := fun (y : Exec) (v : Nat) =>
        let val := if signed then sx64 (8 * size) v else BitVec.ofNat 64 v
        ClerkRes.ok (y.setClerk n (((y.clerk n).setX rd val).advance len))
      match clerkLoc n need a size with
      | .dmem m off => let r := x.dread m off size; fin r.1 r.2
      | .cbuf off =>
        fin { x with poisoned := x.poisoned || poisonIn x.core.cbufPoison off size } (leNat (x.core.cbuf.getRun off size))
      | .walkStatus => fin x x.core.walkCount
      | _ => .trap x 5
  | .store a size v =>
    if a % size ≠ 0 then .trap x 6
    else
      let fin := fun (y : Exec) => ClerkRes.ok (y.setClerk n ((y.clerk n).advance len))
      match clerkLoc n need a size with
      | .dmem m off => fin (x.dwrite n m off size v.toNat)
      | .cbuf off =>
        let s := writeBytes x.core.cbuf x.core.cbufPoison off (leBytes size v.toNat) []
        fin { x with core := { x.core with cbuf := s.1, cbufPoison := s.2 } }
      | .walkIssue => .walk v
      | _ => .trap x 7
  | .lr rd a size =>
    if a % size ≠ 0 then .trap x 4
    else match clerkLoc n need a size with
      | .dmem m off =>
        let r := x.dread m off size
        let c := { ((r.1.clerk n).setX rd (sx64 (8 * size) r.2)).advance len with resv := some (m * 0x8000 + off, size) }
        .ok (r.1.setClerk n c)
      | _ => .trap x 5
  | .sc rd a size v =>
    if a % size ≠ 0 then .trap x 6
    else match clerkLoc n need a size with
      | .dmem m off =>
        let good := decide (c.resv = some (m * 0x8000 + off, size))
        let y := if good then x.dwrite n m off size v.toNat else x
        let c := { ((y.clerk n).setX rd (if good then 0 else 1)).advance len with resv := none }
        .ok (y.setClerk n c)
      | _ => .trap x 7
  | .amo rd a size op v =>
    if a % size ≠ 0 then .trap x 6
    else match clerkLoc n need a size with
      | .dmem m off =>
        let r := x.dread m off size
        let old := BitVec.ofNat 64 r.2
        let y := r.1.dwrite n m off size (rvAmo op size old v).toNat
        .ok (y.setClerk n (((y.clerk n).setX rd (sx64 (8 * size) r.2)).advance len))
      | _ => .trap x 7

end Sys2Proof.Machine
end

