-- ==== Sys2Proof/Machine/Loader.lean ====
section
/-! DEFINITION. The loader (R102 to R117, R214): kernel lists, descriptors and tensors as their bytes spell them, the
checks in the order of the walk of R116, and the match of bound descriptors with an item's tensors (R111). -/

namespace Sys2Proof.Machine

/-! ### Reading box memory -/

/-- Bytes that the ledger or the loader reads for an item; poison read fails the item (R369). -/
def State.readChk (s : State) (b va n : Nat) : Except Fail (List Byte) :=
  if s.poisonedBox b va n then .error { reason := .poison, va := va } else .ok (s.readBox b va n)

/-- The same as a little-endian number. -/
def State.numChk (s : State) (b va n : Nat) : Except Fail Nat := (s.readChk b va n).map leNat

/-- Lowest failing check code of one step of the walk, with its tensor index (R116). -/
def minCode : List (Nat × Nat) → Option (Nat × Nat)
  | [] => none
  | c :: l =>
    match minCode l with
    | none => some c
    | some d => if d.1 < c.1 then some d else some c

/-- A failing check: its code, with tensor index `t`. -/
def codeIf (bad : Bool) (code : Nat) (t : Nat := 0xFFFF) : List (Nat × Nat) := if bad then [(code, t)] else []

/-! ### Cores of a box -/

/-- BOX_CORES of a box (R273). -/
def State.coreMaskOf (s : State) (b : Nat) : Nat :=
  s.regN .box b Reg.box_boxCoresLo + s.regN .box b Reg.box_boxCoresHi * 2 ^ 32

/-- Physical cores the box may use, by ascending logical number (R262, R273). -/
def State.coresOf (s : State) (b : Nat) : List Nat :=
  (List.range 64).filterMap (fun l => if bit (s.coreMaskOf b) l then s.physical l else none)

/-- ACM_HEALTH.USABLE of a core (R51, R71). -/
def State.usablePh (s : State) (c : Nat) : Nat := mapUsable (s.regN .acm c Reg.acm_acmMap)

/-! ### Tensor descriptors (R109 to R111) -/

def TensorDesc.ofNat (n : Nat) : TensorDesc :=
  { fmt := bits n 63 60, rank := bits n 59 58 + 1
    size := [bits n 127 104, bits n 151 128, bits n 175 152, bits n 199 176]
    stride := [bits n 239 200, bits n 279 240, bits n 319 280]
    origin := [bits n 343 320, bits n 367 344, bits n 391 368, bits n 415 392]
    globalId := bits n 431 416, scale := bits n 463 432, scaleArray := bits n 511 464, channelDim := bits n 57 56
    writable := bit n 55, coded := bit n 54, bind := bits n 53 52, cache := bits n 51 50, base := bits n 47 0
    reserved := bits n 103 64 + bits n 49 48 }

/-- Symbol width of a region's alphabet: 4, 8 or 16 bits (R192). -/
def alphabetWidth (a : Nat) : Nat := match a with | 0 => 4 | 1 => 8 | 2 => 16 | _ => 0

/-- Check 0x0801 or 0x0802 of a coded piece (R214). -/
def State.codedCheck (s : State) (b : Nat) (t : TensorDesc) : Option Nat :=
  match s.region? b t.base t.extent with
  | none => some 0x0801
  | some r => if t.f.width ≠ alphabetWidth r.alphabet then some 0x0802 else none

/-- Dimensions below the rank have elements, the others are single (R110). -/
def TensorDesc.dimsBad (t : TensorDesc) : Bool :=
  (List.range 4).any (fun d =>
    if d < t.rank then t.size.getD d 1 == 0
    else t.size.getD d 1 != 1 || (d != 0 && t.stride.getD (d - 1) 0 != 0))

/-- Strides do not nest (R110). -/
def TensorDesc.nestBad (t : TensorDesc) : Bool :=
  (List.range (t.rank - 1)).any (fun d =>
    if d = 0 then decide (t.stride.getD 0 0 < t.rowBytes)
    else decide (t.stride.getD d 0 < t.size.getD d 1 * t.stride.getD (d - 1) 0))

/-- Checks of tensor descriptor `i`'s own fields, and of where an unbound one lies (R116, R214). -/
def State.tensorChecks (s : State) (b : Nat) (t : TensorDesc) (i : Nat) : List (Nat × Nat) :=
  let fmtOk := (Fmt.ofCode t.fmt).isSome
  let own := codeIf (t.reserved != 0 || t.bind == 3 || t.cache == 3) 0x0103 i ++ codeIf (!fmtOk) 0x0104 i
  if t.bind = 1 ∨ t.bind = 2 then own ++ codeIf (decide (8 ≤ t.base)) 0x0206 i
  else
    let chanBad := decide (t.rank ≤ t.channelDim ∧ t.scaleArray ≠ 0)
    let dims := codeIf t.dimsBad 0x0201 i ++ codeIf chanBad 0x0207 i
    if !fmtOk then own ++ dims
    else
      let e := t.f.bytes
      own ++ dims ++ codeIf t.nestBad 0x0202 i ++
        codeIf (decide (t.base % e ≠ 0) || t.stride.any (fun x => decide (x % e ≠ 0)) ||
          t.coded && decide (t.base % 4096 ≠ 0)) 0x0203 i ++
        codeIf (!s.mapped b t.base t.extent false || (t.scaleArray != 0 && !chanBad &&
          !s.mapped b t.scaleArray (4 * t.size.getD t.channelDim 1) false)) 0x0204 i ++
        codeIf (t.coded && s.inProtected b t.base t.extent) 0x0205 i ++
        (if t.coded then (match s.codedCheck b t with | some c => [(c, i)] | none => []) else [])

/-- Does a bound descriptor match the item's tensor, for `count` entries or instances (R111, R214)? -/
def State.bindCheck (s : State) (b : Nat) (tensors : List (Option TensorDesc)) (count : Nat) (t : TensorDesc) : Option Nat :=
  match (tensors[t.base % 8]?).join with
  | none => some 0x0206
  | some u =>
    let sizesOk := fun (n : Nat) => (List.range n).all (fun d => u.size.getD d 1 == t.size.getD d 1)
    let ok := u.fmt == t.fmt &&
      (if t.bind = 2 then u.rank == t.rank && sizesOk 4
       else u.rank == t.rank + 1 && decide (count ≤ u.size.getD t.rank 1) && sizesOk t.rank)
    if !ok then some 0x0206
    else if u.coded ∧ (s.codedCheck b u).isSome then some 0x0803 else none

/-- The match of every bound descriptor of a kernel. -/
def State.bindChecks (s : State) (b : Nat) (tensors : List (Option TensorDesc)) (count : Nat) (k : Kernel) :
    List (Nat × Nat) :=
  k.tensors.zipIdx.flatMap (fun (t : TensorDesc × Nat) =>
    if t.1.bind = 1 ∨ t.1.bind = 2 then
      (if 8 ≤ t.1.base then [] else match s.bindCheck b tensors count t.1 with | some c => [(c, t.2)] | none => [])
    else [])

/-! ### Chains and code (R53 to R55, R61, R106, R107) -/

/-- PARAM bits that an OP defines (R54). -/
def stageParam (op : Nat) : Nat := match op with | 1 => 1 | 3 => 0xF | 6 => 7 | 7 => 1 | _ => 0

/-- A stage word with a reserved operation, activation or rounding code, or an undefined PARAM bit (R54). -/
def stageBad (w : Nat) : Bool :=
  let op := stageOp w
  let p := bits w 11 0
  decide (8 < op) || decide (p &&& stageParam op ≠ p) || (op == 3 && decide (7 < p)) || (op == 6 && decide (4 < p))

/-- Every rule of R55 and R54 on one chain's eight words. -/
def chainBad (ws : List Nat) : Bool :=
  let st := chainStages ws
  ws.any stageBad || (ws.drop st.length).any (· != 0) ||
    (List.range 9).any (fun op => op != 0 && decide (1 < (st.filter (fun w => stageOp w == op)).length)) ||
    ((st.dropWhile (fun w => stageOp w != 8)).drop 1 != [])

/-- The FP32 value is NaN. -/
def isNan32 (n : Nat) : Bool := (fv (BitVec.ofNat 32 n)).isNan

/-- Check 0x010E of one chain. -/
def chainConsts (k : Kernel) (ws : List Nat) : Bool :=
  (chainHas ws 5 && ((fv k.clipLo).isNan || (fv k.clipHi).isNan || flt k.clipHi k.clipLo)) ||
    ((chainStages ws).any (fun w => stageOp w == 3 && bits w 3 0 == 7) && (fv k.actAlpha).isNan)

/-- Words of the code image that carry an opcode of the tile extension (R64). -/
def tileWords : List Byte → List Nat
  | a :: b :: c :: d :: l =>
    let w := leNat [a, b, c, d]
    if w % 128 = 0x0B ∨ w % 128 = 0x2B then w :: tileWords l else tileWords l
  | _ => []

/-- The instruction of a word of the tile extension. -/
def tileOp (w : Nat) : ClerkOp := if w % 128 = 0x0B then decodeTile0 w else decodeTile1 w

/-- Check 0x0108 of one word. -/
def tileNeeds (k : Kernel) (op : ClerkOp) : Bool :=
  match op with
  | .mxwl _ => !k.usesMxe
  | .mxmul _ ph _ _ _ => !k.usesMxe || decide (k.phNeed ≤ ph)
  | .drn _ _ ph ch => decide (k.phNeed ≤ ph ∨ k.chains.length ≤ ch)
  | _ => false

/-! ### Kernel descriptors (R105) -/

/-- The descriptor's bytes that name no memory, as a kernel without its tables and images. -/
def Kernel.ofNat (n : Nat) : Kernel :=
  { kernelId := bits n 63 32, phNeed := bits n 11 8, clerkMask := bits n 15 12, opndFmt := bits n 19 16
    wgtFmt := bits n 23 20, usesMxe := bit n 24, usesState := bit n 25, isVariant := bit n 26
    clerkEntry := (List.range 4).map (fun c => bits n (24 * c + 151) (24 * c + 128))
    outScale := BitVec.ofNat 32 (bits n 383 352), clipLo := BitVec.ofNat 32 (bits n 415 384)
    clipHi := BitVec.ofNat 32 (bits n 447 416), actAlpha := BitVec.ofNat 32 (bits n 479 448)
    chscaleTensor := bits n 495 480, biasTensor := bits n 511 496, cbufNeed := bits n 525 512
    estCycles := bits n 559 528 }

/-- Sixteen bytes of a chain table as eight stage words (R107). -/
def chainWords (bs : List Byte) : List Nat := (List.range 8).map (fun i => leNat ((bs.drop (2 * i)).take 2))

/-- Consecutive pieces of `n` bytes. -/
def piecesOf (n : Nat) : Nat → List Byte → List (List Byte)
  | 0, _ => []
  | k + 1, bs => bs.take n :: piecesOf n k (bs.drop n)

/-- What the walk knows of the item as it loads a list. -/
structure LoadCtx where
  box : Nat
  mode : ListKind
  /-- Item tensors and the number of entries or instances, where bound descriptors are matched now (R111). -/
  bound : Option (List (Option TensorDesc) × Nat)

/-- Checks of a descriptor whose bytes are `n`, read at a good address with a good CRC; the tables and images are those
of `k`, empty where they cannot be read (R116). `primary`: the descriptor that names this one as its variant. -/
def State.kernelChecks (s : State) (x : LoadCtx) (n : Nat) (k : Kernel) (primary : Option (Nat × Kernel)) :
    List (Nat × Nat) :=
  let b := x.box
  let cores := s.coresOf b
  let codeSize := bits n 127 112
  let codeOk := decide (1 ≤ codeSize ∧ codeSize ≤ 4096 ∧ bits n 111 64 % 64 = 0) && s.mapped b (bits n 111 64) (64 * codeSize) false
  let entriesOk := (List.range 4).all (fun c => !bit k.clerkMask c ||
    decide (k.clerkEntry.getD c 0 % 2 = 0 ∧ k.clerkEntry.getD c 0 < 64 * codeSize))
  let chainN := bits n 340 336
  let chainOk := decide (chainN ≤ 16) &&
    (chainN == 0 || decide (bits n 335 288 % 16 = 0) && s.mapped b (bits n 335 288) (16 * chainN) false)
  let tN := bits n 287 272
  let tOk := decide (1 ≤ tN ∧ tN ≤ 1024 ∧ bits n 271 224 % 64 = 0) && s.mapped b (bits n 271 224) (64 * tN) false
  let idxBad := fun (i : Nat) => decide (i ≠ 0xFFFF ∧ tN ≤ i)
  let dN := bits n 671 656
  let dVa := bits n 655 608
  let ops := (tileWords k.code).map tileOp
  let fmtsOk := (Fmt.ofCode k.opndFmt).isSome && (Fmt.ofCode k.wgtFmt).isSome
  let vPh := match primary with
    | some _ => none
    | none =>
      let v := bits n 607 560
      if v ≠ 0 ∧ v % 256 = 0 ∧ s.mapped b v 256 false then some (bits (s.readNum b v 2) 11 8) else none
  codeIf (bits n 2015 672 != 0 || bits n 527 526 != 0 || bits n 351 341 != 0 || bits n 31 27 != 0) 0x0103 ++
  codeIf (!fmtsOk) 0x0104 ++
  codeIf (fmtsOk && (if k.usesMxe then (mxeMode k.opndFmt k.wgtFmt).isNone else k.opndFmt != 0 || k.wgtFmt != 0)) 0x0105 ++
  codeIf (!codeOk || !entriesOk || k.clerkMask == 0) 0x0106 ++
  codeIf (codeOk && ops.any (· == .illegal)) 0x0107 ++
  codeIf (codeOk && ops.any (tileNeeds k)) 0x0108 ++
  codeIf (decide (8 < k.phNeed)) 0x0109 ++
  codeIf (primary.isNone && !cores.any (fun c => decide (min k.phNeed (vPh.getD k.phNeed) ≤ s.usablePh c))) 0x010A ++
  codeIf (!cores.any (fun c => decide (k.cbufNeed * 1024 ≤ cbufBytes - s.windowBytes c))) 0x010B ++
  codeIf (decide (k.estCycles < 1 ∨ 3600000 < k.estCycles)) 0x010C ++
  codeIf (!chainOk || k.chains.any chainBad) 0x010D ++
  codeIf (k.chains.any (chainConsts k)) 0x010E ++
  (if tOk && k.chains.any chainPerChannel &&
      (match k.tensors[k.chscaleTensor]? with | some t => t.scaleArray == 0 | none => true)
    then [(0x010F, k.chscaleTensor)] else []) ++
  (if tOk && k.chains.any (fun ws => chainHas ws 2) &&
      (match k.tensors[k.biasTensor]? with | some t => t.rank != 1 || t.fmt != 7 | none => true)
    then [(0x010F, k.biasTensor)] else []) ++
  codeIf (match primary with
    | none => k.isVariant
    | some p => !k.isVariant || bits n 607 560 != 0 || decide (p.2.phNeed ≤ k.phNeed) ||
        bits n 287 224 != bits p.1 287 224 || k.usesState != p.2.usesState) 0x0110 ++
  codeIf (x.mode == .kernel && k.usesState) 0x0111 ++
  codeIf (decide (511 < dN) || (dN == 0 && dVa != 0) || (dN != 0 && !s.mapped b dVa (64 * dN) false)) 0x0112 ++
  codeIf (!tOk || idxBad k.biasTensor || idxBad k.chscaleTensor) 0x0113 ++
  k.tensors.zipIdx.flatMap (fun (t : TensorDesc × Nat) => s.tensorChecks b t.1 t.2) ++
  (match x.bound with | some (ts, count) => s.bindChecks b ts count k | none => [])

/-- Tables and images of a descriptor, those that can be read (R115). -/
def State.kernelParts (s : State) (b n : Nat) : Except Fail Kernel := do
  let k := Kernel.ofNat n
  let get := fun (ok : Bool) (va len : Nat) =>
    if ok && s.mapped b va len false then s.readChk b va len else Except.ok (α := List Byte) []
  let code ← get (decide (1 ≤ bits n 127 112 ∧ bits n 127 112 ≤ 4096 ∧ bits n 111 64 % 64 = 0)) (bits n 111 64) (64 * bits n 127 112)
  let data ← get (decide (1 ≤ bits n 671 656 ∧ bits n 671 656 ≤ 511 ∧ bits n 655 608 % 64 = 0)) (bits n 655 608) (64 * bits n 671 656)
  let chains ← get (decide (1 ≤ bits n 340 336 ∧ bits n 340 336 ≤ 16 ∧ bits n 335 288 % 16 = 0)) (bits n 335 288) (16 * bits n 340 336)
  let tensors ← get (decide (1 ≤ bits n 287 272 ∧ bits n 287 272 ≤ 1024 ∧ bits n 271 224 % 64 = 0)) (bits n 271 224) (64 * bits n 287 272)
  pure { k with
    code := code, data := data
    chains := (piecesOf 16 (chains.length / 16) chains).map chainWords
    tensors := (piecesOf 64 (tensors.length / 64) tensors).map (fun p => TensorDesc.ofNat (leNat p)) }

/-- A descriptor at `va` with its tables and images, checked (R116 step 3). -/
def State.loadKernel (s : State) (x : LoadCtx) (va : Nat) (primary : Option (Nat × Kernel)) : Except Fail (Nat × Kernel) :=
  if va % 256 ≠ 0 ∨ !s.mapped x.box va 256 false then .error (Fail.loadCheck 0x0101)
  else
    match s.readChk x.box va 256 with
    | .error f => .error f
    | .ok bs =>
      let n := leNat bs
      let named := fun (f : Fail) => { f with kernelId := bits n 63 32 }
      if bits n 7 0 ≠ 1 then .error (named (Fail.loadCheck 0x0101))
      else if (crc32c (bs.take 252)).toNat ≠ bits n 2047 2016 then .error (named (Fail.loadCheck 0x0102))
      else
        match s.kernelParts x.box n with
        | .error f => .error (named f)
        | .ok k =>
          match minCode (s.kernelChecks x n k primary) with
          | some c => .error { Fail.loadCheck c.1 with kernelId := k.kernelId, tensor := c.2 }
          | none => .ok (n, k)

/-! ### Kernel lists (R102, R104) -/

/-- One list entry: its own fields, its descriptor, its variant (R116 step 3). -/
def State.loadEntry (s : State) (x : LoadCtx) (n : Nat) : Except Fail KEntry :=
  let inst := bits n 79 72
  match minCode (codeIf (bits n 127 80 != 0 || bits n 71 65 != 0 || bits n 63 48 != 0) 0x0103 ++
      codeIf (if x.mode = .kernel then decide (63 < inst) else inst != 0) 0x0303) with
  | some c => .error (Fail.loadCheck c.1)
  | none =>
    match s.loadKernel x (bits n 47 0) none with
    | .error f => .error f
    | .ok (d, k) =>
      let v := bits d 607 560
      if v = 0 then .ok { handoff := bit n 64, instances := inst + 1, kernel := k }
      else
        match s.loadKernel x v (some (d, k)) with
        | .error f => .error f
        | .ok (_, w) => .ok { handoff := bit n 64, instances := inst + 1, kernel := k, variant := some w }

/-- Entries of a list in ascending index. -/
def State.loadEntries (s : State) (x : LoadCtx) : Nat → List Nat → Except Fail (List KEntry)
  | _, [] => .ok []
  | i, n :: l =>
    match s.loadEntry x n with
    | .error f => .error { f with entry := i }
    | .ok e => (s.loadEntries x (i + 1) l).map (e :: ·)

/-- The larger estimate of a kernel and its variant (R116). -/
def KEntry.est (e : KEntry) : Nat := max e.kernel.estCycles (match e.variant with | some v => v.estCycles | none => 0)

/-- The first break of a handoff chain: the entry at which it is found (R116, 0x0304). `first`: CBUF_NEED of the
chain's first kernel and the sum so far, where a chain is open. -/
def chainBreak : Option (Nat × Nat) → Nat → List KEntry → Option Nat
  | _, _, [] => none
  | open', i, e :: l =>
    let need := match open' with | some o => o.1 | none => e.kernel.cbufNeed
    let sum := (match open' with | some o => o.2 | none => 0) + e.est
    let inChain := open'.isSome || e.handoff
    if inChain && (e.kernel.cbufNeed != need || decide (3600000 < sum) || (e.handoff && l.isEmpty)) then some i
    else chainBreak (if e.handoff then some (need, sum) else none) (i + 1) l

/-- A kernel list at `va`, loaded and checked, with its BACKWARD_LIST (R102, R116 steps 1, 2 and 4). `count` gives the
entries or instances that bound descriptors must cover, from the largest instance count of the list. -/
def State.loadList (s : State) (box : Nat) (mode : ListKind) (tensors : Option (List (Option TensorDesc))) (va : Nat) :
    Except Fail (List KEntry × Nat) :=
  if va % 16 ≠ 0 ∨ !s.mapped box va 16 false then .error (Fail.loadCheck 0x0301)
  else
    match s.numChk box va 16 with
    | .error f => .error f
    | .ok h =>
      let n := bits h 47 32
      let sizeOk := decide (1 ≤ n ∧ n ≤ 4096)
      match minCode (codeIf (bits h 79 48 != 0 || bits h 31 8 != 0) 0x0103 ++
          codeIf (bits h 7 0 != 1 || (sizeOk && !s.mapped box (va + 16) (16 * n) false)) 0x0301 ++
          codeIf (!sizeOk) 0x0302 ++ codeIf (bits h 127 80 != 0 && mode != .step) 0x0305) with
      | some c => .error (Fail.loadCheck c.1)
      | none =>
        match s.readChk box (va + 16) (16 * n) with
        | .error f => .error f
        | .ok bs =>
          let ns := (piecesOf 16 n bs).map leNat
          let count := (ns.map (fun e => bits e 79 72 + 1)).foldl max 1
          match s.loadEntries { box := box, mode := mode, bound := tensors.map (fun t => (t, count)) } 0 ns with
          | .error f => .error f
          | .ok l =>
            match chainBreak none 0 l with
            | some i => .error { Fail.loadCheck 0x0304 with
                entry := i, kernelId := (l[i]?).elim 0 (fun e => e.kernel.kernelId) }
            | none => .ok (l, bits h 127 80)

/-- Entry `i` of a loaded list checked against an item's tensors at a later admission (R111). -/
def State.rebind (s : State) (b : Nat) (tensors : List (Option TensorDesc)) (count : Nat) :
    Nat → List KEntry → Option Fail
  | _, [] => none
  | i, e :: l =>
    let one := fun (k : Kernel) => (minCode (s.bindChecks b tensors count k)).map (fun c =>
      { Fail.loadCheck c.1 with entry := i, kernelId := k.kernelId, tensor := c.2 })
    match (one e.kernel).or (e.variant.bind one) with
    | some f => some { f with kernelId := e.kernel.kernelId }
    | none => s.rebind b tensors count (i + 1) l

end Sys2Proof.Machine
end

