-- ==== Sys2Proof/Machine/Admission.lean ====
section
/-! DEFINITION. The order of items (R16, R257) and their admission: ring entries (R310 to R312), descriptors (R246 to
R250), stream lists (R19), group blocks (R249), state parameters (R127, R128), limits (R37), pins (R138) and forwarding
(R14, R324). -/

namespace Sys2Proof.Machine

/-! ### Order (R16, R257) -/

/-- Item `j` waits for the disposition of item `i` (R16). A SYNC waits for every earlier item of its box. -/
def heldBehind (i j : Item) : Bool :=
  i.box == j.box && decide (i.id < j.id) && i.disp.isNone && j.disp.isNone &&
    (i.kind == 0x0B || j.kind == 0x0B || (match j.barrier with | some n => decide (i.id ≤ n) | none => false) ||
      i.groups.any (fun g => j.groups.contains g))

/-- Nothing that R16 puts before the item is open. -/
def State.ready (s : State) (j : Item) : Bool := j.disp.isNone && !s.items.any (fun i => heldBehind i j)

def minDl : Option Nat → Option Nat → Option Nat
  | some a, some b => some (min a b)
  | none, b => b
  | a, none => a

/-- Effective deadline of every item: the earliest of its own and of the items held behind it (R257). -/
def effTable (items : List Item) : List (Item × Option Nat) :=
  items.foldr (fun i acc => (i, acc.foldl (fun d (p : Item × Option Nat) =>
    if heldBehind i p.1 then minDl d p.2 else d) i.deadline) :: acc) []

def State.effDeadline (s : State) (id : Nat) : Option Nat :=
  match (effTable s.items).find? (fun p => p.1.id == id) with
  | some p => p.2
  | none => none

/-- BOX_SHARE; 0 acts as 1 (R270). -/
def State.boxShare (s : State) (b : Nat) : Nat := max 1 (s.field .box b Reg.box_boxShare 7 0)

/-- Order of R257 between two items. -/
def State.before (s : State) (a b : Item) : Bool :=
  match s.effDeadline a.id, s.effDeadline b.id with
  | some x, some y => decide (x < y ∨ (x = y ∧ a.id < b.id))
  | some _, none => true
  | none, some _ => false
  | none, none =>
    let x := (s.box a.box).cyclesUsed * s.boxShare b.box
    let y := (s.box b.box).cyclesUsed * s.boxShare a.box
    decide (x < y ∨ (x = y ∧ a.id < b.id))

/-! ### Descriptor fields (R246) -/

namespace Item
def d (i : Item) : Nat := i.desc.toNat
def argA (i : Item) : Nat := bits i.d 559 512
def argB (i : Item) : Nat := bits i.d 607 560
def argC (i : Item) : Nat := bits i.d 327 280
def countA (i : Item) : Nat := bits i.d 479 464
def countB (i : Item) : Nat := bits i.d 511 480
def countC (i : Item) : Nat := bits i.d 279 264
def tensorVa (i : Item) (t : Nat) : Nat := bits i.d (48 * t + 655) (48 * t + 608)
/-- The position and the stream identifier of GROUP (R14). -/
def groupPos (i : Item) : Nat := bits i.d 383 378
def groupStream (i : Item) : Nat := bits i.d 377 360
def cullFlag (i : Item) : Bool := bit i.d 336
def retireFlag (i : Item) : Bool := bit i.d 337
def refillFlag (i : Item) : Bool := bit i.d 338
/-- Kinds with a stream list (R248). -/
def hasStreamList (i : Item) : Bool := [0x03, 0x05, 0x07, 0x08, 0x09].contains i.kind
/-- Kinds that name a group or a source (R248). -/
def namesGroup (i : Item) : Bool := [0x01, 0x02, 0x04, 0x06].contains i.kind
end Item

def fieldMask (hi lo : Nat) : Nat := (2 ^ (hi + 1 - lo) - 1) * 2 ^ lo

/-- Bits of a descriptor that may be other than 0, by kind, format and REFILL_LIST (R247, R248). -/
def allowedMask (kind fmt : Nat) (refill : Bool) : Nat :=
  let g := fieldMask 383 360
  let a := fieldMask 559 512
  let an := fieldMask 479 464
  let b := fieldMask 607 560
  let c := fieldMask 327 280
  let ts := if fmt = 1 then fieldMask 799 608 else fieldMask 991 608
  let base := fieldMask 1023 992 + fieldMask 463 384 + fieldMask 339 339 + fieldMask 79 0 +
    (if fmt = 1 then 0 else fieldMask 341 340 + fieldMask 335 332)
  base + match kind with
    | 0x01 => g + a + an + b + c + ts
    | 0x02 => g + a + an + fieldMask 337 337
    | 0x03 => a + an + b + c + ts + fieldMask 336 336
    | 0x04 => g + a + an + fieldMask 338 338 + (if refill then b else 0)
    | 0x05 | 0x07 | 0x08 => a + an + b
    | 0x06 => g
    | 0x09 => a + an + fieldMask 511 480 + fieldMask 279 264 + ts
    | 0x0A => a + ts
    | _ => 0

/-- Check 0x0A01. -/
def kindOk (kind fmt : Nat) : Bool :=
  (fmt == 1 || fmt == 2) && decide (1 ≤ kind ∧ kind ≤ 0x0B) && !(kind == 0x09 && fmt == 1)

/-! ### Lists (R19, R248) -/

/-- A stream-list entry. -/
def Entry.ofNat (n : Nat) : Entry :=
  { stream := bits n 17 0, lineage := bits n 127 112, expStep := bits n 63 32, resetVa := bits n 111 64
    record := bit n 28, historyClear := bit n 27, endAfter := bit n 26, pause := bit n 25, reset := bit n 24 }

/-- A reserved bit of a stream-list entry is set, or RESET_STATE without RESET. -/
def entryBad (n : Nat) : Bool := bits n 31 29 != 0 || bits n 23 18 != 0 || (bits n 111 64 != 0 && !bit n 24)

/-- Bytes of an entry of the list at ARG_A, and its largest count; none for a kind without one. -/
def Item.listShape (i : Item) : Option (Nat × Nat) :=
  match i.kind with
  | 0x01 => some (4, 4096)
  | 0x02 | 0x04 => some (4, 4095)
  | 0x03 | 0x05 | 0x07 | 0x08 | 0x09 => some (16, 1024)
  | _ => none

/-- An area is aligned and mapped, and writable where the device writes it. -/
def State.area (s : State) (b va n align : Nat) (write : Bool) : Bool := va % align == 0 && s.mapped b va n write

/-- Areas of box memory that the item's fields name: address, length, alignment, written. `slot`: SLOT_SIZE where the
state parameter block gives a legal one, `culled`: places of every culled group. -/
def Item.areas (i : Item) (slot culled : Nat) : List (Nat × Nat × Nat × Bool) :=
  let list := match i.listShape with
    | some (w, m) => if 1 ≤ i.countA ∧ i.countA ≤ m then [(i.argA, w * i.countA, w, false)] else []
    | none => []
  let report := if [0x03, 0x05, 0x07, 0x08].contains i.kind ∧ i.argB ≠ 0 then [(i.argB, 8 * i.countA, 8, true)] else []
  list ++ report ++
    (match i.kind with
    | 0x01 => [(i.argB, 64, 64, false), (i.argC, slot, 64, false)]
    | 0x03 => if i.argC = 0 ∨ culled = 0 then [] else [(i.argC, 16 * culled, 16, true)]
    | 0x04 => if i.refillFlag then [(i.argB, 4 * i.countA, 4, false)] else []
    | _ => []) ++
    (List.range 8).filterMap (fun t => if i.tensorVa t = 0 then none else some (i.tensorVa t, 64, 64, false))

/-- Counts outside R248. -/
def Item.countsBad (i : Item) : Bool :=
  (match i.listShape with
  | some (_, m) => decide (i.countA < 1 ∨ m < i.countA)
  | none => false) || (i.kind == 0x09 && decide (1023 < i.countC))

/-- SLOT_SIZE of the state parameter block at ARG_C, 64 bytes where the block gives none. -/
def State.slotOf (s : State) (i : Item) : Nat :=
  if i.kind = 0x01 ∧ s.area i.box i.argC 64 64 false then
    let u := bits (s.readNum i.box i.argC 64) 18 8
    if 1 ≤ u ∧ u ≤ 1024 then u * 4096 else 64
  else 64

/-- Words of a list in box memory, where it can be read. -/
def State.listWords (s : State) (b va w n : Nat) : List Nat :=
  if s.area b va (w * n) w false then (piecesOf w n (s.readBox b va (w * n))).map leNat else []

/-- The place of a stream where it belongs to the box (R13). -/
def State.boxPlace? (s : State) (b stream : Nat) : Option Place :=
  match s.place? stream with
  | none => none
  | some p =>
    match s.group? p.group with
    | some g => if g.box = b ∧ g.guest.isNone then some p else none
    | none => none

/-- Groups of a list of streams, in order of first mention. -/
def State.groupsNamed (s : State) (b : Nat) (streams : List Nat) : List Nat :=
  (streams.filterMap (fun t => (s.boxPlace? b t).map (·.group))).foldl (fun l g => if l.contains g then l else l ++ [g]) []

/-- Groups of a STEP that its boundary cull covers (R29). -/
def State.culledGroups (s : State) (groups : List Nat) : List Group :=
  (groups.filterMap s.group?).filter (fun g => g.cullCount != 0)

/-- The item with what its lists, blocks and tensors spell. -/
def State.readItem (s : State) (i : Item) : Item :=
  let words := match i.listShape with
    | some (w, m) => if i.countA ≤ m then s.listWords i.box i.argA w i.countA else []
    | none => []
  let ids := words.map (fun w => w % 2 ^ 18)
  let sources := if i.kind = 0x04 ∧ i.refillFlag ∧ i.countA ≤ 4095 then
      (s.listWords i.box i.argB 4 i.countA).map (fun w => w % 2 ^ 18)
    else if i.kind = 0x02 then [i.groupStream] else []
  let tensors := (List.range 8).map (fun t =>
    if i.tensorVa t = 0 ∨ !s.area i.box (i.tensorVa t) 64 64 false then none
    else some (TensorDesc.ofNat (s.readNum i.box (i.tensorVa t) 64)))
  { i with
    entries := if i.hasStreamList then words.map Entry.ofNat
      else if i.kind = 0x01 then [{ stream := i.groupStream }]
      else if i.kind = 0x02 then [{ stream := i.groupStream }]
      else if i.kind = 0x0A then [{}] else []
    streams := if i.hasStreamList then ids else if i.kind = 0x04 ∨ i.kind = 0x02 ∨ i.kind = 0x01 then ids else []
    sources := sources
    tensors := tensors }

/-- Poisoned areas that the ledger reads (R369). -/
def State.readPoison (s : State) (i : Item) (areas : List (Nat × Nat × Nat × Bool)) : Option Fail :=
  (areas.find? (fun a => !a.2.2.2 && s.area i.box a.1 a.2.1 a.2.2.1 false &&
    s.poisonedBox i.box a.1 (if i.kind = 0x01 ∧ a.1 = i.argC then 64 else a.2.1))).map
      (fun a => { reason := .poison, va := a.1 })

/-- Check 0x0A03, with the stream-list entry concerned. -/
def State.reservedBad (s : State) (i : Item) : Option Fail :=
  let m := allowedMask i.kind (bits i.d 71 64) i.refillFlag
  if i.d &&& m ≠ i.d ∨ (bit i.d 340 ∧ bits i.d 415 384 ≠ 0) then some (Fail.loadCheck 0x0A03)
  else
    let words := match i.listShape with
      | some (w, n) => if i.countA ≤ n then s.listWords i.box i.argA w i.countA else []
      | none => []
    let src := if i.kind = 0x04 ∧ i.refillFlag ∧ i.countA ≤ 4095 then s.listWords i.box i.argB 4 i.countA else []
    if i.hasStreamList then
      match words.findIdx? entryBad with
      | some k => some { Fail.loadCheck 0x0A03 with entry := k }
      | none => none
    else if (words ++ src).any (fun w => decide (2 ^ 18 ≤ w)) then some (Fail.loadCheck 0x0A03) else none

/-- A reserved field of an item tensor's descriptor. -/
def Item.tensorReserved (i : Item) : Bool :=
  i.tensors.any (fun t => match t with | some x => x.reserved != 0 | none => false)

/-! ### Names (R13, R14, R275) -/

/-- A listed stream that is no place of the box. -/
def State.unnamed (s : State) (i : Item) : Option Fail :=
  if i.hasStreamList then
    match i.streams.findIdx? (fun t => (s.boxPlace? i.box t).isNone) with
    | some k => some { Fail.loadCheck 0x0A05 with entry := k }
    | none => none
  else if i.kind = 0x01 then
    (if i.streams.headD 0 ≠ i.groupStream then some (Fail.loadCheck 0x0A05) else none)
  else if i.namesGroup ∧ ((i.groupStream :: i.streams ++ i.sources).any (fun t => (s.boxPlace? i.box t).isNone)) then
    some (Fail.loadCheck 0x0A05)
  else none

/-! ### Deadlines (R250, R255) -/

/-- Check 0x0A07. -/
def State.deadlineBad (s : State) (i : Item) : Bool :=
  decide (bits i.d 463 416 ≠ 2 ^ 48 - 1) &&
    (decide (s.time.st = .unsync) || !s.time.rounds ||
      (if bit i.d 340 then (s.time.collections.getD (bits i.d 335 332) none).isNone
       else decide (s.roundLen ≤ bits i.d 415 384)))

/-- Deadline as a time (R246, R251, R255). -/
def State.deadlineOf (s : State) (i : Item) : Option Nat :=
  if bits i.d 463 416 = 2 ^ 48 - 1 then none
  else
    let phase := if bit i.d 340 then (s.time.collections.getD (bits i.d 335 332) none).getD 0 else bits i.d 415 384
    some (s.roundEpoch + bits i.d 463 416 * s.roundLen + phase)

/-! ### OPEN_GROUP (R37, R128, R249) -/

/-- Check 0x0A08 on the group block. -/
def blockBad (n : Nat) : Bool :=
  bits n 7 0 != 1 || bits n 392 8 != 0 || decide (1 < bits n 399 398) || bits n 397 396 == 3

/-- Context frames: the outermost size of TENSOR0 (R248). -/
def Item.frames (i : Item) : Nat :=
  match (i.tensors[0]?).join with
  | some t => t.size.getD (t.rank - 1) 0
  | none => 0

/-- Limits of R37. -/
def State.openLimits (s : State) (i : Item) (block : Nat) : Option Fail :=
  let n := i.streams.length
  if i.streams.any (fun t => (s.place? t).isSome) ∨ ¬i.streams.Nodup ∨ 16384 ≤ s.groups.length ∨
      262144 < s.places.length + n ∨ n - 1 < bits block 415 400 then some (Fail.loadCheck 0)
  else none

/-- The checks of R128 in code order; `buddy`: the buddy can reserve the identifiers. -/
def State.paramChecks (s : State) (i : Item) (p : Nat) (buddy : Bool) : List (Nat × Nat) :=
  let units := bits p 18 8
  let lo := BitVec.ofNat 32 (bits p 479 448)
  let hi := BitVec.ofNat 32 (bits p 511 480)
  let mode := bits p 23 22
  codeIf (bits p 7 0 != 1 || bits p 415 30 != 0 || bits p 20 19 != 0) 0x0501 ++
  codeIf (units == 0 || decide (1024 < units)) 0x0502 ++
  codeIf (!(s.coresOf i.box).any (fun c => decide (units * 4096 ≤ s.windowBytes c))) 0x0503 ++
  codeIf ((fv lo).isNan || (fv hi).isNan || flt lo f32zero || flt hi lo) 0x0504 ++
  codeIf (mode == 3 || (mode != 0 && (bits p 29 24 == s.pos || decide (s.systemSize ≤ bits p 29 24) || !buddy))) 0x0505 ++
  codeIf (decide (s.field .box i.box Reg.box_quotaPoste 15 0 * gib <
    s.usePoste i.box + i.streams.length * units * 4096)) 0x0506

/-- Can the buddy reserve a group's identifiers (R142)? Its own state is not this module's: a serving or spare member
answers by a free choice. -/
def State.buddyCan (s : State) (pos : Nat) : Bool × State :=
  let n := s.draw
  (decide (s.fab.members.getD pos .absent = .serving ∨ s.fab.members.getD pos .absent = .spare) &&
    decide (Config.freeChoice n.1 % 2 = 0), n.2)

/-- Loaded copies of an OPEN_GROUP: prefill, step and backward lists (R115). -/
def State.loadGroup (s : State) (i : Item) (block : Nat) : Except Fail (List KEntry × List KEntry × List KEntry) :=
  match s.loadList i.box .prefill (some i.tensors) (bits block 511 464) with
  | .error f => .error f
  | .ok (pre, _) =>
    match s.loadList i.box .step none (bits block 463 416) with
    | .error f => .error f
    | .ok (step, back) =>
      if back = 0 then .ok (pre, step, [])
      else
        match s.loadList i.box .backward none back with
        | .error f => .error f
        | .ok (l, _) => .ok (pre, step, l)

/-- Free state-window space of a die (R13). -/
def State.windowFree (s : State) (d : Nat) : Nat :=
  ((List.range 17).map (fun k => s.windowBytes (17 * d + k))).sum -
    (s.places.map (fun p => match p.windowCore, s.group? p.group with
      | some c, some g => if coreDie c = d then g.slotSize else 0
      | _, _ => 0)).sum

/-- The die with the most free state-window space, a tie broken by choice `n` (R13). -/
def State.pickHome (s : State) (n : Nat) : Nat :=
  let best := ((List.range 4).map s.windowFree).foldl max 0
  let l := (List.range 4).filter (fun d => s.windowFree d == best)
  l.getD (n % max l.length 1) 0

/-- First group index not in use from `n` on, cyclically. -/
def State.pickIndex (s : State) (n : Nat) : Nat :=
  ((List.range 16384).find? (fun k => !s.groups.any (fun g => g.index == (n + k) % 16384))).elim 0
    (fun k => (n + k) % 16384)

/-- Place `k` of a group whose poste restante slot lies at flash page `n`. -/
def State.newPlace (s : State) (g : Group) (k stream n : Nat) : Place :=
  { stream := stream, group := g.index, place := k, seed := g.seed
    posteDa := flashBase + n % (s.flashSize / 4096) * 4096, mirror := if g.regMode = 0 then .none else .inStep }

/-- The group of an admitted OPEN_GROUP: its places reserved and vacant, its quotas charged (R15, R18, R266). -/
def State.openGroup (s : State) (i : Item) (block params : Nat) (lists : List KEntry × List KEntry × List KEntry) :
    Nat × State :=
  let h := s.draw
  let x := h.2.draw
  let s := x.2
  let g : Group :=
    { index := s.pickIndex (Config.freeChoice x.1), box := i.box, home := s.pickHome (Config.freeChoice h.1)
      streams := i.streams, cullCount := bits block 415 400, highBest := bits block 399 398 == 0
      scoreOutput := bits block 395 393
      refill := match bits block 397 396 with | 0 => .none | 1 => .best | _ => .ranked
      driftHi := BitVec.ofNat 32 (bits params 511 480), driftLo := BitVec.ofNat 32 (bits params 479 448)
      seed := BitVec.ofNat 32 (bits params 447 416), buddy := bits params 29 24, regMode := bits params 23 22
      sr := bit params 21, slotUnits := bits params 18 8, frames := i.frames
      prefill := lists.1, step := lists.2.1, backward := lists.2.2, block := block, params := params }
  let s : State := { s with groups := s.groups ++ [g] }
  (g.index, i.streams.zipIdx.foldl (fun (s : State) (p : Nat × Nat) =>
    let n := s.draw
    { n.2 with places := n.2.places ++ [n.2.newPlace g p.2 p.1 (Config.freeChoice n.1)] }) s)

/-! ### The checks of R250 -/

/-- Checks 0x0A01 to 0x0A06 that precede the loader, up to the names. The answer names the item as read. -/
def State.admitStatic (s : State) (i : Item) : Except (Fail × Item) Item :=
  if !kindOk i.kind (bits i.d 71 64) then .error (Fail.loadCheck 0x0A01, i)
  else if (crc32c (leBytes 124 (i.d % 2 ^ 992))).toNat ≠ bits i.d 1023 992 then .error (Fail.loadCheck 0x0A02, i)
  else
    let r := s.readItem i
    let groups := s.groupsNamed i.box (if i.namesGroup ∧ i.kind ≠ 0x01 then i.groupStream :: r.streams ++ r.sources else r.streams)
    let culled := if i.cullFlag then ((s.culledGroups groups).map (fun g => g.streams.length)).sum else 0
    let areas := i.areas (s.slotOf i) culled
    match s.reservedBad i with
    | some f => .error (f, i)
    | none =>
      match s.readPoison i areas with
      | some f => .error (f, i)
      | none =>
        if r.tensorReserved then .error (Fail.loadCheck 0x0A03, i)
        else if i.countsBad ∨ areas.any (fun a => !s.area i.box a.1 a.2.1 a.2.2.1 a.2.2.2) ∨
            (i.kind = 0x01 ∧ (r.frames < 1 ∨ 64 < r.frames)) then .error (Fail.loadCheck 0x0A04, i)
        else
          let r := { r with
            groups := groups
            reportVa := if i.hasStreamList ∧ i.kind ≠ 0x09 then i.argB else 0
            cullVa := if i.kind = 0x03 then i.argC else 0 }
          if i.namesGroup ∧ i.groupPos ≠ s.pos then
            (if s.isWorker ∨ s.fab.members.getD i.groupPos .absent ≠ .serving then .error (Fail.loadCheck 0x0B01, r)
             else .ok { r with pos := i.groupPos })
          else
            match s.unnamed r with
            | some f => .error (f, r)
            | none => .ok { r with pos := s.pos }

/-- The ledger is full, or QUOTA_ITEMS spent; for OPEN_GROUP also QUOTA_GROUPS or QUOTA_PLACES (0x0A06). -/
def State.quotaBad (s : State) (i : Item) : Bool :=
  decide (262144 ≤ s.items.length) || decide (s.field .box i.box Reg.box_quotaItems 19 0 ≤ s.useItems i.box) ||
    (i.kind == 0x01 &&
      (decide (s.field .box i.box Reg.box_quotaGroups 14 0 ≤ s.useGroups i.box) ||
       decide (s.field .box i.box Reg.box_quotaPlaces 18 0 < s.usePlaces i.box + i.streams.length)))

/-- Check 0x0A09: SCORE_TENSOR of each group of a STEP with CULL. -/
def State.scoreBad (s : State) (i : Item) : Bool :=
  i.kind == 0x03 && i.cullFlag && (i.groups.filterMap s.group?).any (fun g =>
    match (i.tensors[g.scoreOutput]?).join with
    | none => true
    | some t => t.fmt != 7 || decide (t.size.getD (t.rank - 1) 0 < i.entries.length))

def State.loadedRoom (s : State) (b n : Nat) : Bool :=
  decide (s.useLoaded b + n ≤ s.field .box b Reg.box_quotaLoaded 15 0 * mib)

/-- Match of the lists of the item's groups with its tensors, at STEP and BACKWARD (R111). -/
def State.rebindAll (s : State) (i : Item) : Option Fail :=
  if i.kind = 0x03 ∨ i.kind = 0x09 then
    (i.groups.filterMap s.group?).findSome? (fun g =>
      s.rebind i.box i.tensors i.entries.length 0 (if i.kind = 0x03 then g.step else g.backward))
  else none

/-- Streams that the item pins (R138). -/
def Item.pins (i : Item) : List Nat :=
  if i.kind = 0x03 then i.streams else if i.kind = 0x02 then i.sources else []

/-- A pin past 65,535 (R138). -/
def State.pinsBad (s : State) (i : Item) : Bool :=
  i.pins.any (fun t => match s.place? t with
    | some p => decide (65535 < p.pinCount + i.pins.count t)
    | none => false)

/-- What the loader and the limits add to an item that has passed R250 (R37, R116, R128): the item, its group opened. -/
def State.admitLoad (s : State) (i : Item) : Except Fail (Item × State) :=
  if i.kind = 0x01 then
    let block := s.readNum i.box i.argB 64
    let params := s.readNum i.box i.argC 64
    if blockBad block then .error (Fail.loadCheck 0x0A08)
    else
      match s.openLimits i block with
      | some f => .error f
      | none =>
        let b := if bits params 23 22 = 0 then (true, s) else s.buddyCan (bits params 29 24)
        match (s.paramChecks i params b.1).head? with
        | some c => .error (Fail.loadCheck c.1)
        | none =>
          match b.2.loadGroup i block with
          | .error f => .error f
          | .ok l =>
            if !s.loadedRoom i.box (listBytes l.1 + listBytes l.2.1 + listBytes l.2.2) then .error (Fail.loadCheck 0x0A06)
            else
              let g := b.2.openGroup i block params l
              let s := if bits params 23 22 = 0 then g.2
                else g.2.sendMsg (bits params 29 24) 3 (.register i.box i.frames i.streams block params)
              .ok ({ i with group := some g.1, groups := [g.1] }, s)
  else if s.scoreBad i then .error (Fail.loadCheck 0x0A09)
  else if i.kind = 0x0A then
    match s.loadList i.box .kernel (some i.tensors) i.argA with
    | .error f => .error f
    | .ok (l, _) =>
      if !s.loadedRoom i.box (listBytes l) then .error (Fail.loadCheck 0x0A06) else .ok ({ i with list := l }, s)
  else
    match s.rebindAll i with
    | some f => .error f
    | none =>
      if s.pinsBad i then .error (Fail.loadCheck 0)
      else .ok ({ i with group := if i.namesGroup then i.groups.head? else none }, s)

/-! ### Admission -/

/-- Put an item in the ledger (R362). -/
def State.enterLedger (s : State) (i : Item) : State :=
  let s : State := { s with items := s.items ++ [i], nextItem := s.nextItem + 1 }
  (s.bump .hub 0 5 1).peak .hub 0 7 s.items.length

/-- The item is refused: its ledger entry takes the disposition at once (R250, R312). -/
def State.refuse (s : State) (i : Item) (f : Fail) : State :=
  ((s.enterLedger i).bump .box i.box 6 1).resolve i.id (.failed f)

/-- Deadlines lent by the new item: each item it waits behind whose effective deadline it brings forward (R257). -/
def State.countLoans (old new : State) (j : Item) : State :=
  match j.deadline with
  | none => new
  | some _ =>
    (old.items.filter (fun i => heldBehind i j && new.effDeadline i.id != old.effDeadline i.id)).foldl (fun s i =>
      s.bump .disp ((i.groups.head?.bind s.group?).elim 0 (fun g => g.home)) 8 1) new

/-- An item that passed every check: charged, pinned, ordered behind the box's last SYNC (R16, R138, R266); one whose
deadline has passed fails with DEADLINE and nothing of it runs (R250). -/
def State.admitted (s : State) (i : Item) : State :=
  let i := { i with
    charged := true, deadline := s.deadlineOf i, soft := bit i.d 339
    collect := bit i.d 341, barrier := (s.box i.box).lastSync }
  let old := s
  let s := (s.enterLedger i).bump .box i.box 0 1
  let s := if i.kind = 0x0B then s.modBox i.box (fun b => { b with lastSync := some i.id }) else s
  let s := i.pins.foldl (fun (s : State) t => s.modPlace t (fun p => { p with pinCount := p.pinCount + 1 })) s
  match i.deadline with
  | some d =>
    if d ≤ s.time.t then s.failItem i.id { reason := .deadline }
    else old.countLoans s i
  | none => s

/-- Send an item to the module it names (R14, R324): the manager keeps its entry and a forwarding record. -/
def State.forwardItem (s : State) (i : Item) : State :=
  let i := { i with charged := true, deadline := none, entries := [], reportVa := 0, cullVa := 0 }
  let s := (s.enterLedger i).bump .box i.box 0 1
  let s : State := { s with fab := { s.fab with forwards := s.fab.forwards ++ [{ item := i.id, pos := i.pos }] } }
  s.sendMsg i.pos 1 (.item i.box i.ring i.count (leBytes 128 i.d))

/-- The checks of R250 and what follows them, on a descriptor that passed R312. -/
def State.enterItem (s : State) (i : Item) : State :=
  match s.admitStatic i with
  | .error (f, r) => s.refuse r f
  | .ok r =>
    if r.pos ≠ s.pos then
      (if s.quotaBad { r with kind := if r.kind = 0x01 then 0 else r.kind } then s.refuse r (Fail.loadCheck 0x0A06)
       else s.forwardItem r)
    else if s.quotaBad r then s.refuse r (Fail.loadCheck 0x0A06)
    else if s.deadlineBad r then s.refuse r (Fail.loadCheck 0x0A07)
    else
      match s.admitLoad r with
      | .error f => s.refuse r f
      | .ok (r, s) => s.admitted r

/-- The checks of R312 on an entry of ring `ring`, its bytes the number `e`; the item without its descriptor is `i`. -/
def State.entryCheck (s : State) (i : Item) (e : Nat) : Except Fail Item :=
  let va := bits e 479 432
  if (crc32c (leBytes 60 (e % 2 ^ 480))).toNat ≠ bits e 511 480 ∨ bits e 351 0 ≠ 0 then .error (Fail.loadCheck 0x0C01)
  else if bits e 367 352 ≠ i.count % 65536 then .error (Fail.loadCheck 0x0C02)
  else if va % 128 ≠ 0 ∨ !s.mapped i.box va 128 false then .error (Fail.loadCheck 0x0C03)
  else
    match s.numChk i.box va 128 with
    | .error f => .error f
    | .ok d =>
      if bits d 63 0 ≠ i.tag.toNat ∨ s.items.any (fun o => o.box == i.box && o.tag == i.tag) then
        .error { Fail.loadCheck 0x0C04 with coords := [0, 0, 0, 0] }
      else .ok { i with desc := BitVec.ofNat 1024 d, kind := bits d 79 72 }

/-- Refused at the ring entry: AT_ENTRY is set (R314). -/
def State.refuseEntry (s : State) (i : Item) (f : Fail) : State := s.refuse i { f with atEntry := true }

/-- Kind that an entry's dead-letter entry names: 0xFF where the descriptor could not be read (R314). -/
def State.kindOf (s : State) (b e : Nat) : Nat :=
  let va := bits e 479 432
  if va % 128 = 0 ∧ s.mapped b va 128 false ∧ !s.poisonedBox b va 128 then bits (s.readNum b va 128) 79 72 else 0xFF

/-- Take one submission entry (R312): `e` its 64 bytes, none where the ring cannot be read. -/
def State.takeSubmission (s : State) (b ring count : Nat) (e : Except Fail Nat) : State :=
  let n := match e with | .ok n => n | .error _ => 0
  let i : Item :=
    { id := s.nextItem, tag := BitVec.ofNat 64 (bits n 431 368), box := b, ring := ring, count := count, kind := 0xFF
      pos := s.pos }
  let s := s.bump .hostif 0 11 1
  if (s.box b).state ≠ .active ∨ s.fab.noMajority ∨ s.side.mgrConflict ∨ s.side.posRange then
    s.refuseEntry i { reason := .boxDisabled }
  else
    match e with
    | .error f => s.refuseEntry i f
    | .ok n =>
      match s.entryCheck i n with
      | .error f => s.refuseEntry { i with kind := if f.check = 0x0C04 then s.kindOf b n else 0xFF } f
      | .ok i => s.enterItem i

/-- Rings of a box that hold entries not taken, and the ring served next (R312). -/
def State.nextRing (s : State) (b : Nat) : Option Nat :=
  let last := ((s.host.lastRing.find? (fun p => p.1 == b)).map (·.2)).getD 7
  (List.range 8).findSome? (fun k =>
    let r := (last + 1 + k) % 8
    if (s.box b).subs.any (fun q => q.index == r && q.taken != q.tail) then some r else none)

/-- The bytes of entry `count` of a ring (R309, R310). -/
def State.ringEntry (s : State) (b : Nat) (r : SubRing) (count : Nat) : Except Fail Nat :=
  let va := r.addr + 64 * (count % max r.size 1)
  if !s.mapped b va 64 false then .error (Fail.loadCheck 0x0C01) else s.numChk b va 64

/-- RING_ENTRY_TAKE (R312): the ledger takes the next entry of a box's rings, the rings served in turn. -/
def execRingEntryTake (box ring : Nat) (s : State) : Ans :=
  match (s.box box).subs.find? (fun q => q.index == ring) with
  | none => .next s
  | some r =>
    if s.nextRing box ≠ some ring then .next s
    else
      let e := s.ringEntry box r r.taken
      let s := s.modBox box (fun b => { b with subs := b.subs.map (fun q =>
        if q.index = ring then { q with taken := (q.taken + 1) % 2 ^ 32 } else q) })
      let s : State := { s with host := { s.host with
        lastRing := (box, ring) :: s.host.lastRing.filter (fun p => p.1 != box) } }
      .next (s.takeSubmission box ring r.taken e)

end Sys2Proof.Machine
end

