-- ==== Sys2Proof/Machine/Coding.lean ====
section
/-! DEFINITION. Block coding: envelopes (R196), streams (R197), codebook images (R198), canonical codes (R199) and the
lengths the device builds (R200). Nothing here touches the state. -/

namespace Sys2Proof.Machine

def blockSize : Nat := 4096

/-! ### Canonical codes (R198, R199) -/

/-- A codeword: symbol, value (most significant bit first) and length. -/
structure Codeword where
  sym : Nat
  val : Nat
  len : Nat
  deriving DecidableEq, Repr

/-- The codewords of length `l`, in ascending symbol order from value `code`, and the next value. -/
def codesOfLen (lengths : List Nat) (l : Nat) (code : Nat) : List Codeword × Nat :=
  lengths.zipIdx.foldl (fun acc p =>
    if p.1 = l then (acc.1 ++ [{ sym := p.2, val := acc.2, len := l }], acc.2 + 1) else acc) ([], code)

/-- Codewords assigned from lengths, shorter ones first (R199). -/
def assignCodes (lengths : List Nat) : List Codeword :=
  ((List.range 12).foldl (fun acc i =>
    let r := codesOfLen lengths (i + 1) acc.2
    (acc.1 ++ r.1, 2 * r.2)) (([] : List Codeword), 0)).1

/-- Sum over used symbols of 2^(12 − length). -/
def kraft (lengths : List Nat) : Nat := (lengths.map (fun l => if l = 0 then 0 else 2 ^ (12 - l))).sum

/-- Symbols of a codebook's alphabet: 16, or 256 (R196, R198). -/
def bookSymbols (alphabet : Nat) : Nat := if alphabet = 0 then 16 else 256

/-- Codebook alphabet that data of an envelope's ALPHABET uses. -/
def bookOf (alphabet : Nat) : Nat := if alphabet = 0 then 0 else 1

/-- Symbols of a block (R196). -/
def blockSymbols (alphabet : Nat) : Nat := match alphabet with | 0 => 8192 | 1 => 4096 | _ => 2048

/-- The lengths of a codebook image. -/
def imageLengths (img : List Byte) : List Nat :=
  (List.range 256).map (fun s =>
    let b := (img.getD (16 + s / 2) 0).toNat
    if s % 2 = 0 then b % 16 else b / 16)

/-- Is a 144-byte image valid (R198)? -/
def imageValid (img : List Byte) : Bool :=
  let ls := imageLengths img
  let used := ls.filter (· ≠ 0)
  decide (leNat (img.take 4) = (crc32c (img.drop 4)).toNat) && decide ((img.getD 4 0).toNat ≤ 1) &&
    decide (img.getD 5 0 = 0x01) && ((img.drop 6).take 10).all (· == 0) &&
    ((img.getD 4 0).toNat == 1 || (img.drop 24).all (· == 0)) &&
    ls.all (fun l => decide (l ≤ 12)) && !used.isEmpty && decide (kraft ls ≤ 4096) &&
    (used.length != 1 || used == [1])

/-- The image of a codebook (R198): its bytes after the CRC. -/
def imageBody (alphabet : Nat) (lengths : List Nat) : List Byte :=
  [BitVec.ofNat 8 alphabet, 0x01] ++ List.replicate 10 0 ++
    (List.range 128).map (fun i => BitVec.ofNat 8 (lengths.getD (2 * i) 0 + 16 * lengths.getD (2 * i + 1) 0))

/-- CB_TAG: bits [7:0] of the image's CRC (R196). -/
def imageTag (alphabet : Nat) (lengths : List Nat) : Nat := (crc32c (imageBody alphabet lengths)).toNat % 256

/-! ### Building lengths (R200) -/

/-- A node of the merge: weight, key and members. -/
structure HNode where
  weight : Nat
  key : Nat
  members : List Nat
  deriving DecidableEq, Repr

def HNode.before (a b : HNode) : Bool := a.weight < b.weight || (a.weight == b.weight && a.key < b.key)

def hInsert (n : HNode) : List HNode → List HNode
  | [] => [n]
  | m :: l => if n.before m then n :: m :: l else m :: hInsert n l

def deepen (ln : List Nat) (ss : List Nat) : List Nat := ss.foldl (fun l s => listModify (· + 1) l s) ln

/-- Merge the two lightest nodes until one is left; `n` numbers the merges. -/
def huffman : Nat → List HNode → Nat → List Nat → List Nat
  | fuel + 1, a :: b :: rest, n, ln =>
    huffman fuel (hInsert { weight := a.weight + b.weight, key := 256 + n, members := a.members ++ b.members } rest) (n + 1)
      (deepen ln (a.members ++ b.members))
  | _, _, _, ln => ln

/-- The symbol to lengthen: longest below 12, then rarest, then highest. -/
def lengthenPick (counts ln used : List Nat) : Option Nat :=
  (used.filter (fun s => decide (ln.getD s 0 < 12))).foldl (fun best s =>
    match best with
    | none => some s
    | some b =>
      let ls := ln.getD s 0
      let lb := ln.getD b 0
      let cs := counts.getD s 0
      let cb := counts.getD b 0
      if lb < ls ∨ (lb = ls ∧ (cs < cb ∨ (cs = cb ∧ b < s))) then some s else some b) none

/-- Lengthen codes until they fit: at most 12 × 256 times. -/
def lengthen : Nat → List Nat → List Nat → List Nat → List Nat
  | fuel + 1, counts, used, ln =>
    if kraft ln ≤ 4096 then ln
    else match lengthenPick counts ln used with
      | none => ln
      | some s => lengthen fuel counts used (listModify (· + 1) ln s)
  | 0, _, _, ln => ln

/-- Shorten symbol `s` while the slack allows. -/
def shorten : Nat → Nat → List Nat → List Nat
  | fuel + 1, s, ln =>
    let l := ln.getD s 0
    if 1 < l ∧ kraft ln + 2 ^ (12 - l) ≤ 4096 then shorten fuel s (ln.set s (l - 1)) else ln
  | 0, _, ln => ln

/-- Symbols by falling count, then rising number. -/
def byCount (counts : List Nat) (used : List Nat) : List Nat :=
  used.foldl (fun acc s =>
    acc.takeWhile (fun t => decide (counts.getD s 0 ≤ counts.getD t 0)) ++ [s] ++
      acc.dropWhile (fun t => decide (counts.getD s 0 ≤ counts.getD t 0))) []

/-- Lengths built from census counts; none where no symbol is counted. -/
def buildLengths (counts : List Nat) : Option (List Nat) :=
  let used := (List.range counts.length).filter (fun s => decide (0 < counts.getD s 0))
  let zero := List.replicate counts.length 0
  match used with
  | [] => none
  | [s] => some (zero.set s 1)
  | _ =>
    let nodes := used.foldl (fun l s => hInsert { weight := counts.getD s 0, key := s, members := [s] } l) []
    let ln := (huffman nodes.length nodes 0 zero).map (fun l => min l 12)
    let ln := lengthen 3072 counts used ln
    some ((byCount counts used).foldl (fun ln s => shorten 12 s ln) ln)

/-! ### Envelopes (R196) -/

structure Envelope where
  crc : Nat
  index : Nat
  tag : Nat := 0
  codedBits : Nat := 0
  symbols : Nat := 0
  gen : Nat := 0
  slot : Nat := 0
  alphabet : Nat
  mode : Nat
  format : Nat := 1
  reserved : Nat := 0
  /-- The CRC matches bytes 0 to 11. -/
  crcOk : Bool := true
  deriving DecidableEq, Repr

def Envelope.ofBytes (bs : List Byte) : Envelope :=
  let n := leNat bs
  { crc := bits n 127 96, index := bits n 95 72, tag := bits n 71 64, codedBits := bits n 63 48, symbols := bits n 45 32,
    gen := bits n 31 28, slot := bits n 27 22, alphabet := bits n 21 20, mode := bits n 19 18, format := bits n 3 0,
    reserved := bits n 47 46 + bits n 17 4, crcOk := decide (bits n 127 96 = (crc32c (bs.take 12)).toNat) }

/-- Envelope bytes with their CRC. -/
def Envelope.toBytes (e : Envelope) : List Byte :=
  let body := leBytes 12 (e.index * 2 ^ 72 + e.tag * 2 ^ 64 + e.codedBits * 2 ^ 48 + e.symbols * 2 ^ 32 + e.gen * 2 ^ 28 +
    e.slot * 2 ^ 22 + e.alphabet * 2 ^ 20 + e.mode * 2 ^ 18 + e.format)
  body ++ leBytes 4 (crc32c body).toNat

/-! ### Streams (R197) -/

/-- The symbol values of a block's bytes: elements, bytes, or high bytes. -/
def blockSyms (alphabet : Nat) (bs : List Byte) : List Nat :=
  match alphabet with
  | 0 => bs.flatMap (fun b => [b.toNat % 16, b.toNat / 16])
  | 1 => bs.map (·.toNat)
  | _ => (List.range (bs.length / 2)).map (fun k => (bs.getD (2 * k + 1) 0).toNat)

/-- The codeword of a symbol as stream bits. -/
def codeBits (c : Codeword) : List Bool := (List.range c.len).map (fun i => bit c.val (c.len - 1 - i))

/-- Bits packed into bytes, the first at bit 0. -/
def packBits (n : Nat) (bs : List Bool) : List Byte :=
  (List.range n).map (fun i => BitVec.ofNat 8 ((((bs.drop (8 * i)).take 8).zipIdx.map (fun p => b2n p.1 * 2 ^ p.2)).sum))

/-- Stream bits of a symbol list. -/
def streamBits (codes : List Codeword) (syms : List Nat) : List Bool :=
  syms.flatMap (fun s => match codes.find? (fun c => c.sym == s) with | some c => codeBits c | none => [])

/-- Read one codeword: the symbol and the bits left, or the check of R206 that fails. -/
def nextSym (codes : List Codeword) (full : Nat) : Nat → Nat → Nat → List Bool → Except Nat (Nat × List Bool)
  | fuel + 1, len, val, b :: bs =>
    let val := 2 * val + b2n b
    let len := len + 1
    match codes.find? (fun c => c.len == len && c.val == val) with
    | some c => .ok (c.sym, bs)
    | none => if full ≤ val * 2 ^ (12 - len) then .error 0x08 else nextSym codes full fuel len val bs
  | _, _, _, [] => .error 0x09
  | 0, _, _, _ => .error 0x08

/-- Read `n` symbols. -/
def readSyms (codes : List Codeword) (full : Nat) : Nat → List Bool → Except Nat (List Nat × List Bool)
  | 0, bs => .ok ([], bs)
  | n + 1, bs =>
    match nextSym codes full 12 0 0 bs with
    | .error e => .error e
    | .ok (s, rest) =>
      match readSyms codes full n rest with
      | .error e => .error e
      | .ok (l, rest) => .ok (s :: l, rest)

/-- Bytes of a block from its decoded symbols (and the raw low bytes of the split). -/
def blockBytes (alphabet : Nat) (syms : List Nat) (low : List Byte) : List Byte :=
  (List.range blockSize).map (fun i =>
    match alphabet with
    | 0 => BitVec.ofNat 8 (syms.getD (2 * i) 0 + 16 * syms.getD (2 * i + 1) 0)
    | 1 => BitVec.ofNat 8 (syms.getD i 0)
    | _ =>
      if syms.length ≤ i / 2 then 0
      else if i % 2 = 0 then low.getD (i / 2) 0 else BitVec.ofNat 8 (syms.getD (i / 2) 0))

/-- Checks 0x08 to 0x0A and the bytes of a CODED block, from its frame. -/
def decodeCoded (lengths : List Nat) (e : Envelope) (frame : List Byte) : Except Nat (List Byte) :=
  let off := if e.alphabet = 2 then 2048 else 0
  let stream := (frame.drop off).take (cdiv e.codedBits 512 * 64)
  let all := stream.flatMap (fun b => (List.range 8).map (fun i => b.getLsbD i))
  match readSyms (assignCodes lengths) (kraft lengths) e.symbols (all.take e.codedBits) with
  | .error c => .error c
  | .ok (syms, left) =>
    if !left.isEmpty then .error 0x09
    else if (all.drop e.codedBits).any id then .error 0x0A
    else .ok (blockBytes e.alphabet syms (frame.take 2048))

/-- Frame bytes and stream length of a block coded under `lengths`; none where a symbol has no code. -/
def encodeCoded (lengths : List Nat) (alphabet : Nat) (bs : List Byte) : Option (List Byte × Nat) :=
  let syms := blockSyms alphabet bs
  if syms.any (fun s => lengths.getD s 0 == 0) then none
  else
    let stream := streamBits (assignCodes lengths) syms
    let low := if alphabet = 2 then (List.range 2048).map (fun k => bs.getD (2 * k) 0) else []
    some (low ++ packBits (cdiv stream.length 512 * 64) stream, stream.length)

/-- Counts added to a histogram, each saturating (R202). -/
def addCensus (hist : List Nat) (syms : List Nat) : List Nat :=
  syms.foldl (fun h s => listModify (fun c => min (c + 1) 0xFFFF_FFFF) h s) hist

end Sys2Proof.Machine
end

