-- ==== Sys2Proof/Machine/Codebook.lean ====
section
/-! DEFINITION. The codebook unit: slots, census and replacement (R201 to R205, R217). The four dies' copies of a slot
are one slot here, since every command acts on all of them together (R201). -/

namespace Sys2Proof.Machine

/-- RESULT codes of R217. -/
inductive CbRes where
  | ok | slotOwned | badRange | noSymbols | badImage | poisoned | quota | notFresh
  deriving DecidableEq, Repr

def CbRes.code : CbRes → Nat
  | .ok => 0 | .slotOwned => 1 | .badRange => 2 | .noSymbols => 3 | .badImage => 4 | .poisoned => 5 | .quota => 6
  | .notFresh => 7

/-- A command's end: RESULT, and the slot's generation after it (R217). -/
def State.cbEnd (s : State) (slot : Nat) (r : CbRes) : State :=
  { s with cb := { s.cb with result := r.code, gen := (s.slot slot).gen } }

def State.cbQuota (s : State) (b : Nat) : Nat := s.field .box b Reg.box_quotaCodebooks 6 0

/-- Claim an EMPTY slot for a box within its quota (R201); none where the quota is spent. -/
def State.cbClaim (s : State) (slot box : Nat) : Option State :=
  if (s.slot slot).st ≠ .empty then some s
  else if s.cbQuota box ≤ s.useCodebooks box then none
  else some (s.modSlot slot (fun c => { c with st := .owned, owner := box, fresh := false }))

/-- Begin a REPLACING wait (R203 step 2). -/
def State.cbReplace (s : State) (slot : Nat) (p : CbPend) : State :=
  let s := s.modSlot slot (fun c => { c with st := .replacing, pend := some p })
  { s with cb := { s.cb with waiting := some slot } }

/-- A slot installed with a codebook (R203 step 4). -/
def CbSlot.install (c : CbSlot) (alphabet : Nat) (lengths : List Nat) (tag gen : Nat) : CbSlot :=
  { c with st := .ready, alphabet := alphabet, lengths := lengths, tag := tag, gen := gen % 16, pend := none }

/-- A slot emptied (R202 RELEASE): its generation advances and its owner goes. -/
def CbSlot.release (c : CbSlot) : CbSlot :=
  { st := .empty, gen := (c.gen + 1) % 16, fresh := c.fresh, inflight := c.inflight }

/-- CENSUS (R202). -/
def State.census (s : State) (slot box alphabet : Nat) (accum : Bool) (va units : Nat) : State :=
  let n := units * blockSize
  if (s.slot slot).st ≠ .empty ∧ (s.slot slot).owner ≠ box then s.cbEnd slot .slotOwned
  else
    match s.cbClaim slot box with
    | none => s.cbEnd slot .quota
    | some s =>
      if alphabet = 3 ∨ units = 0 ∨ va % blockSize ≠ 0 ∨ ¬ s.mapped box va n false ∨ s.inCoded box va n ∨
          s.inProtected box va n then s.cbEnd slot .badRange
      else if s.poisonedBox box va n then
        (s.modSlot slot (fun c => { c with hist := List.replicate 256 0 })).cbEnd slot .poisoned
      else
        let h := if accum then (s.slot slot).hist else List.replicate 256 0
        let s := s.modSlot slot (fun c => { c with
          hist := addCensus h (blockSyms alphabet (s.readBox box va n)), histAlphabet := alphabet })
        (s.bump .codebook 0 0 n).cbEnd slot .ok

def execCensus (slot box alphabet : Nat) (accum : Bool) (va units : Nat) (s : State) : Ans :=
  .next (s.when s.cb.waiting.isNone (s.census slot box alphabet accum va units))

/-- REPLACE_STAGED (R202, R203): lengths built from the histogram, under the last census's alphabet. -/
def State.replaceStaged (s : State) (slot box : Nat) : State :=
  if (s.slot slot).st ≠ .empty ∧ (s.slot slot).owner ≠ box then s.cbEnd slot .slotOwned
  else
    match s.cbClaim slot box with
    | none => s.cbEnd slot .quota
    | some s =>
      let c := s.slot slot
      let a := bookOf c.histAlphabet
      match buildLengths (c.hist.take (bookSymbols a)) with
      | none => s.cbEnd slot .noSymbols
      | some ls =>
        let ls := ls ++ List.replicate (256 - ls.length) 0
        s.cbReplace slot (.install a ls (imageTag a ls))

def execReplaceStaged (slot box : Nat) (s : State) : Ans :=
  .next (s.when s.cb.waiting.isNone (s.replaceStaged slot box))

/-- The image of REPLACE_IMAGE or RESTORE, read before anything else (R202). -/
def State.readImage (s : State) (box va : Nat) : Except CbRes (List Byte) :=
  if va % 16 ≠ 0 ∨ ¬ s.mapped box va 144 false then .error .badRange
  else if s.poisonedBox box va 144 then .error .poisoned
  else .ok (s.readBox box va 144)

def imageAlphabet (img : List Byte) : Nat := (img.getD 4 0).toNat

def imageTagOf (img : List Byte) : Nat := (img.getD 0 0).toNat

/-- REPLACE_IMAGE (R202, R203). -/
def State.replaceImage (s : State) (slot box va : Nat) : State :=
  match s.readImage box va with
  | .error r => s.cbEnd slot r
  | .ok img =>
    if (s.slot slot).st ≠ .empty ∧ (s.slot slot).owner ≠ box then s.cbEnd slot .slotOwned
    else if !imageValid img then s.cbEnd slot .badImage
    else match s.cbClaim slot box with
      | none => s.cbEnd slot .quota
      | some s => s.cbReplace slot (.install (imageAlphabet img) (imageLengths img) (imageTagOf img))

def execReplaceImage (slot box va : Nat) (s : State) : Ans :=
  .next (s.when s.cb.waiting.isNone (s.replaceImage slot box va))

/-- RELEASE (R202): at once where nothing is in flight, else as R203 waits. -/
def State.cbRelease (s : State) (slot box : Nat) : State :=
  let c := s.slot slot
  if c.st = .empty then s.cbEnd slot .ok
  else if c.owner ≠ box then s.cbEnd slot .slotOwned
  else if c.inflight = 0 then
    ((s.modSlot slot CbSlot.release).bump .codebook 0 2 1).cbEnd slot .ok
  else s.cbReplace slot .release

def execRelease (slot box : Nat) (s : State) : Ans := .next (s.when s.cb.waiting.isNone (s.cbRelease slot box))

/-- RESTORE (R202): only on a slot that has been EMPTY since the module started. -/
def State.restore (s : State) (slot box gen va : Nat) : State :=
  match s.readImage box va with
  | .error r => s.cbEnd slot r
  | .ok img =>
    if (s.slot slot).st ≠ .empty ∧ (s.slot slot).owner ≠ box then s.cbEnd slot .slotOwned
    else if !(s.slot slot).fresh then s.cbEnd slot .notFresh
    else if !imageValid img then s.cbEnd slot .badImage
    else match s.cbClaim slot box with
      | none => s.cbEnd slot .quota
      | some s =>
        ((s.modSlot slot (fun c => c.install (imageAlphabet img) (imageLengths img) (imageTagOf img) gen)).bump
          .codebook 0 1 1).cbEnd slot .ok

def execRestore (slot box gen va : Nat) (s : State) : Ans :=
  .next (s.when s.cb.waiting.isNone (s.restore slot box gen va))

/-- CODEBOOK_INSTALL (R203 steps 4 and 5): nothing in flight under a REPLACING slot. -/
def execCodebookInstall (slot : Nat) (s : State) : Ans :=
  let c := s.slot slot
  if c.st = .replacing ∧ c.inflight = 0 then
    match c.pend with
    | none => .next s
    | some p =>
      let s := match p with
        | .install a ls tag => (s.modSlot slot (fun c => c.install a ls tag (c.gen + 1))).bump .codebook 0 1 1
        | .release => (s.modSlot slot CbSlot.release).bump .codebook 0 2 1
      let s := { s with cb := { s.cb with waiting := none } }.cbEnd slot .ok
      .next (match s.host.cbReply with
        | none => s
        | some (n, seq) =>
          (s.setHost (fun h => { h with cbReply := none })).respond n seq 0
            [BitVec.ofNat 8 s.cb.result, BitVec.ofNat 8 s.cb.gen])
  else .next s

end Sys2Proof.Machine
end

