-- ==== Sys2Proof/Machine/Holdings.lean ====
section
/-! DEFINITION. Device pages that the device holds (R221): their choice among free pages, the holdings of the module, of a
box while it is enabled and of its page table. -/

namespace Sys2Proof.Machine

/-- Ranges (first, count) without the pages of `[a, a + n)`. -/
def cutRange (gaps : List (Nat × Nat)) (a n : Nat) : List (Nat × Nat) :=
  gaps.flatMap (fun g =>
    [(g.1, min (g.1 + g.2) a - g.1), (max g.1 (a + n), g.1 + g.2 - max g.1 (a + n))].filter (fun r => r.2 != 0))

/-- Pages that are held, mapped or the target of a redirect, as ranges (R221). -/
def State.busyRanges (s : State) : List (Nat × Nat) :=
  s.held.map (fun h => (h.first, h.count)) ++ s.mappedPages.map (fun p => (p, 1)) ++
    s.dies.flatMap (fun d => d.redirects.map (fun r => (r.target, 1)) ++ d.toMove.map (fun r => (r.target, 1)))

/-- Free pages of `[lo, lo + n)`. -/
def State.freeRanges (s : State) (lo n : Nat) : List (Nat × Nat) :=
  s.busyRanges.foldl (fun g r => cutRange g r.1 r.2) ([(lo, n)].filter (fun r => r.2 != 0))

/-- Pages of die range `d` that may be allocated: none while the die evacuates (R232). -/
def State.freeHbm (s : State) (d : Nat) : List (Nat × Nat) :=
  if (s.die d).evacuating then [] else s.freeRanges (d * diePages) (((s.die d).channels - (s.die d).pendingOut) * 2048)

def State.freeFlash (s : State) : List (Nat × Nat) := s.freeRanges (flashBase / pageSize) (s.flashSize / pageSize)

/-- The first `n` pages of a list of ranges; none where they hold fewer. -/
def takePages : Nat → List (Nat × Nat) → Option (List (Nat × Nat))
  | 0, _ => some []
  | _ + 1, [] => none
  | n + 1, (a, m) :: l =>
    if n + 1 ≤ m then some [(a, n + 1)] else (takePages (n + 1 - m) l).map (fun r => (a, m) :: r)

/-- Ranges from page `c` on, then those before it. -/
def rotatePages (c : Nat) (gaps : List (Nat × Nat)) : List (Nat × Nat) :=
  cutRange gaps 0 c ++ gaps.flatMap (fun g => [(g.1, min (g.1 + g.2) c - g.1)].filter (fun r => r.2 != 0))

/-- Hold `n` pages of the free ranges given: firmware's choice, from a page that is a free choice on. -/
def State.holdPages (s : State) (use : PageUse) (n : Nat) (gaps : List (Nat × Nat)) : Option State :=
  if n = 0 then some s
  else
    let c := s.draw
    (takePages n (rotatePages (Config.freeChoice c.1) gaps)).map (fun l =>
      { c.2 with held := c.2.held ++ l.map (fun r => { use := use, first := r.1, count := r.2 }) })

def State.freeHbmAll (s : State) : List (Nat × Nat) := (List.range 4).flatMap s.freeHbm

def State.releaseHeld (s : State) (use : PageUse) : State := { s with held := s.held.filter (fun h => h.use != use) }

def pagesOf (bytes : Nat) : Nat := cdiv bytes pageSize

/-- HBM-homed and flash-homed pages of a box's device memory, sized to its quotas (R221, R266). The region table is 64
records of 32 bytes (R192). -/
def State.boxPages (s : State) (b : Nat) : Nat × Nat :=
  (pagesOf ((s.field .box b Reg.box_quotaArena 19 0 + s.field .box b Reg.box_quotaKvpool 19 0 +
      s.field .box b Reg.box_quotaLoaded 15 0) * mib + 64 * s.field .box b Reg.box_quotaPlaces 18 0 + 2048),
   s.field .box b Reg.box_quotaPoste 15 0 * 512)

/-- A box's device memory held at ENABLE; none where the free pages cannot hold it. -/
def State.holdBox (s : State) (b : Nat) : Option State :=
  let n := s.boxPages b
  (s.holdPages (.box b) n.1 s.freeHbmAll).bind (fun s => s.holdPages (.box b) n.2 s.freeFlash)

/-- Pages of a box's page table with `k` second-level tables: 64 KiB and 128 KiB each (R222). -/
def tablePages (k : Nat) : Nat := pagesOf (0x1_0000 + 0x2_0000 * k)

/-- Pages held for a use. -/
def State.heldCount (s : State) (use : PageUse) : Nat := ((s.held.filter (fun h => h.use == use)).map (·.count)).sum

/-- The page table of a box grows for an address: none where no free HBM-homed page remains (R222). -/
def State.growTable (s : State) (b va : Nat) : Option State :=
  let k := va / 2 ^ 35
  if (s.box b).tables.contains k then some s
  else
    let t := k :: (s.box b).tables
    (s.holdPages (.table b) (tablePages t.length - s.heldCount (.table b)) s.freeHbmAll).map (fun s =>
      s.modBox b (fun x => { x with tables := t }))

/-- Bytes of HBM that the module holds from its start and whose size the spec gives: retained image store (R332), event
ring (R392) and exposure buffers (R379). -/
def startBytes : Nat := 64 * mib + 64 * mib + 68 * 65536 * 8

/-- The module's holdings at its start (R221): the tier pool in equal shares, and the rest, of which the spec does not
size the firmware regions, the signature store and the redirect tables: a free choice of pages more. -/
def State.holdModule (s : State) : State :=
  let share := s.field .tier 0 Reg.tier_tierPool 9 0 * 128
  let s := (List.range 4).foldl (fun (s : State) d => (s.holdPages .device share (s.freeHbm d)).getD s) s
  let c := s.draw
  (c.2.holdPages .device (pagesOf startBytes + Config.freeChoice c.1) c.2.freeHbmAll).getD c.2

end Sys2Proof.Machine
end

