-- ==== Sys2Proof/Machine/Firmware.lean ====
section
/-! DEFINITION. Firmware (R329 to R345): faults and restarts of components, escalation, mailboxes, SUPERVISOR's tasks;
security (R348 to R361): the boot sequence, the field record, debug tokens and box keys. -/

namespace Sys2Proof.Machine

def State.setFw (s : State) (f : Firmware → Firmware) : State := { s with fw := f s.fw }
def State.setSec (s : State) (f : Security → Security) : State := { s with sec := f s.sec }

/-! ### Escalation (R344, R345) -/

/-- Escalate to a module reset with reset cause `cause` (R345, R443). -/
def State.escalate (s : State) (component first second cause : Nat) : State :=
  let s := s.setFw (fun w => { w with
    st := .escalating, comps := w.comps.map (fun c => { c with st := if c.st = .absent then .absent else .halted }) })
  let s := ((s.bump .fwctl 0 8 1).changed .fwctl 0).event
    { pageRec .fwctl 0 0x0902 .error with a := component, b := first, c := second }
  (s.leave).moduleReset cause true

/-- ESCALATION (R345). -/
def execEscalation (component firstCause secondCause : Nat) (s : State) : Ans :=
  .next (s.escalate component firstCause secondCause 3)

/-- RESET_MODULE (R344): FW_CMD. -/
def execResetModule (s : State) : Ans := .next (s.escalate 0 0 0 4)

/-! ### Faults and restarts (R339 to R343) -/

def compOk (k : Nat) : Bool := decide (1 ≤ k ∧ k ≤ 5)

/-- First processor of a component (R329). -/
def compProc (k : Nat) : Nat := if k = 1 then 0 else k

/-- Steps 1 and 2 of R341. -/
def State.beginRestart (s : State) (k cause proc : Nat) (pc : W64) : State :=
  let s := s.modComp k (fun c => { c with
    st := .restarting, loaded := false, restarts := min 255 (c.restarts + 1), lastCause := cause })
  let s := s.setFw (fun w => { w with faultComp := k, faultCause := cause, faultProc := proc, faultPc := pc })
  let s := ((s.bump .fwctl 0 4 1).changed .fwctl 0).event
    { code := 0x0900, sev := .error, srcType := 0x0300, unit := k, a := k, b := cause }
  let s := s.when (k == 3) (({ s with tier := { s.tier with paused := true } }).changed .tier 0)
  s.when (k == 1)
    ((List.range 4).foldl (fun s d => s.setField .disp d Reg.disp_dispCtrl 0 0 1) (s.setFw (fun w => { w with gangReturn := true })))

/-- A fault with cause 0x1 to 0x6 (R339): a second one within 10 s escalates (R344). -/
def State.faultComp (s : State) (k cause proc : Nat) (pc : W64) : State :=
  let c := s.comp k
  if c.armed then s.escalate k c.armedCause cause 3
  else
    (s.beginRestart k cause proc pc).modComp k (fun c => { c with armed := true, armedCause := cause })

/-- A component can fault while it starts, runs or restarts. -/
def Comp.alive (c : Comp) : Bool := c.st == .running || c.st == .starting || c.st == .restarting

/-- COMPONENT_FAULT (R339). -/
def execComponentFault (component cause processor : Nat) (pc : W64) (s : State) : Ans :=
  .next (s.when (compOk component && decide (1 ≤ cause ∧ cause ≤ 6) && (s.comp component).alive)
    ((s.when (cause == 1) (s.bump .fwctl 0 5 1)).faultComp component cause processor pc))

/-- FW_WATCHDOG (R339): suspended while debug halts the component's processor (R359). -/
def execFwWatchdog (component : Nat) (s : State) : Ans :=
  let d := s.draw
  .next (s.when (compOk component && (s.comp component).alive)
    ((d.2.bump .fwctl 0 5 1).faultComp component 1 (compProc component) (Config.freeDouble d.1)))

/-- RESTART_OVERRUN (R339): a restart that does not reach RUNNING within 200 ms. -/
def execRestartOverrun (component : Nat) (s : State) : Ans :=
  let d := s.draw
  .next (s.when (compOk component && (s.comp component).st == .restarting)
    (d.2.faultComp component 6 (compProc component) (Config.freeDouble d.1)))

/-- FW_CMD RESTART (R339, R347): of a component not RUNNING it is ignored and flagged; it never counts toward
escalation. -/
def State.hostRestart (s : State) (k : Nat) : State :=
  if compOk k && (s.comp k).st == .running then s.beginRestart k 7 (compProc k) 0
  else s.flagAccess .fwctl 0 (regAddr .fwctl 0 Reg.fwctl_fwCmd) true

def execRestartComponent (component : Nat) (s : State) : Ans := .next (s.hostRestart component)

/-- COMPONENT_RESTART (R341 steps 3 and 4): a digest mismatch escalates; else the code is copied, the data region
cleared and the processors started. -/
def execComponentRestart (component : Nat) (digestOk : Bool) (s : State) : Ans :=
  let c := s.comp component
  .next (s.when (compOk component && c.st == .restarting && !c.loaded)
    (if digestOk then s.modComp component (fun c => { c with loaded := true })
     else s.escalate component c.lastCause 0 3))

/-- The order in which components start (R334). -/
def nextStart (k : Nat) : Option Nat :=
  match k with
  | 1 => some 3 | 3 => some 5 | 5 => some 4 | 4 => some 2 | _ => none

/-- Start-up self-test of every core (R69, R377): its verdicts are free values. -/
def State.startTest (s : State) : State :=
  let d := s.draw
  { d.2 with cores := d.2.cores.zipIdx.map (fun p =>
      let ok := Config.startPass d.1 p.2
      { p.1 with
        state := if !ok then .fenced else if (s.logical p.2).isSome then .idle else .drained
        lastPass := if ok then some 0 else none }) }

/-- Items a restarted component holds whose outcome its journal does not record (R342). -/
def State.heldUnrecorded (s : State) (k : Nat) : List Nat :=
  if k = 1 ∨ k = 4 then
    (s.items.filter (fun i => i.disp.isNone && i.holder == k && !((s.comp k).journal.contains i.id))).map (·.id)
  else []

/-- COMPONENT_RUNNING (R334 step 4, R342): a component that starts lets the next one start, and FW_STATE becomes RUNNING
behind the last; one that restarts fails its unrecorded items, and the message it was handling is delivered again. -/
def execComponentRunning (component : Nat) (s : State) : Ans :=
  let c := s.comp component
  if !compOk component then .next s
  else if c.st = .starting then
    let s := (s.modComp component (fun c => { c with st := .running })).changed .fwctl 0
    let s := s.when (component == 1) s.startTest
    .next (match nextStart component with
      | some n => s.modComp n (fun c => { c with st := .starting })
      | none => s.setFw (fun w => { w with st := .running }))
  else if c.st = .restarting ∧ c.loaded then
    let ids := s.heldUnrecorded component
    let s := s.failItems ids { reason := .fwRestart }
    let s := s.bump .fwctl 0 6 ids.length
    let s := s.modComp component (fun c => { c with
      st := .running, redelivered := c.handling.isSome
      mailbox := (match c.handling with | some m => [m] | none => []) ++ c.mailbox, handling := none })
    let s := s.when (component == 3)
      (let s : State := { s with tier := { s.tier with paused := false } }
       let s := (s.changed .tier 0).tierResume
       s.when s.log.behind (s.mirrorWrite false))
    .next ((s.changed .fwctl 0).event { code := 0x0901, sev := .notice, srcType := 0x0300, unit := component, a := component })
  else .next s

/-- ESC_ARMED_EXPIRY (R344, R347). -/
def execEscArmedExpiry (component : Nat) (s : State) : Ans :=
  .next (s.modComp component (fun c => { c with armed := false }))

/-- MAILBOX_SEND (R331): the first 256 messages are the mailbox, the others' senders wait; each wait counts once. -/
def execMailboxSend (sender receiver : Nat) (message : List Byte) (s : State) : Ans :=
  .next (s.when (compOk sender && compOk receiver && decide (message.length ≤ 64))
    (let full := decide (256 ≤ (s.comp receiver).mailbox.length)
     let s := s.modComp receiver (fun c => { c with mailbox := c.mailbox ++ [(sender, message)] })
     s.bump .fwctl 0 7 (b2n full)))

/-! ### SUPERVISOR's tasks (R337) -/

/-- The task that runs next: the oldest of the highest class. -/
def nextTask (l : List Task) : Option Task :=
  ((List.range 6).map (fun i => l.find? (fun t => t.cls == i + 1))).findSome? id

/-- What a task does: substitution (5), the signature of a fence (6), the signature of a die's reset (8), telemetry. -/
def State.runTask (s : State) (t : Task) : State :=
  match t.what with
  | 5 => match s.logical t.arg with
    | some l => s.substitute l
    | none => s
  | 6 => s.signature (s.core t.arg).fenceCause t.arg 0 0
  | 8 => s.signature 8 0xFFFF (BitVec.ofNat 64 t.arg) 0
  | _ => s

/-- SUPERVISOR_TASK (R337). -/
def execSupervisorTask (s : State) : Ans :=
  match nextTask s.fw.tasks with
  | none => .next s
  | some t =>
    .next (s.when ((s.comp 1).st == .running)
      (let s := s.setFw (fun w => { w with tasks := w.tasks.erase t, telemetry := w.telemetry || decide (t.cls = 6) })
       (s.bump .fwctl 0 0 1).runTask t))

/-! ### Measurements and the field record (R350, R353, R354) -/

/-- Enter a measurement: the last slot takes LOG_FULL, and then measurements only count (R354). -/
def State.measure (s : State) (m : Measure) : State :=
  let n := s.sec.log.length
  if n < 63 then s.setSec (fun c => { c with log := c.log ++ [m] })
  else if n = 63 then s.setSec (fun c => { c with log := c.log ++ [{ digest := 0, type := 6 }], logFull := true })
  else s.bump .sec 0 6 1

/-- The newer valid copy of the field record. -/
def Security.record (c : Security) : Option FieldRecord :=
  match c.field with
  | [some a, some b] => some (if a.seq < b.seq then b else a)
  | [some a, none] => some a
  | [none, some b] => some b
  | _ => none

/-- FIELD_RECORD_WRITE (R350): a new copy replaces the older one. -/
def State.writeField (s : State) : State :=
  s.setSec (fun c =>
    let old := c.record
    let new : FieldRecord :=
      { seq := (match old with | some r => r.seq + 1 | none => 1), floors := c.floors, retired := c.retired, mapouts := c.mapouts }
    let newerFirst := match c.field with
      | [some a, some b] => decide (b.seq < a.seq)
      | [some _, none] => true
      | _ => false
    { c with field := if newerFirst then [c.field.getD 0 none, some new] else [some new, c.field.getD 1 none] })

def execFieldRecordWrite (s : State) : Ans := .next s.writeField

/-! ### Boot (R348, R390) -/

/-- First postmark after a start (R390). -/
def Recorder.firstPostmark (r : Recorder) : Nat :=
  if !r.hasMirror then 0 else if r.closed then (match r.mirror with | x :: _ => x.postmark + 1 | [] => 0) else r.reserve

/-- The recorder at start: MODULE_START is its first record (R390). -/
def State.startRecorder (s : State) : State :=
  let l := s.log
  let p := l.firstPostmark
  let newest := match l.mirror with | x :: _ => x.postmark | [] => 0
  let s : State := { s with log := { l with next := p, mirrorNext := p, accepting := true, wasClosed := l.closed } }
  s.takeRecord { pageRec .log 0 0x0001 .info with
    a := newest, b := b2n l.closed, c := if l.hasMirror ∧ !l.closed then l.reserve else 0 }

/-- What the boot unit finds: the passport, its identity, the SVN floors and the field record (R348, steps 3 to 5). -/
def State.readPassport (s : State) : State :=
  let fr := s.sec.record
  let s := s.setSec (fun c => { c with
    passport := if Config.passportValid then .good else .bad
    identity := if Config.identityValid then .good else .bad
    floors := (List.range 6).map (fun k => max (Config.svnBaseline k) (match fr with | some r => r.floors.getD k 0 | none => 0))
    retired := (match fr with | some r => r.retired | none => [])
    mapouts := (match fr with | some r => r.mapouts | none => []) })
  s.when fr.isNone (s.event { pageRec .sec 0 0x0A01 .warning with a := 0 })

/-- Pigeonhole retirements of the field record apply at every start (R51). -/
def State.applyRetired (s : State) : State :=
  let s : State := { s with cores := s.cores.zipIdx.map (fun (p : Core × Nat) =>
    { p.1 with retired := cellGet 0 s.sec.retired p.2 }) }
  s.sec.retired.foldl (fun (s : State) r =>
    s.setReg (regAddr .acm r.1 Reg.acm_acmMap) (BitVec.ofNat 32 (remapAll 0x7654_3210 r.2))) s

/-- Channel map-outs of the field record apply at every start. -/
def State.applyMapouts (s : State) : State :=
  s.sec.mapouts.foldl (fun (s : State) m =>
    (s.modStack (m / 16) (fun k => { k with mappedOut := setInsert k.mappedOut (m % 16) })).modDie (m / 48)
      (fun d => { d with channels := d.channels - 1 })) s

/-- A new nonce for the module's run. -/
def State.freshNonce (s : State) : State :=
  let d := s.draw
  d.2.setSec (fun c => { c with nonce := Config.freeDouble d.1 })

/-- BOOT_SEQUENCE (R348). -/
def execBootSequence (s : State) : Ans :=
  .next (s.when (s.pwr.regulators && !s.fw.booted)
    (let s := s.startRecorder.readPassport
     let s := ((s.measure { digest := Config.measured 0, type := 1 }).measure { digest := Config.measured 1, type := 2 }).measure
       { digest := Config.measured 2, type := 3 }
     let s := s.applyRetired.applyMapouts.holdModule.freshNonce
     (s.setFw (fun w => { w with st := .noFirmware, booted := true })).changed .sec 0))

/-! ### Debug tokens (R358, R359, R427) -/

/-- The token's checks (R358). -/
def Security.tokenOk (c : Security) (t : List Byte) : Bool :=
  let num := fun (o n : Nat) => leNat ((t.drop o).take n)
  t.length == 3373 && num 0 32 == Config.identityKeyDigest.toNat && num 32 8 == c.nonce.toNat &&
  decide (1 ≤ num 40 4 ∧ num 40 4 ≤ 28800) && decide (num 44 1 < 8) && decide (num 45 1 < 4) &&
  !Config.revoked.getLsbD (4 + num 45 1) && num 46 1 == 1 && num 47 17 == 0 &&
  Config.tokenSigOk (num 45 1) (Config.sha3 (t.take 64)) (t.drop 64)

/-- A key set for a box (R241, R357): protected data units that stand under another key are no longer readable. -/
def State.setKey (s : State) (b : Nat) (key : BitVec 512) : State :=
  let x := s.box b
  if x.protKey = some key then s.modBox b (fun x => { x with key := some key })
  else
    let d := s.draw
    let pages := x.pt.filterMap (fun p => if pteValid p.2 && pteProtected p.2 then some (pteDa p.2 / pageSize) else none)
    { d.2 with protUnits := d.2.protUnits.filter (fun u => !pages.contains (u * 256 / pageSize)) }.modBox b
      (fun x => { x with key := some key, protKey := some key, protSeed := d.1 })

/-- TOKEN (R427): selects the token register; an Update-DR begins a check unless one is in progress. -/
def execToken (bytes : List Byte) (s : State) : Ans :=
  let s : State := { s with test := { s.test with ir := .token
                                                  dr := match s.sec.tokenRes with | .accepted => 0 | .refused => 1 | .checking => 2 | .none => 0 } }
  .next (if s.sec.tokenRes = .checking then s else s.setSec (fun c => { c with tokenRes := .checking, tokenBytes := bytes }))

/-- TOKEN_CHECK_DONE (R358, R359, R427): the scope is unlocked or the token refused, and a fresh nonce drawn. -/
def execTokenCheckDone (s : State) : Ans :=
  if s.sec.tokenRes ≠ .checking then .next s
  else
    let t := s.sec.tokenBytes
    let ok := s.sec.tokenOk t
    let d := s.draw
    let s := d.2.setSec (fun c => { c with
      nonce := Config.freeDouble d.1, tokenBytes := [], tokenRes := if ok then .accepted else .refused })
    if ok then
      let scope := leNat ((t.drop 44).take 1)
      let life := leNat ((t.drop 40).take 4)
      let s := s.when (bit scope 2) { s with boxes := s.boxes.map (fun b => { b with key := none }) }
      let s := s.measure { digest := Config.sha3 t, type := 5 }
      let s := s.setSec (fun c => { c with scope := scope, remaining := life, debugSeen := true })
      .next (((s.bump .sec 0 3 1).changed .sec 0).event { pageRec .sec 0 0x0A02 .notice with a := scope, b := life })
    else .next (s.bump .sec 0 4 1)

/-- The hart as the debug module keeps it. -/
def State.hart (s : State) (h : Nat) : Hart := (s.test.harts.find? (fun x => x.num == h)).getD { num := h }

/-- A halted clerk goes on as it was (R428). -/
def State.unhaltClerk (s : State) (h : Nat) : State :=
  let f := fun (q : Clerk) => if q.state = .halted then { q with state := (s.hart h).was } else q
  s.modCore (h / 4) (fun k => { k with clerks := listModify f k.clerks (h % 4) })

/-- Relock debug (R359): breakpoints cleared, halted harts resumed. -/
def State.relock (s : State) : State :=
  let s := s.setSec (fun c => { c with scope := 0, remaining := 0 })
  let s := (s.test.harts.filter (fun x => decide (x.num < 272))).foldl (fun (s : State) x => s.unhaltClerk x.num) s
  { s with
    test := { s.test with harts := [], dm := [] }
    fw := { s.fw with comps := s.fw.comps.map (fun c => if c.st = .halted then { c with st := .running } else c) } }

/-- DEBUG_LIFETIME_EXPIRY (R359). -/
def execDebugLifetimeExpiry (s : State) : Ans := .next (s.when (decide (s.sec.scope ≠ 0)) (s.relock.changed .sec 0))

/-- SEC_DBG_LOCK (R359, R361). -/
def execSecDbgLock (s : State) : Ans := .next (s.relock.changed .sec 0)

/-! ### Box keys (R357, R361) -/

/-- KEY_DATA0 to 15 as one number, KEY_DATA0 lowest. -/
def Security.keyWord (c : Security) : BitVec 512 :=
  BitVec.ofNat 512 (c.keyData.foldr (fun w acc => w.toNat + 2 ^ 32 * acc) 0)

/-- KEY_CMD_INSTALL (R361): KEY_DATA is cleared after use. -/
def State.keyInstall (s : State) (b : Nat) : State :=
  let k := s.sec.keyWord
  let clear := fun (s : State) (r : Nat) => s.setSec (fun c => { c with keyData := List.replicate 16 0, keyResult := r })
  if k.toNat % 2 ^ 256 = k.toNat / 2 ^ 256 then clear s 1
  else if (s.box b).key.isSome then clear s 2
  else clear ((s.setKey b k).bump .sec 0 5 1) 0

def execKeyCmdInstall (box : Nat) (s : State) : Ans := .next (s.when (decide (box < 64)) (s.keyInstall box))

/-- KEY_CMD_CLEAR (R361). -/
def State.keyClear (s : State) (b : Nat) : State :=
  (s.modBox b (fun x => { x with key := none })).setSec (fun c => { c with keyResult := 0 })

def execKeyCmdClear (box : Nat) (s : State) : Ans := .next (s.when (decide (box < 64)) (s.keyClear box))

end Sys2Proof.Machine
end

