-- ==== Sys2Proof/Machine/Boxes.lean ====
section
/-! DEFINITION. Boxes enabled and disabled (R267 to R269, R324, R326). -/

namespace Sys2Proof.Machine

/-- BOX_CMD on the manager's page applies on every SERVING and SPARE module (R324). -/
def State.spreadBoxCmd (s : State) (b cmd : Nat) : State :=
  if s.fab.role ≠ .manager then s
  else
    (List.range 64).foldl (fun (s : State) p =>
      if p ≠ s.pos ∧ (s.fab.members.getD p .absent = .serving ∨ s.fab.members.getD p .absent = .spare) then
        s.sendMsg p 1 (.register32 (regAddr .box b Reg.box_boxCmd) (some (BitVec.ofNat 32 cmd)))
      else s) s

/-- A box command that R267 does not allow: ignored and flagged. -/
def State.boxCmdBad (s : State) (b : Nat) : State := s.flagAccess .box b (regAddr .box b Reg.box_boxCmd) true

/-- BOX_CMD ENABLE of a box (R221, R267). -/
def State.enableBox (s : State) (b : Nat) (session : Option Nat) : State :=
  if (s.box b).state ≠ .disabled then s.boxCmdBad b
  else
    match s.holdBox b with
    | none => s.boxCmdBad b
    | some s =>
      let s := s.modBox b (fun x => { x with
        state := .active, session := session, drainOver := false, step := 0, lastSync := none })
      (s.changed .box b).spreadBoxCmd b 1

/-- BOX_ENABLE (R267). -/
def execBoxEnable (box session : Nat) (s : State) : Ans :=
  .next (s.when (decide (box < 64)) (s.enableBox box (some session)))

/-- Items of a box that this module runs, open still. -/
def State.ownOpen (s : State) (b : Nat) : List Item := (s.openItems b).filter (fun i => i.pos == s.pos)

/-- Items of a box that are running: open and started (R258, R267). -/
def State.runningItems (s : State) (b : Nat) : List Item := (s.ownOpen b).filter (fun i => i.state == .started)

/-- A box begins to drain (R268 steps 1 and 2): admission stops, and items not started fail. -/
def State.disableBox (s : State) (b : Nat) : State :=
  let s := (s.modBox b (fun x => { x with
    state := .draining, disabledAt := s.time.t, drainOver := false, step := 2 })).changed .box b
  let s := s.failItems (((s.ownOpen b).filter (fun i => i.state != .started)).map (·.id)) { reason := .boxDisabled }
  s.spreadBoxCmd b 2

/-- BOX_DISABLE (R267, R268). -/
def execBoxDisable (box : Nat) (s : State) : Ans :=
  if 64 ≤ box then .next s
  else if (s.box box).state ≠ .active then .next (s.boxCmdBad box)
  else .next (s.disableBox box)

/-- BOX_DRAIN_LIMIT in ns; values above 1 s act as 1 s (R270). -/
def State.drainLimit (s : State) (b : Nat) : Nat := 1000 * min (s.regN .box b Reg.box_boxDrainLimit) 1000000

/-- BOX_DRAIN_LIMIT (R268 step 4): running instances stop and their items fail with ABORTED; an item whose deadline has
passed fails with DEADLINE (R269). -/
def execBoxDrainLimit (box : Nat) (s : State) : Ans :=
  let x := s.box box
  if x.state ≠ .draining ∨ x.drainOver then .next s
  else
    let s : State := { s with time := { s.time with t := max s.time.t (x.disabledAt + s.drainLimit box) } }
    let s := s.modBox box (fun x => { x with drainOver := true, step := 4 })
    .next ((s.runningItems box).foldl (fun (s : State) i =>
      let late := !i.soft && (match i.deadline with | some d => decide (d ≤ s.time.t) | none => false)
      s.failItem i.id { reason := if late then .deadline else .aborted }) s)

/-- Completions held for a collection are posted without waiting for it (R268 step 5). -/
def State.postHeld (s : State) (b : Nat) : State :=
  ((s.items.filter (fun i => i.box == b && i.heldCollection)).map (·.id)).foldl (fun (s : State) id =>
    (s.modItem id (fun i => { i with heldCollection := false })).postItem id) s

/-- BOX_QUIESCE (R267): no item of the box is running, or the drain limit has passed. -/
def execBoxQuiesce (box : Nat) (s : State) : Ans :=
  let x := s.box box
  .next (s.when (x.state == .draining && ((s.runningItems box).isEmpty || x.drainOver))
    (let s := (s.modBox box (fun x => { x with state := .quiescing, step := 5 })).changed .box box
     s.postHeld box))

/-- Box-memory writes that wait on absent granules (R235), and entries that wait for ring space while the box's session
is open (R326). -/
def State.boxOutstanding (s : State) (b : Nat) : Bool :=
  let x := s.box b
  let touch := s.tier.granules.any (fun g => g.waits.any (fun w => match w with | .touch c _ => c == b | .write _ _ => false))
  let open' := x.session.any (fun n => s.host.sessions.any (fun k => k.num == n))
  touch || (open' && (!x.cqWait.isEmpty || !x.dlqWait.isEmpty || !x.cqSent.isEmpty || !x.dlqSent.isEmpty))

/-- A residency move or a codebook REPLACE of the box is in progress: it completes first (R269). -/
def State.boxMoving (s : State) (b : Nat) : Bool :=
  s.places.any (fun p => p.live && (p.residency == .outbound || p.residency == .inbound) && s.boxOfPlace p == b) ||
    s.cb.slots.any (fun c => c.st == .replacing && c.owner == b)

/-- Codebook slots of a box released under RELEASE, histograms with them (R205). -/
def State.releaseCodebooks (s : State) (b : Nat) : State :=
  (List.range 64).foldl (fun (s : State) n =>
    if (s.slot n).owner = b ∧ (s.slot n).st ≠ .empty then s.cbRelease n b else s) s

/-- Steps 6 to 8 of R268. Mirrors kept here of the box's groups of other modules go with those groups. -/
def State.releaseBox (s : State) (b : Nat) : State :=
  let gs := s.groupsOf b
  let ids := gs.flatMap (fun g => g.streams)
  let s := (gs.map (fun g => g.index)).foldl State.releaseGroup s
  let s : State := { s with mirrors := s.mirrors.filter (fun m => !ids.contains m.stream) }
  let s := s.dropLab (fun e => e.box == b)
  let s := s.releaseCodebooks b
  let s := (s.keyClear b).releaseHeld (.box b)
  let s := s.modBox b (fun x => { x with
    state := .disabled, session := none, regions := [], subs := [], cq := none, dlq := none, step := 0, drainOver := false })
  (s.changed .box b).event { pageRec .box b 0x0600 .notice with box := some b }

/-- BOX_RELEASE (R267, R268): with no box-memory write outstanding the box is RELEASING; every release follows once its
moves and replacements are complete. RESOURCE makes the releases. -/
def execBoxRelease (box : Nat) (s : State) : Ans :=
  let x := s.box box
  if x.state ≠ .quiescing ∧ x.state ≠ .releasing then .next s
  else if x.state = .quiescing ∧ s.boxOutstanding box then .next s
  else
    let s := s.when (decide (x.state = .quiescing))
      ((s.modBox box (fun x => { x with state := .releasing, step := 6 })).changed .box box)
    .next (s.when (!s.boxMoving box && s.resourceUp) (s.releaseBox box))

end Sys2Proof.Machine
end

