-- ==== Sys2Proof/Machine/Expander.lean ====
section
/-! DEFINITION. The expander and the encoder of a core (R206 to R212): decoding a block, the encode buffer, encoding and
read-merge. -/

namespace Sys2Proof.Machine

/-! ### Decoding (R206) -/

/-- Outcome of reading a stored block. -/
inductive BlkRes where
  | ok (bytes : List Byte) (mode : Nat) (symbols : Nat)
  /-- Waits for a REPLACING slot (R203), or for a granule of the tier (R234). -/
  | wait (slot : Nat)
  | absent (va : Nat)
  /-- A check of R206 fails; the envelope's SLOT and GEN are reported. -/
  | bad (check slot gen : Nat)
  | unmapped (va : Nat)
  deriving DecidableEq, Repr

/-- Index and envelope address of the block at `va` in a region (R194). -/
def Region.index (r : Region) (va : Nat) : Nat := (va - r.base) / blockSize
def Region.envVa (r : Region) (va : Nat) : Nat := r.env + 16 * r.index va

/-- The bytes of the frame that a mode reads (R196). -/
def Envelope.frameBytes (e : Envelope) : Nat :=
  match e.mode with
  | 1 => blockSize
  | 2 => (if e.alphabet = 2 then 2048 else 0) + cdiv e.codedBits 512 * 64
  | _ => 0

/-- Checks 0x01 to 0x05 (R206). -/
def Envelope.check (e : Envelope) (alphabet index : Nat) : Option Nat :=
  if !e.crcOk then some 0x01
  else if e.format ≠ 1 ∨ e.mode = 0 ∨ e.reserved ≠ 0 ∨ e.alphabet ≠ alphabet then some 0x02
  else if e.index ≠ index then some 0x03
  else if e.mode ≠ 2 then
    (if e.slot ≠ 0 ∨ e.gen ≠ 0 ∨ e.tag ≠ 0 ∨ e.codedBits ≠ 0 ∨ e.symbols ≠ 0 then some 0x04 else none)
  else if e.symbols = 0 ∨ blockSymbols alphabet < e.symbols ∨ e.codedBits = 0 ∨
      (if alphabet = 2 then 16384 else 32768) < e.codedBits then some 0x05
  else none

/-- Checks 0x06 and 0x07 (R206). -/
def Envelope.checkSlot (e : Envelope) (c : CbSlot) (box : Nat) : Option Nat :=
  if (c.st ≠ .ready ∧ c.st ≠ .replacing) ∨ c.owner ≠ box ∨ c.alphabet ≠ bookOf e.alphabet then some 0x06
  else if e.gen ≠ c.gen ∨ e.tag ≠ c.tag then some 0x07
  else none

/-- Read the stored block at `va` of a region: the checks in code order, then the bytes. `merge`: R212's rules for the
envelope come first. -/
def State.readBlock (s : State) (box : Nat) (r : Region) (va : Nat) (merge : Bool) : BlkRes :=
  let ev := r.envVa va
  if !s.mapped box ev 16 false then .unmapped ev
  else match s.absentIn box ev 16 with
    | some _ => .absent ev
    | none =>
      let raw := s.readBox box ev 16
      let e := Envelope.ofBytes raw
      let envBad := s.poisonedBox box ev 16
      if merge && envBad then .bad 0x0B e.slot e.gen
      else if merge && (raw.all (· == 0) || (e.crcOk && e.mode == 0)) then .ok (List.replicate blockSize 0) 3 0
      else match e.check r.alphabet (r.index va) with
        | some c => .bad c e.slot e.gen
        | none =>
          let c := s.slot e.slot
          if e.mode = 2 ∧ c.st = .replacing ∧ c.owner = box then .wait e.slot
          else match (if e.mode = 2 then e.checkSlot c box else none) with
            | some k => .bad k e.slot e.gen
            | none =>
              let n := e.frameBytes
              if n ≠ 0 ∧ ¬ s.mapped box va n false then .unmapped va
              else match (if n = 0 then none else s.absentIn box va n) with
                | some _ => .absent va
                | none =>
                  let frame := s.readBox box va n
                  let poisoned := envBad || (decide (n ≠ 0) && s.poisonedBox box va n)
                  match e.mode with
                  | 2 =>
                    match decodeCoded c.lengths e frame with
                    | .error k => .bad k e.slot e.gen
                    | .ok bs => if poisoned then .bad 0x0B e.slot e.gen else .ok bs 2 e.symbols
                  | 1 => if poisoned then .bad 0x0B e.slot e.gen else .ok frame 1 0
                  | _ => if poisoned then .bad 0x0B e.slot e.gen else .ok (List.replicate blockSize 0) 3 0

/-- Counters of a decoded block (R216). -/
def State.countBlock (s : State) (c mode symbols : Nat) : State :=
  match mode with
  | 1 => s.bump .exp c 1 1
  | 2 => (s.bump .exp c 0 1).bump .exp c 3 symbols
  | _ => s.bump .exp c 2 1

/-- Disposition of a failed check (R206). -/
def checkReason (check : Nat) : Reason :=
  if check = 0x07 then .codebookStale else if check = 0x0B then .poison else .envelope

/-- What a failed check records (R207): the event, EXP_ERR_LAST, the counters. -/
def State.noteBlockFail (s : State) (c box va slot gen check : Nat) : State :=
  let held := (s.slot slot).gen
  let tag := match (s.core c).run with
    | some i => (match s.item? i.item with | some it => some it.tag | none => none)
    | none => none
  let s := s.event { pageRec .exp c 0x0301 .error with
    box := some box, tag := tag, a := va, b := slot, c := gen, d := held * 256 + check }
  let s := s.setReg (regAddr .exp c Reg.exp_expErrLast) (BitVec.ofNat 32 (gen * 2 ^ 28 + slot * 2 ^ 22 + box * 2 ^ 16 + check))
  let s := s.setReg (regAddr .exp c Reg.exp_expErrVaLo) (BitVec.ofNat 32 va)
  let s := s.setReg (regAddr .exp c Reg.exp_expErrVaHi) (BitVec.ofNat 32 (bits va 47 32))
  if check = 0x07 then (s.bump .exp c 12 1).bump .codebook (coreDie c) 5 1
  else if check = 0x0B then s else s.bump .exp c 11 1

/-- A wait for a REPLACING slot counts once in START_WAITS (R203). -/
def State.noteCbWait (s : State) (c : Nat) : State :=
  if (s.core c).cbWait then s
  else (s.modCore c (fun k => { k with cbWait := true })).bump .codebook (coreDie c) 4 1

/-- The failure that a block's check gives the item (R207). -/
def blockFail (t : Option TensorDesc) (n va check : Nat) : Fail :=
  { reason := checkReason check, check := check, tensor := n, va := va
    coords := match t with | some t => t.coords (max va t.base) | none => [0, 0, 0, 0] }

/-! ### The encode buffer (R210) -/

def EncBlk.complete (b : EncBlk) : Bool := decide (b.written.length = blockSize)

/-- Bytes of one block placed in the buffer from offset `off`. -/
def EncBlk.put (b : EncBlk) (off : Nat) (bytes : List Byte) (bad : Bool) : EncBlk :=
  { b with data := b.data.setRun off bytes
           written := (List.range bytes.length).foldl (fun w i => setInsert w (off + i)) b.written
           poison := b.poison || bad }

/-! ### Encoding (R211) -/

/-- May the encoder code a block of the region under its slot now? -/
def CbSlot.usable (c : CbSlot) (box alphabet : Nat) : Bool :=
  decide (c.st = .ready ∧ c.owner = box ∧ c.alphabet = bookOf alphabet)

/-- Store a whole block (R211): frame granules first, the envelope last. -/
def State.storeBlock (s : State) (c box : Nat) (r : Region) (va : Nat) (bytes : List Byte) (bad : Bool) : State :=
  let e : Envelope := { crc := 0, index := r.index va, alphabet := r.alphabet, mode := 1 }
  let put := fun (s : State) (frame : List Byte) (e : Envelope) (badEnv : Bool) =>
    (s.storeBox box va frame (fun _ => bad)).storeBox box (r.envVa va) e.toBytes (fun _ => badEnv)
  let b := s.slot r.slot
  if bytes.all (· == 0) then (put s [] { e with mode := 3 } bad).bump .exp c 8 1
  else
    let noBook := decide (r.thresh ≠ 0) && !b.usable box r.alphabet
    let coded := if r.thresh = 0 ∨ noBook then none else encodeCoded b.lengths r.alphabet bytes
    match coded with
    | some (frame, n) =>
      if cdiv n 512 + (if r.alphabet = 2 then 32 else 0) ≤ r.thresh then
        (put s frame { e with mode := 2, tag := b.tag, codedBits := n, symbols := blockSymbols r.alphabet, gen := b.gen, slot := r.slot } false).bump
          .exp c 6 1
      else (put s bytes e false).bump .exp c 7 1
    | none =>
      ((put s bytes e false).bump .exp c 7 1).bump .exp c 10 (b2n noBook)

/-- Outcome of writing a block out. -/
inductive EncRes where
  | done (s : State)
  | wait (s : State)
  | fail (s : State) (f : Fail)

/-- Write out an open block: encode it whole, or merge the bytes not written from the stored block first (R212). -/
def State.writeOut (s : State) (c : Nat) (b : EncBlk) : EncRes :=
  let drop := fun (s : State) => s.modCore c (fun k => { k with enc := k.enc.erase b, cbWait := false })
  match s.region? b.box b.va blockSize with
  | none => .fail (drop s) { reason := .oob, va := b.va }
  | some r =>
    if r.thresh ≠ 0 ∧ (s.slot r.slot).st = .replacing ∧ (s.slot r.slot).owner = b.box then .wait (s.noteCbWait c)
    else match s.absentIn b.box b.va blockSize, s.absentIn b.box (r.envVa b.va) 16 with
      | some _, _ => .wait (s.touch b.box b.va)
      | _, some _ => .wait (s.touch b.box (r.envVa b.va))
      | none, none =>
        if b.complete then
          .done ((drop s).storeBlock c b.box r b.va (b.data.getRun 0 blockSize) b.poison)
        else
          match s.readBlock b.box r b.va true with
          | .wait _ => .wait (s.noteCbWait c)
          | .absent va => .wait (s.touch b.box va)
          | .unmapped va => .fail (drop s) { reason := .oob, va := va }
          | .bad k slot gen => .fail (drop (s.noteBlockFail c b.box b.va slot gen k)) 
              (blockFail ((s.core c).run.bind (fun i => s.tensorOf i b.tensor)) b.tensor b.va k)
          | .ok old _ _ =>
            let bytes := (List.range blockSize).map (fun i =>
              if b.written.contains i then b.data.get i else old.getD i 0)
            .done (((drop s).bump .exp c 9 1).storeBlock c b.box r b.va bytes b.poison)

/-- Write out the open blocks of a core, the first opened first. -/
def State.writeOutAll : Nat → State → Nat → EncRes
  | 0, s, _ => .done s
  | n + 1, s, c =>
    match (s.core c).enc with
    | [] => .done s
    | b :: _ =>
      match s.writeOut c b with
      | .done s => State.writeOutAll n s c
      | r => r

/-- Open the block at `va` of a core's encode buffer, writing out the oldest of 32 first. -/
def State.openBlk (s : State) (c box va tensor : Nat) : EncRes :=
  if (s.core c).enc.any (fun b => b.box == box && b.va == va) then .done s
  else
    let opened := fun (s : State) => s.modCore c (fun k => { k with enc := k.enc ++ [{ box := box, va := va, tensor := tensor }] })
    match (s.core c).enc with
    | b :: _ =>
      if (s.core c).enc.length < 32 then .done (opened s)
      else match s.writeOut c b with
        | .done s => .done (opened s)
        | r => r
    | [] => .done (opened s)

/-- Bytes written through a CODED descriptor, block by block; `fuel` bounds the blocks. -/
def State.encWrite : Nat → State → Nat → Nat → Nat → Nat → List Byte → (Nat → Bool) → EncRes
  | 0, s, _, _, _, _, _, _ => .done s
  | fuel + 1, s, c, box, va, tensor, bytes, bad =>
    if bytes.isEmpty then .done s else
    let base := va - va % blockSize
    let room := blockSize - va % blockSize
    match s.openBlk c box base tensor with
    | .done s =>
      let part := bytes.take room
      let isBad := (List.range part.length).any bad
      let s := s.modCore c (fun k => { k with enc := k.enc.map (fun b =>
        if b.box = box ∧ b.va = base then b.put (va % blockSize) part isBad else b) })
      State.encWrite fuel s c box (va + room) tensor (bytes.drop room) (fun i => bad (i + room))
    | r => r

/-! ### Commands -/

/-- Box of the instance on a core. -/
def State.runBox (s : State) (c : Nat) : Option Nat := (s.core c).run.map (fun i => i.box)

/-- The state that an encoder's outcome leaves: a failed merge fails the item (R212). -/
def EncRes.settle (r : EncRes) (c : Nat) : State :=
  match r with
  | .done s => s
  | .wait s => s
  | .fail s f => s.failRun c f

/-- ENCODE_BUFFER_WRITE (R210): a courier's bytes for tensor `tensor` at `va`. -/
def execEncodeBufferWrite (core tensor va : Nat) (data : List Byte) (s : State) : Ans :=
  match (s.core core).run with
  | none => .next s
  | some i =>
    match s.tensorOf i tensor with
    | none => .next s
    | some t =>
      .next (s.when (t.coded && t.writable && (s.region? i.box va data.length).isSome)
        ((State.encWrite (data.length / blockSize + 2) s core i.box va tensor data (fun _ => false)).settle core))

/-- ENCODE_BLOCK (R211): the open block at `va`, which is complete, is encoded and written. -/
def execEncodeBlock (core va : Nat) (s : State) : Ans :=
  match (s.core core).enc.find? (fun b => b.va == va) with
  | none => .next s
  | some b => .next (s.when b.complete ((s.writeOut core b).settle core))

/-- ENCODE_BUFFER_WRITEOUT (R210, R212): the block that opened first is written out. -/
def execEncodeBufferWriteout (core : Nat) (s : State) : Ans :=
  match (s.core core).enc with
  | [] => .next s
  | b :: _ => .next ((s.writeOut core b).settle core)

/-- Read the block at `va` for a core: an open block of the core's own buffer is written out first (R206). -/
def State.fetchBlock (s : State) (c box : Nat) (r : Region) (va : Nat) : State × BlkRes :=
  match (s.core c).enc.find? (fun b => b.box == box && b.va == va) with
  | none => (s, s.readBlock box r va false)
  | some b =>
    match s.writeOut c b with
    | .done s => (s, s.readBlock box r va false)
    | .wait s => (s, .wait r.slot)
    | .fail s f => (s, .bad f.check r.slot 0)

/-- EXPANDER_DECODE_BLOCK (R206, R207): the block at `va` of a CODED tensor into the core buffer at `dest`, or, where a
check fails, poison there and the item's failure. -/
def execExpanderDecodeBlock (core tensor va dest : Nat) (s : State) : Ans :=
  match (s.core core).run with
  | none => .next s
  | some i =>
    match s.tensorOf i tensor, s.region? i.box va blockSize with
    | some t, some r =>
      if ¬ t.coded ∨ (va - r.base) % blockSize ≠ 0 ∨ cbufBytes - s.windowBytes core < dest + blockSize then .next s
      else
        let put := fun (s : State) (bytes : List Byte) (bad : Bool) => s.modCore core (fun k =>
          let w := writeBytes k.cbuf k.cbufPoison dest bytes (bytes.map (fun _ => bad))
          { k with cbuf := w.1, cbufPoison := w.2, cbWait := false })
        let f := s.fetchBlock core i.box r va
        match f.2 with
        | .ok bytes mode n => .next ((put f.1 bytes false).countBlock core mode n)
        | .wait _ => .next (f.1.noteCbWait core)
        | .absent a => .next (f.1.touch i.box a)
        | .unmapped a => .next (f.1.failRun core { reason := .oob, tensor := tensor, va := a })
        | .bad k slot gen =>
          .next (((put f.1 (List.replicate blockSize 0) true).noteBlockFail core i.box va slot gen k).failRun core
            (blockFail (some t) tensor va k))
    | _, _ => .next s

end Sys2Proof.Machine
end

