-- ==== Sys2Proof/Machine/Vxe.lean ====
section
/-! DEFINITION. The vector engine's operations as functions on `Exec` (R56 to R58, R89 to R92, R129, R145, R174, R175,
R182 to R187): issue checks, then the whole operation, elements in row-major order. -/

namespace Sys2Proof.Machine

/-- A VXOP as issued: its tiles and the parameter word it consumed. -/
structure Vx where
  d : Tile
  a : Tile
  b : Tile
  parm : Nat
  deriving DecidableEq, Repr

/-- Result of issuing an operation: what it left, or why the item fails. -/
abbrev Res := Except Fail Exec

def failIf (c : Bool) (code : Nat) : Option Fail := if c then some (Fail.loadCheck code) else none

/-- Some bit of the parameter word outside `mask` is set (check 0x0403). -/
def parmBad (v : Vx) (mask : Nat) : Option Fail := failIf (v.parm &&& mask != v.parm) 0x0403

/-- Run `f` unless a check fails. -/
def guarded (c : Option Fail) (r : Exec) : Res :=
  match c with
  | some f => .error f
  | none => .ok r

/-- Elements of row `r` of B for an operation whose B is A's shape or one row (R56). -/
def bRow (x : Exec) (b : Tile) (r : Nat) : List Elem := x.readRow b (if b.rows = 1 then 0 else r)

/-- B has A's ROWS and COLS, or one row of A's COLS (R56). -/
def bShapeOk (a b : Tile) : Bool := decide (b.cols = a.cols ∧ (b.rows = a.rows ∨ b.rows = 1))

def sameShape (a d : Tile) : Bool := decide (d.rows = a.rows ∧ d.cols = a.cols)

/-- ELEMENTS, and TRANSCENDENTAL_ELEMENTS where the operation uses that unit (R72). -/
def Exec.countVx (x : Exec) (n : Nat) (trans : Bool) : Exec :=
  let x := x.bump .vxe 0 n
  if trans then x.bump .vxe 1 n else x

/-! ### Element-wise operations (0x01 to 0x09, 0x10 to 0x18) -/

/-- A binary operation with B: `f a b`, written to D. -/
def vxBinary (f : W32 → W32 → W32) (x : Exec) (v : Vx) : Res :=
  let c := issueChecks x [v.d, v.a, v.b]
    [parmBad v 0, failIf (!sameShape v.a v.d || !bShapeOk v.a v.b) 0x040A]
  let rows := (List.range v.a.rows).map (fun r =>
    List.zipWith (fun (p q : Elem) => (fv (f (toF32 v.a.f p.1) (toF32 v.b.f q.1)), p.2 || q.2))
      (x.readRow v.a r) (bRow x v.b r))
  let x' := (x.consume (x.readTile v.a)).consume (x.readTile v.b)
  guarded c ((x'.putRows v.d 0 rows).countVx (v.a.rows * v.a.cols) false)

/-- FMA: D = A × B + D, rounded once (R89). -/
def vxFma (x : Exec) (v : Vx) : Res :=
  let c := issueChecks x [v.d, v.a, v.b]
    [parmBad v 0, failIf (!sameShape v.a v.d || !bShapeOk v.a v.b) 0x040A]
  let rows := (List.range v.a.rows).map (fun r =>
    List.zipWith (fun (pq : Elem × Elem) (e : Elem) =>
        (fv (ffma (toF32 v.a.f pq.1.1) (toF32 v.b.f pq.2.1) (toF32 v.d.f e.1)), pq.1.2 || pq.2.2 || e.2))
      ((x.readRow v.a r).zip (bRow x v.b r)) (x.readRow v.d r))
  let x' := ((x.consume (x.readTile v.a)).consume (x.readTile v.b)).consume (x.readTile v.d)
  guarded c ((x'.putRows v.d 0 rows).countVx (v.a.rows * v.a.cols) false)

/-- SEL over one row: D's element replaced by A's where B is not 0 (a NaN in B selects A, R92). -/
def selRow (d : Tile) : Exec → List (FV × Bool × Bool) → List Elem → Exec × List Elem
  | x, [], _ => (x, [])
  | x, _, [] => (x, [])
  | x, (v, take, bad) :: l, e :: es =>
    if take then
      let c := x.convert d.f d.r d.sat v
      let rest := selRow d c.1 l es
      (rest.1, (c.2.pat, bad) :: rest.2)
    else
      let rest := selRow d x l es
      (rest.1, (e.1, e.2 || bad) :: rest.2)

def vxSel (x : Exec) (v : Vx) : Res :=
  let c := issueChecks x [v.d, v.a, v.b]
    [parmBad v 0, failIf (!sameShape v.a v.d || !bShapeOk v.a v.b) 0x040A]
  let x' := (x.consume (x.readTile v.a)).consume (x.readTile v.b)
  let y := (List.range v.a.rows).foldl (fun (y : Exec) r =>
    let es := List.zipWith (fun (p q : Elem) =>
        let b := v.b.f.decode q.1
        (fv (toF32 v.a.f p.1), !b.isZero, (p.2 && !b.isZero) || q.2)) (y.readRow v.a r) (bRow y v.b r)
    let s := selRow v.d y es (y.readRow v.d r)
    s.1.writeRow v.d r s.2) x'
  guarded c (y.countVx (v.a.rows * v.a.cols) false)

/-- A unary operation; B is ignored (R56). -/
def vxUnary (f : W32 → W32) (trans : Bool) (x : Exec) (v : Vx) : Res :=
  let c := issueChecks x [v.d, v.a] [parmBad v 0, failIf (!sameShape v.a v.d) 0x040A]
  let rows := (x.readTile v.a).map (fun row => row.map (fun (e : Elem) => (fv (f (toF32 v.a.f e.1)), e.2)))
  guarded c (((x.consume (x.readTile v.a)).putRows v.d 0 rows).countVx (v.a.rows * v.a.cols) trans)

def boolF32 (b : Bool) : W32 := if b then f32one else f32zero

/-! ### Row reductions (0x20 to 0x23) -/

/-- A row reduction: column 0 of D's row takes `f` of A's row. -/
def vxReduce (f : List W32 → W32) (x : Exec) (v : Vx) : Res :=
  let c := issueChecks x [v.d, v.a] [parmBad v 0, failIf (v.d.rows != v.a.rows) 0x040A]
  let rows := (x.readTile v.a).map (fun row =>
    [(fv (f (row.map (fun (e : Elem) => toF32 v.a.f e.1))), row.any (·.2))])
  guarded c (((x.consume (x.readTile v.a)).putRows v.d 0 rows).countVx (v.a.rows * v.a.cols) false)

/-- RSUM: ascending columns from +0, each add rounded once (R57). -/
def rowSum (l : List W32) : W32 := l.foldl fadd f32zero
/-- RSUMSQ: `acc ← FMA(a, a, acc)` (R57). -/
def rowSumSq (l : List W32) : W32 := l.foldl (fun acc a => ffma a a acc) f32zero
/-- RMAX: maximum under R92; a row of only NaNs gives NaN. -/
def rowMax : List W32 → W32
  | [] => f32nan
  | a :: l => l.foldl fmax (if (fv a).isNan then f32nan else a)
/-- RARGMAX: lowest column of the maximum, NaN ignored; 0.0 for a row of only NaNs (R92). -/
def rowArgmax (l : List W32) : W32 :=
  let step := fun (acc : Option (W32 × Nat)) (p : W32 × Nat) =>
    if (fv p.1).isNan then acc
    else match acc with
      | none => some p
      | some q => if flt q.1 p.1 then some p else acc
  match l.zipIdx.foldl step none with
  | none => f32zero
  | some q => f32ofNat q.2

/-! ### Normalisations (R91) -/

/-- RMSNORM of one row: A × RSQRT(RSUMSQ(A) × r + ε), times Bⱼ under GAMMA. -/
def rmsRow (eps : W32) (gamma : Option (List W32)) (l : List W32) : List W32 :=
  let s := frsqrt (fadd (fmul (rowSumSq l) (f32recipNat l.length)) eps)
  let y := l.map (fun a => fmul a s)
  match gamma with
  | none => y
  | some g => List.zipWith fmul y g

/-- LAYERNORM of one row. -/
def layerRow (eps : W32) (gamma : Option (List W32)) (l : List W32) : List W32 :=
  let r := f32recipNat l.length
  let mu := fmul (rowSum l) r
  let diff := l.map (fun a => fsub a mu)
  let var := fmul (rowSumSq diff) r
  let s := frsqrt (fadd var eps)
  let y := diff.map (fun a => fmul a s)
  match gamma with
  | none => y
  | some g => List.zipWith fmul y g

def vxNorm (f : W32 → Option (List W32) → List W32 → List W32) (x : Exec) (v : Vx) : Res :=
  let gamma := bit v.parm 32
  let eps := BitVec.ofNat 32 (bits v.parm 31 0)
  let c := issueChecks x (if gamma then [v.d, v.a, v.b] else [v.d, v.a])
    [ parmBad v 0x1_FFFF_FFFF,
      failIf (!sameShape v.a v.d || (gamma && !(v.b.rows == 1 && v.b.cols == v.a.cols))) 0x040A ]
  let g := if gamma then x.readRow v.b 0 else []
  let gb := g.any (·.2)
  let rows := (x.readTile v.a).map (fun row =>
    let bad := row.any (·.2) || gb
    (f eps (if gamma then some (g.map (fun e => toF32 v.b.f e.1)) else none)
      (row.map (fun (e : Elem) => toF32 v.a.f e.1))).map (fun y => (fv y, bad)))
  let x' := (x.consume (x.readTile v.a)).consume [g]
  guarded c ((x'.putRows v.d 0 rows).countVx (v.a.rows * v.a.cols) false)

/-! ### SCAN and STATE_RMS (R129, R145) -/

/-- Tile row for an operand that has D's rows or one row. -/
def scanShapeOk (d t : Tile) : Bool := decide (t.cols = d.cols ∧ (t.rows = d.rows ∨ t.rows = 1))

def vxScan (x : Exec) (v : Vx) : Res :=
  let c := issueChecks x [v.d, v.a, v.b]
    [parmBad v 1, failIf (!scanShapeOk v.d v.a || !scanShapeOk v.d v.b) 0x040A]
  let drop := bit v.parm 0 && x.reset
  let rows := (List.range v.d.rows).map (fun r =>
    List.zipWith (fun (ab : Elem × Elem) (e : Elem) =>
        let b := toF32 v.b.f ab.2.1
        if drop then (fv b, ab.2.2)
        else (fmaExact (toF32 v.a.f ab.1.1) (toF32 v.d.f e.1) b, ab.1.2 || ab.2.2 || e.2))
      ((bRow x v.a r).zip (bRow x v.b r)) (x.readRow v.d r))
  let x' := if drop then x.consume (x.readTile v.b)
    else ((x.consume (x.readTile v.a)).consume (x.readTile v.b)).consume (x.readTile v.d)
  guarded c ((x'.putRows v.d 0 rows).countVx (v.d.rows * v.d.cols) false)

def vxStateRms (x : Exec) (v : Vx) : Res :=
  let c := issueChecks x [v.a] [parmBad v 0]
  let all := (x.readTile v.a).flatten
  let sum := all.foldl (fun acc (e : Elem) => ffma (toF32 v.a.f e.1) (toF32 v.a.f e.1) acc) x.driftSum
  let x' := x.consume [all]
  guarded c ({ x' with driftSum := sum, driftCount := x.driftCount + v.a.rows * v.a.cols }.countVx
    (v.a.rows * v.a.cols) false)

/-! ### TOPK (R58) -/

/-- Does `(value, index, column)` `p` rank before `q` (R30, R58)? -/
def topkBefore (lowBest : Bool) (p q : W32 × Nat × Nat) : Bool :=
  let pn := (fv p.1).isNan
  let qn := (fv q.1).isNan
  if pn != qn then qn
  else
    let better := if lowBest then flt p.1 q.1 else flt q.1 p.1
    let worse := if lowBest then flt q.1 p.1 else flt p.1 q.1
    if better then true else if worse then false
    else decide (p.2.1 < q.2.1 ∨ (p.2.1 = q.2.1 ∧ p.2.2 < q.2.2))

/-- Insertion into a ranked list. -/
def rankInsert {α : Type} (before : α → α → Bool) (a : α) : List α → List α
  | [] => [a]
  | b :: l => if before a b then a :: b :: l else b :: rankInsert before a l

def rankSort {α : Type} (before : α → α → Bool) (l : List α) : List α :=
  l.foldl (fun acc a => rankInsert before a acc) []

/-- The integer an index element converts to, where it is one from 0 to 16,777,215. -/
def indexOf (v : FV) : Option Nat :=
  match v with
  | .fin n m e =>
    let i := roundUnits .zero false m e 0 0
    if m = 0 then some 0
    else if ¬ n ∧ (0 ≤ e ∨ m % 2 ^ (-e).toNat = 0) ∧ i ≤ 16777215 then some i else none
  | _ => none

def vxTopk (x : Exec) (v : Vx) : Res :=
  let k := bits v.parm 5 0 + 1
  let low := bit v.parm 8
  let paired := bit v.parm 9
  let base := bits v.parm 31 16
  let c := issueChecks x (if paired then [v.d, v.a, v.b] else [v.d, v.a])
    [ parmBad v 0xFFFF_033F,
      failIf (v.d.fmt != 7 || v.d.rows != v.a.rows || decide (v.d.cols < 2 * k) || decide (v.a.cols < k) ||
        (paired && !sameShape v.a v.b)) 0x0407 ]
  let idx := (List.range v.a.rows).map (fun r =>
    if paired then (x.readRow v.b r).map (fun e => indexOf (v.b.f.decode e.1))
    else (List.range v.a.cols).map (fun j => some (base + j)))
  let badIdx := failIf (idx.any (fun row => row.any Option.isNone)) 0x0407
  let out (r : Nat) : List Elem :=
    let row := x.readRow v.a r
    let brow := if paired then x.readRow v.b r else []
    let bad := row.any (·.2) || brow.any (·.2)
    let vals := row.map (fun e => if v.a.fmt = 7 then BitVec.ofNat 32 e.1 else toF32 v.a.f e.1)
    let trip := vals.zipIdx.map (fun p => (p.1, ((idx.getD r []).getD p.2 none).getD 0, p.2))
    let best := (rankSort (topkBefore low) trip).take k
    best.map (fun t => (t.1.toNat, bad)) ++ best.map (fun t => ((f32ofNat t.2.1).toNat, bad))
  let x' := x.consume (x.readTile v.a)
  let x' := if paired then x'.consume (x.readTile v.b) else x'
  guarded (firstFail [c, badIdx])
    ((x'.writeRows v.d 0 ((List.range v.a.rows).map out)).countVx (v.a.rows * v.a.cols) false)

/-! ### Online softmax (R174, R175) -/

/-- The statistics tile (DESIGN CHOICE, log 21: a STATS offset that is not a multiple of 16 fails as a misaligned row,
check 0x0402): one 16-byte row per row of A, holding m, l and α as FP32 and 4 bytes of 0. -/
def statsTile (v : Vx) : Tile :=
  { rows := v.a.rows, cols := 4, fmt := 7, space := 0, stride := 16, tensor := 0xFFFF, rnd := 0, sat := false,
    base := bits v.parm 22 0 }

def fpNegInf : W32 := 0xFF80_0000

/-- One row of SOFTMAX_STEP: scores, then (p, m, l, α). -/
def softmaxRow (m0 l0 : W32) (s : List W32) : List W32 × W32 × W32 × W32 :=
  let m := s.foldl (fun acc v => if (fv v).isNan then acc else fmax acc v) m0
  let dead := m = fpNegInf
  let alpha := if dead then f32one else fexp (fsub m0 m)
  let alpha := if !dead && m0 == fpNegInf then f32zero else alpha
  let p := s.map (fun v =>
    if (fv v).isNan then f32nan else if dead then f32zero else fexp (fsub v m))
  (p, m, ffma alpha l0 (rowSum p), alpha)

def vxSoftmaxStep (x : Exec) (v : Vx) : Res :=
  let first := bit v.parm 32
  let noBias := bit v.parm 33
  let st := statsTile v
  let tiles := if noBias then [v.d, v.a] else [v.d, v.a, v.b]
  let c := firstFail [
    issueChecks x tiles
      [ parmBad v 0x3_007F_FFFF,
        failIf (!sameShape v.a v.d || (!noBias && !bShapeOk v.a v.b)) 0x040A ],
    failIf (st.base % 16 != 0) 0x0402, checkRange x st]
  let row := fun (acc : Exec × List (List Elem)) r =>
    let y := acc.1
    let a := y.readRow v.a r
    let b := if noBias then [] else bRow y v.b r
    let stats := y.readRow st r
    let m0 := if first then fpNegInf else BitVec.ofNat 32 (stats.getD 0 (0, false)).1
    let l0 := if first then f32zero else BitVec.ofNat 32 (stats.getD 1 (0, false)).1
    let bad := a.any (·.2) || b.any (·.2) || (!first && stats.any (·.2))
    let s := a.zipIdx.map (fun e =>
      let sv := toF32 v.a.f e.1.1
      if noBias then sv else fadd sv (toF32 v.b.f (b.getD e.2 (0, false)).1))
    let q := softmaxRow m0 l0 s
    let z := y.putRows v.d r [q.1.map (fun p => (fv p, bad))]
    let z := z.writeRow st r
      [(q.2.1.toNat, bad), (q.2.2.1.toNat, bad), (q.2.2.2.toNat, bad), (0, bad)]
    ({ z with poisoned := z.poisoned || bad }, acc.2)
  guarded c (((List.range v.a.rows).foldl row (x, [])).1.countVx (v.a.rows * v.a.cols) true)

def vxSoftmaxFinal (x : Exec) (v : Vx) : Res :=
  let norm := bit v.parm 32
  let st := statsTile v
  let c := firstFail [
    issueChecks x [v.d, v.a] [parmBad v 0x1_007F_FFFF, failIf (!sameShape v.a v.d) 0x040A],
    failIf (st.base % 16 != 0) 0x0402, checkRange x st]
  let rows := (List.range v.a.rows).map (fun r =>
    let a := x.readRow v.a r
    let d := x.readRow v.d r
    let stats := x.readRow st r
    let l := BitVec.ofNat 32 (stats.getD 1 (0, false)).1
    let al := BitVec.ofNat 32 (stats.getD 2 (0, false)).1
    let sb := stats.any (·.2)
    List.zipWith (fun (p q : Elem) =>
      let av := toF32 v.a.f p.1
      if norm then
        ((if l = f32zero then fv f32zero else fv (fmul av (frcp l))), p.2 || sb)
      else (fv (ffma al (toF32 v.d.f q.1) av), p.2 || q.2 || sb)) a d)
  let x' := { x with poisoned := x.poisoned || rows.any (fun row => row.any (·.2)) }
  guarded c ((x'.putRows v.d 0 rows).countVx (v.a.rows * v.a.cols) false)

/-! ### Window operations (R182 to R187) -/

/-- The window parameter word (R182). -/
structure Win where
  accum : Bool
  sub : Nat
  oh : Nat
  oy0 : Nat
  offX : Int
  offY : Int
  iw : Nat
  ih : Nat
  dx : Nat
  dy : Nat
  sx : Nat
  sy : Nat
  kw : Nat
  kh : Nat
  deriving DecidableEq, Repr

def Win.ofNat (p : Nat) : Win :=
  { accum := bit p 58, sub := bits p 57 56, oh := bits p 55 50 + 1, oy0 := bits p 49 44,
    offX := sInt 8 (bits p 43 36), offY := sInt 8 (bits p 35 28), iw := bits p 27 22 + 1, ih := bits p 21 16 + 1,
    dx := bits p 15 13 + 1, dy := bits p 12 10 + 1, sx := bits p 9 8 + 1, sy := bits p 7 6 + 1,
    kw := bits p 5 3 + 1, kh := bits p 2 0 + 1 }

/-- The input map as a tile of its positions (R183). -/
def mapTile (a : Tile) (w : Win) : Tile := { a with rows := w.ih * w.iw }

/-- Byte extents of two core-buffer tiles overlap. -/
def overlaps (s t : Tile) : Bool :=
  (s.space == t.space) && (List.range s.rows).any (fun r => (List.range t.rows).any (fun q =>
    decide (s.rowStart r < t.rowStart q + t.rowBytes ∧ t.rowStart q < s.rowStart r + s.rowBytes)))

/-- In-range taps of output position `(oy, ox)` in ascending t, with their input position (R184). -/
def winTaps (w : Win) (oy ox : Nat) : List (Nat × Nat) :=
  (List.range (w.kh * w.kw)).filterMap (fun t =>
    let y : Int := (oy * w.sy + (t / w.kw) * w.dy : Nat) + w.offY
    let xx : Int := (ox * w.sx + (t % w.kw) * w.dx : Nat) + w.offX
    if 0 ≤ y ∧ y < w.ih ∧ 0 ≤ xx ∧ xx < w.iw then some (t, y.toNat * w.iw + xx.toNat) else none)

/-- Range check of the footprint and the tiles, and the checks of R187. -/
def winChecks (x : Exec) (v : Vx) (w : Win) (dw : Bool) : Option Fail :=
  let g := 2 ^ w.sub
  let m := mapTile v.a w
  let ts := if dw then [v.d, v.a, v.b] else [v.d, v.a]
  let ck := if dw then [v.d, m, v.b] else [v.d, m]
  firstFail (ts.map (checkSpaceCore x) ++ ts.map checkCodes ++
    [ parmBad v 0x07FF_FFFF_FFFF_FFFF,
      failIf (w.kh == 8 || w.kw == 8 || (!dw && w.sub == 3) || (!dw && w.accum && w.sub == 2) ||
        decide (w.oy0 + w.oh - 1 > 63)) 0x0701,
      failIf (v.d.rows % w.oh != 0 || decide (v.d.rows > 256) || v.d.cols != v.a.cols ||
        (dw && (v.a.cols % g != 0 || v.b.rows != w.kh * w.kw * g || v.b.cols != v.a.cols))) 0x0702,
      failIf (overlaps v.d m || (dw && overlaps v.d v.b)) 0x0703 ] ++
    ck.map checkAlign ++ ck.map (checkRange x))

/-- One output element of DWCONV (R185): the FMA chain over taps and the channels of the group. -/
def dwElem (g : Nat) (taps : List (Nat × Nat)) (bAt : Nat → Nat → W32) (aAt : Nat → Nat → W32) (o : Nat) (acc : W32) :
    W32 :=
  let q := g * (o / g)
  taps.foldl (fun acc t => (List.range g).foldl (fun acc k =>
    ffma (bAt (t.1 * g + k) o) (aAt t.2 (q + ((o - q + k) % g))) acc) acc) acc

/-- One output element of POOL (R186) from the in-range elements. -/
def poolElem (mode : Nat) (accum : Option W32) (es : List W32) : W32 :=
  match mode with
  | 0 =>
    let l := (match accum with | some a => [a] | none => []) ++ es
    if l.isEmpty then fpNegInf else rowMax l
  | 1 => es.foldl fadd (accum.getD f32zero)
  | _ => if es.isEmpty then f32zero else fmul (rowSum es) (f32recipNat es.length)

def vxWindow (dw : Bool) (x : Exec) (v : Vx) : Res :=
  let w := Win.ofNat v.parm
  let ow := v.d.rows / w.oh
  let m := mapTile v.a w
  let src := x.readTile m
  let wts := if dw then x.readTile v.b else []
  let aAt := fun p c => toF32 v.a.f ((src.getD p []).getD c (0, false)).1
  let bAt := fun r c => toF32 v.b.f ((wts.getD r []).getD c (0, false)).1
  let wbad := wts.any (fun row => row.any (·.2))
  let row := fun (y : Exec) r =>
    let taps := winTaps w (w.oy0 + r / ow) (r % ow)
    let old := if w.accum then y.readRow v.d r else []
    let bad := wbad || taps.any (fun t => (src.getD t.2 []).any (·.2)) || old.any (·.2)
    let vals := (List.range v.d.cols).map (fun o =>
      let acc : Option W32 := if w.accum then some (toF32 v.d.f (old.getD o (0, false)).1) else none
      if dw then dwElem (2 ^ w.sub) taps bAt aAt o (acc.getD f32zero)
      else poolElem w.sub acc (taps.map (fun t => aAt t.2 o)))
    let z := y.putRows v.d r [vals.map (fun q => (fv q, bad))]
    { z with poisoned := z.poisoned || bad }
  let c := winChecks x v w dw
  guarded c (((List.range v.d.rows).foldl row x).countVx (v.d.rows * v.d.cols) false)

end Sys2Proof.Machine
end

