-- ==== Sys2Proof/Machine/Courier.lean ====
section
/-! DEFINITION. Box-memory tiles (R63, R110, R194) and the courier's copy (R463). -/

namespace Sys2Proof.Machine

/-- Step 5 of R63 for a tile in box memory: every row lies within its tensor. -/
def boxRange (t : Tile) (td : TensorDesc) : Option Fail :=
  match (List.range t.rows).find? (fun r => !td.rowIn (t.rowStart r) t.rowBytes) with
  | none => none
  | some r =>
    let start := t.rowStart r
    let col := ((List.range t.cols).find? (fun c => !td.rowIn start (cdiv ((c + 1) * t.f.width) 8))).getD 0
    some { reason := .oob, tensor := t.tensor
           coords := (td.coords (max td.base start)).zipIdx.map (fun p => if p.2 = 0 then p.1 + col else p.1) }

/-- Range check of a tile wherever it lies (R63 step 5). -/
def State.rangeOf (s : State) (i : Inst) (x : Exec) (t : Tile) : Option Fail :=
  if t.space = 1 then
    match s.tensorOf i t.tensor with
    | some td => boxRange t td
    | none => some (Fail.loadCheck 0x0409)
  else checkRange x t

/-- A transfer's outcome: done, waiting (a granule, a codebook, tokens), or failed. -/
inductive Xfer (α : Type) where
  | done (s : State) (a : α)
  | wait (s : State)
  | fail (s : State) (a : α) (f : Fail)

/-- Block addresses that a tile's rows touch, each once, in order (R206). -/
def tileBlocks (r : Region) (t : Tile) : List Nat :=
  ((List.range t.rows).flatMap (fun k =>
    let lo := (t.rowStart k - r.base) / blockSize
    let hi := (t.rowStart k + t.rowBytes - 1 - r.base) / blockSize
    (List.range (hi + 1 - lo)).map (fun j => r.base + (lo + j) * blockSize))).dedup

/-- The blocks of a tile fetched, in order. -/
def State.fetchBlocks (s : State) (c box : Nat) (r : Region) : List Nat → State × List (Nat × BlkRes)
  | [] => (s, [])
  | va :: l =>
    let f := s.fetchBlock c box r va
    let rest := State.fetchBlocks f.1 c box r l
    (rest.1, (va, f.2) :: rest.2)

/-- Byte and poison of a box address from fetched blocks. -/
def blockByte (bs : List (Nat × BlkRes)) (va : Nat) : Byte × Bool :=
  match bs.find? (fun p => decide (p.1 ≤ va ∧ va < p.1 + blockSize)) with
  | some (b, .ok bytes _ _) => (bytes.getD (va - b) 0, false)
  | _ => (0, true)

/-- A row's elements from its bytes, each with its poison mark. -/
def rowElems (t : Tile) (bytes : List (Byte × Bool)) : List Elem :=
  let raw := bytes.map (·.1)
  (List.range t.cols).map (fun c =>
    (elemOfBytes t.f raw c,
      ((bytes.drop (c * t.f.width / 8)).take (cdiv t.f.width 8)).any (·.2)))

/-- Read a tile of box memory for a core. A coded tensor's blocks pass through the expander: the first failing check
decides, and the bytes of failing blocks are poisoned (R206, R207). -/
def State.readBoxTile (s : State) (c : Nat) (i : Inst) (t : Tile) : Xfer (List (List Elem)) :=
  match s.tensorOf i t.tensor with
  | none => .fail s [] (Fail.loadCheck 0x0409)
  | some td =>
    match (List.range t.rows).findSome? (fun r => s.firstUnmapped i.box (t.rowStart r) t.rowBytes false) with
    | some va => .fail s [] { reason := .oob, tensor := t.tensor, va := va }
    | none =>
      if td.coded then
        match s.region? i.box td.base td.extent with
        | none => .fail s [] { reason := .oob, tensor := t.tensor, va := td.base }
        | some r =>
          let f := s.fetchBlocks c i.box r (tileBlocks r t)
          let stop := f.2.findSome? (fun p => match p.2 with
            | .wait _ => some (f.1.noteCbWait c)
            | .absent a => some (f.1.touch i.box a)
            | _ => none)
          match stop with
          | some s => .wait s
          | none =>
            let s := f.2.foldl (fun s p => match p.2 with | .ok _ m n => s.countBlock c m n | _ => s) f.1
            let s := s.modCore c (fun k => { k with cbWait := false })
            let rows := (List.range t.rows).map (fun r =>
              rowElems t ((List.range t.rowBytes).map (fun b => blockByte f.2 (t.rowStart r + b))))
            match f.2.findSome? (fun p => match p.2 with
              | .bad k slot gen => some (s.noteBlockFail c i.box p.1 slot gen k, blockFail (some td) t.tensor p.1 k)
              | .unmapped a => some (s, { reason := Reason.oob, tensor := t.tensor, va := a })
              | _ => none) with
            | some (s, fl) => .fail s rows fl
            | none => .done s rows
      else
        match (List.range t.rows).findSome? (fun r => (s.absentIn i.box (t.rowStart r) t.rowBytes).map (fun g => (r, g))) with
        | some (r, _) =>
          .wait ((List.range ((t.rowStart r + t.rowBytes - 1) / 65536 - t.rowStart r / 65536 + 1)).foldl
            (fun s j => s.touch i.box (max (t.rowStart r) ((t.rowStart r / 65536 + j) * 65536))) s)
        | none =>
          .done (s.notePoison c ((List.range t.rows).findSome? (fun r => s.firstPoison i.box (t.rowStart r) t.rowBytes)))
            ((List.range t.rows).map (fun r =>
            let start := t.rowStart r
            rowElems t ((List.range t.rowBytes).map (fun b => (s.byteOf i.box (start + b), s.poisonedBox i.box (start + b) 1)))))

/-- The page of `[va, va + n)` whose reduction a courier's write cannot use (R228, check 0x0901). -/
def State.reduceBad (s : State) (b va n : Nat) (fmt : Nat) : Bool :=
  (List.range ((va + n + pageSize - 1) / pageSize - va / pageSize)).any (fun j =>
    match s.pte? b (va + j * pageSize) with
    | some e => pteReduce e != 0 && (fmt != 7 || decide (4 ≤ pteReduce e))
    | none => false)

/-- Write rows through a coded tensor, row by row (R210). -/
def State.encRows : Nat → State → Nat → Inst → Tile → List (List Elem) → Xfer Unit
  | _, s, _, _, _, [] => .done s ()
  | r, s, c, i, t, es :: l =>
    let bytes := bytesOfElems t.f (es.map (·.1))
    let bad := badBytes t.f es
    match State.encWrite (t.rowBytes / blockSize + 2) s c i.box (t.rowStart r) t.tensor bytes (fun j => bad.getD j false) with
    | .done s => State.encRows (r + 1) s c i t l
    | .wait s => .wait s
    | .fail s f => .fail s () f

/-- Write a tile of box memory for a core: mapped and writable, no reduction it cannot use, then row by row. -/
def State.writeBoxTile (s : State) (c : Nat) (i : Inst) (t : Tile) (rows : List (List Elem)) : Xfer Unit :=
  match s.tensorOf i t.tensor with
  | none => .fail s () (Fail.loadCheck 0x0409)
  | some td =>
    match (List.range t.rows).findSome? (fun r => s.firstUnmapped i.box (t.rowStart r) t.rowBytes true) with
    | some va => .fail s () { reason := .oob, tensor := t.tensor, va := va }
    | none =>
      if (List.range t.rows).any (fun r => s.reduceBad i.box (t.rowStart r) t.rowBytes t.fmt) then
        .fail s () { Fail.loadCheck 0x0901 with tensor := t.tensor }
      else if td.coded then State.encRows 0 s c i t rows
      else
        match (List.range t.rows).findSome? (fun r => (s.absentIn i.box (t.rowStart r) t.rowBytes).map (fun g => (r, g))) with
        | some (r, _) =>
          .wait ((List.range ((t.rowStart r + t.rowBytes - 1) / 65536 - t.rowStart r / 65536 + 1)).foldl
            (fun s j => s.touch i.box (max (t.rowStart r) ((t.rowStart r / 65536 + j) * 65536))) s)
        | none =>
          .done (rows.zipIdx.foldl (fun (s : State) p =>
            let bad := badBytes t.f p.1
            s.storeBox i.box (t.rowStart p.2) (bytesOfElems t.f (p.1.map (·.1))) (fun j => bad.getD j false)) s) ()

/-- Rows of a source tile as a destination's patterns: copied where the formats agree, else converted under the
destination's FMT, RND and SAT (R463). -/
def Exec.convertRows (x : Exec) (src dst : Tile) : List (List Elem) → Exec × List (List Elem)
  | [] => (x, [])
  | row :: l =>
    let c := x.convertRow dst.f dst.r dst.sat (row.map (fun e => (src.f.decode e.1, e.2)))
    let rest := c.1.convertRows src dst l
    (rest.1, c.2 :: rest.2)

/-- Bytes of box memory that a transfer between two tiles requests (R229). -/
def boxBytes (a b : Tile) : Nat :=
  (if a.space = 1 then a.rows * a.rowBytes else 0) + (if b.space = 1 then b.rows * b.rowBytes else 0)

/-- Admission by the regulator of the core's die (R229): none where the request waits. -/
def State.regulate (s : State) (c box n : Nat) : Except State State :=
  let d := coreDie c
  if n = 0 then .ok s
  else if s.regOpen d box then .ok (s.regTake d box n)
  else .error (s.regWait d box n)

/-- A transfer that waits after its admission does not pay again. -/
def State.regPaid (s : State) (c box n : Nat) : State :=
  let d := coreDie c
  if n = 0 ∨ s.regRate d box = 0 then s else s.modDie d (fun k => { k with admitted := box :: k.admitted })

/-- Issue checks of a CRR (R63, R463). -/
def State.crrChecks (s : State) (i : Inst) (x : Exec) (d a : Tile) : Option Fail :=
  firstFail ([checkSpaceAny x d, checkSpaceAny x a, checkTensor x d, checkTensor x a, checkCodes d, checkCodes a,
    if d.rows ≠ a.rows ∨ d.cols ≠ a.cols then some (Fail.loadCheck 0x040C) else none,
    checkAlign d, checkAlign a, s.rangeOf i x d, s.rangeOf i x a,
    if d.space = 1 ∧ ((s.tensorOf i d.tensor).elim false (fun t => t.writable)) = false then
      some { Fail.loadCheck 0x0404 with tensor := d.tensor } else none])

/-- The copy of a CRR that has reached its courier's head (R463). -/
def State.runCrr (s : State) (c : Nat) (i : Inst) (d a : Tile) : Xfer Unit :=
  match s.regulate c i.box (boxBytes d a) with
  | .error s => .wait s
  | .ok s1 =>
    let src := if a.space = 1 then s1.readBoxTile c i a else .done s1 ((s1.execOf c).readTile a)
    let move := fun (s2 : State) (rows : List (List Elem)) =>
      let x := (s2.execOf c).consume rows
      let r := if a.fmt = d.fmt then (x, rows) else x.convertRows a d rows
      if d.space = 1 then
        match (s2.putExec c r.1).writeBoxTile c i d r.2 with
        | .done s3 _ => Xfer.done s3 ()
        | .wait s3 =>
          .wait ((s3.modEntry i.item i.entry (fun e => { e with gen := x.gen })).regPaid c i.box (boxBytes d a))
        | .fail s3 _ f => .fail s3 () f
      else Xfer.done (s2.putExec c (r.1.writeRows d 0 r.2)) ()
    match src with
    | .wait s => .wait (s.regPaid c i.box (boxBytes d a))
    | .done s2 rows => move s2 rows
    | .fail s2 rows f =>
      match move s2 rows with
      | .done s3 _ => .fail s3 () f
      | .wait s3 => .fail s3 () f
      | .fail s3 _ _ => .fail s3 () f

end Sys2Proof.Machine
end

