-- ==== Sys2Proof/Machine/Units.lean ====
section
/-! DEFINITION. The units of a core as their queues run: weight loads and broadcasts (R41 to R49), drains (R52) and
couriers (R62, R463). -/

namespace Sys2Proof.Machine

/-! ### The matrix engine -/

/-- Take the first operation of a queue that satisfies `p`. -/
def takeFirst {α : Type} (p : α → Bool) : List α → Option (α × List α)
  | [] => none
  | a :: l => if p a then some (a, l) else (takeFirst p l).map (fun r => (r.1, a :: r.2))

/-- Physical pigeonhole of a logical one of a core (R48). -/
def State.physOf (s : State) (c l : Nat) : Nat := acmPhys (s.regN .acm c Reg.acm_acmMap) l

/-- The weight load that waits first begins where the shadow bank is free (R41). -/
def State.runLoad (s : State) (c : Nat) : State :=
  let k := s.core c
  match k.run, takeFirst (fun o => !o.isMul) k.mxeQ with
  | some i, some (.wl cl td, rest) =>
    if k.shadowReady ∨ k.loading.isSome then s
    else
      let t := Tile.ofBits td
      let n := if t.space = 1 then t.rows * t.rowBytes else 0
      match s.regulate c i.box n with
      | .error s => s
      | .ok s1 =>
        let load := fun (s2 : State) (rows : List (List Elem)) =>
          let s2 := s2.modCore c (fun k => { k with mxeQ := rest })
          s2.putExec c ((s2.execOf c).loadShadow t.f rows t.rows t.cols cl)
        match (if t.space = 1 then s1.readBoxTile c i t else .done s1 ((s1.execOf c).readTile t)) with
        | .wait s => s.regPaid c i.box n
        | .done s2 rows => load s2 rows
        | .fail s2 rows f => (load s2 rows).failRun c f
  | _, _ => s

/-- The MXMUL that is first in the queue. -/
def Core.headMul (c : Core) : Option (MxeOp × List MxeOp) := takeFirst MxeOp.isMul c.mxeQ

/-- Does a drain of the logical pigeonhole stand before the first MXMUL to it (R49)? -/
def Core.drainFirst (c : Core) (ph : Nat) : Bool :=
  (c.drain.elim false (fun d => d.ph == ph)) || c.drainQ.any (fun d => d.ph == ph && d.after == 0)

/-- Broadcast the first MXMUL, which leaves the queue (R40, R45, R49). -/
def State.broadcastHead (s : State) (c : Nat) (op : MxeOp) (rest : List MxeOp) : State :=
  match op with
  | .wl _ _ => s
  | .mul _ td ph accInit axis _ =>
    let s := s.modCore c (fun k => { k with
      mxeQ := rest, phState := k.phState.set ph .accum
      drainQ := k.drainQ.map (fun d => if d.ph = ph then { d with after := d.after - 1 } else d) })
    let x := s.execOf c
    s.putExec c (x.broadcast (Tile.ofBits td) (s.physOf c ph) (b2n axis) accInit)

/-- The MXMULs at the head of the queue that need no swap run while the MXE is FULL (R42, R46). -/
def State.runMuls : Nat → State → Nat → State
  | 0, s, _ => s
  | n + 1, s, c =>
    let k := s.core c
    match k.headMul with
    | some (.mul cl td ph ai ax sw, rest) =>
      if sw ∨ k.ramp ≠ .full ∨ k.drainFirst ph ∨ k.run.isNone then s
      else State.runMuls n (s.broadcastHead c (.mul cl td ph ai ax sw) rest) c
    | _ => s

/-! ### The drain -/

/-- Per-channel scales and biases of a chain for `n` columns from CHANNEL_BASE (R108): values, the first address
of a poisoned one, and the first absent one. -/
def State.channels (s : State) (i : Inst) (ker : Kernel) (ws : List Nat) (base n : Nat) :
    List W32 × List W32 × Option Nat × Option Nat :=
  let arr := fun (va : Nat) => (List.range n).map (fun j => BitVec.ofNat 32 (s.readNum i.box (va + 4 * (base + j)) 4))
  let sc := if chainPerChannel ws then
      match s.tensorOf i ker.chscaleTensor with | some t => some t.scaleArray | none => none else none
  let bi := if chainHas ws 2 then
      match s.tensorOf i ker.biasTensor with | some t => some t.base | none => none else none
  let bad := fun (v : Option Nat) => v.bind (fun va => s.firstPoison i.box (va + 4 * base) (4 * n))
  let gone := fun (v : Option Nat) => match v with
    | some va => if (s.absentIn i.box (va + 4 * base) (4 * n)).isSome then some (va + 4 * base) else none
    | none => none
  ((sc.map arr).getD [], (bi.map arr).getD [], (bad sc).or (bad bi), (gone sc).or (gone bi))

/-- Range of the channel arrays (R108): the tensor that a DRN runs past. -/
def State.channelFail (s : State) (i : Inst) (ker : Kernel) (ws : List Nat) (base n : Nat) : Option Fail :=
  let sc := if chainPerChannel ws then
      match s.tensorOf i ker.chscaleTensor with
      | some t => if t.size.getD t.channelDim 1 < base + n then some { reason := Reason.oob, tensor := ker.chscaleTensor }
        else (s.firstUnmapped i.box (t.scaleArray + 4 * base) (4 * n) false).map
          (fun va => { reason := Reason.oob, tensor := ker.chscaleTensor, va := va })
      | none => none
    else none
  let bi := if chainHas ws 2 then
      match s.tensorOf i ker.biasTensor with
      | some t => if t.size.getD 0 1 < base + n then some { reason := Reason.oob, tensor := ker.biasTensor }
        else (s.firstUnmapped i.box (t.base + 4 * base) (4 * n) false).map
          (fun va => { reason := Reason.oob, tensor := ker.biasTensor, va := va })
      | none => none
    else none
  firstFail [sc, bi]

/-- The drain at the head of the queue begins, once every MXMUL issued to its pigeonhole before it has run (R45, R49);
its rows are written as it begins. -/
def State.runDrain (s : State) (c : Nat) : State :=
  let k := s.core c
  match k.run, k.drain, k.drainQ with
  | some i, none, d :: rest =>
    if d.after ≠ 0 then s
    else
      let x := s.execOf c
      let ws := x.ker.chains.getD d.chain []
      let dest := Tile.ofBits d.dest
      let ch := s.channels i x.ker ws (bits d.parm.toNat 31 0) dest.cols
      match ch.2.2.2 with
      | some va => s.touch i.box va
      | none =>
        let s := s.notePoison c ch.2.2.1
        let x := s.execOf c
        let p := s.physOf c d.ph
        let rows := (List.range dest.rows).map (fun r => p * 256 + r)
        let marked := if ch.2.2.1.isSome then { x with core := { x.core with
            phPoison := rows.foldl setInsert x.core.phPoison } } else x
        let y := marked.drainAll p ws ch.1 ch.2.1 dest (Tile.ofBits d.resid)
        let y := { y with core := { y.core with
          phPoison := x.core.phPoison, drain := some d, drainQ := rest, drainRow := dest.rows - 1
          phState := y.core.phState.set d.ph .drain } }
        s.putExec c y
  | _, _, _ => s

/-! ### Couriers -/

/-- Run the CRRs at the head of courier `q`'s queue; a walk request stops them. -/
def State.runCourier : Nat → State → Nat → Nat → State
  | 0, s, _, _ => s
  | n + 1, s, c, q =>
    let k := s.core c
    match k.run, k.courQ.getD q [] with
    | some i, .crr _ d a :: rest =>
      match s.runCrr c i (Tile.ofBits d) (Tile.ofBits a) with
      | .wait s => s
      | .done s _ => State.runCourier n (s.modCore c (fun k => { k with courQ := k.courQ.set q rest })) c q
      | .fail s _ f => s.failRun c f
    | _, _ => s

/-- Everything queued in a core that can run, runs. -/
def State.runUnits (s : State) (c : Nat) : State :=
  let s := s.runLoad c
  let s := State.runMuls 16 s c
  let s := s.runDrain c
  (List.range 4).foldl (fun s q => State.runCourier 16 s c q) s

/-- Operations that clerk `cl` issued to the units of a TWAIT mask and that are not complete (R62): bit 0 MXE, bit 1
drain, bit 2 VXE, bits 3 to 6 couriers 0 to 3. -/
def Core.pendingFor (c : Core) (cl mask : Nat) : Bool :=
  (bit mask 0 && (c.mxeQ.any (fun o => o.clerk == cl) || c.loading == some cl)) ||
  (bit mask 1 && (c.drainQ.any (fun d => d.clerk == cl) || c.drain.elim false (fun d => d.clerk == cl))) ||
  (List.range 4).any (fun q => bit mask (3 + q) && (c.courQ.getD q []).any (fun o => o.clerk == cl))

/-- Nothing issued is incomplete (R103). -/
def Core.quiet (c : Core) : Bool :=
  c.mxeQ.isEmpty && c.loading.isNone && c.drainQ.isEmpty && c.drain.isNone && c.courQ.all (·.isEmpty)

/-! ### Commands -/

/-- SHADOW_READY_SET (R41): the last element of the load is written. -/
def execShadowReadySet (core : Nat) (s : State) : Ans :=
  .next (s.when (s.core core).loading.isSome
    ((s.modCore core (fun k => { k with shadowReady := true, loading := none })).changed .mxe core))

/-- BANK_SWAP (R42): the MXMUL with SWAP at the head exchanges the banks and broadcasts, once SHADOW_READY is 1. -/
def execBankSwap (core : Nat) (s : State) : Ans :=
  let k := s.core core
  match k.headMul with
  | some (.mul cl td ph ai ax true, rest) =>
    .next (s.when (k.shadowReady && k.ramp == .full && !k.drainFirst ph && k.run.isSome)
      (let s := (s.modCore core Core.swapBanks).changed .mxe core
       (s.broadcastHead core (.mul cl td ph ai ax true) rest).runUnits core))
  | _ => .next s

/-- DRAIN_DONE (R49): the last row is written; the pigeonhole is FREE and what waited goes on. -/
def execDrainDone (core : Nat) (s : State) : Ans :=
  match (s.core core).drain with
  | none => .next s
  | some d =>
    .next ((s.modCore core (fun k => { k with
      drain := none, drainRow := 0, phState := k.phState.set d.ph .free })).runUnits core)

end Sys2Proof.Machine
end

