-- ==== Sys2Proof/Machine/Clerks.lean ====
section
/-! DEFINITION. The clerks: fetching the instruction at a clerk's program counter (R59, R464), the tile extension (R61),
traps (R64) and base instructions. A row has its effect where the instruction at the program counter is its own. -/

namespace Sys2Proof.Machine

/-! ### Fetch (R464) -/

/-- What a fetch gives: an instruction, or the cause of a trap. -/
inductive Fetch where
  | op (o : ClerkOp)
  | trap (cause : Nat)
  deriving DecidableEq, Repr

/-- Cause code of a parity error on fetch: a hardware error of the RISC-V causes. -/
def causeParity : Nat := 19

def Core.fetch (c : Core) (pc : W64) : Fetch :=
  match codeOff pc with
  | none => .trap 1
  | some off =>
    let h := leNat (c.code.getRun off 2)
    let len := if h % 4 = 3 then 4 else 2
    if 0x40000 < off + len then .trap 1
    else if poisonIn c.codePoison off len then .trap causeParity
    else .op (decodeClerk (leNat (c.code.getRun off len)))

/-- The fetch of a clerk that may execute: its core runs an instance, and it is RUNNING or WAITING (R74). -/
def State.fetchFor (s : State) (c cl : Nat) : Option Fetch :=
  let k := s.core c
  match k.run, k.clerks[cl]? with
  | some _, some q => if q.state = .running ∨ q.state = .waiting then some (k.fetch q.pc) else none
  | _, _ => none

/-- The instruction that a clerk is at. -/
def State.clerkOp (s : State) (c cl : Nat) : Option ClerkOp :=
  match s.fetchFor c cl with
  | some (.op o) => some o
  | _ => none

def State.clerk (s : State) (c cl : Nat) : Clerk := (s.core c).clerks.getD cl {}
def State.modClerk (s : State) (c cl : Nat) (f : Clerk → Clerk) : State :=
  s.modCore c (fun k => { k with clerks := listModify f k.clerks cl })

/-- A clerk goes on past an instruction of `len` bytes, which counts in INSTRET (R74). -/
def State.retire (s : State) (c cl len : Nat) : State :=
  (s.modClerk c cl (fun q => { (q.advance len) with state := .running })).bump .clerk c cl 1

/-- The clerk waits at its instruction: WAITING (R74). -/
def State.stall (s : State) (c cl : Nat) : State := s.modClerk c cl (fun q => { q with state := .waiting })

/-! ### Traps (R64) -/

/-- The item's failure for a RISC-V trap cause. -/
def trapFail (cause : Nat) : Fail :=
  if cause = 5 ∨ cause = 7 then { reason := .oob, tensor := 0xFFFF }
  else if cause = causeParity then { reason := .poison }
  else Fail.loadCheck 0x0406

/-- A trap ends the kernel: the clerk reads TRAPPED and keeps the cause and program counter, and the item fails. -/
def State.trap (s : State) (c cl cause : Nat) : State :=
  let pc := (s.clerk c cl).pc
  let s := s.failRun c (trapFail cause)
  s.modClerk c cl (fun q => { q with state := .trapped, cause := BitVec.ofNat 64 cause, trapPc := pc })

/-- Cause of a trap that comes from outside the model (R64). -/
def trapCause (k : TrapKind) : Nat :=
  match k with
  | .accessFault => 5
  | .fetchParity => causeParity
  | .misaligned => 4
  | .illegal => 2
  | .other n => n

/-- CLERK_TRAP (R64): a clerk of a running instance traps. -/
def execClerkTrap (core clerk : Nat) (kind : TrapKind) (s : State) : Ans :=
  .next (s.when ((s.fetchFor core clerk).isSome) (s.trap core clerk (trapCause kind)))

/-! ### Tile registers (R60, R61) -/

def Clerk.tile (q : Clerk) (n : Nat) : Tile := Tile.ofBits (q.td.getD n 0)

/-- Where TDLD and TDST reach: clerk data memory (R61); the cause of the trap otherwise. -/
def tdAddr (cl a : Nat) (write : Bool) : Except Nat (Nat × Nat) :=
  if a % 16 ≠ 0 then .error (if write then 6 else 4)
  else match clerkLoc cl 0 a 16 with
    | .dmem m off => .ok (m, off)
    | _ => .error (if write then 7 else 5)

/-- TDLD: 16 bytes of clerk data memory into a tile register. -/
def execTdld (core clerk : Nat) (s : State) : Ans :=
  match s.clerkOp core clerk with
  | some (.tdld td rs1) =>
    match tdAddr clerk ((s.clerk core clerk).getX rs1).toNat false with
    | .error e => .next (s.trap core clerk e)
    | .ok (m, off) =>
      let r := (s.execOf core).dread m off 16
      .next (((s.putExec core r.1).modClerk core clerk (fun q => { q with td := q.td.set td (BitVec.ofNat 128 r.2) })).retire
        core clerk 4)
  | _ => .next s

/-- TDST: a tile register to clerk data memory. -/
def execTdst (core clerk : Nat) (s : State) : Ans :=
  match s.clerkOp core clerk with
  | some (.tdst rs1 td) =>
    match tdAddr clerk ((s.clerk core clerk).getX rs1).toNat true with
    | .error e => .next (s.trap core clerk e)
    | .ok (m, off) =>
      let v := (s.clerk core clerk).td.getD td 0
      .next ((s.putExec core ((s.execOf core).dwrite clerk m off 16 v.toNat)).retire core clerk 4)
  | _ => .next s

/-- TDSET: BASE += x, ROWS_M1 = x[7:0] or COLS_M1 = x[7:0]. -/
def tdsetBits (w : BitVec 128) (sel x : Nat) : BitVec 128 :=
  match sel with
  | 0 => BitVec.ofNat 128 (setBits w.toNat 47 0 (bits w.toNat 47 0 + x))
  | 1 => BitVec.ofNat 128 (setBits w.toNat 127 120 x)
  | _ => BitVec.ofNat 128 (setBits w.toNat 119 112 x)

def execTdset (core clerk : Nat) (s : State) : Ans :=
  match s.clerkOp core clerk with
  | some (.tdset td rs1 sel) =>
    let x := ((s.clerk core clerk).getX rs1).toNat
    .next ((s.modClerk core clerk (fun q => { q with td := q.td.set td (tdsetBits (q.td.getD td 0) sel x) })).retire
      core clerk 4)
  | _ => .next s

/-- TPARM: the parameter word. -/
def execTparm (core clerk : Nat) (s : State) : Ans :=
  match s.clerkOp core clerk with
  | some (.tparm rs1) =>
    .next ((s.modClerk core clerk (fun q => { q with parm := q.getX rs1 })).retire core clerk 4)
  | _ => .next s

/-- CLERK_QUEUES of a core (R74); VXOPs never wait here. -/
def Core.queuesWord (c : Core) : Nat :=
  (c.courQ.map (fun q => (q.filter CourOp.isCrr).length)).sum * 2 ^ 15 + c.drainQ.length * 2 ^ 5 + c.mxeQ.length

/-- TSTAT: the unit queues' occupancy (R61). -/
def execTstat (core clerk : Nat) (s : State) : Ans :=
  match s.clerkOp core clerk with
  | some (.tstat rd) =>
    let v := BitVec.ofNat 64 (s.core core).queuesWord
    .next ((s.modClerk core clerk (fun q => q.setX rd v)).retire core clerk 4)
  | _ => .next s

/-! ### Issue (R62, R63) -/

/-- MXWL, MXMUL, DRN or CRR at a clerk's program counter: checked, queued where the unit's queue has room, then run as
far as its unit can; on a full queue the clerk waits. -/
def State.issue (s : State) (c cl : Nat) (full : Bool) (check : Option Fail) (push : Core → Core) : State :=
  if full then s.stall c cl
  else match check with
    | some f => s.failRun c f
    | none => (((s.modCore c push).retire c cl 4).runUnits c)

/-- Room of a 16-entry queue (R62). -/
def queueFull {α : Type} (l : List α) : Bool := decide (16 ≤ l.length)

/-- MXWL (R41): the weight tile's checks. -/
def State.issueMxwl (s : State) (c cl td : Nat) : State :=
  let k := s.core c
  match k.run with
  | none => s
  | some i =>
    let x := s.execOf c
    let w := (s.clerk c cl).td.getD td 0
    let t := Tile.ofBits w
    s.issue c cl (queueFull k.mxeQ)
      (firstFail [checkSpaceAny x t, checkTensor x t, checkCodes t,
        if t.fmt = x.ker.wgtFmt then none else some (Fail.loadCheck 0x0401), checkAlign t, s.rangeOf i x t])
      (fun k => { k with mxeQ := k.mxeQ ++ [.wl cl w] })

/-- MXMUL (R40, R49): its pigeonhole becomes ACCUM unless it drains. -/
def State.issueMxmul (s : State) (c cl td ph : Nat) (accInit axis swap : Bool) : State :=
  let k := s.core c
  let w := (s.clerk c cl).td.getD td 0
  s.issue c cl (queueFull k.mxeQ) (mulChecks (s.execOf c) (Tile.ofBits w))
    (fun k => { k with
      mxeQ := k.mxeQ ++ [.mul cl w ph accInit axis swap]
      phState := if k.phState.getD ph .free = .free then k.phState.set ph .accum else k.phState })

/-- Is a queued MXMUL one to logical pigeonhole `ph`? -/
def MxeOp.mulTo (o : MxeOp) (ph : Nat) : Bool :=
  match o with
  | .mul _ _ p _ _ _ => p == ph
  | .wl _ _ => false

/-- DRN (R52): it consumes the parameter word at issue. -/
def State.issueDrn (s : State) (c cl dest resid ph chain : Nat) : State :=
  let k := s.core c
  match k.run with
  | none => s
  | some i =>
    let x := s.execOf c
    let q := s.clerk c cl
    let d := q.td.getD dest 0
    let r := q.td.getD resid 0
    let ws := x.ker.chains.getD chain []
    let n := (Tile.ofBits d).cols
    s.issue c cl (queueFull k.drainQ)
      (firstFail [drnChecks x (Tile.ofBits d) (Tile.ofBits r) ws q.parm,
        s.channelFail i x.ker ws (bits q.parm.toNat 31 0) n])
      (fun k => { k with
        drainQ := k.drainQ ++ [{ clerk := cl, dest := d, resid := r, ph := ph, chain := chain, parm := q.parm
                                 after := (k.mxeQ.filter (fun o => o.mulTo ph)).length }]
        clerks := listModify (fun q => { q with parm := 0 }) k.clerks cl })

/-- CRR (R463). -/
def State.issueCrr (s : State) (c cl dest src cour : Nat) : State :=
  let k := s.core c
  match k.run with
  | none => s
  | some i =>
    let q := s.clerk c cl
    let d := q.td.getD dest 0
    let a := q.td.getD src 0
    s.issue c cl (queueFull ((k.courQ.getD cour []).filter CourOp.isCrr))
      (s.crrChecks i (s.execOf c) (Tile.ofBits d) (Tile.ofBits a))
      (fun k => { k with courQ := k.courQ.set cour (k.courQ.getD cour [] ++ [.crr cl d a]) })

def execMxwl (core clerk : Nat) (s : State) : Ans :=
  match s.clerkOp core clerk with
  | some (.mxwl td) => .next (s.issueMxwl core clerk td)
  | _ => .next s

def execMxmul (core clerk : Nat) (s : State) : Ans :=
  match s.clerkOp core clerk with
  | some (.mxmul td ph ai ax sw) => .next (s.issueMxmul core clerk td ph ai ax sw)
  | _ => .next s

def execDrn (core clerk : Nat) (s : State) : Ans :=
  match s.clerkOp core clerk with
  | some (.drn d r ph ch) => .next (s.issueDrn core clerk d r ph ch)
  | _ => .next s

def execCrr (core clerk : Nat) (s : State) : Ans :=
  match s.clerkOp core clerk with
  | some (.crr d a q) => .next (s.issueCrr core clerk d a q)
  | _ => .next s

/-- ISSUE_QUEUE_ROOM (R62): a clerk that stalled on a full queue issues. -/
def execIssueQueueRoom (core clerk : Nat) (s : State) : Ans :=
  if (s.clerk core clerk).state ≠ .waiting then .next s
  else
    let s := s.runUnits core
    match s.clerkOp core clerk with
    | some (.mxwl td) => .next (s.issueMxwl core clerk td)
    | some (.mxmul td ph ai ax sw) => .next (s.issueMxmul core clerk td ph ai ax sw)
    | some (.drn d r ph ch) => .next (s.issueDrn core clerk d r ph ch)
    | some (.crr d a q) => .next (s.issueCrr core clerk d a q)
    | _ => .next s

/-- TWAIT (R61): what can run runs; the clerk waits while an operation it issued to a masked unit is incomplete. -/
def execTwait (core clerk : Nat) (s : State) : Ans :=
  match s.clerkOp core clerk with
  | some (.twait mask) =>
    let s := s.runUnits core
    if (s.core core).run.isNone then .next s
    else if (s.core core).pendingFor clerk mask then .next (s.stall core clerk)
    else .next (s.retire core clerk 4)
  | _ => .next s

/-- ECALL (R103): the clerk has finished its part of the instance. -/
def execEcall (core clerk : Nat) (s : State) : Ans :=
  match s.clerkOp core clerk with
  | some (.ecall len) =>
    .next ((s.retire core clerk len).modClerk core clerk (fun q => { q with state := .idle, finished := true, resv := none }))
  | _ => .next s

/-! ### Base instructions (R59) -/

/-- RV64IMAC_INSTRUCTION: the base instruction at the program counter, or the trap it raises. A store to WALK_ISSUE is
the row of that name; ECALL is its own row. -/
def execRv64imacInstruction (core clerk : Nat) (s : State) : Ans :=
  match s.fetchFor core clerk with
  | some (.trap cause) => .next (s.trap core clerk cause)
  | some (.op .illegal) => .next (s.trap core clerk 2)
  | some (.op (.base w len)) =>
    match (s.execOf core).rv clerk w len with
    | .ok x => .next (((s.putExec core x).modClerk core clerk (fun q => { q with state := .running })).bump .clerk core clerk 1)
    | .trap x cause => .next ((s.putExec core x).trap core clerk cause)
    | .walk _ => .next s
  | _ => .next s

end Sys2Proof.Machine
end

