-- ==== Sys2Proof/Machine/Images.lean ====
section
/-! DEFINITION. Sealed images (R351) and their checks at IMAGE_END or on relay (R336, R352). -/

namespace Sys2Proof.Machine

/-- A number of `n` bytes at an offset of a byte string. -/
def numAt (bs : List Byte) (o n : Nat) : Nat := leNat ((bs.drop o).take n)

/-- Bytes of the images in the retained store, but for component `k`'s (R332). -/
def State.storeBytes (s : State) (k : Nat) : Nat :=
  ((s.fw.comps.zipIdx.filter (fun c => c.2 != k)).map (fun c => match c.1.image with | some i => i.bytes.length | none => 0)).sum

/-- The first check of R352 that an image fails; `announced`: component and size of IMAGE_BEGIN; `whole`: every byte was
received. -/
def State.imageFault (s : State) (announced : Nat × Nat) (whole : Bool) (bs : List Byte) : Option Nat :=
  let h := numAt bs 0 64
  let comp := bits h 151 148
  let key := bits h 159 152
  let payload := bs.drop 4096
  if bits h 31 0 ≠ 0x5345_414C ∨ bits h 39 32 ≠ 1 ∨ bits h 147 40 ≠ 0 ∨
      ((bs.take 4096).drop 3373).any (· ≠ 0) then some 0x0101
  else if comp ≠ announced.1 ∨ !compOk comp then some 0x0102
  else if !whole ∨ 4096 + bits h 255 224 ≠ announced.2 then some 0x0103
  else if 3 < key ∨ Config.revoked.getLsbD key then some 0x0104
  else if !Config.imageSigOk key (Config.sha3 (bs.take 64)) ((bs.take 3373).drop 64) then some 0x0105
  else if (Config.sha3 payload).toNat ≠ bits h 511 256 then some 0x0106
  else if bits h 223 192 < s.sec.floors.getD comp 0 then some 0x0107
  else if bits h 191 176 / 256 ≠ 2 then some 0x0108
  else if 64 * mib < s.storeBytes comp + bs.length then some 0x0109
  else none

/-- The boot ROM's verdict on an image (R352): refused with a detail, or copied to the retained store, its digest
recorded and measured. -/
def State.verifyImage (s : State) (announced : Nat × Nat) (whole : Bool) (bs : List Byte) : State × Option Nat :=
  match s.imageFault announced whole bs with
  | some d =>
    ((s.bump .sec 0 1 1).event { pageRec .sec 0 0x0A00 .warning with a := announced.1, b := d }, some d)
  | none =>
    let h := numAt bs 0 64
    let digest := BitVec.ofNat 256 (bits h 511 256)
    let s := s.modComp announced.1 (fun c => { c with
      image := some { bytes := bs, svn := bits h 223 192, ifVersion := bits h 191 176, digest := digest } })
    let s := s.measure { digest := digest, type := 4, comp := announced.1, svn := bits h 223 192 }
    (s.bump .sec 0 0 1, none)

/-- The boot ROM serves image requests (R334, R335). -/
def State.bootServes (s : State) : Bool := s.fw.booted && (s.fw.st == .noFirmware || s.fw.st == .loading)

/-- A relayed image (R336): from any link; verification alone decides. -/
def State.relayedImage (s : State) (component : Nat) (bs : List Byte) : State :=
  if s.bootServes ∧ compOk component then
    ((s.verifyImage (component, bs.length) true bs).1.setFw (fun w => { w with st := .loading })).changed .fwctl 0
  else s

/-- The retained firmware set sent to another module (R336). -/
def State.relaySet (s : State) (pos : Nat) : State :=
  (List.range 6).foldl (fun (s : State) k =>
    match (s.comp k).image with
    | some i => s.sendMsg pos 3 (.image k i.bytes)
    | none => s) s

end Sys2Proof.Machine
end

