-- ==== Sys2Proof/Machine/Walker.lean ====
section
/-! DEFINITION. The walker (R151 to R173): layer records, page tables, walk requests, appends with copy-on-write,
gathers, length tables and bias tiles; the pool's waits (R167); commit and roll-back of a step's pages (R158, R164). -/

namespace Sys2Proof.Machine

/-! ### Layer records (R152) -/

structure LayerRec where
  tables : Nat
  layer : Nat
  window : Nat
  heads : Nat
  kvHeads : Nat
  dk : Nat
  dv : Nat
  fmt : Nat
  gridW : Nat
  tokens : Nat
  reserved : Nat
  deriving DecidableEq, Repr

def LayerRec.ofNat (n : Nat) : LayerRec :=
  { tables := bits n 127 80, layer := bits n 79 72, window := bits n 71 62, heads := bits n 61 57 + 1
    kvHeads := bits n 56 53 + 1, dk := 16 * (bits n 52 48 + 1), dv := 16 * (bits n 47 43 + 1), fmt := bits n 42 39
    gridW := bits n 37 32 + 1, tokens := bits n 30 19 + 1
    reserved := bits n 38 38 + bits n 31 31 + bits n 18 0 }

/-- Bytes of a KV_FMT element. -/
def LayerRec.width (r : LayerRec) : Nat := if r.fmt = 5 ∨ r.fmt = 6 then 2 else 1

/-- Bytes of a page (R151). -/
def LayerRec.pageBytes (r : LayerRec) : Nat := 256 * r.kvHeads * (r.dk + r.dv) * r.width

/-- The smallest power of two not below `n`, from `b` on. -/
def pow2From : Nat → Nat → Nat → Nat
  | 0, b, _ => b
  | k + 1, b, n => if n ≤ b then b else pow2From k (2 * b) n

/-- Run of the pool that holds a page. -/
def LayerRec.run (r : LayerRec) : Nat := pow2From 10 4096 r.pageBytes

/-- Capacity of a layer's list (R157). -/
def LayerRec.capacity (r : LayerRec) : Nat := pow2From 14 512 (cdiv (max (r.window + 1) 64 * r.tokens) 256 + 2)

def LayerRec.ok (r : LayerRec) : Bool :=
  decide ((2 ≤ r.fmt ∧ r.fmt ≤ 6) ∧ r.pageBytes ≤ 2 ^ 21 ∧ r.tokens ≤ r.gridW * 64 ∧ r.capacity ≤ 16384)

/-- Byte of slot `t` and head `h` in a page, and the width of its row: keys first, then values (R151). -/
def LayerRec.slotAt (r : LayerRec) (value : Bool) (t h : Nat) : Nat × Nat :=
  if value then (256 * r.kvHeads * r.dk * r.width + (t * r.kvHeads + h) * r.dv * r.width, r.dv * r.width)
  else ((t * r.kvHeads + h) * r.dk * r.width, r.dk * r.width)

/-! ### Walk requests (R160) -/

structure WalkReq where
  layerRec : Nat
  stride : Nat
  dest : Nat
  qPn : Nat
  qP0 : Nat
  pn : Nat
  p0 : Nat
  dHi : Nat
  dLo : Nat
  qD : Nat
  head : Nat
  order : Nat
  courier : Nat
  op : Nat
  reserved : Nat
  /-- The layer record read with the request. -/
  lr : LayerRec
  deriving DecidableEq, Repr

/-- A request with its layer record above it, as the courier's queue holds it. -/
def WalkReq.ofNat (n : Nat) : WalkReq :=
  { layerRec := bits n 191 176, stride := bits n 175 152, dest := bits n 151 128, qPn := bits n 127 112, qP0 := bits n 111 96
    pn := bits n 95 80, p0 := bits n 79 64, dHi := bits n 63 48, dLo := bits n 47 32, qD := bits n 31 16
    head := bits n 15 11, order := bits n 10 10, courier := bits n 9 8, op := bits n 7 0
    reserved := bits n 255 192, lr := LayerRec.ofNat (n >>> 256) }

/-- The selection of a request: distance and position pairs, in order (R161). -/
def WalkReq.selection (w : WalkReq) : List (Nat × Nat) :=
  let ds := (List.range (w.dHi + 1 - w.dLo)).map (w.dLo + ·)
  let ps := (List.range w.pn).map (w.p0 + ·)
  if w.order = 0 then ds.flatMap (fun d => ps.map (fun p => (d, p)))
  else ps.flatMap (fun p => ds.map (fun d => (d, p)))

/-- Bytes of a row of the request's core-buffer tile. -/
def WalkReq.rowBytes (w : WalkReq) : Nat :=
  match w.op with
  | 2 | 4 => w.lr.dk * w.lr.width
  | 3 | 5 => w.lr.dv * w.lr.width
  | _ => 4 * ((w.dHi + 1 - w.dLo) * w.pn)

/-- Rows of the tile. -/
def WalkReq.rows (w : WalkReq) : Nat :=
  match w.op with
  | 2 | 3 => (w.dHi + 1 - w.dLo) * w.pn
  | 4 | 5 => w.pn
  | _ => w.qPn

/-! ### What a stream holds (R155, R161) -/

/-- The walker's view: the instance's stream, its current frame (R154) and whether the list is a prefill. -/
structure WalkCtx where
  inst : Inst
  stream : Nat
  cur : Nat
  prefill : Bool
  frames : Nat
  deriving DecidableEq, Repr

def State.walkCtx (s : State) (i : Inst) : Option WalkCtx :=
  match i.stream with
  | none => none
  | some t =>
    match s.place? t, s.groupOf t with
    | some p, some g =>
      let pre := i.list == .prefill
      some { inst := i, stream := t, cur := if pre then g.frames - 1 else p.stepCount, prefill := pre, frames := g.frames }
    | _, _ => none

def Place.dir? (p : Place) (layer : Nat) : Option LayerDir := p.dirs.find? (fun d => d.layer == layer)
def Place.modDir (p : Place) (layer : Nat) (f : LayerDir → LayerDir) : Place :=
  { p with dirs := p.dirs.map (fun d => if d.layer = layer then f d else d) }

/-- First token that the list still holds. -/
def LayerDir.firstTok (d : LayerDir) : Nat := d.origin + d.firstPage * 256

/-- One past the last token that counts as held whole: committed, or appended by the running prefill. -/
def LayerDir.heldEnd (d : LayerDir) (prefill : Bool) : Nat := if prefill then d.endTok + d.pending else d.endTok

/-- Is frame `k` held whole? -/
def LayerDir.holds (d : LayerDir) (prefill : Bool) (tokens k : Nat) : Bool :=
  d.valid && decide (d.firstTok ≤ k * tokens ∧ (k + 1) * tokens ≤ d.heldEnd prefill)

/-- Does the token of a selection exist (R161)? -/
def LayerDir.tokenOk (d : LayerDir) (x : WalkCtx) (tokens dist p : Nat) : Bool :=
  decide (dist ≤ x.cur) &&
    let k := x.cur - dist
    (dist != 0 && d.holds x.prefill tokens k) ||
      (dist == 0 && d.valid && decide (d.firstTok ≤ k * tokens + p ∧ k * tokens + p < d.endTok + d.pending))

/-- KEY_FRAMES (R171): frames before the current one held whole, counted back until the first that is not. -/
def keyFrames (d : LayerDir) (x : WalkCtx) (tokens : Nat) : Nat → Nat → Nat
  | 0, n => n
  | f + 1, n => if n < x.cur ∧ d.holds x.prefill tokens (x.cur - (n + 1)) then keyFrames d x tokens f (n + 1) else n

def LayerDir.pageOf (d : LayerDir) (g : Nat) : Nat := (g - d.origin) / 256
def LayerDir.slotOf (d : LayerDir) (g : Nat) : Nat := (g - d.origin) % 256
def LayerDir.pte? (d : LayerDir) (page : Nat) : Option Pte := d.ptes.find? (fun e => e.page == page)

def State.page? (s : State) (da : Nat) : Option KvPage := s.pages.find? (fun p => p.da == da)
def State.modPage (s : State) (da : Nat) (f : KvPage → KvPage) : State :=
  { s with pages := s.pages.map (fun p => if p.da = da then f p else p) }

/-! ### The pool (R151, R167) -/

def State.poolQuota (s : State) (b : Nat) : Nat := s.field .box b Reg.box_quotaKvpool 19 0 * mib

/-- A key for a new page: nothing observes where the firmware places it. -/
def State.freshPage (s : State) : Nat := (s.pages.map (·.da)).foldl max 0 + 4096

/-- Allocate a page of `run` bytes, its contents undefined; none where the box's pool has no room (R167). -/
def State.allocPage (s : State) (b run : Nat) : Option (Nat × State) :=
  if s.poolQuota b < s.usePool b + run then none
  else
    let da := s.freshPage
    let n := s.draw
    some (da, { n.2 with pages := { da := da, box := b, run := run, refs := 1, data := Store.free n.1 } :: n.2.pages })

/-! ### Lists (R153, R157) -/

/-- A directory entry for a layer, without a history. -/
def newDir (r : LayerRec) (sig : W32) : LayerDir := { layer := r.layer, ringLog2 := Nat.log2 r.capacity, sig := sig }

/-- Give places a list for a layer. -/
def State.addLists (s : State) (streams : List Nat) (r : LayerRec) (sig : W32) : State :=
  streams.foldl (fun s t => s.modPlace t (fun p =>
    if (p.dir? r.layer).isSome then p else { p with dirs := p.dirs ++ [newDir r sig] })) s

/-- Lists for a layer first named after the prefill, for every place of the group; none where the pool cannot hold
them (R157). -/
def State.listsFor (s : State) (x : WalkCtx) (r : LayerRec) (sig : W32) : Option State :=
  match s.groupOf x.stream with
  | none => none
  | some g =>
    let streams := if x.prefill then [x.stream] else g.streams
    if (s.place? x.stream).any (fun p => (p.dir? r.layer).isSome) then some s
    else
      let t := s.addLists streams r sig
      if s.poolQuota g.box < t.usePool g.box then none else some t

/-! ### Issue (R159, R162) -/

/-- The checks of R162 at issue, in code order. -/
def State.walkChecks (s : State) (x : Option WalkCtx) (w : WalkReq) (rec : Nat) : Option Fail :=
  let r := w.lr
  let sel := (w.dHi + 1 - w.dLo) * w.pn
  let moves := decide (2 ≤ w.op)
  let append := decide (w.op = 4 ∨ w.op = 5)
  let fixed : Option LayerFix := match x with
    | some c => (match s.groupOf c.stream with | some g => g.layers.find? (fun (l : LayerFix) => l.layer == r.layer) | none => none)
    | none => none
  let dir : Option LayerDir := match x with
    | some c => (match s.place? c.stream with | some p => p.dir? r.layer | none => none)
    | none => none
  firstFail
    [ failIf (w.op == 0 || decide (6 < w.op) || w.reserved != 0 || r.reserved != 0 || decide (w.layerRec % 16 ≠ 0 ∨ 0x8000 < w.layerRec + 16) ||
        (w.op == 1 && decide (w.dest % 16 ≠ 0 ∨ 0x8000 < w.dest + 16))) 0x0601,
      failIf (!r.ok) 0x0602,
      failIf (fixed.any (fun (l : LayerFix) => l.record.toNat != rec)) 0x0603,
      failIf (moves && (decide (w.dHi < w.dLo ∨ 1023 < w.dHi ∨ 256 < sel ∨ r.tokens < w.p0 + w.pn) ||
        decide ((if w.op = 6 then r.heads else r.kvHeads) ≤ w.head) ||
        (w.op == 6 && decide (w.qPn = 0 ∨ 256 < w.qPn ∨ r.tokens < w.qP0 + w.qPn)))) 0x0604,
      match x with
      | some c => failIf (append && (if c.prefill then decide (c.frames ≤ w.dLo)
          else w.dLo != 0 || w.dLo != w.dHi || dir.any (fun d => d.valid && decide (c.cur * r.tokens + w.p0 < d.endTok)))) 0x0605
      | none => none,
      failIf x.isNone 0x0606 ]

/-- Checks of the core-buffer tile (R63, R113, R161). -/
def walkTile (x : Exec) (w : WalkReq) : Option Fail :=
  if w.op = 1 then none
  else
    let size := if w.op = 6 then 4 else w.lr.width
    if w.dest % size ≠ 0 ∨ (1 < w.rows ∧ w.stride % size ≠ 0) then some (Fail.loadCheck 0x0402)
    else
      match (List.range w.rows).find? (fun r => decide (x.cbufLimit < w.dest + r * w.stride + w.rowBytes)) with
      | none => none
      | some r => some { reason := .oob, coords := [(x.cbufLimit - (w.dest + r * w.stride)) / size, r, 0, 0] }

/-- Requests of a core queued or running (R159): at most 16. -/
def Core.walkFull (c : Core) : Bool := decide (16 ≤ c.walkCount)

/-- Fix a group's record for a layer at its first request (R153). -/
def State.fixLayer (s : State) (x : WalkCtx) (r : LayerRec) (rec : Nat) : State :=
  match s.groupOf x.stream with
  | none => s
  | some g =>
    if g.layers.any (fun (l : LayerFix) => l.layer == r.layer) then s
    else s.modGroup g.index (fun g => { g with
      layers := g.layers ++ [{ layer := r.layer, record := BitVec.ofNat 128 rec, sig := crc32c (leBytes 16 rec) }] })

/-- A clerk at a store to WALK_ISSUE: the offset stored, and the instruction's length. -/
def State.walkStore (s : State) (c cl : Nat) : Option (Nat × Nat) :=
  match s.clerkOp c cl with
  | some (.base w len) =>
    match (s.execOf c).rv cl w len with
    | .walk off => some (off.toNat, len)
    | _ => none
  | _ => none

/-- WALK_ISSUE (R159): the request at the stored offset is read, checked and queued; a full queue stalls the clerk. -/
def execWalkIssue (core clerk : Nat) (s : State) : Ans :=
  match s.walkStore core clerk, (s.core core).run with
  | some (off, len), some i =>
    if (s.core core).walkFull then .next (s.stall core clerk)
    else if off % 32 ≠ 0 ∨ 0x8000 < off + 32 then .next (s.failRun core (Fail.loadCheck 0x0601))
    else
      let req := (s.execOf core).dread clerk off 32
      let rOff := bits req.2 191 176
      let r := req.1.dread clerk rOff 16
      let s := s.putExec core r.1
      let w := WalkReq.ofNat (req.2 + r.2 * 2 ^ 256)
      let x := s.walkCtx i
      match firstFail [s.walkChecks x w r.2, walkTile (s.execOf core) w] with
      | some f => .next (s.failRun core f)
      | none =>
        let s := match x with | some x => s.fixLayer x w.lr r.2 | none => s
        let s := s.modCore core (fun k => { k with
          courQ := k.courQ.set w.courier (k.courQ.getD w.courier [] ++ [.walk clerk (req.2 + r.2 * 2 ^ 256)]) })
        .next ((s.retire core clerk len).bump .kvw core 0 1)
  | _, _ => .next s

/-! ### Execution -/

/-- The walk request at the head of courier `q`, if it has operation `op`. -/
def State.headWalk (s : State) (c q op : Nat) : Option (Inst × Nat × WalkReq) :=
  match (s.core c).run, (s.core c).courQ.getD q [] with
  | some i, .walk cl n :: _ =>
    let w := WalkReq.ofNat n
    if w.op = op then some (i, cl, w) else none
  | _, _ => none

/-- The head request is complete (R62). -/
def State.endWalk (s : State) (c q : Nat) : State :=
  (s.modCore c (fun k => { k with courQ := k.courQ.set q ((k.courQ.getD q []).drop 1), poolWait := false })).runUnits c

/-- Look a page up: a hit moves its entry to the front, a miss takes the table's entry (R168). -/
def State.lookup (s : State) (c box : Nat) (x : WalkCtx) (layer : Nat) (e : Pte) : State :=
  let key := fun (l : LabEntry) => l.box == box && l.stream == x.stream && l.layer == layer && l.page == e.page
  let en := s.field .kvw c Reg.kvw_kvwCtrl 0 0 == 1
  let hit := en && (s.core c).lab.any key
  let s := s.bump .kvw c (if hit then 1 else 2) 1
  if en then s.modCore c (fun k => { k with
    lab := ({ box := box, stream := x.stream, layer := layer, page := e.page, pte := e } :: k.lab.filter (fun l => !key l)).take 64 })
  else s

/-- OOB of a selection's token (R161). -/
def walkOob (w : WalkReq) (d p : Nat) : Fail := { reason := .oob, tensor := 0xFFFE, coords := [p, d, w.lr.layer, w.head] }

/-- The first token of a selection that does not exist. -/
def missing (x : WalkCtx) (w : WalkReq) (dir : Option LayerDir) : Option Fail :=
  (w.selection.find? (fun t => decide (w.lr.window < t.1) ||
    !(dir.any (fun d => d.tokenOk x w.lr.tokens t.1 t.2)))).map (fun t => walkOob w t.1 t.2)

/-- Layer directory of the instance's stream. -/
def State.dirOf (s : State) (x : WalkCtx) (layer : Nat) : Option LayerDir :=
  match s.place? x.stream with | some p => p.dir? layer | none => none

/-- Place bytes with a poison mark in the core buffer of an engine's view. -/
def Exec.putCbuf (x : Exec) (off : Nat) (bytes : List Byte) (bad : List Bool) : Exec :=
  let w := writeBytes x.core.cbuf x.core.cbufPoison off bytes bad
  { x with core := { x.core with cbuf := w.1, cbufPoison := w.2 }, poisoned := x.poisoned || bad.any id }

/-- GATHER_K and GATHER_V (R160, R161). -/
def State.gather (s : State) (c q : Nat) (value : Bool) : State :=
  match s.headWalk c q (if value then 3 else 2) with
  | none => s
  | some (i, _, w) =>
    match s.walkCtx i with
    | none => s
    | some x =>
      let dir := s.dirOf x w.lr.layer
      match missing x w dir, dir with
      | some f, _ => s.failRun c f
      | none, none => s.endWalk c q
      | none, some d =>
        let sel := w.selection
        let gs := sel.map (fun t => (x.cur - t.1) * w.lr.tokens + t.2)
        let pages := (gs.map d.pageOf).dedup
        let s := pages.foldl (fun s p => match d.pte? p with | some e => s.lookup c i.box x w.lr.layer e | none => s) s
        let y := gs.zipIdx.foldl (fun (y : Exec) g =>
          match d.pte? (d.pageOf g.1) with
          | none => y
          | some e =>
            match s.page? e.da with
            | none => y
            | some pg =>
              let at' := w.lr.slotAt value (d.slotOf g.1) w.head
              let bytes := pg.data.getRun at'.1 at'.2
              let bad := (List.range at'.2).map (fun b => poisonIn pg.poison (at'.1 + b) 1)
              y.putCbuf (w.dest + g.2 * w.stride) bytes bad) (s.execOf c)
        ((s.putExec c y).bump .kvw c 4 sel.length).endWalk c q

def execGatherK (core q : Nat) (s : State) : Ans := .next (s.gather core q false)
def execGatherV (core q : Nat) (s : State) : Ans := .next (s.gather core q true)

/-- Page that follows a list's last one. -/
def LayerDir.nextPage (d : LayerDir) : Nat := match d.ptes.getLast? with | some e => e.page + 1 | none => d.firstPage

/-- One more page at a list's end: its entry NEW with FILL 0 (R163). -/
def State.extendPage (s : State) (box : Nat) (x : WalkCtx) (r : LayerRec) (next : Nat) : Option State :=
  (s.allocPage box r.run).map (fun a =>
    (a.2.modPlace x.stream (fun p => p.modDir r.layer (fun d => { d with
      ptes := d.ptes ++ [{ page := next, new := true, da := a.1, run := Nat.log2 (r.run / 4096) }] }))).dropLab
      (fun e => e.box == box && e.stream == x.stream && e.layer == r.layer && e.page == next))

/-- Allocation of every page that tokens up to `g` need, past the list's end (R163). -/
def State.extend : Nat → State → Nat → WalkCtx → LayerRec → Nat → Option State
  | 0, s, _, _, _, _ => some s
  | fuel + 1, s, box, x, r, g =>
    match s.dirOf x r.layer with
    | none => some s
    | some d =>
      if d.pageOf g < d.nextPage then some s
      else (s.extendPage box x r d.nextPage).bind (fun s => State.extend fuel s box x r g)

/-- Slots below FILL of a page and the poison they hold, copied to its new copy `n` (R165). -/
def KvPage.copyFrom (n pg : KvPage) (r : LayerRec) (fill : Nat) : KvPage :=
  let keep := (List.range fill).flatMap (fun t => (List.range r.kvHeads).flatMap (fun h =>
    [r.slotAt false t h, r.slotAt true t h]))
  { n with
    data := keep.foldl (fun d a => d.setRun a.1 (pg.data.getRun a.1 a.2)) n.data
    poison := pg.poison.filter (fun m => keep.any (fun a => decide (a.1 < m * 64 + 64 ∧ m * 64 < a.1 + a.2))) }

/-- Copy-on-write of a shared page before it is written (R165): slots below FILL are copied. -/
def State.cow (s : State) (c box : Nat) (x : WalkCtx) (r : LayerRec) (e : Pte) : Option State :=
  match s.page? e.da with
  | none => some s
  | some pg =>
    if pg.refs ≤ 1 then some s
    else (s.allocPage box r.run).map (fun a =>
      let s := a.2.modPage a.1 (fun n => n.copyFrom pg r e.fill)
      let s := { s with pages := dropRef s.pages e.da }
      let s := s.modPlace x.stream (fun p => p.modDir r.layer (fun d => { d with
        ptes := d.ptes.map (fun q => if q.page = e.page then { q with da := a.1 } else q) }))
      let s := s.dropLab (fun l => l.box == box && l.stream == x.stream && l.layer == r.layer && l.page == e.page)
      s.bump .kvw c 6 1)

/-- A request waits for the pool (R167): the first wait of each records an event. -/
def State.waitPool (s : State) (c q : Nat) (x : WalkCtx) (box layer : Nat) : State :=
  if s.poolWait.any (fun w => w.1 == c && w.2.1 == q) then s
  else
    let s := { s with poolWait := s.poolWait ++ [(c, q, box)] }
    let s := s.modCore c (fun k => { k with poolWait := true })
    (s.changed .kvw c).event { pageRec .kvw c 0x0300 .notice with
      box := some box, tag := (s.item? x.inst.item).map (·.tag), a := x.stream, b := layer }

/-- Everything that an append needs of the pool: its list, its pages, its copies; none where it must wait. -/
def State.prepare (s : State) (c : Nat) (i : Inst) (x : WalkCtx) (w : WalkReq) (frame : Nat) : Option State :=
  let r := w.lr
  let sig := (s.groupOf x.stream).elim 0 (fun g => ((g.layers.find? (fun l => l.layer == r.layer)).map (·.sig)).getD 0)
  match s.listsFor x r sig with
  | none => none
  | some s =>
    let start := if x.prefill then 0 else x.cur * r.tokens
    let s := s.modPlace x.stream (fun p => p.modDir r.layer (fun d =>
      if d.valid then d else { d with valid := true, origin := start, firstPage := 0, endTok := start, pending := 0, ptes := [] }))
    let g0 := frame * r.tokens + w.p0
    match State.extend 16385 s i.box x r (g0 + w.pn - 1) with
    | none => none
    | some s =>
      match s.dirOf x r.layer with
      | none => some s
      | some d =>
        let pages := ((List.range w.pn).map (fun k => d.pageOf (g0 + k))).dedup
        pages.foldl (fun (o : Option State) p =>
          match o with
          | none => none
          | some s =>
            match (s.dirOf x r.layer).bind (fun d => d.pte? p) with
            | none => some s
            | some e => (s.lookup c i.box x r.layer e).cow c i.box x r e) (some s)

/-- APPEND_K and APPEND_V (R160, R163). -/
def State.append (s : State) (c q : Nat) (value : Bool) : State :=
  match s.headWalk c q (if value then 5 else 4) with
  | none => s
  | some (i, _, w) =>
    match s.walkCtx i with
    | none => s
    | some x =>
      let frame := x.cur - w.dLo
      match s.prepare c i x w frame with
      | none => s.waitPool c q x i.box w.lr.layer
      | some s =>
        match s.dirOf x w.lr.layer with
        | none => s.endWalk c q
        | some d =>
          let y := s.execOf c
          let g0 := frame * w.lr.tokens + w.p0
          let s := (List.range w.pn).foldl (fun (s : State) k =>
            match d.pte? (d.pageOf (g0 + k)) with
            | none => s
            | some e =>
              let at' := w.lr.slotAt value (d.slotOf (g0 + k)) w.head
              let start := w.dest + k * w.stride
              let bytes := y.core.cbuf.getRun start at'.2
              let bad := (List.range at'.2).map (fun b => poisonIn y.core.cbufPoison (start + b) 1)
              s.modPage e.da (fun pg =>
                let r := writeBytes pg.data pg.poison at'.1 bytes bad
                { pg with data := r.1, poison := r.2 })) s
          let read := (List.range w.pn).any (fun k => poisonIn y.core.cbufPoison (w.dest + k * w.stride) w.rowBytes)
          let s := s.putExec c { (s.execOf c) with poisoned := read }
          let s := s.modPlace x.stream (fun p => p.modDir w.lr.layer (fun d => { d with
            pending := max d.pending (g0 + w.pn - d.endTok) }))
          (s.bump .kvw c 5 w.pn).endWalk c q

def execAppendK (core q : Nat) (s : State) : Ans := .next (s.append core q false)
def execAppendV (core q : Nat) (s : State) : Ans := .next (s.append core q true)

/-- KV_POOL_ALLOC_RESUME (R167): the box's oldest waiting request goes on where the pool has room. -/
def execKvPoolAllocResume (box : Nat) (s : State) : Ans :=
  match s.poolWait.find? (fun w => w.2.2 == box) with
  | none => .next s
  | some (c, q, b) =>
    match (s.core c).courQ.getD q [] with
    | .walk _ n :: _ =>
      let value := (WalkReq.ofNat n).op == 5
      let free := { s with poolWait := s.poolWait.erase (c, q, b) }
      let t := free.append c q value
      .next (if t.poolWait.any (fun w => w.1 == c && w.2.1 == q) then s else t)
    | _ => .next { s with poolWait := s.poolWait.erase (c, q, b) }

/-- LENGTHS (R170, R171). -/
def execLengths (core q : Nat) (s : State) : Ans :=
  match s.headWalk core q 1 with
  | none => .next s
  | some (i, cl, w) =>
    match s.walkCtx i with
    | none => .next s
    | some x =>
      let d := (s.dirOf x w.lr.layer).getD { layer := w.lr.layer }
      let t := w.lr.tokens
      let kf := keyFrames d x t w.lr.window 0
      let now := if d.valid then min (d.endTok + d.pending) ((x.cur + 1) * t) - x.cur * t else 0
      let v := x.cur % 2 ^ 32 * 2 ^ 96 + (kf * t + now) * 2 ^ 64 + kf * 2 ^ 48 + t * 2 ^ 32 + x.stream
      .next ((s.putExec core ((s.execOf core).dwrite cl cl w.dest 16 v)).endWalk core q)

/-- FP32 entry of a bias table. -/
def State.biasAt (s : State) (b va : Nat) : W32 := BitVec.ofNat 32 (s.readNum b va 4)

/-- Table entries that a BIAS reads, as box virtual addresses. -/
def biasVas (w : WalkReq) (r : Nat) (t : Nat × Nat) : List Nat :=
  if t.1 < w.qD ∨ w.lr.window < t.1 - w.qD ∨ w.lr.tables = 0 then []
  else
    let base := w.lr.tables + w.head * 20480
    let qp := w.qP0 + r
    let dy := (qp / w.lr.gridW - t.2 / w.lr.gridW) + (t.2 / w.lr.gridW - qp / w.lr.gridW)
    let dx := (qp % w.lr.gridW - t.2 % w.lr.gridW) + (t.2 % w.lr.gridW - qp % w.lr.gridW)
    [base + 4 * (t.1 - w.qD), base + 4096 + (dy * 64 + dx) * 4]

/-- One element of a bias tile (R173). -/
def State.biasElem (s : State) (box : Nat) (w : WalkReq) (r : Nat) (t : Nat × Nat) : W32 :=
  match biasVas w r t with
  | [f, g] => fadd (s.biasAt box f) (s.biasAt box g)
  | _ => if t.1 < w.qD ∨ w.lr.window < t.1 - w.qD then fpNegInf else 0

/-- BIAS (R172, R173). -/
def execBias (core q : Nat) (s : State) : Ans :=
  match s.headWalk core q 6 with
  | none => .next s
  | some (i, _, w) =>
    match s.walkCtx i with
    | none => .next s
    | some x =>
      match missing x w (s.dirOf x w.lr.layer) with
      | some f => .next (s.failRun core f)
      | none =>
        let sel := w.selection
        let vas := (List.range w.qPn).flatMap (fun r => sel.flatMap (biasVas w r))
        match vas.find? (fun va => !s.mapped i.box va 4 false) with
        | some va => .next (s.failRun core { reason := .oob, va := va })
        | none =>
          match vas.find? (fun va => (s.absentIn i.box va 4).isSome) with
          | some va => .next (s.touch i.box va)
          | none =>
            match vas.find? (fun va => s.poisonedBox i.box va 4) with
            | some va => .next (s.failRun core { reason := .poison, va := va })
            | none =>
              let y := (List.range w.qPn).foldl (fun (y : Exec) r =>
                let bytes := sel.flatMap (fun t => leBytes 4 (s.biasElem i.box w r t).toNat)
                y.putCbuf (w.dest + r * w.stride) bytes []) (s.execOf core)
              .next (((s.putExec core y).bump .kvw core 8 (w.qPn * sel.length)).endWalk core q)

/-! ### Commit and roll-back (R158, R164) -/

/-- Pages of a directory that a commit of frame `n` trims: last slot at or below frame `n − WINDOW_FRAMES`. -/
def LayerDir.trims (d : LayerDir) (r : LayerRec) (n : Nat) (e : Pte) : Bool :=
  decide (r.window ≤ n ∧ (d.origin + e.page * 256 + 255) / r.tokens ≤ n - r.window)

/-- A directory after a commit of frame `n` (R164 steps 1 to 3): its pages released are given too. -/
def LayerDir.commit (d : LayerDir) (r : LayerRec) (n : Nat) : LayerDir × List Pte :=
  if d.pending = 0 then (d, [])
  else
    let stop := d.endTok + d.pending
    let ptes := d.ptes.map (fun e =>
      let base := d.origin + e.page * 256
      if d.endTok < base + 256 ∧ base < stop then { e with new := false, fill := min 256 (stop - base) } else { e with new := false })
    let d := { d with endTok := stop, pending := 0, ptes := ptes }
    let gone := ptes.takeWhile (d.trims r n)
    ({ d with ptes := ptes.drop gone.length, firstPage := d.firstPage + gone.length }, gone)

def Group.layerRec (g : Group) (layer : Nat) : LayerRec :=
  LayerRec.ofNat (((g.layers.find? (fun l => l.layer == layer)).map (fun l => l.record.toNat)).getD 0)

/-- A step's pages committed: frame `n` of the stream (R158, R164). -/
def State.commitPages (s : State) (stream n : Nat) : State :=
  match s.place? stream, s.groupOf stream with
  | some p, some g =>
    let done := p.dirs.map (fun d => (d.layer, d.commit (g.layerRec d.layer) n))
    let s := s.modPlace stream (fun p => { p with dirs := done.map (fun x => x.2.1) })
    let gone : List (Nat × Pte) := done.flatMap (fun x => x.2.2.map (fun e => (x.1, e)))
    let s := { s with pages := gone.foldl (fun l (x : Nat × Pte) => dropRef l x.2.da) s.pages }
    s.dropLab (fun l => l.box == g.box && l.stream == stream && gone.any (fun (x : Nat × Pte) => x.1 == l.layer && x.2.page == l.page))
  | _, _ => s

end Sys2Proof.Machine
end

