-- ==== Sys2Proof/Machine/Streams.lean ====
section
/-! DEFINITION. Streams as the fork-and-cull units keep them: headers and their check (R124, R125), arena slots and
eviction (R137 to R139), forks (R26, R132, R166) and mirrors sent to the buddy (R142). -/

namespace Sys2Proof.Machine

/-! ### Headers (R124, R125) -/

/-- A slot header with a fresh CRC; `n` gives GEN_STATE, STEP_COUNT, COMMIT_ROUND and LINEAGE. -/
def slotHeader (g : Group) (stream : Nat) (gen : W32) (stepCount round lineage : Nat) : BitVec 512 :=
  headerCrc (gen.toNat * 2 ^ 448 + stepCount % 2 ^ 32 * 2 ^ 416 + round % 2 ^ 48 * 2 ^ 368 + lineage % 2 ^ 16 * 2 ^ 352 +
    stream % 2 ^ 18 * 2 ^ 334 + g.index % 2 ^ 14 * 2 ^ 320 + g.slotUnits % 2 ^ 11 * 2 ^ 309 + 1)

def Slot.gen (a : Slot) : W32 := BitVec.ofNat 32 (bits a.hdr.toNat 479 448)
def Slot.stepCount (a : Slot) : Nat := bits a.hdr.toNat 447 416

/-- The header's check against the stream handle (R125): 1 format, 2 CRC or poison, 3 a field that differs. -/
def headerFault (p : Place) (a : Slot) : Option Nat :=
  let h := a.hdr.toNat
  if a.hdrBad then some 2
  else if bits h 7 0 ≠ 1 then some 1
  else if headerCrc h ≠ a.hdr then some 2
  else if bits h 351 334 ≠ p.stream ∨ bits h 367 352 ≠ p.lineage ∨ bits h 447 416 ≠ p.stepCount then some 3
  else none

/-- A failed header check: the stream becomes FAULTED, an event is recorded and HEADER_CHECK_FAILS advances (R125).
`core`: the core whose STATE page counts it; a free choice where the check is no core's. -/
def State.headerFailed (s : State) (stream why : Nat) (core : Option Nat) (tag : Option W64) : State :=
  let n := s.draw
  let home := (s.groupOf stream).elim 0 (fun g => g.home)
  let box := (s.groupOf stream).elim 0 (fun g => g.box)
  let s := n.2.modPlace stream (fun p => { p with faulted := true })
  let s := s.bump .state (core.getD (Config.freeChoice n.1 % 68)) 5 1
  s.event (match core with
    | some c => { pageRec .state c 0x0200 .error with box := some box, tag := tag, a := stream, b := why }
    | none => { pageRec .fork home 0x0200 .error with box := some box, tag := tag, a := stream, b := why })

/-! ### Arena slots (R137 to R139) -/

def State.arenaQuota (s : State) (b : Nat) : Nat := s.field .box b Reg.box_quotaArena 19 0 * mib
def State.arenaRoom (s : State) (b : Nat) : Nat := s.arenaQuota b - s.useArena b

/-- Bytes that moves in progress will free. -/
def State.arenaLeaving (s : State) (b : Nat) : Nat :=
  (s.places.filterMap (fun p => match s.group? p.group with
    | some g => if g.box = b ∧ p.live ∧ p.residency = .outbound then some g.slotSize else none
    | none => none)).sum

/-- Streams of a box that eviction may choose: RESIDENT and unheld. -/
def State.evictable (s : State) (b : Nat) : List Place :=
  s.places.filter (fun p => p.live && p.residency == .resident && !p.held && p.arena.isSome && s.boxOfPlace p == b)

/-- Place of lower group index, then lower place (R139). -/
def placeBefore (p q : Place) : Bool := decide (p.group < q.group ∨ (p.group = q.group ∧ p.place < q.place))

/-- The first of a list under an order. -/
def pickFirst {α : Type} (lt : α → α → Bool) : List α → Option α
  | [] => none
  | a :: l =>
    match pickFirst lt l with
    | none => some a
    | some b => if lt b a then some b else some a

/-- Items that pin a stream still (R138). -/
def State.pinners (s : State) (stream : Nat) : List Item :=
  s.items.filter (fun i => i.disp.isNone && (if i.isStep then i.unsettled.any (fun e => e.stream == stream)
    else i.kind == 0x02 && !i.opEnd && i.sources.contains stream))

/-- The earliest pinning item of a stream in the order of R257. -/
def State.firstPinner (s : State) (stream : Nat) : Option Item := pickFirst s.before (s.pinners stream)

/-- The victim of R139, and whether its move is forced. -/
def State.victim (s : State) (b : Nat) : Option (Nat × Bool) :=
  let l := s.evictable b
  match pickFirst (fun (p q : Place) => decide (p.lastUse < q.lastUse) || (p.lastUse == q.lastUse && placeBefore p q))
      (l.filter (fun p => p.pinCount == 0)) with
  | some p => some (p.stream, false)
  | none =>
    let pinned := (l.filter (fun p => p.pinCount != 0 &&
      s.field .fork ((s.groupOf p.stream).elim 0 (fun g => g.home)) Reg.fork_evictCtrl 0 0 == 1)).filterMap
        (fun p => (s.firstPinner p.stream).map (fun i => (p, i)))
    (pickFirst (fun (x y : Place × Item) => s.before y.2 x.2 ||
      (x.2.id == y.2.id && placeBefore x.1 y.1)) pinned).map (fun x => (x.1.stream, true))

/-- A stream's outbound move begins (R137): its window copy is dropped, its slot is held. -/
def State.beginOutbound (s : State) (stream : Nat) (forced : Bool) : State :=
  let home := (s.groupOf stream).elim 0 (fun g => g.home)
  let s := s.modPlace stream (fun p => { p with
    residency := .outbound, forced := forced, held := true, window := none, windowCore := none })
  if forced then (s.bump .fork home 2 1).event { pageRec .fork home 0x0201 .notice with
    box := (s.groupOf stream).map (fun g => g.box), a := stream } else s

/-- Evict until the bytes short are on their way out, or no victim is left; `fuel` bounds the victims. -/
def State.evictFor : Nat → State → Nat → Nat → State
  | 0, s, _, _ => s
  | fuel + 1, s, b, need =>
    if need ≤ s.arenaRoom b + s.arenaLeaving b then s
    else
      match s.victim b with
      | none => s
      | some v => State.evictFor fuel (s.beginOutbound v.1 v.2) b need

/-- May a request of item `i` take `need` bytes of arena now? Room is left and no request of the box that is ordered
before it waits (R139). -/
def State.mayTake (s : State) (i : Item) (k need : Nat) : Bool :=
  decide (need ≤ s.arenaRoom i.box) &&
    !s.arenaWait.any (fun w => w != (i.id, k) && (match s.item? w.1 with
      | some j => j.box == i.box && s.before j i
      | none => false))

/-- The request waits for room, victims chosen for it; a wait with no victim counts (R139, R150). -/
def State.waitArena (s : State) (i : Item) (k need home : Nat) : State :=
  let s := State.evictFor s.places.length s i.box need
  let fresh := !s.arenaWait.contains (i.id, k)
  let s := s.when (fresh && decide (s.arenaRoom i.box + s.arenaLeaving i.box < need)) (s.bump .fork home 7 1)
  let s : State := if fresh then { s with arenaWait := s.arenaWait ++ [(i.id, k)] } else s
  s.modItem i.id (fun j => { j with state := if j.disp.isNone then .started else j.state })

/-- The request no longer waits. -/
def State.unwait (s : State) (id k : Nat) : State := { s with arenaWait := s.arenaWait.erase (id, k) }

/-- A device address for a new arena slot: the firmware's choice among HBM addresses, never 0 (R126). -/
def arenaAddr (n : Nat) : Nat := (1 + Config.freeChoice n % (4 * dieSpan / 4096 - 1)) * 4096

/-! ### Forks (R26, R132, R166) -/

/-- Window space that copies on a core use, bytes (R149). -/
def State.windowUsed (s : State) (c : Nat) : Nat :=
  (s.places.filterMap (fun p => match s.group? p.group with
    | some g => if p.windowCore = some c then some g.slotSize else none
    | none => none)).sum

/-- The next lineage of a place (R15). -/
def nextLineage (l : Nat) : Nat := if 0xFFFE ≤ l then 0 else l + 1

/-- A live stream put into place `dst` as a fork of `src` (R26): slot, header, generator, pages shared, no tape. The
slot copied is the source's arena slot, or its poste restante slot while it has none. -/
def State.forkInto (s : State) (src dst : Nat) : State :=
  match s.place? src, s.place? dst, s.groupOf src with
  | some p, some q, some g =>
    match p.arena.or p.poste with
    | none => s
    | some a =>
      let l := nextLineage q.lineage
      let gen := genChild a.gen dst l
      let n := s.draw
      let bad := a.hdrBad || !a.poison.isEmpty
      let h := slotHeader g dst gen p.stepCount s.roundNow l
      let slot : Slot := { hdr := if bad then headerSet h 8 8 1 else h, payload := a.payload, poison := a.poison }
      let core := match p.windowCore with
        | some c => if s.windowUsed c + g.slotSize ≤ s.windowBytes c then some c else none
        | none => none
      let dirs := p.dirs.map (fun d => { d with pending := 0 })
      let s : State := { n.2 with pages := (dirs.flatMap (fun d => d.ptes.map (·.da))).foldl addRef n.2.pages }
      let s := s.modPlace dst (fun q => { q with
        live := true, lineage := l, faulted := bad, stepCount := p.stepCount, lastUse := s.roundNow, residency := .resident
        held := false, forced := false, arenaDa := arenaAddr n.1
        arena := some slot
        window := core.map (fun _ => slot), windowCore := core, poste := none, bornAt := p.stepCount, tapes := []
        dirs := dirs, mirror := if g.regMode = 0 ∨ g.adopted then .none else .inStep, mirrorSent := none, waitAt := none })
      s.flushLab g.box dst
  | _, _, _ => s

/-! ### Mirrors sent (R142) -/

/-- Directory entries of a stream as a mirror carries them. -/
def mirrorDirs (g : Group) (p : Place) : List MirrorDir :=
  p.dirs.filterMap (fun d => if d.valid then
    some { layer := d.layer, record := ((g.layers.find? (fun l => l.layer == d.layer)).map (fun l => l.record.toNat)).getD 0
           origin := d.origin, endTok := d.endTok, firstPage := d.firstPage
           pages := d.ptes.map (fun e => (e.page, e.fill, e.da)) }
  else none)

/-- Send the pages of a stream that its buddy lacks: each full page once, the partly filled ones at every commit. -/
def State.sendPages (s : State) (g : Group) (p : Place) : State :=
  (p.dirs.flatMap (fun d => d.ptes)).foldl (fun (s : State) (e : Pte) =>
    match s.page? e.da with
    | none => s
    | some k =>
      if k.mirrored then s
      else
        let s := s.sendMsg g.buddy 3 (.mirrorPage e.da k.run (k.data.getRun 0 k.run))
        if e.fill = 256 then s.modPage e.da (fun k => { k with mirrored := true }) else s) s

/-- A stream's slot, and its pages with REG_MODE 0b10, go to the buddy. -/
def State.emitMirror (s : State) (stream : Nat) : State :=
  match s.place? stream, s.groupOf stream with
  | some p, some g =>
    match p.arena.or p.poste with
    | none => s
    | some a =>
      let s := if g.regMode = 2 then s.sendPages g p else s
      let s := s.sendMsg g.buddy 3 (.mirror stream p.stepCount p.lineage a.gen.toNat
        (a.payload.getRun 0 (g.slotSize - 64)) (if g.regMode = 2 then mirrorDirs g p else []))
      (s.bump .fork g.home 5 1).modPlace stream (fun p => { p with mirrorSent := some s.time.t })
  | _, _ => s

/-- After a commit, fork or refill of a registered stream its mirror is sent, and the item's completion waits for the
acknowledgement. -/
def State.sendMirror (s : State) (id stream : Nat) : State :=
  match s.place? stream, s.groupOf stream with
  | some p, some g =>
    if g.regMode = 0 ∨ g.adopted ∨ !p.live ∨ p.mirror = .resync then s
    else (s.emitMirror stream).modItem id (fun i => { i with
      mirrorWait := if i.mirrorWait.contains stream then i.mirrorWait else i.mirrorWait ++ [stream] })
  | _, _ => s

end Sys2Proof.Machine
end

