-- ==== Sys2Proof/Machine/Items.lean ====
section
/-! DEFINITION. What items do (R18): groups opened and closed, forks (R25, R26), steps (R19 to R24, R133 to R136), culls
(R28 to R35), ends, parks and recalls (R137), backward passes (R36), kernels and barriers (R16), and deadlines (R259). -/

namespace Sys2Proof.Machine

/-- A wait of the item has begun, or one of its operations: it is STARTED (R258, R362). -/
def State.markStarted (s : State) (id : Nat) : State :=
  s.modItem id (fun i => { i with state := if i.disp.isNone then .started else i.state })

/-- The item's operation has taken effect. -/
def State.endOp (s : State) (id : Nat) : State := s.modItem id (fun i => { i with opEnd := true })

/-- Home die of the item's group. -/
def State.homeOf (s : State) (i : Item) : Nat := (i.groups.head?.bind s.group?).elim 0 (fun g => g.home)

/-! ### Residency of a stream that an entry needs (R137) -/

/-- Ask for a stream to be RESIDENT for entry `k`: an AWAY stream becomes INBOUND once it has an arena slot. -/
def State.bringIn (s : State) (i : Item) (k stream : Nat) : State :=
  match s.place? stream, s.groupOf stream with
  | some p, some g =>
    let s := (s.modPlace stream (fun p => { p with waitAt := p.waitAt.or (some s.time.t) })).markStarted i.id
    if p.residency ≠ .away then s
    else if s.mayTake i k g.slotSize then
      let n := (s.unwait i.id k).draw
      n.2.modPlace stream (fun p => { p with residency := .inbound, held := true, arena := some {}, arenaDa := arenaAddr n.1 })
    else s.waitArena i k g.slotSize g.home
  | _, _ => s

/-! ### STEP entries (R20, R21, R133 to R136) -/

def Item.entryFail (i : Item) (k : Nat) (r : Reason) (va : Nat := 0) : Fail :=
  { reason := r, entry := k, stream := (i.entry k).stream, va := va }

/-- LINEAGE and EXPECTED_STEP against a step count, and FAULTED without RESET (R20, R21). -/
def Entry.versionBad (e : Entry) (p : Place) (count : Nat) : Bool :=
  (e.lineage != 0xFFFF && e.lineage != p.lineage) || e.expStep != count || (p.faulted && !e.reset)

/-- The payload that RESET writes: zeros, or the image at RESET_STATE; the failure of one that cannot be read (R134). -/
def State.resetImage (s : State) (b va n : Nat) : Except Reason (Store 8) :=
  if va = 0 then .ok {}
  else if va % 64 ≠ 0 ∨ !s.mapped b va n false then .error .oob
  else if s.poisonedBox b va n then .error .poison
  else .ok (({} : Store 8).setRun 0 (s.readBox b va n))

/-- A RESIDENT stream's entry: the checks of R125 and R20, then RESET and HISTORY_CLEAR (R133 steps 2 to 4). -/
def State.enterStep (s : State) (i : Item) (k : Nat) (p : Place) (g : Group) : State :=
  let e := i.entry k
  let a := p.arena.getD {}
  let why := headerFault p a
  let s := match why with | some w => s.headerFailed e.stream w none (some i.tag) | none => s
  if why.isSome ∧ !e.reset then s.failEntry i.id k (i.entryFail k .poison)
  else if e.versionBad p (if why.isSome then p.stepCount else a.stepCount) then
    s.failEntry i.id k (i.entryFail k .stateVersion)
  else if !e.reset then
    (s.modPlace e.stream (fun p => { p with held := true, waitAt := none })).modEntry i.id k (fun e =>
      { e with st := .running, gen := a.gen })
  else
    match s.resetImage i.box e.resetVa (g.slotSize - 64) with
    | .error r => s.failEntry i.id k (i.entryFail k r e.resetVa)
    | .ok payload =>
      let gen := if why.isSome then genChild p.seed p.stream p.lineage else a.gen
      let slot : Slot := { hdr := slotHeader g p.stream gen p.stepCount s.roundNow p.lineage, payload := payload }
      let s := s.modPlace e.stream (fun p => { p with
        arena := some slot, window := p.window.map (fun _ => slot), faulted := false, lastUse := s.roundNow
        held := true, waitAt := none })
      let s := if e.historyClear then s.dropHistory e.stream else s
      (s.modEntry i.id k (fun e => { e with st := .running, begun := true, gen := gen })).markStarted i.id

/-- Entry `k` of a STEP takes effect, or goes on waiting (R20, R133, R135, R136). -/
def State.stepEntry (s : State) (id k : Nat) : State :=
  match s.item? id with
  | none => s
  | some i =>
    let e := i.entry k
    if e.st ≠ .waiting then s
    else
      match s.place? e.stream, s.groupOf e.stream with
      | some p, some g =>
        if !p.live then s.failEntry id k (i.entryFail k .stateVersion)
        else if e.pause then
          (if e.versionBad p p.stepCount then s.failEntry id k (i.entryFail k .stateVersion)
           else
             let s := s.leaveStep e true
             let after := s.afterOf e.stream
             let s := if e.endAfter then s.vacate e.stream else s
             s.modEntry id k (fun e => { e with st := .paused, after := after }))
        else if p.residency ≠ .resident then s.bringIn i k e.stream
        else s.enterStep i k p g
      | _, _ => s.failEntry id k (i.entryFail k .stateVersion)

/-- A group to be culled lacks one of its live places in the item (R29). -/
def State.cullMissing (s : State) (i : Item) : Bool :=
  i.cullFlag && (s.culledGroups i.groups).any (fun g => g.streams.any (fun t =>
    (s.place? t).any (fun p => p.live) && !i.streams.contains t))

/-! ### Commit (R20, R24, R123, R146, R164) -/

/-- Quotient of an FP32 value by a count, rounded to nearest even in FP32. -/
def fdivNat (a : W32) (n : Nat) : W32 :=
  match fv a with
  | .nan => f32nan
  | .inf b => f32 (.inf b)
  | .fin b m e => fquot b m n e

/-- Square root rounded to nearest even in FP32. -/
def fsqrt (a : W32) : W32 :=
  match fv a with
  | .nan => f32nan
  | .inf b => if b then f32nan else f32 (.inf false)
  | .fin b m e =>
    if m = 0 then a
    else if b then f32nan
    else
      let m' := if e % 2 = 0 then m else 2 * m
      let e' := if e % 2 = 0 then e else e - 1
      let n := m' * 2 ^ 160
      let q := isqrt n
      f32 (.fin false (2 * q + b2n (decide (q * q ≠ n))) (e' / 2 - 81))

/-- State RMS of an entry, and whether it lies outside its group's band (R146). -/
def Entry.rms (e : Entry) : W32 := fsqrt (fdivNat e.driftSum e.driftCount)
def outsideBand (g : Group) (rms : W32) : Bool := (fv rms).isNan || flt rms g.driftLo || flt g.driftHi rms

/-- The drift monitor at the commit of entry `k` (R146, R149). -/
def State.driftCheck (s : State) (i : Item) (k : Nat) (g : Group) : State :=
  let e := i.entry k
  if e.driftCount = 0 then s
  else
    let rms := e.rms
    let out := outsideBand g rms
    let c := e.core.getD 0
    let s := s.bump .state c 3 1
    let s := s.setReg (regAddr .state c Reg.state_driftLast) rms
    let s := s.setReg (regAddr .state c Reg.state_driftLastId)
      (BitVec.ofNat 32 (b2n out * 2 ^ 31 + g.box * 2 ^ 18 + e.stream))
    if out then
      ((s.bump .state c 4 1).event { pageRec .state c 0x0202 .warning with
        box := some g.box, tag := some i.tag, a := e.stream, b := rms.toNat }).modEntry i.id k (fun e => { e with drift := true })
    else s

/-- The new slot of a committed step: the window copy's payload, or the arena slot's where no kernel loaded it. -/
def Place.committedSlot (p : Place) (g : Group) (gen : W32) (count round : Nat) : Slot :=
  let w := (p.window.or p.arena).getD {}
  { w with hdr := slotHeader g p.stream gen count round p.lineage, hdrBad := false }

/-- Write a committed state back (R123): arena slot, window copy, handle. -/
def State.writeBack (s : State) (e : Entry) (p : Place) (g : Group) (count : Nat) : State :=
  let slot := p.committedSlot g e.gen count s.roundNow
  let s := match p.windowCore with | some c => s.bump .state c 2 1 | none => s
  s.modPlace p.stream (fun p => { p with
    arena := some slot, window := p.window.map (fun _ => slot), stepCount := count, lastUse := s.roundNow })

/-- Commit entry `k` of a STEP (R20, R24, R36, R136, R138, R142). -/
def State.commitStep (s : State) (i : Item) (k : Nat) : State :=
  let e := i.entry k
  match s.place? e.stream, s.groupOf e.stream with
  | some p, some g =>
    if p.stepCount = 0xFFFF_FFFF then s.failEntry i.id k (i.entryFail k .stateVersion)
    else
      let s := s.driftCheck i k g
      let s := s.writeBack e p g (p.stepCount + 1)
      let s := s.commitPages e.stream p.stepCount
      let s := s.modPlace e.stream (fun p' => { p' with
        tapes := if e.record then setInsert p'.tapes p.stepCount else p'.tapes })
      let s := s.leaveStep e true
      let after := s.afterOf e.stream
      let s := s.sendMirror i.id e.stream
      let s := if e.endAfter then s.vacate e.stream else s
      s.modEntry i.id k (fun e => { e with st := .committed, after := after })
  | _, _ => s.failEntry i.id k (i.entryFail k .stateVersion)

/-- The prefill of an OPEN_GROUP commits (R18, R157): place 0 holds as many steps as context frames, and every other
place takes its list areas. -/
def State.commitPrefill (s : State) (i : Item) : State :=
  let e := i.entry 0
  match s.place? e.stream, s.groupOf e.stream with
  | some p, some g =>
    let s := s.driftCheck i 0 g
    let lists : State := { s with places := s.places.map (fun q =>
      if q.group = g.index ∧ q.stream ≠ p.stream then { q with dirs := p.dirs.map (fun d =>
        { layer := d.layer, ringLog2 := d.ringLog2, sig := d.sig }) } else q) }
    if s.poolQuota g.box < lists.usePool g.box then s.failItem i.id (Fail.loadCheck 0x0607)
    else
      let s := lists.writeBack e p g g.frames
      let s := s.commitPages e.stream (g.frames - 1)
      let s := s.modPlace e.stream (fun p => { p with held := false })
      let s := s.modGroup g.index (fun g => { g with prefillDone := true })
      let s := s.sendMirror i.id e.stream
      s.modEntry i.id 0 (fun e => { e with st := .committed, after := s.afterOf e.stream })
  | _, _ => s.failItem i.id (Fail.loadCheck 0x0A05)

/-- STEP_COMMIT (R20, R123): a stream's new state, header and pages are written and its step count advances. -/
def execStepCommit (id k : Nat) (s : State) : Ans :=
  match s.item? id with
  | none => .next s
  | some i =>
    if i.disp.isSome ∨ k ≥ i.entries.length ∨ (i.entry k).st ≠ .ready then .next s
    else if i.kind = 0x01 then .next (s.commitPrefill i)
    else if i.isStep then .next (s.commitStep i k)
    else .next s

/-! ### OPEN_GROUP (R18, R132, R137) -/

/-- Place 0 becomes live with the initial state, once it has an arena slot (R18, R132). -/
def State.openTry (s : State) (i : Item) : State :=
  let t := (i.entry 0).stream
  match s.place? t, s.groupOf t with
  | some p, some g =>
    if p.live then s
    else
      let n := g.slotSize - 64
      let va := i.argC + 64
      if !s.mapped i.box va n false then s.failItem i.id { reason := .oob, va := va }
      else if s.poisonedBox i.box va n then s.failItem i.id { reason := .poison, va := va }
      else if !s.mayTake i 0 g.slotSize then s.waitArena i 0 g.slotSize g.home
      else
        let gen := genStart g.seed
        let slot : Slot :=
          { hdr := slotHeader g t gen 0 s.roundNow p.lineage, payload := ({} : Store 8).setRun 0 (s.readBox i.box va n) }
        let r := (s.unwait i.id 0).draw
        let s := r.2.modPlace t (fun p => { p with
          live := true, held := true, arena := some slot, arenaDa := arenaAddr r.1, lastUse := s.roundNow, stepCount := 0
          mirror := if g.regMode = 0 then .none else .inStep })
        (s.modEntry i.id 0 (fun e => { e with st := .running, begun := true, gen := gen })).markStarted i.id
  | _, _ => s.failItem i.id (Fail.loadCheck 0x0A05)

/-! ### FORK (R25, R26) -/

/-- R25 refuses the fork. -/
def State.forkBad (s : State) (src : Nat) (dsts : List Nat) : Bool :=
  match s.place? src with
  | none => true
  | some p => !p.live || p.faulted || !decide dsts.Nodup || dsts.contains src || dsts.any (fun d =>
      match s.place? d with
      | none => true
      | some q => q.group != p.group || q.live)

/-- A FORK takes effect as a whole once its source is RESIDENT and every destination has an arena slot. -/
def State.forkTry (s : State) (i : Item) : State :=
  if i.opEnd then s
  else
    let src := i.groupStream
    if s.forkBad src i.streams then s.failItem i.id (Fail.loadCheck 0)
    else
      match s.place? src, s.groupOf src with
      | some p, some g =>
        if p.residency ≠ .resident then s.bringIn i 0 src
        else
          let need := i.streams.length * g.slotSize
          let s := s.modPlace src (fun p => { p with waitAt := none })
          if !s.mayTake i 1 need then
            (s.modPlace src (fun p => { p with held := true })).waitArena i 1 need g.home
          else
            let s := (s.unwait i.id 1).markStarted i.id
            let s := i.streams.foldl (fun (s : State) d => s.forkInto src d) s
            let s := i.streams.foldl (fun (s : State) d => s.sendMirror i.id d) s
            let s := (s.unpin src).modPlace src (fun p => { p with held := false })
            let s := if i.retireFlag then s.vacate src else s
            s.endOp i.id
      | _, _ => s.failItem i.id (Fail.loadCheck 0)

/-! ### Culls (R28 to R35) -/

/-- A listed place with its refill source. -/
abbrev Refills := List (Nat × Nat)

/-- Bytes of arena that a cull frees and takes. -/
def State.cullFrees (s : State) (gone : List Nat) : Nat :=
  (gone.filterMap (fun t => match s.place? t, s.groupOf t with
    | some p, some g => if p.arena.isSome then some g.slotSize else none
    | _, _ => none)).sum

def State.cullTakes (s : State) (r : Refills) : Nat :=
  (r.filterMap (fun x => (s.groupOf x.2).map (fun g => g.slotSize))).sum

/-- Vacates and refills take effect together (R10), once the refills have room; none where they wait. `k` is the wait's
number. -/
def State.cullApply (s : State) (i : Item) (k : Nat) (gone : List Nat) (r : Refills) : Option State :=
  let need := s.cullTakes r - s.cullFrees gone
  if need = 0 ∨ s.mayTake i k need then
    let s := (s.unwait i.id k).markStarted i.id
    let s := gone.foldl (fun (s : State) t => s.vacate t) s
    let s := r.foldl (fun (s : State) x => s.forkInto x.2 x.1) s
    some (r.foldl (fun (s : State) x => s.sendMirror i.id x.1) s)
  else none

/-- A host-driven cull (R18, R35). -/
def State.cullTry (s : State) (i : Item) : State :=
  if i.opEnd then s
  else
    match s.groupOf i.groupStream with
    | none => s.failItem i.id (Fail.loadCheck 0)
    | some g =>
      let bad := i.streams.any (fun t => match s.place? t with
          | none => true
          | some p => p.group != g.index || !p.live) ||
        !decide i.streams.Nodup ||
        i.sources.any (fun t => match s.place? t with
          | none => true
          | some p => p.group != g.index || !p.live || p.faulted || i.streams.contains t) ||
        !(g.streams.any (fun t => !i.streams.contains t && (s.place? t).any (fun p => p.live)))
      if bad then s.failItem i.id (Fail.loadCheck 0)
      else
        let r : Refills := if i.refillFlag then i.streams.zip i.sources else []
        match s.cullApply i 0 i.streams r with
        | some s => s.endOp i.id
        | none => s.waitArena i 0 (s.cullTakes r - s.cullFrees i.streams) g.home

/-- How a place stands at a boundary cull: its entry committed with a score, its entry failed, or not ranked (R30). -/
inductive CullSt where
  | scored (v : W32)
  | failed
  | unranked
  deriving DecidableEq, Repr

/-- Address of slice `k` of an item tensor's outermost dimension. -/
def TensorDesc.sliceVa (t : TensorDesc) (k : Nat) : Nat :=
  if t.rank = 1 then t.base + k * t.f.bytes else t.base + k * t.stride.getD (t.rank - 2) 0

/-- The score of entry `k`: the first FP32 element of slice `k`; a free value where it cannot be read. -/
def State.scoreOf (s : State) (i : Item) (g : Group) (k : Nat) : W32 :=
  match (i.tensors[g.scoreOutput]?).join with
  | none => Config.freeWord s.freeCount k
  | some t =>
    let va := t.sliceVa k
    if s.mapped i.box va 4 false ∧ !s.poisonedBox i.box va 4 then BitVec.ofNat 32 (s.readNum i.box va 4)
    else Config.freeWord s.freeCount k

/-- Standing of a place of a culled group. -/
def State.cullSt (s : State) (i : Item) (g : Group) (t : Nat) : CullSt :=
  match i.entries.findIdx? (fun e => e.stream == t), s.place? t with
  | some k, some p =>
    if !p.live then .unranked
    else
      match (i.entry k).st with
      | .committed => .scored (s.scoreOf i g k)
      | .failed _ => .failed
      | _ => .unranked
  | _, _ => .unranked

/-- Score order (R30): is place `a` ranked before place `b`? -/
def rankBefore (high : Bool) (a b : Nat × CullSt) : Bool :=
  let val := fun (c : CullSt) => match c with | .scored v => fv v | _ => .nan
  let x := val a.2
  let y := val b.2
  match x.isNan, y.isNan with
  | true, true => decide (a.1 < b.1)
  | true, false => false
  | false, true => true
  | false, false => if x.eqv y then decide (a.1 < b.1) else if high then y.lt x else x.lt y

/-- Insertion of a place into the ranking. -/
def cullInsert (high : Bool) (a : Nat × CullSt) : List (Nat × CullSt) → List (Nat × CullSt)
  | [] => [a]
  | b :: l => if rankBefore high a b then a :: b :: l else b :: cullInsert high a l

/-- What a boundary cull decides for one group (R30 to R32): place indices. -/
structure CullPlan where
  states : List CullSt
  /-- Place indices by rank, best first. -/
  ranking : List Nat
  gone : List Nat
  /-- Vacated place and the survivor it is refilled from. -/
  refills : List (Nat × Nat)
  deriving DecidableEq, Repr

def planCull (g : Group) (states : List CullSt) : CullPlan :=
  let rows := states.zipIdx.map (fun x => (x.2, x.1))
  let ranked := rows.foldl (fun l r => if r.2 = .unranked then l else cullInsert g.highBest r l) []
  let failed := (rows.filter (fun r => r.2 == .failed)).map (·.1)
  let committed := (ranked.filter (fun r => r.2 != .failed)).map (·.1)
  let out := min (g.cullCount - failed.length) (committed.length - 1)
  let survivors := committed.take (committed.length - out)
  let gone := (rows.map (·.1)).filter (fun k => failed.contains k || (committed.drop (committed.length - out)).contains k)
  let refills := match g.refill, survivors with
    | .none, _ => []
    | _, [] => []
    | .best, b :: _ => gone.map (fun k => (k, b))
    | .ranked, l => gone.zipIdx.map (fun x => (x.1, l.getD (x.2 % l.length) 0))
  { states := states, ranking := ranked.map (·.1), gone := gone, refills := refills }

/-- A cull record (R34). -/
def cullRecord (s : State) (g : Group) (p : CullPlan) (k : Nat) (free : Nat) : Nat :=
  let t := g.streams.getD k 0
  let src := (p.refills.find? (fun r => r.1 == k)).map (·.2)
  let st := p.states.getD k .unranked
  let outcome := if st = .unranked then 3 else if src.isSome then 1 else if p.gone.contains k then 2 else 0
  let rank := match p.ranking.findIdx? (· == k) with | some r => r | none => 0xFFFF
  let score := match st with | .scored v => v.toNat | .failed => 0x7FC0_0000 | .unranked => (Config.freeWord free k).toNat
  (src.elim 0x3FFFF (fun x => g.streams.getD x 0)) * 2 ^ 110 + (s.place? t).elim 0 (fun q => q.lineage) * 2 ^ 80 +
    rank * 2 ^ 64 + score * 2 ^ 32 + outcome * 2 ^ 24 + t

/-- The records of the culled groups written to the item's area (R34). -/
def State.writeCulls (s : State) (i : Item) (plans : List (Group × CullPlan)) : State :=
  if i.cullVa = 0 then s
  else
    let n := s.draw
    n.2.writeBox i.box i.cullVa ((plans.flatMap (fun x =>
      (List.range x.1.streams.length).map (fun k => leBytes 16 (cullRecord n.2 x.1 x.2 k n.1)))).flatten)

/-- The boundary cull of a STEP whose entries are all settled (R29 to R32). -/
def State.boundaryCull (s : State) (i : Item) : State :=
  let d := s.draw
  let plans := (s.culledGroups i.groups).map (fun g => (g, planCull g (g.streams.map (s.cullSt i g))))
  let gone := plans.flatMap (fun x => x.2.gone.map (fun k => x.1.streams.getD k 0))
  let r : Refills := plans.flatMap (fun x => x.2.refills.map (fun y => (x.1.streams.getD y.1 0, x.1.streams.getD y.2 0)))
  match d.2.cullApply i i.entries.length gone r with
  | some s => (s.writeCulls i plans).modItem i.id (fun i => { i with culled := true })
  | none => s.waitArena i i.entries.length (s.cullTakes r - s.cullFrees gone) (s.homeOf i)

/-- May the boundary cull run? -/
def Item.cullDue (i : Item) : Bool :=
  i.isStep && i.disp.isNone && i.took && i.cullFlag && !i.culled && i.entries.all (fun e =>
    match e.st with | .committed | .paused | .failed _ => true | _ => false)

/-- BOUNDARY_CULL (R29, R31): runs once every entry has committed or failed. -/
def execBoundaryCull (id : Nat) (s : State) : Ans :=
  match s.item? id with
  | none => .next s
  | some i => .next (s.when i.cullDue (s.boundaryCull i))

/-! ### END, PARK and RECALL (R18, R137) -/

/-- Entry `k` is settled: committed or skipped. -/
def State.settle (s : State) (id k : Nat) (pinned : Bool) : State :=
  s.modEntry id k (fun e => { e with st := .committed, pinned := pinned, after := s.afterOf e.stream })

/-- One entry of a PARK (R23, R137). -/
def State.parkEntry (s : State) (id k : Nat) : State :=
  match s.item? id with
  | none => s
  | some i =>
    let e := i.entry k
    if e.st ≠ .waiting then s
    else
      match s.place? e.stream with
      | none => s.settle id k false
      | some p =>
        if !p.live then s.settle id k false
        else
          match p.residency with
          | .away => s.settle id k false
          | .outbound | .inbound => s
          | .resident =>
            if p.pinCount ≠ 0 then
              (s.bump .fork ((s.groupOf e.stream).elim 0 (fun g => g.home)) 4 1).settle id k true
            else if p.held then s
            else (s.beginOutbound e.stream false).markStarted id

/-- One entry of a RECALL. -/
def State.recallEntry (s : State) (id k : Nat) : State :=
  match s.item? id with
  | none => s
  | some i =>
    let e := i.entry k
    if e.st ≠ .waiting then s
    else
      match s.place? e.stream with
      | none => s.settle id k false
      | some p =>
        if !p.live then s.settle id k false
        else if p.residency = .resident then
          (s.modPlace e.stream (fun p => { p with waitAt := none })).settle id k false
        else s.bringIn i k e.stream

/-- Every entry of an item in turn. -/
def State.eachEntry (s : State) (i : Item) (f : State → Nat → Nat → State) : State :=
  (List.range i.entries.length).foldl (fun s k => f s i.id k) s

/-- An END: every listed place vacated, vacant places skipped. -/
def State.endEntries (s : State) (i : Item) : State :=
  (s.eachEntry i (fun s id k =>
    let t := (i.entry k).stream
    let after := s.afterOf t
    let s := if (s.place? t).any (fun p => p.live) then s.vacate t else s
    s.modEntry id k (fun e => { e with st := .committed, after := after }))).endOp i.id

/-! ### What waits goes on -/

/-- An item in effect whose waits may have ended goes on (R137, R139). -/
def State.advanceItem (s : State) (id : Nat) : State :=
  match s.item? id with
  | none => s
  | some i =>
    if i.disp.isSome ∨ !i.took then s
    else if i.kind = 0x01 then s.openTry i
    else if i.kind = 0x02 then s.forkTry i
    else if i.kind = 0x03 then
      (let s := s.eachEntry i State.stepEntry
       if s.arenaWait.contains (id, i.entries.length) ∧ i.cullDue then s.boundaryCull i else s)
    else if i.kind = 0x04 then s.cullTry i
    else if i.kind = 0x07 then s.eachEntry i State.parkEntry
    else if i.kind = 0x08 then s.eachEntry i State.recallEntry
    else s

/-! ### Taking effect (R16, R18) -/

/-- An item of kind `kind` that R16 lets take effect does so: `f` on the state in which it is marked. An item whose
group has been released since its admission fails with LOAD_CHECK (R18). -/
def State.takeEffect (s : State) (id kind : Nat) (f : State → Item → State) : State :=
  match s.item? id with
  | none => s
  | some i =>
    if i.kind ≠ kind ∨ i.took ∨ i.pos ≠ s.pos ∨ !s.ready i then s
    else if i.gone then s.failItem id (Fail.loadCheck 0x0A05)
    else f (s.modItem id (fun i => { i with took := true })) { i with took := true }

/-- OPEN_GROUP (R18). -/
def execOpenGroup (id : Nat) (s : State) : Ans := .next (s.takeEffect id 0x01 State.openTry)

/-- FORK (R25, R26). -/
def execFork (id : Nat) (s : State) : Ans := .next (s.takeEffect id 0x02 State.forkTry)

/-- STEP (R20, R29). -/
def execStep (id : Nat) (s : State) : Ans :=
  .next (s.takeEffect id 0x03 (fun s i =>
    if s.cullMissing i then s.failItem id (Fail.loadCheck 0) else s.eachEntry i State.stepEntry))

/-- CULL (R35). -/
def execCull (id : Nat) (s : State) : Ans := .next (s.takeEffect id 0x04 State.cullTry)

/-- END (R18). -/
def execEndStreams (id : Nat) (s : State) : Ans := .next (s.takeEffect id 0x05 State.endEntries)

/-- CLOSE_GROUP (R18): the group and its identifiers are released. -/
def execCloseGroup (id : Nat) (s : State) : Ans :=
  .next (s.takeEffect id 0x06 (fun s i =>
    match i.group with
    | some g => (s.releaseGroup g).endOp id
    | none => s.failItem id (Fail.loadCheck 0x0A05)))

/-- PARK (R23, R137). -/
def execPark (id : Nat) (s : State) : Ans := .next (s.takeEffect id 0x07 (fun s i => s.eachEntry i State.parkEntry))

/-- RECALL (R137). -/
def execRecall (id : Nat) (s : State) : Ans := .next (s.takeEffect id 0x08 (fun s i => s.eachEntry i State.recallEntry))

/-- A BACKWARD cannot begin (R36): a step named without a tape, before the stream's fork or refill, or a LINEAGE that
does not match; or the group has no backward list. -/
def State.backwardBad (s : State) (i : Item) : Bool :=
  i.entries.any (fun e => match s.place? e.stream, s.groupOf e.stream with
    | some p, some g => !p.live || g.backward.isEmpty || (e.lineage != 0xFFFF && e.lineage != p.lineage) ||
        decide (i.countB < p.bornAt) ||
        !((List.range (i.countC + 1)).all (fun n => p.tapes.contains (i.countB + n)))
    | _, _ => true)

/-- BACKWARD (R36): each entry runs its group's backward list from the last step down. -/
def execBackward (id : Nat) (s : State) : Ans :=
  .next (s.takeEffect id 0x09 (fun s i =>
    if s.backwardBad i then s.failItem id (Fail.loadCheck 0)
    else s.modItem id (fun i => { i with entries := i.entries.map (fun e =>
      { e with st := .running, step := i.countB + i.countC }) })))

/-- KERNEL (R18, R103). -/
def execKernel (id : Nat) (s : State) : Ans :=
  .next (s.takeEffect id 0x0A (fun s i =>
    s.modItem i.id (fun i => { i with entries := i.entries.map (fun e => { e with st := .running }) })))

/-- SYNC (R16): every item of the box admitted before it has its disposition. -/
def execSync (id : Nat) (s : State) : Ans := .next (s.takeEffect id 0x0B (fun s i => s.endOp i.id))

/-- DEADLINE_REACHED (R259). -/
def execDeadlineReached (id : Nat) (s : State) : Ans :=
  match s.item? id with
  | none => .next s
  | some i =>
    match i.deadline with
    | none => .next s
    | some d =>
      let s : State := { s with time := { s.time with t := max s.time.t d } }
      if i.disp.isSome then .next s
      else if i.soft then .next (s.modItem id (fun i => { i with late := true }))
      else
        .next ((s.when (decide (i.state = .started)) (s.bump .disp (s.homeOf i) 6 1)).failItem id { reason := .deadline })

end Sys2Proof.Machine
end

