-- ==== Sys2Proof/Machine/Residency.lean ====
section
/-! DEFINITION. Residency moves (R137, R141), waits for arena slots (R139), and registered streams: mirrors acknowledged,
timed out, taken for another module and adopted (R142 to R144). -/

namespace Sys2Proof.Machine

/-! ### Moves (R137, R141) -/

/-- Items in effect that name a stream, in the order of R257. -/
def State.waitersOf (s : State) (stream : Nat) : List Nat :=
  ((s.items.filter (fun i => i.disp.isNone && i.took &&
    (i.streams.contains stream || i.sources.contains stream))).foldl (fun l i =>
      l.takeWhile (fun j => s.before j i) ++ i :: l.dropWhile (fun j => s.before j i)) []).map (·.id)

def State.advanceAll (s : State) (ids : List Nat) : State := ids.foldl State.advanceItem s

/-- The copy of a slot that a move leaves: poison travels with it (R141). -/
def Slot.bad (a : Slot) : Bool := a.hdrBad || !a.poison.isEmpty

/-- OUTBOUND_MOVE_DONE (R137): AWAY, the arena slot released; requests that waited go on. -/
def execOutboundMoveDone (stream : Nat) (s : State) : Ans :=
  match s.place? stream, s.groupOf stream with
  | some p, some g =>
    if !p.live ∨ p.residency ≠ .outbound then .next s
    else
      let a := p.arena.getD {}
      let s := (s.bump .fork g.home 0 1).modPlace stream (fun p => { p with
        residency := .away, held := false, poste := some a, arena := none, arenaDa := 0
        faulted := p.faulted || a.bad })
      let s := s.flushLab g.box stream
      .next (s.advanceAll (s.waitersOf stream))
  | _, _ => .next s

/-- Entries that waited for a stream whose inbound move failed its check: they fail with POISON, but for a STEP entry
with RESET (R137), and a PARK, which waits for RESIDENT only. -/
def State.failWaiters (s : State) (stream : Nat) : State :=
  (s.waitersOf stream).foldl (fun (s : State) id =>
    match s.item? id with
    | none => s
    | some i =>
      if i.kind = 0x02 then
        (if i.sources.contains stream ∧ !i.opEnd then s.failItem id { reason := .poison, stream := stream } else s)
      else if i.kind = 0x03 ∨ i.kind = 0x08 then
        (List.range i.entries.length).foldl (fun (s : State) k =>
          let e := i.entry k
          if e.stream = stream ∧ e.st = .waiting ∧ !e.pause ∧ (i.kind = 0x08 ∨ !e.reset) then
            s.failEntry id k (i.entryFail k .poison)
          else s) s
      else s) s

/-- INBOUND_MOVE_DONE (R125, R137, R141): the header is checked and the stream is RESIDENT. -/
def execInboundMoveDone (stream : Nat) (s : State) : Ans :=
  match s.place? stream, s.groupOf stream with
  | some p, some g =>
    if !p.live ∨ p.residency ≠ .inbound then .next s
    else
      let a := p.poste.getD {}
      let why := headerFault p a
      let s := (s.bump .fork g.home 1 1).bump .fork g.home 3 (match p.waitAt with | some w => s.time.t - w | none => 0)
      let s := s.modPlace stream (fun p => { p with
        residency := .resident, held := false, arena := some a, poste := none, waitAt := none
        lastUse := if why.isNone && !a.bad then s.roundNow else p.lastUse
        faulted := p.faulted || a.bad })
      let s := match why with | some w => s.headerFailed stream w none none | none => s
      let s := if why.isSome || a.bad then s.failWaiters stream else s
      .next (s.advanceAll (s.waitersOf stream))
  | _, _ => .next s

/-- ARENA_WAIT_RESUME (R139): the request of the box that comes first in order is tried again. -/
def execArenaWaitResume (box : Nat) (s : State) : Ans :=
  match pickFirst s.before ((s.arenaWait.filterMap (fun w => s.item? w.1)).filter (fun i => i.box == box)) with
  | none => .next s
  | some i => .next (s.advanceItem i.id)

/-! ### Mirrors of this module's streams (R142, R144) -/

/-- A stream's mirror no longer holds back its items' completions; those with nothing left to wait for are posted. -/
def State.releaseMirror (s : State) (stream : Nat) : State :=
  (s.items.filter (fun i => i.mirrorWait.contains stream)).foldl (fun (s : State) i =>
    let left := i.mirrorWait.filter (· ≠ stream)
    let s := s.modItem i.id (fun i => { i with mirrorWait := left })
    match i.disp with
    | some (.done _) => if left = [] then s.postItem i.id else s
    | _ => s) s

/-- MIRROR_ACK (R142). -/
def execMirrorAck (stream : Nat) (s : State) : Ans :=
  match s.place? stream with
  | none => .next s
  | some p =>
    .next (s.when p.mirrorSent.isSome
      ((s.modPlace stream (fun p => { p with mirrorSent := none, mirror := .inStep })).releaseMirror stream))

/-- MIRROR_TIMEOUT in ns; values below 10 µs act as 10 (R150). -/
def State.mirrorTimeout (s : State) (home : Nat) : Nat := 1000 * max 10 (s.field .fork home Reg.fork_mirrorTimeout 15 0)

/-- MIRROR_TIMEOUT (R142): the stream is unprotected, and the completion is posted. -/
def execMirrorTimeout (stream : Nat) (s : State) : Ans :=
  match s.place? stream, s.groupOf stream with
  | some p, some g =>
    match p.mirrorSent with
    | none => .next s
    | some sent =>
      let s : State := { s with time := { s.time with t := max s.time.t (sent + s.mirrorTimeout g.home) } }
      let s := s.modPlace stream (fun p => { p with mirrorSent := none, mirror := .unprotected })
      let s := (s.bump .fork g.home 6 1).event { pageRec .fork g.home 0x0203 .warning with
        box := some g.box, a := stream, b := g.buddy }
      .next (s.releaseMirror stream)
  | _, _ => .next s

/-- MIRROR_RESYNC (R144, R256): in a quiet window, a whole mirror goes to the new buddy; the stream is in step once it
is acknowledged. -/
def execMirrorResync (stream : Nat) (s : State) : Ans :=
  match s.place? stream with
  | none => .next s
  | some p => .next (s.when (p.live && p.mirror == .resync && p.mirrorSent.isNone && s.time.window.isSome) (s.emitMirror stream))

/-! ### Groups registered here for another module (R142, R143) -/

/-- A registration: the identifiers, a poste restante slot for each place and the loaded lists are reserved here, within
the box's quotas; nothing where they cannot be. -/
def State.registerGuest (s : State) (src box frames : Nat) (streams : List Nat) (block params : Nat) : State :=
  let i : Item := { id := 0, tag := 0, box := box, ring := 0, count := 0, kind := 0x01, streams := streams }
  if 64 ≤ box ∨ (s.openLimits i block).isSome ∨
      s.field .box box Reg.box_quotaGroups 14 0 ≤ s.useGroups box ∨
      s.field .box box Reg.box_quotaPlaces 18 0 < s.usePlaces box + streams.length ∨
      s.field .box box Reg.box_quotaPoste 15 0 * gib < s.usePoste box + streams.length * (bits params 18 8) * 4096 then s
  else
    match s.loadList box .step none (bits block 463 416) with
    | .error _ => s
    | .ok (step, back) =>
      let bl : Except Fail (List KEntry × Nat) := if back = 0 then .ok ([], 0) else s.loadList box .backward none back
      match bl with
      | .error _ => s
      | .ok (l, _) =>
        let g := s.openGroup i block params ([], step, l)
        g.2.modGroup g.1 (fun g => { g with guest := (some src), frames := frames })

/-- Is the stream of position `src` registered here? -/
def State.isGuest (s : State) (src stream : Nat) : Bool :=
  match s.groupOf stream with
  | some g => g.guest == some src
  | none => false

/-- A whole mirror taken (R142): it replaces the one held. -/
def State.takeMirror (s : State) (m : MirrorHeld) : State :=
  if s.isGuest m.src m.stream then
    { s with mirrors := m :: s.mirrors.filter (fun x => !(x.src == m.src && x.stream == m.stream)) }
  else s

def State.takeMirrorPage (s : State) (p : MirrorPage) : State :=
  { s with mirrorPages := p :: s.mirrorPages.filter (fun x => !(x.src == p.src && x.key == p.key)) }

/-- Directory of an adopted stream: the pages mirrored, under new pool pages shared as they were. -/
def State.adoptDirs (s : State) (src : Nat) (g : Group) (m : MirrorHeld) : State :=
  if g.regMode ≠ 2 then s
  else
    m.dirs.foldl (fun (s : State) (d : MirrorDir) =>
      let keys := d.pages.filter (fun x => s.mirrorPages.any (fun y => y.src == src && y.key == x.2.2))
      let key := fun (k : Nat) => 2 ^ 64 + src * 2 ^ 48 + k
      let s := keys.foldl (fun (s : State) x =>
        match s.mirrorPages.find? (fun y => y.src == src && y.key == x.2.2) with
        | none => s
        | some y =>
          if (s.page? (key x.2.2)).isSome then { s with pages := addRef s.pages (key x.2.2) }
          else { s with pages := { da := key x.2.2, box := g.box, run := y.run, refs := 1
                                   data := ({} : Store 8).setRun 0 y.data } :: s.pages }) s
      let r := LayerRec.ofNat d.record
      let sig := crc32c (leBytes 16 d.record)
      let dir : LayerDir :=
        { newDir r sig with
          valid := true, origin := d.origin, endTok := d.endTok, firstPage := d.firstPage
          ptes := keys.map (fun x => { page := x.1, fill := x.2.1, da := key x.2.2, run := r.run }) }
      let s := s.modPlace m.stream (fun p => { p with dirs := p.dirs ++ [dir] })
      let fix : LayerFix := { layer := d.layer, record := BitVec.ofNat 128 d.record, sig := sig }
      s.modGroup g.index (fun g =>
        if g.layers.any (fun l => l.layer == d.layer) then g else { g with layers := g.layers ++ [fix] })) s

/-- A stream whose mirror is whole becomes AWAY from it (R143). Whether the home module held it unprotected, and so it
is FAULTED, is not known here: a free choice (log 34). -/
def State.adoptStream (s : State) (src : Nat) (g : Group) (m : MirrorHeld) : State :=
  let n := s.draw
  let bad := decide (Config.freeChoice n.1 % 2 = 1)
  let h := slotHeader g m.stream (BitVec.ofNat 32 m.gen) m.stepCount n.2.roundNow m.lineage
  let s := n.2.modPlace m.stream (fun p => { p with
    live := true, residency := .away, stepCount := m.stepCount, lineage := m.lineage, faulted := bad, mirror := .none
    bornAt := m.stepCount, tapes := [], lastUse := n.2.roundNow, arena := none, window := none, windowCore := none
    poste := some { hdr := if bad then headerSet h 8 8 1 else h, payload := ({} : Store 8).setRun 0 m.payload } })
  s.adoptDirs src g m

/-- Every group registered here for position `src` is adopted (R143). -/
def State.adopt (s : State) (src : Nat) : State :=
  let gs := s.groups.filter (fun g => g.guest == some src)
  let s := gs.foldl (fun (s : State) g =>
    let s := s.modGroup g.index (fun g => { g with guest := none, adopted := true, prefillDone := true })
    (s.mirrors.filter (fun m => m.src == src && g.streams.contains m.stream)).foldl (fun (s : State) m =>
      s.adoptStream src g m) s) s
  { s with mirrors := s.mirrors.filter (fun m => m.src != src)
           mirrorPages := s.mirrorPages.filter (fun p => p.src != src) }

/-- ADOPTION (R143): of the groups of a position that has been declared dead. -/
def execAdoption (pos : Nat) (s : State) : Ans :=
  .next (s.when (decide (s.fab.members.getD pos .absent = .dead)) (s.adopt pos))

end Sys2Proof.Machine
end

