-- ==== Sys2Proof/Machine/Fabric.lean ====
section
/-! DEFINITION. Member links (R278 to R285, R423), packets received (R281 to R284, R290) and end-to-end delivery (R287):
forwarded items, results, bulk data and time. -/

namespace Sys2Proof.Machine

/-! ### Member link states (R280) -/

/-- A position's bundle states as it reports them. -/
def State.noteBundle (s : State) (p d st : Nat) (lost : Bool) : State :=
  s.setFab (fun f => { f with
    bundles := (p, d, st) :: f.bundles.filter (fun b => !(b.1 == p && b.2.1 == d))
    lostReports := if lost then (p, d) :: f.lostReports.filter (· ≠ (p, d)) else f.lostReports.filter (· ≠ (p, d)) })

/-- A change of the bundle of `port` from state `old` is reported (R288 step 1). -/
def State.bundleChange (s : State) (port : Nat) (old : BundleSt) : State :=
  let d := (portDir s.systemSize port).1
  let new := s.bundle d
  if new = old then s
  else
    let s := (s.changed .link port).noteBundle s.pos d new.code false
    if s.fab.role = .none then s else s.floodMsg (.bundleReport s.pos d new.code false)

/-- A member link in another state, its bundle's change reported. -/
def State.moveLink (s : State) (port : Nat) (f : Link → Link) : State :=
  let old := s.bundle (portDir s.systemSize port).1
  ((s.modLink port f).changed .link port).bundleChange port old

/-- LINK_CTRL.ENABLE of a port. -/
def State.linkEnabled (s : State) (port : Nat) : Bool := bit (s.regN .link port Reg.link_linkCtrl) 0

/-- LINK_DETECT (R280, R423): lane codes kept; TRAIN where all four lanes show termination. -/
def execLinkDetect (port d0 d1 d2 d3 : Nat) (s : State) : Ans :=
  let codes := [d0, d1, d2, d3]
  .next (s.when (decide (port < 24 ∧ (s.link port).st = .detect) && s.linkEnabled port && codes.all (fun c => decide (c < 6)))
    (s.moveLink port (fun l => { l with
      lanes := codes, lanesOk := 0, polarity := false, reversed := false
      st := if codes.all (fun c => c == 0 || c == 5) then .train else .detect })))

/-- The far end that R277 gives for a port: position and port; none outside the declared size. -/
def State.farEnd (s : State) (port : Nat) : Option (Nat × Nat) :=
  let n := s.systemSize
  if s.pos < n then some (neighbour n s.pos (portDir n port).1, farPort n port) else none

/-- LINK_TRAIN_DONE (R278): positions and ports are exchanged; any far end but R277's is MISWIRED. A FENCED or JOINING port
trains anew with a far end that has been reset (R298 step 2). -/
def execLinkTrainDone (port farPos farPort farStepping : Nat) (polarity reversed : Bool) (s : State) : Ans :=
  let l := s.link port
  if ¬ (port < 24 ∧ (l.st = .train ∨ l.st = .retrain ∨ l.st = .fenced ∨ l.st = .joining) ∧ s.linkEnabled port) then .next s
  else
    let ok := decide (s.farEnd port = some (farPos, farPort))
    let s := s.moveLink port (fun l => { l with
      st := if ok then .negotiate else .miswired
      lanesOk := 15, polarity := polarity, reversed := reversed
      nPos := farPos % 64, nPort := farPort % 32, nStepping := farStepping % 2 })
    .next (s.when (!ok) (s.event { pageRec .link port 0x0701 .error with a := farPos, b := farPort }))

/-- Highest link protocol version of this module (R285): 1 for 1.0, 2 for 1.1. -/
def State.ownVersion (s : State) : Nat := match s.stepping with | .A1 => 1 | .B0 => 2

/-- The state into which negotiation leads, by the far end's member state (R280): UP before formation and with a member;
else FENCED or JOINING, a choice the spec leaves open (log 35). -/
def State.linkGoal (s : State) (far : Nat) : LinkSt × State :=
  if s.fab.role = .none ∨ s.forwards far then (.up, s)
  else
    let n := s.draw
    (if Config.freeChoice n.1 % 2 = 0 then .fenced else .joining, n.2)

/-- A member comes UP: sequence numbers and credits start afresh, and what waits goes out. -/
def Link.bringUp (l : Link) (st : LinkSt) : Link :=
  { l with st := st, nextLseq := 0, expectLseq := 0, replays := 0, credits := List.replicate 16 64, shared := 2048 }

/-- LINK_NEGOTIATE (R285): the lower version, and under a formed system the system's. -/
def execLinkNegotiate (port farVersion : Nat) (s : State) : Ans :=
  let l := s.link port
  if ¬ (port < 24 ∧ l.st = .negotiate ∧ 1 ≤ farVersion) then .next s
  else
    let v := min s.ownVersion farVersion
    let v := if s.fab.sysVer = 0 then v else min v s.fab.sysVer
    let g := s.linkGoal l.nPos
    let s := g.2.moveLink port (fun l => { (l.bringUp g.1) with version := v })
    .next ((State.pumpPort (s.link port).txWait.length s port).releaseWaiting)

/-- A member leaves UP (R280, R284): recorded and counted; its packets go to another member of the bundle, or wait. -/
def State.leaveUp (s : State) (port : Nat) (st : LinkSt) : State :=
  let l := s.link port
  let moved := l.replay.map (fun r => r.pkt) ++ l.txWait
  let s := s.moveLink port (fun l => { l with st := st, replay := [], txWait := [], replays := 0, lanesOk := 0 })
  let s := (s.bump .link port 10 1).event { pageRec .link port 0x0700 .warning with a := st.code }
  let d := (portDir s.systemSize port).1
  moved.foldl (fun (s : State) p =>
    match s.leastPort d with
    | some q => s.queueOn q p
    | none => s.setFab (fun f => { f with waiting := f.waiting ++ [(d, p)] })) s

/-- LINK_RETRAIN (R280, R284): for a lost lock, RETRY_LIMIT replays without progress, or RETRAIN written. -/
def execLinkRetrain (port reason : Nat) (s : State) : Ans :=
  let l := s.link port
  .next (s.when (decide (port < 24 ∧ l.st = .up ∧ reason ≤ 2 ∧ (reason = 1 → 8 ≤ l.replays))) (s.leaveUp port .retrain))

/-- RETRAIN (R278, R280): LINK_CTRL.RETRAIN; a MISWIRED port trains anew. -/
def State.retrainPort (s : State) (port : Nat) : State :=
  if (s.link port).st = .up then s.leaveUp port .retrain
  else if (s.link port).st = .miswired then s.moveLink port (fun l => { l with st := .retrain })
  else s

def execRetrain (port : Nat) (s : State) : Ans := .next (s.when (decide (port < 24)) (s.retrainPort port))

/-- RETRAIN_TIMEOUT (R280): 1 ms passes. -/
def execRetrainTimeout (port : Nat) (s : State) : Ans :=
  .next (s.when (decide (port < 24 ∧ (s.link port).st = .retrain)) (s.moveLink port (fun l => { l with st := .down })))

/-- LINK_DOWN_RETRY (R280, R423): 10 ms after going DOWN, and every 10 ms for a member that does not train. -/
def execLinkDownRetry (port : Nat) (s : State) : Ans :=
  .next (s.when (decide (port < 24 ∧ ((s.link port).st = .down ∨ (s.link port).st = .train)))
    (s.moveLink port (fun l => { l with st := .detect })))

/-- LINK_ENABLE_WRITE (R280, R421): setting ENABLE stops pattern tests, their counts kept, and starts DETECT; clearing it
disables the member. -/
def State.enableLink (s : State) (port : Nat) (on : Bool) : State :=
  let was := s.linkEnabled port
  let s := s.setField .link port Reg.link_linkCtrl 0 0 (b2n on)
  if on ∧ (s.link port).st = .disabled then
    let s := s.setField .link port Reg.link_prbsCtrl 9 8 0
    s.moveLink port (fun l => { l with st := .detect })
  else if !on ∧ was then
    let s := if (s.link port).st = .up then s.leaveUp port .disabled else s.moveLink port (fun l => { l with st := .disabled })
    s.modLink port (fun l => { l with lanesOk := 0 })
  else s

def execLinkEnableWrite (port : Nat) (on : Bool) (s : State) : Ans := .next (s.when (decide (port < 24)) (s.enableLink port on))

/-! ### One-hop control (R283, R284) -/

/-- Packets up to LSEQ `n` are acknowledged. -/
def Link.ackTo (l : Link) (n : Nat) : Link :=
  let keep := l.replay.filter (fun r => decide (0 < (r.lseq + 4096 - n) % 4096 ∧ (r.lseq + 4096 - n) % 4096 < 2048))
  { l with replay := keep, replays := if keep.length < l.replay.length then 0 else l.replays }

/-- A negative acknowledgement: every packet from the first unacknowledged one is sent again (R284). -/
def State.replayPort (s : State) (port : Nat) : State :=
  let s := (s.modLink port (fun l => { l with replays := l.replays + 1 })).bump .link port 6 1
  (s.link port).replay.foldl (fun (s : State) r => (s.bump .link port 0 r.pkt.bytes).emit (.hop port r.lseq r.pkt)) s

/-- LINK_CTRL_PACKET (R283, R284). -/
def execLinkCtrlPacket (port : Nat) (msg : LinkCtrl) (s : State) : Ans :=
  if ¬ (port < 24 ∧ (s.link port).st = .up) then .next s
  else
    let pump := fun (s : State) => State.pumpPort (s.link port).txWait.length s port
    match msg with
    | .ack n => .next (pump (s.modLink port (fun l => l.ackTo n)))
    | .nack n =>
      let s := (s.modLink port (fun l => l.ackTo ((n + 4095) % 4096))).replayPort port
      .next (s.when (decide (8 ≤ (s.link port).replays)) (s.leaveUp port .retrain))
    | .credit vc units =>
      .next (pump (s.modLink port (fun l =>
        let own := min units (64 - l.credits.getD vc 0)
        { l with credits := l.credits.set vc (l.credits.getD vc 0 + own), shared := min 2048 (l.shared + (units - own)) })))

/-- FENCE_SEND (R280): a FENCED port carries the current epoch. -/
def execFenceSend (port : Nat) (s : State) : Ans :=
  .next (s.when (decide (port < 24 ∧ (s.link port).st = .fenced)) (s.emit (.ctrl port (.fence s.fab.epoch))))

/-! ### Reception (R281 to R284, R290) -/

/-- FAB_EPOCH_GRACE in ns (R300). -/
def State.epochGrace (s : State) : Nat := 1000 * max 10 (s.field .link 0 Reg.link_fabTimers 15 0)

/-- SRC and EPOCH of a packet are accepted (R290). -/
def State.epochOk (s : State) (h : PktHdr) : Bool :=
  s.forwards h.src &&
    (h.epoch == s.fab.epoch % 65536 ||
      (h.epoch == s.fab.prevEpoch % 65536 && decide (s.time.t ≤ s.fab.epochAt + s.epochGrace)))

/-- A packet dropped under R290 counts, and is recorded once for each source in each round. -/
def State.staleDrop (s : State) (h : PktHdr) : State :=
  let s := s.bump .link h.port 9 1
  if s.fab.staleNoted.contains h.src then s
  else
    (s.setFab (fun f => { f with staleNoted := h.src :: f.staleNoted })).event
      { pageRec .link h.port 0x0702 .warning with a := h.src, b := h.epoch }

/-- The link layer's part of a packet's reception: link state, CRC, LSEQ, acknowledgement, and R290. `passing`: a router
sends it on (R284). The answer says whether the packet goes on. -/
def State.receive (s : State) (h : PktHdr) (passing : Bool) : State × Bool :=
  let l := s.link h.port
  if 24 ≤ h.port then (s, false)
  else if l.st = .fenced then (s.staleDrop h, false)
  else if l.st ≠ .up then (s, false)
  else
    let s := s.bump .link h.port 1 (24 + 16 * h.payloadLen)
    let nack := s.emit (.ctrl h.port (.nack l.expectLseq))
    if h.endByte = 0xA5 then (s, false)
    else if !h.crcOk ∨ h.endByte ≠ 0x5A ∨ (if l.version = 1 then 16 else 32) < h.payloadLen then
      ((nack.bump .link h.port 5 1).bump .link h.port 7 (b2n passing), false)
    else if h.lseq ≠ l.expectLseq then
      (if (l.expectLseq + 4096 - h.lseq) % 4096 < 2048 then s else nack, false)
    else
      let s := s.modLink h.port (fun l => { l with expectLseq := (l.expectLseq + 1) % 4096 })
      let s := if l.version = 1 then s.emit (.ctrl h.port (.ack h.lseq))
        else
          let s := s.modLink h.port (fun l => l.ackTo h.ack)
          State.pumpPort (s.link h.port).txWait.length s h.port
      let s := s.emit (.ctrl h.port (.credit h.vc (cdiv (24 + 16 * h.payloadLen) 16)))
      if s.epochOk h then (s, true) else (s.staleDrop h, false)

/-- A packet passed on (R281, R286): HOP_LIMIT falls, and a packet that reaches 0 is dropped and counted. -/
def State.passOn (s : State) (h : PktHdr) (flood : Bool) : State :=
  if h.hopLimit ≤ 1 then s.bump .link h.port 11 1
  else
    let d := (portDir s.systemSize h.port).1
    let bytes := 24 + 16 * h.payloadLen
    let p : TxPkt :=
      { dest := h.dest, src := h.src, seq := h.seq, cls := h.vc / 4, dateline := bit h.vc 1, esc := bit h.vc 0
        down := h.downPhase, bytes := bytes, hopLimit := h.hopLimit - 1, msg := .forward h.src h.seq }
    let s := s.bump .link h.port 2 bytes
    if flood then s.floodPkt p (some d) else s.routePkt p (some d)

/-- A flooded packet (R282): the first of its (SRC, SEQ) is passed on and taken; a later one counts as a duplicate. -/
def State.receiveFlood (s : State) (h : PktHdr) (f : State → State) : State :=
  let r := s.receive h true
  if !r.2 then r.1
  else if r.1.fab.flood.contains (h.src, h.seq) ∨ h.src = s.pos then r.1.bump .link 0 22 1
  else
    let s := r.1.setFab (fun f => { f with flood := ((h.src, h.seq) :: f.flood).take 4096 })
    f (s.passOn h true)

/-- A routed packet (R286): passed on, or for this module. -/
def State.receiveRouted (s : State) (h : PktHdr) (f : State → State) : State :=
  let r := s.receive h (h.dest != s.pos)
  if !r.2 then r.1 else if h.dest ≠ s.pos then r.1.passOn h false else f r.1

/-! ### End-to-end delivery (R287) -/

/-- The delivery record of a source and class. -/
def State.inboundOf (s : State) (src cls : Nat) : E2eIn :=
  (s.fab.inbound.find? (fun e => e.src == src && e.cls == cls)).getD { src := src, cls := cls }

def State.setInbound (s : State) (e : E2eIn) : State :=
  s.setFab (fun f => { f with inbound := e :: f.inbound.filter (fun x => !(x.src == e.src && x.cls == e.cls)) })

/-- Deliver a message in SEQ order: in turn with what it releases, held out of order, or a duplicate; acknowledged unless
256 are held (R287). `run` is what delivery does. -/
def State.deliver (run : State → Instr → State) : Nat → State → Nat → Nat → Nat → Instr → State
  | 0, s, _, _, _, _ => s
  | fuel + 1, s, src, cls, seq, c =>
    let e := s.inboundOf src cls
    let ahead := (seq + 2 ^ 32 - e.next) % 2 ^ 32
    if ahead = 0 then
      let s := run (s.setInbound { e with next := (seq + 1) % 2 ^ 32, held := e.held.filter (fun x => x.1 != seq) }) c
      match e.held.find? (fun x => x.1 == (seq + 1) % 2 ^ 32) with
      | some x => State.deliver run fuel s src cls x.1 x.2
      | none => s
    else if 2 ^ 31 ≤ ahead ∨ e.held.any (fun x => x.1 == seq) then s
    else s.setInbound { e with held := e.held ++ [(seq, c)] }

/-- Does R287 take the message, or leave it to be sent again? -/
def State.takesMsg (s : State) (src cls seq : Nat) : Bool :=
  let e := s.inboundOf src cls
  decide ((seq + 2 ^ 32 - e.next) % 2 ^ 32 = 0 ∨ 2 ^ 31 ≤ (seq + 2 ^ 32 - e.next) % 2 ^ 32 ∨ e.held.length < 256) ||
    e.held.any (fun x => x.1 == seq)

/-- A forwarded submission at the module it names (R250, R282, R324). -/
def State.takeItem (s : State) (box ring count : Nat) (desc : List Byte) : State :=
  let d := leNat desc
  let i : Item :=
    { id := s.nextItem, tag := BitVec.ofNat 64 (bits d 63 0), box := box, ring := ring, count := count
      kind := bits d 79 72, desc := BitVec.ofNat 1024 d, pos := s.pos }
  if 64 ≤ box ∨ (s.box box).state ≠ .active ∨ s.fab.noMajority then s.refuse i { reason := .boxDisabled } else s.enterItem i

/-- Reason of a code (R365). -/
def Reason.ofCode (n : Nat) : Reason :=
  ([.poison, .envelope, .codebookStale, .oob, .stateVersion, .acmShort, .deadline, .watchdog, .aborted, .boxDisabled,
    .fwRestart, .supplyReset, .coreFenced, .moduleLost, .loadCheck].find? (fun r => r.code == n)).getD .moduleLost

/-- ROUND and PHASE of an entry: the manager's (R324). -/
def State.stampEntry (s : State) (body : Nat) (dead : Bool) : Nat :=
  if dead then setBits (setBits body 447 400 s.roundNow) 399 370 s.phase
  else setBits (setBits body 191 144 s.roundNow) 143 114 s.phase

/-- A disposition held for a manager that died (R294, R325 step 4): its item was in the dead manager's ledger only. -/
def State.takeHeldResult (s : State) (src box : Nat) (tag : W64) (dead : Bool) (entry : List Byte) : State :=
  let body := s.stampEntry (leNat entry) dead
  let i : Item :=
    { id := s.nextItem, tag := tag, box := box, ring := if dead then bits body 104 102 else 0
      count := if dead then bits body 101 70 else 0, kind := if dead then bits body 113 106 else bits body 103 96, pos := src
      state := .resolved, dispRound := s.roundNow, dispPhase := s.phase
      disp := some (if dead then .failed { reason := Reason.ofCode (bits body 369 362), check := bits body 361 346 }
        else .done (bit body 1)) }
  let s : State := { s with items := s.items ++ [i], nextItem := s.nextItem + 1 }
  (s.bump .hub 0 6 1).post i dead body

/-- A worker's entry reaches the manager (R324): the item it forwarded takes the disposition, and the entry is posted. An
item that has its disposition keeps it. -/
def State.takeResult (s : State) (src box : Nat) (tag : W64) (dead : Bool) (entry : List Byte) : State :=
  match s.items.find? (fun i => i.box == box && i.tag == tag && i.pos == src && i.disp.isNone) with
  | none => if s.host.tookOver ∧ !s.items.any (fun i => i.box == box && i.tag == tag) then s.takeHeldResult src box tag dead entry else s
  | some i =>
    let body := s.stampEntry (leNat entry) dead
    let d : Disp := if dead then .failed { reason := Reason.ofCode (bits body 369 362), check := bits body 361 346 }
      else .done (bit body 1)
    let s := s.modItem i.id (fun i => { i with
      disp := some d, state := .resolved, dispRound := s.roundNow, dispPhase := s.phase
      late := bit body (if dead then 3 else 2) })
    let s := s.setFab (fun f => { f with forwards := f.forwards.filter (fun x => x.item != i.id) })
    let s := s.bump .hub 0 6 1
    let s := if dead then (s.bump .box box 2 1).bump .box box 3 (b2n (bits body 369 362 == Reason.deadline.code))
      else (s.bump .box box 1 1).bump .box box 4 (b2n (bit body 2))
    s.post i dead body

/-- Bytes for a box virtual address: a tensor transfer, or a host write relayed to this module (R282, R307). -/
def State.takeTensor (s : State) (box va : Nat) (data : List Byte) : State :=
  s.when (decide (box < 64) && s.mapped box va data.length true && (s.absentIn box va data.length).isNone) (s.writeBox box va data)

/-- Bulk data delivered (R142, R282, R336). -/
def State.takeBulk (s : State) (src : Nat) (msg : BulkMsg) : State :=
  match msg with
  | .mirror stream n l g payload dirs =>
    s.takeMirror { src := src, stream := stream, stepCount := n, lineage := l, gen := g, payload := payload, dirs := dirs }
  | .mirrorPage key run data => s.takeMirrorPage { src := src, key := key, run := run, data := data }
  | .register box frames streams block params => s.registerGuest src box frames streams block params
  | .image comp bytes => s.relayedImage comp bytes
  | .tensor box va data => s.takeTensor box va data

/-- What a delivered message does. -/
def State.runMsg (s : State) (c : Instr) : State :=
  match c with
  | .item _ box ring count desc => s.takeItem box ring count desc
  | .result h box tag failed entry => s.takeResult h.src box tag failed entry
  | .bulk h msg => s.takeBulk h.src msg
  | _ => s

/-- A class 1 to 3 message for this module. -/
def State.receiveMsg (s : State) (h : PktHdr) (cls : Nat) (c : Instr) : State :=
  s.receiveRouted h (fun s =>
    if s.takesMsg h.src cls h.seq then (State.deliver State.runMsg 258 s h.src cls h.seq c).ackMsg h.src cls h.seq else s)

/-- ITEM (R282). -/
def execItem (hdr : PktHdr) (box ring count : Nat) (desc : List Byte) (s : State) : Ans :=
  .next (s.receiveMsg hdr 1 (.item hdr box ring count desc))

/-- RESULT (R324). -/
def execResult (hdr : PktHdr) (box : Nat) (tag : W64) (failed : Bool) (entry : List Byte) (s : State) : Ans :=
  .next (s.receiveMsg hdr 2 (.result hdr box tag failed entry))

/-- BULK (R282). Relayed images for a module that has not joined are exempt from R290 on a JOINING port (R298, R336). -/
def execBulk (hdr : PktHdr) (msg : BulkMsg) (s : State) : Ans :=
  match msg with
  | .image comp bytes =>
    if s.fab.role = .none ∨ s.fab.role = .joining then .next (s.relayedImage comp bytes)
    else .next (s.receiveMsg hdr 3 (.bulk hdr msg))
  | _ => .next (s.receiveMsg hdr 3 (.bulk hdr msg))

/-- MSG_ACK (R287): SEQ names the message acknowledged. -/
def execMsgAck (hdr : PktHdr) (cls : Nat) (s : State) : Ans :=
  .next (s.receiveRouted hdr (fun s => s.setFab (fun f => { f with
    sent := f.sent.filter (fun m => !(m.dest == hdr.src && m.cls == cls && m.seq == hdr.seq && !m.plain)) })))

/-! ### Time (R289) -/

/-- Direction of the time parent: the lowest DIR of least hop count from the manager (R289). -/
def State.timeParent (s : State) : Option Nat :=
  let depth := s.hops s.fab.manager 64
  let own := depth.getD s.pos 99
  (List.range (dirCount s.systemSize)).find? (fun d =>
    (s.bundle d).full && decide (depth.getD (neighbour s.systemSize s.pos d) 99 + 1 = own ∧ own ≤ 12))

/-- Time state of a code (R271). -/
def TimeSt.ofCode (n : Nat) : TimeSt :=
  match n with
  | 1 => .locked | 2 => .holdover | 3 => .freerun | _ => .unsync

/-- TIME_SYNC (R289): a worker follows its parent's time and the manager's state. -/
def execTimeSync (port parentState : Nat) (offsetNs : Int) (s : State) : Ans :=
  if ¬ (s.isWorker ∧ port < 24 ∧ (s.link port).st = .up ∧ s.timeParent = some (portDir s.systemSize port).1) then .next s
  else
    let s := s.setFab (fun f => { f with timePath := true, depth := (s.hops s.fab.manager 64).getD s.pos 99 })
    let s := s.noteOffset offsetNs
    let s :=
      if offsetNs.natAbs ≤ s.slewLimit ∨ (s.time.rounds ∧ offsetNs < 0) then
        (s.slewTo offsetNs).setTime (fun u => { u with backwardHeld := decide (s.slewLimit < offsetNs.natAbs) })
      else if s.time.rounds then s.stepForward ((s.time.t : Int) + offsetNs).toNat
      else s.setTime (fun u => { u with t := ((u.t : Int) + offsetNs).toNat })
    .next (s.timeState (TimeSt.ofCode parentState))

end Sys2Proof.Machine
end

