-- ==== Sys2Proof/Machine/Patterns.lean ====
section
/-! DEFINITION. Lane pattern generators and checkers (R418 to R422, R431), of the LINK pages and of the host port
(page 24), and the host port's link state (R304, R328). -/

namespace Sys2Proof.Machine

/-- Page of a pattern unit: LINK n, or HOSTIF as number 24. -/
def patPage (n : Nat) : Pg × Nat := if n < 24 then (.link, n) else (.hostif, 0)

/-- First checker of a pattern unit, and its lanes. -/
def patBase (n : Nat) : Nat := if n < 24 then 4 * n else 96
def patLanes (n : Nat) : Nat := if n < 24 then 4 else 8

def State.checker (s : State) (n l : Nat) : Checker := s.test.checkers.getD (patBase n + l) {}
def State.modChecker (s : State) (n l : Nat) (f : Checker → Checker) : State :=
  { s with test := { s.test with checkers := listModify f s.test.checkers (patBase n + l) } }

/-- PRBS_CTRL of a pattern unit. -/
def State.prbs (s : State) (n : Nat) : Nat := s.regN (patPage n).1 (patPage n).2 Reg.link_prbsCtrl

/-- The host port's link changes: HOST_LINK_STATUS follows, and the event is recorded (R304, R328). -/
def State.hostLink (s : State) (speed an : Nat) (lock : Bool) : State :=
  let s : State := { s with host := { s.host with speed := speed, an := an, pcsLock := lock } }
  (s.changed .hostif 0).event { pageRec .hostif 0 0x0800 .warning with a := speed }

/-- Refused pattern write: ignored and flagged. -/
def State.patBad (s : State) (n : Nat) : State :=
  s.flagAccess (patPage n).1 (patPage n).2 (regAddr (patPage n).1 (patPage n).2 Reg.link_prbsCtrl) true

/-- A write of PRBS_CTRL by a master that may make it (R418 to R422, R431). -/
def State.patternWrite (s : State) (n v : Nat) : State :=
  let p := patPage n
  let a := regAddr p.1 p.2 Reg.link_prbsCtrl
  let known := if n < 24 then 0x10F03FF else 0x1FF03FF
  let s := if v ≠ v &&& known then s.flagAccess p.1 p.2 a true else s
  if (n < 24 ∧ (s.link n).st ≠ .disabled) ∨ 9 ≤ bits v 3 0 ∨ 9 ≤ bits v 7 4 then s.patBad n
  else
    let old := s.prbs n
    let s := s.setReg a (BitVec.ofNat 32 (v &&& known &&& 0xFFFFFF))
    let s := if bit v 9 && !bit old 9 then
        (List.range (patLanes n)).foldl (fun (s : State) l => s.modChecker n l (fun c => { diag := c.diag })) s
      else s
    let s := if bit v 24 && bit v 8 then s.emit (.inject n (bits v 23 16)) else s
    if n < 24 then s
    else if bits v 9 8 ≠ 0 then (if s.host.speed = 0 then s else s.hostLink 0 0 false)
    else if bits old 9 8 ≠ 0 then s.hostLink 0 1 false
    else s

/-- GEN_EN (R418). -/
def execGenEn (page : Nat) (on : Bool) (pattern mask : Nat) (s : State) : Ans :=
  .next (s.when (decide (page < 25))
    (s.patternWrite page (setBits (setBits (setBits (s.prbs page) 8 8 (b2n on)) 3 0 pattern) 23 16 mask)))

/-- CHK_EN (R420). -/
def execChkEn (page : Nat) (on : Bool) (pattern mask : Nat) (s : State) : Ans :=
  .next (s.when (decide (page < 25))
    (s.patternWrite page (setBits (setBits (setBits (s.prbs page) 9 9 (b2n on)) 7 4 pattern) 23 16 mask)))

/-- INJECT (R431). -/
def execInject (page : Nat) (s : State) : Ans :=
  .next (s.when (decide (page < 25)) (s.patternWrite page (setBits (s.prbs page) 24 24 1)))

/-- A lane's checker runs: CHK_EN is set, the lane takes part, and the pattern can be checked (R419, R420). -/
def State.checking (s : State) (n l : Nat) : Bool :=
  decide (n < 25 ∧ l < patLanes n) && bit (s.prbs n) 9 && bit (s.prbs n) (16 + l) &&
    decide (1 ≤ bits (s.prbs n) 7 4 ∧ bits (s.prbs n) 7 4 ≤ 6)

/-- CHECKER_LOCK (R420). -/
def execCheckerLock (page lane : Nat) (inverted : Bool) (s : State) : Ans :=
  .next (s.when (s.checking page lane && !(s.checker page lane).locked)
    (s.modChecker page lane (fun c => { c with locked := true, inverted := inverted })))

/-- CHECKER_LOSS (R420). -/
def execCheckerLoss (page lane compared errors : Nat) (s : State) : Ans :=
  .next (s.when (s.checking page lane && (s.checker page lane).locked)
    (s.modChecker page lane (fun c => { c with
      locked := false, lost := true, bits := (c.bits + compared) % 2 ^ 64, errors := (c.errors + errors) % 2 ^ 64 })))

/-- A locked checker goes on counting: what it has counted by a read is a free value, no more errors than bits. -/
def State.countOn (s : State) (n l : Nat) : State :=
  if s.checking n l && (s.checker n l).locked then
    let a := s.draw
    let b := a.2.draw
    let k := Config.freeChoice a.1
    b.2.modChecker n l (fun c => { c with
      bits := (c.bits + k) % 2 ^ 64, errors := (c.errors + Config.freeChoice b.1 % (k + 1)) % 2 ^ 64 })
  else s

/-- A read of PRBS_ERR_LO latches the next three registers (R431). -/
def State.prbsErrRead (s : State) (n l : Nat) : State × Nat :=
  let s := s.countOn n l
  let c := s.checker n l
  let p := patPage n
  let put := fun (s : State) (o v : Nat) => s.setReg (regAddr p.1 p.2 (o + 16 * l)) (BitVec.ofNat 32 v)
  let s := put s Reg.link_prbsErrHi (c.errors / 2 ^ 32)
  let s := put s Reg.link_prbsBitsLo c.bits
  (put s Reg.link_prbsBitsHi (c.bits / 2 ^ 32), c.errors)

/-- PRBS_STATUS (R431): `w` lanes in each field. -/
def State.prbsStatus (s : State) (n : Nat) : Nat :=
  let w := patLanes n
  let f := fun (g : Checker → Bool) => ((List.range w).map (fun l => b2n (g (s.checker n l)) * 2 ^ l)).sum
  f (·.inverted) * 2 ^ (2 * w) + f (·.lost) * 2 ^ w + f (·.locked)

/-- HOST_LINK_CHANGE (R304, R328); a pattern test holds the port down (R422). -/
def execHostLinkChange (speed an : Nat) (pcsLock : Bool) (s : State) : Ans :=
  let now := (s.host.speed, s.host.an, s.host.pcsLock)
  .next (s.when (decide (speed ≤ 2 ∧ an ≤ 3) && decide (now ≠ (speed, an, pcsLock)) && (bits (s.prbs 24) 9 8 == 0))
    (s.hostLink speed an pcsLock))

end Sys2Proof.Machine
end

