-- ==== Sys2Proof/Machine/Instances.lean ====
section
/-! DEFINITION. Kernel instances (R103, R104): their placement (R118, R262, R264), their start on a core with its window
load and box switch (R123, R125, R263, R464), their end, stealing (R258) and the watchdog (R261). -/

namespace Sys2Proof.Machine

/-! ### What is to be placed -/

/-- The kernel list that an item's entries run; none for kinds without one. -/
def Item.listKind (i : Item) : Option ListKind :=
  match i.kind with
  | 0x01 => some .prefill
  | 0x03 => some .step
  | 0x09 => some .backward
  | 0x0A => some .kernel
  | _ => none

/-- Instance `idx` of the list entry at which entry `k` stands. -/
def Item.instAt (i : Item) (k idx : Nat) (l : ListKind) : Inst :=
  { item := i.id, entry := k, pos := (i.entry k).pos, idx := idx, list := l, box := i.box
    stream := if l = .kernel then none else some (i.entry k).stream }

/-- The list entry that an instance runs. -/
def State.kentry? (s : State) (x : Inst) : Option KEntry := (s.listOf x)[x.pos]?

/-- Instances of a list entry: INSTANCES_M1 + 1 in a KERNEL item, one for each stream entry otherwise (R103). -/
def KEntry.count (e : KEntry) (l : ListKind) : Nat := if l = .kernel then e.instances else 1

/-- The instance of entry `k` that is placed next outside a handoff chain: one taken off a queue, or the next index. -/
def State.nextInst (s : State) (i : Item) (k : Nat) : Option Inst :=
  match i.listKind with
  | none => none
  | some l =>
    let e := i.entry k
    match e.again with
    | n :: _ => some (i.instAt k n l)
    | [] =>
      match s.kentry? (i.instAt k 0 l) with
      | none => none
      | some x => if e.placed < x.count l then some (i.instAt k e.placed l) else none

/-! ### Candidates (R118, R262) -/

/-- EST_CYCLES of an instance's kernel and, outside a chain, of the chain that it begins. -/
def State.instCost (s : State) (x : Inst) : Nat :=
  let l := (s.listOf x).drop x.pos
  let run := (l.takeWhile (fun e => e.handoff)).length + 1
  ((l.take run).map (fun e => e.kernel.estCycles)).sum

/-- Load of a core in cycles: what is queued, and what is left of what runs (R262). -/
def State.coreLoad (s : State) (c : Nat) : Nat :=
  let k := s.core c
  (k.queue.map (fun x => x.cost)).sum + (match k.run with
    | some x => x.cost - cyclesOf (s.time.t - x.start)
    | none => 0)

/-- A core to which instances may be placed now. -/
def Core.accepts (k : Core) : Bool := (k.state == .idle || k.state == .running) && !k.hold && !k.quietHold

/-- The core buffer and the state window of a core hold what the kernel needs. -/
def State.fitsCore (s : State) (x : Inst) (ker : Kernel) (c : Nat) : Bool :=
  decide (ker.cbufNeed * 1024 ≤ cbufBytes - s.windowBytes c) &&
    (!ker.usesState || (match x.stream.bind s.groupOf with
      | some g => decide (g.slotSize ≤ s.windowBytes c)
      | none => true))

/-- The data die of an instance (R262). -/
def State.dataDie (s : State) (i : Item) (x : Inst) : Nat :=
  match x.stream with
  | some t => (s.place? t).elim 0 (fun p => homeDie p.arenaDa)
  | none =>
    match (i.tensors[0]?).join with
    | some t => if s.mapped i.box t.base 1 false then homeDie (s.da i.box t.base) else 0
    | none => 0

/-- Cores in ascending load, a tie to the lower logical core. -/
def State.loadInsert (s : State) (c : Nat) : List Nat → List Nat
  | [] => [c]
  | a :: l => if s.coreLoad c < s.coreLoad a then c :: a :: l else a :: s.loadInsert c l

def State.byLoad (s : State) (cores : List Nat) : List Nat := cores.foldl (fun l c => s.loadInsert c l) []

/-- The core that holds the stream's window copy. -/
def State.windowCoreOf (s : State) (x : Inst) : Option Nat := (x.stream.bind s.place?).bind (fun p => p.windowCore)

/-- The placement order of R262 over the cores of the instance's box. -/
def State.placeOrder (s : State) (i : Item) (x : Inst) : List Nat :=
  let cores := s.coresOf x.box
  let d := s.dataDie i x
  let rest := ((List.range 4).map (fun n => s.byLoad (cores.filter (fun c => coreDie c == (d + n) % 4)))).flatten
  match s.windowCoreOf x with
  | some w => if cores.contains w then w :: rest.filter (· ≠ w) else rest
  | none => rest

/-- Outcome of the check of R118. -/
inductive PlaceRes where
  | on (core : Nat) (variant : Bool) (skipped : List Nat)
  /-- A core that may run the instance accepts none now. -/
  | wait
  | short (skipped : List Nat)
  deriving DecidableEq, Repr

/-- The check of R118 over the cores of a list: the primary on the first with enough pigeonholes, then the variant.
`ok`: the core may take an instance now. -/
def State.choose (s : State) (x : Inst) (e : KEntry) (cores : List Nat) (ok : Nat → Bool) : PlaceRes :=
  let able := fun (k : Kernel) (c : Nat) => s.fitsCore x k c && decide (k.phNeed ≤ s.usablePh c)
  let cands := cores.filter (fun c => ok c && s.fitsCore x e.kernel c)
  let skipped := cands.takeWhile (fun c => !able e.kernel c)
  match cands.find? (able e.kernel) with
  | some c => .on c false skipped
  | none =>
    match e.variant.bind (fun v => ((cores.filter ok).find? (able v))) with
    | some c => .on c true skipped
    | none =>
      if cores.any (fun c => able e.kernel c || (match e.variant with | some v => able v c | none => false)) then .wait
      else .short skipped

/-! ### Gang mode (R264) -/

/-- Gang mode is set in some die's dispatcher. -/
def State.gangSet (s : State) : Bool := (List.range 4).any (fun d => bit (s.regN .disp d Reg.disp_dispCtrl) 0)

/-- The item that gang mode runs, while it is open. -/
def State.gangItem (s : State) : Option Nat :=
  s.gang.bind (fun id => if (s.item? id).any (fun i => i.disp.isNone) then some id else none)

/-- STEP, KERNEL and BACKWARD items in effect: the units of gang mode. -/
def Item.gangUnit (i : Item) : Bool := i.disp.isNone && i.took && [0x03, 0x09, 0x0A].contains i.kind

/-- May an instance of an item be placed, as gang mode has it? -/
def State.gangAllows (s : State) (i : Item) : Bool :=
  match s.gangItem with
  | some g => g == i.id
  | none => !s.gangSet || !i.gangUnit || (pickFirst s.before (s.items.filter Item.gangUnit)).any (fun f => f.id == i.id)

/-- One instance per core in gang mode. -/
def Core.bare (k : Core) : Bool := k.run.isNone && k.queue.isEmpty && k.chain.isNone

/-- The item becomes the one that gang mode runs. -/
def State.takeGang (s : State) (i : Item) : State :=
  if s.gangSet ∧ s.gangItem.isNone ∧ i.gangUnit then { (s.bump .disp (s.homeOf i) 7 1) with gang := some i.id } else s

/-! ### INSTANCE_PLACE -/

/-- An instance is issued to a core's queue (R118, R262). -/
def State.issueOn (s : State) (i : Item) (x : Inst) (c : Nat) (variant front : Bool) : State :=
  let aff := !front && s.windowCoreOf x == some c
  let x := { x with variant := variant, cost := s.instCost x }
  let s := s.modCore c (fun k => { k with queue := if front then x :: k.queue else k.queue ++ [x] })
  let s := (s.bump .disp (coreDie c) 0 1).bump .disp (coreDie c) 1 (b2n aff)
  let s := s.bump .disp (coreDie c) 3 (b2n variant)
  s.markStarted i.id

def State.countSkips (s : State) (l : List Nat) : State := l.foldl (fun s c => s.bump .disp (coreDie c) 2 1) s

/-- No candidate core holds enough pigeonholes: the item fails (R118 step 4). -/
def State.acmShort (s : State) (i : Item) (x : Inst) : State :=
  (s.bump .disp (s.homeOf i) 4 1).failItem i.id (s.failOf x { reason := .acmShort })

/-- The next kernel of a handoff chain: its only candidate is the chain's core (R104, R118). -/
def State.placeChain (s : State) (i : Item) (c : Nat) (x : Inst) : State :=
  match s.kentry? x with
  | none => s
  | some e =>
    match s.choose x e [c] (fun _ => true) with
    | .on c v skipped => (s.countSkips skipped).issueOn i x c v true
    | .wait => s
    | .short skipped => (s.countSkips skipped).acmShort i x

/-- Core on which a handoff chain of the entry waits for its next kernel to be placed. -/
def State.chainOf (s : State) (id k : Nat) : Option (Nat × Inst) :=
  (List.range 68).findSome? (fun c =>
    match (s.core c).chain with
    | some x => if x.item = id ∧ x.entry = k ∧ !(s.core c).queue.any (fun y => y.item == id && y.entry == k && y.pos == x.pos)
        then some (c, x) else none
    | none => none)

/-- Place the next instance of an entry outside a chain (R118, R262). -/
def State.placeNext (s : State) (i : Item) (k : Nat) (x : Inst) : State :=
  match s.kentry? x with
  | none => s
  | some e =>
    let gang := s.gangSet || s.gangItem.isSome
    match s.choose x e (s.placeOrder i x) (fun c => (s.core c).accepts && (!gang || (s.core c).bare)) with
    | .wait => s
    | .short skipped => (s.countSkips skipped).acmShort i x
    | .on c v skipped =>
      let s := ((s.countSkips skipped).takeGang i).issueOn i x c v false
      s.modEntry i.id k (fun e => { e with
        placed := if e.again.isEmpty then e.placed + 1 else e.placed, again := e.again.drop 1 })

/-- INSTANCE_PLACE (R118): the next instance of entry `k` of item `id`. -/
def execInstancePlace (id k : Nat) (s : State) : Ans :=
  match s.item? id with
  | none => .next s
  | some i =>
    if i.disp.isSome ∨ !i.took ∨ i.pos ≠ s.pos ∨ k ≥ i.entries.length ∨ (i.entry k).st ≠ .running ∨ !s.gangAllows i then .next s
    else
      match s.chainOf id k with
      | some cx => .next (s.placeChain i cx.1 cx.2)
      | none =>
        match s.nextInst i k with
        | none => .next s
        | some x => .next (s.placeNext i k x)

/-! ### INSTANCE_START (R103, R263, R464) -/

/-- Order of two queued instances: their items' (R257), then list order. -/
def State.instBefore (s : State) (x y : Inst) : Bool :=
  match s.item? x.item, s.item? y.item with
  | some a, some b =>
    if a.id = b.id then decide (x.entry < y.entry ∨ (x.entry = y.entry ∧ (x.pos < y.pos ∨ (x.pos = y.pos ∧ x.idx < y.idx))))
    else s.before a b
  | _, _ => false

/-- The head of a core's queue: the next kernel of its chain, or the earliest in order (R104, R257). -/
def State.queueHead (s : State) (c : Nat) : Option Inst :=
  let k := s.core c
  match k.chain with
  | some x => k.queue.find? (fun y => y.item == x.item && y.entry == x.entry && y.pos == x.pos)
  | none => pickFirst s.instBefore k.queue

/-- A box switch writes zeros (R263). -/
def Core.switchBox (k : Core) : Core :=
  { k with
    cbuf := {}, cbufPoison := [], ph := List.replicate 9 {}, phPoison := [], banks := [{}, {}], bankPoison := [[], []]
    shadowReady := false, clerks := k.clerks.map (fun q => { q with dmem := {}, dmemPoison := [] }) }

/-- Before an instance of box `b` starts, a core that ran another last makes a box switch (R263). -/
def State.boxSwitch (s : State) (c b : Nat) : State :=
  if (s.core c).lastBox = some b then s
  else
    let s := s.modCore c (fun k => { k.switchBox with lastBox := some b })
    ((s.chargeBox c b 4200).bump .disp (coreDie c) 9 1).changed .mxe c

/-- Contents of the pigeonholes at kernel start (R50): free values, but for the zeros of a box switch. -/
def State.freePigeonholes (s : State) (c b : Nat) : State :=
  if (s.core c).lastBox = some b then
    (let n := s.draw
     n.2.modCore c (fun k => { k with ph := (List.range 9).map (fun p => Store.free (n.1 + p)) })).draw.2
  else s

/-- The instance block (R103). -/
def Inst.block (x : Inst) : Nat :=
  (if x.stream.isSome then 0 else x.idx) * 2 ^ 48 + (if x.stream.isSome then x.entry else 0) * 2 ^ 32 + x.stream.getD 0x3FFFF

/-- A clerk as an instance finds it (R103, R464). -/
def Clerk.begin (q : Clerk) (n : Nat) (x : Inst) (ker : Kernel) : Clerk :=
  let image := leBytes 64 x.block ++ ker.data
  let q : Clerk := { q with
    dmem := q.dmem.setRun 0 image
    dmemPoison := q.dmemPoison.filter (fun g => decide ((image.length + 63) / 64 ≤ g))
    resv := none, finished := false }
  if bit ker.clerkMask n then
    { q with
      state := .running, x := List.replicate 31 0, td := List.replicate 8 0, parm := 0
      pc := BitVec.ofNat 64 (0x2000_0000 + ker.clerkEntry.getD n 0) }
  else { q with state := .idle }

/-- The core begins an instance. -/
def Core.beginRun (k : Core) (x : Inst) (ker : Kernel) : Core :=
  { k with
    state := if k.state = .idle then .running else k.state
    run := some x, chain := none
    queue := k.queue.filter (fun y => !(y.item == x.item && y.entry == x.entry && y.pos == x.pos && y.idx == x.idx))
    clerks := k.clerks.zipIdx.map (fun q => q.1.begin q.2 x ker)
    code := ({} : Store 8).setRun 0 ker.code, codePoison := []
    loading := none, mxeQ := [], drain := none, drainRow := 0, drainQ := [], courQ := [[], [], [], []]
    phState := List.replicate 8 .free, enc := [], poolWait := false, cbWait := false }

/-- Window copies dropped, oldest use first, until `need` bytes fit the window of core `c`; a held one stays (R122). -/
def State.clearWindow : Nat → State → Nat → Nat → State
  | 0, s, _, _ => s
  | fuel + 1, s, c, need =>
    if s.windowUsed c + need ≤ s.windowBytes c then s
    else
      match pickFirst (fun (p q : Place) => decide (p.lastUse < q.lastUse) || (p.lastUse == q.lastUse && placeBefore p q))
          (s.places.filter (fun p => p.windowCore == some c && !p.held)) with
      | none => s
      | some p => State.clearWindow fuel
          (s.modPlace p.stream (fun q => { q with window := none, windowCore := none })) c need

/-- The stream's slot in the window of core `c` (R123, R125): a hit, or a load with the header's check. The failure of
that check, as HDR_FORMAT, CRC or field. -/
def State.windowLoad (s : State) (c stream : Nat) (tag : W64) : State × Bool :=
  match s.place? stream, s.groupOf stream with
  | some p, some g =>
    if p.windowCore = some c then (s.bump .state c 1 1, true)
    else
      let a := (p.window.or (p.arena.or p.poste)).getD {}
      let s := State.clearWindow s.places.length s c g.slotSize
      let s := s.bump .state c 0 1
      match headerFault p a with
      | some why => (s.headerFailed stream why (some c) (some tag), false)
      | none => (s.modPlace stream (fun p => { p with window := some a, windowCore := some c }), true)
  | _, _ => (s, false)

/-- The entry's step has begun on core `c` (R21, R22). -/
def State.markBegun (s : State) (x : Inst) (c : Nat) : State :=
  s.modEntry x.item x.entry (fun e => { e with begun := true, core := some c })

/-- Start an instance on a core. -/
def State.startInst (s : State) (c : Nat) (i : Item) (x : Inst) (ker : Kernel) : State :=
  let load := fun (s : State) =>
    match ker.usesState, x.stream with
    | true, some t => s.windowLoad c t i.tag
    | _, _ => (s, true)
  let r := load s
  if !r.2 then
    let s := r.1.modCore c (fun k => { k with chain := none })
    s.failEntry i.id x.entry (s.failOf x { reason := .poison })
  else
    let s := r.1.freePigeonholes c x.box
    let s := s.boxSwitch c x.box
    let x := { x with start := s.time.t, poison := none }
    let s := s.modCore c (fun k => k.beginRun x ker)
    ((s.markBegun x c).markStarted i.id).changed .ctl c

/-- May core `c` start an instance: idle, or draining with a chain to finish (R69, R104)? -/
def Core.mayStart (k : Core) : Bool :=
  k.run.isNone && k.slice.isNone && (k.state == .idle || (k.state == .draining && k.chain.isSome))

/-- INSTANCE_START (R103): the core takes the head of its queue. -/
def execInstanceStart (core : Nat) (s : State) : Ans :=
  if !(s.core core).mayStart then .next s
  else
    match s.queueHead core with
    | none => .next s
    | some x =>
      match s.item? x.item, s.kernelOf x with
      | some i, some ker => .next (s.startInst core i x ker)
      | _, _ => .next s

/-! ### INSTANCE_END (R62, R103, R104) -/

/-- Every started clerk has finished, and nothing issued is incomplete. -/
def Core.instanceOver (k : Core) : Bool :=
  k.clerks.all (fun q => q.state != .running && q.state != .waiting) && k.quiet

/-- The instance has consumed poison: it ends without commit (R369). -/
def Core.poisoned (k : Core) : Bool := (k.run.bind (fun x => x.poison)).isSome

/-- The entry's next kernel, once every instance of this one has ended. -/
def Entry.nextPos (e : Entry) (pos : Nat) : Entry := { e with pos := pos, placed := 0, ended := 0, again := [] }

/-- Tapes that a BACKWARD consumed are released (R36). -/
def State.releaseTapes (s : State) (stream first count : Nat) : State :=
  s.modPlace stream (fun p => { p with tapes := p.tapes.filter (fun n => !decide (first ≤ n ∧ n < first + count)) })

/-- An entry has run its kernel list to the end. -/
def State.listDone (s : State) (i : Item) (k : Nat) : State :=
  let e := i.entry k
  if i.kind = 0x0A then s.modEntry i.id k (fun e => { e with st := .committed })
  else if i.kind = 0x09 then
    if i.countB < e.step then s.modEntry i.id k (fun e => { e.nextPos 0 with step := e.step - 1 })
    else
      let s := s.releaseTapes e.stream i.countB (i.countC + 1)
      let s := s.modPlace e.stream (fun p => if p.held then p else { p with window := none, windowCore := none })
      s.modEntry i.id k (fun e => { e with st := .committed })
  else s.modEntry i.id k (fun e => { e with st := .ready })

/-- The instance `x` has ended on core `c`: its entry goes on (R103, R104). -/
def State.instanceDone (s : State) (c : Nat) (x : Inst) : State :=
  match s.item? x.item with
  | none => s
  | some i =>
    let e := i.entry x.entry
    if i.disp.isSome ∨ e.st ≠ .running ∨ e.pos ≠ x.pos then s
    else
      match s.kentry? x with
      | none => s
      | some ke =>
        if e.ended + 1 < ke.count x.list then s.modEntry i.id x.entry (fun e => { e with ended := e.ended + 1 })
        else
          let s := s.modEntry i.id x.entry (fun e => e.nextPos (x.pos + 1))
          if x.pos + 1 < (s.listOf x).length then
            s.when ke.handoff (s.modCore c (fun k => { k with
              chain := some { x with pos := x.pos + 1, idx := 0, variant := false, poison := none } }))
          else s.listDone i x.entry

/-- INSTANCE_END (R103): units run what is issued, open encode blocks are written out (R210), and the instance ends. -/
def execInstanceEnd (core : Nat) (s : State) : Ans :=
  match (s.core core).run with
  | none => .next s
  | some _ =>
    let s := s.runUnits core
    if !(s.core core).instanceOver then .next s
    else
      match State.writeOutAll 33 s core with
      | .wait s => .next s
      | .fail s f => .next (s.failRun core f)
      | .done s =>
        match (s.core core).run with
        | none => .next s
        | some x =>
          if (s.core core).poisoned then .next (s.failRun core { reason := .poison, va := x.poison.getD 0 })
          else
          let s := (s.chargeRun core).bump .ctl core 0 1
          let s := (s.modCore core Core.clearRun).changed .ctl core
          .next (s.instanceDone core x)

/-! ### INSTANCE_STEAL and KERNEL_WATCHDOG (R258, R261) -/

/-- May an idle core take an instance of another core's queue: the box's cores, and the check of R118 made again? -/
def State.mayTakeInst (s : State) (c : Nat) (x : Inst) : Option Bool :=
  if !(s.coresOf x.box).contains c then none
  else
    match s.kentry? x with
    | none => none
    | some e =>
      match s.choose x e [c] (fun _ => true) with
      | .on _ v _ => some v
      | _ => none

/-- Queued instances of other cores that belong to no chain (R258). -/
def State.stealable (s : State) (c : Nat) (sameDie : Bool) : List (Nat × Inst) :=
  (List.range 68).flatMap (fun d =>
    if d = c ∨ decide (coreDie d = coreDie c) ≠ sameDie then []
    else ((s.core d).queue.filter (fun x =>
      !((s.kentry? x).any (fun e => e.handoff)) && (s.core d).chain.isNone && (s.mayTakeInst c x).isSome)).map (fun x => (d, x)))

/-- INSTANCE_STEAL (R258): the earliest-ordered instance of the same die, or failing that of another. -/
def execInstanceSteal (core : Nat) (s : State) : Ans :=
  let k := s.core core
  if !(k.accepts && k.bare && k.state == .idle) then .next s
  else
    let first := fun (l : List (Nat × Inst)) => pickFirst (fun (a b : Nat × Inst) => s.instBefore a.2 b.2) l
    match (first (s.stealable core true)).or (first (s.stealable core false)) with
    | none => .next s
    | some (d, x) =>
      let s1 := s.modCore d (fun k => { k with queue := k.queue.filter (fun y => y != x) })
      let s1 := s1.modCore core (fun k => { k with queue := [{ x with variant := (s.mayTakeInst core x).getD false }] })
      .next (s1.bump .disp (coreDie core) 10 1)

/-- KERNEL_WATCHDOG (R261): 20 ms after the kernel's start. -/
def execKernelWatchdog (core : Nat) (s : State) : Ans :=
  match (s.core core).run with
  | none => .next s
  | some x =>
    let s : State := { s with time := { s.time with t := max s.time.t (20000000 + x.start) } }
    .next ((s.bump .disp (coreDie core) 5 1).failItem x.item (s.failOf x { reason := .watchdog }))

end Sys2Proof.Machine
end

