-- ==== Sys2Proof/Machine/RegRead.lean ====
section
/-! DEFINITION. What every register reads as (R68, R436, R443 to R445 and the register tables of the chapters): fields
that follow the state are computed here; every other register reads the word it holds. -/

namespace Sys2Proof.Machine

/-- A mask from the bits of a predicate. -/
def maskOf (n : Nat) (f : Nat → Bool) : Nat := ((List.range n).map (fun i => b2n (f i) * 2 ^ i)).sum

/-- Word `n` of a byte string; 0 past its end. -/
def wordOf (bs : List Byte) (n : Nat) : Nat := leNat ((bs.drop (4 * n)).take 4)

/-! ### Common registers (R436) -/

/-- STATUS.IN_SERVICE. -/
def State.inService (s : State) (p : Pg) (i : Nat) : Bool :=
  match p with
  | .link => s.field .link i Reg.link_linkCtrl 0 0 == 1
  | .hbm => decide ((s.stack i).mappedOut.length < 16)
  | .box => (s.box i).state != .disabled
  | p =>
    if p.isCore then
      let k := s.core i
      k.lastPass.isSome && (s.logical i).isSome && k.state != .fenced && k.state != .reset
    else true

/-- STATUS.FENCED. -/
def State.pageFenced (s : State) (p : Pg) (i : Nat) : Bool :=
  if p.isCore then (s.core i).state == .fenced else p == .link && (s.link i).st == .fenced

/-- PAGE_VER.MINOR. -/
def State.minor (s : State) (p : Pg) : Nat :=
  match p, s.stepping with
  | .link, .B0 => 1
  | .hostif, .B0 => 2
  | .hostif, .A1 => 1
  | _, _ => 0

/-- A common register that follows the state. -/
def State.commonValue (s : State) (p : Pg) (i o : Nat) : Option Nat :=
  if o = Reg.pageId then some (p.type * 65536 + i)
  else if o = Reg.pageVer then some (0x100 + s.minor p)
  else if o = Reg.caps then some (p.counters i)
  else if o = Reg.status then
    some (s.regN p i Reg.lock % 2 * 4 + b2n (s.pageFenced p i) * 2 + b2n (s.inService p i))
  else if o = Reg.fence then some (if p.isCore then (s.core i).incarnation % 65536 else 0)
  else none

/-! ### The hub's pages -/

/-- Is PASSPORT VALID? -/
def State.passportOk (s : State) : Bool := s.sec.passport == .good

/-- FAB_ID.ROLE is a role in a formed system (R443). -/
def State.formed (s : State) : Bool :=
  s.fab.role == .manager || s.fab.role == .serving || s.fab.role == .spare || s.fab.role == .standby

/-- EFFECTIVE is below BUDGET (R443). -/
def State.powerLimited (s : State) : Bool := decide (s.pwr.effective < s.pwr.budget)

/-- HUB page (R443). -/
def State.hubValue (s : State) (o : Nat) : Option Nat :=
  if o = Reg.hub_hubIdent then some (0x4A64_0000 + (match s.stepping with | .A1 => 0 | .B0 => 1))
  else if o = Reg.hub_hubFlash then some (if s.passportOk then (match s.order with | .t16 => 16 | .t32 => 32) else 0)
  else if o = Reg.hub_hubSerialLo then some (if s.passportOk then Config.serial.toNat % 2 ^ 32 else 0)
  else if o = Reg.hub_hubSerialHi then some (if s.passportOk then Config.serial.toNat / 2 ^ 32 else 0)
  else if o = Reg.hub_hubStatus then
    some (b2n ((List.range 64).any (fun l => (s.physical l).isNone)) * 32 + b2n (s.tier.state != .normal || s.tier.paused) * 16 +
      b2n s.powerLimited * 8 + b2n s.formed * 4 + b2n (s.fw.st == .running) * 2 + b2n s.fw.mgmtSat)
  else if o = Reg.hub_hubResetCause then some s.pwr.cause
  else if o = Reg.hub_hubLedger then some s.items.length
  else if o = Reg.hub_sigCount then some (s.log.sigs.filter (·.isSome)).length
  else if o = Reg.hub_sigPmLo then some s.sigPm
  else if o = Reg.hub_sigLen then some (match s.selSig with | some g => g.bytes.length | none => 0)
  else if o = Reg.hub_sigCurPmLo then some s.log.sigCopyPm
  else if o = Reg.hub_sigCurPmHi then some (s.log.sigCopyPm / 2 ^ 32)
  else if Reg.hub_sigData ≤ o ∧ o < Reg.hub_sigData + 64 then some (wordOf s.log.sigCopy ((o - Reg.hub_sigData) / 4))
  else none

/-- FRANK page (R416). -/
def State.frankValue (s : State) (o : Nat) : Option Nat :=
  if o = Reg.frank_frankEffective then
    some (b2n s.pwr.dipCut * 2 ^ 31 + b2n (decide (s.pwr.factorPct < 100)) * 2 ^ 30 + b2n s.pwr.inputWarning * 2 ^ 29 +
      b2n (!s.pwr.openSensors.isEmpty) * 2 ^ 28 + s.pwr.effective)
  else if o = Reg.frank_frankGranted then some (s.pwr.queue.length * 65536 + s.pwr.granted)
  else none

/-- SUPPLY page (R417). -/
def State.supplyValue (s : State) (o : Nat) : Option Nat :=
  if o = Reg.supply_railStatus then some ((List.range 4).map (fun k => (s.rail k).st.code * 16 ^ k)).sum
  else if Reg.supply_railMv ≤ o ∧ o < Reg.supply_railMv + 16 then
    let r := s.rail ((o - Reg.supply_railMv) / 4)
    some (r.lowest * 65536 + r.now)
  else if o = Reg.supply_inputStatus then
    some (b2n s.pwr.overvoltage * 2 ^ 17 + b2n s.pwr.inputWarning * 2 ^ 16 + s.pwr.inputMv)
  else if o = Reg.supply_thermStatus then
    some (s.pwr.hottest * 2 ^ 24 + s.pwr.inlet * 2 ^ 16 + s.pwr.outlet * 256 + s.pwr.factorPct)
  else if o = Reg.supply_sensorOpenLo then some (maskOf 32 (fun k => s.pwr.openSensors.contains k))
  else if o = Reg.supply_sensorOpenHi then some (maskOf 32 (fun k => s.pwr.openSensors.contains (32 + k)))
  else none

/-- TIME page (R271). -/
def State.timeValue (s : State) (o : Nat) : Option Nat :=
  if o = Reg.time_timeStatus then some (b2n s.time.backwardHeld * 16 + b2n s.time.rounds * 8 + s.time.st.code)
  else if o = Reg.time_roundNowLo then some s.roundNow
  else none

/-- LOG_LATCH_ROUND: all ones where no round is latched (R397). -/
def State.latchRound (s : State) : Nat := s.ctr.latchRound.getD (2 ^ 48 - 1)

/-- LOG page (R395, R400). -/
def State.logValue (s : State) (o : Nat) : Option Nat :=
  if o = Reg.log_logStatus then some (b2n s.log.held * 8 + b2n s.log.wasClosed * 4 + b2n s.log.behind * 2)
  else if o = Reg.log_logOldestLo then some s.logEnds.1
  else if o = Reg.log_logWindowValid then some (maskOf 16 (fun k => (s.log.window.getD k none).isSome))
  else if o = Reg.log_logLatchRoundLo then some s.latchRound
  else if 0x400 ≤ o ∧ o < 0x800 then
    match s.log.window.getD ((o - 0x400) / 64) none with
    | some r => some (wordOf r.bytes (o % 64 / 4))
    | none => some 0
  else none

/-- SEC page (R361). -/
def State.secValue (s : State) (o : Nat) : Option Nat :=
  if o = Reg.sec_secStatus then
    some (s.sec.log.length * 2 ^ 24 + b2n s.sec.logFull * 32 + b2n s.sec.debugSeen * 16 + s.sec.identity.code * 4 +
      s.sec.passport.code)
  else if o = Reg.sec_secDbgNonceLo then some s.sec.nonce.toNat
  else if o = Reg.sec_secDbgNonceHi then some (s.sec.nonce.toNat / 2 ^ 32)
  else if o = Reg.sec_secDbgState then some (s.sec.remaining * 65536 + s.sec.scope)
  else if Reg.sec_svnFloor + 4 ≤ o ∧ o ≤ Reg.sec_svnFloor + 20 then some (s.sec.floors.getD ((o - Reg.sec_svnFloor) / 4) 0)
  else if o = Reg.sec_keyValidLo then some (maskOf 32 (fun b => (s.box b).key.isSome))
  else if o = Reg.sec_keyValidHi then some (maskOf 32 (fun b => (s.box (32 + b)).key.isSome))
  else if o = Reg.sec_keyCmdStatus then some s.sec.keyResult
  else none

/-- FW_STATE's interface version: from the acceptance of START (R347). -/
def State.ifVersion (s : State) : Nat :=
  match s.fw.st with
  | .noFirmware | .loading => 0
  | _ =>
    let minors := ((List.range 5).filterMap (fun k => (s.comp (k + 1)).image)).map (fun i => i.ifVersion % 256)
    2 * 256 + (minors.foldl (fun (m : Option Nat) v => some (match m with | some x => min x v | none => v)) none).getD 0 * 65536

/-- FWCTL page (R347). -/
def State.fwctlValue (s : State) (o : Nat) : Option Nat :=
  if o = Reg.fwctl_fwState then some (s.ifVersion + s.fw.st.code)
  else if o = Reg.fwctl_fwFaultLast then
    some (s.fw.faultComp * 2 ^ 28 + s.fw.faultCause * 2 ^ 24 + s.fw.faultProc * 2 ^ 21)
  else if o = Reg.fwctl_fwFaultPcLo then some s.fw.faultPc.toNat
  else if o = Reg.fwctl_fwFaultPcHi then some (s.fw.faultPc.toNat / 2 ^ 32)
  else if Reg.fwctl_fwComp + 4 ≤ o ∧ o ≤ Reg.fwctl_fwComp + 20 then
    let c := s.comp ((o - Reg.fwctl_fwComp) / 4)
    some (c.st.code * 2 ^ 29 + min c.restarts 255 * 65536 + c.lastCause * 4096 + b2n c.armed)
  else none

/-- The MAC address in use (R304). -/
def State.macNow (s : State) : Nat := if s.passportOk then Config.mac.toNat else 0x024A_6400_0000 + s.pos

/-- HOSTIF page (R328, R431). -/
def State.hostifValue (s : State) (o : Nat) : Option Nat :=
  if o = Reg.hostif_hostLinkStatus then some (s.host.speed * 64 + s.host.an * 16 + b2n s.host.pcsLock * 8)
  else if o = Reg.hostif_hostMacLo then some s.macNow
  else if o = Reg.hostif_hostMacHi then some (s.macNow / 2 ^ 32)
  else if o = Reg.hostif_hostSessions then some s.host.conns.length
  else if o = Reg.hostif_hostSessions2 then some s.host.sessions.length
  else if o = Reg.hostif_prbsStatus then some (s.prbsStatus 24)
  else none

/-! ### The link pages -/

/-- The fabric registers of LINK 0 (R302). -/
def State.fabValue (s : State) (o : Nat) : Option Nat :=
  if o = Reg.link_fabId then some (b2n s.pins.strapMgr * 2 ^ 31 + s.fab.role.code * 2 ^ 28 + s.pos)
  else if o = Reg.link_fabEpoch then some s.fab.epoch
  else if o = Reg.link_fabVersion then some (s.fab.sysVer * 16 + s.field .link 0 Reg.link_fabVersion 3 0)
  else if o = Reg.link_fabCmdStatus then some s.fab.cmdResult
  else if Reg.link_members ≤ o ∧ o < Reg.link_members + 32 then
    let n := (o - Reg.link_members) / 4
    some ((List.range 8).map (fun k => (s.fab.members.getD (8 * n + k) .absent).code * 16 ^ k)).sum
  else if o = Reg.link_routeGen then some s.fab.routeGen
  else if Reg.link_route ≤ o ∧ o < Reg.link_route + 256 then some (s.fab.routes.getD ((o - Reg.link_route) / 4) 0).toNat
  else none

/-- LINK page n (R301, R302, R431). -/
def State.linkValue (s : State) (n o : Nat) : Option Nat :=
  let l := s.link n
  if o = Reg.link_linkStatus then
    some (l.st.code * 2 ^ 28 + l.lanesOk * 2 ^ 24 + b2n l.polarity * 2 ^ 23 + b2n l.reversed * 2 ^ 22 + l.version * 2 ^ 16 +
      l.nPort * 2 ^ 11 + l.nStepping * 64 + l.nPos)
  else if o = Reg.link_bundleStatus then
    let d := (portDir s.systemSize n).1
    some ((s.bundle d).code * 256 + (s.upPorts d).length * 16 + d)
  else if o = Reg.link_prbsStatus then some (s.prbsStatus n)
  else if o = Reg.link_laneDiag then some ((List.range 4).map (fun k => l.lanes.getD k 0 * 16 ^ k)).sum
  else if n = 0 then s.fabValue o
  else none

/-! ### Memory, die and codebook pages -/

/-- HBM stack page (R243). -/
def State.hbmValue (s : State) (n o : Nat) : Option Nat :=
  let k := s.stack n
  if o = Reg.hbm_hbmChHealth then some (maskOf 16 (fun c => k.mappedOut.contains c))
  else if o = Reg.hbm_hbmThermal then some (k.temp % 256 * 256 + k.level)
  else none

/-- TIER and FLASH page (R245). -/
def State.tierValue (s : State) (o : Nat) : Option Nat :=
  if o = Reg.tier_tierStatus then
    some (b2n s.tier.writeHeld * 4 + (if s.tier.paused then 3 else match s.tier.state with | .normal => 0 | .degraded => 1 | .readOnly => 2))
  else if o = Reg.tier_tierCmdStatus then some (b2n s.tier.cmd.isSome * 2 ^ 30 + s.tier.result)
  else if o = Reg.tier_flashHealth then
    some (min s.tier.wearPct 255 * 2 ^ 24 + min (s.tier.spare.getD Config.sparePermille.toNat) 255 * 2 ^ 16)
  else none

/-- DIE sub-page (R444). -/
def State.dieValue (s : State) (d o : Nat) : Option Nat :=
  if o = Reg.die_d2dStatus then some ((List.range 8).map (fun k => b2n (!bit (s.pwr.d2d.getD d 0) k) * 4 ^ k)).sum
  else if o = Reg.die_dieCores then
    let own := dieCores d
    let spares := own.filter (fun c => (s.logical c).isNone && (s.core c).lastPass.isSome && (s.core c).state != .fenced)
    some (spares.length * 32 + ((List.range 16).filter (fun l => (s.physical (16 * d + l)).isSome)).length)
  else none

/-- DISP sub-page (R272). -/
def State.dispValue (s : State) (d o : Nat) : Option Nat :=
  if o = Reg.disp_dispStatus then
    some (min ((dieCores d).map (fun c => (s.core c).queue.length)).sum 65535 * 65536 +
      ((dieCores d).filter (fun c => (s.core c).run.isSome)).length)
  else none

/-- DCACHE sub-page (R244). -/
def State.dcacheValue (s : State) (d o : Nat) : Option Nat :=
  if o = Reg.dcache_dcStatus then some (b2n (s.die d).evacuating * 128 + (s.die d).channels)
  else if o = Reg.dcache_dcRedirects then some (s.die d).redirects.length
  else none

/-- CODEBOOK sub-page (R217). -/
def State.codebookValue (s : State) (d o : Nat) : Option Nat :=
  let c := s.slot (s.field .codebook d Reg.codebook_cbSlotSel 5 0)
  if o = Reg.codebook_cbCmdStatus then
    some (if d = 0 then b2n s.cb.waiting.isSome * 2 ^ 30 + s.cb.gen * 256 + s.cb.result else 0)
  else if o = Reg.codebook_cbSlotInfo then
    some (c.st.code * 2 ^ 30 + c.gen * 2 ^ 26 + c.owner * 2 ^ 20 + c.tag * 2 ^ 12 + c.inflight)
  else if o = Reg.codebook_cbSlotInfo2 then some c.alphabet
  else if Reg.codebook_cbLengths ≤ o ∧ o < Reg.codebook_cbLengths + 128 then
    let n := (o - Reg.codebook_cbLengths) / 4
    some ((List.range 8).map (fun k => c.lengths.getD (8 * n + k) 0 * 16 ^ k)).sum
  else none

/-! ### The core pages -/

/-- CTL sub-page (R69). -/
def State.ctlValue (s : State) (c o : Nat) : Option Nat :=
  if o = Reg.ctl_coreIdent then some ((s.logical c).getD 0xFF * 65536 + c % 17 * 256 + c)
  else if o = Reg.ctl_coreState then some (s.core c).state.code
  else none

/-- MXE sub-page (R70). -/
def State.mxeValue (s : State) (c o : Nat) : Option Nat :=
  let k := s.core c
  if o = Reg.mxe_mxeStatus then
    some (k.groups * 256 + k.ramp.code * 64 + k.axis * 4 + b2n k.shadowReady * 2 + k.bank)
  else none

/-- ACM sub-page (R71). -/
def State.acmValue (s : State) (c o : Nat) : Option Nat :=
  let k := s.core c
  let m := s.regN .acm c Reg.acm_acmMap
  if o = Reg.acm_acmHealth then some (k.retired % 512 * 16 + mapUsable m)
  else if o = Reg.acm_acmPhState then
    some ((List.range 8).map (fun l => (if 9 ≤ mapGet m l then 3 else (k.phState.getD l .free).code) * 4 ^ l)).sum
  else none

/-- Stage words of the chain that the drain runs (R54, R73). -/
def State.chainWords (s : State) (c : Nat) : List Nat :=
  match (s.core c).drain, ((s.core c).run.bind s.kentry?) with
  | some d, some e => e.kernel.chains.getD d.chain []
  | _, _ => []

/-- DRAIN sub-page (R73). -/
def State.drainValue (s : State) (c o : Nat) : Option Nat :=
  let k := s.core c
  if o = Reg.drain_drainStatus then
    some (match k.drain with | some d => k.drainRow % 256 * 256 + 16 + d.ph | none => 0)
  else if Reg.drain_drainChain ≤ o ∧ o < Reg.drain_drainChain + 16 then
    let n := (o - Reg.drain_drainChain) / 4
    some ((s.chainWords c).getD (2 * n) 0 + (s.chainWords c).getD (2 * n + 1) 0 * 65536)
  else none

/-- KVW sub-page (R178). -/
def State.kvwValue (s : State) (c o : Nat) : Option Nat :=
  let k := s.core c
  if o = Reg.kvw_kvwStatus then
    let q := (k.courQ.map (fun l => (l.filter (fun x => !x.isCrr)).length)).sum
    let busy := k.courQ.any (fun l => match l.head? with | some x => !x.isCrr | none => false)
    some (k.lab.length * 65536 + min q 16 * 256 + b2n k.poolWait * 2 + b2n busy)
  else none

/-- STATE sub-page (R149). -/
def State.stateValue (s : State) (c o : Nat) : Option Nat :=
  if o = Reg.state_stateWindowUse then
    let held := s.places.filter (fun p => p.window.isSome && p.windowCore == some c)
    some (held.length * 65536 + s.windowUsed c / 4096)
  else none

/-- CLERK sub-page (R74). -/
def State.clerkValue (s : State) (c o : Nat) : Option Nat :=
  let k := s.core c
  if o = Reg.clerk_clerkQueues then
    some ((k.courQ.map (·.length)).sum * 2 ^ 15 + k.drainQ.length * 32 + k.mxeQ.length)
  else if 0x40 ≤ o ∧ o < 0xC0 then
    let q := k.clerks.getD ((o - 0x40) / 32) {}
    match o % 32 with
    | 0 => some q.state.code
    | 4 => some q.cause.toNat
    | 8 => some q.trapPc.toNat
    | 12 => some (q.trapPc.toNat / 2 ^ 32)
    | _ => none
  else none

/-- BOX page (R273): the state, and the USE registers. -/
def State.boxValue (s : State) (b o : Nat) : Option Nat :=
  if o = Reg.box_boxState then some (s.box b).state.code
  else if o = 0x080 then some (s.usePlaces b)
  else if o = 0x084 then some (s.useGroups b)
  else if o = 0x088 then some (cdiv (s.useArena b) mib)
  else if o = 0x08C then some (cdiv (s.usePoste b) gib)
  else if o = 0x090 then some (cdiv (s.usePool b) mib)
  else if o = 0x094 then some (cdiv (s.useLoaded b) mib)
  else if o = 0x098 then some (s.useCodebooks b)
  else if o = 0x09C then some (s.useItems b)
  else none

/-! ### One read -/

/-- The value of a block-specific register that follows the state. -/
def State.blockValue (s : State) (p : Pg) (i o : Nat) : Option Nat :=
  match p with
  | .hub => s.hubValue o
  | .frank => s.frankValue o
  | .supply => s.supplyValue o
  | .time => s.timeValue o
  | .log => s.logValue o
  | .sec => s.secValue o
  | .fwctl => s.fwctlValue o
  | .hostif => s.hostifValue o
  | .link => s.linkValue i o
  | .hbm => s.hbmValue i o
  | .tier => s.tierValue o
  | .die => s.dieValue i o
  | .disp => s.dispValue i o
  | .dcache => s.dcacheValue i o
  | .codebook => s.codebookValue i o
  | .fork => none
  | .ctl => s.ctlValue i o
  | .mxe => s.mxeValue i o
  | .acm => s.acmValue i o
  | .vxe => none
  | .drain => s.drainValue i o
  | .exp => if o = Reg.exp_expStatus then some ((s.core i).enc.length * 256) else none
  | .kvw => s.kvwValue i o
  | .state => s.stateValue i o
  | .clerk => s.clerkValue i o
  | .cnt => none
  | .box => s.boxValue i o

/-- A counter word (R397, R436): the low word live, the high word as the low word's read latched it. -/
def State.counterValue (s : State) (a : Nat) : Option Nat :=
  match counterAt a with
  | some (latched, key, true) => some (cellGet 0 (if latched then s.ctr.latched else s.ctr.live) key).toNat
  | some (_, _, false) => some (cellGet 0 s.ctr.high a).toNat
  | none => none

/-- The sub-pages of a core held in reset other than CTL read their reset values (R441). -/
def State.deadPage (s : State) (p : Pg) (i o : Nat) : Bool :=
  p.isCore && p != .ctl && decide (0x40 ≤ o) && (s.core i).state == .reset

/-- The word at an address of a page: what the state says, else what the register holds, its write-only bits 0. -/
def State.regValue (s : State) (p : Pg) (i o : Nat) : W32 :=
  let a := regAddr p i o
  if s.deadPage p i o then regReset a
  else
    match s.counterValue a with
    | some v => BitVec.ofNat 32 v
    | none =>
      match (s.commonValue p i o).or (s.blockValue p i o) with
      | some v => BitVec.ofNat 32 v
      | none =>
        match p.rowAt i o with
        | some r => s.reg a &&& BitVec.ofNat 32 (r.rw ||| r.rwl ||| r.w1c ||| r.ro)
        | none => 0

/-- The latches that a read sets (R271, R395, R397, R443). -/
def State.readLatch (s : State) (p : Pg) (o a : Nat) : State :=
  let s := s.counterLowRead a
  if p = .time ∧ o = Reg.time_roundNowLo then s.roundNowRead
  else if p = .log ∧ o = Reg.log_logOldestLo then s.logOldestRead
  else if p = .log ∧ o = Reg.log_logLatchRoundLo then
    s.setReg (regAddr .log 0 Reg.log_logLatchRoundHi) (BitVec.ofNat 32 (s.latchRound / 2 ^ 32))
  else if p = .hub ∧ o = Reg.hub_sigPmLo then s.sigPmRead
  else s

/-- Registers whose value is measured and carried by no command: a free value (R417, R423). -/
def State.freeRead (s : State) (p : Pg) (o : Nat) : Option (State × Nat) :=
  if p = .supply ∧ o = Reg.supply_inputPower then
    let n := s.draw
    some (n.2, Config.freeChoice n.1 % 65536)
  else if p = .hostif ∧ o = Reg.hostif_laneDiag ∧ s.host.speed = 0 then
    let n := s.draw
    some (n.2, ((List.range 8).map (fun k => Config.freeChoice n.1 / 8 ^ k % 8 % 5 * 16 ^ k)).sum)
  else none

/-- The pattern unit and lane whose PRBS_ERR_LO lies at an offset. -/
def errLoAt (p : Pg) (i o : Nat) : Option (Nat × Nat) :=
  let n := if p = .hostif then 24 else i
  if (p = .link ∨ p = .hostif) ∧ Reg.link_prbsErrLo ≤ o ∧ o < Reg.link_prbsErrLo + 16 * patLanes n ∧ o % 16 = 0 then
    some (n, (o - Reg.link_prbsErrLo) / 16)
  else none

/-- Read a register of a page. -/
def State.readPage (s : State) (p : Pg) (i o : Nat) : State × W32 :=
  match errLoAt p i o with
  | some (n, l) =>
    let r := s.prbsErrRead n l
    (r.1, BitVec.ofNat 32 r.2)
  | none =>
    match s.freeRead p o with
    | some r => (r.1, BitVec.ofNat 32 r.2)
    | none => (s.readLatch p o (regAddr p i o), s.regValue p i o)

/-- An access that no page takes counts and is flagged in the HUB page (R433). -/
def State.undecoded (s : State) (a : Nat) (write : Bool) : State := (s.bump .hub 0 8 1).flagAccess .hub 0 a write

/-- Read the register space (R432, R433): `size` in bytes. -/
def State.regRead (s : State) (a size : Nat) : State × W32 :=
  match pageOf a with
  | none => (s.undecoded a false, 0)
  | some (p, i) => if size ≠ 4 ∨ a % 4 ≠ 0 then (s.flagAccess p i a false, 0) else s.readPage p i (a % 0x1000)

end Sys2Proof.Machine
end

