-- ==== Sys2Proof/Machine/Sorting.lean ====
section
/-! DEFINITION. Membership (R275, R290 to R299), route changes (R288), end-to-end timeouts (R287), flooded packets (R282)
and formation (R11, R274, R285). -/

namespace Sys2Proof.Machine

/-! ### The membership table (R275, R290) -/

/-- A position's member state. -/
def State.member (s : State) (p : Nat) : Member := s.fab.members.getD p .absent

def State.setMember (s : State) (p : Nat) (m : Member) : State :=
  (s.setFab (fun f => { f with members := f.members.set p m })).changed .link 0

/-- The epoch becomes `e` (R290). -/
def State.setEpoch (s : State) (e : Nat) : State :=
  (s.setFab (fun f => { f with prevEpoch := f.epoch, epoch := e, epochAt := s.time.t })).bump .link 0 16 1

/-- An epoch that a flooded packet carries is taken where it is new here. -/
def State.followEpoch (s : State) (e : Nat) : State := if s.fab.epoch < e then s.setEpoch e else s

/-- Time of the last heartbeat of a position. -/
def State.lastBeat (s : State) (p : Nat) : Nat := cellGet 0 s.fab.heartbeat p

/-- FAB_HB.INTERVAL in ns and FAB_HB.MISS (R300). -/
def State.beat (s : State) : Nat := 1000 * min (max (s.field .link 0 Reg.link_fabHb 15 0) 10) 10000
def State.beatMiss (s : State) : Nat := max 4 (s.field .link 0 Reg.link_fabHb 31 24)

/-- Positions that the sorting office reaches: itself, and each member heard within the last 2 ms (R291). -/
def State.reached (s : State) : List Nat :=
  (List.range 64).filter (fun p => s.forwards p && (p == s.pos || decide (s.time.t ≤ 2000000 + s.lastBeat p)))

/-- More than half of the members (R291). -/
def State.majority (s : State) : Bool :=
  decide (((List.range 64).filter s.forwards).length < 2 * s.reached.length)

/-- No majority: admission stops, and the event is recorded (R291). -/
def State.loseMajority (s : State) : State :=
  if s.fab.noMajority then s
  else (s.setFab (fun f => { f with noMajority := true })).event { pageRec .link 0 0x0703 .error with a := s.reached.length }

/-! ### Route changes (R288) -/

/-- FAB_CMD_STATUS.RESULT. -/
def State.cmdResult (s : State) (r : Nat) : State := (s.setFab (fun f => { f with cmdResult := r })).changed .link 0

/-- This module's words of the flooded tables are installed. -/
def State.installRoutes (s : State) (gen : Nat) (routes : List Nat) : State :=
  let own := (routes.drop (64 * s.pos)).take 64
  s.setFab (fun f => { f with routes := own.map (BitVec.ofNat 12), routeGen := gen })

/-- STOP for the next generation, and its tables (R288 steps 2 and 3). `count`: a change counts in REROUTES. -/
def State.startRoutes (s : State) (count : Bool) : State :=
  let gen := (match s.fab.work with | some w => w.gen + 1 | none => s.fab.routeGen + 1) % 65536
  let s := s.bump .link 0 19 (b2n count)
  let routes := s.allRoutes
  let s := (s.floodMsg (.routeStop gen)).setFab (fun f => { f with stopped := true, work := some { gen := gen, acks := [s.pos] } })
  (s.installRoutes gen routes).floodMsg (.routeTables gen routes)

/-- ROUTE_CHANGE (R288): of the sorting office. -/
def execRouteChange (s : State) : Ans := .next (s.when (s.fab.role == .manager) (s.startRoutes true))

/-- RECOMPUTE_ROUTES (R302): FAB_CMD, on the manager only. -/
def State.recompute (s : State) : State :=
  if s.fab.role = .manager then (s.startRoutes true).cmdResult 0
  else (s.cmdResult 1).flagAccess .link 0 (regAddr .link 0 Reg.link_fabCmd) true

def execRecomputeRoutes (s : State) : Ans := .next s.recompute

/-- Tables of the generation under way are installed and acknowledged (R288 step 3). -/
def State.takeTables (s : State) (gen : Nat) (routes : List Nat) : State :=
  match s.fab.work with
  | some w =>
    if w.gen = gen ∧ routes.length = 4096 then (s.installRoutes gen routes).floodMsg (.routeAck gen) else s
  | none => s

def execRouteTablesInstall (gen : Nat) (routes : List Nat) (s : State) : Ans := .next (s.takeTables gen routes)

/-- GO: injection resumes, and packets that wait are routed by the new tables (R288 step 4). -/
def State.routeGo (s : State) : State := ((s.setFab (fun f => { f with work := none })).resumeInjection).releaseWaiting

/-- ROUTE_GO (R288): the sorting office floods GO once every member has acknowledged; another module resumes. -/
def execRouteGo (gen : Nat) (s : State) : Ans :=
  match s.fab.work with
  | none => .next s
  | some w =>
    if w.gen ≠ gen then .next s
    else if s.fab.role = .manager then
      .next (s.when (((List.range 64).filter s.forwards).all (fun p => w.acks.contains p)) ((s.floodMsg (.routeGo gen)).routeGo))
    else .next s.routeGo

/-- ROUTE_WAIT_DISCARD (R288): 50 µs at a bundle that is SUB_MIN or DOWN; the oldest packet of the direction goes. -/
def execRouteWaitDiscard (dir : Nat) (s : State) : Ans :=
  match s.fab.waiting.find? (fun w => w.1 == dir) with
  | none => .next s
  | some w =>
    .next (s.when (!(s.bundle dir).full)
      ((s.setFab (fun f => { f with waiting := f.waiting.erase w })).bump .link 0 23 1))

/-! ### Loss of a module (R292 to R297) -/

/-- R293: a module that learns that it has been declared dead stops, records, flushes and resets itself. -/
def State.selfFence (s : State) (epoch : Nat) : State :=
  let s := (s.stopAll).event { pageRec .link 0 0x0709 .error with a := epoch }
  (s.flushRecorder).moduleReset 5 true

/-- FENCE (R280, R293): one hop. A module that is in no system takes no notice. -/
def execFence (port epoch : Nat) (s : State) : Ans :=
  let st := (s.link port).st
  .next (s.when (decide (port < 24 ∧ (st = .up ∨ st = .fenced) ∧ s.fab.role ≠ .none ∧ s.fab.role ≠ .joining)) (s.selfFence epoch))

/-- Ports of this module whose neighbour is `p` (R277). -/
def State.portsTo (s : State) (p : Nat) : List Nat :=
  (List.range 24).filter (fun n => (s.farEnd n).any (fun e => e.1 == p))

/-- R292 step 2. -/
def State.fencePorts (s : State) (p : Nat) : State :=
  (s.portsTo p).foldl (fun (s : State) n =>
    if (s.link n).st = .disabled ∨ (s.link n).st = .miswired then s
    else if (s.link n).st = .up then s.leaveUp n .fenced
    else s.moveLink n (fun l => { l with st := .fenced })) s

/-- What is on its way to or from a lost module is forgotten; completions for a lost manager wait for the new one
(R294). -/
def Fabric.forget (f : Fabric) (p : Nat) : Fabric :=
  let keep := fun (m : E2eOut) => m.dest != p || (p == f.manager && (match m.msg with | .result .. => true | _ => false))
  { f with
    sent := f.sent.filter keep, inbound := f.inbound.filter (fun e => e.src != p)
    nextSeq := f.nextSeq.filter (fun e => e.1 / 4 != p), unreachable := f.unreachable.filter (· ≠ p)
    leaving := f.leaving.filter (· ≠ p), heartbeat := f.heartbeat.filter (fun e => e.1 != p)
    budgets := f.budgets.filter (fun e => e.1 != p) }

/-- Groups registered with a buddy (R142). -/
def State.buddyGroups (s : State) (p : Nat) : List Group :=
  s.groups.filter (fun g => g.buddy == p && g.regMode != 0 && g.guest.isNone && !g.adopted)

/-- A new buddy for the groups of `old` (R144): it is asked to reserve their identifiers. -/
def State.rebuddy (s : State) (old new : Nat) : State :=
  (s.buddyGroups old).foldl (fun (s : State) g =>
    (s.modGroup g.index (fun g => { g with buddy := new })).sendMsg new 3
      (.register g.box g.frames g.streams g.block g.params)) s

/-- The next live module in POS_ID order that can reserve (R144): whether another can is a free choice. -/
def State.nextBuddy (s : State) (old : Nat) : Option Nat × State :=
  ((List.range 63).map (fun k => (old + 1 + k) % 64)).foldl (fun (r : Option Nat × State) p =>
    match r.1 with
    | some _ => r
    | none =>
      if p = r.2.pos ∨ r.2.member p ≠ .serving then r
      else
        let b := r.2.buddyCan p
        (if b.1 then some p else none, b.2)) (none, s)

/-- The buddy `p` is lost (R144): MIRROR reads 0b10; a spare is awaited where there is one, else another module is asked. -/
def State.buddyLost (s : State) (p : Nat) : State :=
  let gs := s.buddyGroups p
  if gs.isEmpty then s
  else
    let s := gs.foldl (fun (s : State) g => g.streams.foldl (fun (s : State) t =>
      s.modPlace t (fun x => if x.mirror = .none then x else { x with mirror := .resync })) s) s
    if s.fab.members.contains .spare then s
    else
      let b := s.nextBuddy p
      match b.1 with
      | some q => b.2.rebuddy p q
      | none => b.2

/-- What every member does at a declaration: steps 2, 3 and 5 of R292. -/
def State.applyDeath (s : State) (p : Nat) : State :=
  let s := ((s.setMember p .dead).setFab (fun f => f.forget p)).fencePorts p
  (s.adopt p).buddyLost p

/-- A spare serves (R297): the groups whose buddy was lost have it as their buddy. -/
def State.applyPromotion (s : State) (p : Nat) : State :=
  let s := s.setMember p .serving
  let s := if p = s.pos then s.setFab (fun f => { f with role := .serving }) else s
  (((s.groups.map (fun g => g.buddy)).dedup).filter (fun b => s.member b == .dead)).foldl (fun (s : State) b => s.rebuddy b p) s

/-- FAB_STANDBY names a standby, or none. -/
def State.setStandby (s : State) (o : Option Nat) : State :=
  let s := s.setFab (fun f => { f with standby := o })
  match o with
  | some p => (s.setField .link 0 Reg.link_fabStandby 6 6 1).setField .link 0 Reg.link_fabStandby 5 0 p
  | none => s.setField .link 0 Reg.link_fabStandby 6 6 0

/-- A new standby from the remaining spares whose host ports are cabled: which are is a free value. -/
def State.nameStandby (s : State) : State :=
  let n := s.draw
  n.2.setStandby ((List.range 64).find? (fun p => s.member p == .spare && (Config.freeChoice n.1).testBit p))

/-- The spare that is promoted (R297): the lowest that has passed its last slice and is not the standby, then the standby.
Which have passed is a free value of bits. -/
def State.pickSpare (s : State) (passed : Nat) : Option Nat :=
  let ok := fun (p : Nat) => s.member p == .spare && passed.testBit p
  ((List.range 64).find? (fun p => ok p && s.fab.standby != some p)).or ((List.range 64).find? ok)

/-- R292 step 6. -/
def State.promote (s : State) : State :=
  let n := s.draw
  let s := n.2
  match s.pickSpare (Config.freeChoice n.1) with
  | none => s.event { pageRec .link 0 0x0706 .error with a := 0 }
  | some p =>
    let s := (s.bump .link 0 20 1).event { pageRec .link 0 0x0705 .notice with a := p }
    let s := (s.floodMsg (.promotion p s.fab.epoch)).applyPromotion p
    if s.fab.standby = some p then s.nameStandby else s

/-- R292 step 4. -/
def State.failForwarded (s : State) (p : Nat) : State :=
  let ids := (s.fab.forwards.filter (fun f => f.pos == p)).map (fun f => f.item)
  let s := s.setFab (fun f => { f with forwards := f.forwards.filter (fun x => x.pos != p) })
  s.failItems (ids.filter (fun id => (s.item? id).any (fun i => i.disp.isNone))) { reason := .moduleLost, pos := some p }

/-- Code of a reason in the order of R291's table, from 1. -/
def deadCode : DeadReason → Nat
  | .linksLost => 1 | .heartbeat => 2 | .isolated => 3 | .leaving => 4 | .unreachable => 5 | .command => 6

/-- A declaration of death by the sorting office (R291, R292). -/
def State.declare (s : State) (p : Nat) (why : DeadReason) : State :=
  if !s.majority then s.loseMajority
  else
    let s := (s.setEpoch (s.fab.epoch + 1)).bump .link 0 17 1
    let s := s.event { pageRec .link 0 0x0704 .error with a := p, b := deadCode why }
    let s := s.signature 10 0xFFFF (BitVec.ofNat 64 (p + 256 * deadCode why)) 0
    let s := (s.floodMsg (.declaration p s.fab.epoch (deadCode why))).applyDeath p
    let s := s.failForwarded p
    let s := if s.fab.standby = some p then s.nameStandby else s
    (s.promote).startRoutes true

/-- The sorting office's condition for each reason (R291). COMMAND is FAB_CMD's. -/
def State.deadFor (s : State) (p : Nat) (why : DeadReason) : Bool :=
  let n := s.systemSize
  match why with
  | .linksLost => (List.range (dirCount n)).all (fun d => s.fab.lostReports.contains (neighbour n p d, opposite n d))
  | .heartbeat => decide (s.lastBeat p + s.beatMiss * s.beat ≤ s.time.t)
  | .isolated => (List.range (dirCount n)).all (fun d => !s.usableBundle p d)
  | .leaving => s.fab.leaving.contains p
  | .unreachable => s.fab.unreachable.contains p && decide (s.lastBeat p + s.beat < s.time.t)
  | .command => false

/-- A position that the sorting office may declare dead. -/
def State.mayDie (s : State) (p : Nat) : Bool := s.forwards p && p != s.pos && decide (p < 64)

/-- DECLARE_DEAD (R292). -/
def execDeclareDead (pos : Nat) (reason : DeadReason) (s : State) : Ans :=
  .next (s.when (s.fab.role == .manager && s.mayDie pos && s.deadFor pos reason) (s.declare pos reason))

/-- FAB_CMD DECLARE_DEAD (R291, R302). -/
def State.cmdDeclare (s : State) (p : Nat) : State :=
  if s.fab.role ≠ .manager then (s.cmdResult 1).flagAccess .link 0 (regAddr .link 0 Reg.link_fabCmd) true
  else if !s.mayDie p then s.cmdResult 3
  else if !s.majority then s.loseMajority.cmdResult 2
  else (s.declare p .command).cmdResult 0

def execFabCmdDeclareDead (pos : Nat) (s : State) : Ans := .next (s.cmdDeclare pos)

/-- FAB_CMD CLEAR_BAR (R275). -/
def State.cmdClearBar (s : State) (p : Nat) : State :=
  if s.fab.role ≠ .manager then (s.cmdResult 1).flagAccess .link 0 (regAddr .link 0 Reg.link_fabCmd) true
  else if s.member p ≠ .barred then s.cmdResult 3
  else ((s.setMember p .absent).setFab (fun f => { f with joinFails := f.joinFails.filter (fun x => x.1 != p) })).cmdResult 0

def execClearBar (pos : Nat) (s : State) : Ans := .next (s.cmdClearBar pos)

/-- HEARTBEAT_MISS (R291, R294): FAB_HB.MISS intervals pass without a heartbeat. The sorting office declares; a worker that
loses the manager where no standby is named stops admission. -/
def execHeartbeatMiss (pos : Nat) (s : State) : Ans :=
  if s.fab.role = .none ∨ s.fab.role = .joining ∨ !s.mayDie pos then .next s
  else
    let s := s.setTime (fun u => { u with t := max u.t (s.lastBeat pos + s.beatMiss * s.beat) })
    if s.fab.role = .manager then .next (s.declare pos .heartbeat)
    else .next (s.when (pos == s.fab.manager && s.fab.standby.isNone) (s.setFab (fun f => { f with noMajority := true })))

/-- HEARTBEAT_SEND (R291, R406): with the module's BUDGET. -/
def execHeartbeatSend (s : State) : Ans :=
  if s.fab.role = .none ∨ s.fab.role = .joining ∨ s.fab.role = .fenced then .next s
  else
    let s : State := { s with time := { s.time with t := max s.time.t (s.lastBeat s.pos + s.beat) } }
    .next ((s.setFab (fun f => { f with heartbeat := cellSet 0 f.heartbeat s.pos s.time.t })).floodMsg
      (.heartbeat s.pos s.pwr.budget))

/-- BUNDLE_LOST (R279): no member has been UP for 100 µs. -/
def execBundleLost (dir : Nat) (s : State) : Ans :=
  if ¬ (dir < dirCount s.systemSize ∧ s.bundle dir = .down ∧ s.fab.role ≠ .none) then .next s
  else
    .next ((s.noteBundle s.pos dir BundleSt.down.code true).floodMsg (.bundleReport s.pos dir BundleSt.down.code true))

/-- ISOLATED_TIMEOUT (R291): 10 ms. -/
def execIsolatedTimeout (pos : Nat) (s : State) : Ans :=
  .next (s.when (s.fab.role == .manager && s.mayDie pos && s.deadFor pos .isolated) (s.declare pos .isolated))

/-! ### A lost manager (R294) -/

/-- Completions held for the old manager go to the new one. -/
def State.redirectResults (s : State) (old new : Nat) : State :=
  let held := s.fab.sent.filter (fun m => m.dest == old)
  let s := s.setFab (fun f => { f with sent := f.sent.filter (fun m => m.dest != old) })
  held.foldl (fun (s : State) m => s.sendMsg new m.cls m.msg) s

/-- The rings of the dead manager's boxes as it copied them (R294, R325). No command carries the copy: rings and counts are
free values (log 41). -/
def State.inheritRings (s : State) : State :=
  let d := s.draw
  let s := d.2
  let v := fun (b k : Nat) => (Config.freeWord d.1 (64 * b + k)).toNat
  let counts := fun (b k : Nat) => ({ head := v b k, written := (v b k + v b (k + 1) % 65537) % 2 ^ 32 } : RingCounts)
  { s with
    host := { s.host with tookOver := true }
    boxes := s.boxes.zipIdx.map (fun (x : BoxSt × Nat) =>
      if x.1.state ≠ .active then x.1
      else
        let b := x.2
        { x.1 with
          subs := (List.range 8).filterMap (fun r =>
            if v b (5 * r) % 2 = 1 then
              some { index := r, addr := v b (5 * r + 1) + 2 ^ 32 * (v b (5 * r + 2) % 65536)
                     size := 2 ^ (6 + v b (5 * r + 3) % 11), taken := v b (5 * r + 4), tail := v b (5 * r + 4) }
            else none)
          cqN := counts b 40, dlqN := counts b 42 }) }

/-- STANDBY_TAKEOVER (R294): the standby declares the manager dead and takes its place. -/
def execStandbyTakeover (s : State) : Ans :=
  let old := s.fab.manager
  if s.fab.role ≠ .standby ∨ !s.mayDie old ∨ !s.deadFor old .heartbeat && !s.deadFor old .leaving && !s.deadFor old .linksLost then .next s
  else if !s.majority then .next s.loseMajority
  else
    let why : DeadReason := if s.deadFor old .linksLost then .linksLost else if s.deadFor old .heartbeat then .heartbeat else .leaving
    let s := (s.setEpoch (s.fab.epoch + 1)).bump .link 0 17 1
    let s := s.event { pageRec .link 0 0x0704 .error with a := old, b := deadCode why }
    let s := s.signature 10 0xFFFF (BitVec.ofNat 64 (old + 256 * deadCode why)) 0
    let s := (s.floodMsg (.declaration old s.fab.epoch (deadCode why))).applyDeath old
    let s := s.setEpoch (s.fab.epoch + 1)
    let s := (s.setMember s.pos .serving).setFab (fun f => { f with role := .manager, manager := s.pos, noMajority := false })
    let s := (s.inheritRings).floodMsg (.takeover s.pos s.fab.epoch)
    let s := (s.redirectResults old s.pos).failForwarded old
    let own := (s.items.filter (fun i => i.pos == old && i.disp.isNone)).map (fun i => i.id)
    let s := s.failItems own { reason := .moduleLost, pos := some old }
    .next ((s.nameStandby).startRoutes true)

/-! ### Flooded packets (R282) -/

/-- Clear what is held of a module that is admitted: it holds nothing of an earlier life (R298). -/
def State.admitMember (s : State) (p : Nat) : State :=
  let s := (s.setMember p .spare).setFab (fun f => { f.forget p with heartbeat := cellSet 0 f.heartbeat p s.time.t })
  (s.portsTo p).foldl (fun (s : State) n =>
    if (s.link n).st = .fenced ∨ (s.link n).st = .joining then
      let s := s.moveLink n (fun l => l.bringUp .up)
      State.pumpPort (s.link n).txWait.length s n
    else s) s

/-- Member state of a code, for a table whose copy this module has not seen. -/
def Member.ofCode (n : Nat) : Member :=
  match n with | 1 => .joining | 2 => .serving | 3 => .spare | 4 => .dead | 5 => .barred | _ => .absent

/-- This module is admitted (R298 step 8): it is a SPARE, and copies the sorting office's table, which is a free value
here but for its own position and the sender's. -/
def State.joined (s : State) (src epoch : Nat) : State :=
  let n := s.draw
  let table := ((List.range 64).map (fun p => Member.ofCode (Config.freeChoice n.1 / 8 ^ p % 8))).set src .serving
  let s := n.2.setFab (fun f => { f with
    members := table.set n.2.pos .spare, role := .spare, manager := src, epoch := epoch, prevEpoch := epoch
    epochAt := n.2.time.t, heartbeat := [(src, n.2.time.t)] })
  (s.changed .link 0).admitMember s.pos

/-- A heartbeat (R291, R406); with it a majority, or a worker's manager, may be back. -/
def State.takeHeartbeat (s : State) (src budget : Nat) : State :=
  let s := s.setFab (fun f => { f with
    heartbeat := cellSet 0 f.heartbeat src s.time.t, budgets := cellSet 0 f.budgets src budget
    unreachable := f.unreachable.filter (· ≠ src) })
  let back := if s.fab.role = .manager ∨ s.fab.role = .standby then s.majority else src == s.fab.manager
  if back then s.setFab (fun f => { f with noMajority := false }) else s

/-- What a MEMBER packet does at a module. -/
def State.takeMember (s : State) (src : Nat) (msg : MemberMsg) : State :=
  match msg with
  | .heartbeat budget => s.takeHeartbeat src budget
  | .bundleReport dir st lost => s.noteBundle src dir st lost
  | .unreachable p => if s.fab.role = .manager then s.setFab (fun f => { f with unreachable := p :: f.unreachable.filter (· ≠ p) }) else s
  | .declaration p e _ => if p = s.pos then s.selfFence e else (s.followEpoch e).applyDeath p
  | .promotion p e => (s.followEpoch e).applyPromotion p
  | .admission p e => (s.followEpoch e).admitMember p
  | .takeover p e =>
    let old := s.fab.manager
    let s := (s.followEpoch e).setMember p .serving
    let s := s.setFab (fun f => { f with manager := p, standby := none, noMajority := false })
    s.redirectResults old p
  | .routeStop gen => s.setFab (fun f => { f with stopped := true, work := some { gen := gen } })
  | .routeTables gen routes => s.takeTables gen routes
  | .routeAck gen =>
    match s.fab.work with
    | some w => if w.gen = gen then s.setFab (fun f => { f with work := some { w with acks := src :: w.acks.filter (· ≠ src) } }) else s
    | none => s
  | .routeGo gen =>
    match s.fab.work with
    | some w => if w.gen = gen then s.routeGo else s
    | none => s
  | .leaving => s.setFab (fun f => { f with leaving := src :: f.leaving.filter (· ≠ src) })

/-- MEMBER (R282). The admission of this module itself is exempt from R290 (R298). -/
def execMember (hdr : PktHdr) (msg : MemberMsg) (s : State) : Ans :=
  match msg with
  | .admission p e =>
    if p = s.pos ∧ s.fab.role = .joining then .next (s.joined hdr.src e)
    else .next (s.receiveFlood hdr (fun s => s.takeMember hdr.src msg))
  | _ => .next (s.receiveFlood hdr (fun s => s.takeMember hdr.src msg))

/-- BUDGET (R406): applied at the next round boundary. -/
def execBudget (hdr : PktHdr) (pos stamps : Nat) (s : State) : Ans :=
  .next (s.receiveFlood hdr (fun s => s.when (pos == s.pos) (s.setField .frank 0 Reg.frank_frankBudget 15 0 stamps)))

/-! ### End-to-end timeouts (R287) -/

/-- E2E_TIMEOUT (R287): resent up to eight times; then the destination is reported unreachable. -/
def execE2eTimeout (dest cls seq : Nat) (s : State) : Ans :=
  let is := fun (m : E2eOut) => m.dest == dest && m.cls == cls && m.seq == seq && !m.plain && m.injected
  match s.fab.sent.find? is with
  | none => .next s
  | some m =>
    if m.resends < 8 then
      let stopped := s.fab.stopped
      let s := (s.setFab (fun f => { f with
        sent := f.sent.map (fun x => if is x then { x with resends := x.resends + 1, injected := !stopped } else x) })).bump .link 0 18 1
      .next (if stopped then s else s.sendPlain dest cls seq m.msg)
    else
      let s := s.setFab (fun f => { f with sent := f.sent.filter (fun x => !is x) })
      if s.fab.role = .manager then .next (s.setFab (fun f => { f with unreachable := dest :: f.unreachable.filter (· ≠ dest) }))
      else .next (s.floodMsg (.unreachable dest))

/-! ### Joining and formation (R276, R285, R298) -/

/-- A rejoin attempt that fails at a step (R298): the third sets the position BARRED. -/
def State.joinFailed (s : State) (p step : Nat) : State :=
  let s := s.event { pageRec .link 0 0x0707 .error with a := p, b := step }
  let n := cellGet 0 s.fab.joinFails p + 1
  let s := s.setFab (fun f => { f with joinFails := cellSet 0 f.joinFails p n })
  if 3 ≤ n ∧ !s.forwards p then s.setMember p .barred else s

/-- Steps 4 to 8 of R298 at the sorting office. -/
def State.joinAt (s : State) (r : JoinReq) : State :=
  if r.version < s.fab.sysVer then (s.floodMsg (.joinRefused r.pos true)).joinFailed r.pos 4
  else if s.forwards r.pos ∨ s.member r.pos = .barred then (s.floodMsg (.joinRefused r.pos false)).joinFailed r.pos 4
  else
    let s := s.relaySet r.pos
    if !r.selfTestOk then s.joinFailed r.pos 6
    else if !r.quoteOk then s.joinFailed r.pos 7
    else
      let s := (s.setEpoch (s.fab.epoch + 1)).admitMember r.pos
      let s := s.setFab (fun f => { f with joinFails := f.joinFails.filter (fun x => x.1 != r.pos) })
      let s := (s.bump .link 0 21 1).event { pageRec .link 0 0x0708 .notice with a := r.pos }
      (s.floodMsg (.admission r.pos s.fab.epoch)).startRoutes true

/-- JOIN (R298): of this module, or, at the sorting office, of another. -/
def execJoin (req : JoinReq) (s : State) : Ans :=
  if req.pos = s.pos then
    .next (s.when (s.fab.role == .none && !s.pins.strapMgr)
      (((s.setFab (fun f => { f with role := .joining })).changed .link 0).floodMsg (.join s.pos)))
  else .next (s.when (s.fab.role == .manager && decide (req.pos < s.systemSize)) (s.joinAt req))

/-- The manager's fabric registers, in the order of `Instr.formation`. -/
def formRegs : List Nat :=
  [Reg.link_fabSize, Reg.link_fabVersion, Reg.link_fabSparesLo, Reg.link_fabSparesHi, Reg.link_fabStandby, Reg.link_fabHb,
   Reg.link_fabTimers, Reg.link_fabBundleMin]

/-- Spares named by FAB_SPARES (R276). -/
def State.spareMask (s : State) : Nat := s.regN .link 0 Reg.link_fabSparesLo + s.regN .link 0 Reg.link_fabSparesHi * 2 ^ 32

/-- The membership that formation sets: each position present serves, or is a spare where the mask names it. -/
def formMembers (n mgr mask : Nat) (present : List Nat) : List Member :=
  (List.range 64).map (fun p =>
    if !present.contains p ∨ n ≤ p then .absent
    else if p ≠ mgr ∧ mask.testBit p then .spare else .serving)

/-- FAB_STANDBY at formation: it must name a spare. -/
def State.formStandby (s : State) (members : List Member) : Option Nat :=
  let p := s.field .link 0 Reg.link_fabStandby 5 0
  if s.field .link 0 Reg.link_fabStandby 6 6 = 1 ∧ members.getD p .absent = .spare then some p else none

/-- The module's part in a system whose manager is `mgr` (R276, R285). -/
def State.formAs (s : State) (mgr : Nat) (present a1 : List Nat) : State :=
  let members := formMembers s.systemSize mgr s.spareMask present
  let standby := s.formStandby members
  let cap := s.field .link 0 Reg.link_fabVersion 3 0
  let ver := min (min (max cap 1) s.ownVersion) (if present.any a1.contains then 1 else 2)
  let role : Role := if s.pos = mgr then .manager else if standby = some s.pos then .standby
    else if members.getD s.pos .absent = .spare then .spare else .serving
  let s := s.setFab (fun f => { f with
    role := role, members := members, manager := mgr, standby := standby, sysVer := ver, epochAt := s.time.t
    heartbeat := present.map (fun p => (p, s.time.t)) })
  let s : State := { s with links := s.links.map (fun l => if l.st = .up then { l with version := ver } else l) }
  s.changed .link 0

/-- FORMATION (R11, R274, R276, R285, R336). -/
def execFormation (present managers a1 : List Nat) (cfg : List W32) (s : State) : Ans :=
  if s.fab.role ≠ .none ∨ !s.fw.booted ∨ !present.contains s.pos ∨ managers.contains s.pos ≠ s.pins.strapMgr ∨
      (s.pins.strapMgr ∧ s.fw.st ≠ .running) then .next s
  else
    let s := if s.pins.strapMgr then s
      else (formRegs.zip cfg).foldl (fun (s : State) x => s.setReg (regAddr .link 0 x.1) x.2) s
    match managers.dedup with
    | [mgr] =>
      if s.systemSize ≤ s.pos then .next { s with side := { s.side with posRange := true } }
      else
        let s := s.formAs mgr present a1
        if mgr = s.pos then
          let s := s.startRoutes false
          .next ((present.filter (fun p => p != s.pos && s.forwards p)).foldl (fun (s : State) p => s.relaySet p) s)
        else .next s
    | _ => .next { s with side := { s.side with mgrConflict := true } }

end Sys2Proof.Machine
end

