-- ==== Sys2Proof/Machine/RegBus.lean ====
section
/-! DEFINITION. Writes of registers: access types (R6), refusals (R432 to R435), the common registers (R436 to R439), the
core map (R442) and every register whose write acts. -/

namespace Sys2Proof.Machine

/-! ### Storing a register (R6) -/

/-- LOCK.LOCKED of a page. -/
def State.pageLocked (s : State) (p : Pg) (i : Nat) : Bool := bit (s.regN p i Reg.lock) 0

/-- Bits of `v` outside `m`. -/
def outside (v m : Nat) : Nat := v - (v &&& m)

/-- The word that a register holds after a write: RW bits, and RWL bits of a page not locked, are stored; ones clear W1C
bits. -/
def storedWord (r : RegRow) (locked : Bool) (old v : Nat) : Nat :=
  let m := if locked then r.rw else r.rw ||| r.rwl
  let new := outside old m ||| (v &&& m)
  outside new (v &&& r.w1c)

/-- A write of reserved bits, or of RWL bits of a locked page, is flagged. -/
def storeFlagged (r : RegRow) (locked : Bool) (v : Nat) : Bool :=
  outside v (r.rw ||| r.rwl ||| r.w1c ||| r.wo ||| r.ro) != 0 || (locked && r.rwl != 0)

/-- Store a register by its access types; its page's STATUS follows LOCK (R436). -/
def State.storeReg (s : State) (p : Pg) (i o : Nat) (r : RegRow) (v : Nat) : State :=
  let locked := s.pageLocked p i
  let s := if storeFlagged r locked v then s.flagAccess p i (regAddr p i o) true else s
  let s := s.setReg (regAddr p i o) (BitVec.ofNat 32 (storedWord r locked (s.regN p i o) v))
  if s.pageLocked p i = locked then s else s.changed p i

/-- A write that is refused: the field keeps its value, and the refusal is flagged (R435). -/
def State.refuseWrite (s : State) (p : Pg) (i o : Nat) : State := s.flagAccess p i (regAddr p i o) true

/-! ### The core map (R442) -/

/-- Physical core of a field of CORE_MAP, or 0xFF. -/
def mapField (v k : Nat) : Nat := bits v (8 * k + 7) (8 * k)

/-- May field `k` of CORE_MAPn change to the value that `v` gives it? -/
def State.mapOk (s : State) (n v k : Nat) : Bool :=
  let l := 4 * n + k
  let new := mapField v k
  let old := mapField (s.regN .hub 0 (Reg.hub_coreMap + 4 * n)) k
  let others := (List.range 64).filter (fun m => m != l)
  let mapped := fun (m : Nat) => if m / 4 = n then mapField v (m % 4) else (s.physical m).getD 0xFF
  new == old || new == 0xFF ||
    (decide (new < 68 ∧ coreDie new = l / 16) && others.all (fun m => mapped m != new) &&
      (old == 0xFF || (s.core old).state == .fenced || (s.core old).state == .drained || (s.core old).state == .reset) &&
      (s.core new).state == .drained)

/-- A write of CORE_MAPn changes the whole register, or none of it. -/
def State.coreMapWrite (s : State) (n v : Nat) : State :=
  let o := Reg.hub_coreMap + 4 * n
  if (List.range 4).all (s.mapOk n v) then (s.setReg (regAddr .hub 0 o) (BitVec.ofNat 32 v)).changed .hub 0
  else s.refuseWrite .hub 0 o

/-- CORE_MAP_WRITE (R442). -/
def execCoreMapWrite (index : Nat) (value : W32) (s : State) : Ans :=
  .next (s.when (decide (index < 16)) (s.coreMapWrite index value.toNat))

/-! ### Core registers -/

/-- ACM_MAP and ACM_CE_LIMIT take writes only while the core is DRAINED (R71). -/
def State.acmWrite (s : State) (c o v : Nat) (r : RegRow) : State :=
  if (s.core c).state = .drained then s.storeReg .acm c o r v else s.refuseWrite .acm c o

/-- ACM_MAP_WRITE (R71). -/
def execAcmMapWrite (core : Nat) (value : W32) (s : State) : Ans :=
  .next (s.when (decide (core < 68)) (s.acmWrite core Reg.acm_acmMap value.toNat { off := Reg.acm_acmMap, rw := 0xFFFF_FFFF }))

/-- STATE_WINDOW (R66, R149): of a DRAINED core, up to 64 units. A new size leaves no window copy: the arena slots hold the
states (log 36). -/
def State.windowWrite (s : State) (c v : Nat) : State :=
  let o := Reg.state_stateWindow
  let s := if outside v 0x7F = 0 then s else s.refuseWrite .state c o
  if (s.core c).state ≠ .drained ∨ 64 < v % 128 then s.refuseWrite .state c o
  else
    let s := s.setReg (regAddr .state c o) (BitVec.ofNat 32 (v % 128))
    { s with places := s.places.map (fun p =>
        if p.windowCore = some c then { p with window := none, windowCore := none } else p) }

/-- STATE_WINDOW_WRITE (R66). -/
def execStateWindowWrite (core : Nat) (value : W32) (s : State) : Ans :=
  .next (s.when (decide (core < 68)) (s.windowWrite core value.toNat))

/-- A stream handle as R126 lays it out. -/
def Place.handle (p : Place) (g : Group) : Nat :=
  p.posteDa % 2 ^ 48 * 2 ^ 464 + (if p.arena.isSome then p.arenaDa % 2 ^ 48 else 0) * 2 ^ 416 + p.lastUse % 2 ^ 48 * 2 ^ 368 +
    p.stepCount % 2 ^ 32 * 2 ^ 336 + p.seed.toNat * 2 ^ 304 + p.pinCount % 2 ^ 16 * 2 ^ 288 + p.lineage % 2 ^ 16 * 2 ^ 272 +
    p.group % 2 ^ 14 * 2 ^ 258 + p.place % 2 ^ 12 * 2 ^ 246 + p.stream % 2 ^ 18 * 2 ^ 228 + g.slotUnits % 2 ^ 11 * 2 ^ 217 +
    p.windowCore.getD 0x7F % 2 ^ 7 * 2 ^ 210 + p.residency.code * 2 ^ 208 + p.mirror.code * 2 ^ 206 + b2n p.live * 2 ^ 205 +
    b2n p.faulted * 2 ^ 204 + b2n p.held * 2 ^ 203 + b2n p.forced * 2 ^ 202

/-- HANDLE_SEL (R149): the handle of the stream is loaded, where its identifier is a place reserved to BOX. -/
def State.handleSel (s : State) (c v : Nat) : State :=
  let s := if outside v 0xFF_FFFF = 0 then s else s.refuseWrite .state c Reg.state_handleSel
  let s := s.setReg (regAddr .state c Reg.state_handleSel) (BitVec.ofNat 32 (v % 2 ^ 24))
  let h := (s.place? (bits v 17 0)).bind (fun p => (s.group? p.group).bind (fun g =>
    if g.box = bits v 23 18 then some (p.handle g) else none))
  let s := s.setReg (regAddr .state c Reg.state_handleStatus) (BitVec.ofNat 32 (b2n h.isSome * 2))
  (List.range 16).foldl (fun (s : State) n =>
    s.setReg (regAddr .state c (Reg.state_handleData + 4 * n)) (BitVec.ofNat 32 (h.getD 0 / 2 ^ (32 * n)))) s

/-- HANDLE_SEL_WRITE (R149). -/
def execHandleSelWrite (core : Nat) (value : W32) (s : State) : Ans :=
  .next (s.when (decide (core < 68)) (s.handleSel core value.toNat))

/-- KVW_CMD FLUSH (R178): each valid entry counts as invalidated. -/
def State.flushCore (s : State) (c : Nat) : State :=
  (s.bump .kvw c 3 (s.core c).lab.length).modCore c (fun k => { k with lab := [] })

/-- FLUSH (R178). -/
def execFlush (core : Nat) (s : State) : Ans := .next (s.when (decide (core < 68)) (s.flushCore core))

/-! ### Registers whose write acts -/

/-- CB_CMD (R202, R217): die 0 only, and only while no command is under way. -/
def State.cbCmd (s : State) (d v : Nat) : State :=
  let slot := bits v 27 22
  let box := bits v 21 16
  let va := s.regN .codebook 0 Reg.codebook_cbArgVaLo + s.field .codebook 0 Reg.codebook_cbArgVaHi 15 0 * 2 ^ 32
  let units := s.field .codebook 0 Reg.codebook_cbArgLen 23 0
  let bad := s.refuseWrite .codebook d Reg.codebook_cbCmd
  if d ≠ 0 ∨ s.cb.waiting.isSome then bad
  else
    let s := if outside v 0xFFFF_FE00 = 0 then s else bad
    match bits v 31 28 with
    | 0 => s
    | 1 => s.census slot box (bits v 11 10) (bit v 9) va units
    | 2 => s.replaceStaged slot box
    | 3 => s.replaceImage slot box va
    | 4 => s.cbRelease slot box
    | 5 => s.restore slot box (bits v 15 12) va
    | _ => s.refuseWrite .codebook d Reg.codebook_cbCmd

/-- TIER_CMD (R237, R245). -/
def State.tierWrite (s : State) (v : Nat) : State :=
  let va := s.regN .tier 0 Reg.tier_tierArgVaLo + s.field .tier 0 Reg.tier_tierArgVaHi 15 0 * 2 ^ 32
  let units := s.field .tier 0 Reg.tier_tierArgLen 23 0
  let bad := s.refuseWrite .tier 0 Reg.tier_tierCmd
  if s.tier.cmd.isSome then bad
  else
    let s := if outside v 0xFFC0_0000 = 0 then s else bad
    let op := bits v 31 28
    if op = 0 then s
    else if op ≤ 4 then s.tierCmd op (bits v 27 22) va units
    else s.refuseWrite .tier 0 Reg.tier_tierCmd

/-- FW_CMD (R347). -/
def State.fwCmd (s : State) (v : Nat) : State :=
  let bad := s.refuseWrite .fwctl 0 Reg.fwctl_fwCmd
  let s := if outside v 0xF000_000F = 0 then s else bad
  match bits v 31 28 with
  | 0 => s
  | 1 => s.hostRestart (bits v 3 0)
  | 2 => s.escalate 0 0 0 4
  | _ => s.refuseWrite .fwctl 0 Reg.fwctl_fwCmd

/-- KEY_CMD (R361). -/
def State.keyCmd (s : State) (v : Nat) : State :=
  let bad := s.refuseWrite .sec 0 Reg.sec_keyCmd
  let s := if outside v 0xF000_003F = 0 then s else bad
  match bits v 31 28 with
  | 1 => s.keyInstall (bits v 5 0)
  | 2 => s.keyClear (bits v 5 0)
  | _ => s.refuseWrite .sec 0 Reg.sec_keyCmd

/-- FAB_CMD (R302). -/
def State.fabCmd (s : State) (v : Nat) : State :=
  let bad := s.refuseWrite .link 0 Reg.link_fabCmd
  let s := if outside v 0xF000_003F = 0 then s else bad
  match bits v 31 28 with
  | 0 => s
  | 1 => s.cmdDeclare (bits v 5 0)
  | 2 => s.cmdClearBar (bits v 5 0)
  | 3 => s.recompute
  | _ => s.refuseWrite .link 0 Reg.link_fabCmd

/-- FAB_STANDBY (R302): it must name a spare; in a formed system the sorting office takes it at once. -/
def State.standbyWrite (s : State) (r : RegRow) (v : Nat) : State :=
  let p := bits v 5 0
  if !s.formed then s.storeReg .link 0 Reg.link_fabStandby r v
  else if bit v 6 && s.member p != .spare then s.refuseWrite .link 0 Reg.link_fabStandby
  else (s.storeReg .link 0 Reg.link_fabStandby r v).setStandby (if bit v 6 then some p else none)

/-- LINK_CTRL (R280, R301). -/
def State.linkCtrlWrite (s : State) (n v : Nat) : State :=
  let s := if outside v 3 = 0 then s else s.refuseWrite .link n Reg.link_linkCtrl
  let s := s.enableLink n (bit v 0)
  if bit v 1 then s.retrainPort n else s

/-- BOX_CMD (R267, R273), by a PBP session where one writes it. -/
def State.boxCmd (s : State) (session : Option Nat) (b v : Nat) : State :=
  let s := if outside v 3 = 0 then s else s.boxCmdBad b
  match v % 4 with
  | 0 => s
  | 1 => s.enableBox b session
  | 2 => if (s.box b).state = .active then s.disableBox b else s.boxCmdBad b
  | _ => s.boxCmdBad b

/-- CORE_CMD (R69). -/
def State.coreCmd (s : State) (c v : Nat) : State :=
  let s := if outside v 3 = 0 then s else s.refuseWrite .ctl c Reg.ctl_coreCmd
  match v % 4 with
  | 0 => s
  | 1 => s.drainCore c
  | 2 => s.resumeCore c
  | _ => s.refuseWrite .ctl c Reg.ctl_coreCmd

/-- Registers of the manager take writes on the manager only (R302, R416). -/
def State.managerHere (s : State) : Bool := s.fab.role == .manager || (s.fab.role == .none && s.pins.strapMgr)

/-- A write of a register of the hub's pages that acts; none where the register only stores. -/
def State.hubWrite (s : State) (p : Pg) (o v : Nat) (r : RegRow) : Option State :=
  match p with
  | .hub =>
    if Reg.hub_coreMap ≤ o ∧ o < Reg.hub_coreMap + 64 then some (s.coreMapWrite ((o - Reg.hub_coreMap) / 4) v)
    else if o = Reg.hub_sigCursor then
      some ((if outside v 0xF_FFFF = 0 then s else s.refuseWrite .hub 0 o).sigCursorWrite (BitVec.ofNat 32 v))
    else none
  | .time =>
    if o = Reg.time_timeCtrl ∧ bit v 31 then some ((s.storeReg .time 0 o r v).localStart)
    else if Reg.time_collection ≤ o ∧ o < Reg.time_collection + 64 then
      some ((s.storeReg .time 0 o r v).setTime (fun u => { u with
        collWritten := setInsert u.collWritten ((o - Reg.time_collection) / 4) }))
    else if Reg.time_quietStart ≤ o ∧ o < Reg.time_quietStart + 32 then
      some ((s.storeReg .time 0 o r v).setTime (fun u => { u with quietWritten := true }))
    else none
  | .log => if o = Reg.log_logCursorLo then some (s.logCursorWrite (BitVec.ofNat 32 v)) else none
  | .sec =>
    if o = Reg.sec_secDbgCmd then
      some (let s := if outside v 1 = 0 then s else s.refuseWrite .sec 0 o
            if bit v 0 then s.relock.changed .sec 0 else s)
    else if Reg.sec_keyData ≤ o ∧ o < Reg.sec_keyData + 64 then
      some (s.setSec (fun c => { c with keyData := c.keyData.set ((o - Reg.sec_keyData) / 4) (BitVec.ofNat 32 v) }))
    else if o = Reg.sec_keyCmd then some (s.keyCmd v)
    else none
  | .fwctl => if o = Reg.fwctl_fwCmd then some (s.fwCmd v) else none
  | .hostif => if o = Reg.hostif_prbsCtrl then some (s.patternWrite 24 v) else none
  | _ => none

/-- The same for the pages that have several instances. -/
def State.unitWrite (s : State) (session : Option Nat) (p : Pg) (i o v : Nat) (r : RegRow) : Option State :=
  match p with
  | .link =>
    if o = Reg.link_linkCtrl then some (s.linkCtrlWrite i v)
    else if o = Reg.link_prbsCtrl then some (s.patternWrite i v)
    else if o = Reg.link_fabCmd then some (s.fabCmd v)
    else if o = Reg.link_fabStandby ∧ s.managerHere then some (s.standbyWrite r v)
    else none
  | .hbm =>
    if o = Reg.hbm_hbmMapoutCmd then
      some (let s := if outside v 0x1F = 0 then s else s.refuseWrite .hbm i o
            if bit v 4 then s.mapOut i (v % 16) 3 else s)
    else none
  | .tier => if o = Reg.tier_tierCmd then some (s.tierWrite v) else none
  | .codebook =>
    if o = Reg.codebook_cbCmd then some (s.cbCmd i v)
    else if Reg.codebook_regionCount ≤ o ∧ o % 8 = 4 ∧ 64 < v % 128 then some (s.refuseWrite .codebook i o)
    else none
  | .ctl => if o = Reg.ctl_coreCmd then some (s.coreCmd i v) else none
  | .acm => if o = Reg.acm_acmMap ∨ o = Reg.acm_acmCeLimit then some (s.acmWrite i o v r) else none
  | .kvw =>
    if o = Reg.kvw_kvwCmd then
      some (let s := if outside v 1 = 0 then s else s.refuseWrite .kvw i o
            if bit v 0 then s.flushCore i else s)
    else none
  | .state =>
    if o = Reg.state_stateWindow then some (s.windowWrite i v)
    else if o = Reg.state_handleSel then some (s.handleSel i v)
    else none
  | .box =>
    if o = Reg.box_boxCmd then some (s.boxCmd session i v)
    else if Reg.box_quotaPlaces ≤ o ∧ o ≤ Reg.box_quotaItems ∧ (s.box i).state ≠ .disabled then
      some (s.refuseWrite .box i o)  -- R265: quotas are written only while the box is DISABLED
    else none
  | _ => none

/-! ### One write -/

/-- Offsets that hold no register of a table but are read-only ranges: counters, the log window, the USE registers. -/
def readRange (p : Pg) (i o : Nat) : Bool :=
  (counterAt (regAddr p i o)).isSome || (p == .log && decide (0x400 ≤ o ∧ o < 0x800)) ||
    (p == .box && decide (0x080 ≤ o ∧ o < 0x0A0))

/-- Write a register of a page (R6, R435). `session`: the PBP session that makes it, where one does. -/
def State.writePageReg (s : State) (session : Option Nat) (p : Pg) (i o v : Nat) : State :=
  match p.rowAt i o with
  | none =>
    if readRange p i o then s
    else if v ≠ 0 ∨ (p = .link ∧ 0x400 ≤ o ∧ o < 0x580) then s.refuseWrite p i o
    else s
  | some r =>
    if s.deadPage p i o then s.refuseWrite p i o
    else if r.mgr && o != Reg.link_fabCmd && !s.managerHere then s.refuseWrite p i o
    else
      match if o < 0x40 then none else (s.hubWrite p o v r).or (s.unitWrite session p i o v r) with
      | some t => t
      | none => s.storeReg p i o r v

/-- Write the register space (R432, R433): `size` in bytes. -/
def State.regWrite (s : State) (session : Option Nat) (a size v : Nat) : State :=
  match pageOf a with
  | none => s.undecoded a true
  | some (p, i) => if size ≠ 4 ∨ a % 4 ≠ 0 then s.flagAccess p i a true else s.writePageReg session p i (a % 0x1000) v

/-- REGISTER_WRITE (R432, R433, R435). -/
def execRegisterWrite (addr size : Nat) (value : W32) (s : State) : Ans := .next (s.regWrite none addr size value.toNat)

/-- LOCK_WRITE (R436, R439): LOCKED is set on the page at `page`. -/
def execLockWrite (page : Nat) (s : State) : Ans := .next (s.regWrite none (page / 0x1000 * 0x1000 + Reg.lock) 4 1)

/-- W1C_WRITE (R6, R435): a bit that hardware sets in the same cycle stays set. -/
def execW1cWrite (addr : Nat) (value hwSets : W32) (s : State) : Ans :=
  match pageOf addr with
  | none => .next (s.undecoded addr true)
  | some (p, i) =>
    match p.rowAt i (addr % 0x1000) with
    | none => .next (s.regWrite none addr 4 value.toNat)
    | some r =>
      let t := s.regWrite none addr 4 value.toNat
      .next (if r.w1c = 0 ∨ addr % 4 ≠ 0 then t
        else t.setReg addr (t.reg addr ||| (hwSets &&& BitVec.ofNat 32 r.w1c)))

end Sys2Proof.Machine
end

