-- ==== Sys2Proof/Machine/VxeRows.lean ====
section
/-! DEFINITION. The vector engine's rows (R57): a VXOP at a clerk's program counter is issued and done in one step. -/

namespace Sys2Proof.Machine

/-- Issue the VXOP of opcode `op` that clerk `cl` is at: its tile registers and parameter word, which it consumes
(R61); a failing check ends the instance. -/
def State.vxop (s : State) (c cl op : Nat) (f : Exec → Vx → Res) : State :=
  match s.clerkOp c cl with
  | some (.vxop d a b o) =>
    if o ≠ op then s
    else
      let q := s.clerk c cl
      match f (s.execOf c) { d := q.tile d, a := q.tile a, b := q.tile b, parm := q.parm.toNat } with
      | .error e => s.failRun c e
      | .ok x => ((s.putExec c x).modClerk c cl (fun q => { q with parm := 0 })).retire c cl 4
  | _ => s

/-- ADD: D = A + B. -/
def execAdd (core clerk : Nat) (s : State) : Ans := .next (s.vxop core clerk 0x01 (vxBinary fadd))
/-- SUB: D = A − B. -/
def execSub (core clerk : Nat) (s : State) : Ans := .next (s.vxop core clerk 0x02 (vxBinary fsub))
/-- MUL: D = A × B. -/
def execMul (core clerk : Nat) (s : State) : Ans := .next (s.vxop core clerk 0x03 (vxBinary fmul))
/-- FMA: D = A × B + D, rounded once. -/
def execFma (core clerk : Nat) (s : State) : Ans := .next (s.vxop core clerk 0x04 vxFma)
/-- MIN. -/
def execMin (core clerk : Nat) (s : State) : Ans := .next (s.vxop core clerk 0x05 (vxBinary fmin))
/-- MAX. -/
def execMax (core clerk : Nat) (s : State) : Ans := .next (s.vxop core clerk 0x06 (vxBinary fmax))
/-- CMPLT: 1.0 where A < B, else 0.0. -/
def execCmplt (core clerk : Nat) (s : State) : Ans := .next (s.vxop core clerk 0x07 (vxBinary (fun a b => boolF32 (flt a b))))
/-- CMPEQ: 1.0 where A = B, else 0.0. -/
def execCmpeq (core clerk : Nat) (s : State) : Ans := .next (s.vxop core clerk 0x08 (vxBinary (fun a b => boolF32 (feq a b))))
/-- SEL: D = A where B is not 0. -/
def execSel (core clerk : Nat) (s : State) : Ans := .next (s.vxop core clerk 0x09 vxSel)
/-- CVT: A in D's format. -/
def execCvt (core clerk : Nat) (s : State) : Ans := .next (s.vxop core clerk 0x10 (vxUnary id false))
/-- ABS. -/
def execAbs (core clerk : Nat) (s : State) : Ans := .next (s.vxop core clerk 0x11 (vxUnary fabs false))
/-- NEG. -/
def execNeg (core clerk : Nat) (s : State) : Ans := .next (s.vxop core clerk 0x12 (vxUnary fneg false))
/-- EXP. -/
def execExp (core clerk : Nat) (s : State) : Ans := .next (s.vxop core clerk 0x13 (vxUnary fexp true))
/-- LOG. -/
def execLog (core clerk : Nat) (s : State) : Ans := .next (s.vxop core clerk 0x14 (vxUnary flog true))
/-- RCP. -/
def execRcp (core clerk : Nat) (s : State) : Ans := .next (s.vxop core clerk 0x15 (vxUnary frcp true))
/-- RSQRT. -/
def execRsqrt (core clerk : Nat) (s : State) : Ans := .next (s.vxop core clerk 0x16 (vxUnary frsqrt true))
/-- SIGMOID. -/
def execSigmoid (core clerk : Nat) (s : State) : Ans := .next (s.vxop core clerk 0x17 (vxUnary fsigmoid true))
/-- TANH. -/
def execTanh (core clerk : Nat) (s : State) : Ans := .next (s.vxop core clerk 0x18 (vxUnary ftanh true))
/-- RSUM. -/
def execRsum (core clerk : Nat) (s : State) : Ans := .next (s.vxop core clerk 0x20 (vxReduce rowSum))
/-- RMAX. -/
def execRmax (core clerk : Nat) (s : State) : Ans := .next (s.vxop core clerk 0x21 (vxReduce rowMax))
/-- RARGMAX. -/
def execRargmax (core clerk : Nat) (s : State) : Ans := .next (s.vxop core clerk 0x22 (vxReduce rowArgmax))
/-- RSUMSQ. -/
def execRsumsq (core clerk : Nat) (s : State) : Ans := .next (s.vxop core clerk 0x23 (vxReduce rowSumSq))
/-- SOFTMAX_STEP (R174). -/
def execSoftmaxStep (core clerk : Nat) (s : State) : Ans := .next (s.vxop core clerk 0x30 vxSoftmaxStep)
/-- SOFTMAX_FINAL (R175). -/
def execSoftmaxFinal (core clerk : Nat) (s : State) : Ans := .next (s.vxop core clerk 0x31 vxSoftmaxFinal)
/-- RMSNORM (R91). -/
def execRmsnorm (core clerk : Nat) (s : State) : Ans := .next (s.vxop core clerk 0x32 (vxNorm rmsRow))
/-- LAYERNORM (R92). -/
def execLayernorm (core clerk : Nat) (s : State) : Ans := .next (s.vxop core clerk 0x33 (vxNorm layerRow))
/-- SCAN (R129). -/
def execScan (core clerk : Nat) (s : State) : Ans := .next (s.vxop core clerk 0x34 vxScan)
/-- STATE_RMS (R145). -/
def execStateRms (core clerk : Nat) (s : State) : Ans := .next (s.vxop core clerk 0x35 vxStateRms)
/-- TOPK (R58). -/
def execTopk (core clerk : Nat) (s : State) : Ans := .next (s.vxop core clerk 0x36 vxTopk)
/-- POOL (R183). -/
def execPool (core clerk : Nat) (s : State) : Ans := .next (s.vxop core clerk 0x37 (vxWindow false))
/-- DWCONV (R182). -/
def execDwconv (core clerk : Nat) (s : State) : Ans := .next (s.vxop core clerk 0x38 (vxWindow true))

end Sys2Proof.Machine
end

