-- ==== Sys2Proof/Machine/Debug.lean ====
section
/-! DEFINITION. The TAP (R424 to R427) and the debug module (R428, R429). The addresses and fields of the RISC-V debug
module's registers, and of dcsr and mcontrol6, are PRESUMED from the RISC-V Debug Specification 1.0, which R428 names
(log 44). -/

namespace Sys2Proof.Machine

def State.setTest (s : State) (f : TestSt → TestSt) : State := { s with test := f s.test }

/-! ### The TAP (R424, R425) -/

/-- Select a data register: it captures `v`, of `width` bits. -/
def State.tapSelect (s : State) (ir : TapIr) (v width : Nat) : State :=
  (s.setTest (fun t => { t with ir := ir, dr := v })).emit (.tap v width)

/-- IDCODE (R425). -/
def State.idcode (s : State) : Nat := match s.stepping with | .A1 => 0x04A6_476F | .B0 => 0x14A6_476F

def execIdcode (s : State) : Ans := .next (s.tapSelect .idcode s.idcode 32)

/-- BYPASS (R424). -/
def execBypass (s : State) : Ans := .next (s.tapSelect .bypass 0 1)

/-- TAP_RESET (R424): IDCODE is selected. -/
def execTapReset (s : State) : Ans := .next (s.setTest (fun t => { t with ir := .idcode, dr := s.idcode }))

/-- A sample of the pins: the spec orders no boundary register, so that its bits are free values (R425). -/
def State.sampleBoundary (s : State) (ir : TapIr) : State :=
  let d := s.draw
  d.2.tapSelect ir (Config.boundarySample d.1).toNat 64

/-- EXTEST (R424). -/
def execExtest (s : State) : Ans := .next (s.sampleBoundary .extest)

/-- SAMPLE_PRELOAD (R424). -/
def execSamplePreload (s : State) : Ans := .next (s.sampleBoundary .sample)

/-- NONCE (R424, R427). -/
def execNonce (s : State) : Ans := .next (s.tapSelect .nonce s.sec.nonce.toNat 64)

/-- Debug is unlocked for a scope bit (R358). -/
def State.unlocked (s : State) (k : Nat) : Bool := bit s.sec.scope k

/-- DTMCS: version 1, 7 address bits and dmistat. -/
def execDtmcs (s : State) : Ans :=
  .next (s.tapSelect .dtmcs (b2n s.test.dmiFailed * 2 * 1024 + 7 * 16 + 1) 32)

/-- Production instructions act only while PASSPORT is not VALID; elsewhere they act as BYPASS (R426). -/
def State.production (s : State) (ir : TapIr) (width : Nat) (f : State → State) : State :=
  if s.passportOk then s.tapSelect .bypass 0 1
  else
    let d := s.draw
    (f d.2).tapSelect ir (Config.testSignature d.1).toNat width

/-- TAP_SCAN (R426): what the chains shift out is a free value. -/
def execTapScan (die : Nat) (_shiftIn : W64) (s : State) : Ans := .next (s.when (decide (die < 4)) (s.production .scan 64 id))

/-- LBIST (R426): the core keeps the corner and the pattern set; its signature is a free value. -/
def execLbist (core patternSet corner : Nat) (s : State) : Ans :=
  .next (s.when (decide (core < 68)) (s.production .lbist 64 (fun s =>
    s.modCore core (fun k => { k with nextPattern := (patternSet + 1) % 16, corner := corner }))))

/-- MBIST (R426): the contents of the memories marched through are free values. -/
def execMbist (_memory : Nat) (s : State) : Ans :=
  .next (s.production .mbist 64 (fun s =>
    let d := s.draw
    { d.2 with cores := d.2.cores.map (fun (k : Core) =>
      { k with cbuf := Store.free d.1, ph := List.replicate 9 (Store.free d.1) }) }))

/-! ### Harts (R428) -/

/-- Component of firmware processor `k` (R329). -/
def fpComp (k : Nat) : Nat := if k < 2 then 1 else k

/-- The hart lies in the unlocked scope. -/
def State.hartSeen (s : State) (h : Nat) : Bool := (decide (h < 272) && s.unlocked 0) || (decide (272 ≤ h ∧ h < 278) && s.unlocked 1)

/-- Harts of a fenced core, of a die held in reset, or of a component that is not loaded read as unavailable. -/
def State.hartThere (s : State) (h : Nat) : Bool :=
  if h < 272 then (s.core (h / 4)).state != .fenced && (s.core (h / 4)).state != .reset
  else (s.comp (fpComp (h - 272))).st != .absent

def State.hartHalted (s : State) (h : Nat) : Bool :=
  if h < 272 then (s.clerk (h / 4) (h % 4)).state == .halted
  else (s.hart h).halted && (s.comp (fpComp (h - 272))).st == .halted

/-- A hart that was halted and has been reset since (R428). -/
def State.haveReset (s : State) (h : Nat) : Bool := (s.hart h).halted && !s.hartHalted h

def State.modHart (s : State) (h : Nat) (f : Hart → Hart) : State :=
  s.setTest (fun t => { t with harts := f (s.hart h) :: t.harts.filter (fun x => x.num != h) })

/-- Halt a hart. -/
def State.haltHart (s : State) (h : Nat) : State :=
  if !s.hartSeen h ∨ !s.hartThere h ∨ s.hartHalted h then s
  else if h < 272 then
    let st := (s.clerk (h / 4) (h % 4)).state
    (s.modHart h (fun x => { x with halted := true, was := st })).modClerk (h / 4) (h % 4) (fun q => { q with state := .halted })
  else
    let k := fpComp (h - 272)
    (s.modHart h (fun x => { x with halted := true })).modComp k (fun c =>
      if c.st = .running ∨ c.st = .starting then { c with st := .halted } else c)

/-- HART_HALT (R428). -/
def execHartHalt (hart : Nat) (s : State) : Ans := .next (s.haltHart hart)

/-- Resume a halted hart; SUPERVISOR runs again when neither of its processors is halted. -/
def State.resumeHart (s : State) (h : Nat) : State :=
  if !s.hartSeen h ∨ !s.hartHalted h then s
  else if h < 272 then (s.unhaltClerk h).modHart h (fun x => { x with halted := false })
  else
    let s := s.modHart h (fun x => { x with halted := false })
    if h < 274 ∧ (s.hartHalted 272 ∨ s.hartHalted 273) then s
    else s.modComp (fpComp (h - 272)) (fun c => if c.st = .halted then { c with st := .running } else c)

/-- HART_RESUME (R428). -/
def execHartResume (hart : Nat) (s : State) : Ans := .next (s.resumeHart hart)

/-- The state that a meaning answers. -/
def Ans.orElse (a : Ans) (s : State) : State := match a with | .next t => t | _ => s

/-- The VXOP row of an opcode (R57). -/
def vxRow (o : Nat) : Nat → Nat → State → Ans :=
  match o with
  | 0x01 => execAdd | 0x02 => execSub | 0x03 => execMul | 0x04 => execFma | 0x05 => execMin | 0x06 => execMax
  | 0x07 => execCmplt | 0x08 => execCmpeq | 0x09 => execSel | 0x10 => execCvt | 0x11 => execAbs | 0x12 => execNeg
  | 0x13 => execExp | 0x14 => execLog | 0x15 => execRcp | 0x16 => execRsqrt | 0x17 => execSigmoid | 0x18 => execTanh
  | 0x20 => execRsum | 0x21 => execRmax | 0x22 => execRargmax | 0x23 => execRsumsq | 0x30 => execSoftmaxStep
  | 0x31 => execSoftmaxFinal | 0x32 => execRmsnorm | 0x33 => execLayernorm | 0x34 => execScan | 0x35 => execStateRms
  | 0x36 => execTopk | 0x37 => execPool | 0x38 => execDwconv
  | _ => fun _ _ s => .next s

/-- The instruction that a clerk is at, executed by its row. -/
def State.stepClerk (s : State) (c cl : Nat) : State :=
  let row := fun (f : Nat → Nat → State → Ans) => (f c cl s).orElse s
  match s.clerkOp c cl with
  | some (.tdld _ _) => row execTdld
  | some (.tdst _ _) => row execTdst
  | some (.tdset _ _ _) => row execTdset
  | some (.tparm _) => row execTparm
  | some (.tstat _) => row execTstat
  | some (.mxwl _) => row execMxwl
  | some (.mxmul _ _ _ _ _) => row execMxmul
  | some (.drn _ _ _ _) => row execDrn
  | some (.crr _ _ _) => row execCrr
  | some (.twait _) => row execTwait
  | some (.ecall _) => row execEcall
  | some (.vxop _ _ _ o) => row (vxRow o)
  | some (.base w len) =>
    match (s.execOf c).rv cl w len with
    | .walk _ => row execWalkIssue
    | _ => row execRv64imacInstruction
  | _ => row execRv64imacInstruction

/-- Execute one instruction of a halted clerk, which halts again behind it unless the instruction ended its instance. -/
def State.singleStep (s : State) (h : Nat) : State :=
  let c := h / 4
  let cl := h % 4
  let s := s.unhaltClerk h
  let s := s.stepClerk c cl
  if (s.core c).run.isNone then s
  else
    let st := (s.clerk c cl).state
    (s.modHart h (fun x => { x with halted := true, was := st })).modClerk c cl (fun q => { q with state := .halted })

/-- HART_SINGLE_STEP (R428): dcsr.step. What a firmware processor's instruction does is its image's, which the spec does
not give: its registers become free values. -/
def execHartSingleStep (hart : Nat) (s : State) : Ans :=
  if !s.hartSeen hart ∨ !s.hartHalted hart then .next s
  else if hart < 272 then .next (s.singleStep hart)
  else .next (s.modHart hart (fun x => { x with
    regs := x.regs.filter (fun r => [0x7A0, 0x7A1, 0x7A2, 0x7B0].contains (r.1 % 65536)) }))

/-! ### Registers of a hart (R428) -/

/-- Triggers of a hart. -/
def hartTriggers (h : Nat) : Nat := if h < 272 then 4 else 8

/-- Where a debug register of a hart stands: tdata1 and tdata2 are those of the trigger that tselect selects. -/
def State.hartKey (s : State) (h regno : Nat) : Nat :=
  if regno = 0x7A1 ∨ regno = 0x7A2 then
    regno + 65536 * ((cellGet (0 : W64) (s.hart h).regs 0x7A0).toNat % hartTriggers h)
  else regno

/-- Registers that the Access Register command reaches: a clerk's general registers and dpc, dcsr and the triggers. -/
def regnoOk (h regno : Nat) : Bool :=
  decide (0x1000 ≤ regno ∧ regno < 0x1020) || [0x7A0, 0x7A1, 0x7A2, 0x7B0, 0x7B1].contains regno || decide (272 ≤ h ∧ regno < 0x1040)

/-- The value of a register of a halted hart; a firmware processor's is a free value until one is written. -/
def State.readHart (s : State) (h regno : Nat) : State × W64 :=
  if h < 272 ∧ 0x1000 ≤ regno ∧ regno < 0x1020 then (s, (s.clerk (h / 4) (h % 4)).getX (regno - 0x1000))
  else if h < 272 ∧ regno = 0x7B1 then (s, (s.clerk (h / 4) (h % 4)).pc)
  else
    let k := s.hartKey h regno
    if h < 272 ∨ (s.hart h).regs.any (fun r => r.1 == k) ∨ [0x7A0, 0x7A1, 0x7A2].contains regno then (s, cellGet 0 (s.hart h).regs k)
    else
      let d := s.draw
      (d.2, Config.freeDouble d.1)

def State.writeHart (s : State) (h regno : Nat) (v : W64) : State :=
  if h < 272 ∧ 0x1000 ≤ regno ∧ regno < 0x1020 then s.modClerk (h / 4) (h % 4) (fun q => q.setX (regno - 0x1000) v)
  else if h < 272 ∧ regno = 0x7B1 then s.modClerk (h / 4) (h % 4) (fun q => { q with pc := v })
  else
    let k := s.hartKey h regno
    s.modHart h (fun x => { x with regs := (k, v) :: x.regs.filter (fun r => r.1 != k) })

/-- Address of abstractcs, and cmderr in it. -/
def dmAbstractcs : Nat := 0x16

def State.dmReg (s : State) (a : Nat) : W32 := cellGet 0 s.test.dm a
def State.setDm (s : State) (a : Nat) (v : W32) : State := s.setTest (fun t => { t with dm := cellSet 0 t.dm a v })

/-- cmderr keeps the first error until it is cleared. -/
def State.cmderr (s : State) (e : Nat) : State :=
  if bits (s.dmReg dmAbstractcs).toNat 10 8 = 0 then s.setDm dmAbstractcs (BitVec.ofNat 32 (e * 256)) else s

/-- The Access Register command (R428): cmderr 4 where the hart is not halted, 2 for a register not supported. The value
goes to data0 and data1. -/
def State.accessRegister (s : State) (h regno : Nat) (write : Option W64) : State :=
  if !s.hartSeen h then s
  else if !s.hartHalted h then s.cmderr 4
  else if !regnoOk h regno then s.cmderr 2
  else match write with
    | some v => s.writeHart h regno v
    | none =>
      let r := s.readHart h regno
      (r.1.setDm 0x04 (r.2.setWidth 32)).setDm 0x05 ((r.2 >>> 32).setWidth 32)

/-- ACCESS_REGISTER (R428). -/
def execAccessRegister (hart regno : Nat) (write : Option W64) (s : State) : Ans := .next (s.accessRegister hart regno write)

/-! ### Triggers (R428) -/

/-- Does trigger `k` of a hart match: mcontrol6, an address equal to tdata2, for an execute (kind 0), load (1) or store
(2)? -/
def State.triggerHit (s : State) (h k kind : Nat) (address : W64) : Bool :=
  let t1 := (cellGet (0 : W64) (s.hart h).regs (0x7A1 + 65536 * k)).toNat
  let t2 := cellGet (0 : W64) (s.hart h).regs (0x7A2 + 65536 * k)
  bits t1 63 60 == 6 && bits t1 10 7 == 0 && t2 == address && bit t1 (match kind with | 0 => 2 | 1 => 0 | _ => 1)

/-- TRIGGER_MATCH (R428). -/
def execTriggerMatch (hart kind : Nat) (address : W64) (s : State) : Ans :=
  .next (s.when ((List.range (hartTriggers hart)).any (fun k => s.triggerHit hart k kind address)) (s.haltHart hart))

/-! ### The system bus (R429) -/

/-- A page that some box maps as PROTECTED. -/
def State.protectedPage (s : State) (page : Nat) : Bool :=
  s.boxes.any (fun x => x.pt.any (fun p => pteValid p.2 && pteProtected p.2 && pteDa p.2 / pageSize == page))

/-- SEC key registers (R434). -/
def secKeyReg (a : Nat) : Bool :=
  match pageOf a with
  | some (.sec, _) => decide (Reg.sec_keyData ≤ a % 0x1000 ∧ a % 0x1000 < Reg.sec_keyData + 64) || a % 0x1000 == Reg.sec_keyCmd
  | _ => false

/-- A register access of the bus: sberror, the state and the value read. -/
def State.busRegister (s : State) (a size : Nat) (write : Option W64) : State × Nat × W64 :=
  if (pageOf a).isNone then (s, 2, 0)
  else if size ≠ 4 then (s, 4, 0)
  else if a % 4 ≠ 0 then (s, 3, 0)
  else match write with
    | some v => if secKeyReg a then (s, 7, 0) else (s.regWrite none a 4 (v.toNat % 2 ^ 32), 0, 0)
    | none =>
      let r := s.regRead a 4
      (r.1, 0, r.2.setWidth 64)

/-- A device access of the bus. A write of a page that the device holds may meet the retained image store, whose place
firmware chose: a free choice (R221, R429). -/
def State.busMemory (s : State) (da size : Nat) (write : Option W64) : State × Nat × W64 :=
  if s.home da = .none then (s, 2, 0)
  else if size ≠ 4 ∧ size ≠ 8 then (s, 4, 0)
  else if da % size ≠ 0 then (s, 3, 0)
  else if s.protectedPage (da / pageSize) then (s, 7, 0)
  else match write with
    | none =>
      if s.poisonAt da then (s, 7, 0)
      else (s, 0, BitVec.ofNat 64 (leNat ((List.range size).map (fun i => s.byteAt (da + i)))))
    | some v =>
      let held := s.held.any (fun r => r.use == .device && decide (r.first ≤ da / pageSize ∧ da / pageSize < r.first + r.count))
      let d := s.draw
      if held ∧ Config.freeChoice d.1 % 2 = 0 then (d.2, 7, 0)
      else ((if held then d.2 else s).memWrite da (leBytes size v.toNat) (fun _ => false), 0, 0)

/-- Address registers of the system bus in the debug module. -/
def dmSbcs : Nat := 0x38
def dmSbaddress : Nat := 0x39
def dmSbdata : Nat := 0x3C

def State.sbAddress (s : State) : W64 :=
  (s.dmReg (dmSbaddress + 1)).setWidth 64 <<< 32 ||| (s.dmReg dmSbaddress).setWidth 64

/-- The access of the bus with its error and data in sbcs and sbdata, and autoincrement. -/
def State.systemBus (s : State) (address : W64) (size : Nat) (write : Option W64) : State :=
  if !s.unlocked 2 then s
  else
    let a := address.toNat
    let r := if bit a 63 then s.busRegister (a % 2 ^ 32) size write else s.busMemory (a % 2 ^ 48) size write
    let s := r.1
    let err := r.2.1
    let v := r.2.2
    let sbcs := (s.dmReg dmSbcs).toNat
    let s := if err ≠ 0 then s.setDm dmSbcs (BitVec.ofNat 32 (setBits sbcs 14 12 err))
      else
        let next := BitVec.ofNat 64 (a + size)
        let s := if bit sbcs 16 then
            (s.setDm dmSbaddress (next.setWidth 32)).setDm (dmSbaddress + 1) ((next >>> 32).setWidth 32)
          else s
        if write.isSome then s else (s.setDm dmSbdata (v.setWidth 32)).setDm (dmSbdata + 1) ((v >>> 32).setWidth 32)
    s.emit (.sbus err v)

/-- SYSTEM_BUS_ACCESS (R429). -/
def execSystemBusAccess (address : W64) (size : Nat) (write : Option W64) (s : State) : Ans :=
  .next (s.systemBus address size write)

/-! ### The program buffer (R428) -/

/-- Bytes of the eight words of the program buffer. -/
def State.progbuf (s : State) : List Byte := (List.range 8).flatMap (fun k => leBytes 4 (s.dmReg (0x20 + k)).toNat)

/-- Execute the program buffer on a halted clerk from byte `off` on, up to an EBREAK; base instructions only, and its end
or a trap is cmderr 3. -/
def State.runProgbuf : Nat → State → Nat → Nat → State
  | 0, s, _, _ => s.cmderr 3
  | fuel + 1, s, h, off =>
    let bs := s.progbuf
    let half := numAt bs off 2
    let len := if half % 4 = 3 then 4 else 2
    let w := numAt bs off len
    if 32 < off + len then s.cmderr 3
    else if w = 0x0010_0073 ∨ w = 0x9002 then s
    else match decodeClerk w with
      | .base w len =>
        match (s.execOf (h / 4)).rv (h % 4) w len with
        | .ok x => State.runProgbuf fuel (s.putExec (h / 4) x) h (off + len)
        | .trap x _ => (s.putExec (h / 4) x).cmderr 3
        | .walk _ => s.cmderr 3
      | _ => s.cmderr 3

/-- Run the program buffer; the program counter stays where it was. -/
def State.execProgbuf (s : State) (h : Nat) : State :=
  if 272 ≤ h ∨ !s.hartHalted h then s.cmderr 4
  else
    let pc := (s.clerk (h / 4) (h % 4)).pc
    let was := (s.clerk (h / 4) (h % 4)).state
    (State.runProgbuf 16 s h 0).modClerk (h / 4) (h % 4) (fun q => { q with pc := pc, state := was })

/-! ### DMI (R427) -/

/-- Hart that dmcontrol selects. -/
def State.hartsel (s : State) : Nat :=
  let v := (s.dmReg 0x10).toNat
  bits v 25 16 + 1024 * bits v 15 6

/-- dmstatus of the selected hart: version 1.0, authenticated. -/
def State.dmstatus (s : State) : Nat :=
  let h := s.hartsel
  let two := fun (b : Bool) (k : Nat) => b2n b * 3 * 2 ^ k
  let seen := s.hartSeen h
  let there := seen && s.hartThere h
  3 + 128 + two (there && s.hartHalted h) 8 + two (there && !s.hartHalted h) 10 + two (seen && !there) 12 + two (!seen) 14 +
    two (there && s.haveReset h) 18

/-- The abstract command: Access Register (type 0), with its transfer and the program buffer behind it. -/
def State.dmCommand (s : State) (v : Nat) : State :=
  let h := s.hartsel
  if bits (s.dmReg dmAbstractcs).toNat 10 8 ≠ 0 then s
  else if bits v 31 24 ≠ 0 then s.cmderr 2
  else
    let data := (s.dmReg 0x05).setWidth 64 <<< 32 ||| (s.dmReg 0x04).setWidth 64
    let s := if bit v 17 then s.accessRegister h (bits v 15 0) (if bit v 16 then some data else none) else s
    if bit v 18 ∧ bits (s.dmReg dmAbstractcs).toNat 10 8 = 0 then s.execProgbuf h else s

/-- Size of a system bus access by sbcs. -/
def State.sbSize (s : State) : Nat := 2 ^ bits (s.dmReg dmSbcs).toNat 19 17

/-- The bus accesses only while no error stands. -/
def State.sbReady (s : State) : Bool := bits (s.dmReg dmSbcs).toNat 14 12 == 0

/-- Write a register of the debug module. -/
def State.dmWrite (s : State) (a : Nat) (v : W32) : State :=
  let n := v.toNat
  match a with
  | 0x10 =>
    let s := s.setDm 0x10 (BitVec.ofNat 32 (n % 2 ^ 26 - n % 64 + n % 2))
    let h := s.hartsel
    let s := if bit n 28 ∧ s.haveReset h then s.modHart h (fun x => { x with halted := false }) else s
    if bit n 31 then s.haltHart h else if bit n 30 then s.resumeHart h else s
  | 0x16 => s.setDm dmAbstractcs (s.dmReg dmAbstractcs &&& ~~~ (v &&& 0x700))
  | 0x17 => s.dmCommand n
  | 0x38 =>
    let err := bits (s.dmReg dmSbcs).toNat 14 12 &&& (7 - bits n 14 12)
    s.setDm dmSbcs (BitVec.ofNat 32 (setBits (n &&& 0x1F_8000) 14 12 err))
  | 0x39 =>
    let s := s.setDm dmSbaddress v
    if bit (s.dmReg dmSbcs).toNat 20 ∧ s.sbReady then s.systemBus s.sbAddress s.sbSize none else s
  | 0x3C =>
    let s := s.setDm dmSbdata v
    if s.sbReady then s.systemBus s.sbAddress s.sbSize (some ((s.dmReg (dmSbdata + 1)).setWidth 64 <<< 32 ||| v.setWidth 64)) else s
  | _ =>
    if a = 0x04 ∨ a = 0x05 ∨ (0x20 ≤ a ∧ a < 0x28) ∨ a = 0x3A ∨ a = 0x3D then s.setDm a v else s

/-- Read a register of the debug module. -/
def State.dmRead (s : State) (a : Nat) : State × Nat :=
  match a with
  | 0x10 => (s, (s.dmReg 0x10).toNat)
  | 0x11 => (s, s.dmstatus)
  | 0x16 => (s, 8 * 2 ^ 24 + (s.dmReg dmAbstractcs).toNat + 2)
  | 0x38 => (s, 2 ^ 29 + (s.dmReg dmSbcs).toNat + 64 * 32 + 12)
  | 0x3C =>
    let v := (s.dmReg dmSbdata).toNat
    (if bit (s.dmReg dmSbcs).toNat 15 ∧ s.sbReady then s.systemBus s.sbAddress s.sbSize none else s, v)
  | _ => (s, (s.dmReg a).toNat)

/-- DMI (R427): until a token is accepted every operation fails. The data register holds address, data and status. -/
def execDmi (op addr : Nat) (data : W32) (s : State) : Ans :=
  let dr := fun (v st : Nat) => addr * 2 ^ 34 + v % 2 ^ 32 * 4 + st
  if s.sec.scope = 0 then .next ((s.setTest (fun t => { t with dmiFailed := true })).tapSelect .dmi (dr 0 2) 41)
  else
    let s := s.setTest (fun t => { t with dmiFailed := false })
    .next (match op with
      | 1 =>
        let r := s.dmRead addr
        r.1.tapSelect .dmi (dr r.2 0) 41
      | 2 => (s.dmWrite addr data).tapSelect .dmi (dr data.toNat 0) 41
      | _ => s.tapSelect .dmi (dr 0 0) 41)

end Sys2Proof.Machine
end

