-- ==== Sys2Proof/WellFormed.lean ====
section
/-! DEFINITION. Well-formed commands: every index a command carries names a part that the spec gives the module. A
command that names no such part changes nothing (log 2). -/

namespace Sys2Proof

/-- A physical core (R1, R442). -/
def coreOk (c : Nat) : Bool := decide (c < 68)
/-- A clerk of a core (R59). -/
def clerkOk (k : Nat) : Bool := decide (k < 4)
/-- A box (R265). -/
def boxOk (b : Nat) : Bool := decide (b < 64)
/-- A position of a system (R274). -/
def posOk (p : Nat) : Bool := decide (p < 64)
/-- A member link (R277). -/
def portOk (n : Nat) : Bool := decide (n < 24)
/-- A compute die (R1). -/
def dieOk (d : Nat) : Bool := decide (d < 4)
/-- An HBM stack and one of its channels (R230). -/
def stackOk (n : Nat) : Bool := decide (n < 12)
def channelOk (n ch : Nat) : Bool := stackOk n && decide (ch < 16)
/-- A codebook slot (R201). -/
def slotOk (n : Nat) : Bool := decide (n < 64)
/-- A firmware component (R329). -/
def componentOk (k : Nat) : Bool := decide (k < 6)
/-- A core rail (R407). -/
def railOk (k : Nat) : Bool := decide (k < 4)
/-- A direction of the torus (R277). -/
def dirOk (d : Nat) : Bool := decide (d < 6)
/-- A submission ring of a box (R309). -/
def ringOk (r : Nat) : Bool := decide (r < 8)
/-- A pattern page, and one of its lanes (R418): 24 links of 4 lanes, then the host port's 8. -/
def laneOk (page lane : Nat) : Bool := decide (page < 24 ∧ lane < 4 ∨ page = 24 ∧ lane < 8)

/-- A PBP header that its fields can encode (R317). -/
def pbpOk (h : PbpHdr) : Bool := posOk h.targetPos && boxOk h.box && decide (h.session < 65536 ∧ h.seq < 2 ^ 32)

/-- The indices of a command are in range. -/
def Instr.wf : Instr → Bool
  | .tdld c k | .tdst c k | .tdset c k | .mxwl c k | .mxmul c k | .drn c k | .crr c k | .twait c k | .tparm c k
  | .tstat c k | .ecall c k | .clerkTrap c k _ | .issueQueueRoom c k | .add c k | .sub c k | .mul c k | .fma c k
  | .min c k | .max c k | .cmplt c k | .cmpeq c k | .sel c k | .cvt c k | .abs c k | .neg c k | .exp c k | .log c k
  | .rcp c k | .rsqrt c k | .sigmoid c k | .tanh c k | .rsum c k | .rmax c k | .rargmax c k | .rsumsq c k
  | .softmaxStep c k | .softmaxFinal c k | .rmsnorm c k | .layernorm c k | .scan c k | .stateRms c k | .topk c k
  | .pool c k | .dwconv c k | .walkIssue c k | .rv64imacInstruction c k => coreOk c && clerkOk k
  | .lengths c q | .gatherK c q | .gatherV c q | .appendK c q | .appendV c q | .bias c q => coreOk c && decide (q < 4)
  | .instanceStart c | .instanceEnd c | .instanceSteal c | .kernelWatchdog c | .shadowReadySet c | .bankSwap c
  | .drainDone c | .mxeRampUp c _ | .mxeRampDown c _ | .mxeRampOff c | .mxeRampReverse c | .pigeonholeRemap c
  | .encodeBlock c _ | .encodeBufferWriteout c | .sliceStart c | .sliceEnd c _ _ _ | .sliceOverdue c _
  | .coreFence c _ | .coreReturn c _ | .drainTimeout c | .controlParityError c | .staleCoreRequest c _
  | .poisonConsumed c _ | .grantRequest c _ | .drain c | .coreResume c | .coreDrained c | .acmMapWrite c _
  | .stateWindowWrite c _ | .handleSelWrite c _ | .flush c | .expanderDecodeBlock c _ _ _ | .encodeBufferWrite c _ _ _
  | .lbist c _ _ => coreOk c
  | .pigeonholeRetire c p _ _ => coreOk c && decide (p < 9)
  | .census n b _ _ _ _ | .replaceStaged n b | .replaceImage n b _ | .release n b | .restore n b _ _ =>
    slotOk n && boxOk b
  | .codebookInstall n => slotOk n
  | .ringEntryTake b r => boxOk b && ringOk r
  | .kvPoolAllocResume b | .reductionWrite b _ _ | .absentTouch b _ | .prefetch b _ _ | .tierFlush b _ _
  | .tierEvict b _ _ | .discard b _ _ | .boxEnable b _ | .boxDisable b | .boxDrainLimit b | .boxQuiesce b
  | .boxRelease b | .arenaWaitResume b | .entryPost b _ | .entryPosted b _ | .notice b _ | .keyCmdInstall b
  | .keyCmdClear b => boxOk b
  | .regulatorAdmit d b => dieOk d && boxOk b
  | .evacuationPageCopy d _ | .evacuationDone d | .redirectCopyBack d _ | .longDip d | .dieSupplyReset d _
  | .dieResetRelease d _ | .railWarning d _ | .railWarningExit d _ _ | .d2dLinkDown d _ | .tapScan d _ => dieOk d
  | .hbmTempReport n _ => stackOk n
  | .channelMapout n ch _ | .hbmMapoutGo n ch => channelOk n ch
  | .collection i => decide (i < 16)
  | .quietWindowStart i | .quietWindowEnd i => decide (i < 4)
  | .linkDetect p _ _ _ _ | .linkTrainDone p _ _ _ _ _ | .linkNegotiate p _ | .linkRetrain p _ | .retrainTimeout p
  | .linkDownRetry p | .linkCtrlPacket p _ | .timeSync p _ _ | .fence p _ | .fenceSend p | .retrain p
  | .linkEnableWrite p _ => portOk p
  | .member h _ | .budget h _ _ | .item h _ _ _ _ | .result h _ _ _ _ | .msgAck h _ | .bulk h _ =>
    portOk h.port && posOk h.dest && posOk h.src
  | .e2eTimeout d c _ => posOk d && decide (1 ≤ c ∧ c ≤ 3)
  | .heartbeatMiss p | .isolatedTimeout p | .declareDead p _ | .fabCmdDeclareDead p | .clearBar p | .adoption p => posOk p
  | .join r => posOk r.pos
  | .bundleLost d | .routeWaitDiscard d => dirOk d
  | .railShort r => railOk r
  | .componentFault k _ _ _ | .fwWatchdog k | .componentRestart k _ | .componentRunning k | .restartOverrun k
  | .restartComponent k | .escalation k _ _ | .escArmedExpiry k => componentOk k
  | .mailboxSend a b _ => componentOk a && componentOk b
  | .coreSubstitute l => decide (l < 64)
  | .coreMapWrite i _ => decide (i < 16)
  | .genEn p _ _ _ | .chkEn p _ _ _ | .inject p => decide (p < 25)
  | .checkerLock p l _ => laneOk p l
  | .checkerLoss p l n e => laneOk p l && decide (e ≤ n)
  | .dmi op a _ => decide (op < 3 ∧ a < 128)
  | .setdasa a d => decide (a < 128 ∧ d < 128)
  | .entdaa d => decide (d < 128)
  | .hello h _ _ | .bye h | .keepalive h | .regRead h _ | .regWrite h _ _ | .regBatch h _ | .submitEmu h _ _
  | .connect h _ _ _ _ | .ringSetup h _ _ _ _ _ | .pbpResume h _ | .imageBegin h _ _ | .imageData h _ _ | .imageEnd h _
  | .start h | .map h _ _ | .unmap h _ | .regionAdd h _ | .regionSet h _ _ _ | .codebook h _ _ _ | .tier h _ _ _
  | .keyInstall h _ | .attest h _ | .fwStatus h => pbpOk h
  | .formation l m a _ => l.all posOk && m.all posOk && a.all posOk
  -- the rest carry no index of a part, or the number of an entry that may be open or not
  | .openGroup _ | .fork _ | .step _ | .stepCommit _ _ | .boundaryCull _ | .cull _ | .endStreams _ | .closeGroup _
  | .park _ | .recall _ | .backward _ | .kernel _ | .sync _ | .deadlineReached _ | .instancePlace _ _ | .cas _ _ _
  | .fetchAdd _ _ | .swap _ _ | .granuleFillDone _ _ | .granuleWritebackDone _ | .ageWriteback | .flashHousekeeping
  | .readDisturbRelocate _ | .flashBlockRetire _ | .flashStateChange _ _ | .writeHeld _ | .ptpMessage _ _
  | .lossTimeout | .holdoverLimit | .localStart | .firstRoundBoundary | .roundBoundary | .sliceSchedule
  | .outboundMoveDone _ | .inboundMoveDone _ | .mirrorAck _ | .mirrorTimeout _ | .mirrorResync _ | .heartbeatSend
  | .standbyTakeover | .routeChange | .routeTablesInstall _ _ | .routeGo _ | .recomputeRoutes | .sqTail _ _ _ | .cqHead _ _ | .dlqHead _ _ | .rdmaWrite _ _ _ _
  | .rdmaRead _ _ _ _ | .cnpReceive _ | .sessionTimeout _ | .hostLinkChange _ _ _ | .resetModule | .supervisorTask
  | .bootSequence | .fieldRecordWrite | .token _ | .debugLifetimeExpiry | .secDbgLock | .signatureWrite _ _ _ _
  | .ledgerEntryUe _ _ _ | .dispositionRecord _ | .recordAccept | .recorderFlush | .logCursorWrite _ | .logOldestRead
  | .roundNowRead | .counterLowRead _ | .sigPmRead | .sigCursorWrite _ | .queuedGrant | .grantRevoke | .budgetMove
  | .inputWarning _ | .inputWarningExit _ | .inputShutdown _ | .reversedPolarity | .thermalFactorFall _
  | .thermalFactorRise _ | .thermalTrip _ _ | .sensorOpen _ | .regulatorStart _ | .pwrEnFall | .extest | .idcode
  | .samplePreload | .nonce | .dtmcs | .mbist _ | .bypass | .hartHalt _ | .hartResume _ | .hartSingleStep _
  | .accessRegister _ _ _ | .triggerMatch _ _ _ | .systemBusAccess _ _ _ | .sidebandReadRequest _
  | .sidebandWriteRequest _ | .sidebandResultRead | .inBandInterrupt | .enec | .disec | .getpid | .getbcr | .getdcr
  | .getstatus | .getmxds | .rstdaa | .hotJoin | .lockWrite _ | .w1cWrite _ _ _ | .registerWrite _ _ _ | .inletWarn _
  | .tapReset | .tokenCheckDone => true

end Sys2Proof
end

