-- ==== Sys2Proof/Machine/HostPort.lean ====
section
/-! DEFINITION. The Postbox Protocol (R317 to R325): sessions, register requests, SUBMIT_EMU, CONNECT, RING_SETUP and
RESUME. -/

namespace Sys2Proof.Machine

/-- STATUS of a response (R319). -/
inductive PbpSt where
  | ok | retryLater | badVersion | badSession | badMessage | denied | refused | noModule | busy | notManager | state
  deriving DecidableEq, Repr

def PbpSt.code : PbpSt → Nat
  | .ok => 0 | .retryLater => 1 | .badVersion => 2 | .badSession => 3 | .badMessage => 4 | .denied => 5 | .refused => 6
  | .noModule => 7 | .busy => 8 | .notManager => 9 | .state => 10

/-- What a request does, and its answer; no answer where it waits or its component restarts. -/
abbrev Reply := State × Option (PbpSt × List Byte)

def State.answer (s : State) (st : PbpSt) (payload : List Byte := []) : Reply := (s, some (st, payload))

/-- REFUSED with a detail (R462). -/
def State.refused (s : State) (detail : Nat) : Reply := s.answer .refused (leBytes 2 detail)

/-- What the protocol checks of a request before it is performed. -/
structure PbpReq where
  /-- First version that has the type (R318). -/
  since : Nat := 0x10
  /-- LENGTH of a request of the type; none where the spec does not size it (log 42). -/
  len : Option Nat := none
  /-- The arguments are ones that the type takes. -/
  valid : Bool := true
  /-- The boot ROM answers it (R334). -/
  boot : Bool := false
  /-- The hub's register router performs it, whatever SUPERVISOR does (R434). -/
  router : Bool := false
  /-- The manager relays it to the module of TARGET_POS (R323). -/
  relay : Bool := false

/-- A message that is dropped (R317). -/
def hdrBad (h : PbpHdr) : Bool :=
  h.magic != 0x5042 || h.reserved != 0 || !h.crcOk || decide (8900 < h.length) || !pbpOk h

/-- SUPERVISOR, or before it the boot ROM, takes PBP messages (R334, R340). -/
def State.pbpUp (s : State) : Bool := s.fw.booted && (s.fw.st != .running || (s.comp 1).st == .running)

/-- A response that belongs to no session's store. -/
def State.reject (s : State) (h : PbpHdr) (st : PbpSt) (payload : List Byte := []) : State :=
  (s.bump .hostif 0 1 1).emit (.pbp h.session h.seq st.code payload)

/-- The request is well-formed: a type of the session's version with its payload (R318, R319). -/
def PbpReq.fits (q : PbpReq) (h : PbpHdr) (version : Nat) : Bool :=
  decide (q.since ≤ version) && q.valid && (match q.len with | some n => h.length == n | none => true)

/-- Perform a request of an open session: from the store, or once (R320). -/
def State.perform (s : State) (h : PbpHdr) (q : PbpReq) (k : Session) (run : State → Nat → Reply) : State :=
  let s := s.modSession h.session (fun k => { k with lastHeard := s.time.t })
  match k.store.find? (fun r => r.1 == h.seq) with
  | some r => (s.bump .hostif 0 1 1).emit (.pbp h.session h.seq r.2.1 r.2.2)
  | none =>
    if k.answered h.seq then s.reject h .badSession
    else if s.host.cbReply = some (h.session, h.seq) ∨ s.host.tierReply = some (h.session, h.seq) then s
    else if !q.fits h k.version then s.respond h.session h.seq PbpSt.badMessage.code []
    else if s.fw.st ≠ .running ∧ !q.boot then s.respond h.session h.seq PbpSt.state.code []
    else
      let r := run s h.session
      match r.2 with
      | some (st, p) => r.1.respond h.session h.seq st.code p
      | none => r.1

/-- A request relayed to this module is performed here, and its answer goes back (R323). -/
def State.performRelayed (s : State) (h : PbpHdr) (q : PbpReq) (run : State → Nat → Reply) : State :=
  if !q.relay ∨ !s.isWorker ∨ h.targetPos ≠ s.pos ∨ s.fw.st ≠ .running ∨ !s.pbpUp then s
  else
    let r := run s 0
    match r.2 with
    | some (st, p) => r.1.reject h st p
    | none => r.1

/-- A PBP message arrives. -/
def State.pbp (s : State) (h : PbpHdr) (q : PbpReq) (run : State → Nat → Reply) : State :=
  if h.relayed then s.performRelayed h q run
  else if !s.fw.booted then s
  else
    let s := ((s.bump .hostif 0 0 1).bump .hostif 0 5 1).bump .hostif 0 7 (b2n h.resent)
    if hdrBad h then s.bump .hostif 0 6 1
    else if !s.pbpUp ∧ !q.router then s
    else if s.isWorker then s.reject h .notManager
    else match s.session? h.session with
      | none => s.reject h .badSession
      | some k => s.perform h q k run

/-! ### Sessions (R320, R321) -/

/-- Highest PBP version of the module (R1). -/
def State.topVersion (s : State) : Nat := match s.stepping with | .A1 => 0x11 | .B0 => 0x12

/-- Version that HELLO chooses: the highest common one. -/
def State.chosenVersion (s : State) (lowest highest : Nat) : Option Nat :=
  if max lowest 0x10 ≤ min highest s.topVersion then some (min highest s.topVersion) else none

/-- A session number not in use. -/
def State.freeSession (s : State) : Nat :=
  ((List.range 9).map (fun k => (s.host.nextSession - 1 + k) % 65535 + 1)).find? (fun n => (s.session? n).isNone) |>.getD 1

def steppingCode : Config.Stepping → Nat
  | .A1 => 0 | .B0 => 1

/-- A session is opened (R318, R320). At 1.2 the standby's addresses follow: free values. -/
def State.openSession (s : State) (h : PbpHdr) (version : Nat) : State :=
  let n := s.freeSession
  let s := s.setHost (fun x => { x with
    sessions := { num := n, version := version, lastHeard := s.time.t } :: x.sessions, nextSession := n % 65535 + 1 })
  let s := s.changed .hostif 0
  let d := s.draw
  let standby := if version = 0x12 ∧ s.fab.standby.isSome then (List.range 20).map (Config.freeByte d.1) else []
  let s := if standby.isEmpty then s else d.2
  s.reject h .ok (leBytes 1 version ++ leBytes 2 n ++ leBytes 1 s.systemSize ++ leBytes 1 (steppingCode s.stepping) ++ standby)

/-- HELLO (R318, R320, R327). -/
def execHello (hdr : PbpHdr) (lowest highest : Nat) (s : State) : Ans :=
  if !s.fw.booted ∨ hdr.relayed then .next s
  else
    let s := ((s.bump .hostif 0 0 1).bump .hostif 0 5 1).bump .hostif 0 7 (b2n hdr.resent)
    .next (
      if hdrBad hdr then s.bump .hostif 0 6 1
      else if !s.pbpUp then s
      else if s.isWorker then s.reject hdr .notManager
      else if hdr.length ≠ 2 ∨ hdr.session ≠ 0 then s.reject hdr .badMessage
      else match s.chosenVersion lowest highest with
        | none => s.reject hdr .badVersion (leBytes 1 0x10 ++ leBytes 1 s.topVersion)
        | some v => if 8 ≤ s.host.sessions.length then s.reject hdr .busy else s.openSession hdr v)

/-- Entries sent and not acknowledged wait again once the connection is gone (R326). -/
def BoxSt.closeRings (x : BoxSt) : BoxSt :=
  { x with
    cq := none, dlq := none, cqWait := x.cqSent ++ x.cqWait, dlqWait := x.dlqSent ++ x.dlqWait, cqSent := [], dlqSent := [] }

/-- Close a session (R321, R326): its boxes are disabled and its connections closed. -/
def State.closeSession (s : State) (n : Nat) : State :=
  let mine := (List.range 64).filter (fun b => (s.box b).session == some n)
  let s := mine.foldl (fun (s : State) b => if (s.box b).state = .active then s.disableBox b else s) s
  let s := mine.foldl (fun (s : State) b => s.modBox b BoxSt.closeRings) s
  (s.setHost (fun h => { h with
    sessions := h.sessions.filter (fun k => k.num != n), conns := h.conns.filter (fun c => c.session != n) })).changed .hostif 0

/-- BYE (R318). -/
def execBye (hdr : PbpHdr) (s : State) : Ans :=
  .next (s.pbp hdr { len := some 0, boot := true } (fun s n => (s.closeSession n).answer .ok))

/-- KEEPALIVE (R321). -/
def execKeepalive (hdr : PbpHdr) (s : State) : Ans :=
  .next (s.pbp hdr { len := some 0, boot := true } (fun s _ => s.answer .ok))

/-- SESSION_TIMEOUT in ns (R321, R327). -/
def State.sessionLimit (s : State) : Nat := 1000000 * max 100 (s.field .hostif 0 Reg.hostif_pbpTimers 31 16)

/-- SESSION_TIMEOUT (R321): the session has sent nothing for the whole time. SUPERVISOR closes it. -/
def execSessionTimeout (session : Nat) (s : State) : Ans :=
  match s.session? session with
  | none => .next s
  | some k =>
    .next (s.when s.pbpUp
      (let s : State := { s with time := { s.time with t := max s.time.t (k.lastHeard + s.sessionLimit) } }
       s.closeSession session))

/-! ### Registers (R322, R323, R434) -/

/-- Pages that the boot ROM reads for the host (R334). -/
def bootPage (a : Nat) : Bool :=
  match pageOf a with
  | some (.hub, _) | some (.sec, _) | some (.fwctl, _) | some (.hostif, _) => true
  | _ => false

/-- A write that PBP cannot make (R434). -/
def pbpDenied (a : Nat) : Bool :=
  match pageOf a with
  | some (.sec, _) => true
  | some (.hub, _) => decide (Reg.hub_coreMap ≤ a % 0x1000 ∧ a % 0x1000 < Reg.hub_coreMap + 64)
  | some (.hostif, _) => a % 0x1000 == Reg.hostif_prbsCtrl
  | _ => false

def fwctlPage (a : Nat) : Bool := match pageOf a with | some (.fwctl, _) => true | _ => false

/-- An access that the hub's router performs: a write of the FWCTL page. -/
def opRouted (o : RegOp) : Bool := o.value.isSome && fwctlPage o.addr

/-- One access: the state after it, and the value of a read. -/
def State.regOp (s : State) (session : Option Nat) (o : RegOp) : State × List Byte :=
  let s := (s.bump .hub 0 9 1).bump .fwctl 0 1 (b2n (!opRouted o))
  match o.value with
  | some v => (s.regWrite session o.addr 4 v.toNat, [])
  | none =>
    let r := s.regRead o.addr 4
    (r.1, leBytes 4 r.2.toNat)

/-- The accesses of a request in order, with the values read. -/
def State.regOps (s : State) (session : Option Nat) : List RegOp → State × List Byte
  | [] => (s, [])
  | o :: l =>
    let r := s.regOp session o
    let t := r.1.regOps session l
    (t.1, r.2 ++ t.2)

/-- RETRY_LATER (R322, R338). -/
def State.retryLater (s : State) : Reply :=
  let s := (s.bump .hostif 0 8 1).bump .fwctl 0 2 1
  (s.setFw (fun w => { w with retryLater := true })).answer .retryLater

/-- Perform register accesses here: DENIED or RETRY_LATER as a whole, else all of them. -/
def State.emulate (s : State) (h : PbpHdr) (session : Nat) (ops : List RegOp) : Reply :=
  if ops.any (fun o => o.value.isSome && pbpDenied o.addr) then s.answer .denied
  else if h.late ∧ !ops.all opRouted then s.retryLater
  else
    let r := s.regOps (if h.relayed then none else some session) ops
    r.1.answer .ok r.2

/-- Is the module that TARGET_POS names SERVING or SPARE? -/
def State.reachable (s : State) (p : Nat) : Bool :=
  s.fab.members.getD p .absent == .serving || s.fab.members.getD p .absent == .spare

/-- A request for TARGET_POS: here, or relayed as a class 1 message with an answer of `n` bytes, which is a free value
(log 43). -/
def State.atTarget (s : State) (h : PbpHdr) (cmd : Instr) (n : Nat) (here : State → Reply) : Reply :=
  if h.targetPos = s.pos then here s
  else if !s.reachable h.targetPos then s.answer .noModule
  else
    let s := s.sendMsg h.targetPos 1 (.request cmd)
    if h.late then (s.bump .hostif 0 8 1).answer .retryLater
    else
      let d := s.draw
      d.2.answer .ok ((List.range n).map (Config.freeByte d.1))

/-- REG_READ (R322, R323). -/
def execRegRead (hdr : PbpHdr) (addr : Nat) (s : State) : Ans :=
  .next (s.pbp hdr { len := some 4, boot := bootPage addr, relay := true } (fun s n =>
    s.atTarget hdr (.regRead { hdr with relayed := true } addr) 4 (fun s => s.emulate hdr n [{ addr := addr, value := none }])))

/-- REG_WRITE (R322, R323, R434). -/
def execRegWrite (hdr : PbpHdr) (addr : Nat) (value : W32) (s : State) : Ans :=
  .next (s.pbp hdr { len := some 8, router := fwctlPage addr, relay := true } (fun s n =>
    s.atTarget hdr (.regWrite { hdr with relayed := true } addr value) 0
      (fun s => s.emulate hdr n [{ addr := addr, value := some value }])))

/-- REG_BATCH (R318, R322). -/
def execRegBatch (hdr : PbpHdr) (ops : List RegOp) (s : State) : Ans :=
  .next (s.pbp hdr { since := 0x11, valid := decide (1 ≤ ops.length ∧ ops.length ≤ 64), relay := true
                     router := ops.all opRouted } (fun s n =>
    s.atTarget hdr (.regBatch { hdr with relayed := true } ops) (4 * (ops.filter (fun o => o.value.isNone)).length)
      (fun s => s.emulate hdr n ops)))

/-! ### Items, connections and rings -/

/-- The box was opened by the session, or by the lost one that it resumed (R319, R325). -/
def State.opened (s : State) (b n : Nat) : Bool :=
  let x := s.box b
  x.session == some n || (x.session.isNone && (match s.session? n with | some k => k.resumed.isSome | none => false))

/-- May the session make requests for the box? A box that is DISABLED is open to every session. -/
def State.mayUse (s : State) (b n : Nat) : Bool := (s.box b).state == .disabled || s.opened b n

/-- The entry and descriptor of SUBMIT_EMU in box memory, and the ring's tail behind them. -/
def State.submitEmu (s : State) (b : Nat) (r : SubRing) (entry desc : List Byte) : State :=
  let va := bits (leNat entry) 479 432
  let slot := r.addr + 64 * (r.tail % max r.size 1)
  let s := s.when (s.mapped b va 128 true) (s.writeBox b va desc)
  let s := s.when (s.mapped b slot 64 true) (s.writeBox b slot entry)
  s.modBox b (fun x => { x with subs := x.subs.map (fun q =>
    if q.index = r.index then { q with tail := (q.tail + 1) % 2 ^ 32 } else q) })

/-- SUBMIT_EMU (R322). -/
def execSubmitEmu (hdr : PbpHdr) (entry desc : List Byte) (s : State) : Ans :=
  .next (s.pbp hdr { len := some 192, valid := entry.length == 64 && desc.length == 128 } (fun s n =>
    let x := s.box hdr.box
    if x.state ≠ .active ∨ !s.opened hdr.box n then s.answer .denied
    else if hdr.late then s.retryLater
    else match x.subs.find? (fun q => q.index == 0) with
      | none => s.answer .state
      | some r =>
        if r.size ≤ (r.tail + 2 ^ 32 - r.taken) % 2 ^ 32 then s.answer .state
        else ((s.bump .hub 0 9 1).bump .fwctl 0 1 1 |>.submitEmu hdr.box r entry desc).answer .ok))

/-- CONNECT (R306, R318, R327): QP number, PSN and remote key are free values. -/
def execConnect (hdr : PbpHdr) (hostQp psn mtu role : Nat) (s : State) : Ans :=
  .next (s.pbp hdr { valid := decide (mtu = 1024 ∨ mtu = 2048 ∨ mtu = 4096) && decide (role < 2) } (fun s n =>
    if !s.mayUse hdr.box n then s.answer .denied
    else if 256 ≤ s.host.conns.length then s.answer .busy
    else
      let d := s.draw
      let qp := (Config.freeWord d.1 0).toNat % 2 ^ 24
      let psn' := (Config.freeWord d.1 1).toNat % 2 ^ 24
      let key := (Config.freeWord d.1 2).toNat
      let c : Conn :=
        { num := s.host.nextConn, session := n, box := hdr.box, key := key, role := role, mtu := mtu, hostQp := hostQp
          hostPsn := psn, qp := qp, psn := psn' }
      let s := d.2.setHost (fun h => { h with conns := h.conns ++ [c], nextConn := h.nextConn + 1 })
      (s.changed .hostif 0).answer .ok (leBytes 4 qp ++ leBytes 4 psn' ++ leBytes 4 key)))

/-- A ring as RING_SETUP defines it. -/
def BoxSt.setRing (x : BoxSt) (kind : RingKind) (index size addr key : Nat) : BoxSt :=
  match kind with
  | .submit =>
    { x with subs := x.subs.filter (fun q => q.index != index) ++ [{ index := index, addr := addr, size := size }] }
  | .completion => { x with cq := some { addr := addr, key := key, size := size }, cqN := {} }
  | .deadLetter => { x with dlq := some { addr := addr, key := key, size := size }, dlqN := {} }

/-- The exception of R309: a completion or dead-letter ring of an ACTIVE box after a takeover, once per ring. -/
def State.mayRepeat (s : State) (b n : Nat) (kind : RingKind) : Bool :=
  let x := s.box b
  let set := fun (r : Option OutRing) => match r with | some q => q.again | none => false
  s.host.tookOver && x.state == .active && (match s.session? n with | some k => k.resumed.isSome | none => false) &&
  (match kind with
   | .submit => false
   | .completion => !set x.cq
   | .deadLetter => !set x.dlq)

/-- The ring set up again keeps its counts (R309, R325). -/
def BoxSt.repeatRing (x : BoxSt) (kind : RingKind) (size addr key : Nat) : BoxSt :=
  let r : OutRing := { addr := addr, key := key, size := size, again := true }
  match kind with
  | .submit => x
  | .completion => { x with cq := some r }
  | .deadLetter => { x with dlq := some r }

/-- RING_SETUP (R309, R327). -/
def execRingSetup (hdr : PbpHdr) (kind : RingKind) (index sizeLog2 addr key : Nat) (s : State) : Ans :=
  .next (s.pbp hdr {} (fun s n =>
    if !s.mayUse hdr.box n then s.answer .denied
    else if sizeLog2 < 6 ∨ 16 < sizeLog2 ∨ (kind = .submit ∧ 7 < index) then s.answer .refused
    else if (s.box hdr.box).state = .disabled then
      (s.modBox hdr.box (fun x => x.setRing kind index (2 ^ sizeLog2) addr key)).answer .ok
    else if s.mayRepeat hdr.box n kind then
      (s.modBox hdr.box (fun x => x.repeatRing kind (2 ^ sizeLog2) addr key)).answer .ok
    else s.answer .state))

/-- RESUME (R325): the counts that the ledger took, per submission ring of the box. -/
def execPbpResume (hdr : PbpHdr) (oldSession : Nat) (s : State) : Ans :=
  .next (s.pbp hdr { since := 0x12 } (fun s n =>
    if !s.host.tookOver then s.answer .state
    else
      let s := s.modSession n (fun k => { k with resumed := some oldSession })
      s.answer .ok ((List.range 8).flatMap (fun r =>
        match (s.box hdr.box).subs.find? (fun q => q.index == r) with
        | some q => leBytes 4 q.taken
        | none => []))))

end Sys2Proof.Machine
end

