-- ==== Sys2Proof/Machine/Requests.lean ====
section
/-! DEFINITION. FW_REQUEST (R335): images and START (R334, R352), page tables (R222), regions (R192, R193), codebook and
tier commands (R202, R237), keys (R357), quotes and certificates (R355, R356) and FW_STATUS. -/

namespace Sys2Proof.Machine

/-! ### Images and START (R334, R352) -/

/-- The position up to which received ranges cover an image from `p` on. -/
def coverFrom (got : List (Nat × Nat)) : Nat → Nat → Nat
  | 0, p => p
  | fuel + 1, p => coverFrom got fuel (got.foldl (fun m g => if g.1 ≤ p ∧ m < g.1 + g.2 then g.1 + g.2 else m) p)

/-- Every byte was received. -/
def Loading.whole (l : Loading) : Bool := decide (l.size ≤ coverFrom l.got l.got.length 0)

/-- A request of the boot ROM: STATE once START has been accepted (R335). -/
def bootReq (len : Option Nat) (valid : Bool := true) : PbpReq := { len := len, valid := valid, boot := true }

/-- IMAGE_BEGIN (R334, R346, R462). -/
def execImageBegin (hdr : PbpHdr) (component size : Nat) (s : State) : Ans :=
  .next (s.pbp hdr (bootReq (some 7)) (fun s _ =>
    if !s.bootServes then s.answer .state
    else if size < 4096 ∨ 8 * mib < size ∨ !compOk component then s.refused 0x0501
    else
      let s := s.when (decide (s.fw.st = .noFirmware)) (s.changed .fwctl 0)
      (s.setFw (fun w => { w with st := .loading, loading := some { comp := component, size := size } })).answer .ok))

/-- IMAGE_DATA (R334, R346). -/
def execImageData (hdr : PbpHdr) (offset : Nat) (data : List Byte) (s : State) : Ans :=
  .next (s.pbp hdr (bootReq (some (6 + data.length)) (decide (1 ≤ data.length ∧ data.length ≤ 8192))) (fun s _ =>
    if !s.bootServes then s.answer .state
    else match s.fw.loading with
      | none => s.answer .state
      | some l =>
        if l.size < offset + data.length then s.answer .badMessage
        else
          (s.setFw (fun w => { w with
            loading := some { l with data := l.data.setRun offset data, got := (offset, data.length) :: l.got } })).answer .ok))

/-- IMAGE_END (R334, R352): another component than IMAGE_BEGIN's fails check 0x0102. -/
def execImageEnd (hdr : PbpHdr) (component : Nat) (s : State) : Ans :=
  .next (s.pbp hdr (bootReq (some 3)) (fun s _ =>
    if !s.bootServes then s.answer .state
    else match s.fw.loading with
      | none => s.answer .state
      | some l =>
        let comp := if component = l.comp then component else 0
        let r := (s.setFw (fun w => { w with loading := none })).verifyImage (comp, l.size) l.whole (l.data.getRun 0 l.size)
        match r.2 with
        | some d => r.1.refused d
        | none => r.1.answer .ok))

/-- The floors rise to the images' security versions, the field record is written and SUPERVISOR starts (R334, R353). -/
def State.startSet (s : State) : State :=
  let s := s.setSec (fun c => { c with floors := c.floors.zipIdx.map (fun p =>
    max p.1 (match (s.comp p.2).image with | some i => i.svn | none => 0)) })
  let s := s.writeField
  (s.setFw (fun w => { w with
    st := .starting, loading := none
    comps := w.comps.zipIdx.map (fun p =>
      { p.1 with st := if p.2 = 1 then .starting else .absent, loaded := p.2 != 0, journal := [] }) })).changed .fwctl 0

/-- START (R334, R348). -/
def execStart (hdr : PbpHdr) (s : State) : Ans :=
  .next (s.pbp hdr (bootReq (some 2)) (fun s _ =>
    if !s.bootServes then s.answer .state
    else if (List.range 5).any (fun k => (s.comp (k + 1)).image.isNone) then s.refused 0x0001
    else if s.sec.passport ≠ .good then s.refused 0x0002
    else if s.sec.identity ≠ .good then s.refused 0x0003
    else s.startSet.answer .ok))

/-- FW_STATUS (R335): FW_STATE and FW_COMP_1 to FW_COMP_5. -/
def execFwStatus (hdr : PbpHdr) (s : State) : Ans :=
  .next (s.pbp hdr (bootReq (some 2)) (fun s _ =>
    s.answer .ok (leBytes 4 (s.regValue .fwctl 0 Reg.fwctl_fwState).toNat ++
      (List.range 5).flatMap (fun k => leBytes 4 (s.regValue .fwctl 0 (Reg.fwctl_fwComp + 4 * (k + 1))).toNat))))

/-! ### Requests that RESOURCE serves -/

/-- A request of RESOURCE for a box: not answered while RESOURCE restarts (R340), DENIED to a session that did not open
the box. -/
def State.boxRequest (s : State) (h : PbpHdr) (n : Nat) (run : State → Reply) : Reply :=
  if (s.comp 5).st ≠ .running then (s, none)
  else if !h.relayed ∧ !s.mayUse h.box n then s.answer .denied
  else run s

/-- A FW_REQUEST of RESOURCE, performed here or at TARGET_POS; `n`: bytes of its result. -/
def State.resource (s : State) (h : PbpHdr) (q : PbpReq) (cmd : Instr) (n : Nat) (run : State → Nat → Reply) : State :=
  s.pbp h { q with relay := true } (fun s k => s.atTarget h cmd n (fun s => s.boxRequest h k (fun s => run s k)))

/-! ### Page tables (R222) -/

/-- The written data units of a device page come out of protection: HBM holds their ciphertext, whose bytes are free
values (R241). -/
def State.unprotect (s : State) (page : Nat) : State :=
  let mine := s.protUnits.filter (fun u => u * 256 / pageSize == page)
  let d := s.draw
  let s := mine.foldl (fun (s : State) u =>
    s.memWrite (u * 256) ((List.range 256).map (fun i => Config.freeByte d.1 (u * 256 + i))) (fun _ => false)) d.2
  { s with protUnits := s.protUnits.filter (fun u => u * 256 / pageSize != page) }

/-- Set a second-level entry; a protected page that it replaces leaves protection. -/
def State.setPte (s : State) (b va : Nat) (e : W64) : State :=
  let s := match s.pte? b va with
    | some old => if pteProtected old ∧ old ≠ e then s.unprotect (pteDa old / pageSize) else s
    | none => s
  s.modBox b (fun x => { x with pt := cellSet 0 x.pt (va / pageSize) e })

/-- Valid entries of every box: box, virtual page and entry. -/
def State.allPtes (s : State) : List (Nat × Nat × W64) :=
  s.boxes.zipIdx.flatMap (fun x => (x.1.pt.filter (fun p => pteValid p.2)).map (fun p => (x.2, p.1, p.2)))

/-- The first check of R222 that a MAP fails. -/
def State.mapFault (s : State) (b va : Nat) (e : W64) : Option Nat :=
  let n := e.toNat
  let others := s.allPtes.filter (fun p => !(p.1 == b && p.2.1 == va / pageSize) && pteDa p.2.2 == pteDa e)
  if va % pageSize ≠ 0 ∨ 2 ^ 48 ≤ va then some 0x0301
  else if bits n 55 48 ≠ 0 ∨ bits n 20 0 ≠ 0 ∨ pteReduce e = 7 ∨ pteHint e = 3 then some 0x0302
  else if s.home (pteDa e) = .none then some 0x0303
  else if s.pageHeld (pteDa e / pageSize) then some 0x0304
  else if pteReduce e ≠ 0 ∧ pteProtected e then some 0x0305
  else if (pteProtected e ∧ !others.isEmpty) ∨ others.any (fun p => pteProtected p.2.2) then some 0x0306
  else if pteProtected e ∧ s.inCoded b va pageSize then some 0x0307
  else none

/-- MAP (R222). -/
def State.mapPage (s : State) (b va : Nat) (e : W64) : Reply :=
  match s.mapFault b va e with
  | some d => s.refused d
  | none =>
    match s.growTable b va with
    | none => s.refused 0x0308
    | some s => (s.setPte b va e).answer .ok

def execMap (hdr : PbpHdr) (va : Nat) (entry : W64) (s : State) : Ans :=
  .next (s.resource hdr { len := some 18 } (.map { hdr with relayed := true } va entry) 0 (fun s _ => s.mapPage hdr.box va entry))

/-- UNMAP (R222): the box's page table is held until its last mapping is removed (R221). -/
def State.unmapPage (s : State) (b va : Nat) : Reply :=
  if va % pageSize ≠ 0 ∨ 2 ^ 48 ≤ va then s.refused 0x0301
  else
    let s := s.setPte b va 0
    if (s.box b).pt.isEmpty then ((s.releaseHeld (.table b)).modBox b (fun x => { x with tables := [] })).answer .ok
    else s.answer .ok

def execUnmap (hdr : PbpHdr) (va : Nat) (s : State) : Ans :=
  .next (s.resource hdr { len := some 10 } (.unmap { hdr with relayed := true } va) 0 (fun s _ => s.unmapPage hdr.box va))

/-! ### Regions (R192, R193) -/

/-- The first check of R193 that a REGION_ADD of record `n` fails. -/
def State.regionFault (s : State) (b n : Nat) : Option Nat :=
  let base := bits n 255 208
  let env := bits n 207 160
  let size := bits n 159 144
  if bits n 137 136 ≠ 0 ∨ bits n 126 8 ≠ 0 ∨ bits n 7 0 ≠ 1 ∨ bits n 135 134 = 3 ∨ 64 < bits n 133 127 ∨ size = 0 ∨ 32768 < size then
    some 0x0401
  else if base % pageSize ≠ 0 ∨ env % 64 ≠ 0 then some 0x0402
  else if s.inCoded b base (size * pageSize) ∨ s.inProtected b base (size * pageSize) then some 0x0403
  else if !s.mapped b env (size * 8192) false ∨ s.inCoded b env (size * 8192) ∨ s.inProtected b env (size * 8192) then some 0x0404
  else if 64 ≤ (s.box b).regions.length then some 0x0405
  else none

/-- REGION_COUNT_b, and REGION_TABLE_b where the table is new, on all four dies (R192, R217): the table's place is
firmware's choice, a free value. -/
def State.publishRegions (s : State) (b : Nat) : State :=
  let n := (s.box b).regions.length
  let d := s.draw
  let s := if n = 1 then
      (List.range 4).foldl (fun (s : State) k =>
        s.setReg (regAddr .codebook k (Reg.codebook_regionTable + 8 * b)) (Config.freeWord d.1 0)) d.2
    else s
  (List.range 4).foldl (fun (s : State) k =>
    s.setReg (regAddr .codebook k (Reg.codebook_regionCount + 8 * b)) (BitVec.ofNat 32 n)) s

/-- REGION_ADD (R192, R193): the result is the record's index. -/
def State.addRegion (s : State) (b n : Nat) : Reply :=
  match s.regionFault b n with
  | some d => s.refused d
  | none =>
    let index := (s.box b).regions.length
    let r : Region :=
      { base := bits n 255 208, env := bits n 207 160, size := bits n 159 144, slot := bits n 143 138
        alphabet := bits n 135 134, thresh := bits n 133 127 }
    let s := s.modBox b (fun x => { x with regions := x.regions ++ [r] })
    (s.publishRegions b).answer .ok (leBytes 4 index)

def execRegionAdd (hdr : PbpHdr) (record : List Byte) (s : State) : Ans :=
  .next (s.resource hdr { len := some 34, valid := record.length == 32 } (.regionAdd { hdr with relayed := true } record) 4
    (fun s _ => s.addRegion hdr.box (leNat record)))

/-- REGION_SET (R193). -/
def State.setRegion (s : State) (b index slot thresh : Nat) : Reply :=
  if (s.box b).regions.length ≤ index ∨ 64 < thresh then s.refused 0x0406
  else (s.modBox b (fun x => { x with
    regions := listModify (fun r => { r with slot := slot, thresh := thresh }) x.regions index })).answer .ok

def execRegionSet (hdr : PbpHdr) (index encodeSlot thresh : Nat) (s : State) : Ans :=
  .next (s.resource hdr { valid := decide (encodeSlot < 64) } (.regionSet { hdr with relayed := true } index encodeSlot thresh) 0
    (fun s _ => s.setRegion hdr.box index encodeSlot thresh))

/-! ### Codebook and tier commands (R202, R237) -/

/-- Argument registers of a command. -/
def State.setArgs (s : State) (p : Pg) (lo hi len addr n : Nat) : State :=
  ((s.setReg (regAddr p 0 lo) (BitVec.ofNat 32 addr)).setReg (regAddr p 0 hi) (BitVec.ofNat 32 (addr / 2 ^ 32 % 2 ^ 16))).setReg
    (regAddr p 0 len) (BitVec.ofNat 32 (n % 2 ^ 24))

/-- CODEBOOK: the command under the box of the header; one that waits is answered when it ends (R203), and one that finds
the unit occupied is not begun: the host sends it again. -/
def State.codebookReq (s : State) (h : PbpHdr) (n : Nat) (word : W32) (addr len : Nat) : Reply :=
  if s.cb.waiting.isSome then (s, none)
  else
    let s := s.setArgs .codebook Reg.codebook_cbArgVaLo Reg.codebook_cbArgVaHi Reg.codebook_cbArgLen addr len
    let s := s.cbCmd 0 (setBits word.toNat 21 16 h.box)
    if s.cb.waiting.isSome then (s.setHost (fun x => { x with cbReply := some (n, h.seq) }), none)
    else s.answer .ok [BitVec.ofNat 8 s.cb.result, BitVec.ofNat 8 s.cb.gen]

def execCodebook (hdr : PbpHdr) (word : W32) (addr length : Nat) (s : State) : Ans :=
  .next (s.resource hdr {} (.codebook { hdr with relayed := true } word addr length) 2
    (fun s n => s.codebookReq hdr n word addr length))

/-- TIER: the command under the box of the header; one that waits for the FTL is answered when it ends (R340). -/
def State.tierReq (s : State) (h : PbpHdr) (n : Nat) (word : W32) (addr len : Nat) : Reply :=
  if s.tier.cmd.isSome then (s, none)
  else
    let s := s.setArgs .tier Reg.tier_tierArgVaLo Reg.tier_tierArgVaHi Reg.tier_tierArgLen addr len
    let s := s.tierWrite (setBits word.toNat 27 22 h.box)
    if s.tier.cmd.isSome then (s.setHost (fun x => { x with tierReply := some (n, h.seq) }), none)
    else s.answer .ok [BitVec.ofNat 8 s.tier.result]

def execTier (hdr : PbpHdr) (word : W32) (addr length : Nat) (s : State) : Ans :=
  .next (s.resource hdr {} (.tier { hdr with relayed := true } word addr length) 1
    (fun s n => s.tierReq hdr n word addr length))

/-! ### Keys and attestation (R355 to R357) -/

/-- KEY_INSTALL (R357): RESOURCE writes the key through the KEY registers. -/
def State.installKey (s : State) (b : Nat) (key : List Byte) : Reply :=
  let st := (s.box b).state
  if key.take 32 = key.drop 32 then s.refused 0x0201
  else if (s.box b).key.isSome then s.refused 0x0202
  else if st = .draining ∨ st = .quiescing ∨ st = .releasing then s.refused 0x0203
  else
    let s := s.setSec (fun c => { c with keyData := (List.range 16).map (fun n => BitVec.ofNat 32 (wordOf key n)) })
    (s.keyInstall b).answer .ok

def execKeyInstall (hdr : PbpHdr) (key : List Byte) (s : State) : Ans :=
  .next (s.resource hdr { len := some 66, valid := key.length == 64 } (.keyInstall { hdr with relayed := true } key) 0
    (fun s _ => s.installKey hdr.box key))

/-- An entry of the measurement log (R354). -/
def Measure.bytes (m : Measure) (seq : Nat) : List Byte :=
  leBytes 32 m.digest.toNat ++ leBytes 1 m.type ++ leBytes 1 m.comp ++ leBytes 2 0 ++ leBytes 4 m.svn ++ leBytes 8 seq

/-- The quote of a nonce, but for its signature (R355). -/
def State.quoteBody (s : State) (nonce : List Byte) : List Byte :=
  nonce ++ leBytes 4 s.fab.epoch ++ leBytes 1 s.pos ++ leBytes 1 (steppingCode s.stepping) ++ leBytes 1 s.sec.log.length ++
    leBytes 1 1 ++ (List.range 5).flatMap (fun k => leBytes 4 (s.sec.floors.getD (k + 1) 0)) ++
    leBytes 4 (s.regValue .sec 0 Reg.sec_secStatus).toNat ++ s.sec.log.zipIdx.flatMap (fun p => p.1.bytes p.2)

/-- The certificate response (R356). -/
def certResponse : List Byte := List.replicate 32 0 ++ leBytes 4 4685 ++ leBytes 4 2 ++ Config.identityCert

/-- ATTEST (R355, R356). -/
def State.attest (s : State) (nonce : List Byte) : Reply :=
  if nonce.all (· == 0) then s.answer .ok certResponse
  else
    let q := s.quoteBody nonce
    (s.bump .sec 0 2 1).answer .ok (q ++ Config.identitySig (Config.sha3 q))

def execAttest (hdr : PbpHdr) (nonce : List Byte) (s : State) : Ans :=
  .next (s.pbp hdr { len := some 34, valid := nonce.length == 32, relay := true } (fun s _ =>
    s.atTarget hdr (.attest { hdr with relayed := true } nonce) 5556 (fun s =>
      if (s.comp 5).st ≠ .running then (s, none) else s.attest nonce)))

end Sys2Proof.Machine
end

