-- ==== Sys2Proof/Machine/Rings.lean ====
section
/-! DEFINITION. RoCEv2 accesses (R306 to R308), letterboxes (R311), the posting of entries (R315) and notices (R316). -/

namespace Sys2Proof.Machine

def State.conn? (s : State) (n : Nat) : Option Conn := s.host.conns.find? (fun c => c.num == n)

/-! ### Answers of the responder (R306) -/

def State.roceAck (s : State) (conn : Nat) : State := (s.bump .hostif 0 1 1).emit (.roceAck conn)
def State.roceData (s : State) (conn : Nat) (d : List Byte) : State := (s.bump .hostif 0 1 1).emit (.roceData conn d)

/-- A negative acknowledgement; it counts in ROCE_NAKS (R307). -/
def State.roceNak (s : State) (conn kind : Nat) : State :=
  ((s.bump .hostif 0 9 1).bump .hostif 0 1 1).emit (.roceNak conn kind)

def nakInvalid : Nat := 0
def nakAccess : Nat := 1
def nakOperation : Nat := 2

/-! ### Letterboxes (R311) -/

/-- A count that is ignored: counted, and recorded with the letterbox's offset. -/
def State.letterboxError (s : State) (b off count : Nat) : State :=
  (s.bump .hostif 0 16 1).event { pageRec .hostif 0 0x0801 .warning with box := some b, a := off, b := count }

/-- `a` counts from `b` on, 32-bit free-running counts. -/
def ahead (a b : Nat) : Nat := (a + 2 ^ 32 - b) % 2 ^ 32

/-- SQ_TAIL_r (R311): it may not move backward, nor lie more than the ring's size ahead of what the ledger has taken. -/
def State.sqTail (s : State) (b ring count : Nat) : State :=
  match (s.box b).subs.find? (fun q => q.index == ring) with
  | none => s.letterboxError b (8 * ring) count
  | some q =>
    if ahead count q.taken < ahead q.tail q.taken ∨ q.size < ahead count q.taken then s.letterboxError b (8 * ring) count
    else s.modBox b (fun x => { x with subs := x.subs.map (fun q => if q.index = ring then { q with tail := count } else q) })

/-- CQ_HEAD and DLQ_HEAD (R311, R315): slots released up to what has been written. -/
def State.outHead (s : State) (b : Nat) (dead : Bool) (count : Nat) : State :=
  let n := (s.box b).counts dead
  if ahead n.written n.head < ahead count n.head then s.letterboxError b (if dead then 0x48 else 0x40) count
  else s.modBox b (fun x => x.setCounts dead { n with head := count })

/-- A write of the letterbox at an offset; none where no letterbox lies there. -/
def State.letterbox (s : State) (b off count : Nat) : Option State :=
  if off % 8 ≠ 0 then none
  else if off < 0x40 then some (s.sqTail b (off / 8) count)
  else if off = 0x40 then some (s.outHead b false count)
  else if off = 0x48 then some (s.outHead b true count)
  else none

/-- The count that a letterbox holds. -/
def State.letterboxValue (s : State) (b off : Nat) : Option Nat :=
  if off % 8 ≠ 0 then none
  else if off < 0x40 then some (match (s.box b).subs.find? (fun q => q.index == off / 8) with | some q => q.tail | none => 0)
  else if off = 0x40 then some (s.box b).cqN.head
  else if off = 0x48 then some (s.box b).dlqN.head
  else none

/-- SQ_TAIL (R311). -/
def execSqTail (conn ring : Nat) (count : W32) (s : State) : Ans :=
  match s.conn? conn with
  | none => .next s
  | some c => .next (s.when (decide (ring < 8)) ((s.sqTail c.box ring count.toNat).roceAck conn))

/-- CQ_HEAD (R311). -/
def execCqHead (conn : Nat) (count : W32) (s : State) : Ans :=
  match s.conn? conn with
  | none => .next s
  | some c => .next ((s.outHead c.box false count.toNat).roceAck conn)

/-- DLQ_HEAD (R311). -/
def execDlqHead (conn : Nat) (count : W32) (s : State) : Ans :=
  match s.conn? conn with
  | none => .next s
  | some c => .next ((s.outHead c.box true count.toNat).roceAck conn)

/-! ### Box memory (R307, R308) -/

/-- Fields of a RoCEv2 virtual address: module, window, address (R307). -/
def rocePos (va : W64) : Nat := bits va.toNat 63 58
def roceWindow (va : W64) : Nat := bits va.toNat 57 48
def roceAddr (va : W64) : Nat := bits va.toNat 47 0

/-- Frames of a message at a connection's path MTU. -/
def frames (mtu n : Nat) : Nat := max 1 (cdiv n (max mtu 1))

/-- Every reduce page that a write meets takes its length and address as multiples of the operation's width (R308). -/
def State.reduceOk (s : State) (b va n : Nat) : Bool :=
  (List.range ((va + n + pageSize - 1) / pageSize - va / pageSize)).all (fun i =>
    match s.pte? b (va + i * pageSize) with
    | some e => pteReduce e == 0 || decide (va % reduceWidth (pteReduce e) = 0 ∧ n % reduceWidth (pteReduce e) = 0)
    | none => true)

/-- A protected page without a key is met (R241). -/
def State.keyless (s : State) (b va n : Nat) : Bool :=
  (List.range ((va + n + pageSize - 1) / pageSize - va / pageSize)).any (fun i => s.keyMissing b (va + i * pageSize))

/-- Touch every absent granule of a range (R234). -/
def State.touchRange (s : State) (b va n : Nat) : State :=
  (List.range ((va + n + 65535) / 65536 - va / 65536)).foldl (fun (s : State) i =>
    s.touch b (if i = 0 then va else (va / 65536 + i) * 65536)) s

/-- A host write of box memory of this module. A write that meets absent granules touches them and is not acknowledged: the
transport sends it again. -/
def State.hostWrite (s : State) (c : Conn) (va : Nat) (data : List Byte) : State :=
  let b := c.box
  let n := data.length
  if !s.mapped b va n true then s.roceNak c.num nakAccess
  else if s.keyless b va n then s.roceNak c.num nakOperation
  else if !s.reduceOk b va n then s.roceNak c.num nakInvalid
  else if (s.absentIn b va n).isSome then s.touchRange b va n
  else (s.storeBox b va data (fun _ => false)).roceAck c.num

/-- RDMA_WRITE (R306 to R308, R311). -/
def execRdmaWrite (conn key : Nat) (va : W64) (data : List Byte) (s : State) : Ans :=
  match s.conn? conn with
  | none => .next s
  | some c =>
    let s := s.bump .hostif 0 0 (frames c.mtu data.length)
    let p := rocePos va
    let w := roceWindow va
    let a := roceAddr va
    .next (
      if key ≠ c.key ∨ s.fab.members.getD p .absent ≠ .serving then s.roceNak conn nakAccess
      else if w = 0 then
        if p = s.pos then s.hostWrite c a data
        else (s.sendMsg p 3 (.tensor c.box a data)).roceAck conn
      else if w = 1 ∧ p = s.pos then
        if data.length ≠ 8 then s.roceNak conn nakInvalid
        else match s.letterbox c.box a (leNat (data.take 4)) with
          | some s => s.roceAck conn
          | none => s.roceNak conn nakAccess
      else s.roceNak conn nakAccess)

/-- A host read of box memory of this module (R308). -/
def State.hostRead (s : State) (c : Conn) (va n : Nat) : State :=
  let b := c.box
  if !s.mapped b va n false then s.roceNak c.num nakAccess
  else if (s.absentIn b va n).isSome then s.touchRange b va n
  else if s.poisonedBox b va n then
    (s.event { pageRec .hostif 0 0x0802 .warning with box := some b, b := va }).roceNak c.num nakOperation
  else s.roceData c.num (s.readBox b va n)

/-- RDMA_READ (R306 to R308). The bytes of another module's memory are free values. -/
def execRdmaRead (conn key : Nat) (va : W64) (len : Nat) (s : State) : Ans :=
  match s.conn? conn with
  | none => .next s
  | some c =>
    let s := s.bump .hostif 0 0 1
    let p := rocePos va
    let w := roceWindow va
    let a := roceAddr va
    .next (
      if key ≠ c.key ∨ s.fab.members.getD p .absent ≠ .serving then s.roceNak conn nakAccess
      else if w = 0 then
        if p = s.pos then s.hostRead c a len
        else
          let d := s.draw
          d.2.roceData conn ((List.range len).map (Config.freeByte d.1))
      else if w = 1 ∧ p = s.pos then
        if len ≠ 8 then s.roceNak conn nakInvalid
        else match s.letterboxValue c.box a with
          | some v => s.roceData conn (leBytes 8 v)
          | none => s.roceNak conn nakAccess
      else s.roceNak conn nakAccess)

/-- CNP_RECEIVE (R306): the module's requester reduces its rate. -/
def execCnpReceive (conn : Nat) (s : State) : Ans :=
  match s.conn? conn with
  | none => .next s
  | some _ =>
    .next (((s.bump .hostif 0 0 1).bump .hostif 0 10 1).setHost (fun h => { h with
      conns := h.conns.map (fun c => if c.num = conn then { c with reduced := c.reduced + 1 } else c) }))

/-! ### Posting (R315, R316, R362) -/

/-- ENTRY_POST (R315). -/
def execEntryPost (box : Nat) (deadLetter : Bool) (s : State) : Ans := .next (s.writeEntry box deadLetter)

/-- ENTRY_POSTED (R362): the oldest entry sent is acknowledged, and the ledger frees its entry. -/
def execEntryPosted (box : Nat) (deadLetter : Bool) (s : State) : Ans :=
  let x := s.box box
  match x.sent deadLetter with
  | [] => .next s
  | e :: l =>
    let s := s.modBox box (fun x => x.setLists deadLetter (x.waits deadLetter) l)
    .next (match e.item with
      | some id => { s with items := s.items.filter (fun i => i.id != id) }
      | none => s)

/-- NOTICE_HOLDOFF in ns (R316). -/
def State.holdoff (s : State) : Nat := 1000 * s.field .hostif 0 Reg.hostif_noticeHoldoff 15 0

/-- NOTICE (R316): sent behind the last one of the ring by the hold-off or more. -/
def execNotice (box : Nat) (deadLetter : Bool) (s : State) : Ans :=
  let n := (s.box box).counts deadLetter
  if n.posted = 0 ∨ ((s.box box).outRing deadLetter).isNone ∨ !s.requester box then .next s
  else
    let at' := match n.lastNotice with | some t => t + s.holdoff | none => 0
    .next (State.sendNotice { s with time := { s.time with t := max s.time.t at' } } box deadLetter)

end Sys2Proof.Machine
end

