-- ==== Sys2Proof/Machine/Sideband.lean ====
section
/-! DEFINITION. The management sideband (R453 to R455): register requests, common command codes and in-band interrupts. -/

namespace Sys2Proof.Machine

def State.setSide (s : State) (f : Sideband → Sideband) : State := { s with side := f s.side }

/-- The target answers while the module runs, at its dynamic address (R453). -/
def State.sideUp (s : State) : Bool := s.pwr.regulators && s.side.addr.isSome

/-! ### Register requests (R434, R454) -/

/-- Pages that the sideband reads (R434). -/
def sideReads (a : Nat) : Bool :=
  match pageOf a with
  | some (.hub, _) | some (.supply, _) | some (.fwctl, _) | some (.time, _) | some (.hostif, _) | some (.link, _) => true
  | _ => false

/-- Registers that the sideband writes (R434). -/
def sideWrites (a : Nat) : Bool :=
  match pageOf a with
  | some (.hostif, _) => a % 0x1000 == Reg.hostif_prbsCtrl
  | some (.link, _) => a % 0x1000 == Reg.link_prbsCtrl || a % 0x1000 == Reg.link_linkCtrl
  | _ => false

/-- STATUS values of R454. -/
def sideOk : Nat := 0
def sideDenied : Nat := 1
def sideNotReady : Nat := 2
def sideBadFrame : Nat := 3

/-- The result held for a private read. -/
def State.sideResult (s : State) (st : Nat) (v : W32) : State := s.setSide (fun k => { k with result := some (st, v) })

/-- REG_ACCESS on the page of a denied write. -/
def State.denyWrite (s : State) (a : Nat) : State :=
  match pageOf a with
  | some (p, i) => s.flagAccess p i a true
  | none => s.undecoded a true

/-- A private write: a read or a write request. -/
def State.sideRequest (s : State) (f : List Byte) : State :=
  let a := numAt f 1 4
  if f.length = 5 ∧ f.head? = some 0x01 then
    if !s.fw.booted then s.sideResult sideNotReady 0
    else if sideReads a then
      let r := s.regRead a 4
      r.1.sideResult sideOk r.2
    else s.sideResult sideDenied 0
  else if f.length = 9 ∧ f.head? = some 0x02 then
    if !s.fw.booted then s.sideResult sideNotReady 0
    else if sideWrites a then (s.regWrite none a 4 (numAt f 5 4)).sideResult sideOk 0
    else (s.denyWrite a).sideResult sideDenied 0
  else s.sideResult sideBadFrame 0

/-- SIDEBAND_READ_REQUEST (R454). -/
def execSidebandReadRequest (frame : List Byte) (s : State) : Ans :=
  .next (s.when s.sideUp (if frame.head? = some 0x02 then s.sideResult sideBadFrame 0 else s.sideRequest frame))

/-- SIDEBAND_WRITE_REQUEST (R454). -/
def execSidebandWriteRequest (frame : List Byte) (s : State) : Ans :=
  .next (s.when s.sideUp (if frame.head? = some 0x01 then s.sideResult sideBadFrame 0 else s.sideRequest frame))

/-- SIDEBAND_RESULT_READ (R454): a result is held until it is read. -/
def execSidebandResultRead (s : State) : Ans :=
  let r := s.side.result.getD (sideBadFrame, 0)
  .next (s.when s.sideUp
    ((s.setSide (fun k => { k with result := none })).emit (.sideband (leBytes 1 r.1 ++ leBytes 4 r.2.toNat))))

/-! ### Interrupts (R450, R455) -/

/-- FAULT_N is asserted (R450). -/
def State.faultN (s : State) : Bool :=
  s.pwr.rails.any (fun r => r.st == .short || r.st == .held) || s.tier.state == .readOnly || s.sec.passport == .bad ||
    s.sec.identity == .bad || s.side.mgrConflict || s.side.posRange

/-- The lowest outstanding interrupt code; 0 where none is. -/
def State.sideCode (s : State) : Nat :=
  if s.side.mgrConflict then 1 else if s.side.posRange then 2 else if s.faultN then 3 else if s.pwr.inputWarning then 4 else 0

/-- IN_BAND_INTERRUPT (R455). -/
def execInBandInterrupt (s : State) : Ans :=
  .next (s.when (s.sideUp && s.side.events && decide (s.sideCode ≠ 0)) (s.emit (.inBand s.sideCode)))

/-! ### Common command codes (R453) -/

/-- ENEC. -/
def execEnec (s : State) : Ans := .next (s.when s.pwr.regulators (s.setSide (fun k => { k with events := true })))
/-- DISEC. -/
def execDisec (s : State) : Ans := .next (s.when s.pwr.regulators (s.setSide (fun k => { k with events := false })))

/-- The provisional ID: HUB_SERIAL_LO below two bytes that the spec does not give, most significant byte first. -/
def State.provisionalId (s : State) : List Byte :=
  [Config.i3cByte 0, Config.i3cByte 1] ++ (leBytes 4 (s.regValue .hub 0 Reg.hub_hubSerialLo).toNat).reverse

/-- A direct command that returns bytes. -/
def State.sideGet (s : State) (bs : List Byte) : State := s.when s.sideUp (s.emit (.sideband bs))

/-- GETPID. -/
def execGetpid (s : State) : Ans := .next (s.sideGet s.provisionalId)
/-- GETBCR. -/
def execGetbcr (s : State) : Ans := .next (s.sideGet [Config.i3cByte 2])
/-- GETDCR. -/
def execGetdcr (s : State) : Ans := .next (s.sideGet [Config.i3cByte 3])

/-- GETSTATUS (R455): the lowest outstanding code in [3:0]; the other bits are free values. -/
def execGetstatus (s : State) : Ans :=
  let d := s.draw
  let low := BitVec.ofNat 8 (setBits (Config.freeByte d.1 0).toNat 3 0 s.sideCode)
  .next (s.when s.sideUp (d.2.emit (.sideband [Config.freeByte d.1 1, low])))

/-- GETMXDS. -/
def execGetmxds (s : State) : Ans := .next (s.sideGet [Config.i3cByte 4, Config.i3cByte 5])

/-- The static address (R453). -/
def sideStatic : Nat := 0x3A

/-- SETDASA: a target that has no dynamic address takes it at its static address. -/
def execSetdasa (staticAddr dynamicAddr : Nat) (s : State) : Ans :=
  .next (s.when (s.pwr.regulators && s.side.addr.isNone && staticAddr == sideStatic)
    (s.setSide (fun k => { k with addr := some dynamicAddr })))

/-- ENTDAA: the provisional ID, BCR and DCR, and the address assigned. -/
def execEntdaa (dynamicAddr : Nat) (s : State) : Ans :=
  .next (s.when (s.pwr.regulators && s.side.addr.isNone)
    ((s.emit (.sideband (s.provisionalId ++ [Config.i3cByte 2, Config.i3cByte 3]))).setSide (fun k => { k with addr := some dynamicAddr })))

/-- RSTDAA. -/
def execRstdaa (s : State) : Ans := .next (s.when s.pwr.regulators (s.setSide (fun k => { k with addr := none })))

/-- HOT_JOIN: a target without a dynamic address announces itself. -/
def execHotJoin (s : State) : Ans :=
  .next (s.when (s.pwr.regulators && s.side.addr.isNone) ((s.setSide (fun k => { k with hotJoined := true })).emit .hotJoin))

end Sys2Proof.Machine
end

