-- ==== Sys2Proof/Machine/Dispatch.lean ====
section
/-! DEFINITION. The dispatch: one arm per command, each one direct call of its meaning. -/

namespace Sys2Proof.Machine

/-- What a command does to everything but the queue. -/
def exec (i : Instr) (s : State) : Host.Outcome State Fault Refusal :=
  match i with
  | .openGroup id => Sys2Proof.Machine.execOpenGroup id s
  | .fork id => Sys2Proof.Machine.execFork id s
  | .step id => Sys2Proof.Machine.execStep id s
  | .stepCommit id k => Sys2Proof.Machine.execStepCommit id k s
  | .boundaryCull id => Sys2Proof.Machine.execBoundaryCull id s
  | .cull id => Sys2Proof.Machine.execCull id s
  | .endStreams id => Sys2Proof.Machine.execEndStreams id s
  | .closeGroup id => Sys2Proof.Machine.execCloseGroup id s
  | .park id => Sys2Proof.Machine.execPark id s
  | .recall id => Sys2Proof.Machine.execRecall id s
  | .backward id => Sys2Proof.Machine.execBackward id s
  | .kernel id => Sys2Proof.Machine.execKernel id s
  | .sync id => Sys2Proof.Machine.execSync id s
  | .ringEntryTake box ring => Sys2Proof.Machine.execRingEntryTake box ring s
  | .deadlineReached id => Sys2Proof.Machine.execDeadlineReached id s
  | .instancePlace id k => Sys2Proof.Machine.execInstancePlace id k s
  | .instanceStart core => Sys2Proof.Machine.execInstanceStart core s
  | .instanceEnd core => Sys2Proof.Machine.execInstanceEnd core s
  | .instanceSteal core => Sys2Proof.Machine.execInstanceSteal core s
  | .kernelWatchdog core => Sys2Proof.Machine.execKernelWatchdog core s
  | .tdld core clerk => Sys2Proof.Machine.execTdld core clerk s
  | .tdst core clerk => Sys2Proof.Machine.execTdst core clerk s
  | .tdset core clerk => Sys2Proof.Machine.execTdset core clerk s
  | .mxwl core clerk => Sys2Proof.Machine.execMxwl core clerk s
  | .shadowReadySet core => Sys2Proof.Machine.execShadowReadySet core s
  | .mxmul core clerk => Sys2Proof.Machine.execMxmul core clerk s
  | .bankSwap core => Sys2Proof.Machine.execBankSwap core s
  | .drn core clerk => Sys2Proof.Machine.execDrn core clerk s
  | .drainDone core => Sys2Proof.Machine.execDrainDone core s
  | .crr core clerk => Sys2Proof.Machine.execCrr core clerk s
  | .twait core clerk => Sys2Proof.Machine.execTwait core clerk s
  | .tparm core clerk => Sys2Proof.Machine.execTparm core clerk s
  | .tstat core clerk => Sys2Proof.Machine.execTstat core clerk s
  | .ecall core clerk => Sys2Proof.Machine.execEcall core clerk s
  | .clerkTrap core clerk kind => Sys2Proof.Machine.execClerkTrap core clerk kind s
  | .issueQueueRoom core clerk => Sys2Proof.Machine.execIssueQueueRoom core clerk s
  | .add core clerk => Sys2Proof.Machine.execAdd core clerk s
  | .sub core clerk => Sys2Proof.Machine.execSub core clerk s
  | .mul core clerk => Sys2Proof.Machine.execMul core clerk s
  | .fma core clerk => Sys2Proof.Machine.execFma core clerk s
  | .min core clerk => Sys2Proof.Machine.execMin core clerk s
  | .max core clerk => Sys2Proof.Machine.execMax core clerk s
  | .cmplt core clerk => Sys2Proof.Machine.execCmplt core clerk s
  | .cmpeq core clerk => Sys2Proof.Machine.execCmpeq core clerk s
  | .sel core clerk => Sys2Proof.Machine.execSel core clerk s
  | .cvt core clerk => Sys2Proof.Machine.execCvt core clerk s
  | .abs core clerk => Sys2Proof.Machine.execAbs core clerk s
  | .neg core clerk => Sys2Proof.Machine.execNeg core clerk s
  | .exp core clerk => Sys2Proof.Machine.execExp core clerk s
  | .log core clerk => Sys2Proof.Machine.execLog core clerk s
  | .rcp core clerk => Sys2Proof.Machine.execRcp core clerk s
  | .rsqrt core clerk => Sys2Proof.Machine.execRsqrt core clerk s
  | .sigmoid core clerk => Sys2Proof.Machine.execSigmoid core clerk s
  | .tanh core clerk => Sys2Proof.Machine.execTanh core clerk s
  | .rsum core clerk => Sys2Proof.Machine.execRsum core clerk s
  | .rmax core clerk => Sys2Proof.Machine.execRmax core clerk s
  | .rargmax core clerk => Sys2Proof.Machine.execRargmax core clerk s
  | .rsumsq core clerk => Sys2Proof.Machine.execRsumsq core clerk s
  | .softmaxStep core clerk => Sys2Proof.Machine.execSoftmaxStep core clerk s
  | .softmaxFinal core clerk => Sys2Proof.Machine.execSoftmaxFinal core clerk s
  | .rmsnorm core clerk => Sys2Proof.Machine.execRmsnorm core clerk s
  | .layernorm core clerk => Sys2Proof.Machine.execLayernorm core clerk s
  | .scan core clerk => Sys2Proof.Machine.execScan core clerk s
  | .stateRms core clerk => Sys2Proof.Machine.execStateRms core clerk s
  | .topk core clerk => Sys2Proof.Machine.execTopk core clerk s
  | .pool core clerk => Sys2Proof.Machine.execPool core clerk s
  | .dwconv core clerk => Sys2Proof.Machine.execDwconv core clerk s
  | .walkIssue core clerk => Sys2Proof.Machine.execWalkIssue core clerk s
  | .lengths core q => Sys2Proof.Machine.execLengths core q s
  | .gatherK core q => Sys2Proof.Machine.execGatherK core q s
  | .gatherV core q => Sys2Proof.Machine.execGatherV core q s
  | .appendK core q => Sys2Proof.Machine.execAppendK core q s
  | .appendV core q => Sys2Proof.Machine.execAppendV core q s
  | .bias core q => Sys2Proof.Machine.execBias core q s
  | .kvPoolAllocResume box => Sys2Proof.Machine.execKvPoolAllocResume box s
  | .mxeRampUp core groups => Sys2Proof.Machine.execMxeRampUp core groups s
  | .mxeRampDown core groups => Sys2Proof.Machine.execMxeRampDown core groups s
  | .mxeRampOff core => Sys2Proof.Machine.execMxeRampOff core s
  | .mxeRampReverse core => Sys2Proof.Machine.execMxeRampReverse core s
  | .pigeonholeRetire core ph uncorrectable corrected => Sys2Proof.Machine.execPigeonholeRetire core ph uncorrectable corrected s
  | .pigeonholeRemap core => Sys2Proof.Machine.execPigeonholeRemap core s
  | .expanderDecodeBlock core tensor va dest => Sys2Proof.Machine.execExpanderDecodeBlock core tensor va dest s
  | .encodeBlock core va => Sys2Proof.Machine.execEncodeBlock core va s
  | .encodeBufferWrite core tensor va data => Sys2Proof.Machine.execEncodeBufferWrite core tensor va data s
  | .encodeBufferWriteout core => Sys2Proof.Machine.execEncodeBufferWriteout core s
  | .census slot box alphabet accum va units => Sys2Proof.Machine.execCensus slot box alphabet accum va units s
  | .replaceStaged slot box => Sys2Proof.Machine.execReplaceStaged slot box s
  | .replaceImage slot box va => Sys2Proof.Machine.execReplaceImage slot box va s
  | .release slot box => Sys2Proof.Machine.execRelease slot box s
  | .restore slot box gen va => Sys2Proof.Machine.execRestore slot box gen va s
  | .codebookInstall slot => Sys2Proof.Machine.execCodebookInstall slot s
  | .cas da expected new => Sys2Proof.Machine.execCas da expected new s
  | .fetchAdd da addend => Sys2Proof.Machine.execFetchAdd da addend s
  | .swap da new => Sys2Proof.Machine.execSwap da new s
  | .reductionWrite box va data => Sys2Proof.Machine.execReductionWrite box va data s
  | .regulatorAdmit die box => Sys2Proof.Machine.execRegulatorAdmit die box s
  | .hbmTempReport stack celsius => Sys2Proof.Machine.execHbmTempReport stack celsius s
  | .channelMapout stack ch cause => Sys2Proof.Machine.execChannelMapout stack ch cause s
  | .evacuationPageCopy die page => Sys2Proof.Machine.execEvacuationPageCopy die page s
  | .evacuationDone die => Sys2Proof.Machine.execEvacuationDone die s
  | .redirectCopyBack die page => Sys2Proof.Machine.execRedirectCopyBack die page s
  | .absentTouch box va => Sys2Proof.Machine.execAbsentTouch box va s
  | .granuleFillDone granule uncorrectable => Sys2Proof.Machine.execGranuleFillDone granule uncorrectable s
  | .granuleWritebackDone granule => Sys2Proof.Machine.execGranuleWritebackDone granule s
  | .ageWriteback => Sys2Proof.Machine.execAgeWriteback s
  | .prefetch box va units => Sys2Proof.Machine.execPrefetch box va units s
  | .tierFlush box va units => Sys2Proof.Machine.execTierFlush box va units s
  | .tierEvict box va units => Sys2Proof.Machine.execTierEvict box va units s
  | .discard box va units => Sys2Proof.Machine.execDiscard box va units s
  | .flashHousekeeping => Sys2Proof.Machine.execFlashHousekeeping s
  | .readDisturbRelocate block => Sys2Proof.Machine.execReadDisturbRelocate block s
  | .flashBlockRetire block => Sys2Proof.Machine.execFlashBlockRetire block s
  | .flashStateChange sparePermille wearPct => Sys2Proof.Machine.execFlashStateChange sparePermille wearPct s
  | .writeHeld low => Sys2Proof.Machine.execWriteHeld low s
  | .ptpMessage masterNs usable => Sys2Proof.Machine.execPtpMessage masterNs usable s
  | .lossTimeout => Sys2Proof.Machine.execLossTimeout s
  | .holdoverLimit => Sys2Proof.Machine.execHoldoverLimit s
  | .localStart => Sys2Proof.Machine.execLocalStart s
  | .firstRoundBoundary => Sys2Proof.Machine.execFirstRoundBoundary s
  | .roundBoundary => Sys2Proof.Machine.execRoundBoundary s
  | .collection index => Sys2Proof.Machine.execCollection index s
  | .quietWindowStart index => Sys2Proof.Machine.execQuietWindowStart index s
  | .sliceSchedule => Sys2Proof.Machine.execSliceSchedule s
  | .sliceStart core => Sys2Proof.Machine.execSliceStart core s
  | .sliceEnd core observed signatureMatches dip => Sys2Proof.Machine.execSliceEnd core observed signatureMatches dip s
  | .sliceOverdue core minutes => Sys2Proof.Machine.execSliceOverdue core minutes s
  | .boxEnable box session => Sys2Proof.Machine.execBoxEnable box session s
  | .boxDisable box => Sys2Proof.Machine.execBoxDisable box s
  | .boxDrainLimit box => Sys2Proof.Machine.execBoxDrainLimit box s
  | .boxQuiesce box => Sys2Proof.Machine.execBoxQuiesce box s
  | .boxRelease box => Sys2Proof.Machine.execBoxRelease box s
  | .outboundMoveDone stream => Sys2Proof.Machine.execOutboundMoveDone stream s
  | .inboundMoveDone stream => Sys2Proof.Machine.execInboundMoveDone stream s
  | .arenaWaitResume box => Sys2Proof.Machine.execArenaWaitResume box s
  | .mirrorAck stream => Sys2Proof.Machine.execMirrorAck stream s
  | .mirrorTimeout stream => Sys2Proof.Machine.execMirrorTimeout stream s
  | .adoption pos => Sys2Proof.Machine.execAdoption pos s
  | .mirrorResync stream => Sys2Proof.Machine.execMirrorResync stream s
  | .linkDetect port d0 d1 d2 d3 => Sys2Proof.Machine.execLinkDetect port d0 d1 d2 d3 s
  | .linkTrainDone port farPos farPort farStepping polarity reversed => Sys2Proof.Machine.execLinkTrainDone port farPos farPort farStepping polarity reversed s
  | .linkNegotiate port farVersion => Sys2Proof.Machine.execLinkNegotiate port farVersion s
  | .linkRetrain port reason => Sys2Proof.Machine.execLinkRetrain port reason s
  | .retrainTimeout port => Sys2Proof.Machine.execRetrainTimeout port s
  | .linkDownRetry port => Sys2Proof.Machine.execLinkDownRetry port s
  | .linkCtrlPacket port msg => Sys2Proof.Machine.execLinkCtrlPacket port msg s
  | .timeSync port parentState offsetNs => Sys2Proof.Machine.execTimeSync port parentState offsetNs s
  | .fence port epoch => Sys2Proof.Machine.execFence port epoch s
  | .fenceSend port => Sys2Proof.Machine.execFenceSend port s
  | .member hdr msg => Sys2Proof.Machine.execMember hdr msg s
  | .budget hdr pos stamps => Sys2Proof.Machine.execBudget hdr pos stamps s
  | .item hdr box ring count desc => Sys2Proof.Machine.execItem hdr box ring count desc s
  | .result hdr box tag failed entry => Sys2Proof.Machine.execResult hdr box tag failed entry s
  | .msgAck hdr cls => Sys2Proof.Machine.execMsgAck hdr cls s
  | .bulk hdr msg => Sys2Proof.Machine.execBulk hdr msg s
  | .e2eTimeout dest cls seq => Sys2Proof.Machine.execE2eTimeout dest cls seq s
  | .heartbeatSend => Sys2Proof.Machine.execHeartbeatSend s
  | .heartbeatMiss pos => Sys2Proof.Machine.execHeartbeatMiss pos s
  | .bundleLost dir => Sys2Proof.Machine.execBundleLost dir s
  | .isolatedTimeout pos => Sys2Proof.Machine.execIsolatedTimeout pos s
  | .declareDead pos reason => Sys2Proof.Machine.execDeclareDead pos reason s
  | .standbyTakeover => Sys2Proof.Machine.execStandbyTakeover s
  | .routeChange => Sys2Proof.Machine.execRouteChange s
  | .routeTablesInstall gen routes => Sys2Proof.Machine.execRouteTablesInstall gen routes s
  | .routeGo gen => Sys2Proof.Machine.execRouteGo gen s
  | .routeWaitDiscard dir => Sys2Proof.Machine.execRouteWaitDiscard dir s
  | .join req => Sys2Proof.Machine.execJoin req s
  | .fabCmdDeclareDead pos => Sys2Proof.Machine.execFabCmdDeclareDead pos s
  | .clearBar pos => Sys2Proof.Machine.execClearBar pos s
  | .recomputeRoutes => Sys2Proof.Machine.execRecomputeRoutes s
  | .hello hdr lowest highest => Sys2Proof.Machine.execHello hdr lowest highest s
  | .bye hdr => Sys2Proof.Machine.execBye hdr s
  | .keepalive hdr => Sys2Proof.Machine.execKeepalive hdr s
  | .regRead hdr addr => Sys2Proof.Machine.execRegRead hdr addr s
  | .regWrite hdr addr value => Sys2Proof.Machine.execRegWrite hdr addr value s
  | .regBatch hdr ops => Sys2Proof.Machine.execRegBatch hdr ops s
  | .submitEmu hdr entry desc => Sys2Proof.Machine.execSubmitEmu hdr entry desc s
  | .connect hdr hostQp psn mtu role => Sys2Proof.Machine.execConnect hdr hostQp psn mtu role s
  | .ringSetup hdr kind index sizeLog2 addr key => Sys2Proof.Machine.execRingSetup hdr kind index sizeLog2 addr key s
  | .pbpResume hdr oldSession => Sys2Proof.Machine.execPbpResume hdr oldSession s
  | .imageBegin hdr component size => Sys2Proof.Machine.execImageBegin hdr component size s
  | .imageData hdr offset data => Sys2Proof.Machine.execImageData hdr offset data s
  | .imageEnd hdr component => Sys2Proof.Machine.execImageEnd hdr component s
  | .start hdr => Sys2Proof.Machine.execStart hdr s
  | .map hdr va entry => Sys2Proof.Machine.execMap hdr va entry s
  | .unmap hdr va => Sys2Proof.Machine.execUnmap hdr va s
  | .regionAdd hdr record => Sys2Proof.Machine.execRegionAdd hdr record s
  | .regionSet hdr index encodeSlot thresh => Sys2Proof.Machine.execRegionSet hdr index encodeSlot thresh s
  | .codebook hdr word addr length => Sys2Proof.Machine.execCodebook hdr word addr length s
  | .tier hdr word addr length => Sys2Proof.Machine.execTier hdr word addr length s
  | .keyInstall hdr key => Sys2Proof.Machine.execKeyInstall hdr key s
  | .attest hdr nonce => Sys2Proof.Machine.execAttest hdr nonce s
  | .fwStatus hdr => Sys2Proof.Machine.execFwStatus hdr s
  | .sqTail conn ring count => Sys2Proof.Machine.execSqTail conn ring count s
  | .cqHead conn count => Sys2Proof.Machine.execCqHead conn count s
  | .dlqHead conn count => Sys2Proof.Machine.execDlqHead conn count s
  | .rdmaWrite conn key va data => Sys2Proof.Machine.execRdmaWrite conn key va data s
  | .rdmaRead conn key va len => Sys2Proof.Machine.execRdmaRead conn key va len s
  | .cnpReceive conn => Sys2Proof.Machine.execCnpReceive conn s
  | .entryPost box deadLetter => Sys2Proof.Machine.execEntryPost box deadLetter s
  | .entryPosted box deadLetter => Sys2Proof.Machine.execEntryPosted box deadLetter s
  | .notice box deadLetter => Sys2Proof.Machine.execNotice box deadLetter s
  | .sessionTimeout session => Sys2Proof.Machine.execSessionTimeout session s
  | .hostLinkChange speed an pcsLock => Sys2Proof.Machine.execHostLinkChange speed an pcsLock s
  | .componentFault component cause processor pc => Sys2Proof.Machine.execComponentFault component cause processor pc s
  | .fwWatchdog component => Sys2Proof.Machine.execFwWatchdog component s
  | .componentRestart component digestOk => Sys2Proof.Machine.execComponentRestart component digestOk s
  | .componentRunning component => Sys2Proof.Machine.execComponentRunning component s
  | .restartOverrun component => Sys2Proof.Machine.execRestartOverrun component s
  | .restartComponent component => Sys2Proof.Machine.execRestartComponent component s
  | .resetModule => Sys2Proof.Machine.execResetModule s
  | .escalation component firstCause secondCause => Sys2Proof.Machine.execEscalation component firstCause secondCause s
  | .mailboxSend sender receiver message => Sys2Proof.Machine.execMailboxSend sender receiver message s
  | .supervisorTask => Sys2Proof.Machine.execSupervisorTask s
  | .bootSequence => Sys2Proof.Machine.execBootSequence s
  | .fieldRecordWrite => Sys2Proof.Machine.execFieldRecordWrite s
  | .token bytes => Sys2Proof.Machine.execToken bytes s
  | .debugLifetimeExpiry => Sys2Proof.Machine.execDebugLifetimeExpiry s
  | .secDbgLock => Sys2Proof.Machine.execSecDbgLock s
  | .keyCmdInstall box => Sys2Proof.Machine.execKeyCmdInstall box s
  | .keyCmdClear box => Sys2Proof.Machine.execKeyCmdClear box s
  | .coreFence core cause => Sys2Proof.Machine.execCoreFence core cause s
  | .coreSubstitute logical => Sys2Proof.Machine.execCoreSubstitute logical s
  | .signatureWrite kind unit detailA detailB => Sys2Proof.Machine.execSignatureWrite kind unit detailA detailB s
  | .coreReturn core allPassed => Sys2Proof.Machine.execCoreReturn core allPassed s
  | .drainTimeout core => Sys2Proof.Machine.execDrainTimeout core s
  | .controlParityError core => Sys2Proof.Machine.execControlParityError core s
  | .staleCoreRequest core incarnation => Sys2Proof.Machine.execStaleCoreRequest core incarnation s
  | .poisonConsumed core va => Sys2Proof.Machine.execPoisonConsumed core va s
  | .ledgerEntryUe id tagClean positionClean => Sys2Proof.Machine.execLedgerEntryUe id tagClean positionClean s
  | .dispositionRecord id => Sys2Proof.Machine.execDispositionRecord id s
  | .recordAccept => Sys2Proof.Machine.execRecordAccept s
  | .recorderFlush => Sys2Proof.Machine.execRecorderFlush s
  | .logCursorWrite lo => Sys2Proof.Machine.execLogCursorWrite lo s
  | .logOldestRead => Sys2Proof.Machine.execLogOldestRead s
  | .roundNowRead => Sys2Proof.Machine.execRoundNowRead s
  | .counterLowRead addr => Sys2Proof.Machine.execCounterLowRead addr s
  | .sigPmRead => Sys2Proof.Machine.execSigPmRead s
  | .sigCursorWrite value => Sys2Proof.Machine.execSigCursorWrite value s
  | .grantRequest core mode => Sys2Proof.Machine.execGrantRequest core mode s
  | .queuedGrant => Sys2Proof.Machine.execQueuedGrant s
  | .grantRevoke => Sys2Proof.Machine.execGrantRevoke s
  | .budgetMove => Sys2Proof.Machine.execBudgetMove s
  | .railWarning die millivolt => Sys2Proof.Machine.execRailWarning die millivolt s
  | .railWarningExit die lowestMv durationNs => Sys2Proof.Machine.execRailWarningExit die lowestMv durationNs s
  | .longDip die => Sys2Proof.Machine.execLongDip die s
  | .dieSupplyReset die lowestMv => Sys2Proof.Machine.execDieSupplyReset die lowestMv s
  | .dieResetRelease die passed => Sys2Proof.Machine.execDieResetRelease die passed s
  | .railShort rail => Sys2Proof.Machine.execRailShort rail s
  | .inputWarning millivolt => Sys2Proof.Machine.execInputWarning millivolt s
  | .inputWarningExit millivolt => Sys2Proof.Machine.execInputWarningExit millivolt s
  | .inputShutdown millivolt => Sys2Proof.Machine.execInputShutdown millivolt s
  | .reversedPolarity => Sys2Proof.Machine.execReversedPolarity s
  | .thermalFactorFall celsius => Sys2Proof.Machine.execThermalFactorFall celsius s
  | .thermalFactorRise celsius => Sys2Proof.Machine.execThermalFactorRise celsius s
  | .thermalTrip sensor celsius => Sys2Proof.Machine.execThermalTrip sensor celsius s
  | .sensorOpen sensor => Sys2Proof.Machine.execSensorOpen sensor s
  | .regulatorStart millivolt => Sys2Proof.Machine.execRegulatorStart millivolt s
  | .pwrEnFall => Sys2Proof.Machine.execPwrEnFall s
  | .d2dLinkDown die link => Sys2Proof.Machine.execD2dLinkDown die link s
  | .genEn page on pattern mask => Sys2Proof.Machine.execGenEn page on pattern mask s
  | .chkEn page on pattern mask => Sys2Proof.Machine.execChkEn page on pattern mask s
  | .inject page => Sys2Proof.Machine.execInject page s
  | .checkerLock page lane inverted => Sys2Proof.Machine.execCheckerLock page lane inverted s
  | .checkerLoss page lane compared errors => Sys2Proof.Machine.execCheckerLoss page lane compared errors s
  | .extest => Sys2Proof.Machine.execExtest s
  | .idcode => Sys2Proof.Machine.execIdcode s
  | .samplePreload => Sys2Proof.Machine.execSamplePreload s
  | .nonce => Sys2Proof.Machine.execNonce s
  | .dtmcs => Sys2Proof.Machine.execDtmcs s
  | .dmi op addr data => Sys2Proof.Machine.execDmi op addr data s
  | .tapScan die shiftIn => Sys2Proof.Machine.execTapScan die shiftIn s
  | .lbist core patternSet corner => Sys2Proof.Machine.execLbist core patternSet corner s
  | .mbist memory => Sys2Proof.Machine.execMbist memory s
  | .bypass => Sys2Proof.Machine.execBypass s
  | .hartHalt hart => Sys2Proof.Machine.execHartHalt hart s
  | .hartResume hart => Sys2Proof.Machine.execHartResume hart s
  | .hartSingleStep hart => Sys2Proof.Machine.execHartSingleStep hart s
  | .accessRegister hart regno write => Sys2Proof.Machine.execAccessRegister hart regno write s
  | .triggerMatch hart kind address => Sys2Proof.Machine.execTriggerMatch hart kind address s
  | .systemBusAccess address size write => Sys2Proof.Machine.execSystemBusAccess address size write s
  | .sidebandReadRequest frame => Sys2Proof.Machine.execSidebandReadRequest frame s
  | .sidebandWriteRequest frame => Sys2Proof.Machine.execSidebandWriteRequest frame s
  | .sidebandResultRead => Sys2Proof.Machine.execSidebandResultRead s
  | .inBandInterrupt => Sys2Proof.Machine.execInBandInterrupt s
  | .enec => Sys2Proof.Machine.execEnec s
  | .disec => Sys2Proof.Machine.execDisec s
  | .getpid => Sys2Proof.Machine.execGetpid s
  | .getbcr => Sys2Proof.Machine.execGetbcr s
  | .getdcr => Sys2Proof.Machine.execGetdcr s
  | .getstatus => Sys2Proof.Machine.execGetstatus s
  | .getmxds => Sys2Proof.Machine.execGetmxds s
  | .setdasa staticAddr dynamicAddr => Sys2Proof.Machine.execSetdasa staticAddr dynamicAddr s
  | .entdaa dynamicAddr => Sys2Proof.Machine.execEntdaa dynamicAddr s
  | .rstdaa => Sys2Proof.Machine.execRstdaa s
  | .hotJoin => Sys2Proof.Machine.execHotJoin s
  | .drain core => Sys2Proof.Machine.execDrain core s
  | .coreResume core => Sys2Proof.Machine.execCoreResume core s
  | .coreDrained core => Sys2Proof.Machine.execCoreDrained core s
  | .coreMapWrite index value => Sys2Proof.Machine.execCoreMapWrite index value s
  | .acmMapWrite core value => Sys2Proof.Machine.execAcmMapWrite core value s
  | .stateWindowWrite core value => Sys2Proof.Machine.execStateWindowWrite core value s
  | .handleSelWrite core value => Sys2Proof.Machine.execHandleSelWrite core value s
  | .flush core => Sys2Proof.Machine.execFlush core s
  | .hbmMapoutGo stack ch => Sys2Proof.Machine.execHbmMapoutGo stack ch s
  | .retrain port => Sys2Proof.Machine.execRetrain port s
  | .linkEnableWrite port on => Sys2Proof.Machine.execLinkEnableWrite port on s
  | .lockWrite page => Sys2Proof.Machine.execLockWrite page s
  | .w1cWrite addr value hwSets => Sys2Proof.Machine.execW1cWrite addr value hwSets s
  | .registerWrite addr size value => Sys2Proof.Machine.execRegisterWrite addr size value s
  | .quietWindowEnd index => Sys2Proof.Machine.execQuietWindowEnd index s
  | .inletWarn celsius => Sys2Proof.Machine.execInletWarn celsius s
  | .tapReset => Sys2Proof.Machine.execTapReset s
  | .tokenCheckDone => Sys2Proof.Machine.execTokenCheckDone s
  | .formation present managers a1 cfg => Sys2Proof.Machine.execFormation present managers a1 cfg s
  | .escArmedExpiry component => Sys2Proof.Machine.execEscArmedExpiry component s
  | .rv64imacInstruction core clerk => Sys2Proof.Machine.execRv64imacInstruction core clerk s

end Sys2Proof.Machine
end

