-- ==== Sys2Proof/Safety.lean ====
section
/-! DEFINITION. What the claims speak of: the parts of the state and what a command leaves alone (`Frame`,
`touches`), the canonical form of memory, and the invariant of every run (`State.Inv`). -/

namespace Sys2Proof.Machine

/-- The parts of the state, one for each field of `State`. -/
inductive Part where
  | pending | outbox | freeCount | stepping | order | pins | time | regs | ctr | cores | places | groups 
  | pages | mirrors | mirrorPages | arenaWait | poolWait | items | nextItem | gang | boxes | mem | memPoison 
  | protUnits | hbm | dies | held | tier | cb | fab | links | host | log | fw | sec | pwr | test | side
  deriving DecidableEq, Repr

/-- The state with the parts of a list blotted out. -/
def State.without (ps : List Part) (s : State) : State :=
  { pending := if .pending ∈ ps then State.reset.pending else s.pending
    outbox := if .outbox ∈ ps then State.reset.outbox else s.outbox
    freeCount := if .freeCount ∈ ps then State.reset.freeCount else s.freeCount
    stepping := if .stepping ∈ ps then State.reset.stepping else s.stepping
    order := if .order ∈ ps then State.reset.order else s.order
    pins := if .pins ∈ ps then State.reset.pins else s.pins
    time := if .time ∈ ps then State.reset.time else s.time
    regs := if .regs ∈ ps then State.reset.regs else s.regs
    ctr := if .ctr ∈ ps then State.reset.ctr else s.ctr
    cores := if .cores ∈ ps then State.reset.cores else s.cores
    places := if .places ∈ ps then State.reset.places else s.places
    groups := if .groups ∈ ps then State.reset.groups else s.groups
    pages := if .pages ∈ ps then State.reset.pages else s.pages
    mirrors := if .mirrors ∈ ps then State.reset.mirrors else s.mirrors
    mirrorPages := if .mirrorPages ∈ ps then State.reset.mirrorPages else s.mirrorPages
    arenaWait := if .arenaWait ∈ ps then State.reset.arenaWait else s.arenaWait
    poolWait := if .poolWait ∈ ps then State.reset.poolWait else s.poolWait
    items := if .items ∈ ps then State.reset.items else s.items
    nextItem := if .nextItem ∈ ps then State.reset.nextItem else s.nextItem
    gang := if .gang ∈ ps then State.reset.gang else s.gang
    boxes := if .boxes ∈ ps then State.reset.boxes else s.boxes
    mem := if .mem ∈ ps then State.reset.mem else s.mem
    memPoison := if .memPoison ∈ ps then State.reset.memPoison else s.memPoison
    protUnits := if .protUnits ∈ ps then State.reset.protUnits else s.protUnits
    hbm := if .hbm ∈ ps then State.reset.hbm else s.hbm
    dies := if .dies ∈ ps then State.reset.dies else s.dies
    held := if .held ∈ ps then State.reset.held else s.held
    tier := if .tier ∈ ps then State.reset.tier else s.tier
    cb := if .cb ∈ ps then State.reset.cb else s.cb
    fab := if .fab ∈ ps then State.reset.fab else s.fab
    links := if .links ∈ ps then State.reset.links else s.links
    host := if .host ∈ ps then State.reset.host else s.host
    log := if .log ∈ ps then State.reset.log else s.log
    fw := if .fw ∈ ps then State.reset.fw else s.fw
    sec := if .sec ∈ ps then State.reset.sec else s.sec
    pwr := if .pwr ∈ ps then State.reset.pwr else s.pwr
    test := if .test ∈ ps then State.reset.test else s.test
    side := if .side ∈ ps then State.reset.side else s.side }

/-- From `s` to `t` nothing changed but the parts listed: the two agree once these are blotted out. -/
def Frame (ps : List Part) (s t : State) : Prop := t.without ps = s.without ps

/-! ### What each command may touch -/

/-- The parts of the state that a command may touch: the rows of the opcode table, grouped. -/
def touches : Instr → List Part
  | .openGroup _ | .fork _ | .step _ | .cull _ | .park _ | .recall _ | .outboundMoveDone _ | .inboundMoveDone _
  | .arenaWaitResume _ =>
    [.outbox, .freeCount, .ctr, .cores, .places, .groups, .pages, .arenaWait, .poolWait, .items, .boxes, .mem,
    .memPoison, .protUnits, .tier, .fab, .links, .log]
  | .stepCommit _ _ | .ledgerEntryUe _ _ _ =>
    [.outbox, .freeCount, .regs, .ctr, .cores, .places, .groups, .pages, .arenaWait, .poolWait, .items, .boxes,
    .mem, .memPoison, .protUnits, .tier, .fab, .links, .log]
  | .boundaryCull _ =>
    [.outbox, .freeCount, .ctr, .cores, .places, .pages, .arenaWait, .items, .mem, .memPoison, .protUnits, .tier,
    .fab, .links, .log]
  | .endStreams _ | .closeGroup _ | .backward _ | .kernel _ | .sync _ =>
    [.outbox, .freeCount, .ctr, .cores, .places, .groups, .pages, .arenaWait, .poolWait, .items, .boxes, .mem,
    .memPoison, .protUnits, .tier, .fab, .links]
  | .ringEntryTake _ _ =>
    [.outbox, .freeCount, .ctr, .cores, .places, .groups, .pages, .arenaWait, .poolWait, .items, .nextItem, .boxes,
    .mem, .memPoison, .protUnits, .tier, .fab, .links, .host]
  | .deadlineReached _ | .kernelWatchdog _ | .boxDrainLimit _ =>
    [.outbox, .freeCount, .time, .ctr, .cores, .places, .groups, .pages, .arenaWait, .poolWait, .items, .boxes,
    .mem, .memPoison, .protUnits, .tier, .fab, .links]
  | .instancePlace _ _ =>
    [.outbox, .freeCount, .ctr, .cores, .places, .groups, .pages, .arenaWait, .poolWait, .items, .gang, .boxes,
    .mem, .memPoison, .protUnits, .tier, .fab, .links]
  | .instanceStart _ =>
    [.freeCount, .regs, .ctr, .cores, .places, .pages, .arenaWait, .items, .boxes, .log]
  | .instanceEnd _ | .mxwl _ _ | .mxmul _ _ | .bankSwap _ | .drn _ _ | .drainDone _ | .crr _ _ | .twait _ _
  | .issueQueueRoom _ _ | .lengths _ _ | .gatherK _ _ | .gatherV _ _ | .appendK _ _ | .appendV _ _ | .bias _ _
  | .kvPoolAllocResume _ =>
    [.freeCount, .regs, .ctr, .cores, .places, .pages, .arenaWait, .poolWait, .items, .boxes, .mem, .memPoison,
    .protUnits, .dies, .tier, .log]
  | .instanceSteal _ | .tdset _ _ | .tparm _ _ | .tstat _ _ | .ecall _ _ | .mxeRampUp _ _ | .flush _ =>
    [.ctr, .cores]
  | .tdld _ _ | .tdst _ _ | .clerkTrap _ _ _ | .add _ _ | .sub _ _ | .mul _ _ | .fma _ _ | .min _ _ | .max _ _
  | .cmplt _ _ | .cmpeq _ _ | .sel _ _ | .cvt _ _ | .abs _ _ | .neg _ _ | .exp _ _ | .log _ _ | .rcp _ _
  | .rsqrt _ _ | .sigmoid _ _ | .tanh _ _ | .rsum _ _ | .rmax _ _ | .rargmax _ _ | .rsumsq _ _ | .softmaxStep _ _
  | .softmaxFinal _ _ | .rmsnorm _ _ | .layernorm _ _ | .scan _ _ | .stateRms _ _ | .topk _ _ | .pool _ _
  | .dwconv _ _ | .rv64imacInstruction _ _ =>
    [.freeCount, .regs, .ctr, .cores, .places, .pages, .arenaWait, .poolWait, .items, .boxes]
  | .shadowReadySet _ | .pigeonholeRemap _ | .sliceStart _ | .drain _ | .coreResume _ | .coreDrained _ =>
    [.regs, .cores]
  | .walkIssue _ _ =>
    [.freeCount, .regs, .ctr, .cores, .places, .groups, .pages, .arenaWait, .poolWait, .items, .boxes]
  | .mxeRampDown _ _ | .mxeRampReverse _ | .poisonConsumed _ _ =>
    [.cores]
  | .mxeRampOff _ | .grantRevoke =>
    [.ctr, .cores, .pwr]
  | .pigeonholeRetire _ _ _ _ =>
    [.regs, .ctr, .cores, .log, .sec]
  | .expanderDecodeBlock _ _ _ _ | .encodeBlock _ _ | .encodeBufferWrite _ _ _ _ | .encodeBufferWriteout _ =>
    [.freeCount, .regs, .ctr, .cores, .places, .pages, .arenaWait, .poolWait, .items, .boxes, .mem, .memPoison,
    .protUnits, .tier, .log]
  | .census _ _ _ _ _ _ | .release _ _ | .restore _ _ _ _ =>
    [.ctr, .cb]
  | .replaceStaged _ _ | .replaceImage _ _ _ =>
    [.cb]
  | .codebookInstall _ =>
    [.outbox, .ctr, .cb, .host]
  | .cas _ _ _ | .fetchAdd _ _ | .swap _ _ =>
    [.outbox, .ctr, .mem, .memPoison, .tier]
  | .reductionWrite _ _ _ =>
    [.ctr, .mem, .memPoison, .protUnits, .tier]
  | .regulatorAdmit _ _ =>
    [.ctr, .dies]
  | .hbmTempReport _ _ =>
    [.regs, .hbm, .log]
  | .channelMapout _ _ _ | .hbmMapoutGo _ _ =>
    [.freeCount, .regs, .hbm, .dies, .log, .sec]
  | .evacuationPageCopy _ _ =>
    [.regs, .ctr, .dies]
  | .evacuationDone _ =>
    [.regs, .hbm, .dies, .log]
  | .redirectCopyBack _ _ =>
    [.regs, .dies]
  | .absentTouch _ _ | .flashHousekeeping | .readDisturbRelocate _ =>
    [.ctr, .tier]
  | .granuleFillDone _ _ =>
    [.ctr, .mem, .memPoison, .tier, .log]
  | .granuleWritebackDone _ =>
    [.ctr, .mem, .memPoison, .tier]
  | .ageWriteback =>
    [.tier]
  | .prefetch _ _ _ | .tierFlush _ _ _ | .tierEvict _ _ _ | .discard _ _ _ =>
    [.regs, .ctr, .tier]
  | .flashBlockRetire _ =>
    [.ctr, .tier, .log]
  | .flashStateChange _ _ | .writeHeld _ =>
    [.regs, .tier, .log]
  | .ptpMessage _ _ | .firstRoundBoundary | .roundBoundary | .timeSync _ _ _ =>
    [.time, .regs, .ctr, .cores, .boxes, .hbm, .fab, .log, .fw, .pwr]
  | .lossTimeout | .holdoverLimit | .localStart =>
    [.time, .regs, .log]
  | .collection _ =>
    [.outbox, .freeCount, .time, .ctr, .items, .boxes, .fab, .links]
  | .quietWindowStart _ =>
    [.time, .cores]
  | .sliceSchedule =>
    [.time]
  | .sliceEnd _ _ _ _ =>
    [.outbox, .freeCount, .time, .regs, .ctr, .cores, .places, .groups, .pages, .arenaWait, .poolWait, .items,
    .boxes, .mem, .memPoison, .protUnits, .tier, .fab, .links, .log, .fw, .pwr]
  | .sliceOverdue _ _ | .staleCoreRequest _ _ =>
    [.cores, .log]
  | .boxEnable _ _ =>
    [.outbox, .freeCount, .regs, .ctr, .boxes, .held, .fab, .links]
  | .boxDisable _ =>
    [.outbox, .freeCount, .regs, .ctr, .cores, .places, .groups, .pages, .arenaWait, .poolWait, .items, .boxes,
    .mem, .memPoison, .protUnits, .tier, .fab, .links]
  | .boxQuiesce _ =>
    [.outbox, .freeCount, .regs, .ctr, .items, .boxes, .fab, .links]
  | .boxRelease _ =>
    [.regs, .ctr, .cores, .places, .groups, .pages, .mirrors, .items, .boxes, .held, .cb, .log, .sec]
  | .mirrorAck _ =>
    [.outbox, .freeCount, .ctr, .places, .items, .boxes, .fab, .links]
  | .mirrorTimeout _ =>
    [.outbox, .freeCount, .time, .ctr, .places, .items, .boxes, .fab, .links, .log]
  | .adoption _ =>
    [.freeCount, .places, .groups, .pages, .mirrors, .mirrorPages]
  | .mirrorResync _ =>
    [.outbox, .freeCount, .ctr, .places, .pages, .fab, .links]
  | .linkDetect _ _ _ _ _ | .linkNegotiate _ _ | .retrainTimeout _ | .linkDownRetry _ | .recomputeRoutes =>
    [.outbox, .freeCount, .regs, .ctr, .fab, .links]
  | .linkTrainDone _ _ _ _ _ _ | .linkRetrain _ _ | .linkCtrlPacket _ _ | .join _ | .retrain _
  | .linkEnableWrite _ _ =>
    [.outbox, .freeCount, .regs, .ctr, .fab, .links, .log]
  | .fence _ _ =>
    [.pins, .time, .regs, .ctr, .cores, .places, .groups, .pages, .mirrors, .mirrorPages, .arenaWait, .poolWait,
    .items, .nextItem, .gang, .boxes, .mem, .memPoison, .protUnits, .hbm, .dies, .held, .tier, .cb, .fab, .links,
    .host, .log, .fw, .sec, .pwr, .test, .side]
  | .fenceSend _ | .inBandInterrupt | .getpid | .getbcr | .getdcr | .getmxds =>
    [.outbox]
  | .member _ _ | .regRead _ _ | .regWrite _ _ _ | .regBatch _ _ | .componentFault _ _ _ _ | .fwWatchdog _
  | .componentRestart _ _ | .restartOverrun _ | .resetModule | .escalation _ _ _ | .railShort _ | .inputShutdown _
  | .thermalTrip _ _ | .sensorOpen _ | .pwrEnFall | .d2dLinkDown _ _ | .dmi _ _ _ | .systemBusAccess _ _ _
  | .sidebandReadRequest _ | .sidebandWriteRequest _ | .lockWrite _ | .w1cWrite _ _ _ | .registerWrite _ _ _ =>
    [.outbox, .freeCount, .pins, .time, .regs, .ctr, .cores, .places, .groups, .pages, .mirrors, .mirrorPages,
    .arenaWait, .poolWait, .items, .nextItem, .gang, .boxes, .mem, .memPoison, .protUnits, .hbm, .dies, .held,
    .tier, .cb, .fab, .links, .host, .log, .fw, .sec, .pwr, .test, .side]
  | .budget _ _ _ =>
    [.outbox, .regs, .ctr, .fab, .links, .log]
  | .item _ _ _ _ _ | .result _ _ _ _ _ | .bulk _ _ =>
    [.outbox, .freeCount, .regs, .ctr, .cores, .places, .groups, .pages, .mirrors, .mirrorPages, .arenaWait,
    .poolWait, .items, .nextItem, .boxes, .mem, .memPoison, .protUnits, .tier, .fab, .links, .log, .fw, .sec]
  | .msgAck _ _ =>
    [.outbox, .ctr, .fab, .links, .log]
  | .e2eTimeout _ _ _ | .bundleLost _ | .routeChange | .routeTablesInstall _ _ | .routeGo _ =>
    [.outbox, .freeCount, .ctr, .fab, .links]
  | .heartbeatSend =>
    [.outbox, .freeCount, .time, .ctr, .fab, .links]
  | .heartbeatMiss _ =>
    [.outbox, .freeCount, .time, .regs, .ctr, .cores, .places, .groups, .pages, .mirrors, .mirrorPages, .arenaWait,
    .poolWait, .items, .boxes, .mem, .memPoison, .protUnits, .tier, .fab, .links, .log]
  | .isolatedTimeout _ | .declareDead _ _ | .fabCmdDeclareDead _ =>
    [.outbox, .freeCount, .regs, .ctr, .cores, .places, .groups, .pages, .mirrors, .mirrorPages, .arenaWait,
    .poolWait, .items, .boxes, .mem, .memPoison, .protUnits, .tier, .fab, .links, .log]
  | .standbyTakeover =>
    [.outbox, .freeCount, .regs, .ctr, .cores, .places, .groups, .pages, .mirrors, .mirrorPages, .arenaWait,
    .poolWait, .items, .boxes, .mem, .memPoison, .protUnits, .tier, .fab, .links, .host, .log]
  | .routeWaitDiscard _ =>
    [.ctr, .fab]
  | .clearBar _ =>
    [.regs, .fab]
  | .hello _ _ _ | .connect _ _ _ _ _ =>
    [.outbox, .freeCount, .regs, .ctr, .host]
  | .bye _ =>
    [.outbox, .freeCount, .regs, .ctr, .cores, .places, .groups, .pages, .arenaWait, .poolWait, .items, .boxes,
    .mem, .memPoison, .protUnits, .tier, .fab, .links, .host]
  | .keepalive _ | .pbpResume _ _ | .fwStatus _ =>
    [.outbox, .ctr, .host]
  | .submitEmu _ _ _ =>
    [.outbox, .ctr, .boxes, .mem, .memPoison, .protUnits, .tier, .host, .fw]
  | .ringSetup _ _ _ _ _ _ =>
    [.outbox, .ctr, .boxes, .host]
  | .imageBegin _ _ _ =>
    [.outbox, .regs, .ctr, .host, .fw]
  | .imageData _ _ _ =>
    [.outbox, .ctr, .host, .fw]
  | .imageEnd _ _ =>
    [.outbox, .ctr, .host, .log, .fw, .sec]
  | .start _ =>
    [.outbox, .regs, .ctr, .host, .fw, .sec]
  | .map _ _ _ | .unmap _ _ =>
    [.outbox, .freeCount, .ctr, .boxes, .mem, .memPoison, .protUnits, .held, .tier, .fab, .links, .host]
  | .regionAdd _ _ =>
    [.outbox, .freeCount, .regs, .ctr, .boxes, .fab, .links, .host]
  | .regionSet _ _ _ _ =>
    [.outbox, .freeCount, .ctr, .boxes, .fab, .links, .host]
  | .codebook _ _ _ _ =>
    [.outbox, .freeCount, .regs, .ctr, .cb, .fab, .links, .host]
  | .tier _ _ _ _ =>
    [.outbox, .freeCount, .regs, .ctr, .tier, .fab, .links, .host]
  | .keyInstall _ _ =>
    [.outbox, .freeCount, .ctr, .boxes, .protUnits, .fab, .links, .host, .sec]
  | .attest _ _ =>
    [.outbox, .freeCount, .ctr, .fab, .links, .host]
  | .sqTail _ _ _ | .cqHead _ _ | .dlqHead _ _ =>
    [.outbox, .ctr, .boxes, .log]
  | .rdmaWrite _ _ _ _ =>
    [.outbox, .freeCount, .ctr, .boxes, .mem, .memPoison, .protUnits, .tier, .fab, .links, .log]
  | .rdmaRead _ _ _ _ =>
    [.outbox, .freeCount, .ctr, .tier, .log]
  | .cnpReceive _ =>
    [.ctr, .host]
  | .entryPost _ _ =>
    [.outbox, .ctr, .boxes]
  | .entryPosted _ _ =>
    [.items, .boxes]
  | .notice _ _ =>
    [.outbox, .time, .ctr, .boxes]
  | .sessionTimeout _ =>
    [.outbox, .freeCount, .time, .regs, .ctr, .cores, .places, .groups, .pages, .arenaWait, .poolWait, .items,
    .boxes, .mem, .memPoison, .protUnits, .tier, .fab, .links, .host]
  | .hostLinkChange _ _ _ =>
    [.regs, .host, .log]
  | .componentRunning _ =>
    [.outbox, .freeCount, .regs, .ctr, .cores, .places, .groups, .pages, .arenaWait, .poolWait, .items, .boxes,
    .mem, .memPoison, .protUnits, .tier, .fab, .links, .host, .log, .fw]
  | .restartComponent _ =>
    [.regs, .ctr, .tier, .log, .fw]
  | .mailboxSend _ _ _ =>
    [.ctr, .fw]
  | .supervisorTask =>
    [.regs, .ctr, .cores, .log, .fw]
  | .bootSequence =>
    [.freeCount, .regs, .ctr, .cores, .hbm, .dies, .held, .log, .fw, .sec]
  | .fieldRecordWrite =>
    [.sec]
  | .token _ =>
    [.sec, .test]
  | .debugLifetimeExpiry | .secDbgLock =>
    [.regs, .cores, .fw, .sec, .test]
  | .keyCmdInstall _ =>
    [.freeCount, .ctr, .boxes, .protUnits, .sec]
  | .keyCmdClear _ =>
    [.boxes, .sec]
  | .coreFence _ _ | .drainTimeout _ | .controlParityError _ | .dieSupplyReset _ _ =>
    [.outbox, .freeCount, .regs, .ctr, .cores, .places, .groups, .pages, .arenaWait, .poolWait, .items, .boxes,
    .mem, .memPoison, .protUnits, .tier, .fab, .links, .log, .fw, .pwr]
  | .coreSubstitute _ | .coreReturn _ _ =>
    [.regs, .cores, .log]
  | .signatureWrite _ _ _ _ | .recordAccept | .recorderFlush =>
    [.ctr, .log]
  | .dispositionRecord _ =>
    [.outbox, .freeCount, .ctr, .cores, .places, .groups, .pages, .items, .boxes, .mem, .memPoison, .protUnits,
    .tier, .fab, .links]
  | .logCursorWrite _ =>
    [.regs, .ctr, .log]
  | .logOldestRead | .roundNowRead | .sigPmRead | .coreMapWrite _ _ | .acmMapWrite _ _ | .handleSelWrite _ _ =>
    [.regs]
  | .counterLowRead _ =>
    [.ctr]
  | .sigCursorWrite _ =>
    [.regs, .log]
  | .grantRequest _ _ | .queuedGrant | .longDip _ =>
    [.ctr, .pwr]
  | .budgetMove =>
    [.outbox, .freeCount, .regs, .ctr, .fab, .links, .pwr]
  | .railWarning _ _ | .inputWarningExit _ =>
    [.regs, .pwr]
  | .railWarningExit _ _ _ =>
    [.regs, .ctr, .log, .pwr]
  | .dieResetRelease _ _ =>
    [.outbox, .freeCount, .regs, .ctr, .cores, .places, .groups, .pages, .arenaWait, .poolWait, .items, .boxes,
    .mem, .memPoison, .protUnits, .tier, .fab, .links, .log, .pwr]
  | .inputWarning _ =>
    [.regs, .ctr, .cores, .log, .pwr]
  | .reversedPolarity =>
    [.pwr, .side]
  | .thermalFactorFall _ =>
    [.freeCount, .regs, .ctr, .cores, .log, .pwr]
  | .thermalFactorRise _ =>
    [.freeCount, .regs, .log, .pwr]
  | .regulatorStart _ =>
    [.pins, .pwr]
  | .genEn _ _ _ _ | .chkEn _ _ _ _ | .inject _ =>
    [.outbox, .regs, .host, .log, .test]
  | .checkerLock _ _ _ | .checkerLoss _ _ _ _ | .tapReset =>
    [.test]
  | .extest | .samplePreload | .tapScan _ _ =>
    [.outbox, .freeCount, .test]
  | .idcode | .nonce | .dtmcs | .bypass =>
    [.outbox, .test]
  | .lbist _ _ _ | .mbist _ =>
    [.outbox, .freeCount, .cores, .test]
  | .hartHalt _ | .hartResume _ | .triggerMatch _ _ _ =>
    [.cores, .fw, .test]
  | .hartSingleStep _ =>
    [.freeCount, .regs, .ctr, .cores, .places, .groups, .pages, .arenaWait, .poolWait, .items, .boxes, .mem,
    .memPoison, .protUnits, .dies, .tier, .log, .test]
  | .accessRegister _ _ _ =>
    [.freeCount, .cores, .test]
  | .sidebandResultRead | .entdaa _ | .hotJoin =>
    [.outbox, .side]
  | .enec | .disec | .setdasa _ _ | .rstdaa =>
    [.side]
  | .getstatus =>
    [.outbox, .freeCount]
  | .stateWindowWrite _ _ =>
    [.regs, .places]
  | .quietWindowEnd _ =>
    [.time, .ctr, .cores]
  | .inletWarn _ =>
    [.regs, .ctr, .cores, .pwr]
  | .tokenCheckDone =>
    [.freeCount, .regs, .ctr, .boxes, .log, .sec]
  | .formation _ _ _ _ =>
    [.outbox, .freeCount, .regs, .ctr, .fab, .links, .side]
  | .escArmedExpiry _ =>
    [.fw]

/-! ### The canonical form of memory -/

/-- Addresses strictly rise and no entry holds what an unlisted address reads as (0, log 3). -/
def Memory.wf (m : List Host.Cell) : Bool := cellsWf 0 none m

/-! ### The invariant -/

/-- A clerk has its 31 registers x1 to x31 and its 8 tile descriptor registers (R60, R61). -/
def Clerk.Shape (q : Clerk) : Prop := q.x.length = 31 ∧ q.td.length = 8

/-- A core has four clerks, eight logical pigeonholes and four courier queues (R38, R49, R52, R59). -/
def Core.Shape (k : Core) : Prop :=
  k.clerks.length = 4 ∧ (∀ q ∈ k.clerks, q.Shape) ∧ k.phState.length = 8 ∧ k.courQ.length = 4

/-- The module has its 68 cores, 64 boxes, 24 links, 12 stacks, 4 dies and their rails, 64 codebook slots and the
components 0 to 5. -/
def State.Shape (s : State) : Prop :=
  s.cores.length = 68 ∧ (∀ k ∈ s.cores, k.Shape) ∧ s.boxes.length = 64 ∧ s.links.length = 24 ∧ s.hbm.length = 12 ∧
  s.dies.length = 4 ∧ s.pwr.rails.length = 4 ∧ s.cb.slots.length = 64 ∧ s.fw.comps.length = 6

/-- What every run keeps: memory and flash are in canonical form, and no unit is lost or gained. -/
def State.Inv (s : State) : Prop := Memory.wf s.mem = true ∧ Memory.wf s.tier.flash = true ∧ s.Shape

/-! ### Frames within a part -/

/-- Counter `n` of a page after `k` more events: it saturates, and stands still while the page is frozen (R397, R436). -/
def State.counted (s : State) (p : Pg) (i n k : Nat) : W64 :=
  if s.frozen p i then s.live p i n else satAdd (s.live p i n) k

/-- Every counter but those listed by key reads as before. -/
def OtherCounters (ks : List Nat) (s t : State) : Prop := ∀ a, a ∉ ks → cellGet 0 t.ctr.live a = cellGet 0 s.ctr.live a

/-- Every register but those listed by address reads as before. -/
def OtherRegs (as : List Nat) (s t : State) : Prop := ∀ a, a ∉ as → t.reg a = s.reg a

def OtherCores (c : Nat) (s t : State) : Prop := ∀ d, d ≠ c → t.core d = s.core d
def OtherBoxes (b : Nat) (s t : State) : Prop := ∀ d, d ≠ b → t.box d = s.box d
def OtherLinks (n : Nat) (s t : State) : Prop := ∀ d, d ≠ n → t.link d = s.link d
def OtherDies (n : Nat) (s t : State) : Prop := ∀ d, d ≠ n → t.die d = s.die d
def OtherStacks (n : Nat) (s t : State) : Prop := ∀ d, d ≠ n → t.stack d = s.stack d
def OtherSlots (n : Nat) (s t : State) : Prop := ∀ d, d ≠ n → t.slot d = s.slot d
def OtherComps (n : Nat) (s t : State) : Prop := ∀ d, d ≠ n → t.comp d = s.comp d
def OtherRails (n : Nat) (s t : State) : Prop := ∀ d, d ≠ n → t.rail d = s.rail d
def OtherItems (id : Nat) (s t : State) : Prop := ∀ j, j ≠ id → t.item? j = s.item? j
def OtherPlaces (n : Nat) (s t : State) : Prop := ∀ m, m ≠ n → t.place? m = s.place? m

/-- INT_STAT of a page with the bits of a mask set. -/
def IntRaised (p : Pg) (i mask : Nat) (s t : State) : Prop :=
  t.reg (regAddr p i Reg.intStat) = s.reg (regAddr p i Reg.intStat) ||| BitVec.ofNat 32 mask

/-- One record more is delivered to the recorder. -/
def Recorded (r : Record) (s t : State) : Prop := t.log = { s.log with queue := s.log.queue ++ [r] }

/-- Item `i` of one kind may take effect now (R16): it runs here, has not taken effect, has no disposition, no item before
it holds it, and no group that it names has been released. -/
def State.mayAct (s : State) (id kind : Nat) (i : Item) : Prop :=
  s.item? id = some i ∧ i.kind = kind ∧ i.took = false ∧ i.pos = s.pos ∧ s.ready i = true ∧ i.gone = false

/-- Only one clerk of one core is touched: the other cores, the core's other clerks and the rest of the core stand. -/
def OtherClerks (c n : Nat) (s t : State) : Prop :=
  OtherCores c s t ∧ (∀ m, m ≠ n → t.clerk c m = s.clerk c m) ∧ { t.core c with clerks := [] } = { s.core c with clerks := [] }

/-- No operation waits in the core's queues to the MXE, the drain and the couriers. -/
def Core.unitsIdle (k : Core) : Prop := k.mxeQ = [] ∧ k.drainQ = [] ∧ ∀ q, q < 4 → k.courQ.getD q [] = []

/-- One command more of a clerk is counted in INSTRET, and no other counter moves. -/
def Retired (c n : Nat) (s t : State) : Prop :=
  t.live .clerk c n = s.counted .clerk c n 1 ∧ OtherCounters [ctrKey .clerk c n] s t

/-- The operation at the head of courier `q` is all that waits in the core's queues. -/
def Core.onlyIn (k : Core) (q : Nat) : Prop :=
  k.mxeQ = [] ∧ k.drainQ = [] ∧ (∀ j, j < 4 → j ≠ q → k.courQ.getD j [] = []) ∧ q < 4 ∧ (k.courQ.getD q []).length = 1

/-- A packet that its link takes (R281 to R284, R290): the link is UP, CRC and END are right, the length is one the link's
version allows, LSEQ is the one expected, and the epoch is accepted. -/
def State.goodPacket (s : State) (h : PktHdr) : Prop :=
  h.port < 24 ∧ (s.link h.port).st = .up ∧ h.crcOk = true ∧ h.endByte = 0x5A ∧ h.lseq = (s.link h.port).expectLseq ∧
    h.payloadLen ≤ (if (s.link h.port).version = 1 then 16 else 32) ∧ s.epochOk h = true

/-- A flooded packet that this module takes and has not had before (R282). -/
def State.freshFlood (s : State) (h : PktHdr) : Prop :=
  s.goodPacket h ∧ h.src ≠ s.pos ∧ (h.src, h.seq) ∉ s.fab.flood

/-- A message to this module that comes in its turn, with none held behind it (R287). -/
def State.inTurn (s : State) (h : PktHdr) (cls : Nat) : Prop :=
  s.goodPacket h ∧ h.dest = s.pos ∧ h.seq < 2 ^ 32 ∧ (s.inboundOf h.src cls).next = h.seq ∧
    (s.inboundOf h.src cls).held = []

/-- A PBP request that an open session may make now and has not made before (R317 to R320): its header is good, the module
takes PBP messages and is no worker, the session's version has the type, its SEQ has no answer yet, and no command of it
waits. -/
def State.serves (s : State) (h : PbpHdr) (since : Nat) : Prop :=
  h.relayed = false ∧ s.fw.booted = true ∧ hdrBad h = false ∧ s.pbpUp = true ∧ s.isWorker = false ∧
    s.host.cbReply ≠ some (h.session, h.seq) ∧ s.host.tierReply ≠ some (h.session, h.seq) ∧
    ∃ k, s.session? h.session = some k ∧ since ≤ k.version ∧ k.answered h.seq = false ∧
      k.store.find? (fun r => r.1 == h.seq) = none

/-- The request is for this module, whose firmware runs (R323, R334). -/
def State.servesHere (s : State) (h : PbpHdr) (since : Nat) : Prop :=
  s.serves h since ∧ s.fw.st = .running ∧ h.targetPos = s.pos

/-- The state in which such a request is performed: the message is counted and its session has been heard (R320, R327). -/
def State.heard (s : State) (h : PbpHdr) : State :=
  (((s.bump .hostif 0 0 1).bump .hostif 0 5 1).bump .hostif 0 7 (b2n h.resent)).modSession h.session
    (fun k => { k with lastHeard := s.time.t })

/-- The last thing sent is the answer to a request: its status and payload. -/
def Answered (h : PbpHdr) (st : Nat) (payload : List Byte) (t : State) : Prop :=
  t.outbox.head? = some (Out.pbp h.session h.seq st payload)

/-- The module has been reset with a cause on the power page (R345, R443): firmware, registers, cores, items and HBM are as
after reset; flash and the field record stand; and the mirror's newest record is RECORDER_FLUSH. -/
def ResetWithCause (cause : Nat) (s t : State) : Prop :=
  t.fw = State.reset.fw ∧ t.regs = State.reset.regs ∧ t.cores = State.reset.cores ∧ t.items = [] ∧ t.mem = [] ∧
    t.tier.flash = s.tier.flash ∧ t.sec.field = s.sec.field ∧ t.pwr.cause = cause ∧ t.pwr.regulators = true ∧
    t.log.hasMirror = true ∧
    (s.log.mirrorNext ≤ s.log.next → ∃ r, t.log.mirror.head? = some r ∧ r.code = 0x0003)

end Sys2Proof.Machine
end

