-- ==== Sys2Proof/Certificates/Slice0/Obligations.lean ====
section
/-! DEFINITION. The statements: what each family of commands does, what it leaves, and what every step keeps. -/

open Sys2Proof Sys2Proof.Machine

/-- One command a step, first in first out: the step runs exec of the command in front, and what waits behind it waits after
it in the same order; an empty queue leaves the state as it is (the model's queue, log 2). -/
def Obligations.StepRunsFrontCommand : Prop :=
  (∀ (c : Instr) (rest : List Instr) (s : State), s.pending = c :: rest → step s = exec c { s with pending := rest } ∧
    ∃ t, step s = .next t ∧ t.pending = rest) ∧
  (∀ s : State, s.pending = [] → step s = .next s)

/-- The machine after reset: no command waits, nothing sent; memory lists nothing and is canonical; every unit stands.
Every core is in RESET (R69), every box DISABLED (R273), the time unit UNSYNC (R252), every link in DETECT (R280), every
clerk IDLE (R74), debug closed (R427), and the recorder's next postmark is 0 (R390).
What goes beyond the rules is the model's: log 4, reset is the module powered on with nothing placed, before its boot
sequence (DESIGN CHOICE). -/
def Obligations.ResetKeepsShape : Prop :=
  State.reset.Inv ∧ State.reset.pending = [] ∧ State.reset.mem = [] ∧ State.reset.outbox = [] ∧
    (∀ c, c < 68 → (State.reset.core c).state = .reset ∧ ∀ n, n < 4 → (State.reset.clerk c n).state = .idle) ∧
    (∀ b, b < 64 → (State.reset.box b).state = .disabled) ∧ (∀ n, n < 24 → (State.reset.link n).st = .detect) ∧
    State.reset.time.st = .unsync ∧ State.reset.sec.scope = 0 ∧ State.reset.log.next = 0

/-- Every step, from any state that meets the invariant, keeps it: memory and flash stay in canonical form and no core,
clerk, clerk register, pigeonhole, courier queue, box, link, stack, die, rail, codebook slot or component is gained or
lost, whichever command stands in front and whatever its operands.
What goes beyond the rules is the model's: log 3, a byte of memory that nothing has written reads 0 (DESIGN CHOICE). -/
def Obligations.StepKeepsInvariant : Prop :=
  ∀ s t : State, s.Inv → step s = .next t → t.Inv

/-- Every command, on every operand and from every state, is carried out: it answers a next state, and changes only the
parts of the state that `touches` lists for it. -/
def Obligations.EveryCommandCompletesWithinItsFrame : Prop :=
  ∀ (c : Instr) (s : State), ∃ t, exec c s = .next t ∧ Frame (touches c) s t

/-- The time unit (R252, R253): loss of messages while LOCKED gives HOLDOVER once the wait has passed, HOLDOVER ends in
FREERUN at its limit, and LOCAL_START takes the unit out of UNSYNC with t = 0; each change is recorded as event 0x0004 with
the old and the new state. A PTP message, for an offset o of the master's time from t: an unusable one ends the row of good
intervals and changes nothing else; the first usable one in UNSYNC sets t; one within SLEW_LIMIT is slewed; before rounds
begin a larger one is stepped in either direction, and recorded; afterwards a larger forward one that stays in the round is
stepped, and a larger backward one is held.
What goes beyond the rules is the model's: log 5, time moves only with the commands that stand for timed events
(DESIGN CHOICE); log 32, the time unit (DEDUCED). -/
def Obligations.TimeIsSetSteppedSlewedAndLost : Prop :=
  (∀ s : State, s.time.st = .locked → ∃ t, exec .lossTimeout s = .next t ∧
    (let w := s.time.t + 100000000 * max 1 (s.field .time 0 Reg.time_timeCtrl 23 16)
     t.time = { s.time with t := w, good := 0, st := .holdover, stAt := w }) ∧
    Recorded { pageRec .time 0 0x0004 .warning with a := 1, b := 2 } s t ∧
    IntRaised .time 0 0x100 s t ∧ OtherRegs [regAddr .time 0 Reg.intStat] s t) ∧
  (∀ s : State, s.time.st = .holdover → ∃ t, exec .holdoverLimit s = .next t ∧
    (let w := max s.time.t (s.time.stAt + 1000000000 * max 1 (s.field .time 0 Reg.time_timeCtrl 15 0))
     t.time = { s.time with t := w, st := .freerun, stAt := w }) ∧
    Recorded { pageRec .time 0 0x0004 .warning with a := 2, b := 3 } s t ∧
    IntRaised .time 0 0x100 s t ∧ OtherRegs [regAddr .time 0 Reg.intStat] s t) ∧
  (∀ s : State, s.time.st = .unsync → ∃ t, exec .localStart s = .next t ∧
    t.time = { s.time with t := 0, good := 0, st := .freerun, stAt := 0 } ∧
    Recorded { pageRec .time 0 0x0004 .warning with a := 0, b := 3 } s t ∧
    IntRaised .time 0 0x100 s t ∧ OtherRegs [regAddr .time 0 Reg.intStat] s t) ∧
  (∀ (s : State) (m : Nat), exec (.ptpMessage m false) s = .next { s with time := { s.time with good := 0 } }) ∧
  (∀ (s : State) (m : Nat), s.time.st = .unsync → s.time.heard = false → ∃ t, exec (.ptpMessage m true) s = .next t ∧
    t.time = { s.time with t := m, heard := true, good := 0, offset := 0 } ∧ t.log = s.log ∧ t.ctr = s.ctr) ∧
  (∀ (s : State) (m : Nat) (o : Int), o = (m : Int) - s.time.t → (s.time.st = .unsync → s.time.heard = true) →
    (o.natAbs ≤ s.slewLimit → ∃ t, exec (.ptpMessage m true) s = .next t ∧ t.time.t = m ∧ t.time.slew = o ∧
      t.time.offset = -o ∧ t.time.backwardHeld = false ∧ t.live .time 0 4 = s.counted .time 0 4 o.natAbs ∧
      OtherCounters [ctrKey .time 0 4] s t) ∧
    (s.slewLimit < o.natAbs → s.time.rounds = false → ∃ t, exec (.ptpMessage m true) s = .next t ∧
      t.time = { s.time with t := m, good := 0, offset := -o } ∧ t.live .time 0 3 = s.counted .time 0 3 1 ∧
      OtherCounters [ctrKey .time 0 3] s t ∧
      Recorded { pageRec .time 0 0x0005 .warning with a := uNat 64 o } s t) ∧
    (s.slewLimit < o.natAbs → s.time.rounds = true → 0 < o → (m - s.roundEpoch) / s.roundLen ≤ s.time.round →
      ∃ t, exec (.ptpMessage m true) s = .next t ∧
      t.time = { s.time with t := m, good := 0, slew := 0, offset := -o } ∧ t.live .time 0 3 = s.counted .time 0 3 1 ∧
      OtherCounters [ctrKey .time 0 3] s t ∧
      Recorded { pageRec .time 0 0x0005 .warning with a := uNat 64 o } s t) ∧
    (s.slewLimit < o.natAbs → s.time.rounds = true → o < 0 → ∃ t, exec (.ptpMessage m true) s = .next t ∧
      t.time = { s.time with good := 0, slew := o, backwardHeld := true, offset := -o } ∧ t.ctr = s.ctr ∧ t.log = s.log ∧
      IntRaised .time 0 0x100 s t))

/-- Round boundaries and the declarations of a round (R251, R254, R255, R256): a boundary begins the next round at its
place in time, the first one ends UNSYNC's absence of rounds, and a quiet window opens and closes at its phases.
What goes beyond the rules is the model's: log 5, time moves only with the commands that stand for timed events
(DESIGN CHOICE); log 32, the time unit (DEDUCED). -/
def Obligations.RoundsBeginAndQuietWindowsOpenAndClose : Prop :=
  (∀ s : State, s.time.rounds = true → ∃ t, exec .roundBoundary s = .next t ∧ t.time.rounds = true ∧
    t.time.round = s.time.round + 1 ∧ t.time.t = s.roundEpoch + (s.time.round + 1) * s.roundLen ∧
    t.time.window = none ∧ t.time.st = s.time.st ∧ t.time.collWritten = [] ∧ t.time.quietWritten = false) ∧
  (∀ s : State, s.time.rounds = false → s.time.st ≠ .unsync → ∃ t, exec .firstRoundBoundary s = .next t ∧
    t.time.rounds = true ∧ s.time.t ≤ t.time.t ∧ t.time.t = s.roundEpoch + t.time.round * s.roundLen ∧
    (s.time.t ≤ s.roundEpoch → t.time.round = 0)) ∧
  (∀ (s : State) (n ph : Nat), s.time.collections.getD n none = some ph → s.time.rounds = true →
    ∃ t, exec (.collection n) s = .next t ∧
      t.time = { s.time with t := max s.time.t (s.roundEpoch + s.time.round * s.roundLen + ph) } ∧
      ∀ i ∈ t.items, i.heldCollection = false) ∧
  (∀ (s : State) (n a b : Nat), s.time.quiet.getD n none = some (a, b) → s.time.rounds = true →
    ∃ t, exec (.quietWindowStart n) s = .next t ∧
      t.time = { s.time with t := max s.time.t (s.roundEpoch + s.time.round * s.roundLen + a), window := some n } ∧
      (∀ c, s.time.sliceCore = some c → c < s.cores.length → (t.core c).quietHold = true ∧
        ((s.core c).state = .running → (t.core c).state = .draining) ∧
        ((s.core c).state = .idle → (t.core c).state = .drained) ∧ OtherCores c s t)) ∧
  (∀ (s : State) (n a b : Nat), s.time.quiet.getD n none = some (a, b) → s.time.window = some n →
    ∃ t, exec (.quietWindowEnd n) s = .next t ∧
      t.time = { s.time with t := max s.time.t (s.roundEpoch + s.time.round * s.roundLen + b), window := none } ∧
      t.live .time 0 5 = s.counted .time 0 5 (b - a) ∧ OtherCounters [ctrKey .time 0 5] s t ∧
      (∀ c, (s.core c).quietHold = true → (s.core c).slice = none → (t.core c).quietHold = false) ∧
      (∀ c, (s.core c).quietHold = false → t.core c = s.core c))

/-- Self-test slices (R256, R377, R378): one core is chosen every 10 s, its slice starts in a quiet window with at least
2 ms left and its grant held, and a pass puts the core back, clears its exposure and goes on to the next pattern set.
What goes beyond the rules is the model's: log 5, time moves only with the commands that stand for timed events
(DESIGN CHOICE); log 45, test and sideband values that the spec does not give (DESIGN CHOICE). -/
def Obligations.SelfTestSlicesRunTheirCourse : Prop :=
  (∀ s : State, s.time.sliceCore = none → (∀ c, c < 68 → (s.core c).overdue < 30) →
    (s.core (s.time.nextSlice % 68)).state ≠ .fenced → (s.core (s.time.nextSlice % 68)).state ≠ .reset →
    exec .sliceSchedule s = .next { s with time := { s.time with
      t := 10000000000 + s.time.t, sliceCore := some (s.time.nextSlice % 68)
      nextSlice := (s.time.nextSlice % 68 + 1) % 68 } }) ∧
  (∀ (s : State) (c w a b : Nat), c < 68 → c < s.cores.length → (s.core c).state = .drained → (s.core c).slice = none →
    s.time.window = some w → s.time.quiet.getD w none = some (a, b) → 2000000 + s.phase ≤ b →
    (∃ g ∈ s.pwr.grants, g.core = c ∧ g.slice = true) → ∃ t, exec (.sliceStart c) s = .next t ∧
      t.core c = { s.core c with
        state := .selftest, slice := some { patternSet := (s.core c).nextPattern, start := s.time.t }, corner := 1 } ∧
      OtherCores c s t ∧ IntRaised .ctl c 0x100 s t ∧ OtherRegs [regAddr .ctl c Reg.intStat] s t) ∧
  (∀ (s : State) (c : Nat) (x : W64), c < 68 → c < s.cores.length → (s.core c).state = .selftest → (s.core c).slice.isSome →
    ∃ t, exec (.sliceEnd c x true false) s = .next t ∧ OtherCores c s t ∧
      (t.core c).slice = none ∧ (t.core c).lastPass = some s.roundNow ∧ (t.core c).exposure = [] ∧
      (t.core c).overdue = 0 ∧ (t.core c).nextPattern = ((s.core c).nextPattern + 1) % 16 ∧
      ((t.core c).state = .idle ∨ (t.core c).state = .drained) ∧
      (s.time.sliceCore = some c → t.time.sliceCore = none)) ∧
  (∀ (s : State) (c m : Nat), c < 68 → c < s.cores.length → ((m = 30 ∧ (s.core c).overdue < 30) ∨ (m = 60 ∧ (s.core c).overdue < 60)) →
    ∃ t, exec (.sliceOverdue c m) s = .next t ∧
      t.core c = { s.core c with overdue := m, hold := (s.core c).hold || decide (m = 60) } ∧ OtherCores c s t ∧
      Recorded { pageRec .ctl c 0x0104 .warning with a := m } s t)

/-- Stamps (R46, R47, R403, R405): a core asks for the difference to what it holds; where nothing waits and it fits, it is
granted at once, else it joins the queue; the oldest queued request is granted once it fits, and never before. Grants are
marked, latest first and never a slice's, until the grants that stand fit EFFECTIVE; nothing else of a grant changes, and
each core that lost one ramps down unless it is OFF. The MXE's ramp goes up group by group with its grant held, FULL at 8 lane
groups; it goes down while no MXMUL waits or where it was told to; an idle ramp-down reverses for an MXMUL; and at OFF the
core's stamps go back.
A command whose condition does not hold leaves the state as it is (the model's choice, log 2). -/
def Obligations.StampsAreGrantedRevokedAndRamped : Prop :=
  (∀ (s : State) (c m n : Nat), c < 68 → m < 4 → (s.core c).state ≠ .fenced → (s.core c).state ≠ .reset →
    n = s.cost m - s.pwr.heldBy c →
    (n = 0 → exec (.grantRequest c m) s = .next s) ∧
    (0 < n → s.pwr.queue = [] → s.base + s.pwr.granted + n ≤ s.pwr.effective →
      ∃ t, exec (.grantRequest c m) s = .next t ∧
        t.pwr = { s.pwr with grants := { core := c, stamps := n, slice := decide (m = 3) } :: s.pwr.grants } ∧
        t.live .frank 0 0 = s.counted .frank 0 0 1 ∧ OtherCounters [ctrKey .frank 0 0, ctrKey .frank 0 4] s t) ∧
    (0 < n → (∀ g ∈ s.pwr.queue, g.core ≠ c) →
      (s.pwr.queue ≠ [] ∨ s.pwr.effective < s.base + s.pwr.granted + n) →
      ∃ t, exec (.grantRequest c m) s = .next t ∧
        t.pwr = { s.pwr with queue := s.pwr.queue ++ [{ core := c, stamps := n, slice := decide (m = 3) }] } ∧
        t.live .frank 0 1 = s.counted .frank 0 1 1 ∧ OtherCounters [ctrKey .frank 0 1] s t)) ∧
  (∀ (s : State) (g : Grant) (q : List Grant), s.pwr.queue = g :: q →
    (s.base + s.pwr.granted + g.stamps ≤ s.pwr.effective → ∃ t, exec .queuedGrant s = .next t ∧
      t.pwr = { s.pwr with grants := g :: s.pwr.grants, queue := q } ∧
      t.live .frank 0 0 = s.counted .frank 0 0 1 ∧ OtherCounters [ctrKey .frank 0 0, ctrKey .frank 0 4] s t) ∧
    (s.pwr.effective < s.base + s.pwr.granted + g.stamps → exec .queuedGrant s = .next s)) ∧
  (∀ s : State, ∃ t, exec .grantRevoke s = .next t ∧
     (s.base + t.pwr.standing ≤ t.pwr.effective ∨ ∀ g ∈ t.pwr.grants, g.slice = true ∨ g.revoked = true) ∧
     t.pwr.grants.map (fun g => (g.core, g.stamps, g.slice)) = s.pwr.grants.map (fun g => (g.core, g.stamps, g.slice)) ∧
     t.pwr = { s.pwr with grants := t.pwr.grants } ∧
     (∀ g ∈ s.pwr.grants, g.slice = true → g ∈ t.pwr.grants) ∧
     (s.base + s.pwr.standing ≤ s.pwr.effective → t.pwr = s.pwr ∧ t.cores = s.cores) ∧
     (∀ c, (t.core c).ramp = (s.core c).ramp ∨ (t.core c).ramp = .down ∧ (t.core c).rampForced = true) ∧
     OtherCounters [ctrKey .frank 0 3] s t) ∧
  (∀ (s : State) (c n : Nat), c < 68 → c < s.cores.length → (s.core c).groups < n → n ≤ 8 →
    ((s.core c).ramp = .off ∨ (s.core c).ramp = .up) → 0 < s.pwr.heldBy c →
    ((s.core c).state = .running ∨ (s.core c).state = .draining) → ∃ t, exec (.mxeRampUp c n) s = .next t ∧
      t.core c = { s.core c with ramp := if n = 8 then .full else .up, groups := n } ∧ OtherCores c s t ∧
      t.live .mxe c 5 = (if (s.core c).ramp = .off then s.counted .mxe c 5 1 else s.live .mxe c 5) ∧
      OtherCounters [ctrKey .mxe c 5] s t) ∧
  (∀ (s : State) (c n : Nat), c < 68 → c < s.cores.length → n < (s.core c).groups →
    ((s.core c).ramp = .down ∨ ((s.core c).ramp = .full ∧ ∀ o ∈ (s.core c).mxeQ, o.isMul = false)) →
    ∃ t, exec (.mxeRampDown c n) s = .next t ∧ t.core c = { s.core c with ramp := .down, groups := n } ∧
      OtherCores c s t) ∧
  (∀ (s : State) (c : Nat), c < 68 → c < s.cores.length → (s.core c).ramp = .down → (s.core c).rampForced = false →
    (∃ o ∈ (s.core c).mxeQ, o.isMul = true) → ∃ t, exec (.mxeRampReverse c) s = .next t ∧
      t.core c = { s.core c with ramp := if (s.core c).groups = 8 then .full else .up } ∧ OtherCores c s t) ∧
  (∀ (s : State) (c : Nat), c < 68 → c < s.cores.length → (s.core c).ramp = .down → (s.core c).groups = 0 →
    ∃ t, exec (.mxeRampOff c) s = .next t ∧
      t.core c = { s.core c with ramp := .off, rampForced := false } ∧ OtherCores c s t ∧
      t.pwr.grants = s.pwr.grants.filter (fun g => g.core != c) ∧ t.pwr.heldBy c = 0 ∧
      ((∀ g ∈ s.pwr.grants, g.core = c → g.revoked = false) → t.pwr.queue = s.pwr.queue) ∧
      ((∃ g ∈ s.pwr.grants, g.core = c ∧ g.revoked = true) → (s.core c).run.isSome →
        t.pwr.queue = s.pwr.queue ++ [{ core := c, stamps := s.pwr.heldBy c }]))

/-- Core rails (R407 to R410): a warning, its end, a long dip that cuts the next round, a supply reset that holds the die's
cores under their next incarnation, its release, and a short. -/
def Obligations.CoreRailsWarnDipAndReset : Prop :=
  (∀ (s : State) (d mv : Nat), d < 4 → d < s.pwr.rails.length → (s.rail d).st = .ok → ∃ t, exec (.railWarning d mv) s = .next t ∧
    t.rail d = { s.rail d with st := .warning, now := mv, lowest := mv } ∧ OtherRails d s t ∧
    IntRaised .supply 0 0x100 s t ∧ OtherRegs [regAddr .supply 0 Reg.intStat] s t) ∧
  (∀ (s : State) (d mv ns : Nat), d < 4 → d < s.pwr.rails.length → (s.rail d).st = .warning →
    ∃ t, exec (.railWarningExit d mv ns) s = .next t ∧
    t.rail d = { s.rail d with st := .ok, lowest := mv, long := false } ∧ OtherRails d s t ∧
    t.live .supply 0 0 = s.counted .supply 0 0 1 ∧ t.live .supply 0 1 = s.counted .supply 0 1 ns ∧
    OtherCounters [ctrKey .supply 0 0, ctrKey .supply 0 1] s t ∧
    Recorded { pageRec .supply 0 0x0B00 .warning with a := d, b := mv, c := ns } s t) ∧
  (∀ (s : State) (d : Nat), d < 4 → d < s.pwr.rails.length → (s.rail d).st = .warning → (s.rail d).long = false →
    ∃ t, exec (.longDip d) s = .next t ∧ t.pwr.dipNext = true ∧ t.rail d = { s.rail d with long := true } ∧
    OtherRails d s t ∧ t.live .supply 0 2 = s.counted .supply 0 2 1 ∧ OtherCounters [ctrKey .supply 0 2] s t) ∧
  (∀ (s : State) (d mv : Nat), d < 4 → s.Shape → ((s.rail d).st = .ok ∨ (s.rail d).st = .warning) →
    ∃ t, exec (.dieSupplyReset d mv) s = .next t ∧ ((t.rail d).st = .reset ∨ (t.rail d).st = .held) ∧
    (t.rail d).lowest = mv ∧ OtherRails d s t ∧
    (∀ c, c < 68 → coreDie c = d → (s.core c).state ≠ .fenced → (t.core c).state = .reset ∧
      (t.core c).incarnation = ((s.core c).incarnation + 1) % 65536) ∧
    (∀ c, c < 68 → coreDie c ≠ d → (t.core c).incarnation = (s.core c).incarnation)) ∧
  (∀ (s : State) (d : Nat), d < 4 → s.Shape → (s.rail d).st = .reset →
    ∃ t, exec (.dieResetRelease d 0x1FFFF) s = .next t ∧ (t.rail d).st = .ok ∧ OtherRails d s t ∧
    ∀ c, c < 68 → coreDie c = d → (s.core c).state = .reset →
      ((t.core c).state = .idle ∨ (t.core c).state = .drained) ∧ (t.core c).lastPass = some s.roundNow) ∧
  (∀ (s : State) (r : Nat), r < 4 → s.Shape → (s.rail r).st ≠ .short → ∃ t, exec (.railShort r) s = .next t ∧
    (t.rail r).st = .short ∧ OtherRails r s t ∧
    ∀ c, c < 68 → coreDie c = r → (s.core c).state ≠ .fenced → (t.core c).state = .reset)

/-- The 48 V input and the regulators (R411, R458): below 40 V a warning caps the budget, above 41 V it ends; outside 36 to
62 V, and when PWR_EN falls, the module flushes and its regulators stop with the cause that HUB_RESET_CAUSE gives;
a reversed input blocks it; and with the input and PWR_EN good the regulators start and the straps are read. -/
def Obligations.InputWarnsStopsAndStarts : Prop :=
  (∀ (s : State) (mv : Nat), mv < 40000 → s.pwr.inputWarning = false → s.pwr.regulators = true →
    ∃ t, exec (.inputWarning mv) s = .next t ∧ t.pwr.inputWarning = true ∧ t.pwr.inputMv = mv ∧ t.pwr.effective ≤ 4800 ∧
    t.live .supply 0 5 = s.counted .supply 0 5 1 ∧ IntRaised .supply 0 0x100 s t ∧
    Recorded { pageRec .supply 0 0x0B02 .warning with b := mv } s t) ∧
  (∀ (s : State) (mv : Nat), 41000 < mv → s.pwr.inputWarning = true → ∃ t, exec (.inputWarningExit mv) s = .next t ∧
    t.pwr = { s.pwr with inputWarning := false, inputMv := mv } ∧ IntRaised .supply 0 0x100 s t ∧
    OtherRegs [regAddr .supply 0 Reg.intStat] s t) ∧
  (∀ (s : State) (mv : Nat), (mv < 36000 ∨ 62000 < mv) → s.pwr.regulators = true →
    ∃ t, exec (.inputShutdown mv) s = .next t ∧ t.pwr.regulators = false ∧ t.pwr.cause = 1 ∧ t.pwr.inputMv = mv ∧
      t.tier.flash = s.tier.flash ∧ t.sec.field = s.sec.field ∧ t.cores = State.reset.cores ∧ t.mem = []) ∧
  (∀ s : State, s.pwr.regulators = true → ∃ t, exec .pwrEnFall s = .next t ∧ t.pins.pwrEn = false ∧
    t.pwr.regulators = false ∧ t.pwr.cause = 1 ∧ t.tier.flash = s.tier.flash ∧ t.cores = State.reset.cores ∧ t.mem = []) ∧
  (∀ (s : State) (n : Nat), 4 ≤ n → ∃ t, exec (.railShort n) s = .next t ∧ t.pwr.regulators = false ∧ t.pwr.cause = 1 ∧
    t.tier.flash = s.tier.flash ∧ t.cores = State.reset.cores) ∧
  (∀ s : State, exec .reversedPolarity s = .next { s with
    pwr := { s.pwr with reversedInput := true, regulators := false }
    side := { s.side with addr := none, events := false, result := none } }) ∧
  (∀ (s : State) (mv : Nat), 40000 ≤ mv → mv ≤ 60000 → s.pins.pwrEn = true → s.pwr.regulators = false →
    exec (.regulatorStart mv) s = .next { s with
      pwr := { s.pwr with regulators := true, reversedInput := false, inputMv := mv, overvoltage := false }
      pins := { s.pins with strapMgr := s.pins.mgrSel, strapPos := s.pins.posId.toNat } })

/-- Thermal limits and die-to-die links (R412, R413, R444): the factor falls by 0.1 to no less than 0.5 at THROTTLE and
rises by 0.1 at 3 K below; TRIP, and a die all of whose sensors are open, stop the module with cause 2; the inlet's warning
caps the factor; and a pair of die-to-die links DOWN resets the module with cause 7. -/
def Obligations.ThermalLimitsAndDieLinksAct : Prop :=
  (∀ (s : State) (x : Nat), s.throttle ≤ x → ∃ t, exec (.thermalFactorFall x) s = .next t ∧
    t.pwr.factor = max 5 (s.pwr.factor - 1) ∧ t.pwr.throttling = true ∧ t.pwr.hottest = x ∧
    t.pwr.effective ≤ t.pwr.budget * t.pwr.factorPct / 100 ∧ IntRaised .supply 0 0x100 s t) ∧
  (∀ (s : State) (x : Nat), x + 3 ≤ s.throttle → s.hotStack = false → s.pwr.factor < 10 →
    ∃ t, exec (.thermalFactorRise x) s = .next t ∧
    t.pwr = { s.pwr with factor := s.pwr.factor + 1, hottest := x, throttling := decide (s.pwr.factor + 1 < 10) } ∧
    IntRaised .supply 0 0x100 s t) ∧
  (∀ (s : State) (n x : Nat), n < 42 → (s.trip ≤ x ∨ (38 ≤ n ∧ 125 ≤ x)) → ∃ t, exec (.thermalTrip n x) s = .next t ∧
    t.pwr.regulators = false ∧ t.pwr.cause = 2 ∧ t.tier.flash = s.tier.flash ∧ t.cores = State.reset.cores) ∧
  (∀ (s : State) (n : Nat), n < 42 → n ∉ s.pwr.openSensors →
    ¬ (n < 32 ∧ ∀ i, i < 8 → 8 * (n / 8) + i = n ∨ 8 * (n / 8) + i ∈ s.pwr.openSensors) →
    ∃ t, exec (.sensorOpen n) s = .next t ∧ (∀ m, m ∈ t.pwr.openSensors ↔ m = n ∨ m ∈ s.pwr.openSensors) ∧
    4 * t.pwr.effective ≤ 3 * t.pwr.budget ∧ Recorded { pageRec .supply 0 0x0B08 .error with a := n } s t) ∧
  (∀ (s : State) (n : Nat), n < 32 → n ∉ s.pwr.openSensors →
    (∀ i, i < 8 → 8 * (n / 8) + i = n ∨ 8 * (n / 8) + i ∈ s.pwr.openSensors) →
    ∃ t, exec (.sensorOpen n) s = .next t ∧ t.pwr.regulators = false ∧ t.pwr.cause = 2) ∧
  (∀ (s : State) (x : Nat), ∃ t, exec (.inletWarn x) s = .next t ∧ t.pwr.inlet = x ∧
    t.pwr.inletCap = decide (s.field .supply 0 Reg.supply_thermCtrl 15 8 < x) ∧
    (t.pwr.inletCap = true → t.pwr.factorPct ≤ 75) ∧ IntRaised .supply 0 0x100 s t) ∧
  (∀ (s : State) (d k : Nat), d < 4 → k < 8 → bit (s.pwr.d2d.getD d 0) k = false →
    bit (s.pwr.d2d.getD d 0) (pairLink k) = false → s.pwr.d2d.length = 4 → ∃ t, exec (.d2dLinkDown d k) s = .next t ∧
    bit (t.pwr.d2d.getD d 0) k = true ∧ t.live .die d 3 = s.counted .die d 3 1 ∧
    Recorded { pageRec .die d 0x0407 .warning with a := d, b := k } s t ∧ t.cores = s.cores) ∧
  (∀ (s : State) (d k : Nat), d < 4 → k < 8 → bit (s.pwr.d2d.getD d 0) k = false → s.pwr.d2d.length = 4 →
    bit (s.pwr.d2d.getD d 0) (pairLink k) = true → ∃ t, exec (.d2dLinkDown d k) s = .next t ∧
    t.pwr.regulators = true ∧ t.pwr.cause = 7 ∧ t.cores = State.reset.cores ∧ t.tier.flash = s.tier.flash)

/-- Fencing (R371 to R373): a fenced core holds nothing, stands under its next incarnation, its grants are returned and the
event says what was fenced; DRAIN_TIMEOUT fences with cause 3 and a parity error in control with cause 2; a request under
another incarnation moves nothing and counts. No other core's incarnation or fence count changes. -/
def Obligations.FencedCoresHoldNothing : Prop :=
  (∀ (s : State) (c n : Nat), s.Shape → s.canFence c = true → 1 ≤ n → n ≤ 3 → ∃ t, exec (.coreFence c n) s = .next t ∧
    (t.core c).state = .fenced ∧ (t.core c).incarnation = ((s.core c).incarnation + 1) % 65536 ∧
    (t.core c).timesFenced = (s.core c).timesFenced + 1 ∧ (t.core c).fenceCause = n ∧ (t.core c).run = none ∧
    (t.core c).queue = [] ∧ t.pwr.heldBy c = 0 ∧
    (∀ d, d ≠ c → (t.core d).incarnation = (s.core d).incarnation ∧ (t.core d).timesFenced = (s.core d).timesFenced) ∧
    Recorded { pageRec .ctl c 0x0101 .error with
      a := (s.core c).incarnation, b := ((s.core c).incarnation + 1) % 65536, c := n } s t) ∧
  (∀ (s : State) (c : Nat), s.Shape → s.canFence c = true → (s.core c).state = .draining →
    exec (.drainTimeout c) s = exec (.coreFence c 3) s) ∧
  (∀ (s : State) (c : Nat), s.Shape → s.canFence c = true → ∃ t, exec (.controlParityError c) s = .next t ∧
    (t.core c).state = .fenced ∧ (t.core c).incarnation = ((s.core c).incarnation + 1) % 65536 ∧
    (t.core c).fenceCause = 2 ∧ (t.core c).run = none ∧ bit (t.regN .ctl c Reg.errStat) 3 = true) ∧
  (∀ (s : State) (c n : Nat), c < 68 → c < s.cores.length → (n ≠ (s.core c).incarnation ∨ (s.core c).state = .fenced) →
    ∃ t, exec (.staleCoreRequest c n) s = .next t ∧ OtherCores c s t ∧
      t.core c = { s.core c with staleNoted := true, staleDrops := (s.core c).staleDrops + 1 } ∧
      ((s.core c).staleNoted = false → Recorded { pageRec .ctl c 0x0105 .warning with a := n } s t) ∧
      ((s.core c).staleNoted = true → t.log = s.log))

/-- Substitution and return of cores (R374, R375): with a passing spare its logical number, map and window go over and the
spare resumes; with none the number is left unmapped; a fenced core that passed its self-test returns DRAINED, at most
twice.
A command whose condition does not hold leaves the state as it is (the model's choice, log 2). -/
def Obligations.CoresAreSubstitutedAndReturned : Prop :=
  (∀ (s : State) (l c sp : Nat), s.Shape → l < 64 → s.physical l = some c → (s.core c).state = .fenced →
    s.passingSpare (coreDie c) = some sp → ∃ t, exec (.coreSubstitute l) s = .next t ∧ t.physical l = some sp ∧
      (t.core sp).state = .idle ∧ t.core c = s.core c ∧
      t.reg (regAddr .state sp Reg.state_stateWindow) = s.reg (regAddr .state c Reg.state_stateWindow) ∧
      Recorded { pageRec .hub 0 0x0102 .notice with unit := c, a := l, b := sp } s t) ∧
  (∀ (s : State) (l c : Nat), l < 64 → s.physical l = some c → (s.core c).state = .fenced →
    s.passingSpare (coreDie c) = none → ∃ t, exec (.coreSubstitute l) s = .next t ∧ t.physical l = none ∧
      t.cores = s.cores ∧ Recorded { pageRec .hub 0 0x0103 .error with unit := c, a := l } s t) ∧
  (∀ (s : State) (c : Nat), c < 68 → c < s.cores.length → (s.core c).state = .fenced → (s.core c).timesFenced < 3 →
    ∃ t, exec (.coreReturn c true) s = .next t ∧ OtherCores c s t ∧
      t.core c = { s.core c with state := .drained, lastPass := some s.roundNow, exposure := [], exposureOverflow := false
                                 overdue := 0 } ∧
      Recorded { pageRec .ctl c 0x0106 .notice with a := (s.core c).incarnation } s t) ∧
  (∀ (s : State) (c : Nat) (ok : Bool), 3 ≤ (s.core c).timesFenced → exec (.coreReturn c ok) s = .next s)

/-- CORE_CMD (R69): DRAIN lets a running kernel finish and drains an idle core at once; a DRAINING core whose kernel has
ended becomes DRAINED; RESUME puts a DRAINED core back to IDLE.
What goes beyond the rules is the model's: log 2, a command whose condition does not hold changes nothing; an empty
queue idles (DESIGN CHOICE). -/
def Obligations.CoresDrainAndResume : Prop :=
  (∀ (s : State) (c : Nat), c < s.cores.length → (s.core c).state = .running → ∃ t, exec (.drain c) s = .next t ∧
    t.core c = { s.core c with state := .draining } ∧ OtherCores c s t ∧ IntRaised .ctl c 0x100 s t ∧
    OtherRegs [regAddr .ctl c Reg.intStat] s t) ∧
  (∀ (s : State) (c : Nat), c < s.cores.length → (s.core c).state = .idle → ∃ t, exec (.drain c) s = .next t ∧
    t.core c = { s.core c with state := .drained } ∧ OtherCores c s t ∧ IntRaised .ctl c 0x100 s t ∧
    OtherRegs [regAddr .ctl c Reg.intStat] s t) ∧
  (∀ (s : State) (c : Nat), c < s.cores.length → (s.core c).state = .draining → (s.core c).run = none →
    (s.core c).chain = none → ∃ t, exec (.coreDrained c) s = .next t ∧
    t.core c = { s.core c with state := .drained } ∧ OtherCores c s t ∧ IntRaised .ctl c 0x100 s t ∧
    OtherRegs [regAddr .ctl c Reg.intStat] s t) ∧
  (∀ (s : State) (c : Nat), c < s.cores.length → (s.core c).state = .drained → ∃ t, exec (.coreResume c) s = .next t ∧
    t.core c = { s.core c with state := .idle, quietHold := false } ∧ OtherCores c s t ∧ IntRaised .ctl c 0x100 s t ∧
    OtherRegs [regAddr .ctl c Reg.intStat] s t)

/-- Maps and windows of a core (R51, R66, R71, R149, R178, R442): ACM_MAP and STATE_WINDOW take a write only while the core
is DRAINED; a CORE_MAP write changes the whole register or none of it; a handle is loaded for a stream of the box; a FLUSH
empties the look-aside buffer; a refused write leaves the register and is flagged. An uncorrectable error poisons every row
of its pigeonhole, retires it once and records it; at the kernel boundary the core is remapped away from what is retired.
What goes beyond the rules is the model's: log 36, a new STATE_WINDOW leaves no window copy (DESIGN CHOICE). -/
def Obligations.CoreMapsAndPigeonholesAreRemapped : Prop :=
  (∀ (s : State) (c : Nat) (v : W32), c < 68 → (s.core c).state = .drained → ∃ t, exec (.acmMapWrite c v) s = .next t ∧
    t.reg (regAddr .acm c Reg.acm_acmMap) = v ∧ OtherRegs [regAddr .acm c Reg.acm_acmMap] s t) ∧
  (∀ (s : State) (c : Nat) (v : W32), c < 68 → (s.core c).state ≠ .drained → ∃ t, exec (.acmMapWrite c v) s = .next t ∧
    t.reg (regAddr .acm c Reg.acm_acmMap) = s.reg (regAddr .acm c Reg.acm_acmMap) ∧
    bit (t.regN .acm c Reg.errStat) 0 = true) ∧
  (∀ (s : State) (c : Nat) (v : W32), c < 68 → (s.core c).state = .drained → v.toNat ≤ 64 →
    ∃ t, exec (.stateWindowWrite c v) s = .next t ∧ t.reg (regAddr .state c Reg.state_stateWindow) = v ∧
    OtherRegs [regAddr .state c Reg.state_stateWindow] s t ∧ ∀ p ∈ t.places, p.windowCore ≠ some c) ∧
  (∀ (s : State) (c : Nat) (v : W32), c < 68 → ((s.core c).state ≠ .drained ∨ 64 < v.toNat % 128) →
    ∃ t, exec (.stateWindowWrite c v) s = .next t ∧
    t.reg (regAddr .state c Reg.state_stateWindow) = s.reg (regAddr .state c Reg.state_stateWindow) ∧
    t.places = s.places ∧ bit (t.regN .state c Reg.errStat) 0 = true) ∧
  (∀ (s : State) (n : Nat) (v : W32), n < 16 → (∀ k, k < 4 → s.mapOk n v.toNat k = true) →
    ∃ t, exec (.coreMapWrite n v) s = .next t ∧ t.reg (regAddr .hub 0 (Reg.hub_coreMap + 4 * n)) = v ∧
    IntRaised .hub 0 0x100 s t) ∧
  (∀ (s : State) (n k : Nat) (v : W32), n < 16 → k < 4 → s.mapOk n v.toNat k = false →
    ∃ t, exec (.coreMapWrite n v) s = .next t ∧
    t.reg (regAddr .hub 0 (Reg.hub_coreMap + 4 * n)) = s.reg (regAddr .hub 0 (Reg.hub_coreMap + 4 * n)) ∧
    bit (t.regN .hub 0 Reg.errStat) 0 = true) ∧
  (∀ (s : State) (c n : Nat) (v : W32) (p : Place) (g : Group), c < 68 → v.toNat < 2 ^ 24 →
    s.place? (bits v.toNat 17 0) = some p → s.group? p.group = some g → g.box = bits v.toNat 23 18 → n < 16 →
    ∃ t, exec (.handleSelWrite c v) s = .next t ∧ t.reg (regAddr .state c Reg.state_handleSel) = v ∧
      bit (t.regN .state c Reg.state_handleStatus) 1 = true ∧
      t.reg (regAddr .state c (Reg.state_handleData + 4 * n)) = BitVec.ofNat 32 (p.handle g / 2 ^ (32 * n))) ∧
  (∀ (s : State) (c : Nat), c < 68 → c < s.cores.length → ∃ t, exec (.flush c) s = .next t ∧
    t.core c = { s.core c with lab := [] } ∧ OtherCores c s t ∧
    t.live .kvw c 3 = s.counted .kvw c 3 (s.core c).lab.length ∧ OtherCounters [ctrKey .kvw c 3] s t) ∧
  (∀ (s : State) (c ph : Nat), c < 68 → c < s.cores.length → ph < 9 → bit (s.core c).retired ph = false →
    ∃ t, exec (.pigeonholeRetire c ph true 0) s = .next t ∧ OtherCores c s t ∧ bit (t.core c).retired ph = true ∧
      (∀ r, r < 256 → ph * 256 + r ∈ (t.core c).phPoison) ∧ (t.core c).run = (s.core c).run ∧
      t.live .acm c 2 = s.counted .acm c 2 1 ∧ bit (t.regN .acm c Reg.errStat) 2 = true ∧
      Recorded { pageRec .acm c 0x0100 .warning with a := ph, b := 1 } s t) ∧
  (∀ (s : State) (c ph n : Nat), c < 68 → c < s.cores.length → ph < 9 → bit (s.core c).retired ph = false →
    0 < n → n < s.field .acm c Reg.acm_acmCeLimit 7 0 → ∃ t, exec (.pigeonholeRetire c ph false n) s = .next t ∧
      OtherCores c s t ∧ (t.core c).retired = (s.core c).retired ∧ (t.core c).phPoison = (s.core c).phPoison ∧
      t.log = s.log ∧ bit (t.regN .acm c Reg.errStat) 1 = true) ∧
  (∀ (s : State) (c : Nat), c < 68 → c < s.cores.length → (s.core c).run = none →
    ((s.core c).state = .drained ∨ (s.core c).state = .idle ∨ (s.core c).state = .draining) →
    remapAll (s.regN .acm c Reg.acm_acmMap) (s.core c).retired ≠ s.regN .acm c Reg.acm_acmMap →
    ∃ t, exec (.pigeonholeRemap c) s = .next t ∧ OtherCores c s t ∧
      t.reg (regAddr .acm c Reg.acm_acmMap) =
        BitVec.ofNat 32 (remapAll (s.regN .acm c Reg.acm_acmMap) (s.core c).retired) ∧
      OtherRegs [regAddr .acm c Reg.acm_acmMap, regAddr .acm c Reg.intStat] s t ∧ IntRaised .acm c 0x100 s t)

/-- Items that act at once (R16, R18, R36): a SYNC's operation ends once nothing holds it; a KERNEL's runs begin; a
BACKWARD begins each stream at the last step named, or fails with LOAD_CHECK where a step has no tape; an END vacates every
stream listed, vacant ones included, and no other; a CLOSE_GROUP releases its group with every place, and no other group. -/
def Obligations.ItemsThatActAtOnce : Prop :=
  (∀ (s : State) (id : Nat) (i : Item), s.mayAct id 0x0B i → ∃ t, exec (.sync id) s = .next t ∧
    t.item? id = some { i with took := true, opEnd := true } ∧ OtherItems id s t ∧ t.places = s.places ∧ t.log = s.log) ∧
  (∀ (s : State) (id : Nat) (i : Item), s.mayAct id 0x0A i → ∃ t, exec (.kernel id) s = .next t ∧
    t.item? id = some { i with took := true, entries := i.entries.map (fun e => { e with st := .running }) } ∧
    OtherItems id s t ∧ t.cores = s.cores) ∧
  (∀ (s : State) (id : Nat) (i : Item), s.mayAct id 0x09 i → s.backwardBad i = false →
    ∃ t, exec (.backward id) s = .next t ∧ OtherItems id s t ∧ t.places = s.places ∧
      t.item? id = some { i with
        took := true
        entries := i.entries.map (fun e => { e with st := .running, step := i.countB + i.countC }) }) ∧
  (∀ (s : State) (id : Nat) (i : Item), s.mayAct id 0x09 i → s.backwardBad i = true →
    ∃ t j, exec (.backward id) s = .next t ∧ t.item? id = some j ∧ j.disp = some (.failed (Fail.loadCheck 0))) ∧
  (∀ (s : State) (id : Nat) (i : Item), s.mayAct id 0x05 i → ∃ t, exec (.endStreams id) s = .next t ∧
    (∃ j, t.item? id = some j ∧ j.opEnd = true ∧ j.disp = none ∧ j.entries.length = i.entries.length ∧
      ∀ k, k < i.entries.length → (j.entry k).st = .committed) ∧
    (∀ k p, k < i.entries.length → t.place? (i.entry k).stream = some p → p.live = false) ∧
    (∀ m, (∀ k, k < i.entries.length → (i.entry k).stream ≠ m) → t.place? m = s.place? m) ∧ OtherItems id s t) ∧
  (∀ (s : State) (id g : Nat) (i : Item), s.mayAct id 0x06 i → i.group = some g →
    ∃ t, exec (.closeGroup id) s = .next t ∧ t.group? g = none ∧ (∀ p ∈ t.places, p.group ≠ g) ∧
      (∀ h, h ≠ g → t.group? h = s.group? h) ∧ (∃ j, t.item? id = some j ∧ j.opEnd = true ∧ j.disp = none) ∧
      (∀ j ∈ t.items, g ∈ j.groups → j.gone = true))

/-- FORK, CULL and OPEN_GROUP take effect (R18, R25, R26, R35, R132): each destination of a FORK becomes live with the
source's step count under its place's next lineage, a source to be retired is vacant afterwards and the FORK ends; a FORK
that R25 refuses fails and makes nothing live; a host-driven CULL without refills vacates exactly the places listed;
OPEN_GROUP makes place 0 live at step 0 with its initial state.
What goes beyond the rules is the model's: log 18, ties and addresses that firmware chooses (DESIGN CHOICE); log 19,
steps, culls, forks and reports (DEDUCED). -/
def Obligations.GroupsForkCullAndOpen : Prop :=
  (∀ (s : State) (id : Nat) (i : Item) (p : Place) (g : Group) (a : Slot), s.mayAct id 0x02 i → i.opEnd = false →
    s.forkBad i.groupStream i.streams = false → s.place? i.groupStream = some p → s.groupOf i.groupStream = some g →
    p.residency = .resident → p.arena = some a → i.streams.length * g.slotSize ≤ s.arenaRoom i.box →
    (∀ w j, w ∈ s.arenaWait → s.item? w.1 = some j → j.box ≠ i.box) →
    ∃ t, exec (.fork id) s = .next t ∧ (∃ j, t.item? id = some j ∧ j.opEnd = true ∧ j.disp = none) ∧
      (∀ d q, d ∈ i.streams → s.place? d = some q → ∃ r, t.place? d = some r ∧ r.live = true ∧
        r.stepCount = p.stepCount ∧ r.lineage = nextLineage q.lineage ∧ r.tapes = [] ∧ r.bornAt = p.stepCount) ∧
      (i.retireFlag = true → ∀ r, t.place? i.groupStream = some r → r.live = false)) ∧
  (∀ (s : State) (id : Nat) (i : Item), s.mayAct id 0x02 i → i.opEnd = false →
    s.forkBad i.groupStream i.streams = true → ∃ t j, exec (.fork id) s = .next t ∧ t.item? id = some j ∧
      j.disp = some (.failed (Fail.loadCheck 0)) ∧
      ∀ m p q, s.place? m = some p → t.place? m = some q → q.live = p.live ∧ q.stepCount = p.stepCount) ∧
  (∀ (s : State) (id : Nat) (i : Item) (g : Group), s.mayAct id 0x04 i → i.opEnd = false → i.refillFlag = false →
    i.sources = [] → s.groupOf i.groupStream = some g → i.streams.Nodup →
    (∀ m ∈ i.streams, ∃ p, s.place? m = some p ∧ p.group = g.index ∧ p.live = true) →
    (∃ m ∈ g.streams, m ∉ i.streams ∧ ∃ p, s.place? m = some p ∧ p.live = true) →
    ∃ t, exec (.cull id) s = .next t ∧ (∃ j, t.item? id = some j ∧ j.opEnd = true ∧ j.disp = none) ∧
      (∀ m p, m ∈ i.streams → t.place? m = some p → p.live = false) ∧
      (∀ m, m ∉ i.streams → t.place? m = s.place? m)) ∧
  (∀ (s : State) (id : Nat) (i : Item) (p : Place) (g : Group), s.mayAct id 0x01 i → 0 < i.entries.length →
    s.place? (i.entry 0).stream = some p → s.groupOf (i.entry 0).stream = some g → p.live = false →
    s.mapped i.box (i.argC + 64) (g.slotSize - 64) false = true →
    s.poisonedBox i.box (i.argC + 64) (g.slotSize - 64) = false → g.slotSize ≤ s.arenaRoom i.box →
    (∀ w j, w ∈ s.arenaWait → s.item? w.1 = some j → j.box ≠ i.box) →
    ∃ t, exec (.openGroup id) s = .next t ∧ OtherItems id s t ∧ OtherPlaces (i.entry 0).stream s t ∧
      (∃ q, t.place? (i.entry 0).stream = some q ∧ q.live = true ∧ q.stepCount = 0 ∧ q.held = true ∧
        q.arena = some { hdr := slotHeader g (i.entry 0).stream (genStart g.seed) 0 s.roundNow p.lineage
                         payload := ({} : Store 8).setRun 0 (s.readBox i.box (i.argC + 64) (g.slotSize - 64)) }) ∧
      ∃ j, t.item? id = some j ∧ j.state = .started ∧ (j.entry 0).st = .running ∧ (j.entry 0).gen = genStart g.seed)

/-- STEP, STEP_COMMIT and BOUNDARY_CULL (R20, R29 to R32, R123, R133 to R136): an entry whose stream is RESIDENT runs where
its header, LINEAGE and EXPECTED_STEP agree, with the stream's generator; RESET with no image zeroes the payload; PAUSE
skips; a version that differs fails the entry. A commit advances STEP_COUNT by one and writes the new slot, except at the
last count, which fails; a boundary cull vacates what its plan removes.
A command whose condition does not hold leaves the state as it is (the model's choice, log 2).
What goes beyond the rules is the model's: log 14, what a failed or poisoned step leaves behind (DESIGN CHOICE); log
19, steps, culls, forks and reports (DEDUCED). -/
def Obligations.StepsRunCommitAndCull : Prop :=
  (∀ (s : State) (id : Nat) (i : Item) (p : Place) (g : Group), s.mayAct id 0x03 i → s.cullMissing i = false →
    0 < i.entries.length → (i.entry 0).st = .waiting → s.place? (i.entry 0).stream = some p →
    s.groupOf (i.entry 0).stream = some g → p.live = true → (i.entry 0).pause = false → p.residency = .resident →
    headerFault p (p.arena.getD {}) = none →
    ((i.entry 0).versionBad p (p.arena.getD {}).stepCount = false → (i.entry 0).reset = false →
      ∃ t j, exec (.step id) s = .next t ∧ t.item? id = some j ∧ j.disp = none ∧ j.took = true ∧
        (j.entry 0).st = .running ∧ (j.entry 0).gen = (p.arena.getD {}).gen) ∧
    ((i.entry 0).versionBad p (p.arena.getD {}).stepCount = false → (i.entry 0).reset = true →
      (i.entry 0).resetVa = 0 → ∃ t j, exec (.step id) s = .next t ∧ t.item? id = some j ∧ j.disp = none ∧
        (j.entry 0).st = .running ∧ (j.entry 0).begun = true ∧
        (i.entries.length = 1 → ∃ q, t.place? (i.entry 0).stream = some q ∧ q.faulted = false ∧ q.held = true ∧
          q.arena = some { hdr := slotHeader g p.stream (p.arena.getD {}).gen p.stepCount s.roundNow p.lineage })) ∧
    ((i.entry 0).versionBad p (p.arena.getD {}).stepCount = true → ∃ t j, exec (.step id) s = .next t ∧
      t.item? id = some j ∧ j.disp = none ∧ (j.entry 0).st = .failed (i.entryFail 0 .stateVersion))) ∧
  (∀ (s : State) (id : Nat) (i : Item) (p : Place) (g : Group), s.mayAct id 0x03 i → s.cullMissing i = false →
    0 < i.entries.length → (i.entry 0).st = .waiting → s.place? (i.entry 0).stream = some p →
    s.groupOf (i.entry 0).stream = some g → p.live = true → (i.entry 0).pause = true →
    (i.entry 0).versionBad p p.stepCount = false → ∃ t j, exec (.step id) s = .next t ∧ t.item? id = some j ∧
      j.disp = none ∧ (j.entry 0).st = .paused) ∧
  (∀ (s : State) (id : Nat) (i : Item), s.mayAct id 0x03 i → s.cullMissing i = true →
    ∃ t j, exec (.step id) s = .next t ∧ t.item? id = some j ∧ j.disp = some (.failed (Fail.loadCheck 0))) ∧
  (∀ (s : State) (id k : Nat) (i : Item) (p : Place) (g : Group), s.item? id = some i → i.disp = none → i.kind = 0x03 →
    k < i.entries.length → (i.entry k).st = .ready → s.place? (i.entry k).stream = some p →
    s.groupOf (i.entry k).stream = some g →
    (p.stepCount ≠ 0xFFFFFFFF → ∃ t j, exec (.stepCommit id k) s = .next t ∧ t.item? id = some j ∧ j.disp = none ∧
      (j.entry k).st = .committed ∧ OtherPlaces (i.entry k).stream s t ∧
      ((i.entry k).endAfter = true → ∀ q, t.place? (i.entry k).stream = some q → q.live = false) ∧
      ((i.entry k).endAfter = false → ∃ q, t.place? (i.entry k).stream = some q ∧ q.live = p.live ∧ q.held = false ∧
        q.stepCount = p.stepCount + 1 ∧ q.lineage = p.lineage ∧ q.lastUse = s.roundNow ∧
        q.arena = some (p.committedSlot g (i.entry k).gen (p.stepCount + 1) s.roundNow) ∧
        ((i.entry k).record = true → p.stepCount ∈ q.tapes))) ∧
    (p.stepCount = 0xFFFFFFFF → ∃ t j, exec (.stepCommit id k) s = .next t ∧ t.item? id = some j ∧
      (j.entry k).st = .failed (i.entryFail k .stateVersion))) ∧
  (∀ (s : State) (id : Nat) (i : Item) (p : Place) (g : Group), s.item? id = some i → i.disp = none → i.kind = 0x01 →
    0 < i.entries.length → (i.entry 0).st = .ready → s.place? (i.entry 0).stream = some p →
    s.groupOf (i.entry 0).stream = some g → ∃ t j, exec (.stepCommit id 0) s = .next t ∧ t.item? id = some j ∧
      (j.disp = none → (j.entry 0).st = .committed ∧ (∃ h, t.group? g.index = some h ∧ h.prefillDone = true) ∧
        ∃ q, t.place? (i.entry 0).stream = some q ∧ q.stepCount = g.frames ∧ q.held = false)) ∧
  (∀ (s : State) (id : Nat) (i : Item), s.item? id = some i → i.cullDue = true →
    (∀ g ∈ s.culledGroups i.groups, g.refill = .none) → ∃ t j, exec (.boundaryCull id) s = .next t ∧
      t.item? id = some j ∧ j.culled = true ∧ j.disp = none ∧ j.entries = i.entries ∧
      ∀ g ∈ s.culledGroups i.groups, ∀ k ∈ (planCull g (g.streams.map (s.cullSt i g))).gone, ∀ p,
        t.place? (g.streams.getD k 0) = some p → p.live = false) ∧
  (∀ (s : State) (id : Nat) (i : Item), s.item? id = some i → i.cullDue = false → exec (.boundaryCull id) s = .next s)

/-- PARK, RECALL, RING_ENTRY_TAKE and DEADLINE_REACHED (R18, R23, R137, R259, R311): PARK moves an unpinned stream out and
leaves a pinned one, noting it; RECALL of a stream that is away moves it in once arena is left, and of a RESIDENT one is
done; every entry taken from a ring joins the ledger under its tag, refused where its count or box forbids it; a
hard deadline fails the item, a soft one marks it late.
What goes beyond the rules is the model's: log 5, time moves only with the commands that stand for timed events
(DESIGN CHOICE); log 17, deadlines, barriers and order in the ledger (DEDUCED). -/
def Obligations.ParksRecallsRingsAndDeadlines : Prop :=
  (∀ (s : State) (id : Nat) (i : Item) (p : Place), s.mayAct id 0x07 i → 0 < i.entries.length →
    (i.entry 0).st = .waiting → s.place? (i.entry 0).stream = some p → p.live = true → p.residency = .resident →
    (p.pinCount = 0 → p.held = false → ∃ t j q, exec (.park id) s = .next t ∧ t.item? id = some j ∧ j.state = .started ∧
      t.place? (i.entry 0).stream = some q ∧ q.residency = .outbound ∧ q.held = true ∧ q.window = none) ∧
    (p.pinCount ≠ 0 → ∃ t j, exec (.park id) s = .next t ∧ t.item? id = some j ∧ (j.entry 0).st = .committed ∧
      (j.entry 0).pinned = true)) ∧
  (∀ (s : State) (id : Nat) (i : Item) (p : Place) (g : Group), s.mayAct id 0x08 i → 0 < i.entries.length →
    (i.entry 0).st = .waiting → s.place? (i.entry 0).stream = some p → s.groupOf (i.entry 0).stream = some g →
    p.live = true →
    (p.residency = .resident → ∃ t j, exec (.recall id) s = .next t ∧ t.item? id = some j ∧
      (j.entry 0).st = .committed) ∧
    (p.residency = .away → g.slotSize ≤ s.arenaRoom i.box →
      (∀ w j, w ∈ s.arenaWait → s.item? w.1 = some j → j.box ≠ i.box) → ∃ t q, exec (.recall id) s = .next t ∧
      t.place? (i.entry 0).stream = some q ∧ q.residency = .inbound ∧ q.held = true ∧ q.arena.isSome = true ∧
      q.stepCount = p.stepCount)) ∧
  (∀ (s : State) (b ring e : Nat) (r : SubRing), (s.box b).subs.find? (fun q => q.index == ring) = some r →
    s.nextRing b = some ring → s.ringEntry b r r.taken = .ok e → s.item? s.nextItem = none →
    ∃ t j, exec (.ringEntryTake b ring) s = .next t ∧ t.nextItem = s.nextItem + 1 ∧ t.item? s.nextItem = some j ∧
      j.tag = BitVec.ofNat 64 (bits e 431 368) ∧ j.box = b ∧ j.ring = ring ∧ j.count = r.taken ∧
      (t.box b).subs.find? (fun q => q.index == ring) = some { r with taken := (r.taken + 1) % 2 ^ 32 } ∧
      ((s.box b).state ≠ .active → j.disp = some (.failed { reason := .boxDisabled, atEntry := true })) ∧
      ((s.box b).state = .active → s.fab.noMajority = false → s.side.mgrConflict = false → s.side.posRange = false →
        (crc32c (leBytes 60 (e % 2 ^ 480))).toNat = bits e 511 480 → bits e 351 0 = 0 →
        bits e 367 352 ≠ r.taken % 65536 →
        j.disp = some (.failed { reason := .loadCheck, check := 0x0C02, atEntry := true }))) ∧
  (∀ (s : State) (id d : Nat) (i : Item), s.item? id = some i → i.deadline = some d →
    (i.disp = none → i.soft = false → ∃ t j, exec (.deadlineReached id) s = .next t ∧ t.item? id = some j ∧
      j.disp = some (.failed { reason := .deadline }) ∧ t.time = { s.time with t := max s.time.t d }) ∧
    (i.disp = none → i.soft = true → ∃ t, exec (.deadlineReached id) s = .next t ∧
      t.item? id = some { i with late := true } ∧ OtherItems id s t ∧ t.time = { s.time with t := max s.time.t d }) ∧
    (i.disp ≠ none → ∃ t, exec (.deadlineReached id) s = .next t ∧ t.items = s.items ∧
      t.time = { s.time with t := max s.time.t d }))

/-- INSTANCE_PLACE, INSTANCE_START and INSTANCE_STEAL (R103, R104, R118, R258, R262, R263, R464): the next instance joins
the queue of the core that the placement order gives; the next kernel of a chain goes to the front of its core's queue;
with no core that holds enough pigeonholes the item fails with ACM_SHORT; a core that starts runs the head of its queue,
its masked clerks at their entry points with the instance block in data memory; an idle core takes the earliest instance
that it may.
A command whose condition does not hold leaves the state as it is (the model's choice, log 2).
What goes beyond the rules is the model's: log 17, deadlines, barriers and order in the ledger (DEDUCED); log 24,
placement, gang mode and shortage of pigeonholes (DESIGN CHOICE); log 25, box switches and window copies (DESIGN
CHOICE). -/
def Obligations.InstancesArePlacedStartedAndStolen : Prop :=
  (∀ (s : State) (id k : Nat) (i : Item) (x : Inst) (e : KEntry), s.item? id = some i → i.disp = none → i.took = true →
    i.pos = s.pos → k < i.entries.length → (i.entry k).st = .running → s.gangAllows i = true → s.chainOf id k = none →
    s.nextInst i k = some x → s.kentry? x = some e →
    (∀ c v sk, c < s.cores.length → s.choose x e (s.placeOrder i x)
        (fun c => (s.core c).accepts && (!(s.gangSet || s.gangItem.isSome) || (s.core c).bare)) = .on c v sk →
      ∃ t j, exec (.instancePlace id k) s = .next t ∧ OtherCores c s t ∧ t.core c = { s.core c with
        queue := (s.core c).queue ++ [{ x with variant := v, cost := s.instCost x }] } ∧
        t.item? id = some j ∧ j.state = .started ∧ j.disp = none ∧
        ((i.entry k).again = [] → (j.entry k).placed = (i.entry k).placed + 1) ∧
        ((i.entry k).again ≠ [] → (j.entry k).again = (i.entry k).again.drop 1)) ∧
    (∀ sk, s.choose x e (s.placeOrder i x)
        (fun c => (s.core c).accepts && (!(s.gangSet || s.gangItem.isSome) || (s.core c).bare)) = .short sk →
      ∃ t j f, exec (.instancePlace id k) s = .next t ∧ t.item? id = some j ∧ j.disp = some (.failed f) ∧
        f.reason = .acmShort) ∧
    (s.choose x e (s.placeOrder i x)
        (fun c => (s.core c).accepts && (!(s.gangSet || s.gangItem.isSome) || (s.core c).bare)) = .wait →
      exec (.instancePlace id k) s = .next s)) ∧
  (∀ (s : State) (id k c : Nat) (i : Item) (x : Inst) (e : KEntry) (v : Bool) (sk : List Nat), s.item? id = some i →
    i.disp = none → i.took = true → i.pos = s.pos → k < i.entries.length → (i.entry k).st = .running →
    s.gangAllows i = true → s.chainOf id k = some (c, x) → c < s.cores.length → s.kentry? x = some e →
    s.choose x e [c] (fun _ => true) = .on c v sk → ∃ t, exec (.instancePlace id k) s = .next t ∧ OtherCores c s t ∧
      t.core c = { s.core c with queue := { x with variant := v, cost := s.instCost x } :: (s.core c).queue }) ∧
  (∀ (s : State) (c : Nat) (i : Item) (x : Inst) (ker : Kernel), s.Shape → c < 68 → x.box < 64 → (s.core c).mayStart = true →
    s.queueHead c = some x → s.item? x.item = some i → s.kernelOf x = some ker →
    (ker.usesState = false ∨ x.stream = none) → ∃ t, exec (.instanceStart c) s = .next t ∧ OtherCores c s t ∧
      (t.core c).run = some { x with start := s.time.t, poison := none } ∧ (t.core c).chain = none ∧
      (t.core c).lastBox = some x.box ∧ ((s.core c).state = .idle → (t.core c).state = .running) ∧
      (t.core c).mxeQ = [] ∧ (t.core c).phState = List.replicate 8 .free ∧
      (∀ n, n < 4 → bit ker.clerkMask n = true → (t.clerk c n).state = .running ∧
        (t.clerk c n).pc = BitVec.ofNat 64 (0x20000000 + ker.clerkEntry.getD n 0) ∧ ∀ r, (t.clerk c n).getX r = 0) ∧
      (∀ n, n < 4 → bit ker.clerkMask n = false → (t.clerk c n).state = .idle) ∧
      (∀ n, n < 4 → (t.clerk c n).dmem.getRun 0 64 = leBytes 64 x.block) ∧
      ((s.core c).lastBox ≠ some x.box → t.live .disp (coreDie c) 9 = s.counted .disp (coreDie c) 9 1) ∧
      IntRaised .ctl c 0x100 s t) ∧
  (∀ (s : State) (c d : Nat) (x : Inst), c < s.cores.length → d < s.cores.length → d ≠ c → (s.core c).state = .idle →
    (s.core c).accepts = true → (s.core c).bare = true →
    ((pickFirst (fun (a b : Nat × Inst) => s.instBefore a.2 b.2) (s.stealable c true)).or
      (pickFirst (fun (a b : Nat × Inst) => s.instBefore a.2 b.2) (s.stealable c false))) = some (d, x) →
    ∃ t, exec (.instanceSteal c) s = .next t ∧
      (t.core c).queue = [{ x with variant := (s.mayTakeInst c x).getD false }] ∧
      (t.core d).queue = (s.core d).queue.filter (fun y => y != x) ∧ (∀ n, n ≠ c → n ≠ d → t.core n = s.core n) ∧
      t.items = s.items ∧ t.live .disp (coreDie c) 10 = s.counted .disp (coreDie c) 10 1)

/-- INSTANCE_END and KERNEL_WATCHDOG (R103, R104, R261): an instance whose clerks have finished and whose units are quiet
ends; the core is freed and counts a kernel; its entry counts the instance, then goes to the next kernel of the list, kept
on the core by HANDOFF, and after the last a STEP entry is ready to commit and a KERNEL item's is done. While a clerk runs,
it does not end. 20 ms after its start the watchdog fails the item.
A command whose condition does not hold leaves the state as it is (the model's choice, log 2).
What goes beyond the rules is the model's: log 26, poison goes on to the instance's end (DEDUCED). -/
def Obligations.InstancesEndAndAreWatched : Prop :=
  (∀ (s : State) (c : Nat) (x : Inst) (i : Item) (ke : KEntry), c < 68 → x.box < 64 → c < s.cores.length → (s.core c).run = some x →
    (s.core c).instanceOver = true → (s.core c).enc = [] → x.poison = none → s.item? x.item = some i → i.disp = none →
    x.entry < i.entries.length → (i.entry x.entry).st = .running → (i.entry x.entry).pos = x.pos →
    s.kentry? x = some ke → ∃ t j, exec (.instanceEnd c) s = .next t ∧ OtherCores c s t ∧ (t.core c).run = none ∧
      (t.core c).state = (if (s.core c).state = .running then .idle else (s.core c).state) ∧
      t.live .ctl c 0 = s.counted .ctl c 0 1 ∧ IntRaised .ctl c 0x100 s t ∧ t.item? x.item = some j ∧ j.disp = none ∧
      c ∈ j.coreMask ∧
      ((i.entry x.entry).ended + 1 < ke.count x.list → j.entry x.entry =
        { i.entry x.entry with ended := (i.entry x.entry).ended + 1 }) ∧
      (ke.count x.list ≤ (i.entry x.entry).ended + 1 → x.pos + 1 < (s.listOf x).length →
        j.entry x.entry = { i.entry x.entry with pos := x.pos + 1, placed := 0, ended := 0, again := [] } ∧
        (ke.handoff = true → (t.core c).chain = some { x with pos := x.pos + 1, idx := 0, variant := false })) ∧
      (ke.count x.list ≤ (i.entry x.entry).ended + 1 → (s.listOf x).length ≤ x.pos + 1 → i.kind = 0x03 →
        (j.entry x.entry).st = .ready) ∧
      (ke.count x.list ≤ (i.entry x.entry).ended + 1 → (s.listOf x).length ≤ x.pos + 1 → i.kind = 0x0A →
        (j.entry x.entry).st = .committed)) ∧
  (∀ (s : State) (c : Nat) (x : Inst), c < s.cores.length → (s.core c).run = some x → (s.core c).quiet = true →
    (∃ q ∈ (s.core c).clerks, q.state = .running ∨ q.state = .waiting) → exec (.instanceEnd c) s = .next s) ∧
  (∀ (s : State) (c : Nat) (x : Inst) (i : Item), c < 68 → c < s.cores.length → (s.core c).run = some x →
    s.item? x.item = some i → i.disp = none → ∃ t j f, exec (.kernelWatchdog c) s = .next t ∧
      t.time = { s.time with t := max s.time.t (20000000 + x.start) } ∧ (t.core c).run = none ∧
      t.item? x.item = some j ∧ j.disp = some (.failed f) ∧ f.reason = .watchdog) ∧
  (∀ (s : State) (c : Nat), (s.core c).run = none → exec (.kernelWatchdog c) s = .next s ∧
    exec (.instanceEnd c) s = .next s)

/-- The tile-register instructions and TPARM, TSTAT, TWAIT (R60 to R62, R74): each writes the one register it names, goes
on past its four bytes and counts one instruction; nothing else of the core moves. A TDLD or TDST off alignment or outside
data memory traps; a TWAIT waits while an operation of a unit it names is incomplete.
What goes beyond the rules is the model's: log 13, a clerk's fetch and its tile loads and stores (DEDUCED). -/
def Obligations.TileInstructionsWriteTheirRegister : Prop :=
  (∀ (s : State) (c n td rs1 sel : Nat), s.clerkOp c n = some (.tdset td rs1 sel) →
    ∃ t, exec (.tdset c n) s = .next t ∧ OtherClerks c n s t ∧ Retired c n s t ∧ t.clerk c n =
      { (s.clerk c n).advance 4 with state := .running, td := ((s.clerk c n).td.set td
        (tdsetBits ((s.clerk c n).td.getD td 0) sel ((s.clerk c n).getX rs1).toNat)) }) ∧
  (∀ (s : State) (c n rs1 : Nat), s.clerkOp c n = some (.tparm rs1) → ∃ t, exec (.tparm c n) s = .next t ∧
    OtherClerks c n s t ∧ Retired c n s t ∧
    t.clerk c n = { (s.clerk c n).advance 4 with state := .running, parm := (s.clerk c n).getX rs1 }) ∧
  (∀ (s : State) (c n rd : Nat), s.clerkOp c n = some (.tstat rd) → ∃ t, exec (.tstat c n) s = .next t ∧
    OtherClerks c n s t ∧ Retired c n s t ∧ t.clerk c n =
      { ((s.clerk c n).setX rd (BitVec.ofNat 64 (s.core c).queuesWord)).advance 4 with state := .running }) ∧
  (∀ (s : State) (c n m off td rs1 : Nat), s.clerkOp c n = some (.tdld td rs1) →
    tdAddr n ((s.clerk c n).getX rs1).toNat false = .ok (m, off) → poisonIn (s.clerk c m).dmemPoison off 16 = false →
    ∃ t, exec (.tdld c n) s = .next t ∧ OtherClerks c n s t ∧ Retired c n s t ∧ t.clerk c n =
      { (s.clerk c n).advance 4 with state := .running, td := ((s.clerk c n).td.set td
        (BitVec.ofNat 128 (leNat ((s.clerk c m).dmem.getRun off 16)))) }) ∧
  (∀ (s : State) (c n m off td rs1 : Nat), s.Shape → s.clerkOp c n = some (.tdst rs1 td) → m < 4 →
    tdAddr n ((s.clerk c n).getX rs1).toNat true = .ok (m, off) → ∃ t, exec (.tdst c n) s = .next t ∧
      OtherCores c s t ∧ Retired c n s t ∧ (t.clerk c n).pc = (s.clerk c n).pc + 4 ∧
      (t.clerk c m).dmem.getRun off 16 = leBytes 16 ((s.clerk c n).td.getD td 0).toNat ∧
      (∀ k a, (k ≠ m ∨ a < off ∨ off + 16 ≤ a) → (t.clerk c k).dmem.get a = (s.clerk c k).dmem.get a) ∧
      (∀ k, (t.clerk c k).td = (s.clerk c k).td ∧ (t.clerk c k).x = (s.clerk c k).x)) ∧
  (∀ (s : State) (c n td rs1 cause : Nat), s.clerkOp c n = some (.tdld td rs1) →
    tdAddr n ((s.clerk c n).getX rs1).toNat false = .error cause → ∃ t, exec (.tdld c n) s = .next t ∧
      (t.clerk c n).state = .trapped ∧ (t.clerk c n).cause = BitVec.ofNat 64 cause ∧
      (t.clerk c n).trapPc = (s.clerk c n).pc ∧ (t.core c).run = none) ∧
  (∀ (s : State) (c n mask : Nat), s.clerkOp c n = some (.twait mask) → (s.core c).unitsIdle →
    ((s.core c).pendingFor n mask = true → ∃ t, exec (.twait c n) s = .next t ∧ OtherClerks c n s t ∧
      t.clerk c n = { s.clerk c n with state := .waiting }) ∧
    ((s.core c).pendingFor n mask = false → ∃ t, exec (.twait c n) s = .next t ∧ OtherClerks c n s t ∧
      Retired c n s t ∧ t.clerk c n = { (s.clerk c n).advance 4 with state := .running }))

/-- How a clerk leaves off (R59, R64, R103): ECALL ends its part of the instance; a trap keeps its cause and program
counter, and ends the kernel; a base instruction that completes leaves the clerk RUNNING with the registers that the
RV64IMAC step gives it, and an illegal one traps with cause 2.
What goes beyond the rules is the model's: log 13, a clerk's fetch and its tile loads and stores (DEDUCED); log 20,
the clerks' base instruction set is RV64IMAC as its standard gives it (PRESUMED). -/
def Obligations.ClerksRunEndAndTrap : Prop :=
  (∀ (s : State) (c n len : Nat), s.clerkOp c n = some (.ecall len) → ∃ t, exec (.ecall c n) s = .next t ∧
    OtherClerks c n s t ∧ Retired c n s t ∧
    t.clerk c n = { (s.clerk c n).advance len with state := .idle, finished := true, resv := none }) ∧
  (∀ (s : State) (c n : Nat) (k : TrapKind), (s.fetchFor c n).isSome = true → ∃ t, exec (.clerkTrap c n k) s = .next t ∧
    (t.clerk c n).state = .trapped ∧ (t.clerk c n).cause = BitVec.ofNat 64 (trapCause k) ∧
    (t.clerk c n).trapPc = (s.clerk c n).pc ∧ (t.core c).run = none ∧
    ∀ x i, (s.core c).run = some x → s.item? x.item = some i → x.entry < i.entries.length → ∃ j, t.item? x.item = some j ∧
      (j.entry x.entry).st = .failed (s.failOf x (trapFail (trapCause k)))) ∧
  (∀ (s : State) (c n w len : Nat) (x : Exec), s.Shape → s.fetchFor c n = some (.op (.base w len)) →
    (s.execOf c).rv n w len = .ok x → x.core.clerks.length = 4 → ∃ t, exec (.rv64imacInstruction c n) s = .next t ∧
      t.clerk c n = { x.clerk n with state := .running } ∧ OtherCores c s t ∧
      (∀ m, m ≠ n → t.clerk c m = x.clerk m)) ∧
  (∀ (s : State) (c n : Nat), s.fetchFor c n = some (.op .illegal) → ∃ t, exec (.rv64imacInstruction c n) s = .next t ∧
    (t.clerk c n).state = .trapped ∧ (t.clerk c n).cause = 2 ∧ (t.core c).run = none)

/-- MXWL, MXMUL, DRN and CRR (R40, R41, R49, R52, R61 to R63, R463), where nothing else waits in the core: an operation
that its unit cannot begin joins the unit's queue as the clerk goes on; a weight load from the core buffer begins where the
shadow bank is free; an MXMUL without SWAP broadcasts while the MXE is FULL; a DRN begins where no drain runs, takes the
parameter word and puts its pigeonhole in DRAIN. A check that fails ends the run with its code.
What goes beyond the rules is the model's: log 49, a core reads what earlier commands wrote (DESIGN CHOICE). -/
def Obligations.UnitOperationsIssue : Prop :=
  (∀ (s : State) (c n td : Nat) (w : BitVec 128) (i : Inst), s.clerkOp c n = some (.mxwl td) → (s.core c).unitsIdle →
    (s.core c).run = some i → w = (s.clerk c n).td.getD td 0 →
    (firstFail [checkSpaceAny (s.execOf c) (Tile.ofBits w), checkTensor (s.execOf c) (Tile.ofBits w),
      checkCodes (Tile.ofBits w), if (Tile.ofBits w).fmt = (s.execOf c).ker.wgtFmt then none else some (Fail.loadCheck 0x0401),
      checkAlign (Tile.ofBits w), s.rangeOf i (s.execOf c) (Tile.ofBits w)] = none →
      ((s.core c).shadowReady = true ∨ (s.core c).loading.isSome = true → ∃ t, exec (.mxwl c n) s = .next t ∧
        Retired c n s t ∧ t.clerk c n = { (s.clerk c n).advance 4 with state := .running } ∧
        { t.core c with clerks := [] } = { s.core c with clerks := [], mxeQ := [.wl n w] } ∧ OtherCores c s t) ∧
      ((s.core c).shadowReady = false → (s.core c).loading = none → (Tile.ofBits w).space = 0 →
        ∃ t, exec (.mxwl c n) s = .next t ∧ (t.core c).mxeQ = [] ∧ (t.core c).loading = some n ∧
          (t.core c).bank = (s.core c).bank ∧ t.clerk c n = { (s.clerk c n).advance 4 with state := .running } ∧
          OtherCores c s t)) ∧
    (∀ f, firstFail [checkSpaceAny (s.execOf c) (Tile.ofBits w), checkTensor (s.execOf c) (Tile.ofBits w),
      checkCodes (Tile.ofBits w), if (Tile.ofBits w).fmt = (s.execOf c).ker.wgtFmt then none else some (Fail.loadCheck 0x0401),
      checkAlign (Tile.ofBits w), s.rangeOf i (s.execOf c) (Tile.ofBits w)] = some f →
      ∃ t, exec (.mxwl c n) s = .next t ∧ (t.core c).run = none)) ∧
  (∀ (s : State) (c n td ph : Nat) (ai ax sw : Bool) (i : Inst), s.clerkOp c n = some (.mxmul td ph ai ax sw) →
    (s.core c).unitsIdle → (s.core c).run = some i → ph < (s.core c).phState.length →
    mulChecks (s.execOf c) (Tile.ofBits ((s.clerk c n).td.getD td 0)) = none →
    (sw = true ∨ (s.core c).ramp ≠ .full → ∃ t, exec (.mxmul c n) s = .next t ∧ Retired c n s t ∧ OtherCores c s t ∧
      t.clerk c n = { (s.clerk c n).advance 4 with state := .running } ∧
      (t.core c).mxeQ = [.mul n ((s.clerk c n).td.getD td 0) ph ai ax sw] ∧
      ((s.core c).phState.getD ph .free = .free → (t.core c).phState = (s.core c).phState.set ph .accum) ∧
      ((s.core c).phState.getD ph .free ≠ .free → (t.core c).phState = (s.core c).phState)) ∧
    (sw = false → (s.core c).ramp = .full → (s.core c).drainFirst ph = false → ∃ t, exec (.mxmul c n) s = .next t ∧
      (t.core c).mxeQ = [] ∧ (t.core c).phState.getD ph .free = .accum ∧ OtherCores c s t ∧
      (t.core c).axis = b2n ax ∧ (t.core c).banks = (s.core c).banks ∧
      t.clerk c n = { (s.clerk c n).advance 4 with state := .running })) ∧
  (∀ (s : State) (c n d r ph ch : Nat) (i : Inst) (x : Exec) (ws : List Nat) (dest : BitVec 128),
    s.clerkOp c n = some (.drn d r ph ch) → (s.core c).unitsIdle → (s.core c).run = some i → x = s.execOf c →
    ws = x.ker.chains.getD ch [] → dest = (s.clerk c n).td.getD d 0 →
    drnChecks x (Tile.ofBits dest) (Tile.ofBits ((s.clerk c n).td.getD r 0)) ws (s.clerk c n).parm = none →
    s.channelFail i x.ker ws (bits (s.clerk c n).parm.toNat 31 0) (Tile.ofBits dest).cols = none →
    ((s.core c).drain.isSome = true → ∃ t, exec (.drn c n) s = .next t ∧ Retired c n s t ∧ OtherCores c s t ∧
      t.clerk c n = { (s.clerk c n).advance 4 with state := .running, parm := 0 } ∧
      (t.core c).drainQ = [{ clerk := n, dest := dest, resid := (s.clerk c n).td.getD r 0, ph := ph, chain := ch
                             parm := (s.clerk c n).parm, after := 0 }]) ∧
    ((s.core c).drain = none → chainPerChannel ws = false → chainHas ws 2 = false → ph < (s.core c).phState.length →
      ∃ t, exec (.drn c n) s = .next t ∧ (t.core c).drainQ = [] ∧ (t.core c).phState.getD ph .free = .drain ∧
        (t.core c).drain = some { clerk := n, dest := dest, resid := (s.clerk c n).td.getD r 0, ph := ph, chain := ch
                                  parm := (s.clerk c n).parm, after := 0 } ∧
        (t.core c).drainRow = (Tile.ofBits dest).rows - 1 ∧ OtherCores c s t ∧ (t.clerk c n).parm = 0)) ∧
  (∀ (s : State) (c n d a q m k : Nat) (i : Inst) (l : List CourOp), s.clerkOp c n = some (.crr d a q) →
    (s.core c).mxeQ = [] → (s.core c).drainQ = [] → (∀ j, j < 4 → j ≠ q → (s.core c).courQ.getD j [] = []) →
    q < (s.core c).courQ.length → (s.core c).courQ.getD q [] = .walk m k :: l → l.length < 16 → (s.core c).run = some i →
    s.crrChecks i (s.execOf c) (Tile.ofBits ((s.clerk c n).td.getD d 0)) (Tile.ofBits ((s.clerk c n).td.getD a 0)) = none →
    ∃ t, exec (.crr c n) s = .next t ∧ Retired c n s t ∧ OtherCores c s t ∧
      t.clerk c n = { (s.clerk c n).advance 4 with state := .running } ∧
      { t.core c with clerks := [] } = { s.core c with
        clerks := []
        courQ := (s.core c).courQ.set q (.walk m k :: l ++
          [.crr n ((s.clerk c n).td.getD d 0) ((s.clerk c n).td.getD a 0)]) })

/-- Completions in a core (R41, R42, R49, R62): SHADOW_READY comes with the last element loaded; a BANK_SWAP exchanges the
banks for the first MXMUL with SWAP and broadcasts it; the end of a drain frees its pigeonhole; a clerk that waits issues
what it is at, as the instruction itself does.
A command whose condition does not hold leaves the state as it is (the model's choice, log 2). -/
def Obligations.BanksSwapAndDrainsEnd : Prop :=
  (∀ (s : State) (c : Nat), c < s.cores.length → (s.core c).loading.isSome = true →
    ∃ t, exec (.shadowReadySet c) s = .next t ∧ OtherCores c s t ∧ IntRaised .mxe c 0x100 s t ∧
      OtherRegs [regAddr .mxe c Reg.intStat] s t ∧
      t.core c = { s.core c with shadowReady := true, loading := none }) ∧
  (∀ (s : State) (c cl ph : Nat) (td : BitVec 128) (ai ax : Bool) (i : Inst), c < s.cores.length →
    (s.core c).mxeQ = [.mul cl td ph ai ax true] → (s.core c).drainQ = [] →
    (∀ q, q < 4 → (s.core c).courQ.getD q [] = []) → (s.core c).shadowReady = true → (s.core c).ramp = .full →
    (s.core c).drainFirst ph = false → (s.core c).run = some i → ph < (s.core c).phState.length →
    ∃ t, exec (.bankSwap c) s = .next t ∧ OtherCores c s t ∧ (t.core c).bank = 1 - (s.core c).bank ∧
      (t.core c).banks = (s.core c).banks ∧ (t.core c).shadowReady = false ∧ (t.core c).mxeQ = [] ∧
      (t.core c).phState = (s.core c).phState.set ph .accum) ∧
  (∀ (s : State) (c : Nat), (s.core c).shadowReady = false → exec (.bankSwap c) s = .next s) ∧
  (∀ (s : State) (c : Nat) (d : DrnOp), c < s.cores.length → (s.core c).drain = some d → (s.core c).unitsIdle →
    ∃ t, exec (.drainDone c) s = .next t ∧ OtherCores c s t ∧
      t.core c = { s.core c with drain := none, drainRow := 0, phState := (s.core c).phState.set d.ph .free }) ∧
  (∀ (s : State) (c n : Nat), (s.clerk c n).state = .waiting → (s.core c).unitsIdle →
    (∀ td, s.clerkOp c n = some (.mxwl td) → exec (.issueQueueRoom c n) s = exec (.mxwl c n) s) ∧
    (∀ td ph ai ax sw, s.clerkOp c n = some (.mxmul td ph ai ax sw) →
      exec (.issueQueueRoom c n) s = exec (.mxmul c n) s) ∧
    (∀ d r ph ch, s.clerkOp c n = some (.drn d r ph ch) → exec (.issueQueueRoom c n) s = exec (.drn c n) s) ∧
    (∀ d a q, s.clerkOp c n = some (.crr d a q) → exec (.issueQueueRoom c n) s = exec (.crr c n) s)) ∧
  (∀ (s : State) (c n : Nat), (s.clerk c n).state ≠ .waiting → exec (.issueQueueRoom c n) s = .next s)

/-- The VXE's operations (R53 to R57, R86 to R96, R129, R146): each VXOP whose checks pass writes the core buffer, slot
payload and counters that its operation gives, takes the parameter word, and goes on past four bytes as one instruction;
one whose checks fail ends the run.
What goes beyond the rules is the model's: log 49, a core reads what earlier commands wrote (DESIGN CHOICE). -/
def Obligations.VectorOperationsExecute : Prop :=
  ∀ (r : (Nat → Nat → Instr) × Nat × (Exec → Vx → Res)), r ∈ [
      (Instr.add, 0x01, vxBinary fadd), (Instr.sub, 0x02, vxBinary fsub), (Instr.mul, 0x03, vxBinary fmul),
      (Instr.fma, 0x04, vxFma), (Instr.min, 0x05, vxBinary fmin), (Instr.max, 0x06, vxBinary fmax),
      (Instr.cmplt, 0x07, vxBinary (fun a b => boolF32 (flt a b))),
      (Instr.cmpeq, 0x08, vxBinary (fun a b => boolF32 (feq a b))), (Instr.sel, 0x09, vxSel),
      (Instr.cvt, 0x10, vxUnary id false), (Instr.abs, 0x11, vxUnary fabs false), (Instr.neg, 0x12, vxUnary fneg false),
      (Instr.exp, 0x13, vxUnary fexp true), (Instr.log, 0x14, vxUnary flog true), (Instr.rcp, 0x15, vxUnary frcp true),
      (Instr.rsqrt, 0x16, vxUnary frsqrt true), (Instr.sigmoid, 0x17, vxUnary fsigmoid true),
      (Instr.tanh, 0x18, vxUnary ftanh true), (Instr.rsum, 0x20, vxReduce rowSum), (Instr.rmax, 0x21, vxReduce rowMax),
      (Instr.rargmax, 0x22, vxReduce rowArgmax), (Instr.rsumsq, 0x23, vxReduce rowSumSq),
      (Instr.softmaxStep, 0x30, vxSoftmaxStep), (Instr.softmaxFinal, 0x31, vxSoftmaxFinal),
      (Instr.rmsnorm, 0x32, vxNorm rmsRow), (Instr.layernorm, 0x33, vxNorm layerRow), (Instr.scan, 0x34, vxScan),
      (Instr.stateRms, 0x35, vxStateRms), (Instr.topk, 0x36, vxTopk), (Instr.pool, 0x37, vxWindow false),
      (Instr.dwconv, 0x38, vxWindow true)] →
    ∀ (s : State) (c n d a b : Nat), s.clerkOp c n = some (.vxop d a b r.2.1) →
      (∀ x, r.2.2 (s.execOf c) { d := (s.clerk c n).tile d, a := (s.clerk c n).tile a, b := (s.clerk c n).tile b
                                 parm := (s.clerk c n).parm.toNat } = .ok x → n < x.core.clerks.length →
        ∃ t, exec (r.1 c n) s = .next t ∧ OtherCores c s t ∧
          t.clerk c n = { (x.clerk n).advance 4 with state := .running, parm := 0 } ∧
          (∀ m, m ≠ n → t.clerk c m = x.clerk m) ∧ (t.core c).cbuf = x.core.cbuf ∧
          (t.core c).cbufPoison = x.core.cbufPoison ∧
          { t.core c with clerks := [], run := none } = { x.core with clerks := [], run := none }) ∧
      (∀ f, r.2.2 (s.execOf c) { d := (s.clerk c n).tile d, a := (s.clerk c n).tile a, b := (s.clerk c n).tile b
                                 parm := (s.clerk c n).parm.toNat } = .error f →
        ∃ t, exec (r.1 c n) s = .next t ∧ (t.core c).run = none)

/-- WALK_ISSUE and the requests it queues (R167 to R178): a request that passes its checks joins its courier's queue as the
clerk goes on, one off a 32-byte boundary ends the run with LOAD_CHECK 0x0601; LENGTHS writes its 16 bytes of data memory;
GATHER_K and GATHER_V copy a token's row of its page to the core buffer and count what they selected; APPEND_K and
APPEND_V copy a row of the core buffer into its page and move the pending end; BIAS writes its values. A token that is
missing ends the run.
A command whose condition does not hold leaves the state as it is (the model's choice, log 2).
What goes beyond the rules is the model's: log 12, the walker and the key-value lists (DEDUCED). -/
def Obligations.WalksGatherAppendAndMeasure : Prop :=
  (∀ (s u : State) (c n off len req r : Nat) (w : WalkReq) (i : Inst), s.Shape → s.walkStore c n = some (off, len) →
    (s.core c).run = some i → (s.core c).walkFull = false → off % 32 = 0 → off + 32 ≤ 0x8000 →
    req = ((s.execOf c).dread n off 32).2 → r = (((s.execOf c).dread n off 32).1.dread n (bits req 191 176) 16).2 →
    u = s.putExec c (((s.execOf c).dread n off 32).1.dread n (bits req 191 176) 16).1 →
    w = WalkReq.ofNat (req + r * 2 ^ 256) →
    firstFail [u.walkChecks (u.walkCtx i) w r, walkTile (u.execOf c) w] = none → ∃ t, exec (.walkIssue c n) s = .next t ∧
      t.clerk c n = { (s.clerk c n).advance len with state := .running } ∧ (∀ m, m ≠ n → t.clerk c m = s.clerk c m) ∧
      (t.core c).courQ = (s.core c).courQ.set w.courier
        ((s.core c).courQ.getD w.courier [] ++ [.walk n (req + r * 2 ^ 256)]) ∧ OtherCores c s t) ∧
  (∀ (s : State) (c n off len : Nat) (i : Inst), s.walkStore c n = some (off, len) → (s.core c).run = some i →
    (s.core c).walkFull = false → (off % 32 ≠ 0 ∨ 0x8000 < off + 32) → ∃ t, exec (.walkIssue c n) s = .next t ∧
      (t.core c).run = none ∧ ∀ j, s.item? i.item = some j → i.entry < j.entries.length → ∃ j', t.item? i.item = some j' ∧
        (j'.entry i.entry).st = .failed (s.failOf i (Fail.loadCheck 0x0601))) ∧
  (∀ (s : State) (c n off len : Nat) (i : Inst), s.walkStore c n = some (off, len) → (s.core c).run = some i →
    (s.core c).walkFull = true → ∃ t, exec (.walkIssue c n) s = .next t ∧ OtherClerks c n s t ∧
      t.clerk c n = { s.clerk c n with state := .waiting }) ∧
  (∀ (s : State) (c q cl : Nat) (i : Inst) (w : WalkReq) (x : WalkCtx) (d : LayerDir), s.Shape → cl < 4 →
    (s.core c).onlyIn q → s.headWalk c q 1 = some (i, cl, w) → s.walkCtx i = some x → s.dirOf x w.lr.layer = some d →
    ∃ t, exec (.lengths c q) s = .next t ∧ (t.core c).courQ.getD q [] = [] ∧ (t.core c).cbuf = (s.core c).cbuf ∧
      (t.clerk c cl).dmem.getRun w.dest 16 = leBytes 16 (x.cur % 2 ^ 32 * 2 ^ 96 +
        (keyFrames d x w.lr.tokens w.lr.window 0 * w.lr.tokens +
          (if d.valid then min (d.endTok + d.pending) ((x.cur + 1) * w.lr.tokens) - x.cur * w.lr.tokens else 0)) * 2 ^ 64 +
        keyFrames d x w.lr.tokens w.lr.window 0 * 2 ^ 48 + w.lr.tokens * 2 ^ 32 + x.stream)) ∧
  (∀ (s : State) (v : Bool) (c q cl : Nat) (i : Inst) (w : WalkReq) (x : WalkCtx) (d : LayerDir), (s.core c).onlyIn q →
    s.headWalk c q (if v then 3 else 2) = some (i, cl, w) → s.walkCtx i = some x → s.dirOf x w.lr.layer = some d →
    (missing x w (some d) = none → ∃ t, exec (if v then .gatherV c q else .gatherK c q) s = .next t ∧
      (t.core c).courQ.getD q [] = [] ∧ t.live .kvw c 4 = s.counted .kvw c 4 w.selection.length ∧
      ∀ a e pg, w.selection = [a] → d.pte? (d.pageOf ((x.cur - a.1) * w.lr.tokens + a.2)) = some e →
        s.page? e.da = some pg →
        (t.core c).cbuf.getRun w.dest
            (w.lr.slotAt v (d.slotOf ((x.cur - a.1) * w.lr.tokens + a.2)) w.head).2 =
          pg.data.getRun (w.lr.slotAt v (d.slotOf ((x.cur - a.1) * w.lr.tokens + a.2)) w.head).1
            (w.lr.slotAt v (d.slotOf ((x.cur - a.1) * w.lr.tokens + a.2)) w.head).2) ∧
    (∀ f, missing x w (some d) = some f → ∃ t, exec (if v then .gatherV c q else .gatherK c q) s = .next t ∧
      (t.core c).run = none ∧ (t.core c).cbuf = (s.core c).cbuf)) ∧
  (∀ (s u : State) (v : Bool) (c q cl : Nat) (i : Inst) (w : WalkReq) (x : WalkCtx) (d : LayerDir), (s.core c).onlyIn q →
    s.headWalk c q (if v then 5 else 4) = some (i, cl, w) → s.walkCtx i = some x →
    s.prepare c i x w (x.cur - w.dLo) = some u → u.dirOf x w.lr.layer = some d → (u.core c).onlyIn q →
    (u.core c).run = some i → ∃ t, exec (if v then .appendV c q else .appendK c q) s = .next t ∧
      (t.core c).courQ.getD q [] = [] ∧ t.live .kvw c 5 = u.counted .kvw c 5 w.pn ∧
      t.dirOf x w.lr.layer = some { d with
        pending := max d.pending ((x.cur - w.dLo) * w.lr.tokens + w.p0 + w.pn - d.endTok) } ∧
      ∀ e pg, w.pn = 1 → d.pte? (d.pageOf ((x.cur - w.dLo) * w.lr.tokens + w.p0)) = some e → u.page? e.da = some pg →
        ∃ pg', t.page? e.da = some pg' ∧
          pg'.data.getRun (w.lr.slotAt v (d.slotOf ((x.cur - w.dLo) * w.lr.tokens + w.p0)) w.head).1
              (w.lr.slotAt v (d.slotOf ((x.cur - w.dLo) * w.lr.tokens + w.p0)) w.head).2 =
            (u.core c).cbuf.getRun w.dest (w.lr.slotAt v (d.slotOf ((x.cur - w.dLo) * w.lr.tokens + w.p0)) w.head).2) ∧
  (∀ (s : State) (c q cl : Nat) (i : Inst) (w : WalkReq) (x : WalkCtx) (vas : List Nat), (s.core c).onlyIn q →
    s.headWalk c q 6 = some (i, cl, w) → s.walkCtx i = some x → missing x w (s.dirOf x w.lr.layer) = none →
    vas = (List.range w.qPn).flatMap (fun r => w.selection.flatMap (biasVas w r)) →
    (∀ va ∈ vas, s.mapped i.box va 4 false = true ∧ s.absentIn i.box va 4 = none ∧ s.poisonedBox i.box va 4 = false) →
    ∃ t, exec (.bias c q) s = .next t ∧ (t.core c).courQ.getD q [] = [] ∧
      t.live .kvw c 8 = s.counted .kvw c 8 (w.qPn * w.selection.length) ∧
      (w.qPn = 1 → (t.core c).cbuf.getRun w.dest (4 * w.selection.length) =
        w.selection.flatMap (fun p => leBytes 4 (s.biasElem i.box w 0 p).toNat))) ∧
  (∀ (s u : State) (b c q n : Nat) (l : List CourOp) (i : Inst) (cl : Nat) (w : WalkReq) (x : WalkCtx) (d : LayerDir),
    s.poolWait.find? (fun p => p.2.2 == b) = some (c, q, b) → (s.core c).courQ.getD q [] = .walk cl n :: l →
    w = WalkReq.ofNat n → (w.op = 4 ∨ w.op = 5) → (s.core c).onlyIn q → (s.core c).run = some i → s.walkCtx i = some x →
    (∀ p ∈ s.poolWait.erase (c, q, b), ¬(p.1 = c ∧ p.2.1 = q)) →
    ({ s with poolWait := s.poolWait.erase (c, q, b) } : State).prepare c i x w (x.cur - w.dLo) = some u →
    u.dirOf x w.lr.layer = some d → (u.core c).onlyIn q → (u.core c).run = some i → u.poolWait = s.poolWait.erase (c, q, b) →
    ∃ t, exec (.kvPoolAllocResume b) s = .next t ∧ t.poolWait = s.poolWait.erase (c, q, b) ∧
      (t.core c).poolWait = false ∧ (t.core c).courQ.getD q [] = []) ∧
  (∀ (s : State) (b : Nat), (∀ p ∈ s.poolWait, p.2.2 ≠ b) → exec (.kvPoolAllocResume b) s = .next s)

/-- The codebook unit's commands (R201 to R204, R217), taken while none waits: a CENSUS of the owner adds its area to the
slot's histogram, after clearing it unless ACCUM is set; REPLACE builds or reads its lengths and puts the slot in
REPLACING; CODEBOOK_INSTALL, with nothing in flight, makes it READY under the next generation; RELEASE empties it and
advances the generation; RESTORE, on a slot EMPTY since the start, gives it the generation named. A slot of another box
answers 1 and stands.
A command whose condition does not hold leaves the state as it is (the model's choice, log 2).
What goes beyond the rules is the model's: log 11, coded blocks: the order of the checks and the claims of a codebook
slot (DEDUCED). -/
def Obligations.CodebooksAreFilledReplacedAndReleased : Prop :=
  (∀ (s : State) (sl b a va n : Nat) (acc : Bool), s.Shape → sl < 64 → s.cb.waiting = none → (s.slot sl).st ≠ .empty →
    ((s.slot sl).owner ≠ b → ∃ t, exec (.census sl b a acc va n) s = .next t ∧
      t.cb = { s.cb with result := 1, gen := (s.slot sl).gen }) ∧
    ((s.slot sl).owner = b → a ≠ 3 → 0 < n → va % blockSize = 0 → s.mapped b va (n * blockSize) false = true →
      s.inCoded b va (n * blockSize) = false → s.inProtected b va (n * blockSize) = false →
      s.poisonedBox b va (n * blockSize) = false → ∃ t, exec (.census sl b a acc va n) s = .next t ∧
        t.slot sl = { s.slot sl with
          hist := (addCensus (if acc then (s.slot sl).hist else List.replicate 256 0)
            (blockSyms a (s.readBox b va (n * blockSize))))
          histAlphabet := a } ∧ OtherSlots sl s t ∧ t.cb.result = 0 ∧
        t.live .codebook 0 0 = s.counted .codebook 0 0 (n * blockSize))) ∧
  (∀ (s : State) (sl b : Nat), s.Shape → sl < 64 → s.cb.waiting = none → (s.slot sl).st ≠ .empty → (s.slot sl).owner = b →
    (∀ ls, buildLengths ((s.slot sl).hist.take (bookSymbols (bookOf (s.slot sl).histAlphabet))) = some ls →
      ∃ t, exec (.replaceStaged sl b) s = .next t ∧ OtherSlots sl s t ∧ t.cb.waiting = some sl ∧ t.slot sl = { s.slot sl with
        st := .replacing
        pend := some (.install (bookOf (s.slot sl).histAlphabet) (ls ++ List.replicate (256 - ls.length) 0)
          (imageTag (bookOf (s.slot sl).histAlphabet) (ls ++ List.replicate (256 - ls.length) 0))) }) ∧
    (buildLengths ((s.slot sl).hist.take (bookSymbols (bookOf (s.slot sl).histAlphabet))) = none →
      ∃ t, exec (.replaceStaged sl b) s = .next t ∧ t.cb = { s.cb with result := 3, gen := (s.slot sl).gen })) ∧
  (∀ (s : State) (sl b va : Nat) (img : List Byte), s.Shape → sl < 64 → s.cb.waiting = none → s.readImage b va = .ok img →
    ((s.slot sl).st ≠ .empty → (s.slot sl).owner = b → imageValid img = true →
      ∃ t, exec (.replaceImage sl b va) s = .next t ∧ OtherSlots sl s t ∧ t.cb.waiting = some sl ∧ t.slot sl = { s.slot sl with
        st := .replacing, pend := some (.install (imageAlphabet img) (imageLengths img) (imageTagOf img)) }) ∧
    ((s.slot sl).st = .empty ∨ (s.slot sl).owner = b → imageValid img = false →
      ∃ t, exec (.replaceImage sl b va) s = .next t ∧ t.cb = { s.cb with result := 4, gen := (s.slot sl).gen })) ∧
  (∀ (s : State) (sl b : Nat), s.Shape → sl < 64 → s.cb.waiting = none → (s.slot sl).st ≠ .empty →
    ((s.slot sl).owner = b → (s.slot sl).inflight = 0 → ∃ t, exec (.release sl b) s = .next t ∧ OtherSlots sl s t ∧
      (t.slot sl).st = .empty ∧ (t.slot sl).gen = ((s.slot sl).gen + 1) % 16 ∧ t.cb.result = 0 ∧
      t.live .codebook 0 2 = s.counted .codebook 0 2 1) ∧
    ((s.slot sl).owner = b → (s.slot sl).inflight ≠ 0 → ∃ t, exec (.release sl b) s = .next t ∧ OtherSlots sl s t ∧
      t.slot sl = { s.slot sl with st := .replacing, pend := some .release } ∧ t.cb.waiting = some sl) ∧
    ((s.slot sl).owner ≠ b → ∃ t, exec (.release sl b) s = .next t ∧
      t.cb = { s.cb with result := 1, gen := (s.slot sl).gen })) ∧
  (∀ (s : State) (sl b g va : Nat) (img : List Byte), s.Shape → sl < 64 → s.cb.waiting = none →
    s.readImage b va = .ok img → (s.slot sl).st = .empty →
    ((s.slot sl).fresh = true → imageValid img = true → s.useCodebooks b < s.cbQuota b →
      ∃ t, exec (.restore sl b g va) s = .next t ∧ OtherSlots sl s t ∧ (t.slot sl).st = .ready ∧ (t.slot sl).owner = b ∧
        (t.slot sl).gen = g % 16 ∧ (t.slot sl).alphabet = imageAlphabet img ∧ (t.slot sl).lengths = imageLengths img ∧
        (t.slot sl).fresh = false ∧ t.cb.result = 0 ∧ t.cb.gen = g % 16) ∧
    ((s.slot sl).fresh = false → ∃ t, exec (.restore sl b g va) s = .next t ∧
      t.cb = { s.cb with result := 7, gen := (s.slot sl).gen })) ∧
  (∀ (s : State) (sl a tag : Nat) (ls : List Nat), s.Shape → sl < 64 → (s.slot sl).st = .replacing → s.host.cbReply = none →
    (s.slot sl).pend = some (.install a ls tag) →
    ((s.slot sl).inflight = 0 → ∃ t, exec (.codebookInstall sl) s = .next t ∧ OtherSlots sl s t ∧
      t.slot sl = { s.slot sl with
        st := .ready, alphabet := a, lengths := ls, tag := tag, gen := ((s.slot sl).gen + 1) % 16, pend := none } ∧
      t.cb.waiting = none ∧ t.cb.result = 0 ∧ t.cb.gen = ((s.slot sl).gen + 1) % 16 ∧
      t.live .codebook 0 1 = s.counted .codebook 0 1 1) ∧
    ((s.slot sl).inflight ≠ 0 → exec (.codebookInstall sl) s = .next s))

/-- The expander and the encode buffer (R206 to R212): a block of a CODED tensor whose checks pass is decoded to the core
buffer, whole; one whose check fails ends the run with that check's failure; bytes written through a CODED tensor stand in
the encode buffer until their block is written out; a complete block and the first of a buffer that is written out leave
the buffer as encoded blocks.
A command whose condition does not hold leaves the state as it is (the model's choice, log 2).
What goes beyond the rules is the model's: log 11, coded blocks: the order of the checks and the claims of a codebook
slot (DEDUCED). -/
def Obligations.BlocksAreDecodedAndEncoded : Prop :=
  (∀ (s : State) (c n va dest : Nat) (i : Inst) (d : TensorDesc) (r : Region), c < 68 → (s.core c).run = some i →
    s.tensorOf i n = some d → s.region? i.box va blockSize = some r → d.coded = true → (va - r.base) % blockSize = 0 →
    dest + blockSize ≤ cbufBytes - s.windowBytes c → (∀ b ∈ (s.core c).enc, ¬(b.box = i.box ∧ b.va = va)) →
    (∀ bytes mode k, s.readBlock i.box r va false = .ok bytes mode k → ∃ t, exec (.expanderDecodeBlock c n va dest) s = .next t ∧
      (t.core c).cbuf.getRun dest bytes.length = bytes ∧ OtherCores c s t ∧ (t.core c).run = some i ∧
      (mode = 1 → t.live .exp c 1 = s.counted .exp c 1 1) ∧ (mode = 2 → t.live .exp c 0 = s.counted .exp c 0 1 ∧
        t.live .exp c 3 = s.counted .exp c 3 k) ∧ (mode = 3 → t.live .exp c 2 = s.counted .exp c 2 1)) ∧
    (∀ k slot gen, s.readBlock i.box r va false = .bad k slot gen →
      ∃ t, exec (.expanderDecodeBlock c n va dest) s = .next t ∧ (t.core c).run = none ∧
        t.reg (regAddr .exp c Reg.exp_expErrVaLo) = BitVec.ofNat 32 va ∧
        ∀ j, s.item? i.item = some j → i.entry < j.entries.length → ∃ j', t.item? i.item = some j' ∧
          (j'.entry i.entry).st = .failed (s.failOf i (blockFail (some d) n va k))) ∧
    (∀ slot, s.readBlock i.box r va false = .wait slot → ∃ t, exec (.expanderDecodeBlock c n va dest) s = .next t ∧
      (t.core c).cbWait = true ∧ (t.core c).cbuf = (s.core c).cbuf ∧ (t.core c).run = some i)) ∧
  (∀ (s : State) (c n va : Nat) (data : List Byte) (i : Inst) (d : TensorDesc), (s.core c).run = some i →
    s.tensorOf i n = some d → d.coded = true → d.writable = true → (s.region? i.box va data.length).isSome = true →
    0 < data.length → va % blockSize + data.length ≤ blockSize → (s.core c).enc.length < 32 →
    ∃ t b, exec (.encodeBufferWrite c n va data) s = .next t ∧ b ∈ (t.core c).enc ∧ b.box = i.box ∧
      b.va = va - va % blockSize ∧ b.data.getRun (va % blockSize) data.length = data ∧ t.mem = s.mem ∧ OtherCores c s t ∧
      ∀ k, k < data.length → va % blockSize + k ∈ b.written) ∧
  (∀ (s : State) (c : Nat) (b : EncBlk) (l : List EncBlk) (r : Region), c < s.cores.length → (s.core c).enc = b :: l →
    b.complete = true → s.region? b.box b.va blockSize = some r →
    ¬(r.thresh ≠ 0 ∧ (s.slot r.slot).st = .replacing ∧ (s.slot r.slot).owner = b.box) →
    s.absentIn b.box b.va blockSize = none → s.absentIn b.box (r.envVa b.va) 16 = none →
    (∃ t, exec (.encodeBufferWriteout c) s = .next t ∧ (t.core c).enc = l ∧ (t.core c).run = (s.core c).run) ∧
    ∃ t, exec (.encodeBlock c b.va) s = .next t ∧ (t.core c).enc = l ∧ (t.core c).run = (s.core c).run) ∧
  (∀ (s : State) (c va : Nat) (b : EncBlk), (s.core c).enc.find? (fun b => b.va == va) = some b → b.complete = false →
    exec (.encodeBlock c va) s = .next s)

/-- CAS, FETCH_ADD, SWAP and a write to a REDUCE page, in HBM (R226, R227): the eight bytes become the new word, or those of
one element the reduction of old and new; every other byte of memory stands, and the old word is answered. One that is not
aligned, or names no memory, changes nothing.
A command whose condition does not hold leaves the state as it is (the model's choice, log 2).
What goes beyond the rules is the model's: log 49, a core reads what earlier commands wrote (DESIGN CHOICE). -/
def Obligations.AtomicsChangeOneWord : Prop :=
  (∀ (s : State) (da : Nat) (old a b : W64), s.home da ≠ .none → da % 8 = 0 → da + 8 ≤ flashBase →
    old = BitVec.ofNat 64 (leNat ((List.range 8).map (fun i => s.byteAt (da + i)))) →
    ∀ p ∈ [(Instr.cas da a b, if old = a then b else old), (Instr.fetchAdd da a, old + a), (Instr.swap da a, a)],
      ∃ t, exec p.1 s = .next t ∧ t.outbox = .atomic old (s.poisonAt da) :: s.outbox ∧
        (∀ i, i < 8 → t.byteAt (da + i) = (leBytes 8 p.2.toNat).getD i 0) ∧
        (∀ x, (x < da ∨ da + 8 ≤ x) → t.byteAt x = s.byteAt x) ∧
        t.live .dcache (homeDie da) 3 = s.counted .dcache (homeDie da) 3 1 ∧ t.boxes = s.boxes ∧ t.regs = s.regs) ∧
  (∀ (s : State) (da : Nat) (a b : W64), (s.home da = .none ∨ da % 8 ≠ 0) → exec (.cas da a b) s = .next s ∧
    exec (.fetchAdd da a) s = .next s ∧ exec (.swap da a) s = .next s) ∧
  (∀ (s : State) (b va : Nat) (e : W64) (data : List Byte), s.pte? b va = some e → pteReduce e ≠ 0 →
    data.length = reduceWidth (pteReduce e) → va % data.length = 0 → s.mapped b va data.length true = true →
    s.da b va + 8 ≤ flashBase → ∃ t, exec (.reductionWrite b va data) s = .next t ∧
      (∀ i, i < data.length → t.byteAt (s.da b va + i) = (leBytes data.length (reduceOp (pteReduce e)
        (leNat ((List.range data.length).map (fun j => s.byteAt (s.da b va + j)))) (leNat data))).getD i 0) ∧
      (∀ x, (x < s.da b va ∨ s.da b va + data.length ≤ x) → t.byteAt x = s.byteAt x) ∧
      t.live .dcache (homeDie (s.da b va)) 4 = s.counted .dcache (homeDie (s.da b va)) 4 1) ∧
  (∀ (s : State) (b va : Nat) (e : W64) (data : List Byte), s.pte? b va = some e → pteReduce e = 0 →
    exec (.reductionWrite b va data) s = .next s)

/-- The regulator, HBM channels and evacuation (R228 to R233): a request that waited is admitted once its box's tokens are
not negative, and pays; a temperature report sets the level, recording one that changes to 1 or more; a channel mapped out
is marked, and its die evacuated unless memory was empty; each page copied is redirected; the end of the evacuation takes
the channels off; in a quiet window a page comes back below the top; a ninth channel of a die is refused.
A command whose condition does not hold leaves the state as it is (the model's choice, log 2).
What goes beyond the rules is the model's: log 7, a regulator that was never used holds its full burst of tokens
(DESIGN CHOICE); log 18, ties and addresses that firmware chooses (DESIGN CHOICE). -/
def Obligations.MemoryIsRegulatedAndEvacuated : Prop :=
  (∀ (s : State) (d b n at' : Nat), d < 4 → s.Shape → (s.die d).waiting.find? (fun w => w.1 == b) = some (b, n, at') →
    (0 ≤ s.tokensNow d b ∨ s.regRate d b = 0 → ∃ t, exec (.regulatorAdmit d b) s = .next t ∧ OtherDies d s t ∧
      (t.die d).waiting = (s.die d).waiting.erase (b, n, at') ∧ (t.die d).admitted = b :: (s.die d).admitted ∧
      (t.die d).tokens.find? (fun p => p.1 == b) = some (b, s.tokensNow d b - n) ∧
      t.live .dcache d 5 = s.counted .dcache d 5 (s.time.t - at')) ∧
    (s.tokensNow d b < 0 → s.regRate d b ≠ 0 → exec (.regulatorAdmit d b) s = .next s)) ∧
  (∀ (s : State) (k c l : Nat), s.Shape → k < 12 → l = max (levelOf c) (levelDown c (s.stack k).level) →
    ∃ t, exec (.hbmTempReport k c) s = .next t ∧ t.stack k = { s.stack k with temp := c, level := l } ∧ OtherStacks k s t ∧
      (l ≠ (s.stack k).level → IntRaised .hbm k 0x100 s t) ∧
      (l ≠ (s.stack k).level → 1 ≤ l → Recorded { pageRec .hbm k 0x0400 .warning with a := l, b := c } s t) ∧
      (l = (s.stack k).level ∨ l = 0 → t.log = s.log)) ∧
  (∀ (s : State) (k ch : Nat), s.Shape → k < 12 → ch < 16 → ch ∉ (s.stack k).mappedOut →
    (8 ≤ s.outCount (k / 3) → ∃ t, exec (.channelMapout k ch 1) s = .next t ∧ t.hbm = s.hbm ∧ t.dies = s.dies ∧
      Recorded { pageRec .hbm k 0x0404 .error with unit := 16 * k + ch, a := k / 3 } s t) ∧
    (s.outCount (k / 3) < 8 → ∃ t, exec (.channelMapout k ch 4) s = .next t ∧
      (t.stack k).mappedOut = setInsert (s.stack k).mappedOut ch ∧ OtherStacks k s t ∧ OtherDies (k / 3) s t ∧
      t.die (k / 3) = { s.die (k / 3) with channels := (s.die (k / 3)).channels - 1 } ∧
      t.sec.mapouts = setInsert s.sec.mapouts (16 * k + ch) ∧
      Recorded { pageRec .hbm k 0x0401 .error with unit := 16 * k + ch, a := 4 } s t) ∧
    (s.outCount (k / 3) < 8 → (∃ t, exec (.hbmMapoutGo k ch) s = .next t ∧
      (t.stack k).mappedOut = setInsert (s.stack k).mappedOut ch ∧ ch ∈ (t.stack k).leaving ∧ OtherStacks k s t ∧
      (t.die (k / 3)).evacuating = true ∧ (t.die (k / 3)).pendingOut = (s.die (k / 3)).pendingOut + 1 ∧
      (t.die (k / 3)).channels = (s.die (k / 3)).channels) ∧
      exec (.channelMapout k ch 3) s = exec (.hbmMapoutGo k ch) s)) ∧
  (∀ (s : State) (d p : Nat) (r : Redirect), s.Shape → d < 4 → (s.die d).toMove.find? (fun r => r.page == p) = some r →
    (s.resourceUp = true → ∃ t, exec (.evacuationPageCopy d p) s = .next t ∧ OtherDies d s t ∧ t.mem = s.mem ∧
      t.die d = { s.die d with
        toMove := (s.die d).toMove.filter (fun x => x.page != p)
        redirects := r :: (s.die d).redirects.filter (fun x => x.page != p) } ∧
      t.live .dcache d 7 = s.counted .dcache d 7 pageSize ∧ IntRaised .dcache d 0x100 s t) ∧
    (s.resourceUp = false → exec (.evacuationPageCopy d p) s = .next s)) ∧
  (∀ (s : State) (d : Nat), s.Shape → d < 4 → (s.die d).evacuating = true → (s.die d).toMove = [] →
    (s.die d).stopped = false → ∃ t, exec (.evacuationDone d) s = .next t ∧ OtherDies d s t ∧ IntRaised .dcache d 0x100 s t ∧
      t.die d = { s.die d with
        channels := (s.die d).channels - (s.die d).pendingOut, pendingOut := 0, evacuating := false } ∧
      (∀ i, i < 3 → (t.stack (3 * d + i)).leaving = []) ∧
      Recorded { pageRec .dcache d 0x0402 .notice with a := (s.die d).channels - (s.die d).pendingOut } s t) ∧
  (∀ (s : State) (d p : Nat), s.Shape → d < 4 → s.time.window.isSome = true → s.resourceUp = true →
    (∃ r ∈ (s.die d).redirects, r.page = p) → p - d * diePages < (s.die d).channels * 2048 →
    ∃ t, exec (.redirectCopyBack d p) s = .next t ∧ OtherDies d s t ∧ IntRaised .dcache d 0x100 s t ∧
      t.die d = { s.die d with redirects := (s.die d).redirects.filter (fun r => r.page != p) }) ∧
  (∀ (s : State) (d p : Nat), s.time.window = none → exec (.redirectCopyBack d p) s = .next s)

/-- Granules of the tier (R234 to R236): a touch of an absent one begins its fill once, or joins the fill that goes on; when
a fill or a write-back ends every byte of memory reads as before; a write that waited applies then and dirties the granule;
in a quiet window the granules that have been dirty for AGE rounds begin their write-back.
A command whose condition does not hold leaves the state as it is (the model's choice, log 2). -/
def Obligations.GranulesFillAndAreWrittenBack : Prop :=
  (∀ (s : State) (b va : Nat) (e : W64), s.pte? b va = some e →
    (pteDa e + va % pageSize < flashBase → exec (.absentTouch b va) s = .next s) ∧
    (flashBase ≤ pteDa e + va % pageSize → s.granule? (granuleOf (pteDa e + va % pageSize)) = none →
      (s.share (granuleOf (pteDa e + va % pageSize) % 4)).length < s.poolShare →
      ∃ t g, exec (.absentTouch b va) s = .next t ∧ t.granule? (granuleOf (pteDa e + va % pageSize)) = some g ∧
        g.st = .filling ∧ g.waits = [.touch b va] ∧ g.pin = decide (pteHint e = 1) ∧ t.mem = s.mem ∧
        t.live .tier 0 0 = s.counted .tier 0 0 1) ∧
    (∀ g, flashBase ≤ pteDa e + va % pageSize → s.granule? (granuleOf (pteDa e + va % pageSize)) = some g →
      (g.st = .filling → ∃ t, exec (.absentTouch b va) s = .next t ∧
        t.granule? (granuleOf (pteDa e + va % pageSize)) = some { g with waits := g.waits ++ [.touch b va] }) ∧
      (g.st ≠ .filling → exec (.absentTouch b va) s = .next s))) ∧
  (∀ (s : State) (n : Nat) (g : Granule) (bad : Bool), s.granule? n = some g → g.st = .filling → s.tier.paused = false →
    ∃ t, exec (.granuleFillDone n bad) s = .next t ∧ t.granule? n = some { g with st := .clean, waits := [] } ∧
      (∀ a, t.byteAt a = s.byteAt a) ∧ t.tier.flash = s.tier.flash ∧ t.live .tier 0 2 = s.counted .tier 0 2 65536 ∧
      (bad = true → (∀ a, granuleBase n ≤ a → a < granuleBase n + 65536 → t.poisonAt a = true) ∧
        Recorded { pageRec .tier 0 0x0500 .error with b := granuleBase n } s t)) ∧
  (∀ (s : State) (n : Nat) (g : Granule), s.granule? n = some g → g.st = .writing → s.canWriteBack = true →
    ((∀ da bs, GrWait.write da bs ∉ g.waits) → ∃ t, exec (.granuleWritebackDone n) s = .next t ∧
      (∀ a, t.byteAt a = s.byteAt a) ∧ t.mem = s.mem ∧ t.live .tier 0 3 = s.counted .tier 0 3 65536 ∧
      (∀ a, granuleBase n ≤ a → a < granuleBase n + 65536 → cellGet 0 t.tier.flash a = cellGet 0 s.mem a) ∧
      (g.drop = true → t.granule? n = none) ∧
      (g.drop = false → t.granule? n = some { g with st := .clean, waits := [], drop := false })) ∧
    (∀ da bs, g.waits = [.write da bs] → bs ≠ [] → flashBase ≤ da → granuleOf da = n →
      granuleOf (da + bs.length - 1) = n → ∃ t g', exec (.granuleWritebackDone n) s = .next t ∧ t.granule? n = some g' ∧
        g'.st = .dirty ∧ g'.since = s.roundNow ∧ (∀ i, i < bs.length → t.byteAt (da + i) = bs.getD i 0) ∧
        (∀ a, (a < da ∨ da + bs.length ≤ a) → t.byteAt a = s.byteAt a))) ∧
  (∀ s : State, s.time.window.isSome = true → s.canWriteBack = true → s.field .tier 0 Reg.tier_tierCtrl 15 0 ≠ 0 →
    ∃ t, exec .ageWriteback s = .next t ∧ t.mem = s.mem ∧ t.tier.flash = s.tier.flash ∧
      ∀ n g, s.granule? n = some g →
        (g.st = .dirty → g.since + s.field .tier 0 Reg.tier_tierCtrl 15 0 ≤ s.roundNow →
          t.granule? n = some { g with st := .writing }) ∧
        (g.st ≠ .dirty → t.granule? n = some g)) ∧
  (∀ s : State, s.time.window = none → exec .ageWriteback s = .next s)

/-- Tier commands and the flash (R237 to R240, R245): FLUSH cleans what is dirty in its range and no byte reads otherwise;
EVICT and DISCARD leave no idle granule of it; PREFETCH begins the fill of an absent one; a range not mapped answers 1, and
FLUSH and EVICT answer 2 while flash is READ_ONLY. Blocks to relocate are relocated in quiet windows and where a read count
asks; a retired block is noted once; FLASH_STATE follows spare and wear and never goes back; WRITE_HELD is as its pin.
A command whose condition does not hold leaves the state as it is (the model's choice, log 2). -/
def Obligations.TierCommandsAndFlash : Prop :=
  (∀ (s : State) (b va u : Nat), s.tier.cmd = none → s.tier.paused = false →
    (s.tierRange b va u = none → ∀ c ∈ [Instr.prefetch b va u, .tierFlush b va u, .tierEvict b va u, .discard b va u],
      ∃ t, exec c s = .next t ∧ t.tier = { s.tier with result := 1 } ∧ t.mem = s.mem) ∧
    (∀ gs, s.tierRange b va u = some gs → s.tier.state = .readOnly →
      ∀ c ∈ [Instr.tierFlush b va u, .tierEvict b va u], ∃ t, exec c s = .next t ∧
        t.tier = { s.tier with result := 2 } ∧ t.mem = s.mem) ∧
    (∀ gs, s.tierRange b va u = some gs → s.tier.state ≠ .readOnly →
      (∃ t, exec (.tierFlush b va u) s = .next t ∧ t.tier.result = 0 ∧ (∀ a, t.byteAt a = s.byteAt a) ∧
        ∀ p g, p ∈ gs → s.granule? p.1 = some g →
          t.granule? p.1 = some { g with st := if g.st = .dirty then .clean else g.st }) ∧
      (∃ t, exec (.tierEvict b va u) s = .next t ∧ t.tier.result = 0 ∧ t.mem = s.mem ∧
        ∀ p g, p ∈ gs → s.granule? p.1 = some g → g.st ≠ .filling → g.st ≠ .writing → t.granule? p.1 = none ∧
          (g.st = .dirty → ∀ a, granuleBase p.1 ≤ a → a < granuleBase p.1 + 65536 → t.byteAt a = s.byteAt a))) ∧
    (∀ gs, s.tierRange b va u = some gs → ∃ t, exec (.discard b va u) s = .next t ∧ t.tier.result = 0 ∧ t.mem = s.mem ∧
      t.tier.flash = s.tier.flash ∧
      ∀ p g, p ∈ gs → s.granule? p.1 = some g → g.st ≠ .filling → g.st ≠ .writing → t.granule? p.1 = none) ∧
    (∀ p, s.tierRange b va u = some [p] → s.granule? p.1 = none → (s.share (p.1 % 4)).length < s.poolShare →
      ∃ t g, exec (.prefetch b va u) s = .next t ∧ t.tier.result = 0 ∧ t.granule? p.1 = some g ∧ g.st = .filling ∧
        g.waits = [])) ∧
  (∀ (s : State) (b va u : Nat), s.tier.cmd = none → s.tier.paused = true → ∃ t, exec (.tierFlush b va u) s = .next t ∧
    t.tier = { s.tier with cmd := some (2, b, va, u) }) ∧
  (∀ s : State, s.time.window.isSome = true → s.tier.paused = false → ∃ t, exec .flashHousekeeping s = .next t ∧
    t.tier.relocate = [] ∧ t.live .tier 0 5 = s.counted .tier 0 5 s.tier.relocate.length ∧ t.tier.flash = s.tier.flash ∧
    ∀ p ∈ t.tier.blockReads, p.1 ∉ s.tier.relocate) ∧
  (∀ (s : State) (n : Nat), s.tier.paused = false → ∃ t, exec (.readDisturbRelocate n) s = .next t ∧
    t.tier = { s.tier with
      relocate := s.tier.relocate.erase n, blockReads := s.tier.blockReads.filter (fun p => p.1 != n) } ∧
    t.live .tier 0 5 = s.counted .tier 0 5 1) ∧
  (∀ (s : State) (n : Nat), (n ∉ s.tier.retired → ∃ t, exec (.flashBlockRetire n) s = .next t ∧
      t.tier = { s.tier with retired := setInsert s.tier.retired n } ∧ t.live .tier 0 6 = s.counted .tier 0 6 1 ∧
      Recorded { pageRec .tier 0 0x0501 .warning with a := n } s t) ∧
    (n ∈ s.tier.retired → exec (.flashBlockRetire n) s = .next s)) ∧
  (∀ (s : State) (p w : Nat), ∃ t, exec (.flashStateChange p w) s = .next t ∧ t.tier = { s.tier with
      spare := some (min p 255), wearPct := min w 255
      state := (if p < 5 ∨ s.tier.state = .readOnly then .readOnly
        else if p < 20 ∨ 90 ≤ w ∨ s.tier.state = .degraded then .degraded else .normal) } ∧
    (t.tier.state ≠ s.tier.state → IntRaised .tier 0 0x100 s t ∧
      Recorded { pageRec .tier 0 0x0502 .warning with a := s.tier.state.code, b := t.tier.state.code } s t) ∧
    (t.tier.state = s.tier.state → t.log = s.log ∧ t.regs = s.regs)) ∧
  (∀ (s : State) (low : Bool), ∃ t, exec (.writeHeld low) s = .next t ∧ t.tier = { s.tier with writeHeld := low } ∧
    (low ≠ s.tier.writeHeld → IntRaised .tier 0 0x100 s t) ∧ (low = s.tier.writeHeld ∨ low = false → t.log = s.log) ∧
    (low = true → s.tier.writeHeld = false → Recorded { pageRec .tier 0 0x0503 .warning with a := 0 } s t))

/-- A box's states (R267 to R270, R273): ENABLE of a DISABLED box makes it ACTIVE for the session, in any other state it is
flagged and changes no box; DISABLE begins the drain and fails what has not started with BOX_DISABLED; at the drain limit
what runs fails, with DEADLINE where its deadline has passed and ABORTED otherwise; with nothing running the box is
QUIESCING; its release, once no write is outstanding and no move goes on, removes its groups and makes it DISABLED.
A command whose condition does not hold leaves the state as it is (the model's choice, log 2).
What goes beyond the rules is the model's: log 5, time moves only with the commands that stand for timed events
(DESIGN CHOICE); log 27, what the module holds for itself (DESIGN CHOICE). -/
def Obligations.BoxesOpenDrainAndRelease : Prop :=
  (∀ (s : State) (b se : Nat), s.Shape → b < 64 →
    ((s.box b).state = .disabled → (s.holdBox b).isSome = true → ∃ t, exec (.boxEnable b se) s = .next t ∧
      (t.box b).state = .active ∧ (t.box b).session = some se ∧ (t.box b).lastSync = none ∧ (t.box b).drainOver = false) ∧
    ((s.box b).state ≠ .disabled → ∃ t, exec (.boxEnable b se) s = .next t ∧ t.boxes = s.boxes ∧
      bit (t.regN .box b Reg.errStat) 0 = true)) ∧
  (∀ (s : State) (b : Nat), s.Shape → b < 64 →
    ((s.box b).state = .active → ∃ t, exec (.boxDisable b) s = .next t ∧ (t.box b).state = .draining ∧
      (t.box b).disabledAt = s.time.t ∧ (t.box b).step = 2 ∧ t.time = s.time ∧
      (∀ id i, s.item? id = some i → i.box = b → i.disp = none → i.pos = s.pos → i.state ≠ .started →
        ∃ j, t.item? id = some j ∧ j.disp = some (.failed { reason := .boxDisabled }))) ∧
    ((s.box b).state ≠ .active → ∃ t, exec (.boxDisable b) s = .next t ∧ t.boxes = s.boxes ∧ t.items = s.items ∧
      bit (t.regN .box b Reg.errStat) 0 = true)) ∧
  (∀ (s : State) (b : Nat), s.Shape → b < 64 → (s.box b).state = .draining → (s.box b).drainOver = false →
    ∃ t, exec (.boxDrainLimit b) s = .next t ∧ (t.box b).drainOver = true ∧ (t.box b).step = 4 ∧
      t.time = { s.time with t := max s.time.t ((s.box b).disabledAt + s.drainLimit b) } ∧
      (∀ id i, s.item? id = some i → i.box = b → i.disp = none → i.pos = s.pos → i.state = .started →
        ∃ j, t.item? id = some j ∧ ((i.deadline = none ∨ i.soft = true) → j.disp = some (.failed { reason := .aborted })) ∧
          (∀ d, i.deadline = some d → i.soft = false → j.disp = some (.failed { reason := (if d ≤ max s.time.t
            ((s.box b).disabledAt + s.drainLimit b) then .deadline else .aborted) })))) ∧
  (∀ (s : State) (b : Nat), s.Shape → b < 64 → (s.box b).state = .draining →
    (s.runningItems b = [] ∨ (s.box b).drainOver = true → ∃ t, exec (.boxQuiesce b) s = .next t ∧
      (t.box b).state = .quiescing ∧ (t.box b).step = 5 ∧ IntRaised .box b 0x100 s t ∧
      ∀ i ∈ t.items, i.box = b → i.heldCollection = false) ∧
    (s.runningItems b ≠ [] → (s.box b).drainOver = false → exec (.boxQuiesce b) s = .next s)) ∧
  (∀ (s : State) (b : Nat), s.Shape → b < 64 → (s.box b).state = .quiescing → s.boxOutstanding b = false →
    (s.boxMoving b = false → s.resourceUp = true → ∃ t, exec (.boxRelease b) s = .next t ∧ (t.box b).state = .disabled ∧
      (t.box b).session = none ∧ (t.box b).subs = [] ∧ (t.box b).cq = none ∧ (t.box b).regions = [] ∧
      (∀ g ∈ t.groups, g.box ≠ b) ∧
      t.log.queue.getLast? = some { pageRec .box b 0x0600 .notice with box := some b }) ∧
    (s.boxMoving b = true → ∃ t, exec (.boxRelease b) s = .next t ∧ (t.box b).state = .releasing ∧ (t.box b).step = 6 ∧
      OtherBoxes b s t ∧ t.groups = s.groups ∧ IntRaised .box b 0x100 s t)) ∧
  (∀ (s : State) (b : Nat), ((s.box b).state = .active ∨ (s.box b).state = .draining ∨ (s.box b).state = .disabled ∨
    ((s.box b).state = .quiescing ∧ s.boxOutstanding b = true)) → exec (.boxRelease b) s = .next s)

/-- Moves, arena waits and mirrors (R125, R137, R139 to R144): the end of an outbound move leaves the stream AWAY with its
slot in poste restante; the end of an inbound one checks the header and leaves it RESIDENT, or FAULTED where the check
fails; an OPEN_GROUP that waited takes its slot; an acknowledged mirror is in step and one that timed out UNPROTECTED, and
no completion waits for either; the groups of a dead position are adopted, their mirrored streams AWAY; in a quiet window
a whole mirror goes to the new buddy.
A command whose condition does not hold leaves the state as it is (the model's choice, log 2).
What goes beyond the rules is the model's: log 18, ties and addresses that firmware chooses (DESIGN CHOICE); log 34,
whether an adopted stream is FAULTED is a free choice (DESIGN CHOICE). -/
def Obligations.StreamsMoveAndMirror : Prop :=
  (∀ (s : State) (n : Nat) (p : Place) (g : Group), s.Shape → s.place? n = some p → s.groupOf n = some g → g.home < 4 →
    p.live = true → s.waitersOf n = [] →
    (p.residency = .outbound → ∃ t, exec (.outboundMoveDone n) s = .next t ∧ OtherPlaces n s t ∧
      t.place? n = some { p with
        residency := .away, held := false, poste := some (p.arena.getD {}), arena := none, arenaDa := 0
        faulted := p.faulted || (p.arena.getD {}).bad } ∧ t.live .fork g.home 0 = s.counted .fork g.home 0 1) ∧
    (p.residency = .inbound → headerFault p (p.poste.getD {}) = none → (p.poste.getD {}).bad = false →
      ∃ t, exec (.inboundMoveDone n) s = .next t ∧ OtherPlaces n s t ∧ t.place? n = some { p with
        residency := .resident, held := false, arena := some (p.poste.getD {}), poste := none, waitAt := none
        lastUse := s.roundNow } ∧ t.live .fork g.home 1 = s.counted .fork g.home 1 1 ∧ t.log = s.log) ∧
    (p.residency = .inbound → headerFault p (p.poste.getD {}) ≠ none → ∃ t q, exec (.inboundMoveDone n) s = .next t ∧
      t.place? n = some q ∧ q.residency = .resident ∧ q.faulted = true)) ∧
  (∀ (s : State) (n : Nat) (p : Place), s.place? n = some p → (p.residency = .resident ∨ p.residency = .away) →
    exec (.outboundMoveDone n) s = .next s ∧ exec (.inboundMoveDone n) s = .next s) ∧
  (∀ (s : State) (b : Nat) (i : Item) (p : Place) (g : Group), s.item? i.id = some i → i.kind = 0x01 → i.disp = none →
    pickFirst s.before ((s.arenaWait.filterMap (fun w => s.item? w.1)).filter (fun i => i.box == b)) = some i →
    i.took = true → 0 < i.entries.length → s.place? (i.entry 0).stream = some p → s.groupOf (i.entry 0).stream = some g →
    p.live = false → s.mapped i.box (i.argC + 64) (g.slotSize - 64) false = true →
    s.poisonedBox i.box (i.argC + 64) (g.slotSize - 64) = false → s.mayTake i 0 g.slotSize = true →
    ∃ t q, exec (.arenaWaitResume b) s = .next t ∧ t.arenaWait = s.arenaWait.erase (i.id, 0) ∧
      t.place? (i.entry 0).stream = some q ∧ q.live = true ∧ q.arena.isSome = true ∧ OtherPlaces (i.entry 0).stream s t) ∧
  (∀ (s : State) (b : Nat), s.arenaWait = [] → exec (.arenaWaitResume b) s = .next s) ∧
  (∀ (s : State) (n : Nat) (p : Place), s.place? n = some p →
    (p.mirrorSent.isSome = true → ∃ t, exec (.mirrorAck n) s = .next t ∧ OtherPlaces n s t ∧
      t.place? n = some { p with mirrorSent := none, mirror := .inStep } ∧ ∀ i ∈ t.items, n ∉ i.mirrorWait) ∧
    (p.mirrorSent = none → exec (.mirrorAck n) s = .next s)) ∧
  (∀ (s : State) (n at' : Nat) (p : Place) (g : Group), s.place? n = some p → s.groupOf n = some g →
    p.mirrorSent = some at' → ∃ t, exec (.mirrorTimeout n) s = .next t ∧ OtherPlaces n s t ∧
      t.place? n = some { p with mirrorSent := none, mirror := .unprotected } ∧ (∀ i ∈ t.items, n ∉ i.mirrorWait) ∧
      t.time = { s.time with t := max s.time.t (at' + s.mirrorTimeout g.home) } ∧
      ∃ l, t.log.queue = s.log.queue ++
        { pageRec .fork g.home 0x0203 .warning with box := some g.box, a := n, b := g.buddy } :: l) ∧
  (∀ (s : State) (pos : Nat),
    (s.fab.members.getD pos .absent = .dead → ∃ t, exec (.adoption pos) s = .next t ∧
      (∀ g ∈ t.groups, g.guest ≠ some pos) ∧ (∀ m ∈ t.mirrors, m.src ≠ pos) ∧ (∀ p ∈ t.mirrorPages, p.src ≠ pos) ∧
      ∀ g m p, g ∈ s.groups → g.guest = some pos → m ∈ s.mirrors → m.src = pos → m.stream ∈ g.streams →
        s.place? m.stream = some p → ∃ q, t.place? m.stream = some q ∧ q.live = true ∧ q.residency = .away ∧
          q.mirror = .none ∧ q.poste.isSome = true) ∧
    (s.fab.members.getD pos .absent ≠ .dead → exec (.adoption pos) s = .next s)) ∧
  (∀ (s : State) (n : Nat) (p : Place) (g : Group), s.place? n = some p → s.groupOf n = some g → p.live = true →
    p.mirror = .resync → p.mirrorSent = none → (p.arena.or p.poste).isSome = true →
    (s.time.window.isSome = true → ∃ t, exec (.mirrorResync n) s = .next t ∧ OtherPlaces n s t ∧
      t.place? n = some { p with mirrorSent := some s.time.t } ∧ ∃ x ∈ t.fab.sent, x.dest = g.buddy ∧ x.cls = 3) ∧
    (s.time.window = none → exec (.mirrorResync n) s = .next s))

/-- A link's states (R277, R278, R280, R423): DETECT goes to TRAIN where each lane is sound; TRAIN to NEGOTIATE, or to
MISWIRED, recorded, where the far end is not the one the topology gives; NEGOTIATE to UP at the lower version; RETRAIN
that takes too long to DOWN, and DOWN to DETECT again; an UP link that retrains keeps no packet of its own; a RETRAIN leaves MISWIRED; LINK_CTRL
disables and enables.
A command whose condition does not hold leaves the state as it is (the model's choice, log 2).
What goes beyond the rules is the model's: log 30, membership, succession and formation (DESIGN CHOICE); log 35,
negotiation with a dead or barred module leads to FENCED or JOINING by a free choice (DESIGN CHOICE). -/
def Obligations.LinksDetectTrainAndComeUp : Prop :=
  (∀ (s : State) (p a b c d : Nat), s.Shape → p < 24 → (s.link p).st = .detect → s.linkEnabled p = true → a < 6 → b < 6 →
    c < 6 → d < 6 → ∃ t, exec (.linkDetect p a b c d) s = .next t ∧ OtherLinks p s t ∧ IntRaised .link p 0x100 s t ∧
      t.link p = { s.link p with
        lanes := [a, b, c, d], lanesOk := 0, polarity := false, reversed := false
        st := (if (a = 0 ∨ a = 5) ∧ (b = 0 ∨ b = 5) ∧ (c = 0 ∨ c = 5) ∧ (d = 0 ∨ d = 5) then .train else .detect) }) ∧
  (∀ (s : State) (p fp fq fs : Nat) (pol rev : Bool), s.Shape → p < 24 → ((s.link p).st = .train ∨ (s.link p).st = .retrain) →
    s.linkEnabled p = true →
    (s.farEnd p = some (fp, fq) → ∃ t, exec (.linkTrainDone p fp fq fs pol rev) s = .next t ∧ OtherLinks p s t ∧
      t.link p = { s.link p with
        st := .negotiate, lanesOk := 15, polarity := pol, reversed := rev
        nPos := fp % 64, nPort := fq % 32, nStepping := fs % 2 } ∧ t.log = s.log) ∧
    (s.farEnd p ≠ some (fp, fq) → ∃ t, exec (.linkTrainDone p fp fq fs pol rev) s = .next t ∧ OtherLinks p s t ∧
      (t.link p).st = .miswired ∧ Recorded { pageRec .link p 0x0701 .error with a := fp, b := fq } s t)) ∧
  (∀ (s : State) (p v : Nat), s.Shape → p < 24 → (s.link p).st = .negotiate → 1 ≤ v → s.fab.role = .none → s.fab.sysVer = 0 →
    ∃ t, exec (.linkNegotiate p v) s = .next t ∧ (t.link p).st = .up ∧ (t.link p).version = min s.ownVersion v ∧
      (t.link p).expectLseq = 0 ∧ ∀ q, q ≠ p → (t.link q).st = (s.link q).st) ∧
  (∀ (s : State) (p r : Nat), s.Shape → p < 24 → (s.link p).st = .up → (r = 0 ∨ r = 2 ∨ (r = 1 ∧ 8 ≤ (s.link p).replays)) →
    ∃ t, exec (.linkRetrain p r) s = .next t ∧ (t.link p).st = .retrain ∧ (t.link p).replay = [] ∧ (t.link p).txWait = [] ∧
      (t.link p).lanesOk = 0 ∧ (∀ q, q ≠ p → (t.link q).st = (s.link q).st) ∧
      ∃ l, t.log.queue = s.log.queue ++ { pageRec .link p 0x0700 .warning with a := LinkSt.retrain.code } :: l) ∧
  (∀ (s : State) (p : Nat), s.Shape → p < 24 → (s.link p).st = .retrain → ∃ t, exec (.retrainTimeout p) s = .next t ∧
    t.link p = { s.link p with st := .down } ∧ OtherLinks p s t ∧ IntRaised .link p 0x100 s t) ∧
  (∀ (s : State) (p : Nat), s.Shape → p < 24 → ((s.link p).st = .down ∨ (s.link p).st = .train) →
    ∃ t, exec (.linkDownRetry p) s = .next t ∧ t.link p = { s.link p with st := .detect } ∧ OtherLinks p s t) ∧
  (∀ (s : State) (p : Nat), s.Shape → p < 24 →
    ((s.link p).st = .up ∨ (s.link p).st = .miswired → ∃ t, exec (.retrain p) s = .next t ∧ (t.link p).st = .retrain ∧
      ∀ q, q ≠ p → (t.link q).st = (s.link q).st) ∧
    ((s.link p).st ≠ .up → (s.link p).st ≠ .miswired → exec (.retrain p) s = .next s)) ∧
  (∀ (s : State) (p : Nat), s.Shape → p < 24 →
    ((s.link p).st = .disabled → ∃ t, exec (.linkEnableWrite p true) s = .next t ∧ (t.link p).st = .detect ∧
      OtherLinks p s t ∧ t.linkEnabled p = true) ∧
    ((s.link p).st ≠ .disabled → ∃ t, exec (.linkEnableWrite p true) s = .next t ∧ t.links = s.links ∧
      t.linkEnabled p = true) ∧
    (s.linkEnabled p = true → ∃ t, exec (.linkEnableWrite p false) s = .next t ∧ (t.link p).st = .disabled ∧
      (t.link p).lanesOk = 0 ∧ t.linkEnabled p = false ∧ ∀ q, q ≠ p → (t.link q).st = (s.link q).st))

/-- Link control, the time sent down the tree and fencing (R252, R283, R284, R289, R290): an ACK drops what it covers from
the replay buffer, a NACK sends the rest again and the eighth without progress retrains, a CREDIT gives units back; a worker
takes its parent's time state and slews; a module told it is fenced resets itself with cause 5, keeping what waits in its
queue; a fenced port answers with FENCE and changes nothing else.
A command whose condition does not hold leaves the state as it is (the model's choice, log 2).
What goes beyond the rules is the model's: log 29, what travels on the links (DESIGN CHOICE); log 30, membership,
succession and formation (DESIGN CHOICE). -/
def Obligations.LinkControlTimeAndFencing : Prop :=
  (∀ (s : State) (p : Nat), s.Shape → p < 24 → (s.link p).st = .up → (s.link p).txWait = [] →
    (∀ n, ∃ t, exec (.linkCtrlPacket p (.ack n)) s = .next t ∧ t.link p = (s.link p).ackTo n ∧ OtherLinks p s t ∧
      t.outbox = s.outbox) ∧
    (∀ n, (s.link p).replays < 7 → ∃ t, exec (.linkCtrlPacket p (.nack n)) s = .next t ∧ OtherLinks p s t ∧
      t.link p = { (s.link p).ackTo ((n + 4095) % 4096) with
        replays := ((s.link p).ackTo ((n + 4095) % 4096)).replays + 1 } ∧
      t.outbox = ((s.link p).ackTo ((n + 4095) % 4096)).replay.reverse.map (fun r => Out.hop p r.lseq r.pkt) ++ s.outbox) ∧
    (∀ n, (s.link p).replays = 7 → ((s.link p).ackTo ((n + 4095) % 4096)).replays = 7 →
      ∃ t, exec (.linkCtrlPacket p (.nack n)) s = .next t ∧ (t.link p).st = .retrain ∧ (t.link p).replay = []) ∧
    (∀ vc u, vc < 16 → (s.link p).credits.length = 16 → ∃ t, exec (.linkCtrlPacket p (.credit vc u)) s = .next t ∧
      OtherLinks p s t ∧ t.link p = { s.link p with
        credits := ((s.link p).credits.set vc ((s.link p).credits.getD vc 0 +
          min u (64 - (s.link p).credits.getD vc 0)))
        shared := min 2048 ((s.link p).shared + (u - min u (64 - (s.link p).credits.getD vc 0))) })) ∧
  (∀ (s : State) (p st : Nat) (o : Int), s.isWorker = true → p < 24 → (s.link p).st = .up →
    s.timeParent = some (portDir s.systemSize p).1 → o.natAbs ≤ s.slewLimit → ∃ t, exec (.timeSync p st o) s = .next t ∧
      t.time.st = TimeSt.ofCode st ∧ t.time.t = (s.time.t + o).toNat ∧ t.time.offset = -o ∧ t.fab.timePath = true ∧
      t.links = s.links) ∧
  (∀ (s : State) (p st : Nat) (o : Int), s.isWorker = false → exec (.timeSync p st o) s = .next s) ∧
  (∀ (s : State) (p e : Nat), p < 24 → ((s.link p).st = .up ∨ (s.link p).st = .fenced) → s.fab.role ≠ .none →
    s.fab.role ≠ .joining → ∃ t, exec (.fence p e) s = .next t ∧ t.pwr.cause = 5 ∧ t.cores = State.reset.cores ∧
      t.items = [] ∧ t.mem = [] ∧ t.fab.role = State.reset.fab.role ∧ t.pending = s.pending ∧
      t.tier.flash = s.tier.flash ∧ t.sec.field = s.sec.field) ∧
  (∀ (s : State) (p e : Nat), (s.fab.role = .none ∨ s.fab.role = .joining) → exec (.fence p e) s = .next s) ∧
  (∀ (s : State) (p : Nat), p < 24 → (s.link p).st = .fenced → ∃ t, exec (.fenceSend p) s = .next t ∧
    t.outbox = .ctrl p (.fence s.fab.epoch) :: s.outbox ∧ t.links = s.links ∧ t.fab = s.fab) ∧
  (∀ (s : State) (p : Nat), (s.link p).st ≠ .fenced → exec (.fenceSend p) s = .next s)

/-- Messages of the sorting office (R281 to R287, R291): a flooded BUDGET or MEMBER message is taken once, and one seen
before is only counted; an ITEM, RESULT or BULK message that comes in its turn is carried out, acknowledged and expected no
more, and one that comes early is held; an acknowledgement ends the resending; one that does not come sends the message
again, eight times at most, after which the destination is unreachable. A packet that is not good delivers nothing.
What goes beyond the rules is the model's: log 29, what travels on the links (DESIGN CHOICE). -/
def Obligations.MessagesAreTakenOnceAndInOrder : Prop :=
  (∀ (s : State) (h : PktHdr) (p n : Nat), s.freshFlood h → ∃ t, exec (.budget h p n) s = .next t ∧
    (t.link h.port).expectLseq = ((s.link h.port).expectLseq + 1) % 4096 ∧ (h.src, h.seq) ∈ t.fab.flood ∧
    (p = s.pos → t.field .frank 0 Reg.frank_frankBudget 15 0 = n % 65536) ∧ (p ≠ s.pos → t.regs = s.regs)) ∧
  (∀ (s : State) (h : PktHdr) (p n : Nat), s.goodPacket h → ((h.src, h.seq) ∈ s.fab.flood ∨ h.src = s.pos) →
    ∃ t, exec (.budget h p n) s = .next t ∧ t.regs = s.regs ∧ t.live .link 0 22 = s.counted .link 0 22 1 ∧
      t.fab.flood = s.fab.flood) ∧
  (∀ (s : State) (h : PktHdr) (b : Nat), s.freshFlood h → ∃ t, exec (.member h (.heartbeat b)) s = .next t ∧
    cellGet 0 t.fab.heartbeat h.src = s.time.t ∧ cellGet 0 t.fab.budgets h.src = b ∧ h.src ∉ t.fab.unreachable ∧
    t.fab.members = s.fab.members ∧ t.fab.role = s.fab.role ∧ t.fab.epoch = s.fab.epoch) ∧
  (∀ (s : State) (h : PktHdr), s.freshFlood h → ∃ t, exec (.member h .leaving) s = .next t ∧ h.src ∈ t.fab.leaving ∧
    t.fab.members = s.fab.members) ∧
  (∀ (s : State) (h : PktHdr) (e : Nat), s.fab.role = .joining → s.pos < 64 →
    ∃ t, exec (.member h (.admission s.pos e)) s = .next t ∧ t.fab.role = .spare ∧ t.fab.manager = h.src ∧ t.fab.epoch = e ∧
      t.fab.members.getD s.pos .absent = .spare) ∧
  (∀ (s : State) (h : PktHdr) (b r c : Nat) (d : List Byte), s.inTurn h 1 → s.fab.stopped = false →
    s.item? s.nextItem = none → ∃ t j, exec (.item h b r c d) s = .next t ∧ t.nextItem = s.nextItem + 1 ∧
      t.item? s.nextItem = some j ∧ j.tag = BitVec.ofNat 64 (bits (leNat d) 63 0) ∧ j.box = b ∧ j.ring = r ∧ j.count = c ∧
      (64 ≤ b ∨ (s.box b).state ≠ .active → j.disp = some (.failed { reason := .boxDisabled })) ∧
      (t.inboundOf h.src 1).next = (h.seq + 1) % 2 ^ 32 ∧ Out.routed h.src 2 h.seq (.msgAck 1 h.seq) ∈ t.outbox) ∧
  (∀ (s : State) (h : PktHdr) (b : Nat) (tag : W64) (dead : Bool) (e : List Byte) (i : Item), s.inTurn h 2 →
    s.fab.stopped = false → s.isWorker = false →
    s.items.find? (fun i => i.box == b && i.tag == tag && i.pos == h.src && i.disp.isNone) = some i →
    s.item? i.id = some i → ∃ t j, exec (.result h b tag dead e) s = .next t ∧ t.item? i.id = some j ∧ j.state = .resolved ∧
      (dead = true → ∃ f, j.disp = some (.failed f)) ∧ (dead = false → ∃ x, j.disp = some (.done x)) ∧
      (∀ f ∈ t.fab.forwards, f.item ≠ i.id) ∧ (t.inboundOf h.src 2).next = (h.seq + 1) % 2 ^ 32 ∧
      Out.routed h.src 2 h.seq (.msgAck 2 h.seq) ∈ t.outbox) ∧
  (∀ (s : State) (h : PktHdr) (m : MirrorHeld), s.inTurn h 3 → s.fab.stopped = false → s.isGuest h.src m.stream = true →
    m.src = h.src → s.fab.role ≠ .none → s.fab.role ≠ .joining →
    ∃ t, exec (.bulk h (.mirror m.stream m.stepCount m.lineage m.gen m.payload m.dirs)) s = .next t ∧
      t.mirrors = m :: s.mirrors.filter (fun x => !(x.src == m.src && x.stream == m.stream)) ∧
      (t.inboundOf h.src 3).next = (h.seq + 1) % 2 ^ 32 ∧ Out.routed h.src 2 h.seq (.msgAck 3 h.seq) ∈ t.outbox) ∧
  (∀ (s : State) (h : PktHdr) (b r c : Nat) (d : List Byte), s.goodPacket h → h.dest = s.pos →
    0 < (h.seq + 2 ^ 32 - (s.inboundOf h.src 1).next) % 2 ^ 32 →
    (h.seq + 2 ^ 32 - (s.inboundOf h.src 1).next) % 2 ^ 32 < 2 ^ 31 → (s.inboundOf h.src 1).held.length < 256 →
    (∀ x ∈ (s.inboundOf h.src 1).held, x.1 ≠ h.seq) → ∃ t, exec (.item h b r c d) s = .next t ∧ t.items = s.items ∧
      (t.inboundOf h.src 1).next = (s.inboundOf h.src 1).next ∧
      (t.inboundOf h.src 1).held = (s.inboundOf h.src 1).held ++ [(h.seq, .item h b r c d)]) ∧
  (∀ (s : State) (h : PktHdr) (c : Nat), s.goodPacket h → h.dest = s.pos → ∃ t, exec (.msgAck h c) s = .next t ∧
    t.fab.sent = s.fab.sent.filter (fun m => !(m.dest == h.src && m.cls == c && m.seq == h.seq && !m.plain)) ∧
    t.items = s.items) ∧
  (∀ (s : State) (d c q : Nat) (m : E2eOut),
    s.fab.sent.find? (fun m => m.dest == d && m.cls == c && m.seq == q && !m.plain && m.injected) = some m →
    (m.resends < 8 → s.fab.stopped = false → ∃ t, exec (.e2eTimeout d c q) s = .next t ∧
      Out.routed d c q m.msg ∈ t.outbox ∧ t.fab.sent = s.fab.sent.map (fun x =>
        if (x.dest == d && x.cls == c && x.seq == q && !x.plain && x.injected) = true then
          { x with resends := x.resends + 1, injected := true } else x)) ∧
    (8 ≤ m.resends → s.fab.role = .manager → ∃ t, exec (.e2eTimeout d c q) s = .next t ∧ d ∈ t.fab.unreachable ∧
      t.fab.sent = s.fab.sent.filter (fun m => !(m.dest == d && m.cls == c && m.seq == q && !m.plain && m.injected)))) ∧
  (∀ (s : State) (h : PktHdr) (b r c : Nat) (d : List Byte), h.port < 24 → (s.link h.port).st = .up →
    (h.crcOk = false ∨ h.lseq ≠ (s.link h.port).expectLseq) → ∃ t, exec (.item h b r c d) s = .next t ∧
      t.items = s.items ∧ t.links = s.links ∧ t.fab = s.fab)

/-- Membership (R291 to R294, R298): heartbeats go out with their time; a manager that reaches a majority declares dead a
position that may die for the reason found, under the next epoch; one without a majority declares none and stops
admitting; the standby takes over from a dead manager; a module asks to join, is admitted as SPARE where its self-test and
quote pass, and a barred one is cleared by command; formation with two managers only notes the conflict.
A command whose condition does not hold leaves the state as it is (the model's choice, log 2).
What goes beyond the rules is the model's: log 5, time moves only with the commands that stand for timed events
(DESIGN CHOICE); log 30, membership, succession and formation (DESIGN CHOICE). -/
def Obligations.MembersAreDeclaredAndAdmitted : Prop :=
  (∀ s : State, s.fab.role ≠ .none → s.fab.role ≠ .joining → s.fab.role ≠ .fenced → ∃ t, exec .heartbeatSend s = .next t ∧
    t.time = { s.time with t := max s.time.t (s.lastBeat s.pos + s.beat) } ∧ t.lastBeat s.pos = t.time.t ∧
    Out.flood s.fab.floodSeq (.heartbeat s.pos s.pwr.budget) ∈ t.outbox ∧ t.fab.members = s.fab.members) ∧
  (∀ s : State, (s.fab.role = .none ∨ s.fab.role = .joining ∨ s.fab.role = .fenced) → exec .heartbeatSend s = .next s) ∧
  (∀ (s : State) (p : Nat) (y : DeadReason), s.fab.role = .manager → s.mayDie p = true →
    (s.deadFor p y = true → s.majority = true → ∃ t, exec (.declareDead p y) s = .next t ∧
      t.fab.members.getD p .absent = .dead ∧ t.fab.epoch = s.fab.epoch + 1 ∧ t.fab.prevEpoch = s.fab.epoch ∧
      t.fab.stopped = true ∧ t.fab.manager = s.fab.manager) ∧
    (s.deadFor p y = true → s.majority = false → ∃ t, exec (.declareDead p y) s = .next t ∧ t.fab.noMajority = true ∧
      t.fab.members = s.fab.members ∧ t.fab.epoch = s.fab.epoch) ∧
    (s.deadFor p y = false → exec (.declareDead p y) s = .next s)) ∧
  (∀ (s : State) (p : Nat), s.fab.role = .manager → s.mayDie p = true → s.deadFor p .isolated = true →
    exec (.isolatedTimeout p) s = exec (.declareDead p .isolated) s) ∧
  (∀ (s : State) (p : Nat), s.fab.role = .manager → s.mayDie p = true → s.majority = true → s.deadFor p .isolated = true →
    ∃ t, exec (.isolatedTimeout p) s = .next t ∧ t.fab.members.getD p .absent = .dead ∧ t.fab.epoch = s.fab.epoch + 1) ∧
  (∀ (s : State) (p : Nat), s.mayDie p = true →
    (∀ u : State, s.fab.role = .manager → u = s.setTime (fun u => { u with t := max u.t (s.lastBeat p + s.beatMiss * s.beat) }) →
      u.majority = true → ∃ t, exec (.heartbeatMiss p) s = .next t ∧ t.time.t = u.time.t ∧
        t.fab.members.getD p .absent = .dead ∧ t.fab.epoch = s.fab.epoch + 1) ∧
    (s.fab.role = .serving → p = s.fab.manager → s.fab.standby = none → ∃ t, exec (.heartbeatMiss p) s = .next t ∧
      t.fab.noMajority = true ∧ t.fab.members = s.fab.members)) ∧
  (∀ (s : State) (d : Nat), d < dirCount s.systemSize → s.bundle d = .down → s.fab.role ≠ .none →
    ∃ t, exec (.bundleLost d) s = .next t ∧ (s.pos, d) ∈ t.fab.lostReports ∧ (s.pos, d, 3) ∈ t.fab.bundles ∧
      Out.flood s.fab.floodSeq (.bundleReport s.pos d 3 true) ∈ t.outbox) ∧
  (∀ s : State, s.fab.role = .standby → s.mayDie s.fab.manager = true →
    (s.deadFor s.fab.manager .heartbeat = true ∨ s.deadFor s.fab.manager .leaving = true ∨
      s.deadFor s.fab.manager .linksLost = true) →
    (s.majority = true → ∃ t, exec .standbyTakeover s = .next t ∧ t.fab.role = .manager ∧ t.fab.manager = s.pos ∧
      t.fab.members.getD s.fab.manager .absent = .dead ∧ t.fab.epoch = s.fab.epoch + 2 ∧ t.host.tookOver = true) ∧
    (s.majority = false → ∃ t, exec .standbyTakeover s = .next t ∧ t.fab.role = .standby ∧ t.fab.noMajority = true)) ∧
  (∀ (s : State) (r : JoinReq),
    (r.pos = s.pos → s.fab.role = .none → s.pins.strapMgr = false → ∃ t, exec (.join r) s = .next t ∧
      t.fab.role = .joining ∧ Out.flood s.fab.floodSeq (.join s.pos) ∈ t.outbox) ∧
    (r.pos ≠ s.pos → s.fab.role = .manager → r.pos < s.systemSize → r.pos < s.fab.members.length →
      s.fab.sysVer ≤ r.version → s.forwards r.pos = false → s.member r.pos ≠ .barred → r.selfTestOk = true →
      r.quoteOk = true → ∃ t, exec (.join r) s = .next t ∧ t.member r.pos = .spare ∧ t.fab.epoch = s.fab.epoch + 1 ∧
        t.fab.stopped = true)) ∧
  (∀ (s : State) (p : Nat), s.fab.role = .manager → s.mayDie p = true →
    (s.majority = true → ∃ t, exec (.fabCmdDeclareDead p) s = .next t ∧ t.fab.members.getD p .absent = .dead ∧
      t.fab.cmdResult = 0 ∧ t.fab.epoch = s.fab.epoch + 1) ∧
    (s.majority = false → ∃ t, exec (.fabCmdDeclareDead p) s = .next t ∧ t.fab.cmdResult = 2 ∧
      t.fab.members = s.fab.members)) ∧
  (∀ (s : State) (p : Nat), s.fab.role = .manager →
    (s.member p = .barred → ∃ t, exec (.clearBar p) s = .next t ∧ t.member p = .absent ∧ t.fab.cmdResult = 0 ∧
      ∀ q, q ≠ p → t.member q = s.member q) ∧
    (s.member p ≠ .barred → ∃ t, exec (.clearBar p) s = .next t ∧ t.fab.cmdResult = 3 ∧ t.fab.members = s.fab.members)) ∧
  (∀ (s : State) (p : Nat), s.fab.role ≠ .manager → ∀ c ∈ [Instr.clearBar p, .fabCmdDeclareDead p, .recomputeRoutes],
    ∃ t, exec c s = .next t ∧ t.fab.cmdResult = 1 ∧ t.fab.members = s.fab.members ∧ bit (t.regN .link 0 Reg.errStat) 0 = true)

/-- Route changes and formation (R286, R288, R299): a manager stops injection, computes and installs the tables of the next
generation and floods them; a module installs its own 64 words of the generation that it works on and acknowledges; at GO,
once every forwarding module has acknowledged, injection goes on; a packet that waits for a bundle that is not up is
discarded and counted; at formation the one manager strapped makes the module list.
A command whose condition does not hold leaves the state as it is (the model's choice, log 2).
What goes beyond the rules is the model's: log 18, ties and addresses that firmware chooses (DESIGN CHOICE); log 30,
membership, succession and formation (DESIGN CHOICE). -/
def Obligations.RoutesChangeAndFormationBegins : Prop :=
  (∀ s : State, s.fab.role = .manager →
    (∃ t w, exec .routeChange s = .next t ∧ t.fab.stopped = true ∧ t.fab.work = some w ∧ t.fab.routeGen = w.gen ∧
      w.acks = [s.pos] ∧ (s.fab.work = none → w.gen = (s.fab.routeGen + 1) % 65536) ∧
      t.fab.routes = ((s.allRoutes.drop (64 * s.pos)).take 64).map (BitVec.ofNat 12)) ∧
    ∃ t w, exec .recomputeRoutes s = .next t ∧ t.fab.stopped = true ∧ t.fab.work = some w ∧ t.fab.routeGen = w.gen ∧
      t.fab.cmdResult = 0) ∧
  (∀ s : State, s.fab.role ≠ .manager → exec .routeChange s = .next s) ∧
  (∀ (s : State) (g : Nat) (r : List Nat) (w : RouteWork), s.fab.work = some w →
    (w.gen = g → r.length = 4096 → ∃ t, exec (.routeTablesInstall g r) s = .next t ∧ t.fab.routeGen = g ∧
      t.fab.routes = ((r.drop (64 * s.pos)).take 64).map (BitVec.ofNat 12) ∧
      Out.flood s.fab.floodSeq (.routeAck g) ∈ t.outbox ∧ t.fab.stopped = s.fab.stopped) ∧
    (w.gen ≠ g → exec (.routeTablesInstall g r) s = .next s ∧ exec (.routeGo g) s = .next s)) ∧
  (∀ (s : State) (g : Nat) (w : RouteWork), s.fab.work = some w → w.gen = g →
    (s.fab.role ≠ .manager ∨ (∀ p, p < 64 → s.forwards p = true → p ∈ w.acks) → ∃ t, exec (.routeGo g) s = .next t ∧
      t.fab.work = none ∧ t.fab.stopped = false ∧ t.fab.routes = s.fab.routes) ∧
    (s.fab.role = .manager → (∃ p, p < 64 ∧ s.forwards p = true ∧ p ∉ w.acks) → exec (.routeGo g) s = .next s)) ∧
  (∀ (s : State) (d : Nat) (w : Nat × TxPkt), s.fab.waiting.find? (fun w => w.1 == d) = some w →
    ((s.bundle d).full = false → ∃ t, exec (.routeWaitDiscard d) s = .next t ∧ t.fab.waiting = s.fab.waiting.erase w ∧
      t.links = s.links ∧ t.live .link 0 23 = s.counted .link 0 23 1) ∧
    ((s.bundle d).full = true → exec (.routeWaitDiscard d) s = .next s)) ∧
  (∀ (s : State) (pr mg a1 : List Nat) (cfg : List W32), s.fab.role = .none → s.fw.booted = true → s.pos ∈ pr →
    (s.pos ∈ mg ↔ s.pins.strapMgr = true) →
    (s.pins.strapMgr = true → s.fw.st = .running → mg.dedup = [s.pos] → s.pos < s.systemSize →
      ∃ t, exec (.formation pr mg a1 cfg) s = .next t ∧ t.fab.role = .manager ∧ t.fab.manager = s.pos ∧
        t.fab.members = formMembers s.systemSize s.pos s.spareMask pr ∧ t.fab.stopped = true) ∧
    (s.pins.strapMgr = true → s.fw.st = .running → 1 < mg.dedup.length →
      ∃ t, exec (.formation pr mg a1 cfg) s = .next t ∧ t.side.mgrConflict = true ∧ t.fab = s.fab)) ∧
  (∀ (s : State) (pr mg a1 : List Nat) (cfg : List W32), s.fab.role ≠ .none → exec (.formation pr mg a1 cfg) s = .next s)

/-- Sessions, register requests and rings of the Postbox Protocol (R318 to R325): HELLO opens a session at the highest
common version; BYE closes it, and drains its ACTIVE boxes; KEEPALIVE is heard; a register request reads or writes the
registers as the register bus does, DENIED where PBP may not and RETRY_LATER where it is late; CONNECT and RING_SETUP make
connections and rings; a request with a stored answer is answered from the store and changes no register.
What goes beyond the rules is the model's: log 37, requests over PBP: statuses where the spec names none (DESIGN
CHOICE); log 40, CONNECT: role 0 is a responder and role 1 a requester (DESIGN CHOICE); log 42, payloads whose layout
the spec does not size or order (DESIGN CHOICE). -/
def Obligations.SessionsServeRegistersAndRings : Prop :=
  (∀ (s : State) (h : PbpHdr) (lo hi : Nat), h.relayed = false → s.fw.booted = true → hdrBad h = false → s.pbpUp = true →
    s.isWorker = false → h.length = 2 → h.session = 0 →
    (∀ v, s.chosenVersion lo hi = some v → s.host.sessions.length < 8 → ∃ t k p, exec (.hello h lo hi) s = .next t ∧
      t.host.sessions = k :: s.host.sessions ∧ k.version = v ∧ k.lastHeard = s.time.t ∧ Answered h 0 p t ∧ 5 ≤ p.length) ∧
    (∀ v, s.chosenVersion lo hi = some v → 8 ≤ s.host.sessions.length → ∃ t, exec (.hello h lo hi) s = .next t ∧
      t.host.sessions = s.host.sessions ∧ Answered h 8 [] t) ∧
    (s.chosenVersion lo hi = none → ∃ t p, exec (.hello h lo hi) s = .next t ∧ t.host.sessions = s.host.sessions ∧
      Answered h 2 p t)) ∧
  (∀ (s : State) (h : PbpHdr), s.serves h 0x10 → s.Shape → h.length = 0 → ∃ t, exec (.bye h) s = .next t ∧
    (∀ k ∈ t.host.sessions, k.num ≠ h.session) ∧ (∀ c ∈ t.host.conns, c.session ≠ h.session) ∧ Answered h 0 [] t ∧
    ∀ b, b < 64 → (s.box b).session = some h.session → (s.box b).state = .active → (t.box b).state = .draining) ∧
  (∀ (s : State) (h : PbpHdr), s.serves h 0x10 → h.length = 0 → ∃ t, exec (.keepalive h) s = .next t ∧ Answered h 0 [] t ∧
    (∀ k, t.session? h.session = some k → k.lastHeard = s.time.t) ∧ t.regs = s.regs ∧ t.boxes = s.boxes) ∧
  (∀ (s : State) (h : PbpHdr) (a : Nat), s.servesHere h 0x10 → h.length = 4 → h.late = false →
    ∃ t, exec (.regRead h a) s = .next t ∧
      t.regs = ((s.heard h).regOps (some h.session) [{ addr := a, value := none }]).1.regs ∧
      Answered h 0 ((s.heard h).regOps (some h.session) [{ addr := a, value := none }]).2 t) ∧
  (∀ (s : State) (h : PbpHdr) (a : Nat) (v : W32), s.servesHere h 0x10 → h.length = 8 →
    (pbpDenied a = true → ∃ t, exec (.regWrite h a v) s = .next t ∧ Answered h 5 [] t ∧ t.regs = s.regs) ∧
    (pbpDenied a = false → (h.late = false ∨ fwctlPage a = true) → ∃ t p, exec (.regWrite h a v) s = .next t ∧
      Answered h 0 p t ∧ t.regs = ((s.heard h).regOps (some h.session) [{ addr := a, value := some v }]).1.regs) ∧
    (pbpDenied a = false → h.late = true → fwctlPage a = false → ∃ t, exec (.regWrite h a v) s = .next t ∧
      Answered h 1 [] t ∧ t.regs = s.regs)) ∧
  (∀ (s : State) (h : PbpHdr) (l : List RegOp), s.servesHere h 0x11 → 1 ≤ l.length → l.length ≤ 64 →
    ((∀ o ∈ l, o.value.isSome = true → pbpDenied o.addr = false) → h.late = false → ∃ t, exec (.regBatch h l) s = .next t ∧
      Answered h 0 ((s.heard h).regOps (some h.session) l).2 t ∧ t.regs = ((s.heard h).regOps (some h.session) l).1.regs) ∧
    ((∃ o ∈ l, o.value.isSome = true ∧ pbpDenied o.addr = true) → ∃ t, exec (.regBatch h l) s = .next t ∧ Answered h 5 [] t ∧
      t.regs = s.regs)) ∧
  (∀ (s : State) (h : PbpHdr) (e d : List Byte) (r : SubRing), s.servesHere h 0x10 → s.Shape → h.box < 64 → h.length = 192 →
    e.length = 64 → d.length = 128 → (s.box h.box).state = .active → s.opened h.box h.session = true → h.late = false →
    (s.box h.box).subs.find? (fun q => q.index == 0) = some r →
    ((r.tail + 2 ^ 32 - r.taken) % 2 ^ 32 < r.size → ∃ t, exec (.submitEmu h e d) s = .next t ∧ Answered h 0 [] t ∧
      (t.box h.box).subs.find? (fun q => q.index == 0) = some { r with tail := (r.tail + 1) % 2 ^ 32 }) ∧
    (r.size ≤ (r.tail + 2 ^ 32 - r.taken) % 2 ^ 32 → ∃ t, exec (.submitEmu h e d) s = .next t ∧ Answered h 10 [] t ∧
      t.boxes = s.boxes ∧ t.mem = s.mem)) ∧
  (∀ (s : State) (h : PbpHdr) (qp psn mtu role : Nat), s.servesHere h 0x10 → s.mayUse h.box h.session = true →
    (mtu = 1024 ∨ mtu = 2048 ∨ mtu = 4096) → role < 2 → s.host.conns.length < 256 →
    ∃ t c p, exec (.connect h qp psn mtu role) s = .next t ∧ t.host.conns = s.host.conns ++ [c] ∧ c.session = h.session ∧
      c.box = h.box ∧ c.mtu = mtu ∧ c.role = role ∧ c.hostQp = qp ∧ c.hostPsn = psn ∧ c.num = s.host.nextConn ∧
      Answered h 0 p t ∧ p.length = 12) ∧
  (∀ (s : State) (h : PbpHdr) (n z a key : Nat), s.servesHere h 0x10 → s.Shape → h.box < 64 → 6 ≤ z → z ≤ 16 → n ≤ 7 →
    ((s.box h.box).state = .disabled → ∃ t, exec (.ringSetup h .submit n z a key) s = .next t ∧ Answered h 0 [] t ∧
      OtherBoxes h.box s t ∧ (t.box h.box).subs.find? (fun q => q.index == n) =
        some { index := n, addr := a, size := 2 ^ z }) ∧
    ((s.box h.box).state = .disabled → ∃ t, exec (.ringSetup h .completion n z a key) s = .next t ∧ Answered h 0 [] t ∧
      (t.box h.box).cq = some { addr := a, key := key, size := 2 ^ z } ∧ (t.box h.box).cqN = {}) ∧
    ((s.box h.box).state ≠ .disabled → s.mayUse h.box h.session = true → ∃ t, exec (.ringSetup h .submit n z a key) s = .next t ∧
      Answered h 10 [] t ∧ t.boxes = s.boxes)) ∧
  (∀ (s : State) (h : PbpHdr) (old : Nat), s.servesHere h 0x12 →
    (s.host.tookOver = true → ∃ t k p, exec (.pbpResume h old) s = .next t ∧ t.session? h.session = some k ∧
      k.resumed = some old ∧ Answered h 0 p t) ∧
    (s.host.tookOver = false → ∃ t, exec (.pbpResume h old) s = .next t ∧ Answered h 10 [] t)) ∧
  (∀ (s : State) (h : PbpHdr) (a : Nat) (v : W32) (k : Session) (r : Nat × Nat × List Byte), h.relayed = false →
    s.fw.booted = true → hdrBad h = false → s.pbpUp = true → s.isWorker = false → s.session? h.session = some k →
    k.store.find? (fun r => r.1 == h.seq) = some r → ∃ t, exec (.regWrite h a v) s = .next t ∧ t.regs = s.regs ∧
      Answered h r.2.1 r.2.2 t)

/-- Images and box resources over PBP (R221, R222, R323, R332 to R336, R354, R357, R462): an image is announced, filled and
verified, and a complete set starts; MAP and UNMAP write and clear one entry of the box's table; regions are added and set;
CODEBOOK and TIER requests answer with their unit's result once it is there; a key is installed once; ATTEST answers with
certificates or a quote, FW_STATUS with the firmware's state.
What goes beyond the rules is the model's: log 37, requests over PBP: statuses where the spec names none (DESIGN
CHOICE); log 46, maps, regions and protected pages (DESIGN CHOICE); log 47, the boot sequence and the passport (DESIGN
CHOICE). -/
def Obligations.ImagesAndResourcesAreServed : Prop :=
  (∀ (s : State) (h : PbpHdr) (c n : Nat), s.serves h 0x10 → s.bootServes = true → h.length = 7 →
    (4096 ≤ n → n ≤ 8 * mib → compOk c = true → ∃ t, exec (.imageBegin h c n) s = .next t ∧ t.fw.st = .loading ∧
      t.fw.loading = some { comp := c, size := n } ∧ Answered h 0 [] t) ∧
    (n < 4096 ∨ 8 * mib < n ∨ compOk c = false → ∃ t, exec (.imageBegin h c n) s = .next t ∧ t.fw = s.fw ∧
      Answered h 6 (leBytes 2 0x0501) t)) ∧
  (∀ (s : State) (h : PbpHdr) (o : Nat) (d : List Byte) (l : Loading), s.serves h 0x10 → s.bootServes = true →
    h.length = 6 + d.length → 1 ≤ d.length → d.length ≤ 8192 → s.fw.loading = some l →
    (o + d.length ≤ l.size → ∃ t, exec (.imageData h o d) s = .next t ∧ Answered h 0 [] t ∧
      t.fw.loading = some { l with data := l.data.setRun o d, got := (o, d.length) :: l.got }) ∧
    (l.size < o + d.length → ∃ t, exec (.imageData h o d) s = .next t ∧ Answered h 4 [] t ∧ t.fw = s.fw)) ∧
  (∀ (s u : State) (h : PbpHdr) (l : Loading), s.serves h 0x10 → s.Shape → s.bootServes = true → h.length = 3 →
    s.fw.loading = some l → l.comp < 6 → u = (s.heard h).setFw (fun w => { w with loading := none }) →
    (u.imageFault (l.comp, l.size) l.whole (l.data.getRun 0 l.size) = none → ∃ t im, exec (.imageEnd h l.comp) s = .next t ∧
      t.fw.loading = none ∧ (t.comp l.comp).image = some im ∧ im.bytes = l.data.getRun 0 l.size ∧ Answered h 0 [] t) ∧
    (∀ d, u.imageFault (l.comp, l.size) l.whole (l.data.getRun 0 l.size) = some d →
      ∃ t, exec (.imageEnd h l.comp) s = .next t ∧ t.fw.loading = none ∧ t.fw.comps = s.fw.comps ∧
        Answered h 6 (leBytes 2 d) t)) ∧
  (∀ (s : State) (h : PbpHdr), s.serves h 0x10 → s.Shape → s.bootServes = true → h.length = 2 →
    ((∀ k, 1 ≤ k → k ≤ 5 → (s.comp k).image.isSome = true) → s.sec.passport = .good → s.sec.identity = .good →
      ∃ t, exec (.start h) s = .next t ∧ t.fw.st = .starting ∧ (t.comp 1).st = .starting ∧ t.fw.loading = none ∧
        Answered h 0 [] t) ∧
    ((∃ k, 1 ≤ k ∧ k ≤ 5 ∧ (s.comp k).image = none) → ∃ t, exec (.start h) s = .next t ∧ t.fw = s.fw ∧
      Answered h 6 (leBytes 2 0x0001) t)) ∧
  (∀ (s : State) (h : PbpHdr), s.servesHere h 0x10 → s.Shape → h.box < 64 → (s.comp 5).st = .running →
    s.mayUse h.box h.session = true →
    (∀ va e, h.length = 18 → (s.heard h).mapFault h.box va e = none → ((s.heard h).growTable h.box va).isSome = true →
      ∃ t, exec (.map h va e) s = .next t ∧ Answered h 0 [] t ∧ cellGet 0 (t.box h.box).pt (va / pageSize) = e ∧
        ∀ k, k ≠ va / pageSize → cellGet 0 (t.box h.box).pt k = cellGet 0 (s.box h.box).pt k) ∧
    (∀ va e d, h.length = 18 → (s.heard h).mapFault h.box va e = some d → ∃ t, exec (.map h va e) s = .next t ∧
      Answered h 6 (leBytes 2 d) t ∧ t.boxes = s.boxes) ∧
    (∀ va, h.length = 10 → va % pageSize = 0 → va < 2 ^ 48 → ∃ t, exec (.unmap h va) s = .next t ∧ Answered h 0 [] t ∧
      t.pte? h.box va = none ∧ ∀ k, k ≠ va / pageSize → cellGet 0 (t.box h.box).pt k = cellGet 0 (s.box h.box).pt k) ∧
    (∀ r, h.length = 34 → r.length = 32 → (s.heard h).regionFault h.box (leNat r) = none →
      ∃ t g, exec (.regionAdd h r) s = .next t ∧ (t.box h.box).regions = (s.box h.box).regions ++ [g] ∧
        g.base = bits (leNat r) 255 208 ∧ g.env = bits (leNat r) 207 160 ∧ g.size = bits (leNat r) 159 144 ∧
        Answered h 0 (leBytes 4 (s.box h.box).regions.length) t) ∧
    (∀ n sl th, sl < 64 → n < (s.box h.box).regions.length → th ≤ 64 → ∃ t, exec (.regionSet h n sl th) s = .next t ∧
      (t.box h.box).regions = listModify (fun r => { r with slot := sl, thresh := th }) (s.box h.box).regions n ∧
      Answered h 0 [] t) ∧
    (∀ w a n, s.cb.waiting = none → ∃ t, exec (.codebook h w a n) s = .next t ∧
      ((t.cb.waiting.isSome = true ∧ t.host.cbReply = some (h.session, h.seq) ∧ t.outbox = s.outbox) ∨
        (t.cb.waiting = none ∧ Answered h 0 [BitVec.ofNat 8 t.cb.result, BitVec.ofNat 8 t.cb.gen] t))) ∧
    (∀ w a n, s.tier.cmd = none → ∃ t, exec (.tier h w a n) s = .next t ∧
      ((t.tier.cmd.isSome = true ∧ t.host.tierReply = some (h.session, h.seq) ∧ t.outbox = s.outbox) ∨
        (t.tier.cmd = none ∧ Answered h 0 [BitVec.ofNat 8 t.tier.result] t))) ∧
    (∀ key, h.length = 66 → key.length = 64 → (s.box h.box).key = none →
      ((s.box h.box).state = .disabled ∨ (s.box h.box).state = .active) →
      (key.take 32 ≠ key.drop 32 → ∃ t, exec (.keyInstall h key) s = .next t ∧ (t.box h.box).key.isSome = true ∧
        Answered h 0 [] t) ∧
      (key.take 32 = key.drop 32 → ∃ t, exec (.keyInstall h key) s = .next t ∧ t.boxes = s.boxes ∧
        Answered h 6 (leBytes 2 0x0201) t)) ∧
    (∀ n, h.length = 34 → n.length = 32 →
      ((∀ x ∈ n, x = 0) → ∃ t, exec (.attest h n) s = .next t ∧ Answered h 0 certResponse t) ∧
      ((∃ x ∈ n, x ≠ 0) → ∃ t, exec (.attest h n) s = .next t ∧ t.live .sec 0 2 = s.counted .sec 0 2 1 ∧
        Answered h 0 ((s.heard h).quoteBody n ++ Config.identitySig (Config.sha3 ((s.heard h).quoteBody n))) t))) ∧
  (∀ (s : State) (h : PbpHdr), s.serves h 0x10 → h.length = 2 → ∃ t, exec (.fwStatus h) s = .next t ∧ t.regs = s.regs ∧
    Answered h 0 (leBytes 4 ((s.heard h).regValue .fwctl 0 Reg.fwctl_fwState).toNat ++ (List.range 5).flatMap (fun k =>
      leBytes 4 ((s.heard h).regValue .fwctl 0 (Reg.fwctl_fwComp + 4 * (k + 1))).toNat)) t)

/-- Letterboxes (R311): SQ_TAIL, CQ_HEAD and DLQ_HEAD, named or written by their window's offset, take a count that lies
within the ring; one that moves backward or too far ahead is ignored, counted in LETTERBOX_ERRORS and recorded; a write of
another size is refused; and what earlier writes stored stands.
What goes beyond the rules is the model's: log 39, a consumer's count may not pass what was written (DEDUCED). -/
def Obligations.LetterboxesTakeCountsWithinTheRing : Prop :=
  (∀ (s : State) (conn ring : Nat) (count : W32) (c : Conn) (q : SubRing), s.Shape → s.conn? conn = some c → c.box < 64 →
    ring < 8 → (s.box c.box).subs.find? (fun q => q.index == ring) = some q →
    (ahead q.tail q.taken ≤ ahead count.toNat q.taken → ahead count.toNat q.taken ≤ q.size →
      ∃ t, exec (.sqTail conn ring count) s = .next t ∧ OtherBoxes c.box s t ∧ t.outbox = .roceAck conn :: s.outbox ∧
        t.mem = s.mem ∧ (t.box c.box).subs.find? (fun q => q.index == ring) = some { q with tail := count.toNat }) ∧
    (ahead count.toNat q.taken < ahead q.tail q.taken ∨ q.size < ahead count.toNat q.taken →
      ∃ t, exec (.sqTail conn ring count) s = .next t ∧ t.boxes = s.boxes ∧ t.outbox = .roceAck conn :: s.outbox ∧
        t.live .hostif 0 16 = s.counted .hostif 0 16 1 ∧ Recorded { pageRec .hostif 0 0x0801 .warning with
          box := some c.box, a := 8 * ring, b := count.toNat } s t)) ∧
  (∀ (s : State) (conn : Nat) (dead : Bool) (count : W32) (c : Conn), s.Shape → s.conn? conn = some c → c.box < 64 →
    (ahead count.toNat ((s.box c.box).counts dead).head ≤
        ahead ((s.box c.box).counts dead).written ((s.box c.box).counts dead).head →
      ∃ t, exec (if dead then .dlqHead conn count else .cqHead conn count) s = .next t ∧ OtherBoxes c.box s t ∧
        t.box c.box = (s.box c.box).setCounts dead { (s.box c.box).counts dead with head := count.toNat } ∧
        t.outbox = .roceAck conn :: s.outbox) ∧
    (ahead ((s.box c.box).counts dead).written ((s.box c.box).counts dead).head <
        ahead count.toNat ((s.box c.box).counts dead).head →
      ∃ t, exec (if dead then .dlqHead conn count else .cqHead conn count) s = .next t ∧ t.boxes = s.boxes ∧
        t.live .hostif 0 16 = s.counted .hostif 0 16 1 ∧ Recorded { pageRec .hostif 0 0x0801 .warning with
          box := some c.box, a := if dead then 0x48 else 0x40, b := count.toNat } s t)) ∧
  (∀ (s : State) (conn key : Nat) (va : W64) (data : List Byte) (c : Conn), s.conn? conn = some c → key = c.key →
    rocePos va = s.pos → s.fab.members.getD s.pos .absent = .serving → roceWindow va = 1 →
    (data.length ≠ 8 → ∃ t, exec (.rdmaWrite conn key va data) s = .next t ∧
      t.outbox = .roceNak conn nakInvalid :: s.outbox ∧ t.boxes = s.boxes) ∧
    (∀ r, data.length = 8 → r < 8 → roceAddr va = 8 * r → ∃ t u, exec (.rdmaWrite conn key va data) s = .next t ∧
      exec (.sqTail conn r (BitVec.ofNat 32 (leNat (data.take 4)))) s = .next u ∧ t.boxes = u.boxes ∧ t.log = u.log ∧
      t.outbox = u.outbox))

/-- RDMA accesses (R306 to R308): a write or a read of box memory stores or answers the bytes, and is refused where the key,
the module, the window or the mapping is wrong; a page with a reduction reduces; a read of poison is recorded; a CNP reduces
the requester's rate.
What goes beyond the rules is the model's: log 38, RDMA (DEDUCED). -/
def Obligations.RdmaAccessesReachBoxMemory : Prop :=
  (∀ (s : State) (conn key da : Nat) (va : W64) (data : List Byte) (c : Conn) (e : W64), s.conn? conn = some c →
    key = c.key → rocePos va = s.pos → s.fab.members.getD s.pos .absent = .serving → roceWindow va = 0 →
    s.pte? c.box (roceAddr va) = some e → pteWritable e = true → roceAddr va % pageSize + data.length ≤ pageSize →
    1 ≤ data.length → s.keyless c.box (roceAddr va) data.length = false → da = pteDa e + roceAddr va % pageSize →
    da + data.length ≤ flashBase →
    (pteReduce e = 0 → ∃ t, exec (.rdmaWrite conn key va data) s = .next t ∧ t.outbox = .roceAck conn :: s.outbox ∧
      t.readBox c.box (roceAddr va) data.length = data ∧ (∀ i, i < data.length → t.byteAt (da + i) = data.getD i 0) ∧
      ∀ x, (x < da ∨ da + data.length ≤ x) →
        (pteProtected e = false ∨ x / 256 < da / 256 ∨ (da + data.length - 1) / 256 < x / 256) →
        t.byteAt x = s.byteAt x) ∧
    (pteReduce e ≠ 0 → data.length = reduceWidth (pteReduce e) → roceAddr va % data.length = 0 →
      ∃ t, exec (.rdmaWrite conn key va data) s = .next t ∧ t.outbox = .roceAck conn :: s.outbox ∧
        (∀ i, i < data.length → t.byteAt (da + i) = (leBytes data.length (reduceOp (pteReduce e)
          (leNat ((List.range data.length).map (fun j => s.byteAt (da + j)))) (leNat data))).getD i 0) ∧
        ∀ x, (x < da ∨ da + data.length ≤ x) → t.byteAt x = s.byteAt x) ∧
    (pteReduce e ≠ 0 → data.length % reduceWidth (pteReduce e) ≠ 0 → ∃ t, exec (.rdmaWrite conn key va data) s = .next t ∧
      t.outbox = .roceNak conn nakInvalid :: s.outbox ∧ t.mem = s.mem ∧ t.boxes = s.boxes)) ∧
  (∀ (s : State) (conn key : Nat) (va : W64) (data : List Byte) (c : Conn), s.conn? conn = some c →
    (key ≠ c.key ∨ s.fab.members.getD (rocePos va) .absent ≠ .serving ∨ 1 < roceWindow va ∨
      (roceWindow va = 0 ∧ rocePos va = s.pos ∧ s.mapped c.box (roceAddr va) data.length true = false)) →
    ∃ t, exec (.rdmaWrite conn key va data) s = .next t ∧ t.outbox = .roceNak conn nakAccess :: s.outbox ∧
      t.live .hostif 0 9 = s.counted .hostif 0 9 1 ∧ t.mem = s.mem ∧ t.boxes = s.boxes ∧ t.regs = s.regs) ∧
  (∀ (s : State) (conn key n : Nat) (va : W64) (c : Conn), s.conn? conn = some c →
    (key = c.key → rocePos va = s.pos → s.fab.members.getD s.pos .absent = .serving → roceWindow va = 0 →
      s.mapped c.box (roceAddr va) n false = true → (s.absentIn c.box (roceAddr va) n).isSome = false →
      (s.poisonedBox c.box (roceAddr va) n = false → ∃ t, exec (.rdmaRead conn key va n) s = .next t ∧
        t.outbox = .roceData conn (s.readBox c.box (roceAddr va) n) :: s.outbox ∧ t.mem = s.mem ∧ t.boxes = s.boxes ∧
        t.log = s.log) ∧
      (s.poisonedBox c.box (roceAddr va) n = true → ∃ t, exec (.rdmaRead conn key va n) s = .next t ∧
        t.outbox = .roceNak conn nakOperation :: s.outbox ∧ Recorded { pageRec .hostif 0 0x0802 .warning with
          box := some c.box, b := roceAddr va } s t)) ∧
    (key ≠ c.key ∨ s.fab.members.getD (rocePos va) .absent ≠ .serving → ∃ t, exec (.rdmaRead conn key va n) s = .next t ∧
      t.outbox = .roceNak conn nakAccess :: s.outbox ∧ t.tier = s.tier)) ∧
  (∀ (s : State) (conn : Nat) (c : Conn), s.conn? conn = some c → ∃ t, exec (.cnpReceive conn) s = .next t ∧
    t.conn? conn = some { c with reduced := c.reduced + 1 } ∧ t.live .hostif 0 10 = s.counted .hostif 0 10 1 ∧
    ∀ n, n ≠ conn → t.conn? n = s.conn? n)

/-- Completion and dead-letter entries (R315, R316, R326, R362): the oldest entry that waits is written into a released slot,
waits while the ring is full, and frees its item in the ledger once the write is acknowledged; a notice tells the entries
posted since the last one; a silent session is closed with its connections and its ACTIVE boxes drain; a change of the
host link is recorded.
A command whose condition does not hold leaves the state as it is (the model's choice, log 2).
What goes beyond the rules is the model's: log 5, time moves only with the commands that stand for timed events
(DESIGN CHOICE). -/
def Obligations.EntriesArePostedAndNoticed : Prop :=
  (∀ (s : State) (b : Nat) (dead : Bool) (r : OutRing) (e : PostEntry) (l : List PostEntry) (n : RingCounts), s.Shape → b < 64 →
    n = (s.box b).counts dead → (s.box b).outRing dead = some r → (s.box b).waits dead = e :: l → s.requester b = true →
    ((n.written + 2 ^ 32 - n.head) % 2 ^ 32 < r.size → ∃ t, exec (.entryPost b dead) s = .next t ∧ OtherBoxes b s t ∧
      t.box b = ((s.box b).setLists dead l ((s.box b).sent dead ++ [e])).setCounts dead { n with
        written := (n.written + 1) % 2 ^ 32, posted := n.posted + 1, fullSince := none } ∧
      t.outbox = .entry b dead (n.written % max r.size 1)
        (leBytes (if dead then 64 else 32) (e.body + ringPhase r.size n.written)) :: s.outbox ∧
      t.live .hostif 0 (if dead then 13 else 12) = s.counted .hostif 0 (if dead then 13 else 12) 1 ∧
      t.live .hostif 0 14 = s.counted .hostif 0 14 (match n.fullSince with | some t => s.time.t - t | none => 0)) ∧
    (r.size ≤ (n.written + 2 ^ 32 - n.head) % 2 ^ 32 → ∃ t, exec (.entryPost b dead) s = .next t ∧ OtherBoxes b s t ∧
      t.box b = (s.box b).setCounts dead { n with fullSince := n.fullSince.or (some s.time.t) } ∧ t.outbox = s.outbox)) ∧
  (∀ (s : State) (b : Nat) (dead : Bool),
    ((s.box b).outRing dead = none ∨ (s.box b).waits dead = [] ∨ s.requester b = false) →
    exec (.entryPost b dead) s = .next s) ∧
  (∀ (s : State) (b : Nat) (dead : Bool) (e : PostEntry) (l : List PostEntry), s.Shape → b < 64 →
    (s.box b).sent dead = e :: l → ∃ t, exec (.entryPosted b dead) s = .next t ∧ OtherBoxes b s t ∧
      t.box b = (s.box b).setLists dead ((s.box b).waits dead) l ∧ (e.item = none → t.items = s.items) ∧
      ∀ id, e.item = some id → t.item? id = none ∧ OtherItems id s t) ∧
  (∀ (s : State) (b : Nat) (dead : Bool), (s.box b).sent dead = [] → exec (.entryPosted b dead) s = .next s) ∧
  (∀ (s : State) (b : Nat) (dead : Bool) (n : RingCounts), s.Shape → b < 64 → n = (s.box b).counts dead →
    n.posted ≠ 0 → ((s.box b).outRing dead).isSome = true → s.requester b = true →
    ∃ t, exec (.notice b dead) s = .next t ∧ OtherBoxes b s t ∧
      t.box b = (s.box b).setCounts dead { n with posted := 0, lastNotice := some t.time.t } ∧
      t.time.t = max s.time.t (match n.lastNotice with | some x => x + s.holdoff | none => 0) ∧
      t.outbox = .notice b dead (b * 2 ^ 26 + b2n dead * 2 ^ 24 + n.posted % 2 ^ 24) :: s.outbox ∧
      t.live .hostif 0 15 = s.counted .hostif 0 15 1) ∧
  (∀ (s : State) (n : Nat) (k : Session), s.Shape → s.session? n = some k →
    (s.pbpUp = true → ∃ t, exec (.sessionTimeout n) s = .next t ∧ t.session? n = none ∧ (∀ c ∈ t.host.conns, c.session ≠ n) ∧
      t.time.t = max s.time.t (k.lastHeard + s.sessionLimit) ∧
      ∀ b, b < 64 → (s.box b).session = some n →
        ((s.box b).state = .active → (t.box b).state = .draining) ∧ (t.box b).cq = none ∧ (t.box b).dlq = none) ∧
    (s.pbpUp = false → exec (.sessionTimeout n) s = .next s)) ∧
  (∀ (s : State) (v a : Nat) (lock : Bool),
    (v ≤ 2 → a ≤ 3 → (s.host.speed, s.host.an, s.host.pcsLock) ≠ (v, a, lock) → bits (s.prbs 24) 9 8 = 0 →
      ∃ t, exec (.hostLinkChange v a lock) s = .next t ∧ t.host = { s.host with speed := v, an := a, pcsLock := lock } ∧
        IntRaised .hostif 0 0x100 s t ∧ Recorded { pageRec .hostif 0 0x0800 .warning with a := v } s t) ∧
    ((s.host.speed, s.host.an, s.host.pcsLock) = (v, a, lock) → exec (.hostLinkChange v a lock) s = .next s))

/-- Faults and restarts of components (R339, R341, R342, R344, R345): a first fault begins a restart, is recorded and arms
escalation; a second one while armed resets the module; a restart at the host's command arms nothing and is flagged for a
component that does not run; an image that still has its digest is loaded, another resets the module; the component that
runs again gets the message it was handling first and fails the items its journal does not record. -/
def Obligations.ComponentsFaultRestartAndEscalate : Prop :=
  (∀ (s : State) (k cause proc : Nat) (pc : W64), s.Shape → 1 ≤ k → k ≤ 5 → 1 ≤ cause → cause ≤ 6 →
    (s.comp k).alive = true →
    ((s.comp k).armed = false → ∃ t, exec (.componentFault k cause proc pc) s = .next t ∧ OtherComps k s t ∧
      t.comp k = { s.comp k with
        st := .restarting, loaded := false, restarts := min 255 ((s.comp k).restarts + 1), lastCause := cause
        armed := true, armedCause := cause } ∧
      t.fw.faultComp = k ∧ t.fw.faultCause = cause ∧ t.fw.faultProc = proc ∧ t.fw.faultPc = pc ∧
      t.live .fwctl 0 4 = s.counted .fwctl 0 4 1 ∧ t.live .fwctl 0 5 = s.counted .fwctl 0 5 (if cause = 1 then 1 else 0) ∧
      IntRaised .fwctl 0 0x100 s t ∧ t.tier.paused = (s.tier.paused || k == 3) ∧
      t.fw.gangReturn = (s.fw.gangReturn || k == 1) ∧ t.items = s.items ∧ t.cores = s.cores ∧
      Recorded { code := 0x0900, sev := .error, srcType := 0x0300, unit := k, a := k, b := cause } s t) ∧
    ((s.comp k).armed = true → ∃ t, exec (.componentFault k cause proc pc) s = .next t ∧ ResetWithCause 3 s t)) ∧
  (∀ (s : State) (k : Nat), s.Shape → 1 ≤ k → k ≤ 5 → (s.comp k).alive = true →
    ((s.comp k).armed = false → ∃ t, exec (.fwWatchdog k) s = .next t ∧ OtherComps k s t ∧ (t.comp k).st = .restarting ∧
      (t.comp k).armed = true ∧ (t.comp k).armedCause = 1 ∧ t.fw.faultComp = k ∧ t.fw.faultCause = 1 ∧
      t.fw.faultProc = compProc k ∧ t.live .fwctl 0 4 = s.counted .fwctl 0 4 1 ∧
      t.live .fwctl 0 5 = s.counted .fwctl 0 5 1) ∧
    ((s.comp k).armed = true → ∃ t, exec (.fwWatchdog k) s = .next t ∧ ResetWithCause 3 s t)) ∧
  (∀ (s : State) (k : Nat), s.Shape → 1 ≤ k → k ≤ 5 → (s.comp k).st = .restarting →
    ((s.comp k).armed = true → ∃ t, exec (.restartOverrun k) s = .next t ∧ ResetWithCause 3 s t) ∧
    ((s.comp k).armed = false → ∃ t, exec (.restartOverrun k) s = .next t ∧ OtherComps k s t ∧ (t.comp k).armed = true ∧
      (t.comp k).lastCause = 6 ∧ (t.comp k).st = .restarting ∧ (t.comp k).loaded = false) ∧
    ((s.comp k).loaded = false → (∃ t, exec (.componentRestart k true) s = .next t ∧ OtherComps k s t ∧
        t.comp k = { s.comp k with loaded := true } ∧ t.regs = s.regs ∧ t.log = s.log) ∧
      ∃ t, exec (.componentRestart k false) s = .next t ∧ ResetWithCause 3 s t)) ∧
  (∀ (s : State) (k : Nat), s.Shape → 1 ≤ k → k ≤ 5 →
    ((s.comp k).st = .running → ∃ t, exec (.restartComponent k) s = .next t ∧ OtherComps k s t ∧
      t.comp k = { s.comp k with
        st := .restarting, loaded := false, restarts := min 255 ((s.comp k).restarts + 1), lastCause := 7 } ∧
      Recorded { code := 0x0900, sev := .error, srcType := 0x0300, unit := k, a := k, b := 7 } s t) ∧
    ((s.comp k).st ≠ .running → ∃ t, exec (.restartComponent k) s = .next t ∧ t.fw = s.fw ∧ t.log = s.log ∧
      bit (t.regN .fwctl 0 Reg.errStat) 0 = true)) ∧
  (∀ (s : State) (k : Nat), s.Shape → 1 ≤ k → k ≤ 5 → (s.comp k).st = .starting →
    ∃ t, exec (.componentRunning k) s = .next t ∧ (t.comp k).st = .running ∧ IntRaised .fwctl 0 0x100 s t ∧
      (∀ n, nextStart k = some n → (t.comp n).st = .starting ∧ t.fw.st = s.fw.st) ∧ (k = 2 → t.fw.st = .running) ∧
      (k ≠ 1 → t.cores = s.cores) ∧
      (k = 1 → ∀ c, c < 68 → ((t.core c).state = .fenced ∧ (t.core c).lastPass = none) ∨
        ((t.core c).state = (if (s.logical c).isSome then .idle else .drained) ∧ (t.core c).lastPass = some 0))) ∧
  (∀ (s : State) (k : Nat), s.Shape → 1 ≤ k → k ≤ 5 → (s.comp k).st = .restarting → (s.comp k).loaded = true →
    ∃ t, exec (.componentRunning k) s = .next t ∧ OtherComps k s t ∧
      t.comp k = { s.comp k with
        st := .running, redelivered := (s.comp k).handling.isSome, handling := none
        mailbox := (match (s.comp k).handling with | some m => [m] | none => []) ++ (s.comp k).mailbox } ∧
      (k = 3 → t.tier.paused = false) ∧ IntRaised .fwctl 0 0x100 s t ∧
      (k ≠ 3 → Recorded { code := 0x0901, sev := .notice, srcType := 0x0300, unit := k, a := k } s t) ∧
      ∀ id ∈ s.heldUnrecorded k, ∀ i, s.item? id = some i → i.disp = none →
        ∃ j, t.item? id = some j ∧ j.disp = some (.failed { reason := .fwRestart }))

/-- Firmware's other steps (R337, R344, R345, R347, R348): an escalation and RESET_MODULE reset the module; ten seconds
disarm; SUPERVISOR takes the oldest
task of the highest class; the boot sequence opens the recorder, reads the passport, measures and serves without
firmware.
A command whose condition does not hold leaves the state as it is (the model's choice, log 2).
What goes beyond the rules is the model's: log 47, the boot sequence and the passport (DESIGN CHOICE). -/
def Obligations.FirmwareBootsWorksAndIsReset : Prop :=
  (∀ (s : State) (k a b : Nat), (∃ t, exec (.escalation k a b) s = .next t ∧ ResetWithCause 3 s t) ∧
    ∃ t, exec .resetModule s = .next t ∧ ResetWithCause 4 s t) ∧
  (∀ (s : State) (k : Nat), s.Shape → k < 6 → ∃ t, exec (.escArmedExpiry k) s = .next t ∧ OtherComps k s t ∧
    t.comp k = { s.comp k with armed := false } ∧ t.regs = s.regs ∧ t.log = s.log) ∧
  (∀ (s : State) (k : Task), nextTask s.fw.tasks = some k → (s.comp 1).st = .running →
    k ∈ s.fw.tasks ∧ (∀ j ∈ s.fw.tasks, 1 ≤ j.cls → j.cls ≤ 6 → k.cls ≤ j.cls) ∧
    ∃ t, exec .supervisorTask s = .next t ∧
      t.fw = { s.fw with tasks := s.fw.tasks.erase k, telemetry := s.fw.telemetry || decide (k.cls = 6) } ∧
      t.live .fwctl 0 0 = s.counted .fwctl 0 0 1 ∧
      (k.what = 6 ∨ k.what = 8 → t.log.nextSig = (s.log.nextSig + 1) % 64 ∧ t.cores = s.cores) ∧
      (k.what ≠ 5 → k.what ≠ 6 → k.what ≠ 8 → t.log = s.log ∧ t.cores = s.cores ∧ t.regs = s.regs)) ∧
  (∀ s : State, (nextTask s.fw.tasks = none ∨ (s.comp 1).st ≠ .running) → exec .supervisorTask s = .next s) ∧
  (∀ s : State, s.pwr.regulators = true → s.fw.booted = false → ∃ t, exec .bootSequence s = .next t ∧
    t.fw = { s.fw with st := .noFirmware, booted := true } ∧
    t.sec.passport = (if Config.passportValid then .good else .bad) ∧
    t.sec.identity = (if Config.identityValid then .good else .bad) ∧
    (∀ k, k < 6 → t.sec.floors.getD k 0 =
      max (Config.svnBaseline k) (match s.sec.record with | some r => r.floors.getD k 0 | none => 0)) ∧
    (s.sec.log = [] → t.sec.log.map (fun m => (m.digest, m.type)) =
      [(Config.measured 0, 1), (Config.measured 1, 2), (Config.measured 2, 3)]) ∧
    (s.log.minor = 0 → ∃ r, t.log.ring.head? = some r ∧ r.code = 0x0001 ∧ r.postmark = s.log.firstPostmark ∧
      t.log.next = s.log.firstPostmark + 1) ∧
    t.log.accepting = true ∧ bit (t.regN .sec 0 Reg.intStat) 8 = true) ∧
  (∀ s : State, (s.pwr.regulators = false ∨ s.fw.booted = true) → exec .bootSequence s = .next s) ∧
  (∀ (s : State) (a b : Nat) (m : List Byte), 64 < m.length → exec (.mailboxSend a b m) s = .next s)

/-- Mailboxes (R331): a message of up to 64 bytes joins its receiver's mailbox, behind those that stand there; a sender that
finds 256 of them waits, and its wait counts once; a fault and a restart of the component keep them. -/
def Obligations.MailboxesKeepMessagesAndCountWaits : Prop :=
  (∀ (s : State) (a b : Nat) (m : List Byte), s.Shape → 1 ≤ a → a ≤ 5 → 1 ≤ b → b ≤ 5 →
    m.length ≤ 64 → ∃ t, exec (.mailboxSend a b m) s = .next t ∧ OtherComps b s t ∧
      t.comp b = { s.comp b with mailbox := (s.comp b).mailbox ++ [(a, m)] } ∧
      t.live .fwctl 0 7 = s.counted .fwctl 0 7 (if 256 ≤ (s.comp b).mailbox.length then 1 else 0)) ∧
  (∀ (s : State) (k cause proc : Nat) (pc : W64), s.Shape → 1 ≤ k → k ≤ 5 → (s.comp k).armed = false →
    (∃ t, exec (.componentFault k cause proc pc) s = .next t ∧ (t.comp k).mailbox = (s.comp k).mailbox) ∧
    (∃ t, exec (.fwWatchdog k) s = .next t ∧ (t.comp k).mailbox = (s.comp k).mailbox) ∧
    (∃ t, exec (.restartOverrun k) s = .next t ∧ (t.comp k).mailbox = (s.comp k).mailbox) ∧
    (∃ t, exec (.restartComponent k) s = .next t ∧ (t.comp k).mailbox = (s.comp k).mailbox) ∧
    (∃ t, exec (.componentRestart k true) s = .next t ∧ (t.comp k).mailbox = (s.comp k).mailbox) ∧
    ∃ t l, exec (.componentRunning k) s = .next t ∧ (t.comp k).mailbox = l ++ (s.comp k).mailbox ∧ l.length ≤ 1)

/-- The field record, debug tokens and box keys (R350, R357 to R361, R427): the record's older copy is replaced by one that
counts on; a token is checked once, one that passes opens its scope for its lifetime, is measured and clears the keys if its
scope says so, one that fails opens nothing, and either way the result is kept and the token dropped; the lifetime's end and
DBG_LOCK close the scope and release the halted; a key is installed once per box, refused where its halves are equal, and
KEY_DATA is cleared.
A command whose condition does not hold leaves the state as it is (the model's choice, log 2).
What goes beyond the rules is the model's: log 9, the debug nonce is a free value (DESIGN CHOICE); log 47, the boot
sequence and the passport (DESIGN CHOICE). -/
def Obligations.TokensOpenScopesAndKeysAreInstalled : Prop :=
  (∀ s : State, s.sec.field.length = 2 → ∃ t r, exec .fieldRecordWrite s = .next t ∧ t.sec.record = some r ∧
    (∀ o, s.sec.record = some o → r.seq = o.seq + 1) ∧ (s.sec.record = none → r.seq = 1) ∧
    r.floors = s.sec.floors ∧ r.retired = s.sec.retired ∧ r.mapouts = s.sec.mapouts ∧
    t.sec = { s.sec with field := t.sec.field } ∧ t.sec.field.length = 2) ∧
  (∀ (s : State) (l : List Byte),
    (s.sec.tokenRes ≠ .checking → ∃ t, exec (.token l) s = .next t ∧
      t.sec = { s.sec with tokenRes := .checking, tokenBytes := l } ∧ t.test.ir = .token) ∧
    (s.sec.tokenRes = .checking → ∃ t, exec (.token l) s = .next t ∧ t.sec = s.sec ∧ t.test.ir = .token ∧ t.test.dr = 2)) ∧
  (∀ (s : State) (l : List Byte), s.sec.tokenRes = .checking → s.sec.tokenBytes = l →
    (s.sec.tokenOk l = true → ∃ t, exec .tokenCheckDone s = .next t ∧ t.sec.tokenRes = .accepted ∧ t.sec.tokenBytes = [] ∧
      t.sec.scope = leNat ((l.drop 44).take 1) ∧ t.sec.remaining = leNat ((l.drop 40).take 4) ∧ t.sec.debugSeen = true ∧
      (s.sec.log.length < 63 → t.sec.log = s.sec.log ++ [{ digest := Config.sha3 l, type := 5 }]) ∧
      (∀ b, b < 64 → (t.box b).key = if bit (leNat ((l.drop 44).take 1)) 2 then none else (s.box b).key) ∧
      t.live .sec 0 3 = s.counted .sec 0 3 1 ∧ IntRaised .sec 0 0x100 s t ∧
      Recorded { pageRec .sec 0 0x0A02 .notice with
        a := leNat ((l.drop 44).take 1), b := leNat ((l.drop 40).take 4) } s t) ∧
    (s.sec.tokenOk l = false → ∃ t, exec .tokenCheckDone s = .next t ∧ t.sec.tokenRes = .refused ∧ t.sec.tokenBytes = [] ∧
      t.sec.scope = s.sec.scope ∧ t.sec.log = s.sec.log ∧ t.boxes = s.boxes ∧ t.log = s.log ∧
      t.live .sec 0 4 = s.counted .sec 0 4 1)) ∧
  (∀ s : State, s.sec.tokenRes ≠ .checking → exec .tokenCheckDone s = .next s) ∧
  (∀ (s t : State), (exec .secDbgLock s = .next t ∨ (exec .debugLifetimeExpiry s = .next t ∧ s.sec.scope ≠ 0)) →
    t.sec = { s.sec with scope := 0, remaining := 0 } ∧ t.test.harts = [] ∧ (∀ k ∈ t.fw.comps, k.st ≠ .halted) ∧
    IntRaised .sec 0 0x100 s t ∧
    ∀ c n, s.Shape → c < 68 → n < 4 → (s.clerk c n).state = .halted → (∃ x ∈ s.test.harts, x.num = 4 * c + n) →
      (s.hart (4 * c + n)).was ≠ .halted → (t.clerk c n).state = (s.hart (4 * c + n)).was) ∧
  (∀ s : State, (∃ t, exec .secDbgLock s = .next t) ∧ (s.sec.scope ≠ 0 → exec .debugLifetimeExpiry s = exec .secDbgLock s) ∧
    (s.sec.scope = 0 → exec .debugLifetimeExpiry s = .next s)) ∧
  (∀ (s : State) (b : Nat), s.Shape → b < 64 →
    (s.sec.keyWord.toNat % 2 ^ 256 = s.sec.keyWord.toNat / 2 ^ 256 → ∃ t, exec (.keyCmdInstall b) s = .next t ∧
      t.boxes = s.boxes ∧ t.sec = { s.sec with keyData := List.replicate 16 0, keyResult := 1 }) ∧
    (s.sec.keyWord.toNat % 2 ^ 256 ≠ s.sec.keyWord.toNat / 2 ^ 256 →
      ((s.box b).key.isSome = true → ∃ t, exec (.keyCmdInstall b) s = .next t ∧ t.boxes = s.boxes ∧
        t.sec = { s.sec with keyData := List.replicate 16 0, keyResult := 2 }) ∧
      ((s.box b).key = none → ∃ t, exec (.keyCmdInstall b) s = .next t ∧ OtherBoxes b s t ∧
        (t.box b).key = some s.sec.keyWord ∧ (t.box b).pt = (s.box b).pt ∧ t.mem = s.mem ∧
        t.live .sec 0 5 = s.counted .sec 0 5 1 ∧
        t.sec = { s.sec with keyData := List.replicate 16 0, keyResult := 0 })) ∧
    ∃ t, exec (.keyCmdClear b) s = .next t ∧ OtherBoxes b s t ∧ t.box b = { s.box b with key := none } ∧
      t.sec = { s.sec with keyResult := 0 })

/-- The recorder and its reads (R386, R389, R390, R392 to R395): the oldest record that waits takes the next postmark, epoch
and position and enters the ring, or is only counted beyond the round's limit; postmarks never pass the reservation; a
flush ends with RECORDER_FLUSH and closes the recorder; the log's and the round's reads take both words of one instant; the
window shows the records the cursor asks for; the signature's window starts at its cursor.
A command whose condition does not hold leaves the state as it is (the model's choice, log 2). -/
def Obligations.RecordsAreAcceptedFlushedAndRead : Prop :=
  (∀ (s : State) (r : Record) (q : List Record), s.log.queue = r :: q → s.log.accepting = true →
    (s.log.hasMirror = false ∨ s.log.next < s.log.reserve) →
    ((r.minor = false ∨ s.log.minor < s.roundLimit) → ∃ t, exec .recordAccept s = .next t ∧ t.log = { s.log with
        queue := q, next := s.log.next + 1, minor := s.log.minor + (if r.minor then 1 else 0)
        ring := ({ r with postmark := s.log.next, epoch := s.fab.epoch, pos := s.pos } :: s.log.ring).take 1048576 } ∧
      t.live .log 0 0 = s.counted .log 0 0 1 ∧ OtherCounters [ctrKey .log 0 0] s t ∧ t.regs = s.regs) ∧
    (r.minor = true → s.roundLimit ≤ s.log.minor → ∃ t, exec .recordAccept s = .next t ∧
      t.log = { s.log with queue := q, suppressed := s.log.suppressed + 1 } ∧ t.live .log 0 1 = s.counted .log 0 1 1 ∧
      OtherCounters [ctrKey .log 0 1] s t)) ∧
  (∀ (s : State) (r : Record) (q : List Record), s.log.queue = r :: q →
    (s.log.accepting = false → exec .recordAccept s = .next s) ∧
    (s.log.accepting = true → s.log.hasMirror = true → s.log.reserve ≤ s.log.next →
      (s.tier.paused = true → ∃ t, exec .recordAccept s = .next t ∧ t.log = { s.log with held := true }) ∧
      (s.tier.paused = false → ∃ t, exec .recordAccept s = .next t ∧ t.log.queue = s.log.queue ∧ t.log.next = s.log.next ∧
        t.log.ring = s.log.ring ∧ t.log.reserve = s.log.next - 1 + 2 ^ 32 ∧ t.log.mirrorNext = s.log.next))) ∧
  (∀ s : State, (s.log.accepting = true → ∃ t r, exec .recorderFlush s = .next t ∧ t.log.queue = [] ∧
      t.log.accepting = false ∧ t.log.hasMirror = true ∧ t.log.mirrorNext = t.log.next ∧ s.log.next < t.log.next ∧
      t.log.reserve = t.log.next - 1 + 2 ^ 32 ∧ t.log.ring.head? = some r ∧ r.code = 0x0003 ∧
      r.postmark + 1 = t.log.next ∧ t.regs = s.regs) ∧
    (s.log.accepting = false → exec .recorderFlush s = .next s)) ∧
  (∀ (s : State) (lo : W32), ∃ t, exec (.logCursorWrite lo) s = .next t ∧
    t.reg (regAddr .log 0 Reg.log_logCursorLo) = lo ∧ OtherRegs [regAddr .log 0 Reg.log_logCursorLo] s t ∧
    (∀ k, k < 16 → t.log.window.getD k none =
      s.recordAt (lo.toNat + s.regN .log 0 Reg.log_logCursorHi * 2 ^ 32 + k)) ∧
    t.live .log 0 4 = s.counted .log 0 4 1 ∧ t.log.ring = s.log.ring ∧ t.log.mirror = s.log.mirror) ∧
  (∀ s : State, ∃ t, exec .logOldestRead s = .next t ∧
    t.reg (regAddr .log 0 Reg.log_logOldestHi) = BitVec.ofNat 32 (s.logEnds.1 / 2 ^ 32) ∧
    t.reg (regAddr .log 0 Reg.log_logNewestLo) = BitVec.ofNat 32 s.logEnds.2 ∧
    t.reg (regAddr .log 0 Reg.log_logNewestHi) = BitVec.ofNat 32 (s.logEnds.2 / 2 ^ 32) ∧
    OtherRegs [regAddr .log 0 Reg.log_logOldestHi, regAddr .log 0 Reg.log_logNewestLo, regAddr .log 0 Reg.log_logNewestHi] s t ∧
    t.log = s.log) ∧
  (∀ s : State, ∃ t, exec .roundNowRead s = .next t ∧
    t.reg (regAddr .time 0 Reg.time_roundNowHi) = BitVec.ofNat 32 (s.roundNow / 2 ^ 32 % 2 ^ 16) ∧
    t.reg (regAddr .time 0 Reg.time_phaseNow) = BitVec.ofNat 32 (s.phase % 2 ^ 30) ∧
    OtherRegs [regAddr .time 0 Reg.time_roundNowHi, regAddr .time 0 Reg.time_phaseNow] s t ∧ t.time = s.time) ∧
  (∀ (s : State) (p : Pg) (i n : Nat), pageOf (p.base i + 0x800 + 8 * n) = some (p, i) → n < p.counters i → n < 128 →
    (∃ t, exec (.counterLowRead (p.base i + 0x800 + 8 * n)) s = .next t ∧ t.ctr.live = s.ctr.live ∧
      cellGet 0 t.ctr.high (p.base i + 0x800 + 8 * n + 4) =
        BitVec.ofNat 32 ((cellGet 0 s.ctr.latched (ctrKey p i n)).toNat / 2 ^ 32)) ∧
    (pageOf (p.base i + 0xC00 + 8 * n) = some (p, i) → ∃ t, exec (.counterLowRead (p.base i + 0xC00 + 8 * n)) s = .next t ∧
      t.ctr.live = s.ctr.live ∧ cellGet 0 t.ctr.high (p.base i + 0xC00 + 8 * n + 4) =
        BitVec.ofNat 32 ((s.live p i n).toNat / 2 ^ 32))) ∧
  (∀ s : State, ∃ t, exec .sigPmRead s = .next t ∧
    t.reg (regAddr .hub 0 Reg.hub_sigPmHi) = BitVec.ofNat 32 (s.sigPm / 2 ^ 32) ∧
    OtherRegs [regAddr .hub 0 Reg.hub_sigPmHi] s t) ∧
  (∀ (s : State) (v : W32), ∃ t, exec (.sigCursorWrite v) s = .next t ∧
    t.reg (regAddr .hub 0 Reg.hub_sigCursor) = v &&& 0xFFFFF ∧ OtherRegs [regAddr .hub 0 Reg.hub_sigCursor] s t ∧
    t.log.sigs = s.log.sigs ∧ t.log.sigCopyPm = s.sigPm ∧
    (∀ g, s.selSig = some g → t.log.sigCopy = (g.bytes.drop (v.toNat % 2 ^ 20)).take 64) ∧
    (s.selSig = none → t.log.sigCopy = []))

/-- Errors and ends of items (R363 to R366, R380, R383): poison that a core takes in is noted in its instance; an
uncorrectable error in a ledger entry is recorded and fails the item with POISON, with its tag, without it, or for every box
with open items, as what still reads allows; an item that is over, with nothing running, gets its disposition once, and its
entry waits for its ring; a signature takes the next postmark and replaces the oldest of the 64.
A command whose condition does not hold leaves the state as it is (the model's choice, log 2).
What goes beyond the rules is the model's: log 22, a signature's CPER places are those of the UEFI specification
(PRESUMED); log 23, a signature carries the postmark of its event's record (DEDUCED). -/
def Obligations.ErrorsAndDispositionsAreRecordedOnce : Prop :=
  (∀ (s : State) (c va : Nat), s.Shape → c < 68 →
    (∀ x, (s.core c).run = some x → ∃ t, exec (.poisonConsumed c va) s = .next t ∧ OtherCores c s t ∧
      t.core c = { s.core c with run := some { x with poison := some va } } ∧ t.items = s.items) ∧
    ((s.core c).run = none → exec (.poisonConsumed c va) s = .next s)) ∧
  (∀ (s : State) (id : Nat) (i : Item) (tag pos : Bool), s.item? id = some i → i.disp = none →
    ∃ t j, exec (.ledgerEntryUe id tag pos) s = .next t ∧ t.item? id = some j ∧
      j.disp = some (.failed { reason := .poison }) ∧ bit (t.regN .hub 0 Reg.errStat) 2 = true ∧
      (tag = true → j.tagLost = i.tagLost ∧
        Recorded { pageRec .hub 0 0x0601 .error with box := some i.box, tag := some i.tag } s t) ∧
      (tag = false → j.tagLost = true) ∧
      (tag = false → pos = true → j.submitValid = i.submitValid ∧
        Recorded { pageRec .hub 0 0x0601 .error with box := some i.box } s t) ∧
      (tag = false → pos = false → j.submitValid = false ∧ ∀ b, s.Shape → b < 64 → b ≠ i.box → s.openItems b ≠ [] →
        ∃ e ∈ (t.box b).dlqWait, e.item = none ∧ e.body = j.deadLetter { reason := .poison })) ∧
  (∀ (s : State) (id : Nat) (tag pos : Bool),
    (s.item? id = none → exec (.ledgerEntryUe id tag pos) s = .next s ∧ exec (.dispositionRecord id) s = .next s) ∧
    (∀ i, s.item? id = some i → i.disp.isSome = true → exec (.dispositionRecord id) s = .next s ∧
      ∃ t, exec (.ledgerEntryUe id tag pos) s = .next t ∧ t.items = s.items ∧ t.boxes = s.boxes)) ∧
  (∀ (s : State) (id : Nat) (i : Item), s.item? id = some i → i.disp = none →
    (i.over = true → s.runningOf id = false → ∃ t j, exec (.dispositionRecord id) s = .next t ∧ t.item? id = some j ∧
      j.disp = some i.verdict ∧ j.state = .resolved ∧ j.dispRound = s.roundNow ∧ j.dispPhase = s.phase ∧ j.tag = i.tag ∧
      (s.Shape → i.box < 64 → s.isWorker = false →
        (∀ d, i.verdict = .done d → i.collect = false → i.mirrorWait = [] →
          ∃ e ∈ (t.box i.box).cqWait, e.item = some id ∧ e.body = j.completion d) ∧
        (∀ f, i.verdict = .failed f → ∃ e ∈ (t.box i.box).dlqWait, e.item = some id ∧ e.body = j.deadLetter f))) ∧
    ((i.over = false ∨ s.runningOf id = true) → exec (.dispositionRecord id) s = .next s)) ∧
  (∀ (s : State) (k u : Nat) (a b : W64),
    (1 ≤ k → k ≤ 10 → s.log.queue = [] → s.log.sigs.length = 64 → ∃ t g, exec (.signatureWrite k u a b) s = .next t ∧
      t.log.sigs.getD (s.log.nextSig % 64) none = some g ∧ t.log.nextSig = (s.log.nextSig + 1) % 64 ∧
      (∀ n, n ≠ s.log.nextSig % 64 → t.log.sigs.getD n none = s.log.sigs.getD n none) ∧
      g.postmark = s.log.next ∧ g.bytes = cper s k u s.log.next a b ∧
      (s.log.minor < s.roundLimit → ∃ r, t.log.ring.head? = some r ∧ r.code = 0x0107 ∧ r.unit = u ∧ r.a = k ∧
        r.postmark = g.postmark)) ∧
    ((k = 0 ∨ 10 < k) → exec (.signatureWrite k u a b) s = .next s))

/-- Budget moves (R406): only the manager without MANUAL moves budget; the modules that hold 400 more than they need are
lowered first, by MOVE_MAX at most and never below 4,800; nothing rises before every decrease has been reported; then each
module that needs more rises by MOVE_MAX at most, never above its need, 9,600 or what the system's budget leaves.
A command whose condition does not hold leaves the state as it is (the model's choice, log 2).
What goes beyond the rules is the model's: log 30, membership, succession and formation (DESIGN CHOICE). -/
def Obligations.BudgetMovesLowerBeforeTheyRaise : Prop :=
  (∀ s : State, (s.fab.role ≠ .manager ∨ bit (s.regN .frank 0 Reg.frank_frankMoveCtrl) 31 = true) →
    exec .budgetMove s = .next s) ∧
  (∀ (s : State) (p b n : Nat), s.fab.role = .manager → bit (s.regN .frank 0 Reg.frank_frankMoveCtrl) 31 = false →
    s.pwr.decreasing = [] → (p, b, n) ∈ s.needs → n + 400 < b →
    ∃ t q, exec .budgetMove s = .next t ∧ Out.flood q (.budget p (max 4800 (b - min s.moveMax (b - n)))) ∈ t.outbox ∧
      (p ≠ s.pos → (p, max 4800 (b - min s.moveMax (b - n))) ∈ t.pwr.decreasing) ∧
      (p = s.pos → t.field .frank 0 Reg.frank_frankBudget 15 0 = max 4800 (b - min s.moveMax (b - n)) % 65536) ∧
      (∀ d ∈ t.pwr.decreasing, 4800 ≤ d.2 ∧ d.1 ≠ s.pos) ∧ t.fab.budgets = s.fab.budgets) ∧
  (∀ s : State, s.fab.role = .manager → bit (s.regN .frank 0 Reg.frank_frankMoveCtrl) 31 = false →
    (∃ d ∈ s.pwr.decreasing, cellGet 0 s.fab.budgets d.1 ≠ d.2) →
    ∃ t, exec .budgetMove s = .next t ∧ t.pwr = s.pwr ∧ t.outbox = s.outbox ∧ t.regs = s.regs ∧ t.fab = s.fab) ∧
  (∀ s : State, s.fab.role = .manager → bit (s.regN .frank 0 Reg.frank_frankMoveCtrl) 31 = false →
    (∀ d ∈ s.pwr.decreasing, cellGet 0 s.fab.budgets d.1 = d.2) →
    (s.pwr.decreasing ≠ [] ∨ ∀ x ∈ s.needs, x.2.1 ≤ x.2.2 + 400) →
    ∃ t, exec .budgetMove s = .next t ∧ t.pwr.decreasing = [] ∧
      ∀ d ∈ raiseBudgets s.moveMax (s.field .frank 0 Reg.frank_frankSysBudget 19 0 - (s.needs.map (·.2.1)).sum) s.needs,
        ∃ q, Out.flood q (.budget d.1 d.2) ∈ t.outbox) ∧
  (∀ (m room : Nat) (l : List (Nat × Nat × Nat)),
    (∀ d ∈ raiseBudgets m room l, ∃ b n, (d.1, b, n) ∈ l ∧ b < d.2 ∧ d.2 ≤ b + m ∧ d.2 ≤ n ∧ d.2 ≤ 9600) ∧
    ((l.map (·.1)).Nodup →
      ((raiseBudgets m room l).map (fun d => d.2 - ((l.find? (fun x => x.1 == d.1)).getD (0, 0, 0)).2.1)).sum ≤ room))

/-- Pattern tests (R418 to R422, R431): on a DISABLED link GEN_EN and CHK_EN set their enable, pattern and lanes, a checker
that is enabled begins anew, and INJECT sends one error while the generator runs; a link that is not DISABLED or a reserved
pattern is refused and flagged; at the host port a test holds the port down and its end begins negotiation; a running
checker locks once and loses its lock with what it counted.
A command whose condition does not hold leaves the state as it is (the model's choice, log 2).
What goes beyond the rules is the model's: log 29, what travels on the links (DESIGN CHOICE). -/
def Obligations.PatternTestsRunOnDisabledLinks : Prop :=
  (∀ (s : State) (n p m : Nat) (on : Bool), n < 24 → (s.link n).st = .disabled → p ≤ 8 → m < 16 →
    bits (s.prbs n) 3 0 ≤ 8 → bits (s.prbs n) 7 4 ≤ 8 →
    (∃ t, exec (.genEn n on p m) s = .next t ∧ bit (t.prbs n) 8 = on ∧ bits (t.prbs n) 3 0 = p ∧ bits (t.prbs n) 19 16 = m ∧
      bit (t.prbs n) 9 = bit (s.prbs n) 9 ∧ bits (t.prbs n) 7 4 = bits (s.prbs n) 7 4 ∧ t.test = s.test ∧ t.log = s.log) ∧
    (∃ t, exec (.chkEn n on p m) s = .next t ∧ bit (t.prbs n) 9 = on ∧ bits (t.prbs n) 7 4 = p ∧ bits (t.prbs n) 19 16 = m ∧
      bit (t.prbs n) 8 = bit (s.prbs n) 8 ∧ bits (t.prbs n) 3 0 = bits (s.prbs n) 3 0 ∧
      (on = true → bit (s.prbs n) 9 = false → ∀ l, l < 4 → t.checker n l = { diag := (s.checker n l).diag }) ∧
      ((on = false ∨ bit (s.prbs n) 9 = true) → t.test = s.test)) ∧
    (∃ t, exec (.inject n) s = .next t ∧ t.test = s.test ∧
      t.outbox = if bit (s.prbs n) 8 then Out.inject n (bits (s.prbs n) 23 16) :: s.outbox else s.outbox)) ∧
  (∀ (s : State) (n p m : Nat) (on : Bool), n < 24 → ((s.link n).st ≠ .disabled ∨ (9 ≤ p ∧ p < 16)) →
    (∃ t, exec (.genEn n on p m) s = .next t ∧ t.prbs n = s.prbs n ∧ t.test = s.test ∧ t.outbox = s.outbox ∧
      bit (t.regN .link n Reg.errStat) 0 = true) ∧
    ∃ t, exec (.chkEn n on p m) s = .next t ∧ t.prbs n = s.prbs n ∧ t.test = s.test ∧
      bit (t.regN .link n Reg.errStat) 0 = true) ∧
  (∀ (s : State) (p m : Nat), p ≤ 8 → m < 256 → bits (s.prbs 24) 3 0 ≤ 8 → bits (s.prbs 24) 7 4 ≤ 8 → s.host.speed ≠ 0 →
    (∃ t, exec (.genEn 24 true p m) s = .next t ∧ t.host = { s.host with speed := 0, an := 0, pcsLock := false } ∧
      bits (t.prbs 24) 23 16 = m ∧ Recorded { pageRec .hostif 0 0x0800 .warning with a := 0 } s t) ∧
    (bit (s.prbs 24) 8 = true → bit (s.prbs 24) 9 = false → ∃ t, exec (.genEn 24 false p m) s = .next t ∧
      t.host = { s.host with speed := 0, an := 1, pcsLock := false } ∧ bit (t.prbs 24) 8 = false)) ∧
  (∀ (s : State) (n l b e : Nat) (inv : Bool), s.test.checkers.length = 104 →
    (s.checking n l = true → (s.checker n l).locked = false → ∃ t, exec (.checkerLock n l inv) s = .next t ∧
      t.checker n l = { s.checker n l with locked := true, inverted := inv } ∧
      (∀ k, k < 8 → k ≠ l → t.checker n k = s.checker n k) ∧ exec (.checkerLoss n l b e) s = .next s) ∧
    (s.checking n l = true → (s.checker n l).locked = true → ∃ t, exec (.checkerLoss n l b e) s = .next t ∧
      t.checker n l = { s.checker n l with
        locked := false, lost := true, bits := ((s.checker n l).bits + b) % 2 ^ 64
        errors := ((s.checker n l).errors + e) % 2 ^ 64 } ∧ exec (.checkerLock n l inv) s = .next s) ∧
    (s.checking n l = false → exec (.checkerLock n l inv) s = .next s ∧ exec (.checkerLoss n l b e) s = .next s))

/-- The TAP (R424 to R427): IDCODE tells the stepping and is selected by a reset, BYPASS is one bit, NONCE the token's
nonce, DTMCS whether a DMI operation failed; EXTEST and SAMPLE sample the pins; the production tests act only on a module
without a valid passport and as BYPASS elsewhere; every DMI operation fails until a token is accepted, then reads and
writes the debug module.
What goes beyond the rules is the model's: log 45, test and sideband values that the spec does not give (DESIGN
CHOICE). -/
def Obligations.TapInstructionsShiftTheirRegister : Prop :=
  (∀ (s : State) (v : Nat), (v = if s.stepping = .B0 then 0x14A6_476F else 0x04A6_476F) →
    (∃ t, exec .idcode s = .next t ∧ t.test = { s.test with ir := .idcode, dr := v } ∧ t.outbox = .tap v 32 :: s.outbox) ∧
    ∃ t, exec .tapReset s = .next t ∧ t.test = { s.test with ir := .idcode, dr := v } ∧ t.outbox = s.outbox) ∧
  (∀ s : State,
    (∃ t, exec .bypass s = .next t ∧ t.test = { s.test with ir := .bypass, dr := 0 } ∧ t.outbox = .tap 0 1 :: s.outbox) ∧
    (∃ t, exec .nonce s = .next t ∧ t.test.ir = .nonce ∧ t.outbox = .tap s.sec.nonce.toNat 64 :: s.outbox ∧ t.sec = s.sec) ∧
    (∃ t, exec .dtmcs s = .next t ∧ t.test.ir = .dtmcs ∧
      t.outbox = .tap (if s.test.dmiFailed then 2161 else 113) 32 :: s.outbox) ∧
    (∃ t v, exec .extest s = .next t ∧ t.test = { s.test with ir := .extest, dr := v } ∧ t.outbox = .tap v 64 :: s.outbox) ∧
    ∃ t v, exec .samplePreload s = .next t ∧ t.test = { s.test with ir := .sample, dr := v } ∧
      t.outbox = .tap v 64 :: s.outbox) ∧
  (∀ (s : State) (d c p k m : Nat) (x : W64), d < 4 → c < 68 →
    (s.sec.passport = .good → exec (.tapScan d x) s = exec .bypass s ∧ exec (.lbist c p k) s = exec .bypass s ∧
      exec (.mbist m) s = exec .bypass s) ∧
    (s.sec.passport ≠ .good → s.Shape →
      (∃ t v, exec (.tapScan d x) s = .next t ∧ t.test = { s.test with ir := .scan, dr := v } ∧
        t.outbox = .tap v 64 :: s.outbox ∧ t.cores = s.cores) ∧
      (∃ t v, exec (.lbist c p k) s = .next t ∧ t.test = { s.test with ir := .lbist, dr := v } ∧ OtherCores c s t ∧
        t.core c = { s.core c with nextPattern := (p + 1) % 16, corner := k }) ∧
      ∃ t v, exec (.mbist m) s = .next t ∧ t.test = { s.test with ir := .mbist, dr := v } ∧
        ∀ j, j < 68 → t.core j = { s.core j with cbuf := (t.core j).cbuf, ph := (t.core j).ph })) ∧
  (∀ (s : State) (op a : Nat) (v : W32), s.sec.scope = 0 → ∃ t, exec (.dmi op a v) s = .next t ∧
    t.test = { s.test with dmiFailed := true, ir := .dmi, dr := a * 2 ^ 34 + 2 } ∧ t.cores = s.cores ∧ t.fw = s.fw ∧
    t.mem = s.mem ∧ t.regs = s.regs) ∧
  (∀ (s : State) (v : W32), s.sec.scope ≠ 0 →
    (∃ t, exec (.dmi 1 0x11 v) s = .next t ∧ t.test.dmiFailed = false ∧ t.cores = s.cores ∧
      t.outbox = .tap (0x11 * 2 ^ 34 + s.dmstatus % 2 ^ 32 * 4) 41 :: s.outbox) ∧
    (∃ t, exec (.dmi 2 0x04 v) s = .next t ∧ t.dmReg 0x04 = v ∧ (∀ a, a ≠ 0x04 → t.dmReg a = s.dmReg a)) ∧
    (bit v.toNat 31 = true → bit v.toNat 28 = false → ∃ t u, exec (.dmi 2 0x10 v) s = .next t ∧
      exec (.hartHalt (bits v.toNat 25 16 + 1024 * bits v.toNat 15 6)) s = .next u ∧ t.cores = u.cores ∧ t.fw = u.fw ∧
      t.test.harts = u.test.harts))

/-- Harts under debug (R428): a hart of the unlocked scope halts where it is and resumes as it was; a step runs one
instruction and halts again; registers are read and written while it is halted only; a trigger that matches halts it. A
hart outside the scope does not change.
A command whose condition does not hold leaves the state as it is (the model's choice, log 2).
What goes beyond the rules is the model's: log 44, the debug module is that of the RISC-V Debug Specification 1.0
(PRESUMED). -/
def Obligations.HartsHaltStepAndResume : Prop :=
  (∀ (s : State) (h : Nat), s.hartSeen h = false → exec (.hartHalt h) s = .next s ∧ exec (.hartResume h) s = .next s ∧
    exec (.hartSingleStep h) s = .next s ∧ ∀ r w, exec (.accessRegister h r w) s = .next s) ∧
  (∀ (s : State) (c n : Nat), s.Shape → c < 68 → n < 4 → s.hartSeen (4 * c + n) = true →
    ((s.core c).state ≠ .fenced → (s.core c).state ≠ .reset → (s.clerk c n).state ≠ .halted →
      ∃ t, exec (.hartHalt (4 * c + n)) s = .next t ∧ OtherClerks c n s t ∧
        t.clerk c n = { s.clerk c n with state := .halted } ∧ (t.hart (4 * c + n)).halted = true ∧
        (t.hart (4 * c + n)).was = (s.clerk c n).state ∧ ∀ j, j ≠ 4 * c + n → t.hart j = s.hart j) ∧
    (((s.core c).state = .fenced ∨ (s.core c).state = .reset ∨ (s.clerk c n).state = .halted) →
      exec (.hartHalt (4 * c + n)) s = .next s) ∧
    ((s.clerk c n).state = .halted →
      (∃ t, exec (.hartResume (4 * c + n)) s = .next t ∧ OtherClerks c n s t ∧
        t.clerk c n = { s.clerk c n with state := (s.hart (4 * c + n)).was } ∧ (t.hart (4 * c + n)).halted = false) ∧
      ∃ t, exec (.hartSingleStep (4 * c + n)) s = .next t ∧ ((t.core c).run = none ∨ (t.clerk c n).state = .halted) ∧
        ∀ r, (s.unhaltClerk (4 * c + n)).clerkOp c n = some (.tparm r) →
          ∃ u, exec (.tparm c n) (s.unhaltClerk (4 * c + n)) = .next u ∧
            ((u.core c).run.isSome = true → (t.clerk c n).pc = (u.clerk c n).pc ∧ (t.clerk c n).x = (u.clerk c n).x)) ∧
    ((s.clerk c n).state ≠ .halted → exec (.hartResume (4 * c + n)) s = .next s ∧
      exec (.hartSingleStep (4 * c + n)) s = .next s)) ∧
  (∀ (s : State) (h : Nat), s.Shape → 272 ≤ h → h < 278 → s.hartSeen h = true →
    ((s.comp (fpComp (h - 272))).st = .running → ∃ t, exec (.hartHalt h) s = .next t ∧
      OtherComps (fpComp (h - 272)) s t ∧ t.comp (fpComp (h - 272)) = { s.comp (fpComp (h - 272)) with st := .halted } ∧
      (t.hart h).halted = true ∧ t.cores = s.cores) ∧
    (274 ≤ h → (s.hart h).halted = true → (s.comp (fpComp (h - 272))).st = .halted →
      ∃ t, exec (.hartResume h) s = .next t ∧ OtherComps (fpComp (h - 272)) s t ∧
        t.comp (fpComp (h - 272)) = { s.comp (fpComp (h - 272)) with st := .running } ∧ (t.hart h).halted = false)) ∧
  (∀ (s : State) (c n k : Nat) (v : W64), s.Shape → c < 68 → n < 4 → s.hartSeen (4 * c + n) = true →
    ((s.clerk c n).state = .halted → k < 32 →
      (∃ t, exec (.accessRegister (4 * c + n) (0x1000 + k) none) s = .next t ∧ t.cores = s.cores ∧
        t.dmReg 0x04 = ((s.clerk c n).getX k).setWidth 32 ∧ t.dmReg 0x05 = ((s.clerk c n).getX k >>> 32).setWidth 32) ∧
      (∃ t, exec (.accessRegister (4 * c + n) (0x1000 + k) (some v)) s = .next t ∧ OtherClerks c n s t ∧
        t.clerk c n = (s.clerk c n).setX k v) ∧
      ∃ t, exec (.accessRegister (4 * c + n) 0x7B1 (some v)) s = .next t ∧ OtherClerks c n s t ∧
        t.clerk c n = { s.clerk c n with pc := v }) ∧
    ((s.clerk c n).state ≠ .halted → bits (s.dmReg 0x16).toNat 10 8 = 0 →
      ∃ t, exec (.accessRegister (4 * c + n) (0x1000 + k) (some v)) s = .next t ∧ t.cores = s.cores ∧
        bits (t.dmReg 0x16).toNat 10 8 = 4) ∧
    ((s.clerk c n).state = .halted → bits (s.dmReg 0x16).toNat 10 8 = 0 → 0x1020 ≤ k →
      ∃ t, exec (.accessRegister (4 * c + n) k (some v)) s = .next t ∧ t.cores = s.cores ∧
        bits (t.dmReg 0x16).toNat 10 8 = 2)) ∧
  (∀ (s : State) (h kind : Nat) (a : W64),
    ((∃ k, k < hartTriggers h ∧ s.triggerHit h k kind a = true) → exec (.triggerMatch h kind a) s = exec (.hartHalt h) s) ∧
    ((∀ k, k < hartTriggers h → s.triggerHit h k kind a = false) → exec (.triggerMatch h kind a) s = .next s))

/-- The system bus (R429): nothing without SCOPE[2]; a device address is read and written through its home, an address that
does not exist answers sberror 2, a misaligned one 3, another size 4, and poison or a protected page 7; a register address
takes 32-bit accesses, and a key register is refused with 7.
A command whose condition does not hold leaves the state as it is (the model's choice, log 2).
What goes beyond the rules is the model's: log 44, the debug module is that of the RISC-V Debug Specification 1.0
(PRESUMED). -/
def Obligations.SystemBusAccessesAnswerOrFail : Prop :=
  (∀ (s : State) (a : W64) (n : Nat) (w : Option W64), s.unlocked 2 = false → exec (.systemBusAccess a n w) s = .next s) ∧
  (∀ (s : State) (a w : W64) (n da : Nat), s.unlocked 2 = true → bit a.toNat 63 = false → da = a.toNat % 2 ^ 48 →
    s.home da ≠ .none → (n = 4 ∨ n = 8) → da % n = 0 → s.protectedPage (da / pageSize) = false →
    (s.poisonAt da = false → ∃ t, exec (.systemBusAccess a n none) s = .next t ∧ t.mem = s.mem ∧ t.regs = s.regs ∧
      t.outbox = .sbus 0 (BitVec.ofNat 64 (leNat ((List.range n).map (fun i => s.byteAt (da + i))))) :: s.outbox) ∧
    (s.poisonAt da = true → ∃ t, exec (.systemBusAccess a n none) s = .next t ∧ t.outbox = .sbus 7 0 :: s.outbox ∧
      bits (t.dmReg dmSbcs).toNat 14 12 = 7) ∧
    (s.held = [] → da + n ≤ flashBase → ∃ t, exec (.systemBusAccess a n (some w)) s = .next t ∧
      (∀ i, i < n → t.byteAt (da + i) = (leBytes n w.toNat).getD i 0) ∧
      (∀ x, (x < da ∨ da + n ≤ x) → t.byteAt x = s.byteAt x) ∧ t.outbox = .sbus 0 0 :: s.outbox ∧ t.regs = s.regs)) ∧
  (∀ (s : State) (a : W64) (n da e : Nat) (w : Option W64), s.unlocked 2 = true → bit a.toNat 63 = false →
    da = a.toNat % 2 ^ 48 →
    (s.home da = .none ∧ e = 2 ∨ s.home da ≠ .none ∧ n ≠ 4 ∧ n ≠ 8 ∧ e = 4 ∨
      s.home da ≠ .none ∧ (n = 4 ∨ n = 8) ∧ da % n ≠ 0 ∧ e = 3 ∨
      s.home da ≠ .none ∧ (n = 4 ∨ n = 8) ∧ da % n = 0 ∧ s.protectedPage (da / pageSize) = true ∧ e = 7) →
    ∃ t, exec (.systemBusAccess a n w) s = .next t ∧ t.outbox = .sbus e 0 :: s.outbox ∧ t.mem = s.mem ∧
      bits (t.dmReg dmSbcs).toNat 14 12 = e) ∧
  (∀ (s : State) (a : W64) (n r e : Nat) (w : Option W64), s.unlocked 2 = true → bit a.toNat 63 = true →
    r = a.toNat % 2 ^ 32 →
    (pageOf r = none ∧ e = 2 ∨ pageOf r ≠ none ∧ n ≠ 4 ∧ e = 4 ∨ pageOf r ≠ none ∧ n = 4 ∧ r % 4 ≠ 0 ∧ e = 3 ∨
      pageOf r ≠ none ∧ n = 4 ∧ r % 4 = 0 ∧ w.isSome = true ∧ secKeyReg r = true ∧ e = 7) →
    ∃ t, exec (.systemBusAccess a n w) s = .next t ∧ t.outbox = .sbus e 0 :: s.outbox ∧ t.regs = s.regs ∧ t.sec = s.sec ∧
      bits (t.dmReg dmSbcs).toNat 14 12 = e) ∧
  (∀ (s : State) (a w : W64) (r : Nat), s.unlocked 2 = true → bit a.toNat 63 = true → r = a.toNat % 2 ^ 32 →
    pageOf r ≠ none → r % 4 = 0 →
    (∃ t, exec (.systemBusAccess a 4 none) s = .next t ∧ t.regs = (s.regRead r 4).1.regs ∧
      t.outbox.head? = some (.sbus 0 ((s.regRead r 4).2.setWidth 64))) ∧
    (secKeyReg r = false → ∃ t, exec (.systemBusAccess a 4 (some w)) s = .next t ∧
      t.regs = (s.regWrite none r 4 (w.toNat % 2 ^ 32)).regs ∧ t.outbox.head? = some (.sbus 0 0)))

/-- The sideband (R434, R453, R454): a read or a write request of a page that the sideband may reach is performed and
its result held until it is read, another is DENIED, and a malformed one answers BAD_FRAME; the common command codes answer the target's identity, give and take its address and
enable events.
A command whose condition does not hold leaves the state as it is (the model's choice, log 2).
What goes beyond the rules is the model's: log 45, test and sideband values that the spec does not give (DESIGN
CHOICE). -/
def Obligations.SidebandRequestsAnswerAndHoldResults : Prop :=
  (∀ (s : State) (f : List Byte) (a : Nat), s.sideUp = true → a = numAt f 1 4 →
    (f.length = 5 → f.head? = some 0x01 →
      (s.fw.booted = true → sideReads a = true → ∃ t, exec (.sidebandReadRequest f) s = .next t ∧
        t.side.result = some (0, (s.regRead a 4).2) ∧ t.regs = (s.regRead a 4).1.regs) ∧
      (s.fw.booted = true → sideReads a = false → ∃ t, exec (.sidebandReadRequest f) s = .next t ∧
        t.side = { s.side with result := some (1, 0) } ∧ t.regs = s.regs) ∧
      (s.fw.booted = false → ∃ t, exec (.sidebandReadRequest f) s = .next t ∧
        t.side = { s.side with result := some (2, 0) } ∧ t.regs = s.regs)) ∧
    (f.length = 9 → f.head? = some 0x02 →
      (s.fw.booted = true → sideWrites a = true → ∃ t, exec (.sidebandWriteRequest f) s = .next t ∧
        t.side.result = some (0, 0) ∧ t.regs = (s.regWrite none a 4 (numAt f 5 4)).regs) ∧
      (s.fw.booted = true → sideWrites a = false → ∃ t, exec (.sidebandWriteRequest f) s = .next t ∧
        t.side = { s.side with result := some (1, 0) } ∧
        (∀ p i, pageOf a = some (p, i) → bit (t.regN p i Reg.errStat) 0 = true ∧
          OtherRegs [regAddr p i Reg.intStat, regAddr p i Reg.errStat, regAddr p i Reg.errInfo] s t) ∧
        (pageOf a = none → t.live .hub 0 8 = s.counted .hub 0 8 1 ∧ bit (t.regN .hub 0 Reg.errStat) 0 = true)) ∧
      (s.fw.booted = false → ∃ t, exec (.sidebandWriteRequest f) s = .next t ∧
        t.side = { s.side with result := some (2, 0) } ∧ t.regs = s.regs)) ∧
    ((f.length ≠ 5 ∨ f.head? ≠ some 0x01) → (f.length ≠ 9 ∨ f.head? ≠ some 0x02) →
      (∃ t, exec (.sidebandReadRequest f) s = .next t ∧ t.side = { s.side with result := some (3, 0) } ∧ t.regs = s.regs) ∧
      ∃ t, exec (.sidebandWriteRequest f) s = .next t ∧ t.side = { s.side with result := some (3, 0) } ∧ t.regs = s.regs)) ∧
  (∀ s : State, s.sideUp = true →
    (∀ r v, s.side.result = some (r, v) → ∃ t, exec .sidebandResultRead s = .next t ∧
      t.outbox = .sideband (leBytes 1 r ++ leBytes 4 v.toNat) :: s.outbox ∧ t.side = { s.side with result := none }) ∧
    (s.side.result = none → ∃ t, exec .sidebandResultRead s = .next t ∧
      t.outbox = .sideband (leBytes 1 3 ++ leBytes 4 0) :: s.outbox) ∧
    (∃ t l, exec .getpid s = .next t ∧ t.outbox = .sideband (l ++
      (leBytes 4 (s.regValue .hub 0 Reg.hub_hubSerialLo).toNat).reverse) :: s.outbox ∧ l.length = 2) ∧
    (∃ t x, exec .getbcr s = .next t ∧ t.outbox = .sideband [x] :: s.outbox) ∧
    (∃ t x, exec .getdcr s = .next t ∧ t.outbox = .sideband [x] :: s.outbox) ∧
    ∃ t x y, exec .getmxds s = .next t ∧ t.outbox = .sideband [x, y] :: s.outbox) ∧
  (∀ (s : State) (f : List Byte), s.sideUp = false → exec (.sidebandReadRequest f) s = .next s ∧
    exec (.sidebandWriteRequest f) s = .next s ∧ exec .sidebandResultRead s = .next s ∧ exec .getpid s = .next s) ∧
  (∀ (s : State) (a : Nat), s.pwr.regulators = true →
    (∃ t, exec .enec s = .next t ∧ t.side = { s.side with events := true } ∧ t.outbox = s.outbox) ∧
    (∃ t, exec .disec s = .next t ∧ t.side = { s.side with events := false } ∧ t.outbox = s.outbox) ∧
    (∃ t, exec .rstdaa s = .next t ∧ t.side = { s.side with addr := none } ∧ t.outbox = s.outbox) ∧
    (s.side.addr = none →
      (∃ t, exec (.setdasa 0x3A a) s = .next t ∧ t.side = { s.side with addr := some a } ∧ t.outbox = s.outbox) ∧
      (∀ b, b ≠ 0x3A → exec (.setdasa b a) s = .next s) ∧
      (∃ t l, exec (.entdaa a) s = .next t ∧ t.side = { s.side with addr := some a } ∧
        t.outbox = .sideband l :: s.outbox ∧ l.length = 8) ∧
      ∃ t, exec .hotJoin s = .next t ∧ t.side = { s.side with hotJoined := true } ∧ t.outbox = .hotJoin :: s.outbox) ∧
    (s.side.addr ≠ none → exec .hotJoin s = .next s ∧ exec (.entdaa a) s = .next s ∧ ∀ b, exec (.setdasa b a) s = .next s))

/-- In-band interrupts (R455): while ENEC has enabled them, the lowest outstanding code is raised: 0x01 for a manager conflict,
0x02 for a position out of range, 0x03 while FAULT_N is asserted, 0x04 below 40 V; GETSTATUS reports it in bits 3 to 0, and
0 where none is outstanding; it stands as long as its cause. -/
def Obligations.InBandInterruptsTellTheLowestCode : Prop :=
  (∀ (s : State) (k : Nat), s.sideUp = true →
    (k = if s.side.mgrConflict then 1 else if s.side.posRange then 2 else if s.faultN then 3
      else if s.pwr.inputWarning then 4 else 0) →
    (s.side.events = true → k ≠ 0 → ∃ t, exec .inBandInterrupt s = .next t ∧ t.outbox = .inBand k :: s.outbox ∧
      t.side = s.side ∧ t.pwr = s.pwr) ∧
    ((s.side.events = false ∨ k = 0) → exec .inBandInterrupt s = .next s) ∧
    (∃ t x y, exec .getstatus s = .next t ∧ t.outbox = .sideband [x, y] :: s.outbox ∧ bits y.toNat 3 0 = k ∧
      t.side = s.side) ∧
    (∃ t, exec .enec s = .next t ∧ t.side = { s.side with events := true }) ∧
    ∃ t, exec .disec s = .next t ∧ t.side = { s.side with events := false }) ∧
  (∀ s : State, s.sideUp = false → exec .inBandInterrupt s = .next s ∧ exec .getstatus s = .next s)

/-- Register writes (R6, R435, R436): a write that only stores changes one register, each bit as its access type says, and
flags reserved bits and RWL bits of a locked page; a W1C bit that hardware sets in the cycle that clears it stays set;
LOCK_WRITE locks its page for good.
What goes beyond the rules is the model's: log 10, the pages of LINK 16 to 23 do not share addresses with HBM (DESIGN
CHOICE); log 31, counters, flags and details without a rule of their own (DEDUCED). -/
def Obligations.RegisterWritesFollowTheirAccessTypes : Prop :=
  (∀ (s : State) (a o : Nat) (p : Pg) (i : Nat) (v : W32) (r : RegRow), pageOf a = some (p, i) → a = regAddr p i o →
    a % 4 = 0 → o = a % 0x1000 → p.rowAt i o = some r → s.deadPage p i o = false →
    (r.mgr = false ∨ s.managerHere = true) → o ≠ Reg.lock →
    (o < 0x40 ∨ ((s.hubWrite p o v.toNat r).or (s.unitWrite none p i o v.toNat r)) = none) →
    ((0x40 ≤ o ∨ storeFlagged r (s.pageLocked p i) v.toNat = false) → ∃ t, exec (.registerWrite a 4 v) s = .next t ∧
      t.log = s.log ∧ t.ctr = s.ctr ∧ ∀ k, k < 32 → (t.reg a).getLsbD k =
        ((if bit r.rw k || (bit r.rwl k && !s.pageLocked p i) then v.getLsbD k else (s.reg a).getLsbD k) &&
          !(bit r.w1c k && v.getLsbD k))) ∧
    (storeFlagged r (s.pageLocked p i) v.toNat = false → ∃ t, exec (.registerWrite a 4 v) s = .next t ∧
      OtherRegs [a] s t) ∧
    (storeFlagged r (s.pageLocked p i) v.toNat = true → 0x40 ≤ o → ∃ t, exec (.registerWrite a 4 v) s = .next t ∧
      bit (t.regN p i Reg.errStat) 0 = true ∧
      OtherRegs [a, regAddr p i Reg.intStat, regAddr p i Reg.errStat, regAddr p i Reg.errInfo] s t) ∧
    (∀ hw : W32, r.w1c ≠ 0 → (0x40 ≤ o ∨ storeFlagged r (s.pageLocked p i) v.toNat = false) →
      ∃ t, exec (.w1cWrite a v hw) s = .next t ∧ ∀ k, k < 32 → bit r.w1c k = true → bit r.rw k = false → bit r.rwl k = false →
        (t.reg a).getLsbD k = (hw.getLsbD k || ((s.reg a).getLsbD k && !v.getLsbD k)))) ∧
  (∀ (s : State) (a : Nat) (v hw : W32), pageOf a = none → exec (.w1cWrite a v hw) s = exec (.registerWrite a 4 v) s) ∧
  (∀ (s : State) (p : Pg) (i : Nat), pageOf (p.base i + Reg.lock) = some (p, i) → p.base i % 0x1000 = 0 →
    (∃ t, exec (.lockWrite (p.base i)) s = .next t ∧ t.pageLocked p i = true) ∧
    ∀ v : W32, s.pageLocked p i = true → ∃ t, exec (.registerWrite (p.base i + Reg.lock) 4 v) s = .next t ∧
      t.pageLocked p i = true)

/-- Accesses that move no data (R432, R433): registers take aligned 32-bit accesses only, a read of another size or one that
is not aligned returns 0, a write of one changes no register but the page's error registers, and REG_ACCESS is set; a 64-bit
counter is read low word first; an access to an address of no page returns 0 or is ignored, counts in UNDECODED_ACCESSES and
is described on the HUB page. -/
def Obligations.MalformedAccessesMoveNoData : Prop :=
  (∀ (s : State) (a n : Nat) (p : Pg) (i : Nat) (v : W32), pageOf a = some (p, i) → (n ≠ 4 ∨ a % 4 ≠ 0) →
    (∃ t, exec (.registerWrite a n v) s = .next t ∧ bit (t.regN p i Reg.errStat) 0 = true ∧ t.ctr = s.ctr ∧
      OtherRegs [regAddr p i Reg.intStat, regAddr p i Reg.errStat, regAddr p i Reg.errInfo] s t ∧
      (s.regN p i Reg.errStat = 0 → t.regN p i Reg.errInfo = 2 ^ 30 + (2 ^ 29 + a % 2 ^ 26) % 2 ^ 30)) ∧
    (s.regRead a n).2 = 0 ∧ bit ((s.regRead a n).1.regN p i Reg.errStat) 0 = true ∧
      OtherRegs [regAddr p i Reg.intStat, regAddr p i Reg.errStat, regAddr p i Reg.errInfo] s (s.regRead a n).1) ∧
  (∀ (s : State) (p : Pg) (i n k : Nat) (v : W64), p.base i % 0x1000 = 0 → n < p.counters i → n < 128 →
    (k = 0x800 + 8 * n ∧ v = cellGet 0 s.ctr.latched (ctrKey p i n) ∨ k = 0xC00 + 8 * n ∧ v = s.live p i n) →
    pageOf (p.base i + k) = some (p, i) → pageOf (p.base i + k + 4) = some (p, i) → s.deadPage p i k = false →
    (s.regRead (p.base i + k) 4).2 = BitVec.ofNat 32 v.toNat ∧
      ((s.regRead (p.base i + k) 4).1.regRead (p.base i + k + 4) 4).2 = BitVec.ofNat 32 (v.toNat / 2 ^ 32)) ∧
  (∀ (s : State) (a n : Nat) (v : W32), pageOf a = none →
    (∃ t, exec (.registerWrite a n v) s = .next t ∧ bit (t.regN .hub 0 Reg.errStat) 0 = true ∧
      t.live .hub 0 8 = s.counted .hub 0 8 1 ∧ OtherCounters [ctrKey .hub 0 8] s t ∧
      OtherRegs [regAddr .hub 0 Reg.intStat, regAddr .hub 0 Reg.errStat, regAddr .hub 0 Reg.errInfo] s t ∧
      (s.regN .hub 0 Reg.errStat = 0 → t.regN .hub 0 Reg.errInfo = 2 ^ 30 + (2 ^ 29 + a % 2 ^ 26) % 2 ^ 30)) ∧
    (s.regRead a n).2 = 0 ∧ (s.regRead a n).1.live .hub 0 8 = s.counted .hub 0 8 1 ∧
      bit ((s.regRead a n).1.regN .hub 0 Reg.errStat) 0 = true ∧
      OtherRegs [regAddr .hub 0 Reg.intStat, regAddr .hub 0 Reg.errStat, regAddr .hub 0 Reg.errInfo] s (s.regRead a n).1 ∧
      (s.regN .hub 0 Reg.errStat = 0 → (s.regRead a n).1.regN .hub 0 Reg.errInfo = 2 ^ 30 + a % 2 ^ 26))
end

