-- ==== Sys2Proof/Laws/State.lean ====
section
/-! SUPPORT. What an update of the state leaves alone: one lemma for each field of `State`, the relation `Leads` that the
laws of the shared operations are stated in, and its ways through branches and loops. -/

namespace Sys2Proof.Machine

/-! ### One part at a time -/

theorem State.without_pending {ps : List Part} {s : State} {x : List Instr} (h : Part.pending ∈ ps) :
    ({ s with pending := x } : State).without ps = s.without ps := by
  simp [State.without, h]

theorem State.without_outbox {ps : List Part} {s : State} {x : List Out} (h : Part.outbox ∈ ps) :
    ({ s with outbox := x } : State).without ps = s.without ps := by
  simp [State.without, h]

theorem State.without_freeCount {ps : List Part} {s : State} {x : Nat} (h : Part.freeCount ∈ ps) :
    ({ s with freeCount := x } : State).without ps = s.without ps := by
  simp [State.without, h]

theorem State.without_stepping {ps : List Part} {s : State} {x : Config.Stepping} (h : Part.stepping ∈ ps) :
    ({ s with stepping := x } : State).without ps = s.without ps := by
  simp [State.without, h]

theorem State.without_order {ps : List Part} {s : State} {x : Config.OrderCode} (h : Part.order ∈ ps) :
    ({ s with order := x } : State).without ps = s.without ps := by
  simp [State.without, h]

theorem State.without_pins {ps : List Part} {s : State} {x : Pins} (h : Part.pins ∈ ps) :
    ({ s with pins := x } : State).without ps = s.without ps := by
  simp [State.without, h]

theorem State.without_time {ps : List Part} {s : State} {x : TimeUnit} (h : Part.time ∈ ps) :
    ({ s with time := x } : State).without ps = s.without ps := by
  simp [State.without, h]

theorem State.without_regs {ps : List Part} {s : State} {x : List (Nat × W32)} (h : Part.regs ∈ ps) :
    ({ s with regs := x } : State).without ps = s.without ps := by
  simp [State.without, h]

theorem State.without_ctr {ps : List Part} {s : State} {x : Counters} (h : Part.ctr ∈ ps) :
    ({ s with ctr := x } : State).without ps = s.without ps := by
  simp [State.without, h]

theorem State.without_cores {ps : List Part} {s : State} {x : List Core} (h : Part.cores ∈ ps) :
    ({ s with cores := x } : State).without ps = s.without ps := by
  simp [State.without, h]

theorem State.without_places {ps : List Part} {s : State} {x : List Place} (h : Part.places ∈ ps) :
    ({ s with places := x } : State).without ps = s.without ps := by
  simp [State.without, h]

theorem State.without_groups {ps : List Part} {s : State} {x : List Group} (h : Part.groups ∈ ps) :
    ({ s with groups := x } : State).without ps = s.without ps := by
  simp [State.without, h]

theorem State.without_pages {ps : List Part} {s : State} {x : List KvPage} (h : Part.pages ∈ ps) :
    ({ s with pages := x } : State).without ps = s.without ps := by
  simp [State.without, h]

theorem State.without_mirrors {ps : List Part} {s : State} {x : List MirrorHeld} (h : Part.mirrors ∈ ps) :
    ({ s with mirrors := x } : State).without ps = s.without ps := by
  simp [State.without, h]

theorem State.without_mirrorPages {ps : List Part} {s : State} {x : List MirrorPage} (h : Part.mirrorPages ∈ ps) :
    ({ s with mirrorPages := x } : State).without ps = s.without ps := by
  simp [State.without, h]

theorem State.without_arenaWait {ps : List Part} {s : State} {x : List (Nat × Nat)} (h : Part.arenaWait ∈ ps) :
    ({ s with arenaWait := x } : State).without ps = s.without ps := by
  simp [State.without, h]

theorem State.without_poolWait {ps : List Part} {s : State} {x : List (Nat × Nat × Nat)} (h : Part.poolWait ∈ ps) :
    ({ s with poolWait := x } : State).without ps = s.without ps := by
  simp [State.without, h]

theorem State.without_items {ps : List Part} {s : State} {x : List Item} (h : Part.items ∈ ps) :
    ({ s with items := x } : State).without ps = s.without ps := by
  simp [State.without, h]

theorem State.without_nextItem {ps : List Part} {s : State} {x : Nat} (h : Part.nextItem ∈ ps) :
    ({ s with nextItem := x } : State).without ps = s.without ps := by
  simp [State.without, h]

theorem State.without_gang {ps : List Part} {s : State} {x : Option Nat} (h : Part.gang ∈ ps) :
    ({ s with gang := x } : State).without ps = s.without ps := by
  simp [State.without, h]

theorem State.without_boxes {ps : List Part} {s : State} {x : List BoxSt} (h : Part.boxes ∈ ps) :
    ({ s with boxes := x } : State).without ps = s.without ps := by
  simp [State.without, h]

theorem State.without_mem {ps : List Part} {s : State} {x : List Host.Cell} (h : Part.mem ∈ ps) :
    ({ s with mem := x } : State).without ps = s.without ps := by
  simp [State.without, h]

theorem State.without_memPoison {ps : List Part} {s : State} {x : List Nat} (h : Part.memPoison ∈ ps) :
    ({ s with memPoison := x } : State).without ps = s.without ps := by
  simp [State.without, h]

theorem State.without_protUnits {ps : List Part} {s : State} {x : List Nat} (h : Part.protUnits ∈ ps) :
    ({ s with protUnits := x } : State).without ps = s.without ps := by
  simp [State.without, h]

theorem State.without_hbm {ps : List Part} {s : State} {x : List Stack} (h : Part.hbm ∈ ps) :
    ({ s with hbm := x } : State).without ps = s.without ps := by
  simp [State.without, h]

theorem State.without_dies {ps : List Part} {s : State} {x : List DieMem} (h : Part.dies ∈ ps) :
    ({ s with dies := x } : State).without ps = s.without ps := by
  simp [State.without, h]

theorem State.without_held {ps : List Part} {s : State} {x : List HeldPages} (h : Part.held ∈ ps) :
    ({ s with held := x } : State).without ps = s.without ps := by
  simp [State.without, h]

theorem State.without_tier {ps : List Part} {s : State} {x : Tier} (h : Part.tier ∈ ps) :
    ({ s with tier := x } : State).without ps = s.without ps := by
  simp [State.without, h]

theorem State.without_cb {ps : List Part} {s : State} {x : CbUnit} (h : Part.cb ∈ ps) :
    ({ s with cb := x } : State).without ps = s.without ps := by
  simp [State.without, h]

theorem State.without_fab {ps : List Part} {s : State} {x : Fabric} (h : Part.fab ∈ ps) :
    ({ s with fab := x } : State).without ps = s.without ps := by
  simp [State.without, h]

theorem State.without_links {ps : List Part} {s : State} {x : List Link} (h : Part.links ∈ ps) :
    ({ s with links := x } : State).without ps = s.without ps := by
  simp [State.without, h]

theorem State.without_host {ps : List Part} {s : State} {x : HostSt} (h : Part.host ∈ ps) :
    ({ s with host := x } : State).without ps = s.without ps := by
  simp [State.without, h]

theorem State.without_log {ps : List Part} {s : State} {x : Recorder} (h : Part.log ∈ ps) :
    ({ s with log := x } : State).without ps = s.without ps := by
  simp [State.without, h]

theorem State.without_fw {ps : List Part} {s : State} {x : Firmware} (h : Part.fw ∈ ps) :
    ({ s with fw := x } : State).without ps = s.without ps := by
  simp [State.without, h]

theorem State.without_sec {ps : List Part} {s : State} {x : Security} (h : Part.sec ∈ ps) :
    ({ s with sec := x } : State).without ps = s.without ps := by
  simp [State.without, h]

theorem State.without_pwr {ps : List Part} {s : State} {x : Power} (h : Part.pwr ∈ ps) :
    ({ s with pwr := x } : State).without ps = s.without ps := by
  simp [State.without, h]

theorem State.without_test {ps : List Part} {s : State} {x : TestSt} (h : Part.test ∈ ps) :
    ({ s with test := x } : State).without ps = s.without ps := by
  simp [State.without, h]

theorem State.without_side {ps : List Part} {s : State} {x : Sideband} (h : Part.side ∈ ps) :
    ({ s with side := x } : State).without ps = s.without ps := by
  simp [State.without, h]

/-! ### Parts read through a frame -/

theorem Frame.pending {ps : List Part} {s t : State} (h : Frame ps s t) (hp : Part.pending ∉ ps) : t.pending = s.pending := by
  have e := congrArg (fun u : State => u.pending) h
  simpa [State.without, hp] using e

theorem Frame.outbox {ps : List Part} {s t : State} (h : Frame ps s t) (hp : Part.outbox ∉ ps) : t.outbox = s.outbox := by
  have e := congrArg (fun u : State => u.outbox) h
  simpa [State.without, hp] using e

theorem Frame.freeCount {ps : List Part} {s t : State} (h : Frame ps s t) (hp : Part.freeCount ∉ ps) : t.freeCount = s.freeCount := by
  have e := congrArg (fun u : State => u.freeCount) h
  simpa [State.without, hp] using e

theorem Frame.stepping {ps : List Part} {s t : State} (h : Frame ps s t) (hp : Part.stepping ∉ ps) : t.stepping = s.stepping := by
  have e := congrArg (fun u : State => u.stepping) h
  simpa [State.without, hp] using e

theorem Frame.order {ps : List Part} {s t : State} (h : Frame ps s t) (hp : Part.order ∉ ps) : t.order = s.order := by
  have e := congrArg (fun u : State => u.order) h
  simpa [State.without, hp] using e

theorem Frame.pins {ps : List Part} {s t : State} (h : Frame ps s t) (hp : Part.pins ∉ ps) : t.pins = s.pins := by
  have e := congrArg (fun u : State => u.pins) h
  simpa [State.without, hp] using e

theorem Frame.time {ps : List Part} {s t : State} (h : Frame ps s t) (hp : Part.time ∉ ps) : t.time = s.time := by
  have e := congrArg (fun u : State => u.time) h
  simpa [State.without, hp] using e

theorem Frame.regs {ps : List Part} {s t : State} (h : Frame ps s t) (hp : Part.regs ∉ ps) : t.regs = s.regs := by
  have e := congrArg (fun u : State => u.regs) h
  simpa [State.without, hp] using e

theorem Frame.ctr {ps : List Part} {s t : State} (h : Frame ps s t) (hp : Part.ctr ∉ ps) : t.ctr = s.ctr := by
  have e := congrArg (fun u : State => u.ctr) h
  simpa [State.without, hp] using e

theorem Frame.cores {ps : List Part} {s t : State} (h : Frame ps s t) (hp : Part.cores ∉ ps) : t.cores = s.cores := by
  have e := congrArg (fun u : State => u.cores) h
  simpa [State.without, hp] using e

theorem Frame.places {ps : List Part} {s t : State} (h : Frame ps s t) (hp : Part.places ∉ ps) : t.places = s.places := by
  have e := congrArg (fun u : State => u.places) h
  simpa [State.without, hp] using e

theorem Frame.groups {ps : List Part} {s t : State} (h : Frame ps s t) (hp : Part.groups ∉ ps) : t.groups = s.groups := by
  have e := congrArg (fun u : State => u.groups) h
  simpa [State.without, hp] using e

theorem Frame.pages {ps : List Part} {s t : State} (h : Frame ps s t) (hp : Part.pages ∉ ps) : t.pages = s.pages := by
  have e := congrArg (fun u : State => u.pages) h
  simpa [State.without, hp] using e

theorem Frame.mirrors {ps : List Part} {s t : State} (h : Frame ps s t) (hp : Part.mirrors ∉ ps) : t.mirrors = s.mirrors := by
  have e := congrArg (fun u : State => u.mirrors) h
  simpa [State.without, hp] using e

theorem Frame.mirrorPages {ps : List Part} {s t : State} (h : Frame ps s t) (hp : Part.mirrorPages ∉ ps) : t.mirrorPages = s.mirrorPages := by
  have e := congrArg (fun u : State => u.mirrorPages) h
  simpa [State.without, hp] using e

theorem Frame.arenaWait {ps : List Part} {s t : State} (h : Frame ps s t) (hp : Part.arenaWait ∉ ps) : t.arenaWait = s.arenaWait := by
  have e := congrArg (fun u : State => u.arenaWait) h
  simpa [State.without, hp] using e

theorem Frame.poolWait {ps : List Part} {s t : State} (h : Frame ps s t) (hp : Part.poolWait ∉ ps) : t.poolWait = s.poolWait := by
  have e := congrArg (fun u : State => u.poolWait) h
  simpa [State.without, hp] using e

theorem Frame.items {ps : List Part} {s t : State} (h : Frame ps s t) (hp : Part.items ∉ ps) : t.items = s.items := by
  have e := congrArg (fun u : State => u.items) h
  simpa [State.without, hp] using e

theorem Frame.nextItem {ps : List Part} {s t : State} (h : Frame ps s t) (hp : Part.nextItem ∉ ps) : t.nextItem = s.nextItem := by
  have e := congrArg (fun u : State => u.nextItem) h
  simpa [State.without, hp] using e

theorem Frame.gang {ps : List Part} {s t : State} (h : Frame ps s t) (hp : Part.gang ∉ ps) : t.gang = s.gang := by
  have e := congrArg (fun u : State => u.gang) h
  simpa [State.without, hp] using e

theorem Frame.boxes {ps : List Part} {s t : State} (h : Frame ps s t) (hp : Part.boxes ∉ ps) : t.boxes = s.boxes := by
  have e := congrArg (fun u : State => u.boxes) h
  simpa [State.without, hp] using e

theorem Frame.mem {ps : List Part} {s t : State} (h : Frame ps s t) (hp : Part.mem ∉ ps) : t.mem = s.mem := by
  have e := congrArg (fun u : State => u.mem) h
  simpa [State.without, hp] using e

theorem Frame.memPoison {ps : List Part} {s t : State} (h : Frame ps s t) (hp : Part.memPoison ∉ ps) : t.memPoison = s.memPoison := by
  have e := congrArg (fun u : State => u.memPoison) h
  simpa [State.without, hp] using e

theorem Frame.protUnits {ps : List Part} {s t : State} (h : Frame ps s t) (hp : Part.protUnits ∉ ps) : t.protUnits = s.protUnits := by
  have e := congrArg (fun u : State => u.protUnits) h
  simpa [State.without, hp] using e

theorem Frame.hbm {ps : List Part} {s t : State} (h : Frame ps s t) (hp : Part.hbm ∉ ps) : t.hbm = s.hbm := by
  have e := congrArg (fun u : State => u.hbm) h
  simpa [State.without, hp] using e

theorem Frame.dies {ps : List Part} {s t : State} (h : Frame ps s t) (hp : Part.dies ∉ ps) : t.dies = s.dies := by
  have e := congrArg (fun u : State => u.dies) h
  simpa [State.without, hp] using e

theorem Frame.held {ps : List Part} {s t : State} (h : Frame ps s t) (hp : Part.held ∉ ps) : t.held = s.held := by
  have e := congrArg (fun u : State => u.held) h
  simpa [State.without, hp] using e

theorem Frame.tier {ps : List Part} {s t : State} (h : Frame ps s t) (hp : Part.tier ∉ ps) : t.tier = s.tier := by
  have e := congrArg (fun u : State => u.tier) h
  simpa [State.without, hp] using e

theorem Frame.cb {ps : List Part} {s t : State} (h : Frame ps s t) (hp : Part.cb ∉ ps) : t.cb = s.cb := by
  have e := congrArg (fun u : State => u.cb) h
  simpa [State.without, hp] using e

theorem Frame.fab {ps : List Part} {s t : State} (h : Frame ps s t) (hp : Part.fab ∉ ps) : t.fab = s.fab := by
  have e := congrArg (fun u : State => u.fab) h
  simpa [State.without, hp] using e

theorem Frame.links {ps : List Part} {s t : State} (h : Frame ps s t) (hp : Part.links ∉ ps) : t.links = s.links := by
  have e := congrArg (fun u : State => u.links) h
  simpa [State.without, hp] using e

theorem Frame.host {ps : List Part} {s t : State} (h : Frame ps s t) (hp : Part.host ∉ ps) : t.host = s.host := by
  have e := congrArg (fun u : State => u.host) h
  simpa [State.without, hp] using e

theorem Frame.log {ps : List Part} {s t : State} (h : Frame ps s t) (hp : Part.log ∉ ps) : t.log = s.log := by
  have e := congrArg (fun u : State => u.log) h
  simpa [State.without, hp] using e

theorem Frame.fw {ps : List Part} {s t : State} (h : Frame ps s t) (hp : Part.fw ∉ ps) : t.fw = s.fw := by
  have e := congrArg (fun u : State => u.fw) h
  simpa [State.without, hp] using e

theorem Frame.sec {ps : List Part} {s t : State} (h : Frame ps s t) (hp : Part.sec ∉ ps) : t.sec = s.sec := by
  have e := congrArg (fun u : State => u.sec) h
  simpa [State.without, hp] using e

theorem Frame.pwr {ps : List Part} {s t : State} (h : Frame ps s t) (hp : Part.pwr ∉ ps) : t.pwr = s.pwr := by
  have e := congrArg (fun u : State => u.pwr) h
  simpa [State.without, hp] using e

theorem Frame.test {ps : List Part} {s t : State} (h : Frame ps s t) (hp : Part.test ∉ ps) : t.test = s.test := by
  have e := congrArg (fun u : State => u.test) h
  simpa [State.without, hp] using e

theorem Frame.side {ps : List Part} {s t : State} (h : Frame ps s t) (hp : Part.side ∉ ps) : t.side = s.side := by
  have e := congrArg (fun u : State => u.side) h
  simpa [State.without, hp] using e

theorem Frame.refl (ps : List Part) (s : State) : Frame ps s s := rfl

theorem Frame.trans {ps : List Part} {s t u : State} (h : Frame ps s t) (k : Frame ps t u) : Frame ps s u :=
  Eq.trans k h

/-! ### From one state to another -/

/-- `t` comes from `s` with nothing changed but the parts `ps`, and the invariant is kept. -/
structure Leads (ps : List Part) (s t : State) : Prop where
  frame : Frame ps s t
  inv : s.Inv → t.Inv

theorem Leads.refl {ps : List Part} {s : State} : Leads ps s s := ⟨rfl, id⟩

theorem Leads.trans {ps : List Part} {s t u : State} (h : Leads ps s t) (k : Leads ps t u) : Leads ps s u :=
  ⟨h.frame.trans k.frame, fun i => k.inv (h.inv i)⟩

theorem Leads.pending {ps : List Part} {s t : State} {x : List Instr} (h : Leads ps s t) (hp : [Part.pending] ⊆ ps) :
    Leads ps s { t with pending := x } :=
  h.trans ⟨State.without_pending (hp (by decide)), fun i => i⟩

theorem Leads.outbox {ps : List Part} {s t : State} {x : List Out} (h : Leads ps s t) (hp : [Part.outbox] ⊆ ps) :
    Leads ps s { t with outbox := x } :=
  h.trans ⟨State.without_outbox (hp (by decide)), fun i => i⟩

theorem Leads.freeCount {ps : List Part} {s t : State} {x : Nat} (h : Leads ps s t) (hp : [Part.freeCount] ⊆ ps) :
    Leads ps s { t with freeCount := x } :=
  h.trans ⟨State.without_freeCount (hp (by decide)), fun i => i⟩

theorem Leads.stepping {ps : List Part} {s t : State} {x : Config.Stepping} (h : Leads ps s t) (hp : [Part.stepping] ⊆ ps) :
    Leads ps s { t with stepping := x } :=
  h.trans ⟨State.without_stepping (hp (by decide)), fun i => i⟩

theorem Leads.order {ps : List Part} {s t : State} {x : Config.OrderCode} (h : Leads ps s t) (hp : [Part.order] ⊆ ps) :
    Leads ps s { t with order := x } :=
  h.trans ⟨State.without_order (hp (by decide)), fun i => i⟩

theorem Leads.pins {ps : List Part} {s t : State} {x : Pins} (h : Leads ps s t) (hp : [Part.pins] ⊆ ps) :
    Leads ps s { t with pins := x } :=
  h.trans ⟨State.without_pins (hp (by decide)), fun i => i⟩

theorem Leads.time {ps : List Part} {s t : State} {x : TimeUnit} (h : Leads ps s t) (hp : [Part.time] ⊆ ps) :
    Leads ps s { t with time := x } :=
  h.trans ⟨State.without_time (hp (by decide)), fun i => i⟩

theorem Leads.regs {ps : List Part} {s t : State} {x : List (Nat × W32)} (h : Leads ps s t) (hp : [Part.regs] ⊆ ps) :
    Leads ps s { t with regs := x } :=
  h.trans ⟨State.without_regs (hp (by decide)), fun i => i⟩

theorem Leads.ctr {ps : List Part} {s t : State} {x : Counters} (h : Leads ps s t) (hp : [Part.ctr] ⊆ ps) :
    Leads ps s { t with ctr := x } :=
  h.trans ⟨State.without_ctr (hp (by decide)), fun i => i⟩

theorem Leads.cores {ps : List Part} {s t : State} {x : List Core} (h : Leads ps s t) (hp : [Part.cores] ⊆ ps)
    (hx : (t.Shape → x.length = 68 ∧ ∀ k ∈ x, k.Shape)) : Leads ps s { t with cores := x } :=
  h.trans ⟨State.without_cores (hp (by decide)), fun i => ⟨i.1, i.2.1, (hx i.2.2).1, (hx i.2.2).2, i.2.2.2.2⟩⟩

theorem Leads.places {ps : List Part} {s t : State} {x : List Place} (h : Leads ps s t) (hp : [Part.places] ⊆ ps) :
    Leads ps s { t with places := x } :=
  h.trans ⟨State.without_places (hp (by decide)), fun i => i⟩

theorem Leads.groups {ps : List Part} {s t : State} {x : List Group} (h : Leads ps s t) (hp : [Part.groups] ⊆ ps) :
    Leads ps s { t with groups := x } :=
  h.trans ⟨State.without_groups (hp (by decide)), fun i => i⟩

theorem Leads.pages {ps : List Part} {s t : State} {x : List KvPage} (h : Leads ps s t) (hp : [Part.pages] ⊆ ps) :
    Leads ps s { t with pages := x } :=
  h.trans ⟨State.without_pages (hp (by decide)), fun i => i⟩

theorem Leads.mirrors {ps : List Part} {s t : State} {x : List MirrorHeld} (h : Leads ps s t) (hp : [Part.mirrors] ⊆ ps) :
    Leads ps s { t with mirrors := x } :=
  h.trans ⟨State.without_mirrors (hp (by decide)), fun i => i⟩

theorem Leads.mirrorPages {ps : List Part} {s t : State} {x : List MirrorPage} (h : Leads ps s t) (hp : [Part.mirrorPages] ⊆ ps) :
    Leads ps s { t with mirrorPages := x } :=
  h.trans ⟨State.without_mirrorPages (hp (by decide)), fun i => i⟩

theorem Leads.arenaWait {ps : List Part} {s t : State} {x : List (Nat × Nat)} (h : Leads ps s t) (hp : [Part.arenaWait] ⊆ ps) :
    Leads ps s { t with arenaWait := x } :=
  h.trans ⟨State.without_arenaWait (hp (by decide)), fun i => i⟩

theorem Leads.poolWait {ps : List Part} {s t : State} {x : List (Nat × Nat × Nat)} (h : Leads ps s t) (hp : [Part.poolWait] ⊆ ps) :
    Leads ps s { t with poolWait := x } :=
  h.trans ⟨State.without_poolWait (hp (by decide)), fun i => i⟩

theorem Leads.items {ps : List Part} {s t : State} {x : List Item} (h : Leads ps s t) (hp : [Part.items] ⊆ ps) :
    Leads ps s { t with items := x } :=
  h.trans ⟨State.without_items (hp (by decide)), fun i => i⟩

theorem Leads.nextItem {ps : List Part} {s t : State} {x : Nat} (h : Leads ps s t) (hp : [Part.nextItem] ⊆ ps) :
    Leads ps s { t with nextItem := x } :=
  h.trans ⟨State.without_nextItem (hp (by decide)), fun i => i⟩

theorem Leads.gang {ps : List Part} {s t : State} {x : Option Nat} (h : Leads ps s t) (hp : [Part.gang] ⊆ ps) :
    Leads ps s { t with gang := x } :=
  h.trans ⟨State.without_gang (hp (by decide)), fun i => i⟩

theorem Leads.boxes {ps : List Part} {s t : State} {x : List BoxSt} (h : Leads ps s t) (hp : [Part.boxes] ⊆ ps)
    (hx : (x.length = t.boxes.length)) : Leads ps s { t with boxes := x } :=
  h.trans ⟨State.without_boxes (hp (by decide)), fun i => ⟨i.1, i.2.1, i.2.2.1, i.2.2.2.1, hx.trans i.2.2.2.2.1, i.2.2.2.2.2.1, i.2.2.2.2.2.2.1, i.2.2.2.2.2.2.2.1, i.2.2.2.2.2.2.2.2.1, i.2.2.2.2.2.2.2.2.2.1, i.2.2.2.2.2.2.2.2.2.2⟩⟩

theorem Leads.mem {ps : List Part} {s t : State} {x : List Host.Cell} (h : Leads ps s t) (hp : [Part.mem] ⊆ ps)
    (hx : (Memory.wf t.mem = true → Memory.wf x = true)) : Leads ps s { t with mem := x } :=
  h.trans ⟨State.without_mem (hp (by decide)), fun i => ⟨hx i.1, i.2.1, i.2.2⟩⟩

theorem Leads.memPoison {ps : List Part} {s t : State} {x : List Nat} (h : Leads ps s t) (hp : [Part.memPoison] ⊆ ps) :
    Leads ps s { t with memPoison := x } :=
  h.trans ⟨State.without_memPoison (hp (by decide)), fun i => i⟩

theorem Leads.protUnits {ps : List Part} {s t : State} {x : List Nat} (h : Leads ps s t) (hp : [Part.protUnits] ⊆ ps) :
    Leads ps s { t with protUnits := x } :=
  h.trans ⟨State.without_protUnits (hp (by decide)), fun i => i⟩

theorem Leads.hbm {ps : List Part} {s t : State} {x : List Stack} (h : Leads ps s t) (hp : [Part.hbm] ⊆ ps)
    (hx : (x.length = t.hbm.length)) : Leads ps s { t with hbm := x } :=
  h.trans ⟨State.without_hbm (hp (by decide)), fun i => ⟨i.1, i.2.1, i.2.2.1, i.2.2.2.1, i.2.2.2.2.1, i.2.2.2.2.2.1, hx.trans i.2.2.2.2.2.2.1, i.2.2.2.2.2.2.2.1, i.2.2.2.2.2.2.2.2.1, i.2.2.2.2.2.2.2.2.2.1, i.2.2.2.2.2.2.2.2.2.2⟩⟩

theorem Leads.dies {ps : List Part} {s t : State} {x : List DieMem} (h : Leads ps s t) (hp : [Part.dies] ⊆ ps)
    (hx : (x.length = t.dies.length)) : Leads ps s { t with dies := x } :=
  h.trans ⟨State.without_dies (hp (by decide)), fun i => ⟨i.1, i.2.1, i.2.2.1, i.2.2.2.1, i.2.2.2.2.1, i.2.2.2.2.2.1, i.2.2.2.2.2.2.1, hx.trans i.2.2.2.2.2.2.2.1, i.2.2.2.2.2.2.2.2.1, i.2.2.2.2.2.2.2.2.2.1, i.2.2.2.2.2.2.2.2.2.2⟩⟩

theorem Leads.held {ps : List Part} {s t : State} {x : List HeldPages} (h : Leads ps s t) (hp : [Part.held] ⊆ ps) :
    Leads ps s { t with held := x } :=
  h.trans ⟨State.without_held (hp (by decide)), fun i => i⟩

theorem Leads.tier {ps : List Part} {s t : State} {x : Tier} (h : Leads ps s t) (hp : [Part.tier] ⊆ ps)
    (hx : (Memory.wf t.tier.flash = true → Memory.wf x.flash = true)) : Leads ps s { t with tier := x } :=
  h.trans ⟨State.without_tier (hp (by decide)), fun i => ⟨i.1, hx i.2.1, i.2.2⟩⟩

theorem Leads.cb {ps : List Part} {s t : State} {x : CbUnit} (h : Leads ps s t) (hp : [Part.cb] ⊆ ps)
    (hx : (x.slots.length = t.cb.slots.length)) : Leads ps s { t with cb := x } :=
  h.trans ⟨State.without_cb (hp (by decide)), fun i => ⟨i.1, i.2.1, i.2.2.1, i.2.2.2.1, i.2.2.2.2.1, i.2.2.2.2.2.1, i.2.2.2.2.2.2.1, i.2.2.2.2.2.2.2.1, i.2.2.2.2.2.2.2.2.1, hx.trans i.2.2.2.2.2.2.2.2.2.1, i.2.2.2.2.2.2.2.2.2.2⟩⟩

theorem Leads.fab {ps : List Part} {s t : State} {x : Fabric} (h : Leads ps s t) (hp : [Part.fab] ⊆ ps) :
    Leads ps s { t with fab := x } :=
  h.trans ⟨State.without_fab (hp (by decide)), fun i => i⟩

theorem Leads.links {ps : List Part} {s t : State} {x : List Link} (h : Leads ps s t) (hp : [Part.links] ⊆ ps)
    (hx : (x.length = t.links.length)) : Leads ps s { t with links := x } :=
  h.trans ⟨State.without_links (hp (by decide)), fun i => ⟨i.1, i.2.1, i.2.2.1, i.2.2.2.1, i.2.2.2.2.1, hx.trans i.2.2.2.2.2.1, i.2.2.2.2.2.2.1, i.2.2.2.2.2.2.2.1, i.2.2.2.2.2.2.2.2.1, i.2.2.2.2.2.2.2.2.2.1, i.2.2.2.2.2.2.2.2.2.2⟩⟩

theorem Leads.host {ps : List Part} {s t : State} {x : HostSt} (h : Leads ps s t) (hp : [Part.host] ⊆ ps) :
    Leads ps s { t with host := x } :=
  h.trans ⟨State.without_host (hp (by decide)), fun i => i⟩

theorem Leads.log {ps : List Part} {s t : State} {x : Recorder} (h : Leads ps s t) (hp : [Part.log] ⊆ ps) :
    Leads ps s { t with log := x } :=
  h.trans ⟨State.without_log (hp (by decide)), fun i => i⟩

theorem Leads.fw {ps : List Part} {s t : State} {x : Firmware} (h : Leads ps s t) (hp : [Part.fw] ⊆ ps)
    (hx : (x.comps.length = t.fw.comps.length)) : Leads ps s { t with fw := x } :=
  h.trans ⟨State.without_fw (hp (by decide)), fun i => ⟨i.1, i.2.1, i.2.2.1, i.2.2.2.1, i.2.2.2.2.1, i.2.2.2.2.2.1, i.2.2.2.2.2.2.1, i.2.2.2.2.2.2.2.1, i.2.2.2.2.2.2.2.2.1, i.2.2.2.2.2.2.2.2.2.1, hx.trans i.2.2.2.2.2.2.2.2.2.2⟩⟩

theorem Leads.sec {ps : List Part} {s t : State} {x : Security} (h : Leads ps s t) (hp : [Part.sec] ⊆ ps) :
    Leads ps s { t with sec := x } :=
  h.trans ⟨State.without_sec (hp (by decide)), fun i => i⟩

theorem Leads.pwr {ps : List Part} {s t : State} {x : Power} (h : Leads ps s t) (hp : [Part.pwr] ⊆ ps)
    (hx : (x.rails.length = t.pwr.rails.length)) : Leads ps s { t with pwr := x } :=
  h.trans ⟨State.without_pwr (hp (by decide)), fun i => ⟨i.1, i.2.1, i.2.2.1, i.2.2.2.1, i.2.2.2.2.1, i.2.2.2.2.2.1, i.2.2.2.2.2.2.1, i.2.2.2.2.2.2.2.1, hx.trans i.2.2.2.2.2.2.2.2.1, i.2.2.2.2.2.2.2.2.2.1, i.2.2.2.2.2.2.2.2.2.2⟩⟩

theorem Leads.test {ps : List Part} {s t : State} {x : TestSt} (h : Leads ps s t) (hp : [Part.test] ⊆ ps) :
    Leads ps s { t with test := x } :=
  h.trans ⟨State.without_test (hp (by decide)), fun i => i⟩

theorem Leads.side {ps : List Part} {s t : State} {x : Sideband} (h : Leads ps s t) (hp : [Part.side] ⊆ ps) :
    Leads ps s { t with side := x } :=
  h.trans ⟨State.without_side (hp (by decide)), fun i => i⟩

theorem Leads.mem_memPoison {ps : List Part} {s t : State} {x0 : List Host.Cell} {x1 : List Nat}
    (h : Leads ps s t) (hp : [Part.mem, Part.memPoison] ⊆ ps)
    (h0 : (Memory.wf t.mem = true → Memory.wf x0 = true)) :
    Leads ps s { t with mem := x0, memPoison := x1 } :=
  ((h.mem (x := x0) (List.Subset.trans (List.Sublist.subset (by decide)) hp) h0).memPoison (x := x1) (List.Subset.trans (List.Sublist.subset (by decide)) hp))

theorem Leads.items_nextItem {ps : List Part} {s t : State} {x0 : List Item} {x1 : Nat}
    (h : Leads ps s t) (hp : [Part.items, Part.nextItem] ⊆ ps) :
    Leads ps s { t with items := x0, nextItem := x1 } :=
  ((h.items (x := x0) (List.Subset.trans (List.Sublist.subset (by decide)) hp)).nextItem (x := x1) (List.Subset.trans (List.Sublist.subset (by decide)) hp))

theorem Leads.places_groups_items {ps : List Part} {s t : State} {x0 : List Place} {x1 : List Group} {x2 : List Item}
    (h : Leads ps s t) (hp : [Part.places, Part.groups, Part.items] ⊆ ps) :
    Leads ps s { t with places := x0, groups := x1, items := x2 } :=
  (((h.places (x := x0) (List.Subset.trans (List.Sublist.subset (by decide)) hp)).groups (x := x1) (List.Subset.trans (List.Sublist.subset (by decide)) hp)).items (x := x2) (List.Subset.trans (List.Sublist.subset (by decide)) hp))

theorem Leads.cores_boxes_hbm_fab_log {ps : List Part} {s t : State} {x0 : List Core} {x1 : List BoxSt} {x2 : List Stack} {x3 : Fabric} {x4 : Recorder}
    (h : Leads ps s t) (hp : [Part.cores, Part.boxes, Part.hbm, Part.fab, Part.log] ⊆ ps)
    (h0 : (t.Shape → x0.length = 68 ∧ ∀ k ∈ x0, k.Shape))
    (h1 : (x1.length = t.boxes.length))
    (h2 : (x2.length = t.hbm.length)) :
    Leads ps s { t with cores := x0, boxes := x1, hbm := x2, fab := x3, log := x4 } :=
  (((((h.cores (x := x0) (List.Subset.trans (List.Sublist.subset (by decide)) hp) h0).boxes (x := x1) (List.Subset.trans (List.Sublist.subset (by decide)) hp) h1).hbm (x := x2) (List.Subset.trans (List.Sublist.subset (by decide)) hp) h2).fab (x := x3) (List.Subset.trans (List.Sublist.subset (by decide)) hp)).log (x := x4) (List.Subset.trans (List.Sublist.subset (by decide)) hp))

theorem Leads.fw_test {ps : List Part} {s t : State} {x0 : Firmware} {x1 : TestSt}
    (h : Leads ps s t) (hp : [Part.fw, Part.test] ⊆ ps)
    (h0 : (x0.comps.length = t.fw.comps.length)) :
    Leads ps s { t with fw := x0, test := x1 } :=
  ((h.fw (x := x0) (List.Subset.trans (List.Sublist.subset (by decide)) hp) h0).test (x := x1) (List.Subset.trans (List.Sublist.subset (by decide)) hp))

theorem Leads.mirrors_mirrorPages {ps : List Part} {s t : State} {x0 : List MirrorHeld} {x1 : List MirrorPage}
    (h : Leads ps s t) (hp : [Part.mirrors, Part.mirrorPages] ⊆ ps) :
    Leads ps s { t with mirrors := x0, mirrorPages := x1 } :=
  ((h.mirrors (x := x0) (List.Subset.trans (List.Sublist.subset (by decide)) hp)).mirrorPages (x := x1) (List.Subset.trans (List.Sublist.subset (by decide)) hp))

theorem Leads.boxes_host {ps : List Part} {s t : State} {x0 : List BoxSt} {x1 : HostSt}
    (h : Leads ps s t) (hp : [Part.boxes, Part.host] ⊆ ps)
    (h0 : (x0.length = t.boxes.length)) :
    Leads ps s { t with boxes := x0, host := x1 } :=
  ((h.boxes (x := x0) (List.Subset.trans (List.Sublist.subset (by decide)) hp) h0).host (x := x1) (List.Subset.trans (List.Sublist.subset (by decide)) hp))

theorem Leads.pins_boxes_tier_fab_log_sec_pwr {ps : List Part} {s t : State} {x0 : Pins} {x1 : List BoxSt} {x2 : Tier} {x3 : Fabric} {x4 : Recorder} {x5 : Security} {x6 : Power}
    (h : Leads ps s t) (hp : [Part.pins, Part.boxes, Part.tier, Part.fab, Part.log, Part.sec, Part.pwr] ⊆ ps)
    (h1 : (x1.length = t.boxes.length))
    (h2 : (Memory.wf t.tier.flash = true → Memory.wf x2.flash = true))
    (h6 : (x6.rails.length = t.pwr.rails.length)) :
    Leads ps s { t with pins := x0, boxes := x1, tier := x2, fab := x3, log := x4, sec := x5, pwr := x6 } :=
  (((((((h.pins (x := x0) (List.Subset.trans (List.Sublist.subset (by decide)) hp)).boxes (x := x1) (List.Subset.trans (List.Sublist.subset (by decide)) hp) h1).tier (x := x2) (List.Subset.trans (List.Sublist.subset (by decide)) hp) h2).fab (x := x3) (List.Subset.trans (List.Sublist.subset (by decide)) hp)).log (x := x4) (List.Subset.trans (List.Sublist.subset (by decide)) hp)).sec (x := x5) (List.Subset.trans (List.Sublist.subset (by decide)) hp)).pwr (x := x6) (List.Subset.trans (List.Sublist.subset (by decide)) hp) h6)

/-- Several parts changed at once. -/
theorem Leads.update {ps : List Part} {s t u : State} (h : Leads ps s t) (hf : Frame ps t u)
    (hi : t.Inv → u.Inv) : Leads ps s u := h.trans ⟨hf, hi⟩

/-! ### Branches and loops -/

theorem Leads.when {ps : List Part} {s t u : State} {c : Bool} (h : Leads ps s t) (k : Leads ps s u) :
    Leads ps s (t.when c u) := by
  unfold State.when; split <;> assumption

theorem Leads.foldl {α : Type} {ps : List Part} {s t : State} {f : State → α → State} (l : List α) (h : Leads ps s t)
    (k : ∀ u x, Leads ps s u → Leads ps s (f u x)) : Leads ps s (l.foldl f t) := by
  induction l generalizing t with
  | nil => exact h
  | cons a l ih => exact ih (k _ _ h)

theorem Leads.ite {ps : List Part} {s t u : State} {c : Prop} [Decidable c] (h : Leads ps s t) (k : Leads ps s u) :
    Leads ps s (if c then t else u) := by
  split <;> assumption

theorem Leads.elim {α : Type} {ps : List Part} {s t : State} {o : Option α} {f : α → State} (h : Leads ps s t)
    (k : ∀ a, Leads ps s (f a)) : Leads ps s (o.elim t f) := by
  cases o with
  | none => exact h
  | some a => exact k a

/-! ### Lists of fixed length -/

@[simp] theorem listModify_length {α : Type} (f : α → α) (l : List α) (i : Nat) : (listModify f l i).length = l.length := by
  induction l generalizing i with
  | nil => rfl
  | cons a l ih => cases i <;> simp [listModify, ih]

theorem listModify_mem {α : Type} {f : α → α} {l : List α} {i : Nat} {x : α} (h : x ∈ listModify f l i) :
    x ∈ l ∨ ∃ y ∈ l, x = f y := by
  induction l generalizing i with
  | nil => exact absurd h (List.not_mem_nil)
  | cons a l ih =>
    cases i with
    | zero =>
      rcases List.mem_cons.1 h with rfl | h
      · exact .inr ⟨a, List.mem_cons_self, rfl⟩
      · exact .inl (List.mem_cons_of_mem _ h)
    | succ i =>
      rcases List.mem_cons.1 h with rfl | h
      · exact .inl List.mem_cons_self
      · rcases ih h with h | ⟨y, hy, rfl⟩
        · exact .inl (List.mem_cons_of_mem _ h)
        · exact .inr ⟨y, List.mem_cons_of_mem _ hy, rfl⟩

theorem listModify_getD {α : Type} (f : α → α) (l : List α) (i j : Nat) (d : α) :
    (listModify f l i).getD j d = if i = j ∧ j < l.length then f (l.getD j d) else l.getD j d := by
  induction l generalizing i j with
  | nil => simp [listModify]
  | cons a l ih =>
    cases i <;> cases j <;> simp [listModify]
    · rename_i i j
      simpa using ih i j

end Sys2Proof.Machine
end

