-- ==== Sys2Proof/Laws/Store.lean ====
section
/-! SUPPORT. Sparse stores: what a key holds after a write, and that every operation keeps the canonical form. -/

namespace Sys2Proof.Machine

/-! ### The canonical form -/

/-- The canonical form says: no default value is listed, keys rise, and all lie above the bound. -/
theorem cellsWf_iff {α : Type} [DecidableEq α] (d : α) (lo : Option Nat) (l : List (Nat × α)) :
    cellsWf d lo l = true ↔
      (∀ p ∈ l, p.2 ≠ d) ∧ l.Pairwise (fun p q => p.1 < q.1) ∧ (∀ b, lo = some b → ∀ p ∈ l, b < p.1) := by
  induction l generalizing lo with
  | nil => simp [cellsWf]
  | cons a l ih =>
    obtain ⟨k, v⟩ := a
    simp only [cellsWf, Bool.and_eq_true, ih, decide_eq_true_eq, List.pairwise_cons, List.forall_mem_cons]
    constructor
    · rintro ⟨⟨h, hv⟩, hl, hp, hb⟩
      refine ⟨⟨hv, hl⟩, ⟨fun q hq => hb k rfl q hq, hp⟩, ?_⟩
      rintro b rfl
      have : b < k := by simpa using h
      exact ⟨this, fun q hq => Nat.lt_trans this (hb k rfl q hq)⟩
    · rintro ⟨⟨hv, hl⟩, ⟨hk, hp⟩, hb⟩
      refine ⟨⟨?_, hv⟩, hl, hp, ?_⟩
      · cases lo with
        | none => rfl
        | some b => simpa using (hb b rfl).1
      · rintro b hb' q hq
        cases hb'
        exact hk q hq

theorem cellsWf_none {α : Type} [DecidableEq α] (d : α) (l : List (Nat × α)) :
    cellsWf d none l = true ↔ (∀ p ∈ l, p.2 ≠ d) ∧ l.Pairwise (fun p q => p.1 < q.1) := by
  simp [cellsWf_iff]

theorem Memory.wf_iff (m : List Host.Cell) :
    Memory.wf m = true ↔ (∀ p ∈ m, p.2 ≠ 0) ∧ m.Pairwise (fun p q => p.1 < q.1) := cellsWf_none 0 m

/-- Entries of a run are at its keys and hold no default. -/
theorem mem_runCells {α : Type} [DecidableEq α] {d : α} {k : Nat} {vs : List α} {p : Nat × α}
    (h : p ∈ runCells d k vs) : p.2 ≠ d ∧ k ≤ p.1 ∧ p.1 < k + vs.length := by
  induction vs generalizing k with
  | nil => simp [runCells] at h
  | cons v vs ih =>
    simp only [runCells] at h
    split at h
    · obtain ⟨h1, h2, h3⟩ := ih h
      exact ⟨h1, by omega, by simp only [List.length_cons]; omega⟩
    · rcases List.mem_cons.1 h with rfl | h
      · exact ⟨by assumption, by simp, by simp⟩
      · obtain ⟨h1, h2, h3⟩ := ih h
        exact ⟨h1, by omega, by simp only [List.length_cons]; omega⟩

theorem runCells_pairwise {α : Type} [DecidableEq α] (d : α) (k : Nat) (vs : List α) :
    (runCells d k vs).Pairwise (fun p q => p.1 < q.1) := by
  induction vs generalizing k with
  | nil => simp [runCells]
  | cons v vs ih =>
    simp only [runCells]
    split
    · exact ih _
    · exact List.pairwise_cons.2 ⟨fun q hq => (mem_runCells hq).2.1, ih _⟩

/-- Three pieces of rising keys, each above the one before, rise together. -/
theorem pairwise_three {α : Type} {a b c : List (Nat × α)} {lo hi : Nat}
    (ha : a.Pairwise (fun p q => p.1 < q.1)) (hb : b.Pairwise (fun p q => p.1 < q.1))
    (hc : c.Pairwise (fun p q => p.1 < q.1)) (hla : ∀ p ∈ a, p.1 < lo) (hlb : ∀ p ∈ b, lo ≤ p.1 ∧ p.1 < hi)
    (hlc : ∀ p ∈ c, hi ≤ p.1) (hh : lo ≤ hi) : (a ++ b ++ c).Pairwise (fun p q => p.1 < q.1) := by
  refine List.pairwise_append.2 ⟨List.pairwise_append.2 ⟨ha, hb, ?_⟩, hc, ?_⟩
  · intro p hp q hq
    exact Nat.lt_of_lt_of_le (hla p hp) (hlb q hq).1
  · intro p hp q hq
    rcases List.mem_append.1 hp with h | h
    · exact Nat.lt_of_lt_of_le (hla p h) (Nat.le_trans hh (hlc q hq))
    · exact Nat.lt_of_lt_of_le (hlb p h).2 (hlc q hq)

/-- A run written keeps the form. -/
theorem cellSetRun_wf {α : Type} [DecidableEq α] (d : α) (l : List (Nat × α)) (k : Nat) (vs : List α)
    (h : cellsWf d none l = true) : cellsWf d none (cellSetRun d l k vs) = true := by
  rw [cellsWf_none] at *
  refine ⟨?_, ?_⟩
  · intro p hp
    simp only [cellSetRun, List.mem_append, List.mem_filter] at hp
    rcases hp with (hp | hp) | hp
    · exact h.1 p hp.1
    · exact (mem_runCells hp).1
    · exact h.1 p hp.1
  · exact pairwise_three (h.2.filter _) (runCells_pairwise d k vs) (h.2.filter _)
      (fun p hp => by simpa using (List.mem_filter.1 hp).2) (fun p hp => (mem_runCells hp).2)
      (fun p hp => by simpa using (List.mem_filter.1 hp).2) (Nat.le_add_right _ _)

theorem mem_cellPut {α : Type} {l : List (Nat × α)} {k : Nat} {v : α} {p : Nat × α} (h : p ∈ cellPut l k v) :
    p = (k, v) ∨ p ∈ l := by
  induction l with
  | nil => simpa [cellPut] using h
  | cons a l ih =>
    obtain ⟨a, w⟩ := a
    simp only [cellPut] at h
    split at h
    · rcases List.mem_cons.1 h with rfl | h
      · simp
      · rcases ih h with rfl | h <;> simp [*]
    · split at h <;> simp only [List.mem_cons] at h ⊢ <;> tauto

theorem cellPut_pairwise {α : Type} {l : List (Nat × α)} (k : Nat) (v : α) (h : l.Pairwise (fun p q => p.1 < q.1)) :
    (cellPut l k v).Pairwise (fun p q => p.1 < q.1) := by
  induction l with
  | nil => simp [cellPut]
  | cons a l ih =>
    obtain ⟨a, w⟩ := a
    obtain ⟨h1, h2⟩ := List.pairwise_cons.1 h
    simp only [cellPut]
    split
    · rename_i hlt
      refine List.pairwise_cons.2 ⟨fun p hp => ?_, ih h2⟩
      rcases mem_cellPut hp with rfl | hp
      · exact hlt
      · exact h1 p hp
    · split
      · rename_i heq
        subst heq
        exact List.pairwise_cons.2 ⟨h1, h2⟩
      · refine List.pairwise_cons.2 ⟨fun p hp => ?_, h⟩
        rcases List.mem_cons.1 hp with rfl | hp
        · simp only
          omega
        · have := h1 p hp
          simp only at this ⊢
          omega

/-- One key written keeps the form. -/
theorem cellSet_wf {α : Type} [DecidableEq α] (d : α) (l : List (Nat × α)) (k : Nat) (v : α)
    (h : cellsWf d none l = true) : cellsWf d none (cellSet d l k v) = true := by
  rw [cellsWf_none] at *
  unfold cellSet
  split
  · exact ⟨fun p hp => h.1 p (List.mem_filter.1 hp).1, h.2.filter _⟩
  · refine ⟨fun p hp => ?_, cellPut_pairwise k v h.2⟩
    rcases mem_cellPut hp with rfl | hp
    · assumption
    · exact h.1 p hp

/-- A range copied from one store in the form to another keeps it. -/
theorem copyRange_wf {α : Type} [DecidableEq α] (d : α) (src dst : List (Nat × α)) (lo hi : Nat)
    (hs : cellsWf d none src = true) (hd : cellsWf d none dst = true) (hh : lo ≤ hi) :
    cellsWf d none (copyRange src dst lo hi) = true := by
  rw [cellsWf_none] at *
  refine ⟨?_, ?_⟩
  · intro p hp
    simp only [copyRange, List.mem_append, List.mem_filter] at hp
    rcases hp with (hp | hp) | hp
    · exact hd.1 p hp.1
    · exact hs.1 p hp.1
    · exact hd.1 p hp.1
  · exact pairwise_three (hd.2.filter _) (hs.2.filter _) (hd.2.filter _)
      (fun p hp => by simpa using (List.mem_filter.1 hp).2) (fun p hp => by simpa using (List.mem_filter.1 hp).2)
      (fun p hp => by simpa using (List.mem_filter.1 hp).2) hh

/-! ### Reads after writes -/

theorem cellGet_append {α : Type} (d : α) (l m : List (Nat × α)) (k : Nat) :
    cellGet d (l ++ m) k = cellGet (cellGet d m k) l k := by
  induction l with
  | nil => rfl
  | cons a l ih =>
    obtain ⟨a, w⟩ := a
    simp only [List.cons_append, cellGet, ih]

theorem cellGet_filter {α : Type} (d : α) (l : List (Nat × α)) (P : Nat → Bool) (k : Nat) :
    cellGet d (l.filter (fun p => P p.1)) k = if P k then cellGet d l k else d := by
  induction l with
  | nil => simp [cellGet]
  | cons a l ih =>
    obtain ⟨a, w⟩ := a
    by_cases e : a = k
    · subst e
      by_cases h : P a <;> simp [h, cellGet, ih]
    · by_cases h : P a <;> simp [h, cellGet, ih, e]

theorem cellGet_cellPut {α : Type} (d : α) (l : List (Nat × α)) (k j : Nat) (v : α) :
    cellGet d (cellPut l k v) j = if j = k then v else cellGet d l j := by
  induction l with
  | nil => by_cases e : k = j <;> simp [cellPut, cellGet, e, eq_comm]
  | cons a l ih =>
    obtain ⟨a, w⟩ := a
    simp only [cellPut]
    by_cases e : j = k
    · subst e
      split
      · have : a ≠ j := by omega
        simp [cellGet, ih, this]
      · split <;> simp [cellGet]
    · have e' : k ≠ j := fun x => e x.symm
      split
      · simp [cellGet, ih, e]
      · split
        · rename_i heq
          simp [cellGet, heq, e']
        · simp [cellGet, e']

/-- A written key reads what was written. -/
theorem cellGet_cellSet_same {α : Type} [DecidableEq α] (d : α) (l : List (Nat × α)) (k : Nat) (v : α) :
    cellGet d (cellSet d l k v) k = v := by
  unfold cellSet
  split
  · rename_i h
    rw [cellGet_filter d l (fun n => decide (n ≠ k))]
    simp [h]
  · simp [cellGet_cellPut]

/-- Every other key reads as before, whatever its default. -/
theorem cellGet_cellSet_ne {α : Type} [DecidableEq α] (d e : α) (l : List (Nat × α)) {k j : Nat} (v : α) (h : j ≠ k) :
    cellGet e (cellSet d l k v) j = cellGet e l j := by
  unfold cellSet
  split
  · rw [cellGet_filter e l (fun n => decide (n ≠ k))]
    simp [h]
  · simp [cellGet_cellPut, h]

theorem cellGet_runCells {α : Type} [DecidableEq α] (d e : α) (k j : Nat) (vs : List α) :
    cellGet e (runCells d k vs) j =
      if k ≤ j ∧ j < k + vs.length ∧ vs.getD (j - k) d ≠ d then vs.getD (j - k) d else e := by
  induction vs generalizing k with
  | nil =>
    have : ¬ (k ≤ j ∧ j < k) := by omega
    simp [runCells, cellGet]
  | cons v vs ih =>
    have hs : k < j → (v :: vs).getD (j - k) d = vs.getD (j - (k + 1)) d := by
      intro h
      obtain ⟨n, rfl⟩ : ∃ n, j = k + 1 + n := ⟨j - (k + 1), by omega⟩
      have e1 : k + 1 + n - k = n + 1 := by omega
      have e2 : k + 1 + n - (k + 1) = n := by omega
      simp [e1, e2]
    rcases Nat.lt_trichotomy k j with h | h | h
    · have h1 : (k + 1 ≤ j ∧ j < k + 1 + vs.length ∧ vs.getD (j - (k + 1)) d ≠ d) ↔
          (k ≤ j ∧ j < k + (v :: vs).length ∧ (v :: vs).getD (j - k) d ≠ d) := by
        rw [hs h, List.length_cons]
        constructor <;> rintro ⟨a, b, c⟩ <;> exact ⟨by omega, by omega, c⟩
      have ne : k ≠ j := by omega
      simp only [runCells]
      split
      · rw [ih, hs h]
        simp only [h1, hs h]
      · simp only [cellGet, ne, if_false]
        rw [ih, hs h]
        simp only [h1, hs h]
    · subst h
      have h1 : ¬ (k + 1 ≤ k) := by omega
      simp only [runCells]
      split
      · rw [ih]
        simp [*]
      · simp [cellGet, *]
    · have h1 : ¬ (k + 1 ≤ j) := by omega
      have h2 : ¬ (k ≤ j) := by omega
      have ne : k ≠ j := by omega
      simp only [runCells]
      split
      · rw [ih]
        simp [h1, h2]
      · simp only [cellGet, ne, if_false]
        rw [ih]
        simp [h1, h2]

/-- A run written: its keys read what was written, every other key as before. -/
theorem cellGet_cellSetRun {α : Type} [DecidableEq α] (d : α) (l : List (Nat × α)) (k j : Nat) (vs : List α) :
    cellGet d (cellSetRun d l k vs) j = if k ≤ j ∧ j < k + vs.length then vs.getD (j - k) d else cellGet d l j := by
  unfold cellSetRun
  rw [cellGet_append, cellGet_append, cellGet_filter d l (fun n => decide (k + vs.length ≤ n)), cellGet_runCells,
    cellGet_filter _ l (fun n => decide (n < k))]
  by_cases h1 : j < k
  · have h2 : ¬ (k + vs.length ≤ j) := by omega
    have h3 : ¬ (k ≤ j) := by omega
    simp [h1, h2, h3]
  · have h3 : k ≤ j := by omega
    by_cases h2 : j < k + vs.length
    · have h4 : ¬ (k + vs.length ≤ j) := by omega
      simp only [h1, h2, h3, h4, decide_false, true_and, if_false, if_true, Bool.false_eq_true]
      split
      · rfl
      · rename_i h5
        exact (not_not.1 h5).symm
    · have h4 : k + vs.length ≤ j := by omega
      simp [h1, h2, h4]

/-! ### Stores -/

theorem Store.find_filter {w : Nat} (l : List (Nat × BitVec w)) (P : Nat → Bool) (k : Nat) :
    (l.filter (fun p => P p.1)).find? (fun p => p.1 == k) = if P k then l.find? (fun p => p.1 == k) else none := by
  induction l with
  | nil => simp
  | cons a l ih =>
    obtain ⟨a, v⟩ := a
    by_cases e : a = k
    · subst e
      by_cases h : P a <;> simp [h, ih]
    · by_cases h : P a <;> simp [h, ih, e]

theorem Store.get_set {w : Nat} (m : Store w) (k j : Nat) (v : BitVec w) :
    (m.set k v).get j = if j = k then v else m.get j := by
  unfold Store.set
  split
  · rename_i h
    by_cases e : j = k
    · subst e
      simp [Store.get, h, cellGet_cellSet_same]
    · simp [Store.get, h, cellGet_cellSet_ne _ _ _ _ e, e]
  · rename_i n h
    have hf := Store.find_filter m.cells (fun a => a != k) j
    by_cases e : j = k
    · subst e
      simp [Store.get, h, List.find?_append, hf]
    · have e' : k ≠ j := fun x => e x.symm
      simp [Store.get, h, List.find?_append, hf, e, e']

end Sys2Proof.Machine
end

