-- ==== Sys2Proof/Laws/Ops.lean ====
section
/-! SUPPORT. The named updates of the state: for each, what it leaves alone field by field, and that it keeps the
invariant. -/

namespace Sys2Proof.Machine

/-! ### Options, pairs and outcomes -/

/-- `Leads` for an operation that may have no result. -/
def LeadsO (ps : List Part) (s : State) (o : Option State) : Prop := ∀ t, o = some t → Leads ps s t

theorem LeadsO.none {ps : List Part} {s : State} : LeadsO ps s none := fun _ h => by cases h

theorem LeadsO.some {ps : List Part} {s t : State} (h : Leads ps s t) : LeadsO ps s (some t) :=
  fun _ e => by cases e; exact h

theorem LeadsO.get {ps : List Part} {s t : State} {o : Option State} (e : o = Option.some t) (h : LeadsO ps s o) :
    Leads ps s t := h t e

theorem LeadsO.getD {ps : List Part} {s t : State} {o : Option State} (h : LeadsO ps s o) (k : Leads ps s t) :
    Leads ps s (o.getD t) := by
  cases o with
  | none => exact k
  | some u => exact h u rfl

theorem LeadsO.map {ps : List Part} {s : State} {o : Option State} {f : State → State} (h : LeadsO ps s o)
    (k : ∀ t, Leads ps s t → Leads ps s (f t)) : LeadsO ps s (o.map f) := by
  cases o with
  | none => exact LeadsO.none
  | some u => exact LeadsO.some (k u (h u rfl))

theorem LeadsO.bind {ps : List Part} {s : State} {o : Option State} {f : State → Option State} (h : LeadsO ps s o)
    (k : ∀ t, Leads ps s t → LeadsO ps s (f t)) : LeadsO ps s (o.bind f) := by
  cases o with
  | none => exact LeadsO.none
  | some u => exact k u (h u rfl)

/-- A command completes, and its start leads to the next state. -/
def LeadsA (ps : List Part) (s : State) (o : Ans) : Prop := ∃ t, o = .next t ∧ Leads ps s t

theorem LeadsA.next {ps : List Part} {s t : State} (h : Leads ps s t) : LeadsA ps s (.next t) := ⟨t, rfl, h⟩

theorem Leads.of_fst {α : Type} {ps : List Part} {s t : State} {a : α} {r : State × α} (h : Leads ps s r.1)
    (e : r = (t, a)) : Leads ps s t := by subst e; exact h

theorem Leads.of_snd {α : Type} {ps : List Part} {s t : State} {a : α} {r : α × State} (h : Leads ps s r.2)
    (e : r = (a, t)) : Leads ps s t := by subst e; exact h

/-! ### Updates of one part -/

theorem State.emit_leads {ps : List Part} {s₀ s : State} {o : Out} (hs : Leads ps s₀ s)
    (hp : [Part.outbox] ⊆ ps) : Leads ps s₀ (s.emit o) :=
  hs.outbox hp

@[simp] theorem State.emit_pending (s : State) (o : Out) : (s.emit o).pending = s.pending := rfl
@[simp] theorem State.emit_freeCount (s : State) (o : Out) : (s.emit o).freeCount = s.freeCount := rfl
@[simp] theorem State.emit_stepping (s : State) (o : Out) : (s.emit o).stepping = s.stepping := rfl
@[simp] theorem State.emit_order (s : State) (o : Out) : (s.emit o).order = s.order := rfl
@[simp] theorem State.emit_pins (s : State) (o : Out) : (s.emit o).pins = s.pins := rfl
@[simp] theorem State.emit_time (s : State) (o : Out) : (s.emit o).time = s.time := rfl
@[simp] theorem State.emit_regs (s : State) (o : Out) : (s.emit o).regs = s.regs := rfl
@[simp] theorem State.emit_ctr (s : State) (o : Out) : (s.emit o).ctr = s.ctr := rfl
@[simp] theorem State.emit_cores (s : State) (o : Out) : (s.emit o).cores = s.cores := rfl
@[simp] theorem State.emit_places (s : State) (o : Out) : (s.emit o).places = s.places := rfl
@[simp] theorem State.emit_groups (s : State) (o : Out) : (s.emit o).groups = s.groups := rfl
@[simp] theorem State.emit_pages (s : State) (o : Out) : (s.emit o).pages = s.pages := rfl
@[simp] theorem State.emit_mirrors (s : State) (o : Out) : (s.emit o).mirrors = s.mirrors := rfl
@[simp] theorem State.emit_mirrorPages (s : State) (o : Out) : (s.emit o).mirrorPages = s.mirrorPages := rfl
@[simp] theorem State.emit_arenaWait (s : State) (o : Out) : (s.emit o).arenaWait = s.arenaWait := rfl
@[simp] theorem State.emit_poolWait (s : State) (o : Out) : (s.emit o).poolWait = s.poolWait := rfl
@[simp] theorem State.emit_items (s : State) (o : Out) : (s.emit o).items = s.items := rfl
@[simp] theorem State.emit_nextItem (s : State) (o : Out) : (s.emit o).nextItem = s.nextItem := rfl
@[simp] theorem State.emit_gang (s : State) (o : Out) : (s.emit o).gang = s.gang := rfl
@[simp] theorem State.emit_boxes (s : State) (o : Out) : (s.emit o).boxes = s.boxes := rfl
@[simp] theorem State.emit_mem (s : State) (o : Out) : (s.emit o).mem = s.mem := rfl
@[simp] theorem State.emit_memPoison (s : State) (o : Out) : (s.emit o).memPoison = s.memPoison := rfl
@[simp] theorem State.emit_protUnits (s : State) (o : Out) : (s.emit o).protUnits = s.protUnits := rfl
@[simp] theorem State.emit_hbm (s : State) (o : Out) : (s.emit o).hbm = s.hbm := rfl
@[simp] theorem State.emit_dies (s : State) (o : Out) : (s.emit o).dies = s.dies := rfl
@[simp] theorem State.emit_held (s : State) (o : Out) : (s.emit o).held = s.held := rfl
@[simp] theorem State.emit_tier (s : State) (o : Out) : (s.emit o).tier = s.tier := rfl
@[simp] theorem State.emit_cb (s : State) (o : Out) : (s.emit o).cb = s.cb := rfl
@[simp] theorem State.emit_fab (s : State) (o : Out) : (s.emit o).fab = s.fab := rfl
@[simp] theorem State.emit_links (s : State) (o : Out) : (s.emit o).links = s.links := rfl
@[simp] theorem State.emit_host (s : State) (o : Out) : (s.emit o).host = s.host := rfl
@[simp] theorem State.emit_log (s : State) (o : Out) : (s.emit o).log = s.log := rfl
@[simp] theorem State.emit_fw (s : State) (o : Out) : (s.emit o).fw = s.fw := rfl
@[simp] theorem State.emit_sec (s : State) (o : Out) : (s.emit o).sec = s.sec := rfl
@[simp] theorem State.emit_pwr (s : State) (o : Out) : (s.emit o).pwr = s.pwr := rfl
@[simp] theorem State.emit_test (s : State) (o : Out) : (s.emit o).test = s.test := rfl
@[simp] theorem State.emit_side (s : State) (o : Out) : (s.emit o).side = s.side := rfl

theorem State.setReg_leads {ps : List Part} {s₀ s : State} {a : Nat} {v : W32} (hs : Leads ps s₀ s)
    (hp : [Part.regs] ⊆ ps) : Leads ps s₀ (s.setReg a v) :=
  hs.regs hp

@[simp] theorem State.setReg_pending (s : State) (a : Nat) (v : W32) : (s.setReg a v).pending = s.pending := rfl
@[simp] theorem State.setReg_outbox (s : State) (a : Nat) (v : W32) : (s.setReg a v).outbox = s.outbox := rfl
@[simp] theorem State.setReg_freeCount (s : State) (a : Nat) (v : W32) : (s.setReg a v).freeCount = s.freeCount := rfl
@[simp] theorem State.setReg_stepping (s : State) (a : Nat) (v : W32) : (s.setReg a v).stepping = s.stepping := rfl
@[simp] theorem State.setReg_order (s : State) (a : Nat) (v : W32) : (s.setReg a v).order = s.order := rfl
@[simp] theorem State.setReg_pins (s : State) (a : Nat) (v : W32) : (s.setReg a v).pins = s.pins := rfl
@[simp] theorem State.setReg_time (s : State) (a : Nat) (v : W32) : (s.setReg a v).time = s.time := rfl
@[simp] theorem State.setReg_ctr (s : State) (a : Nat) (v : W32) : (s.setReg a v).ctr = s.ctr := rfl
@[simp] theorem State.setReg_cores (s : State) (a : Nat) (v : W32) : (s.setReg a v).cores = s.cores := rfl
@[simp] theorem State.setReg_places (s : State) (a : Nat) (v : W32) : (s.setReg a v).places = s.places := rfl
@[simp] theorem State.setReg_groups (s : State) (a : Nat) (v : W32) : (s.setReg a v).groups = s.groups := rfl
@[simp] theorem State.setReg_pages (s : State) (a : Nat) (v : W32) : (s.setReg a v).pages = s.pages := rfl
@[simp] theorem State.setReg_mirrors (s : State) (a : Nat) (v : W32) : (s.setReg a v).mirrors = s.mirrors := rfl
@[simp] theorem State.setReg_mirrorPages (s : State) (a : Nat) (v : W32) : (s.setReg a v).mirrorPages = s.mirrorPages := rfl
@[simp] theorem State.setReg_arenaWait (s : State) (a : Nat) (v : W32) : (s.setReg a v).arenaWait = s.arenaWait := rfl
@[simp] theorem State.setReg_poolWait (s : State) (a : Nat) (v : W32) : (s.setReg a v).poolWait = s.poolWait := rfl
@[simp] theorem State.setReg_items (s : State) (a : Nat) (v : W32) : (s.setReg a v).items = s.items := rfl
@[simp] theorem State.setReg_nextItem (s : State) (a : Nat) (v : W32) : (s.setReg a v).nextItem = s.nextItem := rfl
@[simp] theorem State.setReg_gang (s : State) (a : Nat) (v : W32) : (s.setReg a v).gang = s.gang := rfl
@[simp] theorem State.setReg_boxes (s : State) (a : Nat) (v : W32) : (s.setReg a v).boxes = s.boxes := rfl
@[simp] theorem State.setReg_mem (s : State) (a : Nat) (v : W32) : (s.setReg a v).mem = s.mem := rfl
@[simp] theorem State.setReg_memPoison (s : State) (a : Nat) (v : W32) : (s.setReg a v).memPoison = s.memPoison := rfl
@[simp] theorem State.setReg_protUnits (s : State) (a : Nat) (v : W32) : (s.setReg a v).protUnits = s.protUnits := rfl
@[simp] theorem State.setReg_hbm (s : State) (a : Nat) (v : W32) : (s.setReg a v).hbm = s.hbm := rfl
@[simp] theorem State.setReg_dies (s : State) (a : Nat) (v : W32) : (s.setReg a v).dies = s.dies := rfl
@[simp] theorem State.setReg_held (s : State) (a : Nat) (v : W32) : (s.setReg a v).held = s.held := rfl
@[simp] theorem State.setReg_tier (s : State) (a : Nat) (v : W32) : (s.setReg a v).tier = s.tier := rfl
@[simp] theorem State.setReg_cb (s : State) (a : Nat) (v : W32) : (s.setReg a v).cb = s.cb := rfl
@[simp] theorem State.setReg_fab (s : State) (a : Nat) (v : W32) : (s.setReg a v).fab = s.fab := rfl
@[simp] theorem State.setReg_links (s : State) (a : Nat) (v : W32) : (s.setReg a v).links = s.links := rfl
@[simp] theorem State.setReg_host (s : State) (a : Nat) (v : W32) : (s.setReg a v).host = s.host := rfl
@[simp] theorem State.setReg_log (s : State) (a : Nat) (v : W32) : (s.setReg a v).log = s.log := rfl
@[simp] theorem State.setReg_fw (s : State) (a : Nat) (v : W32) : (s.setReg a v).fw = s.fw := rfl
@[simp] theorem State.setReg_sec (s : State) (a : Nat) (v : W32) : (s.setReg a v).sec = s.sec := rfl
@[simp] theorem State.setReg_pwr (s : State) (a : Nat) (v : W32) : (s.setReg a v).pwr = s.pwr := rfl
@[simp] theorem State.setReg_test (s : State) (a : Nat) (v : W32) : (s.setReg a v).test = s.test := rfl
@[simp] theorem State.setReg_side (s : State) (a : Nat) (v : W32) : (s.setReg a v).side = s.side := rfl

theorem State.setField_leads {ps : List Part} {s₀ s : State} {p : Pg} {i off hi lo v : Nat} (hs : Leads ps s₀ s)
    (hp : [Part.regs] ⊆ ps) : Leads ps s₀ (s.setField p i off hi lo v) :=
  hs.regs hp

@[simp] theorem State.setField_pending (s : State) (p : Pg) (i off hi lo v : Nat) : (s.setField p i off hi lo v).pending = s.pending := rfl
@[simp] theorem State.setField_outbox (s : State) (p : Pg) (i off hi lo v : Nat) : (s.setField p i off hi lo v).outbox = s.outbox := rfl
@[simp] theorem State.setField_freeCount (s : State) (p : Pg) (i off hi lo v : Nat) : (s.setField p i off hi lo v).freeCount = s.freeCount := rfl
@[simp] theorem State.setField_stepping (s : State) (p : Pg) (i off hi lo v : Nat) : (s.setField p i off hi lo v).stepping = s.stepping := rfl
@[simp] theorem State.setField_order (s : State) (p : Pg) (i off hi lo v : Nat) : (s.setField p i off hi lo v).order = s.order := rfl
@[simp] theorem State.setField_pins (s : State) (p : Pg) (i off hi lo v : Nat) : (s.setField p i off hi lo v).pins = s.pins := rfl
@[simp] theorem State.setField_time (s : State) (p : Pg) (i off hi lo v : Nat) : (s.setField p i off hi lo v).time = s.time := rfl
@[simp] theorem State.setField_ctr (s : State) (p : Pg) (i off hi lo v : Nat) : (s.setField p i off hi lo v).ctr = s.ctr := rfl
@[simp] theorem State.setField_cores (s : State) (p : Pg) (i off hi lo v : Nat) : (s.setField p i off hi lo v).cores = s.cores := rfl
@[simp] theorem State.setField_places (s : State) (p : Pg) (i off hi lo v : Nat) : (s.setField p i off hi lo v).places = s.places := rfl
@[simp] theorem State.setField_groups (s : State) (p : Pg) (i off hi lo v : Nat) : (s.setField p i off hi lo v).groups = s.groups := rfl
@[simp] theorem State.setField_pages (s : State) (p : Pg) (i off hi lo v : Nat) : (s.setField p i off hi lo v).pages = s.pages := rfl
@[simp] theorem State.setField_mirrors (s : State) (p : Pg) (i off hi lo v : Nat) : (s.setField p i off hi lo v).mirrors = s.mirrors := rfl
@[simp] theorem State.setField_mirrorPages (s : State) (p : Pg) (i off hi lo v : Nat) : (s.setField p i off hi lo v).mirrorPages = s.mirrorPages := rfl
@[simp] theorem State.setField_arenaWait (s : State) (p : Pg) (i off hi lo v : Nat) : (s.setField p i off hi lo v).arenaWait = s.arenaWait := rfl
@[simp] theorem State.setField_poolWait (s : State) (p : Pg) (i off hi lo v : Nat) : (s.setField p i off hi lo v).poolWait = s.poolWait := rfl
@[simp] theorem State.setField_items (s : State) (p : Pg) (i off hi lo v : Nat) : (s.setField p i off hi lo v).items = s.items := rfl
@[simp] theorem State.setField_nextItem (s : State) (p : Pg) (i off hi lo v : Nat) : (s.setField p i off hi lo v).nextItem = s.nextItem := rfl
@[simp] theorem State.setField_gang (s : State) (p : Pg) (i off hi lo v : Nat) : (s.setField p i off hi lo v).gang = s.gang := rfl
@[simp] theorem State.setField_boxes (s : State) (p : Pg) (i off hi lo v : Nat) : (s.setField p i off hi lo v).boxes = s.boxes := rfl
@[simp] theorem State.setField_mem (s : State) (p : Pg) (i off hi lo v : Nat) : (s.setField p i off hi lo v).mem = s.mem := rfl
@[simp] theorem State.setField_memPoison (s : State) (p : Pg) (i off hi lo v : Nat) : (s.setField p i off hi lo v).memPoison = s.memPoison := rfl
@[simp] theorem State.setField_protUnits (s : State) (p : Pg) (i off hi lo v : Nat) : (s.setField p i off hi lo v).protUnits = s.protUnits := rfl
@[simp] theorem State.setField_hbm (s : State) (p : Pg) (i off hi lo v : Nat) : (s.setField p i off hi lo v).hbm = s.hbm := rfl
@[simp] theorem State.setField_dies (s : State) (p : Pg) (i off hi lo v : Nat) : (s.setField p i off hi lo v).dies = s.dies := rfl
@[simp] theorem State.setField_held (s : State) (p : Pg) (i off hi lo v : Nat) : (s.setField p i off hi lo v).held = s.held := rfl
@[simp] theorem State.setField_tier (s : State) (p : Pg) (i off hi lo v : Nat) : (s.setField p i off hi lo v).tier = s.tier := rfl
@[simp] theorem State.setField_cb (s : State) (p : Pg) (i off hi lo v : Nat) : (s.setField p i off hi lo v).cb = s.cb := rfl
@[simp] theorem State.setField_fab (s : State) (p : Pg) (i off hi lo v : Nat) : (s.setField p i off hi lo v).fab = s.fab := rfl
@[simp] theorem State.setField_links (s : State) (p : Pg) (i off hi lo v : Nat) : (s.setField p i off hi lo v).links = s.links := rfl
@[simp] theorem State.setField_host (s : State) (p : Pg) (i off hi lo v : Nat) : (s.setField p i off hi lo v).host = s.host := rfl
@[simp] theorem State.setField_log (s : State) (p : Pg) (i off hi lo v : Nat) : (s.setField p i off hi lo v).log = s.log := rfl
@[simp] theorem State.setField_fw (s : State) (p : Pg) (i off hi lo v : Nat) : (s.setField p i off hi lo v).fw = s.fw := rfl
@[simp] theorem State.setField_sec (s : State) (p : Pg) (i off hi lo v : Nat) : (s.setField p i off hi lo v).sec = s.sec := rfl
@[simp] theorem State.setField_pwr (s : State) (p : Pg) (i off hi lo v : Nat) : (s.setField p i off hi lo v).pwr = s.pwr := rfl
@[simp] theorem State.setField_test (s : State) (p : Pg) (i off hi lo v : Nat) : (s.setField p i off hi lo v).test = s.test := rfl
@[simp] theorem State.setField_side (s : State) (p : Pg) (i off hi lo v : Nat) : (s.setField p i off hi lo v).side = s.side := rfl

theorem State.orReg_leads {ps : List Part} {s₀ s : State} {p : Pg} {i off mask : Nat} (hs : Leads ps s₀ s)
    (hp : [Part.regs] ⊆ ps) : Leads ps s₀ (s.orReg p i off mask) :=
  hs.regs hp

@[simp] theorem State.orReg_pending (s : State) (p : Pg) (i off mask : Nat) : (s.orReg p i off mask).pending = s.pending := rfl
@[simp] theorem State.orReg_outbox (s : State) (p : Pg) (i off mask : Nat) : (s.orReg p i off mask).outbox = s.outbox := rfl
@[simp] theorem State.orReg_freeCount (s : State) (p : Pg) (i off mask : Nat) : (s.orReg p i off mask).freeCount = s.freeCount := rfl
@[simp] theorem State.orReg_stepping (s : State) (p : Pg) (i off mask : Nat) : (s.orReg p i off mask).stepping = s.stepping := rfl
@[simp] theorem State.orReg_order (s : State) (p : Pg) (i off mask : Nat) : (s.orReg p i off mask).order = s.order := rfl
@[simp] theorem State.orReg_pins (s : State) (p : Pg) (i off mask : Nat) : (s.orReg p i off mask).pins = s.pins := rfl
@[simp] theorem State.orReg_time (s : State) (p : Pg) (i off mask : Nat) : (s.orReg p i off mask).time = s.time := rfl
@[simp] theorem State.orReg_ctr (s : State) (p : Pg) (i off mask : Nat) : (s.orReg p i off mask).ctr = s.ctr := rfl
@[simp] theorem State.orReg_cores (s : State) (p : Pg) (i off mask : Nat) : (s.orReg p i off mask).cores = s.cores := rfl
@[simp] theorem State.orReg_places (s : State) (p : Pg) (i off mask : Nat) : (s.orReg p i off mask).places = s.places := rfl
@[simp] theorem State.orReg_groups (s : State) (p : Pg) (i off mask : Nat) : (s.orReg p i off mask).groups = s.groups := rfl
@[simp] theorem State.orReg_pages (s : State) (p : Pg) (i off mask : Nat) : (s.orReg p i off mask).pages = s.pages := rfl
@[simp] theorem State.orReg_mirrors (s : State) (p : Pg) (i off mask : Nat) : (s.orReg p i off mask).mirrors = s.mirrors := rfl
@[simp] theorem State.orReg_mirrorPages (s : State) (p : Pg) (i off mask : Nat) : (s.orReg p i off mask).mirrorPages = s.mirrorPages := rfl
@[simp] theorem State.orReg_arenaWait (s : State) (p : Pg) (i off mask : Nat) : (s.orReg p i off mask).arenaWait = s.arenaWait := rfl
@[simp] theorem State.orReg_poolWait (s : State) (p : Pg) (i off mask : Nat) : (s.orReg p i off mask).poolWait = s.poolWait := rfl
@[simp] theorem State.orReg_items (s : State) (p : Pg) (i off mask : Nat) : (s.orReg p i off mask).items = s.items := rfl
@[simp] theorem State.orReg_nextItem (s : State) (p : Pg) (i off mask : Nat) : (s.orReg p i off mask).nextItem = s.nextItem := rfl
@[simp] theorem State.orReg_gang (s : State) (p : Pg) (i off mask : Nat) : (s.orReg p i off mask).gang = s.gang := rfl
@[simp] theorem State.orReg_boxes (s : State) (p : Pg) (i off mask : Nat) : (s.orReg p i off mask).boxes = s.boxes := rfl
@[simp] theorem State.orReg_mem (s : State) (p : Pg) (i off mask : Nat) : (s.orReg p i off mask).mem = s.mem := rfl
@[simp] theorem State.orReg_memPoison (s : State) (p : Pg) (i off mask : Nat) : (s.orReg p i off mask).memPoison = s.memPoison := rfl
@[simp] theorem State.orReg_protUnits (s : State) (p : Pg) (i off mask : Nat) : (s.orReg p i off mask).protUnits = s.protUnits := rfl
@[simp] theorem State.orReg_hbm (s : State) (p : Pg) (i off mask : Nat) : (s.orReg p i off mask).hbm = s.hbm := rfl
@[simp] theorem State.orReg_dies (s : State) (p : Pg) (i off mask : Nat) : (s.orReg p i off mask).dies = s.dies := rfl
@[simp] theorem State.orReg_held (s : State) (p : Pg) (i off mask : Nat) : (s.orReg p i off mask).held = s.held := rfl
@[simp] theorem State.orReg_tier (s : State) (p : Pg) (i off mask : Nat) : (s.orReg p i off mask).tier = s.tier := rfl
@[simp] theorem State.orReg_cb (s : State) (p : Pg) (i off mask : Nat) : (s.orReg p i off mask).cb = s.cb := rfl
@[simp] theorem State.orReg_fab (s : State) (p : Pg) (i off mask : Nat) : (s.orReg p i off mask).fab = s.fab := rfl
@[simp] theorem State.orReg_links (s : State) (p : Pg) (i off mask : Nat) : (s.orReg p i off mask).links = s.links := rfl
@[simp] theorem State.orReg_host (s : State) (p : Pg) (i off mask : Nat) : (s.orReg p i off mask).host = s.host := rfl
@[simp] theorem State.orReg_log (s : State) (p : Pg) (i off mask : Nat) : (s.orReg p i off mask).log = s.log := rfl
@[simp] theorem State.orReg_fw (s : State) (p : Pg) (i off mask : Nat) : (s.orReg p i off mask).fw = s.fw := rfl
@[simp] theorem State.orReg_sec (s : State) (p : Pg) (i off mask : Nat) : (s.orReg p i off mask).sec = s.sec := rfl
@[simp] theorem State.orReg_pwr (s : State) (p : Pg) (i off mask : Nat) : (s.orReg p i off mask).pwr = s.pwr := rfl
@[simp] theorem State.orReg_test (s : State) (p : Pg) (i off mask : Nat) : (s.orReg p i off mask).test = s.test := rfl
@[simp] theorem State.orReg_side (s : State) (p : Pg) (i off mask : Nat) : (s.orReg p i off mask).side = s.side := rfl

theorem State.event_leads {ps : List Part} {s₀ s : State} {r : Record} (hs : Leads ps s₀ s)
    (hp : [Part.log] ⊆ ps) : Leads ps s₀ (s.event r) :=
  hs.log hp

@[simp] theorem State.event_pending (s : State) (r : Record) : (s.event r).pending = s.pending := rfl
@[simp] theorem State.event_outbox (s : State) (r : Record) : (s.event r).outbox = s.outbox := rfl
@[simp] theorem State.event_freeCount (s : State) (r : Record) : (s.event r).freeCount = s.freeCount := rfl
@[simp] theorem State.event_stepping (s : State) (r : Record) : (s.event r).stepping = s.stepping := rfl
@[simp] theorem State.event_order (s : State) (r : Record) : (s.event r).order = s.order := rfl
@[simp] theorem State.event_pins (s : State) (r : Record) : (s.event r).pins = s.pins := rfl
@[simp] theorem State.event_time (s : State) (r : Record) : (s.event r).time = s.time := rfl
@[simp] theorem State.event_regs (s : State) (r : Record) : (s.event r).regs = s.regs := rfl
@[simp] theorem State.event_ctr (s : State) (r : Record) : (s.event r).ctr = s.ctr := rfl
@[simp] theorem State.event_cores (s : State) (r : Record) : (s.event r).cores = s.cores := rfl
@[simp] theorem State.event_places (s : State) (r : Record) : (s.event r).places = s.places := rfl
@[simp] theorem State.event_groups (s : State) (r : Record) : (s.event r).groups = s.groups := rfl
@[simp] theorem State.event_pages (s : State) (r : Record) : (s.event r).pages = s.pages := rfl
@[simp] theorem State.event_mirrors (s : State) (r : Record) : (s.event r).mirrors = s.mirrors := rfl
@[simp] theorem State.event_mirrorPages (s : State) (r : Record) : (s.event r).mirrorPages = s.mirrorPages := rfl
@[simp] theorem State.event_arenaWait (s : State) (r : Record) : (s.event r).arenaWait = s.arenaWait := rfl
@[simp] theorem State.event_poolWait (s : State) (r : Record) : (s.event r).poolWait = s.poolWait := rfl
@[simp] theorem State.event_items (s : State) (r : Record) : (s.event r).items = s.items := rfl
@[simp] theorem State.event_nextItem (s : State) (r : Record) : (s.event r).nextItem = s.nextItem := rfl
@[simp] theorem State.event_gang (s : State) (r : Record) : (s.event r).gang = s.gang := rfl
@[simp] theorem State.event_boxes (s : State) (r : Record) : (s.event r).boxes = s.boxes := rfl
@[simp] theorem State.event_mem (s : State) (r : Record) : (s.event r).mem = s.mem := rfl
@[simp] theorem State.event_memPoison (s : State) (r : Record) : (s.event r).memPoison = s.memPoison := rfl
@[simp] theorem State.event_protUnits (s : State) (r : Record) : (s.event r).protUnits = s.protUnits := rfl
@[simp] theorem State.event_hbm (s : State) (r : Record) : (s.event r).hbm = s.hbm := rfl
@[simp] theorem State.event_dies (s : State) (r : Record) : (s.event r).dies = s.dies := rfl
@[simp] theorem State.event_held (s : State) (r : Record) : (s.event r).held = s.held := rfl
@[simp] theorem State.event_tier (s : State) (r : Record) : (s.event r).tier = s.tier := rfl
@[simp] theorem State.event_cb (s : State) (r : Record) : (s.event r).cb = s.cb := rfl
@[simp] theorem State.event_fab (s : State) (r : Record) : (s.event r).fab = s.fab := rfl
@[simp] theorem State.event_links (s : State) (r : Record) : (s.event r).links = s.links := rfl
@[simp] theorem State.event_host (s : State) (r : Record) : (s.event r).host = s.host := rfl
@[simp] theorem State.event_fw (s : State) (r : Record) : (s.event r).fw = s.fw := rfl
@[simp] theorem State.event_sec (s : State) (r : Record) : (s.event r).sec = s.sec := rfl
@[simp] theorem State.event_pwr (s : State) (r : Record) : (s.event r).pwr = s.pwr := rfl
@[simp] theorem State.event_test (s : State) (r : Record) : (s.event r).test = s.test := rfl
@[simp] theorem State.event_side (s : State) (r : Record) : (s.event r).side = s.side := rfl

theorem State.modItem_leads {ps : List Part} {s₀ s : State} {id : Nat} {f : Item → Item} (hs : Leads ps s₀ s)
    (hp : [Part.items] ⊆ ps) : Leads ps s₀ (s.modItem id f) :=
  hs.items hp

@[simp] theorem State.modItem_pending (s : State) (id : Nat) (f : Item → Item) : (s.modItem id f).pending = s.pending := rfl
@[simp] theorem State.modItem_outbox (s : State) (id : Nat) (f : Item → Item) : (s.modItem id f).outbox = s.outbox := rfl
@[simp] theorem State.modItem_freeCount (s : State) (id : Nat) (f : Item → Item) : (s.modItem id f).freeCount = s.freeCount := rfl
@[simp] theorem State.modItem_stepping (s : State) (id : Nat) (f : Item → Item) : (s.modItem id f).stepping = s.stepping := rfl
@[simp] theorem State.modItem_order (s : State) (id : Nat) (f : Item → Item) : (s.modItem id f).order = s.order := rfl
@[simp] theorem State.modItem_pins (s : State) (id : Nat) (f : Item → Item) : (s.modItem id f).pins = s.pins := rfl
@[simp] theorem State.modItem_time (s : State) (id : Nat) (f : Item → Item) : (s.modItem id f).time = s.time := rfl
@[simp] theorem State.modItem_regs (s : State) (id : Nat) (f : Item → Item) : (s.modItem id f).regs = s.regs := rfl
@[simp] theorem State.modItem_ctr (s : State) (id : Nat) (f : Item → Item) : (s.modItem id f).ctr = s.ctr := rfl
@[simp] theorem State.modItem_cores (s : State) (id : Nat) (f : Item → Item) : (s.modItem id f).cores = s.cores := rfl
@[simp] theorem State.modItem_places (s : State) (id : Nat) (f : Item → Item) : (s.modItem id f).places = s.places := rfl
@[simp] theorem State.modItem_groups (s : State) (id : Nat) (f : Item → Item) : (s.modItem id f).groups = s.groups := rfl
@[simp] theorem State.modItem_pages (s : State) (id : Nat) (f : Item → Item) : (s.modItem id f).pages = s.pages := rfl
@[simp] theorem State.modItem_mirrors (s : State) (id : Nat) (f : Item → Item) : (s.modItem id f).mirrors = s.mirrors := rfl
@[simp] theorem State.modItem_mirrorPages (s : State) (id : Nat) (f : Item → Item) : (s.modItem id f).mirrorPages = s.mirrorPages := rfl
@[simp] theorem State.modItem_arenaWait (s : State) (id : Nat) (f : Item → Item) : (s.modItem id f).arenaWait = s.arenaWait := rfl
@[simp] theorem State.modItem_poolWait (s : State) (id : Nat) (f : Item → Item) : (s.modItem id f).poolWait = s.poolWait := rfl
@[simp] theorem State.modItem_nextItem (s : State) (id : Nat) (f : Item → Item) : (s.modItem id f).nextItem = s.nextItem := rfl
@[simp] theorem State.modItem_gang (s : State) (id : Nat) (f : Item → Item) : (s.modItem id f).gang = s.gang := rfl
@[simp] theorem State.modItem_boxes (s : State) (id : Nat) (f : Item → Item) : (s.modItem id f).boxes = s.boxes := rfl
@[simp] theorem State.modItem_mem (s : State) (id : Nat) (f : Item → Item) : (s.modItem id f).mem = s.mem := rfl
@[simp] theorem State.modItem_memPoison (s : State) (id : Nat) (f : Item → Item) : (s.modItem id f).memPoison = s.memPoison := rfl
@[simp] theorem State.modItem_protUnits (s : State) (id : Nat) (f : Item → Item) : (s.modItem id f).protUnits = s.protUnits := rfl
@[simp] theorem State.modItem_hbm (s : State) (id : Nat) (f : Item → Item) : (s.modItem id f).hbm = s.hbm := rfl
@[simp] theorem State.modItem_dies (s : State) (id : Nat) (f : Item → Item) : (s.modItem id f).dies = s.dies := rfl
@[simp] theorem State.modItem_held (s : State) (id : Nat) (f : Item → Item) : (s.modItem id f).held = s.held := rfl
@[simp] theorem State.modItem_tier (s : State) (id : Nat) (f : Item → Item) : (s.modItem id f).tier = s.tier := rfl
@[simp] theorem State.modItem_cb (s : State) (id : Nat) (f : Item → Item) : (s.modItem id f).cb = s.cb := rfl
@[simp] theorem State.modItem_fab (s : State) (id : Nat) (f : Item → Item) : (s.modItem id f).fab = s.fab := rfl
@[simp] theorem State.modItem_links (s : State) (id : Nat) (f : Item → Item) : (s.modItem id f).links = s.links := rfl
@[simp] theorem State.modItem_host (s : State) (id : Nat) (f : Item → Item) : (s.modItem id f).host = s.host := rfl
@[simp] theorem State.modItem_log (s : State) (id : Nat) (f : Item → Item) : (s.modItem id f).log = s.log := rfl
@[simp] theorem State.modItem_fw (s : State) (id : Nat) (f : Item → Item) : (s.modItem id f).fw = s.fw := rfl
@[simp] theorem State.modItem_sec (s : State) (id : Nat) (f : Item → Item) : (s.modItem id f).sec = s.sec := rfl
@[simp] theorem State.modItem_pwr (s : State) (id : Nat) (f : Item → Item) : (s.modItem id f).pwr = s.pwr := rfl
@[simp] theorem State.modItem_test (s : State) (id : Nat) (f : Item → Item) : (s.modItem id f).test = s.test := rfl
@[simp] theorem State.modItem_side (s : State) (id : Nat) (f : Item → Item) : (s.modItem id f).side = s.side := rfl

theorem State.modEntry_leads {ps : List Part} {s₀ s : State} {id k : Nat} {f : Entry → Entry} (hs : Leads ps s₀ s)
    (hp : [Part.items] ⊆ ps) : Leads ps s₀ (s.modEntry id k f) :=
  hs.items hp

@[simp] theorem State.modEntry_pending (s : State) (id k : Nat) (f : Entry → Entry) : (s.modEntry id k f).pending = s.pending := rfl
@[simp] theorem State.modEntry_outbox (s : State) (id k : Nat) (f : Entry → Entry) : (s.modEntry id k f).outbox = s.outbox := rfl
@[simp] theorem State.modEntry_freeCount (s : State) (id k : Nat) (f : Entry → Entry) : (s.modEntry id k f).freeCount = s.freeCount := rfl
@[simp] theorem State.modEntry_stepping (s : State) (id k : Nat) (f : Entry → Entry) : (s.modEntry id k f).stepping = s.stepping := rfl
@[simp] theorem State.modEntry_order (s : State) (id k : Nat) (f : Entry → Entry) : (s.modEntry id k f).order = s.order := rfl
@[simp] theorem State.modEntry_pins (s : State) (id k : Nat) (f : Entry → Entry) : (s.modEntry id k f).pins = s.pins := rfl
@[simp] theorem State.modEntry_time (s : State) (id k : Nat) (f : Entry → Entry) : (s.modEntry id k f).time = s.time := rfl
@[simp] theorem State.modEntry_regs (s : State) (id k : Nat) (f : Entry → Entry) : (s.modEntry id k f).regs = s.regs := rfl
@[simp] theorem State.modEntry_ctr (s : State) (id k : Nat) (f : Entry → Entry) : (s.modEntry id k f).ctr = s.ctr := rfl
@[simp] theorem State.modEntry_cores (s : State) (id k : Nat) (f : Entry → Entry) : (s.modEntry id k f).cores = s.cores := rfl
@[simp] theorem State.modEntry_places (s : State) (id k : Nat) (f : Entry → Entry) : (s.modEntry id k f).places = s.places := rfl
@[simp] theorem State.modEntry_groups (s : State) (id k : Nat) (f : Entry → Entry) : (s.modEntry id k f).groups = s.groups := rfl
@[simp] theorem State.modEntry_pages (s : State) (id k : Nat) (f : Entry → Entry) : (s.modEntry id k f).pages = s.pages := rfl
@[simp] theorem State.modEntry_mirrors (s : State) (id k : Nat) (f : Entry → Entry) : (s.modEntry id k f).mirrors = s.mirrors := rfl
@[simp] theorem State.modEntry_mirrorPages (s : State) (id k : Nat) (f : Entry → Entry) : (s.modEntry id k f).mirrorPages = s.mirrorPages := rfl
@[simp] theorem State.modEntry_arenaWait (s : State) (id k : Nat) (f : Entry → Entry) : (s.modEntry id k f).arenaWait = s.arenaWait := rfl
@[simp] theorem State.modEntry_poolWait (s : State) (id k : Nat) (f : Entry → Entry) : (s.modEntry id k f).poolWait = s.poolWait := rfl
@[simp] theorem State.modEntry_nextItem (s : State) (id k : Nat) (f : Entry → Entry) : (s.modEntry id k f).nextItem = s.nextItem := rfl
@[simp] theorem State.modEntry_gang (s : State) (id k : Nat) (f : Entry → Entry) : (s.modEntry id k f).gang = s.gang := rfl
@[simp] theorem State.modEntry_boxes (s : State) (id k : Nat) (f : Entry → Entry) : (s.modEntry id k f).boxes = s.boxes := rfl
@[simp] theorem State.modEntry_mem (s : State) (id k : Nat) (f : Entry → Entry) : (s.modEntry id k f).mem = s.mem := rfl
@[simp] theorem State.modEntry_memPoison (s : State) (id k : Nat) (f : Entry → Entry) : (s.modEntry id k f).memPoison = s.memPoison := rfl
@[simp] theorem State.modEntry_protUnits (s : State) (id k : Nat) (f : Entry → Entry) : (s.modEntry id k f).protUnits = s.protUnits := rfl
@[simp] theorem State.modEntry_hbm (s : State) (id k : Nat) (f : Entry → Entry) : (s.modEntry id k f).hbm = s.hbm := rfl
@[simp] theorem State.modEntry_dies (s : State) (id k : Nat) (f : Entry → Entry) : (s.modEntry id k f).dies = s.dies := rfl
@[simp] theorem State.modEntry_held (s : State) (id k : Nat) (f : Entry → Entry) : (s.modEntry id k f).held = s.held := rfl
@[simp] theorem State.modEntry_tier (s : State) (id k : Nat) (f : Entry → Entry) : (s.modEntry id k f).tier = s.tier := rfl
@[simp] theorem State.modEntry_cb (s : State) (id k : Nat) (f : Entry → Entry) : (s.modEntry id k f).cb = s.cb := rfl
@[simp] theorem State.modEntry_fab (s : State) (id k : Nat) (f : Entry → Entry) : (s.modEntry id k f).fab = s.fab := rfl
@[simp] theorem State.modEntry_links (s : State) (id k : Nat) (f : Entry → Entry) : (s.modEntry id k f).links = s.links := rfl
@[simp] theorem State.modEntry_host (s : State) (id k : Nat) (f : Entry → Entry) : (s.modEntry id k f).host = s.host := rfl
@[simp] theorem State.modEntry_log (s : State) (id k : Nat) (f : Entry → Entry) : (s.modEntry id k f).log = s.log := rfl
@[simp] theorem State.modEntry_fw (s : State) (id k : Nat) (f : Entry → Entry) : (s.modEntry id k f).fw = s.fw := rfl
@[simp] theorem State.modEntry_sec (s : State) (id k : Nat) (f : Entry → Entry) : (s.modEntry id k f).sec = s.sec := rfl
@[simp] theorem State.modEntry_pwr (s : State) (id k : Nat) (f : Entry → Entry) : (s.modEntry id k f).pwr = s.pwr := rfl
@[simp] theorem State.modEntry_test (s : State) (id k : Nat) (f : Entry → Entry) : (s.modEntry id k f).test = s.test := rfl
@[simp] theorem State.modEntry_side (s : State) (id k : Nat) (f : Entry → Entry) : (s.modEntry id k f).side = s.side := rfl

theorem State.modPlace_leads {ps : List Part} {s₀ s : State} {n : Nat} {f : Place → Place} (hs : Leads ps s₀ s)
    (hp : [Part.places] ⊆ ps) : Leads ps s₀ (s.modPlace n f) :=
  hs.places hp

@[simp] theorem State.modPlace_pending (s : State) (n : Nat) (f : Place → Place) : (s.modPlace n f).pending = s.pending := rfl
@[simp] theorem State.modPlace_outbox (s : State) (n : Nat) (f : Place → Place) : (s.modPlace n f).outbox = s.outbox := rfl
@[simp] theorem State.modPlace_freeCount (s : State) (n : Nat) (f : Place → Place) : (s.modPlace n f).freeCount = s.freeCount := rfl
@[simp] theorem State.modPlace_stepping (s : State) (n : Nat) (f : Place → Place) : (s.modPlace n f).stepping = s.stepping := rfl
@[simp] theorem State.modPlace_order (s : State) (n : Nat) (f : Place → Place) : (s.modPlace n f).order = s.order := rfl
@[simp] theorem State.modPlace_pins (s : State) (n : Nat) (f : Place → Place) : (s.modPlace n f).pins = s.pins := rfl
@[simp] theorem State.modPlace_time (s : State) (n : Nat) (f : Place → Place) : (s.modPlace n f).time = s.time := rfl
@[simp] theorem State.modPlace_regs (s : State) (n : Nat) (f : Place → Place) : (s.modPlace n f).regs = s.regs := rfl
@[simp] theorem State.modPlace_ctr (s : State) (n : Nat) (f : Place → Place) : (s.modPlace n f).ctr = s.ctr := rfl
@[simp] theorem State.modPlace_cores (s : State) (n : Nat) (f : Place → Place) : (s.modPlace n f).cores = s.cores := rfl
@[simp] theorem State.modPlace_groups (s : State) (n : Nat) (f : Place → Place) : (s.modPlace n f).groups = s.groups := rfl
@[simp] theorem State.modPlace_pages (s : State) (n : Nat) (f : Place → Place) : (s.modPlace n f).pages = s.pages := rfl
@[simp] theorem State.modPlace_mirrors (s : State) (n : Nat) (f : Place → Place) : (s.modPlace n f).mirrors = s.mirrors := rfl
@[simp] theorem State.modPlace_mirrorPages (s : State) (n : Nat) (f : Place → Place) : (s.modPlace n f).mirrorPages = s.mirrorPages := rfl
@[simp] theorem State.modPlace_arenaWait (s : State) (n : Nat) (f : Place → Place) : (s.modPlace n f).arenaWait = s.arenaWait := rfl
@[simp] theorem State.modPlace_poolWait (s : State) (n : Nat) (f : Place → Place) : (s.modPlace n f).poolWait = s.poolWait := rfl
@[simp] theorem State.modPlace_items (s : State) (n : Nat) (f : Place → Place) : (s.modPlace n f).items = s.items := rfl
@[simp] theorem State.modPlace_nextItem (s : State) (n : Nat) (f : Place → Place) : (s.modPlace n f).nextItem = s.nextItem := rfl
@[simp] theorem State.modPlace_gang (s : State) (n : Nat) (f : Place → Place) : (s.modPlace n f).gang = s.gang := rfl
@[simp] theorem State.modPlace_boxes (s : State) (n : Nat) (f : Place → Place) : (s.modPlace n f).boxes = s.boxes := rfl
@[simp] theorem State.modPlace_mem (s : State) (n : Nat) (f : Place → Place) : (s.modPlace n f).mem = s.mem := rfl
@[simp] theorem State.modPlace_memPoison (s : State) (n : Nat) (f : Place → Place) : (s.modPlace n f).memPoison = s.memPoison := rfl
@[simp] theorem State.modPlace_protUnits (s : State) (n : Nat) (f : Place → Place) : (s.modPlace n f).protUnits = s.protUnits := rfl
@[simp] theorem State.modPlace_hbm (s : State) (n : Nat) (f : Place → Place) : (s.modPlace n f).hbm = s.hbm := rfl
@[simp] theorem State.modPlace_dies (s : State) (n : Nat) (f : Place → Place) : (s.modPlace n f).dies = s.dies := rfl
@[simp] theorem State.modPlace_held (s : State) (n : Nat) (f : Place → Place) : (s.modPlace n f).held = s.held := rfl
@[simp] theorem State.modPlace_tier (s : State) (n : Nat) (f : Place → Place) : (s.modPlace n f).tier = s.tier := rfl
@[simp] theorem State.modPlace_cb (s : State) (n : Nat) (f : Place → Place) : (s.modPlace n f).cb = s.cb := rfl
@[simp] theorem State.modPlace_fab (s : State) (n : Nat) (f : Place → Place) : (s.modPlace n f).fab = s.fab := rfl
@[simp] theorem State.modPlace_links (s : State) (n : Nat) (f : Place → Place) : (s.modPlace n f).links = s.links := rfl
@[simp] theorem State.modPlace_host (s : State) (n : Nat) (f : Place → Place) : (s.modPlace n f).host = s.host := rfl
@[simp] theorem State.modPlace_log (s : State) (n : Nat) (f : Place → Place) : (s.modPlace n f).log = s.log := rfl
@[simp] theorem State.modPlace_fw (s : State) (n : Nat) (f : Place → Place) : (s.modPlace n f).fw = s.fw := rfl
@[simp] theorem State.modPlace_sec (s : State) (n : Nat) (f : Place → Place) : (s.modPlace n f).sec = s.sec := rfl
@[simp] theorem State.modPlace_pwr (s : State) (n : Nat) (f : Place → Place) : (s.modPlace n f).pwr = s.pwr := rfl
@[simp] theorem State.modPlace_test (s : State) (n : Nat) (f : Place → Place) : (s.modPlace n f).test = s.test := rfl
@[simp] theorem State.modPlace_side (s : State) (n : Nat) (f : Place → Place) : (s.modPlace n f).side = s.side := rfl

theorem State.modGroup_leads {ps : List Part} {s₀ s : State} {g : Nat} {f : Group → Group} (hs : Leads ps s₀ s)
    (hp : [Part.groups] ⊆ ps) : Leads ps s₀ (s.modGroup g f) :=
  hs.groups hp

@[simp] theorem State.modGroup_pending (s : State) (g : Nat) (f : Group → Group) : (s.modGroup g f).pending = s.pending := rfl
@[simp] theorem State.modGroup_outbox (s : State) (g : Nat) (f : Group → Group) : (s.modGroup g f).outbox = s.outbox := rfl
@[simp] theorem State.modGroup_freeCount (s : State) (g : Nat) (f : Group → Group) : (s.modGroup g f).freeCount = s.freeCount := rfl
@[simp] theorem State.modGroup_stepping (s : State) (g : Nat) (f : Group → Group) : (s.modGroup g f).stepping = s.stepping := rfl
@[simp] theorem State.modGroup_order (s : State) (g : Nat) (f : Group → Group) : (s.modGroup g f).order = s.order := rfl
@[simp] theorem State.modGroup_pins (s : State) (g : Nat) (f : Group → Group) : (s.modGroup g f).pins = s.pins := rfl
@[simp] theorem State.modGroup_time (s : State) (g : Nat) (f : Group → Group) : (s.modGroup g f).time = s.time := rfl
@[simp] theorem State.modGroup_regs (s : State) (g : Nat) (f : Group → Group) : (s.modGroup g f).regs = s.regs := rfl
@[simp] theorem State.modGroup_ctr (s : State) (g : Nat) (f : Group → Group) : (s.modGroup g f).ctr = s.ctr := rfl
@[simp] theorem State.modGroup_cores (s : State) (g : Nat) (f : Group → Group) : (s.modGroup g f).cores = s.cores := rfl
@[simp] theorem State.modGroup_places (s : State) (g : Nat) (f : Group → Group) : (s.modGroup g f).places = s.places := rfl
@[simp] theorem State.modGroup_pages (s : State) (g : Nat) (f : Group → Group) : (s.modGroup g f).pages = s.pages := rfl
@[simp] theorem State.modGroup_mirrors (s : State) (g : Nat) (f : Group → Group) : (s.modGroup g f).mirrors = s.mirrors := rfl
@[simp] theorem State.modGroup_mirrorPages (s : State) (g : Nat) (f : Group → Group) : (s.modGroup g f).mirrorPages = s.mirrorPages := rfl
@[simp] theorem State.modGroup_arenaWait (s : State) (g : Nat) (f : Group → Group) : (s.modGroup g f).arenaWait = s.arenaWait := rfl
@[simp] theorem State.modGroup_poolWait (s : State) (g : Nat) (f : Group → Group) : (s.modGroup g f).poolWait = s.poolWait := rfl
@[simp] theorem State.modGroup_items (s : State) (g : Nat) (f : Group → Group) : (s.modGroup g f).items = s.items := rfl
@[simp] theorem State.modGroup_nextItem (s : State) (g : Nat) (f : Group → Group) : (s.modGroup g f).nextItem = s.nextItem := rfl
@[simp] theorem State.modGroup_gang (s : State) (g : Nat) (f : Group → Group) : (s.modGroup g f).gang = s.gang := rfl
@[simp] theorem State.modGroup_boxes (s : State) (g : Nat) (f : Group → Group) : (s.modGroup g f).boxes = s.boxes := rfl
@[simp] theorem State.modGroup_mem (s : State) (g : Nat) (f : Group → Group) : (s.modGroup g f).mem = s.mem := rfl
@[simp] theorem State.modGroup_memPoison (s : State) (g : Nat) (f : Group → Group) : (s.modGroup g f).memPoison = s.memPoison := rfl
@[simp] theorem State.modGroup_protUnits (s : State) (g : Nat) (f : Group → Group) : (s.modGroup g f).protUnits = s.protUnits := rfl
@[simp] theorem State.modGroup_hbm (s : State) (g : Nat) (f : Group → Group) : (s.modGroup g f).hbm = s.hbm := rfl
@[simp] theorem State.modGroup_dies (s : State) (g : Nat) (f : Group → Group) : (s.modGroup g f).dies = s.dies := rfl
@[simp] theorem State.modGroup_held (s : State) (g : Nat) (f : Group → Group) : (s.modGroup g f).held = s.held := rfl
@[simp] theorem State.modGroup_tier (s : State) (g : Nat) (f : Group → Group) : (s.modGroup g f).tier = s.tier := rfl
@[simp] theorem State.modGroup_cb (s : State) (g : Nat) (f : Group → Group) : (s.modGroup g f).cb = s.cb := rfl
@[simp] theorem State.modGroup_fab (s : State) (g : Nat) (f : Group → Group) : (s.modGroup g f).fab = s.fab := rfl
@[simp] theorem State.modGroup_links (s : State) (g : Nat) (f : Group → Group) : (s.modGroup g f).links = s.links := rfl
@[simp] theorem State.modGroup_host (s : State) (g : Nat) (f : Group → Group) : (s.modGroup g f).host = s.host := rfl
@[simp] theorem State.modGroup_log (s : State) (g : Nat) (f : Group → Group) : (s.modGroup g f).log = s.log := rfl
@[simp] theorem State.modGroup_fw (s : State) (g : Nat) (f : Group → Group) : (s.modGroup g f).fw = s.fw := rfl
@[simp] theorem State.modGroup_sec (s : State) (g : Nat) (f : Group → Group) : (s.modGroup g f).sec = s.sec := rfl
@[simp] theorem State.modGroup_pwr (s : State) (g : Nat) (f : Group → Group) : (s.modGroup g f).pwr = s.pwr := rfl
@[simp] theorem State.modGroup_test (s : State) (g : Nat) (f : Group → Group) : (s.modGroup g f).test = s.test := rfl
@[simp] theorem State.modGroup_side (s : State) (g : Nat) (f : Group → Group) : (s.modGroup g f).side = s.side := rfl

theorem State.setTime_leads {ps : List Part} {s₀ s : State} {f : TimeUnit → TimeUnit} (hs : Leads ps s₀ s)
    (hp : [Part.time] ⊆ ps) : Leads ps s₀ (s.setTime f) :=
  hs.time hp

@[simp] theorem State.setTime_pending (s : State) (f : TimeUnit → TimeUnit) : (s.setTime f).pending = s.pending := rfl
@[simp] theorem State.setTime_outbox (s : State) (f : TimeUnit → TimeUnit) : (s.setTime f).outbox = s.outbox := rfl
@[simp] theorem State.setTime_freeCount (s : State) (f : TimeUnit → TimeUnit) : (s.setTime f).freeCount = s.freeCount := rfl
@[simp] theorem State.setTime_stepping (s : State) (f : TimeUnit → TimeUnit) : (s.setTime f).stepping = s.stepping := rfl
@[simp] theorem State.setTime_order (s : State) (f : TimeUnit → TimeUnit) : (s.setTime f).order = s.order := rfl
@[simp] theorem State.setTime_pins (s : State) (f : TimeUnit → TimeUnit) : (s.setTime f).pins = s.pins := rfl
@[simp] theorem State.setTime_regs (s : State) (f : TimeUnit → TimeUnit) : (s.setTime f).regs = s.regs := rfl
@[simp] theorem State.setTime_ctr (s : State) (f : TimeUnit → TimeUnit) : (s.setTime f).ctr = s.ctr := rfl
@[simp] theorem State.setTime_cores (s : State) (f : TimeUnit → TimeUnit) : (s.setTime f).cores = s.cores := rfl
@[simp] theorem State.setTime_places (s : State) (f : TimeUnit → TimeUnit) : (s.setTime f).places = s.places := rfl
@[simp] theorem State.setTime_groups (s : State) (f : TimeUnit → TimeUnit) : (s.setTime f).groups = s.groups := rfl
@[simp] theorem State.setTime_pages (s : State) (f : TimeUnit → TimeUnit) : (s.setTime f).pages = s.pages := rfl
@[simp] theorem State.setTime_mirrors (s : State) (f : TimeUnit → TimeUnit) : (s.setTime f).mirrors = s.mirrors := rfl
@[simp] theorem State.setTime_mirrorPages (s : State) (f : TimeUnit → TimeUnit) : (s.setTime f).mirrorPages = s.mirrorPages := rfl
@[simp] theorem State.setTime_arenaWait (s : State) (f : TimeUnit → TimeUnit) : (s.setTime f).arenaWait = s.arenaWait := rfl
@[simp] theorem State.setTime_poolWait (s : State) (f : TimeUnit → TimeUnit) : (s.setTime f).poolWait = s.poolWait := rfl
@[simp] theorem State.setTime_items (s : State) (f : TimeUnit → TimeUnit) : (s.setTime f).items = s.items := rfl
@[simp] theorem State.setTime_nextItem (s : State) (f : TimeUnit → TimeUnit) : (s.setTime f).nextItem = s.nextItem := rfl
@[simp] theorem State.setTime_gang (s : State) (f : TimeUnit → TimeUnit) : (s.setTime f).gang = s.gang := rfl
@[simp] theorem State.setTime_boxes (s : State) (f : TimeUnit → TimeUnit) : (s.setTime f).boxes = s.boxes := rfl
@[simp] theorem State.setTime_mem (s : State) (f : TimeUnit → TimeUnit) : (s.setTime f).mem = s.mem := rfl
@[simp] theorem State.setTime_memPoison (s : State) (f : TimeUnit → TimeUnit) : (s.setTime f).memPoison = s.memPoison := rfl
@[simp] theorem State.setTime_protUnits (s : State) (f : TimeUnit → TimeUnit) : (s.setTime f).protUnits = s.protUnits := rfl
@[simp] theorem State.setTime_hbm (s : State) (f : TimeUnit → TimeUnit) : (s.setTime f).hbm = s.hbm := rfl
@[simp] theorem State.setTime_dies (s : State) (f : TimeUnit → TimeUnit) : (s.setTime f).dies = s.dies := rfl
@[simp] theorem State.setTime_held (s : State) (f : TimeUnit → TimeUnit) : (s.setTime f).held = s.held := rfl
@[simp] theorem State.setTime_tier (s : State) (f : TimeUnit → TimeUnit) : (s.setTime f).tier = s.tier := rfl
@[simp] theorem State.setTime_cb (s : State) (f : TimeUnit → TimeUnit) : (s.setTime f).cb = s.cb := rfl
@[simp] theorem State.setTime_fab (s : State) (f : TimeUnit → TimeUnit) : (s.setTime f).fab = s.fab := rfl
@[simp] theorem State.setTime_links (s : State) (f : TimeUnit → TimeUnit) : (s.setTime f).links = s.links := rfl
@[simp] theorem State.setTime_host (s : State) (f : TimeUnit → TimeUnit) : (s.setTime f).host = s.host := rfl
@[simp] theorem State.setTime_log (s : State) (f : TimeUnit → TimeUnit) : (s.setTime f).log = s.log := rfl
@[simp] theorem State.setTime_fw (s : State) (f : TimeUnit → TimeUnit) : (s.setTime f).fw = s.fw := rfl
@[simp] theorem State.setTime_sec (s : State) (f : TimeUnit → TimeUnit) : (s.setTime f).sec = s.sec := rfl
@[simp] theorem State.setTime_pwr (s : State) (f : TimeUnit → TimeUnit) : (s.setTime f).pwr = s.pwr := rfl
@[simp] theorem State.setTime_test (s : State) (f : TimeUnit → TimeUnit) : (s.setTime f).test = s.test := rfl
@[simp] theorem State.setTime_side (s : State) (f : TimeUnit → TimeUnit) : (s.setTime f).side = s.side := rfl

theorem State.setFab_leads {ps : List Part} {s₀ s : State} {f : Fabric → Fabric} (hs : Leads ps s₀ s)
    (hp : [Part.fab] ⊆ ps) : Leads ps s₀ (s.setFab f) :=
  hs.fab hp

@[simp] theorem State.setFab_pending (s : State) (f : Fabric → Fabric) : (s.setFab f).pending = s.pending := rfl
@[simp] theorem State.setFab_outbox (s : State) (f : Fabric → Fabric) : (s.setFab f).outbox = s.outbox := rfl
@[simp] theorem State.setFab_freeCount (s : State) (f : Fabric → Fabric) : (s.setFab f).freeCount = s.freeCount := rfl
@[simp] theorem State.setFab_stepping (s : State) (f : Fabric → Fabric) : (s.setFab f).stepping = s.stepping := rfl
@[simp] theorem State.setFab_order (s : State) (f : Fabric → Fabric) : (s.setFab f).order = s.order := rfl
@[simp] theorem State.setFab_pins (s : State) (f : Fabric → Fabric) : (s.setFab f).pins = s.pins := rfl
@[simp] theorem State.setFab_time (s : State) (f : Fabric → Fabric) : (s.setFab f).time = s.time := rfl
@[simp] theorem State.setFab_regs (s : State) (f : Fabric → Fabric) : (s.setFab f).regs = s.regs := rfl
@[simp] theorem State.setFab_ctr (s : State) (f : Fabric → Fabric) : (s.setFab f).ctr = s.ctr := rfl
@[simp] theorem State.setFab_cores (s : State) (f : Fabric → Fabric) : (s.setFab f).cores = s.cores := rfl
@[simp] theorem State.setFab_places (s : State) (f : Fabric → Fabric) : (s.setFab f).places = s.places := rfl
@[simp] theorem State.setFab_groups (s : State) (f : Fabric → Fabric) : (s.setFab f).groups = s.groups := rfl
@[simp] theorem State.setFab_pages (s : State) (f : Fabric → Fabric) : (s.setFab f).pages = s.pages := rfl
@[simp] theorem State.setFab_mirrors (s : State) (f : Fabric → Fabric) : (s.setFab f).mirrors = s.mirrors := rfl
@[simp] theorem State.setFab_mirrorPages (s : State) (f : Fabric → Fabric) : (s.setFab f).mirrorPages = s.mirrorPages := rfl
@[simp] theorem State.setFab_arenaWait (s : State) (f : Fabric → Fabric) : (s.setFab f).arenaWait = s.arenaWait := rfl
@[simp] theorem State.setFab_poolWait (s : State) (f : Fabric → Fabric) : (s.setFab f).poolWait = s.poolWait := rfl
@[simp] theorem State.setFab_items (s : State) (f : Fabric → Fabric) : (s.setFab f).items = s.items := rfl
@[simp] theorem State.setFab_nextItem (s : State) (f : Fabric → Fabric) : (s.setFab f).nextItem = s.nextItem := rfl
@[simp] theorem State.setFab_gang (s : State) (f : Fabric → Fabric) : (s.setFab f).gang = s.gang := rfl
@[simp] theorem State.setFab_boxes (s : State) (f : Fabric → Fabric) : (s.setFab f).boxes = s.boxes := rfl
@[simp] theorem State.setFab_mem (s : State) (f : Fabric → Fabric) : (s.setFab f).mem = s.mem := rfl
@[simp] theorem State.setFab_memPoison (s : State) (f : Fabric → Fabric) : (s.setFab f).memPoison = s.memPoison := rfl
@[simp] theorem State.setFab_protUnits (s : State) (f : Fabric → Fabric) : (s.setFab f).protUnits = s.protUnits := rfl
@[simp] theorem State.setFab_hbm (s : State) (f : Fabric → Fabric) : (s.setFab f).hbm = s.hbm := rfl
@[simp] theorem State.setFab_dies (s : State) (f : Fabric → Fabric) : (s.setFab f).dies = s.dies := rfl
@[simp] theorem State.setFab_held (s : State) (f : Fabric → Fabric) : (s.setFab f).held = s.held := rfl
@[simp] theorem State.setFab_tier (s : State) (f : Fabric → Fabric) : (s.setFab f).tier = s.tier := rfl
@[simp] theorem State.setFab_cb (s : State) (f : Fabric → Fabric) : (s.setFab f).cb = s.cb := rfl
@[simp] theorem State.setFab_links (s : State) (f : Fabric → Fabric) : (s.setFab f).links = s.links := rfl
@[simp] theorem State.setFab_host (s : State) (f : Fabric → Fabric) : (s.setFab f).host = s.host := rfl
@[simp] theorem State.setFab_log (s : State) (f : Fabric → Fabric) : (s.setFab f).log = s.log := rfl
@[simp] theorem State.setFab_fw (s : State) (f : Fabric → Fabric) : (s.setFab f).fw = s.fw := rfl
@[simp] theorem State.setFab_sec (s : State) (f : Fabric → Fabric) : (s.setFab f).sec = s.sec := rfl
@[simp] theorem State.setFab_pwr (s : State) (f : Fabric → Fabric) : (s.setFab f).pwr = s.pwr := rfl
@[simp] theorem State.setFab_test (s : State) (f : Fabric → Fabric) : (s.setFab f).test = s.test := rfl
@[simp] theorem State.setFab_side (s : State) (f : Fabric → Fabric) : (s.setFab f).side = s.side := rfl

theorem State.setHost_leads {ps : List Part} {s₀ s : State} {f : HostSt → HostSt} (hs : Leads ps s₀ s)
    (hp : [Part.host] ⊆ ps) : Leads ps s₀ (s.setHost f) :=
  hs.host hp

@[simp] theorem State.setHost_pending (s : State) (f : HostSt → HostSt) : (s.setHost f).pending = s.pending := rfl
@[simp] theorem State.setHost_outbox (s : State) (f : HostSt → HostSt) : (s.setHost f).outbox = s.outbox := rfl
@[simp] theorem State.setHost_freeCount (s : State) (f : HostSt → HostSt) : (s.setHost f).freeCount = s.freeCount := rfl
@[simp] theorem State.setHost_stepping (s : State) (f : HostSt → HostSt) : (s.setHost f).stepping = s.stepping := rfl
@[simp] theorem State.setHost_order (s : State) (f : HostSt → HostSt) : (s.setHost f).order = s.order := rfl
@[simp] theorem State.setHost_pins (s : State) (f : HostSt → HostSt) : (s.setHost f).pins = s.pins := rfl
@[simp] theorem State.setHost_time (s : State) (f : HostSt → HostSt) : (s.setHost f).time = s.time := rfl
@[simp] theorem State.setHost_regs (s : State) (f : HostSt → HostSt) : (s.setHost f).regs = s.regs := rfl
@[simp] theorem State.setHost_ctr (s : State) (f : HostSt → HostSt) : (s.setHost f).ctr = s.ctr := rfl
@[simp] theorem State.setHost_cores (s : State) (f : HostSt → HostSt) : (s.setHost f).cores = s.cores := rfl
@[simp] theorem State.setHost_places (s : State) (f : HostSt → HostSt) : (s.setHost f).places = s.places := rfl
@[simp] theorem State.setHost_groups (s : State) (f : HostSt → HostSt) : (s.setHost f).groups = s.groups := rfl
@[simp] theorem State.setHost_pages (s : State) (f : HostSt → HostSt) : (s.setHost f).pages = s.pages := rfl
@[simp] theorem State.setHost_mirrors (s : State) (f : HostSt → HostSt) : (s.setHost f).mirrors = s.mirrors := rfl
@[simp] theorem State.setHost_mirrorPages (s : State) (f : HostSt → HostSt) : (s.setHost f).mirrorPages = s.mirrorPages := rfl
@[simp] theorem State.setHost_arenaWait (s : State) (f : HostSt → HostSt) : (s.setHost f).arenaWait = s.arenaWait := rfl
@[simp] theorem State.setHost_poolWait (s : State) (f : HostSt → HostSt) : (s.setHost f).poolWait = s.poolWait := rfl
@[simp] theorem State.setHost_items (s : State) (f : HostSt → HostSt) : (s.setHost f).items = s.items := rfl
@[simp] theorem State.setHost_nextItem (s : State) (f : HostSt → HostSt) : (s.setHost f).nextItem = s.nextItem := rfl
@[simp] theorem State.setHost_gang (s : State) (f : HostSt → HostSt) : (s.setHost f).gang = s.gang := rfl
@[simp] theorem State.setHost_boxes (s : State) (f : HostSt → HostSt) : (s.setHost f).boxes = s.boxes := rfl
@[simp] theorem State.setHost_mem (s : State) (f : HostSt → HostSt) : (s.setHost f).mem = s.mem := rfl
@[simp] theorem State.setHost_memPoison (s : State) (f : HostSt → HostSt) : (s.setHost f).memPoison = s.memPoison := rfl
@[simp] theorem State.setHost_protUnits (s : State) (f : HostSt → HostSt) : (s.setHost f).protUnits = s.protUnits := rfl
@[simp] theorem State.setHost_hbm (s : State) (f : HostSt → HostSt) : (s.setHost f).hbm = s.hbm := rfl
@[simp] theorem State.setHost_dies (s : State) (f : HostSt → HostSt) : (s.setHost f).dies = s.dies := rfl
@[simp] theorem State.setHost_held (s : State) (f : HostSt → HostSt) : (s.setHost f).held = s.held := rfl
@[simp] theorem State.setHost_tier (s : State) (f : HostSt → HostSt) : (s.setHost f).tier = s.tier := rfl
@[simp] theorem State.setHost_cb (s : State) (f : HostSt → HostSt) : (s.setHost f).cb = s.cb := rfl
@[simp] theorem State.setHost_fab (s : State) (f : HostSt → HostSt) : (s.setHost f).fab = s.fab := rfl
@[simp] theorem State.setHost_links (s : State) (f : HostSt → HostSt) : (s.setHost f).links = s.links := rfl
@[simp] theorem State.setHost_log (s : State) (f : HostSt → HostSt) : (s.setHost f).log = s.log := rfl
@[simp] theorem State.setHost_fw (s : State) (f : HostSt → HostSt) : (s.setHost f).fw = s.fw := rfl
@[simp] theorem State.setHost_sec (s : State) (f : HostSt → HostSt) : (s.setHost f).sec = s.sec := rfl
@[simp] theorem State.setHost_pwr (s : State) (f : HostSt → HostSt) : (s.setHost f).pwr = s.pwr := rfl
@[simp] theorem State.setHost_test (s : State) (f : HostSt → HostSt) : (s.setHost f).test = s.test := rfl
@[simp] theorem State.setHost_side (s : State) (f : HostSt → HostSt) : (s.setHost f).side = s.side := rfl

theorem State.setSec_leads {ps : List Part} {s₀ s : State} {f : Security → Security} (hs : Leads ps s₀ s)
    (hp : [Part.sec] ⊆ ps) : Leads ps s₀ (s.setSec f) :=
  hs.sec hp

@[simp] theorem State.setSec_pending (s : State) (f : Security → Security) : (s.setSec f).pending = s.pending := rfl
@[simp] theorem State.setSec_outbox (s : State) (f : Security → Security) : (s.setSec f).outbox = s.outbox := rfl
@[simp] theorem State.setSec_freeCount (s : State) (f : Security → Security) : (s.setSec f).freeCount = s.freeCount := rfl
@[simp] theorem State.setSec_stepping (s : State) (f : Security → Security) : (s.setSec f).stepping = s.stepping := rfl
@[simp] theorem State.setSec_order (s : State) (f : Security → Security) : (s.setSec f).order = s.order := rfl
@[simp] theorem State.setSec_pins (s : State) (f : Security → Security) : (s.setSec f).pins = s.pins := rfl
@[simp] theorem State.setSec_time (s : State) (f : Security → Security) : (s.setSec f).time = s.time := rfl
@[simp] theorem State.setSec_regs (s : State) (f : Security → Security) : (s.setSec f).regs = s.regs := rfl
@[simp] theorem State.setSec_ctr (s : State) (f : Security → Security) : (s.setSec f).ctr = s.ctr := rfl
@[simp] theorem State.setSec_cores (s : State) (f : Security → Security) : (s.setSec f).cores = s.cores := rfl
@[simp] theorem State.setSec_places (s : State) (f : Security → Security) : (s.setSec f).places = s.places := rfl
@[simp] theorem State.setSec_groups (s : State) (f : Security → Security) : (s.setSec f).groups = s.groups := rfl
@[simp] theorem State.setSec_pages (s : State) (f : Security → Security) : (s.setSec f).pages = s.pages := rfl
@[simp] theorem State.setSec_mirrors (s : State) (f : Security → Security) : (s.setSec f).mirrors = s.mirrors := rfl
@[simp] theorem State.setSec_mirrorPages (s : State) (f : Security → Security) : (s.setSec f).mirrorPages = s.mirrorPages := rfl
@[simp] theorem State.setSec_arenaWait (s : State) (f : Security → Security) : (s.setSec f).arenaWait = s.arenaWait := rfl
@[simp] theorem State.setSec_poolWait (s : State) (f : Security → Security) : (s.setSec f).poolWait = s.poolWait := rfl
@[simp] theorem State.setSec_items (s : State) (f : Security → Security) : (s.setSec f).items = s.items := rfl
@[simp] theorem State.setSec_nextItem (s : State) (f : Security → Security) : (s.setSec f).nextItem = s.nextItem := rfl
@[simp] theorem State.setSec_gang (s : State) (f : Security → Security) : (s.setSec f).gang = s.gang := rfl
@[simp] theorem State.setSec_boxes (s : State) (f : Security → Security) : (s.setSec f).boxes = s.boxes := rfl
@[simp] theorem State.setSec_mem (s : State) (f : Security → Security) : (s.setSec f).mem = s.mem := rfl
@[simp] theorem State.setSec_memPoison (s : State) (f : Security → Security) : (s.setSec f).memPoison = s.memPoison := rfl
@[simp] theorem State.setSec_protUnits (s : State) (f : Security → Security) : (s.setSec f).protUnits = s.protUnits := rfl
@[simp] theorem State.setSec_hbm (s : State) (f : Security → Security) : (s.setSec f).hbm = s.hbm := rfl
@[simp] theorem State.setSec_dies (s : State) (f : Security → Security) : (s.setSec f).dies = s.dies := rfl
@[simp] theorem State.setSec_held (s : State) (f : Security → Security) : (s.setSec f).held = s.held := rfl
@[simp] theorem State.setSec_tier (s : State) (f : Security → Security) : (s.setSec f).tier = s.tier := rfl
@[simp] theorem State.setSec_cb (s : State) (f : Security → Security) : (s.setSec f).cb = s.cb := rfl
@[simp] theorem State.setSec_fab (s : State) (f : Security → Security) : (s.setSec f).fab = s.fab := rfl
@[simp] theorem State.setSec_links (s : State) (f : Security → Security) : (s.setSec f).links = s.links := rfl
@[simp] theorem State.setSec_host (s : State) (f : Security → Security) : (s.setSec f).host = s.host := rfl
@[simp] theorem State.setSec_log (s : State) (f : Security → Security) : (s.setSec f).log = s.log := rfl
@[simp] theorem State.setSec_fw (s : State) (f : Security → Security) : (s.setSec f).fw = s.fw := rfl
@[simp] theorem State.setSec_pwr (s : State) (f : Security → Security) : (s.setSec f).pwr = s.pwr := rfl
@[simp] theorem State.setSec_test (s : State) (f : Security → Security) : (s.setSec f).test = s.test := rfl
@[simp] theorem State.setSec_side (s : State) (f : Security → Security) : (s.setSec f).side = s.side := rfl

theorem State.setTest_leads {ps : List Part} {s₀ s : State} {f : TestSt → TestSt} (hs : Leads ps s₀ s)
    (hp : [Part.test] ⊆ ps) : Leads ps s₀ (s.setTest f) :=
  hs.test hp

@[simp] theorem State.setTest_pending (s : State) (f : TestSt → TestSt) : (s.setTest f).pending = s.pending := rfl
@[simp] theorem State.setTest_outbox (s : State) (f : TestSt → TestSt) : (s.setTest f).outbox = s.outbox := rfl
@[simp] theorem State.setTest_freeCount (s : State) (f : TestSt → TestSt) : (s.setTest f).freeCount = s.freeCount := rfl
@[simp] theorem State.setTest_stepping (s : State) (f : TestSt → TestSt) : (s.setTest f).stepping = s.stepping := rfl
@[simp] theorem State.setTest_order (s : State) (f : TestSt → TestSt) : (s.setTest f).order = s.order := rfl
@[simp] theorem State.setTest_pins (s : State) (f : TestSt → TestSt) : (s.setTest f).pins = s.pins := rfl
@[simp] theorem State.setTest_time (s : State) (f : TestSt → TestSt) : (s.setTest f).time = s.time := rfl
@[simp] theorem State.setTest_regs (s : State) (f : TestSt → TestSt) : (s.setTest f).regs = s.regs := rfl
@[simp] theorem State.setTest_ctr (s : State) (f : TestSt → TestSt) : (s.setTest f).ctr = s.ctr := rfl
@[simp] theorem State.setTest_cores (s : State) (f : TestSt → TestSt) : (s.setTest f).cores = s.cores := rfl
@[simp] theorem State.setTest_places (s : State) (f : TestSt → TestSt) : (s.setTest f).places = s.places := rfl
@[simp] theorem State.setTest_groups (s : State) (f : TestSt → TestSt) : (s.setTest f).groups = s.groups := rfl
@[simp] theorem State.setTest_pages (s : State) (f : TestSt → TestSt) : (s.setTest f).pages = s.pages := rfl
@[simp] theorem State.setTest_mirrors (s : State) (f : TestSt → TestSt) : (s.setTest f).mirrors = s.mirrors := rfl
@[simp] theorem State.setTest_mirrorPages (s : State) (f : TestSt → TestSt) : (s.setTest f).mirrorPages = s.mirrorPages := rfl
@[simp] theorem State.setTest_arenaWait (s : State) (f : TestSt → TestSt) : (s.setTest f).arenaWait = s.arenaWait := rfl
@[simp] theorem State.setTest_poolWait (s : State) (f : TestSt → TestSt) : (s.setTest f).poolWait = s.poolWait := rfl
@[simp] theorem State.setTest_items (s : State) (f : TestSt → TestSt) : (s.setTest f).items = s.items := rfl
@[simp] theorem State.setTest_nextItem (s : State) (f : TestSt → TestSt) : (s.setTest f).nextItem = s.nextItem := rfl
@[simp] theorem State.setTest_gang (s : State) (f : TestSt → TestSt) : (s.setTest f).gang = s.gang := rfl
@[simp] theorem State.setTest_boxes (s : State) (f : TestSt → TestSt) : (s.setTest f).boxes = s.boxes := rfl
@[simp] theorem State.setTest_mem (s : State) (f : TestSt → TestSt) : (s.setTest f).mem = s.mem := rfl
@[simp] theorem State.setTest_memPoison (s : State) (f : TestSt → TestSt) : (s.setTest f).memPoison = s.memPoison := rfl
@[simp] theorem State.setTest_protUnits (s : State) (f : TestSt → TestSt) : (s.setTest f).protUnits = s.protUnits := rfl
@[simp] theorem State.setTest_hbm (s : State) (f : TestSt → TestSt) : (s.setTest f).hbm = s.hbm := rfl
@[simp] theorem State.setTest_dies (s : State) (f : TestSt → TestSt) : (s.setTest f).dies = s.dies := rfl
@[simp] theorem State.setTest_held (s : State) (f : TestSt → TestSt) : (s.setTest f).held = s.held := rfl
@[simp] theorem State.setTest_tier (s : State) (f : TestSt → TestSt) : (s.setTest f).tier = s.tier := rfl
@[simp] theorem State.setTest_cb (s : State) (f : TestSt → TestSt) : (s.setTest f).cb = s.cb := rfl
@[simp] theorem State.setTest_fab (s : State) (f : TestSt → TestSt) : (s.setTest f).fab = s.fab := rfl
@[simp] theorem State.setTest_links (s : State) (f : TestSt → TestSt) : (s.setTest f).links = s.links := rfl
@[simp] theorem State.setTest_host (s : State) (f : TestSt → TestSt) : (s.setTest f).host = s.host := rfl
@[simp] theorem State.setTest_log (s : State) (f : TestSt → TestSt) : (s.setTest f).log = s.log := rfl
@[simp] theorem State.setTest_fw (s : State) (f : TestSt → TestSt) : (s.setTest f).fw = s.fw := rfl
@[simp] theorem State.setTest_sec (s : State) (f : TestSt → TestSt) : (s.setTest f).sec = s.sec := rfl
@[simp] theorem State.setTest_pwr (s : State) (f : TestSt → TestSt) : (s.setTest f).pwr = s.pwr := rfl
@[simp] theorem State.setTest_side (s : State) (f : TestSt → TestSt) : (s.setTest f).side = s.side := rfl

theorem State.setSide_leads {ps : List Part} {s₀ s : State} {f : Sideband → Sideband} (hs : Leads ps s₀ s)
    (hp : [Part.side] ⊆ ps) : Leads ps s₀ (s.setSide f) :=
  hs.side hp

@[simp] theorem State.setSide_pending (s : State) (f : Sideband → Sideband) : (s.setSide f).pending = s.pending := rfl
@[simp] theorem State.setSide_outbox (s : State) (f : Sideband → Sideband) : (s.setSide f).outbox = s.outbox := rfl
@[simp] theorem State.setSide_freeCount (s : State) (f : Sideband → Sideband) : (s.setSide f).freeCount = s.freeCount := rfl
@[simp] theorem State.setSide_stepping (s : State) (f : Sideband → Sideband) : (s.setSide f).stepping = s.stepping := rfl
@[simp] theorem State.setSide_order (s : State) (f : Sideband → Sideband) : (s.setSide f).order = s.order := rfl
@[simp] theorem State.setSide_pins (s : State) (f : Sideband → Sideband) : (s.setSide f).pins = s.pins := rfl
@[simp] theorem State.setSide_time (s : State) (f : Sideband → Sideband) : (s.setSide f).time = s.time := rfl
@[simp] theorem State.setSide_regs (s : State) (f : Sideband → Sideband) : (s.setSide f).regs = s.regs := rfl
@[simp] theorem State.setSide_ctr (s : State) (f : Sideband → Sideband) : (s.setSide f).ctr = s.ctr := rfl
@[simp] theorem State.setSide_cores (s : State) (f : Sideband → Sideband) : (s.setSide f).cores = s.cores := rfl
@[simp] theorem State.setSide_places (s : State) (f : Sideband → Sideband) : (s.setSide f).places = s.places := rfl
@[simp] theorem State.setSide_groups (s : State) (f : Sideband → Sideband) : (s.setSide f).groups = s.groups := rfl
@[simp] theorem State.setSide_pages (s : State) (f : Sideband → Sideband) : (s.setSide f).pages = s.pages := rfl
@[simp] theorem State.setSide_mirrors (s : State) (f : Sideband → Sideband) : (s.setSide f).mirrors = s.mirrors := rfl
@[simp] theorem State.setSide_mirrorPages (s : State) (f : Sideband → Sideband) : (s.setSide f).mirrorPages = s.mirrorPages := rfl
@[simp] theorem State.setSide_arenaWait (s : State) (f : Sideband → Sideband) : (s.setSide f).arenaWait = s.arenaWait := rfl
@[simp] theorem State.setSide_poolWait (s : State) (f : Sideband → Sideband) : (s.setSide f).poolWait = s.poolWait := rfl
@[simp] theorem State.setSide_items (s : State) (f : Sideband → Sideband) : (s.setSide f).items = s.items := rfl
@[simp] theorem State.setSide_nextItem (s : State) (f : Sideband → Sideband) : (s.setSide f).nextItem = s.nextItem := rfl
@[simp] theorem State.setSide_gang (s : State) (f : Sideband → Sideband) : (s.setSide f).gang = s.gang := rfl
@[simp] theorem State.setSide_boxes (s : State) (f : Sideband → Sideband) : (s.setSide f).boxes = s.boxes := rfl
@[simp] theorem State.setSide_mem (s : State) (f : Sideband → Sideband) : (s.setSide f).mem = s.mem := rfl
@[simp] theorem State.setSide_memPoison (s : State) (f : Sideband → Sideband) : (s.setSide f).memPoison = s.memPoison := rfl
@[simp] theorem State.setSide_protUnits (s : State) (f : Sideband → Sideband) : (s.setSide f).protUnits = s.protUnits := rfl
@[simp] theorem State.setSide_hbm (s : State) (f : Sideband → Sideband) : (s.setSide f).hbm = s.hbm := rfl
@[simp] theorem State.setSide_dies (s : State) (f : Sideband → Sideband) : (s.setSide f).dies = s.dies := rfl
@[simp] theorem State.setSide_held (s : State) (f : Sideband → Sideband) : (s.setSide f).held = s.held := rfl
@[simp] theorem State.setSide_tier (s : State) (f : Sideband → Sideband) : (s.setSide f).tier = s.tier := rfl
@[simp] theorem State.setSide_cb (s : State) (f : Sideband → Sideband) : (s.setSide f).cb = s.cb := rfl
@[simp] theorem State.setSide_fab (s : State) (f : Sideband → Sideband) : (s.setSide f).fab = s.fab := rfl
@[simp] theorem State.setSide_links (s : State) (f : Sideband → Sideband) : (s.setSide f).links = s.links := rfl
@[simp] theorem State.setSide_host (s : State) (f : Sideband → Sideband) : (s.setSide f).host = s.host := rfl
@[simp] theorem State.setSide_log (s : State) (f : Sideband → Sideband) : (s.setSide f).log = s.log := rfl
@[simp] theorem State.setSide_fw (s : State) (f : Sideband → Sideband) : (s.setSide f).fw = s.fw := rfl
@[simp] theorem State.setSide_sec (s : State) (f : Sideband → Sideband) : (s.setSide f).sec = s.sec := rfl
@[simp] theorem State.setSide_pwr (s : State) (f : Sideband → Sideband) : (s.setSide f).pwr = s.pwr := rfl
@[simp] theorem State.setSide_test (s : State) (f : Sideband → Sideband) : (s.setSide f).test = s.test := rfl

theorem State.modBox_leads {ps : List Part} {s₀ s : State} {n : Nat} {f : BoxSt → BoxSt} (hs : Leads ps s₀ s)
    (hp : [Part.boxes] ⊆ ps) : Leads ps s₀ (s.modBox n f) :=
  hs.boxes hp (listModify_length _ _ _)

@[simp] theorem State.modBox_pending (s : State) (n : Nat) (f : BoxSt → BoxSt) : (s.modBox n f).pending = s.pending := rfl
@[simp] theorem State.modBox_outbox (s : State) (n : Nat) (f : BoxSt → BoxSt) : (s.modBox n f).outbox = s.outbox := rfl
@[simp] theorem State.modBox_freeCount (s : State) (n : Nat) (f : BoxSt → BoxSt) : (s.modBox n f).freeCount = s.freeCount := rfl
@[simp] theorem State.modBox_stepping (s : State) (n : Nat) (f : BoxSt → BoxSt) : (s.modBox n f).stepping = s.stepping := rfl
@[simp] theorem State.modBox_order (s : State) (n : Nat) (f : BoxSt → BoxSt) : (s.modBox n f).order = s.order := rfl
@[simp] theorem State.modBox_pins (s : State) (n : Nat) (f : BoxSt → BoxSt) : (s.modBox n f).pins = s.pins := rfl
@[simp] theorem State.modBox_time (s : State) (n : Nat) (f : BoxSt → BoxSt) : (s.modBox n f).time = s.time := rfl
@[simp] theorem State.modBox_regs (s : State) (n : Nat) (f : BoxSt → BoxSt) : (s.modBox n f).regs = s.regs := rfl
@[simp] theorem State.modBox_ctr (s : State) (n : Nat) (f : BoxSt → BoxSt) : (s.modBox n f).ctr = s.ctr := rfl
@[simp] theorem State.modBox_cores (s : State) (n : Nat) (f : BoxSt → BoxSt) : (s.modBox n f).cores = s.cores := rfl
@[simp] theorem State.modBox_places (s : State) (n : Nat) (f : BoxSt → BoxSt) : (s.modBox n f).places = s.places := rfl
@[simp] theorem State.modBox_groups (s : State) (n : Nat) (f : BoxSt → BoxSt) : (s.modBox n f).groups = s.groups := rfl
@[simp] theorem State.modBox_pages (s : State) (n : Nat) (f : BoxSt → BoxSt) : (s.modBox n f).pages = s.pages := rfl
@[simp] theorem State.modBox_mirrors (s : State) (n : Nat) (f : BoxSt → BoxSt) : (s.modBox n f).mirrors = s.mirrors := rfl
@[simp] theorem State.modBox_mirrorPages (s : State) (n : Nat) (f : BoxSt → BoxSt) : (s.modBox n f).mirrorPages = s.mirrorPages := rfl
@[simp] theorem State.modBox_arenaWait (s : State) (n : Nat) (f : BoxSt → BoxSt) : (s.modBox n f).arenaWait = s.arenaWait := rfl
@[simp] theorem State.modBox_poolWait (s : State) (n : Nat) (f : BoxSt → BoxSt) : (s.modBox n f).poolWait = s.poolWait := rfl
@[simp] theorem State.modBox_items (s : State) (n : Nat) (f : BoxSt → BoxSt) : (s.modBox n f).items = s.items := rfl
@[simp] theorem State.modBox_nextItem (s : State) (n : Nat) (f : BoxSt → BoxSt) : (s.modBox n f).nextItem = s.nextItem := rfl
@[simp] theorem State.modBox_gang (s : State) (n : Nat) (f : BoxSt → BoxSt) : (s.modBox n f).gang = s.gang := rfl
@[simp] theorem State.modBox_mem (s : State) (n : Nat) (f : BoxSt → BoxSt) : (s.modBox n f).mem = s.mem := rfl
@[simp] theorem State.modBox_memPoison (s : State) (n : Nat) (f : BoxSt → BoxSt) : (s.modBox n f).memPoison = s.memPoison := rfl
@[simp] theorem State.modBox_protUnits (s : State) (n : Nat) (f : BoxSt → BoxSt) : (s.modBox n f).protUnits = s.protUnits := rfl
@[simp] theorem State.modBox_hbm (s : State) (n : Nat) (f : BoxSt → BoxSt) : (s.modBox n f).hbm = s.hbm := rfl
@[simp] theorem State.modBox_dies (s : State) (n : Nat) (f : BoxSt → BoxSt) : (s.modBox n f).dies = s.dies := rfl
@[simp] theorem State.modBox_held (s : State) (n : Nat) (f : BoxSt → BoxSt) : (s.modBox n f).held = s.held := rfl
@[simp] theorem State.modBox_tier (s : State) (n : Nat) (f : BoxSt → BoxSt) : (s.modBox n f).tier = s.tier := rfl
@[simp] theorem State.modBox_cb (s : State) (n : Nat) (f : BoxSt → BoxSt) : (s.modBox n f).cb = s.cb := rfl
@[simp] theorem State.modBox_fab (s : State) (n : Nat) (f : BoxSt → BoxSt) : (s.modBox n f).fab = s.fab := rfl
@[simp] theorem State.modBox_links (s : State) (n : Nat) (f : BoxSt → BoxSt) : (s.modBox n f).links = s.links := rfl
@[simp] theorem State.modBox_host (s : State) (n : Nat) (f : BoxSt → BoxSt) : (s.modBox n f).host = s.host := rfl
@[simp] theorem State.modBox_log (s : State) (n : Nat) (f : BoxSt → BoxSt) : (s.modBox n f).log = s.log := rfl
@[simp] theorem State.modBox_fw (s : State) (n : Nat) (f : BoxSt → BoxSt) : (s.modBox n f).fw = s.fw := rfl
@[simp] theorem State.modBox_sec (s : State) (n : Nat) (f : BoxSt → BoxSt) : (s.modBox n f).sec = s.sec := rfl
@[simp] theorem State.modBox_pwr (s : State) (n : Nat) (f : BoxSt → BoxSt) : (s.modBox n f).pwr = s.pwr := rfl
@[simp] theorem State.modBox_test (s : State) (n : Nat) (f : BoxSt → BoxSt) : (s.modBox n f).test = s.test := rfl
@[simp] theorem State.modBox_side (s : State) (n : Nat) (f : BoxSt → BoxSt) : (s.modBox n f).side = s.side := rfl

theorem State.modLink_leads {ps : List Part} {s₀ s : State} {n : Nat} {f : Link → Link} (hs : Leads ps s₀ s)
    (hp : [Part.links] ⊆ ps) : Leads ps s₀ (s.modLink n f) :=
  hs.links hp (listModify_length _ _ _)

@[simp] theorem State.modLink_pending (s : State) (n : Nat) (f : Link → Link) : (s.modLink n f).pending = s.pending := rfl
@[simp] theorem State.modLink_outbox (s : State) (n : Nat) (f : Link → Link) : (s.modLink n f).outbox = s.outbox := rfl
@[simp] theorem State.modLink_freeCount (s : State) (n : Nat) (f : Link → Link) : (s.modLink n f).freeCount = s.freeCount := rfl
@[simp] theorem State.modLink_stepping (s : State) (n : Nat) (f : Link → Link) : (s.modLink n f).stepping = s.stepping := rfl
@[simp] theorem State.modLink_order (s : State) (n : Nat) (f : Link → Link) : (s.modLink n f).order = s.order := rfl
@[simp] theorem State.modLink_pins (s : State) (n : Nat) (f : Link → Link) : (s.modLink n f).pins = s.pins := rfl
@[simp] theorem State.modLink_time (s : State) (n : Nat) (f : Link → Link) : (s.modLink n f).time = s.time := rfl
@[simp] theorem State.modLink_regs (s : State) (n : Nat) (f : Link → Link) : (s.modLink n f).regs = s.regs := rfl
@[simp] theorem State.modLink_ctr (s : State) (n : Nat) (f : Link → Link) : (s.modLink n f).ctr = s.ctr := rfl
@[simp] theorem State.modLink_cores (s : State) (n : Nat) (f : Link → Link) : (s.modLink n f).cores = s.cores := rfl
@[simp] theorem State.modLink_places (s : State) (n : Nat) (f : Link → Link) : (s.modLink n f).places = s.places := rfl
@[simp] theorem State.modLink_groups (s : State) (n : Nat) (f : Link → Link) : (s.modLink n f).groups = s.groups := rfl
@[simp] theorem State.modLink_pages (s : State) (n : Nat) (f : Link → Link) : (s.modLink n f).pages = s.pages := rfl
@[simp] theorem State.modLink_mirrors (s : State) (n : Nat) (f : Link → Link) : (s.modLink n f).mirrors = s.mirrors := rfl
@[simp] theorem State.modLink_mirrorPages (s : State) (n : Nat) (f : Link → Link) : (s.modLink n f).mirrorPages = s.mirrorPages := rfl
@[simp] theorem State.modLink_arenaWait (s : State) (n : Nat) (f : Link → Link) : (s.modLink n f).arenaWait = s.arenaWait := rfl
@[simp] theorem State.modLink_poolWait (s : State) (n : Nat) (f : Link → Link) : (s.modLink n f).poolWait = s.poolWait := rfl
@[simp] theorem State.modLink_items (s : State) (n : Nat) (f : Link → Link) : (s.modLink n f).items = s.items := rfl
@[simp] theorem State.modLink_nextItem (s : State) (n : Nat) (f : Link → Link) : (s.modLink n f).nextItem = s.nextItem := rfl
@[simp] theorem State.modLink_gang (s : State) (n : Nat) (f : Link → Link) : (s.modLink n f).gang = s.gang := rfl
@[simp] theorem State.modLink_boxes (s : State) (n : Nat) (f : Link → Link) : (s.modLink n f).boxes = s.boxes := rfl
@[simp] theorem State.modLink_mem (s : State) (n : Nat) (f : Link → Link) : (s.modLink n f).mem = s.mem := rfl
@[simp] theorem State.modLink_memPoison (s : State) (n : Nat) (f : Link → Link) : (s.modLink n f).memPoison = s.memPoison := rfl
@[simp] theorem State.modLink_protUnits (s : State) (n : Nat) (f : Link → Link) : (s.modLink n f).protUnits = s.protUnits := rfl
@[simp] theorem State.modLink_hbm (s : State) (n : Nat) (f : Link → Link) : (s.modLink n f).hbm = s.hbm := rfl
@[simp] theorem State.modLink_dies (s : State) (n : Nat) (f : Link → Link) : (s.modLink n f).dies = s.dies := rfl
@[simp] theorem State.modLink_held (s : State) (n : Nat) (f : Link → Link) : (s.modLink n f).held = s.held := rfl
@[simp] theorem State.modLink_tier (s : State) (n : Nat) (f : Link → Link) : (s.modLink n f).tier = s.tier := rfl
@[simp] theorem State.modLink_cb (s : State) (n : Nat) (f : Link → Link) : (s.modLink n f).cb = s.cb := rfl
@[simp] theorem State.modLink_fab (s : State) (n : Nat) (f : Link → Link) : (s.modLink n f).fab = s.fab := rfl
@[simp] theorem State.modLink_host (s : State) (n : Nat) (f : Link → Link) : (s.modLink n f).host = s.host := rfl
@[simp] theorem State.modLink_log (s : State) (n : Nat) (f : Link → Link) : (s.modLink n f).log = s.log := rfl
@[simp] theorem State.modLink_fw (s : State) (n : Nat) (f : Link → Link) : (s.modLink n f).fw = s.fw := rfl
@[simp] theorem State.modLink_sec (s : State) (n : Nat) (f : Link → Link) : (s.modLink n f).sec = s.sec := rfl
@[simp] theorem State.modLink_pwr (s : State) (n : Nat) (f : Link → Link) : (s.modLink n f).pwr = s.pwr := rfl
@[simp] theorem State.modLink_test (s : State) (n : Nat) (f : Link → Link) : (s.modLink n f).test = s.test := rfl
@[simp] theorem State.modLink_side (s : State) (n : Nat) (f : Link → Link) : (s.modLink n f).side = s.side := rfl

theorem State.modDie_leads {ps : List Part} {s₀ s : State} {n : Nat} {f : DieMem → DieMem} (hs : Leads ps s₀ s)
    (hp : [Part.dies] ⊆ ps) : Leads ps s₀ (s.modDie n f) :=
  hs.dies hp (listModify_length _ _ _)

@[simp] theorem State.modDie_pending (s : State) (n : Nat) (f : DieMem → DieMem) : (s.modDie n f).pending = s.pending := rfl
@[simp] theorem State.modDie_outbox (s : State) (n : Nat) (f : DieMem → DieMem) : (s.modDie n f).outbox = s.outbox := rfl
@[simp] theorem State.modDie_freeCount (s : State) (n : Nat) (f : DieMem → DieMem) : (s.modDie n f).freeCount = s.freeCount := rfl
@[simp] theorem State.modDie_stepping (s : State) (n : Nat) (f : DieMem → DieMem) : (s.modDie n f).stepping = s.stepping := rfl
@[simp] theorem State.modDie_order (s : State) (n : Nat) (f : DieMem → DieMem) : (s.modDie n f).order = s.order := rfl
@[simp] theorem State.modDie_pins (s : State) (n : Nat) (f : DieMem → DieMem) : (s.modDie n f).pins = s.pins := rfl
@[simp] theorem State.modDie_time (s : State) (n : Nat) (f : DieMem → DieMem) : (s.modDie n f).time = s.time := rfl
@[simp] theorem State.modDie_regs (s : State) (n : Nat) (f : DieMem → DieMem) : (s.modDie n f).regs = s.regs := rfl
@[simp] theorem State.modDie_ctr (s : State) (n : Nat) (f : DieMem → DieMem) : (s.modDie n f).ctr = s.ctr := rfl
@[simp] theorem State.modDie_cores (s : State) (n : Nat) (f : DieMem → DieMem) : (s.modDie n f).cores = s.cores := rfl
@[simp] theorem State.modDie_places (s : State) (n : Nat) (f : DieMem → DieMem) : (s.modDie n f).places = s.places := rfl
@[simp] theorem State.modDie_groups (s : State) (n : Nat) (f : DieMem → DieMem) : (s.modDie n f).groups = s.groups := rfl
@[simp] theorem State.modDie_pages (s : State) (n : Nat) (f : DieMem → DieMem) : (s.modDie n f).pages = s.pages := rfl
@[simp] theorem State.modDie_mirrors (s : State) (n : Nat) (f : DieMem → DieMem) : (s.modDie n f).mirrors = s.mirrors := rfl
@[simp] theorem State.modDie_mirrorPages (s : State) (n : Nat) (f : DieMem → DieMem) : (s.modDie n f).mirrorPages = s.mirrorPages := rfl
@[simp] theorem State.modDie_arenaWait (s : State) (n : Nat) (f : DieMem → DieMem) : (s.modDie n f).arenaWait = s.arenaWait := rfl
@[simp] theorem State.modDie_poolWait (s : State) (n : Nat) (f : DieMem → DieMem) : (s.modDie n f).poolWait = s.poolWait := rfl
@[simp] theorem State.modDie_items (s : State) (n : Nat) (f : DieMem → DieMem) : (s.modDie n f).items = s.items := rfl
@[simp] theorem State.modDie_nextItem (s : State) (n : Nat) (f : DieMem → DieMem) : (s.modDie n f).nextItem = s.nextItem := rfl
@[simp] theorem State.modDie_gang (s : State) (n : Nat) (f : DieMem → DieMem) : (s.modDie n f).gang = s.gang := rfl
@[simp] theorem State.modDie_boxes (s : State) (n : Nat) (f : DieMem → DieMem) : (s.modDie n f).boxes = s.boxes := rfl
@[simp] theorem State.modDie_mem (s : State) (n : Nat) (f : DieMem → DieMem) : (s.modDie n f).mem = s.mem := rfl
@[simp] theorem State.modDie_memPoison (s : State) (n : Nat) (f : DieMem → DieMem) : (s.modDie n f).memPoison = s.memPoison := rfl
@[simp] theorem State.modDie_protUnits (s : State) (n : Nat) (f : DieMem → DieMem) : (s.modDie n f).protUnits = s.protUnits := rfl
@[simp] theorem State.modDie_hbm (s : State) (n : Nat) (f : DieMem → DieMem) : (s.modDie n f).hbm = s.hbm := rfl
@[simp] theorem State.modDie_held (s : State) (n : Nat) (f : DieMem → DieMem) : (s.modDie n f).held = s.held := rfl
@[simp] theorem State.modDie_tier (s : State) (n : Nat) (f : DieMem → DieMem) : (s.modDie n f).tier = s.tier := rfl
@[simp] theorem State.modDie_cb (s : State) (n : Nat) (f : DieMem → DieMem) : (s.modDie n f).cb = s.cb := rfl
@[simp] theorem State.modDie_fab (s : State) (n : Nat) (f : DieMem → DieMem) : (s.modDie n f).fab = s.fab := rfl
@[simp] theorem State.modDie_links (s : State) (n : Nat) (f : DieMem → DieMem) : (s.modDie n f).links = s.links := rfl
@[simp] theorem State.modDie_host (s : State) (n : Nat) (f : DieMem → DieMem) : (s.modDie n f).host = s.host := rfl
@[simp] theorem State.modDie_log (s : State) (n : Nat) (f : DieMem → DieMem) : (s.modDie n f).log = s.log := rfl
@[simp] theorem State.modDie_fw (s : State) (n : Nat) (f : DieMem → DieMem) : (s.modDie n f).fw = s.fw := rfl
@[simp] theorem State.modDie_sec (s : State) (n : Nat) (f : DieMem → DieMem) : (s.modDie n f).sec = s.sec := rfl
@[simp] theorem State.modDie_pwr (s : State) (n : Nat) (f : DieMem → DieMem) : (s.modDie n f).pwr = s.pwr := rfl
@[simp] theorem State.modDie_test (s : State) (n : Nat) (f : DieMem → DieMem) : (s.modDie n f).test = s.test := rfl
@[simp] theorem State.modDie_side (s : State) (n : Nat) (f : DieMem → DieMem) : (s.modDie n f).side = s.side := rfl

theorem State.modStack_leads {ps : List Part} {s₀ s : State} {n : Nat} {f : Stack → Stack} (hs : Leads ps s₀ s)
    (hp : [Part.hbm] ⊆ ps) : Leads ps s₀ (s.modStack n f) :=
  hs.hbm hp (listModify_length _ _ _)

@[simp] theorem State.modStack_pending (s : State) (n : Nat) (f : Stack → Stack) : (s.modStack n f).pending = s.pending := rfl
@[simp] theorem State.modStack_outbox (s : State) (n : Nat) (f : Stack → Stack) : (s.modStack n f).outbox = s.outbox := rfl
@[simp] theorem State.modStack_freeCount (s : State) (n : Nat) (f : Stack → Stack) : (s.modStack n f).freeCount = s.freeCount := rfl
@[simp] theorem State.modStack_stepping (s : State) (n : Nat) (f : Stack → Stack) : (s.modStack n f).stepping = s.stepping := rfl
@[simp] theorem State.modStack_order (s : State) (n : Nat) (f : Stack → Stack) : (s.modStack n f).order = s.order := rfl
@[simp] theorem State.modStack_pins (s : State) (n : Nat) (f : Stack → Stack) : (s.modStack n f).pins = s.pins := rfl
@[simp] theorem State.modStack_time (s : State) (n : Nat) (f : Stack → Stack) : (s.modStack n f).time = s.time := rfl
@[simp] theorem State.modStack_regs (s : State) (n : Nat) (f : Stack → Stack) : (s.modStack n f).regs = s.regs := rfl
@[simp] theorem State.modStack_ctr (s : State) (n : Nat) (f : Stack → Stack) : (s.modStack n f).ctr = s.ctr := rfl
@[simp] theorem State.modStack_cores (s : State) (n : Nat) (f : Stack → Stack) : (s.modStack n f).cores = s.cores := rfl
@[simp] theorem State.modStack_places (s : State) (n : Nat) (f : Stack → Stack) : (s.modStack n f).places = s.places := rfl
@[simp] theorem State.modStack_groups (s : State) (n : Nat) (f : Stack → Stack) : (s.modStack n f).groups = s.groups := rfl
@[simp] theorem State.modStack_pages (s : State) (n : Nat) (f : Stack → Stack) : (s.modStack n f).pages = s.pages := rfl
@[simp] theorem State.modStack_mirrors (s : State) (n : Nat) (f : Stack → Stack) : (s.modStack n f).mirrors = s.mirrors := rfl
@[simp] theorem State.modStack_mirrorPages (s : State) (n : Nat) (f : Stack → Stack) : (s.modStack n f).mirrorPages = s.mirrorPages := rfl
@[simp] theorem State.modStack_arenaWait (s : State) (n : Nat) (f : Stack → Stack) : (s.modStack n f).arenaWait = s.arenaWait := rfl
@[simp] theorem State.modStack_poolWait (s : State) (n : Nat) (f : Stack → Stack) : (s.modStack n f).poolWait = s.poolWait := rfl
@[simp] theorem State.modStack_items (s : State) (n : Nat) (f : Stack → Stack) : (s.modStack n f).items = s.items := rfl
@[simp] theorem State.modStack_nextItem (s : State) (n : Nat) (f : Stack → Stack) : (s.modStack n f).nextItem = s.nextItem := rfl
@[simp] theorem State.modStack_gang (s : State) (n : Nat) (f : Stack → Stack) : (s.modStack n f).gang = s.gang := rfl
@[simp] theorem State.modStack_boxes (s : State) (n : Nat) (f : Stack → Stack) : (s.modStack n f).boxes = s.boxes := rfl
@[simp] theorem State.modStack_mem (s : State) (n : Nat) (f : Stack → Stack) : (s.modStack n f).mem = s.mem := rfl
@[simp] theorem State.modStack_memPoison (s : State) (n : Nat) (f : Stack → Stack) : (s.modStack n f).memPoison = s.memPoison := rfl
@[simp] theorem State.modStack_protUnits (s : State) (n : Nat) (f : Stack → Stack) : (s.modStack n f).protUnits = s.protUnits := rfl
@[simp] theorem State.modStack_dies (s : State) (n : Nat) (f : Stack → Stack) : (s.modStack n f).dies = s.dies := rfl
@[simp] theorem State.modStack_held (s : State) (n : Nat) (f : Stack → Stack) : (s.modStack n f).held = s.held := rfl
@[simp] theorem State.modStack_tier (s : State) (n : Nat) (f : Stack → Stack) : (s.modStack n f).tier = s.tier := rfl
@[simp] theorem State.modStack_cb (s : State) (n : Nat) (f : Stack → Stack) : (s.modStack n f).cb = s.cb := rfl
@[simp] theorem State.modStack_fab (s : State) (n : Nat) (f : Stack → Stack) : (s.modStack n f).fab = s.fab := rfl
@[simp] theorem State.modStack_links (s : State) (n : Nat) (f : Stack → Stack) : (s.modStack n f).links = s.links := rfl
@[simp] theorem State.modStack_host (s : State) (n : Nat) (f : Stack → Stack) : (s.modStack n f).host = s.host := rfl
@[simp] theorem State.modStack_log (s : State) (n : Nat) (f : Stack → Stack) : (s.modStack n f).log = s.log := rfl
@[simp] theorem State.modStack_fw (s : State) (n : Nat) (f : Stack → Stack) : (s.modStack n f).fw = s.fw := rfl
@[simp] theorem State.modStack_sec (s : State) (n : Nat) (f : Stack → Stack) : (s.modStack n f).sec = s.sec := rfl
@[simp] theorem State.modStack_pwr (s : State) (n : Nat) (f : Stack → Stack) : (s.modStack n f).pwr = s.pwr := rfl
@[simp] theorem State.modStack_test (s : State) (n : Nat) (f : Stack → Stack) : (s.modStack n f).test = s.test := rfl
@[simp] theorem State.modStack_side (s : State) (n : Nat) (f : Stack → Stack) : (s.modStack n f).side = s.side := rfl

theorem State.modSlot_leads {ps : List Part} {s₀ s : State} {n : Nat} {f : CbSlot → CbSlot} (hs : Leads ps s₀ s)
    (hp : [Part.cb] ⊆ ps) : Leads ps s₀ (s.modSlot n f) :=
  hs.cb hp (listModify_length _ _ _)

@[simp] theorem State.modSlot_pending (s : State) (n : Nat) (f : CbSlot → CbSlot) : (s.modSlot n f).pending = s.pending := rfl
@[simp] theorem State.modSlot_outbox (s : State) (n : Nat) (f : CbSlot → CbSlot) : (s.modSlot n f).outbox = s.outbox := rfl
@[simp] theorem State.modSlot_freeCount (s : State) (n : Nat) (f : CbSlot → CbSlot) : (s.modSlot n f).freeCount = s.freeCount := rfl
@[simp] theorem State.modSlot_stepping (s : State) (n : Nat) (f : CbSlot → CbSlot) : (s.modSlot n f).stepping = s.stepping := rfl
@[simp] theorem State.modSlot_order (s : State) (n : Nat) (f : CbSlot → CbSlot) : (s.modSlot n f).order = s.order := rfl
@[simp] theorem State.modSlot_pins (s : State) (n : Nat) (f : CbSlot → CbSlot) : (s.modSlot n f).pins = s.pins := rfl
@[simp] theorem State.modSlot_time (s : State) (n : Nat) (f : CbSlot → CbSlot) : (s.modSlot n f).time = s.time := rfl
@[simp] theorem State.modSlot_regs (s : State) (n : Nat) (f : CbSlot → CbSlot) : (s.modSlot n f).regs = s.regs := rfl
@[simp] theorem State.modSlot_ctr (s : State) (n : Nat) (f : CbSlot → CbSlot) : (s.modSlot n f).ctr = s.ctr := rfl
@[simp] theorem State.modSlot_cores (s : State) (n : Nat) (f : CbSlot → CbSlot) : (s.modSlot n f).cores = s.cores := rfl
@[simp] theorem State.modSlot_places (s : State) (n : Nat) (f : CbSlot → CbSlot) : (s.modSlot n f).places = s.places := rfl
@[simp] theorem State.modSlot_groups (s : State) (n : Nat) (f : CbSlot → CbSlot) : (s.modSlot n f).groups = s.groups := rfl
@[simp] theorem State.modSlot_pages (s : State) (n : Nat) (f : CbSlot → CbSlot) : (s.modSlot n f).pages = s.pages := rfl
@[simp] theorem State.modSlot_mirrors (s : State) (n : Nat) (f : CbSlot → CbSlot) : (s.modSlot n f).mirrors = s.mirrors := rfl
@[simp] theorem State.modSlot_mirrorPages (s : State) (n : Nat) (f : CbSlot → CbSlot) : (s.modSlot n f).mirrorPages = s.mirrorPages := rfl
@[simp] theorem State.modSlot_arenaWait (s : State) (n : Nat) (f : CbSlot → CbSlot) : (s.modSlot n f).arenaWait = s.arenaWait := rfl
@[simp] theorem State.modSlot_poolWait (s : State) (n : Nat) (f : CbSlot → CbSlot) : (s.modSlot n f).poolWait = s.poolWait := rfl
@[simp] theorem State.modSlot_items (s : State) (n : Nat) (f : CbSlot → CbSlot) : (s.modSlot n f).items = s.items := rfl
@[simp] theorem State.modSlot_nextItem (s : State) (n : Nat) (f : CbSlot → CbSlot) : (s.modSlot n f).nextItem = s.nextItem := rfl
@[simp] theorem State.modSlot_gang (s : State) (n : Nat) (f : CbSlot → CbSlot) : (s.modSlot n f).gang = s.gang := rfl
@[simp] theorem State.modSlot_boxes (s : State) (n : Nat) (f : CbSlot → CbSlot) : (s.modSlot n f).boxes = s.boxes := rfl
@[simp] theorem State.modSlot_mem (s : State) (n : Nat) (f : CbSlot → CbSlot) : (s.modSlot n f).mem = s.mem := rfl
@[simp] theorem State.modSlot_memPoison (s : State) (n : Nat) (f : CbSlot → CbSlot) : (s.modSlot n f).memPoison = s.memPoison := rfl
@[simp] theorem State.modSlot_protUnits (s : State) (n : Nat) (f : CbSlot → CbSlot) : (s.modSlot n f).protUnits = s.protUnits := rfl
@[simp] theorem State.modSlot_hbm (s : State) (n : Nat) (f : CbSlot → CbSlot) : (s.modSlot n f).hbm = s.hbm := rfl
@[simp] theorem State.modSlot_dies (s : State) (n : Nat) (f : CbSlot → CbSlot) : (s.modSlot n f).dies = s.dies := rfl
@[simp] theorem State.modSlot_held (s : State) (n : Nat) (f : CbSlot → CbSlot) : (s.modSlot n f).held = s.held := rfl
@[simp] theorem State.modSlot_tier (s : State) (n : Nat) (f : CbSlot → CbSlot) : (s.modSlot n f).tier = s.tier := rfl
@[simp] theorem State.modSlot_fab (s : State) (n : Nat) (f : CbSlot → CbSlot) : (s.modSlot n f).fab = s.fab := rfl
@[simp] theorem State.modSlot_links (s : State) (n : Nat) (f : CbSlot → CbSlot) : (s.modSlot n f).links = s.links := rfl
@[simp] theorem State.modSlot_host (s : State) (n : Nat) (f : CbSlot → CbSlot) : (s.modSlot n f).host = s.host := rfl
@[simp] theorem State.modSlot_log (s : State) (n : Nat) (f : CbSlot → CbSlot) : (s.modSlot n f).log = s.log := rfl
@[simp] theorem State.modSlot_fw (s : State) (n : Nat) (f : CbSlot → CbSlot) : (s.modSlot n f).fw = s.fw := rfl
@[simp] theorem State.modSlot_sec (s : State) (n : Nat) (f : CbSlot → CbSlot) : (s.modSlot n f).sec = s.sec := rfl
@[simp] theorem State.modSlot_pwr (s : State) (n : Nat) (f : CbSlot → CbSlot) : (s.modSlot n f).pwr = s.pwr := rfl
@[simp] theorem State.modSlot_test (s : State) (n : Nat) (f : CbSlot → CbSlot) : (s.modSlot n f).test = s.test := rfl
@[simp] theorem State.modSlot_side (s : State) (n : Nat) (f : CbSlot → CbSlot) : (s.modSlot n f).side = s.side := rfl

theorem State.modComp_leads {ps : List Part} {s₀ s : State} {n : Nat} {f : Comp → Comp} (hs : Leads ps s₀ s)
    (hp : [Part.fw] ⊆ ps) : Leads ps s₀ (s.modComp n f) :=
  hs.fw hp (listModify_length _ _ _)

@[simp] theorem State.modComp_pending (s : State) (n : Nat) (f : Comp → Comp) : (s.modComp n f).pending = s.pending := rfl
@[simp] theorem State.modComp_outbox (s : State) (n : Nat) (f : Comp → Comp) : (s.modComp n f).outbox = s.outbox := rfl
@[simp] theorem State.modComp_freeCount (s : State) (n : Nat) (f : Comp → Comp) : (s.modComp n f).freeCount = s.freeCount := rfl
@[simp] theorem State.modComp_stepping (s : State) (n : Nat) (f : Comp → Comp) : (s.modComp n f).stepping = s.stepping := rfl
@[simp] theorem State.modComp_order (s : State) (n : Nat) (f : Comp → Comp) : (s.modComp n f).order = s.order := rfl
@[simp] theorem State.modComp_pins (s : State) (n : Nat) (f : Comp → Comp) : (s.modComp n f).pins = s.pins := rfl
@[simp] theorem State.modComp_time (s : State) (n : Nat) (f : Comp → Comp) : (s.modComp n f).time = s.time := rfl
@[simp] theorem State.modComp_regs (s : State) (n : Nat) (f : Comp → Comp) : (s.modComp n f).regs = s.regs := rfl
@[simp] theorem State.modComp_ctr (s : State) (n : Nat) (f : Comp → Comp) : (s.modComp n f).ctr = s.ctr := rfl
@[simp] theorem State.modComp_cores (s : State) (n : Nat) (f : Comp → Comp) : (s.modComp n f).cores = s.cores := rfl
@[simp] theorem State.modComp_places (s : State) (n : Nat) (f : Comp → Comp) : (s.modComp n f).places = s.places := rfl
@[simp] theorem State.modComp_groups (s : State) (n : Nat) (f : Comp → Comp) : (s.modComp n f).groups = s.groups := rfl
@[simp] theorem State.modComp_pages (s : State) (n : Nat) (f : Comp → Comp) : (s.modComp n f).pages = s.pages := rfl
@[simp] theorem State.modComp_mirrors (s : State) (n : Nat) (f : Comp → Comp) : (s.modComp n f).mirrors = s.mirrors := rfl
@[simp] theorem State.modComp_mirrorPages (s : State) (n : Nat) (f : Comp → Comp) : (s.modComp n f).mirrorPages = s.mirrorPages := rfl
@[simp] theorem State.modComp_arenaWait (s : State) (n : Nat) (f : Comp → Comp) : (s.modComp n f).arenaWait = s.arenaWait := rfl
@[simp] theorem State.modComp_poolWait (s : State) (n : Nat) (f : Comp → Comp) : (s.modComp n f).poolWait = s.poolWait := rfl
@[simp] theorem State.modComp_items (s : State) (n : Nat) (f : Comp → Comp) : (s.modComp n f).items = s.items := rfl
@[simp] theorem State.modComp_nextItem (s : State) (n : Nat) (f : Comp → Comp) : (s.modComp n f).nextItem = s.nextItem := rfl
@[simp] theorem State.modComp_gang (s : State) (n : Nat) (f : Comp → Comp) : (s.modComp n f).gang = s.gang := rfl
@[simp] theorem State.modComp_boxes (s : State) (n : Nat) (f : Comp → Comp) : (s.modComp n f).boxes = s.boxes := rfl
@[simp] theorem State.modComp_mem (s : State) (n : Nat) (f : Comp → Comp) : (s.modComp n f).mem = s.mem := rfl
@[simp] theorem State.modComp_memPoison (s : State) (n : Nat) (f : Comp → Comp) : (s.modComp n f).memPoison = s.memPoison := rfl
@[simp] theorem State.modComp_protUnits (s : State) (n : Nat) (f : Comp → Comp) : (s.modComp n f).protUnits = s.protUnits := rfl
@[simp] theorem State.modComp_hbm (s : State) (n : Nat) (f : Comp → Comp) : (s.modComp n f).hbm = s.hbm := rfl
@[simp] theorem State.modComp_dies (s : State) (n : Nat) (f : Comp → Comp) : (s.modComp n f).dies = s.dies := rfl
@[simp] theorem State.modComp_held (s : State) (n : Nat) (f : Comp → Comp) : (s.modComp n f).held = s.held := rfl
@[simp] theorem State.modComp_tier (s : State) (n : Nat) (f : Comp → Comp) : (s.modComp n f).tier = s.tier := rfl
@[simp] theorem State.modComp_cb (s : State) (n : Nat) (f : Comp → Comp) : (s.modComp n f).cb = s.cb := rfl
@[simp] theorem State.modComp_fab (s : State) (n : Nat) (f : Comp → Comp) : (s.modComp n f).fab = s.fab := rfl
@[simp] theorem State.modComp_links (s : State) (n : Nat) (f : Comp → Comp) : (s.modComp n f).links = s.links := rfl
@[simp] theorem State.modComp_host (s : State) (n : Nat) (f : Comp → Comp) : (s.modComp n f).host = s.host := rfl
@[simp] theorem State.modComp_log (s : State) (n : Nat) (f : Comp → Comp) : (s.modComp n f).log = s.log := rfl
@[simp] theorem State.modComp_sec (s : State) (n : Nat) (f : Comp → Comp) : (s.modComp n f).sec = s.sec := rfl
@[simp] theorem State.modComp_pwr (s : State) (n : Nat) (f : Comp → Comp) : (s.modComp n f).pwr = s.pwr := rfl
@[simp] theorem State.modComp_test (s : State) (n : Nat) (f : Comp → Comp) : (s.modComp n f).test = s.test := rfl
@[simp] theorem State.modComp_side (s : State) (n : Nat) (f : Comp → Comp) : (s.modComp n f).side = s.side := rfl

theorem State.modRail_leads {ps : List Part} {s₀ s : State} {n : Nat} {f : RailSt → RailSt} (hs : Leads ps s₀ s)
    (hp : [Part.pwr] ⊆ ps) : Leads ps s₀ (s.modRail n f) :=
  hs.pwr hp (listModify_length _ _ _)

@[simp] theorem State.modRail_pending (s : State) (n : Nat) (f : RailSt → RailSt) : (s.modRail n f).pending = s.pending := rfl
@[simp] theorem State.modRail_outbox (s : State) (n : Nat) (f : RailSt → RailSt) : (s.modRail n f).outbox = s.outbox := rfl
@[simp] theorem State.modRail_freeCount (s : State) (n : Nat) (f : RailSt → RailSt) : (s.modRail n f).freeCount = s.freeCount := rfl
@[simp] theorem State.modRail_stepping (s : State) (n : Nat) (f : RailSt → RailSt) : (s.modRail n f).stepping = s.stepping := rfl
@[simp] theorem State.modRail_order (s : State) (n : Nat) (f : RailSt → RailSt) : (s.modRail n f).order = s.order := rfl
@[simp] theorem State.modRail_pins (s : State) (n : Nat) (f : RailSt → RailSt) : (s.modRail n f).pins = s.pins := rfl
@[simp] theorem State.modRail_time (s : State) (n : Nat) (f : RailSt → RailSt) : (s.modRail n f).time = s.time := rfl
@[simp] theorem State.modRail_regs (s : State) (n : Nat) (f : RailSt → RailSt) : (s.modRail n f).regs = s.regs := rfl
@[simp] theorem State.modRail_ctr (s : State) (n : Nat) (f : RailSt → RailSt) : (s.modRail n f).ctr = s.ctr := rfl
@[simp] theorem State.modRail_cores (s : State) (n : Nat) (f : RailSt → RailSt) : (s.modRail n f).cores = s.cores := rfl
@[simp] theorem State.modRail_places (s : State) (n : Nat) (f : RailSt → RailSt) : (s.modRail n f).places = s.places := rfl
@[simp] theorem State.modRail_groups (s : State) (n : Nat) (f : RailSt → RailSt) : (s.modRail n f).groups = s.groups := rfl
@[simp] theorem State.modRail_pages (s : State) (n : Nat) (f : RailSt → RailSt) : (s.modRail n f).pages = s.pages := rfl
@[simp] theorem State.modRail_mirrors (s : State) (n : Nat) (f : RailSt → RailSt) : (s.modRail n f).mirrors = s.mirrors := rfl
@[simp] theorem State.modRail_mirrorPages (s : State) (n : Nat) (f : RailSt → RailSt) : (s.modRail n f).mirrorPages = s.mirrorPages := rfl
@[simp] theorem State.modRail_arenaWait (s : State) (n : Nat) (f : RailSt → RailSt) : (s.modRail n f).arenaWait = s.arenaWait := rfl
@[simp] theorem State.modRail_poolWait (s : State) (n : Nat) (f : RailSt → RailSt) : (s.modRail n f).poolWait = s.poolWait := rfl
@[simp] theorem State.modRail_items (s : State) (n : Nat) (f : RailSt → RailSt) : (s.modRail n f).items = s.items := rfl
@[simp] theorem State.modRail_nextItem (s : State) (n : Nat) (f : RailSt → RailSt) : (s.modRail n f).nextItem = s.nextItem := rfl
@[simp] theorem State.modRail_gang (s : State) (n : Nat) (f : RailSt → RailSt) : (s.modRail n f).gang = s.gang := rfl
@[simp] theorem State.modRail_boxes (s : State) (n : Nat) (f : RailSt → RailSt) : (s.modRail n f).boxes = s.boxes := rfl
@[simp] theorem State.modRail_mem (s : State) (n : Nat) (f : RailSt → RailSt) : (s.modRail n f).mem = s.mem := rfl
@[simp] theorem State.modRail_memPoison (s : State) (n : Nat) (f : RailSt → RailSt) : (s.modRail n f).memPoison = s.memPoison := rfl
@[simp] theorem State.modRail_protUnits (s : State) (n : Nat) (f : RailSt → RailSt) : (s.modRail n f).protUnits = s.protUnits := rfl
@[simp] theorem State.modRail_hbm (s : State) (n : Nat) (f : RailSt → RailSt) : (s.modRail n f).hbm = s.hbm := rfl
@[simp] theorem State.modRail_dies (s : State) (n : Nat) (f : RailSt → RailSt) : (s.modRail n f).dies = s.dies := rfl
@[simp] theorem State.modRail_held (s : State) (n : Nat) (f : RailSt → RailSt) : (s.modRail n f).held = s.held := rfl
@[simp] theorem State.modRail_tier (s : State) (n : Nat) (f : RailSt → RailSt) : (s.modRail n f).tier = s.tier := rfl
@[simp] theorem State.modRail_cb (s : State) (n : Nat) (f : RailSt → RailSt) : (s.modRail n f).cb = s.cb := rfl
@[simp] theorem State.modRail_fab (s : State) (n : Nat) (f : RailSt → RailSt) : (s.modRail n f).fab = s.fab := rfl
@[simp] theorem State.modRail_links (s : State) (n : Nat) (f : RailSt → RailSt) : (s.modRail n f).links = s.links := rfl
@[simp] theorem State.modRail_host (s : State) (n : Nat) (f : RailSt → RailSt) : (s.modRail n f).host = s.host := rfl
@[simp] theorem State.modRail_log (s : State) (n : Nat) (f : RailSt → RailSt) : (s.modRail n f).log = s.log := rfl
@[simp] theorem State.modRail_fw (s : State) (n : Nat) (f : RailSt → RailSt) : (s.modRail n f).fw = s.fw := rfl
@[simp] theorem State.modRail_sec (s : State) (n : Nat) (f : RailSt → RailSt) : (s.modRail n f).sec = s.sec := rfl
@[simp] theorem State.modRail_test (s : State) (n : Nat) (f : RailSt → RailSt) : (s.modRail n f).test = s.test := rfl
@[simp] theorem State.modRail_side (s : State) (n : Nat) (f : RailSt → RailSt) : (s.modRail n f).side = s.side := rfl

theorem State.setPwr_leads {ps : List Part} {s₀ s : State} {f : Power → Power} (hs : Leads ps s₀ s)
    (hp : [Part.pwr] ⊆ ps) (hf : ∀ p, (f p).rails.length = p.rails.length) : Leads ps s₀ (s.setPwr f) :=
  hs.pwr hp (hf _)

@[simp] theorem State.setPwr_pending (s : State) (f : Power → Power) : (s.setPwr f).pending = s.pending := rfl
@[simp] theorem State.setPwr_outbox (s : State) (f : Power → Power) : (s.setPwr f).outbox = s.outbox := rfl
@[simp] theorem State.setPwr_freeCount (s : State) (f : Power → Power) : (s.setPwr f).freeCount = s.freeCount := rfl
@[simp] theorem State.setPwr_stepping (s : State) (f : Power → Power) : (s.setPwr f).stepping = s.stepping := rfl
@[simp] theorem State.setPwr_order (s : State) (f : Power → Power) : (s.setPwr f).order = s.order := rfl
@[simp] theorem State.setPwr_pins (s : State) (f : Power → Power) : (s.setPwr f).pins = s.pins := rfl
@[simp] theorem State.setPwr_time (s : State) (f : Power → Power) : (s.setPwr f).time = s.time := rfl
@[simp] theorem State.setPwr_regs (s : State) (f : Power → Power) : (s.setPwr f).regs = s.regs := rfl
@[simp] theorem State.setPwr_ctr (s : State) (f : Power → Power) : (s.setPwr f).ctr = s.ctr := rfl
@[simp] theorem State.setPwr_cores (s : State) (f : Power → Power) : (s.setPwr f).cores = s.cores := rfl
@[simp] theorem State.setPwr_places (s : State) (f : Power → Power) : (s.setPwr f).places = s.places := rfl
@[simp] theorem State.setPwr_groups (s : State) (f : Power → Power) : (s.setPwr f).groups = s.groups := rfl
@[simp] theorem State.setPwr_pages (s : State) (f : Power → Power) : (s.setPwr f).pages = s.pages := rfl
@[simp] theorem State.setPwr_mirrors (s : State) (f : Power → Power) : (s.setPwr f).mirrors = s.mirrors := rfl
@[simp] theorem State.setPwr_mirrorPages (s : State) (f : Power → Power) : (s.setPwr f).mirrorPages = s.mirrorPages := rfl
@[simp] theorem State.setPwr_arenaWait (s : State) (f : Power → Power) : (s.setPwr f).arenaWait = s.arenaWait := rfl
@[simp] theorem State.setPwr_poolWait (s : State) (f : Power → Power) : (s.setPwr f).poolWait = s.poolWait := rfl
@[simp] theorem State.setPwr_items (s : State) (f : Power → Power) : (s.setPwr f).items = s.items := rfl
@[simp] theorem State.setPwr_nextItem (s : State) (f : Power → Power) : (s.setPwr f).nextItem = s.nextItem := rfl
@[simp] theorem State.setPwr_gang (s : State) (f : Power → Power) : (s.setPwr f).gang = s.gang := rfl
@[simp] theorem State.setPwr_boxes (s : State) (f : Power → Power) : (s.setPwr f).boxes = s.boxes := rfl
@[simp] theorem State.setPwr_mem (s : State) (f : Power → Power) : (s.setPwr f).mem = s.mem := rfl
@[simp] theorem State.setPwr_memPoison (s : State) (f : Power → Power) : (s.setPwr f).memPoison = s.memPoison := rfl
@[simp] theorem State.setPwr_protUnits (s : State) (f : Power → Power) : (s.setPwr f).protUnits = s.protUnits := rfl
@[simp] theorem State.setPwr_hbm (s : State) (f : Power → Power) : (s.setPwr f).hbm = s.hbm := rfl
@[simp] theorem State.setPwr_dies (s : State) (f : Power → Power) : (s.setPwr f).dies = s.dies := rfl
@[simp] theorem State.setPwr_held (s : State) (f : Power → Power) : (s.setPwr f).held = s.held := rfl
@[simp] theorem State.setPwr_tier (s : State) (f : Power → Power) : (s.setPwr f).tier = s.tier := rfl
@[simp] theorem State.setPwr_cb (s : State) (f : Power → Power) : (s.setPwr f).cb = s.cb := rfl
@[simp] theorem State.setPwr_fab (s : State) (f : Power → Power) : (s.setPwr f).fab = s.fab := rfl
@[simp] theorem State.setPwr_links (s : State) (f : Power → Power) : (s.setPwr f).links = s.links := rfl
@[simp] theorem State.setPwr_host (s : State) (f : Power → Power) : (s.setPwr f).host = s.host := rfl
@[simp] theorem State.setPwr_log (s : State) (f : Power → Power) : (s.setPwr f).log = s.log := rfl
@[simp] theorem State.setPwr_fw (s : State) (f : Power → Power) : (s.setPwr f).fw = s.fw := rfl
@[simp] theorem State.setPwr_sec (s : State) (f : Power → Power) : (s.setPwr f).sec = s.sec := rfl
@[simp] theorem State.setPwr_test (s : State) (f : Power → Power) : (s.setPwr f).test = s.test := rfl
@[simp] theorem State.setPwr_side (s : State) (f : Power → Power) : (s.setPwr f).side = s.side := rfl

theorem State.setFw_leads {ps : List Part} {s₀ s : State} {f : Firmware → Firmware} (hs : Leads ps s₀ s)
    (hp : [Part.fw] ⊆ ps) (hf : ∀ p, (f p).comps.length = p.comps.length) : Leads ps s₀ (s.setFw f) :=
  hs.fw hp (hf _)

@[simp] theorem State.setFw_pending (s : State) (f : Firmware → Firmware) : (s.setFw f).pending = s.pending := rfl
@[simp] theorem State.setFw_outbox (s : State) (f : Firmware → Firmware) : (s.setFw f).outbox = s.outbox := rfl
@[simp] theorem State.setFw_freeCount (s : State) (f : Firmware → Firmware) : (s.setFw f).freeCount = s.freeCount := rfl
@[simp] theorem State.setFw_stepping (s : State) (f : Firmware → Firmware) : (s.setFw f).stepping = s.stepping := rfl
@[simp] theorem State.setFw_order (s : State) (f : Firmware → Firmware) : (s.setFw f).order = s.order := rfl
@[simp] theorem State.setFw_pins (s : State) (f : Firmware → Firmware) : (s.setFw f).pins = s.pins := rfl
@[simp] theorem State.setFw_time (s : State) (f : Firmware → Firmware) : (s.setFw f).time = s.time := rfl
@[simp] theorem State.setFw_regs (s : State) (f : Firmware → Firmware) : (s.setFw f).regs = s.regs := rfl
@[simp] theorem State.setFw_ctr (s : State) (f : Firmware → Firmware) : (s.setFw f).ctr = s.ctr := rfl
@[simp] theorem State.setFw_cores (s : State) (f : Firmware → Firmware) : (s.setFw f).cores = s.cores := rfl
@[simp] theorem State.setFw_places (s : State) (f : Firmware → Firmware) : (s.setFw f).places = s.places := rfl
@[simp] theorem State.setFw_groups (s : State) (f : Firmware → Firmware) : (s.setFw f).groups = s.groups := rfl
@[simp] theorem State.setFw_pages (s : State) (f : Firmware → Firmware) : (s.setFw f).pages = s.pages := rfl
@[simp] theorem State.setFw_mirrors (s : State) (f : Firmware → Firmware) : (s.setFw f).mirrors = s.mirrors := rfl
@[simp] theorem State.setFw_mirrorPages (s : State) (f : Firmware → Firmware) : (s.setFw f).mirrorPages = s.mirrorPages := rfl
@[simp] theorem State.setFw_arenaWait (s : State) (f : Firmware → Firmware) : (s.setFw f).arenaWait = s.arenaWait := rfl
@[simp] theorem State.setFw_poolWait (s : State) (f : Firmware → Firmware) : (s.setFw f).poolWait = s.poolWait := rfl
@[simp] theorem State.setFw_items (s : State) (f : Firmware → Firmware) : (s.setFw f).items = s.items := rfl
@[simp] theorem State.setFw_nextItem (s : State) (f : Firmware → Firmware) : (s.setFw f).nextItem = s.nextItem := rfl
@[simp] theorem State.setFw_gang (s : State) (f : Firmware → Firmware) : (s.setFw f).gang = s.gang := rfl
@[simp] theorem State.setFw_boxes (s : State) (f : Firmware → Firmware) : (s.setFw f).boxes = s.boxes := rfl
@[simp] theorem State.setFw_mem (s : State) (f : Firmware → Firmware) : (s.setFw f).mem = s.mem := rfl
@[simp] theorem State.setFw_memPoison (s : State) (f : Firmware → Firmware) : (s.setFw f).memPoison = s.memPoison := rfl
@[simp] theorem State.setFw_protUnits (s : State) (f : Firmware → Firmware) : (s.setFw f).protUnits = s.protUnits := rfl
@[simp] theorem State.setFw_hbm (s : State) (f : Firmware → Firmware) : (s.setFw f).hbm = s.hbm := rfl
@[simp] theorem State.setFw_dies (s : State) (f : Firmware → Firmware) : (s.setFw f).dies = s.dies := rfl
@[simp] theorem State.setFw_held (s : State) (f : Firmware → Firmware) : (s.setFw f).held = s.held := rfl
@[simp] theorem State.setFw_tier (s : State) (f : Firmware → Firmware) : (s.setFw f).tier = s.tier := rfl
@[simp] theorem State.setFw_cb (s : State) (f : Firmware → Firmware) : (s.setFw f).cb = s.cb := rfl
@[simp] theorem State.setFw_fab (s : State) (f : Firmware → Firmware) : (s.setFw f).fab = s.fab := rfl
@[simp] theorem State.setFw_links (s : State) (f : Firmware → Firmware) : (s.setFw f).links = s.links := rfl
@[simp] theorem State.setFw_host (s : State) (f : Firmware → Firmware) : (s.setFw f).host = s.host := rfl
@[simp] theorem State.setFw_log (s : State) (f : Firmware → Firmware) : (s.setFw f).log = s.log := rfl
@[simp] theorem State.setFw_sec (s : State) (f : Firmware → Firmware) : (s.setFw f).sec = s.sec := rfl
@[simp] theorem State.setFw_pwr (s : State) (f : Firmware → Firmware) : (s.setFw f).pwr = s.pwr := rfl
@[simp] theorem State.setFw_test (s : State) (f : Firmware → Firmware) : (s.setFw f).test = s.test := rfl
@[simp] theorem State.setFw_side (s : State) (f : Firmware → Firmware) : (s.setFw f).side = s.side := rfl

theorem State.setTier_leads {ps : List Part} {s₀ s : State} {f : Tier → Tier} (hs : Leads ps s₀ s)
    (hp : [Part.tier] ⊆ ps) (hf : ∀ p, Memory.wf p.flash = true → Memory.wf (f p).flash = true) : Leads ps s₀ (s.setTier f) :=
  hs.tier hp (hf _)

@[simp] theorem State.setTier_pending (s : State) (f : Tier → Tier) : (s.setTier f).pending = s.pending := rfl
@[simp] theorem State.setTier_outbox (s : State) (f : Tier → Tier) : (s.setTier f).outbox = s.outbox := rfl
@[simp] theorem State.setTier_freeCount (s : State) (f : Tier → Tier) : (s.setTier f).freeCount = s.freeCount := rfl
@[simp] theorem State.setTier_stepping (s : State) (f : Tier → Tier) : (s.setTier f).stepping = s.stepping := rfl
@[simp] theorem State.setTier_order (s : State) (f : Tier → Tier) : (s.setTier f).order = s.order := rfl
@[simp] theorem State.setTier_pins (s : State) (f : Tier → Tier) : (s.setTier f).pins = s.pins := rfl
@[simp] theorem State.setTier_time (s : State) (f : Tier → Tier) : (s.setTier f).time = s.time := rfl
@[simp] theorem State.setTier_regs (s : State) (f : Tier → Tier) : (s.setTier f).regs = s.regs := rfl
@[simp] theorem State.setTier_ctr (s : State) (f : Tier → Tier) : (s.setTier f).ctr = s.ctr := rfl
@[simp] theorem State.setTier_cores (s : State) (f : Tier → Tier) : (s.setTier f).cores = s.cores := rfl
@[simp] theorem State.setTier_places (s : State) (f : Tier → Tier) : (s.setTier f).places = s.places := rfl
@[simp] theorem State.setTier_groups (s : State) (f : Tier → Tier) : (s.setTier f).groups = s.groups := rfl
@[simp] theorem State.setTier_pages (s : State) (f : Tier → Tier) : (s.setTier f).pages = s.pages := rfl
@[simp] theorem State.setTier_mirrors (s : State) (f : Tier → Tier) : (s.setTier f).mirrors = s.mirrors := rfl
@[simp] theorem State.setTier_mirrorPages (s : State) (f : Tier → Tier) : (s.setTier f).mirrorPages = s.mirrorPages := rfl
@[simp] theorem State.setTier_arenaWait (s : State) (f : Tier → Tier) : (s.setTier f).arenaWait = s.arenaWait := rfl
@[simp] theorem State.setTier_poolWait (s : State) (f : Tier → Tier) : (s.setTier f).poolWait = s.poolWait := rfl
@[simp] theorem State.setTier_items (s : State) (f : Tier → Tier) : (s.setTier f).items = s.items := rfl
@[simp] theorem State.setTier_nextItem (s : State) (f : Tier → Tier) : (s.setTier f).nextItem = s.nextItem := rfl
@[simp] theorem State.setTier_gang (s : State) (f : Tier → Tier) : (s.setTier f).gang = s.gang := rfl
@[simp] theorem State.setTier_boxes (s : State) (f : Tier → Tier) : (s.setTier f).boxes = s.boxes := rfl
@[simp] theorem State.setTier_mem (s : State) (f : Tier → Tier) : (s.setTier f).mem = s.mem := rfl
@[simp] theorem State.setTier_memPoison (s : State) (f : Tier → Tier) : (s.setTier f).memPoison = s.memPoison := rfl
@[simp] theorem State.setTier_protUnits (s : State) (f : Tier → Tier) : (s.setTier f).protUnits = s.protUnits := rfl
@[simp] theorem State.setTier_hbm (s : State) (f : Tier → Tier) : (s.setTier f).hbm = s.hbm := rfl
@[simp] theorem State.setTier_dies (s : State) (f : Tier → Tier) : (s.setTier f).dies = s.dies := rfl
@[simp] theorem State.setTier_held (s : State) (f : Tier → Tier) : (s.setTier f).held = s.held := rfl
@[simp] theorem State.setTier_cb (s : State) (f : Tier → Tier) : (s.setTier f).cb = s.cb := rfl
@[simp] theorem State.setTier_fab (s : State) (f : Tier → Tier) : (s.setTier f).fab = s.fab := rfl
@[simp] theorem State.setTier_links (s : State) (f : Tier → Tier) : (s.setTier f).links = s.links := rfl
@[simp] theorem State.setTier_host (s : State) (f : Tier → Tier) : (s.setTier f).host = s.host := rfl
@[simp] theorem State.setTier_log (s : State) (f : Tier → Tier) : (s.setTier f).log = s.log := rfl
@[simp] theorem State.setTier_fw (s : State) (f : Tier → Tier) : (s.setTier f).fw = s.fw := rfl
@[simp] theorem State.setTier_sec (s : State) (f : Tier → Tier) : (s.setTier f).sec = s.sec := rfl
@[simp] theorem State.setTier_pwr (s : State) (f : Tier → Tier) : (s.setTier f).pwr = s.pwr := rfl
@[simp] theorem State.setTier_test (s : State) (f : Tier → Tier) : (s.setTier f).test = s.test := rfl
@[simp] theorem State.setTier_side (s : State) (f : Tier → Tier) : (s.setTier f).side = s.side := rfl

theorem State.modGranule_leads {ps : List Part} {s₀ s : State} {g : Nat} {f : Granule → Granule} (hs : Leads ps s₀ s)
    (hp : [Part.tier] ⊆ ps) : Leads ps s₀ (s.modGranule g f) :=
  hs.tier hp id

@[simp] theorem State.modGranule_pending (s : State) (g : Nat) (f : Granule → Granule) : (s.modGranule g f).pending = s.pending := rfl
@[simp] theorem State.modGranule_outbox (s : State) (g : Nat) (f : Granule → Granule) : (s.modGranule g f).outbox = s.outbox := rfl
@[simp] theorem State.modGranule_freeCount (s : State) (g : Nat) (f : Granule → Granule) : (s.modGranule g f).freeCount = s.freeCount := rfl
@[simp] theorem State.modGranule_stepping (s : State) (g : Nat) (f : Granule → Granule) : (s.modGranule g f).stepping = s.stepping := rfl
@[simp] theorem State.modGranule_order (s : State) (g : Nat) (f : Granule → Granule) : (s.modGranule g f).order = s.order := rfl
@[simp] theorem State.modGranule_pins (s : State) (g : Nat) (f : Granule → Granule) : (s.modGranule g f).pins = s.pins := rfl
@[simp] theorem State.modGranule_time (s : State) (g : Nat) (f : Granule → Granule) : (s.modGranule g f).time = s.time := rfl
@[simp] theorem State.modGranule_regs (s : State) (g : Nat) (f : Granule → Granule) : (s.modGranule g f).regs = s.regs := rfl
@[simp] theorem State.modGranule_ctr (s : State) (g : Nat) (f : Granule → Granule) : (s.modGranule g f).ctr = s.ctr := rfl
@[simp] theorem State.modGranule_cores (s : State) (g : Nat) (f : Granule → Granule) : (s.modGranule g f).cores = s.cores := rfl
@[simp] theorem State.modGranule_places (s : State) (g : Nat) (f : Granule → Granule) : (s.modGranule g f).places = s.places := rfl
@[simp] theorem State.modGranule_groups (s : State) (g : Nat) (f : Granule → Granule) : (s.modGranule g f).groups = s.groups := rfl
@[simp] theorem State.modGranule_pages (s : State) (g : Nat) (f : Granule → Granule) : (s.modGranule g f).pages = s.pages := rfl
@[simp] theorem State.modGranule_mirrors (s : State) (g : Nat) (f : Granule → Granule) : (s.modGranule g f).mirrors = s.mirrors := rfl
@[simp] theorem State.modGranule_mirrorPages (s : State) (g : Nat) (f : Granule → Granule) : (s.modGranule g f).mirrorPages = s.mirrorPages := rfl
@[simp] theorem State.modGranule_arenaWait (s : State) (g : Nat) (f : Granule → Granule) : (s.modGranule g f).arenaWait = s.arenaWait := rfl
@[simp] theorem State.modGranule_poolWait (s : State) (g : Nat) (f : Granule → Granule) : (s.modGranule g f).poolWait = s.poolWait := rfl
@[simp] theorem State.modGranule_items (s : State) (g : Nat) (f : Granule → Granule) : (s.modGranule g f).items = s.items := rfl
@[simp] theorem State.modGranule_nextItem (s : State) (g : Nat) (f : Granule → Granule) : (s.modGranule g f).nextItem = s.nextItem := rfl
@[simp] theorem State.modGranule_gang (s : State) (g : Nat) (f : Granule → Granule) : (s.modGranule g f).gang = s.gang := rfl
@[simp] theorem State.modGranule_boxes (s : State) (g : Nat) (f : Granule → Granule) : (s.modGranule g f).boxes = s.boxes := rfl
@[simp] theorem State.modGranule_mem (s : State) (g : Nat) (f : Granule → Granule) : (s.modGranule g f).mem = s.mem := rfl
@[simp] theorem State.modGranule_memPoison (s : State) (g : Nat) (f : Granule → Granule) : (s.modGranule g f).memPoison = s.memPoison := rfl
@[simp] theorem State.modGranule_protUnits (s : State) (g : Nat) (f : Granule → Granule) : (s.modGranule g f).protUnits = s.protUnits := rfl
@[simp] theorem State.modGranule_hbm (s : State) (g : Nat) (f : Granule → Granule) : (s.modGranule g f).hbm = s.hbm := rfl
@[simp] theorem State.modGranule_dies (s : State) (g : Nat) (f : Granule → Granule) : (s.modGranule g f).dies = s.dies := rfl
@[simp] theorem State.modGranule_held (s : State) (g : Nat) (f : Granule → Granule) : (s.modGranule g f).held = s.held := rfl
@[simp] theorem State.modGranule_cb (s : State) (g : Nat) (f : Granule → Granule) : (s.modGranule g f).cb = s.cb := rfl
@[simp] theorem State.modGranule_fab (s : State) (g : Nat) (f : Granule → Granule) : (s.modGranule g f).fab = s.fab := rfl
@[simp] theorem State.modGranule_links (s : State) (g : Nat) (f : Granule → Granule) : (s.modGranule g f).links = s.links := rfl
@[simp] theorem State.modGranule_host (s : State) (g : Nat) (f : Granule → Granule) : (s.modGranule g f).host = s.host := rfl
@[simp] theorem State.modGranule_log (s : State) (g : Nat) (f : Granule → Granule) : (s.modGranule g f).log = s.log := rfl
@[simp] theorem State.modGranule_fw (s : State) (g : Nat) (f : Granule → Granule) : (s.modGranule g f).fw = s.fw := rfl
@[simp] theorem State.modGranule_sec (s : State) (g : Nat) (f : Granule → Granule) : (s.modGranule g f).sec = s.sec := rfl
@[simp] theorem State.modGranule_pwr (s : State) (g : Nat) (f : Granule → Granule) : (s.modGranule g f).pwr = s.pwr := rfl
@[simp] theorem State.modGranule_test (s : State) (g : Nat) (f : Granule → Granule) : (s.modGranule g f).test = s.test := rfl
@[simp] theorem State.modGranule_side (s : State) (g : Nat) (f : Granule → Granule) : (s.modGranule g f).side = s.side := rfl

theorem State.draw_leads {ps : List Part} {s₀ s : State} (hs : Leads ps s₀ s) (hp : [Part.freeCount] ⊆ ps) :
    Leads ps s₀ s.draw.2 :=
  hs.freeCount hp

theorem State.bump_leads {ps : List Part} {s₀ s : State} {p : Pg} {i n k : Nat} (hs : Leads ps s₀ s)
    (hp : [Part.ctr] ⊆ ps) : Leads ps s₀ (s.bump p i n k) := by
  unfold State.bump
  split
  · exact hs
  · exact hs.ctr hp

theorem State.peak_leads {ps : List Part} {s₀ s : State} {p : Pg} {i n v : Nat} (hs : Leads ps s₀ s)
    (hp : [Part.ctr] ⊆ ps) : Leads ps s₀ (s.peak p i n v) := by
  unfold State.peak
  split
  · exact hs
  · exact hs.ctr hp

@[simp] theorem State.bump_pending (s : State) (p : Pg) (i n k : Nat) : (s.bump p i n k).pending = s.pending := by
  unfold State.bump; split <;> rfl
@[simp] theorem State.bump_outbox (s : State) (p : Pg) (i n k : Nat) : (s.bump p i n k).outbox = s.outbox := by
  unfold State.bump; split <;> rfl
@[simp] theorem State.bump_freeCount (s : State) (p : Pg) (i n k : Nat) : (s.bump p i n k).freeCount = s.freeCount := by
  unfold State.bump; split <;> rfl
@[simp] theorem State.bump_stepping (s : State) (p : Pg) (i n k : Nat) : (s.bump p i n k).stepping = s.stepping := by
  unfold State.bump; split <;> rfl
@[simp] theorem State.bump_order (s : State) (p : Pg) (i n k : Nat) : (s.bump p i n k).order = s.order := by
  unfold State.bump; split <;> rfl
@[simp] theorem State.bump_pins (s : State) (p : Pg) (i n k : Nat) : (s.bump p i n k).pins = s.pins := by
  unfold State.bump; split <;> rfl
@[simp] theorem State.bump_time (s : State) (p : Pg) (i n k : Nat) : (s.bump p i n k).time = s.time := by
  unfold State.bump; split <;> rfl
@[simp] theorem State.bump_regs (s : State) (p : Pg) (i n k : Nat) : (s.bump p i n k).regs = s.regs := by
  unfold State.bump; split <;> rfl
@[simp] theorem State.bump_cores (s : State) (p : Pg) (i n k : Nat) : (s.bump p i n k).cores = s.cores := by
  unfold State.bump; split <;> rfl
@[simp] theorem State.bump_places (s : State) (p : Pg) (i n k : Nat) : (s.bump p i n k).places = s.places := by
  unfold State.bump; split <;> rfl
@[simp] theorem State.bump_groups (s : State) (p : Pg) (i n k : Nat) : (s.bump p i n k).groups = s.groups := by
  unfold State.bump; split <;> rfl
@[simp] theorem State.bump_pages (s : State) (p : Pg) (i n k : Nat) : (s.bump p i n k).pages = s.pages := by
  unfold State.bump; split <;> rfl
@[simp] theorem State.bump_mirrors (s : State) (p : Pg) (i n k : Nat) : (s.bump p i n k).mirrors = s.mirrors := by
  unfold State.bump; split <;> rfl
@[simp] theorem State.bump_mirrorPages (s : State) (p : Pg) (i n k : Nat) : (s.bump p i n k).mirrorPages = s.mirrorPages := by
  unfold State.bump; split <;> rfl
@[simp] theorem State.bump_arenaWait (s : State) (p : Pg) (i n k : Nat) : (s.bump p i n k).arenaWait = s.arenaWait := by
  unfold State.bump; split <;> rfl
@[simp] theorem State.bump_poolWait (s : State) (p : Pg) (i n k : Nat) : (s.bump p i n k).poolWait = s.poolWait := by
  unfold State.bump; split <;> rfl
@[simp] theorem State.bump_items (s : State) (p : Pg) (i n k : Nat) : (s.bump p i n k).items = s.items := by
  unfold State.bump; split <;> rfl
@[simp] theorem State.bump_nextItem (s : State) (p : Pg) (i n k : Nat) : (s.bump p i n k).nextItem = s.nextItem := by
  unfold State.bump; split <;> rfl
@[simp] theorem State.bump_gang (s : State) (p : Pg) (i n k : Nat) : (s.bump p i n k).gang = s.gang := by
  unfold State.bump; split <;> rfl
@[simp] theorem State.bump_boxes (s : State) (p : Pg) (i n k : Nat) : (s.bump p i n k).boxes = s.boxes := by
  unfold State.bump; split <;> rfl
@[simp] theorem State.bump_mem (s : State) (p : Pg) (i n k : Nat) : (s.bump p i n k).mem = s.mem := by
  unfold State.bump; split <;> rfl
@[simp] theorem State.bump_memPoison (s : State) (p : Pg) (i n k : Nat) : (s.bump p i n k).memPoison = s.memPoison := by
  unfold State.bump; split <;> rfl
@[simp] theorem State.bump_protUnits (s : State) (p : Pg) (i n k : Nat) : (s.bump p i n k).protUnits = s.protUnits := by
  unfold State.bump; split <;> rfl
@[simp] theorem State.bump_hbm (s : State) (p : Pg) (i n k : Nat) : (s.bump p i n k).hbm = s.hbm := by
  unfold State.bump; split <;> rfl
@[simp] theorem State.bump_dies (s : State) (p : Pg) (i n k : Nat) : (s.bump p i n k).dies = s.dies := by
  unfold State.bump; split <;> rfl
@[simp] theorem State.bump_held (s : State) (p : Pg) (i n k : Nat) : (s.bump p i n k).held = s.held := by
  unfold State.bump; split <;> rfl
@[simp] theorem State.bump_tier (s : State) (p : Pg) (i n k : Nat) : (s.bump p i n k).tier = s.tier := by
  unfold State.bump; split <;> rfl
@[simp] theorem State.bump_cb (s : State) (p : Pg) (i n k : Nat) : (s.bump p i n k).cb = s.cb := by
  unfold State.bump; split <;> rfl
@[simp] theorem State.bump_fab (s : State) (p : Pg) (i n k : Nat) : (s.bump p i n k).fab = s.fab := by
  unfold State.bump; split <;> rfl
@[simp] theorem State.bump_links (s : State) (p : Pg) (i n k : Nat) : (s.bump p i n k).links = s.links := by
  unfold State.bump; split <;> rfl
@[simp] theorem State.bump_host (s : State) (p : Pg) (i n k : Nat) : (s.bump p i n k).host = s.host := by
  unfold State.bump; split <;> rfl
@[simp] theorem State.bump_log (s : State) (p : Pg) (i n k : Nat) : (s.bump p i n k).log = s.log := by
  unfold State.bump; split <;> rfl
@[simp] theorem State.bump_fw (s : State) (p : Pg) (i n k : Nat) : (s.bump p i n k).fw = s.fw := by
  unfold State.bump; split <;> rfl
@[simp] theorem State.bump_sec (s : State) (p : Pg) (i n k : Nat) : (s.bump p i n k).sec = s.sec := by
  unfold State.bump; split <;> rfl
@[simp] theorem State.bump_pwr (s : State) (p : Pg) (i n k : Nat) : (s.bump p i n k).pwr = s.pwr := by
  unfold State.bump; split <;> rfl
@[simp] theorem State.bump_test (s : State) (p : Pg) (i n k : Nat) : (s.bump p i n k).test = s.test := by
  unfold State.bump; split <;> rfl
@[simp] theorem State.bump_side (s : State) (p : Pg) (i n k : Nat) : (s.bump p i n k).side = s.side := by
  unfold State.bump; split <;> rfl

@[simp] theorem State.modCore_pending (s : State) (c : Nat) (f : Core → Core) : (s.modCore c f).pending = s.pending := rfl
@[simp] theorem State.modCore_outbox (s : State) (c : Nat) (f : Core → Core) : (s.modCore c f).outbox = s.outbox := rfl
@[simp] theorem State.modCore_freeCount (s : State) (c : Nat) (f : Core → Core) : (s.modCore c f).freeCount = s.freeCount := rfl
@[simp] theorem State.modCore_stepping (s : State) (c : Nat) (f : Core → Core) : (s.modCore c f).stepping = s.stepping := rfl
@[simp] theorem State.modCore_order (s : State) (c : Nat) (f : Core → Core) : (s.modCore c f).order = s.order := rfl
@[simp] theorem State.modCore_pins (s : State) (c : Nat) (f : Core → Core) : (s.modCore c f).pins = s.pins := rfl
@[simp] theorem State.modCore_time (s : State) (c : Nat) (f : Core → Core) : (s.modCore c f).time = s.time := rfl
@[simp] theorem State.modCore_regs (s : State) (c : Nat) (f : Core → Core) : (s.modCore c f).regs = s.regs := rfl
@[simp] theorem State.modCore_ctr (s : State) (c : Nat) (f : Core → Core) : (s.modCore c f).ctr = s.ctr := rfl
@[simp] theorem State.modCore_places (s : State) (c : Nat) (f : Core → Core) : (s.modCore c f).places = s.places := rfl
@[simp] theorem State.modCore_groups (s : State) (c : Nat) (f : Core → Core) : (s.modCore c f).groups = s.groups := rfl
@[simp] theorem State.modCore_pages (s : State) (c : Nat) (f : Core → Core) : (s.modCore c f).pages = s.pages := rfl
@[simp] theorem State.modCore_mirrors (s : State) (c : Nat) (f : Core → Core) : (s.modCore c f).mirrors = s.mirrors := rfl
@[simp] theorem State.modCore_mirrorPages (s : State) (c : Nat) (f : Core → Core) : (s.modCore c f).mirrorPages = s.mirrorPages := rfl
@[simp] theorem State.modCore_arenaWait (s : State) (c : Nat) (f : Core → Core) : (s.modCore c f).arenaWait = s.arenaWait := rfl
@[simp] theorem State.modCore_poolWait (s : State) (c : Nat) (f : Core → Core) : (s.modCore c f).poolWait = s.poolWait := rfl
@[simp] theorem State.modCore_items (s : State) (c : Nat) (f : Core → Core) : (s.modCore c f).items = s.items := rfl
@[simp] theorem State.modCore_nextItem (s : State) (c : Nat) (f : Core → Core) : (s.modCore c f).nextItem = s.nextItem := rfl
@[simp] theorem State.modCore_gang (s : State) (c : Nat) (f : Core → Core) : (s.modCore c f).gang = s.gang := rfl
@[simp] theorem State.modCore_boxes (s : State) (c : Nat) (f : Core → Core) : (s.modCore c f).boxes = s.boxes := rfl
@[simp] theorem State.modCore_mem (s : State) (c : Nat) (f : Core → Core) : (s.modCore c f).mem = s.mem := rfl
@[simp] theorem State.modCore_memPoison (s : State) (c : Nat) (f : Core → Core) : (s.modCore c f).memPoison = s.memPoison := rfl
@[simp] theorem State.modCore_protUnits (s : State) (c : Nat) (f : Core → Core) : (s.modCore c f).protUnits = s.protUnits := rfl
@[simp] theorem State.modCore_hbm (s : State) (c : Nat) (f : Core → Core) : (s.modCore c f).hbm = s.hbm := rfl
@[simp] theorem State.modCore_dies (s : State) (c : Nat) (f : Core → Core) : (s.modCore c f).dies = s.dies := rfl
@[simp] theorem State.modCore_held (s : State) (c : Nat) (f : Core → Core) : (s.modCore c f).held = s.held := rfl
@[simp] theorem State.modCore_tier (s : State) (c : Nat) (f : Core → Core) : (s.modCore c f).tier = s.tier := rfl
@[simp] theorem State.modCore_cb (s : State) (c : Nat) (f : Core → Core) : (s.modCore c f).cb = s.cb := rfl
@[simp] theorem State.modCore_fab (s : State) (c : Nat) (f : Core → Core) : (s.modCore c f).fab = s.fab := rfl
@[simp] theorem State.modCore_links (s : State) (c : Nat) (f : Core → Core) : (s.modCore c f).links = s.links := rfl
@[simp] theorem State.modCore_host (s : State) (c : Nat) (f : Core → Core) : (s.modCore c f).host = s.host := rfl
@[simp] theorem State.modCore_log (s : State) (c : Nat) (f : Core → Core) : (s.modCore c f).log = s.log := rfl
@[simp] theorem State.modCore_fw (s : State) (c : Nat) (f : Core → Core) : (s.modCore c f).fw = s.fw := rfl
@[simp] theorem State.modCore_sec (s : State) (c : Nat) (f : Core → Core) : (s.modCore c f).sec = s.sec := rfl
@[simp] theorem State.modCore_pwr (s : State) (c : Nat) (f : Core → Core) : (s.modCore c f).pwr = s.pwr := rfl
@[simp] theorem State.modCore_test (s : State) (c : Nat) (f : Core → Core) : (s.modCore c f).test = s.test := rfl
@[simp] theorem State.modCore_side (s : State) (c : Nat) (f : Core → Core) : (s.modCore c f).side = s.side := rfl

@[simp] theorem State.setCore_pending (s : State) (c : Nat) (k : Core) : (s.setCore c k).pending = s.pending := rfl
@[simp] theorem State.setCore_outbox (s : State) (c : Nat) (k : Core) : (s.setCore c k).outbox = s.outbox := rfl
@[simp] theorem State.setCore_freeCount (s : State) (c : Nat) (k : Core) : (s.setCore c k).freeCount = s.freeCount := rfl
@[simp] theorem State.setCore_stepping (s : State) (c : Nat) (k : Core) : (s.setCore c k).stepping = s.stepping := rfl
@[simp] theorem State.setCore_order (s : State) (c : Nat) (k : Core) : (s.setCore c k).order = s.order := rfl
@[simp] theorem State.setCore_pins (s : State) (c : Nat) (k : Core) : (s.setCore c k).pins = s.pins := rfl
@[simp] theorem State.setCore_time (s : State) (c : Nat) (k : Core) : (s.setCore c k).time = s.time := rfl
@[simp] theorem State.setCore_regs (s : State) (c : Nat) (k : Core) : (s.setCore c k).regs = s.regs := rfl
@[simp] theorem State.setCore_ctr (s : State) (c : Nat) (k : Core) : (s.setCore c k).ctr = s.ctr := rfl
@[simp] theorem State.setCore_places (s : State) (c : Nat) (k : Core) : (s.setCore c k).places = s.places := rfl
@[simp] theorem State.setCore_groups (s : State) (c : Nat) (k : Core) : (s.setCore c k).groups = s.groups := rfl
@[simp] theorem State.setCore_pages (s : State) (c : Nat) (k : Core) : (s.setCore c k).pages = s.pages := rfl
@[simp] theorem State.setCore_mirrors (s : State) (c : Nat) (k : Core) : (s.setCore c k).mirrors = s.mirrors := rfl
@[simp] theorem State.setCore_mirrorPages (s : State) (c : Nat) (k : Core) : (s.setCore c k).mirrorPages = s.mirrorPages := rfl
@[simp] theorem State.setCore_arenaWait (s : State) (c : Nat) (k : Core) : (s.setCore c k).arenaWait = s.arenaWait := rfl
@[simp] theorem State.setCore_poolWait (s : State) (c : Nat) (k : Core) : (s.setCore c k).poolWait = s.poolWait := rfl
@[simp] theorem State.setCore_items (s : State) (c : Nat) (k : Core) : (s.setCore c k).items = s.items := rfl
@[simp] theorem State.setCore_nextItem (s : State) (c : Nat) (k : Core) : (s.setCore c k).nextItem = s.nextItem := rfl
@[simp] theorem State.setCore_gang (s : State) (c : Nat) (k : Core) : (s.setCore c k).gang = s.gang := rfl
@[simp] theorem State.setCore_boxes (s : State) (c : Nat) (k : Core) : (s.setCore c k).boxes = s.boxes := rfl
@[simp] theorem State.setCore_mem (s : State) (c : Nat) (k : Core) : (s.setCore c k).mem = s.mem := rfl
@[simp] theorem State.setCore_memPoison (s : State) (c : Nat) (k : Core) : (s.setCore c k).memPoison = s.memPoison := rfl
@[simp] theorem State.setCore_protUnits (s : State) (c : Nat) (k : Core) : (s.setCore c k).protUnits = s.protUnits := rfl
@[simp] theorem State.setCore_hbm (s : State) (c : Nat) (k : Core) : (s.setCore c k).hbm = s.hbm := rfl
@[simp] theorem State.setCore_dies (s : State) (c : Nat) (k : Core) : (s.setCore c k).dies = s.dies := rfl
@[simp] theorem State.setCore_held (s : State) (c : Nat) (k : Core) : (s.setCore c k).held = s.held := rfl
@[simp] theorem State.setCore_tier (s : State) (c : Nat) (k : Core) : (s.setCore c k).tier = s.tier := rfl
@[simp] theorem State.setCore_cb (s : State) (c : Nat) (k : Core) : (s.setCore c k).cb = s.cb := rfl
@[simp] theorem State.setCore_fab (s : State) (c : Nat) (k : Core) : (s.setCore c k).fab = s.fab := rfl
@[simp] theorem State.setCore_links (s : State) (c : Nat) (k : Core) : (s.setCore c k).links = s.links := rfl
@[simp] theorem State.setCore_host (s : State) (c : Nat) (k : Core) : (s.setCore c k).host = s.host := rfl
@[simp] theorem State.setCore_log (s : State) (c : Nat) (k : Core) : (s.setCore c k).log = s.log := rfl
@[simp] theorem State.setCore_fw (s : State) (c : Nat) (k : Core) : (s.setCore c k).fw = s.fw := rfl
@[simp] theorem State.setCore_sec (s : State) (c : Nat) (k : Core) : (s.setCore c k).sec = s.sec := rfl
@[simp] theorem State.setCore_pwr (s : State) (c : Nat) (k : Core) : (s.setCore c k).pwr = s.pwr := rfl
@[simp] theorem State.setCore_test (s : State) (c : Nat) (k : Core) : (s.setCore c k).test = s.test := rfl
@[simp] theorem State.setCore_side (s : State) (c : Nat) (k : Core) : (s.setCore c k).side = s.side := rfl

/-! ### Cores and clerks -/

theorem State.modCore_leads {ps : List Part} {s₀ s : State} {c : Nat} {f : Core → Core} (hs : Leads ps s₀ s)
    (hp : [Part.cores] ⊆ ps) (hf : ∀ k, k.Shape → (f k).Shape) : Leads ps s₀ (s.modCore c f) := by
  refine hs.cores hp (fun h => ⟨by simpa using h.1, ?_⟩)
  intro k hk
  rcases listModify_mem hk with hk | ⟨y, hy, rfl⟩
  · exact h.2.1 k hk
  · exact hf y (h.2.1 y hy)

theorem State.core_shape {s : State} {c : Nat} (h : s.Shape) : (s.core c).Shape := by
  unfold State.core
  rw [List.getD_eq_getElem?_getD]
  cases e : s.cores[c]? with
  | none =>
    refine ⟨rfl, fun q hq => ?_, rfl, rfl⟩
    obtain rfl : q = {} := List.eq_of_mem_replicate hq
    exact ⟨rfl, rfl⟩
  | some k => exact h.2.1 k (List.mem_of_getElem? e)

theorem State.setCore_leads {ps : List Part} {s₀ s : State} {c : Nat} {k : Core} (hs : Leads ps s₀ s)
    (hp : [Part.cores] ⊆ ps) (hf : s.Shape → k.Shape) : Leads ps s₀ (s.setCore c k) := by
  refine hs.cores hp (fun h => ⟨by simpa using h.1, ?_⟩)
  intro x hx
  rcases List.mem_or_eq_of_mem_set hx with hx | rfl
  · exact h.2.1 x hx
  · exact hf h

theorem Core.shape_modClerk {k : Core} {i : Nat} {f : Clerk → Clerk} (h : k.Shape)
    (hf : ∀ q, q.Shape → (f q).Shape) : ({ k with clerks := listModify f k.clerks i } : Core).Shape := by
  refine ⟨by simpa using h.1, ?_, h.2.2⟩
  intro q hq
  rcases listModify_mem hq with hq | ⟨y, hy, rfl⟩
  · exact h.2.1 q hq
  · exact hf y (h.2.1 y hy)

theorem Core.shape_mapClerks {k : Core} {f : Clerk → Clerk} (h : k.Shape)
    (hf : ∀ q, q.Shape → (f q).Shape) : ({ k with clerks := k.clerks.map f } : Core).Shape := by
  refine ⟨by simpa using h.1, ?_, h.2.2⟩
  intro q hq
  obtain ⟨y, hy, rfl⟩ := List.mem_map.1 hq
  exact hf y (h.2.1 y hy)

theorem Leads.coresMap {ps : List Part} {s t : State} {g : Core → Core} (h : Leads ps s t) (hp : [Part.cores] ⊆ ps)
    (hg : ∀ k, k.Shape → (g k).Shape) : Leads ps s { t with cores := t.cores.map g } := by
  refine h.cores hp (fun i => ⟨by simpa using i.1, fun k hk => ?_⟩)
  obtain ⟨y, hy, rfl⟩ := List.mem_map.1 hk
  exact hg y (i.2.1 y hy)

theorem Core.shape_clearRun {k : Core} (h : k.Shape) : k.clearRun.Shape := by
  have := Core.shape_mapClerks (f := fun k => { k with state := .idle, resv := none, finished := false }) h
    (fun q hq => hq)
  exact ⟨this.1, this.2.1, rfl, rfl⟩

/-! ### Indexed parts after an update -/

theorem State.core_modCore (s : State) (c d : Nat) (f : Core → Core) :
    (s.modCore c f).core d = if c = d ∧ d < s.cores.length then f (s.core d) else s.core d :=
  listModify_getD f s.cores c d {}

theorem State.box_modBox (s : State) (c d : Nat) (f : BoxSt → BoxSt) :
    (s.modBox c f).box d = if c = d ∧ d < s.boxes.length then f (s.box d) else s.box d :=
  listModify_getD f s.boxes c d {}

theorem State.link_modLink (s : State) (c d : Nat) (f : Link → Link) :
    (s.modLink c f).link d = if c = d ∧ d < s.links.length then f (s.link d) else s.link d :=
  listModify_getD f s.links c d {}

theorem State.slot_modSlot (s : State) (c d : Nat) (f : CbSlot → CbSlot) :
    (s.modSlot c f).slot d = if c = d ∧ d < s.cb.slots.length then f (s.slot d) else s.slot d :=
  listModify_getD f s.cb.slots c d {}

theorem State.comp_modComp (s : State) (c d : Nat) (f : Comp → Comp) :
    (s.modComp c f).comp d = if c = d ∧ d < s.fw.comps.length then f (s.comp d) else s.comp d :=
  listModify_getD f s.fw.comps c d {}

theorem State.rail_modRail (s : State) (c d : Nat) (f : RailSt → RailSt) :
    (s.modRail c f).rail d = if c = d ∧ d < s.pwr.rails.length then f (s.rail d) else s.rail d :=
  listModify_getD f s.pwr.rails c d {}

theorem State.die_modDie (s : State) (c d : Nat) (f : DieMem → DieMem) :
    (s.modDie c f).die d = if c = d ∧ d < s.dies.length then f (s.die d) else s.die d :=
  listModify_getD f s.dies c d {}

theorem State.stack_modStack (s : State) (c d : Nat) (f : Stack → Stack) :
    (s.modStack c f).stack d = if c = d ∧ d < s.hbm.length then f (s.stack d) else s.stack d :=
  listModify_getD f s.hbm c d {}

end Sys2Proof.Machine
end

