-- ==== Sys2Proof/Laws/Exec.lean ====
section
/-! SUPPORT. What an engine works on keeps its core's shape: no operation of the MXE, the VXE, the couriers or a clerk
gains or loses a clerk, a clerk's register, a pigeonhole or a courier's queue. -/

namespace Sys2Proof.Machine

variable {x : Exec} {t : Tile}

theorem Exec.bump_shape {p : Pg} {n a : Nat} (h : x.core.Shape) : (x.bump p n a).core.Shape := h

theorem Exec.consume_shape {es : List (List Elem)} (h : x.core.Shape) : (x.consume es).core.Shape := h

theorem Exec.putStore_shape {st : Store 8 × List Nat} (h : x.core.Shape) : (x.putStore t st).core.Shape := by
  unfold Exec.putStore
  split <;> exact h

theorem Exec.writeRow_shape {r : Nat} {es : List Elem} (h : x.core.Shape) : (x.writeRow t r es).core.Shape :=
  Exec.putStore_shape h

theorem Exec.writeRows_shape {r : Nat} {rows : List (List Elem)} (h : x.core.Shape) :
    (x.writeRows t r rows).core.Shape := by
  induction rows generalizing x r with
  | nil => exact h
  | cons es l ih => exact ih (Exec.writeRow_shape h)

theorem Exec.convert_shape {f : Fmt} {r : Rnd} {sat : Bool} {v : FV} (h : x.core.Shape) :
    (x.convert f r sat v).1.core.Shape := by
  unfold Exec.convert
  split
  · split <;> exact h
  · exact h

theorem Exec.convertRow_shape {f : Fmt} {r : Rnd} {sat : Bool} {row : List (FV × Bool)} (h : x.core.Shape) :
    (x.convertRow f r sat row).1.core.Shape := by
  induction row generalizing x with
  | nil => exact h
  | cons v l ih => exact ih (Exec.convert_shape h)

theorem Exec.putRows_shape {r : Nat} {rows : List (List (FV × Bool))} (h : x.core.Shape) :
    (x.putRows t r rows).core.Shape := by
  induction rows generalizing x r with
  | nil => exact h
  | cons row l ih => exact ih (Exec.writeRow_shape (Exec.convertRow_shape h))

theorem Exec.convertRows_shape {src dst : Tile} {rows : List (List Elem)} (h : x.core.Shape) :
    (x.convertRows src dst rows).1.core.Shape := by
  induction rows generalizing x with
  | nil => exact h
  | cons row l ih => exact ih (Exec.convertRow_shape h)

theorem Exec.loadShadow_shape {f : Fmt} {rows : List (List Elem)} {k n clerk : Nat} (h : x.core.Shape) :
    (x.loadShadow f rows k n clerk).core.Shape := h

theorem Exec.broadcast_shape {p axis : Nat} {acc : Bool} (h : x.core.Shape) : (x.broadcast t p axis acc).core.Shape := h

theorem Exec.foldl_shape {α : Type} {f : Exec → α → Exec} (hf : ∀ y a, y.core.Shape → (f y a).core.Shape) {l : List α}
    (h : x.core.Shape) : (l.foldl f x).core.Shape := by
  induction l generalizing x with
  | nil => exact h
  | cons a l ih => exact ih (hf _ _ h)

theorem Exec.foldlPair_shape {α β : Type} {f : Exec × β → α → Exec × β}
    (hf : ∀ y a, y.1.core.Shape → (f y a).1.core.Shape) {b : β} {l : List α} (h : x.core.Shape) :
    (l.foldl f (x, b)).1.core.Shape := by
  induction l generalizing x b with
  | nil => exact h
  | cons a l ih => exact ih (x := (f (x, b) a).1) (b := (f (x, b) a).2) (hf _ _ h)

theorem Exec.drainPut_shape {rnd : Rnd} {sat : Bool} {r : Nat} {row : List (FV × Bool)} (h : x.core.Shape) :
    (x.drainPut t rnd sat r row).core.Shape := by
  unfold Exec.drainPut
  refine Exec.writeRow_shape (Exec.foldlPair_shape (fun y v hy => ?_) h)
  have hc := Exec.convert_shape (f := t.f) (r := rnd) (sat := sat) (v := v.1) hy
  dsimp only
  repeat' split
  all_goals exact hc

theorem Exec.drainAll_shape {p : Nat} {ws : List Nat} {scales biases : List W32} {dest resid : Tile} (h : x.core.Shape) :
    (x.drainAll p ws scales biases dest resid).core.Shape :=
  Exec.foldl_shape (fun _ _ hy => Exec.drainPut_shape hy) h

theorem Exec.putCbuf_shape {off : Nat} {bytes : List Byte} {bad : List Bool} (h : x.core.Shape) :
    (x.putCbuf off bytes bad).core.Shape := h

theorem Exec.countVx_shape {n : Nat} {tr : Bool} (h : x.core.Shape) : (x.countVx n tr).core.Shape := by
  unfold Exec.countVx
  dsimp only
  split <;> exact h

/-! ### Vector operations -/

/-- An outcome that, where it is no failure, keeps the core's shape. -/
def Res.Shape : Res → Prop
  | .ok y => y.core.Shape
  | .error _ => True

theorem guarded_shape {c : Option Fail} (h : x.core.Shape) : (guarded c x).Shape := by
  unfold guarded
  split
  · exact trivial
  · exact h

variable {v : Vx}

theorem vxBinary_shape {f : W32 → W32 → W32} (h : x.core.Shape) : (vxBinary f x v).Shape :=
  guarded_shape (Exec.countVx_shape (Exec.putRows_shape h))

theorem vxFma_shape (h : x.core.Shape) : (vxFma x v).Shape :=
  guarded_shape (Exec.countVx_shape (Exec.putRows_shape h))

theorem selRow_shape {d : Tile} {l : List (FV × Bool × Bool)} {es : List Elem} (h : x.core.Shape) :
    (selRow d x l es).1.core.Shape := by
  induction l generalizing x es with
  | nil => exact h
  | cons a l ih =>
    cases es with
    | nil => exact h
    | cons e es =>
      obtain ⟨v, take, bad⟩ := a
      simp only [selRow]
      split
      · exact ih (Exec.convert_shape h)
      · exact ih h

theorem vxSel_shape (h : x.core.Shape) : (vxSel x v).Shape :=
  guarded_shape (Exec.countVx_shape (Exec.foldl_shape (fun _ _ hy => Exec.writeRow_shape (selRow_shape hy)) h))

theorem vxUnary_shape {f : W32 → W32} {tr : Bool} (h : x.core.Shape) : (vxUnary f tr x v).Shape :=
  guarded_shape (Exec.countVx_shape (Exec.putRows_shape h))

theorem vxReduce_shape {f : List W32 → W32} (h : x.core.Shape) : (vxReduce f x v).Shape :=
  guarded_shape (Exec.countVx_shape (Exec.putRows_shape h))

theorem vxNorm_shape {f : W32 → Option (List W32) → List W32 → List W32} (h : x.core.Shape) : (vxNorm f x v).Shape :=
  guarded_shape (Exec.countVx_shape (Exec.putRows_shape h))

theorem vxScan_shape (h : x.core.Shape) : (vxScan x v).Shape := by
  refine guarded_shape (Exec.countVx_shape (Exec.putRows_shape ?_))
  split <;> exact h

theorem vxStateRms_shape (h : x.core.Shape) : (vxStateRms x v).Shape := guarded_shape (Exec.countVx_shape h)

theorem vxTopk_shape (h : x.core.Shape) : (vxTopk x v).Shape := by
  refine guarded_shape (Exec.countVx_shape (Exec.writeRows_shape ?_))
  split <;> exact h

theorem vxSoftmaxStep_shape (h : x.core.Shape) : (vxSoftmaxStep x v).Shape :=
  guarded_shape (Exec.countVx_shape (Exec.foldlPair_shape
    (fun _ _ hy => Exec.writeRow_shape (Exec.putRows_shape hy)) h))

theorem vxSoftmaxFinal_shape (h : x.core.Shape) : (vxSoftmaxFinal x v).Shape :=
  guarded_shape (Exec.countVx_shape (Exec.putRows_shape h))

theorem vxWindow_shape {dw : Bool} (h : x.core.Shape) : (vxWindow dw x v).Shape := by
  refine guarded_shape (Exec.countVx_shape (Exec.foldl_shape (fun y _ hy => ?_) h))
  exact Exec.putRows_shape (x := y) hy

/-! ### Base instructions of a clerk -/

theorem Clerk.setX_shape {c : Clerk} {i : Nat} {w : W64} (h : c.Shape) : (c.setX i w).Shape := by
  unfold Clerk.setX
  split
  · exact h
  · exact ⟨by simpa using h.1, h.2⟩

theorem Clerk.advance_shape {c : Clerk} {n : Nat} (h : c.Shape) : (c.advance n).Shape := h

theorem Clerk.empty_shape : ({} : Clerk).Shape := ⟨rfl, rfl⟩

theorem Exec.clerk_shape {n : Nat} (h : x.core.Shape) : (x.clerk n).Shape := by
  unfold Exec.clerk
  rw [List.getD_eq_getElem?_getD]
  cases hq : x.core.clerks[n]? with
  | none => exact Clerk.empty_shape
  | some q => exact h.2.1 q (List.mem_of_getElem? hq)

theorem Exec.setClerk_shape {n : Nat} {c : Clerk} (h : x.core.Shape) (hc : c.Shape) : (x.setClerk n c).core.Shape := by
  refine ⟨by simpa [Exec.setClerk] using h.1, fun q hq => ?_, h.2.2⟩
  rcases List.mem_or_eq_of_mem_set hq with hq | rfl
  · exact h.2.1 q hq
  · exact hc

theorem Exec.dread_shape {m off size : Nat} (h : x.core.Shape) : (x.dread m off size).1.core.Shape := h

theorem Exec.dwrite_shape {by' m off size w : Nat} (h : x.core.Shape) : (x.dwrite by' m off size w).core.Shape := by
  have hk : (x.setClerk m { x.clerk m with
      dmem := (writeBytes (x.clerk m).dmem (x.clerk m).dmemPoison off (leBytes size w) []).1,
      dmemPoison := (writeBytes (x.clerk m).dmem (x.clerk m).dmemPoison off (leBytes size w) []).2 }).core.Shape :=
    Exec.setClerk_shape h (Exec.clerk_shape (n := m) h)
  refine ⟨by simpa [Exec.dwrite] using hk.1, fun q hq => ?_, hk.2.2⟩
  obtain ⟨⟨y, n⟩, hy, rfl⟩ := List.mem_map.1 hq
  have hy' : y.Shape := hk.2.1 y (List.fst_mem_of_mem_zipIdx hy)
  dsimp only
  split
  · split <;> exact hy'
  · exact hy'

/-- A finished instruction keeps the clerk's registers in number. -/
def RvAct.Shape : RvAct → Prop
  | .done c => c.Shape
  | _ => True

theorem Clerk.write_shape {c : Clerk} {rd n : Nat} {w : W64} (h : c.Shape) : (c.write rd n w).Shape :=
  Clerk.setX_shape h

theorem optWrite_shape {c : Clerk} {rd n : Nat} {w : Option W64} (h : c.Shape) : (optWrite c rd n w).Shape := by
  cases w with
  | none => exact trivial
  | some w => exact Clerk.write_shape h

theorem Clerk.jump_shape {c : Clerk} {w : W64} (h : c.Shape) : (c.jump w).Shape := h

theorem RvAct.done_shape {c : Clerk} (h : c.Shape) : (RvAct.done c).Shape := h

theorem rvIllegal_shape : rvIllegal.Shape := trivial

theorem rvExec_shape {c : Clerk} {w len : Nat} (h : c.Shape) : (rvExec c w len).Shape := by
  unfold rvExec
  generalize w % 128 = o
  dsimp only
  generalize bits w 14 12 = f3
  generalize bits w 31 25 = f7
  repeat' first
    | with_reducible assumption
    | with_reducible exact rvIllegal_shape
    | with_reducible refine Clerk.write_shape ?_
    | with_reducible refine optWrite_shape ?_
    | with_reducible refine RvAct.done_shape ?_
    | with_reducible refine Clerk.jump_shape ?_
    | with_reducible refine Clerk.advance_shape ?_
    | with_reducible refine Clerk.setX_shape ?_
    | split
  all_goals exact trivial

/-- A clerk's instruction keeps the core's shape. -/
def ClerkRes.Shape : ClerkRes → Prop
  | .ok y => y.core.Shape
  | .trap y _ => y.core.Shape
  | .walk _ => True

theorem Exec.rv_shape {n w len : Nat} (h : x.core.Shape) : (x.rv n w len).Shape := by
  unfold Exec.rv
  extract_lets c need
  have hc : (rvExec c w len).Shape := rvExec_shape (Exec.clerk_shape h)
  have wr : ∀ {y : Exec} {q : Clerk}, y.core.Shape → q.Shape → (ClerkRes.ok (y.setClerk n q)).Shape :=
    fun hy hq => Exec.setClerk_shape hy hq
  split
  · rename_i c' e
    rw [e] at hc
    exact Exec.setClerk_shape h hc
  · exact h
  · split
    · exact h
    · extract_lets fin
      have hf : ∀ y u, y.core.Shape → (fin y u).Shape := fun y u hy =>
        wr hy (Clerk.setX_shape (Exec.clerk_shape hy))
      split
      · exact hf _ _ h
      · exact hf _ _ h
      · exact hf _ _ h
      · exact h
  · split
    · exact h
    · have hf : ∀ y : Exec, y.core.Shape → (ClerkRes.ok (y.setClerk n ((y.clerk n).advance len))).Shape :=
        fun y hy => wr hy (Exec.clerk_shape hy)
      split
      · exact hf _ (Exec.dwrite_shape h)
      · exact hf _ h
      · exact trivial
      · exact h
  · split
    · exact h
    · split
      · exact wr (Exec.dread_shape h) (Clerk.setX_shape (Exec.clerk_shape (Exec.dread_shape h)))
      · exact h
  · split
    · exact h
    · split
      · extract_lets good y q
        have hy : y.core.Shape := by
          unfold y
          split
          · exact Exec.dwrite_shape h
          · exact h
        exact wr hy (Clerk.setX_shape (Exec.clerk_shape hy))
      · exact h
  · split
    · exact h
    · split
      · extract_lets r old y
        have hy : y.core.Shape := Exec.dwrite_shape h
        exact wr hy (Clerk.setX_shape (Exec.clerk_shape hy))
      · exact h

end Sys2Proof.Machine
end

