-- ==== Sys2Proof/Laws/LeadsModule.lean ====
section
/-! SUPPORT. Frames of the module's shared operations: register flags, member links, memory, the ledger, answers, resets, power, records, rounds and faults. -/

namespace Sys2Proof.Machine

theorem State.changed_leads {ps : List Part} {s₀ s : State} {p : Pg} {i : ℕ} (hs : Leads ps s₀ s)
    (hp : [Part.regs] ⊆ ps) : Leads ps s₀ (State.changed s p i) := by
  unfold State.changed
  repeat' first
    | with_reducible assumption
    | with_reducible refine State.orReg_leads ?_ ?_

theorem State.flag_leads {ps : List Part} {s₀ s : State} {p : Pg} {i : ℕ} {b : ℕ} {kind : ℕ} {loc : ℕ} (hs : Leads ps s₀ s)
    (hp : [Part.regs] ⊆ ps) : Leads ps s₀ (State.flag s p i b kind loc) := by
  unfold State.flag
  repeat' first
    | with_reducible assumption
    | extract_lets
    | with_reducible refine State.setReg_leads ?_ ?_
    | with_reducible refine State.orReg_leads ?_ ?_
    | with_reducible refine Leads.ite ?_ ?_

theorem State.flagAccess_leads {ps : List Part} {s₀ s : State} {p : Pg} {i : ℕ} {a : ℕ} {write : Bool} (hs : Leads ps s₀ s)
    (hp : [Part.regs] ⊆ ps) : Leads ps s₀ (State.flagAccess s p i a write) := by
  unfold State.flagAccess
  repeat' first
    | with_reducible assumption
    | with_reducible refine State.flag_leads ?_ ?_

theorem State.sendOn_leads {ps : List Part} {s₀ s : State} {port : ℕ} {p : TxPkt} (hs : Leads ps s₀ s)
    (hp : [Part.outbox, Part.ctr, Part.links] ⊆ ps) : Leads ps s₀ (State.sendOn s port p) := by
  unfold State.sendOn
  repeat' first
    | with_reducible assumption
    | with_reducible exact List.Subset.trans (List.Sublist.subset (by decide)) hp
    | extract_lets
    | with_reducible refine State.emit_leads ?_ ?_
    | with_reducible refine State.bump_leads ?_ ?_
    | with_reducible refine State.modLink_leads ?_ ?_

theorem State.pumpPort_leads {ps : List Part} {s₀ s : State} {fuel port : Nat} (hs : Leads ps s₀ s)
    (hp : [Part.outbox, Part.ctr, Part.links] ⊆ ps) : Leads ps s₀ (State.pumpPort fuel s port) := by
  induction fuel generalizing s with
  | zero => exact hs
  | succ n ih =>
    simp only [State.pumpPort]
    split
    · exact hs
    · split
      · exact ih (State.sendOn_leads (State.modLink_leads hs (List.Subset.trans (List.Sublist.subset (by decide)) hp)) hp)
      · exact hs

theorem State.queueOn_leads {ps : List Part} {s₀ s : State} {port : ℕ} {p : TxPkt} (hs : Leads ps s₀ s)
    (hp : [Part.outbox, Part.ctr, Part.links] ⊆ ps) : Leads ps s₀ (State.queueOn s port p) := by
  unfold State.queueOn
  repeat' first
    | with_reducible assumption
    | with_reducible exact List.Subset.trans (List.Sublist.subset (by decide)) hp
    | extract_lets
    | with_reducible refine State.modLink_leads ?_ ?_
    | with_reducible refine State.pumpPort_leads ?_ ?_

theorem State.routePkt_leads {ps : List Part} {s₀ s : State} {p : TxPkt} {arrived : Option ℕ} (hs : Leads ps s₀ s)
    (hp : [Part.outbox, Part.ctr, Part.fab, Part.links] ⊆ ps) : Leads ps s₀ (State.routePkt s p arrived) := by
  unfold State.routePkt
  repeat' first
    | with_reducible assumption
    | with_reducible exact List.Subset.trans (List.Sublist.subset (by decide)) hp
    | with_reducible refine State.queueOn_leads ?_ ?_
    | with_reducible refine Leads.ite ?_ ?_
    | split
    | with_reducible refine Leads.fab ?_ ?_

theorem State.floodPkt_leads {ps : List Part} {s₀ s : State} {p : TxPkt} {arrived : Option ℕ} (hs : Leads ps s₀ s)
    (hp : [Part.outbox, Part.ctr, Part.links] ⊆ ps) : Leads ps s₀ (State.floodPkt s p arrived) := by
  unfold State.floodPkt
  repeat' first
    | with_reducible assumption
    | with_reducible refine State.queueOn_leads ?_ ?_
    | with_reducible refine Leads.ite ?_ ?_
    | (with_reducible refine Leads.foldl _ ?_ ?_; rotate_left; intro u x hu)
    | split

theorem State.packets_leads {ps : List Part} {s₀ s : State} {dest : ℕ} {cls : ℕ} {seq : ℕ} {msg : PktOut} (hs : Leads ps s₀ s)
    (hp : [Part.freeCount] ⊆ ps) : Leads ps s₀ (State.packets s dest cls seq msg).2 := by
  unfold State.packets
  repeat' first
    | with_reducible assumption
    | extract_lets
    | with_reducible refine State.draw_leads ?_ ?_
    | split

theorem State.floodMsg_leads {ps : List Part} {s₀ s : State} {msg : PktOut} (hs : Leads ps s₀ s)
    (hp : [Part.outbox, Part.freeCount, Part.ctr, Part.fab, Part.links] ⊆ ps) : Leads ps s₀ (State.floodMsg s msg) := by
  unfold State.floodMsg
  repeat' first
    | with_reducible assumption
    | with_reducible exact List.Subset.trans (List.Sublist.subset (by decide)) hp
    | extract_lets
    | with_reducible refine State.setFab_leads ?_ ?_
    | with_reducible refine State.packets_leads ?_ ?_
    | with_reducible refine State.emit_leads ?_ ?_
    | with_reducible refine State.floodPkt_leads ?_ ?_
    | (with_reducible refine Leads.foldl _ ?_ ?_; rotate_left; intro u x hu)

theorem State.sendPlain_leads {ps : List Part} {s₀ s : State} {dest : ℕ} {cls : ℕ} {seq : ℕ} {msg : PktOut} (hs : Leads ps s₀ s)
    (hp : [Part.outbox, Part.freeCount, Part.ctr, Part.fab, Part.links] ⊆ ps) : Leads ps s₀ (State.sendPlain s dest cls seq msg) := by
  unfold State.sendPlain
  repeat' first
    | with_reducible assumption
    | with_reducible exact List.Subset.trans (List.Sublist.subset (by decide)) hp
    | extract_lets
    | with_reducible refine State.packets_leads ?_ ?_
    | with_reducible refine State.emit_leads ?_ ?_
    | with_reducible refine State.routePkt_leads ?_ ?_
    | (with_reducible refine Leads.foldl _ ?_ ?_; rotate_left; intro u x hu)

theorem State.sendMsg_leads {ps : List Part} {s₀ s : State} {dest : ℕ} {cls : ℕ} {msg : PktOut} (hs : Leads ps s₀ s)
    (hp : [Part.outbox, Part.freeCount, Part.ctr, Part.fab, Part.links] ⊆ ps) : Leads ps s₀ (State.sendMsg s dest cls msg) := by
  unfold State.sendMsg
  repeat' first
    | with_reducible assumption
    | with_reducible exact List.Subset.trans (List.Sublist.subset (by decide)) hp
    | extract_lets
    | with_reducible refine State.setFab_leads ?_ ?_
    | with_reducible refine State.sendPlain_leads ?_ ?_
    | with_reducible refine Leads.ite ?_ ?_

theorem State.ackMsg_leads {ps : List Part} {s₀ s : State} {dest : ℕ} {cls : ℕ} {seq : ℕ} (hs : Leads ps s₀ s)
    (hp : [Part.outbox, Part.freeCount, Part.ctr, Part.fab, Part.links] ⊆ ps) : Leads ps s₀ (State.ackMsg s dest cls seq) := by
  unfold State.ackMsg
  repeat' first
    | with_reducible assumption
    | with_reducible exact List.Subset.trans (List.Sublist.subset (by decide)) hp
    | with_reducible refine State.setFab_leads ?_ ?_
    | with_reducible refine State.sendPlain_leads ?_ ?_
    | with_reducible refine Leads.ite ?_ ?_

theorem State.resumeInjection_leads {ps : List Part} {s₀ s : State}  (hs : Leads ps s₀ s)
    (hp : [Part.outbox, Part.freeCount, Part.ctr, Part.fab, Part.links] ⊆ ps) : Leads ps s₀ (State.resumeInjection s) := by
  unfold State.resumeInjection
  repeat' first
    | with_reducible assumption
    | with_reducible exact List.Subset.trans (List.Sublist.subset (by decide)) hp
    | extract_lets
    | with_reducible refine State.setFab_leads ?_ ?_
    | with_reducible refine State.sendPlain_leads ?_ ?_
    | (with_reducible refine Leads.foldl _ ?_ ?_; rotate_left; intro u x hu)

theorem State.releaseWaiting_leads {ps : List Part} {s₀ s : State}  (hs : Leads ps s₀ s)
    (hp : [Part.outbox, Part.ctr, Part.fab, Part.links] ⊆ ps) : Leads ps s₀ (State.releaseWaiting s) := by
  unfold State.releaseWaiting
  repeat' first
    | with_reducible assumption
    | with_reducible exact List.Subset.trans (List.Sublist.subset (by decide)) hp
    | extract_lets
    | with_reducible refine State.routePkt_leads ?_ ?_
    | with_reducible refine State.setFab_leads ?_ ?_
    | (with_reducible refine Leads.foldl _ ?_ ?_; rotate_left; intro u x hu)

theorem State.fillData_leads {ps : List Part} {s₀ s : State} {g : Nat} (hs : Leads ps s₀ s)
    (hp : [Part.mem, Part.memPoison] ⊆ ps) : Leads ps s₀ (s.fillData g) := by
  refine hs.update ?_ (fun i => ⟨?_, i.2.1, i.2.2⟩)
  · have h1 : Part.mem ∈ ps := hp (by decide)
    have h2 : Part.memPoison ∈ ps := hp (by decide)
    simp [Frame, State.without, State.fillData, h1, h2]
  · exact copyRange_wf 0 _ _ _ _ i.2.1 i.1 (Nat.le_add_right _ _)

theorem State.flushData_leads {ps : List Part} {s₀ s : State} {g : Nat} (hs : Leads ps s₀ s)
    (hp : [Part.tier] ⊆ ps) : Leads ps s₀ (s.flushData g) := by
  refine hs.update (State.without_tier (hp (by decide))) (fun i => ⟨i.1, ?_, i.2.2⟩)
  exact copyRange_wf 0 _ _ _ _ i.1 i.2.1 (Nat.le_add_right _ _)

theorem State.useGranule_leads {ps : List Part} {s₀ s : State} {da : ℕ} {write : Bool} (hs : Leads ps s₀ s)
    (hp : [Part.mem, Part.memPoison, Part.tier] ⊆ ps) : Leads ps s₀ (State.useGranule s da write) := by
  unfold State.useGranule
  repeat' first
    | with_reducible assumption
    | with_reducible exact List.Subset.trans (List.Sublist.subset (by decide)) hp
    | extract_lets
    | with_reducible refine State.modGranule_leads ?_ ?_
    | with_reducible refine State.fillData_leads ?_ ?_
    | exact fun h => h
    | split
    | with_reducible refine Leads.tier ?_ ?_ ?_

theorem State.memWrite_leads {ps : List Part} {s₀ s : State} {da : Nat} {bytes : List Byte} {bad : Nat → Bool}
    (hs : Leads ps s₀ s) (hp : [Part.mem, Part.memPoison, Part.tier] ⊆ ps) : Leads ps s₀ (s.memWrite da bytes bad) := by
  unfold State.memWrite
  split
  · exact hs
  · refine Leads.mem_memPoison ?_ (List.Subset.trans (List.Sublist.subset (by decide)) hp) (fun h => cellSetRun_wf _ _ _ _ h)
    split
    · exact Leads.foldl _ hs (fun u x hu => State.useGranule_leads hu (List.Subset.trans (List.Sublist.subset (by decide)) hp))
    · exact hs

theorem State.writePage_leads {ps : List Part} {s₀ s : State} {b : ℕ} {va : ℕ} {bytes : List Byte} {bad : ℕ → Bool} (hs : Leads ps s₀ s)
    (hp : [Part.mem, Part.memPoison, Part.protUnits, Part.tier] ⊆ ps) : Leads ps s₀ (State.writePage s b va bytes bad) := by
  unfold State.writePage
  repeat' first
    | with_reducible assumption
    | with_reducible exact List.Subset.trans (List.Sublist.subset (by decide)) hp
    | extract_lets
    | with_reducible refine State.memWrite_leads ?_ ?_
    | with_reducible refine Leads.ite ?_ ?_
    | (with_reducible refine Leads.foldl _ ?_ ?_; rotate_left; intro u x hu)
    | split
    | with_reducible refine Leads.protUnits ?_ ?_

theorem State.writeBoxFuel_leads {ps : List Part} {s₀ s : State} {fuel b va : Nat} {bytes : List Byte}
    {bad : Nat → Bool} (hs : Leads ps s₀ s) (hp : [Part.mem, Part.memPoison, Part.protUnits, Part.tier] ⊆ ps) :
    Leads ps s₀ (State.writeBoxFuel fuel s b va bytes bad) := by
  induction fuel generalizing s va bytes bad with
  | zero => exact hs
  | succ n ih =>
    simp only [State.writeBoxFuel]
    split
    · exact hs
    · exact ih (State.writePage_leads hs hp)

theorem State.writeBox_leads {ps : List Part} {s₀ s : State} {b : ℕ} {va : ℕ} {bytes : List Byte} (hs : Leads ps s₀ s)
    (hp : [Part.mem, Part.memPoison, Part.protUnits, Part.tier] ⊆ ps) : Leads ps s₀ (State.writeBox s b va bytes) := by
  unfold State.writeBox
  repeat' first
    | with_reducible assumption
    | with_reducible refine State.writeBoxFuel_leads ?_ ?_

theorem State.dropLab_leads {ps : List Part} {s₀ s : State} {p : LabEntry → Bool} (hs : Leads ps s₀ s)
    (hp : [Part.ctr, Part.cores] ⊆ ps) : Leads ps s₀ (s.dropLab p) := by
  refine Leads.foldl _ (hs.cores (List.Subset.trans (List.Sublist.subset (by decide)) hp) ?_) (fun u x hu => State.bump_leads hu (List.Subset.trans (List.Sublist.subset (by decide)) hp))
  intro h
  refine ⟨by simpa using h.1, fun k hk => ?_⟩
  obtain ⟨y, hy, rfl⟩ := List.mem_map.1 hk
  exact h.2.1 y hy

theorem State.flushLab_leads {ps : List Part} {s₀ s : State} {box : ℕ} {stream : ℕ} (hs : Leads ps s₀ s)
    (hp : [Part.ctr, Part.cores] ⊆ ps) : Leads ps s₀ (State.flushLab s box stream) := by
  unfold State.flushLab
  repeat' first
    | with_reducible assumption
    | with_reducible refine State.dropLab_leads ?_ ?_

theorem State.dropHistory_leads {ps : List Part} {s₀ s : State} {stream : ℕ} (hs : Leads ps s₀ s)
    (hp : [Part.ctr, Part.cores, Part.places, Part.pages] ⊆ ps) : Leads ps s₀ (State.dropHistory s stream) := by
  unfold State.dropHistory
  repeat' first
    | with_reducible assumption
    | with_reducible exact List.Subset.trans (List.Sublist.subset (by decide)) hp
    | extract_lets
    | with_reducible refine State.modPlace_leads ?_ ?_
    | with_reducible refine State.flushLab_leads ?_ ?_
    | split
    | with_reducible refine Leads.pages ?_ ?_

theorem State.rollbackPages_leads {ps : List Part} {s₀ s : State} {stream : ℕ} (hs : Leads ps s₀ s)
    (hp : [Part.ctr, Part.cores, Part.places, Part.pages] ⊆ ps) : Leads ps s₀ (State.rollbackPages s stream) := by
  unfold State.rollbackPages
  repeat' first
    | with_reducible assumption
    | with_reducible exact List.Subset.trans (List.Sublist.subset (by decide)) hp
    | extract_lets
    | with_reducible refine State.modPlace_leads ?_ ?_
    | with_reducible refine State.flushLab_leads ?_ ?_
    | with_reducible refine Leads.ite ?_ ?_
    | split
    | with_reducible refine Leads.pages ?_ ?_

theorem State.vacate_leads {ps : List Part} {s₀ s : State} {stream : ℕ} (hs : Leads ps s₀ s)
    (hp : [Part.ctr, Part.cores, Part.places, Part.pages] ⊆ ps) : Leads ps s₀ (State.vacate s stream) := by
  unfold State.vacate
  repeat' first
    | with_reducible assumption
    | with_reducible exact List.Subset.trans (List.Sublist.subset (by decide)) hp
    | with_reducible refine State.modPlace_leads ?_ ?_
    | with_reducible refine State.dropHistory_leads ?_ ?_

theorem State.releaseGroup_leads {ps : List Part} {s₀ s : State} {g : ℕ} (hs : Leads ps s₀ s)
    (hp : [Part.ctr, Part.cores, Part.places, Part.groups, Part.pages, Part.items] ⊆ ps) : Leads ps s₀ (State.releaseGroup s g) := by
  unfold State.releaseGroup
  repeat' first
    | with_reducible assumption
    | with_reducible exact List.Subset.trans (List.Sublist.subset (by decide)) hp
    | extract_lets
    | with_reducible refine State.vacate_leads ?_ ?_
    | (with_reducible refine Leads.foldl _ ?_ ?_; rotate_left; intro u x hu)
    | with_reducible refine Leads.places_groups_items ?_ ?_

theorem State.noteCore_leads {ps : List Part} {s₀ s : State} {id : ℕ} {c : ℕ} (hs : Leads ps s₀ s)
    (hp : [Part.items] ⊆ ps) : Leads ps s₀ (State.noteCore s id c) := by
  unfold State.noteCore
  repeat' first
    | with_reducible assumption
    | with_reducible refine State.modItem_leads ?_ ?_

theorem State.chargeBox_leads {ps : List Part} {s₀ s : State} {c : ℕ} {b : ℕ} {n : ℕ} (hs : Leads ps s₀ s)
    (hp : [Part.ctr, Part.boxes] ⊆ ps) : Leads ps s₀ (State.chargeBox s c b n) := by
  unfold State.chargeBox
  repeat' first
    | with_reducible assumption
    | with_reducible exact List.Subset.trans (List.Sublist.subset (by decide)) hp
    | extract_lets
    | with_reducible refine State.bump_leads ?_ ?_
    | with_reducible refine State.modBox_leads ?_ ?_

theorem State.chargeRun_leads {ps : List Part} {s₀ s : State} {c : ℕ} (hs : Leads ps s₀ s)
    (hp : [Part.ctr, Part.items, Part.boxes] ⊆ ps) : Leads ps s₀ (State.chargeRun s c) := by
  unfold State.chargeRun
  repeat' first
    | with_reducible assumption
    | with_reducible exact List.Subset.trans (List.Sublist.subset (by decide)) hp
    | with_reducible refine State.noteCore_leads ?_ ?_
    | with_reducible refine State.bump_leads ?_ ?_
    | with_reducible refine State.chargeBox_leads ?_ ?_
    | split

theorem State.stopInstance_leads {ps : List Part} {s₀ s : State} {c : Nat} (hs : Leads ps s₀ s)
    (hp : [Part.ctr, Part.cores, Part.poolWait, Part.items, Part.boxes] ⊆ ps) : Leads ps s₀ (s.stopInstance c) :=
  Leads.poolWait (State.modCore_leads (State.chargeRun_leads hs (List.Subset.trans (List.Sublist.subset (by decide)) hp)) (List.Subset.trans (List.Sublist.subset (by decide)) hp) (fun _ h => Core.shape_clearRun h)) (List.Subset.trans (List.Sublist.subset (by decide)) hp)

theorem State.stopItem_leads {ps : List Part} {s₀ s : State} {id : Nat} (hs : Leads ps s₀ s)
    (hp : [Part.ctr, Part.cores, Part.poolWait, Part.items, Part.boxes] ⊆ ps) : Leads ps s₀ (s.stopItem id) := by
  refine Leads.coresMap (Leads.foldl _ hs (fun u x hu => ?_)) (List.Subset.trans (List.Sublist.subset (by decide)) hp) (fun _ h => h)
  split
  · split
    · exact State.stopInstance_leads hu hp
    · exact hu
  · exact hu

theorem State.dropQueued_leads {ps : List Part} {s₀ s : State} {id : ℕ} {k : ℕ} (hs : Leads ps s₀ s)
    (hp : [Part.cores] ⊆ ps) : Leads ps s₀ (State.dropQueued s id k) := by
  unfold State.dropQueued
  repeat' first
    | with_reducible assumption
    | extract_lets
    | exact fun _ h => h
    | with_reducible refine Leads.coresMap ?_ ?_ ?_

theorem State.faultStream_leads {ps : List Part} {s₀ s : State} {stream : ℕ} (hs : Leads ps s₀ s)
    (hp : [Part.freeCount, Part.places] ⊆ ps) : Leads ps s₀ (State.faultStream s stream) := by
  unfold State.faultStream
  repeat' first
    | with_reducible assumption
    | with_reducible exact List.Subset.trans (List.Sublist.subset (by decide)) hp
    | extract_lets
    | with_reducible refine State.draw_leads ?_ ?_
    | with_reducible refine State.modPlace_leads ?_ ?_

theorem State.unpin_leads {ps : List Part} {s₀ s : State} {stream : ℕ} (hs : Leads ps s₀ s)
    (hp : [Part.places] ⊆ ps) : Leads ps s₀ (State.unpin s stream) := by
  unfold State.unpin
  repeat' first
    | with_reducible assumption
    | with_reducible refine State.modPlace_leads ?_ ?_

theorem State.leaveStep_leads {ps : List Part} {s₀ s : State} {e : Entry} {ok : Bool} (hs : Leads ps s₀ s)
    (hp : [Part.ctr, Part.cores, Part.places, Part.pages] ⊆ ps) : Leads ps s₀ (State.leaveStep s e ok) := by
  unfold State.leaveStep
  repeat' first
    | with_reducible assumption
    | with_reducible exact List.Subset.trans (List.Sublist.subset (by decide)) hp
    | extract_lets
    | with_reducible refine State.unpin_leads ?_ ?_
    | with_reducible refine State.modPlace_leads ?_ ?_
    | with_reducible refine State.rollbackPages_leads ?_ ?_
    | with_reducible refine Leads.ite ?_ ?_

theorem State.failEntry_leads {ps : List Part} {s₀ s : State} {id : ℕ} {k : ℕ} {f : Fail} (hs : Leads ps s₀ s)
    (hp : [Part.freeCount, Part.ctr, Part.cores, Part.places, Part.pages, Part.arenaWait, Part.items] ⊆ ps) : Leads ps s₀ (State.failEntry s id k f) := by
  unfold State.failEntry
  repeat' first
    | with_reducible assumption
    | with_reducible exact List.Subset.trans (List.Sublist.subset (by decide)) hp
    | extract_lets
    | with_reducible refine State.dropQueued_leads ?_ ?_
    | with_reducible refine State.modEntry_leads ?_ ?_
    | with_reducible refine State.leaveStep_leads ?_ ?_
    | with_reducible refine State.faultStream_leads ?_ ?_
    | with_reducible refine Leads.ite ?_ ?_
    | split
    | with_reducible refine Leads.arenaWait ?_ ?_

theorem State.post_leads {ps : List Part} {s₀ s : State} {i : Item} {dead : Bool} {body : ℕ} (hs : Leads ps s₀ s)
    (hp : [Part.outbox, Part.freeCount, Part.ctr, Part.boxes, Part.fab, Part.links] ⊆ ps) : Leads ps s₀ (State.post s i dead body) := by
  unfold State.post
  repeat' first
    | with_reducible assumption
    | with_reducible exact List.Subset.trans (List.Sublist.subset (by decide)) hp
    | with_reducible refine State.sendMsg_leads ?_ ?_
    | with_reducible refine State.modBox_leads ?_ ?_
    | with_reducible refine Leads.ite ?_ ?_

theorem State.writeReports_leads {ps : List Part} {s₀ s : State} {i : Item} (hs : Leads ps s₀ s)
    (hp : [Part.mem, Part.memPoison, Part.protUnits, Part.tier] ⊆ ps) : Leads ps s₀ (State.writeReports s i) := by
  unfold State.writeReports
  repeat' first
    | with_reducible assumption
    | with_reducible refine State.writeBox_leads ?_ ?_
    | with_reducible refine Leads.ite ?_ ?_

theorem State.exposeAll_leads {ps : List Part} {s₀ s : State} {i : Item} (hs : Leads ps s₀ s)
    (hp : [Part.cores] ⊆ ps) : Leads ps s₀ (s.exposeAll i) := by
  refine hs.cores hp (fun h => ⟨by simpa using h.1, fun k hk => ?_⟩)
  obtain ⟨⟨y, n⟩, hy, rfl⟩ := List.mem_map.1 hk
  have hy' : y.Shape := h.2.1 y (List.fst_mem_of_mem_zipIdx hy)
  dsimp only
  split
  · unfold Core.expose
    split <;> exact hy'
  · exact hy'

theorem State.postItem_leads {ps : List Part} {s₀ s : State} {id : ℕ} (hs : Leads ps s₀ s)
    (hp : [Part.outbox, Part.freeCount, Part.ctr, Part.boxes, Part.fab, Part.links] ⊆ ps) : Leads ps s₀ (State.postItem s id) := by
  unfold State.postItem
  repeat' first
    | with_reducible assumption
    | with_reducible refine State.post_leads ?_ ?_
    | with_reducible refine Leads.ite ?_ ?_
    | split

theorem State.resolve_leads {ps : List Part} {s₀ s : State} {id : ℕ} {d : Disp} (hs : Leads ps s₀ s)
    (hp : [Part.outbox, Part.freeCount, Part.ctr, Part.cores, Part.places, Part.groups, Part.pages, Part.items, Part.boxes, Part.mem, Part.memPoison, Part.protUnits, Part.tier, Part.fab, Part.links] ⊆ ps) : Leads ps s₀ (State.resolve s id d) := by
  unfold State.resolve
  dsimp only
  repeat' first
    | with_reducible assumption
    | with_reducible exact List.Subset.trans (List.Sublist.subset (by decide)) hp
    | with_reducible refine State.writeReports_leads ?_ ?_
    | with_reducible refine State.modItem_leads ?_ ?_
    | with_reducible refine State.exposeAll_leads ?_ ?_
    | with_reducible refine State.bump_leads ?_ ?_
    | with_reducible refine State.releaseGroup_leads ?_ ?_
    | with_reducible refine State.postItem_leads ?_ ?_
    | with_reducible refine Leads.ite ?_ ?_
    | split

theorem State.failItem_leads {ps : List Part} {s₀ s : State} {id : ℕ} {f : Fail} (hs : Leads ps s₀ s)
    (hp : [Part.outbox, Part.freeCount, Part.ctr, Part.cores, Part.places, Part.groups, Part.pages, Part.arenaWait, Part.poolWait, Part.items, Part.boxes, Part.mem, Part.memPoison, Part.protUnits, Part.tier, Part.fab, Part.links] ⊆ ps) : Leads ps s₀ (State.failItem s id f) := by
  unfold State.failItem
  repeat' first
    | with_reducible assumption
    | with_reducible exact List.Subset.trans (List.Sublist.subset (by decide)) hp
    | extract_lets
    | with_reducible refine State.stopItem_leads ?_ ?_
    | with_reducible refine State.leaveStep_leads ?_ ?_
    | with_reducible refine State.faultStream_leads ?_ ?_
    | with_reducible refine State.modPlace_leads ?_ ?_
    | with_reducible refine State.unpin_leads ?_ ?_
    | with_reducible refine State.modItem_leads ?_ ?_
    | with_reducible refine State.resolve_leads ?_ ?_
    | with_reducible refine Leads.ite ?_ ?_
    | (with_reducible refine Leads.foldl _ ?_ ?_; rotate_left; intro u x hu)
    | split
    | with_reducible refine Leads.arenaWait ?_ ?_

theorem State.failItems_leads {ps : List Part} {s₀ s : State} {ids : List ℕ} {f : Fail} (hs : Leads ps s₀ s)
    (hp : [Part.outbox, Part.freeCount, Part.ctr, Part.cores, Part.places, Part.groups, Part.pages, Part.arenaWait, Part.poolWait, Part.items, Part.boxes, Part.mem, Part.memPoison, Part.protUnits, Part.tier, Part.fab, Part.links] ⊆ ps) : Leads ps s₀ (State.failItems s ids f) := by
  unfold State.failItems
  repeat' first
    | with_reducible assumption
    | with_reducible refine State.failItem_leads ?_ ?_
    | (with_reducible refine Leads.foldl _ ?_ ?_; rotate_left; intro u x hu)

theorem State.modSession_leads {ps : List Part} {s₀ s : State} {n : ℕ} {f : Session → Session} (hs : Leads ps s₀ s)
    (hp : [Part.host] ⊆ ps) : Leads ps s₀ (State.modSession s n f) := by
  unfold State.modSession
  repeat' first
    | with_reducible assumption
    | with_reducible refine State.setHost_leads ?_ ?_

theorem State.respond_leads {ps : List Part} {s₀ s : State} {session : ℕ} {seq : ℕ} {status : ℕ} {payload : List Byte} (hs : Leads ps s₀ s)
    (hp : [Part.outbox, Part.ctr, Part.host] ⊆ ps) : Leads ps s₀ (State.respond s session seq status payload) := by
  unfold State.respond
  repeat' first
    | with_reducible assumption
    | with_reducible exact List.Subset.trans (List.Sublist.subset (by decide)) hp
    | extract_lets
    | with_reducible refine State.emit_leads ?_ ?_
    | with_reducible refine State.bump_leads ?_ ?_
    | with_reducible refine State.modSession_leads ?_ ?_

theorem State.writeEntry_leads {ps : List Part} {s₀ s : State} {b : ℕ} {dead : Bool} (hs : Leads ps s₀ s)
    (hp : [Part.outbox, Part.ctr, Part.boxes] ⊆ ps) : Leads ps s₀ (State.writeEntry s b dead) := by
  unfold State.writeEntry
  repeat' first
    | with_reducible assumption
    | with_reducible exact List.Subset.trans (List.Sublist.subset (by decide)) hp
    | extract_lets
    | with_reducible refine State.modBox_leads ?_ ?_
    | with_reducible refine State.bump_leads ?_ ?_
    | with_reducible refine State.emit_leads ?_ ?_
    | with_reducible refine Leads.ite ?_ ?_
    | split

theorem State.writeAll_leads {ps : List Part} {s₀ s : State} {fuel b : Nat} {dead : Bool} (hs : Leads ps s₀ s)
    (hp : [Part.outbox, Part.ctr, Part.boxes] ⊆ ps) : Leads ps s₀ (State.writeAll fuel s b dead) := by
  induction fuel generalizing s with
  | zero => exact hs
  | succ n ih => exact ih (State.writeEntry_leads hs hp)

theorem State.sendNotice_leads {ps : List Part} {s₀ s : State} {b : ℕ} {dead : Bool} (hs : Leads ps s₀ s)
    (hp : [Part.outbox, Part.ctr, Part.boxes] ⊆ ps) : Leads ps s₀ (State.sendNotice s b dead) := by
  unfold State.sendNotice
  repeat' first
    | with_reducible assumption
    | with_reducible exact List.Subset.trans (List.Sublist.subset (by decide)) hp
    | extract_lets
    | with_reducible refine State.modBox_leads ?_ ?_
    | with_reducible refine State.emit_leads ?_ ?_
    | with_reducible refine State.bump_leads ?_ ?_
    | with_reducible refine Leads.ite ?_ ?_

theorem State.unplaceQueue_leads {ps : List Part} {s₀ s : State} {c : ℕ} (hs : Leads ps s₀ s)
    (hp : [Part.cores, Part.items] ⊆ ps) : Leads ps s₀ (State.unplaceQueue s c) := by
  unfold State.unplaceQueue
  repeat' first
    | with_reducible assumption
    | with_reducible exact List.Subset.trans (List.Sublist.subset (by decide)) hp
    | extract_lets
    | with_reducible refine State.modEntry_leads ?_ ?_
    | with_reducible refine State.modCore_leads ?_ ?_ ?_
    | (with_reducible refine Leads.foldl _ ?_ ?_; rotate_left; intro u x hu)
    | exact fun _ h => h

theorem State.returnGrant_leads {ps : List Part} {s₀ s : State} {c : ℕ} (hs : Leads ps s₀ s)
    (hp : [Part.pwr] ⊆ ps) : Leads ps s₀ (State.returnGrant s c) := by
  unfold State.returnGrant
  repeat' first
    | with_reducible assumption
    | rfl
    | with_reducible refine Leads.pwr ?_ ?_ ?_

theorem State.takeOut_leads {ps : List Part} {s₀ s : State} {c : Nat} {st : CoreSt} {f : Fail} (hs : Leads ps s₀ s)
    (hp : [Part.outbox, Part.freeCount, Part.ctr, Part.cores, Part.places, Part.groups, Part.pages, Part.arenaWait,
      Part.poolWait, Part.items, Part.boxes, Part.mem, Part.memPoison, Part.protUnits, Part.tier, Part.fab, Part.links,
      Part.pwr] ⊆ ps) : Leads ps s₀ (s.takeOut c st f) :=
  State.failItems_leads (Leads.poolWait (Leads.places (State.returnGrant_leads (State.unplaceQueue_leads
    (State.modCore_leads (Leads.foldl _ (State.chargeRun_leads hs (List.Subset.trans (List.Sublist.subset (by decide)) hp)) (fun _ _ hu => State.noteCore_leads hu (List.Subset.trans (List.Sublist.subset (by decide)) hp))) (List.Subset.trans (List.Sublist.subset (by decide)) hp)
      (fun _ h => Core.shape_clearRun h)) (List.Subset.trans (List.Sublist.subset (by decide)) hp)) (List.Subset.trans (List.Sublist.subset (by decide)) hp)) (List.Subset.trans (List.Sublist.subset (by decide)) hp)) (List.Subset.trans (List.Sublist.subset (by decide)) hp)) (List.Subset.trans (List.Sublist.subset (by decide)) hp)

theorem State.unmapCore_leads {ps : List Part} {s₀ s : State} {c : ℕ} (hs : Leads ps s₀ s)
    (hp : [Part.regs, Part.log] ⊆ ps) : Leads ps s₀ (State.unmapCore s c) := by
  unfold State.unmapCore
  repeat' first
    | with_reducible assumption
    | with_reducible exact List.Subset.trans (List.Sublist.subset (by decide)) hp
    | with_reducible refine State.event_leads ?_ ?_
    | with_reducible refine State.setField_leads ?_ ?_
    | split

theorem State.acceptRecord_leads {ps : List Part} {s₀ s : State} {r : Record} (hs : Leads ps s₀ s)
    (hp : [Part.ctr, Part.log] ⊆ ps) : Leads ps s₀ (State.acceptRecord s r) := by
  unfold State.acceptRecord
  repeat' first
    | with_reducible assumption
    | with_reducible exact List.Subset.trans (List.Sublist.subset (by decide)) hp
    | extract_lets
    | with_reducible refine State.bump_leads ?_ ?_
    | with_reducible refine Leads.log ?_ ?_

theorem State.mirrorWrite_leads {ps : List Part} {s₀ s : State} {closing : Bool} (hs : Leads ps s₀ s)
    (hp : [Part.ctr, Part.log] ⊆ ps) : Leads ps s₀ (State.mirrorWrite s closing) := by
  unfold State.mirrorWrite
  repeat' first
    | with_reducible assumption
    | with_reducible exact List.Subset.trans (List.Sublist.subset (by decide)) hp
    | extract_lets
    | with_reducible refine State.bump_leads ?_ ?_
    | with_reducible refine Leads.log ?_ ?_

theorem State.flushRecorder_leads {ps : List Part} {s₀ s : State}  (hs : Leads ps s₀ s)
    (hp : [Part.ctr, Part.log] ⊆ ps) : Leads ps s₀ (State.flushRecorder s) := by
  unfold State.flushRecorder
  repeat' first
    | with_reducible assumption
    | with_reducible exact List.Subset.trans (List.Sublist.subset (by decide)) hp
    | extract_lets
    | with_reducible refine State.acceptRecord_leads ?_ ?_
    | with_reducible refine State.mirrorWrite_leads ?_ ?_
    | (with_reducible refine Leads.foldl _ ?_ ?_; rotate_left; intro u x hu)
    | with_reducible refine Leads.log ?_ ?_

theorem State.stopAll_leads {ps : List Part} {s₀ s : State}  (hs : Leads ps s₀ s)
    (hp : [Part.ctr, Part.cores, Part.poolWait, Part.items, Part.boxes] ⊆ ps) : Leads ps s₀ (State.stopAll s) := by
  unfold State.stopAll
  repeat' first
    | with_reducible assumption
    | with_reducible refine State.stopInstance_leads ?_ ?_
    | (with_reducible refine Leads.foldl _ ?_ ?_; rotate_left; intro u x hu)

theorem State.moduleReset_leads {ps : List Part} {s₀ s : State} {cause : Nat} {on : Bool} (hs : Leads ps s₀ s)
    (hp : [Part.pins, Part.time, Part.regs, Part.ctr, Part.cores, Part.places, Part.groups, Part.pages, Part.mirrors,
      Part.mirrorPages, Part.arenaWait, Part.poolWait, Part.items, Part.nextItem, Part.gang, Part.boxes, Part.mem,
      Part.memPoison, Part.protUnits, Part.hbm, Part.dies, Part.held, Part.tier, Part.cb, Part.fab, Part.links,
      Part.host, Part.log, Part.fw, Part.sec, Part.pwr, Part.test, Part.side] ⊆ ps) :
    Leads ps s₀ (s.moduleReset cause on) := by
  have m : ∀ p ∈ [Part.pins, Part.time, Part.regs, Part.ctr, Part.cores, Part.places, Part.groups, Part.pages,
      Part.mirrors, Part.mirrorPages, Part.arenaWait, Part.poolWait, Part.items, Part.nextItem, Part.gang, Part.boxes,
      Part.mem, Part.memPoison, Part.protUnits, Part.hbm, Part.dies, Part.held, Part.tier, Part.cb, Part.fab,
      Part.links, Part.host, Part.log, Part.fw, Part.sec, Part.pwr, Part.test, Part.side], p ∈ ps := fun _ h => hp h
  simp only [List.forall_mem_cons] at m
  refine hs.update ?_ (fun i => ⟨rfl, i.2.1, rfl, ?_, ?_, rfl, rfl, rfl, rfl, rfl, rfl⟩)
  · unfold Frame State.without
    obtain ⟨m0, m1, m2, m3, m4, m5, m6, m7, m8, m9, m10, m11, m12, m13, m14, m15, m16, m17, m18, m19, m20, m21, m22, m23, m24, m25, m26, m27, m28, m29, m30, m31, m32, -⟩ := m
    simp only [m0, m1, m2, m3, m4, m5, m6, m7, m8, m9, m10, m11, m12, m13, m14, m15, m16, m17, m18, m19, m20, m21, m22, m23, m24, m25, m26, m27, m28, m29, m30, m31, m32, if_true]
    rfl
  · intro k hk
    obtain rfl : k = {} := List.eq_of_mem_replicate hk
    refine ⟨rfl, fun q hq => ?_, rfl, rfl⟩
    obtain rfl : q = {} := List.eq_of_mem_replicate hq
    exact ⟨rfl, rfl⟩
  · show (List.map _ (List.zipIdx _ _)).length = 64
    rw [List.length_map, List.length_zipIdx]
    rfl

theorem State.leave_leads {ps : List Part} {s₀ s : State}  (hs : Leads ps s₀ s)
    (hp : [Part.outbox, Part.freeCount, Part.ctr, Part.cores, Part.poolWait, Part.items, Part.boxes, Part.fab, Part.links, Part.log] ⊆ ps) : Leads ps s₀ (State.leave s) := by
  unfold State.leave
  repeat' first
    | with_reducible assumption
    | with_reducible exact List.Subset.trans (List.Sublist.subset (by decide)) hp
    | extract_lets
    | with_reducible refine State.floodMsg_leads ?_ ?_
    | with_reducible refine State.flushRecorder_leads ?_ ?_
    | with_reducible refine State.stopAll_leads ?_ ?_

theorem State.shutdown_leads {ps : List Part} {s₀ s : State} {cause : ℕ} {mv : ℕ} (hs : Leads ps s₀ s)
    (hp : [Part.outbox, Part.freeCount, Part.pins, Part.time, Part.regs, Part.ctr, Part.cores, Part.places, Part.groups, Part.pages, Part.mirrors, Part.mirrorPages, Part.arenaWait, Part.poolWait, Part.items, Part.nextItem, Part.gang, Part.boxes, Part.mem, Part.memPoison, Part.protUnits, Part.hbm, Part.dies, Part.held, Part.tier, Part.cb, Part.fab, Part.links, Part.host, Part.log, Part.fw, Part.sec, Part.pwr, Part.test, Part.side] ⊆ ps) : Leads ps s₀ (State.shutdown s cause mv) := by
  unfold State.shutdown
  repeat' first
    | with_reducible assumption
    | with_reducible exact List.Subset.trans (List.Sublist.subset (by decide)) hp
    | extract_lets
    | with_reducible refine State.event_leads ?_ ?_
    | with_reducible refine State.moduleReset_leads ?_ ?_
    | with_reducible refine State.leave_leads ?_ ?_

theorem State.giveGrant_leads {ps : List Part} {s₀ s : State} {g : Grant} (hs : Leads ps s₀ s)
    (hp : [Part.ctr, Part.pwr] ⊆ ps) : Leads ps s₀ (State.giveGrant s g) := by
  unfold State.giveGrant
  repeat' first
    | with_reducible assumption
    | with_reducible exact List.Subset.trans (List.Sublist.subset (by decide)) hp
    | extract_lets
    | with_reducible refine State.setPwr_leads ?_ ?_ ?_
    | with_reducible refine State.peak_leads ?_ ?_
    | with_reducible refine State.bump_leads ?_ ?_
    | exact fun _ => rfl

theorem State.requestGrant_leads {ps : List Part} {s₀ s : State} {c : ℕ} {mode : ℕ} (hs : Leads ps s₀ s)
    (hp : [Part.ctr, Part.pwr] ⊆ ps) : Leads ps s₀ (State.requestGrant s c mode) := by
  unfold State.requestGrant
  repeat' first
    | with_reducible assumption
    | with_reducible exact List.Subset.trans (List.Sublist.subset (by decide)) hp
    | extract_lets
    | with_reducible refine State.giveGrant_leads ?_ ?_
    | with_reducible refine State.bump_leads ?_ ?_
    | with_reducible refine State.setPwr_leads ?_ ?_ ?_
    | with_reducible refine Leads.ite ?_ ?_
    | exact fun _ => rfl

theorem State.revoke_leads {ps : List Part} {s₀ s : State}  (hs : Leads ps s₀ s)
    (hp : [Part.ctr, Part.cores, Part.pwr] ⊆ ps) : Leads ps s₀ (State.revoke s) := by
  unfold State.revoke
  repeat' first
    | with_reducible assumption
    | with_reducible exact List.Subset.trans (List.Sublist.subset (by decide)) hp
    | extract_lets
    | with_reducible refine State.setPwr_leads ?_ ?_ ?_
    | with_reducible refine State.modCore_leads ?_ ?_ ?_
    | with_reducible refine State.bump_leads ?_ ?_
    | (with_reducible refine Leads.foldl _ ?_ ?_; rotate_left; intro u x hu)
    | exact fun _ => rfl
    | (intro _ hk; try dsimp only
       split <;> exact hk)

theorem State.sendBudget_leads {ps : List Part} {s₀ s : State} {p : ℕ} {stamps : ℕ} (hs : Leads ps s₀ s)
    (hp : [Part.outbox, Part.freeCount, Part.regs, Part.ctr, Part.fab, Part.links] ⊆ ps) : Leads ps s₀ (State.sendBudget s p stamps) := by
  unfold State.sendBudget
  repeat' first
    | with_reducible assumption
    | with_reducible exact List.Subset.trans (List.Sublist.subset (by decide)) hp
    | extract_lets
    | with_reducible refine State.floodMsg_leads ?_ ?_
    | with_reducible refine State.setField_leads ?_ ?_
    | with_reducible refine Leads.ite ?_ ?_

theorem State.powerBoundary_leads {ps : List Part} {s₀ s : State}  (hs : Leads ps s₀ s)
    (hp : [Part.ctr, Part.log, Part.pwr] ⊆ ps) : Leads ps s₀ (State.powerBoundary s) := by
  unfold State.powerBoundary
  repeat' first
    | with_reducible assumption
    | with_reducible exact List.Subset.trans (List.Sublist.subset (by decide)) hp
    | extract_lets
    | with_reducible refine State.setPwr_leads ?_ ?_ ?_
    | with_reducible refine State.event_leads ?_ ?_
    | with_reducible refine State.bump_leads ?_ ?_
    | with_reducible refine Leads.when ?_ ?_
    | with_reducible refine Leads.ite ?_ ?_
    | (intro _; simp; done)

theorem State.dropDie_leads {ps : List Part} {s₀ s : State} {d : Nat} {st : Rail} (hs : Leads ps s₀ s)
    (hp : [Part.outbox, Part.freeCount, Part.regs, Part.ctr, Part.cores, Part.places, Part.groups, Part.pages,
      Part.arenaWait, Part.poolWait, Part.items, Part.boxes, Part.mem, Part.memPoison, Part.protUnits, Part.tier,
      Part.fab, Part.links, Part.fw, Part.pwr] ⊆ ps) : Leads ps s₀ (s.dropDie d st) := by
  unfold State.dropDie
  extract_lets a b c
  have ha : Leads ps s₀ a := State.changed_leads (State.modRail_leads hs (List.Subset.trans (List.Sublist.subset (by decide)) hp)) (List.Subset.trans (List.Sublist.subset (by decide)) hp)
  have hb : Leads ps s₀ b := by
    refine Leads.foldl _ ha (fun u x hu => ?_)
    split
    · exact State.modCore_leads hu (List.Subset.trans (List.Sublist.subset (by decide)) hp) (fun _ h => h)
    · exact State.takeOut_leads hu (List.Subset.trans (List.Sublist.subset (by decide)) hp)
  clear_value a b
  exact Leads.fw hb (List.Subset.trans (List.Sublist.subset (by decide)) hp) rfl

theorem State.thermalEvent_leads {ps : List Part} {s₀ s : State} {celsius : ℕ} {enter : Bool} (hs : Leads ps s₀ s)
    (hp : [Part.freeCount, Part.log] ⊆ ps) : Leads ps s₀ (State.thermalEvent s celsius enter) := by
  unfold State.thermalEvent
  repeat' first
    | with_reducible assumption
    | with_reducible exact List.Subset.trans (List.Sublist.subset (by decide)) hp
    | extract_lets
    | with_reducible refine State.draw_leads ?_ ?_
    | with_reducible refine State.event_leads ?_ ?_

theorem State.takeRecord_leads {ps : List Part} {s₀ s : State} {r : Record} (hs : Leads ps s₀ s)
    (hp : [Part.ctr, Part.log] ⊆ ps) : Leads ps s₀ (State.takeRecord s r) := by
  unfold State.takeRecord
  repeat' first
    | with_reducible assumption
    | with_reducible exact List.Subset.trans (List.Sublist.subset (by decide)) hp
    | extract_lets
    | with_reducible refine State.bump_leads ?_ ?_
    | with_reducible refine State.acceptRecord_leads ?_ ?_
    | with_reducible refine Leads.ite ?_ ?_
    | with_reducible refine Leads.log ?_ ?_

theorem State.mirrorAtBoundary_leads {ps : List Part} {s₀ s : State}  (hs : Leads ps s₀ s)
    (hp : [Part.ctr, Part.log] ⊆ ps) : Leads ps s₀ (State.mirrorAtBoundary s) := by
  unfold State.mirrorAtBoundary
  repeat' first
    | with_reducible assumption
    | with_reducible exact List.Subset.trans (List.Sublist.subset (by decide)) hp
    | with_reducible refine State.mirrorWrite_leads ?_ ?_
    | with_reducible refine Leads.ite ?_ ?_
    | with_reducible refine Leads.log ?_ ?_

theorem State.loadWindow_leads {ps : List Part} {s₀ s : State}  (hs : Leads ps s₀ s)
    (hp : [Part.ctr, Part.log] ⊆ ps) : Leads ps s₀ (State.loadWindow s) := by
  unfold State.loadWindow
  repeat' first
    | with_reducible assumption
    | with_reducible exact List.Subset.trans (List.Sublist.subset (by decide)) hp
    | extract_lets
    | with_reducible refine State.bump_leads ?_ ?_
    | with_reducible refine Leads.log ?_ ?_

theorem State.logCursorWrite_leads {ps : List Part} {s₀ s : State} {lo : W32} (hs : Leads ps s₀ s)
    (hp : [Part.regs, Part.ctr, Part.log] ⊆ ps) : Leads ps s₀ (State.logCursorWrite s lo) := by
  unfold State.logCursorWrite
  repeat' first
    | with_reducible assumption
    | with_reducible exact List.Subset.trans (List.Sublist.subset (by decide)) hp
    | with_reducible refine State.loadWindow_leads ?_ ?_
    | with_reducible refine State.setReg_leads ?_ ?_

theorem State.logOldestRead_leads {ps : List Part} {s₀ s : State}  (hs : Leads ps s₀ s)
    (hp : [Part.regs] ⊆ ps) : Leads ps s₀ (State.logOldestRead s) := by
  unfold State.logOldestRead
  repeat' first
    | with_reducible assumption
    | extract_lets
    | with_reducible refine State.setReg_leads ?_ ?_

theorem State.roundNowRead_leads {ps : List Part} {s₀ s : State}  (hs : Leads ps s₀ s)
    (hp : [Part.regs] ⊆ ps) : Leads ps s₀ (State.roundNowRead s) := by
  unfold State.roundNowRead
  repeat' first
    | with_reducible assumption
    | with_reducible refine State.setReg_leads ?_ ?_

theorem State.counterLowRead_leads {ps : List Part} {s₀ s : State} {a : ℕ} (hs : Leads ps s₀ s)
    (hp : [Part.ctr] ⊆ ps) : Leads ps s₀ (State.counterLowRead s a) := by
  unfold State.counterLowRead
  repeat' first
    | with_reducible assumption
    | extract_lets
    | split
    | with_reducible refine Leads.ctr ?_ ?_

theorem State.sigPmRead_leads {ps : List Part} {s₀ s : State}  (hs : Leads ps s₀ s)
    (hp : [Part.regs] ⊆ ps) : Leads ps s₀ (State.sigPmRead s) := by
  unfold State.sigPmRead
  repeat' first
    | with_reducible assumption
    | with_reducible refine State.setReg_leads ?_ ?_

theorem State.sigCursorWrite_leads {ps : List Part} {s₀ s : State} {value : W32} (hs : Leads ps s₀ s)
    (hp : [Part.regs, Part.log] ⊆ ps) : Leads ps s₀ (State.sigCursorWrite s value) := by
  unfold State.sigCursorWrite
  repeat' first
    | with_reducible assumption
    | with_reducible exact List.Subset.trans (List.Sublist.subset (by decide)) hp
    | extract_lets
    | with_reducible refine State.setReg_leads ?_ ?_
    | with_reducible refine Leads.log ?_ ?_

theorem State.acceptAll_leads {ps : List Part} {s₀ s : State}  (hs : Leads ps s₀ s)
    (hp : [Part.ctr, Part.log] ⊆ ps) : Leads ps s₀ (State.acceptAll s) := by
  unfold State.acceptAll
  repeat' first
    | with_reducible assumption
    | with_reducible exact List.Subset.trans (List.Sublist.subset (by decide)) hp
    | with_reducible refine State.takeRecord_leads ?_ ?_
    | (with_reducible refine Leads.foldl _ ?_ ?_; rotate_left; intro u x hu)
    | with_reducible refine Leads.log ?_ ?_

theorem State.signature_leads {ps : List Part} {s₀ s : State} {kind : ℕ} {unit : ℕ} {detailA : W64} {detailB : W64} (hs : Leads ps s₀ s)
    (hp : [Part.ctr, Part.log] ⊆ ps) : Leads ps s₀ (State.signature s kind unit detailA detailB) := by
  unfold State.signature
  repeat' first
    | with_reducible assumption
    | with_reducible exact List.Subset.trans (List.Sublist.subset (by decide)) hp
    | extract_lets
    | with_reducible refine State.acceptAll_leads ?_ ?_
    | with_reducible refine State.takeRecord_leads ?_ ?_
    | with_reducible refine Leads.log ?_ ?_

theorem State.timeState_leads {ps : List Part} {s₀ s : State} {st : TimeSt} (hs : Leads ps s₀ s)
    (hp : [Part.time, Part.regs, Part.log] ⊆ ps) : Leads ps s₀ (State.timeState s st) := by
  unfold State.timeState
  repeat' first
    | with_reducible assumption
    | with_reducible exact List.Subset.trans (List.Sublist.subset (by decide)) hp
    | extract_lets
    | with_reducible refine State.setTime_leads ?_ ?_
    | with_reducible refine State.event_leads ?_ ?_
    | with_reducible refine State.changed_leads ?_ ?_
    | with_reducible refine Leads.ite ?_ ?_

theorem State.noteOffset_leads {ps : List Part} {s₀ s : State} {o : ℤ} (hs : Leads ps s₀ s)
    (hp : [Part.time, Part.regs] ⊆ ps) : Leads ps s₀ (State.noteOffset s o) := by
  unfold State.noteOffset
  repeat' first
    | with_reducible assumption
    | with_reducible exact List.Subset.trans (List.Sublist.subset (by decide)) hp
    | extract_lets
    | with_reducible refine State.setReg_leads ?_ ?_
    | with_reducible refine State.setTime_leads ?_ ?_

theorem State.loadCollections_leads {ps : List Part} {s₀ s : State}  (hs : Leads ps s₀ s)
    (hp : [Part.time, Part.log] ⊆ ps) : Leads ps s₀ (State.loadCollections s) := by
  unfold State.loadCollections
  repeat' first
    | with_reducible assumption
    | with_reducible exact List.Subset.trans (List.Sublist.subset (by decide)) hp
    | extract_lets
    | with_reducible refine State.setTime_leads ?_ ?_
    | with_reducible refine State.event_leads ?_ ?_
    | with_reducible refine Leads.when ?_ ?_
    | with_reducible refine Leads.ite ?_ ?_
    | (with_reducible refine Leads.foldl _ ?_ ?_; rotate_left; intro u x hu)

theorem State.loadWindows_leads {ps : List Part} {s₀ s : State}  (hs : Leads ps s₀ s)
    (hp : [Part.time, Part.log] ⊆ ps) : Leads ps s₀ (State.loadWindows s) := by
  unfold State.loadWindows
  repeat' first
    | with_reducible assumption
    | with_reducible exact List.Subset.trans (List.Sublist.subset (by decide)) hp
    | with_reducible refine State.setTime_leads ?_ ?_
    | with_reducible refine State.event_leads ?_ ?_
    | with_reducible refine Leads.ite ?_ ?_
    | (with_reducible refine Leads.foldl _ ?_ ?_; rotate_left; intro u x hu)
    | split

theorem State.latchCounters_leads {ps : List Part} {s₀ s : State}  (hs : Leads ps s₀ s)
    (hp : [Part.regs, Part.ctr] ⊆ ps) : Leads ps s₀ (State.latchCounters s) := by
  unfold State.latchCounters
  repeat' first
    | with_reducible assumption
    | with_reducible exact List.Subset.trans (List.Sublist.subset (by decide)) hp
    | extract_lets
    | with_reducible refine State.orReg_leads ?_ ?_
    | with_reducible refine Leads.ite ?_ ?_
    | (with_reducible refine Leads.foldl _ ?_ ?_; rotate_left; intro u x hu)
    | with_reducible refine Leads.ctr ?_ ?_

theorem State.restartRound_leads {ps : List Part} {s₀ s : State} (hs : Leads ps s₀ s)
    (hp : [Part.cores, Part.boxes, Part.hbm, Part.fab, Part.log] ⊆ ps) : Leads ps s₀ s.restartRound := by
  refine Leads.cores_boxes_hbm_fab_log hs hp (fun h => ⟨by simpa using h.1, fun k hk => ?_⟩) (by simp) (by simp)
  obtain ⟨y, hy, rfl⟩ := List.mem_map.1 hk
  exact h.2.1 y hy

theorem State.updateSat_leads {ps : List Part} {s₀ s : State}  (hs : Leads ps s₀ s)
    (hp : [Part.regs, Part.ctr, Part.fw] ⊆ ps) : Leads ps s₀ (State.updateSat s) := by
  unfold State.updateSat
  repeat' first
    | with_reducible assumption
    | with_reducible exact List.Subset.trans (List.Sublist.subset (by decide)) hp
    | extract_lets
    | with_reducible refine State.changed_leads ?_ ?_
    | with_reducible refine State.bump_leads ?_ ?_
    | with_reducible refine Leads.when ?_ ?_
    | rfl
    | with_reducible refine Leads.fw ?_ ?_ ?_

theorem State.endGang_leads {ps : List Part} {s₀ s : State}  (hs : Leads ps s₀ s)
    (hp : [Part.regs, Part.fw] ⊆ ps) : Leads ps s₀ (State.endGang s) := by
  unfold State.endGang
  repeat' first
    | with_reducible assumption
    | with_reducible exact List.Subset.trans (List.Sublist.subset (by decide)) hp
    | extract_lets
    | with_reducible refine State.setField_leads ?_ ?_
    | with_reducible refine Leads.ite ?_ ?_
    | (with_reducible refine Leads.foldl _ ?_ ?_; rotate_left; intro u x hu)
    | rfl
    | with_reducible refine Leads.fw ?_ ?_ ?_

theorem State.boundary_leads {ps : List Part} {s₀ s : State} {round : ℕ} {skipped : Option (ℕ × ℕ)} (hs : Leads ps s₀ s)
    (hp : [Part.time, Part.regs, Part.ctr, Part.cores, Part.boxes, Part.hbm, Part.fab, Part.log, Part.fw, Part.pwr] ⊆ ps) : Leads ps s₀ (State.boundary s round skipped) := by
  unfold State.boundary
  repeat' first
    | with_reducible assumption
    | with_reducible exact List.Subset.trans (List.Sublist.subset (by decide)) hp
    | extract_lets
    | with_reducible refine State.updateSat_leads ?_ ?_
    | with_reducible refine State.bump_leads ?_ ?_
    | with_reducible refine State.latchCounters_leads ?_ ?_
    | with_reducible refine State.setTime_leads ?_ ?_
    | with_reducible refine State.changed_leads ?_ ?_
    | with_reducible refine State.restartRound_leads ?_ ?_
    | with_reducible refine State.takeRecord_leads ?_ ?_
    | with_reducible refine State.mirrorAtBoundary_leads ?_ ?_
    | with_reducible refine State.powerBoundary_leads ?_ ?_
    | with_reducible refine State.revoke_leads ?_ ?_
    | with_reducible refine State.loadWindows_leads ?_ ?_
    | with_reducible refine State.loadCollections_leads ?_ ?_
    | with_reducible refine State.endGang_leads ?_ ?_
    | with_reducible refine Leads.when ?_ ?_
    | with_reducible refine Leads.ite ?_ ?_
    | with_reducible refine Leads.log ?_ ?_
    | with_reducible refine Leads.ctr ?_ ?_

theorem State.stepForward_leads {ps : List Part} {s₀ s : State} {t : ℕ} (hs : Leads ps s₀ s)
    (hp : [Part.time, Part.regs, Part.ctr, Part.cores, Part.boxes, Part.hbm, Part.fab, Part.log, Part.fw, Part.pwr] ⊆ ps) : Leads ps s₀ (State.stepForward s t) := by
  unfold State.stepForward
  repeat' first
    | with_reducible assumption
    | with_reducible exact List.Subset.trans (List.Sublist.subset (by decide)) hp
    | extract_lets
    | with_reducible refine State.setTime_leads ?_ ?_
    | with_reducible refine State.event_leads ?_ ?_
    | with_reducible refine State.bump_leads ?_ ?_
    | with_reducible refine State.boundary_leads ?_ ?_
    | with_reducible refine Leads.ite ?_ ?_

theorem State.slewTo_leads {ps : List Part} {s₀ s : State} {o : ℤ} (hs : Leads ps s₀ s)
    (hp : [Part.time, Part.ctr] ⊆ ps) : Leads ps s₀ (State.slewTo s o) := by
  unfold State.slewTo
  repeat' first
    | with_reducible assumption
    | with_reducible exact List.Subset.trans (List.Sublist.subset (by decide)) hp
    | extract_lets
    | with_reducible refine State.setTime_leads ?_ ?_
    | with_reducible refine State.bump_leads ?_ ?_

theorem State.countGood_leads {ps : List Part} {s₀ s : State} {o : ℤ} (hs : Leads ps s₀ s)
    (hp : [Part.time, Part.regs, Part.log] ⊆ ps) : Leads ps s₀ (State.countGood s o) := by
  unfold State.countGood
  repeat' first
    | with_reducible assumption
    | with_reducible exact List.Subset.trans (List.Sublist.subset (by decide)) hp
    | extract_lets
    | with_reducible refine State.setTime_leads ?_ ?_
    | with_reducible refine State.timeState_leads ?_ ?_
    | with_reducible refine Leads.ite ?_ ?_

theorem State.localStart_leads {ps : List Part} {s₀ s : State}  (hs : Leads ps s₀ s)
    (hp : [Part.time, Part.regs, Part.log] ⊆ ps) : Leads ps s₀ (State.localStart s) := by
  unfold State.localStart
  repeat' first
    | with_reducible assumption
    | with_reducible exact List.Subset.trans (List.Sublist.subset (by decide)) hp
    | with_reducible refine State.timeState_leads ?_ ?_
    | with_reducible refine State.setTime_leads ?_ ?_
    | with_reducible refine State.flagAccess_leads ?_ ?_
    | with_reducible refine Leads.ite ?_ ?_

theorem State.collect_leads {ps : List Part} {s₀ s : State}  (hs : Leads ps s₀ s)
    (hp : [Part.outbox, Part.freeCount, Part.ctr, Part.items, Part.boxes, Part.fab, Part.links] ⊆ ps) : Leads ps s₀ (State.collect s) := by
  unfold State.collect
  repeat' first
    | with_reducible assumption
    | with_reducible exact List.Subset.trans (List.Sublist.subset (by decide)) hp
    | extract_lets
    | with_reducible refine State.postItem_leads ?_ ?_
    | with_reducible refine State.modItem_leads ?_ ?_
    | (with_reducible refine Leads.foldl _ ?_ ?_; rotate_left; intro u x hu)

theorem State.drainCore_leads {ps : List Part} {s₀ s : State} {c : ℕ} (hs : Leads ps s₀ s)
    (hp : [Part.regs, Part.cores] ⊆ ps) : Leads ps s₀ (State.drainCore s c) := by
  unfold State.drainCore
  repeat' first
    | with_reducible assumption
    | with_reducible exact List.Subset.trans (List.Sublist.subset (by decide)) hp
    | extract_lets
    | with_reducible refine State.changed_leads ?_ ?_
    | with_reducible refine State.modCore_leads ?_ ?_ ?_
    | with_reducible refine Leads.ite ?_ ?_
    | exact fun _ h => h

theorem State.resumeCore_leads {ps : List Part} {s₀ s : State} {c : ℕ} (hs : Leads ps s₀ s)
    (hp : [Part.regs, Part.cores] ⊆ ps) : Leads ps s₀ (State.resumeCore s c) := by
  unfold State.resumeCore
  repeat' first
    | with_reducible assumption
    | with_reducible exact List.Subset.trans (List.Sublist.subset (by decide)) hp
    | with_reducible refine State.changed_leads ?_ ?_
    | with_reducible refine State.modCore_leads ?_ ?_ ?_
    | with_reducible refine Leads.when ?_ ?_
    | exact fun _ h => h

theorem State.fenceCore_leads {ps : List Part} {s₀ s : State} {c : ℕ} {cause : ℕ} (hs : Leads ps s₀ s)
    (hp : [Part.outbox, Part.freeCount, Part.regs, Part.ctr, Part.cores, Part.places, Part.groups, Part.pages, Part.arenaWait, Part.poolWait, Part.items, Part.boxes, Part.mem, Part.memPoison, Part.protUnits, Part.tier, Part.fab, Part.links, Part.log, Part.fw, Part.pwr] ⊆ ps) : Leads ps s₀ (State.fenceCore s c cause) := by
  unfold State.fenceCore
  repeat' first
    | with_reducible assumption
    | with_reducible exact List.Subset.trans (List.Sublist.subset (by decide)) hp
    | extract_lets
    | with_reducible refine State.takeOut_leads ?_ ?_
    | with_reducible refine State.modCore_leads ?_ ?_ ?_
    | with_reducible refine State.event_leads ?_ ?_
    | with_reducible refine State.changed_leads ?_ ?_
    | exact fun _ h => h
    | rfl
    | with_reducible refine Leads.fw ?_ ?_ ?_

theorem State.substitute_leads {ps : List Part} {s₀ s : State} {logical : ℕ} (hs : Leads ps s₀ s)
    (hp : [Part.regs, Part.cores, Part.log] ⊆ ps) : Leads ps s₀ (State.substitute s logical) := by
  unfold State.substitute
  repeat' first
    | with_reducible assumption
    | with_reducible exact List.Subset.trans (List.Sublist.subset (by decide)) hp
    | extract_lets
    | with_reducible refine State.event_leads ?_ ?_
    | with_reducible refine State.changed_leads ?_ ?_
    | with_reducible refine State.setField_leads ?_ ?_
    | with_reducible refine State.setReg_leads ?_ ?_
    | with_reducible refine State.modCore_leads ?_ ?_ ?_
    | with_reducible refine State.resumeCore_leads ?_ ?_
    | with_reducible refine Leads.ite ?_ ?_
    | exact fun _ h => h
    | split

theorem State.endSliceGrant_leads {ps : List Part} {s₀ s : State} {c : ℕ} (hs : Leads ps s₀ s)
    (hp : [Part.pwr] ⊆ ps) : Leads ps s₀ (State.endSliceGrant s c) := by
  unfold State.endSliceGrant
  repeat' first
    | with_reducible assumption
    | with_reducible refine State.setPwr_leads ?_ ?_ ?_
    | exact fun _ => rfl

theorem State.phParity_leads {ps : List Part} {s₀ s : State} {c ph n : ℕ} {u : Bool} (hs : Leads ps s₀ s)
    (hp : [Part.regs, Part.ctr, Part.cores] ⊆ ps) : Leads ps s₀ (s.phParity c ph u n) := by
  have h1 : Leads ps s₀ (s.modCore c (fun k => { k with phCe := k.phCe.set ph n })) :=
    State.modCore_leads hs (List.Subset.trans (List.Sublist.subset (by decide)) hp) (fun _ h => h)
  unfold State.phParity
  have h2 : Leads ps s₀ ((s.modCore c (fun k => { k with phCe := k.phCe.set ph n })).when (decide (0 < n))
      (((s.modCore c (fun k => { k with phCe := k.phCe.set ph n })).flag .acm c 1 2 (ph * 2 ^ 18)).bump .acm c 0
        (n - (s.core c).phCe.getD ph 0))) := Leads.when h1 (State.bump_leads (State.flag_leads h1 (List.Subset.trans (List.Sublist.subset (by decide)) hp)) (List.Subset.trans (List.Sublist.subset (by decide)) hp))
  exact Leads.when h2 (State.bump_leads (State.flag_leads (State.modCore_leads h2 (List.Subset.trans (List.Sublist.subset (by decide)) hp)
    (fun _ h => ⟨h.1, h.2.1, h.2.2⟩)) (List.Subset.trans (List.Sublist.subset (by decide)) hp)) (List.Subset.trans (List.Sublist.subset (by decide)) hp))

theorem State.retirePh_leads {ps : List Part} {s₀ s : State} {core : ℕ} {ph : ℕ} {uncorrectable : Bool} (hs : Leads ps s₀ s)
    (hp : [Part.regs, Part.ctr, Part.cores, Part.log, Part.sec] ⊆ ps) : Leads ps s₀ (State.retirePh s core ph uncorrectable) := by
  unfold State.retirePh
  repeat' first
    | with_reducible assumption
    | with_reducible exact List.Subset.trans (List.Sublist.subset (by decide)) hp
    | extract_lets
    | with_reducible refine State.changed_leads ?_ ?_
    | with_reducible refine State.modCore_leads ?_ ?_ ?_
    | with_reducible refine State.event_leads ?_ ?_
    | with_reducible refine State.bump_leads ?_ ?_
    | exact fun _ h => h
    | with_reducible refine Leads.sec ?_ ?_

end Sys2Proof.Machine
end

