-- ==== Sys2Proof/Laws/LeadsMemory.lean ====
section
/-! SUPPORT. Frames of the memory, holdings, firmware, images, codebooks, boxes, instances, the loader and admission. -/

namespace Sys2Proof.Machine

theorem State.atomic_leads {ps : List Part} {s₀ s : State} {da : ℕ} {f : W64 → W64} (hs : Leads ps s₀ s)
    (hp : [Part.outbox, Part.ctr, Part.mem, Part.memPoison, Part.tier] ⊆ ps) : Leads ps s₀ (State.atomic s da f) := by
  unfold State.atomic
  repeat' first
    | with_reducible assumption
    | with_reducible exact List.Subset.trans (List.Sublist.subset (by decide)) hp
    | extract_lets
    | with_reducible refine State.memWrite_leads ?_ ?_
    | with_reducible refine State.emit_leads ?_ ?_
    | with_reducible refine State.bump_leads ?_ ?_
    | with_reducible refine Leads.ite ?_ ?_
    | split

theorem State.reducePage_leads {ps : List Part} {s₀ s : State} {b : ℕ} {va : ℕ} {bytes : List Byte} {bad : ℕ → Bool} (hs : Leads ps s₀ s)
    (hp : [Part.ctr, Part.mem, Part.memPoison, Part.tier] ⊆ ps) : Leads ps s₀ (State.reducePage s b va bytes bad) := by
  unfold State.reducePage
  repeat' first
    | with_reducible assumption
    | with_reducible exact List.Subset.trans (List.Sublist.subset (by decide)) hp
    | extract_lets
    | with_reducible refine State.bump_leads ?_ ?_
    | with_reducible refine State.memWrite_leads ?_ ?_
    | (with_reducible refine Leads.foldl _ ?_ ?_; rotate_left; intro u x hu)
    | split

theorem State.storeFuel_leads {ps : List Part} {s₀ s : State} {fuel b va : Nat} {bytes : List Byte} {bad : Nat → Bool}
    (hs : Leads ps s₀ s) (hp : [Part.ctr, Part.mem, Part.memPoison, Part.protUnits, Part.tier] ⊆ ps) :
    Leads ps s₀ (State.storeFuel fuel s b va bytes bad) := by
  induction fuel generalizing s va bytes bad with
  | zero => exact hs
  | succ n ih =>
    simp only [State.storeFuel]
    split
    · exact hs
    · exact ih (Leads.ite (State.reducePage_leads hs (List.Subset.trans (List.Sublist.subset (by decide)) hp)) (State.writePage_leads hs (List.Subset.trans (List.Sublist.subset (by decide)) hp)))

theorem State.storeBox_leads {ps : List Part} {s₀ s : State} {b : ℕ} {va : ℕ} {bytes : List Byte} {bad : ℕ → Bool} (hs : Leads ps s₀ s)
    (hp : [Part.ctr, Part.mem, Part.memPoison, Part.protUnits, Part.tier] ⊆ ps) : Leads ps s₀ (State.storeBox s b va bytes bad) := by
  unfold State.storeBox
  repeat' first
    | with_reducible assumption
    | with_reducible refine State.storeFuel_leads ?_ ?_

theorem State.debit_leads {ps : List Part} {s₀ s : State} {d : ℕ} {b : ℕ} {n : ℕ} (hs : Leads ps s₀ s)
    (hp : [Part.dies] ⊆ ps) : Leads ps s₀ (State.debit s d b n) := by
  unfold State.debit
  repeat' first
    | with_reducible assumption
    | extract_lets
    | with_reducible refine State.modDie_leads ?_ ?_

theorem State.regTake_leads {ps : List Part} {s₀ s : State} {d : ℕ} {b : ℕ} {n : ℕ} (hs : Leads ps s₀ s)
    (hp : [Part.dies] ⊆ ps) : Leads ps s₀ (State.regTake s d b n) := by
  unfold State.regTake
  repeat' first
    | with_reducible assumption
    | with_reducible refine State.modDie_leads ?_ ?_
    | with_reducible refine State.debit_leads ?_ ?_
    | with_reducible refine Leads.ite ?_ ?_

theorem State.regWait_leads {ps : List Part} {s₀ s : State} {d : ℕ} {b : ℕ} {n : ℕ} (hs : Leads ps s₀ s)
    (hp : [Part.dies] ⊆ ps) : Leads ps s₀ (State.regWait s d b n) := by
  unfold State.regWait
  repeat' first
    | with_reducible assumption
    | with_reducible refine State.modDie_leads ?_ ?_
    | with_reducible refine Leads.ite ?_ ?_

theorem State.pickTarget_leads {ps : List Part} {s₀ s : State} {d : ℕ} (hs : Leads ps s₀ s)
    (hp : [Part.freeCount] ⊆ ps) : Leads ps s₀ (State.pickTarget s d).2 := by
  unfold State.pickTarget
  repeat' first
    | with_reducible assumption
    | extract_lets
    | with_reducible refine State.draw_leads ?_ ?_
    | split

theorem State.chooseTargets_leads {ps : List Part} {s₀ s : State} {d : Nat} {l : List Nat} (hs : Leads ps s₀ s)
    (hp : [Part.freeCount, Part.dies, Part.log] ⊆ ps) : Leads ps s₀ (s.chooseTargets d l) := by
  induction l generalizing s with
  | nil => exact hs
  | cons p l ih =>
    simp only [State.chooseTargets]
    split
    · exact ih (State.modDie_leads (State.pickTarget_leads hs (List.Subset.trans (List.Sublist.subset (by decide)) hp)) (List.Subset.trans (List.Sublist.subset (by decide)) hp))
    · exact State.event_leads (State.modDie_leads (State.pickTarget_leads hs (List.Subset.trans (List.Sublist.subset (by decide)) hp)) (List.Subset.trans (List.Sublist.subset (by decide)) hp)) (List.Subset.trans (List.Sublist.subset (by decide)) hp)

theorem State.mapOut_leads {ps : List Part} {s₀ s : State} {stack : ℕ} {ch : ℕ} {cause : ℕ} (hs : Leads ps s₀ s)
    (hp : [Part.freeCount, Part.regs, Part.hbm, Part.dies, Part.log, Part.sec] ⊆ ps) : Leads ps s₀ (State.mapOut s stack ch cause) := by
  unfold State.mapOut
  repeat' first
    | with_reducible assumption
    | with_reducible exact List.Subset.trans (List.Sublist.subset (by decide)) hp
    | extract_lets
    | with_reducible refine State.event_leads ?_ ?_
    | with_reducible refine State.modStack_leads ?_ ?_
    | with_reducible refine State.changed_leads ?_ ?_
    | with_reducible refine State.modDie_leads ?_ ?_
    | with_reducible refine State.chooseTargets_leads ?_ ?_
    | with_reducible refine Leads.ite ?_ ?_
    | (with_reducible refine Leads.foldl _ ?_ ?_; rotate_left; intro u x hu)
    | with_reducible refine Leads.sec ?_ ?_

theorem State.makeRoom_leads {ps : List Part} {s₀ s : State} {d : ℕ} (hs : Leads ps s₀ s)
    (hp : [Part.tier] ⊆ ps) : LeadsO ps s₀ (State.makeRoom s d) := by
  unfold State.makeRoom
  repeat' first
    | with_reducible assumption
    | extract_lets
    | with_reducible refine State.setTier_leads ?_ ?_ ?_
    | with_reducible refine State.modGranule_leads ?_ ?_
    | (intro _; simp; done)
    | refine LeadsO.some ?_
    | split

theorem State.startFill_leads {ps : List Part} {s₀ s : State} {g : ℕ} {w : List GrWait} {hint : ℕ} (hs : Leads ps s₀ s)
    (hp : [Part.ctr, Part.tier] ⊆ ps) : Leads ps s₀ (State.startFill s g w hint) := by
  unfold State.startFill
  repeat' first
    | with_reducible assumption
    | with_reducible exact List.Subset.trans (List.Sublist.subset (by decide)) hp
    | extract_lets
    | with_reducible refine State.modGranule_leads ?_ ?_
    | refine LeadsO.get (by assumption) (State.makeRoom_leads ?_ (List.Subset.trans (List.Sublist.subset (by decide)) hp))
    | with_reducible refine State.setTier_leads ?_ ?_ ?_
    | with_reducible refine State.bump_leads ?_ ?_
    | with_reducible refine Leads.ite ?_ ?_
    | (intro _; simp; done)
    | split

theorem State.touch_leads {ps : List Part} {s₀ s : State} {b : ℕ} {va : ℕ} (hs : Leads ps s₀ s)
    (hp : [Part.ctr, Part.tier] ⊆ ps) : Leads ps s₀ (State.touch s b va) := by
  unfold State.touch
  repeat' first
    | with_reducible assumption
    | with_reducible exact List.Subset.trans (List.Sublist.subset (by decide)) hp
    | extract_lets
    | with_reducible refine State.startFill_leads ?_ ?_
    | with_reducible refine State.bump_leads ?_ ?_
    | with_reducible refine Leads.ite ?_ ?_
    | split

theorem State.beginWriteback_leads {ps : List Part} {s₀ s : State} {g : ℕ} (hs : Leads ps s₀ s)
    (hp : [Part.tier] ⊆ ps) : Leads ps s₀ (State.beginWriteback s g) := by
  unfold State.beginWriteback
  repeat' first
    | with_reducible assumption
    | with_reducible refine State.modGranule_leads ?_ ?_

theorem State.flushGranule_leads {ps : List Part} {s₀ s : State} {g : ℕ} (hs : Leads ps s₀ s)
    (hp : [Part.ctr, Part.tier] ⊆ ps) : Leads ps s₀ (State.flushGranule s g) := by
  unfold State.flushGranule
  repeat' first
    | with_reducible assumption
    | with_reducible exact List.Subset.trans (List.Sublist.subset (by decide)) hp
    | with_reducible refine State.bump_leads ?_ ?_
    | with_reducible refine State.modGranule_leads ?_ ?_
    | with_reducible refine State.flushData_leads ?_ ?_
    | with_reducible refine Leads.ite ?_ ?_
    | split

theorem State.dropGranule_leads {ps : List Part} {s₀ s : State} {g : ℕ} (hs : Leads ps s₀ s)
    (hp : [Part.tier] ⊆ ps) : Leads ps s₀ (State.dropGranule s g) := by
  unfold State.dropGranule
  repeat' first
    | with_reducible assumption
    | with_reducible refine State.modGranule_leads ?_ ?_
    | with_reducible refine State.setTier_leads ?_ ?_ ?_
    | with_reducible refine Leads.ite ?_ ?_
    | (intro _; simp; done)
    | split

theorem State.tierRun_leads {ps : List Part} {s₀ s : State} {op : ℕ} {b : ℕ} {va : ℕ} {units : ℕ} (hs : Leads ps s₀ s)
    (hp : [Part.ctr, Part.tier] ⊆ ps) : Leads ps s₀ (State.tierRun s op b va units) := by
  unfold State.tierRun
  repeat' first
    | with_reducible assumption
    | with_reducible exact List.Subset.trans (List.Sublist.subset (by decide)) hp
    | extract_lets
    | with_reducible refine State.setTier_leads ?_ ?_ ?_
    | with_reducible refine State.startFill_leads ?_ ?_
    | with_reducible refine State.flushGranule_leads ?_ ?_
    | with_reducible refine State.dropGranule_leads ?_ ?_
    | with_reducible refine Leads.ite ?_ ?_
    | (with_reducible refine Leads.foldl _ ?_ ?_; rotate_left; intro u x hu)
    | (intro _; simp; done)
    | split

theorem State.tierCmd_leads {ps : List Part} {s₀ s : State} {op : ℕ} {b : ℕ} {va : ℕ} {units : ℕ} (hs : Leads ps s₀ s)
    (hp : [Part.regs, Part.ctr, Part.tier] ⊆ ps) : Leads ps s₀ (State.tierCmd s op b va units) := by
  unfold State.tierCmd
  repeat' first
    | with_reducible assumption
    | with_reducible exact List.Subset.trans (List.Sublist.subset (by decide)) hp
    | with_reducible refine State.flagAccess_leads ?_ ?_
    | with_reducible refine State.setTier_leads ?_ ?_ ?_
    | with_reducible refine State.tierRun_leads ?_ ?_
    | with_reducible refine Leads.ite ?_ ?_
    | (intro _; simp; done)

theorem State.tierResume_leads {ps : List Part} {s₀ s : State}  (hs : Leads ps s₀ s)
    (hp : [Part.outbox, Part.ctr, Part.tier, Part.host] ⊆ ps) : Leads ps s₀ (State.tierResume s) := by
  unfold State.tierResume
  repeat' first
    | with_reducible assumption
    | with_reducible exact List.Subset.trans (List.Sublist.subset (by decide)) hp
    | extract_lets
    | with_reducible refine State.tierRun_leads ?_ ?_
    | with_reducible refine State.setTier_leads ?_ ?_ ?_
    | with_reducible refine State.respond_leads ?_ ?_
    | with_reducible refine State.setHost_leads ?_ ?_
    | (intro _; simp; done)
    | split

theorem State.relocateBlock_leads {ps : List Part} {s₀ s : State} {blk : ℕ} (hs : Leads ps s₀ s)
    (hp : [Part.ctr, Part.tier] ⊆ ps) : Leads ps s₀ (State.relocateBlock s blk) := by
  unfold State.relocateBlock
  repeat' first
    | with_reducible assumption
    | with_reducible exact List.Subset.trans (List.Sublist.subset (by decide)) hp
    | with_reducible refine State.bump_leads ?_ ?_
    | with_reducible refine State.setTier_leads ?_ ?_ ?_
    | (intro _; simp; done)

theorem State.holdPages_leads {ps : List Part} {s₀ s : State} {use : PageUse} {n : Nat} {gaps : List (Nat × Nat)}
    (hs : Leads ps s₀ s) (hp : [Part.freeCount, Part.held] ⊆ ps) : LeadsO ps s₀ (s.holdPages use n gaps) := by
  unfold State.holdPages
  split
  · exact LeadsO.some hs
  · intro t ht
    obtain ⟨l, -, rfl⟩ := Option.map_eq_some_iff.1 ht
    exact Leads.held (State.draw_leads hs (List.Subset.trans (List.Sublist.subset (by decide)) hp)) (List.Subset.trans (List.Sublist.subset (by decide)) hp)

theorem State.releaseHeld_leads {ps : List Part} {s₀ s : State} {use : PageUse} (hs : Leads ps s₀ s)
    (hp : [Part.held] ⊆ ps) : Leads ps s₀ (State.releaseHeld s use) := by
  unfold State.releaseHeld
  repeat' first
    | with_reducible assumption
    | with_reducible refine Leads.held ?_ ?_

theorem State.holdBox_leads {ps : List Part} {s₀ s : State} {b : ℕ} (hs : Leads ps s₀ s)
    (hp : [Part.freeCount, Part.held] ⊆ ps) : LeadsO ps s₀ (State.holdBox s b) := by
  unfold State.holdBox
  repeat' first
    | with_reducible assumption
    | extract_lets
    | with_reducible refine State.holdPages_leads ?_ ?_
    | (with_reducible refine LeadsO.bind ?_ ?_; rotate_left; intro t ht)

theorem State.growTable_leads {ps : List Part} {s₀ s : State} {b : ℕ} {va : ℕ} (hs : Leads ps s₀ s)
    (hp : [Part.freeCount, Part.boxes, Part.held] ⊆ ps) : LeadsO ps s₀ (State.growTable s b va) := by
  unfold State.growTable
  repeat' first
    | with_reducible assumption
    | with_reducible exact List.Subset.trans (List.Sublist.subset (by decide)) hp
    | extract_lets
    | with_reducible refine State.modBox_leads ?_ ?_
    | with_reducible refine State.holdPages_leads ?_ ?_
    | (with_reducible refine LeadsO.map ?_ ?_; rotate_left; intro t ht)
    | refine LeadsO.some ?_
    | split

theorem State.holdModule_leads {ps : List Part} {s₀ s : State} (hs : Leads ps s₀ s)
    (hp : [Part.freeCount, Part.held] ⊆ ps) : Leads ps s₀ s.holdModule := by
  unfold State.holdModule
  extract_lets share a c
  have ha : Leads ps s₀ a :=
    Leads.foldl _ hs (fun u x hu => LeadsO.getD (State.holdPages_leads hu (List.Subset.trans (List.Sublist.subset (by decide)) hp)) hu)
  exact LeadsO.getD (State.holdPages_leads (State.draw_leads ha (List.Subset.trans (List.Sublist.subset (by decide)) hp)) (List.Subset.trans (List.Sublist.subset (by decide)) hp)) (State.draw_leads ha (List.Subset.trans (List.Sublist.subset (by decide)) hp))

theorem State.escalate_leads {ps : List Part} {s₀ s : State} {component : ℕ} {first : ℕ} {second : ℕ} {cause : ℕ} (hs : Leads ps s₀ s)
    (hp : [Part.outbox, Part.freeCount, Part.pins, Part.time, Part.regs, Part.ctr, Part.cores, Part.places, Part.groups, Part.pages, Part.mirrors, Part.mirrorPages, Part.arenaWait, Part.poolWait, Part.items, Part.nextItem, Part.gang, Part.boxes, Part.mem, Part.memPoison, Part.protUnits, Part.hbm, Part.dies, Part.held, Part.tier, Part.cb, Part.fab, Part.links, Part.host, Part.log, Part.fw, Part.sec, Part.pwr, Part.test, Part.side] ⊆ ps) : Leads ps s₀ (State.escalate s component first second cause) := by
  unfold State.escalate
  repeat' first
    | with_reducible assumption
    | with_reducible exact List.Subset.trans (List.Sublist.subset (by decide)) hp
    | extract_lets
    | with_reducible refine State.setFw_leads ?_ ?_ ?_
    | with_reducible refine State.event_leads ?_ ?_
    | with_reducible refine State.changed_leads ?_ ?_
    | with_reducible refine State.bump_leads ?_ ?_
    | with_reducible refine State.moduleReset_leads ?_ ?_
    | with_reducible refine State.leave_leads ?_ ?_
    | (intro _; simp; done)

theorem State.beginRestart_leads {ps : List Part} {s₀ s : State} {k : ℕ} {cause : ℕ} {proc : ℕ} {pc : W64} (hs : Leads ps s₀ s)
    (hp : [Part.regs, Part.ctr, Part.tier, Part.log, Part.fw] ⊆ ps) : Leads ps s₀ (State.beginRestart s k cause proc pc) := by
  unfold State.beginRestart
  repeat' first
    | with_reducible assumption
    | with_reducible exact List.Subset.trans (List.Sublist.subset (by decide)) hp
    | extract_lets
    | with_reducible refine State.modComp_leads ?_ ?_
    | with_reducible refine State.setFw_leads ?_ ?_ ?_
    | with_reducible refine State.event_leads ?_ ?_
    | with_reducible refine State.changed_leads ?_ ?_
    | with_reducible refine State.bump_leads ?_ ?_
    | with_reducible refine State.setField_leads ?_ ?_
    | with_reducible refine Leads.when ?_ ?_
    | (with_reducible refine Leads.foldl _ ?_ ?_; rotate_left; intro u x hu)
    | exact fun _ => rfl
    | exact fun h => h
    | with_reducible refine Leads.tier ?_ ?_ ?_

theorem State.faultComp_leads {ps : List Part} {s₀ s : State} {k : ℕ} {cause : ℕ} {proc : ℕ} {pc : W64} (hs : Leads ps s₀ s)
    (hp : [Part.outbox, Part.freeCount, Part.pins, Part.time, Part.regs, Part.ctr, Part.cores, Part.places, Part.groups, Part.pages, Part.mirrors, Part.mirrorPages, Part.arenaWait, Part.poolWait, Part.items, Part.nextItem, Part.gang, Part.boxes, Part.mem, Part.memPoison, Part.protUnits, Part.hbm, Part.dies, Part.held, Part.tier, Part.cb, Part.fab, Part.links, Part.host, Part.log, Part.fw, Part.sec, Part.pwr, Part.test, Part.side] ⊆ ps) : Leads ps s₀ (State.faultComp s k cause proc pc) := by
  unfold State.faultComp
  repeat' first
    | with_reducible assumption
    | with_reducible exact List.Subset.trans (List.Sublist.subset (by decide)) hp
    | extract_lets
    | with_reducible refine State.escalate_leads ?_ ?_
    | with_reducible refine State.modComp_leads ?_ ?_
    | with_reducible refine State.beginRestart_leads ?_ ?_
    | with_reducible refine Leads.ite ?_ ?_

theorem State.hostRestart_leads {ps : List Part} {s₀ s : State} {k : ℕ} (hs : Leads ps s₀ s)
    (hp : [Part.regs, Part.ctr, Part.tier, Part.log, Part.fw] ⊆ ps) : Leads ps s₀ (State.hostRestart s k) := by
  unfold State.hostRestart
  repeat' first
    | with_reducible assumption
    | with_reducible exact List.Subset.trans (List.Sublist.subset (by decide)) hp
    | with_reducible refine State.beginRestart_leads ?_ ?_
    | with_reducible refine State.flagAccess_leads ?_ ?_
    | with_reducible refine Leads.ite ?_ ?_

theorem State.startTest_leads {ps : List Part} {s₀ s : State} (hs : Leads ps s₀ s)
    (hp : [Part.freeCount, Part.cores] ⊆ ps) : Leads ps s₀ s.startTest := by
  refine Leads.cores (State.draw_leads hs (List.Subset.trans (List.Sublist.subset (by decide)) hp)) (List.Subset.trans (List.Sublist.subset (by decide)) hp) (fun h => ⟨by simpa using h.1, fun k hk => ?_⟩)
  obtain ⟨⟨y, n⟩, hy, rfl⟩ := List.mem_map.1 hk
  exact h.2.1 y (List.fst_mem_of_mem_zipIdx hy)

theorem State.runTask_leads {ps : List Part} {s₀ s : State} {t : Task} (hs : Leads ps s₀ s)
    (hp : [Part.regs, Part.ctr, Part.cores, Part.log] ⊆ ps) : Leads ps s₀ (State.runTask s t) := by
  unfold State.runTask
  repeat' first
    | with_reducible assumption
    | with_reducible exact List.Subset.trans (List.Sublist.subset (by decide)) hp
    | with_reducible refine State.substitute_leads ?_ ?_
    | with_reducible refine State.signature_leads ?_ ?_
    | split

theorem State.measure_leads {ps : List Part} {s₀ s : State} {m : Measure} (hs : Leads ps s₀ s)
    (hp : [Part.ctr, Part.sec] ⊆ ps) : Leads ps s₀ (State.measure s m) := by
  unfold State.measure
  repeat' first
    | with_reducible assumption
    | with_reducible exact List.Subset.trans (List.Sublist.subset (by decide)) hp
    | extract_lets
    | with_reducible refine State.setSec_leads ?_ ?_
    | with_reducible refine State.bump_leads ?_ ?_
    | with_reducible refine Leads.ite ?_ ?_

theorem State.writeField_leads {ps : List Part} {s₀ s : State}  (hs : Leads ps s₀ s)
    (hp : [Part.sec] ⊆ ps) : Leads ps s₀ (State.writeField s) := by
  unfold State.writeField
  repeat' first
    | with_reducible assumption
    | with_reducible refine State.setSec_leads ?_ ?_

theorem State.startRecorder_leads {ps : List Part} {s₀ s : State}  (hs : Leads ps s₀ s)
    (hp : [Part.ctr, Part.log] ⊆ ps) : Leads ps s₀ (State.startRecorder s) := by
  unfold State.startRecorder
  repeat' first
    | with_reducible assumption
    | with_reducible exact List.Subset.trans (List.Sublist.subset (by decide)) hp
    | extract_lets
    | with_reducible refine State.takeRecord_leads ?_ ?_
    | with_reducible refine Leads.log ?_ ?_

theorem State.readPassport_leads {ps : List Part} {s₀ s : State}  (hs : Leads ps s₀ s)
    (hp : [Part.log, Part.sec] ⊆ ps) : Leads ps s₀ (State.readPassport s) := by
  unfold State.readPassport
  repeat' first
    | with_reducible assumption
    | with_reducible exact List.Subset.trans (List.Sublist.subset (by decide)) hp
    | extract_lets
    | with_reducible refine State.setSec_leads ?_ ?_
    | with_reducible refine State.event_leads ?_ ?_
    | with_reducible refine Leads.when ?_ ?_

theorem State.applyRetired_leads {ps : List Part} {s₀ s : State} (hs : Leads ps s₀ s)
    (hp : [Part.regs, Part.cores] ⊆ ps) : Leads ps s₀ s.applyRetired := by
  refine Leads.foldl _ (hs.cores (List.Subset.trans (List.Sublist.subset (by decide)) hp) (fun h => ⟨by simpa using h.1, fun k hk => ?_⟩)) (fun _ _ hu =>
    State.setReg_leads hu (List.Subset.trans (List.Sublist.subset (by decide)) hp))
  obtain ⟨⟨y, n⟩, hy, rfl⟩ := List.mem_map.1 hk
  exact h.2.1 y (List.fst_mem_of_mem_zipIdx hy)

theorem State.applyMapouts_leads {ps : List Part} {s₀ s : State}  (hs : Leads ps s₀ s)
    (hp : [Part.hbm, Part.dies] ⊆ ps) : Leads ps s₀ (State.applyMapouts s) := by
  unfold State.applyMapouts
  repeat' first
    | with_reducible assumption
    | with_reducible exact List.Subset.trans (List.Sublist.subset (by decide)) hp
    | with_reducible refine State.modDie_leads ?_ ?_
    | with_reducible refine State.modStack_leads ?_ ?_
    | (with_reducible refine Leads.foldl _ ?_ ?_; rotate_left; intro u x hu)

theorem State.freshNonce_leads {ps : List Part} {s₀ s : State}  (hs : Leads ps s₀ s)
    (hp : [Part.freeCount, Part.sec] ⊆ ps) : Leads ps s₀ (State.freshNonce s) := by
  unfold State.freshNonce
  repeat' first
    | with_reducible assumption
    | with_reducible exact List.Subset.trans (List.Sublist.subset (by decide)) hp
    | extract_lets
    | with_reducible refine State.draw_leads ?_ ?_
    | with_reducible refine State.setSec_leads ?_ ?_

theorem State.setKey_leads {ps : List Part} {s₀ s : State} {b : ℕ} {key : BitVec 512} (hs : Leads ps s₀ s)
    (hp : [Part.freeCount, Part.boxes, Part.protUnits] ⊆ ps) : Leads ps s₀ (State.setKey s b key) := by
  unfold State.setKey
  repeat' first
    | with_reducible assumption
    | with_reducible exact List.Subset.trans (List.Sublist.subset (by decide)) hp
    | extract_lets
    | with_reducible refine State.modBox_leads ?_ ?_
    | with_reducible refine State.draw_leads ?_ ?_
    | with_reducible refine Leads.ite ?_ ?_
    | with_reducible refine Leads.protUnits ?_ ?_

theorem State.unhaltClerk_leads {ps : List Part} {s₀ s : State} {h : Nat} (hs : Leads ps s₀ s)
    (hp : [Part.cores] ⊆ ps) : Leads ps s₀ (s.unhaltClerk h) := by
  refine State.modCore_leads hs hp (fun k hk => Core.shape_modClerk hk (fun q hq => ?_))
  split <;> exact hq

theorem State.relock_leads {ps : List Part} {s₀ s : State}  (hs : Leads ps s₀ s)
    (hp : [Part.cores, Part.fw, Part.sec, Part.test] ⊆ ps) : Leads ps s₀ (State.relock s) := by
  unfold State.relock
  repeat' first
    | with_reducible assumption
    | with_reducible exact List.Subset.trans (List.Sublist.subset (by decide)) hp
    | extract_lets
    | with_reducible refine State.setSec_leads ?_ ?_
    | with_reducible refine State.unhaltClerk_leads ?_ ?_
    | (with_reducible refine Leads.foldl _ ?_ ?_; rotate_left; intro u x hu)
    | (simp; done)
    | with_reducible refine Leads.fw_test ?_ ?_ ?_

theorem State.keyInstall_leads {ps : List Part} {s₀ s : State} {b : ℕ} (hs : Leads ps s₀ s)
    (hp : [Part.freeCount, Part.ctr, Part.boxes, Part.protUnits, Part.sec] ⊆ ps) : Leads ps s₀ (State.keyInstall s b) := by
  unfold State.keyInstall
  repeat' first
    | with_reducible assumption
    | with_reducible exact List.Subset.trans (List.Sublist.subset (by decide)) hp
    | extract_lets
    | with_reducible refine State.setSec_leads ?_ ?_
    | with_reducible refine State.bump_leads ?_ ?_
    | with_reducible refine State.setKey_leads ?_ ?_
    | with_reducible refine Leads.ite ?_ ?_

theorem State.keyClear_leads {ps : List Part} {s₀ s : State} {b : ℕ} (hs : Leads ps s₀ s)
    (hp : [Part.boxes, Part.sec] ⊆ ps) : Leads ps s₀ (State.keyClear s b) := by
  unfold State.keyClear
  repeat' first
    | with_reducible assumption
    | with_reducible exact List.Subset.trans (List.Sublist.subset (by decide)) hp
    | with_reducible refine State.setSec_leads ?_ ?_
    | with_reducible refine State.modBox_leads ?_ ?_

theorem State.verifyImage_leads {ps : List Part} {s₀ s : State} {announced : ℕ × ℕ} {whole : Bool} {bs : List Byte} (hs : Leads ps s₀ s)
    (hp : [Part.ctr, Part.log, Part.fw, Part.sec] ⊆ ps) : Leads ps s₀ (State.verifyImage s announced whole bs).1 := by
  unfold State.verifyImage
  repeat' first
    | with_reducible assumption
    | with_reducible exact List.Subset.trans (List.Sublist.subset (by decide)) hp
    | extract_lets
    | with_reducible refine State.event_leads ?_ ?_
    | with_reducible refine State.bump_leads ?_ ?_
    | with_reducible refine State.modComp_leads ?_ ?_
    | with_reducible refine State.measure_leads ?_ ?_
    | split

theorem State.relayedImage_leads {ps : List Part} {s₀ s : State} {component : ℕ} {bs : List Byte} (hs : Leads ps s₀ s)
    (hp : [Part.regs, Part.ctr, Part.log, Part.fw, Part.sec] ⊆ ps) : Leads ps s₀ (State.relayedImage s component bs) := by
  unfold State.relayedImage
  repeat' first
    | with_reducible assumption
    | with_reducible exact List.Subset.trans (List.Sublist.subset (by decide)) hp
    | with_reducible refine State.changed_leads ?_ ?_
    | with_reducible refine State.setFw_leads ?_ ?_ ?_
    | with_reducible refine State.verifyImage_leads ?_ ?_
    | with_reducible refine Leads.ite ?_ ?_
    | exact fun _ => rfl

theorem State.relaySet_leads {ps : List Part} {s₀ s : State} {pos : ℕ} (hs : Leads ps s₀ s)
    (hp : [Part.outbox, Part.freeCount, Part.ctr, Part.fab, Part.links] ⊆ ps) : Leads ps s₀ (State.relaySet s pos) := by
  unfold State.relaySet
  repeat' first
    | with_reducible assumption
    | with_reducible refine State.sendMsg_leads ?_ ?_
    | (with_reducible refine Leads.foldl _ ?_ ?_; rotate_left; intro u x hu)
    | split

theorem State.cbEnd_leads {ps : List Part} {s₀ s : State} {slot : ℕ} {r : CbRes} (hs : Leads ps s₀ s)
    (hp : [Part.cb] ⊆ ps) : Leads ps s₀ (State.cbEnd s slot r) := by
  unfold State.cbEnd
  repeat' first
    | with_reducible assumption
    | rfl
    | with_reducible refine Leads.cb ?_ ?_ ?_

theorem State.cbClaim_leads {ps : List Part} {s₀ s : State} {slot : ℕ} {box : ℕ} (hs : Leads ps s₀ s)
    (hp : [Part.cb] ⊆ ps) : LeadsO ps s₀ (State.cbClaim s slot box) := by
  unfold State.cbClaim
  repeat' first
    | with_reducible assumption
    | with_reducible refine State.modSlot_leads ?_ ?_
    | exact LeadsO.none
    | refine LeadsO.some ?_
    | split

theorem State.cbReplace_leads {ps : List Part} {s₀ s : State} {slot : ℕ} {p : CbPend} (hs : Leads ps s₀ s)
    (hp : [Part.cb] ⊆ ps) : Leads ps s₀ (State.cbReplace s slot p) := by
  unfold State.cbReplace
  repeat' first
    | with_reducible assumption
    | extract_lets
    | with_reducible refine State.modSlot_leads ?_ ?_
    | rfl
    | with_reducible refine Leads.cb ?_ ?_ ?_

theorem State.census_leads {ps : List Part} {s₀ s : State} {slot : ℕ} {box : ℕ} {alphabet : ℕ} {accum : Bool} {va : ℕ} {units : ℕ} (hs : Leads ps s₀ s)
    (hp : [Part.ctr, Part.cb] ⊆ ps) : Leads ps s₀ (State.census s slot box alphabet accum va units) := by
  unfold State.census
  repeat' first
    | with_reducible assumption
    | with_reducible exact List.Subset.trans (List.Sublist.subset (by decide)) hp
    | extract_lets
    | with_reducible refine State.cbEnd_leads ?_ ?_
    | refine LeadsO.get (by assumption) (State.cbClaim_leads ?_ (List.Subset.trans (List.Sublist.subset (by decide)) hp))
    | with_reducible refine State.modSlot_leads ?_ ?_
    | with_reducible refine State.bump_leads ?_ ?_
    | with_reducible refine Leads.ite ?_ ?_
    | split

theorem State.replaceStaged_leads {ps : List Part} {s₀ s : State} {slot : ℕ} {box : ℕ} (hs : Leads ps s₀ s)
    (hp : [Part.cb] ⊆ ps) : Leads ps s₀ (State.replaceStaged s slot box) := by
  unfold State.replaceStaged
  repeat' first
    | with_reducible assumption
    | extract_lets
    | with_reducible refine State.cbEnd_leads ?_ ?_
    | refine LeadsO.get (by assumption) (State.cbClaim_leads ?_ (List.Subset.trans (List.Sublist.subset (by decide)) hp))
    | with_reducible refine State.cbReplace_leads ?_ ?_
    | with_reducible refine Leads.ite ?_ ?_
    | split

theorem State.replaceImage_leads {ps : List Part} {s₀ s : State} {slot : ℕ} {box : ℕ} {va : ℕ} (hs : Leads ps s₀ s)
    (hp : [Part.cb] ⊆ ps) : Leads ps s₀ (State.replaceImage s slot box va) := by
  unfold State.replaceImage
  repeat' first
    | with_reducible assumption
    | with_reducible refine State.cbEnd_leads ?_ ?_
    | refine LeadsO.get (by assumption) (State.cbClaim_leads ?_ (List.Subset.trans (List.Sublist.subset (by decide)) hp))
    | with_reducible refine State.cbReplace_leads ?_ ?_
    | with_reducible refine Leads.ite ?_ ?_
    | split

theorem State.cbRelease_leads {ps : List Part} {s₀ s : State} {slot : ℕ} {box : ℕ} (hs : Leads ps s₀ s)
    (hp : [Part.ctr, Part.cb] ⊆ ps) : Leads ps s₀ (State.cbRelease s slot box) := by
  unfold State.cbRelease
  repeat' first
    | with_reducible assumption
    | with_reducible exact List.Subset.trans (List.Sublist.subset (by decide)) hp
    | extract_lets
    | with_reducible refine State.cbEnd_leads ?_ ?_
    | with_reducible refine State.bump_leads ?_ ?_
    | with_reducible refine State.modSlot_leads ?_ ?_
    | with_reducible refine State.cbReplace_leads ?_ ?_
    | with_reducible refine Leads.ite ?_ ?_

theorem State.restore_leads {ps : List Part} {s₀ s : State} {slot : ℕ} {box : ℕ} {gen : ℕ} {va : ℕ} (hs : Leads ps s₀ s)
    (hp : [Part.ctr, Part.cb] ⊆ ps) : Leads ps s₀ (State.restore s slot box gen va) := by
  unfold State.restore
  repeat' first
    | with_reducible assumption
    | with_reducible exact List.Subset.trans (List.Sublist.subset (by decide)) hp
    | with_reducible refine State.cbEnd_leads ?_ ?_
    | refine LeadsO.get (by assumption) (State.cbClaim_leads ?_ (List.Subset.trans (List.Sublist.subset (by decide)) hp))
    | with_reducible refine State.bump_leads ?_ ?_
    | with_reducible refine State.modSlot_leads ?_ ?_
    | with_reducible refine Leads.ite ?_ ?_
    | split

theorem State.spreadBoxCmd_leads {ps : List Part} {s₀ s : State} {b : ℕ} {cmd : ℕ} (hs : Leads ps s₀ s)
    (hp : [Part.outbox, Part.freeCount, Part.ctr, Part.fab, Part.links] ⊆ ps) : Leads ps s₀ (State.spreadBoxCmd s b cmd) := by
  unfold State.spreadBoxCmd
  repeat' first
    | with_reducible assumption
    | with_reducible refine State.sendMsg_leads ?_ ?_
    | with_reducible refine Leads.ite ?_ ?_
    | (with_reducible refine Leads.foldl _ ?_ ?_; rotate_left; intro u x hu)

theorem State.boxCmdBad_leads {ps : List Part} {s₀ s : State} {b : ℕ} (hs : Leads ps s₀ s)
    (hp : [Part.regs] ⊆ ps) : Leads ps s₀ (State.boxCmdBad s b) := by
  unfold State.boxCmdBad
  repeat' first
    | with_reducible assumption
    | with_reducible refine State.flagAccess_leads ?_ ?_

theorem State.enableBox_leads {ps : List Part} {s₀ s : State} {b : ℕ} {session : Option ℕ} (hs : Leads ps s₀ s)
    (hp : [Part.outbox, Part.freeCount, Part.regs, Part.ctr, Part.boxes, Part.held, Part.fab, Part.links] ⊆ ps) : Leads ps s₀ (State.enableBox s b session) := by
  unfold State.enableBox
  repeat' first
    | with_reducible assumption
    | with_reducible exact List.Subset.trans (List.Sublist.subset (by decide)) hp
    | extract_lets
    | with_reducible refine State.boxCmdBad_leads ?_ ?_
    | refine LeadsO.get (by assumption) (State.holdBox_leads ?_ (List.Subset.trans (List.Sublist.subset (by decide)) hp))
    | with_reducible refine State.modBox_leads ?_ ?_
    | with_reducible refine State.spreadBoxCmd_leads ?_ ?_
    | with_reducible refine State.changed_leads ?_ ?_
    | with_reducible refine Leads.ite ?_ ?_
    | split

theorem State.disableBox_leads {ps : List Part} {s₀ s : State} {b : ℕ} (hs : Leads ps s₀ s)
    (hp : [Part.outbox, Part.freeCount, Part.regs, Part.ctr, Part.cores, Part.places, Part.groups, Part.pages, Part.arenaWait, Part.poolWait, Part.items, Part.boxes, Part.mem, Part.memPoison, Part.protUnits, Part.tier, Part.fab, Part.links] ⊆ ps) : Leads ps s₀ (State.disableBox s b) := by
  unfold State.disableBox
  repeat' first
    | with_reducible assumption
    | with_reducible exact List.Subset.trans (List.Sublist.subset (by decide)) hp
    | extract_lets
    | with_reducible refine State.changed_leads ?_ ?_
    | with_reducible refine State.modBox_leads ?_ ?_
    | with_reducible refine State.failItems_leads ?_ ?_
    | with_reducible refine State.spreadBoxCmd_leads ?_ ?_

theorem State.postHeld_leads {ps : List Part} {s₀ s : State} {b : ℕ} (hs : Leads ps s₀ s)
    (hp : [Part.outbox, Part.freeCount, Part.ctr, Part.items, Part.boxes, Part.fab, Part.links] ⊆ ps) : Leads ps s₀ (State.postHeld s b) := by
  unfold State.postHeld
  repeat' first
    | with_reducible assumption
    | with_reducible exact List.Subset.trans (List.Sublist.subset (by decide)) hp
    | with_reducible refine State.postItem_leads ?_ ?_
    | with_reducible refine State.modItem_leads ?_ ?_
    | (with_reducible refine Leads.foldl _ ?_ ?_; rotate_left; intro u x hu)

theorem State.releaseCodebooks_leads {ps : List Part} {s₀ s : State} {b : ℕ} (hs : Leads ps s₀ s)
    (hp : [Part.ctr, Part.cb] ⊆ ps) : Leads ps s₀ (State.releaseCodebooks s b) := by
  unfold State.releaseCodebooks
  repeat' first
    | with_reducible assumption
    | with_reducible refine State.cbRelease_leads ?_ ?_
    | with_reducible refine Leads.ite ?_ ?_
    | (with_reducible refine Leads.foldl _ ?_ ?_; rotate_left; intro u x hu)

theorem State.releaseBox_leads {ps : List Part} {s₀ s : State} {b : ℕ} (hs : Leads ps s₀ s)
    (hp : [Part.regs, Part.ctr, Part.cores, Part.places, Part.groups, Part.pages, Part.mirrors, Part.items, Part.boxes, Part.held, Part.cb, Part.log, Part.sec] ⊆ ps) : Leads ps s₀ (State.releaseBox s b) := by
  unfold State.releaseBox
  repeat' first
    | with_reducible assumption
    | with_reducible exact List.Subset.trans (List.Sublist.subset (by decide)) hp
    | extract_lets
    | with_reducible refine State.releaseGroup_leads ?_ ?_
    | with_reducible refine State.dropLab_leads ?_ ?_
    | with_reducible refine State.releaseCodebooks_leads ?_ ?_
    | with_reducible refine State.releaseHeld_leads ?_ ?_
    | with_reducible refine State.keyClear_leads ?_ ?_
    | with_reducible refine State.modBox_leads ?_ ?_
    | with_reducible refine State.event_leads ?_ ?_
    | with_reducible refine State.changed_leads ?_ ?_
    | (with_reducible refine Leads.foldl _ ?_ ?_; rotate_left; intro u x hu)
    | with_reducible refine Leads.mirrors ?_ ?_

theorem State.notePoison_leads {ps : List Part} {s₀ s : State} {c : ℕ} {va : Option ℕ} (hs : Leads ps s₀ s)
    (hp : [Part.cores] ⊆ ps) : Leads ps s₀ (State.notePoison s c va) := by
  unfold State.notePoison
  repeat' first
    | with_reducible assumption
    | with_reducible refine State.modCore_leads ?_ ?_ ?_
    | exact fun _ h => h
    | split

theorem State.execOf_shape {s : State} {c : Nat} (h : s.Inv) : (s.execOf c).core.Shape := by
  have hk := State.core_shape (c := c) h.2.2
  unfold State.execOf
  dsimp only
  split
  · exact hk
  · split <;> exact hk

theorem State.putExec_leads {ps : List Part} {s₀ s : State} {c : ℕ} {x : Exec} (hs : Leads ps s₀ s)
    (hp : [Part.ctr, Part.cores, Part.places, Part.items] ⊆ ps) (hx : s₀.Inv → x.core.Shape) :
    Leads ps s₀ (State.putExec s c x) := by
  unfold State.putExec
  refine Leads.foldl _ ?_ (fun u b hu => State.bump_leads hu (List.Subset.trans (List.Sublist.subset (by decide)) hp))
  have hc : Leads ps s₀ (s.setCore c { x.core with run := x.core.run.map (fun i =>
      if x.poisoned && i.poison.isNone then { i with poison := Option.some 0 } else i) }) :=
    ⟨hs.frame.trans (State.without_cores (hp (by decide))), fun i => by
      have j := hs.inv i
      refine ⟨j.1, j.2.1, List.length_set.trans j.2.2.1, fun k hk => ?_, j.2.2.2.2⟩
      rcases List.mem_or_eq_of_mem_set hk with hk | rfl
      · exact j.2.2.2.1 k hk
      · exact hx i⟩
  split
  · split
    · exact State.modEntry_leads (State.modPlace_leads hc (List.Subset.trans (List.Sublist.subset (by decide)) hp)) (List.Subset.trans (List.Sublist.subset (by decide)) hp)
    · exact hc
  · exact hc

theorem State.failRun_leads {ps : List Part} {s₀ s : State} {c : ℕ} {f : Fail} (hs : Leads ps s₀ s)
    (hp : [Part.freeCount, Part.regs, Part.ctr, Part.cores, Part.places, Part.pages, Part.arenaWait, Part.poolWait, Part.items, Part.boxes] ⊆ ps) : Leads ps s₀ (State.failRun s c f) := by
  unfold State.failRun
  repeat' first
    | with_reducible assumption
    | with_reducible exact List.Subset.trans (List.Sublist.subset (by decide)) hp
    | with_reducible refine State.failEntry_leads ?_ ?_
    | with_reducible refine State.changed_leads ?_ ?_
    | with_reducible refine State.stopInstance_leads ?_ ?_
    | split

theorem State.buddyCan_leads {ps : List Part} {s₀ s : State} {pos : ℕ} (hs : Leads ps s₀ s)
    (hp : [Part.freeCount] ⊆ ps) : Leads ps s₀ (State.buddyCan s pos).2 := by
  unfold State.buddyCan
  repeat' first
    | with_reducible assumption
    | extract_lets
    | with_reducible refine State.draw_leads ?_ ?_

theorem State.openGroup_leads {ps : List Part} {s₀ s : State} {i : Item} {block : ℕ} {params : ℕ} {lists : List KEntry × List KEntry × List KEntry} (hs : Leads ps s₀ s)
    (hp : [Part.freeCount, Part.places, Part.groups] ⊆ ps) : Leads ps s₀ (State.openGroup s i block params lists).2 := by
  unfold State.openGroup
  repeat' first
    | with_reducible assumption
    | with_reducible exact List.Subset.trans (List.Sublist.subset (by decide)) hp
    | extract_lets
    | with_reducible refine State.draw_leads ?_ ?_
    | (with_reducible refine Leads.foldl _ ?_ ?_; rotate_left; intro u x hu)
    | with_reducible refine Leads.places ?_ ?_
    | with_reducible refine Leads.groups ?_ ?_

theorem State.admitLoad_leads {ps : List Part} {s₀ s t : State} {i j : Item} (hs : Leads ps s₀ s)
    (hp : [Part.outbox, Part.freeCount, Part.ctr, Part.places, Part.groups, Part.fab, Part.links] ⊆ ps)
    (h : s.admitLoad i = .ok (j, t)) : Leads ps s₀ t := by
  unfold State.admitLoad at h
  generalize s.readNum i.box i.argC 64 = params at h
  generalize s.readNum i.box i.argB 64 = block at h
  have hb : Leads ps s₀ (if bits params 23 22 = 0 then (true, s) else s.buddyCan (bits params 29 24)).2 := by
    split
    · exact hs
    · exact State.buddyCan_leads hs (List.Subset.trans (List.Sublist.subset (by decide)) hp)
  dsimp only at h
  generalize (if bits params 23 22 = 0 then (true, s) else s.buddyCan (bits params 29 24)) = b at h hb
  generalize bits params 23 22 = dup at h
  generalize bits params 29 24 = dest at h
  split at h
  · split at h
    · cases h
    split at h
    · cases h
    split at h
    · cases h
    split at h
    · cases h
    split at h
    · cases h
    simp only [Except.ok.injEq, Prod.mk.injEq] at h
    rw [← h.2]
    have hg := fun l => State.openGroup_leads hb (i := i) (block := block) (params := params) (lists := l) (List.Subset.trans (List.Sublist.subset (by decide)) hp)
    split
    · exact hg _
    · exact State.sendMsg_leads (hg _) (List.Subset.trans (List.Sublist.subset (by decide)) hp)
  split at h
  · cases h
  split at h
  · split at h
    · cases h
    · split at h
      · cases h
      · simp only [Except.ok.injEq, Prod.mk.injEq] at h
        exact h.2 ▸ hs
  · split at h
    · cases h
    · split at h
      · cases h
      · simp only [Except.ok.injEq, Prod.mk.injEq] at h
        exact h.2 ▸ hs

theorem State.enterLedger_leads {ps : List Part} {s₀ s : State} {i : Item} (hs : Leads ps s₀ s)
    (hp : [Part.ctr, Part.items, Part.nextItem] ⊆ ps) : Leads ps s₀ (State.enterLedger s i) := by
  unfold State.enterLedger
  repeat' first
    | with_reducible assumption
    | with_reducible exact List.Subset.trans (List.Sublist.subset (by decide)) hp
    | extract_lets
    | with_reducible refine State.peak_leads ?_ ?_
    | with_reducible refine State.bump_leads ?_ ?_
    | with_reducible refine Leads.items_nextItem ?_ ?_

theorem State.refuse_leads {ps : List Part} {s₀ s : State} {i : Item} {f : Fail} (hs : Leads ps s₀ s)
    (hp : [Part.outbox, Part.freeCount, Part.ctr, Part.cores, Part.places, Part.groups, Part.pages, Part.items, Part.nextItem, Part.boxes, Part.mem, Part.memPoison, Part.protUnits, Part.tier, Part.fab, Part.links] ⊆ ps) : Leads ps s₀ (State.refuse s i f) := by
  unfold State.refuse
  repeat' first
    | with_reducible assumption
    | with_reducible exact List.Subset.trans (List.Sublist.subset (by decide)) hp
    | with_reducible refine State.resolve_leads ?_ ?_
    | with_reducible refine State.bump_leads ?_ ?_
    | with_reducible refine State.enterLedger_leads ?_ ?_

theorem State.countLoans_leads {ps : List Part} {s₀ s old : State} {j : Item} (hs : Leads ps s₀ s)
    (hp : [Part.ctr] ⊆ ps) : Leads ps s₀ (State.countLoans old s j) := by
  unfold State.countLoans
  split
  · exact hs
  · exact Leads.foldl _ hs (fun u x hu => State.bump_leads hu hp)

theorem State.admitted_leads {ps : List Part} {s₀ s : State} {i : Item} (hs : Leads ps s₀ s)
    (hp : [Part.outbox, Part.freeCount, Part.ctr, Part.cores, Part.places, Part.groups, Part.pages, Part.arenaWait, Part.poolWait, Part.items, Part.nextItem, Part.boxes, Part.mem, Part.memPoison, Part.protUnits, Part.tier, Part.fab, Part.links] ⊆ ps) : Leads ps s₀ (State.admitted s i) := by
  unfold State.admitted
  repeat' first
    | with_reducible assumption
    | with_reducible exact List.Subset.trans (List.Sublist.subset (by decide)) hp
    | extract_lets
    | with_reducible refine State.bump_leads ?_ ?_
    | with_reducible refine State.enterLedger_leads ?_ ?_
    | with_reducible refine State.modBox_leads ?_ ?_
    | with_reducible refine State.modPlace_leads ?_ ?_
    | with_reducible refine State.failItem_leads ?_ ?_
    | with_reducible refine State.countLoans_leads ?_ ?_
    | with_reducible refine Leads.ite ?_ ?_
    | (with_reducible refine Leads.foldl _ ?_ ?_; rotate_left; intro u x hu)
    | split

theorem State.forwardItem_leads {ps : List Part} {s₀ s : State} {i : Item} (hs : Leads ps s₀ s)
    (hp : [Part.outbox, Part.freeCount, Part.ctr, Part.items, Part.nextItem, Part.fab, Part.links] ⊆ ps) : Leads ps s₀ (State.forwardItem s i) := by
  unfold State.forwardItem
  repeat' first
    | with_reducible assumption
    | with_reducible exact List.Subset.trans (List.Sublist.subset (by decide)) hp
    | extract_lets
    | with_reducible refine State.bump_leads ?_ ?_
    | with_reducible refine State.enterLedger_leads ?_ ?_
    | with_reducible refine State.sendMsg_leads ?_ ?_
    | with_reducible refine Leads.fab ?_ ?_

theorem State.enterItem_leads {ps : List Part} {s₀ s : State} {i : Item} (hs : Leads ps s₀ s)
    (hp : [Part.outbox, Part.freeCount, Part.ctr, Part.cores, Part.places, Part.groups, Part.pages, Part.arenaWait,
      Part.poolWait, Part.items, Part.nextItem, Part.boxes, Part.mem, Part.memPoison, Part.protUnits, Part.tier,
      Part.fab, Part.links] ⊆ ps) : Leads ps s₀ (s.enterItem i) := by
  unfold State.enterItem
  split
  · exact State.refuse_leads hs (List.Subset.trans (List.Sublist.subset (by decide)) hp)
  · split
    · exact Leads.ite (State.refuse_leads hs (List.Subset.trans (List.Sublist.subset (by decide)) hp)) (State.forwardItem_leads hs (List.Subset.trans (List.Sublist.subset (by decide)) hp))
    · split
      · exact State.refuse_leads hs (List.Subset.trans (List.Sublist.subset (by decide)) hp)
      · split
        · exact State.refuse_leads hs (List.Subset.trans (List.Sublist.subset (by decide)) hp)
        · split
          · exact State.refuse_leads hs (List.Subset.trans (List.Sublist.subset (by decide)) hp)
          · rename_i h
            exact State.admitted_leads (State.admitLoad_leads hs (List.Subset.trans (List.Sublist.subset (by decide)) hp) h) (List.Subset.trans (List.Sublist.subset (by decide)) hp)

theorem State.refuseEntry_leads {ps : List Part} {s₀ s : State} {i : Item} {f : Fail} (hs : Leads ps s₀ s)
    (hp : [Part.outbox, Part.freeCount, Part.ctr, Part.cores, Part.places, Part.groups, Part.pages, Part.items, Part.nextItem, Part.boxes, Part.mem, Part.memPoison, Part.protUnits, Part.tier, Part.fab, Part.links] ⊆ ps) : Leads ps s₀ (State.refuseEntry s i f) := by
  unfold State.refuseEntry
  repeat' first
    | with_reducible assumption
    | with_reducible refine State.refuse_leads ?_ ?_

theorem State.takeSubmission_leads {ps : List Part} {s₀ s : State} {b : ℕ} {ring : ℕ} {count : ℕ} {e : Except Fail ℕ} (hs : Leads ps s₀ s)
    (hp : [Part.outbox, Part.freeCount, Part.ctr, Part.cores, Part.places, Part.groups, Part.pages, Part.arenaWait, Part.poolWait, Part.items, Part.nextItem, Part.boxes, Part.mem, Part.memPoison, Part.protUnits, Part.tier, Part.fab, Part.links] ⊆ ps) : Leads ps s₀ (State.takeSubmission s b ring count e) := by
  unfold State.takeSubmission
  repeat' first
    | with_reducible assumption
    | with_reducible exact List.Subset.trans (List.Sublist.subset (by decide)) hp
    | extract_lets
    | with_reducible refine State.bump_leads ?_ ?_
    | with_reducible refine State.refuseEntry_leads ?_ ?_
    | with_reducible refine State.enterItem_leads ?_ ?_
    | with_reducible refine Leads.ite ?_ ?_
    | split

end Sys2Proof.Machine
end

