-- ==== Sys2Proof/Laws/LeadsCourier.lean ====
section
/-! SUPPORT. Frames of the expander, the encode buffer and the couriers. -/

namespace Sys2Proof.Machine

theorem State.countBlock_leads {ps : List Part} {s₀ s : State} {c : ℕ} {mode : ℕ} {symbols : ℕ} (hs : Leads ps s₀ s)
    (hp : [Part.ctr] ⊆ ps) : Leads ps s₀ (State.countBlock s c mode symbols) := by
  unfold State.countBlock
  repeat' first
    | with_reducible assumption
    | with_reducible exact List.Subset.trans (List.Sublist.subset (by decide)) hp
    | with_reducible refine State.bump_leads ?_ ?_
    | split

theorem State.noteBlockFail_leads {ps : List Part} {s₀ s : State} {c : ℕ} {box : ℕ} {va : ℕ} {slot : ℕ} {gen : ℕ} {check : ℕ} (hs : Leads ps s₀ s)
    (hp : [Part.regs, Part.ctr, Part.log] ⊆ ps) : Leads ps s₀ (State.noteBlockFail s c box va slot gen check) := by
  unfold State.noteBlockFail
  repeat' first
    | with_reducible assumption
    | with_reducible exact List.Subset.trans (List.Sublist.subset (by decide)) hp
    | extract_lets
    | with_reducible refine State.event_leads ?_ ?_
    | with_reducible refine State.setReg_leads ?_ ?_
    | with_reducible refine State.bump_leads ?_ ?_
    | with_reducible refine Leads.ite ?_ ?_
    | split

theorem State.noteCbWait_leads {ps : List Part} {s₀ s : State} {c : ℕ} (hs : Leads ps s₀ s)
    (hp : [Part.ctr, Part.cores] ⊆ ps) : Leads ps s₀ (State.noteCbWait s c) := by
  unfold State.noteCbWait
  repeat' first
    | with_reducible assumption
    | with_reducible exact List.Subset.trans (List.Sublist.subset (by decide)) hp
    | with_reducible refine State.bump_leads ?_ ?_
    | with_reducible refine State.modCore_leads ?_ ?_ ?_
    | with_reducible refine Leads.ite ?_ ?_
    | exact fun _ => rfl
    | (intro _; simp; done)
    | exact fun _ h => h
    | (intro _ hk; try dsimp only
       split <;> exact hk)
    | split

theorem State.storeBlock_leads {ps : List Part} {s₀ s : State} {c : ℕ} {box : ℕ} {r : Region} {va : ℕ} {bytes : List Byte}
    {bad : Bool} (hs : Leads ps s₀ s) (hp : [Part.ctr, Part.mem, Part.memPoison, Part.protUnits, Part.tier] ⊆ ps) :
    Leads ps s₀ (State.storeBlock s c box r va bytes bad) := by
  have put : ∀ frame e be, Leads ps s₀ ((s.storeBox box va frame (fun _ => bad)).storeBox box (r.envVa va)
      (Envelope.toBytes e) (fun _ => be)) := fun _ _ _ => State.storeBox_leads (State.storeBox_leads hs (List.Subset.trans (List.Sublist.subset (by decide)) hp)) (List.Subset.trans (List.Sublist.subset (by decide)) hp)
  unfold State.storeBlock
  dsimp only
  generalize (if r.thresh = 0 ∨ (decide (r.thresh ≠ 0) && !(s.slot r.slot).usable box r.alphabet) = true then Option.none
    else encodeCoded (s.slot r.slot).lengths r.alphabet bytes) = coded
  split
  · exact State.bump_leads (put _ _ _) (List.Subset.trans (List.Sublist.subset (by decide)) hp)
  · split
    · exact Leads.ite (State.bump_leads (put _ _ _) (List.Subset.trans (List.Sublist.subset (by decide)) hp)) (State.bump_leads (put _ _ _) (List.Subset.trans (List.Sublist.subset (by decide)) hp))
    · exact State.bump_leads (State.bump_leads (put _ _ _) (List.Subset.trans (List.Sublist.subset (by decide)) hp)) (List.Subset.trans (List.Sublist.subset (by decide)) hp)

/-- An encoder's outcome leaves a state that the start leads to. -/
def EncRes.Leads (ps : List Part) (s₀ : State) : EncRes → Prop
  | .done s => Sys2Proof.Machine.Leads ps s₀ s
  | .wait s => Sys2Proof.Machine.Leads ps s₀ s
  | .fail s _ => Sys2Proof.Machine.Leads ps s₀ s

theorem State.writeOut_leads {ps : List Part} {s₀ s : State} {c : ℕ} {b : EncBlk} (hs : Leads ps s₀ s)
    (hp : [Part.regs, Part.ctr, Part.cores, Part.mem, Part.memPoison, Part.protUnits, Part.tier, Part.log] ⊆ ps) : (s.writeOut c b).Leads ps s₀ := by
  unfold State.writeOut
  extract_lets put
  have drop : ∀ {u : State}, Leads ps s₀ u → Leads ps s₀ (put u) := fun hu => State.modCore_leads hu (List.Subset.trans (List.Sublist.subset (by decide)) hp) (fun _ h => h)
  generalize put = f at drop
  split
  · exact drop hs
  · split
    · exact State.noteCbWait_leads hs (List.Subset.trans (List.Sublist.subset (by decide)) hp)
    · split
      · exact State.touch_leads hs (List.Subset.trans (List.Sublist.subset (by decide)) hp)
      · exact State.touch_leads hs (List.Subset.trans (List.Sublist.subset (by decide)) hp)
      · split
        · exact State.storeBlock_leads (drop hs) (List.Subset.trans (List.Sublist.subset (by decide)) hp)
        · split
          · exact State.noteCbWait_leads hs (List.Subset.trans (List.Sublist.subset (by decide)) hp)
          · exact State.touch_leads hs (List.Subset.trans (List.Sublist.subset (by decide)) hp)
          · exact drop hs
          · exact drop (State.noteBlockFail_leads hs (List.Subset.trans (List.Sublist.subset (by decide)) hp))
          · exact State.storeBlock_leads (State.bump_leads (drop hs) (List.Subset.trans (List.Sublist.subset (by decide)) hp)) (List.Subset.trans (List.Sublist.subset (by decide)) hp)

theorem State.writeOutAll_leads {ps : List Part} {s₀ s : State} {c n : ℕ} (hs : Leads ps s₀ s)
    (hp : [Part.regs, Part.ctr, Part.cores, Part.mem, Part.memPoison, Part.protUnits, Part.tier, Part.log] ⊆ ps) : (State.writeOutAll n s c).Leads ps s₀ := by
  induction n generalizing s with
  | zero => exact hs
  | succ n ih =>
    unfold State.writeOutAll
    split
    · exact hs
    · rename_i b _ _
      have h := State.writeOut_leads (c := c) (b := b) hs hp
      split
      · rename_i e
        rw [e] at h
        exact ih h
      · exact h

theorem State.openBlk_leads {ps : List Part} {s₀ s : State} {c box va t : ℕ} (hs : Leads ps s₀ s)
    (hp : [Part.regs, Part.ctr, Part.cores, Part.mem, Part.memPoison, Part.protUnits, Part.tier, Part.log] ⊆ ps) : (s.openBlk c box va t).Leads ps s₀ := by
  have opened : ∀ {u : State}, Leads ps s₀ u → Leads ps s₀ (u.modCore c (fun k => { k with
      enc := k.enc ++ [{ box := box, va := va, tensor := t }] })) :=
    fun hu => State.modCore_leads hu (List.Subset.trans (List.Sublist.subset (by decide)) hp) (fun _ h => h)
  unfold State.openBlk
  dsimp only
  split
  · exact hs
  · split
    · rename_i b _ _
      split
      · exact opened hs
      · have h := State.writeOut_leads (c := c) (b := b) hs hp
        split
        · rename_i e
          rw [e] at h
          exact opened h
        · exact h
    · exact opened hs

theorem State.encWrite_leads {ps : List Part} {s₀ s : State} {n c box va t : ℕ} {bytes : List Byte} {bad : ℕ → Bool}
    (hs : Leads ps s₀ s) (hp : [Part.regs, Part.ctr, Part.cores, Part.mem, Part.memPoison, Part.protUnits, Part.tier, Part.log] ⊆ ps) : (State.encWrite n s c box va t bytes bad).Leads ps s₀ := by
  induction n generalizing s va bytes bad with
  | zero => exact hs
  | succ n ih =>
    unfold State.encWrite
    dsimp only
    split
    · exact hs
    · have h := State.openBlk_leads (c := c) (box := box) (va := va - va % blockSize) (t := t) hs hp
      split
      · rename_i e
        rw [e] at h
        exact ih (State.modCore_leads h (List.Subset.trans (List.Sublist.subset (by decide)) hp) (fun _ h => h))
      · exact h

theorem EncRes.settle_leads {ps : List Part} {s₀ : State} {r : EncRes} {c : ℕ} (h : r.Leads ps s₀)
    (hp : [Part.freeCount, Part.regs, Part.ctr, Part.cores, Part.places, Part.pages, Part.arenaWait, Part.poolWait,
      Part.items, Part.boxes] ⊆ ps) : Sys2Proof.Machine.Leads ps s₀ (r.settle c) := by
  cases r with
  | done s => exact h
  | wait s => exact h
  | fail s f => exact State.failRun_leads h hp

theorem State.fetchBlock_leads {ps : List Part} {s₀ s : State} {c box : ℕ} {r : Region} {va : ℕ} (hs : Leads ps s₀ s)
    (hp : [Part.regs, Part.ctr, Part.cores, Part.mem, Part.memPoison, Part.protUnits, Part.tier, Part.log] ⊆ ps) : Leads ps s₀ (s.fetchBlock c box r va).1 := by
  unfold State.fetchBlock
  split
  · exact hs
  · rename_i b _
    have h := State.writeOut_leads (c := c) (b := b) hs hp
    split <;> (rename_i e; rw [e] at h; exact h)

theorem State.fetchBlocks_leads {ps : List Part} {s₀ s : State} {c box : ℕ} {r : Region} {l : List ℕ} (hs : Leads ps s₀ s)
    (hp : [Part.regs, Part.ctr, Part.cores, Part.mem, Part.memPoison, Part.protUnits, Part.tier, Part.log] ⊆ ps) : Leads ps s₀ (s.fetchBlocks c box r l).1 := by
  induction l generalizing s with
  | nil => exact hs
  | cons va l ih => exact ih (State.fetchBlock_leads hs hp)

/-- A transfer's outcome leaves a state that the start leads to. -/
def Xfer.Leads {α : Type} (ps : List Part) (s₀ : State) : Xfer α → Prop
  | .done s _ => Sys2Proof.Machine.Leads ps s₀ s
  | .wait s => Sys2Proof.Machine.Leads ps s₀ s
  | .fail s _ _ => Sys2Proof.Machine.Leads ps s₀ s

theorem findSome?_leads {α : Type} {f : α → Option State} {l : List α} {ps : List Part} {s₀ u : State}
    (hf : ∀ a u, f a = some u → Leads ps s₀ u) (h : l.findSome? f = some u) : Leads ps s₀ u := by
  obtain ⟨a, _, ha⟩ := List.exists_of_findSome?_eq_some h
  exact hf a u ha

theorem State.readBoxTile_leads {ps : List Part} {s₀ s : State} {c : ℕ} {i : Inst} {t : Tile} (hs : Leads ps s₀ s)
    (hp : [Part.regs, Part.ctr, Part.cores, Part.mem, Part.memPoison, Part.protUnits, Part.tier, Part.log] ⊆ ps) : (s.readBoxTile c i t).Leads ps s₀ := by
  unfold State.readBoxTile
  split
  · exact hs
  · split
    · exact hs
    · split
      · split
        · exact hs
        · rename_i r _
          have hf : Leads ps s₀ (s.fetchBlocks c i.box r (tileBlocks r t)).1 := State.fetchBlocks_leads hs hp
          dsimp only
          generalize s.fetchBlocks c i.box r (tileBlocks r t) = f at hf
          split
          · rename_i e
            refine findSome?_leads (fun p u hu => ?_) e
            split at hu
            · cases hu
              exact State.noteCbWait_leads hf (List.Subset.trans (List.Sublist.subset (by decide)) hp)
            · cases hu
              exact State.touch_leads hf (List.Subset.trans (List.Sublist.subset (by decide)) hp)
            · cases hu
          · have hc : Leads ps s₀ ((f.2.foldl (fun s p => match p.2 with
                | .ok _ m n => s.countBlock c m n | _ => s) f.1).modCore c (fun k => { k with cbWait := false })) := by
              refine State.modCore_leads (Leads.foldl _ hf (fun u p hu => ?_)) (List.Subset.trans (List.Sublist.subset (by decide)) hp) (fun _ h => h)
              split
              · exact State.countBlock_leads hu (List.Subset.trans (List.Sublist.subset (by decide)) hp)
              · exact hu
            split
            · rename_i u fl e
              obtain ⟨p, _, hu⟩ := List.exists_of_findSome?_eq_some e
              split at hu
              · cases hu
                exact State.noteBlockFail_leads hc (List.Subset.trans (List.Sublist.subset (by decide)) hp)
              · cases hu
                exact hc
              · cases hu
            · exact hc
      · split
        · exact Leads.foldl _ hs (fun _ _ hu => State.touch_leads hu (List.Subset.trans (List.Sublist.subset (by decide)) hp))
        · exact State.notePoison_leads hs (List.Subset.trans (List.Sublist.subset (by decide)) hp)

theorem State.encRows_leads {ps : List Part} {s₀ s : State} {r c : ℕ} {i : Inst} {t : Tile} {rows : List (List Elem)}
    (hs : Leads ps s₀ s) (hp : [Part.regs, Part.ctr, Part.cores, Part.mem, Part.memPoison, Part.protUnits, Part.tier, Part.log] ⊆ ps) : (State.encRows r s c i t rows).Leads ps s₀ := by
  induction rows generalizing s r with
  | nil => exact hs
  | cons es l ih =>
    unfold State.encRows
    dsimp only
    have h := State.encWrite_leads (n := t.rowBytes / blockSize + 2) (c := c) (box := i.box) (va := t.rowStart r)
      (t := t.tensor) (bytes := bytesOfElems t.f (es.map (·.1))) (bad := fun j => (badBytes t.f es).getD j false) hs hp
    split
    · rename_i e
      rw [e] at h
      exact ih h
    · rename_i e
      rw [e] at h
      exact h
    · rename_i e
      rw [e] at h
      exact h

theorem State.writeBoxTile_leads {ps : List Part} {s₀ s : State} {c : ℕ} {i : Inst} {t : Tile} {rows : List (List Elem)}
    (hs : Leads ps s₀ s) (hp : [Part.regs, Part.ctr, Part.cores, Part.mem, Part.memPoison, Part.protUnits, Part.tier, Part.log] ⊆ ps) : (s.writeBoxTile c i t rows).Leads ps s₀ := by
  unfold State.writeBoxTile
  split
  · exact hs
  · split
    · exact hs
    · split
      · exact hs
      · split
        · exact State.encRows_leads hs hp
        · split
          · exact Leads.foldl _ hs (fun _ _ hu => State.touch_leads hu (List.Subset.trans (List.Sublist.subset (by decide)) hp))
          · exact Leads.foldl _ hs (fun _ _ hu => State.storeBox_leads hu (List.Subset.trans (List.Sublist.subset (by decide)) hp))

theorem State.regulate_leads {ps : List Part} {s₀ s u : State} {c box n : ℕ} (hs : Leads ps s₀ s)
    (hp : [Part.dies] ⊆ ps) (h : s.regulate c box n = .ok u ∨ s.regulate c box n = .error u) : Leads ps s₀ u := by
  unfold State.regulate at h
  dsimp only at h
  split at h
  · rcases h with h | h <;> cases h
    exact hs
  · split at h
    · rcases h with h | h <;> cases h
      exact State.regTake_leads hs hp
    · rcases h with h | h <;> cases h
      exact State.regWait_leads hs hp

theorem State.regPaid_leads {ps : List Part} {s₀ s : State} {c box n : ℕ} (hs : Leads ps s₀ s)
    (hp : [Part.dies] ⊆ ps) : Leads ps s₀ (s.regPaid c box n) := by
  unfold State.regPaid
  dsimp only
  split
  · exact hs
  · exact State.modDie_leads hs hp

theorem State.runCrr_leads {ps : List Part} {s₀ s : State} {c : ℕ} {i : Inst} {d a : Tile} (hs : Leads ps s₀ s)
    (hp : [Part.regs, Part.ctr, Part.cores, Part.places, Part.items, Part.mem, Part.memPoison, Part.protUnits, Part.dies,
      Part.tier, Part.log] ⊆ ps) : (s.runCrr c i d a).Leads ps s₀ := by
  unfold State.runCrr
  split
  · rename_i e
    exact State.regulate_leads (c := c) (box := i.box) (n := boxBytes d a) hs (List.Subset.trans (List.Sublist.subset (by decide)) hp) (.inr e)
  · rename_i s1 e
    have h1 : Leads ps s₀ s1 := State.regulate_leads (c := c) (box := i.box) (n := boxBytes d a) hs (List.Subset.trans (List.Sublist.subset (by decide)) hp) (.inl e)
    have move : ∀ (u : State) (rows : List (List Elem)), Leads ps s₀ u → Xfer.Leads ps s₀
        (let x := (u.execOf c).consume rows
         let r := if a.fmt = d.fmt then (x, rows) else x.convertRows a d rows
         if d.space = 1 then
           match (u.putExec c r.1).writeBoxTile c i d r.2 with
           | .done s3 _ => Xfer.done s3 ()
           | .wait s3 =>
             .wait ((s3.modEntry i.item i.entry (fun e => { e with gen := x.gen })).regPaid c i.box (boxBytes d a))
           | .fail s3 _ f => .fail s3 () f
         else Xfer.done (u.putExec c (r.1.writeRows d 0 r.2)) ()) := by
      intro u rows hu
      dsimp only
      have hx : ∀ r : Exec × List (List Elem), r = (if a.fmt = d.fmt then ((u.execOf c).consume rows, rows)
          else ((u.execOf c).consume rows).convertRows a d rows) → s₀.Inv → r.1.core.Shape := by
        rintro r rfl i
        have k : ((u.execOf c).consume rows).core.Shape := Exec.consume_shape (State.execOf_shape (hu.inv i))
        split
        · exact k
        · exact Exec.convertRows_shape k
      generalize (if a.fmt = d.fmt then ((u.execOf c).consume rows, rows)
          else ((u.execOf c).consume rows).convertRows a d rows) = r at hx
      have hr := hx r rfl
      split
      · have hw := State.writeBoxTile_leads (c := c) (i := i) (t := d) (rows := r.2)
          (State.putExec_leads (c := c) (x := r.1) hu (List.Subset.trans (List.Sublist.subset (by decide)) hp) hr) (List.Subset.trans (List.Sublist.subset (by decide)) hp)
        split
        · rename_i e
          rw [e] at hw
          exact hw
        · rename_i e
          rw [e] at hw
          exact State.regPaid_leads (State.modEntry_leads hw (List.Subset.trans (List.Sublist.subset (by decide)) hp)) (List.Subset.trans (List.Sublist.subset (by decide)) hp)
        · rename_i e
          rw [e] at hw
          exact hw
      · exact State.putExec_leads hu (List.Subset.trans (List.Sublist.subset (by decide)) hp) (fun i => Exec.writeRows_shape (hr i))
    have hsrc : Xfer.Leads ps s₀ (if a.space = 1 then s1.readBoxTile c i a else .done s1 ((s1.execOf c).readTile a)) := by
      split
      · exact State.readBoxTile_leads h1 (List.Subset.trans (List.Sublist.subset (by decide)) hp)
      · exact h1
    dsimp only at move ⊢
    generalize (if a.space = 1 then s1.readBoxTile c i a else .done s1 ((s1.execOf c).readTile a)) = src at hsrc
    cases src with
    | wait u => exact State.regPaid_leads hsrc (List.Subset.trans (List.Sublist.subset (by decide)) hp)
    | done u rows => exact move u rows hsrc
    | fail u rows f =>
      have hm := move u rows hsrc
      dsimp only at hm ⊢
      generalize hq : ite (d.space = 1) _ _ = q at hm ⊢
      cases q <;> exact hm

end Sys2Proof.Machine
end

