-- ==== Sys2Proof/Laws/LeadsClerk.lean ====
section
/-! SUPPORT. Frames of a core's units and clerks. -/

namespace Sys2Proof.Machine

theorem State.runLoad_leads {ps : List Part} {s₀ s : State} {c : ℕ} (hs : Leads ps s₀ s)
    (hp : [Part.freeCount, Part.regs, Part.ctr, Part.cores, Part.places, Part.pages, Part.arenaWait, Part.poolWait,
      Part.items, Part.boxes, Part.mem, Part.memPoison, Part.protUnits, Part.dies, Part.tier, Part.log] ⊆ ps) : Leads ps s₀ (s.runLoad c) := by
  unfold State.runLoad
  extract_lets k
  split
  · rename_i i cl td rest _ _
    split
    · exact hs
    · extract_lets t n
      split
      · rename_i e
        exact State.regulate_leads hs (List.Subset.trans (List.Sublist.subset (by decide)) hp) (.inr e)
      · rename_i s1 e
        have h1 : Leads ps s₀ s1 := State.regulate_leads hs (List.Subset.trans (List.Sublist.subset (by decide)) hp) (.inl e)
        have load : ∀ (u : State) (rows : List (List Elem)), Leads ps s₀ u → Leads ps s₀
            ((u.modCore c (fun k => { k with mxeQ := rest })).putExec c
              (((u.modCore c (fun k => { k with mxeQ := rest })).execOf c).loadShadow t.f rows t.rows t.cols cl)) := by
          intro u rows hu
          have hv : Leads ps s₀ (u.modCore c (fun k => { k with mxeQ := rest })) :=
            State.modCore_leads hu (List.Subset.trans (List.Sublist.subset (by decide)) hp) (fun _ h => h)
          exact State.putExec_leads hv (List.Subset.trans (List.Sublist.subset (by decide)) hp) (fun i => Exec.loadShadow_shape (State.execOf_shape (hv.inv i)))
        have hsrc : Xfer.Leads ps s₀
            (if t.space = 1 then s1.readBoxTile c i t else .done s1 ((s1.execOf c).readTile t)) := by
          split
          · exact State.readBoxTile_leads h1 (List.Subset.trans (List.Sublist.subset (by decide)) hp)
          · exact h1
        generalize (if t.space = 1 then s1.readBoxTile c i t else .done s1 ((s1.execOf c).readTile t)) = src at hsrc ⊢
        cases src with
        | wait u => exact State.regPaid_leads hsrc (List.Subset.trans (List.Sublist.subset (by decide)) hp)
        | done u rows => exact load u rows hsrc
        | fail u rows f => exact State.failRun_leads (load u rows hsrc) (List.Subset.trans (List.Sublist.subset (by decide)) hp)
  · exact hs

theorem State.broadcastHead_leads {ps : List Part} {s₀ s : State} {c : ℕ} {op : MxeOp} {rest : List MxeOp}
    (hs : Leads ps s₀ s) (hp : [Part.ctr, Part.cores, Part.places, Part.items] ⊆ ps) :
    Leads ps s₀ (s.broadcastHead c op rest) := by
  cases op with
  | wl _ _ => exact hs
  | mul cl td ph ai ax sw =>
    have hv := State.modCore_leads (c := c) (f := fun k => { k with
      mxeQ := rest, phState := k.phState.set ph .accum
      drainQ := k.drainQ.map (fun d => if d.ph = ph then { d with after := d.after - 1 } else d) }) hs (List.Subset.trans (List.Sublist.subset (by decide)) hp)
      (fun k h => ⟨h.1, h.2.1, by simpa using h.2.2.1, h.2.2.2⟩)
    exact State.putExec_leads hv (List.Subset.trans (List.Sublist.subset (by decide)) hp) (fun i => Exec.broadcast_shape (State.execOf_shape (hv.inv i)))

theorem State.runMuls_leads {ps : List Part} {s₀ s : State} {n c : ℕ} (hs : Leads ps s₀ s)
    (hp : [Part.ctr, Part.cores, Part.places, Part.items] ⊆ ps) : Leads ps s₀ (State.runMuls n s c) := by
  induction n generalizing s with
  | zero => exact hs
  | succ n ih =>
    unfold State.runMuls
    dsimp only
    split
    · split
      · exact hs
      · exact ih (State.broadcastHead_leads hs hp)
    · exact hs

theorem State.runDrain_leads {ps : List Part} {s₀ s : State} {c : ℕ} (hs : Leads ps s₀ s)
    (hp : [Part.ctr, Part.cores, Part.places, Part.items, Part.tier] ⊆ ps) : Leads ps s₀ (s.runDrain c) := by
  unfold State.runDrain
  extract_lets +onlyGivenNames k
  split
  · rename_i i d rest _ _ _
    split
    · exact hs
    · extract_lets +onlyGivenNames x ws dest ch
      split
      · exact State.touch_leads hs (List.Subset.trans (List.Sublist.subset (by decide)) hp)
      · refine State.putExec_leads (State.notePoison_leads hs (List.Subset.trans (List.Sublist.subset (by decide)) hp)) (List.Subset.trans (List.Sublist.subset (by decide)) hp) (fun i => ?_)
        have hx := State.execOf_shape (c := c) ((State.notePoison_leads (c := c) (va := ch.2.2.1) hs (List.Subset.trans (List.Sublist.subset (by decide)) hp)).inv i)
        refine (fun (hy : Core.Shape _) => ⟨hy.1, hy.2.1, List.length_set.trans hy.2.2.1, hy.2.2.2⟩)
          (Exec.drainAll_shape ?_)
        split <;> exact hx
  · exact hs

theorem State.runCourier_leads {ps : List Part} {s₀ s : State} {n c q : ℕ} (hs : Leads ps s₀ s)
    (hp : [Part.freeCount, Part.regs, Part.ctr, Part.cores, Part.places, Part.pages, Part.arenaWait, Part.poolWait,
      Part.items, Part.boxes, Part.mem, Part.memPoison, Part.protUnits, Part.dies, Part.tier, Part.log] ⊆ ps) : Leads ps s₀ (State.runCourier n s c q) := by
  induction n generalizing s with
  | zero => exact hs
  | succ n ih =>
    unfold State.runCourier
    extract_lets k
    split
    · rename_i i _ d a rest _ _
      have h := State.runCrr_leads (c := c) (i := i) (d := Tile.ofBits d) (a := Tile.ofBits a) hs (List.Subset.trans (List.Sublist.subset (by decide)) hp)
      generalize s.runCrr c i (Tile.ofBits d) (Tile.ofBits a) = r at h ⊢
      cases r with
      | wait u => exact h
      | done u _ => exact ih (State.modCore_leads h (List.Subset.trans (List.Sublist.subset (by decide)) hp) (fun k hk => ⟨hk.1, hk.2.1, hk.2.2.1, by simpa using hk.2.2.2⟩))
      | fail u _ f => exact State.failRun_leads h (List.Subset.trans (List.Sublist.subset (by decide)) hp)
    · exact hs

theorem State.runUnits_leads {ps : List Part} {s₀ s : State} {c : ℕ} (hs : Leads ps s₀ s)
    (hp : [Part.freeCount, Part.regs, Part.ctr, Part.cores, Part.places, Part.pages, Part.arenaWait, Part.poolWait,
      Part.items, Part.boxes, Part.mem, Part.memPoison, Part.protUnits, Part.dies, Part.tier, Part.log] ⊆ ps) : Leads ps s₀ (s.runUnits c) :=
  Leads.foldl _ (State.runDrain_leads (State.runMuls_leads (State.runLoad_leads hs hp) (List.Subset.trans (List.Sublist.subset (by decide)) hp)) (List.Subset.trans (List.Sublist.subset (by decide)) hp))
    (fun _ _ hu => State.runCourier_leads hu hp)

theorem State.modClerk_leads {ps : List Part} {s₀ s : State} {c cl : ℕ} {f : Clerk → Clerk} (hs : Leads ps s₀ s)
    (hp : [Part.cores] ⊆ ps) (hf : ∀ q, q.Shape → (f q).Shape) : Leads ps s₀ (s.modClerk c cl f) :=
  State.modCore_leads hs hp (fun _ h => Core.shape_modClerk h hf)

theorem State.retire_leads {ps : List Part} {s₀ s : State} {c cl len : ℕ} (hs : Leads ps s₀ s)
    (hp : [Part.ctr, Part.cores] ⊆ ps) : Leads ps s₀ (s.retire c cl len) :=
  State.bump_leads (State.modClerk_leads hs (List.Subset.trans (List.Sublist.subset (by decide)) hp) (fun _ h => h)) (List.Subset.trans (List.Sublist.subset (by decide)) hp)

theorem State.stall_leads {ps : List Part} {s₀ s : State} {c cl : ℕ} (hs : Leads ps s₀ s)
    (hp : [Part.cores] ⊆ ps) : Leads ps s₀ (s.stall c cl) := State.modClerk_leads hs (List.Subset.trans (List.Sublist.subset (by decide)) hp) (fun _ h => h)

theorem State.trap_leads {ps : List Part} {s₀ s : State} {c cl cause : ℕ} (hs : Leads ps s₀ s)
    (hp : [Part.freeCount, Part.regs, Part.ctr, Part.cores, Part.places, Part.pages, Part.arenaWait, Part.poolWait,
      Part.items, Part.boxes] ⊆ ps) : Leads ps s₀ (s.trap c cl cause) :=
  State.modClerk_leads (State.failRun_leads hs (List.Subset.trans (List.Sublist.subset (by decide)) hp)) (List.Subset.trans (List.Sublist.subset (by decide)) hp) (fun _ h => h)

theorem State.issue_leads {ps : List Part} {s₀ s : State} {c cl : ℕ} {full : Bool} {check : Option Fail}
    {push : Core → Core} (hs : Leads ps s₀ s) (hp : [Part.freeCount, Part.regs, Part.ctr, Part.cores, Part.places, Part.pages, Part.arenaWait, Part.poolWait,
      Part.items, Part.boxes, Part.mem, Part.memPoison, Part.protUnits, Part.dies, Part.tier, Part.log] ⊆ ps) (hf : ∀ k, k.Shape → (push k).Shape) :
    Leads ps s₀ (s.issue c cl full check push) := by
  unfold State.issue
  split
  · exact State.stall_leads hs (List.Subset.trans (List.Sublist.subset (by decide)) hp)
  · split
    · exact State.failRun_leads hs (List.Subset.trans (List.Sublist.subset (by decide)) hp)
    · exact State.runUnits_leads (State.retire_leads (State.modCore_leads hs (List.Subset.trans (List.Sublist.subset (by decide)) hp) hf) (List.Subset.trans (List.Sublist.subset (by decide)) hp)) hp

theorem State.issueMxwl_leads {ps : List Part} {s₀ s : State} {c : ℕ} {cl : ℕ} {td : ℕ} (hs : Leads ps s₀ s)
    (hp : [Part.freeCount, Part.regs, Part.ctr, Part.cores, Part.places, Part.pages, Part.arenaWait, Part.poolWait, Part.items, Part.boxes, Part.mem, Part.memPoison, Part.protUnits, Part.dies, Part.tier, Part.log] ⊆ ps) : Leads ps s₀ (State.issueMxwl s c cl td) := by
  unfold State.issueMxwl
  repeat' first
    | with_reducible assumption
    | extract_lets
    | with_reducible refine State.issue_leads ?_ ?_ ?_
    | exact fun _ h => h
    | split

theorem State.issueMxmul_leads {ps : List Part} {s₀ s : State} {c cl td ph : ℕ} {ai ax sw : Bool} (hs : Leads ps s₀ s)
    (hp : [Part.freeCount, Part.regs, Part.ctr, Part.cores, Part.places, Part.pages, Part.arenaWait, Part.poolWait,
      Part.items, Part.boxes, Part.mem, Part.memPoison, Part.protUnits, Part.dies, Part.tier, Part.log] ⊆ ps) : Leads ps s₀ (s.issueMxmul c cl td ph ai ax sw) := by
  refine State.issue_leads hs hp (fun k h => ⟨h.1, h.2.1, ?_, h.2.2.2⟩)
  dsimp only
  split
  · simpa using h.2.2.1
  · exact h.2.2.1

theorem State.issueDrn_leads {ps : List Part} {s₀ s : State} {c cl d r ph ch : ℕ} (hs : Leads ps s₀ s)
    (hp : [Part.freeCount, Part.regs, Part.ctr, Part.cores, Part.places, Part.pages, Part.arenaWait, Part.poolWait,
      Part.items, Part.boxes, Part.mem, Part.memPoison, Part.protUnits, Part.dies, Part.tier, Part.log] ⊆ ps) : Leads ps s₀ (s.issueDrn c cl d r ph ch) := by
  unfold State.issueDrn
  extract_lets k
  split
  · exact hs
  · refine State.issue_leads hs hp (fun k h => ?_)
    exact Core.shape_modClerk (f := fun q => { q with parm := 0 }) h (fun _ h => h)

theorem State.issueCrr_leads {ps : List Part} {s₀ s : State} {c cl d r q : ℕ} (hs : Leads ps s₀ s)
    (hp : [Part.freeCount, Part.regs, Part.ctr, Part.cores, Part.places, Part.pages, Part.arenaWait, Part.poolWait,
      Part.items, Part.boxes, Part.mem, Part.memPoison, Part.protUnits, Part.dies, Part.tier, Part.log] ⊆ ps) : Leads ps s₀ (s.issueCrr c cl d r q) := by
  unfold State.issueCrr
  extract_lets k
  split
  · exact hs
  · exact State.issue_leads hs hp (fun k h => ⟨h.1, h.2.1, h.2.2.1, by simpa using h.2.2.2⟩)

theorem State.vxop_leads {ps : List Part} {s₀ s : State} {c cl op : ℕ} {f : Exec → Vx → Res} (hs : Leads ps s₀ s)
    (hp : [Part.freeCount, Part.regs, Part.ctr, Part.cores, Part.places, Part.pages, Part.arenaWait, Part.poolWait,
      Part.items, Part.boxes] ⊆ ps) (hf : ∀ x v, x.core.Shape → (f x v).Shape) : Leads ps s₀ (s.vxop c cl op f) := by
  unfold State.vxop
  split
  · split
    · exact hs
    · extract_lets q
      split
      · exact State.failRun_leads hs hp
      · rename_i x e
        refine State.retire_leads (State.modClerk_leads (State.putExec_leads hs (List.Subset.trans (List.Sublist.subset (by decide)) hp) (fun i => ?_)) (List.Subset.trans (List.Sublist.subset (by decide)) hp) (fun _ h => h)) (List.Subset.trans (List.Sublist.subset (by decide)) hp)
        change Res.Shape (.ok x)
        rw [← e]
        exact hf _ _ (State.execOf_shape (hs.inv i))
  · exact hs

end Sys2Proof.Machine
end

