-- ==== Sys2Proof/Laws/LeadsWalker.lean ====
section
/-! SUPPORT. Frames of the walker. -/

namespace Sys2Proof.Machine

theorem State.modPage_leads {ps : List Part} {s₀ s : State} {da : ℕ} {f : KvPage → KvPage} (hs : Leads ps s₀ s)
    (hp : [Part.pages] ⊆ ps) : Leads ps s₀ (State.modPage s da f) := by
  unfold State.modPage
  repeat' first
    | with_reducible assumption
    | with_reducible exact List.Subset.trans (List.Sublist.subset (by decide)) hp
    | with_reducible refine Leads.ite ?_ ?_
    | split
    | with_reducible refine Leads.pages ?_ ?_

theorem State.allocPage_leads {ps : List Part} {s₀ s t : State} {b run da : ℕ} (hs : Leads ps s₀ s)
    (hp : [Part.freeCount, Part.pages] ⊆ ps) (h : s.allocPage b run = some (da, t)) : Leads ps s₀ t := by
  unfold State.allocPage at h
  split at h
  · cases h
  · simp only [Option.some.injEq, Prod.mk.injEq] at h
    rw [← h.2]
    exact Leads.pages (State.draw_leads hs (List.Subset.trans (List.Sublist.subset (by decide)) hp)) (List.Subset.trans (List.Sublist.subset (by decide)) hp)

theorem State.addLists_leads {ps : List Part} {s₀ s : State} {streams : List ℕ} {r : LayerRec} {sig : W32} (hs : Leads ps s₀ s)
    (hp : [Part.places] ⊆ ps) : Leads ps s₀ (State.addLists s streams r sig) := by
  unfold State.addLists
  repeat' first
    | with_reducible assumption
    | with_reducible exact List.Subset.trans (List.Sublist.subset (by decide)) hp
    | with_reducible refine State.modPlace_leads ?_ ?_
    | with_reducible refine Leads.ite ?_ ?_
    | (with_reducible refine Leads.foldl _ ?_ ?_; rotate_left; intro u x hu)
    | split

theorem State.listsFor_leads {ps : List Part} {s₀ s : State} {x : WalkCtx} {r : LayerRec} {sig : W32} (hs : Leads ps s₀ s)
    (hp : [Part.places] ⊆ ps) : LeadsO ps s₀ (State.listsFor s x r sig) := by
  unfold State.listsFor
  repeat' first
    | with_reducible assumption
    | with_reducible exact List.Subset.trans (List.Sublist.subset (by decide)) hp
    | extract_lets
    | with_reducible refine State.addLists_leads ?_ ?_
    | with_reducible refine Leads.ite ?_ ?_
    | exact LeadsO.none
    | refine LeadsO.some ?_
    | split

theorem State.fixLayer_leads {ps : List Part} {s₀ s : State} {x : WalkCtx} {r : LayerRec} {rec : ℕ} (hs : Leads ps s₀ s)
    (hp : [Part.groups] ⊆ ps) : Leads ps s₀ (State.fixLayer s x r rec) := by
  unfold State.fixLayer
  repeat' first
    | with_reducible assumption
    | with_reducible exact List.Subset.trans (List.Sublist.subset (by decide)) hp
    | with_reducible refine State.modGroup_leads ?_ ?_
    | with_reducible refine Leads.ite ?_ ?_
    | split

theorem State.endWalk_leads {ps : List Part} {s₀ s : State} {c q : ℕ} (hs : Leads ps s₀ s)
    (hp : [Part.freeCount, Part.regs, Part.ctr, Part.cores, Part.places, Part.pages, Part.arenaWait, Part.poolWait,
      Part.items, Part.boxes, Part.mem, Part.memPoison, Part.protUnits, Part.dies, Part.tier, Part.log] ⊆ ps) : Leads ps s₀ (s.endWalk c q) :=
  State.runUnits_leads (State.modCore_leads hs (List.Subset.trans (List.Sublist.subset (by decide)) hp) (fun k h => ⟨h.1, h.2.1, h.2.2.1, by simpa using h.2.2.2⟩)) hp

theorem State.lookup_leads {ps : List Part} {s₀ s : State} {c : ℕ} {box : ℕ} {x : WalkCtx} {layer : ℕ} {e : Pte} (hs : Leads ps s₀ s)
    (hp : [Part.ctr, Part.cores] ⊆ ps) : Leads ps s₀ (State.lookup s c box x layer e) := by
  unfold State.lookup
  repeat' first
    | with_reducible assumption
    | with_reducible exact List.Subset.trans (List.Sublist.subset (by decide)) hp
    | extract_lets
    | with_reducible refine State.bump_leads ?_ ?_
    | with_reducible refine State.modCore_leads ?_ ?_ ?_
    | with_reducible refine Leads.ite ?_ ?_
    | exact fun _ => rfl
    | (intro _; simp; done)
    | exact fun _ h => h
    | (intro _ hk; try dsimp only
       split <;> exact hk)
    | split

theorem State.gather_leads {ps : List Part} {s₀ s : State} {c q : ℕ} {value : Bool} (hs : Leads ps s₀ s)
    (hp : [Part.freeCount, Part.regs, Part.ctr, Part.cores, Part.places, Part.pages, Part.arenaWait, Part.poolWait,
      Part.items, Part.boxes, Part.mem, Part.memPoison, Part.protUnits, Part.dies, Part.tier, Part.log] ⊆ ps) : Leads ps s₀ (s.gather c q value) := by
  unfold State.gather
  split
  · exact hs
  · split
    · exact hs
    · extract_lets +onlyGivenNames dir
      split
      · exact State.failRun_leads hs (List.Subset.trans (List.Sublist.subset (by decide)) hp)
      · exact State.endWalk_leads hs hp
      · extract_lets +onlyGivenNames sel gs pages u y
        have hu : Leads ps s₀ u := Leads.foldl _ hs (fun v p hv => by
          split
          · exact State.lookup_leads hv (List.Subset.trans (List.Sublist.subset (by decide)) hp)
          · exact hv)
        refine State.endWalk_leads (State.bump_leads (State.putExec_leads hu (List.Subset.trans (List.Sublist.subset (by decide)) hp) (fun i => ?_)) (List.Subset.trans (List.Sublist.subset (by decide)) hp)) hp
        refine Exec.foldl_shape (fun y g hy => ?_) (State.execOf_shape (hu.inv i))
        split
        · exact hy
        · split
          · exact hy
          · exact Exec.putCbuf_shape hy


theorem State.cow_leads {ps : List Part} {s₀ s : State} {c box : ℕ} {x : WalkCtx} {r : LayerRec} {e : Pte}
    (hs : Leads ps s₀ s) (hp : [Part.freeCount, Part.ctr, Part.cores, Part.places, Part.pages] ⊆ ps) :
    LeadsO ps s₀ (s.cow c box x r e) := by
  unfold State.cow
  split
  · exact LeadsO.some hs
  · split
    · exact LeadsO.some hs
    · intro t h
      obtain ⟨a, e', rfl⟩ := Option.map_eq_some_iff.1 h
      exact State.bump_leads (State.dropLab_leads (State.modPlace_leads (Leads.pages (Leads.pages
        (State.allocPage_leads hs (List.Subset.trans (List.Sublist.subset (by decide)) hp) e') (List.Subset.trans (List.Sublist.subset (by decide)) hp)) (List.Subset.trans (List.Sublist.subset (by decide)) hp)) (List.Subset.trans (List.Sublist.subset (by decide)) hp)) (List.Subset.trans (List.Sublist.subset (by decide)) hp)) (List.Subset.trans (List.Sublist.subset (by decide)) hp)

theorem State.extendPage_leads {ps : List Part} {s₀ s : State} {box next : ℕ} {x : WalkCtx} {r : LayerRec}
    (hs : Leads ps s₀ s) (hp : [Part.freeCount, Part.ctr, Part.cores, Part.places, Part.pages] ⊆ ps) :
    LeadsO ps s₀ (s.extendPage box x r next) := by
  unfold State.extendPage
  intro t h
  obtain ⟨a, e, rfl⟩ := Option.map_eq_some_iff.1 h
  exact State.dropLab_leads (State.modPlace_leads (State.allocPage_leads hs (List.Subset.trans (List.Sublist.subset (by decide)) hp) e) (List.Subset.trans (List.Sublist.subset (by decide)) hp)) (List.Subset.trans (List.Sublist.subset (by decide)) hp)

theorem State.extend_leads {ps : List Part} {s₀ s : State} {n box g : ℕ} {x : WalkCtx} {r : LayerRec}
    (hs : Leads ps s₀ s) (hp : [Part.freeCount, Part.ctr, Part.cores, Part.places, Part.pages] ⊆ ps) :
    LeadsO ps s₀ (State.extend n s box x r g) := by
  induction n generalizing s with
  | zero => exact LeadsO.some hs
  | succ n ih =>
    unfold State.extend
    split
    · exact LeadsO.some hs
    · split
      · exact LeadsO.some hs
      · exact LeadsO.bind (State.extendPage_leads hs hp) (fun t ht => ih ht)

theorem State.waitPool_leads {ps : List Part} {s₀ s : State} {c : ℕ} {q : ℕ} {x : WalkCtx} {box : ℕ} {layer : ℕ} (hs : Leads ps s₀ s)
    (hp : [Part.regs, Part.cores, Part.poolWait, Part.log] ⊆ ps) : Leads ps s₀ (State.waitPool s c q x box layer) := by
  unfold State.waitPool
  repeat' first
    | with_reducible assumption
    | with_reducible exact List.Subset.trans (List.Sublist.subset (by decide)) hp
    | extract_lets
    | with_reducible refine State.modCore_leads ?_ ?_ ?_
    | with_reducible refine State.event_leads ?_ ?_
    | with_reducible refine State.changed_leads ?_ ?_
    | with_reducible refine Leads.ite ?_ ?_
    | exact fun _ => rfl
    | (intro _; simp; done)
    | exact fun _ h => h
    | (intro _ hk; try dsimp only
       split <;> exact hk)
    | split
    | with_reducible refine Leads.poolWait ?_ ?_

/-- A fold that stops at none, each step leading on, leads on. -/
theorem foldlOption_leads {α : Type} {f : Option State → α → Option State} {ps : List Part} {s₀ : State}
    (hf : ∀ y a z, Leads ps s₀ y → f (some y) a = some z → Leads ps s₀ z) (hn : ∀ a, f none a = none) {l : List α}
    {s t : State} (hs : Leads ps s₀ s) (h : l.foldl f (some s) = some t) : Leads ps s₀ t := by
  have none' : ∀ l : List α, l.foldl f none = none := by
    intro l
    induction l with
    | nil => rfl
    | cons a l ih => simpa [hn] using ih
  induction l generalizing s with
  | nil =>
    cases h
    exact hs
  | cons a l ih =>
    simp only [List.foldl_cons] at h
    cases e : f (some s) a with
    | none =>
      rw [e, none'] at h
      cases h
    | some u =>
      rw [e] at h
      exact ih (hf _ _ _ hs e) h

theorem State.prepare_leads {ps : List Part} {s₀ s t : State} {c frame : ℕ} {i : Inst} {x : WalkCtx} {w : WalkReq}
    (hs : Leads ps s₀ s) (hp : [Part.freeCount, Part.ctr, Part.cores, Part.places, Part.pages] ⊆ ps)
    (h : s.prepare c i x w frame = some t) : Leads ps s₀ t := by
  unfold State.prepare at h
  dsimp only at h
  split at h
  · cases h
  · rename_i u e
    have hu : Leads ps s₀ u := LeadsO.get e (State.listsFor_leads hs (List.Subset.trans (List.Sublist.subset (by decide)) hp))
    split at h
    · cases h
    · rename_i v e
      have hv : Leads ps s₀ v := LeadsO.get e (State.extend_leads (State.modPlace_leads hu (List.Subset.trans (List.Sublist.subset (by decide)) hp)) hp)
      split at h
      · cases h
        exact hv
      · refine foldlOption_leads (fun y p z hy hz => ?_) (fun _ => rfl) hv h
        dsimp only at hz
        split at hz
        · cases hz
          exact hy
        · exact LeadsO.get hz (State.cow_leads (State.lookup_leads hy (List.Subset.trans (List.Sublist.subset (by decide)) hp)) hp)

theorem State.append_leads {ps : List Part} {s₀ s : State} {c q : ℕ} {value : Bool} (hs : Leads ps s₀ s)
    (hp : [Part.freeCount, Part.regs, Part.ctr, Part.cores, Part.places, Part.pages, Part.arenaWait, Part.poolWait,
      Part.items, Part.boxes, Part.mem, Part.memPoison, Part.protUnits, Part.dies, Part.tier, Part.log] ⊆ ps) : Leads ps s₀ (s.append c q value) := by
  unfold State.append
  split
  · exact hs
  · split
    · exact hs
    · extract_lets +onlyGivenNames frame
      split
      · exact State.waitPool_leads hs (List.Subset.trans (List.Sublist.subset (by decide)) hp)
      · rename_i u e
        have hu : Leads ps s₀ u := State.prepare_leads hs (List.Subset.trans (List.Sublist.subset (by decide)) hp) e
        split
        · exact State.endWalk_leads hu hp
        · extract_lets +onlyGivenNames y g0 v
          have hv : Leads ps s₀ v := Leads.foldl _ hu (fun z k hz => by
            dsimp only
            split
            · exact hz
            · exact Leads.pages hz (List.Subset.trans (List.Sublist.subset (by decide)) hp))
          exact State.endWalk_leads (State.bump_leads (State.modPlace_leads (State.putExec_leads hv (List.Subset.trans (List.Sublist.subset (by decide)) hp)
            (fun i => State.execOf_shape (hv.inv i))) (List.Subset.trans (List.Sublist.subset (by decide)) hp)) (List.Subset.trans (List.Sublist.subset (by decide)) hp)) hp
  

theorem State.commitPages_leads {ps : List Part} {s₀ s : State} {stream : ℕ} {n : ℕ} (hs : Leads ps s₀ s)
    (hp : [Part.ctr, Part.cores, Part.places, Part.pages] ⊆ ps) : Leads ps s₀ (State.commitPages s stream n) := by
  unfold State.commitPages
  repeat' first
    | with_reducible assumption
    | with_reducible exact List.Subset.trans (List.Sublist.subset (by decide)) hp
    | extract_lets
    | with_reducible refine State.modPlace_leads ?_ ?_
    | with_reducible refine State.dropLab_leads ?_ ?_
    | (with_reducible refine Leads.foldl _ ?_ ?_; rotate_left; intro u x hu)
    | split
    | with_reducible refine Leads.pages ?_ ?_

end Sys2Proof.Machine
end

