-- ==== Sys2Proof/Laws/LeadsItem.lean ====
section
/-! SUPPORT. Frames of streams, items, residency and instances. -/

namespace Sys2Proof.Machine

theorem State.headerFailed_leads {ps : List Part} {s₀ s : State} {stream : ℕ} {why : ℕ} {core : Option ℕ} {tag : Option W64} (hs : Leads ps s₀ s)
    (hp : [Part.freeCount, Part.ctr, Part.places, Part.log] ⊆ ps) : Leads ps s₀ (State.headerFailed s stream why core tag) := by
  unfold State.headerFailed
  repeat' first
    | with_reducible assumption
    | with_reducible exact List.Subset.trans (List.Sublist.subset (by decide)) hp
    | extract_lets
    | with_reducible refine State.draw_leads ?_ ?_
    | with_reducible refine State.modPlace_leads ?_ ?_
    | with_reducible refine State.bump_leads ?_ ?_
    | with_reducible refine State.event_leads ?_ ?_

theorem State.beginOutbound_leads {ps : List Part} {s₀ s : State} {stream : ℕ} {forced : Bool} (hs : Leads ps s₀ s)
    (hp : [Part.ctr, Part.places, Part.log] ⊆ ps) : Leads ps s₀ (State.beginOutbound s stream forced) := by
  unfold State.beginOutbound
  repeat' first
    | with_reducible assumption
    | with_reducible exact List.Subset.trans (List.Sublist.subset (by decide)) hp
    | extract_lets
    | with_reducible refine State.modPlace_leads ?_ ?_
    | with_reducible refine State.event_leads ?_ ?_
    | with_reducible refine State.bump_leads ?_ ?_
    | with_reducible refine Leads.ite ?_ ?_

theorem State.evictFor_leads {ps : List Part} {s₀ s : State} {n b need : ℕ} (hs : Leads ps s₀ s)
    (hp : [Part.ctr, Part.places, Part.log] ⊆ ps) : Leads ps s₀ (State.evictFor n s b need) := by
  induction n generalizing s with
  | zero => exact hs
  | succ n ih =>
    unfold State.evictFor
    split
    · exact hs
    · split
      · exact hs
      · exact ih (State.beginOutbound_leads hs (List.Subset.trans (List.Sublist.subset (by decide)) hp))

theorem State.waitArena_leads {ps : List Part} {s₀ s : State} {i : Item} {k : ℕ} {need : ℕ} {home : ℕ}
    (hs : Leads ps s₀ s) (hp : [Part.ctr, Part.places, Part.arenaWait, Part.items, Part.log] ⊆ ps) : Leads ps s₀ (State.waitArena s i k need home) := by
  have he : Leads ps s₀ (State.evictFor s.places.length s i.box need) := State.evictFor_leads hs (List.Subset.trans (List.Sublist.subset (by decide)) hp)
  unfold State.waitArena
  generalize State.evictFor s.places.length s i.box need = u at he
  refine State.modItem_leads (Leads.ite (Leads.arenaWait ?_ (List.Subset.trans (List.Sublist.subset (by decide)) hp)) ?_) (List.Subset.trans (List.Sublist.subset (by decide)) hp)
  · exact Leads.when he (State.bump_leads he (List.Subset.trans (List.Sublist.subset (by decide)) hp))
  · exact Leads.when he (State.bump_leads he (List.Subset.trans (List.Sublist.subset (by decide)) hp))

theorem State.unwait_leads {ps : List Part} {s₀ s : State} {id : ℕ} {k : ℕ} (hs : Leads ps s₀ s)
    (hp : [Part.arenaWait] ⊆ ps) : Leads ps s₀ (State.unwait s id k) := by
  unfold State.unwait
  repeat' first
    | with_reducible assumption
    | with_reducible refine Leads.arenaWait ?_ ?_

theorem State.forkInto_leads {ps : List Part} {s₀ s : State} {src : ℕ} {dst : ℕ} (hs : Leads ps s₀ s)
    (hp : [Part.freeCount, Part.ctr, Part.cores, Part.places, Part.pages] ⊆ ps) : Leads ps s₀ (State.forkInto s src dst) := by
  unfold State.forkInto
  repeat' first
    | with_reducible assumption
    | with_reducible exact List.Subset.trans (List.Sublist.subset (by decide)) hp
    | extract_lets
    | with_reducible refine State.draw_leads ?_ ?_
    | with_reducible refine State.modPlace_leads ?_ ?_
    | with_reducible refine State.flushLab_leads ?_ ?_
    | split
    | with_reducible refine Leads.pages ?_ ?_

theorem State.sendPages_leads {ps : List Part} {s₀ s : State} {g : Group} {p : Place} (hs : Leads ps s₀ s)
    (hp : [Part.outbox, Part.freeCount, Part.ctr, Part.pages, Part.fab, Part.links] ⊆ ps) : Leads ps s₀ (State.sendPages s g p) := by
  unfold State.sendPages
  repeat' first
    | with_reducible assumption
    | with_reducible exact List.Subset.trans (List.Sublist.subset (by decide)) hp
    | extract_lets
    | with_reducible refine State.sendMsg_leads ?_ ?_
    | with_reducible refine State.modPage_leads ?_ ?_
    | with_reducible refine Leads.ite ?_ ?_
    | (with_reducible refine Leads.foldl _ ?_ ?_; rotate_left; intro u x hu)
    | split

theorem State.emitMirror_leads {ps : List Part} {s₀ s : State} {stream : ℕ} (hs : Leads ps s₀ s)
    (hp : [Part.outbox, Part.freeCount, Part.ctr, Part.places, Part.pages, Part.fab, Part.links] ⊆ ps) : Leads ps s₀ (State.emitMirror s stream) := by
  unfold State.emitMirror
  repeat' first
    | with_reducible assumption
    | with_reducible exact List.Subset.trans (List.Sublist.subset (by decide)) hp
    | extract_lets
    | with_reducible refine State.sendPages_leads ?_ ?_
    | with_reducible refine State.sendMsg_leads ?_ ?_
    | with_reducible refine State.modPlace_leads ?_ ?_
    | with_reducible refine State.bump_leads ?_ ?_
    | with_reducible refine Leads.ite ?_ ?_
    | split

theorem State.sendMirror_leads {ps : List Part} {s₀ s : State} {id : ℕ} {stream : ℕ} (hs : Leads ps s₀ s)
    (hp : [Part.outbox, Part.freeCount, Part.ctr, Part.places, Part.pages, Part.items, Part.fab, Part.links] ⊆ ps) : Leads ps s₀ (State.sendMirror s id stream) := by
  unfold State.sendMirror
  repeat' first
    | with_reducible assumption
    | with_reducible exact List.Subset.trans (List.Sublist.subset (by decide)) hp
    | with_reducible refine State.modItem_leads ?_ ?_
    | with_reducible refine State.emitMirror_leads ?_ ?_
    | with_reducible refine Leads.ite ?_ ?_
    | split

theorem State.markStarted_leads {ps : List Part} {s₀ s : State} {id : ℕ} (hs : Leads ps s₀ s)
    (hp : [Part.items] ⊆ ps) : Leads ps s₀ (State.markStarted s id) := by
  unfold State.markStarted
  repeat' first
    | with_reducible assumption
    | with_reducible refine State.modItem_leads ?_ ?_

theorem State.endOp_leads {ps : List Part} {s₀ s : State} {id : ℕ} (hs : Leads ps s₀ s)
    (hp : [Part.items] ⊆ ps) : Leads ps s₀ (State.endOp s id) := by
  unfold State.endOp
  repeat' first
    | with_reducible assumption
    | with_reducible refine State.modItem_leads ?_ ?_

theorem State.bringIn_leads {ps : List Part} {s₀ s : State} {i : Item} {k : ℕ} {stream : ℕ} (hs : Leads ps s₀ s)
    (hp : [Part.freeCount, Part.ctr, Part.places, Part.arenaWait, Part.items, Part.log] ⊆ ps) : Leads ps s₀ (State.bringIn s i k stream) := by
  unfold State.bringIn
  repeat' first
    | with_reducible assumption
    | with_reducible exact List.Subset.trans (List.Sublist.subset (by decide)) hp
    | extract_lets
    | with_reducible refine State.markStarted_leads ?_ ?_
    | with_reducible refine State.modPlace_leads ?_ ?_
    | with_reducible refine State.draw_leads ?_ ?_
    | with_reducible refine State.unwait_leads ?_ ?_
    | with_reducible refine State.waitArena_leads ?_ ?_
    | with_reducible refine Leads.ite ?_ ?_
    | split

theorem State.enterStep_leads {ps : List Part} {s₀ s : State} {i : Item} {k : ℕ} {p : Place} {g : Group} (hs : Leads ps s₀ s)
    (hp : [Part.freeCount, Part.ctr, Part.cores, Part.places, Part.pages, Part.arenaWait, Part.items, Part.log] ⊆ ps) : Leads ps s₀ (State.enterStep s i k p g) := by
  unfold State.enterStep
  dsimp only
  repeat' first
    | with_reducible assumption
    | with_reducible exact List.Subset.trans (List.Sublist.subset (by decide)) hp
    | with_reducible refine State.headerFailed_leads ?_ ?_
    | with_reducible refine State.failEntry_leads ?_ ?_
    | with_reducible refine State.modEntry_leads ?_ ?_
    | with_reducible refine State.modPlace_leads ?_ ?_
    | with_reducible refine State.dropHistory_leads ?_ ?_
    | with_reducible refine State.markStarted_leads ?_ ?_
    | with_reducible refine Leads.ite ?_ ?_
    | split

theorem State.stepEntry_leads {ps : List Part} {s₀ s : State} {id : ℕ} {k : ℕ} (hs : Leads ps s₀ s)
    (hp : [Part.freeCount, Part.ctr, Part.cores, Part.places, Part.pages, Part.arenaWait, Part.items, Part.log] ⊆ ps) : Leads ps s₀ (State.stepEntry s id k) := by
  unfold State.stepEntry
  repeat' first
    | with_reducible assumption
    | with_reducible exact List.Subset.trans (List.Sublist.subset (by decide)) hp
    | extract_lets
    | with_reducible refine State.failEntry_leads ?_ ?_
    | with_reducible refine State.leaveStep_leads ?_ ?_
    | with_reducible refine State.vacate_leads ?_ ?_
    | with_reducible refine State.modEntry_leads ?_ ?_
    | with_reducible refine State.bringIn_leads ?_ ?_
    | with_reducible refine State.enterStep_leads ?_ ?_
    | with_reducible refine Leads.ite ?_ ?_
    | split

theorem State.driftCheck_leads {ps : List Part} {s₀ s : State} {i : Item} {k : ℕ} {g : Group} (hs : Leads ps s₀ s)
    (hp : [Part.regs, Part.ctr, Part.items, Part.log] ⊆ ps) : Leads ps s₀ (State.driftCheck s i k g) := by
  unfold State.driftCheck
  repeat' first
    | with_reducible assumption
    | with_reducible exact List.Subset.trans (List.Sublist.subset (by decide)) hp
    | extract_lets
    | with_reducible refine State.bump_leads ?_ ?_
    | with_reducible refine State.setReg_leads ?_ ?_
    | with_reducible refine State.modEntry_leads ?_ ?_
    | with_reducible refine State.event_leads ?_ ?_
    | with_reducible refine Leads.ite ?_ ?_

theorem State.writeBack_leads {ps : List Part} {s₀ s : State} {e : Entry} {p : Place} {g : Group} {count : ℕ} (hs : Leads ps s₀ s)
    (hp : [Part.ctr, Part.places] ⊆ ps) : Leads ps s₀ (State.writeBack s e p g count) := by
  unfold State.writeBack
  dsimp only
  repeat' first
    | with_reducible assumption
    | with_reducible exact List.Subset.trans (List.Sublist.subset (by decide)) hp
    | with_reducible refine State.bump_leads ?_ ?_
    | with_reducible refine State.modPlace_leads ?_ ?_
    | split

theorem State.commitStep_leads {ps : List Part} {s₀ s : State} {i : Item} {k : ℕ} (hs : Leads ps s₀ s)
    (hp : [Part.outbox, Part.freeCount, Part.regs, Part.ctr, Part.cores, Part.places, Part.pages, Part.arenaWait, Part.items, Part.fab, Part.links, Part.log] ⊆ ps) : Leads ps s₀ (State.commitStep s i k) := by
  unfold State.commitStep
  repeat' first
    | with_reducible assumption
    | with_reducible exact List.Subset.trans (List.Sublist.subset (by decide)) hp
    | extract_lets
    | with_reducible refine State.failEntry_leads ?_ ?_
    | with_reducible refine State.driftCheck_leads ?_ ?_
    | with_reducible refine State.writeBack_leads ?_ ?_
    | with_reducible refine State.commitPages_leads ?_ ?_
    | with_reducible refine State.modPlace_leads ?_ ?_
    | with_reducible refine State.leaveStep_leads ?_ ?_
    | with_reducible refine State.sendMirror_leads ?_ ?_
    | with_reducible refine State.vacate_leads ?_ ?_
    | with_reducible refine State.modEntry_leads ?_ ?_
    | with_reducible refine Leads.ite ?_ ?_
    | split

theorem State.commitPrefill_leads {ps : List Part} {s₀ s : State} {i : Item} (hs : Leads ps s₀ s)
    (hp : [Part.outbox, Part.freeCount, Part.regs, Part.ctr, Part.cores, Part.places, Part.groups, Part.pages, Part.arenaWait, Part.poolWait, Part.items, Part.boxes, Part.mem, Part.memPoison, Part.protUnits, Part.tier, Part.fab, Part.links, Part.log] ⊆ ps) : Leads ps s₀ (State.commitPrefill s i) := by
  unfold State.commitPrefill
  repeat' first
    | with_reducible assumption
    | with_reducible exact List.Subset.trans (List.Sublist.subset (by decide)) hp
    | extract_lets
    | with_reducible refine State.driftCheck_leads ?_ ?_
    | with_reducible refine State.failItem_leads ?_ ?_
    | with_reducible refine State.writeBack_leads ?_ ?_
    | with_reducible refine State.commitPages_leads ?_ ?_
    | with_reducible refine State.modPlace_leads ?_ ?_
    | with_reducible refine State.modGroup_leads ?_ ?_
    | with_reducible refine State.sendMirror_leads ?_ ?_
    | with_reducible refine State.modEntry_leads ?_ ?_
    | with_reducible refine Leads.ite ?_ ?_
    | split
    | with_reducible refine Leads.places ?_ ?_

theorem State.openTry_leads {ps : List Part} {s₀ s : State} {i : Item} (hs : Leads ps s₀ s)
    (hp : [Part.outbox, Part.freeCount, Part.ctr, Part.cores, Part.places, Part.groups, Part.pages, Part.arenaWait, Part.poolWait, Part.items, Part.boxes, Part.mem, Part.memPoison, Part.protUnits, Part.tier, Part.fab, Part.links, Part.log] ⊆ ps) : Leads ps s₀ (State.openTry s i) := by
  unfold State.openTry
  repeat' first
    | with_reducible assumption
    | with_reducible exact List.Subset.trans (List.Sublist.subset (by decide)) hp
    | extract_lets
    | with_reducible refine State.failItem_leads ?_ ?_
    | with_reducible refine State.waitArena_leads ?_ ?_
    | with_reducible refine State.draw_leads ?_ ?_
    | with_reducible refine State.unwait_leads ?_ ?_
    | with_reducible refine State.modPlace_leads ?_ ?_
    | with_reducible refine State.markStarted_leads ?_ ?_
    | with_reducible refine State.modEntry_leads ?_ ?_
    | with_reducible refine Leads.ite ?_ ?_
    | split

theorem State.forkTry_leads {ps : List Part} {s₀ s : State} {i : Item} (hs : Leads ps s₀ s)
    (hp : [Part.outbox, Part.freeCount, Part.ctr, Part.cores, Part.places, Part.groups, Part.pages, Part.arenaWait, Part.poolWait, Part.items, Part.boxes, Part.mem, Part.memPoison, Part.protUnits, Part.tier, Part.fab, Part.links, Part.log] ⊆ ps) : Leads ps s₀ (State.forkTry s i) := by
  unfold State.forkTry
  repeat' first
    | with_reducible assumption
    | with_reducible exact List.Subset.trans (List.Sublist.subset (by decide)) hp
    | extract_lets
    | with_reducible refine State.failItem_leads ?_ ?_
    | with_reducible refine State.bringIn_leads ?_ ?_
    | with_reducible refine State.modPlace_leads ?_ ?_
    | with_reducible refine State.waitArena_leads ?_ ?_
    | with_reducible refine State.markStarted_leads ?_ ?_
    | with_reducible refine State.unwait_leads ?_ ?_
    | with_reducible refine State.forkInto_leads ?_ ?_
    | with_reducible refine State.sendMirror_leads ?_ ?_
    | with_reducible refine State.unpin_leads ?_ ?_
    | with_reducible refine State.vacate_leads ?_ ?_
    | with_reducible refine State.endOp_leads ?_ ?_
    | with_reducible refine Leads.ite ?_ ?_
    | (with_reducible refine Leads.foldl _ ?_ ?_; rotate_left; intro u x hu)
    | split

theorem State.cullApply_leads {ps : List Part} {s₀ s : State} {i : Item} {k : ℕ} {gone : List ℕ} {r : Refills} (hs : Leads ps s₀ s)
    (hp : [Part.outbox, Part.freeCount, Part.ctr, Part.cores, Part.places, Part.pages, Part.arenaWait, Part.items, Part.fab, Part.links] ⊆ ps) : LeadsO ps s₀ (State.cullApply s i k gone r) := by
  unfold State.cullApply
  repeat' first
    | with_reducible assumption
    | with_reducible exact List.Subset.trans (List.Sublist.subset (by decide)) hp
    | extract_lets
    | with_reducible refine State.markStarted_leads ?_ ?_
    | with_reducible refine State.unwait_leads ?_ ?_
    | with_reducible refine State.vacate_leads ?_ ?_
    | with_reducible refine State.forkInto_leads ?_ ?_
    | with_reducible refine State.sendMirror_leads ?_ ?_
    | (with_reducible refine Leads.foldl _ ?_ ?_; rotate_left; intro u x hu)
    | exact LeadsO.none
    | refine LeadsO.some ?_
    | split

theorem State.cullTry_leads {ps : List Part} {s₀ s : State} {i : Item} (hs : Leads ps s₀ s)
    (hp : [Part.outbox, Part.freeCount, Part.ctr, Part.cores, Part.places, Part.groups, Part.pages, Part.arenaWait, Part.poolWait, Part.items, Part.boxes, Part.mem, Part.memPoison, Part.protUnits, Part.tier, Part.fab, Part.links, Part.log] ⊆ ps) : Leads ps s₀ (State.cullTry s i) := by
  unfold State.cullTry
  repeat' first
    | with_reducible assumption
    | with_reducible exact List.Subset.trans (List.Sublist.subset (by decide)) hp
    | extract_lets
    | with_reducible refine State.failItem_leads ?_ ?_
    | refine LeadsO.get (by assumption) (State.cullApply_leads ?_ (List.Subset.trans (List.Sublist.subset (by decide)) hp))
    | with_reducible refine State.endOp_leads ?_ ?_
    | with_reducible refine State.waitArena_leads ?_ ?_
    | with_reducible refine Leads.ite ?_ ?_
    | split

theorem State.writeCulls_leads {ps : List Part} {s₀ s : State} {i : Item} {plans : List (Group × CullPlan)} (hs : Leads ps s₀ s)
    (hp : [Part.freeCount, Part.mem, Part.memPoison, Part.protUnits, Part.tier] ⊆ ps) : Leads ps s₀ (State.writeCulls s i plans) := by
  unfold State.writeCulls
  repeat' first
    | with_reducible assumption
    | with_reducible exact List.Subset.trans (List.Sublist.subset (by decide)) hp
    | extract_lets
    | with_reducible refine State.draw_leads ?_ ?_
    | with_reducible refine State.writeBox_leads ?_ ?_
    | with_reducible refine Leads.ite ?_ ?_

theorem State.boundaryCull_leads {ps : List Part} {s₀ s : State} {i : Item} (hs : Leads ps s₀ s)
    (hp : [Part.outbox, Part.freeCount, Part.ctr, Part.cores, Part.places, Part.pages, Part.arenaWait, Part.items, Part.mem, Part.memPoison, Part.protUnits, Part.tier, Part.fab, Part.links, Part.log] ⊆ ps) : Leads ps s₀ (s.boundaryCull i) := by
  unfold State.boundaryCull
  extract_lets d plans gone r
  have hd : Leads ps s₀ d.2 := State.draw_leads hs (List.Subset.trans (List.Sublist.subset (by decide)) hp)
  split
  · rename_i e
    exact State.modItem_leads (State.writeCulls_leads (LeadsO.get e (State.cullApply_leads hd (List.Subset.trans (List.Sublist.subset (by decide)) hp))) (List.Subset.trans (List.Sublist.subset (by decide)) hp)) (List.Subset.trans (List.Sublist.subset (by decide)) hp)
  · exact State.waitArena_leads hs (List.Subset.trans (List.Sublist.subset (by decide)) hp)

theorem State.settle_leads {ps : List Part} {s₀ s : State} {id : ℕ} {k : ℕ} {pinned : Bool} (hs : Leads ps s₀ s)
    (hp : [Part.items] ⊆ ps) : Leads ps s₀ (State.settle s id k pinned) := by
  unfold State.settle
  repeat' first
    | with_reducible assumption
    | with_reducible refine State.modEntry_leads ?_ ?_

theorem State.parkEntry_leads {ps : List Part} {s₀ s : State} {id : ℕ} {k : ℕ} (hs : Leads ps s₀ s)
    (hp : [Part.ctr, Part.places, Part.items, Part.log] ⊆ ps) : Leads ps s₀ (State.parkEntry s id k) := by
  unfold State.parkEntry
  repeat' first
    | with_reducible assumption
    | with_reducible exact List.Subset.trans (List.Sublist.subset (by decide)) hp
    | extract_lets
    | with_reducible refine State.settle_leads ?_ ?_
    | with_reducible refine State.bump_leads ?_ ?_
    | with_reducible refine State.markStarted_leads ?_ ?_
    | with_reducible refine State.beginOutbound_leads ?_ ?_
    | with_reducible refine Leads.ite ?_ ?_
    | split

theorem State.recallEntry_leads {ps : List Part} {s₀ s : State} {id : ℕ} {k : ℕ} (hs : Leads ps s₀ s)
    (hp : [Part.freeCount, Part.ctr, Part.places, Part.arenaWait, Part.items, Part.log] ⊆ ps) : Leads ps s₀ (State.recallEntry s id k) := by
  unfold State.recallEntry
  repeat' first
    | with_reducible assumption
    | with_reducible exact List.Subset.trans (List.Sublist.subset (by decide)) hp
    | extract_lets
    | with_reducible refine State.settle_leads ?_ ?_
    | with_reducible refine State.modPlace_leads ?_ ?_
    | with_reducible refine State.bringIn_leads ?_ ?_
    | with_reducible refine Leads.ite ?_ ?_
    | split

theorem State.eachEntry_leads {ps : List Part} {s₀ s : State} {i : Item} {f : State → ℕ → ℕ → State}
    (hs : Leads ps s₀ s) (hf : ∀ u n k, Leads ps s₀ u → Leads ps s₀ (f u n k)) : Leads ps s₀ (s.eachEntry i f) :=
  Leads.foldl _ hs (fun _ _ hu => hf _ _ _ hu)

theorem State.endEntries_leads {ps : List Part} {s₀ s : State} {i : Item} (hs : Leads ps s₀ s)
    (hp : [Part.ctr, Part.cores, Part.places, Part.pages, Part.items] ⊆ ps) : Leads ps s₀ (s.endEntries i) :=
  State.endOp_leads (State.eachEntry_leads hs (fun _ _ _ hu =>
    State.modEntry_leads (Leads.ite (State.vacate_leads hu (List.Subset.trans (List.Sublist.subset (by decide)) hp)) hu) (List.Subset.trans (List.Sublist.subset (by decide)) hp))) (List.Subset.trans (List.Sublist.subset (by decide)) hp)

theorem State.advanceItem_leads {ps : List Part} {s₀ s : State} {id : ℕ} (hs : Leads ps s₀ s)
    (hp : [Part.outbox, Part.freeCount, Part.ctr, Part.cores, Part.places, Part.groups, Part.pages, Part.arenaWait, Part.poolWait, Part.items, Part.boxes, Part.mem, Part.memPoison, Part.protUnits, Part.tier, Part.fab, Part.links, Part.log] ⊆ ps) : Leads ps s₀ (s.advanceItem id) := by
  have hstep : ∀ i, Leads ps s₀ (s.eachEntry i State.stepEntry) :=
    fun i => State.eachEntry_leads hs (fun _ _ _ hu => State.stepEntry_leads hu (List.Subset.trans (List.Sublist.subset (by decide)) hp))
  unfold State.advanceItem
  split
  · exact hs
  · refine Leads.ite hs (Leads.ite (State.openTry_leads hs (List.Subset.trans (List.Sublist.subset (by decide)) hp)) (Leads.ite (State.forkTry_leads hs (List.Subset.trans (List.Sublist.subset (by decide)) hp))
      (Leads.ite (Leads.ite (State.boundaryCull_leads (hstep _) (List.Subset.trans (List.Sublist.subset (by decide)) hp)) (hstep _)) (Leads.ite (State.cullTry_leads hs (List.Subset.trans (List.Sublist.subset (by decide)) hp))
      (Leads.ite ?_ (Leads.ite ?_ hs))))))
    · exact State.eachEntry_leads hs (fun _ _ _ hu => State.parkEntry_leads hu (List.Subset.trans (List.Sublist.subset (by decide)) hp))
    · exact State.eachEntry_leads hs (fun _ _ _ hu => State.recallEntry_leads hu (List.Subset.trans (List.Sublist.subset (by decide)) hp))

theorem State.takeEffect_leads {ps : List Part} {s₀ s : State} {id kind : ℕ} {f : State → Item → State}
    (hs : Leads ps s₀ s) (hp : [Part.outbox, Part.freeCount, Part.ctr, Part.cores, Part.places, Part.groups, Part.pages, Part.arenaWait, Part.poolWait, Part.items, Part.boxes, Part.mem, Part.memPoison, Part.protUnits, Part.tier, Part.fab, Part.links] ⊆ ps) (hf : ∀ u i, Leads ps s₀ u → Leads ps s₀ (f u i)) :
    Leads ps s₀ (s.takeEffect id kind f) := by
  unfold State.takeEffect
  split
  · exact hs
  · exact Leads.ite hs (Leads.ite (State.failItem_leads hs hp) (hf _ _ (State.modItem_leads hs (List.Subset.trans (List.Sublist.subset (by decide)) hp))))

theorem State.advanceAll_leads {ps : List Part} {s₀ s : State} {ids : List ℕ} (hs : Leads ps s₀ s)
    (hp : [Part.outbox, Part.freeCount, Part.ctr, Part.cores, Part.places, Part.groups, Part.pages, Part.arenaWait, Part.poolWait, Part.items, Part.boxes, Part.mem, Part.memPoison, Part.protUnits, Part.tier, Part.fab, Part.links, Part.log] ⊆ ps) : Leads ps s₀ (State.advanceAll s ids) := by
  unfold State.advanceAll
  repeat' first
    | with_reducible assumption
    | with_reducible refine State.advanceItem_leads ?_ ?_
    | (with_reducible refine Leads.foldl _ ?_ ?_; rotate_left; intro u x hu)

theorem State.failWaiters_leads {ps : List Part} {s₀ s : State} {stream : ℕ} (hs : Leads ps s₀ s)
    (hp : [Part.outbox, Part.freeCount, Part.ctr, Part.cores, Part.places, Part.groups, Part.pages, Part.arenaWait, Part.poolWait, Part.items, Part.boxes, Part.mem, Part.memPoison, Part.protUnits, Part.tier, Part.fab, Part.links] ⊆ ps) : Leads ps s₀ (State.failWaiters s stream) := by
  unfold State.failWaiters
  repeat' first
    | with_reducible assumption
    | with_reducible exact List.Subset.trans (List.Sublist.subset (by decide)) hp
    | extract_lets
    | with_reducible refine State.failItem_leads ?_ ?_
    | with_reducible refine State.failEntry_leads ?_ ?_
    | with_reducible refine Leads.ite ?_ ?_
    | (with_reducible refine Leads.foldl _ ?_ ?_; rotate_left; intro u x hu)
    | split

theorem State.releaseMirror_leads {ps : List Part} {s₀ s : State} {stream : ℕ} (hs : Leads ps s₀ s)
    (hp : [Part.outbox, Part.freeCount, Part.ctr, Part.items, Part.boxes, Part.fab, Part.links] ⊆ ps) : Leads ps s₀ (State.releaseMirror s stream) := by
  unfold State.releaseMirror
  repeat' first
    | with_reducible assumption
    | with_reducible exact List.Subset.trans (List.Sublist.subset (by decide)) hp
    | extract_lets
    | with_reducible refine State.modItem_leads ?_ ?_
    | with_reducible refine State.postItem_leads ?_ ?_
    | with_reducible refine Leads.ite ?_ ?_
    | (with_reducible refine Leads.foldl _ ?_ ?_; rotate_left; intro u x hu)
    | split

theorem State.registerGuest_leads {ps : List Part} {s₀ s : State} {src box frames : ℕ} {streams : List ℕ}
    {block params : ℕ} (hs : Leads ps s₀ s) (hp : [Part.freeCount, Part.places, Part.groups] ⊆ ps) :
    Leads ps s₀ (s.registerGuest src box frames streams block params) := by
  unfold State.registerGuest
  extract_lets +onlyGivenNames i
  clear_value i
  refine Leads.ite hs ?_
  generalize s.loadList box .step none (bits block 463 416) = a
  generalize s.loadList box .backward none = b
  split
  · exact hs
  · generalize (if _ = 0 then _ else _ : Except Fail (List KEntry × ℕ)) = c
    dsimp only
    split
    · exact hs
    · exact State.modGroup_leads (State.openGroup_leads hs (List.Subset.trans (List.Sublist.subset (by decide)) hp)) (List.Subset.trans (List.Sublist.subset (by decide)) hp)

theorem State.takeMirror_leads {ps : List Part} {s₀ s : State} {m : MirrorHeld} (hs : Leads ps s₀ s)
    (hp : [Part.mirrors] ⊆ ps) : Leads ps s₀ (State.takeMirror s m) := by
  unfold State.takeMirror
  repeat' first
    | with_reducible assumption
    | with_reducible refine Leads.ite ?_ ?_
    | with_reducible refine Leads.mirrors ?_ ?_

theorem State.takeMirrorPage_leads {ps : List Part} {s₀ s : State} {p : MirrorPage} (hs : Leads ps s₀ s)
    (hp : [Part.mirrorPages] ⊆ ps) : Leads ps s₀ (State.takeMirrorPage s p) := by
  unfold State.takeMirrorPage
  repeat' first
    | with_reducible assumption
    | with_reducible refine Leads.mirrorPages ?_ ?_

theorem State.adoptDirs_leads {ps : List Part} {s₀ s : State} {src : ℕ} {g : Group} {m : MirrorHeld} (hs : Leads ps s₀ s)
    (hp : [Part.places, Part.groups, Part.pages] ⊆ ps) : Leads ps s₀ (State.adoptDirs s src g m) := by
  unfold State.adoptDirs
  repeat' first
    | with_reducible assumption
    | with_reducible exact List.Subset.trans (List.Sublist.subset (by decide)) hp
    | extract_lets
    | with_reducible refine State.modPlace_leads ?_ ?_
    | with_reducible refine State.modGroup_leads ?_ ?_
    | with_reducible refine Leads.ite ?_ ?_
    | (with_reducible refine Leads.foldl _ ?_ ?_; rotate_left; intro u x hu)
    | split
    | with_reducible refine Leads.pages ?_ ?_

theorem State.adoptStream_leads {ps : List Part} {s₀ s : State} {src : ℕ} {g : Group} {m : MirrorHeld} (hs : Leads ps s₀ s)
    (hp : [Part.freeCount, Part.places, Part.groups, Part.pages] ⊆ ps) : Leads ps s₀ (State.adoptStream s src g m) := by
  unfold State.adoptStream
  repeat' first
    | with_reducible assumption
    | with_reducible exact List.Subset.trans (List.Sublist.subset (by decide)) hp
    | extract_lets
    | with_reducible refine State.draw_leads ?_ ?_
    | with_reducible refine State.modPlace_leads ?_ ?_
    | with_reducible refine State.adoptDirs_leads ?_ ?_

theorem State.adopt_leads {ps : List Part} {s₀ s : State} {src : ℕ} (hs : Leads ps s₀ s)
    (hp : [Part.freeCount, Part.places, Part.groups, Part.pages, Part.mirrors, Part.mirrorPages] ⊆ ps) : Leads ps s₀ (State.adopt s src) := by
  unfold State.adopt
  repeat' first
    | with_reducible assumption
    | with_reducible exact List.Subset.trans (List.Sublist.subset (by decide)) hp
    | extract_lets
    | with_reducible refine State.modGroup_leads ?_ ?_
    | with_reducible refine State.adoptStream_leads ?_ ?_
    | (with_reducible refine Leads.foldl _ ?_ ?_; rotate_left; intro u x hu)
    | with_reducible refine Leads.mirrors_mirrorPages ?_ ?_

theorem State.takeGang_leads {ps : List Part} {s₀ s : State} {i : Item} (hs : Leads ps s₀ s)
    (hp : [Part.ctr, Part.gang] ⊆ ps) : Leads ps s₀ (State.takeGang s i) := by
  unfold State.takeGang
  repeat' first
    | with_reducible assumption
    | with_reducible exact List.Subset.trans (List.Sublist.subset (by decide)) hp
    | with_reducible refine State.bump_leads ?_ ?_
    | with_reducible refine Leads.ite ?_ ?_
    | with_reducible refine Leads.gang ?_ ?_

theorem State.issueOn_leads {ps : List Part} {s₀ s : State} {i : Item} {x : Inst} {c : ℕ} {variant : Bool} {front : Bool} (hs : Leads ps s₀ s)
    (hp : [Part.ctr, Part.cores, Part.items] ⊆ ps) : Leads ps s₀ (State.issueOn s i x c variant front) := by
  unfold State.issueOn
  repeat' first
    | with_reducible assumption
    | with_reducible exact List.Subset.trans (List.Sublist.subset (by decide)) hp
    | extract_lets
    | with_reducible refine State.modCore_leads ?_ ?_ ?_
    | with_reducible refine State.bump_leads ?_ ?_
    | with_reducible refine State.markStarted_leads ?_ ?_
    | exact fun _ h => h

theorem State.countSkips_leads {ps : List Part} {s₀ s : State} {l : List ℕ} (hs : Leads ps s₀ s)
    (hp : [Part.ctr] ⊆ ps) : Leads ps s₀ (State.countSkips s l) := by
  unfold State.countSkips
  repeat' first
    | with_reducible assumption
    | with_reducible refine State.bump_leads ?_ ?_
    | (with_reducible refine Leads.foldl _ ?_ ?_; rotate_left; intro u x hu)

theorem State.acmShort_leads {ps : List Part} {s₀ s : State} {i : Item} {x : Inst} (hs : Leads ps s₀ s)
    (hp : [Part.outbox, Part.freeCount, Part.ctr, Part.cores, Part.places, Part.groups, Part.pages, Part.arenaWait, Part.poolWait, Part.items, Part.boxes, Part.mem, Part.memPoison, Part.protUnits, Part.tier, Part.fab, Part.links] ⊆ ps) : Leads ps s₀ (State.acmShort s i x) := by
  unfold State.acmShort
  repeat' first
    | with_reducible assumption
    | with_reducible exact List.Subset.trans (List.Sublist.subset (by decide)) hp
    | with_reducible refine State.failItem_leads ?_ ?_
    | with_reducible refine State.bump_leads ?_ ?_

theorem State.placeChain_leads {ps : List Part} {s₀ s : State} {i : Item} {c : ℕ} {x : Inst} (hs : Leads ps s₀ s)
    (hp : [Part.outbox, Part.freeCount, Part.ctr, Part.cores, Part.places, Part.groups, Part.pages, Part.arenaWait, Part.poolWait, Part.items, Part.boxes, Part.mem, Part.memPoison, Part.protUnits, Part.tier, Part.fab, Part.links] ⊆ ps) : Leads ps s₀ (State.placeChain s i c x) := by
  unfold State.placeChain
  repeat' first
    | with_reducible assumption
    | with_reducible exact List.Subset.trans (List.Sublist.subset (by decide)) hp
    | with_reducible refine State.issueOn_leads ?_ ?_
    | with_reducible refine State.countSkips_leads ?_ ?_
    | with_reducible refine State.acmShort_leads ?_ ?_
    | split

theorem State.placeNext_leads {ps : List Part} {s₀ s : State} {i : Item} {k : ℕ} {x : Inst} (hs : Leads ps s₀ s)
    (hp : [Part.outbox, Part.freeCount, Part.ctr, Part.cores, Part.places, Part.groups, Part.pages, Part.arenaWait, Part.poolWait, Part.items, Part.gang, Part.boxes, Part.mem, Part.memPoison, Part.protUnits, Part.tier, Part.fab, Part.links] ⊆ ps) : Leads ps s₀ (State.placeNext s i k x) := by
  unfold State.placeNext
  repeat' first
    | with_reducible assumption
    | with_reducible exact List.Subset.trans (List.Sublist.subset (by decide)) hp
    | extract_lets
    | with_reducible refine State.acmShort_leads ?_ ?_
    | with_reducible refine State.countSkips_leads ?_ ?_
    | with_reducible refine State.issueOn_leads ?_ ?_
    | with_reducible refine State.takeGang_leads ?_ ?_
    | with_reducible refine State.modEntry_leads ?_ ?_
    | split

theorem Core.shape_switchBox {k : Core} (h : k.Shape) : k.switchBox.Shape := by
  refine ⟨by simpa [Core.switchBox] using h.1, fun q hq => ?_, h.2.2⟩
  obtain ⟨y, hy, rfl⟩ := List.mem_map.1 hq
  exact h.2.1 y hy

theorem State.boxSwitch_leads {ps : List Part} {s₀ s : State} {c b : ℕ} (hs : Leads ps s₀ s)
    (hp : [Part.regs, Part.ctr, Part.cores, Part.boxes] ⊆ ps) : Leads ps s₀ (s.boxSwitch c b) := by
  unfold State.boxSwitch
  exact Leads.ite hs (State.changed_leads (State.bump_leads (State.chargeBox_leads
    (State.modCore_leads hs (List.Subset.trans (List.Sublist.subset (by decide)) hp) (fun _ h => Core.shape_switchBox h)) (List.Subset.trans (List.Sublist.subset (by decide)) hp)) (List.Subset.trans (List.Sublist.subset (by decide)) hp)) (List.Subset.trans (List.Sublist.subset (by decide)) hp))

theorem State.freePigeonholes_leads {ps : List Part} {s₀ s : State} {c : ℕ} {b : ℕ} (hs : Leads ps s₀ s)
    (hp : [Part.freeCount, Part.cores] ⊆ ps) : Leads ps s₀ (State.freePigeonholes s c b) := by
  unfold State.freePigeonholes
  repeat' first
    | with_reducible assumption
    | with_reducible exact List.Subset.trans (List.Sublist.subset (by decide)) hp
    | extract_lets
    | with_reducible refine State.draw_leads ?_ ?_
    | with_reducible refine State.modCore_leads ?_ ?_ ?_
    | with_reducible refine Leads.ite ?_ ?_
    | exact fun _ h => h

theorem State.clearWindow_leads {ps : List Part} {s₀ s : State} {n c need : ℕ} (hs : Leads ps s₀ s)
    (hp : [Part.places] ⊆ ps) : Leads ps s₀ (State.clearWindow n s c need) := by
  induction n generalizing s with
  | zero => exact hs
  | succ n ih =>
    unfold State.clearWindow
    refine Leads.ite hs ?_
    split
    · exact hs
    · exact ih (State.modPlace_leads hs hp)

theorem State.windowLoad_leads {ps : List Part} {s₀ s : State} {c stream : ℕ} {tag : W64} (hs : Leads ps s₀ s)
    (hp : [Part.freeCount, Part.ctr, Part.places, Part.log] ⊆ ps) : Leads ps s₀ (s.windowLoad c stream tag).1 := by
  unfold State.windowLoad
  split
  · split
    · exact State.bump_leads hs (List.Subset.trans (List.Sublist.subset (by decide)) hp)
    · have hb := fun n => State.bump_leads (p := .state) (i := c) (n := 0) (k := 1)
        (State.clearWindow_leads (n := s.places.length) (c := c) (need := n) hs (List.Subset.trans (List.Sublist.subset (by decide)) hp)) (List.Subset.trans (List.Sublist.subset (by decide)) hp)
      extract_lets a u v
      split
      · exact State.headerFailed_leads (hb _) (List.Subset.trans (List.Sublist.subset (by decide)) hp)
      · exact State.modPlace_leads (hb _) (List.Subset.trans (List.Sublist.subset (by decide)) hp)
  · exact hs

theorem State.markBegun_leads {ps : List Part} {s₀ s : State} {x : Inst} {c : ℕ} (hs : Leads ps s₀ s)
    (hp : [Part.items] ⊆ ps) : Leads ps s₀ (State.markBegun s x c) := by
  unfold State.markBegun
  repeat' first
    | with_reducible assumption
    | with_reducible refine State.modEntry_leads ?_ ?_

theorem Clerk.shape_begin {q : Clerk} {n : ℕ} {x : Inst} {ker : Kernel} (h : q.Shape) : (q.begin n x ker).Shape := by
  unfold Clerk.begin
  dsimp only
  split
  · exact ⟨by simp, by simp⟩
  · exact h

theorem Core.shape_beginRun {k : Core} {x : Inst} {ker : Kernel} (h : k.Shape) : (k.beginRun x ker).Shape := by
  refine ⟨by simpa [Core.beginRun] using h.1, fun q hq => ?_, by simp [Core.beginRun], rfl⟩
  obtain ⟨⟨y, n⟩, hy, rfl⟩ := List.mem_map.1 hq
  exact Clerk.shape_begin (h.2.1 y (List.fst_mem_of_mem_zipIdx hy))

theorem State.startInst_leads {ps : List Part} {s₀ s : State} {c : ℕ} {i : Item} {x : Inst} {ker : Kernel}
    (hs : Leads ps s₀ s) (hp : [Part.freeCount, Part.regs, Part.ctr, Part.cores, Part.places, Part.pages, Part.arenaWait, Part.items, Part.boxes, Part.log] ⊆ ps) : Leads ps s₀ (s.startInst c i x ker) := by
  unfold State.startInst
  extract_lets +onlyGivenNames load r
  have hl : Leads ps s₀ r.1 := by
    unfold r load
    split
    · exact State.windowLoad_leads hs (List.Subset.trans (List.Sublist.subset (by decide)) hp)
    · exact hs
  clear_value r
  refine Leads.ite (State.failEntry_leads (State.modCore_leads hl (List.Subset.trans (List.Sublist.subset (by decide)) hp) (fun _ h => h)) (List.Subset.trans (List.Sublist.subset (by decide)) hp)) ?_
  exact State.changed_leads (State.markStarted_leads (State.markBegun_leads (State.modCore_leads (State.boxSwitch_leads
    (State.freePigeonholes_leads hl (List.Subset.trans (List.Sublist.subset (by decide)) hp)) (List.Subset.trans (List.Sublist.subset (by decide)) hp)) (List.Subset.trans (List.Sublist.subset (by decide)) hp) (fun _ h => Core.shape_beginRun h)) (List.Subset.trans (List.Sublist.subset (by decide)) hp)) (List.Subset.trans (List.Sublist.subset (by decide)) hp)) (List.Subset.trans (List.Sublist.subset (by decide)) hp)

theorem State.releaseTapes_leads {ps : List Part} {s₀ s : State} {stream : ℕ} {first : ℕ} {count : ℕ} (hs : Leads ps s₀ s)
    (hp : [Part.places] ⊆ ps) : Leads ps s₀ (State.releaseTapes s stream first count) := by
  unfold State.releaseTapes
  repeat' first
    | with_reducible assumption
    | with_reducible refine State.modPlace_leads ?_ ?_

theorem State.listDone_leads {ps : List Part} {s₀ s : State} {i : Item} {k : ℕ} (hs : Leads ps s₀ s)
    (hp : [Part.places, Part.items] ⊆ ps) : Leads ps s₀ (State.listDone s i k) := by
  unfold State.listDone
  repeat' first
    | with_reducible assumption
    | with_reducible exact List.Subset.trans (List.Sublist.subset (by decide)) hp
    | extract_lets
    | with_reducible refine State.modEntry_leads ?_ ?_
    | with_reducible refine State.releaseTapes_leads ?_ ?_
    | with_reducible refine State.modPlace_leads ?_ ?_
    | with_reducible refine Leads.ite ?_ ?_

theorem State.instanceDone_leads {ps : List Part} {s₀ s : State} {c : ℕ} {x : Inst} (hs : Leads ps s₀ s)
    (hp : [Part.cores, Part.places, Part.items] ⊆ ps) : Leads ps s₀ (State.instanceDone s c x) := by
  unfold State.instanceDone
  repeat' first
    | with_reducible assumption
    | with_reducible exact List.Subset.trans (List.Sublist.subset (by decide)) hp
    | extract_lets
    | with_reducible refine State.modEntry_leads ?_ ?_
    | with_reducible refine State.modCore_leads ?_ ?_ ?_
    | with_reducible refine State.listDone_leads ?_ ?_
    | with_reducible refine Leads.when ?_ ?_
    | with_reducible refine Leads.ite ?_ ?_
    | exact fun _ h => h
    | split

end Sys2Proof.Machine
end

