-- ==== Sys2Proof/Laws/LeadsFabric.lean ====
section
/-! SUPPORT. Frames of the link fabric, formation and the patterns. -/

namespace Sys2Proof.Machine

theorem State.noteBundle_leads {ps : List Part} {s₀ s : State} {p : ℕ} {d : ℕ} {st : ℕ} {lost : Bool} (hs : Leads ps s₀ s)
    (hp : [Part.fab] ⊆ ps) : Leads ps s₀ (State.noteBundle s p d st lost) := by
  unfold State.noteBundle
  repeat' first
    | with_reducible assumption
    | with_reducible refine State.setFab_leads ?_ ?_

theorem State.bundleChange_leads {ps : List Part} {s₀ s : State} {port : ℕ} {old : BundleSt} (hs : Leads ps s₀ s)
    (hp : [Part.outbox, Part.freeCount, Part.regs, Part.ctr, Part.fab, Part.links] ⊆ ps) : Leads ps s₀ (State.bundleChange s port old) := by
  unfold State.bundleChange
  repeat' first
    | with_reducible assumption
    | with_reducible exact List.Subset.trans (List.Sublist.subset (by decide)) hp
    | extract_lets
    | with_reducible refine State.noteBundle_leads ?_ ?_
    | with_reducible refine State.changed_leads ?_ ?_
    | with_reducible refine State.floodMsg_leads ?_ ?_
    | with_reducible refine Leads.ite ?_ ?_

theorem State.moveLink_leads {ps : List Part} {s₀ s : State} {port : ℕ} {f : Link → Link} (hs : Leads ps s₀ s)
    (hp : [Part.outbox, Part.freeCount, Part.regs, Part.ctr, Part.fab, Part.links] ⊆ ps) : Leads ps s₀ (State.moveLink s port f) := by
  unfold State.moveLink
  repeat' first
    | with_reducible assumption
    | with_reducible exact List.Subset.trans (List.Sublist.subset (by decide)) hp
    | extract_lets
    | with_reducible refine State.bundleChange_leads ?_ ?_
    | with_reducible refine State.changed_leads ?_ ?_
    | with_reducible refine State.modLink_leads ?_ ?_

theorem State.linkGoal_leads {ps : List Part} {s₀ s : State} {far : ℕ} (hs : Leads ps s₀ s)
    (hp : [Part.freeCount] ⊆ ps) : Leads ps s₀ (State.linkGoal s far).2 := by
  unfold State.linkGoal
  repeat' first
    | with_reducible assumption
    | extract_lets
    | with_reducible refine State.draw_leads ?_ ?_
    | split

theorem State.leaveUp_leads {ps : List Part} {s₀ s : State} {port : ℕ} {st : LinkSt} (hs : Leads ps s₀ s)
    (hp : [Part.outbox, Part.freeCount, Part.regs, Part.ctr, Part.fab, Part.links, Part.log] ⊆ ps) : Leads ps s₀ (State.leaveUp s port st) := by
  unfold State.leaveUp
  repeat' first
    | with_reducible assumption
    | with_reducible exact List.Subset.trans (List.Sublist.subset (by decide)) hp
    | extract_lets
    | with_reducible refine State.moveLink_leads ?_ ?_
    | with_reducible refine State.event_leads ?_ ?_
    | with_reducible refine State.bump_leads ?_ ?_
    | with_reducible refine State.queueOn_leads ?_ ?_
    | with_reducible refine State.setFab_leads ?_ ?_
    | (with_reducible refine Leads.foldl _ ?_ ?_; rotate_left; intro u x hu)
    | split

theorem State.retrainPort_leads {ps : List Part} {s₀ s : State} {port : ℕ} (hs : Leads ps s₀ s)
    (hp : [Part.outbox, Part.freeCount, Part.regs, Part.ctr, Part.fab, Part.links, Part.log] ⊆ ps) : Leads ps s₀ (State.retrainPort s port) := by
  unfold State.retrainPort
  repeat' first
    | with_reducible assumption
    | with_reducible exact List.Subset.trans (List.Sublist.subset (by decide)) hp
    | with_reducible refine State.leaveUp_leads ?_ ?_
    | with_reducible refine State.moveLink_leads ?_ ?_
    | with_reducible refine Leads.ite ?_ ?_

theorem State.enableLink_leads {ps : List Part} {s₀ s : State} {port : ℕ} {on : Bool} (hs : Leads ps s₀ s)
    (hp : [Part.outbox, Part.freeCount, Part.regs, Part.ctr, Part.fab, Part.links, Part.log] ⊆ ps) : Leads ps s₀ (State.enableLink s port on) := by
  unfold State.enableLink
  repeat' first
    | with_reducible assumption
    | with_reducible exact List.Subset.trans (List.Sublist.subset (by decide)) hp
    | extract_lets
    | with_reducible refine State.setField_leads ?_ ?_
    | with_reducible refine State.moveLink_leads ?_ ?_
    | with_reducible refine State.leaveUp_leads ?_ ?_
    | with_reducible refine State.modLink_leads ?_ ?_
    | with_reducible refine Leads.ite ?_ ?_

theorem State.replayPort_leads {ps : List Part} {s₀ s : State} {port : ℕ} (hs : Leads ps s₀ s)
    (hp : [Part.outbox, Part.ctr, Part.links] ⊆ ps) : Leads ps s₀ (State.replayPort s port) := by
  unfold State.replayPort
  repeat' first
    | with_reducible assumption
    | with_reducible exact List.Subset.trans (List.Sublist.subset (by decide)) hp
    | extract_lets
    | with_reducible refine State.bump_leads ?_ ?_
    | with_reducible refine State.modLink_leads ?_ ?_
    | with_reducible refine State.emit_leads ?_ ?_
    | (with_reducible refine Leads.foldl _ ?_ ?_; rotate_left; intro u x hu)

theorem State.staleDrop_leads {ps : List Part} {s₀ s : State} {h : PktHdr} (hs : Leads ps s₀ s)
    (hp : [Part.ctr, Part.fab, Part.log] ⊆ ps) : Leads ps s₀ (State.staleDrop s h) := by
  unfold State.staleDrop
  repeat' first
    | with_reducible assumption
    | with_reducible exact List.Subset.trans (List.Sublist.subset (by decide)) hp
    | extract_lets
    | with_reducible refine State.bump_leads ?_ ?_
    | with_reducible refine State.event_leads ?_ ?_
    | with_reducible refine State.setFab_leads ?_ ?_
    | with_reducible refine Leads.ite ?_ ?_

theorem State.receive_leads {ps : List Part} {s₀ s : State} {h : PktHdr} {passing : Bool} (hs : Leads ps s₀ s)
    (hp : [Part.outbox, Part.ctr, Part.fab, Part.links, Part.log] ⊆ ps) : Leads ps s₀ (State.receive s h passing).1 := by
  unfold State.receive
  repeat' first
    | with_reducible assumption
    | with_reducible exact List.Subset.trans (List.Sublist.subset (by decide)) hp
    | extract_lets
    | with_reducible refine State.staleDrop_leads ?_ ?_
    | with_reducible refine State.bump_leads ?_ ?_
    | with_reducible refine State.emit_leads ?_ ?_
    | with_reducible refine State.modLink_leads ?_ ?_
    | with_reducible refine State.pumpPort_leads ?_ ?_
    | with_reducible refine Leads.ite ?_ ?_
    | split

theorem State.passOn_leads {ps : List Part} {s₀ s : State} {h : PktHdr} {flood : Bool} (hs : Leads ps s₀ s)
    (hp : [Part.outbox, Part.ctr, Part.fab, Part.links] ⊆ ps) : Leads ps s₀ (State.passOn s h flood) := by
  unfold State.passOn
  repeat' first
    | with_reducible assumption
    | with_reducible exact List.Subset.trans (List.Sublist.subset (by decide)) hp
    | extract_lets
    | with_reducible refine State.bump_leads ?_ ?_
    | with_reducible refine State.floodPkt_leads ?_ ?_
    | with_reducible refine State.routePkt_leads ?_ ?_
    | with_reducible refine Leads.ite ?_ ?_

theorem State.receiveFlood_leads {ps : List Part} {s₀ s : State} {h : PktHdr} {f : State → State} (hs : Leads ps s₀ s)
    (hp : [Part.outbox, Part.ctr, Part.fab, Part.links, Part.log] ⊆ ps) (hf : ∀ u, Leads ps s₀ u → Leads ps s₀ (f u)) : Leads ps s₀ (s.receiveFlood h f) := by
  unfold State.receiveFlood
  exact Leads.ite (State.receive_leads hs (List.Subset.trans (List.Sublist.subset (by decide)) hp)) (Leads.ite (State.bump_leads (State.receive_leads hs (List.Subset.trans (List.Sublist.subset (by decide)) hp)) (List.Subset.trans (List.Sublist.subset (by decide)) hp))
    (hf _ (State.passOn_leads (State.setFab_leads (State.receive_leads hs (List.Subset.trans (List.Sublist.subset (by decide)) hp)) (List.Subset.trans (List.Sublist.subset (by decide)) hp)) (List.Subset.trans (List.Sublist.subset (by decide)) hp))))

theorem State.receiveRouted_leads {ps : List Part} {s₀ s : State} {h : PktHdr} {f : State → State} (hs : Leads ps s₀ s)
    (hp : [Part.outbox, Part.ctr, Part.fab, Part.links, Part.log] ⊆ ps) (hf : ∀ u, Leads ps s₀ u → Leads ps s₀ (f u)) : Leads ps s₀ (s.receiveRouted h f) := by
  unfold State.receiveRouted
  exact Leads.ite (State.receive_leads hs (List.Subset.trans (List.Sublist.subset (by decide)) hp)) (Leads.ite (State.passOn_leads (State.receive_leads hs (List.Subset.trans (List.Sublist.subset (by decide)) hp)) (List.Subset.trans (List.Sublist.subset (by decide)) hp))
    (hf _ (State.receive_leads hs (List.Subset.trans (List.Sublist.subset (by decide)) hp))))

theorem State.setInbound_leads {ps : List Part} {s₀ s : State} {e : E2eIn} (hs : Leads ps s₀ s)
    (hp : [Part.fab] ⊆ ps) : Leads ps s₀ (State.setInbound s e) := by
  unfold State.setInbound
  repeat' first
    | with_reducible assumption
    | with_reducible refine State.setFab_leads ?_ ?_

theorem State.takeItem_leads {ps : List Part} {s₀ s : State} {box : ℕ} {ring : ℕ} {count : ℕ} {desc : List Byte} (hs : Leads ps s₀ s)
    (hp : [Part.outbox, Part.freeCount, Part.ctr, Part.cores, Part.places, Part.groups, Part.pages, Part.arenaWait, Part.poolWait, Part.items, Part.nextItem, Part.boxes, Part.mem, Part.memPoison, Part.protUnits, Part.tier, Part.fab, Part.links] ⊆ ps) : Leads ps s₀ (State.takeItem s box ring count desc) := by
  unfold State.takeItem
  repeat' first
    | with_reducible assumption
    | with_reducible exact List.Subset.trans (List.Sublist.subset (by decide)) hp
    | extract_lets
    | with_reducible refine State.refuse_leads ?_ ?_
    | with_reducible refine State.enterItem_leads ?_ ?_
    | with_reducible refine Leads.ite ?_ ?_

theorem State.takeHeldResult_leads {ps : List Part} {s₀ s : State} {src : ℕ} {box : ℕ} {tag : W64} {dead : Bool} {entry : List Byte} (hs : Leads ps s₀ s)
    (hp : [Part.outbox, Part.freeCount, Part.ctr, Part.items, Part.nextItem, Part.boxes, Part.fab, Part.links] ⊆ ps) : Leads ps s₀ (State.takeHeldResult s src box tag dead entry) := by
  unfold State.takeHeldResult
  repeat' first
    | with_reducible assumption
    | with_reducible exact List.Subset.trans (List.Sublist.subset (by decide)) hp
    | extract_lets
    | with_reducible refine State.post_leads ?_ ?_
    | with_reducible refine State.bump_leads ?_ ?_
    | with_reducible refine Leads.items_nextItem ?_ ?_

theorem State.takeResult_leads {ps : List Part} {s₀ s : State} {src : ℕ} {box : ℕ} {tag : W64} {dead : Bool} {entry : List Byte} (hs : Leads ps s₀ s)
    (hp : [Part.outbox, Part.freeCount, Part.ctr, Part.items, Part.nextItem, Part.boxes, Part.fab, Part.links] ⊆ ps) : Leads ps s₀ (State.takeResult s src box tag dead entry) := by
  unfold State.takeResult
  repeat' first
    | with_reducible assumption
    | with_reducible exact List.Subset.trans (List.Sublist.subset (by decide)) hp
    | extract_lets
    | with_reducible refine State.takeHeldResult_leads ?_ ?_
    | with_reducible refine State.modItem_leads ?_ ?_
    | with_reducible refine State.setFab_leads ?_ ?_
    | with_reducible refine State.bump_leads ?_ ?_
    | with_reducible refine State.post_leads ?_ ?_
    | with_reducible refine Leads.ite ?_ ?_
    | split

theorem State.takeTensor_leads {ps : List Part} {s₀ s : State} {box : ℕ} {va : ℕ} {data : List Byte} (hs : Leads ps s₀ s)
    (hp : [Part.mem, Part.memPoison, Part.protUnits, Part.tier] ⊆ ps) : Leads ps s₀ (State.takeTensor s box va data) := by
  unfold State.takeTensor
  repeat' first
    | with_reducible assumption
    | with_reducible refine State.writeBox_leads ?_ ?_
    | with_reducible refine Leads.when ?_ ?_

theorem State.takeBulk_leads {ps : List Part} {s₀ s : State} {src : ℕ} {msg : BulkMsg} (hs : Leads ps s₀ s)
    (hp : [Part.freeCount, Part.regs, Part.ctr, Part.places, Part.groups, Part.mirrors, Part.mirrorPages, Part.mem, Part.memPoison, Part.protUnits, Part.tier, Part.log, Part.fw, Part.sec] ⊆ ps) : Leads ps s₀ (State.takeBulk s src msg) := by
  unfold State.takeBulk
  repeat' first
    | with_reducible assumption
    | with_reducible exact List.Subset.trans (List.Sublist.subset (by decide)) hp
    | with_reducible refine State.takeMirror_leads ?_ ?_
    | with_reducible refine State.takeMirrorPage_leads ?_ ?_
    | with_reducible refine State.registerGuest_leads ?_ ?_
    | with_reducible refine State.relayedImage_leads ?_ ?_
    | with_reducible refine State.takeTensor_leads ?_ ?_
    | split

theorem State.runMsg_leads {ps : List Part} {s₀ s : State} {c : Instr} (hs : Leads ps s₀ s)
    (hp : [Part.outbox, Part.freeCount, Part.regs, Part.ctr, Part.cores, Part.places, Part.groups, Part.pages, Part.mirrors, Part.mirrorPages, Part.arenaWait, Part.poolWait, Part.items, Part.nextItem, Part.boxes, Part.mem, Part.memPoison, Part.protUnits, Part.tier, Part.fab, Part.links, Part.log, Part.fw, Part.sec] ⊆ ps) : Leads ps s₀ (State.runMsg s c) := by
  unfold State.runMsg
  repeat' first
    | with_reducible assumption
    | with_reducible exact List.Subset.trans (List.Sublist.subset (by decide)) hp
    | with_reducible refine State.takeItem_leads ?_ ?_
    | with_reducible refine State.takeResult_leads ?_ ?_
    | with_reducible refine State.takeBulk_leads ?_ ?_
    | split

theorem State.deliver_leads {run : State → Instr → State} {ps : List Part} {s₀ s : State} {n src cls seq : ℕ} {c : Instr}
    (hs : Leads ps s₀ s) (hp : [Part.fab] ⊆ ps) (hf : ∀ u i, Leads ps s₀ u → Leads ps s₀ (run u i)) :
    Leads ps s₀ (State.deliver run n s src cls seq c) := by
  induction n generalizing s seq c with
  | zero => exact hs
  | succ n ih =>
    have hset : ∀ e, Leads ps s₀ (s.setInbound e) := fun e => State.setInbound_leads hs (List.Subset.trans (List.Sublist.subset (by decide)) hp)
    unfold State.deliver
    dsimp only
    split
    · split
      · exact ih (hf _ _ (hset _))
      · exact hf _ _ (hset _)
    · exact Leads.ite hs (hset _)

theorem State.receiveMsg_leads {ps : List Part} {s₀ s : State} {h : PktHdr} {cls : ℕ} {c : Instr} (hs : Leads ps s₀ s)
    (hp : [Part.outbox, Part.freeCount, Part.regs, Part.ctr, Part.cores, Part.places, Part.groups, Part.pages, Part.mirrors, Part.mirrorPages, Part.arenaWait, Part.poolWait, Part.items, Part.nextItem, Part.boxes, Part.mem, Part.memPoison, Part.protUnits, Part.tier, Part.fab, Part.links, Part.log, Part.fw, Part.sec] ⊆ ps) : Leads ps s₀ (s.receiveMsg h cls c) :=
  State.receiveRouted_leads hs (List.Subset.trans (List.Sublist.subset (by decide)) hp) (fun _ hu => Leads.ite
    (State.ackMsg_leads (State.deliver_leads hu (List.Subset.trans (List.Sublist.subset (by decide)) hp) (fun _ _ hv => State.runMsg_leads hv (List.Subset.trans (List.Sublist.subset (by decide)) hp))) (List.Subset.trans (List.Sublist.subset (by decide)) hp)) hu)

theorem State.setMember_leads {ps : List Part} {s₀ s : State} {p : ℕ} {m : Member} (hs : Leads ps s₀ s)
    (hp : [Part.regs, Part.fab] ⊆ ps) : Leads ps s₀ (State.setMember s p m) := by
  unfold State.setMember
  repeat' first
    | with_reducible assumption
    | with_reducible exact List.Subset.trans (List.Sublist.subset (by decide)) hp
    | with_reducible refine State.changed_leads ?_ ?_
    | with_reducible refine State.setFab_leads ?_ ?_

theorem State.setEpoch_leads {ps : List Part} {s₀ s : State} {e : ℕ} (hs : Leads ps s₀ s)
    (hp : [Part.ctr, Part.fab] ⊆ ps) : Leads ps s₀ (State.setEpoch s e) := by
  unfold State.setEpoch
  repeat' first
    | with_reducible assumption
    | with_reducible exact List.Subset.trans (List.Sublist.subset (by decide)) hp
    | with_reducible refine State.bump_leads ?_ ?_
    | with_reducible refine State.setFab_leads ?_ ?_

theorem State.followEpoch_leads {ps : List Part} {s₀ s : State} {e : ℕ} (hs : Leads ps s₀ s)
    (hp : [Part.ctr, Part.fab] ⊆ ps) : Leads ps s₀ (State.followEpoch s e) := by
  unfold State.followEpoch
  repeat' first
    | with_reducible assumption
    | with_reducible refine State.setEpoch_leads ?_ ?_
    | with_reducible refine Leads.ite ?_ ?_

theorem State.loseMajority_leads {ps : List Part} {s₀ s : State}  (hs : Leads ps s₀ s)
    (hp : [Part.fab, Part.log] ⊆ ps) : Leads ps s₀ (State.loseMajority s) := by
  unfold State.loseMajority
  repeat' first
    | with_reducible assumption
    | with_reducible exact List.Subset.trans (List.Sublist.subset (by decide)) hp
    | with_reducible refine State.event_leads ?_ ?_
    | with_reducible refine State.setFab_leads ?_ ?_
    | with_reducible refine Leads.ite ?_ ?_

theorem State.cmdResult_leads {ps : List Part} {s₀ s : State} {r : ℕ} (hs : Leads ps s₀ s)
    (hp : [Part.regs, Part.fab] ⊆ ps) : Leads ps s₀ (State.cmdResult s r) := by
  unfold State.cmdResult
  repeat' first
    | with_reducible assumption
    | with_reducible exact List.Subset.trans (List.Sublist.subset (by decide)) hp
    | with_reducible refine State.changed_leads ?_ ?_
    | with_reducible refine State.setFab_leads ?_ ?_

theorem State.installRoutes_leads {ps : List Part} {s₀ s : State} {gen : ℕ} {routes : List ℕ} (hs : Leads ps s₀ s)
    (hp : [Part.fab] ⊆ ps) : Leads ps s₀ (State.installRoutes s gen routes) := by
  unfold State.installRoutes
  repeat' first
    | with_reducible assumption
    | extract_lets
    | with_reducible refine State.setFab_leads ?_ ?_

theorem State.startRoutes_leads {ps : List Part} {s₀ s : State} {count : Bool} (hs : Leads ps s₀ s)
    (hp : [Part.outbox, Part.freeCount, Part.ctr, Part.fab, Part.links] ⊆ ps) : Leads ps s₀ (State.startRoutes s count) := by
  unfold State.startRoutes
  repeat' first
    | with_reducible assumption
    | with_reducible exact List.Subset.trans (List.Sublist.subset (by decide)) hp
    | extract_lets
    | with_reducible refine State.bump_leads ?_ ?_
    | with_reducible refine State.setFab_leads ?_ ?_
    | with_reducible refine State.floodMsg_leads ?_ ?_
    | with_reducible refine State.installRoutes_leads ?_ ?_

theorem State.recompute_leads {ps : List Part} {s₀ s : State}  (hs : Leads ps s₀ s)
    (hp : [Part.outbox, Part.freeCount, Part.regs, Part.ctr, Part.fab, Part.links] ⊆ ps) : Leads ps s₀ (State.recompute s) := by
  unfold State.recompute
  repeat' first
    | with_reducible assumption
    | with_reducible exact List.Subset.trans (List.Sublist.subset (by decide)) hp
    | with_reducible refine State.cmdResult_leads ?_ ?_
    | with_reducible refine State.startRoutes_leads ?_ ?_
    | with_reducible refine State.flagAccess_leads ?_ ?_
    | with_reducible refine Leads.ite ?_ ?_

theorem State.takeTables_leads {ps : List Part} {s₀ s : State} {gen : ℕ} {routes : List ℕ} (hs : Leads ps s₀ s)
    (hp : [Part.outbox, Part.freeCount, Part.ctr, Part.fab, Part.links] ⊆ ps) : Leads ps s₀ (State.takeTables s gen routes) := by
  unfold State.takeTables
  repeat' first
    | with_reducible assumption
    | with_reducible exact List.Subset.trans (List.Sublist.subset (by decide)) hp
    | with_reducible refine State.floodMsg_leads ?_ ?_
    | with_reducible refine State.installRoutes_leads ?_ ?_
    | with_reducible refine Leads.ite ?_ ?_
    | split

theorem State.routeGo_leads {ps : List Part} {s₀ s : State}  (hs : Leads ps s₀ s)
    (hp : [Part.outbox, Part.freeCount, Part.ctr, Part.fab, Part.links] ⊆ ps) : Leads ps s₀ (State.routeGo s) := by
  unfold State.routeGo
  repeat' first
    | with_reducible assumption
    | with_reducible exact List.Subset.trans (List.Sublist.subset (by decide)) hp
    | with_reducible refine State.releaseWaiting_leads ?_ ?_
    | with_reducible refine State.resumeInjection_leads ?_ ?_
    | with_reducible refine State.setFab_leads ?_ ?_

theorem State.selfFence_leads {ps : List Part} {s₀ s : State} {epoch : ℕ} (hs : Leads ps s₀ s)
    (hp : [Part.pins, Part.time, Part.regs, Part.ctr, Part.cores, Part.places, Part.groups, Part.pages, Part.mirrors, Part.mirrorPages, Part.arenaWait, Part.poolWait, Part.items, Part.nextItem, Part.gang, Part.boxes, Part.mem, Part.memPoison, Part.protUnits, Part.hbm, Part.dies, Part.held, Part.tier, Part.cb, Part.fab, Part.links, Part.host, Part.log, Part.fw, Part.sec, Part.pwr, Part.test, Part.side] ⊆ ps) : Leads ps s₀ (State.selfFence s epoch) := by
  unfold State.selfFence
  repeat' first
    | with_reducible assumption
    | with_reducible exact List.Subset.trans (List.Sublist.subset (by decide)) hp
    | extract_lets
    | with_reducible refine State.event_leads ?_ ?_
    | with_reducible refine State.stopAll_leads ?_ ?_
    | with_reducible refine State.moduleReset_leads ?_ ?_
    | with_reducible refine State.flushRecorder_leads ?_ ?_

theorem State.fencePorts_leads {ps : List Part} {s₀ s : State} {p : ℕ} (hs : Leads ps s₀ s)
    (hp : [Part.outbox, Part.freeCount, Part.regs, Part.ctr, Part.fab, Part.links, Part.log] ⊆ ps) : Leads ps s₀ (State.fencePorts s p) := by
  unfold State.fencePorts
  repeat' first
    | with_reducible assumption
    | with_reducible exact List.Subset.trans (List.Sublist.subset (by decide)) hp
    | with_reducible refine State.leaveUp_leads ?_ ?_
    | with_reducible refine State.moveLink_leads ?_ ?_
    | with_reducible refine Leads.ite ?_ ?_
    | (with_reducible refine Leads.foldl _ ?_ ?_; rotate_left; intro u x hu)

theorem State.rebuddy_leads {ps : List Part} {s₀ s : State} {old : ℕ} {new : ℕ} (hs : Leads ps s₀ s)
    (hp : [Part.outbox, Part.freeCount, Part.ctr, Part.groups, Part.fab, Part.links] ⊆ ps) : Leads ps s₀ (State.rebuddy s old new) := by
  unfold State.rebuddy
  repeat' first
    | with_reducible assumption
    | with_reducible exact List.Subset.trans (List.Sublist.subset (by decide)) hp
    | with_reducible refine State.sendMsg_leads ?_ ?_
    | with_reducible refine State.modGroup_leads ?_ ?_
    | (with_reducible refine Leads.foldl _ ?_ ?_; rotate_left; intro u x hu)

theorem State.nextBuddy_leads {ps : List Part} {s₀ s : State} {old : ℕ} (hs : Leads ps s₀ s)
    (hp : [Part.freeCount] ⊆ ps) : Leads ps s₀ (s.nextBuddy old).2 := by
  unfold State.nextBuddy
  generalize (List.range 63).map (fun k => (old + 1 + k) % 64) = l
  suffices h : ∀ r : Option ℕ × State, Leads ps s₀ r.2 → Leads ps s₀ (l.foldl _ r).2 from h (none, s) hs
  induction l with
  | nil => exact fun _ h => h
  | cons a l ih =>
    intro r h
    refine ih _ ?_
    dsimp only
    split
    · exact h
    · split
      · exact h
      · exact State.buddyCan_leads (pos := a) h hp

theorem State.buddyLost_leads {ps : List Part} {s₀ s : State} {p : ℕ} (hs : Leads ps s₀ s)
    (hp : [Part.outbox, Part.freeCount, Part.ctr, Part.places, Part.groups, Part.fab, Part.links] ⊆ ps) : Leads ps s₀ (State.buddyLost s p) := by
  unfold State.buddyLost
  repeat' first
    | with_reducible assumption
    | with_reducible exact List.Subset.trans (List.Sublist.subset (by decide)) hp
    | extract_lets
    | with_reducible refine State.modPlace_leads ?_ ?_
    | with_reducible refine State.nextBuddy_leads ?_ ?_
    | with_reducible refine State.rebuddy_leads ?_ ?_
    | with_reducible refine Leads.ite ?_ ?_
    | (with_reducible refine Leads.foldl _ ?_ ?_; rotate_left; intro u x hu)
    | split

theorem State.applyDeath_leads {ps : List Part} {s₀ s : State} {p : ℕ} (hs : Leads ps s₀ s)
    (hp : [Part.outbox, Part.freeCount, Part.regs, Part.ctr, Part.places, Part.groups, Part.pages, Part.mirrors, Part.mirrorPages, Part.fab, Part.links, Part.log] ⊆ ps) : Leads ps s₀ (State.applyDeath s p) := by
  unfold State.applyDeath
  repeat' first
    | with_reducible assumption
    | with_reducible exact List.Subset.trans (List.Sublist.subset (by decide)) hp
    | extract_lets
    | with_reducible refine State.fencePorts_leads ?_ ?_
    | with_reducible refine State.setFab_leads ?_ ?_
    | with_reducible refine State.setMember_leads ?_ ?_
    | with_reducible refine State.buddyLost_leads ?_ ?_
    | with_reducible refine State.adopt_leads ?_ ?_

theorem State.applyPromotion_leads {ps : List Part} {s₀ s : State} {p : ℕ} (hs : Leads ps s₀ s)
    (hp : [Part.outbox, Part.freeCount, Part.regs, Part.ctr, Part.groups, Part.fab, Part.links] ⊆ ps) : Leads ps s₀ (State.applyPromotion s p) := by
  unfold State.applyPromotion
  repeat' first
    | with_reducible assumption
    | with_reducible exact List.Subset.trans (List.Sublist.subset (by decide)) hp
    | extract_lets
    | with_reducible refine State.setMember_leads ?_ ?_
    | with_reducible refine State.setFab_leads ?_ ?_
    | with_reducible refine State.rebuddy_leads ?_ ?_
    | with_reducible refine Leads.ite ?_ ?_
    | (with_reducible refine Leads.foldl _ ?_ ?_; rotate_left; intro u x hu)

theorem State.setStandby_leads {ps : List Part} {s₀ s : State} {o : Option ℕ} (hs : Leads ps s₀ s)
    (hp : [Part.regs, Part.fab] ⊆ ps) : Leads ps s₀ (State.setStandby s o) := by
  unfold State.setStandby
  repeat' first
    | with_reducible assumption
    | with_reducible exact List.Subset.trans (List.Sublist.subset (by decide)) hp
    | extract_lets
    | with_reducible refine State.setFab_leads ?_ ?_
    | with_reducible refine State.setField_leads ?_ ?_
    | split

theorem State.nameStandby_leads {ps : List Part} {s₀ s : State}  (hs : Leads ps s₀ s)
    (hp : [Part.freeCount, Part.regs, Part.fab] ⊆ ps) : Leads ps s₀ (State.nameStandby s) := by
  unfold State.nameStandby
  repeat' first
    | with_reducible assumption
    | with_reducible exact List.Subset.trans (List.Sublist.subset (by decide)) hp
    | extract_lets
    | with_reducible refine State.draw_leads ?_ ?_
    | with_reducible refine State.setStandby_leads ?_ ?_

theorem State.promote_leads {ps : List Part} {s₀ s : State}  (hs : Leads ps s₀ s)
    (hp : [Part.outbox, Part.freeCount, Part.regs, Part.ctr, Part.groups, Part.fab, Part.links, Part.log] ⊆ ps) : Leads ps s₀ (State.promote s) := by
  unfold State.promote
  repeat' first
    | with_reducible assumption
    | with_reducible exact List.Subset.trans (List.Sublist.subset (by decide)) hp
    | extract_lets
    | with_reducible refine State.draw_leads ?_ ?_
    | with_reducible refine State.event_leads ?_ ?_
    | with_reducible refine State.bump_leads ?_ ?_
    | with_reducible refine State.applyPromotion_leads ?_ ?_
    | with_reducible refine State.floodMsg_leads ?_ ?_
    | with_reducible refine State.nameStandby_leads ?_ ?_
    | with_reducible refine Leads.ite ?_ ?_
    | split

theorem State.failForwarded_leads {ps : List Part} {s₀ s : State} {p : ℕ} (hs : Leads ps s₀ s)
    (hp : [Part.outbox, Part.freeCount, Part.ctr, Part.cores, Part.places, Part.groups, Part.pages, Part.arenaWait, Part.poolWait, Part.items, Part.boxes, Part.mem, Part.memPoison, Part.protUnits, Part.tier, Part.fab, Part.links] ⊆ ps) : Leads ps s₀ (State.failForwarded s p) := by
  unfold State.failForwarded
  repeat' first
    | with_reducible assumption
    | with_reducible exact List.Subset.trans (List.Sublist.subset (by decide)) hp
    | extract_lets
    | with_reducible refine State.setFab_leads ?_ ?_
    | with_reducible refine State.failItems_leads ?_ ?_

theorem State.declare_leads {ps : List Part} {s₀ s : State} {p : ℕ} {why : DeadReason} (hs : Leads ps s₀ s)
    (hp : [Part.outbox, Part.freeCount, Part.regs, Part.ctr, Part.cores, Part.places, Part.groups, Part.pages, Part.mirrors, Part.mirrorPages, Part.arenaWait, Part.poolWait, Part.items, Part.boxes, Part.mem, Part.memPoison, Part.protUnits, Part.tier, Part.fab, Part.links, Part.log] ⊆ ps) : Leads ps s₀ (State.declare s p why) := by
  unfold State.declare
  repeat' first
    | with_reducible assumption
    | with_reducible exact List.Subset.trans (List.Sublist.subset (by decide)) hp
    | extract_lets
    | with_reducible refine State.loseMajority_leads ?_ ?_
    | with_reducible refine State.bump_leads ?_ ?_
    | with_reducible refine State.setEpoch_leads ?_ ?_
    | with_reducible refine State.event_leads ?_ ?_
    | with_reducible refine State.signature_leads ?_ ?_
    | with_reducible refine State.applyDeath_leads ?_ ?_
    | with_reducible refine State.floodMsg_leads ?_ ?_
    | with_reducible refine State.failForwarded_leads ?_ ?_
    | with_reducible refine State.nameStandby_leads ?_ ?_
    | with_reducible refine State.startRoutes_leads ?_ ?_
    | with_reducible refine State.promote_leads ?_ ?_
    | with_reducible refine Leads.ite ?_ ?_

theorem State.cmdDeclare_leads {ps : List Part} {s₀ s : State} {p : ℕ} (hs : Leads ps s₀ s)
    (hp : [Part.outbox, Part.freeCount, Part.regs, Part.ctr, Part.cores, Part.places, Part.groups, Part.pages, Part.mirrors, Part.mirrorPages, Part.arenaWait, Part.poolWait, Part.items, Part.boxes, Part.mem, Part.memPoison, Part.protUnits, Part.tier, Part.fab, Part.links, Part.log] ⊆ ps) : Leads ps s₀ (State.cmdDeclare s p) := by
  unfold State.cmdDeclare
  repeat' first
    | with_reducible assumption
    | with_reducible exact List.Subset.trans (List.Sublist.subset (by decide)) hp
    | with_reducible refine State.flagAccess_leads ?_ ?_
    | with_reducible refine State.cmdResult_leads ?_ ?_
    | with_reducible refine State.loseMajority_leads ?_ ?_
    | with_reducible refine State.declare_leads ?_ ?_
    | with_reducible refine Leads.ite ?_ ?_

theorem State.cmdClearBar_leads {ps : List Part} {s₀ s : State} {p : ℕ} (hs : Leads ps s₀ s)
    (hp : [Part.regs, Part.fab] ⊆ ps) : Leads ps s₀ (State.cmdClearBar s p) := by
  unfold State.cmdClearBar
  repeat' first
    | with_reducible assumption
    | with_reducible exact List.Subset.trans (List.Sublist.subset (by decide)) hp
    | with_reducible refine State.flagAccess_leads ?_ ?_
    | with_reducible refine State.cmdResult_leads ?_ ?_
    | with_reducible refine State.setFab_leads ?_ ?_
    | with_reducible refine State.setMember_leads ?_ ?_
    | with_reducible refine Leads.ite ?_ ?_

theorem State.redirectResults_leads {ps : List Part} {s₀ s : State} {old : ℕ} {new : ℕ} (hs : Leads ps s₀ s)
    (hp : [Part.outbox, Part.freeCount, Part.ctr, Part.fab, Part.links] ⊆ ps) : Leads ps s₀ (State.redirectResults s old new) := by
  unfold State.redirectResults
  repeat' first
    | with_reducible assumption
    | with_reducible exact List.Subset.trans (List.Sublist.subset (by decide)) hp
    | extract_lets
    | with_reducible refine State.setFab_leads ?_ ?_
    | with_reducible refine State.sendMsg_leads ?_ ?_
    | (with_reducible refine Leads.foldl _ ?_ ?_; rotate_left; intro u x hu)

theorem State.inheritRings_leads {ps : List Part} {s₀ s : State}  (hs : Leads ps s₀ s)
    (hp : [Part.freeCount, Part.boxes, Part.host] ⊆ ps) : Leads ps s₀ (State.inheritRings s) := by
  unfold State.inheritRings
  repeat' first
    | with_reducible assumption
    | with_reducible exact List.Subset.trans (List.Sublist.subset (by decide)) hp
    | extract_lets
    | with_reducible refine State.draw_leads ?_ ?_
    | (simp; done)
    | with_reducible refine Leads.boxes_host ?_ ?_ ?_

theorem State.admitMember_leads {ps : List Part} {s₀ s : State} {p : ℕ} (hs : Leads ps s₀ s)
    (hp : [Part.outbox, Part.freeCount, Part.regs, Part.ctr, Part.fab, Part.links] ⊆ ps) : Leads ps s₀ (State.admitMember s p) := by
  unfold State.admitMember
  repeat' first
    | with_reducible assumption
    | with_reducible exact List.Subset.trans (List.Sublist.subset (by decide)) hp
    | extract_lets
    | with_reducible refine State.setFab_leads ?_ ?_
    | with_reducible refine State.setMember_leads ?_ ?_
    | with_reducible refine State.moveLink_leads ?_ ?_
    | with_reducible refine State.pumpPort_leads ?_ ?_
    | with_reducible refine Leads.ite ?_ ?_
    | (with_reducible refine Leads.foldl _ ?_ ?_; rotate_left; intro u x hu)

theorem State.joined_leads {ps : List Part} {s₀ s : State} {src : ℕ} {epoch : ℕ} (hs : Leads ps s₀ s)
    (hp : [Part.outbox, Part.freeCount, Part.regs, Part.ctr, Part.fab, Part.links] ⊆ ps) : Leads ps s₀ (State.joined s src epoch) := by
  unfold State.joined
  repeat' first
    | with_reducible assumption
    | with_reducible exact List.Subset.trans (List.Sublist.subset (by decide)) hp
    | extract_lets
    | with_reducible refine State.draw_leads ?_ ?_
    | with_reducible refine State.setFab_leads ?_ ?_
    | with_reducible refine State.admitMember_leads ?_ ?_
    | with_reducible refine State.changed_leads ?_ ?_

theorem State.takeHeartbeat_leads {ps : List Part} {s₀ s : State} {src : ℕ} {budget : ℕ} (hs : Leads ps s₀ s)
    (hp : [Part.fab] ⊆ ps) : Leads ps s₀ (State.takeHeartbeat s src budget) := by
  unfold State.takeHeartbeat
  repeat' first
    | with_reducible assumption
    | extract_lets
    | with_reducible refine State.setFab_leads ?_ ?_
    | with_reducible refine Leads.ite ?_ ?_

theorem State.takeMember_leads {ps : List Part} {s₀ s : State} {src : ℕ} {msg : MemberMsg} (hs : Leads ps s₀ s)
    (hp : [Part.outbox, Part.freeCount, Part.pins, Part.time, Part.regs, Part.ctr, Part.cores, Part.places, Part.groups, Part.pages, Part.mirrors, Part.mirrorPages, Part.arenaWait, Part.poolWait, Part.items, Part.nextItem, Part.gang, Part.boxes, Part.mem, Part.memPoison, Part.protUnits, Part.hbm, Part.dies, Part.held, Part.tier, Part.cb, Part.fab, Part.links, Part.host, Part.log, Part.fw, Part.sec, Part.pwr, Part.test, Part.side] ⊆ ps) : Leads ps s₀ (State.takeMember s src msg) := by
  unfold State.takeMember
  repeat' first
    | with_reducible assumption
    | with_reducible exact List.Subset.trans (List.Sublist.subset (by decide)) hp
    | extract_lets
    | with_reducible refine State.takeHeartbeat_leads ?_ ?_
    | with_reducible refine State.noteBundle_leads ?_ ?_
    | with_reducible refine State.setFab_leads ?_ ?_
    | with_reducible refine State.selfFence_leads ?_ ?_
    | with_reducible refine State.applyDeath_leads ?_ ?_
    | with_reducible refine State.followEpoch_leads ?_ ?_
    | with_reducible refine State.applyPromotion_leads ?_ ?_
    | with_reducible refine State.admitMember_leads ?_ ?_
    | with_reducible refine State.setMember_leads ?_ ?_
    | with_reducible refine State.redirectResults_leads ?_ ?_
    | with_reducible refine State.takeTables_leads ?_ ?_
    | with_reducible refine State.routeGo_leads ?_ ?_
    | with_reducible refine Leads.ite ?_ ?_
    | split

theorem State.joinFailed_leads {ps : List Part} {s₀ s : State} {p : ℕ} {step : ℕ} (hs : Leads ps s₀ s)
    (hp : [Part.regs, Part.fab, Part.log] ⊆ ps) : Leads ps s₀ (State.joinFailed s p step) := by
  unfold State.joinFailed
  repeat' first
    | with_reducible assumption
    | with_reducible exact List.Subset.trans (List.Sublist.subset (by decide)) hp
    | extract_lets
    | with_reducible refine State.event_leads ?_ ?_
    | with_reducible refine State.setFab_leads ?_ ?_
    | with_reducible refine State.setMember_leads ?_ ?_
    | with_reducible refine Leads.ite ?_ ?_

theorem State.joinAt_leads {ps : List Part} {s₀ s : State} {r : JoinReq} (hs : Leads ps s₀ s)
    (hp : [Part.outbox, Part.freeCount, Part.regs, Part.ctr, Part.fab, Part.links, Part.log] ⊆ ps) : Leads ps s₀ (State.joinAt s r) := by
  unfold State.joinAt
  repeat' first
    | with_reducible assumption
    | with_reducible exact List.Subset.trans (List.Sublist.subset (by decide)) hp
    | extract_lets
    | with_reducible refine State.joinFailed_leads ?_ ?_
    | with_reducible refine State.floodMsg_leads ?_ ?_
    | with_reducible refine State.relaySet_leads ?_ ?_
    | with_reducible refine State.admitMember_leads ?_ ?_
    | with_reducible refine State.setEpoch_leads ?_ ?_
    | with_reducible refine State.setFab_leads ?_ ?_
    | with_reducible refine State.event_leads ?_ ?_
    | with_reducible refine State.bump_leads ?_ ?_
    | with_reducible refine State.startRoutes_leads ?_ ?_
    | with_reducible refine Leads.ite ?_ ?_

theorem State.formAs_leads {ps : List Part} {s₀ s : State} {mgr : ℕ} {present : List ℕ} {a1 : List ℕ} (hs : Leads ps s₀ s)
    (hp : [Part.regs, Part.fab, Part.links] ⊆ ps) : Leads ps s₀ (State.formAs s mgr present a1) := by
  unfold State.formAs
  repeat' first
    | with_reducible assumption
    | with_reducible exact List.Subset.trans (List.Sublist.subset (by decide)) hp
    | extract_lets
    | with_reducible refine State.setFab_leads ?_ ?_
    | with_reducible refine State.changed_leads ?_ ?_
    | (simp; done)
    | with_reducible refine Leads.links ?_ ?_ ?_

theorem State.modChecker_leads {ps : List Part} {s₀ s : State} {n : ℕ} {l : ℕ} {f : Checker → Checker} (hs : Leads ps s₀ s)
    (hp : [Part.test] ⊆ ps) : Leads ps s₀ (State.modChecker s n l f) := by
  unfold State.modChecker
  repeat' first
    | with_reducible assumption
    | with_reducible refine Leads.test ?_ ?_

theorem State.hostLink_leads {ps : List Part} {s₀ s : State} {speed : ℕ} {an : ℕ} {lock : Bool} (hs : Leads ps s₀ s)
    (hp : [Part.regs, Part.host, Part.log] ⊆ ps) : Leads ps s₀ (State.hostLink s speed an lock) := by
  unfold State.hostLink
  repeat' first
    | with_reducible assumption
    | with_reducible exact List.Subset.trans (List.Sublist.subset (by decide)) hp
    | extract_lets
    | with_reducible refine State.event_leads ?_ ?_
    | with_reducible refine State.changed_leads ?_ ?_
    | with_reducible refine Leads.host ?_ ?_

theorem State.patBad_leads {ps : List Part} {s₀ s : State} {n : ℕ} (hs : Leads ps s₀ s)
    (hp : [Part.regs] ⊆ ps) : Leads ps s₀ (State.patBad s n) := by
  unfold State.patBad
  repeat' first
    | with_reducible assumption
    | with_reducible refine State.flagAccess_leads ?_ ?_

theorem State.patternWrite_leads {ps : List Part} {s₀ s : State} {n : ℕ} {v : ℕ} (hs : Leads ps s₀ s)
    (hp : [Part.outbox, Part.regs, Part.host, Part.log, Part.test] ⊆ ps) : Leads ps s₀ (State.patternWrite s n v) := by
  unfold State.patternWrite
  repeat' first
    | with_reducible assumption
    | with_reducible exact List.Subset.trans (List.Sublist.subset (by decide)) hp
    | extract_lets
    | with_reducible refine State.flagAccess_leads ?_ ?_
    | with_reducible refine State.patBad_leads ?_ ?_
    | with_reducible refine State.setReg_leads ?_ ?_
    | with_reducible refine State.modChecker_leads ?_ ?_
    | with_reducible refine State.emit_leads ?_ ?_
    | with_reducible refine State.hostLink_leads ?_ ?_
    | with_reducible refine Leads.ite ?_ ?_
    | (with_reducible refine Leads.foldl _ ?_ ?_; rotate_left; intro u x hu)

theorem State.countOn_leads {ps : List Part} {s₀ s : State} {n : ℕ} {l : ℕ} (hs : Leads ps s₀ s)
    (hp : [Part.freeCount, Part.test] ⊆ ps) : Leads ps s₀ (State.countOn s n l) := by
  unfold State.countOn
  repeat' first
    | with_reducible assumption
    | with_reducible exact List.Subset.trans (List.Sublist.subset (by decide)) hp
    | extract_lets
    | with_reducible refine State.draw_leads ?_ ?_
    | with_reducible refine State.modChecker_leads ?_ ?_
    | with_reducible refine Leads.ite ?_ ?_

theorem State.prbsErrRead_leads {ps : List Part} {s₀ s : State} {n : ℕ} {l : ℕ} (hs : Leads ps s₀ s)
    (hp : [Part.freeCount, Part.regs, Part.test] ⊆ ps) : Leads ps s₀ (State.prbsErrRead s n l).1 := by
  unfold State.prbsErrRead
  repeat' first
    | with_reducible assumption
    | with_reducible exact List.Subset.trans (List.Sublist.subset (by decide)) hp
    | extract_lets
    | with_reducible refine State.countOn_leads ?_ ?_
    | with_reducible refine State.setReg_leads ?_ ?_

end Sys2Proof.Machine
end

