-- ==== Sys2Proof/Laws/LeadsHost.lean ====
section
/-! SUPPORT. Frames of register reads and writes, host requests and rings. -/

namespace Sys2Proof.Machine

theorem State.readLatch_leads {ps : List Part} {s₀ s : State} {p : Pg} {o : ℕ} {a : ℕ} (hs : Leads ps s₀ s)
    (hp : [Part.regs, Part.ctr] ⊆ ps) : Leads ps s₀ (State.readLatch s p o a) := by
  unfold State.readLatch
  repeat' first
    | with_reducible assumption
    | with_reducible exact List.Subset.trans (List.Sublist.subset (by decide)) hp
    | extract_lets
    | with_reducible refine State.counterLowRead_leads ?_ ?_
    | with_reducible refine State.roundNowRead_leads ?_ ?_
    | with_reducible refine State.logOldestRead_leads ?_ ?_
    | with_reducible refine State.setReg_leads ?_ ?_
    | with_reducible refine State.sigPmRead_leads ?_ ?_
    | with_reducible refine Leads.ite ?_ ?_

theorem State.freeRead_leads {ps : List Part} {s₀ s : State} {p : Pg} {o : ℕ} {r : State × ℕ} (hs : Leads ps s₀ s)
    (hp : [Part.freeCount] ⊆ ps) (h : s.freeRead p o = some r) : Leads ps s₀ r.1 := by
  unfold State.freeRead at h
  split at h
  · cases h
    exact State.draw_leads hs (List.Subset.trans (List.Sublist.subset (by decide)) hp)
  · split at h
    · cases h
      exact State.draw_leads hs (List.Subset.trans (List.Sublist.subset (by decide)) hp)
    · cases h

theorem State.readPage_leads {ps : List Part} {s₀ s : State} {p : Pg} {i o : ℕ} (hs : Leads ps s₀ s)
    (hp : [Part.freeCount, Part.regs, Part.ctr, Part.test] ⊆ ps) : Leads ps s₀ (s.readPage p i o).1 := by
  unfold State.readPage
  split
  · exact State.prbsErrRead_leads hs (List.Subset.trans (List.Sublist.subset (by decide)) hp)
  · split
    · rename_i e
      exact State.freeRead_leads hs (List.Subset.trans (List.Sublist.subset (by decide)) hp) e
    · exact State.readLatch_leads hs (List.Subset.trans (List.Sublist.subset (by decide)) hp)

theorem State.undecoded_leads {ps : List Part} {s₀ s : State} {a : ℕ} {write : Bool} (hs : Leads ps s₀ s)
    (hp : [Part.regs, Part.ctr] ⊆ ps) : Leads ps s₀ (State.undecoded s a write) := by
  unfold State.undecoded
  repeat' first
    | with_reducible assumption
    | with_reducible exact List.Subset.trans (List.Sublist.subset (by decide)) hp
    | with_reducible refine State.flagAccess_leads ?_ ?_
    | with_reducible refine State.bump_leads ?_ ?_

theorem State.regRead_leads {ps : List Part} {s₀ s : State} {a : ℕ} {size : ℕ} (hs : Leads ps s₀ s)
    (hp : [Part.freeCount, Part.regs, Part.ctr, Part.test] ⊆ ps) : Leads ps s₀ (State.regRead s a size).1 := by
  unfold State.regRead
  repeat' first
    | with_reducible assumption
    | with_reducible exact List.Subset.trans (List.Sublist.subset (by decide)) hp
    | with_reducible refine State.undecoded_leads ?_ ?_
    | with_reducible refine State.flagAccess_leads ?_ ?_
    | with_reducible refine State.readPage_leads ?_ ?_
    | split

theorem State.storeReg_leads {ps : List Part} {s₀ s : State} {p : Pg} {i : ℕ} {o : ℕ} {r : RegRow} {v : ℕ} (hs : Leads ps s₀ s)
    (hp : [Part.regs] ⊆ ps) : Leads ps s₀ (State.storeReg s p i o r v) := by
  unfold State.storeReg
  repeat' first
    | with_reducible assumption
    | extract_lets
    | with_reducible refine State.flagAccess_leads ?_ ?_
    | with_reducible refine State.setReg_leads ?_ ?_
    | with_reducible refine State.changed_leads ?_ ?_
    | with_reducible refine Leads.ite ?_ ?_

theorem State.refuseWrite_leads {ps : List Part} {s₀ s : State} {p : Pg} {i : ℕ} {o : ℕ} (hs : Leads ps s₀ s)
    (hp : [Part.regs] ⊆ ps) : Leads ps s₀ (State.refuseWrite s p i o) := by
  unfold State.refuseWrite
  repeat' first
    | with_reducible assumption
    | with_reducible refine State.flagAccess_leads ?_ ?_

theorem State.coreMapWrite_leads {ps : List Part} {s₀ s : State} {n : ℕ} {v : ℕ} (hs : Leads ps s₀ s)
    (hp : [Part.regs] ⊆ ps) : Leads ps s₀ (State.coreMapWrite s n v) := by
  unfold State.coreMapWrite
  repeat' first
    | with_reducible assumption
    | extract_lets
    | with_reducible refine State.changed_leads ?_ ?_
    | with_reducible refine State.setReg_leads ?_ ?_
    | with_reducible refine State.refuseWrite_leads ?_ ?_
    | with_reducible refine Leads.ite ?_ ?_

theorem State.acmWrite_leads {ps : List Part} {s₀ s : State} {c : ℕ} {o : ℕ} {v : ℕ} {r : RegRow} (hs : Leads ps s₀ s)
    (hp : [Part.regs] ⊆ ps) : Leads ps s₀ (State.acmWrite s c o v r) := by
  unfold State.acmWrite
  repeat' first
    | with_reducible assumption
    | with_reducible refine State.storeReg_leads ?_ ?_
    | with_reducible refine State.refuseWrite_leads ?_ ?_
    | with_reducible refine Leads.ite ?_ ?_

theorem State.windowWrite_leads {ps : List Part} {s₀ s : State} {c : ℕ} {v : ℕ} (hs : Leads ps s₀ s)
    (hp : [Part.regs, Part.places] ⊆ ps) : Leads ps s₀ (State.windowWrite s c v) := by
  unfold State.windowWrite
  repeat' first
    | with_reducible assumption
    | with_reducible exact List.Subset.trans (List.Sublist.subset (by decide)) hp
    | extract_lets
    | with_reducible refine State.refuseWrite_leads ?_ ?_
    | with_reducible refine State.setReg_leads ?_ ?_
    | with_reducible refine Leads.ite ?_ ?_
    | with_reducible refine Leads.places ?_ ?_

theorem State.handleSel_leads {ps : List Part} {s₀ s : State} {c : ℕ} {v : ℕ} (hs : Leads ps s₀ s)
    (hp : [Part.regs] ⊆ ps) : Leads ps s₀ (State.handleSel s c v) := by
  unfold State.handleSel
  repeat' first
    | with_reducible assumption
    | extract_lets
    | with_reducible refine State.refuseWrite_leads ?_ ?_
    | with_reducible refine State.setReg_leads ?_ ?_
    | with_reducible refine Leads.ite ?_ ?_
    | (with_reducible refine Leads.foldl _ ?_ ?_; rotate_left; intro u x hu)

theorem State.flushCore_leads {ps : List Part} {s₀ s : State} {c : ℕ} (hs : Leads ps s₀ s)
    (hp : [Part.ctr, Part.cores] ⊆ ps) : Leads ps s₀ (State.flushCore s c) := by
  unfold State.flushCore
  repeat' first
    | with_reducible assumption
    | with_reducible exact List.Subset.trans (List.Sublist.subset (by decide)) hp
    | with_reducible refine State.modCore_leads ?_ ?_ ?_
    | with_reducible refine State.bump_leads ?_ ?_
    | exact fun _ h => h

theorem State.cbCmd_leads {ps : List Part} {s₀ s : State} {d : ℕ} {v : ℕ} (hs : Leads ps s₀ s)
    (hp : [Part.regs, Part.ctr, Part.cb] ⊆ ps) : Leads ps s₀ (State.cbCmd s d v) := by
  unfold State.cbCmd
  repeat' first
    | with_reducible assumption
    | with_reducible exact List.Subset.trans (List.Sublist.subset (by decide)) hp
    | extract_lets
    | with_reducible refine State.refuseWrite_leads ?_ ?_
    | with_reducible refine State.census_leads ?_ ?_
    | with_reducible refine State.replaceStaged_leads ?_ ?_
    | with_reducible refine State.replaceImage_leads ?_ ?_
    | with_reducible refine State.cbRelease_leads ?_ ?_
    | with_reducible refine State.restore_leads ?_ ?_
    | with_reducible refine Leads.ite ?_ ?_
    | split

theorem State.tierWrite_leads {ps : List Part} {s₀ s : State} {v : ℕ} (hs : Leads ps s₀ s)
    (hp : [Part.regs, Part.ctr, Part.tier] ⊆ ps) : Leads ps s₀ (State.tierWrite s v) := by
  unfold State.tierWrite
  repeat' first
    | with_reducible assumption
    | with_reducible exact List.Subset.trans (List.Sublist.subset (by decide)) hp
    | extract_lets
    | with_reducible refine State.refuseWrite_leads ?_ ?_
    | with_reducible refine State.tierCmd_leads ?_ ?_
    | with_reducible refine Leads.ite ?_ ?_

theorem State.fwCmd_leads {ps : List Part} {s₀ s : State} {v : ℕ} (hs : Leads ps s₀ s)
    (hp : [Part.outbox, Part.freeCount, Part.pins, Part.time, Part.regs, Part.ctr, Part.cores, Part.places, Part.groups, Part.pages, Part.mirrors, Part.mirrorPages, Part.arenaWait, Part.poolWait, Part.items, Part.nextItem, Part.gang, Part.boxes, Part.mem, Part.memPoison, Part.protUnits, Part.hbm, Part.dies, Part.held, Part.tier, Part.cb, Part.fab, Part.links, Part.host, Part.log, Part.fw, Part.sec, Part.pwr, Part.test, Part.side] ⊆ ps) : Leads ps s₀ (State.fwCmd s v) := by
  unfold State.fwCmd
  repeat' first
    | with_reducible assumption
    | with_reducible exact List.Subset.trans (List.Sublist.subset (by decide)) hp
    | extract_lets
    | with_reducible refine State.refuseWrite_leads ?_ ?_
    | with_reducible refine State.hostRestart_leads ?_ ?_
    | with_reducible refine State.escalate_leads ?_ ?_
    | with_reducible refine Leads.ite ?_ ?_
    | split

theorem State.keyCmd_leads {ps : List Part} {s₀ s : State} {v : ℕ} (hs : Leads ps s₀ s)
    (hp : [Part.freeCount, Part.regs, Part.ctr, Part.boxes, Part.protUnits, Part.sec] ⊆ ps) : Leads ps s₀ (State.keyCmd s v) := by
  unfold State.keyCmd
  repeat' first
    | with_reducible assumption
    | with_reducible exact List.Subset.trans (List.Sublist.subset (by decide)) hp
    | extract_lets
    | with_reducible refine State.refuseWrite_leads ?_ ?_
    | with_reducible refine State.keyInstall_leads ?_ ?_
    | with_reducible refine State.keyClear_leads ?_ ?_
    | with_reducible refine Leads.ite ?_ ?_
    | split

theorem State.fabCmd_leads {ps : List Part} {s₀ s : State} {v : ℕ} (hs : Leads ps s₀ s)
    (hp : [Part.outbox, Part.freeCount, Part.regs, Part.ctr, Part.cores, Part.places, Part.groups, Part.pages, Part.mirrors, Part.mirrorPages, Part.arenaWait, Part.poolWait, Part.items, Part.boxes, Part.mem, Part.memPoison, Part.protUnits, Part.tier, Part.fab, Part.links, Part.log] ⊆ ps) : Leads ps s₀ (State.fabCmd s v) := by
  unfold State.fabCmd
  repeat' first
    | with_reducible assumption
    | with_reducible exact List.Subset.trans (List.Sublist.subset (by decide)) hp
    | extract_lets
    | with_reducible refine State.refuseWrite_leads ?_ ?_
    | with_reducible refine State.cmdDeclare_leads ?_ ?_
    | with_reducible refine State.cmdClearBar_leads ?_ ?_
    | with_reducible refine State.recompute_leads ?_ ?_
    | with_reducible refine Leads.ite ?_ ?_
    | split

theorem State.standbyWrite_leads {ps : List Part} {s₀ s : State} {r : RegRow} {v : ℕ} (hs : Leads ps s₀ s)
    (hp : [Part.regs, Part.fab] ⊆ ps) : Leads ps s₀ (State.standbyWrite s r v) := by
  unfold State.standbyWrite
  repeat' first
    | with_reducible assumption
    | with_reducible exact List.Subset.trans (List.Sublist.subset (by decide)) hp
    | extract_lets
    | with_reducible refine State.storeReg_leads ?_ ?_
    | with_reducible refine State.refuseWrite_leads ?_ ?_
    | with_reducible refine State.setStandby_leads ?_ ?_
    | with_reducible refine Leads.ite ?_ ?_

theorem State.linkCtrlWrite_leads {ps : List Part} {s₀ s : State} {n : ℕ} {v : ℕ} (hs : Leads ps s₀ s)
    (hp : [Part.outbox, Part.freeCount, Part.regs, Part.ctr, Part.fab, Part.links, Part.log] ⊆ ps) : Leads ps s₀ (State.linkCtrlWrite s n v) := by
  unfold State.linkCtrlWrite
  repeat' first
    | with_reducible assumption
    | with_reducible exact List.Subset.trans (List.Sublist.subset (by decide)) hp
    | extract_lets
    | with_reducible refine State.refuseWrite_leads ?_ ?_
    | with_reducible refine State.enableLink_leads ?_ ?_
    | with_reducible refine State.retrainPort_leads ?_ ?_
    | with_reducible refine Leads.ite ?_ ?_

theorem State.boxCmd_leads {ps : List Part} {s₀ s : State} {session : Option ℕ} {b : ℕ} {v : ℕ} (hs : Leads ps s₀ s)
    (hp : [Part.outbox, Part.freeCount, Part.regs, Part.ctr, Part.cores, Part.places, Part.groups, Part.pages, Part.arenaWait, Part.poolWait, Part.items, Part.boxes, Part.mem, Part.memPoison, Part.protUnits, Part.held, Part.tier, Part.fab, Part.links] ⊆ ps) : Leads ps s₀ (State.boxCmd s session b v) := by
  unfold State.boxCmd
  repeat' first
    | with_reducible assumption
    | with_reducible exact List.Subset.trans (List.Sublist.subset (by decide)) hp
    | extract_lets
    | with_reducible refine State.boxCmdBad_leads ?_ ?_
    | with_reducible refine State.enableBox_leads ?_ ?_
    | with_reducible refine State.disableBox_leads ?_ ?_
    | with_reducible refine Leads.ite ?_ ?_
    | split

theorem State.coreCmd_leads {ps : List Part} {s₀ s : State} {c : ℕ} {v : ℕ} (hs : Leads ps s₀ s)
    (hp : [Part.regs, Part.cores] ⊆ ps) : Leads ps s₀ (State.coreCmd s c v) := by
  unfold State.coreCmd
  repeat' first
    | with_reducible assumption
    | with_reducible exact List.Subset.trans (List.Sublist.subset (by decide)) hp
    | extract_lets
    | with_reducible refine State.refuseWrite_leads ?_ ?_
    | with_reducible refine State.drainCore_leads ?_ ?_
    | with_reducible refine State.resumeCore_leads ?_ ?_
    | with_reducible refine Leads.ite ?_ ?_
    | split

theorem State.hubWrite_leads {ps : List Part} {s₀ s : State} {p : Pg} {o : ℕ} {v : ℕ} {r : RegRow} (hs : Leads ps s₀ s)
    (hp : [Part.outbox, Part.freeCount, Part.pins, Part.time, Part.regs, Part.ctr, Part.cores, Part.places, Part.groups, Part.pages, Part.mirrors, Part.mirrorPages, Part.arenaWait, Part.poolWait, Part.items, Part.nextItem, Part.gang, Part.boxes, Part.mem, Part.memPoison, Part.protUnits, Part.hbm, Part.dies, Part.held, Part.tier, Part.cb, Part.fab, Part.links, Part.host, Part.log, Part.fw, Part.sec, Part.pwr, Part.test, Part.side] ⊆ ps) : LeadsO ps s₀ (State.hubWrite s p o v r) := by
  unfold State.hubWrite
  repeat' first
    | with_reducible assumption
    | with_reducible exact List.Subset.trans (List.Sublist.subset (by decide)) hp
    | extract_lets
    | with_reducible refine State.coreMapWrite_leads ?_ ?_
    | with_reducible refine State.sigCursorWrite_leads ?_ ?_
    | with_reducible refine State.refuseWrite_leads ?_ ?_
    | with_reducible refine State.localStart_leads ?_ ?_
    | with_reducible refine State.storeReg_leads ?_ ?_
    | with_reducible refine State.setTime_leads ?_ ?_
    | with_reducible refine State.logCursorWrite_leads ?_ ?_
    | with_reducible refine State.changed_leads ?_ ?_
    | with_reducible refine State.relock_leads ?_ ?_
    | with_reducible refine State.setSec_leads ?_ ?_
    | with_reducible refine State.keyCmd_leads ?_ ?_
    | with_reducible refine State.fwCmd_leads ?_ ?_
    | with_reducible refine State.patternWrite_leads ?_ ?_
    | with_reducible refine Leads.ite ?_ ?_
    | exact LeadsO.none
    | refine LeadsO.some ?_
    | split

theorem State.unitWrite_leads {ps : List Part} {s₀ s : State} {session : Option ℕ} {p : Pg} {i : ℕ} {o : ℕ} {v : ℕ} {r : RegRow} (hs : Leads ps s₀ s)
    (hp : [Part.outbox, Part.freeCount, Part.regs, Part.ctr, Part.cores, Part.places, Part.groups, Part.pages, Part.mirrors, Part.mirrorPages, Part.arenaWait, Part.poolWait, Part.items, Part.boxes, Part.mem, Part.memPoison, Part.protUnits, Part.hbm, Part.dies, Part.held, Part.tier, Part.cb, Part.fab, Part.links, Part.host, Part.log, Part.sec, Part.test] ⊆ ps) : LeadsO ps s₀ (State.unitWrite s session p i o v r) := by
  unfold State.unitWrite
  repeat' first
    | with_reducible assumption
    | with_reducible exact List.Subset.trans (List.Sublist.subset (by decide)) hp
    | extract_lets
    | with_reducible refine State.linkCtrlWrite_leads ?_ ?_
    | with_reducible refine State.patternWrite_leads ?_ ?_
    | with_reducible refine State.fabCmd_leads ?_ ?_
    | with_reducible refine State.standbyWrite_leads ?_ ?_
    | with_reducible refine State.refuseWrite_leads ?_ ?_
    | with_reducible refine State.mapOut_leads ?_ ?_
    | with_reducible refine State.tierWrite_leads ?_ ?_
    | with_reducible refine State.cbCmd_leads ?_ ?_
    | with_reducible refine State.coreCmd_leads ?_ ?_
    | with_reducible refine State.acmWrite_leads ?_ ?_
    | with_reducible refine State.flushCore_leads ?_ ?_
    | with_reducible refine State.windowWrite_leads ?_ ?_
    | with_reducible refine State.handleSel_leads ?_ ?_
    | with_reducible refine State.boxCmd_leads ?_ ?_
    | with_reducible refine Leads.ite ?_ ?_
    | exact LeadsO.none
    | refine LeadsO.some ?_
    | split

theorem State.writePageReg_leads {ps : List Part} {s₀ s : State} {session : Option ℕ} {p : Pg} {i o v : ℕ}
    (hs : Leads ps s₀ s) (hp : [Part.outbox, Part.freeCount, Part.pins, Part.time, Part.regs, Part.ctr, Part.cores, Part.places, Part.groups, Part.pages, Part.mirrors, Part.mirrorPages, Part.arenaWait, Part.poolWait, Part.items, Part.nextItem, Part.gang, Part.boxes, Part.mem, Part.memPoison, Part.protUnits, Part.hbm, Part.dies, Part.held, Part.tier, Part.cb, Part.fab, Part.links, Part.host, Part.log, Part.fw, Part.sec, Part.pwr, Part.test, Part.side] ⊆ ps) : Leads ps s₀ (s.writePageReg session p i o v) := by
  unfold State.writePageReg
  split
  · exact Leads.ite hs (Leads.ite (State.refuseWrite_leads hs (List.Subset.trans (List.Sublist.subset (by decide)) hp)) hs)
  · rename_i r _
    refine Leads.ite (State.refuseWrite_leads hs (List.Subset.trans (List.Sublist.subset (by decide)) hp)) (Leads.ite (State.refuseWrite_leads hs (List.Subset.trans (List.Sublist.subset (by decide)) hp)) ?_)
    split
    · rename_i e
      split at e
      · cases e
      · rcases Option.or_eq_some_iff.1 e with e | ⟨_, e⟩
        · exact LeadsO.get e (State.hubWrite_leads hs (List.Subset.trans (List.Sublist.subset (by decide)) hp))
        · exact LeadsO.get e (State.unitWrite_leads hs (List.Subset.trans (List.Sublist.subset (by decide)) hp))
    · exact State.storeReg_leads hs (List.Subset.trans (List.Sublist.subset (by decide)) hp)

theorem State.regWrite_leads {ps : List Part} {s₀ s : State} {session : Option ℕ} {a : ℕ} {size : ℕ} {v : ℕ} (hs : Leads ps s₀ s)
    (hp : [Part.outbox, Part.freeCount, Part.pins, Part.time, Part.regs, Part.ctr, Part.cores, Part.places, Part.groups, Part.pages, Part.mirrors, Part.mirrorPages, Part.arenaWait, Part.poolWait, Part.items, Part.nextItem, Part.gang, Part.boxes, Part.mem, Part.memPoison, Part.protUnits, Part.hbm, Part.dies, Part.held, Part.tier, Part.cb, Part.fab, Part.links, Part.host, Part.log, Part.fw, Part.sec, Part.pwr, Part.test, Part.side] ⊆ ps) : Leads ps s₀ (State.regWrite s session a size v) := by
  unfold State.regWrite
  repeat' first
    | with_reducible assumption
    | with_reducible exact List.Subset.trans (List.Sublist.subset (by decide)) hp
    | with_reducible refine State.undecoded_leads ?_ ?_
    | with_reducible refine State.flagAccess_leads ?_ ?_
    | with_reducible refine State.writePageReg_leads ?_ ?_
    | with_reducible refine Leads.ite ?_ ?_
    | split

theorem State.answer_leads {ps : List Part} {s₀ s : State} {st : PbpSt} {payload : optParam (List Byte) []} (hs : Leads ps s₀ s)
    (hp : [] ⊆ ps) : Leads ps s₀ (State.answer s st payload).1 := by
  unfold State.answer
  repeat' first
    | with_reducible assumption

theorem State.refused_leads {ps : List Part} {s₀ s : State} {detail : ℕ} (hs : Leads ps s₀ s)
    (hp : [] ⊆ ps) : Leads ps s₀ (State.refused s detail).1 := by
  unfold State.refused
  repeat' first
    | with_reducible assumption
    | with_reducible refine State.answer_leads ?_ ?_

theorem State.reject_leads {ps : List Part} {s₀ s : State} {h : PbpHdr} {st : PbpSt} {payload : optParam (List Byte) []} (hs : Leads ps s₀ s)
    (hp : [Part.outbox, Part.ctr] ⊆ ps) : Leads ps s₀ (State.reject s h st payload) := by
  unfold State.reject
  repeat' first
    | with_reducible assumption
    | with_reducible exact List.Subset.trans (List.Sublist.subset (by decide)) hp
    | with_reducible refine State.emit_leads ?_ ?_
    | with_reducible refine State.bump_leads ?_ ?_

theorem State.perform_leads {ps : List Part} {s₀ s : State} {h : PbpHdr} {q : PbpReq} {k : Session}
    {run : State → ℕ → Reply} (hs : Leads ps s₀ s) (hp : [Part.outbox, Part.ctr, Part.host] ⊆ ps)
    (hf : ∀ u n, Leads ps s₀ u → Leads ps s₀ (run u n).1) : Leads ps s₀ (s.perform h q k run) := by
  unfold State.perform
  extract_lets u r
  have hu : Leads ps s₀ u := State.modSession_leads hs (List.Subset.trans (List.Sublist.subset (by decide)) hp)
  have hr : Leads ps s₀ r.1 := hf _ _ hu
  clear_value r
  split
  · exact State.emit_leads (State.bump_leads hu (List.Subset.trans (List.Sublist.subset (by decide)) hp)) (List.Subset.trans (List.Sublist.subset (by decide)) hp)
  · refine Leads.ite (State.reject_leads hu (List.Subset.trans (List.Sublist.subset (by decide)) hp)) (Leads.ite hu (Leads.ite (State.respond_leads hu (List.Subset.trans (List.Sublist.subset (by decide)) hp))
      (Leads.ite (State.respond_leads hu (List.Subset.trans (List.Sublist.subset (by decide)) hp)) ?_)))
    split
    · exact State.respond_leads hr (List.Subset.trans (List.Sublist.subset (by decide)) hp)
    · exact hr

theorem State.performRelayed_leads {ps : List Part} {s₀ s : State} {h : PbpHdr} {q : PbpReq}
    {run : State → ℕ → Reply} (hs : Leads ps s₀ s) (hp : [Part.outbox, Part.ctr] ⊆ ps)
    (hf : ∀ u n, Leads ps s₀ u → Leads ps s₀ (run u n).1) : Leads ps s₀ (s.performRelayed h q run) := by
  unfold State.performRelayed
  refine Leads.ite hs ?_
  have hr := hf s 0 hs
  dsimp only
  split
  · exact State.reject_leads hr (List.Subset.trans (List.Sublist.subset (by decide)) hp)
  · exact hr

theorem State.pbp_leads {ps : List Part} {s₀ s : State} {h : PbpHdr} {q : PbpReq}
    {run : State → ℕ → Reply} (hs : Leads ps s₀ s) (hp : [Part.outbox, Part.ctr, Part.host] ⊆ ps)
    (hf : ∀ u n, Leads ps s₀ u → Leads ps s₀ (run u n).1) : Leads ps s₀ (s.pbp h q run) := by
  have hb : Leads ps s₀ (((s.bump .hostif 0 0 1).bump .hostif 0 5 1).bump .hostif 0 7 (b2n h.resent)) :=
    State.bump_leads (State.bump_leads (State.bump_leads hs (List.Subset.trans (List.Sublist.subset (by decide)) hp)) (List.Subset.trans (List.Sublist.subset (by decide)) hp)) (List.Subset.trans (List.Sublist.subset (by decide)) hp)
  unfold State.pbp
  refine Leads.ite (State.performRelayed_leads hs (List.Subset.trans (List.Sublist.subset (by decide)) hp) hf) (Leads.ite hs (Leads.ite (State.bump_leads hb (List.Subset.trans (List.Sublist.subset (by decide)) hp))
    (Leads.ite hb (Leads.ite (State.reject_leads hb (List.Subset.trans (List.Sublist.subset (by decide)) hp)) ?_))))
  split
  · exact State.reject_leads hb (List.Subset.trans (List.Sublist.subset (by decide)) hp)
  · exact State.perform_leads hb hp hf

theorem State.openSession_leads {ps : List Part} {s₀ s : State} {h : PbpHdr} {version : ℕ} (hs : Leads ps s₀ s)
    (hp : [Part.outbox, Part.freeCount, Part.regs, Part.ctr, Part.host] ⊆ ps) : Leads ps s₀ (State.openSession s h version) := by
  unfold State.openSession
  repeat' first
    | with_reducible assumption
    | with_reducible exact List.Subset.trans (List.Sublist.subset (by decide)) hp
    | extract_lets
    | with_reducible refine State.setHost_leads ?_ ?_
    | with_reducible refine State.changed_leads ?_ ?_
    | with_reducible refine State.draw_leads ?_ ?_
    | with_reducible refine State.reject_leads ?_ ?_
    | with_reducible refine Leads.ite ?_ ?_

theorem State.closeSession_leads {ps : List Part} {s₀ s : State} {n : ℕ} (hs : Leads ps s₀ s)
    (hp : [Part.outbox, Part.freeCount, Part.regs, Part.ctr, Part.cores, Part.places, Part.groups, Part.pages, Part.arenaWait, Part.poolWait, Part.items, Part.boxes, Part.mem, Part.memPoison, Part.protUnits, Part.tier, Part.fab, Part.links, Part.host] ⊆ ps) : Leads ps s₀ (State.closeSession s n) := by
  unfold State.closeSession
  repeat' first
    | with_reducible assumption
    | with_reducible exact List.Subset.trans (List.Sublist.subset (by decide)) hp
    | extract_lets
    | with_reducible refine State.disableBox_leads ?_ ?_
    | with_reducible refine State.modBox_leads ?_ ?_
    | with_reducible refine State.changed_leads ?_ ?_
    | with_reducible refine State.setHost_leads ?_ ?_
    | with_reducible refine Leads.ite ?_ ?_
    | (with_reducible refine Leads.foldl _ ?_ ?_; rotate_left; intro u x hu)

theorem State.regOp_leads {ps : List Part} {s₀ s : State} {session : Option ℕ} {o : RegOp} (hs : Leads ps s₀ s)
    (hp : [Part.outbox, Part.freeCount, Part.pins, Part.time, Part.regs, Part.ctr, Part.cores, Part.places, Part.groups, Part.pages, Part.mirrors, Part.mirrorPages, Part.arenaWait, Part.poolWait, Part.items, Part.nextItem, Part.gang, Part.boxes, Part.mem, Part.memPoison, Part.protUnits, Part.hbm, Part.dies, Part.held, Part.tier, Part.cb, Part.fab, Part.links, Part.host, Part.log, Part.fw, Part.sec, Part.pwr, Part.test, Part.side] ⊆ ps) : Leads ps s₀ (State.regOp s session o).1 := by
  unfold State.regOp
  repeat' first
    | with_reducible assumption
    | with_reducible exact List.Subset.trans (List.Sublist.subset (by decide)) hp
    | extract_lets
    | with_reducible refine State.bump_leads ?_ ?_
    | with_reducible refine State.regWrite_leads ?_ ?_
    | with_reducible refine State.regRead_leads ?_ ?_
    | split

theorem State.regOps_leads {ps : List Part} {s₀ s : State} {session : Option ℕ} {l : List RegOp} (hs : Leads ps s₀ s)
    (hp : [Part.outbox, Part.freeCount, Part.pins, Part.time, Part.regs, Part.ctr, Part.cores, Part.places, Part.groups, Part.pages, Part.mirrors, Part.mirrorPages, Part.arenaWait, Part.poolWait, Part.items, Part.nextItem, Part.gang, Part.boxes, Part.mem, Part.memPoison, Part.protUnits, Part.hbm, Part.dies, Part.held, Part.tier, Part.cb, Part.fab, Part.links, Part.host, Part.log, Part.fw, Part.sec, Part.pwr, Part.test, Part.side] ⊆ ps) : Leads ps s₀ (s.regOps session l).1 := by
  induction l generalizing s with
  | nil => exact hs
  | cons o l ih => exact ih (State.regOp_leads hs hp)

theorem State.retryLater_leads {ps : List Part} {s₀ s : State}  (hs : Leads ps s₀ s)
    (hp : [Part.ctr, Part.fw] ⊆ ps) : Leads ps s₀ (State.retryLater s).1 := by
  unfold State.retryLater
  repeat' first
    | with_reducible assumption
    | with_reducible exact List.Subset.trans (List.Sublist.subset (by decide)) hp
    | extract_lets
    | with_reducible refine State.bump_leads ?_ ?_
    | with_reducible refine State.answer_leads ?_ ?_
    | with_reducible refine State.setFw_leads ?_ ?_ ?_
    | exact fun _ => rfl

theorem State.emulate_leads {ps : List Part} {s₀ s : State} {h : PbpHdr} {session : ℕ} {ops : List RegOp} (hs : Leads ps s₀ s)
    (hp : [Part.outbox, Part.freeCount, Part.pins, Part.time, Part.regs, Part.ctr, Part.cores, Part.places, Part.groups, Part.pages, Part.mirrors, Part.mirrorPages, Part.arenaWait, Part.poolWait, Part.items, Part.nextItem, Part.gang, Part.boxes, Part.mem, Part.memPoison, Part.protUnits, Part.hbm, Part.dies, Part.held, Part.tier, Part.cb, Part.fab, Part.links, Part.host, Part.log, Part.fw, Part.sec, Part.pwr, Part.test, Part.side] ⊆ ps) : Leads ps s₀ (State.emulate s h session ops).1 := by
  unfold State.emulate
  repeat' first
    | with_reducible assumption
    | with_reducible exact List.Subset.trans (List.Sublist.subset (by decide)) hp
    | extract_lets
    | with_reducible refine State.answer_leads ?_ ?_
    | with_reducible refine State.retryLater_leads ?_ ?_
    | with_reducible refine State.regOps_leads ?_ ?_
    | split

theorem State.atTarget_leads {ps : List Part} {s₀ s : State} {h : PbpHdr} {c : Instr} {n : ℕ} {here : State → Reply}
    (hs : Leads ps s₀ s) (hp : [Part.outbox, Part.freeCount, Part.ctr, Part.fab, Part.links] ⊆ ps) (hf : ∀ u, Leads ps s₀ u → Leads ps s₀ (here u).1) :
    Leads ps s₀ (s.atTarget h c n here).1 := by
  unfold State.atTarget
  split
  · exact hf _ hs
  · split
    · exact State.answer_leads hs (List.nil_subset _)
    · have hm := State.sendMsg_leads (dest := h.targetPos) (cls := 1) (msg := .request c) hs (List.Subset.trans (List.Sublist.subset (by decide)) hp)
      dsimp only
      split
      · exact State.answer_leads (State.bump_leads hm (List.Subset.trans (List.Sublist.subset (by decide)) hp)) (List.nil_subset _)
      · exact State.answer_leads (State.draw_leads hm (List.Subset.trans (List.Sublist.subset (by decide)) hp)) (List.nil_subset _)

theorem State.submitEmu_leads {ps : List Part} {s₀ s : State} {b : ℕ} {r : SubRing} {entry : List Byte} {desc : List Byte} (hs : Leads ps s₀ s)
    (hp : [Part.boxes, Part.mem, Part.memPoison, Part.protUnits, Part.tier] ⊆ ps) : Leads ps s₀ (State.submitEmu s b r entry desc) := by
  unfold State.submitEmu
  repeat' first
    | with_reducible assumption
    | with_reducible exact List.Subset.trans (List.Sublist.subset (by decide)) hp
    | extract_lets
    | with_reducible refine State.writeBox_leads ?_ ?_
    | with_reducible refine State.modBox_leads ?_ ?_
    | with_reducible refine Leads.when ?_ ?_

theorem State.startSet_leads {ps : List Part} {s₀ s : State}  (hs : Leads ps s₀ s)
    (hp : [Part.regs, Part.fw, Part.sec] ⊆ ps) : Leads ps s₀ (State.startSet s) := by
  unfold State.startSet
  repeat' first
    | with_reducible assumption
    | with_reducible exact List.Subset.trans (List.Sublist.subset (by decide)) hp
    | extract_lets
    | with_reducible refine State.setSec_leads ?_ ?_
    | with_reducible refine State.writeField_leads ?_ ?_
    | with_reducible refine State.changed_leads ?_ ?_
    | with_reducible refine State.setFw_leads ?_ ?_ ?_
    | (intro _; simp; done)

theorem State.boxRequest_leads {ps : List Part} {s₀ s : State} {h : PbpHdr} {n : ℕ} {run : State → Reply}
    (hs : Leads ps s₀ s) (hf : ∀ u, Leads ps s₀ u → Leads ps s₀ (run u).1) :
    Leads ps s₀ (s.boxRequest h n run).1 := by
  unfold State.boxRequest
  repeat' first
    | exact hs
    | exact hf _ hs
    | split

theorem State.resource_leads {ps : List Part} {s₀ s : State} {h : PbpHdr} {q : PbpReq} {c : Instr} {n : ℕ}
    {run : State → ℕ → Reply} (hs : Leads ps s₀ s) (hp : [Part.outbox, Part.freeCount, Part.ctr, Part.fab, Part.links, Part.host] ⊆ ps)
    (hf : ∀ u n, Leads ps s₀ u → Leads ps s₀ (run u n).1) : Leads ps s₀ (s.resource h q c n run) :=
  State.pbp_leads hs (List.Subset.trans (List.Sublist.subset (by decide)) hp) (fun _ _ hu => State.atTarget_leads hu (List.Subset.trans (List.Sublist.subset (by decide)) hp) (fun _ hv =>
    State.boxRequest_leads hv (fun _ hw => hf _ _ hw)))

theorem State.unprotect_leads {ps : List Part} {s₀ s : State} {page : ℕ} (hs : Leads ps s₀ s)
    (hp : [Part.freeCount, Part.mem, Part.memPoison, Part.protUnits, Part.tier] ⊆ ps) : Leads ps s₀ (State.unprotect s page) := by
  unfold State.unprotect
  repeat' first
    | with_reducible assumption
    | with_reducible exact List.Subset.trans (List.Sublist.subset (by decide)) hp
    | extract_lets
    | with_reducible refine State.draw_leads ?_ ?_
    | with_reducible refine State.memWrite_leads ?_ ?_
    | (with_reducible refine Leads.foldl _ ?_ ?_; rotate_left; intro u x hu)
    | with_reducible refine Leads.protUnits ?_ ?_

theorem State.setPte_leads {ps : List Part} {s₀ s : State} {b : ℕ} {va : ℕ} {e : W64} (hs : Leads ps s₀ s)
    (hp : [Part.freeCount, Part.boxes, Part.mem, Part.memPoison, Part.protUnits, Part.tier] ⊆ ps) : Leads ps s₀ (State.setPte s b va e) := by
  unfold State.setPte
  dsimp only
  repeat' first
    | with_reducible assumption
    | with_reducible exact List.Subset.trans (List.Sublist.subset (by decide)) hp
    | with_reducible refine State.unprotect_leads ?_ ?_
    | with_reducible refine State.modBox_leads ?_ ?_
    | with_reducible refine Leads.ite ?_ ?_
    | split

theorem State.mapPage_leads {ps : List Part} {s₀ s : State} {b : ℕ} {va : ℕ} {e : W64} (hs : Leads ps s₀ s)
    (hp : [Part.freeCount, Part.boxes, Part.mem, Part.memPoison, Part.protUnits, Part.held, Part.tier] ⊆ ps) : Leads ps s₀ (State.mapPage s b va e).1 := by
  unfold State.mapPage
  repeat' first
    | with_reducible assumption
    | with_reducible exact List.Subset.trans (List.Sublist.subset (by decide)) hp
    | with_reducible refine State.refused_leads ?_ ?_
    | refine LeadsO.get (by assumption) (State.growTable_leads ?_ (List.Subset.trans (List.Sublist.subset (by decide)) hp))
    | with_reducible refine State.answer_leads ?_ ?_
    | with_reducible refine State.setPte_leads ?_ ?_
    | split

theorem State.unmapPage_leads {ps : List Part} {s₀ s : State} {b : ℕ} {va : ℕ} (hs : Leads ps s₀ s)
    (hp : [Part.freeCount, Part.boxes, Part.mem, Part.memPoison, Part.protUnits, Part.held, Part.tier] ⊆ ps) : Leads ps s₀ (State.unmapPage s b va).1 := by
  unfold State.unmapPage
  repeat' first
    | with_reducible assumption
    | with_reducible exact List.Subset.trans (List.Sublist.subset (by decide)) hp
    | extract_lets
    | with_reducible refine State.refused_leads ?_ ?_
    | with_reducible refine State.setPte_leads ?_ ?_
    | with_reducible refine State.answer_leads ?_ ?_
    | with_reducible refine State.modBox_leads ?_ ?_
    | with_reducible refine State.releaseHeld_leads ?_ ?_
    | split

theorem State.publishRegions_leads {ps : List Part} {s₀ s : State} {b : ℕ} (hs : Leads ps s₀ s)
    (hp : [Part.freeCount, Part.regs] ⊆ ps) : Leads ps s₀ (State.publishRegions s b) := by
  unfold State.publishRegions
  repeat' first
    | with_reducible assumption
    | with_reducible exact List.Subset.trans (List.Sublist.subset (by decide)) hp
    | extract_lets
    | with_reducible refine State.draw_leads ?_ ?_
    | with_reducible refine State.setReg_leads ?_ ?_
    | with_reducible refine Leads.ite ?_ ?_
    | (with_reducible refine Leads.foldl _ ?_ ?_; rotate_left; intro u x hu)

theorem State.addRegion_leads {ps : List Part} {s₀ s : State} {b : ℕ} {n : ℕ} (hs : Leads ps s₀ s)
    (hp : [Part.freeCount, Part.regs, Part.boxes] ⊆ ps) : Leads ps s₀ (State.addRegion s b n).1 := by
  unfold State.addRegion
  repeat' first
    | with_reducible assumption
    | with_reducible exact List.Subset.trans (List.Sublist.subset (by decide)) hp
    | extract_lets
    | with_reducible refine State.refused_leads ?_ ?_
    | with_reducible refine State.modBox_leads ?_ ?_
    | with_reducible refine State.answer_leads ?_ ?_
    | with_reducible refine State.publishRegions_leads ?_ ?_
    | split

theorem State.setRegion_leads {ps : List Part} {s₀ s : State} {b : ℕ} {index : ℕ} {slot : ℕ} {thresh : ℕ} (hs : Leads ps s₀ s)
    (hp : [Part.boxes] ⊆ ps) : Leads ps s₀ (State.setRegion s b index slot thresh).1 := by
  unfold State.setRegion
  repeat' first
    | with_reducible assumption
    | with_reducible exact List.Subset.trans (List.Sublist.subset (by decide)) hp
    | with_reducible refine State.refused_leads ?_ ?_
    | with_reducible refine State.answer_leads ?_ ?_
    | with_reducible refine State.modBox_leads ?_ ?_
    | split

theorem State.setArgs_leads {ps : List Part} {s₀ s : State} {p : Pg} {lo : ℕ} {hi : ℕ} {len : ℕ} {addr : ℕ} {n : ℕ} (hs : Leads ps s₀ s)
    (hp : [Part.regs] ⊆ ps) : Leads ps s₀ (State.setArgs s p lo hi len addr n) := by
  unfold State.setArgs
  repeat' first
    | with_reducible assumption
    | with_reducible refine State.setReg_leads ?_ ?_

theorem State.codebookReq_leads {ps : List Part} {s₀ s : State} {h : PbpHdr} {n : ℕ} {word : W32} {addr : ℕ} {len : ℕ} (hs : Leads ps s₀ s)
    (hp : [Part.regs, Part.ctr, Part.cb, Part.host] ⊆ ps) : Leads ps s₀ (State.codebookReq s h n word addr len).1 := by
  unfold State.codebookReq
  repeat' first
    | with_reducible assumption
    | with_reducible exact List.Subset.trans (List.Sublist.subset (by decide)) hp
    | extract_lets
    | with_reducible refine State.setArgs_leads ?_ ?_
    | with_reducible refine State.cbCmd_leads ?_ ?_
    | with_reducible refine State.setHost_leads ?_ ?_
    | with_reducible refine State.answer_leads ?_ ?_
    | split

theorem State.tierReq_leads {ps : List Part} {s₀ s : State} {h : PbpHdr} {n : ℕ} {word : W32} {addr : ℕ} {len : ℕ} (hs : Leads ps s₀ s)
    (hp : [Part.regs, Part.ctr, Part.tier, Part.host] ⊆ ps) : Leads ps s₀ (State.tierReq s h n word addr len).1 := by
  unfold State.tierReq
  repeat' first
    | with_reducible assumption
    | with_reducible exact List.Subset.trans (List.Sublist.subset (by decide)) hp
    | extract_lets
    | with_reducible refine State.setArgs_leads ?_ ?_
    | with_reducible refine State.tierWrite_leads ?_ ?_
    | with_reducible refine State.setHost_leads ?_ ?_
    | with_reducible refine State.answer_leads ?_ ?_
    | split

theorem State.installKey_leads {ps : List Part} {s₀ s : State} {b : ℕ} {key : List Byte} (hs : Leads ps s₀ s)
    (hp : [Part.freeCount, Part.ctr, Part.boxes, Part.protUnits, Part.sec] ⊆ ps) : Leads ps s₀ (State.installKey s b key).1 := by
  unfold State.installKey
  repeat' first
    | with_reducible assumption
    | with_reducible exact List.Subset.trans (List.Sublist.subset (by decide)) hp
    | extract_lets
    | with_reducible refine State.refused_leads ?_ ?_
    | with_reducible refine State.setSec_leads ?_ ?_
    | with_reducible refine State.answer_leads ?_ ?_
    | with_reducible refine State.keyInstall_leads ?_ ?_
    | split

theorem State.attest_leads {ps : List Part} {s₀ s : State} {nonce : List Byte} (hs : Leads ps s₀ s)
    (hp : [Part.ctr] ⊆ ps) : Leads ps s₀ (State.attest s nonce).1 := by
  unfold State.attest
  repeat' first
    | with_reducible assumption
    | with_reducible exact List.Subset.trans (List.Sublist.subset (by decide)) hp
    | extract_lets
    | with_reducible refine State.answer_leads ?_ ?_
    | with_reducible refine State.bump_leads ?_ ?_
    | split

theorem State.roceAck_leads {ps : List Part} {s₀ s : State} {conn : ℕ} (hs : Leads ps s₀ s)
    (hp : [Part.outbox, Part.ctr] ⊆ ps) : Leads ps s₀ (State.roceAck s conn) := by
  unfold State.roceAck
  repeat' first
    | with_reducible assumption
    | with_reducible exact List.Subset.trans (List.Sublist.subset (by decide)) hp
    | with_reducible refine State.emit_leads ?_ ?_
    | with_reducible refine State.bump_leads ?_ ?_

theorem State.roceData_leads {ps : List Part} {s₀ s : State} {conn : ℕ} {d : List Byte} (hs : Leads ps s₀ s)
    (hp : [Part.outbox, Part.ctr] ⊆ ps) : Leads ps s₀ (State.roceData s conn d) := by
  unfold State.roceData
  repeat' first
    | with_reducible assumption
    | with_reducible exact List.Subset.trans (List.Sublist.subset (by decide)) hp
    | with_reducible refine State.emit_leads ?_ ?_
    | with_reducible refine State.bump_leads ?_ ?_

theorem State.roceNak_leads {ps : List Part} {s₀ s : State} {conn : ℕ} {kind : ℕ} (hs : Leads ps s₀ s)
    (hp : [Part.outbox, Part.ctr] ⊆ ps) : Leads ps s₀ (State.roceNak s conn kind) := by
  unfold State.roceNak
  repeat' first
    | with_reducible assumption
    | with_reducible exact List.Subset.trans (List.Sublist.subset (by decide)) hp
    | with_reducible refine State.emit_leads ?_ ?_
    | with_reducible refine State.bump_leads ?_ ?_

theorem State.letterboxError_leads {ps : List Part} {s₀ s : State} {b : ℕ} {off : ℕ} {count : ℕ} (hs : Leads ps s₀ s)
    (hp : [Part.ctr, Part.log] ⊆ ps) : Leads ps s₀ (State.letterboxError s b off count) := by
  unfold State.letterboxError
  repeat' first
    | with_reducible assumption
    | with_reducible exact List.Subset.trans (List.Sublist.subset (by decide)) hp
    | with_reducible refine State.event_leads ?_ ?_
    | with_reducible refine State.bump_leads ?_ ?_

theorem State.sqTail_leads {ps : List Part} {s₀ s : State} {b : ℕ} {ring : ℕ} {count : ℕ} (hs : Leads ps s₀ s)
    (hp : [Part.ctr, Part.boxes, Part.log] ⊆ ps) : Leads ps s₀ (State.sqTail s b ring count) := by
  unfold State.sqTail
  repeat' first
    | with_reducible assumption
    | with_reducible exact List.Subset.trans (List.Sublist.subset (by decide)) hp
    | with_reducible refine State.letterboxError_leads ?_ ?_
    | with_reducible refine State.modBox_leads ?_ ?_
    | with_reducible refine Leads.ite ?_ ?_
    | split

theorem State.outHead_leads {ps : List Part} {s₀ s : State} {b : ℕ} {dead : Bool} {count : ℕ} (hs : Leads ps s₀ s)
    (hp : [Part.ctr, Part.boxes, Part.log] ⊆ ps) : Leads ps s₀ (State.outHead s b dead count) := by
  unfold State.outHead
  repeat' first
    | with_reducible assumption
    | with_reducible exact List.Subset.trans (List.Sublist.subset (by decide)) hp
    | extract_lets
    | with_reducible refine State.letterboxError_leads ?_ ?_
    | with_reducible refine State.modBox_leads ?_ ?_
    | with_reducible refine Leads.ite ?_ ?_

theorem State.letterbox_leads {ps : List Part} {s₀ s : State} {b : ℕ} {off : ℕ} {count : ℕ} (hs : Leads ps s₀ s)
    (hp : [Part.ctr, Part.boxes, Part.log] ⊆ ps) : LeadsO ps s₀ (State.letterbox s b off count) := by
  unfold State.letterbox
  repeat' first
    | with_reducible assumption
    | with_reducible refine State.sqTail_leads ?_ ?_
    | with_reducible refine State.outHead_leads ?_ ?_
    | exact LeadsO.none
    | refine LeadsO.some ?_
    | split

theorem State.touchRange_leads {ps : List Part} {s₀ s : State} {b : ℕ} {va : ℕ} {n : ℕ} (hs : Leads ps s₀ s)
    (hp : [Part.ctr, Part.tier] ⊆ ps) : Leads ps s₀ (State.touchRange s b va n) := by
  unfold State.touchRange
  repeat' first
    | with_reducible assumption
    | with_reducible refine State.touch_leads ?_ ?_
    | (with_reducible refine Leads.foldl _ ?_ ?_; rotate_left; intro u x hu)

theorem State.hostWrite_leads {ps : List Part} {s₀ s : State} {c : Conn} {va : ℕ} {data : List Byte} (hs : Leads ps s₀ s)
    (hp : [Part.outbox, Part.ctr, Part.mem, Part.memPoison, Part.protUnits, Part.tier] ⊆ ps) : Leads ps s₀ (State.hostWrite s c va data) := by
  unfold State.hostWrite
  repeat' first
    | with_reducible assumption
    | with_reducible exact List.Subset.trans (List.Sublist.subset (by decide)) hp
    | extract_lets
    | with_reducible refine State.roceNak_leads ?_ ?_
    | with_reducible refine State.touchRange_leads ?_ ?_
    | with_reducible refine State.roceAck_leads ?_ ?_
    | with_reducible refine State.storeBox_leads ?_ ?_
    | with_reducible refine Leads.ite ?_ ?_

theorem State.hostRead_leads {ps : List Part} {s₀ s : State} {c : Conn} {va : ℕ} {n : ℕ} (hs : Leads ps s₀ s)
    (hp : [Part.outbox, Part.ctr, Part.tier, Part.log] ⊆ ps) : Leads ps s₀ (State.hostRead s c va n) := by
  unfold State.hostRead
  repeat' first
    | with_reducible assumption
    | with_reducible exact List.Subset.trans (List.Sublist.subset (by decide)) hp
    | extract_lets
    | with_reducible refine State.roceNak_leads ?_ ?_
    | with_reducible refine State.touchRange_leads ?_ ?_
    | with_reducible refine State.event_leads ?_ ?_
    | with_reducible refine State.roceData_leads ?_ ?_
    | with_reducible refine Leads.ite ?_ ?_

end Sys2Proof.Machine
end

