-- ==== Sys2Proof/Laws/LeadsExecCore.lean ====
section
/-! SUPPORT. Every command of a core completes, and the parts of the state that it may touch. -/

namespace Sys2Proof.Machine

theorem execEncodeBufferWrite_leads {ps : List Part} {s₀ s : State} {core : ℕ} {tensor : ℕ} {va : ℕ} {data : List Byte} (hs : Leads ps s₀ s)
    (hp : [Part.freeCount, Part.regs, Part.ctr, Part.cores, Part.places, Part.pages, Part.arenaWait, Part.poolWait, Part.items, Part.boxes, Part.mem, Part.memPoison, Part.protUnits, Part.tier, Part.log] ⊆ ps) : LeadsA ps s₀ (execEncodeBufferWrite core tensor va data s) := by
  unfold execEncodeBufferWrite
  repeat' first
    | with_reducible assumption
    | with_reducible exact List.Subset.trans (List.Sublist.subset (by decide)) hp
    | with_reducible refine Leads.when ?_ ?_
    | refine LeadsA.next ?_
    | split
    | with_reducible refine EncRes.settle_leads ?_ ?_
    | with_reducible refine State.encWrite_leads ?_ ?_

theorem execEncodeBlock_leads {ps : List Part} {s₀ s : State} {core : ℕ} {va : ℕ} (hs : Leads ps s₀ s)
    (hp : [Part.freeCount, Part.regs, Part.ctr, Part.cores, Part.places, Part.pages, Part.arenaWait, Part.poolWait, Part.items, Part.boxes, Part.mem, Part.memPoison, Part.protUnits, Part.tier, Part.log] ⊆ ps) : LeadsA ps s₀ (execEncodeBlock core va s) := by
  unfold execEncodeBlock
  repeat' first
    | with_reducible assumption
    | with_reducible exact List.Subset.trans (List.Sublist.subset (by decide)) hp
    | with_reducible refine Leads.when ?_ ?_
    | refine LeadsA.next ?_
    | split
    | with_reducible refine EncRes.settle_leads ?_ ?_
    | with_reducible refine State.writeOut_leads ?_ ?_

theorem execEncodeBufferWriteout_leads {ps : List Part} {s₀ s : State} {core : ℕ} (hs : Leads ps s₀ s)
    (hp : [Part.freeCount, Part.regs, Part.ctr, Part.cores, Part.places, Part.pages, Part.arenaWait, Part.poolWait, Part.items, Part.boxes, Part.mem, Part.memPoison, Part.protUnits, Part.tier, Part.log] ⊆ ps) : LeadsA ps s₀ (execEncodeBufferWriteout core s) := by
  unfold execEncodeBufferWriteout
  repeat' first
    | with_reducible assumption
    | with_reducible exact List.Subset.trans (List.Sublist.subset (by decide)) hp
    | refine LeadsA.next ?_
    | split
    | with_reducible refine EncRes.settle_leads ?_ ?_
    | with_reducible refine State.writeOut_leads ?_ ?_

theorem execExpanderDecodeBlock_leads {ps : List Part} {s₀ s : State} {core : ℕ} {tensor : ℕ} {va : ℕ} {dest : ℕ} (hs : Leads ps s₀ s)
    (hp : [Part.freeCount, Part.regs, Part.ctr, Part.cores, Part.places, Part.pages, Part.arenaWait, Part.poolWait, Part.items, Part.boxes, Part.mem, Part.memPoison, Part.protUnits, Part.tier, Part.log] ⊆ ps) : LeadsA ps s₀ (execExpanderDecodeBlock core tensor va dest s) := by
  unfold execExpanderDecodeBlock
  repeat' first
    | with_reducible assumption
    | with_reducible exact List.Subset.trans (List.Sublist.subset (by decide)) hp
    | extract_lets
    | with_reducible refine State.modCore_leads ?_ ?_ ?_
    | with_reducible refine State.fetchBlock_leads ?_ ?_
    | with_reducible refine State.countBlock_leads ?_ ?_
    | with_reducible refine State.noteCbWait_leads ?_ ?_
    | with_reducible refine State.touch_leads ?_ ?_
    | with_reducible refine State.failRun_leads ?_ ?_
    | with_reducible refine State.noteBlockFail_leads ?_ ?_
    | refine LeadsA.next ?_
    | exact fun _ h => h
    | split

theorem execShadowReadySet_leads {ps : List Part} {s₀ s : State} {core : ℕ} (hs : Leads ps s₀ s)
    (hp : [Part.regs, Part.cores] ⊆ ps) : LeadsA ps s₀ (execShadowReadySet core s) := by
  unfold execShadowReadySet
  repeat' first
    | with_reducible assumption
    | with_reducible exact List.Subset.trans (List.Sublist.subset (by decide)) hp
    | with_reducible refine State.changed_leads ?_ ?_
    | with_reducible refine State.modCore_leads ?_ ?_ ?_
    | with_reducible refine Leads.when ?_ ?_
    | refine LeadsA.next ?_
    | exact fun _ h => h

theorem execBankSwap_leads {ps : List Part} {s₀ s : State} {core : ℕ} (hs : Leads ps s₀ s)
    (hp : [Part.freeCount, Part.regs, Part.ctr, Part.cores, Part.places, Part.pages, Part.arenaWait, Part.poolWait, Part.items, Part.boxes, Part.mem, Part.memPoison, Part.protUnits, Part.dies, Part.tier, Part.log] ⊆ ps) : LeadsA ps s₀ (execBankSwap core s) := by
  unfold execBankSwap
  repeat' first
    | with_reducible assumption
    | with_reducible exact List.Subset.trans (List.Sublist.subset (by decide)) hp
    | extract_lets
    | with_reducible refine State.changed_leads ?_ ?_
    | with_reducible refine State.modCore_leads ?_ ?_ ?_
    | with_reducible refine State.runUnits_leads ?_ ?_
    | with_reducible refine State.broadcastHead_leads ?_ ?_
    | with_reducible refine Leads.when ?_ ?_
    | refine LeadsA.next ?_
    | exact fun _ h => h
    | split

theorem execDrainDone_leads {ps : List Part} {s₀ s : State} {core : ℕ} (hs : Leads ps s₀ s)
    (hp : [Part.freeCount, Part.regs, Part.ctr, Part.cores, Part.places, Part.pages, Part.arenaWait, Part.poolWait, Part.items, Part.boxes, Part.mem, Part.memPoison, Part.protUnits, Part.dies, Part.tier, Part.log] ⊆ ps) : LeadsA ps s₀ (execDrainDone core s) := by
  unfold execDrainDone
  repeat' first
    | with_reducible assumption
    | with_reducible exact List.Subset.trans (List.Sublist.subset (by decide)) hp
    | with_reducible refine State.runUnits_leads ?_ ?_
    | with_reducible refine State.modCore_leads ?_ ?_ ?_
    | refine LeadsA.next ?_
    | split
    | (intro q h; exact ⟨by simpa using h.1, by simpa using h.2⟩)

theorem execClerkTrap_leads {ps : List Part} {s₀ s : State} {core : ℕ} {clerk : ℕ} {kind : TrapKind} (hs : Leads ps s₀ s)
    (hp : [Part.freeCount, Part.regs, Part.ctr, Part.cores, Part.places, Part.pages, Part.arenaWait, Part.poolWait, Part.items, Part.boxes] ⊆ ps) : LeadsA ps s₀ (execClerkTrap core clerk kind s) := by
  unfold execClerkTrap
  repeat' first
    | with_reducible assumption
    | with_reducible refine State.trap_leads ?_ ?_
    | with_reducible refine Leads.when ?_ ?_
    | refine LeadsA.next ?_

theorem execTdld_leads {ps : List Part} {s₀ s : State} {core : ℕ} {clerk : ℕ} (hs : Leads ps s₀ s)
    (hp : [Part.freeCount, Part.regs, Part.ctr, Part.cores, Part.places, Part.pages, Part.arenaWait, Part.poolWait, Part.items, Part.boxes] ⊆ ps) : LeadsA ps s₀ (execTdld core clerk s) := by
  unfold execTdld
  repeat' first
    | with_reducible assumption
    | with_reducible exact List.Subset.trans (List.Sublist.subset (by decide)) hp
    | extract_lets
    | with_reducible refine State.trap_leads ?_ ?_
    | with_reducible refine State.retire_leads ?_ ?_
    | with_reducible refine State.modClerk_leads ?_ ?_ ?_
    | with_reducible refine State.putExec_leads ?_ ?_ ?_
    | refine LeadsA.next ?_
    | split
    | (intro q h; exact ⟨by simpa using h.1, by simpa using h.2⟩)
    | (intro i; exact State.execOf_shape (hs.inv i))

theorem execTdst_leads {ps : List Part} {s₀ s : State} {core : ℕ} {clerk : ℕ} (hs : Leads ps s₀ s)
    (hp : [Part.freeCount, Part.regs, Part.ctr, Part.cores, Part.places, Part.pages, Part.arenaWait, Part.poolWait, Part.items, Part.boxes] ⊆ ps) : LeadsA ps s₀ (execTdst core clerk s) := by
  unfold execTdst
  repeat' first
    | with_reducible assumption
    | with_reducible exact List.Subset.trans (List.Sublist.subset (by decide)) hp
    | extract_lets
    | with_reducible refine State.trap_leads ?_ ?_
    | with_reducible refine State.retire_leads ?_ ?_
    | with_reducible refine State.putExec_leads ?_ ?_ ?_
    | refine LeadsA.next ?_
    | split
    | (intro i; exact Exec.dwrite_shape (State.execOf_shape (hs.inv i)))

theorem execTdset_leads {ps : List Part} {s₀ s : State} {core : ℕ} {clerk : ℕ} (hs : Leads ps s₀ s)
    (hp : [Part.ctr, Part.cores] ⊆ ps) : LeadsA ps s₀ (execTdset core clerk s) := by
  unfold execTdset
  repeat' first
    | with_reducible assumption
    | with_reducible exact List.Subset.trans (List.Sublist.subset (by decide)) hp
    | extract_lets
    | with_reducible refine State.retire_leads ?_ ?_
    | with_reducible refine State.modClerk_leads ?_ ?_ ?_
    | refine LeadsA.next ?_
    | split
    | (intro q h; exact ⟨by simpa using h.1, by simpa using h.2⟩)

theorem execTparm_leads {ps : List Part} {s₀ s : State} {core : ℕ} {clerk : ℕ} (hs : Leads ps s₀ s)
    (hp : [Part.ctr, Part.cores] ⊆ ps) : LeadsA ps s₀ (execTparm core clerk s) := by
  unfold execTparm
  repeat' first
    | with_reducible assumption
    | with_reducible exact List.Subset.trans (List.Sublist.subset (by decide)) hp
    | with_reducible refine State.retire_leads ?_ ?_
    | with_reducible refine State.modClerk_leads ?_ ?_ ?_
    | refine LeadsA.next ?_
    | exact fun _ h => h
    | split

theorem execTstat_leads {ps : List Part} {s₀ s : State} {core : ℕ} {clerk : ℕ} (hs : Leads ps s₀ s)
    (hp : [Part.ctr, Part.cores] ⊆ ps) : LeadsA ps s₀ (execTstat core clerk s) := by
  unfold execTstat
  repeat' first
    | with_reducible assumption
    | with_reducible exact List.Subset.trans (List.Sublist.subset (by decide)) hp
    | extract_lets
    | with_reducible refine State.retire_leads ?_ ?_
    | with_reducible refine State.modClerk_leads ?_ ?_ ?_
    | refine LeadsA.next ?_
    | split
    | exact fun _ h => Clerk.setX_shape h

theorem execMxwl_leads {ps : List Part} {s₀ s : State} {core : ℕ} {clerk : ℕ} (hs : Leads ps s₀ s)
    (hp : [Part.freeCount, Part.regs, Part.ctr, Part.cores, Part.places, Part.pages, Part.arenaWait, Part.poolWait, Part.items, Part.boxes, Part.mem, Part.memPoison, Part.protUnits, Part.dies, Part.tier, Part.log] ⊆ ps) : LeadsA ps s₀ (execMxwl core clerk s) := by
  unfold execMxwl
  repeat' first
    | with_reducible assumption
    | with_reducible refine State.issueMxwl_leads ?_ ?_
    | refine LeadsA.next ?_
    | split

theorem execMxmul_leads {ps : List Part} {s₀ s : State} {core : ℕ} {clerk : ℕ} (hs : Leads ps s₀ s)
    (hp : [Part.freeCount, Part.regs, Part.ctr, Part.cores, Part.places, Part.pages, Part.arenaWait, Part.poolWait, Part.items, Part.boxes, Part.mem, Part.memPoison, Part.protUnits, Part.dies, Part.tier, Part.log] ⊆ ps) : LeadsA ps s₀ (execMxmul core clerk s) := by
  unfold execMxmul
  repeat' first
    | with_reducible assumption
    | with_reducible refine State.issueMxmul_leads ?_ ?_
    | refine LeadsA.next ?_
    | split

theorem execDrn_leads {ps : List Part} {s₀ s : State} {core : ℕ} {clerk : ℕ} (hs : Leads ps s₀ s)
    (hp : [Part.freeCount, Part.regs, Part.ctr, Part.cores, Part.places, Part.pages, Part.arenaWait, Part.poolWait, Part.items, Part.boxes, Part.mem, Part.memPoison, Part.protUnits, Part.dies, Part.tier, Part.log] ⊆ ps) : LeadsA ps s₀ (execDrn core clerk s) := by
  unfold execDrn
  repeat' first
    | with_reducible assumption
    | with_reducible refine State.issueDrn_leads ?_ ?_
    | refine LeadsA.next ?_
    | split

theorem execCrr_leads {ps : List Part} {s₀ s : State} {core : ℕ} {clerk : ℕ} (hs : Leads ps s₀ s)
    (hp : [Part.freeCount, Part.regs, Part.ctr, Part.cores, Part.places, Part.pages, Part.arenaWait, Part.poolWait, Part.items, Part.boxes, Part.mem, Part.memPoison, Part.protUnits, Part.dies, Part.tier, Part.log] ⊆ ps) : LeadsA ps s₀ (execCrr core clerk s) := by
  unfold execCrr
  repeat' first
    | with_reducible assumption
    | with_reducible refine State.issueCrr_leads ?_ ?_
    | refine LeadsA.next ?_
    | split

theorem execIssueQueueRoom_leads {ps : List Part} {s₀ s : State} {core : ℕ} {clerk : ℕ} (hs : Leads ps s₀ s)
    (hp : [Part.freeCount, Part.regs, Part.ctr, Part.cores, Part.places, Part.pages, Part.arenaWait, Part.poolWait, Part.items, Part.boxes, Part.mem, Part.memPoison, Part.protUnits, Part.dies, Part.tier, Part.log] ⊆ ps) : LeadsA ps s₀ (execIssueQueueRoom core clerk s) := by
  unfold execIssueQueueRoom
  repeat' first
    | with_reducible assumption
    | extract_lets
    | with_reducible refine State.runUnits_leads ?_ ?_
    | with_reducible refine State.issueMxwl_leads ?_ ?_
    | with_reducible refine State.issueMxmul_leads ?_ ?_
    | with_reducible refine State.issueDrn_leads ?_ ?_
    | with_reducible refine State.issueCrr_leads ?_ ?_
    | refine LeadsA.next ?_
    | split

theorem execTwait_leads {ps : List Part} {s₀ s : State} {core : ℕ} {clerk : ℕ} (hs : Leads ps s₀ s)
    (hp : [Part.freeCount, Part.regs, Part.ctr, Part.cores, Part.places, Part.pages, Part.arenaWait, Part.poolWait, Part.items, Part.boxes, Part.mem, Part.memPoison, Part.protUnits, Part.dies, Part.tier, Part.log] ⊆ ps) : LeadsA ps s₀ (execTwait core clerk s) := by
  unfold execTwait
  repeat' first
    | with_reducible assumption
    | with_reducible exact List.Subset.trans (List.Sublist.subset (by decide)) hp
    | extract_lets
    | with_reducible refine State.runUnits_leads ?_ ?_
    | with_reducible refine State.stall_leads ?_ ?_
    | with_reducible refine State.retire_leads ?_ ?_
    | refine LeadsA.next ?_
    | split

theorem execEcall_leads {ps : List Part} {s₀ s : State} {core : ℕ} {clerk : ℕ} (hs : Leads ps s₀ s)
    (hp : [Part.ctr, Part.cores] ⊆ ps) : LeadsA ps s₀ (execEcall core clerk s) := by
  unfold execEcall
  repeat' first
    | with_reducible assumption
    | with_reducible exact List.Subset.trans (List.Sublist.subset (by decide)) hp
    | with_reducible refine State.modClerk_leads ?_ ?_ ?_
    | with_reducible refine State.retire_leads ?_ ?_
    | refine LeadsA.next ?_
    | exact fun _ h => h
    | split

theorem execRv64imacInstruction_leads {ps : List Part} {s₀ s : State} {core clerk : ℕ} (hs : Leads ps s₀ s)
    (hp : [Part.freeCount, Part.regs, Part.ctr, Part.cores, Part.places, Part.pages, Part.arenaWait, Part.poolWait, Part.items, Part.boxes] ⊆ ps) : LeadsA ps s₀ (execRv64imacInstruction core clerk s) := by
  unfold execRv64imacInstruction
  split
  · exact LeadsA.next (State.trap_leads hs (List.Subset.trans (List.Sublist.subset (by decide)) hp))
  · exact LeadsA.next (State.trap_leads hs (List.Subset.trans (List.Sublist.subset (by decide)) hp))
  · rename_i w len _
    have h := fun i => Exec.rv_shape (x := s.execOf core) (n := clerk) (w := w) (len := len)
      (State.execOf_shape (hs.inv i))
    split
    · rename_i e
      rw [e] at h
      exact LeadsA.next (State.bump_leads (State.modClerk_leads (State.putExec_leads hs (List.Subset.trans (List.Sublist.subset (by decide)) hp) h) (List.Subset.trans (List.Sublist.subset (by decide)) hp) (fun _ h => h)) (List.Subset.trans (List.Sublist.subset (by decide)) hp))
    · rename_i e
      rw [e] at h
      exact LeadsA.next (State.trap_leads (State.putExec_leads hs (List.Subset.trans (List.Sublist.subset (by decide)) hp) h) (List.Subset.trans (List.Sublist.subset (by decide)) hp))
    · exact LeadsA.next hs
  · exact LeadsA.next hs

theorem execAdd_leads {ps : List Part} {s₀ s : State} {core clerk : ℕ} (hs : Leads ps s₀ s)
    (hp : [Part.freeCount, Part.regs, Part.ctr, Part.cores, Part.places, Part.pages, Part.arenaWait, Part.poolWait,
      Part.items, Part.boxes] ⊆ ps) : LeadsA ps s₀ (execAdd core clerk s) :=
  LeadsA.next (State.vxop_leads hs hp (fun _ _ h => vxBinary_shape h))

theorem execSub_leads {ps : List Part} {s₀ s : State} {core clerk : ℕ} (hs : Leads ps s₀ s)
    (hp : [Part.freeCount, Part.regs, Part.ctr, Part.cores, Part.places, Part.pages, Part.arenaWait, Part.poolWait,
      Part.items, Part.boxes] ⊆ ps) : LeadsA ps s₀ (execSub core clerk s) :=
  LeadsA.next (State.vxop_leads hs hp (fun _ _ h => vxBinary_shape h))

theorem execMul_leads {ps : List Part} {s₀ s : State} {core clerk : ℕ} (hs : Leads ps s₀ s)
    (hp : [Part.freeCount, Part.regs, Part.ctr, Part.cores, Part.places, Part.pages, Part.arenaWait, Part.poolWait,
      Part.items, Part.boxes] ⊆ ps) : LeadsA ps s₀ (execMul core clerk s) :=
  LeadsA.next (State.vxop_leads hs hp (fun _ _ h => vxBinary_shape h))

theorem execFma_leads {ps : List Part} {s₀ s : State} {core clerk : ℕ} (hs : Leads ps s₀ s)
    (hp : [Part.freeCount, Part.regs, Part.ctr, Part.cores, Part.places, Part.pages, Part.arenaWait, Part.poolWait,
      Part.items, Part.boxes] ⊆ ps) : LeadsA ps s₀ (execFma core clerk s) :=
  LeadsA.next (State.vxop_leads hs hp (fun _ _ h => vxFma_shape h))

theorem execMin_leads {ps : List Part} {s₀ s : State} {core clerk : ℕ} (hs : Leads ps s₀ s)
    (hp : [Part.freeCount, Part.regs, Part.ctr, Part.cores, Part.places, Part.pages, Part.arenaWait, Part.poolWait,
      Part.items, Part.boxes] ⊆ ps) : LeadsA ps s₀ (execMin core clerk s) :=
  LeadsA.next (State.vxop_leads hs hp (fun _ _ h => vxBinary_shape h))

theorem execMax_leads {ps : List Part} {s₀ s : State} {core clerk : ℕ} (hs : Leads ps s₀ s)
    (hp : [Part.freeCount, Part.regs, Part.ctr, Part.cores, Part.places, Part.pages, Part.arenaWait, Part.poolWait,
      Part.items, Part.boxes] ⊆ ps) : LeadsA ps s₀ (execMax core clerk s) :=
  LeadsA.next (State.vxop_leads hs hp (fun _ _ h => vxBinary_shape h))

theorem execCmplt_leads {ps : List Part} {s₀ s : State} {core clerk : ℕ} (hs : Leads ps s₀ s)
    (hp : [Part.freeCount, Part.regs, Part.ctr, Part.cores, Part.places, Part.pages, Part.arenaWait, Part.poolWait,
      Part.items, Part.boxes] ⊆ ps) : LeadsA ps s₀ (execCmplt core clerk s) :=
  LeadsA.next (State.vxop_leads hs hp (fun _ _ h => vxBinary_shape h))

theorem execCmpeq_leads {ps : List Part} {s₀ s : State} {core clerk : ℕ} (hs : Leads ps s₀ s)
    (hp : [Part.freeCount, Part.regs, Part.ctr, Part.cores, Part.places, Part.pages, Part.arenaWait, Part.poolWait,
      Part.items, Part.boxes] ⊆ ps) : LeadsA ps s₀ (execCmpeq core clerk s) :=
  LeadsA.next (State.vxop_leads hs hp (fun _ _ h => vxBinary_shape h))

theorem execSel_leads {ps : List Part} {s₀ s : State} {core clerk : ℕ} (hs : Leads ps s₀ s)
    (hp : [Part.freeCount, Part.regs, Part.ctr, Part.cores, Part.places, Part.pages, Part.arenaWait, Part.poolWait,
      Part.items, Part.boxes] ⊆ ps) : LeadsA ps s₀ (execSel core clerk s) :=
  LeadsA.next (State.vxop_leads hs hp (fun _ _ h => vxSel_shape h))

theorem execCvt_leads {ps : List Part} {s₀ s : State} {core clerk : ℕ} (hs : Leads ps s₀ s)
    (hp : [Part.freeCount, Part.regs, Part.ctr, Part.cores, Part.places, Part.pages, Part.arenaWait, Part.poolWait,
      Part.items, Part.boxes] ⊆ ps) : LeadsA ps s₀ (execCvt core clerk s) :=
  LeadsA.next (State.vxop_leads hs hp (fun _ _ h => vxUnary_shape h))

theorem execAbs_leads {ps : List Part} {s₀ s : State} {core clerk : ℕ} (hs : Leads ps s₀ s)
    (hp : [Part.freeCount, Part.regs, Part.ctr, Part.cores, Part.places, Part.pages, Part.arenaWait, Part.poolWait,
      Part.items, Part.boxes] ⊆ ps) : LeadsA ps s₀ (execAbs core clerk s) :=
  LeadsA.next (State.vxop_leads hs hp (fun _ _ h => vxUnary_shape h))

theorem execNeg_leads {ps : List Part} {s₀ s : State} {core clerk : ℕ} (hs : Leads ps s₀ s)
    (hp : [Part.freeCount, Part.regs, Part.ctr, Part.cores, Part.places, Part.pages, Part.arenaWait, Part.poolWait,
      Part.items, Part.boxes] ⊆ ps) : LeadsA ps s₀ (execNeg core clerk s) :=
  LeadsA.next (State.vxop_leads hs hp (fun _ _ h => vxUnary_shape h))

theorem execExp_leads {ps : List Part} {s₀ s : State} {core clerk : ℕ} (hs : Leads ps s₀ s)
    (hp : [Part.freeCount, Part.regs, Part.ctr, Part.cores, Part.places, Part.pages, Part.arenaWait, Part.poolWait,
      Part.items, Part.boxes] ⊆ ps) : LeadsA ps s₀ (execExp core clerk s) :=
  LeadsA.next (State.vxop_leads hs hp (fun _ _ h => vxUnary_shape h))

theorem execLog_leads {ps : List Part} {s₀ s : State} {core clerk : ℕ} (hs : Leads ps s₀ s)
    (hp : [Part.freeCount, Part.regs, Part.ctr, Part.cores, Part.places, Part.pages, Part.arenaWait, Part.poolWait,
      Part.items, Part.boxes] ⊆ ps) : LeadsA ps s₀ (execLog core clerk s) :=
  LeadsA.next (State.vxop_leads hs hp (fun _ _ h => vxUnary_shape h))

theorem execRcp_leads {ps : List Part} {s₀ s : State} {core clerk : ℕ} (hs : Leads ps s₀ s)
    (hp : [Part.freeCount, Part.regs, Part.ctr, Part.cores, Part.places, Part.pages, Part.arenaWait, Part.poolWait,
      Part.items, Part.boxes] ⊆ ps) : LeadsA ps s₀ (execRcp core clerk s) :=
  LeadsA.next (State.vxop_leads hs hp (fun _ _ h => vxUnary_shape h))

theorem execRsqrt_leads {ps : List Part} {s₀ s : State} {core clerk : ℕ} (hs : Leads ps s₀ s)
    (hp : [Part.freeCount, Part.regs, Part.ctr, Part.cores, Part.places, Part.pages, Part.arenaWait, Part.poolWait,
      Part.items, Part.boxes] ⊆ ps) : LeadsA ps s₀ (execRsqrt core clerk s) :=
  LeadsA.next (State.vxop_leads hs hp (fun _ _ h => vxUnary_shape h))

theorem execSigmoid_leads {ps : List Part} {s₀ s : State} {core clerk : ℕ} (hs : Leads ps s₀ s)
    (hp : [Part.freeCount, Part.regs, Part.ctr, Part.cores, Part.places, Part.pages, Part.arenaWait, Part.poolWait,
      Part.items, Part.boxes] ⊆ ps) : LeadsA ps s₀ (execSigmoid core clerk s) :=
  LeadsA.next (State.vxop_leads hs hp (fun _ _ h => vxUnary_shape h))

theorem execTanh_leads {ps : List Part} {s₀ s : State} {core clerk : ℕ} (hs : Leads ps s₀ s)
    (hp : [Part.freeCount, Part.regs, Part.ctr, Part.cores, Part.places, Part.pages, Part.arenaWait, Part.poolWait,
      Part.items, Part.boxes] ⊆ ps) : LeadsA ps s₀ (execTanh core clerk s) :=
  LeadsA.next (State.vxop_leads hs hp (fun _ _ h => vxUnary_shape h))

theorem execRsum_leads {ps : List Part} {s₀ s : State} {core clerk : ℕ} (hs : Leads ps s₀ s)
    (hp : [Part.freeCount, Part.regs, Part.ctr, Part.cores, Part.places, Part.pages, Part.arenaWait, Part.poolWait,
      Part.items, Part.boxes] ⊆ ps) : LeadsA ps s₀ (execRsum core clerk s) :=
  LeadsA.next (State.vxop_leads hs hp (fun _ _ h => vxReduce_shape h))

theorem execRmax_leads {ps : List Part} {s₀ s : State} {core clerk : ℕ} (hs : Leads ps s₀ s)
    (hp : [Part.freeCount, Part.regs, Part.ctr, Part.cores, Part.places, Part.pages, Part.arenaWait, Part.poolWait,
      Part.items, Part.boxes] ⊆ ps) : LeadsA ps s₀ (execRmax core clerk s) :=
  LeadsA.next (State.vxop_leads hs hp (fun _ _ h => vxReduce_shape h))

theorem execRargmax_leads {ps : List Part} {s₀ s : State} {core clerk : ℕ} (hs : Leads ps s₀ s)
    (hp : [Part.freeCount, Part.regs, Part.ctr, Part.cores, Part.places, Part.pages, Part.arenaWait, Part.poolWait,
      Part.items, Part.boxes] ⊆ ps) : LeadsA ps s₀ (execRargmax core clerk s) :=
  LeadsA.next (State.vxop_leads hs hp (fun _ _ h => vxReduce_shape h))

theorem execRsumsq_leads {ps : List Part} {s₀ s : State} {core clerk : ℕ} (hs : Leads ps s₀ s)
    (hp : [Part.freeCount, Part.regs, Part.ctr, Part.cores, Part.places, Part.pages, Part.arenaWait, Part.poolWait,
      Part.items, Part.boxes] ⊆ ps) : LeadsA ps s₀ (execRsumsq core clerk s) :=
  LeadsA.next (State.vxop_leads hs hp (fun _ _ h => vxReduce_shape h))

theorem execSoftmaxStep_leads {ps : List Part} {s₀ s : State} {core clerk : ℕ} (hs : Leads ps s₀ s)
    (hp : [Part.freeCount, Part.regs, Part.ctr, Part.cores, Part.places, Part.pages, Part.arenaWait, Part.poolWait,
      Part.items, Part.boxes] ⊆ ps) : LeadsA ps s₀ (execSoftmaxStep core clerk s) :=
  LeadsA.next (State.vxop_leads hs hp (fun _ _ h => vxSoftmaxStep_shape h))

theorem execSoftmaxFinal_leads {ps : List Part} {s₀ s : State} {core clerk : ℕ} (hs : Leads ps s₀ s)
    (hp : [Part.freeCount, Part.regs, Part.ctr, Part.cores, Part.places, Part.pages, Part.arenaWait, Part.poolWait,
      Part.items, Part.boxes] ⊆ ps) : LeadsA ps s₀ (execSoftmaxFinal core clerk s) :=
  LeadsA.next (State.vxop_leads hs hp (fun _ _ h => vxSoftmaxFinal_shape h))

theorem execRmsnorm_leads {ps : List Part} {s₀ s : State} {core clerk : ℕ} (hs : Leads ps s₀ s)
    (hp : [Part.freeCount, Part.regs, Part.ctr, Part.cores, Part.places, Part.pages, Part.arenaWait, Part.poolWait,
      Part.items, Part.boxes] ⊆ ps) : LeadsA ps s₀ (execRmsnorm core clerk s) :=
  LeadsA.next (State.vxop_leads hs hp (fun _ _ h => vxNorm_shape h))

theorem execLayernorm_leads {ps : List Part} {s₀ s : State} {core clerk : ℕ} (hs : Leads ps s₀ s)
    (hp : [Part.freeCount, Part.regs, Part.ctr, Part.cores, Part.places, Part.pages, Part.arenaWait, Part.poolWait,
      Part.items, Part.boxes] ⊆ ps) : LeadsA ps s₀ (execLayernorm core clerk s) :=
  LeadsA.next (State.vxop_leads hs hp (fun _ _ h => vxNorm_shape h))

theorem execScan_leads {ps : List Part} {s₀ s : State} {core clerk : ℕ} (hs : Leads ps s₀ s)
    (hp : [Part.freeCount, Part.regs, Part.ctr, Part.cores, Part.places, Part.pages, Part.arenaWait, Part.poolWait,
      Part.items, Part.boxes] ⊆ ps) : LeadsA ps s₀ (execScan core clerk s) :=
  LeadsA.next (State.vxop_leads hs hp (fun _ _ h => vxScan_shape h))

theorem execStateRms_leads {ps : List Part} {s₀ s : State} {core clerk : ℕ} (hs : Leads ps s₀ s)
    (hp : [Part.freeCount, Part.regs, Part.ctr, Part.cores, Part.places, Part.pages, Part.arenaWait, Part.poolWait,
      Part.items, Part.boxes] ⊆ ps) : LeadsA ps s₀ (execStateRms core clerk s) :=
  LeadsA.next (State.vxop_leads hs hp (fun _ _ h => vxStateRms_shape h))

theorem execTopk_leads {ps : List Part} {s₀ s : State} {core clerk : ℕ} (hs : Leads ps s₀ s)
    (hp : [Part.freeCount, Part.regs, Part.ctr, Part.cores, Part.places, Part.pages, Part.arenaWait, Part.poolWait,
      Part.items, Part.boxes] ⊆ ps) : LeadsA ps s₀ (execTopk core clerk s) :=
  LeadsA.next (State.vxop_leads hs hp (fun _ _ h => vxTopk_shape h))

theorem execPool_leads {ps : List Part} {s₀ s : State} {core clerk : ℕ} (hs : Leads ps s₀ s)
    (hp : [Part.freeCount, Part.regs, Part.ctr, Part.cores, Part.places, Part.pages, Part.arenaWait, Part.poolWait,
      Part.items, Part.boxes] ⊆ ps) : LeadsA ps s₀ (execPool core clerk s) :=
  LeadsA.next (State.vxop_leads hs hp (fun _ _ h => vxWindow_shape h))

theorem execDwconv_leads {ps : List Part} {s₀ s : State} {core clerk : ℕ} (hs : Leads ps s₀ s)
    (hp : [Part.freeCount, Part.regs, Part.ctr, Part.cores, Part.places, Part.pages, Part.arenaWait, Part.poolWait,
      Part.items, Part.boxes] ⊆ ps) : LeadsA ps s₀ (execDwconv core clerk s) :=
  LeadsA.next (State.vxop_leads hs hp (fun _ _ h => vxWindow_shape h))

theorem execWalkIssue_leads {ps : List Part} {s₀ s : State} {core clerk : ℕ} (hs : Leads ps s₀ s)
    (hp : [Part.freeCount, Part.regs, Part.ctr, Part.cores, Part.places, Part.groups, Part.pages, Part.arenaWait, Part.poolWait, Part.items, Part.boxes] ⊆ ps) : LeadsA ps s₀ (execWalkIssue core clerk s) := by
  unfold execWalkIssue
  split
  · split
    · exact LeadsA.next (State.stall_leads hs (List.Subset.trans (List.Sublist.subset (by decide)) hp))
    · split
      · exact LeadsA.next (State.failRun_leads hs (List.Subset.trans (List.Sublist.subset (by decide)) hp))
      · extract_lets +onlyGivenNames req rOff r u w x
        have hu : Leads ps s₀ u := State.putExec_leads hs (List.Subset.trans (List.Sublist.subset (by decide)) hp)
          (fun i => Exec.dread_shape (Exec.dread_shape (State.execOf_shape (hs.inv i))))
        clear_value u w
        split
        · exact LeadsA.next (State.failRun_leads hu (List.Subset.trans (List.Sublist.subset (by decide)) hp))
        · have fin : ∀ (v : State) (len : ℕ), Leads ps s₀ v → LeadsA ps s₀ (.next (((v.modCore core (fun k => { k with
              courQ := k.courQ.set w.courier (k.courQ.getD w.courier [] ++ [.walk clerk (req.2 + r.2 * 2 ^ 256)]) })).retire
                core clerk len).bump .kvw core 0 1)) := fun v _ hv =>
            LeadsA.next (State.bump_leads (State.retire_leads (State.modCore_leads hv (List.Subset.trans (List.Sublist.subset (by decide)) hp)
              (fun k h => ⟨h.1, h.2.1, h.2.2.1, by simpa using h.2.2.2⟩)) (List.Subset.trans (List.Sublist.subset (by decide)) hp)) (List.Subset.trans (List.Sublist.subset (by decide)) hp))
          clear_value x
          cases x with
          | none => exact fin _ _ hu
          | some x => exact fin _ _ (State.fixLayer_leads hu (List.Subset.trans (List.Sublist.subset (by decide)) hp))
  · exact LeadsA.next hs

theorem execGatherK_leads {ps : List Part} {s₀ s : State} {core : ℕ} {q : ℕ} (hs : Leads ps s₀ s)
    (hp : [Part.freeCount, Part.regs, Part.ctr, Part.cores, Part.places, Part.pages, Part.arenaWait, Part.poolWait, Part.items, Part.boxes, Part.mem, Part.memPoison, Part.protUnits, Part.dies, Part.tier, Part.log] ⊆ ps) : LeadsA ps s₀ (execGatherK core q s) := by
  unfold execGatherK
  repeat' first
    | with_reducible assumption
    | with_reducible refine State.gather_leads ?_ ?_
    | refine LeadsA.next ?_

theorem execGatherV_leads {ps : List Part} {s₀ s : State} {core : ℕ} {q : ℕ} (hs : Leads ps s₀ s)
    (hp : [Part.freeCount, Part.regs, Part.ctr, Part.cores, Part.places, Part.pages, Part.arenaWait, Part.poolWait, Part.items, Part.boxes, Part.mem, Part.memPoison, Part.protUnits, Part.dies, Part.tier, Part.log] ⊆ ps) : LeadsA ps s₀ (execGatherV core q s) := by
  unfold execGatherV
  repeat' first
    | with_reducible assumption
    | with_reducible refine State.gather_leads ?_ ?_
    | refine LeadsA.next ?_

theorem execAppendK_leads {ps : List Part} {s₀ s : State} {core : ℕ} {q : ℕ} (hs : Leads ps s₀ s)
    (hp : [Part.freeCount, Part.regs, Part.ctr, Part.cores, Part.places, Part.pages, Part.arenaWait, Part.poolWait, Part.items, Part.boxes, Part.mem, Part.memPoison, Part.protUnits, Part.dies, Part.tier, Part.log] ⊆ ps) : LeadsA ps s₀ (execAppendK core q s) := by
  unfold execAppendK
  repeat' first
    | with_reducible assumption
    | with_reducible refine State.append_leads ?_ ?_
    | refine LeadsA.next ?_

theorem execAppendV_leads {ps : List Part} {s₀ s : State} {core : ℕ} {q : ℕ} (hs : Leads ps s₀ s)
    (hp : [Part.freeCount, Part.regs, Part.ctr, Part.cores, Part.places, Part.pages, Part.arenaWait, Part.poolWait, Part.items, Part.boxes, Part.mem, Part.memPoison, Part.protUnits, Part.dies, Part.tier, Part.log] ⊆ ps) : LeadsA ps s₀ (execAppendV core q s) := by
  unfold execAppendV
  repeat' first
    | with_reducible assumption
    | with_reducible refine State.append_leads ?_ ?_
    | refine LeadsA.next ?_

theorem execKvPoolAllocResume_leads {ps : List Part} {s₀ s : State} {box : ℕ} (hs : Leads ps s₀ s)
    (hp : [Part.freeCount, Part.regs, Part.ctr, Part.cores, Part.places, Part.pages, Part.arenaWait, Part.poolWait, Part.items, Part.boxes, Part.mem, Part.memPoison, Part.protUnits, Part.dies, Part.tier, Part.log] ⊆ ps) : LeadsA ps s₀ (execKvPoolAllocResume box s) := by
  unfold execKvPoolAllocResume
  repeat' first
    | with_reducible assumption
    | with_reducible exact List.Subset.trans (List.Sublist.subset (by decide)) hp
    | extract_lets
    | with_reducible refine State.append_leads ?_ ?_
    | with_reducible refine Leads.ite ?_ ?_
    | refine LeadsA.next ?_
    | split
    | with_reducible refine Leads.poolWait ?_ ?_

theorem execLengths_leads {ps : List Part} {s₀ s : State} {core : ℕ} {q : ℕ} (hs : Leads ps s₀ s)
    (hp : [Part.freeCount, Part.regs, Part.ctr, Part.cores, Part.places, Part.pages, Part.arenaWait, Part.poolWait, Part.items, Part.boxes, Part.mem, Part.memPoison, Part.protUnits, Part.dies, Part.tier, Part.log] ⊆ ps) : LeadsA ps s₀ (execLengths core q s) := by
  unfold execLengths
  repeat' first
    | with_reducible assumption
    | with_reducible exact List.Subset.trans (List.Sublist.subset (by decide)) hp
    | extract_lets
    | with_reducible refine State.endWalk_leads ?_ ?_
    | with_reducible refine State.putExec_leads ?_ ?_ ?_
    | refine LeadsA.next ?_
    | split
    | (intro i; exact Exec.dwrite_shape (State.execOf_shape (hs.inv i)))

theorem execBias_leads {ps : List Part} {s₀ s : State} {core : ℕ} {q : ℕ} (hs : Leads ps s₀ s)
    (hp : [Part.freeCount, Part.regs, Part.ctr, Part.cores, Part.places, Part.pages, Part.arenaWait, Part.poolWait, Part.items, Part.boxes, Part.mem, Part.memPoison, Part.protUnits, Part.dies, Part.tier, Part.log] ⊆ ps) : LeadsA ps s₀ (execBias core q s) := by
  unfold execBias
  repeat' first
    | with_reducible assumption
    | with_reducible exact List.Subset.trans (List.Sublist.subset (by decide)) hp
    | extract_lets
    | with_reducible refine State.failRun_leads ?_ ?_
    | with_reducible refine State.touch_leads ?_ ?_
    | with_reducible refine State.endWalk_leads ?_ ?_
    | with_reducible refine State.bump_leads ?_ ?_
    | with_reducible refine State.putExec_leads ?_ ?_ ?_
    | refine LeadsA.next ?_
    | split
    | (intro i; exact Exec.foldl_shape (fun _ _ hy => Exec.putCbuf_shape hy) (State.execOf_shape (hs.inv i)))

end Sys2Proof.Machine
end

