-- ==== Sys2Proof/Laws/LeadsDebug.lean ====
section
/-! SUPPORT. Frames of the test access port, the debug module and the sideband. -/

namespace Sys2Proof.Machine

theorem State.tapSelect_leads {ps : List Part} {s₀ s : State} {ir : TapIr} {v : ℕ} {width : ℕ} (hs : Leads ps s₀ s)
    (hp : [Part.outbox, Part.test] ⊆ ps) : Leads ps s₀ (State.tapSelect s ir v width) := by
  unfold State.tapSelect
  repeat' first
    | with_reducible assumption
    | with_reducible exact List.Subset.trans (List.Sublist.subset (by decide)) hp
    | with_reducible refine State.emit_leads ?_ ?_
    | with_reducible refine State.setTest_leads ?_ ?_

theorem State.sampleBoundary_leads {ps : List Part} {s₀ s : State} {ir : TapIr} (hs : Leads ps s₀ s)
    (hp : [Part.outbox, Part.freeCount, Part.test] ⊆ ps) : Leads ps s₀ (State.sampleBoundary s ir) := by
  unfold State.sampleBoundary
  repeat' first
    | with_reducible assumption
    | with_reducible exact List.Subset.trans (List.Sublist.subset (by decide)) hp
    | extract_lets
    | with_reducible refine State.draw_leads ?_ ?_
    | with_reducible refine State.tapSelect_leads ?_ ?_

theorem State.production_leads {ps : List Part} {s₀ s : State} {ir : TapIr} {width : ℕ} {f : State → State}
    (hs : Leads ps s₀ s) (hp : [Part.outbox, Part.freeCount, Part.test] ⊆ ps) (hf : ∀ u, Leads ps s₀ u → Leads ps s₀ (f u)) :
    Leads ps s₀ (s.production ir width f) := by
  unfold State.production
  exact Leads.ite (State.tapSelect_leads hs (List.Subset.trans (List.Sublist.subset (by decide)) hp)) (State.tapSelect_leads (hf _ (State.draw_leads hs (List.Subset.trans (List.Sublist.subset (by decide)) hp))) (List.Subset.trans (List.Sublist.subset (by decide)) hp))

theorem State.modHart_leads {ps : List Part} {s₀ s : State} {h : ℕ} {f : Hart → Hart} (hs : Leads ps s₀ s)
    (hp : [Part.test] ⊆ ps) : Leads ps s₀ (State.modHart s h f) := by
  unfold State.modHart
  repeat' first
    | with_reducible assumption
    | with_reducible refine State.setTest_leads ?_ ?_

theorem State.haltHart_leads {ps : List Part} {s₀ s : State} {h : ℕ} (hs : Leads ps s₀ s)
    (hp : [Part.cores, Part.fw, Part.test] ⊆ ps) : Leads ps s₀ (State.haltHart s h) := by
  unfold State.haltHart
  repeat' first
    | with_reducible assumption
    | with_reducible exact List.Subset.trans (List.Sublist.subset (by decide)) hp
    | extract_lets
    | with_reducible refine State.modClerk_leads ?_ ?_ ?_
    | with_reducible refine State.modHart_leads ?_ ?_
    | with_reducible refine State.modComp_leads ?_ ?_
    | with_reducible refine Leads.ite ?_ ?_
    | exact fun _ h => h

theorem State.resumeHart_leads {ps : List Part} {s₀ s : State} {h : ℕ} (hs : Leads ps s₀ s)
    (hp : [Part.cores, Part.fw, Part.test] ⊆ ps) : Leads ps s₀ (State.resumeHart s h) := by
  unfold State.resumeHart
  repeat' first
    | with_reducible assumption
    | with_reducible exact List.Subset.trans (List.Sublist.subset (by decide)) hp
    | extract_lets
    | with_reducible refine State.modHart_leads ?_ ?_
    | with_reducible refine State.unhaltClerk_leads ?_ ?_
    | with_reducible refine State.modComp_leads ?_ ?_
    | with_reducible refine Leads.ite ?_ ?_

theorem Ans.orElse_leads {ps : List Part} {s₀ s : State} {a : Ans} (h : LeadsA ps s₀ a) :
    Leads ps s₀ (a.orElse s) := by
  obtain ⟨t, rfl, ht⟩ := h
  exact ht

theorem vxRow_leads {ps : List Part} {s₀ s : State} {o c cl : ℕ} (hs : Leads ps s₀ s) (hp : [Part.freeCount, Part.regs, Part.ctr, Part.cores, Part.places, Part.pages, Part.arenaWait, Part.poolWait,
      Part.items, Part.boxes] ⊆ ps) :
    LeadsA ps s₀ (vxRow o c cl s) := by
  unfold vxRow
  split
  · exact execAdd_leads hs hp
  · exact execSub_leads hs hp
  · exact execMul_leads hs hp
  · exact execFma_leads hs hp
  · exact execMin_leads hs hp
  · exact execMax_leads hs hp
  · exact execCmplt_leads hs hp
  · exact execCmpeq_leads hs hp
  · exact execSel_leads hs hp
  · exact execCvt_leads hs hp
  · exact execAbs_leads hs hp
  · exact execNeg_leads hs hp
  · exact execExp_leads hs hp
  · exact execLog_leads hs hp
  · exact execRcp_leads hs hp
  · exact execRsqrt_leads hs hp
  · exact execSigmoid_leads hs hp
  · exact execTanh_leads hs hp
  · exact execRsum_leads hs hp
  · exact execRmax_leads hs hp
  · exact execRargmax_leads hs hp
  · exact execRsumsq_leads hs hp
  · exact execSoftmaxStep_leads hs hp
  · exact execSoftmaxFinal_leads hs hp
  · exact execRmsnorm_leads hs hp
  · exact execLayernorm_leads hs hp
  · exact execScan_leads hs hp
  · exact execStateRms_leads hs hp
  · exact execTopk_leads hs hp
  · exact execPool_leads hs hp
  · exact execDwconv_leads hs hp
  · exact LeadsA.next hs

theorem State.stepClerk_leads {ps : List Part} {s₀ s : State} {c cl : ℕ} (hs : Leads ps s₀ s)
    (hp : [Part.freeCount, Part.regs, Part.ctr, Part.cores, Part.places, Part.groups, Part.pages, Part.arenaWait, Part.poolWait, Part.items, Part.boxes, Part.mem, Part.memPoison, Part.protUnits, Part.dies, Part.tier, Part.log] ⊆ ps) : Leads ps s₀ (s.stepClerk c cl) := by
  have rv := Ans.orElse_leads (s := s) (execRv64imacInstruction_leads (core := c) (clerk := cl) hs (List.Subset.trans (List.Sublist.subset (by decide)) hp))
  unfold State.stepClerk
  dsimp only
  split
  · exact Ans.orElse_leads (execTdld_leads hs (List.Subset.trans (List.Sublist.subset (by decide)) hp))
  · exact Ans.orElse_leads (execTdst_leads hs (List.Subset.trans (List.Sublist.subset (by decide)) hp))
  · exact Ans.orElse_leads (execTdset_leads hs (List.Subset.trans (List.Sublist.subset (by decide)) hp))
  · exact Ans.orElse_leads (execTparm_leads hs (List.Subset.trans (List.Sublist.subset (by decide)) hp))
  · exact Ans.orElse_leads (execTstat_leads hs (List.Subset.trans (List.Sublist.subset (by decide)) hp))
  · exact Ans.orElse_leads (execMxwl_leads hs (List.Subset.trans (List.Sublist.subset (by decide)) hp))
  · exact Ans.orElse_leads (execMxmul_leads hs (List.Subset.trans (List.Sublist.subset (by decide)) hp))
  · exact Ans.orElse_leads (execDrn_leads hs (List.Subset.trans (List.Sublist.subset (by decide)) hp))
  · exact Ans.orElse_leads (execCrr_leads hs (List.Subset.trans (List.Sublist.subset (by decide)) hp))
  · exact Ans.orElse_leads (execTwait_leads hs (List.Subset.trans (List.Sublist.subset (by decide)) hp))
  · exact Ans.orElse_leads (execEcall_leads hs (List.Subset.trans (List.Sublist.subset (by decide)) hp))
  · exact Ans.orElse_leads (vxRow_leads hs (List.Subset.trans (List.Sublist.subset (by decide)) hp))
  · split
    · exact Ans.orElse_leads (execWalkIssue_leads hs (List.Subset.trans (List.Sublist.subset (by decide)) hp))
    · exact rv
  · exact rv

theorem State.singleStep_leads {ps : List Part} {s₀ s : State} {h : ℕ} (hs : Leads ps s₀ s)
    (hp : [Part.freeCount, Part.regs, Part.ctr, Part.cores, Part.places, Part.groups, Part.pages, Part.arenaWait, Part.poolWait, Part.items, Part.boxes, Part.mem, Part.memPoison, Part.protUnits, Part.dies, Part.tier, Part.log, Part.test] ⊆ ps) : Leads ps s₀ (State.singleStep s h) := by
  unfold State.singleStep
  repeat' first
    | with_reducible assumption
    | with_reducible exact List.Subset.trans (List.Sublist.subset (by decide)) hp
    | extract_lets
    | with_reducible refine State.unhaltClerk_leads ?_ ?_
    | with_reducible refine State.stepClerk_leads ?_ ?_
    | with_reducible refine State.modClerk_leads ?_ ?_ ?_
    | with_reducible refine State.modHart_leads ?_ ?_
    | with_reducible refine Leads.ite ?_ ?_
    | exact fun _ h => h

theorem State.readHart_leads {ps : List Part} {s₀ s : State} {h : ℕ} {regno : ℕ} (hs : Leads ps s₀ s)
    (hp : [Part.freeCount] ⊆ ps) : Leads ps s₀ (State.readHart s h regno).1 := by
  unfold State.readHart
  repeat' first
    | with_reducible assumption
    | extract_lets
    | with_reducible refine State.draw_leads ?_ ?_
    | split

theorem State.writeHart_leads {ps : List Part} {s₀ s : State} {h r : ℕ} {v : W64} (hs : Leads ps s₀ s)
    (hp : [Part.cores, Part.test] ⊆ ps) : Leads ps s₀ (s.writeHart h r v) := by
  unfold State.writeHart
  exact Leads.ite (State.modClerk_leads hs (List.Subset.trans (List.Sublist.subset (by decide)) hp) (fun _ k => Clerk.setX_shape k))
    (Leads.ite (State.modClerk_leads hs (List.Subset.trans (List.Sublist.subset (by decide)) hp) (fun _ k => k)) (State.modHart_leads hs (List.Subset.trans (List.Sublist.subset (by decide)) hp)))

theorem State.setDm_leads {ps : List Part} {s₀ s : State} {a : ℕ} {v : W32} (hs : Leads ps s₀ s)
    (hp : [Part.test] ⊆ ps) : Leads ps s₀ (State.setDm s a v) := by
  unfold State.setDm
  repeat' first
    | with_reducible assumption
    | with_reducible refine State.setTest_leads ?_ ?_

theorem State.cmderr_leads {ps : List Part} {s₀ s : State} {e : ℕ} (hs : Leads ps s₀ s)
    (hp : [Part.test] ⊆ ps) : Leads ps s₀ (State.cmderr s e) := by
  unfold State.cmderr
  repeat' first
    | with_reducible assumption
    | with_reducible refine State.setDm_leads ?_ ?_
    | with_reducible refine Leads.ite ?_ ?_

theorem State.accessRegister_leads {ps : List Part} {s₀ s : State} {h : ℕ} {regno : ℕ} {write : Option W64} (hs : Leads ps s₀ s)
    (hp : [Part.freeCount, Part.cores, Part.test] ⊆ ps) : Leads ps s₀ (State.accessRegister s h regno write) := by
  unfold State.accessRegister
  repeat' first
    | with_reducible assumption
    | with_reducible exact List.Subset.trans (List.Sublist.subset (by decide)) hp
    | extract_lets
    | with_reducible refine State.cmderr_leads ?_ ?_
    | with_reducible refine State.writeHart_leads ?_ ?_
    | with_reducible refine State.readHart_leads ?_ ?_
    | with_reducible refine State.setDm_leads ?_ ?_
    | with_reducible refine Leads.ite ?_ ?_
    | split

theorem State.busRegister_leads {ps : List Part} {s₀ s : State} {a : ℕ} {size : ℕ} {write : Option W64} (hs : Leads ps s₀ s)
    (hp : [Part.outbox, Part.freeCount, Part.pins, Part.time, Part.regs, Part.ctr, Part.cores, Part.places, Part.groups, Part.pages, Part.mirrors, Part.mirrorPages, Part.arenaWait, Part.poolWait, Part.items, Part.nextItem, Part.gang, Part.boxes, Part.mem, Part.memPoison, Part.protUnits, Part.hbm, Part.dies, Part.held, Part.tier, Part.cb, Part.fab, Part.links, Part.host, Part.log, Part.fw, Part.sec, Part.pwr, Part.test, Part.side] ⊆ ps) : Leads ps s₀ (State.busRegister s a size write).1 := by
  unfold State.busRegister
  repeat' first
    | with_reducible assumption
    | with_reducible exact List.Subset.trans (List.Sublist.subset (by decide)) hp
    | extract_lets
    | with_reducible refine State.regWrite_leads ?_ ?_
    | with_reducible refine State.regRead_leads ?_ ?_
    | split

theorem State.busMemory_leads {ps : List Part} {s₀ s : State} {da : ℕ} {size : ℕ} {write : Option W64} (hs : Leads ps s₀ s)
    (hp : [Part.freeCount, Part.mem, Part.memPoison, Part.tier] ⊆ ps) : Leads ps s₀ (State.busMemory s da size write).1 := by
  unfold State.busMemory
  repeat' first
    | with_reducible assumption
    | with_reducible exact List.Subset.trans (List.Sublist.subset (by decide)) hp
    | extract_lets
    | with_reducible refine State.draw_leads ?_ ?_
    | with_reducible refine State.memWrite_leads ?_ ?_
    | with_reducible refine Leads.ite ?_ ?_
    | split

theorem State.systemBus_leads {ps : List Part} {s₀ s : State} {a : W64} {size : ℕ} {w : Option W64} (hs : Leads ps s₀ s)
    (hp : [Part.outbox, Part.freeCount, Part.pins, Part.time, Part.regs, Part.ctr, Part.cores, Part.places, Part.groups, Part.pages, Part.mirrors, Part.mirrorPages, Part.arenaWait, Part.poolWait, Part.items, Part.nextItem, Part.gang, Part.boxes, Part.mem, Part.memPoison, Part.protUnits, Part.hbm, Part.dies, Part.held, Part.tier, Part.cb, Part.fab, Part.links, Part.host, Part.log, Part.fw, Part.sec, Part.pwr, Part.test, Part.side] ⊆ ps) : Leads ps s₀ (s.systemBus a size w) := by
  unfold State.systemBus
  extract_lets +onlyGivenNames adr r
  refine Leads.ite hs (State.emit_leads ?_ (List.Subset.trans (List.Sublist.subset (by decide)) hp))
  have hr : Leads ps s₀ r.1 := by
    unfold r
    split
    · exact State.busRegister_leads hs (List.Subset.trans (List.Sublist.subset (by decide)) hp)
    · exact State.busMemory_leads hs (List.Subset.trans (List.Sublist.subset (by decide)) hp)
  have hd : ∀ (u : State) (n m : ℕ) (x y : W32), Leads ps s₀ u → Leads ps s₀ ((u.setDm n x).setDm m y) :=
    fun _ _ _ _ _ hu => State.setDm_leads (State.setDm_leads hu (List.Subset.trans (List.Sublist.subset (by decide)) hp)) (List.Subset.trans (List.Sublist.subset (by decide)) hp)
  refine Leads.ite (State.setDm_leads hr (List.Subset.trans (List.Sublist.subset (by decide)) hp)) (Leads.ite ?_ ?_)
  · exact Leads.ite (hd _ _ _ _ _ hr) hr
  · exact hd _ _ _ _ _ (Leads.ite (hd _ _ _ _ _ hr) hr)

theorem State.runProgbuf_leads {ps : List Part} {s₀ s : State} {n h off : ℕ} (hs : Leads ps s₀ s)
    (hp : [Part.ctr, Part.cores, Part.places, Part.items, Part.test] ⊆ ps) : Leads ps s₀ (State.runProgbuf n s h off) := by
  induction n generalizing s off with
  | zero => exact State.cmderr_leads hs (List.Subset.trans (List.Sublist.subset (by decide)) hp)
  | succ n ih =>
    unfold State.runProgbuf
    extract_lets bs half len w
    clear_value w len
    refine Leads.ite (State.cmderr_leads hs (List.Subset.trans (List.Sublist.subset (by decide)) hp)) (Leads.ite hs ?_)
    split
    · rename_i w len _
      have hv := fun i => Exec.rv_shape (x := s.execOf (h / 4)) (n := h % 4) (w := w) (len := len)
        (State.execOf_shape (hs.inv i))
      split
      · rename_i e
        rw [e] at hv
        exact ih (State.putExec_leads hs (List.Subset.trans (List.Sublist.subset (by decide)) hp) hv)
      · rename_i e
        rw [e] at hv
        exact State.cmderr_leads (State.putExec_leads hs (List.Subset.trans (List.Sublist.subset (by decide)) hp) hv) (List.Subset.trans (List.Sublist.subset (by decide)) hp)
      · exact State.cmderr_leads hs (List.Subset.trans (List.Sublist.subset (by decide)) hp)
    · exact State.cmderr_leads hs (List.Subset.trans (List.Sublist.subset (by decide)) hp)

theorem State.execProgbuf_leads {ps : List Part} {s₀ s : State} {h : ℕ} (hs : Leads ps s₀ s)
    (hp : [Part.ctr, Part.cores, Part.places, Part.items, Part.test] ⊆ ps) : Leads ps s₀ (s.execProgbuf h) := by
  unfold State.execProgbuf
  exact Leads.ite (State.cmderr_leads hs (List.Subset.trans (List.Sublist.subset (by decide)) hp)) (State.modClerk_leads (State.runProgbuf_leads hs hp) (List.Subset.trans (List.Sublist.subset (by decide)) hp) (fun _ k => k))

theorem State.dmCommand_leads {ps : List Part} {s₀ s : State} {v : ℕ} (hs : Leads ps s₀ s)
    (hp : [Part.freeCount, Part.ctr, Part.cores, Part.places, Part.items, Part.test] ⊆ ps) : Leads ps s₀ (State.dmCommand s v) := by
  unfold State.dmCommand
  repeat' first
    | with_reducible assumption
    | with_reducible exact List.Subset.trans (List.Sublist.subset (by decide)) hp
    | extract_lets
    | with_reducible refine State.cmderr_leads ?_ ?_
    | with_reducible refine State.accessRegister_leads ?_ ?_
    | with_reducible refine State.execProgbuf_leads ?_ ?_
    | with_reducible refine Leads.ite ?_ ?_

theorem State.dmWrite_leads {ps : List Part} {s₀ s : State} {a : ℕ} {v : W32} (hs : Leads ps s₀ s)
    (hp : [Part.outbox, Part.freeCount, Part.pins, Part.time, Part.regs, Part.ctr, Part.cores, Part.places, Part.groups, Part.pages, Part.mirrors, Part.mirrorPages, Part.arenaWait, Part.poolWait, Part.items, Part.nextItem, Part.gang, Part.boxes, Part.mem, Part.memPoison, Part.protUnits, Part.hbm, Part.dies, Part.held, Part.tier, Part.cb, Part.fab, Part.links, Part.host, Part.log, Part.fw, Part.sec, Part.pwr, Part.test, Part.side] ⊆ ps) : Leads ps s₀ (State.dmWrite s a v) := by
  unfold State.dmWrite
  repeat' first
    | with_reducible assumption
    | with_reducible exact List.Subset.trans (List.Sublist.subset (by decide)) hp
    | extract_lets
    | with_reducible refine State.setDm_leads ?_ ?_
    | with_reducible refine State.modHart_leads ?_ ?_
    | with_reducible refine State.haltHart_leads ?_ ?_
    | with_reducible refine State.resumeHart_leads ?_ ?_
    | with_reducible refine State.dmCommand_leads ?_ ?_
    | with_reducible refine State.systemBus_leads ?_ ?_
    | with_reducible refine Leads.ite ?_ ?_
    | split

theorem State.dmRead_leads {ps : List Part} {s₀ s : State} {a : ℕ} (hs : Leads ps s₀ s)
    (hp : [Part.outbox, Part.freeCount, Part.pins, Part.time, Part.regs, Part.ctr, Part.cores, Part.places, Part.groups, Part.pages, Part.mirrors, Part.mirrorPages, Part.arenaWait, Part.poolWait, Part.items, Part.nextItem, Part.gang, Part.boxes, Part.mem, Part.memPoison, Part.protUnits, Part.hbm, Part.dies, Part.held, Part.tier, Part.cb, Part.fab, Part.links, Part.host, Part.log, Part.fw, Part.sec, Part.pwr, Part.test, Part.side] ⊆ ps) : Leads ps s₀ (State.dmRead s a).1 := by
  unfold State.dmRead
  repeat' first
    | with_reducible assumption
    | extract_lets
    | with_reducible refine State.systemBus_leads ?_ ?_
    | with_reducible refine Leads.ite ?_ ?_
    | split

theorem State.sideResult_leads {ps : List Part} {s₀ s : State} {st : ℕ} {v : W32} (hs : Leads ps s₀ s)
    (hp : [Part.side] ⊆ ps) : Leads ps s₀ (State.sideResult s st v) := by
  unfold State.sideResult
  repeat' first
    | with_reducible assumption
    | with_reducible refine State.setSide_leads ?_ ?_

theorem State.denyWrite_leads {ps : List Part} {s₀ s : State} {a : ℕ} (hs : Leads ps s₀ s)
    (hp : [Part.regs, Part.ctr] ⊆ ps) : Leads ps s₀ (State.denyWrite s a) := by
  unfold State.denyWrite
  repeat' first
    | with_reducible assumption
    | with_reducible exact List.Subset.trans (List.Sublist.subset (by decide)) hp
    | with_reducible refine State.flagAccess_leads ?_ ?_
    | with_reducible refine State.undecoded_leads ?_ ?_
    | split

theorem State.sideRequest_leads {ps : List Part} {s₀ s : State} {f : List Byte} (hs : Leads ps s₀ s)
    (hp : [Part.outbox, Part.freeCount, Part.pins, Part.time, Part.regs, Part.ctr, Part.cores, Part.places, Part.groups, Part.pages, Part.mirrors, Part.mirrorPages, Part.arenaWait, Part.poolWait, Part.items, Part.nextItem, Part.gang, Part.boxes, Part.mem, Part.memPoison, Part.protUnits, Part.hbm, Part.dies, Part.held, Part.tier, Part.cb, Part.fab, Part.links, Part.host, Part.log, Part.fw, Part.sec, Part.pwr, Part.test, Part.side] ⊆ ps) : Leads ps s₀ (State.sideRequest s f) := by
  unfold State.sideRequest
  repeat' first
    | with_reducible assumption
    | with_reducible exact List.Subset.trans (List.Sublist.subset (by decide)) hp
    | extract_lets
    | with_reducible refine State.sideResult_leads ?_ ?_
    | with_reducible refine State.regRead_leads ?_ ?_
    | with_reducible refine State.regWrite_leads ?_ ?_
    | with_reducible refine State.denyWrite_leads ?_ ?_
    | with_reducible refine Leads.ite ?_ ?_

theorem State.sideGet_leads {ps : List Part} {s₀ s : State} {bs : List Byte} (hs : Leads ps s₀ s)
    (hp : [Part.outbox] ⊆ ps) : Leads ps s₀ (State.sideGet s bs) := by
  unfold State.sideGet
  repeat' first
    | with_reducible assumption
    | with_reducible refine State.emit_leads ?_ ?_
    | with_reducible refine Leads.when ?_ ?_

end Sys2Proof.Machine
end

