-- ==== Sys2Proof/Laws/LeadsExecModule.lean ====
section
/-! SUPPORT. Every command of the module's units completes, and the parts of the state that it may touch. -/

namespace Sys2Proof.Machine

theorem execGrantRequest_leads {ps : List Part} {s₀ s : State} {core : ℕ} {mode : ℕ} (hs : Leads ps s₀ s)
    (hp : [Part.ctr, Part.pwr] ⊆ ps) : LeadsA ps s₀ (execGrantRequest core mode s) := by
  unfold execGrantRequest
  repeat' first
    | with_reducible assumption
    | with_reducible refine State.requestGrant_leads ?_ ?_
    | with_reducible refine Leads.when ?_ ?_
    | refine LeadsA.next ?_

theorem execQueuedGrant_leads {ps : List Part} {s₀ s : State}  (hs : Leads ps s₀ s)
    (hp : [Part.ctr, Part.pwr] ⊆ ps) : LeadsA ps s₀ (execQueuedGrant s) := by
  unfold execQueuedGrant
  repeat' first
    | with_reducible assumption
    | with_reducible exact List.Subset.trans (List.Sublist.subset (by decide)) hp
    | with_reducible refine State.giveGrant_leads ?_ ?_
    | with_reducible refine State.setPwr_leads ?_ ?_ ?_
    | with_reducible refine Leads.ite ?_ ?_
    | exact fun _ => rfl
    | refine LeadsA.next ?_
    | split

theorem execGrantRevoke_leads {ps : List Part} {s₀ s : State}  (hs : Leads ps s₀ s)
    (hp : [Part.ctr, Part.cores, Part.pwr] ⊆ ps) : LeadsA ps s₀ (execGrantRevoke s) := by
  unfold execGrantRevoke
  repeat' first
    | with_reducible assumption
    | with_reducible refine State.revoke_leads ?_ ?_
    | refine LeadsA.next ?_

theorem execMxeRampUp_leads {ps : List Part} {s₀ s : State} {core : ℕ} {groups : ℕ} (hs : Leads ps s₀ s)
    (hp : [Part.ctr, Part.cores] ⊆ ps) : LeadsA ps s₀ (execMxeRampUp core groups s) := by
  unfold execMxeRampUp
  repeat' first
    | with_reducible assumption
    | with_reducible exact List.Subset.trans (List.Sublist.subset (by decide)) hp
    | extract_lets
    | with_reducible refine State.modCore_leads ?_ ?_ ?_
    | with_reducible refine State.bump_leads ?_ ?_
    | with_reducible refine Leads.when ?_ ?_
    | refine LeadsA.next ?_
    | exact fun _ h => h

theorem execMxeRampDown_leads {ps : List Part} {s₀ s : State} {core : ℕ} {groups : ℕ} (hs : Leads ps s₀ s)
    (hp : [Part.cores] ⊆ ps) : LeadsA ps s₀ (execMxeRampDown core groups s) := by
  unfold execMxeRampDown
  repeat' first
    | with_reducible assumption
    | extract_lets
    | with_reducible refine State.modCore_leads ?_ ?_ ?_
    | with_reducible refine Leads.when ?_ ?_
    | refine LeadsA.next ?_
    | exact fun _ h => h

theorem execMxeRampOff_leads {ps : List Part} {s₀ s : State} {core : ℕ} (hs : Leads ps s₀ s)
    (hp : [Part.ctr, Part.cores, Part.pwr] ⊆ ps) : LeadsA ps s₀ (execMxeRampOff core s) := by
  unfold execMxeRampOff
  repeat' first
    | with_reducible assumption
    | with_reducible exact List.Subset.trans (List.Sublist.subset (by decide)) hp
    | extract_lets
    | with_reducible refine State.modCore_leads ?_ ?_ ?_
    | with_reducible refine State.setPwr_leads ?_ ?_ ?_
    | with_reducible refine State.bump_leads ?_ ?_
    | with_reducible refine Leads.when ?_ ?_
    | exact fun _ => rfl
    | refine LeadsA.next ?_
    | exact fun _ h => h

theorem execMxeRampReverse_leads {ps : List Part} {s₀ s : State} {core : ℕ} (hs : Leads ps s₀ s)
    (hp : [Part.cores] ⊆ ps) : LeadsA ps s₀ (execMxeRampReverse core s) := by
  unfold execMxeRampReverse
  repeat' first
    | with_reducible assumption
    | extract_lets
    | with_reducible refine State.modCore_leads ?_ ?_ ?_
    | with_reducible refine Leads.when ?_ ?_
    | refine LeadsA.next ?_
    | exact fun _ h => h

theorem execBudgetMove_leads {ps : List Part} {s₀ s : State}  (hs : Leads ps s₀ s)
    (hp : [Part.outbox, Part.freeCount, Part.regs, Part.ctr, Part.fab, Part.links, Part.pwr] ⊆ ps) : LeadsA ps s₀ (execBudgetMove s) := by
  unfold execBudgetMove
  repeat' first
    | with_reducible assumption
    | with_reducible exact List.Subset.trans (List.Sublist.subset (by decide)) hp
    | extract_lets
    | with_reducible refine State.sendBudget_leads ?_ ?_
    | with_reducible refine State.setPwr_leads ?_ ?_ ?_
    | (with_reducible refine Leads.foldl _ ?_ ?_; rotate_left; intro u x hu)
    | exact fun _ => rfl
    | refine LeadsA.next ?_
    | split
    | with_reducible refine Leads.freeCount ?_ ?_

theorem execRailWarning_leads {ps : List Part} {s₀ s : State} {die : ℕ} {millivolt : ℕ} (hs : Leads ps s₀ s)
    (hp : [Part.regs, Part.pwr] ⊆ ps) : LeadsA ps s₀ (execRailWarning die millivolt s) := by
  unfold execRailWarning
  repeat' first
    | with_reducible assumption
    | with_reducible exact List.Subset.trans (List.Sublist.subset (by decide)) hp
    | with_reducible refine State.changed_leads ?_ ?_
    | with_reducible refine State.modRail_leads ?_ ?_
    | with_reducible refine Leads.when ?_ ?_
    | refine LeadsA.next ?_

theorem execRailWarningExit_leads {ps : List Part} {s₀ s : State} {die : ℕ} {lowestMv : ℕ} {durationNs : ℕ} (hs : Leads ps s₀ s)
    (hp : [Part.regs, Part.ctr, Part.log, Part.pwr] ⊆ ps) : LeadsA ps s₀ (execRailWarningExit die lowestMv durationNs s) := by
  unfold execRailWarningExit
  repeat' first
    | with_reducible assumption
    | with_reducible exact List.Subset.trans (List.Sublist.subset (by decide)) hp
    | extract_lets
    | with_reducible refine State.changed_leads ?_ ?_
    | with_reducible refine State.modRail_leads ?_ ?_
    | with_reducible refine State.bump_leads ?_ ?_
    | with_reducible refine State.event_leads ?_ ?_
    | with_reducible refine Leads.when ?_ ?_
    | refine LeadsA.next ?_

theorem execLongDip_leads {ps : List Part} {s₀ s : State} {die : ℕ} (hs : Leads ps s₀ s)
    (hp : [Part.ctr, Part.pwr] ⊆ ps) : LeadsA ps s₀ (execLongDip die s) := by
  unfold execLongDip
  repeat' first
    | with_reducible assumption
    | with_reducible exact List.Subset.trans (List.Sublist.subset (by decide)) hp
    | extract_lets
    | with_reducible refine State.modRail_leads ?_ ?_
    | with_reducible refine State.bump_leads ?_ ?_
    | with_reducible refine State.setPwr_leads ?_ ?_ ?_
    | with_reducible refine Leads.when ?_ ?_
    | exact fun _ => rfl
    | refine LeadsA.next ?_

theorem execDieSupplyReset_leads {ps : List Part} {s₀ s : State} {die : ℕ} {lowestMv : ℕ} (hs : Leads ps s₀ s)
    (hp : [Part.outbox, Part.freeCount, Part.regs, Part.ctr, Part.cores, Part.places, Part.groups, Part.pages, Part.arenaWait, Part.poolWait, Part.items, Part.boxes, Part.mem, Part.memPoison, Part.protUnits, Part.tier, Part.fab, Part.links, Part.log, Part.fw, Part.pwr] ⊆ ps) : LeadsA ps s₀ (execDieSupplyReset die lowestMv s) := by
  unfold execDieSupplyReset
  repeat' first
    | with_reducible assumption
    | with_reducible exact List.Subset.trans (List.Sublist.subset (by decide)) hp
    | extract_lets
    | with_reducible refine State.modRail_leads ?_ ?_
    | with_reducible refine State.dropDie_leads ?_ ?_
    | with_reducible refine State.event_leads ?_ ?_
    | with_reducible refine State.bump_leads ?_ ?_
    | with_reducible refine State.unmapCore_leads ?_ ?_
    | with_reducible refine Leads.when ?_ ?_
    | (with_reducible refine Leads.foldl _ ?_ ?_; rotate_left; intro u x hu)
    | refine LeadsA.next ?_

theorem execDieResetRelease_leads {ps : List Part} {s₀ s : State} {die : ℕ} {passed : BitVec 17} (hs : Leads ps s₀ s)
    (hp : [Part.outbox, Part.freeCount, Part.regs, Part.ctr, Part.cores, Part.places, Part.groups, Part.pages, Part.arenaWait, Part.poolWait, Part.items, Part.boxes, Part.mem, Part.memPoison, Part.protUnits, Part.tier, Part.fab, Part.links, Part.log, Part.pwr] ⊆ ps) : LeadsA ps s₀ (execDieResetRelease die passed s) := by
  unfold execDieResetRelease
  repeat' first
    | with_reducible assumption
    | with_reducible exact List.Subset.trans (List.Sublist.subset (by decide)) hp
    | extract_lets
    | with_reducible refine State.changed_leads ?_ ?_
    | with_reducible refine State.modRail_leads ?_ ?_
    | with_reducible refine State.modCore_leads ?_ ?_ ?_
    | with_reducible refine State.takeOut_leads ?_ ?_
    | with_reducible refine State.event_leads ?_ ?_
    | with_reducible refine Leads.when ?_ ?_
    | with_reducible refine Leads.ite ?_ ?_
    | (with_reducible refine Leads.foldl _ ?_ ?_; rotate_left; intro u x hu)
    | refine LeadsA.next ?_
    | exact fun _ h => h
    | (intro _ hk; try dsimp only
       split <;> exact hk)

theorem execRailShort_leads {ps : List Part} {s₀ s : State} {rail : ℕ} (hs : Leads ps s₀ s)
    (hp : [Part.outbox, Part.freeCount, Part.pins, Part.time, Part.regs, Part.ctr, Part.cores, Part.places, Part.groups, Part.pages, Part.mirrors, Part.mirrorPages, Part.arenaWait, Part.poolWait, Part.items, Part.nextItem, Part.gang, Part.boxes, Part.mem, Part.memPoison, Part.protUnits, Part.hbm, Part.dies, Part.held, Part.tier, Part.cb, Part.fab, Part.links, Part.host, Part.log, Part.fw, Part.sec, Part.pwr, Part.test, Part.side] ⊆ ps) : LeadsA ps s₀ (execRailShort rail s) := by
  unfold execRailShort
  repeat' first
    | with_reducible assumption
    | with_reducible exact List.Subset.trans (List.Sublist.subset (by decide)) hp
    | extract_lets
    | with_reducible refine State.dropDie_leads ?_ ?_
    | with_reducible refine State.event_leads ?_ ?_
    | with_reducible refine State.shutdown_leads ?_ ?_
    | with_reducible refine Leads.when ?_ ?_
    | refine LeadsA.next ?_
    | split

theorem execInputWarning_leads {ps : List Part} {s₀ s : State} {millivolt : ℕ} (hs : Leads ps s₀ s)
    (hp : [Part.regs, Part.ctr, Part.cores, Part.log, Part.pwr] ⊆ ps) : LeadsA ps s₀ (execInputWarning millivolt s) := by
  unfold execInputWarning
  repeat' first
    | with_reducible assumption
    | with_reducible exact List.Subset.trans (List.Sublist.subset (by decide)) hp
    | extract_lets
    | with_reducible refine State.setPwr_leads ?_ ?_ ?_
    | with_reducible refine State.bump_leads ?_ ?_
    | with_reducible refine State.changed_leads ?_ ?_
    | with_reducible refine State.event_leads ?_ ?_
    | with_reducible refine State.revoke_leads ?_ ?_
    | with_reducible refine Leads.when ?_ ?_
    | exact fun _ => rfl
    | refine LeadsA.next ?_

theorem execInputWarningExit_leads {ps : List Part} {s₀ s : State} {millivolt : ℕ} (hs : Leads ps s₀ s)
    (hp : [Part.regs, Part.pwr] ⊆ ps) : LeadsA ps s₀ (execInputWarningExit millivolt s) := by
  unfold execInputWarningExit
  repeat' first
    | with_reducible assumption
    | with_reducible exact List.Subset.trans (List.Sublist.subset (by decide)) hp
    | with_reducible refine State.changed_leads ?_ ?_
    | with_reducible refine State.setPwr_leads ?_ ?_ ?_
    | with_reducible refine Leads.when ?_ ?_
    | exact fun _ => rfl
    | refine LeadsA.next ?_

theorem execInputShutdown_leads {ps : List Part} {s₀ s : State} {millivolt : ℕ} (hs : Leads ps s₀ s)
    (hp : [Part.outbox, Part.freeCount, Part.pins, Part.time, Part.regs, Part.ctr, Part.cores, Part.places, Part.groups, Part.pages, Part.mirrors, Part.mirrorPages, Part.arenaWait, Part.poolWait, Part.items, Part.nextItem, Part.gang, Part.boxes, Part.mem, Part.memPoison, Part.protUnits, Part.hbm, Part.dies, Part.held, Part.tier, Part.cb, Part.fab, Part.links, Part.host, Part.log, Part.fw, Part.sec, Part.pwr, Part.test, Part.side] ⊆ ps) : LeadsA ps s₀ (execInputShutdown millivolt s) := by
  unfold execInputShutdown
  repeat' first
    | with_reducible assumption
    | with_reducible exact List.Subset.trans (List.Sublist.subset (by decide)) hp
    | extract_lets
    | with_reducible refine State.setPwr_leads ?_ ?_ ?_
    | with_reducible refine State.shutdown_leads ?_ ?_
    | with_reducible refine Leads.when ?_ ?_
    | exact fun _ => rfl
    | refine LeadsA.next ?_

theorem execReversedPolarity_leads {ps : List Part} {s₀ s : State}  (hs : Leads ps s₀ s)
    (hp : [Part.pwr, Part.side] ⊆ ps) : LeadsA ps s₀ (execReversedPolarity s) := by
  unfold execReversedPolarity
  repeat' first
    | with_reducible assumption
    | with_reducible exact List.Subset.trans (List.Sublist.subset (by decide)) hp
    | with_reducible refine State.setPwr_leads ?_ ?_ ?_
    | exact fun _ => rfl
    | refine LeadsA.next ?_
    | with_reducible refine Leads.side ?_ ?_

theorem execRegulatorStart_leads {ps : List Part} {s₀ s : State} {millivolt : ℕ} (hs : Leads ps s₀ s)
    (hp : [Part.pins, Part.pwr] ⊆ ps) : LeadsA ps s₀ (execRegulatorStart millivolt s) := by
  unfold execRegulatorStart
  repeat' first
    | with_reducible assumption
    | with_reducible exact List.Subset.trans (List.Sublist.subset (by decide)) hp
    | with_reducible refine State.setPwr_leads ?_ ?_ ?_
    | with_reducible refine Leads.when ?_ ?_
    | exact fun _ => rfl
    | refine LeadsA.next ?_
    | with_reducible refine Leads.pins ?_ ?_

theorem execPwrEnFall_leads {ps : List Part} {s₀ s : State}  (hs : Leads ps s₀ s)
    (hp : [Part.outbox, Part.freeCount, Part.pins, Part.time, Part.regs, Part.ctr, Part.cores, Part.places, Part.groups, Part.pages, Part.mirrors, Part.mirrorPages, Part.arenaWait, Part.poolWait, Part.items, Part.nextItem, Part.gang, Part.boxes, Part.mem, Part.memPoison, Part.protUnits, Part.hbm, Part.dies, Part.held, Part.tier, Part.cb, Part.fab, Part.links, Part.host, Part.log, Part.fw, Part.sec, Part.pwr, Part.test, Part.side] ⊆ ps) : LeadsA ps s₀ (execPwrEnFall s) := by
  unfold execPwrEnFall
  repeat' first
    | with_reducible assumption
    | with_reducible exact List.Subset.trans (List.Sublist.subset (by decide)) hp
    | extract_lets
    | with_reducible refine State.shutdown_leads ?_ ?_
    | with_reducible refine Leads.when ?_ ?_
    | refine LeadsA.next ?_
    | with_reducible refine Leads.pins ?_ ?_

theorem execThermalFactorFall_leads {ps : List Part} {s₀ s : State} {celsius : ℕ} (hs : Leads ps s₀ s)
    (hp : [Part.freeCount, Part.regs, Part.ctr, Part.cores, Part.log, Part.pwr] ⊆ ps) : LeadsA ps s₀ (execThermalFactorFall celsius s) := by
  unfold execThermalFactorFall
  repeat' first
    | with_reducible assumption
    | with_reducible exact List.Subset.trans (List.Sublist.subset (by decide)) hp
    | extract_lets
    | with_reducible refine State.setPwr_leads ?_ ?_ ?_
    | with_reducible refine State.thermalEvent_leads ?_ ?_
    | with_reducible refine State.revoke_leads ?_ ?_
    | with_reducible refine State.changed_leads ?_ ?_
    | with_reducible refine Leads.when ?_ ?_
    | exact fun _ => rfl
    | refine LeadsA.next ?_

theorem execThermalFactorRise_leads {ps : List Part} {s₀ s : State} {celsius : ℕ} (hs : Leads ps s₀ s)
    (hp : [Part.freeCount, Part.regs, Part.log, Part.pwr] ⊆ ps) : LeadsA ps s₀ (execThermalFactorRise celsius s) := by
  unfold execThermalFactorRise
  repeat' first
    | with_reducible assumption
    | with_reducible exact List.Subset.trans (List.Sublist.subset (by decide)) hp
    | extract_lets
    | with_reducible refine State.setPwr_leads ?_ ?_ ?_
    | with_reducible refine State.changed_leads ?_ ?_
    | with_reducible refine State.thermalEvent_leads ?_ ?_
    | with_reducible refine Leads.when ?_ ?_
    | exact fun _ => rfl
    | refine LeadsA.next ?_

theorem execThermalTrip_leads {ps : List Part} {s₀ s : State} {sensor : ℕ} {celsius : ℕ} (hs : Leads ps s₀ s)
    (hp : [Part.outbox, Part.freeCount, Part.pins, Part.time, Part.regs, Part.ctr, Part.cores, Part.places, Part.groups, Part.pages, Part.mirrors, Part.mirrorPages, Part.arenaWait, Part.poolWait, Part.items, Part.nextItem, Part.gang, Part.boxes, Part.mem, Part.memPoison, Part.protUnits, Part.hbm, Part.dies, Part.held, Part.tier, Part.cb, Part.fab, Part.links, Part.host, Part.log, Part.fw, Part.sec, Part.pwr, Part.test, Part.side] ⊆ ps) : LeadsA ps s₀ (execThermalTrip sensor celsius s) := by
  unfold execThermalTrip
  repeat' first
    | with_reducible assumption
    | with_reducible refine State.shutdown_leads ?_ ?_
    | with_reducible refine Leads.when ?_ ?_
    | refine LeadsA.next ?_

theorem execSensorOpen_leads {ps : List Part} {s₀ s : State} {sensor : ℕ} (hs : Leads ps s₀ s)
    (hp : [Part.outbox, Part.freeCount, Part.pins, Part.time, Part.regs, Part.ctr, Part.cores, Part.places, Part.groups, Part.pages, Part.mirrors, Part.mirrorPages, Part.arenaWait, Part.poolWait, Part.items, Part.nextItem, Part.gang, Part.boxes, Part.mem, Part.memPoison, Part.protUnits, Part.hbm, Part.dies, Part.held, Part.tier, Part.cb, Part.fab, Part.links, Part.host, Part.log, Part.fw, Part.sec, Part.pwr, Part.test, Part.side] ⊆ ps) : LeadsA ps s₀ (execSensorOpen sensor s) := by
  unfold execSensorOpen
  repeat' first
    | with_reducible assumption
    | with_reducible exact List.Subset.trans (List.Sublist.subset (by decide)) hp
    | extract_lets
    | with_reducible refine State.setPwr_leads ?_ ?_ ?_
    | with_reducible refine State.event_leads ?_ ?_
    | with_reducible refine State.changed_leads ?_ ?_
    | with_reducible refine State.shutdown_leads ?_ ?_
    | with_reducible refine State.revoke_leads ?_ ?_
    | with_reducible refine Leads.when ?_ ?_
    | with_reducible refine Leads.ite ?_ ?_
    | exact fun _ => rfl
    | refine LeadsA.next ?_

theorem execInletWarn_leads {ps : List Part} {s₀ s : State} {celsius : ℕ} (hs : Leads ps s₀ s)
    (hp : [Part.regs, Part.ctr, Part.cores, Part.pwr] ⊆ ps) : LeadsA ps s₀ (execInletWarn celsius s) := by
  unfold execInletWarn
  repeat' first
    | with_reducible assumption
    | with_reducible exact List.Subset.trans (List.Sublist.subset (by decide)) hp
    | extract_lets
    | with_reducible refine State.setPwr_leads ?_ ?_ ?_
    | with_reducible refine State.revoke_leads ?_ ?_
    | with_reducible refine State.changed_leads ?_ ?_
    | exact fun _ => rfl
    | refine LeadsA.next ?_

theorem execD2dLinkDown_leads {ps : List Part} {s₀ s : State} {die : ℕ} {link : ℕ} (hs : Leads ps s₀ s)
    (hp : [Part.outbox, Part.freeCount, Part.pins, Part.time, Part.regs, Part.ctr, Part.cores, Part.places, Part.groups, Part.pages, Part.mirrors, Part.mirrorPages, Part.arenaWait, Part.poolWait, Part.items, Part.nextItem, Part.gang, Part.boxes, Part.mem, Part.memPoison, Part.protUnits, Part.hbm, Part.dies, Part.held, Part.tier, Part.cb, Part.fab, Part.links, Part.host, Part.log, Part.fw, Part.sec, Part.pwr, Part.test, Part.side] ⊆ ps) : LeadsA ps s₀ (execD2dLinkDown die link s) := by
  unfold execD2dLinkDown
  repeat' first
    | with_reducible assumption
    | with_reducible exact List.Subset.trans (List.Sublist.subset (by decide)) hp
    | extract_lets
    | with_reducible refine State.setPwr_leads ?_ ?_ ?_
    | with_reducible refine State.bump_leads ?_ ?_
    | with_reducible refine State.changed_leads ?_ ?_
    | with_reducible refine State.event_leads ?_ ?_
    | with_reducible refine State.moduleReset_leads ?_ ?_
    | with_reducible refine State.leave_leads ?_ ?_
    | with_reducible refine Leads.when ?_ ?_
    | with_reducible refine Leads.ite ?_ ?_
    | exact fun _ => rfl
    | refine LeadsA.next ?_

theorem execRecordAccept_leads {ps : List Part} {s₀ s : State}  (hs : Leads ps s₀ s)
    (hp : [Part.ctr, Part.log] ⊆ ps) : LeadsA ps s₀ (execRecordAccept s) := by
  unfold execRecordAccept
  repeat' first
    | with_reducible assumption
    | with_reducible exact List.Subset.trans (List.Sublist.subset (by decide)) hp
    | with_reducible refine State.mirrorWrite_leads ?_ ?_
    | with_reducible refine State.takeRecord_leads ?_ ?_
    | with_reducible refine Leads.ite ?_ ?_
    | refine LeadsA.next ?_
    | split
    | with_reducible refine Leads.log ?_ ?_

theorem execRecorderFlush_leads {ps : List Part} {s₀ s : State}  (hs : Leads ps s₀ s)
    (hp : [Part.ctr, Part.log] ⊆ ps) : LeadsA ps s₀ (execRecorderFlush s) := by
  unfold execRecorderFlush
  repeat' first
    | with_reducible assumption
    | with_reducible refine State.flushRecorder_leads ?_ ?_
    | with_reducible refine Leads.when ?_ ?_
    | refine LeadsA.next ?_

theorem execLogCursorWrite_leads {ps : List Part} {s₀ s : State} {lo : W32} (hs : Leads ps s₀ s)
    (hp : [Part.regs, Part.ctr, Part.log] ⊆ ps) : LeadsA ps s₀ (execLogCursorWrite lo s) := by
  unfold execLogCursorWrite
  repeat' first
    | with_reducible assumption
    | with_reducible refine State.logCursorWrite_leads ?_ ?_
    | refine LeadsA.next ?_

theorem execLogOldestRead_leads {ps : List Part} {s₀ s : State}  (hs : Leads ps s₀ s)
    (hp : [Part.regs] ⊆ ps) : LeadsA ps s₀ (execLogOldestRead s) := by
  unfold execLogOldestRead
  repeat' first
    | with_reducible assumption
    | with_reducible refine State.logOldestRead_leads ?_ ?_
    | refine LeadsA.next ?_

theorem execRoundNowRead_leads {ps : List Part} {s₀ s : State}  (hs : Leads ps s₀ s)
    (hp : [Part.regs] ⊆ ps) : LeadsA ps s₀ (execRoundNowRead s) := by
  unfold execRoundNowRead
  repeat' first
    | with_reducible assumption
    | with_reducible refine State.roundNowRead_leads ?_ ?_
    | refine LeadsA.next ?_

theorem execCounterLowRead_leads {ps : List Part} {s₀ s : State} {addr : ℕ} (hs : Leads ps s₀ s)
    (hp : [Part.ctr] ⊆ ps) : LeadsA ps s₀ (execCounterLowRead addr s) := by
  unfold execCounterLowRead
  repeat' first
    | with_reducible assumption
    | with_reducible refine State.counterLowRead_leads ?_ ?_
    | refine LeadsA.next ?_

theorem execSigPmRead_leads {ps : List Part} {s₀ s : State}  (hs : Leads ps s₀ s)
    (hp : [Part.regs] ⊆ ps) : LeadsA ps s₀ (execSigPmRead s) := by
  unfold execSigPmRead
  repeat' first
    | with_reducible assumption
    | with_reducible refine State.sigPmRead_leads ?_ ?_
    | refine LeadsA.next ?_

theorem execSigCursorWrite_leads {ps : List Part} {s₀ s : State} {value : W32} (hs : Leads ps s₀ s)
    (hp : [Part.regs, Part.log] ⊆ ps) : LeadsA ps s₀ (execSigCursorWrite value s) := by
  unfold execSigCursorWrite
  repeat' first
    | with_reducible assumption
    | with_reducible refine State.sigCursorWrite_leads ?_ ?_
    | refine LeadsA.next ?_

theorem execSignatureWrite_leads {ps : List Part} {s₀ s : State} {kind : ℕ} {unit : ℕ} {detailA : W64} {detailB : W64} (hs : Leads ps s₀ s)
    (hp : [Part.ctr, Part.log] ⊆ ps) : LeadsA ps s₀ (execSignatureWrite kind unit detailA detailB s) := by
  unfold execSignatureWrite
  repeat' first
    | with_reducible assumption
    | with_reducible refine State.signature_leads ?_ ?_
    | with_reducible refine Leads.when ?_ ?_
    | refine LeadsA.next ?_

theorem execRoundBoundary_leads {ps : List Part} {s₀ s : State}  (hs : Leads ps s₀ s)
    (hp : [Part.time, Part.regs, Part.ctr, Part.cores, Part.boxes, Part.hbm, Part.fab, Part.log, Part.fw, Part.pwr] ⊆ ps) : LeadsA ps s₀ (execRoundBoundary s) := by
  unfold execRoundBoundary
  repeat' first
    | with_reducible assumption
    | with_reducible exact List.Subset.trans (List.Sublist.subset (by decide)) hp
    | extract_lets
    | with_reducible refine State.setTime_leads ?_ ?_
    | with_reducible refine State.boundary_leads ?_ ?_
    | refine LeadsA.next ?_
    | split

theorem execFirstRoundBoundary_leads {ps : List Part} {s₀ s : State}  (hs : Leads ps s₀ s)
    (hp : [Part.time, Part.regs, Part.ctr, Part.cores, Part.boxes, Part.hbm, Part.fab, Part.log, Part.fw, Part.pwr] ⊆ ps) : LeadsA ps s₀ (execFirstRoundBoundary s) := by
  unfold execFirstRoundBoundary
  repeat' first
    | with_reducible assumption
    | with_reducible exact List.Subset.trans (List.Sublist.subset (by decide)) hp
    | extract_lets
    | with_reducible refine State.setTime_leads ?_ ?_
    | with_reducible refine State.boundary_leads ?_ ?_
    | refine LeadsA.next ?_
    | split

theorem execPtpMessage_leads {ps : List Part} {s₀ s : State} {masterNs : ℕ} {usable : Bool} (hs : Leads ps s₀ s)
    (hp : [Part.time, Part.regs, Part.ctr, Part.cores, Part.boxes, Part.hbm, Part.fab, Part.log, Part.fw, Part.pwr] ⊆ ps) : LeadsA ps s₀ (execPtpMessage masterNs usable s) := by
  unfold execPtpMessage
  repeat' first
    | with_reducible assumption
    | with_reducible exact List.Subset.trans (List.Sublist.subset (by decide)) hp
    | extract_lets
    | with_reducible refine State.setTime_leads ?_ ?_
    | with_reducible refine State.noteOffset_leads ?_ ?_
    | with_reducible refine State.slewTo_leads ?_ ?_
    | with_reducible refine State.countGood_leads ?_ ?_
    | with_reducible refine State.event_leads ?_ ?_
    | with_reducible refine State.bump_leads ?_ ?_
    | with_reducible refine State.stepForward_leads ?_ ?_
    | with_reducible refine State.changed_leads ?_ ?_
    | refine LeadsA.next ?_
    | split

theorem execLossTimeout_leads {ps : List Part} {s₀ s : State}  (hs : Leads ps s₀ s)
    (hp : [Part.time, Part.regs, Part.log] ⊆ ps) : LeadsA ps s₀ (execLossTimeout s) := by
  unfold execLossTimeout
  repeat' first
    | with_reducible assumption
    | with_reducible exact List.Subset.trans (List.Sublist.subset (by decide)) hp
    | extract_lets
    | with_reducible refine State.timeState_leads ?_ ?_
    | with_reducible refine State.setTime_leads ?_ ?_
    | with_reducible refine Leads.when ?_ ?_
    | refine LeadsA.next ?_

theorem execHoldoverLimit_leads {ps : List Part} {s₀ s : State}  (hs : Leads ps s₀ s)
    (hp : [Part.time, Part.regs, Part.log] ⊆ ps) : LeadsA ps s₀ (execHoldoverLimit s) := by
  unfold execHoldoverLimit
  repeat' first
    | with_reducible assumption
    | with_reducible exact List.Subset.trans (List.Sublist.subset (by decide)) hp
    | extract_lets
    | with_reducible refine State.timeState_leads ?_ ?_
    | with_reducible refine State.setTime_leads ?_ ?_
    | with_reducible refine Leads.when ?_ ?_
    | refine LeadsA.next ?_

theorem execLocalStart_leads {ps : List Part} {s₀ s : State}  (hs : Leads ps s₀ s)
    (hp : [Part.time, Part.regs, Part.log] ⊆ ps) : LeadsA ps s₀ (execLocalStart s) := by
  unfold execLocalStart
  repeat' first
    | with_reducible assumption
    | with_reducible refine State.localStart_leads ?_ ?_
    | refine LeadsA.next ?_

theorem execCollection_leads {ps : List Part} {s₀ s : State} {index : ℕ} (hs : Leads ps s₀ s)
    (hp : [Part.outbox, Part.freeCount, Part.time, Part.ctr, Part.items, Part.boxes, Part.fab, Part.links] ⊆ ps) : LeadsA ps s₀ (execCollection index s) := by
  unfold execCollection
  repeat' first
    | with_reducible assumption
    | with_reducible exact List.Subset.trans (List.Sublist.subset (by decide)) hp
    | extract_lets
    | with_reducible refine State.setTime_leads ?_ ?_
    | with_reducible refine State.collect_leads ?_ ?_
    | with_reducible refine State.sendNotice_leads ?_ ?_
    | with_reducible refine State.writeAll_leads ?_ ?_
    | (with_reducible refine Leads.foldl _ ?_ ?_; rotate_left; intro u x hu)
    | refine LeadsA.next ?_
    | split

theorem execQuietWindowStart_leads {ps : List Part} {s₀ s : State} {index : ℕ} (hs : Leads ps s₀ s)
    (hp : [Part.time, Part.cores] ⊆ ps) : LeadsA ps s₀ (execQuietWindowStart index s) := by
  unfold execQuietWindowStart
  repeat' first
    | with_reducible assumption
    | with_reducible exact List.Subset.trans (List.Sublist.subset (by decide)) hp
    | extract_lets
    | with_reducible refine State.setTime_leads ?_ ?_
    | with_reducible refine State.modCore_leads ?_ ?_ ?_
    | refine LeadsA.next ?_
    | exact fun _ h => h
    | split

theorem execQuietWindowEnd_leads {ps : List Part} {s₀ s : State} {index : ℕ} (hs : Leads ps s₀ s)
    (hp : [Part.time, Part.ctr, Part.cores] ⊆ ps) : LeadsA ps s₀ (execQuietWindowEnd index s) := by
  unfold execQuietWindowEnd
  repeat' first
    | with_reducible assumption
    | with_reducible exact List.Subset.trans (List.Sublist.subset (by decide)) hp
    | extract_lets
    | with_reducible refine State.bump_leads ?_ ?_
    | with_reducible refine State.setTime_leads ?_ ?_
    | with_reducible refine Leads.when ?_ ?_
    | refine LeadsA.next ?_
    | (intro _ hk; try dsimp only
       split <;> exact hk)
    | split
    | with_reducible refine Leads.coresMap ?_ ?_ ?_

theorem execSliceSchedule_leads {ps : List Part} {s₀ s : State}  (hs : Leads ps s₀ s)
    (hp : [Part.time] ⊆ ps) : LeadsA ps s₀ (execSliceSchedule s) := by
  unfold execSliceSchedule
  repeat' first
    | with_reducible assumption
    | extract_lets
    | with_reducible refine State.setTime_leads ?_ ?_
    | refine LeadsA.next ?_
    | split

theorem execSliceStart_leads {ps : List Part} {s₀ s : State} {core : ℕ} (hs : Leads ps s₀ s)
    (hp : [Part.regs, Part.cores] ⊆ ps) : LeadsA ps s₀ (execSliceStart core s) := by
  unfold execSliceStart
  repeat' first
    | with_reducible assumption
    | with_reducible exact List.Subset.trans (List.Sublist.subset (by decide)) hp
    | extract_lets
    | with_reducible refine State.changed_leads ?_ ?_
    | with_reducible refine State.modCore_leads ?_ ?_ ?_
    | with_reducible refine Leads.when ?_ ?_
    | refine LeadsA.next ?_
    | exact fun _ h => h

theorem execSliceOverdue_leads {ps : List Part} {s₀ s : State} {core : ℕ} {minutes : ℕ} (hs : Leads ps s₀ s)
    (hp : [Part.cores, Part.log] ⊆ ps) : LeadsA ps s₀ (execSliceOverdue core minutes s) := by
  unfold execSliceOverdue
  repeat' first
    | with_reducible assumption
    | with_reducible exact List.Subset.trans (List.Sublist.subset (by decide)) hp
    | extract_lets
    | with_reducible refine State.modCore_leads ?_ ?_ ?_
    | with_reducible refine State.event_leads ?_ ?_
    | with_reducible refine Leads.when ?_ ?_
    | refine LeadsA.next ?_
    | exact fun _ h => h

theorem execDrain_leads {ps : List Part} {s₀ s : State} {core : ℕ} (hs : Leads ps s₀ s)
    (hp : [Part.regs, Part.cores] ⊆ ps) : LeadsA ps s₀ (execDrain core s) := by
  unfold execDrain
  repeat' first
    | with_reducible assumption
    | with_reducible refine State.drainCore_leads ?_ ?_
    | refine LeadsA.next ?_

theorem execCoreResume_leads {ps : List Part} {s₀ s : State} {core : ℕ} (hs : Leads ps s₀ s)
    (hp : [Part.regs, Part.cores] ⊆ ps) : LeadsA ps s₀ (execCoreResume core s) := by
  unfold execCoreResume
  repeat' first
    | with_reducible assumption
    | with_reducible refine State.resumeCore_leads ?_ ?_
    | refine LeadsA.next ?_

theorem execCoreDrained_leads {ps : List Part} {s₀ s : State} {core : ℕ} (hs : Leads ps s₀ s)
    (hp : [Part.regs, Part.cores] ⊆ ps) : LeadsA ps s₀ (execCoreDrained core s) := by
  unfold execCoreDrained
  repeat' first
    | with_reducible assumption
    | with_reducible exact List.Subset.trans (List.Sublist.subset (by decide)) hp
    | with_reducible refine State.changed_leads ?_ ?_
    | with_reducible refine State.modCore_leads ?_ ?_ ?_
    | with_reducible refine Leads.when ?_ ?_
    | refine LeadsA.next ?_
    | exact fun _ h => h

theorem execCoreFence_leads {ps : List Part} {s₀ s : State} {core : ℕ} {cause : ℕ} (hs : Leads ps s₀ s)
    (hp : [Part.outbox, Part.freeCount, Part.regs, Part.ctr, Part.cores, Part.places, Part.groups, Part.pages, Part.arenaWait, Part.poolWait, Part.items, Part.boxes, Part.mem, Part.memPoison, Part.protUnits, Part.tier, Part.fab, Part.links, Part.log, Part.fw, Part.pwr] ⊆ ps) : LeadsA ps s₀ (execCoreFence core cause s) := by
  unfold execCoreFence
  repeat' first
    | with_reducible assumption
    | with_reducible refine State.fenceCore_leads ?_ ?_
    | with_reducible refine Leads.when ?_ ?_
    | refine LeadsA.next ?_

theorem execDrainTimeout_leads {ps : List Part} {s₀ s : State} {core : ℕ} (hs : Leads ps s₀ s)
    (hp : [Part.outbox, Part.freeCount, Part.regs, Part.ctr, Part.cores, Part.places, Part.groups, Part.pages, Part.arenaWait, Part.poolWait, Part.items, Part.boxes, Part.mem, Part.memPoison, Part.protUnits, Part.tier, Part.fab, Part.links, Part.log, Part.fw, Part.pwr] ⊆ ps) : LeadsA ps s₀ (execDrainTimeout core s) := by
  unfold execDrainTimeout
  repeat' first
    | with_reducible assumption
    | with_reducible refine State.fenceCore_leads ?_ ?_
    | with_reducible refine Leads.when ?_ ?_
    | refine LeadsA.next ?_

theorem execControlParityError_leads {ps : List Part} {s₀ s : State} {core : ℕ} (hs : Leads ps s₀ s)
    (hp : [Part.outbox, Part.freeCount, Part.regs, Part.ctr, Part.cores, Part.places, Part.groups, Part.pages, Part.arenaWait, Part.poolWait, Part.items, Part.boxes, Part.mem, Part.memPoison, Part.protUnits, Part.tier, Part.fab, Part.links, Part.log, Part.fw, Part.pwr] ⊆ ps) : LeadsA ps s₀ (execControlParityError core s) := by
  unfold execControlParityError
  repeat' first
    | with_reducible assumption
    | with_reducible exact List.Subset.trans (List.Sublist.subset (by decide)) hp
    | with_reducible refine State.fenceCore_leads ?_ ?_
    | with_reducible refine State.flag_leads ?_ ?_
    | with_reducible refine Leads.when ?_ ?_
    | refine LeadsA.next ?_

theorem execStaleCoreRequest_leads {ps : List Part} {s₀ s : State} {core : ℕ} {incarnation : ℕ} (hs : Leads ps s₀ s)
    (hp : [Part.cores, Part.log] ⊆ ps) : LeadsA ps s₀ (execStaleCoreRequest core incarnation s) := by
  unfold execStaleCoreRequest
  repeat' first
    | with_reducible assumption
    | with_reducible exact List.Subset.trans (List.Sublist.subset (by decide)) hp
    | extract_lets
    | with_reducible refine State.modCore_leads ?_ ?_ ?_
    | with_reducible refine State.event_leads ?_ ?_
    | with_reducible refine Leads.when ?_ ?_
    | refine LeadsA.next ?_
    | exact fun _ h => h

theorem execCoreSubstitute_leads {ps : List Part} {s₀ s : State} {logical : ℕ} (hs : Leads ps s₀ s)
    (hp : [Part.regs, Part.cores, Part.log] ⊆ ps) : LeadsA ps s₀ (execCoreSubstitute logical s) := by
  unfold execCoreSubstitute
  repeat' first
    | with_reducible assumption
    | with_reducible refine State.substitute_leads ?_ ?_
    | refine LeadsA.next ?_

theorem execCoreReturn_leads {ps : List Part} {s₀ s : State} {core : ℕ} {allPassed : Bool} (hs : Leads ps s₀ s)
    (hp : [Part.regs, Part.cores, Part.log] ⊆ ps) : LeadsA ps s₀ (execCoreReturn core allPassed s) := by
  unfold execCoreReturn
  repeat' first
    | with_reducible assumption
    | with_reducible exact List.Subset.trans (List.Sublist.subset (by decide)) hp
    | extract_lets
    | with_reducible refine State.modCore_leads ?_ ?_ ?_
    | with_reducible refine State.event_leads ?_ ?_
    | with_reducible refine State.changed_leads ?_ ?_
    | with_reducible refine Leads.when ?_ ?_
    | refine LeadsA.next ?_
    | exact fun _ h => h

theorem execSliceEnd_leads {ps : List Part} {s₀ s : State} {core : ℕ} {_observed : W64} {signatureMatches : Bool} {dip : Bool} (hs : Leads ps s₀ s)
    (hp : [Part.outbox, Part.freeCount, Part.time, Part.regs, Part.ctr, Part.cores, Part.places, Part.groups, Part.pages, Part.arenaWait, Part.poolWait, Part.items, Part.boxes, Part.mem, Part.memPoison, Part.protUnits, Part.tier, Part.fab, Part.links, Part.log, Part.fw, Part.pwr] ⊆ ps) : LeadsA ps s₀ (execSliceEnd core _observed signatureMatches dip s) := by
  unfold execSliceEnd
  repeat' first
    | with_reducible assumption
    | with_reducible exact List.Subset.trans (List.Sublist.subset (by decide)) hp
    | extract_lets
    | with_reducible refine State.endSliceGrant_leads ?_ ?_
    | with_reducible refine State.changed_leads ?_ ?_
    | with_reducible refine State.modCore_leads ?_ ?_ ?_
    | with_reducible refine State.setTime_leads ?_ ?_
    | with_reducible refine State.fenceCore_leads ?_ ?_
    | refine LeadsA.next ?_
    | exact fun _ h => h
    | split

theorem execPoisonConsumed_leads {ps : List Part} {s₀ s : State} {core : ℕ} {va : ℕ} (hs : Leads ps s₀ s)
    (hp : [Part.cores] ⊆ ps) : LeadsA ps s₀ (execPoisonConsumed core va s) := by
  unfold execPoisonConsumed
  repeat' first
    | with_reducible assumption
    | with_reducible refine State.modCore_leads ?_ ?_ ?_
    | with_reducible refine Leads.when ?_ ?_
    | refine LeadsA.next ?_
    | exact fun _ h => h

theorem execLedgerEntryUe_leads {ps : List Part} {s₀ s : State} {id : ℕ} {tagClean : Bool} {positionClean : Bool} (hs : Leads ps s₀ s)
    (hp : [Part.outbox, Part.freeCount, Part.regs, Part.ctr, Part.cores, Part.places, Part.groups, Part.pages, Part.arenaWait, Part.poolWait, Part.items, Part.boxes, Part.mem, Part.memPoison, Part.protUnits, Part.tier, Part.fab, Part.links, Part.log] ⊆ ps) : LeadsA ps s₀ (execLedgerEntryUe id tagClean positionClean s) := by
  unfold execLedgerEntryUe
  repeat' first
    | with_reducible assumption
    | with_reducible exact List.Subset.trans (List.Sublist.subset (by decide)) hp
    | extract_lets
    | with_reducible refine State.event_leads ?_ ?_
    | with_reducible refine State.flag_leads ?_ ?_
    | with_reducible refine State.failItem_leads ?_ ?_
    | with_reducible refine State.modItem_leads ?_ ?_
    | with_reducible refine State.modBox_leads ?_ ?_
    | (with_reducible refine Leads.foldl _ ?_ ?_; rotate_left; intro u x hu)
    | refine LeadsA.next ?_
    | split

theorem execDispositionRecord_leads {ps : List Part} {s₀ s : State} {id : ℕ} (hs : Leads ps s₀ s)
    (hp : [Part.outbox, Part.freeCount, Part.ctr, Part.cores, Part.places, Part.groups, Part.pages, Part.items, Part.boxes, Part.mem, Part.memPoison, Part.protUnits, Part.tier, Part.fab, Part.links] ⊆ ps) : LeadsA ps s₀ (execDispositionRecord id s) := by
  unfold execDispositionRecord
  repeat' first
    | with_reducible assumption
    | with_reducible refine State.resolve_leads ?_ ?_
    | with_reducible refine Leads.when ?_ ?_
    | refine LeadsA.next ?_
    | split

theorem execPigeonholeRetire_leads {ps : List Part} {s₀ s : State} {core : ℕ} {ph : ℕ} {uncorrectable : Bool} {corrected : ℕ} (hs : Leads ps s₀ s)
    (hp : [Part.regs, Part.ctr, Part.cores, Part.log, Part.sec] ⊆ ps) : LeadsA ps s₀ (execPigeonholeRetire core ph uncorrectable corrected s) := by
  unfold execPigeonholeRetire
  repeat' first
    | with_reducible assumption
    | with_reducible exact List.Subset.trans (List.Sublist.subset (by decide)) hp
    | extract_lets
    | with_reducible refine State.phParity_leads ?_ ?_
    | with_reducible refine State.retirePh_leads ?_ ?_
    | with_reducible refine Leads.when ?_ ?_
    | refine LeadsA.next ?_
    | split

theorem execPigeonholeRemap_leads {ps : List Part} {s₀ s : State} {core : ℕ} (hs : Leads ps s₀ s)
    (hp : [Part.regs, Part.cores] ⊆ ps) : LeadsA ps s₀ (execPigeonholeRemap core s) := by
  unfold execPigeonholeRemap
  repeat' first
    | with_reducible assumption
    | with_reducible exact List.Subset.trans (List.Sublist.subset (by decide)) hp
    | extract_lets
    | with_reducible refine State.changed_leads ?_ ?_
    | with_reducible refine State.setReg_leads ?_ ?_
    | with_reducible refine State.modCore_leads ?_ ?_ ?_
    | with_reducible refine Leads.when ?_ ?_
    | refine LeadsA.next ?_
    | exact fun _ h => h

theorem execCas_leads {ps : List Part} {s₀ s : State} {da : ℕ} {expected : W64} {new : W64} (hs : Leads ps s₀ s)
    (hp : [Part.outbox, Part.ctr, Part.mem, Part.memPoison, Part.tier] ⊆ ps) : LeadsA ps s₀ (execCas da expected new s) := by
  unfold execCas
  repeat' first
    | with_reducible assumption
    | with_reducible refine State.atomic_leads ?_ ?_
    | refine LeadsA.next ?_

theorem execFetchAdd_leads {ps : List Part} {s₀ s : State} {da : ℕ} {addend : W64} (hs : Leads ps s₀ s)
    (hp : [Part.outbox, Part.ctr, Part.mem, Part.memPoison, Part.tier] ⊆ ps) : LeadsA ps s₀ (execFetchAdd da addend s) := by
  unfold execFetchAdd
  repeat' first
    | with_reducible assumption
    | with_reducible refine State.atomic_leads ?_ ?_
    | refine LeadsA.next ?_

theorem execSwap_leads {ps : List Part} {s₀ s : State} {da : ℕ} {new : W64} (hs : Leads ps s₀ s)
    (hp : [Part.outbox, Part.ctr, Part.mem, Part.memPoison, Part.tier] ⊆ ps) : LeadsA ps s₀ (execSwap da new s) := by
  unfold execSwap
  repeat' first
    | with_reducible assumption
    | with_reducible refine State.atomic_leads ?_ ?_
    | refine LeadsA.next ?_

theorem execReductionWrite_leads {ps : List Part} {s₀ s : State} {box : ℕ} {va : ℕ} {data : List Byte} (hs : Leads ps s₀ s)
    (hp : [Part.ctr, Part.mem, Part.memPoison, Part.protUnits, Part.tier] ⊆ ps) : LeadsA ps s₀ (execReductionWrite box va data s) := by
  unfold execReductionWrite
  repeat' first
    | with_reducible assumption
    | extract_lets
    | with_reducible refine State.storeBox_leads ?_ ?_
    | with_reducible refine Leads.when ?_ ?_
    | refine LeadsA.next ?_
    | split

theorem execRegulatorAdmit_leads {ps : List Part} {s₀ s : State} {die : ℕ} {box : ℕ} (hs : Leads ps s₀ s)
    (hp : [Part.ctr, Part.dies] ⊆ ps) : LeadsA ps s₀ (execRegulatorAdmit die box s) := by
  unfold execRegulatorAdmit
  repeat' first
    | with_reducible assumption
    | with_reducible exact List.Subset.trans (List.Sublist.subset (by decide)) hp
    | extract_lets
    | with_reducible refine State.debit_leads ?_ ?_
    | with_reducible refine State.modDie_leads ?_ ?_
    | with_reducible refine State.bump_leads ?_ ?_
    | with_reducible refine Leads.when ?_ ?_
    | refine LeadsA.next ?_
    | split

theorem execHbmTempReport_leads {ps : List Part} {s₀ s : State} {stack : ℕ} {celsius : ℕ} (hs : Leads ps s₀ s)
    (hp : [Part.regs, Part.hbm, Part.log] ⊆ ps) : LeadsA ps s₀ (execHbmTempReport stack celsius s) := by
  unfold execHbmTempReport
  repeat' first
    | with_reducible assumption
    | with_reducible exact List.Subset.trans (List.Sublist.subset (by decide)) hp
    | extract_lets
    | with_reducible refine State.modStack_leads ?_ ?_
    | with_reducible refine State.changed_leads ?_ ?_
    | with_reducible refine State.event_leads ?_ ?_
    | with_reducible refine Leads.when ?_ ?_
    | refine LeadsA.next ?_

theorem execChannelMapout_leads {ps : List Part} {s₀ s : State} {stack : ℕ} {ch : ℕ} {cause : ℕ} (hs : Leads ps s₀ s)
    (hp : [Part.freeCount, Part.regs, Part.hbm, Part.dies, Part.log, Part.sec] ⊆ ps) : LeadsA ps s₀ (execChannelMapout stack ch cause s) := by
  unfold execChannelMapout
  repeat' first
    | with_reducible assumption
    | with_reducible refine State.mapOut_leads ?_ ?_
    | with_reducible refine Leads.when ?_ ?_
    | refine LeadsA.next ?_

theorem execHbmMapoutGo_leads {ps : List Part} {s₀ s : State} {stack : ℕ} {ch : ℕ} (hs : Leads ps s₀ s)
    (hp : [Part.freeCount, Part.regs, Part.hbm, Part.dies, Part.log, Part.sec] ⊆ ps) : LeadsA ps s₀ (execHbmMapoutGo stack ch s) := by
  unfold execHbmMapoutGo
  repeat' first
    | with_reducible assumption
    | with_reducible refine State.mapOut_leads ?_ ?_
    | refine LeadsA.next ?_

theorem execEvacuationPageCopy_leads {ps : List Part} {s₀ s : State} {die : ℕ} {page : ℕ} (hs : Leads ps s₀ s)
    (hp : [Part.regs, Part.ctr, Part.dies] ⊆ ps) : LeadsA ps s₀ (execEvacuationPageCopy die page s) := by
  unfold execEvacuationPageCopy
  repeat' first
    | with_reducible assumption
    | with_reducible exact List.Subset.trans (List.Sublist.subset (by decide)) hp
    | extract_lets
    | with_reducible refine State.modDie_leads ?_ ?_
    | with_reducible refine State.changed_leads ?_ ?_
    | with_reducible refine State.bump_leads ?_ ?_
    | with_reducible refine Leads.when ?_ ?_
    | refine LeadsA.next ?_
    | split

theorem execEvacuationDone_leads {ps : List Part} {s₀ s : State} {die : ℕ} (hs : Leads ps s₀ s)
    (hp : [Part.regs, Part.hbm, Part.dies, Part.log] ⊆ ps) : LeadsA ps s₀ (execEvacuationDone die s) := by
  unfold execEvacuationDone
  repeat' first
    | with_reducible assumption
    | with_reducible exact List.Subset.trans (List.Sublist.subset (by decide)) hp
    | extract_lets
    | with_reducible refine State.modDie_leads ?_ ?_
    | with_reducible refine State.modStack_leads ?_ ?_
    | with_reducible refine State.event_leads ?_ ?_
    | with_reducible refine State.changed_leads ?_ ?_
    | with_reducible refine Leads.when ?_ ?_
    | (with_reducible refine Leads.foldl _ ?_ ?_; rotate_left; intro u x hu)
    | refine LeadsA.next ?_

theorem execRedirectCopyBack_leads {ps : List Part} {s₀ s : State} {die : ℕ} {page : ℕ} (hs : Leads ps s₀ s)
    (hp : [Part.regs, Part.dies] ⊆ ps) : LeadsA ps s₀ (execRedirectCopyBack die page s) := by
  unfold execRedirectCopyBack
  repeat' first
    | with_reducible assumption
    | with_reducible exact List.Subset.trans (List.Sublist.subset (by decide)) hp
    | extract_lets
    | with_reducible refine State.changed_leads ?_ ?_
    | with_reducible refine State.modDie_leads ?_ ?_
    | with_reducible refine Leads.when ?_ ?_
    | refine LeadsA.next ?_

theorem execAbsentTouch_leads {ps : List Part} {s₀ s : State} {box : ℕ} {va : ℕ} (hs : Leads ps s₀ s)
    (hp : [Part.ctr, Part.tier] ⊆ ps) : LeadsA ps s₀ (execAbsentTouch box va s) := by
  unfold execAbsentTouch
  repeat' first
    | with_reducible assumption
    | with_reducible refine State.touch_leads ?_ ?_
    | refine LeadsA.next ?_

theorem execGranuleFillDone_leads {ps : List Part} {s₀ s : State} {granule : ℕ} {uncorrectable : Bool} (hs : Leads ps s₀ s)
    (hp : [Part.ctr, Part.mem, Part.memPoison, Part.tier, Part.log] ⊆ ps) : LeadsA ps s₀ (execGranuleFillDone granule uncorrectable s) := by
  unfold execGranuleFillDone
  repeat' first
    | with_reducible assumption
    | with_reducible exact List.Subset.trans (List.Sublist.subset (by decide)) hp
    | extract_lets
    | with_reducible refine State.fillData_leads ?_ ?_
    | with_reducible refine State.event_leads ?_ ?_
    | with_reducible refine State.modGranule_leads ?_ ?_
    | with_reducible refine State.bump_leads ?_ ?_
    | with_reducible refine Leads.when ?_ ?_
    | with_reducible refine Leads.ite ?_ ?_
    | refine LeadsA.next ?_
    | split
    | with_reducible refine Leads.memPoison ?_ ?_

theorem execGranuleWritebackDone_leads {ps : List Part} {s₀ s : State} {granule : ℕ} (hs : Leads ps s₀ s)
    (hp : [Part.ctr, Part.mem, Part.memPoison, Part.tier] ⊆ ps) : LeadsA ps s₀ (execGranuleWritebackDone granule s) := by
  unfold execGranuleWritebackDone
  repeat' first
    | with_reducible assumption
    | with_reducible exact List.Subset.trans (List.Sublist.subset (by decide)) hp
    | extract_lets
    | with_reducible refine State.bump_leads ?_ ?_
    | with_reducible refine State.flushData_leads ?_ ?_
    | with_reducible refine State.setTier_leads ?_ ?_ ?_
    | with_reducible refine State.modGranule_leads ?_ ?_
    | with_reducible refine State.memWrite_leads ?_ ?_
    | with_reducible refine Leads.when ?_ ?_
    | with_reducible refine Leads.ite ?_ ?_
    | (with_reducible refine Leads.foldl _ ?_ ?_; rotate_left; intro u x hu)
    | (intro _; simp; done)
    | refine LeadsA.next ?_
    | split

theorem execAgeWriteback_leads {ps : List Part} {s₀ s : State}  (hs : Leads ps s₀ s)
    (hp : [Part.tier] ⊆ ps) : LeadsA ps s₀ (execAgeWriteback s) := by
  unfold execAgeWriteback
  repeat' first
    | with_reducible assumption
    | extract_lets
    | with_reducible refine State.beginWriteback_leads ?_ ?_
    | with_reducible refine Leads.when ?_ ?_
    | (with_reducible refine Leads.foldl _ ?_ ?_; rotate_left; intro u x hu)
    | refine LeadsA.next ?_

theorem execPrefetch_leads {ps : List Part} {s₀ s : State} {box : ℕ} {va : ℕ} {units : ℕ} (hs : Leads ps s₀ s)
    (hp : [Part.regs, Part.ctr, Part.tier] ⊆ ps) : LeadsA ps s₀ (execPrefetch box va units s) := by
  unfold execPrefetch
  repeat' first
    | with_reducible assumption
    | with_reducible refine State.tierCmd_leads ?_ ?_
    | refine LeadsA.next ?_

theorem execTierFlush_leads {ps : List Part} {s₀ s : State} {box : ℕ} {va : ℕ} {units : ℕ} (hs : Leads ps s₀ s)
    (hp : [Part.regs, Part.ctr, Part.tier] ⊆ ps) : LeadsA ps s₀ (execTierFlush box va units s) := by
  unfold execTierFlush
  repeat' first
    | with_reducible assumption
    | with_reducible refine State.tierCmd_leads ?_ ?_
    | refine LeadsA.next ?_

theorem execTierEvict_leads {ps : List Part} {s₀ s : State} {box : ℕ} {va : ℕ} {units : ℕ} (hs : Leads ps s₀ s)
    (hp : [Part.regs, Part.ctr, Part.tier] ⊆ ps) : LeadsA ps s₀ (execTierEvict box va units s) := by
  unfold execTierEvict
  repeat' first
    | with_reducible assumption
    | with_reducible refine State.tierCmd_leads ?_ ?_
    | refine LeadsA.next ?_

theorem execDiscard_leads {ps : List Part} {s₀ s : State} {box : ℕ} {va : ℕ} {units : ℕ} (hs : Leads ps s₀ s)
    (hp : [Part.regs, Part.ctr, Part.tier] ⊆ ps) : LeadsA ps s₀ (execDiscard box va units s) := by
  unfold execDiscard
  repeat' first
    | with_reducible assumption
    | with_reducible refine State.tierCmd_leads ?_ ?_
    | refine LeadsA.next ?_

theorem execFlashHousekeeping_leads {ps : List Part} {s₀ s : State}  (hs : Leads ps s₀ s)
    (hp : [Part.ctr, Part.tier] ⊆ ps) : LeadsA ps s₀ (execFlashHousekeeping s) := by
  unfold execFlashHousekeeping
  repeat' first
    | with_reducible assumption
    | with_reducible refine State.relocateBlock_leads ?_ ?_
    | with_reducible refine Leads.when ?_ ?_
    | (with_reducible refine Leads.foldl _ ?_ ?_; rotate_left; intro u x hu)
    | refine LeadsA.next ?_

theorem execReadDisturbRelocate_leads {ps : List Part} {s₀ s : State} {block : ℕ} (hs : Leads ps s₀ s)
    (hp : [Part.ctr, Part.tier] ⊆ ps) : LeadsA ps s₀ (execReadDisturbRelocate block s) := by
  unfold execReadDisturbRelocate
  repeat' first
    | with_reducible assumption
    | with_reducible refine State.relocateBlock_leads ?_ ?_
    | with_reducible refine Leads.when ?_ ?_
    | refine LeadsA.next ?_

theorem execFlashBlockRetire_leads {ps : List Part} {s₀ s : State} {block : ℕ} (hs : Leads ps s₀ s)
    (hp : [Part.ctr, Part.tier, Part.log] ⊆ ps) : LeadsA ps s₀ (execFlashBlockRetire block s) := by
  unfold execFlashBlockRetire
  repeat' first
    | with_reducible assumption
    | with_reducible exact List.Subset.trans (List.Sublist.subset (by decide)) hp
    | with_reducible refine State.event_leads ?_ ?_
    | with_reducible refine State.bump_leads ?_ ?_
    | with_reducible refine State.setTier_leads ?_ ?_ ?_
    | with_reducible refine Leads.when ?_ ?_
    | (intro _; simp; done)
    | refine LeadsA.next ?_

theorem execFlashStateChange_leads {ps : List Part} {s₀ s : State} {sparePermille : ℕ} {wearPct : ℕ} (hs : Leads ps s₀ s)
    (hp : [Part.regs, Part.tier, Part.log] ⊆ ps) : LeadsA ps s₀ (execFlashStateChange sparePermille wearPct s) := by
  unfold execFlashStateChange
  repeat' first
    | with_reducible assumption
    | with_reducible exact List.Subset.trans (List.Sublist.subset (by decide)) hp
    | extract_lets
    | with_reducible refine State.setTier_leads ?_ ?_ ?_
    | with_reducible refine State.event_leads ?_ ?_
    | with_reducible refine State.changed_leads ?_ ?_
    | with_reducible refine Leads.when ?_ ?_
    | (intro _; simp; done)
    | refine LeadsA.next ?_

theorem execWriteHeld_leads {ps : List Part} {s₀ s : State} {low : Bool} (hs : Leads ps s₀ s)
    (hp : [Part.regs, Part.tier, Part.log] ⊆ ps) : LeadsA ps s₀ (execWriteHeld low s) := by
  unfold execWriteHeld
  repeat' first
    | with_reducible assumption
    | with_reducible exact List.Subset.trans (List.Sublist.subset (by decide)) hp
    | extract_lets
    | with_reducible refine State.setTier_leads ?_ ?_ ?_
    | with_reducible refine State.changed_leads ?_ ?_
    | with_reducible refine State.event_leads ?_ ?_
    | with_reducible refine Leads.when ?_ ?_
    | (intro _; simp; done)
    | refine LeadsA.next ?_

theorem execEscalation_leads {ps : List Part} {s₀ s : State} {component : ℕ} {firstCause : ℕ} {secondCause : ℕ} (hs : Leads ps s₀ s)
    (hp : [Part.outbox, Part.freeCount, Part.pins, Part.time, Part.regs, Part.ctr, Part.cores, Part.places, Part.groups, Part.pages, Part.mirrors, Part.mirrorPages, Part.arenaWait, Part.poolWait, Part.items, Part.nextItem, Part.gang, Part.boxes, Part.mem, Part.memPoison, Part.protUnits, Part.hbm, Part.dies, Part.held, Part.tier, Part.cb, Part.fab, Part.links, Part.host, Part.log, Part.fw, Part.sec, Part.pwr, Part.test, Part.side] ⊆ ps) : LeadsA ps s₀ (execEscalation component firstCause secondCause s) := by
  unfold execEscalation
  repeat' first
    | with_reducible assumption
    | with_reducible refine State.escalate_leads ?_ ?_
    | refine LeadsA.next ?_

theorem execResetModule_leads {ps : List Part} {s₀ s : State}  (hs : Leads ps s₀ s)
    (hp : [Part.outbox, Part.freeCount, Part.pins, Part.time, Part.regs, Part.ctr, Part.cores, Part.places, Part.groups, Part.pages, Part.mirrors, Part.mirrorPages, Part.arenaWait, Part.poolWait, Part.items, Part.nextItem, Part.gang, Part.boxes, Part.mem, Part.memPoison, Part.protUnits, Part.hbm, Part.dies, Part.held, Part.tier, Part.cb, Part.fab, Part.links, Part.host, Part.log, Part.fw, Part.sec, Part.pwr, Part.test, Part.side] ⊆ ps) : LeadsA ps s₀ (execResetModule s) := by
  unfold execResetModule
  repeat' first
    | with_reducible assumption
    | with_reducible refine State.escalate_leads ?_ ?_
    | refine LeadsA.next ?_

theorem execComponentFault_leads {ps : List Part} {s₀ s : State} {component : ℕ} {cause : ℕ} {processor : ℕ} {pc : W64} (hs : Leads ps s₀ s)
    (hp : [Part.outbox, Part.freeCount, Part.pins, Part.time, Part.regs, Part.ctr, Part.cores, Part.places, Part.groups, Part.pages, Part.mirrors, Part.mirrorPages, Part.arenaWait, Part.poolWait, Part.items, Part.nextItem, Part.gang, Part.boxes, Part.mem, Part.memPoison, Part.protUnits, Part.hbm, Part.dies, Part.held, Part.tier, Part.cb, Part.fab, Part.links, Part.host, Part.log, Part.fw, Part.sec, Part.pwr, Part.test, Part.side] ⊆ ps) : LeadsA ps s₀ (execComponentFault component cause processor pc s) := by
  unfold execComponentFault
  repeat' first
    | with_reducible assumption
    | with_reducible exact List.Subset.trans (List.Sublist.subset (by decide)) hp
    | with_reducible refine State.faultComp_leads ?_ ?_
    | with_reducible refine State.bump_leads ?_ ?_
    | with_reducible refine Leads.when ?_ ?_
    | refine LeadsA.next ?_

theorem execFwWatchdog_leads {ps : List Part} {s₀ s : State} {component : ℕ} (hs : Leads ps s₀ s)
    (hp : [Part.outbox, Part.freeCount, Part.pins, Part.time, Part.regs, Part.ctr, Part.cores, Part.places, Part.groups, Part.pages, Part.mirrors, Part.mirrorPages, Part.arenaWait, Part.poolWait, Part.items, Part.nextItem, Part.gang, Part.boxes, Part.mem, Part.memPoison, Part.protUnits, Part.hbm, Part.dies, Part.held, Part.tier, Part.cb, Part.fab, Part.links, Part.host, Part.log, Part.fw, Part.sec, Part.pwr, Part.test, Part.side] ⊆ ps) : LeadsA ps s₀ (execFwWatchdog component s) := by
  unfold execFwWatchdog
  repeat' first
    | with_reducible assumption
    | with_reducible exact List.Subset.trans (List.Sublist.subset (by decide)) hp
    | extract_lets
    | with_reducible refine State.draw_leads ?_ ?_
    | with_reducible refine State.faultComp_leads ?_ ?_
    | with_reducible refine State.bump_leads ?_ ?_
    | with_reducible refine Leads.when ?_ ?_
    | refine LeadsA.next ?_

theorem execRestartOverrun_leads {ps : List Part} {s₀ s : State} {component : ℕ} (hs : Leads ps s₀ s)
    (hp : [Part.outbox, Part.freeCount, Part.pins, Part.time, Part.regs, Part.ctr, Part.cores, Part.places, Part.groups, Part.pages, Part.mirrors, Part.mirrorPages, Part.arenaWait, Part.poolWait, Part.items, Part.nextItem, Part.gang, Part.boxes, Part.mem, Part.memPoison, Part.protUnits, Part.hbm, Part.dies, Part.held, Part.tier, Part.cb, Part.fab, Part.links, Part.host, Part.log, Part.fw, Part.sec, Part.pwr, Part.test, Part.side] ⊆ ps) : LeadsA ps s₀ (execRestartOverrun component s) := by
  unfold execRestartOverrun
  repeat' first
    | with_reducible assumption
    | with_reducible exact List.Subset.trans (List.Sublist.subset (by decide)) hp
    | extract_lets
    | with_reducible refine State.draw_leads ?_ ?_
    | with_reducible refine State.faultComp_leads ?_ ?_
    | with_reducible refine Leads.when ?_ ?_
    | refine LeadsA.next ?_

theorem execRestartComponent_leads {ps : List Part} {s₀ s : State} {component : ℕ} (hs : Leads ps s₀ s)
    (hp : [Part.regs, Part.ctr, Part.tier, Part.log, Part.fw] ⊆ ps) : LeadsA ps s₀ (execRestartComponent component s) := by
  unfold execRestartComponent
  repeat' first
    | with_reducible assumption
    | with_reducible refine State.hostRestart_leads ?_ ?_
    | refine LeadsA.next ?_

theorem execComponentRestart_leads {ps : List Part} {s₀ s : State} {component : ℕ} {digestOk : Bool} (hs : Leads ps s₀ s)
    (hp : [Part.outbox, Part.freeCount, Part.pins, Part.time, Part.regs, Part.ctr, Part.cores, Part.places, Part.groups, Part.pages, Part.mirrors, Part.mirrorPages, Part.arenaWait, Part.poolWait, Part.items, Part.nextItem, Part.gang, Part.boxes, Part.mem, Part.memPoison, Part.protUnits, Part.hbm, Part.dies, Part.held, Part.tier, Part.cb, Part.fab, Part.links, Part.host, Part.log, Part.fw, Part.sec, Part.pwr, Part.test, Part.side] ⊆ ps) : LeadsA ps s₀ (execComponentRestart component digestOk s) := by
  unfold execComponentRestart
  repeat' first
    | with_reducible assumption
    | with_reducible exact List.Subset.trans (List.Sublist.subset (by decide)) hp
    | extract_lets
    | with_reducible refine State.modComp_leads ?_ ?_
    | with_reducible refine State.escalate_leads ?_ ?_
    | with_reducible refine Leads.when ?_ ?_
    | with_reducible refine Leads.ite ?_ ?_
    | refine LeadsA.next ?_

theorem execComponentRunning_leads {ps : List Part} {s₀ s : State} {component : ℕ} (hs : Leads ps s₀ s)
    (hp : [Part.outbox, Part.freeCount, Part.regs, Part.ctr, Part.cores, Part.places, Part.groups, Part.pages, Part.arenaWait, Part.poolWait, Part.items, Part.boxes, Part.mem, Part.memPoison, Part.protUnits, Part.tier, Part.fab, Part.links, Part.host, Part.log, Part.fw] ⊆ ps) : LeadsA ps s₀ (execComponentRunning component s) := by
  unfold execComponentRunning
  repeat' first
    | with_reducible assumption
    | with_reducible exact List.Subset.trans (List.Sublist.subset (by decide)) hp
    | extract_lets
    | with_reducible refine State.changed_leads ?_ ?_
    | with_reducible refine State.modComp_leads ?_ ?_
    | with_reducible refine State.startTest_leads ?_ ?_
    | with_reducible refine State.setFw_leads ?_ ?_ ?_
    | with_reducible refine State.failItems_leads ?_ ?_
    | with_reducible refine State.bump_leads ?_ ?_
    | with_reducible refine State.tierResume_leads ?_ ?_
    | with_reducible refine State.mirrorWrite_leads ?_ ?_
    | with_reducible refine State.event_leads ?_ ?_
    | with_reducible refine Leads.when ?_ ?_
    | exact fun _ => rfl
    | refine LeadsA.next ?_
    | exact fun h => h
    | split
    | with_reducible refine Leads.tier ?_ ?_ ?_

theorem execEscArmedExpiry_leads {ps : List Part} {s₀ s : State} {component : ℕ} (hs : Leads ps s₀ s)
    (hp : [Part.fw] ⊆ ps) : LeadsA ps s₀ (execEscArmedExpiry component s) := by
  unfold execEscArmedExpiry
  repeat' first
    | with_reducible assumption
    | with_reducible refine State.modComp_leads ?_ ?_
    | refine LeadsA.next ?_

theorem execMailboxSend_leads {ps : List Part} {s₀ s : State} {sender : ℕ} {receiver : ℕ} {message : List Byte} (hs : Leads ps s₀ s)
    (hp : [Part.ctr, Part.fw] ⊆ ps) : LeadsA ps s₀ (execMailboxSend sender receiver message s) := by
  unfold execMailboxSend
  repeat' first
    | with_reducible assumption
    | with_reducible exact List.Subset.trans (List.Sublist.subset (by decide)) hp
    | extract_lets
    | with_reducible refine State.modComp_leads ?_ ?_
    | with_reducible refine State.bump_leads ?_ ?_
    | with_reducible refine Leads.when ?_ ?_
    | refine LeadsA.next ?_

theorem execSupervisorTask_leads {ps : List Part} {s₀ s : State}  (hs : Leads ps s₀ s)
    (hp : [Part.regs, Part.ctr, Part.cores, Part.log, Part.fw] ⊆ ps) : LeadsA ps s₀ (execSupervisorTask s) := by
  unfold execSupervisorTask
  repeat' first
    | with_reducible assumption
    | with_reducible exact List.Subset.trans (List.Sublist.subset (by decide)) hp
    | extract_lets
    | with_reducible refine State.setFw_leads ?_ ?_ ?_
    | with_reducible refine State.runTask_leads ?_ ?_
    | with_reducible refine State.bump_leads ?_ ?_
    | with_reducible refine Leads.when ?_ ?_
    | exact fun _ => rfl
    | refine LeadsA.next ?_
    | split

theorem execFieldRecordWrite_leads {ps : List Part} {s₀ s : State}  (hs : Leads ps s₀ s)
    (hp : [Part.sec] ⊆ ps) : LeadsA ps s₀ (execFieldRecordWrite s) := by
  unfold execFieldRecordWrite
  repeat' first
    | with_reducible assumption
    | with_reducible refine State.writeField_leads ?_ ?_
    | refine LeadsA.next ?_

theorem execBootSequence_leads {ps : List Part} {s₀ s : State}  (hs : Leads ps s₀ s)
    (hp : [Part.freeCount, Part.regs, Part.ctr, Part.cores, Part.hbm, Part.dies, Part.held, Part.log, Part.fw, Part.sec] ⊆ ps) : LeadsA ps s₀ (execBootSequence s) := by
  unfold execBootSequence
  repeat' first
    | with_reducible assumption
    | with_reducible exact List.Subset.trans (List.Sublist.subset (by decide)) hp
    | extract_lets
    | with_reducible refine State.readPassport_leads ?_ ?_
    | with_reducible refine State.startRecorder_leads ?_ ?_
    | with_reducible refine State.measure_leads ?_ ?_
    | with_reducible refine State.freshNonce_leads ?_ ?_
    | with_reducible refine State.holdModule_leads ?_ ?_
    | with_reducible refine State.applyMapouts_leads ?_ ?_
    | with_reducible refine State.applyRetired_leads ?_ ?_
    | with_reducible refine State.changed_leads ?_ ?_
    | with_reducible refine State.setFw_leads ?_ ?_ ?_
    | with_reducible refine Leads.when ?_ ?_
    | exact fun _ => rfl
    | refine LeadsA.next ?_

theorem execToken_leads {ps : List Part} {s₀ s : State} {bytes : List Byte} (hs : Leads ps s₀ s)
    (hp : [Part.sec, Part.test] ⊆ ps) : LeadsA ps s₀ (execToken bytes s) := by
  unfold execToken
  repeat' first
    | with_reducible assumption
    | with_reducible exact List.Subset.trans (List.Sublist.subset (by decide)) hp
    | extract_lets
    | with_reducible refine State.setSec_leads ?_ ?_
    | with_reducible refine Leads.ite ?_ ?_
    | refine LeadsA.next ?_
    | with_reducible refine Leads.test ?_ ?_

theorem execTokenCheckDone_leads {ps : List Part} {s₀ s : State}  (hs : Leads ps s₀ s)
    (hp : [Part.freeCount, Part.regs, Part.ctr, Part.boxes, Part.log, Part.sec] ⊆ ps) : LeadsA ps s₀ (execTokenCheckDone s) := by
  unfold execTokenCheckDone
  repeat' first
    | with_reducible assumption
    | with_reducible exact List.Subset.trans (List.Sublist.subset (by decide)) hp
    | extract_lets
    | with_reducible refine State.draw_leads ?_ ?_
    | with_reducible refine State.setSec_leads ?_ ?_
    | with_reducible refine State.measure_leads ?_ ?_
    | with_reducible refine State.event_leads ?_ ?_
    | with_reducible refine State.changed_leads ?_ ?_
    | with_reducible refine State.bump_leads ?_ ?_
    | with_reducible refine Leads.when ?_ ?_
    | refine LeadsA.next ?_
    | (simp; done)
    | split
    | with_reducible refine Leads.boxes ?_ ?_ ?_

theorem execDebugLifetimeExpiry_leads {ps : List Part} {s₀ s : State}  (hs : Leads ps s₀ s)
    (hp : [Part.regs, Part.cores, Part.fw, Part.sec, Part.test] ⊆ ps) : LeadsA ps s₀ (execDebugLifetimeExpiry s) := by
  unfold execDebugLifetimeExpiry
  repeat' first
    | with_reducible assumption
    | with_reducible exact List.Subset.trans (List.Sublist.subset (by decide)) hp
    | with_reducible refine State.changed_leads ?_ ?_
    | with_reducible refine State.relock_leads ?_ ?_
    | with_reducible refine Leads.when ?_ ?_
    | refine LeadsA.next ?_

theorem execSecDbgLock_leads {ps : List Part} {s₀ s : State}  (hs : Leads ps s₀ s)
    (hp : [Part.regs, Part.cores, Part.fw, Part.sec, Part.test] ⊆ ps) : LeadsA ps s₀ (execSecDbgLock s) := by
  unfold execSecDbgLock
  repeat' first
    | with_reducible assumption
    | with_reducible exact List.Subset.trans (List.Sublist.subset (by decide)) hp
    | with_reducible refine State.changed_leads ?_ ?_
    | with_reducible refine State.relock_leads ?_ ?_
    | refine LeadsA.next ?_

theorem execKeyCmdInstall_leads {ps : List Part} {s₀ s : State} {box : ℕ} (hs : Leads ps s₀ s)
    (hp : [Part.freeCount, Part.ctr, Part.boxes, Part.protUnits, Part.sec] ⊆ ps) : LeadsA ps s₀ (execKeyCmdInstall box s) := by
  unfold execKeyCmdInstall
  repeat' first
    | with_reducible assumption
    | with_reducible refine State.keyInstall_leads ?_ ?_
    | with_reducible refine Leads.when ?_ ?_
    | refine LeadsA.next ?_

theorem execKeyCmdClear_leads {ps : List Part} {s₀ s : State} {box : ℕ} (hs : Leads ps s₀ s)
    (hp : [Part.boxes, Part.sec] ⊆ ps) : LeadsA ps s₀ (execKeyCmdClear box s) := by
  unfold execKeyCmdClear
  repeat' first
    | with_reducible assumption
    | with_reducible refine State.keyClear_leads ?_ ?_
    | with_reducible refine Leads.when ?_ ?_
    | refine LeadsA.next ?_

theorem execCensus_leads {ps : List Part} {s₀ s : State} {slot : ℕ} {box : ℕ} {alphabet : ℕ} {accum : Bool} {va : ℕ} {units : ℕ} (hs : Leads ps s₀ s)
    (hp : [Part.ctr, Part.cb] ⊆ ps) : LeadsA ps s₀ (execCensus slot box alphabet accum va units s) := by
  unfold execCensus
  repeat' first
    | with_reducible assumption
    | with_reducible refine State.census_leads ?_ ?_
    | with_reducible refine Leads.when ?_ ?_
    | refine LeadsA.next ?_

theorem execReplaceStaged_leads {ps : List Part} {s₀ s : State} {slot : ℕ} {box : ℕ} (hs : Leads ps s₀ s)
    (hp : [Part.cb] ⊆ ps) : LeadsA ps s₀ (execReplaceStaged slot box s) := by
  unfold execReplaceStaged
  repeat' first
    | with_reducible assumption
    | with_reducible refine State.replaceStaged_leads ?_ ?_
    | with_reducible refine Leads.when ?_ ?_
    | refine LeadsA.next ?_

theorem execReplaceImage_leads {ps : List Part} {s₀ s : State} {slot : ℕ} {box : ℕ} {va : ℕ} (hs : Leads ps s₀ s)
    (hp : [Part.cb] ⊆ ps) : LeadsA ps s₀ (execReplaceImage slot box va s) := by
  unfold execReplaceImage
  repeat' first
    | with_reducible assumption
    | with_reducible refine State.replaceImage_leads ?_ ?_
    | with_reducible refine Leads.when ?_ ?_
    | refine LeadsA.next ?_

theorem execRelease_leads {ps : List Part} {s₀ s : State} {slot : ℕ} {box : ℕ} (hs : Leads ps s₀ s)
    (hp : [Part.ctr, Part.cb] ⊆ ps) : LeadsA ps s₀ (execRelease slot box s) := by
  unfold execRelease
  repeat' first
    | with_reducible assumption
    | with_reducible refine State.cbRelease_leads ?_ ?_
    | with_reducible refine Leads.when ?_ ?_
    | refine LeadsA.next ?_

theorem execRestore_leads {ps : List Part} {s₀ s : State} {slot : ℕ} {box : ℕ} {gen : ℕ} {va : ℕ} (hs : Leads ps s₀ s)
    (hp : [Part.ctr, Part.cb] ⊆ ps) : LeadsA ps s₀ (execRestore slot box gen va s) := by
  unfold execRestore
  repeat' first
    | with_reducible assumption
    | with_reducible refine State.restore_leads ?_ ?_
    | with_reducible refine Leads.when ?_ ?_
    | refine LeadsA.next ?_

theorem execCodebookInstall_leads {ps : List Part} {s₀ s : State} {slot : ℕ} (hs : Leads ps s₀ s)
    (hp : [Part.outbox, Part.ctr, Part.cb, Part.host] ⊆ ps) : LeadsA ps s₀ (execCodebookInstall slot s) := by
  unfold execCodebookInstall
  repeat' first
    | with_reducible assumption
    | with_reducible exact List.Subset.trans (List.Sublist.subset (by decide)) hp
    | extract_lets
    | with_reducible refine State.bump_leads ?_ ?_
    | with_reducible refine State.modSlot_leads ?_ ?_
    | with_reducible refine State.cbEnd_leads ?_ ?_
    | with_reducible refine State.respond_leads ?_ ?_
    | with_reducible refine State.setHost_leads ?_ ?_
    | refine LeadsA.next ?_
    | rfl
    | split
    | with_reducible refine Leads.cb ?_ ?_ ?_

theorem execBoxEnable_leads {ps : List Part} {s₀ s : State} {box : ℕ} {session : ℕ} (hs : Leads ps s₀ s)
    (hp : [Part.outbox, Part.freeCount, Part.regs, Part.ctr, Part.boxes, Part.held, Part.fab, Part.links] ⊆ ps) : LeadsA ps s₀ (execBoxEnable box session s) := by
  unfold execBoxEnable
  repeat' first
    | with_reducible assumption
    | with_reducible refine State.enableBox_leads ?_ ?_
    | with_reducible refine Leads.when ?_ ?_
    | refine LeadsA.next ?_

theorem execBoxDisable_leads {ps : List Part} {s₀ s : State} {box : ℕ} (hs : Leads ps s₀ s)
    (hp : [Part.outbox, Part.freeCount, Part.regs, Part.ctr, Part.cores, Part.places, Part.groups, Part.pages, Part.arenaWait, Part.poolWait, Part.items, Part.boxes, Part.mem, Part.memPoison, Part.protUnits, Part.tier, Part.fab, Part.links] ⊆ ps) : LeadsA ps s₀ (execBoxDisable box s) := by
  unfold execBoxDisable
  repeat' first
    | with_reducible assumption
    | with_reducible exact List.Subset.trans (List.Sublist.subset (by decide)) hp
    | with_reducible refine State.boxCmdBad_leads ?_ ?_
    | with_reducible refine State.disableBox_leads ?_ ?_
    | refine LeadsA.next ?_
    | split

theorem execBoxDrainLimit_leads {ps : List Part} {s₀ s : State} {box : ℕ} (hs : Leads ps s₀ s)
    (hp : [Part.outbox, Part.freeCount, Part.time, Part.ctr, Part.cores, Part.places, Part.groups, Part.pages, Part.arenaWait, Part.poolWait, Part.items, Part.boxes, Part.mem, Part.memPoison, Part.protUnits, Part.tier, Part.fab, Part.links] ⊆ ps) : LeadsA ps s₀ (execBoxDrainLimit box s) := by
  unfold execBoxDrainLimit
  repeat' first
    | with_reducible assumption
    | with_reducible exact List.Subset.trans (List.Sublist.subset (by decide)) hp
    | extract_lets
    | with_reducible refine State.modBox_leads ?_ ?_
    | with_reducible refine State.failItem_leads ?_ ?_
    | (with_reducible refine Leads.foldl _ ?_ ?_; rotate_left; intro u x hu)
    | refine LeadsA.next ?_
    | split
    | with_reducible refine Leads.time ?_ ?_

theorem execBoxQuiesce_leads {ps : List Part} {s₀ s : State} {box : ℕ} (hs : Leads ps s₀ s)
    (hp : [Part.outbox, Part.freeCount, Part.regs, Part.ctr, Part.items, Part.boxes, Part.fab, Part.links] ⊆ ps) : LeadsA ps s₀ (execBoxQuiesce box s) := by
  unfold execBoxQuiesce
  repeat' first
    | with_reducible assumption
    | with_reducible exact List.Subset.trans (List.Sublist.subset (by decide)) hp
    | extract_lets
    | with_reducible refine State.changed_leads ?_ ?_
    | with_reducible refine State.modBox_leads ?_ ?_
    | with_reducible refine State.postHeld_leads ?_ ?_
    | with_reducible refine Leads.when ?_ ?_
    | refine LeadsA.next ?_

theorem execBoxRelease_leads {ps : List Part} {s₀ s : State} {box : ℕ} (hs : Leads ps s₀ s)
    (hp : [Part.regs, Part.ctr, Part.cores, Part.places, Part.groups, Part.pages, Part.mirrors, Part.items, Part.boxes, Part.held, Part.cb, Part.log, Part.sec] ⊆ ps) : LeadsA ps s₀ (execBoxRelease box s) := by
  unfold execBoxRelease
  repeat' first
    | with_reducible assumption
    | with_reducible exact List.Subset.trans (List.Sublist.subset (by decide)) hp
    | extract_lets
    | with_reducible refine State.changed_leads ?_ ?_
    | with_reducible refine State.modBox_leads ?_ ?_
    | with_reducible refine State.releaseBox_leads ?_ ?_
    | with_reducible refine Leads.when ?_ ?_
    | refine LeadsA.next ?_
    | split

theorem execRingEntryTake_leads {ps : List Part} {s₀ s : State} {box : ℕ} {ring : ℕ} (hs : Leads ps s₀ s)
    (hp : [Part.outbox, Part.freeCount, Part.ctr, Part.cores, Part.places, Part.groups, Part.pages, Part.arenaWait, Part.poolWait, Part.items, Part.nextItem, Part.boxes, Part.mem, Part.memPoison, Part.protUnits, Part.tier, Part.fab, Part.links, Part.host] ⊆ ps) : LeadsA ps s₀ (execRingEntryTake box ring s) := by
  unfold execRingEntryTake
  repeat' first
    | with_reducible assumption
    | with_reducible exact List.Subset.trans (List.Sublist.subset (by decide)) hp
    | extract_lets
    | with_reducible refine State.modBox_leads ?_ ?_
    | with_reducible refine State.takeSubmission_leads ?_ ?_
    | refine LeadsA.next ?_
    | split
    | with_reducible refine Leads.host ?_ ?_

end Sys2Proof.Machine
end

