-- ==== Sys2Proof/Laws/LeadsExecItem.lean ====
section
/-! SUPPORT. Every command of items, streams and the fabric completes, and the parts of the state that it may touch. -/

namespace Sys2Proof.Machine

theorem execStepCommit_leads {ps : List Part} {s₀ s : State} {id : ℕ} {k : ℕ} (hs : Leads ps s₀ s)
    (hp : [Part.outbox, Part.freeCount, Part.regs, Part.ctr, Part.cores, Part.places, Part.groups, Part.pages, Part.arenaWait, Part.poolWait, Part.items, Part.boxes, Part.mem, Part.memPoison, Part.protUnits, Part.tier, Part.fab, Part.links, Part.log] ⊆ ps) : LeadsA ps s₀ (execStepCommit id k s) := by
  unfold execStepCommit
  repeat' first
    | with_reducible assumption
    | with_reducible exact List.Subset.trans (List.Sublist.subset (by decide)) hp
    | with_reducible refine State.commitPrefill_leads ?_ ?_
    | with_reducible refine State.commitStep_leads ?_ ?_
    | refine LeadsA.next ?_
    | split

theorem execBoundaryCull_leads {ps : List Part} {s₀ s : State} {id : ℕ} (hs : Leads ps s₀ s)
    (hp : [Part.outbox, Part.freeCount, Part.ctr, Part.cores, Part.places, Part.pages, Part.arenaWait, Part.items, Part.mem, Part.memPoison, Part.protUnits, Part.tier, Part.fab, Part.links, Part.log] ⊆ ps) : LeadsA ps s₀ (execBoundaryCull id s) := by
  unfold execBoundaryCull
  repeat' first
    | with_reducible assumption
    | with_reducible refine State.boundaryCull_leads ?_ ?_
    | with_reducible refine Leads.when ?_ ?_
    | refine LeadsA.next ?_
    | split

theorem execOpenGroup_leads {ps : List Part} {s₀ s : State} {id : ℕ} (hs : Leads ps s₀ s)
    (hp : [Part.outbox, Part.freeCount, Part.ctr, Part.cores, Part.places, Part.groups, Part.pages, Part.arenaWait, Part.poolWait, Part.items, Part.boxes, Part.mem, Part.memPoison, Part.protUnits, Part.tier, Part.fab, Part.links, Part.log] ⊆ ps) : LeadsA ps s₀ (execOpenGroup id s) := by
  unfold execOpenGroup
  repeat' first
    | with_reducible assumption
    | with_reducible exact List.Subset.trans (List.Sublist.subset (by decide)) hp
    | with_reducible refine State.takeEffect_leads ?_ ?_ ?_
    | with_reducible refine State.openTry_leads ?_ ?_
    | refine LeadsA.next ?_
    | (intro (u : State) (i : Item) hu; try dsimp only)

theorem execFork_leads {ps : List Part} {s₀ s : State} {id : ℕ} (hs : Leads ps s₀ s)
    (hp : [Part.outbox, Part.freeCount, Part.ctr, Part.cores, Part.places, Part.groups, Part.pages, Part.arenaWait, Part.poolWait, Part.items, Part.boxes, Part.mem, Part.memPoison, Part.protUnits, Part.tier, Part.fab, Part.links, Part.log] ⊆ ps) : LeadsA ps s₀ (execFork id s) := by
  unfold execFork
  repeat' first
    | with_reducible assumption
    | with_reducible exact List.Subset.trans (List.Sublist.subset (by decide)) hp
    | with_reducible refine State.takeEffect_leads ?_ ?_ ?_
    | with_reducible refine State.forkTry_leads ?_ ?_
    | refine LeadsA.next ?_
    | (intro (u : State) (i : Item) hu; try dsimp only)

theorem execStep_leads {ps : List Part} {s₀ s : State} {id : ℕ} (hs : Leads ps s₀ s)
    (hp : [Part.outbox, Part.freeCount, Part.ctr, Part.cores, Part.places, Part.groups, Part.pages, Part.arenaWait, Part.poolWait, Part.items, Part.boxes, Part.mem, Part.memPoison, Part.protUnits, Part.tier, Part.fab, Part.links, Part.log] ⊆ ps) : LeadsA ps s₀ (execStep id s) := by
  unfold execStep
  repeat' first
    | with_reducible assumption
    | with_reducible exact List.Subset.trans (List.Sublist.subset (by decide)) hp
    | with_reducible refine State.takeEffect_leads ?_ ?_ ?_
    | with_reducible refine State.failItem_leads ?_ ?_
    | with_reducible refine State.eachEntry_leads ?_ ?_
    | with_reducible refine State.stepEntry_leads ?_ ?_
    | with_reducible refine Leads.ite ?_ ?_
    | refine LeadsA.next ?_
    | (intro (u : State) (i : Item) hu; try dsimp only)
    | (intro (u : State) (n : ℕ) (k : ℕ) hu; try dsimp only)

theorem execCull_leads {ps : List Part} {s₀ s : State} {id : ℕ} (hs : Leads ps s₀ s)
    (hp : [Part.outbox, Part.freeCount, Part.ctr, Part.cores, Part.places, Part.groups, Part.pages, Part.arenaWait, Part.poolWait, Part.items, Part.boxes, Part.mem, Part.memPoison, Part.protUnits, Part.tier, Part.fab, Part.links, Part.log] ⊆ ps) : LeadsA ps s₀ (execCull id s) := by
  unfold execCull
  repeat' first
    | with_reducible assumption
    | with_reducible exact List.Subset.trans (List.Sublist.subset (by decide)) hp
    | with_reducible refine State.takeEffect_leads ?_ ?_ ?_
    | with_reducible refine State.cullTry_leads ?_ ?_
    | refine LeadsA.next ?_
    | (intro (u : State) (i : Item) hu; try dsimp only)

theorem execEndStreams_leads {ps : List Part} {s₀ s : State} {id : ℕ} (hs : Leads ps s₀ s)
    (hp : [Part.outbox, Part.freeCount, Part.ctr, Part.cores, Part.places, Part.groups, Part.pages, Part.arenaWait, Part.poolWait, Part.items, Part.boxes, Part.mem, Part.memPoison, Part.protUnits, Part.tier, Part.fab, Part.links] ⊆ ps) : LeadsA ps s₀ (execEndStreams id s) := by
  unfold execEndStreams
  repeat' first
    | with_reducible assumption
    | with_reducible exact List.Subset.trans (List.Sublist.subset (by decide)) hp
    | with_reducible refine State.takeEffect_leads ?_ ?_ ?_
    | with_reducible refine State.endEntries_leads ?_ ?_
    | refine LeadsA.next ?_
    | (intro (u : State) (i : Item) hu; try dsimp only)

theorem execCloseGroup_leads {ps : List Part} {s₀ s : State} {id : ℕ} (hs : Leads ps s₀ s)
    (hp : [Part.outbox, Part.freeCount, Part.ctr, Part.cores, Part.places, Part.groups, Part.pages, Part.arenaWait, Part.poolWait, Part.items, Part.boxes, Part.mem, Part.memPoison, Part.protUnits, Part.tier, Part.fab, Part.links] ⊆ ps) : LeadsA ps s₀ (execCloseGroup id s) := by
  unfold execCloseGroup
  repeat' first
    | with_reducible assumption
    | with_reducible exact List.Subset.trans (List.Sublist.subset (by decide)) hp
    | with_reducible refine State.takeEffect_leads ?_ ?_ ?_
    | with_reducible refine State.endOp_leads ?_ ?_
    | with_reducible refine State.releaseGroup_leads ?_ ?_
    | with_reducible refine State.failItem_leads ?_ ?_
    | refine LeadsA.next ?_
    | split
    | (intro (u : State) (i : Item) hu; try dsimp only)

theorem execPark_leads {ps : List Part} {s₀ s : State} {id : ℕ} (hs : Leads ps s₀ s)
    (hp : [Part.outbox, Part.freeCount, Part.ctr, Part.cores, Part.places, Part.groups, Part.pages, Part.arenaWait, Part.poolWait, Part.items, Part.boxes, Part.mem, Part.memPoison, Part.protUnits, Part.tier, Part.fab, Part.links, Part.log] ⊆ ps) : LeadsA ps s₀ (execPark id s) := by
  unfold execPark
  repeat' first
    | with_reducible assumption
    | with_reducible exact List.Subset.trans (List.Sublist.subset (by decide)) hp
    | with_reducible refine State.takeEffect_leads ?_ ?_ ?_
    | with_reducible refine State.eachEntry_leads ?_ ?_
    | with_reducible refine State.parkEntry_leads ?_ ?_
    | refine LeadsA.next ?_
    | (intro (u : State) (i : Item) hu; try dsimp only)
    | (intro (u : State) (n : ℕ) (k : ℕ) hu; try dsimp only)

theorem execRecall_leads {ps : List Part} {s₀ s : State} {id : ℕ} (hs : Leads ps s₀ s)
    (hp : [Part.outbox, Part.freeCount, Part.ctr, Part.cores, Part.places, Part.groups, Part.pages, Part.arenaWait, Part.poolWait, Part.items, Part.boxes, Part.mem, Part.memPoison, Part.protUnits, Part.tier, Part.fab, Part.links, Part.log] ⊆ ps) : LeadsA ps s₀ (execRecall id s) := by
  unfold execRecall
  repeat' first
    | with_reducible assumption
    | with_reducible exact List.Subset.trans (List.Sublist.subset (by decide)) hp
    | with_reducible refine State.takeEffect_leads ?_ ?_ ?_
    | with_reducible refine State.eachEntry_leads ?_ ?_
    | with_reducible refine State.recallEntry_leads ?_ ?_
    | refine LeadsA.next ?_
    | (intro (u : State) (i : Item) hu; try dsimp only)
    | (intro (u : State) (n : ℕ) (k : ℕ) hu; try dsimp only)

theorem execBackward_leads {ps : List Part} {s₀ s : State} {id : ℕ} (hs : Leads ps s₀ s)
    (hp : [Part.outbox, Part.freeCount, Part.ctr, Part.cores, Part.places, Part.groups, Part.pages, Part.arenaWait, Part.poolWait, Part.items, Part.boxes, Part.mem, Part.memPoison, Part.protUnits, Part.tier, Part.fab, Part.links] ⊆ ps) : LeadsA ps s₀ (execBackward id s) := by
  unfold execBackward
  repeat' first
    | with_reducible assumption
    | with_reducible exact List.Subset.trans (List.Sublist.subset (by decide)) hp
    | with_reducible refine State.takeEffect_leads ?_ ?_ ?_
    | with_reducible refine State.failItem_leads ?_ ?_
    | with_reducible refine State.modItem_leads ?_ ?_
    | with_reducible refine Leads.ite ?_ ?_
    | refine LeadsA.next ?_
    | (intro (u : State) (i : Item) hu; try dsimp only)

theorem execKernel_leads {ps : List Part} {s₀ s : State} {id : ℕ} (hs : Leads ps s₀ s)
    (hp : [Part.outbox, Part.freeCount, Part.ctr, Part.cores, Part.places, Part.groups, Part.pages, Part.arenaWait, Part.poolWait, Part.items, Part.boxes, Part.mem, Part.memPoison, Part.protUnits, Part.tier, Part.fab, Part.links] ⊆ ps) : LeadsA ps s₀ (execKernel id s) := by
  unfold execKernel
  repeat' first
    | with_reducible assumption
    | with_reducible exact List.Subset.trans (List.Sublist.subset (by decide)) hp
    | with_reducible refine State.takeEffect_leads ?_ ?_ ?_
    | with_reducible refine State.modItem_leads ?_ ?_
    | refine LeadsA.next ?_
    | (intro (u : State) (i : Item) hu; try dsimp only)

theorem execSync_leads {ps : List Part} {s₀ s : State} {id : ℕ} (hs : Leads ps s₀ s)
    (hp : [Part.outbox, Part.freeCount, Part.ctr, Part.cores, Part.places, Part.groups, Part.pages, Part.arenaWait, Part.poolWait, Part.items, Part.boxes, Part.mem, Part.memPoison, Part.protUnits, Part.tier, Part.fab, Part.links] ⊆ ps) : LeadsA ps s₀ (execSync id s) := by
  unfold execSync
  repeat' first
    | with_reducible assumption
    | with_reducible exact List.Subset.trans (List.Sublist.subset (by decide)) hp
    | with_reducible refine State.takeEffect_leads ?_ ?_ ?_
    | with_reducible refine State.endOp_leads ?_ ?_
    | refine LeadsA.next ?_
    | (intro (u : State) (i : Item) hu; try dsimp only)

theorem execDeadlineReached_leads {ps : List Part} {s₀ s : State} {id : ℕ} (hs : Leads ps s₀ s)
    (hp : [Part.outbox, Part.freeCount, Part.time, Part.ctr, Part.cores, Part.places, Part.groups, Part.pages, Part.arenaWait, Part.poolWait, Part.items, Part.boxes, Part.mem, Part.memPoison, Part.protUnits, Part.tier, Part.fab, Part.links] ⊆ ps) : LeadsA ps s₀ (execDeadlineReached id s) := by
  unfold execDeadlineReached
  repeat' first
    | with_reducible assumption
    | with_reducible exact List.Subset.trans (List.Sublist.subset (by decide)) hp
    | extract_lets
    | with_reducible refine State.modItem_leads ?_ ?_
    | with_reducible refine State.failItem_leads ?_ ?_
    | with_reducible refine State.bump_leads ?_ ?_
    | with_reducible refine Leads.when ?_ ?_
    | refine LeadsA.next ?_
    | split
    | with_reducible refine Leads.time ?_ ?_

theorem execOutboundMoveDone_leads {ps : List Part} {s₀ s : State} {stream : ℕ} (hs : Leads ps s₀ s)
    (hp : [Part.outbox, Part.freeCount, Part.ctr, Part.cores, Part.places, Part.groups, Part.pages, Part.arenaWait, Part.poolWait, Part.items, Part.boxes, Part.mem, Part.memPoison, Part.protUnits, Part.tier, Part.fab, Part.links, Part.log] ⊆ ps) : LeadsA ps s₀ (execOutboundMoveDone stream s) := by
  unfold execOutboundMoveDone
  repeat' first
    | with_reducible assumption
    | with_reducible exact List.Subset.trans (List.Sublist.subset (by decide)) hp
    | extract_lets
    | with_reducible refine State.modPlace_leads ?_ ?_
    | with_reducible refine State.bump_leads ?_ ?_
    | with_reducible refine State.flushLab_leads ?_ ?_
    | with_reducible refine State.advanceAll_leads ?_ ?_
    | refine LeadsA.next ?_
    | split

theorem execInboundMoveDone_leads {ps : List Part} {s₀ s : State} {stream : ℕ} (hs : Leads ps s₀ s)
    (hp : [Part.outbox, Part.freeCount, Part.ctr, Part.cores, Part.places, Part.groups, Part.pages, Part.arenaWait, Part.poolWait, Part.items, Part.boxes, Part.mem, Part.memPoison, Part.protUnits, Part.tier, Part.fab, Part.links, Part.log] ⊆ ps) : LeadsA ps s₀ (execInboundMoveDone stream s) := by
  unfold execInboundMoveDone
  dsimp only
  repeat' first
    | with_reducible assumption
    | with_reducible exact List.Subset.trans (List.Sublist.subset (by decide)) hp
    | with_reducible refine State.bump_leads ?_ ?_
    | with_reducible refine State.modPlace_leads ?_ ?_
    | with_reducible refine State.headerFailed_leads ?_ ?_
    | with_reducible refine State.failWaiters_leads ?_ ?_
    | with_reducible refine State.advanceAll_leads ?_ ?_
    | with_reducible refine Leads.ite ?_ ?_
    | refine LeadsA.next ?_
    | split

theorem execArenaWaitResume_leads {ps : List Part} {s₀ s : State} {box : ℕ} (hs : Leads ps s₀ s)
    (hp : [Part.outbox, Part.freeCount, Part.ctr, Part.cores, Part.places, Part.groups, Part.pages, Part.arenaWait, Part.poolWait, Part.items, Part.boxes, Part.mem, Part.memPoison, Part.protUnits, Part.tier, Part.fab, Part.links, Part.log] ⊆ ps) : LeadsA ps s₀ (execArenaWaitResume box s) := by
  unfold execArenaWaitResume
  repeat' first
    | with_reducible assumption
    | with_reducible refine State.advanceItem_leads ?_ ?_
    | refine LeadsA.next ?_
    | split

theorem execMirrorAck_leads {ps : List Part} {s₀ s : State} {stream : ℕ} (hs : Leads ps s₀ s)
    (hp : [Part.outbox, Part.freeCount, Part.ctr, Part.places, Part.items, Part.boxes, Part.fab, Part.links] ⊆ ps) : LeadsA ps s₀ (execMirrorAck stream s) := by
  unfold execMirrorAck
  repeat' first
    | with_reducible assumption
    | with_reducible exact List.Subset.trans (List.Sublist.subset (by decide)) hp
    | with_reducible refine State.releaseMirror_leads ?_ ?_
    | with_reducible refine State.modPlace_leads ?_ ?_
    | with_reducible refine Leads.when ?_ ?_
    | refine LeadsA.next ?_
    | split

theorem execMirrorTimeout_leads {ps : List Part} {s₀ s : State} {stream : ℕ} (hs : Leads ps s₀ s)
    (hp : [Part.outbox, Part.freeCount, Part.time, Part.ctr, Part.places, Part.items, Part.boxes, Part.fab, Part.links, Part.log] ⊆ ps) : LeadsA ps s₀ (execMirrorTimeout stream s) := by
  unfold execMirrorTimeout
  repeat' first
    | with_reducible assumption
    | with_reducible exact List.Subset.trans (List.Sublist.subset (by decide)) hp
    | extract_lets
    | with_reducible refine State.modPlace_leads ?_ ?_
    | with_reducible refine State.event_leads ?_ ?_
    | with_reducible refine State.bump_leads ?_ ?_
    | with_reducible refine State.releaseMirror_leads ?_ ?_
    | refine LeadsA.next ?_
    | split
    | with_reducible refine Leads.time ?_ ?_

theorem execMirrorResync_leads {ps : List Part} {s₀ s : State} {stream : ℕ} (hs : Leads ps s₀ s)
    (hp : [Part.outbox, Part.freeCount, Part.ctr, Part.places, Part.pages, Part.fab, Part.links] ⊆ ps) : LeadsA ps s₀ (execMirrorResync stream s) := by
  unfold execMirrorResync
  repeat' first
    | with_reducible assumption
    | with_reducible refine State.emitMirror_leads ?_ ?_
    | with_reducible refine Leads.when ?_ ?_
    | refine LeadsA.next ?_
    | split

theorem execAdoption_leads {ps : List Part} {s₀ s : State} {pos : ℕ} (hs : Leads ps s₀ s)
    (hp : [Part.freeCount, Part.places, Part.groups, Part.pages, Part.mirrors, Part.mirrorPages] ⊆ ps) : LeadsA ps s₀ (execAdoption pos s) := by
  unfold execAdoption
  repeat' first
    | with_reducible assumption
    | with_reducible refine State.adopt_leads ?_ ?_
    | with_reducible refine Leads.when ?_ ?_
    | refine LeadsA.next ?_

theorem execInstancePlace_leads {ps : List Part} {s₀ s : State} {id : ℕ} {k : ℕ} (hs : Leads ps s₀ s)
    (hp : [Part.outbox, Part.freeCount, Part.ctr, Part.cores, Part.places, Part.groups, Part.pages, Part.arenaWait, Part.poolWait, Part.items, Part.gang, Part.boxes, Part.mem, Part.memPoison, Part.protUnits, Part.tier, Part.fab, Part.links] ⊆ ps) : LeadsA ps s₀ (execInstancePlace id k s) := by
  unfold execInstancePlace
  repeat' first
    | with_reducible assumption
    | with_reducible exact List.Subset.trans (List.Sublist.subset (by decide)) hp
    | with_reducible refine State.placeChain_leads ?_ ?_
    | with_reducible refine State.placeNext_leads ?_ ?_
    | refine LeadsA.next ?_
    | split

theorem execInstanceStart_leads {ps : List Part} {s₀ s : State} {core : ℕ} (hs : Leads ps s₀ s)
    (hp : [Part.freeCount, Part.regs, Part.ctr, Part.cores, Part.places, Part.pages, Part.arenaWait, Part.items, Part.boxes, Part.log] ⊆ ps) : LeadsA ps s₀ (execInstanceStart core s) := by
  unfold execInstanceStart
  repeat' first
    | with_reducible assumption
    | with_reducible refine State.startInst_leads ?_ ?_
    | refine LeadsA.next ?_
    | split

theorem execInstanceEnd_leads {ps : List Part} {s₀ s : State} {core : ℕ} (hs : Leads ps s₀ s)
    (hp : [Part.freeCount, Part.regs, Part.ctr, Part.cores, Part.places, Part.pages, Part.arenaWait, Part.poolWait, Part.items, Part.boxes, Part.mem, Part.memPoison, Part.protUnits, Part.dies, Part.tier, Part.log] ⊆ ps) : LeadsA ps s₀ (execInstanceEnd core s) := by
  unfold execInstanceEnd
  split
  · exact LeadsA.next hs
  · extract_lets +onlyGivenNames u
    have hu : Leads ps s₀ u := State.runUnits_leads hs (List.Subset.trans (List.Sublist.subset (by decide)) hp)
    split
    · exact LeadsA.next hu
    · have hw := State.writeOutAll_leads (c := core) (n := 33) hu (List.Subset.trans (List.Sublist.subset (by decide)) hp)
      generalize State.writeOutAll 33 u core = r at hw
      cases r with
      | wait v => exact LeadsA.next hw
      | fail v f => exact LeadsA.next (State.failRun_leads hw (List.Subset.trans (List.Sublist.subset (by decide)) hp))
      | done v =>
        dsimp only
        split
        · exact LeadsA.next hw
        · split
          · exact LeadsA.next (State.failRun_leads hw (List.Subset.trans (List.Sublist.subset (by decide)) hp))
          · exact LeadsA.next (State.instanceDone_leads (State.changed_leads (State.modCore_leads (State.bump_leads
              (State.chargeRun_leads hw (List.Subset.trans (List.Sublist.subset (by decide)) hp)) (List.Subset.trans (List.Sublist.subset (by decide)) hp)) (List.Subset.trans (List.Sublist.subset (by decide)) hp) (fun _ h => Core.shape_clearRun h)) (List.Subset.trans (List.Sublist.subset (by decide)) hp)) (List.Subset.trans (List.Sublist.subset (by decide)) hp))

theorem execInstanceSteal_leads {ps : List Part} {s₀ s : State} {core : ℕ} (hs : Leads ps s₀ s)
    (hp : [Part.ctr, Part.cores] ⊆ ps) : LeadsA ps s₀ (execInstanceSteal core s) := by
  unfold execInstanceSteal
  repeat' first
    | with_reducible assumption
    | with_reducible exact List.Subset.trans (List.Sublist.subset (by decide)) hp
    | extract_lets
    | with_reducible refine State.modCore_leads ?_ ?_ ?_
    | with_reducible refine State.bump_leads ?_ ?_
    | refine LeadsA.next ?_
    | exact fun _ h => h
    | split

theorem execKernelWatchdog_leads {ps : List Part} {s₀ s : State} {core : ℕ} (hs : Leads ps s₀ s)
    (hp : [Part.outbox, Part.freeCount, Part.time, Part.ctr, Part.cores, Part.places, Part.groups, Part.pages, Part.arenaWait, Part.poolWait, Part.items, Part.boxes, Part.mem, Part.memPoison, Part.protUnits, Part.tier, Part.fab, Part.links] ⊆ ps) : LeadsA ps s₀ (execKernelWatchdog core s) := by
  unfold execKernelWatchdog
  repeat' first
    | with_reducible assumption
    | with_reducible exact List.Subset.trans (List.Sublist.subset (by decide)) hp
    | extract_lets
    | with_reducible refine State.failItem_leads ?_ ?_
    | with_reducible refine State.bump_leads ?_ ?_
    | refine LeadsA.next ?_
    | split
    | with_reducible refine Leads.time ?_ ?_

theorem execLinkDetect_leads {ps : List Part} {s₀ s : State} {port : ℕ} {d0 : ℕ} {d1 : ℕ} {d2 : ℕ} {d3 : ℕ} (hs : Leads ps s₀ s)
    (hp : [Part.outbox, Part.freeCount, Part.regs, Part.ctr, Part.fab, Part.links] ⊆ ps) : LeadsA ps s₀ (execLinkDetect port d0 d1 d2 d3 s) := by
  unfold execLinkDetect
  repeat' first
    | with_reducible assumption
    | extract_lets
    | with_reducible refine State.moveLink_leads ?_ ?_
    | with_reducible refine Leads.when ?_ ?_
    | refine LeadsA.next ?_

theorem execLinkTrainDone_leads {ps : List Part} {s₀ s : State} {port : ℕ} {farPos : ℕ} {farPort : ℕ} {farStepping : ℕ} {polarity : Bool} {reversed : Bool} (hs : Leads ps s₀ s)
    (hp : [Part.outbox, Part.freeCount, Part.regs, Part.ctr, Part.fab, Part.links, Part.log] ⊆ ps) : LeadsA ps s₀ (execLinkTrainDone port farPos farPort farStepping polarity reversed s) := by
  unfold execLinkTrainDone
  repeat' first
    | with_reducible assumption
    | with_reducible exact List.Subset.trans (List.Sublist.subset (by decide)) hp
    | extract_lets
    | with_reducible refine State.moveLink_leads ?_ ?_
    | with_reducible refine State.event_leads ?_ ?_
    | with_reducible refine Leads.when ?_ ?_
    | refine LeadsA.next ?_
    | split

theorem execLinkNegotiate_leads {ps : List Part} {s₀ s : State} {port : ℕ} {farVersion : ℕ} (hs : Leads ps s₀ s)
    (hp : [Part.outbox, Part.freeCount, Part.regs, Part.ctr, Part.fab, Part.links] ⊆ ps) : LeadsA ps s₀ (execLinkNegotiate port farVersion s) := by
  unfold execLinkNegotiate
  repeat' first
    | with_reducible assumption
    | with_reducible exact List.Subset.trans (List.Sublist.subset (by decide)) hp
    | extract_lets
    | with_reducible refine State.linkGoal_leads ?_ ?_
    | with_reducible refine State.moveLink_leads ?_ ?_
    | with_reducible refine State.releaseWaiting_leads ?_ ?_
    | with_reducible refine State.pumpPort_leads ?_ ?_
    | refine LeadsA.next ?_
    | split

theorem execLinkRetrain_leads {ps : List Part} {s₀ s : State} {port : ℕ} {reason : ℕ} (hs : Leads ps s₀ s)
    (hp : [Part.outbox, Part.freeCount, Part.regs, Part.ctr, Part.fab, Part.links, Part.log] ⊆ ps) : LeadsA ps s₀ (execLinkRetrain port reason s) := by
  unfold execLinkRetrain
  repeat' first
    | with_reducible assumption
    | extract_lets
    | with_reducible refine State.leaveUp_leads ?_ ?_
    | with_reducible refine Leads.when ?_ ?_
    | refine LeadsA.next ?_

theorem execRetrain_leads {ps : List Part} {s₀ s : State} {port : ℕ} (hs : Leads ps s₀ s)
    (hp : [Part.outbox, Part.freeCount, Part.regs, Part.ctr, Part.fab, Part.links, Part.log] ⊆ ps) : LeadsA ps s₀ (execRetrain port s) := by
  unfold execRetrain
  repeat' first
    | with_reducible assumption
    | with_reducible refine State.retrainPort_leads ?_ ?_
    | with_reducible refine Leads.when ?_ ?_
    | refine LeadsA.next ?_

theorem execRetrainTimeout_leads {ps : List Part} {s₀ s : State} {port : ℕ} (hs : Leads ps s₀ s)
    (hp : [Part.outbox, Part.freeCount, Part.regs, Part.ctr, Part.fab, Part.links] ⊆ ps) : LeadsA ps s₀ (execRetrainTimeout port s) := by
  unfold execRetrainTimeout
  repeat' first
    | with_reducible assumption
    | with_reducible refine State.moveLink_leads ?_ ?_
    | with_reducible refine Leads.when ?_ ?_
    | refine LeadsA.next ?_

theorem execLinkDownRetry_leads {ps : List Part} {s₀ s : State} {port : ℕ} (hs : Leads ps s₀ s)
    (hp : [Part.outbox, Part.freeCount, Part.regs, Part.ctr, Part.fab, Part.links] ⊆ ps) : LeadsA ps s₀ (execLinkDownRetry port s) := by
  unfold execLinkDownRetry
  repeat' first
    | with_reducible assumption
    | with_reducible refine State.moveLink_leads ?_ ?_
    | with_reducible refine Leads.when ?_ ?_
    | refine LeadsA.next ?_

theorem execLinkEnableWrite_leads {ps : List Part} {s₀ s : State} {port : ℕ} {on : Bool} (hs : Leads ps s₀ s)
    (hp : [Part.outbox, Part.freeCount, Part.regs, Part.ctr, Part.fab, Part.links, Part.log] ⊆ ps) : LeadsA ps s₀ (execLinkEnableWrite port on s) := by
  unfold execLinkEnableWrite
  repeat' first
    | with_reducible assumption
    | with_reducible refine State.enableLink_leads ?_ ?_
    | with_reducible refine Leads.when ?_ ?_
    | refine LeadsA.next ?_

theorem execLinkCtrlPacket_leads {ps : List Part} {s₀ s : State} {port : ℕ} {msg : LinkCtrl} (hs : Leads ps s₀ s)
    (hp : [Part.outbox, Part.freeCount, Part.regs, Part.ctr, Part.fab, Part.links, Part.log] ⊆ ps) : LeadsA ps s₀ (execLinkCtrlPacket port msg s) := by
  unfold execLinkCtrlPacket
  repeat' first
    | with_reducible assumption
    | with_reducible exact List.Subset.trans (List.Sublist.subset (by decide)) hp
    | extract_lets
    | with_reducible refine State.pumpPort_leads ?_ ?_
    | with_reducible refine State.modLink_leads ?_ ?_
    | with_reducible refine State.replayPort_leads ?_ ?_
    | with_reducible refine State.leaveUp_leads ?_ ?_
    | with_reducible refine Leads.when ?_ ?_
    | refine LeadsA.next ?_
    | split

theorem execFenceSend_leads {ps : List Part} {s₀ s : State} {port : ℕ} (hs : Leads ps s₀ s)
    (hp : [Part.outbox] ⊆ ps) : LeadsA ps s₀ (execFenceSend port s) := by
  unfold execFenceSend
  repeat' first
    | with_reducible assumption
    | with_reducible refine State.emit_leads ?_ ?_
    | with_reducible refine Leads.when ?_ ?_
    | refine LeadsA.next ?_

theorem execItem_leads {ps : List Part} {s₀ s : State} {hdr : PktHdr} {box : ℕ} {ring : ℕ} {count : ℕ} {desc : List Byte} (hs : Leads ps s₀ s)
    (hp : [Part.outbox, Part.freeCount, Part.regs, Part.ctr, Part.cores, Part.places, Part.groups, Part.pages, Part.mirrors, Part.mirrorPages, Part.arenaWait, Part.poolWait, Part.items, Part.nextItem, Part.boxes, Part.mem, Part.memPoison, Part.protUnits, Part.tier, Part.fab, Part.links, Part.log, Part.fw, Part.sec] ⊆ ps) : LeadsA ps s₀ (execItem hdr box ring count desc s) := by
  unfold execItem
  repeat' first
    | with_reducible assumption
    | with_reducible refine State.receiveMsg_leads ?_ ?_
    | refine LeadsA.next ?_

theorem execResult_leads {ps : List Part} {s₀ s : State} {hdr : PktHdr} {box : ℕ} {tag : W64} {failed : Bool} {entry : List Byte} (hs : Leads ps s₀ s)
    (hp : [Part.outbox, Part.freeCount, Part.regs, Part.ctr, Part.cores, Part.places, Part.groups, Part.pages, Part.mirrors, Part.mirrorPages, Part.arenaWait, Part.poolWait, Part.items, Part.nextItem, Part.boxes, Part.mem, Part.memPoison, Part.protUnits, Part.tier, Part.fab, Part.links, Part.log, Part.fw, Part.sec] ⊆ ps) : LeadsA ps s₀ (execResult hdr box tag failed entry s) := by
  unfold execResult
  repeat' first
    | with_reducible assumption
    | with_reducible refine State.receiveMsg_leads ?_ ?_
    | refine LeadsA.next ?_

theorem execBulk_leads {ps : List Part} {s₀ s : State} {hdr : PktHdr} {msg : BulkMsg} (hs : Leads ps s₀ s)
    (hp : [Part.outbox, Part.freeCount, Part.regs, Part.ctr, Part.cores, Part.places, Part.groups, Part.pages, Part.mirrors, Part.mirrorPages, Part.arenaWait, Part.poolWait, Part.items, Part.nextItem, Part.boxes, Part.mem, Part.memPoison, Part.protUnits, Part.tier, Part.fab, Part.links, Part.log, Part.fw, Part.sec] ⊆ ps) : LeadsA ps s₀ (execBulk hdr msg s) := by
  unfold execBulk
  repeat' first
    | with_reducible assumption
    | with_reducible exact List.Subset.trans (List.Sublist.subset (by decide)) hp
    | with_reducible refine State.relayedImage_leads ?_ ?_
    | with_reducible refine State.receiveMsg_leads ?_ ?_
    | refine LeadsA.next ?_
    | split

theorem execMsgAck_leads {ps : List Part} {s₀ s : State} {hdr : PktHdr} {cls : ℕ} (hs : Leads ps s₀ s)
    (hp : [Part.outbox, Part.ctr, Part.fab, Part.links, Part.log] ⊆ ps) : LeadsA ps s₀ (execMsgAck hdr cls s) := by
  unfold execMsgAck
  repeat' first
    | with_reducible assumption
    | with_reducible exact List.Subset.trans (List.Sublist.subset (by decide)) hp
    | with_reducible refine State.receiveRouted_leads ?_ ?_ ?_
    | with_reducible refine State.setFab_leads ?_ ?_
    | refine LeadsA.next ?_
    | (intro (u : State) hu; try dsimp only)

theorem execTimeSync_leads {ps : List Part} {s₀ s : State} {port : ℕ} {parentState : ℕ} {offsetNs : ℤ} (hs : Leads ps s₀ s)
    (hp : [Part.time, Part.regs, Part.ctr, Part.cores, Part.boxes, Part.hbm, Part.fab, Part.log, Part.fw, Part.pwr] ⊆ ps) : LeadsA ps s₀ (execTimeSync port parentState offsetNs s) := by
  unfold execTimeSync
  repeat' first
    | with_reducible assumption
    | with_reducible exact List.Subset.trans (List.Sublist.subset (by decide)) hp
    | extract_lets
    | with_reducible refine State.setFab_leads ?_ ?_
    | with_reducible refine State.noteOffset_leads ?_ ?_
    | with_reducible refine State.setTime_leads ?_ ?_
    | with_reducible refine State.slewTo_leads ?_ ?_
    | with_reducible refine State.stepForward_leads ?_ ?_
    | with_reducible refine State.timeState_leads ?_ ?_
    | with_reducible refine Leads.ite ?_ ?_
    | refine LeadsA.next ?_
    | split

theorem execRouteChange_leads {ps : List Part} {s₀ s : State}  (hs : Leads ps s₀ s)
    (hp : [Part.outbox, Part.freeCount, Part.ctr, Part.fab, Part.links] ⊆ ps) : LeadsA ps s₀ (execRouteChange s) := by
  unfold execRouteChange
  repeat' first
    | with_reducible assumption
    | with_reducible refine State.startRoutes_leads ?_ ?_
    | with_reducible refine Leads.when ?_ ?_
    | refine LeadsA.next ?_

theorem execRecomputeRoutes_leads {ps : List Part} {s₀ s : State}  (hs : Leads ps s₀ s)
    (hp : [Part.outbox, Part.freeCount, Part.regs, Part.ctr, Part.fab, Part.links] ⊆ ps) : LeadsA ps s₀ (execRecomputeRoutes s) := by
  unfold execRecomputeRoutes
  repeat' first
    | with_reducible assumption
    | with_reducible refine State.recompute_leads ?_ ?_
    | refine LeadsA.next ?_

theorem execRouteTablesInstall_leads {ps : List Part} {s₀ s : State} {gen : ℕ} {routes : List ℕ} (hs : Leads ps s₀ s)
    (hp : [Part.outbox, Part.freeCount, Part.ctr, Part.fab, Part.links] ⊆ ps) : LeadsA ps s₀ (execRouteTablesInstall gen routes s) := by
  unfold execRouteTablesInstall
  repeat' first
    | with_reducible assumption
    | with_reducible refine State.takeTables_leads ?_ ?_
    | refine LeadsA.next ?_

theorem execRouteGo_leads {ps : List Part} {s₀ s : State} {gen : ℕ} (hs : Leads ps s₀ s)
    (hp : [Part.outbox, Part.freeCount, Part.ctr, Part.fab, Part.links] ⊆ ps) : LeadsA ps s₀ (execRouteGo gen s) := by
  unfold execRouteGo
  repeat' first
    | with_reducible assumption
    | with_reducible refine State.routeGo_leads ?_ ?_
    | with_reducible refine State.floodMsg_leads ?_ ?_
    | with_reducible refine Leads.when ?_ ?_
    | refine LeadsA.next ?_
    | split

theorem execRouteWaitDiscard_leads {ps : List Part} {s₀ s : State} {dir : ℕ} (hs : Leads ps s₀ s)
    (hp : [Part.ctr, Part.fab] ⊆ ps) : LeadsA ps s₀ (execRouteWaitDiscard dir s) := by
  unfold execRouteWaitDiscard
  repeat' first
    | with_reducible assumption
    | with_reducible exact List.Subset.trans (List.Sublist.subset (by decide)) hp
    | with_reducible refine State.bump_leads ?_ ?_
    | with_reducible refine State.setFab_leads ?_ ?_
    | with_reducible refine Leads.when ?_ ?_
    | refine LeadsA.next ?_
    | split

theorem execFence_leads {ps : List Part} {s₀ s : State} {port : ℕ} {epoch : ℕ} (hs : Leads ps s₀ s)
    (hp : [Part.pins, Part.time, Part.regs, Part.ctr, Part.cores, Part.places, Part.groups, Part.pages, Part.mirrors, Part.mirrorPages, Part.arenaWait, Part.poolWait, Part.items, Part.nextItem, Part.gang, Part.boxes, Part.mem, Part.memPoison, Part.protUnits, Part.hbm, Part.dies, Part.held, Part.tier, Part.cb, Part.fab, Part.links, Part.host, Part.log, Part.fw, Part.sec, Part.pwr, Part.test, Part.side] ⊆ ps) : LeadsA ps s₀ (execFence port epoch s) := by
  unfold execFence
  repeat' first
    | with_reducible assumption
    | extract_lets
    | with_reducible refine State.selfFence_leads ?_ ?_
    | with_reducible refine Leads.when ?_ ?_
    | refine LeadsA.next ?_

theorem execDeclareDead_leads {ps : List Part} {s₀ s : State} {pos : ℕ} {reason : DeadReason} (hs : Leads ps s₀ s)
    (hp : [Part.outbox, Part.freeCount, Part.regs, Part.ctr, Part.cores, Part.places, Part.groups, Part.pages, Part.mirrors, Part.mirrorPages, Part.arenaWait, Part.poolWait, Part.items, Part.boxes, Part.mem, Part.memPoison, Part.protUnits, Part.tier, Part.fab, Part.links, Part.log] ⊆ ps) : LeadsA ps s₀ (execDeclareDead pos reason s) := by
  unfold execDeclareDead
  repeat' first
    | with_reducible assumption
    | with_reducible refine State.declare_leads ?_ ?_
    | with_reducible refine Leads.when ?_ ?_
    | refine LeadsA.next ?_

theorem execFabCmdDeclareDead_leads {ps : List Part} {s₀ s : State} {pos : ℕ} (hs : Leads ps s₀ s)
    (hp : [Part.outbox, Part.freeCount, Part.regs, Part.ctr, Part.cores, Part.places, Part.groups, Part.pages, Part.mirrors, Part.mirrorPages, Part.arenaWait, Part.poolWait, Part.items, Part.boxes, Part.mem, Part.memPoison, Part.protUnits, Part.tier, Part.fab, Part.links, Part.log] ⊆ ps) : LeadsA ps s₀ (execFabCmdDeclareDead pos s) := by
  unfold execFabCmdDeclareDead
  repeat' first
    | with_reducible assumption
    | with_reducible refine State.cmdDeclare_leads ?_ ?_
    | refine LeadsA.next ?_

theorem execClearBar_leads {ps : List Part} {s₀ s : State} {pos : ℕ} (hs : Leads ps s₀ s)
    (hp : [Part.regs, Part.fab] ⊆ ps) : LeadsA ps s₀ (execClearBar pos s) := by
  unfold execClearBar
  repeat' first
    | with_reducible assumption
    | with_reducible refine State.cmdClearBar_leads ?_ ?_
    | refine LeadsA.next ?_

theorem execHeartbeatMiss_leads {ps : List Part} {s₀ s : State} {pos : ℕ} (hs : Leads ps s₀ s)
    (hp : [Part.outbox, Part.freeCount, Part.time, Part.regs, Part.ctr, Part.cores, Part.places, Part.groups, Part.pages, Part.mirrors, Part.mirrorPages, Part.arenaWait, Part.poolWait, Part.items, Part.boxes, Part.mem, Part.memPoison, Part.protUnits, Part.tier, Part.fab, Part.links, Part.log] ⊆ ps) : LeadsA ps s₀ (execHeartbeatMiss pos s) := by
  unfold execHeartbeatMiss
  repeat' first
    | with_reducible assumption
    | with_reducible exact List.Subset.trans (List.Sublist.subset (by decide)) hp
    | extract_lets
    | with_reducible refine State.setTime_leads ?_ ?_
    | with_reducible refine State.declare_leads ?_ ?_
    | with_reducible refine State.setFab_leads ?_ ?_
    | with_reducible refine Leads.when ?_ ?_
    | refine LeadsA.next ?_
    | split

theorem execHeartbeatSend_leads {ps : List Part} {s₀ s : State}  (hs : Leads ps s₀ s)
    (hp : [Part.outbox, Part.freeCount, Part.time, Part.ctr, Part.fab, Part.links] ⊆ ps) : LeadsA ps s₀ (execHeartbeatSend s) := by
  unfold execHeartbeatSend
  repeat' first
    | with_reducible assumption
    | with_reducible exact List.Subset.trans (List.Sublist.subset (by decide)) hp
    | extract_lets
    | with_reducible refine State.floodMsg_leads ?_ ?_
    | with_reducible refine State.setFab_leads ?_ ?_
    | refine LeadsA.next ?_
    | split
    | with_reducible refine Leads.time ?_ ?_

theorem execBundleLost_leads {ps : List Part} {s₀ s : State} {dir : ℕ} (hs : Leads ps s₀ s)
    (hp : [Part.outbox, Part.freeCount, Part.ctr, Part.fab, Part.links] ⊆ ps) : LeadsA ps s₀ (execBundleLost dir s) := by
  unfold execBundleLost
  repeat' first
    | with_reducible assumption
    | with_reducible exact List.Subset.trans (List.Sublist.subset (by decide)) hp
    | with_reducible refine State.floodMsg_leads ?_ ?_
    | with_reducible refine State.noteBundle_leads ?_ ?_
    | refine LeadsA.next ?_
    | split

theorem execIsolatedTimeout_leads {ps : List Part} {s₀ s : State} {pos : ℕ} (hs : Leads ps s₀ s)
    (hp : [Part.outbox, Part.freeCount, Part.regs, Part.ctr, Part.cores, Part.places, Part.groups, Part.pages, Part.mirrors, Part.mirrorPages, Part.arenaWait, Part.poolWait, Part.items, Part.boxes, Part.mem, Part.memPoison, Part.protUnits, Part.tier, Part.fab, Part.links, Part.log] ⊆ ps) : LeadsA ps s₀ (execIsolatedTimeout pos s) := by
  unfold execIsolatedTimeout
  repeat' first
    | with_reducible assumption
    | with_reducible refine State.declare_leads ?_ ?_
    | with_reducible refine Leads.when ?_ ?_
    | refine LeadsA.next ?_

theorem execStandbyTakeover_leads {ps : List Part} {s₀ s : State}  (hs : Leads ps s₀ s)
    (hp : [Part.outbox, Part.freeCount, Part.regs, Part.ctr, Part.cores, Part.places, Part.groups, Part.pages, Part.mirrors, Part.mirrorPages, Part.arenaWait, Part.poolWait, Part.items, Part.boxes, Part.mem, Part.memPoison, Part.protUnits, Part.tier, Part.fab, Part.links, Part.host, Part.log] ⊆ ps) : LeadsA ps s₀ (execStandbyTakeover s) := by
  unfold execStandbyTakeover
  repeat' first
    | with_reducible assumption
    | with_reducible exact List.Subset.trans (List.Sublist.subset (by decide)) hp
    | extract_lets
    | with_reducible refine State.loseMajority_leads ?_ ?_
    | with_reducible refine State.bump_leads ?_ ?_
    | with_reducible refine State.setEpoch_leads ?_ ?_
    | with_reducible refine State.event_leads ?_ ?_
    | with_reducible refine State.signature_leads ?_ ?_
    | with_reducible refine State.applyDeath_leads ?_ ?_
    | with_reducible refine State.floodMsg_leads ?_ ?_
    | with_reducible refine State.setFab_leads ?_ ?_
    | with_reducible refine State.setMember_leads ?_ ?_
    | with_reducible refine State.inheritRings_leads ?_ ?_
    | with_reducible refine State.failForwarded_leads ?_ ?_
    | with_reducible refine State.redirectResults_leads ?_ ?_
    | with_reducible refine State.failItems_leads ?_ ?_
    | with_reducible refine State.startRoutes_leads ?_ ?_
    | with_reducible refine State.nameStandby_leads ?_ ?_
    | refine LeadsA.next ?_
    | split

theorem execMember_leads {ps : List Part} {s₀ s : State} {hdr : PktHdr} {msg : MemberMsg} (hs : Leads ps s₀ s)
    (hp : [Part.outbox, Part.freeCount, Part.pins, Part.time, Part.regs, Part.ctr, Part.cores, Part.places, Part.groups, Part.pages, Part.mirrors, Part.mirrorPages, Part.arenaWait, Part.poolWait, Part.items, Part.nextItem, Part.gang, Part.boxes, Part.mem, Part.memPoison, Part.protUnits, Part.hbm, Part.dies, Part.held, Part.tier, Part.cb, Part.fab, Part.links, Part.host, Part.log, Part.fw, Part.sec, Part.pwr, Part.test, Part.side] ⊆ ps) : LeadsA ps s₀ (execMember hdr msg s) := by
  unfold execMember
  repeat' first
    | with_reducible assumption
    | with_reducible exact List.Subset.trans (List.Sublist.subset (by decide)) hp
    | with_reducible refine State.joined_leads ?_ ?_
    | with_reducible refine State.receiveFlood_leads ?_ ?_ ?_
    | with_reducible refine State.takeMember_leads ?_ ?_
    | refine LeadsA.next ?_
    | split
    | (intro (u : State) hu; try dsimp only)

theorem execBudget_leads {ps : List Part} {s₀ s : State} {hdr : PktHdr} {pos : ℕ} {stamps : ℕ} (hs : Leads ps s₀ s)
    (hp : [Part.outbox, Part.regs, Part.ctr, Part.fab, Part.links, Part.log] ⊆ ps) : LeadsA ps s₀ (execBudget hdr pos stamps s) := by
  unfold execBudget
  repeat' first
    | with_reducible assumption
    | with_reducible exact List.Subset.trans (List.Sublist.subset (by decide)) hp
    | with_reducible refine State.receiveFlood_leads ?_ ?_ ?_
    | with_reducible refine State.setField_leads ?_ ?_
    | with_reducible refine Leads.when ?_ ?_
    | refine LeadsA.next ?_
    | (intro (u : State) hu; try dsimp only)

theorem execE2eTimeout_leads {ps : List Part} {s₀ s : State} {dest : ℕ} {cls : ℕ} {seq : ℕ} (hs : Leads ps s₀ s)
    (hp : [Part.outbox, Part.freeCount, Part.ctr, Part.fab, Part.links] ⊆ ps) : LeadsA ps s₀ (execE2eTimeout dest cls seq s) := by
  unfold execE2eTimeout
  repeat' first
    | with_reducible assumption
    | with_reducible exact List.Subset.trans (List.Sublist.subset (by decide)) hp
    | extract_lets
    | with_reducible refine State.bump_leads ?_ ?_
    | with_reducible refine State.setFab_leads ?_ ?_
    | with_reducible refine State.sendPlain_leads ?_ ?_
    | with_reducible refine State.floodMsg_leads ?_ ?_
    | with_reducible refine Leads.ite ?_ ?_
    | refine LeadsA.next ?_
    | split

theorem execJoin_leads {ps : List Part} {s₀ s : State} {req : JoinReq} (hs : Leads ps s₀ s)
    (hp : [Part.outbox, Part.freeCount, Part.regs, Part.ctr, Part.fab, Part.links, Part.log] ⊆ ps) : LeadsA ps s₀ (execJoin req s) := by
  unfold execJoin
  repeat' first
    | with_reducible assumption
    | with_reducible exact List.Subset.trans (List.Sublist.subset (by decide)) hp
    | with_reducible refine State.floodMsg_leads ?_ ?_
    | with_reducible refine State.changed_leads ?_ ?_
    | with_reducible refine State.setFab_leads ?_ ?_
    | with_reducible refine State.joinAt_leads ?_ ?_
    | with_reducible refine Leads.when ?_ ?_
    | refine LeadsA.next ?_
    | split

theorem execFormation_leads {ps : List Part} {s₀ s : State} {present : List ℕ} {managers : List ℕ} {a1 : List ℕ} {cfg : List W32} (hs : Leads ps s₀ s)
    (hp : [Part.outbox, Part.freeCount, Part.regs, Part.ctr, Part.fab, Part.links, Part.side] ⊆ ps) : LeadsA ps s₀ (execFormation present managers a1 cfg s) := by
  unfold execFormation
  repeat' first
    | with_reducible assumption
    | with_reducible exact List.Subset.trans (List.Sublist.subset (by decide)) hp
    | extract_lets
    | with_reducible refine State.setReg_leads ?_ ?_
    | with_reducible refine State.formAs_leads ?_ ?_
    | with_reducible refine State.startRoutes_leads ?_ ?_
    | with_reducible refine State.relaySet_leads ?_ ?_
    | with_reducible refine Leads.ite ?_ ?_
    | (with_reducible refine Leads.foldl _ ?_ ?_; rotate_left; intro u x hu)
    | refine LeadsA.next ?_
    | split
    | with_reducible refine Leads.side ?_ ?_

theorem execGenEn_leads {ps : List Part} {s₀ s : State} {page : ℕ} {on : Bool} {pattern : ℕ} {mask : ℕ} (hs : Leads ps s₀ s)
    (hp : [Part.outbox, Part.regs, Part.host, Part.log, Part.test] ⊆ ps) : LeadsA ps s₀ (execGenEn page on pattern mask s) := by
  unfold execGenEn
  repeat' first
    | with_reducible assumption
    | with_reducible refine State.patternWrite_leads ?_ ?_
    | with_reducible refine Leads.when ?_ ?_
    | refine LeadsA.next ?_

theorem execChkEn_leads {ps : List Part} {s₀ s : State} {page : ℕ} {on : Bool} {pattern : ℕ} {mask : ℕ} (hs : Leads ps s₀ s)
    (hp : [Part.outbox, Part.regs, Part.host, Part.log, Part.test] ⊆ ps) : LeadsA ps s₀ (execChkEn page on pattern mask s) := by
  unfold execChkEn
  repeat' first
    | with_reducible assumption
    | with_reducible refine State.patternWrite_leads ?_ ?_
    | with_reducible refine Leads.when ?_ ?_
    | refine LeadsA.next ?_

theorem execInject_leads {ps : List Part} {s₀ s : State} {page : ℕ} (hs : Leads ps s₀ s)
    (hp : [Part.outbox, Part.regs, Part.host, Part.log, Part.test] ⊆ ps) : LeadsA ps s₀ (execInject page s) := by
  unfold execInject
  repeat' first
    | with_reducible assumption
    | with_reducible refine State.patternWrite_leads ?_ ?_
    | with_reducible refine Leads.when ?_ ?_
    | refine LeadsA.next ?_

theorem execCheckerLock_leads {ps : List Part} {s₀ s : State} {page : ℕ} {lane : ℕ} {inverted : Bool} (hs : Leads ps s₀ s)
    (hp : [Part.test] ⊆ ps) : LeadsA ps s₀ (execCheckerLock page lane inverted s) := by
  unfold execCheckerLock
  repeat' first
    | with_reducible assumption
    | with_reducible refine State.modChecker_leads ?_ ?_
    | with_reducible refine Leads.when ?_ ?_
    | refine LeadsA.next ?_

theorem execCheckerLoss_leads {ps : List Part} {s₀ s : State} {page : ℕ} {lane : ℕ} {compared : ℕ} {errors : ℕ} (hs : Leads ps s₀ s)
    (hp : [Part.test] ⊆ ps) : LeadsA ps s₀ (execCheckerLoss page lane compared errors s) := by
  unfold execCheckerLoss
  repeat' first
    | with_reducible assumption
    | with_reducible refine State.modChecker_leads ?_ ?_
    | with_reducible refine Leads.when ?_ ?_
    | refine LeadsA.next ?_

theorem execHostLinkChange_leads {ps : List Part} {s₀ s : State} {speed : ℕ} {an : ℕ} {pcsLock : Bool} (hs : Leads ps s₀ s)
    (hp : [Part.regs, Part.host, Part.log] ⊆ ps) : LeadsA ps s₀ (execHostLinkChange speed an pcsLock s) := by
  unfold execHostLinkChange
  repeat' first
    | with_reducible assumption
    | extract_lets
    | with_reducible refine State.hostLink_leads ?_ ?_
    | with_reducible refine Leads.when ?_ ?_
    | refine LeadsA.next ?_

end Sys2Proof.Machine
end

