-- ==== Sys2Proof/Laws/LeadsExecHost.lean ====
section
/-! SUPPORT. Every command of the host port, debug and sideband completes, and the parts of the state that it may touch. -/

namespace Sys2Proof.Machine

theorem execCoreMapWrite_leads {ps : List Part} {s₀ s : State} {index : ℕ} {value : W32} (hs : Leads ps s₀ s)
    (hp : [Part.regs] ⊆ ps) : LeadsA ps s₀ (execCoreMapWrite index value s) := by
  unfold execCoreMapWrite
  repeat' first
    | with_reducible assumption
    | with_reducible refine State.coreMapWrite_leads ?_ ?_
    | with_reducible refine Leads.when ?_ ?_
    | refine LeadsA.next ?_

theorem execAcmMapWrite_leads {ps : List Part} {s₀ s : State} {core : ℕ} {value : W32} (hs : Leads ps s₀ s)
    (hp : [Part.regs] ⊆ ps) : LeadsA ps s₀ (execAcmMapWrite core value s) := by
  unfold execAcmMapWrite
  repeat' first
    | with_reducible assumption
    | with_reducible refine State.acmWrite_leads ?_ ?_
    | with_reducible refine Leads.when ?_ ?_
    | refine LeadsA.next ?_

theorem execStateWindowWrite_leads {ps : List Part} {s₀ s : State} {core : ℕ} {value : W32} (hs : Leads ps s₀ s)
    (hp : [Part.regs, Part.places] ⊆ ps) : LeadsA ps s₀ (execStateWindowWrite core value s) := by
  unfold execStateWindowWrite
  repeat' first
    | with_reducible assumption
    | with_reducible refine State.windowWrite_leads ?_ ?_
    | with_reducible refine Leads.when ?_ ?_
    | refine LeadsA.next ?_

theorem execHandleSelWrite_leads {ps : List Part} {s₀ s : State} {core : ℕ} {value : W32} (hs : Leads ps s₀ s)
    (hp : [Part.regs] ⊆ ps) : LeadsA ps s₀ (execHandleSelWrite core value s) := by
  unfold execHandleSelWrite
  repeat' first
    | with_reducible assumption
    | with_reducible refine State.handleSel_leads ?_ ?_
    | with_reducible refine Leads.when ?_ ?_
    | refine LeadsA.next ?_

theorem execFlush_leads {ps : List Part} {s₀ s : State} {core : ℕ} (hs : Leads ps s₀ s)
    (hp : [Part.ctr, Part.cores] ⊆ ps) : LeadsA ps s₀ (execFlush core s) := by
  unfold execFlush
  repeat' first
    | with_reducible assumption
    | with_reducible refine State.flushCore_leads ?_ ?_
    | with_reducible refine Leads.when ?_ ?_
    | refine LeadsA.next ?_

theorem execRegisterWrite_leads {ps : List Part} {s₀ s : State} {addr : ℕ} {size : ℕ} {value : W32} (hs : Leads ps s₀ s)
    (hp : [Part.outbox, Part.freeCount, Part.pins, Part.time, Part.regs, Part.ctr, Part.cores, Part.places, Part.groups, Part.pages, Part.mirrors, Part.mirrorPages, Part.arenaWait, Part.poolWait, Part.items, Part.nextItem, Part.gang, Part.boxes, Part.mem, Part.memPoison, Part.protUnits, Part.hbm, Part.dies, Part.held, Part.tier, Part.cb, Part.fab, Part.links, Part.host, Part.log, Part.fw, Part.sec, Part.pwr, Part.test, Part.side] ⊆ ps) : LeadsA ps s₀ (execRegisterWrite addr size value s) := by
  unfold execRegisterWrite
  repeat' first
    | with_reducible assumption
    | with_reducible refine State.regWrite_leads ?_ ?_
    | refine LeadsA.next ?_

theorem execLockWrite_leads {ps : List Part} {s₀ s : State} {page : ℕ} (hs : Leads ps s₀ s)
    (hp : [Part.outbox, Part.freeCount, Part.pins, Part.time, Part.regs, Part.ctr, Part.cores, Part.places, Part.groups, Part.pages, Part.mirrors, Part.mirrorPages, Part.arenaWait, Part.poolWait, Part.items, Part.nextItem, Part.gang, Part.boxes, Part.mem, Part.memPoison, Part.protUnits, Part.hbm, Part.dies, Part.held, Part.tier, Part.cb, Part.fab, Part.links, Part.host, Part.log, Part.fw, Part.sec, Part.pwr, Part.test, Part.side] ⊆ ps) : LeadsA ps s₀ (execLockWrite page s) := by
  unfold execLockWrite
  repeat' first
    | with_reducible assumption
    | with_reducible refine State.regWrite_leads ?_ ?_
    | refine LeadsA.next ?_

theorem execW1cWrite_leads {ps : List Part} {s₀ s : State} {addr : ℕ} {value : W32} {hwSets : W32} (hs : Leads ps s₀ s)
    (hp : [Part.outbox, Part.freeCount, Part.pins, Part.time, Part.regs, Part.ctr, Part.cores, Part.places, Part.groups, Part.pages, Part.mirrors, Part.mirrorPages, Part.arenaWait, Part.poolWait, Part.items, Part.nextItem, Part.gang, Part.boxes, Part.mem, Part.memPoison, Part.protUnits, Part.hbm, Part.dies, Part.held, Part.tier, Part.cb, Part.fab, Part.links, Part.host, Part.log, Part.fw, Part.sec, Part.pwr, Part.test, Part.side] ⊆ ps) : LeadsA ps s₀ (execW1cWrite addr value hwSets s) := by
  unfold execW1cWrite
  repeat' first
    | with_reducible assumption
    | with_reducible exact List.Subset.trans (List.Sublist.subset (by decide)) hp
    | extract_lets
    | with_reducible refine State.undecoded_leads ?_ ?_
    | with_reducible refine State.regWrite_leads ?_ ?_
    | with_reducible refine State.setReg_leads ?_ ?_
    | with_reducible refine Leads.ite ?_ ?_
    | refine LeadsA.next ?_
    | split

theorem execHello_leads {ps : List Part} {s₀ s : State} {hdr : PbpHdr} {lowest : ℕ} {highest : ℕ} (hs : Leads ps s₀ s)
    (hp : [Part.outbox, Part.freeCount, Part.regs, Part.ctr, Part.host] ⊆ ps) : LeadsA ps s₀ (execHello hdr lowest highest s) := by
  unfold execHello
  repeat' first
    | with_reducible assumption
    | with_reducible exact List.Subset.trans (List.Sublist.subset (by decide)) hp
    | extract_lets
    | with_reducible refine State.bump_leads ?_ ?_
    | with_reducible refine State.reject_leads ?_ ?_
    | with_reducible refine State.openSession_leads ?_ ?_
    | with_reducible refine Leads.ite ?_ ?_
    | refine LeadsA.next ?_
    | split

theorem execBye_leads {ps : List Part} {s₀ s : State} {hdr : PbpHdr} (hs : Leads ps s₀ s)
    (hp : [Part.outbox, Part.freeCount, Part.regs, Part.ctr, Part.cores, Part.places, Part.groups, Part.pages, Part.arenaWait, Part.poolWait, Part.items, Part.boxes, Part.mem, Part.memPoison, Part.protUnits, Part.tier, Part.fab, Part.links, Part.host] ⊆ ps) : LeadsA ps s₀ (execBye hdr s) := by
  unfold execBye
  repeat' first
    | with_reducible assumption
    | with_reducible exact List.Subset.trans (List.Sublist.subset (by decide)) hp
    | with_reducible refine State.pbp_leads ?_ ?_ ?_
    | with_reducible refine State.answer_leads ?_ ?_
    | with_reducible refine State.closeSession_leads ?_ ?_
    | refine LeadsA.next ?_
    | (intro (u : State) (n : ℕ) hu; try dsimp only)

theorem execKeepalive_leads {ps : List Part} {s₀ s : State} {hdr : PbpHdr} (hs : Leads ps s₀ s)
    (hp : [Part.outbox, Part.ctr, Part.host] ⊆ ps) : LeadsA ps s₀ (execKeepalive hdr s) := by
  unfold execKeepalive
  repeat' first
    | with_reducible assumption
    | with_reducible exact List.Subset.trans (List.Sublist.subset (by decide)) hp
    | with_reducible refine State.pbp_leads ?_ ?_ ?_
    | with_reducible refine State.answer_leads ?_ ?_
    | refine LeadsA.next ?_
    | (intro (u : State) (n : ℕ) hu; try dsimp only)

theorem execSessionTimeout_leads {ps : List Part} {s₀ s : State} {session : ℕ} (hs : Leads ps s₀ s)
    (hp : [Part.outbox, Part.freeCount, Part.time, Part.regs, Part.ctr, Part.cores, Part.places, Part.groups, Part.pages, Part.arenaWait, Part.poolWait, Part.items, Part.boxes, Part.mem, Part.memPoison, Part.protUnits, Part.tier, Part.fab, Part.links, Part.host] ⊆ ps) : LeadsA ps s₀ (execSessionTimeout session s) := by
  unfold execSessionTimeout
  repeat' first
    | with_reducible assumption
    | with_reducible exact List.Subset.trans (List.Sublist.subset (by decide)) hp
    | extract_lets
    | with_reducible refine State.closeSession_leads ?_ ?_
    | with_reducible refine Leads.when ?_ ?_
    | refine LeadsA.next ?_
    | split
    | with_reducible refine Leads.time ?_ ?_

theorem execRegRead_leads {ps : List Part} {s₀ s : State} {hdr : PbpHdr} {addr : ℕ} (hs : Leads ps s₀ s)
    (hp : [Part.outbox, Part.freeCount, Part.pins, Part.time, Part.regs, Part.ctr, Part.cores, Part.places, Part.groups, Part.pages, Part.mirrors, Part.mirrorPages, Part.arenaWait, Part.poolWait, Part.items, Part.nextItem, Part.gang, Part.boxes, Part.mem, Part.memPoison, Part.protUnits, Part.hbm, Part.dies, Part.held, Part.tier, Part.cb, Part.fab, Part.links, Part.host, Part.log, Part.fw, Part.sec, Part.pwr, Part.test, Part.side] ⊆ ps) : LeadsA ps s₀ (execRegRead hdr addr s) := by
  unfold execRegRead
  repeat' first
    | with_reducible assumption
    | with_reducible exact List.Subset.trans (List.Sublist.subset (by decide)) hp
    | with_reducible refine State.pbp_leads ?_ ?_ ?_
    | with_reducible refine State.atTarget_leads ?_ ?_ ?_
    | with_reducible refine State.emulate_leads ?_ ?_
    | refine LeadsA.next ?_
    | (intro (u : State) (n : ℕ) hu; try dsimp only)
    | (intro (u : State) hu; try dsimp only)

theorem execRegWrite_leads {ps : List Part} {s₀ s : State} {hdr : PbpHdr} {addr : ℕ} {value : W32} (hs : Leads ps s₀ s)
    (hp : [Part.outbox, Part.freeCount, Part.pins, Part.time, Part.regs, Part.ctr, Part.cores, Part.places, Part.groups, Part.pages, Part.mirrors, Part.mirrorPages, Part.arenaWait, Part.poolWait, Part.items, Part.nextItem, Part.gang, Part.boxes, Part.mem, Part.memPoison, Part.protUnits, Part.hbm, Part.dies, Part.held, Part.tier, Part.cb, Part.fab, Part.links, Part.host, Part.log, Part.fw, Part.sec, Part.pwr, Part.test, Part.side] ⊆ ps) : LeadsA ps s₀ (execRegWrite hdr addr value s) := by
  unfold execRegWrite
  repeat' first
    | with_reducible assumption
    | with_reducible exact List.Subset.trans (List.Sublist.subset (by decide)) hp
    | with_reducible refine State.pbp_leads ?_ ?_ ?_
    | with_reducible refine State.atTarget_leads ?_ ?_ ?_
    | with_reducible refine State.emulate_leads ?_ ?_
    | refine LeadsA.next ?_
    | (intro (u : State) (n : ℕ) hu; try dsimp only)
    | (intro (u : State) hu; try dsimp only)

theorem execRegBatch_leads {ps : List Part} {s₀ s : State} {hdr : PbpHdr} {ops : List RegOp} (hs : Leads ps s₀ s)
    (hp : [Part.outbox, Part.freeCount, Part.pins, Part.time, Part.regs, Part.ctr, Part.cores, Part.places, Part.groups, Part.pages, Part.mirrors, Part.mirrorPages, Part.arenaWait, Part.poolWait, Part.items, Part.nextItem, Part.gang, Part.boxes, Part.mem, Part.memPoison, Part.protUnits, Part.hbm, Part.dies, Part.held, Part.tier, Part.cb, Part.fab, Part.links, Part.host, Part.log, Part.fw, Part.sec, Part.pwr, Part.test, Part.side] ⊆ ps) : LeadsA ps s₀ (execRegBatch hdr ops s) := by
  unfold execRegBatch
  repeat' first
    | with_reducible assumption
    | with_reducible exact List.Subset.trans (List.Sublist.subset (by decide)) hp
    | with_reducible refine State.pbp_leads ?_ ?_ ?_
    | with_reducible refine State.atTarget_leads ?_ ?_ ?_
    | with_reducible refine State.emulate_leads ?_ ?_
    | refine LeadsA.next ?_
    | (intro (u : State) (n : ℕ) hu; try dsimp only)
    | (intro (u : State) hu; try dsimp only)

theorem execSubmitEmu_leads {ps : List Part} {s₀ s : State} {hdr : PbpHdr} {entry : List Byte} {desc : List Byte} (hs : Leads ps s₀ s)
    (hp : [Part.outbox, Part.ctr, Part.boxes, Part.mem, Part.memPoison, Part.protUnits, Part.tier, Part.host, Part.fw] ⊆ ps) : LeadsA ps s₀ (execSubmitEmu hdr entry desc s) := by
  unfold execSubmitEmu
  repeat' first
    | with_reducible assumption
    | with_reducible exact List.Subset.trans (List.Sublist.subset (by decide)) hp
    | extract_lets
    | with_reducible refine State.pbp_leads ?_ ?_ ?_
    | with_reducible refine State.answer_leads ?_ ?_
    | with_reducible refine State.retryLater_leads ?_ ?_
    | with_reducible refine State.submitEmu_leads ?_ ?_
    | with_reducible refine State.bump_leads ?_ ?_
    | refine LeadsA.next ?_
    | split
    | (intro (u : State) (n : ℕ) hu; try dsimp only)

theorem execConnect_leads {ps : List Part} {s₀ s : State} {hdr : PbpHdr} {hostQp : ℕ} {psn : ℕ} {mtu : ℕ} {role : ℕ} (hs : Leads ps s₀ s)
    (hp : [Part.outbox, Part.freeCount, Part.regs, Part.ctr, Part.host] ⊆ ps) : LeadsA ps s₀ (execConnect hdr hostQp psn mtu role s) := by
  unfold execConnect
  repeat' first
    | with_reducible assumption
    | with_reducible exact List.Subset.trans (List.Sublist.subset (by decide)) hp
    | extract_lets
    | with_reducible refine State.pbp_leads ?_ ?_ ?_
    | with_reducible refine State.answer_leads ?_ ?_
    | with_reducible refine State.draw_leads ?_ ?_
    | with_reducible refine State.setHost_leads ?_ ?_
    | with_reducible refine State.changed_leads ?_ ?_
    | refine LeadsA.next ?_
    | split
    | (intro (u : State) (n : ℕ) hu; try dsimp only)

theorem execRingSetup_leads {ps : List Part} {s₀ s : State} {hdr : PbpHdr} {kind : RingKind} {index : ℕ} {sizeLog2 : ℕ} {addr : ℕ} {key : ℕ} (hs : Leads ps s₀ s)
    (hp : [Part.outbox, Part.ctr, Part.boxes, Part.host] ⊆ ps) : LeadsA ps s₀ (execRingSetup hdr kind index sizeLog2 addr key s) := by
  unfold execRingSetup
  repeat' first
    | with_reducible assumption
    | with_reducible exact List.Subset.trans (List.Sublist.subset (by decide)) hp
    | with_reducible refine State.pbp_leads ?_ ?_ ?_
    | with_reducible refine State.answer_leads ?_ ?_
    | with_reducible refine State.modBox_leads ?_ ?_
    | refine LeadsA.next ?_
    | split
    | (intro (u : State) (n : ℕ) hu; try dsimp only)

theorem execPbpResume_leads {ps : List Part} {s₀ s : State} {hdr : PbpHdr} {oldSession : ℕ} (hs : Leads ps s₀ s)
    (hp : [Part.outbox, Part.ctr, Part.host] ⊆ ps) : LeadsA ps s₀ (execPbpResume hdr oldSession s) := by
  unfold execPbpResume
  repeat' first
    | with_reducible assumption
    | with_reducible exact List.Subset.trans (List.Sublist.subset (by decide)) hp
    | extract_lets
    | with_reducible refine State.pbp_leads ?_ ?_ ?_
    | with_reducible refine State.answer_leads ?_ ?_
    | with_reducible refine State.modSession_leads ?_ ?_
    | refine LeadsA.next ?_
    | split
    | (intro (u : State) (n : ℕ) hu; try dsimp only)

theorem execImageBegin_leads {ps : List Part} {s₀ s : State} {hdr : PbpHdr} {component : ℕ} {size : ℕ} (hs : Leads ps s₀ s)
    (hp : [Part.outbox, Part.regs, Part.ctr, Part.host, Part.fw] ⊆ ps) : LeadsA ps s₀ (execImageBegin hdr component size s) := by
  unfold execImageBegin
  repeat' first
    | with_reducible assumption
    | with_reducible exact List.Subset.trans (List.Sublist.subset (by decide)) hp
    | extract_lets
    | with_reducible refine State.pbp_leads ?_ ?_ ?_
    | with_reducible refine State.answer_leads ?_ ?_
    | with_reducible refine State.refused_leads ?_ ?_
    | with_reducible refine State.changed_leads ?_ ?_
    | with_reducible refine State.setFw_leads ?_ ?_ ?_
    | with_reducible refine Leads.when ?_ ?_
    | exact fun _ => rfl
    | refine LeadsA.next ?_
    | split
    | (intro (u : State) (n : ℕ) hu; try dsimp only)

theorem execImageData_leads {ps : List Part} {s₀ s : State} {hdr : PbpHdr} {offset : ℕ} {data : List Byte} (hs : Leads ps s₀ s)
    (hp : [Part.outbox, Part.ctr, Part.host, Part.fw] ⊆ ps) : LeadsA ps s₀ (execImageData hdr offset data s) := by
  unfold execImageData
  repeat' first
    | with_reducible assumption
    | with_reducible exact List.Subset.trans (List.Sublist.subset (by decide)) hp
    | with_reducible refine State.pbp_leads ?_ ?_ ?_
    | with_reducible refine State.answer_leads ?_ ?_
    | with_reducible refine State.setFw_leads ?_ ?_ ?_
    | exact fun _ => rfl
    | refine LeadsA.next ?_
    | split
    | (intro (u : State) (n : ℕ) hu; try dsimp only)

theorem execImageEnd_leads {ps : List Part} {s₀ s : State} {hdr : PbpHdr} {component : ℕ} (hs : Leads ps s₀ s)
    (hp : [Part.outbox, Part.ctr, Part.host, Part.log, Part.fw, Part.sec] ⊆ ps) : LeadsA ps s₀ (execImageEnd hdr component s) := by
  unfold execImageEnd
  repeat' first
    | with_reducible assumption
    | with_reducible exact List.Subset.trans (List.Sublist.subset (by decide)) hp
    | extract_lets
    | with_reducible refine State.pbp_leads ?_ ?_ ?_
    | with_reducible refine State.answer_leads ?_ ?_
    | with_reducible refine State.verifyImage_leads ?_ ?_
    | with_reducible refine State.setFw_leads ?_ ?_ ?_
    | with_reducible refine State.refused_leads ?_ ?_
    | exact fun _ => rfl
    | refine LeadsA.next ?_
    | split
    | (intro (u : State) (n : ℕ) hu; try dsimp only)

theorem execStart_leads {ps : List Part} {s₀ s : State} {hdr : PbpHdr} (hs : Leads ps s₀ s)
    (hp : [Part.outbox, Part.regs, Part.ctr, Part.host, Part.fw, Part.sec] ⊆ ps) : LeadsA ps s₀ (execStart hdr s) := by
  unfold execStart
  repeat' first
    | with_reducible assumption
    | with_reducible exact List.Subset.trans (List.Sublist.subset (by decide)) hp
    | with_reducible refine State.pbp_leads ?_ ?_ ?_
    | with_reducible refine State.answer_leads ?_ ?_
    | with_reducible refine State.refused_leads ?_ ?_
    | with_reducible refine State.startSet_leads ?_ ?_
    | refine LeadsA.next ?_
    | split
    | (intro (u : State) (n : ℕ) hu; try dsimp only)

theorem execFwStatus_leads {ps : List Part} {s₀ s : State} {hdr : PbpHdr} (hs : Leads ps s₀ s)
    (hp : [Part.outbox, Part.ctr, Part.host] ⊆ ps) : LeadsA ps s₀ (execFwStatus hdr s) := by
  unfold execFwStatus
  repeat' first
    | with_reducible assumption
    | with_reducible exact List.Subset.trans (List.Sublist.subset (by decide)) hp
    | with_reducible refine State.pbp_leads ?_ ?_ ?_
    | with_reducible refine State.answer_leads ?_ ?_
    | refine LeadsA.next ?_
    | (intro (u : State) (n : ℕ) hu; try dsimp only)

theorem execMap_leads {ps : List Part} {s₀ s : State} {hdr : PbpHdr} {va : ℕ} {entry : W64} (hs : Leads ps s₀ s)
    (hp : [Part.outbox, Part.freeCount, Part.ctr, Part.boxes, Part.mem, Part.memPoison, Part.protUnits, Part.held, Part.tier, Part.fab, Part.links, Part.host] ⊆ ps) : LeadsA ps s₀ (execMap hdr va entry s) := by
  unfold execMap
  repeat' first
    | with_reducible assumption
    | with_reducible exact List.Subset.trans (List.Sublist.subset (by decide)) hp
    | with_reducible refine State.resource_leads ?_ ?_ ?_
    | with_reducible refine State.mapPage_leads ?_ ?_
    | refine LeadsA.next ?_
    | (intro (u : State) (n : ℕ) hu; try dsimp only)

theorem execUnmap_leads {ps : List Part} {s₀ s : State} {hdr : PbpHdr} {va : ℕ} (hs : Leads ps s₀ s)
    (hp : [Part.outbox, Part.freeCount, Part.ctr, Part.boxes, Part.mem, Part.memPoison, Part.protUnits, Part.held, Part.tier, Part.fab, Part.links, Part.host] ⊆ ps) : LeadsA ps s₀ (execUnmap hdr va s) := by
  unfold execUnmap
  repeat' first
    | with_reducible assumption
    | with_reducible exact List.Subset.trans (List.Sublist.subset (by decide)) hp
    | with_reducible refine State.resource_leads ?_ ?_ ?_
    | with_reducible refine State.unmapPage_leads ?_ ?_
    | refine LeadsA.next ?_
    | (intro (u : State) (n : ℕ) hu; try dsimp only)

theorem execRegionAdd_leads {ps : List Part} {s₀ s : State} {hdr : PbpHdr} {record : List Byte} (hs : Leads ps s₀ s)
    (hp : [Part.outbox, Part.freeCount, Part.regs, Part.ctr, Part.boxes, Part.fab, Part.links, Part.host] ⊆ ps) : LeadsA ps s₀ (execRegionAdd hdr record s) := by
  unfold execRegionAdd
  repeat' first
    | with_reducible assumption
    | with_reducible exact List.Subset.trans (List.Sublist.subset (by decide)) hp
    | with_reducible refine State.resource_leads ?_ ?_ ?_
    | with_reducible refine State.addRegion_leads ?_ ?_
    | refine LeadsA.next ?_
    | (intro (u : State) (n : ℕ) hu; try dsimp only)

theorem execRegionSet_leads {ps : List Part} {s₀ s : State} {hdr : PbpHdr} {index : ℕ} {encodeSlot : ℕ} {thresh : ℕ} (hs : Leads ps s₀ s)
    (hp : [Part.outbox, Part.freeCount, Part.ctr, Part.boxes, Part.fab, Part.links, Part.host] ⊆ ps) : LeadsA ps s₀ (execRegionSet hdr index encodeSlot thresh s) := by
  unfold execRegionSet
  repeat' first
    | with_reducible assumption
    | with_reducible exact List.Subset.trans (List.Sublist.subset (by decide)) hp
    | with_reducible refine State.resource_leads ?_ ?_ ?_
    | with_reducible refine State.setRegion_leads ?_ ?_
    | refine LeadsA.next ?_
    | (intro (u : State) (n : ℕ) hu; try dsimp only)

theorem execCodebook_leads {ps : List Part} {s₀ s : State} {hdr : PbpHdr} {word : W32} {addr : ℕ} {length : ℕ} (hs : Leads ps s₀ s)
    (hp : [Part.outbox, Part.freeCount, Part.regs, Part.ctr, Part.cb, Part.fab, Part.links, Part.host] ⊆ ps) : LeadsA ps s₀ (execCodebook hdr word addr length s) := by
  unfold execCodebook
  repeat' first
    | with_reducible assumption
    | with_reducible exact List.Subset.trans (List.Sublist.subset (by decide)) hp
    | with_reducible refine State.resource_leads ?_ ?_ ?_
    | with_reducible refine State.codebookReq_leads ?_ ?_
    | refine LeadsA.next ?_
    | (intro (u : State) (n : ℕ) hu; try dsimp only)

theorem execTier_leads {ps : List Part} {s₀ s : State} {hdr : PbpHdr} {word : W32} {addr : ℕ} {length : ℕ} (hs : Leads ps s₀ s)
    (hp : [Part.outbox, Part.freeCount, Part.regs, Part.ctr, Part.tier, Part.fab, Part.links, Part.host] ⊆ ps) : LeadsA ps s₀ (execTier hdr word addr length s) := by
  unfold execTier
  repeat' first
    | with_reducible assumption
    | with_reducible exact List.Subset.trans (List.Sublist.subset (by decide)) hp
    | with_reducible refine State.resource_leads ?_ ?_ ?_
    | with_reducible refine State.tierReq_leads ?_ ?_
    | refine LeadsA.next ?_
    | (intro (u : State) (n : ℕ) hu; try dsimp only)

theorem execKeyInstall_leads {ps : List Part} {s₀ s : State} {hdr : PbpHdr} {key : List Byte} (hs : Leads ps s₀ s)
    (hp : [Part.outbox, Part.freeCount, Part.ctr, Part.boxes, Part.protUnits, Part.fab, Part.links, Part.host, Part.sec] ⊆ ps) : LeadsA ps s₀ (execKeyInstall hdr key s) := by
  unfold execKeyInstall
  repeat' first
    | with_reducible assumption
    | with_reducible exact List.Subset.trans (List.Sublist.subset (by decide)) hp
    | with_reducible refine State.resource_leads ?_ ?_ ?_
    | with_reducible refine State.installKey_leads ?_ ?_
    | refine LeadsA.next ?_
    | (intro (u : State) (n : ℕ) hu; try dsimp only)

theorem execAttest_leads {ps : List Part} {s₀ s : State} {hdr : PbpHdr} {nonce : List Byte} (hs : Leads ps s₀ s)
    (hp : [Part.outbox, Part.freeCount, Part.ctr, Part.fab, Part.links, Part.host] ⊆ ps) : LeadsA ps s₀ (execAttest hdr nonce s) := by
  unfold execAttest
  repeat' first
    | with_reducible assumption
    | with_reducible exact List.Subset.trans (List.Sublist.subset (by decide)) hp
    | with_reducible refine State.pbp_leads ?_ ?_ ?_
    | with_reducible refine State.atTarget_leads ?_ ?_ ?_
    | with_reducible refine State.attest_leads ?_ ?_
    | refine LeadsA.next ?_
    | split
    | (intro (u : State) (n : ℕ) hu; try dsimp only)
    | (intro (u : State) hu; try dsimp only)

theorem execSqTail_leads {ps : List Part} {s₀ s : State} {conn : ℕ} {ring : ℕ} {count : W32} (hs : Leads ps s₀ s)
    (hp : [Part.outbox, Part.ctr, Part.boxes, Part.log] ⊆ ps) : LeadsA ps s₀ (execSqTail conn ring count s) := by
  unfold execSqTail
  repeat' first
    | with_reducible assumption
    | with_reducible exact List.Subset.trans (List.Sublist.subset (by decide)) hp
    | with_reducible refine State.roceAck_leads ?_ ?_
    | with_reducible refine State.sqTail_leads ?_ ?_
    | with_reducible refine Leads.when ?_ ?_
    | refine LeadsA.next ?_
    | split

theorem execCqHead_leads {ps : List Part} {s₀ s : State} {conn : ℕ} {count : W32} (hs : Leads ps s₀ s)
    (hp : [Part.outbox, Part.ctr, Part.boxes, Part.log] ⊆ ps) : LeadsA ps s₀ (execCqHead conn count s) := by
  unfold execCqHead
  repeat' first
    | with_reducible assumption
    | with_reducible exact List.Subset.trans (List.Sublist.subset (by decide)) hp
    | with_reducible refine State.roceAck_leads ?_ ?_
    | with_reducible refine State.outHead_leads ?_ ?_
    | refine LeadsA.next ?_
    | split

theorem execDlqHead_leads {ps : List Part} {s₀ s : State} {conn : ℕ} {count : W32} (hs : Leads ps s₀ s)
    (hp : [Part.outbox, Part.ctr, Part.boxes, Part.log] ⊆ ps) : LeadsA ps s₀ (execDlqHead conn count s) := by
  unfold execDlqHead
  repeat' first
    | with_reducible assumption
    | with_reducible exact List.Subset.trans (List.Sublist.subset (by decide)) hp
    | with_reducible refine State.roceAck_leads ?_ ?_
    | with_reducible refine State.outHead_leads ?_ ?_
    | refine LeadsA.next ?_
    | split

theorem execRdmaWrite_leads {ps : List Part} {s₀ s : State} {conn : ℕ} {key : ℕ} {va : W64} {data : List Byte} (hs : Leads ps s₀ s)
    (hp : [Part.outbox, Part.freeCount, Part.ctr, Part.boxes, Part.mem, Part.memPoison, Part.protUnits, Part.tier, Part.fab, Part.links, Part.log] ⊆ ps) : LeadsA ps s₀ (execRdmaWrite conn key va data s) := by
  unfold execRdmaWrite
  repeat' first
    | with_reducible assumption
    | with_reducible exact List.Subset.trans (List.Sublist.subset (by decide)) hp
    | extract_lets
    | with_reducible refine State.bump_leads ?_ ?_
    | with_reducible refine State.roceNak_leads ?_ ?_
    | with_reducible refine State.hostWrite_leads ?_ ?_
    | with_reducible refine State.roceAck_leads ?_ ?_
    | with_reducible refine State.sendMsg_leads ?_ ?_
    | refine LeadsO.get (by assumption) (State.letterbox_leads ?_ (List.Subset.trans (List.Sublist.subset (by decide)) hp))
    | with_reducible refine Leads.ite ?_ ?_
    | refine LeadsA.next ?_
    | split

theorem execRdmaRead_leads {ps : List Part} {s₀ s : State} {conn : ℕ} {key : ℕ} {va : W64} {len : ℕ} (hs : Leads ps s₀ s)
    (hp : [Part.outbox, Part.freeCount, Part.ctr, Part.tier, Part.log] ⊆ ps) : LeadsA ps s₀ (execRdmaRead conn key va len s) := by
  unfold execRdmaRead
  repeat' first
    | with_reducible assumption
    | with_reducible exact List.Subset.trans (List.Sublist.subset (by decide)) hp
    | extract_lets
    | with_reducible refine State.bump_leads ?_ ?_
    | with_reducible refine State.roceNak_leads ?_ ?_
    | with_reducible refine State.hostRead_leads ?_ ?_
    | with_reducible refine State.draw_leads ?_ ?_
    | with_reducible refine State.roceData_leads ?_ ?_
    | with_reducible refine Leads.ite ?_ ?_
    | refine LeadsA.next ?_
    | split

theorem execCnpReceive_leads {ps : List Part} {s₀ s : State} {conn : ℕ} (hs : Leads ps s₀ s)
    (hp : [Part.ctr, Part.host] ⊆ ps) : LeadsA ps s₀ (execCnpReceive conn s) := by
  unfold execCnpReceive
  repeat' first
    | with_reducible assumption
    | with_reducible exact List.Subset.trans (List.Sublist.subset (by decide)) hp
    | with_reducible refine State.setHost_leads ?_ ?_
    | with_reducible refine State.bump_leads ?_ ?_
    | refine LeadsA.next ?_
    | split

theorem execEntryPost_leads {ps : List Part} {s₀ s : State} {box : ℕ} {deadLetter : Bool} (hs : Leads ps s₀ s)
    (hp : [Part.outbox, Part.ctr, Part.boxes] ⊆ ps) : LeadsA ps s₀ (execEntryPost box deadLetter s) := by
  unfold execEntryPost
  repeat' first
    | with_reducible assumption
    | with_reducible refine State.writeEntry_leads ?_ ?_
    | refine LeadsA.next ?_

theorem execEntryPosted_leads {ps : List Part} {s₀ s : State} {box : ℕ} {deadLetter : Bool} (hs : Leads ps s₀ s)
    (hp : [Part.items, Part.boxes] ⊆ ps) : LeadsA ps s₀ (execEntryPosted box deadLetter s) := by
  unfold execEntryPosted
  repeat' first
    | with_reducible assumption
    | with_reducible exact List.Subset.trans (List.Sublist.subset (by decide)) hp
    | extract_lets
    | with_reducible refine State.modBox_leads ?_ ?_
    | refine LeadsA.next ?_
    | split
    | with_reducible refine Leads.items ?_ ?_

theorem execNotice_leads {ps : List Part} {s₀ s : State} {box : ℕ} {deadLetter : Bool} (hs : Leads ps s₀ s)
    (hp : [Part.outbox, Part.time, Part.ctr, Part.boxes] ⊆ ps) : LeadsA ps s₀ (execNotice box deadLetter s) := by
  unfold execNotice
  repeat' first
    | with_reducible assumption
    | with_reducible exact List.Subset.trans (List.Sublist.subset (by decide)) hp
    | extract_lets
    | with_reducible refine State.sendNotice_leads ?_ ?_
    | refine LeadsA.next ?_
    | split
    | with_reducible refine Leads.time ?_ ?_

theorem execIdcode_leads {ps : List Part} {s₀ s : State}  (hs : Leads ps s₀ s)
    (hp : [Part.outbox, Part.test] ⊆ ps) : LeadsA ps s₀ (execIdcode s) := by
  unfold execIdcode
  repeat' first
    | with_reducible assumption
    | with_reducible refine State.tapSelect_leads ?_ ?_
    | refine LeadsA.next ?_

theorem execBypass_leads {ps : List Part} {s₀ s : State}  (hs : Leads ps s₀ s)
    (hp : [Part.outbox, Part.test] ⊆ ps) : LeadsA ps s₀ (execBypass s) := by
  unfold execBypass
  repeat' first
    | with_reducible assumption
    | with_reducible refine State.tapSelect_leads ?_ ?_
    | refine LeadsA.next ?_

theorem execTapReset_leads {ps : List Part} {s₀ s : State}  (hs : Leads ps s₀ s)
    (hp : [Part.test] ⊆ ps) : LeadsA ps s₀ (execTapReset s) := by
  unfold execTapReset
  repeat' first
    | with_reducible assumption
    | with_reducible refine State.setTest_leads ?_ ?_
    | refine LeadsA.next ?_

theorem execExtest_leads {ps : List Part} {s₀ s : State}  (hs : Leads ps s₀ s)
    (hp : [Part.outbox, Part.freeCount, Part.test] ⊆ ps) : LeadsA ps s₀ (execExtest s) := by
  unfold execExtest
  repeat' first
    | with_reducible assumption
    | with_reducible refine State.sampleBoundary_leads ?_ ?_
    | refine LeadsA.next ?_

theorem execSamplePreload_leads {ps : List Part} {s₀ s : State}  (hs : Leads ps s₀ s)
    (hp : [Part.outbox, Part.freeCount, Part.test] ⊆ ps) : LeadsA ps s₀ (execSamplePreload s) := by
  unfold execSamplePreload
  repeat' first
    | with_reducible assumption
    | with_reducible refine State.sampleBoundary_leads ?_ ?_
    | refine LeadsA.next ?_

theorem execNonce_leads {ps : List Part} {s₀ s : State}  (hs : Leads ps s₀ s)
    (hp : [Part.outbox, Part.test] ⊆ ps) : LeadsA ps s₀ (execNonce s) := by
  unfold execNonce
  repeat' first
    | with_reducible assumption
    | with_reducible refine State.tapSelect_leads ?_ ?_
    | refine LeadsA.next ?_

theorem execDtmcs_leads {ps : List Part} {s₀ s : State}  (hs : Leads ps s₀ s)
    (hp : [Part.outbox, Part.test] ⊆ ps) : LeadsA ps s₀ (execDtmcs s) := by
  unfold execDtmcs
  repeat' first
    | with_reducible assumption
    | with_reducible refine State.tapSelect_leads ?_ ?_
    | refine LeadsA.next ?_

theorem execTapScan_leads {ps : List Part} {s₀ s : State} {die : ℕ} {_shiftIn : W64} (hs : Leads ps s₀ s)
    (hp : [Part.outbox, Part.freeCount, Part.test] ⊆ ps) : LeadsA ps s₀ (execTapScan die _shiftIn s) := by
  unfold execTapScan
  repeat' first
    | with_reducible assumption
    | with_reducible refine State.production_leads ?_ ?_ ?_
    | with_reducible refine Leads.when ?_ ?_
    | (intro _; simp; done)
    | refine LeadsA.next ?_

theorem execLbist_leads {ps : List Part} {s₀ s : State} {core : ℕ} {patternSet : ℕ} {corner : ℕ} (hs : Leads ps s₀ s)
    (hp : [Part.outbox, Part.freeCount, Part.cores, Part.test] ⊆ ps) : LeadsA ps s₀ (execLbist core patternSet corner s) := by
  unfold execLbist
  repeat' first
    | with_reducible assumption
    | with_reducible exact List.Subset.trans (List.Sublist.subset (by decide)) hp
    | with_reducible refine State.production_leads ?_ ?_ ?_
    | with_reducible refine State.modCore_leads ?_ ?_ ?_
    | with_reducible refine Leads.when ?_ ?_
    | refine LeadsA.next ?_
    | exact fun _ h => h
    | (intro (u : State) hu; try dsimp only)

theorem execMbist_leads {ps : List Part} {s₀ s : State} {_memory : ℕ} (hs : Leads ps s₀ s)
    (hp : [Part.outbox, Part.freeCount, Part.cores, Part.test] ⊆ ps) : LeadsA ps s₀ (execMbist _memory s) := by
  unfold execMbist
  repeat' first
    | with_reducible assumption
    | with_reducible exact List.Subset.trans (List.Sublist.subset (by decide)) hp
    | extract_lets
    | with_reducible refine State.production_leads ?_ ?_ ?_
    | with_reducible refine State.draw_leads ?_ ?_
    | refine LeadsA.next ?_
    | exact fun _ h => h
    | (intro (u : State) hu; try dsimp only)
    | with_reducible refine Leads.coresMap ?_ ?_ ?_

theorem execHartHalt_leads {ps : List Part} {s₀ s : State} {hart : ℕ} (hs : Leads ps s₀ s)
    (hp : [Part.cores, Part.fw, Part.test] ⊆ ps) : LeadsA ps s₀ (execHartHalt hart s) := by
  unfold execHartHalt
  repeat' first
    | with_reducible assumption
    | with_reducible refine State.haltHart_leads ?_ ?_
    | refine LeadsA.next ?_

theorem execHartResume_leads {ps : List Part} {s₀ s : State} {hart : ℕ} (hs : Leads ps s₀ s)
    (hp : [Part.cores, Part.fw, Part.test] ⊆ ps) : LeadsA ps s₀ (execHartResume hart s) := by
  unfold execHartResume
  repeat' first
    | with_reducible assumption
    | with_reducible refine State.resumeHart_leads ?_ ?_
    | refine LeadsA.next ?_

theorem execHartSingleStep_leads {ps : List Part} {s₀ s : State} {hart : ℕ} (hs : Leads ps s₀ s)
    (hp : [Part.freeCount, Part.regs, Part.ctr, Part.cores, Part.places, Part.groups, Part.pages, Part.arenaWait, Part.poolWait, Part.items, Part.boxes, Part.mem, Part.memPoison, Part.protUnits, Part.dies, Part.tier, Part.log, Part.test] ⊆ ps) : LeadsA ps s₀ (execHartSingleStep hart s) := by
  unfold execHartSingleStep
  repeat' first
    | with_reducible assumption
    | with_reducible exact List.Subset.trans (List.Sublist.subset (by decide)) hp
    | with_reducible refine State.singleStep_leads ?_ ?_
    | with_reducible refine State.modHart_leads ?_ ?_
    | refine LeadsA.next ?_
    | split

theorem execAccessRegister_leads {ps : List Part} {s₀ s : State} {hart : ℕ} {regno : ℕ} {write : Option W64} (hs : Leads ps s₀ s)
    (hp : [Part.freeCount, Part.cores, Part.test] ⊆ ps) : LeadsA ps s₀ (execAccessRegister hart regno write s) := by
  unfold execAccessRegister
  repeat' first
    | with_reducible assumption
    | with_reducible refine State.accessRegister_leads ?_ ?_
    | refine LeadsA.next ?_

theorem execTriggerMatch_leads {ps : List Part} {s₀ s : State} {hart : ℕ} {kind : ℕ} {address : W64} (hs : Leads ps s₀ s)
    (hp : [Part.cores, Part.fw, Part.test] ⊆ ps) : LeadsA ps s₀ (execTriggerMatch hart kind address s) := by
  unfold execTriggerMatch
  repeat' first
    | with_reducible assumption
    | with_reducible refine State.haltHart_leads ?_ ?_
    | with_reducible refine Leads.when ?_ ?_
    | refine LeadsA.next ?_

theorem execSystemBusAccess_leads {ps : List Part} {s₀ s : State} {address : W64} {size : ℕ} {write : Option W64} (hs : Leads ps s₀ s)
    (hp : [Part.outbox, Part.freeCount, Part.pins, Part.time, Part.regs, Part.ctr, Part.cores, Part.places, Part.groups, Part.pages, Part.mirrors, Part.mirrorPages, Part.arenaWait, Part.poolWait, Part.items, Part.nextItem, Part.gang, Part.boxes, Part.mem, Part.memPoison, Part.protUnits, Part.hbm, Part.dies, Part.held, Part.tier, Part.cb, Part.fab, Part.links, Part.host, Part.log, Part.fw, Part.sec, Part.pwr, Part.test, Part.side] ⊆ ps) : LeadsA ps s₀ (execSystemBusAccess address size write s) := by
  unfold execSystemBusAccess
  repeat' first
    | with_reducible assumption
    | with_reducible refine State.systemBus_leads ?_ ?_
    | refine LeadsA.next ?_

theorem execDmi_leads {ps : List Part} {s₀ s : State} {op : ℕ} {addr : ℕ} {data : W32} (hs : Leads ps s₀ s)
    (hp : [Part.outbox, Part.freeCount, Part.pins, Part.time, Part.regs, Part.ctr, Part.cores, Part.places, Part.groups, Part.pages, Part.mirrors, Part.mirrorPages, Part.arenaWait, Part.poolWait, Part.items, Part.nextItem, Part.gang, Part.boxes, Part.mem, Part.memPoison, Part.protUnits, Part.hbm, Part.dies, Part.held, Part.tier, Part.cb, Part.fab, Part.links, Part.host, Part.log, Part.fw, Part.sec, Part.pwr, Part.test, Part.side] ⊆ ps) : LeadsA ps s₀ (execDmi op addr data s) := by
  unfold execDmi
  repeat' first
    | with_reducible assumption
    | with_reducible exact List.Subset.trans (List.Sublist.subset (by decide)) hp
    | extract_lets
    | with_reducible refine State.tapSelect_leads ?_ ?_
    | with_reducible refine State.setTest_leads ?_ ?_
    | with_reducible refine State.dmRead_leads ?_ ?_
    | with_reducible refine State.dmWrite_leads ?_ ?_
    | refine LeadsA.next ?_
    | split

theorem execSidebandReadRequest_leads {ps : List Part} {s₀ s : State} {frame : List Byte} (hs : Leads ps s₀ s)
    (hp : [Part.outbox, Part.freeCount, Part.pins, Part.time, Part.regs, Part.ctr, Part.cores, Part.places, Part.groups, Part.pages, Part.mirrors, Part.mirrorPages, Part.arenaWait, Part.poolWait, Part.items, Part.nextItem, Part.gang, Part.boxes, Part.mem, Part.memPoison, Part.protUnits, Part.hbm, Part.dies, Part.held, Part.tier, Part.cb, Part.fab, Part.links, Part.host, Part.log, Part.fw, Part.sec, Part.pwr, Part.test, Part.side] ⊆ ps) : LeadsA ps s₀ (execSidebandReadRequest frame s) := by
  unfold execSidebandReadRequest
  repeat' first
    | with_reducible assumption
    | with_reducible exact List.Subset.trans (List.Sublist.subset (by decide)) hp
    | with_reducible refine State.sideResult_leads ?_ ?_
    | with_reducible refine State.sideRequest_leads ?_ ?_
    | with_reducible refine Leads.when ?_ ?_
    | with_reducible refine Leads.ite ?_ ?_
    | refine LeadsA.next ?_

theorem execSidebandWriteRequest_leads {ps : List Part} {s₀ s : State} {frame : List Byte} (hs : Leads ps s₀ s)
    (hp : [Part.outbox, Part.freeCount, Part.pins, Part.time, Part.regs, Part.ctr, Part.cores, Part.places, Part.groups, Part.pages, Part.mirrors, Part.mirrorPages, Part.arenaWait, Part.poolWait, Part.items, Part.nextItem, Part.gang, Part.boxes, Part.mem, Part.memPoison, Part.protUnits, Part.hbm, Part.dies, Part.held, Part.tier, Part.cb, Part.fab, Part.links, Part.host, Part.log, Part.fw, Part.sec, Part.pwr, Part.test, Part.side] ⊆ ps) : LeadsA ps s₀ (execSidebandWriteRequest frame s) := by
  unfold execSidebandWriteRequest
  repeat' first
    | with_reducible assumption
    | with_reducible exact List.Subset.trans (List.Sublist.subset (by decide)) hp
    | with_reducible refine State.sideResult_leads ?_ ?_
    | with_reducible refine State.sideRequest_leads ?_ ?_
    | with_reducible refine Leads.when ?_ ?_
    | with_reducible refine Leads.ite ?_ ?_
    | refine LeadsA.next ?_

theorem execSidebandResultRead_leads {ps : List Part} {s₀ s : State}  (hs : Leads ps s₀ s)
    (hp : [Part.outbox, Part.side] ⊆ ps) : LeadsA ps s₀ (execSidebandResultRead s) := by
  unfold execSidebandResultRead
  repeat' first
    | with_reducible assumption
    | with_reducible exact List.Subset.trans (List.Sublist.subset (by decide)) hp
    | extract_lets
    | with_reducible refine State.emit_leads ?_ ?_
    | with_reducible refine State.setSide_leads ?_ ?_
    | with_reducible refine Leads.when ?_ ?_
    | refine LeadsA.next ?_

theorem execInBandInterrupt_leads {ps : List Part} {s₀ s : State}  (hs : Leads ps s₀ s)
    (hp : [Part.outbox] ⊆ ps) : LeadsA ps s₀ (execInBandInterrupt s) := by
  unfold execInBandInterrupt
  repeat' first
    | with_reducible assumption
    | with_reducible refine State.emit_leads ?_ ?_
    | with_reducible refine Leads.when ?_ ?_
    | refine LeadsA.next ?_

theorem execEnec_leads {ps : List Part} {s₀ s : State}  (hs : Leads ps s₀ s)
    (hp : [Part.side] ⊆ ps) : LeadsA ps s₀ (execEnec s) := by
  unfold execEnec
  repeat' first
    | with_reducible assumption
    | with_reducible refine State.setSide_leads ?_ ?_
    | with_reducible refine Leads.when ?_ ?_
    | refine LeadsA.next ?_

theorem execDisec_leads {ps : List Part} {s₀ s : State}  (hs : Leads ps s₀ s)
    (hp : [Part.side] ⊆ ps) : LeadsA ps s₀ (execDisec s) := by
  unfold execDisec
  repeat' first
    | with_reducible assumption
    | with_reducible refine State.setSide_leads ?_ ?_
    | with_reducible refine Leads.when ?_ ?_
    | refine LeadsA.next ?_

theorem execGetpid_leads {ps : List Part} {s₀ s : State}  (hs : Leads ps s₀ s)
    (hp : [Part.outbox] ⊆ ps) : LeadsA ps s₀ (execGetpid s) := by
  unfold execGetpid
  repeat' first
    | with_reducible assumption
    | with_reducible refine State.sideGet_leads ?_ ?_
    | refine LeadsA.next ?_

theorem execGetbcr_leads {ps : List Part} {s₀ s : State}  (hs : Leads ps s₀ s)
    (hp : [Part.outbox] ⊆ ps) : LeadsA ps s₀ (execGetbcr s) := by
  unfold execGetbcr
  repeat' first
    | with_reducible assumption
    | with_reducible refine State.sideGet_leads ?_ ?_
    | refine LeadsA.next ?_

theorem execGetdcr_leads {ps : List Part} {s₀ s : State}  (hs : Leads ps s₀ s)
    (hp : [Part.outbox] ⊆ ps) : LeadsA ps s₀ (execGetdcr s) := by
  unfold execGetdcr
  repeat' first
    | with_reducible assumption
    | with_reducible refine State.sideGet_leads ?_ ?_
    | refine LeadsA.next ?_

theorem execGetstatus_leads {ps : List Part} {s₀ s : State}  (hs : Leads ps s₀ s)
    (hp : [Part.outbox, Part.freeCount] ⊆ ps) : LeadsA ps s₀ (execGetstatus s) := by
  unfold execGetstatus
  repeat' first
    | with_reducible assumption
    | with_reducible exact List.Subset.trans (List.Sublist.subset (by decide)) hp
    | extract_lets
    | with_reducible refine State.draw_leads ?_ ?_
    | with_reducible refine State.emit_leads ?_ ?_
    | with_reducible refine Leads.when ?_ ?_
    | refine LeadsA.next ?_

theorem execGetmxds_leads {ps : List Part} {s₀ s : State}  (hs : Leads ps s₀ s)
    (hp : [Part.outbox] ⊆ ps) : LeadsA ps s₀ (execGetmxds s) := by
  unfold execGetmxds
  repeat' first
    | with_reducible assumption
    | with_reducible refine State.sideGet_leads ?_ ?_
    | refine LeadsA.next ?_

theorem execSetdasa_leads {ps : List Part} {s₀ s : State} {staticAddr : ℕ} {dynamicAddr : ℕ} (hs : Leads ps s₀ s)
    (hp : [Part.side] ⊆ ps) : LeadsA ps s₀ (execSetdasa staticAddr dynamicAddr s) := by
  unfold execSetdasa
  repeat' first
    | with_reducible assumption
    | with_reducible refine State.setSide_leads ?_ ?_
    | with_reducible refine Leads.when ?_ ?_
    | refine LeadsA.next ?_

theorem execEntdaa_leads {ps : List Part} {s₀ s : State} {dynamicAddr : ℕ} (hs : Leads ps s₀ s)
    (hp : [Part.outbox, Part.side] ⊆ ps) : LeadsA ps s₀ (execEntdaa dynamicAddr s) := by
  unfold execEntdaa
  repeat' first
    | with_reducible assumption
    | with_reducible exact List.Subset.trans (List.Sublist.subset (by decide)) hp
    | with_reducible refine State.setSide_leads ?_ ?_
    | with_reducible refine State.emit_leads ?_ ?_
    | with_reducible refine Leads.when ?_ ?_
    | refine LeadsA.next ?_

theorem execRstdaa_leads {ps : List Part} {s₀ s : State}  (hs : Leads ps s₀ s)
    (hp : [Part.side] ⊆ ps) : LeadsA ps s₀ (execRstdaa s) := by
  unfold execRstdaa
  repeat' first
    | with_reducible assumption
    | with_reducible refine State.setSide_leads ?_ ?_
    | with_reducible refine Leads.when ?_ ?_
    | refine LeadsA.next ?_

theorem execHotJoin_leads {ps : List Part} {s₀ s : State}  (hs : Leads ps s₀ s)
    (hp : [Part.outbox, Part.side] ⊆ ps) : LeadsA ps s₀ (execHotJoin s) := by
  unfold execHotJoin
  repeat' first
    | with_reducible assumption
    | with_reducible exact List.Subset.trans (List.Sublist.subset (by decide)) hp
    | with_reducible refine State.emit_leads ?_ ?_
    | with_reducible refine State.setSide_leads ?_ ?_
    | with_reducible refine Leads.when ?_ ?_
    | refine LeadsA.next ?_

end Sys2Proof.Machine
end

