-- ==== Sys2Proof/Laws/PerInstr.lean ====
section
/-! SUPPORT. A statement made for each command: the table gives no row bits, so no word spells the command. -/

namespace Sys2Proof.Laws.Unencoded

/-- No word of any width reads as the command. -/
def Statement (i : Sys2Proof.Instr) : Prop := ∀ nbits w : Nat, Sys2Proof.decodeTableWord nbits w ≠ some i

/-- The reading of a word never gives a command. -/
theorem of_any (i : Sys2Proof.Instr) : Statement i := fun _ _ h => nomatch h

end Sys2Proof.Laws.Unencoded

open Sys2Proof

theorem Sys2Proof.Laws.Unencoded.openGroup (id : Nat) : Sys2Proof.Laws.Unencoded.Statement (.openGroup id) :=
  Sys2Proof.Laws.Unencoded.of_any _
theorem Sys2Proof.Laws.Unencoded.fork (id : Nat) : Sys2Proof.Laws.Unencoded.Statement (.fork id) :=
  Sys2Proof.Laws.Unencoded.of_any _
theorem Sys2Proof.Laws.Unencoded.step (id : Nat) : Sys2Proof.Laws.Unencoded.Statement (.step id) :=
  Sys2Proof.Laws.Unencoded.of_any _
theorem Sys2Proof.Laws.Unencoded.stepCommit (id k : Nat) : Sys2Proof.Laws.Unencoded.Statement (.stepCommit id k) :=
  Sys2Proof.Laws.Unencoded.of_any _
theorem Sys2Proof.Laws.Unencoded.boundaryCull (id : Nat) : Sys2Proof.Laws.Unencoded.Statement (.boundaryCull id) :=
  Sys2Proof.Laws.Unencoded.of_any _
theorem Sys2Proof.Laws.Unencoded.cull (id : Nat) : Sys2Proof.Laws.Unencoded.Statement (.cull id) :=
  Sys2Proof.Laws.Unencoded.of_any _
theorem Sys2Proof.Laws.Unencoded.endStreams (id : Nat) : Sys2Proof.Laws.Unencoded.Statement (.endStreams id) :=
  Sys2Proof.Laws.Unencoded.of_any _
theorem Sys2Proof.Laws.Unencoded.closeGroup (id : Nat) : Sys2Proof.Laws.Unencoded.Statement (.closeGroup id) :=
  Sys2Proof.Laws.Unencoded.of_any _
theorem Sys2Proof.Laws.Unencoded.park (id : Nat) : Sys2Proof.Laws.Unencoded.Statement (.park id) :=
  Sys2Proof.Laws.Unencoded.of_any _
theorem Sys2Proof.Laws.Unencoded.recall (id : Nat) : Sys2Proof.Laws.Unencoded.Statement (.recall id) :=
  Sys2Proof.Laws.Unencoded.of_any _
theorem Sys2Proof.Laws.Unencoded.backward (id : Nat) : Sys2Proof.Laws.Unencoded.Statement (.backward id) :=
  Sys2Proof.Laws.Unencoded.of_any _
theorem Sys2Proof.Laws.Unencoded.kernel (id : Nat) : Sys2Proof.Laws.Unencoded.Statement (.kernel id) :=
  Sys2Proof.Laws.Unencoded.of_any _
theorem Sys2Proof.Laws.Unencoded.sync (id : Nat) : Sys2Proof.Laws.Unencoded.Statement (.sync id) :=
  Sys2Proof.Laws.Unencoded.of_any _
theorem Sys2Proof.Laws.Unencoded.ringEntryTake (box ring : Nat) : Sys2Proof.Laws.Unencoded.Statement (.ringEntryTake box ring) :=
  Sys2Proof.Laws.Unencoded.of_any _
theorem Sys2Proof.Laws.Unencoded.deadlineReached (id : Nat) : Sys2Proof.Laws.Unencoded.Statement (.deadlineReached id) :=
  Sys2Proof.Laws.Unencoded.of_any _
theorem Sys2Proof.Laws.Unencoded.instancePlace (id k : Nat) : Sys2Proof.Laws.Unencoded.Statement (.instancePlace id k) :=
  Sys2Proof.Laws.Unencoded.of_any _
theorem Sys2Proof.Laws.Unencoded.instanceStart (core : Nat) : Sys2Proof.Laws.Unencoded.Statement (.instanceStart core) :=
  Sys2Proof.Laws.Unencoded.of_any _
theorem Sys2Proof.Laws.Unencoded.instanceEnd (core : Nat) : Sys2Proof.Laws.Unencoded.Statement (.instanceEnd core) :=
  Sys2Proof.Laws.Unencoded.of_any _
theorem Sys2Proof.Laws.Unencoded.instanceSteal (core : Nat) : Sys2Proof.Laws.Unencoded.Statement (.instanceSteal core) :=
  Sys2Proof.Laws.Unencoded.of_any _
theorem Sys2Proof.Laws.Unencoded.kernelWatchdog (core : Nat) : Sys2Proof.Laws.Unencoded.Statement (.kernelWatchdog core) :=
  Sys2Proof.Laws.Unencoded.of_any _
theorem Sys2Proof.Laws.Unencoded.tdld (core clerk : Nat) : Sys2Proof.Laws.Unencoded.Statement (.tdld core clerk) :=
  Sys2Proof.Laws.Unencoded.of_any _
theorem Sys2Proof.Laws.Unencoded.tdst (core clerk : Nat) : Sys2Proof.Laws.Unencoded.Statement (.tdst core clerk) :=
  Sys2Proof.Laws.Unencoded.of_any _
theorem Sys2Proof.Laws.Unencoded.tdset (core clerk : Nat) : Sys2Proof.Laws.Unencoded.Statement (.tdset core clerk) :=
  Sys2Proof.Laws.Unencoded.of_any _
theorem Sys2Proof.Laws.Unencoded.mxwl (core clerk : Nat) : Sys2Proof.Laws.Unencoded.Statement (.mxwl core clerk) :=
  Sys2Proof.Laws.Unencoded.of_any _
theorem Sys2Proof.Laws.Unencoded.shadowReadySet (core : Nat) : Sys2Proof.Laws.Unencoded.Statement (.shadowReadySet core) :=
  Sys2Proof.Laws.Unencoded.of_any _
theorem Sys2Proof.Laws.Unencoded.mxmul (core clerk : Nat) : Sys2Proof.Laws.Unencoded.Statement (.mxmul core clerk) :=
  Sys2Proof.Laws.Unencoded.of_any _
theorem Sys2Proof.Laws.Unencoded.bankSwap (core : Nat) : Sys2Proof.Laws.Unencoded.Statement (.bankSwap core) :=
  Sys2Proof.Laws.Unencoded.of_any _
theorem Sys2Proof.Laws.Unencoded.drn (core clerk : Nat) : Sys2Proof.Laws.Unencoded.Statement (.drn core clerk) :=
  Sys2Proof.Laws.Unencoded.of_any _
theorem Sys2Proof.Laws.Unencoded.drainDone (core : Nat) : Sys2Proof.Laws.Unencoded.Statement (.drainDone core) :=
  Sys2Proof.Laws.Unencoded.of_any _
theorem Sys2Proof.Laws.Unencoded.crr (core clerk : Nat) : Sys2Proof.Laws.Unencoded.Statement (.crr core clerk) :=
  Sys2Proof.Laws.Unencoded.of_any _
theorem Sys2Proof.Laws.Unencoded.twait (core clerk : Nat) : Sys2Proof.Laws.Unencoded.Statement (.twait core clerk) :=
  Sys2Proof.Laws.Unencoded.of_any _
theorem Sys2Proof.Laws.Unencoded.tparm (core clerk : Nat) : Sys2Proof.Laws.Unencoded.Statement (.tparm core clerk) :=
  Sys2Proof.Laws.Unencoded.of_any _
theorem Sys2Proof.Laws.Unencoded.tstat (core clerk : Nat) : Sys2Proof.Laws.Unencoded.Statement (.tstat core clerk) :=
  Sys2Proof.Laws.Unencoded.of_any _
theorem Sys2Proof.Laws.Unencoded.ecall (core clerk : Nat) : Sys2Proof.Laws.Unencoded.Statement (.ecall core clerk) :=
  Sys2Proof.Laws.Unencoded.of_any _
theorem Sys2Proof.Laws.Unencoded.clerkTrap (core clerk : Nat) (kind : TrapKind) : Sys2Proof.Laws.Unencoded.Statement (.clerkTrap core clerk kind) :=
  Sys2Proof.Laws.Unencoded.of_any _
theorem Sys2Proof.Laws.Unencoded.issueQueueRoom (core clerk : Nat) : Sys2Proof.Laws.Unencoded.Statement (.issueQueueRoom core clerk) :=
  Sys2Proof.Laws.Unencoded.of_any _
theorem Sys2Proof.Laws.Unencoded.add (core clerk : Nat) : Sys2Proof.Laws.Unencoded.Statement (.add core clerk) :=
  Sys2Proof.Laws.Unencoded.of_any _
theorem Sys2Proof.Laws.Unencoded.sub (core clerk : Nat) : Sys2Proof.Laws.Unencoded.Statement (.sub core clerk) :=
  Sys2Proof.Laws.Unencoded.of_any _
theorem Sys2Proof.Laws.Unencoded.mul (core clerk : Nat) : Sys2Proof.Laws.Unencoded.Statement (.mul core clerk) :=
  Sys2Proof.Laws.Unencoded.of_any _
theorem Sys2Proof.Laws.Unencoded.fma (core clerk : Nat) : Sys2Proof.Laws.Unencoded.Statement (.fma core clerk) :=
  Sys2Proof.Laws.Unencoded.of_any _
theorem Sys2Proof.Laws.Unencoded.min (core clerk : Nat) : Sys2Proof.Laws.Unencoded.Statement (.min core clerk) :=
  Sys2Proof.Laws.Unencoded.of_any _
theorem Sys2Proof.Laws.Unencoded.max (core clerk : Nat) : Sys2Proof.Laws.Unencoded.Statement (.max core clerk) :=
  Sys2Proof.Laws.Unencoded.of_any _
theorem Sys2Proof.Laws.Unencoded.cmplt (core clerk : Nat) : Sys2Proof.Laws.Unencoded.Statement (.cmplt core clerk) :=
  Sys2Proof.Laws.Unencoded.of_any _
theorem Sys2Proof.Laws.Unencoded.cmpeq (core clerk : Nat) : Sys2Proof.Laws.Unencoded.Statement (.cmpeq core clerk) :=
  Sys2Proof.Laws.Unencoded.of_any _
theorem Sys2Proof.Laws.Unencoded.sel (core clerk : Nat) : Sys2Proof.Laws.Unencoded.Statement (.sel core clerk) :=
  Sys2Proof.Laws.Unencoded.of_any _
theorem Sys2Proof.Laws.Unencoded.cvt (core clerk : Nat) : Sys2Proof.Laws.Unencoded.Statement (.cvt core clerk) :=
  Sys2Proof.Laws.Unencoded.of_any _
theorem Sys2Proof.Laws.Unencoded.abs (core clerk : Nat) : Sys2Proof.Laws.Unencoded.Statement (.abs core clerk) :=
  Sys2Proof.Laws.Unencoded.of_any _
theorem Sys2Proof.Laws.Unencoded.neg (core clerk : Nat) : Sys2Proof.Laws.Unencoded.Statement (.neg core clerk) :=
  Sys2Proof.Laws.Unencoded.of_any _
theorem Sys2Proof.Laws.Unencoded.exp (core clerk : Nat) : Sys2Proof.Laws.Unencoded.Statement (.exp core clerk) :=
  Sys2Proof.Laws.Unencoded.of_any _
theorem Sys2Proof.Laws.Unencoded.log (core clerk : Nat) : Sys2Proof.Laws.Unencoded.Statement (.log core clerk) :=
  Sys2Proof.Laws.Unencoded.of_any _
theorem Sys2Proof.Laws.Unencoded.rcp (core clerk : Nat) : Sys2Proof.Laws.Unencoded.Statement (.rcp core clerk) :=
  Sys2Proof.Laws.Unencoded.of_any _
theorem Sys2Proof.Laws.Unencoded.rsqrt (core clerk : Nat) : Sys2Proof.Laws.Unencoded.Statement (.rsqrt core clerk) :=
  Sys2Proof.Laws.Unencoded.of_any _
theorem Sys2Proof.Laws.Unencoded.sigmoid (core clerk : Nat) : Sys2Proof.Laws.Unencoded.Statement (.sigmoid core clerk) :=
  Sys2Proof.Laws.Unencoded.of_any _
theorem Sys2Proof.Laws.Unencoded.tanh (core clerk : Nat) : Sys2Proof.Laws.Unencoded.Statement (.tanh core clerk) :=
  Sys2Proof.Laws.Unencoded.of_any _
theorem Sys2Proof.Laws.Unencoded.rsum (core clerk : Nat) : Sys2Proof.Laws.Unencoded.Statement (.rsum core clerk) :=
  Sys2Proof.Laws.Unencoded.of_any _
theorem Sys2Proof.Laws.Unencoded.rmax (core clerk : Nat) : Sys2Proof.Laws.Unencoded.Statement (.rmax core clerk) :=
  Sys2Proof.Laws.Unencoded.of_any _
theorem Sys2Proof.Laws.Unencoded.rargmax (core clerk : Nat) : Sys2Proof.Laws.Unencoded.Statement (.rargmax core clerk) :=
  Sys2Proof.Laws.Unencoded.of_any _
theorem Sys2Proof.Laws.Unencoded.rsumsq (core clerk : Nat) : Sys2Proof.Laws.Unencoded.Statement (.rsumsq core clerk) :=
  Sys2Proof.Laws.Unencoded.of_any _
theorem Sys2Proof.Laws.Unencoded.softmaxStep (core clerk : Nat) : Sys2Proof.Laws.Unencoded.Statement (.softmaxStep core clerk) :=
  Sys2Proof.Laws.Unencoded.of_any _
theorem Sys2Proof.Laws.Unencoded.softmaxFinal (core clerk : Nat) : Sys2Proof.Laws.Unencoded.Statement (.softmaxFinal core clerk) :=
  Sys2Proof.Laws.Unencoded.of_any _
theorem Sys2Proof.Laws.Unencoded.rmsnorm (core clerk : Nat) : Sys2Proof.Laws.Unencoded.Statement (.rmsnorm core clerk) :=
  Sys2Proof.Laws.Unencoded.of_any _
theorem Sys2Proof.Laws.Unencoded.layernorm (core clerk : Nat) : Sys2Proof.Laws.Unencoded.Statement (.layernorm core clerk) :=
  Sys2Proof.Laws.Unencoded.of_any _
theorem Sys2Proof.Laws.Unencoded.scan (core clerk : Nat) : Sys2Proof.Laws.Unencoded.Statement (.scan core clerk) :=
  Sys2Proof.Laws.Unencoded.of_any _
theorem Sys2Proof.Laws.Unencoded.stateRms (core clerk : Nat) : Sys2Proof.Laws.Unencoded.Statement (.stateRms core clerk) :=
  Sys2Proof.Laws.Unencoded.of_any _
theorem Sys2Proof.Laws.Unencoded.topk (core clerk : Nat) : Sys2Proof.Laws.Unencoded.Statement (.topk core clerk) :=
  Sys2Proof.Laws.Unencoded.of_any _
theorem Sys2Proof.Laws.Unencoded.pool (core clerk : Nat) : Sys2Proof.Laws.Unencoded.Statement (.pool core clerk) :=
  Sys2Proof.Laws.Unencoded.of_any _
theorem Sys2Proof.Laws.Unencoded.dwconv (core clerk : Nat) : Sys2Proof.Laws.Unencoded.Statement (.dwconv core clerk) :=
  Sys2Proof.Laws.Unencoded.of_any _
theorem Sys2Proof.Laws.Unencoded.walkIssue (core clerk : Nat) : Sys2Proof.Laws.Unencoded.Statement (.walkIssue core clerk) :=
  Sys2Proof.Laws.Unencoded.of_any _
theorem Sys2Proof.Laws.Unencoded.lengths (core q : Nat) : Sys2Proof.Laws.Unencoded.Statement (.lengths core q) :=
  Sys2Proof.Laws.Unencoded.of_any _
theorem Sys2Proof.Laws.Unencoded.gatherK (core q : Nat) : Sys2Proof.Laws.Unencoded.Statement (.gatherK core q) :=
  Sys2Proof.Laws.Unencoded.of_any _
theorem Sys2Proof.Laws.Unencoded.gatherV (core q : Nat) : Sys2Proof.Laws.Unencoded.Statement (.gatherV core q) :=
  Sys2Proof.Laws.Unencoded.of_any _
theorem Sys2Proof.Laws.Unencoded.appendK (core q : Nat) : Sys2Proof.Laws.Unencoded.Statement (.appendK core q) :=
  Sys2Proof.Laws.Unencoded.of_any _
theorem Sys2Proof.Laws.Unencoded.appendV (core q : Nat) : Sys2Proof.Laws.Unencoded.Statement (.appendV core q) :=
  Sys2Proof.Laws.Unencoded.of_any _
theorem Sys2Proof.Laws.Unencoded.bias (core q : Nat) : Sys2Proof.Laws.Unencoded.Statement (.bias core q) :=
  Sys2Proof.Laws.Unencoded.of_any _
theorem Sys2Proof.Laws.Unencoded.kvPoolAllocResume (box : Nat) : Sys2Proof.Laws.Unencoded.Statement (.kvPoolAllocResume box) :=
  Sys2Proof.Laws.Unencoded.of_any _
theorem Sys2Proof.Laws.Unencoded.mxeRampUp (core groups : Nat) : Sys2Proof.Laws.Unencoded.Statement (.mxeRampUp core groups) :=
  Sys2Proof.Laws.Unencoded.of_any _
theorem Sys2Proof.Laws.Unencoded.mxeRampDown (core groups : Nat) : Sys2Proof.Laws.Unencoded.Statement (.mxeRampDown core groups) :=
  Sys2Proof.Laws.Unencoded.of_any _
theorem Sys2Proof.Laws.Unencoded.mxeRampOff (core : Nat) : Sys2Proof.Laws.Unencoded.Statement (.mxeRampOff core) :=
  Sys2Proof.Laws.Unencoded.of_any _
theorem Sys2Proof.Laws.Unencoded.mxeRampReverse (core : Nat) : Sys2Proof.Laws.Unencoded.Statement (.mxeRampReverse core) :=
  Sys2Proof.Laws.Unencoded.of_any _
theorem Sys2Proof.Laws.Unencoded.pigeonholeRetire (core ph : Nat) (uncorrectable : Bool) (corrected : Nat) : Sys2Proof.Laws.Unencoded.Statement (.pigeonholeRetire core ph uncorrectable corrected) :=
  Sys2Proof.Laws.Unencoded.of_any _
theorem Sys2Proof.Laws.Unencoded.pigeonholeRemap (core : Nat) : Sys2Proof.Laws.Unencoded.Statement (.pigeonholeRemap core) :=
  Sys2Proof.Laws.Unencoded.of_any _
theorem Sys2Proof.Laws.Unencoded.expanderDecodeBlock (core tensor va dest : Nat) : Sys2Proof.Laws.Unencoded.Statement (.expanderDecodeBlock core tensor va dest) :=
  Sys2Proof.Laws.Unencoded.of_any _
theorem Sys2Proof.Laws.Unencoded.encodeBlock (core va : Nat) : Sys2Proof.Laws.Unencoded.Statement (.encodeBlock core va) :=
  Sys2Proof.Laws.Unencoded.of_any _
theorem Sys2Proof.Laws.Unencoded.encodeBufferWrite (core tensor va : Nat) (data : List Byte) : Sys2Proof.Laws.Unencoded.Statement (.encodeBufferWrite core tensor va data) :=
  Sys2Proof.Laws.Unencoded.of_any _
theorem Sys2Proof.Laws.Unencoded.encodeBufferWriteout (core : Nat) : Sys2Proof.Laws.Unencoded.Statement (.encodeBufferWriteout core) :=
  Sys2Proof.Laws.Unencoded.of_any _
theorem Sys2Proof.Laws.Unencoded.census (slot box alphabet : Nat) (accum : Bool) (va units : Nat) : Sys2Proof.Laws.Unencoded.Statement (.census slot box alphabet accum va units) :=
  Sys2Proof.Laws.Unencoded.of_any _
theorem Sys2Proof.Laws.Unencoded.replaceStaged (slot box : Nat) : Sys2Proof.Laws.Unencoded.Statement (.replaceStaged slot box) :=
  Sys2Proof.Laws.Unencoded.of_any _
theorem Sys2Proof.Laws.Unencoded.replaceImage (slot box va : Nat) : Sys2Proof.Laws.Unencoded.Statement (.replaceImage slot box va) :=
  Sys2Proof.Laws.Unencoded.of_any _
theorem Sys2Proof.Laws.Unencoded.release (slot box : Nat) : Sys2Proof.Laws.Unencoded.Statement (.release slot box) :=
  Sys2Proof.Laws.Unencoded.of_any _
theorem Sys2Proof.Laws.Unencoded.restore (slot box gen va : Nat) : Sys2Proof.Laws.Unencoded.Statement (.restore slot box gen va) :=
  Sys2Proof.Laws.Unencoded.of_any _
theorem Sys2Proof.Laws.Unencoded.codebookInstall (slot : Nat) : Sys2Proof.Laws.Unencoded.Statement (.codebookInstall slot) :=
  Sys2Proof.Laws.Unencoded.of_any _
theorem Sys2Proof.Laws.Unencoded.cas (da : Nat) (expected new : W64) : Sys2Proof.Laws.Unencoded.Statement (.cas da expected new) :=
  Sys2Proof.Laws.Unencoded.of_any _
theorem Sys2Proof.Laws.Unencoded.fetchAdd (da : Nat) (addend : W64) : Sys2Proof.Laws.Unencoded.Statement (.fetchAdd da addend) :=
  Sys2Proof.Laws.Unencoded.of_any _
theorem Sys2Proof.Laws.Unencoded.swap (da : Nat) (new : W64) : Sys2Proof.Laws.Unencoded.Statement (.swap da new) :=
  Sys2Proof.Laws.Unencoded.of_any _
theorem Sys2Proof.Laws.Unencoded.reductionWrite (box va : Nat) (data : List Byte) : Sys2Proof.Laws.Unencoded.Statement (.reductionWrite box va data) :=
  Sys2Proof.Laws.Unencoded.of_any _
theorem Sys2Proof.Laws.Unencoded.regulatorAdmit (die box : Nat) : Sys2Proof.Laws.Unencoded.Statement (.regulatorAdmit die box) :=
  Sys2Proof.Laws.Unencoded.of_any _
theorem Sys2Proof.Laws.Unencoded.hbmTempReport (stack celsius : Nat) : Sys2Proof.Laws.Unencoded.Statement (.hbmTempReport stack celsius) :=
  Sys2Proof.Laws.Unencoded.of_any _
theorem Sys2Proof.Laws.Unencoded.channelMapout (stack ch cause : Nat) : Sys2Proof.Laws.Unencoded.Statement (.channelMapout stack ch cause) :=
  Sys2Proof.Laws.Unencoded.of_any _
theorem Sys2Proof.Laws.Unencoded.evacuationPageCopy (die page : Nat) : Sys2Proof.Laws.Unencoded.Statement (.evacuationPageCopy die page) :=
  Sys2Proof.Laws.Unencoded.of_any _
theorem Sys2Proof.Laws.Unencoded.evacuationDone (die : Nat) : Sys2Proof.Laws.Unencoded.Statement (.evacuationDone die) :=
  Sys2Proof.Laws.Unencoded.of_any _
theorem Sys2Proof.Laws.Unencoded.redirectCopyBack (die page : Nat) : Sys2Proof.Laws.Unencoded.Statement (.redirectCopyBack die page) :=
  Sys2Proof.Laws.Unencoded.of_any _
theorem Sys2Proof.Laws.Unencoded.absentTouch (box va : Nat) : Sys2Proof.Laws.Unencoded.Statement (.absentTouch box va) :=
  Sys2Proof.Laws.Unencoded.of_any _
theorem Sys2Proof.Laws.Unencoded.granuleFillDone (granule : Nat) (uncorrectable : Bool) : Sys2Proof.Laws.Unencoded.Statement (.granuleFillDone granule uncorrectable) :=
  Sys2Proof.Laws.Unencoded.of_any _
theorem Sys2Proof.Laws.Unencoded.granuleWritebackDone (granule : Nat) : Sys2Proof.Laws.Unencoded.Statement (.granuleWritebackDone granule) :=
  Sys2Proof.Laws.Unencoded.of_any _
theorem Sys2Proof.Laws.Unencoded.ageWriteback : Sys2Proof.Laws.Unencoded.Statement (.ageWriteback) :=
  Sys2Proof.Laws.Unencoded.of_any _
theorem Sys2Proof.Laws.Unencoded.prefetch (box va units : Nat) : Sys2Proof.Laws.Unencoded.Statement (.prefetch box va units) :=
  Sys2Proof.Laws.Unencoded.of_any _
theorem Sys2Proof.Laws.Unencoded.tierFlush (box va units : Nat) : Sys2Proof.Laws.Unencoded.Statement (.tierFlush box va units) :=
  Sys2Proof.Laws.Unencoded.of_any _
theorem Sys2Proof.Laws.Unencoded.tierEvict (box va units : Nat) : Sys2Proof.Laws.Unencoded.Statement (.tierEvict box va units) :=
  Sys2Proof.Laws.Unencoded.of_any _
theorem Sys2Proof.Laws.Unencoded.discard (box va units : Nat) : Sys2Proof.Laws.Unencoded.Statement (.discard box va units) :=
  Sys2Proof.Laws.Unencoded.of_any _
theorem Sys2Proof.Laws.Unencoded.flashHousekeeping : Sys2Proof.Laws.Unencoded.Statement (.flashHousekeeping) :=
  Sys2Proof.Laws.Unencoded.of_any _
theorem Sys2Proof.Laws.Unencoded.readDisturbRelocate (block : Nat) : Sys2Proof.Laws.Unencoded.Statement (.readDisturbRelocate block) :=
  Sys2Proof.Laws.Unencoded.of_any _
theorem Sys2Proof.Laws.Unencoded.flashBlockRetire (block : Nat) : Sys2Proof.Laws.Unencoded.Statement (.flashBlockRetire block) :=
  Sys2Proof.Laws.Unencoded.of_any _
theorem Sys2Proof.Laws.Unencoded.flashStateChange (sparePermille wearPct : Nat) : Sys2Proof.Laws.Unencoded.Statement (.flashStateChange sparePermille wearPct) :=
  Sys2Proof.Laws.Unencoded.of_any _
theorem Sys2Proof.Laws.Unencoded.writeHeld (low : Bool) : Sys2Proof.Laws.Unencoded.Statement (.writeHeld low) :=
  Sys2Proof.Laws.Unencoded.of_any _
theorem Sys2Proof.Laws.Unencoded.ptpMessage (masterNs : Nat) (usable : Bool) : Sys2Proof.Laws.Unencoded.Statement (.ptpMessage masterNs usable) :=
  Sys2Proof.Laws.Unencoded.of_any _
theorem Sys2Proof.Laws.Unencoded.lossTimeout : Sys2Proof.Laws.Unencoded.Statement (.lossTimeout) :=
  Sys2Proof.Laws.Unencoded.of_any _
theorem Sys2Proof.Laws.Unencoded.holdoverLimit : Sys2Proof.Laws.Unencoded.Statement (.holdoverLimit) :=
  Sys2Proof.Laws.Unencoded.of_any _
theorem Sys2Proof.Laws.Unencoded.localStart : Sys2Proof.Laws.Unencoded.Statement (.localStart) :=
  Sys2Proof.Laws.Unencoded.of_any _
theorem Sys2Proof.Laws.Unencoded.firstRoundBoundary : Sys2Proof.Laws.Unencoded.Statement (.firstRoundBoundary) :=
  Sys2Proof.Laws.Unencoded.of_any _
theorem Sys2Proof.Laws.Unencoded.roundBoundary : Sys2Proof.Laws.Unencoded.Statement (.roundBoundary) :=
  Sys2Proof.Laws.Unencoded.of_any _
theorem Sys2Proof.Laws.Unencoded.collection (index : Nat) : Sys2Proof.Laws.Unencoded.Statement (.collection index) :=
  Sys2Proof.Laws.Unencoded.of_any _
theorem Sys2Proof.Laws.Unencoded.quietWindowStart (index : Nat) : Sys2Proof.Laws.Unencoded.Statement (.quietWindowStart index) :=
  Sys2Proof.Laws.Unencoded.of_any _
theorem Sys2Proof.Laws.Unencoded.sliceSchedule : Sys2Proof.Laws.Unencoded.Statement (.sliceSchedule) :=
  Sys2Proof.Laws.Unencoded.of_any _
theorem Sys2Proof.Laws.Unencoded.sliceStart (core : Nat) : Sys2Proof.Laws.Unencoded.Statement (.sliceStart core) :=
  Sys2Proof.Laws.Unencoded.of_any _
theorem Sys2Proof.Laws.Unencoded.sliceEnd (core : Nat) (observed : W64) (signatureMatches dip : Bool) : Sys2Proof.Laws.Unencoded.Statement (.sliceEnd core observed signatureMatches dip) :=
  Sys2Proof.Laws.Unencoded.of_any _
theorem Sys2Proof.Laws.Unencoded.sliceOverdue (core minutes : Nat) : Sys2Proof.Laws.Unencoded.Statement (.sliceOverdue core minutes) :=
  Sys2Proof.Laws.Unencoded.of_any _
theorem Sys2Proof.Laws.Unencoded.boxEnable (box session : Nat) : Sys2Proof.Laws.Unencoded.Statement (.boxEnable box session) :=
  Sys2Proof.Laws.Unencoded.of_any _
theorem Sys2Proof.Laws.Unencoded.boxDisable (box : Nat) : Sys2Proof.Laws.Unencoded.Statement (.boxDisable box) :=
  Sys2Proof.Laws.Unencoded.of_any _
theorem Sys2Proof.Laws.Unencoded.boxDrainLimit (box : Nat) : Sys2Proof.Laws.Unencoded.Statement (.boxDrainLimit box) :=
  Sys2Proof.Laws.Unencoded.of_any _
theorem Sys2Proof.Laws.Unencoded.boxQuiesce (box : Nat) : Sys2Proof.Laws.Unencoded.Statement (.boxQuiesce box) :=
  Sys2Proof.Laws.Unencoded.of_any _
theorem Sys2Proof.Laws.Unencoded.boxRelease (box : Nat) : Sys2Proof.Laws.Unencoded.Statement (.boxRelease box) :=
  Sys2Proof.Laws.Unencoded.of_any _
theorem Sys2Proof.Laws.Unencoded.outboundMoveDone (stream : Nat) : Sys2Proof.Laws.Unencoded.Statement (.outboundMoveDone stream) :=
  Sys2Proof.Laws.Unencoded.of_any _
theorem Sys2Proof.Laws.Unencoded.inboundMoveDone (stream : Nat) : Sys2Proof.Laws.Unencoded.Statement (.inboundMoveDone stream) :=
  Sys2Proof.Laws.Unencoded.of_any _
theorem Sys2Proof.Laws.Unencoded.arenaWaitResume (box : Nat) : Sys2Proof.Laws.Unencoded.Statement (.arenaWaitResume box) :=
  Sys2Proof.Laws.Unencoded.of_any _
theorem Sys2Proof.Laws.Unencoded.mirrorAck (stream : Nat) : Sys2Proof.Laws.Unencoded.Statement (.mirrorAck stream) :=
  Sys2Proof.Laws.Unencoded.of_any _
theorem Sys2Proof.Laws.Unencoded.mirrorTimeout (stream : Nat) : Sys2Proof.Laws.Unencoded.Statement (.mirrorTimeout stream) :=
  Sys2Proof.Laws.Unencoded.of_any _
theorem Sys2Proof.Laws.Unencoded.adoption (pos : Nat) : Sys2Proof.Laws.Unencoded.Statement (.adoption pos) :=
  Sys2Proof.Laws.Unencoded.of_any _
theorem Sys2Proof.Laws.Unencoded.mirrorResync (stream : Nat) : Sys2Proof.Laws.Unencoded.Statement (.mirrorResync stream) :=
  Sys2Proof.Laws.Unencoded.of_any _
theorem Sys2Proof.Laws.Unencoded.linkDetect (port d0 d1 d2 d3 : Nat) : Sys2Proof.Laws.Unencoded.Statement (.linkDetect port d0 d1 d2 d3) :=
  Sys2Proof.Laws.Unencoded.of_any _
theorem Sys2Proof.Laws.Unencoded.linkTrainDone (port farPos farPort farStepping : Nat) (polarity reversed : Bool) : Sys2Proof.Laws.Unencoded.Statement (.linkTrainDone port farPos farPort farStepping polarity reversed) :=
  Sys2Proof.Laws.Unencoded.of_any _
theorem Sys2Proof.Laws.Unencoded.linkNegotiate (port farVersion : Nat) : Sys2Proof.Laws.Unencoded.Statement (.linkNegotiate port farVersion) :=
  Sys2Proof.Laws.Unencoded.of_any _
theorem Sys2Proof.Laws.Unencoded.linkRetrain (port reason : Nat) : Sys2Proof.Laws.Unencoded.Statement (.linkRetrain port reason) :=
  Sys2Proof.Laws.Unencoded.of_any _
theorem Sys2Proof.Laws.Unencoded.retrainTimeout (port : Nat) : Sys2Proof.Laws.Unencoded.Statement (.retrainTimeout port) :=
  Sys2Proof.Laws.Unencoded.of_any _
theorem Sys2Proof.Laws.Unencoded.linkDownRetry (port : Nat) : Sys2Proof.Laws.Unencoded.Statement (.linkDownRetry port) :=
  Sys2Proof.Laws.Unencoded.of_any _
theorem Sys2Proof.Laws.Unencoded.linkCtrlPacket (port : Nat) (msg : LinkCtrl) : Sys2Proof.Laws.Unencoded.Statement (.linkCtrlPacket port msg) :=
  Sys2Proof.Laws.Unencoded.of_any _
theorem Sys2Proof.Laws.Unencoded.timeSync (port parentState : Nat) (offsetNs : Int) : Sys2Proof.Laws.Unencoded.Statement (.timeSync port parentState offsetNs) :=
  Sys2Proof.Laws.Unencoded.of_any _
theorem Sys2Proof.Laws.Unencoded.fence (port epoch : Nat) : Sys2Proof.Laws.Unencoded.Statement (.fence port epoch) :=
  Sys2Proof.Laws.Unencoded.of_any _
theorem Sys2Proof.Laws.Unencoded.fenceSend (port : Nat) : Sys2Proof.Laws.Unencoded.Statement (.fenceSend port) :=
  Sys2Proof.Laws.Unencoded.of_any _
theorem Sys2Proof.Laws.Unencoded.member (hdr : PktHdr) (msg : MemberMsg) : Sys2Proof.Laws.Unencoded.Statement (.member hdr msg) :=
  Sys2Proof.Laws.Unencoded.of_any _
theorem Sys2Proof.Laws.Unencoded.budget (hdr : PktHdr) (pos stamps : Nat) : Sys2Proof.Laws.Unencoded.Statement (.budget hdr pos stamps) :=
  Sys2Proof.Laws.Unencoded.of_any _
theorem Sys2Proof.Laws.Unencoded.item (hdr : PktHdr) (box ring count : Nat) (desc : List Byte) : Sys2Proof.Laws.Unencoded.Statement (.item hdr box ring count desc) :=
  Sys2Proof.Laws.Unencoded.of_any _
theorem Sys2Proof.Laws.Unencoded.result (hdr : PktHdr) (box : Nat) (tag : W64) (failed : Bool) (entry : List Byte) : Sys2Proof.Laws.Unencoded.Statement (.result hdr box tag failed entry) :=
  Sys2Proof.Laws.Unencoded.of_any _
theorem Sys2Proof.Laws.Unencoded.msgAck (hdr : PktHdr) (cls : Nat) : Sys2Proof.Laws.Unencoded.Statement (.msgAck hdr cls) :=
  Sys2Proof.Laws.Unencoded.of_any _
theorem Sys2Proof.Laws.Unencoded.bulk (hdr : PktHdr) (msg : BulkMsg) : Sys2Proof.Laws.Unencoded.Statement (.bulk hdr msg) :=
  Sys2Proof.Laws.Unencoded.of_any _
theorem Sys2Proof.Laws.Unencoded.e2eTimeout (dest cls seq : Nat) : Sys2Proof.Laws.Unencoded.Statement (.e2eTimeout dest cls seq) :=
  Sys2Proof.Laws.Unencoded.of_any _
theorem Sys2Proof.Laws.Unencoded.heartbeatSend : Sys2Proof.Laws.Unencoded.Statement (.heartbeatSend) :=
  Sys2Proof.Laws.Unencoded.of_any _
theorem Sys2Proof.Laws.Unencoded.heartbeatMiss (pos : Nat) : Sys2Proof.Laws.Unencoded.Statement (.heartbeatMiss pos) :=
  Sys2Proof.Laws.Unencoded.of_any _
theorem Sys2Proof.Laws.Unencoded.bundleLost (dir : Nat) : Sys2Proof.Laws.Unencoded.Statement (.bundleLost dir) :=
  Sys2Proof.Laws.Unencoded.of_any _
theorem Sys2Proof.Laws.Unencoded.isolatedTimeout (pos : Nat) : Sys2Proof.Laws.Unencoded.Statement (.isolatedTimeout pos) :=
  Sys2Proof.Laws.Unencoded.of_any _
theorem Sys2Proof.Laws.Unencoded.declareDead (pos : Nat) (reason : DeadReason) : Sys2Proof.Laws.Unencoded.Statement (.declareDead pos reason) :=
  Sys2Proof.Laws.Unencoded.of_any _
theorem Sys2Proof.Laws.Unencoded.standbyTakeover : Sys2Proof.Laws.Unencoded.Statement (.standbyTakeover) :=
  Sys2Proof.Laws.Unencoded.of_any _
theorem Sys2Proof.Laws.Unencoded.routeChange : Sys2Proof.Laws.Unencoded.Statement (.routeChange) :=
  Sys2Proof.Laws.Unencoded.of_any _
theorem Sys2Proof.Laws.Unencoded.routeTablesInstall (gen : Nat) (routes : List Nat) : Sys2Proof.Laws.Unencoded.Statement (.routeTablesInstall gen routes) :=
  Sys2Proof.Laws.Unencoded.of_any _
theorem Sys2Proof.Laws.Unencoded.routeGo (gen : Nat) : Sys2Proof.Laws.Unencoded.Statement (.routeGo gen) :=
  Sys2Proof.Laws.Unencoded.of_any _
theorem Sys2Proof.Laws.Unencoded.routeWaitDiscard (dir : Nat) : Sys2Proof.Laws.Unencoded.Statement (.routeWaitDiscard dir) :=
  Sys2Proof.Laws.Unencoded.of_any _
theorem Sys2Proof.Laws.Unencoded.join (req : JoinReq) : Sys2Proof.Laws.Unencoded.Statement (.join req) :=
  Sys2Proof.Laws.Unencoded.of_any _
theorem Sys2Proof.Laws.Unencoded.fabCmdDeclareDead (pos : Nat) : Sys2Proof.Laws.Unencoded.Statement (.fabCmdDeclareDead pos) :=
  Sys2Proof.Laws.Unencoded.of_any _
theorem Sys2Proof.Laws.Unencoded.clearBar (pos : Nat) : Sys2Proof.Laws.Unencoded.Statement (.clearBar pos) :=
  Sys2Proof.Laws.Unencoded.of_any _
theorem Sys2Proof.Laws.Unencoded.recomputeRoutes : Sys2Proof.Laws.Unencoded.Statement (.recomputeRoutes) :=
  Sys2Proof.Laws.Unencoded.of_any _
theorem Sys2Proof.Laws.Unencoded.hello (hdr : PbpHdr) (lowest highest : Nat) : Sys2Proof.Laws.Unencoded.Statement (.hello hdr lowest highest) :=
  Sys2Proof.Laws.Unencoded.of_any _
theorem Sys2Proof.Laws.Unencoded.bye (hdr : PbpHdr) : Sys2Proof.Laws.Unencoded.Statement (.bye hdr) :=
  Sys2Proof.Laws.Unencoded.of_any _
theorem Sys2Proof.Laws.Unencoded.keepalive (hdr : PbpHdr) : Sys2Proof.Laws.Unencoded.Statement (.keepalive hdr) :=
  Sys2Proof.Laws.Unencoded.of_any _
theorem Sys2Proof.Laws.Unencoded.regRead (hdr : PbpHdr) (addr : Nat) : Sys2Proof.Laws.Unencoded.Statement (.regRead hdr addr) :=
  Sys2Proof.Laws.Unencoded.of_any _
theorem Sys2Proof.Laws.Unencoded.regWrite (hdr : PbpHdr) (addr : Nat) (value : W32) : Sys2Proof.Laws.Unencoded.Statement (.regWrite hdr addr value) :=
  Sys2Proof.Laws.Unencoded.of_any _
theorem Sys2Proof.Laws.Unencoded.regBatch (hdr : PbpHdr) (ops : List RegOp) : Sys2Proof.Laws.Unencoded.Statement (.regBatch hdr ops) :=
  Sys2Proof.Laws.Unencoded.of_any _
theorem Sys2Proof.Laws.Unencoded.submitEmu (hdr : PbpHdr) (entry desc : List Byte) : Sys2Proof.Laws.Unencoded.Statement (.submitEmu hdr entry desc) :=
  Sys2Proof.Laws.Unencoded.of_any _
theorem Sys2Proof.Laws.Unencoded.connect (hdr : PbpHdr) (hostQp psn mtu role : Nat) : Sys2Proof.Laws.Unencoded.Statement (.connect hdr hostQp psn mtu role) :=
  Sys2Proof.Laws.Unencoded.of_any _
theorem Sys2Proof.Laws.Unencoded.ringSetup (hdr : PbpHdr) (kind : RingKind) (index sizeLog2 addr key : Nat) : Sys2Proof.Laws.Unencoded.Statement (.ringSetup hdr kind index sizeLog2 addr key) :=
  Sys2Proof.Laws.Unencoded.of_any _
theorem Sys2Proof.Laws.Unencoded.pbpResume (hdr : PbpHdr) (oldSession : Nat) : Sys2Proof.Laws.Unencoded.Statement (.pbpResume hdr oldSession) :=
  Sys2Proof.Laws.Unencoded.of_any _
theorem Sys2Proof.Laws.Unencoded.imageBegin (hdr : PbpHdr) (component size : Nat) : Sys2Proof.Laws.Unencoded.Statement (.imageBegin hdr component size) :=
  Sys2Proof.Laws.Unencoded.of_any _
theorem Sys2Proof.Laws.Unencoded.imageData (hdr : PbpHdr) (offset : Nat) (data : List Byte) : Sys2Proof.Laws.Unencoded.Statement (.imageData hdr offset data) :=
  Sys2Proof.Laws.Unencoded.of_any _
theorem Sys2Proof.Laws.Unencoded.imageEnd (hdr : PbpHdr) (component : Nat) : Sys2Proof.Laws.Unencoded.Statement (.imageEnd hdr component) :=
  Sys2Proof.Laws.Unencoded.of_any _
theorem Sys2Proof.Laws.Unencoded.start (hdr : PbpHdr) : Sys2Proof.Laws.Unencoded.Statement (.start hdr) :=
  Sys2Proof.Laws.Unencoded.of_any _
theorem Sys2Proof.Laws.Unencoded.map (hdr : PbpHdr) (va : Nat) (entry : W64) : Sys2Proof.Laws.Unencoded.Statement (.map hdr va entry) :=
  Sys2Proof.Laws.Unencoded.of_any _
theorem Sys2Proof.Laws.Unencoded.unmap (hdr : PbpHdr) (va : Nat) : Sys2Proof.Laws.Unencoded.Statement (.unmap hdr va) :=
  Sys2Proof.Laws.Unencoded.of_any _
theorem Sys2Proof.Laws.Unencoded.regionAdd (hdr : PbpHdr) (record : List Byte) : Sys2Proof.Laws.Unencoded.Statement (.regionAdd hdr record) :=
  Sys2Proof.Laws.Unencoded.of_any _
theorem Sys2Proof.Laws.Unencoded.regionSet (hdr : PbpHdr) (index encodeSlot thresh : Nat) : Sys2Proof.Laws.Unencoded.Statement (.regionSet hdr index encodeSlot thresh) :=
  Sys2Proof.Laws.Unencoded.of_any _
theorem Sys2Proof.Laws.Unencoded.codebook (hdr : PbpHdr) (word : W32) (addr length : Nat) : Sys2Proof.Laws.Unencoded.Statement (.codebook hdr word addr length) :=
  Sys2Proof.Laws.Unencoded.of_any _
theorem Sys2Proof.Laws.Unencoded.tier (hdr : PbpHdr) (word : W32) (addr length : Nat) : Sys2Proof.Laws.Unencoded.Statement (.tier hdr word addr length) :=
  Sys2Proof.Laws.Unencoded.of_any _
theorem Sys2Proof.Laws.Unencoded.keyInstall (hdr : PbpHdr) (key : List Byte) : Sys2Proof.Laws.Unencoded.Statement (.keyInstall hdr key) :=
  Sys2Proof.Laws.Unencoded.of_any _
theorem Sys2Proof.Laws.Unencoded.attest (hdr : PbpHdr) (nonce : List Byte) : Sys2Proof.Laws.Unencoded.Statement (.attest hdr nonce) :=
  Sys2Proof.Laws.Unencoded.of_any _
theorem Sys2Proof.Laws.Unencoded.fwStatus (hdr : PbpHdr) : Sys2Proof.Laws.Unencoded.Statement (.fwStatus hdr) :=
  Sys2Proof.Laws.Unencoded.of_any _
theorem Sys2Proof.Laws.Unencoded.sqTail (conn ring : Nat) (count : W32) : Sys2Proof.Laws.Unencoded.Statement (.sqTail conn ring count) :=
  Sys2Proof.Laws.Unencoded.of_any _
theorem Sys2Proof.Laws.Unencoded.cqHead (conn : Nat) (count : W32) : Sys2Proof.Laws.Unencoded.Statement (.cqHead conn count) :=
  Sys2Proof.Laws.Unencoded.of_any _
theorem Sys2Proof.Laws.Unencoded.dlqHead (conn : Nat) (count : W32) : Sys2Proof.Laws.Unencoded.Statement (.dlqHead conn count) :=
  Sys2Proof.Laws.Unencoded.of_any _
theorem Sys2Proof.Laws.Unencoded.rdmaWrite (conn key : Nat) (va : W64) (data : List Byte) : Sys2Proof.Laws.Unencoded.Statement (.rdmaWrite conn key va data) :=
  Sys2Proof.Laws.Unencoded.of_any _
theorem Sys2Proof.Laws.Unencoded.rdmaRead (conn key : Nat) (va : W64) (len : Nat) : Sys2Proof.Laws.Unencoded.Statement (.rdmaRead conn key va len) :=
  Sys2Proof.Laws.Unencoded.of_any _
theorem Sys2Proof.Laws.Unencoded.cnpReceive (conn : Nat) : Sys2Proof.Laws.Unencoded.Statement (.cnpReceive conn) :=
  Sys2Proof.Laws.Unencoded.of_any _
theorem Sys2Proof.Laws.Unencoded.entryPost (box : Nat) (deadLetter : Bool) : Sys2Proof.Laws.Unencoded.Statement (.entryPost box deadLetter) :=
  Sys2Proof.Laws.Unencoded.of_any _
theorem Sys2Proof.Laws.Unencoded.entryPosted (box : Nat) (deadLetter : Bool) : Sys2Proof.Laws.Unencoded.Statement (.entryPosted box deadLetter) :=
  Sys2Proof.Laws.Unencoded.of_any _
theorem Sys2Proof.Laws.Unencoded.notice (box : Nat) (deadLetter : Bool) : Sys2Proof.Laws.Unencoded.Statement (.notice box deadLetter) :=
  Sys2Proof.Laws.Unencoded.of_any _
theorem Sys2Proof.Laws.Unencoded.sessionTimeout (session : Nat) : Sys2Proof.Laws.Unencoded.Statement (.sessionTimeout session) :=
  Sys2Proof.Laws.Unencoded.of_any _
theorem Sys2Proof.Laws.Unencoded.hostLinkChange (speed an : Nat) (pcsLock : Bool) : Sys2Proof.Laws.Unencoded.Statement (.hostLinkChange speed an pcsLock) :=
  Sys2Proof.Laws.Unencoded.of_any _
theorem Sys2Proof.Laws.Unencoded.componentFault (component cause processor : Nat) (pc : W64) : Sys2Proof.Laws.Unencoded.Statement (.componentFault component cause processor pc) :=
  Sys2Proof.Laws.Unencoded.of_any _
theorem Sys2Proof.Laws.Unencoded.fwWatchdog (component : Nat) : Sys2Proof.Laws.Unencoded.Statement (.fwWatchdog component) :=
  Sys2Proof.Laws.Unencoded.of_any _
theorem Sys2Proof.Laws.Unencoded.componentRestart (component : Nat) (digestOk : Bool) : Sys2Proof.Laws.Unencoded.Statement (.componentRestart component digestOk) :=
  Sys2Proof.Laws.Unencoded.of_any _
theorem Sys2Proof.Laws.Unencoded.componentRunning (component : Nat) : Sys2Proof.Laws.Unencoded.Statement (.componentRunning component) :=
  Sys2Proof.Laws.Unencoded.of_any _
theorem Sys2Proof.Laws.Unencoded.restartOverrun (component : Nat) : Sys2Proof.Laws.Unencoded.Statement (.restartOverrun component) :=
  Sys2Proof.Laws.Unencoded.of_any _
theorem Sys2Proof.Laws.Unencoded.restartComponent (component : Nat) : Sys2Proof.Laws.Unencoded.Statement (.restartComponent component) :=
  Sys2Proof.Laws.Unencoded.of_any _
theorem Sys2Proof.Laws.Unencoded.resetModule : Sys2Proof.Laws.Unencoded.Statement (.resetModule) :=
  Sys2Proof.Laws.Unencoded.of_any _
theorem Sys2Proof.Laws.Unencoded.escalation (component firstCause secondCause : Nat) : Sys2Proof.Laws.Unencoded.Statement (.escalation component firstCause secondCause) :=
  Sys2Proof.Laws.Unencoded.of_any _
theorem Sys2Proof.Laws.Unencoded.mailboxSend (sender receiver : Nat) (message : List Byte) : Sys2Proof.Laws.Unencoded.Statement (.mailboxSend sender receiver message) :=
  Sys2Proof.Laws.Unencoded.of_any _
theorem Sys2Proof.Laws.Unencoded.supervisorTask : Sys2Proof.Laws.Unencoded.Statement (.supervisorTask) :=
  Sys2Proof.Laws.Unencoded.of_any _
theorem Sys2Proof.Laws.Unencoded.bootSequence : Sys2Proof.Laws.Unencoded.Statement (.bootSequence) :=
  Sys2Proof.Laws.Unencoded.of_any _
theorem Sys2Proof.Laws.Unencoded.fieldRecordWrite : Sys2Proof.Laws.Unencoded.Statement (.fieldRecordWrite) :=
  Sys2Proof.Laws.Unencoded.of_any _
theorem Sys2Proof.Laws.Unencoded.token (bytes : List Byte) : Sys2Proof.Laws.Unencoded.Statement (.token bytes) :=
  Sys2Proof.Laws.Unencoded.of_any _
theorem Sys2Proof.Laws.Unencoded.debugLifetimeExpiry : Sys2Proof.Laws.Unencoded.Statement (.debugLifetimeExpiry) :=
  Sys2Proof.Laws.Unencoded.of_any _
theorem Sys2Proof.Laws.Unencoded.secDbgLock : Sys2Proof.Laws.Unencoded.Statement (.secDbgLock) :=
  Sys2Proof.Laws.Unencoded.of_any _
theorem Sys2Proof.Laws.Unencoded.keyCmdInstall (box : Nat) : Sys2Proof.Laws.Unencoded.Statement (.keyCmdInstall box) :=
  Sys2Proof.Laws.Unencoded.of_any _
theorem Sys2Proof.Laws.Unencoded.keyCmdClear (box : Nat) : Sys2Proof.Laws.Unencoded.Statement (.keyCmdClear box) :=
  Sys2Proof.Laws.Unencoded.of_any _
theorem Sys2Proof.Laws.Unencoded.coreFence (core cause : Nat) : Sys2Proof.Laws.Unencoded.Statement (.coreFence core cause) :=
  Sys2Proof.Laws.Unencoded.of_any _
theorem Sys2Proof.Laws.Unencoded.coreSubstitute (logical : Nat) : Sys2Proof.Laws.Unencoded.Statement (.coreSubstitute logical) :=
  Sys2Proof.Laws.Unencoded.of_any _
theorem Sys2Proof.Laws.Unencoded.signatureWrite (kind unit : Nat) (detailA detailB : W64) : Sys2Proof.Laws.Unencoded.Statement (.signatureWrite kind unit detailA detailB) :=
  Sys2Proof.Laws.Unencoded.of_any _
theorem Sys2Proof.Laws.Unencoded.coreReturn (core : Nat) (allPassed : Bool) : Sys2Proof.Laws.Unencoded.Statement (.coreReturn core allPassed) :=
  Sys2Proof.Laws.Unencoded.of_any _
theorem Sys2Proof.Laws.Unencoded.drainTimeout (core : Nat) : Sys2Proof.Laws.Unencoded.Statement (.drainTimeout core) :=
  Sys2Proof.Laws.Unencoded.of_any _
theorem Sys2Proof.Laws.Unencoded.controlParityError (core : Nat) : Sys2Proof.Laws.Unencoded.Statement (.controlParityError core) :=
  Sys2Proof.Laws.Unencoded.of_any _
theorem Sys2Proof.Laws.Unencoded.staleCoreRequest (core incarnation : Nat) : Sys2Proof.Laws.Unencoded.Statement (.staleCoreRequest core incarnation) :=
  Sys2Proof.Laws.Unencoded.of_any _
theorem Sys2Proof.Laws.Unencoded.poisonConsumed (core va : Nat) : Sys2Proof.Laws.Unencoded.Statement (.poisonConsumed core va) :=
  Sys2Proof.Laws.Unencoded.of_any _
theorem Sys2Proof.Laws.Unencoded.ledgerEntryUe (id : Nat) (tagClean positionClean : Bool) : Sys2Proof.Laws.Unencoded.Statement (.ledgerEntryUe id tagClean positionClean) :=
  Sys2Proof.Laws.Unencoded.of_any _
theorem Sys2Proof.Laws.Unencoded.dispositionRecord (id : Nat) : Sys2Proof.Laws.Unencoded.Statement (.dispositionRecord id) :=
  Sys2Proof.Laws.Unencoded.of_any _
theorem Sys2Proof.Laws.Unencoded.recordAccept : Sys2Proof.Laws.Unencoded.Statement (.recordAccept) :=
  Sys2Proof.Laws.Unencoded.of_any _
theorem Sys2Proof.Laws.Unencoded.recorderFlush : Sys2Proof.Laws.Unencoded.Statement (.recorderFlush) :=
  Sys2Proof.Laws.Unencoded.of_any _
theorem Sys2Proof.Laws.Unencoded.logCursorWrite (lo : W32) : Sys2Proof.Laws.Unencoded.Statement (.logCursorWrite lo) :=
  Sys2Proof.Laws.Unencoded.of_any _
theorem Sys2Proof.Laws.Unencoded.logOldestRead : Sys2Proof.Laws.Unencoded.Statement (.logOldestRead) :=
  Sys2Proof.Laws.Unencoded.of_any _
theorem Sys2Proof.Laws.Unencoded.roundNowRead : Sys2Proof.Laws.Unencoded.Statement (.roundNowRead) :=
  Sys2Proof.Laws.Unencoded.of_any _
theorem Sys2Proof.Laws.Unencoded.counterLowRead (addr : Nat) : Sys2Proof.Laws.Unencoded.Statement (.counterLowRead addr) :=
  Sys2Proof.Laws.Unencoded.of_any _
theorem Sys2Proof.Laws.Unencoded.sigPmRead : Sys2Proof.Laws.Unencoded.Statement (.sigPmRead) :=
  Sys2Proof.Laws.Unencoded.of_any _
theorem Sys2Proof.Laws.Unencoded.sigCursorWrite (value : W32) : Sys2Proof.Laws.Unencoded.Statement (.sigCursorWrite value) :=
  Sys2Proof.Laws.Unencoded.of_any _
theorem Sys2Proof.Laws.Unencoded.grantRequest (core mode : Nat) : Sys2Proof.Laws.Unencoded.Statement (.grantRequest core mode) :=
  Sys2Proof.Laws.Unencoded.of_any _
theorem Sys2Proof.Laws.Unencoded.queuedGrant : Sys2Proof.Laws.Unencoded.Statement (.queuedGrant) :=
  Sys2Proof.Laws.Unencoded.of_any _
theorem Sys2Proof.Laws.Unencoded.grantRevoke : Sys2Proof.Laws.Unencoded.Statement (.grantRevoke) :=
  Sys2Proof.Laws.Unencoded.of_any _
theorem Sys2Proof.Laws.Unencoded.budgetMove : Sys2Proof.Laws.Unencoded.Statement (.budgetMove) :=
  Sys2Proof.Laws.Unencoded.of_any _
theorem Sys2Proof.Laws.Unencoded.railWarning (die millivolt : Nat) : Sys2Proof.Laws.Unencoded.Statement (.railWarning die millivolt) :=
  Sys2Proof.Laws.Unencoded.of_any _
theorem Sys2Proof.Laws.Unencoded.railWarningExit (die lowestMv durationNs : Nat) : Sys2Proof.Laws.Unencoded.Statement (.railWarningExit die lowestMv durationNs) :=
  Sys2Proof.Laws.Unencoded.of_any _
theorem Sys2Proof.Laws.Unencoded.longDip (die : Nat) : Sys2Proof.Laws.Unencoded.Statement (.longDip die) :=
  Sys2Proof.Laws.Unencoded.of_any _
theorem Sys2Proof.Laws.Unencoded.dieSupplyReset (die lowestMv : Nat) : Sys2Proof.Laws.Unencoded.Statement (.dieSupplyReset die lowestMv) :=
  Sys2Proof.Laws.Unencoded.of_any _
theorem Sys2Proof.Laws.Unencoded.dieResetRelease (die : Nat) (passed : BitVec 17) : Sys2Proof.Laws.Unencoded.Statement (.dieResetRelease die passed) :=
  Sys2Proof.Laws.Unencoded.of_any _
theorem Sys2Proof.Laws.Unencoded.railShort (rail : Nat) : Sys2Proof.Laws.Unencoded.Statement (.railShort rail) :=
  Sys2Proof.Laws.Unencoded.of_any _
theorem Sys2Proof.Laws.Unencoded.inputWarning (millivolt : Nat) : Sys2Proof.Laws.Unencoded.Statement (.inputWarning millivolt) :=
  Sys2Proof.Laws.Unencoded.of_any _
theorem Sys2Proof.Laws.Unencoded.inputWarningExit (millivolt : Nat) : Sys2Proof.Laws.Unencoded.Statement (.inputWarningExit millivolt) :=
  Sys2Proof.Laws.Unencoded.of_any _
theorem Sys2Proof.Laws.Unencoded.inputShutdown (millivolt : Nat) : Sys2Proof.Laws.Unencoded.Statement (.inputShutdown millivolt) :=
  Sys2Proof.Laws.Unencoded.of_any _
theorem Sys2Proof.Laws.Unencoded.reversedPolarity : Sys2Proof.Laws.Unencoded.Statement (.reversedPolarity) :=
  Sys2Proof.Laws.Unencoded.of_any _
theorem Sys2Proof.Laws.Unencoded.thermalFactorFall (celsius : Nat) : Sys2Proof.Laws.Unencoded.Statement (.thermalFactorFall celsius) :=
  Sys2Proof.Laws.Unencoded.of_any _
theorem Sys2Proof.Laws.Unencoded.thermalFactorRise (celsius : Nat) : Sys2Proof.Laws.Unencoded.Statement (.thermalFactorRise celsius) :=
  Sys2Proof.Laws.Unencoded.of_any _
theorem Sys2Proof.Laws.Unencoded.thermalTrip (sensor celsius : Nat) : Sys2Proof.Laws.Unencoded.Statement (.thermalTrip sensor celsius) :=
  Sys2Proof.Laws.Unencoded.of_any _
theorem Sys2Proof.Laws.Unencoded.sensorOpen (sensor : Nat) : Sys2Proof.Laws.Unencoded.Statement (.sensorOpen sensor) :=
  Sys2Proof.Laws.Unencoded.of_any _
theorem Sys2Proof.Laws.Unencoded.regulatorStart (millivolt : Nat) : Sys2Proof.Laws.Unencoded.Statement (.regulatorStart millivolt) :=
  Sys2Proof.Laws.Unencoded.of_any _
theorem Sys2Proof.Laws.Unencoded.pwrEnFall : Sys2Proof.Laws.Unencoded.Statement (.pwrEnFall) :=
  Sys2Proof.Laws.Unencoded.of_any _
theorem Sys2Proof.Laws.Unencoded.d2dLinkDown (die link : Nat) : Sys2Proof.Laws.Unencoded.Statement (.d2dLinkDown die link) :=
  Sys2Proof.Laws.Unencoded.of_any _
theorem Sys2Proof.Laws.Unencoded.genEn (page : Nat) (on : Bool) (pattern mask : Nat) : Sys2Proof.Laws.Unencoded.Statement (.genEn page on pattern mask) :=
  Sys2Proof.Laws.Unencoded.of_any _
theorem Sys2Proof.Laws.Unencoded.chkEn (page : Nat) (on : Bool) (pattern mask : Nat) : Sys2Proof.Laws.Unencoded.Statement (.chkEn page on pattern mask) :=
  Sys2Proof.Laws.Unencoded.of_any _
theorem Sys2Proof.Laws.Unencoded.inject (page : Nat) : Sys2Proof.Laws.Unencoded.Statement (.inject page) :=
  Sys2Proof.Laws.Unencoded.of_any _
theorem Sys2Proof.Laws.Unencoded.checkerLock (page lane : Nat) (inverted : Bool) : Sys2Proof.Laws.Unencoded.Statement (.checkerLock page lane inverted) :=
  Sys2Proof.Laws.Unencoded.of_any _
theorem Sys2Proof.Laws.Unencoded.checkerLoss (page lane compared errors : Nat) : Sys2Proof.Laws.Unencoded.Statement (.checkerLoss page lane compared errors) :=
  Sys2Proof.Laws.Unencoded.of_any _
theorem Sys2Proof.Laws.Unencoded.extest : Sys2Proof.Laws.Unencoded.Statement (.extest) :=
  Sys2Proof.Laws.Unencoded.of_any _
theorem Sys2Proof.Laws.Unencoded.idcode : Sys2Proof.Laws.Unencoded.Statement (.idcode) :=
  Sys2Proof.Laws.Unencoded.of_any _
theorem Sys2Proof.Laws.Unencoded.samplePreload : Sys2Proof.Laws.Unencoded.Statement (.samplePreload) :=
  Sys2Proof.Laws.Unencoded.of_any _
theorem Sys2Proof.Laws.Unencoded.nonce : Sys2Proof.Laws.Unencoded.Statement (.nonce) :=
  Sys2Proof.Laws.Unencoded.of_any _
theorem Sys2Proof.Laws.Unencoded.dtmcs : Sys2Proof.Laws.Unencoded.Statement (.dtmcs) :=
  Sys2Proof.Laws.Unencoded.of_any _
theorem Sys2Proof.Laws.Unencoded.dmi (op addr : Nat) (data : W32) : Sys2Proof.Laws.Unencoded.Statement (.dmi op addr data) :=
  Sys2Proof.Laws.Unencoded.of_any _
theorem Sys2Proof.Laws.Unencoded.tapScan (die : Nat) (shiftIn : W64) : Sys2Proof.Laws.Unencoded.Statement (.tapScan die shiftIn) :=
  Sys2Proof.Laws.Unencoded.of_any _
theorem Sys2Proof.Laws.Unencoded.lbist (core patternSet corner : Nat) : Sys2Proof.Laws.Unencoded.Statement (.lbist core patternSet corner) :=
  Sys2Proof.Laws.Unencoded.of_any _
theorem Sys2Proof.Laws.Unencoded.mbist (memory : Nat) : Sys2Proof.Laws.Unencoded.Statement (.mbist memory) :=
  Sys2Proof.Laws.Unencoded.of_any _
theorem Sys2Proof.Laws.Unencoded.bypass : Sys2Proof.Laws.Unencoded.Statement (.bypass) :=
  Sys2Proof.Laws.Unencoded.of_any _
theorem Sys2Proof.Laws.Unencoded.hartHalt (hart : Nat) : Sys2Proof.Laws.Unencoded.Statement (.hartHalt hart) :=
  Sys2Proof.Laws.Unencoded.of_any _
theorem Sys2Proof.Laws.Unencoded.hartResume (hart : Nat) : Sys2Proof.Laws.Unencoded.Statement (.hartResume hart) :=
  Sys2Proof.Laws.Unencoded.of_any _
theorem Sys2Proof.Laws.Unencoded.hartSingleStep (hart : Nat) : Sys2Proof.Laws.Unencoded.Statement (.hartSingleStep hart) :=
  Sys2Proof.Laws.Unencoded.of_any _
theorem Sys2Proof.Laws.Unencoded.accessRegister (hart regno : Nat) (write : Option W64) : Sys2Proof.Laws.Unencoded.Statement (.accessRegister hart regno write) :=
  Sys2Proof.Laws.Unencoded.of_any _
theorem Sys2Proof.Laws.Unencoded.triggerMatch (hart : Nat) (kind : Nat) (address : W64) : Sys2Proof.Laws.Unencoded.Statement (.triggerMatch hart kind address) :=
  Sys2Proof.Laws.Unencoded.of_any _
theorem Sys2Proof.Laws.Unencoded.systemBusAccess (address : W64) (size : Nat) (write : Option W64) : Sys2Proof.Laws.Unencoded.Statement (.systemBusAccess address size write) :=
  Sys2Proof.Laws.Unencoded.of_any _
theorem Sys2Proof.Laws.Unencoded.sidebandReadRequest (frame : List Byte) : Sys2Proof.Laws.Unencoded.Statement (.sidebandReadRequest frame) :=
  Sys2Proof.Laws.Unencoded.of_any _
theorem Sys2Proof.Laws.Unencoded.sidebandWriteRequest (frame : List Byte) : Sys2Proof.Laws.Unencoded.Statement (.sidebandWriteRequest frame) :=
  Sys2Proof.Laws.Unencoded.of_any _
theorem Sys2Proof.Laws.Unencoded.sidebandResultRead : Sys2Proof.Laws.Unencoded.Statement (.sidebandResultRead) :=
  Sys2Proof.Laws.Unencoded.of_any _
theorem Sys2Proof.Laws.Unencoded.inBandInterrupt : Sys2Proof.Laws.Unencoded.Statement (.inBandInterrupt) :=
  Sys2Proof.Laws.Unencoded.of_any _
theorem Sys2Proof.Laws.Unencoded.enec : Sys2Proof.Laws.Unencoded.Statement (.enec) :=
  Sys2Proof.Laws.Unencoded.of_any _
theorem Sys2Proof.Laws.Unencoded.disec : Sys2Proof.Laws.Unencoded.Statement (.disec) :=
  Sys2Proof.Laws.Unencoded.of_any _
theorem Sys2Proof.Laws.Unencoded.getpid : Sys2Proof.Laws.Unencoded.Statement (.getpid) :=
  Sys2Proof.Laws.Unencoded.of_any _
theorem Sys2Proof.Laws.Unencoded.getbcr : Sys2Proof.Laws.Unencoded.Statement (.getbcr) :=
  Sys2Proof.Laws.Unencoded.of_any _
theorem Sys2Proof.Laws.Unencoded.getdcr : Sys2Proof.Laws.Unencoded.Statement (.getdcr) :=
  Sys2Proof.Laws.Unencoded.of_any _
theorem Sys2Proof.Laws.Unencoded.getstatus : Sys2Proof.Laws.Unencoded.Statement (.getstatus) :=
  Sys2Proof.Laws.Unencoded.of_any _
theorem Sys2Proof.Laws.Unencoded.getmxds : Sys2Proof.Laws.Unencoded.Statement (.getmxds) :=
  Sys2Proof.Laws.Unencoded.of_any _
theorem Sys2Proof.Laws.Unencoded.setdasa (staticAddr dynamicAddr : Nat) : Sys2Proof.Laws.Unencoded.Statement (.setdasa staticAddr dynamicAddr) :=
  Sys2Proof.Laws.Unencoded.of_any _
theorem Sys2Proof.Laws.Unencoded.entdaa (dynamicAddr : Nat) : Sys2Proof.Laws.Unencoded.Statement (.entdaa dynamicAddr) :=
  Sys2Proof.Laws.Unencoded.of_any _
theorem Sys2Proof.Laws.Unencoded.rstdaa : Sys2Proof.Laws.Unencoded.Statement (.rstdaa) :=
  Sys2Proof.Laws.Unencoded.of_any _
theorem Sys2Proof.Laws.Unencoded.hotJoin : Sys2Proof.Laws.Unencoded.Statement (.hotJoin) :=
  Sys2Proof.Laws.Unencoded.of_any _
theorem Sys2Proof.Laws.Unencoded.drain (core : Nat) : Sys2Proof.Laws.Unencoded.Statement (.drain core) :=
  Sys2Proof.Laws.Unencoded.of_any _
theorem Sys2Proof.Laws.Unencoded.coreResume (core : Nat) : Sys2Proof.Laws.Unencoded.Statement (.coreResume core) :=
  Sys2Proof.Laws.Unencoded.of_any _
theorem Sys2Proof.Laws.Unencoded.coreDrained (core : Nat) : Sys2Proof.Laws.Unencoded.Statement (.coreDrained core) :=
  Sys2Proof.Laws.Unencoded.of_any _
theorem Sys2Proof.Laws.Unencoded.coreMapWrite (index : Nat) (value : W32) : Sys2Proof.Laws.Unencoded.Statement (.coreMapWrite index value) :=
  Sys2Proof.Laws.Unencoded.of_any _
theorem Sys2Proof.Laws.Unencoded.acmMapWrite (core : Nat) (value : W32) : Sys2Proof.Laws.Unencoded.Statement (.acmMapWrite core value) :=
  Sys2Proof.Laws.Unencoded.of_any _
theorem Sys2Proof.Laws.Unencoded.stateWindowWrite (core : Nat) (value : W32) : Sys2Proof.Laws.Unencoded.Statement (.stateWindowWrite core value) :=
  Sys2Proof.Laws.Unencoded.of_any _
theorem Sys2Proof.Laws.Unencoded.handleSelWrite (core : Nat) (value : W32) : Sys2Proof.Laws.Unencoded.Statement (.handleSelWrite core value) :=
  Sys2Proof.Laws.Unencoded.of_any _
theorem Sys2Proof.Laws.Unencoded.flush (core : Nat) : Sys2Proof.Laws.Unencoded.Statement (.flush core) :=
  Sys2Proof.Laws.Unencoded.of_any _
theorem Sys2Proof.Laws.Unencoded.hbmMapoutGo (stack ch : Nat) : Sys2Proof.Laws.Unencoded.Statement (.hbmMapoutGo stack ch) :=
  Sys2Proof.Laws.Unencoded.of_any _
theorem Sys2Proof.Laws.Unencoded.retrain (port : Nat) : Sys2Proof.Laws.Unencoded.Statement (.retrain port) :=
  Sys2Proof.Laws.Unencoded.of_any _
theorem Sys2Proof.Laws.Unencoded.linkEnableWrite (port : Nat) (on : Bool) : Sys2Proof.Laws.Unencoded.Statement (.linkEnableWrite port on) :=
  Sys2Proof.Laws.Unencoded.of_any _
theorem Sys2Proof.Laws.Unencoded.lockWrite (page : Nat) : Sys2Proof.Laws.Unencoded.Statement (.lockWrite page) :=
  Sys2Proof.Laws.Unencoded.of_any _
theorem Sys2Proof.Laws.Unencoded.w1cWrite (addr : Nat) (value hwSets : W32) : Sys2Proof.Laws.Unencoded.Statement (.w1cWrite addr value hwSets) :=
  Sys2Proof.Laws.Unencoded.of_any _
theorem Sys2Proof.Laws.Unencoded.registerWrite (addr size : Nat) (value : W32) : Sys2Proof.Laws.Unencoded.Statement (.registerWrite addr size value) :=
  Sys2Proof.Laws.Unencoded.of_any _
theorem Sys2Proof.Laws.Unencoded.quietWindowEnd (index : Nat) : Sys2Proof.Laws.Unencoded.Statement (.quietWindowEnd index) :=
  Sys2Proof.Laws.Unencoded.of_any _
theorem Sys2Proof.Laws.Unencoded.inletWarn (celsius : Nat) : Sys2Proof.Laws.Unencoded.Statement (.inletWarn celsius) :=
  Sys2Proof.Laws.Unencoded.of_any _
theorem Sys2Proof.Laws.Unencoded.tapReset : Sys2Proof.Laws.Unencoded.Statement (.tapReset) :=
  Sys2Proof.Laws.Unencoded.of_any _
theorem Sys2Proof.Laws.Unencoded.tokenCheckDone : Sys2Proof.Laws.Unencoded.Statement (.tokenCheckDone) :=
  Sys2Proof.Laws.Unencoded.of_any _
theorem Sys2Proof.Laws.Unencoded.formation (present managers a1 : List Nat) (cfg : List W32) : Sys2Proof.Laws.Unencoded.Statement (.formation present managers a1 cfg) :=
  Sys2Proof.Laws.Unencoded.of_any _
theorem Sys2Proof.Laws.Unencoded.escArmedExpiry (component : Nat) : Sys2Proof.Laws.Unencoded.Statement (.escArmedExpiry component) :=
  Sys2Proof.Laws.Unencoded.of_any _
theorem Sys2Proof.Laws.Unencoded.rv64imacInstruction (core clerk : Nat) : Sys2Proof.Laws.Unencoded.Statement (.rv64imacInstruction core clerk) :=
  Sys2Proof.Laws.Unencoded.of_any _
end

