-- ==== Sys2Proof/Laws/Reads.lean ====
section
/-! SUPPORT. What the reads of the state give after the named updates: registers, counters, cores, items, boxes and the
other indexed parts. -/

namespace Sys2Proof.Machine

/-! ### Registers and counters -/

@[simp] theorem State.reg_setReg_same (s : State) (a : Nat) (v : W32) : (s.setReg a v).reg a = v := by
  simp [State.reg, State.setReg, cellGet_cellSet_same]

theorem State.reg_setReg_ne (s : State) {a b : Nat} (v : W32) (h : b ≠ a) : (s.setReg a v).reg b = s.reg b := by
  simp [State.reg, State.setReg, cellGet_cellSet_ne _ _ _ _ h]

theorem State.reg_of_regs {s t : State} (h : t.regs = s.regs) (a : Nat) : t.reg a = s.reg a := by
  simp [State.reg, h]

theorem State.live_of_ctr {s t : State} (h : t.ctr = s.ctr) (p : Pg) (i n : Nat) : t.live p i n = s.live p i n := by
  simp [State.live, h]

theorem State.frozen_of_regs {s t : State} (h : t.regs = s.regs) (p : Pg) (i : Nat) : t.frozen p i = s.frozen p i := by
  simp [State.frozen, State.regN, State.reg, h]

theorem State.live_bump_same (s : State) (p : Pg) (i n k : Nat) :
    (s.bump p i n k).live p i n = if s.frozen p i then s.live p i n else satAdd (s.live p i n) k := by
  unfold State.bump
  by_cases hk : k = 0
  · have : satAdd (s.live p i n) 0 = s.live p i n := by
      apply BitVec.eq_of_toNat_eq
      have := (s.live p i n).isLt
      simp [satAdd]
      omega
    simp [hk, this]
  · by_cases hf : s.frozen p i = true
    · simp [hf]
    · simp [hk, hf]
      simp [State.live, cellGet_cellSet_same]

theorem State.live_bump_ne (s : State) (p q : Pg) (i j n m k : Nat) (h : ctrKey q j m ≠ ctrKey p i n) :
    (s.bump p i n k).live q j m = s.live q j m := by
  unfold State.bump
  split
  · rfl
  · simp [State.live, cellGet_cellSet_ne _ _ _ _ h]

theorem State.cell_bump_ne (s : State) (p : Pg) (i n k a : Nat) (h : a ≠ ctrKey p i n) :
    cellGet (0#64) (s.bump p i n k).ctr.live a = cellGet (0#64) s.ctr.live a := by
  unfold State.bump
  split
  · rfl
  · simp [cellGet_cellSet_ne _ _ _ _ h]

/-! ### Indexed parts -/

theorem State.item?_id {s : State} {id : Nat} {i : Item} (h : s.item? id = some i) : i.id = id := by
  simpa using List.find?_some h

theorem State.place?_stream {s : State} {n : Nat} {p : Place} (h : s.place? n = some p) : p.stream = n := by
  simpa using List.find?_some h

theorem State.item?_modItem (s : State) (id j : Nat) (f : Item → Item) (hf : ∀ i, (f i).id = i.id) :
    (s.modItem id f).item? j = if id = j then (s.item? j).map f else s.item? j := by
  simp only [State.item?, State.modItem, List.find?_map]
  have e : ((fun i : Item => i.id == j) ∘ fun i => if i.id = id then f i else i) = fun i => i.id == j := by
    funext i
    by_cases h : i.id = id <;> simp [h, hf]
  rw [e]
  cases h : s.items.find? (fun i => i.id == j) with
  | none => simp
  | some i =>
    have hi : i.id = j := by simpa using List.find?_some h
    by_cases hj : id = j
    · simp [hj, hi]
    · have : ¬ j = id := fun e => hj e.symm
      simp [hj, hi, this]

theorem State.place?_modPlace (s : State) (n m : Nat) (f : Place → Place) (hf : ∀ p, (f p).stream = p.stream) :
    (s.modPlace n f).place? m = if n = m then (s.place? m).map f else s.place? m := by
  simp only [State.place?, State.modPlace, List.find?_map]
  have e : ((fun p : Place => p.stream == m) ∘ fun p => if p.stream = n then f p else p) = fun p => p.stream == m := by
    funext p
    by_cases h : p.stream = n <;> simp [h, hf]
  rw [e]
  cases h : s.places.find? (fun p => p.stream == m) with
  | none => simp
  | some p =>
    have hp : p.stream = m := by simpa using List.find?_some h
    by_cases hm : n = m
    · simp [hm, hp]
    · have : ¬ m = n := fun e => hm e.symm
      simp [hm, hp, this]

/-! ### Reads that depend on one part -/

theorem State.core_of_cores {s t : State} (h : t.cores = s.cores) (c : Nat) : t.core c = s.core c := by
  simp [State.core, h]

theorem State.box_of_boxes {s t : State} (h : t.boxes = s.boxes) (b : Nat) : t.box b = s.box b := by
  simp [State.box, h]

theorem State.item?_of_items {s t : State} (h : t.items = s.items) (id : Nat) : t.item? id = s.item? id := by
  simp [State.item?, h]

theorem State.place?_of_places {s t : State} (h : t.places = s.places) (n : Nat) : t.place? n = s.place? n := by
  simp [State.place?, h]

/-! ### The part that an update changes -/

@[simp] theorem State.setTime_time (s : State) (f : TimeUnit → TimeUnit) :
    (s.setTime f).time = f s.time := rfl
@[simp] theorem State.setTier_tier (s : State) (f : Tier → Tier) :
    (s.setTier f).tier = f s.tier := rfl
@[simp] theorem State.setTest_test (s : State) (f : TestSt → TestSt) :
    (s.setTest f).test = f s.test := rfl
@[simp] theorem State.setSide_side (s : State) (f : Sideband → Sideband) :
    (s.setSide f).side = f s.side := rfl
@[simp] theorem State.setSec_sec (s : State) (f : Security → Security) :
    (s.setSec f).sec = f s.sec := rfl
@[simp] theorem State.setPwr_pwr (s : State) (f : Power → Power) :
    (s.setPwr f).pwr = f s.pwr := rfl
@[simp] theorem State.setHost_host (s : State) (f : HostSt → HostSt) :
    (s.setHost f).host = f s.host := rfl
@[simp] theorem State.setFw_fw (s : State) (f : Firmware → Firmware) :
    (s.setFw f).fw = f s.fw := rfl
@[simp] theorem State.setFab_fab (s : State) (f : Fabric → Fabric) :
    (s.setFab f).fab = f s.fab := rfl
@[simp] theorem State.event_log (s : State) (r : Record) :
    (s.event r).log = { s.log with queue := s.log.queue ++ [r] } := rfl
@[simp] theorem State.emit_outbox (s : State) (o : Out) : (s.emit o).outbox = o :: s.outbox := rfl
@[simp] theorem State.modRail_grants (s : State) (n : Nat) (f : RailSt → RailSt) :
    (s.modRail n f).pwr = { s.pwr with rails := listModify f s.pwr.rails n } := rfl
@[simp] theorem State.modComp_fw (s : State) (n : Nat) (f : Comp → Comp) :
    (s.modComp n f).fw = { s.fw with comps := listModify f s.fw.comps n } := rfl
@[simp] theorem State.modSlot_cb (s : State) (n : Nat) (f : CbSlot → CbSlot) :
    (s.modSlot n f).cb = { s.cb with slots := listModify f s.cb.slots n } := rfl

/-! ### Reads of parts that an update leaves alone -/

@[simp] theorem State.reg_setTime (s : State) (f : TimeUnit → TimeUnit) (a : Nat) :
    (s.setTime f).reg a = s.reg a := rfl
@[simp] theorem State.reg_setTier (s : State) (f : Tier → Tier) (a : Nat) :
    (s.setTier f).reg a = s.reg a := rfl
@[simp] theorem State.reg_setTest (s : State) (f : TestSt → TestSt) (a : Nat) :
    (s.setTest f).reg a = s.reg a := rfl
@[simp] theorem State.reg_setSide (s : State) (f : Sideband → Sideband) (a : Nat) :
    (s.setSide f).reg a = s.reg a := rfl
@[simp] theorem State.reg_setSec (s : State) (f : Security → Security) (a : Nat) :
    (s.setSec f).reg a = s.reg a := rfl
@[simp] theorem State.reg_setPwr (s : State) (f : Power → Power) (a : Nat) :
    (s.setPwr f).reg a = s.reg a := rfl
@[simp] theorem State.reg_setHost (s : State) (f : HostSt → HostSt) (a : Nat) :
    (s.setHost f).reg a = s.reg a := rfl
@[simp] theorem State.reg_setFw (s : State) (f : Firmware → Firmware) (a : Nat) :
    (s.setFw f).reg a = s.reg a := rfl
@[simp] theorem State.reg_setFab (s : State) (f : Fabric → Fabric) (a : Nat) :
    (s.setFab f).reg a = s.reg a := rfl
@[simp] theorem State.reg_setCore (s : State) (c : Nat) (k : Core) (a : Nat) :
    (s.setCore c k).reg a = s.reg a := rfl
@[simp] theorem State.reg_modStack (s : State) (n : Nat) (f : Stack → Stack) (a : Nat) :
    (s.modStack n f).reg a = s.reg a := rfl
@[simp] theorem State.reg_modSlot (s : State) (n : Nat) (f : CbSlot → CbSlot) (a : Nat) :
    (s.modSlot n f).reg a = s.reg a := rfl
@[simp] theorem State.reg_modRail (s : State) (n : Nat) (f : RailSt → RailSt) (a : Nat) :
    (s.modRail n f).reg a = s.reg a := rfl
@[simp] theorem State.reg_modPlace (s : State) (n : Nat) (f : Place → Place) (a : Nat) :
    (s.modPlace n f).reg a = s.reg a := rfl
@[simp] theorem State.reg_modLink (s : State) (n : Nat) (f : Link → Link) (a : Nat) :
    (s.modLink n f).reg a = s.reg a := rfl
@[simp] theorem State.reg_modItem (s : State) (id : Nat) (f : Item → Item) (a : Nat) :
    (s.modItem id f).reg a = s.reg a := rfl
@[simp] theorem State.reg_modGroup (s : State) (g : Nat) (f : Group → Group) (a : Nat) :
    (s.modGroup g f).reg a = s.reg a := rfl
@[simp] theorem State.reg_modGranule (s : State) (g : Nat) (f : Granule → Granule) (a : Nat) :
    (s.modGranule g f).reg a = s.reg a := rfl
@[simp] theorem State.reg_modEntry (s : State) (id k : Nat) (f : Entry → Entry) (a : Nat) :
    (s.modEntry id k f).reg a = s.reg a := rfl
@[simp] theorem State.reg_modDie (s : State) (n : Nat) (f : DieMem → DieMem) (a : Nat) :
    (s.modDie n f).reg a = s.reg a := rfl
@[simp] theorem State.reg_modCore (s : State) (c : Nat) (f : Core → Core) (a : Nat) :
    (s.modCore c f).reg a = s.reg a := rfl
@[simp] theorem State.reg_modComp (s : State) (n : Nat) (f : Comp → Comp) (a : Nat) :
    (s.modComp n f).reg a = s.reg a := rfl
@[simp] theorem State.reg_modBox (s : State) (n : Nat) (f : BoxSt → BoxSt) (a : Nat) :
    (s.modBox n f).reg a = s.reg a := rfl
@[simp] theorem State.reg_event (s : State) (r : Record) (a : Nat) :
    (s.event r).reg a = s.reg a := rfl
@[simp] theorem State.reg_emit (s : State) (o : Out) (a : Nat) :
    (s.emit o).reg a = s.reg a := rfl
@[simp] theorem State.reg_bump (s : State) (p : Pg) (i n k : Nat) (a : Nat) :
    (s.bump p i n k).reg a = s.reg a := by
  simp [State.reg]
@[simp] theorem State.frozen_setTime (s : State) (f : TimeUnit → TimeUnit) (q : Pg) (j : Nat) :
    (s.setTime f).frozen q j = s.frozen q j := rfl
@[simp] theorem State.frozen_setTier (s : State) (f : Tier → Tier) (q : Pg) (j : Nat) :
    (s.setTier f).frozen q j = s.frozen q j := rfl
@[simp] theorem State.frozen_setTest (s : State) (f : TestSt → TestSt) (q : Pg) (j : Nat) :
    (s.setTest f).frozen q j = s.frozen q j := rfl
@[simp] theorem State.frozen_setSide (s : State) (f : Sideband → Sideband) (q : Pg) (j : Nat) :
    (s.setSide f).frozen q j = s.frozen q j := rfl
@[simp] theorem State.frozen_setSec (s : State) (f : Security → Security) (q : Pg) (j : Nat) :
    (s.setSec f).frozen q j = s.frozen q j := rfl
@[simp] theorem State.frozen_setPwr (s : State) (f : Power → Power) (q : Pg) (j : Nat) :
    (s.setPwr f).frozen q j = s.frozen q j := rfl
@[simp] theorem State.frozen_setHost (s : State) (f : HostSt → HostSt) (q : Pg) (j : Nat) :
    (s.setHost f).frozen q j = s.frozen q j := rfl
@[simp] theorem State.frozen_setFw (s : State) (f : Firmware → Firmware) (q : Pg) (j : Nat) :
    (s.setFw f).frozen q j = s.frozen q j := rfl
@[simp] theorem State.frozen_setFab (s : State) (f : Fabric → Fabric) (q : Pg) (j : Nat) :
    (s.setFab f).frozen q j = s.frozen q j := rfl
@[simp] theorem State.frozen_setCore (s : State) (c : Nat) (k : Core) (q : Pg) (j : Nat) :
    (s.setCore c k).frozen q j = s.frozen q j := rfl
@[simp] theorem State.frozen_modStack (s : State) (n : Nat) (f : Stack → Stack) (q : Pg) (j : Nat) :
    (s.modStack n f).frozen q j = s.frozen q j := rfl
@[simp] theorem State.frozen_modSlot (s : State) (n : Nat) (f : CbSlot → CbSlot) (q : Pg) (j : Nat) :
    (s.modSlot n f).frozen q j = s.frozen q j := rfl
@[simp] theorem State.frozen_modRail (s : State) (n : Nat) (f : RailSt → RailSt) (q : Pg) (j : Nat) :
    (s.modRail n f).frozen q j = s.frozen q j := rfl
@[simp] theorem State.frozen_modPlace (s : State) (n : Nat) (f : Place → Place) (q : Pg) (j : Nat) :
    (s.modPlace n f).frozen q j = s.frozen q j := rfl
@[simp] theorem State.frozen_modLink (s : State) (n : Nat) (f : Link → Link) (q : Pg) (j : Nat) :
    (s.modLink n f).frozen q j = s.frozen q j := rfl
@[simp] theorem State.frozen_modItem (s : State) (id : Nat) (f : Item → Item) (q : Pg) (j : Nat) :
    (s.modItem id f).frozen q j = s.frozen q j := rfl
@[simp] theorem State.frozen_modGroup (s : State) (g : Nat) (f : Group → Group) (q : Pg) (j : Nat) :
    (s.modGroup g f).frozen q j = s.frozen q j := rfl
@[simp] theorem State.frozen_modGranule (s : State) (g : Nat) (f : Granule → Granule) (q : Pg) (j : Nat) :
    (s.modGranule g f).frozen q j = s.frozen q j := rfl
@[simp] theorem State.frozen_modEntry (s : State) (id k : Nat) (f : Entry → Entry) (q : Pg) (j : Nat) :
    (s.modEntry id k f).frozen q j = s.frozen q j := rfl
@[simp] theorem State.frozen_modDie (s : State) (n : Nat) (f : DieMem → DieMem) (q : Pg) (j : Nat) :
    (s.modDie n f).frozen q j = s.frozen q j := rfl
@[simp] theorem State.frozen_modCore (s : State) (c : Nat) (f : Core → Core) (q : Pg) (j : Nat) :
    (s.modCore c f).frozen q j = s.frozen q j := rfl
@[simp] theorem State.frozen_modComp (s : State) (n : Nat) (f : Comp → Comp) (q : Pg) (j : Nat) :
    (s.modComp n f).frozen q j = s.frozen q j := rfl
@[simp] theorem State.frozen_modBox (s : State) (n : Nat) (f : BoxSt → BoxSt) (q : Pg) (j : Nat) :
    (s.modBox n f).frozen q j = s.frozen q j := rfl
@[simp] theorem State.frozen_event (s : State) (r : Record) (q : Pg) (j : Nat) :
    (s.event r).frozen q j = s.frozen q j := rfl
@[simp] theorem State.frozen_emit (s : State) (o : Out) (q : Pg) (j : Nat) :
    (s.emit o).frozen q j = s.frozen q j := rfl
@[simp] theorem State.frozen_bump (s : State) (p : Pg) (i n k : Nat) (q : Pg) (j : Nat) :
    (s.bump p i n k).frozen q j = s.frozen q j := by
  simp [State.frozen, State.regN, State.reg]
@[simp] theorem State.live_setTime (s : State) (f : TimeUnit → TimeUnit) (q : Pg) (j m : Nat) :
    (s.setTime f).live q j m = s.live q j m := rfl
@[simp] theorem State.live_setTier (s : State) (f : Tier → Tier) (q : Pg) (j m : Nat) :
    (s.setTier f).live q j m = s.live q j m := rfl
@[simp] theorem State.live_setTest (s : State) (f : TestSt → TestSt) (q : Pg) (j m : Nat) :
    (s.setTest f).live q j m = s.live q j m := rfl
@[simp] theorem State.live_setSide (s : State) (f : Sideband → Sideband) (q : Pg) (j m : Nat) :
    (s.setSide f).live q j m = s.live q j m := rfl
@[simp] theorem State.live_setSec (s : State) (f : Security → Security) (q : Pg) (j m : Nat) :
    (s.setSec f).live q j m = s.live q j m := rfl
@[simp] theorem State.live_setReg (s : State) (a : Nat) (v : W32) (q : Pg) (j m : Nat) :
    (s.setReg a v).live q j m = s.live q j m := rfl
@[simp] theorem State.live_setPwr (s : State) (f : Power → Power) (q : Pg) (j m : Nat) :
    (s.setPwr f).live q j m = s.live q j m := rfl
@[simp] theorem State.live_setHost (s : State) (f : HostSt → HostSt) (q : Pg) (j m : Nat) :
    (s.setHost f).live q j m = s.live q j m := rfl
@[simp] theorem State.live_setFw (s : State) (f : Firmware → Firmware) (q : Pg) (j m : Nat) :
    (s.setFw f).live q j m = s.live q j m := rfl
@[simp] theorem State.live_setField (s : State) (p : Pg) (i off hi lo v : Nat) (q : Pg) (j m : Nat) :
    (s.setField p i off hi lo v).live q j m = s.live q j m := rfl
@[simp] theorem State.live_setFab (s : State) (f : Fabric → Fabric) (q : Pg) (j m : Nat) :
    (s.setFab f).live q j m = s.live q j m := rfl
@[simp] theorem State.live_setCore (s : State) (c : Nat) (k : Core) (q : Pg) (j m : Nat) :
    (s.setCore c k).live q j m = s.live q j m := rfl
@[simp] theorem State.live_orReg (s : State) (p : Pg) (i off mask : Nat) (q : Pg) (j m : Nat) :
    (s.orReg p i off mask).live q j m = s.live q j m := rfl
@[simp] theorem State.live_modStack (s : State) (n : Nat) (f : Stack → Stack) (q : Pg) (j m : Nat) :
    (s.modStack n f).live q j m = s.live q j m := rfl
@[simp] theorem State.live_modSlot (s : State) (n : Nat) (f : CbSlot → CbSlot) (q : Pg) (j m : Nat) :
    (s.modSlot n f).live q j m = s.live q j m := rfl
@[simp] theorem State.live_modRail (s : State) (n : Nat) (f : RailSt → RailSt) (q : Pg) (j m : Nat) :
    (s.modRail n f).live q j m = s.live q j m := rfl
@[simp] theorem State.live_modPlace (s : State) (n : Nat) (f : Place → Place) (q : Pg) (j m : Nat) :
    (s.modPlace n f).live q j m = s.live q j m := rfl
@[simp] theorem State.live_modLink (s : State) (n : Nat) (f : Link → Link) (q : Pg) (j m : Nat) :
    (s.modLink n f).live q j m = s.live q j m := rfl
@[simp] theorem State.live_modItem (s : State) (id : Nat) (f : Item → Item) (q : Pg) (j m : Nat) :
    (s.modItem id f).live q j m = s.live q j m := rfl
@[simp] theorem State.live_modGroup (s : State) (g : Nat) (f : Group → Group) (q : Pg) (j m : Nat) :
    (s.modGroup g f).live q j m = s.live q j m := rfl
@[simp] theorem State.live_modGranule (s : State) (g : Nat) (f : Granule → Granule) (q : Pg) (j m : Nat) :
    (s.modGranule g f).live q j m = s.live q j m := rfl
@[simp] theorem State.live_modEntry (s : State) (id k : Nat) (f : Entry → Entry) (q : Pg) (j m : Nat) :
    (s.modEntry id k f).live q j m = s.live q j m := rfl
@[simp] theorem State.live_modDie (s : State) (n : Nat) (f : DieMem → DieMem) (q : Pg) (j m : Nat) :
    (s.modDie n f).live q j m = s.live q j m := rfl
@[simp] theorem State.live_modCore (s : State) (c : Nat) (f : Core → Core) (q : Pg) (j m : Nat) :
    (s.modCore c f).live q j m = s.live q j m := rfl
@[simp] theorem State.live_modComp (s : State) (n : Nat) (f : Comp → Comp) (q : Pg) (j m : Nat) :
    (s.modComp n f).live q j m = s.live q j m := rfl
@[simp] theorem State.live_modBox (s : State) (n : Nat) (f : BoxSt → BoxSt) (q : Pg) (j m : Nat) :
    (s.modBox n f).live q j m = s.live q j m := rfl
@[simp] theorem State.live_event (s : State) (r : Record) (q : Pg) (j m : Nat) :
    (s.event r).live q j m = s.live q j m := rfl
@[simp] theorem State.live_emit (s : State) (o : Out) (q : Pg) (j m : Nat) :
    (s.emit o).live q j m = s.live q j m := rfl
@[simp] theorem State.core_setTime (s : State) (f : TimeUnit → TimeUnit) (d : Nat) :
    (s.setTime f).core d = s.core d := rfl
@[simp] theorem State.core_setTier (s : State) (f : Tier → Tier) (d : Nat) :
    (s.setTier f).core d = s.core d := rfl
@[simp] theorem State.core_setTest (s : State) (f : TestSt → TestSt) (d : Nat) :
    (s.setTest f).core d = s.core d := rfl
@[simp] theorem State.core_setSide (s : State) (f : Sideband → Sideband) (d : Nat) :
    (s.setSide f).core d = s.core d := rfl
@[simp] theorem State.core_setSec (s : State) (f : Security → Security) (d : Nat) :
    (s.setSec f).core d = s.core d := rfl
@[simp] theorem State.core_setReg (s : State) (a : Nat) (v : W32) (d : Nat) :
    (s.setReg a v).core d = s.core d := rfl
@[simp] theorem State.core_setPwr (s : State) (f : Power → Power) (d : Nat) :
    (s.setPwr f).core d = s.core d := rfl
@[simp] theorem State.core_setHost (s : State) (f : HostSt → HostSt) (d : Nat) :
    (s.setHost f).core d = s.core d := rfl
@[simp] theorem State.core_setFw (s : State) (f : Firmware → Firmware) (d : Nat) :
    (s.setFw f).core d = s.core d := rfl
@[simp] theorem State.core_setField (s : State) (p : Pg) (i off hi lo v : Nat) (d : Nat) :
    (s.setField p i off hi lo v).core d = s.core d := rfl
@[simp] theorem State.core_setFab (s : State) (f : Fabric → Fabric) (d : Nat) :
    (s.setFab f).core d = s.core d := rfl
@[simp] theorem State.core_orReg (s : State) (p : Pg) (i off mask : Nat) (d : Nat) :
    (s.orReg p i off mask).core d = s.core d := rfl
@[simp] theorem State.core_modStack (s : State) (n : Nat) (f : Stack → Stack) (d : Nat) :
    (s.modStack n f).core d = s.core d := rfl
@[simp] theorem State.core_modSlot (s : State) (n : Nat) (f : CbSlot → CbSlot) (d : Nat) :
    (s.modSlot n f).core d = s.core d := rfl
@[simp] theorem State.core_modRail (s : State) (n : Nat) (f : RailSt → RailSt) (d : Nat) :
    (s.modRail n f).core d = s.core d := rfl
@[simp] theorem State.core_modPlace (s : State) (n : Nat) (f : Place → Place) (d : Nat) :
    (s.modPlace n f).core d = s.core d := rfl
@[simp] theorem State.core_modLink (s : State) (n : Nat) (f : Link → Link) (d : Nat) :
    (s.modLink n f).core d = s.core d := rfl
@[simp] theorem State.core_modItem (s : State) (id : Nat) (f : Item → Item) (d : Nat) :
    (s.modItem id f).core d = s.core d := rfl
@[simp] theorem State.core_modGroup (s : State) (g : Nat) (f : Group → Group) (d : Nat) :
    (s.modGroup g f).core d = s.core d := rfl
@[simp] theorem State.core_modGranule (s : State) (g : Nat) (f : Granule → Granule) (d : Nat) :
    (s.modGranule g f).core d = s.core d := rfl
@[simp] theorem State.core_modEntry (s : State) (id k : Nat) (f : Entry → Entry) (d : Nat) :
    (s.modEntry id k f).core d = s.core d := rfl
@[simp] theorem State.core_modDie (s : State) (n : Nat) (f : DieMem → DieMem) (d : Nat) :
    (s.modDie n f).core d = s.core d := rfl
@[simp] theorem State.core_modComp (s : State) (n : Nat) (f : Comp → Comp) (d : Nat) :
    (s.modComp n f).core d = s.core d := rfl
@[simp] theorem State.core_modBox (s : State) (n : Nat) (f : BoxSt → BoxSt) (d : Nat) :
    (s.modBox n f).core d = s.core d := rfl
@[simp] theorem State.core_event (s : State) (r : Record) (d : Nat) :
    (s.event r).core d = s.core d := rfl
@[simp] theorem State.core_emit (s : State) (o : Out) (d : Nat) :
    (s.emit o).core d = s.core d := rfl
@[simp] theorem State.core_bump (s : State) (p : Pg) (i n k : Nat) (d : Nat) :
    (s.bump p i n k).core d = s.core d := by
  simp [State.core]
@[simp] theorem State.item?_setTime (s : State) (f : TimeUnit → TimeUnit) (j : Nat) :
    (s.setTime f).item? j = s.item? j := rfl
@[simp] theorem State.item?_setTier (s : State) (f : Tier → Tier) (j : Nat) :
    (s.setTier f).item? j = s.item? j := rfl
@[simp] theorem State.item?_setTest (s : State) (f : TestSt → TestSt) (j : Nat) :
    (s.setTest f).item? j = s.item? j := rfl
@[simp] theorem State.item?_setSide (s : State) (f : Sideband → Sideband) (j : Nat) :
    (s.setSide f).item? j = s.item? j := rfl
@[simp] theorem State.item?_setSec (s : State) (f : Security → Security) (j : Nat) :
    (s.setSec f).item? j = s.item? j := rfl
@[simp] theorem State.item?_setReg (s : State) (a : Nat) (v : W32) (j : Nat) :
    (s.setReg a v).item? j = s.item? j := rfl
@[simp] theorem State.item?_setPwr (s : State) (f : Power → Power) (j : Nat) :
    (s.setPwr f).item? j = s.item? j := rfl
@[simp] theorem State.item?_setHost (s : State) (f : HostSt → HostSt) (j : Nat) :
    (s.setHost f).item? j = s.item? j := rfl
@[simp] theorem State.item?_setFw (s : State) (f : Firmware → Firmware) (j : Nat) :
    (s.setFw f).item? j = s.item? j := rfl
@[simp] theorem State.item?_setField (s : State) (p : Pg) (i off hi lo v : Nat) (j : Nat) :
    (s.setField p i off hi lo v).item? j = s.item? j := rfl
@[simp] theorem State.item?_setFab (s : State) (f : Fabric → Fabric) (j : Nat) :
    (s.setFab f).item? j = s.item? j := rfl
@[simp] theorem State.item?_setCore (s : State) (c : Nat) (k : Core) (j : Nat) :
    (s.setCore c k).item? j = s.item? j := rfl
@[simp] theorem State.item?_orReg (s : State) (p : Pg) (i off mask : Nat) (j : Nat) :
    (s.orReg p i off mask).item? j = s.item? j := rfl
@[simp] theorem State.item?_modStack (s : State) (n : Nat) (f : Stack → Stack) (j : Nat) :
    (s.modStack n f).item? j = s.item? j := rfl
@[simp] theorem State.item?_modSlot (s : State) (n : Nat) (f : CbSlot → CbSlot) (j : Nat) :
    (s.modSlot n f).item? j = s.item? j := rfl
@[simp] theorem State.item?_modRail (s : State) (n : Nat) (f : RailSt → RailSt) (j : Nat) :
    (s.modRail n f).item? j = s.item? j := rfl
@[simp] theorem State.item?_modPlace (s : State) (n : Nat) (f : Place → Place) (j : Nat) :
    (s.modPlace n f).item? j = s.item? j := rfl
@[simp] theorem State.item?_modLink (s : State) (n : Nat) (f : Link → Link) (j : Nat) :
    (s.modLink n f).item? j = s.item? j := rfl
@[simp] theorem State.item?_modGroup (s : State) (g : Nat) (f : Group → Group) (j : Nat) :
    (s.modGroup g f).item? j = s.item? j := rfl
@[simp] theorem State.item?_modGranule (s : State) (g : Nat) (f : Granule → Granule) (j : Nat) :
    (s.modGranule g f).item? j = s.item? j := rfl
@[simp] theorem State.item?_modDie (s : State) (n : Nat) (f : DieMem → DieMem) (j : Nat) :
    (s.modDie n f).item? j = s.item? j := rfl
@[simp] theorem State.item?_modCore (s : State) (c : Nat) (f : Core → Core) (j : Nat) :
    (s.modCore c f).item? j = s.item? j := rfl
@[simp] theorem State.item?_modComp (s : State) (n : Nat) (f : Comp → Comp) (j : Nat) :
    (s.modComp n f).item? j = s.item? j := rfl
@[simp] theorem State.item?_modBox (s : State) (n : Nat) (f : BoxSt → BoxSt) (j : Nat) :
    (s.modBox n f).item? j = s.item? j := rfl
@[simp] theorem State.item?_event (s : State) (r : Record) (j : Nat) :
    (s.event r).item? j = s.item? j := rfl
@[simp] theorem State.item?_emit (s : State) (o : Out) (j : Nat) :
    (s.emit o).item? j = s.item? j := rfl
@[simp] theorem State.item?_bump (s : State) (p : Pg) (i n k : Nat) (j : Nat) :
    (s.bump p i n k).item? j = s.item? j := by
  simp [State.item?]

/-! ### Conditions and flags -/

@[simp] theorem State.when_true (s t : State) : s.when true t = t := rfl
@[simp] theorem State.when_false (s t : State) : s.when false t = s := rfl

theorem State.reg_setReg (s : State) (a b : Nat) (v : W32) : (s.setReg b v).reg a = if a = b then v else s.reg a := by
  by_cases h : a = b
  · subst h; simp
  · simp [State.reg_setReg_ne _ _ h, h]

theorem State.reg_orReg (s : State) (p : Pg) (i off m a : Nat) :
    (s.orReg p i off m).reg a = if a = regAddr p i off then s.reg a ||| BitVec.ofNat 32 m else s.reg a := by
  simp only [State.orReg, State.reg_setReg]
  by_cases h : a = regAddr p i off
  · simp [h]
  · simp [h]

theorem State.changed_eq (s : State) (p : Pg) (i : Nat) : s.changed p i = s.orReg p i Reg.intStat 0x100 := rfl

theorem State.cell_bump (s : State) (p : Pg) (i n k a : Nat) :
    cellGet (0#64) (s.bump p i n k).ctr.live a =
      if a = ctrKey p i n then (if s.frozen p i then cellGet (0#64) s.ctr.live a else satAdd (cellGet (0#64) s.ctr.live a) k)
      else cellGet (0#64) s.ctr.live a := by
  by_cases h : a = ctrKey p i n
  · subst h
    have := s.live_bump_same p i n k
    simpa [State.live] using this
  · rw [if_neg h]
    exact State.cell_bump_ne _ _ _ _ _ _ h

end Sys2Proof.Machine
end

