-- ==== Sys2Proof/Tests/Slice0.lean ====
section
/-! SUPPORT. Tests on fixed values, and the witnesses of the statements' hypotheses. -/

section
-- one theorem after the other: their kernel evaluations together take too many threads
set_option Elab.async false

open Sys2Proof Sys2Proof.Machine

/-! ### Well-formedness: one ill-formed command for each check, and a well-formed one at the boundary -/

theorem test_wf_core : (Instr.flush 67).wf = true ∧ (Instr.flush 68).wf = false := by decide
theorem test_wf_clerk : (Instr.tdld 67 3).wf = true ∧ (Instr.tdld 0 4).wf = false := by decide
theorem test_wf_courier : (Instr.gatherK 0 3).wf = true ∧ (Instr.gatherK 0 4).wf = false := by decide
theorem test_wf_pigeonhole :
    (Instr.pigeonholeRetire 0 8 true 0).wf = true ∧ (Instr.pigeonholeRetire 0 9 true 0).wf = false := by decide
theorem test_wf_box : (Instr.boxQuiesce 63).wf = true ∧ (Instr.boxQuiesce 64).wf = false := by decide
theorem test_wf_slot : (Instr.codebookInstall 63).wf = true ∧ (Instr.codebookInstall 64).wf = false := by decide
theorem test_wf_slotAndBox : (Instr.release 63 63).wf = true ∧ (Instr.release 63 64).wf = false := by decide
theorem test_wf_ring : (Instr.ringEntryTake 63 7).wf = true ∧ (Instr.ringEntryTake 63 8).wf = false := by decide
theorem test_wf_dieAndBox : (Instr.regulatorAdmit 3 63).wf = true ∧ (Instr.regulatorAdmit 4 0).wf = false := by decide
theorem test_wf_die : (Instr.longDip 3).wf = true ∧ (Instr.longDip 4).wf = false := by decide
theorem test_wf_stack : (Instr.hbmTempReport 11 0).wf = true ∧ (Instr.hbmTempReport 12 0).wf = false := by decide
theorem test_wf_channel : (Instr.hbmMapoutGo 11 15).wf = true ∧ (Instr.hbmMapoutGo 11 16).wf = false := by decide
theorem test_wf_collection : (Instr.collection 15).wf = true ∧ (Instr.collection 16).wf = false := by decide
theorem test_wf_window : (Instr.quietWindowStart 3).wf = true ∧ (Instr.quietWindowStart 4).wf = false := by decide
theorem test_wf_port : (Instr.fenceSend 23).wf = true ∧ (Instr.fenceSend 24).wf = false := by decide
theorem test_wf_packet : (Instr.msgAck { port := 23, dest := 63, src := 63, epoch := 0 } 0).wf = true ∧
    (Instr.msgAck { port := 23, dest := 64, src := 63, epoch := 0 } 0).wf = false ∧
    (Instr.msgAck { port := 23, dest := 63, src := 64, epoch := 0 } 0).wf = false := by decide
theorem test_wf_class : (Instr.e2eTimeout 63 3 0).wf = true ∧ (Instr.e2eTimeout 63 0 0).wf = false ∧
    (Instr.e2eTimeout 63 4 0).wf = false := by decide
theorem test_wf_position : (Instr.adoption 63).wf = true ∧ (Instr.adoption 64).wf = false := by decide
theorem test_wf_join : (Instr.join { pos := 63, stepping := 0, version := 0, selfTestOk := true, quoteOk := true }).wf = true ∧
    (Instr.join { pos := 64, stepping := 0, version := 0, selfTestOk := true, quoteOk := true }).wf = false := by decide
theorem test_wf_direction : (Instr.bundleLost 5).wf = true ∧ (Instr.bundleLost 6).wf = false := by decide
theorem test_wf_rail : (Instr.railShort 3).wf = true ∧ (Instr.railShort 4).wf = false := by decide
theorem test_wf_component : (Instr.fwWatchdog 5).wf = true ∧ (Instr.fwWatchdog 6).wf = false := by decide
theorem test_wf_mailbox : (Instr.mailboxSend 5 5 []).wf = true ∧ (Instr.mailboxSend 5 6 []).wf = false := by decide
theorem test_wf_logical : (Instr.coreSubstitute 63).wf = true ∧ (Instr.coreSubstitute 64).wf = false := by decide
theorem test_wf_coreMap : (Instr.coreMapWrite 15 0).wf = true ∧ (Instr.coreMapWrite 16 0).wf = false := by decide
theorem test_wf_patternPage : (Instr.inject 24).wf = true ∧ (Instr.inject 25).wf = false := by decide
theorem test_wf_lane : (Instr.checkerLock 24 7 false).wf = true ∧ (Instr.checkerLock 23 4 false).wf = false := by decide
theorem test_wf_errors : (Instr.checkerLoss 0 0 256 256).wf = true ∧ (Instr.checkerLoss 0 0 31 32).wf = false := by decide
theorem test_wf_dmi : (Instr.dmi 2 127 0).wf = true ∧ (Instr.dmi 3 0 0).wf = false ∧ (Instr.dmi 0 128 0).wf = false := by decide
theorem test_wf_address : (Instr.setdasa 127 127).wf = true ∧ (Instr.setdasa 128 0).wf = false := by decide
theorem test_wf_dynamicAddress : (Instr.entdaa 127).wf = true ∧ (Instr.entdaa 128).wf = false := by decide
theorem test_wf_header : (Instr.bye { session := 65535, box := 63, targetPos := 63 }).wf = true ∧
    (Instr.bye { session := 65536 }).wf = false ∧ (Instr.bye { box := 64 }).wf = false ∧
    (Instr.bye { targetPos := 64 }).wf = false ∧ (Instr.bye { seq := 4294967296 }).wf = false := by decide
theorem test_wf_formation : (Instr.formation [63] [0] [] []).wf = true ∧ (Instr.formation [64] [] [] []).wf = false := by decide
/-! ### Small states for the witnesses -/

/-- The state after reset. -/
def z : State := {}
/-- One core, core 0, as given. -/
def zCore (k : Core) : State := { cores := k :: List.replicate 67 {} }
/-- One box, box 0, as given. -/
def zBox (b : BoxSt) : State := { boxes := b :: List.replicate 63 {} }
/-- One item in the ledger. -/
def zItem (i : Item) : State := { items := [i] }
/-- One link, port 0, as given. -/
def zLink (l : Link) : State := { links := l :: List.replicate 23 {} }
/-- One place and its group. -/
def zPlace (p : Place) (g : Group) (l : List Item) : State := { places := [p], groups := [g], items := l }
/-- Time as given, everything else after reset. -/
def zTime (t : TimeUnit) : State := { time := t }
/-- Power as given, everything else after reset. -/
def zPwr (p : Power) : State := { pwr := p }
/-- Rail 0 in the given state. -/
def zRail (r : Rail) : State := { pwr := { rails := { st := r } :: List.replicate 3 {} } }
/-- The core with the given number as given, core 0 to n - 1 after reset. -/
def zCoreAt (n : Nat) (k : Core) : State := { cores := List.replicate n {} ++ k :: List.replicate (67 - n) {} }
/-- A live place of stream 5 and its slot's header. -/
def zPl : Place := { stream := 5, group := 0, place := 0, live := true, stepCount := 7, lineage := 2 }
/-- The slot that fits `zPl`. -/
def zSlot : Slot := { hdr := headerCrc (1 + 5 * 2 ^ 334 + 2 * 2 ^ 352 + 7 * 2 ^ 416) }
/-- `zPl` with its slot. -/
def zPlA : Place := { zPl with arena := some zSlot }
/-- The group of streams 5 and 6. -/
def zGr : Group := { index := 0, box := 0, home := 0, streams := [5, 6] }
/-- Ledger item 1, of the given kind and entries. -/
def zIt (k : Nat) (e : List Entry) : Item :=
  { id := 1, tag := 9, box := 0, ring := 0, count := 0, kind := k, entries := e, groups := [0], streams := [5] }
/-- A box with one page mapped, the given places, group and item. -/
def zSt (p : List Place) (g : Group) (i : Item) : State :=
  { places := p, groups := [g], items := [i], regs := [(regAddr .box 0 Reg.box_quotaArena, 1)],
    boxes := { state := .active, pt := [(0, 0xC000000000000000)] } :: List.replicate 63 {} }
/-- The instance of item 1. -/
def zInst : Inst := { item := 1, entry := 0, pos := 0, list := .step, box := 0, stream := some 5 }
/-- A STEP item whose entry 0 runs. -/
def zStepIt : Item := { zIt 3 [{ stream := 5, st := .running }] with took := true }
/-- One place, the group with one step kernel, the item and core 0 as given. -/
def zRun (k : Core) (ker : Kernel) : State :=
  { zSt [zPlA] { zGr with step := [{ kernel := ker }] } zStepIt with cores := k :: List.replicate 67 {} }
/-- A clerk instruction of the tile formats. -/
def zW (f7 rs2 rs1 f3 rd op : Nat) : Nat := ((((f7 * 32 + rs2) * 32 + rs1) * 8 + f3) * 32 + rd) * 128 + op
/-- Core 0 runs `zInst`; clerk 0 is at the word `w` of its code. -/
def zCode (w : Nat) : Core :=
  { state := .running, run := some zInst, code := { cells := runCells 0 0 (leBytes 4 w) },
    clerks := { state := .running, pc := 0x20000000 } :: List.replicate 3 {} }
/-- A result that answers `a`, as a Boolean. -/
theorem okOf {ε α : Type} [DecidableEq α] {x : Except ε α} {a : α}
    (h : (match x with | .ok n => decide (n = a) | .error _ => false) = true) : x = .ok a := by
  cases x <;> simp_all
/-- A layer record (one token, int8, tables at `tb`) and the request `req` over it. -/
def zReq (req tb : Nat) : Nat := req + (4 * 2 ^ 39 + tb * 2 ^ 80) * 2 ^ 256
/-- The directory of layer 0, one page, tokens up to `n`. -/
def zDir (n : Nat) : LayerDir := { layer := 0, valid := true, endTok := n, ptes := [{ page := 0, da := 0 }] }
/-- The walker's view of stream 5. -/
def zCtx : WalkCtx := { inst := zInst, stream := 5, cur := 7, prefill := false, frames := 1 }
/-- Request `req` alone in courier 0's queue, the layer's tokens up to `n`. -/
def zWalk (req tb n : Nat) : State :=
  { zRun { state := .running, run := some zInst, courQ := [[.walk 0 (zReq req tb)], [], [], []] } {} with
    places := [{ zPlA with dirs := [zDir n] }] }
/-- Clerk 0 stores `off` to WALK_ISSUE, a LENGTHS request and its layer record stand in its data memory. -/
def zIssue (off : W64) (q : List CourOp) : State :=
  zRun { zCode (zW 0 2 1 3 0 0x23) with
    courQ := [q, [], [], []]
    clerks := { state := .running, pc := 0x20000000, x := 0x40000000 :: off :: List.replicate 29 0,
                dmem := { cells := runCells 0 0x40 (leBytes 16 (4 * 2 ^ 39)) ++
                                   runCells 0 0x7FE0 (leBytes 32 (1 + 0x40 * 2 ^ 176)) } } :: List.replicate 3 {} } {}
/-- Clerk 0 of `zCode w` waits. -/
def zWaits (w : Nat) : State :=
  zRun { zCode w with clerks := { state := .waiting, pc := 0x20000000 } :: List.replicate 3 {} } {}
/-- Codebook slot 0 and memory as given; box 0 maps its pages 0 and 1 to HBM. -/
def zCb (c : CbSlot) (m : List Host.Cell) : State :=
  { cb := { slots := c :: List.replicate 63 {} }, mem := m, regs := [(regAddr .box 0 Reg.box_quotaCodebooks, 1)],
    boxes := { state := .active, pt := [(0, 0xC000000000000000), (1, 0xC000000000200000)] } :: List.replicate 63 {} }
/-- A codebook image: alphabet 0, symbols 0 and 1 of length 1. -/
def zImg : List Byte :=
  leBytes 4 167356213 ++ ([0, 1] ++ List.replicate 10 0 ++ [0x11] ++ List.replicate 127 0)
/-- A coded region over box 0's page 0, its envelopes in page 1. -/
def zReg : Region := ⟨0, 0x200000, 1, 0, 0, 0⟩
/-- A coded tensor. -/
def zTen : TensorDesc := { coded := true, writable := true }
/-- Core 0 runs `zInst` over `zTen`, the region's first envelope and slot 0 as given. -/
def zCode0 (e : List Byte) (c : CbSlot) : State :=
  { zRun (zCode 0) { tensors := [zTen] } with
    mem := runCells 0 0x200000 e, cb := { slots := c :: List.replicate 63 {} },
    boxes := { state := .active, pt := [(0, 0xC000000000000000), (1, 0xC000000000200000)],
               regions := [zReg] } :: List.replicate 63 {} }
/-- A complete block at the encoder. -/
def zBlk : EncBlk := { box := 0, va := 0, tensor := 0, written := List.range 4096 }
/-- Box 0 maps its page 0 with the entry `e`; the tier as given. -/
def zPt (e : W64) (t : Tier) : State :=
  { boxes := { state := .active, pt := [(0, e)] } :: List.replicate 63 {}, tier := t }
/-- The entry of a page in flash. -/
def zFl : W64 := 0xC000100000000000
/-- Die 3's memory as given. -/
def zDie (d : DieMem) : State := { dies := List.replicate 3 {} ++ [d] }
/-- One page can be taken where some range is not empty. -/
theorem takeOne : ∀ (l : List (Nat × Nat)), (∃ r ∈ l, r.2 ≠ 0) → (takePages 1 l).isSome = true
  | [], h => by simp at h
  | (a, m) :: l, h => by
    by_cases hm : 1 ≤ m
    · simp [takePages, hm]
    · have h0 : m = 0 := by omega
      subst h0
      have h' : ∃ r ∈ l, r.2 ≠ 0 := by simpa using h
      simpa [takePages] using takeOne l h'
/-- Box 63 can be opened after reset. -/
theorem zHold : (z.holdBox 63).isSome = true := by
  have hp : z.boxPages 63 = (1, 0) := by decide +kernel
  have hg : z.freeHbmAll = [(0, 98304), (98304, 98304), (196608, 98304), (294912, 98304)] := by decide +kernel
  have ho : ∀ c, (takePages 1 (rotatePages c z.freeHbmAll)).isSome = true := by
    intro c
    apply takeOne
    rw [hg]
    by_cases h : c = 0
    · subst h; exact ⟨(0, 98304), by decide +kernel, by decide⟩
    · exact ⟨(0, min 98304 c), by simp [rotatePages, h], by simp; omega⟩
  unfold State.holdBox
  rw [hp]
  simp only [State.holdPages, Nat.one_ne_zero, if_false, if_true, Option.isSome_bind]
  have := ho (Config.freeChoice z.draw.1)
  revert this
  cases takePages 1 (rotatePages (Config.freeChoice z.draw.1) z.freeHbmAll) <;> simp
/-- The bytes of a block that was read. -/
def blkBytes : BlkRes → List Byte
  | .ok bs _ _ => bs
  | _ => []
/-- A block that was read, as a Boolean. -/
theorem blkOk {r : BlkRes} {m k : Nat} (h : (match r with | .ok _ a b => decide (a = m ∧ b = k) | _ => false) = true) :
    r = .ok (blkBytes r) m k := by
  cases r <;> simp_all [blkBytes]
/-- An image that can be read is what memory holds. -/
theorem imgOk {s : State} (h : ¬ (0 % 16 ≠ 0 ∨ ¬ s.mapped 0 0 144 false = true)) (h' : ¬ s.poisonedBox 0 0 144 = true) :
    s.readImage 0 0 = .ok (s.readBox 0 0 144) := by
  unfold State.readImage
  rw [if_neg h, if_neg h']
/-- Box 0's bytes 0 to 143 hold `zImg`. -/
theorem zImgRead (c : CbSlot) : (zCb c (runCells 0 0 zImg)).readBox 0 0 144 = zImg := by
  have hb : ∀ i, i < 144 → (zCb {} (runCells 0 0 zImg)).byteOf 0 (0 + i) = zImg.getD i 0 := by decide +kernel
  have hl : zImg.length = 144 := by decide +kernel
  apply List.ext_getElem
  · simp [State.readBox, hl]
  · intro i h1 h2
    have : i < 144 := by rw [← hl]; exact h2
    simp only [State.readBox, List.getElem_map, List.getElem_range]
    rw [show (zCb c (runCells 0 0 zImg)).byteOf 0 (0 + i) = zImg.getD i 0 from hb i this]
    simp [List.getD, h2]

/-- The image's checksum, in pieces of 20 bytes. -/
theorem zImgCrc : crc32c (zImg.drop 4) = 167356213 := by
  have h0 : ([0, 1] ++ List.replicate 10 0 ++ [0x11] ++ List.replicate 7 0 : List Byte).foldl crcByte 0xFFFF_FFFF =
      927699381 := by decide +kernel
  have h1 : (List.replicate 20 0 : List Byte).foldl crcByte 927699381 = 564669250 := by decide +kernel
  have h2 : (List.replicate 20 0 : List Byte).foldl crcByte 564669250 = 1256312015 := by decide +kernel
  have h3 : (List.replicate 20 0 : List Byte).foldl crcByte 1256312015 = 312497937 := by decide +kernel
  have h4 : (List.replicate 20 0 : List Byte).foldl crcByte 312497937 = 142170304 := by decide +kernel
  have h5 : (List.replicate 20 0 : List Byte).foldl crcByte 142170304 = 3496753861 := by decide +kernel
  have h6 : ((List.replicate 20 0 : List Byte).foldl crcByte 3496753861) ^^^ 0xFFFF_FFFF = 167356213 := by decide +kernel
  have hd : zImg.drop 4 = ([0, 1] ++ List.replicate 10 0 ++ [0x11] ++ List.replicate 7 0) ++ (List.replicate 20 0 ++
      (List.replicate 20 0 ++ (List.replicate 20 0 ++ (List.replicate 20 0 ++ (List.replicate 20 0 ++
        List.replicate 20 0))))) := by decide +kernel
  unfold crc32c
  rw [hd, List.foldl_append, h0, List.foldl_append, h1, List.foldl_append, h2, List.foldl_append, h3, List.foldl_append, h4,
    List.foldl_append, h5]
  exact h6
/-- The image is valid. -/
theorem zImgValid : imageValid zImg = true := by
  unfold imageValid
  rw [zImgCrc]
  decide +kernel
/-- Empty memory holds no valid image. -/
theorem zBadImg : imageValid ((zCb {} []).readBox 0 0 144) = false := by
  have h : decide (((zCb {} []).readBox 0 0 144).getD 5 0 = 0x01) = false := by decide +kernel
  unfold imageValid
  rw [h]
  simp only [Bool.and_false, Bool.false_and]
/-- Modules 0 and 1 serve; port 0 is up; the fabric otherwise as given. -/
def zFab (f : Fabric) : State :=
  { fab := { f with members := [.serving, .serving] ++ List.replicate 62 .absent },
    links := { st := .up } :: List.replicate 23 {} }
/-- A packet from module 1 on port 0. -/
def zPk (seq : Nat) : PktHdr := { port := 0, dest := 0, src := 1, epoch := 0, seq := seq }
/-- A message that was sent. -/
def zSent (n : Nat) : E2eOut := { dest := 1, cls := 1, seq := 4, resends := n, msg := .timeSync }
/-- A packet that waits. -/
def zTx : TxPkt := { dest := 1, src := 0, seq := 4, cls := 1, bytes := 0, msg := .timeSync }
/-- A session. -/
def zSes : Session := { num := 1, version := 0x12 }
/-- A module that runs, a session open, box 0 as given. -/
def zHost (x : BoxSt) : State :=
  { boxes := x :: List.replicate 63 {}, host := { sessions := [zSes] },
    fw := { st := .running, booted := true, comps := List.replicate 6 { st := .running } } }
/-- The same before an image was started. -/
def zBoot : State := { host := { sessions := [zSes] }, fw := { booted := true } }
/-- A request of session 1 for box 0. -/
def zH (n : Nat) : PbpHdr := { session := 1, length := n }
theorem servesOk {s : State} {h : PbpHdr} {since : Nat} (k : Session)
    (d : h.relayed = false ∧ s.fw.booted = true ∧ hdrBad h = false ∧ s.pbpUp = true ∧ s.isWorker = false ∧
      s.host.cbReply ≠ some (h.session, h.seq) ∧ s.host.tierReply ≠ some (h.session, h.seq) ∧
      s.session? h.session = some k ∧ since ≤ k.version ∧ k.answered h.seq = false ∧
      k.store.find? (fun r => r.1 == h.seq) = none) : s.serves h since :=
  ⟨d.1, d.2.1, d.2.2.1, d.2.2.2.1, d.2.2.2.2.1, d.2.2.2.2.2.1, d.2.2.2.2.2.2.1, k, d.2.2.2.2.2.2.2⟩
theorem servesHereOk {s : State} {h : PbpHdr} {since : Nat} (k : Session)
    (d : (h.relayed = false ∧ s.fw.booted = true ∧ hdrBad h = false ∧ s.pbpUp = true ∧ s.isWorker = false ∧
      s.host.cbReply ≠ some (h.session, h.seq) ∧ s.host.tierReply ≠ some (h.session, h.seq) ∧
      s.session? h.session = some k ∧ since ≤ k.version ∧ k.answered h.seq = false ∧
      k.store.find? (fun r => r.1 == h.seq) = none) ∧ s.fw.st = .running ∧ h.targetPos = s.pos) : s.servesHere h since :=
  ⟨servesOk k d.1, d.2⟩
/-- Module 0 serves under manager 1, its bundle to it is up. -/
def zWork : State :=
  { zFab { role := .serving, manager := 1 } with links := List.replicate 4 { st := .up } ++ List.replicate 20 {} }
/-- The distances from module 1. -/
theorem zHops : ∀ k, zWork.hops 1 (k + 1) = (List.range 64).map (fun p => if p = 0 then 1 else if p = 1 then 0 else 99)
  | 0 => by decide +kernel
  | k + 1 => by
    unfold State.hops
    rw [zHops k]
    decide +kernel
theorem zParent : zWork.timeParent = some 0 := by
  unfold State.timeParent
  rw [show zWork.fab.manager = 1 from rfl, zHops 63]
  decide +kernel
/-- A connection to box 0. -/
def zCn : Conn := { num := 0, session := 1, box := 0, key := 7, role := roleRequester, mtu := 1024 }
/-- A module that serves, box 0 as given, one connection to it. -/
def zRo (x : BoxSt) : State :=
  { zHost x with host := { sessions := [zSes], conns := [zCn] }, fab := { members := List.replicate 64 .serving } }
/-- A box with its pages 0 and 1 mapped. -/
def zBx (e : W64) : BoxSt := { state := .active, session := some 1, pt := [(0, e), (1, 0xC000000000200000)] }
/-- All firmware components as given. -/
def zFw (c : Comp) : State := { fw := { comps := List.replicate 6 c } }
/-- The flight recorder as given. -/
def zLog (l : Recorder) : State := { log := l }
/-- A record. -/
def zRec (s : Sev) : Record := { code := 1, sev := s, srcType := 0 }
/-- Debug unlocked for `n`, core 67 as given. -/
def zDbg (n : Nat) (k : Core) : State := { zCoreAt 67 k with sec := { scope := n } }
/-- Core 67 with clerk 3 halted. -/
def zHalt : Core := { state := .running, clerks := List.replicate 3 {} ++ [{ state := .halted }] }
/-- The sideband has an address and the module booted. -/
def zSide (d : Sideband) : State := { side := { d with addr := some 9 }, fw := { booted := true } }
/-- A register's row. -/
def zRow (p : Pg) (i o : Nat) : RegRow := (Pg.rowAt p i o).getD { off := 0 }

/-- Witnesses for the hypotheses of StepRunsFrontCommand. -/
theorem witness_StepRunsFrontCommand :
    (∃ (c : Instr) (rest : List Instr) (s : State), (s.pending = c :: rest)) ∧
    (∃ (s : State), (s.pending = [])) :=
  ⟨⟨.ageWriteback, ([.lossTimeout]), ({ pending := [.ageWriteback, .lossTimeout] }), by decide +kernel⟩,
   ⟨z, by decide +kernel⟩⟩

/-- Witnesses for the hypotheses of ResetKeepsShape. -/
theorem witness_ResetKeepsShape :
    (∃ (b : _), (b < 64)) ∧
    (∃ (n : _), (n < 24)) :=
  ⟨⟨63, by decide +kernel⟩,
   ⟨23, by decide +kernel⟩⟩

/-- A witness for the hypotheses of StepKeepsInvariant. -/
theorem witness_StepKeepsInvariant :
    ∃ (s : State) (t : State), (s.Inv) ∧ (step s = .next t) :=
  ⟨z, z, by unfold State.Inv State.Shape Core.Shape Clerk.Shape; decide +kernel, rfl⟩

/-- Witnesses for the hypotheses of TimeIsSetSteppedSlewedAndLost. -/
theorem witness_TimeIsSetSteppedSlewedAndLost :
    (∃ (s : State), (s.time.st = .locked)) ∧
    (∃ (s : State), (s.time.st = .holdover)) ∧
    (∃ (s : State), (s.time.st = .unsync)) ∧
    (∃ (s : State), (s.time.st = .unsync) ∧ (s.time.heard = false)) ∧
    (∃ (s : State) (m : Nat) (o : Int), (o = (m : Int) - s.time.t) ∧ ((s.time.st = .unsync → s.time.heard = true)) ∧
      (o.natAbs ≤ s.slewLimit)) ∧
    (∃ (s : State) (m : Nat) (o : Int), (o = (m : Int) - s.time.t) ∧ ((s.time.st = .unsync → s.time.heard = true)) ∧
      (s.slewLimit < o.natAbs) ∧ (s.time.rounds = false)) ∧
    (∃ (s : State) (m : Nat) (o : Int), (o = (m : Int) - s.time.t) ∧ ((s.time.st = .unsync → s.time.heard = true)) ∧
      (s.slewLimit < o.natAbs) ∧ (s.time.rounds = true) ∧ (0 < o) ∧ ((m - s.roundEpoch) / s.roundLen ≤ s.time.round)) ∧
    (∃ (s : State) (m : Nat) (o : Int), (o = (m : Int) - s.time.t) ∧ ((s.time.st = .unsync → s.time.heard = true)) ∧
      (s.slewLimit < o.natAbs) ∧ (s.time.rounds = true) ∧ (o < 0)) :=
  ⟨⟨(zTime { st := .locked }), by decide +kernel⟩,
   ⟨(zTime { st := .holdover }), by decide +kernel⟩,
   ⟨z, by decide +kernel⟩,
   ⟨z, by decide +kernel, by decide +kernel⟩,
   ⟨(zTime { st := .locked, t := 5 }), 10000005, 10000000, by decide +kernel, by decide +kernel, by decide +kernel⟩,
   ⟨(zTime { st := .locked, t := 5 }), 10000006, 10000001, by decide +kernel, by decide +kernel, by decide +kernel,
     by decide +kernel⟩,
   ⟨(zTime { st := .locked, t := 5, rounds := true, round := 2 }), 10000006, 10000001, by decide +kernel,
     by decide +kernel, by decide +kernel, by decide +kernel, by decide +kernel, by decide +kernel⟩,
   ⟨(zTime { st := .locked, t := 20000001, rounds := true, round := 2 }), 10000000, (-10000001), by decide +kernel,
     by decide +kernel, by decide +kernel, by decide +kernel, by decide +kernel⟩⟩

/-- Witnesses for the hypotheses of RoundsBeginAndQuietWindowsOpenAndClose. -/
theorem witness_RoundsBeginAndQuietWindowsOpenAndClose :
    (∃ (s : State), (s.time.rounds = true)) ∧
    (∃ (s : State), (s.time.rounds = false) ∧ (s.time.st ≠ .unsync)) ∧
    (∃ (s : State) (n : Nat) (ph : Nat), (s.time.collections.getD n none = some ph) ∧ (s.time.rounds = true)) ∧
    (∃ (s : State) (n : Nat) (a : Nat) (b : Nat), (s.time.quiet.getD n none = some (a, b)) ∧ (s.time.rounds = true)) ∧
    (∃ (s : State) (n : Nat) (a : Nat) (b : Nat), (s.time.quiet.getD n none = some (a, b)) ∧
      (s.time.window = some n)) :=
  ⟨⟨(zTime { st := .locked, rounds := true }), by decide +kernel⟩,
   ⟨(zTime { st := .locked }), by decide +kernel, by decide +kernel⟩,
   ⟨(zTime { st := .locked, rounds := true, collections := some 5 :: List.replicate 15 none }), 0, 5,
     by decide +kernel, by decide +kernel⟩,
   ⟨(zTime { st := .locked, rounds := true, quiet := [none, none, none, some (10, 3000000)] }), 3, 10, 3000000,
     by decide +kernel, by decide +kernel⟩,
   ⟨(zTime { st := .locked, rounds := true, window := some 3, quiet := [none, none, none, some (10, 3000000)] }),
     3, 10, 3000000, by decide +kernel, by decide +kernel⟩⟩

/-- Witnesses for the hypotheses of SelfTestSlicesRunTheirCourse. -/
theorem witness_SelfTestSlicesRunTheirCourse :
    (∃ (s : State), (s.time.sliceCore = none) ∧ ((∀ c, c < 68 → (s.core c).overdue < 30)) ∧
      ((s.core (s.time.nextSlice % 68)).state ≠ .fenced) ∧ ((s.core (s.time.nextSlice % 68)).state ≠ .reset)) ∧
    (∃ (s : State) (c : Nat) (w : Nat) (a : Nat) (b : Nat), (c < 68) ∧ (c < s.cores.length) ∧
      ((s.core c).state = .drained) ∧ ((s.core c).slice = none) ∧ (s.time.window = some w) ∧
      (s.time.quiet.getD w none = some (a, b)) ∧ (2000000 + s.phase ≤ b) ∧ ((∃ g ∈ s.pwr.grants, g.core = c ∧
      g.slice = true))) ∧
    (∃ (s : State) (c : Nat), (c < 68) ∧ (c < s.cores.length) ∧ ((s.core c).state = .selftest) ∧
      ((s.core c).slice.isSome)) ∧
    (∃ (s : State) (c : Nat) (m : Nat), (c < 68) ∧ (c < s.cores.length) ∧ (((m = 30 ∧
      (s.core c).overdue < 30) ∨ (m = 60 ∧ (s.core c).overdue < 60)))) :=
  ⟨⟨(zCore { state := .drained, overdue := 29 }), by decide +kernel, by decide +kernel, by decide +kernel,
     by decide +kernel⟩,
   ⟨({ cores := List.replicate 67 {} ++ [{ state := .drained }], time := { st := .locked, rounds := true, window := some 3, quiet := [none, none, none, some (10, 2000000)] }, pwr := { grants := [{ core := 67, stamps := 100, slice := true }] } }),
     67, 3, 10, 2000000, by decide +kernel, by decide +kernel, by decide +kernel, by decide +kernel,
     by decide +kernel, by decide +kernel, by decide +kernel, by decide +kernel⟩,
   ⟨(zCoreAt 67 { state := .selftest, slice := some ⟨5, 0⟩ }), 67, by decide +kernel, by decide +kernel,
     by decide +kernel, by decide +kernel⟩,
   ⟨(zCore { overdue := 29 }), 0, 30, by decide +kernel, by decide +kernel, by decide +kernel⟩⟩

/-- Witnesses for the hypotheses of StampsAreGrantedRevokedAndRamped. -/
theorem witness_StampsAreGrantedRevokedAndRamped :
    (∃ (s : State) (c : Nat) (m : Nat) (n : Nat), (c < 68) ∧ (m < 4) ∧ ((s.core c).state ≠ .fenced) ∧
      ((s.core c).state ≠ .reset) ∧ (n = s.cost m - s.pwr.heldBy c) ∧ (n = 0)) ∧
    (∃ (s : State) (c : Nat) (m : Nat) (n : Nat), (c < 68) ∧ (m < 4) ∧ ((s.core c).state ≠ .fenced) ∧
      ((s.core c).state ≠ .reset) ∧ (n = s.cost m - s.pwr.heldBy c) ∧ (0 < n) ∧ (s.pwr.queue = []) ∧
      (s.base + s.pwr.granted + n ≤ s.pwr.effective)) ∧
    (∃ (s : State) (c : Nat) (m : Nat) (n : Nat), (c < 68) ∧ (m < 4) ∧ ((s.core c).state ≠ .fenced) ∧
      ((s.core c).state ≠ .reset) ∧ (n = s.cost m - s.pwr.heldBy c) ∧ (0 < n) ∧ ((∀ g ∈ s.pwr.queue, g.core ≠ c)) ∧
      ((s.pwr.queue ≠ [] ∨ s.pwr.effective < s.base + s.pwr.granted + n))) ∧
    (∃ (s : State) (g : Grant) (q : List Grant), (s.pwr.queue = g :: q) ∧
      (s.base + s.pwr.granted + g.stamps ≤ s.pwr.effective)) ∧
    (∃ (s : State) (g : Grant) (q : List Grant), (s.pwr.queue = g :: q) ∧
      (s.pwr.effective < s.base + s.pwr.granted + g.stamps)) ∧
    (∃ (s : State) (c : Nat) (n : Nat), (c < 68) ∧ (c < s.cores.length) ∧ ((s.core c).groups < n) ∧ (n ≤ 8) ∧
      (((s.core c).ramp = .off ∨ (s.core c).ramp = .up)) ∧ (0 < s.pwr.heldBy c) ∧
      (((s.core c).state = .running ∨ (s.core c).state = .draining))) ∧
    (∃ (s : State) (c : Nat) (n : Nat), (c < 68) ∧ (c < s.cores.length) ∧ (n < (s.core c).groups) ∧
      (((s.core c).ramp = .down ∨ ((s.core c).ramp = .full ∧ ∀ o ∈ (s.core c).mxeQ, o.isMul = false)))) ∧
    (∃ (s : State) (c : Nat), (c < 68) ∧ (c < s.cores.length) ∧ ((s.core c).ramp = .down) ∧
      ((s.core c).rampForced = false) ∧ ((∃ o ∈ (s.core c).mxeQ, o.isMul = true))) ∧
    (∃ (s : State) (c : Nat), (c < 68) ∧ (c < s.cores.length) ∧ ((s.core c).ramp = .down) ∧ ((s.core c).groups = 0)) :=
  ⟨⟨({ cores := { state := .drained } :: List.replicate 67 {}, pwr := { grants := [{ core := 0, stamps := 100 }] } }),
     0, 3, 0, by decide +kernel, by decide +kernel, by decide +kernel, by decide +kernel, by decide +kernel,
     by decide +kernel⟩,
   ⟨({ cores := { state := .drained } :: List.replicate 67 {}, pwr := { budget := 3300 } }), 0, 3, 100,
     by decide +kernel, by decide +kernel, by decide +kernel, by decide +kernel, by decide +kernel,
     by decide +kernel, by decide +kernel, by decide +kernel⟩,
   ⟨({ cores := { state := .drained } :: List.replicate 67 {}, pwr := { budget := 3299 } }), 0, 3, 100,
     by decide +kernel, by decide +kernel, by decide +kernel, by decide +kernel, by decide +kernel,
     by decide +kernel, by decide +kernel, by decide +kernel⟩,
   ⟨(zPwr { budget := 3300, queue := [{ core := 1, stamps := 100 }, { core := 2, stamps := 1 }] }),
     ({ core := 1, stamps := 100 }), ([{ core := 2, stamps := 1 }]), by decide +kernel, by decide +kernel⟩,
   ⟨(zPwr { budget := 3299, queue := [{ core := 1, stamps := 100 }] }), ({ core := 1, stamps := 100 }), ([]),
     by decide +kernel, by decide +kernel⟩,
   ⟨({ cores := { state := .running, groups := 7, ramp := .up } :: List.replicate 67 {}, pwr := { grants := [{ core := 0, stamps := 1 }] } }),
     0, 8, by decide +kernel, by decide +kernel, by decide +kernel, by decide +kernel, by decide +kernel,
     by decide +kernel, by decide +kernel⟩,
   ⟨(zCore { groups := 8, ramp := .full, mxeQ := [.wl 0 0] }), 0, 0, by decide +kernel, by decide +kernel,
     by decide +kernel, by decide +kernel⟩,
   ⟨(zCore { ramp := .down, mxeQ := [.wl 0 0, .mul 0 0 0 true false false] }), 0, by decide +kernel,
     by decide +kernel, by decide +kernel, by decide +kernel, by decide +kernel⟩,
   ⟨(zCore { ramp := .down }), 0, by decide +kernel, by decide +kernel, by decide +kernel, by decide +kernel⟩⟩

/-- Witnesses for the hypotheses of CoreRailsWarnDipAndReset. -/
theorem witness_CoreRailsWarnDipAndReset :
    (∃ (s : State) (d : Nat), (d < 4) ∧ (d < s.pwr.rails.length) ∧ ((s.rail d).st = .ok)) ∧
    (∃ (s : State) (d : Nat), (d < 4) ∧ (d < s.pwr.rails.length) ∧ ((s.rail d).st = .warning)) ∧
    (∃ (s : State) (d : Nat), (d < 4) ∧ (d < s.pwr.rails.length) ∧ ((s.rail d).st = .warning) ∧
      ((s.rail d).long = false)) ∧
    (∃ (s : State) (d : Nat), (d < 4) ∧ (s.Shape) ∧ (((s.rail d).st = .ok ∨ (s.rail d).st = .warning))) ∧
    (∃ (s : State) (d : Nat), (d < 4) ∧ (s.Shape) ∧ ((s.rail d).st = .reset)) ∧
    (∃ (s : State) (r : Nat), (r < 4) ∧ (s.Shape) ∧ ((s.rail r).st ≠ .short)) :=
  ⟨⟨z, 3, by decide +kernel, by decide +kernel, by decide +kernel⟩,
   ⟨(zRail .warning), 0, by decide +kernel, by decide +kernel, by decide +kernel⟩,
   ⟨(zRail .warning), 0, by decide +kernel, by decide +kernel, by decide +kernel, by decide +kernel⟩,
   ⟨(zRail .warning), 0, by decide +kernel, by unfold State.Shape Core.Shape Clerk.Shape; decide +kernel,
     by decide +kernel⟩,
   ⟨(zRail .reset), 0, by decide +kernel, by unfold State.Shape Core.Shape Clerk.Shape; decide +kernel,
     by decide +kernel⟩,
   ⟨(zRail .held), 0, by decide +kernel, by unfold State.Shape Core.Shape Clerk.Shape; decide +kernel,
     by decide +kernel⟩⟩

/-- Witnesses for the hypotheses of InputWarnsStopsAndStarts. -/
theorem witness_InputWarnsStopsAndStarts :
    (∃ (s : State) (mv : Nat), (mv < 40000) ∧ (s.pwr.inputWarning = false) ∧ (s.pwr.regulators = true)) ∧
    (∃ (s : State) (mv : Nat), (41000 < mv) ∧ (s.pwr.inputWarning = true)) ∧
    (∃ (s : State) (mv : Nat), ((mv < 36000 ∨ 62000 < mv)) ∧ (s.pwr.regulators = true)) ∧
    (∃ (s : State), (s.pwr.regulators = true)) ∧
    (∃ (n : Nat), (4 ≤ n)) ∧
    (∃ (s : State) (mv : Nat), (40000 ≤ mv) ∧ (mv ≤ 60000) ∧ (s.pins.pwrEn = true) ∧ (s.pwr.regulators = false)) :=
  ⟨⟨z, 39999, by decide +kernel, by decide +kernel, by decide +kernel⟩,
   ⟨(zPwr { inputWarning := true }), 41001, by decide +kernel, by decide +kernel⟩,
   ⟨z, 62001, by decide +kernel, by decide +kernel⟩,
   ⟨z, by decide +kernel⟩,
   ⟨4, by decide +kernel⟩,
   ⟨(zPwr { regulators := false }), 60000, by decide +kernel, by decide +kernel, by decide +kernel,
     by decide +kernel⟩⟩

/-- Witnesses for the hypotheses of ThermalLimitsAndDieLinksAct. -/
theorem witness_ThermalLimitsAndDieLinksAct :
    (∃ (s : State) (x : Nat), (s.throttle ≤ x)) ∧
    (∃ (s : State) (x : Nat), (x + 3 ≤ s.throttle) ∧ (s.hotStack = false) ∧ (s.pwr.factor < 10)) ∧
    (∃ (s : State) (n : Nat) (x : Nat), (n < 42) ∧ ((s.trip ≤ x ∨ (38 ≤ n ∧ 125 ≤ x)))) ∧
    (∃ (s : State) (n : Nat), (n < 42) ∧ (n ∉ s.pwr.openSensors) ∧ (¬ (n < 32 ∧ ∀ i,
      i < 8 → 8 * (n / 8) + i = n ∨ 8 * (n / 8) + i ∈ s.pwr.openSensors))) ∧
    (∃ (s : State) (n : Nat), (n < 32) ∧ (n ∉ s.pwr.openSensors) ∧ ((∀ i,
      i < 8 → 8 * (n / 8) + i = n ∨ 8 * (n / 8) + i ∈ s.pwr.openSensors))) ∧
    (∃ (s : State) (d : Nat) (k : Nat), (d < 4) ∧ (k < 8) ∧ (bit (s.pwr.d2d.getD d 0) k = false) ∧
      (bit (s.pwr.d2d.getD d 0) (pairLink k) = false) ∧ (s.pwr.d2d.length = 4)) ∧
    (∃ (s : State) (d : Nat) (k : Nat), (d < 4) ∧ (k < 8) ∧ (bit (s.pwr.d2d.getD d 0) k = false) ∧
      (s.pwr.d2d.length = 4) ∧ (bit (s.pwr.d2d.getD d 0) (pairLink k) = true)) :=
  ⟨⟨z, 95, by decide +kernel⟩,
   ⟨(zPwr { factor := 9 }), 92, by decide +kernel, by decide +kernel, by decide +kernel⟩,
   ⟨z, 38, 125, by decide +kernel, by decide +kernel⟩,
   ⟨z, 31, by decide +kernel, by decide +kernel, by decide +kernel⟩,
   ⟨(zPwr { openSensors := [25, 26, 27, 28, 29, 30, 31] }), 24, by decide +kernel, by decide +kernel,
     by decide +kernel⟩,
   ⟨z, 3, 7, by decide +kernel, by decide +kernel, by decide +kernel, by decide +kernel, by decide +kernel⟩,
   ⟨(zPwr { d2d := [0, 0, 0, 64] }), 3, 7, by decide +kernel, by decide +kernel, by decide +kernel,
     by decide +kernel, by decide +kernel⟩⟩

/-- Witnesses for the hypotheses of FencedCoresHoldNothing. -/
theorem witness_FencedCoresHoldNothing :
    (∃ (s : State) (c : Nat) (n : Nat), (s.Shape) ∧ (s.canFence c = true) ∧ (1 ≤ n) ∧ (n ≤ 3)) ∧
    (∃ (s : State) (c : Nat), (s.Shape) ∧ (s.canFence c = true) ∧ ((s.core c).state = .draining)) ∧
    (∃ (s : State) (c : Nat), (s.Shape) ∧ (s.canFence c = true)) ∧
    (∃ (s : State) (c : Nat) (n : Nat), (c < 68) ∧ (c < s.cores.length) ∧
      ((n ≠ (s.core c).incarnation ∨ (s.core c).state = .fenced))) :=
  ⟨⟨z, 67, 3, by unfold State.Shape Core.Shape Clerk.Shape; decide +kernel, by decide +kernel, by decide +kernel,
     by decide +kernel⟩,
   ⟨(zCoreAt 67 { state := .draining }), 67, by unfold State.Shape Core.Shape Clerk.Shape; decide +kernel,
     by decide +kernel, by decide +kernel⟩,
   ⟨(zCore { state := .running }), 0, by unfold State.Shape Core.Shape Clerk.Shape; decide +kernel,
     by decide +kernel⟩,
   ⟨(zCore { incarnation := 2 }), 0, 1, by decide +kernel, by decide +kernel, by decide +kernel⟩⟩

/-- Witnesses for the hypotheses of CoresAreSubstitutedAndReturned. -/
theorem witness_CoresAreSubstitutedAndReturned :
    (∃ (s : State) (l : Nat) (c : Nat) (sp : Nat), (s.Shape) ∧ (l < 64) ∧ (s.physical l = some c) ∧
      ((s.core c).state = .fenced) ∧ (s.passingSpare (coreDie c) = some sp)) ∧
    (∃ (s : State) (l : Nat) (c : Nat), (l < 64) ∧ (s.physical l = some c) ∧ ((s.core c).state = .fenced) ∧
      (s.passingSpare (coreDie c) = none)) ∧
    (∃ (s : State) (c : Nat), (c < 68) ∧ (c < s.cores.length) ∧ ((s.core c).state = .fenced) ∧
      ((s.core c).timesFenced < 3)) ∧
    (∃ (s : State) (c : Nat), (3 ≤ (s.core c).timesFenced)) :=
  ⟨⟨({ cores := { state := .fenced } :: List.replicate 15 {} ++ { state := .drained, lastPass := some 4 } :: List.replicate 51 {} }),
     0, 0, 16, by unfold State.Shape Core.Shape Clerk.Shape; decide +kernel, by decide +kernel, by decide +kernel,
     by decide +kernel, by decide +kernel⟩,
   ⟨(zCore { state := .fenced }), 0, 0, by decide +kernel, by decide +kernel, by decide +kernel, by decide +kernel⟩,
   ⟨(zCoreAt 67 { state := .fenced, timesFenced := 2 }), 67, by decide +kernel, by decide +kernel,
     by decide +kernel, by decide +kernel⟩,
   ⟨(zCore { state := .fenced, timesFenced := 3 }), 0, by decide +kernel⟩⟩

/-- Witnesses for the hypotheses of CoresDrainAndResume. -/
theorem witness_CoresDrainAndResume :
    (∃ (s : State) (c : Nat), (c < s.cores.length) ∧ ((s.core c).state = .running)) ∧
    (∃ (s : State) (c : Nat), (c < s.cores.length) ∧ ((s.core c).state = .idle)) ∧
    (∃ (s : State) (c : Nat), (c < s.cores.length) ∧ ((s.core c).state = .draining) ∧ ((s.core c).run = none) ∧
      ((s.core c).chain = none)) ∧
    (∃ (s : State) (c : Nat), (c < s.cores.length) ∧ ((s.core c).state = .drained)) :=
  ⟨⟨(zCore { state := .running }), 0, by decide +kernel, by decide +kernel⟩,
   ⟨(zCore { state := .idle }), 0, by decide +kernel, by decide +kernel⟩,
   ⟨(zCore { state := .draining }), 0, by decide +kernel, by decide +kernel, by decide +kernel, by decide +kernel⟩,
   ⟨(zCore { state := .drained }), 0, by decide +kernel, by decide +kernel⟩⟩

/-- Witnesses for the hypotheses of CoreMapsAndPigeonholesAreRemapped. -/
theorem witness_CoreMapsAndPigeonholesAreRemapped :
    (∃ (s : State) (c : Nat), (c < 68) ∧ ((s.core c).state = .drained)) ∧
    (∃ (s : State) (c : Nat), (c < 68) ∧ ((s.core c).state ≠ .drained)) ∧
    (∃ (s : State) (c : Nat) (v : W32), (c < 68) ∧ ((s.core c).state = .drained) ∧ (v.toNat ≤ 64)) ∧
    (∃ (s : State) (c : Nat) (v : W32), (c < 68) ∧ (((s.core c).state ≠ .drained ∨ 64 < v.toNat % 128))) ∧
    (∃ (s : State) (n : Nat) (v : W32), (n < 16) ∧ ((∀ k, k < 4 → s.mapOk n v.toNat k = true))) ∧
    (∃ (s : State) (n : Nat) (k : Nat) (v : W32), (n < 16) ∧ (k < 4) ∧ (s.mapOk n v.toNat k = false)) ∧
    (∃ (s : State) (c : Nat) (n : Nat) (v : W32) (p : Place) (g : Group), (c < 68) ∧ (v.toNat < 2 ^ 24) ∧
      (s.place? (bits v.toNat 17 0) = some p) ∧ (s.group? p.group = some g) ∧ (g.box = bits v.toNat 23 18) ∧ (n < 16)) ∧
    (∃ (s : State) (c : Nat), (c < 68) ∧ (c < s.cores.length)) ∧
    (∃ (s : State) (c : Nat) (ph : Nat), (c < 68) ∧ (c < s.cores.length) ∧ (ph < 9) ∧
      (bit (s.core c).retired ph = false)) ∧
    (∃ (s : State) (c : Nat) (ph : Nat) (n : Nat), (c < 68) ∧ (c < s.cores.length) ∧ (ph < 9) ∧
      (bit (s.core c).retired ph = false) ∧ (0 < n) ∧ (n < s.field .acm c Reg.acm_acmCeLimit 7 0)) ∧
    (∃ (s : State) (c : Nat), (c < 68) ∧ (c < s.cores.length) ∧ ((s.core c).run = none) ∧
      (((s.core c).state = .drained ∨ (s.core c).state = .idle ∨ (s.core c).state = .draining)) ∧
      (remapAll (s.regN .acm c Reg.acm_acmMap) (s.core c).retired ≠ s.regN .acm c Reg.acm_acmMap)) :=
  ⟨⟨(zCore { state := .drained }), 0, by decide +kernel, by decide +kernel⟩,
   ⟨(zCore { state := .idle }), 0, by decide +kernel, by decide +kernel⟩,
   ⟨(zCore { state := .drained }), 0, 64, by decide +kernel, by decide +kernel, by decide +kernel⟩,
   ⟨(zCore { state := .drained }), 0, 65, by decide +kernel, by decide +kernel⟩,
   ⟨z, 15, 0xFFFFFFFF, by decide +kernel, by decide +kernel⟩,
   ⟨z, 15, 3, 0x10FFFFFF, by decide +kernel, by decide +kernel, by decide +kernel⟩,
   ⟨({ cores := List.replicate 67 {} ++ [{}], places := [{ stream := 5, group := 0, place := 0 }], groups := [{ index := 0, box := 63, home := 0, streams := [5] }] }),
     67, 15, 0xFC0005, ({ stream := 5, group := 0, place := 0 }),
     ({ index := 0, box := 63, home := 0, streams := [5] }), by decide +kernel, by decide +kernel, by decide +kernel,
     by decide +kernel, by decide +kernel, by decide +kernel⟩,
   ⟨z, 67, by decide +kernel, by decide +kernel⟩,
   ⟨z, 67, 8, by decide +kernel, by decide +kernel, by decide +kernel, by decide +kernel⟩,
   ⟨z, 67, 8, 15, by decide +kernel, by decide +kernel, by decide +kernel, by decide +kernel, by decide +kernel,
     by decide +kernel⟩,
   ⟨(zCore { state := .drained, retired := 1 }), 0, by decide +kernel, by decide +kernel, by decide +kernel,
     by decide +kernel, by decide +kernel⟩⟩

/-- Witnesses for the hypotheses of ItemsThatActAtOnce. -/
theorem witness_ItemsThatActAtOnce :
    (∃ (s : State) (id : Nat) (i : Item), (s.mayAct id 0x0B i)) ∧
    (∃ (s : State) (id : Nat) (i : Item), (s.mayAct id 0x0A i)) ∧
    (∃ (s : State) (id : Nat) (i : Item), (s.mayAct id 0x09 i) ∧ (s.backwardBad i = false)) ∧
    (∃ (s : State) (id : Nat) (i : Item), (s.mayAct id 0x09 i) ∧ (s.backwardBad i = true)) ∧
    (∃ (s : State) (id : Nat) (i : Item), (s.mayAct id 0x05 i)) ∧
    (∃ (s : State) (id : Nat) (g : Nat) (i : Item), (s.mayAct id 0x06 i) ∧ (i.group = some g)) :=
  ⟨⟨(zItem (zIt 0x0B [])), 1, (zIt 0x0B []), by unfold State.mayAct; decide +kernel⟩,
   ⟨(zItem (zIt 0x0A [])), 1, (zIt 0x0A []), by unfold State.mayAct; decide +kernel⟩,
   ⟨(zItem (zIt 9 [])), 1, (zIt 9 []), by unfold State.mayAct; decide +kernel, by decide +kernel⟩,
   ⟨(zItem (zIt 9 [{ stream := 99 }])), 1, (zIt 9 [{ stream := 99 }]), by unfold State.mayAct; decide +kernel,
     by decide +kernel⟩,
   ⟨(zItem (zIt 5 [])), 1, (zIt 5 []), by unfold State.mayAct; decide +kernel⟩,
   ⟨(zItem { zIt 6 [] with group := some 0 }), 1, 0, ({ zIt 6 [] with group := some 0 }),
     by unfold State.mayAct; decide +kernel, by decide +kernel⟩⟩

/-- Witnesses for the hypotheses of GroupsForkCullAndOpen. -/
theorem witness_GroupsForkCullAndOpen :
    (∃ (s : State) (id : Nat) (i : Item) (p : Place) (g : Group) (a : Slot), (s.mayAct id 0x02 i) ∧
      (i.opEnd = false) ∧ (s.forkBad i.groupStream i.streams = false) ∧ (s.place? i.groupStream = some p) ∧
      (s.groupOf i.groupStream = some g) ∧ (p.residency = .resident) ∧ (p.arena = some a) ∧
      (i.streams.length * g.slotSize ≤ s.arenaRoom i.box) ∧ ((∀ w j,
      w ∈ s.arenaWait → s.item? w.1 = some j → j.box ≠ i.box))) ∧
    (∃ (s : State) (id : Nat) (i : Item), (s.mayAct id 0x02 i) ∧ (i.opEnd = false) ∧
      (s.forkBad i.groupStream i.streams = true)) ∧
    (∃ (s : State) (id : Nat) (i : Item) (g : Group), (s.mayAct id 0x04 i) ∧ (i.opEnd = false) ∧
      (i.refillFlag = false) ∧ (i.sources = []) ∧ (s.groupOf i.groupStream = some g) ∧ (i.streams.Nodup) ∧
      ((∀ m ∈ i.streams, ∃ p, s.place? m = some p ∧ p.group = g.index ∧ p.live = true)) ∧ ((∃ m ∈ g.streams,
      m ∉ i.streams ∧ ∃ p, s.place? m = some p ∧ p.live = true))) ∧
    (∃ (s : State) (id : Nat) (i : Item) (p : Place) (g : Group), (s.mayAct id 0x01 i) ∧ (0 < i.entries.length) ∧
      (s.place? (i.entry 0).stream = some p) ∧ (s.groupOf (i.entry 0).stream = some g) ∧ (p.live = false) ∧
      (s.mapped i.box (i.argC + 64) (g.slotSize - 64) false = true) ∧
      (s.poisonedBox i.box (i.argC + 64) (g.slotSize - 64) = false) ∧ (g.slotSize ≤ s.arenaRoom i.box) ∧ ((∀ w j,
      w ∈ s.arenaWait → s.item? w.1 = some j → j.box ≠ i.box))) :=
  ⟨⟨(zSt [zPlA,
     { stream := 6, group := 0, place := 1 }] zGr { zIt 2 [] with desc := 5 * 2 ^ 360, streams := [6] }), 1,
     ({ zIt 2 [] with desc := 5 * 2 ^ 360, streams := [6] }), zPlA, zGr, zSlot,
     by unfold State.mayAct; decide +kernel, by decide +kernel, by decide +kernel, by decide +kernel,
     by decide +kernel, by decide +kernel, by decide +kernel, by decide +kernel, fun _ _ h => nomatch h⟩,
   ⟨(zSt [zPlA] zGr { zIt 2 [] with desc := 5 * 2 ^ 360 }), 1, ({ zIt 2 [] with desc := 5 * 2 ^ 360 }),
     by unfold State.mayAct; decide +kernel, by decide +kernel, by decide +kernel⟩,
   ⟨(zSt [zPlA, { stream := 6, group := 0, place := 1, live := true }] zGr { zIt 4 [] with desc := 5 * 2 ^ 360 }),
     1, ({ zIt 4 [] with desc := 5 * 2 ^ 360 }), zGr, by unfold State.mayAct; decide +kernel, by decide +kernel,
     by decide +kernel, by decide +kernel, by decide +kernel, by decide +kernel, List.forall_mem_cons.2 ⟨⟨zPlA,
     by decide +kernel⟩, List.forall_mem_nil _⟩, ⟨6, by decide +kernel, by decide +kernel,
     { stream := 6, group := 0, place := 1, live := true }, by decide +kernel⟩⟩,
   ⟨(zSt [{ zPl with live := false }] zGr (zIt 1 [{ stream := 5 }])), 1, (zIt 1 [{ stream := 5 }]),
     ({ zPl with live := false }), zGr, by unfold State.mayAct; decide +kernel, by decide +kernel, by decide +kernel,
     by decide +kernel, by decide +kernel, by decide +kernel, by decide +kernel, by decide +kernel,
     fun _ _ h => nomatch h⟩⟩

/-- Witnesses for the hypotheses of StepsRunCommitAndCull. -/
theorem witness_StepsRunCommitAndCull :
    (∃ (s : State) (id : Nat) (i : Item) (p : Place) (g : Group), (s.mayAct id 0x03 i) ∧ (s.cullMissing i = false) ∧
      (0 < i.entries.length) ∧ ((i.entry 0).st = .waiting) ∧ (s.place? (i.entry 0).stream = some p) ∧
      (s.groupOf (i.entry 0).stream = some g) ∧ (p.live = true) ∧ ((i.entry 0).pause = false) ∧
      (p.residency = .resident) ∧ (headerFault p (p.arena.getD {}) = none) ∧
      ((i.entry 0).versionBad p (p.arena.getD {}).stepCount = false) ∧ ((i.entry 0).reset = false)) ∧
    (∃ (s : State) (id : Nat) (i : Item) (p : Place) (g : Group), (s.mayAct id 0x03 i) ∧ (s.cullMissing i = false) ∧
      (0 < i.entries.length) ∧ ((i.entry 0).st = .waiting) ∧ (s.place? (i.entry 0).stream = some p) ∧
      (s.groupOf (i.entry 0).stream = some g) ∧ (p.live = true) ∧ ((i.entry 0).pause = false) ∧
      (p.residency = .resident) ∧ (headerFault p (p.arena.getD {}) = none) ∧
      ((i.entry 0).versionBad p (p.arena.getD {}).stepCount = false) ∧ ((i.entry 0).reset = true) ∧
      ((i.entry 0).resetVa = 0)) ∧
    (∃ (s : State) (id : Nat) (i : Item) (p : Place) (g : Group), (s.mayAct id 0x03 i) ∧ (s.cullMissing i = false) ∧
      (0 < i.entries.length) ∧ ((i.entry 0).st = .waiting) ∧ (s.place? (i.entry 0).stream = some p) ∧
      (s.groupOf (i.entry 0).stream = some g) ∧ (p.live = true) ∧ ((i.entry 0).pause = false) ∧
      (p.residency = .resident) ∧ (headerFault p (p.arena.getD {}) = none) ∧
      ((i.entry 0).versionBad p (p.arena.getD {}).stepCount = true)) ∧
    (∃ (s : State) (id : Nat) (i : Item) (p : Place) (g : Group), (s.mayAct id 0x03 i) ∧ (s.cullMissing i = false) ∧
      (0 < i.entries.length) ∧ ((i.entry 0).st = .waiting) ∧ (s.place? (i.entry 0).stream = some p) ∧
      (s.groupOf (i.entry 0).stream = some g) ∧ (p.live = true) ∧ ((i.entry 0).pause = true) ∧
      ((i.entry 0).versionBad p p.stepCount = false)) ∧
    (∃ (s : State) (id : Nat) (i : Item), (s.mayAct id 0x03 i) ∧ (s.cullMissing i = true)) ∧
    (∃ (s : State) (id : Nat) (k : Nat) (i : Item) (p : Place) (g : Group), (s.item? id = some i) ∧
      (i.disp = none) ∧ (i.kind = 0x03) ∧ (k < i.entries.length) ∧ ((i.entry k).st = .ready) ∧
      (s.place? (i.entry k).stream = some p) ∧ (s.groupOf (i.entry k).stream = some g) ∧ (p.stepCount ≠ 0xFFFFFFFF)) ∧
    (∃ (s : State) (id : Nat) (k : Nat) (i : Item) (p : Place) (g : Group), (s.item? id = some i) ∧
      (i.disp = none) ∧ (i.kind = 0x03) ∧ (k < i.entries.length) ∧ ((i.entry k).st = .ready) ∧
      (s.place? (i.entry k).stream = some p) ∧ (s.groupOf (i.entry k).stream = some g) ∧ (p.stepCount = 0xFFFFFFFF)) ∧
    (∃ (s : State) (id : Nat) (i : Item) (p : Place) (g : Group), (s.item? id = some i) ∧ (i.disp = none) ∧
      (i.kind = 0x01) ∧ (0 < i.entries.length) ∧ ((i.entry 0).st = .ready) ∧ (s.place? (i.entry 0).stream = some p) ∧
      (s.groupOf (i.entry 0).stream = some g)) ∧
    (∃ (s : State) (id : Nat) (i : Item), (s.item? id = some i) ∧ (i.cullDue = true) ∧
      ((∀ g ∈ s.culledGroups i.groups, g.refill = .none))) ∧
    (∃ (s : State) (id : Nat) (i : Item), (s.item? id = some i) ∧ (i.cullDue = false)) :=
  ⟨⟨(zSt [zPlA] zGr (zIt 3 [{ stream := 5, expStep := 7 }])), 1, (zIt 3 [{ stream := 5, expStep := 7 }]), zPlA,
     zGr, by unfold State.mayAct; decide +kernel, by decide +kernel, by decide +kernel, by decide +kernel,
     by decide +kernel, by decide +kernel, by decide +kernel, by decide +kernel, by decide +kernel,
     by decide +kernel, by decide +kernel, by decide +kernel⟩,
   ⟨(zSt [zPlA] zGr (zIt 3 [{ stream := 5, expStep := 7, reset := true }])), 1,
     (zIt 3 [{ stream := 5, expStep := 7, reset := true }]), zPlA, zGr, by unfold State.mayAct; decide +kernel,
     by decide +kernel, by decide +kernel, by decide +kernel, by decide +kernel, by decide +kernel,
     by decide +kernel, by decide +kernel, by decide +kernel, by decide +kernel, by decide +kernel,
     by decide +kernel, by decide +kernel⟩,
   ⟨(zSt [zPlA] zGr (zIt 3 [{ stream := 5, expStep := 6 }])), 1, (zIt 3 [{ stream := 5, expStep := 6 }]), zPlA,
     zGr, by unfold State.mayAct; decide +kernel, by decide +kernel, by decide +kernel, by decide +kernel,
     by decide +kernel, by decide +kernel, by decide +kernel, by decide +kernel, by decide +kernel,
     by decide +kernel, by decide +kernel⟩,
   ⟨(zSt [zPlA] zGr (zIt 3 [{ stream := 5, expStep := 7, pause := true }])), 1,
     (zIt 3 [{ stream := 5, expStep := 7, pause := true }]), zPlA, zGr, by unfold State.mayAct; decide +kernel,
     by decide +kernel, by decide +kernel, by decide +kernel, by decide +kernel, by decide +kernel,
     by decide +kernel, by decide +kernel, by decide +kernel⟩,
   ⟨(zSt [zPlA,
     { stream := 6, group := 0, place := 1, live := true }] { zGr with cullCount := 1 } { zIt 3 [] with desc := 2 ^ 336 }),
     1, ({ zIt 3 [] with desc := 2 ^ 336 }), by unfold State.mayAct; decide +kernel, by decide +kernel⟩,
   ⟨(zSt [{ zPlA with stepCount := 0xFFFFFFFE }] zGr (zIt 3 [{ stream := 5, st := .ready }])), 1, 0,
     (zIt 3 [{ stream := 5, st := .ready }]), ({ zPlA with stepCount := 0xFFFFFFFE }), zGr, by decide +kernel,
     by decide +kernel, by decide +kernel, by decide +kernel, by decide +kernel, by decide +kernel,
     by decide +kernel, by decide +kernel⟩,
   ⟨(zSt [{ zPlA with stepCount := 0xFFFFFFFF }] zGr (zIt 3 [{ stream := 5, st := .ready }])), 1, 0,
     (zIt 3 [{ stream := 5, st := .ready }]), ({ zPlA with stepCount := 0xFFFFFFFF }), zGr, by decide +kernel,
     by decide +kernel, by decide +kernel, by decide +kernel, by decide +kernel, by decide +kernel,
     by decide +kernel, by decide +kernel⟩,
   ⟨(zSt [zPl] zGr (zIt 1 [{ stream := 5, st := .ready }])), 1, (zIt 1 [{ stream := 5, st := .ready }]), zPl, zGr,
     by decide +kernel, by decide +kernel, by decide +kernel, by decide +kernel, by decide +kernel,
     by decide +kernel, by decide +kernel⟩,
   ⟨(zSt [zPlA] { zGr with cullCount := 1 } { zIt 3 [{ st := .committed }] with desc := 2 ^ 336, took := true }),
     1, ({ zIt 3 [{ st := .committed }] with desc := 2 ^ 336, took := true }), by decide +kernel, by decide +kernel,
     by decide +kernel⟩,
   ⟨(zItem (zIt 3 [])), 1, (zIt 3 []), by decide +kernel, by decide +kernel⟩⟩

/-- Witnesses for the hypotheses of ParksRecallsRingsAndDeadlines. -/
theorem witness_ParksRecallsRingsAndDeadlines :
    (∃ (s : State) (id : Nat) (i : Item) (p : Place), (s.mayAct id 0x07 i) ∧ (0 < i.entries.length) ∧
      ((i.entry 0).st = .waiting) ∧ (s.place? (i.entry 0).stream = some p) ∧ (p.live = true) ∧
      (p.residency = .resident) ∧ (p.pinCount = 0) ∧ (p.held = false)) ∧
    (∃ (s : State) (id : Nat) (i : Item) (p : Place), (s.mayAct id 0x07 i) ∧ (0 < i.entries.length) ∧
      ((i.entry 0).st = .waiting) ∧ (s.place? (i.entry 0).stream = some p) ∧ (p.live = true) ∧
      (p.residency = .resident) ∧ (p.pinCount ≠ 0)) ∧
    (∃ (s : State) (id : Nat) (i : Item) (p : Place) (g : Group), (s.mayAct id 0x08 i) ∧ (0 < i.entries.length) ∧
      ((i.entry 0).st = .waiting) ∧ (s.place? (i.entry 0).stream = some p) ∧ (s.groupOf (i.entry 0).stream = some g) ∧
      (p.live = true) ∧ (p.residency = .resident)) ∧
    (∃ (s : State) (id : Nat) (i : Item) (p : Place) (g : Group), (s.mayAct id 0x08 i) ∧ (0 < i.entries.length) ∧
      ((i.entry 0).st = .waiting) ∧ (s.place? (i.entry 0).stream = some p) ∧ (s.groupOf (i.entry 0).stream = some g) ∧
      (p.live = true) ∧ (p.residency = .away) ∧ (g.slotSize ≤ s.arenaRoom i.box) ∧ ((∀ w j,
      w ∈ s.arenaWait → s.item? w.1 = some j → j.box ≠ i.box))) ∧
    (∃ (s : State) (b : Nat) (ring : Nat) (e : Nat) (r : SubRing),
      ((s.box b).subs.find? (fun q => q.index == ring) = some r) ∧ (s.nextRing b = some ring) ∧
      (s.ringEntry b r r.taken = .ok e) ∧ (s.item? s.nextItem = none)) ∧
    (∃ (s : State) (id : Nat) (d : Nat) (i : Item), (s.item? id = some i) ∧ (i.deadline = some d) ∧
      (i.disp = none) ∧ (i.soft = false)) ∧
    (∃ (s : State) (id : Nat) (d : Nat) (i : Item), (s.item? id = some i) ∧ (i.deadline = some d) ∧
      (i.disp = none) ∧ (i.soft = true)) ∧
    (∃ (s : State) (id : Nat) (d : Nat) (i : Item), (s.item? id = some i) ∧ (i.deadline = some d) ∧ (i.disp ≠ none)) :=
  ⟨⟨(zSt [zPlA] zGr (zIt 7 [{ stream := 5 }])), 1, (zIt 7 [{ stream := 5 }]), zPlA,
     by unfold State.mayAct; decide +kernel, by decide +kernel, by decide +kernel, by decide +kernel,
     by decide +kernel, by decide +kernel, by decide +kernel, by decide +kernel⟩,
   ⟨(zSt [{ zPlA with pinCount := 1 }] zGr (zIt 7 [{ stream := 5 }])), 1, (zIt 7 [{ stream := 5 }]),
     ({ zPlA with pinCount := 1 }), by unfold State.mayAct; decide +kernel, by decide +kernel, by decide +kernel,
     by decide +kernel, by decide +kernel, by decide +kernel, by decide +kernel⟩,
   ⟨(zSt [zPlA] zGr (zIt 8 [{ stream := 5 }])), 1, (zIt 8 [{ stream := 5 }]), zPlA, zGr,
     by unfold State.mayAct; decide +kernel, by decide +kernel, by decide +kernel, by decide +kernel,
     by decide +kernel, by decide +kernel, by decide +kernel⟩,
   ⟨(zSt [{ zPl with residency := .away }] zGr (zIt 8 [{ stream := 5 }])), 1, (zIt 8 [{ stream := 5 }]),
     ({ zPl with residency := .away }), zGr, by unfold State.mayAct; decide +kernel, by decide +kernel,
     by decide +kernel, by decide +kernel, by decide +kernel, by decide +kernel, by decide +kernel,
     by decide +kernel, fun _ _ h => nomatch h⟩,
   ⟨(zBox { state := .active, subs := [⟨3, 0, 64, 63, 64⟩], pt := [(0, 0xC000000000000000)] }), 0, 3, 0, (⟨3, 0,
     64, 63, 64⟩), by decide +kernel, by decide +kernel, okOf (by decide +kernel), by decide +kernel⟩,
   ⟨(zItem { zIt 3 [] with deadline := some 50 }), 1, 50, ({ zIt 3 [] with deadline := some 50 }),
     by decide +kernel, by decide +kernel, by decide +kernel, by decide +kernel⟩,
   ⟨(zItem { zIt 3 [] with deadline := some 50, soft := true }), 1, 50,
     ({ zIt 3 [] with deadline := some 50, soft := true }), by decide +kernel, by decide +kernel, by decide +kernel,
     by decide +kernel⟩,
   ⟨(zItem { zIt 3 [] with deadline := some 50, disp := some (.done false) }), 1, 50,
     ({ zIt 3 [] with deadline := some 50, disp := some (.done false) }), by decide +kernel, by decide +kernel,
     by decide +kernel⟩⟩

/-- Witnesses for the hypotheses of InstancesArePlacedStartedAndStolen. -/
theorem witness_InstancesArePlacedStartedAndStolen :
    (∃ (s : State) (id : Nat) (k : Nat) (i : Item) (x : Inst) (e : KEntry) (c : _) (v : _) (sk : _),
      (s.item? id = some i) ∧ (i.disp = none) ∧ (i.took = true) ∧ (i.pos = s.pos) ∧ (k < i.entries.length) ∧
      ((i.entry k).st = .running) ∧ (s.gangAllows i = true) ∧ (s.chainOf id k = none) ∧ (s.nextInst i k = some x) ∧
      (s.kentry? x = some e) ∧ (c < s.cores.length) ∧
      (s.choose x e (s.placeOrder i x) (fun c => (s.core c).accepts && (!(s.gangSet || s.gangItem.isSome) || (s.core c).bare)) = .on c v sk)) ∧
    (∃ (s : State) (id : Nat) (k : Nat) (i : Item) (x : Inst) (e : KEntry) (sk : _), (s.item? id = some i) ∧
      (i.disp = none) ∧ (i.took = true) ∧ (i.pos = s.pos) ∧ (k < i.entries.length) ∧ ((i.entry k).st = .running) ∧
      (s.gangAllows i = true) ∧ (s.chainOf id k = none) ∧ (s.nextInst i k = some x) ∧ (s.kentry? x = some e) ∧
      (s.choose x e (s.placeOrder i x) (fun c => (s.core c).accepts && (!(s.gangSet || s.gangItem.isSome) || (s.core c).bare)) = .short sk)) ∧
    (∃ (s : State) (id : Nat) (k : Nat) (i : Item) (x : Inst) (e : KEntry), (s.item? id = some i) ∧
      (i.disp = none) ∧ (i.took = true) ∧ (i.pos = s.pos) ∧ (k < i.entries.length) ∧ ((i.entry k).st = .running) ∧
      (s.gangAllows i = true) ∧ (s.chainOf id k = none) ∧ (s.nextInst i k = some x) ∧ (s.kentry? x = some e) ∧
      (s.choose x e (s.placeOrder i x) (fun c => (s.core c).accepts && (!(s.gangSet || s.gangItem.isSome) || (s.core c).bare)) = .wait)) ∧
    (∃ (s : State) (id : Nat) (k : Nat) (c : Nat) (i : Item) (x : Inst) (e : KEntry) (v : Bool) (sk : List Nat),
      (s.item? id = some i) ∧ (i.disp = none) ∧ (i.took = true) ∧ (i.pos = s.pos) ∧ (k < i.entries.length) ∧
      ((i.entry k).st = .running) ∧ (s.gangAllows i = true) ∧ (s.chainOf id k = some (c, x)) ∧ (c < s.cores.length) ∧
      (s.kentry? x = some e) ∧ (s.choose x e [c] (fun _ => true) = .on c v sk)) ∧
    (∃ (s : State) (c : Nat) (i : Item) (x : Inst) (ker : Kernel), (s.Shape) ∧ (c < 68) ∧ (x.box < 64) ∧
      ((s.core c).mayStart = true) ∧ (s.queueHead c = some x) ∧ (s.item? x.item = some i) ∧
      (s.kernelOf x = some ker) ∧ ((ker.usesState = false ∨ x.stream = none))) ∧
    (∃ (s : State) (c : Nat) (d : Nat) (x : Inst), (c < s.cores.length) ∧ (d < s.cores.length) ∧ (d ≠ c) ∧
      ((s.core c).state = .idle) ∧ ((s.core c).accepts = true) ∧ ((s.core c).bare = true) ∧
      (((pickFirst (fun (a b : Nat × Inst) => s.instBefore a.2 b.2) (s.stealable c true)).or (pickFirst (fun (a b : Nat × Inst) => s.instBefore a.2 b.2) (s.stealable c false))) = some (d,
      x))) :=
  ⟨⟨(zRun { state := .idle } {}), 1, 0, zStepIt, zInst, ({ kernel := {} }), 0, false, ([]), by decide +kernel,
     by decide +kernel, by decide +kernel, by decide +kernel, by decide +kernel, by decide +kernel,
     by decide +kernel, by decide +kernel, by decide +kernel, by decide +kernel, by decide +kernel,
     by decide +kernel⟩,
   ⟨(zRun {} { phNeed := 9 }), 1, 0, zStepIt, zInst, ({ kernel := { phNeed := 9 } }), ([]), by decide +kernel,
     by decide +kernel, by decide +kernel, by decide +kernel, by decide +kernel, by decide +kernel,
     by decide +kernel, by decide +kernel, by decide +kernel, by decide +kernel, by decide +kernel⟩,
   ⟨(zRun {} {}), 1, 0, zStepIt, zInst, ({ kernel := {} }), by decide +kernel, by decide +kernel,
     by decide +kernel, by decide +kernel, by decide +kernel, by decide +kernel, by decide +kernel,
     by decide +kernel, by decide +kernel, by decide +kernel, by decide +kernel⟩,
   ⟨(zRun { state := .idle, chain := some zInst } {}), 1, 0, 0, zStepIt, zInst, ({ kernel := {} }), false, ([]),
     by decide +kernel, by decide +kernel, by decide +kernel, by decide +kernel, by decide +kernel,
     by decide +kernel, by decide +kernel, by decide +kernel, by decide +kernel, by decide +kernel,
     by decide +kernel⟩,
   ⟨(zRun { state := .idle, queue := [zInst] } {}), 0, zStepIt, zInst, ({}),
     by unfold State.Shape Core.Shape Clerk.Shape; decide +kernel, by decide +kernel, by decide +kernel,
     by decide +kernel, by decide +kernel, by decide +kernel, by decide +kernel, by decide +kernel⟩,
   ⟨({ zRun {} {} with cores := { state := .idle } :: { state := .running, queue := [zInst] } :: List.replicate 66 {} }),
     0, 1, zInst, by decide +kernel, by decide +kernel, by decide +kernel, by decide +kernel, by decide +kernel,
     by decide +kernel, by decide +kernel⟩⟩

/-- Witnesses for the hypotheses of InstancesEndAndAreWatched. -/
theorem witness_InstancesEndAndAreWatched :
    (∃ (s : State) (c : Nat) (x : Inst) (i : Item) (ke : KEntry), (c < 68) ∧ (x.box < 64) ∧ (c < s.cores.length) ∧
      ((s.core c).run = some x) ∧ ((s.core c).instanceOver = true) ∧ ((s.core c).enc = []) ∧ (x.poison = none) ∧
      (s.item? x.item = some i) ∧ (i.disp = none) ∧ (x.entry < i.entries.length) ∧ ((i.entry x.entry).st = .running) ∧
      ((i.entry x.entry).pos = x.pos) ∧ (s.kentry? x = some ke)) ∧
    (∃ (s : State) (c : Nat) (x : Inst), (c < s.cores.length) ∧ ((s.core c).run = some x) ∧
      ((s.core c).quiet = true) ∧ ((∃ q ∈ (s.core c).clerks, q.state = .running ∨ q.state = .waiting))) ∧
    (∃ (s : State) (c : Nat) (x : Inst) (i : Item), (c < 68) ∧ (c < s.cores.length) ∧ ((s.core c).run = some x) ∧
      (s.item? x.item = some i) ∧ (i.disp = none)) ∧
    (∃ (s : State) (c : Nat), ((s.core c).run = none)) :=
  ⟨⟨(zRun { state := .running, run := some zInst } {}), 0, zInst, zStepIt, ({ kernel := {} }), by decide +kernel,
     by decide +kernel, by decide +kernel, by decide +kernel, by decide +kernel, by decide +kernel,
     by decide +kernel, by decide +kernel, by decide +kernel, by decide +kernel, by decide +kernel,
     by decide +kernel, by decide +kernel⟩,
   ⟨(zRun (zCode 0) {}), 0, zInst, by decide +kernel, by decide +kernel, by decide +kernel, by decide +kernel⟩,
   ⟨(zRun (zCode 0) {}), 0, zInst, zStepIt, by decide +kernel, by decide +kernel, by decide +kernel,
     by decide +kernel, by decide +kernel⟩,
   ⟨z, 0, by decide +kernel⟩⟩

/-- Witnesses for the hypotheses of TileInstructionsWriteTheirRegister. -/
theorem witness_TileInstructionsWriteTheirRegister :
    (∃ (s : State) (c : Nat) (n : Nat) (td : Nat) (rs1 : Nat) (sel : Nat),
      (s.clerkOp c n = some (.tdset td rs1 sel))) ∧
    (∃ (s : State) (c : Nat) (n : Nat) (rs1 : Nat), (s.clerkOp c n = some (.tparm rs1))) ∧
    (∃ (s : State) (c : Nat) (n : Nat) (rd : Nat), (s.clerkOp c n = some (.tstat rd))) ∧
    (∃ (s : State) (c : Nat) (n : Nat) (m : Nat) (off : Nat) (td : Nat) (rs1 : Nat),
      (s.clerkOp c n = some (.tdld td rs1)) ∧ (tdAddr n ((s.clerk c n).getX rs1).toNat false = .ok (m, off)) ∧
      (poisonIn (s.clerk c m).dmemPoison off 16 = false)) ∧
    (∃ (s : State) (c : Nat) (n : Nat) (m : Nat) (off : Nat) (td : Nat) (rs1 : Nat), (s.Shape) ∧
      (s.clerkOp c n = some (.tdst rs1 td)) ∧ (m < 4) ∧ (tdAddr n ((s.clerk c n).getX rs1).toNat true = .ok (m, off))) ∧
    (∃ (s : State) (c : Nat) (n : Nat) (td : Nat) (rs1 : Nat) (cause : Nat), (s.clerkOp c n = some (.tdld td rs1)) ∧
      (tdAddr n ((s.clerk c n).getX rs1).toNat false = .error cause)) ∧
    (∃ (s : State) (c : Nat) (n : Nat) (mask : Nat), (s.clerkOp c n = some (.twait mask)) ∧ ((s.core c).unitsIdle) ∧
      ((s.core c).pendingFor n mask = true)) ∧
    (∃ (s : State) (c : Nat) (n : Nat) (mask : Nat), (s.clerkOp c n = some (.twait mask)) ∧ ((s.core c).unitsIdle) ∧
      ((s.core c).pendingFor n mask = false)) :=
  ⟨⟨(zRun (zCode (zW 2 0 31 2 7 0x0B)) {}), 0, 0, 7, 31, 2, by decide +kernel⟩,
   ⟨(zRun (zCode (zW 0 0 31 1 0 0x2B)) {}), 0, 0, 31, by decide +kernel⟩,
   ⟨(zRun (zCode (zW 0 0 0 2 31 0x2B)) {}), 0, 0, 31, by decide +kernel⟩,
   ⟨(zRun (zCode (zW 0 0 0 0 7 0x0B)) {}), 0, 0, 0, 0, 7, 0, by decide +kernel, by rfl, by decide +kernel⟩,
   ⟨(zRun (zCode (zW 0 7 0 1 0 0x0B)) {}), 0, 0, 0, 0, 7, 0,
     by unfold State.Shape Core.Shape Clerk.Shape; decide +kernel, by decide +kernel, by decide +kernel, by rfl⟩,
   ⟨(zRun { zCode (zW 0 0 1 0 7 0x0B) with clerks := [{ state := .running, pc := 0x20000000, x := 8 :: List.replicate 30 0 }, {}, {}, {}] } {}),
     0, 0, 7, 1, 4, by decide +kernel, by rfl⟩,
   ⟨(zRun { zCode (zW 1 0 0 0 0 0x2B) with loading := some 0 } {}), 0, 0, 1, by decide +kernel,
     by unfold Core.unitsIdle; decide +kernel, by decide +kernel⟩,
   ⟨(zRun (zCode (zW 127 0 0 0 0 0x2B)) {}), 0, 0, 127, by decide +kernel,
     by unfold Core.unitsIdle; decide +kernel, by decide +kernel⟩⟩

/-- Witnesses for the hypotheses of ClerksRunEndAndTrap. -/
theorem witness_ClerksRunEndAndTrap :
    (∃ (s : State) (c : Nat) (n : Nat) (len : Nat), (s.clerkOp c n = some (.ecall len))) ∧
    (∃ (s : State) (c : Nat) (n : Nat), ((s.fetchFor c n).isSome = true)) ∧
    (∃ (s : State) (c : Nat) (n : Nat) (w : Nat) (len : Nat) (x : Exec), (s.Shape) ∧
      (s.fetchFor c n = some (.op (.base w len))) ∧ ((s.execOf c).rv n w len = .ok x) ∧ (x.core.clerks.length = 4)) ∧
    (∃ (s : State) (c : Nat) (n : Nat), (s.fetchFor c n = some (.op .illegal))) :=
  ⟨⟨(zRun (zCode 0x73) {}), 0, 0, 4, by decide +kernel⟩,
   ⟨(zRun (zCode 0) {}), 0, 0, by decide +kernel⟩,
   ⟨(zRun (zCode 0x00100093) {}), 0, 0, 0x00100093, 4,
     ((match ((zRun (zCode 0x00100093) {}).execOf 0).rv 0 0x00100093 4 with | .ok x => x | _ => (zRun (zCode 0x00100093) {}).execOf 0)),
     by unfold State.Shape Core.Shape Clerk.Shape; decide +kernel, by decide +kernel, by rfl, by decide +kernel⟩,
   ⟨(zRun (zCode 0x0010700B) {}), 0, 0, by decide +kernel⟩⟩

/-- Witnesses for the hypotheses of UnitOperationsIssue. -/
theorem witness_UnitOperationsIssue :
    (∃ (s : State) (c : Nat) (n : Nat) (td : Nat) (w : BitVec 128) (i : Inst), (s.clerkOp c n = some (.mxwl td)) ∧
      ((s.core c).unitsIdle) ∧ ((s.core c).run = some i) ∧ (w = (s.clerk c n).td.getD td 0) ∧
      (firstFail [checkSpaceAny (s.execOf c) (Tile.ofBits w), checkTensor (s.execOf c) (Tile.ofBits w),
      checkCodes (Tile.ofBits w),
      if (Tile.ofBits w).fmt = (s.execOf c).ker.wgtFmt then none else some (Fail.loadCheck 0x0401),
      checkAlign (Tile.ofBits w), s.rangeOf i (s.execOf c) (Tile.ofBits w)] = none) ∧
      ((s.core c).shadowReady = true ∨ (s.core c).loading.isSome = true)) ∧
    (∃ (s : State) (c : Nat) (n : Nat) (td : Nat) (w : BitVec 128) (i : Inst), (s.clerkOp c n = some (.mxwl td)) ∧
      ((s.core c).unitsIdle) ∧ ((s.core c).run = some i) ∧ (w = (s.clerk c n).td.getD td 0) ∧
      (firstFail [checkSpaceAny (s.execOf c) (Tile.ofBits w), checkTensor (s.execOf c) (Tile.ofBits w),
      checkCodes (Tile.ofBits w),
      if (Tile.ofBits w).fmt = (s.execOf c).ker.wgtFmt then none else some (Fail.loadCheck 0x0401),
      checkAlign (Tile.ofBits w), s.rangeOf i (s.execOf c) (Tile.ofBits w)] = none) ∧
      ((s.core c).shadowReady = false) ∧ ((s.core c).loading = none) ∧ ((Tile.ofBits w).space = 0)) ∧
    (∃ (s : State) (c : Nat) (n : Nat) (td : Nat) (w : BitVec 128) (i : Inst) (f : _),
      (s.clerkOp c n = some (.mxwl td)) ∧ ((s.core c).unitsIdle) ∧ ((s.core c).run = some i) ∧
      (w = (s.clerk c n).td.getD td 0) ∧ (firstFail [checkSpaceAny (s.execOf c) (Tile.ofBits w),
      checkTensor (s.execOf c) (Tile.ofBits w), checkCodes (Tile.ofBits w),
      if (Tile.ofBits w).fmt = (s.execOf c).ker.wgtFmt then none else some (Fail.loadCheck 0x0401),
      checkAlign (Tile.ofBits w), s.rangeOf i (s.execOf c) (Tile.ofBits w)] = some f)) ∧
    (∃ (s : State) (c : Nat) (n : Nat) (td : Nat) (ph : Nat) (ai : Bool) (ax : Bool) (sw : Bool) (i : Inst),
      (s.clerkOp c n = some (.mxmul td ph ai ax sw)) ∧ ((s.core c).unitsIdle) ∧ ((s.core c).run = some i) ∧
      (ph < (s.core c).phState.length) ∧ (mulChecks (s.execOf c) (Tile.ofBits ((s.clerk c n).td.getD td 0)) = none) ∧
      (sw = true ∨ (s.core c).ramp ≠ .full)) ∧
    (∃ (s : State) (c : Nat) (n : Nat) (td : Nat) (ph : Nat) (ai : Bool) (ax : Bool) (sw : Bool) (i : Inst),
      (s.clerkOp c n = some (.mxmul td ph ai ax sw)) ∧ ((s.core c).unitsIdle) ∧ ((s.core c).run = some i) ∧
      (ph < (s.core c).phState.length) ∧ (mulChecks (s.execOf c) (Tile.ofBits ((s.clerk c n).td.getD td 0)) = none) ∧
      (sw = false) ∧ ((s.core c).ramp = .full) ∧ ((s.core c).drainFirst ph = false)) ∧
    (∃ (s : State) (c : Nat) (n : Nat) (d : Nat) (r : Nat) (ph : Nat) (ch : Nat) (i : Inst) (x : Exec) (ws : List Nat) (dest : BitVec 128),
      (s.clerkOp c n = some (.drn d r ph ch)) ∧ ((s.core c).unitsIdle) ∧ ((s.core c).run = some i) ∧
      (x = s.execOf c) ∧ (ws = x.ker.chains.getD ch []) ∧ (dest = (s.clerk c n).td.getD d 0) ∧
      (drnChecks x (Tile.ofBits dest) (Tile.ofBits ((s.clerk c n).td.getD r 0)) ws (s.clerk c n).parm = none) ∧
      (s.channelFail i x.ker ws (bits (s.clerk c n).parm.toNat 31 0) (Tile.ofBits dest).cols = none) ∧
      ((s.core c).drain.isSome = true)) ∧
    (∃ (s : State) (c : Nat) (n : Nat) (d : Nat) (r : Nat) (ph : Nat) (ch : Nat) (i : Inst) (x : Exec) (ws : List Nat) (dest : BitVec 128),
      (s.clerkOp c n = some (.drn d r ph ch)) ∧ ((s.core c).unitsIdle) ∧ ((s.core c).run = some i) ∧
      (x = s.execOf c) ∧ (ws = x.ker.chains.getD ch []) ∧ (dest = (s.clerk c n).td.getD d 0) ∧
      (drnChecks x (Tile.ofBits dest) (Tile.ofBits ((s.clerk c n).td.getD r 0)) ws (s.clerk c n).parm = none) ∧
      (s.channelFail i x.ker ws (bits (s.clerk c n).parm.toNat 31 0) (Tile.ofBits dest).cols = none) ∧
      ((s.core c).drain = none) ∧ (chainPerChannel ws = false) ∧ (chainHas ws 2 = false) ∧
      (ph < (s.core c).phState.length)) ∧
    (∃ (s : State) (c : Nat) (n : Nat) (d : Nat) (a : Nat) (q : Nat) (m : Nat) (k : Nat) (i : Inst) (l : List CourOp),
      (s.clerkOp c n = some (.crr d a q)) ∧ ((s.core c).mxeQ = []) ∧ ((s.core c).drainQ = []) ∧ ((∀ j,
      j < 4 → j ≠ q → (s.core c).courQ.getD j [] = [])) ∧ (q < (s.core c).courQ.length) ∧
      ((s.core c).courQ.getD q [] = .walk m k :: l) ∧ (l.length < 16) ∧ ((s.core c).run = some i) ∧
      (s.crrChecks i (s.execOf c) (Tile.ofBits ((s.clerk c n).td.getD d 0)) (Tile.ofBits ((s.clerk c n).td.getD a 0)) = none)) :=
  ⟨⟨(zRun { zCode (zW 0 0 1 3 0 0x0B) with shadowReady := true } { cbufNeed := 8 }), 0, 0, 1, 0, zInst,
     by decide +kernel, by unfold Core.unitsIdle; decide +kernel, by decide +kernel, by decide +kernel,
     by decide +kernel, by decide +kernel⟩,
   ⟨(zRun (zCode (zW 0 0 1 3 0 0x0B)) { cbufNeed := 8 }), 0, 0, 1, 0, zInst, by decide +kernel,
     by unfold Core.unitsIdle; decide +kernel, by decide +kernel, by decide +kernel, by decide +kernel,
     by decide +kernel, by decide +kernel, by decide +kernel⟩,
   ⟨(zRun (zCode (zW 0 0 1 3 0 0x0B)) { wgtFmt := 1 }), 0, 0, 1, 0, zInst, (Fail.loadCheck 0x0401),
     by decide +kernel, by unfold Core.unitsIdle; decide +kernel, by decide +kernel, by decide +kernel,
     by decide +kernel⟩,
   ⟨(zRun (zCode (zW 122 0 1 4 0 0x0B)) { cbufNeed := 8 }), 0, 0, 1, 7, true, false, true, zInst,
     by decide +kernel, by unfold Core.unitsIdle; decide +kernel, by decide +kernel, by decide +kernel,
     by decide +kernel, by decide +kernel⟩,
   ⟨(zRun { zCode (zW 120 0 1 4 0 0x0B) with ramp := .full } { cbufNeed := 8 }), 0, 0, 1, 7, true, false, false,
     zInst, by decide +kernel, by unfold Core.unitsIdle; decide +kernel, by decide +kernel, by decide +kernel,
     by decide +kernel, by decide +kernel, by decide +kernel, by decide +kernel⟩,
   ⟨(zRun { zCode (zW 112 0 2 5 1 0x0B) with drain := some ⟨0, 0, 0, 0, 0, 0, 0⟩, clerks := { state := .running, pc := 0x20000000, td := [0, 7 * 2 ^ 108, 0, 0, 0, 0, 0, 0] } :: List.replicate 3 {} } { cbufNeed := 8 }),
     0, 0, 1, 2, 7, 0, zInst,
     ((zRun { zCode (zW 112 0 2 5 1 0x0B) with drain := some ⟨0, 0, 0, 0, 0, 0, 0⟩, clerks := { state := .running, pc := 0x20000000, td := [0, 7 * 2 ^ 108, 0, 0, 0, 0, 0, 0] } :: List.replicate 3 {} } { cbufNeed := 8 }).execOf 0),
     ([]), (7 * 2 ^ 108), by decide +kernel, by unfold Core.unitsIdle; decide +kernel, by decide +kernel,
     by decide +kernel, by decide +kernel, by decide +kernel, by decide +kernel, by decide +kernel,
     by decide +kernel⟩,
   ⟨(zRun { zCode (zW 112 0 2 5 1 0x0B) with clerks := { state := .running, pc := 0x20000000, td := [0, 7 * 2 ^ 108, 0, 0, 0, 0, 0, 0] } :: List.replicate 3 {} } { cbufNeed := 8 }),
     0, 0, 1, 2, 7, 0, zInst,
     ((zRun { zCode (zW 112 0 2 5 1 0x0B) with clerks := { state := .running, pc := 0x20000000, td := [0, 7 * 2 ^ 108, 0, 0, 0, 0, 0, 0] } :: List.replicate 3 {} } { cbufNeed := 8 }).execOf 0),
     ([]), (7 * 2 ^ 108), by decide +kernel, by unfold Core.unitsIdle; decide +kernel, by decide +kernel,
     by decide +kernel, by decide +kernel, by decide +kernel, by decide +kernel, by decide +kernel,
     by decide +kernel, by decide +kernel, by decide +kernel, by decide +kernel⟩,
   ⟨(zRun { zCode (zW 3 0 1 7 0 0x0B) with courQ := [[], [], [], [.walk 1 5]] } { cbufNeed := 8 }), 0, 0, 0, 1, 3,
     1, 5, zInst, ([]), by decide +kernel, by decide +kernel, by decide +kernel, by decide +kernel,
     by decide +kernel, by decide +kernel, by decide +kernel, by decide +kernel, by decide +kernel⟩⟩

/-- Witnesses for the hypotheses of BanksSwapAndDrainsEnd. -/
theorem witness_BanksSwapAndDrainsEnd :
    (∃ (s : State) (c : Nat), (c < s.cores.length) ∧ ((s.core c).loading.isSome = true)) ∧
    (∃ (s : State) (c : Nat) (cl : Nat) (ph : Nat) (td : BitVec 128) (ai : Bool) (ax : Bool) (i : Inst),
      (c < s.cores.length) ∧ ((s.core c).mxeQ = [.mul cl td ph ai ax true]) ∧ ((s.core c).drainQ = []) ∧ ((∀ q,
      q < 4 → (s.core c).courQ.getD q [] = [])) ∧ ((s.core c).shadowReady = true) ∧ ((s.core c).ramp = .full) ∧
      ((s.core c).drainFirst ph = false) ∧ ((s.core c).run = some i) ∧ (ph < (s.core c).phState.length)) ∧
    (∃ (s : State) (c : Nat), ((s.core c).shadowReady = false)) ∧
    (∃ (s : State) (c : Nat) (d : DrnOp), (c < s.cores.length) ∧ ((s.core c).drain = some d) ∧
      ((s.core c).unitsIdle)) ∧
    (∃ (s : State) (c : Nat) (n : Nat) (td : _), ((s.clerk c n).state = .waiting) ∧ ((s.core c).unitsIdle) ∧
      (s.clerkOp c n = some (.mxwl td))) ∧
    (∃ (s : State) (c : Nat) (n : Nat) (td : _) (ph : _) (ai : _) (ax : _) (sw : _),
      ((s.clerk c n).state = .waiting) ∧ ((s.core c).unitsIdle) ∧ (s.clerkOp c n = some (.mxmul td ph ai ax sw))) ∧
    (∃ (s : State) (c : Nat) (n : Nat) (d : _) (r : _) (ph : _) (ch : _), ((s.clerk c n).state = .waiting) ∧
      ((s.core c).unitsIdle) ∧ (s.clerkOp c n = some (.drn d r ph ch))) ∧
    (∃ (s : State) (c : Nat) (n : Nat) (d : _) (a : _) (q : _), ((s.clerk c n).state = .waiting) ∧
      ((s.core c).unitsIdle) ∧ (s.clerkOp c n = some (.crr d a q))) ∧
    (∃ (s : State) (c : Nat) (n : Nat), ((s.clerk c n).state ≠ .waiting)) :=
  ⟨⟨(zCore { loading := some 0 }), 0, by decide +kernel, by decide +kernel⟩,
   ⟨(zRun { state := .running, run := some zInst, mxeQ := [.mul 0 0 7 true false true], shadowReady := true, ramp := .full } {}),
     0, 0, 7, 0, true, false, zInst, by decide +kernel, by decide +kernel, by decide +kernel, by decide +kernel,
     by decide +kernel, by decide +kernel, by decide +kernel, by decide +kernel, by decide +kernel⟩,
   ⟨z, 0, by decide +kernel⟩,
   ⟨(zCore { drain := some ⟨0, 0, 0, 0, 0, 0, 0⟩ }), 0, (⟨0, 0, 0, 0, 0, 0, 0⟩), by decide +kernel,
     by decide +kernel, by unfold Core.unitsIdle; decide +kernel⟩,
   ⟨(zWaits (zW 0 0 1 3 0 0x0B)), 0, 0, 1, by decide +kernel, by unfold Core.unitsIdle; decide +kernel,
     by decide +kernel⟩,
   ⟨(zWaits (zW 122 0 1 4 0 0x0B)), 0, 0, 1, 7, true, false, true, by decide +kernel,
     by unfold Core.unitsIdle; decide +kernel, by decide +kernel⟩,
   ⟨(zWaits (zW 112 0 2 5 1 0x0B)), 0, 0, 1, 2, 7, 0, by decide +kernel, by unfold Core.unitsIdle; decide +kernel,
     by decide +kernel⟩,
   ⟨(zWaits (zW 3 0 1 7 0 0x0B)), 0, 0, 0, 1, 3, by decide +kernel, by unfold Core.unitsIdle; decide +kernel,
     by decide +kernel⟩,
   ⟨z, 0, 0, by decide +kernel⟩⟩

/-- Witnesses for the hypotheses of WalksGatherAppendAndMeasure. -/
theorem witness_WalksGatherAppendAndMeasure :
    (∃ (s : State) (u : State) (c : Nat) (n : Nat) (off : Nat) (len : Nat) (req : Nat) (r : Nat) (w : WalkReq) (i : Inst),
      (s.Shape) ∧ (s.walkStore c n = some (off, len)) ∧ ((s.core c).run = some i) ∧ ((s.core c).walkFull = false) ∧
      (off % 32 = 0) ∧ (off + 32 ≤ 0x8000) ∧ (req = ((s.execOf c).dread n off 32).2) ∧
      (r = (((s.execOf c).dread n off 32).1.dread n (bits req 191 176) 16).2) ∧
      (u = s.putExec c (((s.execOf c).dread n off 32).1.dread n (bits req 191 176) 16).1) ∧
      (w = WalkReq.ofNat (req + r * 2 ^ 256)) ∧ (firstFail [u.walkChecks (u.walkCtx i) w r,
      walkTile (u.execOf c) w] = none)) ∧
    (∃ (s : State) (c : Nat) (n : Nat) (off : Nat) (len : Nat) (i : Inst), (s.walkStore c n = some (off, len)) ∧
      ((s.core c).run = some i) ∧ ((s.core c).walkFull = false) ∧ ((off % 32 ≠ 0 ∨ 0x8000 < off + 32))) ∧
    (∃ (s : State) (c : Nat) (n : Nat) (off : Nat) (len : Nat) (i : Inst), (s.walkStore c n = some (off, len)) ∧
      ((s.core c).run = some i) ∧ ((s.core c).walkFull = true)) ∧
    (∃ (s : State) (c : Nat) (q : Nat) (cl : Nat) (i : Inst) (w : WalkReq) (x : WalkCtx) (d : LayerDir), (s.Shape) ∧
      (cl < 4) ∧ ((s.core c).onlyIn q) ∧ (s.headWalk c q 1 = some (i, cl, w)) ∧ (s.walkCtx i = some x) ∧
      (s.dirOf x w.lr.layer = some d)) ∧
    (∃ (s : State) (v : Bool) (c : Nat) (q : Nat) (cl : Nat) (i : Inst) (w : WalkReq) (x : WalkCtx) (d : LayerDir),
      ((s.core c).onlyIn q) ∧ (s.headWalk c q (if v then 3 else 2) = some (i, cl, w)) ∧ (s.walkCtx i = some x) ∧
      (s.dirOf x w.lr.layer = some d) ∧ (missing x w (some d) = none)) ∧
    (∃ (s : State) (v : Bool) (c : Nat) (q : Nat) (cl : Nat) (i : Inst) (w : WalkReq) (x : WalkCtx) (d : LayerDir) (f : _),
      ((s.core c).onlyIn q) ∧ (s.headWalk c q (if v then 3 else 2) = some (i, cl, w)) ∧ (s.walkCtx i = some x) ∧
      (s.dirOf x w.lr.layer = some d) ∧ (missing x w (some d) = some f)) ∧
    (∃ (s : State) (u : State) (v : Bool) (c : Nat) (q : Nat) (cl : Nat) (i : Inst) (w : WalkReq) (x : WalkCtx) (d : LayerDir),
      ((s.core c).onlyIn q) ∧ (s.headWalk c q (if v then 5 else 4) = some (i, cl, w)) ∧ (s.walkCtx i = some x) ∧
      (s.prepare c i x w (x.cur - w.dLo) = some u) ∧ (u.dirOf x w.lr.layer = some d) ∧ ((u.core c).onlyIn q) ∧
      ((u.core c).run = some i)) ∧
    (∃ (s : State) (c : Nat) (q : Nat) (cl : Nat) (i : Inst) (w : WalkReq) (x : WalkCtx) (vas : List Nat),
      ((s.core c).onlyIn q) ∧ (s.headWalk c q 6 = some (i, cl, w)) ∧ (s.walkCtx i = some x) ∧
      (missing x w (s.dirOf x w.lr.layer) = none) ∧
      (vas = (List.range w.qPn).flatMap (fun r => w.selection.flatMap (biasVas w r))) ∧ ((∀ va ∈ vas,
      s.mapped i.box va 4 false = true ∧ s.absentIn i.box va 4 = none ∧ s.poisonedBox i.box va 4 = false))) ∧
    (∃ (s : State) (u : State) (b : Nat) (c : Nat) (q : Nat) (n : Nat) (l : List CourOp) (i : Inst) (cl : Nat) (w : WalkReq) (x : WalkCtx) (d : LayerDir),
      (s.poolWait.find? (fun p => p.2.2 == b) = some (c, q, b)) ∧ ((s.core c).courQ.getD q [] = .walk cl n :: l) ∧
      (w = WalkReq.ofNat n) ∧ ((w.op = 4 ∨ w.op = 5)) ∧ ((s.core c).onlyIn q) ∧ ((s.core c).run = some i) ∧
      (s.walkCtx i = some x) ∧ ((∀ p ∈ s.poolWait.erase (c, q, b), ¬(p.1 = c ∧ p.2.1 = q))) ∧
      (({ s with poolWait := s.poolWait.erase (c, q, b) } : State).prepare c i x w (x.cur - w.dLo) = some u) ∧
      (u.dirOf x w.lr.layer = some d) ∧ ((u.core c).onlyIn q) ∧ ((u.core c).run = some i) ∧
      (u.poolWait = s.poolWait.erase (c, q, b))) ∧
    (∃ (s : State) (b : Nat), ((∀ p ∈ s.poolWait, p.2.2 ≠ b))) :=
  ⟨⟨(zIssue 0x7FE0 []), ((zIssue 0x7FE0 []).putExec 0 ((zIssue 0x7FE0 []).execOf 0)), 0, 0, 0x7FE0, 4,
     (1 + 0x40 * 2 ^ 176), (4 * 2 ^ 39), (WalkReq.ofNat (zReq (1 + 0x40 * 2 ^ 176) 0)), zInst,
     by unfold State.Shape Core.Shape Clerk.Shape; decide +kernel, by decide +kernel, by decide +kernel,
     by decide +kernel, by decide +kernel, by decide +kernel, by decide +kernel, by decide +kernel,
     by decide +kernel, by decide +kernel, by decide +kernel⟩,
   ⟨(zIssue 0x7FF0 []), 0, 0, 0x7FF0, 4, zInst, by decide +kernel, by decide +kernel, by decide +kernel,
     by decide +kernel⟩,
   ⟨(zIssue 0x7FE0 (List.replicate 16 (.walk 1 5))), 0, 0, 0x7FE0, 4, zInst, by decide +kernel, by decide +kernel,
     by decide +kernel⟩,
   ⟨(zWalk 1 0 8), 0, 0, 0, zInst, (WalkReq.ofNat (zReq 1 0)), zCtx, (zDir 8),
     by unfold State.Shape Core.Shape Clerk.Shape; decide +kernel, by decide +kernel,
     by unfold Core.onlyIn; decide +kernel, by decide +kernel, by decide +kernel, by decide +kernel⟩,
   ⟨(zWalk (2 + 2 ^ 80) 0 8), false, 0, 0, 0, zInst, (WalkReq.ofNat (zReq (2 + 2 ^ 80) 0)), zCtx, (zDir 8),
     by unfold Core.onlyIn; decide +kernel, by decide +kernel, by decide +kernel, by decide +kernel,
     by decide +kernel⟩,
   ⟨(zWalk (2 + 2 ^ 80) 0 7), false, 0, 0, 0, zInst, (WalkReq.ofNat (zReq (2 + 2 ^ 80) 0)), zCtx, (zDir 7),
     (walkOob (WalkReq.ofNat (zReq (2 + 2 ^ 80) 0)) 0 0), by unfold Core.onlyIn; decide +kernel, by decide +kernel,
     by decide +kernel, by decide +kernel, by decide +kernel⟩,
   ⟨(zWalk (5 + 2 ^ 80) 0 8),
     (((zWalk (5 + 2 ^ 80) 0 8).prepare 0 zInst zCtx (WalkReq.ofNat (zReq (5 + 2 ^ 80) 0)) 7).getD z), true, 0, 0, 0,
     zInst, (WalkReq.ofNat (zReq (5 + 2 ^ 80) 0)), zCtx, (zDir 8), by unfold Core.onlyIn; decide +kernel,
     by decide +kernel, by decide +kernel, by decide +kernel, by decide +kernel,
     by unfold Core.onlyIn; decide +kernel, by decide +kernel⟩,
   ⟨(zWalk (6 + 2 ^ 80 + 2 ^ 112) 0x1000 8), 0, 0, 0, zInst, (WalkReq.ofNat (zReq (6 + 2 ^ 80 + 2 ^ 112) 0x1000)),
     zCtx, ([0x1000, 0x2000]), by unfold Core.onlyIn; decide +kernel, by decide +kernel, by decide +kernel,
     by decide +kernel, by decide +kernel, by decide +kernel⟩,
   ⟨({ zWalk (4 + 2 ^ 80) 0 8 with poolWait := [(0, 0, 0)] }),
     (((zWalk (4 + 2 ^ 80) 0 8).prepare 0 zInst zCtx (WalkReq.ofNat (zReq (4 + 2 ^ 80) 0)) 7).getD z), 0, 0, 0,
     (zReq (4 + 2 ^ 80) 0), ([]), zInst, 0, (WalkReq.ofNat (zReq (4 + 2 ^ 80) 0)), zCtx, (zDir 8), by decide +kernel,
     by decide +kernel, by decide +kernel, by decide +kernel, by unfold Core.onlyIn; decide +kernel,
     by decide +kernel, by decide +kernel, by decide +kernel, by decide +kernel, by decide +kernel,
     by unfold Core.onlyIn; decide +kernel, by decide +kernel, by decide +kernel⟩,
   ⟨z, 0, by decide +kernel⟩⟩

/-- Witnesses for the hypotheses of CodebooksAreFilledReplacedAndReleased. -/
theorem witness_CodebooksAreFilledReplacedAndReleased :
    (∃ (s : State) (sl : Nat) (b : Nat), (s.Shape) ∧ (sl < 64) ∧ (s.cb.waiting = none) ∧ ((s.slot sl).st ≠ .empty) ∧
      ((s.slot sl).owner ≠ b)) ∧
    (∃ (s : State) (sl : Nat) (b : Nat) (a : Nat) (va : Nat) (n : Nat), (s.Shape) ∧ (sl < 64) ∧
      (s.cb.waiting = none) ∧ ((s.slot sl).st ≠ .empty) ∧ ((s.slot sl).owner = b) ∧ (a ≠ 3) ∧ (0 < n) ∧
      (va % blockSize = 0) ∧ (s.mapped b va (n * blockSize) false = true) ∧ (s.inCoded b va (n * blockSize) = false) ∧
      (s.inProtected b va (n * blockSize) = false) ∧ (s.poisonedBox b va (n * blockSize) = false)) ∧
    (∃ (s : State) (sl : Nat) (b : Nat) (ls : _), (s.Shape) ∧ (sl < 64) ∧ (s.cb.waiting = none) ∧
      ((s.slot sl).st ≠ .empty) ∧ ((s.slot sl).owner = b) ∧
      (buildLengths ((s.slot sl).hist.take (bookSymbols (bookOf (s.slot sl).histAlphabet))) = some ls)) ∧
    (∃ (s : State) (sl : Nat) (b : Nat), (s.Shape) ∧ (sl < 64) ∧ (s.cb.waiting = none) ∧ ((s.slot sl).st ≠ .empty) ∧
      ((s.slot sl).owner = b) ∧
      (buildLengths ((s.slot sl).hist.take (bookSymbols (bookOf (s.slot sl).histAlphabet))) = none)) ∧
    (∃ (s : State) (sl : Nat) (b : Nat) (va : Nat) (img : List Byte), (s.Shape) ∧ (sl < 64) ∧
      (s.cb.waiting = none) ∧ (s.readImage b va = .ok img) ∧ ((s.slot sl).st ≠ .empty) ∧ ((s.slot sl).owner = b) ∧
      (imageValid img = true)) ∧
    (∃ (s : State) (sl : Nat) (b : Nat) (va : Nat) (img : List Byte), (s.Shape) ∧ (sl < 64) ∧
      (s.cb.waiting = none) ∧ (s.readImage b va = .ok img) ∧ ((s.slot sl).st = .empty ∨ (s.slot sl).owner = b) ∧
      (imageValid img = false)) ∧
    (∃ (s : State) (sl : Nat) (b : Nat), (s.Shape) ∧ (sl < 64) ∧ (s.cb.waiting = none) ∧ ((s.slot sl).st ≠ .empty) ∧
      ((s.slot sl).owner = b) ∧ ((s.slot sl).inflight = 0)) ∧
    (∃ (s : State) (sl : Nat) (b : Nat), (s.Shape) ∧ (sl < 64) ∧ (s.cb.waiting = none) ∧ ((s.slot sl).st ≠ .empty) ∧
      ((s.slot sl).owner = b) ∧ ((s.slot sl).inflight ≠ 0)) ∧
    (∃ (s : State) (sl : Nat) (b : Nat) (va : Nat) (img : List Byte), (s.Shape) ∧ (sl < 64) ∧
      (s.cb.waiting = none) ∧ (s.readImage b va = .ok img) ∧ ((s.slot sl).st = .empty) ∧ ((s.slot sl).fresh = true) ∧
      (imageValid img = true) ∧ (s.useCodebooks b < s.cbQuota b)) ∧
    (∃ (s : State) (sl : Nat) (b : Nat) (va : Nat) (img : List Byte), (s.Shape) ∧ (sl < 64) ∧
      (s.cb.waiting = none) ∧ (s.readImage b va = .ok img) ∧ ((s.slot sl).st = .empty) ∧ ((s.slot sl).fresh = false)) ∧
    (∃ (s : State) (sl : Nat) (a : Nat) (tag : Nat) (ls : List Nat), (s.Shape) ∧ (sl < 64) ∧
      ((s.slot sl).st = .replacing) ∧ (s.host.cbReply = none) ∧ ((s.slot sl).pend = some (.install a ls tag)) ∧
      ((s.slot sl).inflight = 0)) ∧
    (∃ (s : State) (sl : Nat) (a : Nat) (tag : Nat) (ls : List Nat), (s.Shape) ∧ (sl < 64) ∧
      ((s.slot sl).st = .replacing) ∧ (s.host.cbReply = none) ∧ ((s.slot sl).pend = some (.install a ls tag)) ∧
      ((s.slot sl).inflight ≠ 0)) :=
  ⟨⟨(zCb { st := .ready, owner := 1 } []), 0, 0, by unfold State.Shape Core.Shape Clerk.Shape; decide +kernel,
     by decide +kernel, by decide +kernel, by decide +kernel, by decide +kernel⟩,
   ⟨(zCb { st := .ready, owner := 0 } []), 0, 0, 2, 4096, 1,
     by unfold State.Shape Core.Shape Clerk.Shape; decide +kernel, by decide +kernel, by decide +kernel,
     by decide +kernel, by decide +kernel, by decide +kernel, by decide +kernel, by decide +kernel,
     by decide +kernel, by decide +kernel, by decide +kernel, by decide +kernel⟩,
   ⟨(zCb { st := .ready, owner := 0, hist := 1 :: 1 :: List.replicate 254 0 } []), 0, 0, ([1,
     1] ++ List.replicate 14 0), by unfold State.Shape Core.Shape Clerk.Shape; decide +kernel, by decide +kernel,
     by decide +kernel, by decide +kernel, by decide +kernel, by decide +kernel⟩,
   ⟨(zCb { st := .ready, owner := 0 } []), 0, 0, by unfold State.Shape Core.Shape Clerk.Shape; decide +kernel,
     by decide +kernel, by decide +kernel, by decide +kernel, by decide +kernel, by decide +kernel⟩,
   ⟨(zCb { st := .ready, owner := 0 } (runCells 0 0 zImg)), 0, 0, 0, zImg,
     by unfold State.Shape Core.Shape Clerk.Shape; decide +kernel, by decide +kernel, by decide +kernel,
     by rw [imgOk (by decide +kernel) (by decide +kernel), zImgRead], by decide +kernel, by decide +kernel,
     zImgValid⟩,
   ⟨(zCb {} []), 0, 0, 0, ((zCb {} []).readBox 0 0 144),
     by unfold State.Shape Core.Shape Clerk.Shape; decide +kernel, by decide +kernel, by decide +kernel,
     imgOk (by decide +kernel) (by decide +kernel), by decide +kernel, zBadImg⟩,
   ⟨(zCb { st := .ready, owner := 0 } []), 0, 0, by unfold State.Shape Core.Shape Clerk.Shape; decide +kernel,
     by decide +kernel, by decide +kernel, by decide +kernel, by decide +kernel, by decide +kernel⟩,
   ⟨(zCb { st := .ready, owner := 0, inflight := 1 } []), 0, 0,
     by unfold State.Shape Core.Shape Clerk.Shape; decide +kernel, by decide +kernel, by decide +kernel,
     by decide +kernel, by decide +kernel, by decide +kernel⟩,
   ⟨(zCb {} (runCells 0 0 zImg)), 0, 0, 0, zImg, by unfold State.Shape Core.Shape Clerk.Shape; decide +kernel,
     by decide +kernel, by decide +kernel, by rw [imgOk (by decide +kernel) (by decide +kernel), zImgRead],
     by decide +kernel, by decide +kernel, zImgValid, by decide +kernel⟩,
   ⟨(zCb { fresh := false } (runCells 0 0 zImg)), 0, 0, 0, zImg,
     by unfold State.Shape Core.Shape Clerk.Shape; decide +kernel, by decide +kernel, by decide +kernel,
     by rw [imgOk (by decide +kernel) (by decide +kernel), zImgRead], by decide +kernel, by decide +kernel⟩,
   ⟨(zCb { st := .replacing, pend := some (.install 1 [1] 2) } []), 0, 1, 2, ([1]),
     by unfold State.Shape Core.Shape Clerk.Shape; decide +kernel, by decide +kernel, by decide +kernel,
     by decide +kernel, by decide +kernel, by decide +kernel⟩,
   ⟨(zCb { st := .replacing, inflight := 1, pend := some (.install 1 [1] 2) } []), 0, 1, 2, ([1]),
     by unfold State.Shape Core.Shape Clerk.Shape; decide +kernel, by decide +kernel, by decide +kernel,
     by decide +kernel, by decide +kernel, by decide +kernel⟩⟩

/-- Witnesses for the hypotheses of BlocksAreDecodedAndEncoded. -/
theorem witness_BlocksAreDecodedAndEncoded :
    (∃ (s : State) (c : Nat) (n : Nat) (va : Nat) (dest : Nat) (i : Inst) (d : TensorDesc) (r : Region) (bytes : _) (mode : _) (k : _),
      (c < 68) ∧ ((s.core c).run = some i) ∧ (s.tensorOf i n = some d) ∧ (s.region? i.box va blockSize = some r) ∧
      (d.coded = true) ∧ ((va - r.base) % blockSize = 0) ∧ (dest + blockSize ≤ cbufBytes - s.windowBytes c) ∧
      ((∀ b ∈ (s.core c).enc, ¬(b.box = i.box ∧ b.va = va))) ∧ (s.readBlock i.box r va false = .ok bytes mode k)) ∧
    (∃ (s : State) (c : Nat) (n : Nat) (va : Nat) (dest : Nat) (i : Inst) (d : TensorDesc) (r : Region) (k : _) (slot : _) (gen : _),
      (c < 68) ∧ ((s.core c).run = some i) ∧ (s.tensorOf i n = some d) ∧ (s.region? i.box va blockSize = some r) ∧
      (d.coded = true) ∧ ((va - r.base) % blockSize = 0) ∧ (dest + blockSize ≤ cbufBytes - s.windowBytes c) ∧
      ((∀ b ∈ (s.core c).enc, ¬(b.box = i.box ∧ b.va = va))) ∧ (s.readBlock i.box r va false = .bad k slot gen)) ∧
    (∃ (s : State) (c : Nat) (n : Nat) (va : Nat) (dest : Nat) (i : Inst) (d : TensorDesc) (r : Region) (slot : _),
      (c < 68) ∧ ((s.core c).run = some i) ∧ (s.tensorOf i n = some d) ∧ (s.region? i.box va blockSize = some r) ∧
      (d.coded = true) ∧ ((va - r.base) % blockSize = 0) ∧ (dest + blockSize ≤ cbufBytes - s.windowBytes c) ∧
      ((∀ b ∈ (s.core c).enc, ¬(b.box = i.box ∧ b.va = va))) ∧ (s.readBlock i.box r va false = .wait slot)) ∧
    (∃ (s : State) (c : Nat) (n : Nat) (va : Nat) (data : List Byte) (i : Inst) (d : TensorDesc),
      ((s.core c).run = some i) ∧ (s.tensorOf i n = some d) ∧ (d.coded = true) ∧ (d.writable = true) ∧
      ((s.region? i.box va data.length).isSome = true) ∧ (0 < data.length) ∧
      (va % blockSize + data.length ≤ blockSize) ∧ ((s.core c).enc.length < 32)) ∧
    (∃ (s : State) (c : Nat) (b : EncBlk) (l : List EncBlk) (r : Region), (c < s.cores.length) ∧
      ((s.core c).enc = b :: l) ∧ (b.complete = true) ∧ (s.region? b.box b.va blockSize = some r) ∧ (¬(r.thresh ≠ 0 ∧
      (s.slot r.slot).st = .replacing ∧ (s.slot r.slot).owner = b.box)) ∧ (s.absentIn b.box b.va blockSize = none) ∧
      (s.absentIn b.box (r.envVa b.va) 16 = none)) ∧
    (∃ (s : State) (c : Nat) (va : Nat) (b : EncBlk), ((s.core c).enc.find? (fun b => b.va == va) = some b) ∧
      (b.complete = false)) :=
  ⟨⟨(zCode0 { crc := 0, index := 0, alphabet := 0, mode := 3, format := 1, reserved := 0, crcOk := true : Envelope }.toBytes {}),
     0, 0, 0, 0, zInst, zTen, zReg,
     (blkBytes ((zCode0 { crc := 0, index := 0, alphabet := 0, mode := 3, format := 1, reserved := 0, crcOk := true : Envelope }.toBytes {}).readBlock 0 zReg 0 false)),
     3, 0, by decide +kernel, by decide +kernel, by decide +kernel, by decide +kernel, by decide +kernel,
     by decide +kernel, by decide +kernel, by decide +kernel, blkOk (by decide +kernel)⟩,
   ⟨(zCode0 [] {}), 0, 0, 0, 0, zInst, zTen, zReg, 1, 0, 0, by decide +kernel, by decide +kernel,
     by decide +kernel, by decide +kernel, by decide +kernel, by decide +kernel, by decide +kernel,
     by decide +kernel, by decide +kernel⟩,
   ⟨(zCode0 { crc := 0, index := 0, alphabet := 0, mode := 2, symbols := 1, codedBits := 1, format := 1, reserved := 0, crcOk := true : Envelope }.toBytes { st := .replacing }),
     0, 0, 0, 0, zInst, zTen, zReg, 0, by decide +kernel, by decide +kernel, by decide +kernel, by decide +kernel,
     by decide +kernel, by decide +kernel, by decide +kernel, by decide +kernel, by decide +kernel⟩,
   ⟨(zCode0 [] {}), 0, 0, 4094, ([1, 2]), zInst, zTen, by decide +kernel, by decide +kernel, by decide +kernel,
     by decide +kernel, by decide +kernel, by decide +kernel, by decide +kernel, by decide +kernel⟩,
   ⟨({ zCode0 [] {} with cores := { enc := [zBlk] } :: List.replicate 67 {} }), 0, zBlk, ([]), zReg,
     by decide +kernel, rfl, by simp [zBlk, EncBlk.complete, blockSize], by decide +kernel, by decide +kernel,
     by decide +kernel, by decide +kernel⟩,
   ⟨(zCore { enc := [{ box := 0, va := 0, tensor := 0 }] }), 0, 0, ({ box := 0, va := 0, tensor := 0 }),
     by decide +kernel, by decide +kernel⟩⟩

/-- Witnesses for the hypotheses of AtomicsChangeOneWord. -/
theorem witness_AtomicsChangeOneWord :
    (∃ (s : State) (da : Nat) (old : W64) (a : W64) (b : W64) (p : _), (s.home da ≠ .none) ∧ (da % 8 = 0) ∧
      (da + 8 ≤ flashBase) ∧ (old = BitVec.ofNat 64 (leNat ((List.range 8).map (fun i => s.byteAt (da + i))))) ∧
      (p ∈ [(Instr.cas da a b, if old = a then b else old), (Instr.fetchAdd da a, old + a), (Instr.swap da a, a)])) ∧
    (∃ (s : State) (da : Nat), ((s.home da = .none ∨ da % 8 ≠ 0))) ∧
    (∃ (s : State) (b : Nat) (va : Nat) (e : W64) (data : List Byte), (s.pte? b va = some e) ∧ (pteReduce e ≠ 0) ∧
      (data.length = reduceWidth (pteReduce e)) ∧ (va % data.length = 0) ∧ (s.mapped b va data.length true = true) ∧
      (s.da b va + 8 ≤ flashBase)) ∧
    (∃ (s : State) (b : Nat) (va : Nat) (e : W64), (s.pte? b va = some e) ∧ (pteReduce e = 0)) :=
  ⟨⟨z, 8, 0, 3, 4, ((Instr.swap 8 3, 3)), by decide +kernel, by decide +kernel, by decide +kernel,
     by decide +kernel, by decide +kernel⟩,
   ⟨z, 4, by decide +kernel⟩,
   ⟨(zPt 0xD400000000000000 {}), 0, 8, 0xD400000000000000, (List.replicate 8 1), by decide +kernel,
     by decide +kernel, by decide +kernel, by decide +kernel, by decide +kernel, by decide +kernel⟩,
   ⟨(zPt 0xC000000000000000 {}), 0, 8, 0xC000000000000000, by decide +kernel, by decide +kernel⟩⟩

/-- Witnesses for the hypotheses of MemoryIsRegulatedAndEvacuated. -/
theorem witness_MemoryIsRegulatedAndEvacuated :
    (∃ (s : State) (d : Nat) (b : Nat) (n : Nat) (at' : Nat), (d < 4) ∧ (s.Shape) ∧
      ((s.die d).waiting.find? (fun w => w.1 == b) = some (b, n, at')) ∧ (0 ≤ s.tokensNow d b ∨ s.regRate d b = 0)) ∧
    (∃ (s : State) (d : Nat) (b : Nat) (n : Nat) (at' : Nat), (d < 4) ∧ (s.Shape) ∧
      ((s.die d).waiting.find? (fun w => w.1 == b) = some (b, n, at')) ∧ (s.tokensNow d b < 0) ∧ (s.regRate d b ≠ 0)) ∧
    (∃ (s : State) (k : Nat) (c : Nat) (l : Nat), (s.Shape) ∧ (k < 12) ∧
      (l = max (levelOf c) (levelDown c (s.stack k).level))) ∧
    (∃ (s : State) (k : Nat) (ch : Nat), (s.Shape) ∧ (k < 12) ∧ (ch < 16) ∧ (ch ∉ (s.stack k).mappedOut) ∧
      (8 ≤ s.outCount (k / 3))) ∧
    (∃ (s : State) (k : Nat) (ch : Nat), (s.Shape) ∧ (k < 12) ∧ (ch < 16) ∧ (ch ∉ (s.stack k).mappedOut) ∧
      (s.outCount (k / 3) < 8)) ∧
    (∃ (s : State) (d : Nat) (p : Nat) (r : Redirect), (s.Shape) ∧ (d < 4) ∧
      ((s.die d).toMove.find? (fun r => r.page == p) = some r) ∧ (s.resourceUp = true)) ∧
    (∃ (s : State) (d : Nat) (p : Nat) (r : Redirect), (s.Shape) ∧ (d < 4) ∧
      ((s.die d).toMove.find? (fun r => r.page == p) = some r) ∧ (s.resourceUp = false)) ∧
    (∃ (s : State) (d : Nat), (s.Shape) ∧ (d < 4) ∧ ((s.die d).evacuating = true) ∧ ((s.die d).toMove = []) ∧
      ((s.die d).stopped = false)) ∧
    (∃ (s : State) (d : Nat) (p : Nat), (s.Shape) ∧ (d < 4) ∧ (s.time.window.isSome = true) ∧
      (s.resourceUp = true) ∧ ((∃ r ∈ (s.die d).redirects, r.page = p)) ∧
      (p - d * diePages < (s.die d).channels * 2048)) ∧
    (∃ (s : State), (s.time.window = none)) :=
  ⟨⟨(zDie { waiting := [(63, 8, 0)] }), 3, 63, 8, 0, by decide +kernel,
     by unfold State.Shape Core.Shape Clerk.Shape; decide +kernel, by decide +kernel, by decide +kernel⟩,
   ⟨({ zDie { waiting := [(63, 8, 0)], tokens := [(63, -1)], tokenAt := [(63, 0)] } with regs := [(regAddr .dcache 3 (Reg.dcache_regRate + 8 * 63), 5)] }),
     3, 63, 8, 0, by decide +kernel, by unfold State.Shape Core.Shape Clerk.Shape; decide +kernel, by decide +kernel,
     by decide +kernel, by decide +kernel⟩,
   ⟨z, 11, 111, 4, by unfold State.Shape Core.Shape Clerk.Shape; decide +kernel, by decide +kernel,
     by decide +kernel⟩,
   ⟨({ hbm := List.replicate 11 {} ++ [{ mappedOut := List.range 8 }] }), 11, 15,
     by unfold State.Shape Core.Shape Clerk.Shape; decide +kernel, by decide +kernel, by decide +kernel,
     by decide +kernel, by decide +kernel⟩,
   ⟨({ hbm := List.replicate 11 {} ++ [{ mappedOut := List.range 7 }] }), 11, 15,
     by unfold State.Shape Core.Shape Clerk.Shape; decide +kernel, by decide +kernel, by decide +kernel,
     by decide +kernel, by decide +kernel⟩,
   ⟨(zDie { toMove := [⟨5, 6⟩] }), 3, 5, (⟨5, 6⟩), by unfold State.Shape Core.Shape Clerk.Shape; decide +kernel,
     by decide +kernel, by decide +kernel, by decide +kernel⟩,
   ⟨({ zDie { toMove := [⟨5, 6⟩] } with fw := { comps := List.replicate 5 {} ++ [{ st := .restarting }] } }), 3, 5,
     (⟨5, 6⟩), by unfold State.Shape Core.Shape Clerk.Shape; decide +kernel, by decide +kernel, by decide +kernel,
     by decide +kernel⟩,
   ⟨(zDie { evacuating := true }), 3, by unfold State.Shape Core.Shape Clerk.Shape; decide +kernel,
     by decide +kernel, by decide +kernel, by decide +kernel, by decide +kernel⟩,
   ⟨({ zDie { redirects := [⟨3 * diePages + 98303, 6⟩] } with time := { window := some 0 } }), 3,
     (3 * diePages + 98303), by unfold State.Shape Core.Shape Clerk.Shape; decide +kernel, by decide +kernel,
     by decide +kernel, by decide +kernel, by decide +kernel, by decide +kernel⟩,
   ⟨z, by decide +kernel⟩⟩

/-- Witnesses for the hypotheses of GranulesFillAndAreWrittenBack. -/
theorem witness_GranulesFillAndAreWrittenBack :
    (∃ (s : State) (b : Nat) (va : Nat) (e : W64), (s.pte? b va = some e) ∧ (pteDa e + va % pageSize < flashBase)) ∧
    (∃ (s : State) (b : Nat) (va : Nat) (e : W64), (s.pte? b va = some e) ∧ (flashBase ≤ pteDa e + va % pageSize) ∧
      (s.granule? (granuleOf (pteDa e + va % pageSize)) = none) ∧
      ((s.share (granuleOf (pteDa e + va % pageSize) % 4)).length < s.poolShare)) ∧
    (∃ (s : State) (b : Nat) (va : Nat) (e : W64) (g : _), (s.pte? b va = some e) ∧
      (flashBase ≤ pteDa e + va % pageSize) ∧ (s.granule? (granuleOf (pteDa e + va % pageSize)) = some g) ∧
      (g.st = .filling)) ∧
    (∃ (s : State) (b : Nat) (va : Nat) (e : W64) (g : _), (s.pte? b va = some e) ∧
      (flashBase ≤ pteDa e + va % pageSize) ∧ (s.granule? (granuleOf (pteDa e + va % pageSize)) = some g) ∧
      (g.st ≠ .filling)) ∧
    (∃ (s : State) (n : Nat) (g : Granule), (s.granule? n = some g) ∧ (g.st = .filling) ∧ (s.tier.paused = false)) ∧
    (∃ (s : State) (n : Nat) (g : Granule), (s.granule? n = some g) ∧ (g.st = .writing) ∧ (s.canWriteBack = true) ∧
      ((∀ da bs, GrWait.write da bs ∉ g.waits))) ∧
    (∃ (s : State) (n : Nat) (g : Granule) (da : _) (bs : _), (s.granule? n = some g) ∧ (g.st = .writing) ∧
      (s.canWriteBack = true) ∧ (g.waits = [.write da bs]) ∧ (bs ≠ []) ∧ (flashBase ≤ da) ∧ (granuleOf da = n) ∧
      (granuleOf (da + bs.length - 1) = n)) ∧
    (∃ (s : State), (s.time.window.isSome = true) ∧ (s.canWriteBack = true) ∧
      (s.field .tier 0 Reg.tier_tierCtrl 15 0 ≠ 0)) ∧
    (∃ (s : State), (s.time.window = none)) :=
  ⟨⟨(zPt 0xC000000000000000 {}), 0, 2097151, 0xC000000000000000, by decide +kernel, by decide +kernel⟩,
   ⟨(zPt zFl {}), 0, 0, zFl, by decide +kernel, by decide +kernel, by decide +kernel, by decide +kernel⟩,
   ⟨(zPt zFl { granules := [{ num := 0, st := .filling }] }), 0, 0, zFl, ({ num := 0, st := .filling }),
     by decide +kernel, by decide +kernel, by decide +kernel, by decide +kernel⟩,
   ⟨(zPt zFl { granules := [{ num := 31, st := .dirty }] }), 0, 2097151, zFl, ({ num := 31, st := .dirty }),
     by decide +kernel, by decide +kernel, by decide +kernel, by decide +kernel⟩,
   ⟨(zPt zFl { granules := [{ num := 0, st := .filling }] }), 0, ({ num := 0, st := .filling }), by decide +kernel,
     by decide +kernel, by decide +kernel⟩,
   ⟨(zPt zFl { granules := [{ num := 0, st := .writing }] }), 0, ({ num := 0, st := .writing }), by decide +kernel,
     by decide +kernel, by decide +kernel, fun _ _ h => nomatch h⟩,
   ⟨(zPt zFl { granules := [{ num := 0, st := .writing, waits := [.write flashBase [1]] }] }), 0,
     ({ num := 0, st := .writing, waits := [.write flashBase [1]] }), flashBase, ([1]), by decide +kernel,
     by decide +kernel, by decide +kernel, by decide +kernel, by decide +kernel, by decide +kernel,
     by decide +kernel, by decide +kernel⟩,
   ⟨({ zPt zFl {} with time := { window := some 0 }, regs := [(regAddr .tier 0 Reg.tier_tierCtrl, 1)] }),
     by decide +kernel, by decide +kernel, by decide +kernel⟩,
   ⟨z, by decide +kernel⟩⟩

/-- Witnesses for the hypotheses of TierCommandsAndFlash. -/
theorem witness_TierCommandsAndFlash :
    (∃ (s : State) (b : Nat) (va : Nat) (u : Nat) (c : _), (s.tier.cmd = none) ∧ (s.tier.paused = false) ∧
      (s.tierRange b va u = none) ∧ (c ∈ [Instr.prefetch b va u, .tierFlush b va u, .tierEvict b va u,
      .discard b va u])) ∧
    (∃ (s : State) (b : Nat) (va : Nat) (u : Nat) (gs : _) (c : _), (s.tier.cmd = none) ∧ (s.tier.paused = false) ∧
      (s.tierRange b va u = some gs) ∧ (s.tier.state = .readOnly) ∧ (c ∈ [Instr.tierFlush b va u, .tierEvict b va u])) ∧
    (∃ (s : State) (b : Nat) (va : Nat) (u : Nat) (gs : _), (s.tier.cmd = none) ∧ (s.tier.paused = false) ∧
      (s.tierRange b va u = some gs) ∧ (s.tier.state ≠ .readOnly)) ∧
    (∃ (s : State) (b : Nat) (va : Nat) (u : Nat) (gs : _), (s.tier.cmd = none) ∧ (s.tier.paused = false) ∧
      (s.tierRange b va u = some gs)) ∧
    (∃ (s : State) (b : Nat) (va : Nat) (u : Nat) (p : _), (s.tier.cmd = none) ∧ (s.tier.paused = false) ∧
      (s.tierRange b va u = some [p]) ∧ (s.granule? p.1 = none) ∧ ((s.share (p.1 % 4)).length < s.poolShare)) ∧
    (∃ (s : State), (s.tier.cmd = none) ∧ (s.tier.paused = true)) ∧
    (∃ (s : State), (s.time.window.isSome = true) ∧ (s.tier.paused = false)) ∧
    (∃ (s : State), (s.tier.paused = false)) ∧
    (∃ (s : State) (n : Nat), (n ∉ s.tier.retired)) ∧
    (∃ (s : State) (n : Nat), (n ∈ s.tier.retired)) :=
  ⟨⟨z, 0, 0, 0, (.discard 0 0 0), by decide +kernel, by decide +kernel, by decide +kernel, by decide +kernel⟩,
   ⟨(zPt 0xC000000000000000 { state := .readOnly }), 0, 0, 32, ([]), (.tierEvict 0 0 32), by decide +kernel,
     by decide +kernel, by decide +kernel, by decide +kernel, by decide +kernel⟩,
   ⟨(zPt 0xC000000000000000 {}), 0, 0, 32, ([]), by decide +kernel, by decide +kernel, by decide +kernel,
     by decide +kernel⟩,
   ⟨(zPt 0xC000000000000000 {}), 0, 0, 32, ([]), by decide +kernel, by decide +kernel, by decide +kernel⟩,
   ⟨(zPt zFl {}), 0, 0, 1, ((0, 0)), by decide +kernel, by decide +kernel, by decide +kernel, by decide +kernel,
     by decide +kernel⟩,
   ⟨(zPt zFl { paused := true }), by decide +kernel, by decide +kernel⟩,
   ⟨({ time := { window := some 3 } }), by decide +kernel, by decide +kernel⟩,
   ⟨z, by decide +kernel⟩,
   ⟨z, 0, by decide +kernel⟩,
   ⟨(zPt zFl { retired := [4] }), 4, by decide +kernel⟩⟩

/-- Witnesses for the hypotheses of BoxesOpenDrainAndRelease. -/
theorem witness_BoxesOpenDrainAndRelease :
    (∃ (s : State) (b : Nat), (s.Shape) ∧ (b < 64) ∧ ((s.box b).state = .disabled) ∧ ((s.holdBox b).isSome = true)) ∧
    (∃ (s : State) (b : Nat), (s.Shape) ∧ (b < 64) ∧ ((s.box b).state ≠ .disabled)) ∧
    (∃ (s : State) (b : Nat), (s.Shape) ∧ (b < 64) ∧ ((s.box b).state = .active)) ∧
    (∃ (s : State) (b : Nat), (s.Shape) ∧ (b < 64) ∧ ((s.box b).state ≠ .active)) ∧
    (∃ (s : State) (b : Nat), (s.Shape) ∧ (b < 64) ∧ ((s.box b).state = .draining) ∧ ((s.box b).drainOver = false)) ∧
    (∃ (s : State) (b : Nat), (s.Shape) ∧ (b < 64) ∧ ((s.box b).state = .draining) ∧
      (s.runningItems b = [] ∨ (s.box b).drainOver = true)) ∧
    (∃ (s : State) (b : Nat), (s.Shape) ∧ (b < 64) ∧ ((s.box b).state = .draining) ∧ (s.runningItems b ≠ []) ∧
      ((s.box b).drainOver = false)) ∧
    (∃ (s : State) (b : Nat), (s.Shape) ∧ (b < 64) ∧ ((s.box b).state = .quiescing) ∧ (s.boxOutstanding b = false) ∧
      (s.boxMoving b = false) ∧ (s.resourceUp = true)) ∧
    (∃ (s : State) (b : Nat), (s.Shape) ∧ (b < 64) ∧ ((s.box b).state = .quiescing) ∧ (s.boxOutstanding b = false) ∧
      (s.boxMoving b = true)) ∧
    (∃ (s : State) (b : Nat),
      (((s.box b).state = .active ∨ (s.box b).state = .draining ∨ (s.box b).state = .disabled ∨ ((s.box b).state = .quiescing ∧
      s.boxOutstanding b = true)))) :=
  ⟨⟨z, 63, by unfold State.Shape Core.Shape Clerk.Shape; decide +kernel, by decide +kernel, by decide +kernel,
     zHold⟩,
   ⟨(zBox { state := .active }), 0, by unfold State.Shape Core.Shape Clerk.Shape; decide +kernel,
     by decide +kernel, by decide +kernel⟩,
   ⟨(zBox { state := .active }), 0, by unfold State.Shape Core.Shape Clerk.Shape; decide +kernel,
     by decide +kernel, by decide +kernel⟩,
   ⟨z, 63, by unfold State.Shape Core.Shape Clerk.Shape; decide +kernel, by decide +kernel, by decide +kernel⟩,
   ⟨(zBox { state := .draining }), 0, by unfold State.Shape Core.Shape Clerk.Shape; decide +kernel,
     by decide +kernel, by decide +kernel, by decide +kernel⟩,
   ⟨(zBox { state := .draining }), 0, by unfold State.Shape Core.Shape Clerk.Shape; decide +kernel,
     by decide +kernel, by decide +kernel, by decide +kernel⟩,
   ⟨({ boxes := { state := .draining } :: List.replicate 63 {}, items := [{ zIt 3 [] with state := .started }] }),
     0, by unfold State.Shape Core.Shape Clerk.Shape; decide +kernel, by decide +kernel, by decide +kernel,
     by decide +kernel, by decide +kernel⟩,
   ⟨(zBox { state := .quiescing }), 0, by unfold State.Shape Core.Shape Clerk.Shape; decide +kernel,
     by decide +kernel, by decide +kernel, by decide +kernel, by decide +kernel, by decide +kernel⟩,
   ⟨({ zSt [{ zPlA with residency := .outbound }] zGr (zIt 3 []) with boxes := { state := .quiescing } :: List.replicate 63 {} }),
     0, by unfold State.Shape Core.Shape Clerk.Shape; decide +kernel, by decide +kernel, by decide +kernel,
     by decide +kernel, by decide +kernel⟩,
   ⟨z, 0, by decide +kernel⟩⟩

/-- Witnesses for the hypotheses of StreamsMoveAndMirror. -/
theorem witness_StreamsMoveAndMirror :
    (∃ (s : State) (n : Nat) (p : Place) (g : Group), (s.Shape) ∧ (s.place? n = some p) ∧ (s.groupOf n = some g) ∧
      (g.home < 4) ∧ (p.live = true) ∧ (s.waitersOf n = []) ∧ (p.residency = .outbound)) ∧
    (∃ (s : State) (n : Nat) (p : Place) (g : Group), (s.Shape) ∧ (s.place? n = some p) ∧ (s.groupOf n = some g) ∧
      (g.home < 4) ∧ (p.live = true) ∧ (s.waitersOf n = []) ∧ (p.residency = .inbound) ∧
      (headerFault p (p.poste.getD {}) = none) ∧ ((p.poste.getD {}).bad = false)) ∧
    (∃ (s : State) (n : Nat) (p : Place) (g : Group), (s.Shape) ∧ (s.place? n = some p) ∧ (s.groupOf n = some g) ∧
      (g.home < 4) ∧ (p.live = true) ∧ (s.waitersOf n = []) ∧ (p.residency = .inbound) ∧
      (headerFault p (p.poste.getD {}) ≠ none)) ∧
    (∃ (s : State) (n : Nat) (p : Place), (s.place? n = some p) ∧ ((p.residency = .resident ∨ p.residency = .away))) ∧
    (∃ (s : State) (b : Nat) (i : Item) (p : Place) (g : Group), (s.item? i.id = some i) ∧ (i.kind = 0x01) ∧
      (i.disp = none) ∧
      (pickFirst s.before ((s.arenaWait.filterMap (fun w => s.item? w.1)).filter (fun i => i.box == b)) = some i) ∧
      (i.took = true) ∧ (0 < i.entries.length) ∧ (s.place? (i.entry 0).stream = some p) ∧
      (s.groupOf (i.entry 0).stream = some g) ∧ (p.live = false) ∧
      (s.mapped i.box (i.argC + 64) (g.slotSize - 64) false = true) ∧
      (s.poisonedBox i.box (i.argC + 64) (g.slotSize - 64) = false) ∧ (s.mayTake i 0 g.slotSize = true)) ∧
    (∃ (s : State), (s.arenaWait = [])) ∧
    (∃ (s : State) (n : Nat) (p : Place), (s.place? n = some p) ∧ (p.mirrorSent.isSome = true)) ∧
    (∃ (s : State) (n : Nat) (p : Place), (s.place? n = some p) ∧ (p.mirrorSent = none)) ∧
    (∃ (s : State) (n : Nat) (at' : Nat) (p : Place) (g : Group), (s.place? n = some p) ∧ (s.groupOf n = some g) ∧
      (p.mirrorSent = some at')) ∧
    (∃ (s : State) (pos : Nat), (s.fab.members.getD pos .absent = .dead)) ∧
    (∃ (s : State) (pos : Nat), (s.fab.members.getD pos .absent ≠ .dead)) ∧
    (∃ (s : State) (n : Nat) (p : Place) (g : Group), (s.place? n = some p) ∧ (s.groupOf n = some g) ∧
      (p.live = true) ∧ (p.mirror = .resync) ∧ (p.mirrorSent = none) ∧ ((p.arena.or p.poste).isSome = true) ∧
      (s.time.window.isSome = true)) ∧
    (∃ (s : State) (n : Nat) (p : Place) (g : Group), (s.place? n = some p) ∧ (s.groupOf n = some g) ∧
      (p.live = true) ∧ (p.mirror = .resync) ∧ (p.mirrorSent = none) ∧ ((p.arena.or p.poste).isSome = true) ∧
      (s.time.window = none)) :=
  ⟨⟨(zSt [{ zPlA with residency := .outbound }] zGr (zIt 3 [])), 5, ({ zPlA with residency := .outbound }), zGr,
     by unfold State.Shape Core.Shape Clerk.Shape; decide +kernel, by decide +kernel, by decide +kernel,
     by decide +kernel, by decide +kernel, by decide +kernel, by decide +kernel⟩,
   ⟨(zSt [{ zPl with residency := .inbound, poste := some zSlot }] zGr (zIt 3 [])), 5,
     ({ zPl with residency := .inbound, poste := some zSlot }), zGr,
     by unfold State.Shape Core.Shape Clerk.Shape; decide +kernel, by decide +kernel, by decide +kernel,
     by decide +kernel, by decide +kernel, by decide +kernel, by decide +kernel, by decide +kernel,
     by decide +kernel⟩,
   ⟨(zSt [{ zPl with residency := .inbound, poste := some {} }] zGr (zIt 3 [])), 5,
     ({ zPl with residency := .inbound, poste := some {} }), zGr,
     by unfold State.Shape Core.Shape Clerk.Shape; decide +kernel, by decide +kernel, by decide +kernel,
     by decide +kernel, by decide +kernel, by decide +kernel, by decide +kernel, by decide +kernel⟩,
   ⟨(zSt [zPlA] zGr (zIt 3 [])), 5, zPlA, by decide +kernel, by decide +kernel⟩,
   ⟨({ zSt [{ zPl with live := false }] zGr { zIt 1 [{ stream := 5 }] with took := true } with arenaWait := [(1, 0)] }),
     0, ({ zIt 1 [{ stream := 5 }] with took := true }), ({ zPl with live := false }), zGr, by decide +kernel,
     by decide +kernel, by decide +kernel, by decide +kernel, by decide +kernel, by decide +kernel,
     by decide +kernel, by decide +kernel, by decide +kernel, by decide +kernel, by decide +kernel,
     by decide +kernel⟩,
   ⟨z, by decide +kernel⟩,
   ⟨(zSt [{ zPlA with mirrorSent := some 4 }] zGr (zIt 3 [])), 5, ({ zPlA with mirrorSent := some 4 }),
     by decide +kernel, by decide +kernel⟩,
   ⟨(zSt [zPlA] zGr (zIt 3 [])), 5, zPlA, by decide +kernel, by decide +kernel⟩,
   ⟨(zSt [{ zPlA with mirrorSent := some 4 }] zGr (zIt 3 [])), 5, 4, ({ zPlA with mirrorSent := some 4 }), zGr,
     by decide +kernel, by decide +kernel, by decide +kernel⟩,
   ⟨({ fab := { members := List.replicate 63 .serving ++ [.dead] } }), 63, by decide +kernel⟩,
   ⟨z, 63, by decide +kernel⟩,
   ⟨({ zSt [{ zPlA with mirror := .resync }] zGr (zIt 3 []) with time := { window := some 0 } }), 5,
     ({ zPlA with mirror := .resync }), zGr, by decide +kernel, by decide +kernel, by decide +kernel,
     by decide +kernel, by decide +kernel, by decide +kernel, by decide +kernel⟩,
   ⟨(zSt [{ zPlA with mirror := .resync }] zGr (zIt 3 [])), 5, ({ zPlA with mirror := .resync }), zGr,
     by decide +kernel, by decide +kernel, by decide +kernel, by decide +kernel, by decide +kernel,
     by decide +kernel, by decide +kernel⟩⟩

/-- Witnesses for the hypotheses of LinksDetectTrainAndComeUp. -/
theorem witness_LinksDetectTrainAndComeUp :
    (∃ (s : State) (p : Nat) (a : Nat) (b : Nat) (c : Nat) (d : Nat), (s.Shape) ∧ (p < 24) ∧
      ((s.link p).st = .detect) ∧ (s.linkEnabled p = true) ∧ (a < 6) ∧ (b < 6) ∧ (c < 6) ∧ (d < 6)) ∧
    (∃ (s : State) (p : Nat) (fp : Nat) (fq : Nat), (s.Shape) ∧ (p < 24) ∧
      (((s.link p).st = .train ∨ (s.link p).st = .retrain)) ∧ (s.linkEnabled p = true) ∧ (s.farEnd p = some (fp, fq))) ∧
    (∃ (s : State) (p : Nat) (fp : Nat) (fq : Nat), (s.Shape) ∧ (p < 24) ∧
      (((s.link p).st = .train ∨ (s.link p).st = .retrain)) ∧ (s.linkEnabled p = true) ∧ (s.farEnd p ≠ some (fp, fq))) ∧
    (∃ (s : State) (p : Nat) (v : Nat), (s.Shape) ∧ (p < 24) ∧ ((s.link p).st = .negotiate) ∧ (1 ≤ v) ∧
      (s.fab.role = .none) ∧ (s.fab.sysVer = 0)) ∧
    (∃ (s : State) (p : Nat) (r : Nat), (s.Shape) ∧ (p < 24) ∧ ((s.link p).st = .up) ∧ ((r = 0 ∨ r = 2 ∨ (r = 1 ∧
      8 ≤ (s.link p).replays)))) ∧
    (∃ (s : State) (p : Nat), (s.Shape) ∧ (p < 24) ∧ ((s.link p).st = .retrain)) ∧
    (∃ (s : State) (p : Nat), (s.Shape) ∧ (p < 24) ∧ (((s.link p).st = .down ∨ (s.link p).st = .train))) ∧
    (∃ (s : State) (p : Nat), (s.Shape) ∧ (p < 24) ∧ ((s.link p).st = .up ∨ (s.link p).st = .miswired)) ∧
    (∃ (s : State) (p : Nat), (s.Shape) ∧ (p < 24) ∧ ((s.link p).st ≠ .up) ∧ ((s.link p).st ≠ .miswired)) ∧
    (∃ (s : State) (p : Nat), (s.Shape) ∧ (p < 24) ∧ ((s.link p).st = .disabled)) ∧
    (∃ (s : State) (p : Nat), (s.Shape) ∧ (p < 24) ∧ ((s.link p).st ≠ .disabled)) ∧
    (∃ (s : State) (p : Nat), (s.Shape) ∧ (p < 24) ∧ (s.linkEnabled p = true)) :=
  ⟨⟨({ regs := [(regAddr .link 23 Reg.link_linkCtrl, 1)] }), 23, 5, 0, 5, 0,
     by unfold State.Shape Core.Shape Clerk.Shape; decide +kernel, by decide +kernel, by decide +kernel,
     by decide +kernel, by decide +kernel, by decide +kernel, by decide +kernel, by decide +kernel⟩,
   ⟨({ zLink { st := .train } with regs := [(regAddr .link 0 Reg.link_linkCtrl, 1)] }), 0, 1, 4,
     by unfold State.Shape Core.Shape Clerk.Shape; decide +kernel, by decide +kernel, by decide +kernel,
     by decide +kernel, by decide +kernel⟩,
   ⟨({ zLink { st := .retrain } with regs := [(regAddr .link 0 Reg.link_linkCtrl, 1)] }), 0, 2, 4,
     by unfold State.Shape Core.Shape Clerk.Shape; decide +kernel, by decide +kernel, by decide +kernel,
     by decide +kernel, by decide +kernel⟩,
   ⟨(zLink { st := .negotiate }), 0, 1, by unfold State.Shape Core.Shape Clerk.Shape; decide +kernel,
     by decide +kernel, by decide +kernel, by decide +kernel, by decide +kernel, by decide +kernel⟩,
   ⟨(zLink { st := .up, replays := 8 }), 0, 1, by unfold State.Shape Core.Shape Clerk.Shape; decide +kernel,
     by decide +kernel, by decide +kernel, by decide +kernel⟩,
   ⟨(zLink { st := .retrain }), 0, by unfold State.Shape Core.Shape Clerk.Shape; decide +kernel, by decide +kernel,
     by decide +kernel⟩,
   ⟨(zLink { st := .down }), 0, by unfold State.Shape Core.Shape Clerk.Shape; decide +kernel, by decide +kernel,
     by decide +kernel⟩,
   ⟨(zLink { st := .miswired }), 0, by unfold State.Shape Core.Shape Clerk.Shape; decide +kernel,
     by decide +kernel, by decide +kernel⟩,
   ⟨z, 23, by unfold State.Shape Core.Shape Clerk.Shape; decide +kernel, by decide +kernel, by decide +kernel,
     by decide +kernel⟩,
   ⟨(zLink { st := .disabled }), 0, by unfold State.Shape Core.Shape Clerk.Shape; decide +kernel,
     by decide +kernel, by decide +kernel⟩,
   ⟨z, 23, by unfold State.Shape Core.Shape Clerk.Shape; decide +kernel, by decide +kernel, by decide +kernel⟩,
   ⟨({ regs := [(regAddr .link 23 Reg.link_linkCtrl, 1)] }), 23,
     by unfold State.Shape Core.Shape Clerk.Shape; decide +kernel, by decide +kernel, by decide +kernel⟩⟩

/-- Witnesses for the hypotheses of LinkControlTimeAndFencing. -/
theorem witness_LinkControlTimeAndFencing :
    (∃ (s : State) (p : Nat), (s.Shape) ∧ (p < 24) ∧ ((s.link p).st = .up) ∧ ((s.link p).txWait = [])) ∧
    (∃ (s : State) (p : Nat), (s.Shape) ∧ (p < 24) ∧ ((s.link p).st = .up) ∧ ((s.link p).txWait = []) ∧
      ((s.link p).replays < 7)) ∧
    (∃ (s : State) (p : Nat) (n : _), (s.Shape) ∧ (p < 24) ∧ ((s.link p).st = .up) ∧ ((s.link p).txWait = []) ∧
      ((s.link p).replays = 7) ∧ (((s.link p).ackTo ((n + 4095) % 4096)).replays = 7)) ∧
    (∃ (s : State) (p : Nat) (vc : _), (s.Shape) ∧ (p < 24) ∧ ((s.link p).st = .up) ∧ ((s.link p).txWait = []) ∧
      (vc < 16) ∧ ((s.link p).credits.length = 16)) ∧
    (∃ (s : State) (p : Nat) (o : Int), (s.isWorker = true) ∧ (p < 24) ∧ ((s.link p).st = .up) ∧
      (s.timeParent = some (portDir s.systemSize p).1) ∧ (o.natAbs ≤ s.slewLimit)) ∧
    (∃ (s : State), (s.isWorker = false)) ∧
    (∃ (s : State) (p : Nat), (p < 24) ∧ (((s.link p).st = .up ∨ (s.link p).st = .fenced)) ∧ (s.fab.role ≠ .none) ∧
      (s.fab.role ≠ .joining)) ∧
    (∃ (s : State), ((s.fab.role = .none ∨ s.fab.role = .joining))) ∧
    (∃ (s : State) (p : Nat), (p < 24) ∧ ((s.link p).st = .fenced)) ∧
    (∃ (s : State) (p : Nat), ((s.link p).st ≠ .fenced)) :=
  ⟨⟨(zLink { st := .up }), 0, by unfold State.Shape Core.Shape Clerk.Shape; decide +kernel, by decide +kernel,
     by decide +kernel, by decide +kernel⟩,
   ⟨(zLink { st := .up, replays := 6 }), 0, by unfold State.Shape Core.Shape Clerk.Shape; decide +kernel,
     by decide +kernel, by decide +kernel, by decide +kernel, by decide +kernel⟩,
   ⟨(zLink { st := .up, replays := 7 }), 0, 0, by unfold State.Shape Core.Shape Clerk.Shape; decide +kernel,
     by decide +kernel, by decide +kernel, by decide +kernel, by decide +kernel, by decide +kernel⟩,
   ⟨(zLink { st := .up }), 0, 15, by unfold State.Shape Core.Shape Clerk.Shape; decide +kernel, by decide +kernel,
     by decide +kernel, by decide +kernel, by decide +kernel, by decide +kernel⟩,
   ⟨zWork, 3, (-10000000), by decide +kernel, by decide +kernel, by decide +kernel, zParent, by decide +kernel⟩,
   ⟨z, by decide +kernel⟩,
   ⟨({ zFab { role := .manager } with links := { st := .fenced } :: List.replicate 23 {} }), 0, by decide +kernel,
     by decide +kernel, by decide +kernel, by decide +kernel⟩,
   ⟨z, by decide +kernel⟩,
   ⟨(zLink { st := .fenced }), 0, by decide +kernel, by decide +kernel⟩,
   ⟨z, 0, by decide +kernel⟩⟩

/-- Witnesses for the hypotheses of MessagesAreTakenOnceAndInOrder. -/
theorem witness_MessagesAreTakenOnceAndInOrder :
    (∃ (s : State) (h : PktHdr), (s.freshFlood h)) ∧
    (∃ (s : State) (h : PktHdr), (s.goodPacket h) ∧ (((h.src, h.seq) ∈ s.fab.flood ∨ h.src = s.pos))) ∧
    (∃ (s : State) (h : PktHdr), (s.freshFlood h)) ∧
    (∃ (s : State), (s.fab.role = .joining) ∧ (s.pos < 64)) ∧
    (∃ (s : State) (h : PktHdr), (s.inTurn h 1) ∧ (s.fab.stopped = false) ∧ (s.item? s.nextItem = none)) ∧
    (∃ (s : State) (h : PktHdr) (b : Nat) (tag : W64) (i : Item), (s.inTurn h 2) ∧ (s.fab.stopped = false) ∧
      (s.isWorker = false) ∧
      (s.items.find? (fun i => i.box == b && i.tag == tag && i.pos == h.src && i.disp.isNone) = some i) ∧
      (s.item? i.id = some i)) ∧
    (∃ (s : State) (h : PktHdr) (m : MirrorHeld), (s.inTurn h 3) ∧ (s.fab.stopped = false) ∧
      (s.isGuest h.src m.stream = true) ∧ (m.src = h.src) ∧ (s.fab.role ≠ .none) ∧ (s.fab.role ≠ .joining)) ∧
    (∃ (s : State) (h : PktHdr), (s.goodPacket h) ∧ (h.dest = s.pos) ∧
      (0 < (h.seq + 2 ^ 32 - (s.inboundOf h.src 1).next) % 2 ^ 32) ∧
      ((h.seq + 2 ^ 32 - (s.inboundOf h.src 1).next) % 2 ^ 32 < 2 ^ 31) ∧ ((s.inboundOf h.src 1).held.length < 256) ∧
      ((∀ x ∈ (s.inboundOf h.src 1).held, x.1 ≠ h.seq))) ∧
    (∃ (s : State) (h : PktHdr), (s.goodPacket h) ∧ (h.dest = s.pos)) ∧
    (∃ (s : State) (d : Nat) (c : Nat) (q : Nat) (m : E2eOut),
      (s.fab.sent.find? (fun m => m.dest == d && m.cls == c && m.seq == q && !m.plain && m.injected) = some m) ∧
      (m.resends < 8) ∧ (s.fab.stopped = false)) ∧
    (∃ (s : State) (d : Nat) (c : Nat) (q : Nat) (m : E2eOut),
      (s.fab.sent.find? (fun m => m.dest == d && m.cls == c && m.seq == q && !m.plain && m.injected) = some m) ∧
      (8 ≤ m.resends) ∧ (s.fab.role = .manager)) ∧
    (∃ (s : State) (h : PktHdr), (h.port < 24) ∧ ((s.link h.port).st = .up) ∧
      ((h.crcOk = false ∨ h.lseq ≠ (s.link h.port).expectLseq))) :=
  ⟨⟨(zFab { role := .serving }), (zPk 5), by unfold State.freshFlood State.goodPacket; decide +kernel⟩,
   ⟨(zFab { role := .serving, flood := [(1, 5)] }), (zPk 5), by unfold State.goodPacket; decide +kernel,
     by decide +kernel⟩,
   ⟨(zFab { role := .manager }), (zPk 5), by unfold State.freshFlood State.goodPacket; decide +kernel⟩,
   ⟨({ fab := { role := .joining } }), by decide +kernel, by decide +kernel⟩,
   ⟨(zFab { role := .serving }), (zPk 0), by unfold State.inTurn State.goodPacket; decide +kernel,
     by decide +kernel, by decide +kernel⟩,
   ⟨({ zFab { role := .manager } with items := [{ zIt 3 [] with pos := 1 }] }), (zPk 0), 0, 9,
     ({ zIt 3 [] with pos := 1 }), by unfold State.inTurn State.goodPacket; decide +kernel, by decide +kernel,
     by decide +kernel, by decide +kernel, by decide +kernel⟩,
   ⟨({ zFab { role := .serving } with places := [zPl], groups := [{ zGr with guest := some 1 }] }), (zPk 0),
     ({ src := 1, stream := 5 }), by unfold State.inTurn State.goodPacket; decide +kernel, by decide +kernel,
     by decide +kernel, by decide +kernel, by decide +kernel, by decide +kernel⟩,
   ⟨(zFab { role := .serving }), (zPk (2 ^ 31 - 1)), by unfold State.goodPacket; decide +kernel, by decide +kernel,
     by decide +kernel, by decide +kernel, by decide +kernel, by decide +kernel⟩,
   ⟨(zFab { role := .serving }), (zPk 5), by unfold State.goodPacket; decide +kernel, by decide +kernel⟩,
   ⟨(zFab { role := .manager, sent := [zSent 7] }), 1, 1, 4, (zSent 7), by decide +kernel, by decide +kernel,
     by decide +kernel⟩,
   ⟨(zFab { role := .manager, sent := [zSent 8] }), 1, 1, 4, (zSent 8), by decide +kernel, by decide +kernel,
     by decide +kernel⟩,
   ⟨(zFab { role := .serving }), ({ zPk 0 with lseq := 1 }), by decide +kernel, by decide +kernel,
     by decide +kernel⟩⟩

/-- Witnesses for the hypotheses of MembersAreDeclaredAndAdmitted. -/
theorem witness_MembersAreDeclaredAndAdmitted :
    (∃ (s : State), (s.fab.role ≠ .none) ∧ (s.fab.role ≠ .joining) ∧ (s.fab.role ≠ .fenced)) ∧
    (∃ (s : State), ((s.fab.role = .none ∨ s.fab.role = .joining ∨ s.fab.role = .fenced))) ∧
    (∃ (s : State) (p : Nat) (y : DeadReason), (s.fab.role = .manager) ∧ (s.mayDie p = true) ∧
      (s.deadFor p y = true) ∧ (s.majority = true)) ∧
    (∃ (s : State) (p : Nat) (y : DeadReason), (s.fab.role = .manager) ∧ (s.mayDie p = true) ∧
      (s.deadFor p y = true) ∧ (s.majority = false)) ∧
    (∃ (s : State) (p : Nat) (y : DeadReason), (s.fab.role = .manager) ∧ (s.mayDie p = true) ∧
      (s.deadFor p y = false)) ∧
    (∃ (s : State) (p : Nat), (s.fab.role = .manager) ∧ (s.mayDie p = true) ∧ (s.deadFor p .isolated = true)) ∧
    (∃ (s : State) (p : Nat), (s.fab.role = .manager) ∧ (s.mayDie p = true) ∧ (s.majority = true) ∧
      (s.deadFor p .isolated = true)) ∧
    (∃ (s : State) (p : Nat) (u : State), (s.mayDie p = true) ∧ (s.fab.role = .manager) ∧
      (u = s.setTime (fun u => { u with t := max u.t (s.lastBeat p + s.beatMiss * s.beat) })) ∧ (u.majority = true)) ∧
    (∃ (s : State) (p : Nat), (s.mayDie p = true) ∧ (s.fab.role = .serving) ∧ (p = s.fab.manager) ∧
      (s.fab.standby = none)) ∧
    (∃ (s : State) (d : Nat), (d < dirCount s.systemSize) ∧ (s.bundle d = .down) ∧ (s.fab.role ≠ .none)) ∧
    (∃ (s : State), (s.fab.role = .standby) ∧ (s.mayDie s.fab.manager = true) ∧
      ((s.deadFor s.fab.manager .heartbeat = true ∨ s.deadFor s.fab.manager .leaving = true ∨ s.deadFor s.fab.manager .linksLost = true)) ∧
      (s.majority = true)) ∧
    (∃ (s : State), (s.fab.role = .standby) ∧ (s.mayDie s.fab.manager = true) ∧
      ((s.deadFor s.fab.manager .heartbeat = true ∨ s.deadFor s.fab.manager .leaving = true ∨ s.deadFor s.fab.manager .linksLost = true)) ∧
      (s.majority = false)) ∧
    (∃ (s : State) (r : JoinReq), (r.pos = s.pos) ∧ (s.fab.role = .none) ∧ (s.pins.strapMgr = false)) ∧
    (∃ (s : State) (r : JoinReq), (r.pos ≠ s.pos) ∧ (s.fab.role = .manager) ∧ (r.pos < s.systemSize) ∧
      (r.pos < s.fab.members.length) ∧ (s.fab.sysVer ≤ r.version) ∧ (s.forwards r.pos = false) ∧
      (s.member r.pos ≠ .barred) ∧ (r.selfTestOk = true) ∧ (r.quoteOk = true)) ∧
    (∃ (s : State) (p : Nat), (s.fab.role = .manager) ∧ (s.mayDie p = true) ∧ (s.majority = true)) ∧
    (∃ (s : State) (p : Nat), (s.fab.role = .manager) ∧ (s.mayDie p = true) ∧ (s.majority = false)) ∧
    (∃ (s : State) (p : Nat), (s.fab.role = .manager) ∧ (s.member p = .barred)) ∧
    (∃ (s : State) (p : Nat), (s.fab.role = .manager) ∧ (s.member p ≠ .barred)) ∧
    (∃ (s : State) (p : Nat) (c : _), (s.fab.role ≠ .manager) ∧ (c ∈ [Instr.clearBar p, .fabCmdDeclareDead p,
      .recomputeRoutes])) :=
  ⟨⟨(zFab { role := .serving }), by decide +kernel, by decide +kernel, by decide +kernel⟩,
   ⟨z, by decide +kernel⟩,
   ⟨(zFab { role := .manager, leaving := [1] }), 1, .leaving, by decide +kernel, by decide +kernel,
     by decide +kernel, by decide +kernel⟩,
   ⟨({ zFab { role := .manager, leaving := [1] } with time := { t := 2000001 } }), 1, .leaving, by decide +kernel,
     by decide +kernel, by decide +kernel, by decide +kernel⟩,
   ⟨(zFab { role := .manager }), 1, .command, by decide +kernel, by decide +kernel, by decide +kernel⟩,
   ⟨(zFab { role := .manager, bundles := (List.range 6).map (fun d => (1, d, 2)) }), 1, by decide +kernel,
     by decide +kernel, by decide +kernel⟩,
   ⟨(zFab { role := .manager, bundles := (List.range 6).map (fun d => (1, d, 2)) }), 1, by decide +kernel,
     by decide +kernel, by decide +kernel, by decide +kernel⟩,
   ⟨(zFab { role := .manager }), 1,
     ((zFab { role := .manager }).setTime (fun u => { u with t := max u.t ((zFab { role := .manager }).lastBeat 1 + (zFab { role := .manager }).beatMiss * (zFab { role := .manager }).beat) })),
     by decide +kernel, by decide +kernel, by decide +kernel, by decide +kernel⟩,
   ⟨(zFab { role := .serving, manager := 1 }), 1, by decide +kernel, by decide +kernel, by decide +kernel,
     by decide +kernel⟩,
   ⟨(zFab { role := .serving }), 5, by decide +kernel, by decide +kernel, by decide +kernel⟩,
   ⟨(zFab { role := .standby, manager := 1, leaving := [1] }), by decide +kernel, by decide +kernel,
     by decide +kernel, by decide +kernel⟩,
   ⟨({ zFab { role := .standby, manager := 1, leaving := [1] } with time := { t := 2000001 } }), by decide +kernel,
     by decide +kernel, by decide +kernel, by decide +kernel⟩,
   ⟨z, (⟨0, 0, 1, true, true⟩), by decide +kernel, by decide +kernel, by decide +kernel⟩,
   ⟨(zFab { role := .manager }), (⟨63, 0, 1, true, true⟩), by decide +kernel, by decide +kernel, by decide +kernel,
     by decide +kernel, by decide +kernel, by decide +kernel, by decide +kernel, by decide +kernel,
     by decide +kernel⟩,
   ⟨(zFab { role := .manager }), 1, by decide +kernel, by decide +kernel, by decide +kernel⟩,
   ⟨({ zFab { role := .manager } with time := { t := 2000001 } }), 1, by decide +kernel, by decide +kernel,
     by decide +kernel⟩,
   ⟨({ fab := { role := .manager, members := List.replicate 63 .serving ++ [.barred] } }), 63, by decide +kernel,
     by decide +kernel⟩,
   ⟨(zFab { role := .manager }), 63, by decide +kernel, by decide +kernel⟩,
   ⟨z, 0, .recomputeRoutes, by decide +kernel, by decide +kernel⟩⟩

/-- Witnesses for the hypotheses of RoutesChangeAndFormationBegins. -/
theorem witness_RoutesChangeAndFormationBegins :
    (∃ (s : State), (s.fab.role = .manager)) ∧
    (∃ (s : State), (s.fab.role ≠ .manager)) ∧
    (∃ (s : State) (g : Nat) (r : List Nat) (w : RouteWork), (s.fab.work = some w) ∧ (w.gen = g) ∧
      (r.length = 4096)) ∧
    (∃ (s : State) (g : Nat) (w : RouteWork), (s.fab.work = some w) ∧ (w.gen ≠ g)) ∧
    (∃ (s : State) (g : Nat) (w : RouteWork), (s.fab.work = some w) ∧ (w.gen = g) ∧ (s.fab.role ≠ .manager ∨ (∀ p,
      p < 64 → s.forwards p = true → p ∈ w.acks))) ∧
    (∃ (s : State) (g : Nat) (w : RouteWork), (s.fab.work = some w) ∧ (w.gen = g) ∧ (s.fab.role = .manager) ∧ ((∃ p,
      p < 64 ∧ s.forwards p = true ∧ p ∉ w.acks))) ∧
    (∃ (s : State) (d : Nat) (w : Nat × TxPkt), (s.fab.waiting.find? (fun w => w.1 == d) = some w) ∧
      ((s.bundle d).full = false)) ∧
    (∃ (s : State) (d : Nat) (w : Nat × TxPkt), (s.fab.waiting.find? (fun w => w.1 == d) = some w) ∧
      ((s.bundle d).full = true)) ∧
    (∃ (s : State) (pr : List Nat) (mg : List Nat), (s.fab.role = .none) ∧ (s.fw.booted = true) ∧ (s.pos ∈ pr) ∧
      ((s.pos ∈ mg ↔ s.pins.strapMgr = true)) ∧ (s.pins.strapMgr = true) ∧ (s.fw.st = .running) ∧
      (mg.dedup = [s.pos]) ∧ (s.pos < s.systemSize)) ∧
    (∃ (s : State) (pr : List Nat) (mg : List Nat), (s.fab.role = .none) ∧ (s.fw.booted = true) ∧ (s.pos ∈ pr) ∧
      ((s.pos ∈ mg ↔ s.pins.strapMgr = true)) ∧ (s.pins.strapMgr = true) ∧ (s.fw.st = .running) ∧
      (1 < mg.dedup.length)) ∧
    (∃ (s : State), (s.fab.role ≠ .none)) :=
  ⟨⟨(zFab { role := .manager }), by decide +kernel⟩,
   ⟨z, by decide +kernel⟩,
   ⟨(zFab { role := .serving, work := some { gen := 3 } }), 3, (List.replicate 4096 0), ({ gen := 3 }),
     by decide +kernel, by decide +kernel, List.length_replicate⟩,
   ⟨(zFab { role := .serving, work := some { gen := 3 } }), 4, ({ gen := 3 }), by decide +kernel,
     by decide +kernel⟩,
   ⟨(zFab { role := .manager, work := some { gen := 3, acks := [0, 1] } }), 3, ({ gen := 3, acks := [0, 1] }),
     by decide +kernel, by decide +kernel, by decide +kernel⟩,
   ⟨(zFab { role := .manager, work := some { gen := 3, acks := [0] } }), 3, ({ gen := 3, acks := [0] }),
     by decide +kernel, by decide +kernel, by decide +kernel, ⟨1, by decide +kernel⟩⟩,
   ⟨(zFab { role := .serving, waiting := [(1, zTx)] }), 1, ((1, zTx)), by decide +kernel, by decide +kernel⟩,
   ⟨({ zWork with fab := { waiting := [(0, zTx)] } }), 0, ((0, zTx)), by decide +kernel, by decide +kernel⟩,
   ⟨({ zBoot with pins := { strapMgr := true }, fw := { st := .running, booted := true } }), ([0, 1]), ([0, 0]),
     by decide +kernel, by decide +kernel, by decide +kernel, by decide +kernel, by decide +kernel,
     by decide +kernel, by decide +kernel, by decide +kernel⟩,
   ⟨({ zBoot with pins := { strapMgr := true }, fw := { st := .running, booted := true } }), ([0, 1]), ([0, 1]),
     by decide +kernel, by decide +kernel, by decide +kernel, by decide +kernel, by decide +kernel,
     by decide +kernel, by decide +kernel⟩,
   ⟨(zFab { role := .serving }), by decide +kernel⟩⟩

/-- Witnesses for the hypotheses of SessionsServeRegistersAndRings. -/
theorem witness_SessionsServeRegistersAndRings :
    (∃ (s : State) (h : PbpHdr) (lo : Nat) (hi : Nat) (v : _), (h.relayed = false) ∧ (s.fw.booted = true) ∧
      (hdrBad h = false) ∧ (s.pbpUp = true) ∧ (s.isWorker = false) ∧ (h.length = 2) ∧ (h.session = 0) ∧
      (s.chosenVersion lo hi = some v) ∧ (s.host.sessions.length < 8)) ∧
    (∃ (s : State) (h : PbpHdr) (lo : Nat) (hi : Nat) (v : _), (h.relayed = false) ∧ (s.fw.booted = true) ∧
      (hdrBad h = false) ∧ (s.pbpUp = true) ∧ (s.isWorker = false) ∧ (h.length = 2) ∧ (h.session = 0) ∧
      (s.chosenVersion lo hi = some v) ∧ (8 ≤ s.host.sessions.length)) ∧
    (∃ (s : State) (h : PbpHdr) (lo : Nat) (hi : Nat), (h.relayed = false) ∧ (s.fw.booted = true) ∧
      (hdrBad h = false) ∧ (s.pbpUp = true) ∧ (s.isWorker = false) ∧ (h.length = 2) ∧ (h.session = 0) ∧
      (s.chosenVersion lo hi = none)) ∧
    (∃ (s : State) (h : PbpHdr), (s.serves h 0x10) ∧ (s.Shape) ∧ (h.length = 0)) ∧
    (∃ (s : State) (h : PbpHdr), (s.serves h 0x10) ∧ (h.length = 0)) ∧
    (∃ (s : State) (h : PbpHdr), (s.servesHere h 0x10) ∧ (h.length = 4) ∧ (h.late = false)) ∧
    (∃ (s : State) (h : PbpHdr) (a : Nat), (s.servesHere h 0x10) ∧ (h.length = 8) ∧ (pbpDenied a = true)) ∧
    (∃ (s : State) (h : PbpHdr) (a : Nat), (s.servesHere h 0x10) ∧ (h.length = 8) ∧ (pbpDenied a = false) ∧
      ((h.late = false ∨ fwctlPage a = true))) ∧
    (∃ (s : State) (h : PbpHdr) (a : Nat), (s.servesHere h 0x10) ∧ (h.length = 8) ∧ (pbpDenied a = false) ∧
      (h.late = true) ∧ (fwctlPage a = false)) ∧
    (∃ (s : State) (h : PbpHdr) (l : List RegOp), (s.servesHere h 0x11) ∧ (1 ≤ l.length) ∧ (l.length ≤ 64) ∧
      ((∀ o ∈ l, o.value.isSome = true → pbpDenied o.addr = false)) ∧ (h.late = false)) ∧
    (∃ (s : State) (h : PbpHdr) (l : List RegOp), (s.servesHere h 0x11) ∧ (1 ≤ l.length) ∧ (l.length ≤ 64) ∧
      ((∃ o ∈ l, o.value.isSome = true ∧ pbpDenied o.addr = true))) ∧
    (∃ (s : State) (h : PbpHdr) (e : List Byte) (d : List Byte) (r : SubRing), (s.servesHere h 0x10) ∧ (s.Shape) ∧
      (h.box < 64) ∧ (h.length = 192) ∧ (e.length = 64) ∧ (d.length = 128) ∧ ((s.box h.box).state = .active) ∧
      (s.opened h.box h.session = true) ∧ (h.late = false) ∧
      ((s.box h.box).subs.find? (fun q => q.index == 0) = some r) ∧ ((r.tail + 2 ^ 32 - r.taken) % 2 ^ 32 < r.size)) ∧
    (∃ (s : State) (h : PbpHdr) (e : List Byte) (d : List Byte) (r : SubRing), (s.servesHere h 0x10) ∧ (s.Shape) ∧
      (h.box < 64) ∧ (h.length = 192) ∧ (e.length = 64) ∧ (d.length = 128) ∧ ((s.box h.box).state = .active) ∧
      (s.opened h.box h.session = true) ∧ (h.late = false) ∧
      ((s.box h.box).subs.find? (fun q => q.index == 0) = some r) ∧ (r.size ≤ (r.tail + 2 ^ 32 - r.taken) % 2 ^ 32)) ∧
    (∃ (s : State) (h : PbpHdr) (mtu : Nat) (role : Nat), (s.servesHere h 0x10) ∧
      (s.mayUse h.box h.session = true) ∧ ((mtu = 1024 ∨ mtu = 2048 ∨ mtu = 4096)) ∧ (role < 2) ∧
      (s.host.conns.length < 256)) ∧
    (∃ (s : State) (h : PbpHdr) (n : Nat) (z : Nat), (s.servesHere h 0x10) ∧ (s.Shape) ∧ (h.box < 64) ∧ (6 ≤ z) ∧
      (z ≤ 16) ∧ (n ≤ 7) ∧ ((s.box h.box).state = .disabled)) ∧
    (∃ (s : State) (h : PbpHdr) (n : Nat) (z : Nat), (s.servesHere h 0x10) ∧ (s.Shape) ∧ (h.box < 64) ∧ (6 ≤ z) ∧
      (z ≤ 16) ∧ (n ≤ 7) ∧ ((s.box h.box).state = .disabled)) ∧
    (∃ (s : State) (h : PbpHdr) (n : Nat) (z : Nat), (s.servesHere h 0x10) ∧ (s.Shape) ∧ (h.box < 64) ∧ (6 ≤ z) ∧
      (z ≤ 16) ∧ (n ≤ 7) ∧ ((s.box h.box).state ≠ .disabled) ∧ (s.mayUse h.box h.session = true)) ∧
    (∃ (s : State) (h : PbpHdr), (s.servesHere h 0x12) ∧ (s.host.tookOver = true)) ∧
    (∃ (s : State) (h : PbpHdr), (s.servesHere h 0x12) ∧ (s.host.tookOver = false)) ∧
    (∃ (s : State) (h : PbpHdr) (k : Session) (r : Nat × Nat × List Byte), (h.relayed = false) ∧
      (s.fw.booted = true) ∧ (hdrBad h = false) ∧ (s.pbpUp = true) ∧ (s.isWorker = false) ∧
      (s.session? h.session = some k) ∧ (k.store.find? (fun r => r.1 == h.seq) = some r)) :=
  ⟨⟨({ zHost {} with host := { sessions := List.replicate 7 zSes } }), ({ length := 2 }), 0x10, 0x12, 0x12,
     by decide +kernel, by decide +kernel, by decide +kernel, by decide +kernel, by decide +kernel,
     by decide +kernel, by decide +kernel, by decide +kernel, by decide +kernel⟩,
   ⟨({ zHost {} with host := { sessions := List.replicate 8 zSes } }), ({ length := 2 }), 0x10, 0x12, 0x12,
     by decide +kernel, by decide +kernel, by decide +kernel, by decide +kernel, by decide +kernel,
     by decide +kernel, by decide +kernel, by decide +kernel, by decide +kernel⟩,
   ⟨(zHost {}), ({ length := 2 }), 0x13, 0x14, by decide +kernel, by decide +kernel, by decide +kernel,
     by decide +kernel, by decide +kernel, by decide +kernel, by decide +kernel, by decide +kernel⟩,
   ⟨(zHost {}), (zH 0), servesOk zSes (by decide +kernel),
     by unfold State.Shape Core.Shape Clerk.Shape; decide +kernel, by decide +kernel⟩,
   ⟨(zHost {}), (zH 0), servesOk zSes (by decide +kernel), by decide +kernel⟩,
   ⟨(zHost {}), (zH 4), servesHereOk zSes (by decide +kernel), by decide +kernel, by decide +kernel⟩,
   ⟨(zHost {}), (zH 8), (regAddr .hub 0 Reg.hub_coreMap), servesHereOk zSes (by decide +kernel), by decide +kernel,
     by decide +kernel⟩,
   ⟨(zHost {}), (zH 8), (regAddr .box 0 Reg.box_quotaArena), servesHereOk zSes (by decide +kernel),
     by decide +kernel, by decide +kernel, by decide +kernel⟩,
   ⟨(zHost {}), ({ zH 8 with late := true }), (regAddr .box 0 Reg.box_quotaArena),
     servesHereOk zSes (by decide +kernel), by decide +kernel, by decide +kernel, by decide +kernel,
     by decide +kernel⟩,
   ⟨(zHost {}), (zH 0), (List.replicate 64 ⟨regAddr .box 0 Reg.box_quotaArena, some 1⟩),
     servesHereOk zSes (by decide +kernel), by decide +kernel, by decide +kernel, by decide +kernel,
     by decide +kernel⟩,
   ⟨(zHost {}), (zH 0), ([⟨regAddr .box 0 Reg.box_quotaArena, some 1⟩, ⟨regAddr .hub 0 Reg.hub_coreMap, some 1⟩]),
     servesHereOk zSes (by decide +kernel), by decide +kernel, by decide +kernel, by decide +kernel⟩,
   ⟨(zHost { state := .active, session := some 1, subs := [⟨0, 0, 64, 0, 63⟩] }), (zH 192), (List.replicate 64 0),
     (List.replicate 128 0), (⟨0, 0, 64, 0, 63⟩), servesHereOk zSes (by decide +kernel),
     by unfold State.Shape Core.Shape Clerk.Shape; decide +kernel, by decide +kernel, by decide +kernel,
     by decide +kernel, by decide +kernel, by decide +kernel, by decide +kernel, by decide +kernel,
     by decide +kernel, by decide +kernel⟩,
   ⟨(zHost { state := .active, session := some 1, subs := [⟨0, 0, 64, 0, 64⟩] }), (zH 192), (List.replicate 64 0),
     (List.replicate 128 0), (⟨0, 0, 64, 0, 64⟩), servesHereOk zSes (by decide +kernel),
     by unfold State.Shape Core.Shape Clerk.Shape; decide +kernel, by decide +kernel, by decide +kernel,
     by decide +kernel, by decide +kernel, by decide +kernel, by decide +kernel, by decide +kernel,
     by decide +kernel, by decide +kernel⟩,
   ⟨({ zHost {} with host := { sessions := [zSes], conns := List.replicate 255 ⟨0, 1, 0, 0, 0, 1024, 0, 0, 0, 0, 0⟩ } }),
     (zH 0), 4096, 1, servesHereOk zSes (by decide +kernel), by decide +kernel, by decide +kernel, by decide +kernel,
     by decide +kernel⟩,
   ⟨(zHost {}), (zH 0), 7, 6, servesHereOk zSes (by decide +kernel),
     by unfold State.Shape Core.Shape Clerk.Shape; decide +kernel, by decide +kernel, by decide +kernel,
     by decide +kernel, by decide +kernel, by decide +kernel⟩,
   ⟨(zHost {}), (zH 0), 7, 16, servesHereOk zSes (by decide +kernel),
     by unfold State.Shape Core.Shape Clerk.Shape; decide +kernel, by decide +kernel, by decide +kernel,
     by decide +kernel, by decide +kernel, by decide +kernel⟩,
   ⟨(zHost { state := .active, session := some 1 }), (zH 0), 0, 16, servesHereOk zSes (by decide +kernel),
     by unfold State.Shape Core.Shape Clerk.Shape; decide +kernel, by decide +kernel, by decide +kernel,
     by decide +kernel, by decide +kernel, by decide +kernel, by decide +kernel⟩,
   ⟨({ zHost {} with host := { sessions := [zSes], tookOver := true } }), (zH 0),
     servesHereOk zSes (by decide +kernel), by decide +kernel⟩,
   ⟨(zHost {}), (zH 0), servesHereOk zSes (by decide +kernel), by decide +kernel⟩,
   ⟨({ zHost {} with host := { sessions := [{ zSes with store := [(1, 0, [])] }] } }), (zH 8),
     ({ zSes with store := [(1, 0, [])] }), ((1, 0, [])), by decide +kernel, by decide +kernel, by decide +kernel,
     by decide +kernel, by decide +kernel, by decide +kernel, by decide +kernel⟩⟩

/-- Witnesses for the hypotheses of ImagesAndResourcesAreServed. -/
theorem witness_ImagesAndResourcesAreServed :
    (∃ (s : State) (h : PbpHdr) (c : Nat) (n : Nat), (s.serves h 0x10) ∧ (s.bootServes = true) ∧ (h.length = 7) ∧
      (4096 ≤ n) ∧ (n ≤ 8 * mib) ∧ (compOk c = true)) ∧
    (∃ (s : State) (h : PbpHdr) (c : Nat) (n : Nat), (s.serves h 0x10) ∧ (s.bootServes = true) ∧ (h.length = 7) ∧
      (n < 4096 ∨ 8 * mib < n ∨ compOk c = false)) ∧
    (∃ (s : State) (h : PbpHdr) (o : Nat) (d : List Byte) (l : Loading), (s.serves h 0x10) ∧ (s.bootServes = true) ∧
      (h.length = 6 + d.length) ∧ (1 ≤ d.length) ∧ (d.length ≤ 8192) ∧ (s.fw.loading = some l) ∧
      (o + d.length ≤ l.size)) ∧
    (∃ (s : State) (h : PbpHdr) (o : Nat) (d : List Byte) (l : Loading), (s.serves h 0x10) ∧ (s.bootServes = true) ∧
      (h.length = 6 + d.length) ∧ (1 ≤ d.length) ∧ (d.length ≤ 8192) ∧ (s.fw.loading = some l) ∧
      (l.size < o + d.length)) ∧
    (∃ (s : State) (u : State) (h : PbpHdr) (l : Loading) (d : _), (s.serves h 0x10) ∧ (s.Shape) ∧
      (s.bootServes = true) ∧ (h.length = 3) ∧ (s.fw.loading = some l) ∧ (l.comp < 6) ∧
      (u = (s.heard h).setFw (fun w => { w with loading := none })) ∧ (u.imageFault (l.comp,
      l.size) l.whole (l.data.getRun 0 l.size) = some d)) ∧
    (∃ (s : State) (h : PbpHdr), (s.serves h 0x10) ∧ (s.Shape) ∧ (s.bootServes = true) ∧ (h.length = 2) ∧ ((∀ k,
      1 ≤ k → k ≤ 5 → (s.comp k).image.isSome = true)) ∧ (s.sec.passport = .good) ∧ (s.sec.identity = .good)) ∧
    (∃ (s : State) (h : PbpHdr), (s.serves h 0x10) ∧ (s.Shape) ∧ (s.bootServes = true) ∧ (h.length = 2) ∧ ((∃ k,
      1 ≤ k ∧ k ≤ 5 ∧ (s.comp k).image = none))) ∧
    (∃ (s : State) (h : PbpHdr) (va : _) (e : _), (s.servesHere h 0x10) ∧ (s.Shape) ∧ (h.box < 64) ∧
      ((s.comp 5).st = .running) ∧ (s.mayUse h.box h.session = true) ∧ (h.length = 18) ∧
      ((s.heard h).mapFault h.box va e = none) ∧ (((s.heard h).growTable h.box va).isSome = true)) ∧
    (∃ (s : State) (h : PbpHdr) (va : _) (e : _) (d : _), (s.servesHere h 0x10) ∧ (s.Shape) ∧ (h.box < 64) ∧
      ((s.comp 5).st = .running) ∧ (s.mayUse h.box h.session = true) ∧ (h.length = 18) ∧
      ((s.heard h).mapFault h.box va e = some d)) ∧
    (∃ (s : State) (h : PbpHdr) (va : _), (s.servesHere h 0x10) ∧ (s.Shape) ∧ (h.box < 64) ∧
      ((s.comp 5).st = .running) ∧ (s.mayUse h.box h.session = true) ∧ (h.length = 10) ∧ (va % pageSize = 0) ∧
      (va < 2 ^ 48)) ∧
    (∃ (s : State) (h : PbpHdr) (r : List Byte), (s.servesHere h 0x10) ∧ (s.Shape) ∧ (h.box < 64) ∧
      ((s.comp 5).st = .running) ∧ (s.mayUse h.box h.session = true) ∧ (h.length = 34) ∧ (r.length = 32) ∧
      ((s.heard h).regionFault h.box (leNat r) = none)) ∧
    (∃ (s : State) (h : PbpHdr) (n : _) (sl : _) (th : _), (s.servesHere h 0x10) ∧ (s.Shape) ∧ (h.box < 64) ∧
      ((s.comp 5).st = .running) ∧ (s.mayUse h.box h.session = true) ∧ (sl < 64) ∧
      (n < (s.box h.box).regions.length) ∧ (th ≤ 64)) ∧
    (∃ (s : State) (h : PbpHdr), (s.servesHere h 0x10) ∧ (s.Shape) ∧ (h.box < 64) ∧ ((s.comp 5).st = .running) ∧
      (s.mayUse h.box h.session = true) ∧ (s.cb.waiting = none)) ∧
    (∃ (s : State) (h : PbpHdr), (s.servesHere h 0x10) ∧ (s.Shape) ∧ (h.box < 64) ∧ ((s.comp 5).st = .running) ∧
      (s.mayUse h.box h.session = true) ∧ (s.tier.cmd = none)) ∧
    (∃ (s : State) (h : PbpHdr) (key : List Byte), (s.servesHere h 0x10) ∧ (s.Shape) ∧ (h.box < 64) ∧
      ((s.comp 5).st = .running) ∧ (s.mayUse h.box h.session = true) ∧ (h.length = 66) ∧ (key.length = 64) ∧
      ((s.box h.box).key = none) ∧ (((s.box h.box).state = .disabled ∨ (s.box h.box).state = .active)) ∧
      (key.take 32 ≠ key.drop 32)) ∧
    (∃ (s : State) (h : PbpHdr) (key : List Byte), (s.servesHere h 0x10) ∧ (s.Shape) ∧ (h.box < 64) ∧
      ((s.comp 5).st = .running) ∧ (s.mayUse h.box h.session = true) ∧ (h.length = 66) ∧ (key.length = 64) ∧
      ((s.box h.box).key = none) ∧ (((s.box h.box).state = .disabled ∨ (s.box h.box).state = .active)) ∧
      (key.take 32 = key.drop 32)) ∧
    (∃ (s : State) (h : PbpHdr) (n : List Byte), (s.servesHere h 0x10) ∧ (s.Shape) ∧ (h.box < 64) ∧
      ((s.comp 5).st = .running) ∧ (s.mayUse h.box h.session = true) ∧ (h.length = 34) ∧ (n.length = 32) ∧ ((∀ x ∈ n,
      x = 0))) ∧
    (∃ (s : State) (h : PbpHdr) (n : List Byte), (s.servesHere h 0x10) ∧ (s.Shape) ∧ (h.box < 64) ∧
      ((s.comp 5).st = .running) ∧ (s.mayUse h.box h.session = true) ∧ (h.length = 34) ∧ (n.length = 32) ∧ ((∃ x ∈ n,
      x ≠ 0))) ∧
    (∃ (s : State) (h : PbpHdr), (s.serves h 0x10) ∧ (h.length = 2)) :=
  ⟨⟨zBoot, (zH 7), 5, 4096, servesOk zSes (by decide +kernel), by decide +kernel, by decide +kernel,
     by decide +kernel, by decide +kernel, by decide +kernel⟩,
   ⟨zBoot, (zH 7), 5, 4095, servesOk zSes (by decide +kernel), by decide +kernel, by decide +kernel,
     by decide +kernel⟩,
   ⟨({ zBoot with fw := { booted := true, st := .loading, loading := some { comp := 1, size := 4096 } } }), (zH 8),
     4094, ([1, 2]), ({ comp := 1, size := 4096 }), servesOk zSes (by decide +kernel), by decide +kernel,
     by decide +kernel, by decide +kernel, by decide +kernel, by decide +kernel, by decide +kernel⟩,
   ⟨({ zBoot with fw := { booted := true, st := .loading, loading := some { comp := 1, size := 4096 } } }), (zH 8),
     4095, ([1, 2]), ({ comp := 1, size := 4096 }), servesOk zSes (by decide +kernel), by decide +kernel,
     by decide +kernel, by decide +kernel, by decide +kernel, by decide +kernel, by decide +kernel⟩,
   ⟨({ zBoot with fw := { booted := true, st := .loading, loading := some { comp := 5, size := 4096 } } }),
     ((({ zBoot with fw := { booted := true, st := .loading, loading := some { comp := 5, size := 4096 } } } : State).heard (zH 3)).setFw (fun w => { w with loading := none })),
     (zH 3), ({ comp := 5, size := 4096 }), 0x0101, servesOk zSes (by decide +kernel),
     by unfold State.Shape Core.Shape Clerk.Shape; decide +kernel, by decide +kernel, by decide +kernel,
     by decide +kernel, by decide +kernel, by decide +kernel, by decide +kernel⟩,
   ⟨({ zBoot with fw := { booted := true, comps := List.replicate 6 { image := some ⟨[], 0, 0, 0⟩ } }, sec := { passport := .good, identity := .good } }),
     (zH 2), servesOk zSes (by decide +kernel), by unfold State.Shape Core.Shape Clerk.Shape; decide +kernel,
     by decide +kernel, by decide +kernel, fun k h h' => by interval_cases k <;> decide +kernel, by decide +kernel,
     by decide +kernel⟩,
   ⟨zBoot, (zH 2), servesOk zSes (by decide +kernel), by unfold State.Shape Core.Shape Clerk.Shape; decide +kernel,
     by decide +kernel, by decide +kernel, ⟨5, by decide +kernel, by decide +kernel, by decide +kernel⟩⟩,
   ⟨(zHost { tables := [0] }), (zH 18), 0, 0xC000000000000000, servesHereOk zSes (by decide +kernel),
     by unfold State.Shape Core.Shape Clerk.Shape; decide +kernel, by decide +kernel, by decide +kernel,
     by decide +kernel, by decide +kernel, by decide +kernel, by decide +kernel⟩,
   ⟨(zHost {}), (zH 18), 1, 0xC000000000000000, 0x0301, servesHereOk zSes (by decide +kernel),
     by unfold State.Shape Core.Shape Clerk.Shape; decide +kernel, by decide +kernel, by decide +kernel,
     by decide +kernel, by decide +kernel, by decide +kernel⟩,
   ⟨(zHost {}), (zH 10), (2 ^ 48 - pageSize), servesHereOk zSes (by decide +kernel),
     by unfold State.Shape Core.Shape Clerk.Shape; decide +kernel, by decide +kernel, by decide +kernel,
     by decide +kernel, by decide +kernel, by decide +kernel, by decide +kernel⟩,
   ⟨(zHost (zBx 0xC000000000000000)), (zH 34), (leBytes 32 (1 + 2 ^ 144 + 0x200000 * 2 ^ 160)),
     servesHereOk zSes (by decide +kernel), by unfold State.Shape Core.Shape Clerk.Shape; decide +kernel,
     by decide +kernel, by decide +kernel, by decide +kernel, by decide +kernel, by decide +kernel,
     by decide +kernel⟩,
   ⟨(zHost { zBx 0xC000000000000000 with regions := [zReg] }), (zH 0), 0, 63, 64,
     servesHereOk zSes (by decide +kernel), by unfold State.Shape Core.Shape Clerk.Shape; decide +kernel,
     by decide +kernel, by decide +kernel, by decide +kernel, by decide +kernel, by decide +kernel,
     by decide +kernel⟩,
   ⟨(zHost {}), (zH 0), servesHereOk zSes (by decide +kernel),
     by unfold State.Shape Core.Shape Clerk.Shape; decide +kernel, by decide +kernel, by decide +kernel,
     by decide +kernel, by decide +kernel⟩,
   ⟨(zHost {}), (zH 0), servesHereOk zSes (by decide +kernel),
     by unfold State.Shape Core.Shape Clerk.Shape; decide +kernel, by decide +kernel, by decide +kernel,
     by decide +kernel, by decide +kernel⟩,
   ⟨(zHost {}), (zH 66), (1 :: List.replicate 63 0), servesHereOk zSes (by decide +kernel),
     by unfold State.Shape Core.Shape Clerk.Shape; decide +kernel, by decide +kernel, by decide +kernel,
     by decide +kernel, by decide +kernel, by decide +kernel, by decide +kernel, by decide +kernel,
     by decide +kernel⟩,
   ⟨(zHost {}), (zH 66), (List.replicate 64 0), servesHereOk zSes (by decide +kernel),
     by unfold State.Shape Core.Shape Clerk.Shape; decide +kernel, by decide +kernel, by decide +kernel,
     by decide +kernel, by decide +kernel, by decide +kernel, by decide +kernel, by decide +kernel,
     by decide +kernel⟩,
   ⟨(zHost {}), (zH 34), (List.replicate 32 0), servesHereOk zSes (by decide +kernel),
     by unfold State.Shape Core.Shape Clerk.Shape; decide +kernel, by decide +kernel, by decide +kernel,
     by decide +kernel, by decide +kernel, by decide +kernel, by decide +kernel⟩,
   ⟨(zHost {}), (zH 34), (List.replicate 31 0 ++ [1]), servesHereOk zSes (by decide +kernel),
     by unfold State.Shape Core.Shape Clerk.Shape; decide +kernel, by decide +kernel, by decide +kernel,
     by decide +kernel, by decide +kernel, by decide +kernel, by decide +kernel⟩,
   ⟨(zHost {}), (zH 2), servesOk zSes (by decide +kernel), by decide +kernel⟩⟩

/-- Witnesses for the hypotheses of LetterboxesTakeCountsWithinTheRing. -/
theorem witness_LetterboxesTakeCountsWithinTheRing :
    (∃ (s : State) (conn : Nat) (ring : Nat) (count : W32) (c : Conn) (q : SubRing), (s.Shape) ∧
      (s.conn? conn = some c) ∧ (c.box < 64) ∧ (ring < 8) ∧
      ((s.box c.box).subs.find? (fun q => q.index == ring) = some q) ∧
      (ahead q.tail q.taken ≤ ahead count.toNat q.taken) ∧ (ahead count.toNat q.taken ≤ q.size)) ∧
    (∃ (s : State) (conn : Nat) (ring : Nat) (count : W32) (c : Conn) (q : SubRing), (s.Shape) ∧
      (s.conn? conn = some c) ∧ (c.box < 64) ∧ (ring < 8) ∧
      ((s.box c.box).subs.find? (fun q => q.index == ring) = some q) ∧
      (ahead count.toNat q.taken < ahead q.tail q.taken ∨ q.size < ahead count.toNat q.taken)) ∧
    (∃ (s : State) (conn : Nat) (dead : Bool) (count : W32) (c : Conn), (s.Shape) ∧ (s.conn? conn = some c) ∧
      (c.box < 64) ∧
      (ahead count.toNat ((s.box c.box).counts dead).head ≤ ahead ((s.box c.box).counts dead).written ((s.box c.box).counts dead).head)) ∧
    (∃ (s : State) (conn : Nat) (dead : Bool) (count : W32) (c : Conn), (s.Shape) ∧ (s.conn? conn = some c) ∧
      (c.box < 64) ∧
      (ahead ((s.box c.box).counts dead).written ((s.box c.box).counts dead).head < ahead count.toNat ((s.box c.box).counts dead).head)) ∧
    (∃ (s : State) (conn : Nat) (key : Nat) (va : W64) (data : List Byte) (c : Conn), (s.conn? conn = some c) ∧
      (key = c.key) ∧ (rocePos va = s.pos) ∧ (s.fab.members.getD s.pos .absent = .serving) ∧ (roceWindow va = 1) ∧
      (data.length ≠ 8)) ∧
    (∃ (s : State) (conn : Nat) (key : Nat) (va : W64) (data : List Byte) (c : Conn) (r : _),
      (s.conn? conn = some c) ∧ (key = c.key) ∧ (rocePos va = s.pos) ∧ (s.fab.members.getD s.pos .absent = .serving) ∧
      (roceWindow va = 1) ∧ (data.length = 8) ∧ (r < 8) ∧ (roceAddr va = 8 * r)) :=
  ⟨⟨(zRo { subs := [⟨7, 0, 64, 60, 62⟩] }), 0, 7, 124, zCn, (⟨7, 0, 64, 60, 62⟩),
     by unfold State.Shape Core.Shape Clerk.Shape; decide +kernel, by decide +kernel, by decide +kernel,
     by decide +kernel, by decide +kernel, by decide +kernel, by decide +kernel⟩,
   ⟨(zRo { subs := [⟨7, 0, 64, 60, 62⟩] }), 0, 7, 125, zCn, (⟨7, 0, 64, 60, 62⟩),
     by unfold State.Shape Core.Shape Clerk.Shape; decide +kernel, by decide +kernel, by decide +kernel,
     by decide +kernel, by decide +kernel, by decide +kernel⟩,
   ⟨(zRo { cqN := { written := 9, head := 4 } }), 0, false, 9, zCn,
     by unfold State.Shape Core.Shape Clerk.Shape; decide +kernel, by decide +kernel, by decide +kernel,
     by decide +kernel⟩,
   ⟨(zRo { cqN := { written := 9, head := 4 } }), 0, false, 10, zCn,
     by unfold State.Shape Core.Shape Clerk.Shape; decide +kernel, by decide +kernel, by decide +kernel,
     by decide +kernel⟩,
   ⟨(zRo {}), 0, 7, 0x1000000000000, ([1]), zCn, by decide +kernel, by decide +kernel, by decide +kernel,
     by decide +kernel, by decide +kernel, by decide +kernel⟩,
   ⟨(zRo {}), 0, 7, 0x1000000000038, (List.replicate 8 0), zCn, 7, by decide +kernel, by decide +kernel,
     by decide +kernel, by decide +kernel, by decide +kernel, by decide +kernel, by decide +kernel,
     by decide +kernel⟩⟩

/-- Witnesses for the hypotheses of RdmaAccessesReachBoxMemory. -/
theorem witness_RdmaAccessesReachBoxMemory :
    (∃ (s : State) (conn : Nat) (key : Nat) (da : Nat) (va : W64) (data : List Byte) (c : Conn) (e : W64),
      (s.conn? conn = some c) ∧ (key = c.key) ∧ (rocePos va = s.pos) ∧ (s.fab.members.getD s.pos .absent = .serving) ∧
      (roceWindow va = 0) ∧ (s.pte? c.box (roceAddr va) = some e) ∧ (pteWritable e = true) ∧
      (roceAddr va % pageSize + data.length ≤ pageSize) ∧ (1 ≤ data.length) ∧
      (s.keyless c.box (roceAddr va) data.length = false) ∧ (da = pteDa e + roceAddr va % pageSize) ∧
      (da + data.length ≤ flashBase) ∧ (pteReduce e = 0)) ∧
    (∃ (s : State) (conn : Nat) (key : Nat) (da : Nat) (va : W64) (data : List Byte) (c : Conn) (e : W64),
      (s.conn? conn = some c) ∧ (key = c.key) ∧ (rocePos va = s.pos) ∧ (s.fab.members.getD s.pos .absent = .serving) ∧
      (roceWindow va = 0) ∧ (s.pte? c.box (roceAddr va) = some e) ∧ (pteWritable e = true) ∧
      (roceAddr va % pageSize + data.length ≤ pageSize) ∧ (1 ≤ data.length) ∧
      (s.keyless c.box (roceAddr va) data.length = false) ∧ (da = pteDa e + roceAddr va % pageSize) ∧
      (da + data.length ≤ flashBase) ∧ (pteReduce e ≠ 0) ∧ (data.length = reduceWidth (pteReduce e)) ∧
      (roceAddr va % data.length = 0)) ∧
    (∃ (s : State) (conn : Nat) (key : Nat) (da : Nat) (va : W64) (data : List Byte) (c : Conn) (e : W64),
      (s.conn? conn = some c) ∧ (key = c.key) ∧ (rocePos va = s.pos) ∧ (s.fab.members.getD s.pos .absent = .serving) ∧
      (roceWindow va = 0) ∧ (s.pte? c.box (roceAddr va) = some e) ∧ (pteWritable e = true) ∧
      (roceAddr va % pageSize + data.length ≤ pageSize) ∧ (1 ≤ data.length) ∧
      (s.keyless c.box (roceAddr va) data.length = false) ∧ (da = pteDa e + roceAddr va % pageSize) ∧
      (da + data.length ≤ flashBase) ∧ (pteReduce e ≠ 0) ∧ (data.length % reduceWidth (pteReduce e) ≠ 0)) ∧
    (∃ (s : State) (conn : Nat) (key : Nat) (va : W64) (data : List Byte) (c : Conn), (s.conn? conn = some c) ∧
      ((key ≠ c.key ∨ s.fab.members.getD (rocePos va) .absent ≠ .serving ∨ 1 < roceWindow va ∨ (roceWindow va = 0 ∧
      rocePos va = s.pos ∧ s.mapped c.box (roceAddr va) data.length true = false)))) ∧
    (∃ (s : State) (conn : Nat) (key : Nat) (n : Nat) (va : W64) (c : Conn), (s.conn? conn = some c) ∧
      (key = c.key) ∧ (rocePos va = s.pos) ∧ (s.fab.members.getD s.pos .absent = .serving) ∧ (roceWindow va = 0) ∧
      (s.mapped c.box (roceAddr va) n false = true) ∧ ((s.absentIn c.box (roceAddr va) n).isSome = false) ∧
      (s.poisonedBox c.box (roceAddr va) n = false)) ∧
    (∃ (s : State) (conn : Nat) (key : Nat) (n : Nat) (va : W64) (c : Conn), (s.conn? conn = some c) ∧
      (key = c.key) ∧ (rocePos va = s.pos) ∧ (s.fab.members.getD s.pos .absent = .serving) ∧ (roceWindow va = 0) ∧
      (s.mapped c.box (roceAddr va) n false = true) ∧ ((s.absentIn c.box (roceAddr va) n).isSome = false) ∧
      (s.poisonedBox c.box (roceAddr va) n = true)) ∧
    (∃ (s : State) (conn : Nat) (key : Nat) (va : W64) (c : Conn), (s.conn? conn = some c) ∧
      (key ≠ c.key ∨ s.fab.members.getD (rocePos va) .absent ≠ .serving)) ∧
    (∃ (s : State) (conn : Nat) (c : Conn), (s.conn? conn = some c)) :=
  ⟨⟨(zRo (zBx 0xC000000000000000)), 0, 7, 2097150, 2097150, ([1, 2]), zCn, 0xC000000000000000, by decide +kernel,
     by decide +kernel, by decide +kernel, by decide +kernel, by decide +kernel, by decide +kernel,
     by decide +kernel, by decide +kernel, by decide +kernel, by decide +kernel, by decide +kernel,
     by decide +kernel, by decide +kernel⟩,
   ⟨(zRo (zBx 0xD400000000000000)), 0, 7, 8, 8, (List.replicate 8 1), zCn, 0xD400000000000000, by decide +kernel,
     by decide +kernel, by decide +kernel, by decide +kernel, by decide +kernel, by decide +kernel,
     by decide +kernel, by decide +kernel, by decide +kernel, by decide +kernel, by decide +kernel,
     by decide +kernel, by decide +kernel, by decide +kernel, by decide +kernel⟩,
   ⟨(zRo (zBx 0xD400000000000000)), 0, 7, 8, 8, (List.replicate 9 1), zCn, 0xD400000000000000, by decide +kernel,
     by decide +kernel, by decide +kernel, by decide +kernel, by decide +kernel, by decide +kernel,
     by decide +kernel, by decide +kernel, by decide +kernel, by decide +kernel, by decide +kernel,
     by decide +kernel, by decide +kernel, by decide +kernel⟩,
   ⟨(zRo {}), 0, 7, 0, ([1]), zCn, by decide +kernel, by decide +kernel⟩,
   ⟨(zRo (zBx 0xC000000000000000)), 0, 7, 64, 64, zCn, by decide +kernel, by decide +kernel, by decide +kernel,
     by decide +kernel, by decide +kernel, by decide +kernel, by decide +kernel, by decide +kernel⟩,
   ⟨({ zRo (zBx 0xC000000000000000) with memPoison := [1] }), 0, 7, 64, 64, zCn, by decide +kernel,
     by decide +kernel, by decide +kernel, by decide +kernel, by decide +kernel, by decide +kernel,
     by decide +kernel, by decide +kernel⟩,
   ⟨(zRo {}), 0, 8, 64, zCn, by decide +kernel, by decide +kernel⟩,
   ⟨(zRo {}), 0, zCn, by decide +kernel⟩⟩

/-- Witnesses for the hypotheses of EntriesArePostedAndNoticed. -/
theorem witness_EntriesArePostedAndNoticed :
    (∃ (s : State) (b : Nat) (dead : Bool) (r : OutRing) (e : PostEntry) (l : List PostEntry) (n : RingCounts),
      (s.Shape) ∧ (b < 64) ∧ (n = (s.box b).counts dead) ∧ ((s.box b).outRing dead = some r) ∧
      ((s.box b).waits dead = e :: l) ∧ (s.requester b = true) ∧ ((n.written + 2 ^ 32 - n.head) % 2 ^ 32 < r.size)) ∧
    (∃ (s : State) (b : Nat) (dead : Bool) (r : OutRing) (e : PostEntry) (l : List PostEntry) (n : RingCounts),
      (s.Shape) ∧ (b < 64) ∧ (n = (s.box b).counts dead) ∧ ((s.box b).outRing dead = some r) ∧
      ((s.box b).waits dead = e :: l) ∧ (s.requester b = true) ∧ (r.size ≤ (n.written + 2 ^ 32 - n.head) % 2 ^ 32)) ∧
    (∃ (s : State) (b : Nat) (dead : Bool),
      (((s.box b).outRing dead = none ∨ (s.box b).waits dead = [] ∨ s.requester b = false))) ∧
    (∃ (s : State) (b : Nat) (dead : Bool) (e : PostEntry) (l : List PostEntry), (s.Shape) ∧ (b < 64) ∧
      ((s.box b).sent dead = e :: l)) ∧
    (∃ (s : State) (b : Nat) (dead : Bool), ((s.box b).sent dead = [])) ∧
    (∃ (s : State) (b : Nat) (dead : Bool) (n : RingCounts), (s.Shape) ∧ (b < 64) ∧ (n = (s.box b).counts dead) ∧
      (n.posted ≠ 0) ∧ (((s.box b).outRing dead).isSome = true) ∧ (s.requester b = true)) ∧
    (∃ (s : State) (n : Nat) (k : Session), (s.Shape) ∧ (s.session? n = some k) ∧ (s.pbpUp = true)) ∧
    (∃ (s : State) (n : Nat) (k : Session), (s.Shape) ∧ (s.session? n = some k) ∧ (s.pbpUp = false)) ∧
    (∃ (s : State) (v : Nat) (a : Nat) (lock : Bool), (v ≤ 2) ∧ (a ≤ 3) ∧ ((s.host.speed, s.host.an,
      s.host.pcsLock) ≠ (v, a, lock)) ∧ (bits (s.prbs 24) 9 8 = 0)) ∧
    (∃ (s : State) (v : Nat) (a : Nat) (lock : Bool), ((s.host.speed, s.host.an, s.host.pcsLock) = (v, a, lock))) :=
  ⟨⟨(zRo { cq := some ⟨0, 0, 64, false⟩, cqWait := [⟨none, 5⟩], cqN := { written := 70, head := 7 } }), 0, false,
     (⟨0, 0, 64, false⟩), (⟨none, 5⟩), ([]), ({ written := 70, head := 7 }),
     by unfold State.Shape Core.Shape Clerk.Shape; decide +kernel, by decide +kernel, by decide +kernel,
     by decide +kernel, by decide +kernel, by decide +kernel, by decide +kernel⟩,
   ⟨(zRo { cq := some ⟨0, 0, 64, false⟩, cqWait := [⟨none, 5⟩], cqN := { written := 71, head := 7 } }), 0, false,
     (⟨0, 0, 64, false⟩), (⟨none, 5⟩), ([]), ({ written := 71, head := 7 }),
     by unfold State.Shape Core.Shape Clerk.Shape; decide +kernel, by decide +kernel, by decide +kernel,
     by decide +kernel, by decide +kernel, by decide +kernel, by decide +kernel⟩,
   ⟨z, 0, true, by decide +kernel⟩,
   ⟨(zRo { dlqSent := [⟨none, 5⟩] }), 0, true, (⟨none, 5⟩), ([]),
     by unfold State.Shape Core.Shape Clerk.Shape; decide +kernel, by decide +kernel, by decide +kernel⟩,
   ⟨z, 0, true, by decide +kernel⟩,
   ⟨(zRo { cq := some ⟨0, 0, 64, false⟩, cqN := { written := 71, posted := 1 } }), 0, false,
     ({ written := 71, posted := 1 }), by unfold State.Shape Core.Shape Clerk.Shape; decide +kernel,
     by decide +kernel, by decide +kernel, by decide +kernel, by decide +kernel, by decide +kernel⟩,
   ⟨(zHost {}), 1, zSes, by unfold State.Shape Core.Shape Clerk.Shape; decide +kernel, by decide +kernel,
     by decide +kernel⟩,
   ⟨({ zHost {} with fw := { st := .running, booted := true } }), 1, zSes,
     by unfold State.Shape Core.Shape Clerk.Shape; decide +kernel, by decide +kernel, by decide +kernel⟩,
   ⟨z, 2, 3, true, by decide +kernel, by decide +kernel, by decide +kernel, by decide +kernel⟩,
   ⟨z, 0, 0, false, by decide +kernel⟩⟩

/-- Witnesses for the hypotheses of ComponentsFaultRestartAndEscalate. -/
theorem witness_ComponentsFaultRestartAndEscalate :
    (∃ (s : State) (k : Nat) (cause : Nat), (s.Shape) ∧ (1 ≤ k) ∧ (k ≤ 5) ∧ (1 ≤ cause) ∧ (cause ≤ 6) ∧
      ((s.comp k).alive = true) ∧ ((s.comp k).armed = false)) ∧
    (∃ (s : State) (k : Nat) (cause : Nat), (s.Shape) ∧ (1 ≤ k) ∧ (k ≤ 5) ∧ (1 ≤ cause) ∧ (cause ≤ 6) ∧
      ((s.comp k).alive = true) ∧ ((s.comp k).armed = true)) ∧
    (∃ (s : State) (k : Nat), (s.Shape) ∧ (1 ≤ k) ∧ (k ≤ 5) ∧ ((s.comp k).alive = true) ∧
      ((s.comp k).armed = false)) ∧
    (∃ (s : State) (k : Nat), (s.Shape) ∧ (1 ≤ k) ∧ (k ≤ 5) ∧ ((s.comp k).alive = true) ∧ ((s.comp k).armed = true)) ∧
    (∃ (s : State) (k : Nat), (s.Shape) ∧ (1 ≤ k) ∧ (k ≤ 5) ∧ ((s.comp k).st = .restarting) ∧
      ((s.comp k).armed = true)) ∧
    (∃ (s : State) (k : Nat), (s.Shape) ∧ (1 ≤ k) ∧ (k ≤ 5) ∧ ((s.comp k).st = .restarting) ∧
      ((s.comp k).armed = false)) ∧
    (∃ (s : State) (k : Nat), (s.Shape) ∧ (1 ≤ k) ∧ (k ≤ 5) ∧ ((s.comp k).st = .restarting) ∧
      ((s.comp k).loaded = false)) ∧
    (∃ (s : State) (k : Nat), (s.Shape) ∧ (1 ≤ k) ∧ (k ≤ 5) ∧ ((s.comp k).st = .running)) ∧
    (∃ (s : State) (k : Nat), (s.Shape) ∧ (1 ≤ k) ∧ (k ≤ 5) ∧ ((s.comp k).st ≠ .running)) ∧
    (∃ (s : State) (k : Nat), (s.Shape) ∧ (1 ≤ k) ∧ (k ≤ 5) ∧ ((s.comp k).st = .starting)) ∧
    (∃ (s : State) (k : Nat), (s.Shape) ∧ (1 ≤ k) ∧ (k ≤ 5) ∧ ((s.comp k).st = .restarting) ∧
      ((s.comp k).loaded = true)) :=
  ⟨⟨(zFw { st := .running }), 5, 6, by unfold State.Shape Core.Shape Clerk.Shape; decide +kernel,
     by decide +kernel, by decide +kernel, by decide +kernel, by decide +kernel, by decide +kernel,
     by decide +kernel⟩,
   ⟨(zFw { st := .running, armed := true }), 5, 6, by unfold State.Shape Core.Shape Clerk.Shape; decide +kernel,
     by decide +kernel, by decide +kernel, by decide +kernel, by decide +kernel, by decide +kernel,
     by decide +kernel⟩,
   ⟨(zFw { st := .starting }), 5, by unfold State.Shape Core.Shape Clerk.Shape; decide +kernel, by decide +kernel,
     by decide +kernel, by decide +kernel, by decide +kernel⟩,
   ⟨(zFw { st := .starting, armed := true }), 5, by unfold State.Shape Core.Shape Clerk.Shape; decide +kernel,
     by decide +kernel, by decide +kernel, by decide +kernel, by decide +kernel⟩,
   ⟨(zFw { st := .restarting, armed := true }), 5, by unfold State.Shape Core.Shape Clerk.Shape; decide +kernel,
     by decide +kernel, by decide +kernel, by decide +kernel, by decide +kernel⟩,
   ⟨(zFw { st := .restarting }), 5, by unfold State.Shape Core.Shape Clerk.Shape; decide +kernel,
     by decide +kernel, by decide +kernel, by decide +kernel, by decide +kernel⟩,
   ⟨(zFw { st := .restarting }), 5, by unfold State.Shape Core.Shape Clerk.Shape; decide +kernel,
     by decide +kernel, by decide +kernel, by decide +kernel, by decide +kernel⟩,
   ⟨(zFw { st := .running }), 5, by unfold State.Shape Core.Shape Clerk.Shape; decide +kernel, by decide +kernel,
     by decide +kernel, by decide +kernel⟩,
   ⟨(zFw {}), 5, by unfold State.Shape Core.Shape Clerk.Shape; decide +kernel, by decide +kernel,
     by decide +kernel, by decide +kernel⟩,
   ⟨(zFw { st := .starting }), 5, by unfold State.Shape Core.Shape Clerk.Shape; decide +kernel, by decide +kernel,
     by decide +kernel, by decide +kernel⟩,
   ⟨(zFw { st := .restarting, loaded := true }), 5, by unfold State.Shape Core.Shape Clerk.Shape; decide +kernel,
     by decide +kernel, by decide +kernel, by decide +kernel, by decide +kernel⟩⟩

/-- Witnesses for the hypotheses of FirmwareBootsWorksAndIsReset. -/
theorem witness_FirmwareBootsWorksAndIsReset :
    (∃ (s : State) (k : Nat), (s.Shape) ∧ (k < 6)) ∧
    (∃ (s : State) (k : Task) (j : _), (nextTask s.fw.tasks = some k) ∧ ((s.comp 1).st = .running) ∧
      (j ∈ s.fw.tasks) ∧ (1 ≤ j.cls) ∧ (j.cls ≤ 6)) ∧
    (∃ (s : State) (k : Task), (nextTask s.fw.tasks = some k) ∧ ((s.comp 1).st = .running)) ∧
    (∃ (s : State), ((nextTask s.fw.tasks = none ∨ (s.comp 1).st ≠ .running))) ∧
    (∃ (s : State), (s.pwr.regulators = true) ∧ (s.fw.booted = false)) ∧
    (∃ (s : State), ((s.pwr.regulators = false ∨ s.fw.booted = true))) ∧
    (∃ (m : List Byte), (64 < m.length)) :=
  ⟨⟨z, 5, by unfold State.Shape Core.Shape Clerk.Shape; decide +kernel, by decide +kernel⟩,
   ⟨({ zFw { st := .running } with fw := { comps := List.replicate 6 { st := .running }, tasks := [⟨6, 0, 0⟩, ⟨1, 5, 0⟩] } }),
     (⟨1, 5, 0⟩), (⟨6, 0, 0⟩), by decide +kernel, by decide +kernel, by decide +kernel, by decide +kernel,
     by decide +kernel⟩,
   ⟨({ zFw { st := .running } with fw := { comps := List.replicate 6 { st := .running }, tasks := [⟨6, 0, 0⟩, ⟨1, 5, 0⟩] } }),
     (⟨1, 5, 0⟩), by decide +kernel, by decide +kernel⟩,
   ⟨z, by decide +kernel⟩,
   ⟨z, by decide +kernel, by decide +kernel⟩,
   ⟨zBoot, by decide +kernel⟩,
   ⟨(List.replicate 65 0), by decide +kernel⟩⟩

/-- Witnesses for the hypotheses of MailboxesKeepMessagesAndCountWaits. -/
theorem witness_MailboxesKeepMessagesAndCountWaits :
    (∃ (s : State) (a : Nat) (b : Nat) (m : List Byte), (s.Shape) ∧ (1 ≤ a) ∧ (a ≤ 5) ∧ (1 ≤ b) ∧ (b ≤ 5) ∧
      (m.length ≤ 64)) ∧
    (∃ (s : State) (k : Nat), (s.Shape) ∧ (1 ≤ k) ∧ (k ≤ 5) ∧ ((s.comp k).armed = false)) :=
  ⟨⟨z, 1, 5, (List.replicate 64 0), by unfold State.Shape Core.Shape Clerk.Shape; decide +kernel,
     by decide +kernel, by decide +kernel, by decide +kernel, by decide +kernel, by decide +kernel⟩,
   ⟨z, 5, by unfold State.Shape Core.Shape Clerk.Shape; decide +kernel, by decide +kernel, by decide +kernel,
     by decide +kernel⟩⟩

/-- Witnesses for the hypotheses of TokensOpenScopesAndKeysAreInstalled. -/
theorem witness_TokensOpenScopesAndKeysAreInstalled :
    (∃ (s : State), (s.sec.field.length = 2)) ∧
    (∃ (s : State), (s.sec.tokenRes ≠ .checking)) ∧
    (∃ (s : State), (s.sec.tokenRes = .checking)) ∧
    (∃ (s : State) (l : List Byte), (s.sec.tokenRes = .checking) ∧ (s.sec.tokenBytes = l) ∧
      (s.sec.tokenOk l = false)) ∧
    (∃ (s : State) (t : State), ((exec .secDbgLock s = .next t ∨ (exec .debugLifetimeExpiry s = .next t ∧
      s.sec.scope ≠ 0)))) ∧
    (∃ (s : State), (s.sec.scope ≠ 0)) ∧
    (∃ (s : State), (s.sec.scope = 0)) ∧
    (∃ (s : State) (b : Nat), (s.Shape) ∧ (b < 64) ∧
      (s.sec.keyWord.toNat % 2 ^ 256 = s.sec.keyWord.toNat / 2 ^ 256)) ∧
    (∃ (s : State) (b : Nat), (s.Shape) ∧ (b < 64) ∧
      (s.sec.keyWord.toNat % 2 ^ 256 ≠ s.sec.keyWord.toNat / 2 ^ 256) ∧ ((s.box b).key.isSome = true)) ∧
    (∃ (s : State) (b : Nat), (s.Shape) ∧ (b < 64) ∧
      (s.sec.keyWord.toNat % 2 ^ 256 ≠ s.sec.keyWord.toNat / 2 ^ 256) ∧ ((s.box b).key = none)) ∧
    (∃ (s : State) (b : Nat), (s.Shape) ∧ (b < 64)) :=
  ⟨⟨z, by decide +kernel⟩,
   ⟨z, by decide +kernel⟩,
   ⟨({ sec := { tokenRes := .checking } }), by decide +kernel⟩,
   ⟨({ sec := { tokenRes := .checking } }), ([]), by decide +kernel, by decide +kernel, by decide +kernel⟩,
   ⟨({ sec := { scope := 7 } }), ((match exec .secDbgLock { sec := { scope := 7 } } with | .next t => t | _ => z)),
     .inl rfl⟩,
   ⟨({ sec := { scope := 7 } }), by decide +kernel⟩,
   ⟨z, by decide +kernel⟩,
   ⟨z, 63, by unfold State.Shape Core.Shape Clerk.Shape; decide +kernel, by decide +kernel, by decide +kernel⟩,
   ⟨({ boxes := { key := some 5 } :: List.replicate 63 {}, sec := { keyData := 1 :: List.replicate 15 0 } }), 0,
     by unfold State.Shape Core.Shape Clerk.Shape; decide +kernel, by decide +kernel, by decide +kernel,
     by decide +kernel⟩,
   ⟨({ sec := { keyData := 1 :: List.replicate 15 0 } }), 63,
     by unfold State.Shape Core.Shape Clerk.Shape; decide +kernel, by decide +kernel, by decide +kernel,
     by decide +kernel⟩,
   ⟨z, 63, by unfold State.Shape Core.Shape Clerk.Shape; decide +kernel, by decide +kernel⟩⟩

/-- Witnesses for the hypotheses of RecordsAreAcceptedFlushedAndRead. -/
theorem witness_RecordsAreAcceptedFlushedAndRead :
    (∃ (s : State) (r : Record) (q : List Record), (s.log.queue = r :: q) ∧ (s.log.accepting = true) ∧
      ((s.log.hasMirror = false ∨ s.log.next < s.log.reserve)) ∧ ((r.minor = false ∨ s.log.minor < s.roundLimit))) ∧
    (∃ (s : State) (r : Record) (q : List Record), (s.log.queue = r :: q) ∧ (s.log.accepting = true) ∧
      ((s.log.hasMirror = false ∨ s.log.next < s.log.reserve)) ∧ (r.minor = true) ∧ (s.roundLimit ≤ s.log.minor)) ∧
    (∃ (s : State) (r : Record) (q : List Record), (s.log.queue = r :: q) ∧ (s.log.accepting = false)) ∧
    (∃ (s : State) (r : Record) (q : List Record), (s.log.queue = r :: q) ∧ (s.log.accepting = true) ∧
      (s.log.hasMirror = true) ∧ (s.log.reserve ≤ s.log.next) ∧ (s.tier.paused = true)) ∧
    (∃ (s : State) (r : Record) (q : List Record), (s.log.queue = r :: q) ∧ (s.log.accepting = true) ∧
      (s.log.hasMirror = true) ∧ (s.log.reserve ≤ s.log.next) ∧ (s.tier.paused = false)) ∧
    (∃ (s : State), (s.log.accepting = true)) ∧
    (∃ (s : State), (s.log.accepting = false)) ∧
    (∃ (p : Pg) (i : Nat) (n : Nat), (pageOf (p.base i + 0x800 + 8 * n) = some (p, i)) ∧ (n < p.counters i) ∧
      (n < 128)) ∧
    (∃ (p : Pg) (i : Nat) (n : Nat), (pageOf (p.base i + 0x800 + 8 * n) = some (p, i)) ∧ (n < p.counters i) ∧
      (n < 128) ∧ (pageOf (p.base i + 0xC00 + 8 * n) = some (p, i))) :=
  ⟨⟨(zLog { queue := [zRec .error], minor := 65536 }), (zRec .error), ([]), by decide +kernel, by decide +kernel,
     by decide +kernel, by decide +kernel⟩,
   ⟨(zLog { queue := [zRec .info], minor := 65536 }), (zRec .info), ([]), by decide +kernel, by decide +kernel,
     by decide +kernel, by decide +kernel, by decide +kernel⟩,
   ⟨(zLog { queue := [zRec .error], accepting := false }), (zRec .error), ([]), by decide +kernel,
     by decide +kernel⟩,
   ⟨({ zLog { queue := [zRec .error], hasMirror := true } with tier := { paused := true } }), (zRec .error), ([]),
     by decide +kernel, by decide +kernel, by decide +kernel, by decide +kernel, by decide +kernel⟩,
   ⟨(zLog { queue := [zRec .error], hasMirror := true }), (zRec .error), ([]), by decide +kernel,
     by decide +kernel, by decide +kernel, by decide +kernel, by decide +kernel⟩,
   ⟨z, by decide +kernel⟩,
   ⟨(zLog { accepting := false }), by decide +kernel⟩,
   ⟨.cnt, 67, 127, by decide +kernel, by decide +kernel, by decide +kernel⟩,
   ⟨.cnt, 67, 127, by decide +kernel, by decide +kernel, by decide +kernel, by decide +kernel⟩⟩

/-- Witnesses for the hypotheses of ErrorsAndDispositionsAreRecordedOnce. -/
theorem witness_ErrorsAndDispositionsAreRecordedOnce :
    (∃ (s : State) (c : Nat) (x : _), (s.Shape) ∧ (c < 68) ∧ ((s.core c).run = some x)) ∧
    (∃ (s : State) (c : Nat), (s.Shape) ∧ (c < 68) ∧ ((s.core c).run = none)) ∧
    (∃ (s : State) (id : Nat) (i : Item), (s.item? id = some i) ∧ (i.disp = none)) ∧
    (∃ (s : State) (id : Nat), (s.item? id = none)) ∧
    (∃ (s : State) (id : Nat) (i : _), (s.item? id = some i) ∧ (i.disp.isSome = true)) ∧
    (∃ (s : State) (id : Nat) (i : Item), (s.item? id = some i) ∧ (i.disp = none) ∧ (i.over = true) ∧
      (s.runningOf id = false)) ∧
    (∃ (s : State) (id : Nat) (i : Item), (s.item? id = some i) ∧ (i.disp = none) ∧
      ((i.over = false ∨ s.runningOf id = true))) ∧
    (∃ (s : State) (k : Nat), (1 ≤ k) ∧ (k ≤ 10) ∧ (s.log.queue = []) ∧ (s.log.sigs.length = 64)) ∧
    (∃ (k : Nat), ((k = 0 ∨ 10 < k))) :=
  ⟨⟨(zCoreAt 67 { state := .running, run := some zInst }), 67, zInst,
     by unfold State.Shape Core.Shape Clerk.Shape; decide +kernel, by decide +kernel, by decide +kernel⟩,
   ⟨z, 67, by unfold State.Shape Core.Shape Clerk.Shape; decide +kernel, by decide +kernel, by decide +kernel⟩,
   ⟨(zItem (zIt 3 [])), 1, (zIt 3 []), by decide +kernel, by decide +kernel⟩,
   ⟨z, 1, by decide +kernel⟩,
   ⟨(zItem { zIt 3 [] with disp := some (.done true) }), 1, ({ zIt 3 [] with disp := some (.done true) }),
     by decide +kernel, by decide +kernel⟩,
   ⟨(zItem { zIt 3 [] with opEnd := true }), 1, ({ zIt 3 [] with opEnd := true }), by decide +kernel,
     by decide +kernel, by decide +kernel, by decide +kernel⟩,
   ⟨(zItem (zIt 3 [])), 1, (zIt 3 []), by decide +kernel, by decide +kernel, by decide +kernel⟩,
   ⟨z, 10, by decide +kernel, by decide +kernel, by decide +kernel, by decide +kernel⟩,
   ⟨11, by decide +kernel⟩⟩

/-- Witnesses for the hypotheses of BudgetMovesLowerBeforeTheyRaise. -/
theorem witness_BudgetMovesLowerBeforeTheyRaise :
    (∃ (s : State), ((s.fab.role ≠ .manager ∨ bit (s.regN .frank 0 Reg.frank_frankMoveCtrl) 31 = true))) ∧
    (∃ (s : State) (p : Nat) (b : Nat) (n : Nat), (s.fab.role = .manager) ∧
      (bit (s.regN .frank 0 Reg.frank_frankMoveCtrl) 31 = false) ∧ (s.pwr.decreasing = []) ∧ ((p, b, n) ∈ s.needs) ∧
      (n + 400 < b)) ∧
    (∃ (s : State), (s.fab.role = .manager) ∧ (bit (s.regN .frank 0 Reg.frank_frankMoveCtrl) 31 = false) ∧
      ((∃ d ∈ s.pwr.decreasing, cellGet 0 s.fab.budgets d.1 ≠ d.2))) ∧
    (∃ (s : State), (s.fab.role = .manager) ∧ (bit (s.regN .frank 0 Reg.frank_frankMoveCtrl) 31 = false) ∧
      ((∀ d ∈ s.pwr.decreasing, cellGet 0 s.fab.budgets d.1 = d.2)) ∧ ((s.pwr.decreasing ≠ [] ∨ ∀ x ∈ s.needs,
      x.2.1 ≤ x.2.2 + 400))) ∧
    (∃ (m : Nat) (room : Nat) (l : List (Nat × Nat × Nat)) (d : _), (d ∈ raiseBudgets m room l)) ∧
    (∃ (l : List (Nat × Nat × Nat)), ((l.map (·.1)).Nodup)) :=
  ⟨⟨z, by decide +kernel⟩,
   ⟨(zFab { role := .manager }), 0, 9600, 3200, by decide +kernel, by decide +kernel, by decide +kernel,
     by decide +kernel, by decide +kernel⟩,
   ⟨({ zFab { role := .manager } with pwr := { decreasing := [(1, 5)] } }), by decide +kernel, by decide +kernel,
     by decide +kernel⟩,
   ⟨({ zFab { role := .manager, budgets := [(1, 5)] } with pwr := { decreasing := [(1, 5)] } }), by decide +kernel,
     by decide +kernel, by decide +kernel, by decide +kernel⟩,
   ⟨100, 1000, ([(0, 9000, 9600)]), ((0, 9100)), by decide +kernel⟩,
   ⟨([(0, 9000, 9600), (1, 9000, 9600)]), by decide +kernel⟩⟩

/-- Witnesses for the hypotheses of PatternTestsRunOnDisabledLinks. -/
theorem witness_PatternTestsRunOnDisabledLinks :
    (∃ (s : State) (n : Nat) (p : Nat) (m : Nat), (n < 24) ∧ ((s.link n).st = .disabled) ∧ (p ≤ 8) ∧ (m < 16) ∧
      (bits (s.prbs n) 3 0 ≤ 8) ∧ (bits (s.prbs n) 7 4 ≤ 8)) ∧
    (∃ (s : State) (n : Nat) (p : Nat), (n < 24) ∧ (((s.link n).st ≠ .disabled ∨ (9 ≤ p ∧ p < 16)))) ∧
    (∃ (s : State) (n : Nat) (p : Nat), (n < 24) ∧ (((s.link n).st ≠ .disabled ∨ (9 ≤ p ∧ p < 16)))) ∧
    (∃ (s : State) (p : Nat) (m : Nat), (p ≤ 8) ∧ (m < 256) ∧ (bits (s.prbs 24) 3 0 ≤ 8) ∧
      (bits (s.prbs 24) 7 4 ≤ 8) ∧ (s.host.speed ≠ 0)) ∧
    (∃ (s : State) (p : Nat) (m : Nat), (p ≤ 8) ∧ (m < 256) ∧ (bits (s.prbs 24) 3 0 ≤ 8) ∧
      (bits (s.prbs 24) 7 4 ≤ 8) ∧ (s.host.speed ≠ 0) ∧ (bit (s.prbs 24) 8 = true) ∧ (bit (s.prbs 24) 9 = false)) ∧
    (∃ (s : State) (n : Nat) (l : Nat), (s.test.checkers.length = 104) ∧ (s.checking n l = true) ∧
      ((s.checker n l).locked = false)) ∧
    (∃ (s : State) (n : Nat) (l : Nat), (s.test.checkers.length = 104) ∧ (s.checking n l = true) ∧
      ((s.checker n l).locked = true)) ∧
    (∃ (s : State) (n : Nat) (l : Nat), (s.test.checkers.length = 104) ∧ (s.checking n l = false)) :=
  ⟨⟨({ links := List.replicate 23 {} ++ [{ st := .disabled }] }), 23, 8, 15, by decide +kernel, by decide +kernel,
     by decide +kernel, by decide +kernel, by decide +kernel, by decide +kernel⟩,
   ⟨(zLink { st := .disabled }), 0, 9, by decide +kernel, by decide +kernel⟩,
   ⟨z, 23, 8, by decide +kernel, by decide +kernel⟩,
   ⟨({ host := { speed := 1 } }), 8, 255, by decide +kernel, by decide +kernel, by decide +kernel,
     by decide +kernel, by decide +kernel⟩,
   ⟨({ host := { speed := 1 }, regs := [(regAddr (patPage 24).1 (patPage 24).2 Reg.link_prbsCtrl, 0x100)] }), 8,
     255, by decide +kernel, by decide +kernel, by decide +kernel, by decide +kernel, by decide +kernel,
     by decide +kernel, by decide +kernel⟩,
   ⟨({ regs := [(regAddr (patPage 24).1 (patPage 24).2 Reg.link_prbsCtrl, 0x800210)] }), 24, 7, by decide +kernel,
     by decide +kernel, by decide +kernel⟩,
   ⟨({ regs := [(regAddr (patPage 24).1 (patPage 24).2 Reg.link_prbsCtrl, 0x800210)], test := { checkers := List.replicate 103 {} ++ [{ locked := true }] } }),
     24, 7, by decide +kernel, by decide +kernel, by decide +kernel⟩,
   ⟨z, 24, 7, by decide +kernel, by decide +kernel⟩⟩

/-- Witnesses for the hypotheses of TapInstructionsShiftTheirRegister. -/
theorem witness_TapInstructionsShiftTheirRegister :
    (∃ (s : State) (v : Nat), ((v = if s.stepping = .B0 then 0x14A6_476F else 0x04A6_476F))) ∧
    (∃ (s : State) (v : Nat), ((v = if s.stepping = .B0 then 0x14A6_476F else 0x04A6_476F))) ∧
    (∃ (s : State) (d : Nat) (c : Nat), (d < 4) ∧ (c < 68) ∧ (s.sec.passport = .good)) ∧
    (∃ (s : State) (d : Nat) (c : Nat), (d < 4) ∧ (c < 68) ∧ (s.sec.passport ≠ .good) ∧ (s.Shape)) ∧
    (∃ (s : State), (s.sec.scope = 0)) ∧
    (∃ (s : State), (s.sec.scope ≠ 0)) ∧
    (∃ (s : State) (v : W32), (s.sec.scope ≠ 0) ∧ (bit v.toNat 31 = true) ∧ (bit v.toNat 28 = false)) :=
  ⟨⟨z, 0x14A6_476F, by decide +kernel⟩,
   ⟨({ stepping := .A1 }), 0x04A6_476F, by decide +kernel⟩,
   ⟨({ sec := { passport := .good } }), 3, 67, by decide +kernel, by decide +kernel, by decide +kernel⟩,
   ⟨z, 3, 67, by decide +kernel, by decide +kernel, by decide +kernel,
     by unfold State.Shape Core.Shape Clerk.Shape; decide +kernel⟩,
   ⟨z, by decide +kernel⟩,
   ⟨(zDbg 1 {}), by decide +kernel⟩,
   ⟨(zDbg 1 {}), 0x80000000, by decide +kernel, by decide +kernel, by decide +kernel⟩⟩

/-- Witnesses for the hypotheses of HartsHaltStepAndResume. -/
theorem witness_HartsHaltStepAndResume :
    (∃ (s : State) (h : Nat), (s.hartSeen h = false)) ∧
    (∃ (s : State) (h : Nat), (s.hartSeen h = false)) ∧
    (∃ (s : State) (c : Nat) (n : Nat), (s.Shape) ∧ (c < 68) ∧ (n < 4) ∧ (s.hartSeen (4 * c + n) = true) ∧
      ((s.core c).state ≠ .fenced) ∧ ((s.core c).state ≠ .reset) ∧ ((s.clerk c n).state ≠ .halted)) ∧
    (∃ (s : State) (c : Nat) (n : Nat), (s.Shape) ∧ (c < 68) ∧ (n < 4) ∧ (s.hartSeen (4 * c + n) = true) ∧
      (((s.core c).state = .fenced ∨ (s.core c).state = .reset ∨ (s.clerk c n).state = .halted))) ∧
    (∃ (s : State) (c : Nat) (n : Nat), (s.Shape) ∧ (c < 68) ∧ (n < 4) ∧ (s.hartSeen (4 * c + n) = true) ∧
      ((s.clerk c n).state = .halted)) ∧
    (∃ (s : State) (c : Nat) (n : Nat), (s.Shape) ∧ (c < 68) ∧ (n < 4) ∧ (s.hartSeen (4 * c + n) = true) ∧
      ((s.clerk c n).state ≠ .halted)) ∧
    (∃ (s : State) (h : Nat), (s.Shape) ∧ (272 ≤ h) ∧ (h < 278) ∧ (s.hartSeen h = true) ∧
      ((s.comp (fpComp (h - 272))).st = .running)) ∧
    (∃ (s : State) (h : Nat), (s.Shape) ∧ (272 ≤ h) ∧ (h < 278) ∧ (s.hartSeen h = true) ∧ (274 ≤ h) ∧
      ((s.hart h).halted = true) ∧ ((s.comp (fpComp (h - 272))).st = .halted)) ∧
    (∃ (s : State) (c : Nat) (n : Nat) (k : Nat), (s.Shape) ∧ (c < 68) ∧ (n < 4) ∧ (s.hartSeen (4 * c + n) = true) ∧
      ((s.clerk c n).state = .halted) ∧ (k < 32)) ∧
    (∃ (s : State) (c : Nat) (n : Nat), (s.Shape) ∧ (c < 68) ∧ (n < 4) ∧ (s.hartSeen (4 * c + n) = true) ∧
      ((s.clerk c n).state ≠ .halted) ∧ (bits (s.dmReg 0x16).toNat 10 8 = 0)) ∧
    (∃ (s : State) (c : Nat) (n : Nat) (k : Nat), (s.Shape) ∧ (c < 68) ∧ (n < 4) ∧ (s.hartSeen (4 * c + n) = true) ∧
      ((s.clerk c n).state = .halted) ∧ (bits (s.dmReg 0x16).toNat 10 8 = 0) ∧ (0x1020 ≤ k)) ∧
    (∃ (s : State) (h : Nat) (kind : Nat) (a : W64), ((∃ k, k < hartTriggers h ∧ s.triggerHit h k kind a = true))) ∧
    (∃ (s : State) (h : Nat) (kind : Nat) (a : W64), ((∀ k, k < hartTriggers h → s.triggerHit h k kind a = false))) :=
  ⟨⟨z, 0, by decide +kernel⟩,
   ⟨z, 277, by decide +kernel⟩,
   ⟨(zDbg 1 { state := .running }), 67, 3, by unfold State.Shape Core.Shape Clerk.Shape; decide +kernel,
     by decide +kernel, by decide +kernel, by decide +kernel, by decide +kernel, by decide +kernel,
     by decide +kernel⟩,
   ⟨(zDbg 1 { state := .fenced }), 67, 3, by unfold State.Shape Core.Shape Clerk.Shape; decide +kernel,
     by decide +kernel, by decide +kernel, by decide +kernel, by decide +kernel⟩,
   ⟨(zDbg 1 zHalt), 67, 3, by unfold State.Shape Core.Shape Clerk.Shape; decide +kernel, by decide +kernel,
     by decide +kernel, by decide +kernel, by decide +kernel⟩,
   ⟨(zDbg 1 { state := .running }), 67, 3, by unfold State.Shape Core.Shape Clerk.Shape; decide +kernel,
     by decide +kernel, by decide +kernel, by decide +kernel, by decide +kernel⟩,
   ⟨({ zFw { st := .running } with sec := { scope := 2 } }), 277,
     by unfold State.Shape Core.Shape Clerk.Shape; decide +kernel, by decide +kernel, by decide +kernel,
     by decide +kernel, by decide +kernel⟩,
   ⟨({ zFw { st := .halted } with sec := { scope := 2 }, test := { harts := [{ num := 277, halted := true }] } }),
     277, by unfold State.Shape Core.Shape Clerk.Shape; decide +kernel, by decide +kernel, by decide +kernel,
     by decide +kernel, by decide +kernel, by decide +kernel, by decide +kernel⟩,
   ⟨(zDbg 1 zHalt), 67, 3, 31, by unfold State.Shape Core.Shape Clerk.Shape; decide +kernel, by decide +kernel,
     by decide +kernel, by decide +kernel, by decide +kernel, by decide +kernel⟩,
   ⟨(zDbg 1 { state := .running }), 67, 3, by unfold State.Shape Core.Shape Clerk.Shape; decide +kernel,
     by decide +kernel, by decide +kernel, by decide +kernel, by decide +kernel, by decide +kernel⟩,
   ⟨(zDbg 1 zHalt), 67, 3, 0x1020, by unfold State.Shape Core.Shape Clerk.Shape; decide +kernel, by decide +kernel,
     by decide +kernel, by decide +kernel, by decide +kernel, by decide +kernel, by decide +kernel⟩,
   ⟨({ test := { harts := [{ num := 0, regs := [(0x7A1 + 65536 * 3, 0x6000000000000004), (0x7A2 + 65536 * 3, 5)] }] } }),
     0, 0, 5, ⟨3, by decide +kernel, by decide +kernel⟩⟩,
   ⟨z, 277, 0, 5, by decide +kernel⟩⟩

/-- Witnesses for the hypotheses of SystemBusAccessesAnswerOrFail. -/
theorem witness_SystemBusAccessesAnswerOrFail :
    (∃ (s : State), (s.unlocked 2 = false)) ∧
    (∃ (s : State) (a : W64) (n : Nat) (da : Nat), (s.unlocked 2 = true) ∧ (bit a.toNat 63 = false) ∧
      (da = a.toNat % 2 ^ 48) ∧ (s.home da ≠ .none) ∧ ((n = 4 ∨ n = 8)) ∧ (da % n = 0) ∧
      (s.protectedPage (da / pageSize) = false) ∧ (s.poisonAt da = false)) ∧
    (∃ (s : State) (a : W64) (n : Nat) (da : Nat), (s.unlocked 2 = true) ∧ (bit a.toNat 63 = false) ∧
      (da = a.toNat % 2 ^ 48) ∧ (s.home da ≠ .none) ∧ ((n = 4 ∨ n = 8)) ∧ (da % n = 0) ∧
      (s.protectedPage (da / pageSize) = false) ∧ (s.poisonAt da = true)) ∧
    (∃ (s : State) (a : W64) (n : Nat) (da : Nat), (s.unlocked 2 = true) ∧ (bit a.toNat 63 = false) ∧
      (da = a.toNat % 2 ^ 48) ∧ (s.home da ≠ .none) ∧ ((n = 4 ∨ n = 8)) ∧ (da % n = 0) ∧
      (s.protectedPage (da / pageSize) = false) ∧ (s.held = []) ∧ (da + n ≤ flashBase)) ∧
    (∃ (s : State) (a : W64) (n : Nat) (da : Nat) (e : Nat), (s.unlocked 2 = true) ∧ (bit a.toNat 63 = false) ∧
      (da = a.toNat % 2 ^ 48) ∧ ((s.home da = .none ∧ e = 2 ∨ s.home da ≠ .none ∧ n ≠ 4 ∧ n ≠ 8 ∧
      e = 4 ∨ s.home da ≠ .none ∧ (n = 4 ∨ n = 8) ∧ da % n ≠ 0 ∧ e = 3 ∨ s.home da ≠ .none ∧ (n = 4 ∨ n = 8) ∧
      da % n = 0 ∧ s.protectedPage (da / pageSize) = true ∧ e = 7))) ∧
    (∃ (s : State) (a : W64) (n : Nat) (r : Nat) (e : Nat) (w : Option W64), (s.unlocked 2 = true) ∧
      (bit a.toNat 63 = true) ∧ (r = a.toNat % 2 ^ 32) ∧ ((pageOf r = none ∧ e = 2 ∨ pageOf r ≠ none ∧ n ≠ 4 ∧
      e = 4 ∨ pageOf r ≠ none ∧ n = 4 ∧ r % 4 ≠ 0 ∧ e = 3 ∨ pageOf r ≠ none ∧ n = 4 ∧ r % 4 = 0 ∧ w.isSome = true ∧
      secKeyReg r = true ∧ e = 7))) ∧
    (∃ (s : State) (a : W64) (r : Nat), (s.unlocked 2 = true) ∧ (bit a.toNat 63 = true) ∧ (r = a.toNat % 2 ^ 32) ∧
      (pageOf r ≠ none) ∧ (r % 4 = 0)) ∧
    (∃ (s : State) (a : W64) (r : Nat), (s.unlocked 2 = true) ∧ (bit a.toNat 63 = true) ∧ (r = a.toNat % 2 ^ 32) ∧
      (pageOf r ≠ none) ∧ (r % 4 = 0) ∧ (secKeyReg r = false)) :=
  ⟨⟨z, by decide +kernel⟩,
   ⟨(zDbg 4 {}), 8, 8, 8, by decide +kernel, by decide +kernel, by decide +kernel, by decide +kernel,
     by decide +kernel, by decide +kernel, by decide +kernel, by decide +kernel⟩,
   ⟨({ zDbg 4 {} with memPoison := [0] }), 8, 8, 8, by decide +kernel, by decide +kernel, by decide +kernel,
     by decide +kernel, by decide +kernel, by decide +kernel, by decide +kernel, by decide +kernel⟩,
   ⟨(zDbg 4 {}), 4, 4, 4, by decide +kernel, by decide +kernel, by decide +kernel, by decide +kernel,
     by decide +kernel, by decide +kernel, by decide +kernel, by decide +kernel, by decide +kernel⟩,
   ⟨(zDbg 4 {}), 4, 8, 4, 3, by decide +kernel, by decide +kernel, by decide +kernel, by decide +kernel⟩,
   ⟨(zDbg 4 {}), 0x8000000000009000, 4, 0x9000, 2, none, by decide +kernel, by decide +kernel, by decide +kernel,
     by decide +kernel⟩,
   ⟨(zDbg 4 {}), 0x8000000000000040, 0x40, by decide +kernel, by decide +kernel, by decide +kernel,
     by decide +kernel, by decide +kernel⟩,
   ⟨(zDbg 4 {}), 0x8000000000000040, 0x40, by decide +kernel, by decide +kernel, by decide +kernel,
     by decide +kernel, by decide +kernel, by decide +kernel⟩⟩

/-- Witnesses for the hypotheses of SidebandRequestsAnswerAndHoldResults. -/
theorem witness_SidebandRequestsAnswerAndHoldResults :
    (∃ (s : State) (f : List Byte) (a : Nat), (s.sideUp = true) ∧ (a = numAt f 1 4) ∧ (f.length = 5) ∧
      (f.head? = some 0x01) ∧ (s.fw.booted = true) ∧ (sideReads a = true)) ∧
    (∃ (s : State) (f : List Byte) (a : Nat), (s.sideUp = true) ∧ (a = numAt f 1 4) ∧ (f.length = 5) ∧
      (f.head? = some 0x01) ∧ (s.fw.booted = true) ∧ (sideReads a = false)) ∧
    (∃ (s : State) (f : List Byte) (a : Nat), (s.sideUp = true) ∧ (a = numAt f 1 4) ∧ (f.length = 5) ∧
      (f.head? = some 0x01) ∧ (s.fw.booted = false)) ∧
    (∃ (s : State) (f : List Byte) (a : Nat), (s.sideUp = true) ∧ (a = numAt f 1 4) ∧ (f.length = 9) ∧
      (f.head? = some 0x02) ∧ (s.fw.booted = true) ∧ (sideWrites a = true)) ∧
    (∃ (s : State) (f : List Byte) (a : Nat), (s.sideUp = true) ∧ (a = numAt f 1 4) ∧ (f.length = 9) ∧
      (f.head? = some 0x02) ∧ (s.fw.booted = true) ∧ (sideWrites a = false)) ∧
    (∃ (s : State) (f : List Byte) (a : Nat), (s.sideUp = true) ∧ (a = numAt f 1 4) ∧ (f.length = 9) ∧
      (f.head? = some 0x02) ∧ (s.fw.booted = false)) ∧
    (∃ (s : State) (f : List Byte) (a : Nat), (s.sideUp = true) ∧ (a = numAt f 1 4) ∧
      ((f.length ≠ 5 ∨ f.head? ≠ some 0x01)) ∧ ((f.length ≠ 9 ∨ f.head? ≠ some 0x02))) ∧
    (∃ (s : State) (f : List Byte) (a : Nat), (s.sideUp = true) ∧ (a = numAt f 1 4) ∧
      ((f.length ≠ 5 ∨ f.head? ≠ some 0x01)) ∧ ((f.length ≠ 9 ∨ f.head? ≠ some 0x02))) ∧
    (∃ (s : State) (r : _) (v : _), (s.sideUp = true) ∧ (s.side.result = some (r, v))) ∧
    (∃ (s : State), (s.sideUp = true) ∧ (s.side.result = none)) ∧
    (∃ (s : State), (s.sideUp = true)) ∧
    (∃ (s : State), (s.sideUp = false)) ∧
    (∃ (s : State), (s.pwr.regulators = true)) ∧
    (∃ (s : State), (s.pwr.regulators = true) ∧ (s.side.addr = none)) ∧
    (∃ (s : State) (b : _), (s.pwr.regulators = true) ∧ (s.side.addr = none) ∧ (b ≠ 0x3A)) ∧
    (∃ (s : State), (s.pwr.regulators = true) ∧ (s.side.addr ≠ none)) :=
  ⟨⟨(zSide {}), ([1, 0x40, 0, 0, 0]), 0x40, by decide +kernel, by decide +kernel, by decide +kernel,
     by decide +kernel, by decide +kernel, by decide +kernel⟩,
   ⟨(zSide {}), ([1, 0, 0x50, 0, 0]), 0x5000, by decide +kernel, by decide +kernel, by decide +kernel,
     by decide +kernel, by decide +kernel, by decide +kernel⟩,
   ⟨({ zSide {} with fw := {} }), ([1, 0x40, 0, 0, 0]), 0x40, by decide +kernel, by decide +kernel,
     by decide +kernel, by decide +kernel, by decide +kernel⟩,
   ⟨(zSide {}), (2 :: leBytes 4 (regAddr .link 0 Reg.link_linkCtrl) ++ [1, 0, 0, 0]),
     (regAddr .link 0 Reg.link_linkCtrl), by decide +kernel, by decide +kernel, by decide +kernel, by decide +kernel,
     by decide +kernel, by decide +kernel⟩,
   ⟨(zSide {}), ([2, 0x40, 0, 0, 0, 1, 0, 0, 0]), 0x40, by decide +kernel, by decide +kernel, by decide +kernel,
     by decide +kernel, by decide +kernel, by decide +kernel⟩,
   ⟨({ zSide {} with fw := {} }), ([2, 0x40, 0, 0, 0, 1, 0, 0, 0]), 0x40, by decide +kernel, by decide +kernel,
     by decide +kernel, by decide +kernel, by decide +kernel⟩,
   ⟨(zSide {}), ([1, 0, 0, 0]), 0, by decide +kernel, by decide +kernel, by decide +kernel, by decide +kernel⟩,
   ⟨(zSide {}), ([]), 0, by decide +kernel, by decide +kernel, by decide +kernel, by decide +kernel⟩,
   ⟨(zSide { result := some (3, 4) }), 3, 4, by decide +kernel, by decide +kernel⟩,
   ⟨(zSide {}), by decide +kernel, by decide +kernel⟩,
   ⟨(zSide {}), by decide +kernel⟩,
   ⟨z, by decide +kernel⟩,
   ⟨z, by decide +kernel⟩,
   ⟨z, by decide +kernel, by decide +kernel⟩,
   ⟨z, 0, by decide +kernel, by decide +kernel, by decide +kernel⟩,
   ⟨(zSide {}), by decide +kernel, by decide +kernel⟩⟩

/-- Witnesses for the hypotheses of InBandInterruptsTellTheLowestCode. -/
theorem witness_InBandInterruptsTellTheLowestCode :
    (∃ (s : State) (k : Nat), (s.sideUp = true) ∧
      ((k = if s.side.mgrConflict then 1 else if s.side.posRange then 2 else if s.faultN then 3 else if s.pwr.inputWarning then 4 else 0)) ∧
      (s.side.events = true) ∧ (k ≠ 0)) ∧
    (∃ (s : State) (k : Nat), (s.sideUp = true) ∧
      ((k = if s.side.mgrConflict then 1 else if s.side.posRange then 2 else if s.faultN then 3 else if s.pwr.inputWarning then 4 else 0)) ∧
      ((s.side.events = false ∨ k = 0))) ∧
    (∃ (s : State) (k : Nat), (s.sideUp = true) ∧
      ((k = if s.side.mgrConflict then 1 else if s.side.posRange then 2 else if s.faultN then 3 else if s.pwr.inputWarning then 4 else 0))) ∧
    (∃ (s : State), (s.sideUp = false)) :=
  ⟨⟨(zSide { events := true, mgrConflict := true }), 1, by decide +kernel, by decide +kernel, by decide +kernel,
     by decide +kernel⟩,
   ⟨(zSide { events := true }), 0, by decide +kernel, by decide +kernel, by decide +kernel⟩,
   ⟨(zSide { events := true, posRange := true }), 2, by decide +kernel, by decide +kernel⟩,
   ⟨z, by decide +kernel⟩⟩

/-- Witnesses for the hypotheses of RegisterWritesFollowTheirAccessTypes. -/
theorem witness_RegisterWritesFollowTheirAccessTypes :
    (∃ (s : State) (a : Nat) (o : Nat) (p : Pg) (i : Nat) (v : W32) (r : RegRow), (pageOf a = some (p, i)) ∧
      (a = regAddr p i o) ∧ (a % 4 = 0) ∧ (o = a % 0x1000) ∧ (p.rowAt i o = some r) ∧ (s.deadPage p i o = false) ∧
      ((r.mgr = false ∨ s.managerHere = true)) ∧ (o ≠ Reg.lock) ∧
      ((o < 0x40 ∨ ((s.hubWrite p o v.toNat r).or (s.unitWrite none p i o v.toNat r)) = none)) ∧
      ((0x40 ≤ o ∨ storeFlagged r (s.pageLocked p i) v.toNat = false))) ∧
    (∃ (s : State) (a : Nat) (o : Nat) (p : Pg) (i : Nat) (v : W32) (r : RegRow), (pageOf a = some (p, i)) ∧
      (a = regAddr p i o) ∧ (a % 4 = 0) ∧ (o = a % 0x1000) ∧ (p.rowAt i o = some r) ∧ (s.deadPage p i o = false) ∧
      ((r.mgr = false ∨ s.managerHere = true)) ∧ (o ≠ Reg.lock) ∧
      ((o < 0x40 ∨ ((s.hubWrite p o v.toNat r).or (s.unitWrite none p i o v.toNat r)) = none)) ∧
      (storeFlagged r (s.pageLocked p i) v.toNat = false)) ∧
    (∃ (s : State) (a : Nat) (o : Nat) (p : Pg) (i : Nat) (v : W32) (r : RegRow), (pageOf a = some (p, i)) ∧
      (a = regAddr p i o) ∧ (a % 4 = 0) ∧ (o = a % 0x1000) ∧ (p.rowAt i o = some r) ∧ (s.deadPage p i o = false) ∧
      ((r.mgr = false ∨ s.managerHere = true)) ∧ (o ≠ Reg.lock) ∧
      ((o < 0x40 ∨ ((s.hubWrite p o v.toNat r).or (s.unitWrite none p i o v.toNat r)) = none)) ∧
      (storeFlagged r (s.pageLocked p i) v.toNat = true) ∧ (0x40 ≤ o)) ∧
    (∃ (s : State) (a : Nat) (o : Nat) (p : Pg) (i : Nat) (v : W32) (r : RegRow), (pageOf a = some (p, i)) ∧
      (a = regAddr p i o) ∧ (a % 4 = 0) ∧ (o = a % 0x1000) ∧ (p.rowAt i o = some r) ∧ (s.deadPage p i o = false) ∧
      ((r.mgr = false ∨ s.managerHere = true)) ∧ (o ≠ Reg.lock) ∧
      ((o < 0x40 ∨ ((s.hubWrite p o v.toNat r).or (s.unitWrite none p i o v.toNat r)) = none)) ∧ (r.w1c ≠ 0) ∧
      ((0x40 ≤ o ∨ storeFlagged r (s.pageLocked p i) v.toNat = false))) ∧
    (∃ (a : Nat), (pageOf a = none)) ∧
    (∃ (p : Pg) (i : Nat), (pageOf (p.base i + Reg.lock) = some (p, i)) ∧ (p.base i % 0x1000 = 0)) :=
  ⟨⟨z, (regAddr .box 63 Reg.box_quotaArena), Reg.box_quotaArena, .box, 63, 1, (zRow .box 63 Reg.box_quotaArena),
     by decide +kernel, by decide +kernel, by decide +kernel, by decide +kernel, by decide +kernel,
     by decide +kernel, by decide +kernel, by decide +kernel, by decide +kernel, by decide +kernel⟩,
   ⟨z, (regAddr .box 63 Reg.box_quotaArena), Reg.box_quotaArena, .box, 63, 1, (zRow .box 63 Reg.box_quotaArena),
     by decide +kernel, by decide +kernel, by decide +kernel, by decide +kernel, by decide +kernel,
     by decide +kernel, by decide +kernel, by decide +kernel, by decide +kernel, by decide +kernel⟩,
   ⟨z, (regAddr .box 63 Reg.box_quotaArena), Reg.box_quotaArena, .box, 63, 0xFFFFFFFF,
     (zRow .box 63 Reg.box_quotaArena), by decide +kernel, by decide +kernel, by decide +kernel, by decide +kernel,
     by decide +kernel, by decide +kernel, by decide +kernel, by decide +kernel, by decide +kernel,
     by decide +kernel, by decide +kernel⟩,
   ⟨z, 0x18, 0x18, .hub, 0, 1, (zRow .hub 0 0x18), by decide +kernel, by decide +kernel, by decide +kernel,
     by decide +kernel, by decide +kernel, by decide +kernel, by decide +kernel, by decide +kernel,
     by decide +kernel, by decide +kernel, by decide +kernel⟩,
   ⟨0x9000, by decide +kernel⟩,
   ⟨.box, 63, by decide +kernel, by decide +kernel⟩⟩

/-- Witnesses for the hypotheses of MalformedAccessesMoveNoData. -/
theorem witness_MalformedAccessesMoveNoData :
    (∃ (a : Nat) (n : Nat) (p : Pg) (i : Nat), (pageOf a = some (p, i)) ∧ ((n ≠ 4 ∨ a % 4 ≠ 0))) ∧
    (∃ (a : Nat) (n : Nat) (p : Pg) (i : Nat), (pageOf a = some (p, i)) ∧ ((n ≠ 4 ∨ a % 4 ≠ 0))) ∧
    (∃ (s : State) (p : Pg) (i : Nat) (n : Nat) (k : Nat) (v : W64), (p.base i % 0x1000 = 0) ∧ (n < p.counters i) ∧
      (n < 128) ∧ ((k = 0x800 + 8 * n ∧ v = cellGet 0 s.ctr.latched (ctrKey p i n) ∨ k = 0xC00 + 8 * n ∧
      v = s.live p i n)) ∧ (pageOf (p.base i + k) = some (p, i)) ∧ (pageOf (p.base i + k + 4) = some (p, i)) ∧
      (s.deadPage p i k = false)) ∧
    (∃ (a : Nat), (pageOf a = none)) ∧
    (∃ (s : State) (a : Nat), (pageOf a = none) ∧ (s.regN .hub 0 Reg.errStat = 0)) :=
  ⟨⟨0x41, 4, .hub, 0, by decide +kernel, by decide +kernel⟩,
   ⟨0x40, 8, .hub, 0, by decide +kernel, by decide +kernel⟩,
   ⟨z, .hub, 0, 9, 0x848, 0, by decide +kernel, by decide +kernel, by decide +kernel, by decide +kernel,
     by decide +kernel, by decide +kernel, by decide +kernel⟩,
   ⟨0x9000, by decide +kernel⟩,
   ⟨z, 0x9000, by decide +kernel, by decide +kernel⟩⟩

/-- Witnesses for the hypotheses of VectorOperationsExecute, at FMA: one that runs, one that its checks stop. -/
theorem witness_VectorOperationsExecute :
    (∃ (s : State) (c n d a b : Nat) (x : Exec), s.clerkOp c n = some (.vxop d a b 0x04) ∧
      vxFma (s.execOf c) { d := (s.clerk c n).tile d, a := (s.clerk c n).tile a, b := (s.clerk c n).tile b
                           parm := (s.clerk c n).parm.toNat } = .ok x ∧ n < x.core.clerks.length) ∧
    (∃ (s : State) (c n d a b : Nat) (f : Fail), s.clerkOp c n = some (.vxop d a b 0x04) ∧
      vxFma (s.execOf c) { d := (s.clerk c n).tile d, a := (s.clerk c n).tile a, b := (s.clerk c n).tile b
                           parm := (s.clerk c n).parm.toNat } = .error f) :=
  ⟨⟨zRun (zCode (zW 4 3 2 6 1 0x0B)) { cbufNeed := 8 }, 0, 0, 1, 2, 3, _, by decide +kernel, rfl, by decide +kernel⟩,
   ⟨zRun (zCode (zW 4 3 2 6 1 0x0B)) {}, 0, 0, 1, 2, 3, _, by decide +kernel, rfl⟩⟩

/-! ### Tests on fixed values -/

/-- The state a command leaves. -/
def after (c : Instr) (s : State) : State := match exec c s with | .next t => t | _ => s

/-- The spec's worked example "one lane, one short group" (04): the group sum is 1,376,542 × 2⁻⁹. -/
theorem test_group_sum : f32 (laneGroup (groupF .e4m3)
    [(Fmt.e4m3.decode 0x7E).mul (Fmt.e2m1.decode 7), (Fmt.e4m3.decode 0x01).mul (Fmt.e2m1.decode 1),
     (Fmt.e4m3.decode 0x81).mul (Fmt.e2m1.decode 3), (Fmt.e4m3.decode 0x2C).mul (Fmt.e2m1.decode 3)]) =
    f32 (.fin false 1376542 (-9)) := by decide +kernel

/-- The same example's pigeonhole add: −2,688.5 and the group sum leave 15/256. -/
theorem test_pigeonhole_add : phAdd false (f32 (.fin true 5377 (-1))) (.fin false 1376542 (-9)) = f32 (.fin false 15 (-8)) := by
  decide +kernel

/-- FP32 rounds to nearest even: 1 + 2⁻²⁴ is 1, and (1 + 2⁻²³) + 2⁻²⁴ is 1 + 2⁻²² (R85). -/
theorem test_fadd_ties : fadd 0x3F800000 0x33800000 = 0x3F800000 ∧ fadd 0x3F800001 0x33800000 = 0x3F800002 := by
  decide +kernel

/-- Exact points of the transcendental functions. -/
theorem test_transcendentals : fexp 0 = 0x3F800000 ∧ flog 0x3F800000 = 0 ∧ frsqrt 0x40800000 = 0x3F000000 ∧
    frcp 0x40000000 = 0x3F000000 ∧ fsigmoid 0 = 0x3F000000 ∧ ftanh 0 = 0 :=
  ⟨by decide +kernel, by decide +kernel, by decide +kernel, by decide +kernel, by decide +kernel, by decide +kernel⟩

/-- The spec's worked example of DWCONV (08): the word's fields, and four taps in range at output (0, 0). -/
theorem test_window_word : Win.ofNat 0x001C_8FFF_F7CF_0012 =
    { accum := false, sub := 0, oh := 8, oy0 := 8, offX := -1, offY := -1, iw := 32, ih := 16, dx := 1, dy := 1, sx := 1,
      sy := 1, kw := 3, kh := 3 } ∧
    (winTaps { Win.ofNat 0x001C_8FFF_F7CF_0012 with oy0 := 0 } 0 0).length = 4 := by decide +kernel

/-- The spec's worked example "following a fence through the registers" (20): addresses and CORE_MAP5's reset value. -/
theorem test_register_addresses : regAddr .mxe 33 (0x800 + 2 * 8) = 0x0121_1810 ∧ regAddr .ctl 23 0x44 = 0x0117_0044 ∧
    regAddr .hub 0 (Reg.hub_coreMap + 4 * 5) = 0x0000_0074 ∧ State.reset.reg 0x74 = 0x1817_1615 := by decide +kernel

/-- The same example's write of CORE_MAP5: logical 22 moves from core 23 to spare 33. -/
theorem test_coreMapWrite : (after (.coreMapWrite 5 0x1821_1615)
    { cores := List.replicate 23 {} ++ [{ state := .fenced }] ++ List.replicate 9 {} ++ [{ state := .drained }] ++
               List.replicate 34 {} }).physical 22 = some 33 := by decide +kernel

/-- The spec's worked example "a long dip" (18): 9,600 stamps cut by a quarter are 7,200. -/
theorem test_longDip : (after (.longDip 2) { pwr := { rails := [{}, {}, { st := .warning }, {}] } }).pwr.dipNext = true ∧
    ({ budget := 9600, dipCut := true } : Power).effective = 7200 := by decide +kernel

/-- A LENGTHS request over a layer of 512 tokens, a grid 32 wide and a window of 63. -/
def ragged : Nat := 1 + (63 * 2 ^ 62 + 4 * 2 ^ 39 + 31 * 2 ^ 32 + 511 * 2 ^ 19) * 2 ^ 256
/-- The directory with frames 837 to 899 held and frame 900 pending. -/
def raggedDir : LayerDir := { layer := 0, valid := true, firstPage := 1674, endTok := 460800, pending := 512 }

/-- The spec's worked example "a ragged temporal step" (07), entry 0: LENGTHS at step 900 with frames 837 to 899 held and
frame 900 pending. -/
theorem test_lengths : ((after (.lengths 0 0)
    { zRun { state := .running, run := some zInst, courQ := [[.walk 0 ragged], [], [], []] } {} with
      places := [{ zPlA with stepCount := 900, dirs := [raggedDir] }] }).clerk 0 0).dmem.getRun 0 16 =
    leBytes 16 (900 * 2 ^ 96 + 32768 * 2 ^ 64 + 63 * 2 ^ 48 + 512 * 2 ^ 32 + 5) := by decide +kernel

/-- RV64: ADDI x1, x0, 1 and C.LI x1, 1 write 1 and move the pc by 4 and by 2. -/
theorem test_rv64_addi : ((after (.rv64imacInstruction 0 0) (zRun (zCode 0x00100093) {})).clerk 0 0).getX 1 = 1 ∧
    ((after (.rv64imacInstruction 0 0) (zRun (zCode 0x00100093) {})).clerk 0 0).pc = 0x20000004 ∧
    ((after (.rv64imacInstruction 0 0) (zRun (zCode 0x4085) {})).clerk 0 0).getX 1 = 1 ∧
    ((after (.rv64imacInstruction 0 0) (zRun (zCode 0x4085) {})).clerk 0 0).pc = 0x20000002 := by decide +kernel

/-- RV64: DIV by zero gives all ones. -/
theorem test_rv64_div_zero :
    ((after (.rv64imacInstruction 0 0) (zRun (zCode (zW 1 2 1 4 3 0x33)) {})).clerk 0 0).getX 3 = 0xFFFFFFFFFFFFFFFF := by
  decide +kernel

/-- A clerk finishes by ECALL (05). -/
theorem test_ecall : ((after (.ecall 0 0) (zRun (zCode 0x73) {})).clerk 0 0).finished = true := by decide +kernel

/-- FETCH_ADD adds in memory and answers what was there. -/
theorem test_fetchAdd : (after (.fetchAdd 8 5) { mem := [(8, 3)] }).byteAt 8 = 8 ∧
    (after (.fetchAdd 8 5) { mem := [(8, 3)] }).outbox = [.atomic 3 false] := by decide +kernel

/-- CAS with another value changes nothing. -/
theorem test_cas_differs : (after (.cas 8 4 5) { mem := [(8, 3)] }).mem = [(8, 3)] := by decide +kernel

/-- The throttle levels' first bounds: 85 °C is level 0, 86 °C level 1, 111 °C level 4. -/
theorem test_hbm_levels : ((after (.hbmTempReport 0 85) z).stack 0).level = 0 ∧
    ((after (.hbmTempReport 0 86) z).stack 0).level = 1 ∧ ((after (.hbmTempReport 0 111) z).stack 0).level = 4 := by
  decide +kernel

/-- Below 40 V the module keeps to 4,800 stamps (R408). -/
theorem test_inputWarning : (after (.inputWarning 39999) z).pwr.effective = 4800 := by decide +kernel

/-- A fence raises the incarnation by one. -/
theorem test_coreFence : ((after (.coreFence 67 1) z).core 67).state = .fenced ∧
    ((after (.coreFence 67 1) z).core 67).incarnation = 1 := by decide +kernel

/-- HELLO with 0x10 to 0x12 opens a session of version 0x12 on stepping B0. -/
theorem test_hello : ((after (.hello { length := 2 } 0x10 0x12)
    { zHost {} with host := {} }).host.sessions.map (·.version)) = [0x12] := by decide +kernel

/-- SQ_TAIL moves the ring's tail. -/
theorem test_sqTail : (((after (.sqTail 0 7 62) (zRo { subs := [⟨7, 0, 64, 60, 60⟩] })).box 0).subs.map (·.tail)) = [62] := by
  decide +kernel

/-- A component that faults restarts. -/
theorem test_componentFault : ((after (.componentFault 5 6 0 0) (zFw { st := .running })).comp 5).st = .restarting := by
  decide +kernel

/-- A token of a wrong length is refused. -/
theorem test_token_refused : (after .tokenCheckDone (after (.token []) z)).sec.tokenRes = .refused := by decide +kernel

/-- A record that is accepted takes the next number. -/
theorem test_recordAccept : (after .recordAccept (zLog { queue := [zRec .error] })).log.next = 1 ∧
    (after .recordAccept (zLog { queue := [zRec .error] })).log.ring.length = 1 := by decide +kernel

/-- IDCODE of stepping B0 (19). -/
theorem test_idcode : (after .idcode z).test.dr = 0x14A6_476F ∧ (after .idcode { stepping := .A1 }).test.dr = 0x04A6_476F := by
  decide +kernel

/-- SETDASA to the module's static address. -/
theorem test_setdasa : (after (.setdasa 0x3A 9) z).side.addr = some 9 ∧ (after (.setdasa 0x3B 9) z).side.addr = none := by
  decide +kernel

/-- A register write of QUOTA_ARENA holds. -/
theorem test_registerWrite : (after (.registerWrite (regAddr .box 63 Reg.box_quotaArena) 4 5) z).arenaQuota 63 = 5 * mib := by
  decide +kernel

/-- A neighbour in a 64-module system: eastward from 3 wraps to 0, upward from 48 wraps to 0 (R274). -/
theorem test_neighbour : neighbour 64 3 0 = 0 ∧ neighbour 64 48 4 = 0 ∧ neighbour 32 0 4 = 16 ∧ neighbour 64 0 3 = 12 := by
  decide +kernel

/-- An empty queue leaves the state as it is. -/
theorem test_idle : step z = .next z := rfl

end
end

section
/-! Register writes (R6, R435, R436): what the word arithmetic of a store does bit by bit, which registers a flag and a store
change, and when a write only stores. -/

namespace Sys2Proof.Machine

/-! ### Bits of a stored word -/

theorem bit_eq_testBit (x k : Nat) : bit x k = x.testBit k := by
  rw [Nat.testBit_eq_decide_div_mod_eq, bit, Nat.shiftRight_eq_div_pow]
  rfl

theorem and_add_ldiff (v m : Nat) : (v &&& m) + v.ldiff m = v := by
  induction v using Nat.binaryRec generalizing m with
  | zero => rw [Nat.zero_and, Nat.zero_add]; exact Nat.eq_of_testBit_eq (by simp [Nat.testBit_ldiff])
  | bit b n ih =>
    cases m using Nat.bitCasesOn with
    | bit c m =>
      have := ih m
      rw [Nat.land_bit, Nat.ldiff_bit]
      simp only [Nat.bit_val]
      cases b <;> cases c <;> simp <;> omega

theorem outside_eq_ldiff (v m : Nat) : outside v m = v.ldiff m := by
  have := and_add_ldiff v m
  unfold outside
  omega

@[simp] theorem testBit_outside (v m k : Nat) : (outside v m).testBit k = (v.testBit k && !m.testBit k) := by
  rw [outside_eq_ldiff, Nat.testBit_ldiff]

/-- R6, bit by bit. -/
theorem testBit_storedWord (r : RegRow) (locked : Bool) (old v k : Nat) :
    (storedWord r locked old v).testBit k =
      ((if bit r.rw k || (bit r.rwl k && !locked) then v.testBit k else old.testBit k) &&
        !(bit r.w1c k && v.testBit k)) := by
  have hm : (if locked then r.rw else r.rw ||| r.rwl).testBit k = (bit r.rw k || (bit r.rwl k && !locked)) := by
    cases locked <;> simp [bit_eq_testBit]
  simp only [storedWord, testBit_outside, Nat.testBit_or, Nat.testBit_and, hm, bit_eq_testBit r.w1c]
  cases (bit r.rw k || (bit r.rwl k && !locked)) <;> cases r.w1c.testBit k <;> cases v.testBit k <;> simp

/-! ### The registers that a flag and a store change -/

@[simp] theorem regAddr_inj (p : Pg) (i o o' : Nat) : regAddr p i o = regAddr p i o' ↔ o = o' := Nat.add_left_cancel_iff

theorem OtherRegs.refl (as : List Nat) (s : State) : OtherRegs as s s := fun _ _ => rfl

theorem OtherRegs.trans {as : List Nat} {s t u : State} (h : OtherRegs as s t) (k : OtherRegs as t u) : OtherRegs as s u :=
  fun a ha => (k a ha).trans (h a ha)

theorem OtherRegs.mono {as bs : List Nat} {s t : State} (h : OtherRegs as s t) (hs : as ⊆ bs) : OtherRegs bs s t :=
  fun a ha => h a (fun hm => ha (hs hm))

theorem OtherRegs.regN {as : List Nat} {s t : State} (h : OtherRegs as s t) {p : Pg} {i o : Nat} (ho : regAddr p i o ∉ as) :
    t.regN p i o = s.regN p i o := congrArg BitVec.toNat (h _ ho)

theorem OtherRegs.pageLocked {as : List Nat} {s t : State} (h : OtherRegs as s t) {p : Pg} {i : Nat}
    (ho : regAddr p i Reg.lock ∉ as) : t.pageLocked p i = s.pageLocked p i := congrArg (bit · 0) (h.regN ho)

theorem State.otherRegs_setReg (s : State) (a : Nat) (v : W32) : OtherRegs [a] s (s.setReg a v) :=
  fun _ hb => s.reg_setReg_ne v (List.ne_of_not_mem_cons hb)

theorem State.otherRegs_orReg (s : State) (p : Pg) (i o m : Nat) : OtherRegs [regAddr p i o] s (s.orReg p i o m) :=
  s.otherRegs_setReg _ _

/-- The registers in which a page's flags stand (R436, R437). -/
abbrev flagRegs (p : Pg) (i : Nat) : List Nat :=
  [regAddr p i Reg.intStat, regAddr p i Reg.errStat, regAddr p i Reg.errInfo]

theorem lock_notMem_flagRegs (p : Pg) (i : Nat) : regAddr p i Reg.lock ∉ flagRegs p i := by simp

theorem notMem_flagRegs {p : Pg} {i o : Nat} (h : 0x40 ≤ o) : regAddr p i o ∉ flagRegs p i := by
  simp only [List.mem_cons, List.not_mem_nil, regAddr_inj, Reg.intStat, Reg.errStat, Reg.errInfo,
    or_false, not_or]
  omega

theorem State.otherRegs_changed (s : State) (p : Pg) (i : Nat) : OtherRegs (flagRegs p i) s (s.changed p i) :=
  (s.otherRegs_orReg p i Reg.intStat 0x100).mono (by simp)

theorem State.otherRegs_flag (s : State) (p : Pg) (i b kind loc : Nat) :
    OtherRegs (flagRegs p i) s (s.flag p i b kind loc) := by
  unfold State.flag
  extract_lets old t u
  have ht : OtherRegs (flagRegs p i) s t := by
    unfold t
    split
    · exact (s.otherRegs_setReg _ _).mono (by simp)
    · exact OtherRegs.refl _ _
  have hu : OtherRegs (flagRegs p i) t u := by
    unfold u
    split
    · exact OtherRegs.refl _ _
    · exact (t.otherRegs_orReg _ _ _ _).mono (by simp)
  exact (ht.trans hu).trans ((u.otherRegs_orReg _ _ _ _).mono (by simp))

theorem State.bit_errStat_flag (s : State) (p : Pg) (i kind loc : Nat) {b : Nat} (hb : b < 32) :
    bit ((s.flag p i b kind loc).regN p i Reg.errStat) b = true := by
  unfold State.flag
  extract_lets old t u
  rw [bit_eq_testBit, State.regN, BitVec.testBit_toNat, State.reg_orReg, if_pos rfl, BitVec.getLsbD_or,
    BitVec.getLsbD_ofNat, Nat.testBit_two_pow_self]
  simp [hb]

/-! ### What a store leaves -/

section Store
variable (s : State) (p : Pg) (i o : Nat) (r : RegRow) (v : Nat)

/-- The state in which a store's word is computed: the write is flagged where it is to be. -/
def State.flagStore : State :=
  if storeFlagged r (s.pageLocked p i) v then s.flagAccess p i (regAddr p i o) true else s

/-- That state with the word stored. -/
def State.putWord : State :=
  (s.flagStore p i o r v).setReg (regAddr p i o)
    (BitVec.ofNat 32 (storedWord r (s.pageLocked p i) ((s.flagStore p i o r v).regN p i o) v))

theorem State.storeReg_eq : s.storeReg p i o r v =
    if (s.putWord p i o r v).pageLocked p i = s.pageLocked p i then s.putWord p i o r v
    else (s.putWord p i o r v).changed p i := rfl

variable {s p i o r v}

theorem State.flagStore_of_unflagged (h : storeFlagged r (s.pageLocked p i) v = false) : s.flagStore p i o r v = s :=
  if_neg (by simp [h])

variable (s p i o r v) in
theorem State.otherRegs_flagStore : OtherRegs (flagRegs p i) s (s.flagStore p i o r v) := by
  unfold State.flagStore
  split
  · exact s.otherRegs_flag _ _ _ _ _
  · exact OtherRegs.refl _ _

/-- Only a store of LOCK changes the lock, so that no other store moves STATUS. -/
theorem State.storeReg_of_ne_lock (h : o ≠ Reg.lock) : s.storeReg p i o r v = s.putWord p i o r v := by
  have hput : OtherRegs [regAddr p i o] (s.flagStore p i o r v) (s.putWord p i o r v) := State.otherRegs_setReg _ _ _
  have hlock : (s.putWord p i o r v).pageLocked p i = s.pageLocked p i :=
    (hput.pageLocked (by simpa using h.symm)).trans
      ((s.otherRegs_flagStore p i o r v).pageLocked (lock_notMem_flagRegs p i))
  rw [State.storeReg_eq, if_pos hlock]

theorem State.reg_storeReg_of_ne_lock (h : o ≠ Reg.lock)
    (hf : 0x40 ≤ o ∨ storeFlagged r (s.pageLocked p i) v = false) :
    (s.storeReg p i o r v).reg (regAddr p i o) =
      BitVec.ofNat 32 (storedWord r (s.pageLocked p i) (s.regN p i o) v) := by
  have hold : (s.flagStore p i o r v).regN p i o = s.regN p i o := by
    rcases hf with ho | hf
    · exact (s.otherRegs_flagStore p i o r v).regN (notMem_flagRegs ho)
    · rw [State.flagStore_of_unflagged hf]
  rw [State.storeReg_of_ne_lock h, State.putWord, State.reg_setReg_same, hold]

theorem State.reg_storeReg_lock :
    (s.storeReg p i Reg.lock r v).reg (regAddr p i Reg.lock) =
      BitVec.ofNat 32 (storedWord r (s.pageLocked p i) (s.regN p i Reg.lock) v) := by
  have hput : (s.putWord p i Reg.lock r v).reg (regAddr p i Reg.lock) =
      BitVec.ofNat 32 (storedWord r (s.pageLocked p i) (s.regN p i Reg.lock) v) := by
    rw [State.putWord, State.reg_setReg_same,
      (s.otherRegs_flagStore p i Reg.lock r v).regN (lock_notMem_flagRegs p i)]
  rw [State.storeReg_eq, ← hput]
  split
  · rfl
  · exact State.otherRegs_changed _ p i _ (lock_notMem_flagRegs p i)

/-- R6 for the register itself. -/
theorem State.getLsbD_storeReg {w : W32} (h : o ≠ Reg.lock)
    (hf : 0x40 ≤ o ∨ storeFlagged r (s.pageLocked p i) w.toNat = false) {k : Nat} (hk : k < 32) :
    ((s.storeReg p i o r w.toNat).reg (regAddr p i o)).getLsbD k =
      ((if bit r.rw k || (bit r.rwl k && !s.pageLocked p i) then w.getLsbD k else (s.reg (regAddr p i o)).getLsbD k) &&
        !(bit r.w1c k && w.getLsbD k)) := by
  rw [State.reg_storeReg_of_ne_lock h hf, BitVec.getLsbD_ofNat, testBit_storedWord, State.regN, BitVec.testBit_toNat,
    BitVec.testBit_toNat]
  simp [hk]

theorem State.otherRegs_storeReg_of_unflagged (h : o ≠ Reg.lock)
    (hf : storeFlagged r (s.pageLocked p i) v = false) : OtherRegs [regAddr p i o] s (s.storeReg p i o r v) := by
  rw [State.storeReg_of_ne_lock h, State.putWord, State.flagStore_of_unflagged hf]
  exact State.otherRegs_setReg _ _ _

variable (s r v) in
theorem State.otherRegs_storeReg (h : o ≠ Reg.lock) :
    OtherRegs (regAddr p i o :: flagRegs p i) s (s.storeReg p i o r v) := by
  rw [State.storeReg_of_ne_lock h]
  exact ((s.otherRegs_flagStore p i o r v).mono (by simp)).trans ((State.otherRegs_setReg _ _ _).mono (by simp))

theorem State.bit_errStat_storeReg (h : 0x40 ≤ o) (hf : storeFlagged r (s.pageLocked p i) v = true) :
    bit ((s.storeReg p i o r v).regN p i Reg.errStat) 0 = true := by
  have hput : OtherRegs [regAddr p i o] (s.flagStore p i o r v) (s.putWord p i o r v) := State.otherRegs_setReg _ _ _
  have hlock : o ≠ Reg.lock := by simp only [Reg.lock]; omega
  have herr : regAddr p i Reg.errStat ∉ [regAddr p i o] := by
    simp only [List.mem_singleton, regAddr_inj, Reg.errStat]
    omega
  rw [State.storeReg_of_ne_lock hlock, hput.regN herr, State.flagStore, if_pos hf]
  exact s.bit_errStat_flag p i _ _ (by decide)

variable (s p i o r v) in
/-- A store reaches the registers alone. -/
theorem State.frame_storeReg : Frame [.regs] s (s.storeReg p i o r v) :=
  (State.storeReg_leads Leads.refl (List.Subset.refl _)).frame

end Store

/-! ### Writes that only store -/

/-- The write of `v` to address `a` meets a register of a page that takes it and does nothing but store it (R6, R435). -/
structure State.StoresOnly (s : State) (a : Nat) (p : Pg) (i o : Nat) (r : RegRow) (v : Nat) : Prop where
  page : pageOf a = some (p, i)
  addr : a = regAddr p i o
  aligned : a % 4 = 0
  offset : o = a % 0x1000
  row : p.rowAt i o = some r
  awake : s.deadPage p i o = false
  manager : r.mgr = false ∨ s.managerHere = true
  plain : o < 0x40 ∨ (s.hubWrite p o v r).or (s.unitWrite none p i o v r) = none

section Writes
variable {s : State} {a i o : Nat} {p : Pg} {r : RegRow} {v : W32}

theorem State.StoresOnly.regWrite_eq {n : Nat} (h : s.StoresOnly a p i o r n) :
    s.regWrite none a 4 n = s.storeReg p i o r n := by
  obtain ⟨hpage, -, haligned, hoffset, hrow, hawake, hmanager, hplain⟩ := h
  have hact : (if o < 0x40 then none else (s.hubWrite p o n r).or (s.unitWrite none p i o n r)) = none := by
    split
    · rfl
    · exact hplain.resolve_left ‹_›
  have hmgr : (r.mgr && o != Reg.link_fabCmd && !s.managerHere) = false := by
    rcases hmanager with hm | hm <;> simp [hm]
  simp [State.regWrite, hpage, haligned, ← hoffset, State.writePageReg, hrow, hawake, hmgr, hact]

theorem State.StoresOnly.exec_registerWrite (h : s.StoresOnly a p i o r v.toNat) :
    exec (.registerWrite a 4 v) s = .next (s.storeReg p i o r v.toNat) := congrArg Host.Outcome.next h.regWrite_eq

theorem State.StoresOnly.exec_w1cWrite (h : s.StoresOnly a p i o r v.toNat) (hc : r.w1c ≠ 0) (hw : W32) :
    exec (.w1cWrite a v hw) s = .next ((s.storeReg p i o r v.toNat).setReg a
      ((s.storeReg p i o r v.toNat).reg a ||| (hw &&& BitVec.ofNat 32 r.w1c))) := by
  change execW1cWrite a v hw s = _
  simp [execW1cWrite, h.page, ← h.offset, h.row, hc, h.aligned, h.regWrite_eq]

theorem exec_w1cWrite_of_no_page (h : pageOf a = none) (hw : W32) :
    exec (.w1cWrite a v hw) s = exec (.registerWrite a 4 v) s := by
  change execW1cWrite a v hw s = execRegisterWrite a 4 v s
  simp [execW1cWrite, execRegisterWrite, State.regWrite, h]

/-- R6, R435: what hardware sets in the cycle of the write wins over the write's clearing. -/
theorem State.StoresOnly.w1cWrite_keeps_hardware_bit (h : s.StoresOnly a p i o r v.toNat) (ho : o ≠ Reg.lock)
    (hf : 0x40 ≤ o ∨ storeFlagged r (s.pageLocked p i) v.toNat = false) (hc : r.w1c ≠ 0) (hw : W32) :
    ∃ t, exec (.w1cWrite a v hw) s = .next t ∧
      ∀ k, k < 32 → bit r.w1c k = true → bit r.rw k = false → bit r.rwl k = false →
        (t.reg a).getLsbD k = (hw.getLsbD k || ((s.reg a).getLsbD k && !v.getLsbD k)) := by
  refine ⟨_, h.exec_w1cWrite hc hw, fun k hk hw1c hrw hrwl => ?_⟩
  have hmask : (BitVec.ofNat 32 r.w1c).getLsbD k = true := by
    rw [BitVec.getLsbD_ofNat, ← bit_eq_testBit, hw1c]
    simpa using hk
  have hstored : ((s.storeReg p i o r v.toNat).reg a).getLsbD k = ((s.reg a).getLsbD k && !v.getLsbD k) := by
    rw [h.addr, State.getLsbD_storeReg ho hf hk]
    simp [hrw, hrwl, hw1c]
  rw [State.reg_setReg_same, BitVec.getLsbD_or, BitVec.getLsbD_and, hmask, hstored, Bool.and_true, Bool.or_comm]

end Writes

/-! ### The lock of a page (R436, R439) -/

/-- The row of LOCK. -/
def lockRow : RegRow := { off := Reg.lock, rwl := 1 }

theorem rowAt_lock (p : Pg) (i : Nat) : p.rowAt i Reg.lock = some lockRow := rfl

section Lock
variable {s : State} {p : Pg} {i : Nat}

/-- A write of LOCK only stores, whatever the page. -/
theorem State.storesOnly_lock (hpage : pageOf (p.base i + Reg.lock) = some (p, i)) (hbase : p.base i % 0x1000 = 0) (v : Nat) :
    s.StoresOnly (p.base i + Reg.lock) p i Reg.lock lockRow v where
  page := hpage
  addr := rfl
  aligned := by show (p.base i + 0x2C) % 4 = 0; omega
  offset := by show 0x2C = (p.base i + 0x2C) % 0x1000; omega
  row := rowAt_lock p i
  awake := by simp [State.deadPage, Reg.lock]
  manager := .inl rfl
  plain := .inl (by decide)

theorem State.pageLocked_storeReg_lock (v : Nat) :
    (s.storeReg p i Reg.lock lockRow v).pageLocked p i = (s.pageLocked p i || v.testBit 0) := by
  have hold : (s.regN p i Reg.lock).testBit 0 = s.pageLocked p i := (bit_eq_testBit _ _).symm
  rw [State.pageLocked, State.regN, State.reg_storeReg_lock, bit_eq_testBit, BitVec.testBit_toNat, BitVec.getLsbD_ofNat,
    testBit_storedWord, hold]
  have hrow : bit lockRow.rw 0 = false ∧ bit lockRow.rwl 0 = true ∧ bit lockRow.w1c 0 = false := by decide
  cases h : s.pageLocked p i <;> simp [hrow]

theorem exec_lockWrite (hpage : pageOf (p.base i + Reg.lock) = some (p, i)) (hbase : p.base i % 0x1000 = 0) :
    exec (.lockWrite (p.base i)) s = .next (s.storeReg p i Reg.lock lockRow 1) := by
  have hpg : p.base i / 0x1000 * 0x1000 = p.base i := by omega
  change execLockWrite (p.base i) s = _
  rw [execLockWrite, hpg, (State.storesOnly_lock hpage hbase 1).regWrite_eq]

end Lock

/-- Settles O59: a write that only stores is `State.storeReg`, whose word R6 gives bit by bit. -/
theorem registerWritesFollowTheirAccessTypes : Obligations.RegisterWritesFollowTheirAccessTypes := by
  refine ⟨?stores, fun s a v hw h => exec_w1cWrite_of_no_page h hw, ?locks⟩
  case stores =>
    intro s a o p i v r hpage haddr haligned hoffset hrow hawake hmanager ho hplain
    have h : s.StoresOnly a p i o r v.toNat := ⟨hpage, haddr, haligned, hoffset, hrow, hawake, hmanager, hplain⟩
    have hframe : Frame [.regs] s (s.storeReg p i o r v.toNat) := s.frame_storeReg p i o r v.toNat
    refine ⟨fun hf => ⟨_, h.exec_registerWrite, hframe.log (by decide), hframe.ctr (by decide), fun k hk => ?_⟩,
      fun hf => ⟨_, h.exec_registerWrite, ?_⟩, fun hf hblock => ⟨_, h.exec_registerWrite, ?_, ?_⟩,
      fun hw hc hf => h.w1cWrite_keeps_hardware_bit ho hf hc hw⟩
    · rw [haddr]
      exact State.getLsbD_storeReg ho hf hk
    · rw [haddr]
      exact State.otherRegs_storeReg_of_unflagged ho hf
    · exact State.bit_errStat_storeReg hblock hf
    · rw [haddr]
      exact s.otherRegs_storeReg r v.toNat ho
  case locks =>
    intro s p i hpage hbase
    refine ⟨⟨_, exec_lockWrite hpage hbase, by simp [State.pageLocked_storeReg_lock]⟩, fun v hlocked =>
      ⟨_, (State.storesOnly_lock hpage hbase v.toNat).exec_registerWrite, ?_⟩⟩
    simp [State.pageLocked_storeReg_lock, hlocked]

end Sys2Proof.Machine
end

section
/-! Every command of the table completes within its frame and keeps the invariant, from the laws of the single commands. -/

namespace Sys2Proof.Machine

-- one theorem after the other: proofs that wait together take too many threads
set_option Elab.async false

/-- Every command leads to a next state, changes at most the parts that `touches` lists and keeps the invariant: each
command's own law, one by one. -/
theorem exec_leads (c : Instr) (s : State) : LeadsA (touches c) s (exec c s) :=
  match c with
  | .openGroup _ => execOpenGroup_leads .refl (List.Subset.refl _)
  | .fork _ => execFork_leads .refl (List.Subset.refl _)
  | .step _ => execStep_leads .refl (List.Subset.refl _)
  | .stepCommit _ _ => execStepCommit_leads .refl (List.Subset.refl _)
  | .boundaryCull _ => execBoundaryCull_leads .refl (List.Subset.refl _)
  | .cull _ => execCull_leads .refl (List.Subset.refl _)
  | .endStreams _ => execEndStreams_leads .refl (List.Subset.refl _)
  | .closeGroup _ => execCloseGroup_leads .refl (List.Subset.refl _)
  | .park _ => execPark_leads .refl (List.Subset.refl _)
  | .recall _ => execRecall_leads .refl (List.Subset.refl _)
  | .backward _ => execBackward_leads .refl (List.Subset.refl _)
  | .kernel _ => execKernel_leads .refl (List.Subset.refl _)
  | .sync _ => execSync_leads .refl (List.Subset.refl _)
  | .ringEntryTake _ _ => execRingEntryTake_leads .refl (List.Subset.refl _)
  | .deadlineReached _ => execDeadlineReached_leads .refl (List.Subset.refl _)
  | .instancePlace _ _ => execInstancePlace_leads .refl (List.Subset.refl _)
  | .instanceStart _ => execInstanceStart_leads .refl (List.Subset.refl _)
  | .instanceEnd _ => execInstanceEnd_leads .refl (List.Subset.refl _)
  | .instanceSteal _ => execInstanceSteal_leads .refl (List.Subset.refl _)
  | .kernelWatchdog _ => execKernelWatchdog_leads .refl (List.Subset.refl _)
  | .tdld _ _ => execTdld_leads .refl (List.Subset.refl _)
  | .tdst _ _ => execTdst_leads .refl (List.Subset.refl _)
  | .tdset _ _ => execTdset_leads .refl (List.Subset.refl _)
  | .mxwl _ _ => execMxwl_leads .refl (List.Subset.refl _)
  | .shadowReadySet _ => execShadowReadySet_leads .refl (List.Subset.refl _)
  | .mxmul _ _ => execMxmul_leads .refl (List.Subset.refl _)
  | .bankSwap _ => execBankSwap_leads .refl (List.Subset.refl _)
  | .drn _ _ => execDrn_leads .refl (List.Subset.refl _)
  | .drainDone _ => execDrainDone_leads .refl (List.Subset.refl _)
  | .crr _ _ => execCrr_leads .refl (List.Subset.refl _)
  | .twait _ _ => execTwait_leads .refl (List.Subset.refl _)
  | .tparm _ _ => execTparm_leads .refl (List.Subset.refl _)
  | .tstat _ _ => execTstat_leads .refl (List.Subset.refl _)
  | .ecall _ _ => execEcall_leads .refl (List.Subset.refl _)
  | .clerkTrap _ _ _ => execClerkTrap_leads .refl (List.Subset.refl _)
  | .issueQueueRoom _ _ => execIssueQueueRoom_leads .refl (List.Subset.refl _)
  | .add _ _ => execAdd_leads .refl (List.Subset.refl _)
  | .sub _ _ => execSub_leads .refl (List.Subset.refl _)
  | .mul _ _ => execMul_leads .refl (List.Subset.refl _)
  | .fma _ _ => execFma_leads .refl (List.Subset.refl _)
  | .min _ _ => execMin_leads .refl (List.Subset.refl _)
  | .max _ _ => execMax_leads .refl (List.Subset.refl _)
  | .cmplt _ _ => execCmplt_leads .refl (List.Subset.refl _)
  | .cmpeq _ _ => execCmpeq_leads .refl (List.Subset.refl _)
  | .sel _ _ => execSel_leads .refl (List.Subset.refl _)
  | .cvt _ _ => execCvt_leads .refl (List.Subset.refl _)
  | .abs _ _ => execAbs_leads .refl (List.Subset.refl _)
  | .neg _ _ => execNeg_leads .refl (List.Subset.refl _)
  | .exp _ _ => execExp_leads .refl (List.Subset.refl _)
  | .log _ _ => execLog_leads .refl (List.Subset.refl _)
  | .rcp _ _ => execRcp_leads .refl (List.Subset.refl _)
  | .rsqrt _ _ => execRsqrt_leads .refl (List.Subset.refl _)
  | .sigmoid _ _ => execSigmoid_leads .refl (List.Subset.refl _)
  | .tanh _ _ => execTanh_leads .refl (List.Subset.refl _)
  | .rsum _ _ => execRsum_leads .refl (List.Subset.refl _)
  | .rmax _ _ => execRmax_leads .refl (List.Subset.refl _)
  | .rargmax _ _ => execRargmax_leads .refl (List.Subset.refl _)
  | .rsumsq _ _ => execRsumsq_leads .refl (List.Subset.refl _)
  | .softmaxStep _ _ => execSoftmaxStep_leads .refl (List.Subset.refl _)
  | .softmaxFinal _ _ => execSoftmaxFinal_leads .refl (List.Subset.refl _)
  | .rmsnorm _ _ => execRmsnorm_leads .refl (List.Subset.refl _)
  | .layernorm _ _ => execLayernorm_leads .refl (List.Subset.refl _)
  | .scan _ _ => execScan_leads .refl (List.Subset.refl _)
  | .stateRms _ _ => execStateRms_leads .refl (List.Subset.refl _)
  | .topk _ _ => execTopk_leads .refl (List.Subset.refl _)
  | .pool _ _ => execPool_leads .refl (List.Subset.refl _)
  | .dwconv _ _ => execDwconv_leads .refl (List.Subset.refl _)
  | .walkIssue _ _ => execWalkIssue_leads .refl (List.Subset.refl _)
  | .lengths _ _ => execLengths_leads .refl (List.Subset.refl _)
  | .gatherK _ _ => execGatherK_leads .refl (List.Subset.refl _)
  | .gatherV _ _ => execGatherV_leads .refl (List.Subset.refl _)
  | .appendK _ _ => execAppendK_leads .refl (List.Subset.refl _)
  | .appendV _ _ => execAppendV_leads .refl (List.Subset.refl _)
  | .bias _ _ => execBias_leads .refl (List.Subset.refl _)
  | .kvPoolAllocResume _ => execKvPoolAllocResume_leads .refl (List.Subset.refl _)
  | .mxeRampUp _ _ => execMxeRampUp_leads .refl (List.Subset.refl _)
  | .mxeRampDown _ _ => execMxeRampDown_leads .refl (List.Subset.refl _)
  | .mxeRampOff _ => execMxeRampOff_leads .refl (List.Subset.refl _)
  | .mxeRampReverse _ => execMxeRampReverse_leads .refl (List.Subset.refl _)
  | .pigeonholeRetire _ _ _ _ => execPigeonholeRetire_leads .refl (List.Subset.refl _)
  | .pigeonholeRemap _ => execPigeonholeRemap_leads .refl (List.Subset.refl _)
  | .expanderDecodeBlock _ _ _ _ => execExpanderDecodeBlock_leads .refl (List.Subset.refl _)
  | .encodeBlock _ _ => execEncodeBlock_leads .refl (List.Subset.refl _)
  | .encodeBufferWrite _ _ _ _ => execEncodeBufferWrite_leads .refl (List.Subset.refl _)
  | .encodeBufferWriteout _ => execEncodeBufferWriteout_leads .refl (List.Subset.refl _)
  | .census _ _ _ _ _ _ => execCensus_leads .refl (List.Subset.refl _)
  | .replaceStaged _ _ => execReplaceStaged_leads .refl (List.Subset.refl _)
  | .replaceImage _ _ _ => execReplaceImage_leads .refl (List.Subset.refl _)
  | .release _ _ => execRelease_leads .refl (List.Subset.refl _)
  | .restore _ _ _ _ => execRestore_leads .refl (List.Subset.refl _)
  | .codebookInstall _ => execCodebookInstall_leads .refl (List.Subset.refl _)
  | .cas _ _ _ => execCas_leads .refl (List.Subset.refl _)
  | .fetchAdd _ _ => execFetchAdd_leads .refl (List.Subset.refl _)
  | .swap _ _ => execSwap_leads .refl (List.Subset.refl _)
  | .reductionWrite _ _ _ => execReductionWrite_leads .refl (List.Subset.refl _)
  | .regulatorAdmit _ _ => execRegulatorAdmit_leads .refl (List.Subset.refl _)
  | .hbmTempReport _ _ => execHbmTempReport_leads .refl (List.Subset.refl _)
  | .channelMapout _ _ _ => execChannelMapout_leads .refl (List.Subset.refl _)
  | .evacuationPageCopy _ _ => execEvacuationPageCopy_leads .refl (List.Subset.refl _)
  | .evacuationDone _ => execEvacuationDone_leads .refl (List.Subset.refl _)
  | .redirectCopyBack _ _ => execRedirectCopyBack_leads .refl (List.Subset.refl _)
  | .absentTouch _ _ => execAbsentTouch_leads .refl (List.Subset.refl _)
  | .granuleFillDone _ _ => execGranuleFillDone_leads .refl (List.Subset.refl _)
  | .granuleWritebackDone _ => execGranuleWritebackDone_leads .refl (List.Subset.refl _)
  | .ageWriteback => execAgeWriteback_leads .refl (List.Subset.refl _)
  | .prefetch _ _ _ => execPrefetch_leads .refl (List.Subset.refl _)
  | .tierFlush _ _ _ => execTierFlush_leads .refl (List.Subset.refl _)
  | .tierEvict _ _ _ => execTierEvict_leads .refl (List.Subset.refl _)
  | .discard _ _ _ => execDiscard_leads .refl (List.Subset.refl _)
  | .flashHousekeeping => execFlashHousekeeping_leads .refl (List.Subset.refl _)
  | .readDisturbRelocate _ => execReadDisturbRelocate_leads .refl (List.Subset.refl _)
  | .flashBlockRetire _ => execFlashBlockRetire_leads .refl (List.Subset.refl _)
  | .flashStateChange _ _ => execFlashStateChange_leads .refl (List.Subset.refl _)
  | .writeHeld _ => execWriteHeld_leads .refl (List.Subset.refl _)
  | .ptpMessage _ _ => execPtpMessage_leads .refl (List.Subset.refl _)
  | .lossTimeout => execLossTimeout_leads .refl (List.Subset.refl _)
  | .holdoverLimit => execHoldoverLimit_leads .refl (List.Subset.refl _)
  | .localStart => execLocalStart_leads .refl (List.Subset.refl _)
  | .firstRoundBoundary => execFirstRoundBoundary_leads .refl (List.Subset.refl _)
  | .roundBoundary => execRoundBoundary_leads .refl (List.Subset.refl _)
  | .collection _ => execCollection_leads .refl (List.Subset.refl _)
  | .quietWindowStart _ => execQuietWindowStart_leads .refl (List.Subset.refl _)
  | .sliceSchedule => execSliceSchedule_leads .refl (List.Subset.refl _)
  | .sliceStart _ => execSliceStart_leads .refl (List.Subset.refl _)
  | .sliceEnd _ o _ _ => execSliceEnd_leads (_observed := o) .refl (List.Subset.refl _)
  | .sliceOverdue _ _ => execSliceOverdue_leads .refl (List.Subset.refl _)
  | .boxEnable _ _ => execBoxEnable_leads .refl (List.Subset.refl _)
  | .boxDisable _ => execBoxDisable_leads .refl (List.Subset.refl _)
  | .boxDrainLimit _ => execBoxDrainLimit_leads .refl (List.Subset.refl _)
  | .boxQuiesce _ => execBoxQuiesce_leads .refl (List.Subset.refl _)
  | .boxRelease _ => execBoxRelease_leads .refl (List.Subset.refl _)
  | .outboundMoveDone _ => execOutboundMoveDone_leads .refl (List.Subset.refl _)
  | .inboundMoveDone _ => execInboundMoveDone_leads .refl (List.Subset.refl _)
  | .arenaWaitResume _ => execArenaWaitResume_leads .refl (List.Subset.refl _)
  | .mirrorAck _ => execMirrorAck_leads .refl (List.Subset.refl _)
  | .mirrorTimeout _ => execMirrorTimeout_leads .refl (List.Subset.refl _)
  | .adoption _ => execAdoption_leads .refl (List.Subset.refl _)
  | .mirrorResync _ => execMirrorResync_leads .refl (List.Subset.refl _)
  | .linkDetect _ _ _ _ _ => execLinkDetect_leads .refl (List.Subset.refl _)
  | .linkTrainDone _ _ _ _ _ _ => execLinkTrainDone_leads .refl (List.Subset.refl _)
  | .linkNegotiate _ _ => execLinkNegotiate_leads .refl (List.Subset.refl _)
  | .linkRetrain _ _ => execLinkRetrain_leads .refl (List.Subset.refl _)
  | .retrainTimeout _ => execRetrainTimeout_leads .refl (List.Subset.refl _)
  | .linkDownRetry _ => execLinkDownRetry_leads .refl (List.Subset.refl _)
  | .linkCtrlPacket _ _ => execLinkCtrlPacket_leads .refl (List.Subset.refl _)
  | .timeSync _ _ _ => execTimeSync_leads .refl (List.Subset.refl _)
  | .fence _ _ => execFence_leads .refl (List.Subset.refl _)
  | .fenceSend _ => execFenceSend_leads .refl (List.Subset.refl _)
  | .member _ _ => execMember_leads .refl (List.Subset.refl _)
  | .budget _ _ _ => execBudget_leads .refl (List.Subset.refl _)
  | .item _ _ _ _ _ => execItem_leads .refl (List.Subset.refl _)
  | .result _ _ _ _ _ => execResult_leads .refl (List.Subset.refl _)
  | .msgAck _ _ => execMsgAck_leads .refl (List.Subset.refl _)
  | .bulk _ _ => execBulk_leads .refl (List.Subset.refl _)
  | .e2eTimeout _ _ _ => execE2eTimeout_leads .refl (List.Subset.refl _)
  | .heartbeatSend => execHeartbeatSend_leads .refl (List.Subset.refl _)
  | .heartbeatMiss _ => execHeartbeatMiss_leads .refl (List.Subset.refl _)
  | .bundleLost _ => execBundleLost_leads .refl (List.Subset.refl _)
  | .isolatedTimeout _ => execIsolatedTimeout_leads .refl (List.Subset.refl _)
  | .declareDead _ _ => execDeclareDead_leads .refl (List.Subset.refl _)
  | .standbyTakeover => execStandbyTakeover_leads .refl (List.Subset.refl _)
  | .routeChange => execRouteChange_leads .refl (List.Subset.refl _)
  | .routeTablesInstall _ _ => execRouteTablesInstall_leads .refl (List.Subset.refl _)
  | .routeGo _ => execRouteGo_leads .refl (List.Subset.refl _)
  | .routeWaitDiscard _ => execRouteWaitDiscard_leads .refl (List.Subset.refl _)
  | .join _ => execJoin_leads .refl (List.Subset.refl _)
  | .fabCmdDeclareDead _ => execFabCmdDeclareDead_leads .refl (List.Subset.refl _)
  | .clearBar _ => execClearBar_leads .refl (List.Subset.refl _)
  | .recomputeRoutes => execRecomputeRoutes_leads .refl (List.Subset.refl _)
  | .hello _ _ _ => execHello_leads .refl (List.Subset.refl _)
  | .bye _ => execBye_leads .refl (List.Subset.refl _)
  | .keepalive _ => execKeepalive_leads .refl (List.Subset.refl _)
  | .regRead _ _ => execRegRead_leads .refl (List.Subset.refl _)
  | .regWrite _ _ _ => execRegWrite_leads .refl (List.Subset.refl _)
  | .regBatch _ _ => execRegBatch_leads .refl (List.Subset.refl _)
  | .submitEmu _ _ _ => execSubmitEmu_leads .refl (List.Subset.refl _)
  | .connect _ _ _ _ _ => execConnect_leads .refl (List.Subset.refl _)
  | .ringSetup _ _ _ _ _ _ => execRingSetup_leads .refl (List.Subset.refl _)
  | .pbpResume _ _ => execPbpResume_leads .refl (List.Subset.refl _)
  | .imageBegin _ _ _ => execImageBegin_leads .refl (List.Subset.refl _)
  | .imageData _ _ _ => execImageData_leads .refl (List.Subset.refl _)
  | .imageEnd _ _ => execImageEnd_leads .refl (List.Subset.refl _)
  | .start _ => execStart_leads .refl (List.Subset.refl _)
  | .map _ _ _ => execMap_leads .refl (List.Subset.refl _)
  | .unmap _ _ => execUnmap_leads .refl (List.Subset.refl _)
  | .regionAdd _ _ => execRegionAdd_leads .refl (List.Subset.refl _)
  | .regionSet _ _ _ _ => execRegionSet_leads .refl (List.Subset.refl _)
  | .codebook _ _ _ _ => execCodebook_leads .refl (List.Subset.refl _)
  | .tier _ _ _ _ => execTier_leads .refl (List.Subset.refl _)
  | .keyInstall _ _ => execKeyInstall_leads .refl (List.Subset.refl _)
  | .attest _ _ => execAttest_leads .refl (List.Subset.refl _)
  | .fwStatus _ => execFwStatus_leads .refl (List.Subset.refl _)
  | .sqTail _ _ _ => execSqTail_leads .refl (List.Subset.refl _)
  | .cqHead _ _ => execCqHead_leads .refl (List.Subset.refl _)
  | .dlqHead _ _ => execDlqHead_leads .refl (List.Subset.refl _)
  | .rdmaWrite _ _ _ _ => execRdmaWrite_leads .refl (List.Subset.refl _)
  | .rdmaRead _ _ _ _ => execRdmaRead_leads .refl (List.Subset.refl _)
  | .cnpReceive _ => execCnpReceive_leads .refl (List.Subset.refl _)
  | .entryPost _ _ => execEntryPost_leads .refl (List.Subset.refl _)
  | .entryPosted _ _ => execEntryPosted_leads .refl (List.Subset.refl _)
  | .notice _ _ => execNotice_leads .refl (List.Subset.refl _)
  | .sessionTimeout _ => execSessionTimeout_leads .refl (List.Subset.refl _)
  | .hostLinkChange _ _ _ => execHostLinkChange_leads .refl (List.Subset.refl _)
  | .componentFault _ _ _ _ => execComponentFault_leads .refl (List.Subset.refl _)
  | .fwWatchdog _ => execFwWatchdog_leads .refl (List.Subset.refl _)
  | .componentRestart _ _ => execComponentRestart_leads .refl (List.Subset.refl _)
  | .componentRunning _ => execComponentRunning_leads .refl (List.Subset.refl _)
  | .restartOverrun _ => execRestartOverrun_leads .refl (List.Subset.refl _)
  | .restartComponent _ => execRestartComponent_leads .refl (List.Subset.refl _)
  | .resetModule => execResetModule_leads .refl (List.Subset.refl _)
  | .escalation _ _ _ => execEscalation_leads .refl (List.Subset.refl _)
  | .mailboxSend _ _ _ => execMailboxSend_leads .refl (List.Subset.refl _)
  | .supervisorTask => execSupervisorTask_leads .refl (List.Subset.refl _)
  | .bootSequence => execBootSequence_leads .refl (List.Subset.refl _)
  | .fieldRecordWrite => execFieldRecordWrite_leads .refl (List.Subset.refl _)
  | .token _ => execToken_leads .refl (List.Subset.refl _)
  | .debugLifetimeExpiry => execDebugLifetimeExpiry_leads .refl (List.Subset.refl _)
  | .secDbgLock => execSecDbgLock_leads .refl (List.Subset.refl _)
  | .keyCmdInstall _ => execKeyCmdInstall_leads .refl (List.Subset.refl _)
  | .keyCmdClear _ => execKeyCmdClear_leads .refl (List.Subset.refl _)
  | .coreFence _ _ => execCoreFence_leads .refl (List.Subset.refl _)
  | .coreSubstitute _ => execCoreSubstitute_leads .refl (List.Subset.refl _)
  | .signatureWrite _ _ _ _ => execSignatureWrite_leads .refl (List.Subset.refl _)
  | .coreReturn _ _ => execCoreReturn_leads .refl (List.Subset.refl _)
  | .drainTimeout _ => execDrainTimeout_leads .refl (List.Subset.refl _)
  | .controlParityError _ => execControlParityError_leads .refl (List.Subset.refl _)
  | .staleCoreRequest _ _ => execStaleCoreRequest_leads .refl (List.Subset.refl _)
  | .poisonConsumed _ _ => execPoisonConsumed_leads .refl (List.Subset.refl _)
  | .ledgerEntryUe _ _ _ => execLedgerEntryUe_leads .refl (List.Subset.refl _)
  | .dispositionRecord _ => execDispositionRecord_leads .refl (List.Subset.refl _)
  | .recordAccept => execRecordAccept_leads .refl (List.Subset.refl _)
  | .recorderFlush => execRecorderFlush_leads .refl (List.Subset.refl _)
  | .logCursorWrite _ => execLogCursorWrite_leads .refl (List.Subset.refl _)
  | .logOldestRead => execLogOldestRead_leads .refl (List.Subset.refl _)
  | .roundNowRead => execRoundNowRead_leads .refl (List.Subset.refl _)
  | .counterLowRead _ => execCounterLowRead_leads .refl (List.Subset.refl _)
  | .sigPmRead => execSigPmRead_leads .refl (List.Subset.refl _)
  | .sigCursorWrite _ => execSigCursorWrite_leads .refl (List.Subset.refl _)
  | .grantRequest _ _ => execGrantRequest_leads .refl (List.Subset.refl _)
  | .queuedGrant => execQueuedGrant_leads .refl (List.Subset.refl _)
  | .grantRevoke => execGrantRevoke_leads .refl (List.Subset.refl _)
  | .budgetMove => execBudgetMove_leads .refl (List.Subset.refl _)
  | .railWarning _ _ => execRailWarning_leads .refl (List.Subset.refl _)
  | .railWarningExit _ _ _ => execRailWarningExit_leads .refl (List.Subset.refl _)
  | .longDip _ => execLongDip_leads .refl (List.Subset.refl _)
  | .dieSupplyReset _ _ => execDieSupplyReset_leads .refl (List.Subset.refl _)
  | .dieResetRelease _ _ => execDieResetRelease_leads .refl (List.Subset.refl _)
  | .railShort _ => execRailShort_leads .refl (List.Subset.refl _)
  | .inputWarning _ => execInputWarning_leads .refl (List.Subset.refl _)
  | .inputWarningExit _ => execInputWarningExit_leads .refl (List.Subset.refl _)
  | .inputShutdown _ => execInputShutdown_leads .refl (List.Subset.refl _)
  | .reversedPolarity => execReversedPolarity_leads .refl (List.Subset.refl _)
  | .thermalFactorFall _ => execThermalFactorFall_leads .refl (List.Subset.refl _)
  | .thermalFactorRise _ => execThermalFactorRise_leads .refl (List.Subset.refl _)
  | .thermalTrip _ _ => execThermalTrip_leads .refl (List.Subset.refl _)
  | .sensorOpen _ => execSensorOpen_leads .refl (List.Subset.refl _)
  | .regulatorStart _ => execRegulatorStart_leads .refl (List.Subset.refl _)
  | .pwrEnFall => execPwrEnFall_leads .refl (List.Subset.refl _)
  | .d2dLinkDown _ _ => execD2dLinkDown_leads .refl (List.Subset.refl _)
  | .genEn _ _ _ _ => execGenEn_leads .refl (List.Subset.refl _)
  | .chkEn _ _ _ _ => execChkEn_leads .refl (List.Subset.refl _)
  | .inject _ => execInject_leads .refl (List.Subset.refl _)
  | .checkerLock _ _ _ => execCheckerLock_leads .refl (List.Subset.refl _)
  | .checkerLoss _ _ _ _ => execCheckerLoss_leads .refl (List.Subset.refl _)
  | .extest => execExtest_leads .refl (List.Subset.refl _)
  | .idcode => execIdcode_leads .refl (List.Subset.refl _)
  | .samplePreload => execSamplePreload_leads .refl (List.Subset.refl _)
  | .nonce => execNonce_leads .refl (List.Subset.refl _)
  | .dtmcs => execDtmcs_leads .refl (List.Subset.refl _)
  | .dmi _ _ _ => execDmi_leads .refl (List.Subset.refl _)
  | .tapScan _ v => execTapScan_leads (_shiftIn := v) .refl (List.Subset.refl _)
  | .lbist _ _ _ => execLbist_leads .refl (List.Subset.refl _)
  | .mbist m => execMbist_leads (_memory := m) .refl (List.Subset.refl _)
  | .bypass => execBypass_leads .refl (List.Subset.refl _)
  | .hartHalt _ => execHartHalt_leads .refl (List.Subset.refl _)
  | .hartResume _ => execHartResume_leads .refl (List.Subset.refl _)
  | .hartSingleStep _ => execHartSingleStep_leads .refl (List.Subset.refl _)
  | .accessRegister _ _ _ => execAccessRegister_leads .refl (List.Subset.refl _)
  | .triggerMatch _ _ _ => execTriggerMatch_leads .refl (List.Subset.refl _)
  | .systemBusAccess _ _ _ => execSystemBusAccess_leads .refl (List.Subset.refl _)
  | .sidebandReadRequest _ => execSidebandReadRequest_leads .refl (List.Subset.refl _)
  | .sidebandWriteRequest _ => execSidebandWriteRequest_leads .refl (List.Subset.refl _)
  | .sidebandResultRead => execSidebandResultRead_leads .refl (List.Subset.refl _)
  | .inBandInterrupt => execInBandInterrupt_leads .refl (List.Subset.refl _)
  | .enec => execEnec_leads .refl (List.Subset.refl _)
  | .disec => execDisec_leads .refl (List.Subset.refl _)
  | .getpid => execGetpid_leads .refl (List.Subset.refl _)
  | .getbcr => execGetbcr_leads .refl (List.Subset.refl _)
  | .getdcr => execGetdcr_leads .refl (List.Subset.refl _)
  | .getstatus => execGetstatus_leads .refl (List.Subset.refl _)
  | .getmxds => execGetmxds_leads .refl (List.Subset.refl _)
  | .setdasa _ _ => execSetdasa_leads .refl (List.Subset.refl _)
  | .entdaa _ => execEntdaa_leads .refl (List.Subset.refl _)
  | .rstdaa => execRstdaa_leads .refl (List.Subset.refl _)
  | .hotJoin => execHotJoin_leads .refl (List.Subset.refl _)
  | .drain _ => execDrain_leads .refl (List.Subset.refl _)
  | .coreResume _ => execCoreResume_leads .refl (List.Subset.refl _)
  | .coreDrained _ => execCoreDrained_leads .refl (List.Subset.refl _)
  | .coreMapWrite _ _ => execCoreMapWrite_leads .refl (List.Subset.refl _)
  | .acmMapWrite _ _ => execAcmMapWrite_leads .refl (List.Subset.refl _)
  | .stateWindowWrite _ _ => execStateWindowWrite_leads .refl (List.Subset.refl _)
  | .handleSelWrite _ _ => execHandleSelWrite_leads .refl (List.Subset.refl _)
  | .flush _ => execFlush_leads .refl (List.Subset.refl _)
  | .hbmMapoutGo _ _ => execHbmMapoutGo_leads .refl (List.Subset.refl _)
  | .retrain _ => execRetrain_leads .refl (List.Subset.refl _)
  | .linkEnableWrite _ _ => execLinkEnableWrite_leads .refl (List.Subset.refl _)
  | .lockWrite _ => execLockWrite_leads .refl (List.Subset.refl _)
  | .w1cWrite _ _ _ => execW1cWrite_leads .refl (List.Subset.refl _)
  | .registerWrite _ _ _ => execRegisterWrite_leads .refl (List.Subset.refl _)
  | .quietWindowEnd _ => execQuietWindowEnd_leads .refl (List.Subset.refl _)
  | .inletWarn _ => execInletWarn_leads .refl (List.Subset.refl _)
  | .tapReset => execTapReset_leads .refl (List.Subset.refl _)
  | .tokenCheckDone => execTokenCheckDone_leads .refl (List.Subset.refl _)
  | .formation _ _ _ _ => execFormation_leads .refl (List.Subset.refl _)
  | .escArmedExpiry _ => execEscArmedExpiry_leads .refl (List.Subset.refl _)
  | .rv64imacInstruction _ _ => execRv64imacInstruction_leads .refl (List.Subset.refl _)

/-- Settles O4: the frame of each command's law. -/
theorem everyCommandCompletesWithinItsFrame : Obligations.EveryCommandCompletesWithinItsFrame := by
  intro c s
  obtain ⟨t, ht, hl⟩ := exec_leads c s
  exact ⟨t, ht, hl.frame⟩

/-- No command touches the queue. -/
theorem pending_not_mem_touches (c : Instr) : Part.pending ∉ touches c := by
  have h : (touches c).contains .pending = false := by cases c <;> rfl
  simpa using h

/-- Settles O1: the queue is in no command's frame. -/
theorem stepRunsFrontCommand : Obligations.StepRunsFrontCommand := by
  refine ⟨fun c rest s hs => ?_, fun s hs => ?_⟩
  · have hstep : step s = exec c { s with pending := rest } := by simp [step, hs]
    obtain ⟨t, ht, hl⟩ := exec_leads c { s with pending := rest }
    exact ⟨hstep, t, hstep.trans ht, hl.frame.pending (pending_not_mem_touches c)⟩
  · simp [step, hs]

end Sys2Proof.Machine
end

section
/-! How the shared operations of items and streams act on the ledger and on the places, as `item?` and `place?` read
them (R18, R27, R137, R363). -/

namespace Sys2Proof.Machine

-- one theorem after the other: proofs that wait together take too many threads
set_option Elab.async false

/-! ### Items and places that read alike -/

/-- Every item reads alike through `v` in both states. -/
def ItemsAgree {β : Type} (v : Item → β) (s t : State) : Prop := ∀ id, (t.item? id).map v = (s.item? id).map v

/-- Every place reads alike through `v` in both states. -/
def PlacesAgree {β : Type} (v : Place → β) (s t : State) : Prop := ∀ n, (t.place? n).map v = (s.place? n).map v

section Agree
variable {β : Type} {v : Item → β} {w : Place → β} {s t u : State}

theorem ItemsAgree.of_items (h : t.items = s.items) : ItemsAgree v s t := fun id => by rw [State.item?_of_items h]

theorem ItemsAgree.refl (s : State) : ItemsAgree v s s := .of_items rfl

theorem ItemsAgree.trans (h : ItemsAgree v s t) (k : ItemsAgree v t u) : ItemsAgree v s u := fun id =>
  (k id).trans (h id)

theorem ItemsAgree.modItem {f : Item → Item} (h : ItemsAgree v s t) (id : Nat)
    (hid : ∀ i, (f i).id = i.id := by exact fun _ => rfl) (hv : ∀ i, v (f i) = v i := by exact fun _ => rfl) :
    ItemsAgree v s (t.modItem id f) := fun j => by
  rw [State.item?_modItem _ _ _ _ hid, ← h j]
  split <;> simp [Function.comp_def, hv]

theorem ItemsAgree.foldl {α : Type} {f : State → α → State} (l : List α) (h : ItemsAgree v s t)
    (hf : ∀ u a, ItemsAgree v u (f u a)) : ItemsAgree v s (l.foldl f t) := by
  induction l generalizing t with
  | nil => exact h
  | cons a l ih => exact ih (h.trans (hf t a))

theorem State.item?_of_map {f : Item → Item} (h : t.items = s.items.map f) (hid : ∀ i, (f i).id = i.id) (id : Nat) :
    t.item? id = (s.item? id).map f := by
  have e : ((fun i : Item => i.id == id) ∘ f) = fun i => i.id == id := funext fun i => by simp [hid]
  simp only [State.item?, h, List.find?_map, e]

theorem ItemsAgree.of_map {f : Item → Item} (h : t.items = s.items.map f) (hid : ∀ i, (f i).id = i.id)
    (hv : ∀ i, v (f i) = v i) : ItemsAgree v s t := fun id => by
  rw [State.item?_of_map h hid]
  simp [Function.comp_def, hv]

theorem ItemsAgree.exists (h : ItemsAgree v s t) {id : Nat} {i : Item} (hi : s.item? id = some i) :
    ∃ j, t.item? id = some j ∧ v j = v i := by
  simpa [hi] using h id

theorem PlacesAgree.exists (h : PlacesAgree w s t) {n : Nat} {p : Place} (hp : s.place? n = some p) :
    ∃ q, t.place? n = some q ∧ w q = w p := by
  simpa [hp] using h n

theorem PlacesAgree.of_places (h : t.places = s.places) : PlacesAgree w s t := fun n => by rw [State.place?_of_places h]

theorem PlacesAgree.refl (s : State) : PlacesAgree w s s := .of_places rfl

theorem PlacesAgree.trans (h : PlacesAgree w s t) (k : PlacesAgree w t u) : PlacesAgree w s u := fun n =>
  (k n).trans (h n)

theorem PlacesAgree.modPlace {f : Place → Place} (h : PlacesAgree w s t) (n : Nat)
    (hs : ∀ p, (f p).stream = p.stream := by exact fun _ => rfl) (hw : ∀ p, w (f p) = w p := by exact fun _ => rfl) :
    PlacesAgree w s (t.modPlace n f) := fun m => by
  rw [State.place?_modPlace _ _ _ _ hs, ← h m]
  split <;> simp [Function.comp_def, hw]

theorem PlacesAgree.foldl {α : Type} {f : State → α → State} (l : List α) (h : PlacesAgree w s t)
    (hf : ∀ u a, PlacesAgree w u (f u a)) : PlacesAgree w s (l.foldl f t) := by
  induction l generalizing t with
  | nil => exact h
  | cons a l ih => exact ih (h.trans (hf t a))

end Agree

section Others
variable {s t u : State} {id n : Nat}

theorem OtherItems.of_items (h : t.items = s.items) : OtherItems id s t := fun j _ => State.item?_of_items h j

theorem OtherItems.trans (h : OtherItems id s t) (k : OtherItems id t u) : OtherItems id s u := fun j hj =>
  (k j hj).trans (h j hj)

theorem OtherItems.modItem {f : Item → Item} (h : OtherItems id s t)
    (hid : ∀ i, (f i).id = i.id := by exact fun _ => rfl) :
    OtherItems id s (t.modItem id f) := fun j hj => by
  rw [State.item?_modItem _ _ _ _ hid, if_neg (Ne.symm hj), h j hj]

theorem OtherPlaces.of_places (h : t.places = s.places) : OtherPlaces n s t := fun m _ => State.place?_of_places h m

theorem OtherPlaces.trans (h : OtherPlaces n s t) (k : OtherPlaces n t u) : OtherPlaces n s u := fun m hm =>
  (k m hm).trans (h m hm)

theorem OtherPlaces.modPlace {f : Place → Place} (h : OtherPlaces n s t)
    (hs : ∀ p, (f p).stream = p.stream := by exact fun _ => rfl) :
    OtherPlaces n s (t.modPlace n f) := fun m hm => by
  rw [State.place?_modPlace _ _ _ _ hs, if_neg (Ne.symm hm), h m hm]

end Others

section Same
variable {s : State} {id n : Nat} {i : Item} {p : Place}

theorem State.item?_modItem_same {f : Item → Item} (hi : s.item? id = some i)
    (hid : ∀ i, (f i).id = i.id := by exact fun _ => rfl) : (s.modItem id f).item? id = some (f i) := by
  rw [State.item?_modItem _ _ _ _ hid, if_pos rfl, hi]
  rfl

theorem State.item?_modEntry_same {k : Nat} {f : Entry → Entry} (hi : s.item? id = some i) :
    (s.modEntry id k f).item? id = some (i.modEntry k f) := State.item?_modItem_same hi

theorem State.place?_modPlace_same {f : Place → Place} (hp : s.place? n = some p)
    (hs : ∀ p, (f p).stream = p.stream := by exact fun _ => rfl) : (s.modPlace n f).place? n = some (f p) := by
  rw [State.place?_modPlace _ _ _ _ hs, if_pos rfl, hp]
  rfl

theorem State.place?_modPlace_none {f : Place → Place} (hp : s.place? n = none)
    (hs : ∀ p, (f p).stream = p.stream := by exact fun _ => rfl) : (s.modPlace n f).place? n = none := by
  rw [State.place?_modPlace _ _ _ _ hs, if_pos rfl, hp]
  rfl

theorem State.place?_modPlace_ne {m : Nat} {f : Place → Place} (h : n ≠ m)
    (hs : ∀ p, (f p).stream = p.stream := by exact fun _ => rfl) : (s.modPlace n f).place? m = s.place? m := by
  rw [State.place?_modPlace _ _ _ _ hs, if_neg h]

end Same

/-! ### Entries -/

section Entries
variable {i : Item} {k m : Nat} {f : Entry → Entry}

theorem Item.entry_modEntry_same (h : k < i.entries.length) : (i.modEntry k f).entry k = f (i.entry k) := by
  exact (listModify_getD ..).trans (if_pos ⟨rfl, h⟩)

theorem Item.entry_modEntry_ne (h : m ≠ k) : (i.modEntry m f).entry k = i.entry k := by
  exact (listModify_getD ..).trans (if_neg (fun e => h e.1))

end Entries

/-! ### What is left alone -/

section Frames
variable (s : State)

@[simp] theorem State.flushLab_places (b n : Nat) : (s.flushLab b n).places = s.places :=
  (State.flushLab_leads .refl (List.Subset.refl _)).frame.places (by decide)
@[simp] theorem State.dropLab_places (p : LabEntry → Bool) : (s.dropLab p).places = s.places :=
  (State.dropLab_leads .refl (List.Subset.refl _)).frame.places (by decide)
@[simp] theorem State.sendMsg_places (d c : Nat) (m : PktOut) : (s.sendMsg d c m).places = s.places :=
  (State.sendMsg_leads .refl (List.Subset.refl _)).frame.places (by decide)
@[simp] theorem State.dropHistory_items (n : Nat) : (s.dropHistory n).items = s.items :=
  (State.dropHistory_leads .refl (List.Subset.refl _)).frame.items (by decide)
@[simp] theorem State.vacate_items (n : Nat) : (s.vacate n).items = s.items :=
  (State.vacate_leads .refl (List.Subset.refl _)).frame.items (by decide)
@[simp] theorem State.vacate_groups (n : Nat) : (s.vacate n).groups = s.groups :=
  (State.vacate_leads .refl (List.Subset.refl _)).frame.groups (by decide)
@[simp] theorem State.postItem_items (id : Nat) : (s.postItem id).items = s.items :=
  (State.postItem_leads .refl (List.Subset.refl _)).frame.items (by decide)
@[simp] theorem State.postItem_places (id : Nat) : (s.postItem id).places = s.places :=
  (State.postItem_leads .refl (List.Subset.refl _)).frame.places (by decide)
@[simp] theorem State.writeReports_items (i : Item) : (s.writeReports i).items = s.items :=
  (State.writeReports_leads .refl (List.Subset.refl _)).frame.items (by decide)
@[simp] theorem State.writeReports_places (i : Item) : (s.writeReports i).places = s.places :=
  (State.writeReports_leads .refl (List.Subset.refl _)).frame.places (by decide)

end Frames

/-! ### A group's release (R18) -/

section Release
variable (s : State) (g : Nat)

theorem State.foldl_vacate_items (l : List Nat) : (l.foldl State.vacate s).items = s.items := by
  induction l generalizing s with
  | nil => rfl
  | cons n l ih => exact (ih _).trans (s.vacate_items n)

theorem State.foldl_vacate_groups (l : List Nat) : (l.foldl State.vacate s).groups = s.groups := by
  induction l generalizing s with
  | nil => rfl
  | cons n l ih => exact (ih _).trans (s.vacate_groups n)

theorem State.releaseGroup_items : (s.releaseGroup g).items =
    s.items.map (fun i => if i.groups.contains g then { i with gone := true } else i) := by
  rw [State.releaseGroup, State.foldl_vacate_items]

theorem State.releaseGroup_groups : (s.releaseGroup g).groups = s.groups.filter (fun x => x.index != g) := by
  rw [State.releaseGroup, State.foldl_vacate_groups]

theorem State.group_of_mem_releaseGroup {p : Place} (hp : p ∈ (s.releaseGroup g).places) : p.group ≠ g := by
  have := (List.mem_filter.mp hp).2
  simpa using this

variable {β : Type} {v : Item → β}

theorem ItemsAgree.releaseGroup (hv : ∀ i, v { i with gone := true } = v i) : ItemsAgree v s (s.releaseGroup g) :=
  .of_map (s.releaseGroup_items g) (fun i => by split <;> rfl) (fun i => by split <;> simp [hv])

end Release

end Sys2Proof.Machine
end

section
/-! Dispositions (R21, R22, R363): what failing an entry, failing an item and recording a disposition leave of the
ledger. -/

namespace Sys2Proof.Machine

-- one theorem after the other: proofs that wait together take too many threads
set_option Elab.async false

/-- What an item is from its admission on (R362): its tag, box, ring and count. -/
def Item.ident (i : Item) : W64 × Nat × Nat × Nat := (i.tag, i.box, i.ring, i.count)

/-- What an item is and what has been decided of it. -/
def Item.fate (i : Item) : Option Disp × W64 × Nat × Nat × Nat := (i.disp, i.ident)

/-! ### Instances stopped (R260) -/

section Stop
variable {β : Type} {v : Item → β} (s : State)

theorem State.chargeBox_items (c b n : Nat) : (s.chargeBox c b n).items = s.items :=
  (State.chargeBox_leads .refl (List.Subset.refl _)).frame.items (by decide)

theorem ItemsAgree.stopInstance (hv : ∀ i m, v { i with coreMask := m } = v i) (c : Nat) :
    ItemsAgree v s (s.stopInstance c) := by
  have h : ItemsAgree v s (s.chargeRun c) := by
    unfold State.chargeRun
    split
    · exact .refl s
    · rename_i i _
      have h : ItemsAgree v s ((s.chargeBox c i.box (cyclesOf (s.time.t - i.start))).bump .cnt c (64 + i.box) 1) :=
        .of_items ((State.bump_items ..).trans (State.chargeBox_items ..))
      exact h.modItem i.item (hv := fun i => hv i _)
  exact h.trans (.of_items rfl)

/-- Stopping an item's instances notes their cores and changes nothing else of any item. -/
theorem ItemsAgree.stopItem (hv : ∀ i m, v { i with coreMask := m } = v i) (id : Nat) :
    ItemsAgree v s (s.stopItem id) := by
  unfold State.stopItem
  generalize hu : (List.range 68).foldl _ s = u
  have h : ItemsAgree v s u := by
    rw [← hu]
    refine ItemsAgree.foldl _ (.refl s) (fun u c => ?_)
    split
    · split
      · exact .stopInstance u hv c
      · exact .refl u
    · exact .refl u
  exact h.trans (.of_items rfl)

@[simp] theorem State.stopItem_places (id : Nat) : (s.stopItem id).places = s.places :=
  (State.stopItem_leads .refl (List.Subset.refl _)).frame.places (by decide)

end Stop

/-! ### A failure recorded (R363) -/

/-- The item as a failure leaves it in the ledger. -/
def Item.failedAt (f : Fail) (round phase : Nat) (i : Item) : Item :=
  { i with
    disp := some (.failed f), state := .resolved, dispRound := round, dispPhase := phase, list := [], heldCollection := false }

/-- The counters of a failure. -/
def State.countFailure (s : State) (i : Item) (f : Fail) : State :=
  ((s.bump .hub 0 6 1).bump .box i.box 2 1).bump .box i.box 3 (b2n (decide (f.reason = Reason.deadline)))

section Resolve
variable {s : State} {id : Nat} {i : Item}

/-- The state in which a failure of item `i` has been written into the ledger and counted. -/
def State.noteFailure (s : State) (id : Nat) (i : Item) (f : Fail) : State :=
  let u := s.writeReports { i with disp := some (.failed f) }
  ((u.modItem id (Item.failedAt f u.roundNow u.phase)).exposeAll i).countFailure i f

/-- A failure is noted and posted; an OPEN_GROUP whose prefill has not committed takes its group with it (R18). -/
theorem State.resolve_failed_cases (hi : s.item? id = some i) (hd : i.disp = none) (f : Fail) :
    s.resolve id (.failed f) = (s.noteFailure id i f).postItem id ∨
      i.kind = 0x01 ∧ ∃ g, s.resolve id (.failed f) = ((s.noteFailure id i f).releaseGroup g).postItem id := by
  simp only [State.resolve, hi, hd, Option.isSome_none, Bool.false_eq_true, if_false]
  split
  · rename_i hk hg
    split
    · exact .inr ⟨hk, _, rfl⟩
    · exact .inl rfl
  · exact .inl rfl

theorem State.noteFailure_items (s : State) (id : Nat) (i : Item) (f : Fail) : ∃ r p,
    (s.noteFailure id i f).items = (s.modItem id (Item.failedAt f r p)).items := by
  refine ⟨(s.writeReports { i with disp := some (.failed f) }).roundNow,
    (s.writeReports { i with disp := some (.failed f) }).phase, ?_⟩
  simp only [State.noteFailure, State.countFailure, State.bump_items]
  change (State.modItem _ _ _).items = _
  simp only [State.modItem, State.writeReports_items]

theorem State.noteFailure_places (s : State) (id : Nat) (i : Item) (f : Fail) :
    (s.noteFailure id i f).places = s.places := by
  simp only [State.noteFailure, State.countFailure, State.bump_places]
  exact s.writeReports_places _

/-- A failure of an item that has no disposition yet is its disposition, and the item stays what it is. -/
theorem State.item?_resolve_failed (hi : s.item? id = some i) (hd : i.disp = none) (f : Fail) :
    ∃ j, (s.resolve id (.failed f)).item? id = some j ∧ j.fate = (some (.failed f), i.ident) := by
  obtain ⟨r, p, hitems⟩ := s.noteFailure_items id i f
  have hnote : (s.noteFailure id i f).item? id = some (i.failedAt f r p) := by
    rw [State.item?_of_items hitems]
    exact State.item?_modItem_same hi
  rcases State.resolve_failed_cases hi hd f with h | ⟨-, g, h⟩
  · refine ⟨i.failedAt f r p, ?_, rfl⟩
    rw [h, State.item?_of_items (State.postItem_items _ _), hnote]
  · have hgroup : ItemsAgree Item.fate (s.noteFailure id i f) ((s.noteFailure id i f).releaseGroup g) :=
      .releaseGroup _ g (fun _ => rfl)
    obtain ⟨j, hj, hfate⟩ := hgroup.exists hnote
    refine ⟨j, ?_, hfate⟩
    rw [h, State.item?_of_items (State.postItem_items _ _), hj]

theorem State.resolve_failed_places (hi : s.item? id = some i) (hd : i.disp = none) (hk : i.kind ≠ 0x01) (f : Fail) :
    (s.resolve id (.failed f)).places = s.places := by
  rcases State.resolve_failed_cases hi hd f with h | ⟨h, -⟩
  · rw [h, State.postItem_places, State.noteFailure_places]
  · exact absurd h hk

/-! ### An item failed as a whole (R22) -/

/-- What a failing item's streams lose: pins, and the slots and pages of steps that had begun (R22, R138). -/
def State.dropSteps (s : State) (i : Item) : State :=
  if i.opEnd then s
  else if i.isStep then i.unsettled.foldl (fun (s : State) e =>
    let s := s.leaveStep e false
    if e.begun then s.faultStream e.stream else s) s
  else if i.kind = 0x02 then i.sources.foldl (fun (s : State) t => (s.unpin t).modPlace t (fun p =>
    { p with held := if i.took ∧ p.residency = .resident then false else p.held })) s
  else s

/-- The state in which a failing item's disposition is recorded. -/
def State.cutItem (s : State) (id : Nat) (i : Item) (f : Fail) : State :=
  let u := (s.stopItem id).dropSteps i
  ({ u with arenaWait := u.arenaWait.filter (fun w => w.1 != id) } : State).modItem id (fun i => { i with wide := some f })

theorem State.failItem_eq (hi : s.item? id = some i) (hd : i.disp = none) (f : Fail) :
    s.failItem id f = (s.cutItem id i f).resolve id (.failed f) := by
  simp only [State.failItem, hi, hd, Option.isSome_none, Bool.false_eq_true, if_false]
  rfl

theorem State.dropSteps_leads (s : State) (i : Item) :
    Leads [.freeCount, .ctr, .cores, .places, .pages] s (s.dropSteps i) := by
  unfold State.dropSteps
  split
  · exact .refl
  · split
    · refine Leads.foldl _ .refl (fun u e hu => ?_)
      have hleave := State.leaveStep_leads (e := e) (ok := false) hu (by decide)
      exact Leads.ite (State.faultStream_leads hleave (by decide)) hleave
    · split
      · exact Leads.foldl _ .refl (fun u e hu =>
          State.modPlace_leads (State.unpin_leads hu (by decide)) (by decide))
      · exact .refl

theorem State.dropSteps_items (s : State) (i : Item) : (s.dropSteps i).items = s.items :=
  (s.dropSteps_leads i).frame.items (by decide)

theorem State.item?_cutItem (hi : s.item? id = some i) (f : Fail) :
    ∃ j, (s.cutItem id i f).item? id = some j ∧ j.fate = i.fate ∧ j.kind = i.kind := by
  have hcut : ItemsAgree (fun j => (j.fate, j.kind)) s (s.cutItem id i f) :=
    (((ItemsAgree.stopItem s (fun _ _ => rfl) id).trans (.of_items (State.dropSteps_items _ i))).trans
      (.of_items rfl)).modItem id
  obtain ⟨j, hj, hv⟩ := hcut.exists hi
  exact ⟨j, hj, congrArg Prod.fst hv, congrArg Prod.snd hv⟩

/-- R22: an item that fails as a whole takes the failure as its disposition, and stays what it is. -/
theorem State.item?_failItem (hi : s.item? id = some i) (hd : i.disp = none) (f : Fail) :
    ∃ j, (s.failItem id f).item? id = some j ∧ j.fate = (some (.failed f), i.ident) := by
  obtain ⟨j, hj, hfate, -⟩ := State.item?_cutItem hi f
  obtain ⟨hdisp, hident⟩ := Prod.mk.inj hfate
  rw [State.failItem_eq hi hd]
  exact hident ▸ State.item?_resolve_failed hj (hdisp.trans hd) f

/-- A FORK that fails loses its pins only: every place stands as live as it was, at the same step count. -/
theorem State.failItem_fork_placesAgree (hi : s.item? id = some i) (hd : i.disp = none) (hk : i.kind = 0x02) (f : Fail) :
    PlacesAgree (fun p => (p.live, p.stepCount)) s (s.failItem id f) := by
  obtain ⟨j, hj, hfate, hkind⟩ := State.item?_cutItem hi f
  have hdrop : PlacesAgree (fun p => (p.live, p.stepCount)) (s.stopItem id) ((s.stopItem id).dropSteps i) := by
    unfold State.dropSteps
    split
    · exact .refl _
    · simp only [Item.isStep, hk]
      exact .foldl _ (.refl _) (fun u n =>
        ((PlacesAgree.refl u).modPlace n).modPlace n)
  have hres := State.resolve_failed_places hj ((congrArg Prod.fst hfate).trans hd) (hkind.trans hk ▸ by decide) f
  rw [State.failItem_eq hi hd]
  exact ((PlacesAgree.of_places (s.stopItem_places id)).trans hdrop).trans
    ((PlacesAgree.of_places rfl).trans (.of_places hres))

end Resolve

end Sys2Proof.Machine
end

section
/-! Items that act at once (R16, R18, R36). -/

namespace Sys2Proof.Machine

-- one theorem after the other: proofs that wait together take too many threads
set_option Elab.async false

/-! ### A stream's history and place dropped (R18, R27, R157) -/

/-- A place whose stream has lost its key-value history: its directory keeps its lists and nothing else (R157). -/
def Place.forgotten (p : Place) : Place :=
  { p with dirs := p.dirs.map (fun d => { d with valid := false, ptes := [], pending := 0 }) }

/-- A place that has been vacated (R18). -/
def Place.vacated (p : Place) : Place :=
  { p.forgotten with
    live := false, faulted := false, residency := .resident, mirror := .none, held := false, forced := false
    windowCore := none, arena := none, window := none, poste := none, tapes := [], mirrorSent := none }

section Vacate
variable (s : State) {n : Nat} {p : Place}

theorem State.otherPlaces_dropHistory (n : Nat) : OtherPlaces n s (s.dropHistory n) := by
  unfold State.dropHistory
  split
  · exact .of_places rfl
  · exact ((OtherPlaces.of_places rfl).modPlace).trans (.of_places (State.flushLab_places ..))

theorem State.otherPlaces_vacate (n : Nat) : OtherPlaces n s (s.vacate n) := (s.otherPlaces_dropHistory n).modPlace

variable {s}

theorem State.place?_dropHistory (hp : s.place? n = some p) : (s.dropHistory n).place? n = some p.forgotten := by
  simp only [State.dropHistory, hp]
  rw [State.place?_of_places (State.flushLab_places ..)]
  exact State.place?_modPlace_same hp

theorem State.place?_vacate (hp : s.place? n = some p) : (s.vacate n).place? n = some p.vacated :=
  State.place?_modPlace_same (State.place?_dropHistory hp)

theorem State.place?_vacate_none (hp : s.place? n = none) : (s.vacate n).place? n = none := by
  have h : s.dropHistory n = s := by simp [State.dropHistory, hp]
  rw [State.vacate, h, State.place?_modPlace_none hp]

/-- What stands in a place that has been vacated is not live. -/
theorem State.not_live_of_vacate {q : Place} (hq : (s.vacate n).place? n = some q) : q.live = false := by
  cases hp : s.place? n with
  | none => rw [State.place?_vacate_none hp] at hq; cases hq
  | some p => rw [State.place?_vacate hp] at hq; cases hq; rfl

/-- Places outside a list stand while the list is vacated. -/
theorem State.place?_foldl_vacate_ne {l : List Nat} {m : Nat} (hm : m ∉ l) :
    (l.foldl State.vacate s).place? m = s.place? m := by
  induction l generalizing s with
  | nil => rfl
  | cons n l ih =>
    obtain ⟨hn, hl⟩ : m ≠ n ∧ m ∉ l := by simpa using hm
    exact (ih hl).trans (s.otherPlaces_vacate n m hn)

end Vacate

/-! ### Taking effect (R16) -/

/-- The item marked as having taken effect. -/
def State.markTook (s : State) (id : Nat) : State := s.modItem id (fun i => { i with took := true })

section Effect
variable {s : State} {id kind : Nat} {i : Item}

theorem State.mayAct.disp (h : s.mayAct id kind i) : i.disp = none := by
  obtain ⟨-, -, -, -, hready, -⟩ := h
  simpa using (Bool.and_eq_true_iff.mp hready).1

theorem State.mayAct.kind_eq (h : s.mayAct id kind i) : i.kind = kind := h.2.1

theorem State.mayAct.id_eq (h : s.mayAct id kind i) : i.id = id := State.item?_id h.1

/-- An item that may act does so on the state in which it is marked (R16). -/
theorem State.mayAct.takeEffect (h : s.mayAct id kind i) (f : State → Item → State) :
    s.takeEffect id kind f = f (s.markTook id) { i with took := true } := by
  obtain ⟨hi, hkind, htook, hpos, hready, hgone⟩ := h
  simp [State.takeEffect, hi, hkind, htook, hpos, hready, hgone, State.markTook]

theorem State.mayAct.item?_markTook (h : s.mayAct id kind i) : (s.markTook id).item? id = some { i with took := true } :=
  State.item?_modItem_same h.1

theorem State.otherItems_markTook (s : State) (id : Nat) : OtherItems id s (s.markTook id) :=
  (OtherItems.of_items rfl).modItem

end Effect

/-! ### Streams ended (R18) -/

section End
variable {s u : State} {id n : Nat} {i : Item}

/-- Entry `k` of an END: its place is vacated, a vacant one skipped. -/
def State.endEntry (i : Item) (s : State) (id k : Nat) : State :=
  let t := (i.entry k).stream
  let u := if (s.place? t).any (fun p => p.live) then s.vacate t else s
  u.modEntry id k (fun e => { e with st := .committed, after := s.afterOf t })

theorem State.endEntries_eq (s : State) (i : Item) : s.endEntries i = (s.eachEntry i (State.endEntry i)).endOp i.id := rfl

/-- The first `n` entries of the END `i` have been carried out from `s`. -/
structure State.EndedTo (id : Nat) (i : Item) (n : Nat) (s u : State) : Prop where
  item : ∃ j, u.item? id = some j ∧ j.disp = none ∧ j.entries.length = i.entries.length ∧
    ∀ k, k < n → (j.entry k).st = .committed
  others : OtherItems id s u
  vacant : ∀ k p, k < n → u.place? (i.entry k).stream = some p → p.live = false
  places : ∀ m, (∀ k, k < n → (i.entry k).stream ≠ m) → u.place? m = s.place? m

theorem State.otherPlaces_endEntry (i : Item) (u : State) (id k : Nat) :
    OtherPlaces (i.entry k).stream u (u.endEntry i id k) := by
  unfold State.endEntry
  refine OtherPlaces.trans (t := if (u.place? (i.entry k).stream).any (fun p => p.live) then _ else u) ?_ (.of_places rfl)
  split
  · exact u.otherPlaces_vacate _
  · exact .of_places rfl

theorem State.not_live_of_endEntry {k : Nat} {p : Place} (hp : (u.endEntry i id k).place? (i.entry k).stream = some p) :
    p.live = false := by
  rw [State.endEntry, State.place?_of_places (State.modEntry_places ..)] at hp
  split at hp
  · exact State.not_live_of_vacate hp
  · rename_i hlive
    simpa [hp] using hlive

theorem State.endEntry_items (i : Item) (u : State) (id k : Nat) : ∃ a, (u.endEntry i id k).items =
    (u.modEntry id k (fun e => { e with st := .committed, after := a })).items := by
  refine ⟨u.afterOf (i.entry k).stream, ?_⟩
  have h : (if (u.place? (i.entry k).stream).any (fun p => p.live) then u.vacate (i.entry k).stream else u).items =
      u.items := by
    split
    · exact u.vacate_items _
    · rfl
  exact congrArg (List.map _) h

theorem State.EndedTo.next (h : State.EndedTo id i n s u) (hn : n < i.entries.length) :
    State.EndedTo id i (n + 1) s (u.endEntry i id n) := by
  obtain ⟨⟨j, hj, hdisp, hlen, hst⟩, hothers, hvacant, hplaces⟩ := h
  obtain ⟨a, ha⟩ := u.endEntry_items i id n
  refine ⟨⟨_, (State.item?_of_items ha id).trans (State.item?_modEntry_same hj), hdisp, ?_, fun k hk => ?_⟩,
    hothers.trans ((OtherItems.of_items rfl).modItem.trans (.of_items ha)), fun k p hk hp => ?_, fun m hm => ?_⟩
  · exact (listModify_length ..).trans hlen
  · by_cases hkn : n = k
    · rw [← hkn, Item.entry_modEntry_same (hlen ▸ hn)]
    · rw [Item.entry_modEntry_ne hkn]
      exact hst k (by omega)
  · by_cases hkn : (i.entry k).stream = (i.entry n).stream
    · exact State.not_live_of_endEntry (hkn ▸ hp)
    · rw [u.otherPlaces_endEntry i id n _ hkn] at hp
      have : k ≠ n := fun e => hkn (e ▸ rfl)
      exact hvacant k p (by omega) hp
  · rw [u.otherPlaces_endEntry i id n m (Ne.symm (hm n (by omega)))]
    exact hplaces m (fun k hk => hm k (by omega))

theorem State.EndedTo.all (hi : s.item? id = some i) (hd : i.disp = none) (hid : i.id = id) :
    State.EndedTo id i i.entries.length s (s.eachEntry i (State.endEntry i)) := by
  have h : ∀ n, n ≤ i.entries.length →
      State.EndedTo id i n s ((List.range n).foldl (fun u k => u.endEntry i i.id k) s) := fun n => by
    induction n with
    | zero => exact fun _ => ⟨⟨i, hi, hd, rfl, by simp⟩, .of_items rfl, by simp, fun _ _ => rfl⟩
    | succ n ih =>
      intro hn
      rw [List.range_succ, List.foldl_append]
      exact hid.symm ▸ (ih (by omega)).next (by omega)
  exact h _ le_rfl

end End

/-! ### The commands -/

theorem exec_sync {s : State} {id : Nat} {i : Item} (h : s.mayAct id 0x0B i) :
    ∃ t, exec (.sync id) s = .next t ∧ t.item? id = some { i with took := true, opEnd := true } ∧ OtherItems id s t ∧
      t.places = s.places ∧ t.log = s.log := by
  have ht : exec (.sync id) s = .next ((s.markTook id).endOp id) :=
    congrArg Host.Outcome.next ((h.takeEffect _).trans (congrArg _ h.id_eq))
  exact ⟨_, ht, State.item?_modItem_same h.item?_markTook, (s.otherItems_markTook id).modItem, rfl, rfl⟩

theorem exec_kernel {s : State} {id : Nat} {i : Item} (h : s.mayAct id 0x0A i) :
    ∃ t, exec (.kernel id) s = .next t ∧
      t.item? id = some { i with took := true, entries := i.entries.map (fun e => { e with st := .running }) } ∧
      OtherItems id s t ∧ t.cores = s.cores := by
  have ht : exec (.kernel id) s = .next ((s.markTook id).modItem id (fun i =>
      { i with entries := i.entries.map (fun e => { e with st := .running }) })) :=
    congrArg Host.Outcome.next ((h.takeEffect _).trans (congrArg (fun n => (s.markTook id).modItem n _) h.id_eq))
  exact ⟨_, ht, State.item?_modItem_same h.item?_markTook, (s.otherItems_markTook id).modItem, rfl⟩

theorem exec_backward {s : State} {id : Nat} {i : Item} (h : s.mayAct id 0x09 i) (hbad : s.backwardBad i = false) :
    ∃ t, exec (.backward id) s = .next t ∧ OtherItems id s t ∧ t.places = s.places ∧
      t.item? id = some { i with
        took := true
        entries := i.entries.map (fun e => { e with st := .running, step := i.countB + i.countC }) } :=
  ⟨_, congrArg Host.Outcome.next ((h.takeEffect _).trans (if_neg (by exact hbad ▸ Bool.false_ne_true))),
    (s.otherItems_markTook id).modItem, rfl, State.item?_modItem_same h.item?_markTook⟩

theorem exec_backward_of_bad {s : State} {id : Nat} {i : Item} (h : s.mayAct id 0x09 i) (hbad : s.backwardBad i = true) :
    ∃ t j, exec (.backward id) s = .next t ∧ t.item? id = some j ∧ j.disp = some (.failed (Fail.loadCheck 0)) := by
  obtain ⟨j, hj, hfate⟩ := State.item?_failItem h.item?_markTook h.disp (Fail.loadCheck 0)
  exact ⟨_, j, congrArg Host.Outcome.next ((h.takeEffect _).trans (if_pos hbad)), hj, congrArg Prod.fst hfate⟩

theorem exec_endStreams {s : State} {id : Nat} {i : Item} (h : s.mayAct id 0x05 i) :
    ∃ t, exec (.endStreams id) s = .next t ∧
      (∃ j, t.item? id = some j ∧ j.opEnd = true ∧ j.disp = none ∧ j.entries.length = i.entries.length ∧
        ∀ k, k < i.entries.length → (j.entry k).st = .committed) ∧
      (∀ k p, k < i.entries.length → t.place? (i.entry k).stream = some p → p.live = false) ∧
      (∀ m, (∀ k, k < i.entries.length → (i.entry k).stream ≠ m) → t.place? m = s.place? m) ∧ OtherItems id s t := by
  obtain ⟨⟨j, hj, hdisp, hlen, hst⟩, hothers, hvacant, hplaces⟩ :=
    State.EndedTo.all (i := { i with took := true }) h.item?_markTook h.disp h.id_eq
  refine ⟨_, congrArg Host.Outcome.next ((h.takeEffect _).trans (State.endEntries_eq ..)),
    ⟨{ j with opEnd := true }, ?_, rfl, hdisp, hlen, hst⟩, hvacant, hplaces, ?_⟩
  · exact h.id_eq ▸ State.item?_modItem_same (h.id_eq.symm ▸ hj)
  · exact h.id_eq ▸ ((s.otherItems_markTook id).trans hothers).modItem

/-- A group that has been released is gone, with its places; every other group stands. -/
theorem State.group?_releaseGroup (s : State) (g h : Nat) :
    (s.releaseGroup g).group? h = if h = g then none else s.group? h := by
  rw [State.group?, State.releaseGroup_groups, List.find?_filter]
  split
  · rename_i e
    subst e
    rw [List.find?_eq_none]
    simp
  · rename_i e
    refine congrArg (fun q => s.groups.find? q) (funext fun x => ?_)
    by_cases hx : x.index = h <;> simp [hx, e]

/-- Every item that names a released group is marked (R18). -/
theorem State.gone_of_mem_releaseGroup (s : State) (g : Nat) {j : Item} (hj : j ∈ (s.releaseGroup g).items)
    (hg : g ∈ j.groups) : j.gone = true := by
  rw [State.releaseGroup_items] at hj
  obtain ⟨i, -, rfl⟩ := List.mem_map.mp hj
  split
  · rfl
  · rename_i h
    rw [if_neg h] at hg
    exact absurd (List.contains_iff_mem.mpr hg) h

theorem exec_closeGroup {s : State} {id g : Nat} {i : Item} (h : s.mayAct id 0x06 i) (hg : i.group = some g) :
    ∃ t, exec (.closeGroup id) s = .next t ∧ t.group? g = none ∧ (∀ p ∈ t.places, p.group ≠ g) ∧
      (∀ h, h ≠ g → t.group? h = s.group? h) ∧ (∃ j, t.item? id = some j ∧ j.opEnd = true ∧ j.disp = none) ∧
      (∀ j ∈ t.items, g ∈ j.groups → j.gone = true) := by
  have ht : exec (.closeGroup id) s = .next (((s.markTook id).releaseGroup g).endOp id) :=
    congrArg Host.Outcome.next ((h.takeEffect _).trans (by simp only [hg]))
  have hrel : ItemsAgree Item.disp (s.markTook id) ((s.markTook id).releaseGroup g) := .releaseGroup _ g (fun _ => rfl)
  obtain ⟨j, hj, hdisp⟩ := hrel.exists h.item?_markTook
  refine ⟨_, ht, ?_, fun p hp => State.group_of_mem_releaseGroup _ g hp, fun h hne => ?_,
    ⟨_, State.item?_modItem_same hj, rfl, hdisp.trans h.disp⟩, fun j hj hmem => ?_⟩
  · exact (State.group?_releaseGroup _ g g).trans (if_pos rfl)
  · exact (State.group?_releaseGroup _ g h).trans (if_neg hne)
  · obtain ⟨k, hk, rfl⟩ := List.mem_map.mp hj
    have hgone : g ∈ k.groups → k.gone = true := State.gone_of_mem_releaseGroup _ g hk
    split at hmem
    · rw [if_pos ‹_›]
      exact hgone hmem
    · rw [if_neg ‹_›]
      exact hgone hmem

/-- Settles O16: each of these items acts at once, on the state in which it is marked. -/
theorem itemsThatActAtOnce : Obligations.ItemsThatActAtOnce :=
  ⟨fun _ _ _ => exec_sync, fun _ _ _ => exec_kernel, fun _ _ _ => exec_backward, fun _ _ _ => exec_backward_of_bad,
    fun _ _ _ => exec_endStreams, fun _ _ _ _ => exec_closeGroup⟩

end Sys2Proof.Machine
end

section
/-! Arena room, forks and mirrors (R26, R132, R137 to R142), as the places show them. -/

namespace Sys2Proof.Machine

-- one theorem after the other: proofs that wait together take too many threads
set_option Elab.async false

/-! ### Groups of streams and room in the arena (R137, R139) -/

section Room
variable {s t : State} {n m : Nat}

theorem State.group?_of_groups (h : t.groups = s.groups) (g : Nat) : t.group? g = s.group? g := by
  simp [State.group?, h]

theorem State.groupOf_of_place? (hp : t.place? n = s.place? n) (hg : t.groups = s.groups) : t.groupOf n = s.groupOf n := by
  simp only [State.groupOf, hp, State.group?_of_groups hg]

theorem State.groupOf_eq {p : Place} (hp : s.place? n = some p) : s.groupOf n = s.group? p.group := by
  simp only [State.groupOf, hp]

/-- A change of a place that leaves its slot and its group leaves the arena's use. -/
theorem State.useArena_modPlace (s : State) (n b : Nat) {f : Place → Place}
    (ha : ∀ p, (f p).arena = p.arena := by exact fun _ => rfl) (hg : ∀ p, (f p).group = p.group := by exact fun _ => rfl) :
    (s.modPlace n f).useArena b = s.useArena b := by
  simp only [State.useArena, State.modPlace, List.filterMap_map]
  congr 2
  funext p
  by_cases h : p.stream = n <;> simp [h, ha, hg, State.group?]

theorem State.arenaRoom_modPlace (s : State) (n b : Nat) {f : Place → Place}
    (ha : ∀ p, (f p).arena = p.arena := by exact fun _ => rfl) (hg : ∀ p, (f p).group = p.group := by exact fun _ => rfl) :
    (s.modPlace n f).arenaRoom b = s.arenaRoom b := congrArg (s.arenaQuota b - ·) (s.useArena_modPlace n b ha hg)

/-- No request of box `b` waits for arena. -/
def State.noneWaits (s : State) (b : Nat) : Prop := ∀ w j, w ∈ s.arenaWait → s.item? w.1 = some j → j.box ≠ b

theorem State.noneWaits.of_agree {b : Nat} (h : s.noneWaits b) (hw : t.arenaWait = s.arenaWait)
    (hi : ItemsAgree Item.box s t) : t.noneWaits b := fun w j hmem hj => by
  have hbox := hi w.1
  rw [hj] at hbox
  obtain ⟨i, hs, e⟩ : ∃ i, s.item? w.1 = some i ∧ i.box = j.box := by simpa using hbox.symm
  exact e ▸ h w i (hw ▸ hmem) hs

/-- A request may take what has room where no request of its box waits (R139). -/
theorem State.mayTake_of_noneWaits {i : Item} {need : Nat} (hroom : need ≤ s.arenaRoom i.box) (h : s.noneWaits i.box)
    (k : Nat) : s.mayTake i k need = true := by
  have hany : s.arenaWait.any (fun w => w != (i.id, k) && (match s.item? w.1 with
      | some j => j.box == i.box && s.before j i
      | none => false)) = false := by
    rw [List.any_eq_false]
    intro w hw
    cases hj : s.item? w.1 with
    | none => simp
    | some j => simp [h w j hw hj]
  have hroom : decide (need ≤ s.arenaRoom i.box) = true := by simpa using hroom
  refine Bool.and_eq_true_iff.mpr ⟨hroom, ?_⟩
  rw [Bool.not_eq_true']
  exact hany

end Room

/-! ### Forks (R26) -/

/-- Where a stream stands in its life: live or not, step count, lineage, tapes, and the step count at its birth. -/
def Place.life (p : Place) : Bool × Nat × Nat × List Nat × Nat := (p.live, p.stepCount, p.lineage, p.tapes, p.bornAt)

/-- The life of a fork of the stream in `p` into the place `q`: at its step count, under the next lineage, without a tape. -/
def Place.childLife (p q : Place) : Bool × Nat × Nat × List Nat × Nat :=
  (true, p.stepCount, nextLineage q.lineage, [], p.stepCount)

section Fork
variable {s : State} {src dst : Nat} {p q : Place} {g : Group} {a : Slot}

theorem State.otherPlaces_forkInto (s : State) (src dst : Nat) : OtherPlaces dst s (s.forkInto src dst) := by
  unfold State.forkInto
  split
  · split
    · exact .of_places rfl
    · refine OtherPlaces.trans ?_ (.of_places (State.flushLab_places ..))
      exact (OtherPlaces.of_places rfl).modPlace
  · exact .of_places rfl

theorem State.forkInto_groups (s : State) (src dst : Nat) : (s.forkInto src dst).groups = s.groups :=
  (State.forkInto_leads .refl (List.Subset.refl _)).frame.groups (by decide)

theorem State.forkInto_items (s : State) (src dst : Nat) : (s.forkInto src dst).items = s.items :=
  (State.forkInto_leads .refl (List.Subset.refl _)).frame.items (by decide)

theorem State.place?_forkInto (hp : s.place? src = some p) (hq : s.place? dst = some q) (hg : s.groupOf src = some g)
    (ha : p.arena = some a) : ∃ r, (s.forkInto src dst).place? dst = some r ∧ r.life = p.childLife q := by
  simp only [State.forkInto, hp, hq, hg, ha, Option.some_or]
  rw [State.place?_of_places (State.flushLab_places ..)]
  exact ⟨_, State.place?_modPlace_same (p := q) hq, rfl⟩

/-- A list of destinations forked in turn: each is live as R26 gives it, and no other place changes. -/
theorem State.place?_foldl_forkInto {l : List Nat} (hp : s.place? src = some p) (hg : s.groupOf src = some g)
    (ha : p.arena = some a) (hsrc : src ∉ l) (hl : l.Nodup) :
    (∀ d q, d ∈ l → s.place? d = some q →
      ∃ r, (l.foldl (fun (s : State) d => s.forkInto src d) s).place? d = some r ∧ r.life = p.childLife q) ∧
    ∀ m, m ∉ l → (l.foldl (fun (s : State) d => s.forkInto src d) s).place? m = s.place? m := by
  induction l generalizing s with
  | nil => simp
  | cons d l ih =>
    obtain ⟨hd, hsrc⟩ : src ≠ d ∧ src ∉ l := by simpa using hsrc
    obtain ⟨hdl, hl⟩ := List.nodup_cons.mp hl
    have hkeep := s.otherPlaces_forkInto src d
    have hp' : (s.forkInto src d).place? src = some p := (hkeep src hd).trans hp
    have hg' : (s.forkInto src d).groupOf src = some g :=
      (State.groupOf_of_place? (hkeep src hd) (s.forkInto_groups src d)).trans hg
    obtain ⟨hin, hout⟩ := ih hp' hg' hsrc hl
    refine ⟨fun e q he hq => ?_, fun m hm => ?_⟩
    · rcases List.mem_cons.mp he with rfl | he
      · obtain ⟨r, hr, hf⟩ := State.place?_forkInto hp hq hg ha
        exact ⟨r, (hout e hdl).trans hr, hf⟩
      · exact hin e q he ((hkeep e (fun h => hdl (h ▸ he))).trans hq)
    · obtain ⟨hmd, hml⟩ : m ≠ d ∧ m ∉ l := by simpa using hm
      exact (hout m hml).trans (hkeep m hmd)

theorem State.foldl_forkInto_items (s : State) (l : List Nat) :
    (l.foldl (fun (s : State) d => s.forkInto src d) s).items = s.items := by
  induction l generalizing s with
  | nil => rfl
  | cons d l ih => exact (ih _).trans (s.forkInto_items src d)

end Fork

/-! ### Mirrors sent (R142) -/

section Mirror
variable {s : State} {id n : Nat} {p : Place}

theorem State.sendPages_places (s : State) (g : Group) (p : Place) : (s.sendPages g p).places = s.places :=
  (State.sendPages_leads .refl (List.Subset.refl _)).frame.places (by decide)

theorem State.emitMirror_items (s : State) (n : Nat) : (s.emitMirror n).items = s.items :=
  (State.emitMirror_leads .refl (List.Subset.refl _)).frame.items (by decide)

theorem State.sendMirror_groups (s : State) (id n : Nat) : (s.sendMirror id n).groups = s.groups :=
  (State.sendMirror_leads .refl (List.Subset.refl _)).frame.groups (by decide)

/-- Sending a stream's mirror notes the time in its place and changes nothing else of any place. -/
theorem State.emitMirror_places (s : State) (n : Nat) : (s.emitMirror n).places = s.places ∨
    ∃ w, (s.emitMirror n).places = (s.modPlace n (fun p => { p with mirrorSent := w })).places := by
  unfold State.emitMirror
  split
  · rename_i p g _ _
    split
    · exact .inl rfl
    · refine .inr ⟨some _, congrArg (List.map _) ?_⟩
      rw [State.bump_places, State.sendMsg_places]
      split
      · exact s.sendPages_places g p
      · rfl
  · exact .inl rfl

theorem State.sendMirror_places (s : State) (id n : Nat) : (s.sendMirror id n).places = s.places ∨
    ∃ w, (s.sendMirror id n).places = (s.modPlace n (fun p => { p with mirrorSent := w })).places := by
  unfold State.sendMirror
  split
  · split
    · exact .inl rfl
    · exact s.emitMirror_places n
  · exact .inl rfl

theorem State.otherPlaces_sendMirror (s : State) (id n : Nat) : OtherPlaces n s (s.sendMirror id n) := by
  rcases s.sendMirror_places id n with h | ⟨w, h⟩
  · exact .of_places h
  · exact ((OtherPlaces.of_places rfl).modPlace).trans (.of_places h)

theorem State.place?_sendMirror (id : Nat) (hp : s.place? n = some p) :
    ∃ w, (s.sendMirror id n).place? n = some { p with mirrorSent := w } := by
  rcases s.sendMirror_places id n with h | ⟨w, h⟩
  · exact ⟨p.mirrorSent, (State.place?_of_places h n).trans hp⟩
  · exact ⟨w, (State.place?_of_places h n).trans (State.place?_modPlace_same hp)⟩

theorem PlacesAgree.sendMirror {β : Type} {v : Place → β} (hv : ∀ p w, v { p with mirrorSent := w } = v p) (s : State)
    (id n : Nat) : PlacesAgree v s (s.sendMirror id n) := by
  rcases s.sendMirror_places id n with h | ⟨w, h⟩
  · exact .of_places h
  · exact ((PlacesAgree.refl s).modPlace n (hw := fun p => hv p w)).trans (.of_places h)

/-- Sending a mirror lets the item wait for it and changes nothing else of any item. -/
theorem ItemsAgree.sendMirror {β : Type} {v : Item → β} (hv : ∀ i l, v { i with mirrorWait := l } = v i) (s : State)
    (id n : Nat) : ItemsAgree v s (s.sendMirror id n) := by
  unfold State.sendMirror
  split
  · split
    · exact .refl s
    · exact ItemsAgree.modItem (.of_items (s.emitMirror_items n)) id (hv := fun i => hv i _)
  · exact .refl s

end Mirror

end Sys2Proof.Machine
end

section
/-! FORK, CULL and OPEN_GROUP (R18, R25, R26, R35, R132). -/

namespace Sys2Proof.Machine

-- one theorem after the other: proofs that wait together take too many threads
set_option Elab.async false

/-! ### FORK (R25, R26) -/

section Fork
variable {s : State} {i : Item} {p : Place} {g : Group}

theorem State.forkBad_eq_false {src : Nat} {dsts : List Nat} (h : s.forkBad src dsts = false) :
    dsts.Nodup ∧ src ∉ dsts := by
  unfold State.forkBad at h
  split at h
  · cases h
  · simp only [Bool.or_eq_false_iff, Bool.not_eq_false', decide_eq_true_eq] at h
    obtain ⟨⟨⟨-, hnodup⟩, hsrc⟩, -⟩ := h
    exact ⟨hnodup, by simpa using hsrc⟩

/-- The state in which a FORK's operation begins. -/
def State.forkBegun (s : State) (i : Item) : State :=
  ((s.modPlace i.groupStream (fun p => { p with waitAt := none })).unwait i.id 1).markStarted i.id

/-- The state in which every destination has been forked and its mirror sent. -/
def State.forkAll (s : State) (i : Item) : State :=
  i.streams.foldl (fun (s : State) d => s.sendMirror i.id d)
    (i.streams.foldl (fun (s : State) d => s.forkInto i.groupStream d) (s.forkBegun i))

/-- The source let go, and vacated where it is to be retired. -/
def State.leaveSource (s : State) (i : Item) : State :=
  let u := (s.unpin i.groupStream).modPlace i.groupStream (fun p => { p with held := false })
  if i.retireFlag then u.vacate i.groupStream else u

theorem State.forkTry_eq (hop : i.opEnd = false) (hbad : s.forkBad i.groupStream i.streams = false)
    (hp : s.place? i.groupStream = some p) (hg : s.groupOf i.groupStream = some g) (hres : p.residency = .resident)
    (hroom : i.streams.length * g.slotSize ≤ s.arenaRoom i.box) (hwait : s.noneWaits i.box) :
    s.forkTry i = ((s.forkAll i).leaveSource i).endOp i.id := by
  have htake : (s.modPlace i.groupStream (fun p => { p with waitAt := none })).mayTake i 1
      (i.streams.length * g.slotSize) = true := by
    have hwait' : (s.modPlace i.groupStream (fun p => { p with waitAt := none })).noneWaits i.box := hwait
    refine State.mayTake_of_noneWaits ?_ hwait' 1
    exact hroom.trans_eq (s.arenaRoom_modPlace _ _).symm
  simp [State.forkTry, hop, hbad, hp, hg, hres, htake]
  rfl

theorem State.place?_forkAll {a : Slot} (hbad : s.forkBad i.groupStream i.streams = false)
    (hp : s.place? i.groupStream = some p) (hg : s.groupOf i.groupStream = some g) (ha : p.arena = some a) {d : Nat}
    {q : Place} (hd : d ∈ i.streams) (hq : s.place? d = some q) :
    ∃ r, (s.forkAll i).place? d = some r ∧ r.life = p.childLife q := by
  obtain ⟨hnodup, hsrc⟩ := State.forkBad_eq_false hbad
  have hp' : (s.forkBegun i).place? i.groupStream = some { p with waitAt := none } := State.place?_modPlace_same hp
  have hg' : (s.forkBegun i).groupOf i.groupStream = some g := (State.groupOf_eq hp').trans ((State.groupOf_eq hp).symm.trans hg)
  have hq' : (s.forkBegun i).place? d = some q := by
    have hne : i.groupStream ≠ d := fun e => hsrc (e ▸ hd)
    exact (State.place?_modPlace_ne hne).trans hq
  obtain ⟨r, hr, hlife⟩ := (State.place?_foldl_forkInto hp' hg' ha hsrc hnodup).1 d q hd hq'
  have hmirror : PlacesAgree Place.life (i.streams.foldl (fun (s : State) d => s.forkInto i.groupStream d) (s.forkBegun i))
      (s.forkAll i) := .foldl _ (.refl _) (fun u d => .sendMirror (fun _ _ => rfl) u i.id d)
  obtain ⟨t, ht, hl⟩ := hmirror.exists hr
  exact ⟨t, ht, hl.trans hlife⟩

theorem State.otherPlaces_leaveSource (s : State) (i : Item) : OtherPlaces i.groupStream s (s.leaveSource i) := by
  have h : OtherPlaces i.groupStream s ((s.unpin i.groupStream).modPlace i.groupStream (fun p => { p with held := false })) :=
    ((OtherPlaces.of_places rfl).modPlace).modPlace
  unfold State.leaveSource
  split
  · exact h.trans (State.otherPlaces_vacate _ _)
  · exact h

theorem State.leaveSource_items (s : State) (i : Item) : (s.leaveSource i).items = s.items := by
  unfold State.leaveSource
  split
  · exact State.vacate_items _ _
  · rfl

/-- A FORK's work on the places leaves the item's disposition. -/
theorem State.forkAll_itemsAgree (s : State) (i : Item) : ItemsAgree Item.disp s (s.forkAll i) := by
  have hbegun : ItemsAgree Item.disp s (s.forkBegun i) := (ItemsAgree.of_items rfl).modItem i.id
  exact (hbegun.trans (.of_items (State.foldl_forkInto_items _ _))).trans
    (.foldl _ (.refl _) (fun u d => .sendMirror (fun _ _ => rfl) u i.id d))

end Fork

theorem exec_fork {s : State} {id : Nat} {i : Item} {p : Place} {g : Group} {a : Slot} (h : s.mayAct id 0x02 i)
    (hop : i.opEnd = false) (hbad : s.forkBad i.groupStream i.streams = false) (hp : s.place? i.groupStream = some p)
    (hg : s.groupOf i.groupStream = some g) (hres : p.residency = .resident) (ha : p.arena = some a)
    (hroom : i.streams.length * g.slotSize ≤ s.arenaRoom i.box) (hwait : s.noneWaits i.box) :
    ∃ t, exec (.fork id) s = .next t ∧ (∃ j, t.item? id = some j ∧ j.opEnd = true ∧ j.disp = none) ∧
      (∀ d q, d ∈ i.streams → s.place? d = some q → ∃ r, t.place? d = some r ∧ r.live = true ∧
        r.stepCount = p.stepCount ∧ r.lineage = nextLineage q.lineage ∧ r.tapes = [] ∧ r.bornAt = p.stepCount) ∧
      (i.retireFlag = true → ∀ r, t.place? i.groupStream = some r → r.live = false) := by
  have hwait' : (s.markTook id).noneWaits i.box := hwait.of_agree rfl ((ItemsAgree.of_items rfl).modItem id)
  have ht := (h.takeEffect State.forkTry).trans
    (State.forkTry_eq (i := { i with took := true }) hop hbad hp hg hres hroom hwait')
  have hitems : ItemsAgree Item.disp (s.markTook id) (((s.markTook id).forkAll { i with took := true }).leaveSource i) :=
    (State.forkAll_itemsAgree _ _).trans (.of_items (State.leaveSource_items _ _))
  obtain ⟨j, hj, hdisp⟩ := hitems.exists h.item?_markTook
  refine ⟨_, congrArg Host.Outcome.next ht, ⟨{ j with opEnd := true }, ?_, rfl, hdisp.trans h.disp⟩, fun d q hd hq => ?_,
    fun hret r hr => ?_⟩
  · exact h.id_eq ▸ State.item?_modItem_same (h.id_eq.symm ▸ hj)
  · obtain ⟨r, hr, hlife⟩ := State.place?_forkAll (s := s.markTook id) (i := { i with took := true }) hbad hp hg ha hd hq
    have hne : d ≠ i.groupStream := fun e => (State.forkBad_eq_false hbad).2 (e ▸ hd)
    simp only [Place.life, Place.childLife, Prod.mk.injEq] at hlife
    exact ⟨r, (State.otherPlaces_leaveSource _ { i with took := true } d hne).trans hr, hlife⟩
  · have hvac : (((s.markTook id).forkAll { i with took := true }).leaveSource { i with took := true }) =
        State.vacate _ i.groupStream := if_pos hret
    exact State.not_live_of_vacate (hvac ▸ hr)

theorem exec_fork_of_bad {s : State} {id : Nat} {i : Item} (h : s.mayAct id 0x02 i) (hop : i.opEnd = false)
    (hbad : s.forkBad i.groupStream i.streams = true) : ∃ t j, exec (.fork id) s = .next t ∧ t.item? id = some j ∧
      j.disp = some (.failed (Fail.loadCheck 0)) ∧
      ∀ m p q, s.place? m = some p → t.place? m = some q → q.live = p.live ∧ q.stepCount = p.stepCount := by
  have htry : (s.markTook id).forkTry { i with took := true } = (s.markTook id).failItem id (Fail.loadCheck 0) := by
    have hb : (s.markTook id).forkBad i.groupStream i.streams = true := hbad
    rw [← h.id_eq] at hb ⊢
    simp only [State.forkTry]
    rw [if_neg (by simp [hop])]
    exact if_pos hb
  obtain ⟨j, hj, hfate⟩ := State.item?_failItem h.item?_markTook h.disp (Fail.loadCheck 0)
  have hplaces := State.failItem_fork_placesAgree h.item?_markTook h.disp h.kind_eq (Fail.loadCheck 0)
  refine ⟨_, j, congrArg Host.Outcome.next ((h.takeEffect _).trans htry), hj, congrArg Prod.fst hfate, fun m p q hp hq => ?_⟩
  obtain ⟨q', hq', hv⟩ := hplaces.exists (p := p) hp
  cases hq'.symm.trans hq
  exact ⟨congrArg Prod.fst hv, congrArg Prod.snd hv⟩

/-! ### CULL (R35) -/

section Cull
variable {s : State} {i : Item} {g : Group}

/-- A host-driven cull without refills has nothing to wait for (R35). -/
theorem State.cullApply_nil (s : State) (i : Item) (k : Nat) (gone : List Nat) :
    s.cullApply i k gone [] = some (gone.foldl State.vacate ((s.unwait i.id k).markStarted i.id)) := by
  have h : s.cullTakes [] - s.cullFrees gone = 0 := Nat.zero_sub _
  simp only [State.cullApply, h, true_or, if_true]
  rfl

theorem State.not_live_of_foldl_vacate {l : List Nat} {m : Nat} {p : Place} (hm : m ∈ l)
    (hp : (l.foldl State.vacate s).place? m = some p) : p.live = false := by
  induction l generalizing s with
  | nil => cases hm
  | cons n l ih =>
    by_cases hml : m ∈ l
    · exact ih hml hp
    · have hmn : m = n := (List.mem_cons.mp hm).resolve_right hml
      rw [List.foldl_cons, State.place?_foldl_vacate_ne hml, hmn] at hp
      exact State.not_live_of_vacate hp

/-- A cull of live places of its group that leaves one vacates them (R35). -/
theorem State.cullTry_eq (hop : i.opEnd = false) (hrefill : i.refillFlag = false) (hsrc : i.sources = [])
    (hg : s.groupOf i.groupStream = some g) (hnodup : i.streams.Nodup)
    (hlive : ∀ m ∈ i.streams, ∃ p, s.place? m = some p ∧ p.group = g.index ∧ p.live = true)
    (hleft : ∃ m ∈ g.streams, m ∉ i.streams ∧ ∃ p, s.place? m = some p ∧ p.live = true) :
    s.cullTry i = (i.streams.foldl State.vacate ((s.unwait i.id 0).markStarted i.id)).endOp i.id := by
  have hrest : g.streams.any (fun t => !i.streams.contains t && (s.place? t).any (fun p => p.live)) = true := by
    rw [List.any_eq_true]
    obtain ⟨m, hm, hmi, p, hp, hpl⟩ := hleft
    exact ⟨m, hm, by simp [hmi, hp, hpl]⟩
  unfold State.cullTry
  rw [if_neg (by simp [hop])]
  simp only [hg, hsrc, hrefill, hrest, hnodup, State.cullApply_nil, decide_true, List.any_nil, Bool.not_true,
    Bool.or_false, Bool.false_eq_true, if_false]
  refine if_neg (fun hbad => ?_)
  obtain ⟨m, hm, hbad⟩ := List.any_eq_true.mp hbad
  obtain ⟨p, hp, hpg, hpl⟩ := hlive m hm
  simp [hp, hpg, hpl] at hbad

end Cull

theorem exec_cull {s : State} {id : Nat} {i : Item} {g : Group} (h : s.mayAct id 0x04 i) (hop : i.opEnd = false)
    (hrefill : i.refillFlag = false) (hsrc : i.sources = []) (hg : s.groupOf i.groupStream = some g)
    (hnodup : i.streams.Nodup)
    (hlive : ∀ m ∈ i.streams, ∃ p, s.place? m = some p ∧ p.group = g.index ∧ p.live = true)
    (hleft : ∃ m ∈ g.streams, m ∉ i.streams ∧ ∃ p, s.place? m = some p ∧ p.live = true) :
    ∃ t, exec (.cull id) s = .next t ∧ (∃ j, t.item? id = some j ∧ j.opEnd = true ∧ j.disp = none) ∧
      (∀ m p, m ∈ i.streams → t.place? m = some p → p.live = false) ∧
      (∀ m, m ∉ i.streams → t.place? m = s.place? m) := by
  have ht := (h.takeEffect State.cullTry).trans
    (State.cullTry_eq (s := s.markTook id) (i := { i with took := true }) hop hrefill hsrc hg hnodup hlive hleft)
  have hitems : ItemsAgree Item.disp (s.markTook id)
      (i.streams.foldl State.vacate (((s.markTook id).unwait i.id 0).markStarted i.id)) :=
    ((ItemsAgree.of_items rfl).modItem i.id).trans (.of_items (State.foldl_vacate_items _ _))
  obtain ⟨j, hj, hdisp⟩ := hitems.exists h.item?_markTook
  refine ⟨_, congrArg Host.Outcome.next ht, ⟨{ j with opEnd := true }, ?_, rfl, hdisp.trans h.disp⟩,
    fun m p hm hp => State.not_live_of_foldl_vacate hm hp, fun m hm => State.place?_foldl_vacate_ne hm⟩
  exact h.id_eq ▸ State.item?_modItem_same (h.id_eq.symm ▸ hj)

/-! ### OPEN_GROUP (R18, R132) -/

/-- The slot of place 0 as an OPEN_GROUP fills it from its image (R132). -/
def State.openSlot (s : State) (i : Item) (p : Place) (g : Group) : Slot :=
  { hdr := slotHeader g (i.entry 0).stream (genStart g.seed) 0 s.roundNow p.lineage
    payload := ({} : Store 8).setRun 0 (s.readBox i.box (i.argC + 64) (g.slotSize - 64)) }

section Open
variable {s : State} {i : Item} {p : Place} {g : Group}

/-- The state of an OPEN_GROUP that takes effect: place 0 filled, its entry running. -/
theorem State.openTry_eq (hp : s.place? (i.entry 0).stream = some p) (hg : s.groupOf (i.entry 0).stream = some g)
    (hlive : p.live = false) (hmap : s.mapped i.box (i.argC + 64) (g.slotSize - 64) false = true)
    (hpoison : s.poisonedBox i.box (i.argC + 64) (g.slotSize - 64) = false) (hroom : g.slotSize ≤ s.arenaRoom i.box)
    (hwait : s.noneWaits i.box) : ∃ (u : State) (f : Place → Place), u.items = s.items ∧ u.places = s.places ∧
      (∀ q, (f q).stream = q.stream) ∧
      (f p).live = true ∧ (f p).stepCount = 0 ∧ (f p).held = true ∧ (f p).arena = some (s.openSlot i p g) ∧
      s.openTry i = ((u.modPlace (i.entry 0).stream f).modEntry i.id 0 (fun e =>
        { e with st := .running, begun := true, gen := genStart g.seed })).markStarted i.id := by
  have htake := State.mayTake_of_noneWaits hroom hwait 0
  simp only [State.openTry, hp, hg, hlive, hmap, hpoison, htake, Bool.not_true, Bool.false_eq_true, if_false]
  refine ⟨(s.unwait i.id 0).draw.2, _, rfl, rfl, ?_, ?_, ?_, ?_, ?_, rfl⟩
  · exact fun _ => rfl
  all_goals rfl

end Open

theorem exec_openGroup {s : State} {id : Nat} {i : Item} {p : Place} {g : Group} (h : s.mayAct id 0x01 i)
    (hlen : 0 < i.entries.length) (hp : s.place? (i.entry 0).stream = some p)
    (hg : s.groupOf (i.entry 0).stream = some g) (hlive : p.live = false)
    (hmap : s.mapped i.box (i.argC + 64) (g.slotSize - 64) false = true)
    (hpoison : s.poisonedBox i.box (i.argC + 64) (g.slotSize - 64) = false) (hroom : g.slotSize ≤ s.arenaRoom i.box)
    (hwait : s.noneWaits i.box) : ∃ t, exec (.openGroup id) s = .next t ∧ OtherItems id s t ∧
      OtherPlaces (i.entry 0).stream s t ∧
      (∃ q, t.place? (i.entry 0).stream = some q ∧ q.live = true ∧ q.stepCount = 0 ∧ q.held = true ∧
        q.arena = some (s.openSlot i p g)) ∧
      ∃ j, t.item? id = some j ∧ j.state = .started ∧ (j.entry 0).st = .running ∧ (j.entry 0).gen = genStart g.seed := by
  have hwait' : (s.markTook id).noneWaits i.box := hwait.of_agree rfl ((ItemsAgree.of_items rfl).modItem id)
  obtain ⟨u, f, hitems, hplaces, hfs, hfl, hfc, hfh, hfa, htry⟩ :=
    State.openTry_eq (s := s.markTook id) (i := { i with took := true }) hp hg hlive hmap hpoison hroom hwait'
  have ht := (h.takeEffect State.openTry).trans htry
  have hu : (u.modPlace (i.entry 0).stream f).item? id = some { i with took := true } :=
    (State.item?_of_items hitems id).trans h.item?_markTook
  refine ⟨_, congrArg Host.Outcome.next ht, ?_, ?_, ⟨f p, ?_, hfl, hfc, hfh, hfa⟩, ?_⟩
  · have hother : OtherItems id s (u.modPlace (i.entry 0).stream f) := (s.otherItems_markTook id).trans (.of_items hitems)
    have hid : ({ i with took := true } : Item).id = id := h.id_eq
    rw [hid]
    exact hother.modItem.modItem
  · exact ((OtherPlaces.of_places hplaces).modPlace hfs).trans (.of_places rfl)
  · exact State.place?_modPlace_same ((State.place?_of_places hplaces _).trans hp) hfs
  · have hid : ({ i with took := true } : Item).id = id := h.id_eq
    rw [hid]
    refine ⟨_, State.item?_modItem_same (State.item?_modEntry_same hu), ?_, ?_, ?_⟩
    · exact if_pos (by simp [Item.modEntry, h.disp])
    · exact congrArg Entry.st (Item.entry_modEntry_same hlen)
    · exact congrArg Entry.gen (Item.entry_modEntry_same hlen)

/-- Settles O17: each form by its own lemma. -/
theorem groupsForkCullAndOpen : Obligations.GroupsForkCullAndOpen :=
  ⟨fun _ _ _ _ _ _ => exec_fork, fun _ _ _ => exec_fork_of_bad, fun _ _ _ _ => exec_cull, fun _ _ _ _ _ => exec_openGroup⟩

end Sys2Proof.Machine
end

section
/-! Entries of an item taken in turn (R20, R133, R137): what one entry's fate leaves of the item and of the other entries. -/

namespace Sys2Proof.Machine

-- one theorem after the other: proofs that wait together take too many threads
set_option Elab.async false

/-! ### One entry after another -/

/-- What is decided of an item, and where its entry `m` stands. -/
def Item.outlook (m : Nat) (i : Item) : Option Disp × Bool × Nat × Entry := (i.disp, i.took, i.entries.length, i.entry m)

theorem Item.outlook_modEntry {i : Item} {k m : Nat} (h : k ≠ m) (f : Entry → Entry) :
    (i.modEntry k f).outlook m = i.outlook m := by
  simp only [Item.outlook, Item.entry_modEntry_ne h]
  simp [Item.modEntry]

theorem State.eachEntry_eq_first {i : Item} (h : 0 < i.entries.length) (s : State) (f : State → Nat → Nat → State) :
    s.eachEntry i f =
      (List.range (i.entries.length - 1)).foldl (fun s k => f s i.id (k + 1)) (f s i.id 0) := by
  obtain ⟨n, hn⟩ : ∃ n, i.entries.length = n + 1 := ⟨_, (Nat.succ_pred_eq_of_pos h).symm⟩
  rw [State.eachEntry, hn, List.range_succ_eq_map, List.foldl_cons, List.foldl_map]
  rfl

/-- What every later entry keeps still holds after all of them. -/
theorem State.eachEntry_keeps {i : Item} {s : State} {f : State → Nat → Nat → State} {P : State → Prop}
    (h : 0 < i.entries.length) (h0 : P (f s i.id 0)) (hf : ∀ u k, k ≠ 0 → P u → P (f u i.id k)) : P (s.eachEntry i f) := by
  rw [State.eachEntry_eq_first h]
  generalize f s i.id 0 = u at h0
  induction List.range (i.entries.length - 1) generalizing u with
  | nil => exact h0
  | cons k l ih => exact ih _ (hf u (k + 1) (by omega) h0)

theorem ItemsAgree.eachEntry {β : Type} {v : Item → β} {i : Item} {s : State} {f : State → Nat → Nat → State} {id : Nat}
    (hid : i.id = id) (h : 0 < i.entries.length) (hf : ∀ u k, k ≠ 0 → ItemsAgree v u (f u id k)) :
    ItemsAgree v (f s id 0) (s.eachEntry i f) := by
  subst hid
  exact State.eachEntry_keeps (P := fun u => ItemsAgree v (f s i.id 0) u) h (.refl _) (fun u k hk hu => hu.trans (hf u k hk))

/-! ### Waits and moves (R137, R139) -/

section Moves
variable {β : Type} {v : Item → β} (hst : ∀ i st, v { i with state := st } = v i) (s : State)
include hst

theorem ItemsAgree.markStarted (id : Nat) : ItemsAgree v s (s.markStarted id) :=
  (ItemsAgree.refl s).modItem id (hv := fun i => hst i _)

theorem ItemsAgree.waitArena (i : Item) (k need home : Nat) : ItemsAgree v s (s.waitArena i k need home) := by
  have hev : (State.evictFor s.places.length s i.box need).items = s.items :=
    (State.evictFor_leads .refl (List.Subset.refl _)).frame.items (by decide)
  unfold State.waitArena
  generalize State.evictFor s.places.length s i.box need = u at hev
  have hcount : ∀ c, (u.when c (u.bump .fork home 7 1)).items = s.items := fun c => by
    cases c
    · exact hev
    · exact (State.bump_items ..).trans hev
  refine ItemsAgree.modItem (.of_items ?_) i.id (hv := fun i => hst i _)
  split
  · exact hcount _
  · exact hcount _

theorem ItemsAgree.bringIn (i : Item) (k stream : Nat) : ItemsAgree v s (s.bringIn i k stream) := by
  unfold State.bringIn
  split
  · extract_lets u
    have hu : ItemsAgree v s u := .trans (.of_items rfl) (.markStarted hst _ i.id)
    split
    · exact hu
    · split
      · exact hu.trans (.of_items rfl)
      · exact hu.trans (.waitArena hst u _ _ _ _)
  · exact .refl s

end Moves

/-! ### An entry failed (R21) -/

section Fail
variable {β : Type} {v : Item → β} {s : State} {id k : Nat} {i : Item}

theorem State.leaveStep_items (s : State) (e : Entry) (ok : Bool) : (s.leaveStep e ok).items = s.items :=
  (State.leaveStep_leads .refl (List.Subset.refl _)).frame.items (by decide)

/-- The state in which the ledger has entry `k` as failed: its queued instances and its wait for arena are gone. -/
def State.markFailed (s : State) (id k : Nat) (f : Fail) : State :=
  let u := (s.dropQueued id k).modEntry id k (fun e => { e with st := .failed f })
  { u with arenaWait := u.arenaWait.erase (id, k) }

/-- What a failed entry's stream loses (R21, R123, R164). -/
def State.leaveFailed (s : State) (e : Entry) (f : Fail) : State :=
  if e.begun ∧ f.reason.faults then (s.leaveStep e false).faultStream e.stream else s.leaveStep e false

theorem State.failEntry_eq (hi : s.item? id = some i) (f : Fail) : s.failEntry id k f =
    if i.isStep then
      ((s.markFailed id k f).leaveFailed (i.entry k) f).modEntry id k (fun e =>
        { e with after := ((s.markFailed id k f).leaveFailed (i.entry k) f).afterOf e.stream })
    else s.markFailed id k f := by
  simp only [State.failEntry, hi]
  cases i.isStep
  · rfl
  · simp only [Bool.not_true, Bool.false_eq_true, if_false, if_true]
    rfl

theorem State.leaveFailed_items (s : State) (e : Entry) (f : Fail) : (s.leaveFailed e f).items = s.items := by
  unfold State.leaveFailed
  split
  · exact s.leaveStep_items e false
  · exact s.leaveStep_items e false

theorem ItemsAgree.failEntry (he : ∀ i g, v (i.modEntry k g) = v i) (s : State) (id : Nat) (f : Fail) :
    ItemsAgree v s (s.failEntry id k f) := by
  cases hi : s.item? id with
  | none =>
    simp only [State.failEntry, hi]
    exact .refl s
  | some i =>
    have hmark : ItemsAgree v s (s.markFailed id k f) := (ItemsAgree.of_items rfl).modItem id (hv := fun i => he i _)
    rw [State.failEntry_eq hi]
    split
    · exact (hmark.trans (.of_items (State.leaveFailed_items ..))).modItem id (hv := fun i => he i _)
    · exact hmark

/-- An entry that fails has the failure, and its item is decided no further (R21). -/
theorem State.item?_failEntry (hi : s.item? id = some i) (hk : k < i.entries.length) (f : Fail) :
    ∃ j, (s.failEntry id k f).item? id = some j ∧ j.disp = i.disp ∧ j.took = i.took ∧
      j.entries.length = i.entries.length ∧ (j.entry k).st = .failed f := by
  have hmark : (s.markFailed id k f).item? id = some (i.modEntry k (fun e => { e with st := .failed f })) :=
    State.item?_modEntry_same hi
  have hlen : k < (i.modEntry k (fun e => { e with st := .failed f })).entries.length := by simpa [Item.modEntry] using hk
  have hst := congrArg Entry.st (Item.entry_modEntry_same (f := fun e => { e with st := .failed f }) hk)
  rw [State.failEntry_eq hi]
  split
  · refine ⟨_, State.item?_modEntry_same ((State.item?_of_items (State.leaveFailed_items ..) id).trans hmark), rfl, rfl,
      ?_, ?_⟩
    · simp [Item.modEntry]
    · exact (congrArg Entry.st (Item.entry_modEntry_same hlen)).trans hst
  · exact ⟨_, hmark, rfl, rfl, by simp [Item.modEntry], hst⟩

end Fail

/-! ### Entries of a STEP, a PARK and a RECALL -/

section Others
variable {β : Type} {v : Item → β} {k : Nat} (he : ∀ i g, v (i.modEntry k g) = v i)
  (hst : ∀ i st, v { i with state := st } = v i)

theorem ItemsAgree.settle (he : ∀ i g, v (i.modEntry k g) = v i) (s : State) (id : Nat) (pinned : Bool) :
    ItemsAgree v s (s.settle id k pinned) := (ItemsAgree.refl s).modItem id (hv := fun i => he i _)

theorem State.headerFailed_items (s : State) (n w : Nat) (c : Option Nat) (t : Option W64) :
    (s.headerFailed n w c t).items = s.items :=
  (State.headerFailed_leads .refl (List.Subset.refl _)).frame.items (by decide)

theorem State.beginOutbound_items (s : State) (n : Nat) (forced : Bool) : (s.beginOutbound n forced).items = s.items :=
  (State.beginOutbound_leads .refl (List.Subset.refl _)).frame.items (by decide)

include he hst

theorem ItemsAgree.enterStep (s : State) (i : Item) (p : Place) (g : Group) : ItemsAgree v s (s.enterStep i k p g) := by
  unfold State.enterStep
  extract_lets e a why u gen
  have hu : ItemsAgree v s u := .of_items (by
    unfold u
    clear u
    clear_value why
    cases why
    · rfl
    · exact s.headerFailed_items ..)
  generalize (if why.isSome then p.stepCount else a.stepCount) = n
  split
  · exact hu.trans (.failEntry he u i.id _)
  · split
    · exact hu.trans (.failEntry he u i.id _)
    · split
      · exact ItemsAgree.modItem (hu.trans (.of_items rfl)) i.id (hv := fun i => he i _)
      · split
        · exact hu.trans (.failEntry he u i.id _)
        · extract_lets slot w z
          have hz : ItemsAgree v s z := hu.trans (.of_items (by
            unfold z
            split
            · exact w.dropHistory_items _
            · rfl))
          exact (hz.modItem i.id (hv := fun i => he i _)).trans (.markStarted hst _ i.id)

theorem ItemsAgree.stepEntry (s : State) (id : Nat) : ItemsAgree v s (s.stepEntry id k) := by
  unfold State.stepEntry
  split
  · exact .refl s
  · extract_lets e u after w
    split
    · exact .refl s
    · split
      · split
        · exact .failEntry he s id _
        · split
          · split
            · exact .failEntry he s id _
            · have hw : ItemsAgree v s w := .of_items (by
                unfold w
                split
                · exact (u.vacate_items _).trans (s.leaveStep_items e true)
                · exact s.leaveStep_items e true)
              exact hw.modItem id (hv := fun i => he i _)
          · split
            · exact .bringIn hst s _ _ _
            · exact .enterStep he hst s _ _ _
      · exact .failEntry he s id _

theorem ItemsAgree.parkEntry (s : State) (id : Nat) : ItemsAgree v s (s.parkEntry id k) := by
  unfold State.parkEntry
  split
  · exact .refl s
  · dsimp only
    split
    · exact .refl s
    · split
      · exact .settle he s id _
      · split
        · exact .settle he s id _
        · split
          · exact .settle he s id _
          · exact .refl s
          · exact .refl s
          · split
            · exact .trans (.of_items (State.bump_items ..)) (.settle he _ id _)
            · split
              · exact .refl s
              · exact .trans (.of_items (s.beginOutbound_items _ _)) (.markStarted hst _ id)

theorem ItemsAgree.recallEntry (s : State) (id : Nat) : ItemsAgree v s (s.recallEntry id k) := by
  unfold State.recallEntry
  split
  · exact .refl s
  · extract_lets e
    split
    · exact .refl s
    · split
      · exact .settle he s id _
      · split
        · exact .settle he s id _
        · split
          · exact .trans (.of_items rfl) (.settle he _ id _)
          · exact .bringIn hst s _ _ _

end Others

end Sys2Proof.Machine
end

section
/-! STEP: an entry's checks and what it begins (R20, R29, R133 to R136). -/

namespace Sys2Proof.Machine

-- one theorem after the other: proofs that wait together take too many threads
set_option Elab.async false

/-! ### The checks of an entry (R20, R125) -/

section Enter
variable {s : State} {id k : Nat} {i : Item} {p : Place} {g : Group}

/-- An entry that waits for a RESIDENT stream enters its step. -/
theorem State.stepEntry_eq_enterStep (hi : s.item? id = some i) (hw : (i.entry k).st = .waiting)
    (hp : s.place? (i.entry k).stream = some p) (hg : s.groupOf (i.entry k).stream = some g) (hlive : p.live = true)
    (hpause : (i.entry k).pause = false) (hres : p.residency = .resident) :
    s.stepEntry id k = s.enterStep i k p g := by
  simp [State.stepEntry, hi, hw, hp, hg, hlive, hpause, hres]

/-- An entry that pauses leaves its step (R136). -/
theorem State.stepEntry_eq_pause (hi : s.item? id = some i) (hw : (i.entry k).st = .waiting)
    (hp : s.place? (i.entry k).stream = some p) (hg : s.groupOf (i.entry k).stream = some g) (hlive : p.live = true)
    (hpause : (i.entry k).pause = true) (hver : (i.entry k).versionBad p p.stepCount = false) :
    ∃ (u : State) (a : Option (Nat × Bool)), u.items = s.items ∧
      s.stepEntry id k = u.modEntry id k (fun e => { e with st := .paused, after := a }) := by
  have hu : (if (i.entry k).endAfter then (s.leaveStep (i.entry k) true).vacate (i.entry k).stream
      else s.leaveStep (i.entry k) true).items = s.items := by
    split
    · exact (State.vacate_items ..).trans (s.leaveStep_items ..)
    · exact s.leaveStep_items ..
  refine ⟨_, (s.leaveStep (i.entry k) true).afterOf (i.entry k).stream, hu, ?_⟩
  simp only [State.stepEntry, hi, hw, hp, hg, hlive, hpause, hver, ne_eq, not_true_eq_false, if_false, if_true,
    Bool.not_true, Bool.false_eq_true]

variable (hid : i.id = id) (hhdr : headerFault p (p.arena.getD {}) = none)
include hid hhdr

theorem State.enterStep_eq_run (hver : (i.entry k).versionBad p (p.arena.getD {}).stepCount = false)
    (hreset : (i.entry k).reset = false) : s.enterStep i k p g =
      (s.modPlace (i.entry k).stream (fun p => { p with held := true, waitAt := none })).modEntry id k (fun e =>
        { e with st := .running, gen := (p.arena.getD {}).gen }) := by
  subst hid
  simp only [State.enterStep, hhdr, hver, hreset, Option.isSome_none, Bool.false_eq_true, false_and, if_false,
    Bool.not_false, if_true]

theorem State.enterStep_eq_fail (hver : (i.entry k).versionBad p (p.arena.getD {}).stepCount = true) :
    s.enterStep i k p g = s.failEntry id k (i.entryFail k .stateVersion) := by
  subst hid
  simp only [State.enterStep, hhdr, hver, Option.isSome_none, Bool.false_eq_true, false_and, if_false, if_true]

/-- The stream's place as RESET with no image leaves it: a zero payload under a fresh header (R134). -/
def Place.resetTo (p : Place) (g : Group) (round : Nat) (q : Place) : Place :=
  let slot : Slot := { hdr := slotHeader g p.stream (p.arena.getD {}).gen p.stepCount round p.lineage }
  { q with
    arena := some slot, window := q.window.map (fun _ => slot), faulted := false, lastUse := round, held := true
    waitAt := none }

theorem State.enterStep_eq_reset (hver : (i.entry k).versionBad p (p.arena.getD {}).stepCount = false)
    (hreset : (i.entry k).reset = true) (hva : (i.entry k).resetVa = 0) : s.enterStep i k p g =
      ((if (i.entry k).historyClear then
          (s.modPlace (i.entry k).stream (p.resetTo g s.roundNow)).dropHistory (i.entry k).stream
        else s.modPlace (i.entry k).stream (p.resetTo g s.roundNow)).modEntry id k (fun e =>
          { e with st := .running, begun := true, gen := (p.arena.getD {}).gen })).markStarted id := by
  subst hid
  simp only [State.enterStep, hhdr, hver, hreset, hva, State.resetImage, Option.isSome_none, Bool.false_eq_true,
    false_and, if_false, Bool.not_true, if_true]
  rfl

end Enter

/-! ### STEP (R20, R29) -/

section Step
variable {s : State} {id : Nat} {i : Item} {p : Place} {g : Group}

theorem exec_step_of_cullMissing (h : s.mayAct id 0x03 i) (hmiss : s.cullMissing i = true) :
    ∃ t j, exec (.step id) s = .next t ∧ t.item? id = some j ∧ j.disp = some (.failed (Fail.loadCheck 0)) := by
  obtain ⟨j, hj, hfate⟩ := State.item?_failItem h.item?_markTook h.disp (Fail.loadCheck 0)
  exact ⟨_, j, congrArg Host.Outcome.next ((h.takeEffect _).trans (if_pos hmiss)), hj, congrArg Prod.fst hfate⟩

theorem exec_step_eq (h : s.mayAct id 0x03 i) (hmiss : s.cullMissing i = false) : exec (.step id) s =
    .next ((s.markTook id).eachEntry { i with took := true } State.stepEntry) :=
  congrArg Host.Outcome.next ((h.takeEffect _).trans (if_neg (by exact hmiss ▸ Bool.false_ne_true)))

/-- What entry 0 of a STEP has come to stands after the other entries. -/
theorem exec_step_of_first (h : s.mayAct id 0x03 i) (hmiss : s.cullMissing i = false) (hlen : 0 < i.entries.length)
    {j : Item} (hj : ((s.markTook id).stepEntry id 0).item? id = some j) :
    ∃ t k, exec (.step id) s = .next t ∧ t.item? id = some k ∧ k.outlook 0 = j.outlook 0 := by
  have hagree : ItemsAgree (Item.outlook 0) ((s.markTook id).stepEntry id 0)
      ((s.markTook id).eachEntry { i with took := true } State.stepEntry) :=
    .eachEntry h.id_eq hlen (fun u k hk => .stepEntry (fun i g => Item.outlook_modEntry hk g) (fun _ _ => rfl) u id)
  obtain ⟨k, hk, hv⟩ := hagree.exists hj
  exact ⟨_, k, exec_step_eq h hmiss, hk, hv⟩

theorem Item.outlook_eq_iff {i j : Item} {m : Nat} : j.outlook m = i.outlook m ↔
    j.disp = i.disp ∧ j.took = i.took ∧ j.entries.length = i.entries.length ∧ j.entry m = i.entry m := by
  simp [Item.outlook]

variable (h : s.mayAct id 0x03 i) (hmiss : s.cullMissing i = false) (hlen : 0 < i.entries.length)
  (hw : (i.entry 0).st = .waiting) (hp : s.place? (i.entry 0).stream = some p)
  (hg : s.groupOf (i.entry 0).stream = some g) (hlive : p.live = true)
include h hmiss hlen hw hp hg hlive

theorem exec_step_pause (hpause : (i.entry 0).pause = true) (hver : (i.entry 0).versionBad p p.stepCount = false) :
    ∃ t j, exec (.step id) s = .next t ∧ t.item? id = some j ∧ j.disp = none ∧ (j.entry 0).st = .paused := by
  obtain ⟨u, a, hu, hstep⟩ := State.stepEntry_eq_pause (k := 0) h.item?_markTook hw hp hg hlive hpause hver
  have hfirst : ((s.markTook id).stepEntry id 0).item? id =
      some (Item.modEntry { i with took := true } 0 (fun e => { e with st := .paused, after := a })) := by
    rw [hstep]
    exact State.item?_modEntry_same ((State.item?_of_items hu id).trans h.item?_markTook)
  obtain ⟨t, k, ht, hk, hout⟩ := exec_step_of_first h hmiss hlen hfirst
  obtain ⟨hdisp, -, -, hentry⟩ := Item.outlook_eq_iff.mp hout
  refine ⟨t, k, ht, hk, hdisp.trans h.disp, ?_⟩
  rw [hentry, Item.entry_modEntry_same (i := { i with took := true }) hlen]

variable (hpause : (i.entry 0).pause = false) (hres : p.residency = .resident)
  (hhdr : headerFault p (p.arena.getD {}) = none)
include hpause hres hhdr

theorem exec_step_run (hver : (i.entry 0).versionBad p (p.arena.getD {}).stepCount = false)
    (hreset : (i.entry 0).reset = false) : ∃ t j, exec (.step id) s = .next t ∧ t.item? id = some j ∧ j.disp = none ∧
      j.took = true ∧ (j.entry 0).st = .running ∧ (j.entry 0).gen = (p.arena.getD {}).gen := by
  have hstep := (State.stepEntry_eq_enterStep (k := 0) h.item?_markTook hw hp hg hlive hpause hres).trans
    (State.enterStep_eq_run h.id_eq hhdr hver hreset)
  have hfirst : ((s.markTook id).stepEntry id 0).item? id = some (Item.modEntry { i with took := true } 0 (fun e =>
      { e with st := .running, gen := (p.arena.getD {}).gen })) := by
    rw [hstep]
    refine State.item?_modEntry_same ?_
    exact h.item?_markTook
  obtain ⟨t, k, ht, hk, hout⟩ := exec_step_of_first h hmiss hlen hfirst
  obtain ⟨hdisp, htook, -, hentry⟩ := Item.outlook_eq_iff.mp hout
  refine ⟨t, k, ht, hk, hdisp.trans h.disp, htook, ?_⟩
  rw [hentry, Item.entry_modEntry_same (i := { i with took := true }) hlen]
  exact ⟨rfl, rfl⟩

theorem exec_step_fail (hver : (i.entry 0).versionBad p (p.arena.getD {}).stepCount = true) :
    ∃ t j, exec (.step id) s = .next t ∧ t.item? id = some j ∧ j.disp = none ∧
      (j.entry 0).st = .failed (i.entryFail 0 .stateVersion) := by
  have hstep := (State.stepEntry_eq_enterStep (k := 0) h.item?_markTook hw hp hg hlive hpause hres).trans
    (State.enterStep_eq_fail h.id_eq hhdr hver)
  obtain ⟨j, hj, hdisp, -, -, hst⟩ :=
    State.item?_failEntry (k := 0) h.item?_markTook hlen (i.entryFail 0 .stateVersion)
  have hfirst : ((s.markTook id).stepEntry id 0).item? id = some j := by
    rw [hstep]
    exact hj
  obtain ⟨t, k, ht, hk, hout⟩ := exec_step_of_first h hmiss hlen hfirst
  obtain ⟨hdisp', -, -, hentry⟩ := Item.outlook_eq_iff.mp hout
  refine ⟨t, k, ht, hk, (hdisp'.trans hdisp).trans h.disp, ?_⟩
  rw [hentry, hst]

theorem exec_step_reset (hver : (i.entry 0).versionBad p (p.arena.getD {}).stepCount = false)
    (hreset : (i.entry 0).reset = true) (hva : (i.entry 0).resetVa = 0) :
    ∃ t j, exec (.step id) s = .next t ∧ t.item? id = some j ∧ j.disp = none ∧ (j.entry 0).st = .running ∧
      (j.entry 0).begun = true ∧ (i.entries.length = 1 → ∃ q, t.place? (i.entry 0).stream = some q ∧
        q.faulted = false ∧ q.held = true ∧
        q.arena = some { hdr := slotHeader g p.stream (p.arena.getD {}).gen p.stepCount s.roundNow p.lineage }) := by
  have hstep := (State.stepEntry_eq_enterStep (k := 0) h.item?_markTook hw hp hg hlive hpause hres).trans
    (State.enterStep_eq_reset h.id_eq hhdr hver hreset hva)
  obtain ⟨u, hu⟩ : ∃ u, u = (if (i.entry 0).historyClear then
      ((s.markTook id).modPlace (i.entry 0).stream (p.resetTo g s.roundNow)).dropHistory (i.entry 0).stream
    else (s.markTook id).modPlace (i.entry 0).stream (p.resetTo g s.roundNow)) := ⟨_, rfl⟩
  have hmod : ((s.markTook id).modPlace (i.entry 0).stream (p.resetTo g s.roundNow)).place? (i.entry 0).stream =
      some (p.resetTo g s.roundNow p) := State.place?_modPlace_same hp
  have hplace : ∃ q, u.place? (i.entry 0).stream = some q ∧ q.faulted = false ∧ q.held = true ∧
      q.arena = some { hdr := slotHeader g p.stream (p.arena.getD {}).gen p.stepCount s.roundNow p.lineage } := by
    rw [hu]
    split
    · exact ⟨_, State.place?_dropHistory hmod, rfl, rfl, rfl⟩
    · exact ⟨_, hmod, rfl, rfl, rfl⟩
  have hitem : u.item? id = some { i with took := true } := by
    refine (State.item?_of_items ?_ id).trans h.item?_markTook
    rw [hu]
    split
    · exact State.dropHistory_items ..
    · rfl
  have hstep : (s.markTook id).stepEntry id 0 = (u.modEntry id 0 (fun e =>
      { e with st := .running, begun := true, gen := (p.arena.getD {}).gen })).markStarted id := by
    rw [hstep, hu]
    rfl
  have hfirst := State.item?_modItem_same (f := fun i => { i with state := if i.disp.isNone then .started else i.state })
    (State.item?_modEntry_same (k := 0)
      (f := fun e => { e with st := .running, begun := true, gen := (p.arena.getD {}).gen }) hitem)
  obtain ⟨t, k, ht, hk, hout⟩ := exec_step_of_first h hmiss hlen (by rw [hstep]; exact hfirst)
  obtain ⟨hdisp, -, -, hentry⟩ := Item.outlook_eq_iff.mp hout
  have hentry0 : k.entry 0 = { i.entry 0 with st := .running, begun := true, gen := (p.arena.getD {}).gen } :=
    hentry.trans (Item.entry_modEntry_same hlen)
  refine ⟨t, k, ht, hk, hdisp.trans h.disp, by rw [hentry0], by rw [hentry0], fun hone => ?_⟩
  have ht' : t = (s.markTook id).stepEntry id 0 := by
    have hall := (exec_step_eq h hmiss).symm.trans ht
    rw [State.eachEntry_eq_first (i := { i with took := true }) hlen] at hall
    simp only [hone, Nat.sub_self, List.range_zero, List.foldl_nil] at hall
    cases hall
    exact congrArg (fun n => (s.markTook id).stepEntry n 0) h.id_eq
  rw [ht', hstep]
  exact hplace

end Step

end Sys2Proof.Machine
end

section
/-! STEP_COMMIT and BOUNDARY_CULL (R20, R29 to R32, R123). -/

namespace Sys2Proof.Machine

-- one theorem after the other: proofs that wait together take too many threads
set_option Elab.async false

/-! ### What a commit writes (R123, R146, R164) -/

section Commit
variable {s : State} {n : Nat} {p : Place}

theorem State.driftCheck_frame (s : State) (i : Item) (k : Nat) (g : Group) :
    Frame [.regs, .ctr, .items, .log] s (s.driftCheck i k g) :=
  (State.driftCheck_leads .refl (List.Subset.refl _)).frame

/-- The state in which an entry's drift has been measured: one counter and the two DRIFT registers of its core. -/
def State.noteDrift (s : State) (i : Item) (k : Nat) (g : Group) : State :=
  let c := (i.entry k).core.getD 0
  ((s.bump .state c 3 1).setReg (regAddr .state c Reg.state_driftLast) (i.entry k).rms).setReg
    (regAddr .state c Reg.state_driftLastId)
    (BitVec.ofNat 32 (b2n (outsideBand g (i.entry k).rms) * 2 ^ 31 + g.box * 2 ^ 18 + (i.entry k).stream))

theorem State.driftCheck_cases (s : State) (i : Item) (k : Nat) (g : Group) :
    s.driftCheck i k g = s ∨ s.driftCheck i k g = s.noteDrift i k g ∨
      ∃ (u : State), u.items = (s.noteDrift i k g).items ∧
        s.driftCheck i k g = u.modEntry i.id k (fun e => { e with drift := true }) := by
  by_cases hcount : (i.entry k).driftCount = 0
  · exact .inl (if_pos hcount)
  · have hcheck : s.driftCheck i k g = if outsideBand g (i.entry k).rms then _ else s.noteDrift i k g := if_neg hcount
    split at hcheck
    · refine .inr (.inr ⟨_, ?_, hcheck⟩)
      exact (State.event_items _ _).trans (State.bump_items _ _ _ _ _)
    · exact .inr (.inl hcheck)

theorem State.noteDrift_items (s : State) (i : Item) (k : Nat) (g : Group) : (s.noteDrift i k g).items = s.items := by
  rw [State.noteDrift, State.setReg_items, State.setReg_items, State.bump_items]

theorem ItemsAgree.driftCheck {β : Type} {v : Item → β} {k : Nat} (he : ∀ i g, v (i.modEntry k g) = v i) (s : State)
    (i : Item) (g : Group) : ItemsAgree v s (s.driftCheck i k g) := by
  rcases s.driftCheck_cases i k g with h | h | ⟨u, hu, h⟩
  · exact .of_items (congrArg State.items h)
  · exact .of_items ((congrArg State.items h).trans (s.noteDrift_items i k g))
  · rw [h]
    exact ItemsAgree.modItem (.of_items (hu.trans (s.noteDrift_items i k g))) i.id (hv := fun i => he i _)

theorem State.roundNow_of_time {s t : State} (h : t.time = s.time) : t.roundNow = s.roundNow := by
  simp [State.roundNow, h]

theorem State.writeBack_items (s : State) (e : Entry) (p : Place) (g : Group) (c : Nat) :
    (s.writeBack e p g c).items = s.items := (State.writeBack_leads .refl (List.Subset.refl _)).frame.items (by decide)

theorem State.writeBack_groups (s : State) (e : Entry) (p : Place) (g : Group) (c : Nat) :
    (s.writeBack e p g c).groups = s.groups := (State.writeBack_leads .refl (List.Subset.refl _)).frame.groups (by decide)

/-- The place of a stream whose new state has been written back (R123). -/
def Place.writtenBack (p : Place) (g : Group) (gen : W32) (count round : Nat) : Place :=
  { p with
    arena := some (p.committedSlot g gen count round), window := p.window.map (fun _ => p.committedSlot g gen count round)
    stepCount := count, lastUse := round }

theorem State.otherPlaces_writeBack (s : State) (e : Entry) (p : Place) (g : Group) (c : Nat) :
    OtherPlaces p.stream s (s.writeBack e p g c) := by
  unfold State.writeBack
  refine OtherPlaces.modPlace (.of_places ?_)
  split
  · exact State.bump_places ..
  · rfl

theorem State.place?_writeBack (e : Entry) (g : Group) (c : Nat) (hp : s.place? n = some p) :
    (s.writeBack e p g c).place? n = some (p.writtenBack g e.gen c s.roundNow) := by
  have hn : p.stream = n := State.place?_stream hp
  unfold State.writeBack
  extract_lets slot u
  have hu : u.places = s.places := by
    unfold u
    split
    · exact State.bump_places ..
    · rfl
  have hround : u.roundNow = s.roundNow := State.roundNow_of_time (by
    unfold u
    split
    · exact State.bump_time ..
    · rfl)
  rw [hn, State.place?_modPlace_same ((State.place?_of_places hu n).trans hp), hround]
  rfl

theorem State.commitPages_items (s : State) (n c : Nat) : (s.commitPages n c).items = s.items :=
  (State.commitPages_leads .refl (List.Subset.refl _)).frame.items (by decide)

theorem State.commitPages_groups (s : State) (n c : Nat) : (s.commitPages n c).groups = s.groups :=
  (State.commitPages_leads .refl (List.Subset.refl _)).frame.groups (by decide)

theorem State.commitPages_places (s : State) (n c : Nat) : (s.commitPages n c).places = s.places ∨
    ∃ ds, (s.commitPages n c).places = (s.modPlace n (fun p => { p with dirs := ds })).places := by
  unfold State.commitPages
  split
  · exact .inr ⟨_, State.dropLab_places ..⟩
  · exact .inl rfl

/-- A commit of a stream's pages changes its directory and nothing else of any place (R164). -/
theorem State.place?_commitPages (c : Nat) (hp : s.place? n = some p) :
    ∃ ds, (s.commitPages n c).place? n = some { p with dirs := ds } := by
  rcases s.commitPages_places n c with h | ⟨ds, h⟩
  · exact ⟨p.dirs, (State.place?_of_places h n).trans hp⟩
  · exact ⟨ds, (State.place?_of_places h n).trans (State.place?_modPlace_same hp)⟩

theorem State.otherPlaces_commitPages (s : State) (n c : Nat) : OtherPlaces n s (s.commitPages n c) := by
  rcases s.commitPages_places n c with h | ⟨ds, h⟩
  · exact .of_places h
  · exact ((OtherPlaces.of_places rfl).modPlace).trans (.of_places h)

theorem mem_setInsert (l : List Nat) (x : Nat) : x ∈ setInsert l x := by
  induction l with
  | nil => exact List.mem_cons_self
  | cons a l ih =>
    unfold setInsert
    split
    · exact List.mem_cons_of_mem _ ih
    · split
      · exact ‹a = x› ▸ List.mem_cons_self
      · exact List.mem_cons_self

end Commit

/-! ### STEP_COMMIT of a STEP (R20, R123) -/

section CommitStep
variable {s : State} {i : Item} {k : Nat} {p : Place} {g : Group}

/-- The state in which the new state, header and pages of a committed entry's stream have been written (R123, R164). -/
def State.commitState (s : State) (i : Item) (k : Nat) (p : Place) (g : Group) : State :=
  (((s.driftCheck i k g).writeBack (i.entry k) p g (p.stepCount + 1)).commitPages (i.entry k).stream p.stepCount).modPlace
    (i.entry k).stream (fun q => { q with tapes := if (i.entry k).record then setInsert q.tapes p.stepCount else q.tapes })

/-- The state in which the entry has left its step besides, and the stream's mirror has been sent (R138, R142). -/
def State.commitStream (s : State) (i : Item) (k : Nat) (p : Place) (g : Group) : State :=
  ((s.commitState i k p g).leaveStep (i.entry k) true).sendMirror i.id (i.entry k).stream

theorem State.commitStep_eq (hp : s.place? (i.entry k).stream = some p) (hg : s.groupOf (i.entry k).stream = some g)
    (hmax : p.stepCount ≠ 0xFFFFFFFF) : ∃ a, s.commitStep i k =
      (if (i.entry k).endAfter then (s.commitStream i k p g).vacate (i.entry k).stream
        else s.commitStream i k p g).modEntry i.id k (fun e => { e with st := .committed, after := a }) := by
  refine ⟨((s.commitState i k p g).leaveStep (i.entry k) true).afterOf (i.entry k).stream, ?_⟩
  simp only [State.commitStep, hp, hg, hmax, if_false]
  rfl

theorem State.commitStep_eq_fail (hp : s.place? (i.entry k).stream = some p)
    (hg : s.groupOf (i.entry k).stream = some g) (hmax : p.stepCount = 0xFFFFFFFF) :
    s.commitStep i k = s.failEntry i.id k (i.entryFail k .stateVersion) := by
  simp only [State.commitStep, hp, hg, hmax, if_true]

/-- An entry that is ready leaves its step: a pin goes and the slot is let go (R123, R138). -/
theorem State.leaveStep_of_ready {e : Entry} (h : e.st = .ready) (s : State) :
    s.leaveStep e true = (s.unpin e.stream).modPlace e.stream (fun p => { p with held := false }) := by
  simp [State.leaveStep, h]

theorem State.commitStream_of_ready (hready : (i.entry k).st = .ready) (s : State) (p : Place) (g : Group) :
    s.commitStream i k p g = (((s.commitState i k p g).unpin (i.entry k).stream).modPlace (i.entry k).stream (fun p =>
      { p with held := false })).sendMirror i.id (i.entry k).stream := by
  rw [State.commitStream, State.leaveStep_of_ready hready]

theorem State.otherPlaces_commitStream (hp : s.place? (i.entry k).stream = some p) (g : Group)
    (hready : (i.entry k).st = .ready) : OtherPlaces (i.entry k).stream s (s.commitStream i k p g) := by
  have hdrift : OtherPlaces (i.entry k).stream s (s.driftCheck i k g) :=
    .of_places ((s.driftCheck_frame i k g).places (by decide))
  have hback := (s.driftCheck i k g).otherPlaces_writeBack (i.entry k) p g (p.stepCount + 1)
  rw [State.place?_stream hp] at hback
  have hstate : OtherPlaces (i.entry k).stream s (s.commitState i k p g) :=
    ((hdrift.trans hback).trans (State.otherPlaces_commitPages _ _ _)).modPlace
  rw [State.commitStream_of_ready hready]
  exact hstate.modPlace.modPlace.trans (State.otherPlaces_sendMirror _ _ _)

/-- The committed stream's place (R20, R123). -/
theorem State.place?_commitStream (hp : s.place? (i.entry k).stream = some p) (g : Group)
    (hready : (i.entry k).st = .ready) : ∃ q, (s.commitStream i k p g).place? (i.entry k).stream = some q ∧
      q.live = p.live ∧ q.held = false ∧ q.stepCount = p.stepCount + 1 ∧ q.lineage = p.lineage ∧
      q.lastUse = s.roundNow ∧
      q.arena = some (p.committedSlot g (i.entry k).gen (p.stepCount + 1) s.roundNow) ∧
      ((i.entry k).record = true → p.stepCount ∈ q.tapes) := by
  have hdrift := s.driftCheck_frame i k g
  have hp1 := (State.place?_of_places (hdrift.places (by decide)) _).trans hp
  have hp2 := State.place?_writeBack (i.entry k) g (p.stepCount + 1) hp1
  rw [State.roundNow_of_time (hdrift.time (by decide))] at hp2
  obtain ⟨ds, hp3⟩ := State.place?_commitPages p.stepCount hp2
  have hp4 : (s.commitState i k p g).place? (i.entry k).stream = some _ := State.place?_modPlace_same hp3
  have hp5 := State.place?_modPlace_same (f := fun q => { q with held := false })
    (State.place?_modPlace_same (f := fun q => { q with pinCount := q.pinCount - 1 }) hp4)
  obtain ⟨w, hp6⟩ := State.place?_sendMirror i.id hp5
  rw [State.commitStream_of_ready hready]
  refine ⟨_, hp6, rfl, rfl, rfl, rfl, rfl, rfl, fun hrec => ?_⟩
  show p.stepCount ∈ if (i.entry k).record then setInsert p.tapes p.stepCount else p.tapes
  rw [if_pos hrec]
  exact mem_setInsert ..

/-- What a commit leaves of the item until its entry is marked: its disposition and the number of its entries. -/
theorem State.commitStream_itemsAgree (s : State) (i : Item) (k : Nat) (p : Place) (g : Group) :
    ItemsAgree (fun i => (i.disp, i.entries.length)) s (s.commitStream i k p g) := by
  have hdrift : ItemsAgree (fun i => (i.disp, i.entries.length)) s (s.driftCheck i k g) :=
    .driftCheck (fun i f => by simp [Item.modEntry]) s i g
  have hitems : (s.commitState i k p g).items = (s.driftCheck i k g).items := by
    rw [State.commitState, State.modPlace_items, State.commitPages_items, State.writeBack_items]
  have hleave := State.leaveStep_items (s.commitState i k p g) (i.entry k) true
  exact (hdrift.trans (.of_items (hleave.trans hitems))).trans (.sendMirror (fun _ _ => rfl) _ i.id _)

theorem exec_stepCommit_eq {id : Nat} (hi : s.item? id = some i) (hd : i.disp = none) (hk : k < i.entries.length)
    (hready : (i.entry k).st = .ready) (hkind : i.kind = 0x03) : exec (.stepCommit id k) s = .next (s.commitStep i k) := by
  show execStepCommit id k s = _
  simp [execStepCommit, hi, hd, hready, hkind, Nat.not_le.mpr hk, Item.isStep]

theorem exec_stepCommit {id : Nat} (hi : s.item? id = some i) (hd : i.disp = none) (hkind : i.kind = 0x03)
    (hk : k < i.entries.length) (hready : (i.entry k).st = .ready) (hp : s.place? (i.entry k).stream = some p)
    (hg : s.groupOf (i.entry k).stream = some g) (hmax : p.stepCount ≠ 0xFFFFFFFF) :
    ∃ t j, exec (.stepCommit id k) s = .next t ∧ t.item? id = some j ∧ j.disp = none ∧
      (j.entry k).st = .committed ∧ OtherPlaces (i.entry k).stream s t ∧
      ((i.entry k).endAfter = true → ∀ q, t.place? (i.entry k).stream = some q → q.live = false) ∧
      ((i.entry k).endAfter = false → ∃ q, t.place? (i.entry k).stream = some q ∧ q.live = p.live ∧ q.held = false ∧
        q.stepCount = p.stepCount + 1 ∧ q.lineage = p.lineage ∧ q.lastUse = s.roundNow ∧
        q.arena = some (p.committedSlot g (i.entry k).gen (p.stepCount + 1) s.roundNow) ∧
        ((i.entry k).record = true → p.stepCount ∈ q.tapes)) := by
  have hid : i.id = id := State.item?_id hi
  obtain ⟨a, hcommit⟩ := State.commitStep_eq hp hg hmax
  obtain ⟨j, hj, hv⟩ := (s.commitStream_itemsAgree i k p g).exists hi
  obtain ⟨hdisp, hlen⟩ := Prod.mk.inj hv
  have hother := State.otherPlaces_commitStream hp g hready
  subst hid
  cases hend : (i.entry k).endAfter with
  | true =>
    rw [hend, if_pos rfl] at hcommit
    refine ⟨_, _, (exec_stepCommit_eq hi hd hk hready hkind).trans (congrArg _ hcommit),
      State.item?_modEntry_same ((State.item?_of_items (State.vacate_items ..) _).trans hj), hdisp.trans hd, ?_,
      hother.trans (State.otherPlaces_vacate _ _), fun _ q hq => State.not_live_of_vacate hq, fun h => (by cases h)⟩
    rw [Item.entry_modEntry_same (hlen ▸ hk)]
  | false =>
    rw [hend, if_neg Bool.false_ne_true] at hcommit
    refine ⟨_, _, (exec_stepCommit_eq hi hd hk hready hkind).trans (congrArg _ hcommit),
      State.item?_modEntry_same hj, hdisp.trans hd, ?_, hother, fun h => (by cases h),
      fun _ => State.place?_commitStream hp g hready⟩
    rw [Item.entry_modEntry_same (hlen ▸ hk)]

theorem exec_stepCommit_of_max {id : Nat} (hi : s.item? id = some i) (hd : i.disp = none) (hkind : i.kind = 0x03)
    (hk : k < i.entries.length) (hready : (i.entry k).st = .ready) (hp : s.place? (i.entry k).stream = some p)
    (hg : s.groupOf (i.entry k).stream = some g) (hmax : p.stepCount = 0xFFFFFFFF) :
    ∃ t j, exec (.stepCommit id k) s = .next t ∧ t.item? id = some j ∧
      (j.entry k).st = .failed (i.entryFail k .stateVersion) := by
  obtain ⟨j, hj, -, -, -, hst⟩ := State.item?_failEntry hi hk (i.entryFail k .stateVersion)
  have hid : i.id = id := State.item?_id hi
  subst hid
  exact ⟨_, j, (exec_stepCommit_eq hi hd hk hready hkind).trans (congrArg _ (State.commitStep_eq_fail hp hg hmax)), hj, hst⟩

end CommitStep

/-! ### STEP_COMMIT of an OPEN_GROUP (R18, R157) -/

section Prefill
variable {s : State} {i : Item} {p : Place} {g : Group}

theorem State.group?_index {n : Nat} (h : s.group? n = some g) : g.index = n := by
  simpa using List.find?_some h

theorem State.group?_modGroup_same {n : Nat} {f : Group → Group} (h : s.group? n = some g)
    (hf : ∀ g, (f g).index = g.index := by exact fun _ => rfl) : (s.modGroup n f).group? n = some (f g) := by
  have e : ((fun x : Group => x.index == n) ∘ fun x => if x.index = n then f x else x) = fun x => x.index == n := by
    funext x
    by_cases hx : x.index = n <;> simp [hx, hf]
  have hfind : s.groups.find? (fun x => x.index == n) = some g := h
  simp only [State.group?, State.modGroup, List.find?_map, e, hfind, Option.map_some, State.group?_index h, if_true]

/-- Every other place of the group takes its list areas (R157). -/
def State.takeLists (s : State) (p : Place) (g : Group) : State :=
  { s with places := s.places.map (fun q =>
      if q.group = g.index ∧ q.stream ≠ p.stream then { q with dirs := p.dirs.map (fun d =>
        { layer := d.layer, ringLog2 := d.ringLog2, sig := d.sig }) } else q) }

/-- The state in which place 0 holds its first state and the prefill is done (R18). -/
def State.prefillState (s : State) (i : Item) (p : Place) (g : Group) : State :=
  (((((s.driftCheck i 0 g).takeLists p g).writeBack (i.entry 0) p g g.frames).commitPages (i.entry 0).stream
    (g.frames - 1)).modPlace (i.entry 0).stream (fun p => { p with held := false })).modGroup g.index (fun g =>
      { g with prefillDone := true })

theorem State.commitPrefill_cases (hp : s.place? (i.entry 0).stream = some p)
    (hg : s.groupOf (i.entry 0).stream = some g) :
    s.commitPrefill i = (s.driftCheck i 0 g).failItem i.id (Fail.loadCheck 0x0607) ∨
      ∃ f : Entry → Entry, (∀ e, (f e).st = .committed) ∧ s.commitPrefill i =
        ((s.prefillState i p g).sendMirror i.id (i.entry 0).stream).modEntry i.id 0 f := by
  simp only [State.commitPrefill, hp, hg]
  split
  · exact .inl rfl
  · refine .inr ⟨_, ?_, rfl⟩
    exact fun _ => rfl

theorem State.place?_takeLists (g : Group) (hp : s.place? p.stream = some p) : (s.takeLists p g).place? p.stream = some p := by
  have e : ((fun q : Place => q.stream == p.stream) ∘ fun q => if q.group = g.index ∧ q.stream ≠ p.stream then
      { q with dirs := p.dirs.map (fun d => { layer := d.layer, ringLog2 := d.ringLog2, sig := d.sig }) } else q) =
      fun q => q.stream == p.stream := by
    funext q
    by_cases hq : q.group = g.index ∧ q.stream ≠ p.stream <;> simp [hq]
  have hfind : s.places.find? (fun q => q.stream == p.stream) = some p := hp
  simp only [State.place?, State.takeLists, List.find?_map, e, hfind, Option.map_some, ne_eq, not_true_eq_false,
    and_false, if_false]

/-- Place 0 after the prefill: as many steps as context frames, and let go (R18). -/
theorem State.place?_prefillState (hp : s.place? (i.entry 0).stream = some p) (g : Group) :
    ∃ q, (s.prefillState i p g).place? (i.entry 0).stream = some q ∧ q.stepCount = g.frames ∧ q.held = false := by
  have hn : p.stream = (i.entry 0).stream := State.place?_stream hp
  have hp1 := (State.place?_of_places ((s.driftCheck_frame i 0 g).places (by decide)) _).trans hp
  have hp2 : ((s.driftCheck i 0 g).takeLists p g).place? (i.entry 0).stream = some p := by
    rw [← hn] at hp1 ⊢
    exact State.place?_takeLists g hp1
  obtain ⟨ds, hp3⟩ := State.place?_commitPages (g.frames - 1) (State.place?_writeBack (i.entry 0) g g.frames hp2)
  have hp4 : (s.prefillState i p g).place? (i.entry 0).stream = some _ := State.place?_modPlace_same hp3
  exact ⟨_, hp4, rfl, rfl⟩

theorem State.group?_prefillState (i : Item) (p : Place) (hg : s.groupOf (i.entry 0).stream = some g) :
    ∃ h, (s.prefillState i p g).group? g.index = some h ∧ h.prefillDone = true := by
  have hgroup : s.group? g.index = some g := by
    unfold State.groupOf at hg
    split at hg
    · rwa [State.group?_index hg]
    · cases hg
  have hgroups : (((((s.driftCheck i 0 g).takeLists p g).writeBack (i.entry 0) p g g.frames).commitPages
      (i.entry 0).stream (g.frames - 1)).modPlace (i.entry 0).stream (fun p => { p with held := false })).groups =
      s.groups := by
    rw [State.modPlace_groups, State.commitPages_groups, State.writeBack_groups]
    exact (s.driftCheck_frame i 0 g).groups (by decide)
  exact ⟨_, State.group?_modGroup_same ((State.group?_of_groups hgroups _).trans hgroup), rfl⟩

theorem State.prefillState_itemsAgree (s : State) (i : Item) (p : Place) (g : Group) :
    ItemsAgree (fun i => (i.disp, i.entries.length)) s (s.prefillState i p g) := by
  refine (ItemsAgree.driftCheck (k := 0) (fun i f => by simp [Item.modEntry]) s i g).trans (.of_items ?_)
  rw [State.prefillState, State.modGroup_items, State.modPlace_items, State.commitPages_items, State.writeBack_items]
  rfl

theorem exec_stepCommit_prefill {id : Nat} (hi : s.item? id = some i) (hd : i.disp = none) (hkind : i.kind = 0x01)
    (hlen : 0 < i.entries.length) (hready : (i.entry 0).st = .ready) (hp : s.place? (i.entry 0).stream = some p)
    (hg : s.groupOf (i.entry 0).stream = some g) : ∃ t j, exec (.stepCommit id 0) s = .next t ∧
      t.item? id = some j ∧ (j.disp = none → (j.entry 0).st = .committed ∧
        (∃ h, t.group? g.index = some h ∧ h.prefillDone = true) ∧
        ∃ q, t.place? (i.entry 0).stream = some q ∧ q.stepCount = g.frames ∧ q.held = false) := by
  have hid : i.id = id := State.item?_id hi
  subst hid
  have hexec : exec (.stepCommit i.id 0) s = .next (s.commitPrefill i) := by
    show execStepCommit i.id 0 s = _
    simp [execStepCommit, hi, hd, hready, hkind, Nat.not_le.mpr hlen]
  rcases State.commitPrefill_cases hp hg with hfail | ⟨f, hf, hcommit⟩
  · obtain ⟨j, hj, hv⟩ := (ItemsAgree.driftCheck (v := Item.disp) (k := 0) (fun _ _ => rfl) s i g).exists hi
    obtain ⟨j', hj', hfate⟩ := State.item?_failItem hj (hv.trans hd) (Fail.loadCheck 0x0607)
    refine ⟨_, j', hexec.trans (congrArg _ hfail), hj', fun h => ?_⟩
    cases h.symm.trans (congrArg Prod.fst hfate)
  · obtain ⟨j, hj, hv⟩ := (s.prefillState_itemsAgree i p g).exists hi
    obtain ⟨j', hj', hv'⟩ := (ItemsAgree.sendMirror (v := fun i => (i.disp, i.entries.length)) (fun _ _ => rfl)
      (s.prefillState i p g) i.id (i.entry 0).stream).exists hj
    have hlen' : j'.entries.length = i.entries.length := congrArg Prod.snd (hv'.trans hv)
    refine ⟨_, _, hexec.trans (congrArg _ hcommit), State.item?_modEntry_same hj', fun _ => ⟨?_, ?_, ?_⟩⟩
    · rw [Item.entry_modEntry_same (hlen' ▸ hlen), hf]
    · obtain ⟨h, hh, hdone⟩ := State.group?_prefillState i p hg
      exact ⟨h, (State.group?_of_groups (State.sendMirror_groups _ _ _) _).trans hh, hdone⟩
    · obtain ⟨q, hq, hcount, hheld⟩ := State.place?_prefillState hp g
      obtain ⟨w, hw⟩ := State.place?_sendMirror i.id hq
      exact ⟨_, hw, hcount, hheld⟩

end Prefill

/-! ### BOUNDARY_CULL (R29 to R32) -/

section BoundaryCull
variable {s : State} {i : Item}

/-- The plans of a boundary cull, made before it draws its free value. -/
def State.cullPlans (s : State) (i : Item) : List (Group × CullPlan) :=
  (s.culledGroups i.groups).map (fun g => (g, planCull g (g.streams.map (s.cullSt i g))))

/-- The streams that the plans vacate. -/
def State.culledStreams (s : State) (i : Item) : List Nat :=
  (s.cullPlans i).flatMap (fun x => x.2.gone.map (fun k => x.1.streams.getD k 0))

theorem State.writeCulls_items (s : State) (i : Item) (l : List (Group × CullPlan)) : (s.writeCulls i l).items = s.items :=
  (State.writeCulls_leads .refl (List.Subset.refl _)).frame.items (by decide)

theorem State.writeCulls_places (s : State) (i : Item) (l : List (Group × CullPlan)) :
    (s.writeCulls i l).places = s.places := (State.writeCulls_leads .refl (List.Subset.refl _)).frame.places (by decide)

theorem planCull_refills_of_none {g : Group} (h : g.refill = .none) (l : List CullSt) : (planCull g l).refills = [] := by
  simp [planCull, h]

/-- A boundary cull whose groups are not refilled waits for nothing (R32). -/
theorem State.boundaryCull_eq (hnone : ∀ g ∈ s.culledGroups i.groups, g.refill = .none) : s.boundaryCull i =
    (((s.culledStreams i).foldl State.vacate ((s.draw.2.unwait i.id i.entries.length).markStarted i.id)).writeCulls i
      (s.cullPlans i)).modItem i.id (fun i => { i with culled := true }) := by
  have hrefills : (s.cullPlans i).flatMap (fun x =>
      x.2.refills.map (fun y => (x.1.streams.getD y.1 0, x.1.streams.getD y.2 0))) = [] := by
    rw [List.flatMap_eq_nil_iff]
    intro x hx
    obtain ⟨g, hg, rfl⟩ := List.mem_map.mp hx
    rw [planCull_refills_of_none (hnone g hg), List.map_nil]
  have happly := s.draw.2.cullApply_nil i i.entries.length (s.culledStreams i)
  rw [← hrefills] at happly
  unfold State.boundaryCull
  simp only [State.cullPlans, State.culledStreams] at happly ⊢
  rw [happly]

theorem exec_boundaryCull {id : Nat} (hi : s.item? id = some i) (hdue : i.cullDue = true)
    (hnone : ∀ g ∈ s.culledGroups i.groups, g.refill = .none) : ∃ t j, exec (.boundaryCull id) s = .next t ∧
      t.item? id = some j ∧ j.culled = true ∧ j.disp = none ∧ j.entries = i.entries ∧
      ∀ g ∈ s.culledGroups i.groups, ∀ k ∈ (planCull g (g.streams.map (s.cullSt i g))).gone, ∀ p,
        t.place? (g.streams.getD k 0) = some p → p.live = false := by
  have hid : i.id = id := State.item?_id hi
  subst hid
  have hd : i.disp = none := by
    simp only [Item.cullDue, Bool.and_eq_true] at hdue
    obtain ⟨⟨⟨⟨⟨-, hnone⟩, -⟩, -⟩, -⟩, -⟩ := hdue
    simpa using hnone
  have hexec : exec (.boundaryCull i.id) s = .next (s.boundaryCull i) := by
    show execBoundaryCull i.id s = _
    simp [execBoundaryCull, hi, hdue]
  have hstart := (ItemsAgree.of_items (s := s) (t := s.draw.2.unwait i.id i.entries.length) rfl).trans
    (.markStarted (v := fun i => (i.disp, i.entries)) (fun _ _ => rfl) _ i.id)
  have hvac := hstart.trans (.of_items (State.foldl_vacate_items _ (s.culledStreams i)))
  have hwrite := hvac.trans (.of_items (State.writeCulls_items _ i (s.cullPlans i)))
  obtain ⟨j, hj, hv⟩ := hwrite.exists hi
  obtain ⟨hdisp, hentries⟩ := Prod.mk.inj hv
  refine ⟨_, _, hexec.trans (congrArg _ (State.boundaryCull_eq hnone)), State.item?_modItem_same hj, rfl,
    hdisp.trans hd, hentries, fun g hg k hk p hp => ?_⟩
  have hgone : g.streams.getD k 0 ∈ s.culledStreams i :=
    List.mem_flatMap.mpr ⟨_, List.mem_map.mpr ⟨g, hg, rfl⟩, List.mem_map.mpr ⟨k, hk, rfl⟩⟩
  rw [State.place?_of_places (State.modItem_places ..), State.place?_of_places (State.writeCulls_places ..)] at hp
  exact State.not_live_of_foldl_vacate hgone hp

theorem exec_boundaryCull_of_not_due {id : Nat} (hi : s.item? id = some i) (hdue : i.cullDue = false) :
    exec (.boundaryCull id) s = .next s := by
  show execBoundaryCull id s = _
  simp [execBoundaryCull, hi, hdue]

end BoundaryCull

/-- Settles O18: an entry of a STEP by what it enters or fails, a commit by the state it writes, a cull by its plan. -/
theorem stepsRunCommitAndCull : Obligations.StepsRunCommitAndCull :=
  ⟨fun _ _ _ _ _ h hmiss hlen hw hp hg hlive hpause hres hhdr =>
      ⟨exec_step_run h hmiss hlen hw hp hg hlive hpause hres hhdr,
        exec_step_reset h hmiss hlen hw hp hg hlive hpause hres hhdr,
        exec_step_fail h hmiss hlen hw hp hg hlive hpause hres hhdr⟩,
    fun _ _ _ _ _ => exec_step_pause, fun _ _ _ => exec_step_of_cullMissing,
    fun _ _ _ _ _ _ hi hd hkind hk hready hp hg => ⟨exec_stepCommit hi hd hkind hk hready hp hg,
      exec_stepCommit_of_max hi hd hkind hk hready hp hg⟩,
    fun _ _ _ _ _ => exec_stepCommit_prefill, fun _ _ _ => exec_boundaryCull, fun _ _ _ => exec_boundaryCull_of_not_due⟩

end Sys2Proof.Machine
end

section
/-! PARK and RECALL (R18, R23, R137 to R139). -/

namespace Sys2Proof.Machine

-- one theorem after the other: proofs that wait together take too many threads
set_option Elab.async false

/-! ### PARK -/

section Park
variable {s u : State} {id k n : Nat} {i : Item} {p : Place}

/-- A stream's place as its outbound move leaves it (R137). -/
def Place.leaving (p : Place) (forced : Bool) : Place :=
  { p with residency := .outbound, forced := forced, held := true, window := none, windowCore := none }

theorem State.beginOutbound_places (s : State) (n : Nat) (forced : Bool) :
    (s.beginOutbound n forced).places = (s.modPlace n (fun p => p.leaving forced)).places := by
  cases forced
  · rfl
  · exact (State.event_places ..).trans (State.bump_places ..)

theorem State.place?_beginOutbound (hp : s.place? n = some p) (forced : Bool) :
    (s.beginOutbound n forced).place? n = some (p.leaving forced) :=
  (State.place?_of_places (s.beginOutbound_places n forced) n).trans (State.place?_modPlace_same hp)

theorem State.otherPlaces_beginOutbound (s : State) (n : Nat) (forced : Bool) :
    OtherPlaces n s (s.beginOutbound n forced) :=
  ((OtherPlaces.of_places rfl).modPlace).trans (.of_places (s.beginOutbound_places n forced))

/-- What one entry of a PARK does: nothing, an entry settled, or the move of a RESIDENT stream begun. -/
theorem State.parkEntry_cases (s : State) (id k : Nat) : s.parkEntry id k = s ∨
    (∃ (t : State) (pin : Bool), t.items = s.items ∧ t.places = s.places ∧ s.parkEntry id k = t.settle id k pin) ∨
    ∃ n p, s.place? n = some p ∧ p.residency = .resident ∧
      s.parkEntry id k = (s.beginOutbound n false).markStarted id := by
  unfold State.parkEntry
  split
  · exact .inl rfl
  · dsimp only
    split
    · exact .inl rfl
    · split
      · exact .inr (.inl ⟨s, _, rfl, rfl, rfl⟩)
      · rename_i p hp
        split
        · exact .inr (.inl ⟨s, _, rfl, rfl, rfl⟩)
        · split
          · exact .inr (.inl ⟨s, _, rfl, rfl, rfl⟩)
          · exact .inl rfl
          · exact .inl rfl
          · rename_i hres
            split
            · exact .inr (.inl ⟨_, _, State.bump_items .., State.bump_places .., rfl⟩)
            · split
              · exact .inl rfl
              · exact .inr (.inr ⟨_, p, hp, hres, rfl⟩)

/-- The item's operation has begun, and the stream in place `n` is on its way out of the arena. -/
structure State.Parking (id n : Nat) (u : State) : Prop where
  item : ∃ j, u.item? id = some j ∧ j.disp = none ∧ j.state = .started
  place : ∃ q, u.place? n = some q ∧ q.residency = .outbound ∧ q.held = true ∧ q.window = none

theorem State.item?_markStarted (hi : s.item? id = some i) (hd : i.disp = none) :
    ∃ j, (s.markStarted id).item? id = some j ∧ j.disp = none ∧ j.state = .started :=
  ⟨_, State.item?_modItem_same hi, hd, by simp [hd]⟩

theorem State.parking_beginOutbound (hi : s.item? id = some i) (hd : i.disp = none) (hp : s.place? n = some p) :
    ((s.beginOutbound n false).markStarted id).Parking id n :=
  ⟨State.item?_markStarted ((State.item?_of_items (s.beginOutbound_items n false) id).trans hi) hd,
    _, State.place?_beginOutbound hp false, rfl, rfl, rfl⟩

/-- The entries of a PARK that come later leave what has begun. -/
theorem State.Parking.parkEntry (h : u.Parking id n) (k : Nat) : (u.parkEntry id k).Parking id n := by
  obtain ⟨⟨j, hj, hd, hst⟩, q, hq, hout, hheld, hwin⟩ := h
  rcases u.parkEntry_cases id k with e | ⟨t, pin, hitems, hplaces, e⟩ | ⟨m, p, hp, hres, e⟩
  · rw [e]
    exact ⟨⟨j, hj, hd, hst⟩, q, hq, hout, hheld, hwin⟩
  · rw [e]
    exact ⟨⟨_, State.item?_modEntry_same ((State.item?_of_items hitems id).trans hj), hd, hst⟩,
      q, (State.place?_of_places hplaces n).trans hq, hout, hheld, hwin⟩
  · have hne : n ≠ m := fun e => by
      subst e
      rw [hq] at hp
      cases hp
      rw [hout] at hres
      cases hres
    rw [e]
    exact ⟨State.item?_markStarted ((State.item?_of_items (u.beginOutbound_items m false) id).trans hj) hd,
      q, (u.otherPlaces_beginOutbound m false n hne).trans hq, hout, hheld, hwin⟩

section First
variable (hi : s.item? id = some i) (hw : (i.entry k).st = .waiting) (hp : s.place? (i.entry k).stream = some p)
  (hlive : p.live = true) (hres : p.residency = .resident)
include hi hw hp hlive hres

theorem State.parkEntry_eq_beginOutbound (hpin : p.pinCount = 0) (hheld : p.held = false) :
    s.parkEntry id k = (s.beginOutbound (i.entry k).stream false).markStarted id := by
  simp [State.parkEntry, hi, hw, hp, hlive, hres, hpin, hheld]

theorem State.parkEntry_eq_settle (hpin : p.pinCount ≠ 0) : s.parkEntry id k =
    (s.bump .fork ((s.groupOf (i.entry k).stream).elim 0 (fun g => g.home)) 4 1).settle id k true := by
  simp [State.parkEntry, hi, hw, hp, hlive, hres, hpin]

end First

variable (h : s.mayAct id 0x07 i) (hlen : 0 < i.entries.length) (hw : (i.entry 0).st = .waiting)
  (hp : s.place? (i.entry 0).stream = some p) (hlive : p.live = true) (hres : p.residency = .resident)
include h

theorem exec_park_eq :
    exec (.park id) s = .next ((s.markTook id).eachEntry { i with took := true } State.parkEntry) :=
  congrArg Host.Outcome.next (h.takeEffect _)

include hlen hw hp hlive hres

theorem exec_park_unpinned (hpin : p.pinCount = 0) (hheld : p.held = false) : ∃ t j q, exec (.park id) s = .next t ∧
    t.item? id = some j ∧ j.state = .started ∧ t.place? (i.entry 0).stream = some q ∧ q.residency = .outbound ∧
      q.held = true ∧ q.window = none := by
  have hfirst : ((s.markTook id).parkEntry i.id 0).Parking id (i.entry 0).stream := by
    rw [h.id_eq, State.parkEntry_eq_beginOutbound (k := 0) h.item?_markTook hw hp hlive hres hpin hheld]
    exact State.parking_beginOutbound h.item?_markTook h.disp hp
  obtain ⟨⟨j, hj, -, hst⟩, q, hq, hout⟩ := State.eachEntry_keeps (i := { i with took := true }) hlen hfirst
    (fun u k _ hu => by
      rw [show ({ i with took := true } : Item).id = id from h.id_eq]
      exact hu.parkEntry k)
  exact ⟨_, j, q, exec_park_eq h, hj, hst, hq, hout⟩

theorem exec_park_pinned (hpin : p.pinCount ≠ 0) : ∃ t j, exec (.park id) s = .next t ∧ t.item? id = some j ∧
    (j.entry 0).st = .committed ∧ (j.entry 0).pinned = true := by
  have hfirst := State.parkEntry_eq_settle (k := 0) h.item?_markTook hw hp hlive hres hpin
  have hitem : ((s.markTook id).bump .fork
      (((s.markTook id).groupOf (i.entry 0).stream).elim 0 (fun g => g.home)) 4 1).item? id = _ :=
    (State.item?_of_items (State.bump_items ..) id).trans h.item?_markTook
  have hagree : ItemsAgree (Item.outlook 0) ((s.markTook id).parkEntry id 0)
      ((s.markTook id).eachEntry { i with took := true } State.parkEntry) :=
    .eachEntry h.id_eq hlen (fun u k hk => .parkEntry (fun i g => Item.outlook_modEntry hk g) (fun _ _ => rfl) u id)
  rw [hfirst] at hagree
  obtain ⟨j, hj, hv⟩ := hagree.exists (State.item?_modEntry_same hitem)
  obtain ⟨-, -, -, hentry⟩ := Item.outlook_eq_iff.mp hv
  have hentry := hentry.trans (Item.entry_modEntry_same (i := { i with took := true }) hlen)
  exact ⟨_, j, exec_park_eq h, hj, by rw [hentry], by rw [hentry]⟩

end Park

/-! ### Victims of an eviction (R139) -/

section Victim
variable {s : State} {b : Nat}

theorem mem_of_pickFirst {α : Type} {lt : α → α → Bool} {l : List α} {a : α} (h : pickFirst lt l = some a) :
    a ∈ l := by
  induction l with
  | nil => cases h
  | cons b l ih =>
    simp only [pickFirst] at h
    split at h
    · cases h
      exact List.mem_cons_self ..
    · rename_i c hc
      split at h
      · cases h
        exact List.mem_cons_of_mem _ (ih hc)
      · cases h
        exact List.mem_cons_self ..

/-- A victim is a place of the box that eviction may choose. -/
theorem State.evictable_of_victim {v : Nat × Bool} (h : s.victim b = some v) : ∃ p ∈ s.evictable b, p.stream = v.1 := by
  unfold State.victim at h
  dsimp only at h
  split at h
  · rename_i p hp
    cases h
    exact ⟨p, (List.mem_filter.mp (mem_of_pickFirst hp)).1, rfl⟩
  · obtain ⟨⟨p, j⟩, hx, rfl⟩ := Option.map_eq_some_iff.mp h
    obtain ⟨q, hq, hj⟩ := List.mem_filterMap.mp (mem_of_pickFirst hx)
    obtain ⟨_, -, e⟩ := Option.map_eq_some_iff.mp hj
    cases e
    exact ⟨_, (List.mem_filter.mp hq).1, rfl⟩

theorem State.resident_of_victim {v : Nat × Bool} (h : s.victim b = some v) :
    ∃ p ∈ s.places, p.stream = v.1 ∧ p.residency = .resident := by
  obtain ⟨p, hp, hv⟩ := State.evictable_of_victim h
  obtain ⟨hmem, hcond⟩ := List.mem_filter.mp hp
  simp only [Bool.and_eq_true, beq_iff_eq] at hcond
  obtain ⟨⟨⟨⟨-, hres⟩, -⟩, -⟩, -⟩ := hcond
  exact ⟨p, hmem, hv, hres⟩

end Victim

/-! ### RECALL -/

/-- The stream in place `n` is on its way into the arena, at step count `c`. -/
structure State.Arriving (n c : Nat) (u : State) : Prop where
  inbound : ∀ q ∈ u.places, q.stream = n → q.residency = .inbound
  place : ∃ q, u.place? n = some q ∧ q.held = true ∧ q.arena.isSome = true ∧ q.stepCount = c

section Arriving
variable {u v : State} {n c m : Nat}

theorem State.Arriving.of_places (h : u.Arriving n c) (e : v.places = u.places) : v.Arriving n c := by
  obtain ⟨hall, q, hq, hplace⟩ := h
  exact ⟨fun r hr => hall r (e ▸ hr), q, (State.place?_of_places e n).trans hq, hplace⟩

theorem State.Arriving.modPlace_ne (h : u.Arriving n c) (hm : m ≠ n) {f : Place → Place}
    (hs : ∀ p, (f p).stream = p.stream := by exact fun _ => rfl) : (u.modPlace m f).Arriving n c := by
  obtain ⟨hall, q, hq, hplace⟩ := h
  refine ⟨fun r hr hn => ?_, q, (State.place?_modPlace_ne hm hs).trans hq, hplace⟩
  obtain ⟨p, hp, rfl⟩ := List.mem_map.mp hr
  split at hn
  · rename_i hpm
    exact absurd (hpm.symm.trans ((hs p).symm.trans hn)) hm
  · rename_i hpm
    rw [if_neg hpm]
    exact hall p hp hn

/-- A note of when a wait began leaves what arrives. -/
theorem State.Arriving.modWait (h : u.Arriving n c) (m : Nat) (w : Option Nat → Option Nat) :
    (u.modPlace m (fun p => { p with waitAt := w p.waitAt })).Arriving n c := by
  rcases eq_or_ne m n with rfl | hm
  · obtain ⟨hall, q, hq, hplace⟩ := h
    refine ⟨fun r hr hn => ?_, _, State.place?_modPlace_same hq, hplace⟩
    obtain ⟨p, hp, rfl⟩ := List.mem_map.mp hr
    split at hn
    · rename_i hpm
      rw [if_pos hpm]
      exact hall p hp hpm
    · rename_i hpm
      exact absurd hn hpm
  · exact h.modPlace_ne hm

theorem State.Arriving.beginOutbound (h : u.Arriving n c) (hm : m ≠ n) (forced : Bool) :
    (u.beginOutbound m forced).Arriving n c :=
  (h.modPlace_ne hm).of_places (u.beginOutbound_places m forced)

theorem State.Arriving.ne_victim (h : u.Arriving n c) {b : Nat} {x : Nat × Bool} (hx : u.victim b = some x) : x.1 ≠ n := by
  rintro rfl
  obtain ⟨p, hp, hn, hres⟩ := State.resident_of_victim hx
  rw [h.inbound p hp hn] at hres
  cases hres

/-- An eviction takes none of the streams that arrive: it takes RESIDENT ones. -/
theorem State.Arriving.evictFor (h : u.Arriving n c) (fuel b need : Nat) :
    (State.evictFor fuel u b need).Arriving n c := by
  induction fuel generalizing u with
  | zero => exact h
  | succ fuel ih =>
    unfold State.evictFor
    split
    · exact h
    · split
      · exact h
      · rename_i x hx
        exact ih (h.beginOutbound (h.ne_victim hx) x.2)

theorem State.Arriving.waitArena (h : u.Arriving n c) (i : Item) (k need home : Nat) :
    (u.waitArena i k need home).Arriving n c := by
  refine (h.evictFor u.places.length i.box need).of_places ?_
  unfold State.waitArena
  generalize State.evictFor u.places.length u i.box need = w
  have hcount : ∀ b, (w.when b (w.bump .fork home 7 1)).places = w.places := fun b => by
    cases b
    · rfl
    · exact State.bump_places ..
  dsimp only
  rw [State.modItem_places]
  split
  · exact hcount _
  · exact hcount _

theorem State.Arriving.bringIn (h : u.Arriving n c) (i : Item) (k m : Nat) : (u.bringIn i k m).Arriving n c := by
  unfold State.bringIn
  split
  · rename_i p g hp _
    have hwait : ((u.modPlace m (fun p => { p with waitAt := p.waitAt.or (some u.time.t) })).markStarted i.id).Arriving
        n c := (h.modWait m (fun w => w.or (some u.time.t))).of_places rfl
    dsimp only
    split
    · exact hwait
    · rename_i haway
      have hm : m ≠ n := by
        rintro rfl
        have hin := h.inbound p (List.mem_of_find?_eq_some hp) (State.place?_stream hp)
        rw [hin] at haway
        exact haway (by decide)
      split
      · refine State.Arriving.modPlace_ne (hwait.of_places ?_) hm
        rfl
      · exact hwait.waitArena i k _ _
  · exact h

/-- What one entry of a RECALL does: nothing, an entry settled, or its stream asked for. -/
theorem State.recallEntry_cases (s : State) (id k : Nat) : s.recallEntry id k = s ∨
    s.recallEntry id k = s.settle id k false ∨
    (∃ m, s.recallEntry id k = (s.modPlace m (fun p => { p with waitAt := none })).settle id k false) ∨
    ∃ i m, s.recallEntry id k = s.bringIn i k m := by
  unfold State.recallEntry
  split
  · exact .inl rfl
  · dsimp only
    split
    · exact .inl rfl
    · split
      · exact .inr (.inl rfl)
      · split
        · exact .inr (.inl rfl)
        · split
          · exact .inr (.inr (.inl ⟨_, rfl⟩))
          · exact .inr (.inr (.inr ⟨_, _, rfl⟩))

theorem State.Arriving.recallEntry (h : u.Arriving n c) (id k : Nat) : (u.recallEntry id k).Arriving n c := by
  rcases u.recallEntry_cases id k with e | e | ⟨m, e⟩ | ⟨i, m, e⟩
  · rwa [e]
  · rw [e]
    exact h.of_places rfl
  · rw [e]
    exact (h.modWait m (fun _ => none)).of_places rfl
  · rw [e]
    exact h.bringIn i k m

end Arriving

section Recall
variable {s : State} {id k n : Nat} {i : Item} {p : Place} {g : Group}

/-- R137: a stream that is away comes in at once where the arena has room and no other request waits. -/
theorem State.arriving_bringIn (hp : s.place? n = some p) (hg : s.groupOf n = some g) (haway : p.residency = .away)
    (hroom : g.slotSize ≤ s.arenaRoom i.box) (hwait : s.noneWaits i.box) :
    (s.bringIn i k n).Arriving n p.stepCount := by
  have htake : ((s.modPlace n (fun p => { p with waitAt := p.waitAt.or (some s.time.t) })).markStarted i.id).mayTake i k
      g.slotSize = true := by
    refine State.mayTake_of_noneWaits ?_ (hwait.of_agree ?_ ?_) k
    · exact hroom.trans_eq (s.arenaRoom_modPlace n i.box).symm
    · rfl
    · exact .trans (.of_items rfl) (.markStarted (fun _ _ => rfl) _ i.id)
  simp only [State.bringIn, hp, hg, haway, htake, ne_eq, not_true_eq_false, if_false, if_true]
  refine ⟨fun q hq hn => ?_, _, State.place?_modPlace_same
    (p := { p with waitAt := p.waitAt.or (some s.time.t) }) ?_, rfl, rfl, rfl⟩
  · obtain ⟨r, -, rfl⟩ := List.mem_map.mp hq
    split at hn
    · rename_i hr
      rw [if_pos hr]
    · rename_i hr
      exact absurd hn hr
  · exact State.place?_modPlace_same hp

section First
variable (hi : s.item? id = some i) (hw : (i.entry k).st = .waiting) (hp : s.place? (i.entry k).stream = some p)
  (hlive : p.live = true)
include hi hw hp hlive

theorem State.recallEntry_eq_settle (hres : p.residency = .resident) : s.recallEntry id k =
    (s.modPlace (i.entry k).stream (fun p => { p with waitAt := none })).settle id k false := by
  simp [State.recallEntry, hi, hw, hp, hlive, hres]

theorem State.recallEntry_eq_bringIn (hres : p.residency ≠ .resident) :
    s.recallEntry id k = s.bringIn i k (i.entry k).stream := by
  simp [State.recallEntry, hi, hw, hp, hlive, hres]

end First

variable (h : s.mayAct id 0x08 i) (hlen : 0 < i.entries.length) (hw : (i.entry 0).st = .waiting)
  (hp : s.place? (i.entry 0).stream = some p) (hlive : p.live = true)
include h

theorem exec_recall_eq :
    exec (.recall id) s = .next ((s.markTook id).eachEntry { i with took := true } State.recallEntry) :=
  congrArg Host.Outcome.next (h.takeEffect _)

include hlen hw hp hlive

theorem exec_recall_resident (hres : p.residency = .resident) :
    ∃ t j, exec (.recall id) s = .next t ∧ t.item? id = some j ∧ (j.entry 0).st = .committed := by
  have hfirst := State.recallEntry_eq_settle (k := 0) h.item?_markTook hw hp hlive hres
  have hagree : ItemsAgree (Item.outlook 0) ((s.markTook id).recallEntry id 0)
      ((s.markTook id).eachEntry { i with took := true } State.recallEntry) :=
    .eachEntry h.id_eq hlen (fun u k hk => .recallEntry (fun i g => Item.outlook_modEntry hk g) (fun _ _ => rfl) u id)
  rw [hfirst] at hagree
  obtain ⟨j, hj, hv⟩ := hagree.exists (State.item?_modEntry_same h.item?_markTook)
  obtain ⟨-, -, -, hentry⟩ := Item.outlook_eq_iff.mp hv
  have hentry := hentry.trans (Item.entry_modEntry_same (i := { i with took := true }) hlen)
  exact ⟨_, j, exec_recall_eq h, hj, by rw [hentry]⟩

theorem exec_recall_away (hg : s.groupOf (i.entry 0).stream = some g) (haway : p.residency = .away)
    (hroom : g.slotSize ≤ s.arenaRoom i.box) (hwait : s.noneWaits i.box) : ∃ t q, exec (.recall id) s = .next t ∧
      t.place? (i.entry 0).stream = some q ∧ q.residency = .inbound ∧ q.held = true ∧ q.arena.isSome = true ∧
      q.stepCount = p.stepCount := by
  have hid := h.id_eq
  subst hid
  have hfirst : (s.markTook i.id).recallEntry i.id 0 =
      (s.markTook i.id).bringIn { i with took := true } 0 (i.entry 0).stream :=
    State.recallEntry_eq_bringIn h.item?_markTook hw hp hlive (haway ▸ by decide)
  have hwait : (s.markTook i.id).noneWaits i.box := hwait.of_agree (t := s.markTook i.id) rfl ((ItemsAgree.refl s).modItem i.id)
  have harr : ((s.markTook i.id).recallEntry i.id 0).Arriving (i.entry 0).stream p.stepCount := by
    rw [hfirst]
    exact State.arriving_bringIn (i := { i with took := true }) hp hg haway hroom hwait
  obtain ⟨hall, q, hq, hplace⟩ := State.eachEntry_keeps (i := { i with took := true }) hlen harr
    (fun u k _ hu => hu.recallEntry _ k)
  exact ⟨_, q, exec_recall_eq h, hq, hall q (List.mem_of_find?_eq_some hq) (State.place?_stream hq), hplace⟩

end Recall

end Sys2Proof.Machine
end

section
/-! RING_ENTRY_TAKE and DEADLINE_REACHED (R250, R259, R311, R312). -/

namespace Sys2Proof.Machine

-- one theorem after the other: proofs that wait together take too many threads
set_option Elab.async false

/-! ### Submission rings left alone -/

/-- Every box has the same submission rings in both states. -/
def RingsAgree (s t : State) : Prop := ∀ b, (t.box b).subs = (s.box b).subs

section Rings
variable {s t u : State} {id : Nat} {i : Item}

theorem RingsAgree.of_boxes (h : t.boxes = s.boxes) : RingsAgree s t := fun b => by rw [State.box_of_boxes h]

theorem RingsAgree.refl (s : State) : RingsAgree s s := .of_boxes rfl

theorem RingsAgree.trans (h : RingsAgree s t) (k : RingsAgree t u) : RingsAgree s u := fun b => (k b).trans (h b)

theorem RingsAgree.modBox {f : BoxSt → BoxSt} (h : RingsAgree s t) (b : Nat)
    (hf : ∀ x, (f x).subs = x.subs := by exact fun _ => rfl) : RingsAgree s (t.modBox b f) := fun c => by
  rw [State.box_modBox, ← h c]
  split
  · exact hf _
  · rfl

theorem RingsAgree.foldl {α : Type} {f : State → α → State} (l : List α) (h : RingsAgree s t)
    (hf : ∀ u a, RingsAgree u (f u a)) : RingsAgree s (l.foldl f t) := by
  induction l generalizing t with
  | nil => exact h
  | cons a l ih => exact ih (h.trans (hf t a))

theorem RingsAgree.stopInstance (s : State) (c : Nat) : RingsAgree s (s.stopInstance c) := by
  have h : RingsAgree s (s.chargeRun c) := by
    unfold State.chargeRun
    split
    · exact .refl s
    · rename_i i _
      have hcharge : RingsAgree s (s.chargeBox c i.box (cyclesOf (s.time.t - i.start))) :=
        RingsAgree.modBox (.of_boxes (by simp only [State.bump_boxes])) i.box
      exact hcharge.trans (.of_boxes (State.bump_boxes ..))
  exact h.trans (.of_boxes rfl)

theorem RingsAgree.stopItem (s : State) (id : Nat) : RingsAgree s (s.stopItem id) := by
  unfold State.stopItem
  generalize hu : (List.range 68).foldl _ s = u
  have h : RingsAgree s u := by
    rw [← hu]
    refine RingsAgree.foldl _ (.refl s) (fun u c => ?_)
    split
    · split
      · exact .stopInstance u c
      · exact .refl u
    · exact .refl u
  exact h.trans (.of_boxes rfl)

theorem RingsAgree.post (s : State) (i : Item) (dead : Bool) (body : Nat) : RingsAgree s (s.post i dead body) := by
  unfold State.post
  split
  · exact .of_boxes ((State.sendMsg_leads .refl (List.Subset.refl _)).frame.boxes (by decide))
  · refine RingsAgree.modBox (.refl s) i.box (hf := fun x => ?_)
    cases dead <;> rfl

theorem RingsAgree.postItem (s : State) (id : Nat) : RingsAgree s (s.postItem id) := by
  unfold State.postItem
  split
  · exact .refl s
  · split
    · exact .refl s
    · exact .post s _ _ _
    · split
      · exact .refl s
      · exact .post s _ _ _

theorem State.noteFailure_boxes (s : State) (id : Nat) (i : Item) (f : Fail) :
    (s.noteFailure id i f).boxes = s.boxes := by
  simp only [State.noteFailure, State.countFailure, State.bump_boxes]
  exact (State.writeReports_leads .refl (List.Subset.refl _)).frame.boxes (by decide)

theorem State.releaseGroup_boxes (s : State) (g : Nat) : (s.releaseGroup g).boxes = s.boxes :=
  (State.releaseGroup_leads .refl (List.Subset.refl _)).frame.boxes (by decide)

theorem RingsAgree.resolve_failed (hi : s.item? id = some i) (hd : i.disp = none) (f : Fail) :
    RingsAgree s (s.resolve id (.failed f)) := by
  have hnote : RingsAgree s (s.noteFailure id i f) := .of_boxes (s.noteFailure_boxes id i f)
  rcases State.resolve_failed_cases hi hd f with h | ⟨-, g, h⟩
  · rw [h]
    exact hnote.trans (.postItem _ id)
  · rw [h]
    exact (hnote.trans (.of_boxes (State.releaseGroup_boxes _ g))).trans (.postItem _ id)

theorem RingsAgree.failItem (hi : s.item? id = some i) (hd : i.disp = none) (f : Fail) :
    RingsAgree s (s.failItem id f) := by
  obtain ⟨j, hj, hfate, -⟩ := State.item?_cutItem hi f
  have hcut : RingsAgree s (s.cutItem id i f) :=
    (RingsAgree.stopItem s id).trans (.of_boxes ((State.dropSteps_leads _ i).frame.boxes (by decide)))
  rw [State.failItem_eq hi hd]
  exact hcut.trans (.resolve_failed hj ((congrArg Prod.fst hfate).trans hd) f)

end Rings

/-! ### The ledger takes an item (R312, R362) -/

/-- The ledger has taken the item `i` as its next, with the disposition `d`; the rings stand. -/
structure State.Entered (i : Item) (d : Option Disp) (s t : State) : Prop where
  next : t.nextItem = s.nextItem + 1
  item : ∃ j, t.item? i.id = some j ∧ j.fate = (d, i.ident)
  rings : RingsAgree s t

/-- What names an item that enters, and what has been decided of it. -/
def Item.entrant (i : Item) : Nat × Option Disp × W64 × Nat × Nat × Nat := (i.id, i.fate)

section Entered
variable {s t u : State} {i j : Item} {d : Option Disp} {f : Fail}

theorem State.enterLedger_items (s : State) (i : Item) : (s.enterLedger i).items = s.items ++ [i] := by
  simp only [State.enterLedger]
  exact ((State.peak_leads .refl (List.Subset.refl _)).frame.items (by decide)).trans (State.bump_items ..)

theorem State.enterLedger_nextItem (s : State) (i : Item) : (s.enterLedger i).nextItem = s.nextItem + 1 := by
  simp only [State.enterLedger]
  exact ((State.peak_leads .refl (List.Subset.refl _)).frame.nextItem (by decide)).trans (State.bump_nextItem ..)

theorem State.item?_enterLedger (h : s.item? i.id = none) : (s.enterLedger i).item? i.id = some i := by
  have hold : s.items.find? (fun j => j.id == i.id) = none := h
  simp [State.item?, State.enterLedger_items, List.find?_append, hold]

theorem State.entered_enterLedger (h : s.item? i.id = none) : State.Entered i i.disp s (s.enterLedger i) :=
  ⟨s.enterLedger_nextItem i, ⟨i, State.item?_enterLedger h, rfl⟩,
    .of_boxes ((State.enterLedger_leads .refl (List.Subset.refl _)).frame.boxes (by decide))⟩

/-- What leaves the ledger's count, every item's fate and the rings leaves that the item has entered. -/
theorem State.Entered.trans (h : State.Entered i d s t) (hn : u.nextItem = t.nextItem) (hi : ItemsAgree Item.fate t u)
    (hr : RingsAgree t u) : State.Entered i d s u := by
  obtain ⟨hnext, ⟨j, hj, hfate⟩, hrings⟩ := h
  obtain ⟨k, hk, hv⟩ := hi.exists hj
  exact ⟨hn.trans hnext, ⟨k, hk, hv.trans hfate⟩, hrings.trans hr⟩

theorem State.Entered.of_frame {ps : List Part} (h : State.Entered i d s t) (hf : Frame ps t u)
    (hps : Part.nextItem ∉ ps ∧ Part.items ∉ ps ∧ Part.boxes ∉ ps) : State.Entered i d s u :=
  h.trans (hf.nextItem hps.1) (.of_items (hf.items hps.2.1)) (.of_boxes (hf.boxes hps.2.2))

/-- The state from which an item enters counts only by its number of items and its rings. -/
theorem State.Entered.of_start (h : State.Entered i d u t) (hn : u.nextItem = s.nextItem) (hb : u.boxes = s.boxes) :
    State.Entered i d s t :=
  ⟨h.next.trans (congrArg (· + 1) hn), h.item, (RingsAgree.of_boxes hb).trans h.rings⟩

theorem State.Entered.of_entrant (h : State.Entered j d s t) (he : j.entrant = i.entrant) : State.Entered i d s t := by
  obtain ⟨hid, hfate⟩ := Prod.mk.inj he
  obtain ⟨-, hident⟩ := Prod.mk.inj hfate
  obtain ⟨k, hk, hv⟩ := h.item
  exact ⟨h.next, ⟨k, hid ▸ hk, hident ▸ hv⟩, h.rings⟩

theorem State.Entered.resolve (h : State.Entered i none s t) (f : Fail) :
    State.Entered i (some (.failed f)) s (t.resolve i.id (.failed f)) := by
  obtain ⟨hnext, ⟨j, hj, hfate⟩, hrings⟩ := h
  obtain ⟨hdisp, hident⟩ := Prod.mk.inj hfate
  obtain ⟨k, hk, hv⟩ := State.item?_resolve_failed hj hdisp f
  exact ⟨((State.resolve_leads .refl (List.Subset.refl _)).frame.nextItem (by decide)).trans hnext,
    ⟨k, hk, by rw [hv, hident]⟩, hrings.trans (.resolve_failed hj hdisp f)⟩

theorem State.Entered.failItem (h : State.Entered i none s t) (f : Fail) :
    State.Entered i (some (.failed f)) s (t.failItem i.id f) := by
  obtain ⟨hnext, ⟨j, hj, hfate⟩, hrings⟩ := h
  obtain ⟨hdisp, hident⟩ := Prod.mk.inj hfate
  obtain ⟨k, hk, hv⟩ := State.item?_failItem hj hdisp f
  exact ⟨((State.failItem_leads .refl (List.Subset.refl _)).frame.nextItem (by decide)).trans hnext,
    ⟨k, hk, by rw [hv, hident]⟩, hrings.trans (.failItem hj hdisp f)⟩

/-! ### Refused, forwarded or admitted (R250, R312, R324) -/

/-- The item as the manager keeps it while another module carries it out. -/
def Item.forwarded (i : Item) : Item :=
  { i with charged := true, deadline := none, entries := [], reportVa := 0, cullVa := 0 }

/-- The item as it stands in the ledger of the module that admits it. -/
def State.admittedAs (s : State) (i : Item) : Item :=
  { i with
    charged := true, deadline := s.deadlineOf i, soft := bit i.d 339
    collect := bit i.d 341, barrier := (s.box i.box).lastSync }

section Fresh
variable (hnew : s.item? i.id = none) (hd : i.disp = none)
include hnew hd

theorem State.entered_refuse (f : Fail) : State.Entered i (some (.failed f)) s (s.refuse i f) := by
  have h := State.entered_enterLedger hnew
  rw [hd] at h
  exact (h.of_frame (State.bump_leads .refl (List.Subset.refl _)).frame (by decide)).resolve f

theorem State.entered_forwardItem : State.Entered i none s (s.forwardItem i) := by
  have h : State.Entered i none s (s.enterLedger i.forwarded) :=
    hd ▸ (State.entered_enterLedger (i := i.forwarded) hnew).of_entrant rfl
  have h := h.of_frame (State.bump_leads (p := .box) (i := i.box) (n := 0) (k := 1) .refl (List.Subset.refl _)).frame
    (by decide)
  unfold State.forwardItem
  refine State.Entered.of_frame ?_ (State.sendMsg_leads .refl (List.Subset.refl _)).frame (by decide)
  exact State.Entered.trans (t := (s.enterLedger i.forwarded).bump .box i.box 0 1) h rfl (.of_items rfl) (.of_boxes rfl)

theorem State.entered_admitted : ∃ d, State.Entered i d s (s.admitted i) := by
  have h : State.Entered i none s (s.enterLedger (s.admittedAs i)) :=
    hd ▸ (State.entered_enterLedger (i := s.admittedAs i) hnew).of_entrant rfl
  have h := h.of_frame (State.bump_leads (p := .box) (i := i.box) (n := 0) (k := 1) .refl (List.Subset.refl _)).frame
    (by decide)
  unfold State.admitted
  extract_lets j old t u v
  have hu : State.Entered i none s u := by
    unfold u
    split
    · exact h.trans rfl (.of_items rfl) (RingsAgree.modBox (.refl t) j.box)
    · exact h
  have hv : State.Entered i none s v :=
    hu.of_frame (Leads.foldl j.pins .refl (fun w _ hw => State.modPlace_leads hw (List.Subset.refl _))).frame (by decide)
  split
  · split
    · exact ⟨_, hv.failItem _⟩
    · exact ⟨_, hv.of_frame (State.countLoans_leads .refl (List.Subset.refl _)).frame (by decide)⟩
  · exact ⟨_, hv⟩

end Fresh

/-- The item that a check of R250 gives, whether it passes or fails. -/
def checkedItem : Except (Fail × Item) Item → Item
  | .ok r => r
  | .error x => x.2

theorem State.admitStatic_entrant (s : State) (i : Item) : (checkedItem (s.admitStatic i)).entrant = i.entrant := by
  unfold State.admitStatic
  extract_lets
  split
  · rfl
  · split
    · rfl
    · split
      · rfl
      · split
        · rfl
        · split
          · rfl
          · split
            · rfl
            · split
              · split <;> rfl
              · split <;> rfl

theorem State.admitLoad_entrant (h : s.admitLoad i = .ok (j, t)) : j.entrant = i.entrant := by
  unfold State.admitLoad at h
  dsimp only at h
  split at h
  · split at h
    · cases h
    · split at h
      · cases h
      · generalize (if bits (s.readNum i.box i.argC 64) 23 22 = 0 then (true, s) else _) = b at h
        split at h
        · cases h
        · split at h
          · cases h
          · split at h
            · cases h
            · cases h
              rfl
  · split at h
    · cases h
    · split at h
      · split at h
        · cases h
        · split at h
          · cases h
          · cases h
            rfl
      · split at h
        · cases h
        · split at h
          · cases h
          · cases h
            rfl

theorem State.entered_enterItem (hnew : s.item? i.id = none) (hd : i.disp = none) :
    ∃ d, State.Entered i d s (s.enterItem i) := by
  have hstatic := s.admitStatic_entrant i
  unfold State.enterItem
  split
  · rename_i f r hr
    rw [hr] at hstatic
    obtain ⟨hid, hfate⟩ := Prod.mk.inj hstatic
    exact ⟨_, (State.entered_refuse (hid ▸ hnew) ((congrArg Prod.fst hfate).trans hd) f).of_entrant hstatic⟩
  · rename_i r hr
    rw [hr] at hstatic
    obtain ⟨hid, hfate⟩ := Prod.mk.inj hstatic
    have hnew' : s.item? r.id = none := hid ▸ hnew
    have hd' : r.disp = none := (congrArg Prod.fst hfate).trans hd
    have hrefuse := fun f => (State.entered_refuse hnew' hd' f).of_entrant hstatic
    split
    · generalize s.quotaBad _ = full
      split
      · exact ⟨_, hrefuse _⟩
      · exact ⟨_, (State.entered_forwardItem hnew' hd').of_entrant hstatic⟩
    · split
      · exact ⟨_, hrefuse _⟩
      · split
        · exact ⟨_, hrefuse _⟩
        · split
          · exact ⟨_, hrefuse _⟩
          · rename_i j t hload
            have hentrant := State.admitLoad_entrant hload
            obtain ⟨hid, hfate⟩ := Prod.mk.inj hentrant
            have hframe := (State.admitLoad_leads .refl (List.Subset.refl _) hload).frame
            obtain ⟨d, h⟩ := State.entered_admitted
              ((State.item?_of_items (hframe.items (by decide)) _).trans (hid ▸ hnew'))
              ((congrArg Prod.fst hfate).trans hd')
            exact ⟨d, (h.of_start (hframe.nextItem (by decide)) (hframe.boxes (by decide))).of_entrant
              (hentrant.trans hstatic)⟩

/-! ### RING_ENTRY_TAKE (R311, R312) -/

section Take
variable {b ring count e : Nat}

/-- The item that an entry of `n` makes: its tag, its box and its place in the ring, and nothing read yet. -/
def State.arrival (s : State) (b ring count n : Nat) : Item :=
  { id := s.nextItem, tag := BitVec.ofNat 64 (bits n 431 368), box := b, ring := ring, count := count, kind := 0xFF
    pos := s.pos }

theorem State.entryCheck_entrant (h : s.entryCheck i e = .ok j) : j.entrant = i.entrant := by
  unfold State.entryCheck at h
  dsimp only at h
  split at h
  · cases h
  · split at h
    · cases h
    · split at h
      · cases h
      · split at h
        · cases h
        · split at h
          · cases h
          · cases h
            rfl

theorem State.entryCheck_of_count (hcrc : (crc32c (leBytes 60 (e % 2 ^ 480))).toNat = bits e 511 480)
    (hzero : bits e 351 0 = 0) (hcount : bits e 367 352 ≠ i.count % 65536) :
    s.entryCheck i e = .error (Fail.loadCheck 0x0C02) := by
  unfold State.entryCheck
  rw [if_neg (by rintro (h | h); exacts [h hcrc, h hzero]), if_pos hcount]

/-- The gate before R312's checks: the box is not active, or the module serves no host at present. -/
def State.gateShut (s : State) (b : Nat) : Prop :=
  (s.box b).state ≠ .active ∨ s.fab.noMajority = true ∨ s.side.mgrConflict = true ∨ s.side.posRange = true

theorem State.gateShut_bump {p : Pg} {x n m : Nat} : (s.bump p x n m).gateShut b ↔ s.gateShut b := by
  simp only [State.gateShut, State.box_of_boxes (State.bump_boxes ..), State.bump_fab, State.bump_side]

theorem State.takeSubmission_of_shut (h : s.gateShut b) (ring count e : Nat) :
    s.takeSubmission b ring count (.ok e) =
      (s.bump .hostif 0 11 1).refuseEntry (s.arrival b ring count e) { reason := .boxDisabled } :=
  if_pos (State.gateShut_bump.mpr h)

theorem State.takeSubmission_of_open (h : ¬s.gateShut b) (ring count e : Nat) :
    s.takeSubmission b ring count (.ok e) =
      match (s.bump .hostif 0 11 1).entryCheck (s.arrival b ring count e) e with
      | .error f => (s.bump .hostif 0 11 1).refuseEntry { s.arrival b ring count e with
          kind := if f.check = 0x0C04 then (s.bump .hostif 0 11 1).kindOf b e else 0xFF } f
      | .ok i => (s.bump .hostif 0 11 1).enterItem i :=
  if_neg (fun hb => h (State.gateShut_bump.mp hb))

section Entry
variable (hnew : s.item? s.nextItem = none)
include hnew

theorem State.entered_refuseEntry (hj : j.entrant = (s.arrival b ring count e).entrant) (f : Fail) :
    State.Entered (s.arrival b ring count e) (some (.failed { f with atEntry := true })) s
      ((s.bump .hostif 0 11 1).refuseEntry j f) := by
  obtain ⟨hid, hfate⟩ := Prod.mk.inj hj
  have hnew' : (s.bump .hostif 0 11 1).item? j.id = none := by
    rw [State.item?_of_items (State.bump_items ..), hid]
    exact hnew
  exact ((State.entered_refuse hnew' (congrArg Prod.fst hfate) _).of_start (State.bump_nextItem ..)
    (State.bump_boxes ..)).of_entrant hj

/-- Every entry taken joins the ledger under its tag, whatever becomes of it. -/
theorem State.entered_takeSubmission (b ring count e : Nat) :
    ∃ d, State.Entered (s.arrival b ring count e) d s (s.takeSubmission b ring count (.ok e)) := by
  by_cases hshut : s.gateShut b
  · rw [State.takeSubmission_of_shut hshut]
    exact ⟨_, State.entered_refuseEntry hnew rfl _⟩
  · rw [State.takeSubmission_of_open hshut]
    split
    · refine ⟨_, State.entered_refuseEntry hnew ?_ _⟩
      rfl
    · rename_i j hj
      have hentrant := State.entryCheck_entrant hj
      obtain ⟨hid, hfate⟩ := Prod.mk.inj hentrant
      have hnew' : (s.bump .hostif 0 11 1).item? j.id = none := by
        rw [State.item?_of_items (State.bump_items ..), hid]
        exact hnew
      obtain ⟨d, h⟩ := State.entered_enterItem hnew' (congrArg Prod.fst hfate)
      exact ⟨d, (h.of_start (State.bump_nextItem ..) (State.bump_boxes ..)).of_entrant hentrant⟩

theorem State.entered_of_inactive (hbox : (s.box b).state ≠ .active) (ring count e : Nat) :
    State.Entered (s.arrival b ring count e) (some (.failed { reason := .boxDisabled, atEntry := true })) s
      (s.takeSubmission b ring count (.ok e)) := by
  rw [State.takeSubmission_of_shut (.inl hbox)]
  exact State.entered_refuseEntry hnew rfl { reason := .boxDisabled }

theorem State.entered_of_badCount (hopen : ¬s.gateShut b) (hcrc : (crc32c (leBytes 60 (e % 2 ^ 480))).toNat = bits e 511 480)
    (hzero : bits e 351 0 = 0) (hcount : bits e 367 352 ≠ count % 65536) (ring : Nat) :
    State.Entered (s.arrival b ring count e)
      (some (.failed { reason := .loadCheck, check := 0x0C02, atEntry := true })) s
      (s.takeSubmission b ring count (.ok e)) := by
  rw [State.takeSubmission_of_open hopen, State.entryCheck_of_count (i := s.arrival b ring count e) hcrc hzero hcount]
  refine State.entered_refuseEntry hnew ?_ (Fail.loadCheck 0x0C02)
  rfl

end Entry

/-- The state in which the ring's next entry is counted as taken and the ring is the last served. -/
def State.noteTaken (s : State) (b ring : Nat) : State :=
  let u := s.modBox b (fun x => { x with subs := x.subs.map (fun q =>
    if q.index = ring then { q with taken := (q.taken + 1) % 2 ^ 32 } else q) })
  { u with host := { u.host with lastRing := (b, ring) :: u.host.lastRing.filter (fun p => p.1 != b) } }

variable {r : SubRing} (hr : (s.box b).subs.find? (fun q => q.index == ring) = some r)
include hr

theorem State.box_noteTaken : (s.noteTaken b ring).box b = { s.box b with subs := (s.box b).subs.map (fun q =>
    if q.index = ring then { q with taken := (q.taken + 1) % 2 ^ 32 } else q) } := by
  have hb : b < s.boxes.length := by
    by_contra hb
    rw [State.box, List.getD_eq_default _ _ (not_lt.mp hb)] at hr
    cases hr
  exact (State.box_modBox ..).trans (if_pos ⟨rfl, hb⟩)

theorem State.find_noteTaken : ((s.noteTaken b ring).box b).subs.find? (fun q => q.index == ring) =
    some { r with taken := (r.taken + 1) % 2 ^ 32 } := by
  have hindex : r.index = ring := by simpa using List.find?_some hr
  have hkeep : ((fun q : SubRing => q.index == ring) ∘ fun q : SubRing =>
      if q.index = ring then { q with taken := (q.taken + 1) % 2 ^ 32 } else q) = fun q => q.index == ring := by
    funext q
    by_cases h : q.index = ring <;> simp [h]
  rw [State.box_noteTaken hr, List.find?_map, hkeep, hr]
  simp [hindex]

theorem exec_ringEntryTake_eq (hnext : s.nextRing b = some ring) (he : s.ringEntry b r r.taken = .ok e) :
    exec (.ringEntryTake b ring) s = .next ((s.noteTaken b ring).takeSubmission b ring r.taken (.ok e)) := by
  show execRingEntryTake b ring s = _
  simp only [execRingEntryTake, hr, hnext, he, ne_eq, not_true_eq_false, if_false]
  rfl

theorem exec_ringEntryTake (hnext : s.nextRing b = some ring) (he : s.ringEntry b r r.taken = .ok e)
    (hnew : s.item? s.nextItem = none) :
    ∃ t j, exec (.ringEntryTake b ring) s = .next t ∧ t.nextItem = s.nextItem + 1 ∧ t.item? s.nextItem = some j ∧
      j.tag = BitVec.ofNat 64 (bits e 431 368) ∧ j.box = b ∧ j.ring = ring ∧ j.count = r.taken ∧
      (t.box b).subs.find? (fun q => q.index == ring) = some { r with taken := (r.taken + 1) % 2 ^ 32 } ∧
      ((s.box b).state ≠ .active → j.disp = some (.failed { reason := .boxDisabled, atEntry := true })) ∧
      ((s.box b).state = .active → s.fab.noMajority = false → s.side.mgrConflict = false → s.side.posRange = false →
        (crc32c (leBytes 60 (e % 2 ^ 480))).toNat = bits e 511 480 → bits e 351 0 = 0 →
        bits e 367 352 ≠ r.taken % 65536 →
        j.disp = some (.failed { reason := .loadCheck, check := 0x0C02, atEntry := true })) := by
  have hnew' : (s.noteTaken b ring).item? (s.noteTaken b ring).nextItem = none := hnew
  have hstate : ((s.noteTaken b ring).box b).state = (s.box b).state := by rw [State.box_noteTaken hr]
  obtain ⟨d, hnextItem, ⟨j, hj, hfate⟩, hrings⟩ := State.entered_takeSubmission hnew' b ring r.taken e
  obtain ⟨hdisp, hident⟩ := Prod.mk.inj hfate
  obtain ⟨htag, hident⟩ := Prod.mk.inj hident
  obtain ⟨hbox, hident⟩ := Prod.mk.inj hident
  obtain ⟨hring, hcount⟩ := Prod.mk.inj hident
  have hsame : ∀ d', State.Entered ((s.noteTaken b ring).arrival b ring r.taken e) d' (s.noteTaken b ring)
      ((s.noteTaken b ring).takeSubmission b ring r.taken (.ok e)) → j.disp = d' := by
    rintro d' ⟨-, ⟨k, hk, hkfate⟩, -⟩
    cases hj.symm.trans hk
    exact congrArg Prod.fst hkfate
  refine ⟨_, j, exec_ringEntryTake_eq hr hnext he, hnextItem, hj, htag, hbox, hring, hcount,
    (congrArg _ (hrings b)).trans (State.find_noteTaken hr), fun hinactive => ?_,
    fun hactive hmaj hmgr hpos hcrc hzero hbad => ?_⟩
  · exact hsame _ (State.entered_of_inactive hnew' (hstate ▸ hinactive) ring r.taken e)
  · have hopen : ¬(s.noteTaken b ring).gateShut b := by
      rintro (h | h | h | h)
      · exact h (hstate.trans hactive)
      · exact Bool.false_ne_true (hmaj.symm.trans h)
      · exact Bool.false_ne_true (hmgr.symm.trans h)
      · exact Bool.false_ne_true (hpos.symm.trans h)
    exact hsame _ (State.entered_of_badCount hnew' hopen hcrc hzero hbad ring)

end Take

end Entered

/-! ### DEADLINE_REACHED (R259) -/

section Deadline
variable {s : State} {id d : Nat} {i : Item}

/-- The state once its time has come to the instant `d` (log 5). -/
def State.reach (s : State) (d : Nat) : State := { s with time := { s.time with t := max s.time.t d } }

variable (hi : s.item? id = some i) (hd : i.deadline = some d)
include hi hd

theorem exec_deadlineReached_hard (hdisp : i.disp = none) (hsoft : i.soft = false) :
    ∃ t j, exec (.deadlineReached id) s = .next t ∧ t.item? id = some j ∧
      j.disp = some (.failed { reason := .deadline }) ∧ t.time = { s.time with t := max s.time.t d } := by
  obtain ⟨u, hu, hitems, htime⟩ : ∃ u : State, exec (.deadlineReached id) s =
      .next (u.failItem id { reason := .deadline }) ∧ u.items = s.items ∧ u.time = (s.reach d).time := by
    refine ⟨(s.reach d).when (decide (i.state = .started)) ((s.reach d).bump .disp ((s.reach d).homeOf i) 6 1), ?_, ?_, ?_⟩
    · show execDeadlineReached id s = _
      simp only [execDeadlineReached, hi, hd, hdisp, hsoft]
      rfl
    · cases decide (i.state = .started)
      · rfl
      · exact State.bump_items ..
    · cases decide (i.state = .started)
      · rfl
      · exact State.bump_time ..
  obtain ⟨j, hj, hfate⟩ := State.item?_failItem ((State.item?_of_items hitems id).trans hi) hdisp { reason := .deadline }
  exact ⟨_, j, hu, hj, congrArg Prod.fst hfate,
    ((State.failItem_leads .refl (List.Subset.refl _)).frame.time (by decide)).trans htime⟩

theorem exec_deadlineReached_soft (hdisp : i.disp = none) (hsoft : i.soft = true) :
    ∃ t, exec (.deadlineReached id) s = .next t ∧ t.item? id = some { i with late := true } ∧ OtherItems id s t ∧
      t.time = { s.time with t := max s.time.t d } := by
  refine ⟨(s.reach d).modItem id (fun i => { i with late := true }), ?_, State.item?_modItem_same hi,
    (OtherItems.of_items rfl).modItem, rfl⟩
  show execDeadlineReached id s = _
  simp only [execDeadlineReached, hi, hd, hdisp, hsoft]
  rfl

theorem exec_deadlineReached_resolved (hdisp : i.disp ≠ none) : ∃ t, exec (.deadlineReached id) s = .next t ∧
    t.items = s.items ∧ t.time = { s.time with t := max s.time.t d } := by
  refine ⟨s.reach d, ?_, rfl, rfl⟩
  show execDeadlineReached id s = _
  simp only [execDeadlineReached, hi, hd, Option.isSome_iff_ne_none.mpr hdisp]
  rfl

end Deadline

/-- Settles O19: a PARK and a RECALL by what entry 0 begins and later entries leave, an entry taken by what enters the
ledger, a deadline by its three cases. -/
theorem parksRecallsRingsAndDeadlines : Obligations.ParksRecallsRingsAndDeadlines :=
  ⟨fun _ _ _ _ h hlen hw hp hlive hres =>
      ⟨exec_park_unpinned h hlen hw hp hlive hres, exec_park_pinned h hlen hw hp hlive hres⟩,
    fun _ _ _ _ _ h hlen hw hp hg hlive =>
      ⟨exec_recall_resident h hlen hw hp hlive, exec_recall_away h hlen hw hp hlive hg⟩,
    fun _ _ _ _ _ hr hnext he hnew => exec_ringEntryTake hr hnext he hnew,
    fun _ _ _ _ hi hd => ⟨exec_deadlineReached_hard hi hd, exec_deadlineReached_soft hi hd,
      exec_deadlineReached_resolved hi hd⟩⟩

end Sys2Proof.Machine
end

section
/-! What every run keeps (R38, R60, R61, R221, R273, R280): the invariant holds at reset, and every command's law keeps
it. -/

namespace Sys2Proof.Machine

theorem State.Inv.step {s t : State} (h : s.Inv) (ht : step s = .next t) : t.Inv := by
  match hp : s.pending with
  | [] =>
    rw [stepRunsFrontCommand.2 s hp] at ht
    cases ht
    exact h
  | c :: rest =>
    obtain ⟨u, hu, hl⟩ := exec_leads c { s with pending := rest }
    rw [(stepRunsFrontCommand.1 c rest s hp).1, hu] at ht
    cases ht
    exact hl.inv h

/-- Settles O3: the queue is no part of the invariant, and every command's law keeps it. -/
theorem stepKeepsInvariant : Obligations.StepKeepsInvariant := fun _ _ h ht => h.step ht

/-! ### The state after reset -/

theorem State.core_reset {c : Nat} (hc : c < 68) : State.reset.core c = {} := List.getD_replicate _ hc

theorem State.box_reset {b : Nat} (hb : b < 64) : State.reset.box b = {} := List.getD_replicate _ hb

theorem State.link_reset {n : Nat} (hn : n < 24) : State.reset.link n = {} := List.getD_replicate _ hn

theorem Core.shape_default : ({} : Core).Shape :=
  ⟨rfl, fun _ hq => List.eq_of_mem_replicate hq ▸ ⟨rfl, rfl⟩, rfl, rfl⟩

theorem State.shape_reset : State.reset.Shape :=
  ⟨rfl, fun _ hk => List.eq_of_mem_replicate hk ▸ Core.shape_default, rfl, rfl, rfl, rfl, rfl, rfl, rfl⟩

/-- Settles O2: every list of units at reset repeats one default unit. -/
theorem resetKeepsShape : Obligations.ResetKeepsShape := by
  refine ⟨⟨rfl, rfl, State.shape_reset⟩, rfl, rfl, rfl, fun c hc => ?cores, fun b hb => ?boxes, fun n hn => ?links,
    rfl, rfl, rfl⟩
  case cores =>
    refine ⟨by rw [State.core_reset hc], fun n hn => ?_⟩
    have hclerk : State.reset.clerk c n = {} := by
      rw [State.clerk, State.core_reset hc]
      exact List.getD_replicate _ hn
    rw [hclerk]
  case boxes => rw [State.box_reset hb]
  case links => rw [State.link_reset hn]

end Sys2Proof.Machine
end

section
/-! How the updates of one core read back (R69): the core that an update names, the cores it leaves alone, and the status
flag it raises; then CORE_CMD. -/

namespace Sys2Proof.Machine

-- one theorem after the other: proofs that wait together take too many threads
set_option Elab.async false

section Cores
variable {s t u : State} {c : Nat} {f : Core → Core}

theorem State.core_modCore_same (hc : c < s.cores.length) (f : Core → Core) : (s.modCore c f).core c = f (s.core c) :=
  (s.core_modCore c c f).trans (if_pos ⟨rfl, hc⟩)

theorem State.core_modCore_ne {d : Nat} (h : d ≠ c) (f : Core → Core) : (s.modCore c f).core d = s.core d :=
  (s.core_modCore c d f).trans (if_neg fun e => h e.1.symm)

@[simp] theorem State.cores_length_modCore (s : State) (c : Nat) (f : Core → Core) :
    (s.modCore c f).cores.length = s.cores.length := listModify_length ..

@[simp] theorem State.core_changed (s : State) (p : Pg) (i d : Nat) : (s.changed p i).core d = s.core d := rfl

@[simp] theorem State.core_when (s t : State) (b : Bool) (d : Nat) :
    (s.when b t).core d = if b then t.core d else s.core d := by
  cases b <;> rfl

theorem OtherCores.of_cores (h : t.cores = s.cores) : OtherCores c s t := fun d _ => State.core_of_cores h d

theorem OtherCores.refl (c : Nat) (s : State) : OtherCores c s s := .of_cores rfl

theorem OtherCores.trans (h : OtherCores c s t) (k : OtherCores c t u) : OtherCores c s u := fun d hd =>
  (k d hd).trans (h d hd)

theorem OtherCores.modCore (h : OtherCores c s t) (f : Core → Core) : OtherCores c s (t.modCore c f) := fun d hd =>
  (State.core_modCore_ne hd f).trans (h d hd)

theorem State.core_setCore_same (hc : c < s.cores.length) (k : Core) : (s.setCore c k).core c = k := by
  simp [State.core, State.setCore, List.getD_eq_getElem?_getD, hc]

theorem OtherCores.setCore (h : OtherCores c s t) (k : Core) : OtherCores c s (t.setCore c k) := fun d hd => by
  rw [← h d hd]
  simp [State.core, State.setCore, List.getD_eq_getElem?_getD, List.getElem?_set_ne hd.symm]

/-! ### A status flag raised -/

theorem State.intRaised_changed (p : Pg) (i : Nat) (h : t.regs = s.regs) : IntRaised p i 0x100 s (t.changed p i) := by
  rw [IntRaised, State.changed_eq, State.reg_orReg, if_pos rfl, State.reg_of_regs h]

theorem State.otherRegs_intStat_changed (p : Pg) (i : Nat) (h : t.regs = s.regs) :
    OtherRegs [regAddr p i Reg.intStat] s (t.changed p i) :=
  OtherRegs.trans (fun a _ => State.reg_of_regs h a) (t.otherRegs_orReg p i Reg.intStat 0x100)

/-- The page of a unit of core `c` has its STATUS_CHANGE raised and core `c` reads `k`; other cores and registers stand. -/
def CoreNoted (p : Pg) (c : Nat) (k : Core) (s t : State) : Prop :=
  t.core c = k ∧ OtherCores c s t ∧ IntRaised p c 0x100 s t ∧ OtherRegs [regAddr p c Reg.intStat] s t

theorem State.coreNoted_modCore (hc : c < s.cores.length) (p : Pg) (f : Core → Core) :
    CoreNoted p c (f (s.core c)) s ((s.modCore c f).changed p c) :=
  ⟨State.core_modCore_same hc f, OtherCores.modCore (.refl c s) f, State.intRaised_changed p c rfl,
    State.otherRegs_intStat_changed p c rfl⟩

end Cores

/-! ### CORE_CMD (R69) -/

section Commands
variable {s : State} {c : Nat} (hc : c < s.cores.length)
include hc

theorem exec_drain_running (hst : (s.core c).state = .running) :
    ∃ t, exec (.drain c) s = .next t ∧ CoreNoted .ctl c { s.core c with state := .draining } s t := by
  refine ⟨_, ?_, State.coreNoted_modCore hc .ctl fun k => { k with state := .draining }⟩
  show execDrain c s = _
  simp [execDrain, State.drainCore, hst]

theorem exec_drain_idle (hst : (s.core c).state = .idle) :
    ∃ t, exec (.drain c) s = .next t ∧ CoreNoted .ctl c { s.core c with state := .drained } s t := by
  refine ⟨_, ?_, State.coreNoted_modCore hc .ctl fun k => { k with state := .drained }⟩
  show execDrain c s = _
  simp [execDrain, State.drainCore, hst]

theorem exec_coreDrained (hst : (s.core c).state = .draining) (hrun : (s.core c).run = none)
    (hchain : (s.core c).chain = none) :
    ∃ t, exec (.coreDrained c) s = .next t ∧ CoreNoted .ctl c { s.core c with state := .drained } s t := by
  refine ⟨_, ?_, State.coreNoted_modCore hc .ctl fun k => { k with state := .drained }⟩
  show execCoreDrained c s = _
  simp [execCoreDrained, hst, hrun, hchain]

theorem exec_coreResume (hst : (s.core c).state = .drained) :
    ∃ t, exec (.coreResume c) s = .next t ∧ CoreNoted .ctl c { s.core c with state := .idle, quietHold := false } s t := by
  refine ⟨_, ?_, State.coreNoted_modCore hc .ctl fun k => { k with state := .idle, quietHold := false }⟩
  show execCoreResume c s = _
  simp [execCoreResume, State.resumeCore, hst]

end Commands

/-- Settles O14: each command changes the state of its one core and raises STATUS_CHANGE. -/
theorem coresDrainAndResume : Obligations.CoresDrainAndResume :=
  ⟨fun _ _ hc hst => exec_drain_running hc hst, fun _ _ hc hst => exec_drain_idle hc hst,
    fun _ _ hc hst hrun hchain => exec_coreDrained hc hst hrun hchain, fun _ _ hc hst => exec_coreResume hc hst⟩

end Sys2Proof.Machine
end

section
/-! How counters read after the updates of a page (R397, R436), and the frames of the flags of a page. -/

namespace Sys2Proof.Machine

-- one theorem after the other: proofs that wait together take too many threads
set_option Elab.async false

section Counters
variable {s t u : State} {ks : List Nat} {p : Pg} {i n k : Nat}

theorem OtherCounters.of_ctr (h : t.ctr = s.ctr) : OtherCounters ks s t := fun _ _ => by rw [h]

theorem OtherCounters.refl (ks : List Nat) (s : State) : OtherCounters ks s s := .of_ctr rfl

theorem OtherCounters.trans (h : OtherCounters ks s t) (h' : OtherCounters ks t u) : OtherCounters ks s u :=
  fun a ha => (h' a ha).trans (h a ha)

theorem OtherCounters.live (h : OtherCounters ks s t) (hk : ctrKey p i n ∉ ks) : t.live p i n = s.live p i n := h _ hk

theorem OtherCounters.bump (h : OtherCounters ks s t) (hk : ctrKey p i n ∈ ks) (k : Nat) :
    OtherCounters ks s (t.bump p i n k) := fun a ha =>
  (t.cell_bump_ne p i n k a fun e => ha (e ▸ hk)).trans (h a ha)

theorem OtherCounters.peak (h : OtherCounters ks s t) (hk : ctrKey p i n ∈ ks) (v : Nat) :
    OtherCounters ks s (t.peak p i n v) := fun a ha => by
  rw [← h a ha, State.peak]
  split
  · rfl
  · exact cellGet_cellSet_ne _ _ _ _ fun e => ha (e ▸ hk)

theorem OtherRegs.of_regs {as : List Nat} (h : t.regs = s.regs) : OtherRegs as s t := fun a _ => State.reg_of_regs h a

theorem OtherRegs.frozen {as : List Nat} (h : OtherRegs as s t) (ha : regAddr p i Reg.ctrl ∉ as) :
    t.frozen p i = s.frozen p i := congrArg (bit · 0) (h.regN ha)

theorem ctrl_notMem_flagRegs (p : Pg) (i : Nat) : regAddr p i Reg.ctrl ∉ flagRegs p i := by simp

theorem State.counted_eq (hf : t.frozen p i = s.frozen p i) (hl : t.live p i n = s.live p i n) (k : Nat) :
    t.counted p i n k = s.counted p i n k := by rw [State.counted, State.counted, hf, hl]

theorem State.live_bump (s : State) (p : Pg) (i n k : Nat) : (s.bump p i n k).live p i n = s.counted p i n k :=
  s.live_bump_same p i n k

@[simp] theorem ctrKey_inj (p : Pg) (i n m : Nat) : ctrKey p i n = ctrKey p i m ↔ n = m := by
  simp only [ctrKey]
  omega

/-- A flag reaches the registers alone. -/
theorem State.frame_flag (s : State) (p : Pg) (i b kind loc : Nat) : Frame [.regs] s (s.flag p i b kind loc) :=
  (State.flag_leads .refl (List.Subset.refl _)).frame

@[simp] theorem State.flag_cores (s : State) (p : Pg) (i b kind loc : Nat) : (s.flag p i b kind loc).cores = s.cores :=
  (s.frame_flag p i b kind loc).cores (by decide)

@[simp] theorem State.flag_ctr (s : State) (p : Pg) (i b kind loc : Nat) : (s.flag p i b kind loc).ctr = s.ctr :=
  (s.frame_flag p i b kind loc).ctr (by decide)

@[simp] theorem State.flag_log (s : State) (p : Pg) (i b kind loc : Nat) : (s.flag p i b kind loc).log = s.log :=
  (s.frame_flag p i b kind loc).log (by decide)

/-- A refused write leaves the register and everything but the page's flags, of which it raises REG_ACCESS. -/
theorem State.refuseWrite_keeps (s : State) (p : Pg) (i : Nat) {o : Nat} (ho : 0x40 ≤ o) :
    (s.refuseWrite p i o).reg (regAddr p i o) = s.reg (regAddr p i o) ∧
      bit ((s.refuseWrite p i o).regN p i Reg.errStat) 0 = true :=
  ⟨s.otherRegs_flag p i _ _ _ _ (notMem_flagRegs ho), s.bit_errStat_flag p i _ _ (by decide)⟩

end Counters

end Sys2Proof.Machine
end

section
/-! Maps and windows of a core, and its pigeonholes (R51, R66, R71, R149, R178, R442). -/

namespace Sys2Proof.Machine

-- one theorem after the other: proofs that wait together take too many threads
set_option Elab.async false

/-! ### Words that fit their register -/

theorem outside_mask {v m k : Nat} (hm : m = 2 ^ k - 1) (h : v < 2 ^ k) : outside v m = 0 := by
  rw [hm, outside, Nat.and_two_pow_sub_one_eq_mod, Nat.mod_eq_of_lt h, Nat.sub_self]

theorem ofNat_toNat_mod (v : W32) {m : Nat} (h : v.toNat < m) : BitVec.ofNat 32 (v.toNat % m) = v := by
  rw [Nat.mod_eq_of_lt h, BitVec.ofNat_toNat, BitVec.setWidth_eq]

/-! ### ACM_MAP, STATE_WINDOW, CORE_MAP (R66, R71, R442) -/

/-- The row of ACM_MAP (R71). -/
def acmMapRow : RegRow := { off := Reg.acm_acmMap, rw := 0xFFFF_FFFF }

theorem storeFlagged_acmMapRow (locked : Bool) (v : W32) : storeFlagged acmMapRow locked v.toNat = false := by
  have h : outside v.toNat 0xFFFF_FFFF = 0 := outside_mask (k := 32) (by norm_num) v.isLt
  simp [storeFlagged, acmMapRow, h]

section Writes
variable {s : State} {c n : Nat} {v : W32}

theorem exec_acmMapWrite_drained (hc : c < 68) (hst : (s.core c).state = .drained) :
    exec (.acmMapWrite c v) s = .next (s.storeReg .acm c Reg.acm_acmMap acmMapRow v.toNat) := by
  show execAcmMapWrite c v s = _
  simp [execAcmMapWrite, State.acmWrite, hc, hst, acmMapRow]

theorem State.reg_storeReg_acmMap :
    (s.storeReg .acm c Reg.acm_acmMap acmMapRow v.toNat).reg (regAddr .acm c Reg.acm_acmMap) = v := by
  refine BitVec.eq_of_getLsbD_eq fun k hk => ?_
  have hrw : bit acmMapRow.rw k = true := by
    have hmask : acmMapRow.rw = 2 ^ 32 - 1 := by norm_num [acmMapRow]
    rw [bit_eq_testBit, hmask, Nat.testBit_two_pow_sub_one, decide_eq_true hk]
  have hw1c : bit acmMapRow.w1c k = false := by simp [bit_eq_testBit, acmMapRow]
  rw [State.getLsbD_storeReg (by decide) (.inl (by decide)) hk]
  simp [hrw, hw1c]

theorem exec_acmMapWrite_refused (hc : c < 68) (hst : (s.core c).state ≠ .drained) :
    exec (.acmMapWrite c v) s = .next (s.refuseWrite .acm c Reg.acm_acmMap) := by
  show execAcmMapWrite c v s = _
  simp [execAcmMapWrite, State.acmWrite, hc, hst]

/-- The places with no window copy in core `c`. -/
def State.dropWindows (s : State) (c : Nat) : State :=
  { s with places := s.places.map (fun p =>
      if p.windowCore = some c then { p with window := none, windowCore := none } else p) }

theorem State.windowCore_dropWindows : ∀ p ∈ (s.dropWindows c).places, p.windowCore ≠ some c := by
  intro p hp
  obtain ⟨q, -, rfl⟩ := List.mem_map.mp hp
  split
  · simp
  · assumption

theorem exec_stateWindowWrite_drained (hc : c < 68) (hst : (s.core c).state = .drained) (hv : v.toNat ≤ 64) :
    exec (.stateWindowWrite c v) s =
      .next ((s.setReg (regAddr .state c Reg.state_stateWindow) v).dropWindows c) := by
  have hlt : v.toNat < 2 ^ 7 := by omega
  have hmod : v.toNat % 128 = v.toNat := Nat.mod_eq_of_lt hlt
  have hout : outside v.toNat 0x7F = 0 := outside_mask (k := 7) (by norm_num) hlt
  show execStateWindowWrite c v s = _
  simp [execStateWindowWrite, State.windowWrite, hc, hst, hout, hmod, hv, State.dropWindows]

/-- A refused write of STATE_WINDOW is flagged once, or twice where it has reserved bits too. -/
theorem exec_stateWindowWrite_refused (hc : c < 68) (hbad : (s.core c).state ≠ .drained ∨ 64 < v.toNat % 128) :
    ∃ u : State, exec (.stateWindowWrite c v) s = .next (u.refuseWrite .state c Reg.state_stateWindow) ∧
      u.reg (regAddr .state c Reg.state_stateWindow) = s.reg (regAddr .state c Reg.state_stateWindow) ∧
      u.places = s.places := by
  show ∃ u : State, execStateWindowWrite c v s = _ ∧ _
  by_cases hout : outside v.toNat 0x7F = 0
  · refine ⟨s, ?_, rfl, rfl⟩
    simp [execStateWindowWrite, State.windowWrite, hc, hout, hbad]
  · have hcore : ((s.refuseWrite .state c Reg.state_stateWindow).core c).state = (s.core c).state :=
      congrArg Core.state (State.core_of_cores (s.flag_cores ..) c)
    refine ⟨s.refuseWrite .state c Reg.state_stateWindow, ?_, (s.refuseWrite_keeps .state c (by decide)).1,
      (s.frame_flag ..).places (by decide)⟩
    simp [execStateWindowWrite, State.windowWrite, hc, hout, hcore, hbad]

theorem exec_coreMapWrite_taken (hn : n < 16) (hok : ∀ k, k < 4 → s.mapOk n v.toNat k = true) :
    exec (.coreMapWrite n v) s =
      .next ((s.setReg (regAddr .hub 0 (Reg.hub_coreMap + 4 * n)) v).changed .hub 0) := by
  have hall : (List.range 4).all (s.mapOk n v.toNat) = true := by simpa using hok
  show execCoreMapWrite n v s = _
  simp only [execCoreMapWrite, State.coreMapWrite, hall, if_true, BitVec.ofNat_toNat, BitVec.setWidth_eq]
  simp [hn]

theorem coreMap_ne_intStat (n : Nat) : regAddr .hub 0 (Reg.hub_coreMap + 4 * n) ≠ regAddr .hub 0 Reg.intStat := by
  simp only [ne_eq, regAddr_inj, Reg.hub_coreMap, Reg.intStat]
  omega

theorem exec_coreMapWrite_refused {k : Nat} (hn : n < 16) (hk : k < 4) (hbad : s.mapOk n v.toNat k = false) :
    exec (.coreMapWrite n v) s = .next (s.refuseWrite .hub 0 (Reg.hub_coreMap + 4 * n)) := by
  have hall : (List.range 4).all (s.mapOk n v.toNat) = false := List.all_eq_false.mpr ⟨k, by simpa using hk, by simp [hbad]⟩
  show execCoreMapWrite n v s = _
  simp only [execCoreMapWrite, State.coreMapWrite, hall]
  simp [hn]

end Writes

/-! ### HANDLE_SEL and FLUSH (R149, R178) -/

section Handle
variable {s : State} {c n : Nat} {v : W32} {p : Place} {g : Group}

/-- Words written to the registers that follow each other from an offset on. -/
def State.setRegs (s : State) (p : Pg) (i o : Nat) (w : Nat → W32) (l : List Nat) : State :=
  l.foldl (fun (s : State) n => s.setReg (regAddr p i (o + 4 * n)) (w n)) s

theorem State.reg_setRegs_ne {q : Pg} {i o : Nat} {w : Nat → W32} {l : List Nat} {a : Nat}
    (h : ∀ n ∈ l, a ≠ regAddr q i (o + 4 * n)) : (s.setRegs q i o w l).reg a = s.reg a := by
  induction l generalizing s with
  | nil => rfl
  | cons m l ih =>
    obtain ⟨hm, hl⟩ := List.forall_mem_cons.mp h
    exact (ih hl).trans (s.reg_setReg_ne _ hm)

theorem State.reg_setRegs_mem {q : Pg} {i o : Nat} {w : Nat → W32} {l : List Nat} (hl : l.Nodup) (hn : n ∈ l) :
    (s.setRegs q i o w l).reg (regAddr q i (o + 4 * n)) = w n := by
  induction l generalizing s with
  | nil => cases hn
  | cons m l ih =>
    obtain ⟨hm, hl⟩ := List.nodup_cons.mp hl
    rcases List.mem_cons.mp hn with rfl | hn
    · refine (State.reg_setRegs_ne (l := l) fun k hk e => hm ?_).trans (s.reg_setReg_same _ _)
      have e := (regAddr_inj ..).mp e
      rwa [show n = k by omega]
    · exact ih hl hn

/-- The state in which the handle `h` is loaded, or none. -/
def State.loadHandle (s : State) (c : Nat) (v : W32) (h : Option Nat) : State :=
  ((s.setReg (regAddr .state c Reg.state_handleSel) v).setReg (regAddr .state c Reg.state_handleStatus)
    (BitVec.ofNat 32 (b2n h.isSome * 2))).setRegs .state c Reg.state_handleData
      (fun n => BitVec.ofNat 32 (h.getD 0 / 2 ^ (32 * n))) (List.range 16)

theorem exec_handleSelWrite (hc : c < 68) (hv : v.toNat < 2 ^ 24) (hp : s.place? (bits v.toNat 17 0) = some p)
    (hg : s.group? p.group = some g) (hbox : g.box = bits v.toNat 23 18) :
    exec (.handleSelWrite c v) s = .next (s.loadHandle c v (some (p.handle g))) := by
  have hout : outside v.toNat 0xFF_FFFF = 0 := outside_mask (k := 24) (by norm_num) hv
  have hv' : BitVec.ofNat 32 (v.toNat % 2 ^ 24) = v := ofNat_toNat_mod v hv
  have hplace : (s.setReg (regAddr .state c Reg.state_handleSel) v).place? (bits v.toNat 17 0) = some p := hp
  have hgroup : (s.setReg (regAddr .state c Reg.state_handleSel) v).group? p.group = some g := hg
  show execHandleSelWrite c v s = _
  simp only [execHandleSelWrite, hc, decide_true, State.when_true, State.handleSel, hout, if_true, hv']
  simp only [hplace, hgroup, Option.bind_some, hbox, if_true]
  rfl

theorem State.reg_loadHandle_handleSel (h : Option Nat) :
    (s.loadHandle c v h).reg (regAddr .state c Reg.state_handleSel) = v := by
  refine (State.reg_setRegs_ne fun m _ => ?_).trans
    ((State.reg_setReg_ne _ _ (by simp)).trans (State.reg_setReg_same _ _ _))
  simp only [ne_eq, regAddr_inj, Reg.state_handleSel, Reg.state_handleData]
  omega

theorem State.bit_handleStatus_loadHandle (h : Nat) :
    bit ((s.loadHandle c v (some h)).regN .state c Reg.state_handleStatus) 1 = true := by
  have hstatus : (s.loadHandle c v (some h)).reg (regAddr .state c Reg.state_handleStatus) = BitVec.ofNat 32 (b2n true * 2) := by
    refine (State.reg_setRegs_ne fun m _ => ?_).trans (State.reg_setReg_same _ _ _)
    simp only [ne_eq, regAddr_inj, Reg.state_handleStatus, Reg.state_handleData]
    omega
  rw [State.regN, hstatus]
  rfl

theorem State.reg_loadHandle_handleData (h : Nat) (hn : n < 16) :
    (s.loadHandle c v (some h)).reg (regAddr .state c (Reg.state_handleData + 4 * n)) =
      BitVec.ofNat 32 (h / 2 ^ (32 * n)) := by
  rw [State.loadHandle, State.reg_setRegs_mem List.nodup_range (List.mem_range.mpr hn), Option.getD_some]

theorem exec_flush (hc : c < 68) (hlen : c < s.cores.length) : ∃ t, exec (.flush c) s = .next t ∧
    t.core c = { s.core c with lab := [] } ∧ OtherCores c s t ∧
    t.live .kvw c 3 = s.counted .kvw c 3 (s.core c).lab.length ∧ OtherCounters [ctrKey .kvw c 3] s t := by
  have hcores : (s.bump .kvw c 3 (s.core c).lab.length).cores = s.cores := s.bump_cores ..
  refine ⟨s.flushCore c, ?_, ?_, OtherCores.modCore (.of_cores hcores) _, ?_, ?_⟩
  · show execFlush c s = _
    simp [execFlush, hc]
  · exact (State.core_modCore_same (hcores ▸ hlen) _).trans (by rw [State.core_of_cores hcores])
  · exact s.live_bump .kvw c 3 _
  · exact OtherCounters.bump (.refl _ s) (List.mem_singleton.mpr rfl) _

end Handle

/-! ### Pigeonholes (R51) -/

theorem mem_setInsert_iff {l : List Nat} {m n : Nat} : m ∈ setInsert l n ↔ m = n ∨ m ∈ l := by
  induction l with
  | nil => simp [setInsert]
  | cons a l ih =>
    unfold setInsert
    split
    · simp only [List.mem_cons, ih]
      tauto
    · split
      · subst n
        simp
      · simp

theorem mem_foldl_setInsert {α : Type} {f : α → Nat} {l : List α} {p : List Nat} {m : Nat} :
    m ∈ l.foldl (fun p r => setInsert p (f r)) p ↔ m ∈ p ∨ ∃ r ∈ l, m = f r := by
  induction l generalizing p with
  | nil => simp
  | cons a l ih =>
    simp only [List.foldl_cons, ih, mem_setInsert_iff, List.mem_cons, exists_eq_or_imp]
    tauto

theorem bit_add_two_pow {w k : Nat} (h : bit w k = false) : bit (w + 2 ^ k) k = true := by
  rw [bit_eq_testBit] at h ⊢
  rw [Nat.add_comm, Nat.testBit_two_pow_add_eq, h]
  rfl

section Pigeonholes
variable {s : State} {c ph n : Nat}

/-- Every row of a pigeonhole among the poisoned ones. -/
def rowsPoisoned (ph : Nat) (p : List Nat) : List Nat := (List.range 256).foldl (fun m r => setInsert m (ph * 256 + r)) p

theorem mem_rowsPoisoned (ph : Nat) (p : List Nat) {r : Nat} (hr : r < 256) : ph * 256 + r ∈ rowsPoisoned ph p := by
  rw [rowsPoisoned, mem_foldl_setInsert]
  exact .inr ⟨r, List.mem_range.mpr hr, rfl⟩

/-- The core with every row of a pigeonhole poisoned and its corrected errors counted (R51). -/
def Core.poisonPh (k : Core) (ph n : Nat) : Core :=
  { k with phCe := k.phCe.set ph n, phPoison := rowsPoisoned ph k.phPoison }

@[simp] theorem Core.poisonPh_retired (k : Core) (ph n : Nat) : (k.poisonPh ph n).retired = k.retired := by
  rw [Core.poisonPh]

@[simp] theorem Core.poisonPh_run (k : Core) (ph n : Nat) : (k.poisonPh ph n).run = k.run := by
  rw [Core.poisonPh]

@[simp] theorem Core.poisonPh_phPoison (k : Core) (ph n : Nat) :
    (k.poisonPh ph n).phPoison = rowsPoisoned ph k.phPoison := by
  rw [Core.poisonPh]

/-- An uncorrectable error: the pigeonhole's rows are poisoned and the error flagged and counted. -/
theorem State.phParity_uncorrectable (hlen : c < s.cores.length) :
    (s.phParity c ph true 0).core c = (s.core c).poisonPh ph 0 ∧ OtherCores c s (s.phParity c ph true 0) ∧
      OtherRegs (flagRegs .acm c) s (s.phParity c ph true 0) ∧
      bit ((s.phParity c ph true 0).regN .acm c Reg.errStat) 2 = true ∧
      OtherCounters [ctrKey .acm c 1] s (s.phParity c ph true 0) ∧ (s.phParity c ph true 0).log = s.log ∧
      (s.phParity c ph true 0).cores.length = s.cores.length := by
  obtain ⟨u, hu⟩ : ∃ u, u = (s.modCore c (fun k => { k with phCe := k.phCe.set ph 0 })).modCore c
      (fun k => { k with phPoison := rowsPoisoned ph k.phPoison }) := ⟨_, rfl⟩
  have ht : s.phParity c ph true 0 = (u.flag .acm c 2 2 (ph * 2 ^ 18)).bump .acm c 1 1 := by
    rw [hu]
    rfl
  have hcores : (s.phParity c ph true 0).cores = u.cores := by rw [ht, State.bump_cores, State.flag_cores]
  have hcore : u.core c = (s.core c).poisonPh ph 0 := by
    rw [hu, State.core_modCore_same (by simpa using hlen), State.core_modCore_same hlen]
    rfl
  have hother : OtherCores c s u := hu ▸ OtherCores.modCore (OtherCores.modCore (.refl c s) _) _
  have hregs : u.regs = s.regs ∧ u.ctr = s.ctr ∧ u.log = s.log ∧ u.cores.length = s.cores.length := by simp [hu, State.modCore]
  obtain ⟨hregs, hctr, hlog, hlength⟩ := hregs
  refine ⟨(State.core_of_cores hcores c).trans hcore, hother.trans (.of_cores hcores), ?_, ?_, ?_, ?_, ?_⟩
  · rw [ht]
    exact (OtherRegs.of_regs hregs).trans ((u.otherRegs_flag .acm c _ _ _).trans (.of_regs (State.bump_regs ..)))
  · rw [ht, State.regN, State.reg_bump]
    exact u.bit_errStat_flag .acm c _ _ (by decide)
  · rw [ht]
    exact .bump (.of_ctr ((u.flag_ctr ..).trans hctr)) (List.mem_singleton.mpr rfl) _
  · rw [ht, State.bump_log, State.flag_log, hlog]
  · rw [hcores, hlength]

/-- A corrected error is flagged and counted, and leaves the pigeonhole as it is. -/
theorem State.phParity_corrected (hlen : c < s.cores.length) (hn : 0 < n) :
    (s.phParity c ph false n).core c = { s.core c with phCe := (s.core c).phCe.set ph n } ∧
      OtherCores c s (s.phParity c ph false n) ∧ (s.phParity c ph false n).log = s.log ∧
      bit ((s.phParity c ph false n).regN .acm c Reg.errStat) 1 = true := by
  obtain ⟨u, hu⟩ : ∃ u, u = s.modCore c (fun k => { k with phCe := k.phCe.set ph n }) := ⟨_, rfl⟩
  have ht : s.phParity c ph false n =
      (u.flag .acm c 1 2 (ph * 2 ^ 18)).bump .acm c 0 (n - (s.core c).phCe.getD ph 0) := by
    simp [State.phParity, hu, hn]
  have hcores : (s.phParity c ph false n).cores = u.cores := by rw [ht, State.bump_cores, State.flag_cores]
  refine ⟨(State.core_of_cores hcores c).trans ?_, .trans ?_ (.of_cores hcores), ?_, ?_⟩
  · rw [hu, State.core_modCore_same hlen]
  · rw [hu]
    exact OtherCores.modCore (.refl c s) _
  · rw [ht, State.bump_log, State.flag_log, hu]
    rfl
  · rw [ht, State.regN, State.reg_bump]
    exact u.bit_errStat_flag .acm c _ _ (by decide)

/-- A retirement is put down, counted and recorded. -/
theorem State.retirePh_keeps (hlen : c < s.cores.length) :
    (s.retirePh c ph true).core c = { s.core c with retired := (s.core c).retired + 2 ^ ph } ∧
      OtherCores c s (s.retirePh c ph true) ∧ OtherRegs [regAddr .acm c Reg.intStat] s (s.retirePh c ph true) ∧
      (s.retirePh c ph true).live .acm c 2 = s.counted .acm c 2 1 ∧
      Recorded { pageRec .acm c 0x0100 .warning with a := ph, b := 1 } s (s.retirePh c ph true) := by
  obtain ⟨u, hu⟩ : ∃ u, u = (s.modCore c (fun k => { k with retired := k.retired + 2 ^ ph })).changed .acm c := ⟨_, rfl⟩
  obtain ⟨hcore, hother, -, hregs⟩ : CoreNoted .acm c _ s u :=
    hu ▸ State.coreNoted_modCore hlen .acm fun k => { k with retired := k.retired + 2 ^ ph }
  obtain ⟨w, hw⟩ : ∃ w : State, w = { u with sec := { u.sec with
      retired := cellSet 0 u.sec.retired c (u.core c).retired } } := ⟨_, rfl⟩
  have ht : s.retirePh c ph true = (w.bump .acm c 2 1).event { pageRec .acm c 0x0100 .warning with a := ph, b := 1 } := by
    rw [hw, hu]
    rfl
  have hcores : (s.retirePh c ph true).cores = u.cores := by rw [ht, State.event_cores, State.bump_cores, hw]
  have hfrozen : u.frozen .acm c = s.frozen .acm c := hregs.frozen (by simp)
  refine ⟨(State.core_of_cores hcores c).trans hcore, hother.trans (.of_cores hcores), hregs.trans (.of_regs ?_), ?_, ?_⟩
  · rw [ht, State.event_regs, State.bump_regs, hw]
  · rw [ht, State.live_event, State.live_bump, hw]
    refine State.counted_eq hfrozen ?_ 1
    rw [hu]
    rfl
  · rw [Recorded, ht, State.event_log, State.bump_log, hw, hu]
    rfl

theorem exec_pigeonholeRetire_uncorrectable (hc : c < 68) (hlen : c < s.cores.length) (hph : ph < 9)
    (hret : bit (s.core c).retired ph = false) :
    ∃ t, exec (.pigeonholeRetire c ph true 0) s = .next t ∧ OtherCores c s t ∧ bit (t.core c).retired ph = true ∧
      (∀ r, r < 256 → ph * 256 + r ∈ (t.core c).phPoison) ∧ (t.core c).run = (s.core c).run ∧
      t.live .acm c 2 = s.counted .acm c 2 1 ∧ bit (t.regN .acm c Reg.errStat) 2 = true ∧
      Recorded { pageRec .acm c 0x0100 .warning with a := ph, b := 1 } s t := by
  obtain ⟨hcore, hother, hregs, herr, hctr, hlog, hlen'⟩ := State.phParity_uncorrectable (ph := ph) hlen
  obtain ⟨hcore', hother', hregs', hlive, hrec⟩ := State.retirePh_keeps (ph := ph) (hlen'.symm ▸ hlen)
  refine ⟨(s.phParity c ph true 0).retirePh c ph true, ?_, hother.trans hother', ?_, fun r hr => ?_, ?_, ?_, ?_, ?_⟩
  · show execPigeonholeRetire c ph true 0 s = _
    simp [execPigeonholeRetire, hc, hph, hret]
  · rw [hcore', hcore, Core.poisonPh_retired]
    exact bit_add_two_pow hret
  · rw [hcore', hcore, Core.poisonPh_phPoison]
    exact mem_rowsPoisoned ph _ hr
  · rw [hcore', hcore, Core.poisonPh_run]
  · rw [hlive]
    exact State.counted_eq (hregs.frozen (ctrl_notMem_flagRegs _ _)) (hctr.live (by simp)) 1
  · rw [hregs'.regN (by simp)]
    exact herr
  · rw [Recorded, hrec, hlog]

theorem exec_pigeonholeRetire_corrected (hc : c < 68) (hlen : c < s.cores.length) (hph : ph < 9)
    (hn : 0 < n) (hlim : n < s.field .acm c Reg.acm_acmCeLimit 7 0) :
    ∃ t, exec (.pigeonholeRetire c ph false n) s = .next t ∧
      OtherCores c s t ∧ (t.core c).retired = (s.core c).retired ∧ (t.core c).phPoison = (s.core c).phPoison ∧
      t.log = s.log ∧ bit (t.regN .acm c Reg.errStat) 1 = true := by
  obtain ⟨hcore, hother, hlog, herr⟩ := State.phParity_corrected (ph := ph) hlen hn
  refine ⟨s.phParity c ph false n, ?_, hother, by rw [hcore], by rw [hcore], hlog, herr⟩
  have hbelow : ¬(s.field .acm c Reg.acm_acmCeLimit 7 0 ≠ 0 ∧ s.field .acm c Reg.acm_acmCeLimit 7 0 ≤ n) := by omega
  show execPigeonholeRetire c ph false n s = _
  simp only [execPigeonholeRetire, hbelow]
  simp [hc, hph]

theorem exec_pigeonholeRemap (hc : c < 68) (hrun : (s.core c).run = none)
    (hst : (s.core c).state = .drained ∨ (s.core c).state = .idle ∨ (s.core c).state = .draining)
    (hnew : remapAll (s.regN .acm c Reg.acm_acmMap) (s.core c).retired ≠ s.regN .acm c Reg.acm_acmMap) :
    ∃ t, exec (.pigeonholeRemap c) s = .next t ∧ OtherCores c s t ∧
      t.reg (regAddr .acm c Reg.acm_acmMap) =
        BitVec.ofNat 32 (remapAll (s.regN .acm c Reg.acm_acmMap) (s.core c).retired) ∧
      OtherRegs [regAddr .acm c Reg.acm_acmMap, regAddr .acm c Reg.intStat] s t ∧ IntRaised .acm c 0x100 s t := by
  obtain ⟨w, hw⟩ : ∃ w, w = BitVec.ofNat 32 (remapAll (s.regN .acm c Reg.acm_acmMap) (s.core c).retired) := ⟨_, rfl⟩
  rw [← hw]
  have hflag : (s.setReg (regAddr .acm c Reg.acm_acmMap) w).regs = (s.setReg (regAddr .acm c Reg.acm_acmMap) w).regs := rfl
  have hput := s.otherRegs_setReg (regAddr .acm c Reg.acm_acmMap) w
  have hstat := State.otherRegs_intStat_changed .acm c hflag
  refine ⟨((s.setReg (regAddr .acm c Reg.acm_acmMap) w).changed .acm c).modCore c (fun k => { k with
      state := if (((s.setReg (regAddr .acm c Reg.acm_acmMap) w).changed .acm c).logical c).isSome then .idle else .drained }),
    ?_, OtherCores.modCore (.of_cores rfl) _, ?_, ?_, ?_⟩
  · show execPigeonholeRemap c s = _
    simp [execPigeonholeRemap, hc, hrun, hst, hnew, hw]
  · exact (hstat _ (by simp)).trans (s.reg_setReg_same _ _)
  · exact (hput.mono (by simp)).trans (hstat.mono (by simp))
  · exact (State.intRaised_changed .acm c hflag).trans (by rw [s.reg_setReg_ne _ (by simp)])

end Pigeonholes

/-- Settles O15: a write of each register by the words it leaves, an error by what it poisons and what retires it. -/
theorem coreMapsAndPigeonholesAreRemapped : Obligations.CoreMapsAndPigeonholesAreRemapped := by
  refine ⟨fun s c v hc hst => ⟨_, exec_acmMapWrite_drained hc hst, State.reg_storeReg_acmMap,
      State.otherRegs_storeReg_of_unflagged (by decide) (storeFlagged_acmMapRow _ v)⟩,
    fun s c v hc hst => ⟨_, exec_acmMapWrite_refused hc hst, s.refuseWrite_keeps .acm c (by decide)⟩,
    fun s c v hc hst hv => ⟨_, exec_stateWindowWrite_drained hc hst hv, s.reg_setReg_same _ v,
      s.otherRegs_setReg _ v, State.windowCore_dropWindows⟩,
    fun s c v hc hbad => ?window,
    fun s n v hn hok => ⟨_, exec_coreMapWrite_taken hn hok, ?_, ?_⟩,
    fun s n k v hn hk hbad => ⟨_, exec_coreMapWrite_refused hn hk hbad, s.refuseWrite_keeps .hub 0 (by simp only [Reg.hub_coreMap]; omega)⟩,
    fun s c n v p g hc hv hp hg hbox hn => ⟨_, exec_handleSelWrite hc hv hp hg hbox, State.reg_loadHandle_handleSel _,
      State.bit_handleStatus_loadHandle _, State.reg_loadHandle_handleData _ hn⟩,
    fun s c hc hlen => exec_flush hc hlen,
    fun s c ph hc hlen hph hret => exec_pigeonholeRetire_uncorrectable hc hlen hph hret,
    fun s c ph n hc hlen hph _ hn hlim => exec_pigeonholeRetire_corrected hc hlen hph hn hlim,
    fun s c hc _ hrun hst hnew => exec_pigeonholeRemap hc hrun hst hnew⟩
  case window =>
    obtain ⟨u, hu, hreg, hplaces⟩ := exec_stateWindowWrite_refused hc hbad
    obtain ⟨hkeep, herr⟩ := u.refuseWrite_keeps .state c (o := Reg.state_stateWindow) (by decide)
    exact ⟨_, hu, hkeep.trans hreg, ((u.frame_flag ..).places (by decide)).trans hplaces, herr⟩
  · exact (State.reg_setReg_ne _ _ (coreMap_ne_intStat n)).trans (s.reg_setReg_same _ v)
  · exact (State.intRaised_changed .hub 0 rfl).trans (by rw [s.reg_setReg_ne _ (coreMap_ne_intStat n).symm])

end Sys2Proof.Machine
end

section
/-! Stamps of the franking arbiter and the ramp of the MXE (R46, R47, R403, R405). -/

namespace Sys2Proof.Machine

-- one theorem after the other: proofs that wait together take too many threads
set_option Elab.async false

/-! ### Requests and grants (R403) -/

section Grants
variable {s : State} {g : Grant}

theorem State.giveGrant_pwr (s : State) (g : Grant) :
    (s.giveGrant g).pwr = { s.pwr with grants := g :: s.pwr.grants } := by
  rw [State.giveGrant]
  exact ((State.peak_leads .refl (List.Subset.refl _)).frame.pwr (by decide)).trans (State.bump_pwr ..)

/-- A grant counts once, and may raise the peak of the stamps granted. -/
theorem State.giveGrant_counters (s : State) (g : Grant) :
    (s.giveGrant g).live .frank 0 0 = s.counted .frank 0 0 1 ∧
      OtherCounters [ctrKey .frank 0 0, ctrKey .frank 0 4] s (s.giveGrant g) := by
  refine ⟨?_, .peak (.bump (.of_ctr rfl) (by simp) 1) (by simp) _⟩
  have hpeak : OtherCounters [ctrKey .frank 0 4] _ (s.giveGrant g) := .peak (.refl _ _) (by simp) _
  exact (hpeak.live (by simp)).trans (State.live_bump _ .frank 0 0 1)

/-- The request `g` at the end of the queue, counted as a wait. -/
def State.queueGrant (s : State) (g : Grant) : State :=
  (s.setPwr (fun p => { p with queue := p.queue ++ [g] })).bump .frank 0 1 1

theorem State.queueGrant_pwr (s : State) (g : Grant) :
    (s.queueGrant g).pwr = { s.pwr with queue := s.pwr.queue ++ [g] } := State.bump_pwr ..

theorem State.queueGrant_counters (s : State) (g : Grant) :
    (s.queueGrant g).live .frank 0 1 = s.counted .frank 0 1 1 ∧
      OtherCounters [ctrKey .frank 0 1] s (s.queueGrant g) :=
  ⟨State.live_bump (s.setPwr _) .frank 0 1 1, .bump (.of_ctr rfl) (by simp) 1⟩

end Grants

section Requests
variable {s : State} {c m n : Nat} (hc : c < 68) (hm : m < 4) (hf : (s.core c).state ≠ .fenced)
  (hr : (s.core c).state ≠ .reset)
include hc hm hf hr

theorem exec_grantRequest_eq : exec (.grantRequest c m) s = .next (s.requestGrant c m) := by
  show execGrantRequest c m s = _
  simp [execGrantRequest, hc, hm, hf, hr]

variable (hn : n = s.cost m - s.pwr.heldBy c)
include hn

theorem exec_grantRequest_none (h0 : n = 0) : exec (.grantRequest c m) s = .next s := by
  have hneed : s.cost m - s.pwr.heldBy c = 0 := hn.symm.trans h0
  rw [exec_grantRequest_eq hc hm hf hr, State.requestGrant]
  simp [hneed]

theorem exec_grantRequest_granted (hpos : 0 < n) (hq : s.pwr.queue = [])
    (hfits : s.base + s.pwr.granted + n ≤ s.pwr.effective) :
    exec (.grantRequest c m) s = .next (s.giveGrant { core := c, stamps := n, slice := decide (m = 3) }) := by
  rw [exec_grantRequest_eq hc hm hf hr, State.requestGrant, ← hn]
  simp [hpos.ne', hq, State.fits, hfits]

theorem exec_grantRequest_queued (hpos : 0 < n) (hown : ∀ g ∈ s.pwr.queue, g.core ≠ c)
    (hwait : s.pwr.queue ≠ [] ∨ s.pwr.effective < s.base + s.pwr.granted + n) :
    exec (.grantRequest c m) s = .next (s.queueGrant { core := c, stamps := n, slice := decide (m = 3) }) := by
  have hnone : s.pwr.queue.any (fun g => g.core == c) = false := by simpa using hown
  have hlater : ¬(s.pwr.queue.isEmpty ∧ s.fits n) := by
    rintro ⟨hempty, hfits⟩
    have hfits : s.base + s.pwr.granted + n ≤ s.pwr.effective := by simpa [State.fits] using hfits
    rcases hwait with h | h
    · exact h (by simpa using hempty)
    · omega
  rw [exec_grantRequest_eq hc hm hf hr, State.requestGrant, ← hn]
  simp only [hpos.ne', hnone, hlater, false_or, Bool.false_eq_true, if_false]
  rfl

end Requests

section Queued
variable {s : State} {g : Grant} {q : List Grant} (hq : s.pwr.queue = g :: q)
include hq

theorem exec_queuedGrant_fits (hfits : s.base + s.pwr.granted + g.stamps ≤ s.pwr.effective) :
    exec .queuedGrant s = .next ((s.setPwr (fun p => { p with queue := q })).giveGrant g) := by
  show execQueuedGrant s = _
  simp [execQueuedGrant, hq, State.fits, hfits]

theorem exec_queuedGrant_waits (hfull : s.pwr.effective < s.base + s.pwr.granted + g.stamps) :
    exec .queuedGrant s = .next s := by
  show execQueuedGrant s = _
  simp [execQueuedGrant, hq, State.fits, Nat.not_le.mpr hfull]

end Queued

/-! ### Revocation (R405) -/

/-- Stamps of the grants of a list that are not revoked. -/
def standingOf (l : List Grant) : Nat := ((l.filter (fun g => !g.revoked)).map (·.stamps)).sum

theorem standingOf_cons (g : Grant) (l : List Grant) :
    standingOf (g :: l) = (if g.revoked then 0 else g.stamps) + standingOf l := by
  cases h : g.revoked <;> simp [standingOf, h]

/-- The three ways of a grant through a revocation: none is needed, it stays marked as it was, or it is marked. -/
theorem revokeList_cons (e : Nat) (g : Grant) (l : List Grant) :
    (e = 0 ∧ revokeList e (g :: l) = g :: l) ∨
      ((g.slice = true ∨ g.revoked = true) ∧ revokeList e (g :: l) = g :: revokeList e l) ∨
      (g.slice = false ∧ g.revoked = false ∧
        revokeList e (g :: l) = { g with revoked := true } :: revokeList (e - g.stamps) l) := by
  by_cases he : e = 0
  · exact .inl ⟨he, by simp [revokeList, he]⟩
  · by_cases hg : g.slice ∨ g.revoked
    · exact .inr (.inl ⟨hg, by simp [revokeList, he, hg]⟩)
    · obtain ⟨hs, hr⟩ := not_or.mp hg
      exact .inr (.inr ⟨by simpa using hs, by simpa using hr, by simp [revokeList, he, hs, hr]⟩)

theorem revokeList_zero (l : List Grant) : revokeList 0 l = l := by cases l <;> rfl

/-- The marks free the excess, or every grant that can be marked is. -/
theorem standingOf_revokeList (e : Nat) (l : List Grant) :
    standingOf (revokeList e l) + e ≤ standingOf l ∨ ∀ g ∈ revokeList e l, g.slice = true ∨ g.revoked = true := by
  induction l generalizing e with
  | nil => exact .inr fun _ h => by cases h
  | cons g l ih =>
    rcases revokeList_cons e g l with ⟨rfl, h⟩ | ⟨hg, h⟩ | ⟨-, hr, h⟩ <;> rw [h]
    · exact .inl le_rfl
    · refine (ih e).imp (fun hle => ?_) fun hall => List.forall_mem_cons.mpr ⟨hg, hall⟩
      simp only [standingOf_cons]
      omega
    · refine (ih (e - g.stamps)).imp (fun hle => ?_) fun hall => List.forall_mem_cons.mpr ⟨.inr rfl, hall⟩
      simp only [standingOf_cons, hr]
      simp only [if_true, Bool.false_eq_true, if_false]
      omega

/-- The marks never add to what stands. -/
theorem standingOf_revokeList_le (e : Nat) (l : List Grant) : standingOf (revokeList e l) ≤ standingOf l := by
  induction l generalizing e with
  | nil => exact le_rfl
  | cons g l ih =>
    rcases revokeList_cons e g l with ⟨-, h⟩ | ⟨-, h⟩ | ⟨-, hr, h⟩ <;> rw [h]
    · simpa [standingOf_cons] using ih e
    · have := ih (e - g.stamps)
      simp only [standingOf_cons, if_true]
      omega

/-- What a revocation leaves of a grant. -/
def Grant.terms (g : Grant) : Nat × Nat × Bool := (g.core, g.stamps, g.slice)

theorem revokeList_terms (e : Nat) (l : List Grant) : (revokeList e l).map Grant.terms = l.map Grant.terms := by
  induction l generalizing e with
  | nil => rfl
  | cons g l ih =>
    rcases revokeList_cons e g l with ⟨-, h⟩ | ⟨-, h⟩ | ⟨-, -, h⟩ <;> rw [h]
    · rw [List.map_cons, ih, List.map_cons]
    · rw [List.map_cons, ih, List.map_cons]
      rfl

theorem mem_revokeList_of_slice {e : Nat} {l : List Grant} {g : Grant} (hg : g ∈ l) (hs : g.slice = true) :
    g ∈ revokeList e l := by
  induction l generalizing e with
  | nil => cases hg
  | cons a l ih =>
    rcases revokeList_cons e a l with ⟨-, h⟩ | ⟨-, h⟩ | ⟨ha, -, h⟩ <;> rw [h]
    · exact hg
    · rcases List.mem_cons.mp hg with rfl | hg
      · exact List.mem_cons_self
      · exact List.mem_cons_of_mem _ (ih hg)
    · rcases List.mem_cons.mp hg with rfl | hg
      · exact absurd (hs.symm.trans ha) (by decide)
      · exact List.mem_cons_of_mem _ (ih hg)

/-- The cores of the grants that are marked in the second list and not in the first. -/
def newlyRevoked (l r : List Grant) : List Nat :=
  (List.zipWith (fun (a b : Grant) => if !a.revoked && b.revoked then some b.core else none) l r).filterMap id

theorem newlyRevoked_self (l : List Grant) : newlyRevoked l l = [] := by simp [newlyRevoked]

/-- A core ramps down, unless it is OFF. -/
def Core.forceDown (k : Core) : Core := if k.ramp = .off then k else { k with ramp := .down, rampForced := true }

/-- The core's ramp is `r` as before, or it was told to go down. -/
def Core.RampCut (r : Ramp) (k : Core) : Prop := k.ramp = r ∨ k.ramp = .down ∧ k.rampForced = true

theorem Core.RampCut.forceDown {r : Ramp} {k : Core} (h : k.RampCut r) : k.forceDown.RampCut r := by
  unfold Core.forceDown
  split
  · exact h
  · exact .inr ⟨rfl, rfl⟩

/-- The cores of a list ramp down. -/
def State.forceDown (s : State) (l : List Nat) : State := l.foldl (fun s c => s.modCore c Core.forceDown) s

section Revoke
variable {s : State}

theorem State.revoke_eq (s : State) : s.revoke =
    ((s.setPwr (fun p => { p with grants := revokeList (s.base + s.pwr.standing - s.pwr.effective) p.grants })).forceDown
      (newlyRevoked s.pwr.grants (revokeList (s.base + s.pwr.standing - s.pwr.effective) s.pwr.grants))).bump .frank 0 3
      (newlyRevoked s.pwr.grants (revokeList (s.base + s.pwr.standing - s.pwr.effective) s.pwr.grants)).length := rfl

theorem State.forceDown_frame (s : State) (l : List Nat) : (s.forceDown l).pwr = s.pwr ∧ (s.forceDown l).ctr = s.ctr := by
  induction l generalizing s with
  | nil => exact ⟨rfl, rfl⟩
  | cons c l ih => exact ih (s.modCore c Core.forceDown)

theorem State.rampCut_forceDown {r : Ramp} {c : Nat} (l : List Nat) (h : (s.core c).RampCut r) :
    ((s.forceDown l).core c).RampCut r := by
  induction l generalizing s with
  | nil => exact h
  | cons d l ih =>
    refine ih (s := s.modCore d Core.forceDown) ?_
    rw [State.core_modCore]
    split
    · exact h.forceDown
    · exact h

theorem State.revoke_pwr : s.revoke.pwr =
    { s.pwr with grants := revokeList (s.base + s.pwr.standing - s.pwr.effective) s.pwr.grants } := by
  rw [State.revoke_eq, State.bump_pwr, (State.forceDown_frame _ _).1]
  rfl

theorem State.revoke_cores : s.revoke.cores = ((s.setPwr (fun p => { p with
      grants := revokeList (s.base + s.pwr.standing - s.pwr.effective) p.grants })).forceDown
      (newlyRevoked s.pwr.grants (revokeList (s.base + s.pwr.standing - s.pwr.effective) s.pwr.grants))).cores := by
  rw [State.revoke_eq, State.bump_cores]

theorem State.revoke_fits : s.base + s.revoke.pwr.standing ≤ s.revoke.pwr.effective ∨
    ∀ g ∈ s.revoke.pwr.grants, g.slice = true ∨ g.revoked = true := by
  have heff : s.revoke.pwr.effective = s.pwr.effective := by rw [State.revoke_pwr]; rfl
  have hstand : s.revoke.pwr.standing =
      standingOf (revokeList (s.base + s.pwr.standing - s.pwr.effective) s.pwr.grants) := by rw [State.revoke_pwr]; rfl
  have hold : s.pwr.standing = standingOf s.pwr.grants := rfl
  rw [heff, hstand, State.revoke_pwr]
  refine (standingOf_revokeList _ s.pwr.grants).imp_left fun hle => ?_
  omega

/-- Where the grants that stand fit already, none is marked and no core ramps down. -/
theorem State.revoke_idle (h : s.base + s.pwr.standing ≤ s.pwr.effective) : s.revoke.pwr = s.pwr ∧ s.revoke.cores = s.cores := by
  rw [State.revoke_pwr, State.revoke_cores, Nat.sub_eq_zero_of_le h, revokeList_zero, newlyRevoked_self]
  exact ⟨rfl, rfl⟩

theorem State.revoke_otherCounters : OtherCounters [ctrKey .frank 0 3] s s.revoke := by
  rw [State.revoke_eq]
  exact .bump (.of_ctr (State.forceDown_frame _ _).2) (by simp) _

end Revoke

/-! ### The ramp (R46, R47) -/

section Ramp
variable {s : State} {c n : Nat} (hc : c < 68) (hlen : c < s.cores.length)
include hc hlen

theorem exec_mxeRampUp (hn : (s.core c).groups < n) (hn8 : n ≤ 8) (hramp : (s.core c).ramp = .off ∨ (s.core c).ramp = .up)
    (hheld : 0 < s.pwr.heldBy c) (hst : (s.core c).state = .running ∨ (s.core c).state = .draining) :
    ∃ t, exec (.mxeRampUp c n) s = .next t ∧
      t.core c = { s.core c with ramp := if n = 8 then .full else .up, groups := n } ∧ OtherCores c s t ∧
      t.live .mxe c 5 = (if (s.core c).ramp = .off then s.counted .mxe c 5 1 else s.live .mxe c 5) ∧
      OtherCounters [ctrKey .mxe c 5] s t := by
  obtain ⟨u, hu⟩ : ∃ u, u = s.modCore c (fun k => { k with ramp := if n = 8 then .full else .up, groups := n }) := ⟨_, rfl⟩
  have hcore : u.core c = { s.core c with ramp := if n = 8 then .full else .up, groups := n } :=
    hu ▸ State.core_modCore_same hlen _
  have hother : OtherCores c s u := hu ▸ OtherCores.modCore (.refl c s) _
  have hctr : u.ctr = s.ctr ∧ u.regs = s.regs := hu ▸ ⟨rfl, rfl⟩
  have hgo : exec (.mxeRampUp c n) s = .next (u.when (decide ((s.core c).ramp = .off)) (u.bump .mxe c 5 1)) := by
    have hn1 : 1 ≤ n := by omega
    show execMxeRampUp c n s = _
    simp only [execMxeRampUp, hc, hn1, hn8, hn, hramp, hheld, hst, and_self, decide_true, State.when_true, hu]
  refine ⟨_, hgo, ?_⟩
  by_cases hoff : (s.core c).ramp = .off
  · have hbump : OtherCounters [ctrKey .mxe c 5] s (u.bump .mxe c 5 1) := .bump (.of_ctr hctr.1) (by simp) 1
    have hcores : (u.bump .mxe c 5 1).cores = u.cores := u.bump_cores ..
    simp only [hoff, decide_true, State.when_true, if_true]
    refine ⟨(State.core_of_cores hcores c).trans hcore, hother.trans (.of_cores hcores), ?_, hbump⟩
    exact (u.live_bump ..).trans (State.counted_eq (State.frozen_of_regs hctr.2 ..) (State.live_of_ctr hctr.1 ..) 1)
  · simp only [hoff, decide_false, State.when_false, if_false]
    exact ⟨hcore, hother, State.live_of_ctr hctr.1 .., .of_ctr hctr.1⟩

theorem exec_mxeRampDown (hn : n < (s.core c).groups)
    (hramp : (s.core c).ramp = .down ∨ ((s.core c).ramp = .full ∧ ∀ o ∈ (s.core c).mxeQ, o.isMul = false)) :
    ∃ t, exec (.mxeRampDown c n) s = .next t ∧ t.core c = { s.core c with ramp := .down, groups := n } ∧
      OtherCores c s t := by
  have hramp : (s.core c).ramp = .down ∨ ((s.core c).ramp = .full ∧ (s.core c).mxeQ.any MxeOp.isMul = false) := by
    simpa using hramp
  refine ⟨_, ?_, State.core_modCore_same hlen fun k => { k with ramp := .down, groups := n },
    OtherCores.modCore (.refl c s) _⟩
  show execMxeRampDown c n s = _
  simp only [execMxeRampDown, hc, hn, hramp, and_self, decide_true, State.when_true]

theorem exec_mxeRampReverse (hramp : (s.core c).ramp = .down) (hforced : (s.core c).rampForced = false)
    (hmul : ∃ o ∈ (s.core c).mxeQ, o.isMul = true) :
    ∃ t, exec (.mxeRampReverse c) s = .next t ∧
      t.core c = { s.core c with ramp := if (s.core c).groups = 8 then .full else .up } ∧ OtherCores c s t := by
  have hmul : (s.core c).mxeQ.any MxeOp.isMul = true := List.any_eq_true.mpr hmul
  refine ⟨_, ?_, State.core_modCore_same hlen fun k => { k with ramp := if k.groups = 8 then .full else .up },
    OtherCores.modCore (.refl c s) _⟩
  show execMxeRampReverse c s = _
  simp only [execMxeRampReverse, hc, hramp, hforced, hmul, and_self, decide_true, State.when_true]

/-- The core at OFF with its stamps back. -/
def State.rampOff (s : State) (c : Nat) : State :=
  (s.modCore c (fun k => { k with ramp := .off, rampForced := false })).setPwr
    (fun p => { p with grants := p.grants.filter (fun g => g.core != c) })

theorem exec_mxeRampOff (hramp : (s.core c).ramp = .down) (hgroups : (s.core c).groups = 0) :
    ∃ t, exec (.mxeRampOff c) s = .next t ∧
      t.core c = { s.core c with ramp := .off, rampForced := false } ∧ OtherCores c s t ∧
      t.pwr.grants = s.pwr.grants.filter (fun g => g.core != c) ∧ t.pwr.heldBy c = 0 ∧
      ((∀ g ∈ s.pwr.grants, g.core = c → g.revoked = false) → t.pwr.queue = s.pwr.queue) ∧
      ((∃ g ∈ s.pwr.grants, g.core = c ∧ g.revoked = true) → (s.core c).run.isSome →
        t.pwr.queue = s.pwr.queue ++ [{ core := c, stamps := s.pwr.heldBy c }]) := by
  obtain ⟨again, hagain⟩ : ∃ b, b = s.pwr.grants.any (fun g => g.core == c && g.revoked) := ⟨_, rfl⟩
  have hgo : exec (.mxeRampOff c) s = .next ((s.rampOff c).when (again && (s.core c).run.isSome)
      ((s.rampOff c).queueGrant { core := c, stamps := s.pwr.heldBy c })) := by
    show execMxeRampOff c s = _
    simp only [execMxeRampOff, hc, hramp, hgroups, and_self, decide_true, State.when_true, hagain]
    rfl
  have hcore : (s.rampOff c).core c = { s.core c with ramp := .off, rampForced := false } :=
    State.core_modCore_same hlen _
  have hother : OtherCores c s (s.rampOff c) := OtherCores.modCore (.refl c s) _
  have hnone : (s.rampOff c).pwr.heldBy c = 0 := by
    have hempty : (s.pwr.grants.filter (fun g => g.core != c)).filter (fun g => g.core == c) = [] := by
      simp [List.filter_filter]
    show ((_ : List Grant).map Grant.stamps).sum = 0
    exact hempty ▸ rfl
  refine ⟨_, hgo, ?_⟩
  cases hb : again && (s.core c).run.isSome
  · refine ⟨hcore, hother, rfl, hnone, fun _ => rfl, fun ⟨g, hg, hgc, hrev⟩ hrun => ?_⟩
    have hsome : again = true := hagain.trans (List.any_eq_true.mpr ⟨g, hg, by simp [hgc, hrev]⟩)
    rw [hsome, hrun] at hb
    cases hb
  · have hpwr := (s.rampOff c).queueGrant_pwr { core := c, stamps := s.pwr.heldBy c }
    have hcores : ((s.rampOff c).queueGrant { core := c, stamps := s.pwr.heldBy c }).cores = (s.rampOff c).cores :=
      State.bump_cores ..
    rw [State.when_true, hpwr]
    refine ⟨(State.core_of_cores hcores c).trans hcore, hother.trans (.of_cores hcores), rfl, hnone, fun hall => ?_,
      fun _ _ => rfl⟩
    obtain ⟨g, hg, h⟩ := List.any_eq_true.mp (hagain.symm.trans (Bool.and_eq_true_iff.mp hb).1)
    obtain ⟨hgc, hrev⟩ := Bool.and_eq_true_iff.mp h
    exact absurd ((hall g hg (by simpa using hgc)).symm.trans hrev) (by decide)

end Ramp

/-- Settles O8: each request by whether it fits, a revocation by `revokeList`, the ramp by the core that it changes. -/
theorem stampsAreGrantedRevokedAndRamped : Obligations.StampsAreGrantedRevokedAndRamped := by
  refine ⟨fun s c m n hc hm hf hr hn => ⟨exec_grantRequest_none hc hm hf hr hn,
      fun hpos hq hfits => ⟨_, exec_grantRequest_granted hc hm hf hr hn hpos hq hfits, s.giveGrant_pwr _,
        s.giveGrant_counters _⟩,
      fun hpos hown hwait => ⟨_, exec_grantRequest_queued hc hm hf hr hn hpos hown hwait, s.queueGrant_pwr _,
        s.queueGrant_counters _⟩⟩,
    fun s g q hq => ⟨fun hfits => ⟨_, exec_queuedGrant_fits hq hfits, State.giveGrant_pwr .., State.giveGrant_counters ..⟩,
      exec_queuedGrant_waits hq⟩,
    fun s => ⟨s.revoke, rfl, State.revoke_fits, ?terms, ?rest, fun g hg hs => ?slices, State.revoke_idle, fun c => ?ramps,
      State.revoke_otherCounters⟩,
    fun s c n hc hlen hn hn8 hramp hheld hst => exec_mxeRampUp hc hlen hn hn8 hramp hheld hst,
    fun s c n hc hlen hn hramp => exec_mxeRampDown hc hlen hn hramp,
    fun s c hc hlen hramp hforced hmul => exec_mxeRampReverse hc hlen hramp hforced hmul,
    fun s c hc hlen hramp hgroups => exec_mxeRampOff hc hlen hramp hgroups⟩
  case terms =>
    rw [State.revoke_pwr]
    exact revokeList_terms _ _
  case rest => rw [State.revoke_pwr]
  case slices =>
    rw [State.revoke_pwr]
    exact mem_revokeList_of_slice hg hs
  case ramps =>
    rw [State.core_of_cores State.revoke_cores]
    exact State.rampCut_forceDown _ (.inl rfl)

end Sys2Proof.Machine
end

section
/-! One clerk of one core (R60, R61, R74): who executes an instruction, what an update of a clerk leaves, and what the
engines' results put back. -/

namespace Sys2Proof.Machine

-- one theorem after the other: proofs that wait together take too many threads
set_option Elab.async false

/-! ### Who executes -/

section Fetching
variable {s : State} {c n : Nat} {o : ClerkOp}

/-- Clerk `n` of core `c` executes for `i`, what the core runs. -/
structure State.Executes (s : State) (c n : Nat) (i : Inst) : Prop where
  run : (s.core c).run = some i
  core : c < s.cores.length
  clerk : n < (s.core c).clerks.length

theorem State.lt_cores_of_run {i : Inst} (h : (s.core c).run = some i) : c < s.cores.length := by
  by_contra hc
  rw [State.core, List.getD_eq_default _ _ (not_lt.mp hc)] at h
  cases h

theorem State.executes_of_fetchFor {w : Fetch} (h : s.fetchFor c n = some w) : ∃ i, s.Executes c n i := by
  unfold State.fetchFor at h
  extract_lets k at h
  split at h
  · rename_i i q hrun hq
    obtain ⟨hn, -⟩ := List.getElem?_eq_some_iff.mp hq
    exact ⟨i, hrun, State.lt_cores_of_run hrun, hn⟩
  · cases h

theorem State.fetchFor_of_clerkOp (h : s.clerkOp c n = some o) : s.fetchFor c n = some (.op o) := by
  unfold State.clerkOp at h
  split at h
  · rename_i hf
    rw [hf, Option.some.inj h]
  · cases h

theorem State.executes_of_clerkOp (h : s.clerkOp c n = some o) : ∃ i, s.Executes c n i :=
  State.executes_of_fetchFor (State.fetchFor_of_clerkOp h)

end Fetching

/-! ### A clerk changed -/

section Clerks
variable {s t u : State} {c n m : Nat} {f : Clerk → Clerk}

theorem State.clerk_of_core {k : Core} (h : t.core c = k) : t.clerk c n = k.clerks.getD n {} := by
  rw [State.clerk, h]

theorem State.core_modClerk (hc : c < s.cores.length) (n : Nat) (f : Clerk → Clerk) :
    (s.modClerk c n f).core c = { s.core c with clerks := listModify f (s.core c).clerks n } :=
  State.core_modCore_same hc _

theorem listModify_getD_same {α : Type} {f : α → α} {l : List α} {i : Nat} (hi : i < l.length) (d : α) :
    (listModify f l i).getD i d = f (l.getD i d) := (listModify_getD f l i i d).trans (if_pos ⟨rfl, hi⟩)

theorem listModify_getD_ne {α : Type} {f : α → α} {l : List α} {i j : Nat} (hj : j ≠ i) (d : α) :
    (listModify f l i).getD j d = l.getD j d := (listModify_getD f l i j d).trans (if_neg fun e => hj e.1.symm)

theorem State.clerk_modClerk_same (hc : c < s.cores.length) (hn : n < (s.core c).clerks.length) (f : Clerk → Clerk) :
    (s.modClerk c n f).clerk c n = f (s.clerk c n) :=
  (State.clerk_of_core (State.core_modClerk hc n f)).trans (listModify_getD_same hn _)

theorem State.clerk_modClerk_ne (hm : m ≠ n) (f : Clerk → Clerk) : (s.modClerk c n f).clerk c m = s.clerk c m := by
  by_cases hc : c < s.cores.length
  · exact (State.clerk_of_core (State.core_modClerk hc n f)).trans (listModify_getD_ne hm _)
  · have hcore : (s.modClerk c n f).core c = s.core c := (s.core_modCore c c _).trans (if_neg fun e => hc e.2)
    rw [State.clerk, State.clerk, hcore]

theorem OtherClerks.of_core (hc : t.core c = s.core c) (h : OtherCores c s t) : OtherClerks c n s t :=
  ⟨h, fun m _ => by rw [State.clerk, State.clerk, hc], by rw [hc]⟩

theorem OtherClerks.refl (c n : Nat) (s : State) : OtherClerks c n s s := .of_core rfl (.refl c s)

theorem OtherClerks.of_cores (h : t.cores = s.cores) : OtherClerks c n s t :=
  .of_core (State.core_of_cores h c) (.of_cores h)

theorem OtherClerks.trans (h : OtherClerks c n s t) (k : OtherClerks c n t u) : OtherClerks c n s u :=
  ⟨h.1.trans k.1, fun m hm => (k.2.1 m hm).trans (h.2.1 m hm), k.2.2.trans h.2.2⟩

theorem OtherClerks.modClerk (h : OtherClerks c n s t) (f : Clerk → Clerk) : OtherClerks c n s (t.modClerk c n f) := by
  refine h.trans ⟨OtherCores.modCore (.refl c t) _, fun m hm => State.clerk_modClerk_ne hm f, ?_⟩
  by_cases hc : c < t.cores.length
  · rw [State.core_modClerk hc]
  · have hcore : (t.modClerk c n f).core c = t.core c := (t.core_modCore c c _).trans (if_neg fun e => hc e.2)
    rw [hcore]

@[simp] theorem State.retire_cores (s : State) (c n len : Nat) :
    (s.retire c n len).cores = (s.modClerk c n (fun q => { (q.advance len) with state := .running })).cores :=
  State.bump_cores ..

theorem OtherClerks.retire (h : OtherClerks c n s t) (len : Nat) : OtherClerks c n s (t.retire c n len) :=
  (h.modClerk _).trans (.of_cores (t.retire_cores c n len))

theorem State.clerk_retire_same (hc : c < s.cores.length) (hn : n < (s.core c).clerks.length) (len : Nat) :
    (s.retire c n len).clerk c n = { (s.clerk c n).advance len with state := .running } :=
  (State.clerk_of_core (State.core_of_cores (s.retire_cores c n len) c)).trans (State.clerk_modClerk_same hc hn _)

theorem State.core_retire (hc : c < s.cores.length) (n len : Nat) : (s.retire c n len).core c =
    { s.core c with clerks := listModify (fun q => { (q.advance len) with state := .running }) (s.core c).clerks n } :=
  (State.core_of_cores (s.retire_cores c n len) c).trans (State.core_modClerk hc n _)

/-- An instruction that goes on counts once, where nothing before it has counted. -/
theorem State.retired_retire (hctr : t.ctr = s.ctr) (hregs : t.regs = s.regs) (c n len : Nat) :
    Retired c n s (t.retire c n len) := by
  refine ⟨(State.live_bump ..).trans ?_,
    OtherCounters.bump (t := t.modClerk c n _) (.of_ctr hctr) (List.mem_singleton.mpr rfl) 1⟩
  exact State.counted_eq (State.frozen_of_regs hregs ..) (State.live_of_ctr hctr ..) 1

/-- A clerk's instruction that changes only its clerk, by `f`, and goes on. -/
theorem State.Executes.modClerk_retire {i : Inst} (h : s.Executes c n i) (f : Clerk → Clerk) (len : Nat) :
    OtherClerks c n s ((s.modClerk c n f).retire c n len) ∧ Retired c n s ((s.modClerk c n f).retire c n len) ∧
      ((s.modClerk c n f).retire c n len).clerk c n = { (f (s.clerk c n)).advance len with state := .running } := by
  obtain ⟨-, hc, hn⟩ := h
  have hc' : c < (s.modClerk c n f).cores.length := by simpa [State.modClerk] using hc
  have hn' : n < ((s.modClerk c n f).core c).clerks.length := by
    rw [State.core_modClerk hc]
    simpa using hn
  refine ⟨.retire (.modClerk (.refl c n s) f) len, State.retired_retire rfl rfl c n len, ?_⟩
  rw [State.clerk_retire_same hc' hn', State.clerk_modClerk_same hc hn]

end Clerks

/-! ### What the engines put back -/

section Exec
variable {s : State} {c : Nat} {x : Exec}

@[simp] theorem State.execOf_core (s : State) (c : Nat) : (s.execOf c).core = s.core c := by
  unfold State.execOf
  dsimp only
  split
  · rfl
  · split <;> rfl

@[simp] theorem State.execOf_poisoned (s : State) (c : Nat) : (s.execOf c).poisoned = false := by
  unfold State.execOf
  dsimp only
  split
  · rfl
  · split <;> rfl

@[simp] theorem State.execOf_bumps (s : State) (c : Nat) : (s.execOf c).bumps = [] := by
  unfold State.execOf
  dsimp only
  split
  · rfl
  · split <;> rfl

/-- The core as the engines put it back: their core, its run marked where they read poison (R369). -/
def Exec.putCore (x : Exec) : Core :=
  { x.core with run := x.core.run.map (fun i =>
      if x.poisoned && i.poison.isNone then { i with poison := some 0 } else i) }

theorem Exec.putCore_of_clean (h : x.poisoned = false) : x.putCore = x.core := by
  unfold Exec.putCore
  simp [h]

/-- The counters that an engine has advanced on core `c`. -/
def State.bumpAll (s : State) (c : Nat) (l : List (Pg × Nat × Nat)) : State :=
  l.foldl (fun s b => s.bump b.1 c b.2.1 b.2.2) s

@[simp] theorem State.bumpAll_cores (s : State) (c : Nat) (l : List (Pg × Nat × Nat)) :
    (s.bumpAll c l).cores = s.cores := by
  induction l generalizing s with
  | nil => rfl
  | cons b l ih => exact (ih (s.bump b.1 c b.2.1 b.2.2)).trans (s.bump_cores ..)

/-- The state before the counters: the core set, and the stream's window and generator where there is one. -/
theorem State.putExec_eq (s : State) (c : Nat) (x : Exec) : ∃ u : State, s.putExec c x = u.bumpAll c x.bumps ∧
    u.cores = s.cores.set c x.putCore ∧ u.ctr = s.ctr ∧ u.regs = s.regs := by
  unfold State.putExec
  extract_lets _ core u t
  refine ⟨t, rfl, ?_⟩
  unfold t
  split
  · split <;> exact ⟨rfl, rfl, rfl⟩
  · exact ⟨rfl, rfl, rfl⟩

theorem State.putExec_cores (s : State) (c : Nat) (x : Exec) : (s.putExec c x).cores = s.cores.set c x.putCore := by
  obtain ⟨u, hu, hcores, -⟩ := s.putExec_eq c x
  rw [hu, State.bumpAll_cores, hcores]

theorem State.core_putExec (hc : c < s.cores.length) (x : Exec) : (s.putExec c x).core c = x.putCore :=
  (State.core_of_cores (s.putExec_cores c x) c).trans (State.core_setCore_same hc _)

theorem OtherCores.putExec {t : State} (h : OtherCores c s t) (x : Exec) : OtherCores c s (t.putExec c x) :=
  (OtherCores.setCore h x.putCore).trans (.of_cores (t.putExec_cores c x))

theorem State.putExec_cores_length (s : State) (c : Nat) (x : Exec) : (s.putExec c x).cores.length = s.cores.length := by
  rw [State.putExec_cores, List.length_set]

/-- Results that count nothing move no counter and no register. -/
theorem State.putExec_ctr_regs (h : x.bumps = []) : (s.putExec c x).ctr = s.ctr ∧ (s.putExec c x).regs = s.regs := by
  obtain ⟨u, hu, -, hctr, hregs⟩ := s.putExec_eq c x
  rw [hu, h]
  exact ⟨hctr, hregs⟩

end Exec

/-! ### A run that fails -/

/-- Every core reads alike through `v` in both states, and none is lost or gained. -/
def CoresAgree {β : Type} (v : Core → β) (s t : State) : Prop :=
  t.cores.length = s.cores.length ∧ ∀ c, v (t.core c) = v (s.core c)

section Fail
variable {β : Type} {v : Core → β} {s t u : State} {c n : Nat}

theorem CoresAgree.of_cores (h : t.cores = s.cores) : CoresAgree v s t :=
  ⟨congrArg List.length h, fun c => congrArg v (State.core_of_cores h c)⟩

theorem CoresAgree.refl (s : State) : CoresAgree v s s := .of_cores rfl

theorem CoresAgree.trans (h : CoresAgree v s t) (k : CoresAgree v t u) : CoresAgree v s u :=
  ⟨k.1.trans h.1, fun c => (k.2 c).trans (h.2 c)⟩

theorem CoresAgree.of_map {g : Core → Core} (h : t.cores = s.cores.map g) (hv : ∀ k, v (g k) = v k) :
    CoresAgree v s t := by
  refine ⟨by rw [h, List.length_map], fun c => ?_⟩
  rw [State.core, State.core, h]
  by_cases hc : c < s.cores.length
  · simp [List.getD_eq_getElem?_getD, hc, hv]
  · simp [List.getD_eq_getElem?_getD, hc]

/-- What runs on a core, and its clerks. -/
def Core.work (k : Core) : Option Inst × List Clerk := (k.run, k.clerks)

theorem CoresAgree.flushLab (s : State) (b stream : Nat) : CoresAgree Core.work s (s.flushLab b stream) := by
  unfold State.flushLab State.dropLab
  extract_lets hit u
  have hu : CoresAgree Core.work s u := .of_map rfl fun _ => rfl
  suffices h : ∀ (l : List (Nat × Nat)) (t : State), (l.foldl (fun s h => s.bump .kvw h.1 3 h.2) t).cores = t.cores from
    hu.trans (.of_cores (h hit u))
  intro l
  induction l with
  | nil => exact fun _ => rfl
  | cons p l ih => exact fun t => (ih _).trans (t.bump_cores ..)

theorem CoresAgree.rollbackPages (s : State) (stream : Nat) : CoresAgree Core.work s (s.rollbackPages stream) := by
  unfold State.rollbackPages
  split
  · exact .refl s
  · extract_lets b gone t u
    split
    · exact .of_cores rfl
    · exact (CoresAgree.of_cores rfl).trans (.flushLab u b stream)

theorem CoresAgree.leaveStep (s : State) (e : Entry) (ok : Bool) : CoresAgree Core.work s (s.leaveStep e ok) := by
  unfold State.leaveStep
  extract_lets u w
  have hw : w.cores = s.cores := by
    unfold w
    split <;> rfl
  split
  · exact .of_cores hw
  · exact (CoresAgree.of_cores hw).trans ((CoresAgree.of_cores rfl).trans (.rollbackPages _ _))

theorem CoresAgree.failEntry (s : State) (id k : Nat) (f : Fail) : CoresAgree Core.work s (s.failEntry id k f) := by
  cases hi : s.item? id with
  | none =>
    simp only [State.failEntry, hi]
    exact .refl s
  | some i =>
    have hmark : CoresAgree Core.work s (s.markFailed id k f) := .of_map rfl fun _ => rfl
    have hleave : CoresAgree Core.work (s.markFailed id k f) ((s.markFailed id k f).leaveFailed (i.entry k) f) := by
      unfold State.leaveFailed
      split
      · exact (CoresAgree.leaveStep _ (i.entry k) false).trans (.of_cores rfl)
      · exact .leaveStep _ _ _
    rw [State.failEntry_eq hi]
    split
    · exact (hmark.trans hleave).trans (.of_cores rfl)
    · exact hmark

theorem State.chargeRun_cores (s : State) (c : Nat) : (s.chargeRun c).cores = s.cores :=
  (State.chargeRun_leads .refl (List.Subset.refl _)).frame.cores (by decide)

theorem State.stopInstance_core (hc : c < s.cores.length) :
    (s.stopInstance c).core c = { (s.core c).clearRun with chain := none } := by
  have hcores := s.chargeRun_cores c
  exact (State.core_modCore_same (hcores ▸ hc) _).trans (by rw [State.core_of_cores hcores])

theorem State.stopInstance_cores_length (s : State) (c : Nat) : (s.stopInstance c).cores.length = s.cores.length :=
  (State.cores_length_modCore ..).trans (congrArg List.length (s.chargeRun_cores c))

/-- A failing run leaves its core with nothing to run and its clerks idle. -/
theorem State.failRun_core {i : Inst} (hrun : (s.core c).run = some i) (f : Fail) :
    ((s.failRun c f).core c).work = (none, (s.core c).clearRun.clerks) ∧
      (s.failRun c f).cores.length = s.cores.length := by
  obtain ⟨hlen, hwork⟩ := CoresAgree.failEntry ((s.stopInstance c).changed .ctl c) i.item i.entry (s.failOf i f)
  have hfail : s.failRun c f = ((s.stopInstance c).changed .ctl c).failEntry i.item i.entry (s.failOf i f) := by
    simp [State.failRun, hrun]
  rw [hfail]
  refine ⟨(hwork c).trans ?_, hlen.trans (s.stopInstance_cores_length c)⟩
  rw [State.core_changed, State.stopInstance_core (State.lt_cores_of_run hrun)]
  rfl

theorem State.run_failRun (s : State) (c : Nat) (f : Fail) : ((s.failRun c f).core c).run = none := by
  cases hrun : (s.core c).run with
  | none => simp [State.failRun, hrun]
  | some i => exact congrArg Prod.fst (State.failRun_core hrun f).1

theorem State.item?_failRun {x : Inst} {i : Item} (hrun : (s.core c).run = some x) (hi : s.item? x.item = some i)
    (hentry : x.entry < i.entries.length) (f : Fail) : ∃ j, (s.failRun c f).item? x.item = some j ∧
      (j.entry x.entry).st = .failed (s.failOf x f) := by
  obtain ⟨k, hk, hkeep⟩ := (ItemsAgree.stopInstance (v := Item.entries) s (fun _ _ => rfl) c).exists hi
  obtain ⟨j, hj, -, -, -, hst⟩ := State.item?_failEntry (s := (s.stopInstance c).changed .ctl c) hk
    (hkeep ▸ hentry) (s.failOf x f)
  refine ⟨j, ?_, hst⟩
  rw [State.failRun, hrun]
  exact hj

/-- R64: the clerk keeps the cause and the program counter of its trap, and the kernel ends. -/
theorem State.Executes.trap {i : Inst} (h : s.Executes c n i) (cause : Nat) : ((s.trap c n cause).clerk c n).state = .trapped ∧
    ((s.trap c n cause).clerk c n).cause = BitVec.ofNat 64 cause ∧
    ((s.trap c n cause).clerk c n).trapPc = (s.clerk c n).pc ∧ ((s.trap c n cause).core c).run = none := by
  obtain ⟨hrun, hc, hn⟩ := h
  obtain ⟨hwork, hlen⟩ := State.failRun_core hrun (trapFail cause)
  obtain ⟨hnone, hclerks⟩ := Prod.mk.inj hwork
  have hc' : c < (s.failRun c (trapFail cause)).cores.length := hlen ▸ hc
  have hn' : n < ((s.failRun c (trapFail cause)).core c).clerks.length := by
    rw [hclerks]
    simpa [Core.clearRun] using hn
  have hclerk := State.clerk_modClerk_same hc' hn' (fun q =>
    { q with state := .trapped, cause := BitVec.ofNat 64 cause, trapPc := (s.clerk c n).pc })
  refine ⟨congrArg Clerk.state hclerk, congrArg Clerk.cause hclerk, congrArg Clerk.trapPc hclerk, ?_⟩
  exact (congrArg Core.run (State.core_modClerk hc' n _)).trans hnone

end Fail

end Sys2Proof.Machine
end

section
/-! Units with nothing to do (R62). -/

namespace Sys2Proof.Machine

-- one theorem after the other: proofs that wait together take too many threads
set_option Elab.async false

section Units
variable {s : State} {c : Nat}

theorem State.runLoad_of_none (h : takeFirst (fun o => !o.isMul) (s.core c).mxeQ = none) : s.runLoad c = s := by
  unfold State.runLoad
  cases hrun : (s.core c).run <;> simp only [hrun, h]

theorem State.runMuls_of_none (n : Nat) (h : (s.core c).headMul = none) : State.runMuls n s c = s := by
  cases n with
  | zero => rfl
  | succ n => simp [State.runMuls, h]

theorem State.runDrain_of_nil (h : (s.core c).drainQ = []) : s.runDrain c = s := by
  unfold State.runDrain
  cases hrun : (s.core c).run <;> cases hd : (s.core c).drain <;> simp only [hrun, hd, h]

theorem State.runCourier_of_nil (n : Nat) {q : Nat} (h : (s.core c).courQ.getD q [] = []) :
    State.runCourier n s c q = s := by
  cases n with
  | zero => rfl
  | succ n =>
    unfold State.runCourier
    cases hrun : (s.core c).run <;> simp only [hrun, h]

theorem foldl_eq_self {α β : Type} {f : α → β → α} {a : α} {l : List β} (h : ∀ b ∈ l, f a b = a) : l.foldl f a = a := by
  induction l with
  | nil => rfl
  | cons b l ih =>
    obtain ⟨hb, hl⟩ := List.forall_mem_cons.mp h
    rw [List.foldl_cons, hb, ih hl]

theorem State.runUnits_of_idle (h : (s.core c).unitsIdle) : s.runUnits c = s := by
  obtain ⟨hmxe, hdrain, hcour⟩ := h
  have hload : s.runLoad c = s := State.runLoad_of_none (by rw [hmxe]; rfl)
  have hmul : State.runMuls 16 s c = s := State.runMuls_of_none 16 (by rw [Core.headMul, hmxe]; rfl)
  simp only [State.runUnits, hload, hmul, State.runDrain_of_nil hdrain]
  exact foldl_eq_self fun q hq => State.runCourier_of_nil 16 (hcour q (List.mem_range.mp hq))

end Units

end Sys2Proof.Machine
end

section
/-! Data memory of a clerk (R61, R464): runs of bytes in a store, and what a store leaves of the core's clerks. -/

namespace Sys2Proof.Machine

-- one theorem after the other: proofs that wait together take too many threads
set_option Elab.async false

/-! ### Runs of cells -/

section Runs
variable {w : Nat} {m : Store w} {k j : Nat} {vs : List (BitVec w)}

/-- The pairs of a run hold what was written at their keys, and nothing at any other. -/
theorem find_run (k j : Nat) (vs : List (BitVec w)) :
    ((List.range vs.length).zipWith (fun i v => (k + i, v)) vs).find? (fun p => p.1 == j) =
      if k ≤ j then (vs[j - k]?).map (fun v => (j, v)) else none := by
  induction vs generalizing k with
  | nil => simp
  | cons v vs ih =>
    have htail : (List.map Nat.succ (List.range vs.length)).zipWith (fun i v => (k + i, v)) vs =
        (List.range vs.length).zipWith (fun i v => (k + 1 + i, v)) vs := by
      rw [List.zipWith_map_left]
      exact congrArg (fun f => List.zipWith f (List.range vs.length) vs) (funext fun i => funext fun v => by
        rw [show k + i.succ = k + 1 + i by omega])
    rw [List.length_cons, List.range_succ_eq_map, List.zipWith_cons_cons, htail, List.find?_cons]
    rcases Nat.lt_trichotomy k j with h | rfl | h
    · have hne : (k + 0 == j) = false := by simpa using by omega
      rw [hne]
      simp only [ih, show k + 1 ≤ j from h, show k ≤ j by omega, if_true]
      rw [show j - k = j - (k + 1) + 1 by omega, List.getElem?_cons_succ]
    · simp
    · have hne : (k + 0 == j) = false := by simpa using by omega
      rw [hne]
      simp only [ih, show ¬k + 1 ≤ j by omega, show ¬k ≤ j by omega, if_false]

theorem Store.get_setRun (m : Store w) (k j : Nat) (vs : List (BitVec w)) :
    (m.setRun k vs).get j = if k ≤ j ∧ j < k + vs.length then vs.getD (j - k) 0 else m.get j := by
  cases hseed : m.seed with
  | none => simp only [Store.get, Store.setRun, hseed, cellGet_cellSetRun]
  | some n =>
    have hkeep := Store.find_filter m.cells (fun a => decide (a < k ∨ k + vs.length ≤ a)) j
    simp only [Store.get, Store.setRun, hseed, List.find?_append, hkeep, find_run]
    by_cases hin : k ≤ j ∧ j < k + vs.length
    · have hout : ¬(j < k ∨ k + vs.length ≤ j) := by omega
      have hlt : j - k < vs.length := by omega
      simp [hin, hout, hlt, List.getD_eq_getElem?_getD]
    · have hout : j < k ∨ k + vs.length ≤ j := by omega
      have hnone : (if k ≤ j then (vs[j - k]?).map (fun v => (j, v)) else none) = none := by
        split
        · rw [List.getElem?_eq_none (by omega)]
          rfl
        · rfl
      simp only [hin, hout, hnone, decide_true, if_true, if_false, Option.or_none]

theorem Store.getRun_setRun_same (m : Store w) (k : Nat) (vs : List (BitVec w)) :
    (m.setRun k vs).getRun k vs.length = vs := by
  refine List.ext_getElem (by simp [Store.getRun]) fun i _ hi => ?_
  simp [Store.getRun, Store.get_setRun, List.getD_eq_getElem?_getD, hi]

theorem leBytes_length (n v : Nat) : (leBytes n v).length = n := by
  induction n generalizing v with
  | zero => rfl
  | succ n ih => rw [leBytes, List.length_cons, ih]

theorem writeBytes_fst (st : Store 8) (p : List Nat) (start : Nat) {bytes : List Byte} (bad : List Bool) (h : bytes ≠ []) : (writeBytes st p start bytes bad).1 = st.setRun start bytes := by
  simp [writeBytes, h]

end Runs

/-! ### What a store leaves of the clerks -/

section Stores
variable {x : Exec} {n m off size v : Nat}

/-- A clerk's reservation, broken by another's store to the bytes it covers. -/
def Clerk.breakResv (q : Clerk) (other : Prop) [Decidable other] (a size : Nat) : Clerk :=
  match q.resv with
  | some (ra, rs) => if other ∧ ra < a + size ∧ a < ra + rs then { q with resv := none } else q
  | none => q

/-- Only the reservation changes. -/
theorem Clerk.breakResv_eq (q : Clerk) (other : Prop) [Decidable other] (a size : Nat) :
    ∃ r, q.breakResv other a size = { q with resv := r } := by
  unfold Clerk.breakResv
  split
  · split
    · exact ⟨none, rfl⟩
    · exact ⟨q.resv, rfl⟩
  · exact ⟨q.resv, rfl⟩

section Broken
variable (q : Clerk) (other : Prop) [Decidable other] (a size : Nat)

@[simp] theorem Clerk.breakResv_dmem : (q.breakResv other a size).dmem = q.dmem := by
  obtain ⟨r, hr⟩ := q.breakResv_eq other a size
  rw [hr]

@[simp] theorem Clerk.breakResv_td : (q.breakResv other a size).td = q.td := by
  obtain ⟨r, hr⟩ := q.breakResv_eq other a size
  rw [hr]

@[simp] theorem Clerk.breakResv_x : (q.breakResv other a size).x = q.x := by
  obtain ⟨r, hr⟩ := q.breakResv_eq other a size
  rw [hr]

@[simp] theorem Clerk.breakResv_pc : (q.breakResv other a size).pc = q.pc := by
  obtain ⟨r, hr⟩ := q.breakResv_eq other a size
  rw [hr]

end Broken

/-- The clerk with bytes of its data memory written. -/
def Clerk.stored (q : Clerk) (off : Nat) (bytes : List Byte) : Clerk :=
  { q with dmem := (writeBytes q.dmem q.dmemPoison off bytes []).1
           dmemPoison := (writeBytes q.dmem q.dmemPoison off bytes []).2 }

theorem Exec.dwrite_clerks : (x.dwrite n m off size v).core.clerks =
    (x.core.clerks.set m ((x.clerk m).stored off (leBytes size v))).zipIdx.map
      (fun p => p.1.breakResv (p.2 ≠ n) (m * 0x8000 + off) size) := rfl

theorem Exec.clerk_dwrite {k : Nat} (hk : k < x.core.clerks.length) : (x.dwrite n m off size v).clerk k =
    ((x.core.clerks.set m ((x.clerk m).stored off (leBytes size v))).getD k {}).breakResv (k ≠ n)
      (m * 0x8000 + off) size := by
  rw [Exec.clerk, Exec.dwrite_clerks]
  simp [List.getD_eq_getElem?_getD, hk]

theorem Exec.clerk_dwrite_same (hm : m < x.core.clerks.length) : (x.dwrite n m off size v).clerk m =
    ((x.clerk m).stored off (leBytes size v)).breakResv (m ≠ n) (m * 0x8000 + off) size := by
  rw [Exec.clerk_dwrite hm]
  simp [List.getD_eq_getElem?_getD, hm]

theorem Exec.clerk_dwrite_ne {k : Nat} (hk : k ≠ m) : (x.dwrite n m off size v).clerk k =
    (x.clerk k).breakResv (k ≠ n) (m * 0x8000 + off) size := by
  by_cases hlen : k < x.core.clerks.length
  · rw [Exec.clerk_dwrite hlen]
    simp [List.getD_eq_getElem?_getD, List.getElem?_set_ne hk.symm, Exec.clerk]
  · have hnew : (x.dwrite n m off size v).clerk k = {} :=
      List.getD_eq_default _ _ (by simpa [Exec.dwrite_clerks] using hlen)
    have hold : x.clerk k = {} := List.getD_eq_default _ _ (by simpa using hlen)
    rw [hnew, hold]
    rfl

/-- The bytes stored read back, and every other byte of every data memory stands. -/
theorem Exec.dmem_dwrite (hm : m < x.core.clerks.length) (hsize : 0 < size) :
    ((x.dwrite n m off size v).clerk m).dmem.getRun off size = leBytes size v ∧
      ∀ k a, (k ≠ m ∨ a < off ∨ off + size ≤ a) →
        ((x.dwrite n m off size v).clerk k).dmem.get a = (x.clerk k).dmem.get a := by
  have hdmem : ((x.dwrite n m off size v).clerk m).dmem = (x.clerk m).dmem.setRun off (leBytes size v) := by
    rw [Exec.clerk_dwrite_same hm, Clerk.breakResv_dmem, Clerk.stored]
    exact writeBytes_fst _ (x.clerk m).dmemPoison _ [] (List.ne_nil_of_length_pos (by rwa [leBytes_length]))
  refine ⟨?_, fun k a h => ?_⟩
  · have := (x.clerk m).dmem.getRun_setRun_same off (leBytes size v)
    rwa [leBytes_length, ← hdmem] at this
  · by_cases hk : k = m
    · subst hk
      have hout : ¬(off ≤ a ∧ a < off + size) := by
        have := h.resolve_left (fun h => h rfl)
        omega
      rw [hdmem, Store.get_setRun, leBytes_length, if_neg hout]
    · rw [Exec.clerk_dwrite_ne hk, Clerk.breakResv_dmem]

/-- No register and no program counter changes. -/
theorem Exec.regs_dwrite (hm : m < x.core.clerks.length) (k : Nat) :
    ((x.dwrite n m off size v).clerk k).td = (x.clerk k).td ∧ ((x.dwrite n m off size v).clerk k).x = (x.clerk k).x ∧
      ((x.dwrite n m off size v).clerk k).pc = (x.clerk k).pc := by
  by_cases hk : k = m
  · subst hk
    simp [Exec.clerk_dwrite_same hm, Clerk.stored]
  · simp [Exec.clerk_dwrite_ne hk]

theorem Exec.dwrite_clean : (x.dwrite n m off size v).poisoned = x.poisoned ∧ (x.dwrite n m off size v).bumps = x.bumps ∧
    (x.dwrite n m off size v).core.clerks.length = x.core.clerks.length := by
  refine ⟨rfl, rfl, ?_⟩
  simp [Exec.dwrite_clerks]

/-- A clean read changes nothing and gives the bytes. -/
theorem Exec.dread_clean (h : poisonIn (x.clerk m).dmemPoison off size = false) :
    x.dread m off size = (x, leNat ((x.clerk m).dmem.getRun off size)) := by
  simp [Exec.dread, h]

end Stores

end Sys2Proof.Machine
end

section
/-! The clerk's instructions (R59 to R62, R64, R74, R103): tile registers, TPARM, TSTAT, TWAIT, ECALL, traps and base
instructions. -/

namespace Sys2Proof.Machine

-- one theorem after the other: proofs that wait together take too many threads
set_option Elab.async false

section Clean
variable {s t : State} {c n : Nat} {x : Exec} {i : Inst}

theorem Retired.of_start (h : Retired c n s t) {u : State} (hctr : s.ctr = u.ctr) (hregs : s.regs = u.regs) :
    Retired c n u t :=
  ⟨h.1.trans (State.counted_eq (State.frozen_of_regs hregs ..) (State.live_of_ctr hctr ..) 1),
    (OtherCounters.of_ctr hctr).trans h.2⟩

@[simp] theorem State.clerk_execOf (s : State) (c m : Nat) : (s.execOf c).clerk m = s.clerk c m := by
  rw [Exec.clerk, State.execOf_core, State.clerk]

theorem List.set_getD_self {α : Type} (l : List α) (i : Nat) (d : α) : l.set i (l.getD i d) = l := by
  refine List.ext_getElem (by simp) fun j hj hj' => ?_
  by_cases h : i = j
  · subst h
    simp [List.getD_eq_getElem?_getD, hj']
  · simp [h]

/-- Putting back what the engines did not change leaves every core, counter and register. -/
theorem State.putExec_execOf (s : State) (c : Nat) : (s.putExec c (s.execOf c)).cores = s.cores ∧
    (s.putExec c (s.execOf c)).ctr = s.ctr ∧ (s.putExec c (s.execOf c)).regs = s.regs := by
  refine ⟨?_, State.putExec_ctr_regs (s.execOf_bumps c)⟩
  rw [State.putExec_cores, Exec.putCore_of_clean (s.execOf_poisoned c), State.execOf_core]
  exact List.set_getD_self ..

theorem State.Executes.of_cores (h : s.Executes c n i) (hcores : t.cores = s.cores) : t.Executes c n i := by
  obtain ⟨hrun, hc, hn⟩ := h
  have hcore := State.core_of_cores hcores c
  exact ⟨hcore ▸ hrun, hcores ▸ hc, hcore ▸ hn⟩

/-- Going on changes the state and the program counter of a clerk alone. -/
theorem State.clerk_retire_keeps {β : Type} {len : Nat} (v : Clerk → β)
    (hv : ∀ q st pc, v { q with state := st, pc := pc } = v q) (k : Nat) :
    v ((s.retire c n len).clerk c k) = v (s.clerk c k) := by
  by_cases hc : c < s.cores.length
  · rw [State.clerk_of_core (State.core_retire hc n len)]
    refine (congrArg v (listModify_getD _ _ _ _ _)).trans ?_
    split
    · exact hv (s.clerk c k) .running _
    · rfl
  · have hcore : (s.retire c n len).core c = s.core c :=
      (State.core_of_cores (s.retire_cores c n len) c).trans ((s.core_modCore c c _).trans (if_neg fun e => hc e.2))
    rw [State.clerk, State.clerk, hcore]

end Clean

/-! ### Tile registers, TPARM and TSTAT (R60, R61) -/

section Tiles
variable {s : State} {c n m off td rs1 rd sel : Nat}

theorem exec_tdset (h : s.clerkOp c n = some (.tdset td rs1 sel)) : ∃ t, exec (.tdset c n) s = .next t ∧
    OtherClerks c n s t ∧ Retired c n s t ∧ t.clerk c n =
      { (s.clerk c n).advance 4 with state := .running, td := ((s.clerk c n).td.set td
        (tdsetBits ((s.clerk c n).td.getD td 0) sel ((s.clerk c n).getX rs1).toNat)) } := by
  obtain ⟨i, hexec⟩ := State.executes_of_clerkOp h
  refine ⟨_, ?_, hexec.modClerk_retire (fun q => { q with
    td := q.td.set td (tdsetBits (q.td.getD td 0) sel ((s.clerk c n).getX rs1).toNat) }) 4⟩
  show execTdset c n s = _
  simp only [execTdset, h]

theorem exec_tparm (h : s.clerkOp c n = some (.tparm rs1)) : ∃ t, exec (.tparm c n) s = .next t ∧
    OtherClerks c n s t ∧ Retired c n s t ∧
    t.clerk c n = { (s.clerk c n).advance 4 with state := .running, parm := (s.clerk c n).getX rs1 } := by
  obtain ⟨i, hexec⟩ := State.executes_of_clerkOp h
  refine ⟨_, ?_, hexec.modClerk_retire (fun q => { q with parm := q.getX rs1 }) 4⟩
  show execTparm c n s = _
  simp only [execTparm, h]

theorem exec_tstat (h : s.clerkOp c n = some (.tstat rd)) : ∃ t, exec (.tstat c n) s = .next t ∧
    OtherClerks c n s t ∧ Retired c n s t ∧ t.clerk c n =
      { ((s.clerk c n).setX rd (BitVec.ofNat 64 (s.core c).queuesWord)).advance 4 with state := .running } := by
  obtain ⟨i, hexec⟩ := State.executes_of_clerkOp h
  refine ⟨_, ?_, hexec.modClerk_retire (fun q => q.setX rd (BitVec.ofNat 64 (s.core c).queuesWord)) 4⟩
  show execTstat c n s = _
  simp only [execTstat, h]

theorem exec_tdld (h : s.clerkOp c n = some (.tdld td rs1))
    (haddr : tdAddr n ((s.clerk c n).getX rs1).toNat false = .ok (m, off))
    (hclean : poisonIn (s.clerk c m).dmemPoison off 16 = false) : ∃ t, exec (.tdld c n) s = .next t ∧
      OtherClerks c n s t ∧ Retired c n s t ∧ t.clerk c n =
      { (s.clerk c n).advance 4 with state := .running, td := ((s.clerk c n).td.set td
        (BitVec.ofNat 128 (leNat ((s.clerk c m).dmem.getRun off 16)))) } := by
  obtain ⟨i, hexec⟩ := State.executes_of_clerkOp h
  obtain ⟨u, hu⟩ : ∃ u, u = s.putExec c (s.execOf c) := ⟨_, rfl⟩
  obtain ⟨hcores, hctr, hregs⟩ := hu ▸ s.putExec_execOf c
  have hread := Exec.dread_clean (x := s.execOf c) (m := m) (by rwa [State.clerk_execOf])
  obtain ⟨hother, hret, hclerk⟩ := (hexec.of_cores hcores).modClerk_retire (fun q => { q with
    td := q.td.set td (BitVec.ofNat 128 (leNat ((s.clerk c m).dmem.getRun off 16))) }) 4
  have hsame : u.clerk c n = s.clerk c n := State.clerk_of_core (State.core_of_cores hcores c)
  refine ⟨_, ?_, (OtherClerks.of_cores hcores).trans hother, hret.of_start hctr hregs, hclerk.trans (by rw [hsame]; rfl)⟩
  show execTdld c n s = _
  simp only [execTdld, h, haddr, hread, State.clerk_execOf, hu]

theorem exec_tdst (hshape : s.Shape) (h : s.clerkOp c n = some (.tdst rs1 td)) (hm : m < 4)
    (haddr : tdAddr n ((s.clerk c n).getX rs1).toNat true = .ok (m, off)) : ∃ t, exec (.tdst c n) s = .next t ∧
      OtherCores c s t ∧ Retired c n s t ∧ (t.clerk c n).pc = (s.clerk c n).pc + 4 ∧
      (t.clerk c m).dmem.getRun off 16 = leBytes 16 ((s.clerk c n).td.getD td 0).toNat ∧
      (∀ k a, (k ≠ m ∨ a < off ∨ off + 16 ≤ a) → (t.clerk c k).dmem.get a = (s.clerk c k).dmem.get a) ∧
      (∀ k, (t.clerk c k).td = (s.clerk c k).td ∧ (t.clerk c k).x = (s.clerk c k).x) := by
  obtain ⟨i, hexec⟩ := State.executes_of_clerkOp h
  have hlen : (s.execOf c).core.clerks.length = 4 := by
    rw [State.execOf_core]
    exact (State.core_shape (c := c) hshape).1
  obtain ⟨x, hx⟩ : ∃ x, x = (s.execOf c).dwrite n m off 16 ((s.clerk c n).td.getD td 0).toNat := ⟨_, rfl⟩
  obtain ⟨hrun, hother⟩ := hx ▸ Exec.dmem_dwrite (n := n) (off := off) (v := ((s.clerk c n).td.getD td 0).toNat)
    (hlen.symm ▸ hm) (Nat.succ_pos 15)
  have hregs := fun k => hx ▸ Exec.regs_dwrite (n := n) (off := off) (size := 16)
    (v := ((s.clerk c n).td.getD td 0).toNat) (hlen.symm ▸ hm) k
  have hclean : x.putCore = x.core := Exec.putCore_of_clean (by rw [hx, Exec.dwrite_clean.1, State.execOf_poisoned])
  obtain ⟨hctr, hreg⟩ := State.putExec_ctr_regs (s := s) (c := c) (x := x)
    (by rw [hx, Exec.dwrite_clean.2.1, State.execOf_bumps])
  have hcore : (s.putExec c x).core c = x.core := (State.core_putExec hexec.core x).trans hclean
  have hlen' : n < ((s.putExec c x).core c).clerks.length := by
    rw [hcore, hx, Exec.dwrite_clean.2.2, State.execOf_core]
    exact hexec.clerk
  have hput : ∀ k, (s.putExec c x).clerk c k = x.clerk k := fun k => State.clerk_of_core hcore
  have hmem := fun k => (State.clerk_retire_keeps (s := s.putExec c x) (c := c) (n := n) (len := 4) Clerk.dmem
    (fun _ _ _ => rfl) k).trans (congrArg Clerk.dmem (hput k))
  refine ⟨(s.putExec c x).retire c n 4, ?_, ?_, ?_, ?_, ?_, fun k a hka => ?_, fun k => ?_⟩
  · show execTdst c n s = _
    simp only [execTdst, h, haddr, hx]
  · exact (OtherCores.putExec (.refl c s) x).trans ((OtherClerks.refl c n _).retire 4).1
  · exact (State.retired_retire rfl rfl c n 4).of_start hctr hreg
  · rw [State.clerk_retire_same ((s.putExec_cores_length c x).symm ▸ hexec.core) hlen', hput]
    exact congrArg (· + 4) ((hregs n).2.2.trans (by rw [State.clerk_execOf]))
  · rw [hmem]
    exact hrun
  · rw [hmem, ← State.clerk_execOf]
    exact hother k a hka
  · rw [State.clerk_retire_keeps Clerk.td (fun _ _ _ => rfl), State.clerk_retire_keeps Clerk.x (fun _ _ _ => rfl), hput,
      ← State.clerk_execOf]
    exact ⟨(hregs k).1, (hregs k).2.1⟩

theorem exec_tdld_trap {cause : Nat} (h : s.clerkOp c n = some (.tdld td rs1))
    (haddr : tdAddr n ((s.clerk c n).getX rs1).toNat false = .error cause) : ∃ t, exec (.tdld c n) s = .next t ∧
      (t.clerk c n).state = .trapped ∧ (t.clerk c n).cause = BitVec.ofNat 64 cause ∧
      (t.clerk c n).trapPc = (s.clerk c n).pc ∧ (t.core c).run = none := by
  obtain ⟨i, hexec⟩ := State.executes_of_clerkOp h
  refine ⟨_, ?_, hexec.trap cause⟩
  show execTdld c n s = _
  simp only [execTdld, h, haddr]

end Tiles

/-! ### TWAIT (R62) -/

section Wait
variable {s : State} {c n mask : Nat} (h : s.clerkOp c n = some (.twait mask)) (hidle : (s.core c).unitsIdle)
include h hidle

theorem exec_twait_stalls (hpend : (s.core c).pendingFor n mask = true) : ∃ t, exec (.twait c n) s = .next t ∧
    OtherClerks c n s t ∧ t.clerk c n = { s.clerk c n with state := .waiting } := by
  obtain ⟨i, hrun, hc, hn⟩ := State.executes_of_clerkOp h
  refine ⟨s.stall c n, ?_, .modClerk (.refl c n s) _, State.clerk_modClerk_same hc hn _⟩
  show execTwait c n s = _
  simp [execTwait, h, State.runUnits_of_idle hidle, hrun, hpend]

theorem exec_twait_goes_on (hpend : (s.core c).pendingFor n mask = false) : ∃ t, exec (.twait c n) s = .next t ∧
    OtherClerks c n s t ∧ Retired c n s t ∧ t.clerk c n = { (s.clerk c n).advance 4 with state := .running } := by
  obtain ⟨i, hrun, hc, hn⟩ := State.executes_of_clerkOp h
  refine ⟨s.retire c n 4, ?_, .retire (.refl c n s) 4, State.retired_retire rfl rfl c n 4, State.clerk_retire_same hc hn 4⟩
  show execTwait c n s = _
  simp [execTwait, h, State.runUnits_of_idle hidle, hrun, hpend]

end Wait

/-- Settles O22: each instruction by the one clerk it changes; a store by what the data memories read afterwards. -/
theorem tileInstructionsWriteTheirRegister : Obligations.TileInstructionsWriteTheirRegister :=
  ⟨fun _ _ _ _ _ _ h => exec_tdset h, fun _ _ _ _ h => exec_tparm h, fun _ _ _ _ h => exec_tstat h,
    fun _ _ _ _ _ _ _ h haddr hclean => exec_tdld h haddr hclean,
    fun _ _ _ _ _ _ _ hshape h hm haddr => exec_tdst hshape h hm haddr,
    fun _ _ _ _ _ _ h haddr => exec_tdld_trap h haddr,
    fun _ _ _ _ h hidle => ⟨exec_twait_stalls h hidle, exec_twait_goes_on h hidle⟩⟩

end Sys2Proof.Machine
end

section
/-! How a clerk leaves off (R59, R64, R103): ECALL, traps and base instructions. -/

namespace Sys2Proof.Machine

-- one theorem after the other: proofs that wait together take too many threads
set_option Elab.async false

section Ends
variable {s : State} {c n w len : Nat}

theorem exec_ecall (h : s.clerkOp c n = some (.ecall len)) : ∃ t, exec (.ecall c n) s = .next t ∧
    OtherClerks c n s t ∧ Retired c n s t ∧
    t.clerk c n = { (s.clerk c n).advance len with state := .idle, finished := true, resv := none } := by
  obtain ⟨i, hrun, hc, hn⟩ := State.executes_of_clerkOp h
  have hc' : c < (s.retire c n len).cores.length := by
    rw [State.retire_cores]
    exact (State.cores_length_modCore ..).symm ▸ hc
  have hn' : n < ((s.retire c n len).core c).clerks.length := by
    rw [State.core_retire hc]
    simpa using hn
  refine ⟨(s.retire c n len).modClerk c n (fun q => { q with state := .idle, finished := true, resv := none }), ?_,
    .modClerk (.retire (.refl c n s) len) _, State.retired_retire rfl rfl c n len, ?_⟩
  · show execEcall c n s = _
    simp only [execEcall, h]
  · rw [State.clerk_modClerk_same hc' hn', State.clerk_retire_same hc hn]

theorem exec_clerkTrap {k : TrapKind} (h : (s.fetchFor c n).isSome = true) : ∃ t, exec (.clerkTrap c n k) s = .next t ∧
    (t.clerk c n).state = .trapped ∧ (t.clerk c n).cause = BitVec.ofNat 64 (trapCause k) ∧
    (t.clerk c n).trapPc = (s.clerk c n).pc ∧ (t.core c).run = none ∧
    ∀ x i, (s.core c).run = some x → s.item? x.item = some i → x.entry < i.entries.length → ∃ j, t.item? x.item = some j ∧
      (j.entry x.entry).st = .failed (s.failOf x (trapFail (trapCause k))) := by
  obtain ⟨f, hf⟩ := Option.isSome_iff_exists.mp h
  obtain ⟨i, hexec⟩ := State.executes_of_fetchFor hf
  obtain ⟨hstate, hcause, hpc, hrun⟩ := hexec.trap (trapCause k)
  refine ⟨s.trap c n (trapCause k), ?_, hstate, hcause, hpc, hrun, fun x i hx hi hentry => State.item?_failRun hx hi hentry _⟩
  show execClerkTrap c n k s = _
  simp [execClerkTrap, h]

theorem exec_rv64imacInstruction_ok {x : Exec} (hshape : s.Shape) (h : s.fetchFor c n = some (.op (.base w len)))
    (hok : (s.execOf c).rv n w len = .ok x) (hlen : x.core.clerks.length = 4) :
    ∃ t, exec (.rv64imacInstruction c n) s = .next t ∧ t.clerk c n = { x.clerk n with state := .running } ∧
      OtherCores c s t ∧ ∀ m, m ≠ n → t.clerk c m = x.clerk m := by
  obtain ⟨i, hrun, hc, hn⟩ := State.executes_of_fetchFor h
  have hcore : (s.putExec c x).core c = x.putCore := State.core_putExec hc x
  have hc' : c < (s.putExec c x).cores.length := (s.putExec_cores_length c x).symm ▸ hc
  have hn' : n < ((s.putExec c x).core c).clerks.length := by
    rw [hcore]
    exact hlen.symm ▸ (State.core_shape (c := c) hshape).1 ▸ hn
  obtain ⟨u, hu⟩ : ∃ u, u = (s.putExec c x).modClerk c n (fun q => { q with state := .running }) := ⟨_, rfl⟩
  have hput : ∀ m, (s.putExec c x).clerk c m = x.clerk m := fun m => (State.clerk_of_core hcore).trans rfl
  have hcores : (u.bump .clerk c n 1).cores = u.cores := u.bump_cores ..
  have hclerk : ∀ m, (u.bump .clerk c n 1).clerk c m = u.clerk c m := fun m => State.clerk_of_core (State.core_of_cores hcores c)
  refine ⟨u.bump .clerk c n 1, ?_, ?_, ?_, fun m hm => ?_⟩
  · show execRv64imacInstruction c n s = _
    simp only [execRv64imacInstruction, h, hok, hu]
  · rw [hclerk, hu, State.clerk_modClerk_same hc' hn', hput]
  · rw [hu] at hcores ⊢
    exact (OtherCores.modCore (OtherCores.putExec (.refl c s) x) _).trans (.of_cores hcores)
  · rw [hclerk, hu, State.clerk_modClerk_ne hm, hput]

theorem exec_rv64imacInstruction_illegal (h : s.fetchFor c n = some (.op .illegal)) :
    ∃ t, exec (.rv64imacInstruction c n) s = .next t ∧
      (t.clerk c n).state = .trapped ∧ (t.clerk c n).cause = 2 ∧ (t.core c).run = none := by
  obtain ⟨i, hexec⟩ := State.executes_of_fetchFor h
  obtain ⟨hstate, hcause, -, hrun⟩ := hexec.trap 2
  refine ⟨s.trap c n 2, ?_, hstate, hcause, hrun⟩
  show execRv64imacInstruction c n s = _
  simp only [execRv64imacInstruction, h]

end Ends

/-- Settles O23: ECALL by its clerk, a trap by what its failing run leaves, a base instruction by `Exec.rv`. -/
theorem clerksRunEndAndTrap : Obligations.ClerksRunEndAndTrap :=
  ⟨fun _ _ _ _ h => exec_ecall h, fun _ _ _ _ h => exec_clerkTrap h,
    fun _ _ _ _ _ _ hshape h hok hlen => exec_rv64imacInstruction_ok hshape h hok hlen,
    fun _ _ _ h => exec_rv64imacInstruction_illegal h⟩

end Sys2Proof.Machine
end

section
/-! The VXE's operations (R53 to R57, R86 to R96, R129, R146), which one function executes. -/

namespace Sys2Proof.Machine

-- one theorem after the other: proofs that wait together take too many threads
set_option Elab.async false

/-- What a VXOP with destination `d` and sources `a` and `b` on clerk `n` of core `c` computes with `f`. -/
def State.vxResult (s : State) (c n d a b : Nat) (f : Exec → Vx → Res) : Res :=
  f (s.execOf c) { d := (s.clerk c n).tile d, a := (s.clerk c n).tile a, b := (s.clerk c n).tile b
                   parm := (s.clerk c n).parm.toNat }

section Vxop
variable {s : State} {c n d a b op : Nat} {f : Exec → Vx → Res}

theorem State.vxop_of_error (h : s.clerkOp c n = some (.vxop d a b op)) {e : Fail}
    (he : s.vxResult c n d a b f = .error e) : s.vxop c n op f = s.failRun c e := by
  rw [State.vxResult] at he
  simp [State.vxop, h, he]

theorem State.vxop_of_ok (h : s.clerkOp c n = some (.vxop d a b op)) {x : Exec} (hx : s.vxResult c n d a b f = .ok x) :
    s.vxop c n op f = ((s.putExec c x).modClerk c n (fun q => { q with parm := 0 })).retire c n 4 := by
  rw [State.vxResult] at hx
  simp [State.vxop, h, hx]

theorem State.vxop_ok (h : s.clerkOp c n = some (.vxop d a b op)) {x : Exec} (hx : s.vxResult c n d a b f = .ok x)
    (hn : n < x.core.clerks.length) : OtherCores c s (s.vxop c n op f) ∧
      (s.vxop c n op f).clerk c n = { (x.clerk n).advance 4 with state := .running, parm := 0 } ∧
      (∀ m, m ≠ n → (s.vxop c n op f).clerk c m = x.clerk m) ∧ ((s.vxop c n op f).core c).cbuf = x.core.cbuf ∧
      ((s.vxop c n op f).core c).cbufPoison = x.core.cbufPoison ∧
      { (s.vxop c n op f).core c with clerks := [], run := none } = { x.core with clerks := [], run := none } := by
  obtain ⟨i, hexec⟩ := State.executes_of_clerkOp h
  have hcore : (s.putExec c x).core c = x.putCore := State.core_putExec hexec.core x
  have hlen : c < (s.putExec c x).cores.length := (s.putExec_cores_length c x).symm ▸ hexec.core
  have hput : ∀ m, (s.putExec c x).clerk c m = x.clerk m := fun m => (State.clerk_of_core hcore).trans rfl
  have hn' : n < ((s.putExec c x).core c).clerks.length := hcore.symm ▸ hn
  have hparm : c < ((s.putExec c x).modClerk c n (fun q => { q with parm := 0 })).cores.length := by
    simpa [State.modClerk] using hlen
  have hparm' : n < (((s.putExec c x).modClerk c n (fun q => { q with parm := 0 })).core c).clerks.length := by
    rw [State.core_modClerk hlen]
    simpa using hn'
  obtain ⟨hother, hsame, -⟩ := OtherClerks.retire
    (OtherClerks.modClerk (.refl c n (s.putExec c x)) (fun q => { q with parm := 0 })) 4
  have hleft : { (s.vxop c n op f).core c with clerks := [], run := none } = { x.core with clerks := [], run := none } := by
    rw [State.vxop_of_ok h hx, State.core_retire hparm, State.core_modClerk hlen, hcore]
    rfl
  refine ⟨?_, ?_, fun m hm => ?_, (congrArg Core.cbuf hleft :), (congrArg Core.cbufPoison hleft :), hleft⟩
  · rw [State.vxop_of_ok h hx]
    exact (OtherCores.putExec (.refl c s) x).trans hother
  · rw [State.vxop_of_ok h hx, State.clerk_retire_same hparm hparm', State.clerk_modClerk_same hlen hn', hput]
    rfl
  · rw [State.vxop_of_ok h hx, hsame m hm, hput]

end Vxop

/-- Settles O26: each row is its own opcode of the one function `State.vxop`, whose results do not depend on the row. -/
theorem vectorOperationsExecute : Obligations.VectorOperationsExecute := by
  intro r hr s c n d a b h
  have hrow : exec (r.1 c n) s = .next (s.vxop c n r.2.1 r.2.2) := by
    fin_cases hr <;> rfl
  refine ⟨fun x hx hn => ⟨_, hrow, State.vxop_ok h hx hn⟩, fun f hf => ⟨_, hrow, ?_⟩⟩
  rw [State.vxop_of_error h hf]
  exact State.run_failRun s c f

end Sys2Proof.Machine
end

section
/-! The units of a core (R41, R42, R49, R62): what stops each of them, and what a broadcast leaves of the core. -/

namespace Sys2Proof.Machine

-- one theorem after the other: proofs that wait together take too many threads
set_option Elab.async false

section Units
variable {s t u v : State} {c n : Nat}

/-- The units run one after the other. -/
theorem State.runUnits_eq (hload : s.runLoad c = t) (hmuls : State.runMuls 16 t c = u) (hdrain : u.runDrain c = v)
    (hcour : ∀ q, q < 4 → State.runCourier 16 v c q = v) : s.runUnits c = v := by
  simp only [State.runUnits, hload, hmuls, hdrain]
  exact foldl_eq_self fun q hq => hcour q (List.mem_range.mp hq)

/-- No weight load begins while the shadow bank holds one or takes one (R41). -/
theorem State.runLoad_of_busy (h : (s.core c).shadowReady = true ∨ (s.core c).loading.isSome = true) :
    s.runLoad c = s := by
  unfold State.runLoad
  dsimp only
  split
  · exact if_pos h
  · rfl

/-- The first MXMUL stops the queue where it needs a swap or the MXE is not FULL (R42, R46). -/
theorem State.runMuls_of_stopped {cl ph : Nat} {td : BitVec 128} {ai ax sw : Bool} {rest : List MxeOp}
    (hhead : (s.core c).headMul = some (.mul cl td ph ai ax sw, rest)) (h : sw = true ∨ (s.core c).ramp ≠ .full) :
    State.runMuls (n + 1) s c = s := by
  rw [State.runMuls]
  simp only [hhead]
  exact if_pos (h.imp_right .inl)

theorem State.runMuls_of_ready {cl ph : Nat} {td : BitVec 128} {ai ax : Bool} {rest : List MxeOp} {i : Inst}
    (hhead : (s.core c).headMul = some (.mul cl td ph ai ax false, rest)) (hramp : (s.core c).ramp = .full)
    (hfirst : (s.core c).drainFirst ph = false) (hrun : (s.core c).run = some i) :
    State.runMuls (n + 1) s c = State.runMuls n (s.broadcastHead c (.mul cl td ph ai ax false) rest) c := by
  rw [State.runMuls]
  simp [hhead, hramp, hfirst, hrun]

/-- No drain begins while one runs. -/
theorem State.runDrain_of_running (h : (s.core c).drain.isSome = true) : s.runDrain c = s := by
  obtain ⟨d, hd⟩ := Option.isSome_iff_exists.mp h
  unfold State.runDrain
  cases hrun : (s.core c).run <;> simp only [hrun, hd]

/-- A walk request at its head stops a courier's CRRs (R62). -/
theorem State.runCourier_of_walk {q m k : Nat} {l : List CourOp} (h : (s.core c).courQ.getD q [] = .walk m k :: l) :
    State.runCourier n s c q = s := by
  cases n with
  | zero => rfl
  | succ n =>
    unfold State.runCourier
    cases hrun : (s.core c).run <;> simp only [hrun, h]

end Units

/-! ### A broadcast -/

section Broadcast
variable {s : State} {c cl ph : Nat} {td : BitVec 128} {ai ax sw : Bool} {rest : List MxeOp}

/-- Of the core that the engines leave, only the poison mark of its run changes as it is put back (R369). -/
theorem State.core_putExec_run (hc : c < s.cores.length) (x : Exec) : ∃ run,
    (s.putExec c x).core c = { x.core with run := run } := ⟨_, State.core_putExec hc x⟩

/-- A broadcast changes the pigeonholes, their poison and the read axis alone. -/
theorem Exec.core_broadcast (x : Exec) (t : Tile) (p axis : Nat) (ai : Bool) : ∃ store poison,
    (x.broadcast t p axis ai).core = { x.core with ph := store, axis := axis, phPoison := poison } := ⟨_, _, rfl⟩

/-- The core before its broadcast: the MXMUL has left the queue and its pigeonhole is ACCUM (R49). -/
def Core.mulTaken (k : Core) (ph : Nat) (rest : List MxeOp) : Core :=
  { k with
    mxeQ := rest, phState := k.phState.set ph .accum
    drainQ := k.drainQ.map (fun d => if d.ph = ph then { d with after := d.after - 1 } else d) }

theorem State.core_broadcastHead (hc : c < s.cores.length) : ∃ run store poison,
    (s.broadcastHead c (.mul cl td ph ai ax sw) rest).core c = { (s.core c).mulTaken ph rest with
      run := run, ph := store, axis := b2n ax, phPoison := poison } := by
  obtain ⟨u, hu⟩ : ∃ u, u = s.modCore c (fun k => k.mulTaken ph rest) := ⟨_, rfl⟩
  have hcore : u.core c = (s.core c).mulTaken ph rest := hu ▸ State.core_modCore_same hc _
  have hlen : c < u.cores.length := by simpa [hu] using hc
  have hhead : s.broadcastHead c (.mul cl td ph ai ax sw) rest =
      u.putExec c ((u.execOf c).broadcast (Tile.ofBits td) (u.physOf c ph) (b2n ax) ai) := by rw [hu]; rfl
  obtain ⟨store, poison, hx⟩ := (u.execOf c).core_broadcast (Tile.ofBits td) (u.physOf c ph) (b2n ax) ai
  obtain ⟨run, hput⟩ := State.core_putExec_run hlen ((u.execOf c).broadcast (Tile.ofBits td) (u.physOf c ph) (b2n ax) ai)
  refine ⟨run, store, poison, ?_⟩
  rw [hhead, hput, hx, State.execOf_core, hcore]

theorem OtherCores.broadcastHead {t : State} (h : OtherCores c t s) (op : MxeOp) (rest : List MxeOp) :
    OtherCores c t (s.broadcastHead c op rest) := by
  cases op with
  | wl => exact h
  | mul => exact (h.modCore _).putExec _

end Broadcast

end Sys2Proof.Machine
end

section
/-! Completions in a core (R41, R42, R49, R62): weight loads, bank swaps, drains and the clerks that wait. -/

namespace Sys2Proof.Machine

-- one theorem after the other: proofs that wait together take too many threads
set_option Elab.async false

section Completions
variable {s : State} {c n : Nat}

theorem exec_shadowReadySet (hc : c < s.cores.length) (h : (s.core c).loading.isSome = true) :
    ∃ t, exec (.shadowReadySet c) s = .next t ∧ OtherCores c s t ∧ IntRaised .mxe c 0x100 s t ∧
      OtherRegs [regAddr .mxe c Reg.intStat] s t ∧ t.core c = { s.core c with shadowReady := true, loading := none } := by
  obtain ⟨hcore, hother, hint, hregs⟩ :=
    State.coreNoted_modCore hc .mxe (fun k => { k with shadowReady := true, loading := none })
  refine ⟨_, ?_, hother, hint, hregs, hcore⟩
  show execShadowReadySet c s = _
  simp [execShadowReadySet, h, State.when]

theorem exec_bankSwap {cl ph : Nat} {td : BitVec 128} {ai ax : Bool} {i : Inst} (hc : c < s.cores.length)
    (hq : (s.core c).mxeQ = [.mul cl td ph ai ax true]) (hdrain : (s.core c).drainQ = [])
    (hcour : ∀ q, q < 4 → (s.core c).courQ.getD q [] = []) (hready : (s.core c).shadowReady = true)
    (hramp : (s.core c).ramp = .full) (hfirst : (s.core c).drainFirst ph = false) (hrun : (s.core c).run = some i) :
    ∃ t, exec (.bankSwap c) s = .next t ∧ OtherCores c s t ∧ (t.core c).bank = 1 - (s.core c).bank ∧
      (t.core c).banks = (s.core c).banks ∧ (t.core c).shadowReady = false ∧ (t.core c).mxeQ = [] ∧
      (t.core c).phState = (s.core c).phState.set ph .accum := by
  obtain ⟨u, hu⟩ : ∃ u, u = (s.modCore c Core.swapBanks).changed .mxe c := ⟨_, rfl⟩
  obtain ⟨hcore, hother, -⟩ := hu ▸ State.coreNoted_modCore hc .mxe Core.swapBanks
  have hlen : c < u.cores.length := by simpa [hu, State.changed] using hc
  obtain ⟨t, ht⟩ : ∃ t, t = u.broadcastHead c (.mul cl td ph ai ax true) [] := ⟨_, rfl⟩
  obtain ⟨run, store, poison, hbroad⟩ := ht ▸ State.core_broadcastHead (cl := cl) (td := td) (ph := ph) (ai := ai)
    (ax := ax) (sw := true) (rest := []) hlen
  rw [hcore] at hbroad
  have hidle : (t.core c).unitsIdle := by
    rw [hbroad]
    refine ⟨rfl, ?_, hcour⟩
    exact (congrArg (List.map _) hdrain).trans List.map_nil
  have hhead : (s.core c).headMul = some (.mul cl td ph ai ax true, []) := by rw [Core.headMul, hq]; rfl
  refine ⟨t, ?_, ht ▸ hother.broadcastHead _ _, by rw [hbroad]; rfl, by rw [hbroad]; rfl, by rw [hbroad]; rfl,
    by rw [hbroad]; rfl, by rw [hbroad]; rfl⟩
  show execBankSwap c s = _
  simp [execBankSwap, hhead, hready, hramp, hfirst, hrun, State.when, ← hu, ← ht, State.runUnits_of_idle hidle]

theorem exec_bankSwap_not_ready (h : (s.core c).shadowReady = false) : exec (.bankSwap c) s = .next s := by
  show execBankSwap c s = _
  unfold execBankSwap
  dsimp only
  split
  · simp [h, State.when]
  · rfl

theorem exec_drainDone {d : DrnOp} (hc : c < s.cores.length) (hdrain : (s.core c).drain = some d)
    (hidle : (s.core c).unitsIdle) : ∃ t, exec (.drainDone c) s = .next t ∧ OtherCores c s t ∧
      t.core c = { s.core c with drain := none, drainRow := 0, phState := (s.core c).phState.set d.ph .free } := by
  obtain ⟨t, ht⟩ : ∃ t, t = s.modCore c (fun k => { k with
    drain := none, drainRow := 0, phState := k.phState.set d.ph .free }) := ⟨_, rfl⟩
  have hcore : t.core c = { s.core c with
      drain := none, drainRow := 0, phState := (s.core c).phState.set d.ph .free } := by
    rw [ht]
    exact State.core_modCore_same hc (fun k => { k with
      drain := none, drainRow := 0, phState := k.phState.set d.ph .free })
  have hidle' : (t.core c).unitsIdle := hcore ▸ hidle
  refine ⟨t, ?_, ht ▸ .modCore (.refl c s) _, hcore⟩
  show execDrainDone c s = _
  simp only [execDrainDone, hdrain, ← ht, State.runUnits_of_idle hidle']

/-- A clerk that waits issues what it is at, as the instruction itself does (R62). -/
theorem exec_issueQueueRoom (hwait : (s.clerk c n).state = .waiting) (hidle : (s.core c).unitsIdle) :
    (∀ td, s.clerkOp c n = some (.mxwl td) → exec (.issueQueueRoom c n) s = exec (.mxwl c n) s) ∧
    (∀ td ph ai ax sw, s.clerkOp c n = some (.mxmul td ph ai ax sw) →
      exec (.issueQueueRoom c n) s = exec (.mxmul c n) s) ∧
    (∀ d r ph ch, s.clerkOp c n = some (.drn d r ph ch) → exec (.issueQueueRoom c n) s = exec (.drn c n) s) ∧
    (∀ d a q, s.clerkOp c n = some (.crr d a q) → exec (.issueQueueRoom c n) s = exec (.crr c n) s) := by
  have hunits := State.runUnits_of_idle hidle
  refine ⟨fun td h => ?_, fun td ph ai ax sw h => ?_, fun d r ph ch h => ?_, fun d a q h => ?_⟩
  · show execIssueQueueRoom c n s = execMxwl c n s
    simp [execIssueQueueRoom, execMxwl, hwait, hunits, h]
  · show execIssueQueueRoom c n s = execMxmul c n s
    simp [execIssueQueueRoom, execMxmul, hwait, hunits, h]
  · show execIssueQueueRoom c n s = execDrn c n s
    simp [execIssueQueueRoom, execDrn, hwait, hunits, h]
  · show execIssueQueueRoom c n s = execCrr c n s
    simp [execIssueQueueRoom, execCrr, hwait, hunits, h]

theorem exec_issueQueueRoom_not_waiting (h : (s.clerk c n).state ≠ .waiting) :
    exec (.issueQueueRoom c n) s = .next s := by
  show execIssueQueueRoom c n s = _
  exact if_pos h

end Completions

/-- Settles O25: a swap by what its broadcast leaves of the core; the other completions by their update of the core. -/
theorem banksSwapAndDrainsEnd : Obligations.BanksSwapAndDrainsEnd :=
  ⟨fun _ _ hc h => exec_shadowReadySet hc h,
    fun _ _ _ _ _ _ _ _ hc hq hdrain hcour hready hramp hfirst hrun _ =>
      exec_bankSwap hc hq hdrain hcour hready hramp hfirst hrun,
    fun _ _ h => exec_bankSwap_not_ready h, fun _ _ _ hc hdrain hidle => exec_drainDone hc hdrain hidle,
    fun _ _ _ hwait hidle => exec_issueQueueRoom hwait hidle, fun _ _ _ h => exec_issueQueueRoom_not_waiting h⟩

end Sys2Proof.Machine
end

section
/-! Issue to a core's units (R61 to R63): the operation queued as its clerk goes on. -/

namespace Sys2Proof.Machine

-- one theorem after the other: proofs that wait together take too many threads
set_option Elab.async false

theorem getD_set_same {α : Type} {l : List α} {j : Nat} (hj : j < l.length) (a d : α) : (l.set j a).getD j d = a := by
  simp [List.getD_eq_getElem?_getD, hj]

section Issue
variable {s : State} {c n : Nat} {i : Inst} {push : Core → Core}

/-- The state as an operation has joined its unit's queue and its clerk has gone on; the units have not run yet. -/
def State.issued (s : State) (c n : Nat) (push : Core → Core) : State := (s.modCore c push).retire c n 4

theorem State.issue_of_fail (f : Fail) : s.issue c n false (some f) push = s.failRun c f := rfl

theorem State.issue_of_pass : s.issue c n false none push = (s.issued c n push).runUnits c := rfl

theorem State.core_issued (hc : c < s.cores.length) : (s.issued c n push).core c = { push (s.core c) with
    clerks := listModify (fun q => { (q.advance 4) with state := .running }) (push (s.core c)).clerks n } := by
  have hc' : c < (s.modCore c push).cores.length := by simpa using hc
  rw [State.issued, State.core_retire hc', State.core_modCore_same hc]

theorem State.issued_cores_length : (s.issued c n push).cores.length = s.cores.length := by
  rw [State.issued, State.retire_cores]
  exact (State.cores_length_modCore ..).trans (State.cores_length_modCore ..)

theorem OtherCores.issued : OtherCores c s (s.issued c n push) :=
  (OtherCores.modCore (.refl c s) push).trans (OtherClerks.retire (.refl c n _) 4).1

theorem State.retired_issued : Retired c n s (s.issued c n push) := State.retired_retire rfl rfl c n 4

theorem State.clerk_issued (hc : c < s.cores.length) (hn : n < (push (s.core c)).clerks.length) :
    (s.issued c n push).clerk c n = { ((push (s.core c)).clerks.getD n {}).advance 4 with state := .running } :=
  (State.clerk_of_core (State.core_issued hc)).trans (listModify_getD_same hn {})

/-- An issue changes cores and counters alone. -/
theorem State.issued_eq : ∃ cores ctr, s.issued c n push = { s with cores := cores, ctr := ctr } := by
  unfold State.issued State.retire State.bump
  split
  · exact ⟨_, s.ctr, rfl⟩
  · exact ⟨_, _, rfl⟩

/-- A clerk that the queueing leaves as it is goes on. -/
theorem State.clerk_issued_of_clerks (hexec : s.Executes c n i) (hpush : (push (s.core c)).clerks = (s.core c).clerks) :
    (s.issued c n push).clerk c n = { (s.clerk c n).advance 4 with state := .running } := by
  obtain ⟨-, hc, hn⟩ := hexec
  have h := State.clerk_issued (push := push) hc (hpush ▸ hn)
  rwa [hpush] at h

theorem State.ker_execOf (hrun : (s.core c).run = some i) : (s.execOf c).ker = (s.kernelOf i).getD {} := by
  unfold State.execOf
  dsimp only
  split
  · rename_i h
    rw [hrun] at h
    cases h
  · rename_i j h
    rw [hrun] at h
    cases h
    split <;> rfl

end Issue

end Sys2Proof.Machine
end

section
/-! MXWL and MXMUL (R40, R41, R49, R61 to R63). -/

namespace Sys2Proof.Machine

-- one theorem after the other: proofs that wait together take too many threads
set_option Elab.async false

/-- An operation joins the matrix engine's queue. -/
def Core.queueMxe (o : MxeOp) (k : Core) : Core := { k with mxeQ := k.mxeQ ++ [o] }

/-- Issue checks of an MXWL with weight tile `w` (R63). -/
def State.wlChecks (s : State) (c : Nat) (i : Inst) (w : BitVec 128) : Option Fail :=
  firstFail [checkSpaceAny (s.execOf c) (Tile.ofBits w), checkTensor (s.execOf c) (Tile.ofBits w),
    checkCodes (Tile.ofBits w), if (Tile.ofBits w).fmt = (s.execOf c).ker.wgtFmt then none else some (Fail.loadCheck 0x0401),
    checkAlign (Tile.ofBits w), s.rangeOf i (s.execOf c) (Tile.ofBits w)]

section Load
variable {s : State} {c n td : Nat} {w : BitVec 128} {i : Inst}

/-- A load from the core buffer begins where the shadow bank is free (R41). -/
theorem State.core_runLoad {cl : Nat} (hc : c < s.cores.length) (hrun : (s.core c).run = some i)
    (hq : (s.core c).mxeQ = [.wl cl w]) (hready : (s.core c).shadowReady = false) (hload : (s.core c).loading = none)
    (hspace : (Tile.ofBits w).space = 0) : OtherCores c s (s.runLoad c) ∧ ∃ run banks poison dims,
      (s.runLoad c).core c = { s.core c with
        mxeQ := [], run := run, banks := banks, bankPoison := poison, bankDims := dims, loading := some cl } := by
  obtain ⟨u, hu⟩ : ∃ u, u = s.modCore c (fun k => { k with mxeQ := [] }) := ⟨_, rfl⟩
  have hcore : u.core c = { s.core c with mxeQ := [] } := by
    rw [hu]
    exact State.core_modCore_same hc (fun k => { k with mxeQ := [] })
  have hlen : c < u.cores.length := by simpa [hu] using hc
  obtain ⟨x, hx⟩ : ∃ x, x = (u.execOf c).loadShadow (Tile.ofBits w).f ((s.execOf c).readTile (Tile.ofBits w))
    (Tile.ofBits w).rows (Tile.ofBits w).cols cl := ⟨_, rfl⟩
  have hhead : s.runLoad c = u.putExec c x := by
    have htake : takeFirst (fun o => !o.isMul) (s.core c).mxeQ = some (.wl cl w, []) := by rw [hq]; rfl
    rw [hx, hu]
    simp [State.runLoad, hrun, htake, hready, hload, hspace, State.regulate]
  obtain ⟨run, hput⟩ := State.core_putExec_run hlen x
  have hbanks : ∃ banks poison dims, x.core = { s.core c with
      mxeQ := [], banks := banks, bankPoison := poison, bankDims := dims, loading := some cl } := by
    rw [hx, Exec.loadShadow, State.execOf_core, hcore]
    exact ⟨_, _, _, rfl⟩
  obtain ⟨banks, poison, dims, hbanks⟩ := hbanks
  refine ⟨?_, run, banks, poison, dims, ?_⟩
  · rw [hhead, hu]
    exact (OtherCores.modCore (.refl c s) _).putExec x
  · rw [hhead, hput, hbanks]

theorem exec_mxwl (h : s.clerkOp c n = some (.mxwl td)) (hq : (s.core c).mxeQ = []) (hrun : (s.core c).run = some i)
    (hw : w = (s.clerk c n).td.getD td 0) :
    exec (.mxwl c n) s = .next (s.issue c n false (s.wlChecks c i w) (Core.queueMxe (.wl n w))) := by
  show execMxwl c n s = _
  simp only [execMxwl, h, State.issueMxwl, hrun, hq, ← hw]
  rfl

theorem State.core_issued_wl (hexec : s.Executes c n i) (hq : (s.core c).mxeQ = []) :
    (s.issued c n (Core.queueMxe (.wl n w))).core c = { s.core c with
      mxeQ := [.wl n w]
      clerks := listModify (fun q => { (q.advance 4) with state := .running }) (s.core c).clerks n } := by
  rw [State.core_issued hexec.core, Core.queueMxe, hq]
  rfl

variable (h : s.clerkOp c n = some (.mxwl td)) (hidle : (s.core c).unitsIdle) (hrun : (s.core c).run = some i)
  (hw : w = (s.clerk c n).td.getD td 0)
include h hidle hrun hw

theorem exec_mxwl_queues (hpass : s.wlChecks c i w = none)
    (hbusy : (s.core c).shadowReady = true ∨ (s.core c).loading.isSome = true) : ∃ t, exec (.mxwl c n) s = .next t ∧
      Retired c n s t ∧ t.clerk c n = { (s.clerk c n).advance 4 with state := .running } ∧
      { t.core c with clerks := [] } = { s.core c with clerks := [], mxeQ := [.wl n w] } ∧ OtherCores c s t := by
  obtain ⟨j, hexec⟩ := State.executes_of_clerkOp h
  obtain ⟨hq, hdrain, hcour⟩ := hidle
  obtain ⟨t, ht⟩ : ∃ t, t = s.issued c n (Core.queueMxe (.wl n w)) := ⟨_, rfl⟩
  have hcore := ht ▸ State.core_issued_wl (w := w) hexec hq
  have hunits : t.runUnits c = t := State.runUnits_eq
    (State.runLoad_of_busy (by rw [hcore]; exact hbusy))
    (State.runMuls_of_none 16 (by rw [hcore]; rfl))
    (State.runDrain_of_nil (by rw [hcore]; exact hdrain))
    (fun q hlt => State.runCourier_of_nil 16 (by rw [hcore]; exact hcour q hlt))
  refine ⟨t, ?_, ht ▸ State.retired_issued, ht ▸ State.clerk_issued_of_clerks hexec rfl, by rw [hcore],
    ht ▸ OtherCores.issued⟩
  rw [exec_mxwl h hq hrun hw, hpass, State.issue_of_pass, ← ht, hunits]

theorem exec_mxwl_begins (hpass : s.wlChecks c i w = none) (hready : (s.core c).shadowReady = false)
    (hload : (s.core c).loading = none) (hspace : (Tile.ofBits w).space = 0) : ∃ t, exec (.mxwl c n) s = .next t ∧
      (t.core c).mxeQ = [] ∧ (t.core c).loading = some n ∧ (t.core c).bank = (s.core c).bank ∧
      t.clerk c n = { (s.clerk c n).advance 4 with state := .running } ∧ OtherCores c s t := by
  obtain ⟨j, hexec⟩ := State.executes_of_clerkOp h
  obtain ⟨hq, hdrain, hcour⟩ := hidle
  obtain ⟨u, hu⟩ : ∃ u, u = s.issued c n (Core.queueMxe (.wl n w)) := ⟨_, rfl⟩
  have hcore := hu ▸ State.core_issued_wl (w := w) hexec hq
  have hlen : c < u.cores.length := by
    rw [hu, State.issued_cores_length]
    exact hexec.core
  have hclerk := hu ▸ State.clerk_issued_of_clerks (push := Core.queueMxe (.wl n w)) hexec rfl
  obtain ⟨hother, run, banks, poison, dims, hloaded⟩ := State.core_runLoad (cl := n) (w := w) (i := i) hlen
    (by rw [hcore]; exact hrun) (by rw [hcore]) (by rw [hcore]; exact hready) (by rw [hcore]; exact hload) hspace
  rw [hcore] at hloaded
  have hunits : u.runUnits c = u.runLoad c := State.runUnits_eq rfl
    (State.runMuls_of_none 16 (by rw [hloaded]; rfl))
    (State.runDrain_of_nil (by rw [hloaded]; exact hdrain))
    (fun q hlt => State.runCourier_of_nil 16 (by rw [hloaded]; exact hcour q hlt))
  refine ⟨u.runLoad c, ?_, by rw [hloaded], by rw [hloaded], by rw [hloaded], ?_, ?_⟩
  · rw [exec_mxwl h hq hrun hw, hpass, State.issue_of_pass, ← hu, hunits]
  · rw [← hclerk, State.clerk, State.clerk, hloaded, hcore]
  · exact OtherCores.trans (hu ▸ OtherCores.issued) hother

theorem exec_mxwl_fails {f : Fail} (hfail : s.wlChecks c i w = some f) :
    ∃ t, exec (.mxwl c n) s = .next t ∧ (t.core c).run = none := by
  refine ⟨s.failRun c f, ?_, State.run_failRun s c f⟩
  rw [exec_mxwl h hidle.1 hrun hw, hfail, State.issue_of_fail]

end Load

/-! ### MXMUL -/

section Mul
variable {s : State} {c n td ph : Nat} {ai ax sw : Bool} {i : Inst}

/-- The core as an MXMUL to pigeonhole `ph` has joined its queue: a FREE pigeonhole becomes ACCUM (R49). -/
def Core.queueMul (w : BitVec 128) (n ph : Nat) (ai ax sw : Bool) (k : Core) : Core :=
  { k with
    mxeQ := k.mxeQ ++ [.mul n w ph ai ax sw]
    phState := if k.phState.getD ph .free = .free then k.phState.set ph .accum else k.phState }

theorem exec_mxmul (h : s.clerkOp c n = some (.mxmul td ph ai ax sw)) (hq : (s.core c).mxeQ = [])
    (hpass : mulChecks (s.execOf c) (Tile.ofBits ((s.clerk c n).td.getD td 0)) = none) :
    exec (.mxmul c n) s =
      .next ((s.issued c n (Core.queueMul ((s.clerk c n).td.getD td 0) n ph ai ax sw)).runUnits c) := by
  show execMxmul c n s = _
  simp only [execMxmul, h, State.issueMxmul, hpass, hq]
  rfl

theorem State.core_issued_mul {w : BitVec 128} (hexec : s.Executes c n i) (hq : (s.core c).mxeQ = []) :
    (s.issued c n (Core.queueMul w n ph ai ax sw)).core c = { s.core c with
      mxeQ := [.mul n w ph ai ax sw]
      phState := if (s.core c).phState.getD ph .free = .free then (s.core c).phState.set ph .accum else (s.core c).phState
      clerks := listModify (fun q => { (q.advance 4) with state := .running }) (s.core c).clerks n } := by
  rw [State.core_issued hexec.core, Core.queueMul, hq]
  rfl

theorem exec_mxmul_queues (h : s.clerkOp c n = some (.mxmul td ph ai ax sw)) (hidle : (s.core c).unitsIdle)
    (hpass : mulChecks (s.execOf c) (Tile.ofBits ((s.clerk c n).td.getD td 0)) = none)
    (hstop : sw = true ∨ (s.core c).ramp ≠ .full) : ∃ t, exec (.mxmul c n) s = .next t ∧ Retired c n s t ∧
      OtherCores c s t ∧ t.clerk c n = { (s.clerk c n).advance 4 with state := .running } ∧
      (t.core c).mxeQ = [.mul n ((s.clerk c n).td.getD td 0) ph ai ax sw] ∧
      ((s.core c).phState.getD ph .free = .free → (t.core c).phState = (s.core c).phState.set ph .accum) ∧
      ((s.core c).phState.getD ph .free ≠ .free → (t.core c).phState = (s.core c).phState) := by
  obtain ⟨j, hexec⟩ := State.executes_of_clerkOp h
  obtain ⟨hq, hdrain, hcour⟩ := hidle
  obtain ⟨t, ht⟩ : ∃ t, t = s.issued c n (Core.queueMul ((s.clerk c n).td.getD td 0) n ph ai ax sw) := ⟨_, rfl⟩
  have hcore := ht ▸ State.core_issued_mul (ph := ph) (ai := ai) (ax := ax) (sw := sw)
    (w := (s.clerk c n).td.getD td 0) hexec hq
  have hunits : t.runUnits c = t := State.runUnits_eq
    (State.runLoad_of_none (by rw [hcore]; rfl))
    (State.runMuls_of_stopped (by rw [hcore]; rfl) (hstop.imp_right (by rw [hcore]; exact id)))
    (State.runDrain_of_nil (by rw [hcore]; exact hdrain))
    (fun q hlt => State.runCourier_of_nil 16 (by rw [hcore]; exact hcour q hlt))
  refine ⟨t, ?_, ht ▸ State.retired_issued, ht ▸ OtherCores.issued, ht ▸ State.clerk_issued_of_clerks hexec rfl,
    by rw [hcore], fun hfree => ?_, fun hheld => ?_⟩
  · rw [exec_mxmul h hq hpass, ← ht, hunits]
  · rw [hcore]
    exact if_pos hfree
  · rw [hcore]
    exact if_neg hheld

theorem exec_mxmul_broadcasts (h : s.clerkOp c n = some (.mxmul td ph ai ax false)) (hidle : (s.core c).unitsIdle)
    (hrun : (s.core c).run = some i) (hph : ph < (s.core c).phState.length)
    (hpass : mulChecks (s.execOf c) (Tile.ofBits ((s.clerk c n).td.getD td 0)) = none)
    (hramp : (s.core c).ramp = .full) (hfirst : (s.core c).drainFirst ph = false) :
    ∃ t, exec (.mxmul c n) s = .next t ∧ (t.core c).mxeQ = [] ∧ (t.core c).phState.getD ph .free = .accum ∧
      OtherCores c s t ∧ (t.core c).axis = b2n ax ∧ (t.core c).banks = (s.core c).banks ∧
      t.clerk c n = { (s.clerk c n).advance 4 with state := .running } := by
  obtain ⟨j, hexec⟩ := State.executes_of_clerkOp h
  obtain ⟨hq, hdrain, hcour⟩ := hidle
  obtain ⟨w, hw⟩ : ∃ w, w = (s.clerk c n).td.getD td 0 := ⟨_, rfl⟩
  obtain ⟨u, hu⟩ : ∃ u, u = s.issued c n (Core.queueMul w n ph ai ax false) := ⟨_, rfl⟩
  have hcore := hu ▸ State.core_issued_mul (w := w) (ph := ph) (ai := ai) (ax := ax) (sw := false) hexec hq
  have hlen : c < u.cores.length := by
    rw [hu, State.issued_cores_length]
    exact hexec.core
  have hclerk := hu ▸ State.clerk_issued_of_clerks (push := Core.queueMul w n ph ai ax false) hexec rfl
  obtain ⟨t, ht⟩ : ∃ t, t = u.broadcastHead c (.mul n w ph ai ax false) [] := ⟨_, rfl⟩
  obtain ⟨run, store, poison, hbroad⟩ := ht ▸ State.core_broadcastHead (cl := n) (td := w) (ph := ph) (ai := ai)
    (ax := ax) (sw := false) (rest := []) hlen
  rw [hcore] at hbroad
  have hempty : (t.core c).drainQ = [] := by
    rw [hbroad]
    exact (congrArg (List.map _) hdrain).trans List.map_nil
  have hmuls : State.runMuls 16 u c = t :=
    calc State.runMuls 16 u c = State.runMuls 15 t c := ht ▸ State.runMuls_of_ready (i := i) (by rw [hcore]; rfl)
          (by rw [hcore]; exact hramp) (by rw [hcore]; exact hfirst) (by rw [hcore]; exact hrun)
      _ = t := State.runMuls_of_none 15 (by rw [hbroad]; rfl)
  have hunits : u.runUnits c = t := State.runUnits_eq
    (State.runLoad_of_none (by rw [hcore]; rfl)) hmuls (State.runDrain_of_nil hempty)
    (fun q hlt => State.runCourier_of_nil 16 (by rw [hbroad]; exact hcour q hlt))
  refine ⟨t, ?_, by rw [hbroad]; rfl, ?_, ?_, by rw [hbroad], by rw [hbroad]; rfl, ?_⟩
  · rw [exec_mxmul h hq hpass, ← hw, ← hu, hunits]
  · rw [hbroad]
    refine getD_set_same ?_ _ _
    dsimp only
    split
    · rwa [List.length_set]
    · exact hph
  · rw [ht]
    exact OtherCores.broadcastHead (hu ▸ OtherCores.issued) _ _
  · rw [← hclerk, State.clerk, State.clerk, hbroad, hcore]
    rfl

end Mul

end Sys2Proof.Machine
end

section
/-! DRN and CRR (R52, R61 to R63, R463), and what an instruction for a unit leaves of its core. -/

namespace Sys2Proof.Machine

-- one theorem after the other: proofs that wait together take too many threads
set_option Elab.async false

/-! ### What a drain writes -/

/-- A core but for what its buffer holds. -/
def Core.sansBuffer (k : Core) : Core := { k with cbuf := {}, cbufPoison := [] }

section DrainWrites
variable {x : Exec} {t : Tile}

@[simp] theorem Exec.sansBuffer_putStore (st : Store 8 × List Nat) :
    (x.putStore t st).core.sansBuffer = x.core.sansBuffer := by
  unfold Exec.putStore
  split <;> rfl

@[simp] theorem Exec.sansBuffer_writeRow (r : Nat) (es : List Elem) :
    (x.writeRow t r es).core.sansBuffer = x.core.sansBuffer := Exec.sansBuffer_putStore _

@[simp] theorem Exec.core_convert (f : Fmt) (r : Rnd) (sat : Bool) (v : FV) : (x.convert f r sat v).1.core = x.core := by
  unfold Exec.convert
  split
  · split <;> rfl
  · rfl

@[simp] theorem Exec.core_bump (p : Pg) (m amount : Nat) : (x.bump p m amount).core = x.core := rfl

/-- A fold over results, each step of which keeps the core, keeps the core. -/
theorem Exec.core_foldl_fst {α β : Type} {f : Exec × β → α → Exec × β} (hf : ∀ y a, (f y a).1.core = y.1.core)
    (l : List α) (y : Exec × β) : (l.foldl f y).1.core = y.1.core := by
  induction l generalizing y with
  | nil => rfl
  | cons a l ih => exact (ih (f y a)).trans (hf y a)

@[simp] theorem Exec.sansBuffer_drainPut (rnd : Rnd) (sat : Bool) (r : Nat) (row : List (FV × Bool)) :
    (x.drainPut t rnd sat r row).core.sansBuffer = x.core.sansBuffer := by
  unfold Exec.drainPut
  refine (Exec.sansBuffer_writeRow ..).trans (congrArg Core.sansBuffer (Exec.core_foldl_fst (fun y v => ?_) row (x, [])))
  simp only [apply_ite Exec.core, Exec.core_bump, ite_self, Exec.core_convert]

@[simp] theorem Exec.sansBuffer_drainAll (p : Nat) (ws : List Nat) (scales biases : List W32) (dest resid : Tile) :
    (x.drainAll p ws scales biases dest resid).core.sansBuffer = x.core.sansBuffer := by
  have hfold : ∀ (l : List (Nat × List (FV × Bool))) (y : Exec),
      (l.foldl (fun y q => y.drainPut dest (chainRnd ws) (chainSat ws) q.1 q.2) y).core.sansBuffer = y.core.sansBuffer := by
    intro l
    induction l with
    | nil => exact fun _ => rfl
    | cons q l ih => exact fun y => (ih _).trans (Exec.sansBuffer_drainPut ..)
  exact hfold _ _

end DrainWrites

/-! ### A drain begins -/

section Drain
variable {s : State} {c : Nat} {i : Inst} {d : DrnOp}

/-- A chain without per-channel scales and biases reads no channel array (R108). -/
theorem State.channels_of_none {ker : Kernel} {ws : List Nat} (hper : chainPerChannel ws = false)
    (hbias : chainHas ws 2 = false) (base n : Nat) : s.channels i ker ws base n = ([], [], none, none) := by
  simp [State.channels, hper, hbias]

/-- The core as the drain `d` begins, but for what its buffer holds (R49, R52). -/
def Core.drainBegun (k : Core) (d : DrnOp) : Core :=
  { k with
    drain := some d, drainQ := [], drainRow := (Tile.ofBits d.dest).rows - 1, phState := k.phState.set d.ph .drain }

theorem Core.sansBuffer_drainBegun {k l : Core} (h : k.sansBuffer = l.sansBuffer) :
    ({ k.drainBegun d with phPoison := l.phPoison }).sansBuffer = (l.drainBegun d).sansBuffer := by
  change { k.sansBuffer.drainBegun d with phPoison := l.phPoison } = l.sansBuffer.drainBegun d
  rw [h]
  rfl

theorem State.core_runDrain (hc : c < s.cores.length) (hrun : (s.core c).run = some i) (hfree : (s.core c).drain = none)
    (hq : (s.core c).drainQ = [d]) (hafter : d.after = 0)
    (hper : chainPerChannel ((s.execOf c).ker.chains.getD d.chain []) = false)
    (hbias : chainHas ((s.execOf c).ker.chains.getD d.chain []) 2 = false) : OtherCores c s (s.runDrain c) ∧
      ∃ run, ((s.runDrain c).core c).sansBuffer = { ((s.core c).drainBegun d).sansBuffer with run := run } := by
  obtain ⟨x, hx, hcore⟩ : ∃ x : Exec, s.runDrain c = s.putExec c x ∧
      x.core.sansBuffer = ((s.core c).drainBegun d).sansBuffer := by
    have hall := Exec.sansBuffer_drainAll (x := s.execOf c) (s.physOf c d.ph)
      ((s.execOf c).ker.chains.getD d.chain []) [] [] (Tile.ofBits d.dest) (Tile.ofBits d.resid)
    unfold State.runDrain
    simp only [hrun, hfree, hq, hafter, State.channels_of_none hper hbias, State.notePoison, Option.isSome_none,
      Bool.false_eq_true, if_false, ne_eq, not_true_eq_false]
    refine ⟨_, rfl, ?_⟩
    generalize (s.execOf c).drainAll (s.physOf c d.ph) ((s.execOf c).ker.chains.getD d.chain []) [] []
      (Tile.ofBits d.dest) (Tile.ofBits d.resid) = y at hall ⊢
    rw [State.execOf_core] at hall ⊢
    exact Core.sansBuffer_drainBegun hall
  obtain ⟨run, hput⟩ := State.core_putExec_run hc x
  refine ⟨hx ▸ (OtherCores.refl c s).putExec x, run, ?_⟩
  rw [hx, hput, ← hcore]
  rfl

end Drain

/-! ### DRN -/

/-- A DRN joins the queue behind the MXMULs to its pigeonhole, and takes its clerk's parameter word (R49, R52). -/
def Core.queueDrn (d : DrnOp) (k : Core) : Core :=
  { k with
    drainQ := k.drainQ ++ [{ d with after := (k.mxeQ.filter (fun o => o.mulTo d.ph)).length }]
    clerks := listModify (fun q => { q with parm := 0 }) k.clerks d.clerk }

/-- The drain that a DRN of clerk `n` queues where no MXMUL waits. -/
def State.drnOp (s : State) (c n d r ph ch : Nat) : DrnOp :=
  { clerk := n, dest := (s.clerk c n).td.getD d 0, resid := (s.clerk c n).td.getD r 0, ph := ph, chain := ch
    parm := (s.clerk c n).parm, after := 0 }

section Drn
variable {s : State} {c n d r ph ch : Nat} {i : Inst}

theorem State.core_issued_drn (hexec : s.Executes c n i) (hidle : (s.core c).unitsIdle) :
    (s.issued c n (Core.queueDrn (s.drnOp c n d r ph ch))).core c = { s.core c with
      mxeQ := []
      drainQ := [s.drnOp c n d r ph ch]
      clerks := listModify (fun q => { (q.advance 4) with state := .running })
        (listModify (fun q => { q with parm := 0 }) (s.core c).clerks n) n } := by
  obtain ⟨hmxe, hdrain, -⟩ := hidle
  rw [State.core_issued hexec.core, Core.queueDrn, hmxe, hdrain]
  rfl

theorem State.clerk_issued_drn (hexec : s.Executes c n i) :
    (s.issued c n (Core.queueDrn (s.drnOp c n d r ph ch))).clerk c n =
      { (s.clerk c n).advance 4 with state := .running, parm := 0 } := by
  obtain ⟨-, hc, hn⟩ := hexec
  have hlen : n < (Core.queueDrn (s.drnOp c n d r ph ch) (s.core c)).clerks.length := by
    simpa [Core.queueDrn, State.drnOp] using hn
  have hparm : (Core.queueDrn (s.drnOp c n d r ph ch) (s.core c)).clerks.getD n {} = { s.clerk c n with parm := 0 } :=
    listModify_getD_same hn _
  rw [State.clerk_issued hc hlen, hparm]
  rfl

theorem State.ker_execOf_issued {push : Core → Core} (hc : c < s.cores.length) (hrun : (s.core c).run = some i)
    (hpush : (push (s.core c)).run = some i) : ((s.issued c n push).execOf c).ker = (s.execOf c).ker := by
  have hrun' : ((s.issued c n push).core c).run = some i := (congrArg Core.run (State.core_issued hc)).trans hpush
  obtain ⟨cores, ctr, h⟩ := s.issued_eq (c := c) (n := n) (push := push)
  rw [State.ker_execOf hrun, State.ker_execOf hrun', h]
  rfl

/-- A DRN passes its checks for `i`, what its core runs (R52, R63, R108). -/
structure State.DrnPasses (s : State) (c n d r ch : Nat) (i : Inst) : Prop where
  checks : drnChecks (s.execOf c) (Tile.ofBits ((s.clerk c n).td.getD d 0)) (Tile.ofBits ((s.clerk c n).td.getD r 0))
    ((s.execOf c).ker.chains.getD ch []) (s.clerk c n).parm = none
  channels : s.channelFail i (s.execOf c).ker ((s.execOf c).ker.chains.getD ch []) (bits (s.clerk c n).parm.toNat 31 0)
    (Tile.ofBits ((s.clerk c n).td.getD d 0)).cols = none

variable (h : s.clerkOp c n = some (.drn d r ph ch)) (hidle : (s.core c).unitsIdle) (hrun : (s.core c).run = some i)
  (hpass : s.DrnPasses c n d r ch i)
include h hidle hrun hpass

theorem exec_drn : exec (.drn c n) s = .next ((s.issued c n (Core.queueDrn (s.drnOp c n d r ph ch))).runUnits c) := by
  obtain ⟨hchecks, hchannels⟩ := hpass
  show execDrn c n s = _
  simp only [execDrn, h, State.issueDrn, hrun, hchecks, hchannels, hidle.2.1]
  rfl

theorem exec_drn_queues (hbusy : (s.core c).drain.isSome = true) : ∃ t, exec (.drn c n) s = .next t ∧ Retired c n s t ∧
    OtherCores c s t ∧ t.clerk c n = { (s.clerk c n).advance 4 with state := .running, parm := 0 } ∧
    (t.core c).drainQ = [s.drnOp c n d r ph ch] := by
  obtain ⟨j, hexec⟩ := State.executes_of_clerkOp h
  obtain ⟨-, -, hcour⟩ := id hidle
  obtain ⟨t, ht⟩ : ∃ t, t = s.issued c n (Core.queueDrn (s.drnOp c n d r ph ch)) := ⟨_, rfl⟩
  have hcore := ht ▸ State.core_issued_drn (d := d) (r := r) (ph := ph) (ch := ch) hexec hidle
  have hunits : t.runUnits c = t := State.runUnits_eq
    (State.runLoad_of_none (by rw [hcore]; rfl))
    (State.runMuls_of_none 16 (by rw [hcore]; rfl))
    (State.runDrain_of_running (by rw [hcore]; exact hbusy))
    (fun q hlt => State.runCourier_of_nil 16 (by rw [hcore]; exact hcour q hlt))
  refine ⟨t, ?_, ht ▸ State.retired_issued, ht ▸ OtherCores.issued, ht ▸ State.clerk_issued_drn hexec, by rw [hcore]⟩
  rw [exec_drn h hidle hrun hpass, ← ht, hunits]

theorem exec_drn_begins (hfree : (s.core c).drain = none) (hph : ph < (s.core c).phState.length)
    (hper : chainPerChannel ((s.execOf c).ker.chains.getD ch []) = false)
    (hbias : chainHas ((s.execOf c).ker.chains.getD ch []) 2 = false) : ∃ t, exec (.drn c n) s = .next t ∧
      (t.core c).drainQ = [] ∧ (t.core c).phState.getD ph .free = .drain ∧
      (t.core c).drain = some (s.drnOp c n d r ph ch) ∧
      (t.core c).drainRow = (Tile.ofBits ((s.clerk c n).td.getD d 0)).rows - 1 ∧ OtherCores c s t ∧
      (t.clerk c n).parm = 0 := by
  obtain ⟨j, hexec⟩ := State.executes_of_clerkOp h
  obtain ⟨-, -, hcour⟩ := id hidle
  obtain ⟨u, hu⟩ : ∃ u, u = s.issued c n (Core.queueDrn (s.drnOp c n d r ph ch)) := ⟨_, rfl⟩
  have hcore := hu ▸ State.core_issued_drn (d := d) (r := r) (ph := ph) (ch := ch) hexec hidle
  have hclerk := hu ▸ State.clerk_issued_drn (d := d) (r := r) (ph := ph) (ch := ch) hexec
  have hker : (u.execOf c).ker = (s.execOf c).ker := hu ▸ State.ker_execOf_issued hexec.core hrun hrun
  have hlen : c < u.cores.length := by
    rw [hu, State.issued_cores_length]
    exact hexec.core
  obtain ⟨hother, run, hbegun⟩ := State.core_runDrain (i := i) (d := s.drnOp c n d r ph ch) hlen
    (by rw [hcore]; exact hrun) (by rw [hcore]; exact hfree) (by rw [hcore]) rfl (by rw [hker]; exact hper)
    (by rw [hker]; exact hbias)
  have hcouriers : ((u.runDrain c).core c).courQ = (u.core c).courQ := (congrArg Core.courQ hbegun :)
  have hphs : ((u.runDrain c).core c).phState = (u.core c).phState.set ph .drain := (congrArg Core.phState hbegun :)
  have hclerks : ((u.runDrain c).core c).clerks = (u.core c).clerks := (congrArg Core.clerks hbegun :)
  have hunits : u.runUnits c = u.runDrain c := State.runUnits_eq
    (State.runLoad_of_none (by rw [hcore]; rfl))
    (State.runMuls_of_none 16 (by rw [hcore]; rfl)) rfl
    (fun q hlt => State.runCourier_of_nil 16 (by rw [hcouriers, hcore]; exact hcour q hlt))
  refine ⟨u.runDrain c, ?_, (congrArg Core.drainQ hbegun :), ?_, (congrArg Core.drain hbegun :),
    (congrArg Core.drainRow hbegun :), OtherCores.trans (hu ▸ OtherCores.issued) hother, ?_⟩
  · rw [exec_drn h hidle hrun hpass, ← hu, hunits]
  · rw [hphs, hcore]
    exact getD_set_same hph _ _
  · have hsame : (u.runDrain c).clerk c n = u.clerk c n := by rw [State.clerk, State.clerk, hclerks]
    rw [hsame, hclerk]

end Drn

/-! ### CRR -/

section Crr
variable {s : State} {c n d a q m k : Nat} {i : Inst} {l : List CourOp}

/-- A CRR joins courier `q`'s queue (R463). -/
def Core.queueCrr (q : Nat) (o : CourOp) (k : Core) : Core :=
  { k with courQ := k.courQ.set q (k.courQ.getD q [] ++ [o]) }

theorem queueFull_of_lt {α : Type} {l : List α} (h : l.length < 16) : queueFull l = false :=
  decide_eq_false (not_le.mpr h)

/-- Behind a walk request a CRR queues: neither its courier nor another one moves (R62). -/
theorem exec_crr_queues (h : s.clerkOp c n = some (.crr d a q)) (hmxe : (s.core c).mxeQ = [])
    (hdrain : (s.core c).drainQ = []) (hcour : ∀ j, j < 4 → j ≠ q → (s.core c).courQ.getD j [] = [])
    (hq : q < (s.core c).courQ.length) (hwalk : (s.core c).courQ.getD q [] = .walk m k :: l) (hroom : l.length < 16)
    (hrun : (s.core c).run = some i) (hpass : s.crrChecks i (s.execOf c) (Tile.ofBits ((s.clerk c n).td.getD d 0))
      (Tile.ofBits ((s.clerk c n).td.getD a 0)) = none) : ∃ t, exec (.crr c n) s = .next t ∧ Retired c n s t ∧
      OtherCores c s t ∧ t.clerk c n = { (s.clerk c n).advance 4 with state := .running } ∧
      { t.core c with clerks := [] } = { s.core c with
        clerks := []
        courQ := (s.core c).courQ.set q (.walk m k :: l ++
          [.crr n ((s.clerk c n).td.getD d 0) ((s.clerk c n).td.getD a 0)]) } := by
  obtain ⟨j, hexec⟩ := State.executes_of_clerkOp h
  obtain ⟨o, ho⟩ : ∃ o : CourOp, o = .crr n ((s.clerk c n).td.getD d 0) ((s.clerk c n).td.getD a 0) := ⟨_, rfl⟩
  obtain ⟨t, ht⟩ : ∃ t, t = s.issued c n (Core.queueCrr q o) := ⟨_, rfl⟩
  have hfull : queueFull ((CourOp.walk m k :: l).filter CourOp.isCrr) = false :=
    queueFull_of_lt ((List.length_filter_le CourOp.isCrr l).trans_lt hroom)
  have hexecCrr : exec (.crr c n) s = .next (t.runUnits c) := by
    show execCrr c n s = _
    simp only [execCrr, h, State.issueCrr, hrun, hpass, hwalk, hfull]
    rw [ht, ho]
    rfl
  have hcore : t.core c = { s.core c with
      courQ := (s.core c).courQ.set q (.walk m k :: l ++ [o])
      clerks := listModify (fun q => { (q.advance 4) with state := .running }) (s.core c).clerks n } := by
    rw [ht, State.core_issued hexec.core, Core.queueCrr, hwalk]
  have hcouriers : ∀ p, p < 4 → State.runCourier 16 t c p = t := by
    intro p hp
    by_cases hpq : p = q
    · subst hpq
      refine State.runCourier_of_walk (m := m) (k := k) (l := l ++ [o]) ?_
      rw [hcore]
      exact getD_set_same hq _ _
    · refine State.runCourier_of_nil 16 ?_
      rw [hcore]
      refine Eq.trans ?_ (hcour p hp hpq)
      simp [List.getD_eq_getElem?_getD, List.getElem?_set_ne (Ne.symm hpq)]
  have hunits : t.runUnits c = t := State.runUnits_eq
    (State.runLoad_of_none (by rw [hcore]; exact congrArg (takeFirst _) hmxe))
    (State.runMuls_of_none 16 (by rw [hcore]; exact congrArg (takeFirst _) hmxe))
    (State.runDrain_of_nil (by rw [hcore]; exact hdrain)) hcouriers
  refine ⟨t, by rw [hexecCrr, hunits], ht ▸ State.retired_issued, ht ▸ OtherCores.issued,
    ht ▸ State.clerk_issued_of_clerks hexec rfl, ?_⟩
  rw [hcore, ho]

end Crr

/-- Settles O24: each operation is issued; the units then run, and each is stopped or takes the one operation queued. -/
theorem unitOperationsIssue : Obligations.UnitOperationsIssue := by
  refine ⟨fun s c n td w i h hidle hrun hw => ⟨fun hpass => ⟨exec_mxwl_queues h hidle hrun hw hpass,
      exec_mxwl_begins h hidle hrun hw hpass⟩, fun f => exec_mxwl_fails h hidle hrun hw⟩,
    fun s c n td ph ai ax sw i h hidle hrun hph hpass => ⟨exec_mxmul_queues h hidle hpass, fun hsw => ?_⟩,
    fun s c n d r ph ch i x ws dest h hidle hrun hx hws hdest hchecks hchan => ?_,
    fun s c n d a q m k i l h hmxe hdrain hcour hq hwalk hroom hrun hpass =>
      exec_crr_queues h hmxe hdrain hcour hq hwalk hroom hrun hpass⟩
  · subst hsw
    exact exec_mxmul_broadcasts h hidle hrun hph hpass
  · subst hx hws hdest
    have hpass : s.DrnPasses c n d r ch i := ⟨hchecks, hchan⟩
    exact ⟨exec_drn_queues h hidle hrun hpass,
      fun hfree hper hbias hph => exec_drn_begins h hidle hrun hpass hfree hph hper hbias⟩

end Sys2Proof.Machine
end

section
/-! INSTANCE_PLACE (R104, R118, R262, R264): what the issue of a kernel's run leaves of its core and its item. -/

namespace Sys2Proof.Machine

-- one theorem after the other: proofs that wait together take too many threads
set_option Elab.async false

/-! ### Kernel lists -/

section Lists
variable {s t : State}

/-- The kernel list of a run depends on its item's own list and on the streams' groups. -/
theorem State.listOf_congr (x : Inst) (hi : (t.item? x.item).map Item.list = (s.item? x.item).map Item.list)
    (hg : ∀ n, t.groupOf n = s.groupOf n) : t.listOf x = s.listOf x := by
  unfold State.listOf
  cases ht : t.item? x.item with
  | none =>
    have hs : s.item? x.item = none := by simpa [ht] using hi.symm
    cases x.list <;> cases x.stream <;> simp only [hs, hg]
  | some i =>
    obtain ⟨j, hs, hl⟩ : ∃ j, s.item? x.item = some j ∧ j.list = i.list := by simpa [ht] using hi.symm
    cases x.list <;> cases x.stream <;> simp only [hs, hl, hg]

theorem State.listOf_of_parts (hi : t.items = s.items) (hp : t.places = s.places) (hg : t.groups = s.groups) (x : Inst) :
    t.listOf x = s.listOf x :=
  State.listOf_congr x (by rw [State.item?_of_items hi])
    fun n => State.groupOf_of_place? (State.place?_of_places hp n) hg

theorem State.instCost_of_parts (hi : t.items = s.items) (hp : t.places = s.places) (hg : t.groups = s.groups)
    (x : Inst) : t.instCost x = s.instCost x := by
  rw [State.instCost, State.instCost, State.listOf_of_parts hi hp hg]

end Lists

/-! ### Issue to a core's queue -/

section Issue
variable {s : State} {c id : Nat} {i : Item} {x : Inst} {v front : Bool}

/-- The core with one run more in its queue: the next of a chain in front, any other at the end. -/
def Core.enqueue (k : Core) (x : Inst) (front : Bool) : Core :=
  { k with queue := if front then x :: k.queue else k.queue ++ [x] }

theorem State.issueOn_cores (s : State) (i : Item) (x : Inst) (c : Nat) (v front : Bool) :
    (s.issueOn i x c v front).cores =
      (s.modCore c (fun k => k.enqueue { x with variant := v, cost := s.instCost x } front)).cores := by
  simp only [State.issueOn, State.markStarted, State.modItem, State.bump_cores]
  rfl

theorem State.core_issueOn (hc : c < s.cores.length) : (s.issueOn i x c v front).core c =
    (s.core c).enqueue { x with variant := v, cost := s.instCost x } front :=
  (State.core_of_cores (s.issueOn_cores i x c v front) c).trans (State.core_modCore_same hc _)

theorem OtherCores.issueOn (s : State) (i : Item) (x : Inst) (c : Nat) (v front : Bool) :
    OtherCores c s (s.issueOn i x c v front) :=
  (OtherCores.modCore (.refl c s) _).trans (.of_cores (s.issueOn_cores i x c v front))

/-- An item is STARTED once one of its instances is issued (R258). -/
theorem State.item?_issueOn (hi : s.item? i.id = some i) (hd : i.disp = none) :
    (s.issueOn i x c v front).item? i.id = some { i with state := .started } := by
  have hmark : (s.issueOn i x c v front).item? i.id =
      some { i with state := if i.disp.isNone then .started else i.state } :=
    State.item?_modItem_same (by simpa using hi)
  rw [hmark, hd]
  rfl

/-- Counting the cores passed over reaches the counters alone. -/
theorem State.frame_countSkips (s : State) (l : List Nat) : Frame [.ctr] s (s.countSkips l) :=
  (State.countSkips_leads .refl (List.Subset.refl _)).frame

theorem State.frame_takeGang (s : State) (i : Item) : Frame [.ctr, .gang] s (s.takeGang i) :=
  (State.takeGang_leads .refl (List.Subset.refl _)).frame

/-- The state in which a run outside a chain is issued reads as the state before, but for counters and gang mode. -/
theorem State.beforeIssue_parts (s : State) (l : List Nat) (i : Item) :
    ((s.countSkips l).takeGang i).cores = s.cores ∧ ((s.countSkips l).takeGang i).items = s.items ∧
      ∀ x, ((s.countSkips l).takeGang i).instCost x = s.instCost x := by
  have hs := s.frame_countSkips l
  have hg := (s.countSkips l).frame_takeGang i
  have hitems := (hg.items (by decide)).trans (hs.items (by decide))
  exact ⟨(hg.cores (by decide)).trans (hs.cores (by decide)), hitems,
    State.instCost_of_parts hitems ((hg.places (by decide)).trans (hs.places (by decide)))
      ((hg.groups (by decide)).trans (hs.groups (by decide)))⟩

/-- R118 step 4: with no core that holds enough pigeonholes the item fails. -/
theorem State.item?_acmShort (hi : s.item? i.id = some i) (hd : i.disp = none) (l : List Nat) (x : Inst) :
    ∃ j f, ((s.countSkips l).acmShort i x).item? i.id = some j ∧ j.disp = some (.failed f) ∧ f.reason = .acmShort := by
  have hitems := (s.frame_countSkips l).items (by decide)
  obtain ⟨j, hj, hfate⟩ := State.item?_failItem (s := (s.countSkips l).bump .disp ((s.countSkips l).homeOf i) 4 1)
    (by rwa [State.item?_bump, State.item?_of_items hitems]) hd ((s.countSkips l).failOf x { reason := .acmShort })
  exact ⟨j, _, hj, congrArg Prod.fst hfate, rfl⟩

end Issue

/-! ### INSTANCE_PLACE -/

section Place
variable {s : State} {id k c : Nat} {i : Item} {x : Inst} {e : KEntry} {v : Bool} {sk : List Nat}

/-- The outcome of R118 for the next run outside a chain, over the placement order of R262. -/
def State.choice (s : State) (i : Item) (x : Inst) (e : KEntry) : PlaceRes :=
  s.choose x e (s.placeOrder i x) (fun c => (s.core c).accepts && (!(s.gangSet || s.gangItem.isSome) || (s.core c).bare))

/-- An entry once its next run is placed: one taken off a queue before, or the next index. -/
def Entry.placedNext (e : Entry) : Entry :=
  { e with placed := if e.again.isEmpty then e.placed + 1 else e.placed, again := e.again.drop 1 }

theorem State.placeNext_of_on (hx : s.kentry? x = some e) (hon : s.choice i x e = .on c v sk) : s.placeNext i k x =
    (((s.countSkips sk).takeGang i).issueOn i x c v false).modEntry i.id k Entry.placedNext := by
  rw [State.choice] at hon
  simp only [State.placeNext, hx, hon]
  rfl

theorem State.placeNext_of_short (hx : s.kentry? x = some e) (h : s.choice i x e = .short sk) :
    s.placeNext i k x = (s.countSkips sk).acmShort i x := by
  rw [State.choice] at h
  simp only [State.placeNext, hx, h]

theorem State.placeNext_of_wait (hx : s.kentry? x = some e) (h : s.choice i x e = .wait) : s.placeNext i k x = s := by
  rw [State.choice] at h
  simp only [State.placeNext, hx, h]

theorem State.placeChain_of_on (hx : s.kentry? x = some e) (hon : s.choose x e [c] (fun _ => true) = .on c v sk) :
    s.placeChain i c x = (s.countSkips sk).issueOn i x c v true := by
  simp only [State.placeChain, hx, hon]

variable (hi : s.item? id = some i) (hd : i.disp = none) (htook : i.took = true) (hpos : i.pos = s.pos)
  (hk : k < i.entries.length) (hst : (i.entry k).st = .running) (hgang : s.gangAllows i = true)
include hi hd htook hpos hk hst hgang

theorem exec_instancePlace_next (hchain : s.chainOf id k = none) (hx : s.nextInst i k = some x) :
    exec (.instancePlace id k) s = .next (s.placeNext i k x) := by
  show execInstancePlace id k s = _
  simp [execInstancePlace, hi, hd, htook, hpos, hst, hgang, hchain, hx, Nat.not_le.mpr hk]

theorem exec_instancePlace_chain (hchain : s.chainOf id k = some (c, x)) :
    exec (.instancePlace id k) s = .next (s.placeChain i c x) := by
  show execInstancePlace id k s = _
  simp [execInstancePlace, hi, hd, htook, hpos, hst, hgang, hchain, Nat.not_le.mpr hk]

theorem exec_instancePlace_on (hchain : s.chainOf id k = none) (hx : s.nextInst i k = some x) (he : s.kentry? x = some e)
    (hc : c < s.cores.length) (hon : s.choice i x e = .on c v sk) :
    ∃ t j, exec (.instancePlace id k) s = .next t ∧ OtherCores c s t ∧ t.core c = { s.core c with
      queue := (s.core c).queue ++ [{ x with variant := v, cost := s.instCost x }] } ∧
      t.item? id = some j ∧ j.state = .started ∧ j.disp = none ∧
      ((i.entry k).again = [] → (j.entry k).placed = (i.entry k).placed + 1) ∧
      ((i.entry k).again ≠ [] → (j.entry k).again = (i.entry k).again.drop 1) := by
  obtain rfl := State.item?_id hi
  obtain ⟨u, hu⟩ : ∃ u, u = (s.countSkips sk).takeGang i := ⟨_, rfl⟩
  obtain ⟨hcores, hitems, hcost⟩ := hu ▸ s.beforeIssue_parts sk i
  have hitem := State.item?_issueOn (x := x) (c := c) (v := v) (front := false)
    ((State.item?_of_items hitems _).trans hi) hd
  have hentry := Item.entry_modEntry_same (i := { i with state := .started }) (k := k)
    (f := Entry.placedNext) hk
  refine ⟨_, ({ i with state := .started } : Item).modEntry k Entry.placedNext,
    exec_instancePlace_next hi hd htook hpos hk hst hgang hchain hx, ?_⟩
  rw [State.placeNext_of_on he hon, ← hu]
  refine ⟨(OtherCores.of_cores hcores).trans (OtherCores.issueOn u i x c v false), ?_, State.item?_modEntry_same hitem,
    rfl, hd, fun hag => ?_, fun _ => ?_⟩
  · rw [State.core_modEntry, State.core_issueOn (hcores ▸ hc), State.core_of_cores hcores, hcost]
    rfl
  · rw [hentry]
    exact if_pos (List.isEmpty_iff.mpr hag)
  · rw [hentry]
    rfl

theorem exec_instancePlace_short (hchain : s.chainOf id k = none) (hx : s.nextInst i k = some x)
    (he : s.kentry? x = some e) (hshort : s.choice i x e = .short sk) :
    ∃ t j f, exec (.instancePlace id k) s = .next t ∧ t.item? id = some j ∧ j.disp = some (.failed f) ∧
      f.reason = .acmShort := by
  obtain ⟨j, f, hj, hdisp, hf⟩ := State.item?_acmShort ((State.item?_id hi).symm ▸ hi) hd sk x
  refine ⟨_, j, f, exec_instancePlace_next hi hd htook hpos hk hst hgang hchain hx, ?_, hdisp, hf⟩
  rw [State.placeNext_of_short he hshort, ← State.item?_id hi]
  exact hj

theorem exec_instancePlace_wait (hchain : s.chainOf id k = none) (hx : s.nextInst i k = some x)
    (he : s.kentry? x = some e) (hwait : s.choice i x e = .wait) : exec (.instancePlace id k) s = .next s := by
  rw [exec_instancePlace_next hi hd htook hpos hk hst hgang hchain hx, State.placeNext_of_wait he hwait]

theorem exec_instancePlace_chained (hchain : s.chainOf id k = some (c, x)) (hc : c < s.cores.length)
    (he : s.kentry? x = some e) (hon : s.choose x e [c] (fun _ => true) = .on c v sk) :
    ∃ t, exec (.instancePlace id k) s = .next t ∧ OtherCores c s t ∧
      t.core c = { s.core c with queue := { x with variant := v, cost := s.instCost x } :: (s.core c).queue } := by
  have hskip := s.frame_countSkips sk
  have hcores := hskip.cores (by decide)
  have hcost := State.instCost_of_parts (hskip.items (by decide)) (hskip.places (by decide)) (hskip.groups (by decide)) x
  refine ⟨_, exec_instancePlace_chain hi hd htook hpos hk hst hgang hchain, ?_⟩
  rw [State.placeChain_of_on he hon]
  refine ⟨(OtherCores.of_cores hcores).trans (.issueOn _ i x c v true), ?_⟩
  rw [State.core_issueOn (hcores ▸ hc), State.core_of_cores hcores, hcost]
  rfl

end Place

end Sys2Proof.Machine
end

section
/-! INSTANCE_START (R50, R103, R263, R464): the core and its clerks as a kernel's run finds them. -/

namespace Sys2Proof.Machine

-- one theorem after the other: proofs that wait together take too many threads
set_option Elab.async false

/-! ### Cycles charged to a box (R445) -/

section Charges
variable (s : State) (c b n : Nat)

theorem State.otherCounters_chargeBox :
    OtherCounters [ctrKey .cnt c b, ctrKey .box b 5, ctrKey .ctl c 1] s (s.chargeBox c b n) := by
  have hbumps : OtherCounters [ctrKey .cnt c b, ctrKey .box b 5, ctrKey .ctl c 1] s
      (((s.bump .cnt c b n).bump .box b 5 n).bump .ctl c 1 n) :=
    .bump (.bump (.bump (.refl _ s) (by simp) n) (by simp) n) (by simp) n
  exact hbumps.trans (.of_ctr rfl)

theorem State.frame_chargeBox : Frame [.ctr, .boxes] s (s.chargeBox c b n) :=
  (State.chargeBox_leads .refl (List.Subset.refl _)).frame

/-- A dispatcher's counter is none of those that a charge advances. -/
theorem dispKey_notMem_charge {c b m : Nat} (hc : c < 68) (hm : m < 16) :
    ctrKey .disp (coreDie c) m ∉ [ctrKey .cnt c b, ctrKey .box b 5, ctrKey .ctl c 1] := by
  simp only [List.mem_cons, List.not_mem_nil, or_false, ctrKey, Pg.base, coreDie]
  omega

end Charges

/-! ### Before the start: pigeonholes and the box switch (R50, R263) -/

section Before
variable {β : Type} {v : Core → β} {s t : State} {c b : Nat}

theorem CoresAgree.modCore {f : Core → Core} (h : CoresAgree v s t) (c : Nat) (hv : ∀ k, v (f k) = v k) :
    CoresAgree v s (t.modCore c f) := by
  refine h.trans ⟨State.cores_length_modCore .., fun d => ?_⟩
  rw [State.core_modCore]
  split
  · exact hv _
  · rfl

theorem CoresAgree.freePigeonholes (hv : ∀ k ph, v { k with ph := ph } = v k) (s : State) (c b : Nat) :
    CoresAgree v s (s.freePigeonholes c b) := by
  unfold State.freePigeonholes
  split
  · exact (CoresAgree.modCore (.of_cores rfl) c fun k => hv k _).trans (.of_cores rfl)
  · exact .refl s

theorem OtherCores.freePigeonholes (s : State) (c b : Nat) : OtherCores c s (s.freePigeonholes c b) := by
  unfold State.freePigeonholes
  split
  · exact (OtherCores.modCore (.of_cores rfl) _).trans (.of_cores rfl)
  · exact .refl c s

theorem State.frame_freePigeonholes (s : State) (c b : Nat) : Frame [.freeCount, .cores] s (s.freePigeonholes c b) :=
  (State.freePigeonholes_leads .refl (List.Subset.refl _)).frame

theorem State.boxSwitch_of_same (h : (s.core c).lastBox = some b) : s.boxSwitch c b = s := if_pos h

/-- The core after a box switch. -/
def Core.switchedTo (k : Core) (b : Nat) : Core := { k.switchBox with lastBox := some b }

theorem State.boxSwitch_of_other (h : (s.core c).lastBox ≠ some b) : s.boxSwitch c b =
    (((s.modCore c (·.switchedTo b)).chargeBox c b 4200).bump .disp (coreDie c) 9 1).changed .mxe c := if_neg h

theorem State.boxSwitch_cores (h : (s.core c).lastBox ≠ some b) :
    (s.boxSwitch c b).cores = (s.modCore c (·.switchedTo b)).cores := by
  rw [State.boxSwitch_of_other h, State.changed_eq, State.orReg_cores, State.bump_cores]
  exact ((s.modCore c (·.switchedTo b)).frame_chargeBox c b 4200).cores (by decide)

theorem State.lastBox_boxSwitch (hc : c < s.cores.length) : ((s.boxSwitch c b).core c).lastBox = some b := by
  by_cases h : (s.core c).lastBox = some b
  · rw [State.boxSwitch_of_same h, h]
  · rw [State.core_of_cores (State.boxSwitch_cores h), State.core_modCore_same hc]
    rfl

theorem OtherCores.boxSwitch (s : State) (c b : Nat) : OtherCores c s (s.boxSwitch c b) := by
  by_cases h : (s.core c).lastBox = some b
  · rw [State.boxSwitch_of_same h]
    exact .refl c s
  · exact (OtherCores.modCore (.refl c s) _).trans (.of_cores (State.boxSwitch_cores h))

/-- The state of a core, and how many clerks it has. -/
def Core.stage (k : Core) : CoreSt × Nat := (k.state, k.clerks.length)

theorem CoresAgree.boxSwitch (s : State) (c b : Nat) : CoresAgree Core.stage s (s.boxSwitch c b) := by
  by_cases h : (s.core c).lastBox = some b
  · rw [State.boxSwitch_of_same h]
    exact .refl s
  · refine (CoresAgree.modCore (.refl s) c fun k => ?_).trans (.of_cores (State.boxSwitch_cores h))
    exact congrArg (k.state, ·) (List.length_map ..)

theorem OtherRegs.boxSwitch (s : State) (c b : Nat) : OtherRegs [regAddr .mxe c Reg.intStat] s (s.boxSwitch c b) := by
  by_cases h : (s.core c).lastBox = some b
  · rw [State.boxSwitch_of_same h]
    exact .of_regs rfl
  · rw [State.boxSwitch_of_other h]
    exact State.otherRegs_intStat_changed .mxe c
      ((State.bump_regs ..).trans (((s.modCore c (·.switchedTo b)).frame_chargeBox c b 4200).regs (by decide)))

/-- A box switch counts once in the dispatcher of its die. -/
theorem State.live_boxSwitch (hc : c < 68) (h : (s.core c).lastBox ≠ some b) :
    (s.boxSwitch c b).live .disp (coreDie c) 9 = s.counted .disp (coreDie c) 9 1 := by
  have hcharge := (s.modCore c (·.switchedTo b)).frame_chargeBox c b 4200
  have hother := (s.modCore c (·.switchedTo b)).otherCounters_chargeBox c b 4200
  rw [State.boxSwitch_of_other h, State.changed_eq, State.live_orReg, State.live_bump]
  exact State.counted_eq (State.frozen_of_regs (hcharge.regs (by decide)) ..)
    (hother.live (dispKey_notMem_charge hc (by decide))) 1

end Before

/-! ### The clerks as a run begins (R103, R464) -/

section Begin
variable {q : Clerk} {n : Nat} {x : Inst} {ker : Kernel} {k : Core}

theorem Store.getRun_setRun_append {w : Nat} (m : Store w) (k : Nat) (vs ws : List (BitVec w)) :
    (m.setRun k (vs ++ ws)).getRun k vs.length = vs := by
  refine List.ext_getElem (by simp [Store.getRun]) fun i _ hi => ?_
  have hlt : i < vs.length + ws.length := by omega
  simp [Store.getRun, Store.get_setRun, List.getD_eq_getElem?_getD, hi, hlt]

theorem Clerk.begin_dmem (q : Clerk) (n : Nat) (x : Inst) (ker : Kernel) :
    (q.begin n x ker).dmem = q.dmem.setRun 0 (leBytes 64 x.block ++ ker.data) := by
  unfold Clerk.begin
  dsimp only
  split <;> rfl

/-- The block of R103 stands at the start of data memory. -/
theorem Clerk.begin_block (q : Clerk) (n : Nat) (x : Inst) (ker : Kernel) :
    (q.begin n x ker).dmem.getRun 0 64 = leBytes 64 x.block := by
  have h := q.dmem.getRun_setRun_append 0 (leBytes 64 x.block) ker.data
  rwa [leBytes_length, ← Clerk.begin_dmem q n] at h

theorem Clerk.getX_of_zeros (hq : q.x = List.replicate 31 0) (r : Nat) : q.getX r = 0 := by
  unfold Clerk.getX
  split
  · rfl
  · rw [hq, List.getD_eq_getElem?_getD, List.getElem?_replicate]
    split <;> rfl

theorem Clerk.begin_masked (h : bit ker.clerkMask n = true) : (q.begin n x ker).state = .running ∧
    (q.begin n x ker).pc = BitVec.ofNat 64 (0x20000000 + ker.clerkEntry.getD n 0) ∧
    ∀ r, (q.begin n x ker).getX r = 0 := by
  unfold Clerk.begin
  dsimp only
  rw [if_pos h]
  exact ⟨rfl, rfl, Clerk.getX_of_zeros rfl⟩

theorem Clerk.begin_unmasked (h : bit ker.clerkMask n = false) : (q.begin n x ker).state = .idle := by
  unfold Clerk.begin
  dsimp only
  rw [if_neg (by simp [h])]

theorem Core.clerks_beginRun (hn : n < k.clerks.length) :
    (k.beginRun x ker).clerks.getD n {} = (k.clerks.getD n {}).begin n x ker := by
  simp [Core.beginRun, List.getD_eq_getElem?_getD, hn]

end Begin

/-! ### INSTANCE_START -/

section Start
variable {s : State} {c n : Nat} {i : Item} {x : Inst} {ker : Kernel}

/-- The state in which a run begins: the pigeonholes drawn, and the box switch made. -/
def State.readied (s : State) (c b : Nat) : State := (s.freePigeonholes c b).boxSwitch c b

theorem State.readied_stage (s : State) (c b : Nat) : CoresAgree Core.stage s (s.readied c b) :=
  (CoresAgree.freePigeonholes (fun _ _ => rfl) s c b).trans (.boxSwitch ..)

/-- The state in which core `c` has begun run `y` of item `id`. -/
def State.began (s : State) (c id : Nat) (y : Inst) (ker : Kernel) : State :=
  (((s.modCore c (·.beginRun y ker)).markBegun y c).markStarted id).changed .ctl c

theorem State.core_began (hc : c < s.cores.length) (id : Nat) (y : Inst) (ker : Kernel) :
    (s.began c id y ker).core c = (s.core c).beginRun y ker := by
  simp only [State.began, State.core_changed, State.markStarted, State.markBegun, State.core_modItem, State.core_modEntry]
  exact State.core_modCore_same hc _

theorem OtherCores.began (s : State) (c id : Nat) (y : Inst) (ker : Kernel) : OtherCores c s (s.began c id y ker) :=
  (OtherCores.modCore (.refl c s) (·.beginRun y ker)).trans (.of_cores rfl)

@[simp] theorem State.live_began (s : State) (c id : Nat) (y : Inst) (ker : Kernel) (p : Pg) (d m : Nat) :
    (s.began c id y ker).live p d m = s.live p d m := rfl

theorem State.intRaised_began (s : State) (c id : Nat) (y : Inst) (ker : Kernel) :
    IntRaised .ctl c 0x100 s (s.began c id y ker) := State.intRaised_changed .ctl c rfl

/-- A run that needs no state begins at once. -/
theorem State.startInst_of_stateless (h : ker.usesState = false ∨ x.stream = none) (s : State) (c : Nat) (i : Item) :
    s.startInst c i x ker = (s.readied c x.box).began c i.id
      { x with start := (s.readied c x.box).time.t, poison := none } ker := by
  unfold State.startInst
  rcases h with h | h
  · simp only [h]
    rfl
  · cases hu : ker.usesState <;> simp only [h] <;> rfl

theorem exec_instanceStart_eq (hmay : (s.core c).mayStart = true) (hhead : s.queueHead c = some x)
    (hi : s.item? x.item = some i) (hker : s.kernelOf x = some ker) :
    exec (.instanceStart c) s = .next (s.startInst c i x ker) := by
  show execInstanceStart c s = _
  simp only [execInstanceStart, hmay, hhead, hi, hker]
  rfl

theorem State.readied_time (s : State) (c b : Nat) : (s.readied c b).time = s.time :=
  ((State.boxSwitch_leads .refl (List.Subset.refl _)).frame.time (by decide)).trans
    ((s.frame_freePigeonholes c b).time (by decide))

/-- What a run of kernel `ker` finds when it begins on core `c` (R103, R464). -/
structure Core.Begun (k : Core) (x : Inst) (ker : Kernel) : Prop where
  run : k.run = some x
  chain : k.chain = none
  mxeQ : k.mxeQ = []
  phState : k.phState = List.replicate 8 .free
  masked : ∀ n, n < 4 → bit ker.clerkMask n = true → (k.clerks.getD n {}).state = .running ∧
    (k.clerks.getD n {}).pc = BitVec.ofNat 64 (0x20000000 + ker.clerkEntry.getD n 0) ∧
    ∀ r, (k.clerks.getD n {}).getX r = 0
  unmasked : ∀ n, n < 4 → bit ker.clerkMask n = false → (k.clerks.getD n {}).state = .idle
  block : ∀ n, n < 4 → (k.clerks.getD n {}).dmem.getRun 0 64 = leBytes 64 x.block

theorem Core.begun_beginRun {k : Core} (hlen : k.clerks.length = 4) (x : Inst) (ker : Kernel) :
    (k.beginRun x ker).Begun x ker where
  run := rfl
  chain := rfl
  mxeQ := rfl
  phState := rfl
  masked _ hn h := Core.clerks_beginRun (hlen ▸ hn) ▸ Clerk.begin_masked h
  unmasked _ hn h := Core.clerks_beginRun (hlen ▸ hn) ▸ Clerk.begin_unmasked h
  block _ hn := Core.clerks_beginRun (hlen ▸ hn) ▸ Clerk.begin_block ..

theorem exec_instanceStart_stateless (hshape : s.Shape) (hc : c < 68) (hmay : (s.core c).mayStart = true)
    (hhead : s.queueHead c = some x) (hi : s.item? x.item = some i) (hker : s.kernelOf x = some ker)
    (hstate : ker.usesState = false ∨ x.stream = none) : ∃ t, exec (.instanceStart c) s = .next t ∧ OtherCores c s t ∧
      (t.core c).Begun { x with start := s.time.t, poison := none } ker ∧ (t.core c).lastBox = some x.box ∧
      ((s.core c).state = .idle → (t.core c).state = .running) ∧
      ((s.core c).lastBox ≠ some x.box → t.live .disp (coreDie c) 9 = s.counted .disp (coreDie c) 9 1) ∧
      IntRaised .ctl c 0x100 s t := by
  obtain ⟨u, hu⟩ : ∃ u, u = s.readied c x.box := ⟨_, rfl⟩
  obtain ⟨hlen, hstage⟩ := hu ▸ s.readied_stage c x.box
  obtain ⟨hst, hclerks⟩ := Prod.mk.inj (hstage c)
  have hcs : c < s.cores.length := hshape.1 ▸ hc
  have hcu : c < u.cores.length := hlen ▸ hcs
  have hfree := s.frame_freePigeonholes c x.box
  obtain ⟨hfreeLen, hfreeBox⟩ := CoresAgree.freePigeonholes (v := Core.lastBox) (fun _ _ => rfl) s c x.box
  refine ⟨_, exec_instanceStart_eq hmay hhead hi hker, ?_⟩
  have htime : u.time = s.time := by rw [hu, State.readied_time]
  rw [State.startInst_of_stateless hstate, ← hu, htime]
  obtain ⟨y, hy⟩ : ∃ y, y = { x with start := s.time.t, poison := none } := ⟨_, rfl⟩
  rw [← hy]
  rw [State.core_began hcu]
  refine ⟨?_, ?_, ?_, fun hidle => ?_, fun hbox => ?_, ?_⟩
  · rw [hu]
    exact ((OtherCores.freePigeonholes s c x.box).trans (.boxSwitch _ c x.box)).trans (.began _ c i.id y ker)
  · exact Core.begun_beginRun (hclerks.trans (State.core_shape (c := c) hshape).1) y ker
  · rw [hu]
    exact State.lastBox_boxSwitch (hfreeLen ▸ hcs)
  · exact if_pos (hst.trans hidle)
  · have hcount := State.live_boxSwitch (s := s.freePigeonholes c x.box) (b := x.box) hc (by rwa [hfreeBox])
    rw [State.live_began, hu, State.readied, hcount]
    exact State.counted_eq (State.frozen_of_regs (hfree.regs (by decide)) ..)
      (State.live_of_ctr (hfree.ctr (by decide)) ..) 1
  · have hreg : u.reg (regAddr .ctl c Reg.intStat) = s.reg (regAddr .ctl c Reg.intStat) := by
      rw [hu, State.readied]
      refine (OtherRegs.boxSwitch (s.freePigeonholes c x.box) c x.box _ ?_).trans
        (State.reg_of_regs (hfree.regs (by decide)) _)
      simp only [List.mem_singleton, regAddr, Pg.base]
      omega
    rw [IntRaised, ← hreg]
    exact u.intRaised_began c i.id y ker

end Start

end Sys2Proof.Machine
end

section
/-! INSTANCE_STEAL (R258), and the placing, start and stealing of instances together. -/

namespace Sys2Proof.Machine

-- one theorem after the other: proofs that wait together take too many threads
set_option Elab.async false

section Steal
variable {s : State} {c d : Nat} {x : Inst}

/-- What an idle core takes: the earliest of its die's queues, or failing that of another die's (R258). -/
def State.stolen (s : State) (c : Nat) : Option (Nat × Inst) :=
  (pickFirst (fun (a b : Nat × Inst) => s.instBefore a.2 b.2) (s.stealable c true)).or
    (pickFirst (fun (a b : Nat × Inst) => s.instBefore a.2 b.2) (s.stealable c false))

/-- The state in which core `c` has taken `x` off the queue of core `d`. -/
def State.movedInst (s : State) (c d : Nat) (x : Inst) : State :=
  (s.modCore d (fun k => { k with queue := k.queue.filter (fun y => y != x) })).modCore c
    (fun k => { k with queue := [{ x with variant := (s.mayTakeInst c x).getD false }] })

theorem exec_instanceSteal_eq (hidle : (s.core c).state = .idle) (hacc : (s.core c).accepts = true)
    (hbare : (s.core c).bare = true) (hx : s.stolen c = some (d, x)) :
    exec (.instanceSteal c) s = .next ((s.movedInst c d x).bump .disp (coreDie c) 10 1) := by
  rw [State.stolen] at hx
  show execInstanceSteal c s = _
  simp only [execInstanceSteal, hidle, hacc, hbare, hx]
  rfl

theorem exec_instanceSteal_takes (hc : c < s.cores.length) (hd : d < s.cores.length) (hdc : d ≠ c)
    (hidle : (s.core c).state = .idle) (hacc : (s.core c).accepts = true) (hbare : (s.core c).bare = true)
    (hx : s.stolen c = some (d, x)) : ∃ t, exec (.instanceSteal c) s = .next t ∧
      (t.core c).queue = [{ x with variant := (s.mayTakeInst c x).getD false }] ∧
      (t.core d).queue = (s.core d).queue.filter (fun y => y != x) ∧ (∀ n, n ≠ c → n ≠ d → t.core n = s.core n) ∧
      t.items = s.items ∧ t.live .disp (coreDie c) 10 = s.counted .disp (coreDie c) 10 1 := by
  have hc' : c < (s.modCore d (fun k => { k with queue := k.queue.filter (fun y => y != x) })).cores.length := by
    rwa [State.cores_length_modCore]
  refine ⟨_, exec_instanceSteal_eq hidle hacc hbare hx, ?_, ?_, fun n hnc hnd => ?_, State.bump_items ..,
    State.live_bump (s.movedInst c d x) .disp (coreDie c) 10 1⟩ <;> rw [State.core_bump, State.movedInst]
  · rw [State.core_modCore_same hc']
  · rw [State.core_modCore_ne hdc, State.core_modCore_same hd]
  · rw [State.core_modCore_ne hnc, State.core_modCore_ne hnd]

end Steal

/-- Settles O20: each outcome of R118 by the issue it makes; a start by the core it leaves begun; a steal by the two
queues it changes. -/
theorem instancesArePlacedStartedAndStolen : Obligations.InstancesArePlacedStartedAndStolen := by
  refine ⟨fun s id k i x e hi hd htook hpos hk hst hgang hchain hx he =>
      ⟨fun c v sk hc hon => exec_instancePlace_on hi hd htook hpos hk hst hgang hchain hx he hc hon,
        fun sk hshort => exec_instancePlace_short hi hd htook hpos hk hst hgang hchain hx he hshort,
        fun hwait => exec_instancePlace_wait hi hd htook hpos hk hst hgang hchain hx he hwait⟩,
    fun s id k c i x e v sk hi hd htook hpos hk hst hgang hchain hc he hon =>
      exec_instancePlace_chained hi hd htook hpos hk hst hgang hchain hc he hon,
    fun s c i x ker hshape hc _ hmay hhead hi hker hstate => ?_,
    fun s c d x hc hd hdc hidle hacc hbare hx => exec_instanceSteal_takes hc hd hdc hidle hacc hbare hx⟩
  obtain ⟨t, ht, hother, hbegun, hbox, hrun, hlive, hint⟩ :=
    exec_instanceStart_stateless hshape hc hmay hhead hi hker hstate
  exact ⟨t, ht, hother, hbegun.run, hbegun.chain, hbox, hrun, hbegun.mxeQ, hbegun.phState, hbegun.masked,
    hbegun.unmasked, hbegun.block, hlive, hint⟩

end Sys2Proof.Machine
end

section
/-! INSTANCE_END (R62, R103, R104): the core freed, and the entry that goes on to its next kernel. -/

namespace Sys2Proof.Machine

-- one theorem after the other: proofs that wait together take too many threads
set_option Elab.async false

/-! ### The core freed -/

section Freed
variable {s : State} {c : Nat} {i : Item} {x : Inst}

theorem Core.unitsIdle_of_quiet {k : Core} (h : k.quiet = true) : k.unitsIdle := by
  simp only [Core.quiet, Bool.and_eq_true, List.isEmpty_iff, List.all_eq_true] at h
  obtain ⟨⟨⟨⟨hmxe, -⟩, hdrain⟩, -⟩, hcour⟩ := h
  refine ⟨hmxe, hdrain, fun q _ => ?_⟩
  by_cases hq : q < k.courQ.length
  · rw [List.getD_eq_getElem _ _ hq]
    exact hcour _ (List.getElem_mem hq)
  · exact List.getD_eq_default _ _ (Nat.not_lt.mp hq)

theorem State.writeOutAll_of_nil (n : Nat) (h : (s.core c).enc = []) : State.writeOutAll n s c = .done s := by
  cases n with
  | zero => rfl
  | succ n => simp only [State.writeOutAll, h]

/-- The state in which the run of core `c` has ended: its cycles charged, the run counted and the core freed. -/
def State.endRun (s : State) (c : Nat) : State :=
  (((s.chargeRun c).bump .ctl c 0 1).modCore c Core.clearRun).changed .ctl c

theorem exec_instanceEnd_eq (hrun : (s.core c).run = some x) (hover : (s.core c).instanceOver = true)
    (henc : (s.core c).enc = []) (hclean : x.poison = none) :
    exec (.instanceEnd c) s = .next ((s.endRun c).instanceDone c x) := by
  have hunits := State.runUnits_of_idle (Core.unitsIdle_of_quiet (Bool.and_eq_true_iff.mp hover).2)
  show execInstanceEnd c s = _
  simp [execInstanceEnd, hrun, hunits, hover, State.writeOutAll_of_nil 33 henc, Core.poisoned, hclean, State.endRun]

/-- A run whose units are quiet does not end while a clerk runs or waits. -/
theorem exec_instanceEnd_clerk_runs (hrun : (s.core c).run = some x) (hquiet : (s.core c).quiet = true)
    (hclerk : ∃ q ∈ (s.core c).clerks, q.state = .running ∨ q.state = .waiting) :
    exec (.instanceEnd c) s = .next s := by
  obtain ⟨q, hq, hst⟩ := hclerk
  have hover : (s.core c).instanceOver = false := by
    refine Bool.and_eq_false_imp.mpr fun hall => ?_
    have hstill := List.all_eq_true.mp hall q hq
    rcases hst with hst | hst <;> simp [hst] at hstill
  show execInstanceEnd c s = _
  simp [execInstanceEnd, hrun, State.runUnits_of_idle (Core.unitsIdle_of_quiet hquiet), hover]

theorem exec_instanceEnd_no_run (hrun : (s.core c).run = none) : exec (.instanceEnd c) s = .next s := by
  show execInstanceEnd c s = _
  simp only [execInstanceEnd, hrun]

theorem State.frame_chargeRun (s : State) (c : Nat) : Frame [.ctr, .items, .boxes] s (s.chargeRun c) :=
  (State.chargeRun_leads .refl (List.Subset.refl _)).frame

theorem OtherCores.endRun (s : State) (c : Nat) : OtherCores c s (s.endRun c) :=
  (OtherCores.modCore (.of_cores ((State.bump_cores ..).trans (s.chargeRun_cores c))) _).trans (.of_cores rfl)

theorem State.endRun_cores_length (s : State) (c : Nat) : (s.endRun c).cores.length = s.cores.length :=
  (State.cores_length_modCore ..).trans (congrArg List.length ((State.bump_cores ..).trans (s.chargeRun_cores c)))

theorem State.core_endRun (hc : c < s.cores.length) : (s.endRun c).core c = (s.core c).clearRun := by
  have hcores : ((s.chargeRun c).bump .ctl c 0 1).cores = s.cores := (State.bump_cores ..).trans (s.chargeRun_cores c)
  exact (State.core_modCore_same (hcores ▸ hc) _).trans (by rw [State.core_of_cores hcores])

theorem State.intRaised_endRun (s : State) (c : Nat) : IntRaised .ctl c 0x100 s (s.endRun c) :=
  State.intRaised_changed .ctl c ((State.bump_regs ..).trans ((s.frame_chargeRun c).regs (by decide)))

section Charged
variable (hrun : (s.core c).run = some x)
include hrun

theorem State.chargeRun_eq : s.chargeRun c =
    ((s.chargeBox c x.box (cyclesOf (s.time.t - x.start))).bump .cnt c (64 + x.box) 1).noteCore x.item c := by
  simp only [State.chargeRun, hrun]

/-- The run counts once on its core's page. -/
theorem State.live_endRun (hb : x.box < 64) : (s.endRun c).live .ctl c 0 = s.counted .ctl c 0 1 := by
  have hcharge : OtherCounters [ctrKey .cnt c x.box, ctrKey .box x.box 5, ctrKey .ctl c 1, ctrKey .cnt c (64 + x.box)]
      s (s.chargeRun c) := by
    rw [State.chargeRun_eq hrun]
    have hbox := s.otherCounters_chargeBox c x.box (cyclesOf (s.time.t - x.start))
    refine (OtherCounters.bump (t := s.chargeBox c x.box _) (fun a ha => hbox a fun h => ha ?_) (by simp) 1).trans
      (.of_ctr rfl)
    simp only [List.mem_cons, List.not_mem_nil, or_false] at h ⊢
    tauto
  have hkey : ctrKey .ctl c 0 ∉
      [ctrKey .cnt c x.box, ctrKey .box x.box 5, ctrKey .ctl c 1, ctrKey .cnt c (64 + x.box)] := by
    simp only [List.mem_cons, List.not_mem_nil, or_false, ctrKey, Pg.base]
    omega
  exact (State.live_bump (s.chargeRun c) .ctl c 0 1).trans (State.counted_eq
    (State.frozen_of_regs ((s.frame_chargeRun c).regs (by decide)) ..) (hcharge.live hkey) 1)

/-- Of the ledger, only the item's core mask changes as its run ends. -/
theorem State.endRun_items : (s.endRun c).items = (s.noteCore x.item c).items := by
  have hitems : ((s.chargeBox c x.box (cyclesOf (s.time.t - x.start))).bump .cnt c (64 + x.box) 1).items = s.items :=
    (State.bump_items ..).trans ((s.frame_chargeBox c x.box _).items (by decide))
  have hend : (s.endRun c).items = (s.chargeRun c).items := State.bump_items ..
  rw [hend, State.chargeRun_eq hrun, State.noteCore, State.noteCore, State.modItem, State.modItem, hitems]

theorem State.item?_endRun (hi : s.item? x.item = some i) :
    (s.endRun c).item? x.item = some { i with coreMask := setInsert i.coreMask c } := by
  rw [State.item?_of_items (State.endRun_items hrun)]
  exact State.item?_modItem_same hi

theorem State.listOf_endRun (y : Inst) : (s.endRun c).listOf y = s.listOf y := by
  have hlists : ItemsAgree Item.list s (s.endRun c) :=
    ((ItemsAgree.refl s).modItem x.item).trans (.of_items (State.endRun_items hrun))
  have hplaces : (s.endRun c).places = s.places :=
    (State.bump_places ..).trans ((s.frame_chargeRun c).places (by decide))
  have hgroups : (s.endRun c).groups = s.groups :=
    (State.bump_groups ..).trans ((s.frame_chargeRun c).groups (by decide))
  exact State.listOf_congr y (hlists y.item) fun n => State.groupOf_of_place? (State.place?_of_places hplaces n) hgroups

end Charged

end Freed

/-! ### The entry goes on (R103, R104) -/

section Done
variable {s : State} {c : Nat} {i : Item} {x : Inst} {ke : KEntry}

/-- The chain kept on core `c` for the kernel after that of `x`. -/
def Inst.next (x : Inst) : Inst := { x with pos := x.pos + 1, idx := 0, variant := false, poison := none }

/-- What the end of an entry's kernel list leaves alone: every item's disposition and core mask, and all other parts. -/
theorem State.listDone_keeps (s : State) (i : Item) (k : Nat) : Frame [.places, .items] s (s.listDone i k) ∧
    ItemsAgree (fun j => (j.disp, j.coreMask)) s (s.listDone i k) := by
  refine ⟨(State.listDone_leads .refl (List.Subset.refl _)).frame, ?_⟩
  unfold State.listDone State.releaseTapes
  dsimp only
  split
  · exact (ItemsAgree.refl s).modItem i.id
  · split
    · split
      · exact (ItemsAgree.refl s).modItem i.id
      · exact (ItemsAgree.of_items rfl).modItem i.id
    · exact (ItemsAgree.refl s).modItem i.id

/-- A run that has ended changes places and items, and of the cores at most the chain of its own. -/
theorem State.instanceDone_cases (s : State) (c : Nat) (x : Inst) : ∃ u, Frame [.places, .items] s u ∧
    ItemsAgree (fun j => (j.disp, j.coreMask)) s u ∧ (s.instanceDone c x = u ∨
      s.instanceDone c x = u.modCore c (fun k => { k with chain := some x.next })) := by
  have keep : ∀ (id k : Nat) (f : Entry → Entry), Frame [.places, .items] s (s.modEntry id k f) ∧
      ItemsAgree (fun j => (j.disp, j.coreMask)) s (s.modEntry id k f) := fun id k f =>
    ⟨(State.modEntry_leads .refl (by decide)).frame, (ItemsAgree.refl s).modItem id⟩
  unfold State.instanceDone
  split
  · exact ⟨s, rfl, .refl s, .inl rfl⟩
  · rename_i i _
    dsimp only
    split
    · exact ⟨s, rfl, .refl s, .inl rfl⟩
    · split
      · exact ⟨s, rfl, .refl s, .inl rfl⟩
      · rename_i ke _
        obtain ⟨hframe, hagree⟩ := keep i.id x.entry (fun e => e.nextPos (x.pos + 1))
        split
        · exact ⟨_, (keep ..).1, (keep ..).2, .inl rfl⟩
        · split
          · cases ke.handoff
            · exact ⟨_, hframe, hagree, .inl rfl⟩
            · exact ⟨_, hframe, hagree, .inr rfl⟩
          · obtain ⟨hdone, hsame⟩ := (s.modEntry i.id x.entry (fun e => e.nextPos (x.pos + 1))).listDone_keeps i x.entry
            exact ⟨_, hframe.trans hdone, hagree.trans hsame, .inl rfl⟩

theorem OtherCores.instanceDone (s : State) (c : Nat) (x : Inst) : OtherCores c s (s.instanceDone c x) := by
  obtain ⟨u, hframe, -, h | h⟩ := s.instanceDone_cases c x <;> rw [h]
  · exact .of_cores (hframe.cores (by decide))
  · exact .modCore (.of_cores (hframe.cores (by decide))) _

theorem CoresAgree.instanceDone {β : Type} {v : Core → β} (hv : ∀ k y, v { k with chain := y } = v k) (s : State)
    (c : Nat) (x : Inst) : CoresAgree v s (s.instanceDone c x) := by
  obtain ⟨u, hframe, -, h | h⟩ := s.instanceDone_cases c x <;> rw [h]
  · exact .of_cores (hframe.cores (by decide))
  · exact .modCore (.of_cores (hframe.cores (by decide))) c fun k => hv k _

theorem ItemsAgree.instanceDone (s : State) (c : Nat) (x : Inst) :
    ItemsAgree (fun j => (j.disp, j.coreMask)) s (s.instanceDone c x) := by
  obtain ⟨u, -, hagree, h | h⟩ := s.instanceDone_cases c x <;> rw [h]
  · exact hagree
  · exact hagree.trans (.of_items rfl)

theorem State.frame_instanceDone (s : State) (c : Nat) (x : Inst) :
    Frame [.cores, .places, .items] s (s.instanceDone c x) :=
  (State.instanceDone_leads .refl (List.Subset.refl _)).frame

theorem State.listOf_modEntry (s : State) (id k : Nat) (f : Entry → Entry) (x : Inst) :
    (s.modEntry id k f).listOf x = s.listOf x :=
  have hlists : ItemsAgree Item.list s (s.modEntry id k f) := (ItemsAgree.refl s).modItem id
  State.listOf_congr x (hlists x.item) fun _ => rfl

section Entry
variable {j : Item} (hi : s.item? x.item = some i) (hd : i.disp = none) (hk : x.entry < i.entries.length)
  (hst : (i.entry x.entry).st = .running) (hpos : (i.entry x.entry).pos = x.pos) (hke : s.kentry? x = some ke)
include hi hd hk hst hpos hke

/-- R103: others of the kernel's instances are still to end. -/
theorem State.entry_instanceDone_counts (hmore : (i.entry x.entry).ended + 1 < ke.count x.list)
    (hj : (s.instanceDone c x).item? x.item = some j) :
    j.entry x.entry = { i.entry x.entry with ended := (i.entry x.entry).ended + 1 } := by
  have hdone : s.instanceDone c x = s.modEntry i.id x.entry (fun e => { e with ended := e.ended + 1 }) := by
    simp [State.instanceDone, hi, hd, hst, hpos, hke, hmore]
  rw [hdone, State.item?_id hi, State.item?_modEntry_same hi] at hj
  rw [← Option.some.inj hj, Item.entry_modEntry_same hk]

section Last
variable (hlast : ke.count x.list ≤ (i.entry x.entry).ended + 1)
include hlast

omit hk in
/-- R104: the entry goes to its next kernel, which HANDOFF keeps on the core. -/
theorem State.instanceDone_next (hmore : x.pos + 1 < (s.listOf x).length) : s.instanceDone c x =
    (s.modEntry x.item x.entry (fun e => e.nextPos (x.pos + 1))).when ke.handoff
      ((s.modEntry x.item x.entry (fun e => e.nextPos (x.pos + 1))).modCore c
        (fun k => { k with chain := some x.next })) := by
  simp only [State.instanceDone, hi, hd, hst, hpos, hke, State.listOf_modEntry, hmore, Nat.not_lt.mpr hlast,
    State.item?_id hi, Option.isSome_none, Bool.false_eq_true, ne_eq, not_true_eq_false, or_self, if_true, if_false]
  rfl

theorem State.entry_instanceDone_next (hmore : x.pos + 1 < (s.listOf x).length)
    (hj : (s.instanceDone c x).item? x.item = some j) :
    j.entry x.entry = { i.entry x.entry with pos := x.pos + 1, placed := 0, ended := 0, again := [] } := by
  rw [State.instanceDone_next hi hd hst hpos hke hlast hmore] at hj
  have hitem : (s.modEntry x.item x.entry (fun e => e.nextPos (x.pos + 1))).item? x.item = some j := by
    rw [← hj]
    cases ke.handoff <;> rfl
  rw [State.item?_modEntry_same hi] at hitem
  rw [← Option.some.inj hitem, Item.entry_modEntry_same hk]
  rfl

omit hk in
theorem State.chain_instanceDone (hc : c < s.cores.length) (hmore : x.pos + 1 < (s.listOf x).length)
    (hhand : ke.handoff = true) : ((s.instanceDone c x).core c).chain = some x.next := by
  rw [State.instanceDone_next hi hd hst hpos hke hlast hmore, hhand, State.when_true]
  exact congrArg Core.chain (State.core_modCore_same hc _)

omit hk in
/-- After the last kernel the entry's list is done. -/
theorem State.instanceDone_last (hend : (s.listOf x).length ≤ x.pos + 1) : s.instanceDone c x =
    (s.modEntry x.item x.entry (fun e => e.nextPos (x.pos + 1))).listDone i x.entry := by
  simp only [State.instanceDone, hi, hd, hst, hpos, hke, State.listOf_modEntry, Nat.not_lt.mpr hend, Nat.not_lt.mpr hlast,
    State.item?_id hi, Option.isSome_none, Bool.false_eq_true, ne_eq, not_true_eq_false, or_self, if_false]

/-- The fate of an entry whose list is done, where it is written by one update. -/
theorem State.st_instanceDone_last {st : EntrySt} (hend : (s.listOf x).length ≤ x.pos + 1)
    (hdone : ∀ u : State, u.listDone i x.entry = u.modEntry i.id x.entry (fun e => { e with st := st }))
    (hj : (s.instanceDone c x).item? x.item = some j) : (j.entry x.entry).st = st := by
  rw [State.instanceDone_last hi hd hst hpos hke hlast hend, hdone, State.item?_id hi,
    State.item?_modEntry_same (State.item?_modEntry_same hi)] at hj
  rw [← Option.some.inj hj, Item.entry_modEntry_same (by simpa [Item.modEntry] using hk)]

end Last

end Entry

theorem State.listDone_step (h : i.kind = 0x03) (u : State) (k : Nat) :
    u.listDone i k = u.modEntry i.id k (fun e => { e with st := .ready }) := by
  simp [State.listDone, h]

theorem State.listDone_kernel (h : i.kind = 0x0A) (u : State) (k : Nat) :
    u.listDone i k = u.modEntry i.id k (fun e => { e with st := .committed }) := by
  simp [State.listDone, h]

end Done

/-! ### INSTANCE_END -/

section End
variable {s : State} {c : Nat} {i : Item} {x : Inst} {ke : KEntry}

/-- How the entry of an ended run stands in the item: counted, at its next kernel, or done. -/
structure EntryAdvanced (s : State) (c : Nat) (x : Inst) (i : Item) (ke : KEntry) (t : State) (j : Item) : Prop where
  counts : (i.entry x.entry).ended + 1 < ke.count x.list →
    j.entry x.entry = { i.entry x.entry with ended := (i.entry x.entry).ended + 1 }
  next : ke.count x.list ≤ (i.entry x.entry).ended + 1 → x.pos + 1 < (s.listOf x).length →
    j.entry x.entry = { i.entry x.entry with pos := x.pos + 1, placed := 0, ended := 0, again := [] } ∧
      (ke.handoff = true → (t.core c).chain = some x.next)
  step : ke.count x.list ≤ (i.entry x.entry).ended + 1 → (s.listOf x).length ≤ x.pos + 1 → i.kind = 0x03 →
    (j.entry x.entry).st = .ready
  kernel : ke.count x.list ≤ (i.entry x.entry).ended + 1 → (s.listOf x).length ≤ x.pos + 1 → i.kind = 0x0A →
    (j.entry x.entry).st = .committed

theorem State.advanced_instanceDone {j : Item} (hc : c < s.cores.length) (hi : s.item? x.item = some i)
    (hd : i.disp = none) (hk : x.entry < i.entries.length) (hst : (i.entry x.entry).st = .running)
    (hpos : (i.entry x.entry).pos = x.pos) (hke : s.kentry? x = some ke)
    (hj : (s.instanceDone c x).item? x.item = some j) : EntryAdvanced s c x i ke (s.instanceDone c x) j where
  counts hmore := State.entry_instanceDone_counts hi hd hk hst hpos hke hmore hj
  next hlast hmore := ⟨State.entry_instanceDone_next hi hd hk hst hpos hke hlast hmore hj,
    State.chain_instanceDone hi hd hst hpos hke hlast hc hmore⟩
  step hlast hend hkind := State.st_instanceDone_last hi hd hk hst hpos hke hlast hend
    (fun u => State.listDone_step hkind u x.entry) hj
  kernel hlast hend hkind := State.st_instanceDone_last hi hd hk hst hpos hke hlast hend
    (fun u => State.listDone_kernel hkind u x.entry) hj

/-- R103: a run whose clerks have finished and whose units are quiet ends. -/
theorem exec_instanceEnd_ends (hb : x.box < 64) (hrun : (s.core c).run = some x)
    (hover : (s.core c).instanceOver = true) (henc : (s.core c).enc = []) (hclean : x.poison = none)
    (hi : s.item? x.item = some i) (hd : i.disp = none) (hk : x.entry < i.entries.length)
    (hst : (i.entry x.entry).st = .running) (hpos : (i.entry x.entry).pos = x.pos) (hke : s.kentry? x = some ke) :
    ∃ t j, exec (.instanceEnd c) s = .next t ∧ OtherCores c s t ∧ (t.core c).run = none ∧
      (t.core c).state = (if (s.core c).state = .running then .idle else (s.core c).state) ∧
      t.live .ctl c 0 = s.counted .ctl c 0 1 ∧ IntRaised .ctl c 0x100 s t ∧ t.item? x.item = some j ∧ j.disp = none ∧
      c ∈ j.coreMask ∧ EntryAdvanced s c x i ke t j := by
  have hc := State.lt_cores_of_run hrun
  obtain ⟨u, hu⟩ : ∃ u, u = s.endRun c := ⟨_, rfl⟩
  have hcore : u.core c = (s.core c).clearRun := hu ▸ State.core_endRun hc
  have hitem : u.item? x.item = some { i with coreMask := setInsert i.coreMask c } := hu ▸ State.item?_endRun hrun hi
  have hlist : u.listOf x = s.listOf x := hu ▸ State.listOf_endRun hrun x
  have hframe := u.frame_instanceDone c x
  obtain ⟨hlen, hwork⟩ := CoresAgree.instanceDone (v := fun k => (k.run, k.state)) (fun _ _ => rfl) u c x
  obtain ⟨hrun', hstate⟩ := Prod.mk.inj (hwork c)
  obtain ⟨j, hj, hkeep⟩ := (ItemsAgree.instanceDone u c x).exists hitem
  obtain ⟨hdisp, hmask⟩ := Prod.mk.inj hkeep
  have hcu : c < u.cores.length := hu ▸ (s.endRun_cores_length c).symm ▸ hc
  obtain ⟨hcounts, hnext, hstep, hkernel⟩ := State.advanced_instanceDone (ke := ke) hcu hitem hd hk hst hpos
    (by rwa [State.kentry?, hlist]) hj
  refine ⟨u.instanceDone c x, j, hu ▸ exec_instanceEnd_eq hrun hover henc hclean,
    (hu ▸ OtherCores.endRun s c).trans (.instanceDone u c x), ?_, ?_, ?_, ?_, hj, hdisp.trans hd, ?_, ?_⟩
  · rw [hrun', hcore]
    rfl
  · rw [hstate, hcore]
    rfl
  · rw [State.live_of_ctr (hframe.ctr (by decide)), hu]
    exact State.live_endRun hrun hb
  · rw [IntRaised, State.reg_of_regs (hframe.regs (by decide)), hu]
    exact s.intRaised_endRun c
  · rw [hmask]
    exact mem_setInsert _ c
  · rw [hlist] at hnext hstep hkernel
    exact ⟨hcounts, hnext, hstep, hkernel⟩

end End

end Sys2Proof.Machine
end

section
/-! KERNEL_WATCHDOG (R260, R261): an item that fails leaves none of its instances running. -/

namespace Sys2Proof.Machine

-- one theorem after the other: proofs that wait together take too many threads
set_option Elab.async false

/-! ### What a failing item leaves running (R22, R260) -/

section Runs
variable {s : State} {c d id : Nat} {i : Item} {x : Inst}

/-- What the item runs on core `c` stopped. -/
def State.stopAt (id : Nat) (s : State) (c : Nat) : State :=
  match (s.core c).run with
  | some i => if i.item = id then s.stopInstance c else s
  | none => s

theorem State.stopItem_cores (s : State) (id : Nat) : (s.stopItem id).cores =
    (((List.range 68).foldl (State.stopAt id) s).cores.map (fun c => { c with
      queue := c.queue.filter (fun i => i.item != id)
      chain := match c.chain with | some x => if x.item = id then none else c.chain | none => none })) := by
  unfold State.stopItem
  generalize List.range 68 = l
  rfl

theorem OtherCores.stopInstance (s : State) (c : Nat) : OtherCores c s (s.stopInstance c) :=
  (OtherCores.modCore (.of_cores (s.chargeRun_cores c)) _).trans (.of_cores rfl)

theorem OtherCores.stopAt (s : State) (id c : Nat) : OtherCores c s (s.stopAt id c) := by
  unfold State.stopAt
  split
  · split
    · exact .stopInstance s c
    · exact .refl c s
  · exact .refl c s

theorem State.stopAt_of_none (h : (s.core c).run = none) (id : Nat) : s.stopAt id c = s := by
  simp only [State.stopAt, h]

theorem State.run_stopAt (hrun : (s.core c).run = some x) (hx : x.item = id) : ((s.stopAt id c).core c).run = none := by
  simp only [State.stopAt, hrun, hx, if_true]
  rw [State.stopInstance_core (State.lt_cores_of_run hrun)]
  rfl

theorem State.run_foldl_stopAt_of_none (l : List Nat) (h : (s.core c).run = none) :
    ((l.foldl (State.stopAt id) s).core c).run = none := by
  induction l generalizing s with
  | nil => exact h
  | cons d l ih =>
    refine ih ?_
    by_cases hd : c = d
    · rw [← hd, State.stopAt_of_none h, h]
    · rw [OtherCores.stopAt s id d c hd, h]

theorem State.run_foldl_stopAt {l : List Nat} (hc : c ∈ l) (hrun : (s.core c).run = some x) (hx : x.item = id) :
    ((l.foldl (State.stopAt id) s).core c).run = none := by
  induction l generalizing s with
  | nil => cases hc
  | cons d l ih =>
    by_cases hd : c = d
    · exact State.run_foldl_stopAt_of_none l (hd ▸ State.run_stopAt hrun hx)
    · exact ih (List.mem_of_ne_of_mem hd hc) ((congrArg Core.run (OtherCores.stopAt s id d c hd)).trans hrun)

/-- None of a stopped item's instances runs on (R260). -/
theorem State.run_stopItem (hc : c < 68) (hrun : (s.core c).run = some x) (hx : x.item = id) :
    ((s.stopItem id).core c).run = none := by
  have hmap : CoresAgree Core.run ((List.range 68).foldl (State.stopAt id) s) (s.stopItem id) :=
    .of_map (s.stopItem_cores id) fun _ => rfl
  exact (hmap.2 c).trans (State.run_foldl_stopAt (List.mem_range.mpr hc) hrun hx)

end Runs

/-! ### What a disposition leaves running (R363) -/

section Resolved
variable {β : Type} {v : Core → β} {s t : State} {id : Nat} {i : Item}

theorem CoresAgree.foldl {α : Type} {f : State → α → State} (l : List α) (h : CoresAgree v s t)
    (hf : ∀ u a, CoresAgree v u (f u a)) : CoresAgree v s (l.foldl f t) := by
  induction l generalizing t with
  | nil => exact h
  | cons a l ih => exact ih (h.trans (hf t a))

theorem CoresAgree.dropSteps (s : State) (i : Item) : CoresAgree Core.work s (s.dropSteps i) := by
  unfold State.dropSteps
  split
  · exact .refl s
  · split
    · refine CoresAgree.foldl _ (.refl s) fun u e => ?_
      have hleave := CoresAgree.leaveStep u e false
      dsimp only
      split
      · exact hleave.trans (.of_cores rfl)
      · exact hleave
    · split
      · exact CoresAgree.foldl _ (.refl s) fun u n => .of_cores rfl
      · exact .refl s

theorem CoresAgree.vacate (s : State) (n : Nat) : CoresAgree Core.work s (s.vacate n) := by
  have hdrop : CoresAgree Core.work s (s.dropHistory n) := by
    unfold State.dropHistory
    split
    · exact .refl s
    · exact (CoresAgree.of_cores rfl).trans (.flushLab _ _ n)
  exact hdrop.trans (.of_cores rfl)

theorem CoresAgree.releaseGroup (s : State) (g : Nat) : CoresAgree Core.work s (s.releaseGroup g) :=
  (CoresAgree.foldl _ (.refl s) CoresAgree.vacate).trans (.of_cores rfl)

theorem Core.work_expose (k : Core) (tag : W64) : (k.expose tag).work = k.work := by
  unfold Core.expose
  split <;> rfl

theorem CoresAgree.exposeAll (s : State) (i : Item) : CoresAgree Core.work s (s.exposeAll i) := by
  refine ⟨by simp [State.exposeAll], fun c => ?_⟩
  by_cases hc : c < s.cores.length
  · simp only [State.core, State.exposeAll, List.getD_eq_getElem?_getD, List.getElem?_map, List.getElem?_zipIdx,
      List.getElem?_eq_getElem hc, Option.map_some, Option.getD_some]
    split
    · exact Core.work_expose ..
    · rfl
  · simp [State.core, State.exposeAll, List.getD_eq_getElem?_getD, hc]

theorem CoresAgree.noteFailure (s : State) (id : Nat) (i : Item) (f : Fail) :
    CoresAgree Core.work s (s.noteFailure id i f) := by
  obtain ⟨u, hu⟩ : ∃ u, u = s.writeReports { i with disp := some (.failed f) } := ⟨_, rfl⟩
  have hcores : u.cores = s.cores := hu ▸ (State.writeReports_leads .refl (List.Subset.refl _)).frame.cores (by decide)
  have hexpose := CoresAgree.exposeAll (u.modItem id (Item.failedAt f u.roundNow u.phase)) i
  have hcount : (s.noteFailure id i f).cores =
      ((u.modItem id (Item.failedAt f u.roundNow u.phase)).exposeAll i).cores := by
    simp only [State.noteFailure, State.countFailure, State.bump_cores, hu]
  exact ((CoresAgree.of_cores hcores).trans hexpose).trans (.of_cores hcount)

theorem CoresAgree.postItem (s : State) (id : Nat) : CoresAgree Core.work s (s.postItem id) :=
  .of_cores ((State.postItem_leads .refl (List.Subset.refl _)).frame.cores (by decide))

theorem CoresAgree.resolve_failed (hi : s.item? id = some i) (hd : i.disp = none) (f : Fail) :
    CoresAgree Core.work s (s.resolve id (.failed f)) := by
  have hnote := CoresAgree.noteFailure s id i f
  rcases State.resolve_failed_cases hi hd f with h | ⟨-, g, h⟩ <;> rw [h]
  · exact hnote.trans (.postItem _ id)
  · exact (hnote.trans (.releaseGroup _ g)).trans (.postItem _ id)

/-- After its instances are stopped, an item's failure changes nothing of what the cores run. -/
theorem CoresAgree.failItem (hi : s.item? id = some i) (hd : i.disp = none) (f : Fail) :
    CoresAgree Core.work (s.stopItem id) (s.failItem id f) := by
  obtain ⟨j, hj, hfate, -⟩ := State.item?_cutItem hi f
  have hcut : CoresAgree Core.work (s.stopItem id) (s.cutItem id i f) := by
    rw [State.cutItem]
    generalize s.stopItem id = u
    exact (CoresAgree.dropSteps u i).trans (.of_cores rfl)
  rw [State.failItem_eq hi hd]
  exact hcut.trans (.resolve_failed hj ((congrArg Prod.fst hfate).trans hd) f)

end Resolved

/-! ### KERNEL_WATCHDOG -/

section Watchdog
variable {s : State} {c : Nat} {i : Item} {x : Inst}

/-- The state 20 ms after the start of the kernel on core `c`, with the expiry counted. -/
def State.expired (s : State) (c : Nat) (x : Inst) : State :=
  ({ s with time := { s.time with t := max s.time.t (20000000 + x.start) } } : State).bump .disp (coreDie c) 5 1

theorem State.frame_expired (s : State) (c : Nat) (x : Inst) : Frame [.time, .ctr] s (s.expired c x) :=
  (State.bump_leads (Leads.time .refl (by decide)) (by decide)).frame

theorem exec_kernelWatchdog_eq (hrun : (s.core c).run = some x) : ∃ g : Fail, g.reason = .watchdog ∧
    exec (.kernelWatchdog c) s = .next ((s.expired c x).failItem x.item g) := by
  refine ⟨({ s with time := { s.time with t := max s.time.t (20000000 + x.start) } } : State).failOf x
    { reason := .watchdog }, rfl, ?_⟩
  show execKernelWatchdog c s = _
  simp only [execKernelWatchdog, hrun]
  rfl

theorem exec_kernelWatchdog_no_run (hrun : (s.core c).run = none) : exec (.kernelWatchdog c) s = .next s := by
  show execKernelWatchdog c s = _
  simp only [execKernelWatchdog, hrun]

theorem exec_kernelWatchdog_fails (hc : c < 68) (hrun : (s.core c).run = some x) (hi : s.item? x.item = some i)
    (hd : i.disp = none) : ∃ t j f, exec (.kernelWatchdog c) s = .next t ∧
      t.time = { s.time with t := max s.time.t (20000000 + x.start) } ∧ (t.core c).run = none ∧
      t.item? x.item = some j ∧ j.disp = some (.failed f) ∧ f.reason = .watchdog := by
  obtain ⟨g, hg, hexec⟩ := exec_kernelWatchdog_eq hrun
  have hframe := s.frame_expired c x
  have hitem := (State.item?_of_items (hframe.items (by decide)) x.item).trans hi
  have hrun' : ((s.expired c x).core c).run = some x := by rwa [State.core_of_cores (hframe.cores (by decide))]
  obtain ⟨j, hj, hfate⟩ := State.item?_failItem hitem hd g
  obtain ⟨hsame, -⟩ := Prod.mk.inj ((CoresAgree.failItem hitem hd g).2 c)
  refine ⟨_, j, g, hexec, ?_, ?_, hj, congrArg Prod.fst hfate, hg⟩
  · rw [(State.failItem_leads .refl (List.Subset.refl _)).frame.time (by decide)]
    exact State.bump_time ..
  · rw [hsame, State.run_stopItem hc hrun' rfl]

end Watchdog

/-- Settles O21: an end by the core it frees and the entry that goes on; the watchdog by what a failing item leaves. -/
theorem instancesEndAndAreWatched : Obligations.InstancesEndAndAreWatched := by
  refine ⟨fun s c x i ke _ hb _ hrun hover henc hclean hi hd hk hst hpos hke => ?_,
    fun s c x _ hrun hquiet hclerk => exec_instanceEnd_clerk_runs hrun hquiet hclerk,
    fun s c x i hc _ hrun hi hd => exec_kernelWatchdog_fails hc hrun hi hd,
    fun s c hrun => ⟨exec_kernelWatchdog_no_run hrun, exec_instanceEnd_no_run hrun⟩⟩
  obtain ⟨t, j, ht, hother, hnone, hstate, hlive, hint, hj, hdisp, hmask, hadv⟩ :=
    exec_instanceEnd_ends hb hrun hover henc hclean hi hd hk hst hpos hke
  have hnext : x.next = { x with pos := x.pos + 1, idx := 0, variant := false } := by rw [Inst.next, hclean]
  exact ⟨t, j, ht, hother, hnone, hstate, hlive, hint, hj, hdisp, hmask, hadv.counts, hnext ▸ hadv.next, hadv.step,
    hadv.kernel⟩

end Sys2Proof.Machine
end

section
/-! Residency moves done (R125, R137, R141), and a request for arena tried again (R139). -/

namespace Sys2Proof.Machine

-- one theorem after the other: proofs that wait together take too many threads
set_option Elab.async false

/-! ### Moves (R137, R141) -/

/-- A stream's place as the end of its outbound move leaves it, its slot copied to poste restante (R137). -/
def Place.movedOut (a : Slot) (p : Place) : Place :=
  { p with
    residency := .away, held := false, poste := some a, arena := none, arenaDa := 0
    faulted := p.faulted || a.bad }

/-- A stream's place as the end of its inbound move leaves it; `sound`: the slot passed its checks (R125, R137). -/
def Place.movedIn (a : Slot) (sound : Bool) (round : Nat) (p : Place) : Place :=
  { p with
    residency := .resident, held := false, arena := some a, poste := none, waitAt := none
    lastUse := if sound then round else p.lastUse, faulted := p.faulted || a.bad }

/-- How long the stream has been waited for. -/
def State.waitedFor (s : State) (p : Place) : Nat := match p.waitAt with | some w => s.time.t - w | none => 0

/-- The state in which the outbound move of stream `n` is done. -/
def State.movedOut (s : State) (n : Nat) (g : Group) (a : Slot) : State :=
  ((s.bump .fork g.home 0 1).modPlace n (Place.movedOut a)).flushLab g.box n

/-- The state in which the inbound move of stream `n` is done. -/
def State.movedIn (s : State) (n : Nat) (p : Place) (g : Group) (a : Slot) (sound : Bool) : State :=
  ((s.bump .fork g.home 1 1).bump .fork g.home 3 (s.waitedFor p)).modPlace n (Place.movedIn a sound s.roundNow)

section Moves
variable {s t : State} {n : Nat} {p : Place} {g : Group} {a : Slot} {sound : Bool}

/-- The order of R257 reads items, boxes and registers alone. -/
theorem State.before_eq (hitems : t.items = s.items) (hboxes : t.boxes = s.boxes) (hregs : t.regs = s.regs) :
    t.before = s.before := by
  have hdeadline : ∀ id, t.effDeadline id = s.effDeadline id := fun id => by
    rw [State.effDeadline, State.effDeadline, hitems]
  have hshare : ∀ b, t.boxShare b = s.boxShare b := fun b => by
    simp only [State.boxShare, State.field, State.regN, State.reg_of_regs hregs]
  funext i j
  simp only [State.before, hdeadline, hshare, State.box_of_boxes hboxes]

/-- A move changes neither the items in effect that name the stream nor their order. -/
theorem State.waitersOf_eq (h : Frame [.freeCount, .ctr, .cores, .places, .log] s t) (n : Nat) :
    t.waitersOf n = s.waitersOf n := by
  have hitems := h.items (by decide)
  simp only [State.waitersOf, hitems, State.before_eq hitems (h.boxes (by decide)) (h.regs (by decide))]

theorem State.frame_movedOut (s : State) (n : Nat) (g : Group) (a : Slot) :
    Frame [.freeCount, .ctr, .cores, .places, .log] s (s.movedOut n g a) :=
  (State.flushLab_leads (State.modPlace_leads (State.bump_leads .refl (by decide)) (by decide)) (by decide)).frame

theorem State.leads_movedIn (s : State) (n : Nat) (p : Place) (g : Group) (a : Slot) (sound : Bool) :
    Leads [.freeCount, .ctr, .cores, .places, .log] s (s.movedIn n p g a sound) :=
  State.modPlace_leads (State.bump_leads (State.bump_leads .refl (by decide)) (by decide)) (by decide)

theorem State.otherPlaces_movedOut (s : State) (n : Nat) (g : Group) (a : Slot) : OtherPlaces n s (s.movedOut n g a) :=
  ((OtherPlaces.of_places (State.bump_places ..)).modPlace).trans (.of_places (State.flushLab_places ..))

theorem State.otherPlaces_movedIn (s : State) (n : Nat) (p : Place) (g : Group) (a : Slot) (sound : Bool) :
    OtherPlaces n s (s.movedIn n p g a sound) :=
  (OtherPlaces.of_places ((State.bump_places ..).trans (State.bump_places ..))).modPlace

theorem State.place?_movedOut (hp : s.place? n = some p) (g : Group) (a : Slot) :
    (s.movedOut n g a).place? n = some (p.movedOut a) :=
  (State.place?_of_places (State.flushLab_places ..) n).trans
    (State.place?_modPlace_same ((State.place?_of_places (State.bump_places ..) n).trans hp))

theorem State.place?_movedIn (hp : s.place? n = some p) (q : Place) (g : Group) (a : Slot) (sound : Bool) :
    (s.movedIn n q g a sound).place? n = some (p.movedIn a sound s.roundNow) :=
  State.place?_modPlace_same
    ((State.place?_of_places ((State.bump_places ..).trans (State.bump_places ..)) n).trans hp)

/-- Look-aside entries dropped count on the walkers' pages, never on a FORK page. -/
theorem State.live_fork_flushLab {m : Nat} (hm : m < 512) (s : State) (d b n : Nat) :
    (s.flushLab b n).live .fork d m = s.live .fork d m := by
  unfold State.flushLab State.dropLab
  refine List.foldlRecOn (motive := fun u : State => u.live .fork d m = s.live .fork d m) _ _ rfl (fun u hu c _ => ?_)
  refine (State.live_bump_ne _ _ _ _ _ _ _ _ ?_).trans hu
  simp only [ctrKey, Pg.base]
  omega

theorem State.live_movedOut (s : State) (n : Nat) (g : Group) (a : Slot) :
    (s.movedOut n g a).live .fork g.home 0 = s.counted .fork g.home 0 1 :=
  (State.live_fork_flushLab (by decide) _ _ _ _).trans (s.live_bump .fork g.home 0 1)

theorem State.live_movedIn (s : State) (n : Nat) (p : Place) (g : Group) (a : Slot) (sound : Bool) :
    (s.movedIn n p g a sound).live .fork g.home 1 = s.counted .fork g.home 1 1 :=
  (State.live_bump_ne _ .fork .fork g.home g.home 3 1 _ (by simp)).trans (s.live_bump .fork g.home 1 1)

theorem exec_outboundMoveDone_eq (hp : s.place? n = some p) (hg : s.groupOf n = some g) (hlive : p.live = true)
    (hres : p.residency = .outbound) (hnone : s.waitersOf n = []) :
    exec (.outboundMoveDone n) s = .next (s.movedOut n g (p.arena.getD {})) := by
  have hw := (State.waitersOf_eq (s.frame_movedOut n g (p.arena.getD {})) n).trans hnone
  have h : exec (.outboundMoveDone n) s = .next ((s.movedOut n g (p.arena.getD {})).advanceAll
      ((s.movedOut n g (p.arena.getD {})).waitersOf n)) := by
    show execOutboundMoveDone n s = _
    simp only [execOutboundMoveDone, hp, hg]
    exact if_neg (by simp [hlive, hres])
  rw [h, hw]
  rfl

theorem exec_inboundMoveDone_sound (hp : s.place? n = some p) (hg : s.groupOf n = some g) (hlive : p.live = true)
    (hres : p.residency = .inbound) (hnone : s.waitersOf n = []) (hwhy : headerFault p (p.poste.getD {}) = none)
    (hbad : (p.poste.getD {}).bad = false) :
    exec (.inboundMoveDone n) s = .next (s.movedIn n p g (p.poste.getD {}) true) := by
  have hw := (State.waitersOf_eq (s.leads_movedIn n p g (p.poste.getD {}) true).frame n).trans hnone
  have h : exec (.inboundMoveDone n) s = .next ((s.movedIn n p g (p.poste.getD {}) true).advanceAll
      ((s.movedIn n p g (p.poste.getD {}) true).waitersOf n)) := by
    have hround : ((s.bump .fork g.home 1 1).bump .fork g.home 3 (s.waitedFor p)).roundNow = s.roundNow := by
      simp only [State.roundNow, State.bump_time]
    show execInboundMoveDone n s = _
    simp only [execInboundMoveDone, hp, hg, hwhy, hbad]
    refine (if_neg (by simp [hlive, hres])).trans ?_
    rw [State.movedIn, ← hround]
    delta Place.movedIn
    simp only [hbad]
    rfl
  rw [h, hw]
  rfl

theorem exec_inboundMoveDone_fault {why : Nat} (hp : s.place? n = some p) (hg : s.groupOf n = some g)
    (hlive : p.live = true) (hres : p.residency = .inbound) (hnone : s.waitersOf n = [])
    (hwhy : headerFault p (p.poste.getD {}) = some why) :
    exec (.inboundMoveDone n) s =
      .next ((s.movedIn n p g (p.poste.getD {}) false).headerFailed n why none none) := by
  have hw : ((s.movedIn n p g (p.poste.getD {}) false).headerFailed n why none none).waitersOf n = [] :=
    (State.waitersOf_eq (State.headerFailed_leads (s.leads_movedIn n p g _ false) (by decide)).frame n).trans hnone
  generalize hu : (s.movedIn n p g (p.poste.getD {}) false).headerFailed n why none none = u at hw ⊢
  have h : exec (.inboundMoveDone n) s = .next ((u.failWaiters n).advanceAll ((u.failWaiters n).waitersOf n)) := by
    show execInboundMoveDone n s = _
    simp only [execInboundMoveDone, hp, hg, hwhy]
    refine (if_neg (by simp [hlive, hres])).trans ?_
    rw [← hu]
    rfl
  have hfail : u.failWaiters n = u := by rw [State.failWaiters, hw]; rfl
  rw [h, hfail, hw]
  rfl

/-- A stream whose header check fails is FAULTED, its residency as it was (R125). -/
theorem State.place?_headerFailed (hp : s.place? n = some p) (why : Nat) (core : Option Nat) (tag : Option W64) :
    (s.headerFailed n why core tag).place? n = some { p with faulted := true } :=
  (State.place?_of_places ((State.event_places ..).trans (State.bump_places ..)) n).trans
    (State.place?_modPlace_same (s := s.draw.2) hp)

/-- A stream that is RESIDENT or AWAY has no move to end. -/
theorem exec_moveDone_idle (hp : s.place? n = some p) (hres : p.residency = .resident ∨ p.residency = .away) :
    exec (.outboundMoveDone n) s = .next s ∧ exec (.inboundMoveDone n) s = .next s := by
  have hout : p.residency ≠ .outbound := by rcases hres with h | h <;> rw [h] <;> decide
  have hin : p.residency ≠ .inbound := by rcases hres with h | h <;> rw [h] <;> decide
  refine ⟨?_, ?_⟩
  · show execOutboundMoveDone n s = _
    cases hg : s.groupOf n with
    | none => simp only [execOutboundMoveDone, hp, hg]
    | some g =>
      simp only [execOutboundMoveDone, hp, hg]
      exact if_pos (.inr hout)
  · show execInboundMoveDone n s = _
    cases hg : s.groupOf n with
    | none => simp only [execInboundMoveDone, hp, hg]
    | some g =>
      simp only [execInboundMoveDone, hp, hg]
      exact if_pos (.inr hin)

theorem exec_outboundMoveDone_away (hp : s.place? n = some p) (hg : s.groupOf n = some g)
    (hlive : p.live = true) (hnone : s.waitersOf n = []) (hres : p.residency = .outbound) :
    ∃ t, exec (.outboundMoveDone n) s = .next t ∧ OtherPlaces n s t ∧
      t.place? n = some (p.movedOut (p.arena.getD {})) ∧ t.live .fork g.home 0 = s.counted .fork g.home 0 1 :=
  ⟨_, exec_outboundMoveDone_eq hp hg hlive hres hnone, s.otherPlaces_movedOut _ _ _, State.place?_movedOut hp ..,
    State.live_movedOut ..⟩

theorem exec_inboundMoveDone_resident (hp : s.place? n = some p) (hg : s.groupOf n = some g) (hlive : p.live = true)
    (hnone : s.waitersOf n = []) (hres : p.residency = .inbound) (hwhy : headerFault p (p.poste.getD {}) = none)
    (hbad : (p.poste.getD {}).bad = false) : ∃ t, exec (.inboundMoveDone n) s = .next t ∧ OtherPlaces n s t ∧
      t.place? n = some { p with
        residency := .resident, held := false, arena := some (p.poste.getD {}), poste := none, waitAt := none
        lastUse := s.roundNow } ∧ t.live .fork g.home 1 = s.counted .fork g.home 1 1 ∧ t.log = s.log := by
  refine ⟨_, exec_inboundMoveDone_sound hp hg hlive hres hnone hwhy hbad, s.otherPlaces_movedIn _ _ _ _ _, ?_,
    s.live_movedIn .., (State.bump_log ..).trans (State.bump_log ..)⟩
  rw [State.place?_movedIn hp, Place.movedIn, hbad, Bool.or_false, if_pos rfl]

theorem exec_inboundMoveDone_faulted (hp : s.place? n = some p) (hg : s.groupOf n = some g) (hlive : p.live = true)
    (hnone : s.waitersOf n = []) (hres : p.residency = .inbound) (hwhy : headerFault p (p.poste.getD {}) ≠ none) :
    ∃ t q, exec (.inboundMoveDone n) s = .next t ∧ t.place? n = some q ∧ q.residency = .resident ∧ q.faulted = true := by
  obtain ⟨why, hwhy⟩ := Option.ne_none_iff_exists'.mp hwhy
  exact ⟨_, _, exec_inboundMoveDone_fault hp hg hlive hres hnone hwhy,
    State.place?_headerFailed (State.place?_movedIn hp ..) .., rfl, rfl⟩

end Moves

/-! ### A request for arena tried again (R139) -/

/-- Place 0 of a group as its OPEN_GROUP fills it (R18, R132). -/
def Place.opened (g : Group) (a : Slot) (da round : Nat) (p : Place) : Place :=
  { p with
    live := true, held := true, arena := some a, arenaDa := da, lastUse := round, stepCount := 0
    mirror := if g.regMode = 0 then .none else .inStep }

section Resume
variable {s : State} {b : Nat} {i : Item} {p : Place} {g : Group}

theorem State.openTry_of_mayTake (hp : s.place? (i.entry 0).stream = some p) (hg : s.groupOf (i.entry 0).stream = some g)
    (hlive : p.live = false) (hmap : s.mapped i.box (i.argC + 64) (g.slotSize - 64) false = true)
    (hpoison : s.poisonedBox i.box (i.argC + 64) (g.slotSize - 64) = false) (htake : s.mayTake i 0 g.slotSize = true) :
    s.openTry i = (((s.unwait i.id 0).draw.2.modPlace (i.entry 0).stream
      (Place.opened g (s.openSlot i p g) (arenaAddr s.freeCount) s.roundNow)).modEntry i.id 0 (fun e =>
        { e with st := .running, begun := true, gen := genStart g.seed })).markStarted i.id := by
  simp only [State.openTry, hp, hg, hlive, hmap, hpoison, htake, Bool.not_true, Bool.false_eq_true, if_false]
  rfl

theorem exec_arenaWaitResume_eq
    (hfirst : pickFirst s.before ((s.arenaWait.filterMap (fun w => s.item? w.1)).filter (fun i => i.box == b)) = some i)
    (hi : s.item? i.id = some i) (hkind : i.kind = 0x01) (hdisp : i.disp = none) (htook : i.took = true) :
    exec (.arenaWaitResume b) s = .next (s.openTry i) := by
  have hadv : s.advanceItem i.id = s.openTry i := by
    simp [State.advanceItem, hi, hdisp, htook, hkind]
  show execArenaWaitResume b s = _
  simp only [execArenaWaitResume, hfirst, hadv]

theorem exec_arenaWaitResume_openGroup
    (hfirst : pickFirst s.before ((s.arenaWait.filterMap (fun w => s.item? w.1)).filter (fun i => i.box == b)) = some i)
    (hi : s.item? i.id = some i) (hkind : i.kind = 0x01) (hdisp : i.disp = none) (htook : i.took = true)
    (hp : s.place? (i.entry 0).stream = some p) (hg : s.groupOf (i.entry 0).stream = some g)
    (hlive : p.live = false) (hmap : s.mapped i.box (i.argC + 64) (g.slotSize - 64) false = true)
    (hpoison : s.poisonedBox i.box (i.argC + 64) (g.slotSize - 64) = false) (htake : s.mayTake i 0 g.slotSize = true) :
    ∃ t q, exec (.arenaWaitResume b) s = .next t ∧ t.arenaWait = s.arenaWait.erase (i.id, 0) ∧
      t.place? (i.entry 0).stream = some q ∧ q.live = true ∧ q.arena.isSome = true ∧
      OtherPlaces (i.entry 0).stream s t := by
  have ht := exec_arenaWaitResume_eq hfirst hi hkind hdisp htook
  rw [State.openTry_of_mayTake hp hg hlive hmap hpoison htake] at ht
  refine ⟨_, p.opened g (s.openSlot i p g) (arenaAddr s.freeCount) s.roundNow, ht, rfl, ?_, rfl, rfl, ?_⟩
  · exact State.place?_modPlace_same (s := (s.unwait i.id 0).draw.2) hp
  · exact ((OtherPlaces.of_places rfl).modPlace).trans (.of_places rfl)

theorem exec_arenaWaitResume_none (h : s.arenaWait = []) (b : Nat) : exec (.arenaWaitResume b) s = .next s := by
  show execArenaWaitResume b s = _
  simp only [execArenaWaitResume, h, List.filterMap_nil, List.filter_nil, pickFirst]

end Resume

end Sys2Proof.Machine
end

section
/-! Mirrors of this module's streams (R142, R144): acknowledged, timed out and sent to a new buddy. -/

namespace Sys2Proof.Machine

-- one theorem after the other: proofs that wait together take too many threads
set_option Elab.async false

/-! ### Completions let go (R142) -/

/-- The state in which item `i` no longer waits for the mirror of stream `n`, its completion posted if nothing is left
to wait for. -/
def State.freeOfMirror (n : Nat) (s : State) (i : Item) : State :=
  let left := i.mirrorWait.filter (· ≠ n)
  let s := s.modItem i.id (fun i => { i with mirrorWait := left })
  match i.disp with
  | some (.done _) => if left = [] then s.postItem i.id else s
  | _ => s

section Release
variable {s u : State} {n : Nat}

theorem State.releaseMirror_eq (s : State) (n : Nat) :
    s.releaseMirror n = (s.items.filter (fun i => i.mirrorWait.contains n)).foldl (State.freeOfMirror n) s := rfl

theorem State.frame_releaseMirror (s : State) (n : Nat) :
    Frame [.outbox, .freeCount, .ctr, .items, .boxes, .fab, .links] s (s.releaseMirror n) :=
  (State.releaseMirror_leads .refl (List.Subset.refl _)).frame

theorem State.releaseMirror_places (s : State) (n : Nat) : (s.releaseMirror n).places = s.places :=
  (s.frame_releaseMirror n).places (by decide)

theorem State.freeOfMirror_items (s : State) (n : Nat) (i : Item) : (s.freeOfMirror n i).items =
    (s.modItem i.id (fun j => { j with mirrorWait := i.mirrorWait.filter (· ≠ n) })).items := by
  unfold State.freeOfMirror
  dsimp only
  split
  · split
    · exact State.postItem_items ..
    · rfl
  · rfl

/-- An item that waits still after `i` has been let go waited before, under another identifier. -/
theorem State.mirrorWait_freeOfMirror {i j : Item} (hj : j ∈ (s.freeOfMirror n i).items) (hn : n ∈ j.mirrorWait) :
    j ∈ s.items ∧ j.id ≠ i.id := by
  rw [State.freeOfMirror_items] at hj
  obtain ⟨k, hk, rfl⟩ := List.mem_map.mp hj
  by_cases hid : k.id = i.id
  · simp [hid] at hn
  · rw [if_neg hid]
    exact ⟨hk, hid⟩

/-- Where each item that waits for the mirror has its identifier in `l`, none waits once those of `l` are let go. -/
theorem State.mirrorWait_foldl_freeOfMirror {l : List Item}
    (h : ∀ j ∈ s.items, n ∈ j.mirrorWait → ∃ i ∈ l, j.id = i.id) :
    ∀ j ∈ (l.foldl (State.freeOfMirror n) s).items, n ∉ j.mirrorWait := by
  induction l generalizing s with
  | nil =>
    intro j hj hn
    obtain ⟨i, hi, -⟩ := h j hj hn
    cases hi
  | cons i l ih =>
    refine ih (fun j hj hn => ?_)
    obtain ⟨hmem, hne⟩ := State.mirrorWait_freeOfMirror hj hn
    obtain ⟨k, hk, hid⟩ := h j hmem hn
    rcases List.mem_cons.mp hk with rfl | hk
    · exact absurd hid hne
    · exact ⟨k, hk, hid⟩

/-- No completion waits for a mirror that has been released (R142). -/
theorem State.mirrorWait_releaseMirror (s : State) (n : Nat) : ∀ j ∈ (s.releaseMirror n).items, n ∉ j.mirrorWait := by
  rw [State.releaseMirror_eq]
  refine State.mirrorWait_foldl_freeOfMirror (fun j hj hn => ⟨j, ?_, rfl⟩)
  exact List.mem_filter.mpr ⟨hj, by simpa using hn⟩

end Release

/-! ### Acknowledged, or timed out (R142) -/

section Answer
variable {s : State} {n at' : Nat} {p : Place} {g : Group}

theorem exec_mirrorAck (hp : s.place? n = some p) (hsent : p.mirrorSent.isSome = true) :
    ∃ t, exec (.mirrorAck n) s = .next t ∧ OtherPlaces n s t ∧
      t.place? n = some { p with mirrorSent := none, mirror := .inStep } ∧ ∀ i ∈ t.items, n ∉ i.mirrorWait := by
  have ht : exec (.mirrorAck n) s =
      .next ((s.modPlace n (fun p => { p with mirrorSent := none, mirror := .inStep })).releaseMirror n) := by
    show execMirrorAck n s = _
    simp only [execMirrorAck, hp, hsent, State.when, if_true]
  refine ⟨_, ht, ?_, ?_, State.mirrorWait_releaseMirror _ _⟩
  · exact ((OtherPlaces.of_places rfl).modPlace).trans (.of_places (State.releaseMirror_places ..))
  · exact (State.place?_of_places (State.releaseMirror_places ..) n).trans (State.place?_modPlace_same hp)

theorem exec_mirrorAck_unsent (hp : s.place? n = some p) (hsent : p.mirrorSent = none) :
    exec (.mirrorAck n) s = .next s := by
  show execMirrorAck n s = _
  simp only [execMirrorAck, hp, hsent, State.when, Option.isSome_none, Bool.false_eq_true, if_false]

/-- The record of a mirror that timed out (R142). -/
def timeoutRecord (g : Group) (n : Nat) : Record :=
  { pageRec .fork g.home 0x0203 .warning with box := some g.box, a := n, b := g.buddy }

/-- The state in which the mirror of stream `n`, sent at `at'`, has timed out and been recorded. -/
def State.mirrorExpired (s : State) (n at' : Nat) (g : Group) : State :=
  let u : State := { s with time := { s.time with t := max s.time.t (at' + s.mirrorTimeout g.home) } }
  ((u.modPlace n (fun p => { p with mirrorSent := none, mirror := .unprotected })).bump .fork g.home 6 1).event
    (timeoutRecord g n)

theorem exec_mirrorTimeout (hp : s.place? n = some p) (hg : s.groupOf n = some g) (hsent : p.mirrorSent = some at') :
    ∃ t, exec (.mirrorTimeout n) s = .next t ∧ OtherPlaces n s t ∧
      t.place? n = some { p with mirrorSent := none, mirror := .unprotected } ∧ (∀ i ∈ t.items, n ∉ i.mirrorWait) ∧
      t.time = { s.time with t := max s.time.t (at' + s.mirrorTimeout g.home) } ∧ Recorded (timeoutRecord g n) s t := by
  have ht : exec (.mirrorTimeout n) s = .next ((s.mirrorExpired n at' g).releaseMirror n) := by
    show execMirrorTimeout n s = _
    simp only [execMirrorTimeout, hp, hg, hsent]
    rfl
  have hplaces : ((s.mirrorExpired n at' g).releaseMirror n).places =
      (s.modPlace n (fun p => { p with mirrorSent := none, mirror := .unprotected })).places :=
    (State.releaseMirror_places ..).trans ((State.event_places ..).trans (State.bump_places ..))
  have hframe := (s.mirrorExpired n at' g).frame_releaseMirror n
  refine ⟨_, ht, ?_, ?_, State.mirrorWait_releaseMirror _ _, ?_, ?_⟩
  · exact ((OtherPlaces.of_places rfl).modPlace).trans (.of_places hplaces)
  · exact (State.place?_of_places hplaces n).trans (State.place?_modPlace_same hp)
  · exact (hframe.time (by decide)).trans ((State.event_time ..).trans (State.bump_time ..))
  · rw [Recorded, hframe.log (by decide), State.mirrorExpired, State.event_log, State.bump_log]
    rfl

end Answer

/-! ### Messages sent (R287) -/

section Sent
variable (s : State)

theorem State.routePkt_sent (p : TxPkt) (arrived : Option Nat) : (s.routePkt p arrived).fab.sent = s.fab.sent := by
  have hqueue : ∀ (port : Nat) (q : TxPkt), (s.queueOn port q).fab = s.fab := fun port q =>
    (State.queueOn_leads .refl (List.Subset.refl _)).frame.fab (by decide)
  unfold State.routePkt
  split
  · rfl
  · split
    · split
      · rw [hqueue]
      · rfl
    · rfl

theorem State.sendPlain_sent (dest cls seq : Nat) (msg : PktOut) :
    (s.sendPlain dest cls seq msg).fab.sent = s.fab.sent := by
  have hpackets : ((s.emit (.routed dest cls seq msg)).packets dest cls seq msg).2.fab = s.fab :=
    ((State.packets_leads .refl (List.Subset.refl _)).frame.fab (by decide)).trans (State.emit_fab ..)
  unfold State.sendPlain
  exact List.foldlRecOn (motive := fun u : State => u.fab.sent = s.fab.sent) _ _ (congrArg Fabric.sent hpackets)
    (fun u hu p _ => (u.routePkt_sent p none).trans hu)

/-- A message sent waits for its acknowledgement, whether it goes out now or once a route change is over (R287, R288). -/
theorem State.sendMsg_sent (dest cls : Nat) (msg : PktOut) : (s.sendMsg dest cls msg).fab.sent =
    s.fab.sent ++
      [{ dest := dest, cls := cls, seq := s.nextSeq dest cls, msg := msg, injected := !s.fab.stopped }] := by
  unfold State.sendMsg
  dsimp only
  split
  · rfl
  · exact State.sendPlain_sent ..

end Sent

/-! ### A whole mirror to the new buddy (R144) -/

section Resync
variable {s : State} {n : Nat} {p : Place} {g : Group}

/-- The time of the send stands in the stream's place, and the message to the buddy waits for its acknowledgement. -/
theorem State.emitMirror_sends (hp : s.place? n = some p) (hg : s.groupOf n = some g)
    (hslot : (p.arena.or p.poste).isSome = true) :
    (s.emitMirror n).places = (s.modPlace n (fun p => { p with mirrorSent := some s.time.t })).places ∧
      ∃ x ∈ (s.emitMirror n).fab.sent, x.dest = g.buddy ∧ x.cls = 3 := by
  obtain ⟨a, ha⟩ := Option.isSome_iff_exists.mp hslot
  simp only [State.emitMirror, hp, hg, ha]
  generalize hu : (if g.regMode = 2 then s.sendPages g p else s) = u
  have hframe : Frame [.outbox, .freeCount, .ctr, .pages, .fab, .links] s u := by
    rw [← hu]
    exact (Leads.ite (State.sendPages_leads .refl (List.Subset.refl _)) .refl).frame
  generalize PktOut.mirror _ _ _ _ _ _ = msg
  have hsend : Frame [.outbox, .freeCount, .ctr, .pages, .fab, .links] s (u.sendMsg g.buddy 3 msg) :=
    hframe.trans (State.sendMsg_leads .refl (by decide)).frame
  refine ⟨?_, { dest := g.buddy, cls := 3, seq := u.nextSeq g.buddy 3, msg := msg, injected := !u.fab.stopped }, ?_,
    rfl, rfl⟩
  · simp only [State.modPlace, State.bump_places, hsend.places (by decide), hsend.time (by decide)]
  · rw [State.modPlace_fab, State.bump_fab, State.sendMsg_sent]
    exact List.mem_append_right _ (List.mem_singleton.mpr rfl)

theorem exec_mirrorResync (hp : s.place? n = some p) (hg : s.groupOf n = some g) (hlive : p.live = true)
    (hmirror : p.mirror = .resync) (hsent : p.mirrorSent = none) (hslot : (p.arena.or p.poste).isSome = true)
    (hwin : s.time.window.isSome = true) : ∃ t, exec (.mirrorResync n) s = .next t ∧ OtherPlaces n s t ∧
      t.place? n = some { p with mirrorSent := some s.time.t } ∧ ∃ x ∈ t.fab.sent, x.dest = g.buddy ∧ x.cls = 3 := by
  have ht : exec (.mirrorResync n) s = .next (s.emitMirror n) := by
    show execMirrorResync n s = _
    simp [execMirrorResync, hp, hlive, hmirror, hsent, hwin, State.when]
  obtain ⟨hplaces, hmsg⟩ := State.emitMirror_sends hp hg hslot
  exact ⟨_, ht, ((OtherPlaces.of_places rfl).modPlace).trans (.of_places hplaces),
    (State.place?_of_places hplaces n).trans (State.place?_modPlace_same hp), hmsg⟩

theorem exec_mirrorResync_no_window (hp : s.place? n = some p) (hwin : s.time.window = none) :
    exec (.mirrorResync n) s = .next s := by
  show execMirrorResync n s = _
  simp [execMirrorResync, hp, hwin, State.when]

end Resync

end Sys2Proof.Machine
end

section
/-! Adoption (R143): the groups registered here for a dead position, and the streams whose mirrors are whole. -/

namespace Sys2Proof.Machine

-- one theorem after the other: proofs that wait together take too many threads
set_option Elab.async false

/-! ### A stream adopted from its mirror -/

/-- What adoption decides of a place. -/
def Place.standing (p : Place) : Bool × Residency × MirrorSt × Bool := (p.live, p.residency, p.mirror, p.poste.isSome)

/-- The groups by index, with the position that each is registered for. -/
def State.guests (s : State) : List (Nat × Option Nat) := s.groups.map (fun g => (g.index, g.guest))

/-- Stream `n` is live and AWAY, its slot in poste restante, with no mirror of its own (R143). -/
def State.isAdopted (s : State) (n : Nat) : Prop :=
  ∃ q, s.place? n = some q ∧ q.standing = (true, .away, .none, true)

section Stream
variable {s t : State} {src n : Nat} {g : Group} {m : MirrorHeld}

theorem State.guests_of_groups (h : t.groups = s.groups) : t.guests = s.guests := by rw [State.guests, State.guests, h]

theorem State.guests_modGroup (s : State) (k : Nat) {f : Group → Group}
    (hf : ∀ x, ((f x).index, (f x).guest) = (x.index, x.guest)) : (s.modGroup k f).guests = s.guests := by
  simp only [State.guests, State.modGroup, List.map_map]
  refine List.map_congr_left (fun x _ => ?_)
  simp only [Function.comp_apply]
  split
  · exact hf x
  · rfl

/-- The directories of an adopted stream change neither how a place stands nor what a group is registered for. -/
theorem State.adoptDirs_keeps (s : State) (src : Nat) (g : Group) (m : MirrorHeld) :
    PlacesAgree Place.standing s (s.adoptDirs src g m) ∧ (s.adoptDirs src g m).guests = s.guests := by
  unfold State.adoptDirs
  split
  · exact ⟨.refl s, rfl⟩
  · refine List.foldlRecOn (motive := fun u : State => PlacesAgree Place.standing s u ∧ u.guests = s.guests) _ _
      ⟨.refl s, rfl⟩ (fun u ⟨hplaces, hguests⟩ d _ => ?_)
    extract_lets keys key v r sig dir w fix
    have hv : v.places = u.places ∧ v.groups = u.groups := by
      refine List.foldlRecOn (motive := fun x : State => x.places = u.places ∧ x.groups = u.groups) _ _ ⟨rfl, rfl⟩
        (fun x hx k _ => ?_)
      split
      · exact hx
      · split <;> exact hx
    have hgv : v.guests = s.guests := (State.guests_of_groups hv.2).trans hguests
    refine ⟨(hplaces.trans (.of_places hv.1)).modPlace m.stream |>.trans (.of_places rfl), ?_⟩
    refine (State.guests_modGroup _ _ (fun x => ?_)).trans hgv
    split <;> rfl

/-- A place as its adoption from the mirror `m` leaves it (R143). -/
def Place.adopted (m : MirrorHeld) (bad : Bool) (a : Slot) (round : Nat) (p : Place) : Place :=
  { p with
    live := true, residency := .away, stepCount := m.stepCount, lineage := m.lineage, faulted := bad, mirror := .none
    bornAt := m.stepCount, tapes := [], lastUse := round, arena := none, window := none, windowCore := none
    poste := some a }

theorem State.adoptStream_eq (s : State) (src : Nat) (g : Group) (m : MirrorHeld) : ∃ bad a round,
    s.adoptStream src g m = (s.draw.2.modPlace m.stream (Place.adopted m bad a round)).adoptDirs src g m :=
  ⟨_, _, _, rfl⟩

theorem State.adoptStream_guests (s : State) (src : Nat) (g : Group) (m : MirrorHeld) :
    (s.adoptStream src g m).guests = s.guests := by
  obtain ⟨bad, a, round, h⟩ := s.adoptStream_eq src g m
  rw [h, (State.adoptDirs_keeps ..).2]
  rfl

theorem State.isAdopted_adoptStream (h : (s.place? m.stream).isSome = true) (src : Nat) (g : Group) :
    (s.adoptStream src g m).isAdopted m.stream := by
  obtain ⟨p, hp⟩ := Option.isSome_iff_exists.mp h
  obtain ⟨bad, a, round, h⟩ := s.adoptStream_eq src g m
  rw [h]
  exact (State.adoptDirs_keeps ..).1.exists (State.place?_modPlace_same (s := s.draw.2) hp)

theorem State.isSome_place?_adoptStream (h : (s.place? n).isSome = true) (src : Nat) (g : Group) (m : MirrorHeld) :
    ((s.adoptStream src g m).place? n).isSome = true := by
  obtain ⟨p, hp⟩ := Option.isSome_iff_exists.mp h
  obtain ⟨bad, a, round, h⟩ := s.adoptStream_eq src g m
  have hmod : PlacesAgree (fun _ => ()) s (s.draw.2.modPlace m.stream (Place.adopted m bad a round)) :=
    PlacesAgree.modPlace (.of_places rfl) _
  obtain ⟨q, hq, -⟩ := hmod.exists hp
  obtain ⟨q, hq, -⟩ := (State.adoptDirs_keeps _ src g m).1.exists hq
  rw [h, hq]
  rfl

theorem State.isAdopted.adoptStream (h : s.isAdopted n) (src : Nat) (g : Group) (m : MirrorHeld) :
    (s.adoptStream src g m).isAdopted n := by
  obtain ⟨q, hq, hstand⟩ := h
  by_cases hn : n = m.stream
  · subst hn
    exact State.isAdopted_adoptStream (by rw [hq]; rfl) src g
  · obtain ⟨bad, a, round, h⟩ := s.adoptStream_eq src g m
    rw [h]
    have hmod : (s.draw.2.modPlace m.stream (Place.adopted m bad a round)).place? n = some q :=
      (State.place?_modPlace_ne (Ne.symm hn)).trans hq
    obtain ⟨r, hr, hstand'⟩ := (State.adoptDirs_keeps _ src g m).1.exists hmod
    exact ⟨r, hr, hstand'.trans hstand⟩

end Stream

/-! ### The groups of a position adopted -/

/-- The state in which group `g`, registered for position `src`, is this module's own, and its mirrored streams with it. -/
def State.adoptGroup (src : Nat) (s : State) (g : Group) : State :=
  let u := s.modGroup g.index (fun g => { g with guest := none, adopted := true, prefillDone := true })
  (u.mirrors.filter (fun m => m.src == src && g.streams.contains m.stream)).foldl (fun s m => s.adoptStream src g m) u

/-- What some element of a list brings about, and every element keeps, holds after all of them. -/
theorem foldl_reaches {α : Type} {P Q : State → Prop} {f : State → α → State} {l : List α} {a : α} {s : State}
    (ha : a ∈ l) (hP : ∀ u b, P u → P (f u b)) (hQ : ∀ u b, Q u → Q (f u b)) (hPQ : ∀ u, P u → Q (f u a)) (h : P s) :
    Q (l.foldl f s) := by
  induction l generalizing s with
  | nil => cases ha
  | cons b l ih =>
    rcases List.mem_cons.mp ha with rfl | ha
    · exact List.foldlRecOn l f (hPQ s h) (fun u hu b _ => hQ u b hu)
    · exact ih ha (hP s b h)

section Groups
variable {s : State} {src n : Nat} {g : Group}

theorem State.adoptGroup_mirrors (s : State) (src : Nat) (g : Group) : (s.adoptGroup src g).mirrors = s.mirrors :=
  List.foldlRecOn (motive := fun u : State => u.mirrors = s.mirrors) _ _ rfl (fun _ hu _ _ =>
    ((State.adoptStream_leads .refl (List.Subset.refl _)).frame.mirrors (by decide)).trans hu)

theorem State.isSome_place?_adoptGroup (h : (s.place? n).isSome = true) (src : Nat) (g : Group) :
    ((s.adoptGroup src g).place? n).isSome = true :=
  List.foldlRecOn (motive := fun u : State => (u.place? n).isSome = true) _ _ h (fun _ hu m _ =>
    State.isSome_place?_adoptStream hu src g m)

theorem State.isAdopted.adoptGroup (h : s.isAdopted n) (src : Nat) (g : Group) : (s.adoptGroup src g).isAdopted n :=
  List.foldlRecOn (motive := fun u : State => u.isAdopted n) _ _ h (fun _ hu m _ => hu.adoptStream src g m)

theorem State.isAdopted_adoptGroup {m : MirrorHeld} (hm : m ∈ s.mirrors) (hsrc : m.src = src)
    (hstream : m.stream ∈ g.streams) (h : (s.place? m.stream).isSome = true) :
    (s.adoptGroup src g).isAdopted m.stream := by
  refine foldl_reaches (P := fun u => (u.place? m.stream).isSome = true) (Q := fun u => u.isAdopted m.stream) (a := m)
    (List.mem_filter.mpr ⟨hm, by simp [hsrc, hstream]⟩) (fun u b hu => State.isSome_place?_adoptStream hu src g b)
    (fun u b hu => hu.adoptStream src g b) (fun u hu => State.isAdopted_adoptStream hu src g) h

/-- A group registered for a position once `g` has been adopted was so before, under another index. -/
theorem State.guests_adoptGroup {k : Nat} (h : (k, some src) ∈ (s.adoptGroup src g).guests) :
    (k, some src) ∈ s.guests ∧ k ≠ g.index := by
  have hguests : (s.adoptGroup src g).guests =
      (s.modGroup g.index (fun g => { g with guest := none, adopted := true, prefillDone := true })).guests :=
    List.foldlRecOn (motive := fun u : State => u.guests = (s.modGroup g.index _).guests) _ _ rfl (fun u hu m _ =>
      (u.adoptStream_guests src g m).trans hu)
  rw [hguests] at h
  obtain ⟨y, hy, heq⟩ := List.mem_map.mp h
  obtain ⟨x, hx, rfl⟩ := List.mem_map.mp hy
  by_cases hid : x.index = g.index
  · simp [hid] at heq
  · rw [if_neg hid] at heq
    exact ⟨List.mem_map.mpr ⟨x, hx, heq⟩, fun hk => hid ((congrArg Prod.fst heq).trans hk)⟩

/-- Where each group registered for a position has its index in `l`, none is once those of `l` are adopted. -/
theorem State.guests_foldl_adoptGroup {l : List Group} (h : ∀ k, (k, some src) ∈ s.guests → ∃ g ∈ l, k = g.index) (k : Nat) :
    (k, some src) ∉ (l.foldl (State.adoptGroup src) s).guests := by
  induction l generalizing s with
  | nil =>
    intro hk
    obtain ⟨g, hg, -⟩ := h k hk
    cases hg
  | cons g l ih =>
    refine ih (fun j hj => ?_)
    obtain ⟨hmem, hne⟩ := State.guests_adoptGroup hj
    obtain ⟨x, hx, hid⟩ := h j hmem
    rcases List.mem_cons.mp hx with rfl | hx
    · exact absurd hid hne
    · exact ⟨x, hx, hid⟩

end Groups

/-! ### ADOPTION -/

section Adoption
variable {s : State} {pos : Nat}

/-- The state in which every group registered here for position `pos` has been adopted, the mirrors not yet released. -/
def State.adoptGroups (s : State) (pos : Nat) : State :=
  (s.groups.filter (fun g => g.guest == some pos)).foldl (State.adoptGroup pos) s

theorem State.adopt_eq (s : State) (pos : Nat) : s.adopt pos = { s.adoptGroups pos with
    mirrors := (s.adoptGroups pos).mirrors.filter (fun m => m.src != pos)
    mirrorPages := (s.adoptGroups pos).mirrorPages.filter (fun p => p.src != pos) } := rfl

theorem State.guest_of_mem_adoptGroups {g : Group} (hg : g ∈ (s.adoptGroups pos).groups) : g.guest ≠ some pos := by
  intro hguest
  refine State.guests_foldl_adoptGroup (s := s) (fun k hk => ?_) g.index (List.mem_map.mpr ⟨g, hg, by rw [hguest]⟩)
  obtain ⟨x, hx, heq⟩ := List.mem_map.mp hk
  obtain ⟨hindex, hguest⟩ := Prod.mk.inj heq
  exact ⟨x, List.mem_filter.mpr ⟨hx, by simp [hguest]⟩, hindex.symm⟩

theorem State.isAdopted_adoptGroups {g : Group} {m : MirrorHeld} {p : Place} (hg : g ∈ s.groups)
    (hguest : g.guest = some pos) (hm : m ∈ s.mirrors) (hsrc : m.src = pos) (hstream : m.stream ∈ g.streams)
    (hp : s.place? m.stream = some p) : (s.adoptGroups pos).isAdopted m.stream := by
  refine foldl_reaches (P := fun u => u.mirrors = s.mirrors ∧ (u.place? m.stream).isSome = true)
    (Q := fun u => u.isAdopted m.stream) (a := g)
    (List.mem_filter.mpr ⟨hg, by simp [hguest]⟩) (fun u x ⟨hmir, hplace⟩ => ?_) (fun u x hu => hu.adoptGroup pos x)
    (fun u ⟨hmir, hplace⟩ => ?_) ⟨rfl, by rw [hp]; rfl⟩
  · exact ⟨(u.adoptGroup_mirrors pos x).trans hmir, State.isSome_place?_adoptGroup hplace pos x⟩
  · exact State.isAdopted_adoptGroup (hmir ▸ hm) hsrc hstream hplace

theorem exec_adoption (hdead : s.fab.members.getD pos .absent = .dead) : ∃ t, exec (.adoption pos) s = .next t ∧
    (∀ g ∈ t.groups, g.guest ≠ some pos) ∧ (∀ m ∈ t.mirrors, m.src ≠ pos) ∧ (∀ p ∈ t.mirrorPages, p.src ≠ pos) ∧
    ∀ g m p, g ∈ s.groups → g.guest = some pos → m ∈ s.mirrors → m.src = pos → m.stream ∈ g.streams →
      s.place? m.stream = some p → ∃ q, t.place? m.stream = some q ∧ q.live = true ∧ q.residency = .away ∧
        q.mirror = .none ∧ q.poste.isSome = true := by
  have ht : exec (.adoption pos) s = .next (s.adopt pos) := by
    show execAdoption pos s = _
    rw [execAdoption, decide_eq_true hdead]
    rfl
  rw [State.adopt_eq] at ht
  refine ⟨_, ht, fun g hg => State.guest_of_mem_adoptGroups hg, fun m hm => ?_, fun p hp => ?_,
    fun g m p hg hguest hm hsrc hstream hp => ?_⟩
  · simpa using (List.mem_filter.mp hm).2
  · simpa using (List.mem_filter.mp hp).2
  · obtain ⟨q, hq, hstand⟩ := State.isAdopted_adoptGroups hg hguest hm hsrc hstream hp
    simp only [Place.standing, Prod.mk.injEq] at hstand
    exact ⟨q, hq, hstand⟩

theorem exec_adoption_not_dead (h : s.fab.members.getD pos .absent ≠ .dead) : exec (.adoption pos) s = .next s := by
  show execAdoption pos s = _
  rw [execAdoption, decide_eq_false h]
  rfl

end Adoption

/-- Settles O35: moves by the place each leaves, mirrors by the items they let go, adoption by what every group adopted
keeps of the others. -/
theorem streamsMoveAndMirror : Obligations.StreamsMoveAndMirror := by
  refine ⟨fun s n p g _ hp hg _ hlive hnone =>
      ⟨exec_outboundMoveDone_away hp hg hlive hnone, exec_inboundMoveDone_resident hp hg hlive hnone,
        exec_inboundMoveDone_faulted hp hg hlive hnone⟩,
    fun s n p hp hres => exec_moveDone_idle hp hres,
    fun s b i p g hi hkind hdisp hfirst htook _ hp hg hlive hmap hpoison htake =>
      exec_arenaWaitResume_openGroup hfirst hi hkind hdisp htook hp hg hlive hmap hpoison htake,
    fun s b h => exec_arenaWaitResume_none h b,
    fun s n p hp => ⟨exec_mirrorAck hp, exec_mirrorAck_unsent hp⟩,
    fun s n at' p g hp hg hsent => ?_,
    fun s pos => ⟨exec_adoption, exec_adoption_not_dead⟩,
    fun s n p g hp hg hlive hmirror hsent hslot =>
      ⟨exec_mirrorResync hp hg hlive hmirror hsent hslot, exec_mirrorResync_no_window hp⟩⟩
  obtain ⟨t, ht, hother, hplace, hwait, htime, hrec⟩ := exec_mirrorTimeout hp hg hsent
  exact ⟨t, ht, hother, hplace, hwait, htime, [], congrArg Recorder.queue hrec⟩

end Sys2Proof.Machine
end

section
/-! How a core stands after its walker's work (R62, R159, R168): the request that ends, the pages looked up and the rows
that go to the core buffer. -/

namespace Sys2Proof.Machine

-- one theorem after the other: proofs that wait together take too many threads
set_option Elab.async false

/-! ### The request at the head of a courier -/

/-- What waits in the queues of a core's units. -/
def Core.queues (k : Core) : List MxeOp × List DrnOp × List (List CourOp) := (k.mxeQ, k.drainQ, k.courQ)

/-- The core as the request at the head of courier `q` leaves it (R62). -/
def Core.walkDone (q : Nat) (k : Core) : Core :=
  { k with courQ := k.courQ.set q ((k.courQ.getD q []).drop 1), poolWait := false }

section Head
variable {s : State} {c q op n cl : Nat} {i : Inst} {w : WalkReq} {k k' : Core} {l : List CourOp}

theorem State.run_of_headWalk (h : s.headWalk c q op = some (i, cl, w)) : (s.core c).run = some i := by
  unfold State.headWalk at h
  split at h
  · rename_i hrun _
    dsimp only at h
    split at h
    · cases h
      exact hrun
    · cases h
  · cases h

theorem State.headWalk_of_courQ (hrun : (s.core c).run = some i) (hq : (s.core c).courQ.getD q [] = .walk cl n :: l)
    (hop : (WalkReq.ofNat n).op = op) : s.headWalk c q op = some (i, cl, WalkReq.ofNat n) := by
  simp only [State.headWalk, hrun, hq, hop, if_true]

theorem Core.onlyIn_of_queues (hq : k'.queues = k.queues) (h : k.onlyIn q) : k'.onlyIn q := by
  simp only [Core.queues, Prod.mk.injEq] at hq
  obtain ⟨hmxe, hdrain, hcour⟩ := hq
  rwa [Core.onlyIn, hmxe, hdrain, hcour]

/-- Where one request alone waited, its courier has none left. -/
theorem Core.courQ_walkDone (h : k.onlyIn q) : (k.walkDone q).courQ.getD q [] = [] := by
  obtain ⟨-, -, -, -, hlen⟩ := h
  by_cases hq : q < k.courQ.length
  · refine (getD_set_same hq _ _).trans (List.drop_eq_nil_of_le hlen.le)
  · exact List.getD_eq_default _ _ (by simpa [Core.walkDone] using hq)

/-- Where one request alone waited, nothing is left for any unit. -/
theorem Core.unitsIdle_walkDone (h : k.onlyIn q) : (k.walkDone q).unitsIdle := by
  have hdone := Core.courQ_walkDone h
  obtain ⟨hmxe, hdrain, hcour, -⟩ := h
  refine ⟨hmxe, hdrain, fun j hj => ?_⟩
  by_cases hjq : j = q
  · rw [hjq, hdone]
  · refine Eq.trans ?_ (hcour j hj hjq)
    simp only [Core.walkDone, List.getD_eq_getElem?_getD, List.getElem?_set_ne (Ne.symm hjq)]

/-- The only request of a core ends, and no unit has anything to run. -/
theorem State.endWalk_eq (hc : c < s.cores.length) (h : (s.core c).onlyIn q) :
    s.endWalk c q = s.modCore c (Core.walkDone q) := by
  have hcore : (s.modCore c (Core.walkDone q)).core c = (s.core c).walkDone q := State.core_modCore_same hc _
  exact State.runUnits_of_idle (hcore ▸ Core.unitsIdle_walkDone h)

theorem State.core_endWalk (hc : c < s.cores.length) (h : (s.core c).onlyIn q) :
    (s.endWalk c q).core c = (s.core c).walkDone q := by
  rw [State.endWalk_eq hc h, State.core_modCore_same hc]

end Head

/-! ### What the walker puts back as its request ends -/

section Ends
variable {s : State} {c q m n : Nat} {y : Exec}

@[simp] theorem Exec.putCore_queues (y : Exec) : y.putCore.queues = y.core.queues := rfl

/-- The walker's results are put back and counted on counter `m` of its page, and its request ends. -/
def State.walked (s : State) (c q m n : Nat) (y : Exec) : State := ((s.putExec c y).bump .kvw c m n).endWalk c q

theorem State.core_putExec_bump (hc : c < s.cores.length) : ((s.putExec c y).bump .kvw c m n).core c = y.putCore :=
  (State.core_of_cores (State.bump_cores ..) c).trans (State.core_putExec hc y)

theorem State.walked_eq (hc : c < s.cores.length) (h : y.core.onlyIn q) :
    s.walked c q m n y = ((s.putExec c y).bump .kvw c m n).modCore c (Core.walkDone q) := by
  refine State.endWalk_eq ?_ (State.core_putExec_bump hc ▸ h)
  rwa [State.bump_cores, State.putExec_cores_length]

theorem State.core_walked (hc : c < s.cores.length) (h : y.core.onlyIn q) :
    (s.walked c q m n y).core c = y.putCore.walkDone q := by
  rw [State.walked_eq hc h, State.core_modCore_same, State.core_putExec_bump hc]
  rwa [State.bump_cores, State.putExec_cores_length]

theorem State.courQ_walked (hc : c < s.cores.length) (h : y.core.onlyIn q) :
    ((s.walked c q m n y).core c).courQ.getD q [] = [] := by
  rw [State.core_walked hc h]
  exact Core.courQ_walkDone (k := y.putCore) h

theorem State.cbuf_walked (hc : c < s.cores.length) (h : y.core.onlyIn q) :
    ((s.walked c q m n y).core c).cbuf = y.core.cbuf := by
  rw [State.core_walked hc h]
  rfl

theorem State.live_walked (hc : c < s.cores.length) (h : y.core.onlyIn q) (hb : y.bumps = []) :
    (s.walked c q m n y).live .kvw c m = s.counted .kvw c m n := by
  obtain ⟨hctr, hregs⟩ := State.putExec_ctr_regs (s := s) (c := c) hb
  rw [State.walked_eq hc h]
  exact (State.live_bump ..).trans (State.counted_eq (State.frozen_of_regs hregs ..) (State.live_of_ctr hctr ..) n)

end Ends

/-! ### Pages looked up (R168) -/

section Lookup
variable {s t u : State} {c box layer : Nat} {x : WalkCtx}

/-- Look-ups leave the pages, the registers and what waits in each core, and count hits and misses alone. -/
structure LookedUp (c : Nat) (s t : State) : Prop where
  pages : t.pages = s.pages
  regs : t.regs = s.regs
  queues : CoresAgree Core.queues s t
  counters : OtherCounters [ctrKey .kvw c 1, ctrKey .kvw c 2] s t

theorem LookedUp.refl (c : Nat) (s : State) : LookedUp c s s := ⟨rfl, rfl, .refl s, .refl _ s⟩

theorem LookedUp.trans (h : LookedUp c s t) (k : LookedUp c t u) : LookedUp c s u :=
  ⟨k.pages.trans h.pages, k.regs.trans h.regs, h.queues.trans k.queues, h.counters.trans k.counters⟩

theorem LookedUp.bump (h : LookedUp c s t) {n : Nat} (hn : n = 1 ∨ n = 2) (k : Nat) :
    LookedUp c s (t.bump .kvw c n k) :=
  ⟨(State.bump_pages ..).trans h.pages, (State.bump_regs ..).trans h.regs,
    h.queues.trans (.of_cores (State.bump_cores ..)), h.counters.bump (by simpa using hn) k⟩

theorem LookedUp.modCore (h : LookedUp c s t) {f : Core → Core} (hf : ∀ k, (f k).queues = k.queues) :
    LookedUp c s (t.modCore c f) := ⟨h.pages, h.regs, h.queues.modCore c hf, h.counters⟩

theorem State.lookedUp_lookup (s : State) (c box : Nat) (x : WalkCtx) (layer : Nat) (e : Pte) :
    LookedUp c s (s.lookup c box x layer e) := by
  unfold State.lookup
  extract_lets key en hit u
  have hu : LookedUp c s u := .bump (.refl c s) (by cases hit <;> simp) 1
  split
  · exact hu.modCore fun _ => rfl
  · exact hu

end Lookup

/-! ### Rows in the core buffer (R63, R161) -/

/-- The engines' view with its queues as `k` has them and nothing counted. -/
def Exec.Keeps (k : Core) (y : Exec) : Prop := y.core.queues = k.queues ∧ y.bumps = []

section Rows
variable {y : Exec} {k : Core}

theorem State.execOf_keeps (s : State) (c : Nat) : (s.execOf c).Keeps (s.core c) :=
  ⟨congrArg Core.queues (s.execOf_core c), s.execOf_bumps c⟩

theorem Exec.Keeps.putCbuf (h : y.Keeps k) (off : Nat) (bytes : List Byte) (bad : List Bool) :
    (y.putCbuf off bytes bad).Keeps k := h

theorem Exec.Keeps.foldl {α : Type} {f : Exec → α → Exec} (h : y.Keeps k) (l : List α)
    (hf : ∀ z a, z.Keeps k → (f z a).Keeps k) : (l.foldl f y).Keeps k :=
  List.foldlRecOn l f h fun z hz a _ => hf z a hz

theorem Exec.Keeps.dwrite (h : y.Keeps k) (a m off size v : Nat) : (y.dwrite a m off size v).Keeps k := h

theorem Store.length_getRun {w : Nat} (m : Store w) (k n : Nat) : (m.getRun k n).length = n := by simp [Store.getRun]

/-- Bytes written read back, whatever was there. -/
theorem getRun_writeBytes (st : Store 8) (poison : List Nat) (off : Nat) (bytes : List Byte) (bad : List Bool) :
    (writeBytes st poison off bytes bad).1.getRun off bytes.length = bytes := by
  by_cases hb : bytes = []
  · subst hb
    rfl
  · rw [writeBytes_fst st poison off bad hb, Store.getRun_setRun_same]

theorem Exec.getRun_putCbuf (y : Exec) (off : Nat) (bytes : List Byte) (bad : List Bool) :
    (y.putCbuf off bytes bad).core.cbuf.getRun off bytes.length = bytes :=
  getRun_writeBytes y.core.cbuf y.core.cbufPoison off bytes bad

end Rows

/-! ### A run that fails leaves the core buffer -/

section Fail
variable {β : Type} {v : Core → β} {s : State} {c : Nat}

/-- A view of a core that shows neither its look-aside buffer nor what is queued for it: all that a failed entry changes. -/
def Core.Lasting (v : Core → β) : Prop :=
  ∀ k lab queue chain, v { k with lab := lab, queue := queue, chain := chain } = v k

theorem CoresAgree.flushLab_of (hv : Core.Lasting v) (s : State) (b stream : Nat) :
    CoresAgree v s (s.flushLab b stream) := by
  unfold State.flushLab State.dropLab
  extract_lets hit u
  have hu : CoresAgree v s u := .of_map rfl fun k => hv k _ k.queue k.chain
  refine hu.trans (.of_cores ?_)
  exact List.foldlRecOn (motive := fun t : State => t.cores = u.cores) _ _ rfl fun _ ht _ _ =>
    (State.bump_cores ..).trans ht

theorem CoresAgree.rollbackPages_of (hv : Core.Lasting v) (s : State) (stream : Nat) :
    CoresAgree v s (s.rollbackPages stream) := by
  unfold State.rollbackPages
  split
  · exact .refl s
  · extract_lets b gone t u
    split
    · exact .of_cores rfl
    · exact (CoresAgree.of_cores rfl).trans (.flushLab_of hv u b stream)

theorem CoresAgree.leaveStep_of (hv : Core.Lasting v) (s : State) (e : Entry) (ok : Bool) :
    CoresAgree v s (s.leaveStep e ok) := by
  unfold State.leaveStep
  extract_lets u w
  have hw : w.cores = s.cores := by
    unfold w
    split <;> rfl
  split
  · exact .of_cores hw
  · exact (CoresAgree.of_cores hw).trans ((CoresAgree.of_cores rfl).trans (.rollbackPages_of hv _ _))

theorem CoresAgree.leaveFailed_of (hv : Core.Lasting v) (s : State) (e : Entry) (f : Fail) :
    CoresAgree v s (s.leaveFailed e f) := by
  unfold State.leaveFailed
  split
  · exact (CoresAgree.leaveStep_of hv s e false).trans (.of_cores rfl)
  · exact .leaveStep_of hv s e false

theorem CoresAgree.failEntry_of (hv : Core.Lasting v) (s : State) (id k : Nat) (f : Fail) :
    CoresAgree v s (s.failEntry id k f) := by
  cases hi : s.item? id with
  | none =>
    simp only [State.failEntry, hi]
    exact .refl s
  | some i =>
    have hmark : CoresAgree v s (s.markFailed id k f) := .of_map rfl fun k => hv k k.lab _ _
    rw [State.failEntry_eq hi]
    split
    · exact (hmark.trans (.leaveFailed_of hv _ _ f)).trans (.of_cores rfl)
    · exact hmark

/-- A failing run leaves the core buffer (R63). -/
theorem State.cbuf_failRun (s : State) (c : Nat) (f : Fail) : ((s.failRun c f).core c).cbuf = (s.core c).cbuf := by
  cases hrun : (s.core c).run with
  | none => simp [State.failRun, hrun]
  | some i =>
    have hfail : s.failRun c f = ((s.stopInstance c).changed .ctl c).failEntry i.item i.entry (s.failOf i f) := by
      simp [State.failRun, hrun]
    have hkept := (CoresAgree.failEntry_of (v := Core.cbuf) (fun _ _ _ _ => rfl) ((s.stopInstance c).changed .ctl c)
      i.item i.entry (s.failOf i f)).2 c
    rw [hfail, hkept, State.core_changed, State.stopInstance_core (State.lt_cores_of_run hrun)]
    rfl

end Fail

end Sys2Proof.Machine
end

section
/-! WALK_ISSUE (R159, R162): a request joins its courier's queue, waits for room there, or ends the run. -/

namespace Sys2Proof.Machine

-- one theorem after the other: proofs that wait together take too many threads
set_option Elab.async false

section Issue
variable {s u : State} {c n off len : Nat} {i : Inst}

/-- The core with the request `a` of clerk `n` at the end of its courier's queue. -/
def Core.walkJoined (n a : Nat) (k : Core) : Core :=
  { k with courQ := k.courQ.set (WalkReq.ofNat a).courier (k.courQ.getD (WalkReq.ofNat a).courier [] ++ [.walk n a]) }

/-- The state with its group's record for a layer fixed by the request `a` with layer record `r` (R153). -/
def State.walkFixed (s : State) (i : Inst) (a r : Nat) : State :=
  match s.walkCtx i with
  | some x => s.fixLayer x (WalkReq.ofNat a).lr r
  | none => s

theorem State.executes_of_walkStore (h : s.walkStore c n = some (off, len)) : ∃ i, s.Executes c n i := by
  unfold State.walkStore at h
  split at h
  · rename_i hop
    exact State.executes_of_clerkOp hop
  · cases h

theorem State.fixLayer_cores (s : State) (x : WalkCtx) (l : LayerRec) (r : Nat) : (s.fixLayer x l r).cores = s.cores :=
  (State.fixLayer_leads .refl (List.Subset.refl _)).frame.cores (by decide)

theorem State.walkFixed_cores (s : State) (i : Inst) (a r : Nat) : (s.walkFixed i a r).cores = s.cores := by
  unfold State.walkFixed
  split
  · exact s.fixLayer_cores ..
  · rfl

/-- The state that an admitted request leaves (R159). -/
def State.walkAdmitted (s : State) (c n len : Nat) (i : Inst) (a r : Nat) : State :=
  (((s.walkFixed i a r).modCore c (Core.walkJoined n a)).retire c n len).bump .kvw c 0 1

/-- A request read as `y`, with its layer record `z`, that passes its checks. The model's local values stay named until the
checks are known: unfolded at once, they have the kernel compare the request's numerals. -/
theorem exec_walkIssue_admitted {y z : Exec × Nat} (hstore : s.walkStore c n = some (off, len))
    (hrun : (s.core c).run = some i) (hfull : (s.core c).walkFull = false) (halign : off % 32 = 0)
    (hend : off + 32 ≤ 0x8000) (hy : (s.execOf c).dread n off 32 = y) (hz : y.1.dread n (bits y.2 191 176) 16 = z)
    (hpass : firstFail [
      (s.putExec c z.1).walkChecks ((s.putExec c z.1).walkCtx i) (WalkReq.ofNat (y.2 + z.2 * 2 ^ 256)) z.2,
      walkTile ((s.putExec c z.1).execOf c) (WalkReq.ofNat (y.2 + z.2 * 2 ^ 256))] = none) :
    exec (.walkIssue c n) s = .next ((s.putExec c z.1).walkAdmitted c n len i (y.2 + z.2 * 2 ^ 256) z.2) := by
  have hok : ¬(off % 32 ≠ 0 ∨ 0x8000 < off + 32) := not_or.mpr ⟨not_not.mpr halign, not_lt.mpr hend⟩
  show execWalkIssue c n s = _
  unfold execWalkIssue
  rw [hstore, hrun]
  refine (if_neg (ne_true_of_eq_false hfull)).trans ((if_neg hok).trans ?_)
  extract_lets +onlyGivenNames req off' r u w x
  have hreq : req = y := hy
  have hr : r = z := by rw [← hz, ← hy]
  have hu : u = s.putExec c z.1 := by rw [← hr]
  have hw : w = WalkReq.ofNat (y.2 + z.2 * 2 ^ 256) := by rw [← hr, ← hreq]
  have hx : x = (s.putExec c z.1).walkCtx i := by rw [← hu]
  have hpass' : firstFail [u.walkChecks x w r.2, walkTile (u.execOf c) w] = none := by
    rw [hx, hw, hr, hu]
    exact hpass
  rw [hpass', ← hu, ← hr, ← hreq]
  rfl

/-- Clerk `n` has gone on by `len` bytes, its request `a` stands last in its courier's queue, and no other clerk or core
changes. -/
def WalkIssued (c n len a : Nat) (s t : State) : Prop :=
  t.clerk c n = { (s.clerk c n).advance len with state := .running } ∧ (∀ m, m ≠ n → t.clerk c m = s.clerk c m) ∧
    (t.core c).courQ = ((s.core c).walkJoined n a).courQ ∧ OtherCores c s t

theorem State.walkIssued_walkAdmitted (hc : c < u.cores.length) (hn : n < (u.core c).clerks.length) (i : Inst) (a r : Nat) :
    WalkIssued c n len a u (u.walkAdmitted c n len i a r) := by
  obtain ⟨v, hv⟩ : ∃ v, v = (u.walkFixed i a r).modCore c (Core.walkJoined n a) := ⟨_, rfl⟩
  have hfixed := u.walkFixed_cores i a r
  have hcore : v.core c = (u.core c).walkJoined n a := by
    rw [hv, State.core_modCore_same (hfixed.symm ▸ hc), State.core_of_cores hfixed]
  have hcv : c < v.cores.length := by rwa [hv, State.cores_length_modCore, hfixed]
  have hclerks : ∀ m, v.clerk c m = u.clerk c m := fun m => (State.clerk_of_core hcore).trans rfl
  have ht : (u.walkAdmitted c n len i a r).cores = (v.retire c n len).cores := hv ▸ State.bump_cores ..
  have hclerk : ∀ m, (u.walkAdmitted c n len i a r).clerk c m = (v.retire c n len).clerk c m := fun m =>
    State.clerk_of_core (State.core_of_cores ht c)
  obtain ⟨hcores, hsame, -⟩ := (OtherClerks.refl c n v).retire len
  refine ⟨?_, fun m hm => ?_, ?_, ?_⟩
  · rw [hclerk, State.clerk_retire_same hcv (hcore ▸ hn), hclerks]
  · rw [hclerk, hsame m hm, hclerks]
  · rw [State.core_of_cores ht, State.core_retire hcv, hcore]
  · exact (hv ▸ OtherCores.modCore (.of_cores hfixed) _).trans (hcores.trans (.of_cores ht))

/-- The reads of a request mark the run where they meet poison, and change no more of the core. -/
theorem State.walkIssued_putExec {z : Exec} (hexec : s.Executes c n i) (hz : z.core = s.core c) (x : Inst) (a r : Nat) :
    WalkIssued c n len a s ((s.putExec c z).walkAdmitted c n len x a r) := by
  obtain ⟨-, hc, hn⟩ := hexec
  obtain ⟨run, hput⟩ := State.core_putExec_run hc z
  rw [hz] at hput
  have hclerks : ∀ m, (s.putExec c z).clerk c m = s.clerk c m := fun m => (State.clerk_of_core hput).trans rfl
  obtain ⟨hclerk, hothers, hcour, hcores⟩ := State.walkIssued_walkAdmitted (u := s.putExec c z) (n := n) (len := len)
    ((s.putExec_cores_length c z).symm ▸ hc) (hput ▸ hn) x a r
  refine ⟨hclerks n ▸ hclerk, fun m hm => (hothers m hm).trans (hclerks m), hcour.trans (by rw [hput]; rfl), ?_⟩
  exact (OtherCores.putExec (.refl c s) z).trans hcores

theorem exec_walkIssue_misplaced (hstore : s.walkStore c n = some (off, len)) (hrun : (s.core c).run = some i)
    (hfull : (s.core c).walkFull = false) (hbad : off % 32 ≠ 0 ∨ 0x8000 < off + 32) :
    exec (.walkIssue c n) s = .next (s.failRun c (Fail.loadCheck 0x0601)) := by
  show execWalkIssue c n s = _
  unfold execWalkIssue
  rw [hstore, hrun]
  exact (if_neg (ne_true_of_eq_false hfull)).trans (if_pos hbad)

theorem exec_walkIssue_full (hstore : s.walkStore c n = some (off, len)) (hrun : (s.core c).run = some i)
    (hfull : (s.core c).walkFull = true) : exec (.walkIssue c n) s = .next (s.stall c n) := by
  show execWalkIssue c n s = _
  unfold execWalkIssue
  rw [hstore, hrun]
  exact if_pos hfull

end Issue

end Sys2Proof.Machine
end

section
/-! LENGTHS, GATHER_K and GATHER_V, BIAS (R160, R161, R168, R170 to R173): what each leaves of its core. -/

namespace Sys2Proof.Machine

-- one theorem after the other: proofs that wait together take too many threads
set_option Elab.async false

/-! ### LENGTHS (R170, R171) -/

section Lengths
variable {s : State} {c q cl : Nat} {i : Inst} {w : WalkReq} {x : WalkCtx} {d : LayerDir}

/-- The 16 bytes of LENGTHS as a number (R170). -/
def WalkCtx.lengths (x : WalkCtx) (d : LayerDir) (w : WalkReq) : Nat :=
  x.cur % 2 ^ 32 * 2 ^ 96 +
    (keyFrames d x w.lr.tokens w.lr.window 0 * w.lr.tokens +
      (if d.valid then min (d.endTok + d.pending) ((x.cur + 1) * w.lr.tokens) - x.cur * w.lr.tokens else 0)) * 2 ^ 64 +
    keyFrames d x w.lr.tokens w.lr.window 0 * 2 ^ 48 + w.lr.tokens * 2 ^ 32 + x.stream

theorem exec_lengths (hshape : s.Shape) (hcl : cl < 4) (honly : (s.core c).onlyIn q)
    (hhead : s.headWalk c q 1 = some (i, cl, w)) (hx : s.walkCtx i = some x) (hd : s.dirOf x w.lr.layer = some d) :
    ∃ t, exec (.lengths c q) s = .next t ∧ (t.core c).courQ.getD q [] = [] ∧ (t.core c).cbuf = (s.core c).cbuf ∧
      (t.clerk c cl).dmem.getRun w.dest 16 = leBytes 16 (x.lengths d w) := by
  have hc : c < s.cores.length := State.lt_cores_of_run (State.run_of_headWalk hhead)
  obtain ⟨y, hy⟩ : ∃ y, y = (s.execOf c).dwrite cl cl w.dest 16 (x.lengths d w) := ⟨_, rfl⟩
  have hkeeps : y.Keeps (s.core c) := hy ▸ (s.execOf_keeps c).dwrite ..
  have hcore : (s.putExec c y).core c = y.putCore := State.core_putExec hc y
  have hdone : ((s.putExec c y).endWalk c q).core c = y.putCore.walkDone q := by
    rw [State.core_endWalk ((s.putExec_cores_length c y).symm ▸ hc), hcore]
    exact hcore ▸ Core.onlyIn_of_queues hkeeps.1 honly
  have hlen : cl < (s.execOf c).core.clerks.length := by
    rw [State.execOf_core, (State.core_shape (c := c) hshape).1]
    exact hcl
  refine ⟨(s.putExec c y).endWalk c q, ?_, ?_, ?_, ?_⟩
  · show execLengths c q s = _
    simp only [execLengths, hhead, hx, hd, hy]
    rfl
  · rw [hdone]
    exact Core.courQ_walkDone (k := y.putCore) (Core.onlyIn_of_queues hkeeps.1 honly)
  · rw [hdone]
    have hcbuf : y.core.cbuf = (s.execOf c).core.cbuf := by rw [hy]; rfl
    exact hcbuf.trans (congrArg Core.cbuf (s.execOf_core c))
  · rw [State.clerk_of_core hdone]
    exact hy ▸ (Exec.dmem_dwrite hlen (Nat.succ_pos 15)).1

end Lengths

/-! ### GATHER_K and GATHER_V (R160, R161, R168) -/

section Gather
variable {s : State} {v : Bool} {c q cl : Nat} {i : Inst} {w : WalkReq} {x : WalkCtx} {d : LayerDir}

/-- Token of a selection's pair, counted over the whole stream (R161). -/
def WalkReq.token (w : WalkReq) (x : WalkCtx) (a : Nat × Nat) : Nat := (x.cur - a.1) * w.lr.tokens + a.2

/-- The state after the pages of a selection have been looked up (R168). -/
def State.lookups (s : State) (c : Nat) (i : Inst) (w : WalkReq) (x : WalkCtx) (d : LayerDir) : State :=
  ((w.selection.map (w.token x)).map d.pageOf).dedup.foldl (fun s p =>
    match d.pte? p with | some e => s.lookup c i.box x w.lr.layer e | none => s) s

/-- Row `g.2` of a gather: the row of token `g.1`, from its page to the core buffer. -/
def State.gatherRow (s : State) (v : Bool) (w : WalkReq) (d : LayerDir) (y : Exec) (g : Nat × Nat) : Exec :=
  match d.pte? (d.pageOf g.1) with
  | none => y
  | some e =>
    match s.page? e.da with
    | none => y
    | some pg =>
      let at' := w.lr.slotAt v (d.slotOf g.1) w.head
      y.putCbuf (w.dest + g.2 * w.stride) (pg.data.getRun at'.1 at'.2)
        ((List.range at'.2).map (fun b => poisonIn pg.poison (at'.1 + b) 1))

/-- The engines' view with every row of a selection gathered. -/
def State.gathered (s : State) (v : Bool) (c : Nat) (w : WalkReq) (x : WalkCtx) (d : LayerDir) : Exec :=
  (w.selection.map (w.token x)).zipIdx.foldl (s.gatherRow v w d) (s.execOf c)

theorem State.gather_eq (hhead : s.headWalk c q (if v then 3 else 2) = some (i, cl, w)) (hx : s.walkCtx i = some x)
    (hd : s.dirOf x w.lr.layer = some d) (hall : missing x w (some d) = none) :
    s.gather c q v =
      (s.lookups c i w x d).walked c q 4 w.selection.length ((s.lookups c i w x d).gathered v c w x d) := by
  simp only [State.gather, hhead, hx, hd, hall]
  rfl

theorem State.gather_of_missing {f : Fail} (hhead : s.headWalk c q (if v then 3 else 2) = some (i, cl, w))
    (hx : s.walkCtx i = some x) (hd : s.dirOf x w.lr.layer = some d) (hmiss : missing x w (some d) = some f) :
    s.gather c q v = s.failRun c f := by
  simp only [State.gather, hhead, hx, hd, hmiss]

theorem exec_gather (s : State) (v : Bool) (c q : Nat) :
    exec (if v then .gatherV c q else .gatherK c q) s = .next (s.gather c q v) := by
  cases v <;> rfl

theorem State.lookedUp_lookups (s : State) (c : Nat) (i : Inst) (w : WalkReq) (x : WalkCtx) (d : LayerDir) :
    LookedUp c s (s.lookups c i w x d) := by
  refine List.foldlRecOn (motive := LookedUp c s) _ _ (.refl c s) fun u hu p _ => ?_
  split
  · exact hu.trans (u.lookedUp_lookup ..)
  · exact hu

theorem State.gathered_keeps (s : State) (v : Bool) (c : Nat) (w : WalkReq) (x : WalkCtx) (d : LayerDir) :
    (s.gathered v c w x d).Keeps (s.core c) := by
  refine (s.execOf_keeps c).foldl _ fun y g hy => ?_
  unfold State.gatherRow
  split
  · exact hy
  · split
    · exact hy
    · exact hy.putCbuf ..

/-- The one row of a selection of one token stands in the core buffer as its page holds it. -/
theorem State.cbuf_gathered {a : Nat × Nat} {e : Pte} {pg : KvPage} (hsel : w.selection = [a])
    (he : d.pte? (d.pageOf (w.token x a)) = some e) (hpg : s.page? e.da = some pg) :
    (s.gathered v c w x d).core.cbuf.getRun w.dest (w.lr.slotAt v (d.slotOf (w.token x a)) w.head).2 =
      pg.data.getRun (w.lr.slotAt v (d.slotOf (w.token x a)) w.head).1
        (w.lr.slotAt v (d.slotOf (w.token x a)) w.head).2 := by
  have hrow := Exec.getRun_putCbuf (s.execOf c) w.dest
    (pg.data.getRun (w.lr.slotAt v (d.slotOf (w.token x a)) w.head).1 (w.lr.slotAt v (d.slotOf (w.token x a)) w.head).2)
    ((List.range (w.lr.slotAt v (d.slotOf (w.token x a)) w.head).2).map (fun b =>
      poisonIn pg.poison ((w.lr.slotAt v (d.slotOf (w.token x a)) w.head).1 + b) 1))
  rw [Store.length_getRun] at hrow
  simpa [State.gathered, hsel, State.gatherRow, he, hpg] using hrow

theorem State.gather_all (honly : (s.core c).onlyIn q) (hhead : s.headWalk c q (if v then 3 else 2) = some (i, cl, w))
    (hx : s.walkCtx i = some x) (hd : s.dirOf x w.lr.layer = some d) (hall : missing x w (some d) = none) :
    ((s.gather c q v).core c).courQ.getD q [] = [] ∧
      (s.gather c q v).live .kvw c 4 = s.counted .kvw c 4 w.selection.length ∧
      ∀ a e pg, w.selection = [a] → d.pte? (d.pageOf (w.token x a)) = some e → s.page? e.da = some pg →
        ((s.gather c q v).core c).cbuf.getRun w.dest (w.lr.slotAt v (d.slotOf (w.token x a)) w.head).2 =
          pg.data.getRun (w.lr.slotAt v (d.slotOf (w.token x a)) w.head).1
            (w.lr.slotAt v (d.slotOf (w.token x a)) w.head).2 := by
  have hc : c < s.cores.length := State.lt_cores_of_run (State.run_of_headWalk hhead)
  obtain ⟨u, hu⟩ : ∃ u, u = s.lookups c i w x d := ⟨_, rfl⟩
  obtain ⟨hpages, hregs, ⟨hlen, hqueues⟩, hcounters⟩ := hu ▸ s.lookedUp_lookups c i w x d
  obtain ⟨hkept, hbumps⟩ := u.gathered_keeps v c w x d
  have hcu : c < u.cores.length := hlen.symm ▸ hc
  have hidle : (u.gathered v c w x d).core.onlyIn q := Core.onlyIn_of_queues (hkept.trans (hqueues c)) honly
  rw [State.gather_eq hhead hx hd hall, ← hu]
  refine ⟨State.courQ_walked hcu hidle, (State.live_walked hcu hidle hbumps).trans ?_, fun a e pg hsel he hpg => ?_⟩
  · exact State.counted_eq (State.frozen_of_regs hregs ..) (hcounters.live (by simp)) _
  · rw [State.cbuf_walked hcu hidle]
    exact State.cbuf_gathered hsel he ((congrArg (List.find? _) hpages).trans hpg)

end Gather

/-! ### BIAS (R172, R173) -/

section Bias
variable {s : State} {c q cl : Nat} {i : Inst} {w : WalkReq} {x : WalkCtx} {vas : List Nat}

/-- Row `r` of a BIAS as bytes. -/
def State.biasRow (s : State) (box : Nat) (w : WalkReq) (r : Nat) : List Byte :=
  w.selection.flatMap (fun t => leBytes 4 (s.biasElem box w r t).toNat)

/-- The engines' view with every row of a BIAS in the core buffer. -/
def State.biased (s : State) (c : Nat) (i : Inst) (w : WalkReq) : Exec :=
  (List.range w.qPn).foldl (fun y r => y.putCbuf (w.dest + r * w.stride) (s.biasRow i.box w r) []) (s.execOf c)

theorem State.length_biasRow (s : State) (box : Nat) (w : WalkReq) (r : Nat) :
    (s.biasRow box w r).length = 4 * w.selection.length := by
  simp [State.biasRow, List.length_flatMap, leBytes_length, Nat.mul_comm]

theorem State.biased_keeps (s : State) (c : Nat) (i : Inst) (w : WalkReq) : (s.biased c i w).Keeps (s.core c) :=
  (s.execOf_keeps c).foldl _ fun _ _ hy => hy.putCbuf ..

theorem State.cbuf_biased (h : w.qPn = 1) :
    (s.biased c i w).core.cbuf.getRun w.dest (4 * w.selection.length) = s.biasRow i.box w 0 := by
  have hrow := Exec.getRun_putCbuf (s.execOf c) w.dest (s.biasRow i.box w 0) []
  rw [State.length_biasRow] at hrow
  simpa [State.biased, h] using hrow

/-- A BIAS whose tokens exist and whose table entries can all be read. -/
theorem exec_bias (hhead : s.headWalk c q 6 = some (i, cl, w)) (hx : s.walkCtx i = some x)
    (hall : missing x w (s.dirOf x w.lr.layer) = none)
    (hvas : vas = (List.range w.qPn).flatMap (fun r => w.selection.flatMap (biasVas w r)))
    (hread : ∀ va ∈ vas, s.mapped i.box va 4 false = true ∧ s.absentIn i.box va 4 = none ∧
      s.poisonedBox i.box va 4 = false) :
    exec (.bias c q) s = .next (s.walked c q 8 (w.qPn * w.selection.length) (s.biased c i w)) := by
  have hmapped : vas.find? (fun va => !s.mapped i.box va 4 false) = none :=
    List.find?_eq_none.mpr fun va hva => by simp [(hread va hva).1]
  have hpresent : vas.find? (fun va => (s.absentIn i.box va 4).isSome) = none :=
    List.find?_eq_none.mpr fun va hva => by simp [(hread va hva).2.1]
  have hclean : vas.find? (fun va => s.poisonedBox i.box va 4) = none :=
    List.find?_eq_none.mpr fun va hva => by simp [(hread va hva).2.2]
  show execBias c q s = _
  simp only [execBias, hhead, hx, hall, ← hvas, hmapped, hpresent, hclean]
  rfl

theorem State.walked_biased (honly : (s.core c).onlyIn q) (hc : c < s.cores.length) (n : Nat) :
    ((s.walked c q 8 n (s.biased c i w)).core c).courQ.getD q [] = [] ∧
      (s.walked c q 8 n (s.biased c i w)).live .kvw c 8 = s.counted .kvw c 8 n ∧
      (w.qPn = 1 → ((s.walked c q 8 n (s.biased c i w)).core c).cbuf.getRun w.dest (4 * w.selection.length) =
        s.biasRow i.box w 0) := by
  obtain ⟨hkept, hbumps⟩ := s.biased_keeps c i w
  have hidle : (s.biased c i w).core.onlyIn q := Core.onlyIn_of_queues hkept honly
  refine ⟨State.courQ_walked hc hidle, State.live_walked hc hidle hbumps, fun hone => ?_⟩
  rw [State.cbuf_walked hc hidle]
  exact State.cbuf_biased hone

end Bias

end Sys2Proof.Machine
end

section
/-! APPEND_K and APPEND_V (R160, R163 to R165), and the request that waited for the pool (R167). -/

namespace Sys2Proof.Machine

-- one theorem after the other: proofs that wait together take too many threads
set_option Elab.async false

/-! ### What the engines put back leaves of pages and lists -/

section Put
variable {s : State} {c : Nat} {y : Exec}

theorem State.putExec_pages_poolWait (s : State) (c : Nat) (y : Exec) :
    (s.putExec c y).pages = s.pages ∧ (s.putExec c y).poolWait = s.poolWait := by
  unfold State.putExec
  extract_lets _ core u v
  refine List.foldlRecOn (motive := fun t : State => t.pages = s.pages ∧ t.poolWait = s.poolWait) _ _ ?_
    fun t ⟨hpages, hpool⟩ b _ => ⟨(State.bump_pages ..).trans hpages, (State.bump_poolWait ..).trans hpool⟩
  unfold v
  split
  · split <;> exact ⟨rfl, rfl⟩
  · exact ⟨rfl, rfl⟩

/-- A stream's window is written back, and no list changes. -/
theorem PlacesAgree.putExec (s : State) (c : Nat) (y : Exec) : PlacesAgree Place.dirs s (s.putExec c y) := by
  unfold State.putExec
  extract_lets _ core u v
  refine PlacesAgree.foldl _ ?_ fun t b => .of_places (State.bump_places ..)
  unfold v
  split
  · split
    · exact (PlacesAgree.of_places rfl).modPlace _ |>.trans (.of_places rfl)
    · exact .of_places rfl
  · exact .of_places rfl

end Put

/-! ### Lists and pages changed -/

section Lists
variable {s t : State} {x : WalkCtx} {layer da : Nat} {d : LayerDir} {pg : KvPage}

theorem State.dirOf_some_iff : s.dirOf x layer = some d ↔ ∃ p, s.place? x.stream = some p ∧ p.dir? layer = some d := by
  unfold State.dirOf
  cases s.place? x.stream <;> simp

/-- In a list changed by `f` where the key is `n`, the first element of key `n` is changed. -/
theorem find?_update_same {α : Type} {key : α → Nat} {f : α → α} (hf : ∀ a, key (f a) = key a) {n : Nat} {l : List α}
    {a : α} (h : l.find? (fun a => key a == n) = some a) :
    (l.map (fun a => if key a = n then f a else a)).find? (fun a => key a == n) = some (f a) := by
  have hpred : ((fun a => key a == n) ∘ fun a => if key a = n then f a else a) = fun a => key a == n := by
    funext b
    by_cases hb : key b = n <;> simp [hb, hf]
  have hkey : key a = n := by simpa using List.find?_some h
  rw [List.find?_map, hpred, h, Option.map_some, if_pos hkey]

theorem Place.dir?_modDir_same {p : Place} {f : LayerDir → LayerDir} (hd : p.dir? layer = some d)
    (hf : ∀ d, (f d).layer = d.layer) : (p.modDir layer f).dir? layer = some (f d) :=
  find?_update_same hf hd

/-- A list changed in its stream's place reads back, where nothing before touched the lists. -/
theorem State.dirOf_modPlace_modDir {f : LayerDir → LayerDir} (h : PlacesAgree Place.dirs s t)
    (hd : s.dirOf x layer = some d) (hf : ∀ d, (f d).layer = d.layer) :
    (t.modPlace x.stream (fun p => p.modDir layer f)).dirOf x layer = some (f d) := by
  obtain ⟨p, hp, hdir⟩ := State.dirOf_some_iff.mp hd
  obtain ⟨p', hp', hdirs⟩ := h.exists hp
  refine State.dirOf_some_iff.mpr ⟨_, State.place?_modPlace_same hp', Place.dir?_modDir_same ?_ hf⟩
  rw [Place.dir?, hdirs]
  exact hdir

theorem State.page?_modPage_same {f : KvPage → KvPage} (hpg : s.page? da = some pg) (hf : ∀ p, (f p).da = p.da) :
    (s.modPage da f).page? da = some (f pg) := find?_update_same hf hpg

end Lists

/-! ### APPEND_K and APPEND_V -/

section Append
variable {s u : State} {v : Bool} {c q cl : Nat} {i : Inst} {w : WalkReq} {x : WalkCtx} {d : LayerDir} {k : Core}

/-- First token that an append writes, counted over the whole stream. -/
def WalkReq.appendFrom (w : WalkReq) (x : WalkCtx) : Nat := (x.cur - w.dLo) * w.lr.tokens + w.p0

/-- A page with the row at `at'` taken from the core buffer of `k` at `start`. -/
def KvPage.withRow (k : Core) (at' : Nat × Nat) (start : Nat) (pg : KvPage) : KvPage :=
  let r := writeBytes pg.data pg.poison at'.1 (k.cbuf.getRun start at'.2)
    ((List.range at'.2).map (fun b => poisonIn k.cbufPoison (start + b) 1))
  { pg with data := r.1, poison := r.2 }

/-- Row `j` of an append, from the core buffer of `k` to its page. -/
def State.appendRow (v : Bool) (k : Core) (w : WalkReq) (x : WalkCtx) (d : LayerDir) (s : State) (j : Nat) : State :=
  match d.pte? (d.pageOf (w.appendFrom x + j)) with
  | none => s
  | some e => s.modPage e.da
      (KvPage.withRow k (w.lr.slotAt v (d.slotOf (w.appendFrom x + j)) w.head) (w.dest + j * w.stride))

/-- Every row of an append in its page. -/
def State.appendRows (s : State) (v : Bool) (k : Core) (w : WalkReq) (x : WalkCtx) (d : LayerDir) : State :=
  (List.range w.pn).foldl (State.appendRow v k w x d) s

/-- What an append consumes of poison in the core buffer of `k`. -/
def WalkReq.readsPoison (w : WalkReq) (k : Core) : Bool :=
  (List.range w.pn).any (fun j => poisonIn k.cbufPoison (w.dest + j * w.stride) w.rowBytes)

/-- A list whose pending end takes in the rows of an append. -/
def LayerDir.appended (w : WalkReq) (x : WalkCtx) (d : LayerDir) : LayerDir :=
  { d with pending := max d.pending (w.appendFrom x + w.pn - d.endTok) }

/-- The state with the rows written and the pending end moved, the request not yet ended. -/
def State.appended (s : State) (v : Bool) (c : Nat) (w : WalkReq) (x : WalkCtx) (d : LayerDir) : State :=
  let k := (s.execOf c).core
  let t := s.appendRows v k w x d
  ((t.putExec c { t.execOf c with poisoned := w.readsPoison k }).modPlace x.stream
    (fun p => p.modDir w.lr.layer (LayerDir.appended w x))).bump .kvw c 5 w.pn

theorem exec_append (s : State) (v : Bool) (c q : Nat) :
    exec (if v then .appendV c q else .appendK c q) s = .next (s.append c q v) := by
  cases v <;> rfl

theorem State.append_eq (hhead : s.headWalk c q (if v then 5 else 4) = some (i, cl, w)) (hx : s.walkCtx i = some x)
    (hprep : s.prepare c i x w (x.cur - w.dLo) = some u) (hd : u.dirOf x w.lr.layer = some d) :
    s.append c q v = (u.appended v c w x d).endWalk c q := by
  simp only [State.append, hhead, hx, hprep, hd]
  rfl

/-- The rows of an append change pages alone. -/
theorem State.appendRows_eq (s : State) (v : Bool) (k : Core) (w : WalkReq) (x : WalkCtx) (d : LayerDir) :
    ∃ pages, s.appendRows v k w x d = { s with pages := pages } := by
  refine List.foldlRecOn (motive := fun t : State => ∃ pages, t = { s with pages := pages }) _ _ ⟨s.pages, rfl⟩
    fun t ⟨pages, ht⟩ j _ => ?_
  subst ht
  unfold State.appendRow
  split
  · exact ⟨pages, rfl⟩
  · exact ⟨_, rfl⟩

/-- The one row of an append of one token stands in its page as the core buffer holds it. -/
theorem State.page?_appendRows {e : Pte} {pg : KvPage} (hone : w.pn = 1)
    (he : d.pte? (d.pageOf (w.appendFrom x)) = some e) (hpg : s.page? e.da = some pg) :
    (s.appendRows v k w x d).page? e.da =
      some (pg.withRow k (w.lr.slotAt v (d.slotOf (w.appendFrom x)) w.head) w.dest) := by
  have hrows : s.appendRows v k w x d =
      s.modPage e.da (KvPage.withRow k (w.lr.slotAt v (d.slotOf (w.appendFrom x)) w.head) w.dest) := by
    simp [State.appendRows, State.appendRow, hone, he]
  rw [hrows]
  exact State.page?_modPage_same hpg fun _ => rfl

theorem KvPage.getRun_withRow (k : Core) (at' : Nat × Nat) (start : Nat) (pg : KvPage) :
    (pg.withRow k at' start).data.getRun at'.1 at'.2 = k.cbuf.getRun start at'.2 := by
  obtain ⟨bytes, hbytes⟩ : ∃ bytes, bytes = k.cbuf.getRun start at'.2 := ⟨_, rfl⟩
  have hlen : bytes.length = at'.2 := hbytes ▸ Store.length_getRun ..
  have hdata : (pg.withRow k at' start).data = (writeBytes pg.data pg.poison at'.1 bytes
      ((List.range at'.2).map (fun b => poisonIn k.cbufPoison (start + b) 1))).1 := by rw [hbytes]; rfl
  rw [hdata, ← hbytes, ← hlen]
  exact getRun_writeBytes ..

/-- The engines put back the core as it was before the rows, but for the poison that it read. -/
theorem State.appended_eq (u : State) (v : Bool) (c : Nat) (w : WalkReq) (x : WalkCtx) (d : LayerDir) :
    ∃ y : Exec, y.core = u.core c ∧ y.bumps = [] ∧ u.appended v c w x d =
      (((u.appendRows v (u.core c) w x d).putExec c y).modPlace x.stream
        (fun p => p.modDir w.lr.layer (LayerDir.appended w x))).bump .kvw c 5 w.pn := by
  obtain ⟨pages, hrows⟩ := u.appendRows_eq v (u.core c) w x d
  refine ⟨{ (u.appendRows v (u.core c) w x d).execOf c with poisoned := w.readsPoison (u.core c) }, ?_,
    State.execOf_bumps .., ?_⟩
  · refine (State.execOf_core ..).trans ?_
    rw [hrows]
    rfl
  · rw [State.appended, State.execOf_core]

/-- What an append leaves, its request not yet ended. -/
theorem State.appended_keeps (hc : c < u.cores.length) (hd : u.dirOf x w.lr.layer = some d) :
    ((u.appended v c w x d).core c).queues = (u.core c).queues ∧ (u.appended v c w x d).cores.length = u.cores.length ∧
      (u.appended v c w x d).poolWait = u.poolWait ∧
      (u.appended v c w x d).live .kvw c 5 = u.counted .kvw c 5 w.pn ∧
      (u.appended v c w x d).dirOf x w.lr.layer = some (d.appended w x) ∧
      (u.appended v c w x d).pages = (u.appendRows v (u.core c) w x d).pages := by
  obtain ⟨y, hcore, hbumps, happ⟩ := u.appended_eq v c w x d
  obtain ⟨pages, hrows⟩ := u.appendRows_eq v (u.core c) w x d
  obtain ⟨t, ht⟩ : ∃ t, t = u.appendRows v (u.core c) w x d := ⟨_, rfl⟩
  rw [← ht] at happ hrows ⊢
  have hcores : t.cores = u.cores := by rw [hrows]
  obtain ⟨hctr, hregs⟩ := State.putExec_ctr_regs (s := t) (c := c) hbumps
  obtain ⟨hput, hpool⟩ := t.putExec_pages_poolWait c y
  have hput_cores : (u.appended v c w x d).cores = (t.putExec c y).cores := happ ▸ State.bump_cores ..
  have hlists : PlacesAgree Place.dirs u (t.putExec c y) := (PlacesAgree.of_places (by rw [hrows])).trans (.putExec t c y)
  have hplaces := State.bump_places ((t.putExec c y).modPlace x.stream
    (fun p => p.modDir w.lr.layer (LayerDir.appended w x))) .kvw c 5 w.pn
  refine ⟨?queues, ?cores, ?pool, ?counter, ?list, ?pages⟩
  case queues => rw [State.core_of_cores hput_cores, State.core_putExec (hcores ▸ hc), Exec.putCore_queues, hcore]
  case cores => rw [hput_cores, State.putExec_cores_length, hcores]
  case pool => exact (happ ▸ State.bump_poolWait ..).trans (hpool.trans (by rw [hrows]))
  case counter =>
    rw [happ, State.live_bump]
    exact State.counted_eq (State.frozen_of_regs (hregs.trans (by rw [hrows])) ..)
      (State.live_of_ctr (hctr.trans (by rw [hrows])) ..) _
  case list =>
    rw [happ, State.dirOf, State.place?_of_places hplaces]
    exact State.dirOf_modPlace_modDir (f := LayerDir.appended w x) hlists hd fun _ => rfl
  case pages => exact (happ ▸ State.bump_pages ..).trans hput

/-- What an append leaves (R160, R163): its courier empty and its wait over, the rows counted, the pending end moved, and a
row of one token in its page. -/
theorem State.append_prepared (hhead : s.headWalk c q (if v then 5 else 4) = some (i, cl, w)) (hx : s.walkCtx i = some x)
    (hprep : s.prepare c i x w (x.cur - w.dLo) = some u) (hd : u.dirOf x w.lr.layer = some d)
    (honly : (u.core c).onlyIn q) (hrun : (u.core c).run = some i) :
    (((s.append c q v).core c).courQ.getD q [] = [] ∧ ((s.append c q v).core c).poolWait = false ∧
      (s.append c q v).poolWait = u.poolWait) ∧
    (s.append c q v).live .kvw c 5 = u.counted .kvw c 5 w.pn ∧
    (s.append c q v).dirOf x w.lr.layer = some (d.appended w x) ∧
    (s.append c q v).pages = (u.appendRows v (u.core c) w x d).pages := by
  obtain ⟨hqueues, hlen, hpool, hlive, hdir, hpages⟩ :=
    State.appended_keeps (v := v) (State.lt_cores_of_run hrun) hd
  have hidle := Core.onlyIn_of_queues hqueues honly
  have hc : c < (u.appended v c w x d).cores.length := hlen.symm ▸ State.lt_cores_of_run hrun
  rw [State.append_eq hhead hx hprep hd, State.core_endWalk hc hidle]
  refine ⟨⟨Core.courQ_walkDone hidle, rfl, ?_⟩, ?_⟩
  · rw [State.endWalk_eq hc hidle]
    exact hpool
  · rw [State.endWalk_eq hc hidle]
    exact ⟨hlive, hdir, hpages⟩

end Append

/-! ### KV_POOL_ALLOC_RESUME (R167) -/

section Resume
variable {s u : State} {b c q n cl : Nat} {l : List CourOp} {i : Inst} {x : WalkCtx} {d : LayerDir}

theorem exec_kvPoolAllocResume_none (h : ∀ p ∈ s.poolWait, p.2.2 ≠ b) : exec (.kvPoolAllocResume b) s = .next s := by
  have hnone : s.poolWait.find? (fun p => p.2.2 == b) = none := List.find?_eq_none.mpr fun p hp => by simp [h p hp]
  show execKvPoolAllocResume b s = _
  simp only [execKvPoolAllocResume, hnone]

/-- A box's oldest waiting append goes on where the pool has room for it. -/
theorem exec_kvPoolAllocResume (hfirst : s.poolWait.find? (fun p => p.2.2 == b) = some (c, q, b))
    (hq : (s.core c).courQ.getD q [] = .walk cl n :: l) (hop : (WalkReq.ofNat n).op = 4 ∨ (WalkReq.ofNat n).op = 5)
    (hrun : (s.core c).run = some i) (hx : s.walkCtx i = some x)
    (hrest : ∀ p ∈ s.poolWait.erase (c, q, b), ¬(p.1 = c ∧ p.2.1 = q))
    (hprep : ({ s with poolWait := s.poolWait.erase (c, q, b) } : State).prepare c i x (WalkReq.ofNat n)
      (x.cur - (WalkReq.ofNat n).dLo) = some u)
    (hd : u.dirOf x (WalkReq.ofNat n).lr.layer = some d) (honly : (u.core c).onlyIn q) (hrun' : (u.core c).run = some i)
    (hpool : u.poolWait = s.poolWait.erase (c, q, b)) : ∃ t, exec (.kvPoolAllocResume b) s = .next t ∧
      t.poolWait = s.poolWait.erase (c, q, b) ∧ (t.core c).poolWait = false ∧ (t.core c).courQ.getD q [] = [] := by
  obtain ⟨free, hfree⟩ : ∃ free : State, free = { s with poolWait := s.poolWait.erase (c, q, b) } := ⟨_, rfl⟩
  obtain ⟨v, hv⟩ : ∃ v, v = ((WalkReq.ofNat n).op == 5) := ⟨_, rfl⟩
  have hcode : (WalkReq.ofNat n).op = if v then 5 else 4 := by rcases hop with h | h <;> simp [hv, h]
  have hhead : free.headWalk c q (if v then 5 else 4) = some (i, cl, WalkReq.ofNat n) := by
    rw [hfree]
    exact State.headWalk_of_courQ hrun hq hcode
  have hctx : free.walkCtx i = some x := by rw [hfree]; exact hx
  obtain ⟨⟨hcour, hflag, hwait⟩, -⟩ := State.append_prepared (v := v) hhead hctx (hfree ▸ hprep) hd honly hrun'
  have hgone : (free.append c q v).poolWait.any (fun p => p.1 == c && p.2.1 == q) = false := by
    rw [hwait, hpool]
    simpa using hrest
  refine ⟨free.append c q v, ?_, hwait.trans hpool, hflag, hcour⟩
  show execKvPoolAllocResume b s = _
  simp only [execKvPoolAllocResume, hfirst, hq, ← hv, ← hfree, hgone, Bool.false_eq_true, if_false]

end Resume

/-- Settles O27: a request admitted by its courier's queue, the others by what they leave of their core and pages once the
one request of the core has ended. -/
theorem walksGatherAppendAndMeasure : Obligations.WalksGatherAppendAndMeasure := by
  refine ⟨fun s u c n off len req r w i _ hstore hrun hfull halign hend hreq hr hu hw hpass => ?admitted,
    fun s c n off len i hstore hrun hfull hbad => ⟨_, exec_walkIssue_misplaced hstore hrun hfull hbad, State.run_failRun ..,
      fun j hj hentry => State.item?_failRun hrun hj hentry _⟩,
    fun s c n off len i hstore hrun hfull => ?full,
    fun s c q cl i w x d hshape hcl honly hhead hx hd => exec_lengths hshape hcl honly hhead hx hd,
    fun s v c q cl i w x d honly hhead hx hd =>
      ⟨fun hall => ⟨_, exec_gather s v c q, State.gather_all honly hhead hx hd hall⟩, fun f hmiss => ?missing⟩,
    fun s u v c q cl i w x d _ hhead hx hprep hd honly hrun => ?append,
    fun s c q cl i w x vas honly hhead hx hall hvas hread => ⟨_, exec_bias hhead hx hall hvas hread,
      State.walked_biased honly (State.lt_cores_of_run (State.run_of_headWalk hhead)) _⟩,
    fun s u b c q n l i cl w x d hfirst hq hw hop _ hrun hx hrest hprep hd honly hrun' hpool => ?resume,
    fun s b h => exec_kvPoolAllocResume_none h⟩
  case admitted =>
    obtain ⟨y, hy⟩ : ∃ y, (s.execOf c).dread n off 32 = y := ⟨_, rfl⟩
    rw [hy] at hreq hr hu
    obtain ⟨z, hz⟩ : ∃ z, y.1.dread n (bits req 191 176) 16 = z := ⟨_, rfl⟩
    rw [hz] at hr hu
    subst hreq hr hu hw
    obtain ⟨j, hexec⟩ := State.executes_of_walkStore hstore
    have hcore : z.1.core = s.core c := by
      rw [← s.execOf_core c, ← hz, ← hy]
      rfl
    exact ⟨_, exec_walkIssue_admitted hstore hrun hfull halign hend hy hz hpass,
      State.walkIssued_putExec hexec hcore i (y.2 + z.2 * 2 ^ 256) z.2⟩
  case full =>
    obtain ⟨j, -, hc, hn⟩ := State.executes_of_walkStore hstore
    exact ⟨s.stall c n, exec_walkIssue_full hstore hrun hfull, .modClerk (.refl c n s) _, State.clerk_modClerk_same hc hn _⟩
  case missing =>
    refine ⟨s.failRun c f, (exec_gather s v c q).trans ?_, s.run_failRun c f, s.cbuf_failRun c f⟩
    rw [State.gather_of_missing hhead hx hd hmiss]
  case append =>
    obtain ⟨⟨hcour, -⟩, hlive, hdir, hpages⟩ := State.append_prepared hhead hx hprep hd honly hrun
    refine ⟨_, exec_append s v c q, hcour, hlive, hdir, fun e pg hone he hpg => ?_⟩
    have hrow := State.page?_appendRows (v := v) (k := u.core c) hone he hpg
    exact ⟨_, (congrArg (List.find? _) hpages).trans hrow, KvPage.getRun_withRow ..⟩
  case resume =>
    subst hw
    exact exec_kvPoolAllocResume hfirst hq hop hrun hx hrest hprep hd honly hrun' hpool

end Sys2Proof.Machine
end

section
/-! The codebook unit (R201 to R204, R217): what the end of a command and the wait of a replacement leave of the slots, and
the end that each command comes to. -/

namespace Sys2Proof.Machine

-- one theorem after the other: proofs that wait together take too many threads
set_option Elab.async false

/-! ### Slots -/

section Slots
variable {s t u : State} {sl b n k : Nat} {f : CbSlot → CbSlot}

theorem State.Shape.lt_slots (h : s.Shape) (hsl : sl < 64) : sl < s.cb.slots.length := by
  obtain ⟨-, -, -, -, -, -, -, hslots, -⟩ := h
  rwa [hslots]

theorem State.slot_modSlot_same (hsl : sl < s.cb.slots.length) (f : CbSlot → CbSlot) :
    (s.modSlot sl f).slot sl = f (s.slot sl) := (s.slot_modSlot sl sl f).trans (if_pos ⟨rfl, hsl⟩)

theorem OtherSlots.of_slots (h : t.cb.slots = s.cb.slots) : OtherSlots sl s t := fun d _ => congrArg (·.getD d {}) h

theorem OtherSlots.trans (h : OtherSlots sl s t) (h' : OtherSlots sl t u) : OtherSlots sl s u := fun d hd =>
  (h' d hd).trans (h d hd)

theorem OtherSlots.modSlot (sl : Nat) (s : State) (f : CbSlot → CbSlot) : OtherSlots sl s (s.modSlot sl f) := fun d hd =>
  (s.slot_modSlot sl d f).trans (if_neg fun e => hd e.1.symm)

@[simp] theorem State.slot_bump (s : State) (p : Pg) (i n k d : Nat) : (s.bump p i n k).slot d = s.slot d := by
  rw [State.slot, State.bump_cb, State.slot]

@[simp] theorem State.slot_cbEnd (s : State) (sl d : Nat) (r : CbRes) : (s.cbEnd sl r).slot d = s.slot d := rfl

/-- A command that did its work on slot `sl`, which now reads `c`: other slots stand, counter `n` has `k` more, and the
result is 0 with the slot's generation. -/
structure SlotDone (sl : Nat) (c : CbSlot) (n k : Nat) (s t : State) : Prop where
  slot : t.slot sl = c
  others : OtherSlots sl s t
  result : t.cb.result = 0
  gen : t.cb.gen = c.gen
  live : t.live .codebook 0 n = s.counted .codebook 0 n k

theorem State.slotDone_cbEnd {c : CbSlot} (hsl : sl < s.cb.slots.length) (hf : f (s.slot sl) = c) (n k : Nat) :
    SlotDone sl c n k s (((s.modSlot sl f).bump .codebook 0 n k).cbEnd sl .ok) := by
  have hslot : ((s.modSlot sl f).bump .codebook 0 n k).slot sl = c :=
    (State.slot_bump ..).trans ((State.slot_modSlot_same hsl f).trans hf)
  exact ⟨hslot, (OtherSlots.modSlot sl s f).trans fun _ _ => State.slot_bump .., rfl, congrArg CbSlot.gen hslot,
    State.live_bump (s.modSlot sl f) .codebook 0 n k⟩

/-- A replacement that waits leaves the slot REPLACING with what it waits to do (R203 step 2). -/
theorem State.slot_cbReplace (hsl : sl < s.cb.slots.length) (p : CbPend) :
    (s.cbReplace sl p).slot sl = { s.slot sl with st := .replacing, pend := some p } :=
  State.slot_modSlot_same hsl fun c => { c with st := .replacing, pend := some p }

theorem OtherSlots.cbReplace (sl : Nat) (s : State) (p : CbPend) : OtherSlots sl s (s.cbReplace sl p) :=
  .modSlot sl s fun c => { c with st := .replacing, pend := some p }

/-- The slot `c` claimed for box `b` (R201). -/
def CbSlot.claimed (c : CbSlot) (b : Nat) : CbSlot := { c with st := .owned, owner := b, fresh := false }

theorem State.cbClaim_held (h : (s.slot sl).st ≠ .empty) : s.cbClaim sl b = some s := if_pos h

theorem State.cbClaim_empty (h : (s.slot sl).st = .empty) (hq : s.useCodebooks b < s.cbQuota b) :
    s.cbClaim sl b = some (s.modSlot sl (·.claimed b)) := by
  rw [State.cbClaim, if_neg (not_not.mpr h), if_neg (not_le.mpr hq)]
  rfl

end Slots

/-! ### The end of each command -/

section Commands
variable {s : State} {sl b a va n : Nat} {acc : Bool} {img : List Byte}

theorem State.census_other (h : (s.slot sl).st ≠ .empty) (ho : (s.slot sl).owner ≠ b) :
    s.census sl b a acc va n = s.cbEnd sl .slotOwned := if_pos ⟨h, ho⟩

/-- The slot `c` with the symbols of `bytes` added to its histogram, which is cleared first unless `acc` (R202). -/
def CbSlot.counting (c : CbSlot) (a : Nat) (acc : Bool) (bytes : List Byte) : CbSlot :=
  { c with
    hist := addCensus (if acc then c.hist else List.replicate 256 0) (blockSyms a bytes)
    histAlphabet := a }

/-- A CENSUS whose area passes every check is counted. -/
theorem State.slotDone_census (hsl : sl < s.cb.slots.length) (h : (s.slot sl).st ≠ .empty) (ho : (s.slot sl).owner = b)
    (ha : a ≠ 3) (hn : 0 < n) (hva : va % blockSize = 0) (hmap : s.mapped b va (n * blockSize) false = true)
    (hcoded : s.inCoded b va (n * blockSize) = false) (hprot : s.inProtected b va (n * blockSize) = false)
    (hclean : s.poisonedBox b va (n * blockSize) = false) :
    SlotDone sl ((s.slot sl).counting a acc (s.readBox b va (n * blockSize))) 0 (n * blockSize) s
      (s.census sl b a acc va n) := by
  have hown : ¬((s.slot sl).st ≠ .empty ∧ (s.slot sl).owner ≠ b) := fun hne => hne.2 ho
  have hrange : ¬(a = 3 ∨ n = 0 ∨ va % blockSize ≠ 0 ∨ ¬s.mapped b va (n * blockSize) false ∨
      s.inCoded b va (n * blockSize) ∨ s.inProtected b va (n * blockSize)) := by
    simp only [ha, hn.ne', hva, hmap, hcoded, hprot, ne_eq, not_true, Bool.false_eq_true, or_self, not_false_eq_true]
  simp only [State.census, if_neg hown, State.cbClaim_held h, if_neg hrange, hclean, Bool.false_eq_true, if_false]
  refine State.slotDone_cbEnd hsl ?_ 0 (n * blockSize)
  rfl

theorem State.replaceStaged_held (h : (s.slot sl).st ≠ .empty) (ho : (s.slot sl).owner = b) {ls : List Nat}
    (hls : buildLengths ((s.slot sl).hist.take (bookSymbols (bookOf (s.slot sl).histAlphabet))) = some ls) :
    s.replaceStaged sl b = s.cbReplace sl (.install (bookOf (s.slot sl).histAlphabet)
      (ls ++ List.replicate (256 - ls.length) 0)
      (imageTag (bookOf (s.slot sl).histAlphabet) (ls ++ List.replicate (256 - ls.length) 0))) := by
  simp [State.replaceStaged, State.cbClaim_held h, ho, hls]

theorem State.replaceStaged_noSymbols (h : (s.slot sl).st ≠ .empty) (ho : (s.slot sl).owner = b)
    (hls : buildLengths ((s.slot sl).hist.take (bookSymbols (bookOf (s.slot sl).histAlphabet))) = none) :
    s.replaceStaged sl b = s.cbEnd sl .noSymbols := by
  simp [State.replaceStaged, State.cbClaim_held h, ho, hls]

theorem State.replaceImage_held (himg : s.readImage b va = .ok img) (h : (s.slot sl).st ≠ .empty)
    (ho : (s.slot sl).owner = b) (hv : imageValid img = true) :
    s.replaceImage sl b va = s.cbReplace sl (.install (imageAlphabet img) (imageLengths img) (imageTagOf img)) := by
  simp [State.replaceImage, himg, State.cbClaim_held h, ho, hv]

theorem State.replaceImage_bad (himg : s.readImage b va = .ok img) (h : (s.slot sl).st = .empty ∨ (s.slot sl).owner = b)
    (hv : imageValid img = false) : s.replaceImage sl b va = s.cbEnd sl .badImage := by
  have hown : ¬((s.slot sl).st ≠ .empty ∧ (s.slot sl).owner ≠ b) := fun ⟨he, ho⟩ => h.elim he ho
  simp [State.replaceImage, himg, hown, hv]

/-- A RELEASE with nothing in flight is done at once. -/
theorem State.slotDone_cbRelease (hsl : sl < s.cb.slots.length) (h : (s.slot sl).st ≠ .empty)
    (ho : (s.slot sl).owner = b) (hin : (s.slot sl).inflight = 0) :
    SlotDone sl (s.slot sl).release 2 1 s (s.cbRelease sl b) := by
  simpa [State.cbRelease, h, ho, hin] using State.slotDone_cbEnd (f := CbSlot.release) hsl rfl 2 1

theorem State.cbRelease_inflight (h : (s.slot sl).st ≠ .empty) (ho : (s.slot sl).owner = b)
    (hin : (s.slot sl).inflight ≠ 0) : s.cbRelease sl b = s.cbReplace sl .release := by
  simp [State.cbRelease, h, ho, hin]

theorem State.cbRelease_other (h : (s.slot sl).st ≠ .empty) (ho : (s.slot sl).owner ≠ b) :
    s.cbRelease sl b = s.cbEnd sl .slotOwned := by
  simp [State.cbRelease, h, ho]

/-- A RESTORE whose checks pass claims the slot and installs the image under the generation named. -/
theorem State.slotDone_restore (hsl : sl < s.cb.slots.length) (himg : s.readImage b va = .ok img)
    (h : (s.slot sl).st = .empty) (hf : (s.slot sl).fresh = true) (hv : imageValid img = true)
    (hq : s.useCodebooks b < s.cbQuota b) (g : Nat) :
    SlotDone sl (((s.slot sl).claimed b).install (imageAlphabet img) (imageLengths img) (imageTagOf img) g) 1 1 s
      (s.restore sl b g va) := by
  obtain ⟨u, hu⟩ : ∃ u, s.modSlot sl (·.claimed b) = u := ⟨_, rfl⟩
  have hslot : u.slot sl = (s.slot sl).claimed b := hu ▸ State.slot_modSlot_same hsl _
  have hlen : sl < u.cb.slots.length := by simpa [← hu, State.modSlot] using hsl
  have hcounted : u.counted .codebook 0 1 1 = s.counted .codebook 0 1 1 := by rw [← hu]; rfl
  simp only [State.restore, himg, h, hf, hv, State.cbClaim_empty h hq, hu, ne_eq, not_true, false_and, Bool.not_true,
    Bool.false_eq_true, if_false]
  obtain ⟨hdone, hothers, hresult, hgen, hlive⟩ := State.slotDone_cbEnd (s := u)
    (f := fun c => c.install (imageAlphabet img) (imageLengths img) (imageTagOf img) g) hlen
    (congrArg (CbSlot.install · _ _ _ g) hslot) 1 1
  exact ⟨hdone, OtherSlots.trans (hu ▸ .modSlot _ _ _) hothers, hresult, hgen, hlive.trans hcounted⟩

theorem State.restore_used (himg : s.readImage b va = .ok img) (h : (s.slot sl).st = .empty)
    (hf : (s.slot sl).fresh = false) (g : Nat) : s.restore sl b g va = s.cbEnd sl .notFresh := by
  simp [State.restore, himg, h, hf]

end Commands

/-! ### Commands taken while none waits -/

section Taken
variable {s : State} (hw : s.cb.waiting = none)
include hw

theorem State.when_noneWaiting (t : State) : s.when s.cb.waiting.isNone t = t := by
  rw [hw, Option.isNone_none, State.when_true]

theorem exec_census (sl b a : Nat) (acc : Bool) (va n : Nat) :
    exec (.census sl b a acc va n) s = .next (s.census sl b a acc va n) :=
  congrArg Host.Outcome.next (State.when_noneWaiting hw _)

theorem exec_replaceStaged (sl b : Nat) : exec (.replaceStaged sl b) s = .next (s.replaceStaged sl b) :=
  congrArg Host.Outcome.next (State.when_noneWaiting hw _)

theorem exec_replaceImage (sl b va : Nat) : exec (.replaceImage sl b va) s = .next (s.replaceImage sl b va) :=
  congrArg Host.Outcome.next (State.when_noneWaiting hw _)

theorem exec_release (sl b : Nat) : exec (.release sl b) s = .next (s.cbRelease sl b) :=
  congrArg Host.Outcome.next (State.when_noneWaiting hw _)

theorem exec_restore (sl b g va : Nat) : exec (.restore sl b g va) s = .next (s.restore sl b g va) :=
  congrArg Host.Outcome.next (State.when_noneWaiting hw _)

end Taken

/-! ### CODEBOOK_INSTALL (R203) -/

section Install
variable {s : State} {sl a tag : Nat} {ls : List Nat}

/-- The state `s` with no command of the codebook unit waiting. -/
def State.cbFree (s : State) : State := { s with cb := { s.cb with waiting := none } }

theorem SlotDone.cbFree {c : CbSlot} {n k : Nat} {t : State} (h : SlotDone sl c n k s t) : SlotDone sl c n k s t.cbFree :=
  ⟨h.slot, h.others, h.result, h.gen, h.live⟩

/-- What waits for a slot is installed once nothing is in flight under it. -/
theorem exec_codebookInstall (hsl : sl < s.cb.slots.length) (hst : (s.slot sl).st = .replacing)
    (hreply : s.host.cbReply = none) (hp : (s.slot sl).pend = some (.install a ls tag)) (hin : (s.slot sl).inflight = 0) :
    ∃ t, exec (.codebookInstall sl) s = .next t ∧ t.cb.waiting = none ∧
      SlotDone sl ((s.slot sl).install a ls tag ((s.slot sl).gen + 1)) 1 1 s t := by
  refine ⟨_, ?_, rfl, (State.slotDone_cbEnd (f := fun c => c.install a ls tag (c.gen + 1)) hsl rfl 1 1).cbFree⟩
  obtain ⟨u, hu⟩ : ∃ u, (s.modSlot sl fun c => c.install a ls tag (c.gen + 1)).bump .codebook 0 1 1 = u := ⟨_, rfl⟩
  have hhost : u.host.cbReply = none := by
    rw [← hu, State.bump_host, State.modSlot_host, hreply]
  show execCodebookInstall sl s = _
  simp only [execCodebookInstall, hst, hin, hp, and_self, if_true, hu]
  split
  · rfl
  · rename_i hsome
    cases hhost.symm.trans hsome

theorem exec_codebookInstall_inflight (hin : (s.slot sl).inflight ≠ 0) : exec (.codebookInstall sl) s = .next s :=
  if_neg fun h => hin h.2

end Install

/-- Settles O28: each command by the end it comes to, and that end by what it leaves of the slots. -/
theorem codebooksAreFilledReplacedAndReleased : Obligations.CodebooksAreFilledReplacedAndReleased := by
  refine ⟨fun s sl b a va n acc hs hsl hw hst => ⟨fun ho => ⟨_, exec_census hw .., congrArg State.cb
      (State.census_other hst ho)⟩, fun ho ha hn hva hmap hcoded hprot hclean => ?census⟩,
    fun s sl b hs hsl hw hst ho => ⟨fun ls hls => ⟨_, exec_replaceStaged hw .., ?staged⟩,
      fun hls => ⟨_, exec_replaceStaged hw .., congrArg State.cb (State.replaceStaged_noSymbols hst ho hls)⟩⟩,
    fun s sl b va img hs hsl hw himg => ⟨fun hst ho hv => ⟨_, exec_replaceImage hw .., ?image⟩,
      fun hst hv => ⟨_, exec_replaceImage hw .., congrArg State.cb (State.replaceImage_bad himg hst hv)⟩⟩,
    fun s sl b hs hsl hw hst => ⟨fun ho hin => ?release, fun ho hin => ⟨_, exec_release hw .., ?inflight⟩,
      fun ho => ⟨_, exec_release hw .., congrArg State.cb (State.cbRelease_other hst ho)⟩⟩,
    fun s sl b g va img hs hsl hw himg hst => ⟨fun hf hv hq => ?restore,
      fun hf => ⟨_, exec_restore hw .., congrArg State.cb (State.restore_used himg hst hf g)⟩⟩,
    fun s sl a tag ls hs hsl hst hreply hp => ⟨fun hin => ?install, exec_codebookInstall_inflight⟩⟩
  case census =>
    obtain ⟨hslot, hothers, hresult, -, hlive⟩ :=
      State.slotDone_census (acc := acc) (hs.lt_slots hsl) hst ho ha hn hva hmap hcoded hprot hclean
    exact ⟨_, exec_census hw .., hslot, hothers, hresult, hlive⟩
  case staged =>
    rw [State.replaceStaged_held hst ho hls]
    exact ⟨.cbReplace _ _ _, rfl, State.slot_cbReplace (hs.lt_slots hsl) _⟩
  case image =>
    rw [State.replaceImage_held himg hst ho hv]
    exact ⟨.cbReplace _ _ _, rfl, State.slot_cbReplace (hs.lt_slots hsl) _⟩
  case release =>
    obtain ⟨hslot, hothers, hresult, -, hlive⟩ := State.slotDone_cbRelease (hs.lt_slots hsl) hst ho hin
    exact ⟨_, exec_release hw .., hothers, congrArg CbSlot.st hslot, congrArg CbSlot.gen hslot, hresult, hlive⟩
  case inflight =>
    rw [State.cbRelease_inflight hst ho hin]
    exact ⟨.cbReplace _ _ _, State.slot_cbReplace (hs.lt_slots hsl) _, rfl⟩
  case restore =>
    obtain ⟨hslot, hothers, hresult, hgen, -⟩ := State.slotDone_restore (hs.lt_slots hsl) himg hst hf hv hq g
    refine ⟨_, exec_restore hw .., hothers, ?_⟩
    rw [hslot]
    exact ⟨rfl, rfl, rfl, rfl, rfl, rfl, hresult, hgen⟩
  case install =>
    obtain ⟨t, ht, hfree, hslot, hothers, hresult, hgen, hlive⟩ :=
      exec_codebookInstall (hs.lt_slots hsl) hst hreply hp hin
    exact ⟨t, ht, hothers, hslot, hfree, hresult, hgen, hlive⟩

end Sys2Proof.Machine
end

section
/-! Bytes of memory (R221, R227, R228, R234): what a write of a run of bytes below flash leaves of every byte. -/

namespace Sys2Proof.Machine

-- one theorem after the other: proofs that wait together take too many threads
set_option Elab.async false

section Bytes
variable {s t u : State} {da : Nat} {bs : List Byte}

/-- The bytes from `da` on read as `bs`, and every other byte of memory stands. -/
structure BytesWritten (da : Nat) (bs : List Byte) (s t : State) : Prop where
  written (i : Nat) (hi : i < bs.length) : t.byteAt (da + i) = bs.getD i 0
  others (x : Nat) (hx : x < da ∨ da + bs.length ≤ x) : t.byteAt x = s.byteAt x

theorem State.byteAt_hbm {x : Nat} (h : x < flashBase) : s.byteAt x = cellGet 0 s.mem x := if_pos h

/-- A byte depends on memory and the tier alone. -/
theorem State.byteAt_congr (hm : t.mem = s.mem) (ht : t.tier = s.tier) (x : Nat) : t.byteAt x = s.byteAt x := by
  simp only [State.byteAt, State.granule?, hm, ht]

theorem BytesWritten.congr (h : BytesWritten da bs s t) (hm : u.mem = t.mem) (ht : u.tier = t.tier) :
    BytesWritten da bs s u :=
  ⟨fun i hi => (State.byteAt_congr hm ht _).trans (h.written i hi), fun x hx =>
    (State.byteAt_congr hm ht _).trans (h.others x hx)⟩

theorem State.memWrite_hbm (h : 0 < bs.length) (hda : da + bs.length ≤ flashBase) (bad : Nat → Bool) :
    s.memWrite da bs bad =
      { s with mem := cellSetRun 0 s.mem da bs, memPoison := marksAfter s.memPoison da bs.length bad } := by
  have hne : bs.isEmpty = false := List.isEmpty_eq_false_iff.mpr (List.ne_nil_of_length_pos h)
  have hlow : ¬flashBase ≤ da := by omega
  simp [State.memWrite, hne, hlow]

/-- A write that ends below flash reads back, and changes no other byte. -/
theorem State.bytesWritten_memWrite (h : 0 < bs.length) (hda : da + bs.length ≤ flashBase) (bad : Nat → Bool) :
    BytesWritten da bs s (s.memWrite da bs bad) := by
  rw [State.memWrite_hbm h hda]
  refine ⟨fun i hi => ?_, fun x hx => ?_⟩
  · rw [State.byteAt_hbm (by omega)]
    simp [cellGet_cellSetRun, hi]
  · have hout : ¬(da ≤ x ∧ x < da + bs.length) := by omega
    simp [State.byteAt, State.granule?, cellGet_cellSetRun, hout]

/-- A write of bytes reaches memory, its poison marks and the tier alone. -/
theorem State.frame_memWrite (s : State) (da : Nat) (bs : List Byte) (bad : Nat → Bool) :
    Frame [.mem, .memPoison, .tier] s (s.memWrite da bs bad) := (State.memWrite_leads .refl (by decide)).frame

theorem State.live_bump_memWrite (s : State) (da : Nat) (bs : List Byte) (bad : Nat → Bool) (p : Pg) (i n k : Nat) :
    ((s.memWrite da bs bad).bump p i n k).live p i n = s.counted p i n k := by
  have hframe := s.frame_memWrite da bs bad
  rw [State.live_bump]
  exact State.counted_eq (State.frozen_of_regs (hframe.regs (by decide)) _ _)
    (State.live_of_ctr (hframe.ctr (by decide)) _ _ _) k

end Bytes

/-! ### Atomics (R227) -/

section Atomics
variable {s : State} {da : Nat} {f : W64 → W64}

/-- The word of 64 bits at a device address. -/
def State.wordAt (s : State) (da : Nat) : W64 :=
  BitVec.ofNat 64 (leNat ((List.range 8).map (fun i => s.byteAt (da + i))))

theorem State.atomic_eq (hh : s.home da ≠ .none) (ha : da % 8 = 0) (f : W64 → W64) :
    s.atomic da f = ((s.memWrite da (leBytes 8 (f (s.wordAt da)).toNat) (fun _ => s.poisonAt da)).bump .dcache
      (homeDie da) 3 1).emit (.atomic (s.wordAt da) (s.poisonAt da)) := by
  unfold State.atomic
  split
  · exact absurd ‹_› hh
  · exact if_neg (not_not.mpr ha)

theorem State.atomic_nowhere (h : s.home da = .none ∨ da % 8 ≠ 0) (f : W64 → W64) : s.atomic da f = s := by
  unfold State.atomic
  split
  · rfl
  · exact if_pos (h.resolve_left ‹_›)

/-- What an atomic leaves: the word `f` gives in place of the old one, which is answered. -/
theorem State.atomic_spec (hh : s.home da ≠ .none) (ha : da % 8 = 0) (hda : da + 8 ≤ flashBase) (f : W64 → W64) :
    BytesWritten da (leBytes 8 (f (s.wordAt da)).toNat) s (s.atomic da f) ∧
      (s.atomic da f).outbox = .atomic (s.wordAt da) (s.poisonAt da) :: s.outbox ∧
      (s.atomic da f).live .dcache (homeDie da) 3 = s.counted .dcache (homeDie da) 3 1 ∧
      (s.atomic da f).boxes = s.boxes ∧ (s.atomic da f).regs = s.regs := by
  have hlen := leBytes_length 8 (f (s.wordAt da)).toNat
  have hw := s.bytesWritten_memWrite (da := da) (by rw [hlen]; decide) (by rwa [hlen]) (fun _ => s.poisonAt da)
  rw [State.atomic_eq hh ha]
  refine ⟨hw.congr (State.bump_mem ..) (State.bump_tier ..), ?_, State.live_bump_memWrite .., ?_, ?_⟩
  · rw [State.emit_outbox, State.bump_outbox, (State.frame_memWrite ..).outbox (by decide)]
  · rw [State.emit_boxes, State.bump_boxes, (State.frame_memWrite ..).boxes (by decide)]
  · rw [State.emit_regs, State.bump_regs, (State.frame_memWrite ..).regs (by decide)]

end Atomics

/-! ### Reductions (R228) -/

section Reductions
variable {s : State} {b va : Nat} {e : W64} {data : List Byte}

theorem State.da_of_pte (he : s.pte? b va = some e) : s.da b va = pteDa e + va % pageSize := by
  simp [State.da, he]

theorem reduceWidth_pos (code : Nat) : 0 < reduceWidth code := by
  unfold reduceWidth
  split <;> decide

theorem reduceWidth_le (code : Nat) : reduceWidth code ≤ 8 := by
  unfold reduceWidth
  split <;> decide

/-- One aligned element does not leave its page. -/
theorem room_of_aligned_element {code w : Nat} (hw : w = reduceWidth code) (hva : va % w = 0) :
    w ≤ pageSize - va % pageSize := by
  have hdvd : w ∣ pageSize := by
    rw [hw, reduceWidth]
    split <;> decide
  have hpos : 0 < pageSize := by decide
  have hlt := Nat.mod_lt va hpos
  have hsub : w ∣ pageSize - va % pageSize :=
    Nat.dvd_sub hdvd ((Nat.dvd_mod_iff hdvd).mpr (Nat.dvd_of_mod_eq_zero hva))
  exact Nat.le_of_dvd (by omega) hsub

/-- The element that a reduction leaves at a device address (R228). -/
def State.reduced (s : State) (code da : Nat) (data : List Byte) : List Byte :=
  leBytes data.length (reduceOp code (leNat ((List.range data.length).map (fun j => s.byteAt (da + j)))) (leNat data))

theorem State.reducePage_element (he : s.pte? b va = some e) (hlen : data.length = reduceWidth (pteReduce e)) :
    s.reducePage b va data (fun _ => false) =
      (s.memWrite (s.da b va) (s.reduced (pteReduce e) (s.da b va) data) (fun _ => s.poisonAt (s.da b va))).bump
        .dcache (homeDie (s.da b va)) 4 1 := by
  have hpos : 0 < data.length := hlen ▸ reduceWidth_pos _
  have hone : List.range (data.length / data.length) = [0] := by rw [Nat.div_self hpos, List.range_one]
  simp only [State.reducePage, he, ← hlen, hone, List.foldl_cons, List.foldl_nil, Nat.zero_mul, Nat.add_zero,
    List.drop_zero, List.take_length, Bool.or_false, State.da_of_pte he, State.reduced]

/-- What the write of one element leaves: the reduction of old and new in its place. -/
theorem State.reducePage_spec (he : s.pte? b va = some e) (hlen : data.length = reduceWidth (pteReduce e))
    (hda : s.da b va + 8 ≤ flashBase) :
    BytesWritten (s.da b va) (s.reduced (pteReduce e) (s.da b va) data) s (s.reducePage b va data (fun _ => false)) ∧
      (s.reducePage b va data (fun _ => false)).live .dcache (homeDie (s.da b va)) 4 =
        s.counted .dcache (homeDie (s.da b va)) 4 1 := by
  have hpos := reduceWidth_pos (pteReduce e)
  have hwidth := reduceWidth_le (pteReduce e)
  have hsize : (s.reduced (pteReduce e) (s.da b va) data).length = data.length := leBytes_length _ _
  rw [State.reducePage_element he hlen]
  exact ⟨(State.bytesWritten_memWrite (by omega) (by omega) _).congr (State.bump_mem ..) (State.bump_tier ..),
    State.live_bump_memWrite ..⟩

/-- The write of one aligned element to a REDUCE page. -/
theorem exec_reductionWrite_element (he : s.pte? b va = some e) (hr : pteReduce e ≠ 0)
    (hlen : data.length = reduceWidth (pteReduce e)) (hva : va % data.length = 0)
    (hmap : s.mapped b va data.length true = true) :
    exec (.reductionWrite b va data) s = .next (s.reducePage b va data (fun _ => false)) := by
  have hroom : data.length ≤ pageSize - va % pageSize := room_of_aligned_element hlen hva
  have hne : data ≠ [] := List.ne_nil_of_length_pos (hlen ▸ reduceWidth_pos _)
  have hstore : s.storeBox b va data (fun _ => false) = s.reducePage b va data (fun _ => false) := by
    simp [State.storeBox, State.storeFuel, hne, he, hr, List.take_of_length_le hroom, List.drop_of_length_le hroom]
  show execReductionWrite b va data s = _
  have hne' : (pteReduce e != 0) = true := bne_iff_ne.mpr hr
  simp [execReductionWrite, he, hne', hmap, ← hlen, hva, hstore]

theorem exec_reductionWrite_plain (he : s.pte? b va = some e) (hr : pteReduce e = 0) :
    exec (.reductionWrite b va data) s = .next s := by
  show execReductionWrite b va data s = _
  simp [execReductionWrite, he, hr]

end Reductions

/-- Settles O30: an atomic by the one word it writes, a reduction by the one element its page takes. -/
theorem atomicsChangeOneWord : Obligations.AtomicsChangeOneWord := by
  refine ⟨?atomics, fun s da a b h => ?nowhere, ?reductions, fun s b va e data he hr => exec_reductionWrite_plain he hr⟩
  case atomics =>
    intro s da old a b hh ha hda hold
    have hspec : ∀ (c : Instr) (f : W64 → W64), exec c s = .next (s.atomic da f) → ∃ t, exec c s = .next t ∧
        t.outbox = .atomic old (s.poisonAt da) :: s.outbox ∧
        (∀ i, i < 8 → t.byteAt (da + i) = (leBytes 8 (f old).toNat).getD i 0) ∧
        (∀ x, (x < da ∨ da + 8 ≤ x) → t.byteAt x = s.byteAt x) ∧
        t.live .dcache (homeDie da) 3 = s.counted .dcache (homeDie da) 3 1 ∧ t.boxes = s.boxes ∧ t.regs = s.regs := by
      intro c f hexec
      obtain ⟨⟨hword, hothers⟩, hout, hlive, hboxes, hregs⟩ := s.atomic_spec hh ha hda f
      rw [leBytes_length] at hword hothers
      exact ⟨_, hexec, hold ▸ hout, hold ▸ hword, hothers, hlive, hboxes, hregs⟩
    refine List.forall_mem_cons.mpr ⟨hspec _ (fun old => if old = a then b else old) rfl, List.forall_mem_cons.mpr
      ⟨hspec _ (fun old => old + a) rfl, List.forall_mem_cons.mpr ⟨hspec _ (fun _ => a) rfl, ?_⟩⟩⟩
    exact fun p hp => absurd hp List.not_mem_nil
  case nowhere =>
    exact ⟨congrArg Host.Outcome.next (State.atomic_nowhere h _), congrArg Host.Outcome.next (State.atomic_nowhere h _),
      congrArg Host.Outcome.next (State.atomic_nowhere h _)⟩
  case reductions =>
    intro s b va e data he hr hlen hva hmap hda
    obtain ⟨⟨hword, hothers⟩, hlive⟩ := State.reducePage_spec he hlen hda
    rw [State.reduced, leBytes_length] at hword hothers
    exact ⟨_, exec_reductionWrite_element he hr hlen hva hmap, hword, hothers, hlive⟩

end Sys2Proof.Machine
end

section
/-! Memory dies and HBM stacks (R228 to R233): how their updates read back, and regulators, temperature, map-out and
evacuation. -/

namespace Sys2Proof.Machine

-- one theorem after the other: proofs that wait together take too many threads
set_option Elab.async false

/-! ### Dies and stacks -/

section Parts
variable {s t u : State} {d k : Nat}

theorem State.Shape.lt_hbm (h : s.Shape) (hk : k < 12) : k < s.hbm.length := by
  obtain ⟨-, -, -, -, hhbm, -⟩ := h
  rwa [hhbm]

theorem State.Shape.lt_dies (h : s.Shape) (hd : d < 4) : d < s.dies.length := by
  obtain ⟨-, -, -, -, -, hdies, -⟩ := h
  rwa [hdies]

theorem State.die_of_dies (h : t.dies = s.dies) (d : Nat) : t.die d = s.die d := congrArg (·.getD d {}) h

theorem State.stack_of_hbm (h : t.hbm = s.hbm) (k : Nat) : t.stack k = s.stack k := congrArg (·.getD k {}) h

theorem State.die_modDie_same (hd : d < s.dies.length) (f : DieMem → DieMem) : (s.modDie d f).die d = f (s.die d) :=
  (s.die_modDie d d f).trans (if_pos ⟨rfl, hd⟩)

theorem State.stack_modStack_same (hk : k < s.hbm.length) (f : Stack → Stack) :
    (s.modStack k f).stack k = f (s.stack k) := (s.stack_modStack k k f).trans (if_pos ⟨rfl, hk⟩)

theorem OtherDies.of_dies (h : t.dies = s.dies) : OtherDies d s t := fun e _ => State.die_of_dies h e

theorem OtherDies.trans (h : OtherDies d s t) (h' : OtherDies d t u) : OtherDies d s u := fun e he =>
  (h' e he).trans (h e he)

theorem OtherDies.modDie (d : Nat) (s : State) (f : DieMem → DieMem) : OtherDies d s (s.modDie d f) := fun e he =>
  (s.die_modDie d e f).trans (if_neg fun h => he h.1.symm)

theorem OtherStacks.of_hbm (h : t.hbm = s.hbm) : OtherStacks k s t := fun e _ => State.stack_of_hbm h e

theorem OtherStacks.trans (h : OtherStacks k s t) (h' : OtherStacks k t u) : OtherStacks k s u := fun e he =>
  (h' e he).trans (h e he)

theorem OtherStacks.modStack (k : Nat) (s : State) (f : Stack → Stack) : OtherStacks k s (s.modStack k f) := fun e he =>
  (s.stack_modStack k e f).trans (if_neg fun h => he h.1.symm)

theorem listModify_listModify {α : Type} (f g : α → α) (l : List α) (i : Nat) :
    listModify g (listModify f l i) i = listModify (fun a => g (f a)) l i := by
  induction l generalizing i with
  | nil => rfl
  | cons a l ih => cases i <;> simp [listModify, ih]

theorem State.modDie_modDie (s : State) (d : Nat) (f g : DieMem → DieMem) :
    (s.modDie d f).modDie d g = s.modDie d (fun m => g (f m)) :=
  congrArg (fun l => { s with dies := l }) (listModify_listModify f g s.dies d)

/-- Die `d` reads `m`, and the other dies stand. -/
def DieSet (d : Nat) (m : DieMem) (s t : State) : Prop := t.die d = m ∧ OtherDies d s t

/-- Stack `k` reads `m`, and the other stacks stand. -/
def StackSet (k : Nat) (m : Stack) (s t : State) : Prop := t.stack k = m ∧ OtherStacks k s t

theorem State.dieSet_modDie (hd : d < s.dies.length) (f : DieMem → DieMem) : DieSet d (f (s.die d)) s (s.modDie d f) :=
  ⟨State.die_modDie_same hd f, .modDie d s f⟩

theorem State.stackSet_modStack (hk : k < s.hbm.length) (f : Stack → Stack) :
    StackSet k (f (s.stack k)) s (s.modStack k f) := ⟨State.stack_modStack_same hk f, .modStack k s f⟩

@[simp] theorem State.hbm_length_modStack (s : State) (k : Nat) (f : Stack → Stack) :
    (s.modStack k f).hbm.length = s.hbm.length := listModify_length ..

theorem DieSet.congr {m : DieMem} (h : DieSet d m s t) (hd : u.dies = t.dies) : DieSet d m s u :=
  ⟨(State.die_of_dies hd d).trans h.1, h.2.trans (.of_dies hd)⟩

theorem StackSet.trans {m m' : Stack} (h : StackSet k m s t) (h' : StackSet k m' t u) : StackSet k m' s u :=
  ⟨h'.1, h.2.trans h'.2⟩

theorem StackSet.congr {m : Stack} (h : StackSet k m s t) (hk : u.hbm = t.hbm) : StackSet k m s u :=
  ⟨(State.stack_of_hbm hk k).trans h.1, h.2.trans (.of_hbm hk)⟩

end Parts

/-! ### Regulators (R229) -/

section Regulator
variable {s : State} {d b n a : Nat}

/-- The die `m` once a waiting request of box `b` has been admitted with `v` tokens left at time `now`. -/
def DieMem.served (m : DieMem) (b : Nat) (v : Int) (now : Nat) (w : Nat × Nat × Nat) : DieMem :=
  { m with
    tokens := (b, v) :: m.tokens.filter (fun p => p.1 != b)
    tokenAt := (b, now) :: m.tokenAt.filter (fun p => p.1 != b)
    waiting := m.waiting.erase w
    admitted := b :: m.admitted }

theorem exec_regulatorAdmit_open (hd : d < s.dies.length)
    (hw : (s.die d).waiting.find? (fun w => w.1 == b) = some (b, n, a)) (h : 0 ≤ s.tokensNow d b ∨ s.regRate d b = 0) :
    ∃ t, exec (.regulatorAdmit d b) s = .next t ∧
      DieSet d ((s.die d).served b (s.tokensNow d b - n) s.time.t (b, n, a)) s t ∧
      t.live .dcache d 5 = s.counted .dcache d 5 (s.time.t - a) := by
  refine ⟨_, ?_, ((State.dieSet_modDie hd fun m => m.served b (s.tokensNow d b - n) s.time.t (b, n, a)).congr
    (State.bump_dies _ .dcache d 5 (s.time.t - a))), State.live_bump ..⟩
  have hcond : (decide (0 ≤ s.tokensNow d b) || decide (s.regRate d b = 0)) = true := by simpa using h
  show execRegulatorAdmit d b s = _
  simp only [execRegulatorAdmit, hw, hcond, State.when_true, State.debit, State.modDie_modDie]
  rfl

theorem exec_regulatorAdmit_short (h : s.tokensNow d b < 0) (hr : s.regRate d b ≠ 0) :
    exec (.regulatorAdmit d b) s = .next s := by
  show execRegulatorAdmit d b s = _
  unfold execRegulatorAdmit
  split
  · rfl
  · simp [not_le.mpr h, hr]

end Regulator

/-! ### Temperature (R230) -/

section Temperature
variable {s : State} {k c l : Nat}

/-- The stack `m` at `c` °C and level `l`. -/
def Stack.report (m : Stack) (c l : Nat) : Stack := { m with temp := c, level := l }

theorem exec_hbmTempReport_same (hk : k < 12) (hl : l = max (levelOf c) (levelDown c (s.stack k).level))
    (hsame : l = (s.stack k).level) : exec (.hbmTempReport k c) s = .next (s.modStack k (·.report c l)) := by
  show execHbmTempReport k c s = _
  simp only [execHbmTempReport, hk, ← hl, hsame, decide_true, bne_self_eq_false, ne_eq, not_true, false_and, decide_false,
    State.when_true, State.when_false]
  rfl

/-- A level that changes is told, and recorded unless it is 0. -/
theorem exec_hbmTempReport_changed (hk : k < 12) (hl : l = max (levelOf c) (levelDown c (s.stack k).level))
    (hne : l ≠ (s.stack k).level) : exec (.hbmTempReport k c) s =
      .next (((s.modStack k (·.report c l)).changed .hbm k).when (decide (1 ≤ l))
        (((s.modStack k (·.report c l)).changed .hbm k).event
          { pageRec .hbm k 0x0400 .warning with a := l, b := c })) := by
  have hbne : (l != (s.stack k).level) = true := bne_iff_ne.mpr hne
  show execHbmTempReport k c s = _
  simp only [execHbmTempReport, hk, ← hl, hbne, ne_eq, hne, not_false_eq_true, true_and, decide_true, State.when_true]
  rfl

end Temperature

/-! ### Map-out (R231, R232) -/

section MapOut
variable {s t u : State} {k ch cause d : Nat}

/-- Channel `ch` of stack `k` marked as mapped out: told, recorded and entered in the field record's list. -/
def State.markOut (s : State) (k ch cause : Nat) : State :=
  (((s.modStack k (fun m => { m with mappedOut := setInsert m.mappedOut ch })).changed .hbm k).event
    { pageRec .hbm k 0x0401 .error with unit := 16 * k + ch, a := cause }).setSec
    (fun c => { c with mapouts := setInsert c.mapouts (16 * k + ch) })

/-- The evacuation of the channel's die begun: the channel leaves, and the die counts one map-out more (R232). -/
def State.beginLeave (s : State) (k ch : Nat) : State :=
  ((s.modStack k (fun m => { m with leaving := setInsert m.leaving ch })).modDie (k / 3)
    (fun m => { m with evacuating := true, pendingOut := m.pendingOut + 1 })).changed .dcache (k / 3)

theorem State.dies_markOut (s : State) (k ch cause : Nat) : (s.markOut k ch cause).dies = s.dies := by
  simp [State.markOut, State.changed_eq]

theorem State.hbm_length_markOut (s : State) (k ch cause : Nat) : (s.markOut k ch cause).hbm.length = s.hbm.length := by
  simp [State.markOut, State.changed_eq]

theorem State.recorded_markOut (s : State) (k ch cause : Nat) :
    Recorded { pageRec .hbm k 0x0401 .error with unit := 16 * k + ch, a := cause } s (s.markOut k ch cause) := by
  simp [Recorded, State.markOut, State.changed_eq]

theorem State.mapouts_markOut (s : State) (k ch cause : Nat) :
    (s.markOut k ch cause).sec.mapouts = setInsert s.sec.mapouts (16 * k + ch) := by
  simp [State.markOut, State.changed_eq]

theorem State.stackSet_markOut (hk : k < s.hbm.length) (ch cause : Nat) :
    StackSet k { s.stack k with mappedOut := setInsert (s.stack k).mappedOut ch } s (s.markOut k ch cause) :=
  (State.stackSet_modStack hk fun m => { m with mappedOut := setInsert m.mappedOut ch }).congr (by simp [State.markOut, State.changed_eq])

theorem State.stackSet_beginLeave (hk : k < s.hbm.length) (ch : Nat) :
    StackSet k { s.stack k with leaving := setInsert (s.stack k).leaving ch } s (s.beginLeave k ch) :=
  (State.stackSet_modStack hk fun m => { m with leaving := setInsert m.leaving ch }).congr rfl

theorem State.dieSet_beginLeave (hd : k / 3 < s.dies.length) (ch : Nat) :
    DieSet (k / 3) { s.die (k / 3) with evacuating := true, pendingOut := (s.die (k / 3)).pendingOut + 1 } s
      (s.beginLeave k ch) :=
  (State.dieSet_modDie hd fun m => { m with evacuating := true, pendingOut := m.pendingOut + 1 }).congr rfl

theorem State.mapOut_ninth (hk : k < 12) (hch : ch < 16) (hout : ch ∉ (s.stack k).mappedOut)
    (hfull : 8 ≤ s.outCount (k / 3)) (cause : Nat) : s.mapOut k ch cause =
      s.event { pageRec .hbm k 0x0404 .error with unit := 16 * k + ch, a := k / 3 } := by
  simp [State.mapOut, not_le.mpr hk, not_le.mpr hch, hout, hfull]

theorem State.mapOut_empty (hk : k < 12) (hch : ch < 16) (hout : ch ∉ (s.stack k).mappedOut)
    (hroom : s.outCount (k / 3) < 8) : s.mapOut k ch 4 =
      (s.markOut k ch 4).modDie (k / 3) (fun m => { m with channels := m.channels - 1 }) := by
  simp only [State.mapOut, not_le.mpr hk, not_le.mpr hch, List.contains_iff_mem, hout, not_le.mpr hroom, or_self, if_false,
    if_true]
  rfl

/-- What the choice of targets keeps of the stacks and of each die's map-outs. -/
structure MapOutsKept (s t : State) : Prop where
  hbm : t.hbm = s.hbm
  evacuating (d : Nat) : (t.die d).evacuating = (s.die d).evacuating
  pendingOut (d : Nat) : (t.die d).pendingOut = (s.die d).pendingOut
  channels (d : Nat) : (t.die d).channels = (s.die d).channels

theorem MapOutsKept.refl (s : State) : MapOutsKept s s := ⟨rfl, fun _ => rfl, fun _ => rfl, fun _ => rfl⟩

theorem MapOutsKept.trans (h : MapOutsKept s t) (h' : MapOutsKept t u) : MapOutsKept s u :=
  ⟨h'.hbm.trans h.hbm, fun d => (h'.evacuating d).trans (h.evacuating d),
    fun d => (h'.pendingOut d).trans (h.pendingOut d), fun d => (h'.channels d).trans (h.channels d)⟩

theorem MapOutsKept.of_dies (hh : t.hbm = s.hbm) (hd : t.dies = s.dies) : MapOutsKept s t :=
  ⟨hh, fun d => by rw [State.die_of_dies hd], fun d => by rw [State.die_of_dies hd], fun d => by rw [State.die_of_dies hd]⟩

theorem MapOutsKept.event (h : MapOutsKept s t) (r : Record) : MapOutsKept s (t.event r) :=
  ⟨h.hbm, h.evacuating, h.pendingOut, h.channels⟩

theorem MapOutsKept.modDie (s : State) (d : Nat) {f : DieMem → DieMem} (he : ∀ m, (f m).evacuating = m.evacuating)
    (hp : ∀ m, (f m).pendingOut = m.pendingOut) (hc : ∀ m, (f m).channels = m.channels) :
    MapOutsKept s (s.modDie d f) := by
  refine ⟨rfl, fun e => ?_, fun e => ?_, fun e => ?_⟩ <;> rw [State.die_modDie] <;> split <;> simp [he, hp, hc]

theorem State.frame_pickTarget (s : State) (d : Nat) : Frame [.freeCount] s (s.pickTarget d).2 :=
  (State.pickTarget_leads .refl (List.Subset.refl _)).frame

theorem State.mapOutsKept_chooseTargets (s : State) (d : Nat) (l : List Nat) : MapOutsKept s (s.chooseTargets d l) := by
  induction l generalizing s with
  | nil => exact .refl s
  | cons p l ih =>
    have hpick : MapOutsKept s (s.pickTarget d).2 :=
      .of_dies ((s.frame_pickTarget d).hbm (by decide)) ((s.frame_pickTarget d).dies (by decide))
    simp only [State.chooseTargets]
    split
    · refine (hpick.trans ?_).trans (ih _)
      exact .modDie _ d (fun _ => rfl) (fun _ => rfl) (fun _ => rfl)
    · refine (hpick.trans ?_).event _
      exact .modDie _ d (fun _ => rfl) (fun _ => rfl) (fun _ => rfl)

theorem MapOutsKept.foldl {α : Type} {f : State → α → State} (hf : ∀ u a, MapOutsKept u (f u a)) (l : List α) (s : State) :
    MapOutsKept s (l.foldl f s) := by
  induction l generalizing s with
  | nil => exact .refl s
  | cons a l ih => exact (hf s a).trans (ih _)

/-- A map-out of a die that holds pages is marked, and the die's evacuation begins or goes on with targets chosen. -/
theorem State.mapOutsKept_mapOut (hk : k < 12) (hch : ch < 16) (hout : ch ∉ (s.stack k).mappedOut)
    (hroom : s.outCount (k / 3) < 8) (hcause : cause ≠ 4) :
    MapOutsKept ((s.markOut k ch cause).beginLeave k ch) (s.mapOut k ch cause) := by
  simp only [State.mapOut, not_le.mpr hk, not_le.mpr hch, List.contains_iff_mem, hout, not_le.mpr hroom, or_self, if_false,
    hcause]
  have hagain := MapOutsKept.foldl (f := fun (s : State) e => if e = k / 3 then s else
      s.chooseTargets e (((s.die e).redirects.filter (fun r => decide (r.target / diePages = k / 3))).map (·.page)))
    (fun u e => by
      split
      · exact .refl u
      · exact u.mapOutsKept_chooseTargets _ _) (List.range 4) ((s.markOut k ch cause).beginLeave k ch)
  split
  · exact hagain
  · exact hagain.trans (State.mapOutsKept_chooseTargets ..)

theorem Recorded.congr {r : Record} (h : Recorded r s t) (hl : u.log = t.log) : Recorded r s u := hl.trans h

/-- A map-out under another cause than 4 (R232, R243): the channel is marked and leaves, its die evacuates. -/
theorem State.mapOut_leaves (hs : s.Shape) (hk : k < 12) (hch : ch < 16) (hout : ch ∉ (s.stack k).mappedOut)
    (hroom : s.outCount (k / 3) < 8) (hcause : cause ≠ 4) :
    StackSet k { s.stack k with
      mappedOut := setInsert (s.stack k).mappedOut ch, leaving := setInsert (s.stack k).leaving ch } s (s.mapOut k ch cause) ∧
    ((s.mapOut k ch cause).die (k / 3)).evacuating = true ∧
    ((s.mapOut k ch cause).die (k / 3)).pendingOut = (s.die (k / 3)).pendingOut + 1 ∧
    ((s.mapOut k ch cause).die (k / 3)).channels = (s.die (k / 3)).channels := by
  obtain ⟨hhbm, hev, hpend, hchan⟩ := State.mapOutsKept_mapOut hk hch hout hroom hcause
  have hmark := State.stackSet_markOut (hs.lt_hbm hk) ch cause
  have hleave := State.stackSet_beginLeave (s := s.markOut k ch cause) (k := k)
    (by rw [State.hbm_length_markOut]; exact hs.lt_hbm hk) ch
  have hdie := State.dieSet_beginLeave (s := s.markOut k ch cause) (k := k)
    (by rw [State.dies_markOut]; exact hs.lt_dies (by omega)) ch
  rw [hmark.1] at hleave
  rw [State.die_of_dies (State.dies_markOut ..)] at hdie
  exact ⟨(hmark.trans hleave).congr hhbm, by rw [hev, hdie.1], by rw [hpend, hdie.1], by rw [hchan, hdie.1]⟩

theorem exec_channelMapout (s : State) (k ch : Nat) (hc : 1 ≤ cause ∧ cause ≤ 4) :
    exec (.channelMapout k ch cause) s = .next (s.mapOut k ch cause) := by
  show execChannelMapout k ch cause s = _
  rw [execChannelMapout, decide_eq_true hc, State.when_true]

theorem exec_hbmMapoutGo (s : State) (k ch : Nat) : exec (.hbmMapoutGo k ch) s = .next (s.mapOut k ch 3) := by
  show execHbmMapoutGo k ch s = _
  rw [execHbmMapoutGo]

end MapOut

/-! ### Evacuation and its end (R232, R233) -/

section Evacuation
variable {s : State} {d p : Nat} {r : Redirect}

/-- The die `m` with the page of `r` copied: it waits no more, and its redirect is live. -/
def DieMem.redirect (m : DieMem) (p : Nat) (r : Redirect) : DieMem :=
  { m with
    toMove := m.toMove.filter (fun x => x.page != p)
    redirects := r :: m.redirects.filter (fun x => x.page != p) }

theorem exec_evacuationPageCopy (hr : (s.die d).toMove.find? (fun r => r.page == p) = some r) (hup : s.resourceUp = true) :
    exec (.evacuationPageCopy d p) s =
      .next (((s.modDie d (·.redirect p r)).bump .dcache d 7 pageSize).changed .dcache d) := by
  show execEvacuationPageCopy d p s = _
  simp only [execEvacuationPageCopy, hr, hup, State.when_true]
  rfl

theorem exec_evacuationPageCopy_down (hup : s.resourceUp = false) : exec (.evacuationPageCopy d p) s = .next s := by
  show execEvacuationPageCopy d p s = _
  unfold execEvacuationPageCopy
  split <;> simp [hup]

/-- The die `m` without the channels that left. -/
def DieMem.settle (m : DieMem) : DieMem :=
  { m with channels := m.channels - m.pendingOut, pendingOut := 0, evacuating := false }

/-- No channel of the die's stacks leaves. -/
def State.clearLeaving (s : State) (d : Nat) : State :=
  (List.range 3).foldl (fun s i => s.modStack (3 * d + i) (fun m => { m with leaving := [] })) s

theorem State.frame_clearLeaving (s : State) (d : Nat) : Frame [.hbm] s (s.clearLeaving d) :=
  (Leads.foldl _ .refl fun _ _ h => State.modStack_leads h (List.Subset.refl _)).frame

theorem State.leaving_clearLeaving (h : 3 * d + 3 ≤ s.hbm.length) {i : Nat} (hi : i < 3) :
    ((s.clearLeaving d).stack (3 * d + i)).leaving = [] := by
  have hrange : List.range 3 = [0, 1, 2] := by decide
  have hlt : 3 * d + i < s.hbm.length := by omega
  simp only [State.clearLeaving, hrange, List.foldl_cons, List.foldl_nil, State.stack_modStack,
    State.hbm_length_modStack, hlt, and_true]
  interval_cases i <;> simp

theorem exec_evacuationDone (hd : d < 4) (he : (s.die d).evacuating = true) (hm : (s.die d).toMove = [])
    (hst : (s.die d).stopped = false) : exec (.evacuationDone d) s =
      .next ((((s.modDie d DieMem.settle).clearLeaving d).changed .dcache d).event
        { pageRec .dcache d 0x0402 .notice with a := (((s.modDie d DieMem.settle).clearLeaving d).die d).channels }) := by
  show execEvacuationDone d s = _
  simp only [execEvacuationDone, hd, he, hm, hst, decide_true, List.isEmpty_nil, Bool.not_false, Bool.and_true,
    State.when_true]
  rfl

theorem exec_redirectCopyBack (hw : s.time.window.isSome = true) (hup : s.resourceUp = true)
    (hr : ∃ r ∈ (s.die d).redirects, r.page = p) (hp : p - d * diePages < (s.die d).channels * 2048) :
    exec (.redirectCopyBack d p) s = .next ((s.modDie d (fun m =>
      { m with redirects := m.redirects.filter (fun r => r.page != p) })).changed .dcache d) := by
  have hany : (s.die d).redirects.any (fun r => r.page == p) = true := by simpa using hr
  show execRedirectCopyBack d p s = _
  simp [execRedirectCopyBack, hw, hup, hany, hp]

theorem exec_redirectCopyBack_shut (hw : s.time.window = none) : exec (.redirectCopyBack d p) s = .next s := by
  show execRedirectCopyBack d p s = _
  simp [execRedirectCopyBack, hw]

end Evacuation

/-- Settles O31: each command by the one die or stack that it sets; a map-out by its mark and by what the choice of targets
keeps. -/
theorem memoryIsRegulatedAndEvacuated : Obligations.MemoryIsRegulatedAndEvacuated := by
  refine ⟨fun s d b n a hd hs hw => ⟨fun hopen => ?opened, fun hneg hr => exec_regulatorAdmit_short hneg hr⟩, ?report,
    fun s k ch hs hk hch hout => ⟨fun hfull => ?ninth, fun hroom => ?empty, fun hroom => ⟨?leave, ?same⟩⟩,
    fun s d p r hs hd hr => ⟨fun hup => ?copy, exec_evacuationPageCopy_down⟩, ?done, ?back,
    fun s d p hw => exec_redirectCopyBack_shut hw⟩
  case opened =>
    obtain ⟨t, ht, ⟨hdie, hothers⟩, hlive⟩ := exec_regulatorAdmit_open (hs.lt_dies hd) hw hopen
    refine ⟨t, ht, hothers, ?_, ?_, ?_, hlive⟩ <;> simp [hdie, DieMem.served]
  case report =>
    intro s k c l hs hk hl
    obtain ⟨hstack, hothers⟩ := State.stackSet_modStack (hs.lt_hbm hk) (·.report c l)
    by_cases hsame : l = (s.stack k).level
    · exact ⟨_, exec_hbmTempReport_same hk hl hsame, hstack, hothers, fun h => absurd hsame h, fun h => absurd hsame h,
        fun _ => rfl⟩
    have hraised : IntRaised .hbm k 0x100 s ((s.modStack k (·.report c l)).changed .hbm k) :=
      State.intRaised_changed .hbm k rfl
    refine ⟨_, exec_hbmTempReport_changed hk hl hsame, ?_⟩
    by_cases hpos : 1 ≤ l
    · rw [decide_eq_true hpos, State.when_true]
      exact ⟨hstack, hothers, fun _ => hraised, fun _ _ => rfl, fun h => by omega⟩
    · rw [decide_eq_false hpos, State.when_false]
      exact ⟨hstack, hothers, fun _ => hraised, fun _ h => absurd h hpos, fun _ => rfl⟩
  case ninth =>
    exact ⟨_, (exec_channelMapout s k ch (by decide)).trans (congrArg Host.Outcome.next
      (State.mapOut_ninth hk hch hout hfull 1)), rfl, rfl, rfl⟩
  case empty =>
    have hmark := State.stackSet_markOut (hs.lt_hbm hk) ch 4
    obtain ⟨hdie, hdies⟩ := State.dieSet_modDie (s := s.markOut k ch 4) (d := k / 3)
      (by rw [State.dies_markOut]; exact hs.lt_dies (by omega)) fun m => { m with channels := m.channels - 1 }
    obtain ⟨hstack, hothers⟩ := hmark.congr (State.modDie_hbm (s.markOut k ch 4) (k / 3) fun m =>
      { m with channels := m.channels - 1 })
    rw [State.die_of_dies (State.dies_markOut ..)] at hdie
    have hexec := exec_channelMapout (cause := 4) s k ch (by decide)
    rw [State.mapOut_empty hk hch hout hroom] at hexec
    refine ⟨_, hexec, ?_, hothers, ?_, hdie, ?_, ?_⟩
    · rw [hstack]
    · exact .trans (.of_dies (State.dies_markOut ..)) hdies
    · rw [State.modDie_sec, State.mapouts_markOut]
    · exact (State.recorded_markOut s k ch 4).congr (State.modDie_log ..)
  case leave =>
    obtain ⟨⟨hstack, hothers⟩, hdie⟩ := State.mapOut_leaves hs hk hch hout hroom (cause := 3) (by decide)
    exact ⟨_, exec_hbmMapoutGo s k ch, by rw [hstack], by rw [hstack]; exact mem_setInsert _ _, hothers,
      hdie⟩
  case same => rw [exec_hbmMapoutGo, exec_channelMapout s k ch (by decide)]
  case copy =>
    obtain ⟨hdie, hothers⟩ := (State.dieSet_modDie (hs.lt_dies hd) (·.redirect p r)).congr
      (State.bump_dies _ .dcache d 7 pageSize)
    exact ⟨_, exec_evacuationPageCopy hr hup, hothers, State.bump_mem .., hdie, State.live_bump ..,
      State.intRaised_changed .dcache d (State.bump_regs ..)⟩
  case done =>
    intro s d hs hd he hm hst
    obtain ⟨hdie, hothers⟩ := State.dieSet_modDie (hs.lt_dies hd) DieMem.settle
    have hlen : 3 * d + 3 ≤ s.hbm.length := hs.lt_hbm (k := 3 * d + 2) (by omega)
    have hleft := fun i (hi : i < 3) => State.leaving_clearLeaving (s := s.modDie d DieMem.settle) hlen hi
    have hframe := (s.modDie d DieMem.settle).frame_clearLeaving d
    have hexec := exec_evacuationDone hd he hm hst
    generalize (s.modDie d DieMem.settle).clearLeaving d = u at hleft hframe hexec
    have hset := DieSet.congr ⟨hdie, hothers⟩ (hframe.dies (by decide))
    refine ⟨_, hexec, hset.2, State.intRaised_changed .dcache d (hframe.regs (by decide)), hset.1, hleft, ?_⟩
    rw [Recorded, State.event_log, State.changed_eq, State.orReg_log, hframe.log (by decide), State.modDie_log, hset.1]
    rfl
  case back =>
    intro s d p hs hd hw hup hr hp
    obtain ⟨hdie, hothers⟩ := State.dieSet_modDie (hs.lt_dies hd) fun m =>
      { m with redirects := m.redirects.filter (fun r => r.page != p) }
    exact ⟨_, exec_redirectCopyBack hw hup hr hp, hothers, State.intRaised_changed .dcache d rfl, hdie⟩

end Sys2Proof.Machine
end

section
/-! Granules of the tier (R234, R235): how the granules listed, and the bytes and marks that they place in HBM, read back. -/

namespace Sys2Proof.Machine

-- one theorem after the other: proofs that wait together take too many threads
set_option Elab.async false

/-! ### The granules listed -/

section Listed
variable {s t : State} {n m : Nat} {g : Granule}

theorem State.granule?_num (h : s.granule? n = some g) : g.num = n := by simpa using List.find?_some h

theorem State.granule?_of_tier (h : t.tier = s.tier) (n : Nat) : t.granule? n = s.granule? n := by
  rw [State.granule?, h, State.granule?]

theorem State.granule?_modGranule (s : State) (n m : Nat) {f : Granule → Granule} (hf : ∀ g, (f g).num = g.num) :
    (s.modGranule n f).granule? m = if n = m then (s.granule? m).map f else s.granule? m := by
  have hnum : ((fun g : Granule => g.num == m) ∘ fun g => if g.num = n then f g else g) = fun g => g.num == m := by
    funext g
    by_cases h : g.num = n <;> simp [h, hf]
  simp only [State.granule?, State.modGranule, List.find?_map, hnum]
  cases h : s.tier.granules.find? (fun g => g.num == m) with
  | none => simp
  | some g =>
    have hg : g.num = m := by simpa using List.find?_some h
    by_cases hm : n = m
    · simp [hm, hg]
    · simp [hm, hg, Ne.symm hm]

theorem State.granule?_modGranule_same (h : s.granule? n = some g) (f : Granule → Granule) (hf : ∀ g, (f g).num = g.num) :
    (s.modGranule n f).granule? n = some (f g) := by
  rw [State.granule?_modGranule s n n hf, if_pos rfl, h, Option.map_some]

theorem State.granule?_modGranule_ne (h : m ≠ n) (f : Granule → Granule) (hf : ∀ g, (f g).num = g.num) :
    (s.modGranule n f).granule? m = s.granule? m := by
  rw [State.granule?_modGranule s n m hf, if_neg h.symm]

/-- The state that lists granule `n` no more. -/
def State.forget (s : State) (n : Nat) : State :=
  s.setTier (fun t => { t with granules := t.granules.filter (fun x => x.num != n) })

theorem State.granule?_forget (s : State) (n m : Nat) :
    (s.forget n).granule? m = if m = n then none else s.granule? m := by
  simp only [State.granule?, State.forget, State.setTier_tier, List.find?_filter]
  split
  · rename_i h
    subst h
    simp
  · rename_i h
    refine congrArg (List.find? · s.tier.granules) (funext fun g => ?_)
    by_cases hg : g.num = m <;> simp [hg, h]

/-- The data of granule `n` are in HBM. -/
def State.holds (s : State) (n : Nat) : Bool := (s.granule? n).any Granule.present

theorem State.holds_of_granule (h : s.granule? n = some g) : s.holds n = g.present := by
  rw [State.holds, h, Option.any_some]

theorem State.holds_of_none (h : s.granule? n = none) : s.holds n = false := by
  rw [State.holds, h, Option.any_none]

theorem State.holds_congr (h : t.granule? n = s.granule? n) : t.holds n = s.holds n := by
  rw [State.holds, h, State.holds]

theorem Granule.present_of_ne (h : g.st ≠ .filling) : g.present = true := bne_iff_ne.mpr h

theorem Granule.not_present (h : g.st = .filling) : g.present = false := by rw [Granule.present, h]; rfl

end Listed

/-! ### Bytes and marks -/

section Contents
variable {s t : State} {n a : Nat}

theorem flashBase_le_granuleBase (n : Nat) : flashBase ≤ granuleBase n := Nat.le_add_right _ _

/-- An address of flash lies in the 64 KiB of its granule. -/
theorem granuleOf_eq_iff (h : flashBase ≤ a) : granuleOf a = n ↔ granuleBase n ≤ a ∧ a < granuleBase n + 65536 := by
  simp only [granuleOf, granuleBase]
  omega

theorem State.byteAt_eq (s : State) (a : Nat) :
    s.byteAt a = if a < flashBase ∨ s.holds (granuleOf a) then cellGet 0 s.mem a else cellGet 0 s.tier.flash a := by
  unfold State.byteAt State.holds
  by_cases h : a < flashBase
  · simp [h]
  · cases s.granule? (granuleOf a) <;> simp [h]

theorem State.poisonAt_held (ha : flashBase ≤ a) (h : s.holds (granuleOf a) = true) :
    s.poisonAt a = s.memPoison.contains (a / 64) := by
  unfold State.poisonAt
  rw [if_neg (not_lt.mpr ha)]
  cases hg : s.granule? (granuleOf a) with
  | none => simp [State.holds, hg] at h
  | some g =>
    rw [State.holds_of_granule hg] at h
    exact if_pos h

theorem cellGet_copyRange {α : Type} (d : α) (src dst : List (Nat × α)) {lo hi : Nat} (hle : lo ≤ hi) (a : Nat) :
    cellGet d (copyRange src dst lo hi) a = if lo ≤ a ∧ a < hi then cellGet d src a else cellGet d dst a := by
  rw [copyRange, cellGet_append, cellGet_append, cellGet_filter d dst (fun n => decide (hi ≤ n)),
    cellGet_filter _ src (fun n => decide (lo ≤ n ∧ n < hi)), cellGet_filter _ dst (fun n => decide (n < lo))]
  by_cases h1 : a < lo
  · have h2 : ¬hi ≤ a := by omega
    have h3 : ¬lo ≤ a := by omega
    simp [h1, h2, h3]
  · have h3 : lo ≤ a := by omega
    by_cases h2 : a < hi
    · simp [h1, h2, h3, not_le.mpr h2]
    · have h4 : hi ≤ a := by omega
      simp [h1, h2, h3, h4]

/-- The cells of granule `n` are those of `src`, the others those of `dst`. -/
def granuleFrom (src dst : List Host.Cell) (n : Nat) : List Host.Cell :=
  copyRange src dst (granuleBase n) (granuleBase n + 65536)

theorem cellGet_granuleFrom (src dst : List Host.Cell) (n a : Nat) : cellGet 0 (granuleFrom src dst n) a =
    if flashBase ≤ a ∧ granuleOf a = n then cellGet 0 src a else cellGet 0 dst a := by
  have hbase := flashBase_le_granuleBase n
  rw [granuleFrom, cellGet_copyRange 0 src dst (Nat.le_add_right _ _)]
  refine if_congr ⟨fun h => ?_, fun h => (granuleOf_eq_iff h.1).mp h.2⟩ rfl rfl
  have ha : flashBase ≤ a := by omega
  exact ⟨ha, (granuleOf_eq_iff ha).mpr h⟩

/-- A granule brought in from flash: every byte of memory reads as before. -/
theorem State.byteAt_filled (hmem : t.mem = granuleFrom s.tier.flash s.mem n) (hflash : t.tier.flash = s.tier.flash)
    (hin : t.holds n = true) (hout : s.holds n = false) (hothers : ∀ m, m ≠ n → t.holds m = s.holds m) (a : Nat) :
    t.byteAt a = s.byteAt a := by
  rw [State.byteAt_eq, State.byteAt_eq, hmem, hflash, cellGet_granuleFrom]
  by_cases ha : a < flashBase
  · simp [ha]
  by_cases hn : granuleOf a = n
  · simp [ha, hn, hin, hout, not_lt.mp ha]
  · simp [hn, hothers _ hn]

/-- A granule written to flash: every byte of memory reads as before, whether it stays or goes. -/
theorem State.byteAt_flushed (hmem : t.mem = s.mem) (hflash : t.tier.flash = granuleFrom s.mem s.tier.flash n)
    (hin : s.holds n = true) (hothers : ∀ m, m ≠ n → t.holds m = s.holds m) (a : Nat) : t.byteAt a = s.byteAt a := by
  rw [State.byteAt_eq, State.byteAt_eq, hmem, hflash, cellGet_granuleFrom]
  by_cases ha : a < flashBase
  · simp [ha]
  by_cases hn : granuleOf a = n
  · simp [ha, hn, hin, not_lt.mp ha]
  · simp [hn, hothers _ hn]

end Contents

/-! ### Writes into a granule that is in HBM (R235) -/

section Writes
variable {s : State} {n da : Nat} {g : Granule} {bs : List Byte}

/-- The granule `g` after its use as number `clock`, and a write of round `now`. -/
def Granule.written (g : Granule) (clock now : Nat) : Granule :=
  { g with use := clock, st := .dirty, since := if g.st ≠ .dirty then now else g.since }

theorem Granule.since_written (h : g.st ≠ .dirty) (clock now : Nat) : (g.written clock now).since = now := if_pos h

/-- The write of a run of bytes within one granule that is in HBM. -/
theorem State.memWrite_granule (hg : s.granule? n = some g) (hne : bs ≠ []) (hda : flashBase ≤ da)
    (hfirst : granuleOf da = n) (hlast : granuleOf (da + bs.length - 1) = n) (bad : Nat → Bool) :
    s.memWrite da bs bad =
      { (s.setTier (fun t => { t with useClock := s.tier.useClock + 1 })).modGranule n
          (fun x => x.written (s.tier.useClock + 1) s.roundNow) with
        mem := cellSetRun 0 s.mem da bs, memPoison := marksAfter s.memPoison da bs.length bad } := by
  have hpos := List.length_pos_iff.mpr hne
  have hfirst' := (granuleOf_eq_iff hda).mp hfirst
  have hlast' := (granuleOf_eq_iff (by omega)).mp hlast
  simp only [granuleBase] at hfirst' hlast'
  have hbase : flashBase % 65536 = 0 := by decide
  have hunits : (da + bs.length - 1) / 65536 - da / 65536 + 1 = 1 := by omega
  have hunit : granuleOf ((da / 65536 + 0) * 65536) = n := by
    rw [granuleOf]
    omega
  have hempty : bs.isEmpty = false := List.isEmpty_eq_false_iff.mpr hne
  have hfind : ({ s with tier := { s.tier with useClock := s.tier.useClock + 1 } } : State).granule? n = some g := hg
  simp only [State.memWrite, hempty, hda, hunits, List.range_one, List.foldl_cons, List.foldl_nil, State.useGranule, hunit,
    hfind, Bool.false_eq_true, if_false, if_true, true_and]
  rfl

theorem State.granule?_memWrite (hg : s.granule? n = some g) (hne : bs ≠ []) (hda : flashBase ≤ da)
    (hfirst : granuleOf da = n) (hlast : granuleOf (da + bs.length - 1) = n) (bad : Nat → Bool) (m : Nat) :
    (s.memWrite da bs bad).granule? m =
      if m = n then some (g.written (s.tier.useClock + 1) s.roundNow) else s.granule? m := by
  rw [State.memWrite_granule hg hne hda hfirst hlast]
  have hmod := (s.setTier (fun t => { t with useClock := s.tier.useClock + 1 })).granule?_modGranule n m
    (f := fun x => x.written (s.tier.useClock + 1) s.roundNow) fun _ => rfl
  refine hmod.trans ?_
  by_cases hm : m = n
  · subst hm
    rw [if_pos rfl, if_pos rfl]
    exact congrArg (Option.map _) hg
  · rw [if_neg hm, if_neg (Ne.symm hm)]
    rfl

/-- Such a write reads back, and changes no other byte. -/
theorem State.bytesWritten_memWrite_granule (hg : s.granule? n = some g) (hp : g.present = true) (hne : bs ≠ [])
    (hda : flashBase ≤ da) (hfirst : granuleOf da = n) (hlast : granuleOf (da + bs.length - 1) = n) (bad : Nat → Bool) :
    BytesWritten da bs s (s.memWrite da bs bad) := by
  have hholds : ∀ m, (s.memWrite da bs bad).holds m = s.holds m := by
    intro m
    have hread := State.granule?_memWrite hg hne hda hfirst hlast bad m
    by_cases hm : m = n
    · subst hm
      rw [if_pos rfl] at hread
      rw [State.holds_of_granule hread, State.holds_of_granule hg, hp]
      rfl
    · rw [if_neg hm] at hread
      exact State.holds_congr hread
  have hmem : (s.memWrite da bs bad).mem = cellSetRun 0 s.mem da bs := by
    rw [State.memWrite_granule hg hne hda hfirst hlast]
  have hflash : (s.memWrite da bs bad).tier.flash = s.tier.flash := by
    rw [State.memWrite_granule hg hne hda hfirst hlast]
    rfl
  have hpos := List.length_pos_iff.mpr hne
  have hfirst' := (granuleOf_eq_iff hda).mp hfirst
  have hlast' := (granuleOf_eq_iff (by omega)).mp hlast
  refine ⟨fun i hi => ?_, fun x hx => ?_⟩
  · have hi' : granuleOf (da + i) = n := (granuleOf_eq_iff (by omega)).mpr (by omega)
    rw [State.byteAt_eq, hholds, hi', State.holds_of_granule hg, hp, hmem, cellGet_cellSetRun]
    simp [hi]
  · have hout : ¬(da ≤ x ∧ x < da + bs.length) := by omega
    rw [State.byteAt_eq, State.byteAt_eq, hholds, hmem, hflash, cellGet_cellSetRun, if_neg hout]

end Writes

end Sys2Proof.Machine
end

section
/-! Fills and write-backs (R234 to R236): a touch of an absent granule, the end of a fill and of a write-back, and the
write-backs that age begins. -/

namespace Sys2Proof.Machine

-- one theorem after the other: proofs that wait together take too many threads
set_option Elab.async false

/-! ### Touches (R234) -/

section Touch
variable {s : State} {n b va : Nat} {e : W64} {g : Granule}

/-- A fill begun: the granule is listed as filling, with what waits on it. -/
structure FillBegun (n : Nat) (w : List GrWait) (hint : Nat) (s t : State) : Prop where
  listed : ∃ g, t.granule? n = some g ∧ g.st = .filling ∧ g.waits = w ∧ g.pin = decide (hint = 1)
  mem : t.mem = s.mem
  counters : OtherCounters [ctrKey .tier 0 7] s t

/-- An absent granule begins its fill where its die's share has room. -/
theorem State.fillBegun_startFill (h : s.granule? n = none) (hroom : (s.share (n % 4)).length < s.poolShare)
    (w : List GrWait) (hint : Nat) : FillBegun n w hint s (s.startFill n w hint) := by
  simp only [State.startFill, h, State.makeRoom, if_pos hroom]
  refine ⟨⟨{ num := n, st := .filling, pin := decide (hint = 1), use := if hint = 2 then 0 else s.tier.useClock + 1, waits := w },
    ?_, rfl, rfl, rfl⟩, by rw [State.bump_mem]; rfl, .bump (.of_ctr rfl) (List.mem_singleton.mpr rfl) _⟩
  rw [State.granule?_of_tier (State.bump_tier ..)]
  simp [State.granule?]

theorem State.share_bump (s : State) (p : Pg) (i c k d : Nat) : (s.bump p i c k).share d = s.share d := by
  rw [State.share, State.bump_tier, State.share]

theorem State.poolShare_of_regs {s t : State} (h : t.regs = s.regs) : t.poolShare = s.poolShare := by
  simp only [State.poolShare, State.field, State.regN, State.reg_of_regs h]

theorem State.touch_hbm (he : s.pte? b va = some e) (hda : pteDa e + va % pageSize < flashBase) : s.touch b va = s := by
  simp [State.touch, he, hda]

theorem State.touch_flash (he : s.pte? b va = some e) (hda : flashBase ≤ pteDa e + va % pageSize)
    (hn : granuleOf (pteDa e + va % pageSize) = n) : s.touch b va =
      if s.holds n then s else (s.bump .tier 0 0 1).startFill n [.touch b va] (pteHint e) := by
  simp only [State.touch, he, if_neg (not_lt.mpr hda), hn]
  split
  · rename_i g hg
    rw [State.holds_of_granule hg]
    by_cases hp : g.present <;> simp [hp]
  · rename_i hg
    rw [State.holds_of_none hg, if_pos rfl, if_neg (by decide)]

theorem State.fillBegun_touch (he : s.pte? b va = some e) (hda : flashBase ≤ pteDa e + va % pageSize)
    (hn : granuleOf (pteDa e + va % pageSize) = n) (h : s.granule? n = none)
    (hroom : (s.share (n % 4)).length < s.poolShare) :
    FillBegun n [.touch b va] (pteHint e) (s.bump .tier 0 0 1) (s.touch b va) := by
  have hheld := State.holds_of_none h
  rw [State.touch_flash he hda hn, hheld]
  refine State.fillBegun_startFill ?_ ?_ _ _
  · rw [State.granule?_of_tier (State.bump_tier ..), h]
  · rwa [State.share_bump, State.poolShare_of_regs (State.bump_regs ..)]

/-- The granule `g` with more waiting on it. -/
def Granule.await (g : Granule) (w : List GrWait) : Granule := { g with waits := g.waits ++ w }

/-- A touch joins the fill that goes on. -/
theorem State.granule?_touch_filling (he : s.pte? b va = some e) (hda : flashBase ≤ pteDa e + va % pageSize)
    (hn : granuleOf (pteDa e + va % pageSize) = n) (hg : s.granule? n = some g) (hst : g.st = .filling) :
    (s.touch b va).granule? n = some (g.await [.touch b va]) := by
  have hheld : s.holds n = false := by rw [State.holds_of_granule hg, Granule.not_present hst]
  have hg' : (s.bump .tier 0 0 1).granule? n = some g := by rw [State.granule?_of_tier (State.bump_tier ..), hg]
  rw [State.touch_flash he hda hn, hheld]
  simp only [Bool.false_eq_true, if_false, State.startFill, hg', hst, if_true]
  exact State.granule?_modGranule_same hg' (·.await [.touch b va]) fun _ => rfl

theorem State.touch_present (he : s.pte? b va = some e) (hda : flashBase ≤ pteDa e + va % pageSize)
    (hn : granuleOf (pteDa e + va % pageSize) = n) (hg : s.granule? n = some g) (hst : g.st ≠ .filling) :
    s.touch b va = s := by
  rw [State.touch_flash he hda hn, State.holds_of_granule hg, Granule.present_of_ne hst, if_pos rfl]

end Touch

/-! ### The end of a fill (R235) -/

section Fill
variable {s : State} {n : Nat} {g : Granule} {bad : Bool}

/-- The granule `g` once nothing waits on it and it is as its flash. -/
def Granule.cleaned (g : Granule) : Granule := { g with st := .clean, waits := [] }

/-- The record of an uncorrectable read. -/
def fillRecord (n : Nat) : Record := { pageRec .tier 0 0x0500 .error with b := granuleBase n }

/-- The poison marks with every one of granule `n`. -/
def markGranule (n : Nat) (marks : List Nat) : List Nat :=
  (List.range 1024).foldl (fun m i => setInsert m (granuleBase n / 64 + i)) marks

theorem mem_markGranule {n a : Nat} (marks : List Nat) (hlo : granuleBase n ≤ a) (hhi : a < granuleBase n + 65536) :
    a / 64 ∈ markGranule n marks := by
  have hbase : granuleBase n % 64 = 0 := by
    have hflash : flashBase % 64 = 0 := by decide
    rw [granuleBase]
    omega
  rw [markGranule, mem_foldl_setInsert]
  exact .inr ⟨a / 64 - granuleBase n / 64, List.mem_range.mpr (by omega), by omega⟩

/-- The granule's flash contents in HBM, poisoned and recorded where the read was uncorrectable. -/
def State.fillIn (s : State) (n : Nat) (bad : Bool) : State :=
  let u := s.fillData n
  if bad then { u with memPoison := markGranule n u.memPoison }.event (fillRecord n) else u

theorem State.mem_fillIn (s : State) (n : Nat) (bad : Bool) : (s.fillIn n bad).mem = granuleFrom s.tier.flash s.mem n := by cases bad <;> rfl

theorem State.tier_fillIn (s : State) (n : Nat) (bad : Bool) : (s.fillIn n bad).tier = s.tier := by cases bad <;> rfl

theorem State.regs_fillIn (s : State) (n : Nat) (bad : Bool) : (s.fillIn n bad).regs = s.regs := by cases bad <;> rfl

theorem State.ctr_fillIn (s : State) (n : Nat) (bad : Bool) : (s.fillIn n bad).ctr = s.ctr := by cases bad <;> rfl

theorem State.recorded_fillIn : Recorded (fillRecord n) s (s.fillIn n true) := rfl

theorem State.memPoison_fillIn : (s.fillIn n true).memPoison = markGranule n (s.fillData n).memPoison := by
  rw [State.fillIn, if_pos rfl, State.event_memPoison]

theorem exec_granuleFillDone (hg : s.granule? n = some g) (hst : g.st = .filling) (hp : s.tier.paused = false) :
    exec (.granuleFillDone n bad) s =
      .next (((s.fillIn n bad).modGranule n Granule.cleaned).bump .tier 0 2 65536) := by
  show execGranuleFillDone n bad s = _
  simp only [execGranuleFillDone, hg, hst, hp, beq_self_eq_true, Bool.not_false, Bool.and_true, State.when_true]
  rfl

end Fill

/-! ### The end of a write-back (R235, R236) -/

section Writeback
variable {s : State} {n : Nat} {g : Granule}

/-- The granule's HBM contents written to flash, and counted. -/
def State.flushOut (s : State) (n : Nat) : State := (s.flushData n).bump .tier 0 3 65536

theorem State.mem_flushOut (s : State) (n : Nat) : (s.flushOut n).mem = s.mem := by rw [State.flushOut, State.bump_mem]; rfl

theorem State.flash_flushOut (s : State) (n : Nat) : (s.flushOut n).tier.flash = granuleFrom s.mem s.tier.flash n := by
  rw [State.flushOut, State.bump_tier]
  rfl

theorem State.granule?_flushOut (s : State) (n m : Nat) : (s.flushOut n).granule? m = s.granule? m := by
  rw [State.flushOut, State.granule?_of_tier (State.bump_tier ..)]
  rfl

theorem State.live_flushOut (s : State) (n : Nat) : (s.flushOut n).live .tier 0 3 = s.counted .tier 0 3 65536 :=
  State.live_bump (s.flushData n) .tier 0 3 65536

theorem State.holds_writing (hg : s.granule? n = some g) (hst : g.st = .writing) : s.holds n = true := by
  rw [State.holds_of_granule hg]
  exact Granule.present_of_ne (by rw [hst]; decide)

/-- The granule `g` once its write-back is done and it stays. -/
def Granule.writtenBack (g : Granule) : Granule := { g with st := .clean, waits := [], drop := false }

/-- The granule written to flash, and clean. -/
def State.writeClean (s : State) (n : Nat) : State := (s.flushOut n).modGranule n Granule.writtenBack

theorem State.mem_writeClean (s : State) (n : Nat) : (s.writeClean n).mem = s.mem := by
  rw [State.writeClean, State.modGranule_mem, State.mem_flushOut]

theorem State.flash_writeClean (s : State) (n : Nat) : (s.writeClean n).tier.flash = granuleFrom s.mem s.tier.flash n :=
  s.flash_flushOut n

theorem State.roundNow_writeClean (s : State) (n : Nat) : (s.writeClean n).roundNow = s.roundNow :=
  State.roundNow_of_time (by rw [State.writeClean, State.modGranule_time, State.flushOut, State.bump_time]; rfl)

theorem State.granule?_writeClean (hg : s.granule? n = some g) (m : Nat) :
    (s.writeClean n).granule? m = if m = n then some g.writtenBack else s.granule? m := by
  have hout : (s.flushOut n).granule? n = some g := by rw [State.granule?_flushOut, hg]
  by_cases hm : m = n
  · rw [if_pos hm, hm, State.writeClean, State.granule?_modGranule_same hout Granule.writtenBack fun _ => rfl]
  · rw [if_neg hm, State.writeClean, State.granule?_modGranule_ne hm Granule.writtenBack fun _ => rfl,
      State.granule?_flushOut]

section NoWrite
variable (hg : s.granule? n = some g) (hst : g.st = .writing) (hcan : s.canWriteBack = true)
  (hw : ∀ da bs, GrWait.write da bs ∉ g.waits)
include hg hst hcan hw

/-- A write-back that no write waits for: the granule goes where it is to be dropped, and is clean otherwise. -/
theorem exec_granuleWritebackDone_noWrite : exec (.granuleWritebackDone n) s =
    .next (if g.drop then (s.flushOut n).forget n else s.writeClean n) := by
  have hnil : ∀ f : GrWait → Option (Nat × List Byte), (∀ b va, f (.touch b va) = none) → g.waits.filterMap f = [] := by
    intro f hf
    refine List.filterMap_eq_nil_iff.mpr fun w hmem => ?_
    cases w with
    | touch b va => exact hf b va
    | write da bs => exact absurd hmem (hw da bs)
  show execGranuleWritebackDone n s = _
  simp only [execGranuleWritebackDone, hg, hst, hcan, beq_self_eq_true, Bool.and_true, State.when_true]
  rw [hnil _ fun _ _ => rfl]
  cases g.drop <;> rfl

omit hst hcan hw in
theorem State.granule?_writebackDone_noWrite (m : Nat) :
    (if g.drop then (s.flushOut n).forget n else s.writeClean n).granule? m =
      if m = n then (if g.drop then none else some g.writtenBack) else s.granule? m := by
  cases g.drop with
  | true => simp only [if_true, State.granule?_forget, State.granule?_flushOut]
  | false => simp only [Bool.false_eq_true, if_false, State.granule?_writeClean hg]

end NoWrite

/-- A write that waited applies once the write-back is done (R235). -/
theorem exec_granuleWritebackDone_write {da : Nat} {bs : List Byte} (hg : s.granule? n = some g) (hst : g.st = .writing)
    (hcan : s.canWriteBack = true) (hw : g.waits = [.write da bs]) : exec (.granuleWritebackDone n) s =
      .next ((s.writeClean n).memWrite da bs (fun _ => false)) := by
  show execGranuleWritebackDone n s = _
  simp only [execGranuleWritebackDone, hg, hst, hcan, hw, beq_self_eq_true, Bool.and_true, State.when_true,
    List.filterMap_cons, List.filterMap_nil, List.isEmpty_cons, Bool.false_eq_true, and_false, if_false, List.foldl_cons,
    List.foldl_nil]
  rfl

end Writeback

/-! ### Write-backs of age (R236) -/

section Age
variable {s : State} {n : Nat} {g : Granule}

/-- The granule `g` with its write-back begun, where it is dirty. -/
def Granule.leave (g : Granule) : Granule := if g.st = .dirty then { g with st := .writing } else g

theorem Granule.leave_leave (g : Granule) : g.leave.leave = g.leave := by
  by_cases h : g.st = .dirty <;> simp [Granule.leave, h]

theorem Granule.num_leave (g : Granule) : g.leave.num = g.num := by
  unfold Granule.leave
  split <;> rfl

theorem State.granule?_beginWriteback (s : State) (n m : Nat) :
    (s.beginWriteback n).granule? m = if n = m then (s.granule? m).map Granule.leave else s.granule? m :=
  s.granule?_modGranule n m Granule.num_leave

/-- Only the granules of the list have their write-back begun. -/
theorem State.granule?_foldl_beginWriteback (l : List Granule) (hg : s.granule? n = some g) :
    (l.foldl (fun s x => s.beginWriteback x.num) s).granule? n =
      some (if ∃ x ∈ l, x.num = n then g.leave else g) := by
  induction l generalizing s g with
  | nil => simpa using hg
  | cons x l ih =>
    rw [List.foldl_cons]
    by_cases hx : x.num = n
    · have hnext : (s.beginWriteback x.num).granule? n = some g.leave := by
        rw [State.granule?_beginWriteback, if_pos hx, hg, Option.map_some]
      rw [ih hnext, Granule.leave_leave, ite_self, if_pos ⟨x, List.mem_cons_self, hx⟩]
    · have hnext : (s.beginWriteback x.num).granule? n = some g := by
        rw [State.granule?_beginWriteback, if_neg hx, hg]
      simp [ih hnext, hx]

theorem State.foldl_beginWriteback_keeps (s : State) (l : List Granule) :
    (l.foldl (fun s x => s.beginWriteback x.num) s).mem = s.mem ∧
      (l.foldl (fun s x => s.beginWriteback x.num) s).tier.flash = s.tier.flash :=
  List.foldlRecOn (motive := fun u : State => u.mem = s.mem ∧ u.tier.flash = s.tier.flash) l _ ⟨rfl, rfl⟩
    fun _ h _ _ => h

/-- The granules that have been dirty for AGE rounds. -/
def State.aged (s : State) : List Granule := s.tier.granules.filter (fun g =>
  g.st == .dirty && decide (g.since + s.field .tier 0 Reg.tier_tierCtrl 15 0 ≤ s.roundNow))

theorem exec_ageWriteback (hw : s.time.window.isSome = true) (hcan : s.canWriteBack = true)
    (hage : s.field .tier 0 Reg.tier_tierCtrl 15 0 ≠ 0) :
    exec .ageWriteback s = .next (s.aged.foldl (fun s x => s.beginWriteback x.num) s) := by
  show execAgeWriteback s = _
  simp only [execAgeWriteback, hw, hcan, hage, ne_eq, not_false_eq_true, decide_true, Bool.and_true, State.when_true]
  rfl

theorem exec_ageWriteback_shut (hw : s.time.window = none) : exec .ageWriteback s = .next s := by
  show execAgeWriteback s = _
  simp [execAgeWriteback, hw]

end Age

/-- Settles O32: a fill and a write-back by the granule's cells that they copy, which no byte shows; the write that waited
by the bytes it leaves; age by the granules of its list. -/
theorem granulesFillAndAreWrittenBack : Obligations.GranulesFillAndAreWrittenBack := by
  refine ⟨fun s b va e he => ⟨fun hda => congrArg Host.Outcome.next (State.touch_hbm he hda), fun hda hnone hroom => ?absent,
      fun g hda hg => ⟨fun hst => ⟨_, rfl, State.granule?_touch_filling he hda rfl hg hst⟩,
        fun hst => congrArg Host.Outcome.next (State.touch_present he hda rfl hg hst)⟩⟩, ?fill,
    fun s n g hg hst hcan => ⟨fun hw => ?clean, fun da bs hw hne hda hfirst hlast => ?write⟩, ?age,
    fun s hw => exec_ageWriteback_shut hw⟩
  case absent =>
    obtain ⟨⟨g, hg, hst, hwaits, hpin⟩, hmem, hctr⟩ := State.fillBegun_touch he hda rfl hnone hroom
    refine ⟨_, g, rfl, hg, hst, hwaits, hpin, hmem.trans (State.bump_mem ..), ?_⟩
    rw [hctr.live (by simp), State.live_bump]
  case fill =>
    intro s n g bad hg hst hp
    have hin : (s.fillIn n bad).granule? n = some g := by rw [State.granule?_of_tier (State.tier_fillIn ..), hg]
    have hclean : (((s.fillIn n bad).modGranule n Granule.cleaned).bump .tier 0 2 65536).granule? n = some g.cleaned := by
      rw [State.granule?_of_tier (State.bump_tier ..), State.granule?_modGranule_same hin Granule.cleaned fun _ => rfl]
    have hflash : (((s.fillIn n bad).modGranule n Granule.cleaned).bump .tier 0 2 65536).tier.flash = s.tier.flash := by
      rw [State.bump_tier]
      show (s.fillIn n bad).tier.flash = _
      rw [State.tier_fillIn]
    refine ⟨_, exec_granuleFillDone hg hst hp, hclean, ?bytes, hflash, ?counted, ?poisoned⟩
    case bytes =>
      refine State.byteAt_filled (n := n) ?_ hflash (State.holds_of_granule hclean) ?_ fun m hm => State.holds_congr ?_
      · rw [State.bump_mem]
        exact s.mem_fillIn n bad
      · rw [State.holds_of_granule hg, Granule.not_present hst]
      · rw [State.granule?_of_tier (State.bump_tier ..), State.granule?_modGranule_ne hm Granule.cleaned fun _ => rfl,
          State.granule?_of_tier (State.tier_fillIn ..)]
    case counted =>
      rw [State.live_bump]
      exact State.counted_eq (State.frozen_of_regs (State.regs_fillIn ..) _ _) (State.live_of_ctr (State.ctr_fillIn ..) _ _ _) _
    case poisoned =>
      rintro rfl
      refine ⟨fun a hlo hhi => ?_, ?_⟩
      · have ha : flashBase ≤ a := le_trans (flashBase_le_granuleBase n) hlo
        have hn : granuleOf a = n := (granuleOf_eq_iff ha).mpr ⟨hlo, hhi⟩
        rw [State.poisonAt_held ha (by rw [hn, State.holds_of_granule hclean]; rfl), State.bump_memPoison,
          State.modGranule_memPoison, State.memPoison_fillIn, List.contains_iff_mem]
        exact mem_markGranule _ hlo hhi
      · exact State.recorded_fillIn.congr (by rw [State.bump_log, State.modGranule_log])
  case clean =>
    have hread := State.granule?_writebackDone_noWrite hg
    have hexec := exec_granuleWritebackDone_noWrite hg hst hcan hw
    have hframe : ∀ u, u = (if g.drop then (s.flushOut n).forget n else s.writeClean n) →
        u.mem = s.mem ∧ u.tier.flash = granuleFrom s.mem s.tier.flash n ∧ u.live .tier 0 3 = s.counted .tier 0 3 65536 := by
      rintro u rfl
      have hmem := s.mem_flushOut n
      have hflash := s.flash_flushOut n
      have hlive := s.live_flushOut n
      cases g.drop <;> exact ⟨hmem, hflash, hlive⟩
    generalize (if g.drop then (s.flushOut n).forget n else s.writeClean n) = u
      at hread hexec hframe
    obtain ⟨hmem, hflash, hlive⟩ := hframe u rfl
    have hheld := State.holds_writing hg hst
    refine ⟨u, hexec, ?_, hmem, hlive, fun a hlo hhi => ?_, fun hd => ?_, fun hd => ?_⟩
    · exact State.byteAt_flushed hmem hflash hheld fun m hm => State.holds_congr (by rw [hread, if_neg hm])
    · have ha : flashBase ≤ a := le_trans (flashBase_le_granuleBase n) hlo
      rw [hflash, cellGet_granuleFrom, if_pos ⟨ha, (granuleOf_eq_iff ha).mpr ⟨hlo, hhi⟩⟩]
    · rw [hread, if_pos rfl, hd, if_pos rfl]
    · rw [hread, if_pos rfl, hd, if_neg (by decide)]
      rfl
  case write =>
    have hheld := State.holds_writing hg hst
    have hread := State.granule?_writeClean hg
    have hin := (hread n).trans (if_pos rfl)
    have hflushed := State.byteAt_flushed (s.mem_writeClean n) (s.flash_writeClean n) hheld fun m hm =>
      State.holds_congr ((hread m).trans (if_neg hm))
    obtain ⟨hwritten, hothers⟩ := State.bytesWritten_memWrite_granule hin rfl hne hda hfirst hlast (fun _ => false)
    refine ⟨_, _, exec_granuleWritebackDone_write hg hst hcan hw,
      (State.granule?_memWrite hin hne hda hfirst hlast _ n).trans (if_pos rfl), rfl, ?_, hwritten,
      fun a ha => (hothers a ha).trans (hflushed a)⟩
    rw [Granule.since_written (by simp [Granule.writtenBack]), State.roundNow_writeClean]
  case age =>
    intro s hw hcan hage
    obtain ⟨hmem, hflash⟩ := s.foldl_beginWriteback_keeps s.aged
    refine ⟨_, exec_ageWriteback hw hcan hage, hmem, hflash, fun n g hg => ⟨fun hst hold => ?_, fun hst => ?_⟩⟩
    · have haged : g ∈ s.aged := List.mem_filter.mpr ⟨List.mem_of_find?_eq_some hg, by simp [hst, hold]⟩
      rw [State.granule?_foldl_beginWriteback _ hg, if_pos ⟨g, haged, State.granule?_num hg⟩, Granule.leave, if_pos hst]
    · rw [State.granule?_foldl_beginWriteback _ hg, Granule.leave, if_neg hst, ite_self]

end Sys2Proof.Machine
end

section
/-! Tier commands (R237, R340): what FLUSH, EVICT, DISCARD and PREFETCH leave of the granules and of the bytes. -/

namespace Sys2Proof.Machine

-- one theorem after the other: proofs that wait together take too many threads
set_option Elab.async false

/-! ### One granule flushed -/

section Flush
variable {s : State} {n m : Nat} {g : Granule}

/-- The granule `g` with nothing left to write back. -/
def Granule.flushed (g : Granule) : Granule := { g with st := if g.st = .dirty then .clean else g.st }

theorem Granule.flushed_dirty (h : g.st = .dirty) : g.flushed = { g with st := .clean } := by
  rw [Granule.flushed, if_pos h]

theorem Granule.flushed_of_ne (h : g.st ≠ .dirty) : g.flushed = g := by rw [Granule.flushed, if_neg h]

theorem Granule.present_flushed (g : Granule) : g.flushed.present = g.present := by
  by_cases h : g.st = .dirty
  · rw [Granule.flushed_dirty h, Granule.present_of_ne (g := g) (by rw [h]; decide)]
    rfl
  · rw [Granule.flushed_of_ne h]

theorem Granule.flushed_flushed (g : Granule) : g.flushed.flushed = g.flushed :=
  Granule.flushed_of_ne (by unfold Granule.flushed; split <;> simp_all)

theorem State.flushGranule_dirty (hg : s.granule? n = some g) (h : g.st = .dirty) :
    s.flushGranule n = ((s.flushData n).modGranule n fun x => { x with st := .clean }).bump .tier 0 3 65536 := by
  simp only [State.flushGranule, hg, if_pos h]

theorem State.flushGranule_of_ne (hg : s.granule? n = some g) (h : g.st ≠ .dirty) : s.flushGranule n = s := by
  simp only [State.flushGranule, hg, if_neg h]

theorem State.flushGranule_of_none (h : s.granule? n = none) : s.flushGranule n = s := by
  simp only [State.flushGranule, h]

theorem State.granule?_flushGranule_ne (h : m ≠ n) : (s.flushGranule n).granule? m = s.granule? m := by
  cases hg : s.granule? n with
  | none => rw [State.flushGranule_of_none hg]
  | some g =>
    by_cases hd : g.st = .dirty
    · rw [State.flushGranule_dirty hg hd, State.granule?_of_tier (State.bump_tier ..),
        State.granule?_modGranule_ne h (fun x => { x with st := .clean }) fun _ => rfl]
      rfl
    · rw [State.flushGranule_of_ne hg hd]

theorem State.granule?_flushGranule_same (hg : s.granule? n = some g) :
    (s.flushGranule n).granule? n = some g.flushed := by
  by_cases hd : g.st = .dirty
  · have hin : (s.flushData n).granule? n = some g := hg
    rw [State.flushGranule_dirty hg hd, State.granule?_of_tier (State.bump_tier ..),
      State.granule?_modGranule_same hin (fun x => { x with st := .clean }) fun _ => rfl, Granule.flushed_dirty hd]
  · rw [State.flushGranule_of_ne hg hd, hg, Granule.flushed_of_ne hd]

theorem State.holds_flushGranule (s : State) (n m : Nat) : (s.flushGranule n).holds m = s.holds m := by
  by_cases hm : m = n
  · subst hm
    cases hg : s.granule? m with
    | none => rw [State.flushGranule_of_none hg]
    | some g =>
      rw [State.holds_of_granule (State.granule?_flushGranule_same hg), State.holds_of_granule hg, Granule.present_flushed]
  · exact State.holds_congr (State.granule?_flushGranule_ne hm)

theorem State.mem_flushGranule (s : State) (n : Nat) : (s.flushGranule n).mem = s.mem := by
  cases hg : s.granule? n with
  | none => rw [State.flushGranule_of_none hg]
  | some g =>
    by_cases hd : g.st = .dirty
    · rw [State.flushGranule_dirty hg hd, State.bump_mem]
      rfl
    · rw [State.flushGranule_of_ne hg hd]

theorem State.flash_flushGranule (hg : s.granule? n = some g) (hd : g.st = .dirty) :
    (s.flushGranule n).tier.flash = granuleFrom s.mem s.tier.flash n := by
  rw [State.flushGranule_dirty hg hd, State.bump_tier]
  rfl

/-- A flush changes no byte of memory. -/
theorem State.byteAt_flushGranule (s : State) (n a : Nat) : (s.flushGranule n).byteAt a = s.byteAt a := by
  cases hg : s.granule? n with
  | none => rw [State.flushGranule_of_none hg]
  | some g =>
    by_cases hd : g.st = .dirty
    · refine State.byteAt_flushed (s.mem_flushGranule n) (State.flash_flushGranule hg hd) ?_
        (fun m _ => s.holds_flushGranule n m) a
      rw [State.holds_of_granule hg]
      exact Granule.present_of_ne (by rw [hd]; decide)
    · rw [State.flushGranule_of_ne hg hd]

end Flush

/-! ### One granule dropped -/

section Drop
variable {s : State} {n m a : Nat} {g : Granule}

/-- No access to the granule goes on, so that it can be dropped at once. -/
def Granule.Idle (g : Granule) : Prop := g.st ≠ .filling ∧ g.st ≠ .writing

theorem Granule.Idle.flushed (h : g.Idle) : g.flushed.Idle := by
  by_cases hd : g.st = .dirty
  · rw [Granule.flushed_dirty hd]
    exact ⟨GrSt.noConfusion, GrSt.noConfusion⟩
  · rwa [Granule.flushed_of_ne hd]

theorem State.dropGranule_idle (hg : s.granule? n = some g) (h : g.Idle) : s.dropGranule n = s.forget n := by
  have hbusy : ¬(g.st = .filling ∨ g.st = .writing) := fun hb => hb.elim h.1 h.2
  simp only [State.dropGranule, hg, if_neg hbusy]
  rfl

theorem State.dropGranule_of_none (h : s.granule? n = none) : s.dropGranule n = s := by
  simp only [State.dropGranule, h]

theorem State.dropGranule_keeps (s : State) (n : Nat) :
    (s.dropGranule n).mem = s.mem ∧ (s.dropGranule n).tier.flash = s.tier.flash := by
  unfold State.dropGranule
  split
  · exact ⟨rfl, rfl⟩
  · split <;> exact ⟨rfl, rfl⟩

theorem State.granule?_dropGranule_ne (h : m ≠ n) : (s.dropGranule n).granule? m = s.granule? m := by
  unfold State.dropGranule
  split
  · rfl
  · split
    · exact State.granule?_modGranule_ne h (fun x => { x with drop := true }) fun _ => rfl
    · exact (s.granule?_forget n m).trans (if_neg h)

theorem State.granule?_dropGranule_idle (hg : s.granule? n = some g) (h : g.Idle) :
    (s.dropGranule n).granule? n = none := by
  rw [State.dropGranule_idle hg h, State.granule?_forget, if_pos rfl]

/-- A drop changes no byte of another granule. -/
theorem State.byteAt_dropGranule_ne (h : granuleOf a ≠ n) : (s.dropGranule n).byteAt a = s.byteAt a := by
  obtain ⟨hmem, hflash⟩ := s.dropGranule_keeps n
  rw [State.byteAt_eq, State.byteAt_eq, hmem, hflash, State.holds_congr (State.granule?_dropGranule_ne h)]

/-- EVICT of one granule: what is dirty is written back, and the granule dropped. -/
def State.evictGranule (s : State) (n : Nat) : State := (s.flushGranule n).dropGranule n

theorem State.mem_evictGranule (s : State) (n : Nat) : (s.evictGranule n).mem = s.mem :=
  ((s.flushGranule n).dropGranule_keeps n).1.trans (s.mem_flushGranule n)

theorem State.granule?_evictGranule_ne (h : m ≠ n) : (s.evictGranule n).granule? m = s.granule? m :=
  (State.granule?_dropGranule_ne h).trans (State.granule?_flushGranule_ne h)

theorem State.evictGranule_of_none (h : s.granule? n = none) : s.evictGranule n = s := by
  rw [State.evictGranule, State.flushGranule_of_none h, State.dropGranule_of_none h]

theorem State.granule?_evictGranule_idle (hg : s.granule? n = some g) (h : g.Idle) :
    (s.evictGranule n).granule? n = none :=
  State.granule?_dropGranule_idle (State.granule?_flushGranule_same hg) h.flushed

/-- EVICT of a dirty granule leaves its bytes in flash. -/
theorem State.byteAt_evictGranule_dirty (hg : s.granule? n = some g) (hd : g.st = .dirty) (a : Nat) :
    (s.evictGranule n).byteAt a = s.byteAt a := by
  have hpresent : s.holds n = true := by
    rw [State.holds_of_granule hg]
    exact Granule.present_of_ne (by rw [hd]; decide)
  exact State.byteAt_flushed (s.mem_evictGranule n)
    (((s.flushGranule n).dropGranule_keeps n).2.trans (State.flash_flushGranule hg hd)) hpresent
    (fun m hm => State.holds_congr (State.granule?_evictGranule_ne hm)) a

/-- EVICT of a granule changes no byte of another one. -/
theorem State.byteAt_evictGranule_ne (h : granuleOf a ≠ n) : (s.evictGranule n).byteAt a = s.byteAt a :=
  (State.byteAt_dropGranule_ne h).trans (s.byteAt_flushGranule n a)

end Drop

/-! ### A command over its range -/

section Range
variable {s : State} {b va u op : Nat} {gs : List (Nat × Nat)} {p : Nat × Nat} {g : Granule}

/-- The state in which a tier command has answered `r`. -/
def State.tierResult (s : State) (r : Nat) : State := s.setTier (fun t => { t with result := r })

theorem State.tierRun_unmapped (h : s.tierRange b va u = none) (op : Nat) : s.tierRun op b va u = s.tierResult 1 := by
  simp only [State.tierRun, h]
  rfl

theorem State.tierRun_readOnly (h : s.tierRange b va u = some gs) (hst : s.tier.state = .readOnly) (hop : op = 2 ∨ op = 3) :
    s.tierRun op b va u = s.tierResult 2 := by
  simp only [State.tierRun, h, if_pos (And.intro hst hop)]
  rfl

theorem State.tierRun_flush (h : s.tierRange b va u = some gs) (hst : s.tier.state ≠ .readOnly) :
    s.tierRun 2 b va u = (gs.foldl (fun s p => s.flushGranule p.1) s).tierResult 0 := by
  simp only [State.tierRun, h, hst, false_and, if_false]
  rfl

theorem State.tierRun_evict (h : s.tierRange b va u = some gs) (hst : s.tier.state ≠ .readOnly) :
    s.tierRun 3 b va u = (gs.foldl (fun s p => s.evictGranule p.1) s).tierResult 0 := by
  simp only [State.tierRun, h, hst, false_and, if_false]
  rfl

theorem State.tierRun_discard (h : s.tierRange b va u = some gs) :
    s.tierRun 4 b va u = (gs.foldl (fun s p => s.dropGranule p.1) s).tierResult 0 := by
  have hwrites : ¬(s.tier.state = .readOnly ∧ (4 = 2 ∨ 4 = 3)) := fun h => absurd h.2 (by decide)
  simp only [State.tierRun, h, if_neg hwrites]
  rfl

theorem State.tierRun_prefetch (h : s.tierRange b va u = some [p]) (hp : s.granule? p.1 = none) :
    s.tierRun 1 b va u = (s.startFill p.1 [] p.2).tierResult 0 := by
  have hwrites : ¬(s.tier.state = .readOnly ∧ (1 = 2 ∨ 1 = 3)) := fun h => absurd h.2 (by decide)
  simp only [State.tierRun, h, if_neg hwrites, List.foldl_cons, List.foldl_nil, hp]
  rfl

theorem State.byteAt_foldl_flush (s : State) (gs : List (Nat × Nat)) (a : Nat) :
    (gs.foldl (fun s p => s.flushGranule p.1) s).byteAt a = s.byteAt a :=
  List.foldlRecOn (motive := fun t : State => t.byteAt a = s.byteAt a) gs _ rfl
    fun t h p _ => (t.byteAt_flushGranule p.1 a).trans h

/-- Every granule of the range is flushed. -/
theorem State.granule?_foldl_flush (hp : p ∈ gs) (hg : s.granule? p.1 = some g) :
    (gs.foldl (fun s p => s.flushGranule p.1) s).granule? p.1 = some g.flushed := by
  have hstep : ∀ (t : State) (q : Nat × Nat) (x : Granule), t.granule? p.1 = some x →
      (t.flushGranule q.1).granule? p.1 = some x ∨ (t.flushGranule q.1).granule? p.1 = some x.flushed := by
    intro t q x hx
    by_cases hq : p.1 = q.1
    · exact .inr (hq ▸ State.granule?_flushGranule_same (hq ▸ hx))
    · exact .inl ((State.granule?_flushGranule_ne hq).trans hx)
  refine foldl_reaches (P := fun t => t.granule? p.1 = some g ∨ t.granule? p.1 = some g.flushed)
    (Q := fun t => t.granule? p.1 = some g.flushed) hp ?_ ?_ ?_ (.inl hg)
  · rintro t q (ht | ht)
    · exact hstep t q g ht
    · exact .inr ((hstep t q _ ht).elim id fun h => h.trans (by rw [Granule.flushed_flushed]))
  · exact fun t q ht => (hstep t q _ ht).elim id fun h => h.trans (by rw [Granule.flushed_flushed])
  · rintro t (ht | ht)
    · exact State.granule?_flushGranule_same ht
    · rw [State.granule?_flushGranule_same ht, Granule.flushed_flushed]

/-- A loop over the range whose step takes an idle granule away leaves none of it. -/
theorem State.granule?_foldl_gone {f : State → Nat → State} (hne : ∀ t m n, m ≠ n → (f t n).granule? m = t.granule? m)
    (hnone : ∀ t n, t.granule? n = none → f t n = t)
    (hidle : ∀ t n x, t.granule? n = some x → x.Idle → (f t n).granule? n = none) (hp : p ∈ gs)
    (hg : s.granule? p.1 = some g) (hi : g.Idle) : (gs.foldl (fun s p => f s p.1) s).granule? p.1 = none := by
  have hgone : ∀ (t : State) (q : Nat × Nat), t.granule? p.1 = none → (f t q.1).granule? p.1 = none := by
    intro t q ht
    by_cases hq : p.1 = q.1
    · rw [hnone t q.1 (hq ▸ ht), ht]
    · rw [hne t _ _ hq, ht]
  refine foldl_reaches (P := fun t => t.granule? p.1 = some g ∨ t.granule? p.1 = none)
    (Q := fun t => t.granule? p.1 = none) hp ?_ hgone ?_ (.inl hg)
  · rintro t q (ht | ht)
    · by_cases hq : p.1 = q.1
      · exact .inr (hq ▸ hidle t q.1 g (hq ▸ ht) hi)
      · exact .inl ((hne t _ _ hq).trans ht)
    · exact .inr (hgone t q ht)
  · rintro t (ht | ht)
    · exact hidle t p.1 g ht hi
    · exact hgone t p ht

/-- EVICT leaves every byte of a granule that was dirty. -/
theorem State.byteAt_foldl_evict {n a : Nat} (hg : s.granule? n = some g) (hd : g.st = .dirty) (ha : granuleOf a = n)
    (gs : List (Nat × Nat)) : (gs.foldl (fun s p => s.evictGranule p.1) s).byteAt a = s.byteAt a := by
  have hidle : g.Idle := ⟨by rw [hd]; decide, by rw [hd]; decide⟩
  refine (List.foldlRecOn (motive := fun t : State =>
    (t.granule? n = some g ∨ t.granule? n = none) ∧ t.byteAt a = s.byteAt a) gs _ ⟨.inl hg, rfl⟩ ?_).2
  rintro t ⟨ht, hbyte⟩ q -
  by_cases hq : n = q.1
  · subst hq
    rcases ht with ht | ht
    · exact ⟨.inr (State.granule?_evictGranule_idle ht hidle), (State.byteAt_evictGranule_dirty ht hd a).trans hbyte⟩
    · rw [State.evictGranule_of_none ht]
      exact ⟨.inr ht, hbyte⟩
  · rw [State.granule?_evictGranule_ne hq]
    exact ⟨ht, (State.byteAt_evictGranule_ne (ha ▸ hq)).trans hbyte⟩

theorem State.mem_foldl_evict (s : State) (gs : List (Nat × Nat)) :
    (gs.foldl (fun s p => s.evictGranule p.1) s).mem = s.mem :=
  List.foldlRecOn (motive := fun t : State => t.mem = s.mem) gs _ rfl fun t h p _ => (t.mem_evictGranule p.1).trans h

theorem State.foldl_drop_keeps (s : State) (gs : List (Nat × Nat)) :
    (gs.foldl (fun s p => s.dropGranule p.1) s).mem = s.mem ∧
      (gs.foldl (fun s p => s.dropGranule p.1) s).tier.flash = s.tier.flash :=
  List.foldlRecOn (motive := fun t : State => t.mem = s.mem ∧ t.tier.flash = s.tier.flash) gs _ ⟨rfl, rfl⟩
    fun t ⟨hm, hf⟩ p _ => ⟨(t.dropGranule_keeps p.1).1.trans hm, (t.dropGranule_keeps p.1).2.trans hf⟩

end Range

/-! ### A command taken (R237, R340) -/

section Taken
variable {s : State} {b va u op : Nat}

theorem State.tierCmd_runs (hc : s.tier.cmd = none) (hp : s.tier.paused = false) (op b va u : Nat) :
    s.tierCmd op b va u = s.tierRun op b va u := by
  simp [State.tierCmd, hc, hp]

theorem State.tierCmd_waits (hc : s.tier.cmd = none) (hp : s.tier.paused = true) (op b va u : Nat) :
    s.tierCmd op b va u = s.setTier (fun t => { t with cmd := some (op, b, va, u) }) := by
  simp [State.tierCmd, hc, hp]

end Taken

end Sys2Proof.Machine
end

section
/-! Flash (R238 to R240, R245): blocks relocated and retired, FLASH_STATE, WRITE_HELD. -/

namespace Sys2Proof.Machine

-- one theorem after the other: proofs that wait together take too many threads
set_option Elab.async false

/-! ### Blocks relocated (R238, R239) -/

section Relocate
variable {s : State} {n : Nat}

theorem satAdd_satAdd (v : W64) (a b : Nat) : satAdd (satAdd v a) b = satAdd v (a + b) := by
  refine BitVec.eq_of_toNat_eq ?_
  simp only [satAdd, BitVec.toNat_ofNat]
  omega

theorem satAdd_zero (v : W64) : satAdd v 0 = v := by
  refine BitVec.eq_of_toNat_eq ?_
  have hlt := v.isLt
  simp only [satAdd, BitVec.toNat_ofNat]
  omega

theorem State.counted_bump (s : State) (p : Pg) (i n a b : Nat) :
    (s.bump p i n a).counted p i n b = s.counted p i n (a + b) := by
  simp only [State.counted, State.frozen_bump, State.live_bump]
  split
  · rfl
  · exact satAdd_satAdd ..

/-- A list that gives up each of its own elements is empty. -/
theorem diff_self_eq_nil (l : List Nat) : l.diff l = [] := by
  induction l with
  | nil => rfl
  | cons a l ih => rw [List.diff_cons, List.erase_cons_head, ih]

theorem State.tier_relocateBlock (s : State) (n : Nat) : (s.relocateBlock n).tier = { s.tier with
    relocate := s.tier.relocate.erase n, blockReads := s.tier.blockReads.filter (fun p => p.1 != n) } := by
  rw [State.relocateBlock, State.bump_tier]
  rfl

theorem State.counted_relocateBlock (s : State) (n k : Nat) :
    (s.relocateBlock n).counted .tier 0 5 k = s.counted .tier 0 5 (1 + k) := by
  rw [State.relocateBlock, State.counted_bump]
  rfl

theorem State.tier_foldl_relocateBlock (s : State) (l : List Nat) : (l.foldl State.relocateBlock s).tier = { s.tier with
    relocate := s.tier.relocate.diff l, blockReads := s.tier.blockReads.filter (fun p => decide (p.1 ∉ l)) } := by
  induction l generalizing s with
  | nil => simp
  | cons n l ih =>
    rw [List.foldl_cons, ih, State.tier_relocateBlock]
    simp only [List.diff_cons, List.filter_filter]
    congr 1
    refine List.filter_congr fun p _ => ?_
    by_cases hn : p.1 = n <;> simp [hn]

theorem State.live_foldl_relocateBlock (s : State) (l : List Nat) :
    (l.foldl State.relocateBlock s).live .tier 0 5 = s.counted .tier 0 5 l.length := by
  induction l generalizing s with
  | nil => simp [State.counted, satAdd_zero]
  | cons n l ih => rw [List.foldl_cons, ih, State.counted_relocateBlock, List.length_cons, Nat.add_comm]

theorem exec_flashHousekeeping (hw : s.time.window.isSome = true) (hp : s.tier.paused = false) :
    exec .flashHousekeeping s = .next (s.tier.relocate.foldl State.relocateBlock s) := by
  show execFlashHousekeeping s = _
  simp [execFlashHousekeeping, hw, hp]

theorem exec_readDisturbRelocate (hp : s.tier.paused = false) (n : Nat) :
    exec (.readDisturbRelocate n) s = .next (s.relocateBlock n) := by
  show execReadDisturbRelocate n s = _
  simp [execReadDisturbRelocate, hp]

end Relocate

/-! ### Blocks retired, FLASH_STATE and WRITE_HELD (R238 to R240) -/

section Condition
variable {s : State} {n p w : Nat} {low : Bool}

theorem exec_flashBlockRetire (h : n ∉ s.tier.retired) : exec (.flashBlockRetire n) s =
    .next (((s.setTier (fun t => { t with retired := setInsert t.retired n })).bump .tier 0 6 1).event
      { pageRec .tier 0 0x0501 .warning with a := n }) := by
  show execFlashBlockRetire n s = _
  simp [execFlashBlockRetire, h]

theorem exec_flashBlockRetire_again (h : n ∈ s.tier.retired) : exec (.flashBlockRetire n) s = .next s := by
  show execFlashBlockRetire n s = _
  simp [execFlashBlockRetire, h]

/-- The state with the spare blocks and the wear reported. -/
def State.flashReport (s : State) (p w : Nat) : State := s.setTier (fun t =>
  { t with spare := some (min p 255), wearPct := min w 255, state := flashNext s.tier.state p w })

theorem exec_flashStateChange_same (h : flashNext s.tier.state p w = s.tier.state) :
    exec (.flashStateChange p w) s = .next (s.flashReport p w) := by
  show execFlashStateChange p w s = _
  simp only [execFlashStateChange, State.flashReport, h, ne_eq, not_true, decide_false, State.when_false]

theorem exec_flashStateChange_new (h : flashNext s.tier.state p w ≠ s.tier.state) :
    exec (.flashStateChange p w) s = .next (((s.flashReport p w).changed .tier 0).event { pageRec .tier 0 0x0502 .warning with
      a := s.tier.state.code, b := (flashNext s.tier.state p w).code }) := by
  show execFlashStateChange p w s = _
  simp only [execFlashStateChange, State.flashReport, h, ne_eq, not_false_eq_true, decide_true, State.when_true]

/-- The state with the pin read as `low`. -/
def State.heldPin (s : State) (low : Bool) : State := s.setTier (fun t => { t with writeHeld := low })

theorem exec_writeHeld_same (h : low = s.tier.writeHeld) : exec (.writeHeld low) s = .next (s.heldPin low) := by
  show execWriteHeld low s = _
  simp only [execWriteHeld, ← h, bne_self_eq_false, State.when_false, State.heldPin]

theorem exec_writeHeld_released (h : s.tier.writeHeld = true) :
    exec (.writeHeld false) s = .next ((s.heldPin false).changed .tier 0) := by
  show execWriteHeld false s = _
  simp only [execWriteHeld, h, Bool.false_bne, State.when_false, State.when_true, State.heldPin]

theorem exec_writeHeld_held (h : s.tier.writeHeld = false) : exec (.writeHeld true) s =
    .next (((s.heldPin true).changed .tier 0).event { pageRec .tier 0 0x0503 .warning with a := 0 }) := by
  show execWriteHeld true s = _
  simp only [execWriteHeld, h, Bool.true_bne, Bool.not_false, State.when_true, State.heldPin]

end Condition

/-- Settles O33: a command by its loop over the range, which keeps the bytes where it writes back; flash by the one update
of the tier that each event makes. -/
theorem tierCommandsAndFlash : Obligations.TierCommandsAndFlash := by
  refine ⟨fun s b va u hc hp => ?commands, fun s b va u hc hp => ⟨_, congrArg Host.Outcome.next
      (State.tierCmd_waits hc hp 2 b va u), rfl⟩, fun s hw hp => ?housekeeping,
    fun s n hp => ⟨_, exec_readDisturbRelocate hp n, s.tier_relocateBlock n, State.live_bump ..⟩,
    fun s n => ⟨fun hn => ⟨_, exec_flashBlockRetire hn, ?retired, State.live_bump .., ?recorded⟩,
      exec_flashBlockRetire_again⟩, fun s p w => ?state, fun s low => ?held⟩
  case commands =>
    have hrun : ∀ op, s.tierCmd op b va u = s.tierRun op b va u := fun op => State.tierCmd_runs hc hp op b va u
    refine ⟨fun hnone => ?unmapped, fun gs hgs hro => ?readOnly, fun gs hgs hrw => ⟨?flush, ?evict⟩, fun gs hgs => ?discard,
      fun p hgs hnone hroom => ?prefetch⟩
    case unmapped =>
      have hone : ∀ op, s.tierCmd op b va u = s.tierResult 1 := fun op =>
        (hrun op).trans (State.tierRun_unmapped hnone op)
      simp only [List.forall_mem_cons]
      exact ⟨⟨_, congrArg Host.Outcome.next (hone 1), rfl, rfl⟩, ⟨_, congrArg Host.Outcome.next (hone 2), rfl, rfl⟩,
        ⟨_, congrArg Host.Outcome.next (hone 3), rfl, rfl⟩, ⟨_, congrArg Host.Outcome.next (hone 4), rfl, rfl⟩,
        fun c hc => absurd hc List.not_mem_nil⟩
    case readOnly =>
      have htwo : ∀ op, op = 2 ∨ op = 3 → s.tierCmd op b va u = s.tierResult 2 := fun op hop =>
        (hrun op).trans (State.tierRun_readOnly hgs hro hop)
      simp only [List.forall_mem_cons]
      exact ⟨⟨_, congrArg Host.Outcome.next (htwo 2 (.inl rfl)), rfl, rfl⟩,
        ⟨_, congrArg Host.Outcome.next (htwo 3 (.inr rfl)), rfl, rfl⟩, fun c hc => absurd hc List.not_mem_nil⟩
    case flush =>
      exact ⟨_, congrArg Host.Outcome.next ((hrun 2).trans (State.tierRun_flush hgs hrw)), rfl,
        fun a => s.byteAt_foldl_flush gs a, fun p g hmem hg => State.granule?_foldl_flush hmem hg⟩
    case evict =>
      refine ⟨_, congrArg Host.Outcome.next ((hrun 3).trans (State.tierRun_evict hgs hrw)), rfl, s.mem_foldl_evict gs,
        fun p g hmem hg hf hw => ⟨?_, fun hd a hlo hhi => ?_⟩⟩
      · exact State.granule?_foldl_gone (fun _ _ _ => State.granule?_evictGranule_ne)
          (fun _ _ => State.evictGranule_of_none) (fun _ _ _ => State.granule?_evictGranule_idle) hmem hg ⟨hf, hw⟩
      · have ha : flashBase ≤ a := le_trans (flashBase_le_granuleBase p.1) hlo
        exact State.byteAt_foldl_evict hg hd ((granuleOf_eq_iff ha).mpr ⟨hlo, hhi⟩) gs
    case discard =>
      obtain ⟨hm, hf⟩ := s.foldl_drop_keeps gs
      exact ⟨_, congrArg Host.Outcome.next ((hrun 4).trans (State.tierRun_discard hgs)), rfl, hm, hf,
        fun p g hmem hg hfill hw => State.granule?_foldl_gone (fun _ _ _ => State.granule?_dropGranule_ne)
          (fun _ _ => State.dropGranule_of_none) (fun _ _ _ => State.granule?_dropGranule_idle) hmem hg ⟨hfill, hw⟩⟩
    case prefetch =>
      obtain ⟨⟨g, hg, hst, hwaits, -⟩, -, -⟩ := State.fillBegun_startFill hnone hroom [] p.2
      exact ⟨_, g, congrArg Host.Outcome.next ((hrun 1).trans (State.tierRun_prefetch hgs hnone)), rfl, hg, hst, hwaits⟩
  case housekeeping =>
    have htier := s.tier_foldl_relocateBlock s.tier.relocate
    refine ⟨_, exec_flashHousekeeping hw hp, ?_, s.live_foldl_relocateBlock _, ?_, ?_⟩
    · rw [htier]
      exact diff_self_eq_nil _
    · rw [htier]
    · rw [htier]
      intro p hmem
      exact of_decide_eq_true (List.mem_filter.mp hmem).2
  case retired =>
    rw [State.event_tier, State.bump_tier]
    rfl
  case recorded =>
    rw [Recorded, State.event_log, State.bump_log]
    rfl
  case state =>
    by_cases hsame : flashNext s.tier.state p w = s.tier.state
    · exact ⟨_, exec_flashStateChange_same hsame, rfl, fun h => absurd hsame h, fun _ => ⟨rfl, rfl⟩⟩
    · exact ⟨_, exec_flashStateChange_new hsame, rfl, fun _ => ⟨State.intRaised_changed .tier 0 rfl, rfl⟩,
        fun h => absurd h hsame⟩
  case held =>
    cases hwas : s.tier.writeHeld <;> cases low
    case false.false => exact ⟨_, exec_writeHeld_same hwas.symm, rfl, fun h => absurd rfl h, fun _ => rfl, nofun⟩
    case false.true =>
      exact ⟨_, exec_writeHeld_held hwas, rfl, fun _ => State.intRaised_changed .tier 0 rfl, nofun, fun _ _ => rfl⟩
    case true.false =>
      exact ⟨_, exec_writeHeld_released hwas, rfl, fun _ => State.intRaised_changed .tier 0 rfl, fun _ => rfl, nofun⟩
    case true.true => exact ⟨_, exec_writeHeld_same hwas.symm, rfl, fun h => absurd rfl h, fun _ => rfl, nofun⟩

end Sys2Proof.Machine
end

section
/-! Requests over PBP that are performed (R317 to R323, R334, R335): from the message to its answer, and what the protocol
itself leaves alone. -/

namespace Sys2Proof.Machine

-- one theorem after the other: proofs that wait together take too many threads
set_option Elab.async false

/-! ### A request heard -/

section Heard
variable {s : State} {h : PbpHdr}

theorem State.frame_heard (s : State) (h : PbpHdr) : Frame [.ctr, .host] s (s.heard h) :=
  (State.modSession_leads (State.bump_leads (State.bump_leads (State.bump_leads .refl (by decide)) (by decide)) (by decide))
    (by decide)).frame

@[simp] theorem State.outbox_heard (s : State) (h : PbpHdr) : (s.heard h).outbox = s.outbox :=
  (s.frame_heard h).outbox (by decide)
@[simp] theorem State.pins_heard (s : State) (h : PbpHdr) : (s.heard h).pins = s.pins := (s.frame_heard h).pins (by decide)
@[simp] theorem State.regs_heard (s : State) (h : PbpHdr) : (s.heard h).regs = s.regs := (s.frame_heard h).regs (by decide)
@[simp] theorem State.boxes_heard (s : State) (h : PbpHdr) : (s.heard h).boxes = s.boxes :=
  (s.frame_heard h).boxes (by decide)
@[simp] theorem State.tier_heard (s : State) (h : PbpHdr) : (s.heard h).tier = s.tier := (s.frame_heard h).tier (by decide)
@[simp] theorem State.cb_heard (s : State) (h : PbpHdr) : (s.heard h).cb = s.cb := (s.frame_heard h).cb (by decide)
@[simp] theorem State.fw_heard (s : State) (h : PbpHdr) : (s.heard h).fw = s.fw := (s.frame_heard h).fw (by decide)
@[simp] theorem State.sec_heard (s : State) (h : PbpHdr) : (s.heard h).sec = s.sec := (s.frame_heard h).sec (by decide)

@[simp] theorem State.box_heard (s : State) (h : PbpHdr) (b : Nat) : (s.heard h).box b = s.box b :=
  State.box_of_boxes (s.boxes_heard h) b

theorem State.comp_of_fw {t : State} (hf : t.fw = s.fw) (k : Nat) : t.comp k = s.comp k := by
  rw [State.comp, hf, State.comp]

@[simp] theorem State.comp_heard (s : State) (h : PbpHdr) (k : Nat) : (s.heard h).comp k = s.comp k :=
  State.comp_of_fw (s.fw_heard h) k

@[simp] theorem State.bootServes_heard (s : State) (h : PbpHdr) : (s.heard h).bootServes = s.bootServes := by
  rw [State.bootServes, State.fw_heard, State.bootServes]

/-- Hearing a request moves counters of the host port alone. -/
theorem State.otherCounters_heard (s : State) (h : PbpHdr) :
    OtherCounters [ctrKey .hostif 0 0, ctrKey .hostif 0 5, ctrKey .hostif 0 7] s (s.heard h) :=
  OtherCounters.trans (((OtherCounters.refl _ s).bump (by simp) _ |>.bump (by simp) _).bump (by simp) _) (.of_ctr rfl)

theorem State.session?_modSession (s : State) (n m : Nat) (f : Session → Session) (hf : ∀ k, (f k).num = k.num) :
    (s.modSession n f).session? m = if n = m then (s.session? m).map f else s.session? m := by
  have hnum : ((fun k : Session => k.num == m) ∘ fun k => if k.num = n then f k else k) = fun k => k.num == m := by
    funext k
    by_cases h : k.num = n <;> simp [h, hf]
  simp only [State.session?, State.modSession, State.setHost_host, List.find?_map, hnum]
  cases h : s.host.sessions.find? (fun k => k.num == m) with
  | none => simp
  | some k =>
    have hk : k.num = m := by simpa using List.find?_some h
    by_cases hm : n = m
    · simp [hm, hk]
    · simp [hm, hk, Ne.symm hm]

/-- Who opened a box does not depend on when a session was last heard. -/
theorem State.opened_heard (s : State) (h : PbpHdr) (b n : Nat) : (s.heard h).opened b n = s.opened b n := by
  have hhost : (((s.bump .hostif 0 0 1).bump .hostif 0 5 1).bump .hostif 0 7 (b2n h.resent)).session? n = s.session? n := by
    simp [State.session?]
  have hres : ((s.heard h).session? n).map (·.resumed) = (s.session? n).map (·.resumed) := by
    rw [State.heard, State.session?_modSession _ _ _ (fun k => { k with lastHeard := s.time.t }) fun _ => rfl, hhost]
    split
    · rw [Option.map_map]; rfl
    · rfl
  rw [State.opened, State.opened, State.box_heard]
  cases h1 : (s.heard h).session? n <;> cases h2 : s.session? n <;> simp_all

theorem State.mayUse_heard (s : State) (h : PbpHdr) (b n : Nat) : (s.heard h).mayUse b n = s.mayUse b n := by
  rw [State.mayUse, State.mayUse, State.opened_heard, State.box_heard]

end Heard

/-! ### A request answered -/

section Replied
variable {s u : State} {h : PbpHdr} {st : PbpSt} {p : List Byte}

/-- The state once the request has the answer `st` with payload `p`. -/
def State.replied (u : State) (h : PbpHdr) (st : PbpSt) (p : List Byte) : State := u.respond h.session h.seq st.code p

theorem State.answered_replied (u : State) (h : PbpHdr) (st : PbpSt) (p : List Byte) :
    Answered h st.code p (u.replied h st p) := rfl

theorem State.frame_replied (u : State) (h : PbpHdr) (st : PbpSt) (p : List Byte) :
    Frame [.outbox, .ctr, .host] u (u.replied h st p) := (State.respond_leads .refl (List.Subset.refl _)).frame

@[simp] theorem State.regs_replied (u : State) (h : PbpHdr) (st : PbpSt) (p : List Byte) :
    (u.replied h st p).regs = u.regs := (u.frame_replied h st p).regs (by decide)
@[simp] theorem State.boxes_replied (u : State) (h : PbpHdr) (st : PbpSt) (p : List Byte) :
    (u.replied h st p).boxes = u.boxes := (u.frame_replied h st p).boxes (by decide)
@[simp] theorem State.tier_replied (u : State) (h : PbpHdr) (st : PbpSt) (p : List Byte) :
    (u.replied h st p).tier = u.tier := (u.frame_replied h st p).tier (by decide)
@[simp] theorem State.cb_replied (u : State) (h : PbpHdr) (st : PbpSt) (p : List Byte) :
    (u.replied h st p).cb = u.cb := (u.frame_replied h st p).cb (by decide)
@[simp] theorem State.fw_replied (u : State) (h : PbpHdr) (st : PbpSt) (p : List Byte) :
    (u.replied h st p).fw = u.fw := (u.frame_replied h st p).fw (by decide)

@[simp] theorem State.box_replied (u : State) (h : PbpHdr) (st : PbpSt) (p : List Byte) (b : Nat) :
    (u.replied h st p).box b = u.box b := State.box_of_boxes (u.boxes_replied h st p) b

@[simp] theorem State.comp_replied (u : State) (h : PbpHdr) (st : PbpSt) (p : List Byte) (k : Nat) :
    (u.replied h st p).comp k = u.comp k := State.comp_of_fw (u.fw_replied h st p) k

theorem State.otherCounters_replied (u : State) (h : PbpHdr) (st : PbpSt) (p : List Byte) :
    OtherCounters [ctrKey .hostif 0 1] u (u.replied h st p) :=
  OtherCounters.trans ((OtherCounters.refl _ u).bump (by simp) _) (.of_ctr rfl)

end Replied

/-! ### From the message to its answer -/

section Served
variable {s : State} {h : PbpHdr} {q : PbpReq} {run : State → Nat → Reply}

/-- What a reply leaves: its answer sent, or nothing where it waits. -/
def pbpReply (h : PbpHdr) (r : Reply) : State :=
  match r.2 with
  | some (st, p) => r.1.replied h st p
  | none => r.1

theorem pbpReply_answer (h : PbpHdr) (u : State) (st : PbpSt) (p : List Byte) :
    pbpReply h (u.answer st p) = u.replied h st p := rfl

theorem pbpReply_refused (h : PbpHdr) (u : State) (d : Nat) : pbpReply h (u.refused d) = u.replied h .refused (leBytes 2 d) :=
  rfl

theorem PbpReq.fits_of (hv : q.valid = true) (hl : ∀ n, q.len = some n → h.length = n) {v : Nat} (hver : q.since ≤ v) :
    q.fits h v = true := by
  rw [PbpReq.fits, hv, decide_eq_true hver]
  split
  · exact beq_iff_eq.mpr (hl _ ‹_›)
  · rfl

/-- A request that an open session may make now, that fits its type and that the firmware takes, is performed. -/
theorem State.pbp_served (hs : s.serves h q.since) (hv : q.valid = true) (hl : ∀ n, q.len = some n → h.length = n)
    (hm : s.fw.st = .running ∨ q.boot = true) (run : State → Nat → Reply) :
    s.pbp h q run = pbpReply h (run (s.heard h) h.session) := by
  obtain ⟨hrel, hboot, hbad, hup, hworker, hcb, htier, k, hk, hver, hans, hstore⟩ := hs
  obtain ⟨u, hu⟩ : ∃ u, ((s.bump .hostif 0 0 1).bump .hostif 0 5 1).bump .hostif 0 7 (b2n h.resent) = u := ⟨_, rfl⟩
  have hfw : u.fw = s.fw := by simp [← hu]
  have hfab : u.fab = s.fab := by simp [← hu]
  have hhost : u.host = s.host := by simp [← hu]
  have htime : u.time = s.time := by simp [← hu]
  have hup' : u.pbpUp = true := by
    rw [State.pbpUp, State.comp_of_fw hfw, hfw]
    exact hup
  have hworker' : u.isWorker = false := by
    rw [State.isWorker, hfab]
    exact hworker
  have hk' : u.session? h.session = some k := by
    rw [State.session?, hhost]
    exact hk
  have hheard : u.modSession h.session (fun k => { k with lastHeard := u.time.t }) = s.heard h := by
    rw [State.heard, hu, htime]
  have hwaits :
      ¬((s.heard h).host.cbReply = some (h.session, h.seq) ∨ (s.heard h).host.tierReply = some (h.session, h.seq)) := by
    have hheld : (s.heard h).host.cbReply = u.host.cbReply ∧ (s.heard h).host.tierReply = u.host.tierReply := by
      rw [← hheard]
      exact ⟨rfl, rfl⟩
    rw [hheld.1, hheld.2, hhost]
    exact not_or_intro hcb htier
  have hmode : ¬((s.heard h).fw.st ≠ .running ∧ (!q.boot) = true) := by
    rw [State.fw_heard]
    rintro ⟨hne, hb⟩
    rcases hm with hm | hm
    · exact hne hm
    · simp [hm] at hb
  have hperform : u.perform h q k run = pbpReply h (run (s.heard h) h.session) := by
    simp only [State.perform, hheard, hstore, hans, if_neg hwaits, if_neg hmode, PbpReq.fits_of hv hl hver, Bool.not_true,
      Bool.false_eq_true, if_false]
    rfl
  simp only [State.pbp, hrel, hboot, hu, hbad, hup', hworker', hk', hperform, Bool.not_true, Bool.false_eq_true, false_and,
    if_false]

theorem State.atTarget_here (hp : h.targetPos = s.pos) (cmd : Instr) (n : Nat) (here : State → Reply) :
    s.atTarget h cmd n here = here s := if_pos hp

theorem State.pos_heard (s : State) (h : PbpHdr) : (s.heard h).pos = s.pos := by rw [State.pos, State.pins_heard, State.pos]

/-- A request for a box that RESOURCE performs here for the session that may make it. -/
theorem State.resource_served (hs : s.servesHere h 0x10) (hsince : q.since = 0x10) (hv : q.valid = true)
    (hl : ∀ n, q.len = some n → h.length = n) (hc : (s.comp 5).st = .running) (hmay : s.mayUse h.box h.session = true)
    (cmd : Instr) (n : Nat) (run : State → Nat → Reply) :
    s.resource h q cmd n run = pbpReply h (run (s.heard h) h.session) := by
  obtain ⟨hserves, hrunning, hpos⟩ := hs
  have hhere : h.targetPos = (s.heard h).pos := hpos.trans (s.pos_heard h).symm
  have hmay' : ¬((!h.relayed) = true ∧ !(s.heard h).mayUse h.box h.session) := by
    rw [State.mayUse_heard, hmay]
    exact fun hne => Bool.noConfusion hne.2
  have hc' : ¬((s.heard h).comp 5).st ≠ .running := by rw [State.comp_heard, hc]; exact fun hne => hne rfl
  rw [State.resource, State.pbp_served (q := { q with relay := true }) (hsince ▸ hserves) hv hl (.inl hrunning),
    State.atTarget_here hhere, State.boxRequest, if_neg hc', if_neg hmay']

end Served

end Sys2Proof.Machine
end

section
/-! The boot ROM's requests (R334, R335, R352): images announced, filled and verified, START, and FW_STATUS. -/

namespace Sys2Proof.Machine

-- one theorem after the other: proofs that wait together take too many threads
set_option Elab.async false

/-! ### Firmware after the units that a request calls -/

@[simp] theorem State.fw_measure (s : State) (m : Measure) : (s.measure m).fw = s.fw :=
  (State.measure_leads .refl (List.Subset.refl _)).frame.fw (by decide)

@[simp] theorem State.fw_writeField (s : State) : s.writeField.fw = s.fw :=
  (State.writeField_leads .refl (List.Subset.refl _)).frame.fw (by decide)

@[simp] theorem State.fw_changed (s : State) (p : Pg) (i : Nat) : (s.changed p i).fw = s.fw :=
  (State.changed_leads .refl (List.Subset.refl _)).frame.fw (by decide)

theorem State.fw_verifyImage_of_fault {s : State} {a : Nat × Nat} {w : Bool} {bs : List Byte} {d : Nat}
    (hf : s.imageFault a w bs = some d) : (s.verifyImage a w bs).2 = some d ∧ (s.verifyImage a w bs).1.fw = s.fw := by
  simp [State.verifyImage, hf]

/-- What the store keeps of a sealed image: its bytes, and its header's versions and digest (R351). -/
def sealedImage (bs : List Byte) : Image :=
  { bytes := bs, svn := bits (numAt bs 0 64) 223 192, ifVersion := bits (numAt bs 0 64) 191 176
    digest := BitVec.ofNat 256 (bits (numAt bs 0 64) 511 256) }

/-- An image that passes is kept for its component, and nothing else of the firmware changes. -/
theorem State.verifyImage_of_good {s : State} {a : Nat × Nat} {w : Bool} {bs : List Byte}
    (hf : s.imageFault a w bs = none) (ha : a.1 < s.fw.comps.length) :
    (s.verifyImage a w bs).2 = none ∧ (s.verifyImage a w bs).1.fw.loading = s.fw.loading ∧
      ((s.verifyImage a w bs).1.comp a.1).image = some (sealedImage bs) := by
  simp only [State.verifyImage, hf]
  refine ⟨trivial, by simp, ?_⟩
  rw [State.comp_of_fw (State.bump_fw ..), State.comp_of_fw (State.fw_measure ..), State.comp_modComp, if_pos ⟨rfl, ha⟩,
    sealedImage]

theorem State.fw_startSet (s : State) : s.startSet.fw = { s.fw with
    st := .starting, loading := none
    comps := s.fw.comps.zipIdx.map (fun p =>
      { p.1 with st := if p.2 = 1 then .starting else .absent, loaded := p.2 != 0, journal := [] }) } := by
  simp [State.startSet]

/-- SUPERVISOR is the component that a start starts. -/
theorem State.comp_startSet (s : State) (h : s.fw.comps.length = 6) : (s.startSet.comp 1).st = .starting := by
  simp [State.comp, State.fw_startSet, List.getD_eq_getElem?_getD, h]

/-! ### Requests of the boot ROM -/

section Boot
variable {s : State} {h : PbpHdr}

theorem State.bootReq_served (hs : s.serves h 0x10) {n : Nat} (hn : h.length = n) {valid : Bool} (hv : valid = true)
    {run : State → Nat → Reply} : s.pbp h (bootReq (some n) valid) run = pbpReply h (run (s.heard h) h.session) :=
  State.pbp_served (q := bootReq (some n) valid) hs hv (fun _ e => hn.trans (Option.some.inj e)) (.inr rfl) run

theorem State.bootServes_heard_neg (hb : s.bootServes = true) : ¬(!(s.heard h).bootServes) = true := by
  simp [hb]

/-- The firmware while the image of component `c` is received. -/
def Firmware.beginLoading (w : Firmware) (c n : Nat) : Firmware :=
  { w with st := .loading, loading := some { comp := c, size := n } }

theorem exec_imageBegin_ok (hs : s.serves h 0x10) (hb : s.bootServes = true) (hn : h.length = 7) {c n : Nat}
    (hok : ¬(n < 4096 ∨ 8 * mib < n ∨ !compOk c)) :
    exec (.imageBegin h c n) s = .next (((((s.heard h).when (decide ((s.heard h).fw.st = .noFirmware))
      ((s.heard h).changed .fwctl 0))).setFw (·.beginLoading c n)).replied h .ok []) := by
  change execImageBegin h c n s = _
  rw [execImageBegin, State.bootReq_served hs hn rfl, if_neg (State.bootServes_heard_neg hb), if_neg hok]
  rfl

theorem exec_imageBegin_bad (hs : s.serves h 0x10) (hb : s.bootServes = true) (hn : h.length = 7) {c n : Nat}
    (hbad : n < 4096 ∨ 8 * mib < n ∨ !compOk c) :
    exec (.imageBegin h c n) s = .next ((s.heard h).replied h .refused (leBytes 2 0x0501)) := by
  change execImageBegin h c n s = _
  rw [execImageBegin, State.bootReq_served hs hn rfl, if_neg (State.bootServes_heard_neg hb), if_pos hbad]
  rfl

/-- The loading after bytes of the image at an offset. -/
def Loading.receive (l : Loading) (o : Nat) (d : List Byte) : Loading :=
  { l with data := l.data.setRun o d, got := (o, d.length) :: l.got }

theorem exec_imageData (hs : s.serves h 0x10) (hb : s.bootServes = true) {o : Nat} {d : List Byte} {l : Loading}
    (hn : h.length = 6 + d.length) (hd : 1 ≤ d.length ∧ d.length ≤ 8192) (hl : s.fw.loading = some l) :
    exec (.imageData h o d) s = .next (if l.size < o + d.length then (s.heard h).replied h .badMessage [] else
      ((s.heard h).setFw (fun w => { w with loading := some (l.receive o d) })).replied h .ok []) := by
  change execImageData h o d s = _
  rw [execImageData, State.bootReq_served hs hn (decide_eq_true hd), if_neg (State.bootServes_heard_neg hb), State.fw_heard, hl]
  dsimp only
  split <;> rfl

/-- The boot ROM's answer to IMAGE_END. -/
def imageVerdict (r : State × Option Nat) : Reply :=
  match r.2 with
  | some d => r.1.refused d
  | none => r.1.answer .ok

theorem exec_imageEnd (hs : s.serves h 0x10) (hb : s.bootServes = true) (hn : h.length = 3) {l : Loading}
    (hl : s.fw.loading = some l) :
    exec (.imageEnd h l.comp) s = .next (pbpReply h (imageVerdict (((s.heard h).setFw (fun w => { w with
      loading := none })).verifyImage (l.comp, l.size) l.whole (l.data.getRun 0 l.size)))) := by
  change execImageEnd h l.comp s = _
  rw [execImageEnd, State.bootReq_served hs hn rfl, if_neg (State.bootServes_heard_neg hb), State.fw_heard, hl]
  dsimp only
  rw [if_pos rfl]
  rfl

theorem exec_start (hs : s.serves h 0x10) (hb : s.bootServes = true) (hn : h.length = 2) :
    exec (.start h) s = .next (pbpReply h (
      if (List.range 5).any (fun k => (s.comp (k + 1)).image.isNone) then (s.heard h).refused 0x0001
      else if s.sec.passport ≠ .good then (s.heard h).refused 0x0002
      else if s.sec.identity ≠ .good then (s.heard h).refused 0x0003
      else (s.heard h).startSet.answer .ok)) := by
  change execStart h s = _
  rw [execStart, State.bootReq_served hs hn rfl, if_neg (State.bootServes_heard_neg hb)]
  simp only [State.comp_heard, State.sec_heard]

theorem anyAbsent_iff (s : State) : (List.range 5).any (fun k => (s.comp (k + 1)).image.isNone) = true ↔
    ∃ k, 1 ≤ k ∧ k ≤ 5 ∧ (s.comp k).image = none := by
  simp only [List.any_eq_true, List.mem_range, Option.isNone_iff_eq_none]
  constructor
  · rintro ⟨k, hk, hnone⟩
    exact ⟨k + 1, by omega, by omega, hnone⟩
  · rintro ⟨k, h1, h5, hnone⟩
    exact ⟨k - 1, by omega, by rwa [Nat.sub_add_cancel h1]⟩

theorem exec_fwStatus (hs : s.serves h 0x10) (hn : h.length = 2) : exec (.fwStatus h) s = .next ((s.heard h).replied h .ok
    (leBytes 4 ((s.heard h).regValue .fwctl 0 Reg.fwctl_fwState).toNat ++
      (List.range 5).flatMap (fun k => leBytes 4 ((s.heard h).regValue .fwctl 0 (Reg.fwctl_fwComp + 4 * (k + 1))).toNat))) := by
  change execFwStatus h s = _
  rw [execFwStatus, State.bootReq_served hs hn rfl]
  rfl

end Boot

/-! ### The statements about images and START -/

section Statements
variable {s : State} {h : PbpHdr}

theorem imageBegin_announces (hs : s.serves h 0x10) (hb : s.bootServes = true) (hn : h.length = 7) (c n : Nat) :
    (4096 ≤ n → n ≤ 8 * mib → compOk c = true → ∃ t, exec (.imageBegin h c n) s = .next t ∧ t.fw.st = .loading ∧
      t.fw.loading = some { comp := c, size := n } ∧ Answered h 0 [] t) ∧
    (n < 4096 ∨ 8 * mib < n ∨ compOk c = false → ∃ t, exec (.imageBegin h c n) s = .next t ∧ t.fw = s.fw ∧
      Answered h 6 (leBytes 2 0x0501) t) := by
  constructor
  · intro hlo hhi hc
    refine ⟨_, exec_imageBegin_ok hs hb hn (by simp [hc]; omega), ?_, ?_, State.answered_replied _ h .ok _⟩
    · rw [State.fw_replied]; rfl
    · rw [State.fw_replied]; rfl
  · intro hbad
    refine ⟨_, exec_imageBegin_bad hs hb hn (by simpa using hbad), ?_, State.answered_replied _ h .refused _⟩
    rw [State.fw_replied, State.fw_heard]

theorem imageData_fills (hs : s.serves h 0x10) (hb : s.bootServes = true) {o : Nat} {d : List Byte} {l : Loading}
    (hn : h.length = 6 + d.length) (hd : 1 ≤ d.length ∧ d.length ≤ 8192) (hl : s.fw.loading = some l) :
    (o + d.length ≤ l.size → ∃ t, exec (.imageData h o d) s = .next t ∧ Answered h 0 [] t ∧
      t.fw.loading = some { l with data := l.data.setRun o d, got := (o, d.length) :: l.got }) ∧
    (l.size < o + d.length → ∃ t, exec (.imageData h o d) s = .next t ∧ Answered h 4 [] t ∧ t.fw = s.fw) := by
  rw [exec_imageData hs hb hn hd hl]
  constructor
  · intro hle
    refine ⟨_, by rw [if_neg (by omega)], State.answered_replied _ h .ok _, ?_⟩
    rw [State.fw_replied]; rfl
  · intro hlt
    refine ⟨_, by rw [if_pos hlt], State.answered_replied _ h .badMessage _, ?_⟩
    rw [State.fw_replied, State.fw_heard]

theorem imageEnd_verifies (hs : s.serves h 0x10) (hsh : s.Shape) (hb : s.bootServes = true) (hn : h.length = 3) {u : State}
    {l : Loading} (hl : s.fw.loading = some l) (hc : l.comp < 6)
    (hu : u = (s.heard h).setFw (fun w => { w with loading := none })) :
    (u.imageFault (l.comp, l.size) l.whole (l.data.getRun 0 l.size) = none → ∃ t im, exec (.imageEnd h l.comp) s = .next t ∧
      t.fw.loading = none ∧ (t.comp l.comp).image = some im ∧ im.bytes = l.data.getRun 0 l.size ∧ Answered h 0 [] t) ∧
    (∀ d, u.imageFault (l.comp, l.size) l.whole (l.data.getRun 0 l.size) = some d →
      ∃ t, exec (.imageEnd h l.comp) s = .next t ∧ t.fw.loading = none ∧ t.fw.comps = s.fw.comps ∧
        Answered h 6 (leBytes 2 d) t) := by
  have hcomps : s.fw.comps.length = 6 := by
    obtain ⟨-, -, -, -, -, -, -, -, hcomps⟩ := hsh
    exact hcomps
  have hfw : u.fw = { s.fw with loading := none } := by rw [hu, State.setFw_fw, State.fw_heard]
  rw [exec_imageEnd hs hb hn hl, ← hu, imageVerdict]
  constructor
  · intro hf
    obtain ⟨hnone, hload, him⟩ := State.verifyImage_of_good hf (by rw [hfw, hcomps]; exact hc)
    rw [hnone]
    refine ⟨_, sealedImage (l.data.getRun 0 l.size), rfl, ?_, ?_, rfl, State.answered_replied _ h .ok _⟩
    · rw [pbpReply_answer, State.fw_replied, hload, hfw]
    · rw [pbpReply_answer, State.comp_replied, him]
  · intro d hf
    obtain ⟨hsome, hfw'⟩ := State.fw_verifyImage_of_fault hf
    rw [hsome]
    refine ⟨_, rfl, ?_, ?_, State.answered_replied _ h .refused _⟩
    · rw [pbpReply_refused, State.fw_replied, hfw', hfw]
    · rw [pbpReply_refused, State.fw_replied, hfw', hfw]

theorem start_starts (hs : s.serves h 0x10) (hsh : s.Shape) (hb : s.bootServes = true) (hn : h.length = 2) :
    ((∀ k, 1 ≤ k → k ≤ 5 → (s.comp k).image.isSome = true) → s.sec.passport = .good → s.sec.identity = .good →
      ∃ t, exec (.start h) s = .next t ∧ t.fw.st = .starting ∧ (t.comp 1).st = .starting ∧ t.fw.loading = none ∧
        Answered h 0 [] t) ∧
    ((∃ k, 1 ≤ k ∧ k ≤ 5 ∧ (s.comp k).image = none) → ∃ t, exec (.start h) s = .next t ∧ t.fw = s.fw ∧
      Answered h 6 (leBytes 2 0x0001) t) := by
  rw [exec_start hs hb hn]
  constructor
  · intro hall hpass hid
    have hcomps : (s.heard h).fw.comps.length = 6 := by
      obtain ⟨-, -, -, -, -, -, -, -, hcomps⟩ := hsh
      rw [State.fw_heard, hcomps]
    have hset : ¬(List.range 5).any (fun k => (s.comp (k + 1)).image.isNone) = true := by
      rw [anyAbsent_iff]
      rintro ⟨k, h1, h5, hnone⟩
      simpa [hnone] using hall k h1 h5
    rw [if_neg hset, if_neg (by simp [hpass]), if_neg (by simp [hid]), pbpReply_answer]
    refine ⟨_, rfl, ?_, ?_, ?_, State.answered_replied _ h .ok _⟩
    · rw [State.fw_replied, State.fw_startSet]
    · rw [State.comp_replied, State.comp_startSet _ hcomps]
    · rw [State.fw_replied, State.fw_startSet]
  · intro habsent
    rw [if_pos ((anyAbsent_iff s).mpr habsent), pbpReply_refused]
    refine ⟨_, rfl, ?_, State.answered_replied _ h .refused _⟩
    rw [State.fw_replied, State.fw_heard]

theorem fwStatus_answers (hs : s.serves h 0x10) (hn : h.length = 2) : ∃ t, exec (.fwStatus h) s = .next t ∧ t.regs = s.regs ∧
    Answered h 0 (leBytes 4 ((s.heard h).regValue .fwctl 0 Reg.fwctl_fwState).toNat ++ (List.range 5).flatMap (fun k =>
      leBytes 4 ((s.heard h).regValue .fwctl 0 (Reg.fwctl_fwComp + 4 * (k + 1))).toNat)) t :=
  ⟨_, exec_fwStatus hs hn, by rw [State.regs_replied, State.regs_heard], State.answered_replied _ h .ok _⟩

end Statements

end Sys2Proof.Machine
end

section
/-! RESOURCE's requests (R222, R192, R193, R202, R237): mappings, regions, and the commands of the codebook and the tier. -/

namespace Sys2Proof.Machine

-- one theorem after the other: proofs that wait together take too many threads
set_option Elab.async false

/-! ### The page table of a box -/

section PageTable
variable {s u : State} {b va : Nat} {e : W64}

theorem State.boxes_unprotect (s : State) (page : Nat) : (s.unprotect page).boxes = s.boxes :=
  (State.unprotect_leads .refl (List.Subset.refl _)).frame.boxes (by decide)

/-- Setting an entry writes the box's page table alone, once a page it replaces is out of protection. -/
theorem State.setPte_eq (s : State) (b va : Nat) (e : W64) : ∃ u : State, u.boxes = s.boxes ∧
    s.setPte b va e = u.modBox b (fun x => { x with pt := cellSet 0 x.pt (va / pageSize) e }) := by
  rw [State.setPte]
  refine ⟨_, ?_, rfl⟩
  split
  · split
    · exact State.boxes_unprotect ..
    · rfl
  · rfl

theorem State.pt_setPte (hb : b < s.boxes.length) :
    ((s.setPte b va e).box b).pt = cellSet 0 (s.box b).pt (va / pageSize) e := by
  obtain ⟨u, hu, heq⟩ := s.setPte_eq b va e
  rw [heq, State.box_modBox, if_pos ⟨rfl, hu ▸ hb⟩, State.box_of_boxes hu]

/-- A page table that grows holds pages and keeps its entries. -/
theorem State.pt_growTable (hg : s.growTable b va = some u) :
    u.boxes.length = s.boxes.length ∧ (u.box b).pt = (s.box b).pt := by
  rw [State.growTable] at hg
  split at hg
  · cases hg
    exact ⟨rfl, rfl⟩
  · obtain ⟨v, hv, rfl⟩ := Option.map_eq_some_iff.mp hg
    have hboxes : v.boxes = s.boxes := (State.holdPages_leads .refl (List.Subset.refl _) _ hv).frame.boxes (by decide)
    refine ⟨(listModify_length ..).trans (congrArg _ hboxes), ?_⟩
    rw [State.box_modBox]
    split <;> rw [State.box_of_boxes hboxes]

theorem State.mapPage_good (hf : s.mapFault b va e = none) (hg : s.growTable b va = some u) :
    s.mapPage b va e = (u.setPte b va e).answer .ok := by
  simp only [State.mapPage, hf, hg]

theorem State.mapPage_bad {d : Nat} (hf : s.mapFault b va e = some d) : s.mapPage b va e = s.refused d := by
  simp only [State.mapPage, hf]

/-- An unmapped page's entry is 0, and its box's table is no longer held once it has no entry. -/
theorem State.unmapPage_good (hb : b < s.boxes.length) (ha : va % pageSize = 0) (hva : va < 2 ^ 48) :
    ∃ u : State, s.unmapPage b va = u.answer .ok ∧ (u.box b).pt = cellSet 0 (s.box b).pt (va / pageSize) 0 := by
  have hpt := State.pt_setPte (va := va) (e := 0) hb
  rw [State.unmapPage, if_neg (by omega)]
  dsimp only
  split
  · refine ⟨_, rfl, ?_⟩
    rw [State.box_modBox]
    split <;> exact hpt
  · exact ⟨_, rfl, hpt⟩

theorem State.pte?_of_cellGet (h : cellGet 0 (s.box b).pt (va / pageSize) = 0) : s.pte? b va = none := by
  rw [State.pte?, h]
  rfl

end PageTable

/-! ### Regions -/

section Regions
variable {s : State} {b n : Nat}

theorem State.boxes_publishRegions (s : State) (b : Nat) : (s.publishRegions b).boxes = s.boxes :=
  (State.publishRegions_leads .refl (List.Subset.refl _)).frame.boxes (by decide)

/-- The region of a record of REGION_ADD (R192). -/
def regionOf (n : Nat) : Region :=
  { base := bits n 255 208, env := bits n 207 160, size := bits n 159 144, slot := bits n 143 138
    alphabet := bits n 135 134, thresh := bits n 133 127 }

theorem State.addRegion_good (hf : s.regionFault b n = none) : s.addRegion b n =
    ((s.modBox b (fun x => { x with regions := x.regions ++ [regionOf n] })).publishRegions b).answer .ok
      (leBytes 4 (s.box b).regions.length) := by
  simp only [State.addRegion, hf]
  rfl

end Regions

/-! ### Commands of the codebook and the tier -/

section Commands
variable {s : State} {h : PbpHdr}

/-- The state once a CODEBOOK request's command has been written. -/
def State.codebookReqRun (s : State) (box : Nat) (word : W32) (addr len : Nat) : State :=
  (s.setArgs .codebook Reg.codebook_cbArgVaLo Reg.codebook_cbArgVaHi Reg.codebook_cbArgLen addr len).cbCmd 0
    (setBits word.toNat 21 16 box)

theorem State.outbox_codebookReqRun (s : State) (box : Nat) (word : W32) (addr len : Nat) :
    (s.codebookReqRun box word addr len).outbox = s.outbox :=
  (State.cbCmd_leads (ps := [.regs, .ctr, .cb]) (State.setArgs_leads .refl (by decide)) (by decide)).frame.outbox (by decide)

theorem State.codebookReq_free (hw : s.cb.waiting = none) (n : Nat) (word : W32) (addr len : Nat) :
    s.codebookReq h n word addr len = if (s.codebookReqRun h.box word addr len).cb.waiting.isSome then
      ((s.codebookReqRun h.box word addr len).setHost (fun x => { x with cbReply := some (n, h.seq) }), none)
    else (s.codebookReqRun h.box word addr len).answer .ok [BitVec.ofNat 8 (s.codebookReqRun h.box word addr len).cb.result,
      BitVec.ofNat 8 (s.codebookReqRun h.box word addr len).cb.gen] := by
  rw [State.codebookReq, hw, if_neg (by simp)]
  rfl

/-- The state once a TIER request's command has been written. -/
def State.tierReqRun (s : State) (box : Nat) (word : W32) (addr len : Nat) : State :=
  (s.setArgs .tier Reg.tier_tierArgVaLo Reg.tier_tierArgVaHi Reg.tier_tierArgLen addr len).tierWrite
    (setBits word.toNat 27 22 box)

theorem State.outbox_tierReqRun (s : State) (box : Nat) (word : W32) (addr len : Nat) :
    (s.tierReqRun box word addr len).outbox = s.outbox :=
  (State.tierWrite_leads (ps := [.regs, .ctr, .tier]) (State.setArgs_leads .refl (by decide)) (by decide)).frame.outbox
    (by decide)

theorem State.tierReq_free (hw : s.tier.cmd = none) (n : Nat) (word : W32) (addr len : Nat) :
    s.tierReq h n word addr len = if (s.tierReqRun h.box word addr len).tier.cmd.isSome then
      ((s.tierReqRun h.box word addr len).setHost (fun x => { x with tierReply := some (n, h.seq) }), none)
    else (s.tierReqRun h.box word addr len).answer .ok [BitVec.ofNat 8 (s.tierReqRun h.box word addr len).tier.result] := by
  rw [State.tierReq, hw, if_neg (by simp)]
  rfl

end Commands

/-! ### The requests, for the session that may make them -/

section Resource
variable {s : State} {h : PbpHdr} (hs : s.servesHere h 0x10) (hc : (s.comp 5).st = .running)
  (hmay : s.mayUse h.box h.session = true)
include hs hc hmay

theorem exec_map (hn : h.length = 18) (va : Nat) (e : W64) :
    exec (.map h va e) s = .next (pbpReply h ((s.heard h).mapPage h.box va e)) := by
  change execMap h va e s = _
  rw [execMap, State.resource_served (q := { len := some 18 }) hs rfl rfl (fun _ e => hn.trans (Option.some.inj e)) hc hmay]

theorem exec_unmap (hn : h.length = 10) (va : Nat) :
    exec (.unmap h va) s = .next (pbpReply h ((s.heard h).unmapPage h.box va)) := by
  change execUnmap h va s = _
  rw [execUnmap, State.resource_served (q := { len := some 10 }) hs rfl rfl (fun _ e => hn.trans (Option.some.inj e)) hc hmay]

theorem exec_regionAdd (hn : h.length = 34) {r : List Byte} (hr : r.length = 32) :
    exec (.regionAdd h r) s = .next (pbpReply h ((s.heard h).addRegion h.box (leNat r))) := by
  change execRegionAdd h r s = _
  rw [execRegionAdd, State.resource_served (q := { len := some 34, valid := r.length == 32 }) hs rfl (beq_iff_eq.mpr hr)
    (fun _ e => hn.trans (Option.some.inj e)) hc hmay]

theorem exec_regionSet {sl : Nat} (hsl : sl < 64) (n th : Nat) :
    exec (.regionSet h n sl th) s = .next (pbpReply h ((s.heard h).setRegion h.box n sl th)) := by
  change execRegionSet h n sl th s = _
  rw [execRegionSet, State.resource_served (q := { valid := decide (sl < 64) }) hs rfl (decide_eq_true hsl)
    (fun _ e => nomatch e) hc hmay]

theorem exec_codebook (w : W32) (a n : Nat) :
    exec (.codebook h w a n) s = .next (pbpReply h ((s.heard h).codebookReq h h.session w a n)) := by
  change execCodebook h w a n s = _
  rw [execCodebook, State.resource_served (q := {}) hs rfl rfl (fun _ e => nomatch e) hc hmay]

theorem exec_tier (w : W32) (a n : Nat) :
    exec (.tier h w a n) s = .next (pbpReply h ((s.heard h).tierReq h h.session w a n)) := by
  change execTier h w a n s = _
  rw [execTier, State.resource_served (q := {}) hs rfl rfl (fun _ e => nomatch e) hc hmay]

/-! ### The statements about mappings, regions and commands -/

theorem map_sets (hb : h.box < s.boxes.length) (hn : h.length = 18) {va : Nat} {e : W64}
    (hf : (s.heard h).mapFault h.box va e = none) (hg : ((s.heard h).growTable h.box va).isSome = true) :
    ∃ t, exec (.map h va e) s = .next t ∧ Answered h 0 [] t ∧ cellGet 0 (t.box h.box).pt (va / pageSize) = e ∧
      ∀ k, k ≠ va / pageSize → cellGet 0 (t.box h.box).pt k = cellGet 0 (s.box h.box).pt k := by
  obtain ⟨u, hu⟩ := Option.isSome_iff_exists.mp hg
  obtain ⟨hlen, hpt⟩ := State.pt_growTable hu
  have hpt' : ((u.setPte h.box va e).box h.box).pt = cellSet 0 (s.box h.box).pt (va / pageSize) e := by
    rw [State.pt_setPte (by rwa [hlen, State.boxes_heard]), hpt, State.box_heard]
  rw [exec_map hs hc hmay hn, State.mapPage_good hf hu, pbpReply_answer]
  refine ⟨_, rfl, State.answered_replied _ h .ok _, ?_, fun k hk => ?_⟩
  · rw [State.box_replied, hpt', cellGet_cellSet_same]
  · rw [State.box_replied, hpt', cellGet_cellSet_ne _ _ _ _ hk]

theorem map_refuses (hn : h.length = 18) {va d : Nat} {e : W64} (hf : (s.heard h).mapFault h.box va e = some d) :
    ∃ t, exec (.map h va e) s = .next t ∧ Answered h 6 (leBytes 2 d) t ∧ t.boxes = s.boxes := by
  rw [exec_map hs hc hmay hn, State.mapPage_bad hf, pbpReply_refused]
  exact ⟨_, rfl, State.answered_replied _ h .refused _, by rw [State.boxes_replied, State.boxes_heard]⟩

theorem unmap_clears (hb : h.box < s.boxes.length) (hn : h.length = 10) {va : Nat} (ha : va % pageSize = 0)
    (hva : va < 2 ^ 48) :
    ∃ t, exec (.unmap h va) s = .next t ∧ Answered h 0 [] t ∧ t.pte? h.box va = none ∧
      ∀ k, k ≠ va / pageSize → cellGet 0 (t.box h.box).pt k = cellGet 0 (s.box h.box).pt k := by
  obtain ⟨u, hu, hpt⟩ := State.unmapPage_good (s := s.heard h) (by rwa [State.boxes_heard]) ha hva
  rw [State.box_heard] at hpt
  rw [exec_unmap hs hc hmay hn, hu, pbpReply_answer]
  refine ⟨_, rfl, State.answered_replied _ h .ok _, State.pte?_of_cellGet ?_, fun k hk => ?_⟩
  · rw [State.box_replied, hpt, cellGet_cellSet_same]
  · rw [State.box_replied, hpt, cellGet_cellSet_ne _ _ _ _ hk]

theorem regionAdd_adds (hb : h.box < s.boxes.length) (hn : h.length = 34) {r : List Byte} (hr : r.length = 32)
    (hf : (s.heard h).regionFault h.box (leNat r) = none) :
    ∃ t g, exec (.regionAdd h r) s = .next t ∧ (t.box h.box).regions = (s.box h.box).regions ++ [g] ∧
      g.base = bits (leNat r) 255 208 ∧ g.env = bits (leNat r) 207 160 ∧ g.size = bits (leNat r) 159 144 ∧
      Answered h 0 (leBytes 4 (s.box h.box).regions.length) t := by
  rw [exec_regionAdd hs hc hmay hn hr, State.addRegion_good hf, pbpReply_answer, State.box_heard]
  refine ⟨_, regionOf (leNat r), rfl, ?_, rfl, rfl, rfl, State.answered_replied _ h .ok _⟩
  rw [State.box_replied, State.box_of_boxes (State.boxes_publishRegions ..), State.box_modBox,
    if_pos ⟨rfl, by rwa [State.boxes_heard]⟩, State.box_heard]

theorem regionSet_sets (hb : h.box < s.boxes.length) {n sl th : Nat} (hsl : sl < 64) (hn : n < (s.box h.box).regions.length)
    (hth : th ≤ 64) :
    ∃ t, exec (.regionSet h n sl th) s = .next t ∧
      (t.box h.box).regions = listModify (fun r => { r with slot := sl, thresh := th }) (s.box h.box).regions n ∧
      Answered h 0 [] t := by
  rw [exec_regionSet hs hc hmay hsl, State.setRegion, State.box_heard, if_neg (by omega), pbpReply_answer]
  refine ⟨_, rfl, ?_, State.answered_replied _ h .ok _⟩
  rw [State.box_replied, State.box_modBox, if_pos ⟨rfl, by rwa [State.boxes_heard]⟩, State.box_heard]

theorem codebook_answers (w : W32) (a n : Nat) (hw : s.cb.waiting = none) : ∃ t, exec (.codebook h w a n) s = .next t ∧
    ((t.cb.waiting.isSome = true ∧ t.host.cbReply = some (h.session, h.seq) ∧ t.outbox = s.outbox) ∨
      (t.cb.waiting = none ∧ Answered h 0 [BitVec.ofNat 8 t.cb.result, BitVec.ofNat 8 t.cb.gen] t)) := by
  have hout := (s.heard h).outbox_codebookReqRun h.box w a n
  rw [State.outbox_heard] at hout
  rw [exec_codebook hs hc hmay, State.codebookReq_free (by rwa [State.cb_heard])]
  generalize (s.heard h).codebookReqRun h.box w a n = u at hout
  split
  · rename_i hwait
    exact ⟨_, rfl, .inl ⟨hwait, rfl, hout⟩⟩
  · rename_i hwait
    refine ⟨_, rfl, .inr ?_⟩
    rw [pbpReply_answer, State.cb_replied]
    exact ⟨by simpa using hwait, State.answered_replied _ h .ok _⟩

theorem tier_answers (w : W32) (a n : Nat) (hw : s.tier.cmd = none) : ∃ t, exec (.tier h w a n) s = .next t ∧
    ((t.tier.cmd.isSome = true ∧ t.host.tierReply = some (h.session, h.seq) ∧ t.outbox = s.outbox) ∨
      (t.tier.cmd = none ∧ Answered h 0 [BitVec.ofNat 8 t.tier.result] t)) := by
  have hout := (s.heard h).outbox_tierReqRun h.box w a n
  rw [State.outbox_heard] at hout
  rw [exec_tier hs hc hmay, State.tierReq_free (by rwa [State.tier_heard])]
  generalize (s.heard h).tierReqRun h.box w a n = u at hout
  split
  · rename_i hwait
    exact ⟨_, rfl, .inl ⟨hwait, rfl, hout⟩⟩
  · rename_i hwait
    refine ⟨_, rfl, .inr ?_⟩
    rw [pbpReply_answer, State.tier_replied]
    exact ⟨by simpa using hwait, State.answered_replied _ h .ok _⟩

end Resource

end Sys2Proof.Machine
end

section
/-! Keys and attestation (R355 to R357): the number that a key's bytes make, KEY_INSTALL and ATTEST. -/

namespace Sys2Proof.Machine

-- one theorem after the other: proofs that wait together take too many threads
set_option Elab.async false

/-! ### Numbers that bytes make (R5) -/

section Numbers

theorem leNat_eq_ofDigits (l : List Byte) : leNat l = Nat.ofDigits 256 (l.map BitVec.toNat) := by
  induction l with
  | nil => rfl
  | cons b l ih => rw [leNat, ih, List.map_cons, Nat.ofDigits_cons]

theorem leNat_append {l : List Byte} {n : Nat} (hn : 8 * l.length = n) (m : List Byte) :
    leNat (l ++ m) = leNat l + 2 ^ n * leNat m := by
  rw [← hn, pow_mul]
  simp only [leNat_eq_ofDigits, List.map_append, Nat.ofDigits_append, List.length_map, Nat.reducePow]

theorem toNat_lt_of_mem_bytes {l : List Byte} : ∀ n ∈ l.map BitVec.toNat, n < 256 := by
  intro n hn
  obtain ⟨b, -, rfl⟩ := List.mem_map.mp hn
  exact b.isLt

theorem leNat_lt {l : List Byte} {n : Nat} (hn : 8 * l.length = n) : leNat l < 2 ^ n := by
  rw [← hn, pow_mul, leNat_eq_ofDigits, ← List.length_map (f := BitVec.toNat)]
  exact Nat.ofDigits_lt_base_pow_length (by decide) toNat_lt_of_mem_bytes

theorem toNat_ofNat_leNat {l : List Byte} {n : Nat} (hn : 8 * l.length = n) : (BitVec.ofNat n (leNat l)).toNat = leNat l := by
  rw [BitVec.toNat_ofNat]
  exact Nat.mod_eq_of_lt (leNat_lt hn)

theorem leNat_inj {l m : List Byte} (hlen : l.length = m.length) : leNat l = leNat m ↔ l = m := by
  refine ⟨fun h => ?_, fun h => h ▸ rfl⟩
  rw [leNat_eq_ofDigits, leNat_eq_ofDigits] at h
  have hmap := Nat.ofDigits_inj_of_len_eq (by decide) (by simpa using hlen) toNat_lt_of_mem_bytes toNat_lt_of_mem_bytes h
  exact List.map_injective_iff.mpr (fun a b hab => BitVec.eq_of_toNat_eq hab) hmap

/-- The words of a byte string, put together again, make its number. -/
theorem foldr_words (n : Nat) (l : List Byte) (hl : l.length = 4 * n) :
    ((List.range n).map (fun k => BitVec.ofNat 32 (wordOf l k))).foldr (fun w acc => w.toNat + 2 ^ 32 * acc) 0 = leNat l := by
  induction n generalizing l with
  | zero => rw [List.length_eq_zero_iff.mp hl]; rfl
  | succ n ih =>
    have hword : ∀ k, wordOf l (k + 1) = wordOf (l.drop 4) k := fun k => by
      rw [wordOf, wordOf, List.drop_drop, Nat.mul_succ, Nat.add_comm]
    have htake : (l.take 4).length = 4 := by rw [List.length_take]; omega
    have hlow : leNat (l.take 4) < 2 ^ 32 := leNat_lt (by rw [htake])
    have hsplit : leNat l = leNat (l.take 4) + 2 ^ 32 * leNat (l.drop 4) := by
      conv_lhs => rw [← List.take_append_drop 4 l, leNat_append (n := 32) (by rw [htake])]
    rw [List.range_succ_eq_map, List.map_cons, List.foldr_cons, List.map_map, hsplit, ← ih (l.drop 4) (by simp; omega)]
    simp only [Function.comp_def, Nat.succ_eq_add_one, hword]
    rw [wordOf, BitVec.toNat_ofNat, Nat.mul_zero, List.drop_zero, Nat.mod_eq_of_lt hlow]

end Numbers

/-! ### KEY_INSTALL (R357) -/

section Keys
variable {s : State} {b : Nat} {key : List Byte}

/-- KEY_DATA with the words of a key written. -/
def Security.withKey (c : Security) (key : List Byte) : Security :=
  { c with keyData := (List.range 16).map (fun n => BitVec.ofNat 32 (wordOf key n)) }

theorem Security.toNat_keyWord (c : Security) (hk : key.length = 64) : ((c.withKey key).keyWord).toNat = leNat key := by
  rw [Security.keyWord, Security.withKey, foldr_words 16 key hk, toNat_ofNat_leNat (by rw [hk])]

/-- The halves of the key that the unit compares are the halves of the bytes sent. -/
theorem Security.keyWord_halves_ne (c : Security) (hk : key.length = 64) (hne : key.take 32 ≠ key.drop 32) :
    ¬((c.withKey key).keyWord.toNat % 2 ^ 256 = (c.withKey key).keyWord.toNat / 2 ^ 256) := by
  have htake : (key.take 32).length = 32 := by rw [List.length_take]; omega
  have hdrop : (key.drop 32).length = 32 := by rw [List.length_drop]; omega
  have hlow : leNat (key.take 32) < 2 ^ 256 := leNat_lt (by rw [htake])
  have hsplit : leNat key = leNat (key.take 32) + 2 ^ 256 * leNat (key.drop 32) := by
    conv_lhs => rw [← List.take_append_drop 32 key, leNat_append (n := 256) (by rw [htake])]
  rw [Security.toNat_keyWord c hk, hsplit, Nat.add_mul_mod_self_left, Nat.mod_eq_of_lt hlow,
    Nat.add_mul_div_left _ _ (by decide), Nat.div_eq_of_lt hlow, Nat.zero_add]
  exact fun heq => hne ((leNat_inj (htake.trans hdrop.symm)).mp heq)

theorem State.key_setKey (hb : b < s.boxes.length) (k : BitVec 512) : ((s.setKey b k).box b).key = some k := by
  rw [State.setKey]
  dsimp only
  split <;> rw [State.box_modBox, if_pos ⟨rfl, hb⟩]

theorem State.keyInstall_good (hb : b < s.boxes.length) (hfree : (s.box b).key = none) {k : BitVec 512}
    (hk : s.sec.keyWord = k) (hne : ¬(k.toNat % 2 ^ 256 = k.toNat / 2 ^ 256)) : ((s.keyInstall b).box b).key = some k := by
  rw [State.keyInstall, hk]
  dsimp only
  rw [if_neg hne, if_neg (by simp [hfree]), State.box_of_boxes (State.setSec_boxes ..),
    State.box_of_boxes (State.bump_boxes ..), State.key_setKey hb]

theorem State.installKey_good (hb : b < s.boxes.length) (hk : key.length = 64) (hfree : (s.box b).key = none)
    (hst : (s.box b).state = .disabled ∨ (s.box b).state = .active) (hne : key.take 32 ≠ key.drop 32) :
    ∃ u : State, s.installKey b key = u.answer .ok ∧ (u.box b).key.isSome = true := by
  have hst' : ¬((s.box b).state = .draining ∨ (s.box b).state = .quiescing ∨ (s.box b).state = .releasing) := by
    rcases hst with h | h <;> simp [h]
  have hhalves := Security.keyWord_halves_ne s.sec hk hne
  refine ⟨(s.setSec (·.withKey key)).keyInstall b, ?_, ?_⟩
  · rw [State.installKey]
    dsimp only
    rw [if_neg hne, if_neg (by simp [hfree]), if_neg hst']
    rfl
  · rw [State.keyInstall_good (s := s.setSec (·.withKey key)) hb hfree (congrArg Security.keyWord (State.setSec_sec ..))
      hhalves]
    rfl

theorem State.installKey_bad (heq : key.take 32 = key.drop 32) : s.installKey b key = s.refused 0x0201 := if_pos heq

end Keys

section Requests
variable {s : State} {h : PbpHdr} (hs : s.servesHere h 0x10) (hc : (s.comp 5).st = .running)
include hs hc

theorem exec_keyInstall (hmay : s.mayUse h.box h.session = true) (hn : h.length = 66) {key : List Byte}
    (hk : key.length = 64) : exec (.keyInstall h key) s = .next (pbpReply h ((s.heard h).installKey h.box key)) := by
  change execKeyInstall h key s = _
  rw [execKeyInstall, State.resource_served (q := { len := some 66, valid := key.length == 64 }) hs rfl (beq_iff_eq.mpr hk)
    (fun _ e => hn.trans (Option.some.inj e)) hc hmay]

theorem keyInstall_installs (hmay : s.mayUse h.box h.session = true) (hb : h.box < s.boxes.length) (hn : h.length = 66)
    {key : List Byte} (hk : key.length = 64) (hfree : (s.box h.box).key = none)
    (hst : (s.box h.box).state = .disabled ∨ (s.box h.box).state = .active) :
    (key.take 32 ≠ key.drop 32 → ∃ t, exec (.keyInstall h key) s = .next t ∧ (t.box h.box).key.isSome = true ∧
      Answered h 0 [] t) ∧
    (key.take 32 = key.drop 32 → ∃ t, exec (.keyInstall h key) s = .next t ∧ t.boxes = s.boxes ∧
      Answered h 6 (leBytes 2 0x0201) t) := by
  rw [exec_keyInstall hs hc hmay hn hk]
  constructor
  · intro hne
    obtain ⟨u, hu, hkey⟩ := State.installKey_good (s := s.heard h) (by rwa [State.boxes_heard]) hk
      (by rwa [State.box_heard]) (by rwa [State.box_heard]) hne
    rw [hu, pbpReply_answer]
    exact ⟨_, rfl, by rw [State.box_replied, hkey], State.answered_replied _ h .ok _⟩
  · intro heq
    rw [State.installKey_bad heq, pbpReply_refused]
    exact ⟨_, rfl, by rw [State.boxes_replied, State.boxes_heard], State.answered_replied _ h .refused _⟩

/-! ### ATTEST (R355, R356) -/

theorem exec_attest (hn : h.length = 34) {n : List Byte} (hlen : n.length = 32) :
    exec (.attest h n) s = .next (pbpReply h ((s.heard h).attest n)) := by
  obtain ⟨hserves, hrunning, hpos⟩ := hs
  have hc' : ¬((s.heard h).comp 5).st ≠ .running := by rw [State.comp_heard, hc]; exact fun hne => hne rfl
  change execAttest h n s = _
  rw [execAttest, State.pbp_served (q := { len := some 34, valid := n.length == 32, relay := true }) hserves
    (beq_iff_eq.mpr hlen) (fun _ e => hn.trans (Option.some.inj e)) (.inl hrunning),
    State.atTarget_here (hpos.trans (s.pos_heard h).symm), if_neg hc']

theorem attest_answers (hn : h.length = 34) {n : List Byte} (hlen : n.length = 32) :
    ((∀ x ∈ n, x = 0) → ∃ t, exec (.attest h n) s = .next t ∧ Answered h 0 certResponse t) ∧
    ((∃ x ∈ n, x ≠ 0) → ∃ t, exec (.attest h n) s = .next t ∧ t.live .sec 0 2 = s.counted .sec 0 2 1 ∧
      Answered h 0 ((s.heard h).quoteBody n ++ Config.identitySig (Config.sha3 ((s.heard h).quoteBody n))) t) := by
  rw [exec_attest hs hc hn hlen, State.attest]
  constructor
  · intro hzero
    rw [if_pos (by simpa using hzero), pbpReply_answer]
    exact ⟨_, rfl, State.answered_replied _ h .ok _⟩
  · intro hnonzero
    have hheard : (s.heard h).live .sec 0 2 = s.live .sec 0 2 := (s.otherCounters_heard h).live (by decide)
    have hfrozen : (s.heard h).frozen .sec 0 = s.frozen .sec 0 := State.frozen_of_regs (s.regs_heard h) ..
    rw [if_neg (by simpa using hnonzero), pbpReply_answer]
    refine ⟨_, rfl, ?_, State.answered_replied _ h .ok _⟩
    calc _ = ((s.heard h).bump .sec 0 2 1).live .sec 0 2 := (State.otherCounters_replied _ h .ok _).live (by decide)
      _ = (s.heard h).counted .sec 0 2 1 := State.live_bump ..
      _ = s.counted .sec 0 2 1 := State.counted_eq hfrozen hheard 1

end Requests

/-! ### The statement -/

/-- Settles O42: each request that its session may make is performed once on the state in which it was heard, and answered
with what the boot ROM or RESOURCE made of it; what a response itself changes is the protocol's. -/
theorem imagesAndResourcesAreServed : Obligations.ImagesAndResourcesAreServed := by
  refine ⟨fun s h c n hs hb hn => imageBegin_announces hs hb hn c n,
    fun s h o d l hs hb hn h1 h2 hl => imageData_fills hs hb hn ⟨h1, h2⟩ hl,
    fun s u h l hs hsh hb hn hl hc hu => imageEnd_verifies hs hsh hb hn hl hc hu,
    fun s h hs hsh hb hn => start_starts hs hsh hb hn,
    fun s h hs hsh hbox hc hmay => ?_, fun s h hs hn => fwStatus_answers hs hn⟩
  have hb : h.box < s.boxes.length := by
    obtain ⟨-, -, hboxes, -⟩ := hsh
    rwa [hboxes]
  exact ⟨fun va e hn => map_sets hs hc hmay hb hn, fun va e d hn => map_refuses hs hc hmay hn,
    fun va hn => unmap_clears hs hc hmay hb hn, fun r hn => regionAdd_adds hs hc hmay hb hn,
    fun n sl th hsl => regionSet_sets hs hc hmay hb hsl, fun w a n => codebook_answers hs hc hmay w a n,
    fun w a n => tier_answers hs hc hmay w a n, fun key hn => keyInstall_installs hs hc hmay hb hn,
    fun n hn => attest_answers hs hc hn⟩

end Sys2Proof.Machine
end

section
/-! Rounds, collections and quiet windows (R251, R254 to R256): what a boundary leaves of the time unit, what is held no
more once a collection has come, and the core that a quiet window holds back. -/

namespace Sys2Proof.Machine

-- one theorem after the other: proofs that wait together take too many threads
set_option Elab.async false

/-! ### The time unit at a round boundary (R254 to R256) -/

section Boundary
variable (s : State)

/-- The collections written take effect, and nothing else of the time unit changes (R254, R255). -/
theorem State.loadCollections_time : ∃ l, s.loadCollections.time =
    { s.time with collections := l, collWritten := [] } := by
  unfold State.loadCollections
  generalize hu : (List.range 16).foldl _ s = u
  have h : ∃ l, u.time = { s.time with collections := l } := by
    rw [← hu]
    refine List.foldlRecOn (motive := fun v : State => ∃ l, v.time = { s.time with collections := l }) _ _
      ⟨_, rfl⟩ (fun v ⟨l, hv⟩ n _ => ?_)
    dsimp only
    split
    · refine ⟨v.time.collections.set n (v.declaredCollection n), ?_⟩
      simp only [State.when]
      split <;> simp [State.setTime, hv]
    · exact ⟨l, hv⟩
  obtain ⟨l, hl⟩ := h
  exact ⟨l, by simp [State.setTime, hl]⟩

/-- The windows written take effect, and nothing else of the time unit changes (R256). -/
theorem State.loadWindows_time : ∃ l, s.loadWindows.time = { s.time with quiet := l, quietWritten := false } := by
  unfold State.loadWindows
  split
  · rename_i h
    have hw : s.time.quietWritten = false := by simpa using h
    exact ⟨s.time.quiet, by rw [← hw]⟩
  · refine List.foldlRecOn (motive := fun v : State => ∃ l, v.time = { s.time with quiet := l, quietWritten := false })
      _ _ ⟨_, rfl⟩ (fun v ⟨l, hv⟩ n _ => ?_)
    split
    · exact ⟨_, by simp [State.setTime, hv]; rfl⟩
    · split
      · exact ⟨_, by simp [State.setTime, hv]; rfl⟩
      · exact ⟨_, by simp [State.setTime, hv]; rfl⟩

/-- The time unit once a boundary has begun round `r` and loaded the declarations `cs` and `qs`. -/
def TimeUnit.begun (u : TimeUnit) (r : Nat) (cs : List (Option Nat)) (qs : List (Option (Nat × Nat))) : TimeUnit :=
  { u with
    rounds := true, round := r, window := none, collections := cs, collWritten := [], quiet := qs, quietWritten := false }

/-- The ending round is counted (R254, R338). -/
def State.countRound (s : State) : State :=
  let s := s.updateSat.bump .time 0 0 1
  let s := s.when (decide (s.time.st = .holdover)) (s.bump .time 0 1 1)
  s.when (decide (s.time.st = .freerun)) (s.bump .time 0 2 1)

/-- The counters latch, and the round that they tell of is kept with them (R254, R397). -/
def State.latchEnding (s : State) : State :=
  let t := s.latchCounters
  { t with ctr := { t.ctr with latchRound := if !s.time.rounds then none else some s.time.round } }

/-- Round `r` begins, with its own counts (R254). -/
def State.beginRound (s : State) (r : Nat) : State :=
  ((s.setTime (fun u => { u with rounds := true, round := r, window := none })).changed .time 0).restartRound

def State.setQueue (s : State) (q : List Record) : State := { s with log := { s.log with queue := q } }

/-- The boundary's record goes in front of those that wait (R389). -/
def State.queueFirst (s : State) (x : Record) : State :=
  let s := s.setQueue (x :: s.log.queue)
  s.when s.log.accepting ((s.setQueue (s.log.queue.drop 1)).takeRecord x)

/-- A boundary is these steps one after the other; then gang mode may end. -/
theorem State.boundary_cases (r : Nat) (skipped : Option (Nat × Nat)) : ∃ u x,
    u = s.countRound.latchEnding.beginRound r ∧ (s.boundary r skipped =
      (u.queueFirst x).mirrorAtBoundary.powerBoundary.revoke.loadCollections.loadWindows ∨ s.boundary r skipped =
      (u.queueFirst x).mirrorAtBoundary.powerBoundary.revoke.loadCollections.loadWindows.endGang) := by
  generalize hv : s.boundary r skipped = v
  unfold State.boundary at hv
  extract_lets _ _ _ c _ _ _ l _ _ _ _ u _ x at hv
  subst hv
  have hcount : s.countRound = c := rfl
  have hlatch : c.latchCounters = l := rfl
  clear_value l c
  refine ⟨u, x, ?_, (ite_eq_or_eq _ _ _).symm⟩
  rw [hcount, State.latchEnding, hlatch]
  rfl

theorem State.frame_countRound : Frame [.regs, .ctr, .fw] s s.countRound := by
  have hcount : ∀ {u : State} (c : Bool) (n : Nat), Leads [.regs, .ctr, .fw] s u →
      Leads [.regs, .ctr, .fw] s (u.when c (u.bump .time 0 n 1)) := fun c n hu =>
    hu.when (State.bump_leads hu (by decide))
  have hmarked : Leads [.regs, .ctr, .fw] s (s.updateSat.bump .time 0 0 1) :=
    State.bump_leads (State.updateSat_leads .refl (List.Subset.refl _)) (by decide)
  exact (hcount _ 2 (hcount _ 1 hmarked)).frame

theorem State.frame_latchEnding : Frame [.regs, .ctr] s s.latchEnding :=
  (Leads.ctr (State.latchCounters_leads .refl (List.Subset.refl _)) (by decide)).frame

theorem State.beginRound_time (r : Nat) : (s.beginRound r).time =
    { s.time with rounds := true, round := r, window := none } := rfl

/-- The record queued, the mirror written and the grants seen to (R389, R393, R405): nothing of the time unit. -/
theorem State.frame_recordBoundary (x : Record) :
    Frame [.ctr, .cores, .log, .pwr] s (s.queueFirst x).mirrorAtBoundary.powerBoundary.revoke := by
  have hset : ∀ {u : State} (q : List Record), Leads [.ctr, .cores, .log, .pwr] s u →
      Leads [.ctr, .cores, .log, .pwr] s (u.setQueue q) := fun q hu => Leads.log hu (by decide)
  have hqueued : Leads [.ctr, .cores, .log, .pwr] s (s.queueFirst x) :=
    Leads.when (hset _ .refl) (State.takeRecord_leads (hset _ (hset _ .refl)) (by decide))
  exact (State.revoke_leads (State.powerBoundary_leads (State.mirrorAtBoundary_leads hqueued (by decide)) (by decide))
    (by decide)).frame

/-- A boundary begins round `r` and loads what was written; the time and the state of the unit stand (R254). -/
theorem State.boundary_time (r : Nat) (skipped : Option (Nat × Nat)) :
    ∃ cs qs, (s.boundary r skipped).time = s.time.begun r cs qs := by
  obtain ⟨u, x, hu, hx⟩ := s.boundary_cases r skipped
  have hbegun : u.time = { s.time with rounds := true, round := r, window := none } := by
    rw [hu, State.beginRound_time, State.frame_latchEnding _ |>.time (by decide), s.frame_countRound.time (by decide)]
  obtain ⟨cs, hcs⟩ := (u.queueFirst x).mirrorAtBoundary.powerBoundary.revoke.loadCollections_time
  obtain ⟨qs, hqs⟩ := (u.queueFirst x).mirrorAtBoundary.powerBoundary.revoke.loadCollections.loadWindows_time
  rw [hcs, (u.frame_recordBoundary x).time (by decide), hbegun] at hqs
  refine ⟨cs, qs, ?_⟩
  rcases hx with h | h
  · rw [h]
    exact hqs
  · rw [h, (State.endGang_leads .refl (List.Subset.refl _)).frame.time (by decide)]
    exact hqs

theorem exec_roundBoundary (h : s.time.rounds = true) : ∃ t, exec .roundBoundary s = .next t ∧ t.time.rounds = true ∧
    t.time.round = s.time.round + 1 ∧ t.time.t = s.roundEpoch + (s.time.round + 1) * s.roundLen ∧
    t.time.window = none ∧ t.time.st = s.time.st ∧ t.time.collWritten = [] ∧ t.time.quietWritten = false := by
  refine ⟨(s.setTime (fun u => { u with t := s.roundEpoch + (s.time.round + 1) * s.roundLen })).boundary
    (s.time.round + 1) none, ?_, ?_⟩
  · show execRoundBoundary s = _
    simp [execRoundBoundary, h]
  · obtain ⟨cs, qs, ht⟩ := State.boundary_time _ _ none
    rw [ht]
    exact ⟨rfl, rfl, rfl, rfl, rfl, rfl, rfl⟩

/-- The number of the first round boundary at or after the present time, counted from the epoch (R251). -/
def State.firstRound (s : State) : Nat :=
  if s.time.t ≤ s.roundEpoch then 0 else cdiv (s.time.t - s.roundEpoch) s.roundLen

theorem State.roundLen_pos : 0 < s.roundLen := by
  unfold State.roundLen
  omega

theorem le_cdiv_mul {a b : Nat} (hb : 0 < b) : a ≤ cdiv a b * b := by
  have hdiv := Nat.div_add_mod (a + b - 1) b
  have hmod := Nat.mod_lt (a + b - 1) hb
  rw [cdiv, Nat.mul_comm]
  omega

theorem State.le_firstRound : s.time.t ≤ s.roundEpoch + s.firstRound * s.roundLen := by
  unfold State.firstRound
  split
  · omega
  · have := le_cdiv_mul (a := s.time.t - s.roundEpoch) s.roundLen_pos
    omega

theorem exec_firstRoundBoundary (h : s.time.rounds = false) (hst : s.time.st ≠ .unsync) :
    ∃ t, exec .firstRoundBoundary s = .next t ∧ t.time.rounds = true ∧ s.time.t ≤ t.time.t ∧
      t.time.t = s.roundEpoch + t.time.round * s.roundLen ∧ (s.time.t ≤ s.roundEpoch → t.time.round = 0) := by
  refine ⟨(s.setTime (fun u => { u with t := s.roundEpoch + s.firstRound * s.roundLen })).boundary s.firstRound none,
    ?_, ?_⟩
  · show execFirstRoundBoundary s = _
    simp [execFirstRoundBoundary, h, hst, State.firstRound]
  · obtain ⟨cs, qs, ht⟩ := State.boundary_time _ _ none
    rw [ht]
    exact ⟨rfl, s.le_firstRound, rfl, fun hle => if_pos hle⟩

end Boundary

/-! ### Completions held (R142, R255) -/

/-- Entries posted one after the other, each item changed by `f` first: what is held afterwards was held before and is
none of them. -/
theorem State.held_of_posted {f : Item → Item} (hheld : ∀ i, (f i).heldCollection = false)
    {s : State} (l : List Nat) {j : Item}
    (hj : j ∈ (l.foldl (fun u id => (u.modItem id f).postItem id) s).items) (h : j.heldCollection = true) :
    j ∈ s.items ∧ j.id ∉ l := by
  induction l generalizing s with
  | nil => exact ⟨hj, List.not_mem_nil⟩
  | cons id l ih =>
    obtain ⟨hmem, hl⟩ := ih hj
    rw [State.postItem_items] at hmem
    obtain ⟨i, hi, rfl⟩ := List.mem_map.mp hmem
    split at h
    · rw [hheld] at h; cases h
    · rename_i hne
      rw [if_neg hne] at hl ⊢
      exact ⟨hi, by simp [hne, hl]⟩

section Collection
variable (s : State)

/-- The entries of a box's completion ring written, and a notice sent: what a collection does once for each box (R255). -/
def State.writeAndNotify (s : State) (b : Nat) : State :=
  (State.writeAll (s.box b).cqWait.length s b false).sendNotice b false

theorem State.frame_writeAndNotify (l : List Nat) : Frame [.outbox, .ctr, .boxes] s (l.foldl State.writeAndNotify s) :=
  (Leads.foldl l .refl fun _ _ hu =>
    State.sendNotice_leads (State.writeAll_leads hu (List.Subset.refl _)) (by decide)).frame

/-- After a collection no completion is held (R255). -/
theorem State.not_held_collect {j : Item} (hj : j ∈ s.collect.items) : j.heldCollection = false := by
  by_contra hne
  have h : j.heldCollection = true := by simpa using hne
  unfold State.collect at hj
  dsimp only at hj
  rw [← List.foldl_map (f := fun i : Item => i.id)
    (g := fun (u : State) id => (u.modItem id (fun i => { i with heldCollection := false, postedHeld := true })).postItem id)]
    at hj
  obtain ⟨hmem, hnot⟩ := State.held_of_posted (fun _ => rfl) _ hj h
  exact hnot (List.mem_map_of_mem (List.mem_filter.mpr ⟨hmem, h⟩))

theorem exec_collection {n ph : Nat} (hn : s.time.collections.getD n none = some ph) (h : s.time.rounds = true) :
    ∃ t, exec (.collection n) s = .next t ∧
      t.time = { s.time with t := max s.time.t (s.roundEpoch + s.time.round * s.roundLen + ph) } ∧
      ∀ i ∈ t.items, i.heldCollection = false := by
  let v := s.setTime (fun u => { u with t := max u.t (s.roundEpoch + s.time.round * s.roundLen + ph) })
  let boxes := ((s.items.filter (fun i => i.heldCollection)).map (·.box)).dedup
  have hframe := v.collect.frame_writeAndNotify boxes
  refine ⟨boxes.foldl State.writeAndNotify v.collect, ?_, ?_, fun i hi => ?_⟩
  · show execCollection n s = _
    simp only [execCollection, hn, h]
    rfl
  · exact (hframe.time (by decide)).trans ((State.collect_leads .refl (List.Subset.refl _)).frame.time (by decide))
  · rw [hframe.items (by decide)] at hi
    exact v.not_held_collect hi

end Collection

/-! ### Quiet windows (R256) -/

section Windows
variable {s : State} {n a b : Nat} (hn : s.time.quiet.getD n none = some (a, b))
include hn

/-- The core chosen for a slice as the start of a quiet window leaves it: it takes no more placements. -/
def Core.heldBack (k : Core) : Core :=
  { k with
    quietHold := true, state := if k.state = .running then .draining else if k.state = .idle then .drained else k.state }

theorem exec_quietWindowStart (h : s.time.rounds = true) : ∃ t, exec (.quietWindowStart n) s = .next t ∧
    t.time = { s.time with t := max s.time.t (s.roundEpoch + s.time.round * s.roundLen + a), window := some n } ∧
    (∀ c, s.time.sliceCore = some c → c < s.cores.length → (t.core c).quietHold = true ∧
      ((s.core c).state = .running → (t.core c).state = .draining) ∧
      ((s.core c).state = .idle → (t.core c).state = .drained) ∧ OtherCores c s t) := by
  let v := s.setTime (fun u => { u with t := max u.t (s.roundEpoch + s.time.round * s.roundLen + a), window := some n })
  have ht : exec (.quietWindowStart n) s =
      .next (match s.time.sliceCore with | some c => v.modCore c Core.heldBack | none => v) := by
    show execQuietWindowStart n s = _
    simp only [execQuietWindowStart, hn, h]
    rfl
  refine ⟨_, ht, by split <;> rfl, fun c hc hlen => ?_⟩
  simp only [hc]
  have hcore : (v.modCore c Core.heldBack).core c = (s.core c).heldBack := State.core_modCore_same hlen _
  rw [hcore]
  exact ⟨rfl, fun hst => by simp [Core.heldBack, hst], fun hst => by simp [Core.heldBack, hst],
    OtherCores.modCore (.of_cores rfl) _⟩

/-- A core as the end of a quiet window leaves it: one that was held back and runs no slice goes on. -/
def Core.letGo (k : Core) : Core :=
  if k.quietHold ∧ k.slice.isNone then { k with
    quietHold := false
    state := if k.state = .drained then .idle else if k.state = .draining then .running else k.state }
  else k

theorem exec_quietWindowEnd (hw : s.time.window = some n) : ∃ t, exec (.quietWindowEnd n) s = .next t ∧
    t.time = { s.time with t := max s.time.t (s.roundEpoch + s.time.round * s.roundLen + b), window := none } ∧
    t.live .time 0 5 = s.counted .time 0 5 (b - a) ∧ OtherCounters [ctrKey .time 0 5] s t ∧
    (∀ c, (s.core c).quietHold = true → (s.core c).slice = none → (t.core c).quietHold = false) ∧
    (∀ c, (s.core c).quietHold = false → t.core c = s.core c) := by
  let v := (s.setTime (fun u => { u with
    t := max u.t (s.roundEpoch + s.time.round * s.roundLen + b), window := none })).bump .time 0 5 (b - a)
  have hcore : ∀ c, ({ v with cores := v.cores.map Core.letGo } : State).core c = (s.core c).letGo := fun c => by
    have hv : v.cores = s.cores := State.bump_cores ..
    simp only [State.core, hv]
    exact List.getD_map s.cores ({} : Core) Core.letGo
  refine ⟨{ v with cores := v.cores.map Core.letGo }, ?_, State.bump_time .., ?_, ?_, fun c hq hs => ?_, fun c hq => ?_⟩
  · show execQuietWindowEnd n s = _
    simp only [execQuietWindowEnd, hn, hw]
    rfl
  · exact State.live_bump _ .time 0 5 (b - a)
  · exact OtherCounters.bump (p := .time) (i := 0) (n := 5) (OtherCounters.of_ctr rfl) List.mem_cons_self (b - a)
  · rw [hcore, Core.letGo, if_pos ⟨hq, by simp [hs]⟩]
  · rw [hcore, Core.letGo, if_neg fun h => by simp [hq] at h]

end Windows

/-- Settles O6: a boundary by what it leaves of the time unit, a collection by the completions it posts, a quiet window by
the cores that it holds back and lets go. -/
theorem roundsBeginAndQuietWindowsOpenAndClose : Obligations.RoundsBeginAndQuietWindowsOpenAndClose :=
  ⟨exec_roundBoundary, exec_firstRoundBoundary, fun s _ _ => exec_collection s,
    fun _ _ _ _ hn h => exec_quietWindowStart hn h, fun _ _ _ _ hn hw => exec_quietWindowEnd hn hw⟩

end Sys2Proof.Machine
end

section
/-! Link control, the time sent down the tree and fencing (R280, R283, R284, R289, R290): what a member link keeps while
others send, what a replay sends again, how a link leaves UP, and what a fenced module keeps through its reset. -/

namespace Sys2Proof.Machine

-- one theorem after the other: proofs that wait together take too many threads
set_option Elab.async false

/-! ### Member links -/

section Links
variable {s t u : State} {p : Nat}

theorem State.Shape.lt_links (h : s.Shape) (hp : p < 24) : p < s.links.length := by
  obtain ⟨_, _, _, hlinks, _⟩ := h
  omega

theorem State.link_of_links (h : t.links = s.links) (p : Nat) : t.link p = s.link p := by
  rw [State.link, State.link, h]

theorem State.link_modLink_same (hp : p < s.links.length) (f : Link → Link) : (s.modLink p f).link p = f (s.link p) :=
  (s.link_modLink p p f).trans (if_pos ⟨rfl, hp⟩)

theorem OtherLinks.of_links (h : t.links = s.links) : OtherLinks p s t := fun d _ => State.link_of_links h d

theorem OtherLinks.modLink (h : OtherLinks p s t) (f : Link → Link) : OtherLinks p s (t.modLink p f) := fun d hd =>
  ((t.link_modLink p d f).trans (if_neg fun e => hd e.1.symm)).trans (h d hd)

theorem OtherLinks.trans (h : OtherLinks p s t) (k : OtherLinks p t u) : OtherLinks p s u := fun d hd =>
  (k d hd).trans (h d hd)

theorem OtherLinks.sendOn (h : OtherLinks p s t) (x : TxPkt) : OtherLinks p s (t.sendOn p x) :=
  (h.modLink (fun l => l.send x)).trans (.of_links (by unfold State.sendOn; simp))

theorem OtherLinks.pumpPort (fuel : Nat) (h : OtherLinks p s t) : OtherLinks p s (State.pumpPort fuel t p) := by
  induction fuel generalizing t with
  | zero => exact h
  | succ fuel ih =>
    unfold State.pumpPort
    split
    · exact h
    · split
      · exact ih ((h.modLink _).sendOn _)
      · exact h

theorem OtherLinks.queueOn (s : State) (p : Nat) (x : TxPkt) : OtherLinks p s (s.queueOn p x) :=
  ((OtherLinks.of_links rfl).modLink _).pumpPort _

/-- With nothing waiting at a port there is nothing to send. -/
theorem State.pumpPort_of_empty (h : (s.link p).txWait = []) : State.pumpPort (s.link p).txWait.length s p = s := by
  rw [h]
  rfl

/-- A bundle's least occupied member is UP. -/
theorem State.up_of_leastPort {d q : Nat} (h : s.leastPort d = some q) : (s.link q).st = .up := by
  have hall : ∀ m ∈ s.leastPort d, (s.link m).st = .up := by
    unfold State.leastPort
    refine List.foldlRecOn (motive := fun o : Option Nat => ∀ m ∈ o, (s.link m).st = .up) _ _ (by simp)
      (fun o ho n hn m hm => ?_)
    have hup : (s.link n).st = .up := by simpa using (List.mem_filter.mp hn).2
    cases o with
    | none => exact Option.some.inj hm ▸ hup
    | some k =>
      dsimp only at hm
      split at hm
      · exact Option.some.inj hm ▸ hup
      · exact ho m hm
  exact hall q h

/-- Every member link that is not UP stays as it is: what flooding and queueing leave alone (R282, R287). -/
def DownLinksStand (s t : State) : Prop := ∀ q, (s.link q).st ≠ .up → t.link q = s.link q

theorem DownLinksStand.of_links (h : t.links = s.links) : DownLinksStand s t := fun q _ => State.link_of_links h q

theorem DownLinksStand.trans (h : DownLinksStand s t) (k : DownLinksStand t u) : DownLinksStand s u := fun q hq =>
  (k q (by rwa [h q hq])).trans (h q hq)

theorem DownLinksStand.links (h : DownLinksStand s t) (hu : u.links = t.links) : DownLinksStand s u :=
  h.trans (.of_links hu)

theorem DownLinksStand.foldl {α : Type} {f : State → α → State} (h : DownLinksStand s t)
    (hf : ∀ u a, DownLinksStand s u → DownLinksStand s (f u a)) (l : List α) : DownLinksStand s (l.foldl f t) :=
  List.foldlRecOn l f h fun u hu a _ => hf u a hu

theorem DownLinksStand.queueOn (h : DownLinksStand s t) (hup : (t.link p).st = .up) (x : TxPkt) :
    DownLinksStand s (t.queueOn p x) :=
  h.trans fun q hq => OtherLinks.queueOn t p x q fun e => hq (e ▸ hup)

theorem DownLinksStand.floodPkt (h : DownLinksStand s t) (x : TxPkt) (arrived : Option Nat) :
    DownLinksStand s (t.floodPkt x arrived) := by
  unfold State.floodPkt
  refine h.foldl (fun u d hu => ?_) _
  split
  · exact hu
  · split
    · exact hu.queueOn (State.up_of_leastPort ‹_›) x
    · exact hu

theorem State.packets_links (s : State) (dest cls seq : Nat) (msg : PktOut) :
    (s.packets dest cls seq msg).2.links = s.links := by
  unfold State.packets
  dsimp only
  split <;> rfl

theorem DownLinksStand.floodMsg (h : DownLinksStand s t) (msg : PktOut) : DownLinksStand s (t.floodMsg msg) := by
  unfold State.floodMsg
  refine DownLinksStand.foldl (h.links ?_) (fun u x hu => hu.floodPkt x none) _
  exact State.packets_links ..

theorem DownLinksStand.bundleChange (h : DownLinksStand s t) (port : Nat) (old : BundleSt) :
    DownLinksStand s (t.bundleChange port old) := by
  have hnoted : ∀ d n, DownLinksStand s ((t.changed .link port).noteBundle t.pos d n false) := fun d n => h.links rfl
  unfold State.bundleChange
  dsimp only
  split
  · exact h
  · split
    · exact hnoted _ _
    · exact (hnoted _ _).floodMsg _

/-- A link as it leaves UP: what it had to carry goes elsewhere or waits (R280, R284). -/
def Link.left (l : Link) (st : LinkSt) : Link := { l with st := st, replay := [], txWait := [], replays := 0, lanesOk := 0 }

/-- A link leaves UP for a state that is not UP; what the module does for its packets then does not touch it again. -/
theorem State.link_leaveUp (hp : p < s.links.length) {st : LinkSt} (hst : st ≠ .up) :
    (s.leaveUp p st).link p = (s.link p).left st := by
  let v := (s.modLink p (fun l => l.left st)).changed .link p
  have hv : v.link p = (s.link p).left st := State.link_modLink_same hp _
  have hmoved : DownLinksStand v (s.moveLink p (fun l => l.left st)) :=
    (DownLinksStand.of_links rfl).bundleChange p _
  have hdown : DownLinksStand v (s.leaveUp p st) := by
    unfold State.leaveUp
    dsimp only
    refine DownLinksStand.foldl ?_ (fun u x hu => ?_) _
    · exact hmoved.links ((State.event_links _ _).trans (State.bump_links ..))
    · split
      · exact hu.queueOn (State.up_of_leastPort ‹_›) x
      · exact hu.links rfl
  exact (hdown p (by rw [hv]; exact hst)).trans hv

/-! ### One-hop control (R283, R284) -/

theorem State.links_replayPort (s : State) (p : Nat) :
    (s.replayPort p).links = (s.modLink p (fun l => { l with replays := l.replays + 1 })).links :=
  List.foldlRecOn (motive := fun u : State => u.links = (s.modLink p _).links) _ _ (State.bump_links ..)
    fun u hu r _ => by simpa using hu

/-- Every packet that waits for its acknowledgement goes out again, in its order (R284). -/
theorem State.outbox_replayPort (hp : p < s.links.length) :
    (s.replayPort p).outbox = (s.link p).replay.reverse.map (fun r => Out.hop p r.lseq r.pkt) ++ s.outbox := by
  have hfold : ∀ (l : List Replay) (u : State), (l.foldl (fun (u : State) r =>
      (u.bump .link p 0 r.pkt.bytes).emit (.hop p r.lseq r.pkt)) u).outbox =
      l.reverse.map (fun r => Out.hop p r.lseq r.pkt) ++ u.outbox := by
    intro l
    induction l with
    | nil => exact fun u => rfl
    | cons r l ih =>
      intro u
      rw [List.foldl_cons, ih]
      simp [State.emit]
  have hlink : ((s.modLink p (fun l => { l with replays := l.replays + 1 })).bump .link p 6 1).link p =
      { s.link p with replays := (s.link p).replays + 1 } :=
    (State.link_of_links (State.bump_links ..) p).trans (State.link_modLink_same hp _)
  unfold State.replayPort
  dsimp only
  rw [hlink, hfold, State.bump_outbox]
  rfl

theorem Link.replays_ackTo_le (l : Link) (n : Nat) : (l.ackTo n).replays ≤ l.replays := by
  unfold Link.ackTo
  dsimp only
  split <;> omega

section Control
variable {s : State} {p : Nat} (hs : s.Shape) (hp : p < 24) (hup : (s.link p).st = .up)
include hs hp

/-- A link changed where nothing waits for it: the pump sends nothing. -/
theorem execLinkCtrl_of_pump {msg : LinkCtrl} {f : Link → Link} (hf : (f (s.link p)).txWait = [])
    (h : execLinkCtrlPacket p msg s =
      .next (State.pumpPort ((s.modLink p f).link p).txWait.length (s.modLink p f) p)) :
    ∃ t, exec (.linkCtrlPacket p msg) s = .next t ∧ t.link p = f (s.link p) ∧ OtherLinks p s t ∧ t.outbox = s.outbox := by
  have hlink : (s.modLink p f).link p = f (s.link p) := State.link_modLink_same (hs.lt_links hp) f
  rw [State.pumpPort_of_empty (by rw [hlink, hf])] at h
  exact ⟨_, h, hlink, (OtherLinks.of_links rfl).modLink f, rfl⟩

theorem State.link_replayPort (f : Link → Link) : ((s.modLink p f).replayPort p).link p =
    { f (s.link p) with replays := (f (s.link p)).replays + 1 } := by
  rw [State.link_of_links (State.links_replayPort _ p), State.link_modLink_same, State.link_modLink_same (hs.lt_links hp)]
  exact (listModify_length ..).symm ▸ hs.lt_links hp

include hup

theorem exec_ack (hw : (s.link p).txWait = []) (n : Nat) : ∃ t, exec (.linkCtrlPacket p (.ack n)) s = .next t ∧
    t.link p = (s.link p).ackTo n ∧ OtherLinks p s t ∧ t.outbox = s.outbox :=
  execLinkCtrl_of_pump hs hp (msg := .ack n) (f := fun l => l.ackTo n) hw
    (by simp only [execLinkCtrlPacket, hp, hup]; rfl)

/-- A member link given `u` units of channel `vc`: as many as the channel may hold are its own, the rest shared (R283). -/
def Link.credited (l : Link) (vc u : Nat) : Link :=
  { l with
    credits := l.credits.set vc (l.credits.getD vc 0 + min u (64 - l.credits.getD vc 0))
    shared := min 2048 (l.shared + (u - min u (64 - l.credits.getD vc 0))) }

theorem exec_credit (hw : (s.link p).txWait = []) (vc u : Nat) : ∃ t, exec (.linkCtrlPacket p (.credit vc u)) s = .next t ∧
    t.link p = (s.link p).credited vc u ∧ OtherLinks p s t ∧ t.outbox = s.outbox :=
  execLinkCtrl_of_pump hs hp (msg := .credit vc u) (f := fun l => l.credited vc u) hw
    (by simp only [execLinkCtrlPacket, hp, hup]; rfl)

/-- A NACK acknowledges what comes before it and sends the rest again; at the eighth without progress the link leaves UP. -/
theorem exec_nack_eq (n : Nat) : ∃ f : Link → Link, f = (fun l => l.ackTo ((n + 4095) % 4096)) ∧
    exec (.linkCtrlPacket p (.nack n)) s =
      .next (((s.modLink p f).replayPort p).when (decide (8 ≤ (f (s.link p)).replays + 1))
        (((s.modLink p f).replayPort p).leaveUp p .retrain)) := by
  refine ⟨_, rfl, ?_⟩
  show execLinkCtrlPacket p (.nack n) s = _
  simp only [execLinkCtrlPacket, hp, hup, State.link_replayPort hs hp]
  rfl

theorem exec_nack (n : Nat) (h : (s.link p).replays < 7) : ∃ t, exec (.linkCtrlPacket p (.nack n)) s = .next t ∧
    OtherLinks p s t ∧ t.link p = { (s.link p).ackTo ((n + 4095) % 4096) with
      replays := ((s.link p).ackTo ((n + 4095) % 4096)).replays + 1 } ∧
    t.outbox = ((s.link p).ackTo ((n + 4095) % 4096)).replay.reverse.map (fun r => Out.hop p r.lseq r.pkt) ++ s.outbox := by
  obtain ⟨f, rfl, hexec⟩ := exec_nack_eq hs hp hup n
  have hfew : ¬ 8 ≤ ((s.link p).ackTo ((n + 4095) % 4096)).replays + 1 := by
    have := (s.link p).replays_ackTo_le ((n + 4095) % 4096)
    omega
  rw [decide_eq_false hfew] at hexec
  refine ⟨_, hexec, ?_, State.link_replayPort hs hp _, ?_⟩
  · exact (((OtherLinks.of_links rfl).modLink _).modLink _).trans (.of_links (State.links_replayPort _ p))
  · have hlen : p < (s.modLink p (fun l => l.ackTo ((n + 4095) % 4096))).links.length :=
      (listModify_length ..).symm ▸ hs.lt_links hp
    exact (State.outbox_replayPort hlen).trans (by rw [State.link_modLink_same (hs.lt_links hp)]; rfl)

theorem exec_nack_last (n : Nat) (h : ((s.link p).ackTo ((n + 4095) % 4096)).replays = 7) :
    ∃ t, exec (.linkCtrlPacket p (.nack n)) s = .next t ∧ (t.link p).st = .retrain ∧ (t.link p).replay = [] := by
  obtain ⟨f, rfl, hexec⟩ := exec_nack_eq hs hp hup n
  have hmany : 8 ≤ ((s.link p).ackTo ((n + 4095) % 4096)).replays + 1 := by omega
  rw [decide_eq_true hmany] at hexec
  have hlen : p < ((s.modLink p (fun l => l.ackTo ((n + 4095) % 4096))).replayPort p).links.length := by
    rw [State.links_replayPort]
    simpa [State.modLink] using hs.lt_links hp
  refine ⟨_, hexec, ?_⟩
  show (State.link (State.leaveUp _ p .retrain) p).st = _ ∧ (State.link (State.leaveUp _ p .retrain) p).replay = []
  rw [State.link_leaveUp hlen (by decide)]
  exact ⟨rfl, rfl⟩

end Control
end Links

/-! ### The time sent down the tree (R289) -/

section Time
variable {s : State} {p : Nat}

/-- The time unit goes into another state and notes since when; nothing else of it changes. -/
theorem State.timeState_time (s : State) (st : TimeSt) :
    ∃ w, (s.timeState st).time = { s.time with st := st, stAt := w } := by
  unfold State.timeState
  split
  · rename_i h
    exact ⟨s.time.stAt, by rw [← h]⟩
  · exact ⟨s.time.t, rfl⟩

/-- The offset from the parent noted, SLEW_LIMIT stands. -/
theorem State.slewLimit_noteOffset (s : State) (o : Int) : (s.noteOffset o).slewLimit = s.slewLimit := by
  have hreg : (s.noteOffset o).regN .time 0 Reg.time_slewLimit = s.regN .time 0 Reg.time_slewLimit :=
    (State.otherRegs_setReg (s.setTime _) _ _).regN (by
      simp only [List.mem_singleton, regAddr_inj]
      decide)
  simp only [State.slewLimit, State.field, hreg]

/-- The time unit of a worker that has slewed by `o` to its parent's time (R289). -/
def TimeUnit.slewed (u : TimeUnit) (o : Int) : TimeUnit :=
  { u with offset := -o, slew := o, t := ((u.t : Int) + o).toNat, backwardHeld := false }

theorem exec_timeSync (st : Nat) {o : Int} (hw : s.isWorker = true) (hp : p < 24) (hup : (s.link p).st = .up)
    (hparent : s.timeParent = some (portDir s.systemSize p).1) (ho : o.natAbs ≤ s.slewLimit) :
    ∃ t, exec (.timeSync p st o) s = .next t ∧ t.time.st = TimeSt.ofCode st ∧ t.time.t = (s.time.t + o).toNat ∧
      t.time.offset = -o ∧ t.fab.timePath = true ∧ t.links = s.links := by
  let v := s.setFab (fun f => { f with timePath := true, depth := (s.hops s.fab.manager 64).getD s.pos 99 })
  have hlimit : (v.noteOffset o).slewLimit = s.slewLimit := v.slewLimit_noteOffset o
  let w := ((v.noteOffset o).slewTo o).setTime (fun u => { u with backwardHeld := false })
  have hexec : exec (.timeSync p st o) s = .next (w.timeState (TimeSt.ofCode st)) := by
    show execTimeSync p st o s = _
    simp only [execTimeSync, hw, hp, hup, hparent, hlimit, ho, v]
    simp [w, Nat.not_lt.mpr ho, v]
  have htime : w.time = s.time.slewed o := by simp [w, v, State.slewTo, State.noteOffset, State.setTime, TimeUnit.slewed]
  have hframe : Frame [.time, .regs, .log] w (w.timeState (TimeSt.ofCode st)) :=
    (State.timeState_leads .refl (List.Subset.refl _)).frame
  obtain ⟨a, ha⟩ := w.timeState_time (TimeSt.ofCode st)
  rw [htime] at ha
  refine ⟨_, hexec, by rw [ha], by rw [ha]; rfl, by rw [ha]; rfl, ?_, ?_⟩
  · rw [hframe.fab (by decide)]
    exact congrArg Fabric.timePath (State.bump_fab ..)
  · rw [hframe.links (by decide)]
    exact State.bump_links ..

theorem exec_timeSync_of_not_worker (p st : Nat) (o : Int) (hw : s.isWorker = false) :
    exec (.timeSync p st o) s = .next s := by
  show execTimeSync p st o s = _
  simp [execTimeSync, hw]

end Time

/-! ### Fencing (R280, R293) -/

section Fence
variable {s : State} {p : Nat}

/-- What a module does before it resets itself touches neither its queue of what waits, nor flash, nor the field record. -/
theorem State.selfFence_eq (s : State) (e : Nat) : ∃ w, s.selfFence e = w.moduleReset 5 true ∧
    Frame [.ctr, .cores, .poolWait, .items, .boxes, .log] s w :=
  ⟨_, rfl, (State.flushRecorder_leads (State.event_leads (State.stopAll_leads .refl (by decide)) (by decide))
    (by decide)).frame⟩

theorem exec_fence (e : Nat) (hp : p < 24) (hst : (s.link p).st = .up ∨ (s.link p).st = .fenced) (hnone : s.fab.role ≠ .none)
    (hjoining : s.fab.role ≠ .joining) : ∃ t, exec (.fence p e) s = .next t ∧ t.pwr.cause = 5 ∧
      t.cores = State.reset.cores ∧ t.items = [] ∧ t.mem = [] ∧ t.fab.role = State.reset.fab.role ∧
      t.pending = s.pending ∧ t.tier.flash = s.tier.flash ∧ t.sec.field = s.sec.field := by
  obtain ⟨w, hw, hframe⟩ := s.selfFence_eq e
  have hflash : w.tier.flash = s.tier.flash := congrArg Tier.flash (hframe.tier (by decide))
  have hfield : w.sec.field = s.sec.field := congrArg Security.field (hframe.sec (by decide))
  refine ⟨w.moduleReset 5 true, ?_, rfl, rfl, rfl, rfl, rfl, hframe.pending (by decide), hflash, hfield⟩
  show execFence p e s = _
  simp [execFence, hp, hst, hnone, hjoining, State.when, hw]

theorem exec_fence_of_outside (p e : Nat) (h : s.fab.role = .none ∨ s.fab.role = .joining) :
    exec (.fence p e) s = .next s := by
  show execFence p e s = _
  rcases h with h | h <;> simp [execFence, h, State.when]

theorem exec_fenceSend (hp : p < 24) (h : (s.link p).st = .fenced) : ∃ t, exec (.fenceSend p) s = .next t ∧
    t.outbox = .ctrl p (.fence s.fab.epoch) :: s.outbox ∧ t.links = s.links ∧ t.fab = s.fab := by
  refine ⟨s.emit (.ctrl p (.fence s.fab.epoch)), ?_, rfl, rfl, rfl⟩
  show execFenceSend p s = _
  simp [execFenceSend, hp, h, State.when]

theorem exec_fenceSend_of_not_fenced (h : (s.link p).st ≠ .fenced) : exec (.fenceSend p) s = .next s := by
  show execFenceSend p s = _
  simp [execFenceSend, h, State.when]

end Fence

/-- Settles O37: link control by what the changed link leaves to send, time by the state of the unit once it has slewed,
fencing by the reset of what came before it. -/
theorem linkControlTimeAndFencing : Obligations.LinkControlTimeAndFencing := by
  refine ⟨fun s p hs hp hup hw => ⟨exec_ack hs hp hup hw, exec_nack hs hp hup, fun n _ => exec_nack_last hs hp hup n,
    fun vc u _ _ => ?_⟩, fun s p st o hw hp hup hparent ho => exec_timeSync st hw hp hup hparent ho,
    fun s p st o hw => exec_timeSync_of_not_worker p st o hw, fun s p e hp hst => exec_fence e hp hst,
    fun s p e => exec_fence_of_outside p e, fun s p => exec_fenceSend, fun s p => exec_fenceSend_of_not_fenced⟩
  obtain ⟨t, ht, hlink, hother, _⟩ := exec_credit hs hp hup hw vc u
  exact ⟨t, ht, hother, hlink⟩

end Sys2Proof.Machine
end

section
/-! A box's states (R267 to R270, R273): what a box keeps while its items fail or are posted, what failing one item after
the other leaves of each, and the groups that a release takes. -/

namespace Sys2Proof.Machine

-- one theorem after the other: proofs that wait together take too many threads
set_option Elab.async false

/-! ### Boxes while items fail -/

/-- A box without what the ledger adds to it: the cycles used and the entries that wait for its rings. -/
def BoxSt.standing (x : BoxSt) : BoxSt := { x with cyclesUsed := 0, cqWait := [], dlqWait := [] }

/-- Every box is as before but for the cycles used and the entries that wait for its rings. -/
def BoxesStand (s t : State) : Prop := ∀ b, (t.box b).standing = (s.box b).standing

section Stand
variable {s t u : State}

theorem BoxesStand.of_boxes (h : t.boxes = s.boxes) : BoxesStand s t := fun b => by rw [State.box_of_boxes h]

theorem BoxesStand.refl (s : State) : BoxesStand s s := .of_boxes rfl

theorem BoxesStand.trans (h : BoxesStand s t) (k : BoxesStand t u) : BoxesStand s u := fun b => (k b).trans (h b)

theorem BoxesStand.modBox {f : BoxSt → BoxSt} (h : BoxesStand s t) (b : Nat)
    (hf : ∀ x, (f x).standing = x.standing := by exact fun _ => rfl) : BoxesStand s (t.modBox b f) := fun c => by
  rw [State.box_modBox, ← h c]
  split
  · exact hf _
  · rfl

theorem BoxesStand.foldl {α : Type} {f : State → α → State} (l : List α) (h : BoxesStand s t)
    (hf : ∀ u a, BoxesStand u (f u a)) : BoxesStand s (l.foldl f t) :=
  List.foldlRecOn l f h fun u hu a _ => hu.trans (hf u a)

theorem BoxesStand.stopInstance (s : State) (c : Nat) : BoxesStand s (s.stopInstance c) := by
  have h : BoxesStand s (s.chargeRun c) := by
    unfold State.chargeRun
    split
    · exact .refl s
    · rename_i i _
      have hcharge : BoxesStand s (s.chargeBox c i.box (cyclesOf (s.time.t - i.start))) :=
        BoxesStand.modBox (.of_boxes (by simp only [State.bump_boxes])) i.box
      exact hcharge.trans (.of_boxes (State.bump_boxes ..))
  exact h.trans (.of_boxes rfl)

theorem BoxesStand.stopItem (s : State) (id : Nat) : BoxesStand s (s.stopItem id) := by
  unfold State.stopItem
  generalize hu : (List.range 68).foldl _ s = u
  have h : BoxesStand s u := by
    rw [← hu]
    refine BoxesStand.foldl _ (.refl s) (fun u c => ?_)
    split
    · split
      · exact .stopInstance u c
      · exact .refl u
    · exact .refl u
  exact h.trans (.of_boxes rfl)

theorem BoxesStand.post (s : State) (i : Item) (dead : Bool) (body : Nat) : BoxesStand s (s.post i dead body) := by
  unfold State.post
  split
  · exact .of_boxes ((State.sendMsg_leads .refl (List.Subset.refl _)).frame.boxes (by decide))
  · refine BoxesStand.modBox (.refl s) i.box (hf := fun x => ?_)
    cases dead <;> rfl

theorem BoxesStand.postItem (s : State) (id : Nat) : BoxesStand s (s.postItem id) := by
  unfold State.postItem
  split
  · exact .refl s
  · split
    · exact .refl s
    · exact .post s _ _ _
    · split
      · exact .refl s
      · exact .post s _ _ _

theorem BoxesStand.resolve_failed {id : Nat} {i : Item} (hi : s.item? id = some i) (hd : i.disp = none) (f : Fail) :
    BoxesStand s (s.resolve id (.failed f)) := by
  have hnote : BoxesStand s (s.noteFailure id i f) := .of_boxes (s.noteFailure_boxes id i f)
  rcases State.resolve_failed_cases hi hd f with h | ⟨-, g, h⟩ <;> rw [h]
  · exact hnote.trans (.postItem _ id)
  · exact (hnote.trans (.of_boxes (State.releaseGroup_boxes _ g))).trans (.postItem _ id)

/-- An item that is not in the ledger, or has its disposition, fails no more (R363). -/
theorem State.failItem_of_settled {id : Nat} (h : ∀ i, s.item? id = some i → i.disp ≠ none) (f : Fail) :
    s.failItem id f = s := by
  unfold State.failItem
  split
  · rfl
  · rename_i i hi
    exact if_pos (Option.isSome_iff_ne_none.mpr (h i hi))

/-- Failing an item either changes nothing or takes an item that has no disposition yet. -/
theorem State.failItem_cases (s : State) (id : Nat) (f : Fail) :
    s.failItem id f = s ∨ ∃ i, s.item? id = some i ∧ i.disp = none := by
  by_cases h : ∃ i, s.item? id = some i ∧ i.disp = none
  · exact .inr h
  · exact .inl (State.failItem_of_settled (fun i hi hd => h ⟨i, hi, hd⟩) f)

theorem BoxesStand.failItem (s : State) (id : Nat) (f : Fail) : BoxesStand s (s.failItem id f) := by
  rcases s.failItem_cases id f with h | ⟨i, hi, hd⟩
  · exact .of_boxes (by rw [h])
  · obtain ⟨j, hj, hfate, -⟩ := State.item?_cutItem hi f
    have hcut : BoxesStand s (s.cutItem id i f) :=
      (BoxesStand.stopItem s id).trans (.of_boxes ((State.dropSteps_leads _ i).frame.boxes (by decide)))
    rw [State.failItem_eq hi hd]
    exact hcut.trans (.resolve_failed hj ((congrArg Prod.fst hfate).trans hd) f)

/-! ### Items that fail one after the other -/

/-- An item's failure leaves every other item's fate as it was. -/
theorem State.fate_failItem_ne {id k : Nat} (hk : k ≠ id) (f : Fail) :
    ((s.failItem k f).item? id).map Item.fate = (s.item? id).map Item.fate := by
  rcases s.failItem_cases k f with h | ⟨i, hi, hd⟩
  · rw [h]
  · obtain ⟨j, hj, hfate, -⟩ := State.item?_cutItem hi f
    have hcut : ItemsAgree Item.fate s (s.cutItem k i f) :=
      (((ItemsAgree.stopItem s (fun _ _ => rfl) k).trans (.of_items (State.dropSteps_items _ i))).trans
        (.of_items rfl)).modItem k
    obtain ⟨r, p, hitems⟩ := (s.cutItem k i f).noteFailure_items k j f
    have hnote : ((s.cutItem k i f).noteFailure k j f).item? id = (s.cutItem k i f).item? id := by
      rw [State.item?_of_items hitems, State.item?_modItem _ k id (Item.failedAt f r p) (fun _ => rfl), if_neg hk]
    rw [State.failItem_eq hi hd, ← hcut id]
    rcases State.resolve_failed_cases hj ((congrArg Prod.fst hfate).trans hd) f with h | ⟨-, g, h⟩
    · rw [h, State.item?_of_items (State.postItem_items _ _), hnote]
    · rw [h, State.item?_of_items (State.postItem_items _ _), ItemsAgree.releaseGroup _ g (fun _ => rfl) id, hnote]

/-- A disposition stands whatever fails afterwards (R363). -/
theorem State.fate_failItem_of_settled {id : Nat} {i : Item} (hi : s.item? id = some i) (hd : i.disp ≠ none) (k : Nat)
    (f : Fail) : ((s.failItem k f).item? id).map Item.fate = (s.item? id).map Item.fate := by
  by_cases hk : k = id
  · subst hk
    rw [State.failItem_of_settled (fun j hj => by rw [hi] at hj; exact Option.some.inj hj ▸ hd) f]
  · exact State.fate_failItem_ne hk f

/-- Of items that fail one after the other, each takes the failure of its first place in the list. -/
theorem State.disp_foldl_failItem {why : Item → Fail} {id : Nat} {a : Item} {l : List Item}
    (ha : l.find? (fun j => j.id == id) = some a) {i : Item} (hi : s.item? id = some i) (hd : i.disp = none) :
    ∃ j, (l.foldl (fun u j => u.failItem j.id (why j)) s).item? id = some j ∧ j.disp = some (.failed (why a)) := by
  induction l generalizing s i with
  | nil => cases ha
  | cons k l ih =>
    by_cases hk : k.id = id
    · obtain rfl : k = a := by simpa [hk] using ha
      obtain ⟨j, hj, hfate⟩ := State.item?_failItem hi hd (why k)
      have hstays : ((l.foldl (fun u j => u.failItem j.id (why j)) (s.failItem k.id (why k))).item? id).map Item.fate =
          some j.fate :=
        List.foldlRecOn (motive := fun u : State => (u.item? id).map Item.fate = some j.fate) _ _
          (by rw [hk, hj]; rfl) (fun u hu m _ => by
            obtain ⟨x, hx, hxf⟩ := Option.map_eq_some_iff.mp hu
            have hset : x.disp ≠ none := by
              rw [show x.disp = _ from congrArg Prod.fst (hxf.trans hfate)]
              exact Option.some_ne_none _
            exact (State.fate_failItem_of_settled hx hset m.id _).trans hu)
      obtain ⟨x, hx, hxf⟩ := Option.map_eq_some_iff.mp hstays
      exact ⟨x, hx, congrArg Prod.fst (hxf.trans hfate)⟩
    · have hsame := State.fate_failItem_ne (s := s) hk (why k)
      rw [hi] at hsame
      obtain ⟨x, hx, hxf⟩ := Option.map_eq_some_iff.mp hsame
      exact ih (by simpa [hk] using ha) hx ((congrArg Prod.fst hxf).trans hd)

end Stand

/-! ### Boxes enabled and disabled (R267, R268) -/

section Boxes
variable {s : State} {b : Nat}

theorem State.Shape.lt_boxes (h : s.Shape) (hb : b < 64) : b < s.boxes.length := by
  obtain ⟨_, _, hboxes, _⟩ := h
  omega

theorem State.box_modBox_same (hb : b < s.boxes.length) (f : BoxSt → BoxSt) : (s.modBox b f).box b = f (s.box b) :=
  (s.box_modBox b b f).trans (if_pos ⟨rfl, hb⟩)

theorem OtherBoxes.modBox (s : State) (b : Nat) (f : BoxSt → BoxSt) : OtherBoxes b s (s.modBox b f) := fun d hd =>
  (s.box_modBox b d f).trans (if_neg fun e => hd e.1.symm)

theorem State.frame_spreadBoxCmd (s : State) (b cmd : Nat) :
    Frame [.outbox, .freeCount, .ctr, .fab, .links] s (s.spreadBoxCmd b cmd) :=
  (State.spreadBoxCmd_leads .refl (List.Subset.refl _)).frame

/-- A box as ENABLE leaves it (R267). -/
def BoxSt.opened (x : BoxSt) (session : Option Nat) : BoxSt :=
  { x with state := .active, session := session, drainOver := false, step := 0, lastSync := none }

theorem exec_boxEnable (hs : s.Shape) (hb : b < 64) (se : Nat) (hst : (s.box b).state = .disabled)
    (hheld : (s.holdBox b).isSome = true) : ∃ t, exec (.boxEnable b se) s = .next t ∧ (t.box b).state = .active ∧
      (t.box b).session = some se ∧ (t.box b).lastSync = none ∧ (t.box b).drainOver = false := by
  obtain ⟨u, hu⟩ := Option.isSome_iff_exists.mp hheld
  have hboxes : u.boxes = s.boxes := (State.holdBox_leads .refl (List.Subset.refl _) u hu).frame.boxes (by decide)
  let v := (u.modBox b (fun x => x.opened (some se))).changed .box b
  have hbox : (v.spreadBoxCmd b 1).box b = (u.box b).opened (some se) :=
    (State.box_of_boxes ((v.frame_spreadBoxCmd b 1).boxes (by decide)) b).trans
      (State.box_modBox_same (hboxes ▸ hs.lt_boxes hb) _)
  refine ⟨v.spreadBoxCmd b 1, ?_, ?_⟩
  · show execBoxEnable b se s = _
    simp only [execBoxEnable, State.enableBox, hb, hst, hu]
    rfl
  · rw [hbox]
    exact ⟨rfl, rfl, rfl, rfl⟩

/-- A command that the box's state does not allow is flagged, and changes nothing but registers (R267). -/
theorem State.frame_boxCmdBad (s : State) (b : Nat) : Frame [.regs] s (s.boxCmdBad b) := State.frame_flag ..

theorem State.flagged_boxCmdBad (s : State) (b : Nat) : bit ((s.boxCmdBad b).regN .box b Reg.errStat) 0 = true :=
  s.bit_errStat_flag .box b _ _ (by decide)

theorem exec_boxEnable_of_not_disabled (hb : b < 64) (se : Nat) (hst : (s.box b).state ≠ .disabled) :
    ∃ t, exec (.boxEnable b se) s = .next t ∧ t.boxes = s.boxes ∧ bit (t.regN .box b Reg.errStat) 0 = true := by
  refine ⟨s.boxCmdBad b, ?_, (s.frame_boxCmdBad b).boxes (by decide), s.flagged_boxCmdBad b⟩
  show execBoxEnable b se s = _
  simp [execBoxEnable, State.enableBox, hb, hst, State.when]

/-! ### Draining (R268, R269) -/

/-- What a search finds in a list it finds in the part of the list that has the property found. -/
theorem find?_filter_of_find? {α : Type} {p q : α → Bool} {l : List α} {a : α} (h : l.find? q = some a) (hp : p a = true) :
    (l.filter p).find? q = some a := by
  obtain ⟨hq, as, bs, rfl, has⟩ := List.find?_eq_some_iff_append.mp h
  rw [List.find?_eq_some_iff_append]
  exact ⟨hq, as.filter p, bs.filter p, by simp [hp], fun x hx => has x (List.mem_of_mem_filter hx)⟩

theorem State.find?_ownOpen {id : Nat} {i : Item} (hi : s.item? id = some i) (hbox : i.box = b) (hd : i.disp = none)
    (hpos : i.pos = s.pos) : (s.ownOpen b).find? (fun j => j.id == id) = some i :=
  find?_filter_of_find? (find?_filter_of_find? hi (by simp [hbox, hd])) (by simp [hpos])

/-- A box as DISABLE leaves it at time `t` (R268 step 1). -/
def BoxSt.drainFrom (x : BoxSt) (t : Nat) : BoxSt :=
  { x with state := .draining, disabledAt := t, drainOver := false, step := 2 }

/-- DISABLE: the box drains, then what has not started fails, then the command goes on to the other modules. -/
theorem exec_boxDisable_eq (hb : b < 64) (hst : (s.box b).state = .active) : ∃ v w : State,
    v = (s.modBox b (fun x => x.drainFrom s.time.t)).changed .box b ∧
    w = ((s.ownOpen b).filter (fun i => i.state != .started)).foldl
      (fun u j => u.failItem j.id { reason := .boxDisabled }) v ∧
    exec (.boxDisable b) s = .next (w.spreadBoxCmd b 2) := by
  refine ⟨_, _, rfl, rfl, ?_⟩
  show execBoxDisable b s = _
  simp only [execBoxDisable, Nat.not_le.mpr hb, hst, State.disableBox, State.failItems, List.foldl_map]
  rfl

theorem exec_boxDisable (hs : s.Shape) (hb : b < 64) (hst : (s.box b).state = .active) :
    ∃ t, exec (.boxDisable b) s = .next t ∧ (t.box b).state = .draining ∧ (t.box b).disabledAt = s.time.t ∧
      (t.box b).step = 2 ∧ t.time = s.time ∧
      (∀ id i, s.item? id = some i → i.box = b → i.disp = none → i.pos = s.pos → i.state ≠ .started →
        ∃ j, t.item? id = some j ∧ j.disp = some (.failed { reason := .boxDisabled })) := by
  obtain ⟨v, w, hv, hw, hexec⟩ := exec_boxDisable_eq hb hst
  have hstand : BoxesStand v w := hw ▸ .foldl _ (.refl v) (fun u j => .failItem u j.id _)
  have htime : w.time = v.time := by
    rw [hw]
    exact (Leads.foldl _ .refl fun u j hu => State.failItem_leads hu (List.Subset.refl _)).frame.time (by decide)
  have hspread := w.frame_spreadBoxCmd b 2
  have hbox : ((w.spreadBoxCmd b 2).box b).standing = ((s.box b).drainFrom s.time.t).standing := by
    rw [State.box_of_boxes (hspread.boxes (by decide)), hstand b, hv]
    exact congrArg BoxSt.standing (State.box_modBox_same (hs.lt_boxes hb) _)
  refine ⟨_, hexec, congrArg BoxSt.state hbox, congrArg BoxSt.disabledAt hbox, congrArg BoxSt.step hbox, ?_,
    fun id i hi hibox hd hpos hidle => ?_⟩
  · rw [hspread.time (by decide), htime, hv]
    rfl
  · have hfirst := find?_filter_of_find? (p := fun i => i.state != .started) (State.find?_ownOpen hi hibox hd hpos)
      (by simpa using hidle)
    have hvi : v.item? id = some i := hv ▸ hi
    rw [State.item?_of_items (hspread.items (by decide)), hw]
    exact State.disp_foldl_failItem hfirst hvi hd

theorem exec_boxDisable_of_not_active (hb : b < 64) (hst : (s.box b).state ≠ .active) : ∃ t, exec (.boxDisable b) s = .next t ∧
    t.boxes = s.boxes ∧ t.items = s.items ∧ bit (t.regN .box b Reg.errStat) 0 = true := by
  have hframe := s.frame_boxCmdBad b
  refine ⟨s.boxCmdBad b, ?_, hframe.boxes (by decide), hframe.items (by decide), s.flagged_boxCmdBad b⟩
  show execBoxDisable b s = _
  simp [execBoxDisable, Nat.not_le.mpr hb, hst]

/-- Has the item's deadline passed at time `t`, so that it fails with DEADLINE (R250, R269)? -/
def Item.lateAt (i : Item) (t : Nat) : Bool := !i.soft && (match i.deadline with | some d => decide (d ≤ t) | none => false)

/-- The failure with which a running item ends at the drain limit (R268 step 4, R269). -/
def Item.drainFail (t : Nat) (i : Item) : Fail := { reason := if i.lateAt t then .deadline else .aborted }

theorem Item.drainFail_of_no_deadline {i : Item} (h : i.deadline = none ∨ i.soft = true) (t : Nat) :
    i.drainFail t = { reason := .aborted } := by
  rcases h with h | h <;> simp [Item.drainFail, Item.lateAt, h]

theorem Item.drainFail_of_deadline {i : Item} {d : Nat} (h : i.deadline = some d) (hsoft : i.soft = false) (t : Nat) :
    i.drainFail t = { reason := if d ≤ t then .deadline else .aborted } := by
  simp [Item.drainFail, Item.lateAt, h, hsoft]

/-- While items fail no time passes: each is judged by the same instant. -/
theorem State.foldl_drainFail (l : List Item) (s : State) :
    l.foldl (fun u i => u.failItem i.id (i.drainFail u.time.t)) s =
      l.foldl (fun u i => u.failItem i.id (i.drainFail s.time.t)) s := by
  induction l generalizing s with
  | nil => rfl
  | cons i l ih =>
    have htime : (s.failItem i.id (i.drainFail s.time.t)).time = s.time :=
      (State.failItem_leads .refl (List.Subset.refl _)).frame.time (by decide)
    rw [List.foldl_cons, ih, htime, List.foldl_cons]

/-- A box as the drain limit leaves it (R268 step 4). -/
def BoxSt.drainedOut (x : BoxSt) : BoxSt := { x with drainOver := true, step := 4 }

/-- At the drain limit of box `b` the time is at least this. -/
def State.drainEnd (s : State) (b : Nat) : Nat := max s.time.t ((s.box b).disabledAt + s.drainLimit b)

theorem exec_boxDrainLimit_eq (hst : (s.box b).state = .draining) (hover : (s.box b).drainOver = false) : ∃ v : State,
    v = (s.setTime (fun u => { u with t := s.drainEnd b })).modBox b BoxSt.drainedOut ∧
    exec (.boxDrainLimit b) s =
      .next ((s.runningItems b).foldl (fun u i => u.failItem i.id (i.drainFail (s.drainEnd b))) v) := by
  refine ⟨_, rfl, ?_⟩
  refine Eq.trans ?_ (congrArg (fun u => (.next u : Ans)) (State.foldl_drainFail (s.runningItems b)
    ((s.setTime (fun u => { u with t := s.drainEnd b })).modBox b BoxSt.drainedOut)))
  show execBoxDrainLimit b s = _
  simp only [execBoxDrainLimit, hst, hover]
  rfl

theorem exec_boxDrainLimit (hs : s.Shape) (hb : b < 64) (hst : (s.box b).state = .draining)
    (hover : (s.box b).drainOver = false) : ∃ t, exec (.boxDrainLimit b) s = .next t ∧ (t.box b).drainOver = true ∧
      (t.box b).step = 4 ∧ t.time = { s.time with t := s.drainEnd b } ∧
      ∀ id i, s.item? id = some i → i.box = b → i.disp = none → i.pos = s.pos → i.state = .started →
        ∃ j, t.item? id = some j ∧ j.disp = some (.failed (i.drainFail (s.drainEnd b))) := by
  obtain ⟨v, hv, hexec⟩ := exec_boxDrainLimit_eq hst hover
  have hstand : BoxesStand v ((s.runningItems b).foldl (fun u i => u.failItem i.id (i.drainFail (s.drainEnd b))) v) :=
    .foldl _ (.refl v) (fun u j => .failItem u j.id _)
  have hvbox : (v.box b).standing = (s.box b).drainedOut.standing := by
    rw [hv]
    exact congrArg BoxSt.standing (State.box_modBox_same (hs.lt_boxes hb) _)
  have hbox := (hstand b).trans hvbox
  refine ⟨_, hexec, congrArg BoxSt.drainOver hbox, congrArg BoxSt.step hbox, ?_, fun id i hi hibox hd hpos hrun => ?_⟩
  · rw [(Leads.foldl _ .refl fun u j hu => State.failItem_leads hu (List.Subset.refl _)).frame.time (by decide), hv]
    rfl
  · have hfirst := find?_filter_of_find? (p := fun i => i.state == .started) (State.find?_ownOpen hi hibox hd hpos)
      (by simpa using hrun)
    have hvi : v.item? id = some i := hv ▸ hi
    exact State.disp_foldl_failItem hfirst hvi hd

/-! ### Quiescing (R267, R268) -/

/-- Completions held are posted: the boxes stand, and of the box's items none is held any more (R268 step 5). -/
theorem BoxesStand.postHeld (s : State) (b : Nat) : BoxesStand s (s.postHeld b) :=
  .foldl _ (.refl s) (fun _ id => (BoxesStand.of_boxes rfl).trans (.postItem _ id))

theorem State.not_held_postHeld {j : Item} (hj : j ∈ (s.postHeld b).items) (hbox : j.box = b) : j.heldCollection = false := by
  by_contra hne
  have h : j.heldCollection = true := by simpa using hne
  obtain ⟨hmem, hnot⟩ := State.held_of_posted (fun _ => rfl) _ hj h
  exact hnot (List.mem_map_of_mem (List.mem_filter.mpr ⟨hmem, by simp [hbox, h]⟩))

theorem exec_boxQuiesce (hs : s.Shape) (hb : b < 64) (hst : (s.box b).state = .draining)
    (h : s.runningItems b = [] ∨ (s.box b).drainOver = true) : ∃ t, exec (.boxQuiesce b) s = .next t ∧
      (t.box b).state = .quiescing ∧ (t.box b).step = 5 ∧ IntRaised .box b 0x100 s t ∧
      ∀ i ∈ t.items, i.box = b → i.heldCollection = false := by
  let v := (s.modBox b (fun x => { x with state := .quiescing, step := 5 })).changed .box b
  have hbox := (BoxesStand.postHeld v b b).trans (congrArg BoxSt.standing (State.box_modBox_same (hs.lt_boxes hb) _))
  refine ⟨v.postHeld b, ?_, congrArg BoxSt.state hbox, congrArg BoxSt.step hbox, ?_, fun i hi => State.not_held_postHeld hi⟩
  · show execBoxQuiesce b s = _
    rcases h with h | h <;> simp [execBoxQuiesce, hst, h, State.when, v]
  · have hv : IntRaised .box b 0x100 s v := State.intRaised_changed .box b rfl
    exact (State.reg_of_regs ((State.postHeld_leads .refl (List.Subset.refl _)).frame.regs (by decide)) _).trans hv

theorem exec_boxQuiesce_of_running (hrun : s.runningItems b ≠ []) (hover : (s.box b).drainOver = false) :
    exec (.boxQuiesce b) s = .next s := by
  show execBoxQuiesce b s = _
  simp [execBoxQuiesce, hrun, hover, State.when]

/-! ### The release (R268 steps 6 to 8) -/

/-- A group that is there after releases was there before and is none of those released. -/
theorem State.mem_groups_of_released {l : List Nat} {g : Group} (h : g ∈ (l.foldl State.releaseGroup s).groups) :
    g ∈ s.groups ∧ g.index ∉ l := by
  induction l generalizing s with
  | nil => exact ⟨h, List.not_mem_nil⟩
  | cons k l ih =>
    obtain ⟨hmem, hl⟩ := ih h
    rw [State.releaseGroup_groups] at hmem
    obtain ⟨hg, hk⟩ := List.mem_filter.mp hmem
    exact ⟨hg, by simpa [hl] using hk⟩

/-- A box as its release leaves it (R268 step 8). -/
def BoxSt.released (x : BoxSt) : BoxSt :=
  { x with
    state := .disabled, session := none, regions := [], subs := [], cq := none, dlq := none, step := 0, drainOver := false }

/-- What goes with the groups of box `b` and their streams: mirrors, look-aside entries, codebooks (R205, R268). -/
def State.dropParts (s : State) (b : Nat) (streams : List Nat) : State :=
  (({ s with mirrors := s.mirrors.filter (fun m => !streams.contains m.stream) } : State).dropLab
    (fun e => e.box == b)).releaseCodebooks b

theorem State.frame_dropParts (s : State) (b : Nat) (streams : List Nat) :
    Frame [.mirrors, .ctr, .cores, .cb] s (s.dropParts b streams) :=
  (State.releaseCodebooks_leads (State.dropLab_leads (Leads.mirrors .refl (by decide)) (by decide)) (by decide)).frame

/-- Before a release ends with the box itself, its groups are gone and no box is lost. -/
theorem State.releaseBox_eq (s : State) (b : Nat) : ∃ u : State, u.boxes.length = s.boxes.length ∧
    (∀ g ∈ u.groups, g.box ≠ b) ∧ s.releaseBox b =
      ((u.modBox b BoxSt.released).changed .box b).event { pageRec .box b 0x0600 .notice with box := some b } := by
  obtain ⟨v, hv⟩ : ∃ v, v = ((s.groupsOf b).map (fun g => g.index)).foldl State.releaseGroup s := ⟨_, rfl⟩
  have hgone : Frame [.ctr, .cores, .places, .groups, .pages, .items] s v := hv ▸
    (Leads.foldl _ .refl fun u g hu => State.releaseGroup_leads hu (List.Subset.refl _)).frame
  obtain ⟨w, hw⟩ : ∃ w, w = v.dropParts b ((s.groupsOf b).flatMap (fun g => g.streams)) := ⟨_, rfl⟩
  have hdrop : Frame [.mirrors, .ctr, .cores, .cb] v w := hw ▸ v.frame_dropParts b _
  refine ⟨(w.keyClear b).releaseHeld (.box b), ?_, fun g hg hbox => ?_, ?_⟩
  · have hlen : (w.keyClear b).boxes.length = w.boxes.length := listModify_length ..
    exact hlen.trans (congrArg List.length ((hdrop.boxes (by decide)).trans (hgone.boxes (by decide))))
  · have hgv : g ∈ v.groups := hdrop.groups (by decide) ▸ hg
    obtain ⟨hgs, hnot⟩ := State.mem_groups_of_released (hv ▸ hgv)
    exact hnot (List.mem_map_of_mem (List.mem_filter.mpr ⟨hgs, by simp [hbox]⟩))
  · rw [hw, State.dropParts, hv]
    rfl

/-- A box as RELEASE leaves it while its moves go on (R269). -/
def BoxSt.leaving (x : BoxSt) : BoxSt := { x with state := .releasing, step := 6 }

theorem exec_boxRelease_eq (hst : (s.box b).state = .quiescing) (hout : s.boxOutstanding b = false) : ∃ v : State,
    v = (s.modBox b BoxSt.leaving).changed .box b ∧
    exec (.boxRelease b) s = .next (v.when (!s.boxMoving b && s.resourceUp) (v.releaseBox b)) := by
  refine ⟨_, rfl, ?_⟩
  show execBoxRelease b s = _
  simp only [execBoxRelease, hst, hout]
  rfl

theorem exec_boxRelease (hs : s.Shape) (hb : b < 64) (hst : (s.box b).state = .quiescing) (hout : s.boxOutstanding b = false)
    (hmove : s.boxMoving b = false) (hup : s.resourceUp = true) : ∃ t, exec (.boxRelease b) s = .next t ∧
      (t.box b).state = .disabled ∧ (t.box b).session = none ∧ (t.box b).subs = [] ∧ (t.box b).cq = none ∧
      (t.box b).regions = [] ∧ (∀ g ∈ t.groups, g.box ≠ b) ∧
      t.log.queue.getLast? = some { pageRec .box b 0x0600 .notice with box := some b } := by
  obtain ⟨v, hv, hexec⟩ := exec_boxRelease_eq hst hout
  obtain ⟨u, hlen, hgroups, hrelease⟩ := v.releaseBox_eq b
  have hvlen : b < v.boxes.length := by
    rw [hv]
    exact (hs.lt_boxes hb).trans_eq (listModify_length ..).symm
  have hbox : ((u.modBox b BoxSt.released).box b) = (u.box b).released := State.box_modBox_same (hlen ▸ hvlen) _
  rw [hmove, hup, hrelease] at hexec
  exact ⟨_, hexec, congrArg BoxSt.state hbox, congrArg BoxSt.session hbox, congrArg BoxSt.subs hbox,
    congrArg BoxSt.cq hbox, congrArg BoxSt.regions hbox, hgroups, List.getLast?_concat⟩

theorem exec_boxRelease_of_moving (hs : s.Shape) (hb : b < 64) (hst : (s.box b).state = .quiescing)
    (hout : s.boxOutstanding b = false) (hmove : s.boxMoving b = true) : ∃ t, exec (.boxRelease b) s = .next t ∧
      (t.box b).state = .releasing ∧ (t.box b).step = 6 ∧ OtherBoxes b s t ∧ t.groups = s.groups ∧
      IntRaised .box b 0x100 s t := by
  obtain ⟨v, rfl, hexec⟩ := exec_boxRelease_eq hst hout
  have hbox : (s.modBox b BoxSt.leaving).box b = (s.box b).leaving := State.box_modBox_same (hs.lt_boxes hb) _
  rw [hmove] at hexec
  exact ⟨_, hexec, congrArg BoxSt.state hbox, congrArg BoxSt.step hbox, .modBox s b _, rfl,
    State.intRaised_changed .box b rfl⟩

theorem exec_boxRelease_early (h : (s.box b).state = .active ∨ (s.box b).state = .draining ∨ (s.box b).state = .disabled ∨
    ((s.box b).state = .quiescing ∧ s.boxOutstanding b = true)) : exec (.boxRelease b) s = .next s := by
  show execBoxRelease b s = _
  rcases h with h | h | h | ⟨h, hout⟩
  · simp [execBoxRelease, h]
  · simp [execBoxRelease, h]
  · simp [execBoxRelease, h]
  · simp [execBoxRelease, h, hout]

end Boxes

/-- Settles O34: DISABLE and the drain limit by the items that fail one after the other, the release by the groups and the
box that it leaves. -/
theorem boxesOpenDrainAndRelease : Obligations.BoxesOpenDrainAndRelease := by
  refine ⟨fun s b se hs hb => ⟨exec_boxEnable hs hb se, exec_boxEnable_of_not_disabled hb se⟩,
    fun s b hs hb => ⟨exec_boxDisable hs hb, exec_boxDisable_of_not_active hb⟩, fun s b hs hb hst hover => ?_,
    fun s b hs hb hst => ⟨exec_boxQuiesce hs hb hst, exec_boxQuiesce_of_running⟩,
    fun s b hs hb hst hout => ⟨exec_boxRelease hs hb hst hout, exec_boxRelease_of_moving hs hb hst hout⟩,
    fun s b => exec_boxRelease_early⟩
  obtain ⟨t, ht, hdrained, hstep, htime, hitems⟩ := exec_boxDrainLimit hs hb hst hover
  refine ⟨t, ht, hdrained, hstep, htime, fun id i hi hbox hd hpos hrun => ?_⟩
  obtain ⟨j, hj, hdisp⟩ := hitems id i hi hbox hd hpos hrun
  exact ⟨j, hj, fun h => hdisp.trans (congrArg (fun f => some (Disp.failed f)) (Item.drainFail_of_no_deadline h _)),
    fun d h hsoft => hdisp.trans (congrArg (fun f => some (Disp.failed f)) (Item.drainFail_of_deadline h hsoft _))⟩

end Sys2Proof.Machine
end

section
/-! What carrying packets leaves alone (R282 to R287): member links stand as they are but for the packets, and what has been
sent out stays sent. -/

namespace Sys2Proof.Machine

-- one theorem after the other: proofs that wait together take too many threads
set_option Elab.async false

/-- A member link without what packets on their way change: line, replay buffer, credits and the next LSEQ. -/
def Link.standing (l : Link) : Link := { l with nextLseq := 0, replay := [], credits := [], shared := 0, txWait := [] }

/-- Packets have gone from line to line: every member link stands as before but for them, and nothing sent is lost. -/
structure Carried (s t : State) : Prop where
  links : ∀ q, (t.link q).standing = (s.link q).standing
  outbox : s.outbox ⊆ t.outbox

section Carried
variable {s t u : State}

theorem Carried.of_parts (hl : t.links = s.links) (ho : t.outbox = s.outbox) : Carried s t :=
  ⟨fun q => congrArg Link.standing (State.link_of_links hl q), fun _ h => ho ▸ h⟩

theorem Carried.refl (s : State) : Carried s s := .of_parts rfl rfl

theorem Carried.trans (h : Carried s t) (k : Carried t u) : Carried s u :=
  ⟨fun q => (k.links q).trans (h.links q), fun _ hm => k.outbox (h.outbox hm)⟩

/-- What comes before differs in other parts only. -/
theorem Carried.after (h : Carried t u) (hl : t.links = s.links) (ho : t.outbox = s.outbox) : Carried s u :=
  (Carried.of_parts hl ho).trans h

theorem Carried.st (h : Carried s t) (q : Nat) : (t.link q).st = (s.link q).st :=
  (congrArg Link.st (h.links q) :)

theorem Carried.version (h : Carried s t) (q : Nat) : (t.link q).version = (s.link q).version :=
  (congrArg Link.version (h.links q) :)

theorem Carried.expectLseq (h : Carried s t) (q : Nat) : (t.link q).expectLseq = (s.link q).expectLseq :=
  (congrArg Link.expectLseq (h.links q) :)

theorem Carried.foldl {α : Type} {f : State → α → State} (h : Carried s t) (hf : ∀ u a, Carried u (f u a)) (l : List α) :
    Carried s (l.foldl f t) :=
  List.foldlRecOn l f h fun u hu a _ => hu.trans (hf u a)

theorem Carried.modLink {f : Link → Link} (s : State) (p : Nat)
    (hf : ∀ l, (f l).standing = l.standing := by exact fun _ => rfl) : Carried s (s.modLink p f) :=
  ⟨fun q => by rw [State.link_modLink]; split; exacts [hf _, rfl], fun _ h => h⟩

theorem Carried.emit (s : State) (o : Out) : Carried s (s.emit o) := ⟨fun _ => rfl, List.subset_cons_self ..⟩

theorem Carried.sendOn (s : State) (p : Nat) (x : TxPkt) : Carried s (s.sendOn p x) :=
  ((Carried.modLink s p).trans (.of_parts (State.bump_links ..) (State.bump_outbox ..))).trans (.emit _ _)

theorem Carried.pumpPort (fuel : Nat) (s : State) (p : Nat) : Carried s (State.pumpPort fuel s p) := by
  induction fuel generalizing s with
  | zero => exact .refl s
  | succ fuel ih =>
    unfold State.pumpPort
    split
    · exact .refl s
    · split
      · exact ((Carried.modLink s p).trans (.sendOn _ p _)).trans (ih _)
      · exact .refl s

theorem Carried.queueOn (s : State) (p : Nat) (x : TxPkt) : Carried s (s.queueOn p x) :=
  (Carried.modLink s p).trans (.pumpPort _ _ p)

theorem Carried.floodPkt (s : State) (x : TxPkt) (arrived : Option Nat) : Carried s (s.floodPkt x arrived) := by
  unfold State.floodPkt
  refine (Carried.refl s).foldl (fun u d => ?_) _
  split
  · exact .refl u
  · split
    · exact .queueOn u _ x
    · exact .refl u

theorem Carried.routePkt (s : State) (x : TxPkt) (arrived : Option Nat) : Carried s (s.routePkt x arrived) := by
  unfold State.routePkt
  split
  · exact .refl s
  · split
    · split
      · exact .queueOn s _ _
      · exact .refl s
    · exact .of_parts rfl rfl

theorem Carried.releaseWaiting (s : State) : Carried s s.releaseWaiting :=
  Carried.after (t := s.setFab (fun f => { f with waiting := [] }))
    (Carried.foldl (.refl _) (fun u (x : Nat × TxPkt) => .routePkt u x.2 none) s.fab.waiting) rfl rfl

theorem Carried.packets (s : State) (dest cls seq : Nat) (msg : PktOut) : Carried s (s.packets dest cls seq msg).2 :=
  .of_parts (s.packets_links dest cls seq msg) ((State.packets_leads .refl (List.Subset.refl _)).frame.outbox (by decide))

/-- A message is sent out, and its packets go on their way (R282). -/
theorem Carried.floodMsg (s : State) (msg : PktOut) : Carried (s.emit (.flood s.fab.floodSeq msg)) (s.floodMsg msg) := by
  unfold State.floodMsg
  refine Carried.foldl ?_ (fun u x => .floodPkt u x none) _
  exact (Carried.packets _ 0 0 s.fab.floodSeq msg).after rfl rfl

theorem Carried.flooded (s : State) (msg : PktOut) : Carried s (s.floodMsg msg) := (Carried.emit s _).trans (.floodMsg s msg)

theorem State.mem_outbox_floodMsg (s : State) (msg : PktOut) :
    Out.flood s.fab.floodSeq msg ∈ (s.floodMsg msg).outbox :=
  (Carried.floodMsg s msg).outbox List.mem_cons_self

theorem Carried.bundleChange (s : State) (p : Nat) (old : BundleSt) : Carried s (s.bundleChange p old) := by
  unfold State.bundleChange
  dsimp only
  split
  · exact .refl s
  · split
    · exact .of_parts rfl rfl
    · exact (Carried.flooded _ _).after rfl rfl

theorem State.moveLink_eq (s : State) (p : Nat) (f : Link → Link) : s.moveLink p f =
    ((s.modLink p f).changed .link p).bundleChange p (s.bundle (portDir s.systemSize p).1) := rfl

/-- A member link goes into another state; that its bundle changes is told in packets. -/
theorem Carried.moveLink (s : State) (p : Nat) (f : Link → Link) : Carried (s.modLink p f) (s.moveLink p f) := by
  rw [State.moveLink_eq]
  exact (Carried.bundleChange ((s.modLink p f).changed .link p) p _).after rfl rfl

/-- A member link leaves UP; what it had to carry goes to another line, or waits. -/
theorem Carried.leaveUp (s : State) (p : Nat) (st : LinkSt) :
    Carried (s.modLink p (fun l => l.left st)) (s.leaveUp p st) := by
  unfold State.leaveUp
  dsimp only
  refine Carried.foldl ?_ (fun u x => ?_) _
  · exact (Carried.moveLink s p (fun l => l.left st)).trans
      (.of_parts ((State.event_links ..).trans (State.bump_links ..)) ((State.event_outbox ..).trans (State.bump_outbox ..)))
  · split
    · exact .queueOn u _ x
    · exact .of_parts rfl rfl

theorem State.st_modLink_ne {p q : Nat} (h : q ≠ p) (f : Link → Link) : ((s.modLink p f).link q).st = (s.link q).st := by
  rw [State.link_modLink, if_neg (fun e => h e.1.symm)]

end Carried

end Sys2Proof.Machine
end

section
/-! The states of member links (R277, R278, R280, R423): a change of state that bundles do not see, and how a link comes UP
and leaves UP. -/

namespace Sys2Proof.Machine

-- one theorem after the other: proofs that wait together take too many threads
set_option Elab.async false

section MemberLinks
variable {s t : State} {p : Nat}

/-! ### Bundles while a link changes (R279) -/

/-- Link registers of page 0 past the common ones are no page's INT_STAT. -/
theorem fabReg_ne_intStat {o : Nat} (p : Nat) (ho : 0x40 ≤ o ∧ o < 0x1000) :
    regAddr .link 0 o ≠ regAddr .link p Reg.intStat := by
  simp only [regAddr, Pg.base, Reg.intStat]
  split <;> split <;> omega

theorem OtherRegs.systemSize (h : OtherRegs [regAddr .link p Reg.intStat] s t) : t.systemSize = s.systemSize := by
  have hreg : t.regN .link 0 Reg.link_fabSize = s.regN .link 0 Reg.link_fabSize :=
    h.regN (List.mem_singleton.not.mpr (fabReg_ne_intStat p (by decide)))
  simp only [State.systemSize, State.field, hreg]

/-- A bundle goes by which of its members are UP. -/
theorem OtherRegs.bundle (h : OtherRegs [regAddr .link p Reg.intStat] s t)
    (hup : ∀ q, (t.link q).st = .up ↔ (s.link q).st = .up) (d : Nat) : t.bundle d = s.bundle d := by
  have hreg : t.regN .link 0 Reg.link_fabBundleMin = s.regN .link 0 Reg.link_fabBundleMin :=
    h.regN (List.mem_singleton.not.mpr (fabReg_ne_intStat p (by decide)))
  have hports : t.upPorts d = s.upPorts d := by
    rw [State.upPorts, State.upPorts, h.systemSize]
    exact List.filter_congr fun q _ => by simp only [Bool.beq_eq_decide_eq, hup q]
  unfold State.bundle State.field
  rw [hports, h.systemSize, hreg]

/-- A link that was not UP and does not come UP changes alone: its bundle stays what it was. -/
theorem State.moveLink_of_not_up {f : Link → Link} (hst : (s.link p).st ≠ .up) (hf : (f (s.link p)).st ≠ .up) :
    s.moveLink p f = (s.modLink p f).changed .link p := by
  have hregs : OtherRegs [regAddr .link p Reg.intStat] s ((s.modLink p f).changed .link p) :=
    State.otherRegs_intStat_changed .link p rfl
  have hup : ∀ q, (((s.modLink p f).changed .link p).link q).st = .up ↔ (s.link q).st = .up := fun q => by
    show ((s.modLink p f).link q).st = .up ↔ _
    rw [State.link_modLink]
    split
    · rename_i h
      rw [← h.1]
      exact iff_of_false hf hst
    · exact Iff.rfl
  rw [State.moveLink_eq]
  unfold State.bundleChange
  dsimp only
  rw [hregs.systemSize, hregs.bundle hup, if_pos rfl]

/-- Link `p` alone changes, to `l`, and raises STATUS_CHANGE of its page. -/
structure LinkNoted (p : Nat) (l : Link) (s t : State) : Prop where
  link : t.link p = l
  others : OtherLinks p s t
  raised : IntRaised .link p 0x100 s t
  regs : OtherRegs [regAddr .link p Reg.intStat] s t
  log : t.log = s.log

theorem State.linkNoted_moveLink (hp : p < s.links.length) {f : Link → Link} (hst : (s.link p).st ≠ .up)
    (hf : (f (s.link p)).st ≠ .up) : LinkNoted p (f (s.link p)) s (s.moveLink p f) := by
  rw [State.moveLink_of_not_up hst hf]
  exact ⟨State.link_modLink_same hp f, (OtherLinks.of_links rfl).modLink f, State.intRaised_changed .link p rfl,
    State.otherRegs_intStat_changed .link p rfl, rfl⟩

/-! ### A link that leaves UP (R280, R284) -/

theorem State.otherRegs_bundleChange (s : State) (p : Nat) (old : BundleSt) :
    OtherRegs [regAddr .link p Reg.intStat] s (s.bundleChange p old) := by
  unfold State.bundleChange
  dsimp only
  split
  · exact .refl _ s
  · have hnoted : ∀ d n, OtherRegs [regAddr .link p Reg.intStat] s ((s.changed .link p).noteBundle s.pos d n false) :=
      fun d n => State.otherRegs_intStat_changed .link p rfl
    split
    · exact hnoted _ _
    · exact (hnoted _ _).trans (.of_regs ((State.floodMsg_leads .refl (List.Subset.refl _)).frame.regs (by decide)))

theorem State.otherRegs_moveLink (s : State) (p : Nat) (f : Link → Link) :
    OtherRegs [regAddr .link p Reg.intStat] s (s.moveLink p f) := by
  rw [State.moveLink_eq]
  exact (State.otherRegs_intStat_changed (t := s.modLink p f) .link p rfl).trans (State.otherRegs_bundleChange _ p _)

/-- What leaving UP does once the link has moved: its count, its record, and its packets to other lines. -/
theorem State.leaveUp_frame (s : State) (p : Nat) (st : LinkSt) :
    Frame [.outbox, .ctr, .fab, .links] (((s.moveLink p (fun l => l.left st)).bump .link p 10 1).event
      { pageRec .link p 0x0700 .warning with a := st.code }) (s.leaveUp p st) := by
  unfold State.leaveUp
  dsimp only
  refine (Leads.foldl _ .refl (fun u x hu => ?_)).frame
  split
  · exact State.queueOn_leads hu (by decide)
  · exact State.setFab_leads hu (by decide)

theorem State.otherRegs_leaveUp (s : State) (p : Nat) (st : LinkSt) :
    OtherRegs [regAddr .link p Reg.intStat] s (s.leaveUp p st) :=
  (s.otherRegs_moveLink p _).trans
    (.of_regs (((s.leaveUp_frame p st).regs (by decide)).trans ((State.event_regs ..).trans (State.bump_regs ..))))

theorem State.log_leaveUp (s : State) (p : Nat) (st : LinkSt) : (s.leaveUp p st).log = { s.log with
    queue := s.log.queue ++ [{ pageRec .link p 0x0700 .warning with a := st.code }] } := by
  have hmoved : (s.moveLink p (fun l => l.left st)).log = s.log :=
    (State.moveLink_leads .refl (List.Subset.refl _)).frame.log (by decide)
  rw [(s.leaveUp_frame p st).log (by decide), State.event_log, State.bump_log, hmoved]

theorem State.st_leaveUp_ne {q : Nat} (h : q ≠ p) (st : LinkSt) : ((s.leaveUp p st).link q).st = (s.link q).st :=
  ((Carried.leaveUp s p st).st q).trans (State.st_modLink_ne h _)

theorem State.st_moveLink_ne {q : Nat} (h : q ≠ p) (f : Link → Link) : ((s.moveLink p f).link q).st = (s.link q).st :=
  ((Carried.moveLink s p f).st q).trans (State.st_modLink_ne h _)

/-! ### DETECT, TRAIN and NEGOTIATE (R278, R280, R423) -/

section States
variable (hs : s.Shape) (hp : p < 24)
include hs hp

theorem exec_linkDetect {a b c d : Nat} (hst : (s.link p).st = .detect) (hen : s.linkEnabled p = true) (ha : a < 6)
    (hb : b < 6) (hc : c < 6) (hd : d < 6) : ∃ t, exec (.linkDetect p a b c d) s = .next t ∧
      LinkNoted p { s.link p with
        lanes := [a, b, c, d], lanesOk := 0, polarity := false, reversed := false
        st := (if (a = 0 ∨ a = 5) ∧ (b = 0 ∨ b = 5) ∧ (c = 0 ∨ c = 5) ∧ (d = 0 ∨ d = 5) then .train else .detect) } s t := by
  let f : Link → Link := fun l => { l with
    lanes := [a, b, c, d], lanesOk := 0, polarity := false, reversed := false
    st := (if (a = 0 ∨ a = 5) ∧ (b = 0 ∨ b = 5) ∧ (c = 0 ∨ c = 5) ∧ (d = 0 ∨ d = 5) then .train else .detect) }
  have hf : (f (s.link p)).st ≠ .up := by dsimp only [f]; split <;> decide
  refine ⟨_, ?_, State.linkNoted_moveLink (hs.lt_links hp) (f := f) (by rw [hst]; decide) hf⟩
  show execLinkDetect p a b c d s = _
  simp [execLinkDetect, State.when, hp, hst, hen, ha, hb, hc, hd, f]

/-- A link trained with a far end: the topology's, or another one. -/
def Link.trained (l : Link) (ok : Bool) (fp fq fs : Nat) (pol rev : Bool) : Link :=
  { l with
    st := if ok then .negotiate else .miswired
    lanesOk := 15, polarity := pol, reversed := rev, nPos := fp % 64, nPort := fq % 32, nStepping := fs % 2 }

theorem exec_linkTrainDone_eq {fp fq fs : Nat} {pol rev ok : Bool} (hst : (s.link p).st = .train ∨ (s.link p).st = .retrain)
    (hen : s.linkEnabled p = true) (hok : decide (s.farEnd p = some (fp, fq)) = ok) :
    ∃ u, LinkNoted p ((s.link p).trained ok fp fq fs pol rev) s u ∧ exec (.linkTrainDone p fp fq fs pol rev) s =
      .next (u.when (!ok) (u.event { pageRec .link p 0x0701 .error with a := fp, b := fq })) := by
  have hup : (s.link p).st ≠ .up := by rcases hst with h | h <;> rw [h] <;> decide
  have hf : ((s.link p).trained ok fp fq fs pol rev).st ≠ .up := by
    dsimp only [Link.trained]
    split <;> decide
  refine ⟨_, State.linkNoted_moveLink (hs.lt_links hp) (f := fun l => l.trained ok fp fq fs pol rev) hup hf, ?_⟩
  show execLinkTrainDone p fp fq fs pol rev s = _
  unfold execLinkTrainDone
  dsimp only
  rw [if_neg (not_not.mpr ⟨hp, hst.imp_right .inl, hen⟩), hok]
  rfl

theorem exec_linkTrainDone {fp fq fs : Nat} {pol rev : Bool} (hst : (s.link p).st = .train ∨ (s.link p).st = .retrain)
    (hen : s.linkEnabled p = true) (hfar : s.farEnd p = some (fp, fq)) :
    ∃ t, exec (.linkTrainDone p fp fq fs pol rev) s = .next t ∧
      LinkNoted p ((s.link p).trained true fp fq fs pol rev) s t := by
  obtain ⟨u, hu, hexec⟩ := exec_linkTrainDone_eq (fs := fs) (pol := pol) (rev := rev) hs hp hst hen (decide_eq_true hfar)
  exact ⟨u, hexec, hu⟩

theorem exec_linkTrainDone_miswired {fp fq fs : Nat} {pol rev : Bool}
    (hst : (s.link p).st = .train ∨ (s.link p).st = .retrain) (hen : s.linkEnabled p = true)
    (hfar : s.farEnd p ≠ some (fp, fq)) : ∃ t, exec (.linkTrainDone p fp fq fs pol rev) s = .next t ∧ OtherLinks p s t ∧
      (t.link p).st = .miswired ∧ Recorded { pageRec .link p 0x0701 .error with a := fp, b := fq } s t := by
  obtain ⟨u, hu, hexec⟩ := exec_linkTrainDone_eq (fs := fs) (pol := pol) (rev := rev) hs hp hst hen (decide_eq_false hfar)
  refine ⟨_, hexec, hu.others, congrArg Link.st hu.link, ?_⟩
  rw [Recorded, ← hu.log]
  rfl

/-- Before formation a link comes UP at the lower of the two versions; packets that waited go on their way. -/
theorem exec_linkNegotiate {v : Nat} (hst : (s.link p).st = .negotiate) (hv : 1 ≤ v) (hrole : s.fab.role = .none)
    (hver : s.fab.sysVer = 0) : ∃ t, exec (.linkNegotiate p v) s = .next t ∧ (t.link p).st = .up ∧
      (t.link p).version = min s.ownVersion v ∧ (t.link p).expectLseq = 0 ∧ ∀ q, q ≠ p → (t.link q).st = (s.link q).st := by
  let f : Link → Link := fun l => { l.bringUp .up with version := min s.ownVersion v }
  let u := s.moveLink p f
  let t := (State.pumpPort (u.link p).txWait.length u p).releaseWaiting
  have ht : Carried (s.modLink p f) t :=
    ((Carried.moveLink s p f).trans (.pumpPort _ u p)).trans (.releaseWaiting _)
  have hlink : (s.modLink p f).link p = f (s.link p) := State.link_modLink_same (hs.lt_links hp) f
  refine ⟨t, ?_, (ht.st p).trans (congrArg Link.st hlink), (ht.version p).trans (congrArg Link.version hlink),
    (ht.expectLseq p).trans (congrArg Link.expectLseq hlink), fun q hq => (ht.st q).trans (State.st_modLink_ne hq f)⟩
  show execLinkNegotiate p v s = _
  unfold execLinkNegotiate State.linkGoal
  dsimp only
  rw [if_neg (not_not.mpr ⟨hp, hst, hv⟩), if_pos hver, if_pos (.inl hrole)]

/-! ### RETRAIN, DOWN and ENABLE (R278, R280) -/

theorem exec_linkRetrain {r : Nat} (hup : (s.link p).st = .up) (hr : r = 0 ∨ r = 2 ∨ (r = 1 ∧ 8 ≤ (s.link p).replays)) :
    exec (.linkRetrain p r) s = .next (s.leaveUp p .retrain) ∧
      (s.leaveUp p .retrain).link p = (s.link p).left .retrain := by
  refine ⟨?_, State.link_leaveUp (hs.lt_links hp) (by decide)⟩
  show execLinkRetrain p r s = _
  have hreason : r ≤ 2 ∧ (r = 1 → 8 ≤ (s.link p).replays) := by omega
  simp only [execLinkRetrain, hp, hup, hreason.1, true_and, decide_eq_true hreason.2, State.when_true]

theorem exec_retrainTimeout (hst : (s.link p).st = .retrain) : ∃ t, exec (.retrainTimeout p) s = .next t ∧
    LinkNoted p { s.link p with st := .down } s t := by
  refine ⟨_, ?_, State.linkNoted_moveLink (hs.lt_links hp) (f := fun l => { l with st := .down })
    (by rw [hst]; decide) (by simp)⟩
  show execRetrainTimeout p s = _
  simp only [execRetrainTimeout, hp, hst, and_self, decide_true, State.when_true]

theorem exec_linkDownRetry (hst : (s.link p).st = .down ∨ (s.link p).st = .train) :
    ∃ t, exec (.linkDownRetry p) s = .next t ∧ LinkNoted p { s.link p with st := .detect } s t := by
  refine ⟨_, ?_, State.linkNoted_moveLink (hs.lt_links hp) (f := fun l => { l with st := .detect })
    (by rcases hst with h | h <;> rw [h] <;> decide) (by simp)⟩
  show execLinkDownRetry p s = _
  rw [execLinkDownRetry, decide_eq_true (And.intro hp hst), State.when_true]

theorem exec_retrain (hst : (s.link p).st = .up ∨ (s.link p).st = .miswired) : ∃ t, exec (.retrain p) s = .next t ∧
    (t.link p).st = .retrain ∧ ∀ q, q ≠ p → (t.link q).st = (s.link q).st := by
  have hexec : exec (.retrain p) s = .next (s.retrainPort p) := by
    show execRetrain p s = _
    rw [execRetrain, decide_eq_true hp, State.when_true]
  refine ⟨_, hexec, ?_⟩
  rcases hst with h | h
  · rw [State.retrainPort, if_pos h, State.link_leaveUp (hs.lt_links hp) (by decide)]
    exact ⟨rfl, fun q hq => State.st_leaveUp_ne hq _⟩
  · rw [State.retrainPort, if_neg (by rw [h]; decide), if_pos h]
    have hmoved := State.linkNoted_moveLink (hs.lt_links hp) (f := fun l => { l with st := .retrain })
      (by rw [h]; decide) (by simp)
    exact ⟨congrArg Link.st hmoved.link, fun q hq => State.st_moveLink_ne hq _⟩

omit hs hp in
theorem exec_retrain_of_other (hup : (s.link p).st ≠ .up) (hmis : (s.link p).st ≠ .miswired) :
    exec (.retrain p) s = .next s := by
  show execRetrain p s = _
  rw [execRetrain, State.retrainPort, if_neg hup, if_neg hmis, State.when, ite_self]

omit hs hp in
theorem State.linkEnabled_setField (s : State) (p : Nat) (on : Bool) :
    (s.setField .link p Reg.link_linkCtrl 0 0 (b2n on)).linkEnabled p = on := by
  simp only [State.linkEnabled, State.regN, State.setField, State.reg_setReg_same, BitVec.toNat_ofNat, bit, setBits, bits,
    b2n]
  cases on <;> simp <;> omega

omit hs hp in
theorem OtherRegs.linkEnabled {as : List Nat} (h : OtherRegs as s t) (ha : regAddr .link p Reg.link_linkCtrl ∉ as) :
    t.linkEnabled p = s.linkEnabled p := congrArg (bit · 0) (h.regN ha)

omit hs hp in
theorem linkCtrl_notMem_intStat (p : Nat) : regAddr .link p Reg.link_linkCtrl ∉ [regAddr .link p Reg.intStat] := by
  simp only [List.mem_singleton, regAddr_inj]
  decide

omit hs hp in
theorem State.lanesOk_clearLanes (s : State) (p : Nat) :
    ((s.modLink p (fun l => { l with lanesOk := 0 })).link p).lanesOk = 0 := by
  rw [State.link_modLink]
  split
  · rfl
  · rename_i h
    rw [State.link, List.getD_eq_default _ _ (Nat.not_lt.mp fun hlt => h ⟨rfl, hlt⟩)]

omit hs in
theorem exec_linkEnableWrite_eq (on : Bool) : exec (.linkEnableWrite p on) s = .next (s.enableLink p on) := by
  show execLinkEnableWrite p on s = _
  rw [execLinkEnableWrite, decide_eq_true hp, State.when_true]

theorem exec_linkEnableWrite_disabled (hst : (s.link p).st = .disabled) : ∃ t, exec (.linkEnableWrite p true) s = .next t ∧
    (t.link p).st = .detect ∧ OtherLinks p s t ∧ t.linkEnabled p = true := by
  let u := s.setField .link p Reg.link_linkCtrl 0 0 (b2n true)
  let v := u.setField .link p Reg.link_prbsCtrl 9 8 0
  have hmoved := State.linkNoted_moveLink (s := v) (f := fun l => { l with st := .detect }) (hs.lt_links hp)
    (show (s.link p).st ≠ .up by rw [hst]; decide) (by simp)
  have hctrl : v.linkEnabled p = true :=
    ((u.otherRegs_setReg _ _).linkEnabled (by simp only [List.mem_singleton, regAddr_inj]; decide)).trans
      (s.linkEnabled_setField p true)
  have hexec : s.enableLink p true = v.moveLink p (fun l => { l with st := .detect }) := by
    unfold State.enableLink
    dsimp only
    exact if_pos ⟨rfl, hst⟩
  rw [← hexec] at hmoved
  have hothers : OtherLinks p s (s.enableLink p true) := hmoved.others
  exact ⟨_, exec_linkEnableWrite_eq hp true, congrArg Link.st hmoved.link, hothers,
    (hmoved.regs.linkEnabled (linkCtrl_notMem_intStat p)).trans hctrl⟩

omit hs in
theorem exec_linkEnableWrite_of_other (hst : (s.link p).st ≠ .disabled) : ∃ t, exec (.linkEnableWrite p true) s = .next t ∧
    t.links = s.links ∧ t.linkEnabled p = true := by
  refine ⟨s.setField .link p Reg.link_linkCtrl 0 0 (b2n true), (exec_linkEnableWrite_eq hp true).trans (congrArg _ ?_), rfl,
    s.linkEnabled_setField p true⟩
  unfold State.enableLink
  dsimp only
  rw [if_neg (fun h => hst h.2), if_neg (fun h => Bool.false_ne_true h.1)]

theorem exec_linkEnableWrite_off (hen : s.linkEnabled p = true) : ∃ t, exec (.linkEnableWrite p false) s = .next t ∧
    (t.link p).st = .disabled ∧ (t.link p).lanesOk = 0 ∧ t.linkEnabled p = false ∧
    ∀ q, q ≠ p → (t.link q).st = (s.link q).st := by
  let u := s.setField .link p Reg.link_linkCtrl 0 0 (b2n false)
  let w := if (u.link p).st = .up then u.leaveUp p .disabled else u.moveLink p (fun l => { l with st := .disabled })
  have hw : (w.link p).st = .disabled ∧ OtherRegs [regAddr .link p Reg.intStat] u w ∧
      ∀ q, q ≠ p → (w.link q).st = (s.link q).st := by
    dsimp only [w]
    split
    · rw [State.link_leaveUp (s := u) (hs.lt_links hp) (by decide)]
      exact ⟨rfl, u.otherRegs_leaveUp p _, fun q hq => State.st_leaveUp_ne (s := u) hq _⟩
    · have hmoved := State.linkNoted_moveLink (s := u) (f := fun l => { l with st := .disabled }) (hs.lt_links hp)
        ‹_› (by simp)
      exact ⟨congrArg Link.st hmoved.link, hmoved.regs, fun q hq => State.st_moveLink_ne (s := u) hq _⟩
  obtain ⟨hst, hregs, hother⟩ := hw
  refine ⟨_, (exec_linkEnableWrite_eq hp false).trans (congrArg _ ?_), ?_, w.lanesOk_clearLanes p,
    (hregs.linkEnabled (linkCtrl_notMem_intStat p)).trans (s.linkEnabled_setField p false),
    fun q hq => (State.st_modLink_ne hq _).trans (hother q hq)⟩
  · unfold State.enableLink
    dsimp only
    rw [if_neg (fun h => Bool.false_ne_true h.1), if_pos ⟨rfl, hen⟩]
  · rw [State.link_modLink]
    split <;> exact hst

end States
end MemberLinks

/-- Settles O36: a link that is not UP changes alone; one that is UP leaves it with its packets, and one that comes UP
changes in nothing but packets after that. -/
theorem linksDetectTrainAndComeUp : Obligations.LinksDetectTrainAndComeUp := by
  refine ⟨fun s p a b c d hs hp hst hen ha hb hc hd => ?_, fun s p fp fq fs pol rev hs hp hst hen => ⟨fun hfar => ?_,
    exec_linkTrainDone_miswired hs hp hst hen⟩, fun s p v hs hp hst hv hrole hver => exec_linkNegotiate hs hp hst hv hrole hver,
    fun s p r hs hp hst hr => ?_, fun s p hs hp hst => ?_, fun s p hs hp hst => ?_,
    fun s p hs hp => ⟨exec_retrain hs hp, exec_retrain_of_other⟩,
    fun s p hs hp => ⟨exec_linkEnableWrite_disabled hs hp, exec_linkEnableWrite_of_other hp, exec_linkEnableWrite_off hs hp⟩⟩
  · obtain ⟨t, ht, hnoted⟩ := exec_linkDetect hs hp hst hen ha hb hc hd
    exact ⟨t, ht, hnoted.others, hnoted.raised, hnoted.link⟩
  · obtain ⟨t, ht, hnoted⟩ := exec_linkTrainDone (fs := fs) (pol := pol) (rev := rev) hs hp hst hen hfar
    exact ⟨t, ht, hnoted.others, hnoted.link, hnoted.log⟩
  · obtain ⟨ht, hleft⟩ := exec_linkRetrain hs hp hst hr
    refine ⟨_, ht, ?_, ?_, ?_, ?_, fun q hq => State.st_leaveUp_ne hq _, [], by rw [State.log_leaveUp]⟩ <;> rw [hleft] <;> rfl
  · obtain ⟨t, ht, hnoted⟩ := exec_retrainTimeout hs hp hst
    exact ⟨t, ht, hnoted.link, hnoted.others, hnoted.raised⟩
  · obtain ⟨t, ht, hnoted⟩ := exec_linkDownRetry hs hp hst
    exact ⟨t, ht, hnoted.link, hnoted.others⟩

end Sys2Proof.Machine
end

section
/-! What the fabric keeps while messages travel, items fail and links are fenced (R275, R287, R288, R292): roles, epochs,
members, routes and the state of a route change. -/

namespace Sys2Proof.Machine

-- one theorem after the other: proofs that wait together take too many threads
set_option Elab.async false

/-- The fabric without packets, messages, reports of others and the standby: who serves under which epoch, the routes, the
route change under way, and the last command's result. -/
def Fabric.standing (f : Fabric) : Fabric :=
  { role := f.role, epoch := f.epoch, prevEpoch := f.prevEpoch, members := f.members, manager := f.manager
    noMajority := f.noMajority, routes := f.routes, routeGen := f.routeGen, work := f.work, stopped := f.stopped
    cmdResult := f.cmdResult }

/-- Roles, epochs, members, routes and the route change under way are as before. -/
def FabStands (s t : State) : Prop := t.fab.standing = s.fab.standing

section Stands
variable {s t u : State}

namespace FabStands

theorem of_fab (h : t.fab = s.fab) : FabStands s t := congrArg Fabric.standing h

theorem refl (s : State) : FabStands s s := .of_fab rfl

theorem trans (h : FabStands s t) (k : FabStands t u) : FabStands s u := Eq.trans k h

/-- What comes before differs in other parts only. -/
theorem after (h : FabStands t u) (hf : t.fab = s.fab) : FabStands s u := (of_fab hf).trans h

theorem role (h : FabStands s t) : t.fab.role = s.fab.role := (congrArg Fabric.role h :)
theorem epoch (h : FabStands s t) : t.fab.epoch = s.fab.epoch := (congrArg Fabric.epoch h :)
theorem prevEpoch (h : FabStands s t) : t.fab.prevEpoch = s.fab.prevEpoch := (congrArg Fabric.prevEpoch h :)
theorem members (h : FabStands s t) : t.fab.members = s.fab.members := (congrArg Fabric.members h :)
theorem manager (h : FabStands s t) : t.fab.manager = s.fab.manager := (congrArg Fabric.manager h :)
theorem routes (h : FabStands s t) : t.fab.routes = s.fab.routes := (congrArg Fabric.routes h :)
theorem routeGen (h : FabStands s t) : t.fab.routeGen = s.fab.routeGen := (congrArg Fabric.routeGen h :)
theorem work (h : FabStands s t) : t.fab.work = s.fab.work := (congrArg Fabric.work h :)
theorem stopped (h : FabStands s t) : t.fab.stopped = s.fab.stopped := (congrArg Fabric.stopped h :)

theorem member (h : FabStands s t) (p : Nat) : t.member p = s.member p := congrArg (·.getD p .absent) h.members

theorem foldl {α : Type} {f : State → α → State} (h : FabStands s t) (hf : ∀ u a, FabStands u (f u a)) (l : List α) :
    FabStands s (l.foldl f t) :=
  List.foldlRecOn l f h fun u hu a _ => hu.trans (hf u a)

theorem setFab {f : Fabric → Fabric} (s : State) (hf : ∀ x, (f x).standing = x.standing := by exact fun _ => rfl) :
    FabStands s (s.setFab f) := hf s.fab

/-- The same update on either side. -/
theorem update (h : FabStands s t) (f : Fabric → Fabric)
    (hf : ∀ x, (f x).standing = (f x.standing).standing := by exact fun _ => rfl) : FabStands (s.setFab f) (t.setFab f) :=
  (hf t.fab).trans ((congrArg (fun x => (f x).standing) h).trans (hf s.fab).symm)

/-! ### Messages and packets (R282, R286, R287) -/

theorem routePkt (s : State) (x : TxPkt) (arrived : Option Nat) : FabStands s (s.routePkt x arrived) := by
  unfold State.routePkt
  split
  · exact .refl s
  · split
    · split
      · exact .of_fab ((State.queueOn_leads .refl (List.Subset.refl _)).frame.fab (by decide))
      · exact .refl s
    · exact setFab s (f := fun f => { f with waiting := _ })

theorem sendPlain (s : State) (dest cls seq : Nat) (msg : PktOut) : FabStands s (s.sendPlain dest cls seq msg) := by
  have hpackets : ((s.emit (.routed dest cls seq msg)).packets dest cls seq msg).2.fab = s.fab :=
    (State.packets_leads .refl (List.Subset.refl _)).frame.fab (by decide)
  exact foldl (of_fab hpackets) (fun u x => routePkt u x none) _

theorem sendMsg (s : State) (dest cls : Nat) (msg : PktOut) : FabStands s (s.sendMsg dest cls msg) := by
  unfold State.sendMsg
  dsimp only
  split
  · exact setFab s
  · exact (setFab s).trans (sendPlain _ dest cls _ msg)

theorem releaseWaiting (s : State) : FabStands s s.releaseWaiting :=
  foldl (f := fun (u : State) (x : Nat × TxPkt) => u.routePkt x.2 none) (setFab s) (fun u x => routePkt u x.2 none) _

end FabStands

/-- A flooded message takes the next number, and is known here from now on (R282). -/
theorem State.floodMsg_fab (s : State) (msg : PktOut) : (s.floodMsg msg).fab = { s.fab with
    floodSeq := (s.fab.floodSeq + 1) % 2 ^ 32, flood := ((s.pos, s.fab.floodSeq) :: s.fab.flood).take 4096 } := by
  unfold State.floodMsg
  refine List.foldlRecOn (motive := fun u : State => u.fab = _) _ _
    ((State.packets_leads .refl (List.Subset.refl _)).frame.fab (by decide)) (fun u hu x _ => ?_)
  exact ((State.floodPkt_leads .refl (List.Subset.refl _)).frame.fab (by decide)).trans hu

namespace FabStands

theorem floodMsg (s : State) (msg : PktOut) : FabStands s (s.floodMsg msg) := by
  unfold FabStands
  rw [State.floodMsg_fab]
  rfl

/-! ### Links and what is on its way (R280, R292) -/

theorem noteBundle (s : State) (p d n : Nat) (lost : Bool) : FabStands s (s.noteBundle p d n lost) := setFab s

theorem bundleChange (s : State) (p : Nat) (old : BundleSt) : FabStands s (s.bundleChange p old) := by
  unfold State.bundleChange
  dsimp only
  split
  · exact .refl s
  · split
    · exact (noteBundle (s.changed .link p) _ _ _ _).after rfl
    · exact ((noteBundle (s.changed .link p) _ _ _ _).after rfl).trans (floodMsg _ _)

theorem moveLink (s : State) (p : Nat) (f : Link → Link) : FabStands s (s.moveLink p f) := by
  rw [State.moveLink_eq]
  exact (bundleChange ((s.modLink p f).changed .link p) p _).after rfl

theorem leaveUp (s : State) (p : Nat) (st : LinkSt) : FabStands s (s.leaveUp p st) := by
  unfold State.leaveUp
  dsimp only
  refine foldl ((moveLink s p _).trans (of_fab ((State.event_fab ..).trans (State.bump_fab ..)))) (fun u x => ?_) _
  split
  · exact .of_fab ((State.queueOn_leads .refl (List.Subset.refl _)).frame.fab (by decide))
  · exact setFab u

theorem fencePorts (s : State) (p : Nat) : FabStands s (s.fencePorts p) := by
  refine foldl (.refl s) (fun u n => ?_) _
  split
  · exact .refl u
  · split
    · exact leaveUp u n _
    · exact moveLink u n _

theorem rebuddy (s : State) (old new : Nat) : FabStands s (s.rebuddy old new) :=
  foldl (.refl s) (fun u _ => (sendMsg (u.modGroup _ _) new 3 _).after rfl) _

theorem buddyLost (s : State) (p : Nat) : FabStands s (s.buddyLost p) := by
  unfold State.buddyLost
  dsimp only
  split
  · exact .refl s
  · generalize hu : List.foldl _ s (s.buddyGroups p) = u
    have hmarked : FabStands s u := by
      rw [← hu]
      exact foldl (.refl s) (fun u g => foldl (.refl u) (fun u n => .of_fab (State.modPlace_fab u n _)) _) _
    have hasked : FabStands s (u.nextBuddy p).2 :=
      hmarked.trans (.of_fab ((State.nextBuddy_leads .refl (List.Subset.refl _)).frame.fab (by decide)))
    split
    · exact hmarked
    · split
      · exact hasked.trans (rebuddy _ _ _)
      · exact hasked

theorem setMember (h : FabStands s t) (p : Nat) (m : Member) : FabStands (s.setMember p m) (t.setMember p m) :=
  h.update (fun f => { f with members := f.members.set p m })

/-- Of the fabric a death changes only the member's state, besides what is on its way (R292). -/
theorem applyDeath (s : State) (p : Nat) : FabStands (s.setMember p .dead) (s.applyDeath p) := by
  have hforgot : FabStands (s.setMember p .dead) ((s.setMember p .dead).setFab (fun f => f.forget p)) := setFab _
  have hadopt : ∀ v : State, FabStands v (v.adopt p) := fun v =>
    .of_fab ((State.adopt_leads .refl (List.Subset.refl _)).frame.fab (by decide))
  exact ((hforgot.trans (fencePorts _ p)).trans (hadopt _)).trans (buddyLost _ p)

/-- An admission too (R298): besides what is on its way, it makes the member a SPARE. -/
theorem admitMember (s : State) (p : Nat) : FabStands (s.setMember p .spare) (s.admitMember p) := by
  refine foldl (setFab _) (fun u n => ?_) _
  split
  · exact (moveLink u n _).trans
      (.of_fab ((State.pumpPort_leads .refl (List.Subset.refl _)).frame.fab (by decide)))
  · exact .refl u

/-! ### Items, results and images sent (R294, R324, R336) -/

theorem postItem (s : State) (id : Nat) : FabStands s (s.postItem id) := by
  have hpost : ∀ (i : Item) (dead : Bool) (body : Nat), FabStands s (s.post i dead body) := fun i dead body => by
    unfold State.post
    split
    · exact sendMsg s _ _ _
    · exact .of_fab rfl
  unfold State.postItem
  split
  · exact .refl s
  · split
    · exact .refl s
    · exact hpost _ _ _
    · split
      · exact .refl s
      · exact hpost _ _ _

theorem failItem (s : State) (id : Nat) (f : Fail) : FabStands s (s.failItem id f) := by
  rcases s.failItem_cases id f with h | ⟨i, hi, hd⟩
  · exact .of_fab (by rw [h])
  · obtain ⟨j, hj, hfate, -⟩ := State.item?_cutItem hi f
    have hcut : (s.cutItem id i f).fab = s.fab :=
      ((State.dropSteps_leads _ i).frame.fab (by decide)).trans
        ((State.stopItem_leads .refl (List.Subset.refl _)).frame.fab (by decide))
    have hnote : ((s.cutItem id i f).noteFailure id j f).fab = s.fab := by
      simp only [State.noteFailure, State.countFailure, State.bump_fab]
      exact ((State.writeReports_leads .refl (List.Subset.refl _)).frame.fab (by decide)).trans hcut
    rw [State.failItem_eq hi hd]
    rcases State.resolve_failed_cases hj ((congrArg Prod.fst hfate).trans hd) f with h | ⟨-, g, h⟩ <;> rw [h]
    · exact (postItem _ id).after hnote
    · exact (postItem _ id).after (((State.releaseGroup_leads .refl (List.Subset.refl _)).frame.fab (by decide)).trans hnote)

theorem failItems (s : State) (ids : List Nat) (f : Fail) : FabStands s (s.failItems ids f) :=
  foldl (.refl s) (fun u id => failItem u id f) ids

theorem failForwarded (s : State) (p : Nat) : FabStands s (s.failForwarded p) := (setFab s).trans (failItems _ _ _)

theorem redirectResults (s : State) (old new : Nat) : FabStands s (s.redirectResults old new) :=
  foldl (f := fun (u : State) (m : E2eOut) => u.sendMsg new m.cls m.msg) (setFab s) (fun u m => sendMsg u new m.cls m.msg) _

theorem relaySet (s : State) (p : Nat) : FabStands s (s.relaySet p) := by
  refine foldl (.refl s) (fun u k => ?_) _
  split
  · exact sendMsg u _ _ _
  · exact .refl u

theorem nameStandby (s : State) : FabStands s s.nameStandby := by
  have hset : ∀ (v : State) (o : Option Nat), FabStands v (v.setStandby o) := fun v o => by
    have hnamed : FabStands v (v.setFab (fun f => { f with standby := o })) := setFab v
    unfold State.setStandby
    cases o with
    | none => exact hnamed.trans (.of_fab (State.setField_fab ..))
    | some p => exact hnamed.trans (.of_fab ((State.setField_fab ..).trans (State.setField_fab ..)))
  unfold State.nameStandby
  exact (hset s.draw.2 _).after rfl

end FabStands

/-! ### Members, promotions and routes (R275, R288, R297) -/

theorem State.member_setMember_same {p : Nat} (hp : p < s.fab.members.length) (m : Member) :
    (s.setMember p m).member p = m := by
  simp [State.member, State.setMember, State.setFab, State.changed, List.getD_eq_getElem?_getD, hp]

theorem State.member_setMember_ne {p q : Nat} (h : q ≠ p) (m : Member) : (s.setMember p m).member q = s.member q := by
  simp [State.member, State.setMember, State.setFab, State.changed, List.getD_eq_getElem?_getD, List.getElem?_set_ne h.symm]

theorem State.lt_members_of_member {p : Nat} (h : s.member p ≠ .absent) : p < s.fab.members.length := by
  by_contra hp
  exact h (List.getD_eq_default _ _ (Nat.not_lt.mp hp))

theorem State.lt_members_of_mayDie {p : Nat} (h : s.mayDie p = true) : p < s.fab.members.length := by
  refine State.lt_members_of_member fun habsent => ?_
  have hserves : s.forwards p = false := by
    show (s.member p == _ || s.member p == _) = false
    rw [habsent]
    rfl
  simp [State.mayDie, hserves] at h

/-- A promotion makes one SPARE serve; whether it is this module itself shows in the role. -/
theorem State.applyPromotion_stands (s : State) (q : Nat) : ∃ r,
    FabStands ((s.setMember q .serving).setFab (fun f => { f with role := r })) (s.applyPromotion q) := by
  have hrest : ∀ v : State, FabStands v ((((v.groups.map (fun g => g.buddy)).dedup).filter
      (fun b => v.member b == .dead)).foldl (fun (u : State) b => u.rebuddy b q) v) := fun v =>
    .foldl (.refl v) (fun u b => .rebuddy u b q) _
  unfold State.applyPromotion
  dsimp only
  split
  · exact ⟨.serving, hrest _⟩
  · exact ⟨s.fab.role, (hrest _).after rfl⟩

theorem State.promote_cases (s : State) : FabStands s s.promote ∨
    ∃ q r, s.member q = .spare ∧ FabStands ((s.setMember q .serving).setFab (fun f => { f with role := r })) s.promote := by
  unfold State.promote
  dsimp only
  split
  · exact .inl (.of_fab rfl)
  · rename_i q hq
    refine .inr ⟨q, ?_⟩
    have hspare : s.member q = .spare := by
      rcases Option.or_eq_some_iff.mp hq with h | ⟨-, h⟩
      · have := List.find?_some h
        simp only [Bool.and_eq_true, beq_iff_eq] at this
        exact this.1.1
      · have := List.find?_some h
        simp only [Bool.and_eq_true, beq_iff_eq] at this
        exact this.1
    generalize hu : State.floodMsg _ _ = u
    have hflood : FabStands s u := by
      rw [← hu]
      exact (FabStands.floodMsg _ _).after ((State.event_fab ..).trans (State.bump_fab ..))
    obtain ⟨r, hr⟩ := u.applyPromotion_stands q
    have hall : FabStands ((s.setMember q .serving).setFab (fun f => { f with role := r })) (u.applyPromotion q) :=
      ((hflood.setMember q .serving).update (fun f => { f with role := r })).trans hr
    refine ⟨r, hspare, ?_⟩
    split
    · exact hall.trans (.nameStandby _)
    · exact hall

/-- The two states see the same network: bundles, members, size and manager. -/
structure SameNet (s t : State) : Prop where
  bundles : t.usableBundle = s.usableBundle
  forwards : t.forwards = s.forwards
  size : t.systemSize = s.systemSize
  manager : t.fab.manager = s.fab.manager

namespace SameNet

theorem hops (h : SameNet s t) (src k : Nat) : t.hops src k = s.hops src k := by
  induction k with
  | zero => rfl
  | succ k ih => simp only [State.hops, ih, h.bundles, h.forwards, h.size]

theorem dimOk (h : SameNet s t) (fuel p q : Nat) : t.dimOk fuel p q = s.dimOk fuel p q := by
  induction fuel generalizing p with
  | zero => rfl
  | succ fuel ih => simp only [State.dimOk, ih, h.bundles, h.forwards, h.size]

theorem escDist (h : SameNet s t) (depth : List Nat) (q k : Nat) : t.escDist depth q k = s.escDist depth q k := by
  induction k with
  | zero => rfl
  | succ k ih => simp only [State.escDist, ih, h.bundles, h.forwards, h.size]

/-- Routes go by the network alone (R288 step 3). -/
theorem allRoutes (h : SameNet s t) : t.allRoutes = s.allRoutes := by
  simp only [State.allRoutes, State.routeWord, h.hops, h.dimOk, h.escDist, h.bundles, h.forwards, h.size, h.manager]

theorem bump (s : State) (p : Pg) (i n k : Nat) : SameNet s (s.bump p i n k) := by
  unfold State.bump
  split <;> exact ⟨rfl, rfl, rfl, rfl⟩

end SameNet

theorem State.pos_setFab (s : State) (f : Fabric → Fabric) : (s.setFab f).pos = s.pos := rfl

/-- A route change of generation `g` as it begins: injection stopped, this module's words installed, itself acknowledged. -/
def Fabric.rerouted (f : Fabric) (g pos : Nat) (routes : List Nat) : Fabric :=
  { f with
    stopped := true, work := some { gen := g, acks := [pos] }, routeGen := g
    routes := ((routes.drop (64 * pos)).take 64).map (BitVec.ofNat 12) }

/-- Of the fabric the start of a route change changes only the route change and the routes (R288). -/
theorem State.startRoutes_stands (s : State) (count : Bool) : ∃ g,
    FabStands (s.setFab (fun f => f.rerouted g s.pos s.allRoutes)) (s.startRoutes count) ∧
      (s.fab.work = none → g = (s.fab.routeGen + 1) % 65536) := by
  refine ⟨(match s.fab.work with | some w => w.gen + 1 | none => s.fab.routeGen + 1) % 65536, ?_, fun h => by rw [h]⟩
  unfold State.startRoutes State.installRoutes
  dsimp only
  rw [(SameNet.bump s .link 0 19 (b2n count)).allRoutes]
  generalize hv : State.floodMsg (s.bump .link 0 19 (b2n count)) _ = v
  have hflood : FabStands s v := by
    rw [← hv]
    exact (FabStands.floodMsg _ _).after (State.bump_fab ..)
  have hbump : (s.bump .link 0 19 (b2n count)).pos = s.pos := congrArg Pins.strapPos (State.bump_pins ..)
  have hpos : v.pos = s.pos := by
    rw [← hv]
    exact Eq.trans (congrArg Pins.strapPos ((State.floodMsg_leads .refl (List.Subset.refl _)).frame.pins (by decide))) hbump
  rw [hbump, State.pos_setFab, hpos]
  exact (hflood.update (fun f => f.rerouted _ s.pos s.allRoutes)).trans (.floodMsg _ _)

end Stands

end Sys2Proof.Machine
end

section
/-! Membership (R275, R291 to R294, R298): heartbeats, declarations of death, the standby's succession, joining, and the
commands of the manager. -/

namespace Sys2Proof.Machine

-- one theorem after the other: proofs that wait together take too many threads
set_option Elab.async false

section Membership
variable {s t u : State} {p : Nat}

theorem State.member_eq (s : State) (p : Nat) : s.member p = s.fab.members.getD p .absent := rfl

theorem State.member_of_members (h : t.fab.members = s.fab.members) (p : Nat) : t.member p = s.member p :=
  congrArg (·.getD p .absent) h

/-! ### A death declared (R291, R292) -/

/-- What a declaration of a death comes to before the lost module's work is seen to: a new epoch, the record, the message to
the others, and steps 2, 3 and 5 of R292. -/
def State.noteDeath (s : State) (p : Nat) (why : DeadReason) : State :=
  let s := (s.setEpoch (s.fab.epoch + 1)).bump .link 0 17 1
  let s := s.event { pageRec .link 0 0x0704 .error with a := p, b := deadCode why }
  let s := s.signature 10 0xFFFF (BitVec.ofNat 64 (p + 256 * deadCode why)) 0
  (s.floodMsg (.declaration p s.fab.epoch (deadCode why))).applyDeath p

theorem State.noteDeath_stands (s : State) (p : Nat) (why : DeadReason) :
    FabStands ((s.setEpoch (s.fab.epoch + 1)).setMember p .dead) (s.noteDeath p why) := by
  unfold State.noteDeath
  dsimp only
  generalize hu : State.signature _ _ _ _ _ = u
  have hnoted : FabStands (s.setEpoch (s.fab.epoch + 1)) u := by
    rw [← hu]
    exact .of_fab (((State.signature_leads .refl (List.Subset.refl _)).frame.fab (by decide)).trans
      ((State.event_fab ..).trans (State.bump_fab ..)))
  exact ((hnoted.trans (.floodMsg _ _)).setMember p .dead).trans (.applyDeath _ p)

theorem State.pos_noteDeath (s : State) (p : Nat) (why : DeadReason) : (s.noteDeath p why).pos = s.pos := by
  have hepoch : Leads [.outbox, .freeCount, .regs, .ctr, .places, .groups, .pages, .mirrors, .mirrorPages, .fab, .links,
      .log] s (s.setEpoch (s.fab.epoch + 1)) := State.setEpoch_leads .refl (by decide)
  exact congrArg Pins.strapPos ((State.applyDeath_leads (State.floodMsg_leads (State.signature_leads (State.event_leads
    (State.bump_leads hepoch (by decide)) (by decide)) (by decide)) (by decide)) (by decide)).frame.pins (by decide))

/-- What a death leaves stands: the position stays dead, under the same epochs and manager. -/
structure DeathKept (p : Nat) (s t : State) : Prop where
  dead : s.member p = .dead → t.member p = .dead
  epoch : t.fab.epoch = s.fab.epoch
  prevEpoch : t.fab.prevEpoch = s.fab.prevEpoch
  manager : t.fab.manager = s.fab.manager

theorem DeathKept.trans (h : DeathKept p s t) (k : DeathKept p t u) : DeathKept p s u :=
  ⟨fun hd => k.dead (h.dead hd), k.epoch.trans h.epoch, k.prevEpoch.trans h.prevEpoch, k.manager.trans h.manager⟩

theorem FabStands.deathKept (h : FabStands s t) (p : Nat) : DeathKept p s t :=
  ⟨fun hd => (h.member p).trans hd, h.epoch, h.prevEpoch, h.manager⟩

/-- Only a SPARE is promoted, never the dead. -/
theorem State.promote_deathKept (s : State) (p : Nat) : DeathKept p s s.promote := by
  rcases s.promote_cases with h | ⟨q, r, hspare, h⟩
  · exact h.deathKept p
  · refine ⟨fun hd => (h.member p).trans ?_, h.epoch, h.prevEpoch, h.manager⟩
    have hne : p ≠ q := fun e => by
      rw [← e, hd] at hspare
      cases hspare
    exact (State.member_setMember_ne hne .serving).trans hd

theorem State.startRoutes_deathKept (s : State) (count : Bool) (p : Nat) : DeathKept p s (s.startRoutes count) := by
  obtain ⟨g, h, -⟩ := s.startRoutes_stands count
  exact ⟨fun hd => (h.member p).trans hd, h.epoch, h.prevEpoch, h.manager⟩

theorem State.stopped_startRoutes (s : State) (count : Bool) : (s.startRoutes count).fab.stopped = true := by
  obtain ⟨g, h, -⟩ := s.startRoutes_stands count
  exact h.stopped

/-- Position `p` is declared dead under the next epoch, and a route change has begun. -/
structure Declared (p : Nat) (s t : State) : Prop where
  dead : t.fab.members.getD p .absent = .dead
  epoch : t.fab.epoch = s.fab.epoch + 1
  prevEpoch : t.fab.prevEpoch = s.fab.epoch
  manager : t.fab.manager = s.fab.manager
  stopped : t.fab.stopped = true

/-- Once the lost module's work is seen to, the standby and the spare are, and routes change (R292 step 6). -/
def State.replaceDead (s : State) (p : Nat) : State :=
  ((if s.fab.standby = some p then s.nameStandby else s).promote).startRoutes true

theorem State.declare_of_majority (h : s.majority = true) (p : Nat) (why : DeadReason) :
    s.declare p why = ((s.noteDeath p why).failForwarded p).replaceDead p := by
  simp only [State.declare, State.replaceDead, State.noteDeath, h, Bool.not_true, Bool.false_eq_true, if_false]
  rfl

theorem State.replaceDead_deathKept (s : State) (p : Nat) : DeathKept p s (s.replaceDead p) := by
  have hstandby : FabStands s (if s.fab.standby = some p then s.nameStandby else s) := by
    split
    · exact .nameStandby s
    · exact .refl s
  exact ((hstandby.deathKept p).trans (State.promote_deathKept _ p)).trans (State.startRoutes_deathKept _ true p)

theorem State.stopped_replaceDead (s : State) (p : Nat) : (s.replaceDead p).fab.stopped = true := by
  unfold State.replaceDead
  exact State.stopped_startRoutes _ true

theorem State.declare_declared (hmaj : s.majority = true) (hp : p < s.fab.members.length) (why : DeadReason) :
    Declared p s (s.declare p why) := by
  have hnoted := (s.noteDeath_stands p why).trans (.failForwarded _ p)
  rw [State.declare_of_majority hmaj]
  generalize (s.noteDeath p why).failForwarded p = u at *
  have hkept := (hnoted.deathKept p).trans (u.replaceDead_deathKept p)
  have hfab : (s.setEpoch (s.fab.epoch + 1)).fab =
      { s.fab with prevEpoch := s.fab.epoch, epoch := s.fab.epoch + 1, epochAt := s.time.t } := State.bump_fab ..
  generalize s.setEpoch (s.fab.epoch + 1) = v at *
  have hlen : p < v.fab.members.length := by rw [hfab]; exact hp
  have hdead : (u.replaceDead p).member p = .dead := hkept.dead (State.member_setMember_same hlen .dead)
  exact ⟨(State.member_eq _ p).symm.trans hdead, hkept.epoch.trans (congrArg Fabric.epoch hfab :),
    hkept.prevEpoch.trans (congrArg Fabric.prevEpoch hfab :), hkept.manager.trans (congrArg Fabric.manager hfab :),
    u.stopped_replaceDead p⟩

/-- Without a majority none is declared (R291). -/
theorem State.loseMajority_fab (s : State) : s.loseMajority.fab = { s.fab with noMajority := true } := by
  unfold State.loseMajority
  split
  · rename_i h
    rw [← h]
  · rfl

theorem State.declare_of_minority (h : s.majority = false) (p : Nat) (why : DeadReason) : s.declare p why = s.loseMajority := by
  unfold State.declare
  rw [h]
  rfl

/-! ### Heartbeats, and what the sorting office finds (R279, R291) -/

theorem exec_heartbeatSend (hnone : s.fab.role ≠ .none) (hjoining : s.fab.role ≠ .joining) (hfenced : s.fab.role ≠ .fenced) :
    ∃ t, exec .heartbeatSend s = .next t ∧ t.time = { s.time with t := max s.time.t (s.lastBeat s.pos + s.beat) } ∧
      t.lastBeat s.pos = t.time.t ∧ Out.flood s.fab.floodSeq (.heartbeat s.pos s.pwr.budget) ∈ t.outbox ∧
      t.fab.members = s.fab.members := by
  let u : State := { s with time := { s.time with t := max s.time.t (s.lastBeat s.pos + s.beat) } }
  let v := u.setFab (fun f => { f with heartbeat := cellSet 0 f.heartbeat u.pos u.time.t })
  have htime : (v.floodMsg (.heartbeat s.pos s.pwr.budget)).time = u.time :=
    (State.floodMsg_leads .refl (List.Subset.refl _)).frame.time (by decide)
  refine ⟨v.floodMsg (.heartbeat s.pos s.pwr.budget), ?_, htime, ?_, v.mem_outbox_floodMsg _,
    (FabStands.floodMsg v _).members⟩
  · show execHeartbeatSend s = _
    unfold execHeartbeatSend
    rw [if_neg (not_or.mpr ⟨hnone, not_or.mpr ⟨hjoining, hfenced⟩⟩)]
    rfl
  · rw [htime, State.lastBeat, State.floodMsg_fab]
    exact cellGet_cellSet_same ..

theorem exec_heartbeatSend_of_outside (h : s.fab.role = .none ∨ s.fab.role = .joining ∨ s.fab.role = .fenced) :
    exec .heartbeatSend s = .next s := if_pos h

section Office
variable (hmgr : s.fab.role = .manager) (hdie : s.mayDie p = true)
include hmgr hdie

theorem exec_declareDead {y : DeadReason} (hy : s.deadFor p y = true) :
    exec (.declareDead p y) s = .next (s.declare p y) := by
  show execDeclareDead p y s = _
  rw [execDeclareDead, hmgr, hdie, hy]
  rfl

theorem exec_isolatedTimeout (hy : s.deadFor p .isolated = true) :
    exec (.isolatedTimeout p) s = .next (s.declare p .isolated) := by
  show execIsolatedTimeout p s = _
  rw [execIsolatedTimeout, hmgr, hdie, hy]
  rfl

theorem exec_declareDead_of_minority {y : DeadReason} (hy : s.deadFor p y = true) (hmaj : s.majority = false) :
    ∃ t, exec (.declareDead p y) s = .next t ∧ t.fab.noMajority = true ∧ t.fab.members = s.fab.members ∧
      t.fab.epoch = s.fab.epoch := by
  refine ⟨s.loseMajority, ?_, ?_⟩
  · rw [exec_declareDead hmgr hdie hy, State.declare_of_minority hmaj]
  · rw [State.loseMajority_fab]
    exact ⟨rfl, rfl, rfl⟩

/-- The manager waits for the heartbeat that does not come, and declares then. -/
theorem exec_heartbeatMiss (hu : u = s.setTime (fun u => { u with t := max u.t (s.lastBeat p + s.beatMiss * s.beat) }))
    (hmaj : u.majority = true) : ∃ t, exec (.heartbeatMiss p) s = .next t ∧ t.time.t = u.time.t ∧
      t.fab.members.getD p .absent = .dead ∧ t.fab.epoch = s.fab.epoch + 1 := by
  have hfab : u.fab = s.fab := by rw [hu]; rfl
  have hdeclared : Declared p u (u.declare p .heartbeat) :=
    State.declare_declared hmaj (hfab ▸ State.lt_members_of_mayDie hdie) .heartbeat
  refine ⟨u.declare p .heartbeat, ?_, ?_, hdeclared.dead, hfab ▸ hdeclared.epoch⟩
  · show execHeartbeatMiss p s = _
    have hrole : ¬ (s.fab.role = .none ∨ s.fab.role = .joining ∨ (!s.mayDie p) = true) := by simp [hmgr, hdie]
    unfold execHeartbeatMiss
    rw [if_neg hrole]
    dsimp only
    rw [if_pos (show (s.setTime _).fab.role = .manager from hmgr), hu]
  · exact congrArg TimeUnit.t ((State.declare_leads .refl (List.Subset.refl _)).frame.time (by decide))

theorem exec_fabCmdDeclareDead (hmaj : s.majority = true) : ∃ t, exec (.fabCmdDeclareDead p) s = .next t ∧
    t.fab.members.getD p .absent = .dead ∧ t.fab.cmdResult = 0 ∧ t.fab.epoch = s.fab.epoch + 1 := by
  have hdeclared := State.declare_declared hmaj (State.lt_members_of_mayDie hdie) .command
  refine ⟨(s.declare p .command).cmdResult 0, ?_, hdeclared.dead, rfl, hdeclared.epoch⟩
  show Host.Outcome.next (s.cmdDeclare p) = _
  unfold State.cmdDeclare
  rw [if_neg (not_not.mpr hmgr), if_neg (by rw [hdie]; decide), if_neg (by rw [hmaj]; decide)]

theorem exec_fabCmdDeclareDead_of_minority (hmaj : s.majority = false) : ∃ t, exec (.fabCmdDeclareDead p) s = .next t ∧
    t.fab.cmdResult = 2 ∧ t.fab.members = s.fab.members := by
  refine ⟨s.loseMajority.cmdResult 2, ?_, rfl, (congrArg Fabric.members s.loseMajority_fab :)⟩
  show Host.Outcome.next (s.cmdDeclare p) = _
  unfold State.cmdDeclare
  rw [if_neg (not_not.mpr hmgr), if_neg (by rw [hdie]; decide), if_pos (by rw [hmaj]; rfl)]

end Office

theorem exec_declareDead_of_alive {y : DeadReason} (hy : s.deadFor p y = false) : exec (.declareDead p y) s = .next s := by
  show execDeclareDead p y s = _
  rw [execDeclareDead, hy, Bool.and_false]
  rfl

theorem exec_heartbeatMiss_of_manager (hdie : s.mayDie p = true) (hrole : s.fab.role = .serving) (hp : p = s.fab.manager)
    (hstandby : s.fab.standby = none) : ∃ t, exec (.heartbeatMiss p) s = .next t ∧ t.fab.noMajority = true ∧
      t.fab.members = s.fab.members := by
  let u := s.setTime (fun u => { u with t := max u.t (s.lastBeat p + s.beatMiss * s.beat) })
  refine ⟨u.setFab (fun f => { f with noMajority := true }), ?_, rfl, rfl⟩
  show execHeartbeatMiss p s = _
  have houtside : ¬ (s.fab.role = .none ∨ s.fab.role = .joining ∨ (!s.mayDie p) = true) := by simp [hrole, hdie]
  have hlost : (p == u.fab.manager && u.fab.standby.isNone) = true := by
    show (p == s.fab.manager && s.fab.standby.isNone) = true
    simp [hp, hstandby]
  unfold execHeartbeatMiss
  rw [if_neg houtside]
  dsimp only
  rw [if_neg (show ¬ (s.setTime _).fab.role = .manager from fun h => by rw [State.setTime_fab, hrole] at h; cases h), hlost]
  rfl

theorem exec_bundleLost {d : Nat} (hd : d < dirCount s.systemSize) (hdown : s.bundle d = .down) (hrole : s.fab.role ≠ .none) :
    ∃ t, exec (.bundleLost d) s = .next t ∧ (s.pos, d) ∈ t.fab.lostReports ∧ (s.pos, d, 3) ∈ t.fab.bundles ∧
      Out.flood s.fab.floodSeq (.bundleReport s.pos d 3 true) ∈ t.outbox := by
  let v := s.noteBundle s.pos d BundleSt.down.code true
  refine ⟨v.floodMsg (.bundleReport s.pos d 3 true), ?_, ?_, ?_, ?_⟩
  · show execBundleLost d s = _
    unfold execBundleLost
    rw [if_neg (not_not.mpr ⟨hd, hdown, hrole⟩)]
    rfl
  · rw [State.floodMsg_fab]
    exact List.mem_cons_self
  · rw [State.floodMsg_fab]
    exact List.mem_cons_self
  · have hsent := v.mem_outbox_floodMsg (.bundleReport s.pos d 3 true)
    exact hsent

/-! ### A lost manager (R294) -/

/-- The standby becomes the manager, under an epoch of its own. -/
def State.assumeOffice (s : State) : State :=
  let s := s.setEpoch (s.fab.epoch + 1)
  (s.setMember s.pos .serving).setFab (fun f => { f with role := .manager, manager := s.pos, noMajority := false })

theorem State.assumeOffice_eq (s : State) : s.assumeOffice.fab.role = .manager ∧ s.assumeOffice.fab.manager = s.pos ∧
    (∀ q, q ≠ s.pos → s.assumeOffice.member q = s.member q) ∧ s.assumeOffice.fab.epoch = s.fab.epoch + 1 := by
  have hfab : (s.setEpoch (s.fab.epoch + 1)).fab =
      { s.fab with prevEpoch := s.fab.epoch, epoch := s.fab.epoch + 1, epochAt := s.time.t } := State.bump_fab ..
  have hpos : (s.setEpoch (s.fab.epoch + 1)).pos = s.pos := congrArg Pins.strapPos (State.bump_pins ..)
  unfold State.assumeOffice
  dsimp only
  generalize s.setEpoch (s.fab.epoch + 1) = v at *
  refine ⟨rfl, hpos, fun q hq => ?_, (congrArg Fabric.epoch hfab :)⟩
  have hmembers : v.fab.members = s.fab.members := (congrArg Fabric.members hfab :)
  exact (State.member_setMember_ne (s := v) (hpos.symm ▸ hq) .serving).trans (State.member_of_members hmembers q)

/-- What the new manager does for what the old one has left. -/
def State.succeed (s : State) (old : Nat) : State :=
  let s := (s.inheritRings).floodMsg (.takeover s.pos s.fab.epoch)
  let s := (s.redirectResults old s.pos).failForwarded old
  let own := (s.items.filter (fun i => i.pos == old && i.disp.isNone)).map (fun i => i.id)
  (s.failItems own { reason := .moduleLost, pos := some old }).nameStandby

theorem State.succeed_stands (s : State) (old : Nat) : FabStands s (s.succeed old) := by
  have hrings : s.inheritRings.fab = s.fab := (State.inheritRings_leads .refl (List.Subset.refl _)).frame.fab (by decide)
  unfold State.succeed
  dsimp only
  refine .trans (.trans (.trans (.trans ?_ (.redirectResults _ _ _)) (.failForwarded _ _)) (.failItems _ _ _)) (.nameStandby _)
  exact (FabStands.floodMsg _ _).after hrings

/-- The new manager has taken over: a RESUME is accepted from now on (R325). -/
theorem State.tookOver_succeed (s : State) (old : Nat) : (s.succeed old).host.tookOver = true := by
  have hlater : Leads [.outbox, .freeCount, .regs, .ctr, .cores, .places, .groups, .pages, .arenaWait, .poolWait, .items,
      .boxes, .mem, .memPoison, .protUnits, .tier, .fab, .links] s.inheritRings (s.succeed old) := by
    unfold State.succeed
    exact State.nameStandby_leads (State.failItems_leads (State.failForwarded_leads (State.redirectResults_leads
      (State.floodMsg_leads .refl (by decide)) (by decide)) (by decide)) (by decide)) (by decide)
  exact congrArg HostSt.tookOver (hlater.frame.host (by decide))

section Standby
variable (hrole : s.fab.role = .standby) (hdie : s.mayDie s.fab.manager = true)
  (hdead : s.deadFor s.fab.manager .heartbeat = true ∨ s.deadFor s.fab.manager .leaving = true ∨
    s.deadFor s.fab.manager .linksLost = true)
include hrole hdie hdead

theorem not_standbyIdle : ¬ (s.fab.role ≠ .standby ∨ (!s.mayDie s.fab.manager) = true ∨
    (!s.deadFor s.fab.manager .heartbeat && !s.deadFor s.fab.manager .leaving &&
      !s.deadFor s.fab.manager .linksLost) = true) := by
  simp only [hrole, hdie, ne_eq, not_true_eq_false, Bool.not_true, Bool.false_eq_true, false_or, Bool.and_eq_true,
    Bool.not_eq_true', not_and]
  rcases hdead with h | h | h <;> simp [h]

theorem exec_standbyTakeover_eq (hmaj : s.majority = true) : ∃ why, exec .standbyTakeover s =
    .next ((((s.noteDeath s.fab.manager why).assumeOffice).succeed s.fab.manager).startRoutes true) := by
  refine ⟨if s.deadFor s.fab.manager .linksLost then .linksLost else if s.deadFor s.fab.manager .heartbeat then .heartbeat
    else .leaving, ?_⟩
  show execStandbyTakeover s = _
  unfold execStandbyTakeover
  dsimp only
  rw [if_neg (not_standbyIdle hrole hdie hdead), if_neg (by rw [hmaj]; decide)]
  simp only [State.noteDeath, State.assumeOffice, State.succeed]

theorem exec_standbyTakeover (hmaj : s.majority = true) : ∃ t, exec .standbyTakeover s = .next t ∧ t.fab.role = .manager ∧
    t.fab.manager = s.pos ∧ t.fab.members.getD s.fab.manager .absent = .dead ∧ t.fab.epoch = s.fab.epoch + 2 ∧
    t.host.tookOver = true := by
  obtain ⟨why, hexec⟩ := exec_standbyTakeover_eq hrole hdie hdead hmaj
  have hnoted := s.noteDeath_stands s.fab.manager why
  have hpos := s.pos_noteDeath s.fab.manager why
  have hne : s.fab.manager ≠ s.pos := fun h => by simp [State.mayDie, h] at hdie
  have hlen := State.lt_members_of_mayDie hdie
  generalize s.noteDeath s.fab.manager why = u at *
  have hfab : (s.setEpoch (s.fab.epoch + 1)).fab =
      { s.fab with prevEpoch := s.fab.epoch, epoch := s.fab.epoch + 1, epochAt := s.time.t } := State.bump_fab ..
  have hepoch : u.fab.epoch = s.fab.epoch + 1 := hnoted.epoch.trans (congrArg Fabric.epoch hfab :)
  have hold : u.member s.fab.manager = .dead :=
    (hnoted.member _).trans (State.member_setMember_same (by rw [hfab]; exact hlen) .dead)
  have hlast := (u.assumeOffice).succeed_stands s.fab.manager
  have htook := (u.assumeOffice).tookOver_succeed s.fab.manager
  generalize (u.assumeOffice).succeed s.fab.manager = v at *
  obtain ⟨g, hroutes, -⟩ := v.startRoutes_stands true
  have hhost : (v.startRoutes true).host = v.host := (State.startRoutes_leads .refl (List.Subset.refl _)).frame.host (by decide)
  generalize v.startRoutes true = w at *
  obtain ⟨hrole', hmgr', hmember', hepoch'⟩ := u.assumeOffice_eq
  refine ⟨w, hexec, (hroutes.role.trans hlast.role).trans hrole', ?_, ?_, ?_, (congrArg HostSt.tookOver hhost).trans htook⟩
  · exact ((hroutes.manager.trans hlast.manager).trans hmgr').trans hpos
  · exact ((hroutes.member _).trans (hlast.member _)).trans ((hmember' _ (hpos ▸ hne)).trans hold)
  · exact ((hroutes.epoch.trans hlast.epoch).trans hepoch').trans (by rw [hepoch])

theorem exec_standbyTakeover_of_minority (hmaj : s.majority = false) : ∃ t, exec .standbyTakeover s = .next t ∧
    t.fab.role = .standby ∧ t.fab.noMajority = true := by
  refine ⟨s.loseMajority, ?_, ?_⟩
  · show execStandbyTakeover s = _
    unfold execStandbyTakeover
    dsimp only
    rw [if_neg (not_standbyIdle hrole hdie hdead), hmaj]
    rfl
  · rw [State.loseMajority_fab]
    exact ⟨hrole, rfl⟩

end Standby

/-! ### Joining (R298) -/

theorem exec_join_self {r : JoinReq} (hpos : r.pos = s.pos) (hrole : s.fab.role = .none) (hstrap : s.pins.strapMgr = false) :
    ∃ t, exec (.join r) s = .next t ∧ t.fab.role = .joining ∧ Out.flood s.fab.floodSeq (.join s.pos) ∈ t.outbox := by
  let u := (s.setFab (fun f => { f with role := .joining })).changed .link 0
  refine ⟨u.floodMsg (.join s.pos), ?_, (FabStands.floodMsg u _).role, u.mem_outbox_floodMsg _⟩
  show execJoin r s = _
  rw [execJoin, if_pos hpos, hrole, hstrap]
  rfl

/-- Step 8 of R298 at the sorting office. -/
def State.admitAt (s : State) (r : JoinReq) : State :=
  let s := (s.setEpoch (s.fab.epoch + 1)).admitMember r.pos
  let s := s.setFab (fun f => { f with joinFails := f.joinFails.filter (fun x => x.1 != r.pos) })
  let s := (s.bump .link 0 21 1).event { pageRec .link 0 0x0708 .notice with a := r.pos }
  (s.floodMsg (.admission r.pos s.fab.epoch)).startRoutes true

theorem State.admitAt_stands (s : State) (r : JoinReq) : ∃ g pos routes,
    FabStands (((s.setEpoch (s.fab.epoch + 1)).setMember r.pos .spare).setFab (fun f => f.rerouted g pos routes))
      (s.admitAt r) := by
  have hadmitted := FabStands.admitMember (s.setEpoch (s.fab.epoch + 1)) r.pos
  unfold State.admitAt
  dsimp only
  generalize (s.setEpoch (s.fab.epoch + 1)).admitMember r.pos = v at *
  generalize hw : State.event _ _ = w
  have hnoted : FabStands v w := by
    rw [← hw]
    exact (FabStands.setFab v).trans (.of_fab ((State.event_fab ..).trans (State.bump_fab ..)))
  obtain ⟨g, hroutes, -⟩ := (w.floodMsg (.admission r.pos w.fab.epoch)).startRoutes_stands true
  exact ⟨g, _, _, (((hadmitted.trans hnoted).trans (.floodMsg w _)).update (fun f => f.rerouted g _ _)).trans hroutes⟩

/-- The manager admits a module that has passed: it is a SPARE under the next epoch, and routes change. -/
theorem State.joinAt_admits {r : JoinReq} (hlen : r.pos < s.fab.members.length) (hver : s.fab.sysVer ≤ r.version)
    (hnew : s.forwards r.pos = false) (hbar : s.member r.pos ≠ .barred) (htest : r.selfTestOk = true)
    (hquote : r.quoteOk = true) : (s.joinAt r).member r.pos = .spare ∧ (s.joinAt r).fab.epoch = s.fab.epoch + 1 ∧
      (s.joinAt r).fab.stopped = true := by
  have hrelay : FabStands s (s.relaySet r.pos) := .relaySet s r.pos
  have hjoin : s.joinAt r = (s.relaySet r.pos).admitAt r := by
    unfold State.joinAt
    rw [if_neg (Nat.not_lt.mpr hver), if_neg (not_or.mpr ⟨by rw [hnew]; decide, hbar⟩)]
    simp only [htest, hquote, Bool.not_true, Bool.false_eq_true, if_false]
    rfl
  rw [hjoin]
  generalize s.relaySet r.pos = u at *
  obtain ⟨g, pos, routes, hadmit⟩ := u.admitAt_stands r
  have hfab : (u.setEpoch (u.fab.epoch + 1)).fab =
      { u.fab with prevEpoch := u.fab.epoch, epoch := u.fab.epoch + 1, epochAt := u.time.t } := State.bump_fab ..
  generalize u.setEpoch (u.fab.epoch + 1) = v at *
  have hmembers : v.fab.members = s.fab.members := (congrArg Fabric.members hfab :).trans hrelay.members
  have hspare : (v.setMember r.pos .spare).member r.pos = .spare := State.member_setMember_same (by rw [hmembers]; exact hlen) _
  have hepoch : v.fab.epoch = s.fab.epoch + 1 := (congrArg Fabric.epoch hfab :).trans (by rw [← hrelay.epoch])
  exact ⟨(hadmit.member _).trans ((State.member_of_members rfl _).trans hspare), hadmit.epoch.trans hepoch, hadmit.stopped⟩

theorem exec_join_admits {r : JoinReq} (hpos : r.pos ≠ s.pos) (hmgr : s.fab.role = .manager) (hsize : r.pos < s.systemSize) :
    exec (.join r) s = .next (s.joinAt r) := by
  show execJoin r s = _
  rw [execJoin, if_neg hpos, hmgr, decide_eq_true hsize]
  rfl

/-! ### Commands of the manager (R275, R302) -/

theorem exec_clearBar (hmgr : s.fab.role = .manager) (hbar : s.member p = .barred) : ∃ t, exec (.clearBar p) s = .next t ∧
    t.member p = .absent ∧ t.fab.cmdResult = 0 ∧ ∀ q, q ≠ p → t.member q = s.member q := by
  have hlen : p < s.fab.members.length := State.lt_members_of_member (by rw [hbar]; decide)
  refine ⟨((s.setMember p .absent).setFab (fun f => { f with joinFails := f.joinFails.filter (fun x => x.1 != p) })).cmdResult 0,
    ?_, (State.member_of_members rfl p).trans (State.member_setMember_same hlen .absent), rfl,
    fun q hq => (State.member_of_members rfl q).trans (State.member_setMember_ne hq .absent)⟩
  show Host.Outcome.next (s.cmdClearBar p) = _
  unfold State.cmdClearBar
  rw [if_neg (not_not.mpr hmgr), if_neg (not_not.mpr hbar)]

theorem exec_clearBar_of_not_barred (hmgr : s.fab.role = .manager) (hbar : s.member p ≠ .barred) :
    ∃ t, exec (.clearBar p) s = .next t ∧ t.fab.cmdResult = 3 ∧ t.fab.members = s.fab.members := by
  refine ⟨s.cmdResult 3, ?_, rfl, rfl⟩
  show Host.Outcome.next (s.cmdClearBar p) = _
  unfold State.cmdClearBar
  rw [if_neg (not_not.mpr hmgr), if_pos hbar]

/-- A fabric command at a module that is not the manager is refused and flagged (R302). -/
theorem exec_fabCmd_of_not_manager (hmgr : s.fab.role ≠ .manager) (p : Nat) :
    ∀ c ∈ [Instr.clearBar p, .fabCmdDeclareDead p, .recomputeRoutes], ∃ t, exec c s = .next t ∧ t.fab.cmdResult = 1 ∧
      t.fab.members = s.fab.members ∧ bit (t.regN .link 0 Reg.errStat) 0 = true := by
  let t := (s.cmdResult 1).flagAccess .link 0 (regAddr .link 0 Reg.link_fabCmd) true
  have hfab : t.fab = { s.fab with cmdResult := 1 } :=
    (State.flagAccess_leads .refl (List.Subset.refl _)).frame.fab (by decide)
  have hexec : ∀ c ∈ [Instr.clearBar p, .fabCmdDeclareDead p, .recomputeRoutes], exec c s = .next t := by
    simp only [List.forall_mem_cons, List.not_mem_nil, false_implies, implies_true, and_true]
    exact ⟨congrArg Host.Outcome.next (if_pos hmgr), congrArg Host.Outcome.next (if_pos hmgr),
      congrArg Host.Outcome.next (if_neg hmgr)⟩
  exact fun c hc => ⟨t, hexec c hc, (congrArg Fabric.cmdResult hfab :), (congrArg Fabric.members hfab :),
    State.bit_errStat_flag _ .link 0 _ _ (by decide)⟩

end Membership

/-- Settles O39: a declaration, a succession and an admission by what each leaves of the fabric, whatever items fail and
links are fenced on the way; a command by its result. -/
theorem membersAreDeclaredAndAdmitted : Obligations.MembersAreDeclaredAndAdmitted := by
  refine ⟨fun s => exec_heartbeatSend, fun s => exec_heartbeatSend_of_outside, fun s p y hmgr hdie => ⟨fun hy hmaj => ?_,
    exec_declareDead_of_minority hmgr hdie, exec_declareDead_of_alive⟩, fun s p hmgr hdie hy => ?_,
    fun s p hmgr hdie hmaj hy => ?_, fun s p hdie => ⟨fun u hmgr hu hmaj => exec_heartbeatMiss hmgr hdie hu hmaj,
    exec_heartbeatMiss_of_manager hdie⟩, fun s d => exec_bundleLost, fun s hrole hdie hdead =>
    ⟨exec_standbyTakeover hrole hdie hdead, exec_standbyTakeover_of_minority hrole hdie hdead⟩,
    fun s r => ⟨exec_join_self, fun hpos hmgr hsize hlen hver hnew hbar htest hquote => ?_⟩,
    fun s p hmgr hdie => ⟨exec_fabCmdDeclareDead hmgr hdie, exec_fabCmdDeclareDead_of_minority hmgr hdie⟩,
    fun s p hmgr => ⟨exec_clearBar hmgr, exec_clearBar_of_not_barred hmgr⟩, fun s p hmgr => exec_fabCmd_of_not_manager hmgr p⟩
  · have hdeclared := State.declare_declared hmaj (State.lt_members_of_mayDie hdie) y
    exact ⟨_, exec_declareDead hmgr hdie hy, hdeclared.dead, hdeclared.epoch, hdeclared.prevEpoch, hdeclared.stopped,
      hdeclared.manager⟩
  · rw [exec_isolatedTimeout hmgr hdie hy, exec_declareDead hmgr hdie hy]
  · have hdeclared := State.declare_declared hmaj (State.lt_members_of_mayDie hdie) .isolated
    exact ⟨_, exec_isolatedTimeout hmgr hdie hy, hdeclared.dead, hdeclared.epoch⟩
  · exact ⟨_, exec_join_admits hpos hmgr hsize, State.joinAt_admits hlen hver hnew hbar htest hquote⟩

end Sys2Proof.Machine
end

section
/-! Route changes and formation (R276, R285, R286, R288): how a route change begins, what a member installs, how GO ends it,
and the system that formation sets up. -/

namespace Sys2Proof.Machine

-- one theorem after the other: proofs that wait together take too many threads
set_option Elab.async false

section Routes
variable {s t : State}

/-! ### A route change (R288) -/

theorem exec_routeChange (hmgr : s.fab.role = .manager) : exec .routeChange s = .next (s.startRoutes true) := by
  show execRouteChange s = _
  rw [execRouteChange, hmgr]
  rfl

theorem exec_routeChange_of_not_manager (hmgr : s.fab.role ≠ .manager) : exec .routeChange s = .next s := by
  show execRouteChange s = _
  rw [execRouteChange, beq_false_of_ne hmgr]
  rfl

theorem exec_recomputeRoutes (hmgr : s.fab.role = .manager) :
    exec .recomputeRoutes s = .next ((s.startRoutes true).cmdResult 0) := by
  show Host.Outcome.next s.recompute = _
  unfold State.recompute
  rw [if_pos hmgr]

section Work
variable {w : RouteWork} {g : Nat} (hw : s.fab.work = some w)
include hw

/-- A module that works on generation `g` installs its own words and says so. -/
theorem State.takeTables_of_gen {r : List Nat} (hg : w.gen = g) (hr : r.length = 4096) :
    s.takeTables g r = (s.installRoutes g r).floodMsg (.routeAck g) := by
  unfold State.takeTables
  rw [hw]
  exact if_pos ⟨hg, hr⟩

theorem exec_routeTablesInstall {r : List Nat} (hg : w.gen = g) (hr : r.length = 4096) :
    ∃ t, exec (.routeTablesInstall g r) s = .next t ∧ t.fab.routeGen = g ∧
      t.fab.routes = ((r.drop (64 * s.pos)).take 64).map (BitVec.ofNat 12) ∧
      Out.flood s.fab.floodSeq (.routeAck g) ∈ t.outbox ∧ t.fab.stopped = s.fab.stopped := by
  let v := s.installRoutes g r
  have hflood : FabStands v (v.floodMsg (.routeAck g)) := .floodMsg v _
  have hsent : Out.flood s.fab.floodSeq (.routeAck g) ∈ (v.floodMsg (.routeAck g)).outbox := v.mem_outbox_floodMsg _
  refine ⟨v.floodMsg (.routeAck g), ?_, hflood.routeGen, hflood.routes, hsent, hflood.stopped⟩
  show Host.Outcome.next (s.takeTables g r) = _
  rw [State.takeTables_of_gen hw hg hr]

theorem exec_routeTablesInstall_of_other_gen (hg : w.gen ≠ g) (r : List Nat) :
    exec (.routeTablesInstall g r) s = .next s := by
  show Host.Outcome.next (s.takeTables g r) = _
  unfold State.takeTables
  rw [hw]
  exact congrArg _ (if_neg fun h => hg h.1)

theorem exec_routeGo_of_other_gen (hg : w.gen ≠ g) : exec (.routeGo g) s = .next s := by
  show execRouteGo g s = _
  unfold execRouteGo
  rw [hw]
  exact if_pos hg

theorem exec_routeGo_eq (hg : w.gen = g) : exec (.routeGo g) s = if s.fab.role = .manager then
    .next (s.when (((List.range 64).filter s.forwards).all (fun p => w.acks.contains p)) ((s.floodMsg (.routeGo g)).routeGo))
    else .next s.routeGo := by
  show execRouteGo g s = _
  unfold execRouteGo
  rw [hw]
  exact if_neg (not_not.mpr hg)

end Work

/-- Injection goes on: what was held back is sent, and the route change is over. -/
theorem FabStands.resumeInjection (s : State) :
    FabStands (s.setFab (fun f => { f with stopped := false })) s.resumeInjection := by
  refine .foldl (f := fun (u : State) (m : E2eOut) => u.sendPlain m.dest m.cls m.seq m.msg) ?_
    (fun u m => .sendPlain u m.dest m.cls m.seq m.msg) _
  exact rfl

theorem State.routeGo_stands (s : State) :
    FabStands (s.setFab (fun f => { f with work := none, stopped := false })) s.routeGo :=
  (FabStands.resumeInjection (s.setFab (fun f => { f with work := none }))).trans (.releaseWaiting _)

theorem State.all_acks_iff {w : RouteWork} : ((List.range 64).filter s.forwards).all (fun p => w.acks.contains p) = true ↔
    ∀ p, p < 64 → s.forwards p = true → p ∈ w.acks := by
  simp only [List.all_eq_true, List.mem_filter, List.mem_range, List.contains_iff_mem, and_imp]

theorem exec_routeGo {w : RouteWork} {g : Nat} (hw : s.fab.work = some w) (hg : w.gen = g)
    (hgo : s.fab.role ≠ .manager ∨ ∀ p, p < 64 → s.forwards p = true → p ∈ w.acks) :
    ∃ t, exec (.routeGo g) s = .next t ∧ t.fab.work = none ∧ t.fab.stopped = false ∧ t.fab.routes = s.fab.routes := by
  have hgone : ∀ v : State, v.fab.routes = s.fab.routes → v.routeGo.fab.work = none ∧ v.routeGo.fab.stopped = false ∧
      v.routeGo.fab.routes = s.fab.routes := fun v hv =>
    ⟨v.routeGo_stands.work, v.routeGo_stands.stopped, v.routeGo_stands.routes.trans hv⟩
  rw [exec_routeGo_eq hw hg]
  by_cases hmgr : s.fab.role = .manager
  · rw [if_pos hmgr, State.all_acks_iff.mpr (hgo.resolve_left (not_not.mpr hmgr)), State.when_true]
    exact ⟨_, rfl, hgone _ (FabStands.floodMsg s _).routes⟩
  · rw [if_neg hmgr]
    exact ⟨_, rfl, hgone s rfl⟩

theorem exec_routeGo_early {w : RouteWork} {g : Nat} (hw : s.fab.work = some w) (hg : w.gen = g)
    (hmgr : s.fab.role = .manager) (hwait : ∃ p, p < 64 ∧ s.forwards p = true ∧ p ∉ w.acks) :
    exec (.routeGo g) s = .next s := by
  obtain ⟨p, hp, hforwards, hack⟩ := hwait
  rw [exec_routeGo_eq hw hg, if_pos hmgr, Bool.eq_false_iff.mpr fun h => hack (State.all_acks_iff.mp h p hp hforwards)]
  rfl

/-! ### A packet that waits too long (R286, R288) -/

section Waiting
variable {d : Nat} {w : Nat × TxPkt} (hw : s.fab.waiting.find? (fun w => w.1 == d) = some w)
include hw

theorem exec_routeWaitDiscard_eq : exec (.routeWaitDiscard d) s = .next (s.when (!(s.bundle d).full)
    ((s.setFab (fun f => { f with waiting := f.waiting.erase w })).bump .link 0 23 1)) := by
  show execRouteWaitDiscard d s = _
  unfold execRouteWaitDiscard
  rw [hw]

theorem exec_routeWaitDiscard (hfull : (s.bundle d).full = false) : ∃ t, exec (.routeWaitDiscard d) s = .next t ∧
    t.fab.waiting = s.fab.waiting.erase w ∧ t.links = s.links ∧ t.live .link 0 23 = s.counted .link 0 23 1 := by
  refine ⟨_, exec_routeWaitDiscard_eq hw, ?_⟩
  rw [hfull]
  exact ⟨congrArg Fabric.waiting (State.bump_fab ..), State.bump_links .., State.live_bump ..⟩

theorem exec_routeWaitDiscard_of_full (hfull : (s.bundle d).full = true) : exec (.routeWaitDiscard d) s = .next s := by
  rw [exec_routeWaitDiscard_eq hw, hfull]
  rfl

end Waiting

/-! ### Formation (R276, R285) -/

section Formation
variable {pr mg : List Nat} (a1 : List Nat) (cfg : List W32)

theorem exec_formation_of_formed (hrole : s.fab.role ≠ .none) (pr mg : List Nat) :
    exec (.formation pr mg a1 cfg) s = .next s := if_pos (.inl hrole)

/-- The part of a manager that makes the module list itself. -/
theorem State.formAs_self (s : State) (pr a1 : List Nat) : (s.formAs s.pos pr a1).fab.role = .manager ∧
    (s.formAs s.pos pr a1).fab.manager = s.pos ∧
    (s.formAs s.pos pr a1).fab.members = formMembers s.systemSize s.pos s.spareMask pr :=
  ⟨if_pos rfl, rfl, rfl⟩

section Strapped
variable (hrole : s.fab.role = .none) (hboot : s.fw.booted = true) (hpr : s.pos ∈ pr) (hmg : s.pos ∈ mg)
  (hstrap : s.pins.strapMgr = true) (hrun : s.fw.st = .running)
include hrole hboot hpr hmg hstrap hrun

/-- The conditions of formation hold at a module strapped as a manager. -/
theorem not_formationIdle : ¬ (s.fab.role ≠ .none ∨ (!s.fw.booted) = true ∨ (!pr.contains s.pos) = true ∨
    mg.contains s.pos ≠ s.pins.strapMgr ∨ (s.pins.strapMgr = true ∧ s.fw.st ≠ .running)) := by
  simp [hrole, hboot, hpr, hmg, hstrap, hrun]

theorem exec_formation_conflict (hmany : 1 < mg.dedup.length) : ∃ t, exec (.formation pr mg a1 cfg) s = .next t ∧
    t.side.mgrConflict = true ∧ t.fab = s.fab := by
  refine ⟨{ s with side := { s.side with mgrConflict := true } }, ?_, rfl, rfl⟩
  show execFormation pr mg a1 cfg s = _
  unfold execFormation
  rw [if_neg (not_formationIdle hrole hboot hpr hmg hstrap hrun), if_pos hstrap]
  split
  · rename_i h
    rw [h] at hmany
    exact absurd hmany (Nat.lt_irrefl 1)
  · rfl

theorem exec_formation_eq (hone : mg.dedup = [s.pos]) (hsize : s.pos < s.systemSize) : exec (.formation pr mg a1 cfg) s =
    .next ((pr.filter (fun p => p != ((s.formAs s.pos pr a1).startRoutes false).pos &&
      ((s.formAs s.pos pr a1).startRoutes false).forwards p)).foldl (fun (u : State) p => u.relaySet p)
        ((s.formAs s.pos pr a1).startRoutes false)) := by
  show execFormation pr mg a1 cfg s = _
  unfold execFormation
  rw [if_neg (not_formationIdle hrole hboot hpr hmg hstrap hrun), if_pos hstrap, hone]
  dsimp only
  rw [if_neg (Nat.not_le.mpr hsize)]
  exact if_pos rfl

theorem exec_formation (hone : mg.dedup = [s.pos]) (hsize : s.pos < s.systemSize) :
    ∃ t, exec (.formation pr mg a1 cfg) s = .next t ∧ t.fab.role = .manager ∧ t.fab.manager = s.pos ∧
      t.fab.members = formMembers s.systemSize s.pos s.spareMask pr ∧ t.fab.stopped = true := by
  obtain ⟨hrole', hmgr', hmembers'⟩ := s.formAs_self pr a1
  have hexec := exec_formation_eq a1 cfg hrole hboot hpr hmg hstrap hrun hone hsize
  generalize s.formAs s.pos pr a1 = v at *
  obtain ⟨g, hroutes, -⟩ := v.startRoutes_stands false
  generalize v.startRoutes false = u at *
  have hall := hroutes.trans (.foldl (f := fun (u : State) p => u.relaySet p) (.refl u) (fun u p => .relaySet u p)
    (pr.filter (fun p => p != u.pos && u.forwards p)))
  exact ⟨_, hexec, hall.role.trans hrole', hall.manager.trans hmgr', hall.members.trans hmembers', hall.stopped⟩

end Strapped
end Formation
end Routes

/-- Settles O40: a route change and formation by what the start of a route change leaves of the fabric, GO by what the
sending of all that was held back leaves of it. -/
theorem routesChangeAndFormationBegins : Obligations.RoutesChangeAndFormationBegins := by
  refine ⟨fun s hmgr => ?_, fun s => exec_routeChange_of_not_manager, fun s g r w hw => ⟨exec_routeTablesInstall hw,
    fun hg => ⟨exec_routeTablesInstall_of_other_gen hw hg r, exec_routeGo_of_other_gen hw hg⟩⟩,
    fun s g w hw hg => ⟨exec_routeGo hw hg, exec_routeGo_early hw hg⟩,
    fun s d w hw => ⟨exec_routeWaitDiscard hw, exec_routeWaitDiscard_of_full hw⟩,
    fun s pr mg a1 cfg hrole hboot hpr hmg =>
      ⟨fun hstrap hrun => exec_formation a1 cfg hrole hboot hpr (hmg.mpr hstrap) hstrap hrun,
      fun hstrap hrun => exec_formation_conflict a1 cfg hrole hboot hpr (hmg.mpr hstrap) hstrap hrun⟩,
    fun s pr mg a1 cfg hrole => exec_formation_of_formed a1 cfg hrole pr mg⟩
  obtain ⟨g, hroutes, hgen⟩ := s.startRoutes_stands true
  have hchange := exec_routeChange hmgr
  have hcmd := exec_recomputeRoutes hmgr
  generalize s.startRoutes true = u at *
  exact ⟨⟨u, { gen := g, acks := [s.pos] }, hchange, hroutes.stopped, hroutes.work, hroutes.routeGen, rfl, hgen,
    hroutes.routes⟩, u.cmdResult 0, { gen := g, acks := [s.pos] }, hcmd, hroutes.stopped, hroutes.work, hroutes.routeGen, rfl⟩

end Sys2Proof.Machine
end

section
/-! Letterboxes (R311): what a count written leaves of its ring, and the same count written through the window. -/

namespace Sys2Proof.Machine

-- one theorem after the other: proofs that wait together take too many threads
set_option Elab.async false

/-! ### Connections and the answers of the responder (R306) -/

section Answers
variable {s : State} {n : Nat} {c : Conn}

theorem State.conn?_num (h : s.conn? n = some c) : c.num = n := by simpa using List.find?_some h

/-- An answer of the responder reaches the outbox and the counters alone. -/
theorem State.frame_roceAck (s : State) (n : Nat) : Frame [.outbox, .ctr] s (s.roceAck n) :=
  (State.roceAck_leads .refl (List.Subset.refl _)).frame

theorem State.frame_roceData (s : State) (n : Nat) (d : List Byte) : Frame [.outbox, .ctr] s (s.roceData n d) :=
  (State.roceData_leads .refl (List.Subset.refl _)).frame

theorem State.frame_roceNak (s : State) (n k : Nat) : Frame [.outbox, .ctr] s (s.roceNak n k) :=
  (State.roceNak_leads .refl (List.Subset.refl _)).frame

@[simp] theorem State.outbox_roceAck (s : State) (n : Nat) : (s.roceAck n).outbox = .roceAck n :: s.outbox := by
  simp [State.roceAck]

@[simp] theorem State.outbox_roceData (s : State) (n : Nat) (d : List Byte) :
    (s.roceData n d).outbox = .roceData n d :: s.outbox := by
  simp [State.roceData]

@[simp] theorem State.outbox_roceNak (s : State) (n k : Nat) : (s.roceNak n k).outbox = .roceNak n k :: s.outbox := by
  simp [State.roceNak]

@[simp] theorem State.boxes_roceAck (s : State) (n : Nat) : (s.roceAck n).boxes = s.boxes :=
  (s.frame_roceAck n).boxes (by decide)

@[simp] theorem State.log_roceAck (s : State) (n : Nat) : (s.roceAck n).log = s.log := (s.frame_roceAck n).log (by decide)

@[simp] theorem State.mem_roceAck (s : State) (n : Nat) : (s.roceAck n).mem = s.mem := (s.frame_roceAck n).mem (by decide)

@[simp] theorem State.box_roceAck (s : State) (n b : Nat) : (s.roceAck n).box b = s.box b :=
  State.box_of_boxes (s.boxes_roceAck n) b

/-- Counters of one page advance each for itself. -/
theorem State.live_bump_other (s : State) (p : Pg) (i k : Nat) {n m : Nat} (h : m ≠ n) :
    (s.bump p i n k).live p i m = s.live p i m := s.live_bump_ne p p i i n m k fun e => h ((ctrKey_inj p i m n).mp e)

theorem State.counted_bump_other (s : State) (p : Pg) (i j k : Nat) {n m : Nat} (h : m ≠ n) :
    (s.bump p i n j).counted p i m k = s.counted p i m k :=
  State.counted_eq (s.frozen_bump ..) (s.live_bump_other p i j h) k

end Answers

/-! ### A count that is taken, and one that is not -/

section Counts
variable {s : State} {b ring count : Nat} {q : SubRing}

/-- An update of the ring of one index is what the search for the index finds. -/
theorem find?_map_ring {l : List SubRing} (hq : l.find? (fun q => q.index == ring) = some q) (f : SubRing → SubRing)
    (hf : ∀ q, (f q).index = q.index) :
    (l.map (fun q => if q.index = ring then f q else q)).find? (fun q => q.index == ring) = some (f q) := by
  have hkeep : ((fun q : SubRing => q.index == ring) ∘ fun q => if q.index = ring then f q else q) =
      fun q => q.index == ring := by
    funext q
    by_cases h : q.index = ring <;> simp [h, hf]
  have hindex : q.index = ring := by simpa using List.find?_some hq
  rw [List.find?_map, hkeep, hq, Option.map_some, if_pos hindex]

/-- The box with the tail of one of its submission rings set. -/
def BoxSt.withTail (x : BoxSt) (ring count : Nat) : BoxSt :=
  { x with subs := x.subs.map (fun q => if q.index = ring then { q with tail := count } else q) }

theorem BoxSt.find?_withTail {x : BoxSt} (hq : x.subs.find? (fun q => q.index == ring) = some q) (count : Nat) :
    (x.withTail ring count).subs.find? (fun q => q.index == ring) = some { q with tail := count } :=
  find?_map_ring hq (fun q => { q with tail := count }) fun _ => rfl

/-- The tail's count moves forward, no more than the ring's size ahead of what the ledger took. -/
def SubRing.takes (q : SubRing) (count : Nat) : Prop :=
  ahead q.tail q.taken ≤ ahead count q.taken ∧ ahead count q.taken ≤ q.size

theorem State.sqTail_taken (hq : (s.box b).subs.find? (fun q => q.index == ring) = some q) (h : q.takes count) :
    s.sqTail b ring count = s.modBox b (fun x => x.withTail ring count) := by
  obtain ⟨hback, hfar⟩ := h
  simp only [State.sqTail, hq]
  exact if_neg (by omega)

theorem State.sqTail_ignored (hq : (s.box b).subs.find? (fun q => q.index == ring) = some q) (h : ¬q.takes count) :
    s.sqTail b ring count = s.letterboxError b (8 * ring) count := by
  simp only [State.sqTail, hq]
  refine if_pos ?_
  rw [SubRing.takes] at h
  omega

theorem State.outHead_taken {dead : Bool}
    (h : ahead count ((s.box b).counts dead).head ≤ ahead ((s.box b).counts dead).written ((s.box b).counts dead).head) :
    s.outHead b dead count = s.modBox b (fun x => x.setCounts dead { (s.box b).counts dead with head := count }) :=
  if_neg (not_lt.mpr h)

theorem State.outHead_ignored {dead : Bool}
    (h : ahead ((s.box b).counts dead).written ((s.box b).counts dead).head < ahead count ((s.box b).counts dead).head) :
    s.outHead b dead count = s.letterboxError b (if dead then 0x48 else 0x40) count := if_pos h

/-- What an ignored count leaves, once it is acknowledged: the count in LETTERBOX_ERRORS, and its record. -/
theorem State.letterboxError_spec (s : State) (b off count conn : Nat) :
    ((s.letterboxError b off count).roceAck conn).boxes = s.boxes ∧
    ((s.letterboxError b off count).roceAck conn).outbox = .roceAck conn :: s.outbox ∧
    ((s.letterboxError b off count).roceAck conn).live .hostif 0 16 = s.counted .hostif 0 16 1 ∧
    Recorded { pageRec .hostif 0 0x0801 .warning with box := some b, a := off, b := count } s
      ((s.letterboxError b off count).roceAck conn) := by
  refine ⟨?_, ?_, ?_, ?_⟩
  · rw [State.boxes_roceAck, State.letterboxError, State.event_boxes, State.bump_boxes]
  · rw [State.outbox_roceAck, State.letterboxError, State.event_outbox, State.bump_outbox]
  · rw [State.roceAck, State.live_emit, State.live_bump_other _ _ _ _ (by decide), State.letterboxError, State.live_event,
      State.live_bump]
  · rw [Recorded, State.log_roceAck, State.letterboxError, State.event_log, State.bump_log]

end Counts

/-! ### The letterboxes by name -/

section Named
variable {s : State} {conn ring : Nat} {count : W32} {c : Conn} (hc : s.conn? conn = some c)
include hc

theorem exec_sqTail_eq (hr : ring < 8) (count : W32) :
    exec (.sqTail conn ring count) s = .next ((s.sqTail c.box ring count.toNat).roceAck conn) := by
  show execSqTail conn ring count s = _
  simp [execSqTail, hc, hr]

theorem exec_outHead_eq (dead : Bool) (count : W32) :
    exec (if dead then .dlqHead conn count else .cqHead conn count) s =
      .next ((s.outHead c.box dead count.toNat).roceAck conn) := by
  cases dead
  · show execCqHead conn count s = _
    simp [execCqHead, hc]
  · show execDlqHead conn count s = _
    simp [execDlqHead, hc]

theorem exec_sqTail_taken (hs : s.Shape) (hb : c.box < 64) (hr : ring < 8) {q : SubRing}
    (hq : (s.box c.box).subs.find? (fun q => q.index == ring) = some q) (h : q.takes count.toNat) :
    ∃ t, exec (.sqTail conn ring count) s = .next t ∧ OtherBoxes c.box s t ∧ t.outbox = .roceAck conn :: s.outbox ∧
      t.mem = s.mem ∧ (t.box c.box).subs.find? (fun q => q.index == ring) = some { q with tail := count.toNat } := by
  refine ⟨_, exec_sqTail_eq hc hr count, ?_⟩
  rw [State.sqTail_taken hq h]
  refine ⟨fun d hd => ?_, State.outbox_roceAck .., State.mem_roceAck .., ?_⟩
  · rw [State.box_roceAck, OtherBoxes.modBox s c.box _ d hd]
  · rw [State.box_roceAck, State.box_modBox_same (hs.lt_boxes hb), BoxSt.find?_withTail hq]

theorem exec_sqTail_ignored (hr : ring < 8) {q : SubRing}
    (hq : (s.box c.box).subs.find? (fun q => q.index == ring) = some q) (h : ¬q.takes count.toNat) :
    ∃ t, exec (.sqTail conn ring count) s = .next t ∧ t.boxes = s.boxes ∧ t.outbox = .roceAck conn :: s.outbox ∧
      t.live .hostif 0 16 = s.counted .hostif 0 16 1 ∧ Recorded { pageRec .hostif 0 0x0801 .warning with
        box := some c.box, a := 8 * ring, b := count.toNat } s t := by
  refine ⟨_, exec_sqTail_eq hc hr count, ?_⟩
  rw [State.sqTail_ignored hq h]
  exact s.letterboxError_spec ..

theorem exec_outHead_taken (hs : s.Shape) (hb : c.box < 64) {dead : Bool}
    (h : ahead count.toNat ((s.box c.box).counts dead).head ≤
      ahead ((s.box c.box).counts dead).written ((s.box c.box).counts dead).head) :
    ∃ t, exec (if dead then .dlqHead conn count else .cqHead conn count) s = .next t ∧ OtherBoxes c.box s t ∧
      t.box c.box = (s.box c.box).setCounts dead { (s.box c.box).counts dead with head := count.toNat } ∧
      t.outbox = .roceAck conn :: s.outbox := by
  refine ⟨_, exec_outHead_eq hc dead count, ?_⟩
  rw [State.outHead_taken h]
  refine ⟨fun d hd => ?_, ?_, State.outbox_roceAck ..⟩
  · rw [State.box_roceAck, OtherBoxes.modBox s c.box _ d hd]
  · rw [State.box_roceAck, State.box_modBox_same (hs.lt_boxes hb)]

theorem exec_outHead_ignored {dead : Bool}
    (h : ahead ((s.box c.box).counts dead).written ((s.box c.box).counts dead).head <
      ahead count.toNat ((s.box c.box).counts dead).head) :
    ∃ t, exec (if dead then .dlqHead conn count else .cqHead conn count) s = .next t ∧ t.boxes = s.boxes ∧
      t.live .hostif 0 16 = s.counted .hostif 0 16 1 ∧ Recorded { pageRec .hostif 0 0x0801 .warning with
        box := some c.box, a := if dead then 0x48 else 0x40, b := count.toNat } s t := by
  obtain ⟨hboxes, -, hlive, hrec⟩ := s.letterboxError_spec c.box (if dead then 0x48 else 0x40) count.toNat conn
  exact ⟨_, State.outHead_ignored h ▸ exec_outHead_eq hc dead count, hboxes, hlive, hrec⟩

end Named

/-! ### The letterboxes through their window (R307) -/

/-- What a tail's count leaves of the boxes, the recorder and the outbox does not depend on the counters. -/
theorem State.sqTail_bump (s : State) (p : Pg) (i n k b ring count : Nat) :
    ((s.bump p i n k).sqTail b ring count).boxes = (s.sqTail b ring count).boxes ∧
    ((s.bump p i n k).sqTail b ring count).log = (s.sqTail b ring count).log ∧
    ((s.bump p i n k).sqTail b ring count).outbox = (s.sqTail b ring count).outbox := by
  have hbox : (s.bump p i n k).box b = s.box b := State.box_of_boxes (State.bump_boxes ..) b
  simp only [State.sqTail, hbox]
  split
  · simp [State.letterboxError]
  · split
    · simp [State.letterboxError]
    · simp [State.modBox]

theorem State.letterbox_tail (s : State) (b : Nat) {r : Nat} (hr : r < 8) (count : Nat) :
    s.letterbox b (8 * r) count = some (s.sqTail b r count) := by
  rw [State.letterbox, if_neg (by omega), if_pos (by omega), Nat.mul_div_cancel_left r (by decide)]

@[simp] theorem State.pos_bump (s : State) (p : Pg) (i n k : Nat) : (s.bump p i n k).pos = s.pos :=
  congrArg Pins.strapPos (State.bump_pins ..)

section Window
variable {s : State} {conn key : Nat} {va : W64} {data : List Byte} {c : Conn} (hc : s.conn? conn = some c)
  (hkey : key = c.key) (hpos : rocePos va = s.pos) (hserving : s.fab.members.getD s.pos .absent = .serving)
include hc hkey hpos hserving

theorem exec_rdmaWrite_window_bad (hw : roceWindow va = 1) (hlen : data.length ≠ 8) :
    exec (.rdmaWrite conn key va data) s =
      .next ((s.bump .hostif 0 0 (frames c.mtu data.length)).roceNak conn nakInvalid) := by
  show execRdmaWrite conn key va data s = _
  simp [execRdmaWrite, hc, hkey, hpos, hw, hserving, hlen, -List.getD_eq_getElem?_getD]

theorem exec_rdmaWrite_window_letterbox (hw : roceWindow va = 1) (hlen : data.length = 8) {u : State}
    (hu : (s.bump .hostif 0 0 (frames c.mtu data.length)).letterbox c.box (roceAddr va) (leNat (data.take 4)) = some u) :
    exec (.rdmaWrite conn key va data) s = .next (u.roceAck conn) := by
  rw [hlen] at hu
  show execRdmaWrite conn key va data s = _
  simp [execRdmaWrite, hc, hkey, hpos, hw, hserving, hlen, hu, -List.getD_eq_getElem?_getD]

/-- A write of the window that is no letterbox's size is refused. -/
theorem exec_rdmaWrite_window_of_size (hw : roceWindow va = 1) (hlen : data.length ≠ 8) :
    ∃ t, exec (.rdmaWrite conn key va data) s = .next t ∧ t.outbox = .roceNak conn nakInvalid :: s.outbox ∧
      t.boxes = s.boxes := by
  refine ⟨_, exec_rdmaWrite_window_bad hc hkey hpos hserving hw hlen, ?_, ?_⟩
  · rw [State.outbox_roceNak, State.bump_outbox]
  · rw [(State.frame_roceNak ..).boxes (by decide), State.bump_boxes]

/-- The window's write at a tail's offset does what the letterbox does by name. -/
theorem exec_rdmaWrite_window_tail (hw : roceWindow va = 1) {r : Nat} (hlen : data.length = 8) (hr : r < 8)
    (ha : roceAddr va = 8 * r) :
    ∃ t u, exec (.rdmaWrite conn key va data) s = .next t ∧
      exec (.sqTail conn r (BitVec.ofNat 32 (leNat (data.take 4)))) s = .next u ∧ t.boxes = u.boxes ∧ t.log = u.log ∧
      t.outbox = u.outbox := by
  have hcount : (BitVec.ofNat 32 (leNat (data.take 4))).toNat = leNat (data.take 4) :=
    toNat_ofNat_leNat (by rw [List.length_take, hlen]; rfl)
  obtain ⟨hboxes, hlog, hout⟩ :=
    s.sqTail_bump .hostif 0 0 (frames c.mtu data.length) c.box r (leNat (data.take 4))
  refine ⟨_, _, exec_rdmaWrite_window_letterbox hc hkey hpos hserving hw hlen (ha ▸ State.letterbox_tail _ _ hr _),
    exec_sqTail_eq hc hr _, ?_, ?_, ?_⟩
  · rw [hcount, State.boxes_roceAck, State.boxes_roceAck, hboxes]
  · rw [hcount, State.log_roceAck, State.log_roceAck, hlog]
  · rw [hcount, State.outbox_roceAck, State.outbox_roceAck, hout]

end Window

/-- Settles O43: a count is taken into its ring or ignored as an error of its letterbox, by name or through the window. -/
theorem letterboxesTakeCountsWithinTheRing : Obligations.LetterboxesTakeCountsWithinTheRing := by
  refine ⟨fun s conn ring count c q hs hc hb hr hq => ⟨fun hback hfar => exec_sqTail_taken hc hs hb hr hq ⟨hback, hfar⟩,
      fun hout => exec_sqTail_ignored hc hr hq fun h => ?_⟩,
    fun s conn dead count c hs hc hb => ⟨exec_outHead_taken hc hs hb, exec_outHead_ignored hc⟩,
    fun s conn key va data c hc hkey hpos hserving hw => ⟨exec_rdmaWrite_window_of_size hc hkey hpos hserving hw,
      fun r hlen hr ha => exec_rdmaWrite_window_tail hc hkey hpos hserving hw hlen hr ha⟩⟩
  obtain ⟨hback, hfar⟩ := h
  omega

end Sys2Proof.Machine
end

section
/-! Entries posted and notices (R315, R316, R326, R362), and the host link's changes (R304, R328). -/

namespace Sys2Proof.Machine

-- one theorem after the other: proofs that wait together take too many threads
set_option Elab.async false

/-! ### Entries written into their ring (R315) -/

section Post
variable {s : State} {b : Nat} {dead : Bool} {r : OutRing} {e : PostEntry} {l : List PostEntry}

@[simp] theorem State.box_emit (s : State) (o : Out) (b : Nat) : (s.emit o).box b = s.box b := rfl

@[simp] theorem State.box_bump (s : State) (p : Pg) (i n k b : Nat) : (s.bump p i n k).box b = s.box b :=
  State.box_of_boxes (State.bump_boxes ..) b

/-- The box once its oldest waiting entry has been written, for counts `n` of the ring. -/
def BoxSt.posted (x : BoxSt) (dead : Bool) (e : PostEntry) (l : List PostEntry) (n : RingCounts) : BoxSt :=
  (x.setLists dead l (x.sent dead ++ [e])).setCounts dead
    { n with written := (n.written + 1) % 2 ^ 32, posted := n.posted + 1, fullSince := none }

/-- Time for which an entry waited for a slot. -/
def RingCounts.waited (n : RingCounts) (now : Nat) : Nat := match n.fullSince with | some t => now - t | none => 0

/-- Counter of the entries written into a ring. -/
def entryCtr (dead : Bool) : Nat := if dead then 13 else 12

section Waiting
variable (hr : (s.box b).outRing dead = some r) (hw : (s.box b).waits dead = e :: l) (hreq : s.requester b = true)
include hr hw hreq

theorem State.writeEntry_room {n : RingCounts} (hn : n = (s.box b).counts dead)
    (hroom : (n.written + 2 ^ 32 - n.head) % 2 ^ 32 < r.size) :
    s.writeEntry b dead = ((((s.modBox b (fun x => x.posted dead e l n)).bump .hostif 0 14 (n.waited s.time.t)).bump
      .hostif 0 (entryCtr dead) 1).bump .hostif 0 1 1).emit (.entry b dead (n.written % max r.size 1)
        (leBytes (if dead then 64 else 32) (e.body + ringPhase r.size n.written))) := by
  subst hn
  simp only [State.writeEntry, hr, hw, hreq, Bool.not_true, Bool.false_eq_true, if_false, if_neg (not_le.mpr hroom)]
  rfl

theorem State.writeEntry_full {n : RingCounts} (hn : n = (s.box b).counts dead)
    (hfull : r.size ≤ (n.written + 2 ^ 32 - n.head) % 2 ^ 32) :
    s.writeEntry b dead =
      s.modBox b (fun x => x.setCounts dead { n with fullSince := n.fullSince.or (some s.time.t) }) := by
  subst hn
  simp only [State.writeEntry, hr, hw, hreq, Bool.not_true, Bool.false_eq_true, if_false, if_pos hfull]

variable (hs : s.Shape) (hb : b < 64)
include hs hb

theorem exec_entryPost_room {n : RingCounts} (hn : n = (s.box b).counts dead)
    (hroom : (n.written + 2 ^ 32 - n.head) % 2 ^ 32 < r.size) :
    ∃ t, exec (.entryPost b dead) s = .next t ∧ OtherBoxes b s t ∧ t.box b = (s.box b).posted dead e l n ∧
      t.outbox = .entry b dead (n.written % max r.size 1)
        (leBytes (if dead then 64 else 32) (e.body + ringPhase r.size n.written)) :: s.outbox ∧
      t.live .hostif 0 (entryCtr dead) = s.counted .hostif 0 (entryCtr dead) 1 ∧
      t.live .hostif 0 14 = s.counted .hostif 0 14 (n.waited s.time.t) := by
  have hexec : exec (.entryPost b dead) s = .next (s.writeEntry b dead) := rfl
  rw [State.writeEntry_room hr hw hreq hn hroom] at hexec
  have hctr : entryCtr dead ≠ 1 ∧ entryCtr dead ≠ 14 := by cases dead <;> decide
  obtain ⟨h1, h14⟩ := hctr
  refine ⟨_, hexec, fun d hd => ?_, ?_, ?_, ?_, ?_⟩
  · simp only [State.box_emit, State.box_bump]
    exact OtherBoxes.modBox s b _ d hd
  · simp only [State.box_emit, State.box_bump]
    exact State.box_modBox_same (hs.lt_boxes hb) _
  · simp only [State.emit_outbox, State.bump_outbox, State.modBox_outbox]
  · rw [State.live_emit, State.live_bump_other _ _ _ _ h1, State.live_bump, State.counted_bump_other _ _ _ _ _ h14]
    rfl
  · rw [State.live_emit, State.live_bump_other _ _ _ _ (by decide), State.live_bump_other _ _ _ _ h14.symm, State.live_bump]
    rfl

theorem exec_entryPost_full {n : RingCounts} (hn : n = (s.box b).counts dead)
    (hfull : r.size ≤ (n.written + 2 ^ 32 - n.head) % 2 ^ 32) :
    ∃ t, exec (.entryPost b dead) s = .next t ∧ OtherBoxes b s t ∧
      t.box b = (s.box b).setCounts dead { n with fullSince := n.fullSince.or (some s.time.t) } ∧ t.outbox = s.outbox :=
  ⟨_, congrArg Host.Outcome.next (State.writeEntry_full hr hw hreq hn hfull), OtherBoxes.modBox s b _,
    State.box_modBox_same (hs.lt_boxes hb) _, rfl⟩

end Waiting

theorem exec_entryPost_idle
    (h : (s.box b).outRing dead = none ∨ (s.box b).waits dead = [] ∨ s.requester b = false) :
    exec (.entryPost b dead) s = .next s := by
  refine congrArg Host.Outcome.next ?_
  unfold State.writeEntry
  dsimp only
  split
  · rename_i hr hw
    rcases h with h | h | h
    · rw [h] at hr; cases hr
    · rw [h] at hw; cases hw
    · rw [h]; rfl
  · rfl

/-! ### Entries acknowledged (R362) -/

/-- The ledger without one of its entries. -/
def State.freeItem (s : State) (id : Nat) : State := { s with items := s.items.filter (fun i => i.id != id) }

theorem State.item?_freeItem (s : State) (id j : Nat) : (s.freeItem id).item? j = if j = id then none else s.item? j := by
  simp only [State.item?, State.freeItem, List.find?_filter]
  split
  · rename_i h
    subst h
    simp
  · rename_i h
    refine congrArg (List.find? · s.items) (funext fun i => ?_)
    by_cases hi : i.id = j <;> simp [hi, h]

/-- The oldest entry sent is taken off, and its item, where it has one, leaves the ledger. -/
theorem exec_entryPosted_eq (h : (s.box b).sent dead = e :: l) : exec (.entryPosted b dead) s =
    .next (e.item.elim (s.modBox b (fun x => x.setLists dead (x.waits dead) l))
      (s.modBox b (fun x => x.setLists dead (x.waits dead) l)).freeItem) := by
  show execEntryPosted b dead s = _
  simp only [execEntryPosted, h]
  cases e.item <;> rfl

theorem exec_entryPosted (hs : s.Shape) (hb : b < 64) (h : (s.box b).sent dead = e :: l) :
    ∃ t, exec (.entryPosted b dead) s = .next t ∧ OtherBoxes b s t ∧
      t.box b = (s.box b).setLists dead ((s.box b).waits dead) l ∧ (e.item = none → t.items = s.items) ∧
      ∀ id, e.item = some id → t.item? id = none ∧ OtherItems id s t := by
  obtain ⟨u, hu⟩ : ∃ u, s.modBox b (fun x => x.setLists dead (x.waits dead) l) = u := ⟨_, rfl⟩
  have hexec := exec_entryPosted_eq h
  have hothers : OtherBoxes b s u := hu ▸ OtherBoxes.modBox s b _
  have hbox : u.box b = (s.box b).setLists dead ((s.box b).waits dead) l := hu ▸ State.box_modBox_same (hs.lt_boxes hb) _
  have hitems : u.items = s.items := hu ▸ rfl
  rw [hu] at hexec
  cases hi : e.item with
  | none =>
    rw [hi] at hexec
    exact ⟨u, hexec, hothers, hbox, fun _ => hitems, fun id hid => by cases hid⟩
  | some id =>
    rw [hi] at hexec
    refine ⟨u.freeItem id, hexec, hothers, hbox, (fun hid => by cases hid), fun j hj => ?_⟩
    obtain rfl := Option.some.inj hj
    refine ⟨(u.item?_freeItem id id).trans (if_pos rfl), fun j hj => ?_⟩
    exact ((u.item?_freeItem id j).trans (if_neg hj)).trans (State.item?_of_items hitems j)

theorem exec_entryPosted_idle (h : (s.box b).sent dead = []) : exec (.entryPosted b dead) s = .next s := by
  show execEntryPosted b dead s = _
  simp only [execEntryPosted, h]

/-! ### Notices (R316) -/

/-- The instant from which the next notice of a ring may be sent. -/
def State.noticeAt (s : State) (n : RingCounts) : Nat := match n.lastNotice with | some x => x + s.holdoff | none => 0

/-- The state at an instant, or as it is where that has passed. -/
def State.atTime (s : State) (t : Nat) : State := s.setTime (fun u => { u with t := max u.t t })

theorem State.sendNotice_eq (hr : ((s.box b).outRing dead).isSome = true) (hreq : s.requester b = true) {n : RingCounts}
    (hn : n = (s.box b).counts dead) :
    s.sendNotice b dead = (((s.modBox b (fun x => x.setCounts dead { n with
      posted := 0, lastNotice := some s.time.t })).bump .hostif 0 15 1).bump .hostif 0 1 1).emit
        (.notice b dead (b * 2 ^ 26 + b2n dead * 2 ^ 24 + n.posted % 2 ^ 24)) := by
  subst hn
  have hidle : ¬(((s.box b).outRing dead).isNone ∨ !s.requester b) := by
    rw [hreq, Option.isNone_iff_eq_none]
    rintro (h | h)
    · rw [h] at hr; cases hr
    · cases h
  exact if_neg hidle

theorem exec_notice_eq {n : RingCounts} (hn : n = (s.box b).counts dead) (hposted : n.posted ≠ 0)
    (hr : ((s.box b).outRing dead).isSome = true) (hreq : s.requester b = true) :
    exec (.notice b dead) s = .next ((s.atTime (s.noticeAt n)).sendNotice b dead) := by
  subst hn
  have hidle : ¬(((s.box b).counts dead).posted = 0 ∨ ((s.box b).outRing dead).isNone ∨ !s.requester b) := by
    rw [hreq, Option.isNone_iff_eq_none]
    rintro (h | h | h)
    · exact hposted h
    · rw [h] at hr; cases hr
    · cases h
  exact if_neg hidle

theorem exec_notice (hs : s.Shape) (hb : b < 64) {n : RingCounts} (hn : n = (s.box b).counts dead) (hposted : n.posted ≠ 0)
    (hr : ((s.box b).outRing dead).isSome = true) (hreq : s.requester b = true) :
    ∃ t, exec (.notice b dead) s = .next t ∧ OtherBoxes b s t ∧
      t.box b = (s.box b).setCounts dead { n with posted := 0, lastNotice := some t.time.t } ∧
      t.time.t = max s.time.t (s.noticeAt n) ∧
      t.outbox = .notice b dead (b * 2 ^ 26 + b2n dead * 2 ^ 24 + n.posted % 2 ^ 24) :: s.outbox ∧
      t.live .hostif 0 15 = s.counted .hostif 0 15 1 := by
  have hexec := exec_notice_eq hn hposted hr hreq
  rw [State.sendNotice_eq (s := s.atTime (s.noticeAt n)) hr hreq hn] at hexec
  refine ⟨_, hexec, fun d hd => ?_, ?_, ?_, ?_, ?_⟩
  · simp only [State.box_emit, State.box_bump]
    exact OtherBoxes.modBox (s.atTime (s.noticeAt n)) b _ d hd
  · simp only [State.box_emit, State.box_bump, State.emit_time, State.bump_time]
    exact State.box_modBox_same (s := s.atTime (s.noticeAt n)) (hs.lt_boxes hb) _
  · rw [State.emit_time, State.bump_time, State.bump_time]
    rfl
  · simp only [State.emit_outbox, State.bump_outbox, State.modBox_outbox]
    rfl
  · rw [State.live_emit, State.live_bump_other _ _ _ _ (by decide), State.live_bump]
    rfl

end Post

/-! ### The host link (R304, R328) -/

section HostLink
variable {s : State} {v a : Nat} {lock : Bool}

theorem exec_hostLinkChange (hv : v ≤ 2) (ha : a ≤ 3) (hne : (s.host.speed, s.host.an, s.host.pcsLock) ≠ (v, a, lock))
    (hprbs : bits (s.prbs 24) 9 8 = 0) :
    ∃ t, exec (.hostLinkChange v a lock) s = .next t ∧ t.host = { s.host with speed := v, an := a, pcsLock := lock } ∧
      IntRaised .hostif 0 0x100 s t ∧ Recorded { pageRec .hostif 0 0x0800 .warning with a := v } s t := by
  refine ⟨s.hostLink v a lock, ?_, rfl, State.intRaised_changed .hostif 0 rfl, rfl⟩
  show execHostLinkChange v a lock s = _
  simp only [execHostLinkChange, hv, ha, hne, hprbs, and_self, ne_eq, not_false_eq_true, decide_true, BEq.rfl, Bool.and_self,
    State.when_true]

theorem exec_hostLinkChange_same (h : (s.host.speed, s.host.an, s.host.pcsLock) = (v, a, lock)) :
    exec (.hostLinkChange v a lock) s = .next s := by
  show execHostLinkChange v a lock s = _
  simp only [execHostLinkChange, h, ne_eq, not_true_eq_false, decide_false, Bool.and_false, Bool.false_and, State.when_false]

end HostLink

end Sys2Proof.Machine
end

section
/-! Sessions closed (R320, R321, R326): the boxes that drain and lose their rings, the connections that go. -/

namespace Sys2Proof.Machine

-- one theorem after the other: proofs that wait together take too many threads
set_option Elab.async false

/-! ### Boxes of a session that drain -/

section Drained
variable {s : State} {n b c : Nat}

/-- A box that is not the default one is one of the module's. -/
theorem State.lt_boxes_of_ne (h : s.box b ≠ {}) : b < s.boxes.length := by
  by_contra hb
  exact h (List.getD_eq_default _ _ (not_lt.mp hb))

/-- DISABLE leaves the boxes as the drain's begin does, but for what the ledger adds. -/
theorem BoxesStand.disableBox (s : State) (b : Nat) :
    BoxesStand (s.modBox b (fun x => x.drainFrom s.time.t)) (s.disableBox b) := by
  unfold State.disableBox
  dsimp only
  refine BoxesStand.trans ?_ (.of_boxes ((State.frame_spreadBoxCmd ..).boxes (by decide)))
  exact BoxesStand.foldl _ (.of_boxes rfl) fun u id => .failItem u id { reason := .boxDisabled }

/-- The box drains if it is ACTIVE. -/
def State.drainActive (s : State) (b : Nat) : State := if (s.box b).state = .active then s.disableBox b else s

theorem State.session_drainActive (s : State) (b c : Nat) : ((s.drainActive b).box c).session = (s.box c).session := by
  rw [State.drainActive]
  split
  · have hstand := congrArg BoxSt.session (BoxesStand.disableBox s b c)
    simp only [BoxSt.standing] at hstand
    rw [hstand, State.box_modBox]
    split <;> rfl
  · rfl

theorem State.state_drainActive (s : State) (b c : Nat) : ((s.drainActive b).box c).state =
    if b = c ∧ (s.box c).state = .active then .draining else (s.box c).state := by
  rw [State.drainActive]
  split
  · rename_i hactive
    have hb : b < s.boxes.length := State.lt_boxes_of_ne fun h => by rw [h] at hactive; cases hactive
    have hstand := congrArg BoxSt.state (BoxesStand.disableBox s b c)
    simp only [BoxSt.standing] at hstand
    rw [hstand, State.box_modBox]
    by_cases hc : b = c
    · subst hc
      rw [if_pos ⟨rfl, hb⟩, if_pos ⟨rfl, hactive⟩]
      rfl
    · rw [if_neg fun h => hc h.1, if_neg fun h => hc h.1]
  · rename_i hidle
    exact (if_neg fun h : b = c ∧ _ => hidle (h.1 ▸ h.2)).symm

/-- An ACTIVE box of a list whose boxes drain one after the other is left DRAINING. -/
theorem State.state_foldl_drainActive {l : List Nat} (hl : c ∈ l) (h : (s.box c).state = .active) :
    ((l.foldl State.drainActive s).box c).state = .draining := by
  refine foldl_reaches (P := fun u : State => (u.box c).state = .active ∨ (u.box c).state = .draining)
    (Q := fun u => (u.box c).state = .draining) hl (fun u b hu => ?_) (fun u b hu => ?_) (fun u hu => ?_) (.inl h)
  · rw [State.state_drainActive]
    split
    · exact .inr rfl
    · exact hu
  · rw [State.state_drainActive, hu]
    exact if_neg fun h => nomatch h.2
  · rw [State.state_drainActive]
    rcases hu with hu | hu <;> simp [hu]

theorem State.session_foldl_drainActive (l : List Nat) (s : State) (c : Nat) :
    ((l.foldl State.drainActive s).box c).session = (s.box c).session :=
  List.foldlRecOn (motive := fun u : State => (u.box c).session = (s.box c).session) l _ rfl
    fun u hu b _ => (u.session_drainActive b c).trans hu

end Drained

/-! ### Boxes of a session that lose their rings -/

section Rings
variable {s : State} {n c : Nat}

/-- The rings of a list of boxes closed. -/
def State.closeAll (s : State) (l : List Nat) : State := l.foldl (fun u b => u.modBox b BoxSt.closeRings) s

theorem State.kept_closeRings (s : State) (b c : Nat) :
    ((s.modBox b BoxSt.closeRings).box c).state = (s.box c).state ∧
    ((s.modBox b BoxSt.closeRings).box c).session = (s.box c).session := by
  rw [State.box_modBox]
  split <;> exact ⟨rfl, rfl⟩

theorem State.state_closeAll (l : List Nat) (s : State) (c : Nat) : ((s.closeAll l).box c).state = (s.box c).state :=
  List.foldlRecOn (motive := fun u : State => (u.box c).state = (s.box c).state) l _ rfl
    fun u hu b _ => (u.kept_closeRings b c).1.trans hu

/-- A box of the list that belongs to a session has no completion and no dead-letter ring. -/
theorem State.rings_closeAll {l : List Nat} (hl : c ∈ l) (h : (s.box c).session = some n) :
    ((s.closeAll l).box c).cq = none ∧ ((s.closeAll l).box c).dlq = none := by
  refine foldl_reaches (P := fun u : State => (u.box c).session = some n)
    (Q := fun u => (u.box c).cq = none ∧ (u.box c).dlq = none) hl
    (fun u b hu => (u.kept_closeRings b c).2.trans hu) (fun u b hu => ?_) (fun u hu => ?_) h
  · rw [State.box_modBox]
    split
    · exact ⟨rfl, rfl⟩
    · exact hu
  · have hc : c < u.boxes.length := State.lt_boxes_of_ne fun h => by rw [h] at hu; cases hu
    rw [State.box_modBox_same hc]
    exact ⟨rfl, rfl⟩

end Rings

/-! ### The session closed -/

section Closed
variable {s : State} {n : Nat}

/-- What the close of session `n` leaves: the session and its connections gone, its boxes without rings, its ACTIVE ones
draining. -/
structure SessionClosed (n : Nat) (s t : State) : Prop where
  sessions : ∀ k ∈ t.host.sessions, k.num ≠ n
  conns : ∀ c ∈ t.host.conns, c.session ≠ n
  time : t.time = s.time
  drains b : b < 64 → (s.box b).session = some n → (s.box b).state = .active → (t.box b).state = .draining
  rings b : b < 64 → (s.box b).session = some n → (t.box b).cq = none ∧ (t.box b).dlq = none

theorem SessionClosed.session? {t : State} (h : SessionClosed n s t) : t.session? n = none :=
  List.find?_eq_none.mpr fun k hk => by simpa using h.sessions k hk

/-- The boxes that session `n` enabled. -/
def State.boxesOf (s : State) (n : Nat) : List Nat := (List.range 64).filter (fun b => (s.box b).session == some n)

theorem State.mem_boxesOf {b : Nat} (hb : b < 64) (h : (s.box b).session = some n) : b ∈ s.boxesOf n := by
  simp [State.boxesOf, hb, h]

theorem State.closeSession_eq (s : State) (n : Nat) : s.closeSession n =
    ((((s.boxesOf n).foldl State.drainActive s).closeAll (s.boxesOf n)).setHost (fun h => { h with
      sessions := h.sessions.filter (fun k => k.num != n), conns := h.conns.filter (fun c => c.session != n) })).changed
        .hostif 0 := rfl

theorem State.closeSession_closes (s : State) (n : Nat) : SessionClosed n s (s.closeSession n) := by
  have htime : (s.closeSession n).time = s.time :=
    (State.closeSession_leads .refl (List.Subset.refl _)).frame.time (by decide)
  refine ⟨fun k hk => ?_, fun c hc => ?_, htime, fun b hb h hactive => ?_, fun b hb h => ?_⟩
  · exact bne_iff_ne.mp (List.mem_filter.mp hk).2
  · exact bne_iff_ne.mp (List.mem_filter.mp hc).2
  · have hstate := State.state_closeAll (s.boxesOf n) ((s.boxesOf n).foldl State.drainActive s) b
    exact hstate.trans (State.state_foldl_drainActive (State.mem_boxesOf hb h) hactive)
  · have hsession := (State.session_foldl_drainActive (s.boxesOf n) s b).trans h
    exact State.rings_closeAll (State.mem_boxesOf hb h) hsession

theorem exec_sessionTimeout_eq {k : Session} (hk : s.session? n = some k) : exec (.sessionTimeout n) s =
    .next (s.when s.pbpUp ((s.atTime (k.lastHeard + s.sessionLimit)).closeSession n)) := by
  show execSessionTimeout n s = _
  simp only [execSessionTimeout, hk]
  rfl

theorem exec_sessionTimeout {k : Session} (hk : s.session? n = some k) (hup : s.pbpUp = true) :
    ∃ t, exec (.sessionTimeout n) s = .next t ∧ t.session? n = none ∧ (∀ c ∈ t.host.conns, c.session ≠ n) ∧
      t.time.t = max s.time.t (k.lastHeard + s.sessionLimit) ∧
      ∀ b, b < 64 → (s.box b).session = some n →
        ((s.box b).state = .active → (t.box b).state = .draining) ∧ (t.box b).cq = none ∧ (t.box b).dlq = none := by
  have hclosed := (s.atTime (k.lastHeard + s.sessionLimit)).closeSession_closes n
  refine ⟨_, (exec_sessionTimeout_eq hk).trans (by rw [hup, State.when_true]), hclosed.session?, hclosed.conns,
    congrArg TimeUnit.t hclosed.time, fun b hb h => ⟨hclosed.drains b hb h, hclosed.rings b hb h⟩⟩

theorem exec_sessionTimeout_down {k : Session} (hk : s.session? n = some k) (hup : s.pbpUp = false) :
    exec (.sessionTimeout n) s = .next s := by
  rw [exec_sessionTimeout_eq hk, hup, State.when_false]

end Closed

/-- Settles O45: a post by what the ring's room decides, an acknowledgement by the entry it takes off, a notice by the counts
it sends, a silent session by what its close leaves. -/
theorem entriesArePostedAndNoticed : Obligations.EntriesArePostedAndNoticed :=
  ⟨fun _ _ _ _ _ _ _ hs hb hn hr hw hreq => ⟨exec_entryPost_room hr hw hreq hs hb hn,
      exec_entryPost_full hr hw hreq hs hb hn⟩,
    fun _ _ _ => exec_entryPost_idle, fun _ _ _ _ _ hs hb => exec_entryPosted hs hb, fun _ _ _ => exec_entryPosted_idle,
    fun _ _ _ _ hs hb hn hposted hr hreq => exec_notice hs hb hn hposted hr hreq,
    fun _ _ _ _ hk => ⟨exec_sessionTimeout hk, exec_sessionTimeout_down hk⟩,
    fun _ _ _ _ => ⟨exec_hostLinkChange, exec_hostLinkChange_same⟩⟩

end Sys2Proof.Machine
end

section
/-! Bytes of box memory within one page (R222, R228, R241): what a host's write leaves of them (R308). -/

namespace Sys2Proof.Machine

-- one theorem after the other: proofs that wait together take too many threads
set_option Elab.async false

/-! ### A range within one page -/

section Page
variable {s t : State} {b va n : Nat} {e : W64}

/-- Box memory depends on the boxes alone as far as its pages go. -/
theorem State.pte?_of_boxes (h : t.boxes = s.boxes) (b va : Nat) : t.pte? b va = s.pte? b va := by
  rw [State.pte?, State.box_of_boxes h, State.pte?]

theorem State.pte?_page {a : Nat} (h : a / pageSize = va / pageSize) : s.pte? b a = s.pte? b va := by
  rw [State.pte?, State.pte?, h]

variable (hpage : va % pageSize + n ≤ pageSize)
include hpage

theorem page_within {a : Nat} (ha : va ≤ a) (hlt : a < va + n) :
    a / pageSize = va / pageSize ∧ a % pageSize = va % pageSize + (a - va) := by
  simp only [pageSize] at *
  omega

variable (hn : 1 ≤ n)
include hn

/-- Such a range meets one page. -/
theorem pages_within : (va + n + pageSize - 1) / pageSize - va / pageSize = 1 := by
  simp only [pageSize] at *
  omega

theorem State.mapped_page (he : s.pte? b va = some e) (hw : pteWritable e = true) (hva : va < 2 ^ 48) :
    s.mapped b va n true = true := by
  have hend : va + n ≤ 2 ^ 48 := by
    simp only [pageSize] at hpage
    omega
  rw [State.mapped, decide_eq_true hend, pages_within hpage hn]
  simp [he, hw]

theorem State.reduceOk_page (he : s.pte? b va = some e) : s.reduceOk b va n = (pteReduce e == 0 ||
    decide (va % reduceWidth (pteReduce e) = 0 ∧ n % reduceWidth (pteReduce e) = 0)) := by
  simp [State.reduceOk, pages_within hpage hn, he]

/-- A range that ends below flash meets no absent granule. -/
theorem State.absentIn_hbm (he : s.pte? b va = some e) (hda : pteDa e + va % pageSize + n ≤ flashBase) :
    s.absentIn b va n = none := by
  rw [State.absentIn, List.findSome?_eq_none_iff]
  intro i hi
  obtain ⟨a, ha⟩ : ∃ a, max va ((va / 65536 + i) * 65536) = a := ⟨_, rfl⟩
  have hlt := List.mem_range.mp hi
  obtain ⟨hsame, hoff⟩ := page_within hpage (a := a) (by omega) (by omega)
  have hlow : pteDa e + a % pageSize < flashBase := by omega
  simp only [ha, State.pte?_page hsame, he, if_pos hlow]

end Page

/-! ### A write within one page -/

section Write
variable {s t : State} {b va : Nat} {e : W64} {data : List Byte}

theorem State.storeBox_page (he : s.pte? b va = some e) (hn : 1 ≤ data.length) (hpage : va % pageSize + data.length ≤ pageSize)
    (bad : Nat → Bool) : s.storeBox b va data bad =
      if pteReduce e = 0 then s.writePage b va data bad else s.reducePage b va data bad := by
  have hroom : data.length ≤ pageSize - va % pageSize := by omega
  have hne : data ≠ [] := List.ne_nil_of_length_pos hn
  by_cases hr : pteReduce e = 0 <;>
    simp [State.storeBox, State.storeFuel, hne, he, hr, List.take_of_length_le hroom, List.drop_of_length_le hroom]

/-- What a data unit of a protected page holds before it comes under the box's key: free values (R241). -/
def State.strayUnit (s : State) (b va u : Nat) : List Byte :=
  (List.range 256).map (fun i => Config.freeByte (s.box b).protSeed (va / pageSize * pageSize + (u * 256) % pageSize + i))

/-- A data unit of a protected page that comes under the box's key, unless it stands there already (R241). -/
def State.fillUnit (b va : Nat) (s : State) (u : Nat) : State :=
  if s.protUnits.contains u then s
  else
    { s.memWrite (u * 256) (s.strayUnit b va u) (fun _ => false) with protUnits := setInsert s.protUnits u }

/-- Data units of 256 bytes that a run of bytes meets. -/
def unitsOf (da n : Nat) : List Nat := (List.range ((da + n - 1) / 256 - da / 256 + 1)).map (fun i => da / 256 + i)

theorem mem_unitsOf {da n u : Nat} : u ∈ unitsOf da n ↔ da / 256 ≤ u ∧ u ≤ da / 256 + ((da + n - 1) / 256 - da / 256) := by
  simp only [unitsOf, List.mem_map, List.mem_range]
  constructor
  · rintro ⟨i, hi, rfl⟩
    omega
  · intro h
    exact ⟨u - da / 256, by omega, by omega⟩

theorem State.writePage_eq (he : s.pte? b va = some e) (data : List Byte) (bad : Nat → Bool) :
    s.writePage b va data bad =
      (if pteProtected e then (unitsOf (pteDa e + va % pageSize) data.length).foldl (State.fillUnit b va) s else s).memWrite
        (pteDa e + va % pageSize) data bad := by
  simp only [State.writePage, he]
  split <;> rfl

/-- Units that come under protection: they are listed, and no byte outside them changes. -/
structure UnitsFilled (us : List Nat) (s t : State) : Prop where
  listed : ∀ u ∈ us, u ∈ t.protUnits
  others : ∀ x, x / 256 ∉ us → t.byteAt x = s.byteAt x

theorem State.unitsFilled_fillUnit (s : State) (b va : Nat) {u : Nat} (hu : u * 256 + 256 ≤ flashBase) :
    UnitsFilled [u] s (State.fillUnit b va s u) ∧ ∀ w ∈ s.protUnits, w ∈ (State.fillUnit b va s u).protUnits := by
  rw [State.fillUnit]
  split
  · rename_i h
    exact ⟨⟨by simpa using h, fun _ _ => rfl⟩, fun w hw => hw⟩
  · have hlen : (s.strayUnit b va u).length = 256 := by rw [State.strayUnit, List.length_map, List.length_range]
    have hw := s.bytesWritten_memWrite (da := u * 256) (bs := s.strayUnit b va u) (by omega) (by omega) (fun _ => false)
    refine ⟨⟨?_, fun x hx => ?_⟩, ?_⟩
    · simp [mem_setInsert_iff]
    · have hne : x / 256 ≠ u := by simpa using hx
      exact hw.others x (by omega)
    · intro w hw
      exact mem_setInsert_iff.mpr (.inr hw)

theorem State.unitsFilled_foldl {us : List Nat} (hus : ∀ u ∈ us, u * 256 + 256 ≤ flashBase) (s : State) (b va : Nat) :
    UnitsFilled us s (us.foldl (State.fillUnit b va) s) ∧
      ∀ w ∈ s.protUnits, w ∈ (us.foldl (State.fillUnit b va) s).protUnits := by
  induction us generalizing s with
  | nil => exact ⟨⟨(fun u hu => by cases hu), fun _ _ => rfl⟩, fun w hw => hw⟩
  | cons u us ih =>
    obtain ⟨hfirst, hkeep⟩ := s.unitsFilled_fillUnit b va (hus u (.head us))
    obtain ⟨hrest, hkeep'⟩ := ih (fun w hw => hus w (.tail u hw)) (State.fillUnit b va s u)
    refine ⟨⟨fun w hw => ?_, fun x hx => ?_⟩, fun w hw => hkeep' w (hkeep w hw)⟩
    · rcases List.mem_cons.mp hw with rfl | hw
      · exact hkeep' w (hfirst.listed w (.head []))
      · exact hrest.listed w hw
    · rw [List.mem_cons, not_or] at hx
      exact (hrest.others x hx.2).trans (hfirst.others x (by simpa using hx.1))

/-- A write of bytes to a plain page, at device address `da`: they are there, and units of a protected page that it meets
are under the box's key; bytes outside the run, and outside those units, stand. -/
structure PageWritten (e : W64) (da : Nat) (data : List Byte) (s t : State) : Prop where
  written (i : Nat) (hi : i < data.length) : t.byteAt (da + i) = data.getD i 0
  under (i : Nat) (hi : i < data.length) : pteProtected e = true → (da + i) / 256 ∈ t.protUnits
  others (x : Nat) (hx : x < da ∨ da + data.length ≤ x)
    (hu : pteProtected e = false ∨ x / 256 < da / 256 ∨ (da + data.length - 1) / 256 < x / 256) : t.byteAt x = s.byteAt x
  boxes : t.boxes = s.boxes

/-- A write to a page reaches memory, its marks, protection and the tier alone. -/
theorem State.frame_writePage (s : State) (b va : Nat) (data : List Byte) (bad : Nat → Bool) :
    Frame [.mem, .memPoison, .protUnits, .tier] s (s.writePage b va data bad) :=
  (State.writePage_leads .refl (List.Subset.refl _)).frame

theorem State.pageWritten_writePage (he : s.pte? b va = some e) {da : Nat} (hda : da = pteDa e + va % pageSize)
    (hn : 1 ≤ data.length) (hend : da + data.length ≤ flashBase) (bad : Nat → Bool) :
    PageWritten e da data s (s.writePage b va data bad) := by
  have hbase : flashBase % 256 = 0 := by decide
  obtain ⟨u, hu⟩ : ∃ u, (if pteProtected e then (unitsOf da data.length).foldl (State.fillUnit b va) s else s) = u := ⟨_, rfl⟩
  have hw := u.bytesWritten_memWrite (bs := data) hn hend bad
  have hfill : (pteProtected e = true → UnitsFilled (unitsOf da data.length) s u) ∧ (pteProtected e = false → u = s) := by
    constructor <;> intro hp <;> rw [hp] at hu
    · refine hu ▸ (State.unitsFilled_foldl (fun w hw => ?_) s b va).1
      have := mem_unitsOf.mp hw
      omega
    · exact hu.symm
  obtain ⟨hunits, hplain⟩ := hfill
  have hboxes := (s.frame_writePage b va data bad).boxes (by decide)
  rw [State.writePage_eq he, ← hda, hu] at hboxes ⊢
  refine ⟨hw.written, fun i hi hp => ?_, fun x hx hout => (hw.others x hx).trans ?_, hboxes⟩
  · rw [(u.frame_memWrite da data bad).protUnits (by decide)]
    exact (hunits hp).listed _ (mem_unitsOf.mpr (by omega))
  · cases hp : pteProtected e with
    | false => rw [hplain hp]
    | true =>
      refine (hunits hp).others x fun h => ?_
      have := mem_unitsOf.mp h
      rw [hp] at hout
      simp only [Bool.true_eq_false, false_or] at hout
      omega

theorem PageWritten.congr {u : State} {da : Nat} (h : PageWritten e da data s t) (hm : u.mem = t.mem) (ht : u.tier = t.tier)
    (hp : u.protUnits = t.protUnits) (hb : u.boxes = t.boxes) : PageWritten e da data s u :=
  ⟨fun i hi => (State.byteAt_congr hm ht _).trans (h.written i hi), fun i hi hprot => hp ▸ h.under i hi hprot,
    fun x hx hu => (State.byteAt_congr hm ht _).trans (h.others x hx hu), hb.trans h.boxes⟩

/-- Bytes written to a page read back as the box reads them. -/
theorem PageWritten.readBox {da : Nat} (h : PageWritten e da data s t) (he : s.pte? b va = some e)
    (hda : da = pteDa e + va % pageSize) (hpage : va % pageSize + data.length ≤ pageSize) :
    t.readBox b va data.length = data := by
  refine List.ext_getElem (by rw [State.readBox, List.length_map, List.length_range]) fun i hi hi' => ?_
  obtain ⟨hsame, hoff⟩ := page_within hpage (a := va + i) (by omega) (by omega)
  have hpte : t.pte? b (va + i) = some e := by rw [State.pte?_of_boxes h.boxes, State.pte?_page hsame, he]
  have haddr : pteDa e + (va + i) % pageSize = da + i := by omega
  have hbyte : t.byteOf b (va + i) = t.byteAt (da + i) := by
    simp only [State.byteOf, hpte, haddr]
    refine if_neg ?_
    cases hp : pteProtected e with
    | false => simp
    | true => simpa using h.under i hi' hp
  simp only [State.readBox, List.getElem_map, List.getElem_range]
  rw [hbyte, h.written i hi', List.getD_eq_getElem _ _ hi']

/-- The write of one element to a REDUCE page, at device address `da` (R228). -/
theorem State.bytesWritten_reducePage (he : s.pte? b va = some e) {da : Nat} (hda : da = pteDa e + va % pageSize)
    (hlen : data.length = reduceWidth (pteReduce e)) (hend : da + data.length ≤ flashBase) :
    BytesWritten da (s.reduced (pteReduce e) da data) s (s.reducePage b va data (fun _ => false)) := by
  have hpos := reduceWidth_pos (pteReduce e)
  have hsize : (s.reduced (pteReduce e) da data).length = data.length := leBytes_length _ _
  rw [State.reducePage_element he hlen, State.da_of_pte he, ← hda]
  exact (State.bytesWritten_memWrite (by omega) (by omega) _).congr (State.bump_mem ..) (State.bump_tier ..)

end Write

/-! ### What counting leaves of box memory -/

section Counted
variable (s : State) (p : Pg) (i n k : Nat)

theorem State.byteAt_bump (x : Nat) : (s.bump p i n k).byteAt x = s.byteAt x :=
  State.byteAt_congr (State.bump_mem ..) (State.bump_tier ..) x

theorem State.pte?_bump (b va : Nat) : (s.bump p i n k).pte? b va = s.pte? b va :=
  State.pte?_of_boxes (State.bump_boxes ..) b va

theorem State.mapped_bump (b va m : Nat) (w : Bool) : (s.bump p i n k).mapped b va m w = s.mapped b va m w := by
  simp only [State.mapped, State.pte?_bump]

theorem State.keyMissing_bump (b va : Nat) : (s.bump p i n k).keyMissing b va = s.keyMissing b va := by
  simp only [State.keyMissing, State.pte?_bump, State.box_of_boxes (State.bump_boxes s p i n k)]

theorem State.keyless_bump (b va m : Nat) : (s.bump p i n k).keyless b va m = s.keyless b va m := by
  simp only [State.keyless, State.keyMissing_bump]

theorem State.absentIn_bump (b va m : Nat) : (s.bump p i n k).absentIn b va m = s.absentIn b va m := by
  simp only [State.absentIn, State.pte?_bump, State.granule?_of_tier (State.bump_tier s p i n k)]

theorem State.da_bump (b va : Nat) : (s.bump p i n k).da b va = s.da b va := by
  simp only [State.da, State.pte?_bump]

theorem State.poisonAt_bump (x : Nat) : (s.bump p i n k).poisonAt x = s.poisonAt x := by
  simp only [State.poisonAt, State.bump_memPoison, State.bump_tier, State.granule?_of_tier (State.bump_tier s p i n k)]

theorem State.poisonedBox_bump (b va m : Nat) : (s.bump p i n k).poisonedBox b va m = s.poisonedBox b va m := by
  simp only [State.poisonedBox, State.keyMissing_bump, State.pte?_bump, State.poisonAt_bump, State.da_bump]

theorem State.readBox_bump (b va m : Nat) : (s.bump p i n k).readBox b va m = s.readBox b va m := by
  simp only [State.readBox, State.byteOf, State.pte?_bump, State.bump_protUnits, State.byteAt_bump,
    State.box_of_boxes (State.bump_boxes s p i n k)]

end Counted

end Sys2Proof.Machine
end

section
/-! RDMA accesses of the host (R306 to R308): writes, reads, refusals and congestion notices. -/

namespace Sys2Proof.Machine

-- one theorem after the other: proofs that wait together take too many threads
set_option Elab.async false

/-! ### Writes (R307, R308) -/

section Writes
variable {s : State} {c : Conn} {va : Nat} {data : List Byte} {e : W64}

/-- A write of one page that its mapping allows reaches the operation's check, and is stored once it passes. -/
theorem State.hostWrite_page (he : s.pte? c.box va = some e) (hw : pteWritable e = true) (hva : va < 2 ^ 48)
    (hpage : va % pageSize + data.length ≤ pageSize) (hn : 1 ≤ data.length)
    (hkey : s.keyless c.box va data.length = false) (hend : pteDa e + va % pageSize + data.length ≤ flashBase) :
    s.hostWrite c va data =
      if s.reduceOk c.box va data.length then (s.storeBox c.box va data (fun _ => false)).roceAck c.num
      else s.roceNak c.num nakInvalid := by
  simp only [State.hostWrite, State.mapped_page hpage hn he hw hva, hkey, State.absentIn_hbm hpage hn he hend]
  cases s.reduceOk c.box va data.length <;> rfl

theorem State.hostWrite_unmapped (h : s.mapped c.box va data.length true = false) :
    s.hostWrite c va data = s.roceNak c.num nakAccess := by
  simp [State.hostWrite, h]

end Writes

/-! ### Accesses by connection -/

theorem roceAddr_lt (va : W64) : roceAddr va < 2 ^ 48 := by
  rw [roceAddr, bits]
  omega

/-- The host with the rate of one of its requesters reduced once more. -/
def HostSt.slowed (x : HostSt) (n : Nat) : HostSt :=
  { x with conns := x.conns.map (fun c => if c.num = n then { c with reduced := c.reduced + 1 } else c) }

theorem HostSt.find?_slowed (x : HostSt) (n m : Nat) : (x.slowed n).conns.find? (fun c => c.num == m) =
    (x.conns.find? (fun c => c.num == m)).map (fun c => if c.num = n then { c with reduced := c.reduced + 1 } else c) := by
  rw [HostSt.slowed, List.find?_map]
  refine congrArg (fun p => Option.map _ (List.find? p x.conns)) (funext fun c => ?_)
  by_cases h : c.num = n <;> simp [h]

section Requests
variable {s : State} {conn key : Nat} {va : W64} {c : Conn} (hc : s.conn? conn = some c)
include hc

theorem exec_rdmaWrite_here (data : List Byte) (hkey : key = c.key) (hpos : rocePos va = s.pos)
    (hserving : s.fab.members.getD s.pos .absent = .serving) (hwin : roceWindow va = 0) :
    exec (.rdmaWrite conn key va data) s =
      .next ((s.bump .hostif 0 0 (frames c.mtu data.length)).hostWrite c (roceAddr va) data) := by
  show execRdmaWrite conn key va data s = _
  simp [execRdmaWrite, hc, hkey, hpos, hwin, hserving, -List.getD_eq_getElem?_getD]

theorem exec_rdmaRead_here (n : Nat) (hkey : key = c.key) (hpos : rocePos va = s.pos)
    (hserving : s.fab.members.getD s.pos .absent = .serving) (hwin : roceWindow va = 0) :
    exec (.rdmaRead conn key va n) s = .next ((s.bump .hostif 0 0 1).hostRead c (roceAddr va) n) := by
  show execRdmaRead conn key va n s = _
  simp [execRdmaRead, hc, hkey, hpos, hwin, hserving, -List.getD_eq_getElem?_getD]

/-- The key, the module or the window is not one that a write may name, or the page is not mapped for it. -/
theorem exec_rdmaWrite_nak (data : List Byte) (h : key ≠ c.key ∨ s.fab.members.getD (rocePos va) .absent ≠ .serving ∨
      1 < roceWindow va ∨ (roceWindow va = 0 ∧ rocePos va = s.pos ∧
        s.mapped c.box (roceAddr va) data.length true = false)) :
    exec (.rdmaWrite conn key va data) s =
      .next ((s.bump .hostif 0 0 (frames c.mtu data.length)).roceNak conn nakAccess) := by
  by_cases hrefuse : key ≠ c.key ∨ s.fab.members.getD (rocePos va) .absent ≠ .serving
  · show execRdmaWrite conn key va data s = _
    simp only [execRdmaWrite, hc, State.bump_fab, if_pos hrefuse]
  · obtain ⟨hkey, hserving⟩ : key = c.key ∧ s.fab.members.getD (rocePos va) .absent = .serving := by
      simpa using hrefuse
    rcases h with h | h | hwin | ⟨hwin, hpos, hmap⟩
    · exact absurd hkey h
    · exact absurd hserving h
    · have h0 : roceWindow va ≠ 0 := by omega
      have h1 : roceWindow va ≠ 1 := by omega
      show execRdmaWrite conn key va data s = _
      simp [execRdmaWrite, hc, hkey, hserving, h0, h1, -List.getD_eq_getElem?_getD]
    · rw [exec_rdmaWrite_here hc data hkey hpos (hpos ▸ hserving) hwin, State.hostWrite_unmapped, State.conn?_num hc]
      rw [State.mapped_bump, hmap]

theorem exec_rdmaRead_nak (n : Nat) (h : key ≠ c.key ∨ s.fab.members.getD (rocePos va) .absent ≠ .serving) :
    exec (.rdmaRead conn key va n) s = .next ((s.bump .hostif 0 0 1).roceNak conn nakAccess) := by
  show execRdmaRead conn key va n s = _
  simp only [execRdmaRead, hc, State.bump_fab, if_pos h]

theorem rdmaWrite_refused (data : List Byte) (h : key ≠ c.key ∨ s.fab.members.getD (rocePos va) .absent ≠ .serving ∨
      1 < roceWindow va ∨ (roceWindow va = 0 ∧ rocePos va = s.pos ∧
        s.mapped c.box (roceAddr va) data.length true = false)) :
    ∃ t, exec (.rdmaWrite conn key va data) s = .next t ∧ t.outbox = .roceNak conn nakAccess :: s.outbox ∧
      t.live .hostif 0 9 = s.counted .hostif 0 9 1 ∧ t.mem = s.mem ∧ t.boxes = s.boxes ∧ t.regs = s.regs := by
  have hframe := (s.bump .hostif 0 0 (frames c.mtu data.length)).frame_roceNak conn nakAccess
  refine ⟨_, exec_rdmaWrite_nak hc data h, ?_, ?_, ?_, ?_, ?_⟩
  · rw [State.outbox_roceNak, State.bump_outbox]
  · rw [State.roceNak, State.live_emit, State.live_bump_other _ _ _ _ (by decide), State.live_bump,
      State.counted_bump_other _ _ _ _ _ (by decide)]
  · rw [hframe.mem (by decide), State.bump_mem]
  · rw [hframe.boxes (by decide), State.bump_boxes]
  · rw [hframe.regs (by decide), State.bump_regs]

theorem rdmaRead_refused (n : Nat) (h : key ≠ c.key ∨ s.fab.members.getD (rocePos va) .absent ≠ .serving) :
    ∃ t, exec (.rdmaRead conn key va n) s = .next t ∧ t.outbox = .roceNak conn nakAccess :: s.outbox ∧ t.tier = s.tier := by
  refine ⟨_, exec_rdmaRead_nak hc n h, ?_, ?_⟩
  · rw [State.outbox_roceNak, State.bump_outbox]
  · rw [(State.frame_roceNak ..).tier (by decide), State.bump_tier]

/-! ### Reads of box memory (R308) -/

section Here
variable (hkey : key = c.key) (hpos : rocePos va = s.pos) (hserving : s.fab.members.getD s.pos .absent = .serving)
  (hwin : roceWindow va = 0)
include hkey hpos hserving hwin

section Read
variable {n : Nat} (hmap : s.mapped c.box (roceAddr va) n false = true)
  (habsent : (s.absentIn c.box (roceAddr va) n).isSome = false)
include hmap habsent

theorem rdmaRead_answers (hclean : s.poisonedBox c.box (roceAddr va) n = false) :
    ∃ t, exec (.rdmaRead conn key va n) s = .next t ∧
      t.outbox = .roceData conn (s.readBox c.box (roceAddr va) n) :: s.outbox ∧ t.mem = s.mem ∧ t.boxes = s.boxes ∧
      t.log = s.log := by
  have hread : (s.bump .hostif 0 0 1).hostRead c (roceAddr va) n =
      (s.bump .hostif 0 0 1).roceData conn (s.readBox c.box (roceAddr va) n) := by
    simp [State.hostRead, State.mapped_bump, State.absentIn_bump, State.poisonedBox_bump, State.readBox_bump, hmap, habsent,
      hclean, State.conn?_num hc]
  have hframe := (s.bump .hostif 0 0 1).frame_roceData conn (s.readBox c.box (roceAddr va) n)
  refine ⟨_, hread ▸ exec_rdmaRead_here hc n hkey hpos hserving hwin, ?_, ?_, ?_, ?_⟩
  · rw [State.outbox_roceData, State.bump_outbox]
  · rw [hframe.mem (by decide), State.bump_mem]
  · rw [hframe.boxes (by decide), State.bump_boxes]
  · rw [hframe.log (by decide), State.bump_log]

theorem rdmaRead_poisoned (hbad : s.poisonedBox c.box (roceAddr va) n = true) :
    ∃ t, exec (.rdmaRead conn key va n) s = .next t ∧ t.outbox = .roceNak conn nakOperation :: s.outbox ∧
      Recorded { pageRec .hostif 0 0x0802 .warning with box := some c.box, b := roceAddr va } s t := by
  have hread : (s.bump .hostif 0 0 1).hostRead c (roceAddr va) n =
      ((s.bump .hostif 0 0 1).event { pageRec .hostif 0 0x0802 .warning with
        box := some c.box, b := roceAddr va }).roceNak conn nakOperation := by
    simp [State.hostRead, State.mapped_bump, State.absentIn_bump, State.poisonedBox_bump, hmap, habsent, hbad,
      State.conn?_num hc]
  refine ⟨_, hread ▸ exec_rdmaRead_here hc n hkey hpos hserving hwin, ?_, ?_⟩
  · rw [State.outbox_roceNak, State.event_outbox, State.bump_outbox]
  · rw [Recorded, (State.frame_roceNak ..).log (by decide), State.event_log, State.bump_log]

end Read

/-! ### Writes of box memory (R307, R308) -/

section Write
variable {da : Nat} {e : W64} {data : List Byte} (he : s.pte? c.box (roceAddr va) = some e) (hw : pteWritable e = true)
  (hpage : roceAddr va % pageSize + data.length ≤ pageSize) (hn : 1 ≤ data.length)
  (hkeyed : s.keyless c.box (roceAddr va) data.length = false) (hda : da = pteDa e + roceAddr va % pageSize)
  (hend : da + data.length ≤ flashBase)
include he hw hpage hn hkeyed hda hend

/-- A write within one page is stored where the page's operation takes its length and address, and refused elsewhere. -/
theorem exec_rdmaWrite_page {u : State} (hu : s.bump .hostif 0 0 (frames c.mtu data.length) = u) :
    exec (.rdmaWrite conn key va data) s = .next (if s.reduceOk c.box (roceAddr va) data.length then
        (u.storeBox c.box (roceAddr va) data (fun _ => false)).roceAck conn
      else u.roceNak conn nakInvalid) := by
  have he' : u.pte? c.box (roceAddr va) = some e := by rw [← hu, State.pte?_bump, he]
  have hkeyed' : u.keyless c.box (roceAddr va) data.length = false := by rw [← hu, State.keyless_bump, hkeyed]
  have hok : u.reduceOk c.box (roceAddr va) data.length = s.reduceOk c.box (roceAddr va) data.length := by
    rw [State.reduceOk_page hpage hn he, State.reduceOk_page hpage hn he']
  rw [exec_rdmaWrite_here hc data hkey hpos hserving hwin, hu,
    State.hostWrite_page he' hw (roceAddr_lt va) hpage hn hkeyed' (by rwa [← hda]), hok, State.conn?_num hc]

theorem rdmaWrite_stores (hr : pteReduce e = 0) : ∃ t, exec (.rdmaWrite conn key va data) s = .next t ∧
    t.outbox = .roceAck conn :: s.outbox ∧ t.readBox c.box (roceAddr va) data.length = data ∧
    (∀ i, i < data.length → t.byteAt (da + i) = data.getD i 0) ∧
    ∀ x, (x < da ∨ da + data.length ≤ x) →
      (pteProtected e = false ∨ x / 256 < da / 256 ∨ (da + data.length - 1) / 256 < x / 256) →
      t.byteAt x = s.byteAt x := by
  obtain ⟨u, hu⟩ : ∃ u, s.bump .hostif 0 0 (frames c.mtu data.length) = u := ⟨_, rfl⟩
  have hexec := exec_rdmaWrite_page hc hkey hpos hserving hwin he hw hpage hn hkeyed hda hend hu
  have hok : s.reduceOk c.box (roceAddr va) data.length = true := by rw [State.reduceOk_page hpage hn he, hr]; rfl
  have he' : u.pte? c.box (roceAddr va) = some e := by rw [← hu, State.pte?_bump, he]
  have hpart := State.pageWritten_writePage he' hda hn hend (fun _ => false)
  have hframe := u.frame_writePage c.box (roceAddr va) data (fun _ => false)
  rw [hok, if_pos rfl, State.storeBox_page he' hn hpage, if_pos hr] at hexec
  generalize u.writePage c.box (roceAddr va) data (fun _ => false) = w at hexec hpart hframe
  have hack := w.frame_roceAck conn
  have hwritten := hpart.congr (hack.mem (by decide)) (hack.tier (by decide)) (hack.protUnits (by decide))
    (hack.boxes (by decide))
  refine ⟨_, hexec, ?_, hwritten.readBox he' hda hpage, hwritten.written, fun x hx hout => ?_⟩
  · rw [State.outbox_roceAck, hframe.outbox (by decide), ← hu, State.bump_outbox]
  · rw [hwritten.others x hx hout, ← hu, State.byteAt_bump]

theorem rdmaWrite_reduces (hr : pteReduce e ≠ 0) (hlen : data.length = reduceWidth (pteReduce e))
    (halign : roceAddr va % data.length = 0) : ∃ t, exec (.rdmaWrite conn key va data) s = .next t ∧
    t.outbox = .roceAck conn :: s.outbox ∧
    (∀ i, i < data.length → t.byteAt (da + i) = (s.reduced (pteReduce e) da data).getD i 0) ∧
    ∀ x, (x < da ∨ da + data.length ≤ x) → t.byteAt x = s.byteAt x := by
  obtain ⟨u, hu⟩ : ∃ u, s.bump .hostif 0 0 (frames c.mtu data.length) = u := ⟨_, rfl⟩
  have hexec := exec_rdmaWrite_page hc hkey hpos hserving hwin he hw hpage hn hkeyed hda hend hu
  have hok : s.reduceOk c.box (roceAddr va) data.length = true := by
    rw [State.reduceOk_page hpage hn he, ← hlen, halign]
    simp
  have he' : u.pte? c.box (roceAddr va) = some e := by rw [← hu, State.pte?_bump, he]
  have hpart := State.bytesWritten_reducePage he' hda hlen hend
  have hsame : u.reduced (pteReduce e) da data = s.reduced (pteReduce e) da data := by
    simp only [State.reduced, ← hu, State.byteAt_bump]
  have hframe : Frame _ u (u.reducePage c.box (roceAddr va) data (fun _ => false)) :=
    (State.reducePage_leads .refl (List.Subset.refl _)).frame
  have hsize : (s.reduced (pteReduce e) da data).length = data.length := leBytes_length _ _
  rw [hok, if_pos rfl, State.storeBox_page he' hn hpage, if_neg hr] at hexec
  rw [hsame] at hpart
  generalize u.reducePage c.box (roceAddr va) data (fun _ => false) = w at hexec hpart hframe
  have hack := w.frame_roceAck conn
  obtain ⟨hwritten, hothers⟩ := hpart.congr (hack.mem (by decide)) (hack.tier (by decide))
  rw [hsize] at hwritten hothers
  refine ⟨_, hexec, ?_, hwritten, fun x hx => ?_⟩
  · rw [State.outbox_roceAck, hframe.outbox (by decide), ← hu, State.bump_outbox]
  · rw [hothers x hx, ← hu, State.byteAt_bump]

theorem rdmaWrite_invalid (hr : pteReduce e ≠ 0) (hlen : data.length % reduceWidth (pteReduce e) ≠ 0) :
    ∃ t, exec (.rdmaWrite conn key va data) s = .next t ∧ t.outbox = .roceNak conn nakInvalid :: s.outbox ∧
      t.mem = s.mem ∧ t.boxes = s.boxes := by
  have hexec := exec_rdmaWrite_page hc hkey hpos hserving hwin he hw hpage hn hkeyed hda hend rfl
  have hbad : ¬s.reduceOk c.box (roceAddr va) data.length = true := by
    rw [State.reduceOk_page hpage hn he]
    simp [hr, hlen]
  have hframe := (s.bump .hostif 0 0 (frames c.mtu data.length)).frame_roceNak conn nakInvalid
  refine ⟨_, hexec.trans (congrArg Host.Outcome.next (if_neg hbad)), ?_, ?_, ?_⟩
  · rw [State.outbox_roceNak, State.bump_outbox]
  · rw [hframe.mem (by decide), State.bump_mem]
  · rw [hframe.boxes (by decide), State.bump_boxes]

end Write
end Here

/-! ### Congestion notices (R306) -/

theorem cnpReceive_reduces : ∃ t, exec (.cnpReceive conn) s = .next t ∧
    t.conn? conn = some { c with reduced := c.reduced + 1 } ∧ t.live .hostif 0 10 = s.counted .hostif 0 10 1 ∧
    ∀ n, n ≠ conn → t.conn? n = s.conn? n := by
  obtain ⟨u, hu⟩ : ∃ u, (s.bump .hostif 0 0 1).bump .hostif 0 10 1 = u := ⟨_, rfl⟩
  have hhost : u.host = s.host := by rw [← hu, State.bump_host, State.bump_host]
  have hexec : exec (.cnpReceive conn) s = .next (u.setHost (·.slowed conn)) := by
    show execCnpReceive conn s = _
    simp only [execCnpReceive, hc, hu]
    rfl
  have hfind : ∀ m, (u.setHost (·.slowed conn)).conn? m =
      (s.conn? m).map (fun c => if c.num = conn then { c with reduced := c.reduced + 1 } else c) := fun m => by
    rw [State.conn?, State.setHost_host, HostSt.find?_slowed, hhost, State.conn?]
  refine ⟨_, hexec, ?_, ?_, fun n hn => ?_⟩
  · rw [hfind, hc, Option.map_some, if_pos (State.conn?_num hc)]
  · rw [State.live_setHost, ← hu, State.live_bump, State.counted_bump_other _ _ _ _ _ (by decide)]
  · rw [hfind]
    cases hm : s.conn? n with
    | none => rfl
    | some d => rw [Option.map_some, if_neg (by rw [State.conn?_num hm]; exact hn)]

end Requests

/-- Settles O44: a write or a read of one page by what the page holds afterwards, each refusal by the answer it sends. -/
theorem rdmaAccessesReachBoxMemory : Obligations.RdmaAccessesReachBoxMemory :=
  ⟨fun _ _ _ _ _ _ _ _ hc hkey hpos hserving hwin he hw hpage hn hkeyed hda hend =>
      ⟨rdmaWrite_stores hc hkey hpos hserving hwin he hw hpage hn hkeyed hda hend,
        rdmaWrite_reduces hc hkey hpos hserving hwin he hw hpage hn hkeyed hda hend,
        rdmaWrite_invalid hc hkey hpos hserving hwin he hw hpage hn hkeyed hda hend⟩,
    fun _ _ _ _ data _ hc => rdmaWrite_refused hc data,
    fun _ _ _ n _ _ hc => ⟨fun hkey hpos hserving hwin hmap habsent =>
        ⟨rdmaRead_answers hc hkey hpos hserving hwin hmap habsent,
          rdmaRead_poisoned hc hkey hpos hserving hwin hmap habsent⟩,
      rdmaRead_refused hc n⟩,
    fun _ _ _ hc => cnpReceive_reduces hc⟩

end Sys2Proof.Machine
end

section
/-! Sessions and registers over PBP (R318 to R323, R434): HELLO, BYE, KEEPALIVE, register requests, and a request answered
from the store (R320). -/

namespace Sys2Proof.Machine

-- one theorem after the other: proofs that wait together take too many threads
set_option Elab.async false

/-! ### A message that arrives (R317, R327) -/

section Arrived
variable {s : State} {h : PbpHdr}

/-- The state once a message has been counted. -/
def State.arrived (s : State) (h : PbpHdr) : State :=
  ((s.bump .hostif 0 0 1).bump .hostif 0 5 1).bump .hostif 0 7 (b2n h.resent)

/-- Counting a message reaches the counters alone. -/
theorem State.frame_arrived (s : State) (h : PbpHdr) : Frame [.ctr] s (s.arrived h) :=
  (State.bump_leads (State.bump_leads (State.bump_leads .refl (by decide)) (by decide)) (by decide)).frame

theorem State.host_arrived (s : State) (h : PbpHdr) : (s.arrived h).host = s.host := (s.frame_arrived h).host (by decide)

theorem State.time_arrived (s : State) (h : PbpHdr) : (s.arrived h).time = s.time := (s.frame_arrived h).time (by decide)

theorem State.pbpUp_arrived (s : State) (h : PbpHdr) : (s.arrived h).pbpUp = s.pbpUp := by
  have hfw := (s.frame_arrived h).fw (by decide)
  rw [State.pbpUp, State.comp_of_fw hfw, hfw, State.pbpUp]

theorem State.isWorker_arrived (s : State) (h : PbpHdr) : (s.arrived h).isWorker = s.isWorker := by
  rw [State.isWorker, (s.frame_arrived h).fab (by decide), State.isWorker]

theorem State.session?_arrived (s : State) (h : PbpHdr) (n : Nat) : (s.arrived h).session? n = s.session? n := by
  rw [State.session?, State.host_arrived, State.session?]

theorem State.chosenVersion_arrived (s : State) (h : PbpHdr) (lo hi : Nat) :
    (s.arrived h).chosenVersion lo hi = s.chosenVersion lo hi := by
  rw [State.chosenVersion, State.topVersion, (s.frame_arrived h).stepping (by decide), State.chosenVersion, State.topVersion]

theorem State.modSession_arrived (s : State) (h : PbpHdr) :
    (s.arrived h).modSession h.session (fun k => { k with lastHeard := (s.arrived h).time.t }) = s.heard h := by
  rw [State.time_arrived]
  rfl

/-- A message of a manager's module that takes PBP messages is neither dropped nor sent elsewhere. -/
structure State.Admits (s : State) (h : PbpHdr) : Prop where
  relayed : h.relayed = false
  booted : s.fw.booted = true
  header : hdrBad h = false
  up : s.pbpUp = true
  worker : s.isWorker = false

/-- A request with a stored answer is answered from the store, and is not performed again (R320). -/
theorem State.pbp_stored (ha : s.Admits h) {k : Session} (hk : s.session? h.session = some k) {r : Nat × Nat × List Byte}
    (hr : k.store.find? (fun r => r.1 == h.seq) = some r) (q : PbpReq) (run : State → Nat → Reply) :
    s.pbp h q run = ((s.heard h).bump .hostif 0 1 1).emit (.pbp h.session h.seq r.2.1 r.2.2) := by
  obtain ⟨hrel, hboot, hbad, hup, hworker⟩ := ha
  obtain ⟨u, hu⟩ : ∃ u, s.arrived h = u := ⟨_, rfl⟩
  have hperform : u.perform h q k run = ((s.heard h).bump .hostif 0 1 1).emit (.pbp h.session h.seq r.2.1 r.2.2) := by
    rw [← s.modSession_arrived h, hu, State.perform, hr]
  rw [← s.pbpUp_arrived h, hu] at hup
  rw [← s.isWorker_arrived h, hu] at hworker
  rw [← s.session?_arrived h, hu] at hk
  rw [State.arrived] at hu
  simp only [State.pbp, hrel, hboot, hu, hbad, hup, hworker, hk, hperform, Bool.not_true, Bool.false_eq_true, false_and,
    if_false]

end Arrived

/-! ### HELLO (R318, R320) -/

section Hello
variable {s : State} {h : PbpHdr} {lo hi : Nat}

/-- The response to an opened session: version, number, size and stepping, then a standby's addresses where there is one. -/
theorem State.openSession_opens (s : State) (h : PbpHdr) (v : Nat) : ∃ k p,
    (s.openSession h v).host.sessions = k :: s.host.sessions ∧ k.version = v ∧ k.lastHeard = s.time.t ∧
      Answered h 0 p (s.openSession h v) ∧ 5 ≤ p.length := by
  unfold State.openSession
  dsimp only
  refine ⟨{ num := s.freeSession, version := v, lastHeard := s.time.t }, _, ?_, rfl, rfl, rfl, ?_⟩
  · simp only [State.reject, State.emit_host, State.bump_host]
    split <;> rfl
  · simp only [List.length_append, leBytes_length]
    omega

/-- Every refusal of a HELLO leaves the sessions. -/
theorem State.reject_arrived (s : State) (h : PbpHdr) (st : PbpSt) (p : List Byte) :
    ((s.arrived h).reject h st p).host.sessions = s.host.sessions ∧ Answered h st.code p ((s.arrived h).reject h st p) := by
  refine ⟨?_, rfl⟩
  rw [State.reject, State.emit_host, State.bump_host, State.host_arrived]

theorem exec_hello (ha : s.Admits h) (hlen : h.length = 2) (hnew : h.session = 0) (lo hi : Nat) :
    exec (.hello h lo hi) s = .next ((s.chosenVersion lo hi).elim
      ((s.arrived h).reject h .badVersion (leBytes 1 0x10 ++ leBytes 1 (s.arrived h).topVersion)) (fun v =>
        if 8 ≤ s.host.sessions.length then (s.arrived h).reject h .busy else (s.arrived h).openSession h v)) := by
  obtain ⟨hrel, hboot, hbad, hup, hworker⟩ := ha
  obtain ⟨u, hu⟩ : ∃ u, s.arrived h = u := ⟨_, rfl⟩
  rw [← s.pbpUp_arrived h, hu] at hup
  rw [← s.isWorker_arrived h, hu] at hworker
  rw [← s.chosenVersion_arrived h, ← s.host_arrived h, hu]
  rw [State.arrived] at hu
  show execHello h lo hi s = _
  simp only [execHello, hrel, hboot, hu, hbad, hup, hworker, hlen, hnew, Bool.not_true, Bool.false_eq_true, or_self, if_false,
    ne_eq, not_true_eq_false]
  cases u.chosenVersion lo hi <;> rfl

theorem hello_opens (ha : s.Admits h) (hlen : h.length = 2) (hnew : h.session = 0) {v : Nat}
    (hv : s.chosenVersion lo hi = some v) (hroom : s.host.sessions.length < 8) :
    ∃ t k p, exec (.hello h lo hi) s = .next t ∧ t.host.sessions = k :: s.host.sessions ∧ k.version = v ∧
      k.lastHeard = s.time.t ∧ Answered h 0 p t ∧ 5 ≤ p.length := by
  obtain ⟨k, p, hk, hopen⟩ := (s.arrived h).openSession_opens h v
  rw [State.host_arrived] at hk
  rw [State.time_arrived] at hopen
  refine ⟨_, k, p, (exec_hello ha hlen hnew lo hi).trans ?_, hk, hopen⟩
  rw [hv, Option.elim_some, if_neg (not_le.mpr hroom)]

theorem hello_busy (ha : s.Admits h) (hlen : h.length = 2) (hnew : h.session = 0) {v : Nat}
    (hv : s.chosenVersion lo hi = some v) (hfull : 8 ≤ s.host.sessions.length) :
    ∃ t, exec (.hello h lo hi) s = .next t ∧ t.host.sessions = s.host.sessions ∧ Answered h 8 [] t := by
  refine ⟨_, (exec_hello ha hlen hnew lo hi).trans ?_, s.reject_arrived h .busy []⟩
  rw [hv, Option.elim_some, if_pos hfull]

theorem hello_badVersion (ha : s.Admits h) (hlen : h.length = 2) (hnew : h.session = 0)
    (hv : s.chosenVersion lo hi = none) :
    ∃ t p, exec (.hello h lo hi) s = .next t ∧ t.host.sessions = s.host.sessions ∧ Answered h 2 p t := by
  have hexec := exec_hello ha hlen hnew lo hi
  rw [hv, Option.elim_none] at hexec
  exact ⟨_, _, hexec, s.reject_arrived h .badVersion _⟩

end Hello

/-! ### BYE and KEEPALIVE (R318, R321) -/

section Sessions
variable {s : State} {h : PbpHdr}

/-- A response keeps every session but for its SEQ and the store. -/
theorem State.session?_replied (u : State) (h : PbpHdr) (st : PbpSt) (p : List Byte) (n : Nat) :
    (u.replied h st p).session? n = if h.session = n then (u.session? n).map (fun k =>
      { k.noteSeq h.seq with store := ((h.seq, st.code, p) :: k.store).take 64 }) else u.session? n := by
  have hhost : ((u.bump .hostif 0 1 1).emit (.pbp h.session h.seq st.code p)).session? n = u.session? n := by
    rw [State.session?, State.emit_host, State.bump_host, State.session?]
  rw [State.replied, State.respond, State.session?_modSession]
  · rw [hhost]
  · exact fun _ => rfl

@[simp] theorem State.conns_replied (u : State) (h : PbpHdr) (st : PbpSt) (p : List Byte) :
    (u.replied h st p).host.conns = u.host.conns := by
  simp [State.replied, State.respond, State.modSession]

theorem State.num_of_mem_replied {u : State} {st : PbpSt} {p : List Byte} {k : Session}
    (hk : k ∈ (u.replied h st p).host.sessions) : ∃ k' ∈ u.host.sessions, k'.num = k.num := by
  simp only [State.replied, State.respond, State.modSession, State.setHost_host, State.emit_host, State.bump_host,
    List.mem_map] at hk
  obtain ⟨k', hk', rfl⟩ := hk
  refine ⟨k', hk', ?_⟩
  split <;> rfl

theorem exec_bye_eq (hs : s.serves h 0x10) (hn : h.length = 0) :
    exec (.bye h) s = .next (((s.heard h).closeSession h.session).replied h .ok []) := by
  show execBye h s = _
  rw [execBye, State.pbp_served (q := { len := some 0, boot := true }) hs rfl (fun _ e => hn.trans (Option.some.inj e))
    (.inr rfl)]
  rfl

theorem exec_bye (hs : s.serves h 0x10) (hn : h.length = 0) : ∃ t, exec (.bye h) s = .next t ∧
    (∀ k ∈ t.host.sessions, k.num ≠ h.session) ∧ (∀ c ∈ t.host.conns, c.session ≠ h.session) ∧ Answered h 0 [] t ∧
    ∀ b, b < 64 → (s.box b).session = some h.session → (s.box b).state = .active → (t.box b).state = .draining := by
  have hclosed := (s.heard h).closeSession_closes h.session
  refine ⟨_, exec_bye_eq hs hn, fun k hk => ?_, fun c hc => ?_, State.answered_replied _ h .ok _, fun b hb hmine hactive => ?_⟩
  · obtain ⟨k', hk', hnum⟩ := State.num_of_mem_replied hk
    exact hnum ▸ hclosed.sessions k' hk'
  · rw [State.conns_replied] at hc
    exact hclosed.conns c hc
  · rw [State.box_replied]
    exact hclosed.drains b hb (by rwa [State.box_heard]) (by rwa [State.box_heard])

theorem exec_keepalive_eq (hs : s.serves h 0x10) (hn : h.length = 0) :
    exec (.keepalive h) s = .next ((s.heard h).replied h .ok []) := by
  show execKeepalive h s = _
  rw [execKeepalive, State.pbp_served (q := { len := some 0, boot := true }) hs rfl
    (fun _ e => hn.trans (Option.some.inj e)) (.inr rfl)]
  rfl

/-- The session of a request was heard now. -/
theorem State.session?_heard (s : State) (h : PbpHdr) :
    (s.heard h).session? h.session = (s.session? h.session).map (fun k => { k with lastHeard := s.time.t }) := by
  rw [State.heard, State.session?_modSession _ _ _ (fun k => { k with lastHeard := s.time.t }) fun _ => rfl, if_pos rfl]
  exact congrArg _ (s.session?_arrived h h.session)

theorem State.lastHeard_heard {k : Session} (hk : (s.heard h).session? h.session = some k) : k.lastHeard = s.time.t := by
  rw [State.session?_heard] at hk
  obtain ⟨k', -, rfl⟩ := Option.map_eq_some_iff.mp hk
  rfl

theorem exec_keepalive (hs : s.serves h 0x10) (hn : h.length = 0) : ∃ t, exec (.keepalive h) s = .next t ∧
    Answered h 0 [] t ∧ (∀ k, t.session? h.session = some k → k.lastHeard = s.time.t) ∧ t.regs = s.regs ∧
    t.boxes = s.boxes := by
  refine ⟨_, exec_keepalive_eq hs hn, State.answered_replied _ h .ok _, fun k hk => ?_, ?_, ?_⟩
  · rw [State.session?_replied, if_pos rfl] at hk
    obtain ⟨k', hk', rfl⟩ := Option.map_eq_some_iff.mp hk
    exact (rfl : _ = k'.lastHeard).trans (State.lastHeard_heard hk')
  · rw [State.regs_replied, State.regs_heard]
  · rw [State.boxes_replied, State.boxes_heard]

end Sessions

/-! ### Register requests (R322, R323, R434) -/

section Registers
variable {s : State} {h : PbpHdr} {n : Nat} {ops : List RegOp}

/-- A write among the accesses that PBP may not make. -/
def anyDenied (ops : List RegOp) : Bool := ops.any (fun o => o.value.isSome && pbpDenied o.addr)

theorem anyDenied_iff : anyDenied ops = true ↔ ∃ o ∈ ops, o.value.isSome = true ∧ pbpDenied o.addr = true := by
  simp [anyDenied]

theorem anyDenied_eq_false_iff :
    anyDenied ops = false ↔ ∀ o ∈ ops, o.value.isSome = true → pbpDenied o.addr = false := by
  simp [anyDenied]

theorem State.emulate_denied (hd : anyDenied ops = true) : s.emulate h n ops = s.answer .denied := if_pos hd

theorem State.emulate_late (hd : anyDenied ops = false) (hlate : h.late = true) (hrouted : ops.all opRouted = false) :
    s.emulate h n ops = s.retryLater := by
  rw [State.emulate, if_neg (by rw [← anyDenied, hd]; exact Bool.false_ne_true), if_pos (by rw [hlate, hrouted]; decide)]

theorem State.emulate_performed (hrel : h.relayed = false) (hd : anyDenied ops = false)
    (hdue : h.late = false ∨ ops.all opRouted = true) :
    s.emulate h n ops = (s.regOps (some n) ops).1.answer .ok (s.regOps (some n) ops).2 := by
  have hnow : ¬((h.late : Prop) ∧ !ops.all opRouted) := by
    rcases hdue with hdue | hdue <;> rw [hdue] <;> simp
  rw [State.emulate, if_neg (by rw [← anyDenied, hd]; exact Bool.false_ne_true), if_neg hnow, hrel, if_neg Bool.false_ne_true]

/-- A register request that its session may make is emulated on the state in which it was heard. -/
def Emulated (s : State) (h : PbpHdr) (ops : List RegOp) (c : Instr) : Prop :=
  exec c s = .next (pbpReply h ((s.heard h).emulate h h.session ops))

theorem emulated_regRead (hs : s.servesHere h 0x10) (hn : h.length = 4) (a : Nat) :
    Emulated s h [{ addr := a, value := none }] (.regRead h a) := by
  obtain ⟨hserves, hrunning, hpos⟩ := hs
  show execRegRead h a s = _
  rw [execRegRead, State.pbp_served (q := { len := some 4, boot := bootPage a, relay := true }) hserves rfl
    (fun _ e => hn.trans (Option.some.inj e)) (.inl hrunning), State.atTarget_here (hpos.trans (s.pos_heard h).symm)]

theorem emulated_regWrite (hs : s.servesHere h 0x10) (hn : h.length = 8) (a : Nat) (v : W32) :
    Emulated s h [{ addr := a, value := some v }] (.regWrite h a v) := by
  obtain ⟨hserves, hrunning, hpos⟩ := hs
  show execRegWrite h a v s = _
  rw [execRegWrite, State.pbp_served (q := { len := some 8, router := fwctlPage a, relay := true }) hserves rfl
    (fun _ e => hn.trans (Option.some.inj e)) (.inl hrunning), State.atTarget_here (hpos.trans (s.pos_heard h).symm)]

theorem emulated_regBatch (hs : s.servesHere h 0x11) (hlen : 1 ≤ ops.length ∧ ops.length ≤ 64) :
    Emulated s h ops (.regBatch h ops) := by
  obtain ⟨hserves, hrunning, hpos⟩ := hs
  show execRegBatch h ops s = _
  rw [execRegBatch, State.pbp_served
    (q := { since := 0x11, valid := decide (1 ≤ ops.length ∧ ops.length ≤ 64), router := ops.all opRouted, relay := true })
    hserves (decide_eq_true hlen) (fun _ e => nomatch e) (.inl hrunning),
    State.atTarget_here (hpos.trans (s.pos_heard h).symm)]

variable {c : Instr} (he : Emulated s h ops c)
include he

theorem Emulated.denied (hd : anyDenied ops = true) :
    ∃ t, exec c s = .next t ∧ Answered h 5 [] t ∧ t.regs = s.regs := by
  rw [Emulated, State.emulate_denied hd, pbpReply_answer] at he
  exact ⟨_, he, State.answered_replied _ h .denied _, by rw [State.regs_replied, State.regs_heard]⟩

theorem Emulated.late (hd : anyDenied ops = false) (hlate : h.late = true) (hrouted : ops.all opRouted = false) :
    ∃ t, exec c s = .next t ∧ Answered h 1 [] t ∧ t.regs = s.regs := by
  rw [Emulated, State.emulate_late hd hlate hrouted] at he
  refine ⟨_, he, rfl, ?_⟩
  have hregs : (s.heard h).retryLater.1.regs = (s.heard h).regs :=
    (State.retryLater_leads .refl (List.Subset.refl _)).frame.regs (by decide)
  exact (State.regs_replied _ h .retryLater []).trans (hregs.trans (s.regs_heard h))

theorem Emulated.performed (hrel : h.relayed = false) (hd : anyDenied ops = false)
    (hdue : h.late = false ∨ ops.all opRouted = true) : ∃ t, exec c s = .next t ∧
      Answered h 0 ((s.heard h).regOps (some h.session) ops).2 t ∧
      t.regs = ((s.heard h).regOps (some h.session) ops).1.regs := by
  rw [Emulated, State.emulate_performed hrel hd hdue, pbpReply_answer] at he
  exact ⟨_, he, State.answered_replied _ h .ok _, State.regs_replied ..⟩

end Registers

section RegisterRequests
variable {s : State} {h : PbpHdr}

theorem State.servesHere.relayed {since : Nat} (hs : s.servesHere h since) : h.relayed = false := by
  obtain ⟨⟨hrelayed, -⟩, -⟩ := hs
  exact hrelayed

theorem regRead_reads (hs : s.servesHere h 0x10) (hn : h.length = 4) (hlate : h.late = false) (a : Nat) :
    ∃ t, exec (.regRead h a) s = .next t ∧
      t.regs = ((s.heard h).regOps (some h.session) [{ addr := a, value := none }]).1.regs ∧
      Answered h 0 ((s.heard h).regOps (some h.session) [{ addr := a, value := none }]).2 t := by
  obtain ⟨t, ht, hans, hregs⟩ := (emulated_regRead hs hn a).performed hs.relayed rfl (.inl hlate)
  exact ⟨t, ht, hregs, hans⟩

theorem regWrite_writes (hs : s.servesHere h 0x10) (hn : h.length = 8) (a : Nat) (v : W32) :
    (pbpDenied a = true → ∃ t, exec (.regWrite h a v) s = .next t ∧ Answered h 5 [] t ∧ t.regs = s.regs) ∧
    (pbpDenied a = false → (h.late = false ∨ fwctlPage a = true) → ∃ t p, exec (.regWrite h a v) s = .next t ∧
      Answered h 0 p t ∧ t.regs = ((s.heard h).regOps (some h.session) [{ addr := a, value := some v }]).1.regs) ∧
    (pbpDenied a = false → h.late = true → fwctlPage a = false → ∃ t, exec (.regWrite h a v) s = .next t ∧
      Answered h 1 [] t ∧ t.regs = s.regs) := by
  have he := emulated_regWrite hs hn a v
  have hdenied : anyDenied [{ addr := a, value := some v }] = pbpDenied a := by simp [anyDenied]
  have hrouted : [({ addr := a, value := some v } : RegOp)].all opRouted = fwctlPage a := by simp [opRouted]
  refine ⟨fun hd => he.denied (hdenied.trans hd), fun hd hdue => ?_, fun hd hlate hpage =>
    he.late (hdenied.trans hd) hlate (hrouted.trans hpage)⟩
  obtain ⟨t, ht⟩ := he.performed hs.relayed (hdenied.trans hd) (hrouted ▸ hdue)
  exact ⟨t, _, ht⟩

theorem regBatch_performs (hs : s.servesHere h 0x11) {l : List RegOp} (hlen : 1 ≤ l.length ∧ l.length ≤ 64) :
    ((∀ o ∈ l, o.value.isSome = true → pbpDenied o.addr = false) → h.late = false → ∃ t, exec (.regBatch h l) s = .next t ∧
      Answered h 0 ((s.heard h).regOps (some h.session) l).2 t ∧ t.regs = ((s.heard h).regOps (some h.session) l).1.regs) ∧
    ((∃ o ∈ l, o.value.isSome = true ∧ pbpDenied o.addr = true) → ∃ t, exec (.regBatch h l) s = .next t ∧
      Answered h 5 [] t ∧ t.regs = s.regs) := by
  have he := emulated_regBatch hs hlen
  exact ⟨fun hd hlate => he.performed hs.relayed (anyDenied_eq_false_iff.mpr hd) (.inl hlate),
    fun hd => he.denied (anyDenied_iff.mpr hd)⟩

theorem regWrite_stored (ha : s.Admits h) {k : Session} (hk : s.session? h.session = some k) {r : Nat × Nat × List Byte}
    (hr : k.store.find? (fun r => r.1 == h.seq) = some r) (a : Nat) (v : W32) :
    ∃ t, exec (.regWrite h a v) s = .next t ∧ t.regs = s.regs ∧ Answered h r.2.1 r.2.2 t := by
  refine ⟨_, congrArg Host.Outcome.next (State.pbp_stored ha hk hr _ _), ?_, rfl⟩
  rw [State.emit_regs, State.bump_regs, State.regs_heard]

end RegisterRequests

end Sys2Proof.Machine
end

section
/-! Rings and connections over PBP (R306, R309, R318, R322, R325): SUBMIT_EMU, CONNECT, RING_SETUP and RESUME. -/

namespace Sys2Proof.Machine

-- one theorem after the other: proofs that wait together take too many threads
set_option Elab.async false

/-! ### SUBMIT_EMU (R322) -/

section SubmitEmu
variable {s : State} {h : PbpHdr} {b : Nat} {r : SubRing} {e d : List Byte}

theorem State.boxes_when_writeBox (s : State) (c : Bool) (b va : Nat) (bs : List Byte) :
    (s.when c (s.writeBox b va bs)).boxes = s.boxes :=
  (Leads.when .refl (State.writeBox_leads .refl (List.Subset.refl _))).frame.boxes (by decide)

/-- The entry and the descriptor go into box memory, and the ring's tail moves behind them. -/
theorem State.subs_submitEmu (hb : b < s.boxes.length)
    (hr : (s.box b).subs.find? (fun q => q.index == 0) = some r) :
    ((s.submitEmu b r e d).box b).subs.find? (fun q => q.index == 0) =
      some { r with tail := (r.tail + 1) % 2 ^ 32 } := by
  have hindex : r.index = 0 := by simpa using List.find?_some hr
  obtain ⟨u, hu, heq⟩ : ∃ u : State, u.boxes = s.boxes ∧ s.submitEmu b r e d = u.modBox b (fun x => { x with
      subs := x.subs.map (fun q => if q.index = r.index then { q with tail := (q.tail + 1) % 2 ^ 32 } else q) }) :=
    ⟨_, (State.boxes_when_writeBox ..).trans (State.boxes_when_writeBox ..), rfl⟩
  simp only [hindex] at heq
  rw [heq, State.box_modBox_same (hu ▸ hb), State.box_of_boxes hu]
  exact find?_map_ring hr (fun q => { q with tail := (q.tail + 1) % 2 ^ 32 }) fun _ => rfl

variable (hs : s.servesHere h 0x10) (hn : h.length = 192) (he : e.length = 64) (hd : d.length = 128)
  (hactive : (s.box h.box).state = .active) (hopened : s.opened h.box h.session = true) (hlate : h.late = false)
  (hr : (s.box h.box).subs.find? (fun q => q.index == 0) = some r)
include hs hn he hd hactive hopened hlate hr

/-- A SUBMIT_EMU in time, for ring 0 of a box that the session opened, is submitted while the ring has room. -/
theorem exec_submitEmu : exec (.submitEmu h e d) s = .next (pbpReply h (
    if r.size ≤ (r.tail + 2 ^ 32 - r.taken) % 2 ^ 32 then (s.heard h).answer .state
    else ((((s.heard h).bump .hub 0 9 1).bump .fwctl 0 1 1).submitEmu h.box r e d).answer .ok)) := by
  obtain ⟨hserves, hrunning, -⟩ := hs
  have hvalid : (e.length == 64 && d.length == 128) = true := by rw [he, hd]; rfl
  have hdenied : ¬(((s.heard h).box h.box).state ≠ .active ∨ !(s.heard h).opened h.box h.session) := by
    rw [State.box_heard, hactive, State.opened_heard, hopened]
    simp
  show execSubmitEmu h e d s = _
  rw [execSubmitEmu, State.pbp_served (q := { len := some 192, valid := e.length == 64 && d.length == 128 }) hserves hvalid
    (fun _ e => hn.trans (Option.some.inj e)) (.inl hrunning)]
  dsimp only
  rw [if_neg hdenied, if_neg (by rw [hlate]; exact Bool.false_ne_true), State.box_heard, hr]

theorem submitEmu_submits (hb : h.box < s.boxes.length) (hroom : (r.tail + 2 ^ 32 - r.taken) % 2 ^ 32 < r.size) :
    ∃ t, exec (.submitEmu h e d) s = .next t ∧ Answered h 0 [] t ∧
      (t.box h.box).subs.find? (fun q => q.index == 0) = some { r with tail := (r.tail + 1) % 2 ^ 32 } := by
  have hexec := exec_submitEmu hs hn he hd hactive hopened hlate hr
  rw [if_neg (not_le.mpr hroom), pbpReply_answer] at hexec
  refine ⟨_, hexec, State.answered_replied _ h .ok _, ?_⟩
  rw [State.box_replied, State.subs_submitEmu]
  · rwa [State.bump_boxes, State.bump_boxes, State.boxes_heard]
  · rwa [State.box_bump, State.box_bump, State.box_heard]

theorem submitEmu_full (hfull : r.size ≤ (r.tail + 2 ^ 32 - r.taken) % 2 ^ 32) :
    ∃ t, exec (.submitEmu h e d) s = .next t ∧ Answered h 10 [] t ∧ t.boxes = s.boxes ∧ t.mem = s.mem := by
  have hexec := exec_submitEmu hs hn he hd hactive hopened hlate hr
  rw [if_pos hfull, pbpReply_answer] at hexec
  refine ⟨_, hexec, State.answered_replied _ h .state _, ?_, ?_⟩
  · rw [State.boxes_replied, State.boxes_heard]
  · rw [(State.frame_replied ..).mem (by decide), (s.frame_heard h).mem (by decide)]

end SubmitEmu

/-! ### CONNECT (R306, R318) -/

section Connect
variable {s : State} {h : PbpHdr} {hostQp psn mtu role : Nat}

/-- What hearing a request leaves of the host's side: all but when its session was last heard. -/
theorem State.host_heard (s : State) (h : PbpHdr) :
    (s.heard h).host = { s.host with sessions := (s.heard h).host.sessions } := by
  simp [State.heard, State.modSession]

/-- The connection that CONNECT makes, with free values for its QP number, PSN and key. -/
def State.newConn (s : State) (h : PbpHdr) (hostQp psn mtu role : Nat) : Conn :=
  { num := s.host.nextConn, session := h.session, box := h.box, key := (Config.freeWord s.draw.1 2).toNat, role := role,
    mtu := mtu, hostQp := hostQp, hostPsn := psn, qp := (Config.freeWord s.draw.1 0).toNat % 2 ^ 24,
    psn := (Config.freeWord s.draw.1 1).toNat % 2 ^ 24 }

/-- The state with one connection more. -/
def State.connected (s : State) (c : Conn) : State :=
  (s.draw.2.setHost (fun h => { h with conns := h.conns ++ [c], nextConn := h.nextConn + 1 })).changed .hostif 0

theorem exec_connect_eq (hs : s.servesHere h 0x10) (hmay : s.mayUse h.box h.session = true)
    (hmtu : mtu = 1024 ∨ mtu = 2048 ∨ mtu = 4096) (hrole : role < 2) (hroom : s.host.conns.length < 256) {c : Conn}
    (hc : (s.heard h).newConn h hostQp psn mtu role = c) :
    exec (.connect h hostQp psn mtu role) s = .next (((s.heard h).connected c).replied h .ok
      (leBytes 4 c.qp ++ leBytes 4 c.psn ++ leBytes 4 c.key)) := by
  obtain ⟨hserves, hrunning, -⟩ := hs
  have hvalid : (decide (mtu = 1024 ∨ mtu = 2048 ∨ mtu = 4096) && decide (role < 2)) = true := by simp [hmtu, hrole]
  have hfew : ¬256 ≤ (s.heard h).host.conns.length := by rw [State.host_heard]; exact not_le.mpr hroom
  subst hc
  show execConnect h hostQp psn mtu role s = _
  rw [execConnect, State.pbp_served
    (q := { valid := decide (mtu = 1024 ∨ mtu = 2048 ∨ mtu = 4096) && decide (role < 2) }) hserves hvalid
    (fun _ e => nomatch e) (.inl hrunning), if_neg (by rw [State.mayUse_heard, hmay]; exact Bool.false_ne_true), if_neg hfew]
  rfl

theorem connect_connects (hs : s.servesHere h 0x10) (hmay : s.mayUse h.box h.session = true)
    (hmtu : mtu = 1024 ∨ mtu = 2048 ∨ mtu = 4096) (hrole : role < 2) (hroom : s.host.conns.length < 256) :
    ∃ (t : State) (c : Conn) (p : List Byte), exec (.connect h hostQp psn mtu role) s = .next t ∧
      t.host.conns = s.host.conns ++ [c] ∧
      c.session = h.session ∧ c.box = h.box ∧ c.mtu = mtu ∧ c.role = role ∧ c.hostQp = hostQp ∧ c.hostPsn = psn ∧
      c.num = s.host.nextConn ∧ Answered h 0 p t ∧ p.length = 12 := by
  have hexec := exec_connect_eq (hostQp := hostQp) (psn := psn) hs hmay hmtu hrole hroom rfl
  refine ⟨_, (s.heard h).newConn h hostQp psn mtu role, _, hexec, ?_, rfl, rfl, rfl, rfl, rfl, rfl, ?_,
    State.answered_replied _ h .ok _, ?_⟩
  · rw [State.conns_replied]
    show (s.heard h).host.conns ++ _ = _
    rw [State.host_heard]
  · show (s.heard h).host.nextConn = _
    rw [State.host_heard]
  · simp only [List.length_append, leBytes_length]

end Connect

/-! ### RING_SETUP (R309) -/

section RingSetup
variable {s : State} {h : PbpHdr} {kind : RingKind} {n z a key : Nat}

/-- A ring of an allowed size is set up while its box is DISABLED; a submission ring at no other time. -/
theorem exec_ringSetup_eq (hs : s.servesHere h 0x10) (hmay : s.mayUse h.box h.session = true) (hz : 6 ≤ z ∧ z ≤ 16)
    (hn : n ≤ 7) : exec (.ringSetup h kind n z a key) s = .next (pbpReply h (
      if (s.box h.box).state = .disabled then
        ((s.heard h).modBox h.box (fun x => x.setRing kind n (2 ^ z) a key)).answer .ok
      else if (s.heard h).mayRepeat h.box h.session kind then
        ((s.heard h).modBox h.box (fun x => x.repeatRing kind (2 ^ z) a key)).answer .ok
      else (s.heard h).answer .state)) := by
  obtain ⟨hserves, hrunning, -⟩ := hs
  obtain ⟨hlo, hhi⟩ := hz
  show execRingSetup h kind n z a key s = _
  rw [execRingSetup, State.pbp_served (q := {}) hserves rfl (fun _ e => nomatch e) (.inl hrunning),
    if_neg (by rw [State.mayUse_heard, hmay]; exact Bool.false_ne_true), if_neg (by omega), State.box_heard]

/-- The ring that was set up last is the one that its index finds. -/
theorem BoxSt.find?_setRing (x : BoxSt) (n size a key : Nat) :
    (x.setRing .submit n size a key).subs.find? (fun q => q.index == n) =
      some { index := n, addr := a, size := size } := by
  have hnone : (x.subs.filter (fun q => q.index != n)).find? (fun q => q.index == n) = none :=
    List.find?_eq_none.mpr fun q hq => by simpa using (List.mem_filter.mp hq).2
  simp [BoxSt.setRing, List.find?_append, hnone]

theorem State.mayUse_of_disabled (h : (s.box n).state = .disabled) (k : Nat) : s.mayUse n k = true := by
  rw [State.mayUse, h]
  rfl

theorem box_ringSetup (hb : h.box < s.boxes.length) :
    (((s.heard h).modBox h.box (fun x => x.setRing kind n (2 ^ z) a key)).replied h .ok []).box h.box =
      (s.box h.box).setRing kind n (2 ^ z) a key := by
  rw [State.box_replied, State.box_modBox_same (by rwa [State.boxes_heard]), State.box_heard]

variable (hs : s.servesHere h 0x10) (hz : 6 ≤ z ∧ z ≤ 16) (hn : n ≤ 7)
include hs hz hn

theorem exec_ringSetup_disabled (hst : (s.box h.box).state = .disabled) : exec (.ringSetup h kind n z a key) s =
    .next (((s.heard h).modBox h.box (fun x => x.setRing kind n (2 ^ z) a key)).replied h .ok []) := by
  rw [exec_ringSetup_eq hs (State.mayUse_of_disabled hst _) hz hn, if_pos hst, pbpReply_answer]

theorem ringSetup_submit (hb : h.box < s.boxes.length) (hst : (s.box h.box).state = .disabled) :
    ∃ t, exec (.ringSetup h .submit n z a key) s = .next t ∧ Answered h 0 [] t ∧ OtherBoxes h.box s t ∧
      (t.box h.box).subs.find? (fun q => q.index == n) = some { index := n, addr := a, size := 2 ^ z } := by
  refine ⟨_, exec_ringSetup_disabled hs hz hn hst, State.answered_replied _ h .ok _, fun d hd => ?_, ?_⟩
  · rw [State.box_replied, OtherBoxes.modBox _ h.box _ d hd, State.box_heard]
  · rw [box_ringSetup hb, BoxSt.find?_setRing]

theorem ringSetup_completion (hb : h.box < s.boxes.length) (hst : (s.box h.box).state = .disabled) :
    ∃ t, exec (.ringSetup h .completion n z a key) s = .next t ∧ Answered h 0 [] t ∧
      (t.box h.box).cq = some { addr := a, key := key, size := 2 ^ z } ∧ (t.box h.box).cqN = {} := by
  refine ⟨_, exec_ringSetup_disabled hs hz hn hst, State.answered_replied _ h .ok _, ?_, ?_⟩
  · rw [box_ringSetup hb]
    rfl
  · rw [box_ringSetup hb]
    rfl

theorem ringSetup_refused (hst : (s.box h.box).state ≠ .disabled) (hmay : s.mayUse h.box h.session = true) :
    ∃ t, exec (.ringSetup h .submit n z a key) s = .next t ∧ Answered h 10 [] t ∧ t.boxes = s.boxes := by
  have hexec := exec_ringSetup_eq (kind := .submit) (a := a) (key := key) hs hmay hz hn
  have honce : ¬(s.heard h).mayRepeat h.box h.session .submit = true := by simp [State.mayRepeat]
  rw [if_neg hst, if_neg honce, pbpReply_answer] at hexec
  exact ⟨_, hexec, State.answered_replied _ h .state _, by rw [State.boxes_replied, State.boxes_heard]⟩

end RingSetup

/-! ### RESUME (R325) -/

section Resume
variable {s : State} {h : PbpHdr}

/-- Counts that the ledger took, for each submission ring of a box. -/
def State.takenCounts (s : State) (b : Nat) : List Byte :=
  (List.range 8).flatMap (fun r => match (s.box b).subs.find? (fun q => q.index == r) with
    | some q => leBytes 4 q.taken
    | none => [])

/-- The state in which a session has resumed a lost one. -/
def State.resumed (s : State) (n old : Nat) : State := s.modSession n (fun k => { k with resumed := some old })

theorem State.session?_resumed (s : State) (n old : Nat) :
    (s.resumed n old).session? n = (s.session? n).map (fun k => { k with resumed := some old }) := by
  rw [State.resumed, State.session?_modSession _ _ _ (fun k => { k with resumed := some old }) fun _ => rfl, if_pos rfl]

/-- A response leaves what its session resumed. -/
theorem State.resumed_replied {k : Session} (hk : s.session? h.session = some k) (st : PbpSt) (p : List Byte) :
    ∃ k', (s.replied h st p).session? h.session = some k' ∧ k'.resumed = k.resumed := by
  rw [State.session?_replied, if_pos rfl, hk]
  exact ⟨_, rfl, rfl⟩

variable (hs : s.servesHere h 0x12)
include hs

theorem exec_pbpResume_eq (old : Nat) : exec (.pbpResume h old) s = .next (pbpReply h (
    if !s.host.tookOver then (s.heard h).answer .state
    else ((s.heard h).resumed h.session old).answer .ok (((s.heard h).resumed h.session old).takenCounts h.box))) := by
  obtain ⟨hserves, hrunning, -⟩ := hs
  have htook : (s.heard h).host.tookOver = s.host.tookOver := by rw [State.host_heard]
  show execPbpResume h old s = _
  rw [execPbpResume, State.pbp_served (q := { since := 0x12 }) hserves rfl (fun _ e => nomatch e) (.inl hrunning), htook]
  rfl

theorem pbpResume_resumes (old : Nat) (htook : s.host.tookOver = true) : ∃ t k p, exec (.pbpResume h old) s = .next t ∧
    t.session? h.session = some k ∧ k.resumed = some old ∧ Answered h 0 p t := by
  have hexec := exec_pbpResume_eq hs old
  rw [htook, Bool.not_true, if_neg Bool.false_ne_true, pbpReply_answer] at hexec
  obtain ⟨⟨-, -, -, -, -, -, -, k, hk, -⟩, -, -⟩ := hs
  have hresumed := ((s.heard h).session?_resumed h.session old).trans (congrArg _ ((s.session?_heard h).trans (congrArg _ hk)))
  obtain ⟨k', hk', hold⟩ := State.resumed_replied hresumed .ok (((s.heard h).resumed h.session old).takenCounts h.box)
  exact ⟨_, k', _, hexec, hk', hold, State.answered_replied _ h .ok _⟩

theorem pbpResume_refused (old : Nat) (htook : s.host.tookOver = false) :
    ∃ t, exec (.pbpResume h old) s = .next t ∧ Answered h 10 [] t := by
  have hexec := exec_pbpResume_eq hs old
  rw [htook, Bool.not_false, if_pos rfl, pbpReply_answer] at hexec
  exact ⟨_, hexec, State.answered_replied _ h .state _⟩

end Resume

/-- Settles O41: each request by the state in which it was heard and its answer; a session's close and the register bus are
laws of their own. -/
theorem sessionsServeRegistersAndRings : Obligations.SessionsServeRegistersAndRings := by
  refine ⟨fun s h lo hi hrel hboot hbad hup hworker hlen hnew => ?_, fun s h hs _ hn => exec_bye hs hn,
    fun s h hs hn => exec_keepalive hs hn, fun s h a hs hn hlate => regRead_reads hs hn hlate a,
    fun s h a v hs hn => regWrite_writes hs hn a v, fun s h l hs h1 h64 => regBatch_performs hs ⟨h1, h64⟩,
    fun s h e d r hs hsh hb hn he hd hactive hopened hlate hr =>
      ⟨submitEmu_submits hs hn he hd hactive hopened hlate hr (hsh.lt_boxes hb),
        submitEmu_full hs hn he hd hactive hopened hlate hr⟩,
    fun s h qp psn mtu role hs hmay hmtu hrole hroom => connect_connects hs hmay hmtu hrole hroom,
    fun s h n z a key hs hsh hb hlo hhi hn => ⟨ringSetup_submit hs ⟨hlo, hhi⟩ hn (hsh.lt_boxes hb),
      ringSetup_completion hs ⟨hlo, hhi⟩ hn (hsh.lt_boxes hb), ringSetup_refused hs ⟨hlo, hhi⟩ hn⟩,
    fun s h old hs => ⟨pbpResume_resumes hs old, pbpResume_refused hs old⟩,
    fun s h a v k r hrel hboot hbad hup hworker hk hr => regWrite_stored ⟨hrel, hboot, hbad, hup, hworker⟩ hk hr a v⟩
  have ha : s.Admits h := ⟨hrel, hboot, hbad, hup, hworker⟩
  exact ⟨fun v hv => hello_opens ha hlen hnew hv, fun v hv => hello_busy ha hlen hnew hv, hello_badVersion ha hlen hnew⟩

end Sys2Proof.Machine
end
